-- ==== Sys2Proof/Word.lean ====
section
/-!
DEFINITION. The word types of the package (spec/00_scope.md R1 to R10) and the plainest arithmetic on them.
-/
namespace Sys2Proof

/-- One byte of memory. -/
abbrev Byte := BitVec 8
/-- A binary32 code. -/
abbrev F32 := BitVec 32
/-- A 64-bit register or command word. -/
abbrev Word := BitVec 64

end Sys2Proof
end

