-- ==== Sys2Proof/Syntax.lean ====
section
/-!
DEFINITION. The commands and events of the package: one constructor of `Instr` for every row of spec/opcode_table.json, with the
operands the spec's rules give the step and, for an event, what its environment supplies (a time elapsed, a sensor reading, a
peer's frame; log entry 12).
-/
namespace Sys2Proof

/-- A 32-byte engine command (R111, R163, R331, R616). -/
structure Words4 where
  w0 : Word
  w1 : Word
  w2 : Word
  w3 : Word
  deriving DecidableEq, Repr

/-- A packed engine ID (R13). Cluster value 3 is clamped where the command is taken (R15). -/
abbrev EngId := BitVec 7

/-- Names a running stage chain: its home cluster, its launch record, whether it is the chain launched ahead by OVERLAP (R352), and
whether it runs beside the record's own sequence, as a regeneration or a predictor commit does (R229, R232). -/
structure ChainRef where
  cluster : Fin 24
  launch : BitVec 12
  ahead : Bool := false
  extra : Bool := false
  deriving DecidableEq, Repr

/-- Names a rerun unit (R288): a launch record and, for work in a region, its REGION and which of its parts. -/
structure RerunRef where
  launch : BitVec 12
  region : BitVec 16
  /-- RPHASE of R327: 0 forward, 1 recompute or 2 backward (one unit), 3 regeneration; not read when `region` is 0xFFFF -/
  phase : BitVec 2
  deriving DecidableEq, Repr

/-- A byte of on-package SRAM, by its memory and byte offset. -/
inductive SramSite where
  | lens (e : EngId) (off : BitVec 24)
  | cluster (c : Fin 24) (off : BitVec 24)
  | gallery (d : Fin 2) (off : BitVec 28)
  /-- no SRAM: a sector of HBM, as the destination of a line at its controller (R282) -/
  | hbm (addr : BitVec 48)
  deriving DecidableEq, Repr

/-- Where a line in transfer comes from, as R284 sorts sources. -/
inductive LineSource where
  /-- an SRAM line or an HBM3E sector that the source still holds -/
  | held
  /-- an engine output, from WRITE_OUT or a vector command with OUT_DESC -/
  | engineOutput
  /-- a clean copy of a lower tier stands behind the source -/
  | cleanLower
  deriving DecidableEq, Repr

/-- One line on its way to a destination (R282): the destination's line, the data as they arrived, the byte-enable mask, the poison
flag, the CRC-32 the source computed, the source's kind and tier (R445), and the stage of the chain that needs it. -/
structure LineArrival where
  site : SramSite
  data : BitVec 1024
  mask : BitVec 128
  poison : Bool
  crc : BitVec 32
  source : LineSource
  tier : Fin 3
  reader : ChainRef
  stage : Fin 6
  deriving DecidableEq, Repr

/-- One lens-buffer image that a fetched tile is delivered to, or a stored tile taken from (PERMIT of the command list: which
descriptor's tile goes to which lens unit). -/
structure LensLoad where
  desc : BitVec 16
  tile : BitVec 24
  unit : BitVec 15
  scaleUnit : BitVec 15
  deriving DecidableEq, Repr

/-- The wait that ends as a waiter goes on (R834, R836): what it awaited (ON) and who (WHO, WHO_DIE, LINK). -/
structure SyncWait where
  on : BitVec 3 := 0
  who : BitVec 12 := 0
  whoDie : Bool := false
  link : BitVec 4 := 0
  deriving DecidableEq, Repr

/-- Where a sequencer's or collective engine's command image comes from: given whole, or read from the program of the running
launch record at the sequence's next offset (R600, R352). -/
inductive CmdImage where
  | words (ws : List Word)
  | program
  deriving DecidableEq, Repr

/-- The two moments of a request at a pseudo-channel controller (R383 to R385). `ready` says which bank indices are ready; the noise is
what the array and the interface have done to the stored word since (R374 to R376), and `severity` is the stack's report (R375). -/
inductive HbmPhase where
  | arrive
  | serve (ready : BitVec 64) (noise : BitVec 256) (checkNoise : BitVec 16) (severity : Bool)
  deriving DecidableEq, Repr

/-- A copy of one tile frame to another, both by frame number (R412). -/
structure FramePair where
  src : BitVec 32
  dst : BitVec 32
  deriving DecidableEq, Repr

/-- A gathered tensor of a plan entry as its ALL_GATHER brings it (R545, R592): its place in the entry, the generation stamps received and the
bytes of its landing place. -/
structure Gathered where
  place : Fin 6
  stamps : List (BitVec 32)
  data : List Byte
  deriving DecidableEq, Repr

/-- A write-back's turn at its pseudo-channel (R379, R385): the sector, and which bank indices are ready. -/
structure WritebackTurn where
  addr : BitVec 48
  ready : BitVec 64 := 0
  deriving DecidableEq, Repr

/-- A flit as it arrives (R469), with the codewords that the FEC corrected or could not correct in it (R468). -/
structure FlitIn where
  bits : BitVec 2048
  fecCorr : BitVec 8 := 0
  fecUncorr : BitVec 8 := 0
  deriving DecidableEq, Repr

/-- A line segment of a message (R488): data, line CRC, poison flag. -/
structure LineSeg where
  data : BitVec 1024
  crc : BitVec 32
  poison : Bool
  deriving DecidableEq, Repr

/-- A line of a message as it has arrived so far: its segments in order, the first and those resent after a RELINE (R499); none where
it has not arrived. -/
abbrev LineTries := List LineSeg

/-- How a dictionary request reaches the server (R726); `keeper` is keeper firmware itself (R716). -/
inductive Transport where
  | mooring | mctp | inBand | keeper
  deriving DecidableEq, Repr

/-- The source of a dictionary request (R725): its transport, the node and package pair, endpoint ID or mailbox that sends it, its
sequence value, and for MCTP whether it arrived in an SPDM secured session (R820). -/
structure DictSource where
  transport : Transport
  id : BitVec 32
  tag : BitVec 16
  secured : Bool := false
  deriving DecidableEq, Repr

/-- One entry of a table update (R656). -/
structure TableEntry where
  w0 : Word
  value : Word
  deriving DecidableEq, Repr

/-- The table update that the lead device has for a package. -/
structure PackageUpdate where
  pkg : BitVec 12
  entries : List TableEntry
  deriving DecidableEq, Repr

/-- What the lead device has prepared for a failover (R653, R654): the table updates of steps 3 to 6, and the MEMBER_GEN values that it has
read from members, by group. -/
structure FailoverPlan where
  updates : List PackageUpdate := []
  gens : List (BitVec 8 × BitVec 16) := []
  deriving DecidableEq, Repr

/-- A UCIe port of the package (R708): a die's die-to-die port, or its keeper port. -/
structure UciePort where
  die : Fin 2
  keeper : Bool
  deriving DecidableEq, Repr

/-- A UCIe transaction as it arrives (R674): header words 0 and 1, and its line segments, each with its byte-enable mask (all ones where
FULL = 1). -/
structure UcieTxn where
  w0 : Word
  w1 : Word
  lines : List (LineSeg × BitVec 128)
  deriving DecidableEq, Repr

/-- What a POST carries (R173, R602): a token set or cleared, or flags for an entry of the flag table. -/
inductive PostItem where
  | token (id : BitVec 12) (set : Bool)
  | flags (index : BitVec 12) (bits : BitVec 3)
  deriving DecidableEq, Repr

/-- A host access: a read of some bytes, or a write. -/
inductive HostAccess where
  | read (bytes : BitVec 8)
  | write (data : List Byte)
  deriving DecidableEq, Repr

/-- A device access to the host window (R693): a read with what the host answers, none where it fails, or a write. -/
inductive WindowAccess where
  | read (answer : Option (List Byte))
  | write (data : List Byte) (poison : Bool)
  deriving DecidableEq, Repr

/-- A mooring frame (R734, R735): its source address and its payload, the mooring header first. -/
structure MooringFrame where
  source : BitVec 48
  payload : List Byte
  deriving DecidableEq, Repr

/-- Where a fog arrives from (R744). -/
inductive FogIn where
  | frame (f : MooringFrame)
  | flit (link : Fin 16) (f : FlitIn)
  deriving DecidableEq, Repr

/-- A device found behind a CXL port (R699, R700): port, whether it is a Type 3 device whose media became ready, capacity in 256 MiB. -/
structure ShelfDevice where
  port : Fin 4
  ready : Bool
  capacity : BitVec 24
  deriving DecidableEq, Repr

/-- What the environment shows a step of the release order (R783): whether every rail is good, the STRAP_ID code and fuse checks of step 2, the Type 3 devices that
discovery finds, what has happened to the entries of the gallery repair log in the flash (an XOR of each, R298), whether both copies of the boot
directory fail their CRC (R796), the UCIe modules that fail training by port, stack temperature and the stacks that fail training (bits of
global stack number), and whether the PCIe link is up. -/
structure ReleaseInput where
  railsGood : Bool := true
  strap : BitVec 6 := 0
  fuseFail : Bool := false
  devices : List ShelfDevice := []
  repairNoise : List Word := []
  directoryBad : Bool := false
  d2dFail : BitVec 24 := 0
  keepFail0 : BitVec 2 := 0
  keepFail1 : BitVec 2 := 0
  stackFail : BitVec 8 := 0
  stackTemp : BitVec 8 := 0
  pcieUp : Bool := true
  pcieLink : BitVec 16 := 0
  deriving DecidableEq, Repr

/-- What the package measures in a governor interval (R762, R772): rail voltages (mV), currents (mA) and powers (mW) in the order of R749,
lowest first; powers in mW of the dies, the stacks, the keeper die, the SerDes, UCIe and miscellaneous, and the package. -/
structure PowerReading where
  mv : BitVec 208
  ma : BitVec 416
  mw : BitVec 416
  dies : BitVec 64
  perStack : BitVec 256
  keeper : BitVec 32
  serdes : BitVec 32
  misc : BitVec 32
  package : BitVec 32
  deriving DecidableEq, Repr

/-- A temperature sample (R770, R785): the 128 die sensors and the 8 keeper sensors, signed, 0.1 °C, lowest first, and the stacks in °C. -/
structure TempReading where
  dies : BitVec 2048
  keeper : BitVec 128
  perStack : BitVec 64
  deriving DecidableEq, Repr

/-- A block of R780: a global cluster, or a global region. -/
structure BlockId where
  region : Bool
  number : BitVec 5
  deriving DecidableEq, Repr

/-- An SPDM request (R817): the requests that need a signature, and those that do not. A session request names its session. -/
inductive SpdmCode where
  | getVersion | getCapabilities | negotiateAlgorithms | getDigests | getCertificate | challenge
  | getMeasurements (signed : Bool) | keyExchange | finish | endSession | heartbeat
  deriving DecidableEq, Repr

/-- A command or event of the package: one constructor per row of spec/opcode_table.json. -/
inductive Instr where
  /-- PASS (R109, R111): an engine takes a pass command for one of its task contexts. -/
  | pass (e : EngId) (task : Fin 4) (words : Words4)
  /-- TILE_MARK (R331): an engine takes a tile mark. -/
  | tileMark (e : EngId) (task : Fin 4)
  /-- PASS_COMPLETE (R149): the oldest pass in flight becomes complete. -/
  | passComplete (e : EngId)
  /-- STATIONARY_LOAD_DONE (R147): the stationary block of a held pass has loaded. -/
  | stationaryLoadDone (e : EngId)
  /-- TILE_OVERRUN (R118): the tile in progress has run past 8,192 cycles. -/
  | tileOverrun (e : EngId)
  /-- ARRAY_RAMP_DOWN (R151): the array, idle for `idle` cycles, releases the next stage of columns. -/
  | arrayRampDown (e : EngId) (idle : BitVec 16)
  /-- RAMP_WINDOW_START (R154): the ramp window of a region begins. -/
  | rampWindowStart (r : Fin 8)
  /-- RAMP_UP_END (R152): the last stage of a ramp-up ends. -/
  | rampUpEnd (e : EngId)
  /-- NOP (R164): a vector command of an engine's task. -/
  | nop (e : EngId) (task : Fin 4) (words : Words4)
  /-- ADD (R169): a vector command of an engine's task. -/
  | add (e : EngId) (task : Fin 4) (words : Words4)
  /-- SUB (R169): a vector command of an engine's task. -/
  | sub (e : EngId) (task : Fin 4) (words : Words4)
  /-- MUL (R169): a vector command of an engine's task. -/
  | mul (e : EngId) (task : Fin 4) (words : Words4)
  /-- FMA (R169): a vector command of an engine's task. -/
  | fma (e : EngId) (task : Fin 4) (words : Words4)
  /-- MAX (R169): a vector command of an engine's task. -/
  | max (e : EngId) (task : Fin 4) (words : Words4)
  /-- MIN (R169): a vector command of an engine's task. -/
  | min (e : EngId) (task : Fin 4) (words : Words4)
  /-- ABS (R169): a vector command of an engine's task. -/
  | abs (e : EngId) (task : Fin 4) (words : Words4)
  /-- NEG (R169): a vector command of an engine's task. -/
  | neg (e : EngId) (task : Fin 4) (words : Words4)
  /-- COPY (R167): a vector command of an engine's task. -/
  | copy (e : EngId) (task : Fin 4) (words : Words4)
  /-- ROWSUM (R170): a vector command of an engine's task. -/
  | rowsum (e : EngId) (task : Fin 4) (words : Words4)
  /-- ROWMAX (R164): a vector command of an engine's task. -/
  | rowmax (e : EngId) (task : Fin 4) (words : Words4)
  /-- ROWNORM (R170): a vector command of an engine's task. -/
  | rownorm (e : EngId) (task : Fin 4) (words : Words4)
  /-- KNORM (R867): a vector command of an engine's task. -/
  | knorm (e : EngId) (task : Fin 4) (words : Words4)
  /-- FUNC (R180): a vector command of an engine's task. -/
  | func (e : EngId) (task : Fin 4) (words : Words4)
  /-- DERIV (R184): a vector command of an engine's task. -/
  | deriv (e : EngId) (task : Fin 4) (words : Words4)
  /-- SMX_UPDATE (R187): a vector command of an engine's task. -/
  | smxUpdate (e : EngId) (task : Fin 4) (words : Words4)
  /-- SMX_PROB (R189): a vector command of an engine's task. -/
  | smxProb (e : EngId) (task : Fin 4) (words : Words4)
  /-- ROW_SCALE (R188): a vector command of an engine's task. -/
  | rowScale (e : EngId) (task : Fin 4) (words : Words4)
  /-- SKIP_DECIDE (R194): a vector command of an engine's task. -/
  | skipDecide (e : EngId) (task : Fin 4) (words : Words4)
  /-- SKIP_REPLAY (R196): a vector command of an engine's task. -/
  | skipReplay (e : EngId) (task : Fin 4) (words : Words4)
  /-- DROPOUT (R204): a vector command of an engine's task. -/
  | dropout (e : EngId) (task : Fin 4) (words : Words4)
  /-- RAND_UNIFORM (R205): a vector command of an engine's task. -/
  | randUniform (e : EngId) (task : Fin 4) (words : Words4)
  /-- FLAGS_CLEAR (R175): a vector command of an engine's task. -/
  | flagsClear (e : EngId) (task : Fin 4) (words : Words4)
  /-- FLAGS_GET (R175): a vector command of an engine's task. -/
  | flagsGet (e : EngId) (task : Fin 4) (words : Words4)
  /-- GAL_FLAG_ENTRY_CLEAR (R176): a register write to one die's flag table entry. -/
  | galFlagEntryClear (die : Fin 2) (idx : BitVec 12) (value : Word)
  /-- PREDICTOR_COMMIT_LAUNCH (R229): a cluster's sequencer launches the PRED_ENTRY chain of a region of a launch record. -/
  | predictorCommitLaunch (cluster : Fin 24) (launch : BitVec 12) (region : BitVec 16)
  /-- CHECKPOINT_REGENERATION (R232): a chain has read entry `ckpt` of its region's checkpoint list with the poison flag. -/
  | checkpointRegeneration (reader : ChainRef) (ckpt : BitVec 5)
  /-- CLUSTER_BANK_GRANT (R274): one cycle of a cluster-memory bank. `others` are the requesters, by their rank in the rotation, of which an
  access that no command of the table makes reaches the bank in this cycle. -/
  | clusterBankGrant (cluster : Fin 24) (bank : Fin 8) (others : BitVec 6)
  /-- GALLERY_BANK_GRANT (R277): one cycle of a gallery bank. `others` are the accesses that no command of the table makes and that reach the
  bank in this cycle, by port and owner. -/
  | galleryBankGrant (die : Fin 2) (bank : Fin 64) (others : List (Fin 16 × BitVec 6))
  /-- PARITY_ERROR (R286): a read by `req` (R306 REQ, or a port of R275) for a chain finds the byte at `site` failing parity. -/
  | parityError (site : SramSite) (req : BitVec 4) (reader : ChainRef)
  /-- RERUN_LAUNCH (R289): the chains of a rerun unit have stopped and it is launched again. -/
  | rerunLaunch (unit : RerunRef)
  /-- LINE_CRC_FAIL (R284): a line arrives at its destination and fails its CRC. -/
  | lineCrcFail (line : LineArrival)
  /-- LINE_REFETCH_DONE (R284): a re-fetched or resent line arrives. -/
  | lineRefetchDone (line : LineArrival)
  /-- GAL_REPAIR_CMD (R299): a write of GAL_REPAIR_CMD of a die. -/
  | galRepairCmd (die : Fin 2) (value : Word)
  /-- ROW_REPAIR_RUN (R300): a die's admitted row repair runs. -/
  | rowRepairRun (die : Fin 2)
  /-- STAGE_CHAIN (R323): a cluster's sequencer launches a stage chain command for a launch record. -/
  | stageChain (cluster : Fin 24) (launch : BitVec 12) (image : CmdImage)
  /-- STAGE_ITEM_START (R337): a stage of a chain starts its next item; an engine stage's command list begins with the lens loads given;
  `wait` is the wait that the start ends, and `waited` the cycles it lasted, zero where the stage did not wait. -/
  | stageItemStart (chain : ChainRef) (stage : Fin 6) (loads : List LensLoad) (wait : SyncWait) (waited : BitVec 40)
  /-- SLOT_FULL (R336): the last line of the stage's item is accepted in its output slot. -/
  | slotFull (chain : ChainRef) (stage : Fin 6)
  /-- SLOT_EMPTY (R336): the stage's last read of its input slot ends. -/
  | slotEmpty (chain : ChainRef) (stage : Fin 6)
  /-- TOKEN_HANDOVER (R339): the oldest token transition of ring `ring` becomes visible to the stage on the other side. -/
  | tokenHandover (chain : ChainRef) (ring : Fin 6) (toConsumer : Bool)
  /-- CHAIN_COMMIT (R341): the last line of a chain's last item is accepted at its destination. -/
  | chainCommit (chain : ChainRef)
  /-- NEXT_CHAIN_LAUNCH (R352): the sequencer launches the chain its NEXT names. -/
  | nextChainLaunch (cluster : Fin 24) (launch : BitVec 12) (image : CmdImage)
  /-- TASK_SWITCH (R342): at a tile boundary an engine switches to a ready task of higher priority. -/
  | taskSwitch (e : EngId) (task : Fin 4)
  /-- SWITCH_THRESHOLD_EXPIRY (R342): the current task has waited `waited` cycles. -/
  | switchThresholdExpiry (e : EngId) (waited : BitVec 32)
  /-- CHAIN_STALL (R349): a chain's chain-stall timer has reached its limit; `us` is its count in microseconds. -/
  | chainStall (chain : ChainRef) (us : BitVec 32)
  /-- SLOT_TIMEOUT (R350): a stage has waited `ms` milliseconds on the ring of an external head, or the producer failed with `status`. -/
  | slotTimeout (chain : ChainRef) (ms : BitVec 32) (status : BitVec 8)
  /-- CHAIN_ABORT (R359): an abort reaches a chain. -/
  | chainAbort (chain : ChainRef)
  /-- RUNAHEAD_RESUME (R361): the page a stopped run-ahead fetch waits for is present. -/
  | runaheadResume (chain : ChainRef)
  /-- HBM_READ (R374): a read of one sector for an owner, from a source port: it arrives, or is served. -/
  | hbmRead (addr : BitVec 48) (owner : BitVec 6) (port : BitVec 6) (phase : HbmPhase)
  /-- HBM_WRITE (R377): a write of one sector with a byte-enable mask: it arrives, or is served. -/
  | hbmWrite (addr : BitVec 48) (owner : BitVec 6) (port : BitVec 6) (data : BitVec 256) (mask : BitVec 32) (phase : HbmPhase)
  /-- CORRECTION_WRITEBACK (R379): a queued write-back of a corrected sector is performed. -/
  | correctionWriteback (turn : WritebackTurn)
  /-- HELD_REQUEST_ENTER (R384): the first held request that fits enters a pseudo-channel's queue. -/
  | heldRequestEnter (controller : Fin 8) (pc : Fin 32)
  /-- ECS_COUNT_READ (R372): a controller reads its stack's ECS error count. -/
  | ecsCountRead (controller : Fin 8) (count : BitVec 64)
  /-- STACK_TEMP_READ (R386): a controller reads its stack's temperature, in degrees Celsius: the hottest die's. -/
  | stackTempRead (controller : Fin 8) (temp : BitVec 8)
  /-- SCRUB_START (R390): a write of HBMC_SCRUB_CMD of a die. -/
  | scrubStart (die : Fin 2) (value : Word)
  /-- SCRUB_SECTOR_READ (R393): the running scrub of a die reads its next sector; the noise and severity as of HBM_READ. -/
  | scrubSectorRead (die : Fin 2) (noise : BitVec 256) (checkNoise : BitVec 16) (severity : Bool)
  /-- SCRUB_COMPLETE (R397): the running scrub of a die has read its last sector. -/
  | scrubComplete (die : Fin 2)
  /-- CALIBRATION_REQUEST (R405, R406): a write of HBMC_MAINT_REQ with a calibration. -/
  | calibrationRequest (die : Fin 2) (value : Word)
  /-- SELF_TEST_REQUEST (R408): a write of HBMC_MAINT_REQ with a self-test. -/
  | selfTestRequest (die : Fin 2) (value : Word)
  /-- REFRESH_RATE_REQUEST (R387): a write of HBMC_MAINT_REQ with a refresh-rate change. -/
  | refreshRateRequest (die : Fin 2) (value : Word)
  /-- MAINT_REQUEST_ENTRY (R404): a request that waits takes an entry that has become free. -/
  | maintRequestEntry (die : Fin 2)
  /-- MAINT_ADMIT (R402): the arbiter admits what it may; `freed` names the die's clusters whose engines the runtime has taken out of
  the pool (R408). -/
  | maintAdmit (die : Fin 2) (freed : BitVec 12)
  /-- CAL_GROUP_OUT (R405): an admitted calibration takes its channel group out of service. -/
  | calGroupOut (die : Fin 2) (group : Fin 16)
  /-- CAL_GROUP_RETURN (R405): a calibration ends and its group returns. -/
  | calGroupReturn (die : Fin 2) (group : Fin 16)
  /-- CAL_PERIOD_EXPIRY (R407): CAL_PERIOD has passed since a group's last calibration. -/
  | calPeriodExpiry (die : Fin 2) (group : Fin 16)
  /-- SELF_TEST_DONE (R408): a running self-test of a cluster of the die ends. -/
  | selfTestDone (die : Fin 2) (cluster : Fin 12) (fail : Bool)
  /-- FRAME_REQUEST (R424, R427): a request for a frame of a tier of a die, for a page of an owner; `chain` is the chain that needs it. -/
  | frameRequest (owner : BitVec 6) (tier : Fin 3) (die : Fin 2) (vpage : BitVec 32) (chain : Option ChainRef)
  /-- FRAME_REQUEST_RETRY (R429): the requests that wait in a die's pool agent are tried again. -/
  | frameRequestRetry (die : Fin 2)
  /-- POOL_WAIT_TIMEOUT (R429, R435): a request for a page's frame has waited `ms` milliseconds. -/
  | poolWaitTimeout (die : Fin 2) (owner : BitVec 6) (vpage : BitVec 32) (ms : BitVec 32)
  /-- MOVE_SWITCH (R430): the last line of a frame's move or write-back is accepted; the frame is named by its number. -/
  | moveSwitch (frame : BitVec 32)
  /-- MOVE (R435): a write of POOL_MOVE_CMD with OP 0. -/
  | move (die : Fin 2) (value : Word)
  /-- PIN (R435): a write of POOL_MOVE_CMD with OP 1. -/
  | pin (die : Fin 2) (value : Word)
  /-- UNPIN (R435): a write of POOL_MOVE_CMD with OP 2. -/
  | unpin (die : Fin 2) (value : Word)
  /-- WINDOW_LIFT (R438): the fetch of an entry of a record's stream plan into the landing area has ended, with what its gathers have brought;
  with its slot released the lift begins. -/
  | windowLift (die : Fin 2) (launch : BitVec 12) (entry : BitVec 24) (gathered : List Gathered)
  /-- SECTOR_REBUILD (R446): the pool agent takes up a failing sector. -/
  | sectorRebuild (addr : BitVec 48)
  /-- REBUILD_TIMEOUT (R448): a rebuild has lasted `ms` milliseconds, or a step of it has failed. -/
  | rebuildTimeout (addr : BitVec 48) (ms : BitVec 32) (failed : Bool)
  /-- SHELF_UNREACHABLE (R451): a shelf expander that holds `count` frames from `first` on becomes unreachable. -/
  | shelfUnreachable (first : BitVec 32) (count : BitVec 32)
  /-- SWAP_INVOCATION (R455): the first launch of a swap-mode owner in a revolution on a die. -/
  | swapInvocation (die : Fin 2) (owner : BitVec 6)
  /-- WINDOW_LIFT_COMPLETE (R440): the lift of an entry from the landing area into window slot `slot` ends. -/
  | windowLiftComplete (die : Fin 2) (launch : BitVec 12) (entry : BitVec 24) (slot : BitVec 4)
  /-- GALLERY_SET_LOAD_DONE (R455): an owner's gallery set has been loaded, each HBM frame into a gallery frame. -/
  | gallerySetLoadDone (die : Fin 2) (owner : BitVec 6) (loaded : List FramePair)
  /-- FLIT_TRANSMIT (R467): a flit time of a link's transmitter. -/
  | flitTransmit (link : Fin 16)
  /-- DATA_FLIT_RECEIVE (R475): a flit other than a null or control flit arrives; `again` says that 1 µs has passed since the last NAK
  for the expected SEQ. -/
  | dataFlitReceive (link : Fin 16) (flit : FlitIn) (again : Bool)
  /-- NAK (R477): a control flit of CTYPE 0x01 arrives. -/
  | nak (link : Fin 16) (flit : FlitIn)
  /-- RETRY_TIMER_EXPIRY (R477): the oldest unacknowledged flit has waited, in 0.1 ns. -/
  | retryTimerExpiry (link : Fin 16) (waited : BitVec 32)
  /-- LINK_ENABLE (R480): LINK_ENABLE of a link is set. -/
  | linkEnable (link : Fin 16) (value : Bool)
  /-- SIGNAL_DETECT (R480): signal on all four lanes. -/
  | signalDetect (link : Fin 16)
  /-- SIGNAL_LOST (R480): signal lost and regained. -/
  | signalLost (link : Fin 16)
  /-- PHY_TRAIN_DONE (R480, R484): training and FEC lock end; `loss` is the PMD's estimate of channel loss in 0.01 dB. -/
  | phyTrainDone (link : Fin 16) (loss : BitVec 16)
  /-- PHY_TRAIN_TIMEOUT (R480): PHY_TRAIN has lasted `ms` milliseconds. -/
  | phyTrainTimeout (link : Fin 16) (ms : BitVec 16)
  /-- CAPABILITY_SEND (R481): 10 µs of EXCHANGE have passed. -/
  | capabilitySend (link : Fin 16)
  /-- CAPABILITY (R482): a control flit of CTYPE 0x02 arrives. -/
  | capability (link : Fin 16) (flit : FlitIn)
  /-- ECHO_REQUEST (R483): a control flit of CTYPE 0x03 arrives. -/
  | echoRequest (link : Fin 16) (flit : FlitIn)
  /-- ECHO_REQUEST_SEND (R483): 1 µs of MEASURE has passed. -/
  | echoRequestSend (link : Fin 16)
  /-- ECHO_REPLY (R483): a control flit of CTYPE 0x04 arrives; `rtt` is its round trip in 0.1 ns. -/
  | echoReply (link : Fin 16) (flit : FlitIn) (rtt : BitVec 20)
  /-- RECOVERY_DONE (R478): the PHY of a recovering link has retrained. -/
  | recoveryDone (link : Fin 16)
  /-- LINK_RECOVER_TIMEOUT (R479): a link has been in RECOVERY for `ms` milliseconds. -/
  | linkRecoverTimeout (link : Fin 16) (ms : BitVec 16)
  /-- PUT (R497): a PUT reaches a window engine: its header, its lines as they have arrived, and the link it came by (none: over UCIe). -/
  | put (link : Option (Fin 16)) (header : Words4) (lines : List LineTries)
  /-- GET_REQ (R497): a GET_REQ reaches a window engine. -/
  | getReq (link : Option (Fin 16)) (header : Words4)
  /-- GET_DATA (R492): a GET_DATA arrives at the origin with its lines. -/
  | getData (header : Words4) (lines : List LineTries)
  /-- ACCEPT (R497): an ACCEPT arrives at the origin. -/
  | accept (header : Words4)
  /-- REFUSE (R492): a REFUSE arrives at the origin. -/
  | refuse (header : Words4)
  /-- LANDED (R492): a LANDED arrives at the origin. -/
  | landed (header : Words4)
  /-- RELINE (R499): a RELINE arrives at the origin. -/
  | reline (header : Words4)
  /-- LOST (R492): a LOST arrives at the origin. -/
  | lost (header : Words4)
  /-- REBUILD_REQ (R446): a rebuild request arrives at a pool agent. -/
  | rebuildReq (header : Words4)
  /-- REBUILD_DATA (R446): rebuild data arrive: the counterpart's line. -/
  | rebuildData (header : Words4) (line : LineSeg)
  /-- MSG_RESPONSE_TIMEOUT (R492, R500): a message has waited `ms` milliseconds, at its origin for a response or at its target for
  segments; `tag` is the origin's tag. -/
  | msgResponseTimeout (atTarget : Bool) (tag : BitVec 16) (pkg : BitVec 12) (ms : BitVec 32)
  /-- RING_SLOT_ACCEPT (R505): a header that waits at a die's window engine for its ring slot is looked at again. -/
  | ringSlotAccept (die : Fin 2)
  /-- WINDOW_OPEN (R502): a write of WIN_CMD with OP 0. -/
  | windowOpen (die : Fin 2) (value : Word)
  /-- WINDOW_CLOSE (R501): a write of WIN_CMD with OP 1. -/
  | windowClose (die : Fin 2) (value : Word)
  /-- WINDOW_CLOSE_RECORD (R501): a closing entry's last message has landed, torn or been sent. -/
  | windowCloseRecord (die : Fin 2) (entry : BitVec 9)
  /-- MESSAGE_FORWARD (R517): a message for another package, or for the other die, has arrived on a die. -/
  | messageForward (die : Fin 2) (header : Words4) (lines : List LineSeg)
  /-- HELD_MESSAGE_RELEASE (R519): the messages a die holds for a route are looked at again. -/
  | heldMessageRelease (die : Fin 2)
  /-- NULL_FLIT (R471): a null flit arrives. -/
  | nullFlit (link : Fin 16) (flit : FlitIn)
  /-- ALL_REDUCE (R529): a sequence hands its die's collective engine a collective command with OP 0. -/
  | allReduce (cluster : Fin 24) (launch : BitVec 12) (image : CmdImage)
  /-- REDUCE_SCATTER (R525): OP 1. -/
  | reduceScatter (cluster : Fin 24) (launch : BitVec 12) (image : CmdImage)
  /-- ALL_GATHER (R545): OP 2. -/
  | allGather (cluster : Fin 24) (launch : BitVec 12) (image : CmdImage)
  /-- ALL_TO_ALL (R522): OP 3. -/
  | allToAll (cluster : Fin 24) (launch : BitVec 12) (image : CmdImage)
  /-- PERMUTE (R549): OP 4. -/
  | permute (cluster : Fin 24) (launch : BitVec 12) (image : CmdImage)
  /-- BROADCAST (R522): OP 5. -/
  | broadcast (cluster : Fin 24) (launch : BitVec 12) (image : CmdImage)
  /-- RING (R552): OP 6. -/
  | ring (cluster : Fin 24) (launch : BitVec 12) (image : CmdImage)
  /-- NF_CHECK (R542): OP 7, as which 8 to 15 are read. -/
  | nfCheck (cluster : Fin 24) (launch : BitVec 12) (image : CmdImage)
  /-- COLL_DATA (R530): a piece of a collective arrives with its lines. -/
  | collData (header : Words4) (lines : List LineSeg)
  /-- COLL_PREPASS (R532): a piece of an exact-mode pre-pass arrives. -/
  | collPrepass (header : Words4) (lines : List LineSeg)
  /-- RING_BLOCK (R553): a key/value block or an accumulator half arrives. -/
  | ringBlock (header : Words4) (lines : List LineSeg)
  /-- COLL_ABORT (R559): a COLL_ABORT arrives. -/
  | collAbort (header : Words4)
  /-- RING_STEP_BOUNDARY (R557): the traversal of a sequence's RING command moves on to its next step. -/
  | ringStepBoundary (cluster : Fin 24) (launch : BitVec 12)
  /-- COLLECTIVE_COMMIT (R539): the last line that a rank writes is accepted. -/
  | collectiveCommit (cluster : Fin 24) (launch : BitVec 12)
  /-- COLL_PEER_TIMEOUT (R560): a rank has waited `ms` milliseconds for a piece or block. -/
  | collPeerTimeout (cluster : Fin 24) (launch : BitVec 12) (ms : BitVec 32)
  /-- GROUP_ENTRY_WRITE (R515): a write of word 0, 1 or 2 of a group entry of a die. -/
  | groupEntryWrite (die : Fin 2) (group : BitVec 8) (word : Fin 3) (value : Word)
  /-- COLL_MEMBER_GEN_SET (R666): a write of COLL_MEMBER_GEN_SET of a die. -/
  | collMemberGenSet (die : Fin 2) (value : Word)
  /-- FLASH_BOUNDARY (R570): the beam phase passes the next flash boundary. -/
  | flashBoundary
  /-- NOW_RECORD_LIVE (R596): a PENDING record with NOW = 1 becomes LIVE. -/
  | nowRecordLive (index : BitVec 12)
  /-- RECORD_ARM (R586): a launch record is written: its first sector, unless it stays as it is, then its second. -/
  | recordArm (index : BitVec 12) (first : Option Words4) (second : Words4)
  /-- RECORD_LAUNCH (R600): an evaluation of the LIVE records reaches a record. -/
  | recordLaunch (index : BitVec 12)
  /-- PREEMPTION_POINT (R616): an engine takes a pre-emption point for one of its task contexts. -/
  | preemptionPoint (e : EngId) (task : Fin 4) (words : Words4)
  /-- PREEMPT_SAVE_DONE (R619): the last live range of a pre-empted task is saved. -/
  | preemptSaveDone (e : EngId) (task : Fin 4)
  /-- CONTEXT_RESTORE (R620): a pre-empted task takes its context back. -/
  | contextRestore (e : EngId) (task : Fin 4)
  /-- QUIET_WINDOW_CLOSE (R606): the open quiet window has lasted its flashes. -/
  | quietWindowClose
  /-- RECORD_END (R608): every sequence of a launched record has ended. -/
  | recordEnd (index : BitVec 12)
  /-- CRING_ROOM (R612): the keeper writes CONS of an owner's completion ring. -/
  | cringRoom (owner : BitVec 6) (cons : BitVec 32)
  /-- TOKEN_SET (R603): a write of BEAM_TOKEN_CMD with OP 0. -/
  | tokenSet (value : Word)
  /-- TOKEN_CLEAR (R604): a write of BEAM_TOKEN_CMD with OP 1. -/
  | tokenClear (value : Word)
  /-- ABORT_RECORD (R625): a write of a die's BEAM_ABORT_CMD with SCOPE 0. -/
  | abortRecord (die : Fin 2) (value : Word)
  /-- ABORT_OWNER (R625): a write of a die's BEAM_ABORT_CMD with SCOPE 1. -/
  | abortOwner (die : Fin 2) (value : Word)
  /-- BEAM_MARK_SEND (R574): a mark interval passes on a link. -/
  | beamMarkSend (link : Fin 16)
  /-- BEAM_MARK (R577): a control flit of CTYPE 0x10 arrives. -/
  | beamMark (link : Fin 16) (flit : FlitIn)
  /-- MARK_LOSS_TIMEOUT (R578): four mark intervals pass without a SYNC mark from the source link. -/
  | markLossTimeout
  /-- BEAM_HOLDOVER_TIMEOUT (R578): a follower has been in HOLDOVER for `ms` milliseconds. -/
  | beamHoldoverTimeout (ms : BitVec 32)
  /-- DAYMARK_TAKE_EFFECT (R635): a LIVE daymark record whose tokens are set takes effect, or is refused. -/
  | daymarkTakeEffect (index : BitVec 12)
  /-- PAGE_COPY_DONE (R640): the last line of the page that a die's copier copies is accepted; `failed`: its destination is unreachable or
  the host write failed. -/
  | pageCopyDone (die : Fin 2) (failed : Bool)
  /-- DAYMARK_COMMIT (R647): the last sector of the manifest's final header is accepted. -/
  | daymarkCommit (index : BitVec 12)
  /-- DAYMARK_RESTORE (R651): a write of POOL_DM_RESTORE_CMD. -/
  | daymarkRestore (die : Fin 2) (value : Word)
  /-- RESTORE_END (R652): a restore has read, checked and written its pages. `fetched` is what its reads of remote pages and of the host
  window delivered, by device virtual address. -/
  | restoreEnd (die : Fin 2) (fetched : List (BitVec 64 × List Byte))
  /-- PACKAGE_FAILED (R653): the lead device finds that a package has not answered for `ms`, or that it reports a fatal state. `owners` are
  those of the jobs that held it, `ready` the packages that have SPARE_ROLE and are LOCKED. -/
  | packageFailed (pkg : BitVec 12) (ms : BitVec 32) (fatal : Bool) (owners : BitVec 64) (ready : List (BitVec 12)) (plan : FailoverPlan)
  /-- TABLE_UPDATE (R657): a whole table update has arrived. -/
  | tableUpdate (src : DictSource) (value : List Byte)
  /-- CRITICAL_STATE_ERROR (R660): an error in critical state, `since` seconds after the one before it; `copyBad` says that a line of the
  critical-state copy fails its CRC (R662). -/
  | criticalStateError (die : Fin 2) (unit : BitVec 3) (index : BitVec 16) (double : Bool) (since : BitVec 32) (copyBad : Bool)
  /-- READ_REQ (R675): a READ_REQ transaction arrives at a UCIe port. -/
  | readReq (port : UciePort) (txn : UcieTxn)
  /-- READ_DATA (R675). -/
  | readData (port : UciePort) (txn : UcieTxn)
  /-- WRITE (R675). -/
  | write (port : UciePort) (txn : UcieTxn)
  /-- CFG_READ (R675). -/
  | cfgRead (port : UciePort) (txn : UcieTxn)
  /-- CFG_DATA (R675). -/
  | cfgData (port : UciePort) (txn : UcieTxn)
  /-- CFG_WRITE (R675). -/
  | cfgWrite (port : UciePort) (txn : UcieTxn)
  /-- POST (R677): a token or flag post. -/
  | post (port : UciePort) (txn : UcieTxn) (item : PostItem)
  /-- EVENT (R675): an event record. -/
  | event (port : UciePort) (txn : UcieTxn)
  /-- UCIE_RETRAIN (R679): a flit cannot be delivered; `failed` modules cannot be repaired, and `readers` wait on outstanding reads. -/
  | ucieRetrain (port : UciePort) (failed : BitVec 24) (readers : List ChainRef)
  /-- UCIE_RETRAIN_DONE (R679): the retraining ends. -/
  | ucieRetrainDone (port : UciePort) (failed : BitVec 24) (readers : List ChainRef)
  /-- POOL_XLAT_INV (R685): a write of POOL_XLAT_INV. -/
  | poolXlatInv (die : Fin 2) (value : Word)
  /-- XLAT_INV_DONE (R685). -/
  | xlatInvDone (die : Fin 2)
  /-- APERTURE_ACCESS (R689): a host access to an aperture. -/
  | apertureAccess (aperture : Fin 16) (offset : BitVec 32) (access : HostAccess)
  /-- CONFIG_VIEW_ACCESS (R691): a host access to BAR0: an 8-byte read, or a write. -/
  | configViewAccess (offset : BitVec 27) (value : Option Word)
  /-- HOST_WINDOW_ACCESS (R693): an access of the package's own work to the host window, with the endpoint's data link up or down. -/
  | hostWindowAccess (offset : BitVec 42) (access : WindowAccess) (linkUp : Bool) (work : Option ChainRef)
  /-- KEEP_BOOT_CMD (R706): a write of KEEP_BOOT_CMD. -/
  | keepBootCmd (value : Word)
  /-- KEEP_SW_IRQ (R694): a keeper write of KEEP_SW_IRQ. -/
  | keepSwIrq (value : Word)
  /-- IRQ_HOLDOFF_EXPIRY (R694): the holdoff of a vector ends. -/
  | irqHoldoffExpiry (vector : BitVec 11)
  /-- HCMD_POLL (R695): keeper firmware reads the host command ring: the entries from CONS on, as host memory holds them. -/
  | hcmdPoll (entries : List (BitVec 512))
  /-- PERST (R696): PERST# asserted or deasserted. -/
  | perst (asserted : Bool)
  /-- FUNCTION_LEVEL_RESET (R696). -/
  | functionLevelReset
  /-- SHELF_RESCAN (R701): a write of SHELF_RESCAN, and the devices that it finds. -/
  | shelfRescan (src : DictSource) (value : Byte) (devices : List ShelfDevice)
  /-- READ (R866): a dictionary READ request. -/
  | read (src : DictSource) (index : BitVec 16) (sub : Byte) (offset : BitVec 16)
  /-- DICT_WRITE (R866): a dictionary WRITE request. -/
  | dictWrite (src : DictSource) (index : BitVec 16) (sub : Byte) (offset : BitVec 16) (last : Bool) (value : List Byte)
  /-- DESCRIBE (R722): a dictionary DESCRIBE request. -/
  | describe (src : DictSource) (index : BitVec 16) (sub : Byte)
  /-- DICT_LOCK (R712): a write of DICT_LOCK. -/
  | dictLock (src : DictSource) (value : Byte)
  /-- DICT_STORE (R732): a write of DICT_STORE. -/
  | dictStore (src : DictSource) (value : Byte)
  /-- RESET_REQUEST (R779): a write of RESET_REQUEST. -/
  | resetRequest (src : DictSource) (value : Byte)
  /-- RESET_REQUEST_DELAY_EXPIRY (R779). -/
  | resetRequestDelayExpiry
  /-- POWER_MODE (R758): a write of POWER_MODE. -/
  | powerMode (src : DictSource) (value : Byte)
  /-- SUB_MODE (R757): a write of SUB_MODE. -/
  | subMode (src : DictSource) (value : Byte)
  /-- MODE_CHANGE_RESUME (R759): both dies have finished the change. -/
  | modeChangeResume
  /-- DICT_REQ (R726): a mooring frame with a dictionary request arrives. -/
  | dictReq (frame : MooringFrame)
  /-- DICT_RSP (R726): a mooring frame with a dictionary response arrives. -/
  | dictRsp (frame : MooringFrame)
  /-- FOG (R744): a fog arrives. -/
  | fog (arrival : FogIn)
  /-- RESET (R739): a mooring RESET frame arrives. -/
  | reset (frame : MooringFrame)
  /-- COARSE_BEAM (R740): a COARSE_BEAM frame arrives. -/
  | coarseBeam (frame : MooringFrame)
  /-- PRESENCE (R737): a PRESENCE frame arrives. -/
  | presence (frame : MooringFrame)
  /-- PRESENCE_SEND (R737). -/
  | presenceSend
  /-- COARSE_BEAM_SEND (R740). -/
  | coarseBeamSend
  /-- FOG_SEND (R741): a write of FOG_SEND. -/
  | fogSend (src : DictSource) (value : List Byte)
  /-- RAIL_OUT_OF_WINDOW (R754): a rail has been outside its window for `us` microseconds. -/
  | railOutOfWindow (rail : Fin 13) (us : BitVec 32)
  /-- POR_N (R776): the pin goes low or high. -/
  | porN (low : Bool)
  /-- RELEASE_STEP (R783): the next step of the release order. -/
  | releaseStep (input : ReleaseInput)
  /-- FABRIC_TRAIN_TIMEOUT (R705): FABRIC_TRAIN has lasted `ms` milliseconds. -/
  | fabricTrainTimeout (ms : BitVec 32)
  /-- GOVERNOR_INTERVAL (R764): a governor interval ends. -/
  | governorInterval (reading : PowerReading)
  /-- DROOP_DETECT (R767): a die's core rail falls below 96 %. -/
  | droopDetect (die : Fin 2)
  /-- HBM_RAMP (R768): a controller whose command rate has been below one eighth of peak for 1 µs starts its ramp, after a wait in ACLK
  cycles for its stack window, or goes on with it. -/
  | hbmRamp (controller : Fin 8) (waited : BitVec 12)
  /-- TEMP_SAMPLE (R770): the sensors are read. -/
  | tempSample (reading : TempReading)
  /-- THERMAL_RELEASE (R771): the sensors are read while the package is held by a thermal trip. -/
  | thermalRelease (reading : TempReading)
  /-- WATCHDOG_EXPIRY (R778): KEEPER_WDT_TIMEOUT has passed; `serviced` says that keeper firmware serviced the watchdog since the first
  expiry. -/
  | watchdogExpiry (serviced : Bool)
  /-- RST_BLOCK_CMD (R780): a write of a die's RST_BLOCK_CMD. -/
  | rstBlockCmd (die : Fin 2) (value : Word)
  /-- BLOCK_RESET_EXECUTE (R780): `us` microseconds after the idle request, with some requests outstanding. -/
  | blockResetExecute (block : BlockId) (us : BitVec 32) (outstanding : BitVec 24)
  /-- BLOCK_RESET_RELEASE (R780): zeroing ends. -/
  | blockResetRelease (block : BlockId)
  /-- FW_UPDATE (R797): a chunk is written. -/
  | fwUpdate (src : DictSource) (chunk : List Byte)
  /-- FW_VERIFY_DONE (R798): verification of an updated slot ends. -/
  | fwVerifyDone
  /-- SVN_COMMIT (R799): a write of SVN_COMMIT. -/
  | svnCommit (src : DictSource) (value : Byte)
  /-- DEBUG_CHALLENGE (R804): a read of DEBUG_CHALLENGE. -/
  | debugChallenge (src : DictSource)
  /-- DEBUG_UNLOCK (R805): a write of DEBUG_UNLOCK. -/
  | debugUnlock (src : DictSource) (value : List Byte)
  /-- SPDM_REQUEST (R817): an SPDM request of an endpoint, with the transcript that a signature covers. -/
  | spdmRequest (endpoint : BitVec 32) (code : SpdmCode) (transcript : List Byte)
  /-- TRACE_SINK_WRITE (R837): a source's oldest staged record is written to its die's sink; `hostFail` says that a write to the host window
  fails. -/
  | traceSinkWrite (die : Fin 2) (source : Byte) (hostFail : Bool)
  /-- REGISTER_WRITE (R22): a write of a register by its address. -/
  | registerWrite (addr : BitVec 48) (value : Word)
  deriving DecidableEq, Repr

end Sys2Proof
end

