-- ==== Sys2Proof/Decode.lean ====
section
/-!
DEFINITION. The command that a word spells by the opcode table's bits. No row of spec/opcode_table.json has bits (every "fields" list is
empty and none has a pattern), so no word spells a command.
-/
namespace Sys2Proof

/-- None of the table's rows gives bits: no word spells a command. -/
def decodeTableWord (_nbits _w : Nat) : Option Instr := none

end Sys2Proof
end

