-- ==== Sys2Proof/Config.lean ====
section
/-!
DEFINITION. What the spec leaves open or places outside the package's own rules: free values with no body, so that no proof can see
them (log entries 10 and 11).
-/
namespace Sys2Proof

/-- A free 64-bit value for each draw (log entry 10). -/
opaque Config.freeWord : Nat → BitVec 64

/-- A free number of any size for each draw (log entry 10). -/
opaque Config.freeNat : Nat → Nat

/-- Cycles in which an engine's own requests wait on lens-buffer banks: a function of the ranges (start, length) they read and write, which
the spec does not state (spec/06 R280; log entry 70). -/
opaque Config.lensConflict : List (Nat × Nat) → List (Nat × Nat) → Nat

/-- The repairs that REPAIR_TRIM spells, each in the low 24 bits of a repair-log entry; the spec does not state the fuses' layout (spec/06
R297, spec/17 R801; log entry 90). -/
opaque Config.fusedRepairs : BitVec 1792 → List (BitVec 24)

/-- The measurement of the boot ROM, which never changes (spec/17 R806; log entry 11). -/
opaque Config.bootRomDigest : BitVec 384

/-- SHA-384 of a byte string, as the number its 48 bytes spell, least significant byte first (log entry 11). -/
opaque Config.sha384 : List Byte → BitVec 384

/-- Whether an ECDSA P-384 signature verifies: public key, message, signature (log entry 11). -/
opaque Config.ecdsaVerify : List Byte → List Byte → List Byte → Bool

/-- Whether an LMS signature verifies: public key, message, signature (log entry 11). -/
opaque Config.lmsVerify : List Byte → List Byte → List Byte → Bool

/-- HMAC-SHA-384 of a message under a key (spec/17 R808, R811; log entry 11). -/
opaque Config.hmacSha384 : List Byte → List Byte → List Byte

/-- The messages under which the security core derives its keys from UDS, by what is derived; the spec does not state them (spec/17 R808,
R811; log entry 11). -/
opaque Config.keyLabel : Nat → List Byte

/-- The public key of an ECDSA P-384 secret (log entry 11). -/
opaque Config.ecdsaPublic : List Byte → List Byte

/-- The public key of an LMS tree: seed, identifier (log entry 11). -/
opaque Config.lmsPublic : List Byte → List Byte → List Byte

/-- An ECDSA signature with a secret over a message, for each free draw (log entry 11). -/
opaque Config.ecdsaSign : List Byte → Nat → List Byte → List Byte

/-- An LMS signature over a message with the key of an index in the tree of a seed and an identifier (log entry 11). -/
opaque Config.lmsSign : List Byte → List Byte → Nat → List Byte → List Byte

/-- The DER bytes of the root and intermediate certificates (spec/17 R809; log entry 11). -/
opaque Config.rootCertificate : List Byte
opaque Config.intermediateCertificate : List Byte

/-- The DER bytes of a device certificate that carries an ECDSA and an LMS public key, SERIAL, the order code and, where the last argument
is true, an engineering-sample mark (spec/17 R809; log entry 11). -/
opaque Config.deviceCertificate : List Byte → List Byte → List Byte → List Byte → Bool → List Byte

end Sys2Proof
end

