-- ==== Sys2Proof/Machine/DictTable.lean ====
section
/-!
DEFINITION. The object dictionary's entries as the spec's chapters list them (R157, R305, R365, R410, R460, R461, R507, R567, R628,
R665, R707, R747, R785, R821, R842): index, subindices, type, access class, default, legal range and unit code.
-/
namespace Sys2Proof.Machine

/-- One row of the dictionary: it covers `count` consecutive indices from `index` and the subindices `subLo` to `subHi`. Type and access
are the codes of R710 and R711; `none` names a legal value beyond the range that means none. -/
structure DictRow where
  index : Nat
  count : Nat
  subLo : Nat
  subHi : Nat
  name : String
  type : Nat
  access : Nat
  dflt : Int
  lo : Int
  hi : Int
  extra : Option Int
  unit : String
  deriving DecidableEq, Repr

/-- Piece 0 of `dictRows`. -/
def dictRows0 : List DictRow := [
  ⟨0x1000, 1, 1, 1, "VENDOR_NAME", 9, 0, 0, 8, 8, none, ""⟩,
  ⟨0x1000, 1, 2, 2, "ORDER_CODE", 9, 0, 0, 14, 18, none, ""⟩,
  ⟨0x1000, 1, 3, 3, "SERIAL_NUMBER", 9, 0, 0, 16, 16, none, ""⟩,
  ⟨0x1000, 1, 4, 4, "FIRMWARE_VERSION", 3, 1, 0, 0, 4294967295, none, ""⟩,
  ⟨0x1000, 1, 5, 5, "PACKAGE_ID", 2, 2, 0, 0, 4095, none, ""⟩,
  ⟨0x1000, 1, 6, 6, "MOORING_NODE_ID", 1, 1, 0, 0, 7, none, ""⟩,
  ⟨0x1000, 1, 7, 7, "DICT_LOCK", 7, 2, 0, 0, 1, none, ""⟩,
  ⟨0x1000, 1, 8, 8, "DICT_STORE", 7, 3, 0, 0, 1, none, ""⟩,
  ⟨0x1000, 1, 9, 9, "DICT_STORE_STATUS", 8, 1, 0, 0, 2, none, ""⟩,
  ⟨0x1010, 1, 1, 1, "BOOT_STAGE", 1, 1, 1, 1, 226, none, ""⟩,
  ⟨0x1010, 1, 2, 2, "PCIE_LINK", 2, 1, 0, 0, 65535, none, ""⟩,
  ⟨0x1010, 1, 3, 3, "UCIE_D2D_MODULES", 1, 1, 24, 0, 24, none, "cnt"⟩,
  ⟨0x1010, 1, 4, 4, "IRQ_HOLDOFF", 2, 2, 2, 0, 1000, none, "us"⟩,
  ⟨0x1020, 1, 1, 1, "CLAMP_CNT_MOORING", 4, 1, 0, 0, 18446744073709551615, none, "cnt"⟩,
  ⟨0x1020, 1, 2, 2, "CLAMP_CNT_MCTP", 4, 1, 0, 0, 18446744073709551615, none, "cnt"⟩,
  ⟨0x1020, 1, 3, 3, "CLAMP_CNT_HOST", 4, 1, 0, 0, 18446744073709551615, none, "cnt"⟩,
  ⟨0x1020, 1, 4, 4, "CLAMP_CNT_LOCAL", 4, 1, 0, 0, 18446744073709551615, none, "cnt"⟩,
  ⟨0x1020, 1, 5, 5, "DICT_REFUSED_CNT", 4, 1, 0, 0, 18446744073709551615, none, "cnt"⟩,
  ⟨0x1030, 1, 1, 1, "MOORING_ENABLE", 7, 2, 1, 0, 1, none, ""⟩,
  ⟨0x1030, 1, 2, 2, "PLCA_NODE_COUNT", 1, 2, 8, 1, 8, none, "cnt"⟩,
  ⟨0x1030, 1, 3, 3, "PLCA_TO_TIMER", 1, 2, 32, 16, 255, none, "bit"⟩,
  ⟨0x1030, 1, 4, 4, "PLCA_MAX_BURST", 1, 2, 0, 0, 3, none, "cnt"⟩,
  ⟨0x1030, 1, 5, 5, "MOORING_PRESENCE_INTERVAL", 2, 2, 10, 1, 1000, none, "ms"⟩,
  ⟨0x1030, 1, 6, 6, "COARSE_INTERVAL", 2, 2, 1, 1, 100, none, "ms"⟩,
  ⟨0x1030, 1, 7, 7, "MOORING_RESET_ACCEPT", 8, 4, 2, 0, 2, none, ""⟩,
  ⟨0x1030, 1, 8, 8, "MOORING_PEERS", 10, 1, 0, 128, 128, none, ""⟩,
  ⟨0x1030, 1, 9, 9, "MOORING_BAD_FRAME_CNT", 4, 1, 0, 0, 18446744073709551615, none, "cnt"⟩]

/-- Piece 1 of `dictRows`. -/
def dictRows1 : List DictRow := [
  ⟨0x1030, 1, 10, 10, "MOORING_NODE_CONFLICT", 7, 1, 0, 0, 1, none, ""⟩,
  ⟨0x1040, 1, 1, 1, "FOG_SEND", 10, 3, 0, 16, 16, none, ""⟩,
  ⟨0x1040, 1, 2, 2, "FOG_LAST", 10, 1, 0, 24, 24, none, ""⟩,
  ⟨0x1040, 1, 3, 3, "FOG_RX_CNT", 4, 1, 0, 0, 18446744073709551615, none, "cnt"⟩,
  ⟨0x1040, 1, 4, 4, "FOG_ORIGIN_CNT", 4, 1, 0, 0, 18446744073709551615, none, "cnt"⟩,
  ⟨0x2000, 1, 1, 1, "POWER_MODE", 8, 2, 0, 0, 2, none, ""⟩,
  ⟨0x2000, 1, 2, 2, "SUB_MODE", 8, 2, 0, 0, 3, none, ""⟩,
  ⟨0x2000, 1, 3, 3, "POWER_MODE_ACTIVE", 8, 1, 0, 0, 2, none, ""⟩,
  ⟨0x2000, 1, 4, 4, "POWER_CAP", 2, 2, 1250, 300, 1250, none, "W"⟩,
  ⟨0x2010, 1, 1, 1, "THERM_THROTTLE", 1, 2, 95, 70, 100, none, "C"⟩,
  ⟨0x2010, 1, 2, 2, "HBM_THERM_THROTTLE", 1, 2, 95, 86, 100, none, "C"⟩,
  ⟨0x2010, 1, 3, 3, "THERMAL_RESTART", 7, 1, 0, 0, 1, none, ""⟩,
  ⟨0x2140, 1, 1, 1, "ARRAY_RAMP_FLOOR", 1, 2, 32, 8, 128, none, "cyc"⟩,
  ⟨0x3000, 1, 1, 13, "RAIL_MV", 2, 1, 0, 0, 2000, none, "mV"⟩,
  ⟨0x3001, 1, 1, 13, "RAIL_MA", 3, 1, 0, 0, 2000000, none, "mA"⟩,
  ⟨0x3002, 1, 1, 13, "RAIL_MW", 3, 1, 0, 0, 1500000, none, "mW"⟩,
  ⟨0x3003, 1, 1, 1, "PKG_POWER", 3, 1, 0, 0, 1600000, none, "mW"⟩,
  ⟨0x3010, 1, 1, 2, "DIE_TEMP", 5, 1, 0, -400, 1500, none, "dC"⟩,
  ⟨0x3010, 1, 3, 3, "KEEPER_TEMP", 5, 1, 0, -400, 1500, none, "dC"⟩,
  ⟨0x3011, 1, 1, 1, "THERMAL_MAP", 10, 1, 0, 256, 256, none, ""⟩,
  ⟨0x3020, 1, 1, 8, "STACK_INFO", 2, 1, 0, 0, 65535, none, ""⟩,
  ⟨0x4010, 1, 1, 1, "PARITY_RERUN_LIMIT", 1, 2, 3, 0, 15, none, "cnt"⟩,
  ⟨0x4010, 1, 2, 2, "LINE_CRC_RETRY", 1, 2, 2, 0, 7, none, "cnt"⟩,
  ⟨0x4010, 1, 3, 3, "GALLERY_SPARES_FREE_MIN", 1, 1, 0, 0, 32, none, "cnt"⟩,
  ⟨0x4010, 1, 4, 4, "GALLERY_FRAMES_RETIRED", 2, 1, 0, 0, 6144, none, "cnt"⟩,
  ⟨0x4020, 1, 1, 1, "SCRUB_SHARE", 1, 2, 8, 1, 64, none, "/256"⟩,
  ⟨0x4020, 1, 2, 2, "CAL_PERIOD", 3, 2, 60, 10, 3600, none, "s"⟩]

/-- Piece 2 of `dictRows`. -/
def dictRows2 : List DictRow := [
  ⟨0x4020, 1, 3, 3, "CAL_DRIFT_FORCE", 1, 2, 20, 11, 40, none, "C"⟩,
  ⟨0x4020, 1, 4, 4, "HBM_REFRESH_2X_TEMP", 1, 2, 85, 70, 85, none, "C"⟩,
  ⟨0x4020, 1, 5, 5, "CAL_GROUP_TIME", 3, 0, 160, 0, 4294967295, none, "us"⟩,
  ⟨0x4030, 1, 1, 1, "DAYMARK_COPY_RATE", 2, 2, 256, 8, 256, none, "GB/s"⟩,
  ⟨0x5000, 1, 1, 1, "LINK_RETRY_LIMIT", 1, 2, 8, 1, 32, none, "cnt"⟩,
  ⟨0x5000, 1, 2, 2, "LINK_RECOVER_LIMIT", 2, 2, 10, 1, 1000, none, "ms"⟩,
  ⟨0x5000, 1, 3, 3, "MSG_RESPONSE_LIMIT", 3, 2, 50, 1, 60000, none, "ms"⟩,
  ⟨0x5000, 1, 4, 4, "ROUTE_HOP_LIMIT", 1, 2, 32, 4, 255, none, "cnt"⟩,
  ⟨0x5100, 16, 1, 1, "LINK_ENABLE", 7, 2, 1, 0, 1, none, ""⟩,
  ⟨0x5100, 16, 2, 2, "LINK_MEDIA", 8, 2, 0, 0, 2, none, ""⟩,
  ⟨0x5100, 16, 3, 3, "MEDIA_FACTOR", 2, 2, 256, 128, 512, none, "m256"⟩,
  ⟨0x5100, 16, 4, 4, "LINK_STATE", 8, 1, 1, 0, 8, none, ""⟩,
  ⟨0x5100, 16, 5, 5, "CABLE_LENGTH", 2, 1, 0, 0, 65535, none, "dm"⟩,
  ⟨0x5100, 16, 6, 6, "ONE_WAY_DELAY", 3, 1, 0, 0, 1048575, none, "dns"⟩,
  ⟨0x5100, 16, 7, 7, "IL_CLASS", 8, 1, 0, 0, 3, none, ""⟩,
  ⟨0x5100, 16, 8, 8, "PARTNER", 2, 1, 0, 0, 65535, none, ""⟩,
  ⟨0x5200, 1, 1, 1, "COLL_PEER_LIMIT", 3, 2, 100, 1, 60000, none, "ms"⟩,
  ⟨0x5200, 1, 2, 2, "COLL_GROUPS_VALID", 2, 1, 0, 0, 256, none, "cnt"⟩,
  ⟨0x5300, 1, 1, 1, "SPARE_ROLE", 7, 2, 0, 0, 1, none, ""⟩,
  ⟨0x5300, 1, 2, 2, "FAILOVER_DETECT", 3, 2, 500, 10, 60000, none, "ms"⟩,
  ⟨0x5300, 1, 3, 3, "CRIT_RESET_LIMIT", 1, 2, 3, 1, 15, none, "cnt"⟩,
  ⟨0x5300, 1, 4, 4, "FAILOVER_SEQ", 3, 1, 0, 0, 4294967295, none, ""⟩,
  ⟨0x5301, 1, 1, 1, "TABLE_UPDATE", 10, 3, 0, 0, 65536, none, ""⟩,
  ⟨0x5302, 1, 1, 64, "SPARE_LIST", 2, 2, 65535, 0, 4095, some 65535, "id"⟩,
  ⟨0x6000, 1, 1, 1, "SEC_STATE", 8, 1, 0, 0, 2, none, ""⟩,
  ⟨0x6000, 1, 2, 2, "FW_SVN", 1, 1, 0, 1, 64, none, ""⟩,
  ⟨0x6000, 1, 3, 3, "FW_SVN_FLOOR", 1, 1, 0, 0, 64, none, ""⟩]

/-- Piece 3 of `dictRows`. -/
def dictRows3 : List DictRow := [
  ⟨0x6000, 1, 4, 4, "SVN_COMMIT", 7, 3, 0, 0, 1, none, ""⟩,
  ⟨0x6000, 1, 5, 5, "LMS_REMAINING", 3, 1, 0, 0, 33554432, none, "cnt"⟩,
  ⟨0x6000, 1, 6, 6, "LMS_WARN_LEVEL", 3, 2, 1048576, 0, 33554432, none, "cnt"⟩,
  ⟨0x6000, 1, 7, 7, "LMS_EXHAUSTED", 7, 1, 0, 0, 1, none, ""⟩,
  ⟨0x6010, 1, 1, 1, "FW_UPDATE", 10, 3, 0, 9, 65536, none, ""⟩,
  ⟨0x6010, 1, 2, 2, "FW_UPDATE_STATUS", 8, 1, 0, 0, 6, none, ""⟩,
  ⟨0x6020, 1, 1, 1, "DEBUG_CHALLENGE", 10, 1, 0, 48, 48, none, ""⟩,
  ⟨0x6020, 1, 2, 2, "DEBUG_UNLOCK", 10, 3, 0, 2124, 2124, none, ""⟩,
  ⟨0x6030, 1, 1, 1, "IDENTITY_CHAIN", 10, 1, 0, 0, 16384, none, ""⟩,
  ⟨0x7000, 1, 1, 1, "TRACE_SINK", 8, 2, 0, 0, 2, none, ""⟩,
  ⟨0x7000, 1, 2, 2, "TRACE_ENG_LEVEL", 8, 2, 0, 0, 2, none, ""⟩,
  ⟨0x7000, 1, 3, 3, "TRACE_SYNC_MIN", 3, 2, 256, 16, 1048575, none, "cyc"⟩,
  ⟨0x7000, 1, 4, 4, "TRACE_SHARE", 1, 2, 8, 1, 64, none, "/256"⟩,
  ⟨0x7000, 1, 5, 5, "TRACE_OWNER_MASK", 4, 2, 18446744073709551615, 0, 18446744073709551615, none, "id"⟩,
  ⟨0x7000, 1, 6, 6, "SNAP_ENABLE", 7, 2, 0, 0, 1, none, ""⟩,
  ⟨0x7000, 1, 7, 7, "TRACE_LOST", 4, 1, 0, 0, 18446744073709551615, none, "cnt"⟩,
  ⟨0x7010, 1, 1, 1, "BUSY_TOTAL", 4, 1, 0, 0, 18446744073709551615, none, "cyc"⟩,
  ⟨0x7010, 1, 2, 8, "IDLE_TOTAL", 4, 1, 0, 0, 18446744073709551615, none, "cyc"⟩,
  ⟨0x8000, 1, 1, 1, "BEAM_ROLE", 8, 2, 0, 0, 1, none, ""⟩,
  ⟨0x8000, 1, 2, 2, "BEAM_PERIOD", 3, 2, 1000000, 1000, 64000000, none, "us"⟩,
  ⟨0x8000, 1, 3, 3, "BEAM_MARK_INTERVAL", 2, 2, 100, 10, 1000, none, "us"⟩,
  ⟨0x8000, 1, 4, 4, "BEAM_SOURCE_LINK", 1, 2, 16, 0, 16, none, "id"⟩,
  ⟨0x8000, 1, 5, 5, "BEAM_DOWN_LINKS", 2, 2, 65535, 0, 65535, none, "id"⟩,
  ⟨0x8000, 1, 6, 6, "BEAM_HOLDOVER_LIMIT", 3, 2, 100, 1, 60000, none, "ms"⟩,
  ⟨0x8000, 1, 7, 7, "BEAM_STATE", 8, 1, 0, 0, 5, none, ""⟩,
  ⟨0x8000, 1, 8, 8, "BEAM_ERROR", 5, 1, 0, -2147483647, 2147483647, none, "dns"⟩,
  ⟨0x8030, 1, 1, 1, "SLOT_SWITCH_THRESHOLD", 2, 2, 256, 16, 65535, none, "cyc"⟩]

/-- Piece 4 of `dictRows`. -/
def dictRows4 : List DictRow := [
  ⟨0x8030, 1, 2, 2, "CHAIN_STALL_TIMEOUT", 3, 2, 2000, 10, 1000000, none, "us"⟩,
  ⟨0x8030, 1, 3, 3, "EXT_SLOT_LIMIT", 3, 2, 1000, 1, 60000, none, "ms"⟩,
  ⟨0x8030, 1, 4, 4, "STREAM_RAW_ENABLE", 7, 4, 0, 0, 1, none, ""⟩,
  ⟨0x9000, 1, 1, 1, "RESET_CAUSE", 3, 1, 0, 0, 4294967295, none, ""⟩,
  ⟨0x9000, 1, 2, 2, "RESET_REQUEST", 8, 3, 0, 0, 2, none, ""⟩,
  ⟨0x9000, 1, 3, 3, "BLOCK_RESET_TIMEOUT", 3, 2, 100, 10, 10000, none, "us"⟩,
  ⟨0x9000, 1, 4, 4, "KEEPER_WDT_TIMEOUT", 3, 2, 1000, 10, 60000, none, "ms"⟩,
  ⟨0x9000, 1, 5, 5, "STRAP_CODE", 1, 1, 0, 0, 63, none, ""⟩,
  ⟨0xA000, 1, 1, 1, "POOL_GAL_FRAMES", 2, 1, 3072, 0, 3072, none, "cnt"⟩,
  ⟨0xA000, 1, 2, 2, "POOL_HBM_FRAMES", 3, 1, 0, 0, 6291456, none, "cnt"⟩,
  ⟨0xA000, 1, 3, 3, "POOL_SHELF_FRAMES", 3, 1, 0, 0, 67108864, none, "cnt"⟩,
  ⟨0xA000, 1, 4, 4, "POOL_WAIT_LIMIT", 3, 2, 100, 1, 60000, none, "ms"⟩,
  ⟨0xA000, 1, 5, 5, "REBUILD_TIMEOUT", 3, 2, 10, 1, 1000, none, "ms"⟩,
  ⟨0xA000, 1, 6, 6, "POOL_MOVE_SHARE", 1, 2, 16, 1, 128, none, "/256"⟩,
  ⟨0xA010, 1, 1, 1, "SHELF_INTERLEAVE", 8, 2, 0, 0, 2, none, ""⟩,
  ⟨0xA010, 1, 2, 2, "SHELF_RESCAN", 7, 3, 0, 0, 1, none, ""⟩,
  ⟨0xA010, 1, 3, 3, "SHELF_SKIPPED", 1, 1, 0, 0, 255, none, "cnt"⟩,
  ⟨0xA010, 1, 4, 4, "SHELF_UNMAPPED_MIB", 3, 1, 0, 0, 4294967295, none, "MiB"⟩,
  ⟨0xA100, 64, 1, 1, "GAL_FLOOR", 2, 2, 0, 0, 192, none, "MiBd"⟩,
  ⟨0xA100, 64, 2, 2, "GAL_CEIL", 2, 2, 0, 0, 192, none, "MiBd"⟩,
  ⟨0xA100, 64, 3, 3, "HBM_FLOOR", 3, 2, 0, 0, 393216, none, "MiB"⟩,
  ⟨0xA100, 64, 4, 4, "HBM_CEIL", 3, 2, 0, 0, 393216, none, "MiB"⟩,
  ⟨0xA100, 64, 5, 5, "SHELF_CEIL", 3, 2, 0, 0, 4194304, none, "MiB"⟩,
  ⟨0xA100, 64, 6, 6, "OWNER_MODE", 8, 2, 0, 0, 3, none, ""⟩,
  ⟨0xA100, 64, 7, 7, "HBM_HELD", 3, 1, 0, 0, 393216, none, "MiB"⟩,
  ⟨0xA100, 64, 8, 8, "DAYMARK_SEQ", 3, 1, 0, 0, 4294967295, none, "cnt"⟩,
  ⟨0xA100, 64, 9, 9, "DAYMARK_CLEAN_REV", 3, 1, 4294967295, 0, 4294967295, none, "rev"⟩]

/-- Every row of the dictionary, in index order. -/
def dictRows : List DictRow := dictRows0 ++ dictRows1 ++ dictRows2 ++ dictRows3 ++ dictRows4

/-- The row that covers an index and subindex. -/
def dictFind (idx sub : Nat) : Option DictRow :=
  dictRows.find? fun r =>
    decide (r.index ≤ idx) && decide (idx < r.index + r.count) && decide (r.subLo ≤ sub) && decide (sub ≤ r.subHi)

/-- The default of an entry; 0 where the spec shows none (log entry 5). -/
def dictDefault (idx sub : Nat) : Int :=
  match dictFind idx sub with
  | some r => r.dflt
  | none => 0

/-- The key of an entry. -/
def dictKey (idx sub : Nat) : Nat := idx * 256 + sub

/-! ## Entries by name -/

def dkVendorName : Nat := dictKey 0x1000 1
def dkOrderCode : Nat := dictKey 0x1000 2
def dkSerialNumber : Nat := dictKey 0x1000 3
def dkFirmwareVersion : Nat := dictKey 0x1000 4
def dkPackageId : Nat := dictKey 0x1000 5
def dkMooringNodeId : Nat := dictKey 0x1000 6
def dkDictLock : Nat := dictKey 0x1000 7
def dkDictStore : Nat := dictKey 0x1000 8
def dkDictStoreStatus : Nat := dictKey 0x1000 9
def dkBootStage : Nat := dictKey 0x1010 1
def dkPcieLink : Nat := dictKey 0x1010 2
def dkUcieD2dModules : Nat := dictKey 0x1010 3
def dkIrqHoldoff : Nat := dictKey 0x1010 4
def dkClampCntMooring : Nat := dictKey 0x1020 1
def dkClampCntMctp : Nat := dictKey 0x1020 2
def dkClampCntHost : Nat := dictKey 0x1020 3
def dkClampCntLocal : Nat := dictKey 0x1020 4
def dkDictRefusedCnt : Nat := dictKey 0x1020 5
def dkMooringEnable : Nat := dictKey 0x1030 1
def dkPlcaNodeCount : Nat := dictKey 0x1030 2
def dkPlcaToTimer : Nat := dictKey 0x1030 3
def dkPlcaMaxBurst : Nat := dictKey 0x1030 4
def dkMooringPresenceInterval : Nat := dictKey 0x1030 5
def dkCoarseInterval : Nat := dictKey 0x1030 6
def dkMooringResetAccept : Nat := dictKey 0x1030 7
def dkMooringPeers : Nat := dictKey 0x1030 8
def dkMooringBadFrameCnt : Nat := dictKey 0x1030 9
def dkMooringNodeConflict : Nat := dictKey 0x1030 10
def dkFogSend : Nat := dictKey 0x1040 1
def dkFogLast : Nat := dictKey 0x1040 2
def dkFogRxCnt : Nat := dictKey 0x1040 3
def dkFogOriginCnt : Nat := dictKey 0x1040 4
def dkPowerMode : Nat := dictKey 0x2000 1
def dkSubMode : Nat := dictKey 0x2000 2
def dkPowerModeActive : Nat := dictKey 0x2000 3
def dkPowerCap : Nat := dictKey 0x2000 4
def dkThermThrottle : Nat := dictKey 0x2010 1
def dkHbmThermThrottle : Nat := dictKey 0x2010 2
def dkThermalRestart : Nat := dictKey 0x2010 3
def dkArrayRampFloor : Nat := dictKey 0x2140 1
def dkRailMv (k : Nat) : Nat := dictKey 0x3000 (1 + k)
def dkRailMa (k : Nat) : Nat := dictKey 0x3001 (1 + k)
def dkRailMw (k : Nat) : Nat := dictKey 0x3002 (1 + k)
def dkPkgPower : Nat := dictKey 0x3003 1
def dkDieTemp (k : Nat) : Nat := dictKey 0x3010 (1 + k)
def dkKeeperTemp : Nat := dictKey 0x3010 3
def dkThermalMap : Nat := dictKey 0x3011 1
def dkStackInfo (k : Nat) : Nat := dictKey 0x3020 (1 + k)
def dkParityRerunLimit : Nat := dictKey 0x4010 1
def dkLineCrcRetry : Nat := dictKey 0x4010 2
def dkGallerySparesFreeMin : Nat := dictKey 0x4010 3
def dkGalleryFramesRetired : Nat := dictKey 0x4010 4
def dkScrubShare : Nat := dictKey 0x4020 1
def dkCalPeriod : Nat := dictKey 0x4020 2
def dkCalDriftForce : Nat := dictKey 0x4020 3
def dkHbmRefresh2xTemp : Nat := dictKey 0x4020 4
def dkCalGroupTime : Nat := dictKey 0x4020 5
def dkDaymarkCopyRate : Nat := dictKey 0x4030 1
def dkLinkRetryLimit : Nat := dictKey 0x5000 1
def dkLinkRecoverLimit : Nat := dictKey 0x5000 2
def dkMsgResponseLimit : Nat := dictKey 0x5000 3
def dkRouteHopLimit : Nat := dictKey 0x5000 4
def dkLinkEnable (n : Nat) : Nat := dictKey (0x5100 + n) 1
def dkLinkMedia (n : Nat) : Nat := dictKey (0x5100 + n) 2
def dkMediaFactor (n : Nat) : Nat := dictKey (0x5100 + n) 3
def dkLinkState (n : Nat) : Nat := dictKey (0x5100 + n) 4
def dkCableLength (n : Nat) : Nat := dictKey (0x5100 + n) 5
def dkOneWayDelay (n : Nat) : Nat := dictKey (0x5100 + n) 6
def dkIlClass (n : Nat) : Nat := dictKey (0x5100 + n) 7
def dkPartner (n : Nat) : Nat := dictKey (0x5100 + n) 8
def dkCollPeerLimit : Nat := dictKey 0x5200 1
def dkCollGroupsValid : Nat := dictKey 0x5200 2
def dkSpareRole : Nat := dictKey 0x5300 1
def dkFailoverDetect : Nat := dictKey 0x5300 2
def dkCritResetLimit : Nat := dictKey 0x5300 3
def dkFailoverSeq : Nat := dictKey 0x5300 4
def dkTableUpdate : Nat := dictKey 0x5301 1
def dkSpareList (k : Nat) : Nat := dictKey 0x5302 (1 + k)
def dkSecState : Nat := dictKey 0x6000 1
def dkFwSvn : Nat := dictKey 0x6000 2
def dkFwSvnFloor : Nat := dictKey 0x6000 3
def dkSvnCommit : Nat := dictKey 0x6000 4
def dkLmsRemaining : Nat := dictKey 0x6000 5
def dkLmsWarnLevel : Nat := dictKey 0x6000 6
def dkLmsExhausted : Nat := dictKey 0x6000 7
def dkFwUpdate : Nat := dictKey 0x6010 1
def dkFwUpdateStatus : Nat := dictKey 0x6010 2
def dkDebugChallenge : Nat := dictKey 0x6020 1
def dkDebugUnlock : Nat := dictKey 0x6020 2
def dkIdentityChain : Nat := dictKey 0x6030 1
def dkTraceSink : Nat := dictKey 0x7000 1
def dkTraceEngLevel : Nat := dictKey 0x7000 2
def dkTraceSyncMin : Nat := dictKey 0x7000 3
def dkTraceShare : Nat := dictKey 0x7000 4
def dkTraceOwnerMask : Nat := dictKey 0x7000 5
def dkSnapEnable : Nat := dictKey 0x7000 6
def dkTraceLost : Nat := dictKey 0x7000 7
def dkBusyTotal : Nat := dictKey 0x7010 1
def dkIdleTotal (k : Nat) : Nat := dictKey 0x7010 (2 + k)
def dkBeamRole : Nat := dictKey 0x8000 1
def dkBeamPeriod : Nat := dictKey 0x8000 2
def dkBeamMarkInterval : Nat := dictKey 0x8000 3
def dkBeamSourceLink : Nat := dictKey 0x8000 4
def dkBeamDownLinks : Nat := dictKey 0x8000 5
def dkBeamHoldoverLimit : Nat := dictKey 0x8000 6
def dkBeamState : Nat := dictKey 0x8000 7
def dkBeamError : Nat := dictKey 0x8000 8
def dkSlotSwitchThreshold : Nat := dictKey 0x8030 1
def dkChainStallTimeout : Nat := dictKey 0x8030 2
def dkExtSlotLimit : Nat := dictKey 0x8030 3
def dkStreamRawEnable : Nat := dictKey 0x8030 4
def dkResetCause : Nat := dictKey 0x9000 1
def dkResetRequest : Nat := dictKey 0x9000 2
def dkBlockResetTimeout : Nat := dictKey 0x9000 3
def dkKeeperWdtTimeout : Nat := dictKey 0x9000 4
def dkStrapCode : Nat := dictKey 0x9000 5
def dkPoolGalFrames : Nat := dictKey 0xA000 1
def dkPoolHbmFrames : Nat := dictKey 0xA000 2
def dkPoolShelfFrames : Nat := dictKey 0xA000 3
def dkPoolWaitLimit : Nat := dictKey 0xA000 4
def dkRebuildTimeout : Nat := dictKey 0xA000 5
def dkPoolMoveShare : Nat := dictKey 0xA000 6
def dkShelfInterleave : Nat := dictKey 0xA010 1
def dkShelfRescan : Nat := dictKey 0xA010 2
def dkShelfSkipped : Nat := dictKey 0xA010 3
def dkShelfUnmappedMib : Nat := dictKey 0xA010 4
def dkGalFloor (n : Nat) : Nat := dictKey (0xA100 + n) 1
def dkGalCeil (n : Nat) : Nat := dictKey (0xA100 + n) 2
def dkHbmFloor (n : Nat) : Nat := dictKey (0xA100 + n) 3
def dkHbmCeil (n : Nat) : Nat := dictKey (0xA100 + n) 4
def dkShelfCeil (n : Nat) : Nat := dictKey (0xA100 + n) 5
def dkOwnerMode (n : Nat) : Nat := dictKey (0xA100 + n) 6
def dkHbmHeld (n : Nat) : Nat := dictKey (0xA100 + n) 7
def dkDaymarkSeq (n : Nat) : Nat := dictKey (0xA100 + n) 8
def dkDaymarkCleanRev (n : Nat) : Nat := dictKey (0xA100 + n) 9

end Sys2Proof.Machine
end

