-- ==== Sys2Proof/Machine/Numeric.lean ====
section
/-!
DEFINITION. Number formats, exact values, conversion and rounding (spec/02_number_formats.md R45 to R103).
A finite value is held exactly: sign, magnitude `man` and power of two `exp`.
-/
namespace Sys2Proof.Machine

/-- The exact value of an element (R82): NaN, a signed infinity, or a signed dyadic number `man * 2^exp`
(a zero, `man = 0`, keeps its sign). -/
inductive Val where
  | nan
  | inf (neg : Bool)
  | fin (neg : Bool) (man : Nat) (exp : Int)
  deriving DecidableEq, Repr

/-- The three sticky-flag reports of one conversion (R101, R171). -/
structure Flags where
  nonfinite : Bool := false
  ovfSat : Bool := false
  underflow : Bool := false
  deriving DecidableEq, Repr

/-- No report. -/
def Flags.none : Flags := ⟨false, false, false⟩

/-- The OR of two reports (R102). -/
def Flags.or (a b : Flags) : Flags :=
  ⟨a.nonfinite || b.nonfinite, a.ovfSat || b.ovfSat, a.underflow || b.underflow⟩

/-- How a format encodes what is not finite (R56, R57). -/
inductive Special where
  /-- infinities and NaNs as IEEE 754 has them -/
  | ieee
  /-- E4M3: no infinity, NaN where all the low seven bits are set -/
  | nanOnly
  /-- neither infinities nor NaNs -/
  | finiteOnly
  deriving DecidableEq, Repr

/-- A floating-point layout: exponent width, mantissa width, bias, special encodings (R49). -/
structure Layout where
  ebits : Nat
  mbits : Nat
  bias : Nat
  special : Special
  deriving DecidableEq, Repr

/-- What a format code names (R45). -/
inductive Fmt where
  | float (l : Layout)
  | int (bits : Nat)
  | e8m0
  deriving DecidableEq, Repr

/-- R49: the layouts of the floating-point formats. -/
def layoutB32 : Layout := ⟨8, 23, 127, .ieee⟩
def layoutB16 : Layout := ⟨5, 10, 15, .ieee⟩
def layoutBF16 : Layout := ⟨8, 7, 127, .ieee⟩
def layoutE5M2 : Layout := ⟨5, 2, 15, .ieee⟩
def layoutE4M3 : Layout := ⟨4, 3, 7, .nanOnly⟩
def layoutE3M2 : Layout := ⟨3, 2, 3, .finiteOnly⟩
def layoutE2M3 : Layout := ⟨2, 3, 1, .finiteOnly⟩
def layoutE2M1 : Layout := ⟨2, 1, 1, .finiteOnly⟩

/-- The format a code names; a reserved code is read as binary32 (R45, R48). -/
def fmtOf (code : Nat) : Fmt :=
  match code with
  | 1 => .float layoutB16
  | 2 => .float layoutBF16
  | 3 => .float layoutE5M2
  | 4 => .float layoutE4M3
  | 5 => .float layoutE3M2
  | 6 => .float layoutE2M3
  | 7 => .float layoutE2M1
  | 8 => .int 8
  | 9 => .int 4
  | 10 => .e8m0
  | _ => .float layoutB32

/-- Bits of one element (R45). -/
def fmtBits (code : Nat) : Nat :=
  match fmtOf code with
  | .float l => 1 + l.ebits + l.mbits
  | .int b => b
  | .e8m0 => 8

/-- R48: codes 0xB to 0xF are reserved. -/
def fmtReserved (code : Nat) : Bool := decide (10 < code)

/-- R67: the formats that may be MX-scaled are 0x3 to 0x8. -/
def mxAllowed (code : Nat) : Bool := decide (3 ≤ code) && decide (code ≤ 8)

/-- The width classes of R45 and R46. -/
inductive WidthClass where
  | w32 | w16 | w8 | narrow | scale
  deriving DecidableEq, Repr

/-- R45: the width class of a format code. -/
def widthClass (code : Nat) : WidthClass :=
  match code with
  | 1 => .w16
  | 2 => .w16
  | 3 => .w8
  | 4 => .w8
  | 5 => .narrow
  | 6 => .narrow
  | 7 => .narrow
  | 8 => .w8
  | 9 => .narrow
  | 10 => .scale
  | _ => .w32

/-! ## Exact arithmetic -/

/-- Positive zero. -/
def Val.zero : Val := .fin false 0 0

/-- floor(log2 |v|) of a non-zero finite magnitude. -/
def floorLog2 (man : Nat) (exp : Int) : Int := (Nat.log2 man : Int) + exp

def Val.isNan : Val → Bool
  | .nan => true
  | _ => false

def Val.isInf : Val → Bool
  | .inf _ => true
  | _ => false

/-- NaN or an infinity. -/
def Val.nonfinite : Val → Bool
  | .fin _ _ _ => false
  | _ => true

def Val.isZero : Val → Bool
  | .fin _ m _ => m == 0
  | _ => false

/-- The sign bit (false for NaN). -/
def Val.sign : Val → Bool
  | .nan => false
  | .inf n => n
  | .fin n _ _ => n

def Val.neg : Val → Val
  | .nan => .nan
  | .inf n => .inf (!n)
  | .fin n m e => .fin (!n) m e

def Val.abs : Val → Val
  | .nan => .nan
  | .inf _ => .inf false
  | .fin _ m e => .fin false m e

/-- The signed integer `man` scaled down to a common exponent `e0 ≤ exp`. -/
def scaledInt (neg : Bool) (man : Nat) (exp e0 : Int) : Int :=
  let m : Int := ((man * 2 ^ (exp - e0).toNat : Nat) : Int)
  if neg then -m else m

/-- Exact sum by the IEEE 754-2019 rules for special operands and signed zeros (R94, R127): an exact zero sum of
operands that are not both −0 is +0. -/
def Val.add : Val → Val → Val
  | .nan, _ => .nan
  | _, .nan => .nan
  | .inf a, .inf b => if a == b then .inf a else .nan
  | .inf a, _ => .inf a
  | _, .inf b => .inf b
  | .fin a m e, .fin b n f =>
    if m == 0 && n == 0 then .fin (a && b) 0 0
    else
      let e0 := min e f
      let t := scaledInt a m e e0 + scaledInt b n f e0
      if t == 0 then .zero
      else .fin (decide (t < 0)) t.natAbs e0

/-- Exact product; a NaN operand or zero times infinity is NaN. -/
def Val.mul : Val → Val → Val
  | .nan, _ => .nan
  | _, .nan => .nan
  | .inf a, .inf b => .inf (a != b)
  | .inf a, .fin b m _ => if m == 0 then .nan else .inf (a != b)
  | .fin a m _, .inf b => if m == 0 then .nan else .inf (a != b)
  | .fin a m e, .fin b n f => .fin (a != b) (m * n) (e + f)

/-- Exact scaling by a power of two. -/
def Val.scale (v : Val) (k : Int) : Val :=
  match v with
  | .fin n m e => .fin n m (e + k)
  | w => w

/-- `a < b` for values neither of which is NaN (zeros of either sign are equal). -/
def Val.lt : Val → Val → Bool
  | .nan, _ => false
  | _, .nan => false
  | .inf a, .inf b => a && !b
  | .inf a, _ => a
  | _, .inf b => !b
  | .fin a m e, .fin b n f =>
    let e0 := min e f
    decide (scaledInt a m e e0 < scaledInt b n f e0)

/-! ## Decoding an element (R50 to R57) -/

/-- R50, R56, R57: a floating-point code's value. -/
def decodeFloat (l : Layout) (bits : Nat) : Val :=
  let m := bits % 2 ^ l.mbits
  let e := bits / 2 ^ l.mbits % 2 ^ l.ebits
  let s := bits / 2 ^ (l.mbits + l.ebits) % 2 == 1
  let emaxField := 2 ^ l.ebits - 1
  let top : Bool := e == emaxField
  let finite : Val :=
    if e == 0 then .fin s m (1 - (l.bias : Int) - (l.mbits : Int))
    else .fin s (2 ^ l.mbits + m) ((e : Int) - (l.bias : Int) - (l.mbits : Int))
  match l.special with
  | .ieee => if top then (if m == 0 then .inf s else .nan) else finite
  | .nanOnly => if top && m == 2 ^ l.mbits - 1 then .nan else finite
  | .finiteOnly => finite

/-- R52: a two's-complement integer of `b` bits. -/
def decodeInt (b : Nat) (bits : Nat) : Val :=
  let k := bits % 2 ^ b
  if k < 2 ^ (b - 1) then .fin false k 0 else .fin true (2 ^ b - k) 0

/-- R54: an E8M0 code. -/
def decodeE8M0 (c : Nat) : Val :=
  if c % 256 == 255 then .nan else .fin false 1 ((c % 256 : Nat) - 127 : Int)

/-- The unscaled value of an element; under MX an INT8 element k is k * 2^−6 (R53). -/
def decodeElem (code : Nat) (mx : Bool) (bits : Nat) : Val :=
  match fmtOf code with
  | .float l => decodeFloat l bits
  | .int b => if mx then (decodeInt b bits).scale (-6) else decodeInt b bits
  | .e8m0 => decodeE8M0 bits

/-- R73: an MX element under its scale code. -/
def decodeMx (code : Nat) (scaleCode bits : Nat) : Val :=
  match decodeE8M0 scaleCode with
  | .fin _ _ k => (decodeElem code true bits).scale k
  | _ => .nan

/-- The value of a binary32 code. -/
def dec32 (x : F32) : Val := decodeFloat layoutB32 x.toNat

/-! ## Rounding (R83 to R87, R95) -/

/-- The five rounding modes of R78 and R84. -/
inductive Rnd where
  | nearestEven | towardZero | up | down | stochastic
  deriving DecidableEq, Repr

/-- R78, R79: the mode an RND field names; a reserved value is round-to-nearest-even. -/
def rndOf (n : Nat) : Rnd :=
  match n with
  | 1 => .towardZero
  | 2 => .up
  | 3 => .down
  | 4 => .stochastic
  | _ => .nearestEven

/-- R79: the RND values 5 to 7 are reserved. -/
def rndReserved (n : Nat) : Bool := decide (4 < n)

/-- R84, R95: whether a magnitude `n + rem / 2^sh` (with `0 < rem < 2^sh`) rounds away from zero. `r` is the
element's 16 random bits. -/
def roundsAway (rnd : Rnd) (neg : Bool) (n rem sh : Nat) (r : Nat) : Bool :=
  match rnd with
  | .nearestEven => decide (2 ^ sh < 2 * rem) || (decide (2 * rem = 2 ^ sh) && n % 2 == 1)
  | .towardZero => false
  | .up => !neg
  | .down => neg
  | .stochastic => decide (r < rem * 65536 / 2 ^ sh)

/-- The magnitude `man * 2^exp` as a whole number of quanta `2^q`, and whether that is exact. -/
def roundQuanta (rnd : Rnd) (neg : Bool) (man : Nat) (exp q : Int) (r : Nat) : Nat × Bool :=
  if q ≤ exp then (man * 2 ^ (exp - q).toNat, true)
  else
    let sh := (q - exp).toNat
    let n := man / 2 ^ sh
    let rem := man % 2 ^ sh
    if rem == 0 then (n, true)
    else (if roundsAway rnd neg n rem sh r then n + 1 else n, false)

/-- Largest exponent of a finite value's leading bit. -/
def Layout.emax (l : Layout) : Int :=
  match l.special with
  | .ieee => (2 ^ l.ebits - 2 : Nat) - (l.bias : Int)
  | _ => (2 ^ l.ebits - 1 : Nat) - (l.bias : Int)

/-- The exponent of the smallest subnormal, and of a normal's lowest bit at the smallest binade. -/
def Layout.qmin (l : Layout) : Int := 1 - (l.bias : Int) - (l.mbits : Int)

/-- The code of the largest finite magnitude. -/
def Layout.maxCode (l : Layout) : Nat :=
  match l.special with
  | .ieee => (2 ^ l.ebits - 2) * 2 ^ l.mbits + (2 ^ l.mbits - 1)
  | .nanOnly => 2 ^ (l.ebits + l.mbits) - 2
  | .finiteOnly => 2 ^ (l.ebits + l.mbits) - 1

/-- The code of an infinity's magnitude in a format that has one. -/
def Layout.infCode (l : Layout) : Nat := (2 ^ l.ebits - 1) * 2 ^ l.mbits

/-- R56: the canonical NaN. -/
def Layout.nanCode (l : Layout) : Nat :=
  match l.special with
  | .ieee =>
    if l.mbits == 2 then 0x7F
    else (2 ^ l.ebits - 1) * 2 ^ l.mbits + 2 ^ (l.mbits - 1)
  | .nanOnly => 0x7F
  | .finiteOnly => 0

/-- The sign bit's weight applied to a magnitude code. -/
def Layout.withSign (l : Layout) (neg : Bool) (mag : Nat) : Nat :=
  if neg then 2 ^ (l.ebits + l.mbits) + mag else mag

/-- The magnitude code of `n` quanta `2^q`, where `n ≤ 2^(mbits+1)` and `q ≥ qmin` (the code is the count of representable
magnitudes below it, so a carry into the next binade needs no case of its own). -/
def Layout.magCode (l : Layout) (n : Nat) (q : Int) : Nat :=
  (q - l.qmin).toNat * 2 ^ l.mbits + n

/-- R86: the result of an overflow of a floating-point destination. -/
def overflowFloat (l : Layout) (rnd : Rnd) (ovfNan : Bool) (neg : Bool) : Nat × Flags :=
  let wide : Bool := decide (2 < l.mbits) && l.special == .ieee
  let sat := (l.withSign neg l.maxCode, { Flags.none with ovfSat := true })
  if wide then
    let toInf : Bool := match rnd with
      | .nearestEven => true
      | .stochastic => true
      | .towardZero => false
      | .up => !neg
      | .down => neg
    if toInf then (l.withSign neg l.infCode, { Flags.none with nonfinite := true }) else sat
  else if ovfNan && l.special != .finiteOnly then (l.nanCode, { Flags.none with nonfinite := true })
  else sat

/-- R83 to R89: a value into a floating-point format. -/
def encodeFloat (l : Layout) (rnd : Rnd) (ovfNan : Bool) (r : Nat) (v : Val) : Nat × Flags :=
  match v with
  | .nan => (l.nanCode, { Flags.none with nonfinite := true })
  | .inf neg =>
    match l.special with
    | .ieee => (l.withSign neg l.infCode, { Flags.none with nonfinite := true })
    | .nanOnly => (l.nanCode, { Flags.none with nonfinite := true })
    | .finiteOnly => (l.withSign neg l.maxCode, { Flags.none with nonfinite := true })
  | .fin neg man exp =>
    if man == 0 then (l.withSign neg 0, Flags.none)
    else
      let q := max (floorLog2 man exp - (l.mbits : Int)) l.qmin
      let (n, exact) := roundQuanta rnd neg man exp q r
      let code := l.magCode n q
      if l.maxCode < code then overflowFloat l rnd ovfNan neg
      else
        (l.withSign neg code, { Flags.none with underflow := !exact && decide (code < 2 ^ l.mbits) })

/-- R85 to R88: a value into an integer format whose lowest bit weighs `2^q`. -/
def encodeInt (b : Nat) (q : Int) (rnd : Rnd) (r : Nat) (v : Val) : Nat × Flags :=
  match v with
  | .nan => (0, { Flags.none with nonfinite := true })
  | .inf neg => (if neg then 2 ^ (b - 1) else 2 ^ (b - 1) - 1, { Flags.none with nonfinite := true })
  | .fin neg man exp =>
    if man == 0 then (0, Flags.none)
    else
      let (n, _) := roundQuanta rnd neg man exp q r
      if neg then
        if 2 ^ (b - 1) < n then (2 ^ (b - 1), { Flags.none with ovfSat := true })
        else ((2 ^ b - n) % 2 ^ b, { Flags.none with underflow := n == 0 })
      else
        if 2 ^ (b - 1) - 1 < n then (2 ^ (b - 1) - 1, { Flags.none with ovfSat := true })
        else (n, { Flags.none with underflow := n == 0 })

/-- R91: a value into E8M0. R101 sets non-finite where the result is NaN. -/
def encodeE8M0 (v : Val) : Nat × Flags :=
  match v with
  | .fin _ man exp =>
    if man == 0 then (0, Flags.none)
    else
      let x := floorLog2 man exp + 127
      if 254 < x then (254, { Flags.none with ovfSat := true })
      else if x < 0 then (0, { Flags.none with underflow := true })
      else (x.toNat, Flags.none)
  | _ => (255, { Flags.none with nonfinite := true })

/-- R82: the conversion of a value into an unscaled element of a format, with its report. -/
def encodeElem (code : Nat) (rnd : Rnd) (ovfNan : Bool) (r : Nat) (v : Val) : Nat × Flags :=
  match fmtOf code with
  | .float l => encodeFloat l rnd ovfNan r v
  | .int b => encodeInt b 0 rnd r v
  | .e8m0 => encodeE8M0 v

/-- The conversion of a scaled value into an element of an MX block (R75, R76); INT8 elements weigh 2^−6 (R53). -/
def encodeMxElem (code : Nat) (rnd : Rnd) (ovfNan : Bool) (r : Nat) (v : Val) : Nat × Flags :=
  match fmtOf code with
  | .float l => encodeFloat l rnd ovfNan r v
  | .int b => encodeInt b (-6) rnd r v
  | .e8m0 => encodeE8M0 v

/-- R75: the largest exponent of an element format. -/
def mxEmax (code : Nat) : Int :=
  match code with
  | 3 => 15
  | 4 => 8
  | 5 => 4
  | 6 => 2
  | 7 => 2
  | _ => 0

/-- The larger of a magnitude and the largest so far. -/
def maxAbsStep (acc : Option (Nat × Int)) (v : Val) : Option (Nat × Int) :=
  match v with
  | .fin _ m e =>
    if m == 0 then acc
    else match acc with
      | none => some (m, e)
      | some (n, f) => if floorLog2 n f < floorLog2 m e then some (m, e) else some (n, f)
  | _ => acc

/-- floor(log2) of the largest magnitude among finite values, where one is not zero. -/
def blockLog2 (vs : List Val) : Option Int :=
  (vs.foldl maxAbsStep none).map fun p => floorLog2 p.1 p.2

/-- A signed zero of a format (R56; INT8 and INT4 have one zero). -/
def signedZero (code : Nat) (neg : Bool) : Nat :=
  match fmtOf code with
  | .float l => l.withSign neg 0
  | _ => 0

/-- R75, R77: one MX block. The values come with their random bits; the answer is the scale code, the element codes and
the report. Padding is not passed (R72: the scale is computed over the real elements only). -/
def mxBlock (code : Nat) (rnd : Rnd) (ovfNan : Bool) (vs : List (Val × Nat)) : Nat × List Nat × Flags :=
  if vs.any (fun p => p.1.nonfinite) then
    (255, vs.map (fun _ => 0), { Flags.none with nonfinite := true })
  else
    match blockLog2 (vs.map (·.1)) with
    | none => (0, vs.map (fun p => signedZero code p.1.sign), Flags.none)
    | some lg =>
      let x := max (-127) (min 127 (lg - mxEmax code))
      let es := vs.map fun p => encodeMxElem code rnd ovfNan p.2 (p.1.scale (-x))
      ((x + 127).toNat, es.map (·.1), es.foldl (fun f e => f.or e.2) Flags.none)

/-! ## binary32 arithmetic (R94) -/

/-- The canonical binary32 NaN (R56). -/
def nan32 : F32 := 0x7FC00000#32

/-- `rne32` of R123: an exact value to binary32, round-to-nearest-even, with the report of R172. -/
def rne32F (v : Val) : F32 × Flags :=
  let p := encodeFloat layoutB32 .nearestEven false 0 v
  (BitVec.ofNat 32 p.1, p.2)

def rne32 (v : Val) : F32 := (rne32F v).1

/-- One binary32 operation each, rounded once to nearest even. -/
def f32add (a b : F32) : F32 := rne32 ((dec32 a).add (dec32 b))
def f32sub (a b : F32) : F32 := rne32 ((dec32 a).add (dec32 b).neg)
def f32mul (a b : F32) : F32 := rne32 ((dec32 a).mul (dec32 b))
def f32fma (a b c : F32) : F32 := rne32 (((dec32 a).mul (dec32 b)).add (dec32 c))

/-- R169: −a changes only the sign bit of a value that is not NaN. -/
def f32neg (a : F32) : F32 := if (dec32 a).isNan then nan32 else a ^^^ 0x80000000#32
def f32abs (a : F32) : F32 := if (dec32 a).isNan then nan32 else a &&& 0x7FFFFFFF#32

/-- R169: maximum and minimum; NaN if either is NaN; −0 is below +0. -/
def f32max (a b : F32) : F32 :=
  let x := dec32 a
  let y := dec32 b
  if x.isNan || y.isNan then nan32
  else if x.lt y then b
  else if y.lt x then a
  else if x.sign then b else a

def f32min (a b : F32) : F32 :=
  let x := dec32 a
  let y := dec32 b
  if x.isNan || y.isNan then nan32
  else if x.lt y then a
  else if y.lt x then b
  else if x.sign then a else b

/-- The comparison of two binary32 codes; false where either is NaN. -/
def f32lt (a b : F32) : Bool := (dec32 a).lt (dec32 b)

/-- A small integer as binary32 (exact up to 2^24). -/
def f32ofInt (k : Int) : F32 := rne32 (.fin (decide (k < 0)) k.natAbs 0)

/-! ## Packing in memory (R62 to R66) -/

/-- Little-endian bytes of a number. -/
def bytesOf (n : Nat) : Nat → List Byte
  | 0 => []
  | k + 1 => BitVec.ofNat 8 n :: bytesOf (n / 256) k

/-- The number little-endian bytes spell. -/
def natOfBytes : List Byte → Nat
  | [] => 0
  | b :: bs => b.toNat + 256 * natOfBytes bs

/-- Bytes that `n` packed elements of a format take: a partial byte or 3-byte group counts the bytes it touches
(R62 to R64, R66). -/
def packedBytes (code n : Nat) : Nat := (n * fmtBits code + 7) / 8

/-- The elements' codes packed into bytes; unused bits are zero (R66). Element k holds bits from k * width of the
little-endian stream, which is the rule of each width. -/
def packNat (w : Nat) : List Nat → Nat
  | [] => 0
  | e :: es => e % 2 ^ w + 2 ^ w * packNat w es

def packElems (code : Nat) (es : List Nat) : List Byte :=
  bytesOf (packNat (fmtBits code) es) (packedBytes code es.length)

/-- `n` element codes read from packed bytes, from the low bits of `x`. -/
def unpackNat (w x : Nat) : Nat → List Nat
  | 0 => []
  | n + 1 => x % 2 ^ w :: unpackNat w (x / 2 ^ w) n

def unpackElems (code : Nat) (bs : List Byte) (n : Nat) : List Nat :=
  unpackNat (fmtBits code) (natOfBytes bs) n

/-! ## The reduction group (R122 to R127, R170) -/

/-- One term of a group with its floor(log2), used while the largest exponent is sought. -/
structure GroupScan where
  nan : Bool := false
  pinf : Bool := false
  ninf : Bool := false
  posZero : Bool := false
  emax : Option Int := none
  deriving DecidableEq, Repr

/-- R123, first loop: what one product adds to the scan. -/
def GroupScan.see (g : GroupScan) (p : Val) : GroupScan :=
  match p with
  | .nan => { g with nan := true }
  | .inf neg => if neg then { g with ninf := true } else { g with pinf := true }
  | .fin neg m e =>
    if m == 0 then (if neg then g else { g with posZero := true })
    else
      let lg := floorLog2 m e
      { g with emax := some (match g.emax with | none => lg | some x => max x lg) }

/-- floor(|p| * 2^(56 - emax)) of R123: bits below the window are discarded. -/
def alignMag (m : Nat) (e emax : Int) : Nat :=
  let k := e + 56 - emax
  if 0 ≤ k then m * 2 ^ k.toNat else m / 2 ^ (-k).toNat

/-- R123, second loop: the exact integer sum of the aligned products. -/
def alignedSum (emax : Int) : List Val → Int
  | [] => 0
  | .fin neg m e :: ps =>
    let a : Int := (alignMag m e emax : Nat)
    (if neg then -a else a) + alignedSum emax ps
  | _ :: ps => alignedSum emax ps

/-- R123: the exact value of a group's sum before its one rounding. -/
def groupVal (ps : List Val) : Val :=
  let g := ps.foldl GroupScan.see {}
  if g.nan || (g.pinf && g.ninf) then .nan
  else if g.pinf then .inf false
  else if g.ninf then .inf true
  else match g.emax with
    | none => if g.posZero then .fin false 0 0 else .fin true 0 0
    | some emax =>
      let f := alignedSum emax ps
      if f == 0 then .zero else .fin (decide (f < 0)) f.natAbs (emax - 56)

/-- R123: `group_sum` over the valid products of one group. -/
def groupSum (ps : List Val) : F32 := rne32 (groupVal ps)

/-- A list cut into consecutive runs of `k` (the last may be shorter); `fuel` bounds the number of runs. -/
def chunksFuel {α : Type} (k : Nat) : Nat → List α → List (List α)
  | 0, _ => []
  | fuel + 1, xs =>
    match xs with
    | [] => []
    | _ :: _ => xs.take k :: chunksFuel k fuel (xs.drop k)

def chunks {α : Type} (k : Nat) (xs : List α) : List (List α) := chunksFuel k xs.length xs

/-- R123: `element`: group results enter the accumulator in ascending order, each by one binary32 addition (R126).
The products are the valid ones, already cut at group boundaries. -/
def accumulate (acc : F32) : List (List Val) → F32
  | [] => acc
  | g :: gs => accumulate (if g.isEmpty then acc else f32add acc (groupSum g)) gs

/-- R170: the sum of a row of terms in groups of 128, added in ascending order from −0. -/
def rowGroupSum (vs : List Val) : F32 := accumulate 0x80000000#32 (chunks 128 vs)

end Sys2Proof.Machine
end

