-- ==== Sys2Proof/Machine/Tables.lean ====
section
/-!
DEFINITION. The tables and constants of the function evaluator (spec/04_vector_functions_random.md R178):
each entry is the binary32 value nearest to the exact real the rule states, ties to even, written as its code.
-/
namespace Sys2Proof.Machine

/-- Piece 0 of `tableT`. -/
def tableTPart0 : List Nat :=
  [0x3F800000, 0x3F8164D2, 0x3F82CD87, 0x3F843A29, 0x3F85AAC3, 0x3F871F62, 0x3F88980F, 0x3F8A14D5,
   0x3F8B95C2, 0x3F8D1ADF, 0x3F8EA43A, 0x3F9031DC, 0x3F91C3D3, 0x3F935A2B, 0x3F94F4F0, 0x3F96942D,
   0x3F9837F0, 0x3F99E046, 0x3F9B8D3A, 0x3F9D3EDA, 0x3F9EF532, 0x3FA0B051, 0x3FA27043, 0x3FA43516,
   0x3FA5FED7, 0x3FA7CD94, 0x3FA9A15B, 0x3FAB7A3A, 0x3FAD583F, 0x3FAF3B79, 0x3FB123F6, 0x3FB311C4]

/-- Piece 1 of `tableT`. -/
def tableTPart1 : List Nat :=
  [0x3FB504F3, 0x3FB6FD92, 0x3FB8FBAF, 0x3FBAFF5B, 0x3FBD08A4, 0x3FBF179A, 0x3FC12C4D, 0x3FC346CD,
   0x3FC5672A, 0x3FC78D75, 0x3FC9B9BE, 0x3FCBEC15, 0x3FCE248C, 0x3FD06334, 0x3FD2A81E, 0x3FD4F35B,
   0x3FD744FD, 0x3FD99D16, 0x3FDBFBB8, 0x3FDE60F5, 0x3FE0CCDF, 0x3FE33F89, 0x3FE5B907, 0x3FE8396A,
   0x3FEAC0C7, 0x3FED4F30, 0x3FEFE4BA, 0x3FF28177, 0x3FF5257D, 0x3FF7D0DF, 0x3FFA83B3, 0x3FFD3E0C]

/-- T[j] of R178: 2^(j/64). -/
def tableT : List Nat := tableTPart0 ++ tableTPart1

/-- Piece 0 of `tableR`. -/
def tableRPart0 : List Nat :=
  [0x3F800000, 0x3F7C0FC1, 0x3F783E10, 0x3F74898D, 0x3F70F0F1, 0x3F6D7304, 0x3F6A0EA1, 0x3F66C2B4,
   0x3F638E39, 0x3F607038, 0x3F5D67C9, 0x3F5A740E, 0x3F579436, 0x3F54C77B, 0x3F520D21, 0x3F4F6475,
   0x3F4CCCCD, 0x3F4A4588, 0x3F47CE0C, 0x3F4565C8, 0x3F430C31, 0x3F40C0C1, 0x3F3E82FA, 0x3F3C5264,
   0x3F3A2E8C, 0x3F381703, 0x3F360B61, 0x3F340B41, 0x3F321643, 0x3F302C0B, 0x3F2E4C41, 0x3F2C7692]

/-- Piece 1 of `tableR`. -/
def tableRPart1 : List Nat :=
  [0x3F2AAAAB, 0x3F28E83F, 0x3F272F05, 0x3F257EB5, 0x3F23D70A, 0x3F2237C3, 0x3F20A0A1, 0x3F1F1166,
   0x3F1D89D9, 0x3F1C09C1, 0x3F1A90E8, 0x3F191F1A, 0x3F17B426, 0x3F164FDA, 0x3F14F209, 0x3F139A86,
   0x3F124925, 0x3F10FDBC, 0x3F0FB824, 0x3F0E7835, 0x3F0D3DCB, 0x3F0C08C1, 0x3F0AD8F3, 0x3F09AE41,
   0x3F088889, 0x3F0767AB, 0x3F064B8A, 0x3F053408, 0x3F042108, 0x3F03126F, 0x3F020821, 0x3F010204]

/-- R[j] of R178: 1/(1 + j/64). -/
def tableR : List Nat := tableRPart0 ++ tableRPart1

/-- Piece 0 of `tableL`. -/
def tableLPart0 : List Nat :=
  [0x00000000, 0x3CB73CB4, 0x3D35D69C, 0x3D8759C5, 0x3DB31FB8, 0x3DDE4212, 0x3E0462C4, 0x3E19574F,
   0x3E2E00D2, 0x3E42615F, 0x3E567AF1, 0x3E6A4F72, 0x3E7DE0B6, 0x3E88983F, 0x3E92203D, 0x3E9B8926,
   0x3EA4D3C2, 0x3EAE00D2, 0x3EB7110E, 0x3EC0052B, 0x3EC8DDD4, 0x3ED19BB0, 0x3EDA3F60, 0x3EE2C97D,
   0x3EEB3A9F, 0x3EF39355, 0x3EFBD42B, 0x3F01FED4, 0x3F060828, 0x3F0A0650, 0x3F0DF989, 0x3F11E20F]

/-- Piece 1 of `tableL`. -/
def tableLPart1 : List Nat :=
  [0x3F15C01A, 0x3F1993E3, 0x3F1D5DA0, 0x3F211D84, 0x3F24D3C2, 0x3F28808C, 0x3F2C2411, 0x3F2FBE80,
   0x3F335004, 0x3F36D8CB, 0x3F3A58FF, 0x3F3DD0C8, 0x3F41404F, 0x3F44A7BA, 0x3F480731, 0x3F4B5ED7,
   0x3F4EAED0, 0x3F51F740, 0x3F553848, 0x3F587209, 0x3F5BA4A4, 0x3F5ED039, 0x3F61F4E5, 0x3F6512C7,
   0x3F6829FB, 0x3F6B3A9F, 0x3F6E44CD, 0x3F7148A1, 0x3F744636, 0x3F773DA4, 0x3F7A2F04, 0x3F7D1A71]

/-- L[j] of R178: log2(1 + j/64). -/
def tableL : List Nat := tableLPart0 ++ tableLPart1

/-- Piece 0 of `tableP`. -/
def tablePPart0 : List Nat :=
  [0x3F7F00FF, 0x3F7D08E5, 0x3F7B1885, 0x3F792FB2, 0x3F774E40, 0x3F757404, 0x3F73A0D5, 0x3F71D48C,
   0x3F700F01, 0x3F6E500F, 0x3F6C9791, 0x3F6AE564, 0x3F693965, 0x3F679373, 0x3F65F36D, 0x3F645933,
   0x3F62C4A7, 0x3F6135AA, 0x3F5FAC1F, 0x3F5E27EB, 0x3F5CA8F1, 0x3F5B2F17, 0x3F59BA42, 0x3F584A5A,
   0x3F56DF44, 0x3F5578E9, 0x3F541733, 0x3F52BA08, 0x3F516154, 0x3F500D01, 0x3F4EBCF9, 0x3F4D7127]

/-- Piece 1 of `tableP`. -/
def tablePPart1 : List Nat :=
  [0x3F4C2978, 0x3F4AE5D8, 0x3F49A634, 0x3F486A79, 0x3F473294, 0x3F45FE74, 0x3F44CE08, 0x3F43A13E,
   0x3F427806, 0x3F415250, 0x3F40300C, 0x3F3F112B, 0x3F3DF59D, 0x3F3CDD53, 0x3F3BC841, 0x3F3AB656,
   0x3F39A786, 0x3F389BC3, 0x3F379301, 0x3F368D31, 0x3F358A48, 0x3F348A3A, 0x3F338CFA, 0x3F32927C,
   0x3F319AB6, 0x3F30A59B, 0x3F2FB322, 0x3F2EC33E, 0x3F2DD5E6, 0x3F2CEB10, 0x3F2C02B0, 0x3F2B1CBE]

/-- Piece 2 of `tableP`. -/
def tablePPart2 : List Nat :=
  [0x3F2A392F, 0x3F2957FB, 0x3F287917, 0x3F279C7B, 0x3F26C21E, 0x3F25E9F7, 0x3F2513FD, 0x3F244029,
   0x3F236E72, 0x3F229ECF, 0x3F21D13A, 0x3F2105A9, 0x3F203C17, 0x3F1F747A, 0x3F1EAECD, 0x3F1DEB07,
   0x3F1D2922, 0x3F1C6917, 0x3F1BAADF, 0x3F1AEE73, 0x3F1A33CD, 0x3F197AE7, 0x3F18C3BB, 0x3F180E41,
   0x3F175A75, 0x3F16A850, 0x3F15F7CC, 0x3F1548E5, 0x3F149B93, 0x3F13EFD2, 0x3F13459C, 0x3F129CEC]

/-- Piece 3 of `tableP`. -/
def tablePPart3 : List Nat :=
  [0x3F11F5BD, 0x3F115009, 0x3F10ABCC, 0x3F100901, 0x3F0F67A2, 0x3F0EC7AB, 0x3F0E2918, 0x3F0D8BE3,
   0x3F0CF009, 0x3F0C5584, 0x3F0BBC51, 0x3F0B246B, 0x3F0A8DCD, 0x3F09F874, 0x3F09645C, 0x3F08D181,
   0x3F083FDE, 0x3F07AF70, 0x3F072033, 0x3F069223, 0x3F06053C, 0x3F05797C, 0x3F04EEDD, 0x3F04655E,
   0x3F03DCF9, 0x3F0355AD, 0x3F02CF75, 0x3F024A4E, 0x3F01C636, 0x3F014328, 0x3F00C122, 0x3F004020]

/-- P[j] of R178: 1/(1 + (j + 0.5)/128). -/
def tableP : List Nat := tablePPart0 ++ tablePPart1 ++ tablePPart2 ++ tablePPart3

/-- Piece 0 of `tableQ`. -/
def tableQPart0 : List Nat :=
  [0x3F7E05EC, 0x3F7A33F9, 0x3F768CDC, 0x3F730D8A, 0x3F6FB345, 0x3F6C7B90, 0x3F69642A, 0x3F666B02,
   0x3F638E39, 0x3F60CC16, 0x3F5E2305, 0x3F5B9193, 0x3F59166B, 0x3F56B051, 0x3F545E22, 0x3F521ED0,
   0x3F4FF162, 0x3F4DD4ED, 0x3F4BC89B, 0x3F49CBA2, 0x3F47DD45, 0x3F45FCD6, 0x3F4429AF, 0x3F426337,
   0x3F40A8DE, 0x3F3EFA1C, 0x3F3D5671, 0x3F3BBD67, 0x3F3A2E8C, 0x3F38A975, 0x3F372DBF, 0x3F35BB09]

/-- Piece 1 of `tableQ`. -/
def tableQPart1 : List Nat :=
  [0x3F3450FC, 0x3F32EF41, 0x3F319589, 0x3F304387, 0x3F2EF8F2, 0x3F2DB587, 0x3F2C7904, 0x3F2B432A,
   0x3F2A13C0, 0x3F28EA8C, 0x3F27C759, 0x3F26A9F4, 0x3F25922C, 0x3F247FD3, 0x3F2372BD, 0x3F226ABE,
   0x3F2167AF, 0x3F206968, 0x3F1F6FC4, 0x3F1E7AA0, 0x3F1D89D9, 0x3F1C9D4E, 0x3F1BB4E1, 0x3F1AD073,
   0x3F19EFE6, 0x3F191320, 0x3F183A05, 0x3F17647C, 0x3F16926C, 0x3F15C3BC, 0x3F14F857, 0x3F143026]

/-- Piece 2 of `tableQ`. -/
def tableQPart2 : List Nat :=
  [0x3F136B13, 0x3F12A90B, 0x3F11E9F9, 0x3F112DCA, 0x3F10746D, 0x3F0FBDCE, 0x3F0F09DD, 0x3F0E5889,
   0x3F0DA9C2, 0x3F0CFD79, 0x3F0C539F, 0x3F0BAC25, 0x3F0B06FD, 0x3F0A641A, 0x3F09C36D, 0x3F0924EC,
   0x3F088889, 0x3F07EE37, 0x3F0755ED, 0x3F06BF9E, 0x3F062B40, 0x3F0598C7, 0x3F05082A, 0x3F04795F,
   0x3F03EC5C, 0x3F036117, 0x3F02D788, 0x3F024FA6, 0x3F01C967, 0x3F0144C4, 0x3F00C1B4, 0x3F004030]

/-- Q[j] of R178: 1/sqrt(1 + (j + 0.5)/32). -/
def tableQ : List Nat := tableQPart0 ++ tableQPart1 ++ tableQPart2

/-- Piece 0 of `tableE`. -/
def tableEPart0 : List Nat :=
  [0x00000000, 0x3F906EBB, 0x00000000, 0xBEC093A3, 0x00000000, 0x3DE71791, 0x3D903EA4, 0x3F8FDE94,
   0xBD8FDE94, 0xBEBE53C9, 0x3D0F7EAA, 0x3DE2995C, 0x3E0FAF0D, 0x3F8E317D, 0xBE0E317D, 0xBEB7AA97,
   0x3D8CB64E, 0x3DD55D31, 0x3E5622F2, 0x3F8B716C, 0xBE512A21, 0xBEACD9ED, 0x3DCC4324, 0x3DC01A14,
   0x3E8D7AA7, 0x3F87AE8B, 0xBE87AE8B, 0xBE9E4BA2, 0x3E020745, 0x3DA3F2E8, 0x3EAED4FA, 0x3F82FE9F,
   0xBEA3BE47, 0xBE8C8BDB, 0x3E191539, 0x3D826285, 0x3ECEE869, 0x3F7AF867, 0xBEBC3A4D, 0xBE708363,
   0x3E2A94D6, 0x3D3A445C, 0x3EED840E, 0x3F6E8B3E, 0xBED0B9D6, 0xBE444D40, 0x3E361775, 0x3CD8322A]

/-- Piece 1 of `tableE`. -/
def tableEPart1 : List Nat :=
  [0x3F053F7B, 0x3F60F7E5, 0xBEE0F7E5, 0xBE15FA99, 0x3E3B793F, 0x3BEFF75B, 0x3F12DC54, 0x3F5283A7,
   0xBEECD41C, 0xBDCE20E9, 0x3E3ADF5E, 0xBC320857, 0x3F1F8CB7, 0x3F4374B5, 0xBEF451E2, 0xBD640828,
   0x3E34B1E4, 0xBCE09217, 0x3F2B4922, 0x3F340FF9, 0xBEF795F7, 0xBC5212A3, 0x3E29920B, 0xBD2AC5A6,
   0x3F360E4C, 0x3F249721, 0xBEF6E2B2, 0x3CDB742D, 0x3E1A4DAF, 0xBD5A150C, 0x3F3FDCE0, 0x3F1546E7,
   0xBEF29338, 0x3D7F03CB, 0x3E07D118, 0xBD7D10F6, 0x3F48B925, 0x3F0655B1, 0xBEEB15F6, 0x3DBE4EBB,
   0x3DE6302B, 0xBD89A87A, 0x3F50AA8D, 0x3EEFE513, 0xBEE0E6C2, 0x3DF264CC, 0x3DBA3F19, 0xBD8E8F80]

/-- Piece 2 of `tableE`. -/
def tableEPart2 : List Nat :=
  [0x3F57BB3D, 0x3ED488F8, 0xBED488F8, 0x3E0DB0A6, 0x3D8DB0A6, 0xBD8DB0A6, 0x3F5DF788, 0x3EBAD48D,
   0xBEC681D6, 0x3E1CAA3C, 0x3D44707C, 0xBD87BE0B, 0x3F636D69, 0x3EA2F4CE, 0xBEB75368, 0x3E2659E8,
   0x3CE52842, 0xBD7B2E8B, 0x3F682C06, 0x3E8D06E3, 0xBEA7782D, 0x3E2B245B, 0x3C207DD6, 0xBD606DC5,
   0x3F6C432F, 0x3E723298, 0xBE975F9F, 0x3E2B8E81, 0xBBC9D4D4, 0xBD4140E7, 0x3F6FC2F5, 0x3E4E5ADF,
   0xBE876BA2, 0x3E283367, 0xBCA0CFD1, 0xBD1FA0BB, 0x3F72BB46, 0x3E2E72CB, 0xBE6FDDD7, 0x3E21BA6C,
   0xBCF9DC6B, 0xBCFAB962, 0x3F753B98, 0x3E1253DC, 0xBE52588C, 0x3E18CE3D, 0xBD1EDADF, 0xBCB80CDF]

/-- Piece 3 of `tableE`. -/
def tableEPart3 : List Nat :=
  [0x3F7752AB, 0x3DF391B9, 0xBE36AD4B, 0x3E0E1501, 0xBD36AD4B, 0xBC7391B9, 0x3F790E50, 0x3DC92385,
   0xBE1D23C0, 0x3E0229FD, 0xBD453E35, 0xBC03AE04, 0x3F7A7B4A, 0x3DA4CEA4, 0xBE05E7E5, 0x3DEB318F,
   0xBD4BA602, 0xBB0BEA18, 0x3F7BA537, 0x3D85FCBF, 0xBDE21A83, 0x3DD1B43E, 0xBD4B23D2, 0x3B34C083,
   0x3F7C9684, 0x3D582A98, 0xBDBD2545, 0x3DB8A462, 0xBD4506D3, 0x3BD9112C, 0x3F7D586F, 0x3D2D0474,
   0xBD9CCC09, 0x3DA0A078, 0xBD3A9AD3, 0x3C1BA644, 0x3F7DF30F, 0x3D09675A, 0xBD80D0E4, 0x3D8A1E8E,
   0xBD2D18B3, 0x3C3BCD8F, 0x3F7E6D66, 0x3CD88B05, 0xBD51C6AD, 0x3D6ADEC9, 0xBD1D9AEE, 0x3C4EBB58]

/-- Piece 4 of `tableE`. -/
def tableEPart4 : List Nat :=
  [0x3F7ECD71, 0x3CA94DCF, 0xBD294DCF, 0x3D458572, 0xBD0D162D, 0x3C5673A0, 0x3F7F1840, 0x3C83570A,
   0xBD0771C2, 0x3D245894, 0xBCF8AADA, 0x3C551604, 0x3F7F5211, 0x3C4A3127, 0xBCD6D43A, 0x3D07523B,
   0xBCD7F2AA, 0x3C4CB9DA, 0x3F7F7E67, 0x3C1A6BEE, 0xBCA8E60C, 0x3CDC92D5, 0xBCB8F3EA, 0x3C3F52C0,
   0x3F7FA024, 0x3BEA0A1D, 0xBC83A5B0, 0x3CB1F7B1, 0xBC9C54C2, 0x3C2E9D8C, 0x3F7FB99C, 0x3BAFF93B,
   0xBC4B782C, 0x3C8E2D32, 0xBC827AE5, 0x3C1C150A, 0x3F7FCCB0, 0x3B8348C6, 0xBC1BE66B, 0x3C60F608,
   0xBC572CB1, 0x3C08ED72, 0x3F7FDADF, 0x3B425D18, 0xBBECE175, 0x3C3044C3, 0xBC2F58E4, 0x3BEC2A7C]

/-- Piece 5 of `tableE`. -/
def tableEPart5 : List Nat :=
  [0x3F7FE554, 0x3B0EC18C, 0xBBB271EE, 0x3C08CED0, 0xBC0D44DD, 0x3BC87409, 0x3F7FECFC, 0x3AD0121B,
   0xBB854B99, 0x3BD25FA4, 0xBBE11C01, 0x3BA7A004, 0x3F7FF28A, 0x3A96744C, 0xBB4578A4, 0x3BA03FDF,
   0xBBB16A63, 0x3B8A3626, 0x3F7FF68B, 0x3A57E42F, 0xBB110D50, 0x3B71E4D5, 0xBB8A58DD, 0x3B60E0CE,
   0x3F7FF968, 0x3A19B066, 0xBAD3528D, 0x3B34E7A3, 0xBB558614, 0x3B349ACB, 0x3F7FFB6F, 0x39D91D2D,
   0xBA98A884, 0x3B06121A, 0xBB231809, 0x3B0F4269, 0x3F7FFCDD, 0x399829C8, 0xBA5ABC0F, 0x3AC4F0BE,
   0xBAF6A564, 0x3AE08F94, 0x3F7FFDDC, 0x3953A034, 0xBA1B69A6, 0x3A8F5B71, 0xBAB8A75C, 0x3AADF604]

/-- Piece 6 of `tableE`. -/
def tableEPart6 : List Nat :=
  [0x3F7FFE8D, 0x39120475, 0xB9DB06AF, 0x3A4EDBA6, 0xBA88E42E, 0x3A853DAB, 0x3F7FFF07, 0x38C7EE0E,
   0xB9991242, 0x3A13EE0E, 0xBA49017A, 0x3A49DA65, 0x3F7FFF5A, 0x3887CF0E, 0xB9543385, 0x39D1B9BF,
   0xBA122A28, 0x3A173F3B, 0x3F7FFF92, 0x383711B4, 0xB911E21B, 0x39935F80, 0xB9D28FDB, 0x39E0412A,
   0x3F7FFFB8, 0x37F4DAF4, 0xB8C6F1E7, 0x394D5245, 0xB9963EAF, 0x39A48527, 0x3F7FFFD1, 0x37A2790F,
   0xB8868C41, 0x390DCB27, 0xB9546BC3, 0x396EEB70, 0x3F7FFFE2, 0x3755F04F, 0xB83482C3, 0x38C22918,
   0xB914C7C7, 0x392BBABC, 0x3F7FFFEC, 0x370BC1E7, 0xB7F03546, 0x3883CBC6, 0xB8CE81CC, 0x38F4688A]

/-- Piece 7 of `tableE`. -/
def tableEPart7 : List Nat :=
  [0x3F7FFFF4, 0x36B52CB9, 0xB79E8722, 0x38316675, 0xB88E03B9, 0x38AC35D8, 0x3F7FFFF8, 0x366909CC,
   0xB74F8CBA, 0x37ECC15F, 0xB841907E, 0x387050E6, 0x3F7FFFFB, 0x3614B538, 0xB706C43B, 0x379CA590,
   0xB802BB05, 0x38260FF2, 0x3F7FFFFD, 0x35BC4FDC, 0xB6AD999E, 0x374D897F, 0xB7AF0349, 0x37E35039,
   0x3F7FFFFE, 0x356C9B8F, 0xB65DD1D6, 0x3705B53E, 0xB76837AC, 0x379A1B5E, 0x3F7FFFFF, 0x35137CF0,
   0xB60C9315, 0x36AC8060, 0xB718B36F, 0x374EFE62, 0x3F7FFFFF, 0x34B670D5, 0xB5B0BD4E, 0x365CAFD2,
   0xB6C70FE2, 0x3709B8B9, 0x3F800000, 0x345FEBAB, 0xB55C6BFC, 0x360BFC9F, 0xB6809D82, 0x36B5922F]

/-- E[j][k] of R178 at place 6 j + k: the k-th derivative of erf at j/16 over k factorial. -/
def tableE : List Nat := tableEPart0 ++ tableEPart1 ++ tableEPart2 ++ tableEPart3 ++ tableEPart4 ++ tableEPart5 ++ tableEPart6 ++ tableEPart7

/-- G1 to G6 of R178. -/
def tableG : List Nat :=
  [0xBEAAAAAB, 0x3E088889, 0xBD5D0DD1, 0x3CB327A4, 0xBC11371B, 0x3B6B69E8]

/-- C1 of R178. -/
def constC1 : BitVec 32 := 0x3F317218#32

/-- C2 of R178. -/
def constC2 : BitVec 32 := 0x3E75FDF0#32

/-- C3 of R178. -/
def constC3 : BitVec 32 := 0x3D635847#32

/-- D1 of R178. -/
def constD1 : BitVec 32 := 0x3FB8AA3B#32

/-- D2 of R178. -/
def constD2 : BitVec 32 := 0xBF38AA3B#32

/-- D3 of R178. -/
def constD3 : BitVec 32 := 0x3EF6384F#32

/-- D4 of R178. -/
def constD4 : BitVec 32 := 0xBEB8AA3B#32

/-- L2E of R178. -/
def constL2E : BitVec 32 := 0x3FB8AA3B#32

/-- K2 of R178. -/
def constK2 : BitVec 32 := 0x4038AA3B#32

/-- LN2 of R178. -/
def constLN2 : BitVec 32 := 0x3F317218#32

/-- S2 of R178. -/
def constS2 : BitVec 32 := 0x3F3504F3#32

/-- CE of R178. -/
def constCE : BitVec 32 := 0x3F906EBB#32

/-- CP of R178. -/
def constCP : BitVec 32 := 0x3ECC422A#32

end Sys2Proof.Machine
end

