-- ==== Sys2Proof/Machine/Functions.lean ====
section
/-!
DEFINITION. The function evaluator (spec/04_vector_functions_random.md R177 to R181, R184, R860, R861) and the counter-based
generator (R201 to R203). A function of a `V` name answers the exact value that its last binary32 operation rounds, so
that the report of R172 can be judged on that rounding alone.
-/
namespace Sys2Proof.Machine

/-- Entry `j` of a table of binary32 codes. -/
def tab (t : List Nat) (j : Nat) : F32 := BitVec.ofNat 32 (t.getD j 0)

def one32 : F32 := 0x3F800000#32
def half32 : F32 := 0x3F000000#32
def quarter32 : F32 := 0x3E800000#32

/-- floor(v * 2^k) of a finite value. -/
def floorScaled (v : Val) (k : Int) : Int :=
  match v with
  | .fin neg m e =>
    let t := e + k
    let s : Int := if neg then -(m : Int) else m
    if 0 ≤ t then s * (2 ^ t.toNat : Nat) else s / ((2 ^ (-t).toNat : Nat) : Int)
  | _ => 0

/-- frexp1 of R179: a finite non-zero value as m * 2^e with 1 ≤ m < 2; the mantissa keeps the sign. -/
def frexp1 (v : Val) : Val × Int :=
  match v with
  | .fin neg m e => (.fin neg m (-(Nat.log2 m : Int)), (Nat.log2 m : Int) + e)
  | w => (w, 0)

/-- The top `k` fraction bits of 1 ≤ m < 2 (frac6, frac7 of R179). -/
def fracTop (m : Val) (k : Nat) : Nat := ((floorScaled m (k : Int)) - (2 ^ k : Nat)).toNat

/-- copysign for values. -/
def withSignOf (s : Bool) (v : Val) : Val := if s then v.neg else v

/-- The value `m * 2^e` of a given sign. -/
def val32 (m : Nat) (e : Int) (neg : Bool) : Val := .fin neg m e

/-- R179 f_exp2 with the special arguments of R860. -/
def fExp2V (x : F32) : Val :=
  match dec32 x with
  | .nan => .nan
  | .inf neg => if neg then .zero else .inf false
  | .fin neg m e =>
    let v := Val.fin neg m e
    if m == 0 then .fin false 1 0
    else if !(v.lt (val32 128 0 false)) then .inf false
    else if v.lt (val32 150 0 true) then .zero
    else
      let n := floorScaled v 6
      let j := (n % 64).toNat
      let k := n / 64
      let r := rne32 (v.add (.fin (decide (0 < n)) n.natAbs (-6)))
      let p := f32fma constC3 r constC2
      let p := f32fma p r constC1
      let p := f32mul p r
      let t := tab tableT j
      let y := f32fma t p t
      (dec32 y).scale k

def fExp2 (x : F32) : F32 := rne32 (fExp2V x)

/-- R179 f_log2 with the special arguments of R860. -/
def fLog2V (x : F32) : Val :=
  match dec32 x with
  | .nan => .nan
  | .inf neg => if neg then .nan else .inf false
  | .fin neg m e =>
    if m == 0 then .inf true
    else if neg then .nan
    else
      let (mv, k) := frexp1 (.fin false m e)
      let j := fracTop mv 6
      let r := f32fma (rne32 mv) (tab tableR j) 0xBF800000#32
      let q := f32fma constD4 r constD3
      let q := f32fma q r constD2
      let q := f32fma q r constD1
      let q := f32mul q r
      let a := f32add (f32ofInt k) (tab tableL j)
      (dec32 a).add (dec32 q)

def fLog2 (x : F32) : F32 := rne32 (fLog2V x)

/-- One correction of R179 f_recip. -/
def recipStep (m y : F32) : F32 :=
  let d := f32fma (f32neg m) y one32
  f32fma y d y

/-- R179 f_recip with the special arguments of R860. -/
def fRecipV (x : F32) : Val :=
  match dec32 x with
  | .nan => .nan
  | .inf neg => .fin neg 0 0
  | .fin neg m e =>
    if m == 0 then .inf neg
    else
      let (mv, k) := frexp1 (.fin false m e)
      let mb := rne32 mv
      let y := recipStep mb (recipStep mb (tab tableP (fracTop mv 7)))
      withSignOf neg ((dec32 y).scale (-k))

def fRecip (x : F32) : F32 := rne32 (fRecipV x)

/-- One correction of R179 f_rsqrt. -/
def rsqrtStep (m y : F32) : F32 :=
  let h := f32mul y half32
  let t := f32mul y y
  let d := f32fma (f32neg m) t one32
  f32fma h d y

/-- R179 f_rsqrt with the special arguments of R860. -/
def fRsqrtV (x : F32) : Val :=
  match dec32 x with
  | .nan => .nan
  | .inf neg => if neg then .nan else .zero
  | .fin neg m e =>
    if m == 0 then .inf neg
    else if neg then .nan
    else
      let (m0, k0) := frexp1 (.fin false m e)
      let odd : Bool := k0 % 2 == 1
      let mv := if odd then m0.scale 1 else m0
      let k := if odd then k0 - 1 else k0
      let mb := rne32 mv
      let j := ((floorScaled mv 5) - 32).toNat
      let y := rsqrtStep mb (rsqrtStep mb (tab tableQ j))
      (dec32 y).scale (-(k / 2))

def fRsqrt (x : F32) : F32 := rne32 (fRsqrtV x)

/-- R179 f_erf with the special arguments of R860. -/
def fErfV (x : F32) : Val :=
  match dec32 x with
  | .nan => .nan
  | .inf neg => .fin neg 1 0
  | .fin neg m e =>
    if m == 0 then .fin neg 0 0
    else
      let a := Val.fin false m e
      if !(a.lt (val32 4 0 false)) then .fin neg 1 0
      else
        let n := floorScaled a 4
        let j := n.toNat
        let h := rne32 (a.add (.fin true j (-4)))
        let c := fun k => tab tableE (6 * j + k)
        let p := f32fma (c 5) h (c 4)
        let p := f32fma p h (c 3)
        let p := f32fma p h (c 2)
        let p := f32fma p h (c 1)
        withSignOf neg (((dec32 p).mul (dec32 h)).add (dec32 (c 0)))

def fErf (x : F32) : F32 := rne32 (fErfV x)

/-- R180 tanh of a finite non-zero argument. -/
def tanhSeqV (x : F32) : Val :=
  let a := f32abs x
  let s := (dec32 x).sign
  if !((dec32 a).lt (val32 9 0 false)) then .fin s 1 0
  else if (dec32 a).lt (dec32 quarter32) then
    let z := f32mul a a
    let g := tab tableG
    let p := f32fma (g 5) z (g 4)
    let p := f32fma p z (g 3)
    let p := f32fma p z (g 2)
    let p := f32fma p z (g 1)
    let p := f32fma p z (g 0)
    withSignOf s (((dec32 (f32mul a z)).mul (dec32 p)).add (dec32 a))
  else
    let ex := fExp2 (f32neg (f32mul a constK2))
    withSignOf s ((dec32 (f32sub one32 ex)).mul (dec32 (fRecip (f32add one32 ex))))

/-- R180 sigmoid of a finite non-zero argument. -/
def sigmoidSeqV (x : F32) : Val :=
  let ex := fExp2 (f32neg (f32mul (f32abs x) constL2E))
  let w := f32add one32 ex
  if (dec32 x).lt .zero then (dec32 ex).mul (dec32 (fRecip w)) else fRecipV w

/-- R180 softplus of a finite non-zero argument. -/
def softplusSeqV (x : F32) : Val :=
  let v := dec32 x
  if (val32 20 0 false).lt v then v
  else
    let u := f32mul x constL2E
    if v.lt (val32 17 0 true) then fExp2V u
    else
      let ex := fExp2 u
      let w := f32add one32 ex
      if w == one32 then fExp2V u
      else
        (dec32 (f32mul (fLog2 w) constLN2)).mul
          (dec32 (f32mul ex (fRecip (f32sub w one32))))

/-- R180 GELU of a finite non-zero argument. -/
def geluSeqV (x : F32) : Val :=
  (dec32 (f32mul x half32)).mul (dec32 (f32add one32 (fErf (f32mul x constS2))))

/-- R181 for exp2 and exp. -/
def expSpecial (v : Val) (seq : Val) : Val :=
  match v with
  | .nan => .nan
  | .inf neg => if neg then .zero else .inf false
  | .fin _ m _ => if m == 0 then .fin false 1 0 else seq

/-- R181 for tanh and erf. -/
def oddSpecial (v : Val) (seq : Val) : Val :=
  match v with
  | .nan => .nan
  | .inf neg => .fin neg 1 0
  | .fin neg m _ => if m == 0 then .fin neg 0 0 else seq

/-- R180, R181: FUNC, the exact value that the last operation of FN's sequence rounds. A reserved FN is exp2 (R165). -/
def funcV (fn : Nat) (x : F32) : Val :=
  let v := dec32 x
  match fn with
  | 1 => fLog2V x
  | 2 => fRecipV x
  | 3 => fRsqrtV x
  | 4 => oddSpecial v (tanhSeqV x)
  | 5 =>
    match v with
    | .nan => .nan
    | .inf neg => if neg then .zero else .fin false 1 0
    | .fin _ m _ => if m == 0 then .fin false 1 (-1) else sigmoidSeqV x
  | 6 => fErfV x
  | 7 =>
    match v with
    | .nan => .nan
    | .inf neg => if neg then .zero else .inf false
    | .fin _ m _ => if m == 0 then dec32 constLN2 else softplusSeqV x
  | 8 => expSpecial v (fExp2V (f32mul x constL2E))
  | 9 =>
    match v with
    | .nan => .nan
    | .inf neg => if neg then .fin true 0 0 else .inf false
    | .fin neg m _ => if m == 0 then .fin neg 0 0 else geluSeqV x
  | _ => fExp2V x

def func (fn : Nat) (x : F32) : F32 := rne32 (funcV fn x)

/-- R184: the closed form of f′, with y the re-evaluated function value. -/
def derivClosed (fn : Nat) (x y : F32) : F32 :=
  match fn with
  | 1 => f32mul (fRecip x) constL2E
  | 2 => f32neg (f32mul y y)
  | 3 => f32mul (f32mul (f32mul y y) y) (f32neg half32)
  | 4 => f32fma (f32neg y) y one32
  | 5 => f32mul y (f32sub one32 y)
  | 6 => f32mul constCE (fExp2 (f32mul (f32neg (f32mul x x)) constL2E))
  | 7 => func 5 x
  | 8 => y
  | 9 =>
    let phi := f32mul constCP (fExp2 (f32mul (f32mul (f32neg half32) (f32mul x x)) constL2E))
    let big := f32mul half32 (f32add one32 (fErf (f32mul x constS2)))
    f32fma x phi big
  | _ => f32mul y constLN2

/-- R861: f′ of FN at a. -/
def derivFactor (fn : Nat) (x : F32) : F32 :=
  let y := func fn x
  match dec32 x with
  | .nan => nan32
  | .inf neg =>
    if (fn == 1 || fn == 3) && neg then nan32
    else if fn == 9 then (if neg then 0#32 else one32)
    else derivClosed fn x y
  | .fin neg m _ =>
    if (fn == 1 || fn == 3) && neg && m != 0 then nan32
    else derivClosed fn x y

/-- R184, R861: DERIV, f′ × b before its one rounding. -/
def derivV (fn : Nat) (x b : F32) : Val := (dec32 (derivFactor fn x)).mul (dec32 b)

/-- R182: the evaluator slots of FUNC. -/
def funcSlots (fn : Nat) : Nat :=
  match fn with
  | 4 => 2
  | 5 => 2
  | 7 => 3
  | _ => 1

/-- R184: the evaluator slots of DERIV. -/
def derivSlots (fn : Nat) : Nat :=
  match fn with
  | 4 => 2
  | 5 => 2
  | 7 => 2
  | 9 => 2
  | _ => 1

/-! ## The generator (R201 to R203) -/

/-- The low and high words of a 32 by 32 bit product. -/
def mulHiLo (a b : BitVec 32) : BitVec 32 × BitVec 32 :=
  let p := a.toNat * b.toNat
  (BitVec.ofNat 32 (p / 2 ^ 32), BitVec.ofNat 32 p)

/-- Four 32-bit words. -/
structure Quad where
  w0 : BitVec 32
  w1 : BitVec 32
  w2 : BitVec 32
  w3 : BitVec 32
  deriving DecidableEq, Repr

/-- One round of Philox4x32. -/
def philoxRound (k0 k1 : BitVec 32) (c : Quad) : Quad :=
  let (h0, l0) := mulHiLo 0xD2511F53#32 c.w0
  let (h1, l1) := mulHiLo 0xCD9E8D57#32 c.w2
  ⟨h1 ^^^ c.w1 ^^^ k0, l1, h0 ^^^ c.w3 ^^^ k1, l0⟩

/-- `n` rounds, the key advanced after each. -/
def philoxRounds : Nat → BitVec 32 → BitVec 32 → Quad → Quad
  | 0, _, _, c => c
  | n + 1, k0, k1, c =>
    philoxRounds n (k0 + 0x9E3779B9#32) (k1 + 0xBB67AE85#32) (philoxRound k0 k1 c)

/-- R201: ten rounds. -/
def philox (k0 k1 : BitVec 32) (c : Quad) : Quad := philoxRounds 10 k0 k1 c

/-- R201: the output as one number, word 0 lowest. -/
def Quad.toNat (q : Quad) : Nat :=
  q.w0.toNat + 2 ^ 32 * (q.w1.toNat + 2 ^ 32 * (q.w2.toNat + 2 ^ 32 * q.w3.toNat))

/-- What a draw depends on beside its index (R202, R203). -/
structure GenKey where
  seed : Nat
  stream : Nat
  tensor : Nat
  revolution : Nat
  deriving DecidableEq, Repr

/-- R202, R203: the generator's output for index `idx`. -/
def draw (g : GenKey) (idx : Nat) : Nat :=
  let k := philox (BitVec.ofNat 32 g.seed) (BitVec.ofNat 32 (g.seed / 2 ^ 32))
    ⟨BitVec.ofNat 32 g.stream, 0#32, 0#32, 0#32⟩
  (philox k.w0 k.w1
    ⟨BitVec.ofNat 32 idx, BitVec.ofNat 32 (idx / 2 ^ 32 % 2 ^ 16), BitVec.ofNat 32 g.tensor,
     BitVec.ofNat 32 g.revolution⟩).toNat

/-- R96, R204: the 16 bits of element `i`. -/
def draw16 (g : GenKey) (i : Nat) : Nat := draw g (i / 8) / 2 ^ (16 * (i % 8)) % 2 ^ 16

/-- R205: the 32 bits of element `i`. -/
def draw32 (g : GenKey) (i : Nat) : Nat := draw g (i / 4) / 2 ^ (32 * (i % 4)) % 2 ^ 32

end Sys2Proof.Machine
end

