-- ==== Sys2Proof/Machine/RegMap.lean ====
section
/-!
DEFINITION. The register map of the package: every register the spec's chapters list (spec/03 R159, 04 R176 R207, 05 R261,
06 R306, 07 R367, 08 R411, 09 R463, 10 R509, 11 R568, 12 R629, 13 R666, 14 R686 R708, 16 R786, 17 R822, 18 R843), the block
each lies in, its offset, how many there are and how far apart.
-/
namespace Sys2Proof.Machine

/-- The kinds of configuration block (R269 and the register rules of each chapter). -/
inductive Block where
  | eng | clu | gal | hbmc | arb | rst | pool | pwr | coll | ctr | beam | uci | link | win | host | sec
  deriving DecidableEq, Repr

/-- Every register of the package, by the manual's name. -/
inductive Reg where
  | engArrayCfg
  | engRampProf
  | engArrayStatus
  | engArrayIssueCnt
  | engArrayFrontStallCnt
  | engArrayRampWaitCnt
  | engArrayRampCnt
  | engTileOverrunCnt
  | engVecIssueCnt
  | engFuncResultCnt
  | engSkipDecideCnt
  | engSkipBlockCnt
  | engSkipReplayCnt
  | engSkipRowReplayCnt
  | engRngOutputCnt
  | engLensConflictCnt
  | engLensParityCnt
  | engLensCrcCnt
  | engLensParityLog
  | engTaskState
  | engTaskSwitchCnt
  | engSlotInWaitCnt
  | engSlotOutWaitCnt
  | engClkCyc
  | engBusyCyc
  | engIdleCyc
  | engMacCnt
  | engConvCnt
  | engVopCnt
  | cluMemSlotCnt
  | cluMemParityCnt
  | cluMemParityLog
  | cluLineCrcCnt
  | cluLineRefetchCnt
  | cluParityRerunCnt
  | cluRecompChainCnt
  | cluCkptRegenCnt
  | cluCkptRegenFailCnt
  | cluPredCommitCnt
  | cluChainLaunchCnt
  | cluChainEndCnt
  | cluChainStallCnt
  | cluSlotTimeoutCnt
  | cluTokenViolCnt
  | cluHeadHoldCyc
  | cluRunaheadMissCnt
  | cluExtentMaskCnt
  | cluBubbleLaunchCnt
  | cluDescClampCnt
  | cluGatherReqCnt
  | cluChainLog
  | cluSlotTokens
  | galCfg
  | galBankCap
  | galRepairCmd
  | galRepairStatus
  | galRowErrLog
  | galBankState
  | galSlotCnt
  | galParityCnt
  | galParityRefetchCnt
  | galCapHoldCnt
  | galLineCrcCnt
  | galRepairLogBadCnt
  | galOwnerWeight
  | galSlotTokens
  | galFlagEntry
  | hbmcCeCnt
  | hbmcUeCnt
  | hbmcPoisonMarkCnt
  | hbmcSevUeCnt
  | hbmcWritebackCnt
  | hbmcPartialWrCnt
  | hbmcBankHoldCnt
  | hbmcEcsCnt
  | hbmcCalForcedCnt
  | hbmcErrLog
  | hbmcScrubLo
  | hbmcScrubHi
  | hbmcScrubRec
  | hbmcScrubCmd
  | hbmcMaintReq
  | hbmcMaintEntry
  | poolMoveCmd
  | poolMoveAddr
  | poolMoveStatus
  | poolStallCyc
  | poolEvictCnt
  | poolWritebackCnt
  | poolMoveCancelCnt
  | poolRebuildCnt
  | poolRebuildFailCnt
  | poolQuarantineCnt
  | poolStreamLateCnt
  | poolPinRefusedCnt
  | poolFloorCutCnt
  | poolOwnerUse
  | poolDmStatus
  | poolDmRestoreCmd
  | poolDmRestoreAddr
  | poolDmRestoreStatus
  | poolDmPagesCnt
  | poolDmFirstTouchCnt
  | poolDmPoisonPageCnt
  | poolDmAbandonCnt
  | poolDmRestorePageCnt
  | poolXlatRoot
  | poolXlatInv
  | poolXlatInvStatus
  | poolXlatBadCnt
  | poolXlatRefusedCnt
  | fabVcCredits
  | fabStatus
  | fabDelay
  | fabTxFlitCnt
  | fabRxFlitCnt
  | fabResentCnt
  | fabNakCnt
  | fabCrcFailCnt
  | fabFecCorrCnt
  | fabFecUncorrCnt
  | fabRecoveryCnt
  | fabRetryFullCyc
  | fabCtrlDropCnt
  | fabBadMsgCnt
  | fabCreditWaitCyc
  | winCmd
  | winAcceptCnt
  | winRefusedCnt
  | winTornCnt
  | winLateRespCnt
  | winCmdIgnoredCnt
  | winRingWaitCyc
  | winRelineCnt
  | winEntryW0
  | winEntryW1
  | winEntryW2
  | winEntryW3
  | collOpCnt
  | collPieceTxCnt
  | collPieceRxCnt
  | collNonfiniteCnt
  | collGenMismatchCnt
  | collStaleCnt
  | collAbortCnt
  | collPeerLostCnt
  | collRingDrainCnt
  | collRouteDropCnt
  | collPeerWaitCyc
  | collNfSeen
  | collNfGate
  | collMemberGenSet
  | collGroupW0
  | collGroupW1
  | collGroupW2
  | collGroupW3
  | collRoute
  | beamNow
  | beamStatus
  | beamTable
  | beamAbortCmd
  | beamTokenCmd
  | beamLaunchCnt
  | beamLateCnt
  | beamQuietDeferCnt
  | beamDeadlineMissCnt
  | beamPreemptCnt
  | beamPreemptCyc
  | beamCringFullCnt
  | beamAbortIgnoredCnt
  | beamMarkRxCnt
  | beamForeignCnt
  | beamStepCnt
  | beamHoldoverCnt
  | beamRecClampCnt
  | beamCringBase
  | beamCringIdx
  | beamRecState
  | beamTokens
  | uciStatus
  | uciCrcRetryCnt
  | uciRetrainCnt
  | uciBadTxnCnt
  | uciLineCrcCnt
  | rstCause
  | rstBlockCmd
  | rstBlockStatus
  | rstBlockCnt
  | rstBlockTimeoutCnt
  | rstBlockIgnoredCnt
  | rstCritLog
  | rstCritCnt
  | pwrStatus
  | pwrThrottleCyc
  | pwrDroopCnt
  | pwrThermCnt
  | ctrTraceCfg
  | ctrTraceBase
  | ctrTraceIdx
  | ctrSnapBase
  | ctrTraceMask
  | ctrBusySum
  | ctrIdleSum
  | ctrPeerLinkCyc
  | ctrStackSectorCnt
  | ctrTraceLostCnt
  | ctrTraceSinkErrCnt
  | ctrTraceRecCnt
  | keepBootStatus
  | keepBootCmd
  | keepHostCfg
  | keepHostwin
  | keepCringIrq
  | keepSwIrq
  | keepHcmdBase
  | keepHcmdIdx
  | keepHrspBase
  | keepHrspIdx
  | keepAperture
  | keepApertureErrCnt
  | keepHostMergeCnt
  | keepHostCfgDropCnt
  | keepHostwinErrCnt
  | keepSramCeCnt
  | keepSramUeCnt
  | secStatus
  | secLmsState
  | secVerifyLog
  deriving DecidableEq, Repr

/-- What the map states of a register: its block, offset, count and stride in bytes, and the bits of each field type
(R22; bits of no type are reserved or RO and read as they stand). `wo` bits always read zero. -/
structure RegInfo where
  block : Block
  offset : Nat
  count : Nat
  stride : Nat
  rw : Nat := 0
  rw1c : Nat := 0
  rwl : Nat := 0
  wo : Nat := 0
  reset : Nat := 0
  deriving DecidableEq, Repr

/-- A field of a register: its lowest bit and its width. -/
structure Field where
  reg : Reg
  lo : Nat
  width : Nat
  deriving DecidableEq, Repr

end Sys2Proof.Machine
end

