-- ==== Sys2Proof/Machine/Regs.lean ====
section
/-!
DEFINITION. The tables of the register map (`Machine/RegMap.lean`): one arm per register with its offset, count, stride, the
masks of its writable bits by type (R22) and its reset value, and one name per field.
-/
namespace Sys2Proof.Machine

/-- A 64-bit COUNT register (RO/V, reset 0; R160). -/
def counterInfo (b : Block) (off count stride : Nat) : RegInfo := { block := b, offset := off, count := count, stride := stride }

/-- The register map. -/
def regInfo (r : Reg) : RegInfo :=
  match r with
  | .engArrayCfg =>
    { block := .eng, offset := 0x400, count := 1, stride := 8, rwl := 0x80000000000000FF, reset := 0x10 }
  | .engRampProf =>
    { block := .eng, offset := 0x408, count := 4, stride := 8, rwl := 0x3FF }
  | .engArrayStatus =>
    { block := .eng, offset := 0x440, count := 1, stride := 8 }
  | .engArrayIssueCnt => counterInfo .eng 0x480 1 8
  | .engArrayFrontStallCnt => counterInfo .eng 0x488 1 8
  | .engArrayRampWaitCnt => counterInfo .eng 0x490 1 8
  | .engArrayRampCnt => counterInfo .eng 0x498 1 8
  | .engTileOverrunCnt => counterInfo .eng 0x4A0 1 8
  | .engVecIssueCnt => counterInfo .eng 0x680 1 8
  | .engFuncResultCnt => counterInfo .eng 0x688 1 8
  | .engSkipDecideCnt => counterInfo .eng 0x690 1 8
  | .engSkipBlockCnt => counterInfo .eng 0x698 1 8
  | .engSkipReplayCnt => counterInfo .eng 0x6A0 1 8
  | .engSkipRowReplayCnt => counterInfo .eng 0x6A8 1 8
  | .engRngOutputCnt => counterInfo .eng 0x6B0 1 8
  | .engLensConflictCnt => counterInfo .eng 0x800 1 8
  | .engLensParityCnt => counterInfo .eng 0x808 1 8
  | .engLensCrcCnt => counterInfo .eng 0x810 1 8
  | .engLensParityLog =>
    { block := .eng, offset := 0x818, count := 1, stride := 8, rw1c := 0xC0000000 }
  | .engTaskState =>
    { block := .eng, offset := 0x900, count := 4, stride := 8 }
  | .engTaskSwitchCnt => counterInfo .eng 0x920 1 8
  | .engSlotInWaitCnt => counterInfo .eng 0x928 1 8
  | .engSlotOutWaitCnt => counterInfo .eng 0x930 1 8
  | .engClkCyc => counterInfo .eng 0xA00 1 8
  | .engBusyCyc => counterInfo .eng 0xA08 1 8
  | .engIdleCyc => counterInfo .eng 0xA10 7 8
  | .engMacCnt => counterInfo .eng 0xB00 16 8
  | .engConvCnt => counterInfo .eng 0xB80 16 8
  | .engVopCnt => counterInfo .eng 0xC00 64 8
  | .cluMemSlotCnt => counterInfo .clu 0x200 8 8
  | .cluMemParityCnt => counterInfo .clu 0x280 1 8
  | .cluMemParityLog =>
    { block := .clu, offset := 0x288, count := 1, stride := 8, rw1c := 0xC0000000 }
  | .cluLineCrcCnt => counterInfo .clu 0x290 1 8
  | .cluLineRefetchCnt => counterInfo .clu 0x298 1 8
  | .cluParityRerunCnt => counterInfo .clu 0x2A0 1 8
  | .cluRecompChainCnt => counterInfo .clu 0xC00 1 8
  | .cluCkptRegenCnt => counterInfo .clu 0xC08 1 8
  | .cluCkptRegenFailCnt => counterInfo .clu 0xC10 1 8
  | .cluPredCommitCnt => counterInfo .clu 0xC18 1 8
  | .cluChainLaunchCnt => counterInfo .clu 0xD00 1 8
  | .cluChainEndCnt => counterInfo .clu 0xD08 1 8
  | .cluChainStallCnt => counterInfo .clu 0xD10 1 8
  | .cluSlotTimeoutCnt => counterInfo .clu 0xD18 1 8
  | .cluTokenViolCnt => counterInfo .clu 0xD20 1 8
  | .cluHeadHoldCyc => counterInfo .clu 0xD28 1 8
  | .cluRunaheadMissCnt => counterInfo .clu 0xD30 1 8
  | .cluExtentMaskCnt => counterInfo .clu 0xD38 1 8
  | .cluBubbleLaunchCnt => counterInfo .clu 0xD40 1 8
  | .cluDescClampCnt => counterInfo .clu 0xD48 1 8
  | .cluGatherReqCnt => counterInfo .clu 0xD50 1 8
  | .cluChainLog =>
    { block := .clu, offset := 0xD80, count := 1, stride := 8, rw1c := 0xC000000000000000 }
  | .cluSlotTokens =>
    { block := .clu, offset := 0xE00, count := 8, stride := 8 }
  | .galCfg =>
    { block := .gal, offset := 0x0, count := 1, stride := 8, rwl := 0x8000000000000001, reset := 0x1 }
  | .galBankCap =>
    { block := .gal, offset := 0x8, count := 1, stride := 8, rwl := 0x1F, reset := 0x4 }
  | .galRepairCmd =>
    { block := .gal, offset := 0x100, count := 1, stride := 8, rw := 0x3FFFF, wo := 0x8000000000000000 }
  | .galRepairStatus =>
    { block := .gal, offset := 0x108, count := 1, stride := 8 }
  | .galRowErrLog =>
    { block := .gal, offset := 0x110, count := 1, stride := 8, rw1c := 0xC0000000 }
  | .galBankState =>
    { block := .gal, offset := 0x200, count := 64, stride := 8, reset := 0x20 }
  | .galSlotCnt => counterInfo .gal 0x400 1 8
  | .galParityCnt => counterInfo .gal 0x408 1 8
  | .galParityRefetchCnt => counterInfo .gal 0x410 1 8
  | .galCapHoldCnt => counterInfo .gal 0x418 1 8
  | .galLineCrcCnt => counterInfo .gal 0x420 1 8
  | .galRepairLogBadCnt => counterInfo .gal 0x428 1 8
  | .galOwnerWeight =>
    { block := .gal, offset := 0x1000, count := 64, stride := 8, rwl := 0xFF, reset := 0x10 }
  | .galSlotTokens =>
    { block := .gal, offset := 0x2000, count := 128, stride := 8 }
  | .galFlagEntry =>
    { block := .gal, offset := 0x8000, count := 4096, stride := 8, rw1c := 0x7 }
  | .hbmcCeCnt => counterInfo .hbmc 0x0 1 8
  | .hbmcUeCnt => counterInfo .hbmc 0x8 1 8
  | .hbmcPoisonMarkCnt => counterInfo .hbmc 0x10 1 8
  | .hbmcSevUeCnt => counterInfo .hbmc 0x18 1 8
  | .hbmcWritebackCnt => counterInfo .hbmc 0x20 1 8
  | .hbmcPartialWrCnt => counterInfo .hbmc 0x28 1 8
  | .hbmcBankHoldCnt => counterInfo .hbmc 0x30 1 8
  | .hbmcEcsCnt => counterInfo .hbmc 0x38 1 8
  | .hbmcCalForcedCnt => counterInfo .hbmc 0x40 1 8
  | .hbmcErrLog =>
    { block := .hbmc, offset := 0x100, count := 1, stride := 8, rw1c := 0xC000000000000000 }
  | .hbmcScrubLo =>
    { block := .arb, offset := 0x0, count := 1, stride := 8, rw := 0xFFFFFFFFFFE0 }
  | .hbmcScrubHi =>
    { block := .arb, offset := 0x8, count := 1, stride := 8, rw := 0xFFFFFFFFFFE0 }
  | .hbmcScrubRec =>
    { block := .arb, offset := 0x10, count := 1, stride := 8, rw := 0xFFFFFFFFFFC0 }
  | .hbmcScrubCmd =>
    { block := .arb, offset := 0x18, count := 1, stride := 8, rw := 0xFFF5, wo := 0x8000000000000000 }
  | .hbmcMaintReq =>
    { block := .arb, offset := 0x20, count := 1, stride := 8, rw := 0x1FF, wo := 0x8000000000000000 }
  | .hbmcMaintEntry =>
    { block := .arb, offset := 0x100, count := 32, stride := 8 }
  | .poolMoveCmd =>
    { block := .pool, offset := 0x0, count := 1, stride := 8, rw := 0x3FF, wo := 0x8000000000000000 }
  | .poolMoveAddr =>
    { block := .pool, offset := 0x8, count := 1, stride := 8, rw := 0xFFFFFFFF0000 }
  | .poolMoveStatus =>
    { block := .pool, offset := 0x10, count := 1, stride := 8 }
  | .poolStallCyc => counterInfo .pool 0x100 24 8
  | .poolEvictCnt => counterInfo .pool 0x200 1 8
  | .poolWritebackCnt => counterInfo .pool 0x208 1 8
  | .poolMoveCancelCnt => counterInfo .pool 0x210 1 8
  | .poolRebuildCnt => counterInfo .pool 0x218 1 8
  | .poolRebuildFailCnt => counterInfo .pool 0x220 1 8
  | .poolQuarantineCnt => counterInfo .pool 0x228 1 8
  | .poolStreamLateCnt => counterInfo .pool 0x230 1 8
  | .poolPinRefusedCnt => counterInfo .pool 0x238 1 8
  | .poolFloorCutCnt => counterInfo .pool 0x240 1 8
  | .poolOwnerUse =>
    { block := .pool, offset := 0x1000, count := 64, stride := 8 }
  | .poolDmStatus =>
    { block := .pool, offset := 0x2000, count := 1, stride := 8 }
  | .poolDmRestoreCmd =>
    { block := .pool, offset := 0x2008, count := 1, stride := 8, rw := 0x3F, wo := 0x8000000000000000 }
  | .poolDmRestoreAddr =>
    { block := .pool, offset := 0x2010, count := 1, stride := 8, rw := 0xFFFFFFFF0000 }
  | .poolDmRestoreStatus =>
    { block := .pool, offset := 0x2018, count := 1, stride := 8 }
  | .poolDmPagesCnt => counterInfo .pool 0x2100 1 8
  | .poolDmFirstTouchCnt => counterInfo .pool 0x2108 1 8
  | .poolDmPoisonPageCnt => counterInfo .pool 0x2110 1 8
  | .poolDmAbandonCnt => counterInfo .pool 0x2118 1 8
  | .poolDmRestorePageCnt => counterInfo .pool 0x2120 1 8
  | .poolXlatRoot =>
    { block := .pool, offset := 0x3000, count := 64, stride := 8, rw := 0xFFFFFFFFE001 }
  | .poolXlatInv =>
    { block := .pool, offset := 0x3400, count := 1, stride := 8, rw := 0xFFFFFFFF00FF, wo := 0x8000000000000000 }
  | .poolXlatInvStatus =>
    { block := .pool, offset := 0x3408, count := 1, stride := 8 }
  | .poolXlatBadCnt => counterInfo .pool 0x3410 1 8
  | .poolXlatRefusedCnt => counterInfo .pool 0x3418 1 8
  | .fabVcCredits =>
    { block := .link, offset := 0x0, count := 1, stride := 8, rw := 0x3FF03FF03FF03FF, reset := 0x4001C001000100 }
  | .fabStatus =>
    { block := .link, offset := 0x8, count := 1, stride := 8, reset := 0x1 }
  | .fabDelay =>
    { block := .link, offset := 0x10, count := 1, stride := 8 }
  | .fabTxFlitCnt => counterInfo .link 0x100 1 8
  | .fabRxFlitCnt => counterInfo .link 0x108 1 8
  | .fabResentCnt => counterInfo .link 0x110 1 8
  | .fabNakCnt => counterInfo .link 0x118 1 8
  | .fabCrcFailCnt => counterInfo .link 0x120 1 8
  | .fabFecCorrCnt => counterInfo .link 0x128 1 8
  | .fabFecUncorrCnt => counterInfo .link 0x130 1 8
  | .fabRecoveryCnt => counterInfo .link 0x138 1 8
  | .fabRetryFullCyc => counterInfo .link 0x140 1 8
  | .fabCtrlDropCnt => counterInfo .link 0x148 1 8
  | .fabBadMsgCnt => counterInfo .link 0x150 1 8
  | .fabCreditWaitCyc => counterInfo .link 0x180 4 8
  | .winCmd =>
    { block := .win, offset := 0x0, count := 1, stride := 8, rw := 0x3FF, wo := 0x8000000000000000 }
  | .winAcceptCnt => counterInfo .win 0x100 1 8
  | .winRefusedCnt => counterInfo .win 0x108 1 8
  | .winTornCnt => counterInfo .win 0x110 1 8
  | .winLateRespCnt => counterInfo .win 0x118 1 8
  | .winCmdIgnoredCnt => counterInfo .win 0x120 1 8
  | .winRingWaitCyc => counterInfo .win 0x128 1 8
  | .winRelineCnt => counterInfo .win 0x130 1 8
  | .winEntryW0 =>
    { block := .win, offset := 0x1000, count := 512, stride := 32, rw := 0xFFFFFFFFFFFF }
  | .winEntryW1 =>
    { block := .win, offset := 0x1008, count := 512, stride := 32, rw := 0x3FFFFFFFFFF }
  | .winEntryW2 =>
    { block := .win, offset := 0x1010, count := 512, stride := 32, rw := 0x1FFFFFFFF }
  | .winEntryW3 =>
    { block := .win, offset := 0x1018, count := 512, stride := 32, rw := 0x1FFFFFFFFFFFFFC0 }
  | .collOpCnt => counterInfo .coll 0x100 1 8
  | .collPieceTxCnt => counterInfo .coll 0x108 1 8
  | .collPieceRxCnt => counterInfo .coll 0x110 1 8
  | .collNonfiniteCnt => counterInfo .coll 0x118 1 8
  | .collGenMismatchCnt => counterInfo .coll 0x120 1 8
  | .collStaleCnt => counterInfo .coll 0x128 1 8
  | .collAbortCnt => counterInfo .coll 0x130 1 8
  | .collPeerLostCnt => counterInfo .coll 0x138 1 8
  | .collRingDrainCnt => counterInfo .coll 0x140 1 8
  | .collRouteDropCnt => counterInfo .coll 0x148 1 8
  | .collPeerWaitCyc => counterInfo .coll 0x180 9 8
  | .collNfSeen =>
    { block := .coll, offset := 0x200, count := 1, stride := 8, rw1c := 0xFFFFFFFFFFFFFFFF }
  | .collNfGate =>
    { block := .coll, offset := 0x208, count := 1, stride := 8, rw1c := 0xFFFFFFFFFFFFFFFF }
  | .collMemberGenSet =>
    { block := .coll, offset := 0x210, count := 1, stride := 8, rw := 0xFFFF00FF, wo := 0x8000000000000000 }
  | .collGroupW0 =>
    { block := .coll, offset := 0x1000, count := 256, stride := 32, rw := 0xFFFFFFF }
  | .collGroupW1 =>
    { block := .coll, offset := 0x1008, count := 256, stride := 32, rw := 0x1FFFFFFF1FFF }
  | .collGroupW2 =>
    { block := .coll, offset := 0x1010, count := 256, stride := 32, rw := 0xFFFFFFFFFFFF }
  | .collGroupW3 =>
    { block := .coll, offset := 0x1018, count := 256, stride := 32 }
  | .collRoute =>
    { block := .coll, offset := 0x4000, count := 1024, stride := 8, rw := 0x1FF01FF01FF01FF }
  | .beamNow =>
    { block := .beam, offset := 0x0, count := 1, stride := 8 }
  | .beamStatus =>
    { block := .beam, offset := 0x8, count := 1, stride := 8 }
  | .beamTable =>
    { block := .beam, offset := 0x10, count := 1, stride := 8, rwl := 0x803FFFFFFFFC0000 }
  | .beamAbortCmd =>
    { block := .beam, offset := 0x18, count := 1, stride := 8, rw := 0x7FFFF, wo := 0x8000000000000000 }
  | .beamTokenCmd =>
    { block := .beam, offset := 0x20, count := 1, stride := 8, rw := 0x1FFF, wo := 0x8000000000000000 }
  | .beamLaunchCnt => counterInfo .beam 0x100 1 8
  | .beamLateCnt => counterInfo .beam 0x108 1 8
  | .beamQuietDeferCnt => counterInfo .beam 0x110 1 8
  | .beamDeadlineMissCnt => counterInfo .beam 0x118 1 8
  | .beamPreemptCnt => counterInfo .beam 0x120 1 8
  | .beamPreemptCyc => counterInfo .beam 0x128 1 8
  | .beamCringFullCnt => counterInfo .beam 0x130 1 8
  | .beamAbortIgnoredCnt => counterInfo .beam 0x138 1 8
  | .beamMarkRxCnt => counterInfo .beam 0x140 1 8
  | .beamForeignCnt => counterInfo .beam 0x148 1 8
  | .beamStepCnt => counterInfo .beam 0x150 1 8
  | .beamHoldoverCnt => counterInfo .beam 0x158 1 8
  | .beamRecClampCnt => counterInfo .beam 0x160 1 8
  | .beamCringBase =>
    { block := .beam, offset := 0x400, count := 64, stride := 8, rw := 0x1FFFFFFFFFFFE0 }
  | .beamCringIdx =>
    { block := .beam, offset := 0x600, count := 64, stride := 8, rw := 0xFFFFFFFF00000000 }
  | .beamRecState =>
    { block := .beam, offset := 0x1000, count := 256, stride := 8 }
  | .beamTokens =>
    { block := .beam, offset := 0x1800, count := 64, stride := 8 }
  | .uciStatus =>
    { block := .uci, offset := 0x0, count := 1, stride := 8 }
  | .uciCrcRetryCnt => counterInfo .uci 0x100 1 8
  | .uciRetrainCnt => counterInfo .uci 0x108 1 8
  | .uciBadTxnCnt => counterInfo .uci 0x110 1 8
  | .uciLineCrcCnt => counterInfo .uci 0x118 1 8
  | .rstCause =>
    { block := .rst, offset := 0x0, count := 1, stride := 8 }
  | .rstBlockCmd =>
    { block := .rst, offset := 0x8, count := 1, stride := 8, rw := 0x3F, wo := 0x8000000000000000 }
  | .rstBlockStatus =>
    { block := .rst, offset := 0x10, count := 1, stride := 8 }
  | .rstBlockCnt => counterInfo .rst 0x20 1 8
  | .rstBlockTimeoutCnt => counterInfo .rst 0x28 1 8
  | .rstBlockIgnoredCnt => counterInfo .rst 0x30 1 8
  | .rstCritLog =>
    { block := .rst, offset := 0x100, count := 1, stride := 8, rw1c := 0xC000000000000000 }
  | .rstCritCnt => counterInfo .rst 0x108 1 8
  | .pwrStatus =>
    { block := .pwr, offset := 0x0, count := 1, stride := 8 }
  | .pwrThrottleCyc => counterInfo .pwr 0x100 1 8
  | .pwrDroopCnt => counterInfo .pwr 0x108 1 8
  | .pwrThermCnt => counterInfo .pwr 0x110 1 8
  | .ctrTraceCfg =>
    { block := .ctr, offset := 0x0, count := 1, stride := 8, rw := 0x1FFFFFFFF, reset := 0x100080 }
  | .ctrTraceBase =>
    { block := .ctr, offset := 0x8, count := 1, stride := 8, rw := 0x1FFFFFFFFFF000 }
  | .ctrTraceIdx =>
    { block := .ctr, offset := 0x10, count := 1, stride := 8, rw := 0xFFFFFFFF00000000 }
  | .ctrSnapBase =>
    { block := .ctr, offset := 0x18, count := 1, stride := 8, rw := 0x1FFFFFFFFFF000 }
  | .ctrTraceMask =>
    { block := .ctr, offset := 0x20, count := 1, stride := 8, rw := 0xFFFFFFFFFFFFFFFF, reset := 0xFFFFFFFFFFFFFFFF }
  | .ctrBusySum => counterInfo .ctr 0x100 1 8
  | .ctrIdleSum => counterInfo .ctr 0x108 7 8
  | .ctrPeerLinkCyc => counterInfo .ctr 0x180 9 8
  | .ctrStackSectorCnt => counterInfo .ctr 0x200 4 8
  | .ctrTraceLostCnt => counterInfo .ctr 0x240 1 8
  | .ctrTraceSinkErrCnt => counterInfo .ctr 0x248 1 8
  | .ctrTraceRecCnt => counterInfo .ctr 0x250 1 8
  | .keepBootStatus =>
    { block := .host, offset := 0x0, count := 1, stride := 8, reset := 0x1 }
  | .keepBootCmd =>
    { block := .host, offset := 0x8, count := 1, stride := 8, rw := 0x1FFFFFF, wo := 0x8000000000000000 }
  | .keepHostCfg =>
    { block := .host, offset := 0x10, count := 1, stride := 8, rw := 0x1 }
  | .keepHostwin =>
    { block := .host, offset := 0x18, count := 1, stride := 8, rw := 0xFFFFFFFFFFFFF001 }
  | .keepCringIrq =>
    { block := .host, offset := 0x20, count := 1, stride := 8, rw := 0xFFFFFFFFFFFFFFFF }
  | .keepSwIrq =>
    { block := .host, offset := 0x28, count := 1, stride := 8, wo := 0x7FF }
  | .keepHcmdBase =>
    { block := .host, offset := 0x30, count := 1, stride := 8, rw := 0x1FFFFFFFFFFFC0 }
  | .keepHcmdIdx =>
    { block := .host, offset := 0x38, count := 1, stride := 8, rw := 0xFFFFFFFF }
  | .keepHrspBase =>
    { block := .host, offset := 0x40, count := 1, stride := 8, rw := 0x1FFFFFFFFFFFC0 }
  | .keepHrspIdx =>
    { block := .host, offset := 0x48, count := 1, stride := 8, rw := 0xFFFFFFFF00000000 }
  | .keepAperture =>
    { block := .host, offset := 0x100, count := 16, stride := 8, rw := 0xFFFF00000001 }
  | .keepApertureErrCnt => counterInfo .host 0x200 1 8
  | .keepHostMergeCnt => counterInfo .host 0x208 1 8
  | .keepHostCfgDropCnt => counterInfo .host 0x210 1 8
  | .keepHostwinErrCnt => counterInfo .host 0x218 1 8
  | .keepSramCeCnt => counterInfo .host 0x220 1 8
  | .keepSramUeCnt => counterInfo .host 0x228 1 8
  | .secStatus =>
    { block := .sec, offset := 0x0, count := 1, stride := 8 }
  | .secLmsState =>
    { block := .sec, offset := 0x8, count := 1, stride := 8 }
  | .secVerifyLog =>
    { block := .sec, offset := 0x10, count := 1, stride := 8 }

/-- R159: ENG_RAMP_PROF0 to ENG_RAMP_PROF3 have a reset value each. -/
def rampProfReset (i : Nat) : Nat :=
  match i with
  | 0 => 32 + 256 * 3
  | 1 => 8 + 256 * 1
  | 2 => 64 + 256 * 3
  | _ => 128 + 256 * 3

/-- The reset value of register `r`, index `i`. -/
def regReset (r : Reg) (i : Nat) : Word :=
  match r with
  | .engRampProf => BitVec.ofNat 64 (rampProfReset i)
  | r => BitVec.ofNat 64 (regInfo r).reset

def allRegsPart0 : List Reg :=
  [.engArrayCfg, .engRampProf, .engArrayStatus, .engArrayIssueCnt, .engArrayFrontStallCnt, .engArrayRampWaitCnt, .engArrayRampCnt, .engTileOverrunCnt, .engVecIssueCnt, .engFuncResultCnt, .engSkipDecideCnt, .engSkipBlockCnt, .engSkipReplayCnt, .engSkipRowReplayCnt, .engRngOutputCnt, .engLensConflictCnt, .engLensParityCnt, .engLensCrcCnt, .engLensParityLog, .engTaskState, .engTaskSwitchCnt, .engSlotInWaitCnt, .engSlotOutWaitCnt, .engClkCyc, .engBusyCyc, .engIdleCyc, .engMacCnt, .engConvCnt, .engVopCnt, .cluMemSlotCnt, .cluMemParityCnt, .cluMemParityLog, .cluLineCrcCnt, .cluLineRefetchCnt, .cluParityRerunCnt, .cluRecompChainCnt, .cluCkptRegenCnt, .cluCkptRegenFailCnt, .cluPredCommitCnt, .cluChainLaunchCnt]

def allRegsPart1 : List Reg :=
  [.cluChainEndCnt, .cluChainStallCnt, .cluSlotTimeoutCnt, .cluTokenViolCnt, .cluHeadHoldCyc, .cluRunaheadMissCnt, .cluExtentMaskCnt, .cluBubbleLaunchCnt, .cluDescClampCnt, .cluGatherReqCnt, .cluChainLog, .cluSlotTokens, .galCfg, .galBankCap, .galRepairCmd, .galRepairStatus, .galRowErrLog, .galBankState, .galSlotCnt, .galParityCnt, .galParityRefetchCnt, .galCapHoldCnt, .galLineCrcCnt, .galRepairLogBadCnt, .galOwnerWeight, .galSlotTokens, .galFlagEntry, .hbmcCeCnt, .hbmcUeCnt, .hbmcPoisonMarkCnt, .hbmcSevUeCnt, .hbmcWritebackCnt, .hbmcPartialWrCnt, .hbmcBankHoldCnt, .hbmcEcsCnt, .hbmcCalForcedCnt, .hbmcErrLog, .hbmcScrubLo, .hbmcScrubHi, .hbmcScrubRec]

def allRegsPart2 : List Reg :=
  [.hbmcScrubCmd, .hbmcMaintReq, .hbmcMaintEntry, .poolMoveCmd, .poolMoveAddr, .poolMoveStatus, .poolStallCyc, .poolEvictCnt, .poolWritebackCnt, .poolMoveCancelCnt, .poolRebuildCnt, .poolRebuildFailCnt, .poolQuarantineCnt, .poolStreamLateCnt, .poolPinRefusedCnt, .poolFloorCutCnt, .poolOwnerUse, .poolDmStatus, .poolDmRestoreCmd, .poolDmRestoreAddr, .poolDmRestoreStatus, .poolDmPagesCnt, .poolDmFirstTouchCnt, .poolDmPoisonPageCnt, .poolDmAbandonCnt, .poolDmRestorePageCnt, .poolXlatRoot, .poolXlatInv, .poolXlatInvStatus, .poolXlatBadCnt, .poolXlatRefusedCnt, .fabVcCredits, .fabStatus, .fabDelay, .fabTxFlitCnt, .fabRxFlitCnt, .fabResentCnt, .fabNakCnt, .fabCrcFailCnt, .fabFecCorrCnt]

def allRegsPart3 : List Reg :=
  [.fabFecUncorrCnt, .fabRecoveryCnt, .fabRetryFullCyc, .fabCtrlDropCnt, .fabBadMsgCnt, .fabCreditWaitCyc, .winCmd, .winAcceptCnt, .winRefusedCnt, .winTornCnt, .winLateRespCnt, .winCmdIgnoredCnt, .winRingWaitCyc, .winRelineCnt, .winEntryW0, .winEntryW1, .winEntryW2, .winEntryW3, .collOpCnt, .collPieceTxCnt, .collPieceRxCnt, .collNonfiniteCnt, .collGenMismatchCnt, .collStaleCnt, .collAbortCnt, .collPeerLostCnt, .collRingDrainCnt, .collRouteDropCnt, .collPeerWaitCyc, .collNfSeen, .collNfGate, .collMemberGenSet, .collGroupW0, .collGroupW1, .collGroupW2, .collGroupW3, .collRoute, .beamNow, .beamStatus, .beamTable]

def allRegsPart4 : List Reg :=
  [.beamAbortCmd, .beamTokenCmd, .beamLaunchCnt, .beamLateCnt, .beamQuietDeferCnt, .beamDeadlineMissCnt, .beamPreemptCnt, .beamPreemptCyc, .beamCringFullCnt, .beamAbortIgnoredCnt, .beamMarkRxCnt, .beamForeignCnt, .beamStepCnt, .beamHoldoverCnt, .beamRecClampCnt, .beamCringBase, .beamCringIdx, .beamRecState, .beamTokens, .uciStatus, .uciCrcRetryCnt, .uciRetrainCnt, .uciBadTxnCnt, .uciLineCrcCnt, .rstCause, .rstBlockCmd, .rstBlockStatus, .rstBlockCnt, .rstBlockTimeoutCnt, .rstBlockIgnoredCnt, .rstCritLog, .rstCritCnt, .pwrStatus, .pwrThrottleCyc, .pwrDroopCnt, .pwrThermCnt, .ctrTraceCfg, .ctrTraceBase, .ctrTraceIdx, .ctrSnapBase]

def allRegsPart5 : List Reg :=
  [.ctrTraceMask, .ctrBusySum, .ctrIdleSum, .ctrPeerLinkCyc, .ctrStackSectorCnt, .ctrTraceLostCnt, .ctrTraceSinkErrCnt, .ctrTraceRecCnt, .keepBootStatus, .keepBootCmd, .keepHostCfg, .keepHostwin, .keepCringIrq, .keepSwIrq, .keepHcmdBase, .keepHcmdIdx, .keepHrspBase, .keepHrspIdx, .keepAperture, .keepApertureErrCnt, .keepHostMergeCnt, .keepHostCfgDropCnt, .keepHostwinErrCnt, .keepSramCeCnt, .keepSramUeCnt, .secStatus, .secLmsState, .secVerifyLog]

/-- Every register of the map. -/
def allRegs : List Reg := allRegsPart0 ++ allRegsPart1 ++ allRegsPart2 ++ allRegsPart3 ++ allRegsPart4 ++ allRegsPart5

/-! ## Fields -/

def engArrayCfgIdleRelease : Field := ⟨.engArrayCfg, 0, 8⟩
def engArrayCfgLock : Field := ⟨.engArrayCfg, 63, 1⟩
def engRampProfLength : Field := ⟨.engRampProf, 0, 8⟩
def engRampProfStagesLog2 : Field := ⟨.engRampProf, 8, 2⟩
def engArrayStatusBusy : Field := ⟨.engArrayStatus, 0, 1⟩
def engArrayStatusRamping : Field := ⟨.engArrayStatus, 1, 1⟩
def engArrayStatusWindowWait : Field := ⟨.engArrayStatus, 2, 1⟩
def engArrayStatusFrontStall : Field := ⟨.engArrayStatus, 3, 1⟩
def engArrayStatusEngagedCols : Field := ⟨.engArrayStatus, 4, 4⟩
def engArrayStatusSplitNow : Field := ⟨.engArrayStatus, 8, 2⟩
def engArrayStatusTransNow : Field := ⟨.engArrayStatus, 10, 1⟩
def engArrayStatusActiveBuf : Field := ⟨.engArrayStatus, 11, 1⟩
def engLensParityLogOffset : Field := ⟨.engLensParityLog, 0, 24⟩
def engLensParityLogReq : Field := ⟨.engLensParityLog, 24, 3⟩
def engLensParityLogOverflow : Field := ⟨.engLensParityLog, 30, 1⟩
def engLensParityLogValid : Field := ⟨.engLensParityLog, 31, 1⟩
def engLensParityLogOwnerChain : Field := ⟨.engLensParityLog, 32, 32⟩
def engTaskStateState : Field := ⟨.engTaskState, 0, 2⟩
def engTaskStateWaitOut : Field := ⟨.engTaskState, 2, 1⟩
def engTaskStateOwner : Field := ⟨.engTaskState, 4, 6⟩
def engTaskStateLaunch : Field := ⟨.engTaskState, 10, 12⟩
def engTaskStateStage : Field := ⟨.engTaskState, 22, 3⟩
def engTaskStateItem : Field := ⟨.engTaskState, 32, 24⟩
def cluMemParityLogOffset : Field := ⟨.cluMemParityLog, 0, 24⟩
def cluMemParityLogReq : Field := ⟨.cluMemParityLog, 24, 3⟩
def cluMemParityLogOverflow : Field := ⟨.cluMemParityLog, 30, 1⟩
def cluMemParityLogValid : Field := ⟨.cluMemParityLog, 31, 1⟩
def cluMemParityLogOwnerChain : Field := ⟨.cluMemParityLog, 32, 32⟩
def cluChainLogStatus : Field := ⟨.cluChainLog, 0, 8⟩
def cluChainLogStage : Field := ⟨.cluChainLog, 8, 3⟩
def cluChainLogOwner : Field := ⟨.cluChainLog, 16, 6⟩
def cluChainLogLaunch : Field := ⟨.cluChainLog, 22, 12⟩
def cluChainLogItem : Field := ⟨.cluChainLog, 34, 24⟩
def cluChainLogOverflow : Field := ⟨.cluChainLog, 62, 1⟩
def cluChainLogValid : Field := ⟨.cluChainLog, 63, 1⟩
def cluSlotTokensTokens : Field := ⟨.cluSlotTokens, 0, 64⟩
def galCfgWeightsEn : Field := ⟨.galCfg, 0, 1⟩
def galCfgLock : Field := ⟨.galCfg, 63, 1⟩
def galBankCapCap : Field := ⟨.galBankCap, 0, 5⟩
def galRepairCmdBank : Field := ⟨.galRepairCmd, 0, 6⟩
def galRepairCmdRow : Field := ⟨.galRepairCmd, 6, 12⟩
def galRepairCmdGo : Field := ⟨.galRepairCmd, 63, 1⟩
def galRepairStatusBusy : Field := ⟨.galRepairStatus, 0, 1⟩
def galRepairStatusResult : Field := ⟨.galRepairStatus, 1, 2⟩
def galRepairStatusSpare : Field := ⟨.galRepairStatus, 3, 5⟩
def galRepairStatusBlocker : Field := ⟨.galRepairStatus, 8, 8⟩
def galRowErrLogBank : Field := ⟨.galRowErrLog, 0, 6⟩
def galRowErrLogRow : Field := ⟨.galRowErrLog, 6, 12⟩
def galRowErrLogSlot : Field := ⟨.galRowErrLog, 18, 3⟩
def galRowErrLogPort : Field := ⟨.galRowErrLog, 21, 4⟩
def galRowErrLogOverflow : Field := ⟨.galRowErrLog, 30, 1⟩
def galRowErrLogValid : Field := ⟨.galRowErrLog, 31, 1⟩
def galBankStateSparesFree : Field := ⟨.galBankState, 0, 6⟩
def galBankStateSparesRetired : Field := ⟨.galBankState, 6, 6⟩
def galBankStateFramesRetired : Field := ⟨.galBankState, 12, 12⟩
def galBankStateParityErrs : Field := ⟨.galBankState, 32, 32⟩
def galOwnerWeightWeight : Field := ⟨.galOwnerWeight, 0, 8⟩
def galSlotTokensTokens : Field := ⟨.galSlotTokens, 0, 64⟩
def galFlagEntryNonfinite : Field := ⟨.galFlagEntry, 0, 1⟩
def galFlagEntryOvfSat : Field := ⟨.galFlagEntry, 1, 1⟩
def galFlagEntryUnderflow : Field := ⟨.galFlagEntry, 2, 1⟩
def hbmcErrLogAddr : Field := ⟨.hbmcErrLog, 0, 48⟩
def hbmcErrLogOwner : Field := ⟨.hbmcErrLog, 48, 6⟩
def hbmcErrLogSev : Field := ⟨.hbmcErrLog, 54, 1⟩
def hbmcErrLogPoisonMark : Field := ⟨.hbmcErrLog, 55, 1⟩
def hbmcErrLogOverflow : Field := ⟨.hbmcErrLog, 62, 1⟩
def hbmcErrLogValid : Field := ⟨.hbmcErrLog, 63, 1⟩
def hbmcScrubLoAddr : Field := ⟨.hbmcScrubLo, 5, 43⟩
def hbmcScrubHiAddr : Field := ⟨.hbmcScrubHi, 5, 43⟩
def hbmcScrubRecAddr : Field := ⟨.hbmcScrubRec, 6, 42⟩
def hbmcScrubCmdMode : Field := ⟨.hbmcScrubCmd, 0, 1⟩
def hbmcScrubCmdBusy : Field := ⟨.hbmcScrubCmd, 1, 1⟩
def hbmcScrubCmdTokenEn : Field := ⟨.hbmcScrubCmd, 2, 1⟩
def hbmcScrubCmdToken : Field := ⟨.hbmcScrubCmd, 4, 12⟩
def hbmcScrubCmdActivity : Field := ⟨.hbmcScrubCmd, 16, 8⟩
def hbmcScrubCmdGo : Field := ⟨.hbmcScrubCmd, 63, 1⟩
def hbmcMaintReqKind : Field := ⟨.hbmcMaintReq, 0, 3⟩
def hbmcMaintReqScope : Field := ⟨.hbmcMaintReq, 3, 4⟩
def hbmcMaintReqForce : Field := ⟨.hbmcMaintReq, 7, 1⟩
def hbmcMaintReqFast : Field := ⟨.hbmcMaintReq, 8, 1⟩
def hbmcMaintReqPending : Field := ⟨.hbmcMaintReq, 9, 1⟩
def hbmcMaintReqActivity : Field := ⟨.hbmcMaintReq, 10, 8⟩
def hbmcMaintReqGo : Field := ⟨.hbmcMaintReq, 63, 1⟩
def hbmcMaintEntryKind : Field := ⟨.hbmcMaintEntry, 0, 3⟩
def hbmcMaintEntryState : Field := ⟨.hbmcMaintEntry, 3, 2⟩
def hbmcMaintEntryBlocker : Field := ⟨.hbmcMaintEntry, 5, 8⟩
def hbmcMaintEntryScope : Field := ⟨.hbmcMaintEntry, 13, 6⟩
def hbmcMaintEntryFail : Field := ⟨.hbmcMaintEntry, 19, 1⟩
def hbmcMaintEntryPhase : Field := ⟨.hbmcMaintEntry, 32, 32⟩
def poolMoveCmdOp : Field := ⟨.poolMoveCmd, 0, 2⟩
def poolMoveCmdTier : Field := ⟨.poolMoveCmd, 2, 2⟩
def poolMoveCmdOwner : Field := ⟨.poolMoveCmd, 4, 6⟩
def poolMoveCmdGo : Field := ⟨.poolMoveCmd, 63, 1⟩
def poolMoveAddrVpage : Field := ⟨.poolMoveAddr, 16, 32⟩
def poolMoveStatusBusy : Field := ⟨.poolMoveStatus, 0, 1⟩
def poolMoveStatusResult : Field := ⟨.poolMoveStatus, 1, 2⟩
def poolOwnerUseGalFrames : Field := ⟨.poolOwnerUse, 0, 12⟩
def poolOwnerUseHbmFrames : Field := ⟨.poolOwnerUse, 12, 22⟩
def poolOwnerUseShelfFrames : Field := ⟨.poolOwnerUse, 34, 27⟩
def poolDmStatusActive : Field := ⟨.poolDmStatus, 0, 1⟩
def poolDmStatusOwner : Field := ⟨.poolDmStatus, 1, 6⟩
def poolDmStatusRecIndex : Field := ⟨.poolDmStatus, 7, 12⟩
def poolDmStatusPagesLeft : Field := ⟨.poolDmStatus, 19, 32⟩
def poolDmRestoreCmdOwner : Field := ⟨.poolDmRestoreCmd, 0, 6⟩
def poolDmRestoreCmdGo : Field := ⟨.poolDmRestoreCmd, 63, 1⟩
def poolDmRestoreAddrImg : Field := ⟨.poolDmRestoreAddr, 16, 32⟩
def poolDmRestoreStatusBusy : Field := ⟨.poolDmRestoreStatus, 0, 1⟩
def poolDmRestoreStatusResult : Field := ⟨.poolDmRestoreStatus, 1, 2⟩
def poolDmRestoreStatusPages : Field := ⟨.poolDmRestoreStatus, 32, 32⟩
def poolXlatRootEn : Field := ⟨.poolXlatRoot, 0, 1⟩
def poolXlatRootRoot : Field := ⟨.poolXlatRoot, 13, 35⟩
def poolXlatInvOwner : Field := ⟨.poolXlatInv, 0, 6⟩
def poolXlatInvScope : Field := ⟨.poolXlatInv, 6, 2⟩
def poolXlatInvVpage : Field := ⟨.poolXlatInv, 16, 32⟩
def poolXlatInvGo : Field := ⟨.poolXlatInv, 63, 1⟩
def poolXlatInvStatusBusy : Field := ⟨.poolXlatInvStatus, 0, 1⟩
def fabVcCreditsVc0 : Field := ⟨.fabVcCredits, 0, 10⟩
def fabVcCreditsVc1 : Field := ⟨.fabVcCredits, 16, 10⟩
def fabVcCreditsVc2 : Field := ⟨.fabVcCredits, 32, 10⟩
def fabVcCreditsVc3 : Field := ⟨.fabVcCredits, 48, 10⟩
def fabStatusState : Field := ⟨.fabStatus, 0, 4⟩
def fabStatusIlClass : Field := ⟨.fabStatus, 4, 2⟩
def fabStatusDelaySuspect : Field := ⟨.fabStatus, 6, 1⟩
def fabStatusVersion : Field := ⟨.fabStatus, 8, 8⟩
def fabStatusPartnerPkg : Field := ⟨.fabStatus, 16, 12⟩
def fabStatusPartnerLink : Field := ⟨.fabStatus, 28, 4⟩
def fabDelayRtt : Field := ⟨.fabDelay, 0, 20⟩
def fabDelayOneWay : Field := ⟨.fabDelay, 32, 20⟩
def winCmdEntry : Field := ⟨.winCmd, 0, 9⟩
def winCmdOp : Field := ⟨.winCmd, 9, 1⟩
def winCmdGo : Field := ⟨.winCmd, 63, 1⟩
def winEntryW0Base : Field := ⟨.winEntryW0, 0, 48⟩
def winEntryW0Epoch : Field := ⟨.winEntryW0, 48, 16⟩
def winEntryW1Size : Field := ⟨.winEntryW1, 0, 32⟩
def winEntryW1Owner : Field := ⟨.winEntryW1, 32, 6⟩
def winEntryW1Kind : Field := ⟨.winEntryW1, 38, 2⟩
def winEntryW1WriteEn : Field := ⟨.winEntryW1, 40, 1⟩
def winEntryW1ReadEn : Field := ⟨.winEntryW1, 41, 1⟩
def winEntryW1State : Field := ⟨.winEntryW1, 42, 2⟩
def winEntryW2RingTokenBase : Field := ⟨.winEntryW2, 0, 12⟩
def winEntryW2RingNslotsM1 : Field := ⟨.winEntryW2, 12, 4⟩
def winEntryW2RingSlotLinesM1 : Field := ⟨.winEntryW2, 16, 17⟩
def winEntryW3CloseRec : Field := ⟨.winEntryW3, 6, 42⟩
def winEntryW3TokenEn : Field := ⟨.winEntryW3, 48, 1⟩
def winEntryW3CloseToken : Field := ⟨.winEntryW3, 49, 12⟩
def collNfSeenOwnerBits : Field := ⟨.collNfSeen, 0, 64⟩
def collNfGateOwnerBits : Field := ⟨.collNfGate, 0, 64⟩
def collMemberGenSetGroup : Field := ⟨.collMemberGenSet, 0, 8⟩
def collMemberGenSetValue : Field := ⟨.collMemberGenSet, 16, 16⟩
def collMemberGenSetGo : Field := ⟨.collMemberGenSet, 63, 1⟩
def collGroupW0DegreeM1 : Field := ⟨.collGroupW0, 0, 12⟩
def collGroupW0Rank : Field := ⟨.collGroupW0, 12, 12⟩
def collGroupW0Kind : Field := ⟨.collGroupW0, 24, 2⟩
def collGroupW0Valid : Field := ⟨.collGroupW0, 26, 1⟩
def collGroupW0Dirs : Field := ⟨.collGroupW0, 27, 1⟩
def collGroupW0MemberGen : Field := ⟨.collGroupW0, 48, 16⟩
def collGroupW1NextPkg : Field := ⟨.collGroupW1, 0, 12⟩
def collGroupW1NextDie : Field := ⟨.collGroupW1, 12, 1⟩
def collGroupW1UpLinks : Field := ⟨.collGroupW1, 16, 8⟩
def collGroupW1DownLinks : Field := ⟨.collGroupW1, 24, 8⟩
def collGroupW1PrevPkg : Field := ⟨.collGroupW1, 32, 12⟩
def collGroupW1PrevDie : Field := ⟨.collGroupW1, 44, 1⟩
def collGroupW2ListAddr : Field := ⟨.collGroupW2, 0, 48⟩
def collGroupW3Reserved : Field := ⟨.collGroupW3, 0, 64⟩
def collRouteEntry0 : Field := ⟨.collRoute, 0, 9⟩
def collRouteEntry1 : Field := ⟨.collRoute, 16, 9⟩
def collRouteEntry2 : Field := ⟨.collRoute, 32, 9⟩
def collRouteEntry3 : Field := ⟨.collRoute, 48, 9⟩
def beamNowBeam : Field := ⟨.beamNow, 0, 64⟩
def beamStatusState : Field := ⟨.beamStatus, 0, 3⟩
def beamStatusHops : Field := ⟨.beamStatus, 3, 5⟩
def beamStatusLeadPkg : Field := ⟨.beamStatus, 8, 12⟩
def beamStatusGen : Field := ⟨.beamStatus, 20, 16⟩
def beamStatusSource : Field := ⟨.beamStatus, 36, 4⟩
def beamStatusError : Field := ⟨.beamStatus, 40, 24⟩
def beamTableBase : Field := ⟨.beamTable, 18, 30⟩
def beamTableOwner : Field := ⟨.beamTable, 48, 6⟩
def beamTableLock : Field := ⟨.beamTable, 63, 1⟩
def beamAbortCmdIndex : Field := ⟨.beamAbortCmd, 0, 12⟩
def beamAbortCmdOwner : Field := ⟨.beamAbortCmd, 12, 6⟩
def beamAbortCmdScope : Field := ⟨.beamAbortCmd, 18, 1⟩
def beamAbortCmdGo : Field := ⟨.beamAbortCmd, 63, 1⟩
def beamTokenCmdToken : Field := ⟨.beamTokenCmd, 0, 12⟩
def beamTokenCmdOp : Field := ⟨.beamTokenCmd, 12, 1⟩
def beamTokenCmdGo : Field := ⟨.beamTokenCmd, 63, 1⟩
def beamCringBaseBase : Field := ⟨.beamCringBase, 5, 43⟩
def beamCringBaseSizeLog2 : Field := ⟨.beamCringBase, 48, 5⟩
def beamCringIdxProd : Field := ⟨.beamCringIdx, 0, 32⟩
def beamCringIdxCons : Field := ⟨.beamCringIdx, 32, 32⟩
def beamRecStateStates : Field := ⟨.beamRecState, 0, 64⟩
def beamTokensSet : Field := ⟨.beamTokens, 0, 64⟩
def uciStatusState : Field := ⟨.uciStatus, 0, 2⟩
def uciStatusModulesUp : Field := ⟨.uciStatus, 2, 5⟩
def uciStatusRetired : Field := ⟨.uciStatus, 8, 24⟩
def rstCauseSources : Field := ⟨.rstCause, 0, 8⟩
def rstCauseLevel : Field := ⟨.rstCause, 8, 2⟩
def rstBlockCmdNumber : Field := ⟨.rstBlockCmd, 0, 5⟩
def rstBlockCmdKind : Field := ⟨.rstBlockCmd, 5, 1⟩
def rstBlockCmdGo : Field := ⟨.rstBlockCmd, 63, 1⟩
def rstBlockStatusBusy : Field := ⟨.rstBlockStatus, 0, 1⟩
def rstBlockStatusTimedOut : Field := ⟨.rstBlockStatus, 1, 1⟩
def rstBlockStatusOutstanding : Field := ⟨.rstBlockStatus, 8, 24⟩
def rstBlockStatusDuration : Field := ⟨.rstBlockStatus, 32, 32⟩
def rstCritLogUnit : Field := ⟨.rstCritLog, 0, 3⟩
def rstCritLogDie : Field := ⟨.rstCritLog, 3, 1⟩
def rstCritLogIndex : Field := ⟨.rstCritLog, 4, 12⟩
def rstCritLogDouble : Field := ⟨.rstCritLog, 16, 1⟩
def rstCritLogOverflow : Field := ⟨.rstCritLog, 62, 1⟩
def rstCritLogValid : Field := ⟨.rstCritLog, 63, 1⟩
def pwrStatusMode : Field := ⟨.pwrStatus, 0, 2⟩
def pwrStatusSubMode : Field := ⟨.pwrStatus, 2, 2⟩
def pwrStatusLevel : Field := ⟨.pwrStatus, 4, 4⟩
def pwrStatusVsel : Field := ⟨.pwrStatus, 8, 1⟩
def pwrStatusAclkMhz : Field := ⟨.pwrStatus, 16, 12⟩
def ctrTraceCfgSink : Field := ⟨.ctrTraceCfg, 0, 2⟩
def ctrTraceCfgLevel : Field := ⟨.ctrTraceCfg, 2, 2⟩
def ctrTraceCfgShare : Field := ⟨.ctrTraceCfg, 4, 8⟩
def ctrTraceCfgSyncMin : Field := ⟨.ctrTraceCfg, 12, 20⟩
def ctrTraceCfgSnapEn : Field := ⟨.ctrTraceCfg, 32, 1⟩
def ctrTraceBaseBase : Field := ⟨.ctrTraceBase, 12, 36⟩
def ctrTraceBaseSizeLog2 : Field := ⟨.ctrTraceBase, 48, 5⟩
def ctrTraceIdxProd : Field := ⟨.ctrTraceIdx, 0, 32⟩
def ctrTraceIdxCons : Field := ⟨.ctrTraceIdx, 32, 32⟩
def ctrSnapBaseBase : Field := ⟨.ctrSnapBase, 12, 36⟩
def ctrSnapBaseSizeLog2 : Field := ⟨.ctrSnapBase, 48, 5⟩
def ctrTraceMaskOwnerBits : Field := ⟨.ctrTraceMask, 0, 64⟩
def keepBootStatusStage : Field := ⟨.keepBootStatus, 0, 8⟩
def keepBootStatusSource : Field := ⟨.keepBootStatus, 8, 1⟩
def keepBootStatusSlot : Field := ⟨.keepBootStatus, 9, 1⟩
def keepBootStatusLastFail : Field := ⟨.keepBootStatus, 10, 8⟩
def keepBootCmdLen : Field := ⟨.keepBootCmd, 0, 25⟩
def keepBootCmdGo : Field := ⟨.keepBootCmd, 63, 1⟩
def keepHostCfgWrEn : Field := ⟨.keepHostCfg, 0, 1⟩
def keepHostwinEn : Field := ⟨.keepHostwin, 0, 1⟩
def keepHostwinBase : Field := ⟨.keepHostwin, 12, 52⟩
def keepCringIrqOwnerBits : Field := ⟨.keepCringIrq, 0, 64⟩
def keepSwIrqVector : Field := ⟨.keepSwIrq, 0, 11⟩
def keepHcmdBaseBase : Field := ⟨.keepHcmdBase, 6, 42⟩
def keepHcmdBaseSizeLog2 : Field := ⟨.keepHcmdBase, 48, 5⟩
def keepHcmdIdxProd : Field := ⟨.keepHcmdIdx, 0, 32⟩
def keepHcmdIdxCons : Field := ⟨.keepHcmdIdx, 32, 32⟩
def keepHrspBaseBase : Field := ⟨.keepHrspBase, 6, 42⟩
def keepHrspBaseSizeLog2 : Field := ⟨.keepHrspBase, 48, 5⟩
def keepHrspIdxProd : Field := ⟨.keepHrspIdx, 0, 32⟩
def keepHrspIdxCons : Field := ⟨.keepHrspIdx, 32, 32⟩
def keepApertureEn : Field := ⟨.keepAperture, 0, 1⟩
def keepApertureBase : Field := ⟨.keepAperture, 32, 16⟩
def secStatusState : Field := ⟨.secStatus, 0, 2⟩
def secStatusSlot : Field := ⟨.secStatus, 2, 1⟩
def secStatusSvn : Field := ⟨.secStatus, 3, 7⟩
def secStatusKeySlot : Field := ⟨.secStatus, 10, 2⟩
def secStatusExhausted : Field := ⟨.secStatus, 12, 1⟩
def secLmsStateNext : Field := ⟨.secLmsState, 0, 26⟩
def secLmsStateFloor : Field := ⟨.secLmsState, 26, 6⟩
def secLmsStateReservedEnd : Field := ⟨.secLmsState, 32, 26⟩
def secVerifyLogCause : Field := ⟨.secVerifyLog, 0, 3⟩
def secVerifyLogSlot : Field := ⟨.secVerifyLog, 3, 1⟩
def secVerifyLogHost : Field := ⟨.secVerifyLog, 4, 1⟩
def secVerifyLogEcdsaFail : Field := ⟨.secVerifyLog, 5, 1⟩
def secVerifyLogLmsFail : Field := ⟨.secVerifyLog, 6, 1⟩

end Sys2Proof.Machine
end

