-- ==== Sys2Proof/Machine/Store.lean ====
section
/-!
DEFINITION. Sparse data by key: a list of (key, value) pairs with keys strictly rising and no value equal to the default that an
unlisted key reads as. Memory, registers and records are held in this one canonical form, so that equal contents are equal lists.
-/
namespace Sys2Proof.Machine

/-- The value at a key, or the default where the key is not listed. -/
def lookupD {α : Type} (d : α) (k : Nat) : List (Nat × α) → α
  | [] => d
  | (j, v) :: r => if j = k then v else lookupD d k r

/-- The list with a key set, keys kept rising. -/
def insertAt {α : Type} (k : Nat) (v : α) : List (Nat × α) → List (Nat × α)
  | [] => [(k, v)]
  | (j, w) :: r =>
    if k < j then (k, v) :: (j, w) :: r
    else if j = k then (k, v) :: r
    else (j, w) :: insertAt k v r

/-- The list without a key. -/
def eraseAt {α : Type} (k : Nat) (l : List (Nat × α)) : List (Nat × α) := l.filter fun p => p.1 != k

/-- A write: the default value removes the entry. -/
def putD {α : Type} [DecidableEq α] (d : α) (k : Nat) (v : α) (l : List (Nat × α)) : List (Nat × α) :=
  if v = d then eraseAt k l else insertAt k v l

/-- The entries with keys in `[lo, lo + n)`, rebased to 0. -/
def sliceAt {α : Type} (lo n : Nat) (l : List (Nat × α)) : List (Nat × α) :=
  (l.filter fun p => decide (lo ≤ p.1) && decide (p.1 < lo + n)).map fun p => (p.1 - lo, p.2)

/-- The list without the keys in `[lo, lo + n)`. -/
def clearRange {α : Type} (lo n : Nat) (l : List (Nat × α)) : List (Nat × α) :=
  l.filter fun p => decide (p.1 < lo) || decide (lo + n ≤ p.1)

/-- Writes of consecutive keys from `k`. -/
def putRun {α : Type} [DecidableEq α] (d : α) (k : Nat) : List α → List (Nat × α) → List (Nat × α)
  | [], l => l
  | v :: vs, l => putRun d (k + 1) vs (putD d k v l)

/-- Keys strictly rising and above `lo`; no value equal to the default. -/
def rising {α : Type} [DecidableEq α] (d : α) : Nat → List (Nat × α) → Bool
  | _, [] => true
  | lo, (j, v) :: r => decide (lo ≤ j) && !decide (v = d) && rising d (j + 1) r

/-- The canonical form. -/
def canonical {α : Type} [DecidableEq α] (d : α) (l : List (Nat × α)) : Bool := rising d 0 l

/-- A sorted set of keys, as a list. -/
def setInsert (k : Nat) : List Nat → List Nat
  | [] => [k]
  | j :: r => if k < j then k :: j :: r else if j = k then j :: r else j :: setInsert k r

def setErase (k : Nat) : List Nat → List Nat
  | [] => []
  | j :: r => if j = k then r else j :: setErase k r

/-- The elements of a set in `[lo, lo + n)`. -/
def setIn (lo n : Nat) (l : List Nat) : List Nat := l.filter fun k => decide (lo ≤ k) && decide (k < lo + n)

def setClear (lo n : Nat) (l : List Nat) : List Nat := l.filter fun k => decide (k < lo) || decide (lo + n ≤ k)

end Sys2Proof.Machine
end

