-- ==== Sys2Proof/Machine/State.lean ====
section
/-!
DEFINITION. The state of the package as plain data: every register (in one sparse map, unlisted registers at their reset value),
every memory, every queue and record the spec gives the machine, and the queue of waiting commands. INVENTORY.md lists each piece
with its rule.
-/
namespace Sys2Proof.Machine

/-- What stops the machine. -/
inductive Fault where
  /-- Raised by no command: the package meets whatever arrives with an effect of its own, and the model follows it. The one
  constructor keeps the type from being empty. Safe. -/
  | stopped
  deriving DecidableEq, Repr

/-- What the model gives no meaning. -/
inductive Refusal where
  /-- An instruction not modelled yet, by its mnemonic. Raised by the dispatch only. Safe. -/
  | notModelled (mnemonic : String)
  deriving DecidableEq, Repr

/-- Sparse bytes: unlisted bytes are 0x00. -/
abbrev Bytes := List (Nat × Byte)

/-! ## Engines (spec/03, 04, 07) -/

/-- A pass command with every field clamped (R111, R115). Addresses are in 64-byte units. -/
structure PassCmd where
  trans : Bool
  split : Nat
  accIn : Bool
  loadS : Bool
  writeOut : Bool
  last : Bool
  sSdir : Bool
  mSdir : Bool
  fmtS : Nat
  fmtM : Nat
  mxS : Bool
  mxM : Bool
  rampSel : Nat
  mRows : Nat
  kValid : Nat
  nValid : Nat
  sAddr : Nat
  mAddr : Nat
  accAddr : Nat
  ssAddr : Nat
  msAddr : Nat
  mPstride : Nat
  aPstride : Nat
  outDesc : Nat
  outRow : Nat
  outCol : Nat
  /-- MX_S as read before the row of R115 that clamps it -/
  mxSRead : Bool := false
  deriving DecidableEq, Repr

/-- One of the two stationary buffers of the array (R141): the header of the pass that loaded it, its image and its scales. -/
structure StatBlock where
  loaded : Bool := false
  fmt : Nat := 0
  mx : Bool := false
  mxRead : Bool := false
  sdir : Bool := false
  trans : Bool := false
  split : Nat := 0
  image : Bytes := []
  scales : Bytes := []
  deriving DecidableEq, Repr

/-- A pass taken and not yet issued: it waits for its region's ramp window, for a ramp, or for its stationary load (R147, R152 to
R155, R864). `loadCycles` is what the load takes from when the engine took the pass. -/
structure HeldPass where
  cmd : PassCmd
  task : Nat
  index : Nat := 0
  loadCycles : Nat
  rampCycles : Nat
  deriving DecidableEq, Repr

/-- A pass with groups in flight, or issued and not yet complete (R149): the accumulator values of a WRITE_OUT pass are those it left,
as (output row, output column, value). -/
structure PassFlight where
  cmd : PassCmd
  task : Nat
  index : Nat := 0
  results : List (Nat × Nat × F32) := []
  deriving DecidableEq, Repr

/-- A command that an engine has taken and not begun (R168): its image, its task and its CMD_INDEX (R834). -/
structure QueuedCmd where
  words : Words4
  task : Nat
  index : Nat := 0
  deriving DecidableEq, Repr

/-- The array and task state of an engine that no register shows. -/
structure Engine where
  buf0 : StatBlock := {}
  buf1 : StatBlock := {}
  held : Option HeldPass := none
  /-- commands taken and not begun, oldest first -/
  queue : List QueuedCmd := []
  flight : List PassFlight := []
  /-- issue length of the pass that last issued, and whether it was plain with a 6-bit moving operand (R145) -/
  lastIssue : Nat := 0
  lastSixBit : Bool := false
  /-- cycles until its last group issues (R864) -/
  issueLeft : Nat := 0
  tileOpen : Bool := false
  /-- the tile in progress has had a pass (R116) -/
  tilePass : Bool := false
  tileCycles : Nat := 0
  tileOverrun : Bool := false
  /-- commands each context has taken, by context: the CMD_INDEX of its next command (R834) -/
  cmdIdx : List (Nat × Nat) := []
  /-- profile of the pass that last ran (R151), and the direction of a ramp in progress -/
  rampProf : Nat := 0
  rampUp : Bool := false
  /-- stage length of a ramp-up in progress and the cycles it has run (R152, R153, R156) -/
  rampLen : Nat := 0
  rampAge : Nat := 0
  /-- cycle within the flash of a pending ramp-up request, and cycles it waited before the last flash boundary (R155) -/
  windowReq : Nat := 0
  windowWaited : Nat := 0
  /-- the selected task context (R342) -/
  task : Nat := 0
  /-- contexts whose task waits, the longest waiting first (R342) -/
  waiters : List Nat := []
  /-- tasks with a pre-emption requested (R615), by context -/
  preempt : List Nat := []
  /-- deferred row of the tile in progress: the task whose tile is open -/
  tileTask : Nat := 0
  deriving DecidableEq, Repr

/-! ## Stage chains and sequences (spec/07, 12) -/

/-- One stage of a running chain: its entry as clamped (R323, R326) and its progress. -/
structure Stage where
  kind : Nat
  engine : Nat
  task : Nat
  inDesc : Nat
  outDesc : Nat
  cmdOff : Nat
  ringAddr : Nat
  nslots : Nat
  tokenBase : Nat
  slotLines : Nat
  /-- items started -/
  started : Nat := 0
  /-- the item in progress: its output slot is FILLING, its input slot DRAINING, its tile not ended -/
  outOpen : Bool := false
  inOpen : Bool := false
  tileOpen : Bool := false
  /-- the reads of the item in progress are not complete: it waits for a page (R361), a rebuild (R446), a regeneration (R232), a line
  (R284) or data of another package (R491) -/
  todo : Bool := false
  /-- the pool's tier and cause that this wait counts under (R445), if it counts -/
  cause : Option (Nat × Nat) := none
  /-- a fetch has stopped before this page (R361) -/
  missed : Option Nat := none
  /-- pages whose miss the descriptor's tile walk has counted -/
  missCounted : List Nat := []
  /-- lens loads of the item still to be done, and what has come from other packages for it: virtual address and bytes of each run, and
  its poisoned sectors -/
  loads : List LensLoad := []
  ovl : List (Nat × List Byte) := []
  overBad : List Nat := []
  /-- pre-empted: the stage's context is saved or being saved, not held (R616) -/
  away : Bool := false
  deriving DecidableEq, Repr

/-- The stage of a chain whose work writes (R337, R341). -/
structure Writer where
  chain : ChainRef
  stage : Nat := 0
  deriving DecidableEq, Repr

/-- What asks for accesses of the memories of a die: an engine, a cluster's DMA or gather/scatter unit, an HBM3E controller (die * 4 + stack),
a fabric link, a die's UCIe ports, its collective engine, and its maintenance port (R274, R275). -/
inductive Requester where
  | engine (e : Nat)
  | dma (c : Nat)
  | gather (c : Nat)
  | hbm (ctl : Nat)
  | link (l : Nat)
  | ucie (die : Nat)
  | keeper
  | coll (die : Nat)
  | maint (die : Nat)
  deriving DecidableEq, Repr

/-- An access of memory: who asks, the owner of the work (R275), and the stage of a chain that waits for it, if one does. -/
structure Access where
  unit : Requester
  owner : Nat := 0
  who : Option Writer := none
  /-- the accepted message whose line it stores (R498) -/
  msg : Option Nat := none
  deriving DecidableEq, Repr

/-- A write that waits for a first-touch copy (R642) or for a channel group (R405), whose it is, and the sectors that it leaves poisoned, by
address / 32 (R434, R498). -/
structure HeldWrite where
  addr : Nat
  bytes : List Byte
  by_ : Access
  bad : List Nat := []
  deriving DecidableEq, Repr

/-- Whether a write touches a sector. -/
def HeldWrite.covers (w : HeldWrite) (k : Nat) : Bool := decide (w.addr < 32 * k + 32) && decide (32 * k < w.addr + w.bytes.length)

/-- A slot-token transition not yet visible to the other side of its ring (R339). -/
structure Handover where
  ring : Nat
  slot : Nat
  toConsumer : Bool
  deriving DecidableEq, Repr

/-- A running stage chain. -/
structure Chain where
  cluster : Nat
  launch : Nat
  ahead : Bool
  /-- runs beside the record's own sequence (R229, R232) -/
  extra : Bool := false
  owner : Nat
  stepRev : Nat
  prog : Nat
  raw : Bool
  overlap : Bool
  items : Nat
  region : Nat
  rphase : Nat
  descTable : Nat
  ndesc : Nat
  next : Nat
  switchThresh : Nat
  planEntry : Nat
  stallWd : Nat
  stages : List Stage
  /-- completion token (R341): 0 EMPTY, 1 FILLING, 2 FULL -/
  completion : Nat := 0
  hidden : List Handover := []
  /-- waiting for task contexts its engine stages need (R600), since a beam time, for one that a launch record's task held -/
  waiting : Bool := false
  waitFrom : Nat := 0
  waitOn : Nat := 0
  /-- the offset of its image in the program -/
  off : Nat := 0
  /-- 0 the record's own sequence, 1 a rerun, 2 a predictor commit, 3 a regeneration -/
  origin : Nat := 0
  /-- stopped for a rerun of its unit (R289) -/
  stopped : Bool := false
  /-- an abort waits for the chain's tile boundaries (R359), with the status it ends with -/
  aborting : Option Nat := none
  deriving DecidableEq, Repr

/-- A sequence of a launch record on one cluster (R600, R608): the offset of its next command, whether it has ended and how, the
operations completed, the items of its last chain and its last commit point. -/
structure Seq where
  cluster : Nat
  launch : Nat
  next : Nat
  ended : Bool := false
  status : Nat := 0
  ops : Nat := 0
  lastItems : Nat := 0
  commitBeam : Nat := 0
  /-- regions of which a backward chain has committed here, and not been rerun since (R229) -/
  backward : List Nat := []
  /-- a regeneration or predictor commit, run beside the record's own sequence (R229, R232) -/
  extra : Bool := false
  /-- the checkpoint that a regeneration writes again: its producing region and tensor (R232) -/
  regenFor : Option (Nat × Nat) := none
  deriving DecidableEq, Repr

/-- A rerun unit's count in the present step (R292) and whether it is stopped and awaits its relaunch. -/
structure RerunUnit where
  launch : Nat
  region : Nat
  /-- 0 forward, 1 recompute and backward, 3 regeneration, 4 outside every region -/
  part : Nat
  count : Nat
  stopped : Bool
  status : Nat := 0
  deriving DecidableEq, Repr

/-! ## Launch records (spec/12) -/

/-- A launch record instance: the fields latched when it became LIVE (R587) and what its completion record will say. -/
structure RecInst where
  index : Nat
  beamTime : Nat := 0
  prog : Nat := 0
  owner : Nat := 0
  prio : Nat := 0
  preempt : Bool := false
  now : Bool := false
  kind : Nat := 0
  consume : Bool := false
  failSig : Bool := false
  wait : List Nat := []
  sig : List Nat := []
  stepRev : Nat := 0
  repeatRevs : Nat := 0
  deadlineFl : Nat := 0
  saveArea : Nat := 0
  kindArg : Nat := 0
  /-- beam time of arming (R595) -/
  armed : Nat := 0
  /-- the table was written with VALID = 1 after the record became LIVE (R587) -/
  rearmed : Bool := false
  late : Bool := false
  /-- a quiet window deferred its launch (R606) -/
  deferred : Bool := false
  /-- beam time of becoming LIVE, and the first wait token that was not set then (R836) -/
  liveBeam : Nat := 0
  waitTok : Option Nat := none
  launchBeam : Nat := 0
  commitBeam : Nat := 0
  preempts : Nat := 0
  ops : Nat := 0
  count : Nat := 0
  status : Nat := 0
  aborted : Bool := false
  /-- ended, its completion record not yet accepted -/
  ended : Bool := false
  deriving DecidableEq, Repr

/-- A saved task of a pre-empted record (R616 to R620). -/
structure SavedTask where
  launch : Nat
  engine : Nat
  task : Nat
  chain : ChainRef
  stage : Nat
  item : Nat
  slot : Nat
  /-- saved ranges as (kind, start, length) in 64-byte units -/
  ranges : List (Nat × Nat × Nat)
  /-- virtual address of its save slot -/
  saveAt : Nat := 0
  /-- beam time since which it has waited for its context, and the launch record that took it -/
  waitFrom : Nat := 0
  waitOn : Nat := 0
  /-- the save has ended and the context is free -/
  done : Bool := false
  deriving DecidableEq, Repr

/-- An open quiet window (R606): the record that opened it and the flashes left. -/
structure QuietWindow where
  launch : Nat
  left : Nat
  deriving DecidableEq, Repr

/-- A completion record that waits for room (R612): its owner, the launch record whose it is (none: a collective rank's), its words. -/
structure DoneWait where
  owner : Nat
  launch : Option Nat
  words : List Word
  deriving DecidableEq, Repr

/-- A completion record written to its owner's ring and not yet accepted (R612, R642): the number of its write, its owner, the launch record
whose it is. -/
structure PostedRec where
  num : Nat
  owner : Nat
  launch : Option Nat
  deriving DecidableEq, Repr

/-- The beam of the package beyond its registers (spec/12). -/
structure Beam where
  /-- the 96-bit beam counter (R569) -/
  counter : BitVec 96 := 0#96
  gen : Nat := 0
  firstLocked : Bool := false
  syncRun : Nat := 0
  lead : Option Nat := none
  source : Option Nat := none
  /-- link, HOPS and the beam counter of its last SYNC mark, for every link heard (R575) -/
  heard : List (Nat × Nat × Nat) := []
  /-- the period followers use, from the last mark, and a period written at the lead and not yet in effect (R572) -/
  period : Nat := 1000000
  coarse : Bool := false
  /-- a correction that would go backward holds the counter until the true beam reaches this (R580) -/
  hold : Option Nat := none
  /-- slewing remainder, signed, in units of 2^-32 phase (R579) -/
  slew : Int := 0
  quiet : Option QuietWindow := none
  recs : List RecInst := []
  saved : List SavedTask := []
  /-- completion records that wait for room in their owner's ring, oldest first (R612) -/
  doneWait : List DoneWait := []
  posted : List PostedRec := []
  /-- sectors of the characteristic table written and not yet seen by the record states: record, whether its second sector, beam time of
  the write (R584, R586) -/
  touched : List (Nat × Bool × Nat) := []
  deriving DecidableEq, Repr

/-! ## On-package SRAM (spec/06) -/

/-- A request for one access slot of a gallery bank (R271, R275 to R277), and the stage that waits for it. -/
structure GalRequest where
  port : Nat
  owner : Nat
  who : Option Writer := none
  deriving DecidableEq, Repr

/-- A gallery bank (R276, R277): its queue of up to 16 requests, the requests held at their ports, the owner being served and the grants
left of its weight. -/
structure GalBank where
  queue : List GalRequest := []
  held : List GalRequest := []
  owner : Nat := 0
  credit : Nat := 0
  deriving DecidableEq, Repr

/-- A line whose CRC failed, waiting to arrive again (R284), and the stage of the chain that waits for it. -/
structure Refetch where
  site : SramSite
  attempts : Nat
  source : LineSource
  tier : Nat
  reader : ChainRef
  stage : Nat
  deriving DecidableEq, Repr

/-- A field repair that the arbiter holds (R299): its die, bank and row, and the arbiter entry. -/
structure Repair where
  die : Nat
  bank : Nat
  row : Nat
  entry : Nat
  deriving DecidableEq, Repr

/-- What no register shows of the three SRAM levels. -/
structure Sram where
  /-- last requester granted, by cluster * 8 + bank; unlisted 5, the gather/scatter unit (R274) -/
  granted : List (Nat × Nat) := []
  /-- access slots of cluster memory asked for and not granted, by (cluster * 8 + bank) * 6 + requester (R271, R274) -/
  wants : List (Nat × Nat) := []
  /-- gallery banks by die * 64 + bank -/
  banks : List (Nat × GalBank) := []
  /-- repaired rows: (die * 64 + bank) * 3072 + row holds 1 + its spare row (R296) -/
  spareOf : List (Nat × Nat) := []
  /-- spare rows retired by R302, as (die * 64 + bank) * 32 + spare -/
  retired : List Nat := []
  /-- gallery frames retired by R303, as die * 3072 + frame -/
  retiredFrames : List Nat := []
  repairs : List Repair := []
  refetch : List Refetch := []
  /-- the gallery repair log in the package flash, oldest entry first (R298) -/
  repairLog : List Word := []
  /-- what the trace sink of a die has taken of its share of the gallery bandwidth, in quarters of an access slot (R838, log entry 97) -/
  sinkUse : List (Nat × Nat) := []
  deriving DecidableEq, Repr

/-! ## HBM and maintenance (spec/08) -/

/-- A request to a pseudo-channel controller (R383): one sector, with the port it waits at. A correction write-back is a request of the
controller's own (R379). -/
structure HbmReq where
  addr : Nat
  write : Bool
  wb : Bool := false
  data : BitVec 256 := 0#256
  mask : BitVec 32 := 0#32
  owner : Nat := 0
  port : Nat := 0
  deriving DecidableEq, Repr

/-- A pseudo-channel: its queue, the requests held at their sources (oldest first) and the weighted round-robin position (R383 to
R385). -/
structure PseudoChannel where
  queue : List HbmReq := []
  held : List HbmReq := []
  owner : Nat := 0
  credit : Nat := 0
  deriving DecidableEq, Repr

/-- What a controller last delivered: the data, the poison flag and the reader. -/
structure Delivered where
  addr : Nat := 0
  data : BitVec 256 := 0#256
  poison : Bool := false
  owner : Nat := 0
  deriving DecidableEq, Repr

/-- An activity of a die's maintenance arbiter that is queued or running (R400): its entry, kind, scope, what it is to do, and the
channel groups it touches. -/
structure MaintAct where
  entry : Nat
  kind : Nat
  scope : Nat
  groups : List Nat := []
  force : Bool := false
  fast : Bool := false
  running : Bool := false
  /-- a calibration whose group is out of service, or in interleaved mode (R405, R406) -/
  out : Bool := false
  deriving DecidableEq, Repr

/-- A running scrub (R390 to R397). -/
structure Scrub where
  entry : Nat
  mode : Bool
  pos : Nat
  hi : Nat
  recAddr : Nat
  tokenEn : Bool
  token : Nat
  /-- sectors of protected pages, and sectors of groups out of service, still to be read -/
  deferred : List Nat := []
  stepped : List Nat := []
  read : Nat := 0
  corrected : Nat := 0
  uncorrectable : Nat := 0
  marks : Nat := 0
  deferredCnt : Nat := 0
  beamStart : Nat := 0
  beamEnd : Nat := 0
  /-- failing sectors as record words, in order of discovery, at most 32 (R398) -/
  addrs : List Nat := []
  addrOvf : Bool := false
  /-- its record has been written, and awaits its acceptance (R397) -/
  recorded : Bool := false
  deriving DecidableEq, Repr

/-- A die's maintenance arbiter. -/
structure Arbiter where
  /-- queued and running activities in order of entry (R402) -/
  acts : List MaintAct := []
  /-- entries in state done, oldest first (R404) -/
  done : List Nat := []
  /-- the request that waits in HBMC_MAINT_REQ for an entry (R404) -/
  waiting : Option MaintAct := none
  /-- requests of other starters that wait for an entry -/
  waitingOther : List MaintAct := []
  scrub : Option Scrub := none
  deriving DecidableEq, Repr

/-- What no register shows of the HBM subsystem. -/
structure Hbm where
  /-- pseudo-channels by (die * 4 + stack) * 32 + pc -/
  chans : List (Nat × PseudoChannel) := []
  /-- last delivery of each controller, die * 4 + stack -/
  out : List (Nat × Delivered) := []
  /-- sectors that a severity report has called uncorrectable, by address / 32, until a whole-sector write (R375, R382) -/
  sevBad : List Nat := []
  /-- stack temperature in degrees, by die * 4 + stack -/
  temp : List (Nat × Nat) := []
  /-- stacks refreshed at twice the normal rate, and those with a change requested (R386, R387) -/
  fast : List Nat := []
  /-- 1 + temperature at each channel group's last calibration, by die * 16 + group -/
  calTemp : List (Nat × Nat) := []
  /-- channel groups out of service, die * 16 + group (R405) -/
  outGroups : List Nat := []
  arb0 : Arbiter := {}
  arb1 : Arbiter := {}
  deriving DecidableEq, Repr

/-! ## The capacity pool (spec/09) -/

/-- The three states of a frame in use, and free (R414, R415). -/
inductive FrameState where
  | free | resident | clean | dirty
  deriving DecidableEq, Repr

/-- A frame record (R415, R426, R464, R591). -/
structure FrameRec where
  st : FrameState := .free
  owner : Nat := 0
  pinned : Bool := false
  window : Bool := false
  prot : Bool := false
  quarantined : Bool := false
  moving : Bool := false
  big : Bool := false
  lastUse : Nat := 0
  /-- frame number of the lower copy of a cached frame -/
  lower : Option Nat := none
  vpage : Nat := 0
  tensor : Nat := 0
  policy : Nat := 0
  context : Bool := false
  /-- the copy the page belongs to: false row-blocked, true column-blocked -/
  colCopy : Bool := false
  copyBase : Nat := 0
  otherBase : Nat := 0
  kb : Nat := 0
  nb : Nat := 0
  tileBytes : Nat := 0
  stamp : Nat := 0
  homeDie : Nat := 0
  /-- sectors written since the quarantine began (R450) -/
  rewritten : List Nat := []
  deriving DecidableEq, Repr

/-- A frame request that waits (R424, R429). -/
structure FrameReq where
  owner : Nat
  tier : Nat
  die : Nat
  vpage : Nat
  /-- the chain that needs the frame, if one does -/
  chain : Option ChainRef
  deriving DecidableEq, Repr

/-- A move or write-back in progress (R428, R430). -/
structure Move where
  src : Nat
  dst : Nat
  owner : Nat
  /-- the frame is written back to its lower copy, not moved -/
  writeBack : Bool
  /-- the frame is a shelf frame of a hot-set owner, whose cached-clean copy the destination becomes (R454) -/
  fill : Bool := false
  /-- an eviction: counted when it is done -/
  evict : Bool
  /-- started by POOL_MOVE_CMD of this die -/
  cmdDie : Option Nat := none
  deriving DecidableEq, Repr

/-- A sector being rebuilt (R446): the failing sector, its counterpart, the package that holds it if not this one, the readers held. -/
structure Rebuild where
  sector : Nat
  counterpart : Nat
  pkg : Option Nat
  readers : List ChainRef
  deriving DecidableEq, Repr

/-- A quarantine record posted to the keeper (R452). -/
structure QuarRec where
  addr : Nat
  owner : Nat
  tensor : Nat
  /-- 0 UE, 1 rebuild failed, 2 tier lost -/
  cause : Nat
  beam : Nat
  deriving DecidableEq, Repr

/-- A stream plan of a running record on one die (R436 to R440): its window depth, the frames of its slots and of its landing area, the
entries fetched into the landing area, lifted into their slots, started and released, and the chains of each entry committed. -/
structure StreamPlan where
  die : Nat
  launch : Nat
  owner : Nat
  base : Nat
  w : Nat
  entries : Nat
  /-- frames of a slot and of the landing area -/
  size : Nat := 0
  slots : List (List Nat) := []
  landing : List Nat := []
  fetched : List Nat := []
  fetching : List Nat := []
  lifted : List Nat := []
  started : List Nat := []
  released : List Nat := []
  commits : List (Nat × Nat) := []
  lateCounted : List Nat := []
  deriving DecidableEq, Repr

/-- What no register shows of the pool. -/
structure Pool where
  /-- frame records by device physical address / 65,536 -/
  frames : List (Nat × FrameRec) := []
  waiting : List FrameReq := []
  moves : List Move := []
  rebuilds : List Rebuild := []
  quarPosts : List QuarRec := []
  /-- uncorrectable addresses posted to the pool manager (R381), oldest first -/
  uePosts : List Nat := []
  plans : List StreamPlan := []
  /-- the owner whose gallery set is in place, and a swap in progress, by die (R455, R456) -/
  setOwner : List (Nat × Nat) := []
  swapping : List (Nat × Nat) := []
  /-- invocations of swap-mode owners whose swap has not begun, by die and owner in launch order, and 1 + the revolution of each owner's last
  invocation (R455, R456) -/
  invoked : List (Nat × Nat) := []
  invokedRev : List (Nat × Nat) := []
  /-- the POOL_MOVE_CMD move of a die that waits: (die, tier, owner, page) -/
  cmdWait : List (Nat × Nat × Nat × Nat) := []
  /-- gallery frames retired whose contents are still to be moved, and their dies (R303) -/
  retiring : List (Nat × Nat) := []
  deriving DecidableEq, Repr

/-! ## Dictionary, fuses, order code -/

/-- The order codes of R2. -/
inductive OrderCode where
  | h384s19 | h288s19 | h384s17
  deriving DecidableEq, Repr

/-! ## Messages sent and traces staged (spec/10, 18) -/

/-- A message outstanding at its origin (R491, R492, R497): its number, whether it is a PUT or a GET_REQ, its target, and for a PUT its
bytes, for a GET what has arrived. -/
structure OriginMsg where
  die : Nat
  num : Nat
  get : Bool
  pkg : Nat
  window : Nat
  epoch : Nat
  /-- window offset in bytes -/
  offset : Nat
  bytes : List Byte := []
  length : Nat := 0
  owner : Nat := 0
  chain : Option ChainRef := none
  /-- the stage of the chain that waits for it, and for a GET the virtual address that its run begins at -/
  stage : Nat := 0
  dest : Nat := 0
  /-- header sent (R492: such a message is never interrupted), and sending of its lines stopped by REFUSE (R493) -/
  sent : Bool := false
  stopped : Bool := false
  aborted : Bool := false
  deriving DecidableEq, Repr

/-- A trace source (R833): up to 64 staged records, oldest first, and the loss not yet placed in staging: beam of the first and last
drop, and their count (R838). -/
structure TraceSrc where
  staged : List Words4 := []
  loss : Option (Nat × Nat × Nat) := none
  deriving DecidableEq, Repr

/-! ## Fabric links, windows and UCIe (spec/10, 14) -/

/-- A message to be sent: its header, its line segments, the bytes already packed into flits, and the number of the accepted GET_REQ
whose data it carries (R497). A resent line travels without a header (R499). -/
structure TxMsg where
  header : Option Words4
  lines : List LineSeg := []
  done : Nat := 0
  answers : Option Nat := none
  deriving DecidableEq, Repr

/-- A data flit in the retry buffer (R476): its payload, the headers of the messages that have bytes in it, how often it has been resent,
and whether it is to be sent again. -/
structure RetryFlit where
  seq : Nat
  vc : Nat
  payload : List Byte
  headers : List Words4
  resends : Nat := 0
  again : Bool := false
  deriving DecidableEq, Repr

/-- What a receiver knows of the message in progress on a VC: header bytes so far, and bytes left of its segments. -/
structure RxState where
  head : List Byte := []
  left : Nat := 0
  deriving DecidableEq, Repr

/-- A partner's capabilities (R481), latencies in 0.1 ns. -/
structure Capabilities where
  pkg : Nat
  link : Nat
  versions : Nat
  credits : List Nat
  txLatency : Nat
  rxLatency : Nat
  turnaround : Nat
  deriving DecidableEq, Repr

/-- A fabric link beyond its registers. -/
structure Link where
  nextSeq : Nat := 0
  expSeq : Nat := 0
  /-- a NAK for the expected SEQ has been sent (R475) -/
  nakSent : Bool := false
  /-- highest SEQ received in order, once there is one -/
  ack : Option Nat := none
  /-- credits held for sending, by VC, and credits to return, by VC (R473) -/
  credits : List Nat := [0, 0, 0, 0]
  owed : List Nat := [0, 0, 0, 0]
  /-- receive buffers in effect since the last EXCHANGE -/
  buffers : List Nat := [256, 256, 448, 64]
  /-- control flits to be sent, each a CTYPE and what follows it -/
  control : List (List Byte) := []
  /-- messages queued, by VC -/
  tx0 : List TxMsg := []
  tx1 : List TxMsg := []
  tx2 : List TxMsg := []
  tx3 : List TxMsg := []
  retry : List RetryFlit := []
  rx0 : RxState := {}
  rx1 : RxState := {}
  rx2 : RxState := {}
  rx3 : RxState := {}
  partner : Option Capabilities := none
  media : Nat := 0
  mediaFactor : Nat := 256
  echoSent : Nat := 0
  echoes : List Nat := []
  /-- the last flit sent: what the link's transmitter shows -/
  wire : List Byte := []
  deriving DecidableEq, Repr

/-- A message held at its source port or UCIe ingress for a route (R479, R519). -/
structure HeldMsg where
  die : Nat
  vc : Nat
  header : Words4
  lines : List LineSeg
  answers : Option Nat := none
  /-- it has been sent on by another die or package before -/
  forwarded : Bool := false
  deriving DecidableEq, Repr

/-- An accepted message of a window's epoch that has not landed, torn or been sent (R497, R500). -/
structure Landing where
  num : Nat
  die : Nat
  entry : Nat
  header : Words4
  get : Bool
  /-- the link it arrived on, none for one of the other die (R275) -/
  link : Option (Fin 16) := none
  /-- lines not yet written, or not yet read -/
  left : List Nat := []
  /-- ring windows: the slot filled -/
  slot : Option Nat := none
  /-- the status of a line that was not written -/
  status : Nat := 0
  deriving DecidableEq, Repr

/-- A window entry's epoch (R501, R505). -/
structure Epoch where
  accepted : Nat := 0
  torn : Nat := 0
  ringPuts : Nat := 0
  opened : Nat := 0
  deriving DecidableEq, Repr

/-- A header that waits for a ring slot, or behind such a header (R505). -/
structure RingWait where
  die : Nat
  link : Option (Fin 16)
  header : Words4
  lines : List LineTries
  deriving DecidableEq, Repr

/-- What no register shows of the links and windows. -/
structure Fabric where
  links : List (Nat × Link) := []
  held : List HeldMsg := []
  landings : List Landing := []
  landingNum : Nat := 0
  /-- window epochs by die * 512 + entry -/
  epochs : List (Nat × Epoch) := []
  ringWaits : List RingWait := []
  /-- messages of this package's dies to each other -/
  inbox : List TxMsg := []
  /-- dependency tokens to be set once the writes of a number have been accepted (R501, R603) -/
  signals : List (Nat × Nat) := []
  deriving DecidableEq, Repr

/-! ## Collectives (spec/11) -/

/-- What the pre-pass of exact mode delivers for a block of 256 elements (R532): E, none without a finite non-zero element, and the
non-finite bits per element. -/
structure BlockPre where
  e : Option Int := none
  nan : BitVec 256 := 0
  pinf : BitVec 256 := 0
  ninf : BitVec 256 := 0
  deriving DecidableEq, Repr

/-- A result of a reduction at its chunk's owner: index in the whole tensor, value, poison. -/
structure CollElem where
  index : Nat
  value : F32
  poison : Bool
  deriving DecidableEq, Repr

/-- A block of a sequence-ring traversal that waits to be placed in its external head ring (R552). -/
structure RingItem where
  slice : Nat
  lines : List LineSeg
  deriving DecidableEq, Repr

/-- A running collective command of a sequence (R521): its fields as read by R523, its group as it was at the issue, and its progress. -/
structure Coll where
  die : Nat
  cluster : Nat
  launch : Nat
  owner : Nat
  stepRev : Nat
  prog : Nat
  group : Nat
  opseq : Nat
  memberGen : Nat
  degree : Nat
  rank : Nat
  dirs : Bool
  op : Nat
  exact : Bool
  nfIn : Bool
  nfGate : Bool
  genMode : Nat
  bwd : Bool
  elems : Nat
  srcDesc : Nat
  dstDesc : Nat
  auxDesc : Nat
  pieceLines : Nat
  next : Nat
  root : Nat
  descTable : Nat
  ndesc : Nat
  addrA : Nat
  lsAddr : Nat
  genRec : Nat
  /-- the OR of the local flag and every NF bit received (R537, R538) -/
  nf : Bool := false
  /-- pieces dealt with, and how many there are to deal with before the commit point -/
  got : Nat := 0
  need : Nat := 0
  /-- results of the rank's own chunk so far -/
  results : List CollElem := []
  /-- exact mode: pre-pass results by block, and whether the data have been sent -/
  pre : List (Nat × BlockPre) := []
  dataSent : Bool := false
  lines : Nat := 0
  poison : Bool := false
  /-- RING: the step (R553, R554), blocks not yet placed, items placed -/
  step : Nat := 0
  place : List RingItem := []
  placed : Nat := 0
  /-- RING: the head ring, and its slots whose block is still to be forwarded (R552) -/
  ringAddr : Nat := 0
  tokenBase : Nat := 0
  hold : List Nat := []
  /-- RING: pieces of slices held, by slice * 2^24 + piece; accumulator pieces arrived, by step and half; items handed to placing -/
  kv : List (Nat × List LineSeg) := []
  acc : List (Nat × Nat) := []
  queued : Nat := 0
  /-- beam time since which the rank has waited for a peer (R836) -/
  waitFrom : Nat := 0
  /-- a stop or abort that waits for a step boundary (R557), and that boundary passed -/
  stop : Bool := false
  draining : Bool := false
  /-- REDUCE_SCATTER: the results of the rank's own chunk written (R528) -/
  wrote : Bool := false
  /-- an abort or a lost peer that met the rank past its commit point (R559, R625) -/
  late : Bool := false
  deriving DecidableEq, Repr

/-- A collective message accepted before its collective was issued here (R563). -/
structure EarlyPiece where
  die : Nat
  header : Words4
  lines : List LineSeg
  deriving DecidableEq, Repr

/-- What no register shows of the collective engines. -/
structure CollEngine where
  running : List Coll := []
  early : List EarlyPiece := []
  /-- collectives issued so far, by die * 256 + group (R563) -/
  issued : List (Nat × Nat) := []
  deriving DecidableEq, Repr

/-! ## The host interface (spec/14) -/

/-- An entry of the MSI-X table (R688, R694): message address, data, and the vector's mask bit. -/
structure MsixEntry where
  addr : Nat := 0
  data : Nat := 0
  masked : Bool := true
  deriving DecidableEq, Repr

/-- What no register shows of the host interface. -/
structure HostIf where
  /-- MSI-X table by vector -/
  msix : List (Nat × MsixEntry) := []
  /-- pending-bit array -/
  pba : List Nat := []
  /-- vectors within IRQ_HOLDOFF of their last message, and those that fired again in it -/
  holdoff : List Nat := []
  again : List Nat := []
  /-- MSI-X messages sent, oldest first -/
  sent : List Nat := []
  /-- a write of the work at hand to the host window has failed (R693) -/
  failed : Bool := false
  deriving DecidableEq, Repr

/-! ## Daymarks (spec/13) -/

/-- A page captured by a daymark, in list order (R631, R632). -/
structure DmPage where
  vpage : Nat
  cls : Nat
  /-- copied, and how: whether a line of it was poisoned, and its CRC (R646) -/
  copied : Bool := false
  poisoned : Bool := false
  crc : Nat := 0
  deriving DecidableEq, Repr

/-- A daymark that has taken effect and is not complete (R635 to R647). -/
structure Daymark where
  launch : Nat
  owner : Nat
  stepRev : Nat
  seq : Nat
  /-- device virtual address of its image slot -/
  image : Nat
  effect : Nat
  pages : List DmPage
  /-- the arbiter entry of each die's copier, while it is queued or running there -/
  entry0 : Option Nat := none
  entry1 : Option Nat := none
  deriving DecidableEq, Repr

/-- The page that a die's copier is copying: the daymark's launch record and the page's place in its list; whether as a first touch
(R642). -/
structure DmCopy where
  die : Nat
  launch : Nat
  page : Nat
  touch : Bool
  deriving DecidableEq, Repr

/-! ## Power and resets (spec/16) -/

/-- A die as its governor and droop detector see it. -/
structure PowerDie where
  /-- engines stopped by a mode change until MODE_CHANGE_RESUME (R759) -/
  paused : Bool := false
  /-- ACLK cycles left of a droop hold, and of the millisecond of longer ramps after a droop (R767) -/
  hold : Nat := 0
  longRamp : Nat := 0
  /-- intervals in a row in which the die's power stayed more than 5 % below its allowance (R764) -/
  below : Nat := 0
  /-- THERM_THROTTLE has been reached, and the die is not yet 2 °C below it (R770) -/
  hot : Bool := false
  deriving DecidableEq, Repr

/-- A stack as the governor and its controller's ramp see it: its admission cap in 2^-32 of peak (R764, R770), and the steps of a ramp
in progress, 8 at full rate (R768). -/
structure PowerStack where
  cap : Nat := 4294967296
  below : Nat := 0
  hot : Bool := false
  ramp : Nat := 8
  deriving DecidableEq, Repr

/-- What no register shows of power. -/
structure Power where
  die0 : PowerDie := {}
  die1 : PowerDie := {}
  /-- by die * 4 + stack -/
  perStack : List (Nat × PowerStack) := []
  /-- sum of the unused budgets of the previous interval, in mW (R764) -/
  unused : Nat := 0
  /-- dies whose stacks run at 7.2 Gb/s per pin (R757, R760) -/
  slow : List Nat := []
  /-- ACLK of the power mode in effect, in MHz, before throttling (R756, R759); 0 before a mode has been applied -/
  mhz : Nat := 0
  deriving DecidableEq, Repr

/-- A block reset between its idle request and its release (R780): the ACLK cycles since the idle request, and whether step 3 has run. -/
structure BlockReset where
  region : Bool
  number : Nat
  cycles : Nat := 0
  done : Bool := false
  deriving DecidableEq, Repr

/-- What no register shows of resets and of the release order. -/
structure Resets where
  /-- what holds the package in reset: POR_N low, PERST# asserted, a rail outside its window, a thermal trip with its limits -/
  porLow : Bool := false
  perst : Bool := false
  railBad : List Nat := []
  thermal : Bool := false
  /-- the level of the reset in progress or last taken (R775): 0 power-on, 1 system, 2 core -/
  level : Nat := 0
  /-- the step of the release order in progress, 11 once READY (R783) -/
  step : Nat := 1
  /-- a RESET_REQUEST that waits its 1 ms: 1 system, 2 core (R779) -/
  request : Option Nat := none
  /-- the watchdog has expired once without a service since (R778) -/
  wdogOnce : Bool := false
  /-- seconds since each critical-state reset of the last 3,600 s (R662), and the fatal state reported -/
  critAges : List Nat := []
  fatal : Bool := false
  /-- released in Harbour mode after a thermal trip, and POWER_MODE written since (R771) -/
  harbour : Bool := false
  rewritten : Bool := false
  blocks : List BlockReset := []
  /-- regions whose request waits for a cluster of theirs (R782) -/
  waiting : List Nat := []
  /-- the critical-state copy while a core reset is under way, as registers (R661) -/
  copy : List (Nat × Word) := []
  deriving DecidableEq, Repr

/-! ## The dictionary server and the mooring bus (spec/15) -/

/-- What the server keeps of a source (R725): its last sequence value and the response given, a whole PDU. -/
structure DictSession where
  transport : Transport
  id : Nat
  tag : Nat
  response : List Byte
  deriving DecidableEq, Repr

/-- A DOMAIN value being read or written in segments (R721): what has come so far, or for a read the value as its first segment found it
and the offset that comes next. -/
structure Assembly where
  transport : Transport
  id : Nat
  key : Nat
  write : Bool
  bytes : List Byte
  next : Nat
  deriving DecidableEq, Repr

/-- What no entry of the dictionary shows of the server and the mooring bus. -/
structure Mooring where
  sessions : List DictSession := []
  buffers : List Assembly := []
  /-- frames sent, as mooring payloads, oldest first, and the next SEQ -/
  sent : List (List Byte) := []
  seq : Nat := 0
  /-- the last dictionary response received -/
  answer : List Byte := []
  /-- beam time of the last fog accepted from each origin (R744) -/
  fogs : List (Nat × Nat) := []
  /-- beam time of the last fog originated, and fogs that wait for the next phase unit: KIND, CAUSE, OWNER_MASK (R741) -/
  fogBeam : Option Nat := none
  fogDue : List (Nat × Nat × Nat) := []
  /-- table updates handed to the dictionary transports for other packages (R656): package, value -/
  updates : List (Nat × List Byte) := []
  /-- writes that take effect at the next flash boundary or revolution boundary (R840, R713), oldest first: key, value -/
  due : List (Nat × Int) := []
  deriving DecidableEq, Repr

/-! ## Security and the package flash (spec/17, spec/14 R702 to R703) -/

/-- A copy of the persistent dictionary values (R732). -/
structure DictCopy where
  generation : Nat := 0
  crcGood : Bool := false
  values : List (Nat × Int) := []
  deriving DecidableEq, Repr

/-- The package flash: firmware slots A and B as bytes that differ from erased ones, the SVN that the boot directory names for each, a
staged slot to be tried first, the two dictionary copies, and the replay-protected store's current record (NEXT, RESERVED_END). -/
structure Flash where
  slotA : Bytes := []
  slotB : Bytes := []
  svnA : Nat := 0
  svnB : Nat := 0
  staged : Option Bool := none
  copyA : DictCopy := {}
  copyB : DictCopy := {}
  lms : Option (Nat × Nat) := none
  deriving DecidableEq, Repr

/-- A firmware update in progress (R797, R798): the slot written, the offset of the next chunk, and whether it awaits verification. -/
structure FwUpdate where
  slot : Bool
  next : Nat
  verifying : Bool := false
  deriving DecidableEq, Repr

/-- What no register or entry shows of the security core. -/
structure Security where
  /-- the first 256 bytes of the running image's header -/
  header : List Byte := []
  /-- the digest of the running image's payload (R806) -/
  payload : Nat := 0
  challenge : Option (BitVec 384) := none
  update : Option FwUpdate := none
  /-- SPDM endpoints with a session, the one idle longest first (R817) -/
  sessions : List Nat := []
  /-- last SPDM answer: the request's error code (0 none, 5 unspecified, 0x42 response not ready), the LMS index used, both signatures -/
  spdmError : Nat := 0
  spdmIndex : Nat := 0
  spdmEcdsa : List Byte := []
  spdmLms : List Byte := []
  /-- the measurement blocks that the last MEASUREMENTS response carried (R806) -/
  spdmBlocks : List (BitVec 384) := []
  /-- measurement block 5, recomputed at each write of what it covers (R807) -/
  block5 : Nat := 0
  /-- the fog of R816 has been raised since boot -/
  warned : Bool := false
  deriving DecidableEq, Repr

/-! ## UCIe and the keeper die (spec/14) -/

/-- A UCIe transaction as it was sent or delivered: port (die * 2, and 1 for the keeper port), header words, lines. -/
structure UcieMsg where
  port : Nat
  w0 : Word
  w1 : Word
  lines : List LineSeg
  deriving DecidableEq, Repr

/-- How a host access through a BAR completed: 0 success, 1 Unsupported Request, 2 Completer Abort; and a read's data, with its poison flag. -/
structure HostCompletion where
  status : Nat
  data : List Byte := []
  poison : Bool := false
  deriving DecidableEq, Repr

/-- What no register shows of UCIe and the keeper die. -/
structure Keeper where
  /-- responses sent over UCIe and not yet received -/
  responses : List UcieMsg := []
  /-- the last response delivered to a requester -/
  delivered : Option UcieMsg := none
  /-- event records received (R675): EVTYPE and line -/
  events : List (Nat × BitVec 1024) := []
  /-- the last host access through a BAR -/
  completion : Option HostCompletion := none
  /-- keeper SRAM, as the boot window writes it (R688) -/
  sram : Bytes := []
  /-- shelf memory mapped: the address above it, in 256 MiB from 0x0400_0000_0000 (R700) -/
  shelfTop : Nat := 0
  deriving DecidableEq, Repr

/-! ## The state -/

/-- The state of the package. -/
structure State where
  /-- the commands that wait, first in, first out -/
  pending : List Instr := []
  /-- registers, by block kind, unit, register and index; unlisted registers hold their reset value -/
  regs : List (Nat × Word) := []
  /-- device physical memory: HBM, galleries, cluster memories, shelf -/
  mem : List Host.Cell := []
  /-- lens buffers, engine * 2^21 + byte offset -/
  lens : Bytes := []
  /-- bytes of on-package SRAM whose check bit fails, by site key (R281) -/
  badCheck : List Nat := []
  /-- HBM sectors whose stored check symbols differ from those of their data, with the difference (R371, R373) -/
  hbmDelta : List (Nat × BitVec 16) := []
  /-- 32-byte sectors of SRAM lines and of shelf memory that carry the poison flag, by address / 32 (R283, R434) -/
  poison : List Nat := []
  engines : List (Nat × Engine) := []
  chains : List Chain := []
  seqs : List Seq := []
  reruns : List RerunUnit := []
  /-- checkpoints whose regeneration has been tried in the present step: launch, producing region, tensor (R234) -/
  regens : List (Nat × Nat × Nat) := []
  sram : Sram := {}
  hbm : Hbm := {}
  pool : Pool := {}
  beam : Beam := {}
  /-- numeric dictionary entries, by key; unlisted entries hold their defaults -/
  dict : List (Nat × Int) := []
  /-- DOMAIN and STRING entries, by key; unlisted entries are empty -/
  dictBytes : List (Nat × List Byte) := []
  /-- the fuse array (R801) -/
  fuses : BitVec 4096 := 0#4096
  /-- the part's order code (R2) -/
  order : OrderCode := .h384s19
  /-- suffix -L of the order code: the package has the cold-plate lid (R1, R7) -/
  lid : Bool := false
  /-- writes that wait for a first-touch copy, in order of arrival (R642, R643) -/
  heldWrites : List HeldWrite := []
  /-- messages outstanding at this package (R492) -/
  sentMsgs : List OriginMsg := []
  /-- number of the next message of each die's window engine -/
  msgNum : List (Nat × Nat) := []
  /-- trace sources, die * 256 + source (R834) -/
  trace : List (Nat × TraceSrc) := []
  fabric : Fabric := {}
  coll : CollEngine := {}
  host : HostIf := {}
  daymarks : List Daymark := []
  copying : List DmCopy := []
  /-- restores in progress: die, owner, image (R651) -/
  restores : List (Nat × Nat × Nat) := []
  power : Power := {}
  resets : Resets := {}
  mooring : Mooring := {}
  flash : Flash := {}
  security : Security := {}
  keeper : Keeper := {}
  /-- ACLK cycles since the last flash boundary (R154) -/
  cyc : Nat := 0
  /-- free values drawn so far: the MODEL's own field, not the spec's (log entry 10) -/
  free : Nat := 0
  deriving DecidableEq, Repr

/-- The machine right after reset: every register at its reset value, every memory empty, nothing queued. -/
def State.reset : State := {}

end Sys2Proof.Machine
end

