-- ==== Sys2Proof/Machine/Ops.lean ====
section
/-!
DEFINITION. The named operations over the state: registers and their fields, dictionary values, unit numbers, memory by physical
region, the outer code, translation, and the effects a write has on the frame it lands in.
-/
namespace Sys2Proof.Machine

/-! ## Registers -/

/-- The place of a register in the register map: no register has 128 units or 8,192 indices. -/
def regKey (r : Reg) (u i : Nat) : Nat := (r.ctorIdx * 128 + u % 128) * 8192 + i % 8192

/-- A register of unit `u`, index `i`. -/
def State.rd (s : State) (r : Reg) (u : Nat) (i : Nat := 0) : Word :=
  lookupD (regReset r i) (regKey r u i) s.regs

def State.wr (s : State) (r : Reg) (u : Nat) (i : Nat) (v : Word) : State :=
  { s with regs := putD (regReset r i) (regKey r u i) v s.regs }

/-- Bits `[lo, lo + w)` of a word as a number. -/
def bitsOf (x : Word) (lo w : Nat) : Nat := x.toNat / 2 ^ lo % 2 ^ w

/-- A word with bits `[lo, lo + w)` replaced. -/
def withBits (x : Word) (lo w v : Nat) : Word :=
  BitVec.ofNat 64 (x.toNat - bitsOf x lo w * 2 ^ lo + v % 2 ^ w * 2 ^ lo)

def bitOf (x : Word) (k : Nat) : Bool := bitsOf x k 1 == 1

/-- A field of a register. -/
def State.fld (s : State) (f : Field) (u : Nat) (i : Nat := 0) : Nat := bitsOf (s.rd f.reg u i) f.lo f.width

def State.setFld (s : State) (f : Field) (u : Nat) (i : Nat) (v : Nat) : State :=
  s.wr f.reg u i (withBits (s.rd f.reg u i) f.lo f.width v)

/-- R22: a write of a register stores its RW bits and leaves the others. -/
def State.storeReg (s : State) (r : Reg) (u i : Nat) (v : Word) : State :=
  let rw := BitVec.ofNat 64 (regInfo r).rw
  s.wr r u i ((s.rd r u i &&& ~~~rw) ||| (v &&& rw))

/-- A counter adds and wraps at 2^64 (R160). -/
def State.bump (s : State) (r : Reg) (u : Nat) (i : Nat) (n : Nat) : State :=
  s.wr r u i (s.rd r u i + BitVec.ofNat 64 n)

/-- A counter of both dies' units. -/
def State.bumpBoth (s : State) (r : Reg) (n : Nat) : State := (s.bump r 0 0 n).bump r 1 0 n

/-- A Boolean as a field value. -/
def b2n (b : Bool) : Nat := if b then 1 else 0

/-! ## Dictionary -/

/-- A numeric dictionary entry, by key. -/
def State.dget (s : State) (k : Nat) : Int := lookupD (dictDefault (k / 256) (k % 256)) k s.dict

def State.dnat (s : State) (k : Nat) : Nat := (s.dget k).toNat

def State.dput (s : State) (k : Nat) (v : Int) : State :=
  { s with dict := putD (dictDefault (k / 256) (k % 256)) k v s.dict }

/-- A dictionary counter adds one; it wraps at 2^64 (R748). -/
def State.dbump (s : State) (k : Nat) : State := s.dput k ((s.dget k + 1) % 2 ^ 64)

def State.dbytes (s : State) (k : Nat) : List Byte := lookupD [] k s.dictBytes

def State.dputBytes (s : State) (k : Nat) (bs : List Byte) : State :=
  { s with dictBytes := putD [] k bs s.dictBytes }

/-! ## Unit numbers (R10 to R15) -/

/-- R15: a packed engine ID with cluster value 3 is read with cluster value 2. -/
def clampPacked (p : Nat) : Nat := if p / 4 % 4 = 3 then p - 4 else p

/-- R10, R13: the global engine index of a packed ID. -/
def engIndex (p : Nat) : Nat :=
  let q := clampPacked p
  q / 64 % 2 * 48 + q / 16 % 4 * 12 + q / 4 % 4 * 4 + q % 4

/-- The packed ID of a global engine index. -/
def engPacked (e : Nat) : Nat := e / 48 * 64 + e / 12 % 4 * 16 + e / 4 % 3 * 4 + e % 4

def engCluster (e : Nat) : Nat := e / 4
def engRegion (e : Nat) : Nat := e / 12
def engDie (e : Nat) : Nat := e / 48
def cluDie (c : Nat) : Nat := c / 12
def cluRegion (c : Nat) : Nat := c / 3

def EngIdIdx (e : EngId) : Nat := engIndex e.toNat

/-- The descriptor clamp counter of a cluster (R312). -/
def State.clamped (s : State) (cluster n : Nat) : State := if n = 0 then s else s.bump .cluDescClampCnt cluster 0 n

/-! ## Engines -/

def State.eng (s : State) (e : Nat) : Engine := lookupD {} e s.engines

def State.setEng (s : State) (e : Nat) (x : Engine) : State := { s with engines := putD {} e x s.engines }

/-! ## Beam time (R569, R20) -/

/-- Beam time: revolution in the upper, phase in the lower 32 bits. -/
def State.beamNow (s : State) : Nat := s.beam.counter.toNat / 2 ^ 32

def State.revolution (s : State) : Nat := s.beamNow / 2 ^ 32

/-- The last-use stamp of R426: revolution and flash. -/
def State.stampNow (s : State) : Nat := s.beamNow / 2 ^ 20

/-! ## Physical address space (R3, R266, R267, R369, R412, R761) -/

/-- What a device physical address names; host memory through the host window of R692 included. -/
inductive Phys where
  | hbm (die : Nat)
  | gallery (die off : Nat)
  | cluster (c off : Nat)
  | shelf
  | host (off : Nat)
  | config (off : Nat)
  | hole
  deriving DecidableEq, Repr

/-- Populated HBM per die (R2, R3), and in Harbour mode of die 0 alone (R761). -/
def hbmPerDie (o : OrderCode) (harbour : Bool) : Nat :=
  match o with
  | .h288s19 => if harbour then 0x12_0000_0000 else 0x24_0000_0000
  | _ => if harbour then 0x18_0000_0000 else 0x30_0000_0000

/-- DRAM dies in a stack (R2). -/
def stackHeight (o : OrderCode) : Nat :=
  match o with
  | .h288s19 => 12
  | _ => 16

/-- Whether the package runs in Harbour mode. -/
def State.harbour (s : State) : Bool := s.fld pwrStatusMode 0 == 2

def dieHbmBase (die : Nat) : Nat := die * 0x30_0000_0000
def galleryBase (die : Nat) : Nat := 0x80_0000_0000 + die * 0x1000_0000
def clusterBase (c : Nat) : Nat := 0x81_0000_0000 + c * 0x100_0000
def shelfBase : Nat := 0x400_0000_0000
def configBase : Nat := 0xFF_0000_0000
def hostBase : Nat := 0x800_0000_0000

def State.phys (s : State) (pa : Nat) : Phys :=
  let harb := s.harbour
  if pa < 0x60_0000_0000 then
    let die := if pa < 0x30_0000_0000 then 0 else 1
    if pa - dieHbmBase die < hbmPerDie s.order harb && (die == 0 || !harb) then .hbm die else .hole
  else if 0x80_0000_0000 ≤ pa ∧ pa < 0x80_2000_0000 then
    let die := (pa - 0x80_0000_0000) / 0x1000_0000
    let off := pa % 0x1000_0000
    if off < 0xC00_0000 && (die == 0 || !harb) then .gallery die off else .hole
  else if 0x81_0000_0000 ≤ pa ∧ pa < 0x81_1800_0000 then
    let c := (pa - 0x81_0000_0000) / 0x100_0000
    let off := pa % 0x100_0000
    if off < 0xC0_0000 && (decide (c < 12) || !harb) then .cluster c off else .hole
  else if shelfBase ≤ pa ∧ pa < shelfBase + s.dnat dkPoolShelfFrames * 65536 then .shelf
  else if 0xFF_0000_0000 ≤ pa ∧ pa < 0x100_0000_0000 then .config (pa - configBase)
  else if hostBase ≤ pa ∧ pa < 0xC00_0000_0000 then .host (pa - hostBase)
  else .hole

/-- R803: whether an address lies in a firmware-reserved range of the fuses. -/
def inReserved (fuses : BitVec 4096) (pa : Nat) : Bool :=
  (List.range 4).any fun k =>
    let r := fuses.toNat / 2 ^ (1896 + 64 * k) % 2 ^ 64
    let base := r % 2 ^ 27 * 2 ^ 21
    let n := r / 2 ^ 27 % 2 ^ 26 * 2 ^ 21
    decide (base ≤ pa) && decide (pa < base + n)

/-- The tier of R445 an address belongs to: 0 gallery, 1 HBM, 2 shelf. -/
def State.tierOf (s : State) (pa : Nat) : Nat :=
  match s.phys pa with
  | .hbm _ => 1
  | .shelf => 2
  | _ => 0

/-- The controller (die * 4 + stack) and the pseudo-channel of an HBM address (R369, R761). -/
def hbmPlace (harbour : Bool) (pa : Nat) : Nat × Nat :=
  if harbour then (pa / 4096 % 2, pa / 128 % 32)
  else
    let die := if pa < 0x30_0000_0000 then 0 else 1
    let d := pa - dieHbmBase die
    (die * 4 + d / 4096 % 4, d / 128 % 32)

/-- The controller's bank index of an HBM address (R369). -/
def hbmBank (harbour : Bool) (pa : Nat) : Nat :=
  let die := if pa < 0x30_0000_0000 then 0 else 1
  let d := pa - dieHbmBase die
  let p := (if harbour then d / 2 ^ 13 else d / 2 ^ 14) * 128 + d % 128
  let q := p % 0x1800_0000
  p / 0x1800_0000 * 16 + ((q / 1024 % 16) ^^^ (q / 16384 % 16))

/-- The channel group of an HBM address, within its die (R370). -/
def hbmGroup (harbour : Bool) (pa : Nat) : Nat :=
  let p := hbmPlace harbour pa
  p.1 % 4 * 4 + p.2 / 8

/-! ## The outer code (R371 to R378) -/

/-- Doubling in GF(2^8) with field polynomial 0x11D. -/
def gfDouble (a : Nat) : Nat := if a < 128 then 2 * a else (2 * a) ^^^ 0x11D

/-- Product in GF(2^8), bit by bit of `b` from its lowest. -/
def gfMulBits : Nat → Nat → Nat → Nat
  | 0, _, _ => 0
  | n + 1, a, b => (if b % 2 = 1 then a else 0) ^^^ gfMulBits n (gfDouble a) (b / 2)

def gfMul (a b : Nat) : Nat := gfMulBits 8 a b

/-- α^j. -/
def gfPow : Nat → Nat
  | 0 => 1
  | n + 1 => gfDouble (gfPow n)

/-- R371: symbol `p` of a sector: bit b of the symbol is bit 32 b + p of the sector. -/
def symbolOf (d : BitVec 256) (p : Nat) : Nat :=
  (List.range 8).foldl (fun acc b => acc + (if d.getLsbD (32 * b + p) then 2 ^ b else 0)) 0

/-- The sector with the bits of `e` XORed into symbol `p`. -/
def xorSymbol (d : BitVec 256) (p e : Nat) : BitVec 256 :=
  (List.range 8).foldl
    (fun acc b => if e / 2 ^ b % 2 = 1 then acc ^^^ (1#256 <<< (32 * b + p)) else acc) d

/-- R373: the check symbols of a sector, c1 * 256 + c0. The remainder's two symbols follow from c(1) = c(α) = 0. -/
def checkSymbols (d : BitVec 256) : BitVec 16 :=
  let ps := List.range 32
  let d0 := ps.foldl (fun acc p => acc ^^^ symbolOf d p) 0
  let d1 := ps.foldl (fun acc p => acc ^^^ gfMul (symbolOf d p) (gfPow (p + 2))) 0
  let c1 := gfMul (d0 ^^^ d1) 0xF4
  BitVec.ofNat 16 (c1 * 256 + (c1 ^^^ d0))

/-- What a read of a sector finds (R374, R378). -/
inductive Decoded where
  | clean
  | corrected (pos : Nat) (value : Nat)
  | mark
  | uncorrectable
  deriving DecidableEq, Repr

/-- R374: the decoding of a sector whose stored check symbols differ by `delta` from those of its stored data. The syndromes of such
a word are those of the difference alone. -/
def decodeDelta (delta : BitVec 16) : Decoded :=
  let c0 := delta.toNat % 256
  let c1 := delta.toNat / 256
  let s0 := c0 ^^^ c1
  let s1 := gfMul c1 2 ^^^ c0
  if s0 = 0 ∧ s1 = 0 then .clean
  else if s0 = 3 ∧ s1 = 0 then .mark
  else if s0 = 0 ∨ s1 = 0 then .uncorrectable
  else
    match (List.range 34).find? (fun j => gfMul s0 (gfPow j) == s1) with
    | some j => .corrected j s0
    | none => .uncorrectable

/-- R378: the difference that makes a poison mark. -/
def markDelta : BitVec 16 := 0x0102#16

/-! ## Message-signalled interrupts (R694) -/

def State.msix (s : State) (v : Nat) : MsixEntry := lookupD {} v s.host.msix

/-- One MSI-X message sent, or held pending by the PCIe mask rules. -/
def State.sendIrq (s : State) (v : Nat) : State :=
  if (s.msix v).masked then { s with host := { s.host with pba := setInsert v s.host.pba } }
  else
    let hold := s.dnat dkIrqHoldoff != 0
    { s with host := { s.host with sent := s.host.sent ++ [v], holdoff := if hold then setInsert v s.host.holdoff else s.host.holdoff } }

/-- R694: a vector is raised; within the holdoff of its last message it waits for the holdoff's end. -/
def State.raiseIrq (s : State) (v : Nat) : State :=
  if s.host.holdoff.contains v then { s with host := { s.host with again := setInsert v s.host.again } } else s.sendIrq v

/-! ## Bytes of memory -/

/-- A byte of device physical memory as stored. -/
def State.rdByte (s : State) (pa : Nat) : Byte := lookupD 0#8 pa s.mem

def State.wrByte (s : State) (pa : Nat) (b : Byte) : State := { s with mem := putD 0#8 pa b s.mem }

def State.rdBytes (s : State) (pa n : Nat) : List Byte := (List.range n).map fun k => s.rdByte (pa + k)

/-- The 256 bits of a sector as stored. -/
def State.rdSector (s : State) (pa : Nat) : BitVec 256 := BitVec.ofNat 256 (natOfBytes (s.rdBytes (pa / 32 * 32) 32))

/-- The check-symbol difference of the sector that holds an address. -/
def State.deltaAt (s : State) (pa : Nat) : BitVec 16 := lookupD 0#16 (pa / 32) s.hbmDelta

/-- A byte as a controller delivers it: a correctable sector corrected (R379), any other as stored (R381). -/
def State.memByte (s : State) (pa : Nat) : Byte :=
  let delta := s.deltaAt pa
  if delta = 0#16 then s.rdByte pa
  else
    match decodeDelta delta with
    | .corrected j v =>
      if 2 ≤ j then
        let d := xorSymbol (s.rdSector pa) (j - 2) v
        BitVec.ofNat 8 (d.toNat / 2 ^ (8 * (pa % 32)))
      else s.rdByte pa
    | _ => s.rdByte pa

def State.memBytes (s : State) (pa n : Nat) : List Byte := (List.range n).map fun k => s.memByte (pa + k)

/-- A little-endian 64-bit word of memory. -/
def State.memWord (s : State) (pa : Nat) : Word := BitVec.ofNat 64 (natOfBytes (s.memBytes pa 8))

/-! ## Frames (R412, R415) -/

def State.frame (s : State) (n : Nat) : FrameRec := lookupD {} n s.pool.frames

def State.setFrame (s : State) (n : Nat) (f : FrameRec) : State :=
  { s with pool := { s.pool with frames := putD {} n f s.pool.frames } }

/-- The die a frame number lies on (a shelf frame: its home die, R464). -/
def State.frameDie (s : State) (n : Nat) : Nat :=
  match s.phys (n * 65536) with
  | .hbm d => d
  | .gallery d _ => d
  | .cluster c _ => cluDie c
  | _ => (s.frame n).homeDie

/-- Whether the host window is enabled (R692). -/
def State.hostOn (s : State) : Bool := s.fld keepHostwinEn 0 == 1

/-- Whether the check symbols of an HBM sector show an uncorrectable error or a poison mark (R378, R381). -/
def State.deltaBad (s : State) (sector : Nat) : Bool :=
  match decodeDelta (s.deltaAt (sector * 32)) with
  | .mark => true
  | .uncorrectable => true
  | _ => false

/-- Whether a read of an HBM sector finds an uncorrectable error or a poison mark (R378, R381, R382). -/
def State.sectorBad (s : State) (sector : Nat) : Bool := s.hbm.sevBad.contains sector || s.deltaBad sector

/-- Whether the line of an address is delivered with the poison flag (R381, R382, R434, R449, R693). -/
def State.poisonAt (s : State) (pa : Nat) : Bool :=
  (s.frame (pa / 65536)).quarantined ||
  (match s.phys pa with
   | .hbm _ => s.sectorBad (pa / 32)
   | .host _ => !s.hostOn || s.poison.contains (pa / 32)
   | _ => s.poison.contains (pa / 32))

/-- A key for a byte of on-package SRAM in `badCheck` (R281): lens bytes above 2^48. -/
def siteKey (site : SramSite) : Nat :=
  match site with
  | .lens e off => 2 ^ 48 + EngIdIdx e * 2 ^ 21 + off.toNat
  | .cluster c off => clusterBase c.val + off.toNat
  | .gallery d off => galleryBase d.val + off.toNat
  | .hbm addr => addr.toNat

/-- The whole sectors of a run of bytes, as numbers within their frame. -/
def wholeSectors (pa n : Nat) : List Nat :=
  (List.range ((pa + n) / 32 - (pa + 31) / 32)).map fun k => ((pa + 31) / 32 + k) % 2048

/-- The tier of a frame: 0 gallery, 1 HBM, 2 shelf. -/
def State.frameTier (s : State) (n : Nat) : Nat := s.tierOf (n * 65536)

/-- POOL_OWNER_USE of an owner on both dies, and its HBM_HELD (R461, R463). -/
def State.showUse (s : State) (owner : Nat) : State :=
  let cnt (tier die : Nat) : Nat := s.pool.frames.countP fun p =>
    p.2.owner == owner && p.2.st != .free && s.frameTier p.1 == tier && s.frameDie p.1 == die
  let put (s : State) (die : Nat) : State :=
    s.wr .poolOwnerUse die owner
      (BitVec.ofNat 64 (cnt 0 die % 2 ^ 12 + cnt 1 die % 2 ^ 22 * 2 ^ 12 + cnt 2 die % 2 ^ 27 * 2 ^ 34))
  (put (put s 0) 1).dput (dkHbmHeld owner) ((cnt 1 0 + cnt 1 1) / 16 : Nat)

/-- A frame leaves its owner and is free. -/
def State.freeFrame (s : State) (n : Nat) : State :=
  let o := (s.frame n).owner
  (s.setFrame n {}).showUse o

/-- A move, fill or write-back of a frame is cancelled: counted, its destination free again, and POOL_MOVE_CMD's reads cancelled (R431,
R435). -/
def State.cancelMove (s : State) (m : Move) : State :=
  let s := s.bump .poolMoveCancelCnt (s.frameDie m.src) 0 1
  let s := { s with pool := { s.pool with moves := s.pool.moves.filter fun x => !(x.src == m.src) } }
  let s := s.setFrame m.src { s.frame m.src with moving := false }
  let s := if m.writeBack then s else s.freeFrame m.dst
  match m.cmdDie with
  | some d => (s.setFld poolMoveStatusBusy d 0 0).setFld poolMoveStatusResult d 0 2
  | none => s

/-- What a write does to the frame it lands in: last use (R426), a cached-clean frame becomes dirty (R415), a move or write-back of it
is cancelled (R431), a quarantine ends once every sector has been written (R450). -/
def State.touchWrite (s : State) (pa len : Nat) : State :=
  let n := pa / 65536
  let f := s.frame n
  if f.st = .free then s
  else
    let s := match s.pool.moves.find? fun m => m.src == n with
      | some m => s.cancelMove m
      | none => s
    let f := s.frame n
    let rew := if f.quarantined then (wholeSectors pa len).foldl (fun l k => setInsert k l) f.rewritten else []
    let past := f.quarantined && rew.length == 2048
    s.setFrame n { f with
      st := if f.st = .clean then .dirty else f.st
      lastUse := s.stampNow
      quarantined := f.quarantined && !past
      rewritten := if past then [] else rew }

/-- What a read does to the frame: its last-use stamp (R426). -/
def State.touchRead (s : State) (pa : Nat) : State :=
  let n := pa / 65536
  let f := s.frame n
  if f.st = .free then s else s.setFrame n { f with lastUse := s.stampNow }

/-- What a merge leaves of a sector before its new bytes: the data as read, corrected where the sector is correctable (R377, R379, R690),
with fresh check symbols. A sector that is uncorrectable or marked keeps its error: only a whole-sector write replaces it (R382). -/
def State.mergeSector (s : State) (sector : Nat) : State :=
  if s.deltaAt (sector * 32) = 0#16 ∨ s.deltaBad sector = true then s
  else
    { s with
      mem := putRun 0#8 (sector * 32) (s.memBytes (sector * 32) 32) s.mem
      hbmDelta := eraseAt sector s.hbmDelta }

/-- The sectors that a run of bytes covers in part are read for the merge. -/
def State.mergeEnds (s : State) (pa n : Nat) : State :=
  let s := if pa % 32 = 0 then s else s.mergeSector (pa / 32)
  if (pa + n) % 32 = 0 then s else s.mergeSector ((pa + n) / 32)

/-- A list of sectors without those of a run of bytes that the run covers whole. -/
def clearWhole (pa n : Nat) (l : List Nat) : List Nat := setClear ((pa + 31) / 32) ((pa + n) / 32 - (pa + 31) / 32) l

/-- A write-back of any of the sectors of a run dropped from the queues (R379). -/
def State.dropWritebacks (s : State) (lo n : Nat) : State :=
  { s with hbm := { s.hbm with chans := s.hbm.chans.map fun p =>
      (p.1, { p.2 with queue := p.2.queue.filter fun r => !(r.wb && decide (lo ≤ r.addr / 32) && decide (r.addr / 32 < lo + n)) }) } }

/-- R377, R379, R281, R382, R690: bytes stored at a device physical address. In HBM a sector covered in part is read, merged and written
whole, and one covered whole is left with fresh check symbols; a queued write-back of a sector touched is dropped; in SRAM the bytes get
valid check bits; the poison flags of the sectors go. -/
def State.putRaw (s : State) (pa : Nat) (bs : List Byte) : State :=
  let lo := pa / 32
  let n := (pa + bs.length + 31) / 32 - lo
  let s := (s.mergeEnds pa bs.length).dropWritebacks lo n
  { s with
    mem := putRun 0#8 pa bs s.mem
    hbmDelta := clearRange ((pa + 31) / 32) ((pa + bs.length) / 32 - (pa + 31) / 32) s.hbmDelta
    poison := setClear lo n s.poison
    badCheck := setClear pa bs.length s.badCheck
    hbm := { s.hbm with sevBad := clearWhole pa bs.length s.hbm.sevBad } }

/-- R584: the sectors of the characteristic table that a write reaches, noted for the record states. -/
def State.touchTable (s : State) (pa n : Nat) : State :=
  let base := s.fld beamTableBase 0 * 2 ^ 18
  if pa < base + 262144 ∧ base < pa + n then
    let lo := max base pa
    let hi := min (base + 262144) (pa + n)
    let secs := (List.range ((hi - 1) / 32 + 1 - lo / 32)).map fun k => (lo / 32 + k) * 32 - base
    { s with beam := { s.beam with touched := s.beam.touched ++ secs.map fun o => (o / 64, decide (32 ≤ o % 64), s.beamNow) } }
  else s

/-- Bytes written by an access: stored, with the effects of a write on their frame (R415, R426, R431, R450) and on the characteristic
table (R584). -/
def State.putMem (s : State) (pa : Nat) (bs : List Byte) : State :=
  if bs = [] then s else ((s.putRaw pa bs).touchWrite pa bs.length).touchTable pa bs.length

/-- Whether nothing is populated at an address. -/
def State.isHole (s : State) (pa : Nat) : Bool :=
  match s.phys pa with
  | .hole => true
  | _ => false

/-- Whether a write at an address fails at the host window (R693). -/
def State.hostFails (s : State) (pa : Nat) : Bool :=
  match s.phys pa with
  | .host _ => !s.hostOn
  | _ => false

/-! ## Access slots (R264, R265, R271 to R277) -/

/-- The cluster-memory bank of an offset (R264). -/
def clusterBankOf (off : Nat) : Nat := (off / 128 % 8) ^^^ (off / 1024 % 8)

/-- The gallery bank of an offset (R265). -/
def galBankOf (off : Nat) : Nat := (off / 128 % 64) ^^^ (off / 8192 % 64)

/-- The die a requester stands on; the keeper die is neither. -/
def Requester.die (r : Requester) : Option Nat :=
  match r with
  | .engine e => some (engDie e)
  | .dma c => some (cluDie c)
  | .gather c => some (cluDie c)
  | .hbm ctl => some (ctl / 4)
  | .link l => some (l / 8)
  | .ucie die => some die
  | .coll die => some die
  | .maint die => some die
  | .keeper => none

/-- The gallery port by which a requester enters (R275): one of the other die by UCIe. -/
def Requester.port (r : Requester) (die : Nat) : Nat :=
  match r with
  | .keeper => 13
  | _ =>
    if r.die ≠ some die then 12
    else match r with
      | .engine e => engRegion e % 4
      | .dma c => cluRegion c % 4
      | .gather c => cluRegion c % 4
      | .hbm ctl => 4 + ctl % 4
      | .link l => 8 + l % 8 / 2
      | .coll _ => 14
      | .maint _ => 15
      | _ => 12

/-- The requester of a cluster-memory bank as which a requester is served (R274): one that is none of the cluster's own six as its DMA (log
entry 80). -/
def Requester.rank (r : Requester) (cluster : Nat) : Nat :=
  match r with
  | .engine e => if engCluster e = cluster then e % 4 else 4
  | .gather c => if c = cluster then 5 else 4
  | _ => 4

/-- GAL_BANK_CAP.CAP as read: 1 to 16. -/
def State.bankCap (s : State) (die : Nat) : Nat := min 16 (max 1 (s.fld galBankCapCap die))

def State.galBank (s : State) (die bank : Nat) : GalBank := lookupD {} (die * 64 + bank) s.sram.banks

def State.setGalBank (s : State) (die bank : Nat) (b : GalBank) : State :=
  { s with sram := { s.sram with banks := putD {} (die * 64 + bank) b s.sram.banks } }

/-- Whether a port is at its cap in a bank's queue (R276). -/
def galCapped (cap : Nat) (q : List GalRequest) (r : GalRequest) : Bool := decide (cap ≤ q.countP fun x => x.port == r.port)

/-- Whether a request may enter a bank's queue (R276). -/
def galFits (cap : Nat) (q : List GalRequest) (r : GalRequest) : Bool := decide (q.length < 16) && !galCapped cap q r

/-- A request for a slot of a gallery bank: queued, or held at its port, and counted where the port is at its cap (R276). -/
def State.galEnter (s : State) (die bank : Nat) (r : GalRequest) : State :=
  let b := s.galBank die bank
  let cap := s.bankCap die
  if galFits cap b.queue r && !b.held.any (·.port == r.port) then s.setGalBank die bank { b with queue := b.queue ++ [r] }
  else
    (if galCapped cap b.queue r then s.bump .galCapHoldCnt die 0 1 else s).setGalBank die bank { b with held := b.held ++ [r] }

/-- A request for a slot of a cluster-memory bank. -/
def State.cluEnter (s : State) (cluster bank rank : Nat) : State :=
  let key := (cluster * 8 + bank) * 6 + rank
  { s with sram := { s.sram with wants := putD 0 key (lookupD 0 key s.sram.wants + 1) s.sram.wants } }

/-- An access of a run of bytes takes one slot for each 128-byte line it touches (R271, R272). -/
def State.useSlots (s : State) (a : Access) (pa n : Nat) : State :=
  let lines := fun off => (List.range ((off + n + 127) / 128 - off / 128)).map fun k => (off / 128 + k) * 128
  match s.phys pa with
  | .cluster c off => (lines off).foldl (fun s o => s.cluEnter c (clusterBankOf o) (a.unit.rank c)) s
  | .gallery d off =>
    (lines off).foldl (fun s o => s.galEnter d (galBankOf o) { port := a.unit.port d, owner := a.owner, who := a.who }) s
  | _ => s

/-! ## HBM controllers (R374 to R385) -/

/-- The first error since VALID was cleared, and OVERFLOW after it. -/
def State.logFirst (s : State) (r : Reg) (u : Nat) (v ovf : Nat) (w : Nat) : State :=
  if bitOf (s.rd r u) v then s.wr r u 0 (withBits (s.rd r u) ovf 1 1)
  else s.wr r u 0 (BitVec.ofNat 64 (w + 2 ^ v + bitsOf (s.rd r u) ovf 1 * 2 ^ ovf))

/-- OWNER_CHAIN of the parity logs: owner and launch record of the work charged (R287, R306). -/
def Access.charge (a : Access) : Nat :=
  (a.owner % 64 + (match a.who with
    | some w => w.chain.launch.toNat
    | none => 0) * 64) * 2 ^ 32

/-- A read of cluster memory or of the gallery that fails parity, by a REQ or a PORT, counted and logged (R286, R306). The slot of a gallery
row is numbered by the offset (log entry 84). -/
def State.logParityAt (s : State) (pa req charge : Nat) : State :=
  match s.phys pa with
  | .cluster c off => (s.bump .cluMemParityCnt c 0 1).logFirst .cluMemParityLog c 31 30 (off + req % 8 * 2 ^ 24 + charge)
  | .gallery d off =>
    let bank := galBankOf off
    let s := s.bump .galParityCnt d 0 1
    let s := s.setFld galBankStateParityErrs d bank (min 0xFFFFFFFF (s.fld galBankStateParityErrs d bank + 1))
    s.logFirst .galRowErrLog d 31 30
      (bank + off / 65536 % 4096 * 2 ^ 6 + off / 128 % 512 / 64 * 2 ^ 18 + req % 16 * 2 ^ 21)
  | _ => s

/-- The same for an access, whose requester says REQ or PORT. -/
def State.logParity (s : State) (a : Access) (pa : Nat) : State :=
  s.logParityAt pa (match s.phys pa with
    | .cluster c _ => a.unit.rank c
    | .gallery d _ => a.unit.port d
    | _ => 0) a.charge

/-- A read of an engine's lens buffers that fails parity, by a requester of R278, counted and logged (R286, R306). -/
def State.logLens (s : State) (e off req charge : Nat) : State :=
  (s.bump .engLensParityCnt e 0 1).logFirst .engLensParityLog e 31 30 (off + req % 8 * 2 ^ 24 + charge)

/-- A clean gallery line taken again from its copy in the lower tier, with the poison flags that it has there (R283, R286). -/
def State.refetchClean (s : State) (pa : Nat) : State :=
  let at_ := pa / 128 * 128
  match (s.frame (pa / 65536)).lower with
  | some low =>
    let from_ := low * 65536 + at_ % 65536
    let bad := (List.range 4).filter fun k => s.poisonAt (from_ + 32 * k)
    let s := s.putRaw at_ (s.memBytes from_ 128)
    { s with poison := bad.foldl (fun p k => setInsert (at_ / 32 + k) p) s.poison }
  | none => s

/-- The check bits of what a read of on-package SRAM reads: an error is counted and logged once for the access, and a line of a clean gallery
frame is fetched again (R281, R286). -/
def State.checkSram (s : State) (a : Access) (pa n : Nat) : State :=
  match setIn pa n s.badCheck with
  | [] => s
  | first :: rest =>
    let s := s.logParity a first
    if (s.frame (pa / 65536)).st = .clean && s.frameTier (pa / 65536) == 0 then
      let lines := (first :: rest).foldl (fun l k => setInsert (k / 128) l) []
      lines.foldl (fun s k => (s.bump .galParityRefetchCnt (s.frameDie (pa / 65536)) 0 1).refetchClean (k * 128)) s
    else s

/-- HBMC_ERR_LOG records the first uncorrectable read since VALID was cleared (R381, R411). -/
def State.logUe (s : State) (ctl pa owner : Nat) (sev mark : Bool) : State :=
  s.logFirst .hbmcErrLog ctl 63 62 (pa / 32 * 32 + owner % 64 * 2 ^ 48 + b2n sev * 2 ^ 54 + b2n mark * 2 ^ 55)

/-- A sector transferred by a controller's stack (R825). -/
def State.countSector (s : State) (ctl : Nat) : State := s.bump .ctrStackSectorCnt (ctl / 4) (ctl % 4) 1

/-- An uncorrectable sector posted to the pool manager (R381). -/
def State.postUe (s : State) (base : Nat) : State := { s with pool := { s.pool with uePosts := s.pool.uePosts ++ [base] } }

/-- What a read of a sector finds and counts but for the transfer itself (R374, R375, R378, R379, R381): its outcome, with an uncorrectable
severity report first, which stands until a whole-sector write (R382). -/
def State.noteSector (s : State) (ctl pa owner : Nat) (severity : Bool) : State × Decoded :=
  let base := pa / 32 * 32
  let sev := severity || s.hbm.sevBad.contains (base / 32)
  if sev then
    let s := { s with hbm := { s.hbm with sevBad := setInsert (base / 32) s.hbm.sevBad } }
    ((((s.bump .hbmcSevUeCnt ctl 0 1).bump .hbmcUeCnt ctl 0 1).logUe ctl base owner true false).postUe base, .uncorrectable)
  else
    match decodeDelta (s.deltaAt base) with
    | .clean => (s, .clean)
    | .corrected j v => (s.bump .hbmcCeCnt ctl 0 1, .corrected j v)
    | .mark => (((s.bump .hbmcPoisonMarkCnt ctl 0 1).logUe ctl base owner false true).postUe base, .mark)
    | .uncorrectable => (((s.bump .hbmcUeCnt ctl 0 1).logUe ctl base owner false false).postUe base, .uncorrectable)

/-- A read of a sector: transferred, decoded, counted. -/
def State.readSector (s : State) (ctl pa owner : Nat) (severity : Bool) : State × Decoded :=
  (s.countSector ctl).noteSector ctl pa owner severity

def State.chan (s : State) (ctl pc : Nat) : PseudoChannel := lookupD {} (ctl * 32 + pc) s.hbm.chans

def State.setChan (s : State) (ctl pc : Nat) (c : PseudoChannel) : State :=
  { s with hbm := { s.hbm with chans := putD {} (ctl * 32 + pc) c s.hbm.chans } }

/-- A write-back of a corrected sector queued behind the requests already queued, at the reader's owner weight, unless one is queued
(R379). -/
def State.queueWriteback (s : State) (pa owner : Nat) : State :=
  let base := pa / 32 * 32
  let (ctl, pc) := hbmPlace s.harbour base
  let c := s.chan ctl pc
  if c.queue.any fun r => r.wb && r.addr == base then s
  else
    let data : BitVec 256 := BitVec.ofNat 256 (natOfBytes (s.memBytes base 32))
    s.setChan ctl pc { c with queue := c.queue ++ [{ addr := base, write := true, wb := true, data := data,
                                                     mask := BitVec.allOnes 32, owner := owner }] }

/-- Whether an address lies in populated HBM. -/
def State.isHbm (s : State) (pa : Nat) : Bool :=
  match s.phys pa with
  | .hbm _ => true
  | _ => false

/-- A sector of HBM read for an owner: what the read finds is counted, and a correctable one queues its write-back. -/
def State.useSector (s : State) (owner base : Nat) : State :=
  match s.readSector (hbmPlace s.harbour base).1 base owner false with
  | (s, .corrected _ _) => s.queueWriteback base owner
  | (s, _) => s

/-- R377: the bytes a write stores: its disabled bytes as zero. -/
def maskedBytes (data : BitVec 256) (mask : BitVec 32) : List Byte :=
  (List.range 32).map fun k => if mask.getLsbD k then BitVec.ofNat 8 (data.toNat / 2 ^ (8 * k)) else 0#8

/-- Whether a channel group of a die is out of service (R405). -/
def State.groupOut (s : State) (die group : Nat) : Bool := s.hbm.outGroups.contains (die * 16 + group)

/-- Whether any channel group of an HBM run is out of service (R405). -/
def State.groupHeld (s : State) (pa n : Nat) : Bool :=
  s.hbm.outGroups != [] && s.isHbm pa &&
  (List.range ((pa + n + 127) / 128 - pa / 128)).any fun k =>
    s.groupOut ((hbmPlace s.harbour pa).1 / 4) (hbmGroup s.harbour ((pa / 128 + k) * 128))

/-- A request served: a read delivered as it decodes (R379, R381, R449), a write-back or a write stored (R377, R379); a write to a page
protected for a daymark waits for its copy (R642). -/
def State.serveHbm (s : State) (ctl : Nat) (r : HbmReq) (severity : Bool) : State :=
  let base := r.addr / 32 * 32
  if r.wb then ((s.putRaw base (bytesOf r.data.toNat 32)).countSector ctl).bump .hbmcWritebackCnt ctl 0 1
  else if r.write then
    let s := if r.mask = BitVec.allOnes 32 then s else s.bump .hbmcPartialWrCnt ctl 0 1
    let s := s.countSector ctl
    if (s.frame (base / 65536)).prot then
      { s with heldWrites := s.heldWrites ++ [{ addr := base, bytes := maskedBytes r.data r.mask, by_ := { unit := .hbm ctl, owner := r.owner } }] }
    else s.putMem base (maskedBytes r.data r.mask)
  else
    let (s, out) := s.readSector ctl base r.owner severity
    let bad := match out with
      | .mark => true
      | .uncorrectable => true
      | _ => (s.frame (base / 65536)).quarantined
    let data : BitVec 256 := BitVec.ofNat 256 (natOfBytes (if severity then s.rdBytes base 32 else s.memBytes base 32))
    let s := match out with
      | .corrected _ _ => s.queueWriteback base r.owner
      | _ => s
    let s := s.touchRead base
    { s with hbm := { s.hbm with out := putD {} ctl { addr := base, data := data, poison := bad, owner := r.owner } s.hbm.out } }

/-- Requests to some sectors that are queued when other work accesses them are served first, in their order (R385). -/
def State.flushSectors (s : State) (pa n : Nat) : State :=
  let hit (r : HbmReq) : Bool := !r.wb && decide (pa / 32 ≤ r.addr / 32) && decide (r.addr < pa + n)
  s.hbm.chans.foldl (fun s p =>
    let reqs := p.2.queue.filter hit
    if reqs = [] then s
    else
      let s := { s with hbm := { s.hbm with chans := putD {} p.1 { p.2 with queue := p.2.queue.filter fun r => !hit r } s.hbm.chans } }
      reqs.foldl (fun s r => s.serveHbm (p.1 / 32) r false) s) s

/-- A read of bytes within one frame: the frame's last use (R426); for HBM what each sector's read finds (R374 to R381, R385); for on-package
SRAM its slots and its check bits (R271, R281). -/
def State.didRead (s : State) (a : Access) (pa n : Nat) : State :=
  let s := s.touchRead pa
  if s.isHbm pa then
    (List.range ((pa + n + 31) / 32 - pa / 32)).foldl (fun s k => s.useSector a.owner ((pa / 32 + k) * 32)) (s.flushSectors pa n)
  else (s.useSlots a pa n).checkSram a pa n

/-- The sector of an address left with the poison mark (R378), or outside HBM with the poison flag (R434). -/
def State.markPoison (s : State) (pa : Nat) : State :=
  match s.phys pa with
  | .hbm _ => { s with hbmDelta := putD 0#16 (pa / 32) markDelta s.hbmDelta }
  | _ => { s with poison := setInsert (pa / 32) s.poison }

/-- Some sectors that have just been written left poisoned, by address / 32; where their write waits, once it is done (R434, R498). -/
def State.leavePoison (s : State) (bad : List Nat) : State :=
  bad.foldl (fun s k =>
    if s.heldWrites.any fun w => w.covers k then
      { s with heldWrites := s.heldWrites.map fun w => if w.covers k then { w with bad := setInsert k w.bad } else w }
    else s.markPoison (32 * k)) s

/-- The sectors of a run of bytes, by address / 32. -/
def sectorsOf (pa n : Nat) : List Nat := (List.range ((pa + n + 31) / 32 - pa / 32)).map (pa / 32 + ·)

/-- R642: a write that reaches a page protected for a daymark, or a channel group out of service (R405), waits, and the stage that makes it
with it; any other is performed, after what is queued for its sectors (R385), and takes its slots (R271). Where nothing is populated nothing is stored; a write that fails at the host window is
dropped and counted (R693). -/
def State.devWrite (s : State) (a : Access) (pa : Nat) (bs : List Byte) : State :=
  if s.isHole pa then s
  else if s.hostFails pa then s.bump .keepHostwinErrCnt 0 0 1
  else if s.isHbm pa then
    let s := s.flushSectors pa bs.length
    if (s.frame (pa / 65536)).prot || s.groupHeld pa bs.length then { s with heldWrites := s.heldWrites ++ [{ addr := pa, bytes := bs, by_ := a }] }
    else
      ((List.range ((pa + bs.length + 31) / 32 - pa / 32)).foldl
        (fun (s : State) k => s.countSector (hbmPlace s.harbour ((pa / 32 + k) * 32)).1) s).putMem pa bs
  else if (s.frame (pa / 65536)).prot then { s with heldWrites := s.heldWrites ++ [{ addr := pa, bytes := bs, by_ := a }] }
  else (s.useSlots a pa bs.length).putMem pa bs

/-- Whether a write to some bytes waits (R642). -/
def State.writeWaits (s : State) (pa n : Nat) : Bool :=
  s.heldWrites.any fun w => decide (w.addr < pa + n) && decide (pa < w.addr + w.bytes.length)

/-- A byte as the next write to its place finds it: what the last waiting write leaves there, or what is stored. -/
def State.heldByte (s : State) (pa : Nat) : Byte :=
  s.heldWrites.foldl (fun b w => if w.addr ≤ pa ∧ pa < w.addr + w.bytes.length then w.bytes.getD (pa - w.addr) b else b) (s.memByte pa)

/-- Words written one after another, little-endian. -/
def State.devWriteWords (s : State) (a : Access) (pa : Nat) : List Word → State
  | [] => s
  | w :: ws => (s.devWrite a pa (bytesOf w.toNat 8)).devWriteWords a (pa + 8) ws

/-! ## Translation (R680 to R684) -/

/-- What a walk finds. -/
inductive Xlat where
  /-- not present; `bad` and `refused` say which counter the walk adds to (R682, R684) -/
  | absent (bad refused : Bool)
  | page (pa : Nat) (read write : Bool) (owner : Nat) (big : Bool)
  | remote (pkg window epoch woff : Nat) (read write : Bool)
  deriving DecidableEq, Repr

/-- The index of a virtual address at a level of the tree (R680). -/
def xlatIndex (va level : Nat) : Nat :=
  match level with
  | 0 => va / 2 ^ 39 % 512
  | 1 => va / 2 ^ 30 % 512
  | 2 => va / 2 ^ 21 % 512
  | _ => va / 2 ^ 16 % 32

/-- The alignment of the table that an entry of a level names. -/
def xlatAlign (level : Nat) : Nat := if level = 2 then 512 else 8192

/-- R682: the walk from a table of a level; `fuel` is the levels left. -/
def State.walk (s : State) (va : Nat) : Nat → Nat → Nat → Xlat
  | 0, _, _ => .absent false false
  | fuel + 1, level, table =>
    let at_ := table + 16 * xlatIndex va level
    let w0 := s.memWord at_
    let addr := bitsOf w0 8 40 * 256
    let leaf (size : Nat) (big : Bool) : Xlat :=
      let base := addr / size * size
      match s.phys base with
      | .hole => .absent false true
      | .config _ => .absent false true
      | _ =>
        if inReserved s.fuses base then .absent false true
        else .page (base + va % size) (bitOf w0 2) (bitOf w0 3) (bitsOf w0 48 6) big
    match bitsOf w0 0 2 with
    | 0 => .absent false false
    | 1 =>
      if level < 3 then s.walk va fuel (level + 1) (addr / xlatAlign level * xlatAlign level)
      else .absent true false
    | 2 =>
      if level = 3 then leaf 65536 false
      else if level = 2 then leaf 0x20_0000 true
      else .absent true false
    | _ =>
      if level = 3 then
        let w1 := s.memWord (at_ + 8)
        .remote (bitsOf w1 0 12) (bitsOf w1 12 10) (bitsOf w1 22 16) (bitsOf w1 38 21) (bitOf w0 2) (bitOf w0 3)
      else .absent true false

/-- R680, R682: the translation of a device virtual address for an owner on a die. -/
def State.xlat (s : State) (die owner va : Nat) : Xlat :=
  let root := s.rd .poolXlatRoot die owner
  if bitOf root 0 then s.walk va 4 0 (bitsOf root 13 35 * 8192) else .absent false false

/-- The counters a walk adds to (R682, R684). -/
def State.noteWalk (s : State) (die : Nat) (x : Xlat) : State :=
  match x with
  | .absent bad refused =>
    let s := if bad then s.bump .poolXlatBadCnt die 0 1 else s
    if refused then s.bump .poolXlatRefusedCnt die 0 1 else s
  | _ => s

/-- The physical address a read of a present local page reaches; R683 treats a forbidden read as not present. -/
def State.readPa (s : State) (die owner va : Nat) : Option Nat :=
  match s.xlat die owner va with
  | .page pa true _ _ _ => some pa
  | _ => none

/-- The physical address of a page, whatever its permissions (R683, last row). -/
def State.framePa (s : State) (die owner va : Nat) : Option Nat :=
  match s.xlat die owner va with
  | .page pa _ _ _ _ => some pa
  | _ => none

/-- A byte of device virtual memory; an absent page reads as zero where the caller has checked presence. -/
def State.virtByte (s : State) (die owner va : Nat) : Byte :=
  match s.readPa die owner va with
  | some pa => s.memByte pa
  | none => 0#8

def State.virtWord (s : State) (die owner va : Nat) : Word :=
  BitVec.ofNat 64 (natOfBytes ((List.range 8).map fun k => s.virtByte die owner (va + k)))

def State.virtWords (s : State) (die owner va n : Nat) : List Word :=
  (List.range n).map fun k => s.virtWord die owner (va + 8 * k)

/-- Whether every page of a range is present and readable. -/
def State.readable (s : State) (die owner va n : Nat) : Bool :=
  (List.range ((va % 65536 + n + 65535) / 65536)).all fun k =>
    (s.readPa die owner ((va / 65536 + k) * 65536)).isSome

/-- Bytes written at a device virtual address within one page, where the page is present and writable. -/
def State.virtWrite (s : State) (a : Access) (die va : Nat) (bs : List Byte) : State :=
  match s.xlat die a.owner va with
  | .page pa _ true _ _ => s.devWrite a pa bs
  | _ => s

/-! ## Sticky flags (R171 to R176) -/

/-- A report posted to the flag tables of both dies (R173). -/
def State.postFlags (s : State) (idx : Nat) (f : Flags) : State :=
  let m := b2n f.nonfinite + 2 * b2n f.ovfSat + 4 * b2n f.underflow
  if m = 0 then s
  else
    let s := s.wr .galFlagEntry 0 idx (s.rd .galFlagEntry 0 idx ||| BitVec.ofNat 64 m)
    s.wr .galFlagEntry 1 idx (s.rd .galFlagEntry 1 idx ||| BitVec.ofNat 64 m)

/-! ## Lens buffers (R262, R263, R862) -/

/-- Bytes of one engine's lens buffers. -/
def lensSize : Nat := 1572864

/-- A read beyond unit 24,575 returns 0x00 (R862). -/
def State.lensByte (s : State) (e a : Nat) : Byte :=
  if a < lensSize then lookupD 0#8 (e * 2097152 + a) s.lens else 0#8

/-- A write beyond unit 24,575 is dropped (R862); a write gives the bytes valid check bits (R281), and the poison flags of what was there go. -/
def State.lensPut (s : State) (e a : Nat) (bs : List Byte) : State :=
  let bs := bs.take (lensSize - a)
  { s with
    lens := putRun 0#8 (e * 2097152 + a) bs s.lens
    poison := setClear ((2 ^ 48 + e * 2097152 + a) / 32) ((a % 32 + bs.length + 31) / 32) s.poison
    badCheck := setClear (2 ^ 48 + e * 2097152 + a) bs.length s.badCheck }

/-- Bytes of a lens range, sparse and rebased. -/
def State.lensSlice (s : State) (e a n : Nat) : Bytes := sliceAt (e * 2097152 + a) (min n (lensSize - a)) s.lens

/-- Whether any range (start, length) runs past the end of the lens buffers. -/
def lensOver (ranges : List (Nat × Nat)) : Bool :=
  ranges.any fun r => decide (0 < r.2) && decide (lensSize < r.1 + r.2)

/-- The code of element `k` of packed elements whose bytes `rd` gives. -/
def elemCode (rd : Nat → Byte) (code k : Nat) : Nat :=
  let w := fmtBits code
  let o := k * w
  let n := (o % 8 + w + 7) / 8
  natOfBytes ((List.range n).map fun j => rd (o / 8 + j)) / 2 ^ (o % 8) % 2 ^ w

/-- A binary32 word of the lens buffers. -/
def State.lensF32 (s : State) (e a : Nat) : F32 :=
  BitVec.ofNat 32 (natOfBytes ((List.range 4).map fun k => s.lensByte e (a + k)))

def State.lensPutF32 (s : State) (e a : Nat) (v : F32) : State := s.lensPut e a (bytesOf v.toNat 4)

end Sys2Proof.Machine
end

