-- ==== Sys2Proof/Machine/Streams.lean ====
section
/-!
DEFINITION. Stream descriptors (spec/07_streams_and_stage_chains.md R307 to R320), the read and write of a tensor through one, the
messages that a remote page turns accesses into (R491), and the staging of trace records (spec/18_observability.md R833 to R838).
-/
namespace Sys2Proof.Machine

/-- A stream descriptor with its fields clamped (R307, R311). -/
structure Desc where
  base : Nat
  fmt : Nat
  mx : Bool
  rnd : Rnd
  ovfNan : Bool
  scaleBase : Nat
  flagIdx : Nat
  xpose : Bool
  torder : Bool
  cnt0 : Nat
  cnt1 : Nat
  cnt2 : Nat
  cnt3 : Nat
  cnt4 : Nat
  stride1 : Nat
  stride2 : Nat
  stride3 : Nat
  stride4 : Nat
  trows : Nat
  tcols : Nat
  extLo : Nat
  extHi : Nat
  seed : Nat
  stream : Nat
  tensor : Nat
  lookahead : Nat
  /-- added to an element's index: where a chunk of a larger tensor begins (R97, R525) -/
  idxOff : Nat := 0
  deriving DecidableEq, Repr

/-- R308: logical rows. -/
def Desc.rows (d : Desc) : Nat := d.cnt1 * d.cnt2 * d.cnt3 * d.cnt4

/-- R48, R79, R80: the element format word of R78, clamped, with the clamps it takes. -/
def formatWord (w : Nat) : (Nat × Bool × Rnd × Bool) × Nat :=
  let code := w % 16
  let mx := w / 16 % 2 == 1
  let rnd := w / 32 % 8
  let code' := if fmtReserved code then 0 else code
  let mxBad := mx && !mxAllowed code'
  ((code', mx && !mxBad, rndOf rnd, w / 256 % 2 == 1),
   b2n (fmtReserved code) + b2n (rndReserved rnd) + b2n mxBad)

/-- R307, R311: a descriptor image of sixteen words, clamped, with the clamps it takes. -/
def parseDesc (ws : List Word) : Desc × Nat :=
  let w := fun k => ws.getD k 0#64
  let ((fmt, mx, rnd, ovf), n0) := formatWord (bitsOf (w 0) 48 16)
  let base := bitsOf (w 0) 0 48
  let st := fun k => bitsOf (w (4 + k)) 0 40
  let low := fun x => b2n (x % 32 != 0)
  let extLo := bitsOf (w 10) 0 43
  let extHi := bitsOf (w 11) 0 43
  let cnt0 := bitsOf (w 2) 0 24 + 1
  let cnt1 := bitsOf (w 2) 24 24 + 1
  let cnt2 := bitsOf (w 3) 0 24 + 1
  let cnt3 := bitsOf (w 3) 24 24 + 1
  let cnt4 := bitsOf (w 4) 0 24 + 1
  let rows := cnt1 * cnt2 * cnt3 * cnt4
  let trows := bitsOf (w 9) 0 12 + 1
  let tcols := bitsOf (w 9) 16 12 + 1
  ({ base := base / 32 * 32, fmt := fmt, mx := mx, rnd := rnd, ovfNan := ovf,
     scaleBase := bitsOf (w 1) 0 48, flagIdx := bitsOf (w 1) 48 12, xpose := bitOf (w 1) 60, torder := bitOf (w 1) 61,
     cnt0 := cnt0, cnt1 := cnt1, cnt2 := cnt2, cnt3 := cnt3, cnt4 := cnt4,
     stride1 := st 1 / 32 * 32, stride2 := st 2 / 32 * 32, stride3 := st 3 / 32 * 32, stride4 := st 4 / 32 * 32,
     trows := min trows rows, tcols := min tcols cnt0,
     extLo := extLo * 32, extHi := (max extLo extHi) * 32,
     seed := (w 12).toNat, stream := bitsOf (w 13) 0 32, tensor := bitsOf (w 13) 32 32,
     lookahead := bitsOf (w 14) 0 4 },
   n0 + low base + low (st 1) + low (st 2) + low (st 3) + low (st 4) + b2n (decide (extHi < extLo)) +
     b2n (decide (rows < trows)) + b2n (decide (cnt0 < tcols)))

/-- R309: the byte address at which logical row `r` starts. -/
def Desc.rowAddr (d : Desc) (r : Nat) : Nat :=
  d.base + r % d.cnt1 * d.stride1 + r / d.cnt1 % d.cnt2 * d.stride2 +
    r / (d.cnt1 * d.cnt2) % d.cnt3 * d.stride3 + r / (d.cnt1 * d.cnt2 * d.cnt3) * d.stride4

/-- R310: the address of an element's scale byte. -/
def Desc.scaleAddr (d : Desc) (r c : Nat) : Nat := d.scaleBase + r * ((d.cnt0 + 31) / 32) + c / 32

/-- R309: an element's linear index, in the tensor it is part of (R97, R525). -/
def Desc.index (d : Desc) (r c : Nat) : Nat := d.idxOff + r * d.cnt0 + c

/-- The key its draws use at a revolution (R96, R202, R203). -/
def Desc.genKey (d : Desc) (rev : Nat) : GenKey := ⟨d.seed, d.stream, d.tensor, rev⟩

/-- R318: whether an element lies in the extent: all its bytes, and its scale byte under MX. -/
def Desc.inExtent (d : Desc) (r c : Nat) : Bool :=
  let w := fmtBits d.fmt
  let lo := d.rowAddr r + c * w / 8
  let hi := d.rowAddr r + (c * w + w - 1) / 8
  let s := d.scaleAddr r c
  decide (d.extLo ≤ lo) && decide (hi < d.extHi) && (!d.mx || (decide (d.extLo ≤ s) && decide (s < d.extHi)))

/-! ## Messages of remote pages (R491) -/

/-- A PUT or GET_REQ added to the messages a die's window engine has begun; its tag holds the die in its top bit. -/
def State.beginMsg (s : State) (m : OriginMsg) : State :=
  let n := lookupD 0 m.die s.msgNum
  { s with sentMsgs := s.sentMsgs ++ [{ m with num := m.die * 32768 + n }], msgNum := putD 0 m.die ((n + 1) % 32768) s.msgNum }

/-- The outcome of a write through translation: whether it met a page not present or not writable. -/
structure WriteEnd where
  st : State
  fault : Bool

/-- R308, R491, R683: bytes within one page written through an owner's translation: a local page directly, a remote page as a PUT. -/
def State.vPutPage (s : State) (die : Nat) (a : Access) (va : Nat) (bs : List Byte) : WriteEnd :=
  let x := s.xlat die a.owner va
  match x with
  | .page pa _ true _ _ =>
    if s.hostFails pa then
      let s := s.devWrite a pa bs
      ⟨{ s with host := { s.host with failed := true } }, true⟩
    else ⟨s.devWrite a pa bs, false⟩
  | .remote pkg win ep woff _ true =>
    ⟨s.beginMsg { die := die, num := 0, get := false, pkg := pkg, window := win, epoch := ep,
                  offset := woff * 65536 + va % 65536, bytes := bs, owner := a.owner, chain := a.who.map (·.chain),
                  stage := (a.who.map (·.stage)).getD 0 }, false⟩
  | y => ⟨s.noteWalk die y, true⟩

/-- Whether a page admits writes. -/
def State.vWritable (s : State) (die owner va : Nat) : Bool :=
  match s.xlat die owner va with
  | .page _ _ w _ _ => w
  | .remote _ _ _ _ _ w => w
  | _ => false

/-- Bytes written across pages; `fuel` bounds the pages. A page not writable faults and its bytes are not written. -/
def State.vPutFuel (s : State) (die : Nat) (a : Access) : Nat → Nat → List Byte → WriteEnd
  | 0, _, _ => ⟨s, false⟩
  | fuel + 1, va, bs =>
    if bs = [] then ⟨s, false⟩
    else
      let n := 65536 - va % 65536
      let r :=
        if s.vWritable die a.owner va then s.vPutPage die a va (bs.take n)
        else ⟨s.noteWalk die (s.xlat die a.owner va), true⟩
      let q := r.st.vPutFuel die a fuel (va + n) (bs.drop n)
      ⟨q.st, r.fault || q.fault⟩

def State.vPut (s : State) (die : Nat) (a : Access) (va : Nat) (bs : List Byte) : WriteEnd :=
  s.vPutFuel die a (bs.length / 65536 + 2) va bs

/-! ## Writing rows of a tensor -/

/-- A number with `w` bits at bit `o` replaced. -/
def patchBits (x o w v : Nat) : Nat := x - x / 2 ^ o % 2 ^ w * 2 ^ o + v % 2 ^ w * 2 ^ o

/-- The codes of one row's elements, and the scale bytes of its MX blocks as (column of the block's first element, scale code). -/
structure RowCodes where
  codes : List (Nat × Nat)
  scales : List (Nat × Nat)
  flags : Flags

/-- Consecutive elements of a row grouped by MX block (R70); the columns ascend. -/
def blocksOf : List (Nat × Val) → List (List (Nat × Val))
  | [] => []
  | x :: xs =>
    match blocksOf xs with
    | [] => [[x]]
    | b :: bs =>
      match b with
      | [] => [x] :: bs
      | y :: ys => if y.1 / 32 = x.1 / 32 then (x :: y :: ys) :: bs else [x] :: (y :: ys) :: bs

/-- R82, R95 to R100, R863: the conversion of one row's elements into the descriptor's format. -/
def convertRow (d : Desc) (rev : Nat) (r : Nat) (els : List (Nat × Val)) : RowCodes :=
  let rbits := fun c => if d.rnd = .stochastic then draw16 (d.genKey rev) (d.index r c) else 0
  if d.mx then
    (blocksOf els).foldl (fun acc b =>
      let (sc, es, f) := mxBlock d.fmt d.rnd d.ovfNan (b.map fun p => (p.2, rbits p.1))
      ⟨acc.codes ++ (b.map (·.1)).zip es, acc.scales ++ [((b.headD (0, .nan)).1, sc)], acc.flags.or f⟩)
      ⟨[], [], Flags.none⟩
  else
    els.foldl (fun acc p =>
      let (c, f) := encodeElem d.fmt d.rnd d.ovfNan (rbits p.1) p.2
      ⟨acc.codes ++ [(p.1, c)], [], acc.flags.or f⟩) ⟨[], [], Flags.none⟩

/-- Bytes that a whole row takes, its unused bits and padding elements among them (R66, R72). -/
def Desc.rowSpan (d : Desc) : Nat :=
  if d.mx then (d.cnt0 + 31) / 32 * (4 * fmtBits d.fmt)
  else if fmtBits d.fmt = 6 then (d.cnt0 + 3) / 4 * 3
  else (d.cnt0 * fmtBits d.fmt + 7) / 8

/-- A byte as a write that covers part of its bits finds it (R863). A PUT carries whole bytes, so the bits of a remote byte that it does
not store are free values (log entry 76). -/
def State.storedByte (s : State) (die owner va : Nat) : Byte :=
  match s.xlat die owner va with
  | .page pa _ _ _ _ => s.heldByte pa
  | .remote _ _ _ _ _ _ => BitVec.ofNat 8 (Config.freeWord (s.free + va % 4096)).toNat
  | .absent _ _ => 0#8

/-- Where the write of a row's end stops: at the row's span, and in HBM at the end of the sector (R66, R72, R320), within the extent. -/
def State.rowStop (s : State) (die owner : Nat) (d : Desc) (r hi : Nat) : Nat :=
  let a := d.rowAddr r
  let hbm := match s.framePa die owner (a + hi - 1) with
    | some pa => (match s.phys pa with
      | .hbm _ => true
      | _ => false)
    | none => false
  let stop := max d.rowSpan (if hbm then (a + max hi d.rowSpan + 31) / 32 * 32 - a else hi)
  max hi (min stop (d.extHi - a))

/-- The bytes of a row that its element codes touch, patched over the bytes there now; past the row's last element they are zero (R66,
R72, R77, R320). -/
def State.patchRow (s : State) (die owner : Nat) (d : Desc) (r : Nat) (codes : List (Nat × Nat)) : Nat × List Byte :=
  let w := fmtBits d.fmt
  match codes with
  | [] => (d.rowAddr r, [])
  | p :: _ =>
    let lo := codes.foldl (fun m q => min m (q.1 * w / 8)) (p.1 * w / 8)
    let hi := codes.foldl (fun m q => max m ((q.1 * w + w + 7) / 8)) 0
    let last := codes.any fun q => q.1 + 1 == d.cnt0
    let hi' := if last then s.rowStop die owner d r hi else hi
    let now := (List.range (hi - lo)).map fun k => s.storedByte die owner (d.rowAddr r + lo + k)
    let x := codes.foldl (fun x q => patchBits x (q.1 * w - lo * 8) w q.2) (natOfBytes now)
    let x := if last then x % 2 ^ (d.cnt0 * w - lo * 8) else x
    (d.rowAddr r + lo, bytesOf x (hi' - lo))

/-- Generator outputs that a row's stochastic conversion takes: one for every eight indices (R96). -/
def Desc.draws (d : Desc) (r : Nat) (cols : List Nat) : Nat :=
  if d.rnd = .stochastic then (cols.foldl (fun l c => setInsert (d.index r c / 8) l) []).length else 0

/-- The state after a write through a descriptor, with what it met. -/
structure StreamEnd where
  st : State
  fault : Bool := false
  /-- an element outside the extent was dropped (R319) -/
  masked : Bool := false
  /-- elements converted and written (R826) -/
  count : Nat := 0
  /-- generator outputs drawn (R96, R207) -/
  draws : Nat := 0

/-- Scale bytes written one by one. -/
def State.putScales (s : State) (die : Nat) (a : Access) (d : Desc) (r : Nat) : List (Nat × Nat) → WriteEnd
  | [] => ⟨s, false⟩
  | (c, v) :: rest =>
    let x := s.vPut die a (d.scaleAddr r c) [BitVec.ofNat 8 v]
    let y := x.st.putScales die a d r rest
    ⟨y.st, x.fault || y.fault⟩

/-- One row written through a descriptor: elements beyond the tensor or the extent dropped, the others converted and stored, the report
posted to the tensor's flags (R101, R314, R319). -/
def State.streamRow (s : State) (die rev : Nat) (a : Access) (d : Desc) (r : Nat)
    (els : List (Nat × Val)) : StreamEnd :=
  let inT := els.filter fun p => decide (p.1 < d.cnt0) && decide (r < d.rows)
  let ok := inT.filter fun p => d.inExtent r p.1
  if ok = [] then { st := s, masked := decide (ok.length < inT.length) }
  else
    let rc := convertRow d rev r ok
    let (va, bs) := s.patchRow die a.owner d r rc.codes
    let x := ({ s with free := s.free + 1 }).vPut die a va bs
    let y := x.st.putScales die a d r rc.scales
    { st := y.st.postFlags d.flagIdx rc.flags, fault := x.fault || y.fault,
      masked := decide (ok.length < inT.length), count := ok.length, draws := d.draws r (ok.map (·.1)) }

/-- Rows written one after another. -/
def State.streamRows (s : State) (die rev : Nat) (a : Access) (d : Desc) :
    List (Nat × List (Nat × Val)) → StreamEnd
  | [] => { st := s }
  | (r, els) :: rest =>
    let x := s.streamRow die rev a d r els
    let y := x.st.streamRows die rev a d rest
    { st := y.st, fault := x.fault || y.fault, masked := x.masked || y.masked, count := x.count + y.count, draws := x.draws + y.draws }

/-! ## Reading a tensor -/

/-- What has come from other packages for a read: each run's virtual address and bytes. -/
abbrev Overlay := List (Nat × List Byte)

/-- A byte that a read through translation finds: what has come from another package, or memory. -/
def State.viewByte (s : State) (die owner : Nat) (ovl : Overlay) (va : Nat) : Byte :=
  match ovl.find? fun p => decide (p.1 ≤ va) && decide (va < p.1 + p.2.length) with
  | some p => p.2.getD (va - p.1) 0#8
  | none => s.virtByte die owner va

/-- The code of an element of a tensor; outside the tensor or the extent a zero element (R314, R319). -/
def State.streamCode (s : State) (die owner : Nat) (d : Desc) (r c : Nat) (ovl : Overlay := []) : Nat :=
  if c < d.cnt0 ∧ r < d.rows ∧ d.inExtent r c = true then
    elemCode (fun k => s.viewByte die owner ovl (d.rowAddr r + k)) d.fmt c
  else 0

/-- The scale byte of an element of an MX tensor; zero outside. -/
def State.streamScale (s : State) (die owner : Nat) (d : Desc) (r c : Nat) (ovl : Overlay := []) : Byte :=
  if c < d.cnt0 ∧ r < d.rows ∧ d.inExtent r c = true then s.viewByte die owner ovl (d.scaleAddr r c) else 0#8

/-- R313: the row and column at which tile `t` of the walk begins. A tile past the walk's last begins outside the tensor, so that a read
finds zeros there and a write drops every element (log entry 74). -/
def Desc.tileAt (d : Desc) (t : Nat) : Nat × Nat :=
  let across := (d.cnt0 + d.tcols - 1) / d.tcols
  let down := (d.rows + d.trows - 1) / d.trows
  if d.torder then (t % down * d.trows, t / down * d.tcols) else (t / across * d.trows, t % across * d.tcols)

def Desc.tiles (d : Desc) : Nat := (d.cnt0 + d.tcols - 1) / d.tcols * ((d.rows + d.trows - 1) / d.trows)

/-! ## Traces (R833 to R838) -/

/-- A LOSS record (R834). -/
def lossRecord (src first last count : Nat) : Words4 :=
  ⟨BitVec.ofNat 64 (4 + src % 256 * 16), BitVec.ofNat 64 first, BitVec.ofNat 64 last, BitVec.ofNat 64 (min count 0xFFFFFFFF)⟩

def isLoss (r : Words4) : Bool := bitsOf r.w0 0 4 == 4

/-- The first LOSS record of a list with one more drop. -/
def extendLoss (now : Nat) : List Words4 → List Words4
  | [] => []
  | r :: rs =>
    if isLoss r then
      { r with w2 := BitVec.ofNat 64 now, w3 := BitVec.ofNat 64 (min (bitsOf r.w3 0 32 + 1) 0xFFFFFFFF) } :: rs
    else r :: extendLoss now rs

/-- An event dropped by a source (R838). -/
def TraceSrc.drop (t : TraceSrc) (now : Nat) : TraceSrc :=
  if t.staged.any isLoss then { t with staged := extendLoss now t.staged }
  else match t.loss with
    | none => { t with loss := some (now, now, 1) }
    | some (f, _, n) => { t with loss := some (f, now, n + 1) }

/-- SINK of a die, 3 read as 0, and LEVEL, 3 read as 2 (R843). -/
def State.sinkKind (s : State) (die : Nat) : Nat := s.fld ctrTraceCfgSink die % 3

def State.traceLevel (s : State) (die : Nat) : Nat := min 2 (s.fld ctrTraceCfgLevel die)

/-- Records that a die's ring holds: SIZE_LOG2 from 7 to 20 (R837, R843). -/
def State.traceSize (s : State) (die : Nat) : Nat := 2 ^ max 7 (min 20 (s.fld ctrTraceBaseSizeLog2 die))

def State.traceBase (s : State) (die : Nat) : Nat := s.fld ctrTraceBaseBase die * 4096

/-- Whether an address lies in the memory that a sink needs: the gallery, or the host window (R837, R838). -/
def State.sinkHas (s : State) (kind pa : Nat) : Bool :=
  match s.phys pa with
  | .gallery _ _ => kind == 1
  | .host _ => kind == 2
  | _ => false

/-- The sink is off, its BASE lies outside the range it needs, its ring is full, or its writes have reached TRACE_SHARE / 256 of a cycle's 64
slots of the die's gallery (R838, log entry 97). -/
def State.sinkFull (s : State) (die : Nat) : Bool :=
  let kind := s.sinkKind die
  let base := s.traceBase die
  kind == 0 || !s.sinkHas kind base || !s.sinkHas kind (base + 32 * s.traceSize die - 1) ||
  decide (s.traceSize die ≤ (s.fld ctrTraceIdxProd die + 2 ^ 32 - s.fld ctrTraceIdxCons die) % 2 ^ 32) ||
  decide (s.fld ctrTraceCfgShare die ≤ lookupD 0 die s.sram.sinkUse)

/-- An event offered to a source's staging (R833, R838). -/
def State.stageTrace (s : State) (die src owner : Nat) (rec : Words4) : State :=
  if !bitOf (s.rd .ctrTraceMask die) owner then s
  else
    let key := die * 256 + src
    let t : TraceSrc := lookupD {} key s.trace
    let now := s.beamNow
    if s.sinkFull die || decide (64 ≤ t.staged.length) then
      { (s.bump .ctrTraceLostCnt die 0 1) with trace := putD ({} : TraceSrc) key (t.drop now) s.trace }
    else
      let t : TraceSrc := match t.loss with
        | some (f, l, n) => { staged := t.staged ++ [lossRecord src f l n], loss := none }
        | none => t
      if 64 ≤ t.staged.length then
        { (s.bump .ctrTraceLostCnt die 0 1) with trace := putD ({} : TraceSrc) key (t.drop now) s.trace }
      else { s with trace := putD ({} : TraceSrc) key ({ t with staged := t.staged ++ [rec] } : TraceSrc) s.trace }

end Sys2Proof.Machine
end

