-- ==== Sys2Proof/Machine/ChainOps.lean ====
section
/-!
DEFINITION. What the meanings share about stage chains (spec/07_streams_and_stage_chains.md), the sequences and records they belong to
(spec/12_beam_and_launching.md), status codes (R26), tokens, task contexts, and the end of a chain.
-/
namespace Sys2Proof.Machine

/-! ## Status codes (R26) -/
def stOk : Nat := 0x00
def stAborted : Nat := 0x01
def stAlreadyDone : Nat := 0x02
def stSlotTimeout : Nat := 0x10
def stChainStall : Nat := 0x11
def stTokenViolation : Nat := 0x12
def stPoisonConsumed : Nat := 0x20
def stParityRerunLimit : Nat := 0x21
def stLineCrc : Nat := 0x22
def stWindowClosed : Nat := 0x30
def stPeerLost : Nat := 0x31
def stGenMismatch : Nat := 0x40
def stNonfiniteSkip : Nat := 0x41
def stTierFail : Nat := 0x50
def stPageFault : Nat := 0x60
def stPreempted : Nat := 0x70
def stBlockReset : Nat := 0x71

/-- The codes of failures that a producer outside a chain can end with (R26, R27). -/
def failureCode (st : Nat) : Bool :=
  [stAborted, stSlotTimeout, stChainStall, stTokenViolation, stPoisonConsumed, stParityRerunLimit, stLineCrc, stWindowClosed, stPeerLost,
   stGenMismatch, stNonfiniteSkip, stTierFail, stPageFault, stPreempted, stBlockReset].contains st

/-- A status that does not end a sequence (R865). -/
def goodStatus (st : Nat) : Bool := st == stOk || st == stAlreadyDone

/-! ## Finding chains and sequences -/

def Chain.is (c : Chain) (r : ChainRef) : Bool :=
  c.cluster == r.cluster.val && c.launch == r.launch.toNat && c.ahead == r.ahead && c.extra == r.extra

def Chain.ref (c : Chain) : ChainRef := ⟨Fin.ofNat 24 c.cluster, BitVec.ofNat 12 c.launch, c.ahead, c.extra⟩

/-- Two chains that are one and the same run. -/
def Chain.same (a b : Chain) : Bool :=
  a.cluster == b.cluster && a.launch == b.launch && a.ahead == b.ahead && a.extra == b.extra

def State.findChain (s : State) (r : ChainRef) : Option Chain := s.chains.find? (·.is r)

/-- A chain replaced by its new state. -/
def State.setChain (s : State) (c : Chain) : State :=
  { s with chains := s.chains.map fun d => if d.same c then c else d }

def State.dropChain (s : State) (c : Chain) : State := { s with chains := s.chains.filter fun d => !d.same c }

/-- The chain whose engine stage holds a task context, with that stage's number. -/
def State.chainOfTask (s : State) (e task : Nat) : Option (Chain × Nat) :=
  s.chains.findSome? fun c =>
    if c.waiting then none
    else (c.stages.findIdx? fun g => g.kind == 0 && !g.away && engIndex g.engine == e && g.task == task).map fun k => (c, k)

def State.findSeq (s : State) (cluster launch : Nat) (extra : Bool := false) : Option Seq :=
  s.seqs.find? fun q => q.cluster == cluster && q.launch == launch && q.extra == extra

def State.setSeq (s : State) (q : Seq) : State :=
  { s with seqs := s.seqs.map fun p =>
      if p.cluster == q.cluster && p.launch == q.launch && p.extra == q.extra then q else p }

def State.findRec (s : State) (launch : Nat) : Option RecInst := s.beam.recs.find? (·.index == launch)

def State.setRec (s : State) (r : RecInst) : State :=
  { s with beam := { s.beam with recs := s.beam.recs.map fun q => if q.index == r.index then r else q } }

/-- The fields of a record instance; a record with no instance reads as all zero. -/
def State.recOr (s : State) (launch : Nat) : RecInst := (s.findRec launch).getD { index := launch }

/-! ## Record states (R594) -/

def State.recState (s : State) (launch : Nat) : Nat := bitsOf (s.rd .beamRecState 0 (launch / 16)) (launch % 16 * 4) 4

/-- A record's state in both dies' table caches. -/
def State.setRecState (s : State) (launch st : Nat) : State :=
  let put (s : State) (d : Nat) : State :=
    s.wr .beamRecState d (launch / 16) (withBits (s.rd .beamRecState d (launch / 16)) (launch % 16 * 4) 4 st)
  put (put s 0) 1

/-! ## Dependency tokens (R602 to R604) -/

def State.tokenSet (s : State) (t : Nat) : Bool := bitOf (s.rd .beamTokens 0 (t / 64)) (t % 64)

/-- A token set or cleared on both dies (R602). -/
def State.putToken (s : State) (t : Nat) (v : Bool) : State :=
  let put (s : State) (d : Nat) : State :=
    s.wr .beamTokens d (t / 64) (withBits (s.rd .beamTokens d (t / 64)) (t % 64) 1 (b2n v))
  put (put s 0) 1

def State.putTokens (s : State) (ts : List Nat) (v : Bool) : State := ts.foldl (fun s t => s.putToken t v) s

/-! ## Slot tokens (R325, R336) -/

/-- The token table of the memory that holds an address: whether it is a gallery's, and its unit (R325). -/
def State.tokenTable (s : State) (pa : Nat) : Option (Bool × Nat) :=
  match s.phys pa with
  | .gallery d _ => some (true, d)
  | .cluster c _ => some (false, c)
  | _ => none

def tokenReg (gal : Bool) : Reg := if gal then .galSlotTokens else .cluSlotTokens

def tokenCount (gal : Bool) : Nat := if gal then 4096 else 256

def State.slotToken (s : State) (g : Stage) (slot : Nat) : Nat :=
  match s.tokenTable g.ringAddr with
  | some (gal, u) => bitsOf (s.rd (tokenReg gal) u ((g.tokenBase + slot) / 32)) ((g.tokenBase + slot) % 32 * 2) 2
  | none => 0

def State.putSlotToken (s : State) (g : Stage) (slot v : Nat) : State :=
  match s.tokenTable g.ringAddr with
  | some (gal, u) =>
    let i := (g.tokenBase + slot) / 32
    s.wr (tokenReg gal) u i (withBits (s.rd (tokenReg gal) u i) ((g.tokenBase + slot) % 32 * 2) 2 v)
  | none => s

/-- Every token of a stage's ring set EMPTY (R338). -/
def State.emptyRing (s : State) (g : Stage) : State := (List.range g.nslots).foldl (fun s j => s.putSlotToken g j 0) s

/-- Every ring of a chain: the output rings of all stages but the last. -/
def Chain.rings (c : Chain) : List Stage := c.stages.dropLast

def State.emptyRings (s : State) (c : Chain) : State := c.rings.foldl State.emptyRing s

/-! ## Power -/

/-- A die's power state (R763 to R770). -/
def State.powerDie (s : State) (die : Nat) : PowerDie := if die = 0 then s.power.die0 else s.power.die1

def State.setPowerDie (s : State) (die : Nat) (p : PowerDie) : State :=
  { s with power := if die = 0 then { s.power with die0 := p } else { s.power with die1 := p } }

/-- Whether a die runs: in Harbour mode die 1 is held in reset (R19, R761). -/
def State.dieRuns (s : State) (die : Nat) : Bool := die == 0 || !s.harbour

/-! ## Blocks that are being reset (R780) -/

/-- Whether a cluster lies in a block. -/
def BlockReset.has (b : BlockReset) (cluster : Nat) : Bool := if b.region then cluster / 3 == b.number else cluster == b.number

def State.inReset (s : State) (cluster : Nat) : Bool := s.resets.blocks.any (·.has cluster)

/-- Whether an address lies in a cluster memory of a block that is being reset. -/
def State.paInReset (s : State) (pa : Nat) : Bool :=
  match s.phys pa with
  | .cluster c _ => s.inReset c
  | _ => false

/-- The clusters that a chain touches, as a test: its home cluster, its engine stages' clusters, the cluster memories of its rings. -/
def State.chainIn (s : State) (c : Chain) (p : Nat → Bool) : Bool :=
  p c.cluster || (c.stages.any fun g => g.kind == 0 && p (engCluster (engIndex g.engine))) ||
  (c.rings.any fun g => match s.phys g.ringAddr with
    | .cluster k _ => p k
    | _ => false)

/-- Whether a chain has a stage, a ring or its home cluster in a block that is being reset. -/
def State.touchesReset (s : State) (c : Chain) : Bool := s.chainIn c s.inReset

/-- Whether a stage runs in a block that is being reset. -/
def State.stageInReset (s : State) (c : Chain) (g : Stage) : Bool :=
  s.inReset (if g.kind = 0 then engCluster (engIndex g.engine) else c.cluster)

/-! ## Task contexts (R342, R367) -/

/-- A task's STATE field (0 free, 1 running, 2 ready, 3 waiting). -/
def State.taskState (s : State) (e t : Nat) : Nat := s.fld engTaskStateState e t

/-- An engine stage takes its context (R600). -/
def State.takeContext (s : State) (c : Chain) (k : Nat) (g : Stage) : State :=
  let e := engIndex g.engine
  let x := s.eng e
  let s := s.setEng e { x with cmdIdx := putD 0 g.task 0 x.cmdIdx }
  s.wr .engTaskState e g.task
    (BitVec.ofNat 64 (3 + c.owner % 64 * 2 ^ 4 + c.launch % 4096 * 2 ^ 10 + k % 8 * 2 ^ 22))

def State.takeContexts (s : State) (c : Chain) : State :=
  (List.range c.stages.length).foldl (fun s k =>
    match c.stages[k]? with
    | some g => if g.kind = 0 then s.takeContext c k g else s
    | none => s) s

/-- A context freed: its state cleared, and its place among those that wait given up. -/
def State.freeContext (s : State) (e task : Nat) : State :=
  let x := s.eng e
  (s.setEng e { x with waiters := x.waiters.filter (· != task) }).wr .engTaskState e task 0#64

def State.freeContexts (s : State) (c : Chain) : State :=
  c.stages.foldl (fun s g => if g.kind = 0 && !c.waiting && !g.away then s.freeContext (engIndex g.engine) g.task else s) s

/-- R597: whether a record stands before another in launch order. -/
def State.orderedBefore (s : State) (a b : Nat) : Bool :=
  let p := (s.recOr a).prio
  let q := (s.recOr b).prio
  decide (q < p) || (p == q && decide (a < b))

/-- Whether every engine stage's context is free, and owed to no pre-empted task of a record before this one in launch order (R352, R600,
R620). -/
def State.contextsFree (s : State) (launch : Nat) (stages : List Stage) : Bool :=
  stages.all fun g => g.kind != 0 ||
    (s.taskState (engIndex g.engine) g.task == 0 &&
     !(s.beam.saved.any fun x => x.engine == engIndex g.engine && x.task == g.task && s.orderedBefore x.launch launch))

/-- ACLK in MHz (R756): the die's, or before a power mode is applied the order code's in Full mode. -/
def State.aclkMhz (s : State) (die : Nat) : Nat :=
  let m := s.fld pwrStatusAclkMhz die
  if m ≠ 0 then m
  else match s.order with
    | .h384s17 => 1700
    | _ => 1900

/-- ACLK cycles since a beam time. -/
def State.cyclesSince (s : State) (die beam : Nat) : Nat := (s.beamNow - beam) * s.beam.period * s.aclkMhz die / 2 ^ 32

/-- A SYNC_WAIT record staged by a source, where the wait lasted at least TRACE_SYNC_MIN cycles (R834, R836). `w0` holds the fields of
word 0 from WKIND on but for owner and launch record. -/
def State.traceWait (s : State) (die src w0 owner launch cycles item stepRev opseq : Nat) : State :=
  if cycles = 0 ∨ cycles < s.fld ctrTraceCfgSyncMin die then s
  else
    s.stageTrace die src owner
      ⟨BitVec.ofNat 64 (3 + w0 + owner % 64 * 2 ^ 16 + launch % 4096 * 2 ^ 22), BitVec.ofNat 64 s.beamNow,
       BitVec.ofNat 64 (cycles % 2 ^ 40 + item % 2 ^ 24 * 2 ^ 40), BitVec.ofNat 64 (stepRev % 2 ^ 32 + opseq % 2 ^ 32 * 2 ^ 32)⟩

/-- The wait of a chain for a task context, as its sequencer traces it (R834). -/
def State.traceContext (s : State) (c : Chain) (ended : Bool) : State :=
  let die := cluDie c.cluster
  let eng := match c.stages.find? (·.kind == 0) with
    | some g => g.engine
    | none => 0
  s.traceWait die (0x80 + c.cluster % 12) (eng * 2 ^ 6 + 5 * 2 ^ 34 + c.waitOn % 4096 * 2 ^ 37 + b2n ended * 2 ^ 54) c.owner c.launch
    (s.cyclesSince die c.waitFrom) 0 c.stepRev 0

/-- A chain put among others in launch order (R597). -/
def State.insertOrdered (s : State) (c : Chain) : List Chain → List Chain
  | [] => [c]
  | d :: ds => if s.orderedBefore c.launch d.launch then c :: d :: ds else d :: s.insertOrdered c ds

/-! ## Items of a stage (R324, R336 to R342) -/

/-- The ring a stage reads: the output ring of the stage before. -/
def Chain.inRing (c : Chain) (k : Nat) : Option Stage := if k = 0 then none else c.stages[k - 1]?

/-- The ring a stage writes; the last stage has none (R324). -/
def Chain.outRing (c : Chain) (k : Nat) : Option Stage := if k + 1 < c.stages.length then c.stages[k]? else none

/-- Whether a transition of a ring's slot is not yet visible to one side (R339). -/
def Chain.unseen (c : Chain) (ring slot : Nat) (toConsumer : Bool) : Bool :=
  c.hidden.any fun h => h.ring == ring && h.slot == slot && h.toConsumer == toConsumer

/-- Whether the input slot of item `t` of stage `k` is FULL. -/
def State.inFull (s : State) (c : Chain) (k t : Nat) (seen : Bool) : Bool :=
  match c.inRing k with
  | none => true
  | some g => s.slotToken g (t % g.nslots) == 2 && !(seen && c.unseen (k - 1) (t % g.nslots) true)

/-- Whether the output slot of item `t` of stage `k` is EMPTY. -/
def State.outEmpty (s : State) (c : Chain) (k t : Nat) (seen : Bool) : Bool :=
  match c.outRing k with
  | none => true
  | some g => s.slotToken g (t % g.nslots) == 0 && !(seen && c.unseen k (t % g.nslots) false)

/-- Whether a stage has an item in progress. -/
def Stage.busy (g : Stage) : Bool := g.outOpen || g.inOpen || g.tileOpen

/-- Whether a line that a stage of a chain needs is to arrive again (R284). -/
def State.lineWaits (s : State) (c : Chain) (k : Nat) : Bool := s.sram.refetch.any fun r => r.reader == c.ref && r.stage == k

/-- Whether a stage of a chain has messages to another package that have not landed, writes that wait, or lines that are to arrive again
(R284, R491, R642): its last item is not finished. -/
def State.stageWriting (s : State) (c : Chain) (k : Nat) : Bool :=
  s.lineWaits c k || (s.sentMsgs.any fun m => !m.get && m.chain == some c.ref && m.stage == k) || s.heldWrites.any fun w => w.by_.who == some ⟨c.ref, k⟩

/-- R337 apart from task selection. -/
def State.itemReady (s : State) (c : Chain) (k : Nat) (g : Stage) : Bool :=
  !g.busy && !g.away && g.kind != 5 && !s.stageWriting c k && decide (g.started < c.items) && s.inFull c k g.started true && s.outEmpty c k g.started true

/-- The state shown by the task contexts of a chain's engine stages (R342, R367): running, ready, or waiting on a slot. -/
def State.showTask (s : State) (c : Chain) (k : Nat) (g : Stage) : State :=
  if g.kind != 0 || c.waiting || g.away then s
  else
    let e := engIndex g.engine
    let x := s.eng e
    let ready := s.itemReady c k g
    let st := if g.busy then 1 else if ready then 2 else 3
    let out := decide (st = 3) && s.inFull c k g.started true && decide (g.started < c.items)
    let waiters := if st = 1 then x.waiters.filter (· != g.task)
      else if x.waiters.contains g.task then x.waiters else x.waiters ++ [g.task]
    let s := s.setEng e { x with waiters := waiters }
    let s := s.setFld engTaskStateItem e g.task (if g.busy then g.started - 1 else g.started)
    (s.setFld engTaskStateState e g.task st).setFld engTaskStateWaitOut e g.task (b2n out)

/-- The contexts of a chain shown anew after one of its tokens has moved. -/
def State.showTasks (s : State) (c : Chain) : State :=
  (List.range c.stages.length).foldl (fun s k =>
    match c.stages[k]? with
    | some g => s.showTask c k g
    | none => s) s

/-- A chain replaced, and its contexts shown anew. -/
def State.putChain (s : State) (c : Chain) : State := (s.setChain c).showTasks c

/-- Whether a ring, by address and first token, is the one that the external head of a chain offers (R335). -/
def Chain.offers (c : Chain) (ring base : Nat) : Bool :=
  match c.stages.head? with
  | some g => g.kind == 5 && g.ringAddr == ring && g.tokenBase == base
  | none => false

/-- The chain whose external head offers a ring. -/
def State.headChain (s : State) (ring base : Nat) : Option Chain := s.chains.find? (·.offers ring base)

/-- Whether the producer outside sees a slot of an external head's ring EMPTY (R337, R339). -/
def State.headEmpty (s : State) (g : Stage) (slot : Nat) : Bool :=
  s.slotToken g slot == 0 &&
  (match s.headChain g.ringAddr g.tokenBase with
   | some c => !c.unseen 0 slot false
   | none => true)

/-- The producer outside fills a slot (R335, R336): FILLING as it starts, FULL once the last line is accepted; the chain's head has
produced one more item, which its consumer sees after the hand-over (R339). -/
def State.headFull (s : State) (g : Stage) (slot : Nat) : State :=
  let s := (s.putSlotToken g slot 1).putSlotToken g slot 2
  match s.headChain g.ringAddr g.tokenBase with
  | some c =>
    s.putChain { c with stages := c.stages.modify 0 fun h => { h with started := h.started + 1 },
                        hidden := c.hidden ++ [⟨0, slot, true⟩] }
  | none => s

/-- Whether the task of a context is ready (R342): its stage can start its next item but for task selection. -/
def State.taskReady (s : State) (e task : Nat) : Bool :=
  !(s.eng e).preempt.contains task &&
  (match s.chainOfTask e task with
   | some (c, k) => (match c.stages[k]? with
     | some g => s.itemReady c k g
     | none => false)
   | none => false)

/-- Chains that wait for contexts take them, in launch order, where all are free (R600, R620). -/
def State.grantContexts (s : State) : State :=
  ((s.chains.filter (·.waiting)).foldl (fun acc c => s.insertOrdered c acc) []).foldl (fun s c =>
    if !c.stopped && s.contextsFree c.launch c.stages then
      (((s.traceContext c false).setChain { c with waiting := false }).takeContexts { c with waiting := false }).showTasks
        { c with waiting := false }
    else s) s

/-! ## Logs -/

/-- CLU_CHAIN_LOG records the first end with a status other than OK since VALID was cleared (R367). -/
def State.logChain (s : State) (c : Chain) (status stage item : Nat) : State :=
  if status = stOk then s
  else if s.fld cluChainLogValid c.cluster = 1 then s.setFld cluChainLogOverflow c.cluster 0 1
  else
    s.wr .cluChainLog c.cluster 0
      (BitVec.ofNat 64 (status % 256 + stage % 8 * 2 ^ 8 + c.owner % 64 * 2 ^ 16 + c.launch % 4096 * 2 ^ 22 +
        item % 2 ^ 24 * 2 ^ 34 + 2 ^ 63))

/-! ## Ending a chain -/

/-- The item of a stage: the one in progress, or the next. -/
def Stage.item (g : Stage) : Nat := if g.outOpen || g.inOpen || g.tileOpen then g.started - 1 else g.started

/-- Messages of a chain that ends: those whose header is not sent are stopped, the others go on (R359, R492). -/
def State.stopMsgs (s : State) (c : Chain) : State :=
  { s with
    sentMsgs := (s.sentMsgs.filter fun m => !(m.chain == some c.ref && !m.sent)).map fun m =>
      if m.chain == some c.ref then { m with aborted := true, chain := none } else m
    heldWrites := s.heldWrites.map fun w =>
      if w.by_.who.map (·.chain) == some c.ref then { w with by_ := { w.by_ with who := none } } else w }

/-- Saved tasks of a chain discarded (R625). -/
def State.dropSaved (s : State) (c : Chain) : State :=
  let s := (s.beam.saved.filter fun x => x.chain == c.ref && !x.done).foldl (fun s x => s.freeContext x.engine x.task) s
  { s with beam := { s.beam with saved := s.beam.saved.filter fun x => x.chain != c.ref } }

/-- What ending a chain does to its own: counted, logged, tokens EMPTY, contexts freed, messages stopped (R338, R359, R367). -/
def State.closeChain (s : State) (c : Chain) (status stage : Nat) : State :=
  let item := match c.stages[stage]? with
    | some g => g.item
    | none => 0
  let s := s.bump .cluChainEndCnt c.cluster 0 1
  let s := s.logChain c status stage item
  let s := s.emptyRings c
  let s := if c.waiting && !c.stopped then s.traceContext c true else s
  let s := s.freeContexts c
  let s := s.dropSaved c
  let s := s.stopMsgs c
  s.dropChain c

/-- A sequence ended with a status (R608). -/
def State.endSeq (s : State) (cluster launch : Nat) (status : Nat) : State :=
  match s.findSeq cluster launch with
  | some q => if q.ended then s else s.setSeq { q with ended := true, status := status }
  | none => s

/-- The sequence of a regeneration or predictor commit goes once it has ended. -/
def State.dropExtra (s : State) (cluster launch : Nat) : State :=
  { s with seqs := s.seqs.filter fun q => !(q.cluster == cluster && q.launch == launch && q.extra) }

/-- Every mention of a chain by one name turned into another. -/
def State.renameRef (s : State) (old new : ChainRef) : State :=
  let f (r : Option ChainRef) : Option ChainRef := if r == some old then some new else r
  let g (r : ChainRef) : ChainRef := if r == old then new else r
  { s with
    sentMsgs := s.sentMsgs.map fun m => { m with chain := f m.chain }
    heldWrites := s.heldWrites.map fun w => { w with by_ := { w.by_ with who := w.by_.who.map fun x => { x with chain := g x.chain } } }
    sram := { s.sram with refetch := s.sram.refetch.map fun x => { x with reader := g x.reader } }
    pool := { s.pool with waiting := s.pool.waiting.map fun x => { x with chain := f x.chain }
                          rebuilds := s.pool.rebuilds.map fun x => { x with readers := x.readers.map g } }
    beam := { s.beam with saved := s.beam.saved.map fun x => { x with chain := g x.chain } } }

/-- The chain launched ahead becomes the sequence's current one. -/
def State.promoteAhead (s : State) (cluster launch : Nat) : State :=
  match s.chains.find? fun d => d.cluster == cluster && d.launch == launch && d.ahead && !d.extra with
  | none => s
  | some c =>
    let s := s.renameRef c.ref { c.ref with ahead := false }
    { s with chains := s.chains.map fun d => if d.same c then { d with ahead := false } else d }

/-- An abort before the commit point ends a chain at once where no engine tile of it is open, and otherwise at its tile's end (R359);
past the commit point its results stand (R865). -/
def State.abortChain (s : State) (c : Chain) : State :=
  if c.completion = 2 then s.closeChain c stAlreadyDone 0
  else if c.stages.any (·.tileOpen) then s.setChain { c with aborting := some stAborted }
  else s.closeChain c stAborted 0

/-- R608: a sequence that fails aborts the record's other sequences, as an abort does. -/
def State.abortOthers (s : State) (cluster launch : Nat) : State :=
  let s := (s.chains.filter fun d => d.launch == launch && d.cluster != cluster).foldl State.abortChain s
  { s with seqs := (s.seqs.filter fun q => !(q.launch == launch && q.cluster != cluster && q.extra)).map fun q =>
      if q.launch == launch && q.cluster != cluster && !q.ended then { q with ended := true, status := stAborted } else q }

/-- An abort that ends a chain ends its sequence with ABORTED, aborts the chain launched ahead or its predecessor, and the record's other
sequences (R608, R865). -/
def State.abortSeq (s : State) (cluster launch : Nat) : State :=
  let s := (s.chains.filter fun d => d.launch == launch && d.cluster == cluster).foldl State.abortChain s
  ((s.dropExtra cluster launch).endSeq cluster launch stAborted).abortOthers cluster launch

/-- The first failure of a record's sequences (R608). -/
def State.noteFailure (s : State) (launch status : Nat) : State :=
  match s.findRec launch with
  | some r => if r.status = 0 then s.setRec { r with status := status } else s
  | none => s

/-- R608, R865: a chain or collective that ends with a failure ends its sequence, and aborts the chain launched ahead, or its predecessor;
unless the status is NONFINITE_SKIP the record's other sequences are aborted too. -/
def State.failSeq (s : State) (cluster launch status : Nat) : State :=
  let s := (s.chains.filter fun d => d.launch == launch && d.cluster == cluster).foldl State.abortChain s
  let s := (s.dropExtra cluster launch).endSeq cluster launch status
  if status = stNonfiniteSkip then s else (s.noteFailure launch status).abortOthers cluster launch

/-- A regeneration that ends with a failure is counted (R234). -/
def State.regenFailed (s : State) (c : Chain) (status : Nat) : State :=
  if c.origin = 3 && status == stPoisonConsumed then s.bump .cluCkptRegenFailCnt c.cluster 0 1 else s

/-- A chain of a record's own sequence has completed: the sequence goes on at its NEXT, or ends (R229, R352, R608). -/
def State.seqDone (s : State) (c : Chain) : State :=
  match s.findSeq c.cluster c.launch with
  | some q => s.setSeq { q with ops := q.ops + 1, lastItems := c.items, commitBeam := s.beamNow, next := c.next,
                                backward := if c.rphase = 2 ∧ c.region ≠ 0xFFFF then setInsert c.region q.backward else q.backward,
                                ended := q.ended || c.next == 0 }
  | none => s

/-- The chain that was launched ahead becomes the current one once the sequence has come to it; where it has passed its commit point it ends
with OK (R352, R865). -/
def State.advance (s : State) (cluster launch : Nat) : State :=
  let here := match s.findSeq cluster launch, s.chains.find? fun d => d.cluster == cluster && d.launch == launch && d.ahead && !d.extra with
    | some q, some d => q.next == d.off
    | _, _ => false
  let s := if here then s.promoteAhead cluster launch else s
  match s.chains.find? fun d => d.cluster == cluster && d.launch == launch && !d.ahead && !d.extra && d.completion == 2 with
  | some d => (s.closeChain d stOk 0).seqDone d
  | none => s

/-- Whether a chain's NEXT leaves the recompute and backward of its region (R216, R327). -/
def State.leavesUnit (s : State) (c : Chain) : Bool :=
  let w := s.virtWord (cluDie c.cluster) c.owner (c.prog + 64 * c.next)
  bitsOf w 40 16 != c.region || !(bitsOf w 56 2 == 1 || bitsOf w 56 2 == 2)

/-- A region's backward has committed once more in a chain that a rerun runs beside the record's own sequence (R229, R231). -/
def State.noteBackward (s : State) (c : Chain) : State :=
  if c.origin = 1 ∧ c.rphase = 2 then
    match s.findSeq c.cluster c.launch with
    | some q => s.setSeq { q with backward := setInsert c.region q.backward }
    | none => s
  else s

/-- The sequence after one of its chains has ended (R352, R608, R865). A chain that ran beside the record's own sequence leaves that
sequence as it is, unless it failed (R229, R231, R232, R234). -/
def State.seqAfter (s : State) (c : Chain) (status : Nat) : State :=
  if !goodStatus status then (s.regenFailed c status).failSeq c.cluster c.launch status
  else if c.extra then
    let s := s.noteBackward c
    match s.findSeq c.cluster c.launch true with
    | some q =>
      if c.next = 0 || (c.origin == 1 && s.leavesUnit c) then s.dropExtra c.cluster c.launch
      else s.setSeq { q with next := c.next, ops := q.ops + 1 }
    | none => s
  else (s.seqDone c).advance c.cluster c.launch

/-- A chain ends with a status met at a stage; an abort that it has met before decides (R351). -/
def State.endChain (s : State) (c : Chain) (status stage : Nat) : State :=
  match c.aborting with
  | some st => ((s.closeChain c st 0).abortSeq c.cluster c.launch).grantContexts
  | none => ((s.closeChain c status stage).seqAfter c status).grantContexts

/-- The status of work whose write did not take place: TIER_FAIL after a failed write to the host window, else PAGE_FAULT (R362, R693). -/
def State.faultStatus (s : State) : Nat := if s.host.failed then stTierFail else stPageFault

def State.clearFailed (s : State) : State := { s with host := { s.host with failed := false } }

/-- A chain ends because a write of its stage did not take place. -/
def State.endWrite (s : State) (c : Chain) (stage : Nat) : State := s.clearFailed.endChain c s.faultStatus stage

/-- What stopping a chain for a rerun does once no tile of it is open: tokens EMPTY, contexts freed, outputs that have not left discarded
(R289, R356). -/
def State.parkChain (s : State) (c : Chain) : State :=
  let s := s.emptyRings c
  let s := ((s.freeContexts c).dropSaved c).stopMsgs c
  (s.setChain { c with stopped := true, waiting := true, waitFrom := s.beamNow,
                       stages := c.stages.map fun g => { g with tileOpen := false, away := false, todo := false } }).grantContexts

/-- A chain whose abort or rerun waited for its tiles ends or stops once none is open (R289, R359). -/
def State.settleAbort (s : State) (c : Chain) : State :=
  if c.stages.any (·.tileOpen) then s
  else
    match c.aborting with
    | some st => ((s.closeChain c st 0).abortSeq c.cluster c.launch).grantContexts
    | none => if c.stopped && !c.waiting then s.parkChain c else s

/-! ## Descriptors of a chain (R326, R330) -/

/-- Descriptor `d` of a chain; an index at or above NDESC reads the last (R326). The answer carries the clamps it took. -/
def State.chainDesc (s : State) (c : Chain) (d : Nat) : Desc × Nat :=
  let k := if d < c.ndesc then d else c.ndesc - 1
  let (x, n) := parseDesc (s.virtWords (cluDie c.cluster) c.owner (c.descTable + 128 * k) 16)
  (x, n + b2n (decide (c.ndesc ≤ d)))

/-! ## Traces of engine commands (R834, R835) -/

/-- A CMD_BEGIN (1) or CMD_END (2) record of an engine's task, at an engine level. -/
def State.traceCmd (s : State) (level rtype e task opc index cycles : Nat) : State :=
  let die := engDie e
  if s.traceLevel die < level then s
  else
    let ts := s.rd .engTaskState e task
    let owner := bitsOf ts 4 6
    let launch := bitsOf ts 10 12
    let item := bitsOf ts 32 24
    let w0 := rtype + engPacked e * 2 ^ 4 + task * 2 ^ 11 + opc * 2 ^ 13 + owner * 2 ^ 17 + launch * 2 ^ 23 + item * 2 ^ 35
    s.stageTrace die (engPacked e) owner
      ⟨BitVec.ofNat 64 w0, BitVec.ofNat 64 s.beamNow, BitVec.ofNat 64 (index % 2 ^ 32 + cycles % 2 ^ 32 * 2 ^ 32),
       BitVec.ofNat 64 (s.recOr launch).stepRev⟩

/-- A SYNC_WAIT of a chain's stage, where the wait lasted at least TRACE_SYNC_MIN cycles (R834, R836). -/
def State.traceStageWait (s : State) (c : Chain) (k : Nat) (g : Stage) (w : SyncWait) (cycles : BitVec 40) (ended : Bool) : State :=
  let die := cluDie c.cluster
  if cycles.toNat = 0 ∨ cycles.toNat < s.fld ctrTraceCfgSyncMin die then s
  else
    let eng := if g.kind = 0 then g.engine else 0
    let w0 := 3 + eng * 2 ^ 6 + k % 8 * 2 ^ 13 + c.owner % 64 * 2 ^ 16 + c.launch % 4096 * 2 ^ 22 + w.on.toNat * 2 ^ 34 +
      w.who.toNat * 2 ^ 37 + b2n w.whoDie * 2 ^ 49 + w.link.toNat * 2 ^ 50 + b2n ended * 2 ^ 54
    s.stageTrace die (0x80 + c.cluster % 12) c.owner
      ⟨BitVec.ofNat 64 w0, BitVec.ofNat 64 s.beamNow, BitVec.ofNat 64 (cycles.toNat + g.started % 2 ^ 24 * 2 ^ 40),
       BitVec.ofNat 64 c.stepRev⟩

/-! ## Tiles -/

/-- The stage whose tile an engine's context has ended is marked, and an abort that waited for the tile ends its chain (R331, R359). -/
def State.closeStageTile (s : State) (e task : Nat) : State :=
  match s.chainOfTask e task with
  | some (c, k) =>
    let c' := { c with stages := c.stages.modify k fun g => { g with tileOpen := false } }
    ((s.setChain c').showTasks c').settleAbort c'
  | none => s

/-- The index of the command that a context takes now, and the engine with it taken (R834). -/
def Engine.countCmd (x : Engine) (task : Nat) : Nat × Engine :=
  let n := lookupD 0 task x.cmdIdx
  (n, { x with cmdIdx := putD 0 task (n + 1) x.cmdIdx })

end Sys2Proof.Machine
end

