-- ==== Sys2Proof/Machine/Program.lean ====
section
/-!
DEFINITION. The program of a launch record as sequencers read it (spec/12_beam_and_launching.md R589 to R592, spec/05_backward_recompute.md
R216 to R218), the rerun units of its chains, and what an error that a read finds does to them (spec/06_onchip_memory.md R281 to R293).
-/
namespace Sys2Proof.Machine

/-! ## The program (R589 to R592) -/

/-- Word `k` of the entry table of a program. -/
def State.progWord (s : State) (die owner prog k : Nat) : Word := s.virtWord die owner (prog + 8 * k)

/-- Words at an offset from the program base, in 64-byte units. -/
def State.progAt (s : State) (die owner prog off n : Nat) : List Word := s.virtWords die owner (prog + 64 * off) n

/-- N_REGIONS, read as 0 when REGION_TABLE is 0 (R326). -/
def State.regionCount (s : State) (die owner prog : Nat) : Nat :=
  let w := s.progWord die owner prog 28
  if bitsOf w 0 32 = 0 then 0 else bitsOf w 32 16

/-- The fields of a region record that sequencers use (R216). -/
structure RegionRec where
  nAckpt : Nat
  nSckpt : Nat
  skip : Bool
  ckptList : Nat
  fwd : Nat
  recomp : Nat
  bwd : Nat
  pred : Nat
  regen : Nat
  /-- the pool's tier that CKPT_TIER names (R445), and whether it was 3, read as 0 (R218) -/
  tier : Nat
  clamp : Bool

/-- The region record of a region of a program (R216, R218, R590). -/
def State.regionRec (s : State) (die owner prog r : Nat) : RegionRec :=
  let tab := bitsOf (s.progWord die owner prog 28) 0 32
  let w := fun k => s.virtWord die owner (prog + 64 * tab + 32 * r + 8 * k)
  { nAckpt := bitsOf (w 0) 16 4 + 1, nSckpt := bitsOf (w 0) 20 4, skip := bitOf (w 0) 24, ckptList := bitsOf (w 0) 32 32,
    fwd := bitsOf (w 1) 0 32, recomp := bitsOf (w 1) 32 32, bwd := bitsOf (w 2) 0 32, pred := bitsOf (w 2) 32 32,
    regen := bitsOf (w 3) 0 32,
    tier := if bitsOf (w 0) 25 2 = 1 then 0 else if bitsOf (w 0) 25 2 = 2 then 2 else 1, clamp := bitsOf (w 0) 25 2 == 3 }

/-- The stream plan of a program (R592): the virtual address of its header, W and N_ENTRIES; none without a plan. -/
def State.planHeader (s : State) (die owner prog : Nat) : Option (Nat × Nat × Nat) :=
  let off := bitsOf (s.progWord die owner prog 30) 0 32
  if off = 0 then none
  else
    let base := prog + 64 * off
    let h := s.virtWord die owner base
    some (base, min 8 (max 1 (bitsOf h 0 4)), bitsOf h 4 24)

/-! ## The tensor table (R249, R253, R254, R591) -/

/-- Entries of the tensor table. -/
def State.tensorCount (s : State) (die owner prog : Nat) : Nat :=
  let w := s.progWord die owner prog 29
  if bitsOf w 0 32 = 0 then 0 else bitsOf w 32 32

/-- Word `k` of entry `i` of the tensor table; zero past the table. -/
def State.tensorWord (s : State) (die owner prog i k : Nat) : Word :=
  if i < s.tensorCount die owner prog then
    s.virtWord die owner (prog + 64 * bitsOf (s.progWord die owner prog 29) 0 32 + 64 * i + 8 * k)
  else 0#64

/-- Bytes of a weight tile of a width class, 5 to 7 read as 0, and of its scale image (the table before R249). -/
def tileSizes (width : Nat) : Nat × Nat :=
  match width with
  | 1 => (4096, 128)
  | 2 => (6144, 256)
  | 3 => (4096, 256)
  | 4 => (8192, 0)
  | _ => (4096, 0)

/-- The order policy of an entry as read, and its clamps (R253, R254): ORDER 3 as 0, a copy that ORDER does not hold as the one that it holds,
REBUILD without dual order as 0. -/
def orderPolicy (p : Nat) : Nat × Nat :=
  let order := if p % 4 = 3 then 0 else p % 4
  let fwd := p / 4 % 2
  let bwd := p / 8 % 2
  let reb := p / 16 % 2
  let pick := fun c => if order = 2 then c else order
  let reb' := if order = 2 then reb else 0
  (order + pick fwd * 4 + pick bwd * 8 + reb' * 16,
   b2n (p % 4 == 3) + b2n (pick fwd != fwd) + b2n (pick bwd != bwd) + b2n (reb' != reb))

/-- One array of a listed tensor: its base and its counterpart's, its bytes, the bytes of its tiles, and whether it is column-blocked. -/
structure TensorCopy where
  base : Nat
  other : Nat
  bytes : Nat
  tile : Nat
  col : Bool

/-- The arrays that an entry of the tensor table names. -/
def tensorCopies (w : Nat → Word) : List TensorCopy :=
  let (tile, scale) := tileSizes (bitsOf (w 0) 49 3)
  let n := bitsOf (w 5) 0 24 * bitsOf (w 5) 24 24
  let base := fun k => bitsOf (w k) 0 48
  let copy : Nat → Nat → Nat → Bool → TensorCopy := fun b o t col =>
    { base := base b, other := base o, bytes := n * t, tile := t, col := col }
  ([copy 1 2 tile false, copy 2 1 tile true] ++ if bitOf (w 0) 52 then [copy 3 4 scale false, copy 4 3 scale true] else []).filter
    fun c => c.base != 0 && decide (0 < c.bytes)

/-- Clamps of an entry of the tensor table (R254, R591). -/
def tensorClamps (w : Nat → Word) : Nat := b2n (decide (4 < bitsOf (w 0) 49 3)) + (orderPolicy (bitsOf (w 0) 32 16)).2

/-- What the pool manager records in the frame of a page of a listed tensor (R251, R591). The generation stamp is the one that STAMP_ADDR
holds as the program is loaded (log entry 81). -/
def State.nameFrame (s : State) (die owner : Nat) (w : Nat → Word) (c : TensorCopy) (f : FrameRec) : FrameRec :=
  let at_ := bitsOf (w 6) 0 48 / 8 * 8
  { f with
    tensor := bitsOf (w 0) 0 32, policy := (orderPolicy (bitsOf (w 0) 32 16)).1, context := bitOf (w 0) 48, colCopy := c.col,
    copyBase := c.base, otherBase := c.other, kb := bitsOf (w 5) 0 24, nb := bitsOf (w 5) 24 24, tileBytes := c.tile,
    stamp := if at_ = 0 then 0 else bitsOf (s.virtWord die owner at_) 0 32 }

/-- The frame record of a page of a program: named by the last array of the tensor table that the page belongs to. -/
def State.namePage (s : State) (die owner prog vpage : Nat) (f : FrameRec) : FrameRec :=
  (List.range (s.tensorCount die owner prog)).foldl (fun f i =>
    let w := s.tensorWord die owner prog i
    (tensorCopies w).foldl (fun f c =>
      if c.base < (vpage + 1) * 65536 ∧ vpage * 65536 < c.base + c.bytes then s.nameFrame die owner w c f else f) f) f

/-! ## Checkpoints (R216 to R218) -/

/-- Entry `k` of a region's checkpoint list (R217). -/
def State.ckptEntry (s : State) (die owner prog : Nat) (g : RegionRec) (k : Nat) : Word :=
  s.virtWord die owner (prog + 64 * g.ckptList + 8 * k)

/-- The record of a chain's region. -/
def State.regionOf (s : State) (c : Chain) : RegionRec := s.regionRec (cluDie c.cluster) c.owner c.prog c.region

/-- The entry of the checkpoint list of a chain's region that names a tensor as an activation checkpoint (R217). -/
def State.ckptOf (s : State) (c : Chain) (tensor : Nat) : Option Word :=
  if c.region = 0xFFFF ∨ tensor = 0 then none
  else
    let g := s.regionOf c
    ((List.range g.nAckpt).map fun k => s.ckptEntry (cluDie c.cluster) c.owner c.prog g k).find? fun w =>
      bitsOf w 0 32 == tensor && !bitOf w 48

/-- The clamp of a region record that a cluster's sequencer reads (R218). -/
def State.regionClamp (s : State) (cluster : Nat) (g : RegionRec) : State := s.clamped cluster (b2n g.clamp)

/-! ## Rerun units (R288 to R293, R327) -/

/-- The rerun unit of a chain as (region, part): part 0 forward, 1 recompute and backward, 3 regeneration, 4 the record's own work. -/
def Chain.unit (c : Chain) : Nat × Nat :=
  if c.region = 0xFFFF then (0xFFFF, 4) else (c.region, if c.rphase = 2 then 1 else c.rphase)

def Chain.inUnit (c : Chain) (launch : Nat) (u : Nat × Nat) : Bool := c.launch == launch && c.unit == u

def RerunUnit.is (r : RerunUnit) (launch : Nat) (u : Nat × Nat) : Bool :=
  r.launch == launch && r.region == u.1 && r.part == u.2

def State.findUnit (s : State) (launch : Nat) (u : Nat × Nat) : RerunUnit :=
  (s.reruns.find? (·.is launch u)).getD { launch := launch, region := u.1, part := u.2, count := 0, stopped := false }

def State.setUnit (s : State) (r : RerunUnit) : State :=
  { s with reruns := (s.reruns.filter fun q => !q.is r.launch (r.region, r.part)) ++ [r] }

/-- R289, first step: a chain stops at once: its engines' tiles are discarded. -/
def State.haltEngines (s : State) (c : Chain) : State :=
  c.stages.foldl (fun s g =>
    if g.kind = 0 then
      let e := engIndex g.engine
      let x := s.eng e
      s.setEng e { x with
        tileOpen := x.tileOpen && !(x.tileTask == g.task)
        held := x.held.filter fun h => h.task != g.task
        queue := x.queue.filter fun q => q.task != g.task
        flight := x.flight.filter fun f => f.task != g.task }
    else s) s

/-- R289: the detecting chain stops at once, every other chain of the unit at its next tile boundary. -/
def State.stopUnit (s : State) (det : Chain) (u : Nat × Nat) : State :=
  s.chains.foldl (fun s d =>
    if d.inUnit det.launch u && !d.stopped then
      if d.same det then (s.haltEngines d).parkChain d
      else if d.stages.any (·.tileOpen) then s.setChain { d with stopped := true }
      else s.parkChain d
    else s) s

/-- R292: an error past the limit ends every chain of its unit, and their sequences, with the status of its cause. -/
def State.endUnit (s : State) (det : Chain) (u : Nat × Nat) (status : Nat) : State :=
  let mine := s.chains.filter fun d => d.inUnit det.launch u
  let s := mine.foldl (fun s d => (s.haltEngines d).closeChain d status 0) s
  let s := mine.foldl (fun s d => s.endSeq d.cluster d.launch status) s
  (s.failSeq det.cluster det.launch status).grantContexts

/-- R288 to R293: an error found in a chain's work: a rerun of its unit, or past the limit the end of the unit's chains with the status of
the cause. -/
def State.rerunError (s : State) (c : Chain) (status : Nat) : State :=
  let u := c.unit
  let r := s.findUnit c.launch u
  if r.stopped then s.stopUnit c u
  else if s.dnat dkParityRerunLimit ≤ r.count then s.endUnit c u status
  else (s.setUnit { r with count := r.count + 1, stopped := true, status := status }).stopUnit c u

/-! ## Parity and poison that a chain's reads meet (R281, R286, R287) -/

/-- Bytes that fail parity in a gallery frame of an activation checkpoint of the chain's region that CKPT_TIER keeps in the gallery: their
128-byte lines are seen as poisoned (R286). -/
def State.ckptInGallery (s : State) (c : Chain) (pa : Nat) : Bool :=
  s.frameTier (pa / 65536) == 0 && (match s.phys pa with
    | .gallery _ _ => (s.ckptOf c (s.frame (pa / 65536)).tensor).isSome && (s.regionOf c).tier == 0
    | _ => false)

/-- The lines of some bytes marked poisoned. -/
def State.poisonLines (s : State) (bytes : List Nat) : State :=
  { s with poison := bytes.foldl (fun p b => (List.range 4).foldl (fun p k => setInsert (b / 128 * 4 + k) p) p) s.poison }

/-- What the bytes that fail parity after a chain's read do (R286): those of a checkpoint kept in the gallery poison their lines; any other
reruns the chain's unit, which the answer tells. -/
def State.parityStops (s : State) (c : Chain) (bytes : List Nat) : State × Bool :=
  if bytes = [] then (s, false)
  else
    let s := s.regionClamp c.cluster (if c.region = 0xFFFF then { s.regionOf c with clamp := false } else s.regionOf c)
    let (mild, hard) := bytes.partition fun b => s.ckptInGallery c b
    let s := s.poisonLines mild
    if hard = [] then (s, false) else (s.rerunError c stParityRerunLimit, true)

/-- The bytes of runs of physical memory that fail parity. -/
def State.badBytes (s : State) (runs : List (Nat × Nat)) : List Nat := runs.flatMap fun p => setIn p.1 p.2 s.badCheck

/-- The check bits of the lens ranges (requester by R278, start, length) that a stage's work on an engine reads: every range that fails is counted
and logged, charged to the stage (R281, R287, R306). The answer tells whether one failed. -/
def State.lensParity (s : State) (e : Nat) (c : Option (Chain × Nat)) (reads : List (Nat × Nat × Nat)) : State × Bool :=
  let base := 2 ^ 48 + e * 2097152
  let bad := reads.filterMap fun r =>
    (setIn (base + r.2.1) (min r.2.2 (lensSize - r.2.1)) s.badCheck).head?.map fun k => (r.1, k - base)
  let charge := match c with
    | some (c, k) => ({ unit := .engine e, owner := c.owner, who := some ⟨c.ref, k⟩ } : Access).charge
    | none => 0
  (bad.foldl (fun s b => s.logLens e b.2 b.1 charge) s, bad != [])

/-- Whether a lens range holds a sector with the poison flag (R283). -/
def State.lensPoison (s : State) (e a n : Nat) : Bool :=
  let base := 2 ^ 48 + e * 2097152 + a
  let n := min n (lensSize - a)
  setIn (base / 32) ((base + n + 31) / 32 - base / 32) s.poison != []

/-- The lens ranges that a command of an engine's task reads: the task's chain is rerun for one that fails parity, and ended by one with the
poison flag (R283, R286, R287). The answer tells that the command does not run. -/
def State.lensFaults (s : State) (e task : Nat) (reads : List (Nat × Nat × Nat)) : State × Bool :=
  let c := s.chainOfTask e task
  let (s, bad) := s.lensParity e c reads
  match c with
  | some (c, k) =>
    if bad then (s.rerunError c stParityRerunLimit, true)
    else if reads.any fun r => s.lensPoison e r.2.1 r.2.2 then (s.endChain c stPoisonConsumed k, true)
    else (s, false)
  | none => (s, false)

end Sys2Proof.Machine
end

