-- ==== Sys2Proof/Machine/PoolOps.lean ====
section
/-!
DEFINITION. What the meanings share about the capacity pool (spec/09_capacity_pool.md): frames by tier, owners' holdings, the choice of
a frame, the switch of a page to another frame, copies of whole frames, window frames, quarantine, retirement.
-/
namespace Sys2Proof.Machine

/-! ## Tiers (R412, R417) -/

/-- Frames of an owner in a tier: of one die for the gallery, of the package for HBM and shelf (R417). -/
def State.held (s : State) (owner tier die : Nat) : Nat :=
  s.pool.frames.countP fun p =>
    p.2.owner == owner && p.2.st != .free && s.frameTier p.1 == tier && (tier != 0 || s.frameDie p.1 == die)

/-- An owner's floor and ceiling in frames; the shelf has no floor (R417, R461). -/
def State.floorOf (s : State) (owner tier : Nat) : Nat :=
  16 * (if tier = 0 then s.dnat (dkGalFloor owner) else if tier = 1 then s.dnat (dkHbmFloor owner) else 0)

def State.ceilOf (s : State) (owner tier : Nat) : Nat :=
  16 * (if tier = 0 then s.dnat (dkGalCeil owner) else if tier = 1 then s.dnat (dkHbmCeil owner) else s.dnat (dkShelfCeil owner))

/-- The frame numbers of a tier of a die: first and count. -/
def State.tierRange (s : State) (tier die : Nat) : Nat × Nat :=
  if tier = 0 then (galleryBase die / 65536, 3072)
  else if tier = 1 then (dieHbmBase die / 65536, hbmPerDie s.order s.harbour / 65536)
  else (shelfBase / 65536, s.dnat dkPoolShelfFrames)

/-- Frames outside the pool: unpopulated, reserved, or retired (R414). -/
def State.outside (s : State) (n : Nat) : Bool :=
  s.isHole (n * 65536) || inReserved s.fuses (n * 65536) ||
  (s.frameTier n == 0 && s.sram.retiredFrames.contains (s.frameDie n * 3072 + (n * 65536) % 0x1000_0000 / 65536))

/-- The lowest free frame from `n` on, within `fuel` frames. -/
def State.lowestFree (s : State) : Nat → Nat → Option Nat
  | _, 0 => none
  | n, fuel + 1 => if (s.frame n).st = .free && !s.outside n then some n else s.lowestFree (n + 1) fuel

/-! ## Pages and their entries (R430, R681) -/

/-- The physical address of the page entry of a virtual page in a tree, from a table of a level. -/
def State.leafFrom (s : State) (va : Nat) : Nat → Nat → Nat → Option Nat
  | 0, _, _ => none
  | fuel + 1, level, table =>
    let a := table + 16 * xlatIndex va level
    let w0 := s.memWord a
    if level = 3 then (if bitsOf w0 0 2 = 2 then some a else none)
    else if bitsOf w0 0 2 = 1 then s.leafFrom va fuel (level + 1) (bitsOf w0 8 40 * 256 / xlatAlign level * xlatAlign level)
    else none

/-- The entry of a 64 KiB page in an owner's tree on a die. -/
def State.leafAddr (s : State) (die owner vpage : Nat) : Option Nat :=
  let root := s.rd .poolXlatRoot die owner
  if bitOf root 0 then s.leafFrom (vpage * 65536) 4 0 (bitsOf root 13 35 * 8192) else none

/-- Writes that wait for a frame wait for the one that its page has moved to (R433, R643). -/
def HeldWrite.retarget (w : HeldWrite) (src dst : Nat) : HeldWrite :=
  if w.addr / 65536 = src then
    { w with addr := dst * 65536 + w.addr % 65536, bad := w.bad.map fun k => dst * 2048 + (k - src * 2048) }
  else w

/-- The entry of a page made to name another frame, on every die whose tree maps the page to the frame; the page's protection and the writes that
wait for it go with it (R430, R433). -/
def State.switchPage (s : State) (owner vpage src dst : Nat) : State :=
  let on (s : State) (die : Nat) : State :=
    match s.leafAddr die owner vpage with
    | some a =>
      let w := s.memWord a
      if bitsOf w 16 32 = src then s.putRaw a (bytesOf (withBits w 16 32 dst).toNat 8) else s
    | none => s
  let s := on (on s 0) 1
  let s := (s.setFrame dst { s.frame dst with prot := (s.frame src).prot || (s.frame dst).prot }).setFrame src { s.frame src with prot := false }
  { s with heldWrites := s.heldWrites.map fun w => w.retarget src dst }

/-- The entry of a page made invalid, on every die whose tree maps the page to the frame (R457). -/
def State.unmapPage (s : State) (owner vpage src : Nat) : State :=
  let on (s : State) (die : Nat) : State :=
    match s.leafAddr die owner vpage with
    | some a =>
      let w := s.memWord a
      if bitsOf w 16 32 = src then s.putRaw a (bytesOf (withBits w 0 2 0).toNat 8) else s
    | none => s
  on (on s 0) 1

/-! ## Copies of whole frames (R295, R430, R434) -/

/-- The lines of a frame with a byte that fails parity, by line number within it. -/
def State.parityLines (s : State) (n : Nat) : List Nat :=
  (setIn (n * 65536) 65536 s.badCheck).foldl (fun l k => setInsert ((k - n * 65536) / 128) l) []

/-- The sectors of a frame that a copy must leave as poison marks, by number within it: uncorrectable or marked in HBM, flagged elsewhere, of
lines that fail parity, or all where the frame is quarantined (R295, R434, R449). -/
def State.badSectors (s : State) (n : Nat) : List Nat :=
  if (s.frame n).quarantined then List.range 2048
  else
    let lo := n * 2048
    let hbm := ((s.hbmDelta.map (·.1) ++ s.hbm.sevBad).filter fun k => decide (lo ≤ k) && decide (k < lo + 2048) && s.sectorBad k).map (· - lo)
    let flagged := (setIn lo 2048 s.poison).map (· - lo)
    let parity := (s.parityLines n).flatMap fun k => (List.range 4).map fun j => k * 4 + j
    (hbm ++ flagged ++ parity).foldl (fun acc k => setInsert k acc) []

/-- The bytes of a frame as a copy reads them: correctable sectors corrected. -/
def State.frameBytes (s : State) (n : Nat) : Bytes :=
  let fixes := (s.hbmDelta.filter fun p => decide (n * 2048 ≤ p.1) && decide (p.1 < n * 2048 + 2048)).map (·.1)
  fixes.foldl (fun l k => putRun 0#8 (k * 32 - n * 65536) (s.memBytes (k * 32) 32) l) (sliceAt (n * 65536) 65536 s.mem)

/-- The sectors of a frame of HBM transferred by its stacks (R825): the frame's pages lie on each in turn (R369). -/
def State.countFrame (s : State) (n : Nat) : State :=
  if s.isHbm (n * 65536) then
    (List.range 16).foldl (fun s k => s.bump .ctrStackSectorCnt ((hbmPlace s.harbour (n * 65536 + 4096 * k)).1 / 4)
      ((hbmPlace s.harbour (n * 65536 + 4096 * k)).1 % 4) 128) s
  else s

/-- An access of the maintenance port for a frame (R275). -/
def State.maintAccess (s : State) (n owner : Nat) : Access := { unit := .maint (s.frameDie n), owner := owner }

/-- What a copy's reads of a frame find: in HBM each sector that is not clean is counted, logged and posted, and a correctable one queues its
write-back (R374 to R381, R434); in SRAM each line that fails parity is counted and logged (R286). The slots it takes with them (R271). -/
def State.scanFrame (s : State) (a : Access) (n : Nat) : State :=
  if s.isHbm (n * 65536) then
    let s := (s.flushSectors (n * 65536) 65536).countFrame n
    let at_ := ((s.hbmDelta.map (·.1) ++ s.hbm.sevBad).filter fun k => decide (n * 2048 ≤ k) && decide (k < n * 2048 + 2048)).eraseDups
    at_.foldl (fun s k => match s.noteSector (hbmPlace s.harbour (k * 32)).1 (k * 32) a.owner false with
      | (s, .corrected _ _) => s.queueWriteback (k * 32) a.owner
      | (s, _) => s) s
  else (s.parityLines n).foldl (fun s k => s.logParity a (n * 65536 + 128 * k)) (s.useSlots a (n * 65536) 65536)

/-- The contents of a frame stored in another, with its bad sectors as poison marks (R434). The pool agent and the streamer have no port of
their own in R275 and enter the gallery by the maintenance port (log entry 80). -/
def State.copyFrame (s : State) (src dst : Nat) : State :=
  let a := s.maintAccess src (s.frame src).owner
  let s := s.scanFrame a src
  let bytes := s.frameBytes src
  let bad := s.badSectors src
  let base := dst * 65536
  let s := ((s.flushSectors base 65536).dropWritebacks (dst * 2048) 2048).countFrame dst
  let s := s.useSlots a base 65536
  let s := { s with
    mem := bytes.foldl (fun m p => putD 0#8 (base + p.1) p.2 m) (clearRange base 65536 s.mem)
    hbmDelta := clearRange (dst * 2048) 2048 s.hbmDelta
    poison := setClear (dst * 2048) 2048 s.poison
    badCheck := setClear base 65536 s.badCheck
    hbm := { s.hbm with sevBad := setClear (dst * 2048) 2048 s.hbm.sevBad } }
  bad.foldl (fun s k => s.markPoison (base + 32 * k)) s

/-! ## Choosing a frame (R425 to R428) -/

/-- The next lower tier. -/
def State.canLower (s : State) (owner tier die : Nat) : Bool := decide (s.held owner (tier + 1) die < s.ceilOf owner (tier + 1))

/-- R425. -/
def State.candidate (s : State) (n : Nat) (f : FrameRec) : Bool :=
  f.st != .free && !f.pinned && !f.window && !f.prot && !f.quarantined && !f.moving && s.frameTier n != 2 &&
  (f.st == .clean || s.canLower f.owner (s.frameTier n) (s.frameDie n))

/-- R427, `oldest`: the least last use, and among equals the lowest number. -/
def State.oldest (s : State) (tier die : Nat) (ownOnly : Option Nat) : Option Nat :=
  let ok := s.pool.frames.filter fun p =>
    s.frameTier p.1 == tier && s.frameDie p.1 == die && s.candidate p.1 p.2 &&
    (match ownOnly with
     | some o => p.2.owner == o
     | none => decide (s.floorOf p.2.owner tier < s.held p.2.owner tier die))
  (ok.foldl (fun best p => match best with
    | none => some p
    | some b => if p.2.lastUse < b.2.lastUse then some p else some b) none).map (·.1)

/-- What `take_frame` answers. -/
inductive Take where
  | free (n : Nat)
  | evict (n : Nat)
  | wait

/-- R427; an owner whose mode is unused takes no frame (R462). -/
def State.takeFrame (s : State) (tier die owner : Nat) : Take :=
  if s.dget (dkOwnerMode owner) = 0 then .wait
  else if s.ceilOf owner tier ≤ s.held owner tier die then
    match s.oldest tier die (some owner) with
    | some n => .evict n
    | none => .wait
  else
    let (lo, cnt) := s.tierRange tier die
    match s.lowestFree lo cnt with
    | some n => .free n
    | none =>
      match s.oldest tier die none with
      | some n => .evict n
      | none => .wait

/-- A cached frame dropped: its page maps to its lower copy (R428). -/
def State.dropCached (s : State) (n : Nat) : State :=
  let f := s.frame n
  match f.lower with
  | some low => (s.switchPage f.owner f.vpage n low).freeFrame n
  | none => s.freeFrame n

def State.setMoving (s : State) (n : Nat) : State := s.setFrame n { s.frame n with moving := true }

/-- Whether a frame of a tier is being evicted: who needs one waits until that is done (R428). -/
def State.evicting (s : State) (tier die : Nat) : Bool :=
  s.pool.moves.any fun m => m.evict && s.frameTier m.src == tier && s.frameDie m.src == die

/-- A frame for an owner, at once where one is free or a clean one can be dropped; where a frame must first be written back or moved
down, that is begun and nothing is answered (R428). `fuel` is the tiers left below. -/
def State.obtain (s : State) : Nat → Nat → Nat → Nat → State × Option Nat
  | 0, _, _, _ => (s, none)
  | fuel + 1, tier, die, owner =>
    match s.takeFrame tier die owner with
    | .free n => (s, some n)
    | .wait => (s, none)
    | .evict n =>
      let f := s.frame n
      if s.evicting tier die then (s, none)
      else if f.st = .clean then ((s.dropCached n).bump .poolEvictCnt die 0 1, some n)
      else
        match f.st, f.lower with
        | .dirty, some low =>
          let m : Move := { src := n, dst := low, owner := f.owner, writeBack := true, evict := true }
          (({ s with pool := { s.pool with moves := s.pool.moves ++ [m] } }).setMoving n, none)
        | _, _ =>
          let (s, d) := s.obtain fuel (tier + 1) die f.owner
          match d with
          | none => (s, none)
          | some low =>
            let m : Move := { src := n, dst := low, owner := f.owner, writeBack := false, evict := true }
            let s := s.setFrame low { s.frame low with st := .resident, owner := f.owner, homeDie := die, moving := true }
            (({ s with pool := { s.pool with moves := s.pool.moves ++ [m] } }).setMoving n, none)

/-- A frame given to a request: resident, with the stamp of now (R415, R426), and what the tensor table of the chain's program says of its
page (R591). -/
def State.give (s : State) (r : FrameReq) (n : Nat) : State :=
  let f : FrameRec := { st := .resident, owner := r.owner, vpage := r.vpage, homeDie := r.die, lastUse := s.stampNow }
  let f := match r.chain.bind s.findChain with
    | some c => s.namePage r.die c.owner c.prog r.vpage f
    | none => f
  (s.setFrame n f).showUse r.owner

/-- One frame request served, or left waiting. -/
def State.serveReq (s : State) (r : FrameReq) : State × Bool :=
  let (s, n) := s.obtain 3 r.tier r.die r.owner
  match n with
  | some k => (s.give r k, true)
  | none => (s, false)

/-- Whether two requests stand in one queue: of one tier, and but for the shelf of one die (R424). -/
def FrameReq.beside (q r : FrameReq) : Bool := q.tier == r.tier && (r.tier == 2 || q.die == r.die)

/-- The waiting requests served in the order they came, one tier of one die after another's wait unmoved (R424, R429). -/
def State.retryList (s : State) : List FrameReq → List FrameReq → State
  | kept, [] => { s with pool := { s.pool with waiting := kept } }
  | kept, r :: rs =>
    if kept.any (·.beside r) then s.retryList (kept ++ [r]) rs
    else
      let (s, ok) := s.serveReq r
      s.retryList (if ok then kept else kept ++ [r]) rs

def State.retryWaiting (s : State) : State := s.retryList [] s.pool.waiting

/-! ## Hot-set owners (R454) -/

/-- Whether a page is a weight page of a hot-set owner whose one copy is its shelf frame. -/
def State.coldFrame (s : State) (n : Nat) : Bool :=
  s.frameTier n == 2 && (s.frame n).st == .resident && !(s.frame n).context && !(s.frame n).quarantined &&
  s.dget (dkOwnerMode (s.frame n).owner) == 2 && (!(s.frame n).moving || s.pool.moves.any fun m => m.src == n && m.fill)

/-- The promotion of a shelf frame into HBM begun, where a frame of HBM can be had and none is under way. -/
def State.promote (s : State) (die n : Nat) : State :=
  if (s.frame n).moving then s
  else
    let owner := (s.frame n).owner
    match s.obtain 3 1 die owner with
    | (s, some k) =>
      let s := s.setFrame k { s.frame k with st := .resident, owner := owner, homeDie := die, moving := true, vpage := (s.frame n).vpage }
      let m : Move := { src := n, dst := k, owner := owner, writeBack := false, fill := true, evict := false }
      (({ s with pool := { s.pool with moves := s.pool.moves ++ [m] } }).setMoving n).showUse owner
    | (s, none) => s

/-! ## Checkpoints (R442) -/

/-- Whether an owner has room in a tier: below its ceiling, with a frame that is free or another owner's to give (R442). -/
def State.roomFor (s : State) (tier die owner : Nat) : Bool :=
  decide (s.held owner tier die < s.ceilOf owner tier) &&
  (match s.takeFrame tier die owner with
   | .free _ => true
   | .evict n => (s.frame n).owner != owner
   | .wait => false)

/-- The region record that names a tensor as an activation checkpoint. -/
def State.ckptRegion (s : State) (die owner prog tensor : Nat) : Option RegionRec :=
  if tensor = 0 then none
  else
    (List.range (s.regionCount die owner prog)).findSome? fun r =>
      let g := s.regionRec die owner prog r
      if (List.range g.nAckpt).any fun k =>
          bitsOf (s.ckptEntry die owner prog g k) 0 32 == tensor && !bitOf (s.ckptEntry die owner prog g k) 48 then some g
      else none

/-- The tier of a request, with that of an activation checkpoint placed by CKPT_TIER: in the tier named where its owner has room there, else in
the next lower one with room (R442); in the tier named where none has (log entry 98). CKPT_TIER of 3 is counted (R218). -/
def State.placeReq (s : State) (r : FrameReq) : State × FrameReq :=
  match r.chain.bind s.findChain with
  | none => (s, r)
  | some c =>
    match s.ckptRegion r.die c.owner c.prog (s.namePage r.die c.owner c.prog r.vpage {}).tensor with
    | none => (s, r)
    | some g =>
      let t := ((List.range 3).find? fun t => decide (g.tier ≤ t) && s.roomFor t r.die r.owner).getD g.tier
      (s.regionClamp c.cluster g, { r with tier := t })

/-! ## Quarantine (R448 to R452) -/

/-- A frame quarantined, counted and reported to the keeper: cause 0 UE, 1 rebuild failed, 2 tier lost. -/
def State.quarantine (s : State) (n sector cause : Nat) : State :=
  let f := s.frame n
  if f.quarantined then s
  else
    let s := s.bump .poolQuarantineCnt (s.frameDie n) 0 1
    let s := s.setFrame n { f with quarantined := true, rewritten := [] }
    let q : QuarRec := { addr := sector, owner := f.owner, tensor := f.tensor, cause := cause, beam := s.beamNow }
    ({ s with pool := { s.pool with quarPosts := s.pool.quarPosts ++ [q] } }).raiseIrq 65

/-! ## Window frames (R436, R459, R592) -/

/-- Frames taken for a stream plan, as many as can be had at once of `n`. -/
def State.takeWindow (s : State) (tier die owner : Nat) : Nat → List Nat → State × List Nat
  | 0, got => (s, got)
  | n + 1, got =>
    match s.obtain 3 tier die owner with
    | (s, some k) =>
      (s.setFrame k { st := .resident, owner := owner, window := true, homeDie := die, lastUse := s.stampNow }).takeWindow tier die owner n (got ++ [k])
    | (s, none) => (s, got)

/-- Slots filled up to a plan's size, in order. -/
def State.fillSlots (s : State) (p : StreamPlan) : List (List Nat) → State × List (List Nat)
  | [] => (s, [])
  | l :: ls =>
    let (s, l) := s.takeWindow 0 p.die p.owner (p.size - l.length) l
    let (s, ls) := s.fillSlots p ls
    (s, l :: ls)

/-- A plan's landing area of HBM frames and its W slots of gallery frames, each of its size, taken as far as frames can be had (R436). -/
def State.fillPlan (s : State) (p : StreamPlan) : State × StreamPlan :=
  if p.landing.length = p.size ∧ p.slots.all (fun l => l.length == p.size) = true then (s, p)
  else
    let (s, landing) := s.takeWindow 1 p.die p.owner (p.size - p.landing.length) p.landing
    let (s, slots) := s.fillSlots p p.slots
    (s.showUse p.owner, { p with landing := landing, slots := slots })

/-- Every plan that lacks frames tries again. -/
def State.fillPlans (s : State) : State :=
  s.pool.plans.foldl (fun s p =>
    let (s, q) := s.fillPlan p
    { s with pool := { s.pool with plans := s.pool.plans.map fun x => if x.die == p.die && x.launch == p.launch then q else x } }) s

/-- The frames of a plan given back. -/
def State.freePlan (s : State) (p : StreamPlan) : State :=
  ((p.landing ++ p.slots.flatten).eraseDups.foldl (fun s n => s.setFrame n {}) s).showUse p.owner

/-- A retired window frame leaves its slot; its lines stand in the landing area's frame of their place (R459). -/
def StreamPlan.lose (p : StreamPlan) (n : Nat) : StreamPlan :=
  { p with slots := p.slots.map fun l => l.zipIdx.map fun (k, i) => if k = n then p.landing.getD i k else k }

/-! ## Retirement (R303, R423, R459) -/

/-- The floors of a die lowered, the highest-numbered owner's first, until their sum fits its gallery frames (R423). -/
def State.cutFloors (s : State) (die frames : Nat) : State :=
  (List.range 64).foldl (fun s k =>
    let o := 63 - k
    let sum := ((List.range 64).map fun i => 16 * s.dnat (dkGalFloor i)).foldl (· + ·) 0
    let fl := s.dnat (dkGalFloor o)
    if frames < sum ∧ 0 < fl then
      let cut := min fl ((sum - frames + 15) / 16)
      (s.dput (dkGalFloor o) ((fl - cut : Nat) : Int)).bump .poolFloorCutCnt die 0 1
    else s) s

/-- A gallery frame leaves the pool for good: counted in every bank, each of which has a row in it (log entry 83), and the die's gallery is
64 KiB less (R303, R305, R306, R423). -/
def State.dropFrame (s : State) (die row : Nat) : State :=
  if s.sram.retiredFrames.contains (die * 3072 + row) then s
  else
    let s := { s with sram := { s.sram with retiredFrames := setInsert (die * 3072 + row) s.sram.retiredFrames } }
    let s := (List.range 64).foldl (fun s b => s.setFld galBankStateFramesRetired die b (s.fld galBankStateFramesRetired die b + 1)) s
    let s := s.dput dkGalleryFramesRetired ((s.sram.retiredFrames.length : Nat) : Int)
    let left (d : Nat) : Nat := 3072 - s.sram.retiredFrames.countP fun k => k / 3072 == d
    (s.dput dkPoolGalFrames ((min (left 0) (left 1) : Nat) : Int)).cutFloors die (left die)

/-- The contents of a retired frame handled as on eviction: a cached frame to its lower copy, a resident one to a frame of HBM once its owner
can take one; a protected page is copied first (R303, R428, R459, R644). -/
def State.emptyRetired (s : State) (n die : Nat) : State :=
  let f := s.frame n
  let done (s : State) : State := { s with pool := { s.pool with retiring := s.pool.retiring.filter (· != (n, die)) } }
  if f.prot then s
  else match f.st, f.lower with
  | .free, _ => done s
  | .clean, _ => done (s.dropCached n)
  | .dirty, some low => done (((s.copyFrame n low).bump .poolWritebackCnt die 0 1).dropCached n)
  | _, _ =>
    let (s, d) := s.obtain 2 1 die f.owner
    match d with
    | some k =>
      let s := (s.copyFrame n k).switchPage f.owner f.vpage n k
      done (((s.setFrame k { f with moving := false }).freeFrame n).showUse f.owner)
    | none => s

/-- R303, R459: a gallery frame retired by a row repair. A move of it under way is given up for that. -/
def State.retireFrame (s : State) (die row : Nat) : State :=
  let n := galleryBase die / 65536 + row
  let s := s.dropFrame die row
  if (s.frame n).window then
    let s := { s with pool := { s.pool with plans := s.pool.plans.map fun (p : StreamPlan) => p.lose n } }
    s.freeFrame n
  else
    let s := match s.pool.moves.find? fun m => m.src == n with
      | some m => s.cancelMove m
      | none => s
    ({ s with pool := { s.pool with retiring := s.pool.retiring ++ [(n, die)] } }).emptyRetired n die

/-- Retired frames whose contents wait for a frame of HBM try again. -/
def State.retryRetired (s : State) : State := s.pool.retiring.foldl (fun s p => s.emptyRetired p.1 p.2) s

end Sys2Proof.Machine
end

