-- ==== Sys2Proof/Machine/Cube.lean ====
section
/-!
DEFINITION. The cube array (spec/03_cube_array.md): pass commands, the weight front, the activity ramp, and the tile of an engine.
-/
namespace Sys2Proof.Machine

/-! ## Geometry (R105, R137) -/

/-- Group size along the reduction axis, by the width class of the stationary format. -/
def groupSize (fmt : Nat) : Nat :=
  match widthClass fmt with
  | .w16 => 32
  | .w8 => 64
  | .narrow => 128
  | .w32 => 8
  | .scale => 64

/-- Length of the reduction axis: K of a plain block, K′ of a transposed one. -/
def redLen (fmt : Nat) (trans : Bool) : Nat :=
  match widthClass fmt with
  | .w16 => if trans then 32 else 64
  | .w8 => if trans then 64 else 128
  | .narrow => if trans then 128 else 256
  | .w32 => if trans then 32 else 64
  | .scale => 64

def partsOf (split : Nat) : Nat := 2 ^ split

/-- Output width of one part. -/
def outWidth (trans : Bool) (split : Nat) : Nat := if trans then 64 else 32 / partsOf split

/-- Moving rows taken in a cycle, over all parts. -/
def rowsPerCycle (fmt : Nat) : Nat := if widthClass fmt = .w32 then 1 else 4

/-- Bytes of one part's stationary image. -/
def statBytes (fmt : Nat) (trans : Bool) (split : Nat) : Nat := redLen fmt trans * outWidth trans split * fmtBits fmt / 8

/-- Stored rows and columns of one part's image (R105). -/
def storedShape (fmt : Nat) (trans : Bool) (split : Nat) : Nat × Nat :=
  if trans then (outWidth trans split, redLen fmt trans) else (redLen fmt trans, outWidth trans split)

/-- Bytes of a scale image of `rows` × `cols` elements: one byte per 32 elements along the rows (SDIR 0) or the columns (R114). -/
def scaleBytes (sdir : Bool) (rows cols : Nat) : Nat :=
  if sdir then (rows + 31) / 32 * cols else rows * ((cols + 31) / 32)

/-- The place of an element's scale byte in its scale image. -/
def scaleIndex (sdir : Bool) (cols r c : Nat) : Nat :=
  if sdir then r / 32 * cols + c else r * ((cols + 31) / 32) + c / 32

def statScaleBytes (sdir : Bool) (fmt : Nat) (trans : Bool) (split : Nat) : Nat :=
  let (r, c) := storedShape fmt trans split
  scaleBytes sdir r c

/-- Load time of a stationary block, without the doubling under a plain pass with a 6-bit moving operand (R145). -/
def loadTime (fmt : Nat) : Nat :=
  if widthClass fmt = .w32 then 16 else if fmtBits fmt = 6 then 12 else 8

/-! ## The pass command (R111, R115) -/

/-- R115: a lens-buffer address, with the clamp it takes. -/
def clampUnit (a : Nat) : Nat × Nat := if 24576 ≤ a then (24575, 1) else (a, 0)

/-- R47, R48: the code of a pass operand, with the clamp it takes; E8M0 is clamped as a reserved code is. -/
def clampOperandFmt (code : Nat) : Nat × Nat := if 10 ≤ code then (0, 1) else (code, 0)

/-- R115: the fields of a pass command as read, and the clamps they take, but for LOAD_S. -/
def parsePass (w : Words4) : PassCmd × Nat :=
  let trans := bitOf w.w0 4
  let split0 := bitsOf w.w0 5 2
  let (fmtS, n1) := clampOperandFmt (bitsOf w.w0 16 4)
  let (fmtM0, n2) := clampOperandFmt (bitsOf w.w0 20 4)
  let mismatch := decide (widthClass fmtM0 ≠ widthClass fmtS)
  let fmtM := if mismatch then fmtS else fmtM0
  let badSplit := split0 == 3 || (split0 != 0 && (trans || widthClass fmtS == .w32))
  let split := if badSplit then 0 else split0
  let mxS0 := bitOf w.w0 24
  let mxM0 := bitOf w.w0 25
  let badS := mxS0 && !mxAllowed fmtS
  let badM := mxM0 && !mxAllowed fmtM
  let kMax := redLen fmtS trans - 1
  let nMax := outWidth trans split - 1
  let k := bitsOf w.w0 44 8
  let n := bitsOf w.w0 52 6
  let (sA, a1) := clampUnit (bitsOf w.w1 0 15)
  let (mA, a2) := clampUnit (bitsOf w.w1 16 15)
  let (cA, a3) := clampUnit (bitsOf w.w1 32 15)
  let (ssA, a4) := clampUnit (bitsOf w.w1 48 15)
  let (msA, a5) := clampUnit (bitsOf w.w2 0 15)
  ({ trans := trans, split := split, accIn := bitOf w.w0 7, loadS := bitOf w.w0 8, writeOut := bitOf w.w0 9,
     last := bitOf w.w0 10, sSdir := bitOf w.w0 11, mSdir := bitOf w.w0 12, fmtS := fmtS, fmtM := fmtM,
     mxS := mxS0 && !badS, mxM := mxM0 && !badM, rampSel := bitsOf w.w0 26 2, mRows := bitsOf w.w0 32 12 + 1,
     kValid := min k kMax + 1, nValid := min n nMax + 1, sAddr := sA, mAddr := mA, accAddr := cA, ssAddr := ssA,
     msAddr := msA, mPstride := bitsOf w.w2 16 14, aPstride := bitsOf w.w2 32 14, outDesc := bitsOf w.w2 48 16,
     outRow := bitsOf w.w3 0 32, outCol := bitsOf w.w3 32 24, mxSRead := mxS0 },
   n1 + n2 + b2n mismatch + b2n badSplit + b2n badS + b2n badM + b2n (decide (kMax < k)) + b2n (decide (nMax < n)) +
     a1 + a2 + a3 + a4 + a5)

/-- R115: whether the pass asks for a block other than the current one; the row stands above the one that clamps MX_S, so MX_S is compared
as read before it. -/
def PassCmd.differs (c : PassCmd) (b : StatBlock) : Bool :=
  b.loaded &&
  (c.fmtS != b.fmt || c.mxSRead != b.mxRead || c.sSdir != b.sdir || c.trans != b.trans || c.split != b.split)

/-- R138: cycles in which the pass issues. -/
def PassCmd.issueCycles (c : PassCmd) : Nat :=
  let r := rowsPerCycle c.fmtS / partsOf c.split
  (c.mRows + r - 1) / r

/-- The lens-buffer ranges (start, length) of the stationary block that a pass loads. -/
def PassCmd.statics (c : PassCmd) : List (Nat × Nat) :=
  if c.loadS then
    (c.sAddr * 64, partsOf c.split * statBytes c.fmtS c.trans c.split) ::
      (if c.mxS then [(c.ssAddr * 64, partsOf c.split * statScaleBytes c.sSdir c.fmtS c.trans c.split)] else [])
  else []

/-- The lens-buffer ranges of the moving operand of a pass. -/
def PassCmd.movings (c : PassCmd) : List (Nat × Nat) :=
  let k := redLen c.fmtS c.trans
  (List.range (partsOf c.split)).flatMap fun p =>
    ((c.mAddr + p * c.mPstride) * 64, (c.mRows * k * fmtBits c.fmtM + 7) / 8) ::
    (if c.mxM then [((c.msAddr + p * c.mPstride) * 64, scaleBytes c.mSdir c.mRows k)] else [])

/-- The lens-buffer ranges of the operands of a pass. -/
def PassCmd.operands (c : PassCmd) : List (Nat × Nat) := c.statics ++ c.movings

/-- The lens-buffer ranges of the accumulator of a pass, which it writes, and with ACC_IN reads (R109). -/
def PassCmd.accs (c : PassCmd) : List (Nat × Nat) :=
  (List.range (partsOf c.split)).map fun p =>
    ((c.accAddr + p * c.aPstride) * 64, c.mRows * outWidth c.trans c.split * 4)

def PassCmd.reads (c : PassCmd) : List (Nat × Nat) := c.operands ++ (if c.accIn then c.accs else [])

/-- The ranges that a pass reads, with their requesters (R278): 1 the accumulator stage, 2 the moving-operand feed, 3 the stationary load. -/
def PassCmd.lensReads (c : PassCmd) : List (Nat × Nat × Nat) :=
  c.statics.map (3, ·) ++ c.movings.map (2, ·) ++ (if c.accIn then c.accs.map (1, ·) else [])

/-- The lens-buffer ranges (start, length) that a pass uses (R862). -/
def PassCmd.ranges (c : PassCmd) : List (Nat × Nat) := c.operands ++ c.accs

/-! ## Lens-buffer banks (R262, R263, R278, R280) -/

/-- R263: the bank of a lens-buffer unit, and its row in that bank. -/
def lensBank (u : Nat) : Nat := u % 32
def lensRow (u : Nat) : Nat := u / 32

/-- The banks that a range of lens bytes lies in. -/
def banksOf (r : Nat × Nat) : List Nat :=
  let u := r.1 / 64
  let n := (r.1 + r.2 + 63) / 64 - u
  (List.range (min 32 (min n (24576 - u)))).map fun k => lensBank (u + k)

/-- Whether two of the ranges that requests reach lie in one bank: a bank serves one read and one write per cycle (R262, R278). -/
def bankClash : List (Nat × Nat) → Bool
  | [] => false
  | r :: rs => (rs.any fun q => (banksOf r).any fun b => (banksOf q).contains b) || bankClash rs

/-- Cycles in which array or vector requests wait on a lens-buffer bank (R280): none where no two requests of one direction meet in a bank,
and otherwise a function of the addresses that the spec does not state (log entry 70). -/
def lensWaits (reads writes : List (Nat × Nat)) : Nat :=
  if bankClash reads || bankClash writes then Config.lensConflict reads writes else 0

/-! ## The sum (R109, R119, R123) -/

/-- A byte of a sparse image. -/
def byteIn (l : Bytes) (k : Nat) : Byte := lookupD 0#8 k l

/-- The value of stationary element (k, n) of part `p`. -/
def StatBlock.value (b : StatBlock) (p k n : Nat) : Val :=
  let cols := (storedShape b.fmt b.trans b.split).2
  let (r, c) := if b.trans then (n, k) else (k, n)
  let bits := elemCode (fun j => byteIn b.image (p * statBytes b.fmt b.trans b.split + j)) b.fmt (r * cols + c)
  if b.mx then
    decodeMx b.fmt
      (byteIn b.scales (p * statScaleBytes b.sdir b.fmt b.trans b.split + scaleIndex b.sdir cols r c)).toNat bits
  else decodeElem b.fmt false bits

/-- The value of moving element (m, k) of part `p`. -/
def State.movingValue (s : State) (e : Nat) (c : PassCmd) (p m k : Nat) : Val :=
  let len := redLen c.fmtS c.trans
  let bits := elemCode (fun j => s.lensByte e ((c.mAddr + p * c.mPstride) * 64 + j)) c.fmtM (m * len + k)
  if c.mxM then
    decodeMx c.fmtM (s.lensByte e ((c.msAddr + p * c.mPstride) * 64 + scaleIndex c.mSdir len m k)).toNat bits
  else decodeElem c.fmtM false bits

/-- The lens byte of accumulator element (m, n) of part `p`. -/
def PassCmd.accByte (c : PassCmd) (p m n : Nat) : Nat :=
  (c.accAddr + p * c.aPstride) * 64 + (m * outWidth c.trans c.split + n) * 4

/-- R109, R123: the new value of an accumulator element that holds `old`. -/
def State.passElement (s : State) (e : Nat) (c : PassCmd) (b : StatBlock) (old : F32) (p m n : Nat) : F32 :=
  let acc := if c.accIn then old else 0x80000000#32
  let prods := (List.range c.kValid).map fun k => (s.movingValue e c p m k).mul (b.value p k n)
  accumulate acc (chunks (groupSize c.fmtS) prods)

/-- The accumulator elements of a pass, part, row and column within the masks, in the order of issue: the rows of each cycle are dealt to
the parts in part order (R129, R138). -/
def PassCmd.elements (c : PassCmd) : List (Nat × Nat × Nat) :=
  let per := rowsPerCycle c.fmtS / partsOf c.split
  (List.range c.issueCycles).flatMap fun t =>
    (List.range (partsOf c.split)).flatMap fun p =>
      (List.range (min per (c.mRows - t * per))).flatMap fun j =>
        (List.range c.nValid).map fun n => (p, t * per + j, n)

/-! ## Issue -/

/-- A register field of the array's status. -/
def State.setArr (s : State) (f : Field) (e v : Nat) : State := s.setFld f e 0 v

/-- The active stationary buffer of an engine. -/
def State.activeBuf (s : State) (e : Nat) : StatBlock :=
  let x := s.eng e
  if s.fld engArrayStatusActiveBuf e = 0 then x.buf0 else x.buf1

/-- The updates of accumulator elements, one after another: the operands from the state before the pass, each accumulator value as the
updates before leave it in `acc` (R129). -/
def State.passUpdates (s : State) (e : Nat) (c : PassCmd) (b : StatBlock) (acc : State) : List (Nat × Nat × Nat) → List (Nat × F32)
  | [] => []
  | (p, m, n) :: rest =>
    let a := c.accByte p m n
    let v := s.passElement e c b (acc.lensF32 e a) p m n
    (a, v) :: s.passUpdates e c b (acc.lensPutF32 e a v) rest

/-- The accumulator values that a pass gives, as (lens byte, value), in the order of issue. -/
def State.passResults (s : State) (e : Nat) (c : PassCmd) (b : StatBlock) : List (Nat × F32) := s.passUpdates e c b s c.elements

/-- Values stored in the lens buffers one after another. -/
def State.lensPutF32s (s : State) (e : Nat) : List (Nat × F32) → State
  | [] => s
  | (a, v) :: r => (s.lensPutF32 e a v).lensPutF32s e r

/-- The lens ranges that the passes in flight still update. -/
def Engine.flightAccs (x : Engine) : List (Nat × Nat) := x.flight.flatMap fun f => f.cmd.accs

/-- R138, R141, R143: a pass issues. Its groups reach the accumulator in order (R129); it is in flight until complete (R149). What a
WRITE_OUT converts is what the accumulator holds after the pass (R121). -/
def State.issuePass (s : State) (e : Nat) (c : PassCmd) (task index : Nat) : State :=
  let s := if c.loadS then s.setArr engArrayStatusActiveBuf e (1 - s.fld engArrayStatusActiveBuf e) else s
  let b := s.activeBuf e
  let s := s.bump .engArrayIssueCnt e 0 c.issueCycles
  let s := s.setArr engArrayStatusBusy e 1
  let s := s.setArr engArrayStatusSplitNow e c.split
  let s := s.setArr engArrayStatusTransNow e (b2n c.trans)
  let s := s.lensPutF32s e (s.passResults e c b)
  let outs := if c.writeOut then
      c.elements.map fun (p, m, n) => (c.outRow + m, c.outCol + p * outWidth c.trans c.split + n, s.lensF32 e (c.accByte p m n))
    else []
  let x := s.eng e
  let s := s.bump .engLensConflictCnt e 0 (lensWaits (c.reads ++ x.flightAccs) (c.accs ++ x.flightAccs))
  let s := s.setEng e { x with
    held := none
    flight := x.flight ++ [{ cmd := c, task := task, index := index, results := outs }]
    lastIssue := c.issueCycles
    lastSixBit := !c.trans && fmtBits c.fmtM == 6
    issueLeft := x.issueLeft + c.issueCycles
    rampProf := c.rampSel
    tileOpen := !c.last
    tileCycles := x.tileCycles + c.issueCycles }
  s.traceCmd 2 1 e task 1 index 0

/-! ## The ramp (R151 to R156) -/

/-- R156: the applied length of a profile's ramp, its stage length, and whether it differs from LENGTH; `least` is the least length that
a droop asks for (R767). -/
def State.rampShape (s : State) (e prof : Nat) (least : Nat := 0) : Nat × Nat × Bool :=
  let stages := 2 ^ s.fld engRampProfStagesLog2 e prof
  let len := s.fld engRampProfLength e prof
  let floor := max least (s.dnat dkArrayRampFloor)
  let applied := max (len / stages * stages) ((floor + stages - 1) / stages * stages)
  (applied, applied / stages, applied != len)

/-- R767: within 1 ms of a droop a ramp-up from a fully released array takes at least 64 cycles. -/
def State.longRamp (s : State) (e : Nat) : Nat :=
  if 0 < (s.powerDie (engDie e)).longRamp && s.fld engArrayStatusEngagedCols e == 0 then 64 else 0

/-- Columns engaged by one stage of a profile. -/
def State.rampCols (s : State) (e prof : Nat) : Nat := 8 / 2 ^ s.fld engRampProfStagesLog2 e prof

/-- The clamp of a ramp whose applied length differs from LENGTH (R156). -/
def State.rampClamp (s : State) (e prof : Nat) : State :=
  s.clamped (engCluster e) (b2n (s.rampShape e prof).2.2)

/-! ## Taking a pass -/

/-- The stationary block loads into the shadow buffer (R141, R145). -/
def State.loadStationary (s : State) (e : Nat) (c : PassCmd) : State :=
  let parts := partsOf c.split
  let b : StatBlock :=
    { loaded := true, fmt := c.fmtS, mx := c.mxS, mxRead := c.mxSRead, sdir := c.sSdir, trans := c.trans, split := c.split,
      image := s.lensSlice e (c.sAddr * 64) (parts * statBytes c.fmtS c.trans c.split),
      scales := if c.mxS then s.lensSlice e (c.ssAddr * 64) (parts * statScaleBytes c.sSdir c.fmtS c.trans c.split) else [] }
  let x := s.eng e
  s.setEng e (if s.fld engArrayStatusActiveBuf e = 0 then { x with buf1 := b } else { x with buf0 := b })

/-- A tile begins with its first command (R109, R116). -/
def State.openTile (s : State) (e task opc index : Nat) : State :=
  let x := s.eng e
  if x.tileOpen then s
  else
    let s := s.setEng e { x with tileOpen := true, tilePass := false, tileCycles := 0, tileOverrun := false, tileTask := task, task := task }
    if s.traceLevel (engDie e) = 1 then s.traceCmd 1 1 e task opc index 0 else s

/-- Columns engaged once the ramp's next stage has begun: the current stage is the highest of the profile's whose columns are all engaged
(R152, R153, R156). -/
def climb (per cols : Nat) : Nat := min 8 ((cols / per + 1) * per)

/-- R144 to R147, R864: the front-stall cycles of a pass whose load takes `ls`: behind a pass in flight the load starts as that pass begins
to issue, or as the engine takes the new one if that is later, and takes twice as long under a plain pass with a 6-bit moving operand. -/
def Engine.stall (x : Engine) (ls : Nat) : Nat :=
  if x.flight = [] then ls
  else
    let ovl := min x.lastIssue x.issueLeft
    (if x.lastSixBit ∧ 0 < ovl then 2 * ls else ls) - ovl

/-- A pass that nothing stands before is begun: clamped, its block loaded, and issued or held (R115, R116, R146, R147, R152, R153, R864);
a droop hold holds it too (R767). It does not run where its reads meet a parity error or poison (R286). -/
def State.beginPass (s : State) (e task index : Nat) (w : Words4) : State :=
  let (c0, n) := parsePass w
  let x := s.eng e
  let first := !x.tileOpen || !x.tilePass
  let forced := !c0.loadS && c0.differs (s.activeBuf e)
  let c := { c0 with loadS := c0.loadS || first || forced }
  let s := s.clamped (engCluster e) (n + b2n forced + b2n (lensOver c.ranges))
  let (s, stops) := s.lensFaults e task c.lensReads
  if stops then s
  else
  let s := s.openTile e task 1 index
  let s := s.setEng e { s.eng e with tilePass := true }
  let s := if c.loadS then s.loadStationary e c else s
  let x := s.eng e
  let ls := if c.loadS then loadTime c.fmtS else 0
  let hold (s : State) (load ramp : Nat) : State :=
    s.setEng e { s.eng e with held := some { cmd := c, task := task, index := index, loadCycles := load, rampCycles := ramp } }
  let cols := s.fld engArrayStatusEngagedCols e
  if s.fld engArrayStatusRamping e = 1 then
    let prof := c.rampSel
    let (_, len, _) := s.rampShape e prof
    let per := s.rampCols e prof
    let s := s.rampClamp e prof
    let s := s.setArr engArrayStatusEngagedCols e (climb per cols)
    let s := s.setEng e { s.eng e with rampUp := true, rampProf := prof, rampLen := len, rampAge := 0 }
    hold s ls ((8 / per - cols / per) * len)
  else if cols = 8 then
    let stall := x.stall ls
    if c.loadS ∧ 0 < stall then hold (s.setArr engArrayStatusFrontStall e 1) stall 0
    else if 0 < (s.powerDie (engDie e)).hold then hold s 0 0
    else s.issuePass e c task index
  else
    let s := s.setArr engArrayStatusWindowWait e 1
    let s := s.setEng e { s.eng e with windowReq := s.cyc, windowWaited := 0 }
    hold s ls 0

/-! ## Events of the array -/

/-- One engine's ramp begins at its region's window (R152, R154, R155): the wait is the cycles since the request. -/
def State.startRamp (s : State) (e r : Nat) : State :=
  let x := s.eng e
  match x.held with
  | some h =>
    if s.fld engArrayStatusWindowWait e = 1 then
      let wait := x.windowWaited + (32 * r + 256 - x.windowReq % 256) % 256
      let prof := h.cmd.rampSel
      let (total, len, _) := s.rampShape e prof (s.longRamp e)
      let s := s.setArr engArrayStatusWindowWait e 0
      let s := s.setArr engArrayStatusRamping e 1
      let s := s.bump .engArrayRampWaitCnt e 0 wait
      let s := s.bump .engArrayRampCnt e 0 1
      let s := s.rampClamp e prof
      let s := s.setArr engArrayStatusEngagedCols e (climb (s.rampCols e prof) 0)
      s.setEng e { x with rampUp := true, rampProf := prof, rampLen := len, rampAge := 0,
                          held := some { h with rampCycles := wait + total } }
    else s
  | none => s

/-- RAMP_WINDOW_START (R154): the ramps that wait for a region's window begin. -/
def rampWindowStartEffect (r : Fin 8) (s : State) : State :=
  (List.range 12).foldl (fun s k => s.startRamp (r.val * 12 + k) r.val) s

def execRampWindowStart (r : Fin 8) (s : State) : Host.Outcome State Fault Refusal :=
  .next (rampWindowStartEffect r s)

/-- A cycle of a ramp-up: each stage engages its columns as it begins (R152, R153). -/
def State.rampTick (s : State) (e : Nat) : State :=
  let x := s.eng e
  if s.fld engArrayStatusRamping e = 1 ∧ x.rampUp = true then
    let age := x.rampAge + 1
    let s := s.setEng e { x with rampAge := age }
    if age % x.rampLen = 0 then s.setArr engArrayStatusEngagedCols e (climb (s.rampCols e x.rampProf) (s.fld engArrayStatusEngagedCols e))
    else s
  else s

/-- ARRAY_RAMP_DOWN (R151): one whole stage of the profile that last ran is released, from column 7 down, once nothing is in flight or
held and the array has been idle for IDLE_RELEASE cycles. A ramp-down whose applied length differs from LENGTH is counted once, at its
first stage (R156). -/
def arrayRampDownEffect (e : EngId) (idle : BitVec 16) (s : State) : State :=
  let e := EngIdIdx e
  let x := s.eng e
  let cols := s.fld engArrayStatusEngagedCols e
  let ready := x.flight = [] ∧ x.held = none ∧ 0 < cols ∧
    (s.fld engArrayStatusRamping e = 1 ∨ Nat.max 1 (s.fld engArrayCfgIdleRelease e) ≤ idle.toNat)
  if ready then
    let per := s.rampCols e x.rampProf
    let left := (cols - 1) / per * per
    let s := if s.fld engArrayStatusRamping e = 0 then s.rampClamp e x.rampProf else s
    let s := s.setArr engArrayStatusEngagedCols e left
    let s := s.setArr engArrayStatusRamping e (b2n (decide (0 < left)))
    s.setEng e { x with rampUp := false }
  else s

def execArrayRampDown (e : EngId) (idle : BitVec 16) (s : State) : Host.Outcome State Fault Refusal :=
  .next (arrayRampDownEffect e idle s)

/-! ## Completion -/

/-- Accumulator rows gathered for one write: every row with its elements in ascending column, the parts of a split pass side by side
(R121, R863). -/
def gatherRows (rs : List (Nat × Nat × F32)) : List (Nat × List (Nat × Val)) :=
  let rows := rs.foldl (fun acc r => setInsert r.1 acc) []
  rows.map fun r => (r, (rs.filter fun q => q.1 == r).map fun q => (q.2.1, dec32 q.2.2))

/-- R121: the WRITE_OUT conversion of a complete pass. An engine whose context belongs to no chain has no descriptor and writes
nothing. -/
def State.writeOut (s : State) (e : Nat) (f : PassFlight) : State :=
  match s.chainOfTask e f.task with
  | none => s
  | some (c, k) =>
    let (d, n) := s.chainDesc c f.cmd.outDesc
    let s := s.clamped (engCluster e) n
    let w := s.streamRows (engDie e) c.stepRev { unit := .engine e, owner := c.owner, who := some ⟨c.ref, k⟩ } d (gatherRows f.results)
    let s := (w.st.bump .engConvCnt e d.fmt w.count).bump .engRngOutputCnt e 0 w.draws
    let s := if w.masked then s.bump .cluExtentMaskCnt c.cluster 0 1 else s
    if w.fault then s.endWrite c k else s

/-- R149: the oldest pass in flight is complete: its products are counted, its WRITE_OUT runs, and with LAST its tile ends. -/
def State.completePass (s : State) (e : Nat) : State :=
  let x := s.eng e
  match x.flight with
  | [] => s
  | f :: rest =>
    let c := f.cmd
    let s := s.setEng e { x with flight := rest }
    let s := if rest = [] then s.setArr engArrayStatusBusy e 0 else s
    let s := s.bump .engMacCnt e c.fmtS (partsOf c.split * c.mRows * c.kValid * c.nValid)
    let s := if s.traceLevel (engDie e) = 2 then s.traceCmd 2 2 e f.task 1 f.index (c.issueCycles + 28)
             else if c.last then s.traceCmd 1 2 e f.task 1 f.index (x.tileCycles + 28) else s
    let s := if c.writeOut then s.writeOut e f else s
    if c.last then s.closeStageTile e f.task else s

/-- TILE_OVERRUN (R118): counted once for a tile that has run past 8,192 cycles, the one in progress or the one that its LAST pass has just
ended; the tile goes on to its LAST pass. -/
def tileOverrunEffect (e : EngId) (s : State) : State :=
  let e := EngIdIdx e
  let x := s.eng e
  if decide (8192 < x.tileCycles) && !x.tileOverrun then
    (s.bump .engTileOverrunCnt e 0 1).setEng e { x with tileOverrun := true }
  else s

def execTileOverrun (e : EngId) (s : State) : Host.Outcome State Fault Refusal := .next (tileOverrunEffect e s)

end Sys2Proof.Machine
end

