-- ==== Sys2Proof/Machine/Vector.lean ====
section
/-!
DEFINITION. The vector unit and the function evaluator (spec/04_vector_functions_random.md): vector commands, their operands, results,
sticky flags and counters, sector skip, and the generator's commands.
-/
namespace Sys2Proof.Machine

/-- A vector command with its fields clamped (R163, R165). Addresses are in 64-byte units. -/
structure VecCmd where
  vop : Nat
  fn : Nat
  bmode : Nat
  param : Nat
  rows : Nat
  cols : Nat
  logn : Nat
  nocount : Bool
  a : Nat
  b : Nat
  c : Nat
  d : Nat
  fmtA : Nat
  fmtB : Nat
  fmtC : Nat
  fmtD : Nat
  flagIdx : Nat
  outDesc : Nat
  genDesc : Nat
  orgRow : Nat
  orgCol : Nat

/-- The codes of the operation table (R164). -/
def vopNop : Nat := 0x00
def vopAdd : Nat := 0x01
def vopSub : Nat := 0x02
def vopMul : Nat := 0x03
def vopFma : Nat := 0x04
def vopMax : Nat := 0x05
def vopMin : Nat := 0x06
def vopAbs : Nat := 0x07
def vopNeg : Nat := 0x08
def vopCopy : Nat := 0x09
def vopRowsum : Nat := 0x0A
def vopRowmax : Nat := 0x0B
def vopRownorm : Nat := 0x0C
def vopKnorm : Nat := 0x0D
def vopFunc : Nat := 0x10
def vopDeriv : Nat := 0x11
def vopSmxUpdate : Nat := 0x18
def vopSmxProb : Nat := 0x19
def vopRowScale : Nat := 0x1A
def vopSkipDecide : Nat := 0x20
def vopSkipReplay : Nat := 0x21
def vopDropout : Nat := 0x28
def vopRandUniform : Nat := 0x29
def vopFlagsClear : Nat := 0x30
def vopFlagsGet : Nat := 0x31

/-- Every code of the operation table. -/
def vopCodes : List Nat :=
  [0x00, 0x01, 0x02, 0x03, 0x04, 0x05, 0x06, 0x07, 0x08, 0x09, 0x0A, 0x0B, 0x0C, 0x0D, 0x10, 0x11, 0x18, 0x19, 0x1A, 0x20, 0x21,
   0x28, 0x29, 0x30, 0x31]

/-- R48: a format code of a vector command, with the clamp it takes. -/
def clampVecFmt (code : Nat) : Nat × Nat := if fmtReserved code then (0, 1) else (code, 0)

/-- R165: a vector command as read, with the clamps it takes. -/
def parseVec (w : Words4) : VecCmd × Nat :=
  let vop0 := bitsOf w.w0 4 6
  let badVop := !vopCodes.contains vop0
  let vop := if badVop then 0 else vop0
  let fn0 := bitsOf w.w0 10 4
  let badFn := decide (10 ≤ fn0)
  let bm0 := bitsOf w.w0 14 2
  let badBm := vop == vopRowScale && bm0 != 1
  let (a, a1) := clampUnit (bitsOf w.w1 0 15)
  let (b, a2) := clampUnit (bitsOf w.w1 16 15)
  let (c, a3) := clampUnit (bitsOf w.w1 32 15)
  let (d, a4) := clampUnit (bitsOf w.w1 48 15)
  let (fA, f1) := clampVecFmt (bitsOf w.w2 0 4)
  let (fB, f2) := clampVecFmt (bitsOf w.w2 4 4)
  let (fC, f3) := clampVecFmt (bitsOf w.w2 8 4)
  let (fD, f4) := clampVecFmt (bitsOf w.w2 24 4)
  ({ vop := vop, fn := if badFn then 0 else fn0, bmode := if badBm then 1 else bm0, param := bitsOf w.w0 16 16,
     rows := bitsOf w.w0 32 12 + 1, cols := bitsOf w.w0 44 12 + 1, logn := bitsOf w.w0 56 6, nocount := bitOf w.w0 62,
     a := a, b := b, c := c, d := d, fmtA := fA, fmtB := fB, fmtC := fC, fmtD := fD, flagIdx := bitsOf w.w2 12 12,
     outDesc := bitsOf w.w2 32 16, genDesc := bitsOf w.w2 48 16, orgRow := bitsOf w.w3 0 32, orgCol := bitsOf w.w3 32 32 },
   b2n badVop + b2n badFn + b2n badBm + a1 + a2 + a3 + a4 + f1 + f2 + f3 + f4)

/-! ## Operands (R166, R169) -/

/-- Element `k` of a packed operand, as its binary32 value; every element format is exact in binary32. -/
def State.lensElem (s : State) (e unit fmt k : Nat) : F32 :=
  rne32 (decodeElem fmt false (elemCode (fun j => s.lensByte e (unit * 64 + j)) fmt k))

/-- Element (r, c) of operand B under BMODE. -/
def State.operandB (s : State) (e : Nat) (v : VecCmd) (r c : Nat) : F32 :=
  let k := match v.bmode with
    | 0 => r * v.cols + c
    | 1 => r
    | 2 => c
    | _ => 0
  s.lensElem e v.b v.fmtB k

/-- One result: its binary32 bits and whether the rounding that formed it reports underflow (R172). -/
structure VecResult where
  bits : F32
  underflow : Bool := false

/-- The result of one rounding of an exact value. -/
def rounded (v : Val) : VecResult :=
  let p := rne32F v
  ⟨p.1, p.2.underflow⟩

/-- R170, R172: the sum of exact terms by the group procedure, with the report of the rounding that forms it: the last addition, or
with one group its rounding. -/
def rowSumResult (vs : List Val) : VecResult :=
  match chunks 128 vs with
  | [] => ⟨0x80000000#32, false⟩
  | [g] => ⟨f32add 0x80000000#32 (groupSum g), (rne32F (groupVal g)).2.underflow⟩
  | g :: h :: gs =>
    let all := g :: h :: gs
    let acc := accumulate 0x80000000#32 all.dropLast
    rounded ((dec32 acc).add (dec32 (groupSum ((all.getLast?).getD []))))

/-- The maximum of a row (R169). -/
def rowMaxOf : List F32 → F32
  | [] => 0xFF800000#32
  | [x] => f32max x x
  | x :: xs => f32max x (rowMaxOf xs)

/-- R170: the L2 norm of a row. -/
def rowNormResult (xs : List F32) : VecResult :=
  let s := (rowSumResult (xs.map fun x => (dec32 x).mul (dec32 x))).bits
  if (dec32 s).isZero then ⟨0#32, false⟩ else rounded ((dec32 s).mul (dec32 (fRsqrt s)))

/-! ## Element-wise results (R164, R169, R180, R184) -/

/-- The result of an element-wise operation on a, b and c. -/
def elemResult (v : VecCmd) (a b c : F32) : VecResult :=
  if v.vop = vopAdd then rounded ((dec32 a).add (dec32 b))
  else if v.vop = vopSub then rounded ((dec32 a).add (dec32 b).neg)
  else if v.vop = vopMul ∨ v.vop = vopRowScale then rounded ((dec32 a).mul (dec32 b))
  else if v.vop = vopFma then rounded (((dec32 a).mul (dec32 b)).add (dec32 c))
  else if v.vop = vopMax then ⟨f32max a b, false⟩
  else if v.vop = vopMin then ⟨f32min a b, false⟩
  else if v.vop = vopAbs then ⟨f32abs a, false⟩
  else if v.vop = vopNeg then ⟨f32neg a, false⟩
  else if v.vop = vopFunc then rounded (funcV v.fn a)
  else if v.vop = vopDeriv then rounded (derivV v.fn a b)
  else ⟨rne32 (dec32 a), false⟩

/-- The operations that give one result per element of A. -/
def VecCmd.elementwise (v : VecCmd) : Bool :=
  [vopAdd, vopSub, vopMul, vopFma, vopMax, vopMin, vopAbs, vopNeg, vopCopy, vopFunc, vopDeriv, vopRowScale].contains v.vop

def VecCmd.readsB (v : VecCmd) : Bool :=
  [vopAdd, vopSub, vopMul, vopFma, vopMax, vopMin, vopDeriv, vopSmxUpdate, vopSmxProb, vopRowScale, vopSkipDecide, vopSkipReplay,
   vopDropout].contains v.vop

def VecCmd.isSkip (v : VecCmd) : Bool := v.vop == vopSkipDecide || v.vop == vopSkipReplay

/-- Row `r` of operand A. -/
def State.rowA (s : State) (e : Nat) (v : VecCmd) (r : Nat) : List F32 :=
  (List.range v.cols).map fun c => s.lensElem e v.a v.fmtA (r * v.cols + c)

/-! ## Online softmax (R186 to R189) -/

/-- Word `k` of the row state of row `r` (R186): m, l, α, reserved. -/
def State.rowState (s : State) (e : Nat) (v : VecCmd) (r k : Nat) : F32 := s.lensF32 e (v.c * 64 + 16 * r + 4 * k)

/-- What SMX_UPDATE forms for a row (R187): p, and the new m, l and α. -/
structure SmxRow where
  p : List VecResult
  m : F32
  l : F32
  alpha : F32

def smxRow (t : List F32) (m l : F32) : SmxRow :=
  let mn := f32max m (rowMaxOf t)
  if mn = 0xFF800000#32 then ⟨t.map fun _ => ⟨0#32, false⟩, mn, l, 0x3F800000#32⟩
  else
    let alpha := fExp2 (f32sub m mn)
    let p := t.map fun x => rounded (fExp2V (f32sub x mn))
    ⟨p, mn, f32add (f32mul l alpha) (rowGroupSum (p.map fun x => dec32 x.bits)), alpha⟩

/-- t of R187 for a row. -/
def State.scores (s : State) (e : Nat) (v : VecCmd) (r : Nat) : List F32 :=
  (List.range v.cols).map fun c => f32mul (s.lensElem e v.a v.fmtA (r * v.cols + c)) (s.operandB e v r c)

/-! ## Evaluator slots (R182 to R184, R207) -/

/-- Slots that a row's operations take: those of FN for each element of FUNC and DERIV, one for each exponential and each reciprocal of the
online softmax, and one for the reciprocal square root of a row's norm (log entry 78). -/
def State.rowSlots (s : State) (e : Nat) (v : VecCmd) (r : Nat) : Nat :=
  if v.vop = vopFunc then v.cols * funcSlots v.fn
  else if v.vop = vopDeriv then v.cols * derivSlots v.fn
  else if v.vop = vopSmxUpdate then
    if f32max (s.rowState e v r 0) (rowMaxOf (s.scores e v r)) = 0xFF800000#32 then 0 else v.cols + 1
  else if v.vop = vopSmxProb then v.cols + 1
  else if v.vop = vopRownorm ∨ v.vop = vopKnorm then
    if (dec32 (rowSumResult ((s.rowA e v r).map fun x => (dec32 x).mul (dec32 x))).bits).isZero then 0 else 1
  else 0

/-- Evaluator slots that a command takes. -/
def State.vecSlots (s : State) (e : Nat) (v : VecCmd) : Nat :=
  ((List.range v.rows).map fun r => s.rowSlots e v r).foldl (· + ·) 0

/-- Cycles in which the lanes issue for a command: 128 elements in each, or for the operations whose rate is the evaluator's 32 of its
slots (R162, R164, R183; log entry 78). -/
def VecCmd.cycles (v : VecCmd) (slots : Nat) : Nat :=
  if v.vop = vopFunc ∨ v.vop = vopDeriv ∨ v.vop = vopSmxUpdate ∨ v.vop = vopSmxProb then (slots + 31) / 32
  else (v.rows * v.cols + 127) / 128

/-! ## The results of a command -/

/-- The rows of results of a command, by row; `rev` and `g` serve the generator (R204, R205). -/
def State.vecRows (s : State) (e : Nat) (v : VecCmd) (g : Option Desc) (rev : Nat) : List (List VecResult) :=
  let rows := List.range v.rows
  let cols := List.range v.cols
  if v.elementwise then
    rows.map fun r => cols.map fun c =>
      elemResult v (s.lensElem e v.a v.fmtA (r * v.cols + c)) (if v.readsB then s.operandB e v r c else 0#32)
        (if v.vop = vopFma then s.lensElem e v.c v.fmtC (r * v.cols + c) else 0#32)
  else if v.vop = vopRowsum then rows.map fun r => [rowSumResult ((s.rowA e v r).map dec32)]
  else if v.vop = vopRowmax then rows.map fun r => [⟨rowMaxOf (s.rowA e v r), false⟩]
  else if v.vop = vopRownorm then rows.map fun r => [rowNormResult (s.rowA e v r)]
  else if v.vop = vopKnorm then
    let j0 := v.orgRow / 128
    let n := (v.orgRow + v.rows - 1) / 128 - j0 + 1
    (List.range n).map fun i =>
      let norms := (rows.filter fun r => (v.orgRow + r) / 128 == j0 + i).map fun r => rowNormResult (s.rowA e v r)
      let m := rowMaxOf (norms.map (·.bits))
      [⟨m, norms.any fun x => x.bits == m && x.underflow⟩]
  else if v.vop = vopSmxUpdate then
    rows.map fun r => (smxRow (s.scores e v r) (s.rowState e v r 0) (s.rowState e v r 1)).p
  else if v.vop = vopSmxProb then
    rows.map fun r =>
      let rl := fRecip (s.rowState e v r 1)
      (s.scores e v r).map fun t => rounded ((dec32 (fExp2 (f32sub t (s.rowState e v r 0)))).mul (dec32 rl))
  else if v.vop = vopDropout then
    match g with
    | none => []
    | some d => rows.map fun r => cols.map fun c =>
      if v.param ≤ draw16 (d.genKey rev) (d.index (v.orgRow + r) (v.orgCol + c)) then
        rounded ((dec32 (s.lensElem e v.a v.fmtA (r * v.cols + c))).mul (dec32 (s.operandB e v r c)))
      else ⟨0#32, false⟩
  else if v.vop = vopRandUniform then
    match g with
    | none => []
    | some d => rows.map fun r => cols.map fun c =>
      rounded (.fin false (draw32 (d.genKey rev) (d.index (v.orgRow + r) (v.orgCol + c)) / 256) (-24))
  else []

/-- Generator outputs of 128 bits that a command draws (R207): the distinct indices. -/
def VecCmd.outputs (v : VecCmd) (d : Desc) : Nat :=
  let per := if v.vop = vopDropout then 8 else 4
  ((List.range v.rows).foldl (fun acc r => (List.range v.cols).foldl (fun acc c =>
    setInsert (d.index (v.orgRow + r) (v.orgCol + c) / per) acc) acc) []).length

/-! ## Destinations (R167, R172) -/

/-- The report of a binary32 result beside that of its conversion (R172). -/
def VecResult.report (x : VecResult) : Flags :=
  { Flags.none with nonfinite := (dec32 x.bits).nonfinite, underflow := x.underflow }

/-- R167, first case: results converted to FMT_D and packed at D_ADDR. -/
def State.emitLens (s : State) (e : Nat) (v : VecCmd) (rows : List (List VecResult)) : State :=
  let xs := rows.flatten
  let enc := xs.map fun x => (encodeElem v.fmtD .nearestEven false 0 (dec32 x.bits), x)
  let bs := packElems v.fmtD (enc.map (·.1.1))
  let fl := enc.foldl (fun f p => (f.or p.1.2).or p.2.report) Flags.none
  ((s.lensPut e (v.d * 64) bs).bump .engConvCnt e v.fmtD xs.length).postFlags v.flagIdx fl

/-- R167, second case: results written through a descriptor of the chain at row `row0`. -/
def State.emitDesc (s : State) (e : Nat) (v : VecCmd) (c : Chain) (k row0 : Nat) (rows : List (List VecResult)) : State :=
  let (d, n) := s.chainDesc c v.outDesc
  let s := s.clamped (engCluster e) n
  let placed : List (Nat × List (Nat × VecResult)) := rows.zipIdx.map fun (xs, r) =>
    (row0 + r, xs.zipIdx.map fun (x, j) => (v.orgCol + j, x))
  let fl := placed.foldl (fun f (r, xs) => xs.foldl (fun f (j, x) =>
    if j < d.cnt0 ∧ r < d.rows ∧ d.inExtent r j = true then f.or x.report else f) f) Flags.none
  let w := s.streamRows (engDie e) c.stepRev { unit := .engine e, owner := c.owner, who := some ⟨c.ref, k⟩ } d
    (placed.map fun (r, xs) => (r, xs.map fun (j, x) => (j, dec32 x.bits)))
  let s := ((w.st.bump .engConvCnt e d.fmt w.count).bump .engRngOutputCnt e 0 w.draws).postFlags d.flagIdx fl
  let s := if w.masked then s.bump .cluExtentMaskCnt c.cluster 0 1 else s
  if w.fault then s.endWrite c k else s

/-- The results of a command written where it names; an engine whose context belongs to no chain has no descriptor. -/
def State.emit (s : State) (e task : Nat) (v : VecCmd) (rows : List (List VecResult)) : State :=
  if v.outDesc = 0xFFFF then s.emitLens e v rows
  else
    match s.chainOfTask e task with
    | some (c, k) => s.emitDesc e v c k (if v.vop = vopKnorm then v.orgRow / 128 else v.orgRow) rows
    | none => s

/-! ## Sector skip (R193 to R196, R200) -/

/-- R193: the threshold offset H. -/
def skipOffset (param logn : Nat) : F32 :=
  let tau := f32mul (rne32 (.fin false param (-8))) constL2E
  f32add (f32add tau (f32ofInt logn)) 0x3F800000#32

/-- The bound b = q × k of a row and block (R194). -/
def State.skipBound (s : State) (e : Nat) (v : VecCmd) (r c : Nat) : F32 :=
  f32mul (s.lensElem e v.a v.fmtA r) (s.lensElem e v.b v.fmtB c)

/-- The code of a row and block in the decision map at D_ADDR (R195). -/
def State.skipCode (s : State) (e : Nat) (v : VecCmd) (r c : Nat) : Nat :=
  let k := r * v.cols + c
  (s.lensByte e (v.d * 64 + k / 4)).toNat / 4 ^ (k % 4) % 4

/-- A decision map written as one packed stream of codes (R195). -/
def State.putMap (s : State) (e : Nat) (v : VecCmd) (codes : List Nat) : State :=
  s.lensPut e (v.d * 64) (bytesOf (packNat 2 codes) ((codes.length + 3) / 4))

/-- SKIP_DECIDE's codes, row by row (R194). -/
def State.decideRow (s : State) (e : Nat) (v : VecCmd) (r : Nat) : List Nat :=
  let lim := f32sub (s.lensElem e v.c v.fmtC r) (skipOffset v.param v.logn)
  (List.range v.cols).map fun c => if f32lt (s.skipBound e v r c) lim then 1 else 0

/-- SKIP_REPLAY's codes of a row (R196). -/
def State.replayRow (s : State) (e : Nat) (v : VecCmd) (r : Nat) : List Nat :=
  let lim := f32sub (s.rowState e v r 0) (skipOffset v.param v.logn)
  (List.range v.cols).map fun c =>
    let old := s.skipCode e v r c
    if old = 1 && !f32lt (s.skipBound e v r c) lim then 2 else old

def State.skipEffect (s : State) (e : Nat) (v : VecCmd) : State :=
  let old := (List.range v.rows).map fun r => (List.range v.cols).map fun c => s.skipCode e v r c
  let rows := (List.range v.rows).map fun r => if v.vop = vopSkipDecide then s.decideRow e v r else s.replayRow e v r
  let s := s.putMap e v rows.flatten
  if v.nocount then s
  else if v.vop = vopSkipDecide then
    (s.bump .engSkipDecideCnt e 0 (v.rows * v.cols)).bump .engSkipBlockCnt e 0 (rows.flatten.countP (· == 1))
  else
    let hit (p : List Nat × List Nat) : Nat := (p.1.zip p.2).countP fun q => q.1 == 1 && q.2 == 2
    let pairs := old.zip rows
    (s.bump .engSkipReplayCnt e 0 ((pairs.map hit).foldl (· + ·) 0)).bump .engSkipRowReplayCnt e 0
      (pairs.countP fun p => decide (0 < hit p))

/-! ## The lens ranges of a command (R862) -/

/-- Whether the command has operands and a result. -/
def VecCmd.works (v : VecCmd) : Bool := v.vop != vopNop && v.vop != vopFlagsClear && v.vop != vopFlagsGet

/-- The ranges a command reads: its operands, its row states, the decision map of a replay. -/
def VecCmd.reads (v : VecCmd) : List (Nat × Nat) :=
  let n := v.rows * v.cols
  let nB := if v.isSkip then v.cols else match v.bmode with
    | 0 => n
    | 1 => v.rows
    | 2 => v.cols
    | _ => 1
  if !v.works then []
  else
    (if v.vop = vopRandUniform then [] else [(v.a * 64, packedBytes v.fmtA (if v.isSkip then v.rows else n))]) ++
    (if v.readsB then [(v.b * 64, packedBytes v.fmtB nB)] else []) ++
    (if v.vop = vopFma then [(v.c * 64, packedBytes v.fmtC n)]
     else if v.vop = vopSkipDecide then [(v.c * 64, packedBytes v.fmtC v.rows)]
     else if v.vop = vopSmxUpdate ∨ v.vop = vopSmxProb ∨ v.vop = vopSkipReplay then [(v.c * 64, 16 * v.rows)]
     else []) ++
    (if v.vop = vopSkipReplay then [(v.d * 64, (n + 3) / 4)] else [])

/-- The ranges a command writes: its destination in the lens buffers, and the row states of SMX_UPDATE. -/
def VecCmd.writes (v : VecCmd) : List (Nat × Nat) :=
  let n := v.rows * v.cols
  let outs := if v.vop = vopRowsum ∨ v.vop = vopRowmax ∨ v.vop = vopRownorm then v.rows
    else if v.vop = vopKnorm then (v.orgRow + v.rows - 1) / 128 - v.orgRow / 128 + 1 else n
  if v.vop = vopFlagsGet then [(v.d * 64, 12)]
  else if !v.works then []
  else
    (if v.isSkip then [(v.d * 64, (n + 3) / 4)]
     else if v.outDesc = 0xFFFF then [(v.d * 64, packedBytes v.fmtD outs)] else []) ++
    (if v.vop = vopSmxUpdate then [(v.c * 64, 16 * v.rows)] else [])

def VecCmd.ranges (v : VecCmd) : List (Nat × Nat) := v.reads ++ v.writes

/-! ## Execution -/

/-- The new row states of SMX_UPDATE (R187): m, l and α of every row. -/
def State.putRowStates (s : State) (e : Nat) (v : VecCmd) : List (Nat × SmxRow) → State
  | [] => s
  | (r, x) :: rest =>
    let at_ := v.c * 64 + 16 * r
    ((((s.lensPutF32 e at_ x.m).lensPutF32 e (at_ + 4) x.l).lensPutF32 e (at_ + 8) x.alpha)).putRowStates e v rest

/-- The descriptor named by GEN_DESC of the chain that a context belongs to, with the chain. -/
def State.genDescOf (s : State) (e task : Nat) (v : VecCmd) : Option (Chain × Desc × Nat) :=
  (s.chainOfTask e task).map fun p =>
    let (d, n) := s.chainDesc p.1 v.genDesc
    (p.1, d, n)

/-- A command that draws from the generator (R204, R205). A context of no chain has no descriptor to take the key from: the command gives no
result, wherever it is due (log entry 19). -/
def State.genEffect (s : State) (e task : Nat) (v : VecCmd) : State :=
  match s.genDescOf e task v with
  | none => s
  | some (c, d, n) =>
    let s := s.clamped (engCluster e) n
    let rows := s.vecRows e v (some d) c.stepRev
    (s.bump .engRngOutputCnt e 0 (v.outputs d)).emit e task v rows

/-- R162: a vector command executed whole: clamps, counters, result, flags; not where its reads meet a parity error or poison (R286). FLAGS_GET always writes binary32 values at D_ADDR: R175 says
where and what, so FMT_D and OUT_DESC are not used (log entry 78). -/
def State.runVec (s : State) (e task index : Nat) (w : Words4) : State :=
  let (v, n) := parseVec w
  let s := s.clamped (engCluster e) (n + b2n (lensOver v.ranges))
  let (s, stops) := s.lensFaults e task (v.reads.map (4, ·))
  if stops then s
  else
  let s := s.openTile e task 2 index
  let s := s.traceCmd 2 1 e task 2 index 0
  let acc := (s.eng e).flightAccs
  let s := s.bump .engLensConflictCnt e 0 (lensWaits (v.reads ++ acc) (v.writes ++ acc))
  let slots := s.vecSlots e v
  let cycles := if v.works then v.cycles slots else 0
  let s := if v.works then (s.bump .engVecIssueCnt e 0 cycles).bump .engFuncResultCnt e 0 slots else s
  let s :=
    if v.vop = vopNop then s
    else if v.vop = vopFlagsClear then (s.wr .galFlagEntry 0 v.flagIdx 0#64).wr .galFlagEntry 1 v.flagIdx 0#64
    else if v.vop = vopFlagsGet then
      let w := s.rd .galFlagEntry (engDie e) v.flagIdx
      let put (s : State) (k : Nat) : State := s.lensPutF32 e (v.d * 64 + 4 * k) (if bitOf w k then 0x3F800000#32 else 0#32)
      put (put (put s 0) 1) 2
    else if v.isSkip then s.skipEffect e v
    else if v.vop = vopDropout ∨ v.vop = vopRandUniform then s.genEffect e task v
    else
      let rows := s.vecRows e v none 0
      if v.vop = vopSmxUpdate then
        let sts := (List.range v.rows).map fun r => (r, smxRow (s.scores e v r) (s.rowState e v r 0) (s.rowState e v r 1))
        (s.putRowStates e v sts).emit e task v rows
      else s.emit e task v rows
  let s := s.bump .engVopCnt e v.vop 1
  s.traceCmd 2 2 e task 2 index cycles

end Sys2Proof.Machine
end

