-- ==== Sys2Proof/Machine/EngineCmds.lean ====
section
/-!
DEFINITION. The commands of an engine in the order it takes them (spec/03_cube_array.md, spec/04_vector_functions_random.md): passes,
tile marks and vector commands, and the events that let a held pass issue.
-/
namespace Sys2Proof.Machine

/-! ## Tile marks -/

/-- R331: a tile mark that nothing stands before: the tile ends. -/
def State.runMark (s : State) (e task opc index : Nat) : State :=
  let x := s.eng e
  let s := s.setEng e { x with tileOpen := false }
  let s := if s.traceLevel (engDie e) = 2 then s.traceCmd 2 2 e task opc index 0
           else s.traceCmd 1 2 e task opc index x.tileCycles
  s.closeStageTile e task

/-! ## Pre-emption points (R616 to R621) -/

/-- A live-range entry: kind (3 read as 0), start and length in 64-byte units (R617). -/
def liveRange (w : Word) : Nat × Nat × Nat :=
  let k := bitsOf w 0 2
  (if k = 3 then 0 else k, bitsOf w 2 15, max 1 (min 24576 (bitsOf w 17 15)))

/-- The lens-buffer ranges among live ranges, in bytes. -/
def lensRanges (rs : List (Nat × Nat × Nat)) : List (Nat × Nat) := (rs.filter fun r => r.1 == 0).map fun r => (r.2.1 * 64, r.2.2 * 64)

/-- Bytes of live ranges. -/
def rangeBytes (rs : List (Nat × Nat × Nat)) : Nat := rs.foldl (fun n r => n + r.2.2 * 64) 0

/-- R616, R621: a pre-emption point that nothing stands before. It ends a tile; a task with a pre-emption requested stops there, its
record PREEMPTED, its live ranges being saved; ranges past the end of the lens buffers are used up to it (R862). -/
def State.runPoint (s : State) (e task index : Nat) (w : Words4) : State :=
  let s := s.runMark e task 0xF index
  let x := s.eng e
  match s.chainOfTask e task with
  | none => s
  | some (c, k) =>
    match c.stages[k]?, s.findRec c.launch with
    | some g, some r =>
      if !x.preempt.contains task then s
      else
        let die := cluDie c.cluster
        let list := c.prog + 64 * bitsOf w.w1 0 32
        let ranges := (s.virtWords die c.owner list (bitsOf w.w0 16 8)).map liveRange
        let slot := bitsOf w.w0 24 12
        let size := bitsOf (s.virtWord die c.owner (c.prog + 16)) 32 32
        let s := s.clamped (engCluster e) (b2n (lensOver (lensRanges ranges)))
        let saved : SavedTask := { launch := c.launch, engine := e, task := task, chain := c.ref, stage := k, item := g.item,
                                   slot := slot, ranges := ranges, saveAt := r.saveArea + slot * size }
        let s := s.setEng e { x with preempt := setErase task x.preempt }
        let s := s.setChain { c with stages := c.stages.set k { g with away := true } }
        let s := (s.setRec { r with preempts := r.preempts + 1 }).setRecState c.launch 4
        let s := { s with beam := { s.beam with saved := s.beam.saved ++ [saved] } }
        let s := s.setFld engTaskStateState e task 3
        (s.bump .beamPreemptCnt (engDie e) 0 1).bump .beamPreemptCyc (engDie e) 0 ((rangeBytes ranges + 255) / 256 + 8)
    | _, _ => s

/-! ## Taking a command -/

/-- One engine command that nothing stands before, by its opcode: a pass, a tile mark or a vector command (R111, R163, R331). -/
def State.runCmd (s : State) (e : Nat) (q : QueuedCmd) : State :=
  let opc := bitsOf q.words.w0 0 4
  if opc = 1 then s.beginPass e q.task q.index q.words
  else if opc = 0xE then s.runMark e q.task 0xE q.index
  else if opc = 0xF then s.runPoint e q.task q.index q.words
  else s.runVec e q.task q.index q.words

/-- Whether a mode change stops the engine, at a tile boundary (R759). -/
def State.stopped (s : State) (e : Nat) : Bool := (s.powerDie (engDie e)).paused && !(s.eng e).tileOpen

def QueuedCmd.opc (q : QueuedCmd) : Nat := bitsOf q.words.w0 0 4

def QueuedCmd.isPass (q : QueuedCmd) : Bool := q.opc == 1

/-- A tile mark or a pre-emption point. -/
def QueuedCmd.isMark (q : QueuedCmd) : Bool := q.opc == 0xE || q.opc == 0xF

/-- Whether the command ends its tile (R331). -/
def QueuedCmd.ends (q : QueuedCmd) : Bool := q.isMark || (q.isPass && (parsePass q.words).1.last)

/-- The lens-buffer ranges that a command reads. A pass that its tile's opening makes load reads its stationary block too. -/
def QueuedCmd.reads (q : QueuedCmd) : List (Nat × Nat) :=
  if q.isPass then ({ (parsePass q.words).1 with loadS := true } : PassCmd).reads else if q.isMark then [] else (parseVec q.words).1.reads

/-- The lens-buffer ranges that a command writes. -/
def QueuedCmd.writes (q : QueuedCmd) : List (Nat × Nat) :=
  if q.isPass then (parsePass q.words).1.accs else if q.isMark then [] else (parseVec q.words).1.writes

/-- Whether two lists of ranges have a byte in common. -/
def rangesMeet (as bs : List (Nat × Nat)) : Bool :=
  as.any fun a => bs.any fun b => decide (0 < a.2) && decide (0 < b.2) && decide (a.1 < b.1 + b.2) && decide (b.1 < a.1 + a.2)

/-- Whether the reads of the item that a context's stage has started are still under way: its commands wait for what they bring (R332). -/
def State.loadsOpen (s : State) (e task : Nat) : Bool :=
  match s.chainOfTask e task with
  | some (c, k) => (match c.stages[k]? with
    | some g => g.todo
    | none => false)
  | none => false

/-- Whether a command waits, with the commands taken before it that wait too (R162, R168, R331, R759): a pass behind a pass that has not
issued, a vector command behind a vector command; within its task a command behind what writes an address it reads, be it a pass not
complete; a tile mark behind every command of its task, and a command behind the end of its task's tile. -/
def State.cmdWaits (s : State) (e : Nat) (before : List QueuedCmd) (q : QueuedCmd) : Bool :=
  let x := s.eng e
  let mine := before.filter fun p => p.task == q.task
  let held := match x.held with
    | some h => h.task == q.task && (q.isMark || h.cmd.last || rangesMeet h.cmd.accs q.reads)
    | none => false
  s.stopped e || s.loadsOpen e q.task ||
  (if q.isPass then x.held.isSome || before.any (·.isPass)
   else held || (!q.isMark && before.any fun p => !p.isPass && !p.isMark) ||
     (x.flight.any fun f => f.task == q.task && rangesMeet f.cmd.accs q.reads)) ||
  mine.any fun p => q.isMark || p.ends || rangesMeet p.writes q.reads

/-- The first command of a queue that does not wait, with those before and after it. -/
def State.nextCmd (s : State) (e : Nat) (before : List QueuedCmd) : List QueuedCmd → Option (QueuedCmd × List QueuedCmd)
  | [] => none
  | q :: rest => if s.cmdWaits e before q then s.nextCmd e (before ++ [q]) rest else some (q, before ++ rest)

/-- The commands of an engine's queue that no longer wait begin, in order; `fuel` is their number. -/
def State.drainCmds (s : State) (e : Nat) : Nat → State
  | 0 => s
  | fuel + 1 =>
    match s.nextCmd e [] (s.eng e).queue with
    | some (q, rest) => ((s.setEng e { s.eng e with queue := rest }).runCmd e q).drainCmds e fuel
    | none => s

def State.drain (s : State) (e : Nat) : State := s.drainCmds e (s.eng e).queue.length

/-- An engine takes a command: it waits or begins now. The engines of a die that does not run take none (R19). -/
def State.takeCmd (s : State) (e task : Nat) (w : Words4) : State :=
  if !s.dieRuns (engDie e) then s
  else
    let (index, x) := (s.eng e).countCmd task
    let q : QueuedCmd := { words := w, task := task, index := index }
    let s' := s.setEng e x
    if s.cmdWaits e x.queue q then s'.setEng e { x with queue := x.queue ++ [q] } else s'.runCmd e q

/-- The held pass issues, and the commands behind it follow. -/
def State.issueHeld (s : State) (e : Nat) (h : HeldPass) : State :=
  ((s.setEng e { s.eng e with issueLeft := 0 }).issuePass e h.cmd h.task h.index).drain e

/-- The ramp or the load that held a pass is over: the pass issues, unless its die holds issue for a droop; it then stays held to the
hold's end (R767). -/
def State.holdOver (s : State) (e : Nat) (h : HeldPass) : State :=
  if 0 < (s.powerDie (engDie e)).hold then s.setEng e { s.eng e with held := some { h with loadCycles := 0 } } else s.issueHeld e h

/-- What an engine held for a droop or a mode change does at its end (R759, R767): a pass that waits for nothing else issues, and the
commands behind it follow. -/
def State.goOn (s : State) (e : Nat) : State :=
  match (s.eng e).held with
  | some h =>
    if s.fld engArrayStatusFrontStall e = 1 ∨ s.fld engArrayStatusWindowWait e = 1 ∨ s.fld engArrayStatusRamping e = 1 then s
    else s.issueHeld e h
  | none => s.drain e

/-- Every engine of a die goes on. -/
def State.dieGoesOn (s : State) (die : Nat) : State := (List.range 48).foldl (fun s k => s.goOn (die * 48 + k)) s

/-- A command image with the opcode of its kind. -/
def withOpc (w : Words4) (opc : Nat) : Words4 := { w with w0 := withBits w.w0 0 4 opc }

/-- A vector command image with the operation that its row of the command table names. -/
def withVop (w : Words4) (vop : Nat) : Words4 := { w with w0 := withBits (withBits w.w0 0 4 2) 4 6 vop }

/-- PASS (R109, R111): an engine takes a pass command. -/
def execPass (e : EngId) (task : Fin 4) (w : Words4) (s : State) : Host.Outcome State Fault Refusal :=
  .next (s.takeCmd (EngIdIdx e) task.val (withOpc w 1))

/-- TILE_MARK (R331): an engine takes a tile mark. -/
def execTileMark (e : EngId) (task : Fin 4) (s : State) : Host.Outcome State Fault Refusal :=
  .next (s.takeCmd (EngIdIdx e) task.val ⟨0xE#64, 0#64, 0#64, 0#64⟩)

/-- PREEMPTION_POINT (R616): an engine takes a pre-emption point. -/
def execPreemptionPoint (e : EngId) (task : Fin 4) (w : Words4) (s : State) : Host.Outcome State Fault Refusal :=
  .next (s.takeCmd (EngIdIdx e) task.val (withOpc w 0xF))

/-- PASS_COMPLETE (R149): the oldest pass in flight is complete, and what waited for it begins (R168). -/
def passCompleteEffect (e : EngId) (s : State) : State := (s.completePass (EngIdIdx e)).drain (EngIdIdx e)

def execPassComplete (e : EngId) (s : State) : Host.Outcome State Fault Refusal := .next (passCompleteEffect e s)

/-! ## Events that let a held pass issue -/

/-- STATIONARY_LOAD_DONE (R147, R864): the load that held issue has ended; its cycles are front-stall cycles. -/
def stationaryLoadDoneEffect (e : EngId) (s : State) : State :=
  let e := EngIdIdx e
  let x := s.eng e
  match x.held with
  | some h =>
    if s.fld engArrayStatusFrontStall e = 1 then
      let s := s.setArr engArrayStatusFrontStall e 0
      let s := s.bump .engArrayFrontStallCnt e 0 h.loadCycles
      let s := s.setEng e { x with tileCycles := x.tileCycles + h.loadCycles }
      s.holdOver e h
    else s
  | none => s

def execStationaryLoadDone (e : EngId) (s : State) : Host.Outcome State Fault Refusal :=
  .next (stationaryLoadDoneEffect e s)

/-- RAMP_UP_END (R152, R153, R864): every column is engaged; the pass issues, or waits for what is left of its stationary load. -/
def rampUpEndEffect (e : EngId) (s : State) : State :=
  let e := EngIdIdx e
  let x := s.eng e
  match x.held with
  | some h =>
    if s.fld engArrayStatusRamping e = 1 && x.rampUp then
      let s := s.setArr engArrayStatusRamping e 0
      let s := s.setArr engArrayStatusEngagedCols e 8
      let s := s.setEng e { x with rampUp := false }
      let left := h.loadCycles - h.rampCycles
      if 0 < left then
        (s.setArr engArrayStatusFrontStall e 1).setEng e
          { s.eng e with held := some { h with loadCycles := left } }
      else s.holdOver e h
    else s
  | none => s

def execRampUpEnd (e : EngId) (s : State) : Host.Outcome State Fault Refusal := .next (rampUpEndEffect e s)

/-! ## Vector commands (R164) -/

/-- NOP (R164): counted, no result; a reserved operation code is read as NOP (R165). -/
def execNop (e : EngId) (task : Fin 4) (w : Words4) (s : State) : Host.Outcome State Fault Refusal :=
  .next (s.takeCmd (EngIdIdx e) task.val
    (if vopCodes.contains (bitsOf w.w0 4 6) then withVop w vopNop else withOpc w 2))

/-- ADD (R169). -/
def execAdd (e : EngId) (task : Fin 4) (w : Words4) (s : State) : Host.Outcome State Fault Refusal :=
  .next (s.takeCmd (EngIdIdx e) task.val (withVop w vopAdd))

/-- SUB (R169). -/
def execSub (e : EngId) (task : Fin 4) (w : Words4) (s : State) : Host.Outcome State Fault Refusal :=
  .next (s.takeCmd (EngIdIdx e) task.val (withVop w vopSub))

/-- MUL (R169). -/
def execMul (e : EngId) (task : Fin 4) (w : Words4) (s : State) : Host.Outcome State Fault Refusal :=
  .next (s.takeCmd (EngIdIdx e) task.val (withVop w vopMul))

/-- FMA (R169). -/
def execFma (e : EngId) (task : Fin 4) (w : Words4) (s : State) : Host.Outcome State Fault Refusal :=
  .next (s.takeCmd (EngIdIdx e) task.val (withVop w vopFma))

/-- MAX (R169). -/
def execMax (e : EngId) (task : Fin 4) (w : Words4) (s : State) : Host.Outcome State Fault Refusal :=
  .next (s.takeCmd (EngIdIdx e) task.val (withVop w vopMax))

/-- MIN (R169). -/
def execMin (e : EngId) (task : Fin 4) (w : Words4) (s : State) : Host.Outcome State Fault Refusal :=
  .next (s.takeCmd (EngIdIdx e) task.val (withVop w vopMin))

/-- ABS (R169). -/
def execAbs (e : EngId) (task : Fin 4) (w : Words4) (s : State) : Host.Outcome State Fault Refusal :=
  .next (s.takeCmd (EngIdIdx e) task.val (withVop w vopAbs))

/-- NEG (R169). -/
def execNeg (e : EngId) (task : Fin 4) (w : Words4) (s : State) : Host.Outcome State Fault Refusal :=
  .next (s.takeCmd (EngIdIdx e) task.val (withVop w vopNeg))

/-- COPY (R167). -/
def execCopy (e : EngId) (task : Fin 4) (w : Words4) (s : State) : Host.Outcome State Fault Refusal :=
  .next (s.takeCmd (EngIdIdx e) task.val (withVop w vopCopy))

/-- ROWSUM (R170). -/
def execRowsum (e : EngId) (task : Fin 4) (w : Words4) (s : State) : Host.Outcome State Fault Refusal :=
  .next (s.takeCmd (EngIdIdx e) task.val (withVop w vopRowsum))

/-- ROWMAX (R164). -/
def execRowmax (e : EngId) (task : Fin 4) (w : Words4) (s : State) : Host.Outcome State Fault Refusal :=
  .next (s.takeCmd (EngIdIdx e) task.val (withVop w vopRowmax))

/-- ROWNORM (R170). -/
def execRownorm (e : EngId) (task : Fin 4) (w : Words4) (s : State) : Host.Outcome State Fault Refusal :=
  .next (s.takeCmd (EngIdIdx e) task.val (withVop w vopRownorm))

/-- KNORM (R867). -/
def execKnorm (e : EngId) (task : Fin 4) (w : Words4) (s : State) : Host.Outcome State Fault Refusal :=
  .next (s.takeCmd (EngIdIdx e) task.val (withVop w vopKnorm))

/-- FUNC (R180). -/
def execFunc (e : EngId) (task : Fin 4) (w : Words4) (s : State) : Host.Outcome State Fault Refusal :=
  .next (s.takeCmd (EngIdIdx e) task.val (withVop w vopFunc))

/-- DERIV (R184). -/
def execDeriv (e : EngId) (task : Fin 4) (w : Words4) (s : State) : Host.Outcome State Fault Refusal :=
  .next (s.takeCmd (EngIdIdx e) task.val (withVop w vopDeriv))

/-- SMX_UPDATE (R187). -/
def execSmxUpdate (e : EngId) (task : Fin 4) (w : Words4) (s : State) : Host.Outcome State Fault Refusal :=
  .next (s.takeCmd (EngIdIdx e) task.val (withVop w vopSmxUpdate))

/-- SMX_PROB (R189). -/
def execSmxProb (e : EngId) (task : Fin 4) (w : Words4) (s : State) : Host.Outcome State Fault Refusal :=
  .next (s.takeCmd (EngIdIdx e) task.val (withVop w vopSmxProb))

/-- ROW_SCALE (R188). -/
def execRowScale (e : EngId) (task : Fin 4) (w : Words4) (s : State) : Host.Outcome State Fault Refusal :=
  .next (s.takeCmd (EngIdIdx e) task.val (withVop w vopRowScale))

/-- SKIP_DECIDE (R194). -/
def execSkipDecide (e : EngId) (task : Fin 4) (w : Words4) (s : State) : Host.Outcome State Fault Refusal :=
  .next (s.takeCmd (EngIdIdx e) task.val (withVop w vopSkipDecide))

/-- SKIP_REPLAY (R196). -/
def execSkipReplay (e : EngId) (task : Fin 4) (w : Words4) (s : State) : Host.Outcome State Fault Refusal :=
  .next (s.takeCmd (EngIdIdx e) task.val (withVop w vopSkipReplay))

/-- DROPOUT (R204). -/
def execDropout (e : EngId) (task : Fin 4) (w : Words4) (s : State) : Host.Outcome State Fault Refusal :=
  .next (s.takeCmd (EngIdIdx e) task.val (withVop w vopDropout))

/-- RAND_UNIFORM (R205). -/
def execRandUniform (e : EngId) (task : Fin 4) (w : Words4) (s : State) : Host.Outcome State Fault Refusal :=
  .next (s.takeCmd (EngIdIdx e) task.val (withVop w vopRandUniform))

/-- FLAGS_CLEAR (R175). -/
def execFlagsClear (e : EngId) (task : Fin 4) (w : Words4) (s : State) : Host.Outcome State Fault Refusal :=
  .next (s.takeCmd (EngIdIdx e) task.val (withVop w vopFlagsClear))

/-- FLAGS_GET (R175). -/
def execFlagsGet (e : EngId) (task : Fin 4) (w : Words4) (s : State) : Host.Outcome State Fault Refusal :=
  .next (s.takeCmd (EngIdIdx e) task.val (withVop w vopFlagsGet))

/-- GAL_FLAG_ENTRY_CLEAR (R174, R176): a write to one die's flag entry clears the flags written as 1. -/
def execGalFlagEntryClear (die : Fin 2) (idx : BitVec 12) (value : Word) (s : State) : Host.Outcome State Fault Refusal :=
  .next (s.wr .galFlagEntry die.val idx.toNat (s.rd .galFlagEntry die.val idx.toNat &&& ~~~(value &&& 7#64)))

end Sys2Proof.Machine
end

