-- ==== Sys2Proof/Machine/Chains.lean ====
section
/-!
DEFINITION. Stage chains (spec/07_streams_and_stage_chains.md): the chain command and its clamps, launching, slot tokens, the work of a
stage's item, task switching, and the ends of a chain.
-/
namespace Sys2Proof.Machine

/-! ## The chain command (R323, R326) -/

/-- A stage entry read from its four words: stage `k` of `n`, on die `die`. The low 7 bits of RING_ADDR are dropped and count no clamp
(log entry 74). -/
def State.parseStage (s : State) (die ndesc n k : Nat) (w : Nat → Word) : Stage × Nat :=
  let kind0 := bitsOf (w 0) 0 4
  let reserved := decide (5 < kind0)
  let kind1 := if reserved then 0 else kind0
  let misplaced := ((kind1 == 1 || kind1 == 3 || kind1 == 5) && k != 0) || (kind1 == 2 && k + 1 != n)
  let kind := if misplaced then 0 else kind1
  let eng0 := bitsOf (w 0) 4 7
  let badClu := kind == 0 && eng0 / 4 % 4 == 3
  let eng1 := if kind = 0 then clampPacked eng0 else eng0
  let badDie := kind == 0 && eng1 / 64 != die
  let eng := if badDie then die * 64 + eng1 % 64 else eng1
  let usesIn := kind == 1 || kind == 3 || kind == 4
  let usesOut := kind == 2 || kind == 3 || kind == 4
  let in0 := bitsOf (w 0) 16 16
  let out0 := bitsOf (w 0) 32 16
  let inBad := usesIn && decide (ndesc ≤ in0)
  let outBad := usesOut && decide (ndesc ≤ out0)
  let ring := bitsOf (w 2) 0 48 / 128 * 128
  let nslots := bitsOf (w 2) 48 4 + 1
  let tok0 := bitsOf (w 2) 52 12
  let count := match s.tokenTable ring with
    | some (gal, _) => tokenCount gal
    | none => 4096
  let tokBad := k + 1 != n && decide (count < tok0 + nslots)
  ({ kind := kind, engine := eng, task := bitsOf (w 0) 11 2, inDesc := if inBad then ndesc - 1 else in0,
     outDesc := if outBad then ndesc - 1 else out0, cmdOff := bitsOf (w 1) 0 32, ringAddr := ring, nslots := nslots,
     tokenBase := if tokBad then count - nslots else tok0, slotLines := bitsOf (w 3) 0 17 + 1 },
   b2n reserved + b2n misplaced + b2n badClu + b2n badDie + b2n inBad + b2n outBad + b2n tokBad)

/-- The nearer end of a range, 0 kept (R326), with the clamp it takes. -/
def clampRange (lo hi x : Nat) : Nat × Nat :=
  if x = 0 then (0, 0) else if x < lo then (lo, 1) else if hi < x then (hi, 1) else (x, 0)

/-- R323, R326: a chain command image of 32 words, from an offset of the program, as a chain of a launch record, with the clamps it takes. -/
def State.parseChain (s : State) (cluster : Nat) (r : RecInst) (off : Nat) (ws : List Word) : Chain × Nat :=
  let die := cluDie cluster
  let w := fun k => ws.getD k 0#64
  let n0 := bitsOf (w 0) 4 3
  let n := if n0 = 0 then 1 else if n0 = 7 then 6 else n0
  let raw0 := bitOf (w 0) 7
  let rawOk := s.dget dkStreamRawEnable != 0
  let region0 := bitsOf (w 0) 40 16
  let regBad := region0 != 0xFFFF && decide (s.regionCount die r.owner r.prog ≤ region0)
  let region := if regBad then 0xFFFF else region0
  let ndesc0 := bitsOf (w 1) 48 16
  let ndesc := max 1 ndesc0
  let plan0 := bitsOf (w 2) 48 16
  let entries := match s.planHeader die r.owner r.prog with
    | some (_, _, e) => e
    | none => 0
  let planBad := plan0 != 0xFFFF && decide (entries ≤ plan0)
  let (sw, nSw) := clampRange 16 65535 (bitsOf (w 2) 32 16)
  let (wd, nWd) := clampRange 10 1000000 (bitsOf (w 3) 0 32)
  let sts := (List.range n).map fun k => s.parseStage die ndesc n k fun j => w (8 + 4 * k + j)
  ({ cluster := cluster, launch := r.index, ahead := false, owner := r.owner, stepRev := r.stepRev, prog := r.prog,
     raw := raw0 && rawOk, overlap := bitOf (w 0) 8, items := bitsOf (w 0) 16 24 + 1, region := region,
     rphase := bitsOf (w 0) 56 2, descTable := bitsOf (w 1) 0 48, ndesc := ndesc, next := bitsOf (w 2) 0 32,
     switchThresh := sw, planEntry := if planBad then 0xFFFF else plan0, stallWd := wd, off := off, stages := sts.map (·.1) },
   b2n (n0 == 0 || n0 == 7) + b2n (raw0 && !rawOk) + b2n regBad + b2n (ndesc0 == 0) + b2n planBad + nSw + nWd +
     (sts.map (·.2)).foldl (· + ·) 0)

/-- R328: whether a ring lies whole in one populated cluster memory or gallery. One of the other die is taken too, as R322 gives such a ring
no effect (log entry 74). -/
def State.ringOk (s : State) (g : Stage) : Bool :=
  let n := g.nslots * g.slotLines * 128
  match s.phys g.ringAddr with
  | .gallery _ off => decide (off + n ≤ 0xC00_0000)
  | .cluster _ off => decide (off + n ≤ 0xC0_0000)
  | _ => false

/-! ## Slots and tokens (R336 to R340) -/

/-- The first byte of a slot (R325). -/
def Stage.slotAddr (g : Stage) (t : Nat) : Nat := g.ringAddr + t % g.nslots * (g.slotLines * 128)

def Stage.slotBytes (g : Stage) : Nat := g.slotLines * 128

/-! ## Stream plans (R438) -/

/-- Every running stream plan replaced. -/
def State.mapPlans (s : State) (f : StreamPlan → StreamPlan) : State :=
  { s with pool := { s.pool with plans := s.pool.plans.map f } }

/-- Whether a plan is the one that a chain's launch record runs on the chain's die. -/
def StreamPlan.serves (p : StreamPlan) (c : Chain) : Bool := p.die == cluDie c.cluster && p.launch == c.launch

/-- A plan's entry starts with the first launch on the die of a chain that names it; the entry W later is then fetched (R438, R592). -/
def State.planStart (s : State) (c : Chain) : State :=
  if c.planEntry = 0xFFFF then s
  else s.mapPlans fun p =>
    if p.serves c && !p.started.contains c.planEntry then
      { p with started := setInsert c.planEntry p.started,
               fetching := if c.planEntry + p.w < p.entries then setInsert (c.planEntry + p.w) p.fetching else p.fetching }
    else p

/-- NCHAINS of a plan entry. -/
def State.planChains (s : State) (p : StreamPlan) (i : Nat) : Nat :=
  bitsOf (s.virtWord p.die p.owner (p.base + 64 * (i + 1))) 16 16

/-- A committed chain counts to its plan entry, which is released once NCHAINS have committed (R438, R592). -/
def State.planCommit (s : State) (c : Chain) : State :=
  if c.planEntry = 0xFFFF then s
  else s.mapPlans fun p =>
    if p.serves c then
      let n := lookupD 0 c.planEntry p.commits + 1
      { p with commits := putD 0 c.planEntry n p.commits,
               released := if s.planChains p c.planEntry ≤ n then setInsert c.planEntry p.released else p.released }
    else p

/-! ## Launching (R323, R338, R352, R600, R615) -/

/-- R615: a pre-emption of the tasks that hold the contexts a chain needs, where their records allow it. -/
def State.requestPreempt (s : State) (c : Chain) : State :=
  c.stages.foldl (fun s g =>
    if g.kind = 0 then
      let e := engIndex g.engine
      let ts := s.rd .engTaskState e g.task
      let y := s.recOr (bitsOf ts 10 12)
      if bitsOf ts 0 2 ≠ 0 ∧ y.preempt = true ∧ y.prio < (s.recOr c.launch).prio then
        let x := s.eng e
        s.setEng e { x with preempt := setInsert g.task x.preempt }
      else s
    else s) s

/-- Whether a cluster's sequencer can launch a chain: none is launched into a block that is being reset (R780), nor on a die that does not
run (R19). -/
def State.canLaunch (s : State) (c : Chain) : Bool := !s.touchesReset c && s.dieRuns (cluDie c.cluster)

/-- A chain launched by a cluster's sequencer: counted, clamps counted, tokens EMPTY, contexts taken or awaited; a ring that does not lie
in one memory ends it at once (R328). -/
def State.launchChain (s : State) (c : Chain) (clamps : Nat) : State :=
  if !s.canLaunch c then s
  else
  let s := s.bump .cluChainLaunchCnt c.cluster 0 1
  let s := s.clamped c.cluster clamps
  match c.rings.findIdx? fun g => !s.ringOk g with
  | some k =>
    let c := { c with waiting := true, waitFrom := s.beamNow }
    ({ s with chains := s.chains ++ [c] }).endChain c stPageFault k
  | none =>
    let s := s.emptyRings c
    let s := s.planStart c
    if s.contextsFree c.launch c.stages then
      (({ s with chains := s.chains ++ [c] }).takeContexts c).showTasks c
    else
      let holder := (c.stages.find? fun g => g.kind == 0 && s.taskState (engIndex g.engine) g.task != 0).map fun g =>
        s.fld engTaskStateLaunch (engIndex g.engine) g.task
      ({ s with chains := s.chains ++ [{ c with waiting := true, waitFrom := s.beamNow, waitOn := holder.getD 0 }] }).requestPreempt c

/-- The words of a command image: given whole, or read from the program at an offset. -/
def State.imageWords (s : State) (cluster : Nat) (r : RecInst) (off n : Nat) (image : CmdImage) : List Word :=
  match image with
  | .words ws => ws
  | .program => s.progAt (cluDie cluster) r.owner r.prog off n

/-- OPC of a command image: 0xC a stage chain (R323), 0xD a collective command (R521). -/
def imageOpc (ws : List Word) : Nat := bitsOf (ws.headD 0#64) 0 4

/-- R261: a chain launched from its region's RECOMP_ENTRY is counted. -/
def State.countRecompute (s : State) (c : Chain) : State :=
  if s.canLaunch c = true ∧ c.region ≠ 0xFFFF ∧ c.rphase = 1 then
    let g := s.regionOf c
    let s := s.regionClamp c.cluster g
    if g.recomp = c.off then s.bump .cluRecompChainCnt c.cluster 0 1 else s
  else s

/-- A sequence exists for a record on a cluster, at its ENTRY if it is new (R600). -/
def State.needSeq (s : State) (cluster launch : Nat) : State :=
  match s.findSeq cluster launch with
  | some _ => s
  | none =>
    let r := s.recOr launch
    let entry := bitsOf (s.progWord (cluDie cluster) r.owner r.prog (4 + cluster)) 0 32
    { s with seqs := s.seqs ++ [{ cluster := cluster, launch := launch, next := entry }] }

/-- Whether a collective command of a sequence runs (R521). -/
def State.collRuns (s : State) (cluster launch : Nat) : Bool :=
  s.coll.running.any fun c => c.cluster == cluster && c.launch == launch

/-- STAGE_CHAIN (R323): a cluster's sequencer launches the chain at its sequence's next offset, while no chain of the sequence runs. -/
def stageChainEffect (cluster : Fin 24) (launch : BitVec 12) (image : CmdImage) (s : State) : State :=
  let cl := cluster.val
  let l := launch.toNat
  if s.chains.any (fun c => c.cluster == cl && c.launch == l && !c.extra) || s.collRuns cl l then s
  else
    let s' := s.needSeq cl l
    match s'.findSeq cl l with
    | none => s
    | some q =>
      if q.ended then s
      else
        let r := s'.recOr l
        let ws := s'.imageWords cl r q.next 32 image
        let (c, n) := s'.parseChain cl r q.next ws
        if imageOpc ws = 0xC then (s'.countRecompute c).launchChain c n else s

def execStageChain (cluster : Fin 24) (launch : BitVec 12) (image : CmdImage) (s : State) : Host.Outcome State Fault Refusal :=
  .next (stageChainEffect cluster launch image s)

/-- NEXT_CHAIN_LAUNCH (R352, R354): the chain that NEXT names, once the current chain has completed, or with OVERLAP once its stage 0
has finished its last item and every context the next chain needs is free. A regeneration that runs beside the sequence goes on with its
own next chain first (R232). -/
def nextChainLaunchEffect (cluster : Fin 24) (launch : BitVec 12) (image : CmdImage) (s : State) : State :=
  let cl := cluster.val
  let l := launch.toNat
  let r := s.recOr l
  match (s.findSeq cl l true).filter fun q => q.next != 0 && !(s.chains.any fun c => c.cluster == cl && c.launch == l && c.extra) with
  | some q =>
    let (c, n) := s.parseChain cl r q.next (s.imageWords cl r q.next 32 image)
    let c := { c with extra := true, origin := if q.regenFor.isSome then 3 else 1 }
    (s.countRecompute c).launchChain c n
  | none =>
  match s.chains.find? fun c => c.cluster == cl && c.launch == l && !c.extra && !c.ahead with
  | some cur =>
    let headDone := match cur.stages.head? with
      | some g => !g.busy && decide (cur.items ≤ g.started)
      | none => true
    let already := s.chains.any fun c => c.cluster == cl && c.launch == l && !c.extra && c.ahead
    let ws := s.imageWords cl r cur.next 32 image
    let (c, n) := s.parseChain cl r cur.next ws
    if imageOpc ws == 0xC && cur.overlap && cur.next != 0 && headDone && !already && cur.aborting.isNone && !cur.stopped && !s.touchesReset c && s.contextsFree c.launch c.stages then
      ((s.countRecompute c).bump .cluBubbleLaunchCnt cl 0 1).launchChain { c with ahead := true } n
    else s
  | none =>
    match s.findSeq cl l with
    | some q =>
      if q.ended || q.next == 0 || s.collRuns cl l then s
      else
        let ws := s.imageWords cl r q.next 32 image
        let (c, n) := s.parseChain cl r q.next ws
        if imageOpc ws = 0xC then (s.countRecompute c).launchChain c n else s
    | none => s

def execNextChainLaunch (cluster : Fin 24) (launch : BitVec 12) (image : CmdImage) (s : State) :
    Host.Outcome State Fault Refusal :=
  .next (nextChainLaunchEffect cluster launch image s)

/-! ## Tiles of tensors (R313 to R319) -/

/-- What reading one tile of a descriptor gives: its image as it arrives in the lens buffers, its scale image, whether elements of the
tensor were masked by the extent, and whether a sector of it was poisoned. -/
structure TileImage where
  elems : List Byte
  scales : List Byte
  masked : Bool
  poison : Bool
  deriving DecidableEq, Repr

/-- A run of bytes cut at page boundaries, as virtual address and length. -/
def cutPages : Nat → Nat → Nat → List (Nat × Nat)
  | 0, _, _ => []
  | fuel + 1, va, n =>
    if n = 0 then []
    else
      let m := min n (65536 - va % 65536)
      (va, m) :: cutPages fuel (va + m) (n - m)

/-- The runs of bytes that hold the elements of a tile in its tensor and extent, row by row, each row's elements and then its scales, cut
at page boundaries (R313, R318, R360). The elements of a row in the extent are consecutive. -/
def Desc.tileRuns (d : Desc) (t : Nat) : List (Nat × Nat) :=
  let (r0, c0) := d.tileAt t
  let w := fmtBits d.fmt
  (List.range d.trows).flatMap fun i =>
    let r := r0 + i
    if d.rows ≤ r then []
    else
      let cs := (List.range d.tcols).filter fun j => decide (c0 + j < d.cnt0) && d.inExtent r (c0 + j)
      match cs.head?, cs.getLast? with
      | some a, some b =>
        let lo := (c0 + a) * w / 8
        let n := ((c0 + b) * w + w - 1) / 8 + 1 - lo
        let sc := d.scaleAddr r (c0 + a)
        let m := d.scaleAddr r (c0 + b) + 1 - sc
        cutPages (n / 65536 + 2) (d.rowAddr r + lo) n ++ (if d.mx then cutPages (m / 65536 + 2) sc m else [])
      | _, _ => []

/-- Pages of runs, in the order in which the runs reach them. -/
def runPages (runs : List (Nat × Nat)) : List Nat :=
  runs.foldl (fun acc p => if acc.contains (p.1 / 65536) then acc else acc ++ [p.1 / 65536]) []

/-- The virtual pages of a tile, in the order of its walk. -/
def Desc.tilePages (d : Desc) (t : Nat) : List Nat := runPages (d.tileRuns t)

/-- Whether a tile holds an element of its tensor outside the extent (R319). -/
def Desc.tileMasked (d : Desc) (t : Nat) : Bool :=
  let (r0, c0) := d.tileAt t
  (List.range d.trows).any fun i => (List.range d.tcols).any fun j =>
    decide (r0 + i < d.rows) && decide (c0 + j < d.cnt0) && !d.inExtent (r0 + i) (c0 + j)

/-- Virtual addresses, one for each sector, of the sectors of a run. -/
def runSectors (p : Nat × Nat) : List Nat := (List.range ((p.1 + p.2 + 31) / 32 - p.1 / 32)).map fun k => max p.1 ((p.1 / 32 + k) * 32)

/-- The sectors of runs that are delivered with the poison flag: of this package by R381 to R449, of another by what came (R498). -/
def State.poisonedAt (s : State) (die owner : Nat) (bad : List Nat) (runs : List (Nat × Nat)) : List Nat :=
  (runs.flatMap runSectors).filter fun va => match s.readPa die owner va with
    | some pa => s.poisonAt pa
    | none => bad.contains (va / 32)

/-- A tile as it arrives (R314, R315, R316), with what other packages have delivered of it: with XPOSE = 1 each image row holds one column
of the tile; the scale bytes do not move. The scale byte of 32 image columns is that of the block of the first of them (log entry 73). -/
def State.tileImage (s : State) (die owner : Nat) (d : Desc) (t : Nat) (ovl : Overlay := []) (bad : List Nat := []) : TileImage :=
  let (r0, c0) := d.tileAt t
  let code := fun i j => s.streamCode die owner d (r0 + i) (c0 + j) ovl
  let elems := if d.xpose then
      (List.range d.tcols).flatMap fun j => (List.range d.trows).map fun i => code i j
    else (List.range d.trows).flatMap fun i => (List.range d.tcols).map fun j => code i j
  let nb := (d.tcols + 31) / 32
  let sc := fun i b =>
    let c := c0 + 32 * b
    match (List.range (32 - c % 32)).find? fun j => decide (c + j < c0 + d.tcols) && d.inExtent (r0 + i) (c + j) with
    | some j => s.streamScale die owner d (r0 + i) (c + j) ovl
    | none => 0#8
  let scales := if !d.mx then []
    else if d.xpose then (List.range nb).flatMap fun b => (List.range d.trows).map fun i => sc i b
    else (List.range d.trows).flatMap fun i => (List.range nb).map fun b => sc i b
  { elems := packElems d.fmt elems, scales := scales, masked := d.tileMasked t,
    poison := s.poisonedAt die owner bad (d.tileRuns t) != [] }

/-- Bytes of a tile's element image, up to the unit at which its scale image begins in a slot (log entry 9). -/
def Desc.imageUnits (d : Desc) : Nat := (packedBytes d.fmt (d.trows * d.tcols) + 63) / 64 * 64

/-- The access of a stage's work (R274, R275, R287): an engine's own, a gather's or scatter's by its cluster's gather/scatter unit, any other by
its DMA. -/
def Chain.access (c : Chain) (k : Nat) (g : Stage) : Access :=
  { unit := if g.kind = 0 then .engine (engIndex g.engine) else if g.kind = 3 ∨ g.kind = 4 then .gather c.cluster else .dma c.cluster,
    owner := c.owner, who := some ⟨c.ref, k⟩ }

/-- Bytes written to a slot, within it, with the poison flag of its source (R283). -/
def State.putSlot (s : State) (by_ : Access) (g : Stage) (t off : Nat) (bs : List Byte) (poison : Bool) : State :=
  let bs := bs.take (g.slotBytes - off)
  let a := g.slotAddr t + off
  let s := (s.useSlots by_ a bs.length).putMem a bs
  if poison then
    { s with poison := (List.range ((a + bs.length + 31) / 32 - a / 32)).foldl (fun p k => setInsert (a / 32 + k) p) s.poison }
  else s

/-! ## Reads of a stage (R332, R360 to R362, R446, R491) -/

/-- The pages of a list that no read can use now. -/
def State.absentPages (s : State) (die owner : Nat) (pages : List Nat) : List Nat :=
  pages.filter fun p => match s.xlat die owner (p * 65536) with
    | .page _ rd _ _ _ => !rd
    | .remote _ _ _ _ rd _ => !rd
    | .absent _ _ => true

/-- The runs that lie on pages of other packages and have not come yet. -/
def State.remoteNeeds (s : State) (die owner : Nat) (ovl : Overlay) (runs : List (Nat × Nat)) : List (Nat × Nat) :=
  (runs.filter fun p => !(ovl.any fun o => o.1 == p.1 && o.2.length == p.2) &&
    (match s.xlat die owner p.1 with
     | .remote _ _ _ _ rd _ => rd
     | _ => false)).eraseDups

/-- A read of a remote page issues one GET_REQ for each run of bytes within a page, once (R491). -/
def State.askRuns (s : State) (c : Chain) (k : Nat) (needs : List (Nat × Nat)) : State :=
  let die := cluDie c.cluster
  needs.foldl (fun s p =>
    if s.sentMsgs.any fun m => m.get && m.chain == some c.ref && m.stage == k && m.dest == p.1 then s
    else match s.xlat die c.owner p.1 with
      | .remote pkg win ep woff _ _ =>
        s.beginMsg { die := die, num := 0, get := true, pkg := pkg, window := win, epoch := ep,
                     offset := woff * 65536 + p.1 % 65536, length := p.2, owner := c.owner, chain := some c.ref, stage := k, dest := p.1 }
      | _ => s) s

/-- The runs that lie on this package, in physical memory. -/
def State.localRuns (s : State) (die owner : Nat) (runs : List (Nat × Nat)) : List (Nat × Nat) :=
  runs.filterMap fun p => (s.readPa die owner p.1).map fun pa => (pa, p.2)

/-- The effects of reading runs of physical memory. -/
def State.readRuns (s : State) (a : Access) (runs : List (Nat × Nat)) : State := runs.foldl (fun s p => s.didRead a p.1 p.2) s

/-- Whether a run on this package lies in a channel group out of service (R405). -/
def State.runsHeld (s : State) (runs : List (Nat × Nat)) : Bool := runs.any fun p => s.groupHeld p.1 p.2

/-- Whether a chain may have a checkpoint regenerated (R232, R234): its producing region has a regeneration, which this step has not tried
for it, and the chain is not itself a regeneration. -/
def State.regenAllowed (s : State) (c : Chain) (w : Word) : Bool :=
  let die := cluDie c.cluster
  let src := bitsOf w 32 16
  src != 0xFFFF && decide (src < s.regionCount die c.owner c.prog) && (s.regionRec die c.owner c.prog src).regen != 0 && !c.extra &&
  !s.regens.contains (c.launch, src, bitsOf w 0 32)

/-- Whether a regeneration of a checkpoint runs. -/
def State.regenRuns (s : State) (c : Chain) (w : Word) : Bool :=
  s.seqs.any fun q => q.launch == c.launch && q.extra && q.regenFor == some (bitsOf w 32 16, bitsOf w 0 32)

/-- The tier and cause under which the readers of a poisoned sector wait: for its rebuild (R446), or for a regeneration of its checkpoint
(R232). -/
def State.poisonWaits (s : State) (c : Chain) (va : Nat) : Option (Nat × Nat) :=
  match s.framePa (cluDie c.cluster) c.owner va with
  | some pa =>
    let f := s.frame (pa / 65536)
    if !f.quarantined && f.policy % 4 == 2 && bitOf (BitVec.ofNat 64 f.policy) 4 then some (s.frameTier (pa / 65536), 6)
    else match s.ckptOf c f.tensor with
      | some w => if s.regenAllowed c w || s.regenRuns c w then some (s.frameTier (pa / 65536), 7) else none
      | none => none
  | none => none

/-- What a stage's reads come to. -/
inductive ReadEnd where
  /-- the stage waits, under a tier and cause of R445 if its wait counts -/
  | wait (cause : Option (Nat × Nat))
  /-- a page that no read can use -/
  | absent (page : Nat)
  /-- a parity error has stopped the chain for a rerun, or ended it -/
  | rerun
  | done (poison : Bool)
  deriving DecidableEq, Repr

/-- Reads of a chain's work in physical memory: performed, and the parity errors that they meet handled (R281, R286). -/
def State.chainReads (s : State) (c : Chain) (a : Access) (runs : List (Nat × Nat)) : State × Bool :=
  let s := s.readRuns a runs
  s.parityStops c (s.badBytes runs)

/-- The reads of a stage (R332, R360 to R362, R405, R446, R454, R491): they stop before the first page that no read can use, wait for
promotions, for channel groups out of service, for other packages, for rebuilds and for regenerations, and otherwise are done. -/
def State.stageReads (s : State) (c : Chain) (k : Nat) (g : Stage) (runs : List (Nat × Nat)) : State × ReadEnd :=
  let die := cluDie c.cluster
  let a := c.access k g
  match (s.absentPages die c.owner (runPages runs)).head? with
  | some p =>
    let before := runs.takeWhile fun r => r.1 / 65536 != p
    let (s, stopped) := (s.noteWalk die (s.xlat die c.owner (p * 65536))).chainReads c a (s.localRuns die c.owner before)
    (s, if stopped then .rerun else .absent p)
  | none =>
    let mine := s.localRuns die c.owner runs
    let cold := (mine.map fun p => p.1 / 65536).eraseDups.filter s.coldFrame
    if cold ≠ [] then (cold.foldl (fun s n => s.promote die n) s, .wait (some (2, 4)))
    else if s.runsHeld mine then (s, .wait (some (1, 1)))
    else
      let needs := s.remoteNeeds die c.owner g.ovl runs
      if needs ≠ [] then (s.askRuns c k needs, .wait none)
      else
        let (s, stopped) := s.chainReads c a mine
        if stopped then (s, .rerun)
        else
          let bad := s.poisonedAt die c.owner g.overBad runs
          match bad.findSome? fun va => s.poisonWaits c va with
          | some w => (s, .wait (some w))
          | none => (s, .done (bad != []))

/-- A stage with its item's reads complete. -/
def Stage.readDone (g : Stage) : Stage :=
  { g with todo := false, cause := none, missed := none, loads := [], ovl := [], overBad := [] }

/-- A stage of a chain replaced. -/
def State.setStageOf (s : State) (c : Chain) (k : Nat) (g : Stage) : State := s.setChain { c with stages := c.stages.set k g }

/-! ## Fetch (R332, R360 to R362) -/

/-- Whether the consumer of a fetch's ring waits for an item (R361): a fetch whose chain has no other stage has nobody that runs behind it
(log entry 77). -/
def Chain.demanded (c : Chain) (k t : Nat) : Bool :=
  match c.stages[k + 1]? with
  | some g => !g.busy && g.started == t
  | none => true

/-- Pages beyond a tile that the DMA translates ahead: LOOKAHEAD of them, in the order of the walk (R307, R360). -/
def Desc.aheadPages (d : Desc) (t : Nat) : List Nat :=
  let here := d.tilePages t
  let next := (List.range d.lookahead).foldl (fun acc j =>
    if t + 1 + j < d.tiles then (d.tilePages (t + 1 + j)).foldl (fun acc p => if acc.contains p then acc else acc ++ [p]) acc else acc) []
  (next.filter fun p => !here.contains p).take d.lookahead

/-- One tile of a fetch stage moved into its slot, or the fetch stopped. `g` is the stage with the item in progress. The last stage has no
ring to move it to (R324). -/
def State.fetchTile (s : State) (c : Chain) (k : Nat) (g : Stage) : State :=
  let die := cluDie c.cluster
  let item := g.started - 1
  let (d, n) := s.chainDesc c g.inDesc
  let s := if g.todo then s else s.clamped c.cluster n
  match s.stageReads c k g (d.tileRuns item) with
  | (s, .rerun) => s
  | (s, .wait w) => s.setStageOf c k { g with todo := true, cause := w, missed := none }
  | (s, .absent p) =>
    let g' := { g with todo := true, cause := none, missed := some p }
    if c.demanded k item then (s.setStageOf c k g').endChain { c with stages := c.stages.set k g' } stPageFault k
    else if g.missCounted.contains p then s.setStageOf c k g'
    else (s.bump .cluRunaheadMissCnt c.cluster 0 1).setStageOf c k { g' with missCounted := g.missCounted ++ [p] }
  | (s, .done _) =>
    let img := s.tileImage die c.owner d item g.ovl g.overBad
    let s := if img.masked then s.bump .cluExtentMaskCnt c.cluster 0 1 else s
    let s := if (c.outRing k).isSome then s.putSlot (c.access k g) g item 0 img.elems img.poison else s
    let s := if d.mx && (c.outRing k).isSome then s.putSlot (c.access k g) g item d.imageUnits img.scales img.poison else s
    let s := (d.aheadPages item).foldl (fun (s : State) p => s.noteWalk die (s.xlat die c.owner (p * 65536))) s
    s.setStageOf c k g.readDone

/-! ## Store, gather and scatter (R332 to R334) -/

/-- Ranges of a slot that a stage reads (offset, length), in physical memory. -/
def Stage.slotRuns (g : Stage) (t : Nat) (ranges : List (Nat × Nat)) : List (Nat × Nat) :=
  (ranges.filter fun r => decide (0 < r.2)).map fun r => (g.slotAddr t + r.1, min r.2 (g.slotBytes - r.1))

/-- Whether a line of runs of physical memory holds the poison flag. -/
def State.runsPoison (s : State) (runs : List (Nat × Nat)) : Bool :=
  runs.any fun r => setIn (r.1 / 32) ((r.1 + r.2 + 31) / 32 - r.1 / 32) s.poison != []

/-- A stage's reads of its input slot (R281, R283, R286). -/
def State.slotReads (s : State) (c : Chain) (k : Nat) (g : Stage) (runs : List (Nat × Nat)) : State × ReadEnd :=
  let (s, stopped) := s.chainReads c (c.access k g) runs
  (s, if stopped then .rerun else .done (s.runsPoison runs))

/-- Bytes of a tile's element image and of its scale image in a slot. -/
def Desc.tileRanges (d : Desc) : List (Nat × Nat) :=
  [(0, packedBytes d.fmt (d.trows * d.tcols)), (d.imageUnits, if d.mx then d.trows * ((d.tcols + 31) / 32) else 0)]

/-- The value of element `k` of a slot image in a descriptor's format; scale byte `b` under MX. -/
def State.slotValue (s : State) (g : Stage) (t : Nat) (d : Desc) (scaleBase k b : Nat) : Val :=
  let code := elemCode (fun j => s.memByte (g.slotAddr t + j)) d.fmt k
  if d.mx then decodeMx d.fmt (s.memByte (g.slotAddr t + scaleBase + b)).toNat code else decodeElem d.fmt false code

/-- The rows of tile `item` of a store's destination, from the image in its input slot. -/
def State.storeRows (s : State) (gin : Stage) (d : Desc) (item : Nat) : List (Nat × List (Nat × Val)) :=
  let (r0, c0) := d.tileAt item
  let nb := (d.tcols + 31) / 32
  (List.range d.trows).map fun i =>
    (r0 + i, (List.range d.tcols).map fun j =>
      let k := if d.xpose then j * d.trows + i else i * d.tcols + j
      let b := if d.xpose then j / 32 * d.trows + i else i * nb + j / 32
      (c0 + j, s.slotValue gin item d d.imageUnits k b))

/-- The indices of one tile of an index list, in order, each read as ROWS − 1 where it is at or above ROWS, with those clamps (R333). -/
def State.indexTile (s : State) (die owner : Nat) (d : Desc) (item rows : Nat) (ovl : Overlay) : List Nat × Nat :=
  let (r0, c0) := d.tileAt item
  let raw := (List.range d.trows).flatMap fun i => (List.range d.tcols).filterMap fun j =>
    if r0 + i < d.rows ∧ c0 + j < d.cnt0 then some (s.streamCode die owner d (r0 + i) (c0 + j) ovl) else none
  (raw.map fun k => if rows ≤ k then rows - 1 else k, raw.countP fun k => decide (rows ≤ k))

/-- 128-byte lines that a table row touches (R334). -/
def Desc.rowLines (d : Desc) (r : Nat) : Nat :=
  let a := d.rowAddr r
  (a + packedBytes d.fmt d.cnt0 + 127) / 128 - a / 128

/-- A descriptor whose one tile is one whole row of the table, at row `r`. -/
def Desc.rowTile (d : Desc) : Desc := { d with trows := 1, tcols := d.cnt0, torder := false, xpose := false }

/-- Bytes of one gathered row's elements in a slot, and of its scales. -/
def Desc.rowBytes (d : Desc) : Nat := packedBytes d.fmt d.cnt0

/-- Where the scale images of a slot of `n` gathered rows begin. -/
def Desc.gatherScales (d : Desc) (n : Nat) : Nat := (n * d.rowBytes + 63) / 64 * 64

/-- A stage that cannot go on with its item's reads: it waits, or its chain ends with PAGE_FAULT. -/
def State.readStops (s : State) (c : Chain) (k : Nat) (g : Stage) (r : ReadEnd) : State :=
  match r with
  | .absent _ => (s.setStageOf c k g).endChain { c with stages := c.stages.set k g } stPageFault k
  | .wait w => s.setStageOf c k { g with todo := true, cause := w }
  | _ => s

/-- One tile of a gather: the table rows the indices name, written into the output slot in order. The indices are read first, then the
rows that they name. -/
def State.gatherItem (s : State) (c : Chain) (k : Nat) (g : Stage) : State :=
  let die := cluDie c.cluster
  let item := g.started - 1
  let (di, n1) := s.chainDesc c g.inDesc
  let (dt, n2) := s.chainDesc c g.outDesc
  let c' := { c with stages := c.stages.set k g }
  match s.stageReads c k g (di.tileRuns item) with
  | (s, .done true) => (s.setChain c').endChain c' stPoisonConsumed k
  | (s, .done false) =>
    let (idx, n3) := s.indexTile die c.owner di item dt.rows g.ovl
    let row := dt.rowTile
    (match s.stageReads c k g (idx.flatMap row.tileRuns) with
     | (s, .done _) =>
       let s := s.clamped c.cluster (n1 + n2 + n3)
       let masked := di.tileMasked item || idx.any fun r => row.tileMasked r
       let s := if masked then s.bump .cluExtentMaskCnt c.cluster 0 1 else s
       let s := s.bump .cluGatherReqCnt c.cluster 0 ((idx.map dt.rowLines).foldl (· + ·) 0)
       let s := if (c.outRing k).isNone then s else idx.zipIdx.foldl (fun s (r, j) =>
         let img := s.tileImage die c.owner row r g.ovl g.overBad
         let s := s.putSlot (c.access k g) g item (j * dt.rowBytes) img.elems img.poison
         if dt.mx then s.putSlot (c.access k g) g item (dt.gatherScales idx.length + j * img.scales.length) img.scales img.poison else s) s
       s.setStageOf c k g.readDone
     | (s, r) => s.readStops c k g r)
  | (s, r) => s.readStops c k g r

/-- One tile of a scatter: the rows of the input slot written to the table rows the indices name, in order. -/
def State.scatterItem (s : State) (c : Chain) (k : Nat) (g gin : Stage) : State :=
  let die := cluDie c.cluster
  let item := g.started - 1
  let (di, n1) := s.chainDesc c g.inDesc
  let (dt, n2) := s.chainDesc c g.outDesc
  let c' := { c with stages := c.stages.set k g }
  match s.stageReads c k g (di.tileRuns item) with
  | (s, .done true) => (s.setChain c').endChain c' stPoisonConsumed k
  | (s, .done false) =>
    let (idx, n3) := s.indexTile die c.owner di item dt.rows g.ovl
    let nb := (dt.cnt0 + 31) / 32
    (match s.slotReads c k g (gin.slotRuns item [(0, idx.length * dt.rowBytes), (dt.gatherScales idx.length, if dt.mx then idx.length * nb else 0)]) with
    | (s, .done false) =>
      let s := s.clamped c.cluster (n1 + n2 + n3)
      let s := if di.tileMasked item then s.bump .cluExtentMaskCnt c.cluster 0 1 else s
      let s := s.bump .cluGatherReqCnt c.cluster 0 ((idx.map dt.rowLines).foldl (· + ·) 0)
      let rows := idx.zipIdx.map fun (r, j) =>
        (r, (List.range dt.cnt0).map fun col =>
          (col, s.slotValue { gin with ringAddr := gin.ringAddr + j * dt.rowBytes } item dt
            (dt.gatherScales idx.length - j * dt.rowBytes + j * nb) col (col / 32)))
      let s := s.setStageOf c k g.readDone
      let e := s.streamRows die c.stepRev (c.access k g) dt rows
      let s := if e.masked then e.st.bump .cluExtentMaskCnt c.cluster 0 1 else e.st
      if e.fault then s.endWrite { c with stages := c.stages.set k g.readDone } k else s
    | (s, .done true) => (s.setChain c').endChain c' stPoisonConsumed k
    | (s, r) => s.readStops c k g r)
  | (s, r) => s.readStops c k g r

/-- One tile of a store (R332, R863). -/
def State.storeItem (s : State) (c : Chain) (k : Nat) (g gin : Stage) : State :=
  let die := cluDie c.cluster
  let item := g.started - 1
  let (d, n) := s.chainDesc c g.outDesc
  let s := s.clamped c.cluster n
  let c' := { c with stages := c.stages.set k g }
  match (s.setChain c').slotReads c k g (gin.slotRuns item d.tileRanges) with
  | (s, .done false) =>
    let e := s.streamRows die c.stepRev (c.access k g) d (s.storeRows gin d item)
    let s := if e.masked then e.st.bump .cluExtentMaskCnt c.cluster 0 1 else e.st
    if e.fault then s.endWrite c' k else s
  | (s, .done true) => s.endChain c' stPoisonConsumed k
  | (s, _) => s

/-! ## Engine items -/

/-- One lens load of a tile's command list: a tile of a descriptor delivered to the lens buffers; a tile past the end is used as far as
the last unit (R862). The engine reads the descriptor (R312). -/
def State.lensLoad (s : State) (c : Chain) (k : Nat) (g : Stage) (l : LensLoad) : State × ReadEnd :=
  let die := cluDie c.cluster
  let e := engIndex g.engine
  let (d, n) := s.chainDesc c l.desc.toNat
  let t := l.tile.toNat
  let (u, n1) := clampUnit l.unit.toNat
  let (su, n2) := clampUnit l.scaleUnit.toNat
  match s.stageReads c k g (d.tileRuns t) with
  | (s, .done false) =>
    let img := s.tileImage die c.owner d t g.ovl g.overBad
    let past := lensOver [(u * 64, img.elems.length), (su * 64, img.scales.length)]
    let s := s.clamped (engCluster e) (n + n1 + (if d.mx then n2 else 0) + b2n past)
    let s := if img.masked then s.bump .cluExtentMaskCnt c.cluster 0 1 else s
    let s := s.lensPut e (u * 64) img.elems
    (if d.mx then s.lensPut e (su * 64) img.scales else s, .done false)
  | r => r

/-- The lens loads of an item, in order, until one waits or ends the chain; the task's commands that waited for them begin. -/
def State.lensLoads (s : State) (c : Chain) (k : Nat) (g : Stage) : List LensLoad → State
  | [] => (s.setStageOf c k g.readDone).drain (engIndex g.engine)
  | l :: ls =>
    match s.lensLoad c k g l with
    | (s, .done false) => s.lensLoads c k g ls
    | (s, .done true) =>
      (s.setStageOf c k g).endChain { c with stages := c.stages.set k g } stPoisonConsumed k
    | (s, r) => s.readStops c k { g with loads := l :: ls } r

/-! ## Items -/

/-- The priority of the record whose task holds a context. -/
def State.taskPrio (s : State) (e task : Nat) : Nat := (s.recOr (s.fld engTaskStateLaunch e task)).prio

/-- Whether a task of a context may start its next tile on an engine (R337, R342): at a tile boundary, as the current task where no ready
task has a higher priority, or where the current context is free, which is no switch (R345, log entry 75); a mode change stops the engine
(R759). -/
def State.selected (s : State) (e task : Nat) : Bool :=
  let x := s.eng e
  !x.tileOpen && !(s.powerDie (engDie e)).paused && !x.preempt.contains task &&
  (if x.task = task then
     !((List.range 4).any fun t => t != task && s.taskReady e t && decide (s.taskPrio e task < s.taskPrio e t))
   else s.taskState e x.task == 0)

/-- The tokens that a starting stage moves: its input slot to DRAINING, its output slot to FILLING (R336). -/
def State.startTokens (s : State) (c : Chain) (k t : Nat) : State :=
  let s := match c.inRing k with
    | some gi => s.putSlotToken gi (t % gi.nslots) 3
    | none => s
  match c.outRing k with
  | some go => s.putSlotToken go (t % go.nslots) 1
  | none => s

/-- Whether a swap stands before an owner's chains on a die: invoked, or under way (R455). -/
def State.swapWaits (s : State) (die owner : Nat) : Bool :=
  s.pool.invoked.contains (die, owner) || s.pool.swapping.contains (die, owner)

/-- Whether the window tensors a chain reads are lifted (R440); a chain outside every plan waits for none. No chain of an owner runs before
its gallery set is swapped in (R455). -/
def State.planReady (s : State) (c : Chain) : Bool :=
  !s.swapWaits (cluDie c.cluster) c.owner &&
  (c.planEntry == 0xFFFF ||
   s.pool.plans.all fun p => !p.serves c || p.lifted.contains c.planEntry)

/-- An entry whose first read waited is counted once (R440). -/
def State.planLate (s : State) (c : Chain) : State :=
  if s.pool.plans.any (fun p => p.serves c && !p.lateCounted.contains c.planEntry) then
    (s.bump .poolStreamLateCnt (cluDie c.cluster) 0 1).mapPlans fun p =>
      if p.serves c then { p with lateCounted := setInsert c.planEntry p.lateCounted } else p
  else s

/-- The item begins: tokens, completion token, counts and the task's context (R336, R341, R367). -/
def State.beginItem (s : State) (c : Chain) (k : Nat) (g : Stage) (loads : List LensLoad) : State × Chain × Stage :=
  let t := g.started
  let g' := { g.readDone with started := t + 1, outOpen := (c.outRing k).isSome, inOpen := (c.inRing k).isSome, tileOpen := g.kind == 0,
                              loads := loads }
  let last := k + 1 == c.stages.length && t + 1 == c.items
  let c' := { c with stages := c.stages.set k g', completion := if last then 1 else c.completion }
  let s := s.startTokens c k t
  (s.setChain c', c', g')

/-- The work of the item in progress of a stage (R332). An engine stage's tile begins with its lens loads. -/
def State.itemWork (s : State) (c : Chain) (k : Nat) (g : Stage) : State :=
  match g.kind, c.inRing k with
  | 0, _ =>
    let e := engIndex g.engine
    (s.setEng e { s.eng e with task := g.task }).lensLoads c k g g.loads
  | 1, _ => s.fetchTile c k g
  | 2, some gi => s.storeItem c k g gi
  | 3, _ => s.gatherItem c k g
  | 4, some gi => s.scatterItem c k g gi
  | _, _ => s

/-- A stage whose item's reads wait tries them again. -/
def State.retryStage (s : State) (ref : ChainRef) (k : Nat) : State :=
  match s.findChain ref with
  | none => s
  | some c =>
    match c.stages[k]? with
    | some g => if g.todo && !c.stopped && !c.waiting then s.itemWork c k g else s
    | none => s

/-- Every stage of a chain that waits tries its reads again. -/
def State.retryChain (s : State) (ref : ChainRef) : State := (List.range 6).foldl (fun s k => s.retryStage ref k) s

/-- Every chain of a list tries its reads again. -/
def State.retryChains (s : State) (cs : List Chain) : State := cs.foldl (fun s c => s.retryChain c.ref) s

/-- Whether the input or output ring of a stage lies in a block that is being reset. -/
def State.ringInReset (s : State) (c : Chain) (k : Nat) : Bool :=
  ((c.inRing k).toList ++ (c.outRing k).toList).any fun g => s.paInReset g.ringAddr

/-- STAGE_ITEM_START (R332, R336, R337, R340): a stage starts its next item, or in raw mode ends its chain on a token violation. Where a
fetch has stopped before a page, its consumer's wait makes it a demand fetch (R361, R362). A stage in a block that is being reset starts no
item, and a stage outside it whose ring lies in it ends with BLOCK_RESET (R780). An external head does no work (R332). -/
def stageItemStartEffect (ref : ChainRef) (stage : Fin 6) (loads : List LensLoad) (wait : SyncWait) (waited : BitVec 40) (s : State) : State :=
  let k := stage.val
  match s.findChain ref with
  | none => s
  | some c =>
    match c.stages[k]? with
    | none => s
    | some g =>
      if c.waiting || c.stopped || c.aborting.isSome || g.kind == 5 || s.stageInReset c g then s
      else if s.touchesReset c && s.ringInReset c k then s.endChain c stBlockReset k
      else if g.missed.isSome then s.retryStage ref k
      else if g.busy || decide (c.items ≤ g.started) then s
      else if g.kind = 0 && !s.selected (engIndex g.engine) g.task then s
      else if !s.planReady c then (if c.planEntry = 0xFFFF then s else s.planLate c)
      else if c.raw && !(s.inFull c k g.started false && s.outEmpty c k g.started false) then
        (s.bump .cluTokenViolCnt c.cluster 0 1).endChain c stTokenViolation k
      else if !c.raw && !s.itemReady c k g then s
      else
        let s := s.traceStageWait c k g wait waited false
        let (s, c, g) := s.beginItem c k g loads
        let s := s.itemWork c k g
        match s.findChain ref with
        | some c => s.showTasks c
        | none => s

def execStageItemStart (ref : ChainRef) (stage : Fin 6) (loads : List LensLoad) (wait : SyncWait) (waited : BitVec 40) (s : State) :
    Host.Outcome State Fault Refusal :=
  .next (stageItemStartEffect ref stage loads wait waited s)

/-- Whether passes of an engine stage's task are held or in flight: their last line is not accepted yet (R149, R341). -/
def State.passesOpen (s : State) (g : Stage) : Bool :=
  g.kind == 0 &&
  (let x := s.eng (engIndex g.engine)
   (x.flight.any fun p => p.task == g.task) || (match x.held with
     | some h => h.task == g.task
     | none => false))

/-- SLOT_FULL (R336, R339): the last line of the item is accepted in its slot; the consumer sees it after the hand-over. -/
def slotFullEffect (ref : ChainRef) (stage : Fin 6) (s : State) : State :=
  let k := stage.val
  match s.findChain ref with
  | none => s
  | some c =>
    match c.outRing k with
    | none => s
    | some g =>
      let t := g.started - 1
      if g.outOpen && !g.todo && !g.tileOpen && !s.passesOpen g && !s.lineWaits c k && s.slotToken g (t % g.nslots) == 1 then
        let s := s.putSlotToken g (t % g.nslots) 2
        s.putChain { c with stages := c.stages.set k { g with outOpen := false }, hidden := c.hidden ++ [⟨k, t % g.nslots, true⟩] }
      else s

def execSlotFull (ref : ChainRef) (stage : Fin 6) (s : State) : Host.Outcome State Fault Refusal :=
  .next (slotFullEffect ref stage s)

/-- Whether the block in a slot of a ring is still to be forwarded by the sequence ring (R552). -/
def State.forwarding (s : State) (g : Stage) (slot : Nat) : Bool :=
  s.coll.running.any fun c => c.op == 6 && c.ringAddr == g.ringAddr && c.tokenBase == g.tokenBase && c.hold.contains slot

/-- SLOT_EMPTY (R336, R339): the consumer's last read of the slot has ended. -/
def slotEmptyEffect (ref : ChainRef) (stage : Fin 6) (s : State) : State :=
  let k := stage.val
  match s.findChain ref with
  | none => s
  | some c =>
    match c.stages[k]?, c.inRing k with
    | some g, some gi =>
      let t := g.started - 1
      if g.inOpen && !g.todo && !s.lineWaits c k && s.slotToken gi (t % gi.nslots) == 3 && !s.forwarding gi (t % gi.nslots) then
        let s := s.putSlotToken gi (t % gi.nslots) 0
        s.putChain { c with stages := c.stages.set k { g with inOpen := false },
                            hidden := c.hidden ++ [⟨k - 1, t % gi.nslots, false⟩] }
      else s
    | _, _ => s

def execSlotEmpty (ref : ChainRef) (stage : Fin 6) (s : State) : Host.Outcome State Fault Refusal :=
  .next (slotEmptyEffect ref stage s)

/-- The list without the first hand-over of a ring to a side. -/
def dropHandover (ring : Nat) (toConsumer : Bool) : List Handover → List Handover
  | [] => []
  | h :: hs => if h.ring == ring && h.toConsumer == toConsumer then hs else h :: dropHandover ring toConsumer hs

/-- TOKEN_HANDOVER (R339): the oldest hidden transition of a ring becomes visible to the other side. -/
def tokenHandoverEffect (ref : ChainRef) (ring : Fin 6) (toConsumer : Bool) (s : State) : State :=
  match s.findChain ref with
  | none => s
  | some c => s.putChain { c with hidden := dropHandover ring.val toConsumer c.hidden }

def execTokenHandover (ref : ChainRef) (ring : Fin 6) (toConsumer : Bool) (s : State) : Host.Outcome State Fault Refusal :=
  .next (tokenHandoverEffect ref ring toConsumer s)

/-- Whether the last line that the last item writes is still to be accepted: its tile, its passes, its PUTs, its waiting writes (R341,
R491, R642). -/
def State.lastOpen (s : State) (c : Chain) : Bool :=
  (match c.stages.getLast? with
   | some g => g.busy || g.todo || s.passesOpen g
   | none => false) || (List.range c.stages.length).any fun k => s.stageWriting c k

/-- CHAIN_COMMIT (R338, R341, R352, R438, R491, R865): the completion token becomes FULL and the chain ends with OK; one launched ahead
ends when its predecessor has. The readers that waited for a regeneration go on after it (R232). -/
def chainCommitEffect (ref : ChainRef) (s : State) : State :=
  match s.findChain ref with
  | none => s
  | some c =>
    if c.completion = 1 && !c.stopped && c.aborting.isNone && !s.lastOpen c then
      let s := s.planCommit c
      let c := { c with completion := 2 }
      if c.ahead then s.setChain c
      else
        let s := s.endChain c stOk 0
        if c.extra then s.retryChains (s.chains.filter fun d => d.launch == c.launch) else s
    else s

def execChainCommit (ref : ChainRef) (s : State) : Host.Outcome State Fault Refusal := .next (chainCommitEffect ref s)

/-! ## Task switching (R342, R343) -/

/-- A switch of an engine to another context (R343). -/
def State.switchTask (s : State) (e task : Nat) : State :=
  let x := s.eng e
  (s.setEng e { x with task := task }).bump .engTaskSwitchCnt e 0 1

/-- TASK_SWITCH (R342): at a tile boundary, to a ready task of higher launch-record priority than the current task. -/
def taskSwitchEffect (e : EngId) (task : Fin 4) (s : State) : State :=
  let e := EngIdIdx e
  let x := s.eng e
  let t := task.val
  if !x.tileOpen && x.task != t && s.taskReady e t &&
      (decide (s.taskPrio e x.task < s.taskPrio e t) || s.taskState e x.task == 0) then s.switchTask e t
  else s

def execTaskSwitch (e : EngId) (task : Fin 4) (s : State) : Host.Outcome State Fault Refusal :=
  .next (taskSwitchEffect e task s)

/-- The ready task of highest priority, the longest waiting among equals (R342). -/
def State.bestReady (s : State) (e : Nat) : Option Nat :=
  let x := s.eng e
  let order := x.waiters ++ [0, 1, 2, 3]
  let ready := order.filter fun t => s.taskReady e t
  ready.foldl (fun best t => match best with
    | none => some t
    | some b => if s.taskPrio e b < s.taskPrio e t then some t else some b) none

/-- The switch threshold of the current task's chain; 0 names the dictionary value (R323). -/
def State.switchLimit (s : State) (e task : Nat) : Nat :=
  match s.chainOfTask e task with
  | some (c, _) => if c.switchThresh = 0 then s.dnat dkSlotSwitchThreshold else c.switchThresh
  | none => s.dnat dkSlotSwitchThreshold

/-- SWITCH_THRESHOLD_EXPIRY (R342): the current task, not ready, has waited its threshold. -/
def switchThresholdExpiryEffect (e : EngId) (waited : BitVec 32) (s : State) : State :=
  let e := EngIdIdx e
  let x := s.eng e
  if !x.tileOpen && s.taskState e x.task != 0 && !s.taskReady e x.task && decide (s.switchLimit e x.task ≤ waited.toNat) then
    match s.bestReady e with
    | some t => s.switchTask e t
    | none => s
  else s

def execSwitchThresholdExpiry (e : EngId) (waited : BitVec 32) (s : State) : Host.Outcome State Fault Refusal :=
  .next (switchThresholdExpiryEffect e waited s)

/-! ## Ends -/

/-- Whether the chain waits on the ring of an external head (R348, R350). -/
def State.waitsExternal (s : State) (c : Chain) : Bool :=
  match c.stages[0]?, c.stages[1]? with
  | some h, some g => h.kind == 5 && !g.busy && decide (g.started < c.items) && !s.inFull c 1 g.started true
  | some h, none => h.kind == 5
  | _, _ => false

/-- Whether a stage waits on a slot token of its own chain, or has no items left (R348). -/
def State.waitsToken (s : State) (c : Chain) (k : Nat) (g : Stage) : Bool :=
  g.kind == 5 || (!g.busy &&
    (decide (c.items ≤ g.started) || !s.inFull c k g.started true || !s.outEmpty c k g.started true))

/-- Whether a stage waits on something that is no slot token: a tier, the fabric, a write-protected page, a pre-emption (R348). -/
def State.waitsElse (s : State) (c : Chain) (k : Nat) (g : Stage) : Bool :=
  g.todo || g.away || s.stageWriting c k || (s.sentMsgs.any fun m => m.chain == some c.ref && m.stage == k)

/-- Whether the chain-stall timer may advance: every stage with items left waits on a slot token, and none on anything else (R348). -/
def State.allWait (s : State) (c : Chain) : Bool :=
  c.stages.zipIdx.all fun (g, k) => s.waitsToken c k g && !s.waitsElse c k g

/-- CHAIN_STALL (R349): the timer of a chain whose stages all wait has reached STALL_WD. -/
def chainStallEffect (ref : ChainRef) (us : BitVec 32) (s : State) : State :=
  match s.findChain ref with
  | none => s
  | some c =>
    let limit := if c.stallWd = 0 then s.dnat dkChainStallTimeout else c.stallWd
    if limit ≤ us.toNat && !c.waiting && !c.stopped && s.allWait c && !s.waitsExternal c then
      (s.bump .cluChainStallCnt c.cluster 0 1).endChain c stChainStall 0
    else s

def execChainStall (ref : ChainRef) (us : BitVec 32) (s : State) : Host.Outcome State Fault Refusal :=
  .next (chainStallEffect ref us s)

/-- SLOT_TIMEOUT (R350): the wait on an external head's ring has lasted EXT_SLOT_LIMIT, or its producer failed with a status. -/
def slotTimeoutEffect (ref : ChainRef) (ms : BitVec 32) (status : BitVec 8) (s : State) : State :=
  match s.findChain ref with
  | none => s
  | some c =>
    let external := match c.stages.head? with
      | some h => h.kind == 5
      | none => false
    if c.stopped || !external then s
    else if failureCode status.toNat then s.endChain c status.toNat 0
    else if s.waitsExternal c && decide (s.dnat dkExtSlotLimit ≤ ms.toNat) then
      (s.bump .cluSlotTimeoutCnt c.cluster 0 1).endChain c stSlotTimeout 1
    else s

def execSlotTimeout (ref : ChainRef) (ms : BitVec 32) (status : BitVec 8) (s : State) : Host.Outcome State Fault Refusal :=
  .next (slotTimeoutEffect ref ms status s)

/-- CHAIN_ABORT (R359): every stage stops at its next tile boundary; the chain and its sequence end with ABORTED. -/
def chainAbortEffect (ref : ChainRef) (s : State) : State :=
  match s.findChain ref with
  | none => s
  | some c =>
    if c.completion = 2 then s
    else if c.stages.any (·.tileOpen) then s.setChain { c with aborting := some stAborted }
    else ((s.closeChain c stAborted 0).abortSeq c.cluster c.launch).grantContexts

def execChainAbort (ref : ChainRef) (s : State) : Host.Outcome State Fault Refusal := .next (chainAbortEffect ref s)

/-- RUNAHEAD_RESUME (R361): the stopped fetch goes on, still as run-ahead, where its page is present now. -/
def State.resumeFetch (s : State) (ref : ChainRef) : State := s.retryStage ref 0

def runaheadResumeEffect (ref : ChainRef) (s : State) : State := s.resumeFetch ref

def execRunaheadResume (ref : ChainRef) (s : State) : Host.Outcome State Fault Refusal := .next (runaheadResumeEffect ref s)

end Sys2Proof.Machine
end

