-- ==== Sys2Proof/Machine/Crc.lean ====
section
/-!
DEFINITION. The CRCs of the package: CRC-32 of a line (spec/06 R282), CRC-32C of a flit, a mooring frame's contents and other images.
-/
namespace Sys2Proof.Machine

/-- One byte of the reflected CRC-32 of IEEE 802.3. -/
def crcByte (crc : BitVec 32) (b : Byte) : BitVec 32 :=
  (List.range 8).foldl (fun c _ => if c.getLsbD 0 then (c >>> 1) ^^^ 0xEDB88320#32 else c >>> 1) (crc ^^^ b.zeroExtend 32)

/-- CRC-32 of IEEE 802.3 (R282). -/
def crc32 (bs : List Byte) : BitVec 32 := (bs.foldl crcByte 0xFFFFFFFF#32) ^^^ 0xFFFFFFFF#32

/-- R282: the CRC of a line: its data bytes with the disabled ones as 0x00, then its byte-enable mask. -/
def lineCrc (data : BitVec 1024) (mask : BitVec 128) : BitVec 32 :=
  let bs := (List.range 128).map fun k => if mask.getLsbD k then BitVec.ofNat 8 (data.toNat / 2 ^ (8 * k)) else 0#8
  crc32 (bs ++ bytesOf mask.toNat 16)

/-- One byte of the reflected CRC-32C (R469). -/
def crcCByte (crc : BitVec 32) (b : Byte) : BitVec 32 :=
  (List.range 8).foldl (fun c _ => if c.getLsbD 0 then (c >>> 1) ^^^ 0x82F63B78#32 else c >>> 1) (crc ^^^ b.zeroExtend 32)

/-- CRC-32C (R469). -/
def crc32c (bs : List Byte) : BitVec 32 := (bs.foldl crcCByte 0xFFFFFFFF#32) ^^^ 0xFFFFFFFF#32

end Sys2Proof.Machine
end

