-- ==== Sys2Proof/Machine/Fabric.lean ====
section
/-!
DEFINITION. What the meanings share about fabric links and remote windows (spec/10_links_and_windows.md) and routes
(spec/11_collectives_and_mapping.md R516 to R519): messages and their images, queues of links, routing, outcomes at the origin, and
completion records (spec/12 R611).
-/
namespace Sys2Proof.Machine

/-! ## Links -/

def State.link (s : State) (n : Nat) : Link := lookupD {} n s.fabric.links

def State.setLink (s : State) (n : Nat) (x : Link) : State :=
  { s with fabric := { s.fabric with links := putD {} n x s.fabric.links } }

/-- LINK_STATE and FAB_STATUS.STATE (R480). -/
def State.linkState (s : State) (n : Nat) : Nat := s.fld fabStatusState n

def State.setLinkState (s : State) (n st : Nat) : State := (s.setFld fabStatusState n 0 st).dput (dkLinkState n) (st : Nat)

def Link.tx (x : Link) (vc : Nat) : List TxMsg :=
  match vc with
  | 0 => x.tx0
  | 1 => x.tx1
  | 2 => x.tx2
  | _ => x.tx3

def Link.setTx (x : Link) (vc : Nat) (q : List TxMsg) : Link :=
  match vc with
  | 0 => { x with tx0 := q }
  | 1 => { x with tx1 := q }
  | 2 => { x with tx2 := q }
  | _ => { x with tx3 := q }

def Link.rx (x : Link) (vc : Nat) : RxState :=
  match vc with
  | 0 => x.rx0
  | 1 => x.rx1
  | 2 => x.rx2
  | _ => x.rx3

def Link.setRx (x : Link) (vc : Nat) (r : RxState) : Link :=
  match vc with
  | 0 => { x with rx0 := r }
  | 1 => { x with rx1 := r }
  | 2 => { x with rx2 := r }
  | _ => { x with rx3 := r }

/-! ## Message headers (R486, R487, R562) -/

def mtype (h : Words4) : Nat := bitsOf h.w0 0 4
def dstPkg (h : Words4) : Nat := bitsOf h.w0 4 12
def srcPkg (h : Words4) : Nat := bitsOf h.w0 16 12
def hdrWindow (h : Words4) : Nat := bitsOf h.w0 28 10
def hdrEpoch (h : Words4) : Nat := bitsOf h.w0 38 16
def hdrOwner (h : Words4) : Nat := bitsOf h.w0 54 6
/-- OFFSET in 32-byte units. -/
def hdrOffset (h : Words4) : Nat := bitsOf h.w1 0 32
/-- Length in 32-byte units. -/
def hdrLen (h : Words4) : Nat := bitsOf h.w1 32 11 + 1
def hdrSignal (h : Words4) : Bool := bitOf h.w1 43
def hdrToken (h : Words4) : Nat := bitsOf h.w1 44 12
def hdrTag (h : Words4) : Nat := bitsOf h.w2 0 16
def hdrStatus (h : Words4) : Nat := bitsOf h.w2 16 8
def hdrLine (h : Words4) : Nat := bitsOf h.w2 28 9

/-- Whether a header is that of a collective message. -/
def isColl (h : Words4) : Bool := decide (12 ≤ mtype h)

/-- The place of HOPS in word 3; VIA_CROSSED follows it. -/
def hopsLo (h : Words4) : Nat := if isColl h then 12 else 0

def hdrHops (h : Words4) : Nat := bitsOf h.w3 (hopsLo h) 8
def hdrVia (h : Words4) : Bool := bitOf h.w3 (hopsLo h + 8)
def setHops (h : Words4) (n : Nat) : Words4 := { h with w3 := withBits h.w3 (hopsLo h) 8 n }
def setVia (h : Words4) (v : Bool) : Words4 := { h with w3 := withBits h.w3 (hopsLo h + 8) 1 (b2n v) }

/-- The virtual channel of a message type (R472, R487). -/
def vcOf (h : Words4) : Nat :=
  let m := mtype h
  if m = 1 ∨ m = 2 then 0 else if m = 9 ∨ m = 10 then 3 else if 12 ≤ m then 2 else 1

/-- Lines that a run of 32-byte units touches (R488). -/
def lineCount (offset len : Nat) : Nat := (offset + len - 1) / 4 + 1 - offset / 4

/-- Line segments that follow a header (R487, R562). -/
def segments (h : Words4) : Nat :=
  match mtype h with
  | 1 => lineCount (hdrOffset h) (hdrLen h)
  | 3 => lineCount (hdrOffset h) (hdrLen h)
  | 10 => lineCount (hdrOffset h) (hdrLen h)
  | 12 => bitsOf h.w3 0 12 + 1
  | 13 => bitsOf h.w3 0 12 + 1
  | 14 => bitsOf h.w3 0 12 + 1
  | 0 => (hdrLen h + 3) / 4
  | 11 => (hdrLen h + 3) / 4
  | _ => 0

/-- A window message's header (R486). -/
def mkHeader (mt dst src window epoch owner offset len tag status cause line : Nat) : Words4 :=
  ⟨BitVec.ofNat 64 (mt % 16 + dst % 4096 * 2 ^ 4 + src % 4096 * 2 ^ 16 + window % 1024 * 2 ^ 28 + epoch % 65536 * 2 ^ 38 +
     owner % 64 * 2 ^ 54),
   BitVec.ofNat 64 (offset % 2 ^ 32 + (len - 1) % 2048 * 2 ^ 32),
   BitVec.ofNat 64 (tag % 65536 + status % 256 * 2 ^ 16 + cause % 16 * 2 ^ 24 + line % 512 * 2 ^ 28), 0#64⟩

/-- A response to a message: its header turned round. -/
def answer (h : Words4) (mt status cause line : Nat) : Words4 :=
  mkHeader mt (srcPkg h) (dstPkg h) (hdrWindow h) (hdrEpoch h) (hdrOwner h) (hdrOffset h) (hdrLen h) (hdrTag h) status cause line

/-- The die of this package that a message is for: its window's, its group's, or for a response the one in its tag. -/
def dstDie (h : Words4) : Nat :=
  let m := mtype h
  if isColl h then bitsOf h.w0 28 1
  else if m = 1 ∨ m = 2 ∨ m = 9 then hdrWindow h / 512
  else hdrTag h / 32768

/-! ## Lines (R282, R488) -/

/-- The byte-enable mask of line `i` of a run of 32-byte units. -/
def runMask (offset len i : Nat) : BitVec 128 :=
  (List.range 4).foldl (fun m k =>
    let u := (offset / 4 + i) * 4 + k
    if offset ≤ u ∧ u < offset + len then m ||| ((0xFFFFFFFF#128) <<< (32 * k)) else m) 0#128

/-- The line segments of a run whose byte `j` is `rd j`, and the poison flags of its lines. -/
def runLines (offset len : Nat) (rd : Nat → Byte) (poison : Nat → Bool) : List LineSeg :=
  (List.range (lineCount offset len)).map fun i =>
    let mask := runMask offset len i
    let byte := fun k => if mask.getLsbD k then rd ((offset / 4 + i) * 128 + k - 32 * offset) else 0#8
    let data := BitVec.ofNat 1024 (natOfBytes ((List.range 128).map byte))
    ⟨data, lineCrc data mask, poison i⟩

def segBytes (l : LineSeg) : List Byte := bytesOf l.data.toNat 128 ++ bytesOf l.crc.toNat 4 ++ bytesOf (b2n l.poison) 4

def words4Bytes (h : Words4) : List Byte := [h.w0, h.w1, h.w2, h.w3].flatMap fun w => bytesOf w.toNat 8

def TxMsg.bytes (m : TxMsg) : List Byte :=
  (match m.header with
   | some h => words4Bytes h
   | none => []) ++ m.lines.flatMap segBytes

/-- Whether a line of a message passes its line CRC. -/
def segGood (h : Words4) (i : Nat) (l : LineSeg) : Bool :=
  let mask := if isColl h then BitVec.allOnes 128 else runMask (hdrOffset h) (hdrLen h) i
  lineCrc l.data mask == l.crc

/-! ## Routes (R516 to R519) -/

def State.ownPkg (s : State) : Nat := s.dnat dkPackageId

/-- A die's route entry for a package. -/
def State.routeEntry (s : State) (die pkg : Nat) : Nat := bitsOf (s.rd .collRoute die (pkg / 4)) (pkg % 4 * 16) 16

/-- The lowest-numbered link of a route entry that is UP, as a global link number. -/
def State.routeLink (s : State) (die pkg : Nat) : Option Nat :=
  let e := s.routeEntry die pkg
  ((List.range 8).find? fun l => e / 2 ^ l % 2 == 1 && s.linkState (die * 8 + l) == 5).map (die * 8 + ·)

def State.viaPeer (s : State) (die pkg : Nat) : Bool := s.routeEntry die pkg / 256 % 2 == 1

/-- A message added to a link's queue. -/
def State.enqueue (s : State) (l : Nat) (m : TxMsg) (vc : Nat) : State :=
  let x := s.link l
  s.setLink l (x.setTx vc (x.tx vc ++ [m]))

/-- An accepted GET_REQ whose data have gone leaves its epoch (R501). -/
def State.dataGone (s : State) (num : Option Nat) : State :=
  match num with
  | none => s
  | some n => { s with fabric := { s.fabric with landings := s.fabric.landings.filter fun g => g.num != n } }

def State.toInbox (s : State) (m : TxMsg) : State := { s with fabric := { s.fabric with inbox := s.fabric.inbox ++ [m] } }

/-- A message sent from a die by its route table: onto a link, over UCIe to the other die, or held (R516 to R519). `forwarded` says that
this die passes it on; `fuel` bounds the crossings of UCIe. -/
def State.sendMsg (s : State) : Nat → Nat → Words4 → List LineSeg → Option Nat → Bool → State
  | 0, _, _, _, _, _ => s
  | fuel + 1, die, h, lines, answers, forwarded =>
    let pkg := dstPkg h
    let past := forwarded && decide (s.dnat dkRouteHopLimit < hdrHops h + 1)
    let drop := (s.bump .collRouteDropCnt die 0 1).dataGone answers
    let h' := if forwarded then setHops h (hdrHops h + 1) else h
    if pkg = s.ownPkg then
      if dstDie h ≠ die && past then drop
      else (s.toInbox { header := some (if dstDie h = die then h else h'), lines := lines }).dataGone answers
    else
      match s.routeLink die pkg with
      | some l =>
        if past then drop
        else s.enqueue l { header := some (setVia h' false), lines := lines, answers := answers } (vcOf h)
      | none =>
        if s.viaPeer die pkg && !hdrVia h then
          if past then drop else s.sendMsg fuel (1 - die) (setVia h' true) lines answers true
        else
          let m : HeldMsg := { die := die, vc := vcOf h, header := h, lines := lines, answers := answers, forwarded := forwarded }
          { s with fabric := { s.fabric with held := s.fabric.held ++ [m] } }

/-- A message that a die of this package originates. -/
def State.post (s : State) (die : Nat) (h : Words4) (lines : List LineSeg) : State := s.sendMsg 2 die h lines none false

/-! ## Messages of remote pages at their origin (R491, R492) -/

/-- The header of a message at its origin. -/
def State.originHeader (s : State) (m : OriginMsg) : Words4 :=
  let n := if m.get then m.length else m.bytes.length
  mkHeader (if m.get then 2 else 1) m.pkg s.ownPkg m.window m.epoch m.owner (m.offset / 32) ((m.offset % 32 + n + 31) / 32) m.num 0 0 0

/-- The lines of a PUT at its origin; bytes of its first and last sectors that it does not write are 0x00. -/
def OriginMsg.putLines (m : OriginMsg) : List LineSeg :=
  if m.get then []
  else
    runLines (m.offset / 32) ((m.offset % 32 + m.bytes.length + 31) / 32)
      (fun j => if m.offset % 32 ≤ j then m.bytes.getD (j - m.offset % 32) 0#8 else 0#8) (fun _ => false)

def State.markSent (s : State) (num : Nat) : State :=
  { s with sentMsgs := s.sentMsgs.map fun m => if m.num == num then { m with sent := true } else m }

/-- The outcome of a message recorded at its origin; a failure ends the chain of the stage whose message it is (R492). -/
def State.msgOutcome (s : State) (tag status : Nat) : State :=
  match s.sentMsgs.find? fun m => m.num == tag with
  | none => s.bump .winLateRespCnt (tag / 32768) 0 1
  | some m =>
    let s := { s with sentMsgs := s.sentMsgs.filter fun x => x.num != tag }
    match m.chain.bind s.findChain with
    | some c => if goodStatus status then s.showTasks c else s.endChain c status m.stage
    | none => s

/-- R492: what a response with a status makes of a message. -/
def State.responseStatus (s : State) (tag status : Nat) : Nat :=
  if status ≠ stOk then status
  else match s.sentMsgs.find? fun m => m.num == tag with
    | some m => if m.aborted then stAlreadyDone else stOk
    | none => stOk

/-! ## Completion records (R611) -/

/-- The four words of a completion record. -/
def completionRecord (status source : Nat) (late miss : Bool) (preempts owner index ops commit launch count rev : Nat) : List Word :=
  [BitVec.ofNat 64 (status % 256 + source % 8 * 2 ^ 8 + b2n late * 2 ^ 11 + b2n miss * 2 ^ 12 + min preempts 15 * 2 ^ 13 +
     owner % 64 * 2 ^ 17 + index % 4096 * 2 ^ 23 + ops % 65536 * 2 ^ 35),
   BitVec.ofNat 64 commit, BitVec.ofNat 64 launch, BitVec.ofNat 64 (count % 2 ^ 32 + rev % 2 ^ 32 * 2 ^ 32)]

/-- Words written through an owner's translation. -/
def State.virtWriteWords (s : State) (a : Access) (die va : Nat) (ws : List Word) : State :=
  s.virtWrite a die va (ws.flatMap fun w => bytesOf w.toNat 8)

end Sys2Proof.Machine
end

