-- ==== Sys2Proof/Machine/WindowOps.lean ====
section
/-!
DEFINITION. What the meanings share about remote windows (spec/10_links_and_windows.md R494 to R505): entries, the messages accepted in an
epoch, their landing and the data they ask for.
-/
namespace Sys2Proof.Machine

/-! ## Window entries (R494 to R502) -/

def State.winState (s : State) (die entry : Nat) : Nat := s.fld winEntryW1State die entry
def State.winEpoch (s : State) (die entry : Nat) : Nat := s.fld winEntryW0Epoch die entry
def State.winOwner (s : State) (die entry : Nat) : Nat := s.fld winEntryW1Owner die entry
/-- KIND: 2 and 3 are read as 0. -/
def State.winRing (s : State) (die entry : Nat) : Bool := s.fld winEntryW1Kind die entry == 1
def State.winBase (s : State) (die entry : Nat) : Nat := s.fld winEntryW0Base die entry / 32 * 32

def State.epochRec (s : State) (die entry : Nat) : Epoch := lookupD {} (die * 512 + entry) s.fabric.epochs

def State.setEpoch (s : State) (die entry : Nat) (e : Epoch) : State :=
  { s with fabric := { s.fabric with epochs := putD {} (die * 512 + entry) e s.fabric.epochs } }

/-- The ring of a ring window as a stage's output ring (R505). -/
def State.winStage (s : State) (die entry : Nat) : Stage :=
  { kind := 5, engine := 0, task := 0, inDesc := 0, outDesc := 0, cmdOff := 0, ringAddr := s.winBase die entry / 128 * 128,
    nslots := s.fld winEntryW2RingNslotsM1 die entry + 1, tokenBase := s.fld winEntryW2RingTokenBase die entry,
    slotLines := s.fld winEntryW2RingSlotLinesM1 die entry + 1 }

/-! ## Messages accepted (R497 to R501, R505) -/

def State.putLanding (s : State) (g : Landing) : State :=
  { s with fabric := { s.fabric with landings := s.fabric.landings.map fun x => if x.num == g.num then g else x } }

/-- The producer of an external head's ring has failed with a status: the chain that it still has items to bring to ends with it (R350,
log entry 87). -/
def State.headFails (s : State) (g : Stage) (status : Nat) : State :=
  match s.headChain g.ringAddr g.tokenBase with
  | some c => match c.stages.head? with
    | some h => if h.started < c.items then s.endChain c status 0 else s
    | none => s
  | none => s

/-- The first status met in an epoch stays its status (R501). -/
def State.noteTorn (s : State) (g : Landing) : State :=
  let s := s.bump .winTornCnt g.die 0 1
  let e := s.epochRec g.die g.entry
  if e.torn = 0 then s.setEpoch g.die g.entry { e with torn := g.status } else s

/-- R497, R500, R501, R505: an accepted PUT whose lines are all dealt with lands, or is torn; a torn PUT of a ring window leaves its slot EMPTY and
ends the chain it feeds (R350). -/
def State.finishLanding (s : State) (g : Landing) : State :=
  let s := s.dataGone (some g.num)
  let ring := s.winStage g.die g.entry
  if g.status = 0 then
    let s := match g.slot with
      | some k => s.headFull ring k
      | none => s
    let s := if hdrSignal g.header then s.putToken (hdrToken g.header) true else s
    s.post g.die (answer g.header 6 stOk 0 0) []
  else
    let s := match g.slot with
      | some k => s.putSlotToken ring k 0
      | none => s
    let s := (s.noteTorn g).post g.die (answer g.header 6 g.status 0 0) []
    if g.slot.isSome then s.headFails ring g.status else s

/-- The place of byte `m` of a message's run at a window: a physical address, none where its page is not present or not permitted. -/
def State.winPlace (s : State) (g : Landing) (m : Nat) (write : Bool) : Option Nat :=
  match g.slot with
  | some k => some ((s.winStage g.die g.entry).slotAddr k + m)
  | none =>
    match s.xlat g.die (s.winOwner g.die g.entry) (s.winBase g.die g.entry + 32 * hdrOffset g.header + m) with
    | .page pa r w _ _ => if (if write then w else r) then some pa else none
    | _ => none

/-- The access that an accepted message makes (R275, R498). -/
def State.landingAccess (s : State) (g : Landing) : Access :=
  { unit := match g.link with
      | some l => .link l.val
      | none => .ucie g.die
    owner := s.winOwner g.die g.entry, msg := some g.num }

/-- The bytes of line `i` of a run: the message byte at which they begin, and how many. -/
def lineSpan (offset len i : Nat) : Nat × Nat :=
  let lo := max (32 * offset) ((offset / 4 + i) * 128)
  let hi := min (32 * (offset + len)) ((offset / 4 + i + 1) * 128)
  (lo - 32 * offset, hi - lo)

/-- The 32-byte units of line `i` of a run, each with its message byte and its place in the line. -/
def lineUnits (offset len i : Nat) : List (Nat × Nat) :=
  let p := lineSpan offset len i
  (List.range (p.2 / 32)).map fun k => (p.1 + 32 * k, 32 * offset + p.1 + 32 * k - (offset / 4 + i) * 128)

/-- Line `i` of a GET_REQ's data as it is read, with the status of a page that cannot be read (R497, R498). -/
def State.readLine (s : State) (g : Landing) (i : Nat) : State × LineSeg × Nat :=
  let off := hdrOffset g.header
  let mask := runMask off (hdrLen g.header) i
  let us := lineUnits off (hdrLen g.header) i
  let pas := us.map fun u => s.winPlace g u.1 false
  if pas.any Option.isNone then (s, ⟨0#1024, lineCrc 0#1024 mask, false⟩, stPageFault)
  else
    let at_ := (us.zip pas).filterMap fun p => p.2.map fun pa => (p.1.2, pa)
    let s := at_.foldl (fun s p => s.didRead (s.landingAccess g) p.2 32) s
    let data := BitVec.ofNat 1024 (at_.foldl (fun x p => x + natOfBytes (s.memBytes p.2 32) * 2 ^ (8 * p.1)) 0)
    (s, ⟨data, lineCrc data mask, at_.any fun p => s.poisonAt p.2⟩, 0)

/-- The lines of a GET_REQ read in ascending order; the answer carries the first status that is not OK. -/
def State.readLines (s : State) (g : Landing) : List Nat → State × List LineSeg × Nat
  | [] => (s, [], 0)
  | i :: is =>
    let (s, l, st) := s.readLine g i
    let (s, ls, st') := s.readLines g is
    (s, l :: ls, if st = 0 then st' else st)

/-- Whether a unit that a GET_REQ reads lies in a channel group out of service (R405). -/
def State.getHeld (s : State) (g : Landing) : Bool :=
  g.left.any fun i => (lineUnits (hdrOffset g.header) (hdrLen g.header) i).any fun u => match s.winPlace g u.1 false with
    | some pa => s.groupHeld pa 32
    | none => false

/-- A GET_REQ's lines read and sent as GET_DATA (R497, R500). -/
def State.answerGet (s : State) (g : Landing) : State :=
  let (s, ls, st) := s.readLines g g.left
  let s := s.putLanding { g with left := [] }
  let s := if st = 0 then s else s.noteTorn { g with status := st }
  s.sendMsg 2 g.die (answer g.header 3 st 0 0) ls (some g.num) false

/-- Tokens whose record has been accepted are set (R501). -/
def State.settleSignals (s : State) : State :=
  let waits (p : Nat × Nat) : Bool := s.heldWrites.any fun w => w.by_.msg == some p.1
  let ready := s.fabric.signals.filter fun p => !waits p
  ready.foldl (fun s p => s.putToken p.2 true) { s with fabric := { s.fabric with signals := s.fabric.signals.filter waits } }

/-- A completion record written, and a token set once it has been accepted (R501, R611, R642). -/
def State.writeRecord (s : State) (a : Access) (die va : Nat) (ws : List Word) (token : Option Nat) : State :=
  let num := s.fabric.landingNum
  let s := { s with fabric := { s.fabric with landingNum := num + 1 } }
  let s := s.virtWriteWords { a with msg := some num } die va ws
  match token with
  | some t => ({ s with fabric := { s.fabric with signals := s.fabric.signals ++ [(num, t)] } }).settleSignals
  | none => s

/-- Every accepted message that nothing holds up any more: PUTs whose lines are all written land (R498), GET_REQs that waited for a channel group
are answered (R405). -/
def State.settleLandings (s : State) : State :=
  (s.fabric.landings.foldl (fun s g =>
    if g.get then (if g.left.isEmpty || s.getHeld g then s else s.answerGet g)
    else if g.left.isEmpty && !(s.heldWrites.any fun w => w.by_.msg == some g.num) then s.finishLanding g else s) s).settleSignals

end Sys2Proof.Machine
end

