-- ==== Sys2Proof/Machine/BeamOps.lean ====
section
/-!
DEFINITION. What the meanings share about launch records (spec/12_beam_and_launching.md): completion rings, the end of a record and what
follows it.
-/
namespace Sys2Proof.Machine

/-! ## Completion rings (R612) -/

/-- Records that an owner's completion ring holds; SIZE_LOG2 above 20 is read as 20, 0 is no ring. -/
def State.cringSize (s : State) (owner : Nat) : Nat :=
  let k := s.fld beamCringBaseSizeLog2 0 owner
  if k = 0 then 0 else 2 ^ min 20 k

/-- Records of an owner written and not yet accepted. -/
def State.cringPosted (s : State) (owner : Nat) : Nat := s.beam.posted.countP (·.owner == owner)

/-- PROD - CONS, with the records on their way, equals the ring size. -/
def State.cringFull (s : State) (owner : Nat) : Bool :=
  let n := s.cringSize owner
  let used := (s.fld beamCringIdxProd 0 owner + s.cringPosted owner + 2 ^ 32 - s.fld beamCringIdxCons 0 owner) % 2 ^ 32
  n != 0 && decide (n ≤ used)

/-- A completion record sent to the next place of its owner's ring (R612). It enters a gallery by the maintenance port (log entry 80). -/
def State.postRecord (s : State) (die owner : Nat) (ws : List Word) (launch : Option Nat) : State :=
  let at_ := (s.fld beamCringIdxProd 0 owner + s.cringPosted owner) % s.cringSize owner
  let num := s.fabric.landingNum
  let s := { s with fabric := { s.fabric with landingNum := num + 1 }, beam := { s.beam with posted := s.beam.posted ++ [PostedRec.mk num owner launch] } }
  s.virtWriteWords { unit := .maint die, owner := owner, msg := some num } die (s.fld beamCringBaseBase 0 owner * 32 + at_ * 32) ws

/-- PROD one higher: a record is visible (R612, R694). -/
def State.countProd (s : State) (owner : Nat) : State :=
  let prod := s.fld beamCringIdxProd 0 owner
  let s := (s.setFld beamCringIdxProd 0 owner (prod + 1)).setFld beamCringIdxProd 1 owner (prod + 1)
  if bitOf (s.rd .keepCringIrq 0) owner then s.raiseIrq (1 + owner) else s

/-- A completion of an owner that finds its ring full waits (R612). -/
def State.waitCring (s : State) (w : DoneWait) : State :=
  let s := s.bumpBoth .beamCringFullCnt 1
  { s with beam := { s.beam with doneWait := s.beam.doneWait ++ [w] } }

/-! ## The characteristic table (R583 to R588) -/

/-- The device physical address of a launch record. -/
def State.recAddr (s : State) (index : Nat) : Nat := s.fld beamTableBase 0 * 2 ^ 18 + 64 * index

def State.recWord (s : State) (index k : Nat) : Word := s.memWord (s.recAddr index + 8 * k)

/-- A record's fields as the table holds them, read as R588 states, with the clamps that takes. -/
def State.readRecord (s : State) (index : Nat) : RecInst × Nat :=
  let w := fun k => s.recWord index k
  let n0 := bitsOf (w 2) 48 3
  let m0 := bitsOf (w 3) 48 3
  let kind0 := bitsOf (w 1) 60 2
  let kind := if kind0 = 3 then 0 else kind0
  let save := bitsOf (w 5) 6 42 * 64
  let pre0 := bitOf (w 1) 58
  let badPre := pre0 && save == 0 && kind != 2
  let badDest := kind == 2 && decide (1 < bitsOf (w 6) 0 2)
  let badImg := kind == 2 && bitsOf (w 6) 2 3 == 0
  let len0 := kind == 1 && bitsOf (w 6) 0 16 == 0
  let toks := fun (x : Word) n => (List.range n).map fun k => bitsOf x (12 * k) 12
  ({ index := index, beamTime := (w 0).toNat, prog := bitsOf (w 1) 6 42 * 64, owner := bitsOf (w 1) 48 6, prio := bitsOf (w 1) 54 4,
     preempt := pre0 && !badPre, now := bitOf (w 1) 59, kind := kind, consume := bitOf (w 1) 62, failSig := bitOf (w 1) 63,
     wait := toks (w 2) (min 4 n0), sig := toks (w 3) (min 4 m0), stepRev := bitsOf (w 4) 0 32, repeatRevs := bitsOf (w 4) 32 16,
     deadlineFl := bitsOf (w 4) 48 16, saveArea := save, kindArg := if len0 then (w 6).toNat + 1 else (w 6).toNat },
   b2n (decide (4 < n0)) + b2n (decide (4 < m0)) + b2n (kind0 == 3) + b2n badPre + b2n len0 + b2n badDest + b2n badImg)

def State.recValid (s : State) (index : Nat) : Bool := bitOf (s.recWord index 7) 0

def State.dropRec (s : State) (launch : Nat) : State :=
  { s with beam := { s.beam with recs := s.beam.recs.filter fun r => r.index != launch } }

/-- A record armed at a beam time (R586, R595): PENDING from now on. -/
def State.armInst (s : State) (r : RecInst) (clamps armed : Nat) : State :=
  let s := (s.bumpBoth .beamRecClampCnt clamps).dropRec r.index
  let late := !r.now && decide (r.beamTime ≤ armed)
  ({ s with beam := { s.beam with recs := s.beam.recs ++ [{ r with armed := armed, late := late }] } }).setRecState r.index 1

/-- A record armed with the fields of the table at a beam time. -/
def State.armAt (s : State) (index armed : Nat) : State := s.armInst (s.readRecord index).1 (s.readRecord index).2 armed

def State.armRecord (s : State) (index : Nat) : State := s.armAt index s.beamNow

/-- What a write of a sector of a record does to its state (R586, R587): an IDLE or HALTED record whose VALID is written 1 is armed, a
PENDING one follows the table at once, and a later instance notes that it was written. -/
def State.tableWritten (s : State) (index : Nat) (second : Bool) (at_ : Nat) : State :=
  let st := s.recState index
  let valid := s.recValid index
  if st = 0 ∨ st = 6 then (if second && valid then s.armAt index at_ else s)
  else if st = 1 then
    (if valid then s.armAt index (s.recOr index).armed else (s.dropRec index).setRecState index 0)
  else if second then s.setRec { s.recOr index with rearmed := valid }
  else s

/-- The writes of the characteristic table since last looked at, in order (R584). -/
def State.settleTable (s : State) : State :=
  let ws := s.beam.touched
  ws.foldl (fun s w => s.tableWritten w.1 w.2.1 w.2.2) { s with beam := { s.beam with touched := [] } }

/-! ## The end of a record (R608 to R612, R626, R587) -/

/-- An instance re-armed n revolutions later: BEAM_TIME and STEP_REV advanced and written back into the table, every other field as the
table has it (R587, R610). -/
def State.rearm (s : State) (r : RecInst) (n : Nat) : State :=
  let time := (r.beamTime + n * 2 ^ 32) % 2 ^ 64
  let rev := (r.stepRev + n) % 2 ^ 32
  let (x, clamps) := s.readRecord r.index
  let a : Access := { unit := .maint (s.frameDie (s.recAddr r.index / 65536)), owner := s.fld beamTableOwner 0 }
  let s := (s.devWrite a (s.recAddr r.index) (bytesOf time 8)).devWrite a (s.recAddr r.index + 32) (bytesOf rev 4)
  let s := { s with beam := { s.beam with touched := s.beam.touched.filter (·.1 != r.index) } }
  s.armInst { x with beamTime := time, stepRev := rev } clamps s.beamNow

/-- What follows a record's completion: signal tokens, then by the table as it stands the record is retired, re-arms with its times
advanced, is armed afresh, or is IDLE or HALTED (R587, R609, R610, R626). -/
def State.afterRecord (s : State) (r : RecInst) : State :=
  let good := r.status == stOk || r.status == stAlreadyDone || r.status == stNonfiniteSkip
  let s := if good || r.failSig then s.putTokens r.sig true else s
  let rep := bitsOf (s.recWord r.index 4) 32 16
  let again := decide (0 < rep) && (r.status == stOk || r.status == stNonfiniteSkip) && !r.aborted
  let s := s.dropRec r.index
  if !s.recValid r.index then s.setRecState r.index 0
  else if again then s.rearm r rep
  else if r.rearmed then s.armRecord r.index
  else s.setRecState r.index (if rep = 0 then 0 else 6)

/-- Records that have been accepted are visible, each owner's in order; what follows a launch record's then happens (R605, R609, R612).
`fuel` bounds them. -/
def State.settleCrings (s : State) : Nat → State
  | 0 => s
  | fuel + 1 =>
    match s.beam.posted.find? fun w => !(s.heldWrites.any fun h => h.by_.msg == some w.num) &&
        (s.beam.posted.find? (·.owner == w.owner)) == some w with
    | none => s
    | some w =>
      let s := ({ s with beam := { s.beam with posted := s.beam.posted.erase w } }).countProd w.owner
      let s := match w.launch.bind s.findRec with
        | some r => s.afterRecord r
        | none => s
      s.settleCrings fuel

/-- A completion record written to its owner's ring; without a ring nothing is written, and what follows happens at once (R612). -/
def State.writeCring (s : State) (die owner : Nat) (ws : List Word) (launch : Option Nat) : State :=
  if s.cringSize owner = 0 then
    (match launch.bind s.findRec with
     | some r => s.afterRecord r
     | none => s)
  else
    let s := s.postRecord die owner ws launch
    s.settleCrings s.beam.posted.length

/-- The completion record of a collective rank (R528, R611). -/
def State.rankRecord (s : State) (die owner launch status lines rev : Nat) : State :=
  let r := s.recOr launch
  let ws := completionRecord status 2 false false 0 owner launch 0 s.beamNow r.launchBeam lines rev
  if s.cringFull owner then s.waitCring { owner := owner, launch := none, words := ws } else s.writeCring die owner ws none

/-- The completion record of a launch record (R611): the deadline is missed by a record that committed later. -/
def recordWords (r : RecInst) : List Word :=
  let committed := r.status == stOk || r.status == stAlreadyDone || r.status == stNonfiniteSkip || (r.kind == 2 && r.status == stPoisonConsumed)
  let miss := committed && r.deadlineFl != 0 && decide (r.beamTime + r.deadlineFl * 2 ^ 20 < r.commitBeam)
  completionRecord r.status 0 r.late miss r.preempts r.owner r.index r.ops r.commitBeam r.launchBeam r.count r.stepRev

/-- The die that writes a record's completion: that of its lowest-numbered cluster. -/
def State.recDie (s : State) (r : RecInst) : Nat :=
  if r.kind = 0 ∧ bitsOf (s.progWord 0 r.owner r.prog 0) 0 12 = 0 ∧ bitsOf (s.progWord 1 r.owner r.prog 0) 12 12 ≠ 0 then 1 else 0

/-- A record about to be written with DEADLINE_MISS = 1 is counted (R611); without a ring none is written. -/
def State.countMiss (s : State) (owner : Nat) (ws : List Word) : State :=
  if bitOf (ws.headD 0#64) 12 && s.cringSize owner != 0 then s.bumpBoth .beamDeadlineMissCnt 1 else s

/-- A record that has ended completes: its record is written, or waits for room; until it is accepted the record's state reads DONE_WAIT (R594,
R609, R612, log entry 93). -/
def State.completeRecord (s : State) (r : RecInst) : State :=
  let ws := recordWords r
  let s := (s.setRec { r with ended := true }).setRecState r.index 5
  if s.cringFull r.owner then s.waitCring { owner := r.owner, launch := some r.index, words := ws }
  else (s.countMiss r.owner ws).writeCring (s.recDie r) r.owner ws (some r.index)

end Sys2Proof.Machine
end

