-- ==== Sys2Proof/Machine/CollOps.lean ====
section
/-!
DEFINITION. What the meanings share about collectives (spec/11_collectives_and_mapping.md): groups, pieces and their messages, chunks,
reading and writing tensors by logical index, and the end of a collective at a rank.
-/
namespace Sys2Proof.Machine

/-! ## Groups (R510 to R514) -/

/-- A group entry of a die as it is read. -/
structure Group where
  valid : Bool
  pair : Bool
  degree : Nat
  rank : Nat
  dirs : Bool
  gen : Nat
  nextPkg : Nat
  nextDie : Nat
  up : Nat
  prevPkg : Nat
  prevDie : Nat
  down : Nat
  list : Nat

def State.groupOf (s : State) (die g : Nat) : Group :=
  let pair := s.fld collGroupW0Kind die g == 1
  let d := if pair then 2 else s.fld collGroupW0DegreeM1 die g + 1
  let own := s.ownPkg
  { valid := s.fld collGroupW0Valid die g == 1, pair := pair, degree := d,
    rank := if pair then die else min (s.fld collGroupW0Rank die g) (d - 1),
    dirs := s.fld collGroupW0Dirs die g == 1, gen := s.fld collGroupW0MemberGen die g,
    nextPkg := if pair then own else s.fld collGroupW1NextPkg die g, nextDie := if pair then 1 - die else s.fld collGroupW1NextDie die g,
    up := if pair then 0 else s.fld collGroupW1UpLinks die g,
    prevPkg := if pair then own else s.fld collGroupW1PrevPkg die g, prevDie := if pair then 1 - die else s.fld collGroupW1PrevDie die g,
    down := if pair then 0 else s.fld collGroupW1DownLinks die g, list := s.fld collGroupW2ListAddr die g / 4 * 4 }

/-- The endpoint of a rank by the member list: package and die (R514). -/
def State.member (s : State) (g : Group) (rank : Nat) : Nat × Nat :=
  let n := natOfBytes (s.memBytes (g.list + 4 * rank) 4)
  (n % 4096, n / 4096 % 2)

/-! ## Running collectives -/

def Coll.same (a b : Coll) : Bool := a.cluster == b.cluster && a.launch == b.launch

def State.findColl (s : State) (cluster launch : Nat) : Option Coll :=
  s.coll.running.find? fun c => c.cluster == cluster && c.launch == launch

def State.setColl (s : State) (c : Coll) : State :=
  { s with coll := { s.coll with running := s.coll.running.map fun d => if d.same c then c else d } }

def State.dropColl (s : State) (c : Coll) : State :=
  { s with coll := { s.coll with running := s.coll.running.filter fun d => !d.same c } }

/-! ## Messages (R513, R562) -/

/-- A collective header; the lines are counted when it is sent. -/
def collHeader (mt dstPkg srcPkg dstDie srcDie group gen owner piece chunk step part : Nat) (nf : Bool) (status stamp opseq lines : Nat) :
    Words4 :=
  ⟨BitVec.ofNat 64 (mt % 16 + dstPkg % 4096 * 2 ^ 4 + srcPkg % 4096 * 2 ^ 16 + dstDie % 2 * 2 ^ 28 + srcDie % 2 * 2 ^ 29 +
     group % 256 * 2 ^ 30 + gen % 65536 * 2 ^ 38 + owner % 64 * 2 ^ 54),
   BitVec.ofNat 64 (piece % 2 ^ 24 + chunk % 4096 * 2 ^ 24 + step % 4096 * 2 ^ 36 + part % 4 * 2 ^ 48 + b2n nf * 2 ^ 50 +
     status % 256 * 2 ^ 51),
   BitVec.ofNat 64 (stamp % 2 ^ 32 + opseq % 2 ^ 32 * 2 ^ 32), BitVec.ofNat 64 ((lines - 1) % 4096)⟩

def collGroupId (h : Words4) : Nat := bitsOf h.w0 30 8
def collGen (h : Words4) : Nat := bitsOf h.w0 38 16
def collDstDie (h : Words4) : Nat := bitsOf h.w0 28 1
def collSrcDie (h : Words4) : Nat := bitsOf h.w0 29 1
def collPiece (h : Words4) : Nat := bitsOf h.w1 0 24
def collChunk (h : Words4) : Nat := bitsOf h.w1 24 12
def collStep (h : Words4) : Nat := bitsOf h.w1 36 12
def collPart (h : Words4) : Nat := bitsOf h.w1 48 2
def collNf (h : Words4) : Bool := bitOf h.w1 50
def collStatus (h : Words4) : Nat := bitsOf h.w1 51 8
def collStamp (h : Words4) : Nat := bitsOf h.w2 0 32
def collOpseq (h : Words4) : Nat := bitsOf h.w2 32 32

/-- A message to a ring neighbour: dealt to the links of its mask that are UP in rotation, or by the route table (R512, R513). -/
def State.toNeighbour (s : State) (die : Nat) (g : Group) (up : Bool) (i : Nat) (h : Words4) (lines : List LineSeg) : State :=
  let mask := if up then g.up else g.down
  let ls := (List.range 8).filter fun l => mask / 2 ^ l % 2 == 1 && s.linkState (die * 8 + l) == 5
  match ls[i % ls.length]? with
  | some l => s.enqueue (die * 8 + l) { header := some h, lines := lines } 2
  | none => s.post die h lines

/-- A piece or block sent to a ring neighbour. -/
def State.sendPiece (s : State) (c : Coll) (up : Bool) (mt piece chunk step part stamp : Nat) (lines : List LineSeg) : State :=
  let g := s.groupOf c.die c.group
  let pkg := if up then g.nextPkg else g.prevPkg
  let die := if up then g.nextDie else g.prevDie
  let h := collHeader mt pkg s.ownPkg die c.die c.group c.memberGen c.owner piece chunk step part c.nf 0 stamp c.opseq lines.length
  (s.bump .collPieceTxCnt c.die 0 1).toNeighbour c.die g up piece h lines

/-- A piece sent to a rank by the member list (R514). -/
def State.sendRank (s : State) (c : Coll) (rank piece chunk part : Nat) (lines : List LineSeg) : State :=
  let (pkg, die) := s.member (s.groupOf c.die c.group) rank
  let h := collHeader 12 pkg s.ownPkg die c.die c.group c.memberGen c.owner piece chunk 0 part c.nf 0 0 c.opseq lines.length
  (s.bump .collPieceTxCnt c.die 0 1).post c.die h lines

/-- COLL_ABORT to a ring neighbour, carrying a status (R559). -/
def State.sendAbort (s : State) (c : Coll) (up : Bool) (status : Nat) : State :=
  let g := s.groupOf c.die c.group
  let pkg := if up then g.nextPkg else g.prevPkg
  let die := if up then g.nextDie else g.prevDie
  let h := collHeader 15 pkg s.ownPkg die c.die c.group c.memberGen c.owner 0 0 0 0 false status 0 c.opseq 1
  s.toNeighbour c.die g up 0 h []

/-- A full line. -/
def fullLine (bs : List Byte) (poison : Bool) : LineSeg :=
  let data := BitVec.ofNat 1024 (natOfBytes (bs.take 128))
  ⟨data, lineCrc data (BitVec.allOnes 128), poison⟩

/-- Bytes as full lines; `poison i` is the flag of line `i`. -/
def toLines (bs : List Byte) (poison : Nat → Bool) : List LineSeg :=
  (List.range ((bs.length + 127) / 128)).map fun i => fullLine ((bs.drop (128 * i)).take 128) (poison i)

def fromLines (ls : List LineSeg) : List Byte := ls.flatMap fun l => bytesOf l.data.toNat 128

/-! ## Chunks (R525, R529) -/

/-- The chunk size. -/
def Coll.chunkSize (c : Coll) : Nat := ((c.elems + c.degree - 1) / c.degree + 255) / 256 * 256

/-- The elements of a chunk: first and end. For BROADCAST the one chunk is the whole tensor. -/
def Coll.chunk (c : Coll) (k : Nat) : Nat × Nat :=
  if c.op = 5 then (0, c.elems)
  else (min c.elems (k * c.chunkSize), min c.elems ((k + 1) * c.chunkSize))

/-- The first half of a chunk of a length: all of it with DIRS = 0. -/
def Coll.firstHalf (c : Coll) (len : Nat) : Nat := if c.dirs then min len (((len + 1) / 2 + 255) / 256 * 256) else len

/-- The elements of part 1 or 2 of a chunk. -/
def Coll.part (c : Coll) (k p : Nat) : Nat × Nat :=
  let (lo, hi) := c.chunk k
  let m := lo + c.firstHalf (hi - lo)
  if p = 2 then (m, hi) else (lo, m)

/-- The access of a collective's work (R275). -/
def Coll.access (c : Coll) : Access := { unit := .coll c.die, owner := c.owner }

/-- Rank arithmetic mod D. -/
def Coll.mod (c : Coll) (x : Nat) : Nat := x % c.degree

/-- Pieces of `n` elements, `per` to a piece. -/
def pieceCount (n per : Nat) : Nat := if per = 0 then 0 else (n + per - 1) / per

/-- Elements of a reduction's piece: 32 binary32 sums or 16 fixed-point sums to a line (R536). -/
def Coll.sumsPer (c : Coll) : Nat := c.pieceLines * (if c.exact then 16 else 32)

/-- Elements of a data piece of a format: as many whole blocks of 32 as its lines hold. -/
def Coll.codesPer (c : Coll) (fmt : Nat) : Nat := max 32 (c.pieceLines * 1024 / fmtBits fmt / 32 * 32)

/-! ## Tensors by logical index (R309, R525) -/

/-- The descriptors of a command: source and destination; a destination of data-moving operations has the source's format (R523). -/
def State.collDesc (s : State) (c : Coll) (d : Nat) : Desc × Nat := parseDesc (s.virtWords c.die c.owner (c.descTable + 128 * d) 16)

def Coll.reduces (c : Coll) : Bool := c.op == 0 || c.op == 1

def State.srcOf (s : State) (c : Coll) : Desc := (s.collDesc c c.srcDesc).1

def State.dstOf (s : State) (c : Coll) : Desc :=
  let d := (s.collDesc c c.dstDesc).1
  let x := s.srcOf c
  if c.reduces then { d with idxOff := if c.op = 1 then c.rank * c.chunkSize else 0 }
  else { d with fmt := x.fmt, mx := x.mx }

/-- The code and the scale code of element `k` of a tensor, under what is written and not yet accepted. -/
def State.codeAt (s : State) (c : Coll) (d : Desc) (k : Nat) (ovl : Overlay := []) : Nat :=
  s.streamCode c.die c.owner d (k / d.cnt0) (k % d.cnt0) ovl

def State.scaleAt (s : State) (c : Coll) (d : Desc) (k : Nat) (ovl : Overlay := []) : Nat :=
  (s.streamScale c.die c.owner d (k / d.cnt0) (k % d.cnt0) ovl).toNat

/-- The exact value of element `k` (R82). -/
def State.valAt (s : State) (c : Coll) (d : Desc) (k : Nat) : Val :=
  if d.mx then decodeMx d.fmt (s.scaleAt c d k) (s.codeAt c d k) else decodeElem d.fmt false (s.codeAt c d k)

/-- The virtual address of an element's first byte and of its last. -/
def elemAddr (d : Desc) (k : Nat) : Nat := d.rowAddr (k / d.cnt0) + k % d.cnt0 * fmtBits d.fmt / 8

def elemEnd (d : Desc) (k : Nat) : Nat := d.rowAddr (k / d.cnt0) + (k % d.cnt0 * fmtBits d.fmt + fmtBits d.fmt - 1) / 8

/-- Whether an element or its scale byte reads from a poisoned sector. -/
def State.elemPoison (s : State) (c : Coll) (d : Desc) (k : Nat) : Bool :=
  ([elemAddr d k, elemEnd d k] ++ (if d.mx then [d.scaleAddr (k / d.cnt0) (k % d.cnt0)] else [])).any fun va =>
    (s.readPa c.die c.owner va).any fun pa => s.poisonAt pa

/-- The elements of `[lo, hi)` that lie in a 128-byte line with an element of a list (R527). -/
def lineMates (d : Desc) (lo hi : Nat) (ks : List Nat) : List Nat :=
  ((List.range (hi - lo)).map (lo + ·)).filter fun j => ks.any fun k =>
    decide (elemAddr d j / 128 ≤ elemEnd d k / 128) && decide (elemAddr d k / 128 ≤ elemEnd d j / 128)

/-- Whether every element of a range lies in a present page. -/
def State.elemsPresent (s : State) (c : Coll) (d : Desc) (lo hi : Nat) : Bool :=
  (List.range (hi - lo)).all fun j =>
    decide (d.cnt0 * d.rows ≤ lo + j) || (s.readPa c.die c.owner (elemAddr d (lo + j))).isSome

/-- The elements of `[lo, hi)` grouped by row. -/
def rowsOf (d : Desc) (lo hi : Nat) : List (Nat × List Nat) :=
  if lo < hi then
    (List.range ((hi - 1) / d.cnt0 + 1 - lo / d.cnt0)).map fun i =>
      let r := lo / d.cnt0 + i
      (r, (List.range d.cnt0).filter fun j => decide (lo ≤ r * d.cnt0 + j) && decide (r * d.cnt0 + j < hi))
  else []

/-- The MX blocks of `[lo, hi)`, each by its first element. -/
def blocksIn (d : Desc) (lo hi : Nat) : List Nat :=
  (List.range (hi - lo)).filterMap fun j =>
    let k := lo + j
    if j = 0 || k % d.cnt0 % 32 == 0 then some k else none

/-- The reads of elements `[lo, hi)` of a tensor and of their scale bytes, on this package (R281, R374, log entry 86). -/
def State.readElems (s : State) (c : Coll) (d : Desc) (lo hi : Nat) : State :=
  (rowsOf d lo hi).foldl (fun s row =>
    match row.2.head?, row.2.getLast? with
    | some a, some b =>
      let first := elemAddr d (row.1 * d.cnt0 + a)
      let n := d.rowAddr row.1 + (b * fmtBits d.fmt + fmtBits d.fmt + 7) / 8 - first
      let sc := d.scaleAddr row.1 a
      let m := d.scaleAddr row.1 b + 1 - sc
      let runs := cutPages (n / 65536 + 2) first n ++ (if d.mx then cutPages (m / 65536 + 2) sc m else [])
      s.readRuns c.access (s.localRuns c.die c.owner runs)
    | _, _ => s) s

/-- The reads of `n` lines from a virtual address, on this package. -/
def State.readVLines (s : State) (c : Coll) (va n : Nat) : State :=
  s.readRuns c.access (s.localRuns c.die c.owner (cutPages (n / 512 + 2) va (n * 128)))

/-- The bytes of elements `[lo, hi)` and of their scale bytes as written, accepted or not. -/
def State.writtenView (s : State) (c : Coll) (d : Desc) (lo hi : Nat) : Overlay :=
  let bytes := fun va n => (va, (List.range n).map fun i => s.storedByte c.die c.owner (va + i))
  (rowsOf d lo hi).flatMap fun row =>
    match row.2.head?, row.2.getLast? with
    | some a, some b =>
      let first := elemAddr d (row.1 * d.cnt0 + a)
      let sc := d.scaleAddr row.1 a
      bytes first (elemEnd d (row.1 * d.cnt0 + b) + 1 - first) :: (if d.mx then [bytes sc (d.scaleAddr row.1 b + 1 - sc)] else [])
    | _, _ => []

/-- Whether a write of a collective's owner on its die waits (R528, R642). -/
def State.collWriting (s : State) (c : Coll) : Bool := s.heldWrites.any fun w => w.by_ == c.access

/-- A data piece: the elements' codes packed, then, under MX, their blocks' scale bytes; a line is poisoned with any element in it. -/
def State.dataLines (s : State) (c : Coll) (d : Desc) (lo hi : Nat) (poisoned : Nat → Bool) (ovl : Overlay := []) : List LineSeg :=
  let w := fmtBits d.fmt
  let codes := packElems d.fmt ((List.range (hi - lo)).map fun j => s.codeAt c d (lo + j) ovl)
  let n := (codes.length + 127) / 128
  let scales := if d.mx then (blocksIn d lo hi).map fun k => BitVec.ofNat 8 (s.scaleAt c d k ovl) else []
  let poison := fun i => (List.range (hi - lo)).any fun j =>
    decide (j * w / 1024 ≤ i) && decide (i ≤ (j * w + w - 1) / 1024) && poisoned (lo + j)
  toLines codes poison ++ toLines scales (fun _ => (List.range n).any poison)

/-- Codes and scale codes stored at their places unchanged (R526); elements outside the destination or its extent are dropped. -/
def State.storeCodes (s : State) (c : Coll) (d : Desc) (lo hi : Nat) (codes : List Nat) (scales : List Byte) : State × Bool :=
  let (s, bad) := (rowsOf d lo hi).foldl (fun acc row =>
    let els := row.2.filter fun j => decide (row.1 < d.rows) && d.inExtent row.1 j
    if els = [] then acc
    else
      let (va, bs) := acc.1.patchRow c.die c.owner d row.1 (els.map fun j => (j, codes.getD (row.1 * d.cnt0 + j - lo) 0))
      let e := acc.1.vPut c.die c.access va bs
      (e.st, acc.2 || e.fault)) (s, false)
  if !d.mx then (s, bad)
  else
    ((blocksIn d lo hi).zip scales).foldl (fun acc p =>
      let r := p.1 / d.cnt0
      if r < d.rows && d.inExtent r (p.1 % d.cnt0) then
        let e := acc.1.vPut c.die c.access (d.scaleAddr r (p.1 % d.cnt0)) [p.2]
        (e.st, acc.2 || e.fault)
      else acc) (s, bad)

/-- The sectors of elements left poisoned (R527). -/
def State.poisonElems (s : State) (c : Coll) (d : Desc) (ks : List Nat) : State :=
  (ks.flatMap fun k => [elemAddr d k, elemEnd d k]).foldl (fun s va => match s.framePa c.die c.owner va with
    | some pa => s.leavePoison [pa / 32]
    | none => s) s

/-- A data piece written at its place; the answer says whether a page was absent and whether a line was poisoned. -/
def State.storeData (s : State) (c : Coll) (d : Desc) (lo hi : Nat) (lines : List LineSeg) : State × Bool × Bool :=
  let bs := fromLines lines
  let n := packedBytes d.fmt (hi - lo)
  let w := fmtBits d.fmt
  let (s, bad) := s.storeCodes c d lo hi (unpackElems d.fmt (bs.take n) (hi - lo)) (bs.drop ((n + 127) / 128 * 128))
  let ks := (List.range (hi - lo)).filter fun j =>
    ((lines.getD (j * w / 1024) ⟨0, 0, false⟩).poison || (lines.getD ((j * w + w - 1) / 1024) ⟨0, 0, false⟩).poison)
  (s.poisonElems c d (ks.map (lo + ·)), bad, ks != [])

/-- A line of virtual memory, with its poison; none where its page cannot be read. -/
def State.vLine (s : State) (die owner va : Nat) : Option LineSeg :=
  (s.readPa die owner va).map fun pa =>
    fullLine (s.memBytes pa 128) ((List.range 4).any fun k => s.poisonAt (pa + 32 * k))

def State.vLines (s : State) (die owner va n : Nat) : List (Option LineSeg) := (List.range n).map fun k => s.vLine die owner (va + 128 * k)

/-- A line written to virtual memory with its poison flag. -/
def State.putVLine (s : State) (a : Access) (die va : Nat) (l : LineSeg) : State × Bool :=
  let e := s.vPut die a va (bytesOf l.data.toNat 128)
  let st := if l.poison then
      (match e.st.framePa die a.owner va with
       | some pa => e.st.leavePoison (sectorsOf pa 128)
       | none => e.st)
    else e.st
  (st, e.fault)

def State.putVLines (s : State) (a : Access) (die va : Nat) : List LineSeg → State × Bool
  | [] => (s, false)
  | l :: ls =>
    let (s, x) := s.putVLine a die va l
    let (s, y) := s.putVLines a die (va + 128) ls
    (s, x || y)

/-! ## The sequence ring's order (R553, R554) -/

def Coll.legA (c : Coll) : Nat := if c.dirs then c.degree / 2 else c.degree - 1
def Coll.legB (c : Coll) : Nat := if c.dirs then (c.degree - 1) / 2 else 0

/-- The last step of a traversal. -/
def Coll.lastStep (c : Coll) : Nat := if c.bwd then c.degree else c.legA

/-- The items of a rank in order: slice, half (0 the whole slice), step (R553, R554). -/
def Coll.items (c : Coll) : List (Nat × Nat × Nat) :=
  let up := fun t => c.mod (c.rank + c.degree - t)
  let down := fun t => c.mod (c.rank + t)
  if c.bwd then
    (List.range c.degree).flatMap fun i => (up (i + 1), 1, i + 1) :: (if c.dirs then [(down (i + 1), 2, i + 1)] else [])
  else
    (c.rank, 0, 0) :: (List.range c.legA).flatMap fun i =>
      (up (i + 1), 0, i + 1) :: (if i + 1 ≤ c.legB then [(down (i + 1), 0, i + 1)] else [])

/-! ## The commit point (R528) -/

/-- Whether a rank has dealt with everything before its commit point (R528). -/
def Coll.whole (c : Coll) : Bool :=
  if c.op = 6 then !c.stop && c.queued == c.items.length && c.place.isEmpty && c.step == c.lastStep
  else decide (c.need ≤ c.got)

/-- Whether a rank has nothing of its own left to write: REDUCE_SCATTER writes only its own chunk, which may be empty. -/
def Coll.wroteOwn (c : Coll) : Bool := c.op == 1 && (c.wrote || (c.chunk c.rank).1 == (c.chunk c.rank).2)

/-- Whether a rank is past its commit point: the last line it writes is accepted. -/
def State.committed (s : State) (c : Coll) : Bool := !s.collWriting c && (c.whole || c.wroteOwn)

/-! ## The end at a rank (R528, R539 to R541, R559, R561) -/

/-- The ring of a RING command's chain (R552). -/
def State.collRing (s : State) (c : Coll) : Option Stage :=
  let r : RecInst := { index := c.launch, owner := c.owner, prog := c.prog, stepRev := c.stepRev }
  let ws := s.progAt c.die c.owner c.prog (c.addrA % 2 ^ 32) 32
  (s.parseChain c.cluster r (c.addrA % 2 ^ 32) ws).1.stages.head?

/-- The chain whose head ring a RING command fills. -/
def State.fedChain (s : State) (c : Coll) : Option Chain :=
  match s.collRing c with
  | none => none
  | some g => s.chains.find? fun d => match d.stages.head? with
    | some h => h.kind == 5 && h.ringAddr == g.ringAddr && h.tokenBase == g.tokenBase
    | none => false

/-- The sequence after a collective has completed at a rank (R521, R608, R865). -/
def State.seqAfterColl (s : State) (c : Coll) (status : Nat) : State :=
  if !goodStatus status then s.failSeq c.cluster c.launch status
  else
    match s.findSeq c.cluster c.launch with
    | some q => s.setSeq { q with ops := q.ops + 1, next := c.next, commitBeam := s.beamNow, ended := q.ended || c.next == 0 }
    | none => s

/-- The link on which a rank expects its next item, within the die; 8 over UCIe (R566, R831). -/
def State.collLink (s : State) (c : Coll) : Nat :=
  let g := s.groupOf c.die c.group
  if g.pair then 8
  else
    match (List.range 8).find? fun l => g.down / 2 ^ l % 2 == 1 && s.linkState (c.die * 8 + l) == 5 with
    | some l => l
    | none =>
      match s.routeLink c.die g.prevPkg with
      | some l => l % 8
      | none => 8

/-- A rank's wait for a peer, as its collective engine traces it (R834). -/
def State.traceRank (s : State) (c : Coll) (ended : Bool) : State :=
  let g := s.groupOf c.die c.group
  s.traceWait c.die 0xA0
    (2 ^ 4 + 3 * 2 ^ 34 + g.prevPkg % 4096 * 2 ^ 37 + g.prevDie % 2 * 2 ^ 49 + s.collLink c % 16 * 2 ^ 50 + b2n ended * 2 ^ 54)
    c.owner c.launch (s.cyclesSince c.die c.waitFrom) (if c.op = 6 then c.step else c.got) c.stepRev c.opseq

/-- A collective ends at a rank with a status: counted, its completion record written, its neighbours told where the cause is of this
rank (R559), the chain it feeds ended with it (R561). -/
def State.endColl (s : State) (c : Coll) (status : Nat) (tell : Bool) : State :=
  let s := if goodStatus status then s else s.traceRank c true
  let s := s.dropColl c
  let s := s.bump .collOpCnt c.die 0 1
  let s := if status = stAborted then s.bump .collAbortCnt c.die 0 1 else s
  let s := if status = stPeerLost then s.bump .collPeerLostCnt c.die 0 1 else s
  let s := if tell && (status == stAborted || status == stPeerLost || status == stGenMismatch) then
      (s.sendAbort c true status).sendAbort c false status
    else s
  let s := s.rankRecord c.die c.owner c.launch status c.lines c.stepRev
  let s := if c.op = 6 && !goodStatus status then
      (match s.collRing c with
       | some g => s.emptyRing g
       | none => s)
    else s
  let s := if c.op = 6 && !goodStatus status then
      (match s.fedChain c with
       | some d => s.endChain d status 0
       | none => s)
    else s
  s.seqAfterColl c status

/-- A PERMUTE whose staging frames are not to be had ends with TIER_FAIL (R550). -/
def State.permuteStarved (s : State) (cluster launch : Nat) : State :=
  match s.findColl cluster launch with
  | some c => if c.op = 4 then s.endColl c stTierFail true else s
  | none => s

/-- The bits of an owner in COLL_NF_SEEN or COLL_NF_GATE of both dies. -/
def State.ownerBit (s : State) (r : Reg) (owner : Nat) (v : Bool) : State :=
  let put (s : State) (d : Nat) : State := s.wr r d 0 (withBits (s.rd r d) owner 1 (b2n v))
  put (put s 0) 1

/-- R541: the loss-scale record updated by a gating reduction. -/
def State.lossScale (s : State) (c : Coll) : State :=
  if c.lsAddr = 0 then s
  else
    let va := c.lsAddr / 16 * 16
    let w0 := s.virtWord c.die c.owner va
    let w1 := s.virtWord c.die c.owner (va + 8)
    let scale := BitVec.ofNat 32 (bitsOf w0 0 32)
    let clean := bitsOf w0 32 32
    let interval := bitsOf w1 0 32
    let (sc, cl) :=
      if c.nf then (f32mul scale half32, 0)
      else
        let n := (clean + 1) % 2 ^ 32
        if interval ≠ 0 ∧ interval ≤ n then
          let d := f32mul scale 0x40000000#32
          (if (dec32 d).isInf && !(dec32 d).sign then scale else d, 0)
        else (scale, n)
    s.virtWrite c.access c.die va (bytesOf (sc.toNat + cl * 2 ^ 32) 8)

/-- The generation stamp of the rank's own shard (R544). -/
def State.ownStamp (s : State) (c : Coll) : Nat := bitsOf (s.virtWord c.die c.owner (c.addrA / 8 * 8)) 0 32

/-- R538 to R541: what a reduction does at its completion, and its status. One that ends with POISON_CONSUMED keeps the gate and adds to
COLL_NF_SEEN (R539, log entry 92). -/
def State.reduceEnd (s : State) (c : Coll) (status : Nat) : State × Nat :=
  let s := if c.nf then (s.ownerBit .collNfSeen c.owner true).bump .collNonfiniteCnt c.die 0 1 else s
  if !c.nfGate || status == stPoisonConsumed then (s, status)
  else
    let s := s.ownerBit .collNfGate c.owner c.nf
    let s := s.ownerBit .collNfSeen c.owner false
    (s.lossScale c, if status = stOk && c.nf then stNonfiniteSkip else status)

/-- A rank past its commit point completes; with ALREADY_DONE where an abort or a lost peer met it there (R545, R559, R625). -/
def State.completeColl (s : State) (c : Coll) : State :=
  let st := if c.late then stAlreadyDone else if c.poison then stPoisonConsumed else stOk
  let (s, st) := if c.reduces then s.reduceEnd c st else (s, st)
  let s := if c.op = 2 ∧ c.genMode = 1 then s.virtWrite c.access c.die c.genRec (bytesOf (s.ownStamp c) 8) else s
  s.endColl c st false

/-- An abort reaches a running collective: past its commit point it will record ALREADY_DONE, before it a RING command stops at its next
step boundary, and any other ends at once (R557, R559). -/
def State.abortColl (s : State) (c : Coll) : State :=
  if s.committed c then s.setColl { c with late := true }
  else if c.op = 6 then s.setColl { c with stop := true }
  else s.endColl c stAborted true

/-- A rank's peer is lost (R515, R560): what it waits for never comes, so past its commit point it completes with ALREADY_DONE, and a stop
that came first stands (R559). -/
def State.loseColl (s : State) (c : Coll) : State :=
  if s.committed c then s.completeColl { c with late := true }
  else s.endColl c (if c.stop then stAborted else stPeerLost) true

/-- Collectives of sequences that have ended meanwhile are aborted (R608). -/
def State.settleColls (s : State) : State :=
  s.coll.running.foldl (fun s c =>
    match s.findSeq c.cluster c.launch with
    | some q => if q.ended && !c.stop && !c.late then s.abortColl c else s
    | none => s) s

end Sys2Proof.Machine
end

