-- ==== Sys2Proof/Machine/Coll.lean ====
section
/-!
DEFINITION. Collectives (spec/11_collectives_and_mapping.md R521 to R563): the collective commands, ring and exact reductions, gathers,
exchanges, the sequence ring, their messages, commits and ends, and writes of group entries (R515, R666).
-/
namespace Sys2Proof.Machine

/-! ## The command (R521 to R523) -/

/-- A field kept where a condition holds and read as 0 otherwise, with the clamp that takes (R523). -/
def fieldIf (ok : Bool) (v : Nat) : Nat × Nat := if ok || v == 0 then (v, 0) else (0, 1)

/-- A descriptor index of a table of `n`, read as the last at or above it, where the operation uses it (R523). -/
def descIndex (used : Bool) (n i : Nat) : Nat × Nat := if used && decide (n ≤ i) then (n - 1, 1) else (i, 0)

/-- R521, R523: a collective command image of eight words, with the clamps it takes. -/
def State.parseColl (s : State) (cluster : Nat) (r : RecInst) (ws : List Word) : Coll × Nat :=
  let die := cluDie cluster
  let w := fun k => ws.getD k 0#64
  let op0 := bitsOf (w 0) 4 4
  let op := min 7 op0
  let red := decide (op ≤ 1)
  let (mode, n1) := fieldIf red (bitsOf (w 0) 8 1)
  let (nfIn, n2) := fieldIf red (bitsOf (w 0) 9 1)
  let (nfGate, n3) := fieldIf red (bitsOf (w 0) 10 1)
  let gm0 := bitsOf (w 0) 11 2
  let (gm, n4) := fieldIf (op == 2 && gm0 != 3) gm0
  let (bwd, n5) := fieldIf (op == 6) (bitsOf (w 0) 13 1)
  let gid := bitsOf (w 0) 16 8
  let g := s.groupOf die gid
  let root0 := bitsOf (w 3) 0 12
  let ndesc := max 1 (bitsOf (w 4) 48 16)
  let moves := decide (op ≤ 5)
  let (src, n6) := descIndex (op != 7) ndesc (bitsOf (w 1) 0 16)
  let (dst, n7) := descIndex moves ndesc (bitsOf (w 1) 16 16)
  let (aux, n8) := descIndex (op == 4 || (op == 6 && bwd == 1)) ndesc (bitsOf (w 1) 32 16)
  let c : Coll :=
    { die := die, cluster := cluster, launch := r.index, owner := r.owner, stepRev := r.stepRev, prog := r.prog, group := gid,
      opseq := lookupD 0 (die * 256 + gid) s.coll.issued, memberGen := g.gen, degree := g.degree, rank := g.rank, dirs := g.dirs,
      op := op, exact := mode == 1, nfIn := nfIn == 1, nfGate := nfGate == 1, genMode := gm, bwd := bwd == 1,
      elems := bitsOf (w 0) 32 32 + 1, srcDesc := src, dstDesc := dst, auxDesc := aux, pieceLines := bitsOf (w 1) 48 12 + 1,
      next := bitsOf (w 2) 0 32, root := min root0 (g.degree - 1), descTable := bitsOf (w 4) 0 48, ndesc := ndesc,
      addrA := bitsOf (w 5) 0 48, lsAddr := bitsOf (w 6) 0 48, genRec := bitsOf (w 7) 0 48 / 8 * 8, waitFrom := s.beamNow }
  let sd := s.collDesc c c.srcDesc
  let dd := s.collDesc c c.dstDesc
  let other := moves && decide (2 ≤ op) && (sd.1.fmt != dd.1.fmt || sd.1.mx != dd.1.mx)
  let auxClamps := if op == 4 || (op == 6 && bwd == 1) then (s.collDesc c c.auxDesc).2 else 0
  (c, b2n (decide (7 < op0)) + n1 + n2 + n3 + n4 + n5 + n6 + n7 + n8 + b2n (decide (g.degree ≤ root0)) +
    (if op = 7 then 0 else sd.2) + (if moves then dd.2 else 0) + auxClamps + b2n other)

/-- The pieces of `[lo, hi)`: index, first element, end. -/
def piecesIn (lo hi per : Nat) : List (Nat × Nat × Nat) :=
  (List.range (pieceCount (hi - lo) per)).map fun i => (i, lo + i * per, min hi (lo + (i + 1) * per))

/-- Lines that elements `[lo, hi)` of a tensor touch, their scale bytes' with them. -/
def linesOf (d : Desc) (lo hi : Nat) : Nat :=
  (rowsOf d lo hi).foldl (fun n row =>
    match row.2.head?, row.2.getLast? with
    | some a, some b =>
      let first := d.rowAddr row.1 + a * fmtBits d.fmt / 8
      let last := d.rowAddr row.1 + (b * fmtBits d.fmt + fmtBits d.fmt - 1) / 8
      n + (last / 128 + 1 - first / 128) +
        (if d.mx then d.scaleAddr row.1 b / 128 + 1 - d.scaleAddr row.1 a / 128 else 0)
    | _, _ => n) 0

/-! ## Sums of reductions (R529 to R533) -/

def Coll.sumBytes (c : Coll) : Nat := if c.exact then 8 else 4

/-- floor(|x| * 2^(50 - E)) with x's sign, as 64-bit two's complement; 0 for a non-finite x (R533). -/
def fixedTerm (e : Int) (v : Val) : Nat :=
  match v with
  | .fin neg man exp =>
    let k := exp + 50 - e
    let m := if 0 ≤ k then man * 2 ^ k.toNat else man / 2 ^ (-k).toNat
    if neg then (2 ^ 64 - m % 2 ^ 64) % 2 ^ 64 else m % 2 ^ 64
  | _ => 0

/-- The pre-pass result of a block (R532). -/
def Coll.blockPre (c : Coll) (b : Nat) : BlockPre := lookupD {} b c.pre

/-- A rank's own term for element `k`: binary32, or fixed point in exact mode. -/
def State.ownTerm (s : State) (c : Coll) (k : Nat) : Nat :=
  let v := s.valAt c (s.srcOf c) k
  if c.exact then
    (match (c.blockPre (k / 256)).e with
     | some e => fixedTerm e v
     | none => 0)
  else (rne32 v).toNat

/-- Two terms added: exactly, or by binary32 addition, the partial sum first (R529, R533). -/
def Coll.addTerms (c : Coll) (a b : Nat) : Nat :=
  if c.exact then (a + b) % 2 ^ 64 else (f32add (BitVec.ofNat 32 a) (BitVec.ofNat 32 b)).toNat

/-- The sums of `[lo, hi)` with their poison at a rank: its own terms, added to an arriving piece's. -/
def State.sumsOf (s : State) (c : Coll) (lo hi : Nat) (prev : Option (List LineSeg)) : List (Nat × Bool) :=
  let n := c.sumBytes
  (List.range (hi - lo)).map fun j =>
    let own := s.ownTerm c (lo + j)
    let p := s.elemPoison c (s.srcOf c) (lo + j)
    match prev with
    | none => (own, p)
    | some ls => (c.addTerms (natOfBytes (((fromLines ls).drop (n * j)).take n)) own, p || (ls.getD (n * j / 128) ⟨0, 0, false⟩).poison)

def Coll.sumLines (c : Coll) (xs : List (Nat × Bool)) : List LineSeg :=
  let per := 128 / c.sumBytes
  toLines (xs.flatMap fun x => bytesOf x.1 c.sumBytes) fun i => ((xs.drop (i * per)).take per).any (·.2)

/-- R533: the result of an element in exact mode from its block's pre-pass and its fixed-point sum. -/
def exactElem (p : BlockPre) (i f : Nat) : F32 :=
  if p.nan.getLsbD i || (p.pinf.getLsbD i && p.ninf.getLsbD i) then nan32
  else if p.pinf.getLsbD i then 0x7F800000#32
  else if p.ninf.getLsbD i then 0xFF800000#32
  else
    match p.e with
    | none => 0#32
    | some e =>
      if f = 0 then 0#32
      else if 2 ^ 63 ≤ f then rne32 (.fin true (2 ^ 64 - f) (e - 50))
      else rne32 (.fin false f (e - 50))

/-- Sums of the rank's own chunk as results. -/
def Coll.resultsOf (c : Coll) (lo : Nat) (xs : List (Nat × Bool)) : List CollElem :=
  xs.zipIdx.map fun x =>
    let k := lo + x.2
    { index := k, poison := x.1.2,
      value := if c.exact then exactElem (c.blockPre (k / 256)) (k % 256) x.1.1 else BitVec.ofNat 32 x.1.1 }

/-- A rank's first pieces: part 1 of chunk r - 1 through the UP links, part 2 of chunk r + 1 through the DOWN links (R529, R530). -/
def State.startSums (s : State) (c : Coll) : State :=
  let send (s : State) (p : Nat) : State :=
    let k := if p = 1 then c.mod (c.rank + c.degree - 1) else c.mod (c.rank + 1)
    let (lo, hi) := c.part k p
    (piecesIn lo hi c.sumsPer).foldl (fun s x =>
      s.sendPiece c (p == 1) 12 x.1 k 1 p 0 (c.sumLines (s.sumsOf c x.2.1 x.2.2 none))) s
  let s := send s 1
  if c.dirs then send s 2 else s

/-! ## Gathers (R530, R544, R545) -/

/-- A chunk's pieces in both directions: index, whether UP, first element, end; the second half's indices follow the first half's. -/
def Coll.gatherPieces (c : Coll) (d : Desc) (k : Nat) : List (Nat × Bool × Nat × Nat) :=
  let per := c.codesPer d.fmt
  let (lo, hi) := c.chunk k
  let m := lo + c.firstHalf (hi - lo)
  let a := piecesIn lo m per
  a.map (fun x => (x.1, true, x.2.1, x.2.2)) ++ (piecesIn m hi per).map fun x => (a.length + x.1, false, x.2.1, x.2.2)

/-- An owner's chunk sent round the ring, its elements read from a tensor whose element 0 is element `off` of the whole (R530). -/
def State.sendChunk (s : State) (c : Coll) (d : Desc) (off k part stamp : Nat) (poisoned : Nat → Bool) (ovl : Overlay := []) : State :=
  (c.gatherPieces d k).foldl (fun s x =>
    s.sendPiece c x.2.1 12 x.1 k 1 part stamp (s.dataLines c d (x.2.2.1 - off) (x.2.2.2 - off) poisoned ovl)) s

/-- Pieces that a rank still has to deal with before its commit point, for what travels round the ring by chunks. -/
def Coll.gatherNeed (c : Coll) (d : Desc) : Nat :=
  if c.op = 5 then (if c.rank = c.root then 0 else (c.gatherPieces d c.root).length)
  else ((List.range c.degree).filter (· != c.rank)).foldl (fun n k => n + (c.gatherPieces d k).length) 0

/-- The reduction's pieces that reach a rank: of every chunk's part but those it starts. -/
def Coll.sumNeed (c : Coll) : Nat :=
  (List.range c.degree).foldl (fun n k =>
    let count := fun p => let (lo, hi) := c.part k p; pieceCount (hi - lo) c.sumsPer
    n + (if c.rank = c.mod (k + 1) then 0 else count 1) +
      (if !c.dirs || c.rank == c.mod (k + c.degree - 1) then 0 else count 2)) 0

/-- Pre-pass blocks to a piece, each of two bytes of E, a flag byte and at most 96 bytes of element bits. -/
def Coll.prePer (c : Coll) : Nat := max 1 (c.pieceLines * 128 / 99)

/-- The blocks of a chunk. -/
def Coll.chunkBlocks (c : Coll) (k : Nat) : Nat × Nat :=
  let (lo, hi) := c.chunk k
  (lo / 256, (hi + 255) / 256)

def Coll.prePieces (c : Coll) (k : Nat) : List (Nat × Nat × Nat) :=
  let (lo, hi) := c.chunkBlocks k
  if (c.chunk k).1 < (c.chunk k).2 then piecesIn lo hi c.prePer else []

def Coll.preNeed (c : Coll) : Nat :=
  (List.range c.degree).foldl (fun n k =>
    n + (if c.rank = c.mod (k + 1) then 0 else (c.prePieces k).length) + (if c.rank = k then 0 else (c.prePieces k).length)) 0

/-- The destination's lines that a stretch of a collective's data makes, counted to the rank's record; `bad` ends it with PAGE_FAULT. -/
def State.collWrote (s : State) (c : Coll) (lines : Nat) (bad poison : Bool) : State :=
  let c := { c with lines := c.lines + lines, poison := c.poison || poison }
  let s := s.setColl c
  if bad then s.clearFailed.endColl c s.faultStatus false else s

/-- R526, R527: the results of the rank's own chunk, once complete, converted through the destination and written; in ALL_REDUCE the
converted codes then travel on. -/
def State.writeResults (s : State) (c : Coll) : State :=
  let (lo, hi) := c.chunk c.rank
  if c.results.length < hi - lo || lo == hi then s
  else
    let d := s.dstOf c
    let off := d.idxOff
    let elem := fun k => (c.results.find? fun e => e.index == k).getD ⟨k, 0#32, false⟩
    let rows := (rowsOf d (lo - off) (hi - off)).map fun row =>
      (row.1, row.2.map fun j => (j, dec32 (elem (off + row.1 * d.cnt0 + j)).value))
    let e := s.streamRows c.die c.stepRev c.access d rows
    let bad := lineMates d (lo - off) (hi - off) ((c.results.filter (·.poison)).map fun x => x.index - off)
    let s := e.st.poisonElems c d bad
    let c := { c with results := [], wrote := true }
    let s := if c.op = 0 && !e.fault then s.sendChunk c d 0 c.rank 3 0 bad.contains (s.writtenView c d lo hi) else s
    s.collWrote c (linesOf d (lo - off) (hi - off)) e.fault (bad != [])

/-! ## The pre-pass of exact mode (R532) -/

/-- A rank's own pre-pass values of a block. -/
def State.ownPre (s : State) (c : Coll) (b : Nat) : BlockPre :=
  let d := s.srcOf c
  (List.range (min 256 (c.elems - 256 * b))).foldl (fun p i =>
    match s.valAt c d (256 * b + i) with
    | .nan => { p with nan := p.nan ||| 1#256 <<< i }
    | .inf neg => if neg then { p with ninf := p.ninf ||| 1#256 <<< i } else { p with pinf := p.pinf ||| 1#256 <<< i }
    | .fin _ man exp =>
      if man = 0 then p
      else
        let e := floorLog2 man exp
        { p with e := some (match p.e with
            | some x => max x e
            | none => e) }) {}

def BlockPre.join (a b : BlockPre) : BlockPre :=
  { e := (match a.e, b.e with
      | some x, some y => some (max x y)
      | some x, none => some x
      | none, y => y),
    nan := a.nan ||| b.nan, pinf := a.pinf ||| b.pinf, ninf := a.ninf ||| b.ninf }

/-- A block on the wire: E + 32768 in two bytes, 0 for none; a byte that says whether element bits follow; those bits. -/
def BlockPre.bytes (p : BlockPre) : List Byte :=
  let e := match p.e with
    | some x => (x + 32768).toNat
    | none => 0
  let any := p.nan ||| p.pinf ||| p.ninf
  bytesOf e 2 ++ bytesOf (b2n (any != 0)) 1 ++
    (if any = 0 then [] else bytesOf p.nan.toNat 32 ++ bytesOf p.pinf.toNat 32 ++ bytesOf p.ninf.toNat 32)

/-- The blocks of a pre-pass piece. -/
def readPres : Nat → List Byte → List BlockPre
  | 0, _ => []
  | n + 1, bs =>
    let e := natOfBytes (bs.take 2)
    let p : BlockPre := { e := if e = 0 then none else some ((e : Int) - 32768) }
    if natOfBytes ((bs.drop 2).take 1) = 0 then p :: readPres n (bs.drop 3)
    else
      let part := fun k => BitVec.ofNat 256 (natOfBytes ((bs.drop (3 + 32 * k)).take 32))
      { p with nan := part 0, pinf := part 1, ninf := part 2 } :: readPres n (bs.drop 99)

def preLines (ps : List BlockPre) : List LineSeg := toLines (ps.flatMap BlockPre.bytes) fun _ => false

def Coll.putPre (c : Coll) (lo : Nat) (ps : List BlockPre) : Coll :=
  { c with pre := ps.zipIdx.foldl (fun m p => insertPre (lo + p.2) p.1 m) c.pre }
where
  insertPre (b : Nat) (p : BlockPre) (m : List (Nat × BlockPre)) : List (Nat × BlockPre) := m.filter (fun x => x.1 != b) ++ [(b, p)]

/-- The data follow once every block's pre-pass result has come (R533). -/
def State.afterPre (s : State) (c : Coll) : State :=
  if !c.dataSent && decide ((c.elems + 255) / 256 ≤ c.pre.length) then
    let c := { c with dataSent := true }
    (s.setColl c).startSums c
  else s.setColl c

/-! ## Exchanges by the member list (R522, R548 to R551) -/

/-- Chunk `k` of the source, which ALL_TO_ALL places at the position of the source's rank `q`: first element and end there. -/
def Coll.exchangePlace (c : Coll) (k q : Nat) : Nat × Nat :=
  let (lo, hi) := c.chunk k
  (q * c.chunkSize, q * c.chunkSize + (hi - lo))

/-- ALL_TO_ALL's sends, its own chunk copied in place (R522). -/
def State.startExchange (s : State) (c : Coll) : State :=
  let src := s.srcOf c
  let per := c.codesPer src.fmt
  let parts : List (Nat × List (Nat × Nat × Nat × List LineSeg)) := (List.range c.degree).map fun k =>
    let (lo, hi) := c.chunk k
    (k, (piecesIn lo hi per).map fun x => (x.1, x.2.1 - lo, x.2.2 - lo, s.dataLines c src x.2.1 x.2.2 (s.elemPoison c src)))
  parts.foldl (fun s p =>
    if p.1 = c.rank then
      let base := c.rank * c.chunkSize
      p.2.foldl (fun s x =>
        match s.findColl c.cluster c.launch with
        | none => s
        | some c =>
          let d := s.dstOf c
          let (s, bad, poi) := s.storeData c d (base + x.2.1) (base + x.2.2.1) x.2.2.2
          s.collWrote c (linesOf d (base + x.2.1) (base + x.2.2.1)) bad poi) s
    else p.2.foldl (fun s x => s.sendRank c p.1 x.1 c.rank 0 x.2.2.2) s) s

/-- The permute table (R548): destination rank and position by entry, with the clamps. -/
def State.permTable (s : State) (c : Coll) : List (Nat × Nat) × Nat :=
  let base := (s.collDesc c c.auxDesc).1.base
  (List.range (c.degree * c.elems)).foldl (fun acc i =>
    let w := s.virtWord c.die c.owner (base + 8 * i)
    let r := bitsOf w 0 12
    let q := bitsOf w 12 20
    (acc.1 ++ [(min r (c.degree - 1), min q (c.elems - 1))],
     acc.2 + b2n (decide (c.degree ≤ r)) + b2n (decide (c.elems ≤ q)))) ([], 0)

/-- Whether the permute table's pages are present. -/
def State.permTableHere (s : State) (c : Coll) : Bool :=
  let base := (s.collDesc c c.auxDesc).1.base
  (List.range (c.degree * c.elems)).all fun i => (s.readPa c.die c.owner (base + 8 * i)).isSome

/-- The entry that a position of a rank receives: the highest of those that name it (R551). -/
def permWinner (table : List (Nat × Nat)) (rank pos : Nat) : Option Nat :=
  (List.range table.length).foldl (fun acc i => if table[i]? = some (rank, pos) then some i else acc) none

/-- A chunk of lines of a PERMUTE written at its position (R549, R551). -/
def State.putPermChunk (s : State) (c : Coll) (pos : Nat) (lines : List LineSeg) : State :=
  let base := (s.dstOf c).base
  let (s, bad) := s.putVLines c.access c.die (base + pos * c.pieceLines * 128) lines
  s.collWrote c lines.length bad (lines.any (·.poison))

/-- PERMUTE's sends (R549). Every chunk is read before any is written, as the rounds and their staging have it. -/
def State.startPermute (s : State) (c : Coll) : State :=
  let (table, n) := s.permTable c
  let s := s.clamped c.cluster n
  let base := (s.srcOf c).base
  let reads := (List.range c.elems).map fun k =>
    (k, (s.vLines c.die c.owner (base + k * c.pieceLines * 128) c.pieceLines))
  if (reads.any fun r => r.2.any (·.isNone)) || !s.permTableHere c then s.endColl c stPageFault false
  else
    let c := { c with need := (List.range table.length).countP fun i =>
      i / c.elems != c.rank && (table.getD i (0, 0)).1 == c.rank }
    let s := (s.setColl c).readVLines c base (c.elems * c.pieceLines)
    reads.foldl (fun s r =>
      let i := c.rank * c.elems + r.1
      let (q, pos) := table.getD i (0, 0)
      let lines := r.2.filterMap id
      if q = c.rank then
        (match s.findColl c.cluster c.launch with
         | some c => if permWinner table q pos = some i then s.putPermChunk c pos lines else s
         | none => s)
      else
        let (pkg, die) := s.member (s.groupOf c.die c.group) q
        let h := collHeader 12 pkg s.ownPkg die c.die c.group c.memberGen c.owner pos c.rank r.1 0 false 0 0 c.opseq lines.length
        (s.bump .collPieceTxCnt c.die 0 1).post c.die h lines) s

/-! ## The sequence ring (R552 to R557) -/

/-- The lines of a slice held whole. -/
def Coll.sliceLines (c : Coll) (slice : Nat) : Option (List LineSeg) :=
  let n := pieceCount c.elems c.pieceLines
  (List.range n).foldl (fun acc i =>
    match acc, c.kv.find? (fun p => p.1 == slice * 2 ^ 24 + i) with
    | some ls, some p => some (ls ++ p.2)
    | _, _ => none) (some [])

/-- The lines of an item: a whole slice or one of its halves, with DIRS = 0 the first half the whole (R554). -/
def Coll.itemLines (c : Coll) (slice half : Nat) : Option (List LineSeg) :=
  (c.sliceLines slice).map fun ls =>
    let m := if c.dirs then (ls.length + 1) / 2 else ls.length
    if half = 0 then ls else if half = 1 then ls.take m else ls.drop m

/-- The elements of an accumulator half in the tensor of AUX_DESC. -/
def Coll.accRange (c : Coll) (d : Desc) (half : Nat) : Nat × Nat :=
  let n := d.cnt0 * d.rows
  let m := if c.dirs then (n + 1) / 2 else n
  if half = 1 then (0, m) else (m, n)

def State.auxOf (s : State) (c : Coll) : Desc := (s.collDesc c c.auxDesc).1

/-- Pieces of an accumulator half. -/
def State.accPieces (s : State) (c : Coll) (half : Nat) : List (Nat × Nat × Nat) :=
  let d := s.auxOf c
  let (lo, hi) := c.accRange d half
  piecesIn lo hi (c.codesPer d.fmt)

/-- Whether an item's accumulator half has arrived; that of step 1 starts here (R554). -/
def State.accHere (s : State) (c : Coll) (half step : Nat) : Bool :=
  !c.bwd || step ≤ 1 || decide ((s.accPieces c half).length ≤ lookupD 0 (step * 4 + half) c.acc)

/-- Items that are due and whole handed to placing, in order; `fuel` bounds them. -/
def State.queueItems (s : State) (c : Coll) : Nat → Coll
  | 0 => c
  | fuel + 1 =>
    match c.items[c.queued]? with
    | none => c
    | some (slice, half, step) =>
      match c.itemLines slice half with
      | some ls =>
        if step ≤ c.step && s.accHere c half step then
          s.queueItems { c with queued := c.queued + 1, place := c.place ++ [⟨slice, ls⟩] } fuel
        else c
      | none => c

/-- Whether a slice is still to be forwarded at the next boundary. -/
def Coll.toForward (c : Coll) (slice : Nat) : Bool :=
  (decide (c.step < c.legA) && slice == c.mod (c.rank + c.degree - c.step)) ||
  (decide (c.step < c.legB) && slice == c.mod (c.rank + c.step))

/-- Queued items placed into EMPTY slots of the head ring, in order (R335, R336, R552): the token goes EMPTY, FILLING, FULL. -/
def State.placeItems (s : State) (cluster launch : Nat) : Nat → State
  | 0 => s
  | fuel + 1 =>
    match s.findColl cluster launch with
    | none => s
    | some c =>
      match s.collRing c, c.place with
      | some g, it :: rest =>
        let slot := c.placed % g.nslots
        if !s.headEmpty g slot then s
        else
          let bs := (fromLines it.lines).take g.slotBytes
          let s := s.devWrite c.access (g.slotAddr c.placed) bs
          let s := it.lines.zipIdx.foldl (fun s l =>
            if l.1.poison && decide (l.2 < g.slotLines) then
              s.leavePoison (sectorsOf (g.slotAddr c.placed + 128 * l.2) 128)
            else s) s
          let s := s.headFull g slot
          let c' := { c with place := rest, placed := c.placed + 1, lines := c.lines + it.lines.length,
                             poison := c.poison || it.lines.any (·.poison),
                             hold := if c.toForward it.slice then setInsert slot c.hold else c.hold }
          (s.setColl c').placeItems cluster launch fuel
      | _, _ => s

/-- A RING command moved on as far as what it holds allows. -/
def State.advanceRing (s : State) (c : Coll) : State :=
  let n := c.items.length + 1
  let c := s.queueItems c n
  (s.setColl c).placeItems c.cluster c.launch n

/-- The accumulator halves of a rank start from -0 (R554). -/
def State.clearAcc (s : State) (c : Coll) : State :=
  let d := s.auxOf c
  let n := d.cnt0 * d.rows
  (s.storeCodes c d 0 n (List.replicate n (2 ^ (fmtBits d.fmt - 1))) []).1

/-- The blocks of a slice sent to a neighbour with their next step. -/
def State.sendSlice (s : State) (c : Coll) (up : Bool) (slice : Nat) : State :=
  (List.range (pieceCount c.elems c.pieceLines)).foldl (fun s i =>
    match c.kv.find? fun p => p.1 == slice * 2 ^ 24 + i with
    | some p => s.sendPiece c up 14 i slice (c.step + 1) 0 0 p.2
    | none => s) s

/-- An accumulator half sent on: the first UP, the second DOWN (R554). -/
def State.sendAcc (s : State) (c : Coll) (half slice : Nat) : State :=
  let d := s.auxOf c
  (s.accPieces c half).foldl (fun s x =>
    s.sendPiece c (half == 1) 14 x.1 slice (c.step + 1) half 0 (s.dataLines c d x.2.1 x.2.2 (s.elemPoison c d))) s

/-- RING begun: the own slice read, and placed at step 0 of a forward (R552, R553). A backward of one rank is at its step 1 at once. -/
def State.startRing (s : State) (c : Coll) : State :=
  let base := (s.srcOf c).base
  let ls := s.vLines c.die c.owner base c.elems
  if ls.any (·.isNone) then s.endColl c stPageFault false
  else
    let s := s.readVLines c base c.elems
    let lines := ls.filterMap id
    let kv := (List.range (pieceCount c.elems c.pieceLines)).map fun i =>
      (c.rank * 2 ^ 24 + i, (lines.drop (i * c.pieceLines)).take c.pieceLines)
    let (addr, tok) := match s.collRing c with
      | some g => (g.ringAddr, g.tokenBase)
      | none => (0, 0)
    let c := { c with kv := kv, ringAddr := addr, tokenBase := tok, step := if c.bwd && c.degree == 1 then 1 else 0 }
    let s := if c.bwd && c.degree == 1 then s.clearAcc c else s
    s.advanceRing c

/-! ## Beginning a collective -/

/-- Whether the source elements that a command reads lie in present pages. -/
def State.collSourceOk (s : State) (c : Coll) : Bool :=
  let d := s.srcOf c
  if c.op = 2 then let (lo, hi) := c.chunk c.rank; s.elemsPresent c d 0 (hi - lo)
  else if c.op = 5 then c.rank != c.root || s.elemsPresent c d 0 c.elems
  else s.elemsPresent c d 0 c.elems

/-- The rank's local flag (R537): a non-finite element of the whole source, or the owner's COLL_NF_SEEN bit with NF_IN. -/
def State.localFlag (s : State) (c : Coll) : Bool :=
  let d := s.srcOf c
  (List.range c.elems).any (fun k => (s.valAt c d k).nonfinite) || (c.nfIn && bitOf (s.rd .collNfSeen c.die) c.owner)

/-- ALL_REDUCE and REDUCE_SCATTER begun (R526, R529, R532). -/
def State.startReduce (s : State) (c : Coll) : State :=
  let nf := s.localFlag c
  let d := s.dstOf c
  let c := { c with nf := nf }
  if c.degree = 1 then
    let c := if c.exact then (List.range ((c.elems + 255) / 256)).foldl (fun c b => c.putPre b [s.ownPre c b]) c else c
    let c := { c with results := c.resultsOf 0 (s.sumsOf c 0 c.elems none), dataSent := true }
    (s.setColl c).writeResults c
  else
    let c := { c with need := c.sumNeed + (if c.op = 0 then c.gatherNeed d else 0) + (if c.exact then c.preNeed else 0) }
    let s := s.setColl c
    if c.exact then
      let k := c.mod (c.rank + c.degree - 1)
      (c.prePieces k).foldl (fun s x =>
        s.sendPiece c true 13 x.1 k 1 0 0 (preLines ((List.range (x.2.2 - x.2.1)).map fun j => s.ownPre c (x.2.1 + j)))) s
    else
      let c := { c with dataSent := true }
      (s.setColl c).startSums c

/-- ALL_GATHER and BROADCAST begun: the owner's chunk copied to its place and sent round (R522, R525, R544). -/
def State.startGather (s : State) (c : Coll) : State :=
  let src := s.srcOf c
  let d := s.dstOf c
  let c := { c with need := c.gatherNeed d }
  let s := s.setColl c
  let k := if c.op = 5 then c.root else c.rank
  if k ≠ c.rank then s
  else
    let (lo, hi) := c.chunk k
    let off := if c.op = 5 then 0 else c.rank * c.chunkSize
    let lines := s.dataLines c src (lo - off) (hi - off) (s.elemPoison c src)
    let stamp := if c.op = 2 then s.ownStamp c else 0
    let s := if c.degree = 1 then s else s.sendChunk c src off k 0 stamp (s.elemPoison c src)
    let (s, bad, poi) := s.storeData c d lo hi lines
    s.collWrote c (if lo < hi then linesOf d lo hi else 0) bad poi

/-- The reads of a command's source elements: twice in exact mode, for the pre-pass and for the sums (R532, R533). -/
def State.collReads (s : State) (c : Coll) : State :=
  let d := s.srcOf c
  if c.op = 2 then let (lo, hi) := c.chunk c.rank; s.readElems c d 0 (hi - lo)
  else if c.op = 5 ∧ c.rank ≠ c.root then s
  else
    let s := s.readElems c d 0 c.elems
    if c.exact then s.readElems c d 0 c.elems else s

def State.startColl (s : State) (c : Coll) : State :=
  if c.op = 7 then s.endColl c (if bitOf (s.rd .collNfGate c.die) c.owner then stNonfiniteSkip else stOk) false
  else if c.op = 6 then s.startRing c
  else if c.op = 4 then s.startPermute c
  else if !s.collSourceOk c then s.endColl c stPageFault false
  else
  let s := s.collReads c
  if c.op = 3 then
    let parts := (List.range c.degree).filter (· != c.rank)
    let per := c.codesPer (s.srcOf c).fmt
    let c := { c with need := parts.foldl (fun n _ => let (lo, hi) := c.chunk c.rank; n + pieceCount (hi - lo) per) 0 }
    (s.setColl c).startExchange c
  else if c.op = 2 ∨ c.op = 5 then s.startGather c
  else s.startReduce c

/-! ## Pieces that arrive (R515, R527, R530, R532, R545, R553, R563) -/

def State.holdPiece (s : State) (die : Nat) (h : Words4) (lines : List LineSeg) : State :=
  { s with coll := { s.coll with early := s.coll.early ++ [⟨die, h, lines⟩] } }

/-- A piece of partial sums (R529, R530, R537): the rank's terms added; passed on, or at the chunk's owner made results. -/
def State.takeSum (s : State) (c : Coll) (h : Words4) (lines : List LineSeg) : State :=
  let k := collChunk h
  let p := collPart h
  let (lo, hi) := c.part k p
  match (piecesIn lo hi c.sumsPer)[collPiece h]? with
  | none => s
  | some (i, a, b) =>
    let xs := s.sumsOf c a b (some lines)
    let c := { c with got := c.got + 1, nf := c.nf || collNf h }
    if k = c.rank then
      let c := { c with results := c.results ++ c.resultsOf a xs }
      (s.setColl c).writeResults c
    else (s.setColl c).sendPiece c (p == 1) 12 i k (collStep h + 1) p 0 (c.sumLines xs)

/-- A piece of a gather or broadcast (R526, R530, R545): written at its place and passed on to the ranks before its owner. -/
def State.takeGather (s : State) (c : Coll) (h : Words4) (lines : List LineSeg) : State :=
  let k := collChunk h
  let owner := if c.op = 5 then c.root else k
  let d := s.dstOf c
  let want := if c.genMode = 1 then s.ownStamp c else bitsOf (s.virtWord c.die c.owner c.genRec) 0 32
  if c.op = 2 ∧ c.genMode ≠ 0 ∧ collStamp h ≠ want then
    (s.bump .collGenMismatchCnt c.die 0 1).endColl c stGenMismatch true
  else if owner = c.rank then s
  else
    match (c.gatherPieces d k)[collPiece h]? with
    | none => s
    | some (i, up, lo, hi) =>
      let c := { c with got := c.got + 1, nf := c.nf || collNf h }
      let next := if up then c.mod (c.rank + 1) else c.mod (c.rank + c.degree - 1)
      let s := if next = owner then s else s.sendPiece c up 12 i k (collStep h + 1) (collPart h) (collStamp h) lines
      let (s, bad, poi) := s.storeData c d lo hi lines
      s.collWrote c (linesOf d lo hi) bad poi

/-- A piece of ALL_TO_ALL: rank q's chunk for this rank, placed at position q (R522). -/
def State.takeExchange (s : State) (c : Coll) (h : Words4) (lines : List LineSeg) : State :=
  let d := s.dstOf c
  let (lo, hi) := c.exchangePlace c.rank (collChunk h)
  match (piecesIn lo hi (c.codesPer d.fmt))[collPiece h]? with
  | none => s
  | some (_, a, b) =>
    let (s, bad, poi) := s.storeData c d a b lines
    s.collWrote { c with got := c.got + 1 } (linesOf d a b) bad poi

/-- A chunk of PERMUTE: written where no higher chunk names its position (R549, R551). -/
def State.takePermute (s : State) (c : Coll) (h : Words4) (lines : List LineSeg) : State :=
  let (table, _) := s.permTable c
  let c := { c with got := c.got + 1 }
  let won := match permWinner table c.rank (collPiece h) with
    | some i => i / c.elems == collChunk h && i % c.elems % 4096 == collStep h
    | none => false
  if won then s.putPermChunk c (collPiece h) lines else s.setColl c

/-- A pre-pass piece: combined on its way to the chunk's owner, then delivered to every rank (R532). -/
def State.takePre (s : State) (c : Coll) (h : Words4) (lines : List LineSeg) : State :=
  let k := collChunk h
  match (c.prePieces k)[collPiece h]? with
  | none => s
  | some (i, lo, hi) =>
    let ps := readPres (hi - lo) (fromLines lines)
    let c := { c with got := c.got + 1, nf := c.nf || collNf h }
    let next := c.mod (c.rank + 1)
    if collPart h = 3 then
      let s := if next = k then s else s.sendPiece c true 13 i k (collStep h + 1) 3 0 lines
      s.afterPre (c.putPre lo ps)
    else
      let ps := ps.zipIdx.map fun p => p.1.join (s.ownPre c (lo + p.2))
      if k = c.rank then (s.sendPiece c true 13 i k 1 3 0 (preLines ps)).afterPre (c.putPre lo ps)
      else (s.setColl c).sendPiece c true 13 i k (collStep h + 1) 0 0 (preLines ps)

/-- A block or accumulator piece of a traversal (R553, R554, R557). -/
def State.takeRing (s : State) (c : Coll) (h : Words4) (lines : List LineSeg) : State :=
  if c.draining then s.bump .collRingDrainCnt c.die 0 1
  else if collPart h = 0 then
    s.advanceRing { c with kv := c.kv ++ [(collChunk h * 2 ^ 24 + collPiece h, lines)], got := c.got + 1 }
  else
    let half := collPart h
    match (s.accPieces c half)[collPiece h]? with
    | none => s
    | some (_, a, b) =>
      let (s, bad, poi) := s.storeData c (s.auxOf c) a b lines
      let key := collStep h * 4 + half
      let c := { c with acc := putD 0 key (lookupD 0 key c.acc + 1) c.acc, got := c.got + 1, poison := c.poison || poi }
      if bad then (s.setColl c).clearFailed.endColl c s.faultStatus false else s.advanceRing c

/-- Whether a piece must wait for its rank's own progress: sums in exact mode for the pre-pass, accumulators for their step. -/
def Coll.tooEarly (c : Coll) (h : Words4) : Bool :=
  (mtype h == 12 && c.reduces && !c.dataSent) ||
  (mtype h == 14 && collPart h != 0 && !c.draining && decide (c.step < collStep h))

/-- Lines with a failing line CRC are taken as poisoned. -/
def checkLines (h : Words4) (lines : List LineSeg) : List LineSeg :=
  lines.zipIdx.map fun l => if segGood h l.2 l.1 then l.1 else { l.1 with poison := true }

/-- A piece for a running collective of its OPSEQ; one for a later collective is held until it is issued, one for an earlier is
discarded (R563). -/
def State.takePiece (s : State) (die : Nat) (h : Words4) (lines : List LineSeg) : State :=
  match s.coll.running.find? fun c => c.die == die && c.group == collGroupId h && c.opseq == collOpseq h with
  | none => if lookupD 0 (die * 256 + collGroupId h) s.coll.issued ≤ collOpseq h then s.holdPiece die h lines else s
  | some c =>
    if c.tooEarly h then s.holdPiece die h lines
    else
      let s := s.traceRank c false
      let c := { c with waitFrom := s.beamNow }
      if mtype h = 13 then s.takePre c h lines
      else if mtype h = 14 then (if c.op = 6 then s.takeRing c h lines else s)
      else if c.reduces then (if collPart h = 3 then s.takeGather c h lines else s.takeSum c h lines)
      else if c.op = 2 ∨ c.op = 5 then s.takeGather c h lines
      else if c.op = 3 then s.takeExchange c h lines
      else if c.op = 4 then s.takePermute c h lines
      else s

/-- Held pieces offered again; `fuel` bounds how often. -/
def State.settleEarly (s : State) : Nat → State
  | 0 => s
  | fuel + 1 =>
    let es := s.coll.early
    let s' := es.foldl (fun s e => s.takePiece e.die e.header e.lines) { s with coll := { s.coll with early := [] } }
    if s'.coll.early.length < es.length then s'.settleEarly fuel else s'

def State.settlePieces (s : State) : State := s.settleEarly (s.coll.early.length + 1)

/-- R563: a rank accepts pieces of at most two OPSEQ values of a group: the oldest it has not finished, and the next. -/
def State.opseqOpen (s : State) (die : Nat) (h : Words4) : Bool :=
  let issued := lookupD 0 (die * 256 + collGroupId h) s.coll.issued
  let mine := s.coll.running.filter fun c => c.die == die && c.group == collGroupId h
  let first := mine.foldl (fun m c => min m c.opseq) issued
  decide (collOpseq h < first + 2)

/-- A collective message of a type arrives at this package (R515, R563); one whose OPSEQ is not accepted yet waits where it is. -/
def State.collArrives (s : State) (mt : Nat) (h : Words4) (lines : List LineSeg) : State :=
  if mtype h ≠ mt ∨ dstPkg h ≠ s.ownPkg then s
  else
    let die := collDstDie h
    let away (s : State) : State :=
      { s with fabric := { s.fabric with inbox := s.fabric.inbox.filter fun m => m.header != some h } }
    if s.fld collGroupW0MemberGen die (collGroupId h) ≠ collGen h then (away s).bump .collStaleCnt die 0 1
    else if !s.opseqOpen die h then s
    else (((away s).bump .collPieceRxCnt die 0 1).takePiece die h (checkLines h lines)).settlePieces

/-! ## The commands -/

/-- A collective command of an operation handed over by a cluster's sequencer (R521, R524). -/
def collIssue (op : Nat) (cluster : Fin 24) (launch : BitVec 12) (image : CmdImage) (s : State) : State :=
  let cl := cluster.val
  let l := launch.toNat
  if s.chains.any (fun c => c.cluster == cl && c.launch == l && !c.extra) || s.collRuns cl l then s
  else
    let s' := s.needSeq cl l
    match s'.findSeq cl l with
    | none => s
    | some q =>
      let r := s'.recOr l
      let ws := s'.imageWords cl r q.next 8 image
      let (c, n) := s'.parseColl cl r ws
      if q.ended || imageOpc ws != 0xD || c.op != op then s
      else
        let s := s'.clamped cl n
        if !(s.groupOf c.die c.group).valid then s.endColl c stPeerLost false
        else
          let key := c.die * 256 + c.group
          let s := { s with coll := { s.coll with running := s.coll.running ++ [c], issued := putD 0 key (c.opseq + 1) s.coll.issued } }
          (s.startColl c).settlePieces

/-- ALL_REDUCE (R529). -/
def execAllReduce (cluster : Fin 24) (launch : BitVec 12) (image : CmdImage) (s : State) : Host.Outcome State Fault Refusal :=
  .next (collIssue 0 cluster launch image s)

/-- REDUCE_SCATTER (R525). -/
def execReduceScatter (cluster : Fin 24) (launch : BitVec 12) (image : CmdImage) (s : State) : Host.Outcome State Fault Refusal :=
  .next (collIssue 1 cluster launch image s)

/-- ALL_GATHER (R545). -/
def execAllGather (cluster : Fin 24) (launch : BitVec 12) (image : CmdImage) (s : State) : Host.Outcome State Fault Refusal :=
  .next (collIssue 2 cluster launch image s)

/-- ALL_TO_ALL (R522). -/
def execAllToAll (cluster : Fin 24) (launch : BitVec 12) (image : CmdImage) (s : State) : Host.Outcome State Fault Refusal :=
  .next (collIssue 3 cluster launch image s)

/-- PERMUTE (R549). -/
def execPermute (cluster : Fin 24) (launch : BitVec 12) (image : CmdImage) (s : State) : Host.Outcome State Fault Refusal :=
  .next (collIssue 4 cluster launch image s)

/-- BROADCAST (R522). -/
def execBroadcast (cluster : Fin 24) (launch : BitVec 12) (image : CmdImage) (s : State) : Host.Outcome State Fault Refusal :=
  .next (collIssue 5 cluster launch image s)

/-- RING (R552). -/
def execRing (cluster : Fin 24) (launch : BitVec 12) (image : CmdImage) (s : State) : Host.Outcome State Fault Refusal :=
  .next (collIssue 6 cluster launch image s)

/-- NF_CHECK (R542). -/
def execNfCheck (cluster : Fin 24) (launch : BitVec 12) (image : CmdImage) (s : State) : Host.Outcome State Fault Refusal :=
  .next (collIssue 7 cluster launch image s)

/-- COLL_DATA (R530). -/
def execCollData (header : Words4) (lines : List LineSeg) (s : State) : Host.Outcome State Fault Refusal :=
  .next (s.collArrives 12 header lines)

/-- COLL_PREPASS (R532). -/
def execCollPrepass (header : Words4) (lines : List LineSeg) (s : State) : Host.Outcome State Fault Refusal :=
  .next (s.collArrives 13 header lines)

/-- RING_BLOCK (R553). -/
def execRingBlock (header : Words4) (lines : List LineSeg) (s : State) : Host.Outcome State Fault Refusal :=
  .next (s.collArrives 14 header lines)

/-- COLL_ABORT (R559): a running collective of its OPSEQ passes it on in the direction it travels and ends with the status it carries, a
failure of R26; a RING command with a stop pending keeps ABORTED (R557), and a rank past its commit point records ALREADY_DONE. -/
def collAbortEffect (header : Words4) (s : State) : State :=
  if mtype header ≠ 15 ∨ dstPkg header ≠ s.ownPkg then s
  else
    let die := collDstDie header
    let s := { s with fabric := { s.fabric with inbox := s.fabric.inbox.filter fun m => m.header != some header } }
    if s.fld collGroupW0MemberGen die (collGroupId header) ≠ collGen header then s.bump .collStaleCnt die 0 1
    else
      match s.coll.running.find? fun c => c.die == die && c.group == collGroupId header && c.opseq == collOpseq header with
      | none => s
      | some c =>
        if c.stop || c.late || !failureCode (collStatus header) then s
        else if s.committed c then s.setColl { c with late := true }
        else
          let g := s.groupOf c.die c.group
          let up := srcPkg header == g.prevPkg && collSrcDie header == g.prevDie
          (s.sendAbort c up (collStatus header)).endColl c (collStatus header) false

def execCollAbort (header : Words4) (s : State) : Host.Outcome State Fault Refusal := .next (collAbortEffect header s)

/-- Whether a traversal can move on: the blocks of its step have come, and in the backward the items of its step are placed. -/
def Coll.stepWhole (c : Coll) : Bool :=
  decide (c.step < c.lastStep) &&
  (c.step == 0 || !(decide (c.step ≤ c.legA)) || (c.sliceLines (c.mod (c.rank + c.degree - c.step))).isSome) &&
  (c.step == 0 || !(decide (c.step ≤ c.legB)) || (c.sliceLines (c.mod (c.rank + c.step))).isSome) &&
  (!c.bwd || (c.place.isEmpty && (c.items.drop c.queued).all fun it => decide (c.step < it.2.2)))

/-- RING_STEP_BOUNDARY (R553, R554, R556, R557): blocks and accumulators go one hop on. With a stop pending nothing is forwarded from
this boundary, and the next ends the command with ABORTED, its ring's tokens EMPTY. -/
def ringStepBoundaryEffect (cluster : Fin 24) (launch : BitVec 12) (s : State) : State :=
  match s.findColl cluster.val launch.toNat with
  | none => s
  | some c =>
    if c.op ≠ 6 then s
    else if c.draining then s.endColl c stAborted true
    else if c.stop then s.setColl { c with draining := true, hold := [], place := [] }
    else if !c.stepWhole || s.collWriting c then s
    else
      let up := c.mod (c.rank + c.degree - c.step)
      let down := c.mod (c.rank + c.step)
      let s := if c.step < c.legA then s.sendSlice c true up else s
      let s := if c.step < c.legB then s.sendSlice c false down else s
      let s := if c.bwd && c.step == 0 then s.clearAcc c else s
      let s := if c.bwd && decide (1 ≤ c.step) then
          (let s := s.sendAcc c 1 up
           if c.dirs then s.sendAcc c 2 down else s)
        else s
      (s.advanceRing { c with step := c.step + 1, hold := [] }).settlePieces

def execRingStepBoundary (cluster : Fin 24) (launch : BitVec 12) (s : State) : Host.Outcome State Fault Refusal :=
  .next (ringStepBoundaryEffect cluster launch s)

/-- COLLECTIVE_COMMIT (R528, R538 to R541, R545): the completion of a rank with nothing left to do. -/
def collectiveCommitEffect (cluster : Fin 24) (launch : BitVec 12) (s : State) : State :=
  match s.findColl cluster.val launch.toNat with
  | none => s
  | some c =>
    if !c.whole || s.collWriting c then s else s.completeColl c

def execCollectiveCommit (cluster : Fin 24) (launch : BitVec 12) (s : State) : Host.Outcome State Fault Refusal :=
  .next (collectiveCommitEffect cluster launch s)

/-- COLL_PEER_TIMEOUT (R560). -/
def collPeerTimeoutEffect (cluster : Fin 24) (launch : BitVec 12) (ms : BitVec 32) (s : State) : State :=
  match s.findColl cluster.val launch.toNat with
  | some c => if ms.toNat < s.dnat dkCollPeerLimit || c.whole then s else s.loseColl c
  | none => s

def execCollPeerTimeout (cluster : Fin 24) (launch : BitVec 12) (ms : BitVec 32) (s : State) : Host.Outcome State Fault Refusal :=
  .next (collPeerTimeoutEffect cluster launch ms s)

/-! ## Group entries (R511, R515, R666) -/

/-- Every collective of a die's group ends with PEER_LOST (R515). -/
def State.endGroup (s : State) (die g : Nat) : State :=
  (s.coll.running.filter fun c => c.die == die && c.group == g).foldl State.loseColl s

/-- COLL_GROUPS_VALID: groups with a VALID entry on either die (R567). -/
def State.countGroups (s : State) : State :=
  s.dput dkCollGroupsValid (((List.range 256).countP fun g =>
    s.fld collGroupW0Valid 0 g == 1 || s.fld collGroupW0Valid 1 g == 1 : Nat) : Int)

/-- R511: whether a KIND 1 entry holds another degree or rank than it is read with. -/
def State.groupOdd (s : State) (d g : Nat) : Bool :=
  s.fld collGroupW0Kind d g == 1 && (s.fld collGroupW0DegreeM1 d g != 1 || s.fld collGroupW0Rank d g != d)

/-- R515: a word of a group entry written, MEMBER_GEN one higher, running collectives of the group ended. -/
def State.groupWrite (s : State) (d g word : Nat) (value : Word) : State :=
  let s := s.endGroup d g
  let s := if word = 0 then s.storeReg .collGroupW0 d g value
    else if word = 1 then s.storeReg .collGroupW1 d g value
    else s.storeReg .collGroupW2 d g value
  (s.setFld collGroupW0MemberGen d g (s.fld collGroupW0MemberGen d g + 1)).countGroups

/-- GROUP_ENTRY_WRITE (R511, R515); a KIND 1 entry that holds another degree or rank counts as a clamp. -/
def groupEntryWriteEffect (die : Fin 2) (group : BitVec 8) (word : Fin 3) (value : Word) (s : State) : State :=
  let s := s.groupWrite die.val group.toNat word.val value
  s.clamped (12 * die.val) (b2n (word.val == 0 && s.groupOdd die.val group.toNat))

def execGroupEntryWrite (die : Fin 2) (group : BitVec 8) (word : Fin 3) (value : Word) (s : State) : Host.Outcome State Fault Refusal :=
  .next (groupEntryWriteEffect die group word value s)

/-- COLL_MEMBER_GEN_SET (R666): the register stored; GO sets MEMBER_GEN of the group and ends its running collectives. -/
def collMemberGenSetEffect (die : Fin 2) (value : Word) (s : State) : State :=
  let d := die.val
  let s := s.storeReg .collMemberGenSet d 0 value
  if bitOf value 63 then (s.endGroup d (bitsOf value 0 8)).setFld collGroupW0MemberGen d (bitsOf value 0 8) (bitsOf value 16 16)
  else s

def execCollMemberGenSet (die : Fin 2) (value : Word) (s : State) : Host.Outcome State Fault Refusal :=
  .next (collMemberGenSetEffect die value s)

end Sys2Proof.Machine
end

