-- ==== Sys2Proof/Machine/Arbiter.lean ====
section
/-!
DEFINITION. The maintenance arbiter of a die (spec/08_hbm_and_protection.md R400 to R406): its activity table, which activities are
compatible, and their states.
-/
namespace Sys2Proof.Machine

def State.arb (s : State) (die : Nat) : Arbiter := if die = 0 then s.hbm.arb0 else s.hbm.arb1

def State.setArb (s : State) (die : Nat) (a : Arbiter) : State :=
  if die = 0 then { s with hbm := { s.hbm with arb0 := a } } else { s with hbm := { s.hbm with arb1 := a } }

/-- The activity ID of R400. -/
def actId (kind entry : Nat) : Nat := kind * 32 + entry

/-- The stack of a calibration (its channel group's) or of a refresh-rate change. -/
def MaintAct.stack (a : MaintAct) : Nat := if a.kind = 2 then a.scope / 4 else a.scope

/-- A change of the HBM3E data rate: a calibration of every channel group of the die (R760). Its `fast` says 10.0 Gb/s. -/
def MaintAct.allGroups (a : MaintAct) : Bool := a.kind == 2 && a.scope == 16

/-- Whether two activities share a stack. -/
def sameStack (a b : MaintAct) : Bool := a.allGroups || b.allGroups || a.stack == b.stack

/-- R401: whether two activities are incompatible. -/
def conflicts (a b : MaintAct) : Bool :=
  match a.kind, b.kind with
  | 1, 1 => a.groups.any b.groups.contains
  | 2, 2 => sameStack a b
  | 2, 5 => sameStack a b
  | 5, 2 => sameStack a b
  | 5, 5 => a.stack == b.stack
  | 2, 4 => true
  | 4, 2 => true
  | 3, 3 => a.scope == b.scope
  | 4, 4 => true
  | 6, 6 => true
  | _, _ => false

/-- R402: the activity that stands before one in the table and conflicts with it: the earliest running one, else the earliest queued. -/
def blockerOf (acts : List MaintAct) (a : MaintAct) : Option MaintAct :=
  let others := acts.filter fun b => b.entry != a.entry && conflicts a b
  let earlier := (acts.takeWhile fun b => b.entry != a.entry).filter fun b => !b.running && conflicts a b
  match others.find? (·.running) with
  | some b => some b
  | none => earlier.head?

/-- The SCOPE field of an entry: 0 for kinds 1 and 4 (R411). -/
def MaintAct.scopeField (a : MaintAct) : Nat := if a.kind = 1 ∨ a.kind = 4 then 0 else a.scope

/-- The phase of the beam, for the PHASE field of an entry. -/
def State.phaseNow (s : State) : Nat := s.beamNow % 2 ^ 32

/-- The register of an entry; PHASE changes with STATE only. -/
def State.putEntry (s : State) (die entry kind st blocker scope : Nat) (fail : Bool) : State :=
  let old := s.rd .hbmcMaintEntry die entry
  let phase := if bitsOf old 3 2 = st && bitsOf old 0 3 = kind then bitsOf old 32 32 else s.phaseNow
  s.wr .hbmcMaintEntry die entry
    (BitVec.ofNat 64 (kind % 8 + st % 4 * 2 ^ 3 + blocker % 256 * 2 ^ 5 + scope % 64 * 2 ^ 13 + b2n fail * 2 ^ 19 + phase * 2 ^ 32))

/-- Every queued and running entry shown in its register: STATE and BLOCKER by R402, R405 and R408. -/
def State.showEntries (s : State) (die : Nat) : State :=
  let acts := (s.arb die).acts
  acts.foldl (fun s a =>
    let blocker := match blockerOf acts a with
      | some b => actId b.kind b.entry
      | none => 0
    let s := s.putEntry die a.entry a.kind (if a.running then 2 else 1) (if a.running then 0 else blocker) a.scopeField false
    if a.kind = 6 then
      let s := s.setFld galRepairStatusResult die 0 (if a.running then 3 else 1)
      s.setFld galRepairStatusBlocker die 0 (if a.running then 0 else blocker)
    else s) s

/-- The entry a new activity takes: a free one, else the oldest in state done (R404). -/
def State.freeEntry (s : State) (die : Nat) : Option Nat :=
  let a := s.arb die
  match (List.range 32).find? fun k => !(a.acts.any (·.entry == k)) && !a.done.contains k with
  | some k => some k
  | none => a.done.head?

/-- An activity enters the table (R400, R402); the answer names its entry, none where all 32 are queued or running. -/
def State.enterAct (s : State) (die : Nat) (a : MaintAct) : State × Option Nat :=
  match s.freeEntry die with
  | none => (s, none)
  | some k =>
    let arb := s.arb die
    let s := s.setArb die { arb with acts := arb.acts ++ [{ a with entry := k }], done := arb.done.filter (· != k) }
    (s.showEntries die, some k)

/-- An activity ends: its entry reads done (R404). -/
def State.endAct (s : State) (die entry : Nat) (fail : Bool) : State :=
  let arb := s.arb die
  match arb.acts.find? (·.entry == entry) with
  | none => s
  | some a =>
    let s := s.setArb die { arb with acts := arb.acts.filter (·.entry != entry), done := arb.done ++ [entry] }
    (s.putEntry die entry a.kind 3 0 a.scopeField fail).showEntries die

/-- Whether an activity may be admitted by R402: nothing running or before it in the table conflicts with it. -/
def admissible (acts : List MaintAct) (a : MaintAct) : Bool := (blockerOf acts a).isNone

def State.markRunning (s : State) (die entry : Nat) : State :=
  let arb := s.arb die
  (s.setArb die { arb with acts := arb.acts.map fun a => if a.entry == entry then { a with running := true } else a }).showEntries die

/-- The channel groups of a range of a die's HBM: groups change every 1 KiB and repeat every 16 KiB (R369, R370). -/
def rangeGroups (harbour : Bool) (lo hi : Nat) : List Nat :=
  ((List.range 17).filter fun k => decide ((lo / 1024 + k) * 1024 < hi)).foldl
    (fun acc k => setInsert (hbmGroup harbour ((lo / 1024 + k) * 1024)) acc) []

end Sys2Proof.Machine
end

