-- ==== Sys2Proof/Machine/DmOps.lean ====
section
/-!
DEFINITION. What the meanings share about daymarks (spec/13_daymarks_and_recovery.md R630 to R649): the page list, the image, the
copiers' order, first touch, and the end of a daymark.
-/
namespace Sys2Proof.Machine

/-! ## Pages -/

/-- The physical address that an owner's virtual address has in the trees of either die, whatever its permissions, with the page's owner
and whether it is a 2 MiB page. -/
def State.dmPlace (s : State) (owner va : Nat) : Option (Nat × Nat × Bool) :=
  match s.xlat 0 owner va with
  | .page pa _ _ o big => some (pa, o, big)
  | _ =>
    match s.xlat 1 owner va with
    | .page pa _ _ o big => some (pa, o, big)
    | _ => none

/-- The frame that holds a page of an owner now. -/
def State.dmFrame (s : State) (owner vpage : Nat) : Option Nat := (s.dmPlace owner (vpage * 65536)).map fun x => x.1 / 65536

/-- The die whose copier copies a page (R639). -/
def State.dmDie (s : State) (d : Daymark) (p : DmPage) : Option Nat := (s.dmFrame d.owner p.vpage).map s.frameDie

/-- Whether a channel group that a frame of HBM lies in is out of service (R433). -/
def State.groupsOut (s : State) (n : Nat) : Bool :=
  match s.phys (n * 65536) with
  | .hbm d => (rangeGroups s.harbour (n * 65536) (n * 65536 + 65536)).any fun g => s.groupOut d g
  | _ => false

/-- Whether a frame's tensor may be rebuilt from its other copy (R253, R254). -/
def FrameRec.rebuild (f : FrameRec) : Bool := f.policy % 4 == 2 && f.policy / 16 % 2 == 1 && decide (0 < f.tileBytes)

/-- Whether a frame's copy must wait: its channel group is out of service, or a rebuildable tensor's sector waits for its rebuild
(R644). -/
def State.dmHeldUp (s : State) (frame : Nat) : Bool :=
  s.groupsOut frame ||
  (s.pool.rebuilds.any fun b => b.sector / 65536 == frame) ||
  (let f := s.frame frame
   f.rebuild && !f.quarantined && ((List.range 2048).any fun j =>
     s.sectorBad (frame * 2048 + j) && decodeDelta (s.deltaAt (frame * 65536 + 32 * j)) != .mark))

/-- The place of an uncopied page of a die that lies in a frame, over all daymarks. -/
def State.dmPageOf (s : State) (die frame : Nat) : Option (Nat × Nat) :=
  if s.frameDie frame ≠ die || s.dmHeldUp frame then none
  else
    s.daymarks.findSome? fun d =>
      (d.pages.findIdx? fun p => !p.copied && s.dmFrame d.owner p.vpage == some frame).map fun k => (d.launch, k)

/-- Pages of a die that a daymark has still to copy. -/
def State.dmLeft (s : State) (d : Daymark) (die : Nat) : Nat := d.pages.countP fun p => !p.copied && s.dmDie d p == some die

def Daymark.entry (d : Daymark) (die : Nat) : Option Nat := if die = 0 then d.entry0 else d.entry1

def Daymark.setEntry (d : Daymark) (die : Nat) (e : Option Nat) : Daymark := if die = 0 then { d with entry0 := e } else { d with entry1 := e }

def State.setDaymark (s : State) (d : Daymark) : State :=
  { s with daymarks := s.daymarks.map fun x => if x.launch == d.launch then d else x }

/-- POOL_DM_STATUS: the first daymark with an entry of this die's arbiter (R666). -/
def State.showDaymark (s : State) (die : Nat) : State :=
  match s.daymarks.find? fun d => (d.entry die).isSome with
  | some d =>
    s.wr .poolDmStatus die 0
      (BitVec.ofNat 64 (1 + d.owner % 64 * 2 + d.launch % 4096 * 2 ^ 7 + s.dmLeft d die % 2 ^ 32 * 2 ^ 19))
  | none => s.wr .poolDmStatus die 0 0#64

def State.showDaymarks (s : State) : State := (s.showDaymark 0).showDaymark 1

/-! ## The copiers (R639 to R643) -/

/-- Whether a daymark's copy is admitted on a die. -/
def State.dmAdmitted (s : State) (d : Daymark) (die : Nat) : Bool :=
  match d.entry die with
  | some e => (s.arb die).acts.any fun a => a.entry == e && a.kind == 4 && a.running
  | none => false

/-- The page that an idle copier takes: the page of the first write that waits, else of a retired frame, else the next of the admitted
daymark's list; a page that must wait for its channel group or a rebuild is passed over until then (R642, R644, log entry
94). -/
def State.dmNext (s : State) (die : Nat) : Option DmCopy :=
  let first := s.heldWrites.map (fun w => w.addr / 65536) ++ s.pool.retiring.map Prod.fst
  match first.findSome? fun n => s.dmPageOf die n with
  | some (l, k) => some ⟨die, l, k, true⟩
  | none =>
    s.daymarks.findSome? fun d =>
      if s.dmAdmitted d die then
        (d.pages.findIdx? fun p => !p.copied && s.dmDie d p == some die && !((s.dmFrame d.owner p.vpage).any s.dmHeldUp)).map fun k =>
          ⟨die, d.launch, k, false⟩
      else none

/-- An idle copier takes its next page. -/
def State.wakeCopier (s : State) (die : Nat) : State :=
  if s.copying.any (·.die == die) then s
  else
    match s.dmNext die with
    | some c => { s with copying := s.copying ++ [c] }
    | none => s

/-- Each die's copier enters the arbiter with a daymark that has pages there and no entry yet (R400, R404, R639). -/
def State.enterCopiers (s : State) : State :=
  let enter (s : State) (die : Nat) : State :=
    s.daymarks.foldl (fun s d =>
      if (d.entry die).isNone && decide (0 < s.dmLeft d die) then
        let (s, e) := s.enterAct die { entry := 0, kind := 4, scope := 0 }
        s.setDaymark (d.setEntry die e)
      else s) s
  let s := enter s 0
  (enter s 1).showDaymarks

/-! ## Protection (R635, R640, R643) -/

/-- Writes that wait are made again, in their order of arrival; the stages that waited with them go on (R643). -/
def State.reissue (s : State) (which : HeldWrite → Bool) : State :=
  let mine := s.heldWrites.filter which
  let s := { s with heldWrites := s.heldWrites.filter fun w => !which w }
  let s := mine.foldl (fun s w => (s.devWrite w.by_ w.addr w.bytes).leavePoison w.bad) s
  let s := (mine.filterMap fun w => w.by_.who.map (·.chain)).eraseDups.foldl (fun s r => match s.findChain r with
    | some c => s.showTasks c
    | none => s) s
  s.settleLandings.settleCrings s.beam.posted.length

/-- Whether a write that waited need wait no longer (R405, R643). -/
def State.releasable (s : State) (w : HeldWrite) : Bool := !(s.frame (w.addr / 65536)).prot && !s.groupHeld w.addr w.bytes.length

/-- A frame's protection ends: the writes that wait on it proceed (R643). -/
def State.unprotect (s : State) (frame : Nat) : State :=
  ((s.setFrame frame { s.frame frame with prot := false }).reissue fun w => w.addr / 65536 == frame).retryRetired

/-! ## The image (R645 to R647) -/

def Daymark.manifestBytes (d : Daymark) : Nat := (128 + 16 * d.pages.length + 65535) / 65536 * 65536

/-- Bytes stored at a place of an image, through the owner's translation. -/
def State.dmWrite (s : State) (owner va : Nat) (bs : List Byte) : State :=
  match s.dmPlace owner va with
  | some (pa, _, _) => s.devWrite (s.maintAccess (pa / 65536) owner) pa bs
  | none => s

/-- The manifest header (R646). -/
def State.dmHeader (s : State) (d : Daymark) (complete : Bool) : State :=
  let n := d.pages.countP (·.poisoned)
  let w0 := 0x44594D4B + 2 ^ 32 + d.owner % 64 * 2 ^ 40 + b2n (decide (0 < n)) * 2 ^ 46 + b2n complete * 2 ^ 63
  let ws : List Nat := [w0, d.effect, if complete then s.beamNow else 0, d.stepRev % 2 ^ 32 + d.seq % 2 ^ 32 * 2 ^ 32,
    d.pages.length % 2 ^ 32 + n % 2 ^ 32 * 2 ^ 32, s.ownPkg % 4096] ++ List.replicate 10 0
  s.dmWrite d.owner d.image (ws.flatMap fun w => bytesOf w 8)

/-- Page entry `k` of the manifest (R646). -/
def State.dmEntry (s : State) (d : Daymark) (k : Nat) (p : DmPage) : State :=
  s.dmWrite d.owner (d.image + 128 + 16 * k)
    (bytesOf (p.vpage * 65536 + p.cls % 4 + b2n p.poisoned * 4) 8 ++ bytesOf p.crc 8)

/-- A page copied into its place of the image with its poison marks; the answer carries its CRC and whether a line was poisoned. -/
def State.dmCopyPage (s : State) (d : Daymark) (k : Nat) (frame : Nat) : State × Nat × Bool :=
  let s := s.scanFrame (s.maintAccess frame d.owner) frame
  let bs := s.memBytes (frame * 65536) 65536
  let bad := s.badSectors frame
  match s.dmPlace d.owner (d.image + d.manifestBytes + k * 65536) with
  | some (pa, _, _) =>
    ((s.devWrite (s.maintAccess (pa / 65536) d.owner) pa bs).leavePoison (bad.map fun j => pa / 32 + j), (crc32 bs).toNat, bad != [])
  | none => (s, (crc32 bs).toNat, bad != [])

/-! ## The end of a daymark (R644, R647) -/

/-- What the end of a daymark leaves: no page protected, held writes proceed, its copiers out of the arbiter. -/
def State.closeDaymark (s : State) (d : Daymark) : State :=
  let s := { s with daymarks := s.daymarks.filter fun x => x.launch != d.launch, copying := s.copying.filter fun c => c.launch != d.launch }
  let s := d.pages.foldl (fun s p =>
    if p.copied then s
    else match s.dmFrame d.owner p.vpage with
      | some n => s.unprotect n
      | none => s) s
  let s := match d.entry0 with
    | some e => s.endAct 0 e false
    | none => s
  let s := match d.entry1 with
    | some e => s.endAct 1 e false
    | none => s
  let s := (s.enterCopiers.wakeCopier 0).wakeCopier 1
  s.showDaymarks

/-- A daymark that ends ABORTED, with TIER_FAIL, or abandoned: counted on each die that has pages of it (R666). -/
def State.abandonDaymark (s : State) (d : Daymark) : State :=
  let has := fun die => d.pages.any fun p => s.dmDie d p == some die
  let s := if has 0 then s.bump .poolDmAbandonCnt 0 0 1 else s
  let s := if has 1 then s.bump .poolDmAbandonCnt 1 0 1 else s
  s.closeDaymark d

/-- A running daymark ends with a failure status and its record completes (R644). -/
def State.failDaymark (s : State) (launch status : Nat) : State :=
  match s.daymarks.find? (·.launch == launch), s.findRec launch with
  | some d, some r =>
    (s.abandonDaymark d).completeRecord { r with status := status, commitBeam := s.beamNow, count := 0 }
  | _, _ => s

end Sys2Proof.Machine
end

