-- ==== Sys2Proof/Machine/Pool.lean ====
section
/-!
DEFINITION. The capacity pool (spec/09_capacity_pool.md): frame requests, moves, pins, weight streaming, rebuilds and quarantine, swap-mode
invocations.
-/
namespace Sys2Proof.Machine

/-! ## POOL_MOVE_CMD (R435) -/

def State.moveResult (s : State) (die res : Nat) : State :=
  (s.setFld poolMoveStatusBusy die 0 0).setFld poolMoveStatusResult die 0 res

/-- Pinned frames of an owner in a tier, of one die for the gallery. -/
def State.pinnedIn (s : State) (owner tier die : Nat) : Nat :=
  s.pool.frames.countP fun p =>
    p.2.owner == owner && p.2.st != .free && p.2.pinned && s.frameTier p.1 == tier && (tier != 0 || s.frameDie p.1 == die)

/-- A move of a frame begun (R430). -/
def State.beginMove (s : State) (m : Move) : State :=
  ({ s with pool := { s.pool with moves := s.pool.moves ++ [m] } }).setMoving m.src

def State.waitMove (s : State) (die tier owner page : Nat) : State :=
  { s with pool := { s.pool with cmdWait := (s.pool.cmdWait.filter fun w => w.1 != die) ++ [(die, tier, owner, page)] } }

/-- The rows of R435 for a pin (`v`) or an unpin of a frame, of a 2 MiB page or not, from the fourth on. A pin cancels a move of the frame: a
pinned frame is never moved (R415, log entry 79). -/
def State.pinFrame (s : State) (die owner n : Nat) (big v : Bool) : State :=
  let f := s.frame n
  let tier := s.frameTier n
  if big && !v then s.moveResult die 1
  else if v && !f.pinned && decide (s.floorOf owner tier < s.pinnedIn owner tier (s.frameDie n) + 1) then
    (s.bump .poolPinRefusedCnt die 0 1).moveResult die 1
  else
    let s := match s.pool.moves.find? fun m => v && m.src == n with
      | some m => s.cancelMove m
      | none => s
    ((s.setFrame n { s.frame n with pinned := v }).moveResult die 0).retryWaiting

/-- A move to a frame of the destination tier, where one can be had; otherwise the move waits (R435). A frame that is already moving is
waited for. -/
def State.startMove (s : State) (die tier owner page n : Nat) : State :=
  let f := s.frame n
  if f.moving then s.waitMove die tier owner page
  else
    let (s, d) := s.obtain 3 tier die owner
    match d with
    | none => s.waitMove die tier owner page
    | some k =>
      let s := s.setFrame k { s.frame k with st := .resident, owner := owner, homeDie := die, moving := true, vpage := page }
      (s.beginMove { src := n, dst := k, owner := owner, writeBack := false, evict := false, cmdDie := some die }).showUse owner

/-- The rows of R435 for a move of a frame, of a 2 MiB page or not, from the sixth on. -/
def State.moveFrame (s : State) (die tier owner page n : Nat) (big : Bool) : State :=
  let f := s.frame n
  if f.pinned || f.window || f.quarantined || big then s.moveResult die 1
  else if f.prot then s.waitMove die tier owner page
  else if s.frameTier n = tier then s.moveResult die 0
  else
    let toLower := match f.lower with
      | some low => s.frameTier low == tier
      | none => false
    if toLower then
      match f.st, f.lower with
      | .dirty, some low =>
        if f.moving then s.waitMove die tier owner page
        else s.beginMove { src := n, dst := low, owner := owner, writeBack := true, evict := false, cmdDie := some die }
      | _, _ => ((s.dropCached n).moveResult die 0).retryWaiting
    else if s.ceilOf owner tier ≤ s.held owner tier die then s.moveResult die 1
    else s.startMove die tier owner page n

/-- R435: the operation on a page, by the first row that applies. -/
def State.runMoveCmd (s : State) (die op tier owner page : Nat) : State :=
  match s.xlat die owner (page * 65536) with
  | .page pa _ _ _ big =>
    let n := pa / 65536
    let big := big || (s.frame n).big
    if (s.frame n).st = .free ∨ (s.frame n).owner ≠ owner then s.moveResult die 3
    else if op = 1 then s.pinFrame die owner n big true
    else if op = 2 then s.pinFrame die owner n big false
    else s.moveFrame die tier owner page n big
  | y => (s.noteWalk die y).moveResult die 1

/-- The OP of a value, 3 read as 0. -/
def moveOp (v : Word) : Nat := if bitsOf v 0 2 = 3 then 0 else bitsOf v 0 2

/-- A write of POOL_MOVE_CMD whose OP is `op`: its fields stored, and with GO while BUSY is 0 the operation begun. -/
def State.writeMoveCmd (s : State) (die op : Nat) (value : Word) : State :=
  if moveOp value ≠ op then s
  else
    let s := s.storeReg .poolMoveCmd die 0 value
    if bitOf value 63 && s.fld poolMoveStatusBusy die == 0 then
      (s.setFld poolMoveStatusBusy die 0 1).runMoveCmd die op (min 2 (bitsOf value 2 2)) (bitsOf value 4 6) (s.fld poolMoveAddrVpage die)
    else s

def moveEffect (die : Fin 2) (value : Word) (s : State) : State := s.writeMoveCmd die.val 0 value

def execMove (die : Fin 2) (value : Word) (s : State) : Host.Outcome State Fault Refusal := .next (moveEffect die value s)

def pinEffect (die : Fin 2) (value : Word) (s : State) : State := s.writeMoveCmd die.val 1 value

def execPin (die : Fin 2) (value : Word) (s : State) : Host.Outcome State Fault Refusal := .next (pinEffect die value s)

def unpinEffect (die : Fin 2) (value : Word) (s : State) : State := s.writeMoveCmd die.val 2 value

def execUnpin (die : Fin 2) (value : Word) (s : State) : Host.Outcome State Fault Refusal := .next (unpinEffect die value s)

/-- A move of POOL_MOVE_CMD that waits is tried again (R435). -/
def State.retryMoves (s : State) : State :=
  let ws := s.pool.cmdWait
  ws.foldl (fun s w => s.runMoveCmd w.1 0 w.2.1 w.2.2.1 w.2.2.2) { s with pool := { s.pool with cmdWait := [] } }

/-- Whatever waits for a frame is tried again: requests, moves, stream plans, retired frames, and the stages whose promotions wait (R429, R435,
R436, R454). -/
def State.retryAll (s : State) : State :=
  let s := s.retryWaiting.retryMoves.fillPlans.retryRetired
  s.retryChains s.chains

/-! ## Frame requests (R424 to R429) -/

/-- FRAME_REQUEST (R424, R427, R442): requests for one tier of one die are served in the order they arrive. -/
def frameRequestEffect (owner : BitVec 6) (tier : Fin 3) (die : Fin 2) (vpage : BitVec 32) (chain : Option ChainRef) (s : State) :
    State :=
  let r : FrameReq := { owner := owner.toNat, tier := tier.val, die := die.val, vpage := vpage.toNat, chain := chain }
  let (s, r) := s.placeReq r
  let wait (s : State) : State := { s with pool := { s.pool with waiting := s.pool.waiting ++ [r] } }
  if s.pool.waiting.any (·.beside r) then wait s
  else
    let (s, ok) := s.serveReq r
    if ok then s else wait s

def execFrameRequest (owner : BitVec 6) (tier : Fin 3) (die : Fin 2) (vpage : BitVec 32) (chain : Option ChainRef) (s : State) :
    Host.Outcome State Fault Refusal :=
  .next (frameRequestEffect owner tier die vpage chain s)

/-- The waiting requests of one die and of the shelf tried again, in order; those of the other die wait on. -/
def frameRequestRetryEffect (die : Fin 2) (s : State) : State :=
  let mine := s.pool.waiting.filter fun q => q.tier == 2 || q.die == die.val
  let other := s.pool.waiting.filter fun q => !(q.tier == 2 || q.die == die.val)
  let s := s.retryList [] mine
  let s := { s with pool := { s.pool with waiting := s.pool.waiting ++ other } }
  let ws := s.pool.cmdWait.filter fun w => w.1 == die.val
  ws.foldl (fun s w => s.runMoveCmd w.1 0 w.2.1 w.2.2.1 w.2.2.2)
    { s with pool := { s.pool with cmdWait := s.pool.cmdWait.filter fun w => w.1 != die.val } }

def execFrameRequestRetry (die : Fin 2) (s : State) : Host.Outcome State Fault Refusal := .next (frameRequestRetryEffect die s)

/-- POOL_WAIT_TIMEOUT (R429, R435): the chain that needs the frame ends with TIER_FAIL; a POOL_MOVE_CMD move is refused. -/
def poolWaitTimeoutEffect (die : Fin 2) (owner : BitVec 6) (vpage ms : BitVec 32) (s : State) : State :=
  if ms.toNat < s.dnat dkPoolWaitLimit then s
  else
    let mine (q : FrameReq) : Bool := q.die == die.val && q.owner == owner.toNat && q.vpage == vpage.toNat
    match s.pool.waiting.find? mine with
    | some q =>
      let s := { s with pool := { s.pool with waiting := s.pool.waiting.filter fun x => !mine x } }
      let s := match q.chain.bind s.findChain with
        | some c => s.endChain c stTierFail 0
        | none =>
          (match q.chain with
           | some r => s.permuteStarved r.cluster.val r.launch.toNat
           | none => s)
      s.retryWaiting
    | none =>
      if s.pool.cmdWait.any fun w => w.1 == die.val && w.2.2.1 == owner.toNat && w.2.2.2 == vpage.toNat then
        ({ s with pool := { s.pool with cmdWait := s.pool.cmdWait.filter fun w => w.1 != die.val } }).moveResult die.val 1
      else s

def execPoolWaitTimeout (die : Fin 2) (owner : BitVec 6) (vpage ms : BitVec 32) (s : State) : Host.Outcome State Fault Refusal :=
  .next (poolWaitTimeoutEffect die owner vpage ms s)

/-! ## Moves (R428 to R435) -/

/-- The end of a write-back: the lower copy is whole again, and the frame is dropped to it (R428, R435). -/
def State.endWriteBack (s : State) (m : Move) : State :=
  let die := s.frameDie m.src
  let s := (s.copyFrame m.src m.dst).bump .poolWritebackCnt die 0 1
  let s := if m.evict then s.bump .poolEvictCnt die 0 1 else s
  s.dropCached m.src

/-- The end of a move: the page switches to the destination in one step, the source frame is free (R426, R430, R433, R435, R464). -/
def State.endMove (s : State) (m : Move) : State :=
  let die := s.frameDie m.src
  let f := s.frame m.src
  let home := if s.frameTier m.src = 1 then die else (s.frame m.dst).homeDie
  let s := s.copyFrame m.src m.dst
  let s := s.switchPage f.owner f.vpage m.src m.dst
  let s := s.setFrame m.dst { f with st := .resident, moving := false, lower := none, homeDie := home }
  let s := if m.evict then s.bump .poolEvictCnt die 0 1 else s
  let s := match f.lower with
    | some low => s.freeFrame low
    | none => s
  s.freeFrame m.src

/-- The end of a promotion: the destination is a cached-clean copy of the shelf frame, which stays the canonical one (R454). -/
def State.endFill (s : State) (m : Move) : State :=
  let f := s.frame m.src
  let s := (s.copyFrame m.src m.dst).switchPage f.owner f.vpage m.src m.dst
  (s.setFrame m.dst { f with st := .clean, moving := false, lower := some m.src, homeDie := (s.frame m.dst).homeDie }).setFrame m.src
    { f with moving := false, prot := false }

/-- A move, write-back or promotion ends. -/
def State.finishMove (s : State) (m : Move) : State :=
  let s := { s with pool := { s.pool with moves := s.pool.moves.filter fun x => x.src != m.src } }
  let s := if m.writeBack then s.endWriteBack m else if m.fill then s.endFill m else s.endMove m
  match m.cmdDie with
  | some d => s.moveResult d 0
  | none => s

/-- MOVE_SWITCH (R430, R454): unless a channel group that it needs is out of service, the move, write-back or promotion of a frame ends. -/
def moveSwitchEffect (frame : BitVec 32) (s : State) : State :=
  let n := frame.toNat
  match s.pool.moves.find? fun m => m.src == n with
  | none => s
  | some m =>
    if s.groupsOut m.src || s.groupsOut m.dst then s else (s.finishMove m).retryAll

def execMoveSwitch (frame : BitVec 32) (s : State) : Host.Outcome State Fault Refusal := .next (moveSwitchEffect frame s)

/-! ## Weight streaming (R436 to R441, R592) -/

/-- One tensor of a plan entry: its place in the entry, its index in the tensor table, whether an ALL_GATHER brings it. -/
structure EntryTensor where
  place : Nat
  index : Nat
  gather : Bool
  deriving DecidableEq, Repr

/-- The USE and GEN_MODE of a plan entry, and its tensors (R592). -/
def State.planEntry (s : State) (p : StreamPlan) (i : Nat) : Nat × Nat × List EntryTensor :=
  let va := p.base + 64 * (i + 1)
  let w0 := s.virtWord p.die p.owner va
  let n0 := bitsOf w0 0 3
  let n := if n0 = 0 then 1 else min 6 n0
  let low (k : Nat) : Nat := if bitsOf w0 k 2 = 3 then 0 else bitsOf w0 k 2
  (low 3, low 5, (List.range n).map fun k =>
    let w := s.virtWord p.die p.owner (va + 8 * (k + 1))
    { place := k, index := bitsOf w 0 32, gather := bitOf w 32 })

/-- A run of pages of a plan entry: its tensor, the first virtual page, the frame of the area at which it begins, and its pages. -/
structure EntryRun where
  tensor : EntryTensor
  page : Nat
  at_ : Nat
  pages : Nat

/-- The arrays of the copies that the tensors' policies name for a use, FWD_COPY for USE 0 and 1 and BWD_COPY for USE 2 (R253, R592), each at
the frame after the one before (log entry 82). -/
def State.entryRuns (s : State) (p : StreamPlan) (prog use : Nat) : Nat → List EntryTensor → List EntryRun
  | _, [] => []
  | at_, t :: ts =>
    let w := fun k => s.tensorWord p.die p.owner prog t.index k
    let policy := (orderPolicy (bitsOf (w 0) 32 16)).1
    let col := policy / (if use = 2 then 8 else 4) % 2 == 1
    let runs := ((tensorCopies w).filter (·.col == col)).foldl (fun (acc : List EntryRun) c =>
      let here := match acc.getLast? with
        | some r => r.at_ + r.pages
        | none => at_
      acc ++ [{ tensor := t, page := c.base / 65536, at_ := here, pages := (c.base + c.bytes + 65535) / 65536 - c.base / 65536 }]) []
    runs ++ s.entryRuns p prog use (match runs.getLast? with
      | some r => r.at_ + r.pages
      | none => at_) ts

/-- The program of a launch record. -/
def State.planProg (s : State) (p : StreamPlan) : Nat := (s.recOr p.launch).prog

/-- The pages that the streamer reads for an entry: their frames now, and the frame of the landing area for each; none while one is absent. -/
def State.entryPages (s : State) (p : StreamPlan) (runs : List EntryRun) : Option (List (Nat × Nat)) :=
  ((runs.filter fun r => !r.tensor.gather).flatMap fun r => (List.range r.pages).map fun k => (r.page + k, r.at_ + k)).mapM fun q =>
    (s.readPa p.die p.owner (q.1 * 65536)).map fun pa => (pa / 65536, q.2)

/-- A frame copied by the streamer into a window frame, which keeps its own record; every sector of it has then been written (R450). -/
def State.streamCopy (s : State) (src dst : Nat) : State :=
  if src = dst then s
  else (s.copyFrame src dst).setFrame dst { s.frame dst with lastUse := s.stampNow, quarantined := false, rewritten := [] }

/-- Bytes that a gather brings, written frame by frame from a frame of the landing area on. -/
def State.landBytes (s : State) (p : StreamPlan) (at_ : Nat) (bs : List Byte) : State :=
  (List.range ((bs.length + 65535) / 65536)).foldl (fun s k => match p.landing[at_ + k]? with
    | some n => s.devWrite { unit := .coll p.die, owner := p.owner } (n * 65536) ((bs.drop (k * 65536)).take 65536)
    | none => s) s

/-- The generation check of a gathered tensor by the entry's GEN_MODE, against its own stamp or the recorded one (R544, R545). -/
def State.gatherMatches (s : State) (p : StreamPlan) (mode : Nat) (w : Nat → Word) (stamps : List (BitVec 32)) : Bool :=
  let at_ := bitsOf (w (if mode = 2 then 7 else 6)) 0 48 / 8 * 8
  mode == 0 || stamps.all fun x => x.toNat == bitsOf (s.virtWord p.die p.owner at_) 0 32

/-- One gathered tensor of an entry lands, and in record mode its stamp is recorded (R544, R545, R547). -/
def State.landGather (s : State) (p : StreamPlan) (mode : Nat) (w : Nat → Word) (at_ : Nat) (g : Gathered) : State :=
  let s := s.landBytes p at_ g.data
  if mode = 1 then
    let stamp := bitsOf (s.virtWord p.die p.owner (bitsOf (w 6) 0 48 / 8 * 8)) 0 32
    s.virtWrite { unit := .coll p.die, owner := p.owner } p.die (bitsOf (w 7) 0 48 / 8 * 8) (bytesOf stamp 8)
  else s

/-- Whether a plan's entry waits for its slot: entry `i` takes the slot of entry `i - W` (R438, R439). -/
def StreamPlan.slotFree (p : StreamPlan) (i : Nat) : Bool := decide (i < p.w) || p.released.contains (i - p.w)

/-- A plan of a die replaced. -/
def State.setPlan (s : State) (p : StreamPlan) : State := s.mapPlans fun q => if q.die == p.die && q.launch == p.launch then p else q

/-- The step of a launch record ends with GENERATION_MISMATCH (R43, R441, R545). -/
def State.genMismatch (s : State) (p : StreamPlan) : State :=
  let s := s.bump .collGenMismatchCnt p.die 0 1
  match s.seqs.find? fun q => q.launch == p.launch && cluDie q.cluster == p.die && !q.ended with
  | some q => (s.failSeq q.cluster p.launch stGenMismatch).grantContexts
  | none => s

/-- WINDOW_LIFT (R437 to R439): the first of the entries being fetched stands in the landing area once its pages are there to be read and its
gathers have matched; with its slot released the lift begins. -/
def windowLiftEffect (die : Fin 2) (launch : BitVec 12) (entry : BitVec 24) (gathered : List Gathered) (s : State) : State :=
  let i := entry.toNat
  match s.pool.plans.find? fun p => p.die == die.val && p.launch == launch.toNat with
  | none => s
  | some p =>
    let (use, mode, ts) := s.planEntry p i
    let runs := s.entryRuns p (s.planProg p) use 0 ts
    let words := fun (t : EntryTensor) k => s.tensorWord p.die p.owner (s.planProg p) t.index k
    let mine := ts.filterMap fun t => if t.gather then (gathered.find? fun g => g.place.val == t.place).map fun g => (t, g) else none
    if p.fetching.all (i ≤ ·) && p.fetching.contains i && p.fetched == [] && p.landing.length == p.size && p.slotFree i then
      match s.entryPages p runs with
      | none => s
      | some pages =>
        if mine.any fun q => !s.gatherMatches p mode (words q.1) q.2.stamps then s.genMismatch p
        else
          let s := pages.foldl (fun s q => match p.landing[q.2]? with
            | some dst => s.streamCopy q.1 dst
            | none => s) s
          let s := mine.foldl (fun s q => match runs.find? fun r => r.tensor.place == q.1.place with
            | some r => s.landGather p mode (words q.1) r.at_ q.2
            | none => s) s
          s.mapPlans fun q =>
            if q.die == p.die && q.launch == p.launch then { q with fetching := setErase i q.fetching, fetched := setInsert i q.fetched } else q
    else s

def execWindowLift (die : Fin 2) (launch : BitVec 12) (entry : BitVec 24) (gathered : List Gathered) (s : State) :
    Host.Outcome State Fault Refusal :=
  .next (windowLiftEffect die launch entry gathered s)

/-- WINDOW_LIFT_COMPLETE (R438, R440, R450): the landing area's frames stand in the entry's slot, and its readers go on; none of them is
quarantined. -/
def windowLiftCompleteEffect (die : Fin 2) (launch : BitVec 12) (entry : BitVec 24) (slot : BitVec 4) (s : State) : State :=
  let i := entry.toNat
  match s.pool.plans.find? fun p => p.die == die.val && p.launch == launch.toNat with
  | none => s
  | some p =>
    let into := p.slots.getD (i % p.w) []
    if slot.toNat == i % p.w && p.fetched.contains i && into.length == p.size && !p.landing.any (fun n => (s.frame n).quarantined) then
      let s := (p.landing.zip into).foldl (fun s q => s.streamCopy q.1 q.2) s
      s.mapPlans fun q =>
        if q.die == p.die && q.launch == p.launch then { q with fetched := setErase i q.fetched, lifted := setInsert i q.lifted } else q
    else s

def execWindowLiftComplete (die : Fin 2) (launch : BitVec 12) (entry : BitVec 24) (slot : BitVec 4) (s : State) :
    Host.Outcome State Fault Refusal :=
  .next (windowLiftCompleteEffect die launch entry slot s)

/-! ## Rebuilds (R249, R255, R256, R446 to R448) -/

/-- The virtual address of the counterpart of a sector (R249, R255). -/
def FrameRec.counterpart (f : FrameRec) (pa : Nat) : Nat :=
  let off := f.vpage * 65536 + pa % 65536 - f.copyBase
  let t := off / f.tileBytes
  let o := off % f.tileBytes
  let t' := if f.colCopy then t % f.kb * f.nb + t / f.kb else t % f.nb * f.kb + t / f.nb
  f.otherBase + t' * f.tileBytes + o / 32 * 32

/-- Whether a sector reads without an uncorrectable error. -/
def State.sectorSound (s : State) (pa : Nat) : Bool := !s.poisonAt pa && (setIn (pa / 32 * 32) 32 s.badCheck).isEmpty

def State.dropRebuild (s : State) (sector : Nat) : State :=
  { s with pool := { s.pool with rebuilds := s.pool.rebuilds.filter fun r => r.sector != sector } }

/-- A rebuilt sector written whole; its readers read it again (R446, R447). -/
def State.writeRebuilt (s : State) (sector : Nat) (bs : List Byte) : State :=
  let die := s.frameDie (sector / 65536)
  let s := ((s.putMem sector bs).bump .poolRebuildCnt die 0 1).dropRebuild sector
  s.retryChains s.chains

/-- R448: a rebuild fails: its frame is quarantined and the held lines are delivered poisoned. -/
def State.failRebuild (s : State) (sector : Nat) : State :=
  let n := sector / 65536
  let s := (s.dropRebuild sector).bump .poolRebuildFailCnt (s.frameDie n) 0 1
  let s := s.quarantine n sector 1
  s.retryChains s.chains

/-- SECTOR_REBUILD (R446 to R448): a failing sector of a frame in use is rebuilt from its counterpart on this package, asked for from
another, or its frame is quarantined. -/
def sectorRebuildEffect (addr : BitVec 48) (s : State) : State :=
  let sector := addr.toNat / 32 * 32
  let n := sector / 65536
  let f := s.frame n
  let s := { s with pool := { s.pool with uePosts := s.pool.uePosts.filter fun a => a != sector } }
  if f.st = .free || f.quarantined || s.sectorSound sector || (s.pool.rebuilds.any fun r => r.sector == sector) then s
  else if !f.rebuild then s.quarantine n sector 0
  else
    let die := s.frameDie n
    let va := f.counterpart sector
    match s.xlat die f.owner va with
    | .page pa _ _ _ _ =>
      let s := s.readRuns (s.maintAccess (pa / 65536) f.owner) [(pa / 32 * 32, 32)]
      if (s.frame (pa / 65536)).stamp = f.stamp ∧ s.sectorSound pa = true then s.writeRebuilt sector (s.memBytes (pa / 32 * 32) 32)
      else s.failRebuild sector
    | .remote pkg win ep woff _ _ =>
      let off := woff * 2048 + va % 65536 / 32
      let h := mkHeader 9 pkg s.ownPkg win ep f.owner off 1 (die * 32768) 0 0 0
      let r : Rebuild := { sector := sector, counterpart := off, pkg := some pkg, readers := [] }
      ({ s with pool := { s.pool with rebuilds := s.pool.rebuilds ++ [r] } }).post die
        { h with w3 := withBits h.w3 32 32 f.stamp } []
    | .absent _ _ => s.failRebuild sector

def execSectorRebuild (addr : BitVec 48) (s : State) : Host.Outcome State Fault Refusal := .next (sectorRebuildEffect addr s)

/-- REBUILD_TIMEOUT (R448): a rebuild that has failed, or has not ended within REBUILD_TIMEOUT. -/
def rebuildTimeoutEffect (addr : BitVec 48) (ms : BitVec 32) (failed : Bool) (s : State) : State :=
  let sector := addr.toNat / 32 * 32
  if (s.pool.rebuilds.any fun r => r.sector == sector) && (failed || decide (s.dnat dkRebuildTimeout ≤ ms.toNat)) then
    s.failRebuild sector
  else s

def execRebuildTimeout (addr : BitVec 48) (ms : BitVec 32) (failed : Bool) (s : State) : Host.Outcome State Fault Refusal :=
  .next (rebuildTimeoutEffect addr ms failed s)

/-- SHELF_UNREACHABLE (R451): every pool frame in the expander's range is quarantined. -/
def shelfUnreachableEffect (first count : BitVec 32) (s : State) : State :=
  s.pool.frames.foldl (fun s p =>
    if s.frameTier p.1 = 2 ∧ first.toNat ≤ p.1 ∧ p.1 < first.toNat + count.toNat ∧ p.2.st ≠ .free then
      s.quarantine p.1 (p.1 * 65536) 2
    else s) s

def execShelfUnreachable (first count : BitVec 32) (s : State) : Host.Outcome State Fault Refusal :=
  .next (shelfUnreachableEffect first count s)

/-! ## Swap-mode owners (R455, R456) -/

/-- Whether the swap of an owner's invocation is the next of a die: no swap runs there, and no invocation came before it (R456). -/
def State.swapNext (s : State) (die owner : Nat) : Bool :=
  !(s.pool.swapping.any fun p => p.1 == die) && (s.pool.invoked.find? fun p => p.1 == die) == some (die, owner)

/-- SWAP_INVOCATION (R455, R456): the set in place is written back and dropped, and the loading of this owner's set begins; swaps of a die run
one at a time, in launch order. -/
def swapInvocationEffect (die : Fin 2) (owner : BitVec 6) (s : State) : State :=
  let d := die.val
  let o := owner.toNat
  if !s.swapNext d o then s
  else
    let old := (s.pool.setOwner.find? fun p => p.1 == d).map (·.2)
    let mine := s.pool.frames.filter fun p =>
      s.frameTier p.1 == 0 && s.frameDie p.1 == d && some p.2.owner == old && (p.2.st == .dirty || p.2.st == .clean) && !p.2.quarantined
    let s := mine.foldl (fun s p =>
      match s.pool.moves.find? fun m => m.src == p.1 with
      | some m => s.finishMove m
      | none =>
        match p.2.st, p.2.lower with
        | .dirty, some low => ((s.copyFrame p.1 low).bump .poolWritebackCnt d 0 1).dropCached p.1
        | _, _ => s.dropCached p.1) s
    ({ s with pool := { s.pool with setOwner := s.pool.setOwner.filter (fun p => p.1 != d),
                                    invoked := s.pool.invoked.filter (fun p => p != (d, o)),
                                    swapping := s.pool.swapping ++ [(d, o)] } }).retryAll

def execSwapInvocation (die : Fin 2) (owner : BitVec 6) (s : State) : Host.Outcome State Fault Refusal :=
  .next (swapInvocationEffect die owner s)

/-- One frame of a gallery set: a cached-clean copy of an HBM frame of the owner, in a free gallery frame of the die, within the gallery
floor (R455). -/
def State.cacheFrame (s : State) (die owner : Nat) (p : FramePair) : State :=
  let src := p.src.toNat
  let dst := p.dst.toNat
  let f := s.frame src
  if f.st = .resident && f.owner == owner && s.frameTier src == 1 && (s.frame dst).st == .free && s.frameTier dst == 0 &&
      s.frameDie dst == die && !s.outside dst && decide (s.held owner 0 die < s.floorOf owner 0) then
    let s := (s.copyFrame src dst).switchPage owner f.vpage src dst
    s.setFrame dst { f with st := .clean, lower := some src, pinned := false, lastUse := s.stampNow }
  else s

/-- GALLERY_SET_LOAD_DONE (R455): the owner's set stands in the gallery, and its first chain may run. -/
def gallerySetLoadDoneEffect (die : Fin 2) (owner : BitVec 6) (loaded : List FramePair) (s : State) : State :=
  let d := die.val
  let o := owner.toNat
  if s.pool.swapping.contains (d, o) then
    let s := (loaded.foldl (fun s p => s.cacheFrame d o p) s).showUse o
    { s with pool := { s.pool with swapping := s.pool.swapping.filter (fun p => p != (d, o)),
                                   setOwner := s.pool.setOwner ++ [(d, o)] } }
  else s

def execGallerySetLoadDone (die : Fin 2) (owner : BitVec 6) (loaded : List FramePair) (s : State) :
    Host.Outcome State Fault Refusal :=
  .next (gallerySetLoadDoneEffect die owner loaded s)

/-! ## 2 MiB pages (R413, R419, R421) -/

/-- The valid entries of a type in a table of 512, as entry address and first word. -/
def State.entriesOf (s : State) (table type : Nat) : List (Nat × Word) :=
  ((List.range 512).map fun k => (table + 16 * k, s.memWord (table + 16 * k))).filter fun e => bitsOf e.2 0 2 == type

/-- The 2 MiB page entries of every owner's trees on both dies, as the entry's address, the page's first frame and its owner (R680, R681). -/
def State.bigPages (s : State) : List (Nat × Nat × Nat) :=
  (List.range 128).flatMap fun k =>
    let root := s.rd .poolXlatRoot (k / 64) (k % 64)
    if bitOf root 0 then
      (s.entriesOf (bitsOf root 13 35 * 8192) 1).flatMap fun e0 =>
        (s.entriesOf (bitsOf e0.2 13 35 * 8192) 1).flatMap fun e1 =>
          (s.entriesOf (bitsOf e1.2 13 35 * 8192) 2).map fun e2 => (e2.1, bitsOf e2.2 21 27 * 32, bitsOf e2.2 48 6)
    else []

/-- Whether the pool manager may install a 2 MiB page of an owner: its pinned frames in the tier, with the page's 32 added, stay within its floor
(R421), and its frames within its ceiling (R419). -/
def State.bigFits (s : State) (n owner : Nat) : Bool :=
  let tier := s.frameTier n
  let die := s.frameDie n
  s.dget (dkOwnerMode owner) != 0 && decide (s.pinnedIn owner tier die + 32 ≤ s.floorOf owner tier) && decide (s.held owner tier die + 32 ≤ s.ceilOf owner tier)

/-- The frames of a 2 MiB page: pinned frames of its owner (R413). -/
def State.claimBig (s : State) (n owner : Nat) : State :=
  ((List.range 32).foldl (fun s k =>
    s.setFrame (n + k) { st := .resident, owner := owner, pinned := true, big := true, homeDie := s.frameDie (n + k), lastUse := s.stampNow }) s).showUse owner

/-- The frames of a 2 MiB page that no tree maps any more are free (R413). -/
def State.releaseBig (s : State) (n owner : Nat) : State :=
  ((List.range 32).foldl (fun s k => if (s.frame (n + k)).big then s.setFrame (n + k) {} else s) s).showUse owner

/-- A new 2 MiB page entry: of a page that is one already, or installed where it fits, or else not written: what stood there stands, and the refusal is
counted (R421). -/
def State.installBig (s before : State) (e : Nat × Nat × Nat) : State :=
  if (s.frame e.2.1).big && (s.frame e.2.1).owner == e.2.2 then s
  else if s.bigFits e.2.1 e.2.2 then s.claimBig e.2.1 e.2.2
  else (s.putRaw e.1 (before.memBytes e.1 16)).bump .poolPinRefusedCnt (s.frameDie e.2.1) 0 1

/-- What the pool manager's writes of translation tables do to 2 MiB pages: new ones are installed or refused, and the frames of those unmapped
are released (R413, R421). The manager is keeper firmware, whose writes enter by the keeper's ports; the tables lie in reserved ranges (R680; log
entry 89). -/
def State.settleBig (s before : State) : State :=
  let old := before.bigPages
  let s := (s.bigPages.filter fun e => !old.contains e).foldl (fun s e => s.installBig before e) s
  let left := s.bigPages
  let gone := old.filter fun e => !(left.any fun x => x.2.1 == e.2.1)
  if gone = [] then s else (gone.foldl (fun s e => s.releaseBig e.2.1 e.2.2) s).retryAll

end Sys2Proof.Machine
end

