-- ==== Sys2Proof/Machine/Windows.lean ====
section
/-!
DEFINITION. Remote windows (spec/10_links_and_windows.md R486 to R506): window entries and their epochs, PUT and GET_REQ at the target,
responses at the origin, rebuild messages, forwarding.
-/
namespace Sys2Proof.Machine

/-! ## Acceptance (R495 to R497) -/

/-- R495: the cause of a refusal, none where the message is acceptable. -/
def State.refusal (s : State) (h : Words4) : Option Nat :=
  let die := hdrWindow h / 512
  let e := hdrWindow h % 512
  let put := mtype h == 1
  if s.winState die e ≠ 1 then some 0
  else if hdrEpoch h ≠ s.winEpoch die e then some 1
  else if hdrOwner h ≠ s.winOwner die e then some 2
  else if (if put then s.fld winEntryW1WriteEn die e else s.fld winEntryW1ReadEn die e) = 0 then some 3
  else if s.winRing die e then
    (if (s.winStage die e).slotBytes < hdrLen h * 32 then some 4 else none)
  else if s.fld winEntryW1Size die e < hdrOffset h + hdrLen h then some 4
  else none

/-- A message refused whole (R496). -/
def State.refuse (s : State) (h : Words4) (cause : Nat) : State :=
  let die := hdrWindow h / 512
  (s.bump .winRefusedCnt die 0 1).post die (answer h 5 0 cause 0) []

/-! ## Lines -/

/-- One good line of a PUT written by the target's own rules (R498), and the status of a page that cannot be written. -/
def State.writeLine (s : State) (g : Landing) (i : Nat) (l : LineSeg) : State × Nat :=
  let us := lineUnits (hdrOffset g.header) (hdrLen g.header) i
  let pas := us.map fun u => s.winPlace g u.1 true
  if pas.any Option.isNone then (s, stPageFault)
  else
    let bs := bytesOf l.data.toNat 128
    ((us.zip pas).foldl (fun s p => match p.2 with
      | some pa =>
        let s := s.devWrite (s.landingAccess g) pa ((bs.drop p.1.2).take 32)
        if l.poison then s.leavePoison [pa / 32] else s
      | none => s) s, 0)

/-- What the tries of a line come to: the good try if there is one, the failures that asked for it again, and whether its tries are
exhausted (R499, R500). -/
def lineTries (retry : Nat) (good : LineSeg → Bool) : Nat → LineTries → Option LineSeg × Nat × Bool
  | fails, [] => (none, min fails retry, decide (retry < fails))
  | fails, t :: ts => if good t then (some t, fails, false)
    else if retry < fails + 1 then (none, retry, true)
    else lineTries retry good (fails + 1) ts

/-- The lines of an accepted PUT dealt with, from line `i` on. -/
def State.takeLines (s : State) (g : Landing) : Nat → List LineTries → State × Landing
  | _, [] => (s, g)
  | i, t :: ts =>
    let (ok, relines, past) := lineTries (s.dnat dkLineCrcRetry) (segGood g.header i) 0 t
    let s := (List.range relines).foldl (fun s _ =>
      (s.bump .winRelineCnt g.die 0 1).post g.die (answer g.header 7 0 0 i) []) s
    let g0 := { g with left := g.left.filter (· != i) }
    match ok with
    | some l =>
      let (s, st) := s.writeLine g i l
      s.takeLines { g0 with status := if g0.status = 0 then st else g0.status } (i + 1) ts
    | none =>
      if past then s.takeLines { g0 with status := if g0.status = 0 then stLineCrc else g0.status } (i + 1) ts
      else s.takeLines g (i + 1) ts

/-- A header accepted (R497, R501, R505): counted to its epoch, its ring slot FILLING; its lines are written, or read and sent. -/
def State.acceptMsg (s : State) (link : Option (Fin 16)) (h : Words4) (lines : List LineTries) : State :=
  let die := hdrWindow h / 512
  let e := hdrWindow h % 512
  let put := mtype h == 1
  let ep := s.epochRec die e
  let ring := s.winStage die e
  let slot := if put && s.winRing die e then some (ep.ringPuts % ring.nslots) else none
  let s := s.setEpoch die e { ep with accepted := ep.accepted + 1, ringPuts := if put then ep.ringPuts + 1 else ep.ringPuts }
  let s := s.bump .winAcceptCnt die 0 1
  let s := match slot with
    | some k => s.putSlotToken ring k 1
    | none => s
  let n := lineCount (hdrOffset h) (hdrLen h)
  let num := s.fabric.landingNum
  let g : Landing := { num := num, die := die, entry := e, header := h, get := !put, link := link, left := List.range n, slot := slot }
  let s := { s with fabric := { s.fabric with landings := s.fabric.landings ++ [g], landingNum := num + 1 } }
  let s := if !put || 8 < n then s.post die (answer h 4 0 0 0) [] else s
  let s := if put then
      (let (s, g) := s.takeLines g 0 lines
       s.putLanding g)
    else s
  s.settleLandings

/-- A header at a window engine (R495, R496, R505): refused, made to wait for its ring slot, or accepted. -/
def State.takeHeader (s : State) (link : Option (Fin 16)) (h : Words4) (lines : List LineTries) : State :=
  let die := hdrWindow h / 512
  let e := hdrWindow h % 512
  match s.refusal h with
  | some cause => s.refuse h cause
  | none =>
    let ring := s.winStage die e
    let slot := (s.epochRec die e).ringPuts % ring.nslots
    if mtype h = 1 && s.winRing die e && !s.headEmpty ring slot then
      { s with fabric := { s.fabric with ringWaits := s.fabric.ringWaits ++ [⟨die, link, h, lines⟩] } }
    else s.acceptMsg link h lines

/-- A message of this package to itself reaches its target: its header has been sent. -/
def State.arrived (s : State) (h : Words4) : State :=
  let s := { s with fabric := { s.fabric with inbox := s.fabric.inbox.filter fun m => m.header != some h } }
  if srcPkg h = s.ownPkg && (mtype h == 1 || mtype h == 2) then s.markSent (hdrTag h) else s

/-- Whether a header waits behind one that waits for a ring slot: on the same link, or where neither came by a link at the same die (R505). -/
def RingWait.before (w : RingWait) (die : Nat) (link : Option (Fin 16)) : Bool := w.link == link && (link.isSome || w.die == die)

/-- A PUT or GET_REQ header; one behind a header that waits for a ring slot on the same link waits behind it (R505). -/
def State.headerArrives (s : State) (link : Option (Fin 16)) (h : Words4) (lines : List LineTries) : State :=
  let s := s.arrived h
  let die := hdrWindow h / 512
  if s.fabric.ringWaits.any fun w => w.before die link then
    { s with fabric := { s.fabric with ringWaits := s.fabric.ringWaits ++ [⟨die, link, h, lines⟩] } }
  else s.takeHeader link h lines

/-- PUT (R495 to R500, R505). -/
def putEffect (link : Option (Fin 16)) (header : Words4) (lines : List LineTries) (s : State) : State :=
  if mtype header = 1 then s.headerArrives link header lines else s

def execPut (link : Option (Fin 16)) (header : Words4) (lines : List LineTries) (s : State) : Host.Outcome State Fault Refusal :=
  .next (putEffect link header lines s)

/-- GET_REQ (R495 to R498). -/
def getReqEffect (link : Option (Fin 16)) (header : Words4) (s : State) : State :=
  if mtype header = 2 then s.headerArrives link header [] else s

def execGetReq (link : Option (Fin 16)) (header : Words4) (s : State) : Host.Outcome State Fault Refusal :=
  .next (getReqEffect link header s)

/-- RING_SLOT_ACCEPT (R505): the waiting headers of a die in order; those on a link whose first still waits wait on. -/
def ringSlotAcceptEffect (die : Fin 2) (s : State) : State :=
  let ws := s.fabric.ringWaits
  let s := { s with fabric := { s.fabric with ringWaits := [] } }
  ws.foldl (fun s w =>
    if w.die = die.val then
      (if s.fabric.ringWaits.any fun v => v.before w.die w.link then
         { s with fabric := { s.fabric with ringWaits := s.fabric.ringWaits ++ [w] } }
       else s.takeHeader w.link w.header w.lines)
    else { s with fabric := { s.fabric with ringWaits := s.fabric.ringWaits ++ [w] } }) s

def execRingSlotAccept (die : Fin 2) (s : State) : Host.Outcome State Fault Refusal := .next (ringSlotAcceptEffect die s)

/-! ## Responses at the origin (R491 to R493, R499) -/

/-- What a GET_REQ asked for, from its good lines: its bytes, and the sectors of its own addresses that came poisoned (R491, R498). -/
def OriginMsg.gather (m : OriginMsg) (header : Words4) (ls : List LineSeg) : List Byte × List Nat :=
  let off := hdrOffset header
  let us := ls.zipIdx.flatMap fun (l, i) => (lineUnits off (hdrLen header) i).map fun u => (u.1, ((bytesOf l.data.toNat 128).drop u.2).take 32, l.poison)
  (((us.flatMap fun u => u.2.1).drop (m.offset % 32)).take m.length,
   (us.filter fun u => u.2.2).map fun u => (m.dest + u.1 - m.offset % 32) / 32)

/-- A GET_REQ's data handed to the stage that waits for it, which goes on (R491). -/
def State.deliverGet (s : State) (m : OriginMsg) (bs : List Byte) (bad : List Nat) : State :=
  match m.chain.bind s.findChain with
  | none => s
  | some c =>
    (s.setChain { c with stages := c.stages.modify m.stage fun g =>
      { g with ovl := g.ovl ++ [(m.dest, bs)], overBad := g.overBad ++ bad } }).retryStage c.ref m.stage

/-- GET_DATA (R491, R492, R498): once every line is good, the data go to the stage that asked for them, with their poison flags; a line whose
further attempts are exhausted, or the target's status, is the outcome. -/
def getDataEffect (header : Words4) (lines : List LineTries) (s : State) : State :=
  if mtype header ≠ 3 then s
  else
    let s := s.arrived header
    let tag := hdrTag header
    match s.sentMsgs.find? fun m => m.num == tag && m.get with
    | none => s.msgOutcome tag stOk
    | some m =>
      let tries := (List.range (lineCount (hdrOffset header) (hdrLen header))).map fun i =>
        lineTries (s.dnat dkLineCrcRetry) (segGood header i) 0 (lines.getD i [])
      if tries.any fun t => t.2.2 then s.msgOutcome tag stLineCrc
      else if tries.any fun t => t.1.isNone then s
      else
        let st := s.responseStatus tag (hdrStatus header)
        let (bs, bad) := m.gather header (tries.filterMap (·.1))
        let s := s.msgOutcome tag st
        if st = stOk then s.deliverGet m bs bad else s

def execGetData (header : Words4) (lines : List LineTries) (s : State) : Host.Outcome State Fault Refusal :=
  .next (getDataEffect header lines s)

/-- ACCEPT (R497): the message has been accepted; one whose outcome is recorded makes the response late (R492). -/
def acceptEffect (header : Words4) (s : State) : State :=
  if mtype header ≠ 4 then s
  else
    let s := s.arrived header
    if s.sentMsgs.any fun m => m.num == hdrTag header then s else s.bump .winLateRespCnt (hdrTag header / 32768) 0 1

def execAccept (header : Words4) (s : State) : Host.Outcome State Fault Refusal := .next (acceptEffect header s)

/-- The lines of a message not yet sent are dropped from the queues (R493). -/
def State.stopLines (s : State) (h : Words4) : State :=
  (List.range 16).foldl (fun s l =>
    let x := s.link l
    let cut (m : TxMsg) : TxMsg :=
      match m.header with
      | some y => if y.w0 = h.w0 ∧ y.w1 = h.w1 ∧ y.w2 = h.w2 then { m with lines := m.lines.take ((m.done + 135 - 32) / 136) } else m
      | none => m
    if x.tx0 = [] then s else s.setLink l { x with tx0 := x.tx0.map cut }) s

/-- REFUSE (R492, R493): the origin stops the PUT; the outcome is WINDOW_CLOSED, or ABORTED after an abort. -/
def refuseEffect (header : Words4) (s : State) : State :=
  if mtype header ≠ 5 then s
  else
    let s := s.arrived header
    let tag := hdrTag header
    match s.sentMsgs.find? fun m => m.num == tag with
    | none => s.msgOutcome tag stOk
    | some m => (s.stopLines (s.originHeader m)).msgOutcome tag (if m.aborted then stAborted else stWindowClosed)

def execRefuse (header : Words4) (s : State) : Host.Outcome State Fault Refusal := .next (refuseEffect header s)

/-- LANDED (R492). -/
def landedEffect (header : Words4) (s : State) : State :=
  if mtype header ≠ 6 then s
  else
    let s := s.arrived header
    s.msgOutcome (hdrTag header) (s.responseStatus (hdrTag header) (hdrStatus header))

def execLanded (header : Words4) (s : State) : Host.Outcome State Fault Refusal := .next (landedEffect header s)

/-- RELINE (R499): the origin reads the line again from its source and sends it after what is queued on VC 0. -/
def relineEffect (header : Words4) (s : State) : State :=
  if mtype header ≠ 7 then s
  else
    let s := s.arrived header
    match s.sentMsgs.find? fun m => m.num == hdrTag header && !m.get with
    | none => s.bump .winLateRespCnt (hdrTag header / 32768) 0 1
    | some m =>
      match m.putLines[hdrLine header]?, s.routeLink m.die m.pkg with
      | some l, some k => s.enqueue k { header := none, lines := [l] } 0
      | _, _ => s

def execReline (header : Words4) (s : State) : Host.Outcome State Fault Refusal := .next (relineEffect header s)

/-- LOST (R492). -/
def lostEffect (header : Words4) (s : State) : State :=
  if mtype header ≠ 8 then s else (s.arrived header).msgOutcome (hdrTag header) stPeerLost

def execLost (header : Words4) (s : State) : Host.Outcome State Fault Refusal := .next (lostEffect header s)

/-- MSG_RESPONSE_TIMEOUT (R492, R500): the origin's message ends PEER_LOST; the target's is torn, its lines that have not arrived not
written. -/
def msgResponseTimeoutEffect (atTarget : Bool) (tag : BitVec 16) (pkg : BitVec 12) (ms : BitVec 32) (s : State) : State :=
  if ms.toNat < s.dnat dkMsgResponseLimit then s
  else if atTarget then
    match s.fabric.landings.find? fun g =>
        !g.get && !g.left.isEmpty && hdrTag g.header == tag.toNat && srcPkg g.header == pkg.toNat with
    | none => s
    | some g => (s.putLanding { g with left := [], status := if g.status = 0 then stPeerLost else g.status }).settleLandings
  else
    match s.sentMsgs.find? fun m => m.num == tag.toNat && m.sent with
    | some _ => s.msgOutcome tag.toNat stPeerLost
    | none => s

def execMsgResponseTimeout (atTarget : Bool) (tag : BitVec 16) (pkg : BitVec 12) (ms : BitVec 32) (s : State) :
    Host.Outcome State Fault Refusal :=
  .next (msgResponseTimeoutEffect atTarget tag pkg ms s)

/-! ## Opening and closing (R501 to R504) -/

/-- A command or write that a window entry's state does not admit (R494, R504). -/
def State.winIgnored (s : State) (die : Nat) : State := s.bump .winCmdIgnoredCnt die 0 1

/-- WINDOW_OPEN (R502, R504): a CLOSED entry becomes OPEN at its next epoch. -/
def windowOpenEffect (die : Fin 2) (value : Word) (s : State) : State :=
  let d := die.val
  if bitOf value 9 then s
  else
    let s := s.storeReg .winCmd d 0 value
    let e := bitsOf value 0 9
    if !bitOf value 63 then s
    else if s.winState d e ≠ 0 then s.winIgnored d
    else
      let ep := s.winEpoch d e
      let s := s.setFld winEntryW0Epoch d e (if ep = 0xFFFF then 1 else ep + 1)
      (s.setFld winEntryW1State d e 1).setEpoch d e { opened := s.beamNow }

def execWindowOpen (die : Fin 2) (value : Word) (s : State) : Host.Outcome State Fault Refusal := .next (windowOpenEffect die value s)

/-- WINDOW_CLOSE (R501, R503, R504): an OPEN entry becomes CLOSING, and headers that wait for its ring slots are refused. -/
def windowCloseEffect (die : Fin 2) (value : Word) (s : State) : State :=
  let d := die.val
  if !bitOf value 9 then s
  else
    let s := s.storeReg .winCmd d 0 value
    let e := bitsOf value 0 9
    if !bitOf value 63 then s
    else if s.winState d e ≠ 1 then s.winIgnored d
    else
      let s := s.setFld winEntryW1State d e 2
      let mine (w : RingWait) : Bool := hdrWindow w.header == d * 512 + e && mtype w.header == 1
      let ws := s.fabric.ringWaits
      let s := { s with fabric := { s.fabric with ringWaits := ws.filter fun w => !mine w } }
      (ws.filter mine).foldl (fun s w => s.refuse w.header 0) s

def execWindowClose (die : Fin 2) (value : Word) (s : State) : Host.Outcome State Fault Refusal := .next (windowCloseEffect die value s)

/-- WINDOW_CLOSE_RECORD (R501, R603, R611): the last message of a closing epoch is done: the entry is CLOSED, its record written, its
token set. A chain that still waits on the ring of a ring window ends with WINDOW_CLOSED (R350). -/
def windowCloseRecordEffect (die : Fin 2) (entry : BitVec 9) (s : State) : State :=
  let d := die.val
  let e := entry.toNat
  if s.winState d e = 2 && !(s.fabric.landings.any fun g => g.die == d && g.entry == e) then
    let ep := s.epochRec d e
    let owner := s.winOwner d e
    let s := s.setFld winEntryW1State d e 0
    let s := s.writeRecord { unit := .maint d, owner := owner } d (s.fld winEntryW3CloseRec d e * 64)
      (completionRecord ep.torn 1 false false 0 owner e 0 s.beamNow ep.opened ep.accepted 0)
      (if s.fld winEntryW3TokenEn d e = 1 then some (s.fld winEntryW3CloseToken d e) else none)
    if s.winRing d e then s.headFails (s.winStage d e) stWindowClosed else s
  else s

def execWindowCloseRecord (die : Fin 2) (entry : BitVec 9) (s : State) : Host.Outcome State Fault Refusal :=
  .next (windowCloseRecordEffect die entry s)

/-! ## Rebuild messages (R446) -/

/-- REBUILD_REQ (R446): the sector a remote page names is read, and returned where its frame carries the stamp asked for and it is sound. -/
def rebuildReqEffect (header : Words4) (s : State) : State :=
  if mtype header ≠ 9 then s
  else
    let s := s.arrived header
    let die := hdrWindow header / 512
    let e := hdrWindow header % 512
    let g : Landing := { num := 0, die := die, entry := e, header := header, get := true }
    let place := if s.winState die e = 1 ∧ hdrEpoch header = s.winEpoch die e then s.winPlace g 0 false else none
    let (s', l, _) := s.readLine g 0
    match place with
    | some pa =>
      let ok := (s.frame (pa / 65536)).stamp = bitsOf header.w3 32 32 ∧ s.sectorSound pa = true
      s'.post die (answer header 10 (if ok then stOk else stPoisonConsumed) 0 0) [l]
    | none => s.post die (answer header 10 stWindowClosed 0 0) [l]

def execRebuildReq (header : Words4) (s : State) : Host.Outcome State Fault Refusal := .next (rebuildReqEffect header s)

/-- REBUILD_DATA (R446, R448): the counterpart's sector is written whole, or the rebuild fails. -/
def rebuildDataEffect (header : Words4) (line : LineSeg) (s : State) : State :=
  if mtype header ≠ 10 then s
  else
    let s := s.arrived header
    match s.pool.rebuilds.find? fun r => r.pkg == some (srcPkg header) && r.counterpart == hdrOffset header with
    | none => s
    | some r =>
      if hdrStatus header = stOk && segGood header 0 line && !line.poison then
        s.writeRebuilt r.sector (((bytesOf line.data.toNat 128).drop (hdrOffset header % 4 * 32)).take 32)
      else s.failRebuild r.sector

def execRebuildData (header : Words4) (line : LineSeg) (s : State) : Host.Outcome State Fault Refusal :=
  .next (rebuildDataEffect header line s)

/-! ## Forwarding (R516 to R519) -/

/-- MESSAGE_FORWARD (R517 to R519): a message that is not for the die it arrived on goes on by the die's route table or across UCIe. -/
def messageForwardEffect (die : Fin 2) (header : Words4) (lines : List LineSeg) (s : State) : State :=
  if dstPkg header = s.ownPkg ∧ dstDie header = die.val then s else s.sendMsg 2 die.val header lines none true

def execMessageForward (die : Fin 2) (header : Words4) (lines : List LineSeg) (s : State) : Host.Outcome State Fault Refusal :=
  .next (messageForwardEffect die header lines s)

/-- HELD_MESSAGE_RELEASE (R479, R519): the held messages of a die, oldest first, each by its route if it has one now. -/
def heldMessageReleaseEffect (die : Fin 2) (s : State) : State :=
  let hs := s.fabric.held
  let s := { s with fabric := { s.fabric with held := [] } }
  hs.foldl (fun s m =>
    if m.die = die.val then s.sendMsg 2 m.die m.header m.lines m.answers m.forwarded
    else { s with fabric := { s.fabric with held := s.fabric.held ++ [m] } }) s

def execHeldMessageRelease (die : Fin 2) (s : State) : Host.Outcome State Fault Refusal := .next (heldMessageReleaseEffect die s)

end Sys2Proof.Machine
end

