-- ==== Sys2Proof/Machine/Daymark.lean ====
section
/-!
DEFINITION. Daymarks and restores (spec/13_daymarks_and_recovery.md R630 to R652).
-/
namespace Sys2Proof.Machine

/-! ## Taking effect (R630 to R637) -/

/-- The page list of a daymark record: pages in list order, each once, a 2 MiB page as its 32 frames, with the clamps it takes (R631,
R632). -/
def State.dmList (s : State) (r : RecInst) : List DmPage × Nat :=
  let word := fun k => s.virtWord 0 r.owner (r.prog + 8 * k)
  let n0 := bitsOf (word 0) 0 32
  let n := if n0 = 0 then 1 else min n0 65536
  let runs := (List.range n).map fun i =>
    let w0 := word (8 + 2 * i)
    let w1 := word (9 + 2 * i)
    (bitsOf w0 16 32, bitsOf w1 0 32, bitsOf w1 32 2)
  let add (acc : List DmPage) (v cls : Nat) : List DmPage :=
    if acc.any (·.vpage == v) then acc else acc ++ [{ vpage := v, cls := cls }]
  let big := fun v => match s.dmPlace r.owner (v * 65536) with
    | some (_, _, b) => b
    | none => false
  let pages := runs.foldl (fun acc run =>
    (List.range (max 1 run.2.1)).foldl (fun acc i =>
      let v := run.1 + i
      if big v then (List.range 32).foldl (fun acc j => add acc (v / 32 * 32 + j) run.2.2) acc else add acc v run.2.2) acc) []
  (pages, b2n (n != n0) + runs.countP fun run => run.2.1 == 0)

/-- The image slots and their distance in bytes of a daymark record (R630). -/
def RecInst.dmImages (r : RecInst) : Nat := max 2 (r.kindArg / 4 % 8 + 1)

def RecInst.dmStride (r : RecInst) : Nat := r.kindArg / 256 % 2 ^ 32 * 65536

/-- R634: whether a daymark is refused. -/
def State.dmRefused (s : State) (r : RecInst) (d : Daymark) : Bool :=
  let size := d.manifestBytes + d.pages.length * 65536
  (d.pages.any fun p => match s.dmPlace d.owner (p.vpage * 65536) with
    | some (_, o, _) => o != d.owner
    | none => true) ||
  decide (r.dmStride < size) ||
  ((List.range (size / 65536)).any fun k => (s.dmPlace d.owner (d.image + k * 65536)).isNone)

/-- R637: whether a daymark's list shares a page with one still incomplete. -/
def State.dmOverlaps (s : State) (d : Daymark) : Bool :=
  s.daymarks.any fun x => x.owner == d.owner && x.pages.any fun p => d.pages.any fun q => q.vpage == p.vpage

/-- DAYMARK_TAKE_EFFECT (R635): its pages protected, DAYMARK_SEQ one higher, the header written, the copiers entered (R599, R634, R637,
R639, R647). -/
def daymarkTakeEffectEffect (index : BitVec 12) (s : State) : State :=
  let l := index.toNat
  match s.findRec l with
  | none => s
  | some r =>
    if r.kind ≠ 2 ∨ s.recState l ≠ 2 ∨ !(r.wait.all s.tokenSet) then s
    else
      let (pages, clamps) := s.dmList r
      let sq := (s.dnat (dkDaymarkSeq r.owner) + 1) % 2 ^ 32
      let d : Daymark :=
        { launch := l, owner := r.owner, stepRev := r.stepRev, seq := sq,
          image := r.saveArea / 65536 * 65536 + sq % r.dmImages * r.dmStride, effect := s.beamNow, pages := pages }
      if s.dmRefused r d then
        (s.bumpBoth .beamRecClampCnt clamps).completeRecord
          { r with status := stPageFault, launchBeam := s.beamNow, commitBeam := s.beamNow }
      else if s.dmOverlaps d then s
      else
        let s := s.bumpBoth .beamRecClampCnt clamps
        let s := pages.foldl (fun s p => match s.dmFrame d.owner p.vpage with
          | some n => s.setFrame n { s.frame n with prot := true }
          | none => s) s
        let s := s.dput (dkDaymarkSeq r.owner) (sq : Int)
        let s := if r.consume then s.putTokens r.wait false else s
        let s := ((s.setRec { r with launchBeam := s.beamNow }).setRecState l 3)
        let s := { s with daymarks := s.daymarks ++ [d] }
        (s.dmHeader d false).enterCopiers

def execDaymarkTakeEffect (index : BitVec 12) (s : State) : Host.Outcome State Fault Refusal := .next (daymarkTakeEffectEffect index s)

/-! ## Copying (R640 to R648) -/

/-- A page copied: its frame's bytes at the slot, its manifest entry, the counters, and the end of the page's protection (R640, R642). -/
def State.pageCopied (s : State) (v : Nat) (d : Daymark) (c : DmCopy) (p : DmPage) (frame : Nat) : State :=
  let (s, crc, bad) := s.dmCopyPage d c.page frame
  let p := { p with copied := true, poisoned := bad, crc := crc }
  let d := { d with pages := d.pages.set c.page p }
  let s := ((s.setDaymark d).dmEntry d c.page p).bump .poolDmPagesCnt v 0 1
  let s := if c.touch then s.bump .poolDmFirstTouchCnt v 0 1 else s
  let s := if bad then s.bump .poolDmPoisonPageCnt v 0 1 else s
  let s := { s with copying := s.copying.filter fun x => x.die != v }
  let s := s.unprotect frame
  let s := if s.dmLeft d v = 0 then
      (match d.entry v with
       | some e => (s.endAct v e false).setDaymark (d.setEntry v none)
       | none => s)
    else s
  (s.wakeCopier v).showDaymarks

/-- PAGE_COPY_DONE (R640, R642, R643): the page's protection ends, its manifest entry is written, the writes that waited on it proceed, and
the copier takes its next page. -/
def pageCopyDoneEffect (die : Fin 2) (failed : Bool) (s : State) : State :=
  let v := die.val
  let s := s.wakeCopier v
  match s.copying.find? (·.die == v) with
  | none => s
  | some c =>
    match s.daymarks.find? (·.launch == c.launch) with
    | none => s
    | some d =>
      if failed then s.failDaymark d.launch stTierFail
      else
        match d.pages[c.page]? with
        | none => s
        | some p =>
          match s.dmFrame d.owner p.vpage with
          | none => s
          | some frame =>
            if s.dmHeldUp frame then s
            else
              s.pageCopied v d c p frame

def execPageCopyDone (die : Fin 2) (failed : Bool) (s : State) : Host.Outcome State Fault Refusal :=
  .next (pageCopyDoneEffect die failed s)

/-- DAYMARK_COMMIT (R647, R648): once every page is copied, the header reads COMPLETE and the record completes. -/
def daymarkCommitEffect (index : BitVec 12) (s : State) : State :=
  let l := index.toNat
  match s.daymarks.find? (·.launch == l), s.findRec l with
  | some d, some r =>
    if d.pages.any fun p => !p.copied then s
    else
      let s := s.dmHeader d true
      let bad := d.pages.any (·.poisoned)
      let s := if bad then s else s.dput (dkDaymarkCleanRev d.owner) (d.stepRev : Int)
      let s := s.closeDaymark d
      s.completeRecord { r with status := if bad then stPoisonConsumed else stOk, commitBeam := s.beamNow, ops := 0, count := d.pages.length }
  | _, _ => s

def execDaymarkCommit (index : BitVec 12) (s : State) : Host.Outcome State Fault Refusal := .next (daymarkCommitEffect index s)

/-! ## Restores (R651, R652) -/

/-- DAYMARK_RESTORE (R651): POOL_DM_RESTORE_CMD stored; GO starts a restore unless one is in progress. -/
def daymarkRestoreEffect (die : Fin 2) (value : Word) (s : State) : State :=
  let d := die.val
  let s := s.storeReg .poolDmRestoreCmd d 0 value
  if bitOf value 63 && s.fld poolDmRestoreStatusBusy d == 0 then
    let image := s.fld poolDmRestoreAddrImg d * 65536
    { (s.wr .poolDmRestoreStatus d 0 1#64) with restores := s.restores ++ [(d, bitsOf value 0 6, image)] }
  else s

def execDaymarkRestore (die : Fin 2) (value : Word) (s : State) : Host.Outcome State Fault Refusal := .next (daymarkRestoreEffect die value s)

/-- A byte of an image: of a local page from memory, of any other as its read delivered it. -/
def State.imageByte (s : State) (die owner : Nat) (fetched : List (BitVec 64 × List Byte)) (va : Nat) : Byte :=
  match s.readPa die owner va with
  | some pa => s.memByte pa
  | none =>
    (fetched.findSome? fun f => if f.1.toNat ≤ va then f.2[va - f.1.toNat]? else none).getD 0#8

def State.imageBytes (s : State) (die owner : Nat) (fetched : List (BitVec 64 × List Byte)) (va n : Nat) : List Byte :=
  (List.range n).map fun k => s.imageByte die owner fetched (va + k)

/-- Pages of an image restored by one die, from entry `k` on: the state, the pages written and the result. -/
def State.restorePages (s : State) (die owner image count : Nat) (fetched : List (BitVec 64 × List Byte)) :
    Nat → Nat → Nat → State × Nat × Nat
  | 0, _, done => (s, done, 0)
  | fuel + 1, k, done =>
    let entry := s.imageBytes die owner fetched (image + 128 + 16 * k) 16
    let e0 := natOfBytes (entry.take 8)
    let crc := natOfBytes (entry.drop 8) % 2 ^ 32
    let vpage := e0 / 65536 % 2 ^ 32
    match s.dmPlace owner (vpage * 65536) with
    | none => (s, done, 3)
    | some (pa, o, _) =>
      if o ≠ owner then (s, done, 3)
      else if s.frameDie (pa / 65536) ≠ die then s.restorePages die owner image count fetched fuel (k + 1) done
      else
        let manifest := (128 + 16 * count + 65535) / 65536 * 65536
        let bs := s.imageBytes die owner fetched (image + manifest + k * 65536) 65536
        if (crc32 bs).toNat ≠ crc then (s, done, 2)
        else
          let s := s.devWrite (s.maintAccess (pa / 65536) owner) pa bs
          let s := if e0 / 4 % 2 = 1 then s.leavePoison (sectorsOf pa 65536) else s
          s.restorePages die owner image count fetched fuel (k + 1) (done + 1)

/-- The runs of an image that lie on this package: its manifest, and its pages from entry `k` on. -/
def State.imageRuns (s : State) (die owner image count : Nat) : List (Nat × Nat) :=
  let manifest := (128 + 16 * count + 65535) / 65536 * 65536
  s.localRuns die owner ((List.range (manifest / 65536 + count)).map fun k => (image + k * 65536, 65536))

/-- Whether a page of an image must wait to be written: its frame is protected for a daymark (R642). -/
def State.restoreWaits (s : State) (die owner image count : Nat) (fetched : List (BitVec 64 × List Byte)) : Bool :=
  (List.range count).any fun k =>
    let e := natOfBytes (s.imageBytes die owner fetched (image + 128 + 16 * k) 8)
    match s.dmPlace owner (e / 65536 % 2 ^ 32 * 65536) with
    | some (pa, o, _) => o == owner && s.frameDie (pa / 65536) == die && ((s.frame (pa / 65536)).prot || s.groupsOut (pa / 65536))
    | none => false

/-- A restore's pages written and counted, and its result shown (R652). -/
def State.restoreImage (s : State) (d owner image count : Nat) (good : Bool) (fetched : List (BitVec 64 × List Byte)) : State :=
  let s := { s with restores := s.restores.filter (·.1 != d) }
  let s := s.readRuns { unit := .maint d, owner := owner } (s.imageRuns d owner image count)
  let (s, pages, res) := if !good then (s, 0, 1) else s.restorePages d owner image count fetched count 0 0
  let s := s.wr .poolDmRestoreStatus d 0 (BitVec.ofNat 64 (res * 2 + pages % 2 ^ 32 * 2 ^ 32))
  s.bump .poolDmRestorePageCnt d 0 pages

/-- RESTORE_END (R652): not while a page of the image waits to be written. -/
def restoreEndEffect (die : Fin 2) (fetched : List (BitVec 64 × List Byte)) (s : State) : State :=
  let d := die.val
  match s.restores.find? (·.1 == d) with
  | none => s
  | some (_, owner, image) =>
    let w0 := natOfBytes (s.imageBytes d owner fetched image 8)
    let good := w0 % 2 ^ 32 == 0x44594D4B && w0 / 2 ^ 63 == 1
    let count := if good then natOfBytes (s.imageBytes d owner fetched (image + 32) 4) else 0
    if s.restoreWaits d owner image count fetched then s else s.restoreImage d owner image count good fetched

def execRestoreEnd (die : Fin 2) (fetched : List (BitVec 64 × List Byte)) (s : State) : Host.Outcome State Fault Refusal :=
  .next (restoreEndEffect die fetched s)

end Sys2Proof.Machine
end

