-- ==== Sys2Proof/Machine/Beam.lean ====
section
/-!
DEFINITION. Launch records (spec/12_beam_and_launching.md R585 to R627): arming, becoming live, launching, pre-emption, quiet windows,
ends, completion rings, dependency tokens and aborts.
-/
namespace Sys2Proof.Machine

/-! ## Arming and becoming live (R586, R595, R596) -/

/-- RECORD_ARM (R584, R586): the keeper writes the sectors to the table in order, and the record's state sees them. -/
def recordArmEffect (index : BitVec 12) (first : Option Words4) (second : Words4) (s : State) : State :=
  let a : Access := { unit := .keeper, owner := s.fld beamTableOwner 0 }
  let at_ := s.recAddr index.toNat
  let s := s.settleTable
  let s := match first with
    | some w => s.devWrite a at_ (words4Bytes w)
    | none => s
  (s.devWrite a (at_ + 32) (words4Bytes second)).settleTable

def execRecordArm (index : BitVec 12) (first : Option Words4) (second : Words4) (s : State) : Host.Outcome State Fault Refusal :=
  .next (recordArmEffect index first second s)

/-- A PENDING record becomes LIVE (R587, R594, R595). -/
def State.goLive (s : State) (r : RecInst) : State :=
  let s := if r.late then s.bumpBoth .beamLateCnt 1 else s
  let r := { r with liveBeam := s.beamNow, waitTok := r.wait.find? fun t => !s.tokenSet t }
  (s.setRec r).setRecState r.index 2

/-- NOW_RECORD_LIVE (R596). -/
def nowRecordLiveEffect (index : BitVec 12) (s : State) : State :=
  let s := s.settleTable
  match s.findRec index.toNat with
  | some r => if r.now && s.recState r.index == 1 then s.goLive r else s
  | none => s

def execNowRecordLive (index : BitVec 12) (s : State) : Host.Outcome State Fault Refusal := .next (nowRecordLiveEffect index s)

/-! ## Launching (R581, R597 to R600) -/

/-- Whether launches take place (R581). -/
def State.launching (s : State) : Bool := 2 ≤ s.fld beamStatusState 0

/-- Whether a record can launch (R581, R597, R612). -/
def State.recReady (s : State) (r : RecInst) : Bool :=
  r.kind == 0 && s.recState r.index == 2 && r.wait.all s.tokenSet && s.beam.quiet.isNone &&
  !(s.beam.doneWait.any fun w => w.owner == r.owner) && s.launching

/-- CLUSTER_MASK of a record's program. -/
def State.recMask (s : State) (r : RecInst) : Nat := bitsOf (s.progWord 0 r.owner r.prog 0) 0 24

/-- The frame records of the pages of one array of a listed tensor (R591). -/
def State.loadCopy (s : State) (die owner : Nat) (w : Nat → Word) (c : TensorCopy) : State :=
  (List.range ((c.base + c.bytes - 1) / 65536 + 1 - c.base / 65536)).foldl (fun s i =>
    match s.framePa die owner ((c.base / 65536 + i) * 65536) with
    | some pa => s.setFrame (pa / 65536) (s.nameFrame die owner w c (s.frame (pa / 65536)))
    | none => s) s

/-- The tensor table of a program read into the frame records of a die, its clamps counted (R254, R591). -/
def State.loadTensors (s : State) (die : Nat) (r : RecInst) : State :=
  (List.range (s.tensorCount die r.owner r.prog)).foldl (fun s i =>
    let w := s.tensorWord die r.owner r.prog i
    (tensorCopies w).foldl (fun s c => s.loadCopy die r.owner w c) (s.clamped (12 * die) (tensorClamps w))) s

/-- Frames of a window slot and of the landing area: those of the largest use of the plan, a use of no stated size taking one (R436, R592). -/
def State.planSize (s : State) (die owner base entries : Nat) : Nat :=
  (List.range entries).foldl (fun m i => max m ((bitsOf (s.virtWord die owner (base + 64 * (i + 1))) 32 32 + 63) / 64)) 1

/-- A die's stream plan begun: its window frames are taken, and its first W entries are fetched (R436, R439, R592). -/
def State.startPlan (s : State) (die : Nat) (r : RecInst) : State :=
  match s.planHeader die r.owner r.prog with
  | none => s
  | some (base, w, entries) =>
    let p : StreamPlan := { die := die, launch := r.index, owner := r.owner, base := base, w := w, entries := entries,
                            size := s.planSize die r.owner base entries, slots := List.replicate w [],
                            fetching := List.range (min w entries) }
    let (s, p) := s.fillPlan p
    { s with pool := { s.pool with plans := s.pool.plans ++ [p] } }

/-- What a record left behind it in earlier launches goes: its plans with their frames, sequences, reruns and regenerations. -/
def State.clearRun (s : State) (launch : Nat) : State :=
  let s := (s.pool.plans.filter (·.launch == launch)).foldl State.freePlan s
  { s with
    seqs := s.seqs.filter (·.launch != launch)
    reruns := s.reruns.filter (·.launch != launch)
    regens := s.regens.filter (·.1 != launch)
    pool := { s.pool with plans := s.pool.plans.filter (·.launch != launch) } }

/-- The token wait of a record, as the beam units trace it (R834). -/
def State.traceToken (s : State) (r : RecInst) (ended : Bool) : State :=
  match r.waitTok with
  | none => s
  | some t =>
    let put (s : State) (die : Nat) : State :=
      s.traceWait die 0xA1 (2 * 2 ^ 4 + 2 * 2 ^ 34 + t % 4096 * 2 ^ 37 + b2n ended * 2 ^ 54) r.owner r.index
        (s.cyclesSince die r.liveBeam) 0 r.stepRev 0
    put (put s 0) 1

/-- The invocation of a swap-mode owner: the launch of its first launch record in a revolution, on the dies of its clusters (R455). -/
def State.invoke (s : State) (r : RecInst) : State :=
  let rev := s.beamNow / 2 ^ 32
  if s.dget (dkOwnerMode r.owner) != 3 || lookupD 0 r.owner s.pool.invokedRev == rev + 1 then s
  else
    let dies := [0, 1].filter fun d => s.recMask r / 2 ^ (12 * d) % 4096 != 0 && s.dieRuns d && !s.pool.invoked.contains (d, r.owner)
    { s with pool := { s.pool with invoked := s.pool.invoked ++ dies.map fun d => (d, r.owner)
                                   invokedRev := putD 0 r.owner (rev + 1) s.pool.invokedRev } }

/-- R599, R600, R601: a record launches: its tokens consumed, its sequences at their entries on every cluster of CLUSTER_MASK whose die runs
(R19). -/
def State.launchRecord (s : State) (r : RecInst) : State :=
  let s := s.invoke r
  let s := (s.clearRun r.index).traceToken r false
  let s := if r.consume then s.putTokens r.wait false else s
  let s := (s.setRec { r with launchBeam := s.beamNow }).setRecState r.index 3
  let mask := s.recMask r
  let start (s : State) (die : Nat) : State :=
    if mask / 2 ^ (12 * die) % 4096 = 0 || !s.dieRuns die then s
    else ((s.bump .beamLaunchCnt die 0 1).loadTensors die r).startPlan die r
  let s := start (start s 0) 1
  ((List.range 24).filter fun c => mask / 2 ^ c % 2 == 1 && s.dieRuns (cluDie c)).foldl (fun s c => s.needSeq c r.index) s

/-- RECORD_LAUNCH (R597 to R600): the record launches where it can and no record before it in launch order can. -/
def recordLaunchEffect (index : BitVec 12) (s : State) : State :=
  let s := s.settleTable
  match s.findRec index.toNat with
  | none => s
  | some r =>
    if s.recReady r && !(s.beam.recs.any fun q => s.orderedBefore q.index r.index && s.recReady q) then s.launchRecord r else s

def execRecordLaunch (index : BitVec 12) (s : State) : Host.Outcome State Fault Refusal := .next (recordLaunchEffect index s)

/-! ## Pre-emption (R617 to R621) -/

/-- Where a live range lies: lens bytes of its engine, or bytes of a slot (R617). -/
def State.rangePlace (s : State) (x : SavedTask) (r : Nat × Nat × Nat) : Option (Bool × Nat) :=
  if r.1 = 0 then some (true, r.2.1 * 64)
  else
    (s.findChain x.chain).bind fun c =>
      (if r.1 = 1 then c.inRing x.stage else c.outRing x.stage).map fun g => (false, g.slotAddr x.item + r.2.1 * 64)

/-- The access by which a task's live ranges move: its engine's cluster DMA (R620). -/
def SavedTask.access (x : SavedTask) (owner : Nat) : Access :=
  { unit := .dma (engCluster x.engine), owner := owner, who := some ⟨x.chain, x.stage⟩ }

/-- The sectors of `n` bytes, by offset, that carry the poison flag where a live range lies. -/
def State.rangeBad (s : State) (x : SavedTask) (place : Bool × Nat) (n : Nat) : List Nat :=
  (List.range (n / 32)).filter fun k =>
    if place.1 then s.lensPoison x.engine (place.2 + 32 * k) 32 else s.poisonAt (place.2 + 32 * k)

/-- The live ranges of a task written to its save slot behind its header, with their poison flags (R283, R619): the state, and whether a page was
absent. Past the end of the lens buffers they are zero (R862). -/
def State.saveRanges (s : State) (x : SavedTask) (die owner : Nat) : Nat → List (Nat × Nat × Nat) → State × Bool
  | _, [] => (s, false)
  | at_, r :: rs =>
    let n := r.2.2 * 64
    let a := x.access owner
    let e : WriteEnd := match s.rangePlace x r with
      | some (true, o) => s.vPut die a at_ ((List.range n).map fun k => s.lensByte x.engine (o + k))
      | some (false, o) => s.vPut die a at_ (s.memBytes o n)
      | none => ⟨s, false⟩
    let bad := match s.rangePlace x r with
      | some p => s.rangeBad x p n
      | none => []
    let st := bad.foldl (fun (t : State) k => match t.framePa die owner (at_ + 32 * k) with
      | some pa => t.leavePoison [pa / 32]
      | none => t) e.st
    let q := st.saveRanges x die owner (at_ + n) rs
    (q.1, e.fault || q.2)

/-- The bytes of slots among a task's live ranges, in physical memory. -/
def State.slotRanges (s : State) (x : SavedTask) : List (Nat × Nat) :=
  x.ranges.filterMap fun r => match s.rangePlace x r with
    | some (false, a) => some (a, r.2.2 * 64)
    | _ => none

/-- A saved task replaced by its new state. -/
def State.markSaved (s : State) (y : SavedTask) : State :=
  { s with beam := { s.beam with saved := s.beam.saved.map fun z =>
      if z.engine == y.engine && z.task == y.task && z.launch == y.launch && z.chain == y.chain then y else z } }

/-- PREEMPT_SAVE_DONE (R616, R619): header and live ranges in the save slot, the context free. A parity error in a live range reruns the task's
unit (R286). -/
def preemptSaveDoneEffect (e : EngId) (task : Fin 4) (s : State) : State :=
  let eng := EngIdIdx e
  match s.beam.saved.find? fun x => x.engine == eng && x.task == task.val && !x.done with
  | none => s
  | some x =>
    match s.findChain x.chain with
    | none => s
    | some c =>
      let (s, bad) := s.lensParity eng (some (c, x.stage)) ((lensRanges x.ranges).map fun r => (5, r.1, r.2))
      let (s, stops) := s.chainReads c (x.access c.owner) (s.slotRanges x)
      if stops then s
      else if bad then s.rerunError c stParityRerunLimit
      else
        let die := cluDie c.cluster
        let head := [x.launch % 4096 + engPacked eng % 128 * 2 ^ 12 + x.task % 4 * 2 ^ 19 + x.stage % 8 * 2 ^ 21 + x.item % 2 ^ 24 * 2 ^ 32,
          s.beamNow, rangeBytes x.ranges % 2 ^ 32, 0, 0, 0, 0, 0]
        let h := s.vPut die (x.access c.owner) x.saveAt (head.flatMap fun w => bytesOf w 8)
        let (s, bad) := h.st.saveRanges x die c.owner (x.saveAt + 64) x.ranges
        if h.fault || bad then s.endWrite c x.stage
        else
          let s := s.wr .engTaskState eng x.task 0#64
          let x := { x with done := true, waitFrom := s.beamNow }
          let s := (s.markSaved x).grantContexts
          s.markSaved { x with waitOn := s.fld engTaskStateLaunch eng x.task }

def execPreemptSaveDone (e : EngId) (task : Fin 4) (s : State) : Host.Outcome State Fault Refusal :=
  .next (preemptSaveDoneEffect e task s)

/-- Live ranges read back from a save slot. -/
def State.restoreRanges (s : State) (x : SavedTask) (die owner : Nat) : Nat → List (Nat × Nat × Nat) → State
  | _, [] => s
  | at_, r :: rs =>
    let n := r.2.2 * 64
    let bs := (List.range n).map fun k => s.virtByte die owner (at_ + k)
    let s := match s.rangePlace x r with
      | some (true, a) => s.lensPut x.engine a bs
      | some (false, a) => s.devWrite (x.access owner) a bs
      | none => s
    s.restoreRanges x die owner (at_ + n) rs

/-- The saved task that takes a context back: the first in launch order (R620). -/
def State.nextRestore (s : State) (e task : Nat) : Option SavedTask :=
  (s.beam.saved.filter fun x => x.engine == e && x.task == task && x.done).foldl (fun best x =>
    match best with
    | none => some x
    | some b => if s.orderedBefore x.launch b.launch then some x else some b) none

/-- CONTEXT_RESTORE (R620, R621): the task takes the free context, its live ranges are restored, and it goes on; a poisoned line ends its
record with POISON_CONSUMED, a page of the save slot that this package does not hold ends it with PAGE_FAULT (log entry 88). -/
def contextRestoreEffect (e : EngId) (task : Fin 4) (s : State) : State :=
  let eng := EngIdIdx e
  match s.nextRestore eng task.val with
  | none => s
  | some x =>
    match s.findChain x.chain with
    | none => s
    | some c =>
      if s.taskState eng x.task ≠ 0 then s
      else
        match c.stages[x.stage]? with
        | none => s
        | some g =>
          let die := cluDie c.cluster
          let n := rangeBytes x.ranges
          let runs := cutPages (n / 65536 + 2) (x.saveAt + 64) n
          let mine := s.localRuns die c.owner runs
          if s.runsHeld mine || s.stageWriting c x.stage then s
          else
          let s := s.readRuns (x.access c.owner) mine
          let bad := s.poisonedAt die c.owner [] runs != []
          let s := s.bump .beamPreemptCyc (engDie eng) 0 (8 + (n + 255) / 256)
          let s := s.traceWait die (0x80 + c.cluster % 12)
            (g.engine * 2 ^ 6 + x.stage % 8 * 2 ^ 13 + 5 * 2 ^ 34 + x.waitOn % 4096 * 2 ^ 37) c.owner c.launch
            (s.cyclesSince die x.waitFrom) 0 c.stepRev 0
          let s := { s with beam := { s.beam with saved := s.beam.saved.filter fun y =>
            !(y.engine == x.engine && y.task == x.task && y.launch == x.launch && y.chain == x.chain) } }
          if bad then s.endChain c stPoisonConsumed x.stage
          else if mine.length < runs.length then s.endChain c stPageFault x.stage
          else
            let s := s.restoreRanges x die c.owner (x.saveAt + 64) x.ranges
            let c := { c with stages := c.stages.set x.stage { g with away := false } }
            let s := ((s.setChain c).takeContext c x.stage { g with away := false }).showTasks c
            if s.beam.saved.any (·.launch == x.launch) then s else s.setRecState x.launch 3

def execContextRestore (e : EngId) (task : Fin 4) (s : State) : Host.Outcome State Fault Refusal := .next (contextRestoreEffect e task s)

/-! ## Quiet windows (R606) -/

/-- Records that became ready while the window was open launch late (R606). -/
def State.deferReady (s : State) : State :=
  s.beam.recs.foldl (fun s r =>
    if s.recReady r && !r.deferred then (s.setRec { r with deferred := true, late := true }).bumpBoth .beamQuietDeferCnt 1 else s) s

/-- QUIET_WINDOW_CLOSE (R606): the window closes, the records that it deferred may launch, and its record completes with OK. -/
def quietWindowCloseEffect (s : State) : State :=
  match s.beam.quiet with
  | none => s
  | some q =>
    if 0 < q.left then s
    else
      let s := { s with beam := { s.beam with quiet := none } }
      let s := s.deferReady
      match s.findRec q.launch with
      | some r => s.completeRecord { r with commitBeam := s.beamNow }
      | none => s

def execQuietWindowClose (s : State) : Host.Outcome State Fault Refusal := .next (quietWindowCloseEffect s)

/-! ## The end of a record (R608 to R612) -/

/-- Whether everything that a record launched has ended. -/
def State.recOver (s : State) (launch : Nat) : Bool :=
  (s.seqs.all fun q => q.launch != launch || q.extra || q.ended) && !(s.chains.any (·.launch == launch)) &&
  !(s.coll.running.any (·.launch == launch))

/-- The record with what its sequences leave: operations, commit point, items of the last chain, status (R608). -/
def State.closeRecord (s : State) (r : RecInst) : RecInst :=
  let qs := s.seqs.filter fun q => q.launch == r.index && !q.extra
  let last := qs.foldl (fun b q => if b.commitBeam ≤ q.commitBeam then q else b) { cluster := 0, launch := r.index, next := 0 }
  let skip := qs.any fun q => q.status == stNonfiniteSkip
  { r with
    ops := qs.foldl (fun n q => n + q.ops) 0
    commitBeam := if last.commitBeam = 0 then s.beamNow else last.commitBeam
    count := last.lastItems
    status := if r.status ≠ stOk then r.status else if skip then stNonfiniteSkip else stOk }

/-- RECORD_END (R608, R609): a launched record all of whose sequences have ended completes. -/
def recordEndEffect (index : BitVec 12) (s : State) : State :=
  let s := s.settleTable
  match s.findRec index.toNat with
  | none => s
  | some r =>
    let st := s.recState r.index
    if r.kind ≠ 0 ∨ (st ≠ 3 ∧ st ≠ 4) ∨ s.recOver r.index = false then s
    else
      let r' := s.closeRecord r
      let s := s.setRec r'
      (s.clearRun r.index).completeRecord r'

def execRecordEnd (index : BitVec 12) (s : State) : Host.Outcome State Fault Refusal := .next (recordEndEffect index s)

/-- Completions of an owner that wait are written while its ring has room (R612); `fuel` bounds them. -/
def State.drainCring (s : State) (owner : Nat) : Nat → State
  | 0 => s
  | fuel + 1 =>
    match s.beam.doneWait.find? (·.owner == owner) with
    | none => s
    | some w =>
      if s.cringFull owner then s
      else
        let s := { s with beam := { s.beam with doneWait := s.beam.doneWait.erase w } }
        let die := match w.launch with
          | some l => s.recDie (s.recOr l)
          | none => 0
        ((s.countMiss owner w.words).writeCring die owner w.words w.launch).drainCring owner fuel

/-- CRING_ROOM (R612, R629): CONS written on both dies; completions that waited are written. -/
def cringRoomEffect (owner : BitVec 6) (cons : BitVec 32) (s : State) : State :=
  let o := owner.toNat
  let s := ((s.settleTable.setFld beamCringIdxCons 0 o cons.toNat).setFld beamCringIdxCons 1 o cons.toNat)
  s.drainCring o s.beam.doneWait.length

def execCringRoom (owner : BitVec 6) (cons : BitVec 32) (s : State) : Host.Outcome State Fault Refusal := .next (cringRoomEffect owner cons s)

/-! ## Tokens (R602 to R604) -/

/-- A write of BEAM_TOKEN_CMD, which applies to both dies (R629): with GO the token is set or cleared. -/
def State.tokenCmd (s : State) (value : Word) : State :=
  let s := (s.storeReg .beamTokenCmd 0 0 value).storeReg .beamTokenCmd 1 0 value
  if bitOf value 63 then s.putToken (bitsOf value 0 12) (!bitOf value 12) else s

/-- TOKEN_SET (R603). -/
def execTokenSet (value : Word) (s : State) : Host.Outcome State Fault Refusal := .next (s.tokenCmd (withBits value 12 1 0))

/-- TOKEN_CLEAR (R604). -/
def execTokenClear (value : Word) (s : State) : Host.Outcome State Fault Refusal := .next (s.tokenCmd (withBits value 12 1 1))

/-! ## Abort (R624 to R627) -/

/-- A completion that waits for room and whose status an abort turns into ALREADY_DONE (R625). -/
def State.abortWaiting (s : State) (r : RecInst) : State :=
  let ended : Bool := r.status == stOk || r.status == stNonfiniteSkip || (r.kind == 2 && r.status == stPoisonConsumed)
  let r := { r with aborted := true, status := if ended then stAlreadyDone else r.status }
  let s := s.setRec r
  let turn (w : DoneWait) : DoneWait := if w.launch == some r.index then { w with words := recordWords r } else w
  { s with beam := { s.beam with doneWait := s.beam.doneWait.map turn } }

/-- Whether a record is past its commit point: of every sequence that has not ended the last operation is a collective past its own (R608). -/
def State.recCommitted (s : State) (launch : Nat) : Bool :=
  !(s.chains.any (·.launch == launch)) &&
  (s.coll.running.all fun c => c.launch != launch || (s.committed c && c.next == 0)) &&
  s.seqs.all fun q => q.launch != launch || q.extra || q.ended || s.collRuns q.cluster launch

/-- An abort of a launched program: its chains, collectives and sequences (R359, R557, R625). -/
def State.abortRunning (s : State) (r : RecInst) : State :=
  if s.recCommitted r.index then
    let s := s.setRec { r with aborted := true, status := if r.status = stOk then stAlreadyDone else r.status }
    (s.coll.running.filter fun c => c.launch == r.index && !c.late).foldl State.abortColl s
  else
    let out := if s.recState r.index = 4 then stPreempted else stAborted
    let s := s.setRec { r with aborted := true, status := if r.status = stOk then out else r.status }
    let s := (s.chains.filter fun c => c.launch == r.index).foldl State.abortChain s
    let s := (s.coll.running.filter fun c => c.launch == r.index && !c.stop && !c.late).foldl State.abortColl s
    let s := { s with seqs := (s.seqs.filter fun (q : Seq) => !(q.launch == r.index && q.extra)).map fun (q : Seq) =>
      if q.launch == r.index && !q.ended then { q with ended := true, status := stAborted } else q }
    s.grantContexts

/-- R625: an abort reaches a record; its outcome by the record's state. -/
def State.abortRec (s : State) (index : Nat) : State :=
  match s.findRec index with
  | none => s.bumpBoth .beamAbortIgnoredCnt 1
  | some r =>
    let st := s.recState index
    if st = 1 ∨ st = 2 then
      (if st = 2 then s.traceToken r true else s).completeRecord { r with aborted := true, status := stAborted, commitBeam := s.beamNow }
    else if st = 5 then
      (if s.beam.posted.any (·.launch == some index) then s.bumpBoth .beamAbortIgnoredCnt 1 else s.abortWaiting r)
    else if r.kind = 1 then
      let s := { s with beam := { s.beam with quiet := none } }
      s.deferReady.completeRecord { r with aborted := true, status := stAborted, commitBeam := s.beamNow }
    else if r.kind = 2 then (s.setRec { r with aborted := true }).failDaymark index stAborted
    else s.abortRunning r

/-- Every record instance of an owner aborted, in record order of their list. -/
def State.abortOwnerRecs (s : State) (owner : Nat) : State :=
  (s.beam.recs.filter fun r => r.owner == owner).foldl (fun s r => s.abortRec r.index) s

/-- A write of BEAM_ABORT_CMD of a die. -/
def State.abortCmd (s : State) (die : Nat) (value : Word) : State :=
  let s := s.settleTable.storeReg .beamAbortCmd die 0 value
  if !bitOf value 63 then s
  else if bitOf value 18 then s.abortOwnerRecs (bitsOf value 12 6)
  else s.abortRec (bitsOf value 0 12)

/-- ABORT_RECORD (R625). -/
def execAbortRecord (die : Fin 2) (value : Word) (s : State) : Host.Outcome State Fault Refusal :=
  .next (s.abortCmd die.val (withBits value 18 1 0))

/-- ABORT_OWNER (R625). -/
def execAbortOwner (die : Fin 2) (value : Word) (s : State) : Host.Outcome State Fault Refusal :=
  .next (s.abortCmd die.val (withBits value 18 1 1))

end Sys2Proof.Machine
end

