-- ==== Sys2Proof/Machine/Links.lean ====
section
/-!
DEFINITION. Fabric links (spec/10_links_and_windows.md R465 to R485): flits, credits, retry, training and measurement.
-/
namespace Sys2Proof.Machine

/-! ## Flits (R469) -/

/-- The 252 bytes that a flit's CRC covers. -/
def flitBody (f : BitVec 2048) : List Byte := bytesOf f.toNat 252

def flitCrcOk (f : BitVec 2048) : Bool := crc32c (flitBody f) == BitVec.ofNat 32 (f.toNat / 2 ^ 2016)

/-- The header word of a flit. -/
def flitHead (f : BitVec 2048) : Word := BitVec.ofNat 64 f.toNat

/-- The payload of a flit, 244 bytes. -/
def flitPayload (f : BitVec 2048) : List Byte := bytesOf (f.toNat / 2 ^ 64) 244

/-- The bytes of a flit: header, payload padded to 244 bytes, CRC. -/
def flitBytes (head : Word) (payload : List Byte) : List Byte :=
  let body := bytesOf head.toNat 8 ++ payload.take 244 ++ List.replicate (244 - payload.length) 0#8
  body ++ bytesOf (crc32c body).toNat 4

def flitHeader (ftype seq : Nat) (ack : Option Nat) (vc crVc : Nat) (resent : Bool) (crCount : Nat) : Word :=
  BitVec.ofNat 64 (ftype % 4 + seq % 4096 * 2 ^ 2 + ack.getD 0 % 4096 * 2 ^ 14 + b2n ack.isSome * 2 ^ 26 + vc % 4 * 2 ^ 27 +
    crVc % 4 * 2 ^ 29 + b2n resent * 2 ^ 31 + crCount % 1024 * 2 ^ 32)

/-- R468: a flit with an uncorrectable codeword is treated as one whose CRC failed; the FEC's codewords are counted. -/
def State.flitFec (s : State) (l : Nat) (f : FlitIn) : State :=
  (s.bump .fabFecCorrCnt l 0 f.fecCorr.toNat).bump .fabFecUncorrCnt l 0 f.fecUncorr.toNat

def flitGood (f : FlitIn) : Bool := f.fecUncorr == 0#8 && flitCrcOk f.bits

/-- The retry buffer after an ACK (R476). -/
def ackRetry (ack : Nat) (q : List RetryFlit) : List RetryFlit :=
  if q.any fun r => r.seq == ack then (q.dropWhile fun r => r.seq != ack).tail else q

/-- The ACK and the credits that a flit returns (R471, R473). -/
def Link.takeReturns (x : Link) (head : Word) : Link :=
  let x := if bitOf head 26 then { x with retry := ackRetry (bitsOf head 14 12) x.retry } else x
  let vc := bitsOf head 29 2
  { x with credits := x.credits.set vc (x.credits.getD vc 0 + bitsOf head 32 10) }

/-- A control flit taken: its payload, where it is whole and has the CTYPE; one that fails, or has a CTYPE not listed, is counted
(R471). -/
def State.takeControl (s : State) (l : Nat) (f : FlitIn) (ctype : Nat) : State × Option (List Byte) :=
  let head := flitHead f.bits
  if flitGood f && bitsOf head 0 2 != 2 then (s, none)
  else
    let s := s.flitFec l f
    let drop := (s.bump .fabCtrlDropCnt l 0 1, none)
    if !flitGood f then drop
    else
      let p := flitPayload f.bits
      let c := (p.headD 0#8).toNat
      let s := s.setLink l ((s.link l).takeReturns head)
      if !([1, 2, 3, 4, 0x10, 0x11].contains c) then (s.bump .fabCtrlDropCnt l 0 1, none)
      else if c = ctype then (s, some p) else (s, none)

def Link.addControl (x : Link) (p : List Byte) : Link := { x with control := x.control ++ [p] }

def State.sendControl (s : State) (l : Nat) (p : List Byte) : State := s.setLink l ((s.link l).addControl p)

/-- Whether a link is trained and transmits flits: EXCHANGE, MEASURE and UP (R467, R480). -/
def State.transmits (s : State) (l : Nat) : Bool := 3 ≤ s.linkState l && s.linkState l ≤ 5

/-! ## Transmission (R467, R471, R473, R476) -/

/-- A flit's payload filled from a queue: the bytes, the headers that have bytes in it, what is left of the queue, and the accepted
GET_REQs whose data have gone. -/
def fillFlit : Nat → List TxMsg → List Byte × List Words4 × List TxMsg × List Nat
  | _, [] => ([], [], [], [])
  | room, m :: ms =>
    if room = 0 then ([], [], m :: ms, [])
    else
      let bs := m.bytes.drop m.done
      let n := min room bs.length
      let hs := match m.header with
        | some h => [h]
        | none => []
      if bs.length ≤ room then
        let r := fillFlit (room - n) ms
        (bs ++ r.1, hs ++ r.2.1, r.2.2.1,
         (match m.answers with
          | some k => [k]
          | none => []) ++ r.2.2.2)
      else (bs.take n, hs, { m with done := m.done + n } :: ms, [])

/-- Whether a message of a remote page goes out by a link: the route of its die, or the peer die's where it crosses UCIe (R516). -/
def State.routesBy (s : State) (m : OriginMsg) (l : Nat) : Bool :=
  match s.routeLink m.die m.pkg with
  | some k => k == l
  | none => s.viaPeer m.die m.pkg && s.routeLink (1 - m.die) m.pkg == some l

/-- The oldest message of a remote page not yet sent whose next hop is a link, added to the link's queue (R489, R491). -/
def State.pullOrigin (s : State) (l : Nat) : State :=
  match s.sentMsgs.find? fun m => !m.sent && !m.stopped && m.pkg != s.ownPkg && s.routesBy m l with
  | none => s
  | some m =>
    let h := s.originHeader m
    let h := if m.die = l / 8 then h else setHops h 1
    (s.markSent m.num).enqueue l { header := some h, lines := m.putLines } 0

/-- Bytes queued on VC 0. -/
def Link.queued (x : Link) : Nat := (x.tx0.map fun m => m.bytes.length - m.done).foldl (· + ·) 0

/-- Messages pulled until VC 0 has a flit's worth of bytes, or none is left. -/
def State.pullOrigins (s : State) (l : Nat) : Nat → State
  | 0 => s
  | fuel + 1 => if 244 ≤ (s.link l).queued then s else (s.pullOrigin l).pullOrigins l fuel

/-- The credits that the next flit returns: a VC and a count (R473). -/
def Link.returns (x : Link) : Nat × Nat :=
  match (List.range 4).find? fun v => decide (0 < x.owed.getD v 0) with
  | some v => (v, min 1023 (x.owed.getD v 0))
  | none => (0, 0)

/-- A flit put on the wire, with the ACK and the credits it returns. -/
def Link.emit (x : Link) (ftype seq vc : Nat) (resent : Bool) (payload : List Byte) : Link :=
  let (v, n) := x.returns
  { x with wire := flitBytes (flitHeader ftype seq x.ack vc v resent n) payload, owed := x.owed.set v (x.owed.getD v 0 - n) }

/-- The VC of the next new data flit: VC 1, which waits for no other (R474), then the lowest, with bytes to send and a credit. -/
def Link.nextVc (x : Link) : Option Nat := [1, 0, 2, 3].find? fun v => !(x.tx v).isEmpty && decide (0 < x.credits.getD v 0)

/-- A new data flit (R473, R476). -/
def State.sendData (s : State) (l vc : Nat) : State :=
  let x := s.link l
  let (bs, hs, rest, gone) := fillFlit 244 (x.tx vc)
  let x := (x.emit 1 x.nextSeq vc false bs).setTx vc rest
  let x := { x with retry := x.retry ++ [{ seq := x.nextSeq, vc := vc, payload := bs, headers := hs }],
                    nextSeq := (x.nextSeq + 1) % 4096, credits := x.credits.set vc (x.credits.getD vc 0 - 1) }
  let s := (s.setLink l x).bump .fabTxFlitCnt l 0 1
  gone.foldl (fun s k => s.dataGone (some k)) s

/-- The retry buffer with its first flit that awaits resending marked as sent. -/
def clearAgain : List RetryFlit → List RetryFlit
  | [] => []
  | r :: rs => if r.again then { r with again := false, resends := r.resends + 1 } :: rs else r :: clearAgain rs

/-- R478: a SEQ resent LINK_RETRY_LIMIT times sends the link into RECOVERY. -/
def State.checkRetry (s : State) (l : Nat) : State :=
  let lim := s.dnat dkLinkRetryLimit
  if (s.link l).retry.any fun r => decide (lim ≤ r.resends) then (s.setLinkState l 6).bump .fabRecoveryCnt l 0 1 else s

/-- FLIT_TRANSMIT (R467, R471, R473, R476 to R478): control flits first, then flits to be resent, then new data, else a null flit. -/
def flitTransmitEffect (link : Fin 16) (s : State) : State :=
  let l := link.val
  if !s.transmits l then s
  else
    let x := s.link l
    match x.control with
    | p :: ps => s.setLink l { x.emit 2 0 0 false p with control := ps }
    | [] =>
      if s.linkState l ≠ 5 then s.setLink l (x.emit 0 0 0 false [])
      else
        match x.retry.find? (·.again) with
        | some r =>
          (((s.setLink l { x.emit 1 r.seq r.vc true r.payload with retry := clearAgain x.retry }).bump .fabTxFlitCnt l 0 1).bump
            .fabResentCnt l 0 1).checkRetry l
        | none =>
          let s := s.pullOrigins l 8
          let x := s.link l
          if 1024 ≤ x.retry.length then s.setLink l (x.emit 0 0 0 false [])
          else match x.nextVc with
            | some v => s.sendData l v
            | none => s.setLink l (x.emit 0 0 0 false [])

def execFlitTransmit (link : Fin 16) (s : State) : Host.Outcome State Fault Refusal := .next (flitTransmitEffect link s)

/-! ## Reception (R470, R473, R475, R486, R487) -/

/-- What follows a header: segments of 136 bytes. -/
def bodyLength (h : Words4) : Nat := segments h * 136

def headWords (bs : List Byte) : Words4 :=
  let w := fun k => BitVec.ofNat 64 (natOfBytes ((bs.drop (8 * k)).take 8))
  ⟨w 0, w 1, w 2, w 3⟩

/-- A payload taken into a VC's message stream; the count is that of messages of type 0x0 or 0xB (R487). A rest of the payload that is
all zero at a message's start is padding. -/
def takePayload : Nat → RxState → List Byte → Nat → RxState × Nat
  | 0, r, _, bad => (r, bad)
  | fuel + 1, r, bs, bad =>
    if bs = [] then (r, bad)
    else if 0 < r.left then
      let n := min r.left bs.length
      takePayload fuel { r with left := r.left - n } (bs.drop n) bad
    else if r.head = [] && bs.all (· == 0#8) then (r, bad)
    else
      let n := min (32 - r.head.length) bs.length
      let head := r.head ++ bs.take n
      if head.length < 32 then ({ r with head := head }, bad)
      else
        let h := headWords head
        let b := mtype h == 0 || mtype h == 11
        takePayload fuel { head := [], left := bodyLength h } (bs.drop n) (bad + b2n b)

/-- A NAK for the expected SEQ (R471, R475). -/
def nakPayload (seq : Nat) : List Byte := 1#8 :: bytesOf seq 2

/-- DATA_FLIT_RECEIVE (R468, R470, R473, R475, R487). -/
def dataFlitReceiveEffect (link : Fin 16) (flit : FlitIn) (again : Bool) (s : State) : State :=
  let l := link.val
  if s.linkState l ≠ 5 then s
  else
    let s := s.flitFec l flit
    let head := flitHead flit.bits
    let ftype := bitsOf head 0 2
    let whole := flitGood flit && ftype != 3
    if whole && (ftype == 0 || ftype == 2) then s
    else
      let x := s.link l
      let x := if whole then x.takeReturns head else x
      if whole && bitsOf head 2 12 == x.expSeq then
        let vc := bitsOf head 27 2
        let (r, bad) := takePayload 245 (x.rx vc) (flitPayload flit.bits) 0
        let x := { x.setRx vc r with
          ack := some x.expSeq, expSeq := (x.expSeq + 1) % 4096, nakSent := false, owed := x.owed.set vc (x.owed.getD vc 0 + 1) }
        ((s.setLink l x).bump .fabRxFlitCnt l 0 1).bump .fabBadMsgCnt l 0 bad
      else
        let s := if whole then s else s.bump .fabCrcFailCnt l 0 1
        if x.nakSent && !again then s.setLink l x
        else (s.setLink l { x.addControl (nakPayload x.expSeq) with nakSent := true }).bump .fabNakCnt l 0 1

def execDataFlitReceive (link : Fin 16) (flit : FlitIn) (again : Bool) (s : State) : Host.Outcome State Fault Refusal :=
  .next (dataFlitReceiveEffect link flit again s)

/-- NULL_FLIT (R471): its ACK and credits are taken. -/
def nullFlitEffect (link : Fin 16) (flit : FlitIn) (s : State) : State :=
  let l := link.val
  if !s.transmits l then s
  else
    let s := s.flitFec l flit
    let head := flitHead flit.bits
    if flitGood flit && bitsOf head 0 2 == 0 then s.setLink l ((s.link l).takeReturns head) else s

def execNullFlit (link : Fin 16) (flit : FlitIn) (s : State) : Host.Outcome State Fault Refusal := .next (nullFlitEffect link flit s)

/-! ## Retry and recovery (R477 to R479) -/

/-- Every flit of the retry buffer from a SEQ on is to be sent again. -/
def resendFrom (seq : Nat) (q : List RetryFlit) : List RetryFlit :=
  (q.takeWhile fun r => r.seq != seq) ++
    (q.dropWhile fun r => r.seq != seq).map fun r => { r with again := true }

def State.resend (s : State) (l seq : Nat) : State :=
  let x := s.link l
  if x.retry.any fun r => r.seq == seq then s.setLink l { x with retry := resendFrom seq x.retry } else s

/-- NAK (R477). -/
def nakEffect (link : Fin 16) (flit : FlitIn) (s : State) : State :=
  let l := link.val
  if s.linkState l ≠ 5 then s
  else
    match s.takeControl l flit 1 with
    | (s, some p) => s.resend l (natOfBytes ((p.drop 1).take 2) % 4096)
    | (s, none) => s

def execNak (link : Fin 16) (flit : FlitIn) (s : State) : Host.Outcome State Fault Refusal := .next (nakEffect link flit s)

/-- RETRY_TIMER_EXPIRY (R477): the retry time is twice the measured round trip and 1 µs. -/
def retryTimerExpiryEffect (link : Fin 16) (waited : BitVec 32) (s : State) : State :=
  let l := link.val
  match (s.link l).retry with
  | [] => s
  | r :: _ => if s.linkState l = 5 ∧ 2 * s.fld fabDelayRtt l + 10000 ≤ waited.toNat then s.resend l r.seq else s

def execRetryTimerExpiry (link : Fin 16) (waited : BitVec 32) (s : State) : Host.Outcome State Fault Refusal :=
  .next (retryTimerExpiryEffect link waited s)

/-- A link enters UP; where LINK_ENABLE is false it leaves it at once (R480). -/
def State.linkUp (s : State) (l : Nat) : State := s.setLinkState l (if s.dget (dkLinkEnable l) = 0 then 0 else 5)

/-- RECOVERY_DONE (R478): the sender resends from the oldest unacknowledged flit. -/
def recoveryDoneEffect (link : Fin 16) (s : State) : State :=
  let l := link.val
  if s.linkState l ≠ 6 then s
  else
    let x := s.link l
    let s := (s.setLink l { x with retry := x.retry.map fun r => { r with resends := 0 } }).linkUp l
    match x.retry with
    | [] => s
    | r :: _ => s.resend l r.seq

def execRecoveryDone (link : Fin 16) (s : State) : Host.Outcome State Fault Refusal := .next (recoveryDoneEffect link s)

/-- The headers of a retry buffer, each once. -/
def lostHeaders (q : List RetryFlit) : List Words4 :=
  (q.flatMap (·.headers)).foldl (fun acc h => if acc.contains h then acc else acc ++ [h]) []

/-- R479: a LOST response to the origin of a lost message; this package's own messages end here. -/
def State.reportLost (s : State) (die : Nat) (h : Words4) : State :=
  if mtype h = 1 ∨ mtype h = 2 then
    if srcPkg h = s.ownPkg then s.msgOutcome (hdrTag h) stPeerLost
    else s.post die (answer h 8 stPeerLost 0 0) []
  else s

/-- A message of a queue whose next hop is lost goes by the route table again, unless some of it has been sent (R479). -/
def State.requeue (s : State) (die : Nat) (m : TxMsg) : State :=
  match m.header with
  | some h => if m.done = 0 then s.sendMsg 2 die h m.lines m.answers false else s.dataGone m.answers
  | none => s

/-- LINK_RECOVER_TIMEOUT (R479): the link is LOST, its retry buffer discarded. -/
def linkRecoverTimeoutEffect (link : Fin 16) (ms : BitVec 16) (s : State) : State :=
  let l := link.val
  if s.linkState l ≠ 6 ∨ ms.toNat < s.dnat dkLinkRecoverLimit then s
  else
    let x := s.link l
    let s := (s.setLinkState l 7).setLink l { x with retry := [], tx0 := [], tx1 := [], tx2 := [], tx3 := [], control := [] }
    let s := (lostHeaders x.retry).foldl (fun s h => s.reportLost (l / 8) h) s
    (x.tx0 ++ x.tx1 ++ x.tx2 ++ x.tx3).foldl (fun s m => s.requeue (l / 8) m) s

def execLinkRecoverTimeout (link : Fin 16) (ms : BitVec 16) (s : State) : Host.Outcome State Fault Refusal :=
  .next (linkRecoverTimeoutEffect link ms s)

/-! ## Training and measurement (R480 to R485) -/

/-- LINK_ENABLE (R480): from DISABLED to DOWN, or from UP to DISABLED. -/
def linkEnableEffect (link : Fin 16) (value : Bool) (s : State) : State :=
  let l := link.val
  let s := s.dput (dkLinkEnable l) (b2n value : Nat)
  if value && s.linkState l == 0 then s.setLinkState l 1
  else if !value && s.linkState l == 5 then s.setLinkState l 0
  else s

def execLinkEnable (link : Fin 16) (value : Bool) (s : State) : Host.Outcome State Fault Refusal := .next (linkEnableEffect link value s)

/-- SIGNAL_DETECT (R480, R508): LINK_MEDIA takes effect. -/
def signalDetectEffect (link : Fin 16) (s : State) : State :=
  let l := link.val
  if s.linkState l = 1 then (s.setLink l { s.link l with media := s.dnat (dkLinkMedia l) }).setLinkState l 2 else s

def execSignalDetect (link : Fin 16) (s : State) : Host.Outcome State Fault Refusal := .next (signalDetectEffect link s)

/-- SIGNAL_LOST (R480). -/
def signalLostEffect (link : Fin 16) (s : State) : State :=
  let l := link.val
  if s.linkState l = 7 ∨ s.linkState l = 8 then s.setLinkState l 1 else s

def execSignalLost (link : Fin 16) (s : State) : Host.Outcome State Fault Refusal := .next (signalLostEffect link s)

/-- The receive buffers that FAB_VC_CREDITS holds, its readback already being lowered to a sum of 1,024; 0 is read as 16 (R509). -/
def State.vcBuffers (s : State) (l : Nat) : List Nat :=
  [fabVcCreditsVc0, fabVcCreditsVc1, fabVcCreditsVc2, fabVcCreditsVc3].map fun f =>
    let n := s.fld f l
    if n = 0 then 16 else n

/-- The insertion-loss class of a loss in 0.01 dB (R484). -/
def ilClass (loss : Nat) : Nat := if loss ≤ 1600 then 0 else if loss ≤ 2400 then 1 else if loss ≤ 3200 then 2 else 3

/-- PHY_TRAIN_DONE (R480, R484, R509): EXCHANGE begins with the sequence numbers at 0 and the buffers of FAB_VC_CREDITS in effect. -/
def phyTrainDoneEffect (link : Fin 16) (loss : BitVec 16) (s : State) : State :=
  let l := link.val
  if s.linkState l ≠ 2 then s
  else
    let k := ilClass loss.toNat
    let x := s.link l
    let x : Link := { media := x.media, mediaFactor := x.mediaFactor, buffers := s.vcBuffers l, wire := x.wire,
                      tx0 := x.tx0, tx1 := x.tx1, tx2 := x.tx2, tx3 := x.tx3 }
    (((s.setLink l x).setFld fabStatusIlClass l 0 k).dput (dkIlClass l) (k : Nat)).setLinkState l 3

def execPhyTrainDone (link : Fin 16) (loss : BitVec 16) (s : State) : Host.Outcome State Fault Refusal :=
  .next (phyTrainDoneEffect link loss s)

/-- PHY_TRAIN_TIMEOUT (R480): 500 ms. -/
def phyTrainTimeoutEffect (link : Fin 16) (ms : BitVec 16) (s : State) : State :=
  if s.linkState link.val = 2 ∧ 500 ≤ ms.toNat then s.setLinkState link.val 1 else s

def execPhyTrainTimeout (link : Fin 16) (ms : BitVec 16) (s : State) : Host.Outcome State Fault Refusal :=
  .next (phyTrainTimeoutEffect link ms s)

/-- This end's capabilities (R481), packed from byte 9 of the flit, lowest bit first. -/
def State.capabilityPayload (s : State) (l : Nat) : List Byte :=
  let x := s.link l
  let c := fun k => x.buffers.getD k 0 % 1024
  2#8 :: bytesOf (s.ownPkg % 4096 + l * 2 ^ 12 + 1 * 2 ^ 16 + c 0 * 2 ^ 24 + c 1 * 2 ^ 34 + c 2 * 2 ^ 44 + c 3 * 2 ^ 54 +
    1024 * 2 ^ 64 + 625 * 2 ^ 75 + 875 * 2 ^ 91 + 1600 * 2 ^ 107 + x.media % 4 * 2 ^ 123) 16

/-- CAPABILITY_SEND (R481). -/
def capabilitySendEffect (link : Fin 16) (s : State) : State :=
  let l := link.val
  if s.linkState l = 3 && (s.link l).partner.isNone then s.sendControl l (s.capabilityPayload l) else s

def execCapabilitySend (link : Fin 16) (s : State) : Host.Outcome State Fault Refusal := .next (capabilitySendEffect link s)

def parseCapabilities (p : List Byte) : Capabilities :=
  let n := natOfBytes ((p.drop 1).take 16)
  let f := fun lo w => n / 2 ^ lo % 2 ^ w
  { pkg := f 0 12, link := f 12 4, versions := f 16 8, credits := [f 24 10, f 34 10, f 44 10, f 54 10],
    txLatency := f 75 16, rxLatency := f 91 16, turnaround := f 107 16 }

/-- CAPABILITY (R480, R482, R508): the highest common version and the partner's credits, or REFUSED. -/
def capabilityEffect (link : Fin 16) (flit : FlitIn) (s : State) : State :=
  let l := link.val
  if !s.transmits l then s
  else
    match s.takeControl l flit 2 with
    | (s, none) => s
    | (s, some p) =>
      if s.linkState l ≠ 3 then s
      else
        let c := parseCapabilities p
        if c.versions % 2 = 0 then s.setLinkState l 8
        else
          let x := s.link l
          let s := s.setLink l { x with partner := some c, credits := c.credits, mediaFactor := s.dnat (dkMediaFactor l),
                                        echoSent := 0, echoes := [] }
          let s := s.setFld fabStatusVersion l 0 1
          let s := (s.setFld fabStatusPartnerPkg l 0 c.pkg).setFld fabStatusPartnerLink l 0 c.link
          (s.dput (dkPartner l) ((c.pkg + c.link * 4096 : Nat) : Int)).setLinkState l 4

def execCapability (link : Fin 16) (flit : FlitIn) (s : State) : Host.Outcome State Fault Refusal := .next (capabilityEffect link flit s)

/-- ECHO_REQUEST (R483): answered with an echo reply that repeats what follows its CTYPE. -/
def echoRequestEffect (link : Fin 16) (flit : FlitIn) (s : State) : State :=
  let l := link.val
  if !s.transmits l then s
  else
    match s.takeControl l flit 3 with
    | (s, some p) => s.sendControl l (4#8 :: p.drop 1)
    | (s, none) => s

def execEchoRequest (link : Fin 16) (flit : FlitIn) (s : State) : Host.Outcome State Fault Refusal :=
  .next (echoRequestEffect link flit s)

/-- ECHO_REQUEST_SEND (R483): 64 in all, each with its number. -/
def echoRequestSendEffect (link : Fin 16) (s : State) : State :=
  let l := link.val
  let x := s.link l
  if s.linkState l = 4 ∧ x.echoSent < 64 then
    s.setLink l { x.addControl [3#8, BitVec.ofNat 8 x.echoSent] with echoSent := x.echoSent + 1 }
  else s

def execEchoRequestSend (link : Fin 16) (s : State) : Host.Outcome State Fault Refusal := .next (echoRequestSendEffect link s)

/-- R483, R485: twice the cable delay in 0.1 ns, signed. -/
def cableDelay2 (rtt : Nat) (c : Capabilities) : Int := (rtt : Int) - 625 - 875 - c.txLatency - c.rxLatency - c.turnaround

/-- R483, R485: what 64 measurements give. -/
def State.measured (s : State) (l rtt : Nat) : State :=
  let x := s.link l
  match x.partner with
  | none => s
  | some c =>
    let d := cableDelay2 rtt c
    let n := d.toNat
    let oneWay := 625 + n / 2 + c.rxLatency
    let len := n * 256 / (10 * x.mediaFactor)
    let s := ((s.setFld fabDelayRtt l 0 rtt).setFld fabDelayOneWay l 0 oneWay).setFld fabStatusDelaySuspect l 0 (b2n (decide (d < 0)))
    ((s.dput (dkOneWayDelay l) (oneWay : Nat)).dput (dkCableLength l) ((min len 65535 : Nat) : Int)).linkUp l

/-- ECHO_REPLY (R480, R483): after 64 the least round trip gives the delays and the link is UP. -/
def echoReplyEffect (link : Fin 16) (flit : FlitIn) (rtt : BitVec 20) (s : State) : State :=
  let l := link.val
  if !s.transmits l then s
  else
    match s.takeControl l flit 4 with
    | (s, none) => s
    | (s, some _) =>
      let x := s.link l
      if s.linkState l ≠ 4 ∨ x.echoSent ≤ x.echoes.length then s
      else
        let es := x.echoes ++ [rtt.toNat]
        let s := s.setLink l { x with echoes := es }
        if es.length < 64 then s else s.measured l (es.foldl min (es.headD 0))

def execEchoReply (link : Fin 16) (flit : FlitIn) (rtt : BitVec 20) (s : State) : Host.Outcome State Fault Refusal :=
  .next (echoReplyEffect link flit rtt s)

end Sys2Proof.Machine
end

