-- ==== Sys2Proof/Machine/Sram.lean ====
section
/-!
DEFINITION. On-package SRAM (spec/06_onchip_memory.md): bank grants, parity errors and reruns, line CRCs, gallery repair; and the
recompute machinery that restarts and regenerates work (spec/05_backward_recompute.md R229 to R235).
-/
namespace Sys2Proof.Machine

/-! ## Bank grants (R274 to R277) -/

/-- CLUSTER_BANK_GRANT (R274): one access slot for the next requester in the rotation, after the last one granted, that wants the bank. -/
def clusterBankGrantEffect (cluster : Fin 24) (bank : Fin 8) (others : BitVec 6) (s : State) : State :=
  let s := (List.range 6).foldl (fun s k => if others.getLsbD k then s.cluEnter cluster.val bank.val k else s) s
  let key := cluster.val * 8 + bank.val
  let last := lookupD 5 key s.sram.granted
  let wants := fun g => lookupD 0 (key * 6 + g) s.sram.wants
  match (List.range 6).find? fun k => decide (0 < wants ((last + 1 + k) % 6)) with
  | none => s
  | some k =>
    let g := (last + 1 + k) % 6
    let s := { s with sram := { s.sram with granted := putD 5 key g s.sram.granted, wants := putD 0 (key * 6 + g) (wants g - 1) s.sram.wants } }
    s.bump .cluMemSlotCnt cluster.val bank.val 1

def execClusterBankGrant (cluster : Fin 24) (bank : Fin 8) (others : BitVec 6) (s : State) : Host.Outcome State Fault Refusal :=
  .next (clusterBankGrantEffect cluster bank others s)

/-- The weight of an owner in the round-robin of the gallery and of HBM (R277, R385): 1 each where weights are off. -/
def State.ownerWeight (s : State) (die owner : Nat) : Nat :=
  if s.fld galCfgWeightsEn die = 0 then 1 else max 1 (s.fld galOwnerWeightWeight die owner)

/-- Weighted round-robin: the owner served next among those that wait, and the grants left to it. The owner being served goes on while
it has requests and grants left; then the next higher owner number takes its turn. -/
def wrrPick (weight : Nat → Nat) (owner credit : Nat) (waiting : List Nat) : Option (Nat × Nat) :=
  if 0 < credit ∧ waiting.contains owner = true then some (owner, credit - 1)
  else
    match (List.range 64).find? fun k => waiting.contains ((owner + 1 + k) % 64) with
    | some k => some ((owner + 1 + k) % 64, weight ((owner + 1 + k) % 64) - 1)
    | none => none

/-- Held requests enter, oldest first, where they fit. -/
def galRefill (cap : Nat) : List GalRequest → List GalRequest → List GalRequest × List GalRequest
  | q, [] => (q, [])
  | q, r :: rs =>
    if galFits cap q r then galRefill cap (q ++ [r]) rs
    else
      let p := galRefill cap q rs
      (p.1, r :: p.2)

/-- A bank's queue with the requests held at their ports that can enter it. -/
def GalBank.refill (b : GalBank) (cap : Nat) : GalBank :=
  let (q, held) := galRefill cap b.queue b.held
  { b with queue := q, held := held }

/-- A list without its first element that satisfies a test. -/
def eraseFirst {α : Type} (p : α → Bool) : List α → List α
  | [] => []
  | x :: xs => if p x then xs else x :: eraseFirst p xs

/-- GALLERY_BANK_GRANT (R276, R277): one access slot for the oldest request of the owner whose turn it is; requests held for the bank enter its
queue. -/
def galleryBankGrantEffect (die : Fin 2) (bank : Fin 64) (others : List (Fin 16 × BitVec 6)) (s : State) : State :=
  let d := die.val
  let s := others.foldl (fun s x => s.galEnter d bank.val { port := x.1.val, owner := x.2.toNat }) s
  let cap := s.bankCap d
  let b := (s.galBank d bank.val).refill cap
  match wrrPick (s.ownerWeight d) b.owner b.credit (b.queue.map (·.owner)) with
  | none => s.setGalBank d bank.val b
  | some (o, credit) =>
    (s.bump .galSlotCnt d 0 1).setGalBank d bank.val
      ({ b with queue := eraseFirst (fun r => r.owner == o) b.queue, owner := o, credit := credit }.refill cap)

def execGalleryBankGrant (die : Fin 2) (bank : Fin 64) (others : List (Fin 16 × BitVec 6)) (s : State) :
    Host.Outcome State Fault Refusal :=
  .next (galleryBankGrantEffect die bank others s)

/-! ## Reruns (R288 to R294) -/

def unitOfRef (u : RerunRef) : Nat × Nat :=
  if u.region.toNat = 0xFFFF then (0xFFFF, 4) else (u.region.toNat, if u.phase.toNat = 2 then 1 else u.phase.toNat)

/-- The offset at which a rerun unit is launched again on a cluster (R288). -/
def State.unitEntry (s : State) (cluster launch : Nat) (u : Nat × Nat) : Nat :=
  let r := s.recOr launch
  let die := cluDie cluster
  if u.2 = 4 then bitsOf (s.progWord die r.owner r.prog (4 + cluster)) 0 32
  else
    let g := s.regionRec die r.owner r.prog u.1
    if u.2 = 0 then g.fwd else if u.2 = 1 then g.recomp else g.regen

/-- The clusters whose sequencers run chains of a unit. -/
def State.unitClusters (s : State) (launch : Nat) (u : Nat × Nat) : List Nat :=
  s.chains.foldl (fun acc c => if c.inUnit launch u then setInsert c.cluster acc else acc) []

/-- The chains of a unit on a cluster. -/
def State.unitOn (s : State) (launch : Nat) (u : Nat × Nat) (cluster : Nat) : List Chain :=
  s.chains.filter fun c => c.inUnit launch u && c.cluster == cluster

/-- Whether a unit's chains on a cluster are all the one launched ahead, at the unit's entry: it is launched ahead again. -/
def State.relaunchesAhead (s : State) (launch : Nat) (u : Nat × Nat) (cluster : Nat) : Bool :=
  (s.unitOn launch u cluster).all fun c => c.ahead && c.off == s.unitEntry cluster launch u

/-- Whether a cluster's sequencer can launch a unit again: its chains have stopped there, none lies in a block that is being reset, whose reset
takes precedence (R294), and no chain of another unit runs in its place in the sequence. -/
def State.relaunchReady (s : State) (launch : Nat) (u : Nat × Nat) (cluster : Nat) : Bool :=
  let mine := s.unitOn launch u cluster
  mine.all (fun c => c.stopped && !c.stages.any (·.tileOpen) && !s.touchesReset c) &&
  (mine.all (·.extra) || s.relaunchesAhead launch u cluster ||
   !(s.chains.any fun c => c.cluster == cluster && c.launch == launch && !c.extra && !c.ahead && !c.inUnit launch u))

/-- One cluster's sequencer launches the unit again (R289): a chain that ran ahead, or beside the record's own sequence, does so again. -/
def State.relaunchOn (s : State) (launch : Nat) (u : Nat × Nat) (cluster : Nat) : State :=
  let extra := (s.unitOn launch u cluster).all (·.extra)
  let ahead := s.relaunchesAhead launch u cluster
  let die := cluDie cluster
  let off := s.unitEntry cluster launch u
  let r := s.recOr launch
  let s := if u.2 = 4 then s else s.regionClamp cluster (s.regionRec die r.owner r.prog u.1)
  let s := { s with chains := s.chains.filter fun c => !(c.inUnit launch u && c.cluster == cluster) }
  let s := match s.findSeq cluster launch with
    | some q =>
      s.setSeq { q with next := if extra || ahead then q.next else off,
                        backward := if u.2 = 1 then q.backward.filter (· != u.1) else q.backward }
    | none => s
  let s := match s.findSeq cluster launch true with
    | some q => if extra then s.setSeq { q with next := off } else s
    | none => s
  let s := s.bump .cluParityRerunCnt cluster 0 1
  let (c, n) := s.parseChain cluster r off (s.progAt die r.owner r.prog off 32)
  let c := { c with extra := extra, ahead := ahead, origin := if u.2 = 3 then 3 else 1 }
  (s.countRecompute c).launchChain c n

/-- RERUN_LAUNCH (R289, R294): every chain of a stopped unit has stopped, and the unit is launched again under its record and revolution. -/
def rerunLaunchEffect (unit : RerunRef) (s : State) : State :=
  let l := unit.launch.toNat
  let u := unitOfRef unit
  let r := s.findUnit l u
  let cs := s.unitClusters l u
  if r.stopped && cs.all (s.relaunchReady l u) then
    cs.foldl (fun s c => s.relaunchOn l u c) (s.setUnit { r with stopped := false })
  else s

def execRerunLaunch (unit : RerunRef) (s : State) : Host.Outcome State Fault Refusal := .next (rerunLaunchEffect unit s)

/-! ## Parity (R281, R286, R287) -/

/-- The device physical address of a site of cluster memory, gallery or HBM; none for the lens buffers (R268). -/
def siteAddr (site : SramSite) : Option Nat :=
  match site with
  | .lens _ _ => none
  | .cluster c off => some (clusterBase c.val + off.toNat)
  | .gallery d off => some (galleryBase d.val + off.toNat)
  | .hbm addr => some addr.toNat

/-- A parity error in the gallery or a cluster memory handled by its level (R286). -/
def State.parityIn (s : State) (c : Option Chain) (pa : Nat) : State :=
  if (s.frame (pa / 65536)).st = .clean && s.frameTier (pa / 65536) == 0 then
    (s.bump .galParityRefetchCnt (s.frameDie (pa / 65536)) 0 1).refetchClean pa
  else match c with
    | some c => (s.parityStops c [pa]).1
    | none => s

/-- PARITY_ERROR (R286, R287): the byte's check bit fails; the error is counted, logged and handled by its level, and charged to the
work whose access read the byte. HBM has no check bits. -/
def parityErrorEffect (site : SramSite) (req : BitVec 4) (reader : ChainRef) (s : State) : State :=
  let c := s.findChain reader
  let charge := match c with
    | some c => (c.owner % 64 + c.launch % 4096 * 64) * 2 ^ 32
    | none => 0
  match site with
  | .hbm _ => s
  | .lens e off =>
    let s := { s with badCheck := setInsert (siteKey site) s.badCheck }.logLens (EngIdIdx e) off.toNat req.toNat charge
    (match c with
     | some c => s.rerunError c stParityRerunLimit
     | none => s)
  | _ =>
    let pa := siteKey site
    ({ s with badCheck := setInsert pa s.badCheck }.logParityAt pa req.toNat charge).parityIn c pa

def execParityError (site : SramSite) (req : BitVec 4) (reader : ChainRef) (s : State) : Host.Outcome State Fault Refusal :=
  .next (parityErrorEffect site req reader s)

/-! ## Line CRC (R282, R284) -/

/-- The destination's counters of a line that fails its CRC. -/
def State.countCrc (s : State) (site : SramSite) : State :=
  match site with
  | .lens e _ => s.bump .engLensCrcCnt (EngIdIdx e) 0 1
  | .cluster c _ => s.bump .cluLineCrcCnt c.val 0 1
  | .gallery d _ => s.bump .galLineCrcCnt d.val 0 1
  | .hbm _ => s

/-- CLU_LINE_REFETCH_CNT counts for this cluster's destinations. -/
def State.countRefetch (s : State) (site : SramSite) : State :=
  match site with
  | .lens e _ => s.bump .cluLineRefetchCnt (engCluster (EngIdIdx e)) 0 1
  | .cluster c _ => s.bump .cluLineRefetchCnt c.val 0 1
  | .gallery _ _ => s
  | .hbm _ => s

/-- Whether a line arrives as its source sent it. -/
def lineGood (l : LineArrival) : Bool := lineCrc l.data l.mask == l.crc

/-- The runs of enabled bytes of a line (first, length). -/
def maskRuns (mask : BitVec 128) : List (Nat × Nat) :=
  (List.range 128).foldl (fun acc k =>
    if !mask.getLsbD k then acc
    else match acc.getLast? with
      | some (lo, n) => if lo + n = k then acc.dropLast ++ [(lo, n + 1)] else acc ++ [(k, 1)]
      | none => [(k, 1)]) []

/-- A line's enabled bytes written at its destination, with its poison flag (R283): in HBM as any write there. -/
def State.putLine (s : State) (l : LineArrival) : State :=
  let bytes := bytesOf l.data.toNat 128
  let runs := (maskRuns l.mask).map fun r => (r.1, (bytes.drop r.1).take r.2)
  let a : Access :=
    { unit := .dma l.reader.cluster.val, owner := match s.findChain l.reader with
        | some c => c.owner
        | none => 0, who := some ⟨l.reader, l.stage.val⟩ }
  let flags (s : State) (base : Nat) : State :=
    if l.poison then { s with poison := (List.range 4).foldl (fun p k => setInsert (base / 32 + k) p) s.poison } else s
  match l.site with
  | .lens e off =>
    let base := off.toNat / 128 * 128
    flags (runs.foldl (fun s r => s.lensPut (EngIdIdx e) (base + r.1) r.2) s) (2 ^ 48 + EngIdIdx e * 2097152 + base)
  | .hbm addr =>
    let base := addr.toNat / 128 * 128
    let s := runs.foldl (fun s r => s.devWrite a (base + r.1) r.2) s
    if l.poison then s.leavePoison (sectorsOf base 128) else s
  | site =>
    let base := (siteAddr site).getD 0 / 128 * 128
    flags (runs.foldl (fun s r => s.putMem (base + r.1) r.2) (s.useSlots a base 128)) base

def State.findRefetch (s : State) (l : LineArrival) : Option Refetch := s.sram.refetch.find? (·.site == l.site)

def State.setRefetch (s : State) (site : SramSite) (r : Option Refetch) : State :=
  let others := s.sram.refetch.filter (·.site != site)
  { s with sram := { s.sram with refetch := match r with
    | some x => others ++ [x]
    | none => others } }

/-- Attempts that a source allows: the lower tier behind a clean copy allows one more (R284). -/
def State.lineAttempts (s : State) (l : LineArrival) : Nat := s.dnat dkLineCrcRetry + b2n (l.source == .cleanLower)

/-- R284: a line fails at its destination: not written, counted, and asked for again while its source, and then the lower tier behind it,
allow; otherwise recovered by a rerun. -/
def State.crcFailed (s : State) (l : LineArrival) : State :=
  let s := s.countCrc l.site
  let n := match s.findRefetch l with
    | some r => r.attempts
    | none => 0
  if n < s.lineAttempts l then
    (s.countRefetch l.site).setRefetch l.site
      (some { site := l.site, attempts := n + 1, source := l.source, tier := l.tier.val, reader := l.reader, stage := l.stage.val })
  else
    let s := s.setRefetch l.site none
    match s.findChain l.reader with
    | some c => s.rerunError c stLineCrc
    | none => s

/-- LINE_CRC_FAIL (R284): a line arrives whose CRC does not match; a line that matches is written. -/
def lineCrcFailEffect (l : LineArrival) (s : State) : State := if lineGood l then s.putLine l else s.crcFailed l

def execLineCrcFail (l : LineArrival) (s : State) : Host.Outcome State Fault Refusal := .next (lineCrcFailEffect l s)

/-- LINE_REFETCH_DONE (R284): a line asked for again arrives. -/
def lineRefetchDoneEffect (l : LineArrival) (s : State) : State :=
  match s.findRefetch l with
  | none => s
  | some _ =>
    if lineGood l then
      let s := (s.putLine l).setRefetch l.site none
      match s.findChain l.reader with
      | some c => s.showTasks c
      | none => s
    else s.crcFailed l

def execLineRefetchDone (l : LineArrival) (s : State) : Host.Outcome State Fault Refusal := .next (lineRefetchDoneEffect l s)

/-! ## Gallery repair (R296 to R304) -/

/-- GAL_REPAIR_CMD (R299, R304): a write of the register; GO starts a repair that the arbiter admits. -/
def galRepairCmdEffect (die : Fin 2) (value : Word) (s : State) : State :=
  let d := die.val
  if s.fld galRepairStatusBusy d = 1 then s
  else
    let bank := bitsOf value 0 6
    let row := min 3071 (bitsOf value 6 12)
    let s := s.wr .galRepairCmd d 0 (BitVec.ofNat 64 (bank + bitsOf value 6 12 * 64))
    if bitOf value 63 then
      let s := s.setFld galRepairStatusBusy d 0 1
      let act : MaintAct := { entry := 0, kind := 6, scope := bank }
      let (s, e) := s.enterAct d act
      match e with
      | some k => { s with sram := { s.sram with repairs := s.sram.repairs ++ [{ die := d, bank := bank, row := row, entry := k }] } }
      | none =>
        let arb := s.arb d
        let s := s.setArb d { arb with waitingOther := arb.waitingOther ++ [act] }
        { s with sram := { s.sram with repairs := s.sram.repairs ++ [{ die := d, bank := bank, row := row, entry := 32 }] } }
    else s

def execGalRepairCmd (die : Fin 2) (value : Word) (s : State) : Host.Outcome State Fault Refusal :=
  .next (galRepairCmdEffect die value s)

/-- Whether a spare row of a bank is free: below 32, not in use and not retired. -/
def State.spareFree (s : State) (die bank k : Nat) : Bool :=
  let base := (die * 64 + bank) * 3072
  !(s.sram.spareOf.any fun p => decide (base ≤ p.1) && decide (p.1 < base + 3072) && p.2 == k + 1) &&
  !s.sram.retired.contains ((die * 64 + bank) * 32 + k)

/-- GALLERY_SPARES_FREE_MIN (R305): the fewest free spare rows of any bank of either die. -/
def State.showSpares (s : State) : State :=
  let m := (List.range 128).foldl (fun m k => min m (s.fld galBankStateSparesFree (k / 64) (k % 64))) 32
  s.dput dkGallerySparesFreeMin m

/-- An entry of the gallery repair log (R298). -/
def repairEntry (die bank row spare : Nat) (retired : Bool) : Word :=
  let low := die % 2 + bank % 64 * 2 + row % 4096 * 2 ^ 7 + spare % 32 * 2 ^ 19 + b2n retired * 2 ^ 24
  BitVec.ofNat 64 (low + (crc32 (bytesOf low 4)).toNat * 2 ^ 32)

/-- An entry added to the repair log in the package flash. -/
def State.logRepair (s : State) (w : Word) : State := { s with sram := { s.sram with repairLog := s.sram.repairLog ++ [w] } }

/-- The spare rows of a bank shown anew: those free, and those retired (R306). -/
def State.showBank (s : State) (die bank : Nat) : State :=
  let s := s.setFld galBankStateSparesFree die bank ((List.range 32).countP fun k => s.spareFree die bank k)
  s.setFld galBankStateSparesRetired die bank
    (s.sram.retired.countP fun k => k / 32 == die * 64 + bank)

/-- A row mapped to a spare row; the spare that it leaves is retired (R296, R302). -/
def State.mapRow (s : State) (die bank row spare : Nat) : State :=
  let key := (die * 64 + bank) * 3072 + row
  let old := lookupD 0 key s.sram.spareOf
  ({ s with sram := { s.sram with
      spareOf := putD 0 key (spare + 1) s.sram.spareOf
      retired := if old = 0 ∨ old = spare + 1 then s.sram.retired else setInsert ((die * 64 + bank) * 32 + (old - 1)) s.sram.retired } }).showBank
    die bank

/-- The copy of a row's eight slots by the maintenance port: a read and a write of each (R300). -/
def State.copyRow (s : State) (die bank : Nat) : State :=
  (List.range 16).foldl (fun s _ => s.galEnter die bank { port := 15, owner := 0 }) s

/-- ROW_REPAIR_RUN (R300 to R303): an admitted repair copies its row to the lowest free spare and maps it there, or retires the row's frame. -/
def rowRepairRunEffect (die : Fin 2) (s : State) : State :=
  let d := die.val
  match (s.arb d).acts.find? fun a => a.kind == 6 && a.running with
  | none => s
  | some a =>
    match s.sram.repairs.find? fun r => r.die == d && r.entry == a.entry with
    | none => s
    | some r =>
      let s := { s with sram := { s.sram with repairs := s.sram.repairs.filter fun q => !(q.die == d && q.entry == a.entry) } }
      let s := match (List.range 32).find? fun k => s.spareFree d r.bank k with
        | some k =>
          let s := ((s.copyRow d r.bank).mapRow d r.bank r.row k).logRepair (repairEntry d r.bank r.row k false)
          (s.setFld galRepairStatusSpare d 0 k).setFld galRepairStatusResult d 0 0
        | none =>
          let s := if s.sram.retiredFrames.contains (d * 3072 + r.row) then s
            else (s.retireFrame d r.row).logRepair (repairEntry d r.bank r.row 0 true)
          s.setFld galRepairStatusResult d 0 2
      ((s.setFld galRepairStatusBusy d 0 0).endAct d a.entry false).showSpares

def execRowRepairRun (die : Fin 2) (s : State) : Host.Outcome State Fault Refusal := .next (rowRepairRunEffect die s)

/-! ## Predictor commits and regenerations (R229, R232 to R235) -/

/-- A chain launched beside a record's own sequence. -/
def State.launchExtra (s : State) (c : Chain) (clamps origin : Nat) (regenFor : Option (Nat × Nat)) : State :=
  let q : Seq := { cluster := c.cluster, launch := c.launch, next := c.off, extra := true, regenFor := regenFor }
  ({ s with seqs := s.seqs ++ [q] }).launchChain { c with extra := true, origin := origin, next := if origin = 2 then 0 else c.next } clamps

/-- Whether a record's cluster runs a chain beside its own sequence. -/
def State.besideBusy (s : State) (cluster launch : Nat) : Bool :=
  (s.findSeq cluster launch true).isSome || s.chains.any fun c => c.launch == launch && c.cluster == cluster && c.extra

/-- Whether a chain of a region's recompute or backward stands in a sequence from an offset on; `fuel` bounds its commands (R352, R521). -/
def State.unitAhead (s : State) (die : Nat) (r : RecInst) (region : Nat) : Nat → Nat → Bool
  | 0, _ => false
  | fuel + 1, off =>
    if off = 0 then false
    else
      let w := fun k => s.virtWord die r.owner (r.prog + 64 * off + 8 * k)
      if bitsOf (w 0) 0 4 = 0xC ∧ bitsOf (w 0) 40 16 = region ∧ (bitsOf (w 0) 56 2 = 1 ∨ bitsOf (w 0) 56 2 = 2) then true
      else s.unitAhead die r region fuel (bitsOf (w 2) 0 32)

/-- Whether a region's backward has reached its commit point in a step: a chain of it has committed, none is present, and no sequence of the
record has one before it (R229). -/
def State.backwardDone (s : State) (launch region : Nat) : Bool :=
  (s.seqs.any fun q => q.launch == launch && !q.extra && q.backward.contains region) &&
  !(s.chains.any fun c => c.launch == launch && c.region == region && (c.rphase == 1 || c.rphase == 2)) &&
  !(s.seqs.any fun q => q.launch == launch && !q.extra && !q.ended &&
      s.unitAhead (cluDie q.cluster) (s.recOr launch) region 65536 q.next)

/-- PREDICTOR_COMMIT_LAUNCH (R229): the PRED_ENTRY chain of a region with SKIP = 1, once the region's backward has reached its commit point. -/
def predictorCommitLaunchEffect (cluster : Fin 24) (launch : BitVec 12) (region : BitVec 16) (s : State) : State :=
  let cl := cluster.val
  let l := launch.toNat
  let r := s.recOr l
  let die := cluDie cl
  let n := region.toNat
  let g := s.regionRec die r.owner r.prog n
  let (c, k) := s.parseChain cl r g.pred (s.progAt die r.owner r.prog g.pred 32)
  if n < s.regionCount die r.owner r.prog ∧ g.skip = true ∧ g.pred ≠ 0 ∧ s.backwardDone l n = true ∧ s.besideBusy cl l = false ∧
      s.canLaunch c = true then
    let done (q : Seq) : Seq := if q.launch == l then { q with backward := q.backward.filter (· != n) } else q
    let s := { s with seqs := s.seqs.map done }
    ((s.regionClamp cl g).bump .cluPredCommitCnt cl 0 1).launchExtra c k 2 none
  else s

def execPredictorCommitLaunch (cluster : Fin 24) (launch : BitVec 12) (region : BitVec 16) (s : State) :
    Host.Outcome State Fault Refusal :=
  .next (predictorCommitLaunchEffect cluster launch region s)

/-- CHECKPOINT_REGENERATION (R232 to R235): a checkpoint read with the poison flag is written again by its producing region's
regeneration, once in a step; where that is not permitted the reading region ends with POISON_CONSUMED. -/
def checkpointRegenerationEffect (reader : ChainRef) (ckpt : BitVec 5) (s : State) : State :=
  match s.findChain reader with
  | none => s
  | some c =>
    let die := cluDie c.cluster
    let g := s.regionOf c
    let w := s.ckptEntry die c.owner c.prog g ckpt.toNat
    let src := bitsOf w 32 16
    let p := s.regionRec die c.owner c.prog src
    let r := s.recOr c.launch
    let (d, k) := s.parseChain c.cluster r p.regen (s.progAt die r.owner r.prog p.regen 32)
    let s := if c.region = 0xFFFF then s else s.regionClamp c.cluster g
    if c.region ≠ 0xFFFF ∧ ckpt.toNat < g.nAckpt ∧ bitOf w 48 = false ∧ s.regenAllowed c w = true then
      if s.besideBusy c.cluster c.launch = true ∨ s.canLaunch d = false then s
      else
        let s := s.regionClamp c.cluster p
        let s := { s with regens := s.regens ++ [(c.launch, src, bitsOf w 0 32)] }
        (s.bump .cluCkptRegenCnt c.cluster 0 1).launchExtra d k 3 (some (src, bitsOf w 0 32))
    else if s.regenRuns c w then s
    else s.endChain c stPoisonConsumed 0

def execCheckpointRegeneration (reader : ChainRef) (ckpt : BitVec 5) (s : State) : Host.Outcome State Fault Refusal :=
  .next (checkpointRegenerationEffect reader ckpt s)

end Sys2Proof.Machine
end

