-- ==== Sys2Proof/Machine/Hbm.lean ====
section
/-!
DEFINITION. HBM and maintenance (spec/08_hbm_and_protection.md): reads and writes through the controllers, correction write-backs,
scrubs, calibration, self-test and the arbiter's commands.
-/
namespace Sys2Proof.Machine

/-! ## Decoding a read (R374 to R381) -/

/-- What the array and the interface did to a stored sector: its data and check symbols XORed (R374 to R376). -/
def State.disturb (s : State) (pa : Nat) (noise : BitVec 256) (checkNoise : BitVec 16) : State :=
  if noise = 0#256 ∧ checkNoise = 0#16 then s
  else
    let base := pa / 32 * 32
    let d := s.rdSector base ^^^ noise
    let delta := s.deltaAt base ^^^ checkSymbols noise ^^^ checkNoise
    { s with mem := putRun 0#8 base (bytesOf d.toNat 32) s.mem, hbmDelta := putD 0#16 (base / 32) delta s.hbmDelta }

/-! ## Queues (R383 to R385) -/

/-- R383: whether a request fits a queue: 64 in all, 16 of one bank index; write-backs take no place (R379). -/
def hbmFits (harb : Bool) (q : List HbmReq) (r : HbmReq) : Bool :=
  decide ((q.countP fun x => !x.wb) < 64) && decide ((q.countP fun x => !x.wb && hbmBank harb x.addr == hbmBank harb r.addr) < 16)

/-- The first held request that fits enters the queue (R384); requests of one source to one bank keep their order. -/
def hbmEnterHeld (harb : Bool) (out : Nat → Bool) (q : List HbmReq) : List HbmReq → List HbmReq → List HbmReq × List HbmReq
  | before, [] => (q, before)
  | before, r :: rs =>
    let behind := before.any fun x => x.port == r.port && hbmBank harb x.addr == hbmBank harb r.addr
    if hbmFits harb q r && !behind && !out r.addr then (q ++ [r], before ++ rs)
    else hbmEnterHeld harb out q (before ++ [r]) rs

/-- A pseudo-channel with the first of its held requests that fits entered. -/
def State.enterHeld (s : State) (ctl : Nat) (c : PseudoChannel) : PseudoChannel :=
  let (q, held) := hbmEnterHeld s.harbour (fun a => s.groupOut (ctl / 4) (hbmGroup s.harbour a)) c.queue [] c.held
  { c with queue := q, held := held }

/-- Every held request that fits entered, oldest first. -/
def State.enterAll (s : State) (ctl : Nat) (c : PseudoChannel) : PseudoChannel := (List.range c.held.length).foldl (fun c _ => s.enterHeld ctl c) c

/-- A request arrives, behind the held ones that fit: queued, or held at its source, and counted where it does not fit (R384, R405); a write
drops a queued write-back of its sector (R379). -/
def State.hbmArrive (s : State) (r : HbmReq) : State :=
  let harb := s.harbour
  let (ctl, pc) := hbmPlace harb r.addr
  let s := if r.write then s.dropWritebacks (r.addr / 32) 1 else s
  let c := s.enterAll ctl (s.chan ctl pc)
  let behind := c.held.any fun x => x.port == r.port && hbmBank harb x.addr == hbmBank harb r.addr
  let fits := hbmFits harb c.queue r
  if fits && !behind && !s.groupOut (ctl / 4) (hbmGroup harb r.addr) then s.setChan ctl pc { c with queue := c.queue ++ [r] }
  else (if fits then s else s.bump .hbmcBankHoldCnt ctl 0 1).setChan ctl pc { c with held := c.held ++ [r] }

/-- The oldest request of each owner whose bank is ready and whose channel group is in service; requests to one sector keep their order (R385,
R405). -/
def eligible (can : HbmReq → Bool) : List Nat → List HbmReq → List HbmReq
  | _, [] => []
  | seen, r :: rs =>
    if can r && !seen.contains (r.addr / 32) then r :: eligible can (r.addr / 32 :: seen) rs
    else eligible can (r.addr / 32 :: seen) rs

/-- The request a pseudo-channel serves next, and the round-robin position after it (R385). -/
def State.hbmPick (s : State) (ctl pc : Nat) (ready : BitVec 64) : Option (HbmReq × PseudoChannel) :=
  let c := s.chan ctl pc
  let can := eligible (fun r => ready.getLsbD (hbmBank s.harbour r.addr) && !s.groupOut (ctl / 4) (hbmGroup s.harbour r.addr)) [] c.queue
  match wrrPick (s.ownerWeight (ctl / 4)) c.owner c.credit (can.map (·.owner)) with
  | none => none
  | some (o, credit) =>
    match can.find? fun r => r.owner == o with
    | none => none
    | some r => some (r, { c with queue := eraseFirst (· == r) c.queue, owner := o, credit := credit })

/-- The request to a sector served, where it is the one whose turn it is, as the stored word has been disturbed meanwhile. -/
def State.serveNext (s : State) (pa : Nat) (ready : BitVec 64) (severity : Bool) (mine : HbmReq → Bool) (noise : BitVec 256 := 0#256)
    (checkNoise : BitVec 16 := 0#16) : State :=
  let (ctl, pc) := hbmPlace s.harbour pa
  match s.hbmPick ctl pc ready with
  | none => s
  | some (r, c) =>
    if r.addr == pa && mine r then ((s.setChan ctl pc c).disturb pa noise checkNoise).serveHbm ctl r severity else s

/-- HBM_READ (R374). -/
def hbmReadEffect (addr : BitVec 48) (owner port : BitVec 6) (phase : HbmPhase) (s : State) : State :=
  let pa := addr.toNat / 32 * 32
  if !s.isHbm pa then s
  else match phase with
    | .arrive => s.hbmArrive { addr := pa, write := false, owner := owner.toNat, port := port.toNat }
    | .serve ready noise checkNoise severity =>
      s.serveNext pa ready severity (fun r => !r.write && r.owner == owner.toNat) noise checkNoise

def execHbmRead (addr : BitVec 48) (owner port : BitVec 6) (phase : HbmPhase) (s : State) : Host.Outcome State Fault Refusal :=
  .next (hbmReadEffect addr owner port phase s)

/-- HBM_WRITE (R377): one whole sector with fresh check symbols; a write to a protected page waits for its copy (R642). -/
def hbmWriteEffect (addr : BitVec 48) (owner port : BitVec 6) (data : BitVec 256) (mask : BitVec 32) (phase : HbmPhase) (s : State) :
    State :=
  let pa := addr.toNat / 32 * 32
  if !s.isHbm pa then s
  else match phase with
    | .arrive => s.hbmArrive { addr := pa, write := true, data := data, mask := mask, owner := owner.toNat, port := port.toNat }
    | .serve ready _ _ severity => s.serveNext pa ready severity fun r => r.write && !r.wb && r.owner == owner.toNat

def execHbmWrite (addr : BitVec 48) (owner port : BitVec 6) (data : BitVec 256) (mask : BitVec 32) (phase : HbmPhase) (s : State) :
    Host.Outcome State Fault Refusal :=
  .next (hbmWriteEffect addr owner port data mask phase s)

/-- CORRECTION_WRITEBACK (R379, R380, R385): a queued write-back stores the corrected sector once its turn has come; it is no write in the sense
of a daymark's protection. -/
def correctionWritebackEffect (turn : WritebackTurn) (s : State) : State :=
  let pa := turn.addr.toNat / 32 * 32
  if !s.isHbm pa then s else s.serveNext pa turn.ready false fun r => r.wb

def execCorrectionWriteback (turn : WritebackTurn) (s : State) : Host.Outcome State Fault Refusal :=
  .next (correctionWritebackEffect turn s)

/-- HELD_REQUEST_ENTER (R384). -/
def heldRequestEnterEffect (controller : Fin 8) (pc : Fin 32) (s : State) : State :=
  s.setChan controller.val pc.val (s.enterHeld controller.val (s.chan controller.val pc.val))

def execHeldRequestEnter (controller : Fin 8) (pc : Fin 32) (s : State) : Host.Outcome State Fault Refusal :=
  .next (heldRequestEnterEffect controller pc s)

/-- ECS_COUNT_READ (R372): added to HBMC_ECS_CNT. -/
def execEcsCountRead (controller : Fin 8) (count : BitVec 64) (s : State) : Host.Outcome State Fault Refusal :=
  .next (s.bump .hbmcEcsCnt controller.val 0 count.toNat)

/-! ## Requests to the arbiter (R387, R404 to R408) -/

/-- An activity enters the table, or waits for an entry (R404). -/
def State.submitAct (s : State) (die : Nat) (a : MaintAct) : State :=
  let (s, e) := s.enterAct die a
  match e with
  | some _ => s
  | none =>
    let arb := s.arb die
    s.setArb die { arb with waitingOther := arb.waitingOther ++ [a] }

/-- Whether an activity of a kind and scope is queued, running or waiting. -/
def State.actPending (s : State) (die kind scope : Nat) : Bool :=
  let a := s.arb die
  a.acts.any (fun x => x.kind == kind && x.scope == scope) || a.waitingOther.any (fun x => x.kind == kind && x.scope == scope)

/-- The controller's own calibration request of a channel group (R407). -/
def State.requestCal (s : State) (die group : Nat) (force : Bool) : State :=
  if s.actPending die 2 group then s else s.submitAct die { entry := 0, kind := 2, scope := group, groups := [group], force := force }

/-- A calibration of a channel group that is queued or waits turned to interleaved mode, where it is not yet (R406, R407). -/
def State.forceCal (s : State) (die group : Nat) : State :=
  let arb := s.arb die
  let hit (a : MaintAct) : Bool := a.kind == 2 && a.scope == group && !a.running && !a.force
  if (arb.acts ++ arb.waitingOther).any hit then
    let f (a : MaintAct) : MaintAct := if hit a then { a with force := true } else a
    (s.bump .hbmcCalForcedCnt (die * 4 + group / 4) 0 1).setArb die { arb with acts := arb.acts.map f, waitingOther := arb.waitingOther.map f }
  else s

/-- One channel group's check against the temperature at its last calibration (R407). -/
def State.checkDrift (s : State) (die stack temp : Nat) (k : Nat) : State :=
  let group := stack * 4 + k
  let key := die * 16 + group
  let last := lookupD 0 key s.hbm.calTemp
  if last = 0 then { s with hbm := { s.hbm with calTemp := putD 0 key (temp + 1) s.hbm.calTemp } }
  else
    let moved := max (last - 1) temp - min (last - 1) temp
    let force := decide (s.dnat dkCalDriftForce ≤ moved)
    if s.actPending die 2 group then (if force then s.forceCal die group else s)
    else if force then
      (s.bump .hbmcCalForcedCnt (die * 4 + stack) 0 1).requestCal die group true
    else if moved < 10 then s
    else s.requestCal die group false

/-- STACK_TEMP_READ (R386, R387, R403, R407): calibrations are requested as the temperature moves, and then a change of refresh rate as the
hottest die crosses the threshold. -/
def stackTempReadEffect (controller : Fin 8) (temp : BitVec 8) (s : State) : State :=
  let ctl := controller.val
  let die := ctl / 4
  let stack := ctl % 4
  let t := temp.toNat
  let limit := s.dnat dkHbmRefresh2xTemp
  let fast := s.hbm.fast.contains ctl
  let s := { s with hbm := { s.hbm with temp := putD 0 ctl t s.hbm.temp } }
  let s := (List.range 4).foldl (fun s k => s.checkDrift die stack t k) s
  if !fast && decide (limit ≤ t) && !s.actPending die 5 stack then
    s.submitAct die { entry := 0, kind := 5, scope := stack, fast := true }
  else if fast && decide (t + 5 ≤ limit) && !s.actPending die 5 stack then
    s.submitAct die { entry := 0, kind := 5, scope := stack, fast := false }
  else s

def execStackTempRead (controller : Fin 8) (temp : BitVec 8) (s : State) : Host.Outcome State Fault Refusal :=
  .next (stackTempReadEffect controller temp s)

/-- A write of HBMC_MAINT_REQ (R404): ignored while PENDING; GO submits the activity, or leaves it PENDING where no entry is free. -/
def State.maintReq (s : State) (die : Nat) (value : Word) (a : MaintAct) : State :=
  if s.fld hbmcMaintReqPending die = 1 then s
  else
    let old := s.rd .hbmcMaintReq die
    let s := s.wr .hbmcMaintReq die 0 (BitVec.ofNat 64 (bitsOf value 0 9 + bitsOf old 10 8 * 2 ^ 10))
    if !bitOf value 63 then s
    else
      let (s, e) := s.enterAct die a
      match e with
      | some k => s.setFld hbmcMaintReqActivity die 0 (actId a.kind k)
      | none =>
        let arb := s.arb die
        (s.setFld hbmcMaintReqPending die 0 1).setArb die { arb with waiting := some a }

/-- The register value with the KIND that its row of the command table names. -/
def withKind (value : Word) (kind : Nat) : Word := withBits value 0 3 kind

/-- CALIBRATION_REQUEST (R405, R406); a KIND that is none of 2, 3 and 5 is read as 2. -/
def execCalibrationRequest (die : Fin 2) (value : Word) (s : State) : Host.Outcome State Fault Refusal :=
  let kind := bitsOf value 0 3
  let g := bitsOf value 3 4
  .next (s.maintReq die.val (if kind = 3 ∨ kind = 5 then withKind value 2 else value)
    { entry := 0, kind := 2, scope := g, groups := [g], force := bitOf value 7 })

/-- SELF_TEST_REQUEST (R408): clusters above 11 are read as 11. -/
def execSelfTestRequest (die : Fin 2) (value : Word) (s : State) : Host.Outcome State Fault Refusal :=
  .next (s.maintReq die.val (withKind value 3) { entry := 0, kind := 3, scope := min 11 (bitsOf value 3 4) })

/-- REFRESH_RATE_REQUEST (R387): the stack is SCOPE's low two bits. -/
def execRefreshRateRequest (die : Fin 2) (value : Word) (s : State) : Host.Outcome State Fault Refusal :=
  .next (s.maintReq die.val (withKind value 5) { entry := 0, kind := 5, scope := bitsOf value 3 2, fast := bitOf value 8 })

/-- MAINT_REQUEST_ENTRY (R404): the request register's request first, then the others in order. -/
def maintRequestEntryEffect (die : Fin 2) (s : State) : State :=
  let d := die.val
  let arb := s.arb d
  if (s.freeEntry d).isNone then s
  else
    match arb.waiting with
    | some a =>
      let (s, e) := (s.setArb d { arb with waiting := none }).enterAct d a
      let s := s.setFld hbmcMaintReqPending d 0 0
      match e with
      | some k => s.setFld hbmcMaintReqActivity d 0 (actId a.kind k)
      | none => s
    | none =>
      match arb.waitingOther with
      | [] => s
      | a :: rest =>
        let (s, e) := (s.setArb d { arb with waitingOther := rest }).enterAct d a
        match e with
        | none => s
        | some k =>
          let s := { s with sram := { s.sram with repairs := s.sram.repairs.map fun r =>
            if a.kind == 6 && r.die == d && r.entry == 32 then { r with entry := k } else r } }
          if a.kind = 1 then
            let arb := s.arb d
            let s := s.setArb d { arb with scrub := arb.scrub.map fun x => if x.entry = 32 then { x with entry := k } else x }
            s.setFld hbmcScrubCmdActivity d 0 (actId 1 k)
          else s

def execMaintRequestEntry (die : Fin 2) (s : State) : Host.Outcome State Fault Refusal := .next (maintRequestEntryEffect die s)

/-! ## Scrubs (R390 to R399) -/

/-- The half-open span of a die's populated HBM. -/
def State.hbmSpan (s : State) (die : Nat) : Nat × Nat :=
  if die = 1 && s.harbour then (dieHbmBase 1, dieHbmBase 1)
  else (dieHbmBase die, dieHbmBase die + hbmPerDie s.order s.harbour)

/-- The scrub record (R397) as words. -/
def Scrub.record (x : Scrub) : List Word :=
  let n := x.addrs.length
  [BitVec.ofNat 64 (b2n x.mode + actId 1 x.entry * 2 ^ 8 + n * 2 ^ 16 + b2n x.addrOvf * 2 ^ 22), BitVec.ofNat 64 x.read,
   BitVec.ofNat 64 x.corrected, BitVec.ofNat 64 x.uncorrectable, BitVec.ofNat 64 x.marks, BitVec.ofNat 64 x.deferredCnt,
   BitVec.ofNat 64 x.beamStart, BitVec.ofNat 64 x.beamEnd] ++
  (x.addrs.map (BitVec.ofNat 64)) ++ List.replicate (32 - n) 0#64

/-- A scrub's record is written; once it is accepted the token is signalled and the entry done (R397). Its accesses are owner 0's (log entry
85). -/
def State.finishScrub (s : State) (die : Nat) (x : Scrub) : State :=
  let s := if x.recorded then s else s.devWriteWords { unit := .maint die } x.recAddr x.record
  if s.writeWaits x.recAddr 320 then s.setArb die { s.arb die with scrub := some { x with recorded := true } }
  else
    let s := if x.tokenEn then s.putToken x.token true else s
    let s := s.setFld hbmcScrubCmdBusy die 0 0
    (s.setArb die { s.arb die with scrub := none }).endAct die x.entry false

/-- SCRUB_START (R390 to R392, R399): an empty range takes an entry and completes at once. -/
def scrubStartEffect (die : Fin 2) (value : Word) (s : State) : State :=
  let d := die.val
  if s.fld hbmcScrubCmdBusy d = 1 then s
  else
    let old := s.rd .hbmcScrubCmd d
    let s := s.wr .hbmcScrubCmd d 0 (BitVec.ofNat 64
      (bitsOf value 0 1 + bitsOf value 2 1 * 4 + bitsOf value 4 12 * 16 + bitsOf old 16 8 * 2 ^ 16))
    if !bitOf value 63 then s
    else
      let (lo0, hi0) := s.hbmSpan d
      let clamp (a : Nat) : Nat := min hi0 (max lo0 a)
      let lo := clamp (s.fld hbmcScrubLoAddr d * 32)
      let hi := clamp (s.fld hbmcScrubHiAddr d * 32)
      let empty := decide (hi ≤ lo)
      let groups := if empty then [] else rangeGroups s.harbour lo hi
      let act : MaintAct := { entry := 0, kind := 1, scope := 0, groups := groups }
      let s := s.setFld hbmcScrubCmdBusy d 0 1
      let (s, e) := s.enterAct d act
      let k := e.getD 32
      let x : Scrub := { entry := k, mode := bitOf value 0, pos := lo, hi := hi, recAddr := s.fld hbmcScrubRecAddr d * 64,
                         tokenEn := bitOf value 2, token := bitsOf value 4 12, beamStart := s.beamNow, beamEnd := s.beamNow }
      let arb := s.arb d
      let s := s.setArb d { arb with scrub := some x, waitingOther := if e.isNone then arb.waitingOther ++ [act] else arb.waitingOther }
      let s := if e.isSome then s.setFld hbmcScrubCmdActivity d 0 (actId 1 k) else s
      if empty && e.isSome then (s.markRunning d k).finishScrub d x else s

def execScrubStart (die : Fin 2) (value : Word) (s : State) : Host.Outcome State Fault Refusal := .next (scrubStartEffect die value s)

/-- Whether a scrub may read a sector now: its page is not write-protected for a daymark and its group is in service (R395, R396). -/
def State.scrubState (s : State) (die pa : Nat) : Nat :=
  if (s.frame (pa / 65536)).prot then 1 else if s.groupOut die (hbmGroup s.harbour pa) then 2 else 0

/-- A record entry for a failing sector (R397). -/
def scrubEntry (pa sym : Nat) (mark : Bool) : Nat := pa + sym * 2 ^ 48 + b2n mark * 2 ^ 62 + 2 ^ 63

def Scrub.addEntry (x : Scrub) (w : Nat) : Scrub :=
  if x.addrs.length < 32 then { x with addrs := x.addrs ++ [w] } else { x with addrOvf := true }

/-- One sector read by a scrub, behind the requests that are queued for it (R385, R393), for owner 0 (log entry 85). -/
def State.scrubRead (s : State) (pa : Nat) (x : Scrub) (noise : BitVec 256) (checkNoise : BitVec 16) (severity : Bool) :
    State × Scrub :=
  let (ctl, _) := hbmPlace s.harbour pa
  let s := (s.disturb pa noise checkNoise).flushSectors pa 32
  let (s, out) := s.readSector ctl pa 0 severity
  let x := { x with read := x.read + 1, beamEnd := s.beamNow }
  match out with
  | .clean => (s, x)
  | .corrected j _ =>
    (if x.mode then s.queueWriteback pa 0 else s, { x with corrected := x.corrected + 1 }.addEntry (scrubEntry pa j false))
  | .mark => (s, { x with marks := x.marks + 1 }.addEntry (scrubEntry pa 63 true))
  | .uncorrectable => (s, { x with uncorrectable := x.uncorrectable + 1 }.addEntry (scrubEntry pa 63 false))

/-- SCRUB_SECTOR_READ (R393, R395, R396): a stepped-around sector whose group is back, else the next sector of the range in ascending order, or
once the rest of the range is done a deferred one whose page is copied. -/
def scrubSectorReadEffect (die : Fin 2) (noise : BitVec 256) (checkNoise : BitVec 16) (severity : Bool) (s : State) : State :=
  let d := die.val
  let arb := s.arb d
  match arb.scrub with
  | none => s
  | some x =>
    if !(arb.acts.any fun a => a.entry == x.entry && a.running) then s
    else
      let put (s : State) (x : Scrub) : State := s.setArb d { s.arb d with scrub := some x }
      let read (s : State) (x : Scrub) (pa : Nat) : State :=
        let (s, x) := s.scrubRead pa x noise checkNoise severity
        put s x
      match x.stepped.find? fun p => s.scrubState d p != 2 with
      | some p =>
        let x := { x with stepped := x.stepped.filter (· != p) }
        if s.scrubState d p = 0 then read s x p else put s { x with deferred := x.deferred ++ [p], deferredCnt := x.deferredCnt + 1 }
      | none =>
        if x.pos < x.hi then
          let p := x.pos
          let x := { x with pos := p + 32 }
          match s.scrubState d p with
          | 0 => read s x p
          | 1 => put s { x with deferred := x.deferred ++ [p], deferredCnt := x.deferredCnt + 1 }
          | _ => put s { x with stepped := x.stepped ++ [p] }
        else if x.stepped ≠ [] then s
        else
          match x.deferred.find? fun p => s.scrubState d p == 0 with
          | some p => read s { x with deferred := x.deferred.filter (· != p) } p
          | none => s

def execScrubSectorRead (die : Fin 2) (noise : BitVec 256) (checkNoise : BitVec 16) (severity : Bool) (s : State) :
    Host.Outcome State Fault Refusal :=
  .next (scrubSectorReadEffect die noise checkNoise severity s)

/-- SCRUB_COMPLETE (R397): every sector of the range has been read. -/
def scrubCompleteEffect (die : Fin 2) (s : State) : State :=
  let d := die.val
  let arb := s.arb d
  match arb.scrub with
  | none => s
  | some x =>
    if (arb.acts.any fun a => a.entry == x.entry && a.running) && decide (x.hi ≤ x.pos) && x.stepped == [] && x.deferred == [] then
      s.finishScrub d x
    else s

def execScrubComplete (die : Fin 2) (s : State) : Host.Outcome State Fault Refusal := .next (scrubCompleteEffect die s)

/-! ## Admission (R402, R405, R406, R408) -/

/-- What an activity does as it starts to run: a refresh-rate change takes its effect and ends; a scrub notes the beam time. -/
def State.startAct (s : State) (die : Nat) (a : MaintAct) : State :=
  let s := s.markRunning die a.entry
  if a.kind = 5 then
    let ctl := die * 4 + a.scope
    let s := { s with hbm := { s.hbm with fast := if a.fast then setInsert ctl s.hbm.fast else setErase ctl s.hbm.fast } }
    s.endAct die a.entry false
  else if a.allGroups then
    { s with hbm := { s.hbm with outGroups := (List.range 16).foldl (fun l g => setInsert (die * 16 + g) l) s.hbm.outGroups } }
  else if a.kind = 1 then
    let arb := s.arb die
    s.setArb die { arb with scrub := arb.scrub.map fun x => { x with beamStart := s.beamNow, beamEnd := s.beamNow } }
  else s

/-- The microseconds left of an open quiet window (R607): its flashes, each 2^-12 of a revolution. -/
def State.quietLeft (s : State) : Nat :=
  match s.beam.quiet with
  | some q => q.left * s.beam.period / 4096
  | none => 0

/-- Whether an admitted activity may run now: a change of the data rate waits for 1 ms of a quiet window (R760), a calibration outside
interleaved mode for CAL_GROUP_OUT, a self-test for its cluster. -/
def State.mayRun (s : State) (freed : BitVec 12) (a : MaintAct) : Bool :=
  if a.allGroups then s.beam.quiet.isSome && decide (1000 ≤ s.quietLeft)
  else if a.kind = 2 then a.force else if a.kind = 3 then freed.getLsbD a.scope else true

/-- MAINT_ADMIT (R402): queued activities in the order they entered the table. -/
def maintAdmitEffect (die : Fin 2) (freed : BitVec 12) (s : State) : State :=
  let d := die.val
  let s := s.enterCopiers
  ((s.arb d).acts.foldl (fun s a =>
    if !a.running && admissible (s.arb d).acts a && s.mayRun freed a then s.startAct d a else s) s).wakeCopier d

def execMaintAdmit (die : Fin 2) (freed : BitVec 12) (s : State) : Host.Outcome State Fault Refusal :=
  .next (maintAdmitEffect die freed s)

/-- CAL_GROUP_OUT (R405): inside a quiet window with at least CAL_GROUP_TIME left, the group leaves service. -/
def calGroupOutEffect (die : Fin 2) (group : Fin 16) (s : State) : State :=
  let d := die.val
  let acts := (s.arb d).acts
  match acts.find? fun a => a.kind == 2 && a.scope == group.val && !a.running with
  | none => s
  | some a =>
    if !a.force && admissible acts a && s.beam.quiet.isSome && decide (s.dnat dkCalGroupTime ≤ s.quietLeft) then
      let s := { s with hbm := { s.hbm with outGroups := setInsert (d * 16 + group.val) s.hbm.outGroups } }
      s.markRunning d a.entry
    else s

def execCalGroupOut (die : Fin 2) (group : Fin 16) (s : State) : Host.Outcome State Fault Refusal := .next (calGroupOutEffect die group s)

/-- The writes and the stages that waited for channel groups go on (R405). -/
def State.groupsBack (s : State) : State :=
  let s := s.reissue s.releasable
  s.retryChains s.chains

/-- A channel group in service again, calibrated at its stack's temperature. -/
def State.groupIn (s : State) (d group : Nat) : State :=
  let key := d * 16 + group
  let t := lookupD 0 (d * 4 + group / 4) s.hbm.temp
  { s with hbm := { s.hbm with
    outGroups := setErase key s.hbm.outGroups
    calTemp := putD 0 key (t + 1) s.hbm.calTemp } }

/-- CAL_GROUP_RETURN (R405, R406, R760): the calibration ends; its group is in service, or after a change of the data rate every group of
the die, at the new rate. -/
def calGroupReturnEffect (die : Fin 2) (group : Fin 16) (s : State) : State :=
  let d := die.val
  match (s.arb d).acts.find? fun a => a.kind == 2 && (a.scope == group.val || a.scope == 16) && a.running with
  | none => s
  | some a =>
    if a.allGroups then
      let s := (List.range 16).foldl (fun s g => s.groupIn d g) s
      let s := { s with power := { s.power with slow := if a.fast then setErase d s.power.slow else setInsert d s.power.slow } }
      (s.endAct d a.entry false).groupsBack
    else ((s.groupIn d group.val).endAct d a.entry false).groupsBack

def execCalGroupReturn (die : Fin 2) (group : Fin 16) (s : State) : Host.Outcome State Fault Refusal :=
  .next (calGroupReturnEffect die group s)

/-- CAL_PERIOD_EXPIRY (R407). -/
def execCalPeriodExpiry (die : Fin 2) (group : Fin 16) (s : State) : Host.Outcome State Fault Refusal :=
  .next (s.requestCal die.val group.val false)

/-- Every byte of a cluster's lens buffers and memory 0x00 with a valid check bit (R285, R408). -/
def State.clearCluster (s : State) (c : Nat) : State :=
  let base := clusterBase c
  let n := 0xC0_0000
  { s with
    mem := clearRange base n s.mem
    poison := setClear (base / 32) (n / 32) s.poison
    badCheck := setClear (2 ^ 48 + c * 4 * 2097152) (4 * 2097152) (setClear base n s.badCheck)
    lens := clearRange (c * 4 * 2097152) (4 * 2097152) s.lens }

/-- SELF_TEST_DONE (R408). -/
def selfTestDoneEffect (die : Fin 2) (cluster : Fin 12) (fail : Bool) (s : State) : State :=
  let d := die.val
  match (s.arb d).acts.find? fun a => a.kind == 3 && a.scope == cluster.val && a.running with
  | none => s
  | some a => (s.clearCluster (d * 12 + cluster.val)).endAct d a.entry fail

def execSelfTestDone (die : Fin 2) (cluster : Fin 12) (fail : Bool) (s : State) : Host.Outcome State Fault Refusal :=
  .next (selfTestDoneEffect die cluster fail s)

end Sys2Proof.Machine
end

