-- ==== Sys2Proof/Machine/PowerOps.lean ====
section
/-!
DEFINITION. Power modes, the governor and temperatures (spec/16_power_measurement_reset.md R755 to R772).
-/
namespace Sys2Proof.Machine

/-! ## Modes (R756, R757) -/

/-- ACLK in MHz of a power mode for an order code. -/
def modeMhz (o : OrderCode) (mode : Nat) : Nat :=
  match mode, o with
  | 0, .h384s17 => 1700
  | 0, _ => 1900
  | 1, .h384s17 => 1500
  | 1, _ => 1700
  | _, _ => 1000

/-- CORE_VSEL of a mode (R755): 1 selects 0.70 V. -/
def modeVsel (mode : Nat) : Nat := if mode = 0 then 0 else 1

/-- The package cap of a mode, in mW. -/
def modeCap (mode : Nat) : Nat := if mode = 0 then 1250000 else if mode = 1 then 950000 else 300000

def State.modeNow (s : State) : Nat := s.fld pwrStatusMode 0

def State.subModeNow (s : State) : Nat := s.fld pwrStatusSubMode 0

/-- A die's budget in mW (R756, R757). -/
def dieBudget (mode sub : Nat) : Nat :=
  let base := if mode = 0 then 410000 else if mode = 1 then 280000 else 150000
  if mode = 2 then base else if sub = 1 then base + 28000 else if sub = 3 then base - 15000 else base

/-- A stack's budget in mW: 20 W once it runs at 7.2 Gb/s (R757, R760). -/
def State.stackBudget (s : State) (die : Nat) : Nat := if s.power.slow.contains die then 20000 else 27000

def serdesBudget (mode : Nat) : Nat := if mode = 2 then 24000 else 96000

def keeperBudget : Nat := 40000

/-- Budget of UCIe and miscellaneous. -/
def miscBudget (mode sub : Nat) : Nat := if mode = 2 then 12000 else if sub = 3 then 58000 else 28000

/-- Dies and stacks that run in a mode (R756). -/
def modeDies (mode : Nat) : List Nat := if mode = 2 then [0] else [0, 1]

def modeStacks (mode : Nat) : List Nat := if mode = 2 then [0, 1] else List.range 8

/-! ## Clocks (R759, R763) -/

/-- ACLK of the mode in effect, before throttling. -/
def State.baseMhz (s : State) : Nat := if s.power.mhz = 0 then modeMhz s.order s.modeNow else s.power.mhz

/-- ACLK at a throttle level: levels 5 to 15 lower it by 50 MHz each, not below 1.0 GHz (R763). -/
def throttledMhz (base level : Nat) : Nat := if level < 5 then base else max 1000 (base - (level - 4) * 50)

/-- ACLK_MHZ of the running dies as their throttle levels leave it. -/
def State.showClock (s : State) : State :=
  (modeDies s.modeNow).foldl (fun s die =>
    s.setFld pwrStatusAclkMhz die 0 (throttledMhz s.baseMhz (s.fld pwrStatusLevel die))) s

def State.setMhz (s : State) (mhz : Nat) : State := ({ s with power := { s.power with mhz := mhz } }).showClock

def State.setBoth (s : State) (f : Field) (v : Nat) : State := (s.setFld f 0 0 v).setFld f 1 0 v

/-- MODE and SUB_MODE in effect, with what shows them. -/
def State.setMode (s : State) (mode sub : Nat) : State :=
  (((s.setBoth pwrStatusMode mode).setBoth pwrStatusSubMode (if mode = 2 then 0 else sub)).setBoth pwrStatusVsel (modeVsel mode)).dput
    dkPowerModeActive (mode : Nat)

/-- R760: the arbiter activity that brings a die's stacks to the data rate of the sub-mode, where none is under way to it. -/
def State.requestRate (s : State) (die : Nat) : State :=
  let fast := s.subModeNow != 1
  let acts := ((s.arb die).acts ++ (s.arb die).waitingOther).filter fun a => a.allGroups
  let last := match acts.getLast? with
    | some a => a.fast
    | none => !s.power.slow.contains die
  if last == fast then s
  else s.submitAct die { entry := 0, kind := 2, scope := 16, groups := List.range 16, fast := fast }

def State.setPaused (s : State) (v : Bool) : State :=
  (s.setPowerDie 0 { s.power.die0 with paused := v }).setPowerDie 1 { s.power.die1 with paused := v }

/-- R759: a change of mode or sub-mode takes effect: engines stop at their next tile boundary; for a lower clock or voltage ACLK falls now,
for a higher one it rises at the resume. -/
def State.applyMode (s : State) (mode sub : Nat) : State :=
  let new := modeMhz s.order mode
  let lower := decide (new ≤ s.baseMhz)
  let s := { s with power := { s.power with mhz := s.baseMhz } }
  let s := (s.setPaused true).setMode mode sub
  let s := if lower then s.setMhz new else s
  (s.requestRate 0).requestRate 1

/-- The mode and sub-mode that a change would bring into effect during operation, if there is one to make (R758). -/
def State.modeDue (s : State) : Option (Nat × Nat) :=
  let mode := s.dnat dkPowerMode
  let sub := s.dnat dkSubMode
  if s.modeNow = 2 ∨ 2 ≤ mode then
    (if s.modeNow < 2 ∧ sub ≠ s.subModeNow then some (s.modeNow, sub) else none)
  else if mode ≠ s.modeNow ∨ sub ≠ s.subModeNow then some (mode, sub) else none

/-- A stored change takes effect. -/
def State.takeMode (s : State) : State :=
  match s.modeDue with
  | some (mode, sub) => s.applyMode mode sub
  | none => s

/-- R758: at once in beam state FREE or ACQUIRE. -/
def State.modeWritten (s : State) : State := if s.fld beamStatusState 0 < 2 then s.takeMode else s

/-- MODE_CHANGE_RESUME (R759): the higher clock is in effect, and engines go on. -/
def modeChangeResumeEffect (s : State) : State :=
  if !s.power.die0.paused then s
  else (((s.setPaused false).setMhz (modeMhz s.order s.modeNow)).dieGoesOn 0).dieGoesOn 1

def execModeChangeResume (s : State) : Host.Outcome State Fault Refusal := .next (modeChangeResumeEffect s)

/-! ## The governor (R762 to R765) -/

def State.powerStack (s : State) (k : Nat) : PowerStack := lookupD {} k s.power.perStack

def State.setPowerStack (s : State) (k : Nat) (x : PowerStack) : State :=
  { s with power := { s.power with perStack := putD {} k x s.power.perStack } }

/-- The unused part of a budget. -/
def unusedOf (budget power : Nat) : Nat := budget - power

/-- A die's allowance in mW: its budget plus min(25 W, U / 2 + 10 W) (R764). -/
def allowance (budget unused : Nat) : Nat := budget + min 25000 (unused / 2 + 10000)

/-- The level of the next interval (R764, R770). -/
def nextLevel (level power allow below : Nat) (hot overCap : Bool) : Nat :=
  if hot || decide (allow * 11 < power * 10) || overCap then min 15 (level + 4)
  else if allow < power then min 15 (level + 1)
  else if 4 ≤ below then level - 1 else level

/-- One die's interval: a count of four quiet intervals is used up by the step down it gives. -/
def State.governDie (s : State) (die power : Nat) (overCap : Bool) : State :=
  let allow := allowance (dieBudget s.modeNow s.subModeNow) s.power.unused
  let p := s.powerDie die
  let below := if power * 20 < allow * 19 then p.below + 1 else 0
  let level := nextLevel (s.fld pwrStatusLevel die) power allow below p.hot overCap
  let s := s.setPowerDie die { p with below := if below = 4 then 0 else below }
  let s := if p.hot then s.bump .pwrThermCnt die 0 1 else s
  s.setFld pwrStatusLevel die 0 level

/-- One stack's interval: its cap halves while it is hot, falls by one eighth of peak above its budget, and rises by one eighth after four
intervals more than 5 % below it (R764, R770). -/
def State.governStack (s : State) (k power : Nat) : State :=
  let budget := s.stackBudget (k / 4)
  let x := s.powerStack k
  let below := if power * 20 < budget * 19 then x.below + 1 else 0
  let cap := if x.hot then x.cap / 2
    else if budget < power then x.cap - 2 ^ 29
    else if below = 4 then min (2 ^ 32) (x.cap + 2 ^ 29) else x.cap
  s.setPowerStack k { x with cap := cap, below := if below = 4 then 0 else below }

/-- What the interval measured, in the dictionary (R772, R785). -/
def State.showPower (s : State) (p : PowerReading) : State :=
  let s := (List.range 13).foldl (fun s k =>
    ((s.dput (dkRailMv k) ((p.mv.toNat / 2 ^ (16 * k) % 65536 : Nat) : Int)).dput (dkRailMa k)
      ((p.ma.toNat / 2 ^ (32 * k) % 2 ^ 32 : Nat) : Int)).dput (dkRailMw k) ((p.mw.toNat / 2 ^ (32 * k) % 2 ^ 32 : Nat) : Int)) s
  s.dput dkPkgPower ((p.package.toNat : Nat) : Int)

/-- GOVERNOR_INTERVAL (R762 to R764). -/
def governorIntervalEffect (p : PowerReading) (s : State) : State :=
  let mode := s.modeNow
  let sub := s.subModeNow
  let die := fun k => p.dies.toNat / 2 ^ (32 * k) % 2 ^ 32
  let stack := fun k => p.perStack.toNat / 2 ^ (32 * k) % 2 ^ 32
  let overCap := decide (min (modeCap mode) (s.dnat dkPowerCap * 1000) < p.package.toNat)
  let s := s.showPower p
  let s := (modeDies mode).foldl (fun s k => s.governDie k (die k) overCap) s
  let s := (modeStacks mode).foldl (fun s k => s.governStack k (stack k)) s
  let unused := (modeStacks mode).foldl (fun n k => n + unusedOf (s.stackBudget (k / 4)) (stack k)) 0 +
    unusedOf (serdesBudget mode) p.serdes.toNat + unusedOf keeperBudget p.keeper.toNat + unusedOf (miscBudget mode sub) p.misc.toNat
  ({ s with power := { s.power with unused := unused } }).showClock

def execGovernorInterval (reading : PowerReading) (s : State) : Host.Outcome State Fault Refusal :=
  .next (governorIntervalEffect reading s)

/-- DROOP_DETECT (R767): array issue of the die is held for 16 cycles, and for 1 ms ramps from a released array are longer. -/
def droopDetectEffect (die : Fin 2) (s : State) : State :=
  let d := die.val
  (s.bump .pwrDroopCnt d 0 1).setPowerDie d { s.powerDie d with hold := 16, longRamp := s.aclkMhz d * 1000 }

def execDroopDetect (die : Fin 2) (s : State) : Host.Outcome State Fault Refusal := .next (droopDetectEffect die s)

/-- HBM_RAMP (R445, R768): the first of the ramp's 8 steps, its wait counted as a tier wait of cause OTHER, or the next. -/
def hbmRampEffect (controller : Fin 8) (waited : BitVec 12) (s : State) : State :=
  let k := controller.val
  let x := s.powerStack k
  if x.ramp = 8 then (s.setPowerStack k { x with ramp := 1 }).bump .poolStallCyc (k / 4) 15 waited.toNat
  else s.setPowerStack k { x with ramp := x.ramp + 1 }

def execHbmRamp (controller : Fin 8) (waited : BitVec 12) (s : State) : Host.Outcome State Fault Refusal :=
  .next (hbmRampEffect controller waited s)

/-! ## Temperatures (R770) -/

/-- A signed 16-bit reading in 0.1 °C. -/
def tempAt (x : Nat) (k : Nat) : Int := (BitVec.ofNat 16 (x / 2 ^ (16 * k))).toInt

def maxTemp (xs : List Int) : Int := xs.foldl max (xs.headD 0)

def dieTemp (r : TempReading) (die : Nat) : Int := maxTemp ((List.range 64).map fun k => tempAt r.dies.toNat (64 * die + k))

def keeperTemp (r : TempReading) : Int := maxTemp ((List.range 8).map fun k => tempAt r.keeper.toNat k)

def stackTemp (r : TempReading) (k : Nat) : Nat := r.perStack.toNat / 2 ^ (8 * k) % 256

/-- The thermal trip (R770): any die or keeper sensor at 110 °C, or any stack at 105 °C. -/
def tripped (r : TempReading) : Bool :=
  decide (1100 ≤ dieTemp r 0) || decide (1100 ≤ dieTemp r 1) || decide (1100 ≤ keeperTemp r) ||
  (List.range 8).any fun k => decide (105 ≤ stackTemp r k)

/-- Every sensor at least 25 °C below the trip limits (R771). -/
def cooled (r : TempReading) : Bool :=
  decide (dieTemp r 0 ≤ 850) && decide (dieTemp r 1 ≤ 850) && decide (keeperTemp r ≤ 850) &&
  (List.range 8).all fun k => decide (stackTemp r k ≤ 80)

/-- A limit with 2 °C of hysteresis, in 0.1 °C. -/
def hotNow (was : Bool) (temp limit : Int) : Bool := if was then decide (limit - 20 < temp) else decide (limit ≤ temp)

/-- What a sample shows and decides, but for the trip (R770, R785). -/
def State.takeTemps (s : State) (r : TempReading) : State :=
  let lim := (s.dget dkThermThrottle) * 10
  let hlim := (s.dget dkHbmThermThrottle) * 10
  let s := ((s.dput (dkDieTemp 0) (dieTemp r 0)).dput (dkDieTemp 1) (dieTemp r 1)).dput dkKeeperTemp (keeperTemp r)
  let s := s.dputBytes dkThermalMap (bytesOf r.dies.toNat 256)
  let die (s : State) (d : Nat) : State :=
    s.setPowerDie d { s.powerDie d with hot := hotNow (s.powerDie d).hot (dieTemp r d) lim }
  let s := die (die s 0) 1
  (List.range 8).foldl (fun s k =>
    let x := s.powerStack k
    s.setPowerStack k { x with hot := hotNow x.hot ((stackTemp r k : Nat) * 10) hlim }) s

end Sys2Proof.Machine
end

