-- ==== Sys2Proof/Machine/BeamClock.lean ====
section
/-!
DEFINITION. The beam counter, flash boundaries and beam marks (spec/12_beam_and_launching.md R569 to R582), and what else happens at a
boundary: mode changes (spec/16 R758), snapshots (spec/18 R832) and changes of trace settings (R840).
-/
namespace Sys2Proof.Machine

/-! ## The counter (R569, R570) -/

/-- Counter units of a flash: 2^20 phase units. -/
def flashUnits : Nat := 2 ^ 52

/-- The beam counter set to a value of its 96 bits, and BEAM_NOW of both dies. -/
def State.setBeam (s : State) (n : Nat) : State :=
  let s := { s with beam := { s.beam with counter := BitVec.ofNat 96 n } }
  (s.setFld beamNowBeam 0 0 (n / 2 ^ 32)).setFld beamNowBeam 1 0 (n / 2 ^ 32)

/-- STATE of the beam (R578). -/
def State.beamState (s : State) : Nat := s.fld beamStatusState 0

def State.setBeamState (s : State) (st : Nat) : State := (s.setBoth beamStatusState st).dput dkBeamState (st : Nat)

/-! ## Trace settings (R840, R842) -/

/-- A trace source's staged records discarded and counted as dropped (R840). -/
def TraceSrc.discard (t : TraceSrc) (now : Nat) : TraceSrc := { (t.staged.foldl (fun x _ => TraceSrc.drop x now) { t with staged := [] }) with staged := [] }

/-- Every source of a die discards its staged records. -/
def State.discardTraces (s : State) (die : Nat) : State :=
  let mine := s.trace.filter fun x => x.1 / 256 == die
  let n := mine.foldl (fun n x => n + x.2.staged.length) 0
  let s := s.bump .ctrTraceLostCnt die 0 n
  mine.foldl (fun (s : State) x => { s with trace := putD ({} : TraceSrc) x.1 (TraceSrc.discard x.2 s.beamNow) s.trace }) s

/-- A TRACE_ entry takes effect on both dies (R840, R842). -/
def State.applyTrace (s : State) (key : Nat) (v : Int) : State :=
  let n := v.toNat
  if key = dkTraceSink then
    let old := s.sinkKind 0
    let s := s.setBoth ctrTraceCfgSink n
    if old ≠ n then (s.discardTraces 0).discardTraces 1 else s
  else if key = dkTraceEngLevel then s.setBoth ctrTraceCfgLevel n
  else if key = dkTraceSyncMin then s.setBoth ctrTraceCfgSyncMin n
  else if key = dkTraceShare then s.setBoth ctrTraceCfgShare n
  else if key = dkTraceOwnerMask then s.setBoth ctrTraceMaskOwnerBits n
  else s

/-- The trace entries written since the last flash boundary. -/
def State.traceDue (s : State) : State :=
  let (mine, rest) := s.mooring.due.partition fun x => x.1 / 256 == 0x7000
  mine.foldl (fun s x => s.applyTrace x.1 x.2) { s with mooring := { s.mooring with due := rest } }

/-! ## Snapshots (R832) -/

/-- The words of a die's snapshot. -/
def State.snapWords (s : State) (die : Nat) : List Word :=
  let eng := (List.range 48).flatMap fun k =>
    let e := die * 48 + k
    s.rd .engClkCyc e :: s.rd .engBusyCyc e :: (List.range 7).map fun n => s.rd .engIdleCyc e n
  BitVec.ofNat 64 (s.revolution % 2 ^ 32 + die * 2 ^ 32 + s.aclkMhz die % 4096 * 2 ^ 33) :: List.replicate 7 0#64 ++ eng ++
    ((List.range 9).map fun n => s.rd .ctrPeerLinkCyc die n) ++ List.replicate 63 0#64

def State.snapshot (s : State) (die : Nat) : State :=
  if s.fld ctrTraceCfgSnapEn die = 0 then s
  else
    let slots := 2 ^ max 1 (min 10 (s.fld ctrSnapBaseSizeLog2 die))
    let pa := s.fld ctrSnapBaseBase die * 4096 + 4096 * (s.revolution % slots)
    s.devWrite (s.maintAccess (pa / 65536) (s.frame (pa / 65536)).owner) pa ((s.snapWords die).flatMap fun w => bytesOf w.toNat 8)

/-! ## Flash boundaries (R570, R572, R595, R606) -/

/-- Requests for a ramp window that a flash boundary finds waiting (R155). -/
def State.rollWindows (s : State) : State :=
  let roll (x : Engine) : Engine := { x with windowWaited := x.windowWaited + (s.cyc - x.windowReq), windowReq := 0 }
  { s with
    engines := s.engines.map fun p => if s.fld engArrayStatusWindowWait p.1 = 1 then (p.1, roll p.2) else p
    cyc := 0 }

/-- What a revolution boundary does: the lead's new period (R572), a change of power mode (R758), snapshots (R832). -/
def State.revolutionActions (s : State) : State :=
  let s := match s.mooring.due.findRev? fun x => x.1 == dkBeamPeriod with
    | some x =>
      let s := { s with mooring := { s.mooring with due := s.mooring.due.filter fun y => y.1 != dkBeamPeriod } }
      if s.beamState = 5 then
        let gen := (s.beam.gen + 1) % 65536
        ({ s with beam := { s.beam with period := x.2.toNat, gen := gen } }).setBoth beamStatusGen gen
      else s
    | none => s
  (s.takeMode.snapshot 0).snapshot 1

/-- One flash of an open quiet window has passed. -/
def State.quietFlash (s : State) : State :=
  { s with beam := { s.beam with quiet := s.beam.quiet.map fun q => { q with left := q.left - 1 } } }

/-- PENDING records whose time has come (R595). -/
def State.liveRecords (s : State) : State :=
  s.beam.recs.foldl (fun s r =>
    if s.recState r.index == 1 && !r.now && (r.late || decide (r.beamTime ≤ s.beamNow)) then s.goLive r else s) s

/-- A quiet window opens for the first LIVE record of KIND 1, in launch order, whose tokens are set, while none is open (R606). -/
def State.openQuiet (s : State) : State :=
  if s.beam.quiet.isSome then s
  else
    let ready := s.beam.recs.filter fun r => r.kind == 1 && s.recState r.index == 2 && r.wait.all s.tokenSet
    match ready.find? fun r => ready.all fun q => q.index == r.index || s.orderedBefore r.index q.index with
    | none => s
    | some r =>
      let s := s.traceToken r false
      let s := if r.consume then s.putTokens r.wait false else s
      let s := (s.setRec { r with launchBeam := s.beamNow }).setRecState r.index 3
      { s with beam := { s.beam with quiet := some { launch := r.index, left := max 1 (r.kindArg % 65536) } } }

/-- What happens at a flash boundary that the counter stands at. -/
def State.flashActions (s : State) : State :=
  let s := s.settleTable.rollWindows.traceDue.quietFlash
  let s := if s.beamNow / 2 ^ 20 % 4096 = 0 then s.revolutionActions else s
  s.liveRecords.openQuiet

/-- FLASH_BOUNDARY (R570): the counter passes its next flash boundary; there is none in state FREE. -/
def flashBoundaryEffect (s : State) : State :=
  if s.beamState = 0 then s
  else
    let next := (s.beam.counter.toNat / flashUnits + 1) * flashUnits
    let s := { s with beam := { s.beam with hold := none } }
    (s.setBeam next).flashActions

def execFlashBoundary (s : State) : Host.Outcome State Fault Refusal := .next (flashBoundaryEffect s)

/-- The counter moves forward to a value; each flash boundary on its way is evaluated once, in order (R580). `fuel` is their number. -/
def State.runBeam (s : State) (target : Nat) : Nat → State
  | 0 => s.setBeam target
  | fuel + 1 =>
    let next := (s.beam.counter.toNat / flashUnits + 1) * flashUnits
    if next ≤ target then (s.setBeam next).flashActions.runBeam target fuel else s.setBeam target

/-- A step forward (R580). -/
def State.stepBeam (s : State) (target : Nat) : State := s.runBeam target (target / flashUnits - s.beam.counter.toNat / flashUnits)

/-! ## Beam marks (R574 to R577) -/

/-- The fields of a mark. -/
structure Mark where
  beam : Nat
  frac : Nat
  period : Nat
  lead : Nat
  gen : Nat
  hops : Nat
  sync : Bool
  deriving DecidableEq, Repr

/-- A mark's payload after its CTYPE. -/
def parseMark (p : List Byte) : Mark :=
  let f := fun lo n => natOfBytes ((p.drop lo).take n)
  { beam := f 1 8, frac := f 9 4, period := f 13 4, lead := f 17 2 % 4096, gen := f 19 2, hops := f 21 1, sync := f 22 1 % 2 == 1 }

def Mark.bytes (m : Mark) : List Byte :=
  0x10#8 :: bytesOf m.beam 8 ++ bytesOf m.frac 4 ++ bytesOf m.period 4 ++ bytesOf (m.lead % 4096) 2 ++ bytesOf m.gen 2 ++
    bytesOf m.hops 1 ++ bytesOf (b2n m.sync) 1

/-- The mark that the package sends (R574). -/
def State.ownMark (s : State) : Mark :=
  let lead := s.beamState == 5
  { beam := s.beamNow, frac := s.beam.counter.toNat % 2 ^ 32, period := s.beam.period,
    lead := if lead then s.ownPkg else s.beam.lead.getD 0, gen := s.beam.gen,
    hops := if lead then 1 else s.fld beamStatusHops 0 + 1, sync := true }

/-- BEAM_MARK_SEND (R574). -/
def beamMarkSendEffect (link : Fin 16) (s : State) : State :=
  let l := link.val
  if (s.beamState = 5 ∨ s.beamState = 2) ∧ s.dnat dkBeamDownLinks / 2 ^ l % 2 = 1 ∧ s.linkState l = 5 then
    s.sendControl l s.ownMark.bytes
  else s

def execBeamMarkSend (link : Fin 16) (s : State) : Host.Outcome State Fault Refusal := .next (beamMarkSendEffect link s)

/-- R577: the true beam in counter units. -/
def State.trueBeam (s : State) (l : Nat) (m : Mark) : Nat :=
  m.beam * 2 ^ 32 + m.frac + s.fld fabDelayOneWay l * 2 ^ 64 / (m.period * 10000)

/-- A difference of counter units in 0.1 ns, to the nearest. -/
def errorTenths (units : Int) (period : Nat) : Int := (units * (period * 10000 : Nat) * 2 + 2 ^ 64) / 2 ^ 65

/-- A signed value held to n bits. -/
def saturate (n : Nat) (x : Int) : Int := max (-(2 ^ (n - 1)) + 1) (min (2 ^ (n - 1) - 1) x)

/-- Whether a link still carries SYNC marks: its last came within four mark intervals of beam time, or the package has no beam (R575). -/
def State.carriesSync (s : State) (x : Nat × Nat × Nat) : Bool :=
  s.linkState x.1 == 5 &&
  (s.beamState == 0 || decide (s.beam.counter.toNat < x.2.2 + 4 * s.dnat dkBeamMarkInterval * (2 ^ 64 / max 1 s.beam.period)))

/-- R575: the source link: the one named, or the one chosen automatically. -/
def State.sourceOf (s : State) : Option Nat :=
  let n := s.dnat dkBeamSourceLink
  if n ≠ 16 then some n
  else match s.beam.source with
    | some l => some l
    | none =>
      let up := s.beam.heard.filter s.carriesSync
      (up.foldl (fun best x => match best with
        | none => some x
        | some b => if x.2.1 < b.2.1 || (x.2.1 == b.2.1 && decide (x.1 < b.1)) then some x else some b) none).map (·.1)

/-- A SYNC mark heard on a link. -/
def State.hear (s : State) (l hops : Nat) : State :=
  { s with beam := { s.beam with heard := (l, hops, s.beam.counter.toNat) :: s.beam.heard.filter fun x => x.1 != l } }

/-- R576: whether a mark is foreign. -/
def State.foreignMark (s : State) (m : Mark) : Bool :=
  decide (16 < m.hops) ||
  (match s.beam.lead with
   | none => false
   | some k => m.lead != k && !(s.beamState == 0 && decide (m.lead < k)))

/-- What an accepted mark shows, the period it teaches, and the error. -/
def State.noteMark (s : State) (l : Nat) (m : Mark) (err : Int) : State :=
  let s := s.bumpBoth .beamMarkRxCnt 1
  let s := (((s.setBoth beamStatusHops m.hops).setBoth beamStatusLeadPkg m.lead).setBoth beamStatusGen m.gen).setBoth beamStatusSource l
  let s := s.setBoth beamStatusError ((saturate 24 err) % 2 ^ 24).toNat
  let s := s.dput dkBeamError (saturate 32 err)
  { s with beam := { s.beam with period := m.period, gen := m.gen, lead := some m.lead,
                                 source := if s.dnat dkBeamSourceLink = 16 then some l else s.beam.source } }

/-- A correction by step: forward, each boundary evaluated; backward before the package has been LOCKED, and after it a hold (R578,
R580). -/
def State.correctByStep (s : State) (t : Nat) : State :=
  let now := s.beam.counter.toNat
  if t = now then s
  else
    let s := s.bumpBoth .beamStepCnt 1
    if now < t then { (s.stepBeam t) with beam := { (s.stepBeam t).beam with hold := none } }
    else if s.beam.firstLocked then { s with beam := { s.beam with hold := some t } }
    else s.setBeam t

/-- ACQUIRE (R578): 8 SYNC marks in a row within 10 ns lock the beam. -/
def State.acquireMark (s : State) (m : Mark) (t : Nat) (tenths : Int) : State :=
  let s := s.correctByStep t
  let run := if m.sync && decide (-100 ≤ tenths) && decide (tenths ≤ 100) then s.beam.syncRun + 1 else 0
  let s := { s with beam := { s.beam with syncRun := run } }
  if 8 ≤ run then ({ s with beam := { s.beam with firstLocked := true, syncRun := 0 } }).setBeamState 2 else s

/-- LOCKED (R578, R579): an error above 1 µs goes back to ACQUIRE; any other is slewed away. -/
def State.lockedMark (s : State) (err tenths : Int) : State :=
  if tenths < -10000 ∨ 10000 < tenths then ({ s with beam := { s.beam with slew := 0, syncRun := 0 } }).setBeamState 1
  else { s with beam := { s.beam with slew := err } }

/-- An accepted mark in each state (R578). -/
def State.markIn (s : State) (m : Mark) (t : Nat) (err tenths : Int) : State :=
  match s.beamState with
  | 0 =>
    let s := ({ s with beam := { s.beam with syncRun := 0, slew := 0, hold := none } }).setBeamState 1
    if s.beam.firstLocked then s.correctByStep t else s.setBeam t
  | 1 => s.acquireMark m t tenths
  | 2 => s.lockedMark err tenths
  | _ => if m.sync then (s.setBeamState 2).lockedMark err tenths else s

/-- BEAM_MARK (R575 to R580). -/
def beamMarkEffect (link : Fin 16) (flit : FlitIn) (s : State) : State :=
  let l := link.val
  if !s.transmits l then s
  else
    match s.takeControl l flit 0x10 with
    | (s, none) => s
    | (s, some p) =>
      let m := parseMark p
      if s.beamState = 5 then s
      else if s.foreignMark m then s.bumpBoth .beamForeignCnt 1
      else
        let s := if m.sync then s.hear l m.hops else s
        if s.sourceOf ≠ some l then s
        else
          let t := s.trueBeam l m
          let err : Int := (t : Int) - s.beam.counter.toNat
          let tenths := errorTenths err m.period
          (s.noteMark l m tenths).markIn m t err tenths

def execBeamMark (link : Fin 16) (flit : FlitIn) (s : State) : Host.Outcome State Fault Refusal := .next (beamMarkEffect link flit s)

/-- MARK_LOSS_TIMEOUT (R575, R578): an automatic choice ends; a LOCKED package passes into HOLDOVER. -/
def markLossTimeoutEffect (s : State) : State :=
  let gone := s.sourceOf
  let s := { s with beam := { s.beam with source := none, syncRun := 0, heard := s.beam.heard.filter fun x => some x.1 != gone } }
  if s.beamState = 2 then (s.bumpBoth .beamHoldoverCnt 1).setBeamState 3 else s

def execMarkLossTimeout (s : State) : Host.Outcome State Fault Refusal := .next (markLossTimeoutEffect s)

/-- BEAM_HOLDOVER_TIMEOUT (R578). -/
def beamHoldoverTimeoutEffect (ms : BitVec 32) (s : State) : State :=
  if s.beamState = 3 ∧ s.dnat dkBeamHoldoverLimit ≤ ms.toNat ∧ s.beam.coarse then s.setBeamState 4 else s

def execBeamHoldoverTimeout (ms : BitVec 32) (s : State) : Host.Outcome State Fault Refusal := .next (beamHoldoverTimeoutEffect ms s)

/-- BEAM_ROLE (R573, R578): a lead device is in state LEAD; one that ceases to be lead is a follower without a beam. -/
def State.setRole (s : State) (lead : Bool) : State :=
  if lead then
    if s.beamState = 5 then s
    else
      let s := { s with beam := { s.beam with lead := some s.ownPkg, period := s.dnat dkBeamPeriod, hold := none, slew := 0 } }
      ((s.setBoth beamStatusHops 0).setBoth beamStatusLeadPkg s.ownPkg).setBeamState 5
  else if s.beamState = 5 then
    ({ s with beam := { s.beam with lead := none, syncRun := 0 } }).setBeamState 0
  else s

end Sys2Proof.Machine
end

