-- ==== Sys2Proof/Machine/SecOps.lean ====
section
/-!
DEFINITION. What the security core does (spec/17_security.md): fuses, firmware images, the LMS state; and fog signals (spec/15 R741 to
R746), which LMS_WARN_LEVEL raises too.
-/
namespace Sys2Proof.Machine

/-! ## Fuses (R801, R803, R868) -/

/-- Bits `[lo, lo + w)` of the fuse array. -/
def State.fuse (s : State) (lo w : Nat) : Nat := s.fuses.toNat / 2 ^ lo % 2 ^ w

/-- Ones among the low bits of a number. -/
def countOnes (w x : Nat) : Nat := (List.range w).countP fun k => x / 2 ^ k % 2 == 1

/-- A fuse counter (R801). -/
def State.fuseCount (s : State) (lo w : Nat) : Nat := countOnes w (s.fuse lo w)

/-- Bits of a fuse counter blown, from its lowest, until it reaches a count. -/
def State.blowTo (s : State) (lo w n : Nat) : State :=
  (List.range w).foldl (fun s k =>
    if s.fuseCount lo w < n then { s with fuses := s.fuses ||| (1#4096 <<< (lo + k)) } else s) s

def State.svnFloor (s : State) : Nat := s.fuseCount 1796 64
def State.lmsFloor (s : State) : Nat := s.fuseCount 1860 32

/-- DEBUG_POLICY, 3 read as 0 (R801). -/
def State.debugPolicy (s : State) : Nat := s.fuse 1892 2 % 3

/-- The value of a hexadecimal digit in ASCII. -/
def hexDigit (c : Nat) : Nat := if c < 65 then c - 48 else c - 55

/-- R868: the number that SERIAL spells. -/
def State.serial (s : State) : Nat := (List.range 16).foldl (fun n k => n * 16 + hexDigit (s.fuse (2152 + 8 * k) 8) % 16) 0

/-! ## The part and its identity (R1, R2, R7, R8, R808 to R810) -/

/-- A text as bytes. -/
def asciiBytes (t : String) : List Byte := t.toList.map fun c => BitVec.ofNat 8 c.toNat

/-- The name of the part (R2, R747). -/
def orderName (o : OrderCode) : String :=
  match o with
  | .h384s19 => "ECR96-H384-S19"
  | .h288s19 => "ECR96-H288-S19"
  | .h384s17 => "ECR96-H384-S17"

/-- Whether the part is an engineering sample (R8, R801). -/
def State.engineering (s : State) : Bool := s.fuse 1894 1 == 1

/-- The ORDER_CODE string: the name, -L for the cold-plate lid, then -X for an engineering sample (R1, R7, R8). -/
def State.orderText (s : State) : List Byte :=
  asciiBytes (orderName s.order) ++ (if s.lid then asciiBytes "-L" else []) ++ (if s.engineering then asciiBytes "-X" else [])

/-- The serial number as its 16 fused characters (R801, R868). -/
def State.serialText (s : State) : List Byte := (List.range 16).map fun k => BitVec.ofNat 8 (s.fuse (2152 + 8 * k) 8)

/-- What the security core derives from UDS by HMAC-SHA-384 (R808, R811). -/
def State.derived (s : State) (what : Nat) : List Byte := Config.hmacSha384 (bytesOf (s.fuse 0 256) 32) (Config.keyLabel what)

/-- The ECDSA P-384 secret, the LMS tree's seed and its identifier (R808). -/
def State.ecdsaSecret (s : State) : List Byte := s.derived 0
def State.lmsSeed (s : State) : List Byte := s.derived 1
def State.lmsIdent (s : State) : List Byte := s.derived 2

/-- The device certificate (R8, R809). -/
def State.deviceCertificate (s : State) : List Byte :=
  Config.deviceCertificate (Config.ecdsaPublic s.ecdsaSecret) (Config.lmsPublic s.lmsSeed s.lmsIdent) s.serialText s.orderText s.engineering

/-- IDENTITY_CHAIN (R810): each certificate with its length before it; written where PROVISIONED is blown. -/
def State.identityChain (s : State) : List Byte :=
  if s.fuse 1895 1 = 1 then
    ([Config.rootCertificate, Config.intermediateCertificate, s.deviceCertificate].flatMap fun c => bytesOf c.length 4 ++ c).take 16384
  else []

/-! ## Firmware images (R790 to R794) -/

/-- What the checks of an image say: the cause of a refusal, 0 for none (R822), and which signatures failed. -/
structure ImageCheck where
  cause : Nat
  ecdsaFail : Bool := false
  lmsFail : Bool := false
  deriving DecidableEq, Repr

/-- Bytes of an image from an offset. -/
def fwBytes (rd : Nat → Byte) (off n : Nat) : List Byte := (List.range n).map fun k => rd (off + k)

def fwNum (rd : Nat → Byte) (off n : Nat) : Nat := natOfBytes (fwBytes rd off n)

def zeroBytes (bs : List Byte) : Bool := bs.all (· == 0#8)

/-- Whether a key slot's hash is that of public keys, and the slot not revoked (R793, R805). -/
def State.keyGood (s : State) (slot : Nat) (keys : List Byte) : Bool :=
  decide (slot < 4) && s.fuse (1792 + slot) 1 == 0 && (Config.sha384 keys).toNat == s.fuse (256 + 384 * slot) 384

/-- The checks of R793, in the order of its table. -/
def State.checkImage (s : State) (rd : Nat → Byte) (room : Nat) : ImageCheck :=
  let n := fwNum rd
  let len := n 16 4
  let format := n 0 4 == 0x45464F45 && n 4 2 == 1 && decide (n 6 2 < 2) && decide (len ≤ 33550336) && decide (4096 + len ≤ room) &&
    decide (n 20 4 < len) && zeroBytes (fwBytes rd 28 4) && zeroBytes (fwBytes rd 232 24) && zeroBytes (fwBytes rd 2124 1972)
  let msg := fwBytes rd 0 256
  let ecdsa := Config.ecdsaVerify (fwBytes rd 80 96) msg (fwBytes rd 256 96)
  let lms := Config.lmsVerify (fwBytes rd 176 56) msg (fwBytes rd 352 1772)
  if !format then { cause := 1 }
  else if !s.keyGood (n 24 4) (fwBytes rd 80 152) then { cause := 2 }
  else if n 8 4 < s.svnFloor then { cause := 3 }
  else if n 6 2 % 2 = 1 ∧ s.fuse 1894 1 = 0 then { cause := 4 }
  else if (Config.sha384 (fwBytes rd 4096 len)).toNat ≠ n 32 48 then { cause := 5 }
  else if ecdsa && lms then { cause := 0 }
  else { cause := 6, ecdsaFail := !ecdsa, lmsFail := !lms }

/-- R795: the cause of the last refusal, and LAST_FAIL. -/
def State.logVerify (s : State) (c : ImageCheck) (slot host : Bool) : State :=
  (s.wr .secVerifyLog 0 0
    (BitVec.ofNat 64 (c.cause + b2n slot * 2 ^ 3 + b2n host * 2 ^ 4 + b2n c.ecdsaFail * 2 ^ 5 + b2n c.lmsFail * 2 ^ 6))).setFld
    keepBootStatusLastFail 0 0 0xE0

/-! ## Slots of the package flash (R703, R796) -/

/-- A byte of a firmware slot; an erased byte reads 0xFF. -/
def Flash.slotByte (f : Flash) (slot : Bool) (k : Nat) : Byte := lookupD 0xFF#8 k (if slot then f.slotB else f.slotA)

def Flash.setSlot (f : Flash) (slot : Bool) (bs : Bytes) : Flash := if slot then { f with slotB := bs } else { f with slotA := bs }

def Flash.setSvn (f : Flash) (slot : Bool) (n : Nat) : Flash := if slot then { f with svnB := n } else { f with svnA := n }

def slotSize : Nat := 25165824

/-- The boot directory as it is read: one whose two copies both fail their CRC names both slots with SVN 0 (R796). -/
def Flash.directory (f : Flash) (bad : Bool) : Flash := if bad then { f with svnA := 0, svnB := 0, staged := none } else f

/-- The slots in the order that the boot ROM tries them (R796, R798). -/
def Flash.bootOrder (f : Flash) : List Bool :=
  match f.staged with
  | some b => [b, !b]
  | none => if f.svnA < f.svnB then [true, false] else [false, true]

/-! ## What the security state shows (R821, R822) -/

/-- SEC_STATE: debug unlocked, else engineering sample, else production. -/
def State.showSecState (s : State) (unlocked : Bool) : State :=
  let st := if unlocked then 2 else if s.fuse 1894 1 = 1 then 1 else 0
  (s.setFld secStatusState 0 0 st).dput dkSecState (st : Nat)

/-- Values of the rw and rw-locked entries of ranges 0x1000 and 0x6000, in index order (R806). -/
def State.coveredValues (s : State) : List Byte :=
  (dictRows.filter fun r => (r.access == 2 || r.access == 4) && (r.index / 4096 == 1 || r.index / 4096 == 6)).flatMap fun r =>
    (List.range r.count).flatMap fun i => (List.range (r.subHi + 1 - r.subLo)).flatMap fun j =>
      let v := s.dget (dictKey (r.index + i) (r.subLo + j))
      bytesOf (v % 2 ^ 64).toNat (match r.type with
        | 1 => 1
        | 2 => 2
        | 3 => 4
        | 4 => 8
        | 5 => 4
        | 6 => 4
        | _ => 1)

/-- R807: measurement block 5. -/
def State.measure5 (s : State) : State :=
  { s with security := { s.security with block5 := (Config.sha384 s.coveredValues).toNat } }

/-- The digest of a measurement block (R806). -/
def State.measurement (s : State) (block : Nat) : BitVec 384 :=
  match block with
  | 1 => Config.bootRomDigest
  | 2 => Config.sha384 s.security.header
  | 3 => BitVec.ofNat 384 s.security.payload
  | 4 => Config.sha384 (bytesOf (s.fuse 256 2024) 253)
  | 5 => BitVec.ofNat 384 s.security.block5
  | _ => Config.sha384 [BitVec.ofNat 8 (s.dnat dkSecState), BitVec.ofNat 8 (s.dnat dkDictLock), BitVec.ofNat 8 s.debugPolicy]

/-! ## The fog signal (R741 to R746) -/

/-- A fog body (R743). -/
def fogBody (origin kind cause mask beam : Nat) : List Byte :=
  bytesOf (origin % 4096) 2 ++ bytesOf kind 1 ++ bytesOf cause 1 ++ bytesOf mask 8 ++ bytesOf beam 8 ++ bytesOf 0 4

/-- A mooring frame sent, as its payload (R735); `mode` is DST_MODE. -/
def State.sendFrame (s : State) (ftype mode node pkg seq : Nat) (body : List Byte) : State :=
  let head := bytesOf (1 + ftype % 16 * 16) 1 ++ bytesOf (mode % 4 + node % 8 * 4 + s.dnat dkMooringNodeId % 8 * 32) 1 ++
    bytesOf (pkg % 4096) 2 ++ bytesOf (s.ownPkg % 4096) 2 ++ bytesOf seq 2 ++ bytesOf body.length 2 ++ bytesOf 0 2
  { s with mooring := { s.mooring with sent := s.mooring.sent ++ [head ++ body] } }

/-- A frame that is no response: it takes the node's next SEQ. -/
def State.sendNew (s : State) (ftype : Nat) (body : List Byte) : State :=
  let s' := s.sendFrame ftype 2 0 0 s.mooring.seq body
  { s' with mooring := { s'.mooring with seq := (s.mooring.seq + 1) % 65536 } }

/-- A fog repeated: on every UP link but the one it came on, and by a segment coordinator on its segment unless it came from there
(R744). -/
def State.repeatFog (s : State) (body : List Byte) (link : Option Nat) (segment : Bool) : State :=
  let s := (List.range 16).foldl (fun s l =>
    if s.linkState l = 5 ∧ some l ≠ link then s.sendControl l (0x11#8 :: body) else s) s
  if s.dnat dkMooringNodeId = 0 ∧ !segment then s.sendNew 3 body else s

/-- A fog that arrives, or that the package originates, is accepted and applied, or discarded (R743 to R745). -/
def State.takeFog (s : State) (body : List Byte) (link : Option Nat) (segment : Bool) : State :=
  let n := fun lo k => natOfBytes ((body.drop lo).take k)
  let origin := n 0 2 % 4096
  let kind := n 2 1
  let beam := n 12 8
  let fresh := match s.mooring.fogs.find? fun x => x.1 == origin with
    | some x => decide (x.2 < beam)
    | none => true
  if (kind ≠ 1 ∧ kind ≠ 2) ∨ !fresh then s
  else
    let s := { s with mooring := { s.mooring with fogs := (origin, beam) :: s.mooring.fogs.filter fun x => x.1 != origin } }
    let s := if kind = 2 then
        ((List.range 64).filter fun o => n 4 8 / 2 ^ o % 2 == 1).foldl State.abortOwnerRecs s.settleTable
      else s
    let s := ((s.raiseIrq 66).dputBytes dkFogLast (body.take 24)).dbump dkFogRxCnt
    s.repeatFog (body.take 24) link segment

/-- Whether the package may originate a fog (R741). -/
def State.mayFog (s : State) : Bool := decide (2 ≤ s.beamState)

/-- A fog originated (R741, R745): at once, or in the next phase unit where this one has had its fog. -/
def State.originate (s : State) (kind cause mask : Nat) : State :=
  if !s.mayFog then s
  else if s.mooring.fogBeam == some s.beamNow || s.mooring.fogDue != [] then
    { s with mooring := { s.mooring with fogDue := s.mooring.fogDue ++ [(kind, cause, mask)] } }
  else
    let s := ({ s with mooring := { s.mooring with fogBeam := some s.beamNow } }).dbump dkFogOriginCnt
    s.takeFog (fogBody s.ownPkg kind cause mask s.beamNow) none false

/-- The oldest fog that waits for a later phase unit (R741). -/
def State.fogTick (s : State) : State :=
  match s.mooring.fogDue with
  | [] => s
  | (k, c, m) :: rest =>
    if s.mooring.fogBeam == some s.beamNow then s
    else ({ s with mooring := { s.mooring with fogDue := [] } }.originate k c m) |> fun s =>
      { s with mooring := { s.mooring with fogDue := rest } }

/-! ## The LMS state (R811 to R816) -/

def lmsLimit : Nat := 33554432

/-- NEXT and RESERVED_END with what shows them; LMS_REMAINING at or below LMS_WARN_LEVEL raises a fog once per boot (R815, R816). -/
def State.showLms (s : State) (next reserved : Nat) : State :=
  let s := ((s.setFld secLmsStateNext 0 0 next).setFld secLmsStateReservedEnd 0 0 reserved).setFld secLmsStateFloor 0 0 s.lmsFloor
  let out := decide (lmsLimit ≤ next)
  let s := (s.setFld secStatusExhausted 0 0 (b2n out)).dput dkLmsExhausted ((b2n out : Nat) : Int)
  s.dput dkLmsRemaining ((lmsLimit - next : Nat) : Int)

def State.warnLms (s : State) : State :=
  if s.security.warned || decide (s.dnat dkLmsWarnLevel < s.dnat dkLmsRemaining) then s
  else ({ s with security := { s.security with warned := true } }).originate 1 0 0

/-- R813, R814: the LMS state at boot. -/
def State.bootLms (s : State) : State :=
  match s.flash.lms with
  | some (_, re) => (s.showLms re re)
  | none =>
    let c := s.lmsFloor
    if 32 ≤ c then s.showLms lmsLimit lmsLimit
    else
      let next := (c + 1) * 1048576
      (s.blowTo 1860 32 (c + 1)).showLms next next

/-- An index taken for a signature (R812, R814, R815); none from an exhausted device. -/
def State.takeIndex (s : State) : State × Option Nat :=
  let q := s.fld secLmsStateNext 0
  let re := s.fld secLmsStateReservedEnd 0
  if s.fld secStatusExhausted 0 = 1 ∨ lmsLimit ≤ q then (s, none)
  else
    let re' := if re ≤ q then re + 256 else re
    let s := if re ≤ q then { s with flash := { s.flash with lms := some (q, re') } } else s
    let s := s.blowTo 1860 32 (q / 1048576)
    ((s.showLms (q + 1) re').warnLms, some q)

end Sys2Proof.Machine
end

