-- ==== Sys2Proof/Machine/ResetOps.lean ====
section
/-!
DEFINITION. Resets (spec/16_power_measurement_reset.md R773 to R779, R786), boot stages (spec/14 R704), and what loads at the release:
the running image (spec/17 R789, R796), the persistent dictionary values (spec/15 R732) and shelf memory (spec/14 R699, R700).
-/
namespace Sys2Proof.Machine

/-! ## Stages (R704) -/

def State.stage (s : State) : Nat := s.fld keepBootStatusStage 0

/-- KEEP_BOOT_STATUS.STAGE and BOOT_STAGE; a change raises vector 67 (R694). -/
def State.setStage (s : State) (n : Nat) : State :=
  if s.stage = n then s else ((s.setFld keepBootStatusStage 0 0 n).dput dkBootStage (n : Nat)).raiseIrq 67

/-- LAST_FAIL and the failure stage. -/
def State.failStage (s : State) (n : Nat) : State := (s.setFld keepBootStatusLastFail 0 0 n).setStage n

/-! ## What the levels spare (R775) -/

/-- Whether the register of a key is one of a list. -/
def keyIn (rs : List Reg) (key : Nat) : Bool := rs.any fun r => r.ctorIdx == key / 1048576

def regsOfBlock (bs : List Block) : List Reg := allRegs.filter fun r => bs.contains (regInfo r).block

/-- Registers that a core reset keeps (R666, R775): host interface, security core, link layers, UCIe, and of the reset and power blocks
the causes, critical-state records and the mode in effect. -/
def coreKept : List Reg := regsOfBlock [.host, .sec, .link, .uci] ++ [.rstCause, .rstCritLog, .rstCritCnt, .pwrStatus]

/-- Registers of the critical-state copy (R661): route and group tables with their generations, translation roots, the place of the
characteristic table. -/
def copyRegs : List Reg := [.collRoute, .collGroupW0, .collGroupW1, .collGroupW2, .collGroupW3, .poolXlatRoot, .beamTable]

/-- Whether an address lies outside the package: shelf memory, or the host window. -/
def isExternal (pa : Nat) : Bool := decide (shelfBase ≤ pa)

def inHbmRange (pa : Nat) : Bool := decide (pa < 0x60_0000_0000)

/-- Dictionary entries that a core reset clears: those that show the beam, idle totals and trace losses. -/
def coreCleared (key : Nat) : Bool :=
  key == dkBeamState || key == dkBeamError || key == dkTraceLost || key / 256 == 0x7010

/-- The repairs applied at the last fuse sense and keeper start, which a core reset does not undo (R297, R303). -/
def State.keepRepairs (old s : State) : State :=
  let banks := (List.range 128).foldl (fun (s : State) k =>
    s.wr .galBankState (k / 64) (k % 64) (BitVec.ofNat 64 (bitsOf (old.rd .galBankState (k / 64) (k % 64)) 0 24))) s
  let keep (s : State) (k : Nat) : State := s.dput k (old.dget k)
  { (keep (keep (keep banks dkGallerySparesFreeMin) dkGalleryFramesRetired) dkPoolGalFrames) with
    sram := { spareOf := old.sram.spareOf, retired := old.sram.retired, retiredFrames := old.sram.retiredFrames,
              repairLog := old.sram.repairLog } }

/-! ## Repairs applied at a boot (R297, R298) -/

/-- The number of a bank's row, from the fields of a repair-log entry. -/
def repairKey (w : Nat) : Nat := (w % 2 * 64 + w / 2 % 64) * 3072 + w / 2 ^ 7 % 4096

/-- Whether a fused repair can be added to a mapping: a row of its bank that none repairs, and a spare of it that none uses. -/
def fusedFits (l : List (Nat × Nat)) (w : Nat) : Bool :=
  decide (w / 2 ^ 7 % 4096 < 3072) && l.all fun p => p.1 != repairKey w && !(p.1 / 3072 == repairKey w / 3072 && p.2 == w / 2 ^ 19 % 32 + 1)

/-- The row mapping that REPAIR_TRIM gives. -/
def fusedSpares (fuses : BitVec 4096) : List (Nat × Nat) :=
  (Config.fusedRepairs (fuses.extractLsb' 2304 1792)).foldl
    (fun l w => if fusedFits l w.toNat then putD 0 (repairKey w.toNat) (w.toNat / 2 ^ 19 % 32 + 1) l else l) []

/-- The spare rows of every bank shown. -/
def State.showBanks (s : State) : State := ((List.range 128).foldl (fun (s : State) k => s.showBank (k / 64) (k % 64)) s).showSpares

/-- The fused repairs applied at fuse sense: nothing of the log is. -/
def State.fuseRepairs (s : State) : State :=
  { s with sram := { s.sram with spareOf := fusedSpares s.fuses, retired := [] } }.showBanks

/-- Whether a repair-log entry is applied: its CRC holds and bits [31:25] are zero. -/
def repairGood (w : Word) : Bool := bitsOf w 25 7 == 0 && (crc32 (bytesOf (bitsOf w 0 32) 4)).toNat == bitsOf w 32 32

/-- A repair-log entry applied, or counted as bad on the die that its bit names (log entry 90). -/
def State.applyRepair (s : State) (w : Word) : State :=
  let die := bitsOf w 0 1
  if repairGood w then
    if bitOf w 24 then s.dropFrame die (bitsOf w 7 12) else s.mapRow die (bitsOf w 1 6) (bitsOf w 7 12) (bitsOf w 19 5)
  else s.bump .galRepairLogBadCnt die 0 1

/-- The repair log as the flash gives it back: `noise` is what storage has changed in it. -/
def noisyLog : List Word → List Word → List Word
  | w :: ws, x :: xs => (w ^^^ x) :: noisyLog ws xs
  | ws, _ => ws

/-- Keeper firmware applies the repair log over the fused repairs. -/
def State.logRepairs (s : State) (noise : List Word) : State :=
  let s := { s with sram := { s.sram with repairLog := noisyLog s.sram.repairLog noise, retiredFrames := [] } }
  let s := (List.range 128).foldl (fun (s : State) k => s.setFld galBankStateFramesRetired (k / 64) (k % 64) 0) s.fuseRepairs
  let s := (s.dput dkGalleryFramesRetired 0).dput dkPoolGalFrames 3072
  (s.sram.repairLog.foldl State.applyRepair s).showBanks

/-! ## The pool over a core reset (R389, R457) -/

/-- What a core reset leaves of the pool: the frame records, without window frames and the destinations of moves, and nothing under way. -/
def State.keptFrames (s : State) : List (Nat × FrameRec) :=
  (s.pool.frames.filter fun p => !p.2.window && !(s.pool.moves.any fun m => m.dst == p.1 && !m.writeBack)).map fun p =>
    (p.1, { p.2 with moving := false, prot := false })

/-- Every gallery frame becomes free: the page of a cached one maps to its lower copy, that of a resident one is not present (R457). -/
def State.dropGallery (s : State) : State :=
  let gone := s.pool.frames.filter fun p => s.frameTier p.1 == 0 && p.2.st != .free
  let s := gone.foldl (fun s p => match p.2.lower with
    | some low => s.switchPage p.2.owner p.2.vpage p.1 low
    | none => s.unmapPage p.2.owner p.2.vpage p.1) s
  let s := { s with pool := { s.pool with frames := s.pool.frames.filter fun p => s.frameTier p.1 != 0 } }
  (List.range 64).foldl (fun (s : State) o => s.showUse o) s

/-- The state that every reset of the package leaves: what lies outside it, the flash, fuses and pins. -/
def State.clearAll (s : State) : State :=
  { State.reset with
    pending := s.pending
    mem := s.mem.filter fun c => isExternal c.1
    poison := s.poison.filter fun k => isExternal (k * 32)
    fuses := s.fuses
    order := s.order
    lid := s.lid
    flash := s.flash
    free := s.free }

/-- RST_CAUSE of both dies and RESET_CAUSE (R786). -/
def State.setCause (s : State) (bits level : Nat) : State :=
  let w := BitVec.ofNat 64 (bits % 256 + level % 4 * 256)
  ((s.wr .rstCause 0 0 w).wr .rstCause 1 0 w).dput dkResetCause ((w.toNat : Nat) : Int)

/-- Every enabled link DOWN (R506, R775). -/
def State.linksDown (s : State) : State := (List.range 16).foldl (fun s l => s.setLinkState l 1) s

/-- A power-on or system reset (R775, R784). Harbour mode after a thermal trip lasts until a system reset that follows a write of
POWER_MODE (R771); a system reset spares an unlocked debug state. -/
def State.fullReset (s : State) (level : Nat) : State :=
  let t := { s.clearAll.linksDown with sram := { repairLog := s.sram.repairLog } }
  let r := s.resets
  let harbour := level == 1 && r.harbour && !r.rewritten
  let t := { t with resets := { porLow := r.porLow, perst := r.perst, railBad := r.railBad, thermal := level == 1 && r.thermal,
                                level := level, step := 1, harbour := harbour } }
  let t := t.dput dkThermalRestart ((b2n harbour : Nat) : Int)
  if level = 1 ∧ s.fld secStatusState 0 = 2 then t.showSecState true else t

/-- A core reset (R775, R784): HBM, the links, the host interface, the mooring MAC and the security core are spared; the critical state
is held in its copy until the compute dies are released (R661). -/
def State.coreReset (s : State) : State :=
  let t := s.keepRepairs s.clearAll
  let r := s.resets
  { t with
    mem := s.mem.filter fun c => isExternal c.1 || inHbmRange c.1
    hbmDelta := s.hbmDelta
    poison := s.poison.filter fun k => isExternal (k * 32)
    regs := t.regs.foldl (fun l c => insertAt c.1 c.2 l) (s.regs.filter fun c => keyIn coreKept c.1)
    dict := s.dict.filter fun c => !coreCleared c.1
    dictBytes := s.dictBytes
    fabric := { links := s.fabric.links }
    host := s.host
    mooring := { sent := s.mooring.sent, seq := s.mooring.seq, fogBeam := none }
    security := s.security
    keeper := { completion := s.keeper.completion, shelfTop := s.keeper.shelfTop }
    hbm := { temp := s.hbm.temp, fast := s.hbm.fast, sevBad := s.hbm.sevBad }
    pool := { frames := s.keptFrames }
    power := { slow := s.power.slow, mhz := s.power.mhz }
    resets := { porLow := r.porLow, perst := r.perst, railBad := r.railBad, thermal := r.thermal, level := 2, step := 4,
                critAges := r.critAges, fatal := r.fatal, harbour := r.harbour, rewritten := r.rewritten,
                copy := (s.setBoth beamTableLock 0).regs.filter fun c => keyIn copyRegs c.1 } }

/-- What holds the package in reset. -/
def State.heldInReset (s : State) : Bool := s.resets.porLow || s.resets.perst || s.resets.railBad != [] || s.resets.thermal

/-- Whether a reset is in progress: something holds it, or its release order has not released the compute dies; one whose boot has failed
has ended (R704, R777; log entry 51). -/
def State.resetInProgress (s : State) : Bool := s.heldInReset || (decide (s.resets.step < 9) && decide (s.stage < 0xE0))

/-- A reset takes place (R775, R786); CORE_VSEL is low during it (R852). -/
def State.doReset (s : State) (level bits : Nat) : State :=
  if level = 2 then
    let t := s.coreReset.setCause bits level
    let t := ((t.setBoth pwrStatusLevel 0).setBoth pwrStatusVsel 0).setBoth beamStatusState 0
    t.setStage (if t.fld keepBootStatusSource 0 = 1 then 2 else 3)
  else (s.fullReset level).setCause bits level

/-- A reset source asserts (R776, R777): during a reset only a deeper level restarts it; any other is recorded. -/
def State.resetSource (s : State) (level bits : Nat) : State :=
  if s.resetInProgress && decide (s.resets.level ≤ level) then s.setCause (s.fld rstCauseSources 0 ||| bits) s.resets.level
  else s.doReset level bits

def srcPor : Nat := 1
def srcSupply : Nat := 2
def srcPerst : Nat := 4
def srcMooring : Nat := 8
def srcWatchdog : Nat := 16
def srcThermal : Nat := 32
def srcCritical : Nat := 64
def srcSoftware : Nat := 128

/-! ## The running image (R789, R796) -/

/-- An image that verified runs: measured, loaded into keeper SRAM, its version shown. -/
def State.runImage (s : State) (rd : Nat → Byte) (slot : Bool) : State :=
  let n := fwNum rd
  let payload := fwBytes rd 4096 (n 16 4)
  let s := { s with
    security := { s.security with header := fwBytes rd 0 256, payload := n 32 48, warned := false }
    keeper := { s.keeper with sram := putRun 0#8 0 payload [] } }
  let s := ((s.setFld secStatusSvn 0 0 (n 8 4)).setFld secStatusKeySlot 0 0 (n 24 4)).setFld secStatusSlot 0 0 (b2n slot)
  let s := s.setFld keepBootStatusSlot 0 0 (b2n slot)
  ((s.dput dkFirmwareVersion ((n 12 4 : Nat) : Int)).dput dkFwSvn ((n 8 4 : Nat) : Int)).dput dkFwSvnFloor ((s.svnFloor : Nat) : Int)

/-- The first slot that verifies runs (R796); whether one did. A core reset tries no staged slot first (R798). -/
def State.bootSlots (s : State) : List Bool → State × Bool
  | [] => (s, false)
  | slot :: rest =>
    let rd := s.flash.slotByte slot
    let c := s.checkImage rd slotSize
    if c.cause = 0 then (s.runImage rd slot, true) else (s.logVerify c slot false).bootSlots rest

/-! ## Persistent dictionary values (R732) -/

/-- Whether an entry is persistent: rw and rw-locked entries but the owner entries. -/
def persistent (key : Nat) : Bool :=
  match dictFind (key / 256) (key % 256) with
  | some r => (r.access == 2 || r.access == 4) && !(decide (0xA100 ≤ key / 256) && decide (key / 256 ≤ 0xA13F))
  | none => false

/-- The newer copy whose CRC holds. -/
def Flash.newer (f : Flash) : Option DictCopy :=
  match f.copyA.crcGood, f.copyB.crcGood with
  | true, true => some (if f.copyA.generation < f.copyB.generation then f.copyB else f.copyA)
  | true, false => some f.copyA
  | false, true => some f.copyB
  | false, false => none

/-- The dictionary loaded at a power-on or system reset: from the newer copy, or defaults with DICT_STORE_STATUS 2. -/
def State.loadDict (s : State) : State :=
  match s.flash.newer with
  | some c => (c.values.foldl (fun s p => s.dput p.1 p.2) s).dput dkDictStoreStatus 1
  | none => s.dput dkDictStoreStatus 2

/-- DICT_STORE (R732): the persistent values that are not defaults, in the older copy. -/
def State.storeDict (s : State) : State :=
  let f := s.flash
  let g := max f.copyA.generation f.copyB.generation + 1
  let c : DictCopy := { generation := g, crcGood := true, values := s.dict.filter fun p => persistent p.1 }
  { s with flash := if f.copyA.generation ≤ f.copyB.generation then { f with copyA := c } else { f with copyB := c } }

/-! ## Shelf memory (R699, R700, R701) -/

/-- Units of 256 MiB below 0x0800_0000_0000. -/
def shelfRoom : Nat := 16384

/-- A capacity mapped above what is mapped: what does not fit is reported (R700). -/
def State.mapShelf (s : State) (units : Nat) : State :=
  let n := min units (shelfRoom - s.keeper.shelfTop)
  let s := { s with keeper := { s.keeper with shelfTop := s.keeper.shelfTop + n } }
  let s := s.dput dkPoolShelfFrames (s.dget dkPoolShelfFrames + ((n * 4096 : Nat) : Int))
  s.dput dkShelfUnmappedMib (s.dget dkShelfUnmappedMib + (((units - n) * 256 : Nat) : Int))

/-- The devices mapped in ascending port order, and those skipped counted (R699). Interleave sets of equal devices on distinct ports come
first; they hold the same memory as their devices mapped one by one (R700). -/
def State.discoverShelf (s : State) (ds : List ShelfDevice) : State :=
  let inPorts := (List.range 4).flatMap fun p => ds.filter fun d => d.port.val == p
  let s := (inPorts.filter (·.ready)).foldl (fun s d => s.mapShelf d.capacity.toNat) s
  s.dput dkShelfSkipped (min 255 (s.dget dkShelfSkipped + ((inPorts.countP fun d => !d.ready : Nat) : Int)))

end Sys2Proof.Machine
end

