-- ==== Sys2Proof/Machine/Resets.lean ====
section
/-!
DEFINITION. Reset sources, block resets and the release order (spec/16_power_measurement_reset.md R752 to R784; spec/13 R660 to R662;
spec/14 R696, R704 to R706).
-/
namespace Sys2Proof.Machine

/-! ## Reset sources (R776) -/

/-- POR_N (R776): low asserts a power-on reset and holds it; high starts the release order. -/
def porNEffect (low : Bool) (s : State) : State :=
  if low then
    let t := s.resetSource 0 srcPor
    { t with resets := { t.resets with porLow := true } }
  else if s.resets.porLow then { s with resets := { s.resets with porLow := false, step := 1 } }
  else s

def execPorN (low : Bool) (s : State) : Host.Outcome State Fault Refusal := .next (porNEffect low s)

/-- RAIL_OUT_OF_WINDOW (R754): 10 µs outside the window while POR_N is high. -/
def railOutOfWindowEffect (rail : Fin 13) (us : BitVec 32) (s : State) : State :=
  if us.toNat < 10 ∨ s.resets.porLow then s
  else
    let t := s.resetSource 0 srcSupply
    { t with resets := { t.resets with railBad := setInsert rail.val t.resets.railBad } }

def execRailOutOfWindow (rail : Fin 13) (us : BitVec 32) (s : State) : Host.Outcome State Fault Refusal :=
  .next (railOutOfWindowEffect rail us s)

/-- PERST (R696): assertion is a system reset; deassertion starts the release order again from fuse sense, once a power-on reset has the
supplies good (R783). -/
def perstEffect (asserted : Bool) (s : State) : State :=
  if asserted then
    let t := s.resetSource 1 srcPerst
    { t with resets := { t.resets with perst := true } }
  else if s.resets.perst then { s with resets := { s.resets with perst := false, step := if s.resets.level = 0 then min 2 s.resets.step else 2 } }
  else s

def execPerst (asserted : Bool) (s : State) : Host.Outcome State Fault Refusal := .next (perstEffect asserted s)

/-- TEMP_SAMPLE (R770): the limits applied; at a trip limit a system reset. -/
def tempSampleEffect (reading : TempReading) (s : State) : State :=
  let s := s.takeTemps reading
  if tripped reading then
    let t := s.resetSource 1 srcThermal
    { t with resets := { t.resets with thermal := true } }
  else s

def execTempSample (reading : TempReading) (s : State) : Host.Outcome State Fault Refusal := .next (tempSampleEffect reading s)

/-- THERMAL_RELEASE (R771): once every sensor reads 25 °C below the limits, the release begins, in Harbour mode. -/
def thermalReleaseEffect (reading : TempReading) (s : State) : State :=
  if s.resets.thermal && cooled reading then
    ({ s with resets := { s.resets with thermal := false, harbour := true, rewritten := false } }).dput dkThermalRestart 1
  else s

def execThermalRelease (reading : TempReading) (s : State) : Host.Outcome State Fault Refusal := .next (thermalReleaseEffect reading s)

/-- WATCHDOG_EXPIRY (R778): the first expiry interrupts keeper core 0; a second without a service resets the core level. -/
def watchdogExpiryEffect (serviced : Bool) (s : State) : State :=
  if s.resets.wdogOnce && !serviced then s.resetSource 2 srcWatchdog
  else { s with resets := { s.resets with wdogOnce := true } }

def execWatchdogExpiry (serviced : Bool) (s : State) : Host.Outcome State Fault Refusal := .next (watchdogExpiryEffect serviced s)

/-- RESET_REQUEST_DELAY_EXPIRY (R779). -/
def resetRequestDelayExpiryEffect (s : State) : State :=
  match s.resets.request with
  | none => s
  | some v => ({ s with resets := { s.resets with request := none } }).resetSource v srcSoftware

def execResetRequestDelayExpiry (s : State) : Host.Outcome State Fault Refusal := .next (resetRequestDelayExpiryEffect s)

/-- RST_CRIT_LOG of a die: the first error stays, a later one sets OVERFLOW (R666). -/
def State.logCritical (s : State) (die unit index : Nat) (double : Bool) : State :=
  if s.fld rstCritLogValid die = 1 then s.setFld rstCritLogOverflow die 0 1
  else s.wr .rstCritLog die 0
    (BitVec.ofNat 64 (unit % 8 + die % 2 * 2 ^ 3 + index % 4096 * 2 ^ 4 + b2n double * 2 ^ 16 + 2 ^ 63))

/-- CRITICAL_STATE_ERROR (R660, R662): logged and counted, and a core reset; a bad copy or too many such resets within 3,600 s are a fatal
state. -/
def criticalStateErrorEffect (die : Fin 2) (unit : BitVec 3) (index : BitVec 16) (double : Bool) (since : BitVec 32) (copyBad : Bool)
    (s : State) : State :=
  let s := (s.logCritical die.val unit.toNat index.toNat double).bump .rstCritCnt die.val 0 1
  let ages := ((s.resets.critAges.map (· + since.toNat)).filter fun a => decide (a ≤ 3600)) ++ [0]
  let fatal := s.resets.fatal || copyBad || decide (s.dnat dkCritResetLimit < ages.length)
  ({ s with resets := { s.resets with critAges := ages, fatal := fatal } }).resetSource 2 srcCritical

def execCriticalStateError (die : Fin 2) (unit : BitVec 3) (index : BitVec 16) (double : Bool) (since : BitVec 32) (copyBad : Bool)
    (s : State) : Host.Outcome State Fault Refusal :=
  .next (criticalStateErrorEffect die unit index double since copyBad s)

/-- FUNCTION_LEVEL_RESET (R696): the KEEP_ registers, the MSI-X table and the apertures are cleared, the host window disabled. The boot
status is the package's own. -/
def functionLevelResetEffect (s : State) : State :=
  let gone := (regsOfBlock [.host]).filter fun r => r != .keepBootStatus
  { s with regs := s.regs.filter fun c => !keyIn gone c.1, host := {} }

def execFunctionLevelReset (s : State) : Host.Outcome State Fault Refusal := .next (functionLevelResetEffect s)

/-! ## Block resets (R780 to R782) -/

/-- The clusters of a block. -/
def blockClusters (region : Bool) (n : Nat) : List Nat := if region then [3 * n, 3 * n + 1, 3 * n + 2] else [n]

def blockDie (region : Bool) (n : Nat) : Nat := if region then n / 4 else n / 12

/-- The idle request of a block (R780): from now on it is being reset; a self-test on a cluster of it ends, and whether it has found failing
bytes by then is free (R782, log entry 10). -/
def State.idleRequest (s : State) (region : Bool) (n : Nat) : State :=
  let die := blockDie region n
  let s := { s with resets := { s.resets with blocks := s.resets.blocks ++ [({ region := region, number := n } : BlockReset)] } }
  let s := s.setFld rstBlockStatusBusy die 0 1
  (blockClusters region n).foldl (fun s c =>
    match (s.arb die).acts.find? fun a => a.kind == 3 && a.scope == c % 12 && a.running with
    | some a => ({ s with free := s.free + 1 }).endAct die a.entry ((Config.freeWord s.free).getLsbD 0)
    | none => s) s

/-- A request for a block reset: ignored for a block, or a cluster of a region, that is being reset; a region that contains one waits
(R782). -/
def State.requestBlock (s : State) (region : Bool) (n : Nat) : State :=
  let die := blockDie region n
  let same := s.resets.blocks.any fun b => b.region == region && b.number == n
  let inRegion := !region && s.resets.blocks.any fun b => b.region && b.number == n / 3
  if same || inRegion || (region && s.resets.waiting.contains n) then s.bump .rstBlockIgnoredCnt die 0 1
  else if region && s.resets.blocks.any fun b => !b.region && b.number / 3 == n then
    { s with resets := { s.resets with waiting := s.resets.waiting ++ [n] } }
  else s.idleRequest region n

/-- A write of RST_BLOCK_CMD; larger numbers read as 23 or 7 (R786). -/
def State.blockCmd (s : State) (die : Nat) (value : Word) : State :=
  let s := s.storeReg .rstBlockCmd die 0 value
  if bitOf value 63 then
    let region := bitOf value 5
    s.requestBlock region (min (if region then 7 else 23) (bitsOf value 0 5))
  else s

/-- RST_BLOCK_CMD (R780). -/
def execRstBlockCmd (die : Fin 2) (value : Word) (s : State) : Host.Outcome State Fault Refusal := .next (s.blockCmd die.val value)

/-- Whether a cluster lies in a block. -/
def inBlock (region : Bool) (n c : Nat) : Bool := (blockClusters region n).contains c

/-- Whether a tile runs in a block: an engine's, or an item of a stage of its sequencers. -/
def State.blockBusy (s : State) (region : Bool) (n : Nat) : Bool :=
  (s.engines.any fun x => inBlock region n (engCluster x.1) && (x.2.tileOpen || x.2.flight != [])) ||
  (s.chains.any fun c => c.stages.any fun g =>
    g.busy && inBlock region n (if g.kind = 0 then engCluster (engIndex g.engine) else c.cluster))

/-- An engine cleared, its counters, logs and locked settings kept (R775). -/
def State.clearEngine (s : State) (e : Nat) : State :=
  let s := s.setEng e ({} : Engine)
  let s := s.wr .engArrayStatus e 0 0#64
  let s := (List.range 4).foldl (fun (s : State) t => s.wr .engTaskState e t 0#64) s
  { s with trace := eraseAt (engDie e * 256 + engPacked e % 128) s.trace }

/-- Step 3 (R780, R357): the chains of the block end with BLOCK_RESET; its engines and sequencers are cleared, its lens buffers and
cluster memories zeroed (R285). -/
def State.resetBlock (s : State) (region : Bool) (n : Nat) : State :=
  let mine := s.chains.filter fun c => c.completion != 2 && s.chainIn c (inBlock region n)
  let s := (mine.foldl (fun s c => s.closeChain c (c.aborting.getD stBlockReset) 0) s)
  let s := (mine.foldl (fun s c => match c.aborting with
    | some _ => s.abortSeq c.cluster c.launch
    | none => s.seqAfter c stBlockReset) s).grantContexts
  let hit := mine.map (·.launch)
  let s := { s with reruns := s.reruns.filter fun r => !hit.contains r.launch }
  (blockClusters region n).foldl (fun s c =>
    let s := (List.range 4).foldl (fun s k => s.clearEngine (4 * c + k)) s
    let s := (List.range (regInfo .cluSlotTokens).count).foldl (fun (s : State) k => s.wr .cluSlotTokens c k 0#64) s
    ({ s with trace := eraseAt (cluDie c * 256 + 0x80 + c % 12) s.trace }).clearCluster c) s

/-- BLOCK_RESET_EXECUTE (R780, R781): the block has drained, or BLOCK_RESET_TIMEOUT has passed. -/
def blockResetExecuteEffect (block : BlockId) (us : BitVec 32) (outstanding : BitVec 24) (s : State) : State :=
  let n := block.number.toNat
  let die := blockDie block.region n
  if !(s.resets.blocks.any fun b => b.region == block.region && b.number == n && !b.done) then s
  else
    let drained := !s.blockBusy block.region n && outstanding == 0#24
    if !drained && decide (us.toNat < s.dnat dkBlockResetTimeout) then s
    else
      let s := (s.setFld rstBlockStatusTimedOut die 0 (b2n !drained)).setFld rstBlockStatusOutstanding die 0 outstanding.toNat
      let s := if drained then s else s.bump .rstBlockTimeoutCnt die 0 1
      let s := s.resetBlock block.region n
      let mark (b : BlockReset) : BlockReset := if b.region == block.region && b.number == n then { b with done := true } else b
      { s with resets := { s.resets with blocks := s.resets.blocks.map mark } }

def execBlockResetExecute (block : BlockId) (us : BitVec 32) (outstanding : BitVec 24) (s : State) : Host.Outcome State Fault Refusal :=
  .next (blockResetExecuteEffect block us outstanding s)

/-- Regions whose request waited and that contain no cluster being reset any more (R782). -/
def State.startWaiting (s : State) : State :=
  match s.resets.waiting.find? fun n => !(s.resets.blocks.any fun b => !b.region && b.number / 3 == n) with
  | none => s
  | some n => ({ s with resets := { s.resets with waiting := s.resets.waiting.filter (· != n) } }).idleRequest true n

/-- BLOCK_RESET_RELEASE (R780): the block is available again. -/
def blockResetReleaseEffect (block : BlockId) (s : State) : State :=
  let n := block.number.toNat
  let die := blockDie block.region n
  match s.resets.blocks.find? fun b => b.region == block.region && b.number == n && b.done with
  | none => s
  | some b =>
    let rest := s.resets.blocks.filter fun x => !(x.region == block.region && x.number == n)
    let s := { s with resets := { s.resets with blocks := rest } }
    let s := (s.bump .rstBlockCnt die 0 1).setFld rstBlockStatusDuration die 0 (min 0xFFFFFFFF b.cycles)
    let busy := rest.any fun x => blockDie x.region x.number == die
    ((s.setFld rstBlockStatusBusy die 0 (b2n busy)).grantContexts).startWaiting

def execBlockResetRelease (block : BlockId) (s : State) : Host.Outcome State Fault Refusal := .next (blockResetReleaseEffect block s)

/-! ## The release order (R783, R784) -/

def State.setStep (s : State) (n : Nat) : State := { s with resets := { s.resets with step := n } }

/-- Step 2's senses: STRAP_ID (R773), the fused repairs (R297), the fuses' security state, and the LMS state (R813). -/
def State.sense (s : State) (i : ReleaseInput) : State :=
  let k := i.strap.toNat / 4
  let s := (s.dput dkStrapCode ((i.strap.toNat : Nat) : Int)).dput dkMooringNodeId ((k % 8 : Nat) : Int)
  let s := s.setFld keepBootStatusSource 0 0 (k / 8)
  let s := s.dput dkPcieLink ((i.pcieLink.toNat : Nat) : Int)
  let open_ := s.fld secStatusState 0 == 2 || s.debugPolicy == 2
  (s.fuseRepairs.showSecState open_).bootLms

/-- The step of firmware verification begins: the boot ROM reads a slot, or waits for the host (R704, R706). -/
def State.beginVerify (s : State) : State := (s.setStage (if s.fld keepBootStatusSource 0 = 1 then 2 else 3)).setStep 4

/-- The keeper cores start: the dictionary is loaded, except after a core reset (R731, R732), the shelf discovered (R699), and the repair log
applied (R297). -/
def State.beginKeeper (s : State) (i : ReleaseInput) : State :=
  let s := (s.setStage 4).setStep 5
  let s := if s.resets.level = 2 then s else s.loadDict.discoverShelf i.devices
  (s.logRepairs i.repairNoise).measure5

/-- Step 4 with the flash as source (R706, R796). -/
def State.verifyFlash (s : State) (i : ReleaseInput) : State :=
  let dir := s.flash.directory i.directoryBad
  let order := if s.resets.level = 2 then ({ dir with staged := none }).bootOrder else dir.bootOrder
  let (s, ok) := s.bootSlots order
  let s := if s.resets.level = 2 then s else { s with flash := { s.flash with staged := none } }
  if ok then s.beginKeeper i
  else
    let s := s.failStage 0xE0
    if i.pcieUp then s.setStage 2 else s

/-- A UCIe port trained, with the modules that fail retired (R672). -/
def State.trainUcie (s : State) (port modules failed : Nat) : State :=
  let bad := s.fld uciStatusRetired port ||| (failed % 2 ^ modules)
  let up := modules - countOnes modules bad
  ((s.setFld uciStatusRetired port 0 bad).setFld uciStatusModulesUp port 0 up).setFld uciStatusState port 0 (if up = 0 then 0 else 2)

/-- UCIe is up, or ends the boot; without both dies only Harbour mode can run (R672). HBM training begins in the mode of POWER_MODE, or
after a thermal trip in Harbour mode (R758, R771). -/
def State.beginHbm (s : State) (i : ReleaseInput) : State :=
  let s := (s.trainUcie 0 24 i.d2dFail.toNat).trainUcie 2 24 i.d2dFail.toNat
  let s := (s.trainUcie 1 2 i.keepFail0.toNat).trainUcie 3 2 i.keepFail1.toNat
  let s := s.dput dkUcieD2dModules ((s.fld uciStatusModulesUp 0 : Nat) : Int)
  if s.fld uciStatusModulesUp 1 = 0 then s.failStage 0xE2
  else
    let alone := s.fld uciStatusModulesUp 0 = 0 ∨ s.fld uciStatusModulesUp 3 = 0
    let mode := if s.resets.level = 2 then s.modeNow else if alone ∨ s.resets.harbour then 2 else min 2 (s.dnat dkPowerMode)
    let s := s.setMode mode (if s.resets.level = 2 then s.subModeNow else s.dnat dkSubMode)
    let s := s.setMhz (modeMhz s.order mode)
    let slow := if mode ≠ 2 ∧ s.subModeNow = 1 then [0, 1] else []
    ((({ s with power := { s.power with slow := slow } }).setStage 5)).setStep 6

/-- STACK_INFO of the stacks of the mode (R785), and each channel group's calibration temperature. -/
def State.showStacks (s : State) (i : ReleaseInput) : State :=
  (modeStacks s.modeNow).foldl (fun s k =>
    let v := 1 + stackHeight s.order * 2 + i.stackTemp.toNat * 256
    let s := s.dput (dkStackInfo k) ((v : Nat) : Int)
    let t := i.stackTemp.toNat
    let groups := (List.range 4).foldl (fun l g => putD 0 (k / 4 * 16 + k % 4 * 4 + g) (t + 1) l) s.hbm.calTemp
    { s with hbm := { s.hbm with temp := putD 0 k t s.hbm.temp, calTemp := groups } }) s

/-- The compute dies are released: after a core reset with the critical state of its copy (R661), and the gallery's frames free (R457). -/
def State.beginCompute (s : State) : State :=
  let regs := s.resets.copy.foldl (fun l p => insertAt p.1 p.2 l) s.regs
  let s := { s with regs := regs, resets := { s.resets with copy := [] } }
  ((if s.resets.level = 2 then s.dropGallery else s).setStage 7).setStep 8

/-- Links that the mode runs (R756). -/
def State.modeLink (s : State) (l : Nat) : Bool := s.modeNow != 2 || decide (l < 4)

/-- Fabric training begins with the enabled links of the mode DOWN, the others DISABLED. -/
def State.beginFabric (s : State) : State :=
  (((List.range 16).foldl (fun s l =>
    if s.dget (dkLinkEnable l) ≠ 0 ∧ s.modeLink l then (if s.linkState l = 0 then s.setLinkState l 1 else s)
    else s.setLinkState l 0) s).setStage 8).setStep 9

def State.beginBeam (s : State) : State := (s.setStage 9).setStep 10

/-- Whether every enabled link is UP or REFUSED (R705). -/
def State.fabricReady (s : State) : Bool :=
  (List.range 16).all fun l =>
    s.dget (dkLinkEnable l) == 0 || !s.modeLink l || s.linkState l == 5 || s.linkState l == 8

/-- RELEASE_STEP (R783, R784): the step in progress has met its gate and the next begins; a failure code is final (R704). -/
def releaseStepEffect (i : ReleaseInput) (s : State) : State :=
  let s := if i.railsGood then { s with resets := { s.resets with railBad := [] } } else s
  if s.heldInReset || decide (0xE0 ≤ s.stage) || (s.resets.step == 1 && !i.railsGood) then s
  else
    match s.resets.step with
    | 1 => s.setStep 2
    | 2 => if i.fuseFail then s else (s.sense i).setStep 3
    | 3 => s.beginVerify
    | 4 => if s.stage = 2 then s else s.verifyFlash i
    | 5 => s.beginHbm i
    | 6 =>
      if (modeStacks s.modeNow).any fun k => i.stackFail.getLsbD k then s.failStage 0xE1
      else if s.resets.level = 2 then (s.showStacks i).beginCompute
      else ((s.showStacks i).setStage 6).setStep 7
    | 7 => s.beginCompute
    | 8 =>
      let s := if s.dnat dkBeamRole = 1 then s.setRole true else s
      if s.resets.level = 2 then s.beginBeam else s.beginFabric
    | 9 => if s.fabricReady then s.beginBeam else s
    | 10 => if s.beamState = 2 ∨ s.beamState = 5 then (s.setStage 0xA).setStep 11 else s
    | _ => s

def execReleaseStep (input : ReleaseInput) (s : State) : Host.Outcome State Fault Refusal := .next (releaseStepEffect input s)

/-- FABRIC_TRAIN_TIMEOUT (R705): after 1 s the beam is waited for. -/
def fabricTrainTimeoutEffect (ms : BitVec 32) (s : State) : State :=
  if s.resets.step = 9 ∧ 1000 ≤ ms.toNat then s.beginBeam else s

def execFabricTrainTimeout (ms : BitVec 32) (s : State) : Host.Outcome State Fault Refusal := .next (fabricTrainTimeoutEffect ms s)

/-- The boot window's image is verified (R706): it runs, or the package waits for the host again with the failure noted. -/
def State.bootHost (s : State) : State :=
  let len := min 33554432 (s.fld keepBootCmdLen 0)
  let rd := fun k => if k < len then lookupD 0#8 k s.keeper.sram else 0#8
  let c := s.checkImage rd (min len 33554432)
  if c.cause = 0 then (s.runImage rd false).beginKeeper {}
  else (s.logVerify c false true).setStage 2

/-- A write of KEEP_BOOT_CMD; GO is ignored outside WAIT_HOST. -/
def State.bootCmd (s : State) (value : Word) : State :=
  let wait := s.stage == 2
  let s := s.storeReg .keepBootCmd 0 0 value
  if bitOf value 63 && wait then s.bootHost else s

/-- KEEP_BOOT_CMD (R706). -/
def execKeepBootCmd (value : Word) (s : State) : Host.Outcome State Fault Refusal := .next (s.bootCmd value)

/-! ## Output pins (R850 to R852) -/

/-- Whether a CXL_REFCLK output runs: from step 5 of the release order on; a core reset, which spares the CXL ports, leaves it running
(R850, log entry 95). -/
def State.cxlRefclk (s : State) (_port : Fin 4) : Bool := decide (5 ≤ s.resets.step) || s.resets.level == 2

/-- The level of THERMTRIP_N: low from a thermal trip until the package is released after it (R851). -/
def State.thermtripN (s : State) : Bool := !s.resets.thermal

/-- The level of a CORE_VSEL output (R755, R852). -/
def State.coreVsel (s : State) (die : Fin 2) : Bool := s.fld pwrStatusVsel die.val == 1

end Sys2Proof.Machine
end

