-- ==== Sys2Proof/Machine/RegWrite.lean ====
section
/-!
DEFINITION. Configuration space (spec/00 R22, R23, spec/06 R269, R270, and the register rules of every chapter): which register an
address names, what a read of it returns and what a write of it does.
-/
namespace Sys2Proof.Machine

/-! ## Where the registers lie -/

/-- The block kinds of the 64 KiB blocks of a die from offset 0x0100_0000 (R411, R463, R568, R629, R708, R786, R843), with their
unit. -/
def dieBlock (die k : Nat) : Option (Block × Nat) :=
  if k < 4 then some (.hbmc, die * 4 + k)
  else match k with
    | 6 => some (.uci, die * 2)
    | 7 => some (.uci, die * 2 + 1)
    | 8 => some (.arb, die)
    | 9 => some (.rst, die)
    | 10 => some (.pool, die)
    | 11 => some (.pwr, die)
    | 12 => some (.coll, die)
    | 13 => some (.ctr, die)
    | 14 => some (.beam, die)
    | _ => none

/-- The block and unit of a 64 KiB block of configuration space; engine blocks with cluster value 3 hold no register (R14, R270). -/
def blockAt (n : Nat) : Option (Block × Nat) :=
  if n < 0x80 then (if n / 4 % 4 = 3 then none else some (.eng, engIndex n))
  else if n < 0x98 then some (.clu, n - 0x80)
  else if n = 0xC0 ∨ n = 0xC1 then some (.gal, n - 0xC0)
  else if 0x100 ≤ n ∧ n < 0x120 then dieBlock ((n - 0x100) / 16) (n % 16)
  else if 0x200 ≤ n ∧ n < 0x210 then some (.link, n - 0x200)
  else if n = 0x210 ∨ n = 0x211 then some (.win, n - 0x210)
  else if n = 0x300 then some (.host, 0)
  else if n = 0x301 then some (.sec, 0)
  else none

/-- Whether a register of a block lies at an offset in it. -/
def regAt (b : Block) (off : Nat) (r : Reg) : Bool :=
  let i := regInfo r
  i.block == b && decide (i.offset ≤ off) && (off - i.offset) % i.stride == 0 && decide ((off - i.offset) / i.stride < i.count)

/-- The register, unit and index that an offset in configuration space names. -/
def regPlace (off : Nat) : Option (Reg × Nat × Nat) :=
  (blockAt (off / 65536)).bind fun (b, u) =>
    (allRegs.find? (regAt b (off % 65536))).map fun r => (r, u, (off % 65536 - (regInfo r).offset) / (regInfo r).stride)

/-! ## Reads -/

/-- A configuration read: WO bits return zero, an address of no register returns zero (R22, R270); BEAM_NOW is the beam itself. -/
def State.cfgRead (s : State) (off : Nat) : Word :=
  match regPlace off with
  | some (.beamNow, _, _) => BitVec.ofNat 64 s.beamNow
  | some (r, u, i) => s.rd r u i &&& ~~~(BitVec.ofNat 64 (regInfo r).wo)
  | none => 0#64

/-! ## Writes -/

/-- Whether the lock bit of a register's block is set (R22, R161). -/
def State.locked (s : State) (r : Reg) (u : Nat) : Bool :=
  match (regInfo r).block with
  | .eng => s.fld engArrayCfgLock u == 1
  | .gal => s.fld galCfgLock u == 1
  | .beam => s.fld beamTableLock u == 1
  | _ => false

/-- R22: the bits of a register after a write, by their types. -/
def State.wrTyped (s : State) (r : Reg) (u i : Nat) (v : Word) : State :=
  let x := regInfo r
  let m := BitVec.ofNat 64 (x.rw + if s.locked r u then 0 else x.rwl)
  let c := BitVec.ofNat 64 x.rw1c
  s.wr r u i (((s.rd r u i &&& ~~~m) ||| (v &&& m)) &&& ~~~(v &&& c))

def dieFin (n : Nat) : Fin 2 := if n = 0 then 0 else 1

/-- What four fields of FAB_VC_CREDITS are lowered to: VC2 first, then VC0, VC1, VC3, each to no less than 16, until they sum to 1,024
(R509). -/
def lowerCredits (a b c d : Nat) : Nat × Nat × Nat × Nat :=
  let up (n : Nat) : Nat := if n = 0 then 16 else n
  let low (n excess : Nat) : Nat := n - min excess (n - 16)
  let (a, b, c, d) := (up a, up b, up c, up d)
  let c := low c (a + b + c + d - 1024)
  let a := low a (a + b + c + d - 1024)
  let b := low b (a + b + c + d - 1024)
  (a, b, c, low d (a + b + c + d - 1024))

/-- FAB_VC_CREDITS of a link (R509). -/
def State.creditsWrite (s : State) (link : Nat) (v : Word) : State :=
  let (a, b, c, d) := lowerCredits (bitsOf v 0 10) (bitsOf v 16 10) (bitsOf v 32 10) (bitsOf v 48 10)
  s.wr .fabVcCredits link 0 (BitVec.ofNat 64 (a + b * 2 ^ 16 + c * 2 ^ 32 + d * 2 ^ 48))

/-- A write of a word of a window entry: ignored and counted unless the entry is CLOSED (R494). -/
def State.winEntryWrite (s : State) (r : Reg) (die entry : Nat) (v : Word) : State :=
  if s.winState die entry = 0 then s.wrTyped r die entry v else s.winIgnored die

/-- HBMC_MAINT_REQ by its KIND (R404): 3 a self-test, 5 a refresh-rate change, any other a calibration. -/
def State.maintWrite (s : State) (die : Nat) (v : Word) : State :=
  match bitsOf v 0 3 with
  | 3 => s.maintReq die v { entry := 0, kind := 3, scope := min 11 (bitsOf v 3 4) }
  | 5 => s.maintReq die v { entry := 0, kind := 5, scope := bitsOf v 3 2, fast := bitOf v 8 }
  | _ => s.maintReq die v { entry := 0, kind := 2, scope := bitsOf v 3 4, groups := [bitsOf v 3 4], force := bitOf v 7 }

/-- KEEP_SW_IRQ (R694, R708): vectors below 68 are read as 68. -/
def State.swIrq (s : State) (v : Word) : State := s.raiseIrq (max 68 (bitsOf v 0 11))

/-- POOL_XLAT_INV (R685, R686): GO starts an invalidation unless one is in progress. -/
def State.xlatInv (s : State) (die : Nat) (v : Word) : State :=
  let s := s.storeReg .poolXlatInv die 0 v
  if bitOf v 63 then s.setFld poolXlatInvStatusBusy die 0 1 else s

/-- CTR_TRACE_CFG and CTR_TRACE_BASE written as registers: at a change of the sink or of BASE the sources discard what they have staged
(R840). -/
def State.traceWrite (s : State) (r : Reg) (die : Nat) (v : Word) : State :=
  let t := s.wrTyped r die 0 v
  if t.sinkKind die ≠ s.sinkKind die ∨ t.rd .ctrTraceBase die ≠ s.rd .ctrTraceBase die then t.discardTraces die else t

/-- ENG_RAMP_PROF of an engine: LENGTH is stored as the nearest of 8 to 128, and the write counts as a clamp where it held another value
(spec/03_cube_array.md, ENG_RAMP_PROF); a write after LOCK has no effect and counts nothing (R161). -/
def State.rampProfWrite (s : State) (e i : Nat) (v : Word) : State :=
  if s.locked .engRampProf e then s
  else
    let n := bitsOf v 0 8
    let len := min 128 (max 8 n)
    (s.wrTyped .engRampProf e i (withBits v 0 8 len)).clamped (engCluster e) (b2n (n != len))

/-- A write of the register that an address names. Registers whose write is a command of its own act as that command; what R568 or R629
says applies to both dies does. -/
def State.regWrite (s : State) (r : Reg) (u i : Nat) (v : Word) : State :=
  match r with
  | .engRampProf => s.rampProfWrite u i v
  | .galRepairCmd => galRepairCmdEffect (dieFin u) v s
  | .hbmcScrubCmd => scrubStartEffect (dieFin u) v s
  | .hbmcMaintReq => s.maintWrite u v
  | .poolMoveCmd => s.writeMoveCmd u (moveOp v) v
  | .poolDmRestoreCmd => daymarkRestoreEffect (dieFin u) v s
  | .poolXlatInv => s.xlatInv u v
  | .fabVcCredits => s.creditsWrite u v
  | .winCmd => if bitOf v 9 then windowCloseEffect (dieFin u) v s else windowOpenEffect (dieFin u) v s
  | .winEntryW0 => s.winEntryWrite .winEntryW0 u i v
  | .winEntryW1 => s.winEntryWrite .winEntryW1 u i v
  | .winEntryW2 => s.winEntryWrite .winEntryW2 u i v
  | .winEntryW3 => s.winEntryWrite .winEntryW3 u i v
  | .collMemberGenSet => collMemberGenSetEffect (dieFin u) v s
  | .collNfSeen => (s.wrTyped .collNfSeen 0 0 v).wrTyped .collNfSeen 1 0 v
  | .collNfGate => (s.wrTyped .collNfGate 0 0 v).wrTyped .collNfGate 1 0 v
  | .collGroupW0 => groupEntryWriteEffect (dieFin u) (BitVec.ofNat 8 i) 0 v s
  | .collGroupW1 => groupEntryWriteEffect (dieFin u) (BitVec.ofNat 8 i) 1 v s
  | .collGroupW2 => groupEntryWriteEffect (dieFin u) (BitVec.ofNat 8 i) 2 v s
  | .beamTable => (s.wrTyped .beamTable 0 0 v).wrTyped .beamTable 1 0 v
  | .beamCringBase =>
    let s := (s.wrTyped .beamCringBase 0 i v).wrTyped .beamCringBase 1 i v
    s.drainCring i s.beam.doneWait.length
  | .beamCringIdx => cringRoomEffect (BitVec.ofNat 6 i) (BitVec.ofNat 32 (bitsOf v 32 32)) s
  | .beamTokenCmd => s.tokenCmd v
  | .beamAbortCmd => s.abortCmd u v
  | .rstBlockCmd => s.blockCmd u v
  | .keepBootCmd => s.bootCmd v
  | .keepSwIrq => s.swIrq v
  | .ctrTraceCfg => s.traceWrite .ctrTraceCfg u v
  | .ctrTraceBase => s.traceWrite .ctrTraceBase u v
  | r => s.wrTyped r u i v

/-- A write of configuration space; a write to an address of no register is ignored (R270). -/
def State.cfgWrite (s : State) (off : Nat) (v : Word) : State :=
  match regPlace off with
  | some (r, u, i) => s.regWrite r u i v
  | none => s

/-- REGISTER_WRITE (R22). -/
def execRegisterWrite (addr : BitVec 48) (value : Word) (s : State) : Host.Outcome State Fault Refusal :=
  .next (match s.phys addr.toNat with
    | .config off => s.cfgWrite off value
    | _ => s)

/-- POOL_XLAT_INV (R685). -/
def execPoolXlatInv (die : Fin 2) (value : Word) (s : State) : Host.Outcome State Fault Refusal := .next (s.xlatInv die.val value)

/-- XLAT_INV_DONE (R685). -/
def execXlatInvDone (die : Fin 2) (s : State) : Host.Outcome State Fault Refusal :=
  .next (s.setFld poolXlatInvStatusBusy die.val 0 0)

/-- KEEP_SW_IRQ (R694). -/
def execKeepSwIrq (value : Word) (s : State) : Host.Outcome State Fault Refusal := .next (s.swIrq value)

/-- IRQ_HOLDOFF_EXPIRY (R694): the holdoff of a vector ends; one message if it fired again in it. -/
def irqHoldoffExpiryEffect (vector : BitVec 11) (s : State) : State :=
  let v := vector.toNat
  let again := s.host.again.contains v
  let s := { s with host := { s.host with holdoff := setErase v s.host.holdoff, again := setErase v s.host.again } }
  if again then s.sendIrq v else s

def execIrqHoldoffExpiry (vector : BitVec 11) (s : State) : Host.Outcome State Fault Refusal :=
  .next (irqHoldoffExpiryEffect vector s)

end Sys2Proof.Machine
end

