-- ==== Sys2Proof/Machine/Recovery.lean ====
section
/-!
DEFINITION. Table updates and failover (spec/13_daymarks_and_recovery.md R653 to R657).
-/
namespace Sys2Proof.Machine

/-- A route entry of a die's table (R516). -/
def State.setRoute (s : State) (die pkg v : Nat) : State :=
  s.wr .collRoute die (pkg / 4) (withBits (s.rd .collRoute die (pkg / 4)) (pkg % 4 * 16) 9 v)

/-- One entry of a table update as the equivalent register write, and the clamps it made (R656, R657). -/
def State.applyEntry (s : State) (x : TableEntry) : State × Nat :=
  let die := bitsOf x.w0 4 1
  let g := bitsOf x.w0 5 8
  let index := bitsOf x.w0 13 12
  match bitsOf x.w0 0 4 with
  | 0 => (s.setRoute die index (bitsOf x.value 0 9), 0)
  | 1 => (s.groupWrite die g 1 x.value, 0)
  | 2 => (s.groupWrite die g 2 x.value, 0)
  | 3 => (collMemberGenSetEffect (dieFin die) (BitVec.ofNat 64 (g + bitsOf x.value 0 16 * 2 ^ 16 + 2 ^ 63)) s, 0)
  | 4 => (s.devWrite { unit := .keeper } (s.fld collGroupW2ListAddr die g / 4 * 4 + 4 * index) (bytesOf (bitsOf x.value 0 13) 4), 0)
  | 5 =>
    let s := s.groupWrite die g 0 x.value
    (s, b2n (s.groupOdd die g))
  | _ => (s, 0)

def State.applyEntries (s : State) : List TableEntry → Nat → State × Nat
  | [], n => (s, n)
  | x :: xs, n =>
    let (s, k) := s.applyEntry x
    s.applyEntries xs (n + k)

/-- The entries of a table update's bytes: N of them, those that the value holds whole. -/
def updateEntries (value : List Byte) : List TableEntry :=
  let n := min (natOfBytes ((value.drop 4).take 2)) ((value.length - 16) / 16)
  (List.range n).map fun k =>
    let w (o : Nat) : Word := BitVec.ofNat 64 (natOfBytes ((value.drop (16 + 16 * k + o)).take 8))
    { w0 := w 0, value := w 8 }

/-- R657: an update with a greater FAILOVER_SEQ applied; the clamps it made. -/
def State.applyUpdate (s : State) (value : List Byte) : State × Nat :=
  let seqNo := natOfBytes (value.take 4)
  if seqNo ≤ s.dnat dkFailoverSeq then (s, 0)
  else
    let (s, n) := s.applyEntries (updateEntries value) 0
    (s.dput dkFailoverSeq ((seqNo : Nat) : Int), n)

/-- The bytes of a table update. -/
def updateBytes (seqNo : Nat) (xs : List TableEntry) : List Byte :=
  bytesOf seqNo 4 ++ bytesOf xs.length 2 ++ bytesOf 0 10 ++ xs.flatMap fun x => bytesOf x.w0.toNat 8 ++ bytesOf x.value.toNat 8

/-- Step 3 of R653 for every package: the failed package's route entries with LINKS = 0 and VIA_PEER = 0. -/
def routeCut (pkg : Nat) : List TableEntry :=
  [0, 1].map fun die => { w0 := BitVec.ofNat 64 (die * 16 + pkg * 2 ^ 13), value := 0#64 }

/-- The first entry of SPARE_LIST that names a package that is ready (R653, step 2). -/
def State.chooseSpare (s : State) (ready : List Nat) : Option Nat :=
  ((List.range 64).map fun k => s.dnat (dkSpareList k)).find? fun p => ready.contains p

/-- R654: the value given for a group, or the next one up that no member of the group held (log entry 94). -/
def freshGen (held : List Nat) (v : Nat) : Nat :=
  (((List.range (held.length + 1)).map fun k => (v + k) % 65536).find? fun g => !held.contains g).getD v

def setsGen (x : TableEntry) (g : Nat) : Bool := bitsOf x.w0 0 4 == 3 && bitsOf x.w0 5 8 == g

/-- The MEMBER_GEN values of a group before a failover: those read from other members and this package's own. -/
def State.heldGens (s : State) (gens : List (BitVec 8 × BitVec 16)) (g : Nat) : List Nat :=
  ((gens.filter fun p => p.1.toNat == g).map fun p => p.2.toNat) ++
    ([0, 1].filter fun d => s.fld collGroupW0Valid d g == 1).map fun d => s.fld collGroupW0MemberGen d g

/-- The updates with one new value G for each rewritten group, at every member (R653 step 5, R654). -/
def State.withGens (s : State) (gens : List (BitVec 8 × BitVec 16)) (updates : List PackageUpdate) : List PackageUpdate :=
  let all := updates.flatMap PackageUpdate.entries
  let value (g : Nat) : Nat := freshGen (s.heldGens gens g) (((all.find? (setsGen · g)).map fun x => bitsOf x.value 0 16).getD 0)
  updates.map fun (u : PackageUpdate) => { u with entries := u.entries.map fun (x : TableEntry) =>
    let g := bitsOf x.w0 5 8
    (if setsGen x g then { x with value := BitVec.ofNat 64 (value g) } else x) }

/-- PACKAGE_FAILED (R653): the lead device increases FAILOVER_SEQ, aborts the records of the jobs that held the package by a fog, cuts the
package's routes, and with a spare chosen applies its own table updates and sends the others, with a MEMBER_GEN that no member held (R654). -/
def packageFailedEffect (pkg : BitVec 12) (ms : BitVec 32) (fatal : Bool) (owners : BitVec 64) (ready : List (BitVec 12))
    (plan : FailoverPlan) (s : State) : State :=
  if s.beamState ≠ 5 ∨ (ms.toNat < s.dnat dkFailoverDetect ∧ !fatal) then s
  else
    let seqNo := (s.dnat dkFailoverSeq + 1) % 2 ^ 32
    let s := (s.dput dkFailoverSeq ((seqNo : Nat) : Int)).originate 2 1 owners.toNat
    let cut := routeCut pkg.toNat
    let updates := s.withGens plan.gens plan.updates
    let s := (s.applyEntries cut 0).1
    match s.chooseSpare (ready.map BitVec.toNat) with
    | none => s
    | some _ =>
      let (mine, others) := updates.partition fun u => u.pkg.toNat == s.ownPkg
      let (s, n) := s.applyEntries (mine.flatMap PackageUpdate.entries) 0
      let s := s.dput dkClampCntLocal ((s.dget dkClampCntLocal + ((n : Nat) : Int)) % 2 ^ 64)
      { s with mooring := { s.mooring with
          updates := s.mooring.updates ++ others.map fun u => (u.pkg.toNat, updateBytes seqNo (cut ++ u.entries)) } }

def execPackageFailed (pkg : BitVec 12) (ms : BitVec 32) (fatal : Bool) (owners : BitVec 64) (ready : List (BitVec 12))
    (plan : FailoverPlan) (s : State) : Host.Outcome State Fault Refusal :=
  .next (packageFailedEffect pkg ms fatal owners ready plan s)

end Sys2Proof.Machine
end

