-- ==== Sys2Proof/Machine/Security.lean ====
section
/-!
DEFINITION. The security core's services (spec/17_security.md): firmware updates, debug unlock, SPDM.
-/
namespace Sys2Proof.Machine

/-! ## Firmware updates (R797, R798) -/

def State.setUpdate (s : State) (u : Option FwUpdate) : State := { s with security := { s.security with update := u } }

def State.setFlash (s : State) (f : Flash) : State := { s with flash := f }

def State.fwStatus (s : State) (n : Nat) : State := s.dput dkFwUpdateStatus ((n : Nat) : Int)

/-- A slot erased. -/
def Flash.erase (f : Flash) (slot : Bool) : Flash :=
  { (f.setSlot slot []).setSvn slot 0 with staged := if f.staged == some slot then none else f.staged }

/-- Image bytes written to a slot at an offset, as far as the slot goes. -/
def Flash.writeSlot (f : Flash) (slot : Bool) (off : Nat) (bs : List Byte) : Flash :=
  f.setSlot slot (putRun 0xFF#8 off (bs.take (slotSize - off)) (if slot then f.slotB else f.slotA))

/-- A chunk that continues an update: written, and with FINAL the slot awaits verification. -/
def State.takeChunk (s : State) (u : FwUpdate) (bs : List Byte) (final : Bool) : State :=
  let s := s.setFlash (s.flash.writeSlot u.slot u.next bs)
  (s.setUpdate (some { u with next := u.next + bs.length, verifying := final })).fwStatus (if final then 2 else 1)

/-- A chunk of FW_UPDATE, and the dictionary result: DR_BAD_OFFSET (6) where it does not continue the update in progress. -/
def State.fwChunk (s : State) (chunk : List Byte) : State × Nat :=
  let off := natOfBytes (chunk.take 4)
  let final := natOfBytes ((chunk.drop 4).take 1) % 2 == 1
  let bs := chunk.drop 8
  if off = 0 then
    let slot := s.fld secStatusSlot 0 == 0
    ((s.setFlash (s.flash.erase slot)).takeChunk { slot := slot, next := 0 } bs final, 0)
  else
    match s.security.update with
    | some u => if u.next = off ∧ !u.verifying then (s.takeChunk u bs final, 0) else (s.fwStatus 6, 6)
    | none => (s.fwStatus 6, 6)

/-- FW_UPDATE_STATUS of a verified slot: 3 staged, 5 for rollback or format, else 4. -/
def fwOutcome (cause : Nat) : Nat := if cause = 0 then 3 else if cause = 1 ∨ cause = 3 then 5 else 4

/-- FW_VERIFY_DONE (R798): an image that verifies is marked in the boot directory to be tried first, any other is erased. -/
def fwVerifyDoneEffect (s : State) : State :=
  match s.security.update with
  | none => s
  | some u =>
    if !u.verifying then s
    else
      let rd := s.flash.slotByte u.slot
      let c := s.checkImage rd slotSize
      let s := (s.setUpdate none).fwStatus (fwOutcome c.cause)
      if c.cause = 0 then s.setFlash { s.flash.setSvn u.slot (fwNum rd 8 4) with staged := some u.slot }
      else (s.setFlash (s.flash.erase u.slot)).logVerify c u.slot false

def execFwVerifyDone (s : State) : Host.Outcome State Fault Refusal := .next (fwVerifyDoneEffect s)

/-- SVN_COMMIT = true (R799). -/
def State.svnCommit (s : State) : State :=
  let s := s.blowTo 1796 64 (s.fld secStatusSvn 0)
  s.dput dkFwSvnFloor ((s.svnFloor : Nat) : Int)

/-! ## Debug unlock (R804, R805) -/

/-- A new challenge, which voids the previous one: a free value (log entry 10). -/
def State.drawChallenge (s : State) : State :=
  let n := (List.range 6).foldl (fun n k => n + (Config.freeWord (s.free + k)).toNat * 2 ^ (64 * k)) 0
  { s with free := s.free + 6, security := { s.security with challenge := some (BitVec.ofNat 384 n) } }

/-- Whether a DEBUG_UNLOCK value meets every condition of R805. -/
def State.unlockGood (s : State) (v : List Byte) : Bool :=
  let at_ (o n : Nat) : List Byte := (v.drop o).take n
  (match s.security.challenge with
   | some c => natOfBytes (at_ 0 48) == c.toNat
   | none => false) &&
  s.keyGood (natOfBytes (at_ 48 4)) (at_ 80 152) && zeroBytes (at_ 52 28) && zeroBytes (at_ 232 24) &&
  Config.ecdsaVerify (at_ 80 96) (at_ 0 256) (at_ 256 96) && Config.lmsVerify (at_ 176 56) (at_ 0 256) (at_ 352 1772)

/-- A write of DEBUG_UNLOCK: the challenge is voided; debug is unlocked where the policy asks for a signature and all conditions hold. -/
def State.debugUnlock (s : State) (v : List Byte) : State :=
  let good := s.debugPolicy == 1 && s.unlockGood v
  let s := { s with security := { s.security with challenge := none } }
  if good then s.showSecState true else s

/-! ## SPDM (R817 to R819) -/

/-- The session of an endpoint as the one used last; a fifth endpoint ends the session idle longest. -/
def openSession (sessions : List Nat) (e : Nat) : List Nat :=
  let rest := sessions.filter (· != e)
  (if 4 ≤ rest.length then rest.drop 1 else rest) ++ [e]

def useSession (sessions : List Nat) (e : Nat) : List Nat :=
  if sessions.contains e then sessions.filter (· != e) ++ [e] else sessions

/-- Whether an answer carries signatures (R818). -/
def needsSignature (c : SpdmCode) : Bool :=
  match c with
  | .challenge => true
  | .getMeasurements signed => signed
  | .keyExchange => true
  | _ => false

/-- Whether a request asks for measurements. -/
def asksMeasurements (c : SpdmCode) : Bool :=
  match c with
  | .getMeasurements _ => true
  | _ => false

/-- The six measurement blocks (R806). -/
def State.spdmMeasure (s : State) : State :=
  { s with security := { s.security with spdmBlocks := [1, 2, 3, 4, 5, 6].map s.measurement } }

def State.spdmAnswer (s : State) (err : Nat) : State := { s with security := { s.security with spdmError := err } }

/-- Both signatures over the transcript, made with a fresh LMS index; an exhausted device answers Unspecified (R815, R818). -/
def State.spdmSign (s : State) (transcript : List Byte) : State :=
  match s.takeIndex with
  | (s, none) => s.spdmAnswer 5
  | (s, some q) =>
    { s with
      free := s.free + 1
      security := { s.security with spdmError := 0, spdmIndex := q, spdmEcdsa := Config.ecdsaSign s.ecdsaSecret s.free transcript,
                                    spdmLms := Config.lmsSign s.lmsSeed s.lmsIdent q transcript } }

/-- What a request does to the sessions (R817). -/
def State.spdmSessions (s : State) (e : Nat) (c : SpdmCode) : State :=
  let old := s.security.sessions
  let new := match c with
    | .keyExchange => if s.security.spdmError = 0 then openSession old e else old
    | .endSession => old.filter (· != e)
    | _ => useSession old e
  { s with security := { s.security with sessions := new } }

/-- SPDM_REQUEST (R817 to R819): before the keeper cores run only GET_VERSION and GET_CAPABILITIES are answered. -/
def spdmRequestEffect (endpoint : BitVec 32) (code : SpdmCode) (transcript : List Byte) (s : State) : State :=
  if s.resets.step < 5 ∧ code ≠ .getVersion ∧ code ≠ .getCapabilities then s.spdmAnswer 0x42
  else
    let s := if needsSignature code then s.spdmSign transcript else s.spdmAnswer 0
    let s := if asksMeasurements code && s.security.spdmError == 0 then s.spdmMeasure else s
    s.spdmSessions endpoint.toNat code

def execSpdmRequest (endpoint : BitVec 32) (code : SpdmCode) (transcript : List Byte) (s : State) :
    Host.Outcome State Fault Refusal :=
  .next (spdmRequestEffect endpoint code transcript s)

end Sys2Proof.Machine
end

