-- ==== Sys2Proof/Machine/Dict.lean ====
section
/-!
DEFINITION. The dictionary server (spec/15_object_dictionary.md R709 to R732, R866) and the host's response ring that carries its in-band
answers (spec/14 R695).
-/
namespace Sys2Proof.Machine

/-! ## Entries (R709, R710) -/

/-- The highest subindex in use at an index, 0 where the index holds no entries. -/
def highestSub (idx : Nat) : Nat :=
  dictRows.foldl (fun m r => if r.index ≤ idx ∧ idx < r.index + r.count then max m r.subHi else m) 0

/-- The entry of an index and subindex; subindex 0 is a U8 const entry (R709). -/
def entryAt (idx sub : Nat) : Option DictRow :=
  if sub = 0 then
    let m := highestSub idx
    if m = 0 then none else some ⟨idx, 1, 0, 0, "", 1, 0, (m : Int), 0, 255, none, ""⟩
  else dictFind idx sub

/-- The size of a numeric type. -/
def typeSize (type : Nat) : Nat :=
  match type with
  | 1 => 1
  | 2 => 2
  | 3 => 4
  | 4 => 8
  | 5 => 4
  | 6 => 4
  | 7 => 1
  | 8 => 1
  | _ => 0

def isDomain (r : DictRow) : Bool := r.type == 10

/-- A number as value bytes, and back. -/
def packValue (type : Nat) (v : Int) : List Byte := bytesOf (v % 2 ^ 64).toNat (typeSize type)

def unpackValue (type : Nat) (bs : List Byte) : Int :=
  let n := natOfBytes bs
  if type = 5 ∧ 2 ^ 31 ≤ n then (n : Int) - 2 ^ 32 else n

/-- A byte string padded with a fill byte, or cut, to a length. -/
def padTo (n : Nat) (fill : Byte) (bs : List Byte) : List Byte := bs.take n ++ List.replicate (n - bs.length) fill

/-! ## What reads return -/

/-- HBM frames of the dies that the mode runs (R412, R761). -/
def State.hbmFrames (s : State) : Nat := (if s.harbour then 1 else 2) * (hbmPerDie s.order s.harbour / 65536)

/-- A register of both dies summed, modulo 2^64. -/
def State.sumDies (s : State) (r : Reg) (i : Nat) : Int := ((s.rd r 0 i + s.rd r 1 i).toNat : Nat)

/-- The number that a numeric entry holds. -/
def State.numValue (s : State) (idx sub : Nat) (r : DictRow) : Int :=
  let key := dictKey idx sub
  if sub = 0 then r.dflt
  else if key = dkTraceLost then s.sumDies .ctrTraceLostCnt 0
  else if key = dkBusyTotal then s.sumDies .ctrBusySum 0
  else if idx = 0x7010 then s.sumDies .ctrIdleSum (sub - 2)
  else if key = dkPoolHbmFrames then ((s.hbmFrames : Nat) : Int)
  else if key = dkGallerySparesFreeMin then s.showSpares.dget key
  else s.dget key

/-- The bytes of a STRING or DOMAIN entry. -/
def State.byteValue (s : State) (key : Nat) : List Byte :=
  if key = dkVendorName then asciiBytes "Fenrubry"
  else if key = dkOrderCode then s.orderText
  else if key = dkSerialNumber then (List.range 16).map fun k => BitVec.ofNat 8 (s.fuse (2152 + 8 * k) 8)
  else if key = dkMooringPeers then padTo 128 0#8 (s.dbytes key)
  else if key = dkFogLast then padTo 24 0#8 (s.dbytes key)
  else if key = dkThermalMap then padTo 256 0#8 (s.dbytes key)
  else if key = dkDebugChallenge then
    match s.security.challenge with
    | some c => bytesOf c.toNat 48
    | none => []
  else if key = dkIdentityChain then s.identityChain
  else s.dbytes key

/-! ## Clamping (R422, R714, R715) -/

/-- The nearest legal value of an entry, the lower of two equally near. -/
def clampRow (r : DictRow) (v : Int) : Int :=
  if r.type = 7 then (if v = 0 ∨ v = 1 then v else 1)
  else if r.type = 8 then (if r.lo ≤ v ∧ v ≤ r.hi then v else r.dflt)
  else
    match r.extra with
    | some x => if v = x then v else if r.hi < v ∧ x - v < v - r.hi then x else max r.lo (min r.hi v)
    | none => max r.lo (min r.hi v)

/-- Capacity of a tier in whole MiB (R422, R462). -/
def State.tierMib (s : State) (tier : Nat) : Nat :=
  (if tier = 0 then s.dnat dkPoolGalFrames else if tier = 1 then s.hbmFrames else s.dnat dkPoolShelfFrames) / 16

/-- The floors of the owners other than one, in MiB; `sub` is the floor's subindex. -/
def State.otherFloors (s : State) (owner sub : Nat) : Nat :=
  (List.range 64).foldl (fun n o => if o = owner then n else n + s.dnat (dictKey (0xA100 + o) sub)) 0

/-- A floor or ceiling of an owner as R422 and R462 limit it. -/
def State.clampLimit (s : State) (idx sub : Nat) (v : Int) : Int :=
  let owner := idx - 0xA100
  let get (k : Nat) : Int := s.dget (dictKey idx k)
  let floor (tier ceil : Nat) : Int :=
    max 0 (min (min v (get ceil)) ((s.tierMib tier - s.otherFloors owner sub : Nat) : Int))
  let ceil (tier : Nat) (low : Int) : Int := max low (min v ((s.tierMib tier : Nat) : Int))
  match sub with
  | 1 => floor 0 2
  | 2 => max (get 1) v
  | 3 => floor 1 4
  | 4 => ceil 1 (get 3)
  | 5 => ceil 2 0
  | _ => v

def isOwnerIndex (idx : Nat) : Bool := decide (0xA100 ≤ idx) && decide (idx ≤ 0xA13F)

/-- The value as applied. -/
def State.applied (s : State) (idx sub : Nat) (r : DictRow) (v : Int) : Int :=
  let c := clampRow r v
  if isOwnerIndex idx then s.clampLimit idx sub c else c

/-- The clamp counter of a transport (R716). -/
def clampKey (t : Transport) : Nat :=
  match t with
  | .mooring => dkClampCntMooring
  | .mctp => dkClampCntMctp
  | .inBand => dkClampCntHost
  | .keeper => dkClampCntLocal

def State.countClamps (s : State) (t : Transport) (n : Nat) : State :=
  s.dput (clampKey t) ((s.dget (clampKey t) + ((n : Nat) : Int)) % 2 ^ 64)

/-! ## What a write does (R713) -/

/-- A value that takes effect at a later boundary (R572, R840). -/
def State.addDue (s : State) (key : Nat) (v : Int) : State :=
  { s with mooring := { s.mooring with due := s.mooring.due ++ [(key, v)] } }

/-- The effect of a numeric write beyond the entry's value; `devices` are those that a shelf rescan finds. -/
def State.wrote (s : State) (idx sub : Nat) (v : Int) (devices : List ShelfDevice) : State :=
  let key := dictKey idx sub
  if key = dkDictStore then (if v = 1 then s.storeDict else s)
  else if key = dkResetRequest then (if v = 0 then s else { s with resets := { s.resets with request := some v.toNat } })
  else if key = dkPowerMode then ({ s with resets := { s.resets with rewritten := true } }).modeWritten
  else if key = dkSubMode then s.modeWritten
  else if key = dkShelfRescan then (if v = 1 then (s.discoverShelf devices).retryWaiting else s)
  else if key = dkSvnCommit then (if v = 1 then s.svnCommit else s)
  else if key = dkBeamRole then s.setRole (v == 1)
  else if key = dkBeamPeriod then s.addDue key v
  else if key = dkSnapEnable then s.setBoth ctrTraceCfgSnapEn v.toNat
  else if idx = 0x7000 then s.addDue key v
  else if decide (0x5100 ≤ idx) && decide (idx < 0x5110) && sub == 1 then linkEnableEffect (Fin.ofNat 16 (idx - 0x5100)) (v == 1) s
  else if isOwnerIndex idx then s.retryWaiting
  else s

/-- A whole DOMAIN value applied; the dictionary result. -/
def State.wroteBytes (s : State) (t : Transport) (key : Nat) (bs : List Byte) : State × Nat :=
  if key = dkFogSend then
    let n (o k : Nat) : Nat := natOfBytes ((bs.drop o).take k)
    (s.originate (n 0 1) (n 1 1) (n 8 8), 0)
  else if key = dkTableUpdate then
    let (s, n) := s.applyUpdate bs
    (s.countClamps t n, 0)
  else if key = dkFwUpdate then s.fwChunk bs
  else if key = dkDebugUnlock then (s.debugUnlock bs, 0)
  else (s.dputBytes key bs, 0)

/-! ## Requests (R718, R866) -/

/-- A request: OP, LAST, INDEX, SUB, OFFSET and the value bytes. -/
structure Pdu where
  op : Nat
  last : Bool := true
  index : Nat
  sub : Nat
  offset : Nat := 0
  value : List Byte := []
  deriving DecidableEq, Repr

/-- A response's RESULT, value bytes and LAST. -/
structure Reply where
  result : Nat
  value : List Byte := []
  last : Bool := true
  deriving DecidableEq, Repr

/-- The PDU of a response (R718). -/
def replyBytes (p : Pdu) (r : Reply) : List Byte :=
  bytesOf (p.op % 16 + b2n r.last * 16) 1 ++ bytesOf p.index 2 ++ bytesOf p.sub 1 ++ bytesOf p.offset 2 ++
    bytesOf r.value.length 1 ++ bytesOf r.result 1 ++ r.value

/-- Whether the keeper cores are stopped, so that requests go unanswered (R731). -/
def State.serverOff (s : State) : Bool := s.heldInReset || (s.resets.level == 2 && decide (s.resets.step < 5))

/-- Whether the server runs the range of a request: before the keeper cores the boot ROM serves READ and DESCRIBE in 0x1000 to 0x10FF
(R730). -/
def State.served (s : State) (p : Pdu) : Bool :=
  decide (5 ≤ s.resets.step) || (p.op != 1 && decide (0x1000 ≤ p.index) && decide (p.index ≤ 0x10FF))

/-- Whether an entry takes a write on a transport and in this state (R728, R741, R820). -/
def State.accepts (s : State) (src : DictSource) (key : Nat) : Bool :=
  let range := decide (0x6000 ≤ key / 256) && decide (key / 256 < 0x7000)
  let secure := match src.transport with
    | .mooring => false
    | .mctp => src.secured && s.security.sessions.contains src.id.toNat
    | _ => true
  (!range || secure) && (key != dkFogSend || s.mayFog)

/-- The checks of R866 before those of the value: 0 where none fails. -/
def State.precheck (s : State) (src : DictSource) (p : Pdu) (r : DictRow) : Nat :=
  let key := dictKey p.index p.sub
  let locked := s.dget dkDictLock != 0
  if p.op = 2 then 0
  else if p.op = 0 then (if r.access = 3 then 3 else 0)
  else if r.access < 2 then 2
  else if !s.accepts src key then 9
  else if locked && (r.access == 4 || (key == dkDictLock && natOfBytes p.value == 0)) then 4
  else 0

/-! ## Segments (R721) -/

/-- The assembly buffer of a source for an entry. -/
def State.buffer (s : State) (src : DictSource) (key : Nat) (write : Bool) : Option Assembly :=
  s.mooring.buffers.find? fun b => b.transport == src.transport && b.id == src.id.toNat && b.key == key && b.write == write

def State.setBuffer (s : State) (src : DictSource) (key : Nat) (write : Bool) (b : Option Assembly) : State :=
  let rest := s.mooring.buffers.filter fun b =>
    !(b.transport == src.transport && b.id == src.id.toNat && b.key == key && b.write == write)
  { s with mooring := { s.mooring with buffers := rest ++ b.toList } }

/-- A whole DOMAIN value: its size checked, then applied. -/
def State.writeDomain (s : State) (src : DictSource) (r : DictRow) (key : Nat) (bs : List Byte) : State × Reply :=
  if (bs.length : Int) < r.lo ∨ r.hi < bs.length then (s, { result := 5 })
  else
    let (s, k) := s.wroteBytes src.transport key bs
    (s, { result := k })

/-- A segment of a DOMAIN write: one that does not continue its buffer is refused and the buffer discarded. -/
def State.writeSegment (s : State) (src : DictSource) (p : Pdu) (r : DictRow) (key : Nat) : State × Reply :=
  let old := if p.offset = 0 then some [] else (s.buffer src key true).map Assembly.bytes
  match old with
  | none => (s.setBuffer src key true none, { result := 6, last := p.last })
  | some bs =>
    let all := bs ++ p.value
    if p.offset ≠ bs.length ∨ r.hi < all.length then (s.setBuffer src key true none, { result := 6, last := p.last })
    else if p.last then (s.setBuffer src key true none).writeDomain src r key all
    else
      let b : Assembly := { transport := src.transport, id := src.id.toNat, key := key, write := true, bytes := all, next := all.length }
      (s.setBuffer src key true (some b), { result := 0, last := false })

/-- A segment of a DOMAIN read: a value that changed since its first segment ends the read. -/
def State.readSegment (s : State) (src : DictSource) (p : Pdu) (key : Nat) : State × Reply :=
  let s := if key = dkDebugChallenge ∧ p.offset = 0 then s.drawChallenge else s
  let now := s.byteValue key
  let good := decide (p.offset = 0) || (match s.buffer src key false with
    | some b => b.next == p.offset && b.bytes == now
    | none => false)
  if !good then (s.setBuffer src key false none, { result := 6, last := p.last })
  else
    let seg := (now.drop p.offset).take 48
    let next := p.offset + seg.length
    let ends := decide (now.length ≤ next)
    let b : Assembly := { transport := src.transport, id := src.id.toNat, key := key, write := false, bytes := now, next := next }
    (s.setBuffer src key false (if ends then none else some b), { result := 0, value := seg, last := ends })

/-! ## Reading, writing, describing -/

/-- Entries whose writes take effect later (R508, R572, R748, R758, R840). -/
def takesLater (idx sub : Nat) : Bool :=
  let key := dictKey idx sub
  (decide (0x5100 ≤ idx) && decide (idx < 0x5110) && (sub == 2 || sub == 3)) || key == dkBeamPeriod || key == dkPowerMode ||
  key == dkSubMode || key == dkPlcaNodeCount || key == dkPlcaToTimer || key == dkPlcaMaxBurst ||
  (idx == 0x7000 && decide (1 ≤ sub) && decide (sub ≤ 5))

/-- The 48 bytes of DESCRIBE (R722). -/
def describeBytes (idx sub : Nat) (r : DictRow) : List Byte :=
  let num (v : Int) : List Byte := bytesOf (v % 2 ^ 64).toNat 8
  bytesOf r.type 1 ++ bytesOf r.access 1 ++ bytesOf (b2n (persistent (dictKey idx sub)) + 2 * b2n (takesLater idx sub)) 1 ++ bytesOf 0 1 ++
    padTo 4 0x20#8 (asciiBytes r.unit) ++ num r.dflt ++ num r.lo ++ num r.hi ++ padTo 16 0#8 (asciiBytes r.name)

def State.readEntry (s : State) (src : DictSource) (p : Pdu) (r : DictRow) : State × Reply :=
  let key := dictKey p.index p.sub
  if isDomain r then s.readSegment src p key
  else if r.type = 9 then (s, { result := 0, value := s.byteValue key })
  else (s, { result := 0, value := packValue r.type (s.numValue p.index p.sub r) })

/-- Whether measurement block 5 covers an entry (R806). -/
def isMeasured (idx : Nat) (r : DictRow) : Bool := (r.access == 2 || r.access == 4) && (idx / 4096 == 1 || idx / 4096 == 6)

/-- A numeric write: clamped, kept where the entry can be read, with its effect; the value as applied is answered (R719). -/
def State.writeNumber (s : State) (src : DictSource) (p : Pdu) (r : DictRow) (devices : List ShelfDevice) : State × Reply :=
  let raw := unpackValue r.type p.value
  let v := s.applied p.index p.sub r raw
  let s := if v = raw then s else s.countClamps src.transport 1
  let s := if r.access = 3 then s else s.dput (dictKey p.index p.sub) v
  let s := s.wrote p.index p.sub v devices
  let s := if isMeasured p.index r then s.measure5 else s
  (s, { result := 0, value := packValue r.type v, last := p.last })

/-- The server on a request (R866); `whole` says that the value of a DOMAIN is there complete. -/
def State.serve (s : State) (src : DictSource) (p : Pdu) (devices : List ShelfDevice) (whole : Bool) : State × Reply :=
  if 2 < p.op then (s, { result := 8, last := p.last })
  else if !s.served p then (s, { result := 7, last := p.last })
  else
    match entryAt p.index p.sub with
    | none => (s, { result := 1, last := p.last })
    | some r =>
      let k := s.precheck src p r
      if k ≠ 0 then (s, { result := k, last := p.last })
      else if p.op = 2 then (s, { result := 0, value := describeBytes p.index p.sub r })
      else if p.op = 0 then s.readEntry src p r
      else if isDomain r then
        (if whole then s.writeDomain src r (dictKey p.index p.sub) p.value else s.writeSegment src p r (dictKey p.index p.sub))
      else if p.value.length ≠ typeSize r.type then (s, { result := 5, last := p.last })
      else s.writeNumber src p r devices

/-! ## The host's response ring (R694, R695) -/

def State.hrspSize (s : State) : Nat := if s.fld keepHrspBaseSizeLog2 0 = 0 then 0 else 2 ^ min 16 (s.fld keepHrspBaseSizeLog2 0)

def State.hrspRoom (s : State) : Bool :=
  decide ((s.fld keepHrspIdxProd 0 + 2 ^ 32 - s.fld keepHrspIdxCons 0) % 2 ^ 32 < s.hrspSize)

/-- A 64-byte entry put in the response ring: PROD advances with its message, unless the write to the host window fails. -/
def State.hrspPut (s : State) (bytes : List Byte) : State :=
  if !s.hrspRoom then s
  else
    let prod := s.fld keepHrspIdxProd 0
    let pa := s.fld keepHrspBaseBase 0 * 64 + 64 * (prod % s.hrspSize)
    let t := s.devWrite { unit := .keeper } pa (padTo 64 0#8 bytes)
    if s.hostFails pa then t else (t.setFld keepHrspIdxProd 0 0 (prod + 1)).raiseIrq 0

/-! ## Answers (R725, R726) -/

/-- A response on its way back: a DICT_RSP frame to the node and package of a mooring source, an entry of the host's ring; an MCTP answer
leaves by I3C or PCIe VDM. -/
def State.deliver (s : State) (src : DictSource) (mode : Nat) (response : List Byte) : State :=
  match src.transport with
  | .mooring => s.sendFrame 2 mode (src.id.toNat % 8) (src.id.toNat / 8 % 4096) src.tag.toNat response
  | .inBand =>
    s.hrspPut (bytesOf 1 1 ++ bytesOf src.tag.toNat 2 ++ bytesOf response.length 2 ++
      bytesOf (natOfBytes ((response.drop 7).take 1)) 1 ++ bytesOf 0 2 ++ response)
  | _ => s

def State.session (s : State) (src : DictSource) : Option DictSession :=
  s.mooring.sessions.find? fun x => x.transport == src.transport && x.id == src.id.toNat

def State.setSession (s : State) (src : DictSource) (response : List Byte) : State :=
  let rest := s.mooring.sessions.filter fun x => !(x.transport == src.transport && x.id == src.id.toNat)
  { s with mooring := { s.mooring with
      sessions := rest ++ [{ transport := src.transport, id := src.id.toNat, tag := src.tag.toNat, response := response }] } }

/-- The response given before to a repeated request; keeper firmware repeats none. -/
def State.repeated (s : State) (src : DictSource) : Option (List Byte) :=
  match src.transport, s.session src with
  | .keeper, _ => none
  | _, some x => if x.tag = src.tag.toNat then some x.response else none
  | _, none => none

/-- A request arrives at the server: answered again where it repeats its source's last, served and answered otherwise. A refusal is
counted (R748). -/
def State.request (s : State) (src : DictSource) (p : Pdu) (devices : List ShelfDevice) (whole : Bool) (mode : Nat) : State :=
  if s.serverOff then s
  else
    match s.repeated src with
    | some response => s.deliver src mode response
    | none =>
      let (s, r) := s.serve src p devices whole
      let s := if r.result = 0 then s else s.dbump dkDictRefusedCnt
      let response := replyBytes p r
      (s.setSession src response).deliver src mode response

/-- A WRITE of one entry by its key. -/
def State.writeKey (s : State) (src : DictSource) (key : Nat) (value : List Byte) (devices : List ShelfDevice) : State :=
  s.request src { op := 1, index := key / 256, sub := key % 256, value := value } devices true 0

/-! ## The commands -/

/-- READ (R866). -/
def execRead (src : DictSource) (index : BitVec 16) (sub : Byte) (offset : BitVec 16) (s : State) : Host.Outcome State Fault Refusal :=
  .next (s.request src { op := 0, index := index.toNat, sub := sub.toNat, offset := offset.toNat } [] false 0)

/-- DICT_WRITE (R866). -/
def execDictWrite (src : DictSource) (index : BitVec 16) (sub : Byte) (offset : BitVec 16) (last : Bool) (value : List Byte) (s : State) :
    Host.Outcome State Fault Refusal :=
  .next (s.request src
    { op := 1, last := last, index := index.toNat, sub := sub.toNat, offset := offset.toNat, value := value } [] false 0)

/-- DESCRIBE (R722). -/
def execDescribe (src : DictSource) (index : BitVec 16) (sub : Byte) (s : State) : Host.Outcome State Fault Refusal :=
  .next (s.request src { op := 2, index := index.toNat, sub := sub.toNat } [] false 0)

/-- DICT_LOCK (R712). -/
def execDictLock (src : DictSource) (value : Byte) (s : State) : Host.Outcome State Fault Refusal :=
  .next (s.writeKey src dkDictLock [value] [])

/-- DICT_STORE (R732). -/
def execDictStore (src : DictSource) (value : Byte) (s : State) : Host.Outcome State Fault Refusal :=
  .next (s.writeKey src dkDictStore [value] [])

/-- RESET_REQUEST (R779). -/
def execResetRequest (src : DictSource) (value : Byte) (s : State) : Host.Outcome State Fault Refusal :=
  .next (s.writeKey src dkResetRequest [value] [])

/-- POWER_MODE (R758). -/
def execPowerMode (src : DictSource) (value : Byte) (s : State) : Host.Outcome State Fault Refusal :=
  .next (s.writeKey src dkPowerMode [value] [])

/-- SUB_MODE (R757). -/
def execSubMode (src : DictSource) (value : Byte) (s : State) : Host.Outcome State Fault Refusal :=
  .next (s.writeKey src dkSubMode [value] [])

/-- SHELF_RESCAN (R701). -/
def execShelfRescan (src : DictSource) (value : Byte) (devices : List ShelfDevice) (s : State) : Host.Outcome State Fault Refusal :=
  .next (s.writeKey src dkShelfRescan [value] devices)

/-- FOG_SEND (R741, R742). -/
def execFogSend (src : DictSource) (value : List Byte) (s : State) : Host.Outcome State Fault Refusal :=
  .next (s.writeKey src dkFogSend value [])

/-- TABLE_UPDATE (R657). -/
def execTableUpdate (src : DictSource) (value : List Byte) (s : State) : Host.Outcome State Fault Refusal :=
  .next (s.writeKey src dkTableUpdate value [])

/-- FW_UPDATE (R797). -/
def execFwUpdate (src : DictSource) (chunk : List Byte) (s : State) : Host.Outcome State Fault Refusal :=
  .next (s.writeKey src dkFwUpdate chunk [])

/-- SVN_COMMIT (R799). -/
def execSvnCommit (src : DictSource) (value : Byte) (s : State) : Host.Outcome State Fault Refusal :=
  .next (s.writeKey src dkSvnCommit [value] [])

/-- DEBUG_CHALLENGE (R804): a read of it. -/
def execDebugChallenge (src : DictSource) (s : State) : Host.Outcome State Fault Refusal :=
  .next (s.request src { op := 0, index := dkDebugChallenge / 256, sub := dkDebugChallenge % 256 } [] false 0)

/-- DEBUG_UNLOCK (R805). -/
def execDebugUnlock (src : DictSource) (value : List Byte) (s : State) : Host.Outcome State Fault Refusal :=
  .next (s.writeKey src dkDebugUnlock value [])

end Sys2Proof.Machine
end

