-- ==== Sys2Proof/Machine/MooringBus.lean ====
section
/-!
DEFINITION. The mooring bus (spec/15_object_dictionary.md R733 to R746): frames received, presence, coarse beam, reset commands, fogs.
-/
namespace Sys2Proof.Machine

/-! ## Frames (R735, R736) -/

/-- A number of a frame's payload. -/
def frameNum (f : MooringFrame) (o n : Nat) : Nat := natOfBytes ((f.payload.drop o).take n)

def frameType (f : MooringFrame) : Nat := frameNum f 0 1 / 16
def frameMode (f : MooringFrame) : Nat := frameNum f 1 1 % 4
def frameSrcNode (f : MooringFrame) : Nat := frameNum f 1 1 / 32
def frameSrcPkg (f : MooringFrame) : Nat := frameNum f 4 2 % 4096
def frameBody (f : MooringFrame) : List Byte := (f.payload.drop 12).take (frameNum f 8 2)

/-- Whether a frame is bad: an unlisted FTYPE, another VER than 1, DST_MODE 3, or a LEN beyond the frame. -/
def frameBad (f : MooringFrame) : Bool :=
  decide (f.payload.length < 12) || frameNum f 0 1 % 16 != 1 || decide (frameType f < 1) || decide (6 < frameType f) || frameMode f == 3 ||
  decide (f.payload.length < 12 + frameNum f 8 2)

/-- Whether a frame is addressed to this package. -/
def State.frameMine (s : State) (f : MooringFrame) : Bool :=
  match frameMode f with
  | 0 => frameNum f 1 1 / 4 % 8 == s.dnat dkMooringNodeId
  | 1 => frameNum f 2 2 % 4096 == s.ownPkg
  | _ => true

def State.badFrame (s : State) : State := s.dbump dkMooringBadFrameCnt

/-- A frame taken as one of a type: its body where it is whole, addressed here and of that type; a bad one is counted. -/
def State.frameIn (s : State) (f : MooringFrame) (ftype : Nat) : State × Option (List Byte) :=
  if s.heldInReset then (s, none)
  else if frameBad f then (s.badFrame, none)
  else if frameType f = ftype ∧ s.frameMine f then (s, some (frameBody f))
  else (s, none)

def bodyNum (body : List Byte) (o n : Nat) : Nat := natOfBytes ((body.drop o).take n)

/-! ## Dictionary frames (R726) -/

/-- The request of a PDU; none where the bytes are no whole PDU. -/
def parsePdu (body : List Byte) : Option Pdu :=
  let len := bodyNum body 6 1
  if body.length < 8 + len ∨ 48 < len then none
  else some { op := bodyNum body 0 1 % 16, last := bodyNum body 0 1 / 16 % 2 == 1, index := bodyNum body 1 2, sub := bodyNum body 3 1,
              offset := bodyNum body 4 2, value := (body.drop 8).take len }

/-- DICT_REQ: the request served, and answered by node where it came by node, else by package. -/
def dictReqEffect (f : MooringFrame) (s : State) : State :=
  match s.frameIn f 1 with
  | (s, none) => s
  | (s, some body) =>
    match parsePdu body with
    | none => s
    | some p =>
      let src : DictSource := { transport := .mooring, id := BitVec.ofNat 32 (frameSrcNode f + frameSrcPkg f * 8),
                                tag := BitVec.ofNat 16 (frameNum f 6 2) }
      s.request src p [] false (if frameMode f = 0 then 0 else 1)

def execDictReq (frame : MooringFrame) (s : State) : Host.Outcome State Fault Refusal := .next (dictReqEffect frame s)

/-- DICT_RSP: the response kept for the requester. -/
def dictRspEffect (f : MooringFrame) (s : State) : State :=
  match s.frameIn f 2 with
  | (s, none) => s
  | (s, some body) => { s with mooring := { s.mooring with answer := body } }

def execDictRsp (frame : MooringFrame) (s : State) : Host.Outcome State Fault Refusal := .next (dictRspEffect frame s)

/-! ## Fogs (R744, R745) -/

/-- FOG: a frame or a control flit. -/
def fogEffect (arrival : FogIn) (s : State) : State :=
  match arrival with
  | .frame f =>
    (match s.frameIn f 3 with
     | (s, none) => s
     | (s, some body) => s.takeFog (padTo 24 0#8 body) none true)
  | .flit link f =>
    if !s.transmits link.val then s
    else
      match s.takeControl link.val f 0x11 with
      | (s, none) => s
      | (s, some p) => s.takeFog ((p.drop 1).take 24) (some link.val) false

def execFog (arrival : FogIn) (s : State) : Host.Outcome State Fault Refusal := .next (fogEffect arrival s)

/-! ## Reset commands (R739) -/

/-- RESET: a reset source where its LEVEL lies within MOORING_RESET_ACCEPT and CONFIRM is 0xA5; any other is counted as bad. -/
def resetEffect (f : MooringFrame) (s : State) : State :=
  match s.frameIn f 4 with
  | (s, none) => s
  | (s, some body) =>
    let level := bodyNum body 0 1
    let accept := s.dnat dkMooringResetAccept
    let within := (level == 2 && decide (1 ≤ accept)) || (level == 1 && decide (2 ≤ accept))
    if body.length < 2 ∨ bodyNum body 1 1 ≠ 0xA5 ∨ !within then s.badFrame
    else s.resetSource level srcMooring

def execReset (frame : MooringFrame) (s : State) : Host.Outcome State Fault Refusal := .next (resetEffect frame s)

/-! ## Coarse beam (R740) -/

/-- COARSE_BEAM: coarse beam is present; a follower in state COARSE takes it as its beam, one in FREE does not acquire from it. -/
def coarseBeamEffect (f : MooringFrame) (s : State) : State :=
  match s.frameIn f 5 with
  | (s, none) => s
  | (s, some body) =>
    let s := { s with beam := { s.beam with coarse := true } }
    if s.beamState = 4 then s.correctByStep (bodyNum body 0 8 * 2 ^ 32) else s

def execCoarseBeam (frame : MooringFrame) (s : State) : Host.Outcome State Fault Refusal := .next (coarseBeamEffect frame s)

/-- COARSE_BEAM_SEND: a segment coordinator in LOCKED, HOLDOVER or LEAD sends its beam to all. -/
def coarseBeamSendEffect (s : State) : State :=
  let st := s.beamState
  if s.heldInReset ∨ s.dnat dkMooringNodeId ≠ 0 ∨ (st ≠ 2 ∧ st ≠ 3 ∧ st ≠ 5) then s
  else
    let lead := if st = 5 then s.ownPkg else s.beam.lead.getD 0
    s.sendNew 5 (bytesOf s.beamNow 8 ++ bytesOf s.beam.period 4 ++ bytesOf lead 2 ++ bytesOf s.beam.gen 2 ++ bytesOf (b2n (st != 3)) 1)

def execCoarseBeamSend (s : State) : Host.Outcome State Fault Refusal := .next (coarseBeamSendEffect s)

/-! ## Presence (R737, R738) -/

/-- The source address of this package's frames (R734). -/
def State.ownAddress (s : State) : Nat := 0x02EC96 * 2 ^ 24 + s.serial % 2 ^ 24

/-- PRESENCE: the payload and its beam time kept for the sender's node; the own node ID from another address is a conflict. -/
def presenceEffect (f : MooringFrame) (s : State) : State :=
  match s.frameIn f 6 with
  | (s, none) => s
  | (s, some body) =>
    let node := frameSrcNode f
    let old := s.byteValue dkMooringPeers
    let new := old.take (16 * node) ++ padTo 8 0#8 body ++ bytesOf s.beamNow 8 ++ old.drop (16 * node + 16)
    let s := s.dputBytes dkMooringPeers new
    if node = s.dnat dkMooringNodeId ∧ f.source.toNat ≠ s.ownAddress then s.dput dkMooringNodeConflict 1 else s

def execPresence (frame : MooringFrame) (s : State) : Host.Outcome State Fault Refusal := .next (presenceEffect frame s)

/-- PRESENCE_SEND: with MOORING_ENABLE true, to all. -/
def presenceSendEffect (s : State) : State :=
  if s.heldInReset ∨ s.dget dkMooringEnable = 0 then s
  else s.sendNew 6 (bytesOf s.ownPkg 2 ++ bytesOf s.stage 1 ++ bytesOf s.beamState 1 ++ bytesOf (s.dnat dkSpareRole) 1 ++ bytesOf 0 3)

def execPresenceSend (s : State) : Host.Outcome State Fault Refusal := .next (presenceSendEffect s)

end Sys2Proof.Machine
end

