-- ==== Sys2Proof/Machine/HostIf.lean ====
section
/-!
DEFINITION. The PCIe endpoint as the host sees it (spec/14_keeper_and_host.md R688 to R697): apertures, BAR0, the host window, the host
command ring.
-/
namespace Sys2Proof.Machine

def State.complete (s : State) (c : HostCompletion) : State := { s with keeper := { s.keeper with completion := some c } }

/-! ## Apertures (R689, R690, R697, R803) -/

/-- Whether a host access may reach an address: populated, in a tier, not reserved. -/
def State.hostReach (s : State) (pa : Nat) : Bool :=
  !inReserved s.fuses pa &&
  (match s.phys pa with
   | .hbm _ => true
   | .gallery _ _ => true
   | .shelf => true
   | _ => false)

/-- HBM sectors of a range that it covers in part (R690). -/
def State.partSectors (s : State) (pa n : Nat) : Nat :=
  (List.range ((pa + n + 31) / 32 - pa / 32)).countP fun k =>
    let a := (pa / 32 + k) * 32
    (match s.phys a with
     | .hbm _ => true
     | _ => false) && (decide (a < pa) || decide (pa + n < a + 32))

def apertureAccessEffect (aperture : Fin 16) (offset : BitVec 32) (access : HostAccess) (s : State) : State :=
  let a := aperture.val
  let pa := s.fld keepApertureBase 0 a * 2 ^ 32 + offset.toNat
  let n := match access with
    | .read k => k.toNat
    | .write bs => bs.length
  let early := decide (s.resets.step < 9)
  let good := !early && s.fld keepApertureEn 0 a == 1 && s.hostReach pa && s.hostReach (pa + n - 1)
  if s.heldInReset then s
  else
    match access with
    | .read k =>
      if good && s.groupHeld pa n then s
      else if good then
        let s := (cutPages (n / 65536 + 2) pa n).foldl (fun s r => s.didRead { unit := .keeper } r.1 r.2) s
        s.complete { status := 0, data := s.memBytes pa k.toNat,
                     poison := (List.range ((pa + n + 31) / 32 - pa / 32)).any fun j => s.poisonAt ((pa / 32 + j) * 32) }
      else (s.bump .keepApertureErrCnt 0 0 1).complete { status := if early then 2 else 1 }
    | .write bs =>
      if good then
        let s := s.bump .keepHostMergeCnt 0 0 (s.partSectors pa n)
        (cutPages (n / 65536 + 2) pa n).foldl (fun s r => s.devWrite { unit := .keeper } r.1 ((bs.drop (r.1 - pa)).take r.2)) s
      else s.bump .keepApertureErrCnt 0 0 1

/-- APERTURE_ACCESS (R689, R690, R697). -/
def execApertureAccess (aperture : Fin 16) (offset : BitVec 32) (access : HostAccess) (s : State) : Host.Outcome State Fault Refusal :=
  .next (apertureAccessEffect aperture offset access s)

/-! ## BAR0 (R688, R691, R694) -/

/-- The parts of BAR0, each with the offset in it. -/
inductive Bar0 where
  | regs (off : Nat)
  | msix (v : Nat) (control : Bool)
  | pba (word : Nat)
  | boot (off : Nat)
  | view (off : Nat)
  | none
  deriving DecidableEq, Repr

def bar0 (o : Nat) : Bar0 :=
  if o < 0x1_0000 then .regs o
  else if 0x10_0000 ≤ o ∧ o < 0x10_8000 then .msix ((o - 0x10_0000) / 16) (o / 8 % 2 == 1)
  else if 0x11_0000 ≤ o ∧ o < 0x11_0100 then .pba ((o - 0x11_0000) / 8)
  else if 0x100_0000 ≤ o ∧ o < 0x300_0000 then .boot (o - 0x100_0000)
  else if 0x400_0000 ≤ o then .view (o - 0x400_0000)
  else .none

def keepOffset : Nat := 0x300_0000

/-- Whether a configuration offset lies in the SEC_ blocks. -/
def inSec (off : Nat) : Bool := off / 65536 == 0x301

/-- A word of BAR0 as the host reads it. -/
def State.bar0Read (s : State) (o : Nat) : Word :=
  match bar0 o with
  | .regs off => s.cfgRead (keepOffset + off)
  | .msix v control =>
    let e := s.msix v
    if control then BitVec.ofNat 64 (e.data % 2 ^ 32 + b2n e.masked * 2 ^ 32) else BitVec.ofNat 64 e.addr
  | .pba w => (List.range 64).foldl (fun (x : Word) k => if s.host.pba.contains (64 * w + k) then x ||| (1#64 <<< k) else x) 0#64
  | .boot off =>
    if s.stage = 2 then BitVec.ofNat 64 (natOfBytes ((List.range 8).map fun k => lookupD 0#8 (off + k) s.keeper.sram)) else 0#64
  | .view off => if inSec off then 0#64 else s.cfgRead off
  | .none => 0#64

/-- A vector unmasked while it is pending sends its message. -/
def State.putMsix (s : State) (v : Nat) (e : MsixEntry) : State :=
  let s := { s with host := { s.host with msix := putD ({} : MsixEntry) v e s.host.msix } }
  if !e.masked && s.host.pba.contains v then ({ s with host := { s.host with pba := setErase v s.host.pba } }).sendIrq v else s

/-- Whether an offset names KEEP_HOST_CFG, which only keeper cores write. -/
def isHostCfg (off : Nat) : Bool := off == keepOffset + (regInfo .keepHostCfg).offset

/-- A host write of a word of BAR0. -/
def State.bar0Write (s : State) (o : Nat) (v : Word) : State :=
  match bar0 o with
  | .regs off => if isHostCfg (keepOffset + off) then s else s.cfgWrite (keepOffset + off) v
  | .msix k control =>
    let e := s.msix k
    s.putMsix k (if control then { e with data := bitsOf v 0 32, masked := bitOf v 32 } else { e with addr := v.toNat })
  | .boot off =>
    if s.stage = 2 then { s with keeper := { s.keeper with sram := putRun 0#8 off (bytesOf v.toNat 8) s.keeper.sram } } else s
  | .view off =>
    if s.fld keepHostCfgWrEn 0 = 0 then s.bump .keepHostCfgDropCnt 0 0 1
    else if isHostCfg off then s
    else s.cfgWrite off v
  | _ => s

/-- CONFIG_VIEW_ACCESS (R688, R691). -/
def configViewAccessEffect (offset : BitVec 27) (value : Option Word) (s : State) : State :=
  if s.heldInReset then s
  else
    match value with
    | some v => s.bar0Write offset.toNat v
    | none => s.complete { status := 0, data := bytesOf (s.bar0Read offset.toNat).toNat 8 }

def execConfigViewAccess (offset : BitVec 27) (value : Option Word) (s : State) : Host.Outcome State Fault Refusal :=
  .next (configViewAccessEffect offset value s)

/-! ## The host window (R692, R693) -/

/-- Sectors of a run left poisoned. -/
def State.poisonRun (s : State) (pa n : Nat) : State :=
  (List.range ((pa + n + 31) / 32 - pa / 32)).foldl (fun s k => s.markPoison ((pa / 32 + k) * 32)) s

/-- HOST_WINDOW_ACCESS (R693): a read delivers what the host answers, or a poisoned line; a write is sent, poisoned where its line is,
unless it fails, and then the work that issued it ends with TIER_FAIL. -/
def hostWindowAccessEffect (offset : BitVec 42) (access : WindowAccess) (linkUp : Bool) (work : Option ChainRef) (s : State) : State :=
  let pa := hostBase + offset.toNat
  match access with
  | .read (some bs) => if s.hostOn && linkUp then s.putRaw pa bs else s.poisonRun (pa / 128 * 128) 128
  | .read none => s.poisonRun (pa / 128 * 128) 128
  | .write bs poison =>
    if s.hostOn && linkUp then
      let s := s.putRaw pa bs
      if poison then s.poisonRun pa bs.length else s
    else
      let s := s.bump .keepHostwinErrCnt 0 0 1
      match work.bind s.findChain with
      | some c => s.endChain c stTierFail 0
      | none => s

def execHostWindowAccess (offset : BitVec 42) (access : WindowAccess) (linkUp : Bool) (work : Option ChainRef) (s : State) :
    Host.Outcome State Fault Refusal :=
  .next (hostWindowAccessEffect offset access linkUp work s)

/-! ## The host command ring (R695) -/

def State.hcmdWaiting (s : State) : Nat := (s.fld keepHcmdIdxProd 0 + 2 ^ 32 - s.fld keepHcmdIdxCons 0) % 2 ^ 32

/-- The source of the host's requests: its mailbox. -/
def mailbox (tag : Nat) : DictSource := { transport := .inBand, id := 0#32, tag := BitVec.ofNat 16 tag }

/-- An entry taken: OPC 0x01 is a dictionary request; a runtime message goes to the runtime, and a reserved OPC is passed over. -/
def State.takeHcmd (s : State) (x : BitVec 512) : State :=
  let bs := bytesOf x.toNat 64
  let s := s.setFld keepHcmdIdxCons 0 0 (s.fld keepHcmdIdxCons 0 + 1)
  if bodyNum bs 0 1 ≠ 1 then s
  else
    match parsePdu ((bs.drop 8).take (min 56 (bodyNum bs 3 2))) with
    | some p => s.request (mailbox (bodyNum bs 1 2)) p [] false 0
    | none => s

/-- The entries in order, each dictionary request only while its answer has room in the response ring. -/
def State.takeHcmds (s : State) : List (BitVec 512) → State
  | [] => s
  | x :: xs =>
    if s.hcmdWaiting = 0 || (x.toNat % 256 == 1 && !s.hrspRoom) then s else (s.takeHcmd x).takeHcmds xs

/-- HCMD_POLL (R695): nothing while the ring is off or the server stopped. -/
def hcmdPollEffect (entries : List (BitVec 512)) (s : State) : State :=
  if s.serverOff || s.fld keepHcmdBaseSizeLog2 0 == 0 then s else s.takeHcmds entries

def execHcmdPoll (entries : List (BitVec 512)) (s : State) : Host.Outcome State Fault Refusal := .next (hcmdPollEffect entries s)

end Sys2Proof.Machine
end

