-- ==== Sys2Proof/Machine/TraceSink.lean ====
section
/-!
DEFINITION. The trace sinks (spec/18_observability.md R837 to R839).
-/
namespace Sys2Proof.Machine

/-- The LOSS record of a source's drops takes its first free staging entry (R838). -/
def TraceSrc.placeLoss (t : TraceSrc) (src : Nat) : TraceSrc :=
  match t.loss with
  | some (f, l, n) => if t.staged.length < 64 then { staged := t.staged ++ [lossRecord src f l n], loss := none } else t
  | none => t

/-- The sink address of the next record of a die (R837). -/
def State.sinkAt (s : State) (die : Nat) : Nat := s.traceBase die + 32 * (s.fld ctrTraceIdxProd die % s.traceSize die)

def words4List (w : Words4) : List Word := [w.w0, w.w1, w.w2, w.w3]

/-- TRACE_SINK_WRITE: the oldest staged record of a source is written and PROD advances; a failed host write discards it (R839). -/
def traceSinkWriteEffect (die : Fin 2) (source : Byte) (hostFail : Bool) (s : State) : State :=
  let d := die.val
  let src := source.toNat
  let key := d * 256 + src
  if s.sinkFull d then s
  else
    match ((lookupD ({} : TraceSrc) key s.trace).placeLoss src).staged with
    | [] => s
    | rec :: rest =>
      let left : TraceSrc := { (lookupD ({} : TraceSrc) key s.trace).placeLoss src with staged := rest }
      let s := { s with trace := putD ({} : TraceSrc) key (left.placeLoss src) s.trace }
      let s := { s with sram := { s.sram with sinkUse := putD 0 d (lookupD 0 d s.sram.sinkUse + 4) s.sram.sinkUse } }
      let pa := s.sinkAt d
      if s.sinkKind d = 2 ∧ (hostFail ∨ s.hostFails pa) then
        ((s.bump .keepHostwinErrCnt 0 0 1).bump .ctrTraceLostCnt d 0 1).bump .ctrTraceSinkErrCnt d 0 1
      else
        let s := s.devWriteWords (s.maintAccess (pa / 65536) (s.frame (pa / 65536)).owner) pa (words4List rec)
        (s.setFld ctrTraceIdxProd d 0 (s.fld ctrTraceIdxProd d + 1)).bump .ctrTraceRecCnt d 0 1

def execTraceSinkWrite (die : Fin 2) (source : Byte) (hostFail : Bool) (s : State) : Host.Outcome State Fault Refusal :=
  .next (traceSinkWriteEffect die source hostFail s)

end Sys2Proof.Machine
end

