-- ==== Sys2Proof/Machine/Ucie.lean ====
section
/-!
DEFINITION. UCIe (spec/14_keeper_and_host.md R671 to R679): transactions, and retraining of a port.
-/
namespace Sys2Proof.Machine

/-! ## Headers (R674, R675) -/

/-- The register unit of a port. -/
def portUnit (p : UciePort) : Nat := p.die.val * 2 + b2n p.keeper

def txnType (t : UcieTxn) : Nat := bitsOf t.w0 0 4
def txnTag (t : UcieTxn) : Nat := bitsOf t.w0 6 12
def txnFull (t : UcieTxn) : Bool := bitOf t.w0 24
def txnLines (t : UcieTxn) : Nat := bitsOf t.w0 33 8 + 1
def txnSrc (t : UcieTxn) : Nat := bitsOf t.w0 41 4
def txnAddr (t : UcieTxn) : Nat := bitsOf t.w1 0 48

/-- Whether a TTYPE is reserved. -/
def txnReserved (t : UcieTxn) : Bool := txnType t == 0 || decide (9 ≤ txnType t)

/-- Whether a port delivers a transaction: its link is up; before the mainband has trained the sideband carries configuration accesses of
the keeper (R673). -/
def State.portOpen (s : State) (p : UciePort) (config : Bool) : Bool :=
  s.fld uciStatusState (portUnit p) == 2 || (config && p.keeper && s.fld uciStatusState (portUnit p) == 0)

/-- A transaction taken at a port as one of a type; one with a reserved TTYPE is counted and discarded. -/
def State.ucieIn (s : State) (p : UciePort) (t : UcieTxn) (ttype : Nat) : State × Bool :=
  if !s.portOpen p (ttype == 4 || ttype == 5 || ttype == 6) then (s, false)
  else if txnReserved t then (s.bump .uciBadTxnCnt (portUnit p) 0 1, false)
  else (s, txnType t == ttype)

/-- The byte enables of a line: all ones with FULL. -/
def lineMask (t : UcieTxn) (x : LineSeg × BitVec 128) : BitVec 128 := if txnFull t then BitVec.allOnes 128 else x.2

/-- Whether a line meets its line CRC at its destination (R282, R678). -/
def ucieLineGood (t : UcieTxn) (x : LineSeg × BitVec 128) : Bool := x.1.crc == lineCrc x.1.data (lineMask t x)

/-- Lines that fail their CRC, counted. -/
def State.countBadLines (s : State) (p : UciePort) (t : UcieTxn) : State :=
  s.bump .uciLineCrcCnt (portUnit p) 0 (t.lines.countP fun x => !ucieLineGood t x)

/-! ## Reads -/

/-- The response to a request: its TAG and OWNER, channel 1, FULL lines. -/
def responseHeader (t : UcieTxn) (ttype status lines : Nat) : Word :=
  BitVec.ofNat 64 (ttype + 16 + txnTag t * 2 ^ 6 + bitsOf t.w0 18 6 * 2 ^ 18 + 2 ^ 24 + status * 2 ^ 25 + (lines - 1) * 2 ^ 33 +
    txnSrc t * 2 ^ 41)

def State.respond (s : State) (m : UcieMsg) : State :=
  { s with keeper := { s.keeper with responses := s.keeper.responses ++ [m] } }

/-- A line as memory holds it, with its poison flag. -/
def State.memLine (s : State) (pa : Nat) : LineSeg :=
  fullLine (s.memBytes pa 128) ((List.range 4).any fun k => s.poisonAt (pa + 32 * k))

/-- The status of an access to an address: BLOCK_RESET (R780), PAGE_FAULT where nothing is populated (R4). -/
def State.pathStatus (s : State) (pa : Nat) : Nat := if s.paInReset pa then 0x71 else if s.isHole pa then 0x60 else 0

/-- The access of a transaction: of the keeper's port or the die-to-die port that it enters, for its owner (R275, R674). -/
def portAccess (p : UciePort) (t : UcieTxn) : Access :=
  { unit := if p.keeper then .keeper else .ucie p.die.val, owner := bitsOf t.w0 18 6 }

/-- Whether a write of a transaction's source to some bytes still waits (R677). -/
def State.portWrites (s : State) (p : UciePort) (t : UcieTxn) (pa n : Nat) : Bool :=
  s.heldWrites.any fun w => w.by_.unit == (portAccess p t).unit && decide (w.addr < pa + n) && decide (pa < w.addr + w.bytes.length)

/-- READ_REQ: the lines are read and returned as READ_DATA. One that touches a channel group out of service waits for its return (R405), and one
of a line that an earlier WRITE of its source has still to write waits for that (R677): nothing is returned yet. -/
def readReqEffect (p : UciePort) (t : UcieTxn) (s : State) : State :=
  match s.ucieIn p t 1 with
  | (s, false) => s
  | (s, true) =>
    let base := txnAddr t / 128 * 128
    let n := txnLines t
    let pas := (List.range n).map fun k => base + 128 * k
    let status := ((pas.map s.pathStatus).find? (· != 0)).getD 0
    if pas.any fun pa => s.groupHeld pa 128 || s.portWrites p t pa 128 then s
    else
      let s := pas.foldl (fun s pa => s.didRead (portAccess p t) pa 128) s
      s.respond { port := portUnit p, w0 := responseHeader t 2 status n, w1 := t.w1, lines := pas.map s.memLine }

def execReadReq (port : UciePort) (txn : UcieTxn) (s : State) : Host.Outcome State Fault Refusal := .next (readReqEffect port txn s)

/-- A response reaches its requester: kept as delivered, no longer on its way. -/
def State.takeResponse (s : State) (p : UciePort) (t : UcieTxn) : State :=
  let s := s.countBadLines p t
  let m : UcieMsg := { port := portUnit p, w0 := t.w0, w1 := t.w1, lines := (t.lines.filter (ucieLineGood t)).map (·.1) }
  { s with keeper := { s.keeper with
      delivered := some m
      responses := s.keeper.responses.filter fun x => !(x.port / 2 == m.port / 2 && bitsOf x.w0 6 12 == txnTag t) } }

/-- READ_DATA: lines return to the requester. -/
def readDataEffect (p : UciePort) (t : UcieTxn) (s : State) : State :=
  match s.ucieIn p t 2 with
  | (s, false) => s
  | (s, true) => s.takeResponse p t

def execReadData (port : UciePort) (txn : UcieTxn) (s : State) : Host.Outcome State Fault Refusal := .next (readDataEffect port txn s)

/-- CFG_READ: 8 bytes of configuration space, returned as CFG_DATA. -/
def cfgReadEffect (p : UciePort) (t : UcieTxn) (s : State) : State :=
  match s.ucieIn p t 4 with
  | (s, false) => s
  | (s, true) =>
    let v := match s.phys (txnAddr t) with
      | .config off => s.cfgRead off
      | _ => 0#64
    s.respond { port := portUnit p, w0 := responseHeader t 5 0 1, w1 := t.w1, lines := [fullLine (padTo128 (bytesOf v.toNat 8)) false] }
where
  padTo128 (bs : List Byte) : List Byte := bs ++ List.replicate (128 - bs.length) 0#8

def execCfgRead (port : UciePort) (txn : UcieTxn) (s : State) : Host.Outcome State Fault Refusal := .next (cfgReadEffect port txn s)

/-- CFG_DATA: a configuration value returns. -/
def cfgDataEffect (p : UciePort) (t : UcieTxn) (s : State) : State :=
  match s.ucieIn p t 5 with
  | (s, false) => s
  | (s, true) => s.takeResponse p t

def execCfgData (port : UciePort) (txn : UcieTxn) (s : State) : Host.Outcome State Fault Refusal := .next (cfgDataEffect port txn s)

/-! ## Writes and posts -/

/-- A sector of which some bytes are enabled: in HBM the others are written as zero and the write is counted (R377); elsewhere the enabled
bytes are written. -/
def State.writePartSector (s : State) (a : Access) (pa m : Nat) (bs : List Byte) : State :=
  let zeroed := bs.zipIdx.map fun x => if m / 2 ^ x.2 % 2 = 1 then x.1 else 0#8
  match s.phys pa with
  | .hbm _ => (s.bump .hbmcPartialWrCnt (hbmPlace s.harbour pa).1 0 1).devWrite a pa zeroed
  | _ =>
    (List.range 32).foldl (fun s j => if m / 2 ^ j % 2 = 1 then s.devWrite a (pa + j) ((bs.drop j).take 1) else s) s

/-- A line's enabled bytes written by sectors, with its poison flag. -/
def State.writeUcieLine (s : State) (a : Access) (pa : Nat) (l : LineSeg) (mask : BitVec 128) : State :=
  let bs := bytesOf l.data.toNat 128
  (List.range 4).foldl (fun s k =>
    let m := mask.toNat / 2 ^ (32 * k) % 2 ^ 32
    let at_ := pa + 32 * k
    if m = 0 then s
    else
      let s := if m = 2 ^ 32 - 1 then s.devWrite a at_ ((bs.drop (32 * k)).take 32)
        else s.writePartSector a at_ m ((bs.drop (32 * k)).take 32)
      if l.poison then s.leavePoison [at_ / 32] else s) s

/-- WRITE: the lines that meet their CRC are written, and 2 MiB pages that they map are installed or refused (R421); nothing is populated or in use in a block being reset. -/
def writeEffect (p : UciePort) (t : UcieTxn) (s : State) : State :=
  match s.ucieIn p t 3 with
  | (s, false) => s
  | (s, true) =>
    let s := s.countBadLines p t
    let base := txnAddr t / 128 * 128
    let s' := (List.range (min (txnLines t) t.lines.length)).foldl (fun s k =>
      match t.lines[k]? with
      | some x =>
        if ucieLineGood t x && s.pathStatus (base + 128 * k) == 0 then s.writeUcieLine (portAccess p t) (base + 128 * k) x.1 (lineMask t x) else s
      | none => s) s
    if p.keeper && inReserved s.fuses base then s'.settleBig s else s'

def execWrite (port : UciePort) (txn : UcieTxn) (s : State) : Host.Outcome State Fault Refusal := .next (writeEffect port txn s)

/-- The value in bytes 0 to 7 of a transaction's first line, where it meets its CRC. -/
def txnValue (t : UcieTxn) : Option Word :=
  match t.lines with
  | x :: _ => if ucieLineGood t x then some (BitVec.ofNat 64 x.1.data.toNat) else none
  | [] => none

/-- CFG_WRITE: 8 bytes of configuration space written; KEEP_HOST_CFG only by keeper cores (R691). -/
def cfgWriteEffect (p : UciePort) (t : UcieTxn) (s : State) : State :=
  match s.ucieIn p t 6 with
  | (s, false) => s
  | (s, true) =>
    let s := s.countBadLines p t
    match txnValue t, s.phys (txnAddr t) with
    | some v, .config off =>
      (match regPlace off with
       | some (.keepHostCfg, _, _) => if txnSrc t = 0 then s.cfgWrite off v else s
       | _ => s.cfgWrite off v)
    | _, _ => s

def execCfgWrite (port : UciePort) (txn : UcieTxn) (s : State) : Host.Outcome State Fault Refusal := .next (cfgWriteEffect port txn s)

/-- POST (R173, R602): a token set or cleared, or flags for an entry of the die's flag table; not before every earlier WRITE of its source is
written (R677). -/
def postEffect (p : UciePort) (t : UcieTxn) (item : PostItem) (s : State) : State :=
  match s.ucieIn p t 7 with
  | (s, false) => s
  | (s, true) =>
    if s.portWrites p t 0 (2 ^ 48) then s
    else match item with
    | .token id set => s.putToken id.toNat set
    | .flags index bits => s.wr .galFlagEntry p.die.val index.toNat (s.rd .galFlagEntry p.die.val index.toNat ||| BitVec.ofNat 64 bits.toNat)

def execPost (port : UciePort) (txn : UcieTxn) (item : PostItem) (s : State) : Host.Outcome State Fault Refusal :=
  .next (postEffect port txn item s)

/-- EVENT: an event record reaches its receiver. -/
def eventEffect (p : UciePort) (t : UcieTxn) (s : State) : State :=
  match s.ucieIn p t 8 with
  | (s, false) => s
  | (s, true) =>
    let s := s.countBadLines p t
    match t.lines with
    | x :: _ =>
      if ucieLineGood t x then
        { s with keeper := { s.keeper with events := s.keeper.events ++ [(bitsOf t.w1 48 16, x.1.data)] } }
      else s
    | [] => s

def execEvent (port : UciePort) (txn : UcieTxn) (s : State) : Host.Outcome State Fault Refusal := .next (eventEffect port txn s)

/-! ## Retraining (R672, R679) -/

/-- The register units of the two ends of a port's link, and its modules. -/
def linkUnits (p : UciePort) : List Nat := if p.keeper then [portUnit p] else [0, 2]

def linkModules (p : UciePort) : Nat := if p.keeper then 2 else 24

/-- UCIE_RETRAIN (R679): the link retrains and its traffic is held. -/
def ucieRetrainEffect (p : UciePort) (s : State) : State :=
  if s.fld uciStatusState (portUnit p) ≠ 2 then s
  else (linkUnits p).foldl (fun s u => (s.setFld uciStatusState u 0 3).bump .uciRetrainCnt u 0 1) s

def execUcieRetrain (port : UciePort) (_failed : BitVec 24) (_readers : List ChainRef) (s : State) : Host.Outcome State Fault Refusal :=
  .next (ucieRetrainEffect port s)

/-- A line delivered as a poisoned one. -/
def poisonLine (l : LineSeg) : LineSeg := { l with poison := true }

/-- A link that has lost its last module: reads outstanding on it are delivered as poisoned lines, and the chains that wait on them end. -/
def State.linkLost (s : State) (p : UciePort) (readers : List ChainRef) : State :=
  let mine (m : UcieMsg) : Bool := (linkUnits p).contains m.port
  let gone := (s.keeper.responses.filter mine).map fun m => { m with lines := m.lines.map poisonLine }
  let s := { s with keeper := { s.keeper with
      responses := s.keeper.responses.filter fun m => !mine m
      delivered := match gone.getLast? with
        | some m => some m
        | none => s.keeper.delivered } }
  readers.foldl (fun s r =>
    match s.findChain r with
    | some c => s.endChain c stTierFail 0
    | none => s) s

/-- UCIE_RETRAIN_DONE (R672, R679): modules that cannot be repaired are retired; with none left the link is down. -/
def ucieRetrainDoneEffect (p : UciePort) (failed : BitVec 24) (readers : List ChainRef) (s : State) : State :=
  if s.fld uciStatusState (portUnit p) ≠ 3 then s
  else
    let s := (linkUnits p).foldl (fun s u => s.trainUcie u (linkModules p) failed.toNat) s
    let s := s.dput dkUcieD2dModules ((s.fld uciStatusModulesUp 0 : Nat) : Int)
    if s.fld uciStatusModulesUp (portUnit p) = 0 then s.linkLost p readers else s

def execUcieRetrainDone (port : UciePort) (failed : BitVec 24) (readers : List ChainRef) (s : State) : Host.Outcome State Fault Refusal :=
  .next (ucieRetrainDoneEffect port failed readers s)

end Sys2Proof.Machine
end

