-- ==== Sys2Proof/Machine/Dispatch.lean ====
section
/-!
DEFINITION. One arm per command of spec/opcode_table.json, in the table's order: each calls its meaning.
-/
namespace Sys2Proof.Machine

def exec (i : Instr) (s : State) : Host.Outcome State Fault Refusal :=
  match i with
  | .pass e task words => Sys2Proof.Machine.execPass e task words s
  | .tileMark e task => Sys2Proof.Machine.execTileMark e task s
  | .passComplete e => Sys2Proof.Machine.execPassComplete e s
  | .stationaryLoadDone e => Sys2Proof.Machine.execStationaryLoadDone e s
  | .tileOverrun e => Sys2Proof.Machine.execTileOverrun e s
  | .arrayRampDown e idle => Sys2Proof.Machine.execArrayRampDown e idle s
  | .rampWindowStart r => Sys2Proof.Machine.execRampWindowStart r s
  | .rampUpEnd e => Sys2Proof.Machine.execRampUpEnd e s
  | .nop e task words => Sys2Proof.Machine.execNop e task words s
  | .add e task words => Sys2Proof.Machine.execAdd e task words s
  | .sub e task words => Sys2Proof.Machine.execSub e task words s
  | .mul e task words => Sys2Proof.Machine.execMul e task words s
  | .fma e task words => Sys2Proof.Machine.execFma e task words s
  | .max e task words => Sys2Proof.Machine.execMax e task words s
  | .min e task words => Sys2Proof.Machine.execMin e task words s
  | .abs e task words => Sys2Proof.Machine.execAbs e task words s
  | .neg e task words => Sys2Proof.Machine.execNeg e task words s
  | .copy e task words => Sys2Proof.Machine.execCopy e task words s
  | .rowsum e task words => Sys2Proof.Machine.execRowsum e task words s
  | .rowmax e task words => Sys2Proof.Machine.execRowmax e task words s
  | .rownorm e task words => Sys2Proof.Machine.execRownorm e task words s
  | .knorm e task words => Sys2Proof.Machine.execKnorm e task words s
  | .func e task words => Sys2Proof.Machine.execFunc e task words s
  | .deriv e task words => Sys2Proof.Machine.execDeriv e task words s
  | .smxUpdate e task words => Sys2Proof.Machine.execSmxUpdate e task words s
  | .smxProb e task words => Sys2Proof.Machine.execSmxProb e task words s
  | .rowScale e task words => Sys2Proof.Machine.execRowScale e task words s
  | .skipDecide e task words => Sys2Proof.Machine.execSkipDecide e task words s
  | .skipReplay e task words => Sys2Proof.Machine.execSkipReplay e task words s
  | .dropout e task words => Sys2Proof.Machine.execDropout e task words s
  | .randUniform e task words => Sys2Proof.Machine.execRandUniform e task words s
  | .flagsClear e task words => Sys2Proof.Machine.execFlagsClear e task words s
  | .flagsGet e task words => Sys2Proof.Machine.execFlagsGet e task words s
  | .galFlagEntryClear die idx value => Sys2Proof.Machine.execGalFlagEntryClear die idx value s
  | .predictorCommitLaunch cluster launch region => Sys2Proof.Machine.execPredictorCommitLaunch cluster launch region s
  | .checkpointRegeneration reader ckpt => Sys2Proof.Machine.execCheckpointRegeneration reader ckpt s
  | .clusterBankGrant cluster bank others => Sys2Proof.Machine.execClusterBankGrant cluster bank others s
  | .galleryBankGrant die bank others => Sys2Proof.Machine.execGalleryBankGrant die bank others s
  | .parityError site req reader => Sys2Proof.Machine.execParityError site req reader s
  | .rerunLaunch unit => Sys2Proof.Machine.execRerunLaunch unit s
  | .lineCrcFail line => Sys2Proof.Machine.execLineCrcFail line s
  | .lineRefetchDone line => Sys2Proof.Machine.execLineRefetchDone line s
  | .galRepairCmd die value => Sys2Proof.Machine.execGalRepairCmd die value s
  | .rowRepairRun die => Sys2Proof.Machine.execRowRepairRun die s
  | .stageChain cluster launch image => Sys2Proof.Machine.execStageChain cluster launch image s
  | .stageItemStart chain stage loads wait waited => Sys2Proof.Machine.execStageItemStart chain stage loads wait waited s
  | .slotFull chain stage => Sys2Proof.Machine.execSlotFull chain stage s
  | .slotEmpty chain stage => Sys2Proof.Machine.execSlotEmpty chain stage s
  | .tokenHandover chain ring toConsumer => Sys2Proof.Machine.execTokenHandover chain ring toConsumer s
  | .chainCommit chain => Sys2Proof.Machine.execChainCommit chain s
  | .nextChainLaunch cluster launch image => Sys2Proof.Machine.execNextChainLaunch cluster launch image s
  | .taskSwitch e task => Sys2Proof.Machine.execTaskSwitch e task s
  | .switchThresholdExpiry e waited => Sys2Proof.Machine.execSwitchThresholdExpiry e waited s
  | .chainStall chain us => Sys2Proof.Machine.execChainStall chain us s
  | .slotTimeout chain ms status => Sys2Proof.Machine.execSlotTimeout chain ms status s
  | .chainAbort chain => Sys2Proof.Machine.execChainAbort chain s
  | .runaheadResume chain => Sys2Proof.Machine.execRunaheadResume chain s
  | .hbmRead addr owner port phase => Sys2Proof.Machine.execHbmRead addr owner port phase s
  | .hbmWrite addr owner port data mask phase => Sys2Proof.Machine.execHbmWrite addr owner port data mask phase s
  | .correctionWriteback turn => Sys2Proof.Machine.execCorrectionWriteback turn s
  | .heldRequestEnter controller pc => Sys2Proof.Machine.execHeldRequestEnter controller pc s
  | .ecsCountRead controller count => Sys2Proof.Machine.execEcsCountRead controller count s
  | .stackTempRead controller temp => Sys2Proof.Machine.execStackTempRead controller temp s
  | .scrubStart die value => Sys2Proof.Machine.execScrubStart die value s
  | .scrubSectorRead die noise checkNoise severity => Sys2Proof.Machine.execScrubSectorRead die noise checkNoise severity s
  | .scrubComplete die => Sys2Proof.Machine.execScrubComplete die s
  | .calibrationRequest die value => Sys2Proof.Machine.execCalibrationRequest die value s
  | .selfTestRequest die value => Sys2Proof.Machine.execSelfTestRequest die value s
  | .refreshRateRequest die value => Sys2Proof.Machine.execRefreshRateRequest die value s
  | .maintRequestEntry die => Sys2Proof.Machine.execMaintRequestEntry die s
  | .maintAdmit die freed => Sys2Proof.Machine.execMaintAdmit die freed s
  | .calGroupOut die group => Sys2Proof.Machine.execCalGroupOut die group s
  | .calGroupReturn die group => Sys2Proof.Machine.execCalGroupReturn die group s
  | .calPeriodExpiry die group => Sys2Proof.Machine.execCalPeriodExpiry die group s
  | .selfTestDone die cluster fail => Sys2Proof.Machine.execSelfTestDone die cluster fail s
  | .frameRequest owner tier die vpage chain => Sys2Proof.Machine.execFrameRequest owner tier die vpage chain s
  | .frameRequestRetry die => Sys2Proof.Machine.execFrameRequestRetry die s
  | .poolWaitTimeout die owner vpage ms => Sys2Proof.Machine.execPoolWaitTimeout die owner vpage ms s
  | .moveSwitch frame => Sys2Proof.Machine.execMoveSwitch frame s
  | .move die value => Sys2Proof.Machine.execMove die value s
  | .pin die value => Sys2Proof.Machine.execPin die value s
  | .unpin die value => Sys2Proof.Machine.execUnpin die value s
  | .windowLift die launch entry gathered => Sys2Proof.Machine.execWindowLift die launch entry gathered s
  | .sectorRebuild addr => Sys2Proof.Machine.execSectorRebuild addr s
  | .rebuildTimeout addr ms failed => Sys2Proof.Machine.execRebuildTimeout addr ms failed s
  | .shelfUnreachable first count => Sys2Proof.Machine.execShelfUnreachable first count s
  | .swapInvocation die owner => Sys2Proof.Machine.execSwapInvocation die owner s
  | .flitTransmit link => Sys2Proof.Machine.execFlitTransmit link s
  | .dataFlitReceive link flit again => Sys2Proof.Machine.execDataFlitReceive link flit again s
  | .nak link flit => Sys2Proof.Machine.execNak link flit s
  | .retryTimerExpiry link waited => Sys2Proof.Machine.execRetryTimerExpiry link waited s
  | .linkEnable link value => Sys2Proof.Machine.execLinkEnable link value s
  | .signalDetect link => Sys2Proof.Machine.execSignalDetect link s
  | .signalLost link => Sys2Proof.Machine.execSignalLost link s
  | .phyTrainDone link loss => Sys2Proof.Machine.execPhyTrainDone link loss s
  | .phyTrainTimeout link ms => Sys2Proof.Machine.execPhyTrainTimeout link ms s
  | .capabilitySend link => Sys2Proof.Machine.execCapabilitySend link s
  | .capability link flit => Sys2Proof.Machine.execCapability link flit s
  | .echoRequest link flit => Sys2Proof.Machine.execEchoRequest link flit s
  | .echoRequestSend link => Sys2Proof.Machine.execEchoRequestSend link s
  | .echoReply link flit rtt => Sys2Proof.Machine.execEchoReply link flit rtt s
  | .recoveryDone link => Sys2Proof.Machine.execRecoveryDone link s
  | .linkRecoverTimeout link ms => Sys2Proof.Machine.execLinkRecoverTimeout link ms s
  | .put link header lines => Sys2Proof.Machine.execPut link header lines s
  | .getReq link header => Sys2Proof.Machine.execGetReq link header s
  | .getData header lines => Sys2Proof.Machine.execGetData header lines s
  | .accept header => Sys2Proof.Machine.execAccept header s
  | .refuse header => Sys2Proof.Machine.execRefuse header s
  | .landed header => Sys2Proof.Machine.execLanded header s
  | .reline header => Sys2Proof.Machine.execReline header s
  | .lost header => Sys2Proof.Machine.execLost header s
  | .rebuildReq header => Sys2Proof.Machine.execRebuildReq header s
  | .rebuildData header line => Sys2Proof.Machine.execRebuildData header line s
  | .msgResponseTimeout atTarget tag pkg ms => Sys2Proof.Machine.execMsgResponseTimeout atTarget tag pkg ms s
  | .ringSlotAccept die => Sys2Proof.Machine.execRingSlotAccept die s
  | .windowOpen die value => Sys2Proof.Machine.execWindowOpen die value s
  | .windowClose die value => Sys2Proof.Machine.execWindowClose die value s
  | .windowCloseRecord die entry => Sys2Proof.Machine.execWindowCloseRecord die entry s
  | .messageForward die header lines => Sys2Proof.Machine.execMessageForward die header lines s
  | .heldMessageRelease die => Sys2Proof.Machine.execHeldMessageRelease die s
  | .allReduce cluster launch image => Sys2Proof.Machine.execAllReduce cluster launch image s
  | .reduceScatter cluster launch image => Sys2Proof.Machine.execReduceScatter cluster launch image s
  | .allGather cluster launch image => Sys2Proof.Machine.execAllGather cluster launch image s
  | .allToAll cluster launch image => Sys2Proof.Machine.execAllToAll cluster launch image s
  | .permute cluster launch image => Sys2Proof.Machine.execPermute cluster launch image s
  | .broadcast cluster launch image => Sys2Proof.Machine.execBroadcast cluster launch image s
  | .ring cluster launch image => Sys2Proof.Machine.execRing cluster launch image s
  | .nfCheck cluster launch image => Sys2Proof.Machine.execNfCheck cluster launch image s
  | .collData header lines => Sys2Proof.Machine.execCollData header lines s
  | .collPrepass header lines => Sys2Proof.Machine.execCollPrepass header lines s
  | .ringBlock header lines => Sys2Proof.Machine.execRingBlock header lines s
  | .collAbort header => Sys2Proof.Machine.execCollAbort header s
  | .ringStepBoundary cluster launch => Sys2Proof.Machine.execRingStepBoundary cluster launch s
  | .collectiveCommit cluster launch => Sys2Proof.Machine.execCollectiveCommit cluster launch s
  | .collPeerTimeout cluster launch ms => Sys2Proof.Machine.execCollPeerTimeout cluster launch ms s
  | .groupEntryWrite die group word value => Sys2Proof.Machine.execGroupEntryWrite die group word value s
  | .collMemberGenSet die value => Sys2Proof.Machine.execCollMemberGenSet die value s
  | .flashBoundary => Sys2Proof.Machine.execFlashBoundary s
  | .nowRecordLive index => Sys2Proof.Machine.execNowRecordLive index s
  | .recordArm index first second => Sys2Proof.Machine.execRecordArm index first second s
  | .recordLaunch index => Sys2Proof.Machine.execRecordLaunch index s
  | .preemptionPoint e task words => Sys2Proof.Machine.execPreemptionPoint e task words s
  | .preemptSaveDone e task => Sys2Proof.Machine.execPreemptSaveDone e task s
  | .contextRestore e task => Sys2Proof.Machine.execContextRestore e task s
  | .quietWindowClose => Sys2Proof.Machine.execQuietWindowClose s
  | .recordEnd index => Sys2Proof.Machine.execRecordEnd index s
  | .cringRoom owner cons => Sys2Proof.Machine.execCringRoom owner cons s
  | .tokenSet value => Sys2Proof.Machine.execTokenSet value s
  | .tokenClear value => Sys2Proof.Machine.execTokenClear value s
  | .abortRecord die value => Sys2Proof.Machine.execAbortRecord die value s
  | .abortOwner die value => Sys2Proof.Machine.execAbortOwner die value s
  | .beamMarkSend link => Sys2Proof.Machine.execBeamMarkSend link s
  | .beamMark link flit => Sys2Proof.Machine.execBeamMark link flit s
  | .markLossTimeout => Sys2Proof.Machine.execMarkLossTimeout s
  | .beamHoldoverTimeout ms => Sys2Proof.Machine.execBeamHoldoverTimeout ms s
  | .daymarkTakeEffect index => Sys2Proof.Machine.execDaymarkTakeEffect index s
  | .pageCopyDone die failed => Sys2Proof.Machine.execPageCopyDone die failed s
  | .daymarkCommit index => Sys2Proof.Machine.execDaymarkCommit index s
  | .daymarkRestore die value => Sys2Proof.Machine.execDaymarkRestore die value s
  | .restoreEnd die fetched => Sys2Proof.Machine.execRestoreEnd die fetched s
  | .packageFailed pkg ms fatal owners ready plan => Sys2Proof.Machine.execPackageFailed pkg ms fatal owners ready plan s
  | .tableUpdate src value => Sys2Proof.Machine.execTableUpdate src value s
  | .criticalStateError die unit index double since copyBad => Sys2Proof.Machine.execCriticalStateError die unit index double since copyBad s
  | .readReq port txn => Sys2Proof.Machine.execReadReq port txn s
  | .readData port txn => Sys2Proof.Machine.execReadData port txn s
  | .write port txn => Sys2Proof.Machine.execWrite port txn s
  | .cfgRead port txn => Sys2Proof.Machine.execCfgRead port txn s
  | .cfgData port txn => Sys2Proof.Machine.execCfgData port txn s
  | .cfgWrite port txn => Sys2Proof.Machine.execCfgWrite port txn s
  | .post port txn item => Sys2Proof.Machine.execPost port txn item s
  | .event port txn => Sys2Proof.Machine.execEvent port txn s
  | .ucieRetrain port failed readers => Sys2Proof.Machine.execUcieRetrain port failed readers s
  | .poolXlatInv die value => Sys2Proof.Machine.execPoolXlatInv die value s
  | .xlatInvDone die => Sys2Proof.Machine.execXlatInvDone die s
  | .apertureAccess aperture offset access => Sys2Proof.Machine.execApertureAccess aperture offset access s
  | .configViewAccess offset value => Sys2Proof.Machine.execConfigViewAccess offset value s
  | .hostWindowAccess offset access linkUp work => Sys2Proof.Machine.execHostWindowAccess offset access linkUp work s
  | .keepBootCmd value => Sys2Proof.Machine.execKeepBootCmd value s
  | .keepSwIrq value => Sys2Proof.Machine.execKeepSwIrq value s
  | .irqHoldoffExpiry vector => Sys2Proof.Machine.execIrqHoldoffExpiry vector s
  | .hcmdPoll entries => Sys2Proof.Machine.execHcmdPoll entries s
  | .perst asserted => Sys2Proof.Machine.execPerst asserted s
  | .functionLevelReset => Sys2Proof.Machine.execFunctionLevelReset s
  | .shelfRescan src value devices => Sys2Proof.Machine.execShelfRescan src value devices s
  | .read src index sub offset => Sys2Proof.Machine.execRead src index sub offset s
  | .dictWrite src index sub offset last value => Sys2Proof.Machine.execDictWrite src index sub offset last value s
  | .describe src index sub => Sys2Proof.Machine.execDescribe src index sub s
  | .dictLock src value => Sys2Proof.Machine.execDictLock src value s
  | .dictStore src value => Sys2Proof.Machine.execDictStore src value s
  | .resetRequest src value => Sys2Proof.Machine.execResetRequest src value s
  | .resetRequestDelayExpiry => Sys2Proof.Machine.execResetRequestDelayExpiry s
  | .powerMode src value => Sys2Proof.Machine.execPowerMode src value s
  | .subMode src value => Sys2Proof.Machine.execSubMode src value s
  | .modeChangeResume => Sys2Proof.Machine.execModeChangeResume s
  | .dictReq frame => Sys2Proof.Machine.execDictReq frame s
  | .dictRsp frame => Sys2Proof.Machine.execDictRsp frame s
  | .fog arrival => Sys2Proof.Machine.execFog arrival s
  | .reset frame => Sys2Proof.Machine.execReset frame s
  | .coarseBeam frame => Sys2Proof.Machine.execCoarseBeam frame s
  | .presence frame => Sys2Proof.Machine.execPresence frame s
  | .presenceSend => Sys2Proof.Machine.execPresenceSend s
  | .coarseBeamSend => Sys2Proof.Machine.execCoarseBeamSend s
  | .fogSend src value => Sys2Proof.Machine.execFogSend src value s
  | .railOutOfWindow rail us => Sys2Proof.Machine.execRailOutOfWindow rail us s
  | .porN low => Sys2Proof.Machine.execPorN low s
  | .releaseStep input => Sys2Proof.Machine.execReleaseStep input s
  | .fabricTrainTimeout ms => Sys2Proof.Machine.execFabricTrainTimeout ms s
  | .governorInterval reading => Sys2Proof.Machine.execGovernorInterval reading s
  | .droopDetect die => Sys2Proof.Machine.execDroopDetect die s
  | .hbmRamp controller waited => Sys2Proof.Machine.execHbmRamp controller waited s
  | .tempSample reading => Sys2Proof.Machine.execTempSample reading s
  | .thermalRelease reading => Sys2Proof.Machine.execThermalRelease reading s
  | .watchdogExpiry serviced => Sys2Proof.Machine.execWatchdogExpiry serviced s
  | .rstBlockCmd die value => Sys2Proof.Machine.execRstBlockCmd die value s
  | .blockResetExecute block us outstanding => Sys2Proof.Machine.execBlockResetExecute block us outstanding s
  | .blockResetRelease block => Sys2Proof.Machine.execBlockResetRelease block s
  | .fwUpdate src chunk => Sys2Proof.Machine.execFwUpdate src chunk s
  | .fwVerifyDone => Sys2Proof.Machine.execFwVerifyDone s
  | .svnCommit src value => Sys2Proof.Machine.execSvnCommit src value s
  | .debugChallenge src => Sys2Proof.Machine.execDebugChallenge src s
  | .debugUnlock src value => Sys2Proof.Machine.execDebugUnlock src value s
  | .spdmRequest endpoint code transcript => Sys2Proof.Machine.execSpdmRequest endpoint code transcript s
  | .traceSinkWrite die source hostFail => Sys2Proof.Machine.execTraceSinkWrite die source hostFail s
  | .registerWrite addr value => Sys2Proof.Machine.execRegisterWrite addr value s
  | .nullFlit link flit => Sys2Proof.Machine.execNullFlit link flit s
  | .windowLiftComplete die launch entry slot => Sys2Proof.Machine.execWindowLiftComplete die launch entry slot s
  | .gallerySetLoadDone die owner loaded => Sys2Proof.Machine.execGallerySetLoadDone die owner loaded s
  | .ucieRetrainDone port failed readers => Sys2Proof.Machine.execUcieRetrainDone port failed readers s

end Sys2Proof.Machine
end

