-- ==== Sys2Proof/Machine/Tick.lean ====
section
/-!
DEFINITION. One ACLK cycle on an empty queue (log entry 1): the cycle counters of the engines, the chains, the pool, the links, the
collective engines and the governor, the end of a droop hold, the beam counter's advance, and what waits for nothing but time.
-/
namespace Sys2Proof.Machine

/-! ## What an engine does in a cycle (R829, R830) -/

/-- R829: groups in flight, a ramp or the wait for its window, or a front stall. -/
def State.arrayBusy (s : State) (e : Nat) : Bool :=
  !(s.eng e).flight.isEmpty || s.fld engArrayStatusRamping e == 1 || s.fld engArrayStatusWindowWait e == 1 ||
    s.fld engArrayStatusFrontStall e == 1

/-- R763: the governor holds array issue in the last cycles of every 8 (log entry 41). -/
def State.issueHeld8 (s : State) (die : Nat) : Bool := decide (8 ≤ s.cyc % 8 + min 4 (s.fld pwrStatusLevel die))

/-- Whether an engine has array work that could issue. -/
def State.hasIssue (s : State) (e : Nat) : Bool := (s.eng e).held.isSome || (s.eng e).tileOpen

/-- Cause THERMAL: the governor holds issue, a droop hold is active or a mode change pauses the engines. -/
def State.idleThermal (s : State) (e : Nat) : Bool :=
  let p := s.powerDie (engDie e)
  decide (0 < p.hold) || p.paused || (s.issueHeld8 (engDie e) && s.hasIssue e)

/-- Cause OFFLINE: a block reset of the engine's cluster or region, or a self-test of its cluster (R408). -/
def State.idleOffline (s : State) (e : Nat) : Bool :=
  s.inReset (engCluster e) ||
    (s.arb (engDie e)).acts.any fun a => a.kind == 3 && a.running && a.scope == engCluster e % 12

/-- Cause PREEMPT: a save of live ranges is under way (R620). -/
def State.idlePreempt (s : State) (e : Nat) : Bool := s.beam.saved.any fun x => x.engine == e && !x.done

/-- Whether the reads of the item in progress of a context's task are under way: the task runs and its tile waits. -/
def State.taskWaits (s : State) (e t : Nat) : Bool := s.taskState e t == 3 || (s.taskState e t == 1 && s.loadsOpen e t)

/-- R830: the selected task among those that wait. -/
def State.selectedWait (s : State) (e : Nat) : Option Nat :=
  let order := (s.eng e).waiters ++ [0, 1, 2, 3]
  (order.filter fun t => s.taskWaits e t).foldl (fun (best : Option Nat) t => match best with
    | none => some t
    | some b => if s.taskPrio e b < s.taskPrio e t then some t else some b) none

/-- Whether a stage waits on a fabric response (R491). -/
def State.waitsFabric (s : State) (c : Chain) (k : Nat) : Bool := s.sentMsgs.any fun m => m.chain == some c.ref && m.stage == k

/-- Whether a gallery bank holds a request of a stage at its port (R276). -/
def State.bankHolds (s : State) (w : Writer) : Bool := s.sram.banks.any fun b => b.2.held.any fun r => r.who == some w

/-- The tier and cause of R445 under which a stage waits, if it waits for a tier only: a write for its page's first-touch copy (R363), its
item's reads (R284, R405, R446, R454), a request held at a gallery bank, or the gallery's contents where nothing else stops its next item
(R440, R455). -/
def State.tierWait (s : State) (c : Chain) (k : Nat) (g : Stage) : Option (Nat × Nat) :=
  if c.waiting || c.stopped || g.away then none
  else match s.heldWrites.find? fun w => w.by_.who == some ⟨c.ref, k⟩ with
  | some w => some (s.tierOf w.addr, 5)
  | none => match s.sram.refetch.find? fun r => r.reader == c.ref && r.stage == k with
    | some r => some (r.tier, 7)
    | none =>
      if g.todo then g.cause
      else if s.bankHolds ⟨c.ref, k⟩ then some (0, 0)
      else if s.itemReady c k g && !s.planReady c then
        some (0, if s.swapWaits (cluDie c.cluster) c.owner then 4 else 2)
      else none

/-- Whether a stage waits on a tier: as `tierWait` says, or its chain for a frame (R429). -/
def State.waitsTier (s : State) (c : Chain) (k : Nat) (g : Stage) : Bool :=
  (s.tierWait c k g).isSome || s.pool.waiting.any fun r => r.chain == some c.ref

/-- Whether a running RING command feeds a chain's external head (R552). -/
def State.ringFeeds (s : State) (c : Chain) (k : Coll) : Bool := k.op == 6 && (s.fedChain k).any fun d => d.ref == c.ref

/-- The link of a die that a PEER wait of a chain is attributed to (R831): that of the RING command which feeds its external head, or of the
window response it waits for; an item that a window delivers comes on no link that the package knows, and counts under 8 (log entry 96). -/
def State.peerLink (s : State) (c : Chain) : Nat :=
  match s.coll.running.find? (s.ringFeeds c) with
  | some k => s.collLink k
  | none =>
    match s.sentMsgs.find? fun m => m.chain == some c.ref with
    | some m =>
      match s.routeLink (cluDie c.cluster) m.pkg with
      | some l => l % 8
      | none => 8
    | none => 8

/-- What a cycle of an engine is charged to: 0 busy, 1 + n idle of cause n, with the link of a PEER wait. -/
def State.chargeOf (s : State) (e : Nat) : Nat × Nat :=
  if s.arrayBusy e then (0, 8)
  else if s.idleThermal e then (1, 8)
  else if s.idleOffline e then (2, 8)
  else if s.idlePreempt e then (3, 8)
  else if [0, 1, 2, 3].any (fun t => (s.taskState e t == 1 || s.taskState e t == 2) && !s.taskWaits e t) then (0, 8)
  else
    match s.selectedWait e with
    | none => (7, 8)
    | some t =>
      match s.chainOfTask e t with
      | none => (6, 8)
      | some (c, k) =>
        if (k == 1 && s.waitsExternal c) || s.waitsFabric c k then (4, s.peerLink c)
        else match c.stages[k]? with
          | some g => if s.waitsTier c k g then (5, 8) else (6, 8)
          | none => (6, 8)

/-- One cycle of an engine charged (R828, R831). -/
def State.chargeEngine (s : State) (e : Nat) : State :=
  let die := engDie e
  let (k, link) := s.chargeOf e
  let s := s.bump .engClkCyc e 0 1
  if k = 0 then (s.bump .engBusyCyc e 0 1).bump .ctrBusySum die 0 1
  else
    let s := (s.bump .engIdleCyc e (k - 1) 1).bump .ctrIdleSum die (k - 1) 1
    if k = 4 then s.bump .ctrPeerLinkCyc die link 1 else s

/-- The engines of a die. -/
def State.chargeDie (s : State) (die : Nat) : State := (List.range 48).foldl (fun s k => s.chargeEngine (die * 48 + k)) s

/-! ## Waits (R345, R347, R445, R505, R509, R566) -/

/-- The slot waits of a stage; a wait for a block of the collective engine is a peer wait (R566). -/
def State.countStage (s : State) (c : Chain) (k : Nat) (g : Stage) : State :=
  if g.busy || g.away || decide (c.items ≤ g.started) then s
  else
    let noIn := !s.inFull c k g.started true && !(k == 1 && s.coll.running.any (s.ringFeeds c))
    let noOut := !s.outEmpty c k g.started true
    if g.kind = 0 then
      let e := engIndex g.engine
      let s := if noIn then s.bump .engSlotInWaitCnt e 0 1 else s
      if noOut then s.bump .engSlotOutWaitCnt e 0 1 else s
    else if (g.kind = 1 ∨ g.kind = 3) ∧ noOut = true then s.bump .cluHeadHoldCyc c.cluster 0 1
    else s

/-- The tier wait of a stage (R445). -/
def State.countTier (s : State) (c : Chain) (k : Nat) (g : Stage) : State :=
  match s.tierWait c k g with
  | some (tier, cause) => s.bump .poolStallCyc (cluDie c.cluster) (tier * 8 + cause) 1
  | none => s

/-- The waits of a chain's stages. -/
def State.countChain (s : State) (c : Chain) : State :=
  if c.waiting || c.stopped then s
  else c.stages.zipIdx.foldl (fun s x => (s.countStage c x.2 x.1).countTier c x.2 x.1) s

/-- R445, R429: chains that wait for a frame, each once in a tier. -/
def State.countPool (s : State) : State :=
  ((s.pool.waiting.filter fun r => r.chain.isSome).map fun r => (r.die, r.tier, r.chain)).eraseDups.foldl
    (fun s r => s.bump .poolStallCyc r.1 (r.2.1 * 8 + 3) 1) s

/-- R474, R476, R509: cycles of a link with a full retry buffer, and of a VC with bytes to send and no credit. -/
def State.countLink (s : State) (l : Nat) : State :=
  if s.linkState l ≠ 5 then s
  else
    let x := s.link l
    let s := if 1024 ≤ x.retry.length then s.bump .fabRetryFullCyc l 0 1 else s
    (List.range 4).foldl (fun s v =>
      if !(x.tx v).isEmpty && x.credits.getD v 0 == 0 then s.bump .fabCreditWaitCyc l v 1 else s) s

/-- R505: headers that wait for a ring slot. -/
def State.countRing (s : State) (die : Nat) : State :=
  if s.fabric.ringWaits.any (·.die == die) then s.bump .winRingWaitCyc die 0 1 else s

/-- R566: a collective that waits for a piece, block or accumulator. -/
def State.countColl (s : State) (c : Coll) : State :=
  let waits := if c.op = 6 then c.place.isEmpty else decide (c.got < c.need)
  if waits then s.bump .collPeerWaitCyc c.die (s.collLink c) 1 else s

/-! ## The governor and droop holds (R763, R766, R767) -/

/-- Whether a stack's admission is held in this cycle: its cap admits that share of the cycles (log entry 41). -/
def State.stackHeld (s : State) (k : Nat) : Bool :=
  let cap := (s.powerStack k).cap
  decide (cap < 2 ^ 32) && (s.cyc + 1) * cap / 2 ^ 32 == s.cyc * cap / 2 ^ 32 &&
    (List.range 32).any fun pc => !(s.chan k pc).queue.isEmpty

def State.countThrottle (s : State) (die : Nat) : State :=
  let array := s.issueHeld8 die && (List.range 48).any fun k => s.hasIssue (die * 48 + k)
  let stack := (List.range 4).any fun k => s.stackHeld (die * 4 + k)
  if array || stack then s.bump .pwrThrottleCyc die 0 1 else s

/-- A cycle of an engine's array: a ramp-up goes on, and the pass issuing goes on unless a droop holds issue (R152, R767, R864). -/
def State.arrayTick (s : State) (e : Nat) : State :=
  let s := s.rampTick e
  let x := s.eng e
  if x.issueLeft = 0 ∨ 0 < (s.powerDie (engDie e)).hold then s else s.setEng e { x with issueLeft := x.issueLeft - 1 }

/-- A droop hold and the millisecond after it count down; at the hold's end the die's engines go on (R767). -/
def State.droopTick (s : State) (die : Nat) : State :=
  let p := s.powerDie die
  let s := s.setPowerDie die { p with hold := p.hold - 1, longRamp := p.longRamp - 1 }
  if p.hold = 1 then s.dieGoesOn die else s

/-! ## The beam (R571, R579, R580) -/

/-- R571: what a cycle of the 100 MHz reference clock adds, by the period in µs: round(2^64 × 10 ns / period). -/
def refInc (period : Nat) : Nat := if period = 0 then 0 else (2 ^ 65 + 100 * period) / (200 * period)

/-- The slewing of one reference cycle, at most 100 ppm of its advance (R579). -/
def slewStep (inc : Nat) (slew : Int) : Int := max (-((inc / 10000 : Nat) : Int)) (min ((inc / 10000 : Nat) : Int) slew)

/-- A reference cycle: the counter advances, slewed in LOCKED and HOLDOVER, or is held until the true beam reaches it. -/
def State.refEdge (s : State) : State :=
  if s.beamState = 0 then s
  else
    let inc := refInc s.beam.period
    let now := s.beam.counter.toNat
    match s.beam.hold with
    | some t =>
      if now ≤ t + inc then
        let s := { s with beam := { s.beam with hold := none } }
        s.stepBeam (t + inc)
      else { s with beam := { s.beam with hold := some (t + inc) } }
    | none =>
      let d := if s.beamState = 2 ∨ s.beamState = 3 then slewStep inc s.beam.slew else 0
      let s := { s with beam := { s.beam with slew := s.beam.slew - d } }
      s.stepBeam (now + ((inc : Int) + d).toNat)

/-- The beam's part of an ACLK cycle: a reference cycle where one begins within it. -/
def State.beamTick (s : State) : State :=
  let f := s.aclkMhz 0
  let edge := (s.cyc + 1) * 100 / f != s.cyc * 100 / f
  let s := { s with cyc := s.cyc + 1 }
  if edge then s.refEdge else s

/-! ## The cycle -/

/-- Block resets under way grow older (R781). -/
def State.resetTick (s : State) : State :=
  let older (b : BlockReset) : BlockReset := { b with cycles := b.cycles + 1 }
  { s with resets := { s.resets with blocks := s.resets.blocks.map older } }

/-- RING commands place what they hold (R552). -/
def State.ringTick (s : State) : State :=
  s.coll.running.foldl (fun s c =>
    if c.op = 6 then
      (match s.findColl c.cluster c.launch with
       | some c => s.placeItems c.cluster c.launch c.place.length
       | none => s)
    else s) s

/-- A cycle's share of the gallery bandwidth given back to a die's trace sink (R838). -/
def State.sinkTick (s : State) (die : Nat) : State :=
  let n := lookupD 0 die s.sram.sinkUse - s.fld ctrTraceCfgShare die
  { s with sram := { s.sram with sinkUse := putD 0 die n s.sram.sinkUse } }

/-- The counters of one cycle. -/
def State.countCycle (s : State) : State :=
  let s := (modeDies s.modeNow).foldl (fun (s : State) d => ((s.chargeDie d).countThrottle d).countRing d) s
  let s := s.chains.foldl (fun s c => s.countChain c) s
  let s := s.countPool
  let s := (List.range 16).foldl (fun s l => s.countLink l) s
  s.coll.running.foldl (fun s c => s.countColl c) s

/-- One ACLK cycle; none passes while the package is held in reset. -/
def State.tick (s : State) : State :=
  if s.heldInReset then s
  else
    let s := (if s.heldWrites.any s.releasable then s.reissue s.releasable else s).settleTable.settleColls.enterCopiers
    let s := (s.countCycle.resetTick.sinkTick 0).sinkTick 1
    let s := (modeDies s.modeNow).foldl (fun (s : State) d => ((List.range 48).foldl (fun s k => s.arrayTick (d * 48 + k)) s).droopTick d) s
    s.ringTick.beamTick.fogTick

end Sys2Proof.Machine
end

