-- ==== Sys2Proof/Safety.lean ====
section
/-!
DEFINITION. The terms in which claims about the package are stated: the parts of the state (`Cell`), what a command leaves unchanged,
what a command answers, and the states in which memory and the fuses are sound.
-/
namespace Sys2Proof.Machine

/-- The parts of the state that a footprint names: each register, and each other field but the queue. -/
inductive Cell where
  | reg (r : Reg)
  | mem
  | lens
  | badCheck
  | hbmDelta
  | poison
  | engines
  | chains
  | seqs
  | reruns
  | regens
  | sram
  | hbm
  | pool
  | beam
  | dict
  | dictBytes
  | fuses
  | order
  | lid
  | heldWrites
  | sentMsgs
  | msgNum
  | trace
  | fabric
  | coll
  | host
  | daymarks
  | copying
  | restores
  | power
  | resets
  | mooring
  | flash
  | security
  | keeper
  | cyc
  | free
  deriving DecidableEq, Repr

/-- Two states agree on a cell. -/
def Cell.same (s t : State) : Cell → Prop
  | .reg r => ∀ u i, t.rd r u i = s.rd r u i
  | .mem => t.mem = s.mem
  | .lens => t.lens = s.lens
  | .badCheck => t.badCheck = s.badCheck
  | .hbmDelta => t.hbmDelta = s.hbmDelta
  | .poison => t.poison = s.poison
  | .engines => t.engines = s.engines
  | .chains => t.chains = s.chains
  | .seqs => t.seqs = s.seqs
  | .reruns => t.reruns = s.reruns
  | .regens => t.regens = s.regens
  | .sram => t.sram = s.sram
  | .hbm => t.hbm = s.hbm
  | .pool => t.pool = s.pool
  | .beam => t.beam = s.beam
  | .dict => t.dict = s.dict
  | .dictBytes => t.dictBytes = s.dictBytes
  | .fuses => t.fuses = s.fuses
  | .order => t.order = s.order
  | .lid => t.lid = s.lid
  | .heldWrites => t.heldWrites = s.heldWrites
  | .sentMsgs => t.sentMsgs = s.sentMsgs
  | .msgNum => t.msgNum = s.msgNum
  | .trace => t.trace = s.trace
  | .fabric => t.fabric = s.fabric
  | .coll => t.coll = s.coll
  | .host => t.host = s.host
  | .daymarks => t.daymarks = s.daymarks
  | .copying => t.copying = s.copying
  | .restores => t.restores = s.restores
  | .power => t.power = s.power
  | .resets => t.resets = s.resets
  | .mooring => t.mooring = s.mooring
  | .flash => t.flash = s.flash
  | .security => t.security = s.security
  | .keeper => t.keeper = s.keeper
  | .cyc => t.cyc = s.cyc
  | .free => t.free = s.free

/-! ## Sound states -/

/-- The canonical form of memory: addresses strictly rising, and no byte equal to what an unlisted address reads as. -/
def Memory.wf (m : List Host.Cell) : Bool := canonical 0#8 m

/-- A state whose sparse memories are in canonical form: device memory, the lens buffers, and the check symbols of HBM sectors. -/
structure State.Sound (s : State) : Prop where
  mem : Memory.wf s.mem = true
  lens : canonical 0#8 s.lens = true
  delta : canonical 0#16 s.hbmDelta = true

/-! ## What a command does -/

/-- The command answers a next state, and that state is as `P` says. -/
def Gives (c : Instr) (s : State) (P : State → Prop) : Prop := ∃ t, exec c s = .next t ∧ P t

/-- Everything but the cells listed is as before, and so is the queue. -/
def LeavesAllBut (L : List Cell) (s t : State) : Prop := t.pending = s.pending ∧ ∀ c, c ∉ L → c.same s t

/-- An engine whose next pass or mark of a context begins at once: its die runs, no pass is held, nothing is queued, no mode change stops it,
and no read of the context's item is under way. -/
abbrev EngineOpen (s : State) (e task : Nat) : Prop :=
  s.dieRuns (engDie e) = true ∧ (s.eng e).held = none ∧ (s.eng e).queue = [] ∧ s.stopped e = false ∧ s.loadsOpen e task = false

/-- No byte of an engine's lens buffers fails its check bit, and no sector of them has the poison flag. -/
abbrev LensClean (s : State) (e : Nat) : Prop :=
  (∀ k ∈ s.badCheck, k < 2 ^ 48 + e * 2097152 ∨ 2 ^ 48 + e * 2097152 + 2097152 ≤ k) ∧
  (∀ k ∈ s.poison, k < (2 ^ 48 + e * 2097152) / 32 ∨ (2 ^ 48 + e * 2097152 + 2097152) / 32 ≤ k)

/-- An engine whose next vector command of a context begins at once and runs: besides, no pass of the context is in flight, and the lens
buffers are clean. -/
abbrev EngineFree (s : State) (e task : Nat) : Prop :=
  EngineOpen s e task ∧ (∀ f ∈ (s.eng e).flight, f.task ≠ task) ∧ LensClean s e

/-- No stage of a chain has reads that wait. -/
def State.noneTodo (s : State) : Bool := s.chains.all fun c => c.stages.all fun g => !g.todo

/-- Reads change no byte: no request but write-backs waits at a controller, and no SRAM byte fails its check bit. -/
def State.readsQuiet (s : State) : Bool := s.badCheck.isEmpty && s.hbm.chans.all fun p => p.2.queue.all fun r => r.wb

/-- No request waits in a controller's queue for a sector of a run of bytes; write-backs apart. -/
def State.noneQueued (s : State) (pa n : Nat) : Bool :=
  s.hbm.chans.all fun p => p.2.queue.all fun r => r.wb || !(decide (pa / 32 ≤ r.addr / 32) && decide (r.addr < pa + n))

/-- A write of a run of bytes is stored at once: no hole, no host window that fails, no protected page, no channel group taken out. -/
def State.takesNow (s : State) (pa n : Nat) : Bool :=
  !s.isHole pa && !s.hostFails pa && !(s.frame (pa / 65536)).prot && !s.groupHeld pa n

/-- The lens buffers hold the results of a vector command, converted to FMT_D and packed at D_ADDR, and are otherwise those of `s`; device
memory is that of `s`. -/
abbrev LensHolds (s t : State) (e : Nat) (v : VecCmd) (rows : List (List VecResult)) : Prop :=
  t.lens = (s.lensPut e (v.d * 64)
    (packElems v.fmtD (rows.flatten.map fun x => (encodeElem v.fmtD .nearestEven false 0 (dec32 x.bits)).1))).lens ∧ t.mem = s.mem

/-- The dictionary server takes a write of an entry by a source: it runs, the request repeats none, and the entry takes that source's
writes. -/
abbrev ServerTakes (s : State) (src : DictSource) (key : Nat) : Prop :=
  s.serverOff = false ∧ s.repeated src = none ∧ 5 ≤ s.resets.step ∧ s.accepts src key = true

/-- One result per element of a command's operand: row by row. -/
def grid (v : VecCmd) (f : Nat → Nat → VecResult) : List (List VecResult) :=
  (List.range v.rows).map fun r => (List.range v.cols).map fun c => f r c

/-- The vector commands, as functions of the engine, the task context and the command image. -/
def vectorCommands : List (EngId → Fin 4 → Words4 → Instr) :=
  [.nop, .add, .sub, .mul, .fma, .max, .min, .abs, .neg, .copy, .rowsum, .rowmax, .rownorm, .knorm, .func, .deriv, .smxUpdate, .smxProb,
   .rowScale, .skipDecide, .skipReplay, .dropout, .randUniform, .flagsClear, .flagsGet]

end Sys2Proof.Machine
end

