-- ==== Sys2Proof/Machine/Footprint.lean ====
section
/-!
DEFINITION. The parts of the state that each command may change: what the frame statement is about. The meanings do not rest on it.
-/
namespace Sys2Proof.Machine

/-- Every part of the state but those listed. -/
def Cell.allBut (L : List Cell) : List Cell :=
  ((allRegs.map Cell.reg) ++ ([.mem, .lens, .badCheck, .hbmDelta, .poison, .engines, .chains, .seqs, .reruns, .regens, .sram, .hbm,
    .pool, .beam, .dict, .dictBytes, .fuses, .order, .lid, .heldWrites, .sentMsgs, .msgNum, .trace, .fabric,
    .coll, .host, .daymarks, .copying, .restores, .power, .resets, .mooring, .flash, .security, .keeper, .cyc,
    .free] : List Cell)).filter fun c => !L.contains c

/-- The parts of the state that a command may change, whatever its operands and the state. -/
def touches : Instr → List Cell
  | .pass .. =>
    [.mem, .lens, .badCheck, .hbmDelta, .poison, .engines, .chains, .seqs, .reruns, .sram, .hbm, .pool, .beam, .dict, .heldWrites,
      .sentMsgs, .msgNum, .trace, .host, .free, .reg .engArrayStatus, .reg .engArrayIssueCnt, .reg .engRngOutputCnt,
      .reg .engLensConflictCnt, .reg .engLensParityCnt, .reg .engLensParityLog, .reg .engTaskState, .reg .engConvCnt,
      .reg .cluCkptRegenFailCnt, .reg .cluChainEndCnt, .reg .cluExtentMaskCnt, .reg .cluDescClampCnt, .reg .cluChainLog,
      .reg .cluSlotTokens, .reg .galCapHoldCnt, .reg .galSlotTokens, .reg .galFlagEntry, .reg .hbmcCeCnt, .reg .hbmcUeCnt,
      .reg .hbmcPoisonMarkCnt, .reg .hbmcSevUeCnt, .reg .hbmcWritebackCnt, .reg .hbmcPartialWrCnt, .reg .hbmcErrLog, .reg .poolMoveStatus,
      .reg .poolMoveCancelCnt, .reg .poolOwnerUse, .reg .poolXlatBadCnt, .reg .poolXlatRefusedCnt, .reg .ctrStackSectorCnt,
      .reg .ctrTraceLostCnt, .reg .keepHostwinErrCnt]
  | .tileMark .. | .chainAbort .. =>
    [.engines, .chains, .seqs, .beam, .heldWrites, .sentMsgs, .trace, .reg .engTaskState, .reg .cluChainEndCnt, .reg .cluChainLog,
      .reg .cluSlotTokens, .reg .galSlotTokens, .reg .ctrTraceLostCnt]
  | .passComplete .. =>
    [.mem, .lens, .badCheck, .hbmDelta, .poison, .engines, .chains, .seqs, .reruns, .sram, .hbm, .pool, .beam, .dict, .heldWrites,
      .sentMsgs, .msgNum, .trace, .host, .free, .reg .engArrayStatus, .reg .engArrayIssueCnt, .reg .engVecIssueCnt,
      .reg .engFuncResultCnt, .reg .engSkipDecideCnt, .reg .engSkipBlockCnt, .reg .engSkipReplayCnt, .reg .engSkipRowReplayCnt,
      .reg .engRngOutputCnt, .reg .engLensConflictCnt, .reg .engLensParityCnt, .reg .engLensParityLog, .reg .engTaskState,
      .reg .engMacCnt, .reg .engConvCnt, .reg .engVopCnt, .reg .cluCkptRegenFailCnt, .reg .cluChainEndCnt, .reg .cluExtentMaskCnt,
      .reg .cluDescClampCnt, .reg .cluChainLog, .reg .cluSlotTokens, .reg .galCapHoldCnt, .reg .galSlotTokens, .reg .galFlagEntry,
      .reg .hbmcCeCnt, .reg .hbmcUeCnt, .reg .hbmcPoisonMarkCnt, .reg .hbmcSevUeCnt, .reg .hbmcWritebackCnt, .reg .hbmcPartialWrCnt,
      .reg .hbmcErrLog, .reg .poolMoveStatus, .reg .poolMoveCancelCnt, .reg .poolOwnerUse, .reg .poolXlatBadCnt, .reg .poolXlatRefusedCnt,
      .reg .beamPreemptCnt, .reg .beamPreemptCyc, .reg .beamRecState, .reg .ctrStackSectorCnt, .reg .ctrTraceLostCnt,
      .reg .keepHostwinErrCnt]
  | .stationaryLoadDone .. =>
    [.mem, .lens, .badCheck, .hbmDelta, .poison, .engines, .chains, .seqs, .reruns, .sram, .hbm, .pool, .beam, .dict, .heldWrites,
      .sentMsgs, .msgNum, .trace, .host, .free, .reg .engArrayStatus, .reg .engArrayIssueCnt, .reg .engArrayFrontStallCnt,
      .reg .engVecIssueCnt, .reg .engFuncResultCnt, .reg .engSkipDecideCnt, .reg .engSkipBlockCnt, .reg .engSkipReplayCnt,
      .reg .engSkipRowReplayCnt, .reg .engRngOutputCnt, .reg .engLensConflictCnt, .reg .engLensParityCnt, .reg .engLensParityLog,
      .reg .engTaskState, .reg .engConvCnt, .reg .engVopCnt, .reg .cluCkptRegenFailCnt, .reg .cluChainEndCnt, .reg .cluExtentMaskCnt,
      .reg .cluDescClampCnt, .reg .cluChainLog, .reg .cluSlotTokens, .reg .galCapHoldCnt, .reg .galSlotTokens, .reg .galFlagEntry,
      .reg .hbmcCeCnt, .reg .hbmcUeCnt, .reg .hbmcPoisonMarkCnt, .reg .hbmcSevUeCnt, .reg .hbmcWritebackCnt, .reg .hbmcPartialWrCnt,
      .reg .hbmcErrLog, .reg .poolMoveStatus, .reg .poolMoveCancelCnt, .reg .poolOwnerUse, .reg .poolXlatBadCnt, .reg .poolXlatRefusedCnt,
      .reg .beamPreemptCnt, .reg .beamPreemptCyc, .reg .beamRecState, .reg .ctrStackSectorCnt, .reg .ctrTraceLostCnt,
      .reg .keepHostwinErrCnt]
  | .tileOverrun .. =>
    [.engines, .reg .engTileOverrunCnt]
  | .arrayRampDown .. =>
    [.engines, .reg .engArrayStatus, .reg .cluDescClampCnt]
  | .rampWindowStart .. =>
    [.engines, .reg .engArrayStatus, .reg .engArrayRampWaitCnt, .reg .engArrayRampCnt, .reg .cluDescClampCnt]
  | .rampUpEnd .. =>
    [.mem, .lens, .badCheck, .hbmDelta, .poison, .engines, .chains, .seqs, .reruns, .sram, .hbm, .pool, .beam, .dict, .heldWrites,
      .sentMsgs, .msgNum, .trace, .host, .free, .reg .engArrayStatus, .reg .engArrayIssueCnt, .reg .engVecIssueCnt,
      .reg .engFuncResultCnt, .reg .engSkipDecideCnt, .reg .engSkipBlockCnt, .reg .engSkipReplayCnt, .reg .engSkipRowReplayCnt,
      .reg .engRngOutputCnt, .reg .engLensConflictCnt, .reg .engLensParityCnt, .reg .engLensParityLog, .reg .engTaskState,
      .reg .engConvCnt, .reg .engVopCnt, .reg .cluCkptRegenFailCnt, .reg .cluChainEndCnt, .reg .cluExtentMaskCnt, .reg .cluDescClampCnt,
      .reg .cluChainLog, .reg .cluSlotTokens, .reg .galCapHoldCnt, .reg .galSlotTokens, .reg .galFlagEntry, .reg .hbmcCeCnt,
      .reg .hbmcUeCnt, .reg .hbmcPoisonMarkCnt, .reg .hbmcSevUeCnt, .reg .hbmcWritebackCnt, .reg .hbmcPartialWrCnt, .reg .hbmcErrLog,
      .reg .poolMoveStatus, .reg .poolMoveCancelCnt, .reg .poolOwnerUse, .reg .poolXlatBadCnt, .reg .poolXlatRefusedCnt,
      .reg .beamPreemptCnt, .reg .beamPreemptCyc, .reg .beamRecState, .reg .ctrStackSectorCnt, .reg .ctrTraceLostCnt,
      .reg .keepHostwinErrCnt]
  | .nop .. =>
    [.engines, .trace, .reg .engVopCnt, .reg .cluDescClampCnt, .reg .ctrTraceLostCnt]
  | .add .. | .sub .. | .mul .. | .fma .. | .max .. | .min .. | .abs .. | .neg .. | .copy .. | .rowsum .. | .rowmax ..
  | .rownorm .. | .knorm .. | .func .. | .deriv .. | .smxUpdate .. | .smxProb .. | .rowScale .. | .dropout ..
  | .randUniform .. =>
    [.mem, .lens, .badCheck, .hbmDelta, .poison, .engines, .chains, .seqs, .sram, .hbm, .pool, .beam, .dict, .heldWrites, .sentMsgs,
      .msgNum, .trace, .host, .free, .reg .engVecIssueCnt, .reg .engFuncResultCnt, .reg .engRngOutputCnt, .reg .engTaskState,
      .reg .engConvCnt, .reg .engVopCnt, .reg .cluCkptRegenFailCnt, .reg .cluChainEndCnt, .reg .cluExtentMaskCnt, .reg .cluDescClampCnt,
      .reg .cluChainLog, .reg .cluSlotTokens, .reg .galCapHoldCnt, .reg .galSlotTokens, .reg .galFlagEntry, .reg .hbmcCeCnt,
      .reg .hbmcUeCnt, .reg .hbmcPoisonMarkCnt, .reg .hbmcSevUeCnt, .reg .hbmcWritebackCnt, .reg .hbmcPartialWrCnt, .reg .hbmcErrLog,
      .reg .poolMoveStatus, .reg .poolMoveCancelCnt, .reg .poolOwnerUse, .reg .poolXlatBadCnt, .reg .poolXlatRefusedCnt,
      .reg .ctrStackSectorCnt, .reg .ctrTraceLostCnt, .reg .keepHostwinErrCnt]
  | .skipDecide .. =>
    [.lens, .badCheck, .poison, .engines, .trace, .reg .engVecIssueCnt, .reg .engFuncResultCnt, .reg .engSkipDecideCnt,
      .reg .engSkipBlockCnt, .reg .engVopCnt, .reg .cluDescClampCnt, .reg .ctrTraceLostCnt]
  | .skipReplay .. =>
    [.lens, .badCheck, .poison, .engines, .trace, .reg .engVecIssueCnt, .reg .engFuncResultCnt, .reg .engSkipReplayCnt,
      .reg .engSkipRowReplayCnt, .reg .engVopCnt, .reg .cluDescClampCnt, .reg .ctrTraceLostCnt]
  | .flagsClear .. =>
    [.engines, .trace, .reg .engVopCnt, .reg .cluDescClampCnt, .reg .galFlagEntry, .reg .ctrTraceLostCnt]
  | .flagsGet .. =>
    [.lens, .badCheck, .poison, .engines, .trace, .reg .engVopCnt, .reg .cluDescClampCnt, .reg .ctrTraceLostCnt]
  | .galFlagEntryClear .. =>
    [.reg .galFlagEntry]
  | .predictorCommitLaunch .. =>
    [.engines, .chains, .seqs, .sram, .pool, .beam, .heldWrites, .sentMsgs, .trace, .reg .engTaskState, .reg .cluCkptRegenFailCnt,
      .reg .cluPredCommitCnt, .reg .cluChainLaunchCnt, .reg .cluChainEndCnt, .reg .cluDescClampCnt, .reg .cluChainLog,
      .reg .cluSlotTokens, .reg .galSlotTokens, .reg .ctrTraceLostCnt]
  | .checkpointRegeneration .. =>
    [.engines, .chains, .seqs, .regens, .sram, .pool, .beam, .heldWrites, .sentMsgs, .trace, .reg .engTaskState, .reg .cluCkptRegenCnt,
      .reg .cluCkptRegenFailCnt, .reg .cluChainLaunchCnt, .reg .cluChainEndCnt, .reg .cluDescClampCnt, .reg .cluChainLog,
      .reg .cluSlotTokens, .reg .galSlotTokens, .reg .ctrTraceLostCnt]
  | .clusterBankGrant .. =>
    [.sram, .reg .cluMemSlotCnt]
  | .galleryBankGrant .. =>
    [.sram, .reg .galSlotCnt, .reg .galCapHoldCnt]
  | .parityError .. =>
    [.mem, .badCheck, .hbmDelta, .poison, .engines, .chains, .seqs, .reruns, .hbm, .beam, .heldWrites, .sentMsgs, .trace,
      .reg .engLensParityCnt, .reg .engLensParityLog, .reg .engTaskState, .reg .cluMemParityCnt, .reg .cluMemParityLog,
      .reg .cluChainEndCnt, .reg .cluDescClampCnt, .reg .cluChainLog, .reg .cluSlotTokens, .reg .galRowErrLog, .reg .galBankState,
      .reg .galParityCnt, .reg .galParityRefetchCnt, .reg .galSlotTokens, .reg .ctrTraceLostCnt]
  | .rerunLaunch .. =>
    [.engines, .chains, .seqs, .reruns, .sram, .pool, .beam, .heldWrites, .sentMsgs, .trace, .reg .engTaskState,
      .reg .cluParityRerunCnt, .reg .cluRecompChainCnt, .reg .cluCkptRegenFailCnt, .reg .cluChainLaunchCnt, .reg .cluChainEndCnt,
      .reg .cluDescClampCnt, .reg .cluChainLog, .reg .cluSlotTokens, .reg .galSlotTokens, .reg .ctrTraceLostCnt]
  | .lineCrcFail .. | .lineRefetchDone .. =>
    [.mem, .lens, .badCheck, .hbmDelta, .poison, .engines, .chains, .seqs, .reruns, .sram, .hbm, .pool, .beam, .dict, .heldWrites,
      .sentMsgs, .trace, .reg .engLensCrcCnt, .reg .engTaskState, .reg .cluLineCrcCnt, .reg .cluLineRefetchCnt, .reg .cluChainEndCnt,
      .reg .cluChainLog, .reg .cluSlotTokens, .reg .galCapHoldCnt, .reg .galLineCrcCnt, .reg .galSlotTokens, .reg .hbmcCeCnt,
      .reg .hbmcUeCnt, .reg .hbmcPoisonMarkCnt, .reg .hbmcSevUeCnt, .reg .hbmcWritebackCnt, .reg .hbmcPartialWrCnt, .reg .hbmcErrLog,
      .reg .poolMoveStatus, .reg .poolMoveCancelCnt, .reg .poolOwnerUse, .reg .ctrStackSectorCnt, .reg .ctrTraceLostCnt,
      .reg .keepHostwinErrCnt]
  | .galRepairCmd .. =>
    [.sram, .hbm, .reg .galRepairCmd, .reg .galRepairStatus, .reg .hbmcMaintEntry]
  | .rowRepairRun .. =>
    [.mem, .badCheck, .hbmDelta, .poison, .sram, .hbm, .pool, .beam, .dict, .heldWrites, .reg .cluMemParityCnt, .reg .cluMemParityLog,
      .reg .galRepairStatus, .reg .galRowErrLog, .reg .galBankState, .reg .galParityCnt, .reg .galCapHoldCnt, .reg .hbmcCeCnt,
      .reg .hbmcUeCnt, .reg .hbmcPoisonMarkCnt, .reg .hbmcSevUeCnt, .reg .hbmcWritebackCnt, .reg .hbmcPartialWrCnt, .reg .hbmcErrLog,
      .reg .hbmcMaintEntry, .reg .poolMoveStatus, .reg .poolEvictCnt, .reg .poolWritebackCnt, .reg .poolMoveCancelCnt,
      .reg .poolFloorCutCnt, .reg .poolOwnerUse, .reg .ctrStackSectorCnt]
  | .stageChain .. =>
    [.engines, .chains, .seqs, .sram, .pool, .beam, .heldWrites, .sentMsgs, .trace, .reg .engTaskState, .reg .cluRecompChainCnt,
      .reg .cluCkptRegenFailCnt, .reg .cluChainLaunchCnt, .reg .cluChainEndCnt, .reg .cluDescClampCnt, .reg .cluChainLog,
      .reg .cluSlotTokens, .reg .galSlotTokens, .reg .ctrTraceLostCnt]
  | .stageItemStart .. =>
    [.mem, .lens, .badCheck, .hbmDelta, .poison, .engines, .chains, .seqs, .reruns, .sram, .hbm, .pool, .beam, .dict, .heldWrites,
      .sentMsgs, .msgNum, .trace, .host, .free, .reg .engArrayStatus, .reg .engArrayIssueCnt, .reg .engVecIssueCnt,
      .reg .engFuncResultCnt, .reg .engSkipDecideCnt, .reg .engSkipBlockCnt, .reg .engSkipReplayCnt, .reg .engSkipRowReplayCnt,
      .reg .engRngOutputCnt, .reg .engLensConflictCnt, .reg .engLensParityCnt, .reg .engLensParityLog, .reg .engTaskState,
      .reg .engConvCnt, .reg .engVopCnt, .reg .cluMemParityCnt, .reg .cluMemParityLog, .reg .cluCkptRegenFailCnt, .reg .cluChainEndCnt,
      .reg .cluTokenViolCnt, .reg .cluRunaheadMissCnt, .reg .cluExtentMaskCnt, .reg .cluDescClampCnt, .reg .cluGatherReqCnt,
      .reg .cluChainLog, .reg .cluSlotTokens, .reg .galRowErrLog, .reg .galBankState, .reg .galParityCnt, .reg .galParityRefetchCnt,
      .reg .galCapHoldCnt, .reg .galSlotTokens, .reg .galFlagEntry, .reg .hbmcCeCnt, .reg .hbmcUeCnt, .reg .hbmcPoisonMarkCnt,
      .reg .hbmcSevUeCnt, .reg .hbmcWritebackCnt, .reg .hbmcPartialWrCnt, .reg .hbmcErrLog, .reg .poolMoveStatus, .reg .poolEvictCnt,
      .reg .poolMoveCancelCnt, .reg .poolStreamLateCnt, .reg .poolOwnerUse, .reg .poolXlatBadCnt, .reg .poolXlatRefusedCnt,
      .reg .beamPreemptCnt, .reg .beamPreemptCyc, .reg .beamRecState, .reg .ctrStackSectorCnt, .reg .ctrTraceLostCnt,
      .reg .keepHostwinErrCnt]
  | .slotFull .. | .slotEmpty .. =>
    [.engines, .chains, .reg .engTaskState, .reg .cluSlotTokens, .reg .galSlotTokens]
  | .tokenHandover .. =>
    [.engines, .chains, .reg .engTaskState]
  | .chainCommit .. | .runaheadResume .. =>
    [.mem, .lens, .badCheck, .hbmDelta, .poison, .engines, .chains, .seqs, .reruns, .sram, .hbm, .pool, .beam, .dict, .heldWrites,
      .sentMsgs, .msgNum, .trace, .host, .free, .reg .engArrayStatus, .reg .engArrayIssueCnt, .reg .engVecIssueCnt,
      .reg .engFuncResultCnt, .reg .engSkipDecideCnt, .reg .engSkipBlockCnt, .reg .engSkipReplayCnt, .reg .engSkipRowReplayCnt,
      .reg .engRngOutputCnt, .reg .engLensConflictCnt, .reg .engLensParityCnt, .reg .engLensParityLog, .reg .engTaskState,
      .reg .engConvCnt, .reg .engVopCnt, .reg .cluMemParityCnt, .reg .cluMemParityLog, .reg .cluCkptRegenFailCnt, .reg .cluChainEndCnt,
      .reg .cluRunaheadMissCnt, .reg .cluExtentMaskCnt, .reg .cluDescClampCnt, .reg .cluGatherReqCnt, .reg .cluChainLog,
      .reg .cluSlotTokens, .reg .galRowErrLog, .reg .galBankState, .reg .galParityCnt, .reg .galParityRefetchCnt, .reg .galCapHoldCnt,
      .reg .galSlotTokens, .reg .galFlagEntry, .reg .hbmcCeCnt, .reg .hbmcUeCnt, .reg .hbmcPoisonMarkCnt, .reg .hbmcSevUeCnt,
      .reg .hbmcWritebackCnt, .reg .hbmcPartialWrCnt, .reg .hbmcErrLog, .reg .poolMoveStatus, .reg .poolEvictCnt, .reg .poolMoveCancelCnt,
      .reg .poolOwnerUse, .reg .poolXlatBadCnt, .reg .poolXlatRefusedCnt, .reg .beamPreemptCnt, .reg .beamPreemptCyc, .reg .beamRecState,
      .reg .ctrStackSectorCnt, .reg .ctrTraceLostCnt, .reg .keepHostwinErrCnt]
  | .nextChainLaunch .. =>
    [.engines, .chains, .seqs, .sram, .pool, .beam, .heldWrites, .sentMsgs, .trace, .reg .engTaskState, .reg .cluRecompChainCnt,
      .reg .cluCkptRegenFailCnt, .reg .cluChainLaunchCnt, .reg .cluChainEndCnt, .reg .cluBubbleLaunchCnt, .reg .cluDescClampCnt,
      .reg .cluChainLog, .reg .cluSlotTokens, .reg .galSlotTokens, .reg .ctrTraceLostCnt]
  | .taskSwitch .. | .switchThresholdExpiry .. =>
    [.engines, .reg .engTaskSwitchCnt]
  | .chainStall .. =>
    [.engines, .chains, .seqs, .sram, .pool, .beam, .heldWrites, .sentMsgs, .trace, .reg .engTaskState, .reg .cluCkptRegenFailCnt,
      .reg .cluChainEndCnt, .reg .cluChainStallCnt, .reg .cluChainLog, .reg .cluSlotTokens, .reg .galSlotTokens, .reg .ctrTraceLostCnt]
  | .slotTimeout .. =>
    [.engines, .chains, .seqs, .sram, .pool, .beam, .heldWrites, .sentMsgs, .trace, .reg .engTaskState, .reg .cluCkptRegenFailCnt,
      .reg .cluChainEndCnt, .reg .cluSlotTimeoutCnt, .reg .cluChainLog, .reg .cluSlotTokens, .reg .galSlotTokens, .reg .ctrTraceLostCnt]
  | .hbmRead .. | .hbmWrite .. =>
    [.mem, .badCheck, .hbmDelta, .poison, .engines, .chains, .seqs, .sram, .hbm, .pool, .beam, .dict, .dictBytes, .fuses, .heldWrites,
      .sentMsgs, .trace, .fabric, .coll, .host, .daymarks, .copying, .power, .resets, .mooring, .flash, .security, .keeper, .free,
      .reg .engTaskState, .reg .cluMemParityCnt, .reg .cluMemParityLog, .reg .cluCkptRegenFailCnt, .reg .cluChainEndCnt,
      .reg .cluChainLog, .reg .cluSlotTokens, .reg .galRepairStatus, .reg .galRowErrLog, .reg .galBankState, .reg .galParityCnt,
      .reg .galParityRefetchCnt, .reg .galCapHoldCnt, .reg .galSlotTokens, .reg .hbmcCeCnt, .reg .hbmcUeCnt, .reg .hbmcPoisonMarkCnt,
      .reg .hbmcSevUeCnt, .reg .hbmcWritebackCnt, .reg .hbmcPartialWrCnt, .reg .hbmcBankHoldCnt, .reg .hbmcErrLog, .reg .hbmcMaintEntry,
      .reg .poolMoveStatus, .reg .poolEvictCnt, .reg .poolWritebackCnt, .reg .poolMoveCancelCnt, .reg .poolOwnerUse, .reg .poolDmStatus,
      .reg .poolDmAbandonCnt, .reg .fabStatus, .reg .winTornCnt, .reg .collOpCnt, .reg .collNonfiniteCnt, .reg .collAbortCnt,
      .reg .collPeerLostCnt, .reg .collRouteDropCnt, .reg .collNfSeen, .reg .collNfGate, .reg .collMemberGenSet, .reg .collGroupW0,
      .reg .collGroupW1, .reg .collGroupW2, .reg .collRoute, .reg .beamStatus, .reg .beamQuietDeferCnt, .reg .beamDeadlineMissCnt,
      .reg .beamCringFullCnt, .reg .beamAbortIgnoredCnt, .reg .beamRecClampCnt, .reg .beamCringIdx, .reg .beamRecState, .reg .beamTokens,
      .reg .pwrStatus, .reg .ctrTraceCfg, .reg .ctrStackSectorCnt, .reg .ctrTraceLostCnt, .reg .keepHostwinErrCnt, .reg .secStatus]
  | .correctionWriteback .. | .scrubSectorRead .. =>
    [.mem, .badCheck, .hbmDelta, .poison, .hbm, .pool, .beam, .dict, .heldWrites, .reg .hbmcCeCnt, .reg .hbmcUeCnt,
      .reg .hbmcPoisonMarkCnt, .reg .hbmcSevUeCnt, .reg .hbmcWritebackCnt, .reg .hbmcPartialWrCnt, .reg .hbmcErrLog, .reg .poolMoveStatus,
      .reg .poolMoveCancelCnt, .reg .poolOwnerUse, .reg .ctrStackSectorCnt]
  | .heldRequestEnter .. =>
    [.hbm]
  | .ecsCountRead .. =>
    [.reg .hbmcEcsCnt]
  | .stackTempRead .. =>
    [.hbm, .reg .galRepairStatus, .reg .hbmcCalForcedCnt, .reg .hbmcMaintEntry]
  | .scrubStart .. | .scrubComplete .. =>
    [.mem, .badCheck, .hbmDelta, .poison, .sram, .hbm, .pool, .beam, .dict, .heldWrites, .reg .galRepairStatus, .reg .galCapHoldCnt,
      .reg .hbmcCeCnt, .reg .hbmcUeCnt, .reg .hbmcPoisonMarkCnt, .reg .hbmcSevUeCnt, .reg .hbmcWritebackCnt, .reg .hbmcPartialWrCnt,
      .reg .hbmcErrLog, .reg .hbmcScrubCmd, .reg .hbmcMaintEntry, .reg .poolMoveStatus, .reg .poolMoveCancelCnt, .reg .poolOwnerUse,
      .reg .beamTokens, .reg .ctrStackSectorCnt, .reg .keepHostwinErrCnt]
  | .calibrationRequest .. | .selfTestRequest .. | .refreshRateRequest .. =>
    [.hbm, .reg .galRepairStatus, .reg .hbmcMaintReq, .reg .hbmcMaintEntry]
  | .maintRequestEntry .. =>
    [.sram, .hbm, .reg .galRepairStatus, .reg .hbmcScrubCmd, .reg .hbmcMaintReq, .reg .hbmcMaintEntry]
  | .maintAdmit .. =>
    [.hbm, .daymarks, .copying, .reg .galRepairStatus, .reg .hbmcMaintEntry, .reg .poolDmStatus]
  | .calGroupOut .. | .calPeriodExpiry .. =>
    [.hbm, .reg .galRepairStatus, .reg .hbmcMaintEntry]
  | .calGroupReturn .. =>
    [.mem, .lens, .badCheck, .hbmDelta, .poison, .engines, .chains, .seqs, .reruns, .sram, .hbm, .pool, .beam, .dict, .heldWrites,
      .sentMsgs, .msgNum, .trace, .fabric, .host, .power, .free, .reg .engArrayStatus, .reg .engArrayIssueCnt, .reg .engVecIssueCnt,
      .reg .engFuncResultCnt, .reg .engSkipDecideCnt, .reg .engSkipBlockCnt, .reg .engSkipReplayCnt, .reg .engSkipRowReplayCnt,
      .reg .engRngOutputCnt, .reg .engLensConflictCnt, .reg .engLensParityCnt, .reg .engLensParityLog, .reg .engTaskState,
      .reg .engConvCnt, .reg .engVopCnt, .reg .cluMemParityCnt, .reg .cluMemParityLog, .reg .cluCkptRegenFailCnt, .reg .cluChainEndCnt,
      .reg .cluRunaheadMissCnt, .reg .cluExtentMaskCnt, .reg .cluDescClampCnt, .reg .cluGatherReqCnt, .reg .cluChainLog,
      .reg .cluSlotTokens, .reg .galRepairStatus, .reg .galRowErrLog, .reg .galBankState, .reg .galParityCnt, .reg .galParityRefetchCnt,
      .reg .galCapHoldCnt, .reg .galSlotTokens, .reg .galFlagEntry, .reg .hbmcCeCnt, .reg .hbmcUeCnt, .reg .hbmcPoisonMarkCnt,
      .reg .hbmcSevUeCnt, .reg .hbmcWritebackCnt, .reg .hbmcPartialWrCnt, .reg .hbmcErrLog, .reg .hbmcMaintEntry, .reg .poolMoveStatus,
      .reg .poolEvictCnt, .reg .poolMoveCancelCnt, .reg .poolOwnerUse, .reg .poolXlatBadCnt, .reg .poolXlatRefusedCnt, .reg .winTornCnt,
      .reg .collRouteDropCnt, .reg .beamPreemptCnt, .reg .beamPreemptCyc, .reg .beamRecClampCnt, .reg .beamCringIdx, .reg .beamRecState,
      .reg .beamTokens, .reg .ctrStackSectorCnt, .reg .ctrTraceLostCnt, .reg .keepHostwinErrCnt]
  | .selfTestDone .. =>
    [.mem, .lens, .badCheck, .poison, .hbm, .reg .galRepairStatus, .reg .hbmcMaintEntry]
  | .frameRequest .. =>
    [.mem, .badCheck, .hbmDelta, .poison, .hbm, .pool, .dict, .heldWrites, .reg .cluDescClampCnt, .reg .poolEvictCnt, .reg .poolOwnerUse]
  | .frameRequestRetry .. =>
    [.mem, .badCheck, .hbmDelta, .poison, .hbm, .pool, .dict, .heldWrites, .reg .poolMoveStatus, .reg .poolEvictCnt,
      .reg .poolMoveCancelCnt, .reg .poolPinRefusedCnt, .reg .poolOwnerUse, .reg .poolXlatBadCnt, .reg .poolXlatRefusedCnt]
  | .poolWaitTimeout .. =>
    [.mem, .badCheck, .hbmDelta, .poison, .engines, .chains, .seqs, .sram, .hbm, .pool, .beam, .dict, .heldWrites, .sentMsgs, .trace,
      .fabric, .coll, .host, .reg .engTaskState, .reg .cluCkptRegenFailCnt, .reg .cluChainEndCnt, .reg .cluChainLog, .reg .cluSlotTokens,
      .reg .galCapHoldCnt, .reg .galSlotTokens, .reg .hbmcCeCnt, .reg .hbmcUeCnt, .reg .hbmcPoisonMarkCnt, .reg .hbmcSevUeCnt,
      .reg .hbmcWritebackCnt, .reg .hbmcPartialWrCnt, .reg .hbmcErrLog, .reg .poolMoveStatus, .reg .poolEvictCnt, .reg .poolMoveCancelCnt,
      .reg .poolOwnerUse, .reg .collOpCnt, .reg .collAbortCnt, .reg .collPeerLostCnt, .reg .collRouteDropCnt, .reg .beamCringFullCnt,
      .reg .beamRecClampCnt, .reg .beamCringIdx, .reg .beamRecState, .reg .beamTokens, .reg .ctrStackSectorCnt, .reg .ctrTraceLostCnt,
      .reg .keepHostwinErrCnt]
  | .moveSwitch .. | .swapInvocation .. =>
    [.mem, .lens, .badCheck, .hbmDelta, .poison, .engines, .chains, .seqs, .reruns, .sram, .hbm, .pool, .beam, .dict, .heldWrites,
      .sentMsgs, .msgNum, .trace, .host, .free, .reg .engArrayStatus, .reg .engArrayIssueCnt, .reg .engVecIssueCnt,
      .reg .engFuncResultCnt, .reg .engSkipDecideCnt, .reg .engSkipBlockCnt, .reg .engSkipReplayCnt, .reg .engSkipRowReplayCnt,
      .reg .engRngOutputCnt, .reg .engLensConflictCnt, .reg .engLensParityCnt, .reg .engLensParityLog, .reg .engTaskState,
      .reg .engConvCnt, .reg .engVopCnt, .reg .cluMemParityCnt, .reg .cluMemParityLog, .reg .cluCkptRegenFailCnt, .reg .cluChainEndCnt,
      .reg .cluRunaheadMissCnt, .reg .cluExtentMaskCnt, .reg .cluDescClampCnt, .reg .cluGatherReqCnt, .reg .cluChainLog,
      .reg .cluSlotTokens, .reg .galRowErrLog, .reg .galBankState, .reg .galParityCnt, .reg .galParityRefetchCnt, .reg .galCapHoldCnt,
      .reg .galSlotTokens, .reg .galFlagEntry, .reg .hbmcCeCnt, .reg .hbmcUeCnt, .reg .hbmcPoisonMarkCnt, .reg .hbmcSevUeCnt,
      .reg .hbmcWritebackCnt, .reg .hbmcPartialWrCnt, .reg .hbmcErrLog, .reg .poolMoveStatus, .reg .poolEvictCnt, .reg .poolWritebackCnt,
      .reg .poolMoveCancelCnt, .reg .poolPinRefusedCnt, .reg .poolOwnerUse, .reg .poolXlatBadCnt, .reg .poolXlatRefusedCnt,
      .reg .beamPreemptCnt, .reg .beamPreemptCyc, .reg .beamRecState, .reg .ctrStackSectorCnt, .reg .ctrTraceLostCnt,
      .reg .keepHostwinErrCnt]
  | .move .. | .pin .. | .unpin .. =>
    [.mem, .badCheck, .hbmDelta, .poison, .hbm, .pool, .dict, .heldWrites, .reg .poolMoveCmd, .reg .poolMoveStatus, .reg .poolEvictCnt,
      .reg .poolMoveCancelCnt, .reg .poolPinRefusedCnt, .reg .poolOwnerUse, .reg .poolXlatBadCnt, .reg .poolXlatRefusedCnt]
  | .windowLift .. =>
    [.mem, .badCheck, .hbmDelta, .poison, .engines, .chains, .seqs, .sram, .hbm, .pool, .beam, .dict, .heldWrites, .sentMsgs, .trace,
      .reg .engTaskState, .reg .cluMemParityCnt, .reg .cluMemParityLog, .reg .cluChainEndCnt, .reg .cluChainLog, .reg .cluSlotTokens,
      .reg .galRowErrLog, .reg .galBankState, .reg .galParityCnt, .reg .galCapHoldCnt, .reg .galSlotTokens, .reg .hbmcCeCnt,
      .reg .hbmcUeCnt, .reg .hbmcPoisonMarkCnt, .reg .hbmcSevUeCnt, .reg .hbmcWritebackCnt, .reg .hbmcPartialWrCnt, .reg .hbmcErrLog,
      .reg .poolMoveStatus, .reg .poolMoveCancelCnt, .reg .poolOwnerUse, .reg .collGenMismatchCnt, .reg .ctrStackSectorCnt,
      .reg .ctrTraceLostCnt, .reg .keepHostwinErrCnt]
  | .sectorRebuild .. =>
    [.mem, .lens, .badCheck, .hbmDelta, .poison, .engines, .chains, .seqs, .reruns, .sram, .hbm, .pool, .beam, .dict, .heldWrites,
      .sentMsgs, .msgNum, .trace, .fabric, .host, .free, .reg .engArrayStatus, .reg .engArrayIssueCnt, .reg .engVecIssueCnt,
      .reg .engFuncResultCnt, .reg .engSkipDecideCnt, .reg .engSkipBlockCnt, .reg .engSkipReplayCnt, .reg .engSkipRowReplayCnt,
      .reg .engRngOutputCnt, .reg .engLensConflictCnt, .reg .engLensParityCnt, .reg .engLensParityLog, .reg .engTaskState,
      .reg .engConvCnt, .reg .engVopCnt, .reg .cluMemParityCnt, .reg .cluMemParityLog, .reg .cluCkptRegenFailCnt, .reg .cluChainEndCnt,
      .reg .cluRunaheadMissCnt, .reg .cluExtentMaskCnt, .reg .cluDescClampCnt, .reg .cluGatherReqCnt, .reg .cluChainLog,
      .reg .cluSlotTokens, .reg .galRowErrLog, .reg .galBankState, .reg .galParityCnt, .reg .galParityRefetchCnt, .reg .galCapHoldCnt,
      .reg .galSlotTokens, .reg .galFlagEntry, .reg .hbmcCeCnt, .reg .hbmcUeCnt, .reg .hbmcPoisonMarkCnt, .reg .hbmcSevUeCnt,
      .reg .hbmcWritebackCnt, .reg .hbmcPartialWrCnt, .reg .hbmcErrLog, .reg .poolMoveStatus, .reg .poolEvictCnt, .reg .poolMoveCancelCnt,
      .reg .poolRebuildCnt, .reg .poolRebuildFailCnt, .reg .poolQuarantineCnt, .reg .poolOwnerUse, .reg .poolXlatBadCnt,
      .reg .poolXlatRefusedCnt, .reg .collRouteDropCnt, .reg .beamPreemptCnt, .reg .beamPreemptCyc, .reg .beamRecState,
      .reg .ctrStackSectorCnt, .reg .ctrTraceLostCnt, .reg .keepHostwinErrCnt]
  | .rebuildTimeout .. =>
    [.mem, .lens, .badCheck, .hbmDelta, .poison, .engines, .chains, .seqs, .reruns, .sram, .hbm, .pool, .beam, .dict, .heldWrites,
      .sentMsgs, .msgNum, .trace, .host, .free, .reg .engArrayStatus, .reg .engArrayIssueCnt, .reg .engVecIssueCnt,
      .reg .engFuncResultCnt, .reg .engSkipDecideCnt, .reg .engSkipBlockCnt, .reg .engSkipReplayCnt, .reg .engSkipRowReplayCnt,
      .reg .engRngOutputCnt, .reg .engLensConflictCnt, .reg .engLensParityCnt, .reg .engLensParityLog, .reg .engTaskState,
      .reg .engConvCnt, .reg .engVopCnt, .reg .cluMemParityCnt, .reg .cluMemParityLog, .reg .cluCkptRegenFailCnt, .reg .cluChainEndCnt,
      .reg .cluRunaheadMissCnt, .reg .cluExtentMaskCnt, .reg .cluDescClampCnt, .reg .cluGatherReqCnt, .reg .cluChainLog,
      .reg .cluSlotTokens, .reg .galRowErrLog, .reg .galBankState, .reg .galParityCnt, .reg .galParityRefetchCnt, .reg .galCapHoldCnt,
      .reg .galSlotTokens, .reg .galFlagEntry, .reg .hbmcCeCnt, .reg .hbmcUeCnt, .reg .hbmcPoisonMarkCnt, .reg .hbmcSevUeCnt,
      .reg .hbmcWritebackCnt, .reg .hbmcPartialWrCnt, .reg .hbmcErrLog, .reg .poolMoveStatus, .reg .poolEvictCnt, .reg .poolMoveCancelCnt,
      .reg .poolRebuildFailCnt, .reg .poolQuarantineCnt, .reg .poolOwnerUse, .reg .poolXlatBadCnt, .reg .poolXlatRefusedCnt,
      .reg .beamPreemptCnt, .reg .beamPreemptCyc, .reg .beamRecState, .reg .ctrStackSectorCnt, .reg .ctrTraceLostCnt,
      .reg .keepHostwinErrCnt]
  | .shelfUnreachable .. =>
    [.pool, .host, .reg .poolQuarantineCnt]
  | .windowLiftComplete .. | .gallerySetLoadDone .. =>
    [.mem, .badCheck, .hbmDelta, .poison, .sram, .hbm, .pool, .beam, .dict, .heldWrites, .reg .cluMemParityCnt, .reg .cluMemParityLog,
      .reg .galRowErrLog, .reg .galBankState, .reg .galParityCnt, .reg .galCapHoldCnt, .reg .hbmcCeCnt, .reg .hbmcUeCnt,
      .reg .hbmcPoisonMarkCnt, .reg .hbmcSevUeCnt, .reg .hbmcWritebackCnt, .reg .hbmcPartialWrCnt, .reg .hbmcErrLog, .reg .poolMoveStatus,
      .reg .poolMoveCancelCnt, .reg .poolOwnerUse, .reg .ctrStackSectorCnt]
  | .flitTransmit .. =>
    [.mem, .lens, .badCheck, .hbmDelta, .poison, .engines, .chains, .seqs, .sram, .hbm, .pool, .beam, .dict, .heldWrites, .sentMsgs,
      .msgNum, .trace, .fabric, .host, .free, .reg .engRngOutputCnt, .reg .engTaskState, .reg .engConvCnt, .reg .cluCkptRegenFailCnt,
      .reg .cluChainEndCnt, .reg .cluExtentMaskCnt, .reg .cluDescClampCnt, .reg .cluChainLog, .reg .cluSlotTokens, .reg .galCapHoldCnt,
      .reg .galSlotTokens, .reg .galFlagEntry, .reg .hbmcCeCnt, .reg .hbmcUeCnt, .reg .hbmcPoisonMarkCnt, .reg .hbmcSevUeCnt,
      .reg .hbmcWritebackCnt, .reg .hbmcPartialWrCnt, .reg .hbmcErrLog, .reg .poolMoveStatus, .reg .poolMoveCancelCnt, .reg .poolOwnerUse,
      .reg .poolXlatBadCnt, .reg .poolXlatRefusedCnt, .reg .fabStatus, .reg .fabTxFlitCnt, .reg .fabResentCnt, .reg .fabRecoveryCnt,
      .reg .ctrStackSectorCnt, .reg .ctrTraceLostCnt, .reg .keepHostwinErrCnt]
  | .dataFlitReceive .. =>
    [.fabric, .reg .fabRxFlitCnt, .reg .fabNakCnt, .reg .fabCrcFailCnt, .reg .fabFecCorrCnt, .reg .fabFecUncorrCnt, .reg .fabBadMsgCnt]
  | .nak .. | .echoRequest .. =>
    [.fabric, .reg .fabFecCorrCnt, .reg .fabFecUncorrCnt, .reg .fabCtrlDropCnt]
  | .retryTimerExpiry .. | .capabilitySend .. | .echoRequestSend .. | .beamMarkSend .. =>
    [.fabric]
  | .linkEnable .. | .signalLost .. | .phyTrainTimeout .. =>
    [.dict, .reg .fabStatus]
  | .signalDetect .. | .phyTrainDone .. | .recoveryDone .. =>
    [.dict, .fabric, .reg .fabStatus]
  | .capability .. =>
    [.dict, .fabric, .reg .fabStatus, .reg .fabFecCorrCnt, .reg .fabFecUncorrCnt, .reg .fabCtrlDropCnt]
  | .echoReply .. =>
    [.dict, .fabric, .reg .fabStatus, .reg .fabDelay, .reg .fabFecCorrCnt, .reg .fabFecUncorrCnt, .reg .fabCtrlDropCnt]
  | .linkRecoverTimeout .. =>
    [.engines, .chains, .seqs, .sram, .pool, .beam, .dict, .heldWrites, .sentMsgs, .trace, .fabric, .reg .engTaskState,
      .reg .cluCkptRegenFailCnt, .reg .cluChainEndCnt, .reg .cluChainLog, .reg .cluSlotTokens, .reg .galSlotTokens, .reg .fabStatus,
      .reg .winLateRespCnt, .reg .collRouteDropCnt, .reg .ctrTraceLostCnt]
  | .put .. | .getReq .. | .ringSlotAccept .. =>
    [.mem, .badCheck, .hbmDelta, .poison, .engines, .chains, .seqs, .sram, .hbm, .pool, .beam, .dict, .heldWrites, .sentMsgs, .trace,
      .fabric, .reg .engTaskState, .reg .cluMemParityCnt, .reg .cluMemParityLog, .reg .cluCkptRegenFailCnt, .reg .cluChainEndCnt,
      .reg .cluChainLog, .reg .cluSlotTokens, .reg .galRowErrLog, .reg .galBankState, .reg .galParityCnt, .reg .galParityRefetchCnt,
      .reg .galCapHoldCnt, .reg .galSlotTokens, .reg .hbmcCeCnt, .reg .hbmcUeCnt, .reg .hbmcPoisonMarkCnt, .reg .hbmcSevUeCnt,
      .reg .hbmcWritebackCnt, .reg .hbmcPartialWrCnt, .reg .hbmcErrLog, .reg .poolMoveStatus, .reg .poolMoveCancelCnt, .reg .poolOwnerUse,
      .reg .winAcceptCnt, .reg .winRefusedCnt, .reg .winTornCnt, .reg .winRelineCnt, .reg .collRouteDropCnt, .reg .beamTokens,
      .reg .ctrStackSectorCnt, .reg .ctrTraceLostCnt, .reg .keepHostwinErrCnt]
  | .getData .. =>
    [.mem, .lens, .badCheck, .hbmDelta, .poison, .engines, .chains, .seqs, .reruns, .sram, .hbm, .pool, .beam, .dict, .heldWrites,
      .sentMsgs, .msgNum, .trace, .fabric, .host, .free, .reg .engArrayStatus, .reg .engArrayIssueCnt, .reg .engVecIssueCnt,
      .reg .engFuncResultCnt, .reg .engSkipDecideCnt, .reg .engSkipBlockCnt, .reg .engSkipReplayCnt, .reg .engSkipRowReplayCnt,
      .reg .engRngOutputCnt, .reg .engLensConflictCnt, .reg .engLensParityCnt, .reg .engLensParityLog, .reg .engTaskState,
      .reg .engConvCnt, .reg .engVopCnt, .reg .cluMemParityCnt, .reg .cluMemParityLog, .reg .cluCkptRegenFailCnt, .reg .cluChainEndCnt,
      .reg .cluRunaheadMissCnt, .reg .cluExtentMaskCnt, .reg .cluDescClampCnt, .reg .cluGatherReqCnt, .reg .cluChainLog,
      .reg .cluSlotTokens, .reg .galRowErrLog, .reg .galBankState, .reg .galParityCnt, .reg .galParityRefetchCnt, .reg .galCapHoldCnt,
      .reg .galSlotTokens, .reg .galFlagEntry, .reg .hbmcCeCnt, .reg .hbmcUeCnt, .reg .hbmcPoisonMarkCnt, .reg .hbmcSevUeCnt,
      .reg .hbmcWritebackCnt, .reg .hbmcPartialWrCnt, .reg .hbmcErrLog, .reg .poolMoveStatus, .reg .poolEvictCnt, .reg .poolMoveCancelCnt,
      .reg .poolOwnerUse, .reg .poolXlatBadCnt, .reg .poolXlatRefusedCnt, .reg .winLateRespCnt, .reg .beamPreemptCnt,
      .reg .beamPreemptCyc, .reg .beamRecState, .reg .ctrStackSectorCnt, .reg .ctrTraceLostCnt, .reg .keepHostwinErrCnt]
  | .accept .. | .reline .. =>
    [.sentMsgs, .fabric, .reg .winLateRespCnt]
  | .refuse .. | .landed .. | .lost .. =>
    [.engines, .chains, .seqs, .sram, .pool, .beam, .heldWrites, .sentMsgs, .trace, .fabric, .reg .engTaskState,
      .reg .cluCkptRegenFailCnt, .reg .cluChainEndCnt, .reg .cluChainLog, .reg .cluSlotTokens, .reg .galSlotTokens, .reg .winLateRespCnt,
      .reg .ctrTraceLostCnt]
  | .rebuildReq .. =>
    [.mem, .badCheck, .hbmDelta, .poison, .sram, .hbm, .pool, .beam, .dict, .heldWrites, .sentMsgs, .fabric, .reg .cluMemParityCnt,
      .reg .cluMemParityLog, .reg .galRowErrLog, .reg .galBankState, .reg .galParityCnt, .reg .galParityRefetchCnt, .reg .galCapHoldCnt,
      .reg .hbmcCeCnt, .reg .hbmcUeCnt, .reg .hbmcPoisonMarkCnt, .reg .hbmcSevUeCnt, .reg .hbmcWritebackCnt, .reg .hbmcPartialWrCnt,
      .reg .hbmcErrLog, .reg .poolMoveStatus, .reg .poolMoveCancelCnt, .reg .poolOwnerUse, .reg .collRouteDropCnt, .reg .ctrStackSectorCnt]
  | .rebuildData .. =>
    [.mem, .lens, .badCheck, .hbmDelta, .poison, .engines, .chains, .seqs, .reruns, .sram, .hbm, .pool, .beam, .dict, .heldWrites,
      .sentMsgs, .msgNum, .trace, .fabric, .host, .free, .reg .engArrayStatus, .reg .engArrayIssueCnt, .reg .engVecIssueCnt,
      .reg .engFuncResultCnt, .reg .engSkipDecideCnt, .reg .engSkipBlockCnt, .reg .engSkipReplayCnt, .reg .engSkipRowReplayCnt,
      .reg .engRngOutputCnt, .reg .engLensConflictCnt, .reg .engLensParityCnt, .reg .engLensParityLog, .reg .engTaskState,
      .reg .engConvCnt, .reg .engVopCnt, .reg .cluMemParityCnt, .reg .cluMemParityLog, .reg .cluCkptRegenFailCnt, .reg .cluChainEndCnt,
      .reg .cluRunaheadMissCnt, .reg .cluExtentMaskCnt, .reg .cluDescClampCnt, .reg .cluGatherReqCnt, .reg .cluChainLog,
      .reg .cluSlotTokens, .reg .galRowErrLog, .reg .galBankState, .reg .galParityCnt, .reg .galParityRefetchCnt, .reg .galCapHoldCnt,
      .reg .galSlotTokens, .reg .galFlagEntry, .reg .hbmcCeCnt, .reg .hbmcUeCnt, .reg .hbmcPoisonMarkCnt, .reg .hbmcSevUeCnt,
      .reg .hbmcWritebackCnt, .reg .hbmcPartialWrCnt, .reg .hbmcErrLog, .reg .poolMoveStatus, .reg .poolEvictCnt, .reg .poolMoveCancelCnt,
      .reg .poolRebuildCnt, .reg .poolRebuildFailCnt, .reg .poolQuarantineCnt, .reg .poolOwnerUse, .reg .poolXlatBadCnt,
      .reg .poolXlatRefusedCnt, .reg .beamPreemptCnt, .reg .beamPreemptCyc, .reg .beamRecState, .reg .ctrStackSectorCnt,
      .reg .ctrTraceLostCnt, .reg .keepHostwinErrCnt]
  | .msgResponseTimeout .. =>
    [.mem, .badCheck, .hbmDelta, .poison, .engines, .chains, .seqs, .sram, .hbm, .pool, .beam, .dict, .heldWrites, .sentMsgs, .trace,
      .fabric, .reg .engTaskState, .reg .cluMemParityCnt, .reg .cluMemParityLog, .reg .cluCkptRegenFailCnt, .reg .cluChainEndCnt,
      .reg .cluChainLog, .reg .cluSlotTokens, .reg .galRowErrLog, .reg .galBankState, .reg .galParityCnt, .reg .galParityRefetchCnt,
      .reg .galCapHoldCnt, .reg .galSlotTokens, .reg .hbmcCeCnt, .reg .hbmcUeCnt, .reg .hbmcPoisonMarkCnt, .reg .hbmcSevUeCnt,
      .reg .hbmcWritebackCnt, .reg .hbmcPartialWrCnt, .reg .hbmcErrLog, .reg .poolMoveStatus, .reg .poolMoveCancelCnt, .reg .poolOwnerUse,
      .reg .winTornCnt, .reg .winLateRespCnt, .reg .collRouteDropCnt, .reg .beamTokens, .reg .ctrStackSectorCnt, .reg .ctrTraceLostCnt]
  | .windowOpen .. =>
    [.fabric, .reg .winCmd, .reg .winCmdIgnoredCnt, .reg .winEntryW0, .reg .winEntryW1]
  | .windowClose .. =>
    [.fabric, .reg .winCmd, .reg .winRefusedCnt, .reg .winCmdIgnoredCnt, .reg .winEntryW1, .reg .collRouteDropCnt]
  | .windowCloseRecord .. =>
    [.mem, .badCheck, .hbmDelta, .poison, .engines, .chains, .seqs, .sram, .hbm, .pool, .beam, .dict, .heldWrites, .sentMsgs, .trace,
      .fabric, .reg .engTaskState, .reg .cluCkptRegenFailCnt, .reg .cluChainEndCnt, .reg .cluChainLog, .reg .cluSlotTokens,
      .reg .galCapHoldCnt, .reg .galSlotTokens, .reg .hbmcCeCnt, .reg .hbmcUeCnt, .reg .hbmcPoisonMarkCnt, .reg .hbmcSevUeCnt,
      .reg .hbmcWritebackCnt, .reg .hbmcPartialWrCnt, .reg .hbmcErrLog, .reg .poolMoveStatus, .reg .poolMoveCancelCnt, .reg .poolOwnerUse,
      .reg .winEntryW1, .reg .beamTokens, .reg .ctrStackSectorCnt, .reg .ctrTraceLostCnt, .reg .keepHostwinErrCnt]
  | .messageForward .. | .heldMessageRelease .. =>
    [.fabric, .reg .collRouteDropCnt]
  | .nullFlit .. =>
    [.fabric, .reg .fabFecCorrCnt, .reg .fabFecUncorrCnt]
  | .allReduce .. | .reduceScatter .. | .allGather .. | .allToAll .. | .permute .. | .broadcast .. | .ring ..
  | .nfCheck .. =>
    [.mem, .badCheck, .hbmDelta, .poison, .engines, .chains, .seqs, .sram, .hbm, .pool, .beam, .dict, .heldWrites, .sentMsgs, .msgNum,
      .trace, .fabric, .coll, .host, .free, .reg .engTaskState, .reg .cluMemParityCnt, .reg .cluMemParityLog, .reg .cluCkptRegenFailCnt,
      .reg .cluChainEndCnt, .reg .cluDescClampCnt, .reg .cluChainLog, .reg .cluSlotTokens, .reg .galRowErrLog, .reg .galBankState,
      .reg .galParityCnt, .reg .galParityRefetchCnt, .reg .galCapHoldCnt, .reg .galSlotTokens, .reg .galFlagEntry, .reg .hbmcCeCnt,
      .reg .hbmcUeCnt, .reg .hbmcPoisonMarkCnt, .reg .hbmcSevUeCnt, .reg .hbmcWritebackCnt, .reg .hbmcPartialWrCnt, .reg .hbmcErrLog,
      .reg .poolMoveStatus, .reg .poolMoveCancelCnt, .reg .poolOwnerUse, .reg .poolXlatBadCnt, .reg .poolXlatRefusedCnt, .reg .collOpCnt,
      .reg .collPieceTxCnt, .reg .collGenMismatchCnt, .reg .collAbortCnt, .reg .collPeerLostCnt, .reg .collRingDrainCnt,
      .reg .collRouteDropCnt, .reg .beamCringFullCnt, .reg .beamRecClampCnt, .reg .beamCringIdx, .reg .beamRecState, .reg .beamTokens,
      .reg .ctrStackSectorCnt, .reg .ctrTraceLostCnt, .reg .keepHostwinErrCnt]
  | .collData .. | .collPrepass .. | .ringBlock .. =>
    [.mem, .badCheck, .hbmDelta, .poison, .engines, .chains, .seqs, .sram, .hbm, .pool, .beam, .dict, .heldWrites, .sentMsgs, .msgNum,
      .trace, .fabric, .coll, .host, .free, .reg .engTaskState, .reg .cluCkptRegenFailCnt, .reg .cluChainEndCnt, .reg .cluChainLog,
      .reg .cluSlotTokens, .reg .galCapHoldCnt, .reg .galSlotTokens, .reg .galFlagEntry, .reg .hbmcCeCnt, .reg .hbmcUeCnt,
      .reg .hbmcPoisonMarkCnt, .reg .hbmcSevUeCnt, .reg .hbmcWritebackCnt, .reg .hbmcPartialWrCnt, .reg .hbmcErrLog, .reg .poolMoveStatus,
      .reg .poolMoveCancelCnt, .reg .poolOwnerUse, .reg .poolXlatBadCnt, .reg .poolXlatRefusedCnt, .reg .collOpCnt, .reg .collPieceTxCnt,
      .reg .collPieceRxCnt, .reg .collGenMismatchCnt, .reg .collStaleCnt, .reg .collAbortCnt, .reg .collPeerLostCnt,
      .reg .collRingDrainCnt, .reg .collRouteDropCnt, .reg .beamCringFullCnt, .reg .beamRecClampCnt, .reg .beamCringIdx,
      .reg .beamRecState, .reg .beamTokens, .reg .ctrStackSectorCnt, .reg .ctrTraceLostCnt, .reg .keepHostwinErrCnt]
  | .collAbort .. =>
    [.mem, .badCheck, .hbmDelta, .poison, .engines, .chains, .seqs, .sram, .hbm, .pool, .beam, .dict, .heldWrites, .sentMsgs, .trace,
      .fabric, .coll, .host, .reg .engTaskState, .reg .cluCkptRegenFailCnt, .reg .cluChainEndCnt, .reg .cluChainLog, .reg .cluSlotTokens,
      .reg .galCapHoldCnt, .reg .galSlotTokens, .reg .hbmcCeCnt, .reg .hbmcUeCnt, .reg .hbmcPoisonMarkCnt, .reg .hbmcSevUeCnt,
      .reg .hbmcWritebackCnt, .reg .hbmcPartialWrCnt, .reg .hbmcErrLog, .reg .poolMoveStatus, .reg .poolMoveCancelCnt, .reg .poolOwnerUse,
      .reg .collOpCnt, .reg .collStaleCnt, .reg .collAbortCnt, .reg .collPeerLostCnt, .reg .collRouteDropCnt, .reg .beamCringFullCnt,
      .reg .beamRecClampCnt, .reg .beamCringIdx, .reg .beamRecState, .reg .beamTokens, .reg .ctrStackSectorCnt, .reg .ctrTraceLostCnt,
      .reg .keepHostwinErrCnt]
  | .ringStepBoundary .. =>
    [.mem, .badCheck, .hbmDelta, .poison, .engines, .chains, .seqs, .sram, .hbm, .pool, .beam, .dict, .heldWrites, .sentMsgs, .msgNum,
      .trace, .fabric, .coll, .host, .free, .reg .engTaskState, .reg .cluCkptRegenFailCnt, .reg .cluChainEndCnt, .reg .cluChainLog,
      .reg .cluSlotTokens, .reg .galCapHoldCnt, .reg .galSlotTokens, .reg .galFlagEntry, .reg .hbmcCeCnt, .reg .hbmcUeCnt,
      .reg .hbmcPoisonMarkCnt, .reg .hbmcSevUeCnt, .reg .hbmcWritebackCnt, .reg .hbmcPartialWrCnt, .reg .hbmcErrLog, .reg .poolMoveStatus,
      .reg .poolMoveCancelCnt, .reg .poolOwnerUse, .reg .poolXlatBadCnt, .reg .poolXlatRefusedCnt, .reg .collOpCnt, .reg .collPieceTxCnt,
      .reg .collGenMismatchCnt, .reg .collAbortCnt, .reg .collPeerLostCnt, .reg .collRingDrainCnt, .reg .collRouteDropCnt,
      .reg .beamCringFullCnt, .reg .beamRecClampCnt, .reg .beamCringIdx, .reg .beamRecState, .reg .beamTokens, .reg .ctrStackSectorCnt,
      .reg .ctrTraceLostCnt, .reg .keepHostwinErrCnt]
  | .collectiveCommit .. | .collPeerTimeout .. =>
    [.mem, .badCheck, .hbmDelta, .poison, .engines, .chains, .seqs, .sram, .hbm, .pool, .beam, .dict, .heldWrites, .sentMsgs, .trace,
      .fabric, .coll, .host, .reg .engTaskState, .reg .cluCkptRegenFailCnt, .reg .cluChainEndCnt, .reg .cluChainLog, .reg .cluSlotTokens,
      .reg .galCapHoldCnt, .reg .galSlotTokens, .reg .hbmcCeCnt, .reg .hbmcUeCnt, .reg .hbmcPoisonMarkCnt, .reg .hbmcSevUeCnt,
      .reg .hbmcWritebackCnt, .reg .hbmcPartialWrCnt, .reg .hbmcErrLog, .reg .poolMoveStatus, .reg .poolMoveCancelCnt, .reg .poolOwnerUse,
      .reg .collOpCnt, .reg .collNonfiniteCnt, .reg .collAbortCnt, .reg .collPeerLostCnt, .reg .collRouteDropCnt, .reg .collNfSeen,
      .reg .collNfGate, .reg .beamCringFullCnt, .reg .beamRecClampCnt, .reg .beamCringIdx, .reg .beamRecState, .reg .beamTokens,
      .reg .ctrStackSectorCnt, .reg .ctrTraceLostCnt, .reg .keepHostwinErrCnt]
  | .groupEntryWrite .. =>
    [.mem, .badCheck, .hbmDelta, .poison, .engines, .chains, .seqs, .sram, .hbm, .pool, .beam, .dict, .heldWrites, .sentMsgs, .trace,
      .fabric, .coll, .host, .reg .engTaskState, .reg .cluCkptRegenFailCnt, .reg .cluChainEndCnt, .reg .cluDescClampCnt,
      .reg .cluChainLog, .reg .cluSlotTokens, .reg .galCapHoldCnt, .reg .galSlotTokens, .reg .hbmcCeCnt, .reg .hbmcUeCnt,
      .reg .hbmcPoisonMarkCnt, .reg .hbmcSevUeCnt, .reg .hbmcWritebackCnt, .reg .hbmcPartialWrCnt, .reg .hbmcErrLog, .reg .poolMoveStatus,
      .reg .poolMoveCancelCnt, .reg .poolOwnerUse, .reg .collOpCnt, .reg .collNonfiniteCnt, .reg .collAbortCnt, .reg .collPeerLostCnt,
      .reg .collRouteDropCnt, .reg .collNfSeen, .reg .collNfGate, .reg .collGroupW0, .reg .collGroupW1, .reg .collGroupW2,
      .reg .beamCringFullCnt, .reg .beamRecClampCnt, .reg .beamCringIdx, .reg .beamRecState, .reg .beamTokens, .reg .ctrStackSectorCnt,
      .reg .ctrTraceLostCnt, .reg .keepHostwinErrCnt]
  | .collMemberGenSet .. =>
    [.mem, .badCheck, .hbmDelta, .poison, .engines, .chains, .seqs, .sram, .hbm, .pool, .beam, .dict, .heldWrites, .sentMsgs, .trace,
      .fabric, .coll, .host, .reg .engTaskState, .reg .cluCkptRegenFailCnt, .reg .cluChainEndCnt, .reg .cluChainLog, .reg .cluSlotTokens,
      .reg .galCapHoldCnt, .reg .galSlotTokens, .reg .hbmcCeCnt, .reg .hbmcUeCnt, .reg .hbmcPoisonMarkCnt, .reg .hbmcSevUeCnt,
      .reg .hbmcWritebackCnt, .reg .hbmcPartialWrCnt, .reg .hbmcErrLog, .reg .poolMoveStatus, .reg .poolMoveCancelCnt, .reg .poolOwnerUse,
      .reg .collOpCnt, .reg .collNonfiniteCnt, .reg .collAbortCnt, .reg .collPeerLostCnt, .reg .collRouteDropCnt, .reg .collNfSeen,
      .reg .collNfGate, .reg .collMemberGenSet, .reg .collGroupW0, .reg .beamCringFullCnt, .reg .beamRecClampCnt, .reg .beamCringIdx,
      .reg .beamRecState, .reg .beamTokens, .reg .ctrStackSectorCnt, .reg .ctrTraceLostCnt, .reg .keepHostwinErrCnt]
  | .flashBoundary .. =>
    [.mem, .badCheck, .hbmDelta, .poison, .engines, .sram, .hbm, .pool, .beam, .dict, .heldWrites, .trace, .power, .mooring, .cyc,
      .reg .galRepairStatus, .reg .galCapHoldCnt, .reg .hbmcCeCnt, .reg .hbmcUeCnt, .reg .hbmcPoisonMarkCnt, .reg .hbmcSevUeCnt,
      .reg .hbmcWritebackCnt, .reg .hbmcPartialWrCnt, .reg .hbmcErrLog, .reg .hbmcMaintEntry, .reg .poolMoveStatus,
      .reg .poolMoveCancelCnt, .reg .poolOwnerUse, .reg .beamNow, .reg .beamStatus, .reg .beamLateCnt, .reg .beamRecClampCnt,
      .reg .beamRecState, .reg .beamTokens, .reg .pwrStatus, .reg .ctrTraceCfg, .reg .ctrTraceMask, .reg .ctrStackSectorCnt,
      .reg .ctrTraceLostCnt, .reg .keepHostwinErrCnt]
  | .nowRecordLive .. =>
    [.beam, .reg .beamLateCnt, .reg .beamRecClampCnt, .reg .beamRecState]
  | .recordArm .. =>
    [.mem, .badCheck, .hbmDelta, .poison, .sram, .hbm, .pool, .beam, .dict, .heldWrites, .reg .galCapHoldCnt, .reg .hbmcCeCnt,
      .reg .hbmcUeCnt, .reg .hbmcPoisonMarkCnt, .reg .hbmcSevUeCnt, .reg .hbmcWritebackCnt, .reg .hbmcPartialWrCnt, .reg .hbmcErrLog,
      .reg .poolMoveStatus, .reg .poolMoveCancelCnt, .reg .poolOwnerUse, .reg .beamRecClampCnt, .reg .beamRecState,
      .reg .ctrStackSectorCnt, .reg .keepHostwinErrCnt]
  | .recordLaunch .. =>
    [.mem, .badCheck, .hbmDelta, .poison, .seqs, .reruns, .regens, .hbm, .pool, .beam, .dict, .heldWrites, .trace,
      .reg .cluDescClampCnt, .reg .poolEvictCnt, .reg .poolOwnerUse, .reg .beamLaunchCnt, .reg .beamRecClampCnt, .reg .beamRecState,
      .reg .beamTokens, .reg .ctrTraceLostCnt]
  | .preemptionPoint .. =>
    [.engines, .chains, .seqs, .beam, .heldWrites, .sentMsgs, .trace, .reg .engTaskState, .reg .cluChainEndCnt, .reg .cluDescClampCnt,
      .reg .cluChainLog, .reg .cluSlotTokens, .reg .galSlotTokens, .reg .beamPreemptCnt, .reg .beamPreemptCyc, .reg .beamRecState,
      .reg .ctrTraceLostCnt]
  | .preemptSaveDone .. =>
    [.mem, .badCheck, .hbmDelta, .poison, .engines, .chains, .seqs, .reruns, .sram, .hbm, .pool, .beam, .dict, .heldWrites, .sentMsgs,
      .msgNum, .trace, .host, .reg .engLensParityCnt, .reg .engLensParityLog, .reg .engTaskState, .reg .cluMemParityCnt,
      .reg .cluMemParityLog, .reg .cluCkptRegenFailCnt, .reg .cluChainEndCnt, .reg .cluDescClampCnt, .reg .cluChainLog,
      .reg .cluSlotTokens, .reg .galRowErrLog, .reg .galBankState, .reg .galParityCnt, .reg .galParityRefetchCnt, .reg .galCapHoldCnt,
      .reg .galSlotTokens, .reg .hbmcCeCnt, .reg .hbmcUeCnt, .reg .hbmcPoisonMarkCnt, .reg .hbmcSevUeCnt, .reg .hbmcWritebackCnt,
      .reg .hbmcPartialWrCnt, .reg .hbmcErrLog, .reg .poolMoveStatus, .reg .poolMoveCancelCnt, .reg .poolOwnerUse, .reg .poolXlatBadCnt,
      .reg .poolXlatRefusedCnt, .reg .ctrStackSectorCnt, .reg .ctrTraceLostCnt, .reg .keepHostwinErrCnt]
  | .contextRestore .. =>
    [.mem, .lens, .badCheck, .hbmDelta, .poison, .engines, .chains, .seqs, .sram, .hbm, .pool, .beam, .dict, .heldWrites, .sentMsgs,
      .trace, .reg .engTaskState, .reg .cluMemParityCnt, .reg .cluMemParityLog, .reg .cluCkptRegenFailCnt, .reg .cluChainEndCnt,
      .reg .cluChainLog, .reg .cluSlotTokens, .reg .galRowErrLog, .reg .galBankState, .reg .galParityCnt, .reg .galParityRefetchCnt,
      .reg .galCapHoldCnt, .reg .galSlotTokens, .reg .hbmcCeCnt, .reg .hbmcUeCnt, .reg .hbmcPoisonMarkCnt, .reg .hbmcSevUeCnt,
      .reg .hbmcWritebackCnt, .reg .hbmcPartialWrCnt, .reg .hbmcErrLog, .reg .poolMoveStatus, .reg .poolMoveCancelCnt, .reg .poolOwnerUse,
      .reg .beamPreemptCyc, .reg .beamRecState, .reg .ctrStackSectorCnt, .reg .ctrTraceLostCnt, .reg .keepHostwinErrCnt]
  | .quietWindowClose .. =>
    [.mem, .badCheck, .hbmDelta, .poison, .sram, .hbm, .pool, .beam, .dict, .heldWrites, .fabric, .host, .reg .galCapHoldCnt,
      .reg .hbmcCeCnt, .reg .hbmcUeCnt, .reg .hbmcPoisonMarkCnt, .reg .hbmcSevUeCnt, .reg .hbmcWritebackCnt, .reg .hbmcPartialWrCnt,
      .reg .hbmcErrLog, .reg .poolMoveStatus, .reg .poolMoveCancelCnt, .reg .poolOwnerUse, .reg .beamQuietDeferCnt,
      .reg .beamDeadlineMissCnt, .reg .beamCringFullCnt, .reg .beamRecClampCnt, .reg .beamCringIdx, .reg .beamRecState, .reg .beamTokens,
      .reg .ctrStackSectorCnt, .reg .keepHostwinErrCnt]
  | .recordEnd .. =>
    [.mem, .badCheck, .hbmDelta, .poison, .seqs, .reruns, .regens, .sram, .hbm, .pool, .beam, .dict, .heldWrites, .fabric, .host,
      .reg .galCapHoldCnt, .reg .hbmcCeCnt, .reg .hbmcUeCnt, .reg .hbmcPoisonMarkCnt, .reg .hbmcSevUeCnt, .reg .hbmcWritebackCnt,
      .reg .hbmcPartialWrCnt, .reg .hbmcErrLog, .reg .poolMoveStatus, .reg .poolMoveCancelCnt, .reg .poolOwnerUse,
      .reg .beamDeadlineMissCnt, .reg .beamCringFullCnt, .reg .beamRecClampCnt, .reg .beamCringIdx, .reg .beamRecState, .reg .beamTokens,
      .reg .ctrStackSectorCnt, .reg .keepHostwinErrCnt]
  | .cringRoom .. =>
    [.mem, .badCheck, .hbmDelta, .poison, .sram, .hbm, .pool, .beam, .dict, .heldWrites, .fabric, .host, .reg .galCapHoldCnt,
      .reg .hbmcCeCnt, .reg .hbmcUeCnt, .reg .hbmcPoisonMarkCnt, .reg .hbmcSevUeCnt, .reg .hbmcWritebackCnt, .reg .hbmcPartialWrCnt,
      .reg .hbmcErrLog, .reg .poolMoveStatus, .reg .poolMoveCancelCnt, .reg .poolOwnerUse, .reg .beamDeadlineMissCnt,
      .reg .beamRecClampCnt, .reg .beamCringIdx, .reg .beamRecState, .reg .beamTokens, .reg .ctrStackSectorCnt, .reg .keepHostwinErrCnt]
  | .tokenSet .. | .tokenClear .. =>
    [.reg .beamTokenCmd, .reg .beamTokens]
  | .abortRecord .. | .abortOwner .. =>
    [.mem, .badCheck, .hbmDelta, .poison, .engines, .chains, .seqs, .sram, .hbm, .pool, .beam, .dict, .heldWrites, .sentMsgs, .trace,
      .fabric, .coll, .host, .daymarks, .copying, .reg .engTaskState, .reg .cluMemParityCnt, .reg .cluMemParityLog,
      .reg .cluCkptRegenFailCnt, .reg .cluChainEndCnt, .reg .cluChainLog, .reg .cluSlotTokens, .reg .galRepairStatus, .reg .galRowErrLog,
      .reg .galBankState, .reg .galParityCnt, .reg .galParityRefetchCnt, .reg .galCapHoldCnt, .reg .galSlotTokens, .reg .hbmcCeCnt,
      .reg .hbmcUeCnt, .reg .hbmcPoisonMarkCnt, .reg .hbmcSevUeCnt, .reg .hbmcWritebackCnt, .reg .hbmcPartialWrCnt, .reg .hbmcErrLog,
      .reg .hbmcMaintEntry, .reg .poolMoveStatus, .reg .poolEvictCnt, .reg .poolWritebackCnt, .reg .poolMoveCancelCnt, .reg .poolOwnerUse,
      .reg .poolDmStatus, .reg .poolDmAbandonCnt, .reg .winTornCnt, .reg .collOpCnt, .reg .collAbortCnt, .reg .collPeerLostCnt,
      .reg .collRouteDropCnt, .reg .beamAbortCmd, .reg .beamQuietDeferCnt, .reg .beamDeadlineMissCnt, .reg .beamCringFullCnt,
      .reg .beamAbortIgnoredCnt, .reg .beamRecClampCnt, .reg .beamCringIdx, .reg .beamRecState, .reg .beamTokens, .reg .ctrStackSectorCnt,
      .reg .ctrTraceLostCnt, .reg .keepHostwinErrCnt]
  | .beamMark .. =>
    [.mem, .badCheck, .hbmDelta, .poison, .engines, .sram, .hbm, .pool, .beam, .dict, .heldWrites, .trace, .fabric, .power, .mooring,
      .cyc, .reg .galRepairStatus, .reg .galCapHoldCnt, .reg .hbmcCeCnt, .reg .hbmcUeCnt, .reg .hbmcPoisonMarkCnt, .reg .hbmcSevUeCnt,
      .reg .hbmcWritebackCnt, .reg .hbmcPartialWrCnt, .reg .hbmcErrLog, .reg .hbmcMaintEntry, .reg .poolMoveStatus,
      .reg .poolMoveCancelCnt, .reg .poolOwnerUse, .reg .fabFecCorrCnt, .reg .fabFecUncorrCnt, .reg .fabCtrlDropCnt, .reg .beamNow,
      .reg .beamStatus, .reg .beamLateCnt, .reg .beamMarkRxCnt, .reg .beamForeignCnt, .reg .beamStepCnt, .reg .beamRecClampCnt,
      .reg .beamRecState, .reg .beamTokens, .reg .pwrStatus, .reg .ctrTraceCfg, .reg .ctrTraceMask, .reg .ctrStackSectorCnt,
      .reg .ctrTraceLostCnt, .reg .keepHostwinErrCnt]
  | .markLossTimeout .. =>
    [.beam, .dict, .reg .beamStatus, .reg .beamHoldoverCnt]
  | .beamHoldoverTimeout .. =>
    [.dict, .reg .beamStatus]
  | .daymarkTakeEffect .. =>
    [.mem, .badCheck, .hbmDelta, .poison, .sram, .hbm, .pool, .beam, .dict, .heldWrites, .fabric, .host, .daymarks,
      .reg .galRepairStatus, .reg .galCapHoldCnt, .reg .hbmcCeCnt, .reg .hbmcUeCnt, .reg .hbmcPoisonMarkCnt, .reg .hbmcSevUeCnt,
      .reg .hbmcWritebackCnt, .reg .hbmcPartialWrCnt, .reg .hbmcErrLog, .reg .hbmcMaintEntry, .reg .poolMoveStatus,
      .reg .poolMoveCancelCnt, .reg .poolOwnerUse, .reg .poolDmStatus, .reg .beamDeadlineMissCnt, .reg .beamCringFullCnt,
      .reg .beamRecClampCnt, .reg .beamCringIdx, .reg .beamRecState, .reg .beamTokens, .reg .ctrStackSectorCnt, .reg .keepHostwinErrCnt]
  | .pageCopyDone .. =>
    [.mem, .badCheck, .hbmDelta, .poison, .engines, .chains, .seqs, .sram, .hbm, .pool, .beam, .dict, .heldWrites, .sentMsgs, .trace,
      .fabric, .host, .daymarks, .copying, .reg .engTaskState, .reg .cluMemParityCnt, .reg .cluMemParityLog, .reg .cluCkptRegenFailCnt,
      .reg .cluChainEndCnt, .reg .cluChainLog, .reg .cluSlotTokens, .reg .galRepairStatus, .reg .galRowErrLog, .reg .galBankState,
      .reg .galParityCnt, .reg .galParityRefetchCnt, .reg .galCapHoldCnt, .reg .galSlotTokens, .reg .hbmcCeCnt, .reg .hbmcUeCnt,
      .reg .hbmcPoisonMarkCnt, .reg .hbmcSevUeCnt, .reg .hbmcWritebackCnt, .reg .hbmcPartialWrCnt, .reg .hbmcErrLog, .reg .hbmcMaintEntry,
      .reg .poolMoveStatus, .reg .poolEvictCnt, .reg .poolWritebackCnt, .reg .poolMoveCancelCnt, .reg .poolOwnerUse, .reg .poolDmStatus,
      .reg .poolDmPagesCnt, .reg .poolDmFirstTouchCnt, .reg .poolDmPoisonPageCnt, .reg .poolDmAbandonCnt, .reg .winTornCnt,
      .reg .collRouteDropCnt, .reg .beamDeadlineMissCnt, .reg .beamCringFullCnt, .reg .beamRecClampCnt, .reg .beamCringIdx,
      .reg .beamRecState, .reg .beamTokens, .reg .ctrStackSectorCnt, .reg .ctrTraceLostCnt, .reg .keepHostwinErrCnt]
  | .daymarkCommit .. =>
    [.mem, .badCheck, .hbmDelta, .poison, .engines, .chains, .seqs, .sram, .hbm, .pool, .beam, .dict, .heldWrites, .sentMsgs, .trace,
      .fabric, .host, .daymarks, .copying, .reg .engTaskState, .reg .cluMemParityCnt, .reg .cluMemParityLog, .reg .cluCkptRegenFailCnt,
      .reg .cluChainEndCnt, .reg .cluChainLog, .reg .cluSlotTokens, .reg .galRepairStatus, .reg .galRowErrLog, .reg .galBankState,
      .reg .galParityCnt, .reg .galParityRefetchCnt, .reg .galCapHoldCnt, .reg .galSlotTokens, .reg .hbmcCeCnt, .reg .hbmcUeCnt,
      .reg .hbmcPoisonMarkCnt, .reg .hbmcSevUeCnt, .reg .hbmcWritebackCnt, .reg .hbmcPartialWrCnt, .reg .hbmcErrLog, .reg .hbmcMaintEntry,
      .reg .poolMoveStatus, .reg .poolEvictCnt, .reg .poolWritebackCnt, .reg .poolMoveCancelCnt, .reg .poolOwnerUse, .reg .poolDmStatus,
      .reg .winTornCnt, .reg .collRouteDropCnt, .reg .beamDeadlineMissCnt, .reg .beamCringFullCnt, .reg .beamRecClampCnt,
      .reg .beamCringIdx, .reg .beamRecState, .reg .beamTokens, .reg .ctrStackSectorCnt, .reg .ctrTraceLostCnt, .reg .keepHostwinErrCnt]
  | .daymarkRestore .. =>
    [.restores, .reg .poolDmRestoreCmd, .reg .poolDmRestoreStatus]
  | .restoreEnd .. =>
    [.mem, .badCheck, .hbmDelta, .poison, .sram, .hbm, .pool, .beam, .dict, .heldWrites, .restores, .reg .cluMemParityCnt,
      .reg .cluMemParityLog, .reg .galRowErrLog, .reg .galBankState, .reg .galParityCnt, .reg .galParityRefetchCnt, .reg .galCapHoldCnt,
      .reg .hbmcCeCnt, .reg .hbmcUeCnt, .reg .hbmcPoisonMarkCnt, .reg .hbmcSevUeCnt, .reg .hbmcWritebackCnt, .reg .hbmcPartialWrCnt,
      .reg .hbmcErrLog, .reg .poolMoveStatus, .reg .poolMoveCancelCnt, .reg .poolOwnerUse, .reg .poolDmRestoreStatus,
      .reg .poolDmRestorePageCnt, .reg .ctrStackSectorCnt, .reg .keepHostwinErrCnt]
  | .packageFailed .. =>
    [.mem, .badCheck, .hbmDelta, .poison, .engines, .chains, .seqs, .sram, .hbm, .pool, .beam, .dict, .dictBytes, .heldWrites,
      .sentMsgs, .trace, .fabric, .coll, .host, .daymarks, .copying, .mooring, .reg .engTaskState, .reg .cluMemParityCnt,
      .reg .cluMemParityLog, .reg .cluCkptRegenFailCnt, .reg .cluChainEndCnt, .reg .cluChainLog, .reg .cluSlotTokens,
      .reg .galRepairStatus, .reg .galRowErrLog, .reg .galBankState, .reg .galParityCnt, .reg .galParityRefetchCnt, .reg .galCapHoldCnt,
      .reg .galSlotTokens, .reg .hbmcCeCnt, .reg .hbmcUeCnt, .reg .hbmcPoisonMarkCnt, .reg .hbmcSevUeCnt, .reg .hbmcWritebackCnt,
      .reg .hbmcPartialWrCnt, .reg .hbmcErrLog, .reg .hbmcMaintEntry, .reg .poolMoveStatus, .reg .poolEvictCnt, .reg .poolWritebackCnt,
      .reg .poolMoveCancelCnt, .reg .poolOwnerUse, .reg .poolDmStatus, .reg .poolDmAbandonCnt, .reg .winTornCnt, .reg .collOpCnt,
      .reg .collNonfiniteCnt, .reg .collAbortCnt, .reg .collPeerLostCnt, .reg .collRouteDropCnt, .reg .collNfSeen, .reg .collNfGate,
      .reg .collMemberGenSet, .reg .collGroupW0, .reg .collGroupW1, .reg .collGroupW2, .reg .collRoute, .reg .beamQuietDeferCnt,
      .reg .beamDeadlineMissCnt, .reg .beamCringFullCnt, .reg .beamAbortIgnoredCnt, .reg .beamRecClampCnt, .reg .beamCringIdx,
      .reg .beamRecState, .reg .beamTokens, .reg .ctrStackSectorCnt, .reg .ctrTraceLostCnt, .reg .keepHostwinErrCnt]
  | .tableUpdate .. | .shelfRescan .. | .read .. | .dictWrite .. | .describe .. | .dictLock .. | .dictStore ..
  | .resetRequest .. | .powerMode .. | .subMode .. | .dictReq .. | .fogSend .. | .fwUpdate .. | .svnCommit ..
  | .debugChallenge .. | .debugUnlock .. =>
    [.mem, .badCheck, .hbmDelta, .poison, .engines, .chains, .seqs, .sram, .hbm, .pool, .beam, .dict, .dictBytes, .fuses, .heldWrites,
      .sentMsgs, .trace, .fabric, .coll, .host, .daymarks, .copying, .power, .resets, .mooring, .flash, .security, .keeper, .free,
      .reg .engTaskState, .reg .cluMemParityCnt, .reg .cluMemParityLog, .reg .cluCkptRegenFailCnt, .reg .cluChainEndCnt,
      .reg .cluChainLog, .reg .cluSlotTokens, .reg .galRepairStatus, .reg .galRowErrLog, .reg .galBankState, .reg .galParityCnt,
      .reg .galParityRefetchCnt, .reg .galCapHoldCnt, .reg .galSlotTokens, .reg .hbmcCeCnt, .reg .hbmcUeCnt, .reg .hbmcPoisonMarkCnt,
      .reg .hbmcSevUeCnt, .reg .hbmcWritebackCnt, .reg .hbmcPartialWrCnt, .reg .hbmcErrLog, .reg .hbmcMaintEntry, .reg .poolMoveStatus,
      .reg .poolEvictCnt, .reg .poolWritebackCnt, .reg .poolMoveCancelCnt, .reg .poolOwnerUse, .reg .poolDmStatus, .reg .poolDmAbandonCnt,
      .reg .fabStatus, .reg .winTornCnt, .reg .collOpCnt, .reg .collNonfiniteCnt, .reg .collAbortCnt, .reg .collPeerLostCnt,
      .reg .collRouteDropCnt, .reg .collNfSeen, .reg .collNfGate, .reg .collMemberGenSet, .reg .collGroupW0, .reg .collGroupW1,
      .reg .collGroupW2, .reg .collRoute, .reg .beamStatus, .reg .beamQuietDeferCnt, .reg .beamDeadlineMissCnt, .reg .beamCringFullCnt,
      .reg .beamAbortIgnoredCnt, .reg .beamRecClampCnt, .reg .beamCringIdx, .reg .beamRecState, .reg .beamTokens, .reg .pwrStatus,
      .reg .ctrTraceCfg, .reg .ctrStackSectorCnt, .reg .ctrTraceLostCnt, .reg .keepHrspIdx, .reg .keepHostwinErrCnt, .reg .secStatus]
  | .criticalStateError .. | .perst .. | .reset .. | .railOutOfWindow .. | .porN .. | .tempSample ..
  | .watchdogExpiry .. =>
    Cell.allBut [.fuses, .order, .lid, .flash, .free]
  | .readReq .. =>
    [.mem, .badCheck, .hbmDelta, .poison, .sram, .hbm, .pool, .beam, .dict, .heldWrites, .keeper, .reg .cluMemParityCnt,
      .reg .cluMemParityLog, .reg .galRowErrLog, .reg .galBankState, .reg .galParityCnt, .reg .galParityRefetchCnt, .reg .galCapHoldCnt,
      .reg .hbmcCeCnt, .reg .hbmcUeCnt, .reg .hbmcPoisonMarkCnt, .reg .hbmcSevUeCnt, .reg .hbmcWritebackCnt, .reg .hbmcPartialWrCnt,
      .reg .hbmcErrLog, .reg .poolMoveStatus, .reg .poolMoveCancelCnt, .reg .poolOwnerUse, .reg .uciBadTxnCnt, .reg .ctrStackSectorCnt]
  | .readData .. | .cfgData .. | .event .. =>
    [.keeper, .reg .uciBadTxnCnt, .reg .uciLineCrcCnt]
  | .write .. =>
    [.mem, .lens, .badCheck, .hbmDelta, .poison, .engines, .chains, .seqs, .reruns, .sram, .hbm, .pool, .beam, .dict, .heldWrites,
      .sentMsgs, .msgNum, .trace, .host, .free, .reg .engArrayStatus, .reg .engArrayIssueCnt, .reg .engVecIssueCnt,
      .reg .engFuncResultCnt, .reg .engSkipDecideCnt, .reg .engSkipBlockCnt, .reg .engSkipReplayCnt, .reg .engSkipRowReplayCnt,
      .reg .engRngOutputCnt, .reg .engLensConflictCnt, .reg .engLensParityCnt, .reg .engLensParityLog, .reg .engTaskState,
      .reg .engConvCnt, .reg .engVopCnt, .reg .cluMemParityCnt, .reg .cluMemParityLog, .reg .cluCkptRegenFailCnt, .reg .cluChainEndCnt,
      .reg .cluRunaheadMissCnt, .reg .cluExtentMaskCnt, .reg .cluDescClampCnt, .reg .cluGatherReqCnt, .reg .cluChainLog,
      .reg .cluSlotTokens, .reg .galRowErrLog, .reg .galBankState, .reg .galParityCnt, .reg .galParityRefetchCnt, .reg .galCapHoldCnt,
      .reg .galSlotTokens, .reg .galFlagEntry, .reg .hbmcCeCnt, .reg .hbmcUeCnt, .reg .hbmcPoisonMarkCnt, .reg .hbmcSevUeCnt,
      .reg .hbmcWritebackCnt, .reg .hbmcPartialWrCnt, .reg .hbmcErrLog, .reg .poolMoveStatus, .reg .poolEvictCnt, .reg .poolWritebackCnt,
      .reg .poolMoveCancelCnt, .reg .poolPinRefusedCnt, .reg .poolOwnerUse, .reg .poolXlatBadCnt, .reg .poolXlatRefusedCnt,
      .reg .beamPreemptCnt, .reg .beamPreemptCyc, .reg .beamRecState, .reg .uciBadTxnCnt, .reg .uciLineCrcCnt, .reg .ctrStackSectorCnt,
      .reg .ctrTraceLostCnt, .reg .keepHostwinErrCnt]
  | .cfgRead .. =>
    [.keeper, .reg .uciBadTxnCnt]
  | .cfgWrite .. | .configViewAccess .. | .registerWrite .. =>
    Cell.allBut [.lens, .reruns, .regens, .dictBytes, .fuses, .order, .lid, .msgNum, .power, .mooring, .flash, .cyc]
  | .post .. =>
    [.reg .galFlagEntry, .reg .beamTokens, .reg .uciBadTxnCnt]
  | .ucieRetrain .. =>
    [.reg .uciStatus, .reg .uciRetrainCnt]
  | .ucieRetrainDone .. =>
    [.engines, .chains, .seqs, .sram, .pool, .beam, .dict, .heldWrites, .sentMsgs, .trace, .keeper, .reg .engTaskState,
      .reg .cluCkptRegenFailCnt, .reg .cluChainEndCnt, .reg .cluChainLog, .reg .cluSlotTokens, .reg .galSlotTokens, .reg .uciStatus,
      .reg .ctrTraceLostCnt]
  | .poolXlatInv .. =>
    [.reg .poolXlatInv, .reg .poolXlatInvStatus]
  | .xlatInvDone .. =>
    [.reg .poolXlatInvStatus]
  | .apertureAccess .. =>
    [.mem, .badCheck, .hbmDelta, .poison, .sram, .hbm, .pool, .beam, .dict, .heldWrites, .keeper, .reg .cluMemParityCnt,
      .reg .cluMemParityLog, .reg .galRowErrLog, .reg .galBankState, .reg .galParityCnt, .reg .galParityRefetchCnt, .reg .galCapHoldCnt,
      .reg .hbmcCeCnt, .reg .hbmcUeCnt, .reg .hbmcPoisonMarkCnt, .reg .hbmcSevUeCnt, .reg .hbmcWritebackCnt, .reg .hbmcPartialWrCnt,
      .reg .hbmcErrLog, .reg .poolMoveStatus, .reg .poolMoveCancelCnt, .reg .poolOwnerUse, .reg .ctrStackSectorCnt,
      .reg .keepApertureErrCnt, .reg .keepHostMergeCnt, .reg .keepHostwinErrCnt]
  | .hostWindowAccess .. =>
    [.mem, .badCheck, .hbmDelta, .poison, .engines, .chains, .seqs, .sram, .hbm, .pool, .beam, .heldWrites, .sentMsgs, .trace,
      .reg .engTaskState, .reg .cluCkptRegenFailCnt, .reg .cluChainEndCnt, .reg .cluChainLog, .reg .cluSlotTokens, .reg .galSlotTokens,
      .reg .ctrTraceLostCnt, .reg .keepHostwinErrCnt]
  | .keepBootCmd .. =>
    [.sram, .dict, .host, .resets, .security, .keeper, .reg .galBankState, .reg .galRepairLogBadCnt, .reg .poolFloorCutCnt,
      .reg .keepBootStatus, .reg .keepBootCmd, .reg .secStatus, .reg .secVerifyLog]
  | .keepSwIrq .. | .irqHoldoffExpiry .. =>
    [.host]
  | .hcmdPoll .. =>
    [.mem, .badCheck, .hbmDelta, .poison, .engines, .chains, .seqs, .sram, .hbm, .pool, .beam, .dict, .dictBytes, .fuses, .heldWrites,
      .sentMsgs, .trace, .fabric, .coll, .host, .daymarks, .copying, .power, .resets, .mooring, .flash, .security, .keeper, .free,
      .reg .engTaskState, .reg .cluMemParityCnt, .reg .cluMemParityLog, .reg .cluCkptRegenFailCnt, .reg .cluChainEndCnt,
      .reg .cluChainLog, .reg .cluSlotTokens, .reg .galRepairStatus, .reg .galRowErrLog, .reg .galBankState, .reg .galParityCnt,
      .reg .galParityRefetchCnt, .reg .galCapHoldCnt, .reg .galSlotTokens, .reg .hbmcCeCnt, .reg .hbmcUeCnt, .reg .hbmcPoisonMarkCnt,
      .reg .hbmcSevUeCnt, .reg .hbmcWritebackCnt, .reg .hbmcPartialWrCnt, .reg .hbmcErrLog, .reg .hbmcMaintEntry, .reg .poolMoveStatus,
      .reg .poolEvictCnt, .reg .poolWritebackCnt, .reg .poolMoveCancelCnt, .reg .poolOwnerUse, .reg .poolDmStatus, .reg .poolDmAbandonCnt,
      .reg .fabStatus, .reg .winTornCnt, .reg .collOpCnt, .reg .collNonfiniteCnt, .reg .collAbortCnt, .reg .collPeerLostCnt,
      .reg .collRouteDropCnt, .reg .collNfSeen, .reg .collNfGate, .reg .collMemberGenSet, .reg .collGroupW0, .reg .collGroupW1,
      .reg .collGroupW2, .reg .collRoute, .reg .beamStatus, .reg .beamQuietDeferCnt, .reg .beamDeadlineMissCnt, .reg .beamCringFullCnt,
      .reg .beamAbortIgnoredCnt, .reg .beamRecClampCnt, .reg .beamCringIdx, .reg .beamRecState, .reg .beamTokens, .reg .pwrStatus,
      .reg .ctrTraceCfg, .reg .ctrStackSectorCnt, .reg .ctrTraceLostCnt, .reg .keepHcmdIdx, .reg .keepHrspIdx, .reg .keepHostwinErrCnt,
      .reg .secStatus]
  | .functionLevelReset .. =>
    Cell.allBut [.mem, .lens, .badCheck, .hbmDelta, .poison, .engines, .chains, .seqs, .reruns, .regens, .sram, .hbm, .pool, .beam,
      .dict, .dictBytes, .fuses, .order, .lid, .heldWrites, .sentMsgs, .msgNum, .trace, .fabric, .coll, .daymarks, .copying, .restores,
      .power, .resets, .mooring, .flash, .security, .keeper, .cyc, .free]
  | .resetRequestDelayExpiry .. =>
    Cell.allBut [.order, .lid]
  | .modeChangeResume .. =>
    [.mem, .lens, .badCheck, .hbmDelta, .poison, .engines, .chains, .seqs, .reruns, .sram, .hbm, .pool, .beam, .dict, .heldWrites,
      .sentMsgs, .msgNum, .trace, .host, .power, .free, .reg .engArrayStatus, .reg .engArrayIssueCnt, .reg .engVecIssueCnt,
      .reg .engFuncResultCnt, .reg .engSkipDecideCnt, .reg .engSkipBlockCnt, .reg .engSkipReplayCnt, .reg .engSkipRowReplayCnt,
      .reg .engRngOutputCnt, .reg .engLensConflictCnt, .reg .engLensParityCnt, .reg .engLensParityLog, .reg .engTaskState,
      .reg .engConvCnt, .reg .engVopCnt, .reg .cluCkptRegenFailCnt, .reg .cluChainEndCnt, .reg .cluExtentMaskCnt, .reg .cluDescClampCnt,
      .reg .cluChainLog, .reg .cluSlotTokens, .reg .galCapHoldCnt, .reg .galSlotTokens, .reg .galFlagEntry, .reg .hbmcCeCnt,
      .reg .hbmcUeCnt, .reg .hbmcPoisonMarkCnt, .reg .hbmcSevUeCnt, .reg .hbmcWritebackCnt, .reg .hbmcPartialWrCnt, .reg .hbmcErrLog,
      .reg .poolMoveStatus, .reg .poolMoveCancelCnt, .reg .poolOwnerUse, .reg .poolXlatBadCnt, .reg .poolXlatRefusedCnt,
      .reg .beamPreemptCnt, .reg .beamPreemptCyc, .reg .beamRecState, .reg .pwrStatus, .reg .ctrStackSectorCnt, .reg .ctrTraceLostCnt,
      .reg .keepHostwinErrCnt]
  | .dictRsp .. =>
    [.dict, .mooring]
  | .fog .. =>
    [.mem, .badCheck, .hbmDelta, .poison, .engines, .chains, .seqs, .sram, .hbm, .pool, .beam, .dict, .dictBytes, .heldWrites,
      .sentMsgs, .trace, .fabric, .coll, .host, .daymarks, .copying, .mooring, .reg .engTaskState, .reg .cluMemParityCnt,
      .reg .cluMemParityLog, .reg .cluCkptRegenFailCnt, .reg .cluChainEndCnt, .reg .cluChainLog, .reg .cluSlotTokens,
      .reg .galRepairStatus, .reg .galRowErrLog, .reg .galBankState, .reg .galParityCnt, .reg .galParityRefetchCnt, .reg .galCapHoldCnt,
      .reg .galSlotTokens, .reg .hbmcCeCnt, .reg .hbmcUeCnt, .reg .hbmcPoisonMarkCnt, .reg .hbmcSevUeCnt, .reg .hbmcWritebackCnt,
      .reg .hbmcPartialWrCnt, .reg .hbmcErrLog, .reg .hbmcMaintEntry, .reg .poolMoveStatus, .reg .poolEvictCnt, .reg .poolWritebackCnt,
      .reg .poolMoveCancelCnt, .reg .poolOwnerUse, .reg .poolDmStatus, .reg .poolDmAbandonCnt, .reg .fabFecCorrCnt, .reg .fabFecUncorrCnt,
      .reg .fabCtrlDropCnt, .reg .winTornCnt, .reg .collOpCnt, .reg .collAbortCnt, .reg .collPeerLostCnt, .reg .collRouteDropCnt,
      .reg .beamQuietDeferCnt, .reg .beamDeadlineMissCnt, .reg .beamCringFullCnt, .reg .beamAbortIgnoredCnt, .reg .beamRecClampCnt,
      .reg .beamCringIdx, .reg .beamRecState, .reg .beamTokens, .reg .ctrStackSectorCnt, .reg .ctrTraceLostCnt, .reg .keepHostwinErrCnt]
  | .coarseBeam .. =>
    [.mem, .badCheck, .hbmDelta, .poison, .engines, .sram, .hbm, .pool, .beam, .dict, .heldWrites, .trace, .power, .mooring, .cyc,
      .reg .galRepairStatus, .reg .galCapHoldCnt, .reg .hbmcCeCnt, .reg .hbmcUeCnt, .reg .hbmcPoisonMarkCnt, .reg .hbmcSevUeCnt,
      .reg .hbmcWritebackCnt, .reg .hbmcPartialWrCnt, .reg .hbmcErrLog, .reg .hbmcMaintEntry, .reg .poolMoveStatus,
      .reg .poolMoveCancelCnt, .reg .poolOwnerUse, .reg .beamNow, .reg .beamStatus, .reg .beamLateCnt, .reg .beamStepCnt,
      .reg .beamRecClampCnt, .reg .beamRecState, .reg .beamTokens, .reg .pwrStatus, .reg .ctrTraceCfg, .reg .ctrTraceMask,
      .reg .ctrStackSectorCnt, .reg .ctrTraceLostCnt, .reg .keepHostwinErrCnt]
  | .presence .. =>
    [.dict, .dictBytes]
  | .presenceSend .. | .coarseBeamSend .. =>
    [.mooring]
  | .releaseStep .. =>
    Cell.allBut [.lens, .engines, .chains, .seqs, .reruns, .regens, .dictBytes, .order, .lid, .sentMsgs, .msgNum, .trace, .fabric,
      .coll, .daymarks, .copying, .restores, .mooring, .cyc, .free]
  | .fabricTrainTimeout .. =>
    [.dict, .host, .resets, .reg .keepBootStatus]
  | .governorInterval .. =>
    [.dict, .power, .reg .pwrStatus, .reg .pwrThermCnt]
  | .droopDetect .. =>
    [.power, .reg .pwrDroopCnt]
  | .hbmRamp .. =>
    [.power, .reg .poolStallCyc]
  | .thermalRelease .. =>
    [.dict, .resets]
  | .rstBlockCmd .. =>
    [.hbm, .resets, .free, .reg .galRepairStatus, .reg .hbmcMaintEntry, .reg .rstBlockCmd, .reg .rstBlockStatus,
      .reg .rstBlockIgnoredCnt]
  | .blockResetExecute .. =>
    [.mem, .lens, .badCheck, .poison, .engines, .chains, .seqs, .reruns, .sram, .pool, .beam, .heldWrites, .sentMsgs, .trace, .resets,
      .reg .engArrayStatus, .reg .engTaskState, .reg .cluCkptRegenFailCnt, .reg .cluChainEndCnt, .reg .cluChainLog, .reg .cluSlotTokens,
      .reg .galSlotTokens, .reg .rstBlockStatus, .reg .rstBlockTimeoutCnt, .reg .ctrTraceLostCnt]
  | .blockResetRelease .. =>
    [.engines, .chains, .hbm, .trace, .resets, .free, .reg .engTaskState, .reg .galRepairStatus, .reg .hbmcMaintEntry,
      .reg .rstBlockStatus, .reg .rstBlockCnt, .reg .ctrTraceLostCnt]
  | .fwVerifyDone .. =>
    [.dict, .flash, .security, .reg .keepBootStatus, .reg .secVerifyLog]
  | .spdmRequest .. =>
    [.mem, .badCheck, .hbmDelta, .poison, .engines, .chains, .seqs, .sram, .hbm, .pool, .beam, .dict, .dictBytes, .fuses, .heldWrites,
      .sentMsgs, .trace, .fabric, .coll, .host, .daymarks, .copying, .mooring, .flash, .security, .free, .reg .engTaskState,
      .reg .cluMemParityCnt, .reg .cluMemParityLog, .reg .cluCkptRegenFailCnt, .reg .cluChainEndCnt, .reg .cluChainLog,
      .reg .cluSlotTokens, .reg .galRepairStatus, .reg .galRowErrLog, .reg .galBankState, .reg .galParityCnt, .reg .galParityRefetchCnt,
      .reg .galCapHoldCnt, .reg .galSlotTokens, .reg .hbmcCeCnt, .reg .hbmcUeCnt, .reg .hbmcPoisonMarkCnt, .reg .hbmcSevUeCnt,
      .reg .hbmcWritebackCnt, .reg .hbmcPartialWrCnt, .reg .hbmcErrLog, .reg .hbmcMaintEntry, .reg .poolMoveStatus, .reg .poolEvictCnt,
      .reg .poolWritebackCnt, .reg .poolMoveCancelCnt, .reg .poolOwnerUse, .reg .poolDmStatus, .reg .poolDmAbandonCnt, .reg .winTornCnt,
      .reg .collOpCnt, .reg .collAbortCnt, .reg .collPeerLostCnt, .reg .collRouteDropCnt, .reg .beamQuietDeferCnt,
      .reg .beamDeadlineMissCnt, .reg .beamCringFullCnt, .reg .beamAbortIgnoredCnt, .reg .beamRecClampCnt, .reg .beamCringIdx,
      .reg .beamRecState, .reg .beamTokens, .reg .ctrStackSectorCnt, .reg .ctrTraceLostCnt, .reg .keepHostwinErrCnt, .reg .secStatus,
      .reg .secLmsState]
  | .traceSinkWrite .. =>
    [.mem, .badCheck, .hbmDelta, .poison, .sram, .hbm, .pool, .beam, .dict, .heldWrites, .trace, .reg .galCapHoldCnt, .reg .hbmcCeCnt,
      .reg .hbmcUeCnt, .reg .hbmcPoisonMarkCnt, .reg .hbmcSevUeCnt, .reg .hbmcWritebackCnt, .reg .hbmcPartialWrCnt, .reg .hbmcErrLog,
      .reg .poolMoveStatus, .reg .poolMoveCancelCnt, .reg .poolOwnerUse, .reg .ctrTraceIdx, .reg .ctrStackSectorCnt,
      .reg .ctrTraceLostCnt, .reg .ctrTraceSinkErrCnt, .reg .ctrTraceRecCnt, .reg .keepHostwinErrCnt]

end Sys2Proof.Machine
end

