-- ==== Sys2Proof/WellFormed.lean ====
section
/-!
DEFINITION. Commands that a sender of the package can produce: a command image has its rule's length (R323, R521), and a message as many
line segments as its header says (R487, R562). The meanings do not rest on it.
-/
namespace Sys2Proof

/-- A command image given whole has its `n` words. -/
def CmdImage.wordsOk (n : Nat) : CmdImage → Bool
  | .words ws => ws.length == n
  | .program => true

/-- Whether a command is well formed. -/
def Instr.wf : Instr → Bool
  | .pass _ _ _ => true
  | .tileMark _ _ => true
  | .passComplete _ => true
  | .stationaryLoadDone _ => true
  | .tileOverrun _ => true
  | .arrayRampDown _ _ => true
  | .rampWindowStart _ => true
  | .rampUpEnd _ => true
  | .nop _ _ _ => true
  | .add _ _ _ => true
  | .sub _ _ _ => true
  | .mul _ _ _ => true
  | .fma _ _ _ => true
  | .max _ _ _ => true
  | .min _ _ _ => true
  | .abs _ _ _ => true
  | .neg _ _ _ => true
  | .copy _ _ _ => true
  | .rowsum _ _ _ => true
  | .rowmax _ _ _ => true
  | .rownorm _ _ _ => true
  | .knorm _ _ _ => true
  | .func _ _ _ => true
  | .deriv _ _ _ => true
  | .smxUpdate _ _ _ => true
  | .smxProb _ _ _ => true
  | .rowScale _ _ _ => true
  | .skipDecide _ _ _ => true
  | .skipReplay _ _ _ => true
  | .dropout _ _ _ => true
  | .randUniform _ _ _ => true
  | .flagsClear _ _ _ => true
  | .flagsGet _ _ _ => true
  | .galFlagEntryClear _ _ _ => true
  | .predictorCommitLaunch _ _ _ => true
  | .checkpointRegeneration _ _ => true
  | .clusterBankGrant _ _ _ => true
  | .galleryBankGrant _ _ _ => true
  | .parityError _ _ _ => true
  | .rerunLaunch _ => true
  | .lineCrcFail _ => true
  | .lineRefetchDone _ => true
  | .galRepairCmd _ _ => true
  | .rowRepairRun _ => true
  | .stageChain _ _ image => image.wordsOk 32
  | .stageItemStart _ _ _ _ _ => true
  | .slotFull _ _ => true
  | .slotEmpty _ _ => true
  | .tokenHandover _ _ _ => true
  | .chainCommit _ => true
  | .nextChainLaunch _ _ image => image.wordsOk 32
  | .taskSwitch _ _ => true
  | .switchThresholdExpiry _ _ => true
  | .chainStall _ _ => true
  | .slotTimeout _ _ _ => true
  | .chainAbort _ => true
  | .runaheadResume _ => true
  | .hbmRead _ _ _ _ => true
  | .hbmWrite _ _ _ _ _ _ => true
  | .correctionWriteback _ => true
  | .heldRequestEnter _ _ => true
  | .ecsCountRead _ _ => true
  | .stackTempRead _ _ => true
  | .scrubStart _ _ => true
  | .scrubSectorRead _ _ _ _ => true
  | .scrubComplete _ => true
  | .calibrationRequest _ _ => true
  | .selfTestRequest _ _ => true
  | .refreshRateRequest _ _ => true
  | .maintRequestEntry _ => true
  | .maintAdmit _ _ => true
  | .calGroupOut _ _ => true
  | .calGroupReturn _ _ => true
  | .calPeriodExpiry _ _ => true
  | .selfTestDone _ _ _ => true
  | .frameRequest _ _ _ _ _ => true
  | .frameRequestRetry _ => true
  | .poolWaitTimeout _ _ _ _ => true
  | .moveSwitch _ => true
  | .move _ _ => true
  | .pin _ _ => true
  | .unpin _ _ => true
  | .windowLift _ _ _ _ => true
  | .sectorRebuild _ => true
  | .rebuildTimeout _ _ _ => true
  | .shelfUnreachable _ _ => true
  | .swapInvocation _ _ => true
  | .flitTransmit _ => true
  | .dataFlitReceive _ _ _ => true
  | .nak _ _ => true
  | .retryTimerExpiry _ _ => true
  | .linkEnable _ _ => true
  | .signalDetect _ => true
  | .signalLost _ => true
  | .phyTrainDone _ _ => true
  | .phyTrainTimeout _ _ => true
  | .capabilitySend _ => true
  | .capability _ _ => true
  | .echoRequest _ _ => true
  | .echoRequestSend _ => true
  | .echoReply _ _ _ => true
  | .recoveryDone _ => true
  | .linkRecoverTimeout _ _ => true
  | .put _ header lines => lines.length == Machine.segments header
  | .getReq _ _ => true
  | .getData header lines => lines.length == Machine.segments header
  | .accept _ => true
  | .refuse _ => true
  | .landed _ => true
  | .reline _ => true
  | .lost _ => true
  | .rebuildReq _ => true
  | .rebuildData _ _ => true
  | .msgResponseTimeout _ _ _ _ => true
  | .ringSlotAccept _ => true
  | .windowOpen _ _ => true
  | .windowClose _ _ => true
  | .windowCloseRecord _ _ => true
  | .messageForward _ header lines => lines.length == Machine.segments header
  | .heldMessageRelease _ => true
  | .allReduce _ _ image => image.wordsOk 8
  | .reduceScatter _ _ image => image.wordsOk 8
  | .allGather _ _ image => image.wordsOk 8
  | .allToAll _ _ image => image.wordsOk 8
  | .permute _ _ image => image.wordsOk 8
  | .broadcast _ _ image => image.wordsOk 8
  | .ring _ _ image => image.wordsOk 8
  | .nfCheck _ _ image => image.wordsOk 8
  | .collData header lines => lines.length == Machine.segments header
  | .collPrepass header lines => lines.length == Machine.segments header
  | .ringBlock header lines => lines.length == Machine.segments header
  | .collAbort _ => true
  | .ringStepBoundary _ _ => true
  | .collectiveCommit _ _ => true
  | .collPeerTimeout _ _ _ => true
  | .groupEntryWrite _ _ _ _ => true
  | .collMemberGenSet _ _ => true
  | .flashBoundary => true
  | .nowRecordLive _ => true
  | .recordArm _ _ _ => true
  | .recordLaunch _ => true
  | .preemptionPoint _ _ _ => true
  | .preemptSaveDone _ _ => true
  | .contextRestore _ _ => true
  | .quietWindowClose => true
  | .recordEnd _ => true
  | .cringRoom _ _ => true
  | .tokenSet _ => true
  | .tokenClear _ => true
  | .abortRecord _ _ => true
  | .abortOwner _ _ => true
  | .beamMarkSend _ => true
  | .beamMark _ _ => true
  | .markLossTimeout => true
  | .beamHoldoverTimeout _ => true
  | .daymarkTakeEffect _ => true
  | .pageCopyDone _ _ => true
  | .daymarkCommit _ => true
  | .daymarkRestore _ _ => true
  | .restoreEnd _ _ => true
  | .packageFailed _ _ _ _ _ _ => true
  | .tableUpdate _ _ => true
  | .criticalStateError _ _ _ _ _ _ => true
  | .readReq _ _ => true
  | .readData _ _ => true
  | .write _ _ => true
  | .cfgRead _ _ => true
  | .cfgData _ _ => true
  | .cfgWrite _ _ => true
  | .post _ _ _ => true
  | .event _ _ => true
  | .ucieRetrain _ _ _ => true
  | .poolXlatInv _ _ => true
  | .xlatInvDone _ => true
  | .apertureAccess _ _ _ => true
  | .configViewAccess _ _ => true
  | .hostWindowAccess _ _ _ _ => true
  | .keepBootCmd _ => true
  | .keepSwIrq _ => true
  | .irqHoldoffExpiry _ => true
  | .hcmdPoll _ => true
  | .perst _ => true
  | .functionLevelReset => true
  | .shelfRescan _ _ _ => true
  | .read _ _ _ _ => true
  | .dictWrite _ _ _ _ _ _ => true
  | .describe _ _ _ => true
  | .dictLock _ _ => true
  | .dictStore _ _ => true
  | .resetRequest _ _ => true
  | .resetRequestDelayExpiry => true
  | .powerMode _ _ => true
  | .subMode _ _ => true
  | .modeChangeResume => true
  | .dictReq _ => true
  | .dictRsp _ => true
  | .fog _ => true
  | .reset _ => true
  | .coarseBeam _ => true
  | .presence _ => true
  | .presenceSend => true
  | .coarseBeamSend => true
  | .fogSend _ _ => true
  | .railOutOfWindow _ _ => true
  | .porN _ => true
  | .releaseStep _ => true
  | .fabricTrainTimeout _ => true
  | .governorInterval _ => true
  | .droopDetect _ => true
  | .hbmRamp _ _ => true
  | .tempSample _ => true
  | .thermalRelease _ => true
  | .watchdogExpiry _ => true
  | .rstBlockCmd _ _ => true
  | .blockResetExecute _ _ _ => true
  | .blockResetRelease _ => true
  | .fwUpdate _ _ => true
  | .fwVerifyDone => true
  | .svnCommit _ _ => true
  | .debugChallenge _ => true
  | .debugUnlock _ _ => true
  | .spdmRequest _ _ _ => true
  | .traceSinkWrite _ _ _ => true
  | .registerWrite _ _ => true
  | .nullFlit _ _ => true
  | .windowLiftComplete _ _ _ _ => true
  | .gallerySetLoadDone _ _ _ => true
  | .ucieRetrainDone _ _ _ => true

end Sys2Proof
end

