-- ==== Sys2Proof/Certificates/Slice0/Obligations.lean ====
section
/-!
DEFINITION. The statements about the model. Each docstring says what its statement claims and names what it rests on; `Gives c s P`
says that the command answers a next state as `P` says.
-/
open Sys2Proof Sys2Proof.Machine

/-- For every command and state: a step of the state with that command at the front of its queue is the command's effect on the state. (The queue and its order are the model's form; transactions of one source arrive in the order sent, R677.) (spec/00_scope.md R22, spec/14_keeper_and_host.md R677) -/
def Obligations.StepTakesTheFrontCommand : Prop :=
∀ (c : Instr) (s : State), step (s.withFront c) = exec c s

/-- With an empty queue and a reset holding the package, a step answers the same state; with an empty queue and no reset holding it, a step answers the state after one cycle, whose queue is empty and whose fuses and flash are as before. (That a step on an empty queue is a cycle is the model's choice, log entry 1.) (spec/12_beam_and_launching.md R571, spec/16_power_measurement_reset.md R756, R776, spec/18_observability.md R825) -/
def Obligations.EmptyQueuePassesACycle : Prop :=
  (∀ (s : State),
    (s.pending = [] ∧ s.heldInReset = true) →
      step s = Host.Outcome.next s) ∧
  (∀ (s : State),
    (s.pending = [] ∧ s.heldInReset = false) →
      step s = Host.Outcome.next s.tick ∧ s.tick.pending = [] ∧ s.tick.fuses = s.fuses ∧ s.tick.flash = s.flash)

/-- Every command, in every state and with every operand, answers a next state; the queue, and every part of the state that the command's list of cells (touches) does not name, each register in all its units and indices among them, is as before. (The lists are the model's: an upper bound, whatever the operands.) (spec/00_scope.md R22, spec/16_power_measurement_reset.md R775, spec/17_security.md R801) -/
def Obligations.EveryCommandCompletesInItsFootprint : Prop :=
∀ (c : Instr) (s : State), Gives c s fun t => LeavesAllBut (touches c) s t

/-- In the reset state every register holds its reset value, every dictionary entry its default, no token is set, the beam is FREE, the boot stage is 0x01 and step 1 of the release order is in progress, no CXL_REFCLK output is driven, nothing waits, memory and the lens buffers list nothing. (Unlisted memory reads zero by log entry 3; hidden state is empty by log entry 4.) (spec/00_scope.md R22, spec/12_beam_and_launching.md R578, R602, spec/14_keeper_and_host.md R704, spec/16_power_measurement_reset.md R783, spec/19_package_and_pins.md R850) -/
def Obligations.ResetLeavesTheResetValues : Prop :=
(∀ (r : Reg) (u i : Nat), State.reset.rd r u i = regReset r i) ∧
(∀ k : Nat, State.reset.dget k = dictDefault (k / 256) (k % 256)) ∧
(∀ k : Nat, State.reset.tokenSet k = false) ∧
State.reset.beamState = 0 ∧ State.reset.stage = 1 ∧ State.reset.resets.step = 1 ∧ State.reset.heldInReset = false ∧
(∀ p : Fin 4, State.reset.cxlRefclk p = false) ∧
State.reset.pending = [] ∧ State.reset.mem = [] ∧ State.reset.lens = [] ∧ State.reset.Sound

/-- For every state whose device memory, lens buffers and HBM check symbols are in canonical form (keys strictly rising, none listed at its default), the state that a step answers is such a state too: a command's effect or a cycle, a full or a core reset among them. (spec/08_hbm_and_protection.md R377, R378, spec/06_onchip_memory.md R285, spec/16_power_measurement_reset.md R775) -/
def Obligations.SoundStatesStaySound : Prop :=
∀ s t : State, s.Sound → step s = .next t → t.Sound

/-- A fuse bit that is 1 is 1 after every step, of a command or of a cycle; a command other than SVN_COMMIT, SPDM_REQUEST, RELEASE_STEP and those that carry a dictionary write leaves the fuse array as it is. (spec/17_security.md R801) -/
def Obligations.BlownFusesStayBlown : Prop :=
(∀ (s t : State) (k : Nat), step s = .next t → s.fuses.getLsbD k = true → t.fuses.getLsbD k = true) ∧
(∀ (c : Instr) (s t : State), Cell.fuses ∉ (touches c) → exec c s = .next t → t.fuses = s.fuses)

/-- SVN_COMMIT of true that the server takes raises the SVN floor, and FW_SVN_FLOOR, to the SVN of the running image (at most the 64 that the fuse counter can show); where the floor already equals or exceeds that SVN no fuse changes; and no step, of any command or of a cycle, lowers the floor. (spec/17_security.md R799) -/
def Obligations.SvnCommitRaisesTheFloor : Prop :=
  (∀ (s : State) (src : DictSource),
    let n := min 64 (s.fld secStatusSvn 0)
    (ServerTakes s src dkSvnCommit) →
    Gives (.svnCommit src 1#8) s fun t =>
      (t.svnFloor = Nat.max s.svnFloor n ∧ t.dget dkFwSvnFloor = Nat.max s.svnFloor n) ∧
      (n ≤ s.svnFloor → t.fuses = s.fuses)) ∧
  (∀ (s : State) (t : State),
    (step s = Host.Outcome.next t) →
      s.svnFloor ≤ t.svnFloor)

/-- Through the configuration view, outside a reset: a host read completes with the configuration word, or zero in the SEC_ blocks; a host write with WR_EN 1 is the configuration write, but KEEP_HOST_CFG is not written, there or at BAR0's first page; with WR_EN not 1 it is ignored and counted. From a UCIe port KEEP_HOST_CFG is written by no source but a keeper core. (spec/14_keeper_and_host.md R691) -/
def Obligations.HostViewOfConfigurationSpace : Prop :=
  (∀ (s : State) (offset : BitVec 27) (off : Nat),
    (s.heldInReset = false ∧ bar0 offset.toNat = .view off) →
    Gives (.configViewAccess offset none) s fun t =>
      t.keeper.completion = some ({ status := 0, data := bytesOf (if inSec off then 0#64 else s.cfgRead off).toNat 8 } : HostCompletion) ∧ t.regs = s.regs) ∧
  (∀ (s : State) (offset : BitVec 27) (off : Nat) (v : Word),
    (s.heldInReset = false ∧ bar0 offset.toNat = .view off ∧ s.fld keepHostCfgWrEn 0 = 1) →
    Gives (.configViewAccess offset (some v)) s fun t =>
      t = (if isHostCfg off then s else s.cfgWrite off v)) ∧
  (∀ (s : State) (offset : BitVec 27) (off : Nat) (v : Word),
    (s.heldInReset = false ∧ bar0 offset.toNat = .view off ∧ s.fld keepHostCfgWrEn 0 ≠ 1) →
    Gives (.configViewAccess offset (some v)) s fun t =>
      t = s.bump .keepHostCfgDropCnt 0 0 1) ∧
  (∀ (s : State) (offset : BitVec 27) (off : Nat) (v : Word),
    (s.heldInReset = false ∧ bar0 offset.toNat = .regs off ∧ isHostCfg (keepOffset + off) = true) →
    Gives (.configViewAccess offset (some v)) s fun t =>
      t = s) ∧
  (∀ (s : State) (port : UciePort) (x : UcieTxn) (off : Nat) (u : Nat) (i : Nat),
    (txnSrc x ≠ 0 ∧ s.phys (txnAddr x) = .config off ∧ regPlace off = some (.keepHostCfg, u, i)) →
    Gives (.cfgWrite port x) s fun t =>
      ∀ a b : Nat, t.rd .keepHostCfg a b = s.rd .keepHostCfg a b)

/-- For every packed engine ID with cluster value 3, the engine it names is that of the same ID with cluster value 2, and every packed ID names one of the 96 engines. (spec/00_scope.md R10, R13, R14, R15) -/
def Obligations.PackedIdsAreClamped : Prop :=
(∀ e : EngId, e.toNat / 4 % 4 = 3 → EngIdIdx e = EngIdIdx (e - 4#7)) ∧ (∀ e : EngId, EngIdIdx e < 96)

/-- Every vector command that nothing stands before in its engine (whose lens buffers are clean: EngineFree) and whose image names no output descriptor: every other engine's state and registers, device memory, chains, collectives, the pool and the beam are as before, and so is every lens byte of another engine. (spec/04_vector_functions_random.md R162, R163, R167, spec/06_onchip_memory.md R281) -/
def Obligations.VectorCommandsStayInTheirEngine : Prop :=
∀ (s : State) (f : EngId → Fin 4 → Words4 → Instr) (e : EngId) (task : Fin 4) (w : Words4),
  f ∈ vectorCommands → EngineFree s (EngIdIdx e) task.val → bitsOf w.w2 32 16 = 0xFFFF →
  Gives (f e task w) s fun t =>
    (∀ d : Nat, d ≠ EngIdIdx e → t.eng d = s.eng d) ∧
    (∀ (r : Reg) (u i : Nat), (regInfo r).block = .eng → u < 96 → u ≠ EngIdIdx e → t.rd r u i = s.rd r u i) ∧
    t.mem = s.mem ∧ t.chains = s.chains ∧ t.coll = s.coll ∧ t.pool = s.pool ∧ t.beam = s.beam ∧
    (∀ (d : Fin 96) (off : Nat), d.val ≠ EngIdIdx e → t.lensByte d.val off = s.lensByte d.val off)

/-- FLAGS_GET that nothing stands before in its engine, whose lens buffers are clean: the binary32 words D[0], D[1] and D[2] are 1.0 where the entry's non-finite, overflow-saturated and underflow flag of the engine's die is set, else 0.0. FLAGS_CLEAR so taken: the three flags of the entry are clear on both dies. (spec/04_vector_functions_random.md R175) -/
def Obligations.FlagsAreReadAndCleared : Prop :=
  (∀ (s : State) (e : EngId) (task : Fin 4) (w : Words4),
    let v := (parseVec (withVop w vopFlagsGet)).1
    let flags := s.rd .galFlagEntry (engDie (EngIdIdx e)) v.flagIdx
    (EngineFree s (EngIdIdx e) task.val) →
    Gives (.flagsGet e task w) s fun t =>
      ∀ k : Fin 3, t.lensF32 (EngIdIdx e) (v.d * 64 + 4 * k.val) = if bitOf flags k.val then 0x3F800000#32 else 0#32) ∧
  (∀ (s : State) (e : EngId) (task : Fin 4) (w : Words4),
    let v := (parseVec (withVop w vopFlagsClear)).1
    (EngineFree s (EngIdIdx e) task.val) →
    Gives (.flagsClear e task w) s fun t =>
      ∀ (die : Fin 2) (k : Fin 3), bitOf (t.rd .galFlagEntry die.val v.flagIdx) k.val = false)

/-- A register write at the address of a register whose block has LOCK set leaves every bit of type RWL of that register as it is, and no descriptor clamp counter counts it. (spec/03_cube_array.md R161) -/
def Obligations.LockedFieldsKeepTheirValue : Prop :=
  (∀ (s : State) (addr : BitVec 48) (value : Word) (off : Nat) (r : Reg) (u : Nat) (i : Nat),
    (s.phys addr.toNat = .config off ∧ regPlace off = some (r, u, i) ∧ s.locked r u = true ∧ (regInfo r).rwl ≠ 0) →
    Gives (.registerWrite addr value) s fun t =>
      (t.rd r u i &&& BitVec.ofNat 64 (regInfo r).rwl = s.rd r u i &&& BitVec.ofNat 64 (regInfo r).rwl) ∧
      ((List.range 24).all (fun k : Nat => t.rd .cluDescClampCnt k 0 == s.rd .cluDescClampCnt k 0) = true))

/-- Every INT8 code is its two's-complement value from -128 to 127 and every INT4 code that from -8 to 7. No E4M3 code is an infinity, and codes 0x78 to 0x7E and 0xF8 to 0xFE are finite values of magnitude at most 448. Elements 2j and 2j + 1 of a 4-bit format are bits [3:0] and [7:4] of byte j; element 4j + k of a 6-bit format is bits [6k + 5:6k] of the little-endian word of bytes 3j to 3j + 2; and elements packed so are read back. (spec/02_number_formats.md R52, R57, R63, R64) -/
def Obligations.SmallElementsAreReadAndStored : Prop :=
(∀ x : BitVec 8, decodeElem 8 false x.toNat = .fin (decide (x.toInt < 0)) x.toInt.natAbs 0 ∧ -128 ≤ x.toInt ∧ x.toInt ≤ 127) ∧
(∀ x : BitVec 4, decodeElem 9 false x.toNat = .fin (decide (x.toInt < 0)) x.toInt.natAbs 0 ∧ -8 ≤ x.toInt ∧ x.toInt ≤ 7) ∧
(∀ (x : BitVec 8) (neg : Bool), decodeElem 4 false x.toNat ≠ .inf neg) ∧
(∀ x : BitVec 8, 0x78 ≤ x.toNat % 128 → x.toNat % 128 ≤ 0x7E →
  ∃ man : Nat, decodeElem 4 false x.toNat = .fin (decide (128 ≤ x.toNat)) man 5 ∧ man * 32 ≤ 448) ∧
(∀ (rd : Nat → Byte) (fmt j : Nat), fmt = 7 ∨ fmt = 9 →
  elemCode rd fmt (2 * j) = (rd j).toNat % 16 ∧ elemCode rd fmt (2 * j + 1) = (rd j).toNat / 16) ∧
(∀ (rd : Nat → Byte) (fmt j k : Nat), fmt = 5 ∨ fmt = 6 → k < 4 →
  elemCode rd fmt (4 * j + k) = ((rd (3 * j)).toNat + (rd (3 * j + 1)).toNat * 2 ^ 8 + (rd (3 * j + 2)).toNat * 2 ^ 16) / 2 ^ (6 * k) % 64) ∧
(∀ (fmt : Nat) (codes : List Nat) (i : Nat), 5 ≤ fmt → fmt ≤ 9 → i < codes.length → (∀ x ∈ codes, x < 2 ^ fmtBits fmt) →
  elemCode (fun j => (packElems fmt codes).getD j 0#8) fmt i = codes.getD i 0)

/-- PASS: on a free engine whose lens buffers are clean, with all 8 columns engaged, no ramp and no droop hold, inside a tile that has had a pass, a pass that loads no stationary block and matches the current one issues at once: ARRAY_ISSUE_CNT grows by its issue cycles, BUSY reads 1, it is in flight, and the lens buffers hold its accumulator values. With all columns released the pass instead waits for its region's ramp window: it is held and WINDOW_WAIT reads 1. TILE_MARK: on a free engine the tile ends and the command is counted to its context; a chain whose stage holds the context has that stage's tile closed. PASS_COMPLETE, with nothing queued behind: the products of the oldest pass in flight are added to MAC_CNT of its stationary format; a pass without WRITE_OUT and LAST leaves the engine only shorter by it, and BUSY reads 0 once none is in flight. (spec/03_cube_array.md R138, R141, R143, R149, spec/07_streams_and_stage_chains.md R331) -/
def Obligations.PassIssuesAndEndsTiles : Prop :=
  (∀ (s : State) (e : EngId) (task : Fin 4) (w : Words4),
    let c := (parsePass (withOpc w 1)).1
    (EngineOpen s (EngIdIdx e) task.val ∧ LensClean s (EngIdIdx e)) →
    ((s.eng (EngIdIdx e)).tileOpen = true ∧ (s.eng (EngIdIdx e)).tilePass = true) →
    (c.loadS = false ∧ c.differs (s.activeBuf (EngIdIdx e)) = false) →
    (s.fld engArrayStatusRamping (EngIdIdx e) = 0 ∧ s.fld engArrayStatusEngagedCols (EngIdIdx e) = 8) →
    ((s.powerDie (engDie (EngIdIdx e))).hold = 0) →
    Gives (.pass e task w) s fun t =>
      (t.rd .engArrayIssueCnt (EngIdIdx e) 0 = s.rd .engArrayIssueCnt (EngIdIdx e) 0 + BitVec.ofNat 64 c.issueCycles) ∧
      (t.fld engArrayStatusBusy (EngIdIdx e) = 1) ∧
      ((t.eng (EngIdIdx e)).flight.map (fun x : PassFlight => x.cmd) = (s.eng (EngIdIdx e)).flight.map (fun x : PassFlight => x.cmd) ++ [c]) ∧
      (t.lens = (s.lensPutF32s (EngIdIdx e) (s.passResults (EngIdIdx e) c (s.activeBuf (EngIdIdx e)))).lens)) ∧
  (∀ (s : State) (e : EngId) (task : Fin 4) (w : Words4),
    (EngineOpen s (EngIdIdx e) task.val ∧ LensClean s (EngIdIdx e)) →
    (s.fld engArrayStatusRamping (EngIdIdx e) = 0 ∧ s.fld engArrayStatusEngagedCols (EngIdIdx e) = 0) →
    Gives (.pass e task w) s fun t =>
      (t.fld engArrayStatusWindowWait (EngIdIdx e) = 1) ∧
      ((t.eng (EngIdIdx e)).held.isSome = true) ∧
      ((t.eng (EngIdIdx e)).windowReq = s.cyc)) ∧
  (∀ (s : State) (e : EngId) (task : Fin 4),
    (EngineOpen s (EngIdIdx e) task.val) →
    (s.chainOfTask (EngIdIdx e) task.val = none) →
    Gives (.tileMark e task) s fun t =>
      t.eng (EngIdIdx e) = { ((s.eng (EngIdIdx e)).countCmd task.val).2 with tileOpen := false }) ∧
  (∀ (s : State) (e : EngId) (task : Fin 4) (c : Chain) (k : Nat),
    let d := { c with stages := c.stages.modify k fun g => { g with tileOpen := false } }
    (EngineOpen s (EngIdIdx e) task.val) →
    (s.chainOfTask (EngIdIdx e) task.val = some (c, k)) →
    (c.aborting = none ∧ c.stopped = false) →
    Gives (.tileMark e task) s fun t =>
      ({ t.eng (EngIdIdx e) with waiters := [] } = { ((s.eng (EngIdIdx e)).countCmd task.val).2 with tileOpen := false, waiters := [] }) ∧
      (t.chains = s.chains.map fun x : Chain => if x.same d then d else x)) ∧
  (∀ (s : State) (e : EngId) (f : PassFlight) (rest : List PassFlight),
    ((s.eng (EngIdIdx e)).flight = f :: rest ∧ (s.eng (EngIdIdx e)).queue = []) →
    Gives (.passComplete e) s fun t =>
      (t.rd .engMacCnt (EngIdIdx e) f.cmd.fmtS = s.rd .engMacCnt (EngIdIdx e) f.cmd.fmtS + BitVec.ofNat 64 (partsOf f.cmd.split * f.cmd.mRows * f.cmd.kValid * f.cmd.nValid)) ∧
      (rest = [] → t.fld engArrayStatusBusy (EngIdIdx e) = 0) ∧
      (f.cmd.writeOut = false ∧ f.cmd.last = false → t.eng (EngIdIdx e) = { s.eng (EngIdIdx e) with flight := rest }))

/-- RAMP_WINDOW_START: every engine of the region whose held pass waits for the window starts its ramp (WINDOW_WAIT 0, RAMPING 1, ARRAY_RAMP_CNT plus 1). RAMP_UP_END: every column is engaged and RAMPING reads 0; a pass whose stationary load is over issues, and with load time left FRONT_STALL reads 1 and the pass is held for what is left. STATIONARY_LOAD_DONE: the held pass's load cycles are added to ARRAY_FRONT_STALL_CNT, FRONT_STALL reads 0 and the pass issues. ARRAY_RAMP_DOWN: an idle array past IDLE_RELEASE releases one stage of columns; RAMPING says whether columns are left. TILE_OVERRUN: a tile past 8,192 cycles is counted once and goes on. (The held pass issues with nothing queued behind it and no droop hold on its die.) (spec/03_cube_array.md R118, R147, R151, R152, R153, R154, R155, R156, R864) -/
def Obligations.ArrayRampsAndStalls : Prop :=
  (∀ (s : State) (r : Fin 8) (k : Nat) (h : HeldPass),
    (k < 12) →
    ((s.eng (r.val * 12 + k)).held = some h) →
    (s.fld engArrayStatusWindowWait (r.val * 12 + k) = 1) →
    Gives (.rampWindowStart r) s fun t =>
      (t.fld engArrayStatusWindowWait (r.val * 12 + k) = 0) ∧
      (t.fld engArrayStatusRamping (r.val * 12 + k) = 1) ∧
      (t.rd .engArrayRampCnt (r.val * 12 + k) 0 = s.rd .engArrayRampCnt (r.val * 12 + k) 0 + 1#64) ∧
      ((t.eng (r.val * 12 + k)).rampUp = true)) ∧
  (∀ (s : State) (e : EngId) (h : HeldPass),
    ((s.eng (EngIdIdx e)).held = some h ∧ (s.eng (EngIdIdx e)).queue = [] ∧ (s.eng (EngIdIdx e)).rampUp = true ∧ (s.powerDie (engDie (EngIdIdx e))).hold = 0) →
    (s.fld engArrayStatusRamping (EngIdIdx e) = 1) →
    (h.loadCycles ≤ h.rampCycles) →
    Gives (.rampUpEnd e) s fun t =>
      (t.fld engArrayStatusEngagedCols (EngIdIdx e) = 8 ∧ t.fld engArrayStatusRamping (EngIdIdx e) = 0) ∧
      (t.rd .engArrayIssueCnt (EngIdIdx e) 0 = s.rd .engArrayIssueCnt (EngIdIdx e) 0 + BitVec.ofNat 64 h.cmd.issueCycles) ∧
      ((t.eng (EngIdIdx e)).held = none)) ∧
  (∀ (s : State) (e : EngId) (h : HeldPass),
    ((s.eng (EngIdIdx e)).held = some h ∧ (s.eng (EngIdIdx e)).rampUp = true) →
    (s.fld engArrayStatusRamping (EngIdIdx e) = 1) →
    (h.rampCycles < h.loadCycles) →
    Gives (.rampUpEnd e) s fun t =>
      (t.fld engArrayStatusEngagedCols (EngIdIdx e) = 8 ∧ t.fld engArrayStatusRamping (EngIdIdx e) = 0) ∧
      (t.fld engArrayStatusFrontStall (EngIdIdx e) = 1) ∧
      ((t.eng (EngIdIdx e)).held = some { h with loadCycles := h.loadCycles - h.rampCycles })) ∧
  (∀ (s : State) (e : EngId) (h : HeldPass),
    ((s.eng (EngIdIdx e)).held = some h ∧ (s.eng (EngIdIdx e)).queue = [] ∧ (s.powerDie (engDie (EngIdIdx e))).hold = 0) →
    (s.fld engArrayStatusFrontStall (EngIdIdx e) = 1) →
    Gives (.stationaryLoadDone e) s fun t =>
      (t.rd .engArrayFrontStallCnt (EngIdIdx e) 0 = s.rd .engArrayFrontStallCnt (EngIdIdx e) 0 + BitVec.ofNat 64 h.loadCycles) ∧
      (t.fld engArrayStatusFrontStall (EngIdIdx e) = 0) ∧
      (t.rd .engArrayIssueCnt (EngIdIdx e) 0 = s.rd .engArrayIssueCnt (EngIdIdx e) 0 + BitVec.ofNat 64 h.cmd.issueCycles) ∧
      ((t.eng (EngIdIdx e)).held = none)) ∧
  (∀ (s : State) (e : EngId) (idle : BitVec 16),
    let per := s.rampCols (EngIdIdx e) (s.eng (EngIdIdx e)).rampProf
    let left := (s.fld engArrayStatusEngagedCols (EngIdIdx e) - 1) / per * per
    ((s.eng (EngIdIdx e)).flight = [] ∧ (s.eng (EngIdIdx e)).held = none) →
    (0 < s.fld engArrayStatusEngagedCols (EngIdIdx e)) →
    (Nat.max 1 (s.fld engArrayCfgIdleRelease (EngIdIdx e)) ≤ idle.toNat) →
    Gives (.arrayRampDown e idle) s fun t =>
      (t.fld engArrayStatusEngagedCols (EngIdIdx e) = left) ∧
      (t.fld engArrayStatusRamping (EngIdIdx e) = (if 0 < left then 1 else 0))) ∧
  (∀ (s : State) (e : EngId),
    ((s.eng (EngIdIdx e)).tileOverrun = false) →
    (8192 < (s.eng (EngIdIdx e)).tileCycles) →
    Gives (.tileOverrun e) s fun t =>
      (t.rd .engTileOverrunCnt (EngIdIdx e) 0 = s.rd .engTileOverrunCnt (EngIdIdx e) 0 + 1#64) ∧
      (t.eng (EngIdIdx e) = { s.eng (EngIdIdx e) with tileOverrun := true }))

/-- On a free engine, with OUT_DESC = 0xFFFF, and clean lens buffers, each of ADD, SUB, MUL, FMA, MAX, MIN, ABS, NEG and COPY leaves in the lens buffers, packed in FMT_D at D_ADDR, for every row r and column c one result: of exactly a + b, a - b, a x b or a x b + c rounded once to binary32, of the maximum, minimum, absolute value, negation or a itself, where a, b and c are the operands' elements under BMODE; nothing else of the lens buffers changes, and VOP_CNT of its operation grows by 1. (spec/04_vector_functions_random.md R162, R164, R167, R169) -/
def Obligations.VectorArithmetic : Prop :=
  (∀ (s : State) (e : EngId) (task : Fin 4) (w : Words4),
    let v := (parseVec (withVop w vopAdd)).1
    (EngineFree s (EngIdIdx e) task.val) →
    (v.outDesc = 0xFFFF) →
    Gives (.add e task w) s fun t =>
      (LensHolds s t (EngIdIdx e) v (grid v fun r c => rounded ((dec32 (s.lensElem (EngIdIdx e) v.a v.fmtA (r * v.cols + c))).add (dec32 (s.operandB (EngIdIdx e) v r c))))) ∧
      (t.rd .engVopCnt (EngIdIdx e) vopAdd = s.rd .engVopCnt (EngIdIdx e) vopAdd + 1#64)) ∧
  (∀ (s : State) (e : EngId) (task : Fin 4) (w : Words4),
    let v := (parseVec (withVop w vopSub)).1
    (EngineFree s (EngIdIdx e) task.val) →
    (v.outDesc = 0xFFFF) →
    Gives (.sub e task w) s fun t =>
      (LensHolds s t (EngIdIdx e) v (grid v fun r c => rounded ((dec32 (s.lensElem (EngIdIdx e) v.a v.fmtA (r * v.cols + c))).add (dec32 (s.operandB (EngIdIdx e) v r c)).neg))) ∧
      (t.rd .engVopCnt (EngIdIdx e) vopSub = s.rd .engVopCnt (EngIdIdx e) vopSub + 1#64)) ∧
  (∀ (s : State) (e : EngId) (task : Fin 4) (w : Words4),
    let v := (parseVec (withVop w vopMul)).1
    (EngineFree s (EngIdIdx e) task.val) →
    (v.outDesc = 0xFFFF) →
    Gives (.mul e task w) s fun t =>
      (LensHolds s t (EngIdIdx e) v (grid v fun r c => rounded ((dec32 (s.lensElem (EngIdIdx e) v.a v.fmtA (r * v.cols + c))).mul (dec32 (s.operandB (EngIdIdx e) v r c))))) ∧
      (t.rd .engVopCnt (EngIdIdx e) vopMul = s.rd .engVopCnt (EngIdIdx e) vopMul + 1#64)) ∧
  (∀ (s : State) (e : EngId) (task : Fin 4) (w : Words4),
    let v := (parseVec (withVop w vopFma)).1
    (EngineFree s (EngIdIdx e) task.val) →
    (v.outDesc = 0xFFFF) →
    Gives (.fma e task w) s fun t =>
      (LensHolds s t (EngIdIdx e) v (grid v fun r c => rounded (((dec32 (s.lensElem (EngIdIdx e) v.a v.fmtA (r * v.cols + c))).mul (dec32 (s.operandB (EngIdIdx e) v r c))).add (dec32 (s.lensElem (EngIdIdx e) v.c v.fmtC (r * v.cols + c)))))) ∧
      (t.rd .engVopCnt (EngIdIdx e) vopFma = s.rd .engVopCnt (EngIdIdx e) vopFma + 1#64)) ∧
  (∀ (s : State) (e : EngId) (task : Fin 4) (w : Words4),
    let v := (parseVec (withVop w vopMax)).1
    (EngineFree s (EngIdIdx e) task.val) →
    (v.outDesc = 0xFFFF) →
    Gives (.max e task w) s fun t =>
      (LensHolds s t (EngIdIdx e) v (grid v fun r c => ⟨f32max (s.lensElem (EngIdIdx e) v.a v.fmtA (r * v.cols + c)) (s.operandB (EngIdIdx e) v r c), false⟩)) ∧
      (t.rd .engVopCnt (EngIdIdx e) vopMax = s.rd .engVopCnt (EngIdIdx e) vopMax + 1#64)) ∧
  (∀ (s : State) (e : EngId) (task : Fin 4) (w : Words4),
    let v := (parseVec (withVop w vopMin)).1
    (EngineFree s (EngIdIdx e) task.val) →
    (v.outDesc = 0xFFFF) →
    Gives (.min e task w) s fun t =>
      (LensHolds s t (EngIdIdx e) v (grid v fun r c => ⟨f32min (s.lensElem (EngIdIdx e) v.a v.fmtA (r * v.cols + c)) (s.operandB (EngIdIdx e) v r c), false⟩)) ∧
      (t.rd .engVopCnt (EngIdIdx e) vopMin = s.rd .engVopCnt (EngIdIdx e) vopMin + 1#64)) ∧
  (∀ (s : State) (e : EngId) (task : Fin 4) (w : Words4),
    let v := (parseVec (withVop w vopAbs)).1
    (EngineFree s (EngIdIdx e) task.val) →
    (v.outDesc = 0xFFFF) →
    Gives (.abs e task w) s fun t =>
      (LensHolds s t (EngIdIdx e) v (grid v fun r c => ⟨f32abs (s.lensElem (EngIdIdx e) v.a v.fmtA (r * v.cols + c)), false⟩)) ∧
      (t.rd .engVopCnt (EngIdIdx e) vopAbs = s.rd .engVopCnt (EngIdIdx e) vopAbs + 1#64)) ∧
  (∀ (s : State) (e : EngId) (task : Fin 4) (w : Words4),
    let v := (parseVec (withVop w vopNeg)).1
    (EngineFree s (EngIdIdx e) task.val) →
    (v.outDesc = 0xFFFF) →
    Gives (.neg e task w) s fun t =>
      (LensHolds s t (EngIdIdx e) v (grid v fun r c => ⟨f32neg (s.lensElem (EngIdIdx e) v.a v.fmtA (r * v.cols + c)), false⟩)) ∧
      (t.rd .engVopCnt (EngIdIdx e) vopNeg = s.rd .engVopCnt (EngIdIdx e) vopNeg + 1#64)) ∧
  (∀ (s : State) (e : EngId) (task : Fin 4) (w : Words4),
    let v := (parseVec (withVop w vopCopy)).1
    (EngineFree s (EngIdIdx e) task.val) →
    (v.outDesc = 0xFFFF) →
    Gives (.copy e task w) s fun t =>
      (LensHolds s t (EngIdIdx e) v (grid v fun r c => ⟨rne32 (dec32 (s.lensElem (EngIdIdx e) v.a v.fmtA (r * v.cols + c))), false⟩)) ∧
      (t.rd .engVopCnt (EngIdIdx e) vopCopy = s.rd .engVopCnt (EngIdIdx e) vopCopy + 1#64))

/-- On a free engine with clean lens buffers, with OUT_DESC = 0xFFFF: FUNC leaves the evaluator's function FN of each element of A, DERIV its derivative times B, ROW_SCALE each element of A times its row's element of B (BMODE 1), ROWSUM one group-procedure sum per row, ROWMAX one maximum per row, ROWNORM one L2 norm per row, and KNORM the maximum of the row norms of each run of 128 rows of the tensor; packed in FMT_D at D_ADDR, nothing else of the lens buffers changed, and VOP_CNT of the operation grown by 1. (spec/04_vector_functions_random.md R164, R169, R170, R180, R184, R867) -/
def Obligations.VectorFunctionsAndRowReductions : Prop :=
  (∀ (s : State) (e : EngId) (task : Fin 4) (w : Words4),
    let v := (parseVec (withVop w vopFunc)).1
    (EngineFree s (EngIdIdx e) task.val) →
    (v.outDesc = 0xFFFF) →
    Gives (.func e task w) s fun t =>
      (LensHolds s t (EngIdIdx e) v (grid v fun r c => rounded (funcV v.fn (s.lensElem (EngIdIdx e) v.a v.fmtA (r * v.cols + c))))) ∧
      (t.rd .engVopCnt (EngIdIdx e) vopFunc = s.rd .engVopCnt (EngIdIdx e) vopFunc + 1#64)) ∧
  (∀ (s : State) (e : EngId) (task : Fin 4) (w : Words4),
    let v := (parseVec (withVop w vopDeriv)).1
    (EngineFree s (EngIdIdx e) task.val) →
    (v.outDesc = 0xFFFF) →
    Gives (.deriv e task w) s fun t =>
      (LensHolds s t (EngIdIdx e) v (grid v fun r c => rounded (derivV v.fn (s.lensElem (EngIdIdx e) v.a v.fmtA (r * v.cols + c)) (s.operandB (EngIdIdx e) v r c)))) ∧
      (t.rd .engVopCnt (EngIdIdx e) vopDeriv = s.rd .engVopCnt (EngIdIdx e) vopDeriv + 1#64)) ∧
  (∀ (s : State) (e : EngId) (task : Fin 4) (w : Words4),
    let v := (parseVec (withVop w vopRowScale)).1
    (EngineFree s (EngIdIdx e) task.val) →
    (v.outDesc = 0xFFFF) →
    Gives (.rowScale e task w) s fun t =>
      (LensHolds s t (EngIdIdx e) v (grid v fun r c => rounded ((dec32 (s.lensElem (EngIdIdx e) v.a v.fmtA (r * v.cols + c))).mul (dec32 (s.lensElem (EngIdIdx e) v.b v.fmtB r))))) ∧
      (t.rd .engVopCnt (EngIdIdx e) vopRowScale = s.rd .engVopCnt (EngIdIdx e) vopRowScale + 1#64)) ∧
  (∀ (s : State) (e : EngId) (task : Fin 4) (w : Words4),
    let v := (parseVec (withVop w vopRowsum)).1
    (EngineFree s (EngIdIdx e) task.val) →
    (v.outDesc = 0xFFFF) →
    Gives (.rowsum e task w) s fun t =>
      (LensHolds s t (EngIdIdx e) v ((List.range v.rows).map fun r => [rowSumResult ((s.rowA (EngIdIdx e) v r).map dec32)])) ∧
      (t.rd .engVopCnt (EngIdIdx e) vopRowsum = s.rd .engVopCnt (EngIdIdx e) vopRowsum + 1#64)) ∧
  (∀ (s : State) (e : EngId) (task : Fin 4) (w : Words4),
    let v := (parseVec (withVop w vopRowmax)).1
    (EngineFree s (EngIdIdx e) task.val) →
    (v.outDesc = 0xFFFF) →
    Gives (.rowmax e task w) s fun t =>
      (LensHolds s t (EngIdIdx e) v ((List.range v.rows).map fun r => [⟨rowMaxOf (s.rowA (EngIdIdx e) v r), false⟩])) ∧
      (t.rd .engVopCnt (EngIdIdx e) vopRowmax = s.rd .engVopCnt (EngIdIdx e) vopRowmax + 1#64)) ∧
  (∀ (s : State) (e : EngId) (task : Fin 4) (w : Words4),
    let v := (parseVec (withVop w vopRownorm)).1
    (EngineFree s (EngIdIdx e) task.val) →
    (v.outDesc = 0xFFFF) →
    Gives (.rownorm e task w) s fun t =>
      (LensHolds s t (EngIdIdx e) v ((List.range v.rows).map fun r => [rowNormResult (s.rowA (EngIdIdx e) v r)])) ∧
      (t.rd .engVopCnt (EngIdIdx e) vopRownorm = s.rd .engVopCnt (EngIdIdx e) vopRownorm + 1#64)) ∧
  (∀ (s : State) (e : EngId) (task : Fin 4) (w : Words4),
    let v := (parseVec (withVop w vopKnorm)).1
    (EngineFree s (EngIdIdx e) task.val) →
    (v.outDesc = 0xFFFF) →
    Gives (.knorm e task w) s fun t =>
      (LensHolds s t (EngIdIdx e) v ((List.range ((v.orgRow + v.rows - 1) / 128 - v.orgRow / 128 + 1)).map fun i => let norms := ((List.range v.rows).filter fun r => (v.orgRow + r) / 128 == v.orgRow / 128 + i).map fun r => rowNormResult (s.rowA (EngIdIdx e) v r); [⟨rowMaxOf (norms.map fun x : VecResult => x.bits), norms.any fun x : VecResult => x.bits == rowMaxOf (norms.map fun x : VecResult => x.bits) && x.underflow⟩])) ∧
      (t.rd .engVopCnt (EngIdIdx e) vopKnorm = s.rd .engVopCnt (EngIdIdx e) vopKnorm + 1#64))

/-- On a free engine with clean lens buffers. SMX_UPDATE with OUT_DESC = 0xFFFF forms p, m, l and alpha of every row and leaves the row states and then p in the lens buffers; SMX_PROB so leaves the probabilities of the final row states. SKIP_DECIDE and SKIP_REPLAY leave the decision map at D_ADDR whatever OUT_DESC; with NOCOUNT 0 SKIP_DECIDE adds the blocks it decides to SKIP_DECIDE_CNT and those it skips to SKIP_BLOCK_CNT, SKIP_REPLAY the blocks it turns from 1 to 2 to SKIP_REPLAY_CNT and the rows that hold one to SKIP_ROW_REPLAY_CNT; with NOCOUNT 1 none of the four moves. (spec/04_vector_functions_random.md R186, R187, R189, R193, R194, R195, R196) -/
def Obligations.SoftmaxAndSectorSkipCommands : Prop :=
  (∀ (s : State) (e : EngId) (task : Fin 4) (w : Words4),
    let v := (parseVec (withVop w vopSmxUpdate)).1
    let sts := (List.range v.rows).map fun r => (r, smxRow (s.scores (EngIdIdx e) v r) (s.rowState (EngIdIdx e) v r 0) (s.rowState (EngIdIdx e) v r 1))
    (EngineFree s (EngIdIdx e) task.val) →
    (v.outDesc = 0xFFFF) →
    Gives (.smxUpdate e task w) s fun t =>
      (LensHolds (s.putRowStates (EngIdIdx e) v sts) t (EngIdIdx e) v (sts.map fun x : Nat × SmxRow => x.2.p)) ∧
      (t.rd .engVopCnt (EngIdIdx e) vopSmxUpdate = s.rd .engVopCnt (EngIdIdx e) vopSmxUpdate + 1#64)) ∧
  (∀ (s : State) (e : EngId) (task : Fin 4) (w : Words4),
    let v := (parseVec (withVop w vopSmxProb)).1
    (EngineFree s (EngIdIdx e) task.val) →
    (v.outDesc = 0xFFFF) →
    Gives (.smxProb e task w) s fun t =>
      (LensHolds s t (EngIdIdx e) v ((List.range v.rows).map fun r => (s.scores (EngIdIdx e) v r).map fun x => rounded ((dec32 (fExp2 (f32sub x (s.rowState (EngIdIdx e) v r 0)))).mul (dec32 (fRecip (s.rowState (EngIdIdx e) v r 1)))))) ∧
      (t.rd .engVopCnt (EngIdIdx e) vopSmxProb = s.rd .engVopCnt (EngIdIdx e) vopSmxProb + 1#64)) ∧
  (∀ (s : State) (e : EngId) (task : Fin 4) (w : Words4),
    let v := (parseVec (withVop w vopSkipDecide)).1
    let codes := ((List.range v.rows).map fun r => s.decideRow (EngIdIdx e) v r).flatten
    (EngineFree s (EngIdIdx e) task.val) →
    Gives (.skipDecide e task w) s fun t =>
      (t.lens = (s.putMap (EngIdIdx e) v codes).lens) ∧
      (t.rd .engSkipDecideCnt (EngIdIdx e) 0 = s.rd .engSkipDecideCnt (EngIdIdx e) 0 + BitVec.ofNat 64 (if v.nocount then 0 else v.rows * v.cols)) ∧
      (t.rd .engSkipBlockCnt (EngIdIdx e) 0 = s.rd .engSkipBlockCnt (EngIdIdx e) 0 + BitVec.ofNat 64 (if v.nocount then 0 else codes.countP (· == 1)))) ∧
  (∀ (s : State) (e : EngId) (task : Fin 4) (w : Words4),
    let v := (parseVec (withVop w vopSkipReplay)).1
    let hits := (List.range v.rows).map fun r => (List.range v.cols).countP fun c => s.skipCode (EngIdIdx e) v r c == 1 && (s.replayRow (EngIdIdx e) v r).getD c 0 == 2
    (EngineFree s (EngIdIdx e) task.val) →
    Gives (.skipReplay e task w) s fun t =>
      (t.lens = (s.putMap (EngIdIdx e) v ((List.range v.rows).map fun r => s.replayRow (EngIdIdx e) v r).flatten).lens) ∧
      (t.rd .engSkipReplayCnt (EngIdIdx e) 0 = s.rd .engSkipReplayCnt (EngIdIdx e) 0 + BitVec.ofNat 64 (if v.nocount then 0 else hits.sum)) ∧
      (t.rd .engSkipRowReplayCnt (EngIdIdx e) 0 = s.rd .engSkipRowReplayCnt (EngIdIdx e) 0 + BitVec.ofNat 64 (if v.nocount then 0 else hits.countP (0 < ·))) ∧
      (t.rd .engVopCnt (EngIdIdx e) vopSkipReplay = s.rd .engVopCnt (EngIdIdx e) vopSkipReplay + 1#64))

/-- On a free engine with clean lens buffers. DROPOUT and RAND_UNIFORM of a context whose GEN_DESC names a descriptor, with OUT_DESC = 0xFFFF, draw from the generator at the element's index in that descriptor's tensor for the chain's step revolution: DROPOUT leaves a x b where the 16-bit draw is at least PARAM and otherwise 0, RAND_UNIFORM the 32-bit draw's upper 24 bits times 2^-24; RNG_OUTPUT_CNT grows by the outputs drawn. FLAGS_CLEAR clears its flag entry on both dies and leaves the lens buffers alone; FLAGS_GET leaves 1.0 or 0.0 for each of the three flags of its die's entry; NOP is counted and leaves the lens buffers alone. GAL_FLAG_ENTRY_CLEAR clears in one die's entry the flags written as 1. (spec/04_vector_functions_random.md R164, R174, R175, R176, R204, R205) -/
def Obligations.GeneratorFlagAndNopCommands : Prop :=
  (∀ (s : State) (e : EngId) (task : Fin 4) (w : Words4) (ch : Chain) (d : Desc) (n : Nat),
    let v := (parseVec (withVop w vopDropout)).1
    (EngineFree s (EngIdIdx e) task.val) →
    (v.outDesc = 0xFFFF) →
    (s.genDescOf (EngIdIdx e) task.val v = some (ch, d, n)) →
    Gives (.dropout e task w) s fun t =>
      (LensHolds s t (EngIdIdx e) v (grid v fun r c => if v.param ≤ draw16 (d.genKey ch.stepRev) (d.index (v.orgRow + r) (v.orgCol + c)) then rounded ((dec32 (s.lensElem (EngIdIdx e) v.a v.fmtA (r * v.cols + c))).mul (dec32 (s.operandB (EngIdIdx e) v r c))) else ⟨0#32, false⟩)) ∧
      (t.rd .engRngOutputCnt (EngIdIdx e) 0 = s.rd .engRngOutputCnt (EngIdIdx e) 0 + BitVec.ofNat 64 (v.outputs d))) ∧
  (∀ (s : State) (e : EngId) (task : Fin 4) (w : Words4) (ch : Chain) (d : Desc) (n : Nat),
    let v := (parseVec (withVop w vopRandUniform)).1
    (EngineFree s (EngIdIdx e) task.val) →
    (v.outDesc = 0xFFFF) →
    (s.genDescOf (EngIdIdx e) task.val v = some (ch, d, n)) →
    Gives (.randUniform e task w) s fun t =>
      (LensHolds s t (EngIdIdx e) v (grid v fun r c => rounded (.fin false (draw32 (d.genKey ch.stepRev) (d.index (v.orgRow + r) (v.orgCol + c)) / 256) (-24)))) ∧
      (t.rd .engRngOutputCnt (EngIdIdx e) 0 = s.rd .engRngOutputCnt (EngIdIdx e) 0 + BitVec.ofNat 64 (v.outputs d))) ∧
  (∀ (s : State) (e : EngId) (task : Fin 4) (w : Words4),
    let v := (parseVec (withVop w vopFlagsClear)).1
    (EngineFree s (EngIdIdx e) task.val) →
    Gives (.flagsClear e task w) s fun t =>
      (t.rd .galFlagEntry 0 v.flagIdx = 0#64 ∧ t.rd .galFlagEntry 1 v.flagIdx = 0#64) ∧
      (t.lens = s.lens)) ∧
  (∀ (s : State) (e : EngId) (task : Fin 4) (w : Words4),
    let v := (parseVec (withVop w vopFlagsGet)).1
    (EngineFree s (EngIdIdx e) task.val) →
    Gives (.flagsGet e task w) s fun t =>
      t.lens = (((s.lensPutF32 (EngIdIdx e) (v.d * 64) (if bitOf (s.rd .galFlagEntry (engDie (EngIdIdx e)) v.flagIdx) 0 then 0x3F800000#32 else 0#32)).lensPutF32 (EngIdIdx e) (v.d * 64 + 4) (if bitOf (s.rd .galFlagEntry (engDie (EngIdIdx e)) v.flagIdx) 1 then 0x3F800000#32 else 0#32)).lensPutF32 (EngIdIdx e) (v.d * 64 + 8) (if bitOf (s.rd .galFlagEntry (engDie (EngIdIdx e)) v.flagIdx) 2 then 0x3F800000#32 else 0#32)).lens) ∧
  (∀ (s : State) (e : EngId) (task : Fin 4) (w : Words4),
    (EngineFree s (EngIdIdx e) task.val) →
    Gives (.nop e task w) s fun t =>
      (t.rd .engVopCnt (EngIdIdx e) vopNop = s.rd .engVopCnt (EngIdIdx e) vopNop + 1#64) ∧
      (t.lens = s.lens)) ∧
  (∀ (s : State) (die : Fin 2) (idx : BitVec 12) (value : Word),
    Gives (.galFlagEntryClear die idx value) s fun t =>
      t.rd .galFlagEntry die.val idx.toNat = s.rd .galFlagEntry die.val idx.toNat &&& ~~~(value &&& 7#64))

/-- CLUSTER_BANK_GRANT: of the requesters with an access that waits for the bank or reaches it in this cycle, the first in the rotation after the last one granted gets the slot, and MEM_SLOT_CNT of the bank grows by 1. GALLERY_BANK_GRANT: with no other coming in this cycle the one request that waits for a bank is served and GAL_SLOT_CNT grows by 1. PARITY_ERROR: a byte of a cluster memory read by a running chain is marked, counted, and its rerun unit stopped and counted; a byte of a cached-clean gallery line is counted and its line taken again from the lower copy. LINE_CRC_FAIL: a line for a cluster memory whose CRC does not match is not written; it is counted and asked for again while attempts are left. LINE_REFETCH_DONE: a line asked for again that matches is written, enabled bytes and no others, and is waited for no more. (spec/06_onchip_memory.md R274, R276, R277, R281, R284, R286, R287, R289, R306) -/
def Obligations.SramGrantsAndFailingLines : Prop :=
  (∀ (s : State) (cluster : Fin 24) (bank : Fin 8) (others : BitVec 6),
    let key := cluster.val * 8 + bank.val
    let last := lookupD 5 key s.sram.granted
    let wants := fun g : Nat => lookupD 0 (key * 6 + g) s.sram.wants + (others.getLsbD g).toNat
    (∃ g ∈ List.range 6, 0 < wants g) →
    Gives (.clusterBankGrant cluster bank others) s fun t =>
      (∃ k ∈ List.range 6, 0 < wants ((last + 1 + k) % 6) ∧ (∀ j ∈ List.range k, wants ((last + 1 + j) % 6) = 0) ∧ lookupD 5 key t.sram.granted = (last + 1 + k) % 6 ∧ lookupD 0 (key * 6 + (last + 1 + k) % 6) t.sram.wants = wants ((last + 1 + k) % 6) - 1) ∧
      (t.rd .cluMemSlotCnt cluster.val bank.val = s.rd .cluMemSlotCnt cluster.val bank.val + 1#64)) ∧
  (∀ (s : State) (die : Fin 2) (bank : Fin 64) (r : GalRequest),
    ((s.galBank die.val bank.val).queue = [r] ∧ (s.galBank die.val bank.val).held = [] ∧ r.owner < 64) →
    Gives (.galleryBankGrant die bank []) s fun t =>
      ((t.galBank die.val bank.val).queue = [] ∧ (t.galBank die.val bank.val).owner = r.owner) ∧
      (t.rd .galSlotCnt die.val 0 = s.rd .galSlotCnt die.val 0 + 1#64)) ∧
  (∀ (s : State) (k : Fin 24) (off : BitVec 24) (req : BitVec 4) (reader : ChainRef) (c : Chain),
    let pa := clusterBase k.val + off.toNat
    let r := s.findUnit c.launch c.unit
    (s.phys pa = .cluster k.val off.toNat ∧ (s.frame (pa / 65536)).st ≠ .clean) →
    (s.findChain reader = some c ∧ r.stopped = false ∧ r.count < s.dnat dkParityRerunLimit) →
    Gives (.parityError (.cluster k off) req reader) s fun t =>
      (t.badCheck = setInsert pa s.badCheck) ∧
      (t.rd .cluMemParityCnt k.val 0 = s.rd .cluMemParityCnt k.val 0 + 1#64) ∧
      (t.reruns = (s.setUnit { r with count := r.count + 1, stopped := true, status := stParityRerunLimit }).reruns)) ∧
  (∀ (s : State) (d : Fin 2) (off : BitVec 28) (req : BitVec 4) (reader : ChainRef) (low : Nat),
    let pa := galleryBase d.val + off.toNat / 128 * 128
    (s.phys (galleryBase d.val + off.toNat) = .gallery d.val off.toNat) →
    ((s.frame ((galleryBase d.val + off.toNat) / 65536)).st = .clean ∧ (s.frame ((galleryBase d.val + off.toNat) / 65536)).lower = some low) →
    Gives (.parityError (.gallery d off) req reader) s fun t =>
      (t.rd .galParityCnt d.val 0 = s.rd .galParityCnt d.val 0 + 1#64 ∧ t.rd .galParityRefetchCnt d.val 0 = s.rd .galParityRefetchCnt d.val 0 + 1#64) ∧
      (∀ i ∈ List.range 128, t.rdByte (pa + i) = s.memByte (low * 65536 + pa % 65536 + i))) ∧
  (∀ (s : State) (l : LineArrival) (c : Fin 24) (off : BitVec 24),
    let n := ((s.findRefetch l).map fun r : Refetch => r.attempts).getD 0
    (l.site = .cluster c off ∧ lineGood l = false ∧ n < s.dnat dkLineCrcRetry) →
    Gives (.lineCrcFail l) s fun t =>
      (t.mem = s.mem ∧ t.lens = s.lens ∧ t.poison = s.poison) ∧
      (t.rd .cluLineCrcCnt c.val 0 = s.rd .cluLineCrcCnt c.val 0 + 1#64 ∧ t.rd .cluLineRefetchCnt c.val 0 = s.rd .cluLineRefetchCnt c.val 0 + 1#64) ∧
      ((t.findRefetch l).map (fun r : Refetch => r.attempts) = some (n + 1))) ∧
  (∀ (s : State) (l : LineArrival) (c : Fin 24) (off : BitVec 24),
    let base := clusterBase c.val + off.toNat / 128 * 128
    (l.site = .cluster c off ∧ lineGood l = true ∧ (s.findRefetch l).isSome = true) →
    (∀ j ∈ List.range 4, s.deltaAt (base + 32 * j) = 0#16) →
    Gives (.lineRefetchDone l) s fun t =>
      ((t.findRefetch l).isNone = true) ∧
      (∀ k ∈ List.range 128, t.rdByte (base + k) = if l.mask.getLsbD k then BitVec.ofNat 8 (l.data.toNat / 2 ^ (8 * k)) else s.rdByte (base + k)))

/-- GAL_REPAIR_CMD: with GO on a die whose repair unit is idle, BUSY reads 1 and the repair of the row enters the arbiter. ROW_REPAIR_RUN: an admitted repair maps its row to the lowest free spare and writes a repair-log entry; SPARE shows that spare, SPARES_FREE the spares still free, and BUSY reads 0. RERUN_LAUNCH: a stopped unit whose chains, on one cluster, have all stopped and can be launched again is stopped no more, and that cluster counts one rerun. PREDICTOR_COMMIT_LAUNCH: for a region of the program with SKIP 1 and a PRED_ENTRY, whose backward has reached its commit point, on a cluster that runs no chain beside the record's own, PRED_COMMIT_CNT and CHAIN_LAUNCH_CNT grow by 1. CHECKPOINT_REGENERATION: where the checkpoint that the reader's region names may be regenerated (its producing region has a REGEN_ENTRY, the reader is no regeneration, the checkpoint was not regenerated in this step), it is noted, and CKPT_REGEN_CNT and CHAIN_LAUNCH_CNT grow by 1. (spec/06_onchip_memory.md R288, R289, R292, R299, R300, R301, spec/05_backward_recompute.md R229, R232, R233, R234) -/
def Obligations.RepairsRerunsAndRegenerations : Prop :=
  (∀ (s : State) (die : Fin 2) (value : Word) (k : Nat),
    (s.fld galRepairStatusBusy die.val = 0 ∧ bitOf value 63 = true ∧ s.freeEntry die.val = some k) →
    Gives (.galRepairCmd die value) s fun t =>
      (t.fld galRepairStatusBusy die.val = 1) ∧
      (t.sram.repairs = s.sram.repairs ++ ([{ die := die.val, bank := bitsOf value 0 6, row := min 3071 (bitsOf value 6 12), entry := k }] : List Repair))) ∧
  (∀ (s : State) (die : Fin 2) (a : MaintAct) (r : Repair) (k : Nat),
    let key := (die.val * 64 + r.bank) * 3072 + r.row
    (((s.arb die.val).acts.find? fun a : MaintAct => a.kind == 6 && a.running) = some a) →
    ((s.sram.repairs.find? fun r : Repair => r.die == die.val && r.entry == a.entry) = some r) →
    (((List.range 32).find? fun k => s.spareFree die.val r.bank k) = some k) →
    Gives (.rowRepairRun die) s fun t =>
      (lookupD 0 key t.sram.spareOf = k + 1) ∧
      (t.sram.repairLog = s.sram.repairLog ++ [repairEntry die.val r.bank r.row k false]) ∧
      (t.fld galBankStateSparesFree die.val r.bank = (List.range 32).countP fun k : Nat => t.spareFree die.val r.bank k) ∧
      (t.fld galRepairStatusBusy die.val = 0 ∧ t.fld galRepairStatusSpare die.val = k)) ∧
  (∀ (s : State) (unit : RerunRef) (k : Nat),
    let u := unitOfRef unit
    let r := s.findUnit unit.launch.toNat u
    (r.stopped = true ∧ s.unitClusters unit.launch.toNat u = [k] ∧ s.relaunchReady unit.launch.toNat u k = true) →
    Gives (.rerunLaunch unit) s fun t =>
      (t.reruns = (s.setUnit { r with stopped := false }).reruns) ∧
      (t.rd .cluParityRerunCnt k 0 = s.rd .cluParityRerunCnt k 0 + 1#64)) ∧
  (∀ (s : State) (cluster : Fin 24) (launch : BitVec 12) (region : BitVec 16),
    let r := s.recOr launch.toNat
    let g := s.regionRec (cluDie cluster.val) r.owner r.prog region.toNat
    let c := (s.parseChain cluster.val r g.pred (s.progAt (cluDie cluster.val) r.owner r.prog g.pred 32)).1
    (region.toNat < s.regionCount (cluDie cluster.val) r.owner r.prog ∧ g.skip = true ∧ g.pred ≠ 0) →
    (s.backwardDone launch.toNat region.toNat = true ∧ s.besideBusy cluster.val launch.toNat = false ∧ s.canLaunch c = true) →
    Gives (.predictorCommitLaunch cluster launch region) s fun t =>
      (t.rd .cluPredCommitCnt cluster.val 0 = s.rd .cluPredCommitCnt cluster.val 0 + 1#64) ∧
      (t.rd .cluChainLaunchCnt cluster.val 0 = s.rd .cluChainLaunchCnt cluster.val 0 + 1#64)) ∧
  (∀ (s : State) (reader : ChainRef) (ckpt : BitVec 5) (c : Chain),
    let die := cluDie c.cluster
    let g := s.regionOf c
    let w := s.ckptEntry die c.owner c.prog g ckpt.toNat
    let p := s.regionRec die c.owner c.prog (bitsOf w 32 16)
    let r := s.recOr c.launch
    let d := (s.parseChain c.cluster r p.regen (s.progAt die r.owner r.prog p.regen 32)).1
    (s.findChain reader = some c ∧ c.region ≠ 0xFFFF ∧ ckpt.toNat < g.nAckpt) →
    (bitOf w 48 = false ∧ s.regenAllowed c w = true) →
    (s.besideBusy c.cluster c.launch = false ∧ s.canLaunch d = true) →
    Gives (.checkpointRegeneration reader ckpt) s fun t =>
      (t.regens = s.regens ++ [(c.launch, bitsOf w 32 16, bitsOf w 0 32)]) ∧
      (t.rd .cluCkptRegenCnt c.cluster 0 = s.rd .cluCkptRegenCnt c.cluster 0 + 1#64) ∧
      (t.rd .cluChainLaunchCnt c.cluster 0 = s.rd .cluChainLaunchCnt c.cluster 0 + 1#64))

/-- STAGE_CHAIN: where the cluster's sequence of the record has not ended and neither a chain nor a collective of it runs, a chain image at its next offset whose rings lie in one memory and whose task contexts are free is launched: CHAIN_LAUNCH_CNT grows by 1 and the chain, as clamped, runs. NEXT_CHAIN_LAUNCH: the same for the next command of the sequence once the chain before has completed; with OVERLAP, once its stage 0 has finished its last item, the next chain is launched ahead and BUBBLE_LAUNCH_CNT grows by 1; a sequence beside the record's own (a regeneration) goes on with its own next chain. STAGE_ITEM_START: an engine stage whose slots are ready, on an engine that has selected its task, starts its next item with its tile open (here one without lens loads, on an engine with nothing queued). RUNAHEAD_RESUME: a stopped fetch whose reads are now done (every page present, nothing it reads waits or is poisoned) fills its slot with its tile's elements and is stopped no more. (Of a format without scales.) (spec/07_streams_and_stage_chains.md R323, R332, R336, R337, R352, R354, spec/12_beam_and_launching.md R600) -/
def Obligations.ChainsLaunchAndStageItemsStart : Prop :=
  (∀ (s : State) (cluster : Fin 24) (launch : BitVec 12) (image : CmdImage) (q : Seq),
    let r := s.recOr launch.toNat
    let ws := s.imageWords cluster.val r q.next 32 image
    let c := (s.parseChain cluster.val r q.next ws).1
    ((s.chains.any fun d : Chain => d.cluster == cluster.val && d.launch == launch.toNat && !d.extra) = false ∧ s.collRuns cluster.val launch.toNat = false) →
    (s.findSeq cluster.val launch.toNat = some q ∧ q.ended = false ∧ imageOpc ws = 0xC) →
    (s.canLaunch c = true ∧ (c.rings.all fun g : Stage => s.ringOk g) = true ∧ s.contextsFree c.launch c.stages = true) →
    Gives (.stageChain cluster launch image) s fun t =>
      (t.rd .cluChainLaunchCnt cluster.val 0 = s.rd .cluChainLaunchCnt cluster.val 0 + 1#64) ∧
      (t.chains = s.chains ++ [c])) ∧
  (∀ (s : State) (cluster : Fin 24) (launch : BitVec 12) (image : CmdImage) (q : Seq),
    let r := s.recOr launch.toNat
    let ws := s.imageWords cluster.val r q.next 32 image
    let c := (s.parseChain cluster.val r q.next ws).1
    ((s.chains.find? fun d : Chain => d.cluster == cluster.val && d.launch == launch.toNat && !d.extra && !d.ahead) = none) →
    (s.collRuns cluster.val launch.toNat = false ∧ s.findSeq cluster.val launch.toNat true = none) →
    (s.findSeq cluster.val launch.toNat = some q ∧ q.ended = false ∧ q.next ≠ 0 ∧ imageOpc ws = 0xC) →
    (s.canLaunch c = true ∧ (c.rings.all fun g : Stage => s.ringOk g) = true ∧ s.contextsFree c.launch c.stages = true) →
    Gives (.nextChainLaunch cluster launch image) s fun t =>
      (t.rd .cluChainLaunchCnt cluster.val 0 = s.rd .cluChainLaunchCnt cluster.val 0 + 1#64) ∧
      (t.chains = s.chains ++ [c])) ∧
  (∀ (s : State) (cluster : Fin 24) (launch : BitVec 12) (image : CmdImage) (cur : Chain) (g : Stage),
    let r := s.recOr launch.toNat
    let ws := s.imageWords cluster.val r cur.next 32 image
    let c := (s.parseChain cluster.val r cur.next ws).1
    (s.findSeq cluster.val launch.toNat true = none) →
    ((s.chains.find? fun d : Chain => d.cluster == cluster.val && d.launch == launch.toNat && !d.extra && !d.ahead) = some cur) →
    ((s.chains.any fun d : Chain => d.cluster == cluster.val && d.launch == launch.toNat && !d.extra && d.ahead) = false) →
    (cur.stages.head? = some g ∧ g.busy = false ∧ cur.items ≤ g.started) →
    (cur.overlap = true ∧ cur.next ≠ 0 ∧ cur.aborting = none ∧ cur.stopped = false ∧ imageOpc ws = 0xC) →
    (s.canLaunch c = true ∧ (c.rings.all fun g : Stage => s.ringOk g) = true ∧ s.contextsFree c.launch c.stages = true) →
    Gives (.nextChainLaunch cluster launch image) s fun t =>
      (t.rd .cluBubbleLaunchCnt cluster.val 0 = s.rd .cluBubbleLaunchCnt cluster.val 0 + 1#64) ∧
      (t.rd .cluChainLaunchCnt cluster.val 0 = s.rd .cluChainLaunchCnt cluster.val 0 + 1#64) ∧
      (t.chains = s.chains ++ [{ c with ahead := true }])) ∧
  (∀ (s : State) (cluster : Fin 24) (launch : BitVec 12) (image : CmdImage) (q : Seq),
    let r := s.recOr launch.toNat
    let ws := s.imageWords cluster.val r q.next 32 image
    let c := { (s.parseChain cluster.val r q.next ws).1 with extra := true, origin := if q.regenFor.isSome then 3 else 1 }
    (s.findSeq cluster.val launch.toNat true = some q ∧ q.next ≠ 0) →
    ((s.chains.any fun d : Chain => d.cluster == cluster.val && d.launch == launch.toNat && d.extra) = false) →
    (s.canLaunch c = true ∧ (c.rings.all fun g : Stage => s.ringOk g) = true ∧ s.contextsFree c.launch c.stages = true) →
    Gives (.nextChainLaunch cluster launch image) s fun t =>
      (t.rd .cluChainLaunchCnt cluster.val 0 = s.rd .cluChainLaunchCnt cluster.val 0 + 1#64) ∧
      (t.chains = s.chains ++ [c])) ∧
  (∀ (s : State) (ref : ChainRef) (stage : Fin 6) (wait : SyncWait) (waited : BitVec 40) (c : Chain) (g : Stage),
    (s.findChain ref = some c ∧ c.stages[stage.val]? = some g ∧ g.kind = 0) →
    (c.waiting = false ∧ c.stopped = false ∧ c.aborting = none ∧ c.raw = false) →
    (s.stageInReset c g = false ∧ s.touchesReset c = false ∧ (s.eng (engIndex g.engine)).queue = []) →
    (g.missed = none ∧ g.busy = false ∧ g.started < c.items ∧ s.selected (engIndex g.engine) g.task = true) →
    (s.planReady c = true ∧ s.itemReady c stage.val g = true) →
    Gives (.stageItemStart ref stage [] wait waited) s fun t =>
      (t.chains = (s.setChain (s.beginItem c stage.val g []).2.1).chains) ∧
      ((s.beginItem c stage.val g []).2.2.started = g.started + 1 ∧ (s.beginItem c stage.val g []).2.2.tileOpen = true)) ∧
  (∀ (s : State) (ref : ChainRef) (c : Chain) (g : Stage) (u : State),
    let d := (s.chainDesc c g.inDesc).1
    let img := u.tileImage (cluDie c.cluster) c.owner d (g.started - 1) g.ovl g.overBad
    (s.findChain ref = some c ∧ c.stages[0]? = some g ∧ (c.outRing 0).isSome = true) →
    (g.kind = 1 ∧ g.todo = true ∧ c.stopped = false ∧ c.waiting = false) →
    (s.stageReads c 0 g (d.tileRuns (g.started - 1)) = (u, ReadEnd.done false) ∧ d.mx = false) →
    Gives (.runaheadResume ref) s fun t =>
      (t.chains = (s.setStageOf c 0 g.readDone).chains ∧ g.readDone.missed = none) ∧
      (∀ k ∈ List.range (Nat.min img.elems.length g.slotBytes), t.rdByte (g.slotAddr (g.started - 1) + k) = img.elems.getD k 0#8))

/-- SLOT_FULL: the slot of the item in progress, FILLING, with the item's reads, tile, passes and lines complete, becomes FULL; the producer's item has its output done and the transition is hidden from the consumer. SLOT_EMPTY: the slot being drained, its reads complete and not still to be forwarded, becomes EMPTY, and that is hidden from the producer. TOKEN_HANDOVER: the oldest hidden transition of the ring towards that side is hidden no more. TASK_SWITCH: at a tile boundary an engine changes to a ready task of higher launch-record priority than its current one; SWITCH_THRESHOLD_EXPIRY: with its current task, not ready, waiting for its threshold it changes to the best ready task; TASK_SWITCH_CNT grows by 1. (spec/07_streams_and_stage_chains.md R336, R339, R342, R343) -/
def Obligations.SlotTokensMove : Prop :=
  (∀ (s : State) (ref : ChainRef) (stage : Fin 6) (c : Chain) (g : Stage),
    let j := (g.started - 1) % g.nslots
    (s.findChain ref = some c ∧ c.outRing stage.val = some g) →
    (g.outOpen = true ∧ g.todo = false ∧ g.tileOpen = false ∧ s.passesOpen g = false ∧ s.lineWaits c stage.val = false ∧ s.slotToken g j = 1) →
    Gives (.slotFull ref stage) s fun t =>
      (t.slotToken g j = 2) ∧
      (t.chains = (s.setChain { c with stages := c.stages.set stage.val { g with outOpen := false }, hidden := c.hidden ++ ([⟨stage.val, j, true⟩] : List Handover) }).chains)) ∧
  (∀ (s : State) (ref : ChainRef) (stage : Fin 6) (c : Chain) (g : Stage) (gi : Stage),
    let j := (g.started - 1) % gi.nslots
    (s.findChain ref = some c ∧ c.stages[stage.val]? = some g ∧ c.inRing stage.val = some gi) →
    (g.inOpen = true ∧ g.todo = false ∧ s.lineWaits c stage.val = false ∧ s.slotToken gi j = 3 ∧ s.forwarding gi j = false) →
    Gives (.slotEmpty ref stage) s fun t =>
      (t.slotToken gi j = 0) ∧
      (t.chains = (s.setChain { c with stages := c.stages.set stage.val { g with inOpen := false }, hidden := c.hidden ++ ([⟨stage.val - 1, j, false⟩] : List Handover) }).chains)) ∧
  (∀ (s : State) (ref : ChainRef) (ring : Fin 6) (toConsumer : Bool) (c : Chain),
    (s.findChain ref = some c) →
    Gives (.tokenHandover ref ring toConsumer) s fun t =>
      t.chains = (s.setChain { c with hidden := dropHandover ring.val toConsumer c.hidden }).chains) ∧
  (∀ (s : State) (e : EngId) (task : Fin 4),
    ((s.eng (EngIdIdx e)).tileOpen = false ∧ (s.eng (EngIdIdx e)).task ≠ task.val) →
    (s.taskReady (EngIdIdx e) task.val = true ∧ s.taskPrio (EngIdIdx e) (s.eng (EngIdIdx e)).task < s.taskPrio (EngIdIdx e) task.val) →
    Gives (.taskSwitch e task) s fun t =>
      (t.eng (EngIdIdx e) = { s.eng (EngIdIdx e) with task := task.val }) ∧
      (t.rd .engTaskSwitchCnt (EngIdIdx e) 0 = s.rd .engTaskSwitchCnt (EngIdIdx e) 0 + 1#64)) ∧
  (∀ (s : State) (e : EngId) (waited : BitVec 32) (b : Nat),
    ((s.eng (EngIdIdx e)).tileOpen = false ∧ s.taskState (EngIdIdx e) (s.eng (EngIdIdx e)).task ≠ 0 ∧ s.taskReady (EngIdIdx e) (s.eng (EngIdIdx e)).task = false) →
    (s.switchLimit (EngIdIdx e) (s.eng (EngIdIdx e)).task ≤ waited.toNat ∧ s.bestReady (EngIdIdx e) = some b) →
    Gives (.switchThresholdExpiry e waited) s fun t =>
      (t.eng (EngIdIdx e) = { s.eng (EngIdIdx e) with task := b }) ∧
      (t.rd .engTaskSwitchCnt (EngIdIdx e) 0 = s.rd .engTaskSwitchCnt (EngIdIdx e) 0 + 1#64))

/-- CHAIN_COMMIT: a chain, alone in its sequence, whose last item is finished and accepted ends with OK: CHAIN_END_CNT grows by 1, and its sequence, one operation further, goes on at NEXT or ends where NEXT is 0; one launched ahead is marked and ends when its predecessor has. CHAIN_STALL: where every stage waits on the chain's own slots for STALL_WD, CHAIN_STALL_CNT grows by 1 and the chain ends with CHAIN_STALL. SLOT_TIMEOUT: a wait on an external head's ring that has lasted EXT_SLOT_LIMIT is counted and ends the chain with SLOT_TIMEOUT. CHAIN_ABORT: a chain with no open tile ends with ABORTED and its sequence with it; one with an open tile waits for the tile's end. (For the failures and the abort, of a chain that is the only one of its record and with the chain log free: CHAIN_END_CNT grows by 1 and the log shows the status.) (spec/07_streams_and_stage_chains.md R338, R341, R348, R349, R350, R359, R367, spec/12_beam_and_launching.md R600, R608) -/
def Obligations.ChainsEnd : Prop :=
  (∀ (s : State) (ref : ChainRef) (c : Chain) (q : Seq),
    (s.findChain ref = some c ∧ s.lastOpen c = false) →
    (c.completion = 1 ∧ c.stopped = false ∧ c.aborting = none ∧ c.extra = false ∧ c.ahead = false) →
    ((s.chains.filter fun d : Chain => d.cluster == c.cluster && d.launch == c.launch) = [c] ∧ s.findSeq c.cluster c.launch = some q) →
    Gives (.chainCommit ref) s fun t =>
      (t.rd .cluChainEndCnt c.cluster 0 = s.rd .cluChainEndCnt c.cluster 0 + 1#64) ∧
      (t.seqs = (s.setSeq { q with ops := q.ops + 1, lastItems := c.items, commitBeam := s.beamNow, next := c.next, backward := (if c.rphase = 2 ∧ c.region ≠ 0xFFFF then setInsert c.region q.backward else q.backward), ended := q.ended || c.next == 0 }).seqs)) ∧
  (∀ (s : State) (ref : ChainRef) (c : Chain),
    (s.findChain ref = some c ∧ s.lastOpen c = false) →
    (c.completion = 1 ∧ c.stopped = false ∧ c.aborting = none ∧ c.ahead = true) →
    Gives (.chainCommit ref) s fun t =>
      t.chains = (s.setChain { c with completion := 2 }).chains ∧ t.seqs = s.seqs) ∧
  (∀ (s : State) (ref : ChainRef) (us : BitVec 32) (c : Chain),
    (s.findChain ref = some c ∧ c.stallWd ≠ 0 ∧ c.stallWd ≤ us.toNat) →
    (c.waiting = false ∧ c.stopped = false ∧ c.aborting = none ∧ s.allWait c = true ∧ s.waitsExternal c = false) →
    ((s.chains.filter fun d : Chain => d.launch == c.launch) = [c] ∧ s.fld cluChainLogValid c.cluster = 0) →
    Gives (.chainStall ref us) s fun t =>
      (t.rd .cluChainStallCnt c.cluster 0 = s.rd .cluChainStallCnt c.cluster 0 + 1#64) ∧
      (t.rd .cluChainEndCnt c.cluster 0 = s.rd .cluChainEndCnt c.cluster 0 + 1#64) ∧
      (t.fld cluChainLogStatus c.cluster = stChainStall)) ∧
  (∀ (s : State) (ref : ChainRef) (ms : BitVec 32) (c : Chain) (g : Stage),
    (s.findChain ref = some c ∧ c.stages.head? = some g ∧ g.kind = 5 ∧ c.stopped = false ∧ c.aborting = none) →
    (s.waitsExternal c = true ∧ s.dnat dkExtSlotLimit ≤ ms.toNat) →
    ((s.chains.filter fun d : Chain => d.launch == c.launch) = [c] ∧ s.fld cluChainLogValid c.cluster = 0) →
    Gives (.slotTimeout ref ms 0#8) s fun t =>
      (t.rd .cluSlotTimeoutCnt c.cluster 0 = s.rd .cluSlotTimeoutCnt c.cluster 0 + 1#64) ∧
      (t.rd .cluChainEndCnt c.cluster 0 = s.rd .cluChainEndCnt c.cluster 0 + 1#64) ∧
      (t.fld cluChainLogStatus c.cluster = stSlotTimeout)) ∧
  (∀ (s : State) (ref : ChainRef) (c : Chain) (q : Seq),
    (s.findChain ref = some c ∧ (c.stages.any fun g : Stage => g.tileOpen) = false) →
    (c.completion ≠ 2 ∧ (s.chains.filter fun d : Chain => d.launch == c.launch) = [c]) →
    (s.findSeq c.cluster c.launch = some q ∧ q.ended = false ∧ s.fld cluChainLogValid c.cluster = 0) →
    Gives (.chainAbort ref) s fun t =>
      (t.rd .cluChainEndCnt c.cluster 0 = s.rd .cluChainEndCnt c.cluster 0 + 1#64) ∧
      (t.fld cluChainLogStatus c.cluster = stAborted) ∧
      (t.findSeq c.cluster c.launch = some { q with ended := true, status := stAborted })) ∧
  (∀ (s : State) (ref : ChainRef) (c : Chain),
    (s.findChain ref = some c ∧ c.completion ≠ 2 ∧ (c.stages.any fun g : Stage => g.tileOpen) = true) →
    Gives (.chainAbort ref) s fun t =>
      t = s.setChain { c with aborting := some stAborted })

/-- HBM_READ and HBM_WRITE: a request whose queue and bank have room, with nothing held and its channel group in service, joins its pseudo-channel's queue. The request the controller picks is served: a clean read delivers the sector's bytes and counts a sector, a correctable one delivers the corrected bytes, counts in CE_CNT and queues a write-back, an uncorrectable one is delivered poisoned, counted in UE_CNT and posted; a write leaves the sector with the enabled bytes of its data, zero in the others, and valid check symbols, no byte of memory outside the sector changed. CORRECTION_WRITEBACK: the write-back picked, which holds the sector as corrected when it was read, is stored with valid check symbols, no byte outside the sector changed, and WRITEBACK_CNT grows by 1. HELD_REQUEST_ENTER: the first held request enters the queue once it fits. (spec/08_hbm_and_protection.md R374, R377, R378, R379, R381, R384, R385, R449, spec/18_observability.md R825) -/
def Obligations.HbmReadsAndWrites : Prop :=
  (∀ (s : State) (addr : BitVec 48) (owner : BitVec 6) (port : BitVec 6),
    let pa := addr.toNat / 32 * 32
    let p := hbmPlace s.harbour pa
    let r : HbmReq := { addr := pa, write := false, owner := owner.toNat, port := port.toNat }
    (s.isHbm pa = true ∧ (s.chan p.1 p.2).held = [] ∧ s.groupOut (p.1 / 4) (hbmGroup s.harbour pa) = false) →
    (hbmFits s.harbour (s.chan p.1 p.2).queue r = true) →
    Gives (.hbmRead addr owner port .arrive) s fun t =>
      (t.chan p.1 p.2).queue = (s.chan p.1 p.2).queue ++ [r]) ∧
  (∀ (s : State) (addr : BitVec 48) (owner : BitVec 6) (port : BitVec 6) (ready : BitVec 64) (r : HbmReq) (ch : PseudoChannel),
    let pa := addr.toNat / 32 * 32
    let p := hbmPlace s.harbour pa
    (s.isHbm pa = true ∧ s.hbmPick p.1 p.2 ready = some (r, ch) ∧ r.write = false ∧ r.wb = false ∧ r.addr = pa ∧ r.owner = owner.toNat) →
    (s.deltaAt pa = 0#16 ∧ s.hbm.sevBad.contains (pa / 32) = false) →
    Gives (.hbmRead addr owner port (.serve ready 0#256 0#16 false)) s fun t =>
      (lookupD ({} : Delivered) p.1 t.hbm.out = ({ addr := pa, data := BitVec.ofNat 256 (natOfBytes (s.memBytes pa 32)), poison := (s.frame (pa / 65536)).quarantined, owner := owner.toNat } : Delivered)) ∧
      (t.rd .ctrStackSectorCnt (p.1 / 4) (p.1 % 4) = s.rd .ctrStackSectorCnt (p.1 / 4) (p.1 % 4) + 1#64) ∧
      (t.mem = s.mem ∧ t.chan p.1 p.2 = ch)) ∧
  (∀ (s : State) (addr : BitVec 48) (owner : BitVec 6) (port : BitVec 6) (ready : BitVec 64) (r : HbmReq) (ch : PseudoChannel) (j : Nat) (x : Nat),
    let pa := addr.toNat / 32 * 32
    let p := hbmPlace s.harbour pa
    let wb : HbmReq := { addr := pa, write := true, wb := true, data := BitVec.ofNat 256 (natOfBytes (s.memBytes pa 32)), mask := BitVec.allOnes 32, owner := owner.toNat }
    (s.isHbm pa = true ∧ s.hbmPick p.1 p.2 ready = some (r, ch) ∧ r.write = false ∧ r.wb = false ∧ r.addr = pa ∧ r.owner = owner.toNat) →
    (decodeDelta (s.deltaAt pa) = .corrected j x ∧ s.hbm.sevBad.contains (pa / 32) = false) →
    ((ch.queue.any fun q : HbmReq => q.wb && q.addr == pa) = false) →
    Gives (.hbmRead addr owner port (.serve ready 0#256 0#16 false)) s fun t =>
      (lookupD ({} : Delivered) p.1 t.hbm.out = ({ addr := pa, data := BitVec.ofNat 256 (natOfBytes (s.memBytes pa 32)), poison := (s.frame (pa / 65536)).quarantined, owner := owner.toNat } : Delivered)) ∧
      (t.rd .hbmcCeCnt p.1 0 = s.rd .hbmcCeCnt p.1 0 + 1#64) ∧
      (t.chan p.1 p.2 = { ch with queue := ch.queue ++ [wb] } ∧ t.mem = s.mem)) ∧
  (∀ (s : State) (addr : BitVec 48) (owner : BitVec 6) (port : BitVec 6) (ready : BitVec 64) (r : HbmReq) (ch : PseudoChannel),
    let pa := addr.toNat / 32 * 32
    let p := hbmPlace s.harbour pa
    (s.isHbm pa = true ∧ s.hbmPick p.1 p.2 ready = some (r, ch) ∧ r.write = false ∧ r.wb = false ∧ r.addr = pa ∧ r.owner = owner.toNat) →
    (decodeDelta (s.deltaAt pa) = .uncorrectable) →
    Gives (.hbmRead addr owner port (.serve ready 0#256 0#16 false)) s fun t =>
      ((lookupD ({} : Delivered) p.1 t.hbm.out).poison = true) ∧
      (t.rd .hbmcUeCnt p.1 0 = s.rd .hbmcUeCnt p.1 0 + 1#64) ∧
      (t.pool.uePosts = s.pool.uePosts ++ [pa] ∧ t.mem = s.mem)) ∧
  (∀ (s : State) (addr : BitVec 48) (owner : BitVec 6) (port : BitVec 6) (data : BitVec 256) (mask : BitVec 32) (ready : BitVec 64) (noise : BitVec 256) (checkNoise : BitVec 16) (r : HbmReq) (ch : PseudoChannel),
    let pa := addr.toNat / 32 * 32
    let p := hbmPlace s.harbour pa
    (s.isHbm pa = true ∧ s.hbmPick p.1 p.2 ready = some (r, ch) ∧ r.write = true ∧ r.wb = false ∧ r.addr = pa ∧ r.owner = owner.toNat) →
    ((s.frame (pa / 65536)).prot = false) →
    Gives (.hbmWrite addr owner port data mask (.serve ready noise checkNoise false)) s fun t =>
      (t.memBytes pa 32 = maskedBytes r.data r.mask ∧ t.deltaAt pa = 0#16) ∧
      (t.chan p.1 p.2 = { ch with queue := ch.queue.filter fun x : HbmReq => !(x.wb && x.addr / 32 == pa / 32) }) ∧
      (∀ a : Nat, a < pa ∨ pa + 32 ≤ a → t.rdByte a = s.rdByte a ∧ (a / 32 ≠ pa / 32 → t.deltaAt a = s.deltaAt a))) ∧
  (∀ (s : State) (addr : BitVec 48) (ready : BitVec 64) (r : HbmReq) (ch : PseudoChannel),
    let pa := addr.toNat / 32 * 32
    let p := hbmPlace s.harbour pa
    (s.isHbm pa = true ∧ s.hbmPick p.1 p.2 ready = some (r, ch) ∧ r.wb = true ∧ r.addr = pa) →
    Gives (.correctionWriteback { addr := addr, ready := ready }) s fun t =>
      (t.memBytes pa 32 = bytesOf r.data.toNat 32 ∧ t.deltaAt pa = 0#16) ∧
      (t.rd .hbmcWritebackCnt p.1 0 = s.rd .hbmcWritebackCnt p.1 0 + 1#64) ∧
      (t.chan p.1 p.2 = { ch with queue := ch.queue.filter fun x : HbmReq => !(x.wb && x.addr / 32 == pa / 32) }) ∧
      (∀ a : Nat, a < pa ∨ pa + 32 ≤ a → t.rdByte a = s.rdByte a)) ∧
  (∀ (s : State) (controller : Fin 8) (pc : Fin 32) (r : HbmReq) (rs : List HbmReq),
    ((s.chan controller.val pc.val).held = r :: rs ∧ hbmFits s.harbour (s.chan controller.val pc.val).queue r = true) →
    (s.groupOut (controller.val / 4) (hbmGroup s.harbour r.addr) = false) →
    Gives (.heldRequestEnter controller pc) s fun t =>
      t.chan controller.val pc.val = { s.chan controller.val pc.val with queue := (s.chan controller.val pc.val).queue ++ [r], held := rs })

/-- ECS_COUNT_READ adds the count read to ECS_CNT. STACK_TEMP_READ keeps the temperature, and where it has reached HBM_REFRESH_2X_TEMP at a stack refreshed at the normal rate, with no change asked for, asks the arbiter for the higher refresh rate. SCRUB_START with GO, no scrub BUSY, a non-empty range and a free entry makes the die's scrub BUSY at the range's first sector. SCRUB_SECTOR_READ of a running scrub reads the next sector of its range: clean and with no request queued for it, it counts one more read and moves on by 32 bytes. SCRUB_COMPLETE of a running scrub with nothing left to read writes its record and, once that is accepted, ends it: BUSY reads 0 and its token, where it signals one, is set; while the record's write waits the scrub stays BUSY. (spec/08_hbm_and_protection.md R372, R386, R387, R390, R393, R397, R399) -/
def Obligations.TemperatureEcsAndScrubs : Prop :=
  (∀ (s : State) (controller : Fin 8) (count : BitVec 64),
    Gives (.ecsCountRead controller count) s fun t =>
      t.rd .hbmcEcsCnt controller.val 0 = s.rd .hbmcEcsCnt controller.val 0 + count) ∧
  (∀ (s : State) (controller : Fin 8) (temp : BitVec 8),
    let die := controller.val / 4
    (s.hbm.fast.contains controller.val = false ∧ s.dnat dkHbmRefresh2xTemp ≤ temp.toNat ∧ s.actPending die 5 (controller.val % 4) = false) →
    Gives (.stackTempRead controller temp) s fun t =>
      (lookupD 0 controller.val t.hbm.temp = temp.toNat) ∧
      ((((t.arb die).acts ++ (t.arb die).waitingOther).any fun a : MaintAct => a.kind == 5 && a.scope == controller.val % 4 && a.fast && !a.running) = true)) ∧
  (∀ (s : State) (die : Fin 2) (value : Word) (k : Nat),
    let lo := min (s.hbmSpan die.val).2 (max (s.hbmSpan die.val).1 (s.fld hbmcScrubLoAddr die.val * 32))
    let hi := min (s.hbmSpan die.val).2 (max (s.hbmSpan die.val).1 (s.fld hbmcScrubHiAddr die.val * 32))
    (s.fld hbmcScrubCmdBusy die.val = 0 ∧ bitOf value 63 = true ∧ lo < hi ∧ s.freeEntry die.val = some k ∧ k < 32) →
    Gives (.scrubStart die value) s fun t =>
      (t.fld hbmcScrubCmdBusy die.val = 1 ∧ t.fld hbmcScrubCmdActivity die.val = actId 1 k) ∧
      (((t.arb die.val).scrub.map fun x : Scrub => ((x.entry, x.pos, x.hi), (x.mode, x.read, x.tokenEn), x.token)) = some ((k, lo, hi), (bitOf value 0, 0, bitOf value 2), bitsOf value 4 12)) ∧
      (((t.arb die.val).acts.any fun a : MaintAct => a.entry == k && a.kind == 1) = true)) ∧
  (∀ (s : State) (die : Fin 2) (x : Scrub),
    ((s.arb die.val).scrub = some x ∧ ((s.arb die.val).acts.any fun a : MaintAct => a.entry == x.entry && a.running) = true) →
    (x.stepped = [] ∧ x.pos < x.hi ∧ s.scrubState die.val x.pos = 0 ∧ s.deltaAt x.pos = 0#16 ∧ s.hbm.sevBad.contains (x.pos / 32) = false) →
    (s.noneQueued x.pos 32 = true) →
    Gives (.scrubSectorRead die 0#256 0#16 false) s fun t =>
      ((t.arb die.val).scrub = some { x with pos := x.pos + 32, read := x.read + 1, beamEnd := s.beamNow }) ∧
      (t.mem = s.mem)) ∧
  (∀ (s : State) (die : Fin 2) (x : Scrub),
    ((s.arb die.val).scrub = some x ∧ ((s.arb die.val).acts.any fun a : MaintAct => a.entry == x.entry && a.running) = true) →
    (x.hi ≤ x.pos ∧ x.stepped = [] ∧ x.deferred = [] ∧ x.recorded = false) →
    ((s.devWriteWords { unit := .maint die.val } x.recAddr x.record).writeWaits x.recAddr 320 = false) →
    Gives (.scrubComplete die) s fun t =>
      (t.fld hbmcScrubCmdBusy die.val = 0 ∧ (t.arb die.val).scrub = none) ∧
      (x.tokenEn = true → t.tokenSet x.token = true)) ∧
  (∀ (s : State) (die : Fin 2) (x : Scrub),
    ((s.arb die.val).scrub = some x ∧ ((s.arb die.val).acts.any fun a : MaintAct => a.entry == x.entry && a.running) = true) →
    (x.hi ≤ x.pos ∧ x.stepped = [] ∧ x.deferred = [] ∧ x.recorded = false) →
    ((s.devWriteWords { unit := .maint die.val } x.recAddr x.record).writeWaits x.recAddr 320 = true) →
    Gives (.scrubComplete die) s fun t =>
      (t.arb die.val).scrub = some { x with recorded := true } ∧ t.fld hbmcScrubCmdBusy die.val = s.fld hbmcScrubCmdBusy die.val)

/-- CALIBRATION_REQUEST, SELF_TEST_REQUEST and REFRESH_RATE_REQUEST with GO and no request PENDING enter the table of the die where an entry is free, ACTIVITY naming it. MAINT_REQUEST_ENTRY: the request that waits in the register enters once an entry is free, PENDING reads 0. MAINT_ADMIT: with no daymark, a self-test alone in the table runs once its cluster is free. CAL_GROUP_OUT: in a quiet window with CAL_GROUP_TIME left, an admissible unforced calibration takes its group out of service and runs. CAL_GROUP_RETURN: the running calibration of the group ends and the group is in service. CAL_PERIOD_EXPIRY asks for a calibration of the group. SELF_TEST_DONE ends the cluster's self-test, every byte of the cluster's memory reading 0x00. (spec/08_hbm_and_protection.md R387, R400, R402, R404, R405, R407, R408) -/
def Obligations.MaintenanceRequestsAndCalibration : Prop :=
  (∀ (s : State) (die : Fin 2) (value : Word) (k : Nat),
    let a : MaintAct := { entry := k, kind := 2, scope := bitsOf value 3 4, groups := [bitsOf value 3 4], force := bitOf value 7 }
    (s.fld hbmcMaintReqPending die.val = 0 ∧ bitOf value 63 = true ∧ s.freeEntry die.val = some k ∧ k < 32) →
    Gives (.calibrationRequest die value) s fun t =>
      (t.arb die.val).acts = (s.arb die.val).acts ++ [a] ∧ t.fld hbmcMaintReqActivity die.val = actId 2 k) ∧
  (∀ (s : State) (die : Fin 2) (value : Word) (k : Nat),
    let a : MaintAct := { entry := k, kind := 3, scope := min 11 (bitsOf value 3 4) }
    (s.fld hbmcMaintReqPending die.val = 0 ∧ bitOf value 63 = true ∧ s.freeEntry die.val = some k ∧ k < 32) →
    Gives (.selfTestRequest die value) s fun t =>
      (t.arb die.val).acts = (s.arb die.val).acts ++ [a] ∧ t.fld hbmcMaintReqActivity die.val = actId 3 k) ∧
  (∀ (s : State) (die : Fin 2) (value : Word) (k : Nat),
    let a : MaintAct := { entry := k, kind := 5, scope := bitsOf value 3 2, fast := bitOf value 8 }
    (s.fld hbmcMaintReqPending die.val = 0 ∧ bitOf value 63 = true ∧ s.freeEntry die.val = some k ∧ k < 32) →
    Gives (.refreshRateRequest die value) s fun t =>
      (t.arb die.val).acts = (s.arb die.val).acts ++ [a] ∧ t.fld hbmcMaintReqActivity die.val = actId 5 k) ∧
  (∀ (s : State) (die : Fin 2) (a : MaintAct) (k : Nat),
    ((s.arb die.val).waiting = some a ∧ s.freeEntry die.val = some k ∧ k < 32 ∧ a.kind < 8) →
    Gives (.maintRequestEntry die) s fun t =>
      ((t.arb die.val).acts = (s.arb die.val).acts ++ ([{ a with entry := k }] : List MaintAct) ∧ (t.arb die.val).waiting = none) ∧
      (t.fld hbmcMaintReqPending die.val = 0 ∧ t.fld hbmcMaintReqActivity die.val = actId a.kind k)) ∧
  (∀ (s : State) (die : Fin 2) (freed : BitVec 12) (a : MaintAct),
    (s.daymarks = [] ∧ (s.arb die.val).acts = [a] ∧ a.kind = 3 ∧ a.running = false ∧ freed.getLsbD a.scope = true) →
    Gives (.maintAdmit die freed) s fun t =>
      (t.arb die.val).acts = ([{ a with running := true }] : List MaintAct)) ∧
  (∀ (s : State) (die : Fin 2) (group : Fin 16) (a : MaintAct),
    (((s.arb die.val).acts.find? fun x : MaintAct => x.kind == 2 && x.scope == group.val && !x.running) = some a) →
    (a.force = false ∧ admissible (s.arb die.val).acts a = true ∧ s.beam.quiet.isSome = true ∧ s.dnat dkCalGroupTime ≤ s.quietLeft) →
    Gives (.calGroupOut die group) s fun t =>
      (t.groupOut die.val group.val = true) ∧
      ((t.arb die.val).acts = (s.arb die.val).acts.map fun x : MaintAct => if x.entry == a.entry then { x with running := true } else x)) ∧
  (∀ (s : State) (die : Fin 2) (group : Fin 16) (a : MaintAct),
    (((s.arb die.val).acts.find? fun x : MaintAct => x.kind == 2 && (x.scope == group.val || x.scope == 16) && x.running) = some a) →
    (a.scope = group.val) →
    Gives (.calGroupReturn die group) s fun t =>
      (t.hbm.outGroups = setErase (die.val * 16 + group.val) s.hbm.outGroups) ∧
      ((t.arb die.val).acts = (s.arb die.val).acts.filter fun x : MaintAct => x.entry != a.entry)) ∧
  (∀ (s : State) (die : Fin 2) (group : Fin 16) (k : Nat),
    let a : MaintAct := { entry := k, kind := 2, scope := group.val, groups := [group.val] }
    (s.actPending die.val 2 group.val = false ∧ s.freeEntry die.val = some k ∧ k < 32) →
    Gives (.calPeriodExpiry die group) s fun t =>
      (t.arb die.val).acts = (s.arb die.val).acts ++ [a]) ∧
  (∀ (s : State) (die : Fin 2) (cluster : Fin 12) (fail : Bool) (a : MaintAct),
    (((s.arb die.val).acts.find? fun x : MaintAct => x.kind == 3 && x.scope == cluster.val && x.running) = some a) →
    Gives (.selfTestDone die cluster fail) s fun t =>
      ((t.arb die.val).acts = (s.arb die.val).acts.filter fun x : MaintAct => x.entry != a.entry) ∧
      (∀ off : Nat, off < 0xC00000 → t.rdByte (clusterBase (die.val * 12 + cluster.val) + off) = 0#8))

/-- FRAME_REQUEST (of the tier that CKPT_TIER places a checkpoint in): with no request waiting in its queue, an owner in use below its ceiling takes the lowest free frame, which becomes resident with the stamp of now; behind a request of its queue that waits it waits. FRAME_REQUEST_RETRY: the die's waiting request is served the same way, and a POOL_MOVE_CMD move of the other die waits on. POOL_WAIT_TIMEOUT: the request has lasted POOL_WAIT_LIMIT; its chain ends with TIER_FAIL, and where only a POOL_MOVE_CMD move waits for that page, its RESULT reads 1 and BUSY 0. (spec/09_capacity_pool.md R415, R424, R425, R426, R427, R429, R435) -/
def Obligations.FrameRequestsAndWaits : Prop :=
  (∀ (s : State) (owner : BitVec 6) (tier : Fin 3) (die : Fin 2) (vpage : BitVec 32) (chain : Option ChainRef) (n : Nat),
    let r := (s.placeReq { owner := owner.toNat, tier := tier.val, die := die.val, vpage := vpage.toNat, chain := chain }).2
    ((s.pool.waiting.any fun q : FrameReq => q.beside r) = false) →
    (s.dget (dkOwnerMode owner.toNat) ≠ 0 ∧ s.held owner.toNat r.tier die.val < s.ceilOf owner.toNat r.tier) →
    (s.lowestFree (s.tierRange r.tier die.val).1 (s.tierRange r.tier die.val).2 = some n) →
    Gives (.frameRequest owner tier die vpage chain) s fun t =>
      ((t.frame n).st = FrameState.resident ∧ (t.frame n).owner = owner.toNat ∧ (t.frame n).vpage = vpage.toNat ∧ (t.frame n).homeDie = die.val ∧ (t.frame n).lastUse = s.stampNow) ∧
      (t.pool.waiting = s.pool.waiting)) ∧
  (∀ (s : State) (owner : BitVec 6) (tier : Fin 3) (die : Fin 2) (vpage : BitVec 32) (chain : Option ChainRef),
    let r := (s.placeReq { owner := owner.toNat, tier := tier.val, die := die.val, vpage := vpage.toNat, chain := chain }).2
    ((s.pool.waiting.any fun q : FrameReq => q.beside r) = true) →
    Gives (.frameRequest owner tier die vpage chain) s fun t =>
      t.pool.waiting = s.pool.waiting ++ [r] ∧ t.pool.frames = s.pool.frames) ∧
  (∀ (s : State) (die : Fin 2) (r : FrameReq) (n : Nat),
    (s.pool.waiting = [r] ∧ (r.tier = 2 ∨ r.die = die.val) ∧ (s.pool.cmdWait.all fun w : Nat × Nat × Nat × Nat => w.1 != die.val) = true) →
    (s.dget (dkOwnerMode r.owner) ≠ 0 ∧ s.held r.owner r.tier r.die < s.ceilOf r.owner r.tier) →
    (s.lowestFree (s.tierRange r.tier r.die).1 (s.tierRange r.tier r.die).2 = some n) →
    Gives (.frameRequestRetry die) s fun t =>
      ((t.frame n).st = FrameState.resident ∧ (t.frame n).owner = r.owner ∧ (t.frame n).vpage = r.vpage ∧ (t.frame n).homeDie = r.die ∧ (t.frame n).lastUse = s.stampNow) ∧
      (t.pool.waiting = [] ∧ t.pool.cmdWait = s.pool.cmdWait)) ∧
  (∀ (s : State) (die : Fin 2) (owner : BitVec 6) (vpage : BitVec 32) (ms : BitVec 32) (ref : ChainRef) (q : FrameReq) (c : Chain),
    (s.dnat dkPoolWaitLimit ≤ ms.toNat ∧ s.pool.waiting = [q] ∧ s.findChain ref = some c ∧ c.aborting = none) →
    (q.die = die.val ∧ q.owner = owner.toNat ∧ q.vpage = vpage.toNat ∧ q.chain = some ref) →
    ((s.chains.filter fun d : Chain => d.launch == c.launch) = [c] ∧ s.fld cluChainLogValid c.cluster = 0) →
    Gives (.poolWaitTimeout die owner vpage ms) s fun t =>
      (t.rd .cluChainEndCnt c.cluster 0 = s.rd .cluChainEndCnt c.cluster 0 + 1#64 ∧ t.fld cluChainLogStatus c.cluster = stTierFail) ∧
      (t.pool.waiting = [])) ∧
  (∀ (s : State) (die : Fin 2) (owner : BitVec 6) (vpage : BitVec 32) (ms : BitVec 32),
    (s.dnat dkPoolWaitLimit ≤ ms.toNat ∧ s.pool.waiting = []) →
    ((s.pool.cmdWait.any fun w : Nat × Nat × Nat × Nat => w.1 == die.val && w.2.2.1 == owner.toNat && w.2.2.2 == vpage.toNat) = true) →
    Gives (.poolWaitTimeout die owner vpage ms) s fun t =>
      t.fld poolMoveStatusBusy die.val = 0 ∧ t.fld poolMoveStatusResult die.val = 1)

/-- MOVE with GO while BUSY is 0: a resident page of the owner, neither pinned nor in a window nor protected nor quarantined, of a 64 KiB frame with no lower copy that lies in another tier, where the owner may have a free frame of the destination tier, begins its move and BUSY reads 1. PIN: a frame of the owner is pinned within the tier's floor and RESULT reads 0 (here one that nothing moves), and beyond it is refused with RESULT 1 and PIN_REFUSED_CNT grows by 1. UNPIN: the frame is pinned no more. MOVE_SWITCH: where no channel group of the move is out of service, memory is as the copy of the frame and the switch of the page's entries leave it, the destination holds the page as resident, the source frame is free, and the RESULT of the POOL_MOVE_CMD that asked for it reads 0. (For moves that nothing else waits behind.) (spec/09_capacity_pool.md R415, R428, R430, R433, R434, R435) -/
def Obligations.MovesAndPins : Prop :=
  (∀ (s : State) (die : Fin 2) (value : Word) (pa : Nat) (rd : Bool) (wr : Bool) (o : Nat) (big : Bool) (k : Nat),
    let owner := bitsOf value 4 6
    let tier := min 2 (bitsOf value 2 2)
    let page := s.fld poolMoveAddrVpage die.val
    let n := pa / 65536
    (moveOp value = 0 ∧ bitOf value 63 = true ∧ s.fld poolMoveStatusBusy die.val = 0) →
    (s.xlat die.val owner (page * 65536) = .page pa rd wr o big ∧ (s.frame n).st = .resident ∧ (s.frame n).owner = owner) →
    ((s.frame n).pinned = false ∧ (s.frame n).window = false ∧ (s.frame n).quarantined = false ∧ big = false ∧ (s.frame n).big = false) →
    ((s.frame n).prot = false ∧ (s.frame n).lower = none ∧ (s.frame n).moving = false ∧ s.frameTier n ≠ tier) →
    (s.dget (dkOwnerMode owner) ≠ 0 ∧ s.held owner tier die.val < s.ceilOf owner tier) →
    (s.lowestFree (s.tierRange tier die.val).1 (s.tierRange tier die.val).2 = some k) →
    Gives (.move die value) s fun t =>
      (t.pool.moves = s.pool.moves ++ ([{ src := n, dst := k, owner := owner, writeBack := false, evict := false, cmdDie := some die.val }] : List Move)) ∧
      (t.frame k = { s.frame k with st := .resident, owner := owner, homeDie := die.val, moving := true, vpage := page } ∧ t.frame n = { s.frame n with moving := true }) ∧
      (t.fld poolMoveStatusBusy die.val = 1)) ∧
  (∀ (s : State) (die : Fin 2) (value : Word) (pa : Nat) (rd : Bool) (wr : Bool) (o : Nat) (big : Bool),
    let owner := bitsOf value 4 6
    let n := pa / 65536
    (moveOp value = 1 ∧ bitOf value 63 = true ∧ s.fld poolMoveStatusBusy die.val = 0 ∧ s.pool.waiting = []) →
    (s.xlat die.val owner (s.fld poolMoveAddrVpage die.val * 65536) = .page pa rd wr o big ∧ (s.frame n).st ≠ .free ∧ (s.frame n).owner = owner) →
    ((s.pool.moves.find? fun m : Move => m.src == n) = none) →
    ((s.frame n).pinned = true ∨ s.pinnedIn owner (s.frameTier n) (s.frameDie n) + 1 ≤ s.floorOf owner (s.frameTier n)) →
    Gives (.pin die value) s fun t =>
      (t.frame n = { s.frame n with pinned := true }) ∧
      (t.fld poolMoveStatusBusy die.val = 0 ∧ t.fld poolMoveStatusResult die.val = 0)) ∧
  (∀ (s : State) (die : Fin 2) (value : Word) (pa : Nat) (rd : Bool) (wr : Bool) (o : Nat) (big : Bool),
    let owner := bitsOf value 4 6
    let n := pa / 65536
    (moveOp value = 1 ∧ bitOf value 63 = true ∧ s.fld poolMoveStatusBusy die.val = 0) →
    (s.xlat die.val owner (s.fld poolMoveAddrVpage die.val * 65536) = .page pa rd wr o big ∧ (s.frame n).st ≠ .free ∧ (s.frame n).owner = owner) →
    ((s.frame n).pinned = false ∧ s.floorOf owner (s.frameTier n) < s.pinnedIn owner (s.frameTier n) (s.frameDie n) + 1) →
    Gives (.pin die value) s fun t =>
      (t.frame n = s.frame n ∧ t.rd .poolPinRefusedCnt die.val 0 = s.rd .poolPinRefusedCnt die.val 0 + 1#64) ∧
      (t.fld poolMoveStatusBusy die.val = 0 ∧ t.fld poolMoveStatusResult die.val = 1)) ∧
  (∀ (s : State) (die : Fin 2) (value : Word) (pa : Nat) (rd : Bool) (wr : Bool) (o : Nat) (big : Bool),
    let owner := bitsOf value 4 6
    let n := pa / 65536
    (moveOp value = 2 ∧ bitOf value 63 = true ∧ s.fld poolMoveStatusBusy die.val = 0 ∧ s.pool.waiting = []) →
    (s.xlat die.val owner (s.fld poolMoveAddrVpage die.val * 65536) = .page pa rd wr o big ∧ (s.frame n).st ≠ .free ∧ (s.frame n).owner = owner) →
    (big = false ∧ (s.frame n).big = false) →
    Gives (.unpin die value) s fun t =>
      (t.frame n = { s.frame n with pinned := false }) ∧
      (t.fld poolMoveStatusBusy die.val = 0 ∧ t.fld poolMoveStatusResult die.val = 0)) ∧
  (∀ (s : State) (frame : BitVec 32) (m : Move) (d : Fin 2),
    let f := s.frame m.src
    let home := if s.frameTier m.src = 1 then s.frameDie m.src else (s.frame m.dst).homeDie
    let u := { s with pool := { s.pool with moves := [] } }
    (s.pool.moves = [m] ∧ m.src = frame.toNat ∧ m.src ≠ m.dst ∧ m.writeBack = false ∧ m.fill = false ∧ m.cmdDie = some d.val ∧ f.lower = none) →
    (s.groupsOut m.src = false ∧ s.groupsOut m.dst = false) →
    (s.pool.waiting = [] ∧ s.pool.cmdWait = [] ∧ s.pool.plans = [] ∧ s.pool.retiring = [] ∧ s.noneTodo = true) →
    Gives (.moveSwitch frame) s fun t =>
      (t.mem = ((u.copyFrame m.src m.dst).switchPage f.owner f.vpage m.src m.dst).mem) ∧
      (t.frame m.dst = { f with st := .resident, moving := false, lower := none, homeDie := home } ∧ t.frame m.src = ({} : FrameRec) ∧ t.pool.moves = []) ∧
      (t.fld poolMoveStatusBusy d.val = 0 ∧ t.fld poolMoveStatusResult d.val = 0))

/-- Where memory is in canonical form and no request waits at a controller for either frame, the copy of a frame to another leaves each byte of the destination as a read of the source's byte delivers it (a correctable sector corrected), and every byte outside the destination frame as it was. (spec/09_capacity_pool.md R430, R434) -/
def Obligations.FrameCopyKeepsEveryByte : Prop :=
  (∀ (s : State) (src : Nat) (dst : Nat) (off : Nat),
    (Memory.wf s.mem = true ∧ canonical 0#16 s.hbmDelta = true ∧ src ≠ dst ∧ off < 65536) →
    (s.noneQueued (src * 65536) 65536 = true ∧ s.noneQueued (dst * 65536) 65536 = true) →
      ((s.copyFrame src dst).memByte (dst * 65536 + off) = s.memByte (src * 65536 + off)) ∧
      (∀ a : Nat, a / 65536 ≠ dst → (s.copyFrame src dst).rdByte a = s.rdByte a))

/-- WINDOW_LIFT: the first entry being fetched, its landing area whole, its slot released, its pages present and its gathers matching, is fetched; where a gather does not match, GEN_MISMATCH_CNT grows by 1 and the entry stays. WINDOW_LIFT_COMPLETE: a fetched entry with a whole slot and no landing frame quarantined is lifted. (spec/09_capacity_pool.md R436, R437, R438, R441, spec/11_collectives_and_mapping.md R592) -/
def Obligations.StreamPlanEntriesAreLifted : Prop :=
  (∀ (s : State) (die : Fin 2) (launch : BitVec 12) (entry : BitVec 24) (gathered : List Gathered) (p : StreamPlan) (pages : List (Nat × Nat)),
    let e := s.planEntry p entry.toNat
    ((s.pool.plans.find? fun q : StreamPlan => q.die == die.val && q.launch == launch.toNat) = some p) →
    ((p.fetching.all fun i : Nat => decide (entry.toNat ≤ i)) = true ∧ p.fetching.contains entry.toNat = true ∧ p.fetched = []) →
    (p.landing.length = p.size ∧ p.slotFree entry.toNat = true ∧ s.entryPages p (s.entryRuns p (s.planProg p) e.1 0 e.2.2) = some pages) →
    ((e.2.2.all fun x : EntryTensor => !x.gather || (gathered.find? fun g : Gathered => g.place.val == x.place).all fun g : Gathered => s.gatherMatches p e.2.1 (fun k => s.tensorWord p.die p.owner (s.planProg p) x.index k) g.stamps) = true) →
    Gives (.windowLift die launch entry gathered) s fun t =>
      t.pool.plans = s.pool.plans.map fun q : StreamPlan => if q.die == die.val && q.launch == launch.toNat then { q with fetching := setErase entry.toNat q.fetching, fetched := setInsert entry.toNat q.fetched } else q) ∧
  (∀ (s : State) (die : Fin 2) (launch : BitVec 12) (entry : BitVec 24) (gathered : List Gathered) (p : StreamPlan) (pages : List (Nat × Nat)) (x : EntryTensor) (g : Gathered),
    let e := s.planEntry p entry.toNat
    ((s.pool.plans.find? fun q : StreamPlan => q.die == die.val && q.launch == launch.toNat) = some p) →
    ((p.fetching.all fun i : Nat => decide (entry.toNat ≤ i)) = true ∧ p.fetching.contains entry.toNat = true ∧ p.fetched = []) →
    (p.landing.length = p.size ∧ p.slotFree entry.toNat = true ∧ s.entryPages p (s.entryRuns p (s.planProg p) e.1 0 e.2.2) = some pages) →
    (x ∈ e.2.2 ∧ x.gather = true ∧ (gathered.find? fun g : Gathered => g.place.val == x.place) = some g) →
    (s.gatherMatches p e.2.1 (fun k => s.tensorWord p.die p.owner (s.planProg p) x.index k) g.stamps = false) →
    Gives (.windowLift die launch entry gathered) s fun t =>
      t.rd .collGenMismatchCnt die.val 0 = s.rd .collGenMismatchCnt die.val 0 + 1#64 ∧ t.pool.plans = s.pool.plans) ∧
  (∀ (s : State) (die : Fin 2) (launch : BitVec 12) (entry : BitVec 24) (slot : BitVec 4) (p : StreamPlan),
    ((s.pool.plans.find? fun q : StreamPlan => q.die == die.val && q.launch == launch.toNat) = some p) →
    (slot.toNat = entry.toNat % p.w ∧ p.fetched.contains entry.toNat = true ∧ (p.slots.getD (entry.toNat % p.w) []).length = p.size) →
    ((p.landing.all fun n : Nat => !(s.frame n).quarantined) = true) →
    Gives (.windowLiftComplete die launch entry slot) s fun t =>
      t.pool.plans = s.pool.plans.map fun q : StreamPlan => if q.die == die.val && q.launch == launch.toNat then { q with fetched := setErase entry.toNat q.fetched, lifted := setInsert entry.toNat q.lifted } else q)

/-- SECTOR_REBUILD: a failing sector of a rebuildable frame whose counterpart is here, of the same stamp and sound, is written whole from it and REBUILD_CNT grows by 1; of a frame that is not rebuildable, its frame is quarantined and QUARANTINE_CNT grows by 1. REBUILD_TIMEOUT: a rebuild that has failed or run out of time is counted and its frame quarantined. SHELF_UNREACHABLE: every frame in use in the range is quarantined. SWAP_INVOCATION: the oldest invocation of a die where no swap runs: the die's set gives way and the loading of the owner's set begins; GALLERY_SET_LOAD_DONE: it is in place. (Rebuilds: with no stage's reads waiting, and none queued for the counterpart.) (spec/09_capacity_pool.md R446, R447, R448, R449, R450, R451, R455, R456) -/
def Obligations.RebuildsQuarantinesAndGallerySets : Prop :=
  (∀ (s : State) (addr : BitVec 48) (pa : Nat) (rd : Bool) (wr : Bool) (o : Nat) (big : Bool),
    let sector := addr.toNat / 32 * 32
    let f := s.frame (sector / 65536)
    let die := s.frameDie (sector / 65536)
    (f.st ≠ .free ∧ f.quarantined = false ∧ s.sectorSound sector = false ∧ f.rebuild = true ∧ s.pool.rebuilds = [] ∧ s.noneTodo = true) →
    (s.xlat die f.owner (f.counterpart sector) = .page pa rd wr o big ∧ (s.frame (pa / 65536)).stamp = f.stamp ∧ s.sectorSound pa = true ∧ s.noneQueued (pa / 32 * 32) 32 = true) →
    Gives (.sectorRebuild addr) s fun t =>
      (t.memBytes sector 32 = s.memBytes (pa / 32 * 32) 32) ∧
      (t.rd .poolRebuildCnt die 0 = s.rd .poolRebuildCnt die 0 + 1#64)) ∧
  (∀ (s : State) (addr : BitVec 48),
    let sector := addr.toNat / 32 * 32
    let f := s.frame (sector / 65536)
    let die := s.frameDie (sector / 65536)
    (f.st ≠ .free ∧ f.quarantined = false ∧ s.sectorSound sector = false ∧ f.rebuild = false ∧ s.pool.rebuilds = []) →
    Gives (.sectorRebuild addr) s fun t =>
      (t.frame (sector / 65536)).quarantined = true ∧ t.rd .poolQuarantineCnt die 0 = s.rd .poolQuarantineCnt die 0 + 1#64) ∧
  (∀ (s : State) (addr : BitVec 48) (ms : BitVec 32) (failed : Bool),
    let sector := addr.toNat / 32 * 32
    let n := sector / 65536
    ((s.pool.rebuilds.any fun r : Rebuild => r.sector == sector) = true ∧ s.noneTodo = true) →
    (failed = true ∨ s.dnat dkRebuildTimeout ≤ ms.toNat) →
    Gives (.rebuildTimeout addr ms failed) s fun t =>
      (t.rd .poolRebuildFailCnt (s.frameDie n) 0 = s.rd .poolRebuildFailCnt (s.frameDie n) 0 + 1#64) ∧
      ((t.frame n).quarantined = true ∧ (t.pool.rebuilds.any fun r : Rebuild => r.sector == sector) = false)) ∧
  (∀ (s : State) (first : BitVec 32) (count : BitVec 32),
    Gives (.shelfUnreachable first count) s fun t =>
      (s.pool.frames.all fun p : Nat × FrameRec => !(s.frameTier p.1 == 2 && decide (first.toNat ≤ p.1) && decide (p.1 < first.toNat + count.toNat) && p.2.st != FrameState.free) || (t.frame p.1).quarantined) = true) ∧
  (∀ (s : State) (die : Fin 2) (owner : BitVec 6),
    ((s.pool.swapping.any fun p : Nat × Nat => p.1 == die.val) = false ∧ (s.pool.invoked.find? fun p : Nat × Nat => p.1 == die.val) = some (die.val, owner.toNat)) →
    Gives (.swapInvocation die owner) s fun t =>
      (t.pool.swapping = s.pool.swapping ++ [(die.val, owner.toNat)]) ∧
      (t.pool.setOwner = (s.pool.setOwner.filter fun p : Nat × Nat => p.1 != die.val) ∧ t.pool.invoked = s.pool.invoked.filter fun p : Nat × Nat => p != (die.val, owner.toNat))) ∧
  (∀ (s : State) (die : Fin 2) (owner : BitVec 6) (loaded : List FramePair),
    (s.pool.swapping.contains (die.val, owner.toNat) = true) →
    Gives (.gallerySetLoadDone die owner loaded) s fun t =>
      (t.pool.setOwner = s.pool.setOwner ++ [(die.val, owner.toNat)]) ∧
      (t.pool.swapping = s.pool.swapping.filter fun p : Nat × Nat => p != (die.val, owner.toNat)))

/-- FLIT_TRANSMIT: a waiting control flit goes first. An UP link with neither a control flit nor one to resend, below 1,024 unacknowledged flits, with no message still to be pulled, sends a data flit on a VC that has bytes and a credit (VC 1 first, then the lowest): the next SEQ, one credit less, a copy in the retry buffer, TX_FLIT_CNT grows by 1. A flit that is to be sent again goes before, as it was; TX_FLIT_CNT and RESENT_CNT grow by 1, and sent again LINK_RETRY_LIMIT times it sends the link into RECOVERY. DATA_FLIT_RECEIVE: a whole data flit with the expected SEQ is accepted, acknowledged and its credit owed, RX_FLIT_CNT grows by 1; a damaged one is counted in CRC_FAIL_CNT and a NAK for the expected SEQ is queued once. NULL_FLIT: its ACK and credits are taken. (spec/10_links_and_windows.md R467, R469, R470, R471, R473, R475, R476) -/
def Obligations.FlitsGoOutAndArrive : Prop :=
  (∀ (s : State) (link : Fin 16) (p : List Byte) (ps : List (List Byte)),
    (s.transmits link.val = true ∧ (s.link link.val).control = p :: ps) →
    Gives (.flitTransmit link) s fun t =>
      t.link link.val = ({ (s.link link.val).emit 2 0 0 false p with control := ps } : Link)) ∧
  (∀ (s : State) (link : Fin 16) (v : Nat),
    let x := s.link link.val
    (s.linkState link.val = 5 ∧ x.control = [] ∧ (x.retry.any fun r : RetryFlit => r.again) = false ∧ s.sentMsgs = []) →
    (x.retry.length < 1024 ∧ x.nextVc = some v) →
    Gives (.flitTransmit link) s fun t =>
      ((t.link link.val).retry = x.retry ++ ([{ seq := x.nextSeq, vc := v, payload := (fillFlit 244 (x.tx v)).1, headers := (fillFlit 244 (x.tx v)).2.1 }] : List RetryFlit)) ∧
      ((t.link link.val).wire = (x.emit 1 x.nextSeq v false (fillFlit 244 (x.tx v)).1).wire ∧ (t.link link.val).nextSeq = (x.nextSeq + 1) % 4096) ∧
      ((t.link link.val).credits = x.credits.set v (x.credits.getD v 0 - 1) ∧ t.rd .fabTxFlitCnt link.val 0 = s.rd .fabTxFlitCnt link.val 0 + 1#64)) ∧
  (∀ (s : State) (link : Fin 16) (r : RetryFlit),
    let x := s.link link.val
    (s.linkState link.val = 5 ∧ x.control = [] ∧ (x.retry.find? fun q : RetryFlit => q.again) = some r) →
    Gives (.flitTransmit link) s fun t =>
      (t.link link.val = ({ x.emit 1 r.seq r.vc true r.payload with retry := clearAgain x.retry } : Link)) ∧
      (t.rd .fabTxFlitCnt link.val 0 = s.rd .fabTxFlitCnt link.val 0 + 1#64 ∧ t.rd .fabResentCnt link.val 0 = s.rd .fabResentCnt link.val 0 + 1#64) ∧
      (s.dnat dkLinkRetryLimit ≤ r.resends + 1 → t.linkState link.val = 6 ∧ t.rd .fabRecoveryCnt link.val 0 = s.rd .fabRecoveryCnt link.val 0 + 1#64)) ∧
  (∀ (s : State) (link : Fin 16) (flit : FlitIn) (again : Bool),
    let x := s.link link.val
    let head := flitHead flit.bits
    let vc := bitsOf head 27 2
    (s.linkState link.val = 5 ∧ flitGood flit = true ∧ bitsOf head 0 2 = 1 ∧ bitsOf head 2 12 = x.expSeq) →
    Gives (.dataFlitReceive link flit again) s fun t =>
      ((t.link link.val).expSeq = (x.expSeq + 1) % 4096 ∧ (t.link link.val).ack = some x.expSeq ∧ (t.link link.val).nakSent = false) ∧
      ((t.link link.val).owed = x.owed.set vc (x.owed.getD vc 0 + 1)) ∧
      (t.rd .fabRxFlitCnt link.val 0 = s.rd .fabRxFlitCnt link.val 0 + 1#64)) ∧
  (∀ (s : State) (link : Fin 16) (flit : FlitIn) (again : Bool),
    let x := s.link link.val
    (s.linkState link.val = 5 ∧ flitGood flit = false ∧ x.nakSent = false) →
    Gives (.dataFlitReceive link flit again) s fun t =>
      ((t.link link.val).control = x.control ++ [nakPayload x.expSeq] ∧ (t.link link.val).nakSent = true ∧ (t.link link.val).expSeq = x.expSeq) ∧
      (t.rd .fabCrcFailCnt link.val 0 = s.rd .fabCrcFailCnt link.val 0 + 1#64 ∧ t.rd .fabNakCnt link.val 0 = s.rd .fabNakCnt link.val 0 + 1#64)) ∧
  (∀ (s : State) (link : Fin 16) (flit : FlitIn),
    (s.transmits link.val = true ∧ flitGood flit = true ∧ bitsOf (flitHead flit.bits) 0 2 = 0) →
    Gives (.nullFlit link flit) s fun t =>
      t.link link.val = (s.link link.val).takeReturns (flitHead flit.bits))

/-- NAK: the retry buffer from the named SEQ on is to be sent again. RETRY_TIMER_EXPIRY: once the oldest unacknowledged flit has waited twice the round trip and 1 µs, all of it is. RECOVERY_DONE: an enabled link is UP again and sends its whole retry buffer again. LINK_RECOVER_TIMEOUT: after LINK_RECOVER_LIMIT in RECOVERY the link is LOST and its retry buffer discarded (of a link with no message queued and none begun in the buffer). (spec/10_links_and_windows.md R476, R477, R478, R479, R480) -/
def Obligations.FlitsAreSentAgain : Prop :=
  (∀ (s : State) (link : Fin 16) (flit : FlitIn),
    let q := ((s.link link.val).takeReturns (flitHead flit.bits)).retry
    let seq := natOfBytes (((flitPayload flit.bits).drop 1).take 2) % 4096
    (s.linkState link.val = 5 ∧ flitGood flit = true ∧ bitsOf (flitHead flit.bits) 0 2 = 2 ∧ (flitPayload flit.bits).headD 0#8 = 1#8) →
    ((q.any fun r : RetryFlit => r.seq == seq) = true) →
    Gives (.nak link flit) s fun t =>
      (t.link link.val).retry = resendFrom seq q ∧ t.linkState link.val = 5) ∧
  (∀ (s : State) (link : Fin 16) (waited : BitVec 32) (r : RetryFlit) (rs : List RetryFlit),
    (s.linkState link.val = 5 ∧ (s.link link.val).retry = r :: rs ∧ 2 * s.fld fabDelayRtt link.val + 10000 ≤ waited.toNat) →
    Gives (.retryTimerExpiry link waited) s fun t =>
      ((t.link link.val).retry = (r :: rs).map fun r : RetryFlit => { r with again := true }) ∧
      (t.linkState link.val = 5)) ∧
  (∀ (s : State) (link : Fin 16),
    (s.linkState link.val = 6 ∧ s.dget (dkLinkEnable link.val) ≠ 0) →
    Gives (.recoveryDone link) s fun t =>
      (t.linkState link.val = 5) ∧
      ((t.link link.val).retry = (s.link link.val).retry.map fun r : RetryFlit => { r with again := true, resends := 0 })) ∧
  (∀ (s : State) (link : Fin 16) (ms : BitVec 16),
    let x := s.link link.val
    (s.linkState link.val = 6 ∧ s.dnat dkLinkRecoverLimit ≤ ms.toNat) →
    (x.tx0 = [] ∧ x.tx1 = [] ∧ x.tx2 = [] ∧ x.tx3 = [] ∧ lostHeaders x.retry = []) →
    Gives (.linkRecoverTimeout link ms) s fun t =>
      t.linkState link.val = 7 ∧ (t.link link.val).retry = [] ∧ (t.link link.val).control = [])

/-- LINK_ENABLE: true takes a DISABLED link to DOWN, false an UP link to DISABLED. SIGNAL_DETECT: DOWN to TRAIN, LINK_MEDIA in effect. SIGNAL_LOST: LOST or REFUSED to DOWN. PHY_TRAIN_DONE: TRAIN to EXCHANGE with the loss class of R484, sequence numbers at 0, the buffers of FAB_VC_CREDITS in effect. PHY_TRAIN_TIMEOUT: TRAIN to DOWN after 500 ms. CAPABILITY_SEND queues this end's capabilities; CAPABILITY: a partner of version 1 takes the link to MEASURE with its credits, package and link noted, any other to REFUSED. (spec/10_links_and_windows.md R480, R481, R482, R484, R508, R509) -/
def Obligations.LinksTrain : Prop :=
  (∀ (s : State) (link : Fin 16),
    (s.linkState link.val = 0) →
    Gives (.linkEnable link true) s fun t =>
      t.linkState link.val = 1 ∧ t.dget (dkLinkEnable link.val) = 1) ∧
  (∀ (s : State) (link : Fin 16),
    (s.linkState link.val = 5) →
    Gives (.linkEnable link false) s fun t =>
      t.linkState link.val = 0 ∧ t.dget (dkLinkEnable link.val) = 0) ∧
  (∀ (s : State) (link : Fin 16),
    (s.linkState link.val = 1) →
    Gives (.signalDetect link) s fun t =>
      t.linkState link.val = 2 ∧ (t.link link.val).media = s.dnat (dkLinkMedia link.val)) ∧
  (∀ (s : State) (link : Fin 16),
    (s.linkState link.val = 7 ∨ s.linkState link.val = 8) →
    Gives (.signalLost link) s fun t =>
      t.linkState link.val = 1) ∧
  (∀ (s : State) (link : Fin 16) (loss : BitVec 16),
    (s.linkState link.val = 2) →
    Gives (.phyTrainDone link loss) s fun t =>
      (t.linkState link.val = 3 ∧ t.fld fabStatusIlClass link.val = ilClass loss.toNat ∧ t.dget (dkIlClass link.val) = (ilClass loss.toNat : Nat)) ∧
      ((t.link link.val).buffers = s.vcBuffers link.val ∧ (t.link link.val).nextSeq = 0 ∧ (t.link link.val).expSeq = 0 ∧ (t.link link.val).partner = none)) ∧
  (∀ (s : State) (link : Fin 16) (ms : BitVec 16),
    (s.linkState link.val = 2 ∧ 500 ≤ ms.toNat) →
    Gives (.phyTrainTimeout link ms) s fun t =>
      t.linkState link.val = 1) ∧
  (∀ (s : State) (link : Fin 16),
    (s.linkState link.val = 3 ∧ (s.link link.val).partner = none) →
    Gives (.capabilitySend link) s fun t =>
      (t.link link.val).control = (s.link link.val).control ++ [s.capabilityPayload link.val]) ∧
  (∀ (s : State) (link : Fin 16) (flit : FlitIn),
    let p := parseCapabilities (flitPayload flit.bits)
    (s.linkState link.val = 3 ∧ flitGood flit = true ∧ bitsOf (flitHead flit.bits) 0 2 = 2 ∧ (flitPayload flit.bits).headD 0#8 = 2#8) →
    (p.versions % 2 = 1) →
    Gives (.capability link flit) s fun t =>
      (t.linkState link.val = 4 ∧ t.fld fabStatusVersion link.val = 1) ∧
      (t.fld fabStatusPartnerPkg link.val = p.pkg ∧ t.fld fabStatusPartnerLink link.val = p.link) ∧
      ((t.link link.val).partner = some p ∧ (t.link link.val).credits = p.credits)) ∧
  (∀ (s : State) (link : Fin 16) (flit : FlitIn),
    (s.linkState link.val = 3 ∧ flitGood flit = true ∧ bitsOf (flitHead flit.bits) 0 2 = 2 ∧ (flitPayload flit.bits).headD 0#8 = 2#8) →
    ((parseCapabilities (flitPayload flit.bits)).versions % 2 = 0) →
    Gives (.capability link flit) s fun t =>
      t.linkState link.val = 8)

/-- ECHO_REQUEST is answered; ECHO_REQUEST_SEND queues the next of 64; ECHO_REPLY keeps a round trip, and the 64th gives RTT, the one-way delay, the cable length by R485, and an enabled link is UP. (spec/10_links_and_windows.md R480, R483, R485) -/
def Obligations.EchoesMeasureTheLink : Prop :=
  (∀ (s : State) (link : Fin 16) (flit : FlitIn),
    (s.transmits link.val = true ∧ flitGood flit = true ∧ bitsOf (flitHead flit.bits) 0 2 = 2 ∧ (flitPayload flit.bits).headD 0#8 = 3#8) →
    Gives (.echoRequest link flit) s fun t =>
      (t.link link.val).control = (s.link link.val).control ++ [4#8 :: (flitPayload flit.bits).drop 1]) ∧
  (∀ (s : State) (link : Fin 16),
    (s.linkState link.val = 4 ∧ (s.link link.val).echoSent < 64) →
    Gives (.echoRequestSend link) s fun t =>
      ((t.link link.val).control = (s.link link.val).control ++ [[3#8, BitVec.ofNat 8 (s.link link.val).echoSent]]) ∧
      ((t.link link.val).echoSent = (s.link link.val).echoSent + 1)) ∧
  (∀ (s : State) (link : Fin 16) (flit : FlitIn) (rtt : BitVec 20),
    let x := s.link link.val
    (s.linkState link.val = 4 ∧ flitGood flit = true ∧ bitsOf (flitHead flit.bits) 0 2 = 2 ∧ (flitPayload flit.bits).headD 0#8 = 4#8) →
    (x.echoes.length < x.echoSent ∧ x.echoes.length < 63) →
    Gives (.echoReply link flit rtt) s fun t =>
      (t.link link.val).echoes = x.echoes ++ [rtt.toNat] ∧ t.linkState link.val = 4) ∧
  (∀ (s : State) (link : Fin 16) (flit : FlitIn) (rtt : BitVec 20) (p : Capabilities),
    let x := s.link link.val
    let best := x.echoes.foldl min rtt.toNat
    let d := (cableDelay2 best p).toNat
    let oneWay := 625 + d / 2 + p.rxLatency
    (s.linkState link.val = 4 ∧ flitGood flit = true ∧ bitsOf (flitHead flit.bits) 0 2 = 2 ∧ (flitPayload flit.bits).headD 0#8 = 4#8) →
    (x.echoes.length < x.echoSent ∧ x.echoes.length = 63 ∧ x.partner = some p ∧ s.dget (dkLinkEnable link.val) ≠ 0) →
    (oneWay < 2 ^ 20) →
    Gives (.echoReply link flit rtt) s fun t =>
      (t.linkState link.val = 5 ∧ t.fld fabDelayRtt link.val = best ∧ t.fld fabDelayOneWay link.val = oneWay) ∧
      (t.dget (dkOneWayDelay link.val) = (oneWay : Nat) ∧ t.dget (dkCableLength link.val) = (min (d * 256 / (10 * x.mediaFactor)) 65535 : Nat)))

/-- PUT and GET_REQ: a header that R495 refuses is counted in REFUSED_CNT and answered with REFUSE and its cause. An accepted PUT of one whole line to pages present and writable leaves exactly its bytes there, ACCEPT_CNT grows by 1, and LANDED with OK goes out; an accepted GET_REQ whose pages are readable is answered with ACCEPT and GET_DATA and its lines. RING_SLOT_ACCEPT: a header that waited for a ring slot, the slot now EMPTY, is accepted and the slot FILLING. MSG_RESPONSE_TIMEOUT at the target: the PUT whose lines have not come is torn and counted. (The answer's next hop is an UP link; no other PUT is landing.) (spec/10_links_and_windows.md R488, R495, R496, R497, R498, R500, R505) -/
def Obligations.WindowMessagesAtTheTarget : Prop :=
  (∀ (s : State) (link : Option (Fin 16)) (header : Words4) (lines : List LineTries) (cause : Nat) (k : Nat),
    let die := hdrWindow header / 512
    (mtype header = 1 ∧ (s.fabric.ringWaits.any fun w : RingWait => w.before die link) = false ∧ s.refusal header = some cause) →
    (srcPkg header ≠ s.ownPkg ∧ s.routeLink die (srcPkg header) = some k) →
    Gives (.put link header lines) s fun t =>
      (t.rd .winRefusedCnt die 0 = s.rd .winRefusedCnt die 0 + 1#64) ∧
      ((t.link k).tx1 = (s.link k).tx1 ++ ([{ header := some (setVia (answer header 5 0 cause 0) false) }] : List TxMsg) ∧ t.mem = s.mem)) ∧
  (∀ (s : State) (link : Option (Fin 16)) (header : Words4) (seg : LineSeg) (k : Nat) (pa : Nat),
    let die := hdrWindow header / 512
    let e := hdrWindow header % 512
    let n := 32 * hdrLen header
    let g : Landing := { num := s.fabric.landingNum, die := die, entry := e, header := header, get := false, link := link, left := [0] }
    (mtype header = 1 ∧ (s.fabric.ringWaits.any fun w : RingWait => w.before die link) = false ∧ s.refusal header = none) →
    (srcPkg header ≠ s.ownPkg ∧ s.routeLink die (srcPkg header) = some k ∧ s.winRing die e = false ∧ s.fabric.landings = []) →
    (lineCount (hdrOffset header) (hdrLen header) = 1 ∧ segGood header 0 seg = true ∧ seg.poison = false ∧ hdrSignal header = false) →
    (pa % 32 = 0 ∧ ∀ j ∈ List.range (hdrLen header), s.winPlace g (32 * j) true = some (pa + 32 * j) ∧ s.takesNow (pa + 32 * j) 32 = true) →
    ((s.heldWrites.any fun w : HeldWrite => w.by_.msg == some s.fabric.landingNum) = false) →
    Gives (.put link header [[seg]]) s fun t =>
      (t.memBytes pa n = ((bytesOf seg.data.toNat 128).drop (32 * (hdrOffset header % 4))).take n) ∧
      (t.rd .winAcceptCnt die 0 = s.rd .winAcceptCnt die 0 + 1#64 ∧ t.fabric.landings = []) ∧
      ((t.link k).tx1 = (s.link k).tx1 ++ ([{ header := some (setVia (answer header 6 stOk 0 0) false) }] : List TxMsg)) ∧
      (∀ a : Nat, a < pa ∨ pa + n ≤ a → t.rdByte a = s.rdByte a)) ∧
  (∀ (s : State) (link : Option (Fin 16)) (header : Words4) (cause : Nat) (k : Nat),
    let die := hdrWindow header / 512
    (mtype header = 2 ∧ (s.fabric.ringWaits.any fun w : RingWait => w.before die link) = false ∧ s.refusal header = some cause) →
    (srcPkg header ≠ s.ownPkg ∧ s.routeLink die (srcPkg header) = some k) →
    Gives (.getReq link header) s fun t =>
      (t.rd .winRefusedCnt die 0 = s.rd .winRefusedCnt die 0 + 1#64) ∧
      ((t.link k).tx1 = (s.link k).tx1 ++ ([{ header := some (setVia (answer header 5 0 cause 0) false) }] : List TxMsg) ∧ t.mem = s.mem)) ∧
  (∀ (s : State) (link : Option (Fin 16)) (header : Words4) (k : Nat) (ls : List LineSeg),
    let die := hdrWindow header / 512
    let n := lineCount (hdrOffset header) (hdrLen header)
    let g : Landing := { num := s.fabric.landingNum, die := die, entry := hdrWindow header % 512, header := header, get := true, link := link, left := List.range n }
    (mtype header = 2 ∧ (s.fabric.ringWaits.any fun w : RingWait => w.before die link) = false ∧ s.refusal header = none) →
    (srcPkg header ≠ s.ownPkg ∧ s.routeLink die (srcPkg header) = some k ∧ s.fabric.landings = []) →
    (s.getHeld g = false ∧ (s.readLines g (List.range n)).2 = (ls, 0)) →
    Gives (.getReq link header) s fun t =>
      ((t.link k).tx1 = (s.link k).tx1 ++ ([{ header := some (setVia (answer header 4 0 0 0) false) }, { header := some (setVia (answer header 3 0 0 0) false), lines := ls, answers := some s.fabric.landingNum }] : List TxMsg)) ∧
      (t.rd .winAcceptCnt die 0 = s.rd .winAcceptCnt die 0 + 1#64 ∧ t.fabric.landings = ([{ g with left := [] }] : List Landing))) ∧
  (∀ (s : State) (die : Fin 2) (w : RingWait),
    let e := hdrWindow w.header % 512
    let ring := s.winStage die.val e
    let slot := (s.epochRec die.val e).ringPuts % ring.nslots
    (s.fabric.ringWaits = [w] ∧ w.die = die.val ∧ hdrWindow w.header / 512 = die.val ∧ w.lines = [] ∧ s.refusal w.header = none) →
    (mtype w.header = 1 ∧ s.winRing die.val e = true ∧ s.headEmpty ring slot = true ∧ (s.tokenTable ring.ringAddr).isSome = true ∧ s.fabric.landings = []) →
    Gives (.ringSlotAccept die) s fun t =>
      (t.fabric.ringWaits = [] ∧ t.slotToken ring slot = 1) ∧
      (t.rd .winAcceptCnt die.val 0 = s.rd .winAcceptCnt die.val 0 + 1#64)) ∧
  (∀ (s : State) (tag : BitVec 16) (pkg : BitVec 12) (ms : BitVec 32) (g : Landing),
    (s.dnat dkMsgResponseLimit ≤ ms.toNat ∧ s.fabric.landings = [g] ∧ g.get = false ∧ g.left ≠ [] ∧ g.slot = none) →
    (hdrTag g.header = tag.toNat ∧ srcPkg g.header = pkg.toNat ∧ g.status = 0 ∧ (s.heldWrites.any fun w : HeldWrite => w.by_.msg == some g.num) = false) →
    Gives (.msgResponseTimeout true tag pkg ms) s fun t =>
      (t.rd .winTornCnt g.die 0 = s.rd .winTornCnt g.die 0 + 1#64 ∧ t.fabric.landings = []) ∧
      ((s.epochRec g.die g.entry).torn = 0 → (t.epochRec g.die g.entry).torn = stPeerLost))

/-- GET_DATA of one whole line hands the bytes asked for to the stage that asked (here of a chain that waits for contexts or has stopped; a running stage goes on with them) and ends the message. ACCEPT changes nothing of a message outstanding and counts a late one. LANDED with OK ends the message. REFUSE and LOST end it, and its chain with WINDOW_CLOSED and PEER_LOST. RELINE queues the line again on VC 0 without a header. MSG_RESPONSE_TIMEOUT at the origin ends the message with PEER_LOST, and its chain. REBUILD_REQ is answered with the sector its window names, REBUILD_DATA leaves the whole sector it brings where the rebuild waits and REBUILD_CNT grows by 1. (A chain that is its record's only one, with the chain log free.) (spec/10_links_and_windows.md R446, R491, R492, R493, R497, R498, R499, spec/07_streams_and_stage_chains.md R359) -/
def Obligations.ResponsesAtTheOrigin : Prop :=
  (∀ (s : State) (header : Words4) (seg : LineSeg) (m : OriginMsg) (ref : ChainRef) (c : Chain),
    let bs := ((bytesOf seg.data.toNat 128).drop (32 * (hdrOffset header % 4) + m.offset % 32)).take m.length
    (mtype header = 3 ∧ (s.sentMsgs.find? fun m : OriginMsg => m.num == hdrTag header && m.get) = some m ∧ (s.sentMsgs.find? fun m : OriginMsg => m.num == hdrTag header) = some m) →
    (lineCount (hdrOffset header) (hdrLen header) = 1 ∧ segGood header 0 seg = true ∧ seg.poison = false ∧ hdrStatus header = 0 ∧ m.aborted = false) →
    (m.offset % 32 + m.length ≤ 32 * hdrLen header ∧ m.chain = some ref ∧ s.findChain ref = some c ∧ (c.stopped || c.waiting) = true) →
    Gives (.getData header [[seg]]) s fun t =>
      (t.chains = (s.setChain { c with stages := c.stages.modify m.stage fun g : Stage => { g with ovl := g.ovl ++ [(m.dest, bs)] } }).chains) ∧
      (t.sentMsgs = s.sentMsgs.filter fun x : OriginMsg => x.num != hdrTag header)) ∧
  (∀ (s : State) (header : Words4) (lines : List LineTries) (m : OriginMsg),
    (mtype header = 3 ∧ (s.sentMsgs.find? fun m : OriginMsg => m.num == hdrTag header && m.get) = some m ∧ (s.sentMsgs.find? fun m : OriginMsg => m.num == hdrTag header) = some m) →
    (((List.range (lineCount (hdrOffset header) (hdrLen header))).all fun i : Nat => (lineTries (s.dnat dkLineCrcRetry) (segGood header i) 0 (lines.getD i [])).1.isSome) = true ∧ m.chain = none) →
    Gives (.getData header lines) s fun t =>
      t.sentMsgs = (s.sentMsgs.filter fun x : OriginMsg => x.num != hdrTag header) ∧ t.chains = s.chains ∧ t.mem = s.mem) ∧
  (∀ (s : State) (header : Words4),
    (mtype header = 4 ∧ (s.sentMsgs.any fun m : OriginMsg => m.num == hdrTag header) = true) →
    Gives (.accept header) s fun t =>
      t.sentMsgs = s.sentMsgs ∧ t.regs = s.regs ∧ t.mem = s.mem) ∧
  (∀ (s : State) (header : Words4),
    (mtype header = 4 ∧ (s.sentMsgs.any fun m : OriginMsg => m.num == hdrTag header) = false) →
    Gives (.accept header) s fun t =>
      t.rd .winLateRespCnt (hdrTag header / 32768) 0 = s.rd .winLateRespCnt (hdrTag header / 32768) 0 + 1#64) ∧
  (∀ (s : State) (header : Words4) (m : OriginMsg),
    (mtype header = 6 ∧ (s.sentMsgs.find? fun m : OriginMsg => m.num == hdrTag header) = some m ∧ hdrStatus header = 0 ∧ m.aborted = false) →
    Gives (.landed header) s fun t =>
      t.sentMsgs = (s.sentMsgs.filter fun x : OriginMsg => x.num != hdrTag header) ∧ t.chains = s.chains) ∧
  (∀ (s : State) (header : Words4) (m : OriginMsg) (ref : ChainRef) (c : Chain),
    (mtype header = 5 ∧ (s.sentMsgs.find? fun m : OriginMsg => m.num == hdrTag header) = some m ∧ m.aborted = false) →
    (m.chain = some ref ∧ s.findChain ref = some c ∧ c.aborting = none ∧ (s.chains.filter fun d : Chain => d.launch == c.launch) = [c] ∧ s.fld cluChainLogValid c.cluster = 0) →
    Gives (.refuse header) s fun t =>
      ((t.sentMsgs.any fun x : OriginMsg => x.num == hdrTag header) = false) ∧
      (t.rd .cluChainEndCnt c.cluster 0 = s.rd .cluChainEndCnt c.cluster 0 + 1#64 ∧ t.fld cluChainLogStatus c.cluster = stWindowClosed)) ∧
  (∀ (s : State) (header : Words4) (m : OriginMsg) (ref : ChainRef) (c : Chain),
    (mtype header = 8 ∧ (s.sentMsgs.find? fun m : OriginMsg => m.num == hdrTag header) = some m) →
    (m.chain = some ref ∧ s.findChain ref = some c ∧ c.aborting = none ∧ (s.chains.filter fun d : Chain => d.launch == c.launch) = [c] ∧ s.fld cluChainLogValid c.cluster = 0) →
    Gives (.lost header) s fun t =>
      ((t.sentMsgs.any fun x : OriginMsg => x.num == hdrTag header) = false) ∧
      (t.rd .cluChainEndCnt c.cluster 0 = s.rd .cluChainEndCnt c.cluster 0 + 1#64 ∧ t.fld cluChainLogStatus c.cluster = stPeerLost)) ∧
  (∀ (s : State) (header : Words4) (m : OriginMsg) (l : LineSeg) (k : Nat),
    (mtype header = 7 ∧ (s.sentMsgs.find? fun m : OriginMsg => m.num == hdrTag header && !m.get) = some m) →
    (m.putLines[hdrLine header]? = some l ∧ s.routeLink m.die m.pkg = some k) →
    Gives (.reline header) s fun t =>
      (t.link k).tx0 = (s.link k).tx0 ++ ([{ header := none, lines := [l] }] : List TxMsg) ∧ t.sentMsgs = s.sentMsgs) ∧
  (∀ (s : State) (tag : BitVec 16) (pkg : BitVec 12) (ms : BitVec 32) (m : OriginMsg) (ref : ChainRef) (c : Chain),
    (s.dnat dkMsgResponseLimit ≤ ms.toNat ∧ (s.sentMsgs.find? fun m : OriginMsg => m.num == tag.toNat) = some m ∧ m.sent = true) →
    (m.chain = some ref ∧ s.findChain ref = some c ∧ c.aborting = none ∧ (s.chains.filter fun d : Chain => d.launch == c.launch) = [c] ∧ s.fld cluChainLogValid c.cluster = 0) →
    Gives (.msgResponseTimeout false tag pkg ms) s fun t =>
      ((t.sentMsgs.any fun x : OriginMsg => x.num == tag.toNat) = false) ∧
      (t.rd .cluChainEndCnt c.cluster 0 = s.rd .cluChainEndCnt c.cluster 0 + 1#64 ∧ t.fld cluChainLogStatus c.cluster = stPeerLost)) ∧
  (∀ (s : State) (header : Words4) (k : Nat) (pa : Nat),
    let die := hdrWindow header / 512
    let e := hdrWindow header % 512
    let u := s.arrived header
    let g : Landing := { num := 0, die := die, entry := e, header := header, get := true }
    (mtype header = 9 ∧ s.winState die e = 1 ∧ hdrEpoch header = s.winEpoch die e ∧ s.winPlace g 0 false = some pa) →
    ((s.frame (pa / 65536)).stamp = bitsOf header.w3 32 32 ∧ s.sectorSound pa = true ∧ srcPkg header ≠ s.ownPkg ∧ s.routeLink die (srcPkg header) = some k) →
    Gives (.rebuildReq header) s fun t =>
      (t.link k).tx3 = (s.link k).tx3 ++ ([{ header := some (setVia (answer header 10 stOk 0 0) false), lines := [(u.readLine g 0).2.1] }] : List TxMsg)) ∧
  (∀ (s : State) (header : Words4) (line : LineSeg) (r : Rebuild),
    (mtype header = 10 ∧ hdrStatus header = stOk ∧ segGood header 0 line = true ∧ line.poison = false ∧ s.noneTodo = true ∧ r.sector % 32 = 0) →
    ((s.pool.rebuilds.find? fun r : Rebuild => r.pkg == some (srcPkg header) && r.counterpart == hdrOffset header) = some r) →
    Gives (.rebuildData header line) s fun t =>
      (t.memBytes r.sector 32 = ((bytesOf line.data.toNat 128).drop (hdrOffset header % 4 * 32)).take 32) ∧
      (t.rd .poolRebuildCnt (s.frameDie (r.sector / 65536)) 0 = s.rd .poolRebuildCnt (s.frameDie (r.sector / 65536)) 0 + 1#64) ∧
      ((t.pool.rebuilds.any fun x : Rebuild => x.sector == r.sector) = false))

/-- WINDOW_OPEN with GO: a CLOSED entry becomes OPEN at its next epoch (1 after 0xFFFF). WINDOW_CLOSE with GO: an OPEN entry becomes CLOSING and no PUT waits for a slot of its ring. WINDOW_CLOSE_RECORD: the entry of which no message is left becomes CLOSED, its record stands at CLOSE_REC and its token, where it has one, is set. MESSAGE_FORWARD: a message for another package goes on, one hop more, by the lowest UP link of the die's route. HELD_MESSAGE_RELEASE: a held message goes by its route once it has one. (spec/10_links_and_windows.md R479, R494, R501, R502, R503, R504, spec/11_collectives_and_mapping.md R516, R517, R518, R519, spec/12_beam_and_launching.md R603, R611) -/
def Obligations.WindowsOpenCloseAndMessagesPassOn : Prop :=
  (∀ (s : State) (die : Fin 2) (value : Word),
    let e := bitsOf value 0 9
    let ep := s.winEpoch die.val e
    (bitOf value 9 = false ∧ bitOf value 63 = true ∧ s.winState die.val e = 0) →
    Gives (.windowOpen die value) s fun t =>
      (t.winState die.val e = 1 ∧ t.winEpoch die.val e = (if ep = 0xFFFF then 1 else ep + 1)) ∧
      (t.epochRec die.val e = ({ opened := s.beamNow } : Epoch))) ∧
  (∀ (s : State) (die : Fin 2) (value : Word),
    let e := bitsOf value 0 9
    (bitOf value 9 = true ∧ bitOf value 63 = true ∧ s.winState die.val e = 1) →
    Gives (.windowClose die value) s fun t =>
      (t.winState die.val e = 2) ∧
      ((t.fabric.ringWaits.any fun w : RingWait => hdrWindow w.header == die.val * 512 + e && mtype w.header == 1) = false)) ∧
  (∀ (s : State) (die : Fin 2) (entry : BitVec 9) (pa : Nat) (r : Bool) (o : Nat) (big : Bool),
    let e := entry.toNat
    let ep := s.epochRec die.val e
    let owner := s.winOwner die.val e
    (pa % 32 = 0 ∧ (s.heldWrites.any fun w : HeldWrite => w.by_.msg == some s.fabric.landingNum) = false) →
    (s.winState die.val e = 2 ∧ (s.fabric.landings.any fun g : Landing => g.die == die.val && g.entry == e) = false) →
    (s.xlat die.val owner (s.fld winEntryW3CloseRec die.val e * 64) = .page pa r true o big) →
    (s.takesNow pa 32 = true) →
    Gives (.windowCloseRecord die entry) s fun t =>
      (t.winState die.val e = 0) ∧
      (t.memBytes pa 32 = (completionRecord ep.torn 1 false false 0 owner e 0 s.beamNow ep.opened ep.accepted 0).flatMap fun w : Word => bytesOf w.toNat 8) ∧
      (s.fld winEntryW3TokenEn die.val e = 1 → t.tokenSet (s.fld winEntryW3CloseToken die.val e) = true)) ∧
  (∀ (s : State) (die : Fin 2) (header : Words4) (lines : List LineSeg) (k : Nat),
    let h' := setVia (setHops header (hdrHops header + 1)) false
    (dstPkg header ≠ s.ownPkg ∧ s.routeLink die.val (dstPkg header) = some k ∧ hdrHops header + 1 ≤ s.dnat dkRouteHopLimit) →
    Gives (.messageForward die header lines) s fun t =>
      (t.link k).tx (vcOf header) = (s.link k).tx (vcOf header) ++ ([{ header := some h', lines := lines }] : List TxMsg)) ∧
  (∀ (s : State) (die : Fin 2) (m : HeldMsg) (k : Nat),
    (s.fabric.held = [m] ∧ m.die = die.val ∧ dstPkg m.header ≠ s.ownPkg ∧ s.routeLink die.val (dstPkg m.header) = some k ∧ m.forwarded = false) →
    Gives (.heldMessageRelease die) s fun t =>
      ((t.link k).tx (vcOf m.header) = (s.link k).tx (vcOf m.header) ++ ([{ header := some (setVia m.header false), lines := m.lines, answers := m.answers }] : List TxMsg)) ∧
      (t.fabric.held = []))

/-- ALL_REDUCE and REDUCE_SCATTER (of two ranks or more, the source present): the collective runs with its local flag and the pieces that it is to deal with. ALL_GATHER and a root's BROADCAST count in COLL_PIECE_TX_CNT the pieces of the own chunk, ALL_TO_ALL those of every other rank's, PERMUTE (source and table present) the chunks for other ranks. RING (of two ranks or more): the command runs at step 0 with its own slice. NF_CHECK with the owner's gate bit clear completes at once: COLL_OP_CNT grows by 1 and its sequence goes on at NEXT. Each where the sequence of the record on the cluster is not busy, the image is the command's, the group valid, no piece held, no request but write-backs waiting at an HBM controller and no SRAM byte failing its check bit. (spec/11_collectives_and_mapping.md R521, R522, R524, R525, R529, R542, R545, R549, R552, R563, R567) -/
def Obligations.CollectivesBegin : Prop :=
  (∀ (s : State) (cluster : Fin 24) (launch : BitVec 12) (image : CmdImage) (q : Seq),
    let cl := cluster.val
    let la := launch.toNat
    let c := (s.parseColl cl (s.recOr la) (s.imageWords cl (s.recOr la) q.next 8 image)).1
    ((s.chains.any fun d : Chain => d.cluster == cl && d.launch == la && !d.extra) = false ∧ s.collRuns cl la = false) →
    (s.findSeq cl la = some q ∧ q.ended = false ∧ imageOpc (s.imageWords cl (s.recOr la) q.next 8 image) = 0xD) →
    (c.op = 0 ∧ (s.groupOf c.die c.group).valid = true ∧ s.coll.early = [] ∧ s.readsQuiet = true) →
    (2 ≤ c.degree ∧ s.collSourceOk c = true) →
    Gives (.allReduce cluster launch image) s fun t =>
      (lookupD 0 (c.die * 256 + c.group) t.coll.issued = c.opseq + 1) ∧
      (((t.findColl cl la).map fun x : Coll => ((x.need, x.got), (x.nf, x.dataSent))) = some ((c.sumNeed + c.gatherNeed (s.dstOf c) + (if c.exact then c.preNeed else 0), 0), (s.localFlag c, !c.exact)))) ∧
  (∀ (s : State) (cluster : Fin 24) (launch : BitVec 12) (image : CmdImage) (q : Seq),
    let cl := cluster.val
    let la := launch.toNat
    let c := (s.parseColl cl (s.recOr la) (s.imageWords cl (s.recOr la) q.next 8 image)).1
    ((s.chains.any fun d : Chain => d.cluster == cl && d.launch == la && !d.extra) = false ∧ s.collRuns cl la = false) →
    (s.findSeq cl la = some q ∧ q.ended = false ∧ imageOpc (s.imageWords cl (s.recOr la) q.next 8 image) = 0xD) →
    (c.op = 1 ∧ (s.groupOf c.die c.group).valid = true ∧ s.coll.early = [] ∧ s.readsQuiet = true) →
    (2 ≤ c.degree ∧ s.collSourceOk c = true) →
    Gives (.reduceScatter cluster launch image) s fun t =>
      (lookupD 0 (c.die * 256 + c.group) t.coll.issued = c.opseq + 1) ∧
      (((t.findColl cl la).map fun x : Coll => ((x.need, x.got), (x.nf, x.dataSent))) = some ((c.sumNeed + (if c.exact then c.preNeed else 0), 0), (s.localFlag c, !c.exact)))) ∧
  (∀ (s : State) (cluster : Fin 24) (launch : BitVec 12) (image : CmdImage) (q : Seq),
    let cl := cluster.val
    let la := launch.toNat
    let c := (s.parseColl cl (s.recOr la) (s.imageWords cl (s.recOr la) q.next 8 image)).1
    ((s.chains.any fun d : Chain => d.cluster == cl && d.launch == la && !d.extra) = false ∧ s.collRuns cl la = false) →
    (s.findSeq cl la = some q ∧ q.ended = false ∧ imageOpc (s.imageWords cl (s.recOr la) q.next 8 image) = 0xD) →
    (c.op = 2 ∧ (s.groupOf c.die c.group).valid = true ∧ s.coll.early = [] ∧ s.readsQuiet = true) →
    (2 ≤ c.degree ∧ s.collSourceOk c = true) →
    Gives (.allGather cluster launch image) s fun t =>
      (lookupD 0 (c.die * 256 + c.group) t.coll.issued = c.opseq + 1) ∧
      (t.rd .collPieceTxCnt c.die 0 = s.rd .collPieceTxCnt c.die 0 + BitVec.ofNat 64 (c.gatherPieces (s.srcOf c) c.rank).length)) ∧
  (∀ (s : State) (cluster : Fin 24) (launch : BitVec 12) (image : CmdImage) (q : Seq),
    let cl := cluster.val
    let la := launch.toNat
    let c := (s.parseColl cl (s.recOr la) (s.imageWords cl (s.recOr la) q.next 8 image)).1
    let others := (List.range c.degree).filter fun k : Nat => k != c.rank
    ((s.chains.any fun d : Chain => d.cluster == cl && d.launch == la && !d.extra) = false ∧ s.collRuns cl la = false) →
    (s.findSeq cl la = some q ∧ q.ended = false ∧ imageOpc (s.imageWords cl (s.recOr la) q.next 8 image) = 0xD) →
    (c.op = 3 ∧ (s.groupOf c.die c.group).valid = true ∧ s.coll.early = [] ∧ s.readsQuiet = true) →
    (2 ≤ c.degree ∧ s.collSourceOk c = true) →
    Gives (.allToAll cluster launch image) s fun t =>
      (lookupD 0 (c.die * 256 + c.group) t.coll.issued = c.opseq + 1) ∧
      (t.rd .collPieceTxCnt c.die 0 = s.rd .collPieceTxCnt c.die 0 + BitVec.ofNat 64 (others.map fun k : Nat => pieceCount ((c.chunk k).2 - (c.chunk k).1) (c.codesPer (s.srcOf c).fmt)).sum)) ∧
  (∀ (s : State) (cluster : Fin 24) (launch : BitVec 12) (image : CmdImage) (q : Seq),
    let cl := cluster.val
    let la := launch.toNat
    let c := (s.parseColl cl (s.recOr la) (s.imageWords cl (s.recOr la) q.next 8 image)).1
    ((s.chains.any fun d : Chain => d.cluster == cl && d.launch == la && !d.extra) = false ∧ s.collRuns cl la = false) →
    (s.findSeq cl la = some q ∧ q.ended = false ∧ imageOpc (s.imageWords cl (s.recOr la) q.next 8 image) = 0xD) →
    (c.op = 4 ∧ (s.groupOf c.die c.group).valid = true ∧ s.coll.early = [] ∧ s.readsQuiet = true) →
    (((List.range c.elems).all fun k : Nat => (s.vLines c.die c.owner ((s.srcOf c).base + k * c.pieceLines * 128) c.pieceLines).all fun x : Option LineSeg => x.isSome) = true ∧ s.permTableHere c = true) →
    Gives (.permute cluster launch image) s fun t =>
      (lookupD 0 (c.die * 256 + c.group) t.coll.issued = c.opseq + 1) ∧
      (t.rd .collPieceTxCnt c.die 0 = s.rd .collPieceTxCnt c.die 0 + BitVec.ofNat 64 ((List.range c.elems).countP fun k : Nat => ((s.permTable c).1.getD (c.rank * c.elems + k) (0, 0)).1 != c.rank))) ∧
  (∀ (s : State) (cluster : Fin 24) (launch : BitVec 12) (image : CmdImage) (q : Seq),
    let cl := cluster.val
    let la := launch.toNat
    let c := (s.parseColl cl (s.recOr la) (s.imageWords cl (s.recOr la) q.next 8 image)).1
    ((s.chains.any fun d : Chain => d.cluster == cl && d.launch == la && !d.extra) = false ∧ s.collRuns cl la = false) →
    (s.findSeq cl la = some q ∧ q.ended = false ∧ imageOpc (s.imageWords cl (s.recOr la) q.next 8 image) = 0xD) →
    (c.op = 5 ∧ (s.groupOf c.die c.group).valid = true ∧ s.coll.early = [] ∧ s.readsQuiet = true) →
    (2 ≤ c.degree ∧ c.rank = c.root ∧ s.collSourceOk c = true) →
    Gives (.broadcast cluster launch image) s fun t =>
      (lookupD 0 (c.die * 256 + c.group) t.coll.issued = c.opseq + 1) ∧
      (t.rd .collPieceTxCnt c.die 0 = s.rd .collPieceTxCnt c.die 0 + BitVec.ofNat 64 (c.gatherPieces (s.srcOf c) c.root).length)) ∧
  (∀ (s : State) (cluster : Fin 24) (launch : BitVec 12) (image : CmdImage) (q : Seq),
    let cl := cluster.val
    let la := launch.toNat
    let c := (s.parseColl cl (s.recOr la) (s.imageWords cl (s.recOr la) q.next 8 image)).1
    let ls := s.vLines c.die c.owner (s.srcOf c).base c.elems
    ((s.chains.any fun d : Chain => d.cluster == cl && d.launch == la && !d.extra) = false ∧ s.collRuns cl la = false) →
    (s.findSeq cl la = some q ∧ q.ended = false ∧ imageOpc (s.imageWords cl (s.recOr la) q.next 8 image) = 0xD) →
    (c.op = 6 ∧ (s.groupOf c.die c.group).valid = true ∧ s.coll.early = [] ∧ s.readsQuiet = true) →
    (2 ≤ c.degree ∧ (ls.all fun x : Option LineSeg => x.isSome) = true) →
    Gives (.ring cluster launch image) s fun t =>
      (lookupD 0 (c.die * 256 + c.group) t.coll.issued = c.opseq + 1) ∧
      (((t.findColl cl la).map fun x : Coll => (x.kv, x.step)) = some ((List.range (pieceCount c.elems c.pieceLines)).map fun i : Nat => (c.rank * 2 ^ 24 + i, ((ls.filterMap id).drop (i * c.pieceLines)).take c.pieceLines), 0))) ∧
  (∀ (s : State) (cluster : Fin 24) (launch : BitVec 12) (image : CmdImage) (q : Seq),
    let cl := cluster.val
    let la := launch.toNat
    let c := (s.parseColl cl (s.recOr la) (s.imageWords cl (s.recOr la) q.next 8 image)).1
    ((s.chains.any fun d : Chain => d.cluster == cl && d.launch == la && !d.extra) = false ∧ s.collRuns cl la = false) →
    (s.findSeq cl la = some q ∧ q.ended = false ∧ imageOpc (s.imageWords cl (s.recOr la) q.next 8 image) = 0xD) →
    (c.op = 7 ∧ (s.groupOf c.die c.group).valid = true ∧ s.coll.early = [] ∧ s.readsQuiet = true) →
    (bitOf (s.rd .collNfGate c.die) c.owner = false) →
    Gives (.nfCheck cluster launch image) s fun t =>
      (lookupD 0 (c.die * 256 + c.group) t.coll.issued = c.opseq + 1) ∧
      (t.rd .collOpCnt c.die 0 = s.rd .collOpCnt c.die 0 + 1#64) ∧
      (t.findSeq cl la = some { q with ops := q.ops + 1, next := c.next, commitBeam := s.beamNow, ended := q.ended || c.next == 0 }))

/-- COLL_DATA with partial sums of a chunk that is not the rank's: the rank's own terms are added and the piece goes to the next rank, one more piece received and one sent. COLL_PREPASS the same with the rank's exponents and non-finite bits. RING_BLOCK: the block is kept with its slice. COLL_ABORT: the collective, the only one running, before its commit point and with no stop pending, ends with the failure status it carries. A message of an old member generation is dropped and counted in COLL_STALE_CNT. (For a message whose OPSEQ is accepted, with no piece held.) (spec/11_collectives_and_mapping.md R515, R529, R530, R532, R533, R537, R553, R557, R559, R562, R563) -/
def Obligations.CollectiveMessages : Prop :=
  (∀ (s : State) (header : Words4) (lines : List LineSeg) (c : Coll) (i : Nat) (a : Nat) (b : Nat) (k : Nat),
    let die := collDstDie header
    (mtype header = 12 ∧ dstPkg header = s.ownPkg ∧ s.fld collGroupW0MemberGen die (collGroupId header) = collGen header ∧ s.opseqOpen die header = true) →
    ((s.coll.running.find? fun x : Coll => x.die == die && x.group == collGroupId header && x.opseq == collOpseq header) = some c) →
    (s.findColl c.cluster c.launch = some c ∧ s.coll.early = []) →
    (c.reduces = true ∧ c.dataSent = true ∧ collPart header ≠ 3 ∧ collChunk header ≠ c.rank) →
    ((piecesIn (c.part (collChunk header) (collPart header)).1 (c.part (collChunk header) (collPart header)).2 c.sumsPer)[collPiece header]? = some (i, a, b)) →
    (((List.range 8).filter fun n : Nat => (if collPart header = 1 then (s.groupOf c.die c.group).up else (s.groupOf c.die c.group).down) / 2 ^ n % 2 == 1 && s.linkState (c.die * 8 + n) == 5) = [k]) →
    Gives (.collData header lines) s fun t =>
      (t.rd .collPieceRxCnt die 0 = s.rd .collPieceRxCnt die 0 + 1#64) ∧
      (t.rd .collPieceTxCnt c.die 0 = s.rd .collPieceTxCnt c.die 0 + 1#64) ∧
      (t.findColl c.cluster c.launch = some { c with waitFrom := s.beamNow, got := c.got + 1, nf := c.nf || collNf header }) ∧
      (((t.link (c.die * 8 + k)).tx2.map fun m : TxMsg => m.lines) = ((s.link (c.die * 8 + k)).tx2.map fun m : TxMsg => m.lines) ++ [c.sumLines (s.sumsOf c a b (some (checkLines header lines)))])) ∧
  (∀ (s : State) (header : Words4) (lines : List LineSeg) (c : Coll) (i : Nat) (lo : Nat) (hi : Nat) (k : Nat),
    let die := collDstDie header
    let ps := (readPres (hi - lo) (fromLines (checkLines header lines))).zipIdx.map fun p : BlockPre × Nat => p.1.join (s.ownPre c (lo + p.2))
    (mtype header = 13 ∧ dstPkg header = s.ownPkg ∧ s.fld collGroupW0MemberGen die (collGroupId header) = collGen header ∧ s.opseqOpen die header = true) →
    ((s.coll.running.find? fun x : Coll => x.die == die && x.group == collGroupId header && x.opseq == collOpseq header) = some c) →
    (s.findColl c.cluster c.launch = some c ∧ s.coll.early = []) →
    (collPart header ≠ 3 ∧ collChunk header ≠ c.rank) →
    ((c.prePieces (collChunk header))[collPiece header]? = some (i, lo, hi)) →
    (((List.range 8).filter fun k : Nat => (s.groupOf c.die c.group).up / 2 ^ k % 2 == 1 && s.linkState (c.die * 8 + k) == 5) = [k]) →
    Gives (.collPrepass header lines) s fun t =>
      (t.rd .collPieceRxCnt die 0 = s.rd .collPieceRxCnt die 0 + 1#64) ∧
      (t.rd .collPieceTxCnt c.die 0 = s.rd .collPieceTxCnt c.die 0 + 1#64) ∧
      (t.findColl c.cluster c.launch = some { c with waitFrom := s.beamNow, got := c.got + 1, nf := c.nf || collNf header }) ∧
      (((t.link (c.die * 8 + k)).tx2.map fun m : TxMsg => m.lines) = ((s.link (c.die * 8 + k)).tx2.map fun m : TxMsg => m.lines) ++ [preLines ps])) ∧
  (∀ (s : State) (header : Words4) (lines : List LineSeg) (c : Coll),
    let die := collDstDie header
    (mtype header = 14 ∧ dstPkg header = s.ownPkg ∧ s.fld collGroupW0MemberGen die (collGroupId header) = collGen header ∧ s.opseqOpen die header = true) →
    ((s.coll.running.find? fun x : Coll => x.die == die && x.group == collGroupId header && x.opseq == collOpseq header) = some c) →
    (s.findColl c.cluster c.launch = some c ∧ s.coll.early = []) →
    (c.op = 6 ∧ c.draining = false ∧ collPart header = 0) →
    Gives (.ringBlock header lines) s fun t =>
      (t.rd .collPieceRxCnt die 0 = s.rd .collPieceRxCnt die 0 + 1#64) ∧
      (((t.findColl c.cluster c.launch).map fun x : Coll => (x.kv, x.got, x.step)) = some (c.kv ++ [(collChunk header * 2 ^ 24 + collPiece header, checkLines header lines)], c.got + 1, c.step))) ∧
  (∀ (s : State) (header : Words4) (c : Coll),
    (mtype header = 15 ∧ dstPkg header = s.ownPkg ∧ s.fld collGroupW0MemberGen c.die (collGroupId header) = collGen header) →
    (s.coll.running = [c] ∧ c.stop = false ∧ c.late = false ∧ s.committed c = false ∧ failureCode (collStatus header) = true ∧ c.die = collDstDie header ∧ c.group = collGroupId header ∧ c.opseq = collOpseq header) →
    Gives (.collAbort header) s fun t =>
      (t.coll.running = [] ∧ t.rd .collOpCnt c.die 0 = s.rd .collOpCnt c.die 0 + 1#64) ∧
      (collStatus header = stAborted → t.rd .collAbortCnt c.die 0 = s.rd .collAbortCnt c.die 0 + 1#64)) ∧
  (∀ (s : State) (header : Words4) (lines : List LineSeg),
    let die := collDstDie header
    (mtype header = 12 ∧ dstPkg header = s.ownPkg ∧ s.fld collGroupW0MemberGen die (collGroupId header) ≠ collGen header) →
    Gives (.collData header lines) s fun t =>
      t.rd .collStaleCnt die 0 = s.rd .collStaleCnt die 0 + 1#64 ∧ t.coll = s.coll ∧ t.mem = s.mem) ∧
  (∀ (s : State) (header : Words4) (lines : List LineSeg),
    let die := collDstDie header
    (mtype header = 13 ∧ dstPkg header = s.ownPkg ∧ s.fld collGroupW0MemberGen die (collGroupId header) ≠ collGen header) →
    Gives (.collPrepass header lines) s fun t =>
      t.rd .collStaleCnt die 0 = s.rd .collStaleCnt die 0 + 1#64 ∧ t.coll = s.coll ∧ t.mem = s.mem) ∧
  (∀ (s : State) (header : Words4) (lines : List LineSeg),
    let die := collDstDie header
    (mtype header = 14 ∧ dstPkg header = s.ownPkg ∧ s.fld collGroupW0MemberGen die (collGroupId header) ≠ collGen header) →
    Gives (.ringBlock header lines) s fun t =>
      t.rd .collStaleCnt die 0 = s.rd .collStaleCnt die 0 + 1#64 ∧ t.coll = s.coll ∧ t.mem = s.mem)

/-- RING_STEP_BOUNDARY: a traversal whose step is whole, with no write waiting, is one step further; with a stop pending it drains. COLLECTIVE_COMMIT: a rank that has dealt with everything, its writes accepted, completes: COLL_OP_CNT grows by 1 and, but for a gating reduction with a non-finite flag, its sequence goes on at NEXT, or ends where NEXT is 0; a gating reduction with a non-finite flag sets the owner's COLL_NF_GATE bit and clears its COLL_NF_SEEN bit. COLL_PEER_TIMEOUT: after COLL_PEER_LIMIT a rank before its commit point ends with PEER_LOST, counted. GROUP_ENTRY_WRITE and COLL_MEMBER_GEN_SET change a group of which no collective runs, the first raising MEMBER_GEN by 1. (Each with the collective the only one running and no piece held.) (spec/11_collectives_and_mapping.md R515, R528, R538, R539, R540, R553, R556, R557, R560, spec/13_daymarks_and_recovery.md R666) -/
def Obligations.CollectivesStepEndAndRegroup : Prop :=
  (∀ (s : State) (cluster : Fin 24) (launch : BitVec 12) (c : Coll),
    (s.findColl cluster.val launch.toNat = some c ∧ c.op = 6 ∧ c.draining = false ∧ c.stop = false ∧ c.stepWhole = true ∧ s.collWriting c = false ∧ s.coll.early = []) →
    Gives (.ringStepBoundary cluster launch) s fun t =>
      ((t.findColl cluster.val launch.toNat).map fun x : Coll => (x.step, x.kv)) = some (c.step + 1, c.kv)) ∧
  (∀ (s : State) (cluster : Fin 24) (launch : BitVec 12) (c : Coll),
    (s.findColl cluster.val launch.toNat = some c ∧ c.op = 6 ∧ c.draining = false ∧ c.stop = true) →
    Gives (.ringStepBoundary cluster launch) s fun t =>
      t.findColl cluster.val launch.toNat = some { c with draining := true, hold := [], place := [] }) ∧
  (∀ (s : State) (cluster : Fin 24) (launch : BitVec 12) (c : Coll) (q : Seq),
    (s.coll.running = [c] ∧ c.cluster = cluster.val ∧ c.launch = launch.toNat ∧ c.whole = true ∧ c.poison = false ∧ c.late = false ∧ s.collWriting c = false) →
    (s.findSeq cluster.val launch.toNat = some q ∧ (c.reduces && c.nfGate && c.nf) = false) →
    Gives (.collectiveCommit cluster launch) s fun t =>
      (t.coll.running = [] ∧ t.rd .collOpCnt c.die 0 = s.rd .collOpCnt c.die 0 + 1#64) ∧
      (t.findSeq cluster.val launch.toNat = some { q with ops := q.ops + 1, next := c.next, commitBeam := s.beamNow, ended := q.ended || c.next == 0 })) ∧
  (∀ (s : State) (cluster : Fin 24) (launch : BitVec 12) (c : Coll),
    (s.coll.running = [c] ∧ c.cluster = cluster.val ∧ c.launch = launch.toNat ∧ c.whole = true ∧ c.poison = false ∧ c.late = false ∧ s.collWriting c = false) →
    (c.reduces = true ∧ c.nfGate = true ∧ c.nf = true ∧ c.owner < 64 ∧ c.die < 2) →
    Gives (.collectiveCommit cluster launch) s fun t =>
      (bitOf (t.rd .collNfGate c.die) c.owner = true ∧ bitOf (t.rd .collNfSeen c.die) c.owner = false) ∧
      (t.rd .collNonfiniteCnt c.die 0 = s.rd .collNonfiniteCnt c.die 0 + 1#64)) ∧
  (∀ (s : State) (cluster : Fin 24) (launch : BitVec 12) (ms : BitVec 32) (c : Coll),
    (s.coll.running = [c] ∧ c.cluster = cluster.val ∧ c.launch = launch.toNat ∧ c.whole = false ∧ c.stop = false ∧ s.committed c = false ∧ s.dnat dkCollPeerLimit ≤ ms.toNat) →
    Gives (.collPeerTimeout cluster launch ms) s fun t =>
      t.coll.running = [] ∧ t.rd .collOpCnt c.die 0 = s.rd .collOpCnt c.die 0 + 1#64 ∧ t.rd .collPeerLostCnt c.die 0 = s.rd .collPeerLostCnt c.die 0 + 1#64) ∧
  (∀ (s : State) (die : Fin 2) (group : BitVec 8) (value : Word),
    ((s.coll.running.any fun c : Coll => c.die == die.val && c.group == group.toNat) = false) →
    Gives (.groupEntryWrite die group 1 value) s fun t =>
      (t.rd .collGroupW1 die.val group.toNat = (s.storeReg .collGroupW1 die.val group.toNat value).rd .collGroupW1 die.val group.toNat) ∧
      (t.fld collGroupW0MemberGen die.val group.toNat = (s.fld collGroupW0MemberGen die.val group.toNat + 1) % 65536)) ∧
  (∀ (s : State) (die : Fin 2) (group : BitVec 8) (value : Word),
    ((s.coll.running.any fun c : Coll => c.die == die.val && c.group == group.toNat) = false) →
    Gives (.groupEntryWrite die group 0 value) s fun t =>
      (t.fld collGroupW0Valid die.val group.toNat = (s.storeReg .collGroupW0 die.val group.toNat value).fld collGroupW0Valid die.val group.toNat) ∧
      (t.fld collGroupW0MemberGen die.val group.toNat = (s.fld collGroupW0MemberGen die.val group.toNat + 1) % 65536)) ∧
  (∀ (s : State) (die : Fin 2) (value : Word),
    (bitOf value 63 = true ∧ (s.coll.running.any fun c : Coll => c.die == die.val && c.group == bitsOf value 0 8) = false) →
    Gives (.collMemberGenSet die value) s fun t =>
      t.fld collGroupW0MemberGen die.val (bitsOf value 0 8) = bitsOf value 16 16)

/-- TOKEN_SET and TOKEN_CLEAR with GO: the token reads set or not set on both dies, and every other token of the package is as before. (spec/12_beam_and_launching.md R602, R603, R604, R629) -/
def Obligations.TokensAreSetAndCleared : Prop :=
  (∀ (s : State) (value : Word),
    (bitOf value 63 = true) →
    Gives (.tokenSet value) s fun t =>
      (t.tokenSet (bitsOf value 0 12) = true ∧ bitOf (t.rd .beamTokens 1 (bitsOf value 0 12 / 64)) (bitsOf value 0 12 % 64) = true) ∧
      (∀ k : Nat, k < 4096 → k ≠ bitsOf value 0 12 → t.tokenSet k = s.tokenSet k)) ∧
  (∀ (s : State) (value : Word),
    (bitOf value 63 = true) →
    Gives (.tokenClear value) s fun t =>
      (t.tokenSet (bitsOf value 0 12) = false ∧ bitOf (t.rd .beamTokens 1 (bitsOf value 0 12 / 64)) (bitsOf value 0 12 % 64) = false) ∧
      (∀ k : Nat, k < 4096 → k ≠ bitsOf value 0 12 → t.tokenSet k = s.tokenSet k))

/-- FLASH_BOUNDARY: outside FREE the counter stands at its next flash boundary, the flash's cycles start again, and a PENDING record whose time has come is LIVE. NOW_RECORD_LIVE: a PENDING record with NOW is LIVE. BEAM_MARK_SEND: a LEAD or LOCKED package sends its mark on a down link that is UP. BEAM_MARK of the named source link: a foreign one is counted; in LOCKED an error within 1 µs is to be slewed away; the eighth good one in ACQUIRE locks the beam. MARK_LOSS_TIMEOUT: LOCKED to HOLDOVER, counted. BEAM_HOLDOVER_TIMEOUT: with coarse beam and BEAM_HOLDOVER_LIMIT past, HOLDOVER to state 4. (The table not written since it was last looked at.) (spec/12_beam_and_launching.md R570, R574, R575, R576, R577, R578, R579, R595, R596, R626, spec/03_cube_array.md R154) -/
def Obligations.BeamMarksAndFlashes : Prop :=
  (∀ (s : State),
    (s.beamState ≠ 0) →
    Gives (.flashBoundary) s fun t =>
      t.beam.counter = BitVec.ofNat 96 ((s.beam.counter.toNat / flashUnits + 1) * flashUnits) ∧ t.cyc = 0) ∧
  (∀ (s : State) (r : RecInst),
    (s.beamState ≠ 0 ∧ s.beam.touched = [] ∧ s.beam.recs = [r] ∧ s.recState r.index = 1 ∧ r.now = false ∧ r.kind = 0) →
    (s.beam.counter.toNat + flashUnits < 2 ^ 96) →
    (r.beamTime ≤ (s.beam.counter.toNat / flashUnits + 1) * 2 ^ 20) →
    Gives (.flashBoundary) s fun t =>
      t.recState r.index = 2) ∧
  (∀ (s : State) (index : BitVec 12) (r : RecInst),
    (s.beam.touched = [] ∧ s.findRec index.toNat = some r ∧ r.now = true ∧ s.recState r.index = 1) →
    Gives (.nowRecordLive index) s fun t =>
      (t.recState r.index = 2) ∧
      (t.findRec index.toNat = some { r with liveBeam := s.beamNow, waitTok := r.wait.find? fun k : Nat => !s.tokenSet k })) ∧
  (∀ (s : State) (link : Fin 16),
    (s.beamState = 5 ∨ s.beamState = 2) →
    (s.dnat dkBeamDownLinks / 2 ^ link.val % 2 = 1 ∧ s.linkState link.val = 5) →
    Gives (.beamMarkSend link) s fun t =>
      (t.link link.val).control = (s.link link.val).control ++ [s.ownMark.bytes]) ∧
  (∀ (s : State) (link : Fin 16) (flit : FlitIn),
    let m := parseMark (flitPayload flit.bits)
    let err := (s.trueBeam link.val m : Int) - s.beam.counter.toNat
    (s.transmits link.val = true ∧ flitGood flit = true ∧ bitsOf (flitHead flit.bits) 0 2 = 2 ∧ (flitPayload flit.bits).headD 0#8 = 0x10#8) →
    (s.beamState = 2 ∧ s.foreignMark m = false ∧ s.dnat dkBeamSourceLink = link.val) →
    (-10000 ≤ errorTenths err m.period ∧ errorTenths err m.period ≤ 10000) →
    Gives (.beamMark link flit) s fun t =>
      (t.beam.slew = err ∧ t.beamState = 2 ∧ t.beam.period = m.period ∧ t.beam.gen = m.gen ∧ t.beam.lead = some m.lead) ∧
      (t.rd .beamMarkRxCnt 0 0 = s.rd .beamMarkRxCnt 0 0 + 1#64 ∧ t.beam.counter = s.beam.counter)) ∧
  (∀ (s : State) (link : Fin 16) (flit : FlitIn),
    let m := parseMark (flitPayload flit.bits)
    (s.transmits link.val = true ∧ flitGood flit = true ∧ bitsOf (flitHead flit.bits) 0 2 = 2 ∧ (flitPayload flit.bits).headD 0#8 = 0x10#8) →
    (s.beamState ≠ 5 ∧ s.foreignMark m = true) →
    Gives (.beamMark link flit) s fun t =>
      t.rd .beamForeignCnt 0 0 = s.rd .beamForeignCnt 0 0 + 1#64 ∧ t.beam = s.beam) ∧
  (∀ (s : State) (link : Fin 16) (flit : FlitIn),
    let m := parseMark (flitPayload flit.bits)
    (s.transmits link.val = true ∧ flitGood flit = true ∧ bitsOf (flitHead flit.bits) 0 2 = 2 ∧ (flitPayload flit.bits).headD 0#8 = 0x10#8) →
    (s.beamState = 1 ∧ s.foreignMark m = false ∧ s.dnat dkBeamSourceLink = link.val ∧ m.sync = true ∧ 7 ≤ s.beam.syncRun) →
    (s.trueBeam link.val m = s.beam.counter.toNat) →
    Gives (.beamMark link flit) s fun t =>
      t.beamState = 2 ∧ t.beam.firstLocked = true ∧ t.beam.counter = s.beam.counter) ∧
  (∀ (s : State),
    (s.beamState = 2) →
    Gives (.markLossTimeout) s fun t =>
      t.beamState = 3 ∧ t.beam.source = none ∧ t.rd .beamHoldoverCnt 0 0 = s.rd .beamHoldoverCnt 0 0 + 1#64) ∧
  (∀ (s : State) (ms : BitVec 32),
    (s.beamState = 3 ∧ s.dnat dkBeamHoldoverLimit ≤ ms.toNat ∧ s.beam.coarse = true) →
    Gives (.beamHoldoverTimeout ms) s fun t =>
      t.beamState = 4)

/-- RECORD_ARM: both sectors, or the second alone, of an IDLE record written with VALID set stand in the table, and the record is PENDING, with their fields where both are written. RECORD_LAUNCH: a record that can launch and that no other precedes is LAUNCHED now, with a sequence on every cluster of its mask whose die runs, LAUNCH_CNT one higher on each such die. RECORD_END and QUIET_WINDOW_CLOSE: the record completes: its 32 bytes stand at PROD of its owner's ring, PROD grows by 1, and where the table holds it no more it is IDLE. CRING_ROOM: CONS stands on both dies, and a waiting completion record is written. (The ring's page is present, writable, taking writes at once, and outside the record's entry of the table; no completion record on its way; the table not written since it was last looked at.) (spec/12_beam_and_launching.md R586, R587, R597, R599, R600, R601, R606, R608, R609, R611, R612) -/
def Obligations.RecordsArmLaunchAndEnd : Prop :=
  (∀ (s : State) (index : BitVec 12) (first : Words4) (second : Words4),
    let pa := s.recAddr index.toNat
    (s.beam.touched = [] ∧ s.recState index.toNat = 0 ∧ bitOf second.w3 0 = true) →
    (s.takesNow pa 64 = true) →
    Gives (.recordArm index (some first) second) s fun t =>
      (t.memBytes pa 64 = words4Bytes first ++ words4Bytes second ∧ t.recState index.toNat = 1) ∧
      (t.findRec index.toNat = some { (t.readRecord index.toNat).1 with armed := s.beamNow, late := !(t.readRecord index.toNat).1.now && decide ((t.readRecord index.toNat).1.beamTime ≤ s.beamNow) }) ∧
      (∀ a : Nat, a < pa ∨ pa + 64 ≤ a → t.rdByte a = s.rdByte a)) ∧
  (∀ (s : State) (index : BitVec 12) (second : Words4),
    let pa := s.recAddr index.toNat
    (s.beam.touched = [] ∧ s.recState index.toNat = 0 ∧ bitOf second.w3 0 = true) →
    (s.takesNow pa 64 = true) →
    Gives (.recordArm index none second) s fun t =>
      (t.memBytes (pa + 32) 32 = words4Bytes second ∧ t.recState index.toNat = 1) ∧
      (∀ a : Nat, a < pa + 32 ∨ pa + 64 ≤ a → t.rdByte a = s.rdByte a)) ∧
  (∀ (s : State) (index : BitVec 12) (r : RecInst),
    let mask := s.recMask r
    (s.beam.touched = [] ∧ s.findRec index.toNat = some r ∧ s.recReady r = true) →
    ((s.beam.recs.any fun q : RecInst => s.orderedBefore q.index r.index && s.recReady q) = false) →
    Gives (.recordLaunch index) s fun t =>
      (t.recState r.index = 3 ∧ t.findRec index.toNat = some { r with launchBeam := s.beamNow }) ∧
      (((List.range 24).all fun k : Nat => mask / 2 ^ k % 2 == 0 || !s.dieRuns (cluDie k) || (t.findSeq k r.index).isSome) = true) ∧
      (mask % 4096 ≠ 0 ∧ s.dieRuns 0 = true → t.rd .beamLaunchCnt 0 0 = s.rd .beamLaunchCnt 0 0 + 1#64) ∧
      (mask / 4096 % 4096 ≠ 0 ∧ s.dieRuns 1 = true → t.rd .beamLaunchCnt 1 0 = s.rd .beamLaunchCnt 1 0 + 1#64)) ∧
  (∀ (s : State) (index : BitVec 12) (r : RecInst) (pa : Nat) (rd : Bool) (o : Nat) (big : Bool),
    let r' := s.closeRecord r
    let n := s.cringSize r'.owner
    let prod := s.fld beamCringIdxProd 0 r'.owner
    (s.beam.touched = [] ∧ s.findRec index.toNat = some r ∧ r.kind = 0 ∧ (s.recState r.index = 3 ∨ s.recState r.index = 4) ∧ s.recOver r.index = true) →
    (s.cringFull r'.owner = false ∧ n ≠ 0 ∧ r'.owner < 64) →
    (s.xlat (s.recDie r') r'.owner (s.fld beamCringBaseBase 0 r'.owner * 32 + prod % n * 32) = .page pa rd true o big) →
    (s.takesNow pa 32 = true ∧ s.beam.posted = [] ∧ (s.heldWrites.any fun x : HeldWrite => x.by_.msg == some s.fabric.landingNum) = false ∧ (pa + 32 ≤ s.recAddr r.index ∨ s.recAddr r.index + 64 ≤ pa)) →
    Gives (.recordEnd index) s fun t =>
      (t.memBytes pa 32 = (recordWords r').flatMap fun w : Word => bytesOf w.toNat 8) ∧
      (t.fld beamCringIdxProd 0 r'.owner = (prod + 1) % 2 ^ 32) ∧
      (s.recValid r.index = false → t.recState r.index = 0 ∧ t.findRec index.toNat = none)) ∧
  (∀ (s : State) (q : QuietWindow) (r : RecInst) (pa : Nat) (rd : Bool) (o : Nat) (big : Bool),
    let r' := { r with commitBeam := s.beamNow }
    let n := s.cringSize r'.owner
    let prod := s.fld beamCringIdxProd 0 r'.owner
    (s.beam.quiet = some q ∧ q.left = 0 ∧ s.beam.recs = [r] ∧ r.index = q.launch ∧ r.kind = 1) →
    (s.cringFull r'.owner = false ∧ n ≠ 0 ∧ r'.owner < 64) →
    (s.xlat (s.recDie r') r'.owner (s.fld beamCringBaseBase 0 r'.owner * 32 + prod % n * 32) = .page pa rd true o big) →
    (s.takesNow pa 32 = true ∧ s.beam.posted = [] ∧ (s.heldWrites.any fun x : HeldWrite => x.by_.msg == some s.fabric.landingNum) = false ∧ (pa + 32 ≤ s.recAddr r.index ∨ s.recAddr r.index + 64 ≤ pa)) →
    Gives (.quietWindowClose) s fun t =>
      (t.beam.quiet = none ∧ t.fld beamCringIdxProd 0 r'.owner = (prod + 1) % 2 ^ 32) ∧
      (t.memBytes pa 32 = (recordWords r').flatMap fun w : Word => bytesOf w.toNat 8) ∧
      (s.recValid r.index = false → t.recState r.index = 0 ∧ t.findRec r.index = none)) ∧
  (∀ (s : State) (owner : BitVec 6) (cons : BitVec 32) (w : DoneWait) (pa : Nat) (rd : Bool) (o : Nat) (big : Bool),
    let n := s.cringSize owner.toNat
    let prod := s.fld beamCringIdxProd 0 owner.toNat
    (s.beam.touched = [] ∧ s.beam.doneWait = [w] ∧ w.owner = owner.toNat ∧ w.launch = none ∧ w.words.length = 4) →
    (n ≠ 0 ∧ (prod + 2 ^ 32 - cons.toNat) % 2 ^ 32 < n) →
    (s.xlat 0 owner.toNat (s.fld beamCringBaseBase 0 owner.toNat * 32 + prod % n * 32) = .page pa rd true o big) →
    (s.takesNow pa 32 = true ∧ s.beam.posted = [] ∧ (s.heldWrites.any fun x : HeldWrite => x.by_.msg == some s.fabric.landingNum) = false) →
    Gives (.cringRoom owner cons) s fun t =>
      (t.beam.doneWait = [] ∧ t.fld beamCringIdxCons 0 owner.toNat = cons.toNat ∧ t.fld beamCringIdxCons 1 owner.toNat = cons.toNat) ∧
      (t.memBytes pa 32 = (w.words.flatMap fun w : Word => bytesOf w.toNat 8) ∧ t.fld beamCringIdxProd 0 owner.toNat = (prod + 1) % 2 ^ 32))

/-- PREEMPTION_POINT of a task with a pre-emption requested: its record is PREEMPTED, its live ranges are being saved, PREEMPT_CNT grows by 1. PREEMPT_SAVE_DONE (no SRAM byte failing its check bit): memory is as the writes of header and ranges leave it and the context is free. CONTEXT_RESTORE: with its save slot readable on this package and no sector of it poisoned, the first saved task of a free context takes it back, lens buffers and memory as the restored ranges leave them. ABORT_RECORD and ABORT_OWNER with GO: a PENDING record that the table holds no more is IDLE, a running chain ends with ABORTED (no tile of it open, the only one of its record, the chain log free), and an abort of no record is counted. (The table not written since it was last looked at; no ring for the owner.) (spec/12_beam_and_launching.md R615, R616, R617, R619, R620, R621, R624, R625, spec/07_streams_and_stage_chains.md R359, R367) -/
def Obligations.PreemptionAndAborts : Prop :=
  (∀ (s : State) (e : EngId) (task : Fin 4) (words : Words4) (c : Chain) (k : Nat) (g : Stage) (r : RecInst),
    let die := cluDie c.cluster
    let ranges := (s.virtWords die c.owner (c.prog + 64 * bitsOf words.w1 0 32) (bitsOf words.w0 16 8)).map liveRange
    let slot := bitsOf words.w0 24 12
    (EngineOpen s (EngIdIdx e) task.val ∧ (s.eng (EngIdIdx e)).preempt.contains task.val = true) →
    (s.chainOfTask (EngIdIdx e) task.val = some (c, k) ∧ c.stages[k]? = some g ∧ c.aborting = none ∧ c.stopped = false) →
    (s.findRec c.launch = some r) →
    Gives (.preemptionPoint e task words) s fun t =>
      (t.recState c.launch = 4 ∧ t.fld engTaskStateState (EngIdIdx e) task.val = 3) ∧
      (t.beam.saved = s.beam.saved ++ ([{ launch := c.launch, engine := EngIdIdx e, task := task.val, chain := c.ref, stage := k, item := ({ g with tileOpen := false } : Stage).item, slot := slot, ranges := ranges, saveAt := r.saveArea + slot * bitsOf (s.virtWord die c.owner (c.prog + 16)) 32 32 }] : List SavedTask)) ∧
      (t.rd .beamPreemptCnt (engDie (EngIdIdx e)) 0 = s.rd .beamPreemptCnt (engDie (EngIdIdx e)) 0 + 1#64)) ∧
  (∀ (s : State) (e : EngId) (task : Fin 4) (x : SavedTask) (c : Chain),
    let head : List Nat := [x.launch % 4096 + engPacked (EngIdIdx e) % 128 * 2 ^ 12 + x.task % 4 * 2 ^ 19 + x.stage % 8 * 2 ^ 21 + x.item % 2 ^ 24 * 2 ^ 32, s.beamNow, rangeBytes x.ranges % 2 ^ 32, 0, 0, 0, 0, 0]
    let s1 := s.readRuns (x.access c.owner) (s.slotRanges x)
    let p := s1.vPut (cluDie c.cluster) (x.access c.owner) x.saveAt (head.flatMap fun w : Nat => bytesOf w 8)
    let q := p.st.saveRanges x (cluDie c.cluster) c.owner (x.saveAt + 64) x.ranges
    ((s.beam.saved.find? fun y : SavedTask => y.engine == EngIdIdx e && y.task == task.val && !y.done) = some x) →
    (s.findChain x.chain = some c ∧ (s.chains.any fun d : Chain => d.waiting) = false ∧ p.fault = false ∧ q.2 = false ∧ s.badCheck = []) →
    Gives (.preemptSaveDone e task) s fun t =>
      (t.mem = q.1.mem ∧ t.taskState (EngIdIdx e) task.val = 0) ∧
      ((t.beam.saved.any fun y : SavedTask => y.engine == EngIdIdx e && y.task == task.val && y.launch == x.launch && y.chain == x.chain && y.done) = true)) ∧
  (∀ (s : State) (e : EngId) (task : Fin 4) (x : SavedTask) (c : Chain) (g : Stage),
    let die := cluDie c.cluster
    let runs := cutPages (rangeBytes x.ranges / 65536 + 2) (x.saveAt + 64) (rangeBytes x.ranges)
    let s1 := s.readRuns (x.access c.owner) (s.localRuns die c.owner runs)
    let s2 := s1.restoreRanges x die c.owner (x.saveAt + 64) x.ranges
    (s.nextRestore (EngIdIdx e) task.val = some x ∧ s.findChain x.chain = some c ∧ c.stages[x.stage]? = some g) →
    (s.taskState (EngIdIdx e) task.val = 0 ∧ engIndex g.engine = EngIdIdx e ∧ g.task = task.val) →
    ((s.localRuns die c.owner runs).length = runs.length ∧ s.runsHeld (s.localRuns die c.owner runs) = false ∧ s.stageWriting c x.stage = false) →
    (s1.poisonedAt die c.owner [] runs = []) →
    Gives (.contextRestore e task) s fun t =>
      (t.lens = s2.lens ∧ t.mem = s2.mem) ∧
      (t.fld engTaskStateLaunch (EngIdIdx e) task.val = c.launch % 4096) ∧
      (t.chains = (s.setChain { c with stages := c.stages.set x.stage { g with away := false } }).chains)) ∧
  (∀ (s : State) (die : Fin 2) (value : Word) (r : RecInst),
    (s.beam.touched = [] ∧ bitOf value 63 = true ∧ s.findRec (bitsOf value 0 12) = some r) →
    (s.recState (bitsOf value 0 12) = 1 ∧ s.cringSize r.owner = 0 ∧ s.recValid r.index = false) →
    Gives (.abortRecord die value) s fun t =>
      (t.recState (bitsOf value 0 12) = 0 ∧ t.findRec (bitsOf value 0 12) = none) ∧
      (r.failSig = true → (r.sig.all fun k : Nat => decide (4096 ≤ k) || t.tokenSet k) = true)) ∧
  (∀ (s : State) (die : Fin 2) (value : Word),
    (s.beam.touched = [] ∧ bitOf value 63 = true ∧ s.findRec (bitsOf value 0 12) = none) →
    Gives (.abortRecord die value) s fun t =>
      (t.rd .beamAbortIgnoredCnt 0 0 = s.rd .beamAbortIgnoredCnt 0 0 + 1#64 ∧ t.rd .beamAbortIgnoredCnt 1 0 = s.rd .beamAbortIgnoredCnt 1 0 + 1#64) ∧
      (t.beam = s.beam ∧ t.mem = s.mem)) ∧
  (∀ (s : State) (die : Fin 2) (value : Word) (r : RecInst) (c : Chain),
    (s.beam.touched = [] ∧ bitOf value 63 = true ∧ s.findRec (bitsOf value 0 12) = some r ∧ r.kind = 0) →
    (s.recState (bitsOf value 0 12) = 3 ∧ s.chains = [c] ∧ c.launch = r.index ∧ c.completion ≠ 2) →
    ((c.stages.any fun g : Stage => g.tileOpen) = false ∧ s.fld cluChainLogValid c.cluster = 0) →
    Gives (.abortRecord die value) s fun t =>
      (t.chains = [] ∧ t.fld cluChainLogStatus c.cluster = stAborted) ∧
      (t.rd .cluChainEndCnt c.cluster 0 = s.rd .cluChainEndCnt c.cluster 0 + 1#64)) ∧
  (∀ (s : State) (die : Fin 2) (value : Word) (r : RecInst),
    (s.beam.touched = [] ∧ bitOf value 63 = true ∧ s.beam.recs = [r] ∧ r.owner = bitsOf value 12 6) →
    (s.recState r.index = 1 ∧ s.cringSize r.owner = 0 ∧ s.recValid r.index = false) →
    Gives (.abortOwner die value) s fun t =>
      t.recState r.index = 0 ∧ t.beam.recs = [])

/-- DAYMARK_TAKE_EFFECT of a LIVE daymark record whose tokens are set, which R634 does not refuse and no other daymark's list meets (its launch runs no other, no frame is being moved): DAYMARK_SEQ is one higher, the record runs, the daymark stands, and the frame of each listed page is protected. PAGE_COPY_DONE of a page that nothing holds up: counted, its frame's protection ends, its entry is copied. A page's copy, where its place takes writes at once and no request waits for its frame: its bytes stand at its place of the image. DAYMARK_COMMIT with every page copied clean (no frame being moved): DAYMARK_CLEAN_REV is the record's STEP_REV and the daymark is over. DAYMARK_RESTORE with GO while no restore runs: BUSY, and the restore of the image at IMG begins. RESTORE_END: RESULT 1, no page written, where the header is bad; otherwise, with no page of the image waiting to be written, the result, the page count and memory are those of writing its pages, once read, from the first entry on. (spec/13_daymarks_and_recovery.md R631, R632, R634, R635, R637, R640, R643, R645, R647, R648, R651, R652) -/
def Obligations.DaymarksCaptureAndRestore : Prop :=
  (∀ (s : State) (index : BitVec 12) (r : RecInst),
    let sq := (s.dnat (dkDaymarkSeq r.owner) + 1) % 2 ^ 32
    let ps := (s.dmList r).1
    let d : Daymark := { launch := index.toNat, owner := r.owner, stepRev := r.stepRev, seq := sq, image := r.saveArea / 65536 * 65536 + sq % r.dmImages * r.dmStride, effect := s.beamNow, pages := ps }
    (s.findRec index.toNat = some r ∧ r.kind = 2 ∧ s.recState index.toNat = 2 ∧ r.wait.all s.tokenSet = true) →
    (s.dmRefused r d = false ∧ s.dmOverlaps d = false ∧ (s.daymarks.any fun x => x.launch == index.toNat) = false ∧ s.pool.moves = []) →
    Gives (.daymarkTakeEffect index) s fun t =>
      (t.dnat (dkDaymarkSeq r.owner) = sq ∧ t.recState index.toNat = 3) ∧
      ((t.daymarks.any fun x => x.launch == index.toNat && x.seq == sq && x.image == d.image && x.pages == ps) = true) ∧
      ((ps.all fun p => match s.dmFrame r.owner p.vpage with | some n => (t.frame n).prot | none => true) = true)) ∧
  (∀ (s : State) (die : Fin 2) (c : DmCopy) (d : Daymark) (p : DmPage) (frame : Nat),
    (s.copying.find? (fun x => x.die == die.val) = some c ∧ s.daymarks.find? (fun x => x.launch == c.launch) = some d) →
    (d.pages[c.page]? = some p ∧ s.dmFrame d.owner p.vpage = some frame ∧ s.dmHeldUp frame = false) →
    Gives (.pageCopyDone die false) s fun t =>
      (t.rd .poolDmPagesCnt die.val 0 = s.rd .poolDmPagesCnt die.val 0 + 1#64 ∧ (t.frame frame).prot = false) ∧
      ((t.daymarks.any fun x => x.launch == c.launch && (x.pages[c.page]?).any fun q : DmPage => q.copied && q.vpage == p.vpage) = true)) ∧
  (∀ (s : State) (d : Daymark) (k : Nat) (frame : Nat) (pa : Nat) (owner : Nat) (big : Bool),
    (s.dmPlace d.owner (d.image + d.manifestBytes + k * 65536) = some (pa, owner, big)) →
    (s.takesNow pa 65536 = true ∧ s.noneQueued (frame * 65536) 65536 = true) →
      ∀ i : Nat, i < 65536 → (s.dmCopyPage d k frame).1.memByte (pa + i) = s.memByte (frame * 65536 + i)) ∧
  (∀ (s : State) (index : BitVec 12) (d : Daymark) (r : RecInst),
    (s.daymarks.find? (fun x => x.launch == index.toNat) = some d ∧ s.findRec index.toNat = some r) →
    ((d.pages.all fun p => p.copied && !p.poisoned) = true ∧ s.pool.moves = []) →
    Gives (.daymarkCommit index) s fun t =>
      t.dget (dkDaymarkCleanRev d.owner) = d.stepRev ∧ (t.daymarks.any fun x => x.launch == index.toNat) = false) ∧
  (∀ (s : State) (die : Fin 2) (value : Word),
    (bitOf value 63 = true ∧ s.fld poolDmRestoreStatusBusy die.val = 0) →
    Gives (.daymarkRestore die value) s fun t =>
      (t.rd .poolDmRestoreStatus die.val 0 = 1#64) ∧
      (t.restores = s.restores ++ [(die.val, bitsOf value 0 6, s.fld poolDmRestoreAddrImg die.val * 65536)])) ∧
  (∀ (s : State) (die : Fin 2) (fetched : List (BitVec 64 × List Byte)) (owner : Nat) (image : Nat),
    let s0 : State := { s with restores := s.restores.filter fun x => x.1 != die.val }
    let s1 := s0.readRuns { unit := .maint die.val, owner := owner } (s.imageRuns die.val owner image 0)
    let w0 := natOfBytes (s.imageBytes die.val owner fetched image 8)
    (s.restores.find? (fun x => x.1 == die.val) = some (die.val, owner, image)) →
    (w0 % 2 ^ 32 ≠ 0x44594D4B ∨ w0 / 2 ^ 63 ≠ 1) →
    Gives (.restoreEnd die fetched) s fun t =>
      t.rd .poolDmRestoreStatus die.val 0 = 2#64 ∧ t.mem = s1.mem) ∧
  (∀ (s : State) (die : Fin 2) (fetched : List (BitVec 64 × List Byte)) (owner : Nat) (image : Nat),
    let s0 : State := { s with restores := s.restores.filter fun x => x.1 != die.val }
    let w0 := natOfBytes (s.imageBytes die.val owner fetched image 8)
    let n := natOfBytes (s.imageBytes die.val owner fetched (image + 32) 4)
    let s1 := s0.readRuns { unit := .maint die.val, owner := owner } (s.imageRuns die.val owner image n)
    let x := s1.restorePages die.val owner image n fetched n 0 0
    (s.restores.find? (fun x => x.1 == die.val) = some (die.val, owner, image)) →
    (w0 % 2 ^ 32 = 0x44594D4B ∧ w0 / 2 ^ 63 = 1 ∧ s.restoreWaits die.val owner image n fetched = false) →
    Gives (.restoreEnd die fetched) s fun t =>
      (t.fld poolDmRestoreStatusBusy die.val = 0 ∧ t.fld poolDmRestoreStatusResult die.val = x.2.2 % 4 ∧ t.fld poolDmRestoreStatusPages die.val = x.2.1 % 2 ^ 32 ∧ t.mem = x.1.mem) ∧
      (t.rd .poolDmRestorePageCnt die.val 0 = x.1.rd .poolDmRestorePageCnt die.val 0 + BitVec.ofNat 64 x.2.1))

/-- PACKAGE_FAILED at the lead device, after FAILOVER_DETECT or fatal: FAILOVER_SEQ is one higher, and with no spare ready the failed package's route entries hold 0 on both dies; with a spare and no update of its own, every other package is sent its update, which begins with that cut, its MEMBER_GEN values as R654 gives them. TABLE_UPDATE that the server takes: FAILOVER_SEQ becomes the greater of its own and the update's; an update not greater changes no register; a greater one with one route entry writes it. CRITICAL_STATE_ERROR outside a reset: counted and logged, a core reset with that cause, its state, with the table's lock open, held in the copy. (That the cut precedes the packages' updates, and that the copy lists registers, is the model's form.) (spec/13_daymarks_and_recovery.md R653, R656, R657, R660, R661, R662, R666, spec/16_power_measurement_reset.md R775, R776, R777, R786) -/
def Obligations.FailoverAndCriticalErrors : Prop :=
  (∀ (s : State) (pkg : BitVec 12) (ms : BitVec 32) (fatal : Bool) (owners : BitVec 64) (updates : List PackageUpdate) (gens : List (BitVec 8 × BitVec 16)),
    (s.beamState = 5 ∧ (s.dnat dkFailoverDetect ≤ ms.toNat ∨ fatal = true)) →
    Gives (.packageFailed pkg ms fatal owners [] { updates := updates, gens := gens }) s fun t =>
      (t.dnat dkFailoverSeq = (s.dnat dkFailoverSeq + 1) % 2 ^ 32) ∧
      (∀ die : Fin 2, bitsOf (t.rd .collRoute die.val (pkg.toNat / 4)) (pkg.toNat % 4 * 16) 9 = 0)) ∧
  (∀ (s : State) (pkg : BitVec 12) (ms : BitVec 32) (fatal : Bool) (owners : BitVec 64) (ready : List (BitVec 12)) (updates : List PackageUpdate) (gens : List (BitVec 8 × BitVec 16)),
    (s.beamState = 5 ∧ (s.dnat dkFailoverDetect ≤ ms.toNat ∨ fatal = true)) →
    ((s.chooseSpare (ready.map BitVec.toNat)).isSome = true ∧ (updates.all fun u => u.pkg.toNat != s.ownPkg) = true) →
    Gives (.packageFailed pkg ms fatal owners ready { updates := updates, gens := gens }) s fun t =>
      t.mooring.updates = s.mooring.updates ++ (s.withGens gens updates).map fun u : PackageUpdate => (u.pkg.toNat, updateBytes ((s.dnat dkFailoverSeq + 1) % 2 ^ 32) (routeCut pkg.toNat ++ u.entries))) ∧
  (∀ (s : State) (src : DictSource) (value : List Byte),
    (ServerTakes s src dkTableUpdate ∧ 16 ≤ value.length ∧ value.length ≤ 65536) →
    Gives (.tableUpdate src value) s fun t =>
      t.dnat dkFailoverSeq = Nat.max (s.dnat dkFailoverSeq) (natOfBytes (value.take 4))) ∧
  (∀ (s : State) (src : DictSource) (value : List Byte),
    (ServerTakes s src dkTableUpdate ∧ 16 ≤ value.length ∧ value.length ≤ 65536 ∧ src.transport ≠ .inBand) →
    (natOfBytes (value.take 4) ≤ s.dnat dkFailoverSeq) →
    Gives (.tableUpdate src value) s fun t =>
      t.regs = s.regs ∧ t.mem = s.mem) ∧
  (∀ (s : State) (src : DictSource) (seqNo : BitVec 32) (x : TableEntry),
    (ServerTakes s src dkTableUpdate ∧ s.dnat dkFailoverSeq < seqNo.toNat ∧ bitsOf x.w0 0 4 = 0) →
    Gives (.tableUpdate src (updateBytes seqNo.toNat [x])) s fun t =>
      bitsOf (t.rd .collRoute (bitsOf x.w0 4 1) (bitsOf x.w0 13 12 / 4)) (bitsOf x.w0 13 12 % 4 * 16) 9 = bitsOf x.value 0 9 ∧ t.dnat dkFailoverSeq = seqNo.toNat) ∧
  (∀ (s : State) (die : Fin 2) (unit : BitVec 3) (index : BitVec 16) (double : Bool) (since : BitVec 32) (copyBad : Bool),
    let s1 := (s.logCritical die.val unit.toNat index.toNat double).bump .rstCritCnt die.val 0 1
    (s.resetInProgress = false) →
    Gives (.criticalStateError die unit index double since copyBad) s fun t =>
      (t.rd .rstCritCnt die.val 0 = s.rd .rstCritCnt die.val 0 + 1#64 ∧ t.fld rstCritLogValid die.val = 1) ∧
      (s.fld rstCritLogValid die.val = 0 → t.fld rstCritLogUnit die.val = unit.toNat ∧ t.fld rstCritLogIndex die.val = index.toNat % 4096 ∧ t.fld rstCritLogOverflow die.val = 0) ∧
      (s.fld rstCritLogValid die.val = 1 → t.fld rstCritLogOverflow die.val = 1) ∧
      (t.fld rstCauseSources 0 = 64 ∧ t.fld rstCauseLevel 0 = 2 ∧ t.resets.level = 2 ∧ t.resets.step = 4) ∧
      (t.resets.copy = (s1.setBoth beamTableLock 0).regs.filter fun c : Nat × Word => keyIn copyRegs c.1) ∧
      (copyBad = true → t.resets.fatal = true))

/-- At a port that is up (CFG accesses of a keeper port also before it trains), a transaction of the command's type. READ_REQ (nothing waiting that its lines wait for or that reading would change): READ_DATA with its tag, owner and status and the lines as memory holds them joins the responses. READ_DATA and CFG_DATA: the lines that meet their CRC are delivered, the others counted. CFG_READ: CFG_DATA carries the 8 bytes of configuration space. CFG_WRITE of a die's restore address writes its field; one of KEEP_HOST_CFG from no keeper core does not. (spec/14_keeper_and_host.md R672, R673, R674, R675, R676, R677, R691, spec/06_onchip_memory.md R282) -/
def Obligations.UcieReadsAndConfiguration : Prop :=
  (∀ (s : State) (port : UciePort) (x : UcieTxn),
    let pas := (List.range (txnLines x)).map fun k : Nat => txnAddr x / 128 * 128 + 128 * k
    let status := ((pas.map s.pathStatus).find? (· != 0)).getD 0
    (s.portOpen port false = true ∧ txnReserved x = false ∧ txnType x = 1 ∧ s.readsQuiet = true) →
    ((pas.any fun pa : Nat => s.groupHeld pa 128 || s.portWrites port x pa 128) = false) →
    Gives (.readReq port x) s fun t =>
      (t.keeper.responses = s.keeper.responses ++ [({ port := portUnit port, w0 := responseHeader x 2 status (txnLines x), w1 := x.w1, lines := pas.map s.memLine } : UcieMsg)]) ∧
      (bitsOf (responseHeader x 2 status (txnLines x)) 0 4 = 2 ∧ bitsOf (responseHeader x 2 status (txnLines x)) 6 12 = txnTag x)) ∧
  (∀ (s : State) (port : UciePort) (x : UcieTxn),
    (s.portOpen port false = true ∧ txnReserved x = true) →
    Gives (.readReq port x) s fun t =>
      t.rd .uciBadTxnCnt (portUnit port) 0 = s.rd .uciBadTxnCnt (portUnit port) 0 + 1#64 ∧ t.keeper = s.keeper ∧ t.mem = s.mem) ∧
  (∀ (s : State) (port : UciePort) (x : UcieTxn),
    (s.portOpen port false = true ∧ txnType x = 2) →
    Gives (.readData port x) s fun t =>
      (t.keeper.delivered = some ({ port := portUnit port, w0 := x.w0, w1 := x.w1, lines := (x.lines.filter (ucieLineGood x)).map fun y : LineSeg × BitVec 128 => y.1 } : UcieMsg)) ∧
      (t.rd .uciLineCrcCnt (portUnit port) 0 = s.rd .uciLineCrcCnt (portUnit port) 0 + BitVec.ofNat 64 (x.lines.countP fun y : LineSeg × BitVec 128 => !ucieLineGood x y))) ∧
  (∀ (s : State) (port : UciePort) (x : UcieTxn),
    (s.portOpen port true = true ∧ txnType x = 5) →
    Gives (.cfgData port x) s fun t =>
      t.keeper.delivered = some ({ port := portUnit port, w0 := x.w0, w1 := x.w1, lines := (x.lines.filter (ucieLineGood x)).map fun y : LineSeg × BitVec 128 => y.1 } : UcieMsg)) ∧
  (∀ (s : State) (port : UciePort) (x : UcieTxn) (off : Nat),
    (s.portOpen port true = true ∧ txnType x = 4 ∧ s.phys (txnAddr x) = .config off) →
    Gives (.cfgRead port x) s fun t =>
      (t.keeper.responses.getLast?).map (fun m : UcieMsg => (bitsOf m.w0 0 4, m.lines.map fun y : LineSeg => BitVec.ofNat 64 y.data.toNat)) = some (5, [s.cfgRead off])) ∧
  (∀ (s : State) (port : UciePort) (x : UcieTxn) (off : Nat) (v : Word) (u : Nat) (i : Nat),
    (s.portOpen port true = true ∧ txnType x = 6 ∧ txnValue x = some v) →
    (s.phys (txnAddr x) = .config off ∧ regPlace off = some (.poolDmRestoreAddr, u, i)) →
    Gives (.cfgWrite port x) s fun t =>
      t.fld poolDmRestoreAddrImg u = bitsOf v 16 32) ∧
  (∀ (s : State) (port : UciePort) (x : UcieTxn) (off : Nat) (i : Nat),
    (s.portOpen port true = true ∧ txnType x = 6 ∧ txnSrc x ≠ 0) →
    (s.phys (txnAddr x) = .config off ∧ regPlace off = some (.keepHostCfg, 0, i)) →
    Gives (.cfgWrite port x) s fun t =>
      t.rd .keepHostCfg 0 0 = s.rd .keepHostCfg 0 0)

/-- At a port that is up, a transaction of the command's type. WRITE of one whole line to 128 bytes in use that take writes at once, not a keeper core's into the reserved range: memory holds it. POST, no WRITE of its source waiting: the token is set or cleared, or the flags join the entry. EVENT: the line joins the events. A reserved TTYPE: counted and dropped. UCIE_RETRAIN of a link that is up: STATE 3, counted. UCIE_RETRAIN_DONE: the failed modules join RETIRED, MODULES_UP is what remains, STATE is 2, or 0 with none left. (spec/14_keeper_and_host.md R672, R673, R674, R675, R677, R678, R679, spec/12_beam_and_launching.md R602) -/
def Obligations.UcieWritesPostsAndRetraining : Prop :=
  (∀ (s : State) (port : UciePort) (x : UcieTxn) (y : LineSeg × BitVec 128),
    let base := txnAddr x / 128 * 128
    (s.portOpen port false = true ∧ txnType x = 3 ∧ x.lines = [y] ∧ lineMask x y = BitVec.allOnes 128 ∧ ucieLineGood x y = true) →
    ((List.range 4).all (fun k : Nat => s.takesNow (base + 32 * k) 32) = true ∧ s.pathStatus base = 0) →
    ((port.keeper && inReserved s.fuses base) = false) →
    Gives (.write port x) s fun t =>
      (t.memBytes base 128 = bytesOf y.1.data.toNat 128) ∧
      (∀ a : Nat, a < base ∨ base + 128 ≤ a → t.memByte a = s.memByte a)) ∧
  (∀ (s : State) (port : UciePort) (x : UcieTxn) (id : BitVec 12) (on : Bool),
    (s.portOpen port false = true ∧ txnType x = 7 ∧ s.portWrites port x 0 (2 ^ 48) = false) →
    Gives (.post port x (.token id on)) s fun t =>
      (t.tokenSet id.toNat = on) ∧
      (∀ k : Nat, k < 4096 → k ≠ id.toNat → t.tokenSet k = s.tokenSet k)) ∧
  (∀ (s : State) (port : UciePort) (x : UcieTxn) (index : BitVec 12) (bits : BitVec 3),
    (s.portOpen port false = true ∧ txnType x = 7 ∧ s.portWrites port x 0 (2 ^ 48) = false) →
    Gives (.post port x (.flags index bits)) s fun t =>
      t.rd .galFlagEntry port.die.val index.toNat = s.rd .galFlagEntry port.die.val index.toNat ||| BitVec.ofNat 64 bits.toNat) ∧
  (∀ (s : State) (port : UciePort) (x : UcieTxn) (y : LineSeg × BitVec 128),
    (s.portOpen port false = true ∧ txnType x = 8 ∧ x.lines = [y] ∧ ucieLineGood x y = true) →
    Gives (.event port x) s fun t =>
      t.keeper.events = s.keeper.events ++ [(bitsOf x.w1 48 16, y.1.data)]) ∧
  (∀ (s : State) (port : UciePort) (failed : BitVec 24) (readers : List ChainRef),
    (s.fld uciStatusState (portUnit port) = 2) →
    Gives (.ucieRetrain port failed readers) s fun t =>
      t.fld uciStatusState (portUnit port) = 3 ∧ t.rd .uciRetrainCnt (portUnit port) 0 = s.rd .uciRetrainCnt (portUnit port) 0 + 1#64) ∧
  (∀ (s : State) (port : UciePort) (failed : BitVec 24) (readers : List ChainRef),
    let u := portUnit port
    let bad := s.fld uciStatusRetired u ||| (failed.toNat % 2 ^ linkModules port)
    let up := linkModules port - countOnes (linkModules port) bad
    (s.fld uciStatusState u = 3) →
    Gives (.ucieRetrainDone port failed readers) s fun t =>
      t.fld uciStatusRetired u = bad ∧ t.fld uciStatusModulesUp u = up ∧ t.fld uciStatusState u = (if up = 0 then 0 else 2))

/-- APERTURE_ACCESS of an enabled aperture within reach once COMPUTE_RELEASE is over: a read completes with the bytes (nothing waiting that reading would change, no channel group of them taken out); a write whose pages take it at once, no request waiting for its sectors, stores them and counts its merges; otherwise counted, a read completing with an error. CONFIG_VIEW_ACCESS: a read completes with the word of BAR0; an MSI-X control write and a boot window write in WAIT_HOST are stored; a write through the view with WR_EN 0 is counted and dropped. HOST_WINDOW_ACCESS: what the host answers stands there; a failed read leaves poison; a failed write is counted and stores nothing. HCMD_POLL: an entry that is no request is passed over; a READ or DESCRIBE is answered in the ring. (spec/14_keeper_and_host.md R688, R689, R690, R691, R693, R695, R697) -/
def Obligations.HostAccesses : Prop :=
  (∀ (s : State) (aperture : Fin 16) (offset : BitVec 32) (k : BitVec 8),
    let pa := s.fld keepApertureBase 0 aperture.val * 2 ^ 32 + offset.toNat
    (s.heldInReset = false ∧ 9 ≤ s.resets.step ∧ s.fld keepApertureEn 0 aperture.val = 1) →
    (s.hostReach pa = true ∧ s.hostReach (pa + k.toNat - 1) = true ∧ s.groupHeld pa k.toNat = false ∧ s.readsQuiet = true) →
    Gives (.apertureAccess aperture offset (.read k)) s fun t =>
      t.keeper.completion.map (fun x : HostCompletion => (x.status, x.data)) = some (0, s.memBytes pa k.toNat) ∧ t.mem = s.mem) ∧
  (∀ (s : State) (aperture : Fin 16) (offset : BitVec 32) (bs : List Byte),
    let pa := s.fld keepApertureBase 0 aperture.val * 2 ^ 32 + offset.toNat
    (s.heldInReset = false ∧ 9 ≤ s.resets.step ∧ s.fld keepApertureEn 0 aperture.val = 1 ∧ bs ≠ []) →
    (s.hostReach pa = true ∧ s.hostReach (pa + bs.length - 1) = true ∧ s.noneQueued pa bs.length = true) →
    (((cutPages (bs.length / 65536 + 2) pa bs.length).all fun r : Nat × Nat => s.takesNow r.1 r.2) = true) →
    Gives (.apertureAccess aperture offset (.write bs)) s fun t =>
      (t.memBytes pa bs.length = bs) ∧
      (t.rd .keepHostMergeCnt 0 0 = s.rd .keepHostMergeCnt 0 0 + BitVec.ofNat 64 (s.partSectors pa bs.length)) ∧
      (∀ a : Nat, a < pa ∨ pa + bs.length ≤ a → t.memByte a = s.memByte a)) ∧
  (∀ (s : State) (aperture : Fin 16) (offset : BitVec 32) (k : BitVec 8),
    (s.heldInReset = false ∧ (s.resets.step < 9 ∨ s.fld keepApertureEn 0 aperture.val = 0)) →
    Gives (.apertureAccess aperture offset (.read k)) s fun t =>
      t.keeper.completion = some ({ status := if s.resets.step < 9 then 2 else 1 } : HostCompletion) ∧ t.rd .keepApertureErrCnt 0 0 = s.rd .keepApertureErrCnt 0 0 + 1#64) ∧
  (∀ (s : State) (offset : BitVec 27),
    (s.heldInReset = false) →
    Gives (.configViewAccess offset none) s fun t =>
      t.keeper.completion = some ({ status := 0, data := bytesOf (s.bar0Read offset.toNat).toNat 8 } : HostCompletion) ∧ t.regs = s.regs) ∧
  (∀ (s : State) (offset : BitVec 27) (v : Word) (k : Nat),
    (s.heldInReset = false ∧ bar0 offset.toNat = .msix k true) →
    Gives (.configViewAccess offset (some v)) s fun t =>
      (t.msix k).masked = bitOf v 32 ∧ (t.msix k).data = bitsOf v 0 32 ∧ (t.msix k).addr = (s.msix k).addr) ∧
  (∀ (s : State) (offset : BitVec 27) (v : Word) (off : Nat),
    (s.heldInReset = false ∧ bar0 offset.toNat = .boot off ∧ s.stage = 2) →
    Gives (.configViewAccess offset (some v)) s fun t =>
      ((List.range 8).map fun k : Nat => lookupD 0#8 (off + k) t.keeper.sram) = bytesOf v.toNat 8) ∧
  (∀ (s : State) (offset : BitVec 27) (v : Word) (off : Nat),
    (s.heldInReset = false ∧ bar0 offset.toNat = .view off ∧ s.fld keepHostCfgWrEn 0 = 0) →
    Gives (.configViewAccess offset (some v)) s fun t =>
      (t.rd .keepHostCfgDropCnt 0 0 = s.rd .keepHostCfgDropCnt 0 0 + 1#64 ∧ t.mem = s.mem) ∧
      (∀ r : Reg, r ≠ .keepHostCfgDropCnt → ∀ u i : Nat, t.rd r u i = s.rd r u i)) ∧
  (∀ (s : State) (offset : BitVec 42) (bs : List Byte) (work : Option ChainRef),
    (s.hostOn = true) →
    Gives (.hostWindowAccess offset (.read (some bs)) true work) s fun t =>
      t.memBytes (hostBase + offset.toNat) bs.length = bs) ∧
  (∀ (s : State) (offset : BitVec 42) (linkUp : Bool) (work : Option ChainRef),
    Gives (.hostWindowAccess offset (.read none) linkUp work) s fun t =>
      t.poisonAt (hostBase + offset.toNat) = true ∧ t.mem = s.mem) ∧
  (∀ (s : State) (offset : BitVec 42) (bs : List Byte) (poison : Bool) (linkUp : Bool),
    (s.hostOn = false ∨ linkUp = false) →
    Gives (.hostWindowAccess offset (.write bs poison) linkUp none) s fun t =>
      t.rd .keepHostwinErrCnt 0 0 = s.rd .keepHostwinErrCnt 0 0 + 1#64 ∧ t.mem = s.mem) ∧
  (∀ (s : State) (x : BitVec 512),
    (s.serverOff = false ∧ s.fld keepHcmdBaseSizeLog2 0 ≠ 0 ∧ s.hcmdWaiting ≠ 0 ∧ x.toNat % 256 ≠ 1) →
    Gives (.hcmdPoll [x]) s fun t =>
      t.fld keepHcmdIdxCons 0 = (s.fld keepHcmdIdxCons 0 + 1) % 2 ^ 32 ∧ t.fld keepHcmdIdxProd 0 = s.fld keepHcmdIdxProd 0 ∧ t.mem = s.mem ∧ t.dict = s.dict) ∧
  (∀ (s : State) (x : BitVec 512) (p : Pdu),
    let bs := bytesOf x.toNat 64
    (s.serverOff = false ∧ s.fld keepHcmdBaseSizeLog2 0 ≠ 0 ∧ s.hcmdWaiting ≠ 0 ∧ x.toNat % 256 = 1) →
    (s.hrspRoom = true ∧ s.hostOn = true ∧ parsePdu ((bs.drop 8).take (min 56 (bodyNum bs 3 2))) = some p ∧ (p.op = 0 ∨ p.op = 2)) →
    Gives (.hcmdPoll [x]) s fun t =>
      t.fld keepHcmdIdxCons 0 = (s.fld keepHcmdIdxCons 0 + 1) % 2 ^ 32 ∧ t.fld keepHrspIdxProd 0 = (s.fld keepHrspIdxProd 0 + 1) % 2 ^ 32)

/-- POOL_XLAT_INV with GO: BUSY; XLAT_INV_DONE: BUSY 0. KEEP_BOOT_CMD with GO in WAIT_HOST: by the image check, the keeper starts or stage 2 stands with LAST_FAIL and the cause. KEEP_SW_IRQ of an unmasked vector outside its holdoff: sent. IRQ_HOLDOFF_EXPIRY: the vector sent if it fired again. FUNCTION_LEVEL_RESET: apertures, host window and MSI-X cleared. SHELF_RESCAN: a ready device is mapped above, as far as there is room. (spec/14_keeper_and_host.md R685, R694, R696, R700, R701, R704, R706, spec/17_security.md R795) -/
def Obligations.HostEventsAndResets : Prop :=
  (∀ (s : State) (die : Fin 2) (value : Word),
    (bitOf value 63 = true) →
    Gives (.poolXlatInv die value) s fun t =>
      t.fld poolXlatInvStatusBusy die.val = 1) ∧
  (∀ (s : State) (die : Fin 2),
    Gives (.xlatInvDone die) s fun t =>
      t.fld poolXlatInvStatusBusy die.val = 0 ∧ t.mem = s.mem) ∧
  (∀ (s : State) (value : Word),
    let s1 := s.storeReg .keepBootCmd 0 0 value
    let len := min 33554432 (s1.fld keepBootCmdLen 0)
    let ck := s1.checkImage (fun k : Nat => if k < len then lookupD 0#8 k s1.keeper.sram else 0#8) len
    (s.stage = 2 ∧ bitOf value 63 = true) →
    Gives (.keepBootCmd value) s fun t =>
      if ck.cause = 0 then t.stage = 4 ∧ t.resets.step = 5 else t.stage = 2 ∧ t.fld keepBootStatusLastFail 0 = 0xE0 ∧ t.fld secVerifyLogCause 0 = ck.cause ∧ t.fld secVerifyLogHost 0 = 1) ∧
  (∀ (s : State) (value : Word),
    let n := Nat.max 68 (bitsOf value 0 11)
    (s.host.holdoff.contains n = false ∧ (s.msix n).masked = false) →
    Gives (.keepSwIrq value) s fun t =>
      t.host.sent = s.host.sent ++ [n]) ∧
  (∀ (s : State) (vector : BitVec 11),
    ((s.msix vector.toNat).masked = false) →
    Gives (.irqHoldoffExpiry vector) s fun t =>
      (t.host.sent = s.host.sent ++ (if s.host.again.contains vector.toNat then [vector.toNat] else [])) ∧
      (s.host.again.contains vector.toNat = false → t.host.holdoff = setErase vector.toNat s.host.holdoff)) ∧
  (∀ (s : State),
    Gives (.functionLevelReset) s fun t =>
      (t.host = ({} : HostIf) ∧ (∀ a : Fin 16, t.fld keepApertureEn 0 a.val = 0) ∧ t.fld keepHostwinEn 0 = 0 ∧ t.fld keepHcmdBaseSizeLog2 0 = 0) ∧
      (t.rd .keepBootStatus 0 0 = s.rd .keepBootStatus 0 0 ∧ t.mem = s.mem ∧ t.beam = s.beam)) ∧
  (∀ (s : State) (src : DictSource) (d : ShelfDevice),
    (ServerTakes s src dkShelfRescan ∧ d.ready = true) →
    Gives (.shelfRescan src 1#8 [d]) s fun t =>
      t.keeper.shelfTop = s.keeper.shelfTop + min d.capacity.toNat (shelfRoom - s.keeper.shelfTop))

/-- The server runs and the request repeats none. READ of a readable numeric entry in a served range: the response carries its value, and no entry changes (no move under way where the response is in band); READ of no entry: RESULT 1, counted. DICT_WRITE of a daymark or failover entry with the bytes of its type: the entry holds the clamped value, the response carries it, and a clamp is counted for the transport. DESCRIBE: the 48 bytes of the entry. DICT_LOCK: the entry reads as written, unless it is set and would be cleared: then it stays and the refusal is counted. DICT_STORE of true: the newer copy in the flash holds the persistent values. RESET_REQUEST of 1 or 2: the request waits. RESET_REQUEST_DELAY_EXPIRY, no reset as deep or deeper being in progress: a reset of that level with cause software. (READ of an entry that a transport may not reach and DOMAIN segments are stated elsewhere.) (spec/15_object_dictionary.md R709, R712, R715, R716, R717, R718, R719, R722, R731, R732, R866, spec/16_power_measurement_reset.md R779) -/
def Obligations.DictionaryRequestsAreServed : Prop :=
  (∀ (s : State) (src : DictSource) (index : BitVec 16) (sub : Byte) (offset : BitVec 16) (r : DictRow),
    let p : Pdu := { op := 0, index := index.toNat, sub := sub.toNat, offset := offset.toNat }
    (s.serverOff = false ∧ s.repeated src = none ∧ s.served p = true ∧ (src.transport ≠ .inBand ∨ s.pool.moves = [])) →
    (entryAt index.toNat sub.toNat = some r ∧ r.access ≠ 3 ∧ r.type ≠ 9 ∧ r.type ≠ 10) →
    Gives (.read src index sub offset) s fun t =>
      ((t.session src).map (fun x : DictSession => x.response) = some (replyBytes p { result := 0, value := packValue r.type (s.numValue index.toNat sub.toNat r) })) ∧
      (t.dict = s.dict)) ∧
  (∀ (s : State) (src : DictSource) (index : BitVec 16) (sub : Byte) (offset : BitVec 16),
    let p : Pdu := { op := 0, index := index.toNat, sub := sub.toNat, offset := offset.toNat }
    (s.serverOff = false ∧ s.repeated src = none ∧ s.served p = true ∧ entryAt index.toNat sub.toNat = none) →
    Gives (.read src index sub offset) s fun t =>
      (t.session src).map (fun x : DictSession => x.response) = some (replyBytes p { result := 1 }) ∧ t.dget dkDictRefusedCnt = (s.dget dkDictRefusedCnt + 1) % 2 ^ 64) ∧
  (∀ (s : State) (src : DictSource) (index : BitVec 16) (sub : Byte) (offset : BitVec 16) (last : Bool) (value : List Byte) (r : DictRow),
    let p : Pdu := { op := 1, last := last, index := index.toNat, sub := sub.toNat, offset := offset.toNat, value := value }
    let raw := unpackValue r.type value
    (s.serverOff = false ∧ s.repeated src = none ∧ 5 ≤ s.resets.step) →
    (entryAt index.toNat sub.toNat = some r ∧ r.access = 2 ∧ r.type ≠ 9 ∧ r.type ≠ 10 ∧ value.length = typeSize r.type) →
    (index.toNat = 0x4030 ∨ index.toNat = 0x5300 ∨ index.toNat = 0x5302) →
    Gives (.dictWrite src index sub offset last value) s fun t =>
      (t.dget (dictKey index.toNat sub.toNat) = clampRow r raw) ∧
      (t.dget (clampKey src.transport) = (if clampRow r raw = raw then s.dget (clampKey src.transport) else (s.dget (clampKey src.transport) + 1) % 2 ^ 64)) ∧
      ((t.session src).map (fun x : DictSession => x.response) = some (replyBytes p { result := 0, value := packValue r.type (clampRow r raw), last := last }))) ∧
  (∀ (s : State) (src : DictSource) (index : BitVec 16) (sub : Byte) (r : DictRow),
    let p : Pdu := { op := 2, index := index.toNat, sub := sub.toNat }
    (s.serverOff = false ∧ s.repeated src = none ∧ s.served p = true ∧ entryAt index.toNat sub.toNat = some r ∧ (src.transport ≠ .inBand ∨ s.pool.moves = [])) →
    Gives (.describe src index sub) s fun t =>
      (t.session src).map (fun x : DictSession => x.response) = some (replyBytes p { result := 0, value := describeBytes index.toNat sub.toNat r }) ∧ t.dict = s.dict) ∧
  (∀ (s : State) (src : DictSource) (value : Byte),
    (s.serverOff = false ∧ s.repeated src = none ∧ 5 ≤ s.resets.step ∧ (value = 0#8 ∨ value = 1#8)) →
    (s.dget dkDictLock = 0 ∨ value = 1#8) →
    Gives (.dictLock src value) s fun t =>
      t.dget dkDictLock = value.toNat ∧ t.dget dkDictRefusedCnt = s.dget dkDictRefusedCnt) ∧
  (∀ (s : State) (src : DictSource),
    (s.serverOff = false ∧ s.repeated src = none ∧ 5 ≤ s.resets.step ∧ s.dget dkDictLock ≠ 0) →
    Gives (.dictLock src 0#8) s fun t =>
      t.dget dkDictLock = s.dget dkDictLock ∧ t.dget dkDictRefusedCnt = (s.dget dkDictRefusedCnt + 1) % 2 ^ 64) ∧
  (∀ (s : State) (src : DictSource),
    (s.serverOff = false ∧ s.repeated src = none ∧ 5 ≤ s.resets.step) →
    Gives (.dictStore src 1#8) s fun t =>
      t.flash.newer.map (fun x : DictCopy => x.values) = some (s.dict.filter fun q : Nat × Int => persistent q.1)) ∧
  (∀ (s : State) (src : DictSource) (value : Byte),
    (s.serverOff = false ∧ s.repeated src = none ∧ 5 ≤ s.resets.step ∧ (value = 1#8 ∨ value = 2#8)) →
    Gives (.resetRequest src value) s fun t =>
      t.resets.request = some value.toNat ∧ t.resets.step = s.resets.step) ∧
  (∀ (s : State) (n : Nat),
    ((s.resetInProgress = false ∨ n < s.resets.level) ∧ s.resets.request = some n ∧ (n = 1 ∨ n = 2)) →
    Gives (.resetRequestDelayExpiry) s fun t =>
      t.resets.level = n ∧ t.resets.request = none ∧ t.fld rstCauseSources 0 = 128 ∧ t.fld rstCauseLevel 0 = n ∧ t.fld rstCauseSources 1 = 128)

/-- With nothing holding the package in reset, a whole frame of the command's type addressed here. DICT_REQ reading a numeric entry: one frame is sent, with the request's SEQ and the response; a bad frame is counted. DICT_RSP: the response is kept. FOG, of a kind listed and later than the last of its origin: kept as FOG_LAST, counted. RESET with CONFIRM 0xA5 and a level accepted, no reset as deep or deeper being in progress: that reset with cause mooring; with another CONFIRM counted as bad. COARSE_BEAM: coarse beam is present, the counter of a package outside COARSE as before. PRESENCE: the payload and beam time kept for the node; its own node ID from another address is a conflict. (spec/15_object_dictionary.md R726, R735, R736, R738, R739, R743, R744) -/
def Obligations.MooringFramesAreTaken : Prop :=
  (∀ (s : State) (frame : MooringFrame) (p : Pdu) (r : DictRow),
    let src : DictSource := { transport := .mooring, id := BitVec.ofNat 32 (frameSrcNode frame + frameSrcPkg frame * 8), tag := BitVec.ofNat 16 (frameNum frame 6 2) }
    (frameBad frame = false ∧ frameType frame = 1 ∧ s.frameMine frame = true ∧ parsePdu (frameBody frame) = some p ∧ p.op = 0) →
    (s.serverOff = false ∧ s.repeated src = none ∧ s.served p = true) →
    (entryAt p.index p.sub = some r ∧ r.access ≠ 3 ∧ r.type ≠ 9 ∧ r.type ≠ 10) →
    Gives (.dictReq frame) s fun t =>
      (t.mooring.sent.length = s.mooring.sent.length + 1) ∧
      ((t.mooring.sent.getLast?).map (fun x : List Byte => (bodyNum x 6 2, x.drop 12)) = some (frameNum frame 6 2, replyBytes p { result := 0, value := packValue r.type (s.numValue p.index p.sub r) }))) ∧
  (∀ (s : State) (frame : MooringFrame),
    (s.heldInReset = false ∧ frameBad frame = true) →
    Gives (.dictReq frame) s fun t =>
      t.dget dkMooringBadFrameCnt = (s.dget dkMooringBadFrameCnt + 1) % 2 ^ 64 ∧ t.mooring = s.mooring) ∧
  (∀ (s : State) (frame : MooringFrame),
    (s.heldInReset = false ∧ frameBad frame = false ∧ frameType frame = 2 ∧ s.frameMine frame = true) →
    Gives (.dictRsp frame) s fun t =>
      t.mooring.answer = frameBody frame ∧ t.dict = s.dict) ∧
  (∀ (s : State) (frame : MooringFrame),
    let body := padTo 24 0#8 (frameBody frame)
    let origin := bodyNum body 0 2 % 4096
    (s.heldInReset = false ∧ frameBad frame = false ∧ frameType frame = 3 ∧ s.frameMine frame = true) →
    ((bodyNum body 2 1 = 1 ∨ bodyNum body 2 1 = 2) ∧ (s.mooring.fogs.all fun x : Nat × Nat => x.1 != origin || decide (x.2 < bodyNum body 12 8)) = true) →
    Gives (.fog (.frame frame)) s fun t =>
      (t.dbytes dkFogLast = body ∧ t.dget dkFogRxCnt = (s.dget dkFogRxCnt + 1) % 2 ^ 64) ∧
      (t.mooring.fogs.head? = some (origin, bodyNum body 12 8))) ∧
  (∀ (s : State) (frame : MooringFrame),
    let level := bodyNum (frameBody frame) 0 1
    (s.heldInReset = false ∧ frameBad frame = false ∧ frameType frame = 4 ∧ s.frameMine frame = true) →
    (2 ≤ (frameBody frame).length ∧ bodyNum (frameBody frame) 1 1 = 0xA5) →
    (s.resetInProgress = false ∨ level < s.resets.level) →
    ((level = 2 ∧ 1 ≤ s.dnat dkMooringResetAccept) ∨ (level = 1 ∧ 2 ≤ s.dnat dkMooringResetAccept)) →
    Gives (.reset frame) s fun t =>
      t.resets.level = level ∧ t.fld rstCauseSources 0 = 8 ∧ t.fld rstCauseLevel 0 = level) ∧
  (∀ (s : State) (frame : MooringFrame),
    (s.heldInReset = false ∧ frameBad frame = false ∧ frameType frame = 4 ∧ s.frameMine frame = true) →
    (bodyNum (frameBody frame) 1 1 ≠ 0xA5) →
    Gives (.reset frame) s fun t =>
      t.dget dkMooringBadFrameCnt = (s.dget dkMooringBadFrameCnt + 1) % 2 ^ 64 ∧ t.resets = s.resets) ∧
  (∀ (s : State) (frame : MooringFrame),
    (s.heldInReset = false ∧ frameBad frame = false ∧ frameType frame = 5 ∧ s.frameMine frame = true) →
    Gives (.coarseBeam frame) s fun t =>
      t.beam.coarse = true ∧ (s.beamState ≠ 4 → t.beam.counter = s.beam.counter)) ∧
  (∀ (s : State) (frame : MooringFrame),
    let node := frameSrcNode frame
    (s.heldInReset = false ∧ frameBad frame = false ∧ frameType frame = 6 ∧ s.frameMine frame = true) →
    Gives (.presence frame) s fun t =>
      (((t.byteValue dkMooringPeers).drop (16 * node)).take 16 = padTo 8 0#8 (frameBody frame) ++ bytesOf s.beamNow 8) ∧
      (node = s.dnat dkMooringNodeId ∧ frame.source.toNat ≠ s.ownAddress → t.dget dkMooringNodeConflict = 1))

/-- PRESENCE_SEND with MOORING_ENABLE, COARSE_BEAM_SEND of a coordinator in LOCKED, HOLDOVER or LEAD: one frame to all, with the next SEQ. FOG_SEND that the server takes, with none sent in this phase unit nor waiting: the fog is counted, kept and its beam time noted. (spec/15_object_dictionary.md R735, R736, R737, R740, R741, R742, R743, R745) -/
def Obligations.MooringFramesAreSent : Prop :=
  (∀ (s : State),
    (s.heldInReset = false ∧ s.dget dkMooringEnable ≠ 0) →
    Gives (.presenceSend) s fun t =>
      (t.mooring.sent.length = s.mooring.sent.length + 1 ∧ t.mooring.seq = (s.mooring.seq + 1) % 65536) ∧
      ((t.mooring.sent.getLast?).map (fun x : List Byte => (bodyNum x 0 1, bodyNum x 6 2, x.drop 12)) = some (0x61, s.mooring.seq % 65536, bytesOf s.ownPkg 2 ++ bytesOf s.stage 1 ++ bytesOf s.beamState 1 ++ bytesOf (s.dnat dkSpareRole) 1 ++ bytesOf 0 3))) ∧
  (∀ (s : State),
    (s.heldInReset = false ∧ s.dnat dkMooringNodeId = 0 ∧ (s.beamState = 2 ∨ s.beamState = 3 ∨ s.beamState = 5)) →
    Gives (.coarseBeamSend) s fun t =>
      (t.mooring.sent.length = s.mooring.sent.length + 1 ∧ t.mooring.seq = (s.mooring.seq + 1) % 65536) ∧
      ((t.mooring.sent.getLast?).map (fun x : List Byte => (bodyNum x 0 1, bodyNum (x.drop 12) 0 8, bodyNum (x.drop 12) 8 4)) = some (0x51, s.beamNow % 2 ^ 64, s.beam.period % 2 ^ 32))) ∧
  (∀ (s : State) (src : DictSource) (value : List Byte),
    let kind := bodyNum value 0 1
    (ServerTakes s src dkFogSend ∧ value.length = 16 ∧ (kind = 1 ∨ kind = 2)) →
    (s.mooring.fogBeam ≠ some s.beamNow ∧ s.mooring.fogDue = [] ∧ (s.mooring.fogs.all fun x : Nat × Nat => x.1 != s.ownPkg % 4096) = true) →
    Gives (.fogSend src value) s fun t =>
      (t.mooring.fogBeam = some s.beamNow ∧ t.dget dkFogOriginCnt = (s.dget dkFogOriginCnt + 1) % 2 ^ 64) ∧
      (t.dbytes dkFogLast = fogBody s.ownPkg kind (bodyNum value 1 1) (bodyNum value 8 8) s.beamNow))

/-- POWER_MODE and SUB_MODE that the server takes: the entry reads as written; in beam state 2 or later the mode in effect stays; in FREE or ACQUIRE, between Full and Balanced, it is the one written, engines stop, and ACLK is the lower of the two modes'. MODE_CHANGE_RESUME: engines go on at the mode's ACLK. GOVERNOR_INTERVAL: each running die's level and each stack's cap follow the power measured, and the power is shown; with a base clock of at most 1,900 MHz the dies show ACLK as their levels leave it. DROOP_DETECT: counted, issue held for 16 cycles. HBM_RAMP: the first of 8 steps with its wait counted, or the next. TEMP_SAMPLE below the trip: shown, with the limits applied. THERMAL_RELEASE with everything 25 °C below: the trip is over, in Harbour mode. (spec/16_power_measurement_reset.md R755, R756, R758, R759, R762, R763, R764, R767, R768, R770, R771, R772) -/
def Obligations.ModesAndTheGovernor : Prop :=
  (∀ (s : State) (src : DictSource) (value : Byte),
    (s.serverOff = false ∧ s.repeated src = none ∧ 5 ≤ s.resets.step ∧ value.toNat ≤ 2 ∧ 2 ≤ s.fld beamStatusState 0) →
    Gives (.powerMode src value) s fun t =>
      t.dget dkPowerMode = value.toNat ∧ t.modeNow = s.modeNow ∧ t.power = s.power ∧ t.resets.rewritten = true) ∧
  (∀ (s : State) (src : DictSource) (value : Byte),
    (s.serverOff = false ∧ s.repeated src = none ∧ 5 ≤ s.resets.step ∧ s.fld beamStatusState 0 < 2) →
    (value.toNat < 2 ∧ s.modeNow < 2 ∧ value.toNat ≠ s.modeNow) →
    Gives (.powerMode src value) s fun t =>
      (t.dget dkPowerMode = value.toNat ∧ t.modeNow = value.toNat ∧ t.dget dkPowerModeActive = value.toNat ∧ t.fld pwrStatusVsel 1 = modeVsel value.toNat) ∧
      (t.power.die0.paused = true ∧ t.power.die1.paused = true ∧ t.power.mhz = Nat.min (modeMhz s.order value.toNat) s.baseMhz)) ∧
  (∀ (s : State) (src : DictSource) (value : Byte),
    (s.serverOff = false ∧ s.repeated src = none ∧ 5 ≤ s.resets.step ∧ value.toNat ≤ 3 ∧ 2 ≤ s.fld beamStatusState 0) →
    Gives (.subMode src value) s fun t =>
      t.dget dkSubMode = value.toNat ∧ t.subModeNow = s.subModeNow ∧ t.power = s.power) ∧
  (∀ (s : State) (src : DictSource) (value : Byte),
    (s.serverOff = false ∧ s.repeated src = none ∧ 5 ≤ s.resets.step ∧ s.fld beamStatusState 0 < 2) →
    (value.toNat ≤ 3 ∧ s.modeNow < 2 ∧ value.toNat ≠ s.subModeNow ∧ s.dnat dkPowerMode = s.modeNow) →
    Gives (.subMode src value) s fun t =>
      t.dget dkSubMode = value.toNat ∧ t.subModeNow = value.toNat ∧ t.modeNow = s.modeNow ∧ t.power.die0.paused = true) ∧
  (∀ (s : State),
    (s.power.die0.paused = true) →
    Gives (.modeChangeResume) s fun t =>
      t.power.die0.paused = false ∧ t.power.die1.paused = false ∧ t.power.mhz = modeMhz s.order s.modeNow) ∧
  (∀ (s : State) (reading : PowerReading),
    let dieMw := fun k : Nat => reading.dies.toNat / 2 ^ (32 * k) % 2 ^ 32
    let excess := decide (min (modeCap s.modeNow) (s.dnat dkPowerCap * 1000) < reading.package.toNat)
    let allow := allowance (dieBudget s.modeNow s.subModeNow) s.power.unused
    Gives (.governorInterval reading) s fun t =>
      ((modeDies s.modeNow).all (fun k : Nat => t.fld pwrStatusLevel k == nextLevel (s.fld pwrStatusLevel k) (dieMw k) allow (if dieMw k * 20 < allow * 19 then (s.powerDie k).below + 1 else 0) (s.powerDie k).hot excess) = true) ∧
      (t.dget dkPkgPower = reading.package.toNat) ∧
      (s.baseMhz ≤ 1900 → (modeDies s.modeNow).all (fun k : Nat => t.fld pwrStatusAclkMhz k == throttledMhz s.baseMhz (t.fld pwrStatusLevel k)) = true)) ∧
  (∀ (s : State) (reading : PowerReading) (k : Fin 8),
    let mw := reading.perStack.toNat / 2 ^ (32 * k.val) % 2 ^ 32
    let x := s.powerStack k.val
    let low := if mw * 20 < s.stackBudget (k.val / 4) * 19 then x.below + 1 else 0
    ((modeStacks s.modeNow).contains k.val = true) →
    Gives (.governorInterval reading) s fun t =>
      ((t.powerStack k.val).cap = (if x.hot then x.cap / 2 else if s.stackBudget (k.val / 4) < mw then x.cap - 2 ^ 29 else if low = 4 then min (2 ^ 32) (x.cap + 2 ^ 29) else x.cap)) ∧
      ((t.powerStack k.val).below = (if low = 4 then 0 else low))) ∧
  (∀ (s : State) (die : Fin 2),
    Gives (.droopDetect die) s fun t =>
      t.rd .pwrDroopCnt die.val 0 = s.rd .pwrDroopCnt die.val 0 + 1#64 ∧ (t.powerDie die.val).hold = 16) ∧
  (∀ (s : State) (controller : Fin 8) (waited : BitVec 12),
    ((s.powerStack controller.val).ramp = 8) →
    Gives (.hbmRamp controller waited) s fun t =>
      (t.powerStack controller.val).ramp = 1 ∧ t.rd .poolStallCyc (controller.val / 4) 15 = s.rd .poolStallCyc (controller.val / 4) 15 + BitVec.ofNat 64 waited.toNat) ∧
  (∀ (s : State) (controller : Fin 8) (waited : BitVec 12),
    ((s.powerStack controller.val).ramp ≠ 8) →
    Gives (.hbmRamp controller waited) s fun t =>
      (t.powerStack controller.val).ramp = (s.powerStack controller.val).ramp + 1 ∧ t.regs = s.regs) ∧
  (∀ (s : State) (reading : TempReading),
    (tripped reading = false) →
    Gives (.tempSample reading) s fun t =>
      (t.dget (dkDieTemp 0) = dieTemp reading 0 ∧ t.dget (dkDieTemp 1) = dieTemp reading 1 ∧ t.dget dkKeeperTemp = keeperTemp reading) ∧
      ((t.powerDie 0).hot = hotNow (s.powerDie 0).hot (dieTemp reading 0) (s.dget dkThermThrottle * 10)) ∧
      ((List.range 8).all (fun k : Nat => (t.powerStack k).hot == hotNow (s.powerStack k).hot ((stackTemp reading k : Nat) * 10) (s.dget dkHbmThermThrottle * 10)) = true)) ∧
  (∀ (s : State) (reading : TempReading),
    (s.resets.thermal = true ∧ cooled reading = true) →
    Gives (.thermalRelease reading) s fun t =>
      t.resets.thermal = false ∧ t.resets.harbour = true ∧ t.dget dkThermalRestart = 1)

/-- POR_N low, unless a power-on reset is in progress: a power-on reset with cause POR_N; high: no longer held, and the release order starts. Where no reset as deep or deeper is in progress: a rail 10 µs outside its window, while POR_N is high: a power-on reset with cause supply, and the rail holds the package. PERST asserted: a system reset with its cause; deasserted: the release order starts again from fuse sense, once a power-on reset has its supplies. TEMP_SAMPLE at a trip limit: a system reset with cause thermal, held until THERMAL_RELEASE. WATCHDOG_EXPIRY: the first is noted, the second without a service resets the core level. During a reset as deep or deeper a source is recorded in RST_CAUSE and nothing else of it happens. What lies outside the package and the fuses stay. (spec/16_power_measurement_reset.md R754, R770, R775, R776, R777, R778, R786, spec/14_keeper_and_host.md R696) -/
def Obligations.ResetSourcesAreTaken : Prop :=
  (∀ (s : State),
    (s.resetInProgress = false ∨ 0 < s.resets.level) →
    Gives (.porN true) s fun t =>
      (t.resets.level = 0 ∧ t.resets.porLow = true ∧ t.resets.step = 1 ∧ t.fld rstCauseSources 0 = 1 ∧ t.fld rstCauseLevel 0 = 0 ∧ t.fuses = s.fuses ∧ t.order = s.order ∧ t.pending = s.pending) ∧
      (t.mem = s.mem.filter fun x : Nat × Byte => isExternal x.1)) ∧
  (∀ (s : State),
    (s.resetInProgress = true ∧ s.resets.level = 0) →
    Gives (.porN true) s fun t =>
      t.fld rstCauseSources 0 = (s.fld rstCauseSources 0 ||| 1) ∧ t.resets = { s.resets with porLow := true } ∧ t.mem = s.mem) ∧
  (∀ (s : State),
    (s.resets.porLow = false) →
    Gives (.porN false) s fun t =>
      t = s) ∧
  (∀ (s : State),
    (s.resets.porLow = true) →
    Gives (.porN false) s fun t =>
      t = { s with resets := { s.resets with porLow := false, step := 1 } }) ∧
  (∀ (s : State) (rail : Fin 13) (us : BitVec 32),
    (s.resets.porLow = false ∧ (s.resetInProgress = false ∨ 0 < s.resets.level) ∧ 10 ≤ us.toNat) →
    Gives (.railOutOfWindow rail us) s fun t =>
      t.resets.level = 0 ∧ t.resets.railBad.contains rail.val = true ∧ t.fld rstCauseSources 0 = 2 ∧ t.heldInReset = true) ∧
  (∀ (s : State),
    (s.resetInProgress = false ∨ 1 < s.resets.level) →
    Gives (.perst true) s fun t =>
      t.resets.level = 1 ∧ t.resets.perst = true ∧ t.fld rstCauseSources 0 = 4 ∧ t.fld rstCauseLevel 0 = 1) ∧
  (∀ (s : State),
    (s.resets.perst = true) →
    Gives (.perst false) s fun t =>
      t.resets.perst = false ∧ t.resets.step = (if s.resets.level = 0 then min 2 s.resets.step else 2)) ∧
  (∀ (s : State) (reading : TempReading),
    ((s.resetInProgress = false ∨ 1 < s.resets.level) ∧ tripped reading = true) →
    Gives (.tempSample reading) s fun t =>
      t.resets.level = 1 ∧ t.resets.thermal = true ∧ t.fld rstCauseSources 0 = 32 ∧ t.heldInReset = true) ∧
  (∀ (s : State) (serviced : Bool),
    (s.resets.wdogOnce = false ∨ serviced = true) →
    Gives (.watchdogExpiry serviced) s fun t =>
      t = { s with resets := { s.resets with wdogOnce := true } }) ∧
  (∀ (s : State),
    (s.resets.wdogOnce = true ∧ s.resetInProgress = true ∧ s.resets.level ≤ 2) →
    Gives (.watchdogExpiry false) s fun t =>
      t.fld rstCauseSources 0 = (s.fld rstCauseSources 0 ||| 16) ∧ t.resets = s.resets ∧ t.mem = s.mem) ∧
  (∀ (s : State),
    (s.resets.wdogOnce = true ∧ s.resetInProgress = false) →
    Gives (.watchdogExpiry false) s fun t =>
      t.resets.level = 2 ∧ t.fld rstCauseSources 0 = 16 ∧ t.resets.wdogOnce = false ∧ t.security = s.security ∧ t.fabric.links = s.fabric.links)

/-- RST_BLOCK_CMD with GO for a block that nothing concerns: it is being reset, BUSY. BLOCK_RESET_EXECUTE once drained or timed out: its engines are as after reset, its cluster memories zero, the timeout counted. BLOCK_RESET_RELEASE of an executed block, no region waiting: counted, BUSY says whether another of the die is left. RELEASE_STEP with the rails good and nothing holding the package: from step 1 to 2; fuse sense shows the strap; step 3 goes to flash verification or the host; with no slot that verifies, to WAIT_HOST where PCIe is up; UCIe up, with the CXL_REFCLK outputs driven, or FAIL_UCIE; HBM trained or FAIL_HBM; compute released; links of the mode set down; the beam waited for and READY. FABRIC_TRAIN_TIMEOUT after 1 s: the beam is waited for. (spec/16_power_measurement_reset.md R773, R780, R781, R782, R783, R784, spec/14_keeper_and_host.md R672, R704, R705, R706, spec/06_onchip_memory.md R285, spec/19_package_and_pins.md R850) -/
def Obligations.BlockResetsAndTheReleaseOrder : Prop :=
  (∀ (s : State) (die : Fin 2) (value : Word),
    let region := bitOf value 5
    let n := min (if region then 7 else 23) (bitsOf value 0 5)
    (bitOf value 63 = true ∧ s.resets.blocks = [] ∧ s.resets.waiting = []) →
    Gives (.rstBlockCmd die value) s fun t =>
      t.resets.blocks = [({ region := region, number := n } : BlockReset)] ∧ t.fld rstBlockStatusBusy (blockDie region n) = 1) ∧
  (∀ (s : State) (block : BlockId) (us : BitVec 32) (outstanding : BitVec 24),
    let n := block.number.toNat
    let drained := !s.blockBusy block.region n && outstanding == 0#24
    ((s.resets.blocks.any fun b : BlockReset => b.region == block.region && b.number == n && !b.done) = true) →
    (drained = true ∨ s.dnat dkBlockResetTimeout ≤ us.toNat) →
    Gives (.blockResetExecute block us outstanding) s fun t =>
      (((blockClusters block.region n).all fun c : Nat => (List.range 4).all fun k : Nat => t.eng (4 * c + k) == ({} : Engine)) = true) ∧
      (t.fld rstBlockStatusTimedOut (blockDie block.region n) = b2n !drained) ∧
      ((t.resets.blocks.any fun b : BlockReset => b.region == block.region && b.number == n && !b.done) = false) ∧
      (∀ c a : Nat, c ∈ blockClusters block.region n → clusterBase c ≤ a → a < clusterBase c + 0xC0_0000 → t.rdByte a = 0#8)) ∧
  (∀ (s : State) (block : BlockId) (b : BlockReset),
    let n := block.number.toNat
    let rest := s.resets.blocks.filter fun x : BlockReset => !(x.region == block.region && x.number == n)
    (s.resets.blocks.find? (fun x : BlockReset => x.region == block.region && x.number == n && x.done) = some b ∧ s.resets.waiting = []) →
    Gives (.blockResetRelease block) s fun t =>
      (t.resets.blocks = rest ∧ t.rd .rstBlockCnt (blockDie block.region n) 0 = s.rd .rstBlockCnt (blockDie block.region n) 0 + 1#64) ∧
      (t.fld rstBlockStatusBusy (blockDie block.region n) = b2n (rest.any fun x : BlockReset => blockDie x.region x.number == blockDie block.region n))) ∧
  (∀ (s : State) (input : ReleaseInput),
    (input.railsGood = true ∧ s.resets.porLow = false ∧ s.resets.perst = false ∧ s.resets.thermal = false ∧ s.stage < 0xE0 ∧ s.resets.step = 1) →
    Gives (.releaseStep input) s fun t =>
      t.resets.step = 2 ∧ t.resets.railBad = [] ∧ t.regs = s.regs) ∧
  (∀ (s : State) (input : ReleaseInput),
    (s.heldInReset = false ∧ s.stage < 0xE0 ∧ s.resets.step = 2 ∧ input.fuseFail = false) →
    Gives (.releaseStep input) s fun t =>
      t.resets.step = 3 ∧ t.dget dkStrapCode = input.strap.toNat ∧ t.dget dkMooringNodeId = input.strap.toNat / 4 % 8 ∧ t.fld keepBootStatusSource 0 = input.strap.toNat / 32) ∧
  (∀ (s : State) (input : ReleaseInput),
    (s.heldInReset = false ∧ s.stage < 0xE0 ∧ s.resets.step = 3) →
    Gives (.releaseStep input) s fun t =>
      t.resets.step = 4 ∧ t.stage = (if s.fld keepBootStatusSource 0 = 1 then 2 else 3)) ∧
  (∀ (s : State) (input : ReleaseInput),
    (s.heldInReset = false ∧ s.stage < 0xE0 ∧ s.stage ≠ 2 ∧ s.resets.step = 4 ∧ s.resets.level ≠ 2) →
    ((s.checkImage (s.flash.slotByte false) slotSize).cause ≠ 0 ∧ (s.checkImage (s.flash.slotByte true) slotSize).cause ≠ 0) →
    Gives (.releaseStep input) s fun t =>
      t.resets.step = 4 ∧ t.stage = (if input.pcieUp then 2 else 0xE0) ∧ t.fld keepBootStatusLastFail 0 = 0xE0) ∧
  (∀ (s : State) (input : ReleaseInput),
    (s.heldInReset = false ∧ s.stage < 0xE0 ∧ s.resets.step = 5 ∧ s.resets.level ≠ 2 ∧ s.resets.harbour = false ∧ s.dnat dkPowerMode < 2) →
    (input.d2dFail = 0#24 ∧ input.keepFail0 = 0#2 ∧ input.keepFail1 = 0#2 ∧ (List.range 4).all (fun u : Nat => s.fld uciStatusRetired u == 0) = true) →
    Gives (.releaseStep input) s fun t =>
      (t.stage = 5 ∧ t.resets.step = 6 ∧ t.modeNow = s.dnat dkPowerMode ∧ t.power.mhz = modeMhz s.order (s.dnat dkPowerMode)) ∧
      ((List.range 4).all (fun u : Nat => t.fld uciStatusState u == 2 && t.fld uciStatusModulesUp u == if u % 2 = 0 then 24 else 2) = true) ∧
      (∀ p : Fin 4, t.cxlRefclk p = true)) ∧
  (∀ (s : State) (input : ReleaseInput),
    (s.heldInReset = false ∧ s.stage < 0xE0 ∧ s.resets.step = 5 ∧ input.keepFail0 = 3#2) →
    Gives (.releaseStep input) s fun t =>
      t.stage = 0xE2 ∧ t.fld keepBootStatusLastFail 0 = 0xE2 ∧ t.resets.step = 5) ∧
  (∀ (s : State) (input : ReleaseInput),
    (s.heldInReset = false ∧ s.stage < 0xE0 ∧ s.resets.step = 6 ∧ ((modeStacks s.modeNow).any fun k : Nat => input.stackFail.getLsbD k) = true) →
    Gives (.releaseStep input) s fun t =>
      t.stage = 0xE1 ∧ t.fld keepBootStatusLastFail 0 = 0xE1 ∧ t.resets.step = 6) ∧
  (∀ (s : State) (input : ReleaseInput),
    (s.heldInReset = false ∧ s.stage < 0xE0 ∧ s.resets.step = 6 ∧ s.resets.level ≠ 2 ∧ ((modeStacks s.modeNow).any fun k : Nat => input.stackFail.getLsbD k) = false) →
    Gives (.releaseStep input) s fun t =>
      t.stage = 6 ∧ t.resets.step = 7 ∧ (modeStacks s.modeNow).all (fun k : Nat => t.dget (dkStackInfo k) == 1 + stackHeight s.order * 2 + input.stackTemp.toNat * 256) = true) ∧
  (∀ (s : State) (input : ReleaseInput),
    (s.heldInReset = false ∧ s.stage < 0xE0 ∧ s.resets.step = 7) →
    Gives (.releaseStep input) s fun t =>
      t.stage = 7 ∧ t.resets.step = 8 ∧ t.resets.copy = []) ∧
  (∀ (s : State) (input : ReleaseInput),
    (s.heldInReset = false ∧ s.stage < 0xE0 ∧ s.resets.step = 8 ∧ s.resets.level ≠ 2 ∧ s.dnat dkBeamRole ≠ 1) →
    Gives (.releaseStep input) s fun t =>
      (t.stage = 8 ∧ t.resets.step = 9) ∧
      (∀ l : Fin 16, t.linkState l.val = (if s.dget (dkLinkEnable l.val) ≠ 0 ∧ s.modeLink l.val = true then (if s.linkState l.val = 0 then 1 else s.linkState l.val) else 0))) ∧
  (∀ (s : State) (input : ReleaseInput),
    (s.heldInReset = false ∧ s.stage < 0xE0 ∧ s.resets.step = 9 ∧ s.fabricReady = true) →
    Gives (.releaseStep input) s fun t =>
      t.stage = 9 ∧ t.resets.step = 10) ∧
  (∀ (s : State) (input : ReleaseInput),
    (s.heldInReset = false ∧ s.stage < 0xE0 ∧ s.resets.step = 10 ∧ (s.beamState = 2 ∨ s.beamState = 5)) →
    Gives (.releaseStep input) s fun t =>
      t.stage = 0xA ∧ t.resets.step = 11) ∧
  (∀ (s : State) (ms : BitVec 32),
    (s.resets.step = 9 ∧ 1000 ≤ ms.toNat) →
    Gives (.fabricTrainTimeout ms) s fun t =>
      t.stage = 9 ∧ t.resets.step = 10)

/-- FW_UPDATE of a chunk at offset 0 that the server takes: an update of the slot that does not run begins, with its bytes there; one that continues nothing: status 6, the flash as before. FW_VERIFY_DONE of a whole update: by the image check the slot is to be tried first, or erased with the cause and the failure logged; FW_UPDATE_STATUS says which. SVN_COMMIT of true: the floor reads the greater of itself and the running SVN (at most 64). DEBUG_CHALLENGE: a new challenge is there and is the value answered first (no move under way where the answer is in band). DEBUG_UNLOCK: the challenge is void; SEC_STATE is 2 exactly where the policy asks for a signature and the value meets the conditions, else as before. SPDM_REQUEST: with a signature and an index left, the next index is used and NEXT is one higher; before the keeper cores run most requests are not answered; a key exchange without error opens the endpoint's session, END_SESSION ends it; an unsigned GET_MEASUREMENTS gives the six blocks. (The signatures and the challenge are free values; no clause rests on one.) (spec/17_security.md R797, R798, R799, R804, R805, R806, R812, R815, R817, R818, R819, R820) -/
def Obligations.UpdatesCountersAndUnlock : Prop :=
  (∀ (s : State) (src : DictSource) (chunk : List Byte),
    let slot := s.fld secStatusSlot 0 == 0
    let final := natOfBytes ((chunk.drop 4).take 1) % 2 == 1
    (ServerTakes s src dkFwUpdate ∧ natOfBytes (chunk.take 4) = 0 ∧ 9 ≤ chunk.length ∧ chunk.length ≤ 65536) →
    Gives (.fwUpdate src chunk) s fun t =>
      (t.security.update = some ({ slot := slot, next := chunk.length - 8, verifying := final } : FwUpdate) ∧ t.dget dkFwUpdateStatus = (if final then 2 else 1)) ∧
      ((List.range 4).all (fun k : Nat => !decide (k < chunk.length - 8) || t.flash.slotByte slot k == (chunk.drop 8).getD k 0#8) = true) ∧
      (∀ k : Nat, k < chunk.length - 8 → t.flash.slotByte slot k = (chunk.drop 8).getD k 0#8) ∧
      (∀ k : Nat, t.flash.slotByte (!slot) k = s.flash.slotByte (!slot) k)) ∧
  (∀ (s : State) (src : DictSource) (chunk : List Byte),
    (ServerTakes s src dkFwUpdate ∧ natOfBytes (chunk.take 4) ≠ 0 ∧ 9 ≤ chunk.length ∧ chunk.length ≤ 65536) →
    (s.security.update = none) →
    Gives (.fwUpdate src chunk) s fun t =>
      t.dget dkFwUpdateStatus = 6 ∧ t.flash = s.flash ∧ t.dget dkDictRefusedCnt = (s.dget dkDictRefusedCnt + 1) % 2 ^ 64) ∧
  (∀ (s : State) (u : FwUpdate),
    let ck := s.checkImage (s.flash.slotByte u.slot) slotSize
    (s.security.update = some u ∧ u.verifying = true) →
    Gives (.fwVerifyDone) s fun t =>
      (t.security.update = none ∧ t.dget dkFwUpdateStatus = fwOutcome ck.cause) ∧
      (if ck.cause = 0 then t.flash.staged = some u.slot else t.flash.slotByte u.slot 0 = 0xFF#8 ∧ t.fld secVerifyLogCause 0 = ck.cause ∧ t.fld keepBootStatusLastFail 0 = 0xE0 ∧ t.flash.staged ≠ some u.slot)) ∧
  (∀ (s : State) (src : DictSource),
    (ServerTakes s src dkSvnCommit ∧ s.fld secStatusSvn 0 ≤ 64) →
    Gives (.svnCommit src 1#8) s fun t =>
      t.svnFloor = Nat.max s.svnFloor (s.fld secStatusSvn 0) ∧ t.dget dkFwSvnFloor = Nat.max s.svnFloor (s.fld secStatusSvn 0)) ∧
  (∀ (s : State) (src : DictSource),
    let s1 := s.drawChallenge
    (s.serverOff = false ∧ s.repeated src = none ∧ 5 ≤ s.resets.step ∧ (src.transport ≠ .inBand ∨ s.pool.moves = [])) →
    Gives (.debugChallenge src) s fun t =>
      (t.security.challenge = s1.security.challenge ∧ t.security.challenge ≠ none ∧ t.free = s.free + 6 ∧ t.dict = s.dict) ∧
      ((t.session src).map (fun x : DictSession => (x.response.drop 8)) = some (s1.byteValue dkDebugChallenge))) ∧
  (∀ (s : State) (src : DictSource) (value : List Byte),
    (ServerTakes s src dkDebugUnlock ∧ value.length = 2124) →
    Gives (.debugUnlock src value) s fun t =>
      (t.security.challenge = none) ∧
      (t.fld secStatusState 0 = (if s.debugPolicy = 1 ∧ s.unlockGood value = true then 2 else s.fld secStatusState 0))) ∧
  (∀ (s : State) (endpoint : BitVec 32) (code : SpdmCode) (transcript : List Byte),
    (5 ≤ s.resets.step ∧ needsSignature code = true ∧ s.fld secStatusExhausted 0 = 0 ∧ s.fld secLmsStateNext 0 < lmsLimit) →
    Gives (.spdmRequest endpoint code transcript) s fun t =>
      (t.security.spdmError = 0 ∧ t.security.spdmIndex = s.fld secLmsStateNext 0 ∧ t.fld secLmsStateNext 0 = s.fld secLmsStateNext 0 + 1) ∧
      (s.fld secLmsStateReservedEnd 0 ≤ s.fld secLmsStateNext 0 → t.flash.lms = some (s.fld secLmsStateNext 0, s.fld secLmsStateReservedEnd 0 + 256)) ∧
      (code = SpdmCode.keyExchange → t.security.sessions = openSession s.security.sessions endpoint.toNat)) ∧
  (∀ (s : State) (endpoint : BitVec 32) (code : SpdmCode) (transcript : List Byte),
    (s.resets.step < 5 ∧ code ≠ SpdmCode.getVersion ∧ code ≠ SpdmCode.getCapabilities) →
    Gives (.spdmRequest endpoint code transcript) s fun t =>
      t.security = { s.security with spdmError := 0x42 } ∧ t.fuses = s.fuses ∧ t.regs = s.regs) ∧
  (∀ (s : State) (endpoint : BitVec 32) (transcript : List Byte),
    (5 ≤ s.resets.step) →
    Gives (.spdmRequest endpoint .endSession transcript) s fun t =>
      t.security.sessions = s.security.sessions.filter (fun e : Nat => e != endpoint.toNat) ∧ t.regs = s.regs ∧ t.fuses = s.fuses) ∧
  (∀ (s : State) (endpoint : BitVec 32) (transcript : List Byte),
    (5 ≤ s.resets.step) →
    Gives (.spdmRequest endpoint (.getMeasurements false) transcript) s fun t =>
      t.security.spdmBlocks = [1, 2, 3, 4, 5, 6].map s.measurement ∧ t.security.spdmError = 0 ∧ t.regs = s.regs ∧ t.fuses = s.fuses)

/-- TRACE_SINK_WRITE of a source with staged records and no drops, into a gallery sink with room, its place taking writes at once: the oldest record stands at the sink address, PROD advances, and the count; the record leaves the staging. REGISTER_WRITE of an unlocked plain register: RW bits take the value, RW1C bits written 1 clear, every other bit and every other register stays; to an address of no register: no effect; of FAB_VC_CREDITS: the four credits as lowered; of an unlocked ENG_RAMP_PROF: LENGTH as the nearest of 8 to 128, counted as a clamp where that is not the value written. A locked register keeps its lockable bits. (spec/18_observability.md R837, R838, R839, R843, spec/00_scope.md R22, spec/03_cube_array.md R156, R161, spec/06_onchip_memory.md R269, R270, spec/10_links_and_windows.md R509) -/
def Obligations.TraceRecordsAndRegistersAreWritten : Prop :=
  (∀ (s : State) (die : Fin 2) (source : Byte) (x : Words4) (rest : List Words4),
    let key := die.val * 256 + source.toNat
    let pa := s.sinkAt die.val
    (s.sinkFull die.val = false ∧ s.sinkKind die.val = 1 ∧ lookupD ({} : TraceSrc) key s.trace = ({ staged := x :: rest, loss := none } : TraceSrc)) →
    ((List.range 4).all (fun k : Nat => s.takesNow (pa + 8 * k) 8) = true) →
    Gives (.traceSinkWrite die source false) s fun t =>
      (t.memBytes pa 32 = (words4List x).flatMap fun w : Word => bytesOf w.toNat 8) ∧
      (t.fld ctrTraceIdxProd die.val = (s.fld ctrTraceIdxProd die.val + 1) % 2 ^ 32 ∧ t.rd .ctrTraceRecCnt die.val 0 = s.rd .ctrTraceRecCnt die.val 0 + 1#64) ∧
      (lookupD ({} : TraceSrc) key t.trace = ({ staged := rest, loss := none } : TraceSrc))) ∧
  (∀ (s : State) (addr : BitVec 48) (value : Word) (off : Nat) (r : Reg) (u : Nat) (i : Nat),
    let m := BitVec.ofNat 64 ((regInfo r).rw + if s.locked r u then 0 else (regInfo r).rwl)
    let one := BitVec.ofNat 64 (regInfo r).rw1c
    (s.phys addr.toNat = .config off ∧ regPlace off = some (r, u, i)) →
    (r = .engArrayCfg ∨ r = .engArrayStatus ∨ r = .hbmcErrLog ∨ r = .poolDmRestoreAddr ∨ r = .galCfg) →
    Gives (.registerWrite addr value) s fun t =>
      (t.rd r u i = ((s.rd r u i &&& ~~~m) ||| (value &&& m)) &&& ~~~(value &&& one)) ∧
      (t.mem = s.mem ∧ t.engines = s.engines) ∧
      (∀ (q : Reg) (a b : Nat), q ≠ r → t.rd q a b = s.rd q a b)) ∧
  (∀ (s : State) (addr : BitVec 48) (value : Word) (off : Nat),
    (s.phys addr.toNat = .config off ∧ regPlace off = none) →
    Gives (.registerWrite addr value) s fun t =>
      t = s) ∧
  (∀ (s : State) (addr : BitVec 48) (value : Word) (off : Nat) (u : Nat) (i : Nat),
    let len := min 128 (max 8 (bitsOf value 0 8))
    (s.phys addr.toNat = .config off ∧ regPlace off = some (.engRampProf, u, i) ∧ s.fld engArrayCfgLock u = 0) →
    Gives (.registerWrite addr value) s fun t =>
      (bitsOf (t.rd .engRampProf u i) 0 8 = len ∧ bitsOf (t.rd .engRampProf u i) 8 2 = bitsOf value 8 2) ∧
      (t.rd .cluDescClampCnt (engCluster u) 0 = s.rd .cluDescClampCnt (engCluster u) 0 + BitVec.ofNat 64 (if bitsOf value 0 8 = len then 0 else 1))) ∧
  (∀ (s : State) (addr : BitVec 48) (value : Word) (off : Nat) (u : Nat) (i : Nat),
    let x := lowerCredits (bitsOf value 0 10) (bitsOf value 16 10) (bitsOf value 32 10) (bitsOf value 48 10)
    (s.phys addr.toNat = .config off ∧ regPlace off = some (.fabVcCredits, u, i)) →
    Gives (.registerWrite addr value) s fun t =>
      bitsOf (t.rd .fabVcCredits u 0) 0 10 = x.1 ∧ bitsOf (t.rd .fabVcCredits u 0) 16 10 = x.2.1 ∧ bitsOf (t.rd .fabVcCredits u 0) 32 10 = x.2.2.1 ∧ bitsOf (t.rd .fabVcCredits u 0) 48 10 = x.2.2.2)
end

