-- ==== Sys2Proof/Laws/Store.lean ====
section
/-!
SUPPORT. Laws of sparse data by key: a read after a write, and the canonical form that every operation keeps.
-/
namespace Sys2Proof.Machine

variable {α : Type}

theorem lookupD_insertAt_self (d : α) (k : Nat) (v : α) (l : List (Nat × α)) : lookupD d k (insertAt k v l) = v := by
  induction l with
  | nil => simp [insertAt, lookupD]
  | cons p r ih =>
    obtain ⟨j, w⟩ := p
    unfold insertAt
    split
    · simp [lookupD]
    · split
      · simp [lookupD]
      · next h => simp [lookupD, h, ih]

theorem lookupD_insertAt_ne (d : α) {k j : Nat} (h : j ≠ k) (v : α) (l : List (Nat × α)) :
    lookupD d j (insertAt k v l) = lookupD d j l := by
  induction l with
  | nil => simp [insertAt, lookupD, Ne.symm h]
  | cons p r ih =>
    obtain ⟨i, w⟩ := p
    unfold insertAt
    split
    · rw [lookupD, if_neg (Ne.symm h)]
    · split
      · next h2 => subst h2; simp [lookupD, Ne.symm h]
      · simp only [lookupD, ih]

theorem lookupD_eraseAt_self (d : α) (k : Nat) (l : List (Nat × α)) : lookupD d k (eraseAt k l) = d := by
  induction l with
  | nil => rfl
  | cons p r ih =>
    obtain ⟨j, w⟩ := p
    unfold eraseAt at *
    by_cases h : j = k
    · simp [List.filter_cons, h, ih]
    · simp [List.filter_cons, h, lookupD, ih]

theorem lookupD_eraseAt_ne (d : α) {k j : Nat} (h : j ≠ k) (l : List (Nat × α)) :
    lookupD d j (eraseAt k l) = lookupD d j l := by
  induction l with
  | nil => rfl
  | cons p r ih =>
    obtain ⟨i, w⟩ := p
    unfold eraseAt at *
    by_cases hi : i = k
    · subst hi; simp [List.filter_cons, lookupD, Ne.symm h, ih]
    · simp [List.filter_cons, hi, lookupD, ih]

/-- A read of the key written. -/
@[simp] theorem lookupD_putD_self [DecidableEq α] (d : α) (k : Nat) (v : α) (l : List (Nat × α)) :
    lookupD d k (putD d k v l) = v := by
  unfold putD
  split
  · next h => rw [lookupD_eraseAt_self, h]
  · exact lookupD_insertAt_self ..

/-- A read of another key, whatever the two defaults. -/
theorem lookupD_putD_ne [DecidableEq α] (d e : α) {k j : Nat} (h : j ≠ k) (v : α) (l : List (Nat × α)) :
    lookupD d j (putD e k v l) = lookupD d j l := by
  unfold putD
  split
  · exact lookupD_eraseAt_ne d h l
  · exact lookupD_insertAt_ne d h v l

/-- A read of a key outside a run that is written. -/
theorem lookupD_putRun_out [DecidableEq α] (d e : α) (vs : List α) {k j : Nat} (l : List (Nat × α))
    (h : j < k ∨ k + vs.length ≤ j) : lookupD d j (putRun e k vs l) = lookupD d j l := by
  induction vs generalizing k l with
  | nil => rfl
  | cons v vs ih =>
    have h2 : j < k + 1 ∨ k + 1 + vs.length ≤ j := by simp only [List.length_cons] at h; omega
    have h3 : j ≠ k := by simp only [List.length_cons] at h; omega
    rw [putRun, ih _ h2, lookupD_putD_ne d e h3]

/-- A read of a key inside a run that is written. -/
theorem lookupD_putRun_in [DecidableEq α] (d : α) (vs : List α) (k i : Nat) (l : List (Nat × α)) (h : i < vs.length) :
    lookupD d (k + i) (putRun d k vs l) = vs[i] := by
  induction vs generalizing k i l with
  | nil => simp at h
  | cons v vs ih =>
    cases i with
    | zero => rw [putRun, lookupD_putRun_out d d vs _ (by omega)]; simp
    | succ i =>
      have := ih (k + 1) i (putD d k v l) (by simpa using h)
      rw [putRun, show k + (i + 1) = k + 1 + i by omega, this]; rfl

theorem lookupD_filter (d : α) (q : Nat → Bool) (k : Nat) (l : List (Nat × α)) :
    lookupD d k (l.filter fun p => q p.1) = if q k then lookupD d k l else d := by
  induction l with
  | nil => simp [lookupD]
  | cons p r ih =>
    obtain ⟨j, w⟩ := p
    by_cases hj : j = k
    · subst hj; by_cases hq : q j <;> simp [List.filter_cons, hq, lookupD, ih]
    · by_cases hq : q j <;> simp [List.filter_cons, hq, lookupD, ih, hj]

/-! ## The canonical form -/

theorem rising_le [DecidableEq α] (d : α) {lo lo' : Nat} (h : lo' ≤ lo) {l : List (Nat × α)} (r : rising d lo l = true) :
    rising d lo' l = true := by
  cases l with
  | nil => rfl
  | cons p q =>
    obtain ⟨j, v⟩ := p
    simp only [rising, Bool.and_eq_true, decide_eq_true_eq] at *
    exact ⟨⟨by omega, r.1.2⟩, r.2⟩

theorem rising_filter [DecidableEq α] (d : α) (q : Nat × α → Bool) {lo : Nat} {l : List (Nat × α)} (r : rising d lo l = true) :
    rising d lo (l.filter q) = true := by
  induction l generalizing lo with
  | nil => rfl
  | cons p t ih =>
    obtain ⟨j, v⟩ := p
    simp only [rising, Bool.and_eq_true, decide_eq_true_eq] at r
    have := ih r.2
    rw [List.filter_cons]
    split
    · simp only [rising, Bool.and_eq_true, decide_eq_true_eq]; exact ⟨r.1, this⟩
    · exact rising_le d (by omega) this

theorem rising_insertAt [DecidableEq α] (d : α) {k lo : Nat} {v : α} (hv : v ≠ d) (hk : lo ≤ k) {l : List (Nat × α)}
    (r : rising d lo l = true) : rising d lo (insertAt k v l) = true := by
  induction l generalizing lo with
  | nil => simp [insertAt, rising, hk, hv]
  | cons p t ih =>
    obtain ⟨j, w⟩ := p
    have r' := r
    simp only [rising, Bool.and_eq_true, decide_eq_true_eq] at r
    unfold insertAt
    split
    · next h =>
      simp only [rising, Bool.and_eq_true, decide_eq_true_eq]
      exact ⟨⟨hk, by simp [hv]⟩, ⟨by omega, r.1.2⟩, r.2⟩
    · split
      · next h => subst h; simp only [rising, Bool.and_eq_true, decide_eq_true_eq]; exact ⟨⟨hk, by simp [hv]⟩, r.2⟩
      · simp only [rising, Bool.and_eq_true, decide_eq_true_eq]
        exact ⟨r.1, ih (by omega) r.2⟩

theorem canonical_putD [DecidableEq α] (d : α) (k : Nat) (v : α) {l : List (Nat × α)} (r : canonical d l = true) :
    canonical d (putD d k v l) = true := by
  unfold putD
  split
  · exact rising_filter d _ r
  · next h => exact rising_insertAt d h (Nat.zero_le k) r

theorem canonical_putRun [DecidableEq α] (d : α) (k : Nat) (vs : List α) {l : List (Nat × α)} (r : canonical d l = true) :
    canonical d (putRun d k vs l) = true := by
  induction vs generalizing k l with
  | nil => exact r
  | cons v vs ih => exact ih (k + 1) (canonical_putD d k v r)

theorem canonical_filter [DecidableEq α] (d : α) (q : Nat × α → Bool) {l : List (Nat × α)} (r : canonical d l = true) :
    canonical d (l.filter q) = true := rising_filter d q r

theorem canonical_clearRange [DecidableEq α] (d : α) (lo n : Nat) {l : List (Nat × α)} (r : canonical d l = true) :
    canonical d (clearRange lo n l) = true := rising_filter d _ r

theorem canonical_foldl [DecidableEq α] {β : Type} (d : α) (f : β → Nat) (g : β → α) (bs : List β) {l : List (Nat × α)}
    (r : canonical d l = true) : canonical d (bs.foldl (fun m p => putD d (f p) (g p) m) l) = true := by
  induction bs generalizing l with
  | nil => exact r
  | cons b bs ih => exact ih (canonical_putD d _ _ r)

end Sys2Proof.Machine
end

