-- ==== Sys2Proof/Laws/Reach.lean ====
section
/-!
SUPPORT. What a function of the machine can do to the state, said once for each: `Reach F s t` says that `t` agrees with `s` on every
cell outside the footprint `F` (a set of cells as the bits of a number), that the queue is the same, that no blown fuse is lost, and that
memory keeps its canonical form. The files Laws/Reach*.lean give one such lemma for each function, and Laws/Exec*.lean one for each
command.
-/
set_option linter.unusedTactic false
set_option linter.unreachableTactic false
namespace Sys2Proof.Machine

/-- The bit of a cell in a footprint. -/
def Cell.code : Cell → Nat
  | .reg r => 64 + r.ctorIdx
  | .mem => 0
  | .lens => 1
  | .badCheck => 2
  | .hbmDelta => 3
  | .poison => 4
  | .engines => 5
  | .chains => 6
  | .seqs => 7
  | .reruns => 8
  | .regens => 9
  | .sram => 10
  | .hbm => 11
  | .pool => 12
  | .beam => 13
  | .dict => 14
  | .dictBytes => 15
  | .fuses => 16
  | .order => 17
  | .lid => 18
  | .heldWrites => 19
  | .sentMsgs => 20
  | .msgNum => 21
  | .trace => 22
  | .fabric => 23
  | .coll => 24
  | .host => 25
  | .daymarks => 26
  | .copying => 27
  | .restores => 28
  | .power => 29
  | .resets => 30
  | .mooring => 31
  | .flash => 32
  | .security => 33
  | .keeper => 34
  | .cyc => 35
  | .free => 36

/-- What a footprint of cells allows. -/
structure Reach (F : Nat) (s t : State) : Prop where
  pending : t.pending = s.pending
  blown : ∀ k, s.fuses.getLsbD k = true → t.fuses.getLsbD k = true
  mem : canonical 0#8 s.mem = true → canonical 0#8 t.mem = true
  lens : canonical 0#8 s.lens = true → canonical 0#8 t.lens = true
  delta : canonical 0#16 s.hbmDelta = true → canonical 0#16 t.hbmDelta = true
  same : ∀ c : Cell, F.testBit c.code = false → c.same s t

/-- The same of a function that answers a state and something more. -/
structure Reach1 {α : Type} (F : Nat) (s : State) (p : State × α) : Prop where
  fst : Reach F s p.1

theorem Cell.same_refl (s : State) (c : Cell) : c.same s s := by cases c <;> simp [Cell.same]

theorem Cell.same_trans {s t u : State} {c : Cell} (h : c.same s t) (k : c.same t u) : c.same s u := by
  cases c <;> simp only [Cell.same] at * <;> first | exact k.trans h | (intro u i; exact (k u i).trans (h u i))

theorem Reach.refl (F : Nat) (s : State) : Reach F s s :=
  ⟨rfl, fun _ h => h, fun h => h, fun h => h, fun h => h, fun c _ => c.same_refl s⟩

theorem testBit_sub {F G c : Nat} (m : G &&& F = G) (h : F.testBit c = false) : G.testBit c = false := by
  rw [← m, Nat.testBit_and, h, Bool.and_false]

theorem testBit_mono {F G c : Nat} (h : G.testBit c = true) (m : G &&& F = G) : F.testBit c = true := by
  rw [← m, Nat.testBit_and] at h
  exact (Bool.and_eq_true _ _ ▸ h).2

/-- The footprint of every register. -/
theorem allRegs_bit (r : Reg) : (0xfffffffffffffffffffffffffffffffffffffffffffffffffffffffff0000000000000000).testBit (64 + r.ctorIdx) = true := by cases r <;> rfl

theorem sub_own {F G H : Nat} (own : G &&& F = G) (m : H &&& G = H) : H &&& F = H := by
  rw [← m, Nat.and_assoc, own]

theorem Reach.mono {F G : Nat} {s t : State} (h : Reach G s t) (m : G &&& F = G) : Reach F s t :=
  ⟨h.pending, h.blown, h.mem, h.lens, h.delta, fun c hc => h.same c (testBit_sub m hc)⟩

theorem Reach.trans {F : Nat} {r s t : State} (h : Reach F r s) (k : Reach F s t) : Reach F r t :=
  ⟨k.pending.trans h.pending, fun b hb => k.blown b (h.blown b hb), fun x => k.mem (h.mem x), fun x => k.lens (h.lens x),
   fun x => k.delta (h.delta x), fun c hc => Cell.same_trans (h.same c hc) (k.same c hc)⟩

/-- A function's own footprint within a greater one. -/
theorem Reach.then {F G : Nat} {r s t : State} (h : Reach F r s) (k : Reach G s t) (m : G &&& F = G) : Reach F r t :=
  h.trans (k.mono m)

theorem Reach.cut {F : Nat} {r t : State} (x : State) (h : Reach F r x) (k : Reach F r x → Reach F r t) : Reach F r t := k h

theorem Reach.ite {F : Nat} {r s t : State} {c : Prop} [Decidable c] (h : Reach F r s) (k : Reach F r t) :
    Reach F r (if c then s else t) := by split <;> assumption

theorem Reach.foldl {F : Nat} {r : State} {β : Type} {f : State → β → State} {s : State} (l : List β) (h : Reach F r s)
    (k : ∀ t x, Reach F r t → Reach F r (f t x)) : Reach F r (l.foldl f s) := by
  induction l generalizing s with
  | nil => exact h
  | cons b l ih => exact ih (k s b h)

theorem Reach1.pair {α : Type} {F : Nat} {r s : State} {x : α} (h : Reach F r s) : Reach1 F r (s, x) := ⟨h⟩

theorem Reach1.pair_iff {α : Type} {F : Nat} {r s : State} {x : α} : Reach1 F r (s, x) ↔ Reach F r s := ⟨fun h => h.fst, fun h => ⟨h⟩⟩

theorem Reach1.then {α : Type} {F G : Nat} {r s : State} {p : State × α} (h : Reach F r s) (k : Reach1 G s p) (m : G &&& F = G) :
    Reach1 F r p := ⟨Reach.then h k.fst m⟩

theorem Reach1.cut {α : Type} {F : Nat} {r : State} {p : State × α} (x : State) (h : Reach F r x) (k : Reach F r x → Reach1 F r p) :
    Reach1 F r p := k h

theorem Reach1.cutP {α β : Type} {F : Nat} {r : State} {p : State × α} (x : State × β) (h : Reach1 F r x) (k : Reach1 F r x → Reach1 F r p) :
    Reach1 F r p := k h

theorem Reach.cutP {β : Type} {F : Nat} {r t : State} (x : State × β) (h : Reach1 F r x) (k : Reach1 F r x → Reach F r t) :
    Reach F r t := k h

theorem Reach1.ite {α : Type} {F : Nat} {r : State} {p q : State × α} {c : Prop} [Decidable c] (h : Reach1 F r p) (k : Reach1 F r q) :
    Reach1 F r (if c then p else q) := by split <;> assumption

theorem Reach1.foldl {α β : Type} {F : Nat} {r : State} {f : State × α → β → State × α} {p : State × α} (l : List β) (h : Reach1 F r p)
    (k : ∀ q x, Reach1 F r q → Reach1 F r (f q x)) : Reach1 F r (l.foldl f p) := by
  induction l generalizing p with
  | nil => exact h
  | cons b l ih => exact ih (k p b h)

/-- The state of a pair taken apart. -/
theorem Reach.cut1 {α : Type} {F : Nat} {r t u : State} {p : State × α} {x : α} (e : p = (t, x)) (h : Reach1 F r p)
    (k : Reach F r t → Reach F r u) : Reach F r u := k (by rw [e] at h; exact h.fst)

theorem Reach1.cut1 {α β : Type} {F : Nat} {r t : State} {p : State × α} {q : State × β} {x : α} (e : p = (t, x)) (h : Reach1 F r p)
    (k : Reach F r t → Reach1 F r q) : Reach1 F r q := k (by rw [e] at h; exact h.fst)

/-- A state written out by its fields. -/
theorem Reach.lit {F : Nat} {r s t : State} (h : Reach F r s) (hp : t.pending = s.pending)
    (hb : ∀ k, s.fuses.getLsbD k = true → t.fuses.getLsbD k = true) (hm : canonical 0#8 s.mem = true → canonical 0#8 t.mem = true)
    (hl : canonical 0#8 s.lens = true → canonical 0#8 t.lens = true)
    (hd : canonical 0#16 s.hbmDelta = true → canonical 0#16 t.hbmDelta = true)
    (hs : ∀ c : Cell, F.testBit c.code = false → c.same s t) : Reach F r t := h.trans ⟨hp, hb, hm, hl, hd, hs⟩

/-- A state written out by its fields. -/
theorem Reach.litMk {G : Nat} {r s : State} {p_pending p_regs p_mem p_lens p_badCheck p_hbmDelta p_poison p_engines p_chains p_seqs p_reruns p_regens 
    p_sram p_hbm p_pool p_beam p_dict p_dictBytes p_fuses p_order p_lid p_heldWrites p_sentMsgs p_msgNum p_trace 
    p_fabric p_coll p_host p_daymarks p_copying p_restores p_power p_resets p_mooring p_flash p_security p_keeper 
    p_cyc p_free} (h : Reach G r s) (hp : p_pending = s.pending)
    (hb : ∀ k, s.fuses.getLsbD k = true → p_fuses.getLsbD k = true) (hm : canonical 0#8 s.mem = true → canonical 0#8 p_mem = true)
    (hl : canonical 0#8 s.lens = true → canonical 0#8 p_lens = true)
    (hd : canonical 0#16 s.hbmDelta = true → canonical 0#16 p_hbmDelta = true)
    (hs : ∀ c : Cell, G.testBit c.code = false → c.same s (State.mk p_pending p_regs p_mem p_lens p_badCheck p_hbmDelta p_poison p_engines p_chains p_seqs p_reruns p_regens 
    p_sram p_hbm p_pool p_beam p_dict p_dictBytes p_fuses p_order p_lid p_heldWrites p_sentMsgs p_msgNum p_trace 
    p_fabric p_coll p_host p_daymarks p_copying p_restores p_power p_resets p_mooring p_flash p_security p_keeper 
    p_cyc p_free)) : Reach G r (State.mk p_pending p_regs p_mem p_lens p_badCheck p_hbmDelta p_poison p_engines p_chains p_seqs p_reruns p_regens 
    p_sram p_hbm p_pool p_beam p_dict p_dictBytes p_fuses p_order p_lid p_heldWrites p_sentMsgs p_msgNum p_trace 
    p_fabric p_coll p_host p_daymarks p_copying p_restores p_power p_resets p_mooring p_flash p_security p_keeper 
    p_cyc p_free) := h.lit hp hb hm hl hd hs

/-! ## Updates of one field -/

theorem Reach.set_badCheck {F : Nat} {r s : State} {v : _} (h : Reach F r s) (m : F.testBit 2 = true) : Reach F r { s with badCheck := v } :=
  ⟨h.pending, h.blown, h.mem, h.lens, h.delta, fun c hc => by
    cases c <;> first | exact h.same _ hc | exact absurd hc (by simp only [Cell.code, m]; decide)⟩

theorem Reach.set_poison {F : Nat} {r s : State} {v : _} (h : Reach F r s) (m : F.testBit 4 = true) : Reach F r { s with poison := v } :=
  ⟨h.pending, h.blown, h.mem, h.lens, h.delta, fun c hc => by
    cases c <;> first | exact h.same _ hc | exact absurd hc (by simp only [Cell.code, m]; decide)⟩

theorem Reach.set_engines {F : Nat} {r s : State} {v : _} (h : Reach F r s) (m : F.testBit 5 = true) : Reach F r { s with engines := v } :=
  ⟨h.pending, h.blown, h.mem, h.lens, h.delta, fun c hc => by
    cases c <;> first | exact h.same _ hc | exact absurd hc (by simp only [Cell.code, m]; decide)⟩

theorem Reach.set_chains {F : Nat} {r s : State} {v : _} (h : Reach F r s) (m : F.testBit 6 = true) : Reach F r { s with chains := v } :=
  ⟨h.pending, h.blown, h.mem, h.lens, h.delta, fun c hc => by
    cases c <;> first | exact h.same _ hc | exact absurd hc (by simp only [Cell.code, m]; decide)⟩

theorem Reach.set_seqs {F : Nat} {r s : State} {v : _} (h : Reach F r s) (m : F.testBit 7 = true) : Reach F r { s with seqs := v } :=
  ⟨h.pending, h.blown, h.mem, h.lens, h.delta, fun c hc => by
    cases c <;> first | exact h.same _ hc | exact absurd hc (by simp only [Cell.code, m]; decide)⟩

theorem Reach.set_reruns {F : Nat} {r s : State} {v : _} (h : Reach F r s) (m : F.testBit 8 = true) : Reach F r { s with reruns := v } :=
  ⟨h.pending, h.blown, h.mem, h.lens, h.delta, fun c hc => by
    cases c <;> first | exact h.same _ hc | exact absurd hc (by simp only [Cell.code, m]; decide)⟩

theorem Reach.set_regens {F : Nat} {r s : State} {v : _} (h : Reach F r s) (m : F.testBit 9 = true) : Reach F r { s with regens := v } :=
  ⟨h.pending, h.blown, h.mem, h.lens, h.delta, fun c hc => by
    cases c <;> first | exact h.same _ hc | exact absurd hc (by simp only [Cell.code, m]; decide)⟩

theorem Reach.set_sram {F : Nat} {r s : State} {v : _} (h : Reach F r s) (m : F.testBit 10 = true) : Reach F r { s with sram := v } :=
  ⟨h.pending, h.blown, h.mem, h.lens, h.delta, fun c hc => by
    cases c <;> first | exact h.same _ hc | exact absurd hc (by simp only [Cell.code, m]; decide)⟩

theorem Reach.set_hbm {F : Nat} {r s : State} {v : _} (h : Reach F r s) (m : F.testBit 11 = true) : Reach F r { s with hbm := v } :=
  ⟨h.pending, h.blown, h.mem, h.lens, h.delta, fun c hc => by
    cases c <;> first | exact h.same _ hc | exact absurd hc (by simp only [Cell.code, m]; decide)⟩

theorem Reach.set_pool {F : Nat} {r s : State} {v : _} (h : Reach F r s) (m : F.testBit 12 = true) : Reach F r { s with pool := v } :=
  ⟨h.pending, h.blown, h.mem, h.lens, h.delta, fun c hc => by
    cases c <;> first | exact h.same _ hc | exact absurd hc (by simp only [Cell.code, m]; decide)⟩

theorem Reach.set_beam {F : Nat} {r s : State} {v : _} (h : Reach F r s) (m : F.testBit 13 = true) : Reach F r { s with beam := v } :=
  ⟨h.pending, h.blown, h.mem, h.lens, h.delta, fun c hc => by
    cases c <;> first | exact h.same _ hc | exact absurd hc (by simp only [Cell.code, m]; decide)⟩

theorem Reach.set_dict {F : Nat} {r s : State} {v : _} (h : Reach F r s) (m : F.testBit 14 = true) : Reach F r { s with dict := v } :=
  ⟨h.pending, h.blown, h.mem, h.lens, h.delta, fun c hc => by
    cases c <;> first | exact h.same _ hc | exact absurd hc (by simp only [Cell.code, m]; decide)⟩

theorem Reach.set_dictBytes {F : Nat} {r s : State} {v : _} (h : Reach F r s) (m : F.testBit 15 = true) : Reach F r { s with dictBytes := v } :=
  ⟨h.pending, h.blown, h.mem, h.lens, h.delta, fun c hc => by
    cases c <;> first | exact h.same _ hc | exact absurd hc (by simp only [Cell.code, m]; decide)⟩

theorem Reach.set_order {F : Nat} {r s : State} {v : _} (h : Reach F r s) (m : F.testBit 17 = true) : Reach F r { s with order := v } :=
  ⟨h.pending, h.blown, h.mem, h.lens, h.delta, fun c hc => by
    cases c <;> first | exact h.same _ hc | exact absurd hc (by simp only [Cell.code, m]; decide)⟩

theorem Reach.set_lid {F : Nat} {r s : State} {v : _} (h : Reach F r s) (m : F.testBit 18 = true) : Reach F r { s with lid := v } :=
  ⟨h.pending, h.blown, h.mem, h.lens, h.delta, fun c hc => by
    cases c <;> first | exact h.same _ hc | exact absurd hc (by simp only [Cell.code, m]; decide)⟩

theorem Reach.set_heldWrites {F : Nat} {r s : State} {v : _} (h : Reach F r s) (m : F.testBit 19 = true) : Reach F r { s with heldWrites := v } :=
  ⟨h.pending, h.blown, h.mem, h.lens, h.delta, fun c hc => by
    cases c <;> first | exact h.same _ hc | exact absurd hc (by simp only [Cell.code, m]; decide)⟩

theorem Reach.set_sentMsgs {F : Nat} {r s : State} {v : _} (h : Reach F r s) (m : F.testBit 20 = true) : Reach F r { s with sentMsgs := v } :=
  ⟨h.pending, h.blown, h.mem, h.lens, h.delta, fun c hc => by
    cases c <;> first | exact h.same _ hc | exact absurd hc (by simp only [Cell.code, m]; decide)⟩

theorem Reach.set_msgNum {F : Nat} {r s : State} {v : _} (h : Reach F r s) (m : F.testBit 21 = true) : Reach F r { s with msgNum := v } :=
  ⟨h.pending, h.blown, h.mem, h.lens, h.delta, fun c hc => by
    cases c <;> first | exact h.same _ hc | exact absurd hc (by simp only [Cell.code, m]; decide)⟩

theorem Reach.set_trace {F : Nat} {r s : State} {v : _} (h : Reach F r s) (m : F.testBit 22 = true) : Reach F r { s with trace := v } :=
  ⟨h.pending, h.blown, h.mem, h.lens, h.delta, fun c hc => by
    cases c <;> first | exact h.same _ hc | exact absurd hc (by simp only [Cell.code, m]; decide)⟩

theorem Reach.set_fabric {F : Nat} {r s : State} {v : _} (h : Reach F r s) (m : F.testBit 23 = true) : Reach F r { s with fabric := v } :=
  ⟨h.pending, h.blown, h.mem, h.lens, h.delta, fun c hc => by
    cases c <;> first | exact h.same _ hc | exact absurd hc (by simp only [Cell.code, m]; decide)⟩

theorem Reach.set_coll {F : Nat} {r s : State} {v : _} (h : Reach F r s) (m : F.testBit 24 = true) : Reach F r { s with coll := v } :=
  ⟨h.pending, h.blown, h.mem, h.lens, h.delta, fun c hc => by
    cases c <;> first | exact h.same _ hc | exact absurd hc (by simp only [Cell.code, m]; decide)⟩

theorem Reach.set_host {F : Nat} {r s : State} {v : _} (h : Reach F r s) (m : F.testBit 25 = true) : Reach F r { s with host := v } :=
  ⟨h.pending, h.blown, h.mem, h.lens, h.delta, fun c hc => by
    cases c <;> first | exact h.same _ hc | exact absurd hc (by simp only [Cell.code, m]; decide)⟩

theorem Reach.set_daymarks {F : Nat} {r s : State} {v : _} (h : Reach F r s) (m : F.testBit 26 = true) : Reach F r { s with daymarks := v } :=
  ⟨h.pending, h.blown, h.mem, h.lens, h.delta, fun c hc => by
    cases c <;> first | exact h.same _ hc | exact absurd hc (by simp only [Cell.code, m]; decide)⟩

theorem Reach.set_copying {F : Nat} {r s : State} {v : _} (h : Reach F r s) (m : F.testBit 27 = true) : Reach F r { s with copying := v } :=
  ⟨h.pending, h.blown, h.mem, h.lens, h.delta, fun c hc => by
    cases c <;> first | exact h.same _ hc | exact absurd hc (by simp only [Cell.code, m]; decide)⟩

theorem Reach.set_restores {F : Nat} {r s : State} {v : _} (h : Reach F r s) (m : F.testBit 28 = true) : Reach F r { s with restores := v } :=
  ⟨h.pending, h.blown, h.mem, h.lens, h.delta, fun c hc => by
    cases c <;> first | exact h.same _ hc | exact absurd hc (by simp only [Cell.code, m]; decide)⟩

theorem Reach.set_power {F : Nat} {r s : State} {v : _} (h : Reach F r s) (m : F.testBit 29 = true) : Reach F r { s with power := v } :=
  ⟨h.pending, h.blown, h.mem, h.lens, h.delta, fun c hc => by
    cases c <;> first | exact h.same _ hc | exact absurd hc (by simp only [Cell.code, m]; decide)⟩

theorem Reach.set_resets {F : Nat} {r s : State} {v : _} (h : Reach F r s) (m : F.testBit 30 = true) : Reach F r { s with resets := v } :=
  ⟨h.pending, h.blown, h.mem, h.lens, h.delta, fun c hc => by
    cases c <;> first | exact h.same _ hc | exact absurd hc (by simp only [Cell.code, m]; decide)⟩

theorem Reach.set_mooring {F : Nat} {r s : State} {v : _} (h : Reach F r s) (m : F.testBit 31 = true) : Reach F r { s with mooring := v } :=
  ⟨h.pending, h.blown, h.mem, h.lens, h.delta, fun c hc => by
    cases c <;> first | exact h.same _ hc | exact absurd hc (by simp only [Cell.code, m]; decide)⟩

theorem Reach.set_flash {F : Nat} {r s : State} {v : _} (h : Reach F r s) (m : F.testBit 32 = true) : Reach F r { s with flash := v } :=
  ⟨h.pending, h.blown, h.mem, h.lens, h.delta, fun c hc => by
    cases c <;> first | exact h.same _ hc | exact absurd hc (by simp only [Cell.code, m]; decide)⟩

theorem Reach.set_security {F : Nat} {r s : State} {v : _} (h : Reach F r s) (m : F.testBit 33 = true) : Reach F r { s with security := v } :=
  ⟨h.pending, h.blown, h.mem, h.lens, h.delta, fun c hc => by
    cases c <;> first | exact h.same _ hc | exact absurd hc (by simp only [Cell.code, m]; decide)⟩

theorem Reach.set_keeper {F : Nat} {r s : State} {v : _} (h : Reach F r s) (m : F.testBit 34 = true) : Reach F r { s with keeper := v } :=
  ⟨h.pending, h.blown, h.mem, h.lens, h.delta, fun c hc => by
    cases c <;> first | exact h.same _ hc | exact absurd hc (by simp only [Cell.code, m]; decide)⟩

theorem Reach.set_cyc {F : Nat} {r s : State} {v : _} (h : Reach F r s) (m : F.testBit 35 = true) : Reach F r { s with cyc := v } :=
  ⟨h.pending, h.blown, h.mem, h.lens, h.delta, fun c hc => by
    cases c <;> first | exact h.same _ hc | exact absurd hc (by simp only [Cell.code, m]; decide)⟩

theorem Reach.set_free {F : Nat} {r s : State} {v : _} (h : Reach F r s) (m : F.testBit 36 = true) : Reach F r { s with free := v } :=
  ⟨h.pending, h.blown, h.mem, h.lens, h.delta, fun c hc => by
    cases c <;> first | exact h.same _ hc | exact absurd hc (by simp only [Cell.code, m]; decide)⟩

theorem Reach.set_mem {F : Nat} {r s : State} {v : List Host.Cell} (h : Reach F r s)
    (w : canonical 0#8 s.mem = true → canonical 0#8 v = true) (m : F.testBit 0 = true) : Reach F r { s with mem := v } :=
  ⟨h.pending, h.blown, fun x => w (h.mem x), h.lens, h.delta, fun c hc => by
    cases c <;> first | exact h.same _ hc | exact absurd hc (by simp only [Cell.code, m]; decide)⟩

theorem Reach.set_lens {F : Nat} {r s : State} {v : Bytes} (h : Reach F r s)
    (w : canonical 0#8 s.lens = true → canonical 0#8 v = true) (m : F.testBit 1 = true) : Reach F r { s with lens := v } :=
  ⟨h.pending, h.blown, h.mem, fun x => w (h.lens x), h.delta, fun c hc => by
    cases c <;> first | exact h.same _ hc | exact absurd hc (by simp only [Cell.code, m]; decide)⟩

theorem Reach.set_hbmDelta {F : Nat} {r s : State} {v : List (Nat × BitVec 16)} (h : Reach F r s)
    (w : canonical 0#16 s.hbmDelta = true → canonical 0#16 v = true) (m : F.testBit 3 = true) :
    Reach F r { s with hbmDelta := v } :=
  ⟨h.pending, h.blown, h.mem, h.lens, fun x => w (h.delta x), fun c hc => by
    cases c <;> first | exact h.same _ hc | exact absurd hc (by simp only [Cell.code, m]; decide)⟩

theorem Reach.set_fuses {F : Nat} {r s : State} {v : BitVec 4096} (h : Reach F r s)
    (w : ∀ k, s.fuses.getLsbD k = true → v.getLsbD k = true) (m : F.testBit 16 = true) : Reach F r { s with fuses := v } :=
  ⟨h.pending, fun k x => w k (h.blown k x), h.mem, h.lens, h.delta, fun c hc => by
    cases c <;> first | exact h.same _ hc | exact absurd hc (by simp only [Cell.code, m]; decide)⟩

/-! ## Registers -/

theorem regKey_ne {a b : Reg} (h : b ≠ a) (u i v j : Nat) : regKey b v j ≠ regKey a u i := by
  intro e
  have h1 := Nat.mod_lt u (show 0 < 128 by decide)
  have h2 := Nat.mod_lt v (show 0 < 128 by decide)
  have h3 := Nat.mod_lt i (show 0 < 8192 by decide)
  have h4 := Nat.mod_lt j (show 0 < 8192 by decide)
  unfold regKey at e
  have h5 : b.ctorIdx = a.ctorIdx := by omega
  exact h (by rw [← Reg.ofNat_ctorIdx b, h5, Reg.ofNat_ctorIdx])

/-- A read of the register written. -/
@[simp] theorem State.rd_wr_self (s : State) (r : Reg) (u i : Nat) (v : Word) : (s.wr r u i v).rd r u i = v := by
  simp [State.rd, State.wr]

/-- A read of another register. -/
theorem State.rd_wr_ne {a b : Reg} (h : b ≠ a) (s : State) (u i v j : Nat) (w : Word) :
    (s.wr a u i w).rd b v j = s.rd b v j := by
  simp only [State.rd, State.wr]
  exact lookupD_putD_ne _ _ (regKey_ne h u i v j) _ _

theorem Reach.wr {F : Nat} {r s : State} {a : Reg} {u i : Nat} {w : Word} (h : Reach F r s) (m : F.testBit (64 + a.ctorIdx) = true) :
    Reach F r (s.wr a u i w) :=
  ⟨h.pending, h.blown, h.mem, h.lens, h.delta, fun c hc => by
    cases c with
    | reg b =>
      have hb : b ≠ a := by rintro rfl; simp only [Cell.code, m] at hc; cases hc
      intro v j
      rw [State.rd_wr_ne hb]
      exact h.same _ hc v j
    | _ => exact h.same _ hc⟩

theorem Reach.bump {F : Nat} {r s : State} {a : Reg} {u i n : Nat} (h : Reach F r s) (m : F.testBit (64 + a.ctorIdx) = true) :
    Reach F r (s.bump a u i n) := h.wr m

theorem Reach.bumpBoth {F : Nat} {r s : State} {a : Reg} {n : Nat} (h : Reach F r s) (m : F.testBit (64 + a.ctorIdx) = true) :
    Reach F r (s.bumpBoth a n) := (h.bump m).bump m

theorem Reach.setFld {F : Nat} {r s : State} {f : Field} {u i n : Nat} (h : Reach F r s)
    (m : F.testBit (64 + f.reg.ctorIdx) = true) : Reach F r (s.setFld f u i n) := h.wr m

theorem Reach.storeReg {F : Nat} {r s : State} {a : Reg} {u i : Nat} {w : Word} (h : Reach F r s)
    (m : F.testBit (64 + a.ctorIdx) = true) : Reach F r (s.storeReg a u i w) := h.wr m

end Sys2Proof.Machine
end

