-- ==== Sys2Proof/Laws/ReachOps.lean ====
section
/-!
SUPPORT. The footprint of each function of Machine/Ops.lean.
-/
set_option linter.unusedTactic false
set_option linter.unreachableTactic false
namespace Sys2Proof.Machine

theorem State.dput_reach (s : State) (k : Nat) (v : Int) : Reach 0x4000 s (State.dput s k v) := by
  have h0 := Reach.refl 0x4000 s
  unfold State.dput
  repeat' (first
    | with_reducible assumption
    | exact rfl
    | with_reducible (first
        | refine Reach.set_dict ?_ ?_))

theorem State.dbump_reach (s : State) (k : Nat) : Reach 0x4000 s (State.dbump s k) := by
  have h0 := Reach.refl 0x4000 s
  unfold State.dbump
  repeat' (first
    | with_reducible assumption
    | exact rfl
    | with_reducible (first
        | apply Reach.then ?_ (State.dput_reach ..) ?_))

theorem State.dputBytes_reach (s : State) (k : Nat) (bs : List Byte) : Reach 0x8000 s (State.dputBytes s k bs) := by
  have h0 := Reach.refl 0x8000 s
  unfold State.dputBytes
  repeat' (first
    | with_reducible assumption
    | exact rfl
    | with_reducible (first
        | refine Reach.set_dictBytes ?_ ?_))

theorem State.clamped_reach (s : State) (cluster : Nat) (n : Nat) : Reach 0x10000000000000000000000000000 s (State.clamped s cluster n) := by
  have h0 := Reach.refl 0x10000000000000000000000000000 s
  unfold State.clamped
  repeat' (first
    | with_reducible assumption
    | exact rfl
    | with_reducible (first
        | refine Reach.bump ?_ ?_
        | refine Reach.ite ?_ ?_)
    | (split <;> try (refine Reach.cut1 (by assumption) ?_ (fun _ => ?_)))
    | split)

theorem State.setEng_reach (s : State) (e : Nat) (x : Engine) : Reach 0x20 s (State.setEng s e x) := by
  have h0 := Reach.refl 0x20 s
  unfold State.setEng
  repeat' (first
    | with_reducible assumption
    | exact rfl
    | with_reducible (first
        | refine Reach.set_engines ?_ ?_))

theorem State.sendIrq_reach (s : State) (v : Nat) : Reach 0x2000000 s (State.sendIrq s v) := by
  have h0 := Reach.refl 0x2000000 s
  unfold State.sendIrq
  repeat' (first
    | with_reducible assumption
    | exact rfl
    | with_reducible (first
        | refine Reach.ite ?_ ?_)
    | (extract_lets +onlyGivenNames -underBinder -merge -useContext x; first | (refine Reach.cut x ?_ (fun _ => ?_); rotate_left; clear_value x; rotate_left; unfold x; clear x) | (have _ := fun a => x a; unfold x; clear x) | clear_value x)
    | (split <;> try (refine Reach.cut1 (by assumption) ?_ (fun _ => ?_)))
    | split
    | with_reducible (first
        | refine Reach.set_host ?_ ?_))

theorem State.raiseIrq_reach (s : State) (v : Nat) : Reach 0x2000000 s (State.raiseIrq s v) := by
  have h0 := Reach.refl 0x2000000 s
  unfold State.raiseIrq
  repeat' (first
    | with_reducible assumption
    | exact rfl
    | with_reducible (first
        | refine Reach.ite ?_ ?_
        | apply Reach.then ?_ (State.sendIrq_reach ..) ?_)
    | (split <;> try (refine Reach.cut1 (by assumption) ?_ (fun _ => ?_)))
    | split
    | with_reducible (first
        | refine Reach.set_host ?_ ?_))

theorem State.wrByte_reach (s : State) (pa : Nat) (b : Byte) : Reach 0x1 s (State.wrByte s pa b) := by
  have h0 := Reach.refl 0x1 s
  unfold State.wrByte
  repeat' (first
    | with_reducible assumption
    | exact rfl
    | with_reducible (first
        | refine Reach.set_mem ?_ ?_ ?_)
    | exact fun h => canonical_putD _ _ _ h
    | exact fun h => canonical_foldl _ _ _ _ (canonical_clearRange _ _ _ h)
    | exact fun h => canonical_putRun _ _ _ h
    | exact fun h => canonical_clearRange _ _ _ h
    | exact fun h => canonical_filter _ _ h)

theorem State.setFrame_reach (s : State) (n : Nat) (f : FrameRec) : Reach 0x1000 s (State.setFrame s n f) := by
  have h0 := Reach.refl 0x1000 s
  unfold State.setFrame
  repeat' (first
    | with_reducible assumption
    | exact rfl
    | with_reducible (first
        | refine Reach.set_pool ?_ ?_))

theorem State.showUse_reach (s : State) (owner : Nat) : Reach 0x10000000000000000000000000000000000004000 s (State.showUse s owner) := by
  have h0 := Reach.refl 0x10000000000000000000000000000000000004000 s
  unfold State.showUse
  repeat' (first
    | with_reducible assumption
    | exact rfl
    | with_reducible (first
        | refine Reach.wr ?_ ?_
        | apply Reach.then ?_ (State.dput_reach ..) ?_)
    | (extract_lets +onlyGivenNames -underBinder -merge -useContext x; first | (refine Reach.cut x ?_ (fun _ => ?_); rotate_left; clear_value x; rotate_left; unfold x; clear x) | (have _ := fun a => x a; unfold x; clear x) | clear_value x)
    | dsimp -zeta only [])

theorem State.freeFrame_reach (s : State) (n : Nat) : Reach 0x10000000000000000000000000000000000005000 s (State.freeFrame s n) := by
  have h0 := Reach.refl 0x10000000000000000000000000000000000005000 s
  unfold State.freeFrame
  repeat' (first
    | with_reducible assumption
    | exact rfl
    | with_reducible (first
        | apply Reach.then ?_ (State.setFrame_reach ..) ?_
        | apply Reach.then ?_ (State.showUse_reach ..) ?_)
    | (extract_lets +onlyGivenNames -underBinder -merge -useContext x; first | (refine Reach.cut x ?_ (fun _ => ?_); rotate_left; clear_value x; rotate_left; unfold x; clear x) | (have _ := fun a => x a; unfold x; clear x) | clear_value x))

theorem State.cancelMove_reach (s : State) (m : Move) : Reach 0x10220000000000000000000000000000000005000 s (State.cancelMove s m) := by
  have h0 := Reach.refl 0x10220000000000000000000000000000000005000 s
  unfold State.cancelMove
  repeat' (first
    | with_reducible assumption
    | exact rfl
    | with_reducible (first
        | refine Reach.bump ?_ ?_
        | refine Reach.setFld ?_ ?_
        | refine Reach.ite ?_ ?_
        | apply Reach.then ?_ (State.freeFrame_reach ..) ?_
        | apply Reach.then ?_ (State.setFrame_reach ..) ?_)
    | (extract_lets +onlyGivenNames -underBinder -merge -useContext x; first | (refine Reach.cut x ?_ (fun _ => ?_); rotate_left; clear_value x; rotate_left; unfold x; clear x) | (have _ := fun a => x a; unfold x; clear x) | clear_value x)
    | (split <;> try (refine Reach.cut1 (by assumption) ?_ (fun _ => ?_)))
    | split
    | with_reducible (first
        | refine Reach.set_pool ?_ ?_))

theorem State.touchWrite_reach (s : State) (pa : Nat) (len : Nat) : Reach 0x10220000000000000000000000000000000005000 s (State.touchWrite s pa len) := by
  have h0 := Reach.refl 0x10220000000000000000000000000000000005000 s
  unfold State.touchWrite
  repeat' (first
    | with_reducible assumption
    | exact rfl
    | simp -zeta -iota -proj only [Reach1.pair_iff]
    | with_reducible exact Reach1.fst (by assumption)
    | with_reducible (first
        | refine Reach.ite ?_ ?_
        | refine Reach1.ite ?_ ?_
        | refine Reach.foldl _ ?_ (fun _ _ _ => ?_)
        | refine Reach1.foldl _ ?_ (fun _ _ _ => ?_)
        | refine Reach1.fst (Reach1.foldl _ ?_ (fun _ _ _ => ?_))
        | apply Reach.then ?_ (State.cancelMove_reach ..) ?_
        | apply Reach.then ?_ (State.setFrame_reach ..) ?_)
    | (extract_lets +onlyGivenNames -underBinder -merge -useContext x; first | (refine Reach.cut x ?_ (fun _ => ?_); rotate_left; clear_value x; rotate_left; unfold x; clear x) | (refine Reach.cutP x ?_ (fun _ => ?_); rotate_left; clear_value x; rotate_left; unfold x; clear x) | (have _ := fun a => x a; unfold x; clear x) | clear_value x)
    | (split <;> try (refine Reach.cut1 (by assumption) ?_ (fun _ => ?_)))
    | split)

theorem State.touchRead_reach (s : State) (pa : Nat) : Reach 0x1000 s (State.touchRead s pa) := by
  have h0 := Reach.refl 0x1000 s
  unfold State.touchRead
  repeat' (first
    | with_reducible assumption
    | exact rfl
    | with_reducible (first
        | refine Reach.ite ?_ ?_
        | apply Reach.then ?_ (State.setFrame_reach ..) ?_)
    | (extract_lets +onlyGivenNames -underBinder -merge -useContext x; first | (refine Reach.cut x ?_ (fun _ => ?_); rotate_left; clear_value x; rotate_left; unfold x; clear x) | (have _ := fun a => x a; unfold x; clear x) | clear_value x)
    | (split <;> try (refine Reach.cut1 (by assumption) ?_ (fun _ => ?_)))
    | split)

theorem State.mergeSector_reach (s : State) (sector : Nat) : Reach 0x9 s (State.mergeSector s sector) := by
  have h0 := Reach.refl 0x9 s
  unfold State.mergeSector
  repeat' (first
    | with_reducible assumption
    | exact rfl
    | with_reducible (first
        | refine Reach.ite ?_ ?_)
    | (split <;> try (refine Reach.cut1 (by assumption) ?_ (fun _ => ?_)))
    | split
    | exact fun h => h
    | with_reducible (first
        | refine Reach.set_mem ?_ ?_ ?_
        | refine Reach.set_hbmDelta ?_ ?_ ?_
        | refine Reach.litMk ?_ rfl (fun _ h => h) ?_ ?_ ?_ ?_)
    | exact fun h => canonical_putD _ _ _ h
    | exact fun h => canonical_foldl _ _ _ _ (canonical_clearRange _ _ _ h)
    | exact fun h => canonical_putRun _ _ _ h
    | exact fun h => canonical_clearRange _ _ _ h
    | exact fun h => canonical_filter _ _ h
    | (intro (c : Cell) (hc : _); cases c <;> first | rfl | exact absurd hc (by decide) | exact fun _ _ => rfl))

theorem State.mergeEnds_reach (s : State) (pa : Nat) (n : Nat) : Reach 0x9 s (State.mergeEnds s pa n) := by
  have h0 := Reach.refl 0x9 s
  unfold State.mergeEnds
  repeat' (first
    | with_reducible assumption
    | exact rfl
    | with_reducible (first
        | refine Reach.ite ?_ ?_
        | apply Reach.then ?_ (State.mergeSector_reach ..) ?_)
    | (extract_lets +onlyGivenNames -underBinder -merge -useContext x; first | (refine Reach.cut x ?_ (fun _ => ?_); rotate_left; clear_value x; rotate_left; unfold x; clear x) | (have _ := fun a => x a; unfold x; clear x) | clear_value x)
    | (split <;> try (refine Reach.cut1 (by assumption) ?_ (fun _ => ?_)))
    | split)

theorem State.dropWritebacks_reach (s : State) (lo : Nat) (n : Nat) : Reach 0x800 s (State.dropWritebacks s lo n) := by
  have h0 := Reach.refl 0x800 s
  unfold State.dropWritebacks
  repeat' (first
    | with_reducible assumption
    | exact rfl
    | with_reducible (first
        | refine Reach.set_hbm ?_ ?_))

theorem State.putRaw_reach (s : State) (pa : Nat) (bs : List Byte) : Reach 0x81d s (State.putRaw s pa bs) := by
  have h0 := Reach.refl 0x81d s
  unfold State.putRaw
  repeat' (first
    | with_reducible assumption
    | exact rfl
    | with_reducible (first
        | apply Reach.then ?_ (State.dropWritebacks_reach ..) ?_
        | apply Reach.then ?_ (State.mergeEnds_reach ..) ?_)
    | (extract_lets +onlyGivenNames -underBinder -merge -useContext x; first | (refine Reach.cut x ?_ (fun _ => ?_); rotate_left; clear_value x; rotate_left; unfold x; clear x) | (have _ := fun a => x a; unfold x; clear x) | clear_value x)
    | exact fun h => h
    | with_reducible (first
        | refine Reach.set_mem ?_ ?_ ?_
        | refine Reach.set_hbmDelta ?_ ?_ ?_
        | refine Reach.set_poison ?_ ?_
        | refine Reach.set_badCheck ?_ ?_
        | refine Reach.set_hbm ?_ ?_
        | refine Reach.litMk ?_ rfl (fun _ h => h) ?_ ?_ ?_ ?_)
    | exact fun h => canonical_putD _ _ _ h
    | exact fun h => canonical_foldl _ _ _ _ (canonical_clearRange _ _ _ h)
    | exact fun h => canonical_putRun _ _ _ h
    | exact fun h => canonical_clearRange _ _ _ h
    | exact fun h => canonical_filter _ _ h
    | (intro (c : Cell) (hc : _); cases c <;> first | rfl | exact absurd hc (by decide) | exact fun _ _ => rfl))

theorem State.touchTable_reach (s : State) (pa : Nat) (n : Nat) : Reach 0x2000 s (State.touchTable s pa n) := by
  have h0 := Reach.refl 0x2000 s
  unfold State.touchTable
  repeat' (first
    | with_reducible assumption
    | exact rfl
    | with_reducible (first
        | refine Reach.ite ?_ ?_)
    | (extract_lets +onlyGivenNames -underBinder -merge -useContext x; first | (refine Reach.cut x ?_ (fun _ => ?_); rotate_left; clear_value x; rotate_left; unfold x; clear x) | (have _ := fun a => x a; unfold x; clear x) | clear_value x)
    | (split <;> try (refine Reach.cut1 (by assumption) ?_ (fun _ => ?_)))
    | split
    | with_reducible (first
        | refine Reach.set_beam ?_ ?_))

theorem State.putMem_reach (s : State) (pa : Nat) (bs : List Byte) : Reach 0x1022000000000000000000000000000000000781d s (State.putMem s pa bs) := by
  have h0 := Reach.refl 0x1022000000000000000000000000000000000781d s
  unfold State.putMem
  repeat' (first
    | with_reducible assumption
    | exact rfl
    | with_reducible (first
        | refine Reach.ite ?_ ?_
        | apply Reach.then ?_ (State.putRaw_reach ..) ?_
        | apply Reach.then ?_ (State.touchTable_reach ..) ?_
        | apply Reach.then ?_ (State.touchWrite_reach ..) ?_)
    | (split <;> try (refine Reach.cut1 (by assumption) ?_ (fun _ => ?_)))
    | split)

theorem State.setGalBank_reach (s : State) (die : Nat) (bank : Nat) (b : GalBank) : Reach 0x400 s (State.setGalBank s die bank b) := by
  have h0 := Reach.refl 0x400 s
  unfold State.setGalBank
  repeat' (first
    | with_reducible assumption
    | exact rfl
    | with_reducible (first
        | refine Reach.set_sram ?_ ?_))

theorem State.galEnter_reach (s : State) (die : Nat) (bank : Nat) (r : GalRequest) : Reach 0x20000000000000000000000000000400 s (State.galEnter s die bank r) := by
  have h0 := Reach.refl 0x20000000000000000000000000000400 s
  unfold State.galEnter
  repeat' (first
    | with_reducible assumption
    | exact rfl
    | with_reducible (first
        | refine Reach.bump ?_ ?_
        | refine Reach.ite ?_ ?_
        | apply Reach.then ?_ (State.setGalBank_reach ..) ?_)
    | (extract_lets +onlyGivenNames -underBinder -merge -useContext x; first | (refine Reach.cut x ?_ (fun _ => ?_); rotate_left; clear_value x; rotate_left; unfold x; clear x) | (have _ := fun a => x a; unfold x; clear x) | clear_value x)
    | (split <;> try (refine Reach.cut1 (by assumption) ?_ (fun _ => ?_)))
    | split)

theorem State.cluEnter_reach (s : State) (cluster : Nat) (bank : Nat) (rank : Nat) : Reach 0x400 s (State.cluEnter s cluster bank rank) := by
  have h0 := Reach.refl 0x400 s
  unfold State.cluEnter
  repeat' (first
    | with_reducible assumption
    | exact rfl
    | (extract_lets +onlyGivenNames -underBinder -merge -useContext x; first | (refine Reach.cut x ?_ (fun _ => ?_); rotate_left; clear_value x; rotate_left; unfold x; clear x) | (have _ := fun a => x a; unfold x; clear x) | clear_value x)
    | with_reducible (first
        | refine Reach.set_sram ?_ ?_))

theorem State.useSlots_reach (s : State) (a : Access) (pa : Nat) (n : Nat) : Reach 0x20000000000000000000000000000400 s (State.useSlots s a pa n) := by
  have h0 := Reach.refl 0x20000000000000000000000000000400 s
  unfold State.useSlots
  repeat' (first
    | with_reducible assumption
    | exact rfl
    | simp -zeta -iota -proj only [Reach1.pair_iff]
    | with_reducible exact Reach1.fst (by assumption)
    | with_reducible (first
        | refine Reach.foldl _ ?_ (fun _ _ _ => ?_)
        | refine Reach1.foldl _ ?_ (fun _ _ _ => ?_)
        | refine Reach1.fst (Reach1.foldl _ ?_ (fun _ _ _ => ?_))
        | apply Reach.then ?_ (State.cluEnter_reach ..) ?_
        | apply Reach.then ?_ (State.galEnter_reach ..) ?_)
    | (extract_lets +onlyGivenNames -underBinder -merge -useContext x; first | (refine Reach.cut x ?_ (fun _ => ?_); rotate_left; clear_value x; rotate_left; unfold x; clear x) | (refine Reach.cutP x ?_ (fun _ => ?_); rotate_left; clear_value x; rotate_left; unfold x; clear x) | (have _ := fun a => x a; unfold x; clear x) | clear_value x)
    | (split <;> try (refine Reach.cut1 (by assumption) ?_ (fun _ => ?_)))
    | split
    | dsimp -zeta only [])

theorem State.logFirst_reach {F : Nat} {r0 : State} {s : State} {r : Reg} {u : Nat} {v : Nat} {ovf : Nat} {w : Nat} (h0 : Reach F r0 s) (m : F.testBit (64 + r.ctorIdx) = true)
    (own : 0x0 &&& F = 0x0) : Reach F r0 (State.logFirst s r u v ovf w) := by
  unfold State.logFirst
  repeat' (first
    | with_reducible assumption
    | exact rfl
    | with_reducible (first
        | refine Reach.wr ?_ ?_
        | refine Reach.ite ?_ ?_
        | exact m
        | exact sub_own own rfl)
    | (split <;> try (refine Reach.cut1 (by assumption) ?_ (fun _ => ?_)))
    | split)

theorem State.logParityAt_reach (s : State) (pa : Nat) (req : Nat) (charge : Nat) : Reach 0xb000000c00000000000000000000000 s (State.logParityAt s pa req charge) := by
  have h0 := Reach.refl 0xb000000c00000000000000000000000 s
  unfold State.logParityAt
  repeat' (first
    | with_reducible assumption
    | exact rfl
    | with_reducible (first
        | refine Reach.bump ?_ ?_
        | refine Reach.setFld ?_ ?_
        | refine State.logFirst_reach ?_ ?_ ?_)
    | (extract_lets +onlyGivenNames -underBinder -merge -useContext x; first | (refine Reach.cut x ?_ (fun _ => ?_); rotate_left; clear_value x; rotate_left; unfold x; clear x) | (have _ := fun a => x a; unfold x; clear x) | clear_value x)
    | (split <;> try (refine Reach.cut1 (by assumption) ?_ (fun _ => ?_)))
    | split)

theorem State.logParity_reach (s : State) (a : Access) (pa : Nat) : Reach 0xb000000c00000000000000000000000 s (State.logParity s a pa) := by
  have h0 := Reach.refl 0xb000000c00000000000000000000000 s
  unfold State.logParity
  repeat' (first
    | with_reducible assumption
    | exact rfl
    | with_reducible (first
        | apply Reach.then ?_ (State.logParityAt_reach ..) ?_)
    | (split <;> try (refine Reach.cut1 (by assumption) ?_ (fun _ => ?_)))
    | split)

theorem State.logLens_reach (s : State) (e : Nat) (off : Nat) (req : Nat) (charge : Nat) : Reach 0x500000000000000000000 s (State.logLens s e off req charge) := by
  have h0 := Reach.refl 0x500000000000000000000 s
  unfold State.logLens
  repeat' (first
    | with_reducible assumption
    | exact rfl
    | with_reducible (first
        | refine Reach.bump ?_ ?_
        | refine State.logFirst_reach ?_ ?_ ?_))

theorem State.refetchClean_reach (s : State) (pa : Nat) : Reach 0x81d s (State.refetchClean s pa) := by
  have h0 := Reach.refl 0x81d s
  unfold State.refetchClean
  repeat' (first
    | with_reducible assumption
    | exact rfl
    | simp -zeta -iota -proj only [Reach1.pair_iff]
    | with_reducible exact Reach1.fst (by assumption)
    | with_reducible (first
        | refine Reach.foldl _ ?_ (fun _ _ _ => ?_)
        | refine Reach1.foldl _ ?_ (fun _ _ _ => ?_)
        | refine Reach1.fst (Reach1.foldl _ ?_ (fun _ _ _ => ?_))
        | apply Reach.then ?_ (State.putRaw_reach ..) ?_)
    | (extract_lets +onlyGivenNames -underBinder -merge -useContext x; first | (refine Reach.cut x ?_ (fun _ => ?_); rotate_left; clear_value x; rotate_left; unfold x; clear x) | (refine Reach.cutP x ?_ (fun _ => ?_); rotate_left; clear_value x; rotate_left; unfold x; clear x) | (have _ := fun a => x a; unfold x; clear x) | clear_value x)
    | (split <;> try (refine Reach.cut1 (by assumption) ?_ (fun _ => ?_)))
    | split
    | with_reducible (first
        | refine Reach.set_poison ?_ ?_))

theorem State.checkSram_reach (s : State) (a : Access) (pa : Nat) (n : Nat) : Reach 0x1b000000c0000000000000000000081d s (State.checkSram s a pa n) := by
  have h0 := Reach.refl 0x1b000000c0000000000000000000081d s
  unfold State.checkSram
  repeat' (first
    | with_reducible assumption
    | exact rfl
    | simp -zeta -iota -proj only [Reach1.pair_iff]
    | with_reducible exact Reach1.fst (by assumption)
    | with_reducible (first
        | refine Reach.bump ?_ ?_
        | refine Reach.ite ?_ ?_
        | refine Reach1.ite ?_ ?_
        | refine Reach.foldl _ ?_ (fun _ _ _ => ?_)
        | refine Reach1.foldl _ ?_ (fun _ _ _ => ?_)
        | refine Reach1.fst (Reach1.foldl _ ?_ (fun _ _ _ => ?_))
        | apply Reach.then ?_ (State.logParity_reach ..) ?_
        | apply Reach.then ?_ (State.refetchClean_reach ..) ?_)
    | (extract_lets +onlyGivenNames -underBinder -merge -useContext x; first | (refine Reach.cut x ?_ (fun _ => ?_); rotate_left; clear_value x; rotate_left; unfold x; clear x) | (refine Reach.cutP x ?_ (fun _ => ?_); rotate_left; clear_value x; rotate_left; unfold x; clear x) | (have _ := fun a => x a; unfold x; clear x) | clear_value x)
    | (split <;> try (refine Reach.cut1 (by assumption) ?_ (fun _ => ?_)))
    | split)

theorem State.logUe_reach (s : State) (ctl : Nat) (pa : Nat) (owner : Nat) (sev : Bool) (mark : Bool) : Reach 0x100000000000000000000000000000000000 s (State.logUe s ctl pa owner sev mark) := by
  have h0 := Reach.refl 0x100000000000000000000000000000000000 s
  unfold State.logUe
  repeat' (first
    | with_reducible assumption
    | exact rfl
    | with_reducible (first
        | refine State.logFirst_reach ?_ ?_ ?_))

theorem State.countSector_reach (s : State) (ctl : Nat) : Reach 0x10000000000000000000000000000000000000000000000000000000000000000000 s (State.countSector s ctl) := by
  have h0 := Reach.refl 0x10000000000000000000000000000000000000000000000000000000000000000000 s
  unfold State.countSector
  repeat' (first
    | with_reducible assumption
    | exact rfl
    | with_reducible (first
        | refine Reach.bump ?_ ?_))

theorem State.postUe_reach (s : State) (base : Nat) : Reach 0x1000 s (State.postUe s base) := by
  have h0 := Reach.refl 0x1000 s
  unfold State.postUe
  repeat' (first
    | with_reducible assumption
    | exact rfl
    | with_reducible (first
        | refine Reach.set_pool ?_ ?_))

theorem State.noteSector_reach (s : State) (ctl : Nat) (pa : Nat) (owner : Nat) (severity : Bool) : Reach1 0x107800000000000000000000000000001800 s (State.noteSector s ctl pa owner severity) := by
  have h0 := Reach.refl 0x107800000000000000000000000000001800 s
  unfold State.noteSector
  repeat' (first
    | with_reducible assumption
    | exact rfl
    | simp -zeta -iota -proj only [Reach1.pair_iff]
    | with_reducible exact Reach1.fst (by assumption)
    | with_reducible (first
        | refine Reach.bump ?_ ?_
        | refine Reach.ite ?_ ?_
        | refine Reach1.ite ?_ ?_
        | apply Reach.then ?_ (State.logUe_reach ..) ?_
        | apply Reach.then ?_ (State.postUe_reach ..) ?_)
    | (extract_lets +onlyGivenNames -underBinder -merge -useContext x; first | (refine Reach.cut x ?_ (fun _ => ?_); rotate_left; clear_value x; rotate_left; unfold x; clear x) | (refine Reach1.cut x ?_ (fun _ => ?_); rotate_left; clear_value x; rotate_left; unfold x; clear x) | (have _ := fun a => x a; unfold x; clear x) | clear_value x)
    | (split <;> try (first | refine Reach1.cut1 (by assumption) ?_ (fun _ => ?_) | refine Reach.cut1 (by assumption) ?_ (fun _ => ?_)))
    | split
    | with_reducible (first
        | refine Reach.set_hbm ?_ ?_))

theorem State.readSector_reach (s : State) (ctl : Nat) (pa : Nat) (owner : Nat) (severity : Bool) : Reach1 0x10000000000000000000000000000000107800000000000000000000000000001800 s (State.readSector s ctl pa owner severity) := by
  have h0 := Reach.refl 0x10000000000000000000000000000000107800000000000000000000000000001800 s
  unfold State.readSector
  repeat' (first
    | with_reducible assumption
    | exact rfl
    | simp -zeta -iota -proj only [Reach1.pair_iff]
    | with_reducible exact Reach1.fst (by assumption)
    | with_reducible (first
        | apply Reach.then ?_ (State.countSector_reach ..) ?_
        | apply Reach1.then ?_ (State.noteSector_reach ..) ?_
        | apply Reach1.fst (Reach1.then ?_ (State.noteSector_reach ..) ?_)))

theorem State.setChan_reach (s : State) (ctl : Nat) (pc : Nat) (c : PseudoChannel) : Reach 0x800 s (State.setChan s ctl pc c) := by
  have h0 := Reach.refl 0x800 s
  unfold State.setChan
  repeat' (first
    | with_reducible assumption
    | exact rfl
    | with_reducible (first
        | refine Reach.set_hbm ?_ ?_))

theorem State.queueWriteback_reach (s : State) (pa : Nat) (owner : Nat) : Reach 0x800 s (State.queueWriteback s pa owner) := by
  have h0 := Reach.refl 0x800 s
  unfold State.queueWriteback
  repeat' (first
    | with_reducible assumption
    | exact rfl
    | with_reducible (first
        | refine Reach.ite ?_ ?_
        | apply Reach.then ?_ (State.setChan_reach ..) ?_)
    | (extract_lets +onlyGivenNames -underBinder -merge -useContext x; first | (refine Reach.cut x ?_ (fun _ => ?_); rotate_left; clear_value x; rotate_left; unfold x; clear x) | (have _ := fun a => x a; unfold x; clear x) | clear_value x)
    | (split <;> try (refine Reach.cut1 (by assumption) ?_ (fun _ => ?_)))
    | split)

theorem State.useSector_reach (s : State) (owner : Nat) (base : Nat) : Reach 0x10000000000000000000000000000000107800000000000000000000000000001800 s (State.useSector s owner base) := by
  have h0 := Reach.refl 0x10000000000000000000000000000000107800000000000000000000000000001800 s
  unfold State.useSector
  repeat' (first
    | with_reducible assumption
    | exact rfl
    | simp -zeta -iota -proj only [Reach1.pair_iff]
    | with_reducible exact Reach1.fst (by assumption)
    | with_reducible (first
        | apply Reach.then ?_ (State.queueWriteback_reach ..) ?_
        | apply Reach1.then ?_ (State.readSector_reach ..) ?_
        | apply Reach1.fst (Reach1.then ?_ (State.readSector_reach ..) ?_))
    | (split <;> try (refine Reach.cut1 (by assumption) ?_ (fun _ => ?_)))
    | split)

theorem State.serveHbm_reach (s : State) (ctl : Nat) (r : HbmReq) (severity : Bool) : Reach 0x1000000000000000000000000001022011f80000000000000000000000000008781d s (State.serveHbm s ctl r severity) := by
  have h0 := Reach.refl 0x1000000000000000000000000001022011f80000000000000000000000000008781d s
  unfold State.serveHbm
  repeat' (first
    | with_reducible assumption
    | exact rfl
    | simp -zeta -iota -proj only [Reach1.pair_iff]
    | with_reducible exact Reach1.fst (by assumption)
    | with_reducible (first
        | refine Reach.bump ?_ ?_
        | refine Reach.ite ?_ ?_
        | apply Reach.then ?_ (State.countSector_reach ..) ?_
        | apply Reach.then ?_ (State.putMem_reach ..) ?_
        | apply Reach.then ?_ (State.putRaw_reach ..) ?_
        | apply Reach.then ?_ (State.queueWriteback_reach ..) ?_
        | apply Reach1.then ?_ (State.readSector_reach ..) ?_
        | apply Reach1.fst (Reach1.then ?_ (State.readSector_reach ..) ?_)
        | apply Reach.then ?_ (State.touchRead_reach ..) ?_)
    | (extract_lets +onlyGivenNames -underBinder -merge -useContext x; first | (refine Reach.cut x ?_ (fun _ => ?_); rotate_left; clear_value x; rotate_left; unfold x; clear x) | (refine Reach.cutP x ?_ (fun _ => ?_); rotate_left; clear_value x; rotate_left; unfold x; clear x) | (have _ := fun a => x a; unfold x; clear x) | clear_value x)
    | (split <;> try (refine Reach.cut1 (by assumption) ?_ (fun _ => ?_)))
    | split
    | with_reducible (first
        | refine Reach.set_heldWrites ?_ ?_
        | refine Reach.set_hbm ?_ ?_))

theorem State.flushSectors_reach (s : State) (pa : Nat) (n : Nat) : Reach 0x1000000000000000000000000001022011f80000000000000000000000000008781d s (State.flushSectors s pa n) := by
  have h0 := Reach.refl 0x1000000000000000000000000001022011f80000000000000000000000000008781d s
  unfold State.flushSectors
  repeat' (first
    | with_reducible assumption
    | exact rfl
    | simp -zeta -iota -proj only [Reach1.pair_iff]
    | with_reducible exact Reach1.fst (by assumption)
    | with_reducible (first
        | refine Reach.ite ?_ ?_
        | refine Reach1.ite ?_ ?_
        | refine Reach.foldl _ ?_ (fun _ _ _ => ?_)
        | refine Reach1.foldl _ ?_ (fun _ _ _ => ?_)
        | refine Reach1.fst (Reach1.foldl _ ?_ (fun _ _ _ => ?_))
        | apply Reach.then ?_ (State.serveHbm_reach ..) ?_)
    | (extract_lets +onlyGivenNames -underBinder -merge -useContext x; first | (refine Reach.cut x ?_ (fun _ => ?_); rotate_left; clear_value x; rotate_left; unfold x; clear x) | (refine Reach.cutP x ?_ (fun _ => ?_); rotate_left; clear_value x; rotate_left; unfold x; clear x) | (have _ := fun a => x a; unfold x; clear x) | clear_value x)
    | (split <;> try (refine Reach.cut1 (by assumption) ?_ (fun _ => ?_)))
    | split
    | dsimp -zeta only []
    | with_reducible (first
        | refine Reach.set_hbm ?_ ?_))

theorem State.didRead_reach (s : State) (a : Access) (pa : Nat) (n : Nat) : Reach 0x1000000000000000000000000001022011f83b000000c00000000000000000087c1d s (State.didRead s a pa n) := by
  have h0 := Reach.refl 0x1000000000000000000000000001022011f83b000000c00000000000000000087c1d s
  unfold State.didRead
  repeat' (first
    | with_reducible assumption
    | exact rfl
    | simp -zeta -iota -proj only [Reach1.pair_iff]
    | with_reducible exact Reach1.fst (by assumption)
    | with_reducible (first
        | refine Reach.ite ?_ ?_
        | refine Reach1.ite ?_ ?_
        | refine Reach.foldl _ ?_ (fun _ _ _ => ?_)
        | refine Reach1.foldl _ ?_ (fun _ _ _ => ?_)
        | refine Reach1.fst (Reach1.foldl _ ?_ (fun _ _ _ => ?_))
        | apply Reach.then ?_ (State.checkSram_reach ..) ?_
        | apply Reach.then ?_ (State.flushSectors_reach ..) ?_
        | apply Reach.then ?_ (State.touchRead_reach ..) ?_
        | apply Reach.then ?_ (State.useSector_reach ..) ?_
        | apply Reach.then ?_ (State.useSlots_reach ..) ?_)
    | (extract_lets +onlyGivenNames -underBinder -merge -useContext x; first | (refine Reach.cut x ?_ (fun _ => ?_); rotate_left; clear_value x; rotate_left; unfold x; clear x) | (refine Reach.cutP x ?_ (fun _ => ?_); rotate_left; clear_value x; rotate_left; unfold x; clear x) | (have _ := fun a => x a; unfold x; clear x) | clear_value x)
    | (split <;> try (refine Reach.cut1 (by assumption) ?_ (fun _ => ?_)))
    | split)

theorem State.markPoison_reach (s : State) (pa : Nat) : Reach 0x18 s (State.markPoison s pa) := by
  have h0 := Reach.refl 0x18 s
  unfold State.markPoison
  repeat' (first
    | with_reducible assumption
    | exact rfl
    | (split <;> try (refine Reach.cut1 (by assumption) ?_ (fun _ => ?_)))
    | split
    | with_reducible (first
        | refine Reach.set_hbmDelta ?_ ?_ ?_
        | refine Reach.set_poison ?_ ?_)
    | exact fun h => canonical_putD _ _ _ h
    | exact fun h => canonical_foldl _ _ _ _ (canonical_clearRange _ _ _ h)
    | exact fun h => canonical_putRun _ _ _ h
    | exact fun h => canonical_clearRange _ _ _ h
    | exact fun h => canonical_filter _ _ h)

theorem State.leavePoison_reach (s : State) (bad : List Nat) : Reach 0x80018 s (State.leavePoison s bad) := by
  have h0 := Reach.refl 0x80018 s
  unfold State.leavePoison
  repeat' (first
    | with_reducible assumption
    | exact rfl
    | simp -zeta -iota -proj only [Reach1.pair_iff]
    | with_reducible exact Reach1.fst (by assumption)
    | with_reducible (first
        | refine Reach.ite ?_ ?_
        | refine Reach1.ite ?_ ?_
        | refine Reach.foldl _ ?_ (fun _ _ _ => ?_)
        | refine Reach1.foldl _ ?_ (fun _ _ _ => ?_)
        | refine Reach1.fst (Reach1.foldl _ ?_ (fun _ _ _ => ?_))
        | apply Reach.then ?_ (State.markPoison_reach ..) ?_)
    | (split <;> try (refine Reach.cut1 (by assumption) ?_ (fun _ => ?_)))
    | split
    | with_reducible (first
        | refine Reach.set_heldWrites ?_ ?_))

theorem State.devWrite_reach (s : State) (a : Access) (pa : Nat) (bs : List Byte) : Reach 0x40001000000000000000000000000001022011f820000000000000000000000000087c1d s (State.devWrite s a pa bs) := by
  have h0 := Reach.refl 0x40001000000000000000000000000001022011f820000000000000000000000000087c1d s
  unfold State.devWrite
  repeat' (first
    | with_reducible assumption
    | exact rfl
    | simp -zeta -iota -proj only [Reach1.pair_iff]
    | with_reducible exact Reach1.fst (by assumption)
    | with_reducible (first
        | refine Reach.bump ?_ ?_
        | refine Reach.ite ?_ ?_
        | refine Reach1.ite ?_ ?_
        | refine Reach.foldl _ ?_ (fun _ _ _ => ?_)
        | refine Reach1.foldl _ ?_ (fun _ _ _ => ?_)
        | refine Reach1.fst (Reach1.foldl _ ?_ (fun _ _ _ => ?_))
        | apply Reach.then ?_ (State.countSector_reach ..) ?_
        | apply Reach.then ?_ (State.flushSectors_reach ..) ?_
        | apply Reach.then ?_ (State.putMem_reach ..) ?_
        | apply Reach.then ?_ (State.useSlots_reach ..) ?_)
    | (extract_lets +onlyGivenNames -underBinder -merge -useContext x; first | (refine Reach.cut x ?_ (fun _ => ?_); rotate_left; clear_value x; rotate_left; unfold x; clear x) | (refine Reach.cutP x ?_ (fun _ => ?_); rotate_left; clear_value x; rotate_left; unfold x; clear x) | (have _ := fun a => x a; unfold x; clear x) | clear_value x)
    | (split <;> try (refine Reach.cut1 (by assumption) ?_ (fun _ => ?_)))
    | split
    | with_reducible (first
        | refine Reach.set_heldWrites ?_ ?_))

theorem State.devWriteWords_reach (s : State) (a : Access) (pa : Nat) (y0 : List Word) : Reach 0x40001000000000000000000000000001022011f820000000000000000000000000087c1d s (State.devWriteWords s a pa y0) := by
  induction y0 generalizing s a pa with
  | nil =>
    have h0 := Reach.refl 0x40001000000000000000000000000001022011f820000000000000000000000000087c1d s
    unfold State.devWriteWords
    repeat' (first
    | with_reducible assumption
    | exact rfl
    | with_reducible (first
        | apply Reach.then ?_ (State.devWrite_reach ..) ?_
        | apply Reach.then ?_ (ih ..) ?_)
    | (split <;> try (refine Reach.cut1 (by assumption) ?_ (fun _ => ?_)))
    | split)
  | cons _ _ ih =>
    have h0 := Reach.refl 0x40001000000000000000000000000001022011f820000000000000000000000000087c1d s
    unfold State.devWriteWords
    repeat' (first
    | with_reducible assumption
    | exact rfl
    | with_reducible (first
        | apply Reach.then ?_ (State.devWrite_reach ..) ?_
        | apply Reach.then ?_ (ih ..) ?_)
    | (split <;> try (refine Reach.cut1 (by assumption) ?_ (fun _ => ?_)))
    | split)

theorem State.noteWalk_reach (s : State) (die : Nat) (x : Xlat) : Reach 0x60000000000000000000000000000000000000000000 s (State.noteWalk s die x) := by
  have h0 := Reach.refl 0x60000000000000000000000000000000000000000000 s
  unfold State.noteWalk
  repeat' (first
    | with_reducible assumption
    | exact rfl
    | with_reducible (first
        | refine Reach.bump ?_ ?_
        | refine Reach.ite ?_ ?_)
    | (extract_lets +onlyGivenNames -underBinder -merge -useContext x; first | (refine Reach.cut x ?_ (fun _ => ?_); rotate_left; clear_value x; rotate_left; unfold x; clear x) | (have _ := fun a => x a; unfold x; clear x) | clear_value x)
    | (split <;> try (refine Reach.cut1 (by assumption) ?_ (fun _ => ?_)))
    | split)

theorem State.virtWrite_reach (s : State) (a : Access) (die : Nat) (va : Nat) (bs : List Byte) : Reach 0x40001000000000000000000000000001022011f820000000000000000000000000087c1d s (State.virtWrite s a die va bs) := by
  have h0 := Reach.refl 0x40001000000000000000000000000001022011f820000000000000000000000000087c1d s
  unfold State.virtWrite
  repeat' (first
    | with_reducible assumption
    | exact rfl
    | with_reducible (first
        | apply Reach.then ?_ (State.devWrite_reach ..) ?_)
    | (split <;> try (refine Reach.cut1 (by assumption) ?_ (fun _ => ?_)))
    | split)

theorem State.postFlags_reach (s : State) (idx : Nat) (f : Flags) : Reach 0x400000000000000000000000000000000 s (State.postFlags s idx f) := by
  have h0 := Reach.refl 0x400000000000000000000000000000000 s
  unfold State.postFlags
  repeat' (first
    | with_reducible assumption
    | exact rfl
    | with_reducible (first
        | refine Reach.wr ?_ ?_
        | refine Reach.ite ?_ ?_)
    | (extract_lets +onlyGivenNames -underBinder -merge -useContext x; first | (refine Reach.cut x ?_ (fun _ => ?_); rotate_left; clear_value x; rotate_left; unfold x; clear x) | (have _ := fun a => x a; unfold x; clear x) | clear_value x)
    | (split <;> try (refine Reach.cut1 (by assumption) ?_ (fun _ => ?_)))
    | split)

theorem State.lensPut_reach (s : State) (e : Nat) (a : Nat) (bs : List Byte) : Reach 0x16 s (State.lensPut s e a bs) := by
  have h0 := Reach.refl 0x16 s
  unfold State.lensPut
  repeat' (first
    | with_reducible assumption
    | exact rfl
    | (extract_lets +onlyGivenNames -underBinder -merge -useContext x; first | (refine Reach.cut x ?_ (fun _ => ?_); rotate_left; clear_value x; rotate_left; unfold x; clear x) | (have _ := fun a => x a; unfold x; clear x) | clear_value x)
    | exact fun h => h
    | with_reducible (first
        | refine Reach.set_lens ?_ ?_ ?_
        | refine Reach.set_poison ?_ ?_
        | refine Reach.set_badCheck ?_ ?_
        | refine Reach.litMk ?_ rfl (fun _ h => h) ?_ ?_ ?_ ?_)
    | exact fun h => canonical_putD _ _ _ h
    | exact fun h => canonical_foldl _ _ _ _ (canonical_clearRange _ _ _ h)
    | exact fun h => canonical_putRun _ _ _ h
    | exact fun h => canonical_clearRange _ _ _ h
    | exact fun h => canonical_filter _ _ h
    | (intro (c : Cell) (hc : _); cases c <;> first | rfl | exact absurd hc (by decide) | exact fun _ _ => rfl))

theorem State.lensPutF32_reach (s : State) (e : Nat) (a : Nat) (v : F32) : Reach 0x16 s (State.lensPutF32 s e a v) := by
  have h0 := Reach.refl 0x16 s
  unfold State.lensPutF32
  repeat' (first
    | with_reducible assumption
    | exact rfl
    | with_reducible (first
        | apply Reach.then ?_ (State.lensPut_reach ..) ?_))

end Sys2Proof.Machine
end

