-- ==== Sys2Proof/Laws/ReachStreams.lean ====
section
/-!
SUPPORT. The footprint of each function of Machine/Streams.lean.
-/
set_option linter.unusedTactic false
set_option linter.unreachableTactic false
namespace Sys2Proof.Machine

theorem State.beginMsg_reach (s : State) (m : OriginMsg) : Reach 0x300000 s (State.beginMsg s m) := by
  have h0 := Reach.refl 0x300000 s
  unfold State.beginMsg
  repeat' (first
    | with_reducible assumption
    | exact rfl
    | (extract_lets +onlyGivenNames -underBinder -merge -useContext x; first | (refine Reach.cut x ?_ (fun _ => ?_); rotate_left; clear_value x; rotate_left; unfold x; clear x) | (have _ := fun a => x a; unfold x; clear x) | clear_value x)
    | exact fun h => h
    | with_reducible (first
        | refine Reach.set_sentMsgs ?_ ?_
        | refine Reach.set_msgNum ?_ ?_
        | refine Reach.litMk ?_ rfl (fun _ h => h) ?_ ?_ ?_ ?_)
    | (intro (c : Cell) (hc : _); cases c <;> first | rfl | exact absurd hc (by decide) | exact fun _ _ => rfl))

theorem State.vPutPage_reach (s : State) (die : Nat) (a : Access) (va : Nat) (bs : List Byte) : Reach 0x40001000000000000000000000006001022011f820000000000000000000000002387c1d s (State.vPutPage s die a va bs).st := by
  have h0 := Reach.refl 0x40001000000000000000000000006001022011f820000000000000000000000002387c1d s
  unfold State.vPutPage
  repeat' (first
    | with_reducible assumption
    | exact rfl
    | with_reducible (first
        | refine Reach.ite ?_ ?_
        | apply Reach.then ?_ (State.beginMsg_reach ..) ?_
        | apply Reach.then ?_ (State.devWrite_reach ..) ?_
        | apply Reach.then ?_ (State.noteWalk_reach ..) ?_)
    | (extract_lets +onlyGivenNames -underBinder -merge -useContext x; first | (refine Reach.cut x ?_ (fun _ => ?_); rotate_left; clear_value x; rotate_left; unfold x; clear x) | (have _ := fun a => x a; unfold x; clear x) | clear_value x)
    | (split <;> try (refine Reach.cut1 (by assumption) ?_ (fun _ => ?_)))
    | split
    | with_reducible (first
        | refine Reach.set_host ?_ ?_))

theorem State.vPutFuel_reach (s : State) (die : Nat) (a : Access) (y0 : Nat) (y1 : Nat) (y2 : List Byte) : Reach 0x40001000000000000000000000006001022011f820000000000000000000000002387c1d s (State.vPutFuel s die a y0 y1 y2).st := by
  induction y0 generalizing s die a y1 y2 with
  | zero =>
    have h0 := Reach.refl 0x40001000000000000000000000006001022011f820000000000000000000000002387c1d s
    unfold State.vPutFuel
    repeat' (first
    | with_reducible assumption
    | exact rfl
    | with_reducible (first
        | refine Reach.ite ?_ ?_
        | apply Reach.then ?_ (State.noteWalk_reach ..) ?_
        | apply Reach.then ?_ (State.vPutPage_reach ..) ?_
        | apply Reach.then ?_ (ih ..) ?_)
    | (extract_lets +onlyGivenNames -underBinder -merge -useContext x; first | (refine Reach.cut x ?_ (fun _ => ?_); rotate_left; clear_value x; rotate_left; unfold x; clear x) | (refine Reach.cut x.st ?_ (fun _ => ?_); rotate_left; clear_value x; rotate_left; unfold x; clear x) | (have _ := fun a => x a; unfold x; clear x) | clear_value x)
    | (split <;> try (refine Reach.cut1 (by assumption) ?_ (fun _ => ?_)))
    | split)
  | succ _ ih =>
    have h0 := Reach.refl 0x40001000000000000000000000006001022011f820000000000000000000000002387c1d s
    unfold State.vPutFuel
    repeat' (first
    | with_reducible assumption
    | exact rfl
    | with_reducible (first
        | refine Reach.ite ?_ ?_
        | apply Reach.then ?_ (State.noteWalk_reach ..) ?_
        | apply Reach.then ?_ (State.vPutPage_reach ..) ?_
        | apply Reach.then ?_ (ih ..) ?_)
    | (extract_lets +onlyGivenNames -underBinder -merge -useContext x; first | (refine Reach.cut x ?_ (fun _ => ?_); rotate_left; clear_value x; rotate_left; unfold x; clear x) | (refine Reach.cut x.st ?_ (fun _ => ?_); rotate_left; clear_value x; rotate_left; unfold x; clear x) | (have _ := fun a => x a; unfold x; clear x) | clear_value x)
    | (split <;> try (refine Reach.cut1 (by assumption) ?_ (fun _ => ?_)))
    | split)

theorem State.vPut_reach (s : State) (die : Nat) (a : Access) (va : Nat) (bs : List Byte) : Reach 0x40001000000000000000000000006001022011f820000000000000000000000002387c1d s (State.vPut s die a va bs).st := by
  have h0 := Reach.refl 0x40001000000000000000000000006001022011f820000000000000000000000002387c1d s
  unfold State.vPut
  repeat' (first
    | with_reducible assumption
    | exact rfl
    | with_reducible (first
        | apply Reach.then ?_ (State.vPutFuel_reach ..) ?_)
    | (split <;> try (refine Reach.cut1 (by assumption) ?_ (fun _ => ?_)))
    | split)

theorem State.putScales_reach (s : State) (die : Nat) (a : Access) (d : Desc) (r : Nat) (y0 : List (Nat × Nat)) : Reach 0x40001000000000000000000000006001022011f820000000000000000000000002387c1d s (State.putScales s die a d r y0).st := by
  induction y0 generalizing s die a d r with
  | nil =>
    have h0 := Reach.refl 0x40001000000000000000000000006001022011f820000000000000000000000002387c1d s
    unfold State.putScales
    repeat' (first
    | with_reducible assumption
    | exact rfl
    | with_reducible (first
        | apply Reach.then ?_ (State.vPut_reach ..) ?_
        | apply Reach.then ?_ (ih ..) ?_)
    | (extract_lets +onlyGivenNames -underBinder -merge -useContext x; first | (refine Reach.cut x ?_ (fun _ => ?_); rotate_left; clear_value x; rotate_left; unfold x; clear x) | (refine Reach.cut x.st ?_ (fun _ => ?_); rotate_left; clear_value x; rotate_left; unfold x; clear x) | (have _ := fun a => x a; unfold x; clear x) | clear_value x)
    | (split <;> try (refine Reach.cut1 (by assumption) ?_ (fun _ => ?_)))
    | split)
  | cons _ _ ih =>
    have h0 := Reach.refl 0x40001000000000000000000000006001022011f820000000000000000000000002387c1d s
    unfold State.putScales
    repeat' (first
    | with_reducible assumption
    | exact rfl
    | with_reducible (first
        | apply Reach.then ?_ (State.vPut_reach ..) ?_
        | apply Reach.then ?_ (ih ..) ?_)
    | (extract_lets +onlyGivenNames -underBinder -merge -useContext x; first | (refine Reach.cut x ?_ (fun _ => ?_); rotate_left; clear_value x; rotate_left; unfold x; clear x) | (refine Reach.cut x.st ?_ (fun _ => ?_); rotate_left; clear_value x; rotate_left; unfold x; clear x) | (have _ := fun a => x a; unfold x; clear x) | clear_value x)
    | (split <;> try (refine Reach.cut1 (by assumption) ?_ (fun _ => ?_)))
    | split)

theorem State.streamRow_reach (s : State) (die : Nat) (rev : Nat) (a : Access) (d : Desc) (r : Nat) (els : List (Nat × Val)) : Reach 0x40001000000000000000000000006001022011fc20000000000000000000001002387c1d s (State.streamRow s die rev a d r els).st := by
  have h0 := Reach.refl 0x40001000000000000000000000006001022011fc20000000000000000000001002387c1d s
  unfold State.streamRow
  repeat' (first
    | with_reducible assumption
    | exact rfl
    | with_reducible (first
        | refine Reach.ite ?_ ?_
        | apply Reach.then ?_ (State.postFlags_reach ..) ?_
        | apply Reach.then ?_ (State.putScales_reach ..) ?_
        | apply Reach.then ?_ (State.vPut_reach ..) ?_)
    | (extract_lets +onlyGivenNames -underBinder -merge -useContext x; first | (refine Reach.cut x ?_ (fun _ => ?_); rotate_left; clear_value x; rotate_left; unfold x; clear x) | (refine Reach.cut x.st ?_ (fun _ => ?_); rotate_left; clear_value x; rotate_left; unfold x; clear x) | (have _ := fun a => x a; unfold x; clear x) | clear_value x)
    | (split <;> try (refine Reach.cut1 (by assumption) ?_ (fun _ => ?_)))
    | split
    | with_reducible (first
        | refine Reach.set_free ?_ ?_))

theorem State.streamRows_reach (s : State) (die : Nat) (rev : Nat) (a : Access) (d : Desc) (y0 : List (Nat × List (Nat × Val))) : Reach 0x40001000000000000000000000006001022011fc20000000000000000000001002387c1d s (State.streamRows s die rev a d y0).st := by
  induction y0 generalizing s die rev a d with
  | nil =>
    have h0 := Reach.refl 0x40001000000000000000000000006001022011fc20000000000000000000001002387c1d s
    unfold State.streamRows
    repeat' (first
    | with_reducible assumption
    | exact rfl
    | with_reducible (first
        | apply Reach.then ?_ (State.streamRow_reach ..) ?_
        | apply Reach.then ?_ (ih ..) ?_)
    | (extract_lets +onlyGivenNames -underBinder -merge -useContext x; first | (refine Reach.cut x ?_ (fun _ => ?_); rotate_left; clear_value x; rotate_left; unfold x; clear x) | (refine Reach.cut x.st ?_ (fun _ => ?_); rotate_left; clear_value x; rotate_left; unfold x; clear x) | (have _ := fun a => x a; unfold x; clear x) | clear_value x)
    | (split <;> try (refine Reach.cut1 (by assumption) ?_ (fun _ => ?_)))
    | split)
  | cons _ _ ih =>
    have h0 := Reach.refl 0x40001000000000000000000000006001022011fc20000000000000000000001002387c1d s
    unfold State.streamRows
    repeat' (first
    | with_reducible assumption
    | exact rfl
    | with_reducible (first
        | apply Reach.then ?_ (State.streamRow_reach ..) ?_
        | apply Reach.then ?_ (ih ..) ?_)
    | (extract_lets +onlyGivenNames -underBinder -merge -useContext x; first | (refine Reach.cut x ?_ (fun _ => ?_); rotate_left; clear_value x; rotate_left; unfold x; clear x) | (refine Reach.cut x.st ?_ (fun _ => ?_); rotate_left; clear_value x; rotate_left; unfold x; clear x) | (have _ := fun a => x a; unfold x; clear x) | clear_value x)
    | (split <;> try (refine Reach.cut1 (by assumption) ?_ (fun _ => ?_)))
    | split)

theorem State.stageTrace_reach (s : State) (die : Nat) (src : Nat) (owner : Nat) (rec : Words4) : Reach 0x20000000000000000000000000000000000000000000000000000000000000400000 s (State.stageTrace s die src owner rec) := by
  have h0 := Reach.refl 0x20000000000000000000000000000000000000000000000000000000000000400000 s
  unfold State.stageTrace
  repeat' (first
    | with_reducible assumption
    | exact rfl
    | with_reducible (first
        | refine Reach.bump ?_ ?_
        | refine Reach.ite ?_ ?_)
    | (extract_lets +onlyGivenNames -underBinder -merge -useContext x; first | (refine Reach.cut x ?_ (fun _ => ?_); rotate_left; clear_value x; rotate_left; unfold x; clear x) | (have _ := fun a => x a; unfold x; clear x) | clear_value x)
    | (split <;> try (refine Reach.cut1 (by assumption) ?_ (fun _ => ?_)))
    | split
    | with_reducible (first
        | refine Reach.set_trace ?_ ?_))

end Sys2Proof.Machine
end

