-- ==== Sys2Proof/Laws/ReachChainOps.lean ====
section
/-!
SUPPORT. The footprint of each function of Machine/ChainOps.lean.
-/
set_option linter.unusedTactic false
set_option linter.unreachableTactic false
namespace Sys2Proof.Machine

theorem State.setChain_reach (s : State) (c : Chain) : Reach 0x40 s (State.setChain s c) := by
  have h0 := Reach.refl 0x40 s
  unfold State.setChain
  repeat' (first
    | with_reducible assumption
    | exact rfl
    | with_reducible (first
        | refine Reach.ite ?_ ?_)
    | (split <;> try (refine Reach.cut1 (by assumption) ?_ (fun _ => ?_)))
    | split
    | with_reducible (first
        | refine Reach.set_chains ?_ ?_))

theorem State.dropChain_reach (s : State) (c : Chain) : Reach 0x40 s (State.dropChain s c) := by
  have h0 := Reach.refl 0x40 s
  unfold State.dropChain
  repeat' (first
    | with_reducible assumption
    | exact rfl
    | with_reducible (first
        | refine Reach.set_chains ?_ ?_))

theorem State.setSeq_reach (s : State) (q : Seq) : Reach 0x80 s (State.setSeq s q) := by
  have h0 := Reach.refl 0x80 s
  unfold State.setSeq
  repeat' (first
    | with_reducible assumption
    | exact rfl
    | with_reducible (first
        | refine Reach.ite ?_ ?_)
    | (split <;> try (refine Reach.cut1 (by assumption) ?_ (fun _ => ?_)))
    | split
    | with_reducible (first
        | refine Reach.set_seqs ?_ ?_))

theorem State.setRec_reach (s : State) (r : RecInst) : Reach 0x2000 s (State.setRec s r) := by
  have h0 := Reach.refl 0x2000 s
  unfold State.setRec
  repeat' (first
    | with_reducible assumption
    | exact rfl
    | with_reducible (first
        | refine Reach.ite ?_ ?_)
    | (split <;> try (refine Reach.cut1 (by assumption) ?_ (fun _ => ?_)))
    | split
    | with_reducible (first
        | refine Reach.set_beam ?_ ?_))

theorem State.setRecState_reach (s : State) (launch : Nat) (st : Nat) : Reach 0x2000000000000000000000000000000000000000000000000000000000000 s (State.setRecState s launch st) := by
  have h0 := Reach.refl 0x2000000000000000000000000000000000000000000000000000000000000 s
  unfold State.setRecState
  repeat' (first
    | with_reducible assumption
    | exact rfl
    | with_reducible (first
        | refine Reach.wr ?_ ?_)
    | (extract_lets +onlyGivenNames -underBinder -merge -useContext x; first | (refine Reach.cut x ?_ (fun _ => ?_); rotate_left; clear_value x; rotate_left; unfold x; clear x) | (have _ := fun a => x a; unfold x; clear x) | clear_value x)
    | dsimp -zeta only [])

theorem State.putToken_reach (s : State) (t : Nat) (v : Bool) : Reach 0x4000000000000000000000000000000000000000000000000000000000000 s (State.putToken s t v) := by
  have h0 := Reach.refl 0x4000000000000000000000000000000000000000000000000000000000000 s
  unfold State.putToken
  repeat' (first
    | with_reducible assumption
    | exact rfl
    | with_reducible (first
        | refine Reach.wr ?_ ?_)
    | (extract_lets +onlyGivenNames -underBinder -merge -useContext x; first | (refine Reach.cut x ?_ (fun _ => ?_); rotate_left; clear_value x; rotate_left; unfold x; clear x) | (have _ := fun a => x a; unfold x; clear x) | clear_value x)
    | dsimp -zeta only [])

theorem State.putTokens_reach (s : State) (ts : List Nat) (v : Bool) : Reach 0x4000000000000000000000000000000000000000000000000000000000000 s (State.putTokens s ts v) := by
  have h0 := Reach.refl 0x4000000000000000000000000000000000000000000000000000000000000 s
  unfold State.putTokens
  repeat' (first
    | with_reducible assumption
    | exact rfl
    | simp -zeta -iota -proj only [Reach1.pair_iff]
    | with_reducible exact Reach1.fst (by assumption)
    | with_reducible (first
        | refine Reach.foldl _ ?_ (fun _ _ _ => ?_)
        | refine Reach1.foldl _ ?_ (fun _ _ _ => ?_)
        | refine Reach1.fst (Reach1.foldl _ ?_ (fun _ _ _ => ?_))
        | apply Reach.then ?_ (State.putToken_reach ..) ?_))

theorem State.putSlotToken_reach (s : State) (g : Stage) (slot : Nat) (v : Nat) : Reach 0x200080000000000000000000000000000 s (State.putSlotToken s g slot v) := by
  have h0 := Reach.refl 0x200080000000000000000000000000000 s
  unfold State.putSlotToken
  repeat' (first
    | with_reducible assumption
    | exact rfl
    | with_reducible (first
        | refine Reach.wr ?_ ?_)
    | (extract_lets +onlyGivenNames -underBinder -merge -useContext x; first | (refine Reach.cut x ?_ (fun _ => ?_); rotate_left; clear_value x; rotate_left; unfold x; clear x) | (have _ := fun a => x a; unfold x; clear x) | clear_value x)
    | (split <;> try (refine Reach.cut1 (by assumption) ?_ (fun _ => ?_)))
    | split
    | (unfold tokenReg; split <;> rfl))

theorem State.emptyRing_reach (s : State) (g : Stage) : Reach 0x200080000000000000000000000000000 s (State.emptyRing s g) := by
  have h0 := Reach.refl 0x200080000000000000000000000000000 s
  unfold State.emptyRing
  repeat' (first
    | with_reducible assumption
    | exact rfl
    | simp -zeta -iota -proj only [Reach1.pair_iff]
    | with_reducible exact Reach1.fst (by assumption)
    | with_reducible (first
        | refine Reach.foldl _ ?_ (fun _ _ _ => ?_)
        | refine Reach1.foldl _ ?_ (fun _ _ _ => ?_)
        | refine Reach1.fst (Reach1.foldl _ ?_ (fun _ _ _ => ?_))
        | apply Reach.then ?_ (State.putSlotToken_reach ..) ?_))

theorem State.emptyRings_reach (s : State) (c : Chain) : Reach 0x200080000000000000000000000000000 s (State.emptyRings s c) := by
  have h0 := Reach.refl 0x200080000000000000000000000000000 s
  unfold State.emptyRings
  repeat' (first
    | with_reducible assumption
    | exact rfl
    | simp -zeta -iota -proj only [Reach1.pair_iff]
    | with_reducible exact Reach1.fst (by assumption)
    | with_reducible (first
        | refine Reach.foldl _ ?_ (fun _ _ _ => ?_)
        | refine Reach1.foldl _ ?_ (fun _ _ _ => ?_)
        | refine Reach1.fst (Reach1.foldl _ ?_ (fun _ _ _ => ?_))
        | apply Reach.then ?_ (State.emptyRing_reach ..) ?_))

theorem State.setPowerDie_reach (s : State) (die : Nat) (p : PowerDie) : Reach 0x20000000 s (State.setPowerDie s die p) := by
  have h0 := Reach.refl 0x20000000 s
  unfold State.setPowerDie
  repeat' (first
    | with_reducible assumption
    | exact rfl
    | with_reducible (first
        | refine Reach.ite ?_ ?_)
    | (split <;> try (refine Reach.cut1 (by assumption) ?_ (fun _ => ?_)))
    | split
    | with_reducible (first
        | refine Reach.set_power ?_ ?_))

theorem State.takeContext_reach (s : State) (c : Chain) (k : Nat) (g : Stage) : Reach 0x800000000000000000020 s (State.takeContext s c k g) := by
  have h0 := Reach.refl 0x800000000000000000020 s
  unfold State.takeContext
  repeat' (first
    | with_reducible assumption
    | exact rfl
    | with_reducible (first
        | refine Reach.wr ?_ ?_
        | apply Reach.then ?_ (State.setEng_reach ..) ?_)
    | (extract_lets +onlyGivenNames -underBinder -merge -useContext x; first | (refine Reach.cut x ?_ (fun _ => ?_); rotate_left; clear_value x; rotate_left; unfold x; clear x) | (have _ := fun a => x a; unfold x; clear x) | clear_value x))

theorem State.takeContexts_reach (s : State) (c : Chain) : Reach 0x800000000000000000020 s (State.takeContexts s c) := by
  have h0 := Reach.refl 0x800000000000000000020 s
  unfold State.takeContexts
  repeat' (first
    | with_reducible assumption
    | exact rfl
    | simp -zeta -iota -proj only [Reach1.pair_iff]
    | with_reducible exact Reach1.fst (by assumption)
    | with_reducible (first
        | refine Reach.ite ?_ ?_
        | refine Reach1.ite ?_ ?_
        | refine Reach.foldl _ ?_ (fun _ _ _ => ?_)
        | refine Reach1.foldl _ ?_ (fun _ _ _ => ?_)
        | refine Reach1.fst (Reach1.foldl _ ?_ (fun _ _ _ => ?_))
        | apply Reach.then ?_ (State.takeContext_reach ..) ?_)
    | (split <;> try (refine Reach.cut1 (by assumption) ?_ (fun _ => ?_)))
    | split)

theorem State.freeContext_reach (s : State) (e : Nat) (task : Nat) : Reach 0x800000000000000000020 s (State.freeContext s e task) := by
  have h0 := Reach.refl 0x800000000000000000020 s
  unfold State.freeContext
  repeat' (first
    | with_reducible assumption
    | exact rfl
    | with_reducible (first
        | refine Reach.wr ?_ ?_
        | apply Reach.then ?_ (State.setEng_reach ..) ?_)
    | (extract_lets +onlyGivenNames -underBinder -merge -useContext x; first | (refine Reach.cut x ?_ (fun _ => ?_); rotate_left; clear_value x; rotate_left; unfold x; clear x) | (have _ := fun a => x a; unfold x; clear x) | clear_value x))

theorem State.freeContexts_reach (s : State) (c : Chain) : Reach 0x800000000000000000020 s (State.freeContexts s c) := by
  have h0 := Reach.refl 0x800000000000000000020 s
  unfold State.freeContexts
  repeat' (first
    | with_reducible assumption
    | exact rfl
    | simp -zeta -iota -proj only [Reach1.pair_iff]
    | with_reducible exact Reach1.fst (by assumption)
    | with_reducible (first
        | refine Reach.ite ?_ ?_
        | refine Reach1.ite ?_ ?_
        | refine Reach.foldl _ ?_ (fun _ _ _ => ?_)
        | refine Reach1.foldl _ ?_ (fun _ _ _ => ?_)
        | refine Reach1.fst (Reach1.foldl _ ?_ (fun _ _ _ => ?_))
        | apply Reach.then ?_ (State.freeContext_reach ..) ?_)
    | (split <;> try (refine Reach.cut1 (by assumption) ?_ (fun _ => ?_)))
    | split)

theorem State.traceWait_reach (s : State) (die : Nat) (src : Nat) (w0 : Nat) (owner : Nat) (launch : Nat) (cycles : Nat) (item : Nat) (stepRev : Nat) (opseq : Nat) : Reach 0x20000000000000000000000000000000000000000000000000000000000000400000 s (State.traceWait s die src w0 owner launch cycles item stepRev opseq) := by
  have h0 := Reach.refl 0x20000000000000000000000000000000000000000000000000000000000000400000 s
  unfold State.traceWait
  repeat' (first
    | with_reducible assumption
    | exact rfl
    | with_reducible (first
        | refine Reach.ite ?_ ?_
        | apply Reach.then ?_ (State.stageTrace_reach ..) ?_)
    | (split <;> try (refine Reach.cut1 (by assumption) ?_ (fun _ => ?_)))
    | split)

theorem State.traceContext_reach (s : State) (c : Chain) (ended : Bool) : Reach 0x20000000000000000000000000000000000000000000000000000000000000400000 s (State.traceContext s c ended) := by
  have h0 := Reach.refl 0x20000000000000000000000000000000000000000000000000000000000000400000 s
  unfold State.traceContext
  repeat' (first
    | with_reducible assumption
    | exact rfl
    | with_reducible (first
        | apply Reach.then ?_ (State.traceWait_reach ..) ?_)
    | (extract_lets +onlyGivenNames -underBinder -merge -useContext x; first | (refine Reach.cut x ?_ (fun _ => ?_); rotate_left; clear_value x; rotate_left; unfold x; clear x) | (have _ := fun a => x a; unfold x; clear x) | clear_value x)
    | (split <;> try (refine Reach.cut1 (by assumption) ?_ (fun _ => ?_)))
    | split)

theorem State.showTask_reach (s : State) (c : Chain) (k : Nat) (g : Stage) : Reach 0x800000000000000000020 s (State.showTask s c k g) := by
  have h0 := Reach.refl 0x800000000000000000020 s
  unfold State.showTask
  repeat' (first
    | with_reducible assumption
    | exact rfl
    | with_reducible (first
        | refine Reach.setFld ?_ ?_
        | refine Reach.ite ?_ ?_
        | apply Reach.then ?_ (State.setEng_reach ..) ?_)
    | (extract_lets +onlyGivenNames -underBinder -merge -useContext x; first | (refine Reach.cut x ?_ (fun _ => ?_); rotate_left; clear_value x; rotate_left; unfold x; clear x) | (have _ := fun a => x a; unfold x; clear x) | clear_value x)
    | (split <;> try (refine Reach.cut1 (by assumption) ?_ (fun _ => ?_)))
    | split)

theorem State.showTasks_reach (s : State) (c : Chain) : Reach 0x800000000000000000020 s (State.showTasks s c) := by
  have h0 := Reach.refl 0x800000000000000000020 s
  unfold State.showTasks
  repeat' (first
    | with_reducible assumption
    | exact rfl
    | simp -zeta -iota -proj only [Reach1.pair_iff]
    | with_reducible exact Reach1.fst (by assumption)
    | with_reducible (first
        | refine Reach.foldl _ ?_ (fun _ _ _ => ?_)
        | refine Reach1.foldl _ ?_ (fun _ _ _ => ?_)
        | refine Reach1.fst (Reach1.foldl _ ?_ (fun _ _ _ => ?_))
        | apply Reach.then ?_ (State.showTask_reach ..) ?_)
    | (split <;> try (refine Reach.cut1 (by assumption) ?_ (fun _ => ?_)))
    | split)

theorem State.putChain_reach (s : State) (c : Chain) : Reach 0x800000000000000000060 s (State.putChain s c) := by
  have h0 := Reach.refl 0x800000000000000000060 s
  unfold State.putChain
  repeat' (first
    | with_reducible assumption
    | exact rfl
    | with_reducible (first
        | apply Reach.then ?_ (State.setChain_reach ..) ?_
        | apply Reach.then ?_ (State.showTasks_reach ..) ?_))

theorem State.headFull_reach (s : State) (g : Stage) (slot : Nat) : Reach 0x200080000000800000000000000000060 s (State.headFull s g slot) := by
  have h0 := Reach.refl 0x200080000000800000000000000000060 s
  unfold State.headFull
  repeat' (first
    | with_reducible assumption
    | exact rfl
    | with_reducible (first
        | apply Reach.then ?_ (State.putChain_reach ..) ?_
        | apply Reach.then ?_ (State.putSlotToken_reach ..) ?_)
    | (extract_lets +onlyGivenNames -underBinder -merge -useContext x; first | (refine Reach.cut x ?_ (fun _ => ?_); rotate_left; clear_value x; rotate_left; unfold x; clear x) | (have _ := fun a => x a; unfold x; clear x) | clear_value x)
    | (split <;> try (refine Reach.cut1 (by assumption) ?_ (fun _ => ?_)))
    | split)

theorem State.grantContexts_reach (s : State) : Reach 0x20000000000000000000000000000000000000000000000800000000000000400060 s (State.grantContexts s) := by
  have h0 := Reach.refl 0x20000000000000000000000000000000000000000000000800000000000000400060 s
  unfold State.grantContexts
  repeat' (first
    | with_reducible assumption
    | exact rfl
    | simp -zeta -iota -proj only [Reach1.pair_iff]
    | with_reducible exact Reach1.fst (by assumption)
    | with_reducible (first
        | refine Reach.ite ?_ ?_
        | refine Reach1.ite ?_ ?_
        | refine Reach.foldl _ ?_ (fun _ _ _ => ?_)
        | refine Reach1.foldl _ ?_ (fun _ _ _ => ?_)
        | refine Reach1.fst (Reach1.foldl _ ?_ (fun _ _ _ => ?_))
        | apply Reach.then ?_ (State.setChain_reach ..) ?_
        | apply Reach.then ?_ (State.showTasks_reach ..) ?_
        | apply Reach.then ?_ (State.takeContexts_reach ..) ?_
        | apply Reach.then ?_ (State.traceContext_reach ..) ?_)
    | (split <;> try (refine Reach.cut1 (by assumption) ?_ (fun _ => ?_)))
    | split)

theorem State.logChain_reach (s : State) (c : Chain) (status : Nat) (stage : Nat) (item : Nat) : Reach 0x40000000000000000000000000000 s (State.logChain s c status stage item) := by
  have h0 := Reach.refl 0x40000000000000000000000000000 s
  unfold State.logChain
  repeat' (first
    | with_reducible assumption
    | exact rfl
    | with_reducible (first
        | refine Reach.wr ?_ ?_
        | refine Reach.setFld ?_ ?_
        | refine Reach.ite ?_ ?_)
    | (split <;> try (refine Reach.cut1 (by assumption) ?_ (fun _ => ?_)))
    | split)

theorem State.stopMsgs_reach (s : State) (c : Chain) : Reach 0x180000 s (State.stopMsgs s c) := by
  have h0 := Reach.refl 0x180000 s
  unfold State.stopMsgs
  repeat' (first
    | with_reducible assumption
    | exact rfl
    | with_reducible (first
        | refine Reach.ite ?_ ?_)
    | (split <;> try (refine Reach.cut1 (by assumption) ?_ (fun _ => ?_)))
    | split
    | exact fun h => h
    | with_reducible (first
        | refine Reach.set_sentMsgs ?_ ?_
        | refine Reach.set_heldWrites ?_ ?_
        | refine Reach.litMk ?_ rfl (fun _ h => h) ?_ ?_ ?_ ?_)
    | (intro (c : Cell) (hc : _); cases c <;> first | rfl | exact absurd hc (by decide) | exact fun _ _ => rfl))

theorem State.dropSaved_reach (s : State) (c : Chain) : Reach 0x800000000000000002020 s (State.dropSaved s c) := by
  have h0 := Reach.refl 0x800000000000000002020 s
  unfold State.dropSaved
  repeat' (first
    | with_reducible assumption
    | exact rfl
    | simp -zeta -iota -proj only [Reach1.pair_iff]
    | with_reducible exact Reach1.fst (by assumption)
    | with_reducible (first
        | refine Reach.foldl _ ?_ (fun _ _ _ => ?_)
        | refine Reach1.foldl _ ?_ (fun _ _ _ => ?_)
        | refine Reach1.fst (Reach1.foldl _ ?_ (fun _ _ _ => ?_))
        | apply Reach.then ?_ (State.freeContext_reach ..) ?_)
    | (extract_lets +onlyGivenNames -underBinder -merge -useContext x; first | (refine Reach.cut x ?_ (fun _ => ?_); rotate_left; clear_value x; rotate_left; unfold x; clear x) | (refine Reach.cutP x ?_ (fun _ => ?_); rotate_left; clear_value x; rotate_left; unfold x; clear x) | (have _ := fun a => x a; unfold x; clear x) | clear_value x)
    | with_reducible (first
        | refine Reach.set_beam ?_ ?_))

theorem State.closeChain_reach (s : State) (c : Chain) (status : Nat) (stage : Nat) : Reach 0x200000000000000000000000000000000002000c0100000800000000000000582060 s (State.closeChain s c status stage) := by
  have h0 := Reach.refl 0x200000000000000000000000000000000002000c0100000800000000000000582060 s
  unfold State.closeChain
  repeat' (first
    | with_reducible assumption
    | exact rfl
    | with_reducible (first
        | refine Reach.bump ?_ ?_
        | refine Reach.ite ?_ ?_
        | apply Reach.then ?_ (State.dropChain_reach ..) ?_
        | apply Reach.then ?_ (State.dropSaved_reach ..) ?_
        | apply Reach.then ?_ (State.emptyRings_reach ..) ?_
        | apply Reach.then ?_ (State.freeContexts_reach ..) ?_
        | apply Reach.then ?_ (State.logChain_reach ..) ?_
        | apply Reach.then ?_ (State.stopMsgs_reach ..) ?_
        | apply Reach.then ?_ (State.traceContext_reach ..) ?_)
    | (extract_lets +onlyGivenNames -underBinder -merge -useContext x; first | (refine Reach.cut x ?_ (fun _ => ?_); rotate_left; clear_value x; rotate_left; unfold x; clear x) | (have _ := fun a => x a; unfold x; clear x) | clear_value x)
    | (split <;> try (refine Reach.cut1 (by assumption) ?_ (fun _ => ?_)))
    | split)

theorem State.endSeq_reach (s : State) (cluster : Nat) (launch : Nat) (status : Nat) : Reach 0x80 s (State.endSeq s cluster launch status) := by
  have h0 := Reach.refl 0x80 s
  unfold State.endSeq
  repeat' (first
    | with_reducible assumption
    | exact rfl
    | with_reducible (first
        | refine Reach.ite ?_ ?_
        | apply Reach.then ?_ (State.setSeq_reach ..) ?_)
    | (split <;> try (refine Reach.cut1 (by assumption) ?_ (fun _ => ?_)))
    | split)

theorem State.dropExtra_reach (s : State) (cluster : Nat) (launch : Nat) : Reach 0x80 s (State.dropExtra s cluster launch) := by
  have h0 := Reach.refl 0x80 s
  unfold State.dropExtra
  repeat' (first
    | with_reducible assumption
    | exact rfl
    | with_reducible (first
        | refine Reach.set_seqs ?_ ?_))

theorem State.renameRef_reach (s : State) (old : ChainRef) (new : ChainRef) : Reach 0x183400 s (State.renameRef s old new) := by
  have h0 := Reach.refl 0x183400 s
  unfold State.renameRef
  repeat' (first
    | with_reducible assumption
    | exact rfl
    | with_reducible (first
        | refine Reach.ite ?_ ?_)
    | (extract_lets +onlyGivenNames -underBinder -merge -useContext x; first | (refine Reach.cut x ?_ (fun _ => ?_); rotate_left; clear_value x; rotate_left; unfold x; clear x) | (have _ := fun a => x a; unfold x; clear x) | clear_value x)
    | (split <;> try (refine Reach.cut1 (by assumption) ?_ (fun _ => ?_)))
    | split
    | exact fun h => h
    | dsimp -zeta only []
    | with_reducible (first
        | refine Reach.set_sentMsgs ?_ ?_
        | refine Reach.set_heldWrites ?_ ?_
        | refine Reach.set_sram ?_ ?_
        | refine Reach.set_pool ?_ ?_
        | refine Reach.set_beam ?_ ?_
        | refine Reach.litMk ?_ rfl (fun _ h => h) ?_ ?_ ?_ ?_)
    | (intro (c : Cell) (hc : _); cases c <;> first | rfl | exact absurd hc (by decide) | exact fun _ _ => rfl))

theorem State.promoteAhead_reach (s : State) (cluster : Nat) (launch : Nat) : Reach 0x183440 s (State.promoteAhead s cluster launch) := by
  have h0 := Reach.refl 0x183440 s
  unfold State.promoteAhead
  repeat' (first
    | with_reducible assumption
    | exact rfl
    | with_reducible (first
        | refine Reach.ite ?_ ?_
        | apply Reach.then ?_ (State.renameRef_reach ..) ?_)
    | (extract_lets +onlyGivenNames -underBinder -merge -useContext x; first | (refine Reach.cut x ?_ (fun _ => ?_); rotate_left; clear_value x; rotate_left; unfold x; clear x) | (have _ := fun a => x a; unfold x; clear x) | clear_value x)
    | (split <;> try (refine Reach.cut1 (by assumption) ?_ (fun _ => ?_)))
    | split
    | with_reducible (first
        | refine Reach.set_chains ?_ ?_))

theorem State.abortChain_reach (s : State) (c : Chain) : Reach 0x200000000000000000000000000000000002000c0100000800000000000000582060 s (State.abortChain s c) := by
  have h0 := Reach.refl 0x200000000000000000000000000000000002000c0100000800000000000000582060 s
  unfold State.abortChain
  repeat' (first
    | with_reducible assumption
    | exact rfl
    | with_reducible (first
        | refine Reach.ite ?_ ?_
        | apply Reach.then ?_ (State.closeChain_reach ..) ?_
        | apply Reach.then ?_ (State.setChain_reach ..) ?_)
    | (split <;> try (refine Reach.cut1 (by assumption) ?_ (fun _ => ?_)))
    | split)

theorem State.abortOthers_reach (s : State) (cluster : Nat) (launch : Nat) : Reach 0x200000000000000000000000000000000002000c01000008000000000000005820e0 s (State.abortOthers s cluster launch) := by
  have h0 := Reach.refl 0x200000000000000000000000000000000002000c01000008000000000000005820e0 s
  unfold State.abortOthers
  repeat' (first
    | with_reducible assumption
    | exact rfl
    | simp -zeta -iota -proj only [Reach1.pair_iff]
    | with_reducible exact Reach1.fst (by assumption)
    | with_reducible (first
        | refine Reach.ite ?_ ?_
        | refine Reach1.ite ?_ ?_
        | refine Reach.foldl _ ?_ (fun _ _ _ => ?_)
        | refine Reach1.foldl _ ?_ (fun _ _ _ => ?_)
        | refine Reach1.fst (Reach1.foldl _ ?_ (fun _ _ _ => ?_))
        | apply Reach.then ?_ (State.abortChain_reach ..) ?_)
    | (extract_lets +onlyGivenNames -underBinder -merge -useContext x; first | (refine Reach.cut x ?_ (fun _ => ?_); rotate_left; clear_value x; rotate_left; unfold x; clear x) | (refine Reach.cutP x ?_ (fun _ => ?_); rotate_left; clear_value x; rotate_left; unfold x; clear x) | (have _ := fun a => x a; unfold x; clear x) | clear_value x)
    | (split <;> try (refine Reach.cut1 (by assumption) ?_ (fun _ => ?_)))
    | split
    | with_reducible (first
        | refine Reach.set_seqs ?_ ?_))

theorem State.abortSeq_reach (s : State) (cluster : Nat) (launch : Nat) : Reach 0x200000000000000000000000000000000002000c01000008000000000000005820e0 s (State.abortSeq s cluster launch) := by
  have h0 := Reach.refl 0x200000000000000000000000000000000002000c01000008000000000000005820e0 s
  unfold State.abortSeq
  repeat' (first
    | with_reducible assumption
    | exact rfl
    | simp -zeta -iota -proj only [Reach1.pair_iff]
    | with_reducible exact Reach1.fst (by assumption)
    | with_reducible (first
        | refine Reach.foldl _ ?_ (fun _ _ _ => ?_)
        | refine Reach1.foldl _ ?_ (fun _ _ _ => ?_)
        | refine Reach1.fst (Reach1.foldl _ ?_ (fun _ _ _ => ?_))
        | apply Reach.then ?_ (State.abortChain_reach ..) ?_
        | apply Reach.then ?_ (State.abortOthers_reach ..) ?_
        | apply Reach.then ?_ (State.dropExtra_reach ..) ?_
        | apply Reach.then ?_ (State.endSeq_reach ..) ?_)
    | (extract_lets +onlyGivenNames -underBinder -merge -useContext x; first | (refine Reach.cut x ?_ (fun _ => ?_); rotate_left; clear_value x; rotate_left; unfold x; clear x) | (refine Reach.cutP x ?_ (fun _ => ?_); rotate_left; clear_value x; rotate_left; unfold x; clear x) | (have _ := fun a => x a; unfold x; clear x) | clear_value x))

theorem State.noteFailure_reach (s : State) (launch : Nat) (status : Nat) : Reach 0x2000 s (State.noteFailure s launch status) := by
  have h0 := Reach.refl 0x2000 s
  unfold State.noteFailure
  repeat' (first
    | with_reducible assumption
    | exact rfl
    | with_reducible (first
        | refine Reach.ite ?_ ?_
        | apply Reach.then ?_ (State.setRec_reach ..) ?_)
    | (split <;> try (refine Reach.cut1 (by assumption) ?_ (fun _ => ?_)))
    | split)

theorem State.failSeq_reach (s : State) (cluster : Nat) (launch : Nat) (status : Nat) : Reach 0x200000000000000000000000000000000002000c01000008000000000000005820e0 s (State.failSeq s cluster launch status) := by
  have h0 := Reach.refl 0x200000000000000000000000000000000002000c01000008000000000000005820e0 s
  unfold State.failSeq
  repeat' (first
    | with_reducible assumption
    | exact rfl
    | simp -zeta -iota -proj only [Reach1.pair_iff]
    | with_reducible exact Reach1.fst (by assumption)
    | with_reducible (first
        | refine Reach.ite ?_ ?_
        | refine Reach1.ite ?_ ?_
        | refine Reach.foldl _ ?_ (fun _ _ _ => ?_)
        | refine Reach1.foldl _ ?_ (fun _ _ _ => ?_)
        | refine Reach1.fst (Reach1.foldl _ ?_ (fun _ _ _ => ?_))
        | apply Reach.then ?_ (State.abortChain_reach ..) ?_
        | apply Reach.then ?_ (State.abortOthers_reach ..) ?_
        | apply Reach.then ?_ (State.dropExtra_reach ..) ?_
        | apply Reach.then ?_ (State.endSeq_reach ..) ?_
        | apply Reach.then ?_ (State.noteFailure_reach ..) ?_)
    | (extract_lets +onlyGivenNames -underBinder -merge -useContext x; first | (refine Reach.cut x ?_ (fun _ => ?_); rotate_left; clear_value x; rotate_left; unfold x; clear x) | (refine Reach.cutP x ?_ (fun _ => ?_); rotate_left; clear_value x; rotate_left; unfold x; clear x) | (have _ := fun a => x a; unfold x; clear x) | clear_value x)
    | (split <;> try (refine Reach.cut1 (by assumption) ?_ (fun _ => ?_)))
    | split)

theorem State.regenFailed_reach (s : State) (c : Chain) (status : Nat) : Reach 0x20000000000000000000000000 s (State.regenFailed s c status) := by
  have h0 := Reach.refl 0x20000000000000000000000000 s
  unfold State.regenFailed
  repeat' (first
    | with_reducible assumption
    | exact rfl
    | with_reducible (first
        | refine Reach.bump ?_ ?_
        | refine Reach.ite ?_ ?_)
    | (split <;> try (refine Reach.cut1 (by assumption) ?_ (fun _ => ?_)))
    | split)

theorem State.seqDone_reach (s : State) (c : Chain) : Reach 0x80 s (State.seqDone s c) := by
  have h0 := Reach.refl 0x80 s
  unfold State.seqDone
  repeat' (first
    | with_reducible assumption
    | exact rfl
    | with_reducible (first
        | refine Reach.ite ?_ ?_
        | apply Reach.then ?_ (State.setSeq_reach ..) ?_)
    | (split <;> try (refine Reach.cut1 (by assumption) ?_ (fun _ => ?_)))
    | split)

theorem State.advance_reach (s : State) (cluster : Nat) (launch : Nat) : Reach 0x200000000000000000000000000000000002000c01000008000000000000005834e0 s (State.advance s cluster launch) := by
  have h0 := Reach.refl 0x200000000000000000000000000000000002000c01000008000000000000005834e0 s
  unfold State.advance
  repeat' (first
    | with_reducible assumption
    | exact rfl
    | with_reducible (first
        | refine Reach.ite ?_ ?_
        | apply Reach.then ?_ (State.closeChain_reach ..) ?_
        | apply Reach.then ?_ (State.promoteAhead_reach ..) ?_
        | apply Reach.then ?_ (State.seqDone_reach ..) ?_)
    | (extract_lets +onlyGivenNames -underBinder -merge -useContext x; first | (refine Reach.cut x ?_ (fun _ => ?_); rotate_left; clear_value x; rotate_left; unfold x; clear x) | (have _ := fun a => x a; unfold x; clear x) | clear_value x)
    | (split <;> try (refine Reach.cut1 (by assumption) ?_ (fun _ => ?_)))
    | split)

theorem State.noteBackward_reach (s : State) (c : Chain) : Reach 0x80 s (State.noteBackward s c) := by
  have h0 := Reach.refl 0x80 s
  unfold State.noteBackward
  repeat' (first
    | with_reducible assumption
    | exact rfl
    | with_reducible (first
        | refine Reach.ite ?_ ?_
        | apply Reach.then ?_ (State.setSeq_reach ..) ?_)
    | (split <;> try (refine Reach.cut1 (by assumption) ?_ (fun _ => ?_)))
    | split)

theorem State.seqAfter_reach (s : State) (c : Chain) (status : Nat) : Reach 0x200000000000000000000000000000000002000c01200008000000000000005834e0 s (State.seqAfter s c status) := by
  have h0 := Reach.refl 0x200000000000000000000000000000000002000c01200008000000000000005834e0 s
  unfold State.seqAfter
  repeat' (first
    | with_reducible assumption
    | exact rfl
    | with_reducible (first
        | refine Reach.ite ?_ ?_
        | apply Reach.then ?_ (State.advance_reach ..) ?_
        | apply Reach.then ?_ (State.dropExtra_reach ..) ?_
        | apply Reach.then ?_ (State.failSeq_reach ..) ?_
        | apply Reach.then ?_ (State.noteBackward_reach ..) ?_
        | apply Reach.then ?_ (State.regenFailed_reach ..) ?_
        | apply Reach.then ?_ (State.seqDone_reach ..) ?_
        | apply Reach.then ?_ (State.setSeq_reach ..) ?_)
    | (extract_lets +onlyGivenNames -underBinder -merge -useContext x; first | (refine Reach.cut x ?_ (fun _ => ?_); rotate_left; clear_value x; rotate_left; unfold x; clear x) | (have _ := fun a => x a; unfold x; clear x) | clear_value x)
    | (split <;> try (refine Reach.cut1 (by assumption) ?_ (fun _ => ?_)))
    | split)

theorem State.endChain_reach (s : State) (c : Chain) (status : Nat) (stage : Nat) : Reach 0x200000000000000000000000000000000002000c01200008000000000000005834e0 s (State.endChain s c status stage) := by
  have h0 := Reach.refl 0x200000000000000000000000000000000002000c01200008000000000000005834e0 s
  unfold State.endChain
  repeat' (first
    | with_reducible assumption
    | exact rfl
    | with_reducible (first
        | apply Reach.then ?_ (State.abortSeq_reach ..) ?_
        | apply Reach.then ?_ (State.closeChain_reach ..) ?_
        | apply Reach.then ?_ (State.grantContexts_reach ..) ?_
        | apply Reach.then ?_ (State.seqAfter_reach ..) ?_)
    | (split <;> try (refine Reach.cut1 (by assumption) ?_ (fun _ => ?_)))
    | split)

theorem State.clearFailed_reach (s : State) : Reach 0x2000000 s (State.clearFailed s) := by
  have h0 := Reach.refl 0x2000000 s
  unfold State.clearFailed
  repeat' (first
    | with_reducible assumption
    | exact rfl
    | with_reducible (first
        | refine Reach.set_host ?_ ?_))

theorem State.endWrite_reach (s : State) (c : Chain) (stage : Nat) : Reach 0x200000000000000000000000000000000002000c01200008000000000000025834e0 s (State.endWrite s c stage) := by
  have h0 := Reach.refl 0x200000000000000000000000000000000002000c01200008000000000000025834e0 s
  unfold State.endWrite
  repeat' (first
    | with_reducible assumption
    | exact rfl
    | with_reducible (first
        | apply Reach.then ?_ (State.clearFailed_reach ..) ?_
        | apply Reach.then ?_ (State.endChain_reach ..) ?_))

theorem State.parkChain_reach (s : State) (c : Chain) : Reach 0x20000000000000000000000000000000000200080000000800000000000000582060 s (State.parkChain s c) := by
  have h0 := Reach.refl 0x20000000000000000000000000000000000200080000000800000000000000582060 s
  unfold State.parkChain
  repeat' (first
    | with_reducible assumption
    | exact rfl
    | with_reducible (first
        | apply Reach.then ?_ (State.dropSaved_reach ..) ?_
        | apply Reach.then ?_ (State.emptyRings_reach ..) ?_
        | apply Reach.then ?_ (State.freeContexts_reach ..) ?_
        | apply Reach.then ?_ (State.grantContexts_reach ..) ?_
        | apply Reach.then ?_ (State.setChain_reach ..) ?_
        | apply Reach.then ?_ (State.stopMsgs_reach ..) ?_)
    | (extract_lets +onlyGivenNames -underBinder -merge -useContext x; first | (refine Reach.cut x ?_ (fun _ => ?_); rotate_left; clear_value x; rotate_left; unfold x; clear x) | (have _ := fun a => x a; unfold x; clear x) | clear_value x))

theorem State.settleAbort_reach (s : State) (c : Chain) : Reach 0x200000000000000000000000000000000002000c01000008000000000000005820e0 s (State.settleAbort s c) := by
  have h0 := Reach.refl 0x200000000000000000000000000000000002000c01000008000000000000005820e0 s
  unfold State.settleAbort
  repeat' (first
    | with_reducible assumption
    | exact rfl
    | with_reducible (first
        | refine Reach.ite ?_ ?_
        | apply Reach.then ?_ (State.abortSeq_reach ..) ?_
        | apply Reach.then ?_ (State.closeChain_reach ..) ?_
        | apply Reach.then ?_ (State.grantContexts_reach ..) ?_
        | apply Reach.then ?_ (State.parkChain_reach ..) ?_)
    | (split <;> try (refine Reach.cut1 (by assumption) ?_ (fun _ => ?_)))
    | split)

theorem State.traceCmd_reach (s : State) (level : Nat) (rtype : Nat) (e : Nat) (task : Nat) (opc : Nat) (index : Nat) (cycles : Nat) : Reach 0x20000000000000000000000000000000000000000000000000000000000000400000 s (State.traceCmd s level rtype e task opc index cycles) := by
  have h0 := Reach.refl 0x20000000000000000000000000000000000000000000000000000000000000400000 s
  unfold State.traceCmd
  repeat' (first
    | with_reducible assumption
    | exact rfl
    | with_reducible (first
        | refine Reach.ite ?_ ?_
        | apply Reach.then ?_ (State.stageTrace_reach ..) ?_)
    | (extract_lets +onlyGivenNames -underBinder -merge -useContext x; first | (refine Reach.cut x ?_ (fun _ => ?_); rotate_left; clear_value x; rotate_left; unfold x; clear x) | (have _ := fun a => x a; unfold x; clear x) | clear_value x)
    | (split <;> try (refine Reach.cut1 (by assumption) ?_ (fun _ => ?_)))
    | split)

theorem State.traceStageWait_reach (s : State) (c : Chain) (k : Nat) (g : Stage) (w : SyncWait) (cycles : BitVec 40) (ended : Bool) : Reach 0x20000000000000000000000000000000000000000000000000000000000000400000 s (State.traceStageWait s c k g w cycles ended) := by
  have h0 := Reach.refl 0x20000000000000000000000000000000000000000000000000000000000000400000 s
  unfold State.traceStageWait
  repeat' (first
    | with_reducible assumption
    | exact rfl
    | with_reducible (first
        | refine Reach.ite ?_ ?_
        | apply Reach.then ?_ (State.stageTrace_reach ..) ?_)
    | (extract_lets +onlyGivenNames -underBinder -merge -useContext x; first | (refine Reach.cut x ?_ (fun _ => ?_); rotate_left; clear_value x; rotate_left; unfold x; clear x) | (have _ := fun a => x a; unfold x; clear x) | clear_value x)
    | (split <;> try (refine Reach.cut1 (by assumption) ?_ (fun _ => ?_)))
    | split)

theorem State.closeStageTile_reach (s : State) (e : Nat) (task : Nat) : Reach 0x200000000000000000000000000000000002000c01000008000000000000005820e0 s (State.closeStageTile s e task) := by
  have h0 := Reach.refl 0x200000000000000000000000000000000002000c01000008000000000000005820e0 s
  unfold State.closeStageTile
  repeat' (first
    | with_reducible assumption
    | exact rfl
    | with_reducible (first
        | apply Reach.then ?_ (State.setChain_reach ..) ?_
        | apply Reach.then ?_ (State.settleAbort_reach ..) ?_
        | apply Reach.then ?_ (State.showTasks_reach ..) ?_)
    | (extract_lets +onlyGivenNames -underBinder -merge -useContext x; first | (refine Reach.cut x ?_ (fun _ => ?_); rotate_left; clear_value x; rotate_left; unfold x; clear x) | (have _ := fun a => x a; unfold x; clear x) | clear_value x)
    | (split <;> try (refine Reach.cut1 (by assumption) ?_ (fun _ => ?_)))
    | split)

end Sys2Proof.Machine
end

