-- ==== Sys2Proof/Laws/ReachProgram.lean ====
section
/-!
SUPPORT. The footprint of each function of Machine/Program.lean.
-/
set_option linter.unusedTactic false
set_option linter.unreachableTactic false
namespace Sys2Proof.Machine

theorem State.regionClamp_reach (s : State) (cluster : Nat) (g : RegionRec) : Reach 0x10000000000000000000000000000 s (State.regionClamp s cluster g) := by
  have h0 := Reach.refl 0x10000000000000000000000000000 s
  unfold State.regionClamp
  repeat' (first
    | with_reducible assumption
    | exact rfl
    | with_reducible (first
        | apply Reach.then ?_ (State.clamped_reach ..) ?_))

theorem State.setUnit_reach (s : State) (r : RerunUnit) : Reach 0x100 s (State.setUnit s r) := by
  have h0 := Reach.refl 0x100 s
  unfold State.setUnit
  repeat' (first
    | with_reducible assumption
    | exact rfl
    | with_reducible (first
        | refine Reach.set_reruns ?_ ?_))

theorem State.haltEngines_reach (s : State) (c : Chain) : Reach 0x20 s (State.haltEngines s c) := by
  have h0 := Reach.refl 0x20 s
  unfold State.haltEngines
  repeat' (first
    | with_reducible assumption
    | exact rfl
    | simp -zeta -iota -proj only [Reach1.pair_iff]
    | with_reducible exact Reach1.fst (by assumption)
    | with_reducible (first
        | refine Reach.ite ?_ ?_
        | refine Reach1.ite ?_ ?_
        | refine Reach.foldl _ ?_ (fun _ _ _ => ?_)
        | refine Reach1.foldl _ ?_ (fun _ _ _ => ?_)
        | refine Reach1.fst (Reach1.foldl _ ?_ (fun _ _ _ => ?_))
        | apply Reach.then ?_ (State.setEng_reach ..) ?_)
    | (extract_lets +onlyGivenNames -underBinder -merge -useContext x; first | (refine Reach.cut x ?_ (fun _ => ?_); rotate_left; clear_value x; rotate_left; unfold x; clear x) | (refine Reach.cutP x ?_ (fun _ => ?_); rotate_left; clear_value x; rotate_left; unfold x; clear x) | (have _ := fun a => x a; unfold x; clear x) | clear_value x)
    | (split <;> try (refine Reach.cut1 (by assumption) ?_ (fun _ => ?_)))
    | split)

theorem State.stopUnit_reach (s : State) (det : Chain) (u : Nat × Nat) : Reach 0x20000000000000000000000000000000000200080000000800000000000000582060 s (State.stopUnit s det u) := by
  have h0 := Reach.refl 0x20000000000000000000000000000000000200080000000800000000000000582060 s
  unfold State.stopUnit
  repeat' (first
    | with_reducible assumption
    | exact rfl
    | simp -zeta -iota -proj only [Reach1.pair_iff]
    | with_reducible exact Reach1.fst (by assumption)
    | with_reducible (first
        | refine Reach.ite ?_ ?_
        | refine Reach1.ite ?_ ?_
        | refine Reach.foldl _ ?_ (fun _ _ _ => ?_)
        | refine Reach1.foldl _ ?_ (fun _ _ _ => ?_)
        | refine Reach1.fst (Reach1.foldl _ ?_ (fun _ _ _ => ?_))
        | apply Reach.then ?_ (State.haltEngines_reach ..) ?_
        | apply Reach.then ?_ (State.parkChain_reach ..) ?_
        | apply Reach.then ?_ (State.setChain_reach ..) ?_)
    | (split <;> try (refine Reach.cut1 (by assumption) ?_ (fun _ => ?_)))
    | split)

theorem State.endUnit_reach (s : State) (det : Chain) (u : Nat × Nat) (status : Nat) : Reach 0x200000000000000000000000000000000002000c01000008000000000000005820e0 s (State.endUnit s det u status) := by
  have h0 := Reach.refl 0x200000000000000000000000000000000002000c01000008000000000000005820e0 s
  unfold State.endUnit
  repeat' (first
    | with_reducible assumption
    | exact rfl
    | simp -zeta -iota -proj only [Reach1.pair_iff]
    | with_reducible exact Reach1.fst (by assumption)
    | with_reducible (first
        | refine Reach.foldl _ ?_ (fun _ _ _ => ?_)
        | refine Reach1.foldl _ ?_ (fun _ _ _ => ?_)
        | refine Reach1.fst (Reach1.foldl _ ?_ (fun _ _ _ => ?_))
        | apply Reach.then ?_ (State.closeChain_reach ..) ?_
        | apply Reach.then ?_ (State.endSeq_reach ..) ?_
        | apply Reach.then ?_ (State.failSeq_reach ..) ?_
        | apply Reach.then ?_ (State.grantContexts_reach ..) ?_
        | apply Reach.then ?_ (State.haltEngines_reach ..) ?_)
    | (extract_lets +onlyGivenNames -underBinder -merge -useContext x; first | (refine Reach.cut x ?_ (fun _ => ?_); rotate_left; clear_value x; rotate_left; unfold x; clear x) | (refine Reach.cutP x ?_ (fun _ => ?_); rotate_left; clear_value x; rotate_left; unfold x; clear x) | (have _ := fun a => x a; unfold x; clear x) | clear_value x))

theorem State.rerunError_reach (s : State) (c : Chain) (status : Nat) : Reach 0x200000000000000000000000000000000002000c01000008000000000000005821e0 s (State.rerunError s c status) := by
  have h0 := Reach.refl 0x200000000000000000000000000000000002000c01000008000000000000005821e0 s
  unfold State.rerunError
  repeat' (first
    | with_reducible assumption
    | exact rfl
    | with_reducible (first
        | refine Reach.ite ?_ ?_
        | apply Reach.then ?_ (State.endUnit_reach ..) ?_
        | apply Reach.then ?_ (State.setUnit_reach ..) ?_
        | apply Reach.then ?_ (State.stopUnit_reach ..) ?_)
    | (extract_lets +onlyGivenNames -underBinder -merge -useContext x; first | (refine Reach.cut x ?_ (fun _ => ?_); rotate_left; clear_value x; rotate_left; unfold x; clear x) | (have _ := fun a => x a; unfold x; clear x) | clear_value x)
    | (split <;> try (refine Reach.cut1 (by assumption) ?_ (fun _ => ?_)))
    | split)

theorem State.poisonLines_reach (s : State) (bytes : List Nat) : Reach 0x10 s (State.poisonLines s bytes) := by
  have h0 := Reach.refl 0x10 s
  unfold State.poisonLines
  repeat' (first
    | with_reducible assumption
    | exact rfl
    | simp -zeta -iota -proj only [Reach1.pair_iff]
    | with_reducible exact Reach1.fst (by assumption)
    | with_reducible (first
        | refine Reach.foldl _ ?_ (fun _ _ _ => ?_)
        | refine Reach1.foldl _ ?_ (fun _ _ _ => ?_)
        | refine Reach1.fst (Reach1.foldl _ ?_ (fun _ _ _ => ?_)))
    | with_reducible (first
        | refine Reach.set_poison ?_ ?_))

theorem State.parityStops_reach (s : State) (c : Chain) (bytes : List Nat) : Reach1 0x200000000000000000000000000000000002000d01000008000000000000005821f0 s (State.parityStops s c bytes) := by
  have h0 := Reach.refl 0x200000000000000000000000000000000002000d01000008000000000000005821f0 s
  unfold State.parityStops
  repeat' (first
    | with_reducible assumption
    | exact rfl
    | simp -zeta -iota -proj only [Reach1.pair_iff]
    | with_reducible exact Reach1.fst (by assumption)
    | with_reducible (first
        | refine Reach.ite ?_ ?_
        | refine Reach1.ite ?_ ?_
        | apply Reach.then ?_ (State.poisonLines_reach ..) ?_
        | apply Reach.then ?_ (State.regionClamp_reach ..) ?_
        | apply Reach.then ?_ (State.rerunError_reach ..) ?_)
    | (extract_lets +onlyGivenNames -underBinder -merge -useContext x; first | (refine Reach.cut x ?_ (fun _ => ?_); rotate_left; clear_value x; rotate_left; unfold x; clear x) | (refine Reach1.cut x ?_ (fun _ => ?_); rotate_left; clear_value x; rotate_left; unfold x; clear x) | (have _ := fun a => x a; unfold x; clear x) | clear_value x)
    | (split <;> try (first | refine Reach1.cut1 (by assumption) ?_ (fun _ => ?_) | refine Reach.cut1 (by assumption) ?_ (fun _ => ?_)))
    | split)

theorem State.lensParity_reach (s : State) (e : Nat) (c : Option (Chain × Nat)) (reads : List (Nat × Nat × Nat)) : Reach1 0x500000000000000000000 s (State.lensParity s e c reads) := by
  have h0 := Reach.refl 0x500000000000000000000 s
  unfold State.lensParity
  repeat' (first
    | with_reducible assumption
    | exact rfl
    | simp -zeta -iota -proj only [Reach1.pair_iff]
    | with_reducible exact Reach1.fst (by assumption)
    | with_reducible (first
        | refine Reach.foldl _ ?_ (fun _ _ _ => ?_)
        | refine Reach1.foldl _ ?_ (fun _ _ _ => ?_)
        | refine Reach1.fst (Reach1.foldl _ ?_ (fun _ _ _ => ?_))
        | apply Reach.then ?_ (State.logLens_reach ..) ?_)
    | (extract_lets +onlyGivenNames -underBinder -merge -useContext x; first | (refine Reach.cut x ?_ (fun _ => ?_); rotate_left; clear_value x; rotate_left; unfold x; clear x) | (refine Reach1.cut x ?_ (fun _ => ?_); rotate_left; clear_value x; rotate_left; unfold x; clear x) | (refine Reach.cutP x ?_ (fun _ => ?_); rotate_left; clear_value x; rotate_left; unfold x; clear x) | (refine Reach1.cutP x ?_ (fun _ => ?_); rotate_left; clear_value x; rotate_left; unfold x; clear x) | (have _ := fun a => x a; unfold x; clear x) | clear_value x)
    | (split <;> try (first | refine Reach1.cut1 (by assumption) ?_ (fun _ => ?_) | refine Reach.cut1 (by assumption) ?_ (fun _ => ?_)))
    | split)

theorem State.lensFaults_reach (s : State) (e : Nat) (task : Nat) (reads : List (Nat × Nat × Nat)) : Reach1 0x200000000000000000000000000000000002000c0120000d000000000000005835e0 s (State.lensFaults s e task reads) := by
  have h0 := Reach.refl 0x200000000000000000000000000000000002000c0120000d000000000000005835e0 s
  unfold State.lensFaults
  repeat' (first
    | with_reducible assumption
    | exact rfl
    | simp -zeta -iota -proj only [Reach1.pair_iff]
    | with_reducible exact Reach1.fst (by assumption)
    | with_reducible (first
        | refine Reach.ite ?_ ?_
        | refine Reach1.ite ?_ ?_
        | apply Reach.then ?_ (State.endChain_reach ..) ?_
        | apply Reach1.then ?_ (State.lensParity_reach ..) ?_
        | apply Reach1.fst (Reach1.then ?_ (State.lensParity_reach ..) ?_)
        | apply Reach.then ?_ (State.rerunError_reach ..) ?_)
    | (extract_lets +onlyGivenNames -underBinder -merge -useContext x; first | (refine Reach.cut x ?_ (fun _ => ?_); rotate_left; clear_value x; rotate_left; unfold x; clear x) | (refine Reach1.cut x ?_ (fun _ => ?_); rotate_left; clear_value x; rotate_left; unfold x; clear x) | (refine Reach.cutP x ?_ (fun _ => ?_); rotate_left; clear_value x; rotate_left; unfold x; clear x) | (refine Reach1.cutP x ?_ (fun _ => ?_); rotate_left; clear_value x; rotate_left; unfold x; clear x) | (have _ := fun a => x a; unfold x; clear x) | clear_value x)
    | (split <;> try (first | refine Reach1.cut1 (by assumption) ?_ (fun _ => ?_) | refine Reach.cut1 (by assumption) ?_ (fun _ => ?_)))
    | split)

end Sys2Proof.Machine
end

