-- ==== Sys2Proof/Laws/ReachPoolOps.lean ====
section
/-!
SUPPORT. The footprint of each function of Machine/PoolOps.lean.
-/
set_option linter.unusedTactic false
set_option linter.unreachableTactic false
namespace Sys2Proof.Machine

theorem State.switchPage_reach (s : State) (owner : Nat) (vpage : Nat) (src : Nat) (dst : Nat) : Reach 0x8181d s (State.switchPage s owner vpage src dst) := by
  have h0 := Reach.refl 0x8181d s
  unfold State.switchPage
  repeat' (first
    | with_reducible assumption
    | exact rfl
    | with_reducible (first
        | refine Reach.ite ?_ ?_
        | apply Reach.then ?_ (State.putRaw_reach ..) ?_
        | apply Reach.then ?_ (State.setFrame_reach ..) ?_)
    | (extract_lets +onlyGivenNames -underBinder -merge -useContext x; first | (refine Reach.cut x ?_ (fun _ => ?_); rotate_left; clear_value x; rotate_left; unfold x; clear x) | (have _ := fun a => x a; unfold x; clear x) | clear_value x)
    | (split <;> try (refine Reach.cut1 (by assumption) ?_ (fun _ => ?_)))
    | split
    | dsimp -zeta only []
    | with_reducible (first
        | refine Reach.set_heldWrites ?_ ?_))

theorem State.unmapPage_reach (s : State) (owner : Nat) (vpage : Nat) (src : Nat) : Reach 0x81d s (State.unmapPage s owner vpage src) := by
  have h0 := Reach.refl 0x81d s
  unfold State.unmapPage
  repeat' (first
    | with_reducible assumption
    | exact rfl
    | with_reducible (first
        | refine Reach.ite ?_ ?_
        | apply Reach.then ?_ (State.putRaw_reach ..) ?_)
    | (extract_lets +onlyGivenNames -underBinder -merge -useContext x; first | (refine Reach.cut x ?_ (fun _ => ?_); rotate_left; clear_value x; rotate_left; unfold x; clear x) | (have _ := fun a => x a; unfold x; clear x) | clear_value x)
    | (split <;> try (refine Reach.cut1 (by assumption) ?_ (fun _ => ?_)))
    | split
    | dsimp -zeta only [])

theorem State.countFrame_reach (s : State) (n : Nat) : Reach 0x10000000000000000000000000000000000000000000000000000000000000000000 s (State.countFrame s n) := by
  have h0 := Reach.refl 0x10000000000000000000000000000000000000000000000000000000000000000000 s
  unfold State.countFrame
  repeat' (first
    | with_reducible assumption
    | exact rfl
    | simp -zeta -iota -proj only [Reach1.pair_iff]
    | with_reducible exact Reach1.fst (by assumption)
    | with_reducible (first
        | refine Reach.bump ?_ ?_
        | refine Reach.ite ?_ ?_
        | refine Reach1.ite ?_ ?_
        | refine Reach.foldl _ ?_ (fun _ _ _ => ?_)
        | refine Reach1.foldl _ ?_ (fun _ _ _ => ?_)
        | refine Reach1.fst (Reach1.foldl _ ?_ (fun _ _ _ => ?_)))
    | (split <;> try (refine Reach.cut1 (by assumption) ?_ (fun _ => ?_)))
    | split)

theorem State.scanFrame_reach (s : State) (a : Access) (n : Nat) : Reach 0x1000000000000000000000000001022011f82b000000c00000000000000000087c1d s (State.scanFrame s a n) := by
  have h0 := Reach.refl 0x1000000000000000000000000001022011f82b000000c00000000000000000087c1d s
  unfold State.scanFrame
  repeat' (first
    | with_reducible assumption
    | exact rfl
    | simp -zeta -iota -proj only [Reach1.pair_iff]
    | with_reducible exact Reach1.fst (by assumption)
    | with_reducible (first
        | refine Reach.ite ?_ ?_
        | refine Reach1.ite ?_ ?_
        | refine Reach.foldl _ ?_ (fun _ _ _ => ?_)
        | refine Reach1.foldl _ ?_ (fun _ _ _ => ?_)
        | refine Reach1.fst (Reach1.foldl _ ?_ (fun _ _ _ => ?_))
        | apply Reach.then ?_ (State.countFrame_reach ..) ?_
        | apply Reach.then ?_ (State.flushSectors_reach ..) ?_
        | apply Reach.then ?_ (State.logParity_reach ..) ?_
        | apply Reach1.then ?_ (State.noteSector_reach ..) ?_
        | apply Reach1.fst (Reach1.then ?_ (State.noteSector_reach ..) ?_)
        | apply Reach.then ?_ (State.queueWriteback_reach ..) ?_
        | apply Reach.then ?_ (State.useSlots_reach ..) ?_)
    | (extract_lets +onlyGivenNames -underBinder -merge -useContext x; first | (refine Reach.cut x ?_ (fun _ => ?_); rotate_left; clear_value x; rotate_left; unfold x; clear x) | (refine Reach.cutP x ?_ (fun _ => ?_); rotate_left; clear_value x; rotate_left; unfold x; clear x) | (have _ := fun a => x a; unfold x; clear x) | clear_value x)
    | (split <;> try (refine Reach.cut1 (by assumption) ?_ (fun _ => ?_)))
    | split)

theorem State.copyFrame_reach (s : State) (src : Nat) (dst : Nat) : Reach 0x1000000000000000000000000001022011f82b000000c00000000000000000087c1d s (State.copyFrame s src dst) := by
  have h0 := Reach.refl 0x1000000000000000000000000001022011f82b000000c00000000000000000087c1d s
  unfold State.copyFrame
  repeat' (first
    | with_reducible assumption
    | exact rfl
    | simp -zeta -iota -proj only [Reach1.pair_iff]
    | with_reducible exact Reach1.fst (by assumption)
    | with_reducible (first
        | refine Reach.foldl _ ?_ (fun _ _ _ => ?_)
        | refine Reach1.foldl _ ?_ (fun _ _ _ => ?_)
        | refine Reach1.fst (Reach1.foldl _ ?_ (fun _ _ _ => ?_))
        | apply Reach.then ?_ (State.countFrame_reach ..) ?_
        | apply Reach.then ?_ (State.dropWritebacks_reach ..) ?_
        | apply Reach.then ?_ (State.flushSectors_reach ..) ?_
        | apply Reach.then ?_ (State.markPoison_reach ..) ?_
        | apply Reach.then ?_ (State.scanFrame_reach ..) ?_
        | apply Reach.then ?_ (State.useSlots_reach ..) ?_)
    | (extract_lets +onlyGivenNames -underBinder -merge -useContext x; first | (refine Reach.cut x ?_ (fun _ => ?_); rotate_left; clear_value x; rotate_left; unfold x; clear x) | (refine Reach.cutP x ?_ (fun _ => ?_); rotate_left; clear_value x; rotate_left; unfold x; clear x) | (have _ := fun a => x a; unfold x; clear x) | clear_value x)
    | exact fun h => h
    | with_reducible (first
        | refine Reach.set_mem ?_ ?_ ?_
        | refine Reach.set_hbmDelta ?_ ?_ ?_
        | refine Reach.set_poison ?_ ?_
        | refine Reach.set_badCheck ?_ ?_
        | refine Reach.set_hbm ?_ ?_
        | refine Reach.litMk ?_ rfl (fun _ h => h) ?_ ?_ ?_ ?_)
    | exact fun h => canonical_putD _ _ _ h
    | exact fun h => canonical_foldl _ _ _ _ (canonical_clearRange _ _ _ h)
    | exact fun h => canonical_putRun _ _ _ h
    | exact fun h => canonical_clearRange _ _ _ h
    | exact fun h => canonical_filter _ _ h
    | (intro (c : Cell) (hc : _); cases c <;> first | rfl | exact absurd hc (by decide) | exact fun _ _ => rfl))

theorem State.dropCached_reach (s : State) (n : Nat) : Reach 0x1000000000000000000000000000000000008581d s (State.dropCached s n) := by
  have h0 := Reach.refl 0x1000000000000000000000000000000000008581d s
  unfold State.dropCached
  repeat' (first
    | with_reducible assumption
    | exact rfl
    | with_reducible (first
        | apply Reach.then ?_ (State.freeFrame_reach ..) ?_
        | apply Reach.then ?_ (State.switchPage_reach ..) ?_)
    | (extract_lets +onlyGivenNames -underBinder -merge -useContext x; first | (refine Reach.cut x ?_ (fun _ => ?_); rotate_left; clear_value x; rotate_left; unfold x; clear x) | (have _ := fun a => x a; unfold x; clear x) | clear_value x)
    | (split <;> try (refine Reach.cut1 (by assumption) ?_ (fun _ => ?_)))
    | split)

theorem State.setMoving_reach (s : State) (n : Nat) : Reach 0x1000 s (State.setMoving s n) := by
  have h0 := Reach.refl 0x1000 s
  unfold State.setMoving
  repeat' (first
    | with_reducible assumption
    | exact rfl
    | with_reducible (first
        | apply Reach.then ?_ (State.setFrame_reach ..) ?_))

theorem State.obtain_reach (s : State) (y0 : Nat) (y1 : Nat) (y2 : Nat) (y3 : Nat) : Reach1 0x1008000000000000000000000000000000008581d s (State.obtain s y0 y1 y2 y3) := by
  induction y0 generalizing s y1 y2 y3 with
  | zero =>
    have h0 := Reach.refl 0x1008000000000000000000000000000000008581d s
    unfold State.obtain
    repeat' (first
    | with_reducible assumption
    | exact rfl
    | simp -zeta -iota -proj only [Reach1.pair_iff]
    | with_reducible exact Reach1.fst (by assumption)
    | with_reducible (first
        | refine Reach.bump ?_ ?_
        | refine Reach.ite ?_ ?_
        | refine Reach1.ite ?_ ?_
        | apply Reach.then ?_ (State.dropCached_reach ..) ?_
        | apply Reach.then ?_ (State.setFrame_reach ..) ?_
        | apply Reach.then ?_ (State.setMoving_reach ..) ?_
        | apply Reach1.then ?_ (ih ..) ?_)
    | (extract_lets +onlyGivenNames -underBinder -merge -useContext x; first | (refine Reach.cut x ?_ (fun _ => ?_); rotate_left; clear_value x; rotate_left; unfold x; clear x) | (refine Reach1.cut x ?_ (fun _ => ?_); rotate_left; clear_value x; rotate_left; unfold x; clear x) | (refine Reach.cutP x ?_ (fun _ => ?_); rotate_left; clear_value x; rotate_left; unfold x; clear x) | (refine Reach1.cutP x ?_ (fun _ => ?_); rotate_left; clear_value x; rotate_left; unfold x; clear x) | (have _ := fun a => x a; unfold x; clear x) | clear_value x)
    | (split <;> try (first | refine Reach1.cut1 (by assumption) ?_ (fun _ => ?_) | refine Reach.cut1 (by assumption) ?_ (fun _ => ?_)))
    | split
    | with_reducible (first
        | refine Reach.set_pool ?_ ?_))
  | succ _ ih =>
    have h0 := Reach.refl 0x1008000000000000000000000000000000008581d s
    unfold State.obtain
    repeat' (first
    | with_reducible assumption
    | exact rfl
    | simp -zeta -iota -proj only [Reach1.pair_iff]
    | with_reducible exact Reach1.fst (by assumption)
    | with_reducible (first
        | refine Reach.bump ?_ ?_
        | refine Reach.ite ?_ ?_
        | refine Reach1.ite ?_ ?_
        | apply Reach.then ?_ (State.dropCached_reach ..) ?_
        | apply Reach.then ?_ (State.setFrame_reach ..) ?_
        | apply Reach.then ?_ (State.setMoving_reach ..) ?_
        | apply Reach1.then ?_ (ih ..) ?_)
    | (extract_lets +onlyGivenNames -underBinder -merge -useContext x; first | (refine Reach.cut x ?_ (fun _ => ?_); rotate_left; clear_value x; rotate_left; unfold x; clear x) | (refine Reach1.cut x ?_ (fun _ => ?_); rotate_left; clear_value x; rotate_left; unfold x; clear x) | (refine Reach.cutP x ?_ (fun _ => ?_); rotate_left; clear_value x; rotate_left; unfold x; clear x) | (refine Reach1.cutP x ?_ (fun _ => ?_); rotate_left; clear_value x; rotate_left; unfold x; clear x) | (have _ := fun a => x a; unfold x; clear x) | clear_value x)
    | (split <;> try (first | refine Reach1.cut1 (by assumption) ?_ (fun _ => ?_) | refine Reach.cut1 (by assumption) ?_ (fun _ => ?_)))
    | split
    | with_reducible (first
        | refine Reach.set_pool ?_ ?_))

theorem State.give_reach (s : State) (r : FrameReq) (n : Nat) : Reach 0x10000000000000000000000000000000000005000 s (State.give s r n) := by
  have h0 := Reach.refl 0x10000000000000000000000000000000000005000 s
  unfold State.give
  repeat' (first
    | with_reducible assumption
    | exact rfl
    | with_reducible (first
        | apply Reach.then ?_ (State.setFrame_reach ..) ?_
        | apply Reach.then ?_ (State.showUse_reach ..) ?_)
    | (extract_lets +onlyGivenNames -underBinder -merge -useContext x; first | (refine Reach.cut x ?_ (fun _ => ?_); rotate_left; clear_value x; rotate_left; unfold x; clear x) | (have _ := fun a => x a; unfold x; clear x) | clear_value x)
    | (split <;> try (refine Reach.cut1 (by assumption) ?_ (fun _ => ?_)))
    | split)

theorem State.serveReq_reach (s : State) (r : FrameReq) : Reach1 0x1008000000000000000000000000000000008581d s (State.serveReq s r) := by
  have h0 := Reach.refl 0x1008000000000000000000000000000000008581d s
  unfold State.serveReq
  repeat' (first
    | with_reducible assumption
    | exact rfl
    | simp -zeta -iota -proj only [Reach1.pair_iff]
    | with_reducible exact Reach1.fst (by assumption)
    | with_reducible (first
        | apply Reach.then ?_ (State.give_reach ..) ?_
        | apply Reach1.then ?_ (State.obtain_reach ..) ?_
        | apply Reach1.fst (Reach1.then ?_ (State.obtain_reach ..) ?_))
    | (extract_lets +onlyGivenNames -underBinder -merge -useContext x; first | (refine Reach.cut x ?_ (fun _ => ?_); rotate_left; clear_value x; rotate_left; unfold x; clear x) | (refine Reach1.cut x ?_ (fun _ => ?_); rotate_left; clear_value x; rotate_left; unfold x; clear x) | (refine Reach.cutP x ?_ (fun _ => ?_); rotate_left; clear_value x; rotate_left; unfold x; clear x) | (refine Reach1.cutP x ?_ (fun _ => ?_); rotate_left; clear_value x; rotate_left; unfold x; clear x) | (have _ := fun a => x a; unfold x; clear x) | clear_value x)
    | (split <;> try (first | refine Reach1.cut1 (by assumption) ?_ (fun _ => ?_) | refine Reach.cut1 (by assumption) ?_ (fun _ => ?_)))
    | split)

theorem State.retryList_reach (s : State) (y0 : List FrameReq) (y1 : List FrameReq) : Reach 0x1008000000000000000000000000000000008581d s (State.retryList s y0 y1) := by
  induction y1 generalizing s y0 with
  | nil =>
    have h0 := Reach.refl 0x1008000000000000000000000000000000008581d s
    unfold State.retryList
    repeat' (first
    | with_reducible assumption
    | exact rfl
    | simp -zeta -iota -proj only [Reach1.pair_iff]
    | with_reducible exact Reach1.fst (by assumption)
    | with_reducible (first
        | refine Reach.ite ?_ ?_
        | apply Reach1.then ?_ (State.serveReq_reach ..) ?_
        | apply Reach1.fst (Reach1.then ?_ (State.serveReq_reach ..) ?_)
        | apply Reach.then ?_ (ih ..) ?_)
    | (extract_lets +onlyGivenNames -underBinder -merge -useContext x; first | (refine Reach.cut x ?_ (fun _ => ?_); rotate_left; clear_value x; rotate_left; unfold x; clear x) | (refine Reach.cutP x ?_ (fun _ => ?_); rotate_left; clear_value x; rotate_left; unfold x; clear x) | (have _ := fun a => x a; unfold x; clear x) | clear_value x)
    | (split <;> try (refine Reach.cut1 (by assumption) ?_ (fun _ => ?_)))
    | split
    | with_reducible (first
        | refine Reach.set_pool ?_ ?_))
  | cons _ _ ih =>
    have h0 := Reach.refl 0x1008000000000000000000000000000000008581d s
    unfold State.retryList
    repeat' (first
    | with_reducible assumption
    | exact rfl
    | simp -zeta -iota -proj only [Reach1.pair_iff]
    | with_reducible exact Reach1.fst (by assumption)
    | with_reducible (first
        | refine Reach.ite ?_ ?_
        | apply Reach1.then ?_ (State.serveReq_reach ..) ?_
        | apply Reach1.fst (Reach1.then ?_ (State.serveReq_reach ..) ?_)
        | apply Reach.then ?_ (ih ..) ?_)
    | (extract_lets +onlyGivenNames -underBinder -merge -useContext x; first | (refine Reach.cut x ?_ (fun _ => ?_); rotate_left; clear_value x; rotate_left; unfold x; clear x) | (refine Reach.cutP x ?_ (fun _ => ?_); rotate_left; clear_value x; rotate_left; unfold x; clear x) | (have _ := fun a => x a; unfold x; clear x) | clear_value x)
    | (split <;> try (refine Reach.cut1 (by assumption) ?_ (fun _ => ?_)))
    | split
    | with_reducible (first
        | refine Reach.set_pool ?_ ?_))

theorem State.retryWaiting_reach (s : State) : Reach 0x1008000000000000000000000000000000008581d s (State.retryWaiting s) := by
  have h0 := Reach.refl 0x1008000000000000000000000000000000008581d s
  unfold State.retryWaiting
  repeat' (first
    | with_reducible assumption
    | exact rfl
    | with_reducible (first
        | apply Reach.then ?_ (State.retryList_reach ..) ?_))

theorem State.promote_reach (s : State) (die : Nat) (n : Nat) : Reach 0x1008000000000000000000000000000000008581d s (State.promote s die n) := by
  have h0 := Reach.refl 0x1008000000000000000000000000000000008581d s
  unfold State.promote
  repeat' (first
    | with_reducible assumption
    | exact rfl
    | simp -zeta -iota -proj only [Reach1.pair_iff]
    | with_reducible exact Reach1.fst (by assumption)
    | with_reducible (first
        | refine Reach.ite ?_ ?_
        | apply Reach1.then ?_ (State.obtain_reach ..) ?_
        | apply Reach1.fst (Reach1.then ?_ (State.obtain_reach ..) ?_)
        | apply Reach.then ?_ (State.setFrame_reach ..) ?_
        | apply Reach.then ?_ (State.setMoving_reach ..) ?_
        | apply Reach.then ?_ (State.showUse_reach ..) ?_)
    | (extract_lets +onlyGivenNames -underBinder -merge -useContext x; first | (refine Reach.cut x ?_ (fun _ => ?_); rotate_left; clear_value x; rotate_left; unfold x; clear x) | (refine Reach.cutP x ?_ (fun _ => ?_); rotate_left; clear_value x; rotate_left; unfold x; clear x) | (have _ := fun a => x a; unfold x; clear x) | clear_value x)
    | (split <;> try (refine Reach.cut1 (by assumption) ?_ (fun _ => ?_)))
    | split
    | with_reducible (first
        | refine Reach.set_pool ?_ ?_))

theorem State.placeReq_reach (s : State) (r : FrameReq) : Reach1 0x10000000000000000000000000000 s (State.placeReq s r) := by
  have h0 := Reach.refl 0x10000000000000000000000000000 s
  unfold State.placeReq
  repeat' (first
    | with_reducible assumption
    | exact rfl
    | simp -zeta -iota -proj only [Reach1.pair_iff]
    | with_reducible exact Reach1.fst (by assumption)
    | with_reducible (first
        | apply Reach.then ?_ (State.regionClamp_reach ..) ?_)
    | (extract_lets +onlyGivenNames -underBinder -merge -useContext x; first | (refine Reach.cut x ?_ (fun _ => ?_); rotate_left; clear_value x; rotate_left; unfold x; clear x) | (refine Reach1.cut x ?_ (fun _ => ?_); rotate_left; clear_value x; rotate_left; unfold x; clear x) | (have _ := fun a => x a; unfold x; clear x) | clear_value x)
    | (split <;> try (first | refine Reach1.cut1 (by assumption) ?_ (fun _ => ?_) | refine Reach.cut1 (by assumption) ?_ (fun _ => ?_)))
    | split)

theorem State.quarantine_reach (s : State) (n : Nat) (sector : Nat) (cause : Nat) : Reach 0x1000000000000000000000000000000002001000 s (State.quarantine s n sector cause) := by
  have h0 := Reach.refl 0x1000000000000000000000000000000002001000 s
  unfold State.quarantine
  repeat' (first
    | with_reducible assumption
    | exact rfl
    | with_reducible (first
        | refine Reach.bump ?_ ?_
        | refine Reach.ite ?_ ?_
        | apply Reach.then ?_ (State.raiseIrq_reach ..) ?_
        | apply Reach.then ?_ (State.setFrame_reach ..) ?_)
    | (extract_lets +onlyGivenNames -underBinder -merge -useContext x; first | (refine Reach.cut x ?_ (fun _ => ?_); rotate_left; clear_value x; rotate_left; unfold x; clear x) | (have _ := fun a => x a; unfold x; clear x) | clear_value x)
    | (split <;> try (refine Reach.cut1 (by assumption) ?_ (fun _ => ?_)))
    | split
    | with_reducible (first
        | refine Reach.set_pool ?_ ?_))

theorem State.takeWindow_reach (s : State) (tier : Nat) (die : Nat) (owner : Nat) (y0 : Nat) (y1 : List Nat) : Reach1 0x1008000000000000000000000000000000008581d s (State.takeWindow s tier die owner y0 y1) := by
  induction y0 generalizing s tier die owner y1 with
  | zero =>
    have h0 := Reach.refl 0x1008000000000000000000000000000000008581d s
    unfold State.takeWindow
    repeat' (first
    | with_reducible assumption
    | exact rfl
    | simp -zeta -iota -proj only [Reach1.pair_iff]
    | with_reducible exact Reach1.fst (by assumption)
    | with_reducible (first
        | apply Reach1.then ?_ (State.obtain_reach ..) ?_
        | apply Reach1.fst (Reach1.then ?_ (State.obtain_reach ..) ?_)
        | apply Reach.then ?_ (State.setFrame_reach ..) ?_
        | apply Reach1.then ?_ (ih ..) ?_)
    | (split <;> try (first | refine Reach1.cut1 (by assumption) ?_ (fun _ => ?_) | refine Reach.cut1 (by assumption) ?_ (fun _ => ?_)))
    | split)
  | succ _ ih =>
    have h0 := Reach.refl 0x1008000000000000000000000000000000008581d s
    unfold State.takeWindow
    repeat' (first
    | with_reducible assumption
    | exact rfl
    | simp -zeta -iota -proj only [Reach1.pair_iff]
    | with_reducible exact Reach1.fst (by assumption)
    | with_reducible (first
        | apply Reach1.then ?_ (State.obtain_reach ..) ?_
        | apply Reach1.fst (Reach1.then ?_ (State.obtain_reach ..) ?_)
        | apply Reach.then ?_ (State.setFrame_reach ..) ?_
        | apply Reach1.then ?_ (ih ..) ?_)
    | (split <;> try (first | refine Reach1.cut1 (by assumption) ?_ (fun _ => ?_) | refine Reach.cut1 (by assumption) ?_ (fun _ => ?_)))
    | split)

theorem State.fillSlots_reach (s : State) (p : StreamPlan) (y0 : List (List Nat)) : Reach1 0x1008000000000000000000000000000000008581d s (State.fillSlots s p y0) := by
  induction y0 generalizing s p with
  | nil =>
    have h0 := Reach.refl 0x1008000000000000000000000000000000008581d s
    unfold State.fillSlots
    repeat' (first
    | with_reducible assumption
    | exact rfl
    | simp -zeta -iota -proj only [Reach1.pair_iff]
    | with_reducible exact Reach1.fst (by assumption)
    | with_reducible (first
        | apply Reach1.then ?_ (State.takeWindow_reach ..) ?_
        | apply Reach1.fst (Reach1.then ?_ (State.takeWindow_reach ..) ?_)
        | apply Reach1.then ?_ (ih ..) ?_)
    | (extract_lets +onlyGivenNames -underBinder -merge -useContext x; first | (refine Reach.cut x ?_ (fun _ => ?_); rotate_left; clear_value x; rotate_left; unfold x; clear x) | (refine Reach1.cut x ?_ (fun _ => ?_); rotate_left; clear_value x; rotate_left; unfold x; clear x) | (refine Reach.cutP x ?_ (fun _ => ?_); rotate_left; clear_value x; rotate_left; unfold x; clear x) | (refine Reach1.cutP x ?_ (fun _ => ?_); rotate_left; clear_value x; rotate_left; unfold x; clear x) | (have _ := fun a => x a; unfold x; clear x) | clear_value x)
    | (split <;> try (first | refine Reach1.cut1 (by assumption) ?_ (fun _ => ?_) | refine Reach.cut1 (by assumption) ?_ (fun _ => ?_)))
    | split)
  | cons _ _ ih =>
    have h0 := Reach.refl 0x1008000000000000000000000000000000008581d s
    unfold State.fillSlots
    repeat' (first
    | with_reducible assumption
    | exact rfl
    | simp -zeta -iota -proj only [Reach1.pair_iff]
    | with_reducible exact Reach1.fst (by assumption)
    | with_reducible (first
        | apply Reach1.then ?_ (State.takeWindow_reach ..) ?_
        | apply Reach1.fst (Reach1.then ?_ (State.takeWindow_reach ..) ?_)
        | apply Reach1.then ?_ (ih ..) ?_)
    | (extract_lets +onlyGivenNames -underBinder -merge -useContext x; first | (refine Reach.cut x ?_ (fun _ => ?_); rotate_left; clear_value x; rotate_left; unfold x; clear x) | (refine Reach1.cut x ?_ (fun _ => ?_); rotate_left; clear_value x; rotate_left; unfold x; clear x) | (refine Reach.cutP x ?_ (fun _ => ?_); rotate_left; clear_value x; rotate_left; unfold x; clear x) | (refine Reach1.cutP x ?_ (fun _ => ?_); rotate_left; clear_value x; rotate_left; unfold x; clear x) | (have _ := fun a => x a; unfold x; clear x) | clear_value x)
    | (split <;> try (first | refine Reach1.cut1 (by assumption) ?_ (fun _ => ?_) | refine Reach.cut1 (by assumption) ?_ (fun _ => ?_)))
    | split)

theorem State.fillPlan_reach (s : State) (p : StreamPlan) : Reach1 0x1008000000000000000000000000000000008581d s (State.fillPlan s p) := by
  have h0 := Reach.refl 0x1008000000000000000000000000000000008581d s
  unfold State.fillPlan
  repeat' (first
    | with_reducible assumption
    | exact rfl
    | simp -zeta -iota -proj only [Reach1.pair_iff]
    | with_reducible exact Reach1.fst (by assumption)
    | with_reducible (first
        | refine Reach.ite ?_ ?_
        | refine Reach1.ite ?_ ?_
        | apply Reach1.then ?_ (State.fillSlots_reach ..) ?_
        | apply Reach1.fst (Reach1.then ?_ (State.fillSlots_reach ..) ?_)
        | apply Reach.then ?_ (State.showUse_reach ..) ?_
        | apply Reach1.then ?_ (State.takeWindow_reach ..) ?_
        | apply Reach1.fst (Reach1.then ?_ (State.takeWindow_reach ..) ?_))
    | (extract_lets +onlyGivenNames -underBinder -merge -useContext x; first | (refine Reach.cut x ?_ (fun _ => ?_); rotate_left; clear_value x; rotate_left; unfold x; clear x) | (refine Reach1.cut x ?_ (fun _ => ?_); rotate_left; clear_value x; rotate_left; unfold x; clear x) | (refine Reach.cutP x ?_ (fun _ => ?_); rotate_left; clear_value x; rotate_left; unfold x; clear x) | (refine Reach1.cutP x ?_ (fun _ => ?_); rotate_left; clear_value x; rotate_left; unfold x; clear x) | (have _ := fun a => x a; unfold x; clear x) | clear_value x)
    | (split <;> try (first | refine Reach1.cut1 (by assumption) ?_ (fun _ => ?_) | refine Reach.cut1 (by assumption) ?_ (fun _ => ?_)))
    | split)

theorem State.fillPlans_reach (s : State) : Reach 0x1008000000000000000000000000000000008581d s (State.fillPlans s) := by
  have h0 := Reach.refl 0x1008000000000000000000000000000000008581d s
  unfold State.fillPlans
  repeat' (first
    | with_reducible assumption
    | exact rfl
    | simp -zeta -iota -proj only [Reach1.pair_iff]
    | with_reducible exact Reach1.fst (by assumption)
    | with_reducible (first
        | refine Reach.ite ?_ ?_
        | refine Reach1.ite ?_ ?_
        | refine Reach.foldl _ ?_ (fun _ _ _ => ?_)
        | refine Reach1.foldl _ ?_ (fun _ _ _ => ?_)
        | refine Reach1.fst (Reach1.foldl _ ?_ (fun _ _ _ => ?_))
        | apply Reach1.then ?_ (State.fillPlan_reach ..) ?_
        | apply Reach1.fst (Reach1.then ?_ (State.fillPlan_reach ..) ?_))
    | (extract_lets +onlyGivenNames -underBinder -merge -useContext x; first | (refine Reach.cut x ?_ (fun _ => ?_); rotate_left; clear_value x; rotate_left; unfold x; clear x) | (refine Reach.cutP x ?_ (fun _ => ?_); rotate_left; clear_value x; rotate_left; unfold x; clear x) | (have _ := fun a => x a; unfold x; clear x) | clear_value x)
    | (split <;> try (refine Reach.cut1 (by assumption) ?_ (fun _ => ?_)))
    | split
    | with_reducible (first
        | refine Reach.set_pool ?_ ?_))

theorem State.freePlan_reach (s : State) (p : StreamPlan) : Reach 0x10000000000000000000000000000000000005000 s (State.freePlan s p) := by
  have h0 := Reach.refl 0x10000000000000000000000000000000000005000 s
  unfold State.freePlan
  repeat' (first
    | with_reducible assumption
    | exact rfl
    | simp -zeta -iota -proj only [Reach1.pair_iff]
    | with_reducible exact Reach1.fst (by assumption)
    | with_reducible (first
        | refine Reach.foldl _ ?_ (fun _ _ _ => ?_)
        | refine Reach1.foldl _ ?_ (fun _ _ _ => ?_)
        | refine Reach1.fst (Reach1.foldl _ ?_ (fun _ _ _ => ?_))
        | apply Reach.then ?_ (State.setFrame_reach ..) ?_
        | apply Reach.then ?_ (State.showUse_reach ..) ?_))

theorem State.cutFloors_reach (s : State) (die : Nat) (frames : Nat) : Reach 0x8000000000000000000000000000000000004000 s (State.cutFloors s die frames) := by
  have h0 := Reach.refl 0x8000000000000000000000000000000000004000 s
  unfold State.cutFloors
  repeat' (first
    | with_reducible assumption
    | exact rfl
    | simp -zeta -iota -proj only [Reach1.pair_iff]
    | with_reducible exact Reach1.fst (by assumption)
    | with_reducible (first
        | refine Reach.bump ?_ ?_
        | refine Reach.ite ?_ ?_
        | refine Reach1.ite ?_ ?_
        | refine Reach.foldl _ ?_ (fun _ _ _ => ?_)
        | refine Reach1.foldl _ ?_ (fun _ _ _ => ?_)
        | refine Reach1.fst (Reach1.foldl _ ?_ (fun _ _ _ => ?_))
        | apply Reach.then ?_ (State.dput_reach ..) ?_)
    | (extract_lets +onlyGivenNames -underBinder -merge -useContext x; first | (refine Reach.cut x ?_ (fun _ => ?_); rotate_left; clear_value x; rotate_left; unfold x; clear x) | (refine Reach.cutP x ?_ (fun _ => ?_); rotate_left; clear_value x; rotate_left; unfold x; clear x) | (have _ := fun a => x a; unfold x; clear x) | clear_value x)
    | (split <;> try (refine Reach.cut1 (by assumption) ?_ (fun _ => ?_)))
    | split)

theorem State.dropFrame_reach (s : State) (die : Nat) (row : Nat) : Reach 0x8000000002000000000000000000000000004400 s (State.dropFrame s die row) := by
  have h0 := Reach.refl 0x8000000002000000000000000000000000004400 s
  unfold State.dropFrame
  repeat' (first
    | with_reducible assumption
    | exact rfl
    | simp -zeta -iota -proj only [Reach1.pair_iff]
    | with_reducible exact Reach1.fst (by assumption)
    | with_reducible (first
        | refine Reach.setFld ?_ ?_
        | refine Reach.ite ?_ ?_
        | refine Reach1.ite ?_ ?_
        | refine Reach.foldl _ ?_ (fun _ _ _ => ?_)
        | refine Reach1.foldl _ ?_ (fun _ _ _ => ?_)
        | refine Reach1.fst (Reach1.foldl _ ?_ (fun _ _ _ => ?_))
        | apply Reach.then ?_ (State.cutFloors_reach ..) ?_
        | apply Reach.then ?_ (State.dput_reach ..) ?_)
    | (extract_lets +onlyGivenNames -underBinder -merge -useContext x; first | (refine Reach.cut x ?_ (fun _ => ?_); rotate_left; clear_value x; rotate_left; unfold x; clear x) | (refine Reach.cutP x ?_ (fun _ => ?_); rotate_left; clear_value x; rotate_left; unfold x; clear x) | (have _ := fun a => x a; unfold x; clear x) | clear_value x)
    | (split <;> try (refine Reach.cut1 (by assumption) ?_ (fun _ => ?_)))
    | split
    | dsimp -zeta only []
    | with_reducible (first
        | refine Reach.set_sram ?_ ?_))

theorem State.emptyRetired_reach (s : State) (n : Nat) (die : Nat) : Reach 0x100000000000000000000000000103a011f82b000000c00000000000000000087c1d s (State.emptyRetired s n die) := by
  have h0 := Reach.refl 0x100000000000000000000000000103a011f82b000000c00000000000000000087c1d s
  unfold State.emptyRetired
  repeat' (first
    | with_reducible assumption
    | exact rfl
    | simp -zeta -iota -proj only [Reach1.pair_iff]
    | with_reducible exact Reach1.fst (by assumption)
    | with_reducible (first
        | refine Reach.bump ?_ ?_
        | refine Reach.ite ?_ ?_
        | apply Reach.then ?_ (State.copyFrame_reach ..) ?_
        | apply Reach.then ?_ (State.dropCached_reach ..) ?_
        | apply Reach.then ?_ (State.freeFrame_reach ..) ?_
        | apply Reach1.then ?_ (State.obtain_reach ..) ?_
        | apply Reach1.fst (Reach1.then ?_ (State.obtain_reach ..) ?_)
        | apply Reach.then ?_ (State.setFrame_reach ..) ?_
        | apply Reach.then ?_ (State.showUse_reach ..) ?_
        | apply Reach.then ?_ (State.switchPage_reach ..) ?_)
    | (extract_lets +onlyGivenNames -underBinder -merge -useContext x; first | (refine Reach.cut x ?_ (fun _ => ?_); rotate_left; clear_value x; rotate_left; unfold x; clear x) | (refine Reach.cutP x ?_ (fun _ => ?_); rotate_left; clear_value x; rotate_left; unfold x; clear x) | (have _ := fun a => x a; unfold x; clear x) | clear_value x)
    | (split <;> try (refine Reach.cut1 (by assumption) ?_ (fun _ => ?_)))
    | split
    | dsimp -zeta only []
    | with_reducible (first
        | refine Reach.set_pool ?_ ?_))

theorem State.retireFrame_reach (s : State) (die : Nat) (row : Nat) : Reach 0x100000000000000000000000000183a011f82b000000c00000000000000000087c1d s (State.retireFrame s die row) := by
  have h0 := Reach.refl 0x100000000000000000000000000183a011f82b000000c00000000000000000087c1d s
  unfold State.retireFrame
  repeat' (first
    | with_reducible assumption
    | exact rfl
    | with_reducible (first
        | refine Reach.ite ?_ ?_
        | apply Reach.then ?_ (State.cancelMove_reach ..) ?_
        | apply Reach.then ?_ (State.dropFrame_reach ..) ?_
        | apply Reach.then ?_ (State.emptyRetired_reach ..) ?_
        | apply Reach.then ?_ (State.freeFrame_reach ..) ?_)
    | (extract_lets +onlyGivenNames -underBinder -merge -useContext x; first | (refine Reach.cut x ?_ (fun _ => ?_); rotate_left; clear_value x; rotate_left; unfold x; clear x) | (have _ := fun a => x a; unfold x; clear x) | clear_value x)
    | (split <;> try (refine Reach.cut1 (by assumption) ?_ (fun _ => ?_)))
    | split
    | with_reducible (first
        | refine Reach.set_pool ?_ ?_))

theorem State.retryRetired_reach (s : State) : Reach 0x100000000000000000000000000103a011f82b000000c00000000000000000087c1d s (State.retryRetired s) := by
  have h0 := Reach.refl 0x100000000000000000000000000103a011f82b000000c00000000000000000087c1d s
  unfold State.retryRetired
  repeat' (first
    | with_reducible assumption
    | exact rfl
    | simp -zeta -iota -proj only [Reach1.pair_iff]
    | with_reducible exact Reach1.fst (by assumption)
    | with_reducible (first
        | refine Reach.foldl _ ?_ (fun _ _ _ => ?_)
        | refine Reach1.foldl _ ?_ (fun _ _ _ => ?_)
        | refine Reach1.fst (Reach1.foldl _ ?_ (fun _ _ _ => ?_))
        | apply Reach.then ?_ (State.emptyRetired_reach ..) ?_))

end Sys2Proof.Machine
end

