-- ==== Sys2Proof/Laws/ReachCube.lean ====
section
/-!
SUPPORT. The footprint of each function of Machine/Cube.lean.
-/
set_option linter.unusedTactic false
set_option linter.unreachableTactic false
namespace Sys2Proof.Machine

theorem State.setArr_reach {F : Nat} {r0 : State} {s : State} {f : Field} {e : Nat} {v : Nat} (h0 : Reach F r0 s) (m : F.testBit (64 + f.reg.ctorIdx) = true)
    (own : 0x0 &&& F = 0x0) : Reach F r0 (State.setArr s f e v) := by
  unfold State.setArr
  repeat' (first
    | with_reducible assumption
    | exact rfl
    | with_reducible (first
        | refine Reach.setFld ?_ ?_
        | exact m
        | exact sub_own own rfl))

theorem State.lensPutF32s_reach (s : State) (e : Nat) (y0 : List (Nat × F32)) : Reach 0x16 s (State.lensPutF32s s e y0) := by
  induction y0 generalizing s e with
  | nil =>
    have h0 := Reach.refl 0x16 s
    unfold State.lensPutF32s
    repeat' (first
    | with_reducible assumption
    | exact rfl
    | with_reducible (first
        | apply Reach.then ?_ (State.lensPutF32_reach ..) ?_
        | apply Reach.then ?_ (ih ..) ?_)
    | (split <;> try (refine Reach.cut1 (by assumption) ?_ (fun _ => ?_)))
    | split)
  | cons _ _ ih =>
    have h0 := Reach.refl 0x16 s
    unfold State.lensPutF32s
    repeat' (first
    | with_reducible assumption
    | exact rfl
    | with_reducible (first
        | apply Reach.then ?_ (State.lensPutF32_reach ..) ?_
        | apply Reach.then ?_ (ih ..) ?_)
    | (split <;> try (refine Reach.cut1 (by assumption) ?_ (fun _ => ?_)))
    | split)

theorem State.issuePass_reach (s : State) (e : Nat) (c : PassCmd) (task : Nat) (index : Nat) : Reach 0x40003000000000000000000000006001022011fe200d41200808c00c0000001002787cff s (State.issuePass s e c task index) := by
  have h0 := Reach.refl 0x40003000000000000000000000006001022011fe200d41200808c00c0000001002787cff s
  unfold State.issuePass
  repeat' (first
    | with_reducible assumption
    | exact rfl
    | with_reducible (first
        | refine Reach.bump ?_ ?_
        | refine Reach.ite ?_ ?_
        | apply Reach.then ?_ (State.lensPutF32s_reach ..) ?_
        | refine State.setArr_reach ?_ ?_ ?_
        | apply Reach.then ?_ (State.setEng_reach ..) ?_
        | apply Reach.then ?_ (State.traceCmd_reach ..) ?_
        | apply Reach.then ?_ (State.writeOut_reach ..) ?_)
    | (extract_lets +onlyGivenNames -underBinder -merge -useContext x; first | (refine Reach.cut x ?_ (fun _ => ?_); rotate_left; clear_value x; rotate_left; unfold x; clear x) | (have _ := fun a => x a; unfold x; clear x) | clear_value x)
    | (split <;> try (refine Reach.cut1 (by assumption) ?_ (fun _ => ?_)))
    | split)

theorem State.rampClamp_reach (s : State) (e : Nat) (prof : Nat) : Reach 0x10000000000000000000000000000 s (State.rampClamp s e prof) := by
  have h0 := Reach.refl 0x10000000000000000000000000000 s
  unfold State.rampClamp
  repeat' (first
    | with_reducible assumption
    | exact rfl
    | with_reducible (first
        | apply Reach.then ?_ (State.clamped_reach ..) ?_))

theorem State.loadStationary_reach (s : State) (e : Nat) (c : PassCmd) : Reach 0x20 s (State.loadStationary s e c) := by
  have h0 := Reach.refl 0x20 s
  unfold State.loadStationary
  repeat' (first
    | with_reducible assumption
    | exact rfl
    | with_reducible (first
        | refine Reach.ite ?_ ?_
        | apply Reach.then ?_ (State.setEng_reach ..) ?_)
    | (extract_lets +onlyGivenNames -underBinder -merge -useContext x; first | (refine Reach.cut x ?_ (fun _ => ?_); rotate_left; clear_value x; rotate_left; unfold x; clear x) | (have _ := fun a => x a; unfold x; clear x) | clear_value x)
    | (split <;> try (refine Reach.cut1 (by assumption) ?_ (fun _ => ?_)))
    | split)

theorem State.openTile_reach (s : State) (e : Nat) (task : Nat) (opc : Nat) (index : Nat) : Reach 0x20000000000000000000000000000000000000000000000000000000000000400020 s (State.openTile s e task opc index) := by
  have h0 := Reach.refl 0x20000000000000000000000000000000000000000000000000000000000000400020 s
  unfold State.openTile
  repeat' (first
    | with_reducible assumption
    | exact rfl
    | with_reducible (first
        | refine Reach.ite ?_ ?_
        | apply Reach.then ?_ (State.setEng_reach ..) ?_
        | apply Reach.then ?_ (State.traceCmd_reach ..) ?_)
    | (extract_lets +onlyGivenNames -underBinder -merge -useContext x; first | (refine Reach.cut x ?_ (fun _ => ?_); rotate_left; clear_value x; rotate_left; unfold x; clear x) | (have _ := fun a => x a; unfold x; clear x) | clear_value x)
    | (split <;> try (refine Reach.cut1 (by assumption) ?_ (fun _ => ?_)))
    | split)

theorem State.beginPass_reach (s : State) (e : Nat) (task : Nat) (index : Nat) (w : Words4) : Reach 0x40003000000000000000000000006001022011fe200d4120080dc00c0000001002787dff s (State.beginPass s e task index w) := by
  have h0 := Reach.refl 0x40003000000000000000000000006001022011fe200d4120080dc00c0000001002787dff s
  unfold State.beginPass
  repeat' (first
    | with_reducible assumption
    | exact rfl
    | simp -zeta -iota -proj only [Reach1.pair_iff]
    | with_reducible exact Reach1.fst (by assumption)
    | with_reducible (first
        | refine Reach.ite ?_ ?_
        | apply Reach.then ?_ (State.clamped_reach ..) ?_
        | apply Reach.then ?_ (State.issuePass_reach ..) ?_
        | apply Reach1.then ?_ (State.lensFaults_reach ..) ?_
        | apply Reach1.fst (Reach1.then ?_ (State.lensFaults_reach ..) ?_)
        | apply Reach.then ?_ (State.loadStationary_reach ..) ?_
        | apply Reach.then ?_ (State.openTile_reach ..) ?_
        | apply Reach.then ?_ (State.rampClamp_reach ..) ?_
        | refine State.setArr_reach ?_ ?_ ?_
        | apply Reach.then ?_ (State.setEng_reach ..) ?_)
    | (extract_lets +onlyGivenNames -underBinder -merge -useContext x; first | (refine Reach.cut x ?_ (fun _ => ?_); rotate_left; clear_value x; rotate_left; unfold x; clear x) | (refine Reach.cutP x ?_ (fun _ => ?_); rotate_left; clear_value x; rotate_left; unfold x; clear x) | (have _ := fun a => x a; unfold x; clear x) | clear_value x)
    | (split <;> try (refine Reach.cut1 (by assumption) ?_ (fun _ => ?_)))
    | split
    | dsimp -zeta only [])

theorem State.startRamp_reach (s : State) (e : Nat) (r : Nat) : Reach 0x10000000000640000000000000020 s (State.startRamp s e r) := by
  have h0 := Reach.refl 0x10000000000640000000000000020 s
  unfold State.startRamp
  repeat' (first
    | with_reducible assumption
    | exact rfl
    | with_reducible (first
        | refine Reach.bump ?_ ?_
        | refine Reach.ite ?_ ?_
        | apply Reach.then ?_ (State.rampClamp_reach ..) ?_
        | refine State.setArr_reach ?_ ?_ ?_
        | apply Reach.then ?_ (State.setEng_reach ..) ?_)
    | (extract_lets +onlyGivenNames -underBinder -merge -useContext x; first | (refine Reach.cut x ?_ (fun _ => ?_); rotate_left; clear_value x; rotate_left; unfold x; clear x) | (have _ := fun a => x a; unfold x; clear x) | clear_value x)
    | (split <;> try (refine Reach.cut1 (by assumption) ?_ (fun _ => ?_)))
    | split)

theorem rampWindowStartEffect_reach (r : Fin 8) (s : State) : Reach 0x10000000000640000000000000020 s (rampWindowStartEffect r s) := by
  have h0 := Reach.refl 0x10000000000640000000000000020 s
  unfold rampWindowStartEffect
  repeat' (first
    | with_reducible assumption
    | exact rfl
    | simp -zeta -iota -proj only [Reach1.pair_iff]
    | with_reducible exact Reach1.fst (by assumption)
    | with_reducible (first
        | refine Reach.foldl _ ?_ (fun _ _ _ => ?_)
        | refine Reach1.foldl _ ?_ (fun _ _ _ => ?_)
        | refine Reach1.fst (Reach1.foldl _ ?_ (fun _ _ _ => ?_))
        | apply Reach.then ?_ (State.startRamp_reach ..) ?_))

theorem State.rampTick_reach (s : State) (e : Nat) : Reach 0x40000000000000020 s (State.rampTick s e) := by
  have h0 := Reach.refl 0x40000000000000020 s
  unfold State.rampTick
  repeat' (first
    | with_reducible assumption
    | exact rfl
    | with_reducible (first
        | refine Reach.ite ?_ ?_
        | refine State.setArr_reach ?_ ?_ ?_
        | apply Reach.then ?_ (State.setEng_reach ..) ?_)
    | (extract_lets +onlyGivenNames -underBinder -merge -useContext x; first | (refine Reach.cut x ?_ (fun _ => ?_); rotate_left; clear_value x; rotate_left; unfold x; clear x) | (have _ := fun a => x a; unfold x; clear x) | clear_value x)
    | (split <;> try (refine Reach.cut1 (by assumption) ?_ (fun _ => ?_)))
    | split)

theorem arrayRampDownEffect_reach (e : EngId) (idle : BitVec 16) (s : State) : Reach 0x10000000000040000000000000020 s (arrayRampDownEffect e idle s) := by
  have h0 := Reach.refl 0x10000000000040000000000000020 s
  unfold arrayRampDownEffect
  repeat' (first
    | with_reducible assumption
    | exact rfl
    | with_reducible (first
        | refine Reach.ite ?_ ?_
        | apply Reach.then ?_ (State.rampClamp_reach ..) ?_
        | refine State.setArr_reach ?_ ?_ ?_
        | apply Reach.then ?_ (State.setEng_reach ..) ?_)
    | (extract_lets +onlyGivenNames -underBinder -merge -useContext x; first | (refine Reach.cut x ?_ (fun _ => ?_); rotate_left; clear_value x; rotate_left; unfold x; clear x) | (have _ := fun a => x a; unfold x; clear x) | clear_value x)
    | (split <;> try (refine Reach.cut1 (by assumption) ?_ (fun _ => ?_)))
    | split)

theorem State.writeOut_reach (s : State) (e : Nat) (f : PassFlight) : Reach 0x40003000000000000000000000006001022011fe200d4120080840000000001002787cfd s (State.writeOut s e f) := by
  have h0 := Reach.refl 0x40003000000000000000000000006001022011fe200d4120080840000000001002787cfd s
  unfold State.writeOut
  repeat' (first
    | with_reducible assumption
    | exact rfl
    | with_reducible (first
        | refine Reach.bump ?_ ?_
        | refine Reach.ite ?_ ?_
        | apply Reach.then ?_ (State.clamped_reach ..) ?_
        | apply Reach.then ?_ (State.endWrite_reach ..) ?_
        | apply Reach.then ?_ (State.streamRows_reach ..) ?_)
    | (extract_lets +onlyGivenNames -underBinder -merge -useContext x; first | (refine Reach.cut x ?_ (fun _ => ?_); rotate_left; clear_value x; rotate_left; unfold x; clear x) | (refine Reach.cut x.st ?_ (fun _ => ?_); rotate_left; clear_value x; rotate_left; unfold x; clear x) | (have _ := fun a => x a; unfold x; clear x) | clear_value x)
    | (split <;> try (refine Reach.cut1 (by assumption) ?_ (fun _ => ?_)))
    | split)

theorem State.completePass_reach (s : State) (e : Nat) : Reach 0x40003000000000000000000000006001022011fe200d41200c0840040000001002787cfd s (State.completePass s e) := by
  have h0 := Reach.refl 0x40003000000000000000000000006001022011fe200d41200c0840040000001002787cfd s
  unfold State.completePass
  repeat' (first
    | with_reducible assumption
    | exact rfl
    | with_reducible (first
        | refine Reach.bump ?_ ?_
        | refine Reach.ite ?_ ?_
        | apply Reach.then ?_ (State.closeStageTile_reach ..) ?_
        | refine State.setArr_reach ?_ ?_ ?_
        | apply Reach.then ?_ (State.setEng_reach ..) ?_
        | apply Reach.then ?_ (State.traceCmd_reach ..) ?_
        | apply Reach.then ?_ (State.writeOut_reach ..) ?_)
    | (extract_lets +onlyGivenNames -underBinder -merge -useContext x; first | (refine Reach.cut x ?_ (fun _ => ?_); rotate_left; clear_value x; rotate_left; unfold x; clear x) | (have _ := fun a => x a; unfold x; clear x) | clear_value x)
    | (split <;> try (refine Reach.cut1 (by assumption) ?_ (fun _ => ?_)))
    | split)

theorem tileOverrunEffect_reach (e : EngId) (s : State) : Reach 0x800000000000000020 s (tileOverrunEffect e s) := by
  have h0 := Reach.refl 0x800000000000000020 s
  unfold tileOverrunEffect
  repeat' (first
    | with_reducible assumption
    | exact rfl
    | with_reducible (first
        | refine Reach.bump ?_ ?_
        | refine Reach.ite ?_ ?_
        | apply Reach.then ?_ (State.setEng_reach ..) ?_)
    | (extract_lets +onlyGivenNames -underBinder -merge -useContext x; first | (refine Reach.cut x ?_ (fun _ => ?_); rotate_left; clear_value x; rotate_left; unfold x; clear x) | (have _ := fun a => x a; unfold x; clear x) | clear_value x)
    | (split <;> try (refine Reach.cut1 (by assumption) ?_ (fun _ => ?_)))
    | split)

end Sys2Proof.Machine
end

