-- ==== Sys2Proof/Laws/ReachVector.lean ====
section
/-!
SUPPORT. The footprint of each function of Machine/Vector.lean.
-/
set_option linter.unusedTactic false
set_option linter.unreachableTactic false
namespace Sys2Proof.Machine

theorem State.emitLens_reach (s : State) (e : Nat) (v : VecCmd) (rows : List (List VecResult)) : Reach 0x400000000080000000000000000000016 s (State.emitLens s e v rows) := by
  have h0 := Reach.refl 0x400000000080000000000000000000016 s
  unfold State.emitLens
  repeat' (first
    | with_reducible assumption
    | exact rfl
    | simp -zeta -iota -proj only [Reach1.pair_iff]
    | with_reducible exact Reach1.fst (by assumption)
    | with_reducible (first
        | refine Reach.bump ?_ ?_
        | refine Reach.foldl _ ?_ (fun _ _ _ => ?_)
        | refine Reach1.foldl _ ?_ (fun _ _ _ => ?_)
        | refine Reach1.fst (Reach1.foldl _ ?_ (fun _ _ _ => ?_))
        | apply Reach.then ?_ (State.lensPut_reach ..) ?_
        | apply Reach.then ?_ (State.postFlags_reach ..) ?_)
    | (extract_lets +onlyGivenNames -underBinder -merge -useContext x; first | (refine Reach.cut x ?_ (fun _ => ?_); rotate_left; clear_value x; rotate_left; unfold x; clear x) | (refine Reach.cutP x ?_ (fun _ => ?_); rotate_left; clear_value x; rotate_left; unfold x; clear x) | (have _ := fun a => x a; unfold x; clear x) | clear_value x))

theorem State.emitDesc_reach (s : State) (e : Nat) (v : VecCmd) (c : Chain) (k : Nat) (row0 : Nat) (rows : List (List VecResult)) : Reach 0x40003000000000000000000000006001022011fe200d4120080840000000001002787cfd s (State.emitDesc s e v c k row0 rows) := by
  have h0 := Reach.refl 0x40003000000000000000000000006001022011fe200d4120080840000000001002787cfd s
  unfold State.emitDesc
  repeat' (first
    | with_reducible assumption
    | exact rfl
    | simp -zeta -iota -proj only [Reach1.pair_iff]
    | with_reducible exact Reach1.fst (by assumption)
    | with_reducible (first
        | refine Reach.bump ?_ ?_
        | refine Reach.ite ?_ ?_
        | refine Reach1.ite ?_ ?_
        | refine Reach.foldl _ ?_ (fun _ _ _ => ?_)
        | refine Reach1.foldl _ ?_ (fun _ _ _ => ?_)
        | refine Reach1.fst (Reach1.foldl _ ?_ (fun _ _ _ => ?_))
        | apply Reach.then ?_ (State.clamped_reach ..) ?_
        | apply Reach.then ?_ (State.endWrite_reach ..) ?_
        | apply Reach.then ?_ (State.postFlags_reach ..) ?_
        | apply Reach.then ?_ (State.streamRows_reach ..) ?_)
    | (extract_lets +onlyGivenNames -underBinder -merge -useContext x; first | (refine Reach.cut x ?_ (fun _ => ?_); rotate_left; clear_value x; rotate_left; unfold x; clear x) | (refine Reach.cutP x ?_ (fun _ => ?_); rotate_left; clear_value x; rotate_left; unfold x; clear x) | (refine Reach.cut x.st ?_ (fun _ => ?_); rotate_left; clear_value x; rotate_left; unfold x; clear x) | (have _ := fun a => x a; unfold x; clear x) | clear_value x)
    | (split <;> try (refine Reach.cut1 (by assumption) ?_ (fun _ => ?_)))
    | split)

theorem State.emit_reach (s : State) (e : Nat) (task : Nat) (v : VecCmd) (rows : List (List VecResult)) : Reach 0x40003000000000000000000000006001022011fe200d4120080840000000001002787cff s (State.emit s e task v rows) := by
  have h0 := Reach.refl 0x40003000000000000000000000006001022011fe200d4120080840000000001002787cff s
  unfold State.emit
  repeat' (first
    | with_reducible assumption
    | exact rfl
    | with_reducible (first
        | refine Reach.ite ?_ ?_
        | apply Reach.then ?_ (State.emitDesc_reach ..) ?_
        | apply Reach.then ?_ (State.emitLens_reach ..) ?_)
    | (split <;> try (refine Reach.cut1 (by assumption) ?_ (fun _ => ?_)))
    | split)

theorem State.putMap_reach (s : State) (e : Nat) (v : VecCmd) (codes : List Nat) : Reach 0x16 s (State.putMap s e v codes) := by
  have h0 := Reach.refl 0x16 s
  unfold State.putMap
  repeat' (first
    | with_reducible assumption
    | exact rfl
    | with_reducible (first
        | apply Reach.then ?_ (State.lensPut_reach ..) ?_))

theorem State.skipEffect_reach (s : State) (e : Nat) (v : VecCmd) : Reach 0x3c000000000000000016 s (State.skipEffect s e v) := by
  have h0 := Reach.refl 0x3c000000000000000016 s
  unfold State.skipEffect
  repeat' (first
    | with_reducible assumption
    | exact rfl
    | simp -zeta -iota -proj only [Reach1.pair_iff]
    | with_reducible exact Reach1.fst (by assumption)
    | with_reducible (first
        | refine Reach.bump ?_ ?_
        | refine Reach.ite ?_ ?_
        | refine Reach1.ite ?_ ?_
        | refine Reach.foldl _ ?_ (fun _ _ _ => ?_)
        | refine Reach1.foldl _ ?_ (fun _ _ _ => ?_)
        | refine Reach1.fst (Reach1.foldl _ ?_ (fun _ _ _ => ?_))
        | apply Reach.then ?_ (State.putMap_reach ..) ?_)
    | (extract_lets +onlyGivenNames -underBinder -merge -useContext x; first | (refine Reach.cut x ?_ (fun _ => ?_); rotate_left; clear_value x; rotate_left; unfold x; clear x) | (refine Reach.cutP x ?_ (fun _ => ?_); rotate_left; clear_value x; rotate_left; unfold x; clear x) | (have _ := fun a => x a; unfold x; clear x) | clear_value x)
    | (split <;> try (refine Reach.cut1 (by assumption) ?_ (fun _ => ?_)))
    | split
    | dsimp -zeta only [])

theorem State.putRowStates_reach (s : State) (e : Nat) (v : VecCmd) (y0 : List (Nat × SmxRow)) : Reach 0x16 s (State.putRowStates s e v y0) := by
  induction y0 generalizing s e v with
  | nil =>
    have h0 := Reach.refl 0x16 s
    unfold State.putRowStates
    repeat' (first
    | with_reducible assumption
    | exact rfl
    | with_reducible (first
        | apply Reach.then ?_ (State.lensPutF32_reach ..) ?_
        | apply Reach.then ?_ (ih ..) ?_)
    | (extract_lets +onlyGivenNames -underBinder -merge -useContext x; first | (refine Reach.cut x ?_ (fun _ => ?_); rotate_left; clear_value x; rotate_left; unfold x; clear x) | (have _ := fun a => x a; unfold x; clear x) | clear_value x)
    | (split <;> try (refine Reach.cut1 (by assumption) ?_ (fun _ => ?_)))
    | split)
  | cons _ _ ih =>
    have h0 := Reach.refl 0x16 s
    unfold State.putRowStates
    repeat' (first
    | with_reducible assumption
    | exact rfl
    | with_reducible (first
        | apply Reach.then ?_ (State.lensPutF32_reach ..) ?_
        | apply Reach.then ?_ (ih ..) ?_)
    | (extract_lets +onlyGivenNames -underBinder -merge -useContext x; first | (refine Reach.cut x ?_ (fun _ => ?_); rotate_left; clear_value x; rotate_left; unfold x; clear x) | (have _ := fun a => x a; unfold x; clear x) | clear_value x)
    | (split <;> try (refine Reach.cut1 (by assumption) ?_ (fun _ => ?_)))
    | split)

theorem State.genEffect_reach (s : State) (e : Nat) (task : Nat) (v : VecCmd) : Reach 0x40003000000000000000000000006001022011fe200d4120080840000000001002787cff s (State.genEffect s e task v) := by
  have h0 := Reach.refl 0x40003000000000000000000000006001022011fe200d4120080840000000001002787cff s
  unfold State.genEffect
  repeat' (first
    | with_reducible assumption
    | exact rfl
    | with_reducible (first
        | refine Reach.bump ?_ ?_
        | apply Reach.then ?_ (State.clamped_reach ..) ?_
        | apply Reach.then ?_ (State.emit_reach ..) ?_)
    | (extract_lets +onlyGivenNames -underBinder -merge -useContext x; first | (refine Reach.cut x ?_ (fun _ => ?_); rotate_left; clear_value x; rotate_left; unfold x; clear x) | (have _ := fun a => x a; unfold x; clear x) | clear_value x)
    | (split <;> try (refine Reach.cut1 (by assumption) ?_ (fun _ => ?_)))
    | split)

theorem State.runVec_reach (s : State) (e : Nat) (task : Nat) (index : Nat) (w : Words4) : Reach 0x40003000000000000000000000006001022011fe200d4120180dff000000001002787dff s (State.runVec s e task index w) := by
  have h0 := Reach.refl 0x40003000000000000000000000006001022011fe200d4120180dff000000001002787dff s
  unfold State.runVec
  repeat' (first
    | with_reducible assumption
    | exact rfl
    | simp -zeta -iota -proj only [Reach1.pair_iff]
    | with_reducible exact Reach1.fst (by assumption)
    | with_reducible (first
        | refine Reach.wr ?_ ?_
        | refine Reach.bump ?_ ?_
        | refine Reach.ite ?_ ?_
        | apply Reach.then ?_ (State.clamped_reach ..) ?_
        | apply Reach.then ?_ (State.emit_reach ..) ?_
        | apply Reach.then ?_ (State.genEffect_reach ..) ?_
        | apply Reach1.then ?_ (State.lensFaults_reach ..) ?_
        | apply Reach1.fst (Reach1.then ?_ (State.lensFaults_reach ..) ?_)
        | apply Reach.then ?_ (State.lensPutF32_reach ..) ?_
        | apply Reach.then ?_ (State.openTile_reach ..) ?_
        | apply Reach.then ?_ (State.putRowStates_reach ..) ?_
        | apply Reach.then ?_ (State.skipEffect_reach ..) ?_
        | apply Reach.then ?_ (State.traceCmd_reach ..) ?_)
    | (extract_lets +onlyGivenNames -underBinder -merge -useContext x; first | (refine Reach.cut x ?_ (fun _ => ?_); rotate_left; clear_value x; rotate_left; unfold x; clear x) | (refine Reach.cutP x ?_ (fun _ => ?_); rotate_left; clear_value x; rotate_left; unfold x; clear x) | (have _ := fun a => x a; unfold x; clear x) | clear_value x)
    | (split <;> try (refine Reach.cut1 (by assumption) ?_ (fun _ => ?_)))
    | split
    | dsimp -zeta only [])

end Sys2Proof.Machine
end

