-- ==== Sys2Proof/Laws/ReachEngineCmds.lean ====
section
/-!
SUPPORT. The footprint of each function of Machine/EngineCmds.lean.
-/
set_option linter.unusedTactic false
set_option linter.unreachableTactic false
namespace Sys2Proof.Machine

theorem State.runMark_reach (s : State) (e : Nat) (task : Nat) (opc : Nat) (index : Nat) : Reach 0x200000000000000000000000000000000002000c01000008000000000000005820e0 s (State.runMark s e task opc index) := by
  have h0 := Reach.refl 0x200000000000000000000000000000000002000c01000008000000000000005820e0 s
  unfold State.runMark
  repeat' (first
    | with_reducible assumption
    | exact rfl
    | with_reducible (first
        | refine Reach.ite ?_ ?_
        | apply Reach.then ?_ (State.closeStageTile_reach ..) ?_
        | apply Reach.then ?_ (State.setEng_reach ..) ?_
        | apply Reach.then ?_ (State.traceCmd_reach ..) ?_)
    | (extract_lets +onlyGivenNames -underBinder -merge -useContext x; first | (refine Reach.cut x ?_ (fun _ => ?_); rotate_left; clear_value x; rotate_left; unfold x; clear x) | (have _ := fun a => x a; unfold x; clear x) | clear_value x)
    | (split <;> try (refine Reach.cut1 (by assumption) ?_ (fun _ => ?_)))
    | split)

theorem State.runPoint_reach (s : State) (e : Nat) (task : Nat) (index : Nat) (w : Words4) : Reach 0x2000000200c0000000000000000000000002000d01000008000000000000005820e0 s (State.runPoint s e task index w) := by
  have h0 := Reach.refl 0x2000000200c0000000000000000000000002000d01000008000000000000005820e0 s
  unfold State.runPoint
  repeat' (first
    | with_reducible assumption
    | exact rfl
    | with_reducible (first
        | refine Reach.bump ?_ ?_
        | refine Reach.setFld ?_ ?_
        | refine Reach.ite ?_ ?_
        | apply Reach.then ?_ (State.clamped_reach ..) ?_
        | apply Reach.then ?_ (State.runMark_reach ..) ?_
        | apply Reach.then ?_ (State.setChain_reach ..) ?_
        | apply Reach.then ?_ (State.setEng_reach ..) ?_
        | apply Reach.then ?_ (State.setRec_reach ..) ?_
        | apply Reach.then ?_ (State.setRecState_reach ..) ?_)
    | (extract_lets +onlyGivenNames -underBinder -merge -useContext x; first | (refine Reach.cut x ?_ (fun _ => ?_); rotate_left; clear_value x; rotate_left; unfold x; clear x) | (have _ := fun a => x a; unfold x; clear x) | clear_value x)
    | (split <;> try (refine Reach.cut1 (by assumption) ?_ (fun _ => ?_)))
    | split
    | with_reducible (first
        | refine Reach.set_beam ?_ ?_))

theorem State.runCmd_reach (s : State) (e : Nat) (q : QueuedCmd) : Reach 0x40003000000200c00000000000006001022011fe200d4120180dff0c0000001002787dff s (State.runCmd s e q) := by
  have h0 := Reach.refl 0x40003000000200c00000000000006001022011fe200d4120180dff0c0000001002787dff s
  unfold State.runCmd
  repeat' (first
    | with_reducible assumption
    | exact rfl
    | with_reducible (first
        | refine Reach.ite ?_ ?_
        | apply Reach.then ?_ (State.beginPass_reach ..) ?_
        | apply Reach.then ?_ (State.runMark_reach ..) ?_
        | apply Reach.then ?_ (State.runPoint_reach ..) ?_
        | apply Reach.then ?_ (State.runVec_reach ..) ?_)
    | (extract_lets +onlyGivenNames -underBinder -merge -useContext x; first | (refine Reach.cut x ?_ (fun _ => ?_); rotate_left; clear_value x; rotate_left; unfold x; clear x) | (have _ := fun a => x a; unfold x; clear x) | clear_value x)
    | (split <;> try (refine Reach.cut1 (by assumption) ?_ (fun _ => ?_)))
    | split)

theorem State.drainCmds_reach (s : State) (e : Nat) (y0 : Nat) : Reach 0x40003000000200c00000000000006001022011fe200d4120180dff0c0000001002787dff s (State.drainCmds s e y0) := by
  induction y0 generalizing s e with
  | zero =>
    have h0 := Reach.refl 0x40003000000200c00000000000006001022011fe200d4120180dff0c0000001002787dff s
    unfold State.drainCmds
    repeat' (first
    | with_reducible assumption
    | exact rfl
    | with_reducible (first
        | apply Reach.then ?_ (State.runCmd_reach ..) ?_
        | apply Reach.then ?_ (State.setEng_reach ..) ?_
        | apply Reach.then ?_ (ih ..) ?_)
    | (split <;> try (refine Reach.cut1 (by assumption) ?_ (fun _ => ?_)))
    | split)
  | succ _ ih =>
    have h0 := Reach.refl 0x40003000000200c00000000000006001022011fe200d4120180dff0c0000001002787dff s
    unfold State.drainCmds
    repeat' (first
    | with_reducible assumption
    | exact rfl
    | with_reducible (first
        | apply Reach.then ?_ (State.runCmd_reach ..) ?_
        | apply Reach.then ?_ (State.setEng_reach ..) ?_
        | apply Reach.then ?_ (ih ..) ?_)
    | (split <;> try (refine Reach.cut1 (by assumption) ?_ (fun _ => ?_)))
    | split)

theorem State.drain_reach (s : State) (e : Nat) : Reach 0x40003000000200c00000000000006001022011fe200d4120180dff0c0000001002787dff s (State.drain s e) := by
  have h0 := Reach.refl 0x40003000000200c00000000000006001022011fe200d4120180dff0c0000001002787dff s
  unfold State.drain
  repeat' (first
    | with_reducible assumption
    | exact rfl
    | with_reducible (first
        | apply Reach.then ?_ (State.drainCmds_reach ..) ?_))

theorem State.takeCmd_reach (s : State) (e : Nat) (task : Nat) (w : Words4) : Reach 0x40003000000200c00000000000006001022011fe200d4120180dff0c0000001002787dff s (State.takeCmd s e task w) := by
  have h0 := Reach.refl 0x40003000000200c00000000000006001022011fe200d4120180dff0c0000001002787dff s
  unfold State.takeCmd
  repeat' (first
    | with_reducible assumption
    | exact rfl
    | with_reducible (first
        | refine Reach.ite ?_ ?_
        | apply Reach.then ?_ (State.runCmd_reach ..) ?_
        | apply Reach.then ?_ (State.setEng_reach ..) ?_)
    | (extract_lets +onlyGivenNames -underBinder -merge -useContext x; first | (refine Reach.cut x ?_ (fun _ => ?_); rotate_left; clear_value x; rotate_left; unfold x; clear x) | (have _ := fun a => x a; unfold x; clear x) | clear_value x)
    | (split <;> try (refine Reach.cut1 (by assumption) ?_ (fun _ => ?_)))
    | split)

theorem State.issueHeld_reach (s : State) (e : Nat) (h : HeldPass) : Reach 0x40003000000200c00000000000006001022011fe200d4120180dff0c0000001002787dff s (State.issueHeld s e h) := by
  have h0 := Reach.refl 0x40003000000200c00000000000006001022011fe200d4120180dff0c0000001002787dff s
  unfold State.issueHeld
  repeat' (first
    | with_reducible assumption
    | exact rfl
    | with_reducible (first
        | apply Reach.then ?_ (State.drain_reach ..) ?_
        | apply Reach.then ?_ (State.issuePass_reach ..) ?_
        | apply Reach.then ?_ (State.setEng_reach ..) ?_))

theorem State.holdOver_reach (s : State) (e : Nat) (h : HeldPass) : Reach 0x40003000000200c00000000000006001022011fe200d4120180dff0c0000001002787dff s (State.holdOver s e h) := by
  have h0 := Reach.refl 0x40003000000200c00000000000006001022011fe200d4120180dff0c0000001002787dff s
  unfold State.holdOver
  repeat' (first
    | with_reducible assumption
    | exact rfl
    | with_reducible (first
        | refine Reach.ite ?_ ?_
        | apply Reach.then ?_ (State.issueHeld_reach ..) ?_
        | apply Reach.then ?_ (State.setEng_reach ..) ?_)
    | (split <;> try (refine Reach.cut1 (by assumption) ?_ (fun _ => ?_)))
    | split)

theorem State.goOn_reach (s : State) (e : Nat) : Reach 0x40003000000200c00000000000006001022011fe200d4120180dff0c0000001002787dff s (State.goOn s e) := by
  have h0 := Reach.refl 0x40003000000200c00000000000006001022011fe200d4120180dff0c0000001002787dff s
  unfold State.goOn
  repeat' (first
    | with_reducible assumption
    | exact rfl
    | with_reducible (first
        | refine Reach.ite ?_ ?_
        | apply Reach.then ?_ (State.drain_reach ..) ?_
        | apply Reach.then ?_ (State.issueHeld_reach ..) ?_)
    | (split <;> try (refine Reach.cut1 (by assumption) ?_ (fun _ => ?_)))
    | split)

theorem State.dieGoesOn_reach (s : State) (die : Nat) : Reach 0x40003000000200c00000000000006001022011fe200d4120180dff0c0000001002787dff s (State.dieGoesOn s die) := by
  have h0 := Reach.refl 0x40003000000200c00000000000006001022011fe200d4120180dff0c0000001002787dff s
  unfold State.dieGoesOn
  repeat' (first
    | with_reducible assumption
    | exact rfl
    | simp -zeta -iota -proj only [Reach1.pair_iff]
    | with_reducible exact Reach1.fst (by assumption)
    | with_reducible (first
        | refine Reach.foldl _ ?_ (fun _ _ _ => ?_)
        | refine Reach1.foldl _ ?_ (fun _ _ _ => ?_)
        | refine Reach1.fst (Reach1.foldl _ ?_ (fun _ _ _ => ?_))
        | apply Reach.then ?_ (State.goOn_reach ..) ?_))

theorem passCompleteEffect_reach (e : EngId) (s : State) : Reach 0x40003000000200c00000000000006001022011fe200d41201c0dff0c0000001002787dff s (passCompleteEffect e s) := by
  have h0 := Reach.refl 0x40003000000200c00000000000006001022011fe200d41201c0dff0c0000001002787dff s
  unfold passCompleteEffect
  repeat' (first
    | with_reducible assumption
    | exact rfl
    | with_reducible (first
        | apply Reach.then ?_ (State.completePass_reach ..) ?_
        | apply Reach.then ?_ (State.drain_reach ..) ?_))

theorem stationaryLoadDoneEffect_reach (e : EngId) (s : State) : Reach 0x40003000000200c00000000000006001022011fe200d4120180dff1c0000001002787dff s (stationaryLoadDoneEffect e s) := by
  have h0 := Reach.refl 0x40003000000200c00000000000006001022011fe200d4120180dff1c0000001002787dff s
  unfold stationaryLoadDoneEffect
  repeat' (first
    | with_reducible assumption
    | exact rfl
    | with_reducible (first
        | refine Reach.bump ?_ ?_
        | refine Reach.ite ?_ ?_
        | apply Reach.then ?_ (State.holdOver_reach ..) ?_
        | refine State.setArr_reach ?_ ?_ ?_
        | apply Reach.then ?_ (State.setEng_reach ..) ?_)
    | (extract_lets +onlyGivenNames -underBinder -merge -useContext x; first | (refine Reach.cut x ?_ (fun _ => ?_); rotate_left; clear_value x; rotate_left; unfold x; clear x) | (have _ := fun a => x a; unfold x; clear x) | clear_value x)
    | (split <;> try (refine Reach.cut1 (by assumption) ?_ (fun _ => ?_)))
    | split)

theorem rampUpEndEffect_reach (e : EngId) (s : State) : Reach 0x40003000000200c00000000000006001022011fe200d4120180dff0c0000001002787dff s (rampUpEndEffect e s) := by
  have h0 := Reach.refl 0x40003000000200c00000000000006001022011fe200d4120180dff0c0000001002787dff s
  unfold rampUpEndEffect
  repeat' (first
    | with_reducible assumption
    | exact rfl
    | with_reducible (first
        | refine Reach.ite ?_ ?_
        | apply Reach.then ?_ (State.holdOver_reach ..) ?_
        | refine State.setArr_reach ?_ ?_ ?_
        | apply Reach.then ?_ (State.setEng_reach ..) ?_)
    | (extract_lets +onlyGivenNames -underBinder -merge -useContext x; first | (refine Reach.cut x ?_ (fun _ => ?_); rotate_left; clear_value x; rotate_left; unfold x; clear x) | (have _ := fun a => x a; unfold x; clear x) | clear_value x)
    | (split <;> try (refine Reach.cut1 (by assumption) ?_ (fun _ => ?_)))
    | split)

end Sys2Proof.Machine
end

