-- ==== Sys2Proof/Laws/ReachChains.lean ====
section
/-!
SUPPORT. The footprint of each function of Machine/Chains.lean.
-/
set_option linter.unusedTactic false
set_option linter.unreachableTactic false
namespace Sys2Proof.Machine

theorem State.mapPlans_reach (s : State) (f : StreamPlan → StreamPlan) : Reach 0x1000 s (State.mapPlans s f) := by
  have h0 := Reach.refl 0x1000 s
  unfold State.mapPlans
  repeat' (first
    | with_reducible assumption
    | exact rfl
    | with_reducible (first
        | refine Reach.set_pool ?_ ?_))

theorem State.planStart_reach (s : State) (c : Chain) : Reach 0x1000 s (State.planStart s c) := by
  have h0 := Reach.refl 0x1000 s
  unfold State.planStart
  repeat' (first
    | with_reducible assumption
    | exact rfl
    | with_reducible (first
        | refine Reach.ite ?_ ?_
        | apply Reach.then ?_ (State.mapPlans_reach ..) ?_)
    | (split <;> try (refine Reach.cut1 (by assumption) ?_ (fun _ => ?_)))
    | split)

theorem State.planCommit_reach (s : State) (c : Chain) : Reach 0x1000 s (State.planCommit s c) := by
  have h0 := Reach.refl 0x1000 s
  unfold State.planCommit
  repeat' (first
    | with_reducible assumption
    | exact rfl
    | with_reducible (first
        | refine Reach.ite ?_ ?_
        | apply Reach.then ?_ (State.mapPlans_reach ..) ?_)
    | (extract_lets +onlyGivenNames -underBinder -merge -useContext x; first | (refine Reach.cut x ?_ (fun _ => ?_); rotate_left; clear_value x; rotate_left; unfold x; clear x) | (have _ := fun a => x a; unfold x; clear x) | clear_value x)
    | (split <;> try (refine Reach.cut1 (by assumption) ?_ (fun _ => ?_)))
    | split)

theorem State.requestPreempt_reach (s : State) (c : Chain) : Reach 0x20 s (State.requestPreempt s c) := by
  have h0 := Reach.refl 0x20 s
  unfold State.requestPreempt
  repeat' (first
    | with_reducible assumption
    | exact rfl
    | simp -zeta -iota -proj only [Reach1.pair_iff]
    | with_reducible exact Reach1.fst (by assumption)
    | with_reducible (first
        | refine Reach.ite ?_ ?_
        | refine Reach1.ite ?_ ?_
        | refine Reach.foldl _ ?_ (fun _ _ _ => ?_)
        | refine Reach1.foldl _ ?_ (fun _ _ _ => ?_)
        | refine Reach1.fst (Reach1.foldl _ ?_ (fun _ _ _ => ?_))
        | apply Reach.then ?_ (State.setEng_reach ..) ?_)
    | (extract_lets +onlyGivenNames -underBinder -merge -useContext x; first | (refine Reach.cut x ?_ (fun _ => ?_); rotate_left; clear_value x; rotate_left; unfold x; clear x) | (refine Reach.cutP x ?_ (fun _ => ?_); rotate_left; clear_value x; rotate_left; unfold x; clear x) | (have _ := fun a => x a; unfold x; clear x) | clear_value x)
    | (split <;> try (refine Reach.cut1 (by assumption) ?_ (fun _ => ?_)))
    | split)

theorem State.launchChain_reach (s : State) (c : Chain) (clamps : Nat) : Reach 0x200000000000000000000000000000000002000d01a00008000000000000005834e0 s (State.launchChain s c clamps) := by
  have h0 := Reach.refl 0x200000000000000000000000000000000002000d01a00008000000000000005834e0 s
  unfold State.launchChain
  repeat' (first
    | with_reducible assumption
    | exact rfl
    | with_reducible (first
        | refine Reach.bump ?_ ?_
        | refine Reach.ite ?_ ?_
        | apply Reach.then ?_ (State.clamped_reach ..) ?_
        | apply Reach.then ?_ (State.emptyRings_reach ..) ?_
        | apply Reach.then ?_ (State.endChain_reach ..) ?_
        | apply Reach.then ?_ (State.planStart_reach ..) ?_
        | apply Reach.then ?_ (State.requestPreempt_reach ..) ?_
        | apply Reach.then ?_ (State.showTasks_reach ..) ?_
        | apply Reach.then ?_ (State.takeContexts_reach ..) ?_)
    | (extract_lets +onlyGivenNames -underBinder -merge -useContext x; first | (refine Reach.cut x ?_ (fun _ => ?_); rotate_left; clear_value x; rotate_left; unfold x; clear x) | (have _ := fun a => x a; unfold x; clear x) | clear_value x)
    | (split <;> try (refine Reach.cut1 (by assumption) ?_ (fun _ => ?_)))
    | split
    | with_reducible (first
        | refine Reach.set_chains ?_ ?_))

theorem State.countRecompute_reach (s : State) (c : Chain) : Reach 0x10008000000000000000000000000 s (State.countRecompute s c) := by
  have h0 := Reach.refl 0x10008000000000000000000000000 s
  unfold State.countRecompute
  repeat' (first
    | with_reducible assumption
    | exact rfl
    | with_reducible (first
        | refine Reach.bump ?_ ?_
        | refine Reach.ite ?_ ?_
        | apply Reach.then ?_ (State.regionClamp_reach ..) ?_)
    | (extract_lets +onlyGivenNames -underBinder -merge -useContext x; first | (refine Reach.cut x ?_ (fun _ => ?_); rotate_left; clear_value x; rotate_left; unfold x; clear x) | (have _ := fun a => x a; unfold x; clear x) | clear_value x)
    | (split <;> try (refine Reach.cut1 (by assumption) ?_ (fun _ => ?_)))
    | split)

theorem State.needSeq_reach (s : State) (cluster : Nat) (launch : Nat) : Reach 0x80 s (State.needSeq s cluster launch) := by
  have h0 := Reach.refl 0x80 s
  unfold State.needSeq
  repeat' (first
    | with_reducible assumption
    | exact rfl
    | (extract_lets +onlyGivenNames -underBinder -merge -useContext x; first | (refine Reach.cut x ?_ (fun _ => ?_); rotate_left; clear_value x; rotate_left; unfold x; clear x) | (have _ := fun a => x a; unfold x; clear x) | clear_value x)
    | (split <;> try (refine Reach.cut1 (by assumption) ?_ (fun _ => ?_)))
    | split
    | with_reducible (first
        | refine Reach.set_seqs ?_ ?_))

theorem stageChainEffect_reach (cluster : Fin 24) (launch : BitVec 12) (image : CmdImage) (s : State) : Reach 0x200000000000000000000000000000000002000d01a80008000000000000005834e0 s (stageChainEffect cluster launch image s) := by
  have h0 := Reach.refl 0x200000000000000000000000000000000002000d01a80008000000000000005834e0 s
  unfold stageChainEffect
  repeat' (first
    | with_reducible assumption
    | exact rfl
    | with_reducible (first
        | refine Reach.ite ?_ ?_
        | apply Reach.then ?_ (State.countRecompute_reach ..) ?_
        | apply Reach.then ?_ (State.launchChain_reach ..) ?_
        | apply Reach.then ?_ (State.needSeq_reach ..) ?_)
    | (extract_lets +onlyGivenNames -underBinder -merge -useContext x; first | (refine Reach.cut x ?_ (fun _ => ?_); rotate_left; clear_value x; rotate_left; unfold x; clear x) | (have _ := fun a => x a; unfold x; clear x) | clear_value x)
    | (split <;> try (refine Reach.cut1 (by assumption) ?_ (fun _ => ?_)))
    | split)

theorem nextChainLaunchEffect_reach (cluster : Fin 24) (launch : BitVec 12) (image : CmdImage) (s : State) : Reach 0x200000000000000000000000000000000002000d81a80008000000000000005834e0 s (nextChainLaunchEffect cluster launch image s) := by
  have h0 := Reach.refl 0x200000000000000000000000000000000002000d81a80008000000000000005834e0 s
  unfold nextChainLaunchEffect
  repeat' (first
    | with_reducible assumption
    | exact rfl
    | with_reducible (first
        | refine Reach.bump ?_ ?_
        | refine Reach.ite ?_ ?_
        | apply Reach.then ?_ (State.countRecompute_reach ..) ?_
        | apply Reach.then ?_ (State.launchChain_reach ..) ?_)
    | (extract_lets +onlyGivenNames -underBinder -merge -useContext x; first | (refine Reach.cut x ?_ (fun _ => ?_); rotate_left; clear_value x; rotate_left; unfold x; clear x) | (have _ := fun a => x a; unfold x; clear x) | clear_value x)
    | (split <;> try (refine Reach.cut1 (by assumption) ?_ (fun _ => ?_)))
    | split)

theorem State.putSlot_reach (s : State) (by_ : Access) (g : Stage) (t : Nat) (off : Nat) (bs : List Byte) (poison : Bool) : Reach 0x10220000020000000000000000000000000007c1d s (State.putSlot s by_ g t off bs poison) := by
  have h0 := Reach.refl 0x10220000020000000000000000000000000007c1d s
  unfold State.putSlot
  repeat' (first
    | with_reducible assumption
    | exact rfl
    | simp -zeta -iota -proj only [Reach1.pair_iff]
    | with_reducible exact Reach1.fst (by assumption)
    | with_reducible (first
        | refine Reach.ite ?_ ?_
        | refine Reach1.ite ?_ ?_
        | refine Reach.foldl _ ?_ (fun _ _ _ => ?_)
        | refine Reach1.foldl _ ?_ (fun _ _ _ => ?_)
        | refine Reach1.fst (Reach1.foldl _ ?_ (fun _ _ _ => ?_))
        | apply Reach.then ?_ (State.putMem_reach ..) ?_
        | apply Reach.then ?_ (State.useSlots_reach ..) ?_)
    | (extract_lets +onlyGivenNames -underBinder -merge -useContext x; first | (refine Reach.cut x ?_ (fun _ => ?_); rotate_left; clear_value x; rotate_left; unfold x; clear x) | (refine Reach.cutP x ?_ (fun _ => ?_); rotate_left; clear_value x; rotate_left; unfold x; clear x) | (have _ := fun a => x a; unfold x; clear x) | clear_value x)
    | (split <;> try (refine Reach.cut1 (by assumption) ?_ (fun _ => ?_)))
    | split
    | with_reducible (first
        | refine Reach.set_poison ?_ ?_))

theorem State.askRuns_reach (s : State) (c : Chain) (k : Nat) (needs : List (Nat × Nat)) : Reach 0x300000 s (State.askRuns s c k needs) := by
  have h0 := Reach.refl 0x300000 s
  unfold State.askRuns
  repeat' (first
    | with_reducible assumption
    | exact rfl
    | simp -zeta -iota -proj only [Reach1.pair_iff]
    | with_reducible exact Reach1.fst (by assumption)
    | with_reducible (first
        | refine Reach.ite ?_ ?_
        | refine Reach1.ite ?_ ?_
        | refine Reach.foldl _ ?_ (fun _ _ _ => ?_)
        | refine Reach1.foldl _ ?_ (fun _ _ _ => ?_)
        | refine Reach1.fst (Reach1.foldl _ ?_ (fun _ _ _ => ?_))
        | apply Reach.then ?_ (State.beginMsg_reach ..) ?_)
    | (extract_lets +onlyGivenNames -underBinder -merge -useContext x; first | (refine Reach.cut x ?_ (fun _ => ?_); rotate_left; clear_value x; rotate_left; unfold x; clear x) | (refine Reach.cutP x ?_ (fun _ => ?_); rotate_left; clear_value x; rotate_left; unfold x; clear x) | (have _ := fun a => x a; unfold x; clear x) | clear_value x)
    | (split <;> try (refine Reach.cut1 (by assumption) ?_ (fun _ => ?_)))
    | split)

theorem State.readRuns_reach (s : State) (a : Access) (runs : List (Nat × Nat)) : Reach 0x1000000000000000000000000001022011f83b000000c00000000000000000087c1d s (State.readRuns s a runs) := by
  have h0 := Reach.refl 0x1000000000000000000000000001022011f83b000000c00000000000000000087c1d s
  unfold State.readRuns
  repeat' (first
    | with_reducible assumption
    | exact rfl
    | simp -zeta -iota -proj only [Reach1.pair_iff]
    | with_reducible exact Reach1.fst (by assumption)
    | with_reducible (first
        | refine Reach.foldl _ ?_ (fun _ _ _ => ?_)
        | refine Reach1.foldl _ ?_ (fun _ _ _ => ?_)
        | refine Reach1.fst (Reach1.foldl _ ?_ (fun _ _ _ => ?_))
        | apply Reach.then ?_ (State.didRead_reach ..) ?_))

theorem State.chainReads_reach (s : State) (c : Chain) (a : Access) (runs : List (Nat × Nat)) : Reach1 0x3000000000000000000000000001022011fa3b0d0100c00800000000000000587dfd s (State.chainReads s c a runs) := by
  have h0 := Reach.refl 0x3000000000000000000000000001022011fa3b0d0100c00800000000000000587dfd s
  unfold State.chainReads
  repeat' (first
    | with_reducible assumption
    | exact rfl
    | simp -zeta -iota -proj only [Reach1.pair_iff]
    | with_reducible exact Reach1.fst (by assumption)
    | with_reducible (first
        | apply Reach1.then ?_ (State.parityStops_reach ..) ?_
        | apply Reach1.fst (Reach1.then ?_ (State.parityStops_reach ..) ?_)
        | apply Reach.then ?_ (State.readRuns_reach ..) ?_)
    | (extract_lets +onlyGivenNames -underBinder -merge -useContext x; first | (refine Reach.cut x ?_ (fun _ => ?_); rotate_left; clear_value x; rotate_left; unfold x; clear x) | (refine Reach1.cut x ?_ (fun _ => ?_); rotate_left; clear_value x; rotate_left; unfold x; clear x) | (refine Reach.cutP x ?_ (fun _ => ?_); rotate_left; clear_value x; rotate_left; unfold x; clear x) | (refine Reach1.cutP x ?_ (fun _ => ?_); rotate_left; clear_value x; rotate_left; unfold x; clear x) | (have _ := fun a => x a; unfold x; clear x) | clear_value x))

theorem State.stageReads_reach (s : State) (c : Chain) (k : Nat) (g : Stage) (runs : List (Nat × Nat)) : Reach1 0x300000000000000000000000600102a011fa3b0d0100c00800000000000000787dfd s (State.stageReads s c k g runs) := by
  have h0 := Reach.refl 0x300000000000000000000000600102a011fa3b0d0100c00800000000000000787dfd s
  unfold State.stageReads
  repeat' (first
    | with_reducible assumption
    | exact rfl
    | simp -zeta -iota -proj only [Reach1.pair_iff]
    | with_reducible exact Reach1.fst (by assumption)
    | with_reducible (first
        | refine Reach.ite ?_ ?_
        | refine Reach1.ite ?_ ?_
        | refine Reach.foldl _ ?_ (fun _ _ _ => ?_)
        | refine Reach1.foldl _ ?_ (fun _ _ _ => ?_)
        | refine Reach1.fst (Reach1.foldl _ ?_ (fun _ _ _ => ?_))
        | apply Reach.then ?_ (State.askRuns_reach ..) ?_
        | apply Reach1.then ?_ (State.chainReads_reach ..) ?_
        | apply Reach1.fst (Reach1.then ?_ (State.chainReads_reach ..) ?_)
        | apply Reach.then ?_ (State.noteWalk_reach ..) ?_
        | apply Reach.then ?_ (State.promote_reach ..) ?_)
    | (extract_lets +onlyGivenNames -underBinder -merge -useContext x; first | (refine Reach.cut x ?_ (fun _ => ?_); rotate_left; clear_value x; rotate_left; unfold x; clear x) | (refine Reach1.cut x ?_ (fun _ => ?_); rotate_left; clear_value x; rotate_left; unfold x; clear x) | (refine Reach.cutP x ?_ (fun _ => ?_); rotate_left; clear_value x; rotate_left; unfold x; clear x) | (refine Reach1.cutP x ?_ (fun _ => ?_); rotate_left; clear_value x; rotate_left; unfold x; clear x) | (have _ := fun a => x a; unfold x; clear x) | clear_value x)
    | (split <;> try (first | refine Reach1.cut1 (by assumption) ?_ (fun _ => ?_) | refine Reach.cut1 (by assumption) ?_ (fun _ => ?_)))
    | split)

theorem State.setStageOf_reach (s : State) (c : Chain) (k : Nat) (g : Stage) : Reach 0x40 s (State.setStageOf s c k g) := by
  have h0 := Reach.refl 0x40 s
  unfold State.setStageOf
  repeat' (first
    | with_reducible assumption
    | exact rfl
    | with_reducible (first
        | apply Reach.then ?_ (State.setChain_reach ..) ?_))

theorem State.fetchTile_reach (s : State) (c : Chain) (k : Nat) (g : Stage) : Reach 0x300000000000000000000000600102a011fa3b0d6120c00800000000000000787dfd s (State.fetchTile s c k g) := by
  have h0 := Reach.refl 0x300000000000000000000000600102a011fa3b0d6120c00800000000000000787dfd s
  unfold State.fetchTile
  repeat' (first
    | with_reducible assumption
    | exact rfl
    | simp -zeta -iota -proj only [Reach1.pair_iff]
    | with_reducible exact Reach1.fst (by assumption)
    | with_reducible (first
        | refine Reach.bump ?_ ?_
        | refine Reach.ite ?_ ?_
        | refine Reach1.ite ?_ ?_
        | refine Reach.foldl _ ?_ (fun _ _ _ => ?_)
        | refine Reach1.foldl _ ?_ (fun _ _ _ => ?_)
        | refine Reach1.fst (Reach1.foldl _ ?_ (fun _ _ _ => ?_))
        | apply Reach.then ?_ (State.clamped_reach ..) ?_
        | apply Reach.then ?_ (State.endChain_reach ..) ?_
        | apply Reach.then ?_ (State.noteWalk_reach ..) ?_
        | apply Reach.then ?_ (State.putSlot_reach ..) ?_
        | apply Reach.then ?_ (State.setStageOf_reach ..) ?_
        | apply Reach1.then ?_ (State.stageReads_reach ..) ?_
        | apply Reach1.fst (Reach1.then ?_ (State.stageReads_reach ..) ?_))
    | (extract_lets +onlyGivenNames -underBinder -merge -useContext x; first | (refine Reach.cut x ?_ (fun _ => ?_); rotate_left; clear_value x; rotate_left; unfold x; clear x) | (refine Reach.cutP x ?_ (fun _ => ?_); rotate_left; clear_value x; rotate_left; unfold x; clear x) | (have _ := fun a => x a; unfold x; clear x) | clear_value x)
    | (split <;> try (refine Reach.cut1 (by assumption) ?_ (fun _ => ?_)))
    | split)

theorem State.slotReads_reach (s : State) (c : Chain) (k : Nat) (g : Stage) (runs : List (Nat × Nat)) : Reach1 0x3000000000000000000000000001022011fa3b0d0100c00800000000000000587dfd s (State.slotReads s c k g runs) := by
  have h0 := Reach.refl 0x3000000000000000000000000001022011fa3b0d0100c00800000000000000587dfd s
  unfold State.slotReads
  repeat' (first
    | with_reducible assumption
    | exact rfl
    | simp -zeta -iota -proj only [Reach1.pair_iff]
    | with_reducible exact Reach1.fst (by assumption)
    | with_reducible (first
        | refine Reach.ite ?_ ?_
        | refine Reach1.ite ?_ ?_
        | apply Reach1.then ?_ (State.chainReads_reach ..) ?_
        | apply Reach1.fst (Reach1.then ?_ (State.chainReads_reach ..) ?_))
    | (extract_lets +onlyGivenNames -underBinder -merge -useContext x; first | (refine Reach.cut x ?_ (fun _ => ?_); rotate_left; clear_value x; rotate_left; unfold x; clear x) | (refine Reach1.cut x ?_ (fun _ => ?_); rotate_left; clear_value x; rotate_left; unfold x; clear x) | (refine Reach.cutP x ?_ (fun _ => ?_); rotate_left; clear_value x; rotate_left; unfold x; clear x) | (refine Reach1.cutP x ?_ (fun _ => ?_); rotate_left; clear_value x; rotate_left; unfold x; clear x) | (have _ := fun a => x a; unfold x; clear x) | clear_value x)
    | (split <;> try (first | refine Reach1.cut1 (by assumption) ?_ (fun _ => ?_) | refine Reach.cut1 (by assumption) ?_ (fun _ => ?_)))
    | split)

theorem State.readStops_reach (s : State) (c : Chain) (k : Nat) (g : Stage) (r : ReadEnd) : Reach 0x200000000000000000000000000000000002000c01200008000000000000005834e0 s (State.readStops s c k g r) := by
  have h0 := Reach.refl 0x200000000000000000000000000000000002000c01200008000000000000005834e0 s
  unfold State.readStops
  repeat' (first
    | with_reducible assumption
    | exact rfl
    | with_reducible (first
        | apply Reach.then ?_ (State.endChain_reach ..) ?_
        | apply Reach.then ?_ (State.setStageOf_reach ..) ?_)
    | (split <;> try (refine Reach.cut1 (by assumption) ?_ (fun _ => ?_)))
    | split)

theorem State.gatherItem_reach (s : State) (c : Chain) (k : Nat) (g : Stage) : Reach 0x300000000000000000000000600102a011fa3b0f4120c00800000000000000787dfd s (State.gatherItem s c k g) := by
  have h0 := Reach.refl 0x300000000000000000000000600102a011fa3b0f4120c00800000000000000787dfd s
  unfold State.gatherItem
  repeat' (first
    | with_reducible assumption
    | exact rfl
    | simp -zeta -iota -proj only [Reach1.pair_iff]
    | with_reducible exact Reach1.fst (by assumption)
    | with_reducible (first
        | refine Reach.bump ?_ ?_
        | refine Reach.ite ?_ ?_
        | refine Reach1.ite ?_ ?_
        | refine Reach.foldl _ ?_ (fun _ _ _ => ?_)
        | refine Reach1.foldl _ ?_ (fun _ _ _ => ?_)
        | refine Reach1.fst (Reach1.foldl _ ?_ (fun _ _ _ => ?_))
        | apply Reach.then ?_ (State.clamped_reach ..) ?_
        | apply Reach.then ?_ (State.endChain_reach ..) ?_
        | apply Reach.then ?_ (State.putSlot_reach ..) ?_
        | apply Reach.then ?_ (State.readStops_reach ..) ?_
        | apply Reach.then ?_ (State.setChain_reach ..) ?_
        | apply Reach.then ?_ (State.setStageOf_reach ..) ?_
        | apply Reach1.then ?_ (State.stageReads_reach ..) ?_
        | apply Reach1.fst (Reach1.then ?_ (State.stageReads_reach ..) ?_))
    | (extract_lets +onlyGivenNames -underBinder -merge -useContext x; first | (refine Reach.cut x ?_ (fun _ => ?_); rotate_left; clear_value x; rotate_left; unfold x; clear x) | (refine Reach.cutP x ?_ (fun _ => ?_); rotate_left; clear_value x; rotate_left; unfold x; clear x) | (have _ := fun a => x a; unfold x; clear x) | clear_value x)
    | (split <;> try (refine Reach.cut1 (by assumption) ?_ (fun _ => ?_)))
    | split)

theorem State.scatterItem_reach (s : State) (c : Chain) (k : Nat) (g : Stage) (gin : Stage) : Reach 0x4000300000000000000000000000600102a011fe3b0f4120c00800000000001002787dfd s (State.scatterItem s c k g gin) := by
  have h0 := Reach.refl 0x4000300000000000000000000000600102a011fe3b0f4120c00800000000001002787dfd s
  unfold State.scatterItem
  repeat' (first
    | with_reducible assumption
    | exact rfl
    | simp -zeta -iota -proj only [Reach1.pair_iff]
    | with_reducible exact Reach1.fst (by assumption)
    | with_reducible (first
        | refine Reach.bump ?_ ?_
        | refine Reach.ite ?_ ?_
        | refine Reach1.ite ?_ ?_
        | refine Reach.foldl _ ?_ (fun _ _ _ => ?_)
        | refine Reach1.foldl _ ?_ (fun _ _ _ => ?_)
        | refine Reach1.fst (Reach1.foldl _ ?_ (fun _ _ _ => ?_))
        | apply Reach.then ?_ (State.clamped_reach ..) ?_
        | apply Reach.then ?_ (State.endChain_reach ..) ?_
        | apply Reach.then ?_ (State.endWrite_reach ..) ?_
        | apply Reach.then ?_ (State.readStops_reach ..) ?_
        | apply Reach.then ?_ (State.setChain_reach ..) ?_
        | apply Reach.then ?_ (State.setStageOf_reach ..) ?_
        | apply Reach1.then ?_ (State.slotReads_reach ..) ?_
        | apply Reach1.fst (Reach1.then ?_ (State.slotReads_reach ..) ?_)
        | apply Reach1.then ?_ (State.stageReads_reach ..) ?_
        | apply Reach1.fst (Reach1.then ?_ (State.stageReads_reach ..) ?_)
        | apply Reach.then ?_ (State.streamRows_reach ..) ?_)
    | (extract_lets +onlyGivenNames -underBinder -merge -useContext x; first | (refine Reach.cut x ?_ (fun _ => ?_); rotate_left; clear_value x; rotate_left; unfold x; clear x) | (refine Reach.cutP x ?_ (fun _ => ?_); rotate_left; clear_value x; rotate_left; unfold x; clear x) | (refine Reach.cut x.st ?_ (fun _ => ?_); rotate_left; clear_value x; rotate_left; unfold x; clear x) | (have _ := fun a => x a; unfold x; clear x) | clear_value x)
    | (split <;> try (refine Reach.cut1 (by assumption) ?_ (fun _ => ?_)))
    | split)

theorem State.storeItem_reach (s : State) (c : Chain) (k : Nat) (g : Stage) (gin : Stage) : Reach 0x40003000000000000000000000006001022011fe3b0d4120c00800000000001002787dfd s (State.storeItem s c k g gin) := by
  have h0 := Reach.refl 0x40003000000000000000000000006001022011fe3b0d4120c00800000000001002787dfd s
  unfold State.storeItem
  repeat' (first
    | with_reducible assumption
    | exact rfl
    | simp -zeta -iota -proj only [Reach1.pair_iff]
    | with_reducible exact Reach1.fst (by assumption)
    | with_reducible (first
        | refine Reach.bump ?_ ?_
        | refine Reach.ite ?_ ?_
        | apply Reach.then ?_ (State.clamped_reach ..) ?_
        | apply Reach.then ?_ (State.endChain_reach ..) ?_
        | apply Reach.then ?_ (State.endWrite_reach ..) ?_
        | apply Reach.then ?_ (State.setChain_reach ..) ?_
        | apply Reach1.then ?_ (State.slotReads_reach ..) ?_
        | apply Reach1.fst (Reach1.then ?_ (State.slotReads_reach ..) ?_)
        | apply Reach.then ?_ (State.streamRows_reach ..) ?_)
    | (extract_lets +onlyGivenNames -underBinder -merge -useContext x; first | (refine Reach.cut x ?_ (fun _ => ?_); rotate_left; clear_value x; rotate_left; unfold x; clear x) | (refine Reach.cutP x ?_ (fun _ => ?_); rotate_left; clear_value x; rotate_left; unfold x; clear x) | (refine Reach.cut x.st ?_ (fun _ => ?_); rotate_left; clear_value x; rotate_left; unfold x; clear x) | (have _ := fun a => x a; unfold x; clear x) | clear_value x)
    | (split <;> try (refine Reach.cut1 (by assumption) ?_ (fun _ => ?_)))
    | split)

theorem State.lensLoad_reach (s : State) (c : Chain) (k : Nat) (g : Stage) (l : LensLoad) : Reach1 0x300000000000000000000000600102a011fa3b0d4100c00800000000000000787dff s (State.lensLoad s c k g l) := by
  have h0 := Reach.refl 0x300000000000000000000000600102a011fa3b0d4100c00800000000000000787dff s
  unfold State.lensLoad
  repeat' (first
    | with_reducible assumption
    | exact rfl
    | simp -zeta -iota -proj only [Reach1.pair_iff]
    | with_reducible exact Reach1.fst (by assumption)
    | with_reducible (first
        | refine Reach.bump ?_ ?_
        | refine Reach.ite ?_ ?_
        | refine Reach1.ite ?_ ?_
        | apply Reach.then ?_ (State.clamped_reach ..) ?_
        | apply Reach.then ?_ (State.lensPut_reach ..) ?_
        | apply Reach1.then ?_ (State.stageReads_reach ..) ?_
        | apply Reach1.fst (Reach1.then ?_ (State.stageReads_reach ..) ?_))
    | (extract_lets +onlyGivenNames -underBinder -merge -useContext x; first | (refine Reach.cut x ?_ (fun _ => ?_); rotate_left; clear_value x; rotate_left; unfold x; clear x) | (refine Reach1.cut x ?_ (fun _ => ?_); rotate_left; clear_value x; rotate_left; unfold x; clear x) | (refine Reach.cutP x ?_ (fun _ => ?_); rotate_left; clear_value x; rotate_left; unfold x; clear x) | (refine Reach1.cutP x ?_ (fun _ => ?_); rotate_left; clear_value x; rotate_left; unfold x; clear x) | (have _ := fun a => x a; unfold x; clear x) | clear_value x)
    | (split <;> try (first | refine Reach1.cut1 (by assumption) ?_ (fun _ => ?_) | refine Reach.cut1 (by assumption) ?_ (fun _ => ?_)))
    | split)

theorem State.lensLoads_reach (s : State) (c : Chain) (k : Nat) (g : Stage) (y0 : List LensLoad) : Reach 0x40003000000200c0000000000000600102a011fe3b0d4120d80dff0c0000001002787dff s (State.lensLoads s c k g y0) := by
  induction y0 generalizing s c k g with
  | nil =>
    have h0 := Reach.refl 0x40003000000200c0000000000000600102a011fe3b0d4120d80dff0c0000001002787dff s
    unfold State.lensLoads
    repeat' (first
    | with_reducible assumption
    | exact rfl
    | simp -zeta -iota -proj only [Reach1.pair_iff]
    | with_reducible exact Reach1.fst (by assumption)
    | with_reducible (first
        | apply Reach.then ?_ (State.drain_reach ..) ?_
        | apply Reach.then ?_ (State.endChain_reach ..) ?_
        | apply Reach1.then ?_ (State.lensLoad_reach ..) ?_
        | apply Reach1.fst (Reach1.then ?_ (State.lensLoad_reach ..) ?_)
        | apply Reach.then ?_ (State.readStops_reach ..) ?_
        | apply Reach.then ?_ (State.setStageOf_reach ..) ?_
        | apply Reach.then ?_ (ih ..) ?_)
    | (split <;> try (refine Reach.cut1 (by assumption) ?_ (fun _ => ?_)))
    | split)
  | cons _ _ ih =>
    have h0 := Reach.refl 0x40003000000200c0000000000000600102a011fe3b0d4120d80dff0c0000001002787dff s
    unfold State.lensLoads
    repeat' (first
    | with_reducible assumption
    | exact rfl
    | simp -zeta -iota -proj only [Reach1.pair_iff]
    | with_reducible exact Reach1.fst (by assumption)
    | with_reducible (first
        | apply Reach.then ?_ (State.drain_reach ..) ?_
        | apply Reach.then ?_ (State.endChain_reach ..) ?_
        | apply Reach1.then ?_ (State.lensLoad_reach ..) ?_
        | apply Reach1.fst (Reach1.then ?_ (State.lensLoad_reach ..) ?_)
        | apply Reach.then ?_ (State.readStops_reach ..) ?_
        | apply Reach.then ?_ (State.setStageOf_reach ..) ?_
        | apply Reach.then ?_ (ih ..) ?_)
    | (split <;> try (refine Reach.cut1 (by assumption) ?_ (fun _ => ?_)))
    | split)

theorem State.startTokens_reach (s : State) (c : Chain) (k : Nat) (t : Nat) : Reach 0x200080000000000000000000000000000 s (State.startTokens s c k t) := by
  have h0 := Reach.refl 0x200080000000000000000000000000000 s
  unfold State.startTokens
  repeat' (first
    | with_reducible assumption
    | exact rfl
    | with_reducible (first
        | apply Reach.then ?_ (State.putSlotToken_reach ..) ?_)
    | (extract_lets +onlyGivenNames -underBinder -merge -useContext x; first | (refine Reach.cut x ?_ (fun _ => ?_); rotate_left; clear_value x; rotate_left; unfold x; clear x) | (have _ := fun a => x a; unfold x; clear x) | clear_value x)
    | (split <;> try (refine Reach.cut1 (by assumption) ?_ (fun _ => ?_)))
    | split)

theorem State.planLate_reach (s : State) (c : Chain) : Reach 0x2000000000000000000000000000000000001000 s (State.planLate s c) := by
  have h0 := Reach.refl 0x2000000000000000000000000000000000001000 s
  unfold State.planLate
  repeat' (first
    | with_reducible assumption
    | exact rfl
    | with_reducible (first
        | refine Reach.bump ?_ ?_
        | refine Reach.ite ?_ ?_
        | apply Reach.then ?_ (State.mapPlans_reach ..) ?_)
    | (split <;> try (refine Reach.cut1 (by assumption) ?_ (fun _ => ?_)))
    | split)

theorem State.beginItem_reach (s : State) (c : Chain) (k : Nat) (g : Stage) (loads : List LensLoad) : Reach1 0x200080000000000000000000000000040 s (State.beginItem s c k g loads) := by
  have h0 := Reach.refl 0x200080000000000000000000000000040 s
  unfold State.beginItem
  repeat' (first
    | with_reducible assumption
    | exact rfl
    | simp -zeta -iota -proj only [Reach1.pair_iff]
    | with_reducible exact Reach1.fst (by assumption)
    | with_reducible (first
        | refine Reach.ite ?_ ?_
        | refine Reach1.ite ?_ ?_
        | apply Reach.then ?_ (State.setChain_reach ..) ?_
        | apply Reach.then ?_ (State.startTokens_reach ..) ?_)
    | (extract_lets +onlyGivenNames -underBinder -merge -useContext x; first | (refine Reach.cut x ?_ (fun _ => ?_); rotate_left; clear_value x; rotate_left; unfold x; clear x) | (refine Reach1.cut x ?_ (fun _ => ?_); rotate_left; clear_value x; rotate_left; unfold x; clear x) | (have _ := fun a => x a; unfold x; clear x) | clear_value x)
    | (split <;> try (first | refine Reach1.cut1 (by assumption) ?_ (fun _ => ?_) | refine Reach.cut1 (by assumption) ?_ (fun _ => ?_)))
    | split)

theorem State.itemWork_reach (s : State) (c : Chain) (k : Nat) (g : Stage) : Reach 0x40003000000200c0000000000000600102a011fe3b0f6120d80dff0c0000001002787dff s (State.itemWork s c k g) := by
  have h0 := Reach.refl 0x40003000000200c0000000000000600102a011fe3b0f6120d80dff0c0000001002787dff s
  unfold State.itemWork
  repeat' (first
    | with_reducible assumption
    | exact rfl
    | with_reducible (first
        | apply Reach.then ?_ (State.fetchTile_reach ..) ?_
        | apply Reach.then ?_ (State.gatherItem_reach ..) ?_
        | apply Reach.then ?_ (State.lensLoads_reach ..) ?_
        | apply Reach.then ?_ (State.scatterItem_reach ..) ?_
        | apply Reach.then ?_ (State.setEng_reach ..) ?_
        | apply Reach.then ?_ (State.storeItem_reach ..) ?_)
    | (extract_lets +onlyGivenNames -underBinder -merge -useContext x; first | (refine Reach.cut x ?_ (fun _ => ?_); rotate_left; clear_value x; rotate_left; unfold x; clear x) | (have _ := fun a => x a; unfold x; clear x) | clear_value x)
    | (split <;> try (refine Reach.cut1 (by assumption) ?_ (fun _ => ?_)))
    | split)

theorem State.retryStage_reach (s : State) (ref : ChainRef) (k : Nat) : Reach 0x40003000000200c0000000000000600102a011fe3b0f6120d80dff0c0000001002787dff s (State.retryStage s ref k) := by
  have h0 := Reach.refl 0x40003000000200c0000000000000600102a011fe3b0f6120d80dff0c0000001002787dff s
  unfold State.retryStage
  repeat' (first
    | with_reducible assumption
    | exact rfl
    | with_reducible (first
        | refine Reach.ite ?_ ?_
        | apply Reach.then ?_ (State.itemWork_reach ..) ?_)
    | (split <;> try (refine Reach.cut1 (by assumption) ?_ (fun _ => ?_)))
    | split)

theorem State.retryChain_reach (s : State) (ref : ChainRef) : Reach 0x40003000000200c0000000000000600102a011fe3b0f6120d80dff0c0000001002787dff s (State.retryChain s ref) := by
  have h0 := Reach.refl 0x40003000000200c0000000000000600102a011fe3b0f6120d80dff0c0000001002787dff s
  unfold State.retryChain
  repeat' (first
    | with_reducible assumption
    | exact rfl
    | simp -zeta -iota -proj only [Reach1.pair_iff]
    | with_reducible exact Reach1.fst (by assumption)
    | with_reducible (first
        | refine Reach.foldl _ ?_ (fun _ _ _ => ?_)
        | refine Reach1.foldl _ ?_ (fun _ _ _ => ?_)
        | refine Reach1.fst (Reach1.foldl _ ?_ (fun _ _ _ => ?_))
        | apply Reach.then ?_ (State.retryStage_reach ..) ?_))

theorem State.retryChains_reach (s : State) (cs : List Chain) : Reach 0x40003000000200c0000000000000600102a011fe3b0f6120d80dff0c0000001002787dff s (State.retryChains s cs) := by
  have h0 := Reach.refl 0x40003000000200c0000000000000600102a011fe3b0f6120d80dff0c0000001002787dff s
  unfold State.retryChains
  repeat' (first
    | with_reducible assumption
    | exact rfl
    | simp -zeta -iota -proj only [Reach1.pair_iff]
    | with_reducible exact Reach1.fst (by assumption)
    | with_reducible (first
        | refine Reach.foldl _ ?_ (fun _ _ _ => ?_)
        | refine Reach1.foldl _ ?_ (fun _ _ _ => ?_)
        | refine Reach1.fst (Reach1.foldl _ ?_ (fun _ _ _ => ?_))
        | apply Reach.then ?_ (State.retryChain_reach ..) ?_))

theorem stageItemStartEffect_reach (ref : ChainRef) (stage : Fin 6) (loads : List LensLoad) (wait : SyncWait) (waited : BitVec 40) (s : State) : Reach 0x40003000000200c0000000000000600122a011fe3b0f6920d80dff0c0000001002787dff s (stageItemStartEffect ref stage loads wait waited s) := by
  have h0 := Reach.refl 0x40003000000200c0000000000000600122a011fe3b0f6920d80dff0c0000001002787dff s
  unfold stageItemStartEffect
  repeat' (first
    | with_reducible assumption
    | exact rfl
    | simp -zeta -iota -proj only [Reach1.pair_iff]
    | with_reducible exact Reach1.fst (by assumption)
    | with_reducible (first
        | refine Reach.bump ?_ ?_
        | refine Reach.ite ?_ ?_
        | apply Reach1.then ?_ (State.beginItem_reach ..) ?_
        | apply Reach1.fst (Reach1.then ?_ (State.beginItem_reach ..) ?_)
        | apply Reach.then ?_ (State.endChain_reach ..) ?_
        | apply Reach.then ?_ (State.itemWork_reach ..) ?_
        | apply Reach.then ?_ (State.planLate_reach ..) ?_
        | apply Reach.then ?_ (State.retryStage_reach ..) ?_
        | apply Reach.then ?_ (State.showTasks_reach ..) ?_
        | apply Reach.then ?_ (State.traceStageWait_reach ..) ?_)
    | (extract_lets +onlyGivenNames -underBinder -merge -useContext x; first | (refine Reach.cut x ?_ (fun _ => ?_); rotate_left; clear_value x; rotate_left; unfold x; clear x) | (refine Reach.cutP x ?_ (fun _ => ?_); rotate_left; clear_value x; rotate_left; unfold x; clear x) | (have _ := fun a => x a; unfold x; clear x) | clear_value x)
    | (split <;> try (refine Reach.cut1 (by assumption) ?_ (fun _ => ?_)))
    | split)

theorem slotFullEffect_reach (ref : ChainRef) (stage : Fin 6) (s : State) : Reach 0x200080000000800000000000000000060 s (slotFullEffect ref stage s) := by
  have h0 := Reach.refl 0x200080000000800000000000000000060 s
  unfold slotFullEffect
  repeat' (first
    | with_reducible assumption
    | exact rfl
    | with_reducible (first
        | refine Reach.ite ?_ ?_
        | apply Reach.then ?_ (State.putChain_reach ..) ?_
        | apply Reach.then ?_ (State.putSlotToken_reach ..) ?_)
    | (extract_lets +onlyGivenNames -underBinder -merge -useContext x; first | (refine Reach.cut x ?_ (fun _ => ?_); rotate_left; clear_value x; rotate_left; unfold x; clear x) | (have _ := fun a => x a; unfold x; clear x) | clear_value x)
    | (split <;> try (refine Reach.cut1 (by assumption) ?_ (fun _ => ?_)))
    | split)

theorem slotEmptyEffect_reach (ref : ChainRef) (stage : Fin 6) (s : State) : Reach 0x200080000000800000000000000000060 s (slotEmptyEffect ref stage s) := by
  have h0 := Reach.refl 0x200080000000800000000000000000060 s
  unfold slotEmptyEffect
  repeat' (first
    | with_reducible assumption
    | exact rfl
    | with_reducible (first
        | refine Reach.ite ?_ ?_
        | apply Reach.then ?_ (State.putChain_reach ..) ?_
        | apply Reach.then ?_ (State.putSlotToken_reach ..) ?_)
    | (extract_lets +onlyGivenNames -underBinder -merge -useContext x; first | (refine Reach.cut x ?_ (fun _ => ?_); rotate_left; clear_value x; rotate_left; unfold x; clear x) | (have _ := fun a => x a; unfold x; clear x) | clear_value x)
    | (split <;> try (refine Reach.cut1 (by assumption) ?_ (fun _ => ?_)))
    | split)

theorem tokenHandoverEffect_reach (ref : ChainRef) (ring : Fin 6) (toConsumer : Bool) (s : State) : Reach 0x800000000000000000060 s (tokenHandoverEffect ref ring toConsumer s) := by
  have h0 := Reach.refl 0x800000000000000000060 s
  unfold tokenHandoverEffect
  repeat' (first
    | with_reducible assumption
    | exact rfl
    | with_reducible (first
        | apply Reach.then ?_ (State.putChain_reach ..) ?_)
    | (split <;> try (refine Reach.cut1 (by assumption) ?_ (fun _ => ?_)))
    | split)

theorem chainCommitEffect_reach (ref : ChainRef) (s : State) : Reach 0x40003000000200c0000000000000600102a011fe3b0f6120d80dff0c0000001002787dff s (chainCommitEffect ref s) := by
  have h0 := Reach.refl 0x40003000000200c0000000000000600102a011fe3b0f6120d80dff0c0000001002787dff s
  unfold chainCommitEffect
  repeat' (first
    | with_reducible assumption
    | exact rfl
    | with_reducible (first
        | refine Reach.ite ?_ ?_
        | apply Reach.then ?_ (State.endChain_reach ..) ?_
        | apply Reach.then ?_ (State.planCommit_reach ..) ?_
        | apply Reach.then ?_ (State.retryChains_reach ..) ?_
        | apply Reach.then ?_ (State.setChain_reach ..) ?_)
    | (extract_lets +onlyGivenNames -underBinder -merge -useContext x; first | (refine Reach.cut x ?_ (fun _ => ?_); rotate_left; clear_value x; rotate_left; unfold x; clear x) | (have _ := fun a => x a; unfold x; clear x) | clear_value x)
    | (split <;> try (refine Reach.cut1 (by assumption) ?_ (fun _ => ?_)))
    | split)

theorem State.switchTask_reach (s : State) (e : Nat) (task : Nat) : Reach 0x1000000000000000000020 s (State.switchTask s e task) := by
  have h0 := Reach.refl 0x1000000000000000000020 s
  unfold State.switchTask
  repeat' (first
    | with_reducible assumption
    | exact rfl
    | with_reducible (first
        | refine Reach.bump ?_ ?_
        | apply Reach.then ?_ (State.setEng_reach ..) ?_)
    | (extract_lets +onlyGivenNames -underBinder -merge -useContext x; first | (refine Reach.cut x ?_ (fun _ => ?_); rotate_left; clear_value x; rotate_left; unfold x; clear x) | (have _ := fun a => x a; unfold x; clear x) | clear_value x))

theorem taskSwitchEffect_reach (e : EngId) (task : Fin 4) (s : State) : Reach 0x1000000000000000000020 s (taskSwitchEffect e task s) := by
  have h0 := Reach.refl 0x1000000000000000000020 s
  unfold taskSwitchEffect
  repeat' (first
    | with_reducible assumption
    | exact rfl
    | with_reducible (first
        | refine Reach.ite ?_ ?_
        | apply Reach.then ?_ (State.switchTask_reach ..) ?_)
    | (extract_lets +onlyGivenNames -underBinder -merge -useContext x; first | (refine Reach.cut x ?_ (fun _ => ?_); rotate_left; clear_value x; rotate_left; unfold x; clear x) | (have _ := fun a => x a; unfold x; clear x) | clear_value x)
    | (split <;> try (refine Reach.cut1 (by assumption) ?_ (fun _ => ?_)))
    | split)

theorem switchThresholdExpiryEffect_reach (e : EngId) (waited : BitVec 32) (s : State) : Reach 0x1000000000000000000020 s (switchThresholdExpiryEffect e waited s) := by
  have h0 := Reach.refl 0x1000000000000000000020 s
  unfold switchThresholdExpiryEffect
  repeat' (first
    | with_reducible assumption
    | exact rfl
    | with_reducible (first
        | refine Reach.ite ?_ ?_
        | apply Reach.then ?_ (State.switchTask_reach ..) ?_)
    | (extract_lets +onlyGivenNames -underBinder -merge -useContext x; first | (refine Reach.cut x ?_ (fun _ => ?_); rotate_left; clear_value x; rotate_left; unfold x; clear x) | (have _ := fun a => x a; unfold x; clear x) | clear_value x)
    | (split <;> try (refine Reach.cut1 (by assumption) ?_ (fun _ => ?_)))
    | split)

theorem chainStallEffect_reach (ref : ChainRef) (us : BitVec 32) (s : State) : Reach 0x200000000000000000000000000000000002000c03200008000000000000005834e0 s (chainStallEffect ref us s) := by
  have h0 := Reach.refl 0x200000000000000000000000000000000002000c03200008000000000000005834e0 s
  unfold chainStallEffect
  repeat' (first
    | with_reducible assumption
    | exact rfl
    | with_reducible (first
        | refine Reach.bump ?_ ?_
        | refine Reach.ite ?_ ?_
        | apply Reach.then ?_ (State.endChain_reach ..) ?_)
    | (extract_lets +onlyGivenNames -underBinder -merge -useContext x; first | (refine Reach.cut x ?_ (fun _ => ?_); rotate_left; clear_value x; rotate_left; unfold x; clear x) | (have _ := fun a => x a; unfold x; clear x) | clear_value x)
    | (split <;> try (refine Reach.cut1 (by assumption) ?_ (fun _ => ?_)))
    | split)

theorem slotTimeoutEffect_reach (ref : ChainRef) (ms : BitVec 32) (status : BitVec 8) (s : State) : Reach 0x200000000000000000000000000000000002000c05200008000000000000005834e0 s (slotTimeoutEffect ref ms status s) := by
  have h0 := Reach.refl 0x200000000000000000000000000000000002000c05200008000000000000005834e0 s
  unfold slotTimeoutEffect
  repeat' (first
    | with_reducible assumption
    | exact rfl
    | with_reducible (first
        | refine Reach.bump ?_ ?_
        | refine Reach.ite ?_ ?_
        | apply Reach.then ?_ (State.endChain_reach ..) ?_)
    | (extract_lets +onlyGivenNames -underBinder -merge -useContext x; first | (refine Reach.cut x ?_ (fun _ => ?_); rotate_left; clear_value x; rotate_left; unfold x; clear x) | (have _ := fun a => x a; unfold x; clear x) | clear_value x)
    | (split <;> try (refine Reach.cut1 (by assumption) ?_ (fun _ => ?_)))
    | split)

theorem chainAbortEffect_reach (ref : ChainRef) (s : State) : Reach 0x200000000000000000000000000000000002000c01000008000000000000005820e0 s (chainAbortEffect ref s) := by
  have h0 := Reach.refl 0x200000000000000000000000000000000002000c01000008000000000000005820e0 s
  unfold chainAbortEffect
  repeat' (first
    | with_reducible assumption
    | exact rfl
    | with_reducible (first
        | refine Reach.ite ?_ ?_
        | apply Reach.then ?_ (State.abortSeq_reach ..) ?_
        | apply Reach.then ?_ (State.closeChain_reach ..) ?_
        | apply Reach.then ?_ (State.grantContexts_reach ..) ?_
        | apply Reach.then ?_ (State.setChain_reach ..) ?_)
    | (split <;> try (refine Reach.cut1 (by assumption) ?_ (fun _ => ?_)))
    | split)

theorem State.resumeFetch_reach (s : State) (ref : ChainRef) : Reach 0x40003000000200c0000000000000600102a011fe3b0f6120d80dff0c0000001002787dff s (State.resumeFetch s ref) := by
  have h0 := Reach.refl 0x40003000000200c0000000000000600102a011fe3b0f6120d80dff0c0000001002787dff s
  unfold State.resumeFetch
  repeat' (first
    | with_reducible assumption
    | exact rfl
    | with_reducible (first
        | apply Reach.then ?_ (State.retryStage_reach ..) ?_))

theorem runaheadResumeEffect_reach (ref : ChainRef) (s : State) : Reach 0x40003000000200c0000000000000600102a011fe3b0f6120d80dff0c0000001002787dff s (runaheadResumeEffect ref s) := by
  have h0 := Reach.refl 0x40003000000200c0000000000000600102a011fe3b0f6120d80dff0c0000001002787dff s
  unfold runaheadResumeEffect
  repeat' (first
    | with_reducible assumption
    | exact rfl
    | with_reducible (first
        | apply Reach.then ?_ (State.resumeFetch_reach ..) ?_))

end Sys2Proof.Machine
end

