-- ==== Sys2Proof/Laws/ReachFabric.lean ====
section
/-!
SUPPORT. The footprint of each function of Machine/Fabric.lean.
-/
set_option linter.unusedTactic false
set_option linter.unreachableTactic false
namespace Sys2Proof.Machine

theorem State.setLink_reach (s : State) (n : Nat) (x : Link) : Reach 0x800000 s (State.setLink s n x) := by
  have h0 := Reach.refl 0x800000 s
  unfold State.setLink
  repeat' (first
    | with_reducible assumption
    | exact rfl
    | with_reducible (first
        | refine Reach.set_fabric ?_ ?_))

theorem State.setLinkState_reach (s : State) (n : Nat) (st : Nat) : Reach 0x100000000000000000000000000000000000000004000 s (State.setLinkState s n st) := by
  have h0 := Reach.refl 0x100000000000000000000000000000000000000004000 s
  unfold State.setLinkState
  repeat' (first
    | with_reducible assumption
    | exact rfl
    | with_reducible (first
        | refine Reach.setFld ?_ ?_
        | apply Reach.then ?_ (State.dput_reach ..) ?_))

theorem State.enqueue_reach (s : State) (l : Nat) (m : TxMsg) (vc : Nat) : Reach 0x800000 s (State.enqueue s l m vc) := by
  have h0 := Reach.refl 0x800000 s
  unfold State.enqueue
  repeat' (first
    | with_reducible assumption
    | exact rfl
    | with_reducible (first
        | apply Reach.then ?_ (State.setLink_reach ..) ?_)
    | (extract_lets +onlyGivenNames -underBinder -merge -useContext x; first | (refine Reach.cut x ?_ (fun _ => ?_); rotate_left; clear_value x; rotate_left; unfold x; clear x) | (have _ := fun a => x a; unfold x; clear x) | clear_value x))

theorem State.dataGone_reach (s : State) (num : Option Nat) : Reach 0x800000 s (State.dataGone s num) := by
  have h0 := Reach.refl 0x800000 s
  unfold State.dataGone
  repeat' (first
    | with_reducible assumption
    | exact rfl
    | (split <;> try (refine Reach.cut1 (by assumption) ?_ (fun _ => ?_)))
    | split
    | with_reducible (first
        | refine Reach.set_fabric ?_ ?_))

theorem State.toInbox_reach (s : State) (m : TxMsg) : Reach 0x800000 s (State.toInbox s m) := by
  have h0 := Reach.refl 0x800000 s
  unfold State.toInbox
  repeat' (first
    | with_reducible assumption
    | exact rfl
    | with_reducible (first
        | refine Reach.set_fabric ?_ ?_))

theorem State.sendMsg_reach (s : State) (y0 : Nat) (y1 : Nat) (y2 : Words4) (y3 : List LineSeg) (y4 : Option Nat) (y5 : Bool) : Reach 0x80000000000000000000000000000000000000000000000800000 s (State.sendMsg s y0 y1 y2 y3 y4 y5) := by
  induction y0 generalizing s y1 y2 y3 y4 y5 with
  | zero =>
    have h0 := Reach.refl 0x80000000000000000000000000000000000000000000000800000 s
    unfold State.sendMsg
    repeat' (first
    | with_reducible assumption
    | exact rfl
    | with_reducible (first
        | refine Reach.bump ?_ ?_
        | refine Reach.ite ?_ ?_
        | apply Reach.then ?_ (State.dataGone_reach ..) ?_
        | apply Reach.then ?_ (State.enqueue_reach ..) ?_
        | apply Reach.then ?_ (State.toInbox_reach ..) ?_
        | apply Reach.then ?_ (ih ..) ?_)
    | (extract_lets +onlyGivenNames -underBinder -merge -useContext x; first | (refine Reach.cut x ?_ (fun _ => ?_); rotate_left; clear_value x; rotate_left; unfold x; clear x) | (have _ := fun a => x a; unfold x; clear x) | clear_value x)
    | (split <;> try (refine Reach.cut1 (by assumption) ?_ (fun _ => ?_)))
    | split
    | with_reducible (first
        | refine Reach.set_fabric ?_ ?_))
  | succ _ ih =>
    have h0 := Reach.refl 0x80000000000000000000000000000000000000000000000800000 s
    unfold State.sendMsg
    repeat' (first
    | with_reducible assumption
    | exact rfl
    | with_reducible (first
        | refine Reach.bump ?_ ?_
        | refine Reach.ite ?_ ?_
        | apply Reach.then ?_ (State.dataGone_reach ..) ?_
        | apply Reach.then ?_ (State.enqueue_reach ..) ?_
        | apply Reach.then ?_ (State.toInbox_reach ..) ?_
        | apply Reach.then ?_ (ih ..) ?_)
    | (extract_lets +onlyGivenNames -underBinder -merge -useContext x; first | (refine Reach.cut x ?_ (fun _ => ?_); rotate_left; clear_value x; rotate_left; unfold x; clear x) | (have _ := fun a => x a; unfold x; clear x) | clear_value x)
    | (split <;> try (refine Reach.cut1 (by assumption) ?_ (fun _ => ?_)))
    | split
    | with_reducible (first
        | refine Reach.set_fabric ?_ ?_))

theorem State.post_reach (s : State) (die : Nat) (h : Words4) (lines : List LineSeg) : Reach 0x80000000000000000000000000000000000000000000000800000 s (State.post s die h lines) := by
  have h0 := Reach.refl 0x80000000000000000000000000000000000000000000000800000 s
  unfold State.post
  repeat' (first
    | with_reducible assumption
    | exact rfl
    | with_reducible (first
        | apply Reach.then ?_ (State.sendMsg_reach ..) ?_))

theorem State.markSent_reach (s : State) (num : Nat) : Reach 0x100000 s (State.markSent s num) := by
  have h0 := Reach.refl 0x100000 s
  unfold State.markSent
  repeat' (first
    | with_reducible assumption
    | exact rfl
    | with_reducible (first
        | refine Reach.ite ?_ ?_)
    | (split <;> try (refine Reach.cut1 (by assumption) ?_ (fun _ => ?_)))
    | split
    | with_reducible (first
        | refine Reach.set_sentMsgs ?_ ?_))

theorem State.msgOutcome_reach (s : State) (tag : Nat) (status : Nat) : Reach 0x200000000000000000040000000000000002000c01200008000000000000005834e0 s (State.msgOutcome s tag status) := by
  have h0 := Reach.refl 0x200000000000000000040000000000000002000c01200008000000000000005834e0 s
  unfold State.msgOutcome
  repeat' (first
    | with_reducible assumption
    | exact rfl
    | with_reducible (first
        | refine Reach.bump ?_ ?_
        | refine Reach.ite ?_ ?_
        | apply Reach.then ?_ (State.endChain_reach ..) ?_
        | apply Reach.then ?_ (State.showTasks_reach ..) ?_)
    | (extract_lets +onlyGivenNames -underBinder -merge -useContext x; first | (refine Reach.cut x ?_ (fun _ => ?_); rotate_left; clear_value x; rotate_left; unfold x; clear x) | (have _ := fun a => x a; unfold x; clear x) | clear_value x)
    | (split <;> try (refine Reach.cut1 (by assumption) ?_ (fun _ => ?_)))
    | split
    | with_reducible (first
        | refine Reach.set_sentMsgs ?_ ?_))

theorem State.virtWriteWords_reach (s : State) (a : Access) (die : Nat) (va : Nat) (ws : List Word) : Reach 0x40001000000000000000000000000001022011f820000000000000000000000000087c1d s (State.virtWriteWords s a die va ws) := by
  have h0 := Reach.refl 0x40001000000000000000000000000001022011f820000000000000000000000000087c1d s
  unfold State.virtWriteWords
  repeat' (first
    | with_reducible assumption
    | exact rfl
    | with_reducible (first
        | apply Reach.then ?_ (State.virtWrite_reach ..) ?_))

end Sys2Proof.Machine
end

