-- ==== Sys2Proof/Laws/ReachWindowOps.lean ====
section
/-!
SUPPORT. The footprint of each function of Machine/WindowOps.lean.
-/
set_option linter.unusedTactic false
set_option linter.unreachableTactic false
namespace Sys2Proof.Machine

theorem State.setEpoch_reach (s : State) (die : Nat) (entry : Nat) (e : Epoch) : Reach 0x800000 s (State.setEpoch s die entry e) := by
  have h0 := Reach.refl 0x800000 s
  unfold State.setEpoch
  repeat' (first
    | with_reducible assumption
    | exact rfl
    | with_reducible (first
        | refine Reach.set_fabric ?_ ?_))

theorem State.putLanding_reach (s : State) (g : Landing) : Reach 0x800000 s (State.putLanding s g) := by
  have h0 := Reach.refl 0x800000 s
  unfold State.putLanding
  repeat' (first
    | with_reducible assumption
    | exact rfl
    | with_reducible (first
        | refine Reach.ite ?_ ?_)
    | (split <;> try (refine Reach.cut1 (by assumption) ?_ (fun _ => ?_)))
    | split
    | with_reducible (first
        | refine Reach.set_fabric ?_ ?_))

theorem State.headFails_reach (s : State) (g : Stage) (status : Nat) : Reach 0x200000000000000000000000000000000002000c01200008000000000000005834e0 s (State.headFails s g status) := by
  have h0 := Reach.refl 0x200000000000000000000000000000000002000c01200008000000000000005834e0 s
  unfold State.headFails
  repeat' (first
    | with_reducible assumption
    | exact rfl
    | with_reducible (first
        | refine Reach.ite ?_ ?_
        | apply Reach.then ?_ (State.endChain_reach ..) ?_)
    | (split <;> try (refine Reach.cut1 (by assumption) ?_ (fun _ => ?_)))
    | split)

theorem State.noteTorn_reach (s : State) (g : Landing) : Reach 0x2000000000000000000000000000000000000000000800000 s (State.noteTorn s g) := by
  have h0 := Reach.refl 0x2000000000000000000000000000000000000000000800000 s
  unfold State.noteTorn
  repeat' (first
    | with_reducible assumption
    | exact rfl
    | with_reducible (first
        | refine Reach.bump ?_ ?_
        | refine Reach.ite ?_ ?_
        | apply Reach.then ?_ (State.setEpoch_reach ..) ?_)
    | (extract_lets +onlyGivenNames -underBinder -merge -useContext x; first | (refine Reach.cut x ?_ (fun _ => ?_); rotate_left; clear_value x; rotate_left; unfold x; clear x) | (have _ := fun a => x a; unfold x; clear x) | clear_value x)
    | (split <;> try (refine Reach.cut1 (by assumption) ?_ (fun _ => ?_)))
    | split)

theorem State.finishLanding_reach (s : State) (g : Landing) : Reach 0x200000040000000800020000000000000002000c0120000800000000000000d834e0 s (State.finishLanding s g) := by
  have h0 := Reach.refl 0x200000040000000800020000000000000002000c0120000800000000000000d834e0 s
  unfold State.finishLanding
  repeat' (first
    | with_reducible assumption
    | exact rfl
    | with_reducible (first
        | refine Reach.ite ?_ ?_
        | apply Reach.then ?_ (State.dataGone_reach ..) ?_
        | apply Reach.then ?_ (State.headFails_reach ..) ?_
        | apply Reach.then ?_ (State.headFull_reach ..) ?_
        | apply Reach.then ?_ (State.noteTorn_reach ..) ?_
        | apply Reach.then ?_ (State.post_reach ..) ?_
        | apply Reach.then ?_ (State.putSlotToken_reach ..) ?_
        | apply Reach.then ?_ (State.putToken_reach ..) ?_)
    | (extract_lets +onlyGivenNames -underBinder -merge -useContext x; first | (refine Reach.cut x ?_ (fun _ => ?_); rotate_left; clear_value x; rotate_left; unfold x; clear x) | (have _ := fun a => x a; unfold x; clear x) | clear_value x)
    | (split <;> try (refine Reach.cut1 (by assumption) ?_ (fun _ => ?_)))
    | split)

theorem State.readLine_reach (s : State) (g : Landing) (i : Nat) : Reach1 0x1000000000000000000000000001022011f83b000000c00000000000000000087c1d s (State.readLine s g i) := by
  have h0 := Reach.refl 0x1000000000000000000000000001022011f83b000000c00000000000000000087c1d s
  unfold State.readLine
  repeat' (first
    | with_reducible assumption
    | exact rfl
    | simp -zeta -iota -proj only [Reach1.pair_iff]
    | with_reducible exact Reach1.fst (by assumption)
    | with_reducible (first
        | refine Reach.ite ?_ ?_
        | refine Reach1.ite ?_ ?_
        | refine Reach.foldl _ ?_ (fun _ _ _ => ?_)
        | refine Reach1.foldl _ ?_ (fun _ _ _ => ?_)
        | refine Reach1.fst (Reach1.foldl _ ?_ (fun _ _ _ => ?_))
        | apply Reach.then ?_ (State.didRead_reach ..) ?_)
    | (extract_lets +onlyGivenNames -underBinder -merge -useContext x; first | (refine Reach.cut x ?_ (fun _ => ?_); rotate_left; clear_value x; rotate_left; unfold x; clear x) | (refine Reach1.cut x ?_ (fun _ => ?_); rotate_left; clear_value x; rotate_left; unfold x; clear x) | (refine Reach.cutP x ?_ (fun _ => ?_); rotate_left; clear_value x; rotate_left; unfold x; clear x) | (refine Reach1.cutP x ?_ (fun _ => ?_); rotate_left; clear_value x; rotate_left; unfold x; clear x) | (have _ := fun a => x a; unfold x; clear x) | clear_value x)
    | (split <;> try (first | refine Reach1.cut1 (by assumption) ?_ (fun _ => ?_) | refine Reach.cut1 (by assumption) ?_ (fun _ => ?_)))
    | split)

theorem State.readLines_reach (s : State) (g : Landing) (y0 : List Nat) : Reach1 0x1000000000000000000000000001022011f83b000000c00000000000000000087c1d s (State.readLines s g y0) := by
  induction y0 generalizing s g with
  | nil =>
    have h0 := Reach.refl 0x1000000000000000000000000001022011f83b000000c00000000000000000087c1d s
    unfold State.readLines
    repeat' (first
    | with_reducible assumption
    | exact rfl
    | simp -zeta -iota -proj only [Reach1.pair_iff]
    | with_reducible exact Reach1.fst (by assumption)
    | with_reducible (first
        | refine Reach.ite ?_ ?_
        | refine Reach1.ite ?_ ?_
        | apply Reach1.then ?_ (State.readLine_reach ..) ?_
        | apply Reach1.fst (Reach1.then ?_ (State.readLine_reach ..) ?_)
        | apply Reach1.then ?_ (ih ..) ?_)
    | (extract_lets +onlyGivenNames -underBinder -merge -useContext x; first | (refine Reach.cut x ?_ (fun _ => ?_); rotate_left; clear_value x; rotate_left; unfold x; clear x) | (refine Reach1.cut x ?_ (fun _ => ?_); rotate_left; clear_value x; rotate_left; unfold x; clear x) | (refine Reach.cutP x ?_ (fun _ => ?_); rotate_left; clear_value x; rotate_left; unfold x; clear x) | (refine Reach1.cutP x ?_ (fun _ => ?_); rotate_left; clear_value x; rotate_left; unfold x; clear x) | (have _ := fun a => x a; unfold x; clear x) | clear_value x)
    | (split <;> try (first | refine Reach1.cut1 (by assumption) ?_ (fun _ => ?_) | refine Reach.cut1 (by assumption) ?_ (fun _ => ?_)))
    | split)
  | cons _ _ ih =>
    have h0 := Reach.refl 0x1000000000000000000000000001022011f83b000000c00000000000000000087c1d s
    unfold State.readLines
    repeat' (first
    | with_reducible assumption
    | exact rfl
    | simp -zeta -iota -proj only [Reach1.pair_iff]
    | with_reducible exact Reach1.fst (by assumption)
    | with_reducible (first
        | refine Reach.ite ?_ ?_
        | refine Reach1.ite ?_ ?_
        | apply Reach1.then ?_ (State.readLine_reach ..) ?_
        | apply Reach1.fst (Reach1.then ?_ (State.readLine_reach ..) ?_)
        | apply Reach1.then ?_ (ih ..) ?_)
    | (extract_lets +onlyGivenNames -underBinder -merge -useContext x; first | (refine Reach.cut x ?_ (fun _ => ?_); rotate_left; clear_value x; rotate_left; unfold x; clear x) | (refine Reach1.cut x ?_ (fun _ => ?_); rotate_left; clear_value x; rotate_left; unfold x; clear x) | (refine Reach.cutP x ?_ (fun _ => ?_); rotate_left; clear_value x; rotate_left; unfold x; clear x) | (refine Reach1.cutP x ?_ (fun _ => ?_); rotate_left; clear_value x; rotate_left; unfold x; clear x) | (have _ := fun a => x a; unfold x; clear x) | clear_value x)
    | (split <;> try (first | refine Reach1.cut1 (by assumption) ?_ (fun _ => ?_) | refine Reach.cut1 (by assumption) ?_ (fun _ => ?_)))
    | split)

theorem State.answerGet_reach (s : State) (g : Landing) : Reach 0x1000000000000008000200000001022011f83b000000c00000000000000000887c1d s (State.answerGet s g) := by
  have h0 := Reach.refl 0x1000000000000008000200000001022011f83b000000c00000000000000000887c1d s
  unfold State.answerGet
  repeat' (first
    | with_reducible assumption
    | exact rfl
    | simp -zeta -iota -proj only [Reach1.pair_iff]
    | with_reducible exact Reach1.fst (by assumption)
    | with_reducible (first
        | refine Reach.ite ?_ ?_
        | apply Reach.then ?_ (State.noteTorn_reach ..) ?_
        | apply Reach.then ?_ (State.putLanding_reach ..) ?_
        | apply Reach1.then ?_ (State.readLines_reach ..) ?_
        | apply Reach1.fst (Reach1.then ?_ (State.readLines_reach ..) ?_)
        | apply Reach.then ?_ (State.sendMsg_reach ..) ?_)
    | (extract_lets +onlyGivenNames -underBinder -merge -useContext x; first | (refine Reach.cut x ?_ (fun _ => ?_); rotate_left; clear_value x; rotate_left; unfold x; clear x) | (refine Reach.cutP x ?_ (fun _ => ?_); rotate_left; clear_value x; rotate_left; unfold x; clear x) | (have _ := fun a => x a; unfold x; clear x) | clear_value x)
    | (split <;> try (refine Reach.cut1 (by assumption) ?_ (fun _ => ?_)))
    | split)

theorem State.settleSignals_reach (s : State) : Reach 0x4000000000000000000000000000000000000000000000000000000800000 s (State.settleSignals s) := by
  have h0 := Reach.refl 0x4000000000000000000000000000000000000000000000000000000800000 s
  unfold State.settleSignals
  repeat' (first
    | with_reducible assumption
    | exact rfl
    | simp -zeta -iota -proj only [Reach1.pair_iff]
    | with_reducible exact Reach1.fst (by assumption)
    | with_reducible (first
        | refine Reach.foldl _ ?_ (fun _ _ _ => ?_)
        | refine Reach1.foldl _ ?_ (fun _ _ _ => ?_)
        | refine Reach1.fst (Reach1.foldl _ ?_ (fun _ _ _ => ?_))
        | apply Reach.then ?_ (State.putToken_reach ..) ?_)
    | (extract_lets +onlyGivenNames -underBinder -merge -useContext x; first | (refine Reach.cut x ?_ (fun _ => ?_); rotate_left; clear_value x; rotate_left; unfold x; clear x) | (refine Reach.cutP x ?_ (fun _ => ?_); rotate_left; clear_value x; rotate_left; unfold x; clear x) | (have _ := fun a => x a; unfold x; clear x) | clear_value x)
    | dsimp -zeta only []
    | with_reducible (first
        | refine Reach.set_fabric ?_ ?_))

theorem State.writeRecord_reach (s : State) (a : Access) (die : Nat) (va : Nat) (ws : List Word) (token : Option Nat) : Reach 0x40001000000400000000000000000001022011f820000000000000000000000000887c1d s (State.writeRecord s a die va ws token) := by
  have h0 := Reach.refl 0x40001000000400000000000000000001022011f820000000000000000000000000887c1d s
  unfold State.writeRecord
  repeat' (first
    | with_reducible assumption
    | exact rfl
    | with_reducible (first
        | apply Reach.then ?_ (State.settleSignals_reach ..) ?_
        | apply Reach.then ?_ (State.virtWriteWords_reach ..) ?_)
    | (extract_lets +onlyGivenNames -underBinder -merge -useContext x; first | (refine Reach.cut x ?_ (fun _ => ?_); rotate_left; clear_value x; rotate_left; unfold x; clear x) | (have _ := fun a => x a; unfold x; clear x) | clear_value x)
    | (split <;> try (refine Reach.cut1 (by assumption) ?_ (fun _ => ?_)))
    | split
    | with_reducible (first
        | refine Reach.set_fabric ?_ ?_))

theorem State.settleLandings_reach (s : State) : Reach 0x3000000400000008000200000001022011fa3b0c0120c00800000000000000d87cfd s (State.settleLandings s) := by
  have h0 := Reach.refl 0x3000000400000008000200000001022011fa3b0c0120c00800000000000000d87cfd s
  unfold State.settleLandings
  repeat' (first
    | with_reducible assumption
    | exact rfl
    | simp -zeta -iota -proj only [Reach1.pair_iff]
    | with_reducible exact Reach1.fst (by assumption)
    | with_reducible (first
        | refine Reach.ite ?_ ?_
        | refine Reach1.ite ?_ ?_
        | refine Reach.foldl _ ?_ (fun _ _ _ => ?_)
        | refine Reach1.foldl _ ?_ (fun _ _ _ => ?_)
        | refine Reach1.fst (Reach1.foldl _ ?_ (fun _ _ _ => ?_))
        | apply Reach.then ?_ (State.answerGet_reach ..) ?_
        | apply Reach.then ?_ (State.finishLanding_reach ..) ?_
        | apply Reach.then ?_ (State.settleSignals_reach ..) ?_)
    | (split <;> try (refine Reach.cut1 (by assumption) ?_ (fun _ => ?_)))
    | split)

end Sys2Proof.Machine
end

