-- ==== Sys2Proof/Laws/ReachBeamOps.lean ====
section
/-!
SUPPORT. The footprint of each function of Machine/BeamOps.lean.
-/
set_option linter.unusedTactic false
set_option linter.unreachableTactic false
namespace Sys2Proof.Machine

theorem State.postRecord_reach (s : State) (die : Nat) (owner : Nat) (ws : List Word) (launch : Option Nat) : Reach 0x40001000000000000000000000000001022011f820000000000000000000000000887c1d s (State.postRecord s die owner ws launch) := by
  have h0 := Reach.refl 0x40001000000000000000000000000001022011f820000000000000000000000000887c1d s
  unfold State.postRecord
  repeat' (first
    | with_reducible assumption
    | exact rfl
    | with_reducible (first
        | apply Reach.then ?_ (State.virtWriteWords_reach ..) ?_)
    | (extract_lets +onlyGivenNames -underBinder -merge -useContext x; first | (refine Reach.cut x ?_ (fun _ => ?_); rotate_left; clear_value x; rotate_left; unfold x; clear x) | (have _ := fun a => x a; unfold x; clear x) | clear_value x)
    | exact fun h => h
    | with_reducible (first
        | refine Reach.set_fabric ?_ ?_
        | refine Reach.set_beam ?_ ?_
        | refine Reach.litMk ?_ rfl (fun _ h => h) ?_ ?_ ?_ ?_)
    | (intro (c : Cell) (hc : _); cases c <;> first | rfl | exact absurd hc (by decide) | exact fun _ _ => rfl))

theorem State.countProd_reach (s : State) (owner : Nat) : Reach 0x1000000000000000000000000000000000000000000000000000002000000 s (State.countProd s owner) := by
  have h0 := Reach.refl 0x1000000000000000000000000000000000000000000000000000002000000 s
  unfold State.countProd
  repeat' (first
    | with_reducible assumption
    | exact rfl
    | with_reducible (first
        | refine Reach.setFld ?_ ?_
        | refine Reach.ite ?_ ?_
        | apply Reach.then ?_ (State.raiseIrq_reach ..) ?_)
    | (extract_lets +onlyGivenNames -underBinder -merge -useContext x; first | (refine Reach.cut x ?_ (fun _ => ?_); rotate_left; clear_value x; rotate_left; unfold x; clear x) | (have _ := fun a => x a; unfold x; clear x) | clear_value x)
    | (split <;> try (refine Reach.cut1 (by assumption) ?_ (fun _ => ?_)))
    | split)

theorem State.waitCring_reach (s : State) (w : DoneWait) : Reach 0x10000000000000000000000000000000000000000000000000000002000 s (State.waitCring s w) := by
  have h0 := Reach.refl 0x10000000000000000000000000000000000000000000000000000002000 s
  unfold State.waitCring
  repeat' (first
    | with_reducible assumption
    | exact rfl
    | with_reducible (first
        | refine Reach.bumpBoth ?_ ?_)
    | (extract_lets +onlyGivenNames -underBinder -merge -useContext x; first | (refine Reach.cut x ?_ (fun _ => ?_); rotate_left; clear_value x; rotate_left; unfold x; clear x) | (have _ := fun a => x a; unfold x; clear x) | clear_value x)
    | with_reducible (first
        | refine Reach.set_beam ?_ ?_))

theorem State.dropRec_reach (s : State) (launch : Nat) : Reach 0x2000 s (State.dropRec s launch) := by
  have h0 := Reach.refl 0x2000 s
  unfold State.dropRec
  repeat' (first
    | with_reducible assumption
    | exact rfl
    | with_reducible (first
        | refine Reach.set_beam ?_ ?_))

theorem State.armInst_reach (s : State) (r : RecInst) (clamps : Nat) (armed : Nat) : Reach 0x2400000000000000000000000000000000000000000000000000000002000 s (State.armInst s r clamps armed) := by
  have h0 := Reach.refl 0x2400000000000000000000000000000000000000000000000000000002000 s
  unfold State.armInst
  repeat' (first
    | with_reducible assumption
    | exact rfl
    | with_reducible (first
        | refine Reach.bumpBoth ?_ ?_
        | apply Reach.then ?_ (State.dropRec_reach ..) ?_
        | apply Reach.then ?_ (State.setRecState_reach ..) ?_)
    | (extract_lets +onlyGivenNames -underBinder -merge -useContext x; first | (refine Reach.cut x ?_ (fun _ => ?_); rotate_left; clear_value x; rotate_left; unfold x; clear x) | (have _ := fun a => x a; unfold x; clear x) | clear_value x)
    | with_reducible (first
        | refine Reach.set_beam ?_ ?_))

theorem State.armAt_reach (s : State) (index : Nat) (armed : Nat) : Reach 0x2400000000000000000000000000000000000000000000000000000002000 s (State.armAt s index armed) := by
  have h0 := Reach.refl 0x2400000000000000000000000000000000000000000000000000000002000 s
  unfold State.armAt
  repeat' (first
    | with_reducible assumption
    | exact rfl
    | with_reducible (first
        | apply Reach.then ?_ (State.armInst_reach ..) ?_))

theorem State.armRecord_reach (s : State) (index : Nat) : Reach 0x2400000000000000000000000000000000000000000000000000000002000 s (State.armRecord s index) := by
  have h0 := Reach.refl 0x2400000000000000000000000000000000000000000000000000000002000 s
  unfold State.armRecord
  repeat' (first
    | with_reducible assumption
    | exact rfl
    | with_reducible (first
        | apply Reach.then ?_ (State.armAt_reach ..) ?_))

theorem State.tableWritten_reach (s : State) (index : Nat) (second : Bool) (at_ : Nat) : Reach 0x2400000000000000000000000000000000000000000000000000000002000 s (State.tableWritten s index second at_) := by
  have h0 := Reach.refl 0x2400000000000000000000000000000000000000000000000000000002000 s
  unfold State.tableWritten
  repeat' (first
    | with_reducible assumption
    | exact rfl
    | with_reducible (first
        | refine Reach.ite ?_ ?_
        | apply Reach.then ?_ (State.armAt_reach ..) ?_
        | apply Reach.then ?_ (State.dropRec_reach ..) ?_
        | apply Reach.then ?_ (State.setRec_reach ..) ?_
        | apply Reach.then ?_ (State.setRecState_reach ..) ?_)
    | (extract_lets +onlyGivenNames -underBinder -merge -useContext x; first | (refine Reach.cut x ?_ (fun _ => ?_); rotate_left; clear_value x; rotate_left; unfold x; clear x) | (have _ := fun a => x a; unfold x; clear x) | clear_value x)
    | (split <;> try (refine Reach.cut1 (by assumption) ?_ (fun _ => ?_)))
    | split)

theorem State.settleTable_reach (s : State) : Reach 0x2400000000000000000000000000000000000000000000000000000002000 s (State.settleTable s) := by
  have h0 := Reach.refl 0x2400000000000000000000000000000000000000000000000000000002000 s
  unfold State.settleTable
  repeat' (first
    | with_reducible assumption
    | exact rfl
    | simp -zeta -iota -proj only [Reach1.pair_iff]
    | with_reducible exact Reach1.fst (by assumption)
    | with_reducible (first
        | refine Reach.foldl _ ?_ (fun _ _ _ => ?_)
        | refine Reach1.foldl _ ?_ (fun _ _ _ => ?_)
        | refine Reach1.fst (Reach1.foldl _ ?_ (fun _ _ _ => ?_))
        | apply Reach.then ?_ (State.tableWritten_reach ..) ?_)
    | (extract_lets +onlyGivenNames -underBinder -merge -useContext x; first | (refine Reach.cut x ?_ (fun _ => ?_); rotate_left; clear_value x; rotate_left; unfold x; clear x) | (refine Reach.cutP x ?_ (fun _ => ?_); rotate_left; clear_value x; rotate_left; unfold x; clear x) | (have _ := fun a => x a; unfold x; clear x) | clear_value x)
    | with_reducible (first
        | refine Reach.set_beam ?_ ?_))

theorem State.rearm_reach (s : State) (r : RecInst) (n : Nat) : Reach 0x40001000000240000000000000000001022011f820000000000000000000000000087c1d s (State.rearm s r n) := by
  have h0 := Reach.refl 0x40001000000240000000000000000001022011f820000000000000000000000000087c1d s
  unfold State.rearm
  repeat' (first
    | with_reducible assumption
    | exact rfl
    | with_reducible (first
        | apply Reach.then ?_ (State.armInst_reach ..) ?_
        | apply Reach.then ?_ (State.devWrite_reach ..) ?_)
    | (extract_lets +onlyGivenNames -underBinder -merge -useContext x; first | (refine Reach.cut x ?_ (fun _ => ?_); rotate_left; clear_value x; rotate_left; unfold x; clear x) | (have _ := fun a => x a; unfold x; clear x) | clear_value x)
    | (split <;> try (refine Reach.cut1 (by assumption) ?_ (fun _ => ?_)))
    | split
    | with_reducible (first
        | refine Reach.set_beam ?_ ?_))

theorem State.afterRecord_reach (s : State) (r : RecInst) : Reach 0x40001000000640000000000000000001022011f820000000000000000000000000087c1d s (State.afterRecord s r) := by
  have h0 := Reach.refl 0x40001000000640000000000000000001022011f820000000000000000000000000087c1d s
  unfold State.afterRecord
  repeat' (first
    | with_reducible assumption
    | exact rfl
    | with_reducible (first
        | refine Reach.ite ?_ ?_
        | apply Reach.then ?_ (State.armRecord_reach ..) ?_
        | apply Reach.then ?_ (State.dropRec_reach ..) ?_
        | apply Reach.then ?_ (State.putTokens_reach ..) ?_
        | apply Reach.then ?_ (State.rearm_reach ..) ?_
        | apply Reach.then ?_ (State.setRecState_reach ..) ?_)
    | (extract_lets +onlyGivenNames -underBinder -merge -useContext x; first | (refine Reach.cut x ?_ (fun _ => ?_); rotate_left; clear_value x; rotate_left; unfold x; clear x) | (have _ := fun a => x a; unfold x; clear x) | clear_value x)
    | (split <;> try (refine Reach.cut1 (by assumption) ?_ (fun _ => ?_)))
    | split)

theorem State.settleCrings_reach (s : State) (y0 : Nat) : Reach 0x40001000000740000000000000000001022011f820000000000000000000000002087c1d s (State.settleCrings s y0) := by
  induction y0 generalizing s with
  | zero =>
    have h0 := Reach.refl 0x40001000000740000000000000000001022011f820000000000000000000000002087c1d s
    unfold State.settleCrings
    repeat' (first
    | with_reducible assumption
    | exact rfl
    | with_reducible (first
        | apply Reach.then ?_ (State.afterRecord_reach ..) ?_
        | apply Reach.then ?_ (State.countProd_reach ..) ?_
        | apply Reach.then ?_ (ih ..) ?_)
    | (extract_lets +onlyGivenNames -underBinder -merge -useContext x; first | (refine Reach.cut x ?_ (fun _ => ?_); rotate_left; clear_value x; rotate_left; unfold x; clear x) | (have _ := fun a => x a; unfold x; clear x) | clear_value x)
    | (split <;> try (refine Reach.cut1 (by assumption) ?_ (fun _ => ?_)))
    | split
    | with_reducible (first
        | refine Reach.set_beam ?_ ?_))
  | succ _ ih =>
    have h0 := Reach.refl 0x40001000000740000000000000000001022011f820000000000000000000000002087c1d s
    unfold State.settleCrings
    repeat' (first
    | with_reducible assumption
    | exact rfl
    | with_reducible (first
        | apply Reach.then ?_ (State.afterRecord_reach ..) ?_
        | apply Reach.then ?_ (State.countProd_reach ..) ?_
        | apply Reach.then ?_ (ih ..) ?_)
    | (extract_lets +onlyGivenNames -underBinder -merge -useContext x; first | (refine Reach.cut x ?_ (fun _ => ?_); rotate_left; clear_value x; rotate_left; unfold x; clear x) | (have _ := fun a => x a; unfold x; clear x) | clear_value x)
    | (split <;> try (refine Reach.cut1 (by assumption) ?_ (fun _ => ?_)))
    | split
    | with_reducible (first
        | refine Reach.set_beam ?_ ?_))

theorem State.writeCring_reach (s : State) (die : Nat) (owner : Nat) (ws : List Word) (launch : Option Nat) : Reach 0x40001000000740000000000000000001022011f820000000000000000000000002887c1d s (State.writeCring s die owner ws launch) := by
  have h0 := Reach.refl 0x40001000000740000000000000000001022011f820000000000000000000000002887c1d s
  unfold State.writeCring
  repeat' (first
    | with_reducible assumption
    | exact rfl
    | with_reducible (first
        | refine Reach.ite ?_ ?_
        | apply Reach.then ?_ (State.afterRecord_reach ..) ?_
        | apply Reach.then ?_ (State.postRecord_reach ..) ?_
        | apply Reach.then ?_ (State.settleCrings_reach ..) ?_)
    | (extract_lets +onlyGivenNames -underBinder -merge -useContext x; first | (refine Reach.cut x ?_ (fun _ => ?_); rotate_left; clear_value x; rotate_left; unfold x; clear x) | (have _ := fun a => x a; unfold x; clear x) | clear_value x)
    | (split <;> try (refine Reach.cut1 (by assumption) ?_ (fun _ => ?_)))
    | split)

theorem State.rankRecord_reach (s : State) (die : Nat) (owner : Nat) (launch : Nat) (status : Nat) (lines : Nat) (rev : Nat) : Reach 0x40001000000741000000000000000001022011f820000000000000000000000002887c1d s (State.rankRecord s die owner launch status lines rev) := by
  have h0 := Reach.refl 0x40001000000741000000000000000001022011f820000000000000000000000002887c1d s
  unfold State.rankRecord
  repeat' (first
    | with_reducible assumption
    | exact rfl
    | with_reducible (first
        | refine Reach.ite ?_ ?_
        | apply Reach.then ?_ (State.waitCring_reach ..) ?_
        | apply Reach.then ?_ (State.writeCring_reach ..) ?_)
    | (extract_lets +onlyGivenNames -underBinder -merge -useContext x; first | (refine Reach.cut x ?_ (fun _ => ?_); rotate_left; clear_value x; rotate_left; unfold x; clear x) | (have _ := fun a => x a; unfold x; clear x) | clear_value x)
    | (split <;> try (refine Reach.cut1 (by assumption) ?_ (fun _ => ?_)))
    | split)

theorem State.countMiss_reach (s : State) (owner : Nat) (ws : List Word) : Reach 0x2000000000000000000000000000000000000000000000000000000000 s (State.countMiss s owner ws) := by
  have h0 := Reach.refl 0x2000000000000000000000000000000000000000000000000000000000 s
  unfold State.countMiss
  repeat' (first
    | with_reducible assumption
    | exact rfl
    | with_reducible (first
        | refine Reach.bumpBoth ?_ ?_
        | refine Reach.ite ?_ ?_)
    | (split <;> try (refine Reach.cut1 (by assumption) ?_ (fun _ => ?_)))
    | split)

theorem State.completeRecord_reach (s : State) (r : RecInst) : Reach 0x40001000000741200000000000000001022011f820000000000000000000000002887c1d s (State.completeRecord s r) := by
  have h0 := Reach.refl 0x40001000000741200000000000000001022011f820000000000000000000000002887c1d s
  unfold State.completeRecord
  repeat' (first
    | with_reducible assumption
    | exact rfl
    | with_reducible (first
        | refine Reach.ite ?_ ?_
        | apply Reach.then ?_ (State.countMiss_reach ..) ?_
        | apply Reach.then ?_ (State.setRec_reach ..) ?_
        | apply Reach.then ?_ (State.setRecState_reach ..) ?_
        | apply Reach.then ?_ (State.waitCring_reach ..) ?_
        | apply Reach.then ?_ (State.writeCring_reach ..) ?_)
    | (extract_lets +onlyGivenNames -underBinder -merge -useContext x; first | (refine Reach.cut x ?_ (fun _ => ?_); rotate_left; clear_value x; rotate_left; unfold x; clear x) | (have _ := fun a => x a; unfold x; clear x) | clear_value x)
    | (split <;> try (refine Reach.cut1 (by assumption) ?_ (fun _ => ?_)))
    | split)

end Sys2Proof.Machine
end

