-- ==== Sys2Proof/Laws/ReachCollOps.lean ====
section
/-!
SUPPORT. The footprint of each function of Machine/CollOps.lean.
-/
set_option linter.unusedTactic false
set_option linter.unreachableTactic false
namespace Sys2Proof.Machine

theorem State.setColl_reach (s : State) (c : Coll) : Reach 0x1000000 s (State.setColl s c) := by
  have h0 := Reach.refl 0x1000000 s
  unfold State.setColl
  repeat' (first
    | with_reducible assumption
    | exact rfl
    | with_reducible (first
        | refine Reach.ite ?_ ?_)
    | (split <;> try (refine Reach.cut1 (by assumption) ?_ (fun _ => ?_)))
    | split
    | with_reducible (first
        | refine Reach.set_coll ?_ ?_))

theorem State.dropColl_reach (s : State) (c : Coll) : Reach 0x1000000 s (State.dropColl s c) := by
  have h0 := Reach.refl 0x1000000 s
  unfold State.dropColl
  repeat' (first
    | with_reducible assumption
    | exact rfl
    | with_reducible (first
        | refine Reach.set_coll ?_ ?_))

theorem State.toNeighbour_reach (s : State) (die : Nat) (g : Group) (up : Bool) (i : Nat) (h : Words4) (lines : List LineSeg) : Reach 0x80000000000000000000000000000000000000000000000800000 s (State.toNeighbour s die g up i h lines) := by
  have h0 := Reach.refl 0x80000000000000000000000000000000000000000000000800000 s
  unfold State.toNeighbour
  repeat' (first
    | with_reducible assumption
    | exact rfl
    | with_reducible (first
        | refine Reach.ite ?_ ?_
        | apply Reach.then ?_ (State.enqueue_reach ..) ?_
        | apply Reach.then ?_ (State.post_reach ..) ?_)
    | (extract_lets +onlyGivenNames -underBinder -merge -useContext x; first | (refine Reach.cut x ?_ (fun _ => ?_); rotate_left; clear_value x; rotate_left; unfold x; clear x) | (have _ := fun a => x a; unfold x; clear x) | clear_value x)
    | (split <;> try (refine Reach.cut1 (by assumption) ?_ (fun _ => ?_)))
    | split)

theorem State.sendPiece_reach (s : State) (c : Coll) (up : Bool) (mt : Nat) (piece : Nat) (chunk : Nat) (step : Nat) (part : Nat) (stamp : Nat) (lines : List LineSeg) : Reach 0x80800000000000000000000000000000000000000000000800000 s (State.sendPiece s c up mt piece chunk step part stamp lines) := by
  have h0 := Reach.refl 0x80800000000000000000000000000000000000000000000800000 s
  unfold State.sendPiece
  repeat' (first
    | with_reducible assumption
    | exact rfl
    | with_reducible (first
        | refine Reach.bump ?_ ?_
        | refine Reach.ite ?_ ?_
        | apply Reach.then ?_ (State.toNeighbour_reach ..) ?_)
    | (extract_lets +onlyGivenNames -underBinder -merge -useContext x; first | (refine Reach.cut x ?_ (fun _ => ?_); rotate_left; clear_value x; rotate_left; unfold x; clear x) | (have _ := fun a => x a; unfold x; clear x) | clear_value x)
    | (split <;> try (refine Reach.cut1 (by assumption) ?_ (fun _ => ?_)))
    | split)

theorem State.sendRank_reach (s : State) (c : Coll) (rank : Nat) (piece : Nat) (chunk : Nat) (part : Nat) (lines : List LineSeg) : Reach 0x80800000000000000000000000000000000000000000000800000 s (State.sendRank s c rank piece chunk part lines) := by
  have h0 := Reach.refl 0x80800000000000000000000000000000000000000000000800000 s
  unfold State.sendRank
  repeat' (first
    | with_reducible assumption
    | exact rfl
    | with_reducible (first
        | refine Reach.bump ?_ ?_
        | apply Reach.then ?_ (State.post_reach ..) ?_)
    | (extract_lets +onlyGivenNames -underBinder -merge -useContext x; first | (refine Reach.cut x ?_ (fun _ => ?_); rotate_left; clear_value x; rotate_left; unfold x; clear x) | (have _ := fun a => x a; unfold x; clear x) | clear_value x)
    | (split <;> try (refine Reach.cut1 (by assumption) ?_ (fun _ => ?_)))
    | split)

theorem State.sendAbort_reach (s : State) (c : Coll) (up : Bool) (status : Nat) : Reach 0x80000000000000000000000000000000000000000000000800000 s (State.sendAbort s c up status) := by
  have h0 := Reach.refl 0x80000000000000000000000000000000000000000000000800000 s
  unfold State.sendAbort
  repeat' (first
    | with_reducible assumption
    | exact rfl
    | with_reducible (first
        | refine Reach.ite ?_ ?_
        | apply Reach.then ?_ (State.toNeighbour_reach ..) ?_)
    | (extract_lets +onlyGivenNames -underBinder -merge -useContext x; first | (refine Reach.cut x ?_ (fun _ => ?_); rotate_left; clear_value x; rotate_left; unfold x; clear x) | (have _ := fun a => x a; unfold x; clear x) | clear_value x)
    | (split <;> try (refine Reach.cut1 (by assumption) ?_ (fun _ => ?_)))
    | split)

theorem State.readElems_reach (s : State) (c : Coll) (d : Desc) (lo : Nat) (hi : Nat) : Reach 0x1000000000000000000000000001022011f83b000000c00000000000000000087c1d s (State.readElems s c d lo hi) := by
  have h0 := Reach.refl 0x1000000000000000000000000001022011f83b000000c00000000000000000087c1d s
  unfold State.readElems
  repeat' (first
    | with_reducible assumption
    | exact rfl
    | simp -zeta -iota -proj only [Reach1.pair_iff]
    | with_reducible exact Reach1.fst (by assumption)
    | with_reducible (first
        | refine Reach.ite ?_ ?_
        | refine Reach1.ite ?_ ?_
        | refine Reach.foldl _ ?_ (fun _ _ _ => ?_)
        | refine Reach1.foldl _ ?_ (fun _ _ _ => ?_)
        | refine Reach1.fst (Reach1.foldl _ ?_ (fun _ _ _ => ?_))
        | apply Reach.then ?_ (State.readRuns_reach ..) ?_)
    | (extract_lets +onlyGivenNames -underBinder -merge -useContext x; first | (refine Reach.cut x ?_ (fun _ => ?_); rotate_left; clear_value x; rotate_left; unfold x; clear x) | (refine Reach.cutP x ?_ (fun _ => ?_); rotate_left; clear_value x; rotate_left; unfold x; clear x) | (have _ := fun a => x a; unfold x; clear x) | clear_value x)
    | (split <;> try (refine Reach.cut1 (by assumption) ?_ (fun _ => ?_)))
    | split)

theorem State.readVLines_reach (s : State) (c : Coll) (va : Nat) (n : Nat) : Reach 0x1000000000000000000000000001022011f83b000000c00000000000000000087c1d s (State.readVLines s c va n) := by
  have h0 := Reach.refl 0x1000000000000000000000000001022011f83b000000c00000000000000000087c1d s
  unfold State.readVLines
  repeat' (first
    | with_reducible assumption
    | exact rfl
    | with_reducible (first
        | apply Reach.then ?_ (State.readRuns_reach ..) ?_))

theorem State.storeCodes_reach (s : State) (c : Coll) (d : Desc) (lo : Nat) (hi : Nat) (codes : List Nat) (scales : List Byte) : Reach1 0x40001000000000000000000000006001022011f820000000000000000000000002387c1d s (State.storeCodes s c d lo hi codes scales) := by
  have h0 := Reach.refl 0x40001000000000000000000000006001022011f820000000000000000000000002387c1d s
  unfold State.storeCodes
  repeat' (first
    | with_reducible assumption
    | exact rfl
    | simp -zeta -iota -proj only [Reach1.pair_iff]
    | with_reducible exact Reach1.fst (by assumption)
    | with_reducible (first
        | refine Reach.ite ?_ ?_
        | refine Reach1.ite ?_ ?_
        | refine Reach.foldl _ ?_ (fun _ _ _ => ?_)
        | refine Reach1.foldl _ ?_ (fun _ _ _ => ?_)
        | refine Reach1.fst (Reach1.foldl _ ?_ (fun _ _ _ => ?_))
        | apply Reach.then ?_ (State.vPut_reach ..) ?_)
    | (extract_lets +onlyGivenNames -underBinder -merge -useContext x; first | (refine Reach.cut x ?_ (fun _ => ?_); rotate_left; clear_value x; rotate_left; unfold x; clear x) | (refine Reach1.cut x ?_ (fun _ => ?_); rotate_left; clear_value x; rotate_left; unfold x; clear x) | (refine Reach.cutP x ?_ (fun _ => ?_); rotate_left; clear_value x; rotate_left; unfold x; clear x) | (refine Reach1.cutP x ?_ (fun _ => ?_); rotate_left; clear_value x; rotate_left; unfold x; clear x) | (refine Reach.cut x.st ?_ (fun _ => ?_); rotate_left; clear_value x; rotate_left; unfold x; clear x) | (refine Reach1.cut x.st ?_ (fun _ => ?_); rotate_left; clear_value x; rotate_left; unfold x; clear x) | (have _ := fun a => x a; unfold x; clear x) | clear_value x)
    | (split <;> try (first | refine Reach1.cut1 (by assumption) ?_ (fun _ => ?_) | refine Reach.cut1 (by assumption) ?_ (fun _ => ?_)))
    | split)

theorem State.poisonElems_reach (s : State) (c : Coll) (d : Desc) (ks : List Nat) : Reach 0x80018 s (State.poisonElems s c d ks) := by
  have h0 := Reach.refl 0x80018 s
  unfold State.poisonElems
  repeat' (first
    | with_reducible assumption
    | exact rfl
    | simp -zeta -iota -proj only [Reach1.pair_iff]
    | with_reducible exact Reach1.fst (by assumption)
    | with_reducible (first
        | refine Reach.foldl _ ?_ (fun _ _ _ => ?_)
        | refine Reach1.foldl _ ?_ (fun _ _ _ => ?_)
        | refine Reach1.fst (Reach1.foldl _ ?_ (fun _ _ _ => ?_))
        | apply Reach.then ?_ (State.leavePoison_reach ..) ?_)
    | (split <;> try (refine Reach.cut1 (by assumption) ?_ (fun _ => ?_)))
    | split)

theorem State.storeData_reach (s : State) (c : Coll) (d : Desc) (lo : Nat) (hi : Nat) (lines : List LineSeg) : Reach1 0x40001000000000000000000000006001022011f820000000000000000000000002387c1d s (State.storeData s c d lo hi lines) := by
  have h0 := Reach.refl 0x40001000000000000000000000006001022011f820000000000000000000000002387c1d s
  unfold State.storeData
  repeat' (first
    | with_reducible assumption
    | exact rfl
    | simp -zeta -iota -proj only [Reach1.pair_iff]
    | with_reducible exact Reach1.fst (by assumption)
    | with_reducible (first
        | apply Reach.then ?_ (State.poisonElems_reach ..) ?_
        | apply Reach1.then ?_ (State.storeCodes_reach ..) ?_
        | apply Reach1.fst (Reach1.then ?_ (State.storeCodes_reach ..) ?_))
    | (extract_lets +onlyGivenNames -underBinder -merge -useContext x; first | (refine Reach.cut x ?_ (fun _ => ?_); rotate_left; clear_value x; rotate_left; unfold x; clear x) | (refine Reach1.cut x ?_ (fun _ => ?_); rotate_left; clear_value x; rotate_left; unfold x; clear x) | (refine Reach.cutP x ?_ (fun _ => ?_); rotate_left; clear_value x; rotate_left; unfold x; clear x) | (refine Reach1.cutP x ?_ (fun _ => ?_); rotate_left; clear_value x; rotate_left; unfold x; clear x) | (have _ := fun a => x a; unfold x; clear x) | clear_value x)
    | (split <;> try (first | refine Reach1.cut1 (by assumption) ?_ (fun _ => ?_) | refine Reach.cut1 (by assumption) ?_ (fun _ => ?_)))
    | split)

theorem State.putVLine_reach (s : State) (a : Access) (die : Nat) (va : Nat) (l : LineSeg) : Reach1 0x40001000000000000000000000006001022011f820000000000000000000000002387c1d s (State.putVLine s a die va l) := by
  have h0 := Reach.refl 0x40001000000000000000000000006001022011f820000000000000000000000002387c1d s
  unfold State.putVLine
  repeat' (first
    | with_reducible assumption
    | exact rfl
    | simp -zeta -iota -proj only [Reach1.pair_iff]
    | with_reducible exact Reach1.fst (by assumption)
    | with_reducible (first
        | refine Reach.ite ?_ ?_
        | refine Reach1.ite ?_ ?_
        | apply Reach.then ?_ (State.leavePoison_reach ..) ?_
        | apply Reach.then ?_ (State.vPut_reach ..) ?_)
    | (extract_lets +onlyGivenNames -underBinder -merge -useContext x; first | (refine Reach.cut x ?_ (fun _ => ?_); rotate_left; clear_value x; rotate_left; unfold x; clear x) | (refine Reach1.cut x ?_ (fun _ => ?_); rotate_left; clear_value x; rotate_left; unfold x; clear x) | (refine Reach.cut x.st ?_ (fun _ => ?_); rotate_left; clear_value x; rotate_left; unfold x; clear x) | (refine Reach1.cut x.st ?_ (fun _ => ?_); rotate_left; clear_value x; rotate_left; unfold x; clear x) | (have _ := fun a => x a; unfold x; clear x) | clear_value x)
    | (split <;> try (first | refine Reach1.cut1 (by assumption) ?_ (fun _ => ?_) | refine Reach.cut1 (by assumption) ?_ (fun _ => ?_)))
    | split)

theorem State.putVLines_reach (s : State) (a : Access) (die : Nat) (va : Nat) (y0 : List LineSeg) : Reach1 0x40001000000000000000000000006001022011f820000000000000000000000002387c1d s (State.putVLines s a die va y0) := by
  induction y0 generalizing s a die va with
  | nil =>
    have h0 := Reach.refl 0x40001000000000000000000000006001022011f820000000000000000000000002387c1d s
    unfold State.putVLines
    repeat' (first
    | with_reducible assumption
    | exact rfl
    | simp -zeta -iota -proj only [Reach1.pair_iff]
    | with_reducible exact Reach1.fst (by assumption)
    | with_reducible (first
        | apply Reach1.then ?_ (State.putVLine_reach ..) ?_
        | apply Reach1.fst (Reach1.then ?_ (State.putVLine_reach ..) ?_)
        | apply Reach1.then ?_ (ih ..) ?_)
    | (extract_lets +onlyGivenNames -underBinder -merge -useContext x; first | (refine Reach.cut x ?_ (fun _ => ?_); rotate_left; clear_value x; rotate_left; unfold x; clear x) | (refine Reach1.cut x ?_ (fun _ => ?_); rotate_left; clear_value x; rotate_left; unfold x; clear x) | (refine Reach.cutP x ?_ (fun _ => ?_); rotate_left; clear_value x; rotate_left; unfold x; clear x) | (refine Reach1.cutP x ?_ (fun _ => ?_); rotate_left; clear_value x; rotate_left; unfold x; clear x) | (have _ := fun a => x a; unfold x; clear x) | clear_value x)
    | (split <;> try (first | refine Reach1.cut1 (by assumption) ?_ (fun _ => ?_) | refine Reach.cut1 (by assumption) ?_ (fun _ => ?_)))
    | split)
  | cons _ _ ih =>
    have h0 := Reach.refl 0x40001000000000000000000000006001022011f820000000000000000000000002387c1d s
    unfold State.putVLines
    repeat' (first
    | with_reducible assumption
    | exact rfl
    | simp -zeta -iota -proj only [Reach1.pair_iff]
    | with_reducible exact Reach1.fst (by assumption)
    | with_reducible (first
        | apply Reach1.then ?_ (State.putVLine_reach ..) ?_
        | apply Reach1.fst (Reach1.then ?_ (State.putVLine_reach ..) ?_)
        | apply Reach1.then ?_ (ih ..) ?_)
    | (extract_lets +onlyGivenNames -underBinder -merge -useContext x; first | (refine Reach.cut x ?_ (fun _ => ?_); rotate_left; clear_value x; rotate_left; unfold x; clear x) | (refine Reach1.cut x ?_ (fun _ => ?_); rotate_left; clear_value x; rotate_left; unfold x; clear x) | (refine Reach.cutP x ?_ (fun _ => ?_); rotate_left; clear_value x; rotate_left; unfold x; clear x) | (refine Reach1.cutP x ?_ (fun _ => ?_); rotate_left; clear_value x; rotate_left; unfold x; clear x) | (have _ := fun a => x a; unfold x; clear x) | clear_value x)
    | (split <;> try (first | refine Reach1.cut1 (by assumption) ?_ (fun _ => ?_) | refine Reach.cut1 (by assumption) ?_ (fun _ => ?_)))
    | split)

theorem State.seqAfterColl_reach (s : State) (c : Coll) (status : Nat) : Reach 0x200000000000000000000000000000000002000c01000008000000000000005820e0 s (State.seqAfterColl s c status) := by
  have h0 := Reach.refl 0x200000000000000000000000000000000002000c01000008000000000000005820e0 s
  unfold State.seqAfterColl
  repeat' (first
    | with_reducible assumption
    | exact rfl
    | with_reducible (first
        | refine Reach.ite ?_ ?_
        | apply Reach.then ?_ (State.failSeq_reach ..) ?_
        | apply Reach.then ?_ (State.setSeq_reach ..) ?_)
    | (split <;> try (refine Reach.cut1 (by assumption) ?_ (fun _ => ?_)))
    | split)

theorem State.traceRank_reach (s : State) (c : Coll) (ended : Bool) : Reach 0x20000000000000000000000000000000000000000000000000000000000000400000 s (State.traceRank s c ended) := by
  have h0 := Reach.refl 0x20000000000000000000000000000000000000000000000000000000000000400000 s
  unfold State.traceRank
  repeat' (first
    | with_reducible assumption
    | exact rfl
    | with_reducible (first
        | refine Reach.ite ?_ ?_
        | apply Reach.then ?_ (State.traceWait_reach ..) ?_)
    | (extract_lets +onlyGivenNames -underBinder -merge -useContext x; first | (refine Reach.cut x ?_ (fun _ => ?_); rotate_left; clear_value x; rotate_left; unfold x; clear x) | (have _ := fun a => x a; unfold x; clear x) | clear_value x)
    | (split <;> try (refine Reach.cut1 (by assumption) ?_ (fun _ => ?_)))
    | split)

theorem State.endColl_reach (s : State) (c : Coll) (status : Nat) (tell : Bool) : Reach 0x4000300000074100000b040000000001022011fa200c0120000800000000000003d87cfd s (State.endColl s c status tell) := by
  have h0 := Reach.refl 0x4000300000074100000b040000000001022011fa200c0120000800000000000003d87cfd s
  unfold State.endColl
  repeat' (first
    | with_reducible assumption
    | exact rfl
    | with_reducible (first
        | refine Reach.bump ?_ ?_
        | refine Reach.ite ?_ ?_
        | apply Reach.then ?_ (State.dropColl_reach ..) ?_
        | apply Reach.then ?_ (State.emptyRing_reach ..) ?_
        | apply Reach.then ?_ (State.endChain_reach ..) ?_
        | apply Reach.then ?_ (State.rankRecord_reach ..) ?_
        | apply Reach.then ?_ (State.sendAbort_reach ..) ?_
        | apply Reach.then ?_ (State.seqAfterColl_reach ..) ?_
        | apply Reach.then ?_ (State.traceRank_reach ..) ?_)
    | (extract_lets +onlyGivenNames -underBinder -merge -useContext x; first | (refine Reach.cut x ?_ (fun _ => ?_); rotate_left; clear_value x; rotate_left; unfold x; clear x) | (have _ := fun a => x a; unfold x; clear x) | clear_value x)
    | (split <;> try (refine Reach.cut1 (by assumption) ?_ (fun _ => ?_)))
    | split)

theorem State.permuteStarved_reach (s : State) (cluster : Nat) (launch : Nat) : Reach 0x4000300000074100000b040000000001022011fa200c0120000800000000000003d87cfd s (State.permuteStarved s cluster launch) := by
  have h0 := Reach.refl 0x4000300000074100000b040000000001022011fa200c0120000800000000000003d87cfd s
  unfold State.permuteStarved
  repeat' (first
    | with_reducible assumption
    | exact rfl
    | with_reducible (first
        | refine Reach.ite ?_ ?_
        | apply Reach.then ?_ (State.endColl_reach ..) ?_)
    | (split <;> try (refine Reach.cut1 (by assumption) ?_ (fun _ => ?_)))
    | split)

theorem State.ownerBit_reach {F : Nat} {r0 : State} {s : State} {r : Reg} {owner : Nat} {v : Bool} (h0 : Reach F r0 s) (m : F.testBit (64 + r.ctorIdx) = true)
    (own : 0x0 &&& F = 0x0) : Reach F r0 (State.ownerBit s r owner v) := by
  unfold State.ownerBit
  repeat' (first
    | with_reducible assumption
    | exact rfl
    | with_reducible (first
        | refine Reach.wr ?_ ?_
        | exact m
        | exact sub_own own rfl)
    | (extract_lets +onlyGivenNames -underBinder -merge -useContext x; first | (refine Reach.cut x ?_ (fun _ => ?_); rotate_left; clear_value x; rotate_left; unfold x; clear x) | (have _ := fun a => x a; unfold x; clear x) | clear_value x)
    | dsimp -zeta only [])

theorem State.lossScale_reach (s : State) (c : Coll) : Reach 0x40001000000000000000000000000001022011f820000000000000000000000000087c1d s (State.lossScale s c) := by
  have h0 := Reach.refl 0x40001000000000000000000000000001022011f820000000000000000000000000087c1d s
  unfold State.lossScale
  repeat' (first
    | with_reducible assumption
    | exact rfl
    | with_reducible (first
        | refine Reach.ite ?_ ?_
        | apply Reach.then ?_ (State.virtWrite_reach ..) ?_)
    | (extract_lets +onlyGivenNames -underBinder -merge -useContext x; first | (refine Reach.cut x ?_ (fun _ => ?_); rotate_left; clear_value x; rotate_left; unfold x; clear x) | (have _ := fun a => x a; unfold x; clear x) | clear_value x)
    | (split <;> try (refine Reach.cut1 (by assumption) ?_ (fun _ => ?_)))
    | split)

theorem State.reduceEnd_reach (s : State) (c : Coll) (status : Nat) : Reach1 0x40001000000000000060200000000001022011f820000000000000000000000000087c1d s (State.reduceEnd s c status) := by
  have h0 := Reach.refl 0x40001000000000000060200000000001022011f820000000000000000000000000087c1d s
  unfold State.reduceEnd
  repeat' (first
    | with_reducible assumption
    | exact rfl
    | simp -zeta -iota -proj only [Reach1.pair_iff]
    | with_reducible exact Reach1.fst (by assumption)
    | with_reducible (first
        | refine Reach.bump ?_ ?_
        | refine Reach.ite ?_ ?_
        | refine Reach1.ite ?_ ?_
        | apply Reach.then ?_ (State.lossScale_reach ..) ?_
        | refine State.ownerBit_reach ?_ ?_ ?_)
    | (extract_lets +onlyGivenNames -underBinder -merge -useContext x; first | (refine Reach.cut x ?_ (fun _ => ?_); rotate_left; clear_value x; rotate_left; unfold x; clear x) | (refine Reach1.cut x ?_ (fun _ => ?_); rotate_left; clear_value x; rotate_left; unfold x; clear x) | (have _ := fun a => x a; unfold x; clear x) | clear_value x)
    | (split <;> try (first | refine Reach1.cut1 (by assumption) ?_ (fun _ => ?_) | refine Reach.cut1 (by assumption) ?_ (fun _ => ?_)))
    | split)

theorem State.completeColl_reach (s : State) (c : Coll) : Reach 0x4000300000074100006b240000000001022011fa200c0120000800000000000003d87cfd s (State.completeColl s c) := by
  have h0 := Reach.refl 0x4000300000074100006b240000000001022011fa200c0120000800000000000003d87cfd s
  unfold State.completeColl
  repeat' (first
    | with_reducible assumption
    | exact rfl
    | simp -zeta -iota -proj only [Reach1.pair_iff]
    | with_reducible exact Reach1.fst (by assumption)
    | with_reducible (first
        | refine Reach.ite ?_ ?_
        | apply Reach.then ?_ (State.endColl_reach ..) ?_
        | apply Reach1.then ?_ (State.reduceEnd_reach ..) ?_
        | apply Reach1.fst (Reach1.then ?_ (State.reduceEnd_reach ..) ?_)
        | apply Reach.then ?_ (State.virtWrite_reach ..) ?_)
    | (extract_lets +onlyGivenNames -underBinder -merge -useContext x; first | (refine Reach.cut x ?_ (fun _ => ?_); rotate_left; clear_value x; rotate_left; unfold x; clear x) | (refine Reach.cutP x ?_ (fun _ => ?_); rotate_left; clear_value x; rotate_left; unfold x; clear x) | (have _ := fun a => x a; unfold x; clear x) | clear_value x)
    | (split <;> try (refine Reach.cut1 (by assumption) ?_ (fun _ => ?_)))
    | split)

theorem State.abortColl_reach (s : State) (c : Coll) : Reach 0x4000300000074100000b040000000001022011fa200c0120000800000000000003d87cfd s (State.abortColl s c) := by
  have h0 := Reach.refl 0x4000300000074100000b040000000001022011fa200c0120000800000000000003d87cfd s
  unfold State.abortColl
  repeat' (first
    | with_reducible assumption
    | exact rfl
    | with_reducible (first
        | refine Reach.ite ?_ ?_
        | apply Reach.then ?_ (State.endColl_reach ..) ?_
        | apply Reach.then ?_ (State.setColl_reach ..) ?_)
    | (split <;> try (refine Reach.cut1 (by assumption) ?_ (fun _ => ?_)))
    | split)

theorem State.loseColl_reach (s : State) (c : Coll) : Reach 0x4000300000074100006b240000000001022011fa200c0120000800000000000003d87cfd s (State.loseColl s c) := by
  have h0 := Reach.refl 0x4000300000074100006b240000000001022011fa200c0120000800000000000003d87cfd s
  unfold State.loseColl
  repeat' (first
    | with_reducible assumption
    | exact rfl
    | with_reducible (first
        | refine Reach.ite ?_ ?_
        | apply Reach.then ?_ (State.completeColl_reach ..) ?_
        | apply Reach.then ?_ (State.endColl_reach ..) ?_)
    | (split <;> try (refine Reach.cut1 (by assumption) ?_ (fun _ => ?_)))
    | split)

theorem State.settleColls_reach (s : State) : Reach 0x4000300000074100000b040000000001022011fa200c0120000800000000000003d87cfd s (State.settleColls s) := by
  have h0 := Reach.refl 0x4000300000074100000b040000000001022011fa200c0120000800000000000003d87cfd s
  unfold State.settleColls
  repeat' (first
    | with_reducible assumption
    | exact rfl
    | simp -zeta -iota -proj only [Reach1.pair_iff]
    | with_reducible exact Reach1.fst (by assumption)
    | with_reducible (first
        | refine Reach.ite ?_ ?_
        | refine Reach1.ite ?_ ?_
        | refine Reach.foldl _ ?_ (fun _ _ _ => ?_)
        | refine Reach1.foldl _ ?_ (fun _ _ _ => ?_)
        | refine Reach1.fst (Reach1.foldl _ ?_ (fun _ _ _ => ?_))
        | apply Reach.then ?_ (State.abortColl_reach ..) ?_)
    | (split <;> try (refine Reach.cut1 (by assumption) ?_ (fun _ => ?_)))
    | split)

end Sys2Proof.Machine
end

