-- ==== Sys2Proof/Laws/ReachColl.lean ====
section
/-!
SUPPORT. The footprint of each function of Machine/Coll.lean.
-/
set_option linter.unusedTactic false
set_option linter.unreachableTactic false
namespace Sys2Proof.Machine

theorem State.startSums_reach (s : State) (c : Coll) : Reach 0x80800000000000000000000000000000000000000000000800000 s (State.startSums s c) := by
  have h0 := Reach.refl 0x80800000000000000000000000000000000000000000000800000 s
  unfold State.startSums
  repeat' (first
    | with_reducible assumption
    | exact rfl
    | simp -zeta -iota -proj only [Reach1.pair_iff]
    | with_reducible exact Reach1.fst (by assumption)
    | with_reducible (first
        | refine Reach.ite ?_ ?_
        | refine Reach1.ite ?_ ?_
        | refine Reach.foldl _ ?_ (fun _ _ _ => ?_)
        | refine Reach1.foldl _ ?_ (fun _ _ _ => ?_)
        | refine Reach1.fst (Reach1.foldl _ ?_ (fun _ _ _ => ?_))
        | apply Reach.then ?_ (State.sendPiece_reach ..) ?_)
    | (extract_lets +onlyGivenNames -underBinder -merge -useContext x; first | (refine Reach.cut x ?_ (fun _ => ?_); rotate_left; clear_value x; rotate_left; unfold x; clear x) | (refine Reach.cutP x ?_ (fun _ => ?_); rotate_left; clear_value x; rotate_left; unfold x; clear x) | (have _ := fun a => x a; unfold x; clear x) | clear_value x)
    | (split <;> try (refine Reach.cut1 (by assumption) ?_ (fun _ => ?_)))
    | split
    | dsimp -zeta only [])

theorem State.sendChunk_reach (s : State) (c : Coll) (d : Desc) (off : Nat) (k : Nat) (part : Nat) (stamp : Nat) (poisoned : Nat → Bool) (ovl : Overlay) : Reach 0x80800000000000000000000000000000000000000000000800000 s (State.sendChunk s c d off k part stamp poisoned ovl) := by
  have h0 := Reach.refl 0x80800000000000000000000000000000000000000000000800000 s
  unfold State.sendChunk
  repeat' (first
    | with_reducible assumption
    | exact rfl
    | simp -zeta -iota -proj only [Reach1.pair_iff]
    | with_reducible exact Reach1.fst (by assumption)
    | with_reducible (first
        | refine Reach.foldl _ ?_ (fun _ _ _ => ?_)
        | refine Reach1.foldl _ ?_ (fun _ _ _ => ?_)
        | refine Reach1.fst (Reach1.foldl _ ?_ (fun _ _ _ => ?_))
        | apply Reach.then ?_ (State.sendPiece_reach ..) ?_))

theorem State.collWrote_reach (s : State) (c : Coll) (lines : Nat) (bad : Bool) (poison : Bool) : Reach 0x4000300000074100000b040000000001022011fa200c0120000800000000000003d87cfd s (State.collWrote s c lines bad poison) := by
  have h0 := Reach.refl 0x4000300000074100000b040000000001022011fa200c0120000800000000000003d87cfd s
  unfold State.collWrote
  repeat' (first
    | with_reducible assumption
    | exact rfl
    | with_reducible (first
        | refine Reach.ite ?_ ?_
        | apply Reach.then ?_ (State.clearFailed_reach ..) ?_
        | apply Reach.then ?_ (State.endColl_reach ..) ?_
        | apply Reach.then ?_ (State.setColl_reach ..) ?_)
    | (extract_lets +onlyGivenNames -underBinder -merge -useContext x; first | (refine Reach.cut x ?_ (fun _ => ?_); rotate_left; clear_value x; rotate_left; unfold x; clear x) | (have _ := fun a => x a; unfold x; clear x) | clear_value x)
    | (split <;> try (refine Reach.cut1 (by assumption) ?_ (fun _ => ?_)))
    | split
    | with_reducible (first
        | refine Reach.set_poison ?_ ?_))

theorem State.writeResults_reach (s : State) (c : Coll) : Reach 0x4000300000074100000b0c0000006001022011fe200c0120000800000000001003f87cfd s (State.writeResults s c) := by
  have h0 := Reach.refl 0x4000300000074100000b0c0000006001022011fe200c0120000800000000001003f87cfd s
  unfold State.writeResults
  repeat' (first
    | with_reducible assumption
    | exact rfl
    | with_reducible (first
        | refine Reach.ite ?_ ?_
        | apply Reach.then ?_ (State.collWrote_reach ..) ?_
        | apply Reach.then ?_ (State.poisonElems_reach ..) ?_
        | apply Reach.then ?_ (State.sendChunk_reach ..) ?_
        | apply Reach.then ?_ (State.streamRows_reach ..) ?_)
    | (extract_lets +onlyGivenNames -underBinder -merge -useContext x; first | (refine Reach.cut x ?_ (fun _ => ?_); rotate_left; clear_value x; rotate_left; unfold x; clear x) | (refine Reach.cut x.st ?_ (fun _ => ?_); rotate_left; clear_value x; rotate_left; unfold x; clear x) | (have _ := fun a => x a; unfold x; clear x) | clear_value x)
    | (split <;> try (refine Reach.cut1 (by assumption) ?_ (fun _ => ?_)))
    | split
    | dsimp -zeta only [])

theorem State.afterPre_reach (s : State) (c : Coll) : Reach 0x80800000000000000000000000000000000000000000001800000 s (State.afterPre s c) := by
  have h0 := Reach.refl 0x80800000000000000000000000000000000000000000001800000 s
  unfold State.afterPre
  repeat' (first
    | with_reducible assumption
    | exact rfl
    | with_reducible (first
        | refine Reach.ite ?_ ?_
        | apply Reach.then ?_ (State.setColl_reach ..) ?_
        | apply Reach.then ?_ (State.startSums_reach ..) ?_)
    | (extract_lets +onlyGivenNames -underBinder -merge -useContext x; first | (refine Reach.cut x ?_ (fun _ => ?_); rotate_left; clear_value x; rotate_left; unfold x; clear x) | (have _ := fun a => x a; unfold x; clear x) | clear_value x)
    | (split <;> try (refine Reach.cut1 (by assumption) ?_ (fun _ => ?_)))
    | split)

theorem State.startExchange_reach (s : State) (c : Coll) : Reach 0x4000300000074100000b0c0000006001022011fa200c0120000800000000000003f87cfd s (State.startExchange s c) := by
  have h0 := Reach.refl 0x4000300000074100000b0c0000006001022011fa200c0120000800000000000003f87cfd s
  unfold State.startExchange
  repeat' (first
    | with_reducible assumption
    | exact rfl
    | simp -zeta -iota -proj only [Reach1.pair_iff]
    | with_reducible exact Reach1.fst (by assumption)
    | with_reducible (first
        | refine Reach.ite ?_ ?_
        | refine Reach1.ite ?_ ?_
        | refine Reach.foldl _ ?_ (fun _ _ _ => ?_)
        | refine Reach1.foldl _ ?_ (fun _ _ _ => ?_)
        | refine Reach1.fst (Reach1.foldl _ ?_ (fun _ _ _ => ?_))
        | apply Reach.then ?_ (State.collWrote_reach ..) ?_
        | apply Reach.then ?_ (State.sendRank_reach ..) ?_
        | apply Reach1.then ?_ (State.storeData_reach ..) ?_
        | apply Reach1.fst (Reach1.then ?_ (State.storeData_reach ..) ?_))
    | (extract_lets +onlyGivenNames -underBinder -merge -useContext x; first | (refine Reach.cut x ?_ (fun _ => ?_); rotate_left; clear_value x; rotate_left; unfold x; clear x) | (refine Reach.cutP x ?_ (fun _ => ?_); rotate_left; clear_value x; rotate_left; unfold x; clear x) | (have _ := fun a => x a; unfold x; clear x) | clear_value x)
    | (split <;> try (refine Reach.cut1 (by assumption) ?_ (fun _ => ?_)))
    | split)

theorem State.putPermChunk_reach (s : State) (c : Coll) (pos : Nat) (lines : List LineSeg) : Reach 0x4000300000074100000b040000006001022011fa200c0120000800000000000003f87cfd s (State.putPermChunk s c pos lines) := by
  have h0 := Reach.refl 0x4000300000074100000b040000006001022011fa200c0120000800000000000003f87cfd s
  unfold State.putPermChunk
  repeat' (first
    | with_reducible assumption
    | exact rfl
    | simp -zeta -iota -proj only [Reach1.pair_iff]
    | with_reducible exact Reach1.fst (by assumption)
    | with_reducible (first
        | apply Reach.then ?_ (State.collWrote_reach ..) ?_
        | apply Reach1.then ?_ (State.putVLines_reach ..) ?_
        | apply Reach1.fst (Reach1.then ?_ (State.putVLines_reach ..) ?_))
    | (extract_lets +onlyGivenNames -underBinder -merge -useContext x; first | (refine Reach.cut x ?_ (fun _ => ?_); rotate_left; clear_value x; rotate_left; unfold x; clear x) | (refine Reach.cutP x ?_ (fun _ => ?_); rotate_left; clear_value x; rotate_left; unfold x; clear x) | (have _ := fun a => x a; unfold x; clear x) | clear_value x)
    | (split <;> try (refine Reach.cut1 (by assumption) ?_ (fun _ => ?_)))
    | split)

theorem State.startPermute_reach (s : State) (c : Coll) : Reach 0x4000300000074100000b0c0000006001022011fa3b0d0120c00800000000000003f87cfd s (State.startPermute s c) := by
  have h0 := Reach.refl 0x4000300000074100000b0c0000006001022011fa3b0d0120c00800000000000003f87cfd s
  unfold State.startPermute
  repeat' (first
    | with_reducible assumption
    | exact rfl
    | simp -zeta -iota -proj only [Reach1.pair_iff]
    | with_reducible exact Reach1.fst (by assumption)
    | with_reducible (first
        | refine Reach.bump ?_ ?_
        | refine Reach.ite ?_ ?_
        | refine Reach1.ite ?_ ?_
        | refine Reach.foldl _ ?_ (fun _ _ _ => ?_)
        | refine Reach1.foldl _ ?_ (fun _ _ _ => ?_)
        | refine Reach1.fst (Reach1.foldl _ ?_ (fun _ _ _ => ?_))
        | apply Reach.then ?_ (State.clamped_reach ..) ?_
        | apply Reach.then ?_ (State.endColl_reach ..) ?_
        | apply Reach.then ?_ (State.post_reach ..) ?_
        | apply Reach.then ?_ (State.putPermChunk_reach ..) ?_
        | apply Reach.then ?_ (State.readVLines_reach ..) ?_
        | apply Reach.then ?_ (State.setColl_reach ..) ?_)
    | (extract_lets +onlyGivenNames -underBinder -merge -useContext x; first | (refine Reach.cut x ?_ (fun _ => ?_); rotate_left; clear_value x; rotate_left; unfold x; clear x) | (refine Reach.cutP x ?_ (fun _ => ?_); rotate_left; clear_value x; rotate_left; unfold x; clear x) | (have _ := fun a => x a; unfold x; clear x) | clear_value x)
    | (split <;> try (refine Reach.cut1 (by assumption) ?_ (fun _ => ?_)))
    | split)

theorem State.placeItems_reach (s : State) (cluster : Nat) (launch : Nat) (y0 : Nat) : Reach 0x40001000000000000000000000000001022011fa20080000000800000000000001087c7d s (State.placeItems s cluster launch y0) := by
  induction y0 generalizing s cluster launch with
  | zero =>
    have h0 := Reach.refl 0x40001000000000000000000000000001022011fa20080000000800000000000001087c7d s
    unfold State.placeItems
    repeat' (first
    | with_reducible assumption
    | exact rfl
    | simp -zeta -iota -proj only [Reach1.pair_iff]
    | with_reducible exact Reach1.fst (by assumption)
    | with_reducible (first
        | refine Reach.ite ?_ ?_
        | refine Reach1.ite ?_ ?_
        | refine Reach.foldl _ ?_ (fun _ _ _ => ?_)
        | refine Reach1.foldl _ ?_ (fun _ _ _ => ?_)
        | refine Reach1.fst (Reach1.foldl _ ?_ (fun _ _ _ => ?_))
        | apply Reach.then ?_ (State.devWrite_reach ..) ?_
        | apply Reach.then ?_ (State.headFull_reach ..) ?_
        | apply Reach.then ?_ (State.leavePoison_reach ..) ?_
        | apply Reach.then ?_ (State.setColl_reach ..) ?_
        | apply Reach.then ?_ (ih ..) ?_)
    | (extract_lets +onlyGivenNames -underBinder -merge -useContext x; first | (refine Reach.cut x ?_ (fun _ => ?_); rotate_left; clear_value x; rotate_left; unfold x; clear x) | (refine Reach.cutP x ?_ (fun _ => ?_); rotate_left; clear_value x; rotate_left; unfold x; clear x) | (have _ := fun a => x a; unfold x; clear x) | clear_value x)
    | (split <;> try (refine Reach.cut1 (by assumption) ?_ (fun _ => ?_)))
    | split
    | with_reducible (first
        | refine Reach.set_poison ?_ ?_))
  | succ _ ih =>
    have h0 := Reach.refl 0x40001000000000000000000000000001022011fa20080000000800000000000001087c7d s
    unfold State.placeItems
    repeat' (first
    | with_reducible assumption
    | exact rfl
    | simp -zeta -iota -proj only [Reach1.pair_iff]
    | with_reducible exact Reach1.fst (by assumption)
    | with_reducible (first
        | refine Reach.ite ?_ ?_
        | refine Reach1.ite ?_ ?_
        | refine Reach.foldl _ ?_ (fun _ _ _ => ?_)
        | refine Reach1.foldl _ ?_ (fun _ _ _ => ?_)
        | refine Reach1.fst (Reach1.foldl _ ?_ (fun _ _ _ => ?_))
        | apply Reach.then ?_ (State.devWrite_reach ..) ?_
        | apply Reach.then ?_ (State.headFull_reach ..) ?_
        | apply Reach.then ?_ (State.leavePoison_reach ..) ?_
        | apply Reach.then ?_ (State.setColl_reach ..) ?_
        | apply Reach.then ?_ (ih ..) ?_)
    | (extract_lets +onlyGivenNames -underBinder -merge -useContext x; first | (refine Reach.cut x ?_ (fun _ => ?_); rotate_left; clear_value x; rotate_left; unfold x; clear x) | (refine Reach.cutP x ?_ (fun _ => ?_); rotate_left; clear_value x; rotate_left; unfold x; clear x) | (have _ := fun a => x a; unfold x; clear x) | clear_value x)
    | (split <;> try (refine Reach.cut1 (by assumption) ?_ (fun _ => ?_)))
    | split
    | with_reducible (first
        | refine Reach.set_poison ?_ ?_))

theorem State.advanceRing_reach (s : State) (c : Coll) : Reach 0x40001000000000000000000000000001022011fa20080000000800000000000001087c7d s (State.advanceRing s c) := by
  have h0 := Reach.refl 0x40001000000000000000000000000001022011fa20080000000800000000000001087c7d s
  unfold State.advanceRing
  repeat' (first
    | with_reducible assumption
    | exact rfl
    | with_reducible (first
        | apply Reach.then ?_ (State.placeItems_reach ..) ?_
        | apply Reach.then ?_ (State.setColl_reach ..) ?_)
    | (extract_lets +onlyGivenNames -underBinder -merge -useContext x; first | (refine Reach.cut x ?_ (fun _ => ?_); rotate_left; clear_value x; rotate_left; unfold x; clear x) | (have _ := fun a => x a; unfold x; clear x) | clear_value x))

theorem State.clearAcc_reach (s : State) (c : Coll) : Reach 0x40001000000000000000000000006001022011f820000000000000000000000002387c1d s (State.clearAcc s c) := by
  have h0 := Reach.refl 0x40001000000000000000000000006001022011f820000000000000000000000002387c1d s
  unfold State.clearAcc
  repeat' (first
    | with_reducible assumption
    | exact rfl
    | simp -zeta -iota -proj only [Reach1.pair_iff]
    | with_reducible exact Reach1.fst (by assumption)
    | with_reducible (first
        | apply Reach1.then ?_ (State.storeCodes_reach ..) ?_
        | apply Reach1.fst (Reach1.then ?_ (State.storeCodes_reach ..) ?_))
    | (extract_lets +onlyGivenNames -underBinder -merge -useContext x; first | (refine Reach.cut x ?_ (fun _ => ?_); rotate_left; clear_value x; rotate_left; unfold x; clear x) | (refine Reach.cutP x ?_ (fun _ => ?_); rotate_left; clear_value x; rotate_left; unfold x; clear x) | (have _ := fun a => x a; unfold x; clear x) | clear_value x))

theorem State.sendSlice_reach (s : State) (c : Coll) (up : Bool) (slice : Nat) : Reach 0x80800000000000000000000000000000000000000000000800000 s (State.sendSlice s c up slice) := by
  have h0 := Reach.refl 0x80800000000000000000000000000000000000000000000800000 s
  unfold State.sendSlice
  repeat' (first
    | with_reducible assumption
    | exact rfl
    | simp -zeta -iota -proj only [Reach1.pair_iff]
    | with_reducible exact Reach1.fst (by assumption)
    | with_reducible (first
        | refine Reach.foldl _ ?_ (fun _ _ _ => ?_)
        | refine Reach1.foldl _ ?_ (fun _ _ _ => ?_)
        | refine Reach1.fst (Reach1.foldl _ ?_ (fun _ _ _ => ?_))
        | apply Reach.then ?_ (State.sendPiece_reach ..) ?_)
    | (split <;> try (refine Reach.cut1 (by assumption) ?_ (fun _ => ?_)))
    | split)

theorem State.sendAcc_reach (s : State) (c : Coll) (half : Nat) (slice : Nat) : Reach 0x80800000000000000000000000000000000000000000000800000 s (State.sendAcc s c half slice) := by
  have h0 := Reach.refl 0x80800000000000000000000000000000000000000000000800000 s
  unfold State.sendAcc
  repeat' (first
    | with_reducible assumption
    | exact rfl
    | simp -zeta -iota -proj only [Reach1.pair_iff]
    | with_reducible exact Reach1.fst (by assumption)
    | with_reducible (first
        | refine Reach.foldl _ ?_ (fun _ _ _ => ?_)
        | refine Reach1.foldl _ ?_ (fun _ _ _ => ?_)
        | refine Reach1.fst (Reach1.foldl _ ?_ (fun _ _ _ => ?_))
        | apply Reach.then ?_ (State.sendPiece_reach ..) ?_)
    | (extract_lets +onlyGivenNames -underBinder -merge -useContext x; first | (refine Reach.cut x ?_ (fun _ => ?_); rotate_left; clear_value x; rotate_left; unfold x; clear x) | (refine Reach.cutP x ?_ (fun _ => ?_); rotate_left; clear_value x; rotate_left; unfold x; clear x) | (have _ := fun a => x a; unfold x; clear x) | clear_value x))

theorem State.startRing_reach (s : State) (c : Coll) : Reach 0x4000300000074100000b040000006001022011fa3b0c0120c00800000000000003f87cfd s (State.startRing s c) := by
  have h0 := Reach.refl 0x4000300000074100000b040000006001022011fa3b0c0120c00800000000000003f87cfd s
  unfold State.startRing
  repeat' (first
    | with_reducible assumption
    | exact rfl
    | with_reducible (first
        | refine Reach.ite ?_ ?_
        | apply Reach.then ?_ (State.advanceRing_reach ..) ?_
        | apply Reach.then ?_ (State.clearAcc_reach ..) ?_
        | apply Reach.then ?_ (State.endColl_reach ..) ?_
        | apply Reach.then ?_ (State.readVLines_reach ..) ?_)
    | (extract_lets +onlyGivenNames -underBinder -merge -useContext x; first | (refine Reach.cut x ?_ (fun _ => ?_); rotate_left; clear_value x; rotate_left; unfold x; clear x) | (have _ := fun a => x a; unfold x; clear x) | clear_value x)
    | (split <;> try (refine Reach.cut1 (by assumption) ?_ (fun _ => ?_)))
    | split)

theorem State.startReduce_reach (s : State) (c : Coll) : Reach 0x4000300000074100000b0c0000006001022011fe200c0120000800000000001003f87cfd s (State.startReduce s c) := by
  have h0 := Reach.refl 0x4000300000074100000b0c0000006001022011fe200c0120000800000000001003f87cfd s
  unfold State.startReduce
  repeat' (first
    | with_reducible assumption
    | exact rfl
    | simp -zeta -iota -proj only [Reach1.pair_iff]
    | with_reducible exact Reach1.fst (by assumption)
    | with_reducible (first
        | refine Reach.ite ?_ ?_
        | refine Reach1.ite ?_ ?_
        | refine Reach.foldl _ ?_ (fun _ _ _ => ?_)
        | refine Reach1.foldl _ ?_ (fun _ _ _ => ?_)
        | refine Reach1.fst (Reach1.foldl _ ?_ (fun _ _ _ => ?_))
        | apply Reach.then ?_ (State.sendPiece_reach ..) ?_
        | apply Reach.then ?_ (State.setColl_reach ..) ?_
        | apply Reach.then ?_ (State.startSums_reach ..) ?_
        | apply Reach.then ?_ (State.writeResults_reach ..) ?_)
    | (extract_lets +onlyGivenNames -underBinder -merge -useContext x; first | (refine Reach.cut x ?_ (fun _ => ?_); rotate_left; clear_value x; rotate_left; unfold x; clear x) | (refine Reach.cutP x ?_ (fun _ => ?_); rotate_left; clear_value x; rotate_left; unfold x; clear x) | (have _ := fun a => x a; unfold x; clear x) | clear_value x)
    | (split <;> try (refine Reach.cut1 (by assumption) ?_ (fun _ => ?_)))
    | split)

theorem State.startGather_reach (s : State) (c : Coll) : Reach 0x4000300000074100000b0c0000006001022011fa200c0120000800000000000003f87cfd s (State.startGather s c) := by
  have h0 := Reach.refl 0x4000300000074100000b0c0000006001022011fa200c0120000800000000000003f87cfd s
  unfold State.startGather
  repeat' (first
    | with_reducible assumption
    | exact rfl
    | simp -zeta -iota -proj only [Reach1.pair_iff]
    | with_reducible exact Reach1.fst (by assumption)
    | with_reducible (first
        | refine Reach.ite ?_ ?_
        | apply Reach.then ?_ (State.collWrote_reach ..) ?_
        | apply Reach.then ?_ (State.sendChunk_reach ..) ?_
        | apply Reach.then ?_ (State.setColl_reach ..) ?_
        | apply Reach1.then ?_ (State.storeData_reach ..) ?_
        | apply Reach1.fst (Reach1.then ?_ (State.storeData_reach ..) ?_))
    | (extract_lets +onlyGivenNames -underBinder -merge -useContext x; first | (refine Reach.cut x ?_ (fun _ => ?_); rotate_left; clear_value x; rotate_left; unfold x; clear x) | (refine Reach.cutP x ?_ (fun _ => ?_); rotate_left; clear_value x; rotate_left; unfold x; clear x) | (have _ := fun a => x a; unfold x; clear x) | clear_value x)
    | (split <;> try (refine Reach.cut1 (by assumption) ?_ (fun _ => ?_)))
    | split)

theorem State.collReads_reach (s : State) (c : Coll) : Reach 0x1000000000000000000000000001022011f83b000000c00000000000000000087c1d s (State.collReads s c) := by
  have h0 := Reach.refl 0x1000000000000000000000000001022011f83b000000c00000000000000000087c1d s
  unfold State.collReads
  repeat' (first
    | with_reducible assumption
    | exact rfl
    | with_reducible (first
        | refine Reach.ite ?_ ?_
        | apply Reach.then ?_ (State.readElems_reach ..) ?_)
    | (extract_lets +onlyGivenNames -underBinder -merge -useContext x; first | (refine Reach.cut x ?_ (fun _ => ?_); rotate_left; clear_value x; rotate_left; unfold x; clear x) | (have _ := fun a => x a; unfold x; clear x) | clear_value x)
    | (split <;> try (refine Reach.cut1 (by assumption) ?_ (fun _ => ?_)))
    | split)

theorem State.startColl_reach (s : State) (c : Coll) : Reach 0x4000300000074100000b0c0000006001022011fe3b0d0120c00800000000001003f87cfd s (State.startColl s c) := by
  have h0 := Reach.refl 0x4000300000074100000b0c0000006001022011fe3b0d0120c00800000000001003f87cfd s
  unfold State.startColl
  repeat' (first
    | with_reducible assumption
    | exact rfl
    | simp -zeta -iota -proj only [Reach1.pair_iff]
    | with_reducible exact Reach1.fst (by assumption)
    | with_reducible (first
        | refine Reach.ite ?_ ?_
        | refine Reach1.ite ?_ ?_
        | refine Reach.foldl _ ?_ (fun _ _ _ => ?_)
        | refine Reach1.foldl _ ?_ (fun _ _ _ => ?_)
        | refine Reach1.fst (Reach1.foldl _ ?_ (fun _ _ _ => ?_))
        | apply Reach.then ?_ (State.collReads_reach ..) ?_
        | apply Reach.then ?_ (State.endColl_reach ..) ?_
        | apply Reach.then ?_ (State.setColl_reach ..) ?_
        | apply Reach.then ?_ (State.startExchange_reach ..) ?_
        | apply Reach.then ?_ (State.startGather_reach ..) ?_
        | apply Reach.then ?_ (State.startPermute_reach ..) ?_
        | apply Reach.then ?_ (State.startReduce_reach ..) ?_
        | apply Reach.then ?_ (State.startRing_reach ..) ?_)
    | (extract_lets +onlyGivenNames -underBinder -merge -useContext x; first | (refine Reach.cut x ?_ (fun _ => ?_); rotate_left; clear_value x; rotate_left; unfold x; clear x) | (refine Reach.cutP x ?_ (fun _ => ?_); rotate_left; clear_value x; rotate_left; unfold x; clear x) | (have _ := fun a => x a; unfold x; clear x) | clear_value x)
    | (split <;> try (refine Reach.cut1 (by assumption) ?_ (fun _ => ?_)))
    | split)

theorem State.holdPiece_reach (s : State) (die : Nat) (h : Words4) (lines : List LineSeg) : Reach 0x1000000 s (State.holdPiece s die h lines) := by
  have h0 := Reach.refl 0x1000000 s
  unfold State.holdPiece
  repeat' (first
    | with_reducible assumption
    | exact rfl
    | with_reducible (first
        | refine Reach.set_coll ?_ ?_))

theorem State.takeSum_reach (s : State) (c : Coll) (h : Words4) (lines : List LineSeg) : Reach 0x4000300000074100000b0c0000006001022011fe200c0120000800000000001003f87cfd s (State.takeSum s c h lines) := by
  have h0 := Reach.refl 0x4000300000074100000b0c0000006001022011fe200c0120000800000000001003f87cfd s
  unfold State.takeSum
  repeat' (first
    | with_reducible assumption
    | exact rfl
    | with_reducible (first
        | refine Reach.ite ?_ ?_
        | apply Reach.then ?_ (State.sendPiece_reach ..) ?_
        | apply Reach.then ?_ (State.setColl_reach ..) ?_
        | apply Reach.then ?_ (State.writeResults_reach ..) ?_)
    | (extract_lets +onlyGivenNames -underBinder -merge -useContext x; first | (refine Reach.cut x ?_ (fun _ => ?_); rotate_left; clear_value x; rotate_left; unfold x; clear x) | (have _ := fun a => x a; unfold x; clear x) | clear_value x)
    | (split <;> try (refine Reach.cut1 (by assumption) ?_ (fun _ => ?_)))
    | split)

theorem State.takeGather_reach (s : State) (c : Coll) (h : Words4) (lines : List LineSeg) : Reach 0x4000300000074100000b4c0000006001022011fa200c0120000800000000000003f87cfd s (State.takeGather s c h lines) := by
  have h0 := Reach.refl 0x4000300000074100000b4c0000006001022011fa200c0120000800000000000003f87cfd s
  unfold State.takeGather
  repeat' (first
    | with_reducible assumption
    | exact rfl
    | simp -zeta -iota -proj only [Reach1.pair_iff]
    | with_reducible exact Reach1.fst (by assumption)
    | with_reducible (first
        | refine Reach.bump ?_ ?_
        | refine Reach.ite ?_ ?_
        | apply Reach.then ?_ (State.collWrote_reach ..) ?_
        | apply Reach.then ?_ (State.endColl_reach ..) ?_
        | apply Reach.then ?_ (State.sendPiece_reach ..) ?_
        | apply Reach1.then ?_ (State.storeData_reach ..) ?_
        | apply Reach1.fst (Reach1.then ?_ (State.storeData_reach ..) ?_))
    | (extract_lets +onlyGivenNames -underBinder -merge -useContext x; first | (refine Reach.cut x ?_ (fun _ => ?_); rotate_left; clear_value x; rotate_left; unfold x; clear x) | (refine Reach.cutP x ?_ (fun _ => ?_); rotate_left; clear_value x; rotate_left; unfold x; clear x) | (have _ := fun a => x a; unfold x; clear x) | clear_value x)
    | (split <;> try (refine Reach.cut1 (by assumption) ?_ (fun _ => ?_)))
    | split)

theorem State.takeExchange_reach (s : State) (c : Coll) (h : Words4) (lines : List LineSeg) : Reach 0x4000300000074100000b040000006001022011fa200c0120000800000000000003f87cfd s (State.takeExchange s c h lines) := by
  have h0 := Reach.refl 0x4000300000074100000b040000006001022011fa200c0120000800000000000003f87cfd s
  unfold State.takeExchange
  repeat' (first
    | with_reducible assumption
    | exact rfl
    | simp -zeta -iota -proj only [Reach1.pair_iff]
    | with_reducible exact Reach1.fst (by assumption)
    | with_reducible (first
        | apply Reach.then ?_ (State.collWrote_reach ..) ?_
        | apply Reach1.then ?_ (State.storeData_reach ..) ?_
        | apply Reach1.fst (Reach1.then ?_ (State.storeData_reach ..) ?_))
    | (extract_lets +onlyGivenNames -underBinder -merge -useContext x; first | (refine Reach.cut x ?_ (fun _ => ?_); rotate_left; clear_value x; rotate_left; unfold x; clear x) | (refine Reach.cutP x ?_ (fun _ => ?_); rotate_left; clear_value x; rotate_left; unfold x; clear x) | (have _ := fun a => x a; unfold x; clear x) | clear_value x)
    | (split <;> try (refine Reach.cut1 (by assumption) ?_ (fun _ => ?_)))
    | split)

theorem State.takePermute_reach (s : State) (c : Coll) (h : Words4) (lines : List LineSeg) : Reach 0x4000300000074100000b040000006001022011fa200c0120000800000000000003f87cfd s (State.takePermute s c h lines) := by
  have h0 := Reach.refl 0x4000300000074100000b040000006001022011fa200c0120000800000000000003f87cfd s
  unfold State.takePermute
  repeat' (first
    | with_reducible assumption
    | exact rfl
    | with_reducible (first
        | refine Reach.ite ?_ ?_
        | apply Reach.then ?_ (State.putPermChunk_reach ..) ?_
        | apply Reach.then ?_ (State.setColl_reach ..) ?_)
    | (extract_lets +onlyGivenNames -underBinder -merge -useContext x; first | (refine Reach.cut x ?_ (fun _ => ?_); rotate_left; clear_value x; rotate_left; unfold x; clear x) | (have _ := fun a => x a; unfold x; clear x) | clear_value x)
    | (split <;> try (refine Reach.cut1 (by assumption) ?_ (fun _ => ?_)))
    | split)

theorem State.takePre_reach (s : State) (c : Coll) (h : Words4) (lines : List LineSeg) : Reach 0x80800000000000000000000000000000000000000000001800000 s (State.takePre s c h lines) := by
  have h0 := Reach.refl 0x80800000000000000000000000000000000000000000001800000 s
  unfold State.takePre
  repeat' (first
    | with_reducible assumption
    | exact rfl
    | with_reducible (first
        | refine Reach.ite ?_ ?_
        | apply Reach.then ?_ (State.afterPre_reach ..) ?_
        | apply Reach.then ?_ (State.sendPiece_reach ..) ?_
        | apply Reach.then ?_ (State.setColl_reach ..) ?_)
    | (extract_lets +onlyGivenNames -underBinder -merge -useContext x; first | (refine Reach.cut x ?_ (fun _ => ?_); rotate_left; clear_value x; rotate_left; unfold x; clear x) | (have _ := fun a => x a; unfold x; clear x) | clear_value x)
    | (split <;> try (refine Reach.cut1 (by assumption) ?_ (fun _ => ?_)))
    | split)

theorem State.takeRing_reach (s : State) (c : Coll) (h : Words4) (lines : List LineSeg) : Reach 0x4000300000074100000f040000006001022011fa200c0120000800000000000003f87cfd s (State.takeRing s c h lines) := by
  have h0 := Reach.refl 0x4000300000074100000f040000006001022011fa200c0120000800000000000003f87cfd s
  unfold State.takeRing
  repeat' (first
    | with_reducible assumption
    | exact rfl
    | simp -zeta -iota -proj only [Reach1.pair_iff]
    | with_reducible exact Reach1.fst (by assumption)
    | with_reducible (first
        | refine Reach.bump ?_ ?_
        | refine Reach.ite ?_ ?_
        | apply Reach.then ?_ (State.advanceRing_reach ..) ?_
        | apply Reach.then ?_ (State.clearFailed_reach ..) ?_
        | apply Reach.then ?_ (State.endColl_reach ..) ?_
        | apply Reach.then ?_ (State.setColl_reach ..) ?_
        | apply Reach1.then ?_ (State.storeData_reach ..) ?_
        | apply Reach1.fst (Reach1.then ?_ (State.storeData_reach ..) ?_))
    | (extract_lets +onlyGivenNames -underBinder -merge -useContext x; first | (refine Reach.cut x ?_ (fun _ => ?_); rotate_left; clear_value x; rotate_left; unfold x; clear x) | (refine Reach.cutP x ?_ (fun _ => ?_); rotate_left; clear_value x; rotate_left; unfold x; clear x) | (have _ := fun a => x a; unfold x; clear x) | clear_value x)
    | (split <;> try (refine Reach.cut1 (by assumption) ?_ (fun _ => ?_)))
    | split
    | with_reducible (first
        | refine Reach.set_poison ?_ ?_))

theorem State.takePiece_reach (s : State) (die : Nat) (h : Words4) (lines : List LineSeg) : Reach 0x4000300000074100000f4c0000006001022011fe200c0120000800000000001003f87cfd s (State.takePiece s die h lines) := by
  have h0 := Reach.refl 0x4000300000074100000f4c0000006001022011fe200c0120000800000000001003f87cfd s
  unfold State.takePiece
  repeat' (first
    | with_reducible assumption
    | exact rfl
    | with_reducible (first
        | refine Reach.ite ?_ ?_
        | apply Reach.then ?_ (State.holdPiece_reach ..) ?_
        | apply Reach.then ?_ (State.takeExchange_reach ..) ?_
        | apply Reach.then ?_ (State.takeGather_reach ..) ?_
        | apply Reach.then ?_ (State.takePermute_reach ..) ?_
        | apply Reach.then ?_ (State.takePre_reach ..) ?_
        | apply Reach.then ?_ (State.takeRing_reach ..) ?_
        | apply Reach.then ?_ (State.takeSum_reach ..) ?_
        | apply Reach.then ?_ (State.traceRank_reach ..) ?_)
    | (extract_lets +onlyGivenNames -underBinder -merge -useContext x; first | (refine Reach.cut x ?_ (fun _ => ?_); rotate_left; clear_value x; rotate_left; unfold x; clear x) | (have _ := fun a => x a; unfold x; clear x) | clear_value x)
    | (split <;> try (refine Reach.cut1 (by assumption) ?_ (fun _ => ?_)))
    | split)

theorem State.settleEarly_reach (s : State) (y0 : Nat) : Reach 0x4000300000074100000f4c0000006001022011fe200c0120000800000000001003f87cfd s (State.settleEarly s y0) := by
  induction y0 generalizing s with
  | zero =>
    have h0 := Reach.refl 0x4000300000074100000f4c0000006001022011fe200c0120000800000000001003f87cfd s
    unfold State.settleEarly
    repeat' (first
    | with_reducible assumption
    | exact rfl
    | simp -zeta -iota -proj only [Reach1.pair_iff]
    | with_reducible exact Reach1.fst (by assumption)
    | with_reducible (first
        | refine Reach.ite ?_ ?_
        | refine Reach1.ite ?_ ?_
        | refine Reach.foldl _ ?_ (fun _ _ _ => ?_)
        | refine Reach1.foldl _ ?_ (fun _ _ _ => ?_)
        | refine Reach1.fst (Reach1.foldl _ ?_ (fun _ _ _ => ?_))
        | apply Reach.then ?_ (State.takePiece_reach ..) ?_
        | apply Reach.then ?_ (ih ..) ?_)
    | (extract_lets +onlyGivenNames -underBinder -merge -useContext x; first | (refine Reach.cut x ?_ (fun _ => ?_); rotate_left; clear_value x; rotate_left; unfold x; clear x) | (refine Reach.cutP x ?_ (fun _ => ?_); rotate_left; clear_value x; rotate_left; unfold x; clear x) | (have _ := fun a => x a; unfold x; clear x) | clear_value x)
    | (split <;> try (refine Reach.cut1 (by assumption) ?_ (fun _ => ?_)))
    | split
    | with_reducible (first
        | refine Reach.set_coll ?_ ?_))
  | succ _ ih =>
    have h0 := Reach.refl 0x4000300000074100000f4c0000006001022011fe200c0120000800000000001003f87cfd s
    unfold State.settleEarly
    repeat' (first
    | with_reducible assumption
    | exact rfl
    | simp -zeta -iota -proj only [Reach1.pair_iff]
    | with_reducible exact Reach1.fst (by assumption)
    | with_reducible (first
        | refine Reach.ite ?_ ?_
        | refine Reach1.ite ?_ ?_
        | refine Reach.foldl _ ?_ (fun _ _ _ => ?_)
        | refine Reach1.foldl _ ?_ (fun _ _ _ => ?_)
        | refine Reach1.fst (Reach1.foldl _ ?_ (fun _ _ _ => ?_))
        | apply Reach.then ?_ (State.takePiece_reach ..) ?_
        | apply Reach.then ?_ (ih ..) ?_)
    | (extract_lets +onlyGivenNames -underBinder -merge -useContext x; first | (refine Reach.cut x ?_ (fun _ => ?_); rotate_left; clear_value x; rotate_left; unfold x; clear x) | (refine Reach.cutP x ?_ (fun _ => ?_); rotate_left; clear_value x; rotate_left; unfold x; clear x) | (have _ := fun a => x a; unfold x; clear x) | clear_value x)
    | (split <;> try (refine Reach.cut1 (by assumption) ?_ (fun _ => ?_)))
    | split
    | with_reducible (first
        | refine Reach.set_coll ?_ ?_))

theorem State.settlePieces_reach (s : State) : Reach 0x4000300000074100000f4c0000006001022011fe200c0120000800000000001003f87cfd s (State.settlePieces s) := by
  have h0 := Reach.refl 0x4000300000074100000f4c0000006001022011fe200c0120000800000000001003f87cfd s
  unfold State.settlePieces
  repeat' (first
    | with_reducible assumption
    | exact rfl
    | with_reducible (first
        | apply Reach.then ?_ (State.settleEarly_reach ..) ?_))

theorem State.collArrives_reach (s : State) (mt : Nat) (h : Words4) (lines : List LineSeg) : Reach 0x4000300000074100000fdc0000006001022011fe200c0120000800000000001003f87cfd s (State.collArrives s mt h lines) := by
  have h0 := Reach.refl 0x4000300000074100000fdc0000006001022011fe200c0120000800000000001003f87cfd s
  unfold State.collArrives
  repeat' (first
    | with_reducible assumption
    | exact rfl
    | with_reducible (first
        | refine Reach.bump ?_ ?_
        | refine Reach.ite ?_ ?_
        | apply Reach.then ?_ (State.settlePieces_reach ..) ?_
        | apply Reach.then ?_ (State.takePiece_reach ..) ?_)
    | (extract_lets +onlyGivenNames -underBinder -merge -useContext x; first | (refine Reach.cut x ?_ (fun _ => ?_); rotate_left; clear_value x; rotate_left; unfold x; clear x) | (have _ := fun a => x a; unfold x; clear x) | clear_value x)
    | (split <;> try (refine Reach.cut1 (by assumption) ?_ (fun _ => ?_)))
    | split
    | dsimp -zeta only []
    | with_reducible (first
        | refine Reach.set_fabric ?_ ?_))

theorem collIssue_reach (op : Nat) (cluster : Fin 24) (launch : BitVec 12) (image : CmdImage) (s : State) : Reach 0x4000300000074100000f4c0000006001022011fe3b0d0120c00800000000001003f87cfd s (collIssue op cluster launch image s) := by
  have h0 := Reach.refl 0x4000300000074100000f4c0000006001022011fe3b0d0120c00800000000001003f87cfd s
  unfold collIssue
  repeat' (first
    | with_reducible assumption
    | exact rfl
    | with_reducible (first
        | refine Reach.ite ?_ ?_
        | apply Reach.then ?_ (State.clamped_reach ..) ?_
        | apply Reach.then ?_ (State.endColl_reach ..) ?_
        | apply Reach.then ?_ (State.needSeq_reach ..) ?_
        | apply Reach.then ?_ (State.settlePieces_reach ..) ?_
        | apply Reach.then ?_ (State.startColl_reach ..) ?_)
    | (extract_lets +onlyGivenNames -underBinder -merge -useContext x; first | (refine Reach.cut x ?_ (fun _ => ?_); rotate_left; clear_value x; rotate_left; unfold x; clear x) | (have _ := fun a => x a; unfold x; clear x) | clear_value x)
    | (split <;> try (refine Reach.cut1 (by assumption) ?_ (fun _ => ?_)))
    | split
    | with_reducible (first
        | refine Reach.set_coll ?_ ?_))

theorem collAbortEffect_reach (header : Words4) (s : State) : Reach 0x4000300000074100000b840000000001022011fa200c0120000800000000000003d87cfd s (collAbortEffect header s) := by
  have h0 := Reach.refl 0x4000300000074100000b840000000001022011fa200c0120000800000000000003d87cfd s
  unfold collAbortEffect
  repeat' (first
    | with_reducible assumption
    | exact rfl
    | with_reducible (first
        | refine Reach.bump ?_ ?_
        | refine Reach.ite ?_ ?_
        | apply Reach.then ?_ (State.endColl_reach ..) ?_
        | apply Reach.then ?_ (State.sendAbort_reach ..) ?_
        | apply Reach.then ?_ (State.setColl_reach ..) ?_)
    | (extract_lets +onlyGivenNames -underBinder -merge -useContext x; first | (refine Reach.cut x ?_ (fun _ => ?_); rotate_left; clear_value x; rotate_left; unfold x; clear x) | (have _ := fun a => x a; unfold x; clear x) | clear_value x)
    | (split <;> try (refine Reach.cut1 (by assumption) ?_ (fun _ => ?_)))
    | split
    | with_reducible (first
        | refine Reach.set_fabric ?_ ?_))

theorem ringStepBoundaryEffect_reach (cluster : Fin 24) (launch : BitVec 12) (s : State) : Reach 0x4000300000074100000f4c0000006001022011fe200c0120000800000000001003f87cfd s (ringStepBoundaryEffect cluster launch s) := by
  have h0 := Reach.refl 0x4000300000074100000f4c0000006001022011fe200c0120000800000000001003f87cfd s
  unfold ringStepBoundaryEffect
  repeat' (first
    | with_reducible assumption
    | exact rfl
    | with_reducible (first
        | refine Reach.ite ?_ ?_
        | apply Reach.then ?_ (State.advanceRing_reach ..) ?_
        | apply Reach.then ?_ (State.clearAcc_reach ..) ?_
        | apply Reach.then ?_ (State.endColl_reach ..) ?_
        | apply Reach.then ?_ (State.sendAcc_reach ..) ?_
        | apply Reach.then ?_ (State.sendSlice_reach ..) ?_
        | apply Reach.then ?_ (State.setColl_reach ..) ?_
        | apply Reach.then ?_ (State.settlePieces_reach ..) ?_)
    | (extract_lets +onlyGivenNames -underBinder -merge -useContext x; first | (refine Reach.cut x ?_ (fun _ => ?_); rotate_left; clear_value x; rotate_left; unfold x; clear x) | (have _ := fun a => x a; unfold x; clear x) | clear_value x)
    | (split <;> try (refine Reach.cut1 (by assumption) ?_ (fun _ => ?_)))
    | split)

theorem collectiveCommitEffect_reach (cluster : Fin 24) (launch : BitVec 12) (s : State) : Reach 0x4000300000074100006b240000000001022011fa200c0120000800000000000003d87cfd s (collectiveCommitEffect cluster launch s) := by
  have h0 := Reach.refl 0x4000300000074100006b240000000001022011fa200c0120000800000000000003d87cfd s
  unfold collectiveCommitEffect
  repeat' (first
    | with_reducible assumption
    | exact rfl
    | with_reducible (first
        | refine Reach.ite ?_ ?_
        | apply Reach.then ?_ (State.completeColl_reach ..) ?_)
    | (split <;> try (refine Reach.cut1 (by assumption) ?_ (fun _ => ?_)))
    | split)

theorem collPeerTimeoutEffect_reach (cluster : Fin 24) (launch : BitVec 12) (ms : BitVec 32) (s : State) : Reach 0x4000300000074100006b240000000001022011fa200c0120000800000000000003d87cfd s (collPeerTimeoutEffect cluster launch ms s) := by
  have h0 := Reach.refl 0x4000300000074100006b240000000001022011fa200c0120000800000000000003d87cfd s
  unfold collPeerTimeoutEffect
  repeat' (first
    | with_reducible assumption
    | exact rfl
    | with_reducible (first
        | refine Reach.ite ?_ ?_
        | apply Reach.then ?_ (State.loseColl_reach ..) ?_)
    | (split <;> try (refine Reach.cut1 (by assumption) ?_ (fun _ => ?_)))
    | split)

theorem State.endGroup_reach (s : State) (die : Nat) (g : Nat) : Reach 0x4000300000074100006b240000000001022011fa200c0120000800000000000003d87cfd s (State.endGroup s die g) := by
  have h0 := Reach.refl 0x4000300000074100006b240000000001022011fa200c0120000800000000000003d87cfd s
  unfold State.endGroup
  repeat' (first
    | with_reducible assumption
    | exact rfl
    | simp -zeta -iota -proj only [Reach1.pair_iff]
    | with_reducible exact Reach1.fst (by assumption)
    | with_reducible (first
        | refine Reach.foldl _ ?_ (fun _ _ _ => ?_)
        | refine Reach1.foldl _ ?_ (fun _ _ _ => ?_)
        | refine Reach1.fst (Reach1.foldl _ ?_ (fun _ _ _ => ?_))
        | apply Reach.then ?_ (State.loseColl_reach ..) ?_))

theorem State.countGroups_reach (s : State) : Reach 0x4000 s (State.countGroups s) := by
  have h0 := Reach.refl 0x4000 s
  unfold State.countGroups
  repeat' (first
    | with_reducible assumption
    | exact rfl
    | with_reducible (first
        | apply Reach.then ?_ (State.dput_reach ..) ?_))

theorem State.groupWrite_reach (s : State) (d : Nat) (g : Nat) (word : Nat) (value : Word) : Reach 0x4000300000074100076b240000000001022011fa200c0120000800000000000003d87cfd s (State.groupWrite s d g word value) := by
  have h0 := Reach.refl 0x4000300000074100076b240000000001022011fa200c0120000800000000000003d87cfd s
  unfold State.groupWrite
  repeat' (first
    | with_reducible assumption
    | exact rfl
    | with_reducible (first
        | refine Reach.setFld ?_ ?_
        | refine Reach.storeReg ?_ ?_
        | refine Reach.ite ?_ ?_
        | apply Reach.then ?_ (State.countGroups_reach ..) ?_
        | apply Reach.then ?_ (State.endGroup_reach ..) ?_)
    | (extract_lets +onlyGivenNames -underBinder -merge -useContext x; first | (refine Reach.cut x ?_ (fun _ => ?_); rotate_left; clear_value x; rotate_left; unfold x; clear x) | (have _ := fun a => x a; unfold x; clear x) | clear_value x)
    | (split <;> try (refine Reach.cut1 (by assumption) ?_ (fun _ => ?_)))
    | split)

theorem groupEntryWriteEffect_reach (die : Fin 2) (group : BitVec 8) (word : Fin 3) (value : Word) (s : State) : Reach 0x4000300000074100076b240000000001022011fa200d0120000800000000000003d87cfd s (groupEntryWriteEffect die group word value s) := by
  have h0 := Reach.refl 0x4000300000074100076b240000000001022011fa200d0120000800000000000003d87cfd s
  unfold groupEntryWriteEffect
  repeat' (first
    | with_reducible assumption
    | exact rfl
    | with_reducible (first
        | apply Reach.then ?_ (State.clamped_reach ..) ?_
        | apply Reach.then ?_ (State.groupWrite_reach ..) ?_)
    | (extract_lets +onlyGivenNames -underBinder -merge -useContext x; first | (refine Reach.cut x ?_ (fun _ => ?_); rotate_left; clear_value x; rotate_left; unfold x; clear x) | (have _ := fun a => x a; unfold x; clear x) | clear_value x))

theorem collMemberGenSetEffect_reach (die : Fin 2) (value : Word) (s : State) : Reach 0x400030000007410001eb240000000001022011fa200c0120000800000000000003d87cfd s (collMemberGenSetEffect die value s) := by
  have h0 := Reach.refl 0x400030000007410001eb240000000001022011fa200c0120000800000000000003d87cfd s
  unfold collMemberGenSetEffect
  repeat' (first
    | with_reducible assumption
    | exact rfl
    | with_reducible (first
        | refine Reach.setFld ?_ ?_
        | refine Reach.storeReg ?_ ?_
        | refine Reach.ite ?_ ?_
        | apply Reach.then ?_ (State.endGroup_reach ..) ?_)
    | (extract_lets +onlyGivenNames -underBinder -merge -useContext x; first | (refine Reach.cut x ?_ (fun _ => ?_); rotate_left; clear_value x; rotate_left; unfold x; clear x) | (have _ := fun a => x a; unfold x; clear x) | clear_value x)
    | (split <;> try (refine Reach.cut1 (by assumption) ?_ (fun _ => ?_)))
    | split)

end Sys2Proof.Machine
end

