-- ==== Sys2Proof/Laws/ReachArbiter.lean ====
section
/-!
SUPPORT. The footprint of each function of Machine/Arbiter.lean.
-/
set_option linter.unusedTactic false
set_option linter.unreachableTactic false
namespace Sys2Proof.Machine

theorem State.setArb_reach (s : State) (die : Nat) (a : Arbiter) : Reach 0x800 s (State.setArb s die a) := by
  have h0 := Reach.refl 0x800 s
  unfold State.setArb
  repeat' (first
    | with_reducible assumption
    | exact rfl
    | with_reducible (first
        | refine Reach.ite ?_ ?_)
    | (split <;> try (refine Reach.cut1 (by assumption) ?_ (fun _ => ?_)))
    | split
    | with_reducible (first
        | refine Reach.set_hbm ?_ ?_))

theorem State.putEntry_reach (s : State) (die : Nat) (entry : Nat) (kind : Nat) (st : Nat) (blocker : Nat) (scope : Nat) (fail : Bool) : Reach 0x4000000000000000000000000000000000000 s (State.putEntry s die entry kind st blocker scope fail) := by
  have h0 := Reach.refl 0x4000000000000000000000000000000000000 s
  unfold State.putEntry
  repeat' (first
    | with_reducible assumption
    | exact rfl
    | with_reducible (first
        | refine Reach.wr ?_ ?_
        | refine Reach.ite ?_ ?_)
    | (extract_lets +onlyGivenNames -underBinder -merge -useContext x; first | (refine Reach.cut x ?_ (fun _ => ?_); rotate_left; clear_value x; rotate_left; unfold x; clear x) | (have _ := fun a => x a; unfold x; clear x) | clear_value x)
    | (split <;> try (refine Reach.cut1 (by assumption) ?_ (fun _ => ?_)))
    | split)

theorem State.showEntries_reach (s : State) (die : Nat) : Reach 0x4000000800000000000000000000000000000 s (State.showEntries s die) := by
  have h0 := Reach.refl 0x4000000800000000000000000000000000000 s
  unfold State.showEntries
  repeat' (first
    | with_reducible assumption
    | exact rfl
    | simp -zeta -iota -proj only [Reach1.pair_iff]
    | with_reducible exact Reach1.fst (by assumption)
    | with_reducible (first
        | refine Reach.setFld ?_ ?_
        | refine Reach.ite ?_ ?_
        | refine Reach1.ite ?_ ?_
        | refine Reach.foldl _ ?_ (fun _ _ _ => ?_)
        | refine Reach1.foldl _ ?_ (fun _ _ _ => ?_)
        | refine Reach1.fst (Reach1.foldl _ ?_ (fun _ _ _ => ?_))
        | apply Reach.then ?_ (State.putEntry_reach ..) ?_)
    | (extract_lets +onlyGivenNames -underBinder -merge -useContext x; first | (refine Reach.cut x ?_ (fun _ => ?_); rotate_left; clear_value x; rotate_left; unfold x; clear x) | (refine Reach.cutP x ?_ (fun _ => ?_); rotate_left; clear_value x; rotate_left; unfold x; clear x) | (have _ := fun a => x a; unfold x; clear x) | clear_value x)
    | (split <;> try (refine Reach.cut1 (by assumption) ?_ (fun _ => ?_)))
    | split)

theorem State.enterAct_reach (s : State) (die : Nat) (a : MaintAct) : Reach1 0x4000000800000000000000000000000000800 s (State.enterAct s die a) := by
  have h0 := Reach.refl 0x4000000800000000000000000000000000800 s
  unfold State.enterAct
  repeat' (first
    | with_reducible assumption
    | exact rfl
    | simp -zeta -iota -proj only [Reach1.pair_iff]
    | with_reducible exact Reach1.fst (by assumption)
    | with_reducible (first
        | apply Reach.then ?_ (State.setArb_reach ..) ?_
        | apply Reach.then ?_ (State.showEntries_reach ..) ?_)
    | (extract_lets +onlyGivenNames -underBinder -merge -useContext x; first | (refine Reach.cut x ?_ (fun _ => ?_); rotate_left; clear_value x; rotate_left; unfold x; clear x) | (refine Reach1.cut x ?_ (fun _ => ?_); rotate_left; clear_value x; rotate_left; unfold x; clear x) | (have _ := fun a => x a; unfold x; clear x) | clear_value x)
    | (split <;> try (first | refine Reach1.cut1 (by assumption) ?_ (fun _ => ?_) | refine Reach.cut1 (by assumption) ?_ (fun _ => ?_)))
    | split)

theorem State.endAct_reach (s : State) (die : Nat) (entry : Nat) (fail : Bool) : Reach 0x4000000800000000000000000000000000800 s (State.endAct s die entry fail) := by
  have h0 := Reach.refl 0x4000000800000000000000000000000000800 s
  unfold State.endAct
  repeat' (first
    | with_reducible assumption
    | exact rfl
    | with_reducible (first
        | apply Reach.then ?_ (State.putEntry_reach ..) ?_
        | apply Reach.then ?_ (State.setArb_reach ..) ?_
        | apply Reach.then ?_ (State.showEntries_reach ..) ?_)
    | (extract_lets +onlyGivenNames -underBinder -merge -useContext x; first | (refine Reach.cut x ?_ (fun _ => ?_); rotate_left; clear_value x; rotate_left; unfold x; clear x) | (have _ := fun a => x a; unfold x; clear x) | clear_value x)
    | (split <;> try (refine Reach.cut1 (by assumption) ?_ (fun _ => ?_)))
    | split)

theorem State.markRunning_reach (s : State) (die : Nat) (entry : Nat) : Reach 0x4000000800000000000000000000000000800 s (State.markRunning s die entry) := by
  have h0 := Reach.refl 0x4000000800000000000000000000000000800 s
  unfold State.markRunning
  repeat' (first
    | with_reducible assumption
    | exact rfl
    | with_reducible (first
        | refine Reach.ite ?_ ?_
        | apply Reach.then ?_ (State.setArb_reach ..) ?_
        | apply Reach.then ?_ (State.showEntries_reach ..) ?_)
    | (extract_lets +onlyGivenNames -underBinder -merge -useContext x; first | (refine Reach.cut x ?_ (fun _ => ?_); rotate_left; clear_value x; rotate_left; unfold x; clear x) | (have _ := fun a => x a; unfold x; clear x) | clear_value x)
    | (split <;> try (refine Reach.cut1 (by assumption) ?_ (fun _ => ?_)))
    | split)

end Sys2Proof.Machine
end

