-- ==== Sys2Proof/Laws/ReachDmOps.lean ====
section
/-!
SUPPORT. The footprint of each function of Machine/DmOps.lean.
-/
set_option linter.unusedTactic false
set_option linter.unreachableTactic false
namespace Sys2Proof.Machine

theorem State.setDaymark_reach (s : State) (d : Daymark) : Reach 0x4000000 s (State.setDaymark s d) := by
  have h0 := Reach.refl 0x4000000 s
  unfold State.setDaymark
  repeat' (first
    | with_reducible assumption
    | exact rfl
    | with_reducible (first
        | refine Reach.ite ?_ ?_)
    | (split <;> try (refine Reach.cut1 (by assumption) ?_ (fun _ => ?_)))
    | split
    | with_reducible (first
        | refine Reach.set_daymarks ?_ ?_))

theorem State.showDaymark_reach (s : State) (die : Nat) : Reach 0x20000000000000000000000000000000000000000 s (State.showDaymark s die) := by
  have h0 := Reach.refl 0x20000000000000000000000000000000000000000 s
  unfold State.showDaymark
  repeat' (first
    | with_reducible assumption
    | exact rfl
    | with_reducible (first
        | refine Reach.wr ?_ ?_)
    | (split <;> try (refine Reach.cut1 (by assumption) ?_ (fun _ => ?_)))
    | split)

theorem State.showDaymarks_reach (s : State) : Reach 0x20000000000000000000000000000000000000000 s (State.showDaymarks s) := by
  have h0 := Reach.refl 0x20000000000000000000000000000000000000000 s
  unfold State.showDaymarks
  repeat' (first
    | with_reducible assumption
    | exact rfl
    | with_reducible (first
        | apply Reach.then ?_ (State.showDaymark_reach ..) ?_))

theorem State.wakeCopier_reach (s : State) (die : Nat) : Reach 0x8000000 s (State.wakeCopier s die) := by
  have h0 := Reach.refl 0x8000000 s
  unfold State.wakeCopier
  repeat' (first
    | with_reducible assumption
    | exact rfl
    | with_reducible (first
        | refine Reach.ite ?_ ?_)
    | (split <;> try (refine Reach.cut1 (by assumption) ?_ (fun _ => ?_)))
    | split
    | with_reducible (first
        | refine Reach.set_copying ?_ ?_))

theorem State.enterCopiers_reach (s : State) : Reach 0x20004000000800000000000000000000004000800 s (State.enterCopiers s) := by
  have h0 := Reach.refl 0x20004000000800000000000000000000004000800 s
  unfold State.enterCopiers
  repeat' (first
    | with_reducible assumption
    | exact rfl
    | simp -zeta -iota -proj only [Reach1.pair_iff]
    | with_reducible exact Reach1.fst (by assumption)
    | with_reducible (first
        | refine Reach.ite ?_ ?_
        | refine Reach1.ite ?_ ?_
        | refine Reach.foldl _ ?_ (fun _ _ _ => ?_)
        | refine Reach1.foldl _ ?_ (fun _ _ _ => ?_)
        | refine Reach1.fst (Reach1.foldl _ ?_ (fun _ _ _ => ?_))
        | apply Reach1.then ?_ (State.enterAct_reach ..) ?_
        | apply Reach1.fst (Reach1.then ?_ (State.enterAct_reach ..) ?_)
        | apply Reach.then ?_ (State.setDaymark_reach ..) ?_
        | apply Reach.then ?_ (State.showDaymarks_reach ..) ?_)
    | (extract_lets +onlyGivenNames -underBinder -merge -useContext x; first | (refine Reach.cut x ?_ (fun _ => ?_); rotate_left; clear_value x; rotate_left; unfold x; clear x) | (refine Reach.cutP x ?_ (fun _ => ?_); rotate_left; clear_value x; rotate_left; unfold x; clear x) | (have _ := fun a => x a; unfold x; clear x) | clear_value x)
    | (split <;> try (refine Reach.cut1 (by assumption) ?_ (fun _ => ?_)))
    | split
    | dsimp -zeta only [])

theorem State.reissue_reach (s : State) (which : HeldWrite → Bool) : Reach 0x40003000000740000008000200000001022011fa3b0c0120c00800000000000002d87cfd s (State.reissue s which) := by
  have h0 := Reach.refl 0x40003000000740000008000200000001022011fa3b0c0120c00800000000000002d87cfd s
  unfold State.reissue
  repeat' (first
    | with_reducible assumption
    | exact rfl
    | simp -zeta -iota -proj only [Reach1.pair_iff]
    | with_reducible exact Reach1.fst (by assumption)
    | with_reducible (first
        | refine Reach.foldl _ ?_ (fun _ _ _ => ?_)
        | refine Reach1.foldl _ ?_ (fun _ _ _ => ?_)
        | refine Reach1.fst (Reach1.foldl _ ?_ (fun _ _ _ => ?_))
        | apply Reach.then ?_ (State.devWrite_reach ..) ?_
        | apply Reach.then ?_ (State.leavePoison_reach ..) ?_
        | apply Reach.then ?_ (State.settleCrings_reach ..) ?_
        | apply Reach.then ?_ (State.settleLandings_reach ..) ?_
        | apply Reach.then ?_ (State.showTasks_reach ..) ?_)
    | (extract_lets +onlyGivenNames -underBinder -merge -useContext x; first | (refine Reach.cut x ?_ (fun _ => ?_); rotate_left; clear_value x; rotate_left; unfold x; clear x) | (refine Reach.cutP x ?_ (fun _ => ?_); rotate_left; clear_value x; rotate_left; unfold x; clear x) | (have _ := fun a => x a; unfold x; clear x) | clear_value x)
    | (split <;> try (refine Reach.cut1 (by assumption) ?_ (fun _ => ?_)))
    | split
    | with_reducible (first
        | refine Reach.set_heldWrites ?_ ?_))

theorem State.unprotect_reach (s : State) (frame : Nat) : Reach 0x4000300000074000000800020000000103a011fa3b0c0120c00800000000000002d87cfd s (State.unprotect s frame) := by
  have h0 := Reach.refl 0x4000300000074000000800020000000103a011fa3b0c0120c00800000000000002d87cfd s
  unfold State.unprotect
  repeat' (first
    | with_reducible assumption
    | exact rfl
    | with_reducible (first
        | apply Reach.then ?_ (State.reissue_reach ..) ?_
        | apply Reach.then ?_ (State.retryRetired_reach ..) ?_
        | apply Reach.then ?_ (State.setFrame_reach ..) ?_))

theorem State.dmWrite_reach (s : State) (owner : Nat) (va : Nat) (bs : List Byte) : Reach 0x40001000000000000000000000000001022011f820000000000000000000000000087c1d s (State.dmWrite s owner va bs) := by
  have h0 := Reach.refl 0x40001000000000000000000000000001022011f820000000000000000000000000087c1d s
  unfold State.dmWrite
  repeat' (first
    | with_reducible assumption
    | exact rfl
    | with_reducible (first
        | apply Reach.then ?_ (State.devWrite_reach ..) ?_)
    | (split <;> try (refine Reach.cut1 (by assumption) ?_ (fun _ => ?_)))
    | split)

theorem State.dmHeader_reach (s : State) (d : Daymark) (complete : Bool) : Reach 0x40001000000000000000000000000001022011f820000000000000000000000000087c1d s (State.dmHeader s d complete) := by
  have h0 := Reach.refl 0x40001000000000000000000000000001022011f820000000000000000000000000087c1d s
  unfold State.dmHeader
  repeat' (first
    | with_reducible assumption
    | exact rfl
    | with_reducible (first
        | refine Reach.ite ?_ ?_
        | apply Reach.then ?_ (State.dmWrite_reach ..) ?_)
    | (extract_lets +onlyGivenNames -underBinder -merge -useContext x; first | (refine Reach.cut x ?_ (fun _ => ?_); rotate_left; clear_value x; rotate_left; unfold x; clear x) | (have _ := fun a => x a; unfold x; clear x) | clear_value x)
    | (split <;> try (refine Reach.cut1 (by assumption) ?_ (fun _ => ?_)))
    | split)

theorem State.dmEntry_reach (s : State) (d : Daymark) (k : Nat) (p : DmPage) : Reach 0x40001000000000000000000000000001022011f820000000000000000000000000087c1d s (State.dmEntry s d k p) := by
  have h0 := Reach.refl 0x40001000000000000000000000000001022011f820000000000000000000000000087c1d s
  unfold State.dmEntry
  repeat' (first
    | with_reducible assumption
    | exact rfl
    | with_reducible (first
        | apply Reach.then ?_ (State.dmWrite_reach ..) ?_))

theorem State.dmCopyPage_reach (s : State) (d : Daymark) (k : Nat) (frame : Nat) : Reach1 0x40001000000000000000000000000001022011f82b000000c00000000000000000087c1d s (State.dmCopyPage s d k frame) := by
  have h0 := Reach.refl 0x40001000000000000000000000000001022011f82b000000c00000000000000000087c1d s
  unfold State.dmCopyPage
  repeat' (first
    | with_reducible assumption
    | exact rfl
    | simp -zeta -iota -proj only [Reach1.pair_iff]
    | with_reducible exact Reach1.fst (by assumption)
    | with_reducible (first
        | apply Reach.then ?_ (State.devWrite_reach ..) ?_
        | apply Reach.then ?_ (State.leavePoison_reach ..) ?_
        | apply Reach.then ?_ (State.scanFrame_reach ..) ?_)
    | (extract_lets +onlyGivenNames -underBinder -merge -useContext x; first | (refine Reach.cut x ?_ (fun _ => ?_); rotate_left; clear_value x; rotate_left; unfold x; clear x) | (refine Reach1.cut x ?_ (fun _ => ?_); rotate_left; clear_value x; rotate_left; unfold x; clear x) | (have _ := fun a => x a; unfold x; clear x) | clear_value x)
    | (split <;> try (first | refine Reach1.cut1 (by assumption) ?_ (fun _ => ?_) | refine Reach.cut1 (by assumption) ?_ (fun _ => ?_)))
    | split)

theorem State.closeDaymark_reach (s : State) (d : Daymark) : Reach 0x4000300000074000000800020000000303a411fa3b8c0120c0080000000000000ed87cfd s (State.closeDaymark s d) := by
  have h0 := Reach.refl 0x4000300000074000000800020000000303a411fa3b8c0120c0080000000000000ed87cfd s
  unfold State.closeDaymark
  repeat' (first
    | with_reducible assumption
    | exact rfl
    | simp -zeta -iota -proj only [Reach1.pair_iff]
    | with_reducible exact Reach1.fst (by assumption)
    | with_reducible (first
        | refine Reach.ite ?_ ?_
        | refine Reach1.ite ?_ ?_
        | refine Reach.foldl _ ?_ (fun _ _ _ => ?_)
        | refine Reach1.foldl _ ?_ (fun _ _ _ => ?_)
        | refine Reach1.fst (Reach1.foldl _ ?_ (fun _ _ _ => ?_))
        | apply Reach.then ?_ (State.endAct_reach ..) ?_
        | apply Reach.then ?_ (State.enterCopiers_reach ..) ?_
        | apply Reach.then ?_ (State.showDaymarks_reach ..) ?_
        | apply Reach.then ?_ (State.unprotect_reach ..) ?_
        | apply Reach.then ?_ (State.wakeCopier_reach ..) ?_)
    | (extract_lets +onlyGivenNames -underBinder -merge -useContext x; first | (refine Reach.cut x ?_ (fun _ => ?_); rotate_left; clear_value x; rotate_left; unfold x; clear x) | (refine Reach.cutP x ?_ (fun _ => ?_); rotate_left; clear_value x; rotate_left; unfold x; clear x) | (have _ := fun a => x a; unfold x; clear x) | clear_value x)
    | (split <;> try (refine Reach.cut1 (by assumption) ?_ (fun _ => ?_)))
    | split
    | exact fun h => h
    | with_reducible (first
        | refine Reach.set_daymarks ?_ ?_
        | refine Reach.set_copying ?_ ?_
        | refine Reach.litMk ?_ rfl (fun _ h => h) ?_ ?_ ?_ ?_)
    | (intro (c : Cell) (hc : _); cases c <;> first | rfl | exact absurd hc (by decide) | exact fun _ _ => rfl))

theorem State.abandonDaymark_reach (s : State) (d : Daymark) : Reach 0x4000300000074000000800020000010303a411fa3b8c0120c0080000000000000ed87cfd s (State.abandonDaymark s d) := by
  have h0 := Reach.refl 0x4000300000074000000800020000010303a411fa3b8c0120c0080000000000000ed87cfd s
  unfold State.abandonDaymark
  repeat' (first
    | with_reducible assumption
    | exact rfl
    | with_reducible (first
        | refine Reach.bump ?_ ?_
        | refine Reach.ite ?_ ?_
        | apply Reach.then ?_ (State.closeDaymark_reach ..) ?_)
    | (extract_lets +onlyGivenNames -underBinder -merge -useContext x; first | (refine Reach.cut x ?_ (fun _ => ?_); rotate_left; clear_value x; rotate_left; unfold x; clear x) | (have _ := fun a => x a; unfold x; clear x) | clear_value x)
    | (split <;> try (refine Reach.cut1 (by assumption) ?_ (fun _ => ?_)))
    | split
    | dsimp -zeta only [])

theorem State.failDaymark_reach (s : State) (launch : Nat) (status : Nat) : Reach 0x4000300000074120000800020000010303a411fa3b8c0120c0080000000000000ed87cfd s (State.failDaymark s launch status) := by
  have h0 := Reach.refl 0x4000300000074120000800020000010303a411fa3b8c0120c0080000000000000ed87cfd s
  unfold State.failDaymark
  repeat' (first
    | with_reducible assumption
    | exact rfl
    | with_reducible (first
        | apply Reach.then ?_ (State.abandonDaymark_reach ..) ?_
        | apply Reach.then ?_ (State.completeRecord_reach ..) ?_)
    | (split <;> try (refine Reach.cut1 (by assumption) ?_ (fun _ => ?_)))
    | split)

end Sys2Proof.Machine
end

