-- ==== Sys2Proof/Laws/ReachPool.lean ====
section
/-!
SUPPORT. The footprint of each function of Machine/Pool.lean.
-/
set_option linter.unusedTactic false
set_option linter.unreachableTactic false
namespace Sys2Proof.Machine

theorem State.moveResult_reach (s : State) (die : Nat) (res : Nat) : Reach 0x20000000000000000000000000000000000000 s (State.moveResult s die res) := by
  have h0 := Reach.refl 0x20000000000000000000000000000000000000 s
  unfold State.moveResult
  repeat' (first
    | with_reducible assumption
    | exact rfl
    | with_reducible (first
        | refine Reach.setFld ?_ ?_))

theorem State.beginMove_reach (s : State) (m : Move) : Reach 0x1000 s (State.beginMove s m) := by
  have h0 := Reach.refl 0x1000 s
  unfold State.beginMove
  repeat' (first
    | with_reducible assumption
    | exact rfl
    | with_reducible (first
        | apply Reach.then ?_ (State.setMoving_reach ..) ?_)
    | with_reducible (first
        | refine Reach.set_pool ?_ ?_))

theorem State.waitMove_reach (s : State) (die : Nat) (tier : Nat) (owner : Nat) (page : Nat) : Reach 0x1000 s (State.waitMove s die tier owner page) := by
  have h0 := Reach.refl 0x1000 s
  unfold State.waitMove
  repeat' (first
    | with_reducible assumption
    | exact rfl
    | with_reducible (first
        | refine Reach.set_pool ?_ ?_))

theorem State.pinFrame_reach (s : State) (die : Nat) (owner : Nat) (n : Nat) (big : Bool) (v : Bool) : Reach 0x142a000000000000000000000000000000008581d s (State.pinFrame s die owner n big v) := by
  have h0 := Reach.refl 0x142a000000000000000000000000000000008581d s
  unfold State.pinFrame
  repeat' (first
    | with_reducible assumption
    | exact rfl
    | with_reducible (first
        | refine Reach.bump ?_ ?_
        | refine Reach.ite ?_ ?_
        | apply Reach.then ?_ (State.cancelMove_reach ..) ?_
        | apply Reach.then ?_ (State.moveResult_reach ..) ?_
        | apply Reach.then ?_ (State.retryWaiting_reach ..) ?_
        | apply Reach.then ?_ (State.setFrame_reach ..) ?_)
    | (extract_lets +onlyGivenNames -underBinder -merge -useContext x; first | (refine Reach.cut x ?_ (fun _ => ?_); rotate_left; clear_value x; rotate_left; unfold x; clear x) | (have _ := fun a => x a; unfold x; clear x) | clear_value x)
    | (split <;> try (refine Reach.cut1 (by assumption) ?_ (fun _ => ?_)))
    | split)

theorem State.startMove_reach (s : State) (die : Nat) (tier : Nat) (owner : Nat) (page : Nat) (n : Nat) : Reach 0x1008000000000000000000000000000000008581d s (State.startMove s die tier owner page n) := by
  have h0 := Reach.refl 0x1008000000000000000000000000000000008581d s
  unfold State.startMove
  repeat' (first
    | with_reducible assumption
    | exact rfl
    | simp -zeta -iota -proj only [Reach1.pair_iff]
    | with_reducible exact Reach1.fst (by assumption)
    | with_reducible (first
        | refine Reach.ite ?_ ?_
        | apply Reach.then ?_ (State.beginMove_reach ..) ?_
        | apply Reach1.then ?_ (State.obtain_reach ..) ?_
        | apply Reach1.fst (Reach1.then ?_ (State.obtain_reach ..) ?_)
        | apply Reach.then ?_ (State.setFrame_reach ..) ?_
        | apply Reach.then ?_ (State.showUse_reach ..) ?_
        | apply Reach.then ?_ (State.waitMove_reach ..) ?_)
    | (extract_lets +onlyGivenNames -underBinder -merge -useContext x; first | (refine Reach.cut x ?_ (fun _ => ?_); rotate_left; clear_value x; rotate_left; unfold x; clear x) | (refine Reach.cutP x ?_ (fun _ => ?_); rotate_left; clear_value x; rotate_left; unfold x; clear x) | (have _ := fun a => x a; unfold x; clear x) | clear_value x)
    | (split <;> try (refine Reach.cut1 (by assumption) ?_ (fun _ => ?_)))
    | split)

theorem State.moveFrame_reach (s : State) (die : Nat) (tier : Nat) (owner : Nat) (page : Nat) (n : Nat) (big : Bool) : Reach 0x100a000000000000000000000000000000008581d s (State.moveFrame s die tier owner page n big) := by
  have h0 := Reach.refl 0x100a000000000000000000000000000000008581d s
  unfold State.moveFrame
  repeat' (first
    | with_reducible assumption
    | exact rfl
    | with_reducible (first
        | refine Reach.ite ?_ ?_
        | apply Reach.then ?_ (State.beginMove_reach ..) ?_
        | apply Reach.then ?_ (State.dropCached_reach ..) ?_
        | apply Reach.then ?_ (State.moveResult_reach ..) ?_
        | apply Reach.then ?_ (State.retryWaiting_reach ..) ?_
        | apply Reach.then ?_ (State.startMove_reach ..) ?_
        | apply Reach.then ?_ (State.waitMove_reach ..) ?_)
    | (extract_lets +onlyGivenNames -underBinder -merge -useContext x; first | (refine Reach.cut x ?_ (fun _ => ?_); rotate_left; clear_value x; rotate_left; unfold x; clear x) | (have _ := fun a => x a; unfold x; clear x) | clear_value x)
    | (split <;> try (refine Reach.cut1 (by assumption) ?_ (fun _ => ?_)))
    | split)

theorem State.runMoveCmd_reach (s : State) (die : Nat) (op : Nat) (tier : Nat) (owner : Nat) (page : Nat) : Reach 0x600142a000000000000000000000000000000008581d s (State.runMoveCmd s die op tier owner page) := by
  have h0 := Reach.refl 0x600142a000000000000000000000000000000008581d s
  unfold State.runMoveCmd
  repeat' (first
    | with_reducible assumption
    | exact rfl
    | with_reducible (first
        | refine Reach.ite ?_ ?_
        | apply Reach.then ?_ (State.moveFrame_reach ..) ?_
        | apply Reach.then ?_ (State.moveResult_reach ..) ?_
        | apply Reach.then ?_ (State.noteWalk_reach ..) ?_
        | apply Reach.then ?_ (State.pinFrame_reach ..) ?_)
    | (extract_lets +onlyGivenNames -underBinder -merge -useContext x; first | (refine Reach.cut x ?_ (fun _ => ?_); rotate_left; clear_value x; rotate_left; unfold x; clear x) | (have _ := fun a => x a; unfold x; clear x) | clear_value x)
    | (split <;> try (refine Reach.cut1 (by assumption) ?_ (fun _ => ?_)))
    | split)

theorem State.writeMoveCmd_reach (s : State) (die : Nat) (op : Nat) (value : Word) : Reach 0x600142a800000000000000000000000000000008581d s (State.writeMoveCmd s die op value) := by
  have h0 := Reach.refl 0x600142a800000000000000000000000000000008581d s
  unfold State.writeMoveCmd
  repeat' (first
    | with_reducible assumption
    | exact rfl
    | with_reducible (first
        | refine Reach.setFld ?_ ?_
        | refine Reach.storeReg ?_ ?_
        | refine Reach.ite ?_ ?_
        | apply Reach.then ?_ (State.runMoveCmd_reach ..) ?_)
    | (extract_lets +onlyGivenNames -underBinder -merge -useContext x; first | (refine Reach.cut x ?_ (fun _ => ?_); rotate_left; clear_value x; rotate_left; unfold x; clear x) | (have _ := fun a => x a; unfold x; clear x) | clear_value x)
    | (split <;> try (refine Reach.cut1 (by assumption) ?_ (fun _ => ?_)))
    | split)

theorem moveEffect_reach (die : Fin 2) (value : Word) (s : State) : Reach 0x600142a800000000000000000000000000000008581d s (moveEffect die value s) := by
  have h0 := Reach.refl 0x600142a800000000000000000000000000000008581d s
  unfold moveEffect
  repeat' (first
    | with_reducible assumption
    | exact rfl
    | with_reducible (first
        | apply Reach.then ?_ (State.writeMoveCmd_reach ..) ?_))

theorem pinEffect_reach (die : Fin 2) (value : Word) (s : State) : Reach 0x600142a800000000000000000000000000000008581d s (pinEffect die value s) := by
  have h0 := Reach.refl 0x600142a800000000000000000000000000000008581d s
  unfold pinEffect
  repeat' (first
    | with_reducible assumption
    | exact rfl
    | with_reducible (first
        | apply Reach.then ?_ (State.writeMoveCmd_reach ..) ?_))

theorem unpinEffect_reach (die : Fin 2) (value : Word) (s : State) : Reach 0x600142a800000000000000000000000000000008581d s (unpinEffect die value s) := by
  have h0 := Reach.refl 0x600142a800000000000000000000000000000008581d s
  unfold unpinEffect
  repeat' (first
    | with_reducible assumption
    | exact rfl
    | with_reducible (first
        | apply Reach.then ?_ (State.writeMoveCmd_reach ..) ?_))

theorem State.retryMoves_reach (s : State) : Reach 0x600142a000000000000000000000000000000008581d s (State.retryMoves s) := by
  have h0 := Reach.refl 0x600142a000000000000000000000000000000008581d s
  unfold State.retryMoves
  repeat' (first
    | with_reducible assumption
    | exact rfl
    | simp -zeta -iota -proj only [Reach1.pair_iff]
    | with_reducible exact Reach1.fst (by assumption)
    | with_reducible (first
        | refine Reach.foldl _ ?_ (fun _ _ _ => ?_)
        | refine Reach1.foldl _ ?_ (fun _ _ _ => ?_)
        | refine Reach1.fst (Reach1.foldl _ ?_ (fun _ _ _ => ?_))
        | apply Reach.then ?_ (State.runMoveCmd_reach ..) ?_)
    | (extract_lets +onlyGivenNames -underBinder -merge -useContext x; first | (refine Reach.cut x ?_ (fun _ => ?_); rotate_left; clear_value x; rotate_left; unfold x; clear x) | (refine Reach.cutP x ?_ (fun _ => ?_); rotate_left; clear_value x; rotate_left; unfold x; clear x) | (have _ := fun a => x a; unfold x; clear x) | clear_value x)
    | with_reducible (first
        | refine Reach.set_pool ?_ ?_))

theorem State.retryAll_reach (s : State) : Reach 0x40003000000200c0000000000000600143a011fe3b0f6120d80dff0c0000001002787dff s (State.retryAll s) := by
  have h0 := Reach.refl 0x40003000000200c0000000000000600143a011fe3b0f6120d80dff0c0000001002787dff s
  unfold State.retryAll
  repeat' (first
    | with_reducible assumption
    | exact rfl
    | with_reducible (first
        | apply Reach.then ?_ (State.fillPlans_reach ..) ?_
        | apply Reach.then ?_ (State.retryChains_reach ..) ?_
        | apply Reach.then ?_ (State.retryMoves_reach ..) ?_
        | apply Reach.then ?_ (State.retryRetired_reach ..) ?_
        | apply Reach.then ?_ (State.retryWaiting_reach ..) ?_)
    | (extract_lets +onlyGivenNames -underBinder -merge -useContext x; first | (refine Reach.cut x ?_ (fun _ => ?_); rotate_left; clear_value x; rotate_left; unfold x; clear x) | (have _ := fun a => x a; unfold x; clear x) | clear_value x))

theorem frameRequestEffect_reach (owner : BitVec 6) (tier : Fin 3) (die : Fin 2) (vpage : BitVec 32) (chain : Option ChainRef) (s : State) : Reach 0x1008000000001000000000000000000000008581d s (frameRequestEffect owner tier die vpage chain s) := by
  have h0 := Reach.refl 0x1008000000001000000000000000000000008581d s
  unfold frameRequestEffect
  repeat' (first
    | with_reducible assumption
    | exact rfl
    | simp -zeta -iota -proj only [Reach1.pair_iff]
    | with_reducible exact Reach1.fst (by assumption)
    | with_reducible (first
        | refine Reach.ite ?_ ?_
        | apply Reach1.then ?_ (State.placeReq_reach ..) ?_
        | apply Reach1.fst (Reach1.then ?_ (State.placeReq_reach ..) ?_)
        | apply Reach1.then ?_ (State.serveReq_reach ..) ?_
        | apply Reach1.fst (Reach1.then ?_ (State.serveReq_reach ..) ?_))
    | (extract_lets +onlyGivenNames -underBinder -merge -useContext x; first | (refine Reach.cut x ?_ (fun _ => ?_); rotate_left; clear_value x; rotate_left; unfold x; clear x) | (refine Reach.cutP x ?_ (fun _ => ?_); rotate_left; clear_value x; rotate_left; unfold x; clear x) | (have _ := fun a => x a; unfold x; clear x) | clear_value x)
    | (split <;> try (refine Reach.cut1 (by assumption) ?_ (fun _ => ?_)))
    | split
    | dsimp -zeta only []
    | with_reducible (first
        | refine Reach.set_pool ?_ ?_))

theorem frameRequestRetryEffect_reach (die : Fin 2) (s : State) : Reach 0x600142a000000000000000000000000000000008581d s (frameRequestRetryEffect die s) := by
  have h0 := Reach.refl 0x600142a000000000000000000000000000000008581d s
  unfold frameRequestRetryEffect
  repeat' (first
    | with_reducible assumption
    | exact rfl
    | simp -zeta -iota -proj only [Reach1.pair_iff]
    | with_reducible exact Reach1.fst (by assumption)
    | with_reducible (first
        | refine Reach.foldl _ ?_ (fun _ _ _ => ?_)
        | refine Reach1.foldl _ ?_ (fun _ _ _ => ?_)
        | refine Reach1.fst (Reach1.foldl _ ?_ (fun _ _ _ => ?_))
        | apply Reach.then ?_ (State.retryList_reach ..) ?_
        | apply Reach.then ?_ (State.runMoveCmd_reach ..) ?_)
    | (extract_lets +onlyGivenNames -underBinder -merge -useContext x; first | (refine Reach.cut x ?_ (fun _ => ?_); rotate_left; clear_value x; rotate_left; unfold x; clear x) | (refine Reach.cutP x ?_ (fun _ => ?_); rotate_left; clear_value x; rotate_left; unfold x; clear x) | (have _ := fun a => x a; unfold x; clear x) | clear_value x)
    | with_reducible (first
        | refine Reach.set_pool ?_ ?_))

theorem poolWaitTimeoutEffect_reach (die : Fin 2) (owner : BitVec 6) (vpage : BitVec 32) (ms : BitVec 32) (s : State) : Reach 0x4000300000074100000b04000000000102a011fa200c0120000800000000000003d87cfd s (poolWaitTimeoutEffect die owner vpage ms s) := by
  have h0 := Reach.refl 0x4000300000074100000b04000000000102a011fa200c0120000800000000000003d87cfd s
  unfold poolWaitTimeoutEffect
  repeat' (first
    | with_reducible assumption
    | exact rfl
    | with_reducible (first
        | refine Reach.ite ?_ ?_
        | apply Reach.then ?_ (State.endChain_reach ..) ?_
        | apply Reach.then ?_ (State.moveResult_reach ..) ?_
        | apply Reach.then ?_ (State.permuteStarved_reach ..) ?_
        | apply Reach.then ?_ (State.retryWaiting_reach ..) ?_)
    | (extract_lets +onlyGivenNames -underBinder -merge -useContext x; first | (refine Reach.cut x ?_ (fun _ => ?_); rotate_left; clear_value x; rotate_left; unfold x; clear x) | (have _ := fun a => x a; unfold x; clear x) | clear_value x)
    | (split <;> try (refine Reach.cut1 (by assumption) ?_ (fun _ => ?_)))
    | split
    | dsimp -zeta only []
    | with_reducible (first
        | refine Reach.set_pool ?_ ?_))

theorem State.endWriteBack_reach (s : State) (m : Move) : Reach 0x100000000000000000000000000103a011f82b000000c00000000000000000087c1d s (State.endWriteBack s m) := by
  have h0 := Reach.refl 0x100000000000000000000000000103a011f82b000000c00000000000000000087c1d s
  unfold State.endWriteBack
  repeat' (first
    | with_reducible assumption
    | exact rfl
    | with_reducible (first
        | refine Reach.bump ?_ ?_
        | refine Reach.ite ?_ ?_
        | apply Reach.then ?_ (State.copyFrame_reach ..) ?_
        | apply Reach.then ?_ (State.dropCached_reach ..) ?_)
    | (extract_lets +onlyGivenNames -underBinder -merge -useContext x; first | (refine Reach.cut x ?_ (fun _ => ?_); rotate_left; clear_value x; rotate_left; unfold x; clear x) | (have _ := fun a => x a; unfold x; clear x) | clear_value x)
    | (split <;> try (refine Reach.cut1 (by assumption) ?_ (fun _ => ?_)))
    | split)

theorem State.endMove_reach (s : State) (m : Move) : Reach 0x100000000000000000000000000102a011f82b000000c00000000000000000087c1d s (State.endMove s m) := by
  have h0 := Reach.refl 0x100000000000000000000000000102a011f82b000000c00000000000000000087c1d s
  unfold State.endMove
  repeat' (first
    | with_reducible assumption
    | exact rfl
    | with_reducible (first
        | refine Reach.bump ?_ ?_
        | refine Reach.ite ?_ ?_
        | apply Reach.then ?_ (State.copyFrame_reach ..) ?_
        | apply Reach.then ?_ (State.freeFrame_reach ..) ?_
        | apply Reach.then ?_ (State.setFrame_reach ..) ?_
        | apply Reach.then ?_ (State.switchPage_reach ..) ?_)
    | (extract_lets +onlyGivenNames -underBinder -merge -useContext x; first | (refine Reach.cut x ?_ (fun _ => ?_); rotate_left; clear_value x; rotate_left; unfold x; clear x) | (have _ := fun a => x a; unfold x; clear x) | clear_value x)
    | (split <;> try (refine Reach.cut1 (by assumption) ?_ (fun _ => ?_)))
    | split)

theorem State.endFill_reach (s : State) (m : Move) : Reach 0x1000000000000000000000000001022011f82b000000c00000000000000000087c1d s (State.endFill s m) := by
  have h0 := Reach.refl 0x1000000000000000000000000001022011f82b000000c00000000000000000087c1d s
  unfold State.endFill
  repeat' (first
    | with_reducible assumption
    | exact rfl
    | with_reducible (first
        | apply Reach.then ?_ (State.copyFrame_reach ..) ?_
        | apply Reach.then ?_ (State.setFrame_reach ..) ?_
        | apply Reach.then ?_ (State.switchPage_reach ..) ?_)
    | (extract_lets +onlyGivenNames -underBinder -merge -useContext x; first | (refine Reach.cut x ?_ (fun _ => ?_); rotate_left; clear_value x; rotate_left; unfold x; clear x) | (have _ := fun a => x a; unfold x; clear x) | clear_value x))

theorem State.finishMove_reach (s : State) (m : Move) : Reach 0x100000000000000000000000000103a011f82b000000c00000000000000000087c1d s (State.finishMove s m) := by
  have h0 := Reach.refl 0x100000000000000000000000000103a011f82b000000c00000000000000000087c1d s
  unfold State.finishMove
  repeat' (first
    | with_reducible assumption
    | exact rfl
    | with_reducible (first
        | refine Reach.ite ?_ ?_
        | apply Reach.then ?_ (State.endFill_reach ..) ?_
        | apply Reach.then ?_ (State.endMove_reach ..) ?_
        | apply Reach.then ?_ (State.endWriteBack_reach ..) ?_
        | apply Reach.then ?_ (State.moveResult_reach ..) ?_)
    | (extract_lets +onlyGivenNames -underBinder -merge -useContext x; first | (refine Reach.cut x ?_ (fun _ => ?_); rotate_left; clear_value x; rotate_left; unfold x; clear x) | (have _ := fun a => x a; unfold x; clear x) | clear_value x)
    | (split <;> try (refine Reach.cut1 (by assumption) ?_ (fun _ => ?_)))
    | split
    | with_reducible (first
        | refine Reach.set_pool ?_ ?_))

theorem moveSwitchEffect_reach (frame : BitVec 32) (s : State) : Reach 0x40003000000200c0000000000000600143a011fe3b0f6120d80dff0c0000001002787dff s (moveSwitchEffect frame s) := by
  have h0 := Reach.refl 0x40003000000200c0000000000000600143a011fe3b0f6120d80dff0c0000001002787dff s
  unfold moveSwitchEffect
  repeat' (first
    | with_reducible assumption
    | exact rfl
    | with_reducible (first
        | refine Reach.ite ?_ ?_
        | apply Reach.then ?_ (State.finishMove_reach ..) ?_
        | apply Reach.then ?_ (State.retryAll_reach ..) ?_)
    | (extract_lets +onlyGivenNames -underBinder -merge -useContext x; first | (refine Reach.cut x ?_ (fun _ => ?_); rotate_left; clear_value x; rotate_left; unfold x; clear x) | (have _ := fun a => x a; unfold x; clear x) | clear_value x)
    | (split <;> try (refine Reach.cut1 (by assumption) ?_ (fun _ => ?_)))
    | split)

theorem State.streamCopy_reach (s : State) (src : Nat) (dst : Nat) : Reach 0x1000000000000000000000000001022011f82b000000c00000000000000000087c1d s (State.streamCopy s src dst) := by
  have h0 := Reach.refl 0x1000000000000000000000000001022011f82b000000c00000000000000000087c1d s
  unfold State.streamCopy
  repeat' (first
    | with_reducible assumption
    | exact rfl
    | with_reducible (first
        | refine Reach.ite ?_ ?_
        | apply Reach.then ?_ (State.copyFrame_reach ..) ?_
        | apply Reach.then ?_ (State.setFrame_reach ..) ?_)
    | (split <;> try (refine Reach.cut1 (by assumption) ?_ (fun _ => ?_)))
    | split)

theorem State.landBytes_reach (s : State) (p : StreamPlan) (at_ : Nat) (bs : List Byte) : Reach 0x40001000000000000000000000000001022011f820000000000000000000000000087c1d s (State.landBytes s p at_ bs) := by
  have h0 := Reach.refl 0x40001000000000000000000000000001022011f820000000000000000000000000087c1d s
  unfold State.landBytes
  repeat' (first
    | with_reducible assumption
    | exact rfl
    | simp -zeta -iota -proj only [Reach1.pair_iff]
    | with_reducible exact Reach1.fst (by assumption)
    | with_reducible (first
        | refine Reach.foldl _ ?_ (fun _ _ _ => ?_)
        | refine Reach1.foldl _ ?_ (fun _ _ _ => ?_)
        | refine Reach1.fst (Reach1.foldl _ ?_ (fun _ _ _ => ?_))
        | apply Reach.then ?_ (State.devWrite_reach ..) ?_)
    | (split <;> try (refine Reach.cut1 (by assumption) ?_ (fun _ => ?_)))
    | split)

theorem State.landGather_reach (s : State) (p : StreamPlan) (mode : Nat) (w : Nat → Word) (at_ : Nat) (g : Gathered) : Reach 0x40001000000000000000000000000001022011f820000000000000000000000000087c1d s (State.landGather s p mode w at_ g) := by
  have h0 := Reach.refl 0x40001000000000000000000000000001022011f820000000000000000000000000087c1d s
  unfold State.landGather
  repeat' (first
    | with_reducible assumption
    | exact rfl
    | with_reducible (first
        | refine Reach.ite ?_ ?_
        | apply Reach.then ?_ (State.landBytes_reach ..) ?_
        | apply Reach.then ?_ (State.virtWrite_reach ..) ?_)
    | (extract_lets +onlyGivenNames -underBinder -merge -useContext x; first | (refine Reach.cut x ?_ (fun _ => ?_); rotate_left; clear_value x; rotate_left; unfold x; clear x) | (have _ := fun a => x a; unfold x; clear x) | clear_value x)
    | (split <;> try (refine Reach.cut1 (by assumption) ?_ (fun _ => ?_)))
    | split)

theorem State.setPlan_reach (s : State) (p : StreamPlan) : Reach 0x1000 s (State.setPlan s p) := by
  have h0 := Reach.refl 0x1000 s
  unfold State.setPlan
  repeat' (first
    | with_reducible assumption
    | exact rfl
    | with_reducible (first
        | refine Reach.ite ?_ ?_
        | apply Reach.then ?_ (State.mapPlans_reach ..) ?_)
    | (split <;> try (refine Reach.cut1 (by assumption) ?_ (fun _ => ?_)))
    | split)

theorem State.genMismatch_reach (s : State) (p : StreamPlan) : Reach 0x200000000000000040000000000000000002000c01000008000000000000005820e0 s (State.genMismatch s p) := by
  have h0 := Reach.refl 0x200000000000000040000000000000000002000c01000008000000000000005820e0 s
  unfold State.genMismatch
  repeat' (first
    | with_reducible assumption
    | exact rfl
    | with_reducible (first
        | refine Reach.bump ?_ ?_
        | apply Reach.then ?_ (State.failSeq_reach ..) ?_
        | apply Reach.then ?_ (State.grantContexts_reach ..) ?_)
    | (extract_lets +onlyGivenNames -underBinder -merge -useContext x; first | (refine Reach.cut x ?_ (fun _ => ?_); rotate_left; clear_value x; rotate_left; unfold x; clear x) | (have _ := fun a => x a; unfold x; clear x) | clear_value x)
    | (split <;> try (refine Reach.cut1 (by assumption) ?_ (fun _ => ?_)))
    | split)

theorem windowLiftEffect_reach (die : Fin 2) (launch : BitVec 12) (entry : BitVec 24) (gathered : List Gathered) (s : State) : Reach 0x40003000000000000000400000000001022011fa2b0c0100c00800000000000000587cfd s (windowLiftEffect die launch entry gathered s) := by
  have h0 := Reach.refl 0x40003000000000000000400000000001022011fa2b0c0100c00800000000000000587cfd s
  unfold windowLiftEffect
  repeat' (first
    | with_reducible assumption
    | exact rfl
    | simp -zeta -iota -proj only [Reach1.pair_iff]
    | with_reducible exact Reach1.fst (by assumption)
    | with_reducible (first
        | refine Reach.ite ?_ ?_
        | refine Reach1.ite ?_ ?_
        | refine Reach.foldl _ ?_ (fun _ _ _ => ?_)
        | refine Reach1.foldl _ ?_ (fun _ _ _ => ?_)
        | refine Reach1.fst (Reach1.foldl _ ?_ (fun _ _ _ => ?_))
        | apply Reach.then ?_ (State.genMismatch_reach ..) ?_
        | apply Reach.then ?_ (State.landGather_reach ..) ?_
        | apply Reach.then ?_ (State.mapPlans_reach ..) ?_
        | apply Reach.then ?_ (State.streamCopy_reach ..) ?_)
    | (extract_lets +onlyGivenNames -underBinder -merge -useContext x; first | (refine Reach.cut x ?_ (fun _ => ?_); rotate_left; clear_value x; rotate_left; unfold x; clear x) | (refine Reach.cutP x ?_ (fun _ => ?_); rotate_left; clear_value x; rotate_left; unfold x; clear x) | (have _ := fun a => x a; unfold x; clear x) | clear_value x)
    | (split <;> try (refine Reach.cut1 (by assumption) ?_ (fun _ => ?_)))
    | split
    | dsimp -zeta only [])

theorem windowLiftCompleteEffect_reach (die : Fin 2) (launch : BitVec 12) (entry : BitVec 24) (slot : BitVec 4) (s : State) : Reach 0x1000000000000000000000000001022011f82b000000c00000000000000000087c1d s (windowLiftCompleteEffect die launch entry slot s) := by
  have h0 := Reach.refl 0x1000000000000000000000000001022011f82b000000c00000000000000000087c1d s
  unfold windowLiftCompleteEffect
  repeat' (first
    | with_reducible assumption
    | exact rfl
    | simp -zeta -iota -proj only [Reach1.pair_iff]
    | with_reducible exact Reach1.fst (by assumption)
    | with_reducible (first
        | refine Reach.ite ?_ ?_
        | refine Reach1.ite ?_ ?_
        | refine Reach.foldl _ ?_ (fun _ _ _ => ?_)
        | refine Reach1.foldl _ ?_ (fun _ _ _ => ?_)
        | refine Reach1.fst (Reach1.foldl _ ?_ (fun _ _ _ => ?_))
        | apply Reach.then ?_ (State.mapPlans_reach ..) ?_
        | apply Reach.then ?_ (State.streamCopy_reach ..) ?_)
    | (extract_lets +onlyGivenNames -underBinder -merge -useContext x; first | (refine Reach.cut x ?_ (fun _ => ?_); rotate_left; clear_value x; rotate_left; unfold x; clear x) | (refine Reach.cutP x ?_ (fun _ => ?_); rotate_left; clear_value x; rotate_left; unfold x; clear x) | (have _ := fun a => x a; unfold x; clear x) | clear_value x)
    | (split <;> try (refine Reach.cut1 (by assumption) ?_ (fun _ => ?_)))
    | split)

theorem State.dropRebuild_reach (s : State) (sector : Nat) : Reach 0x1000 s (State.dropRebuild s sector) := by
  have h0 := Reach.refl 0x1000 s
  unfold State.dropRebuild
  repeat' (first
    | with_reducible assumption
    | exact rfl
    | with_reducible (first
        | refine Reach.set_pool ?_ ?_))

theorem State.writeRebuilt_reach (s : State) (sector : Nat) (bs : List Byte) : Reach 0x40003000000200c0000000000000600106a011fe3b0f6120d80dff0c0000001002787dff s (State.writeRebuilt s sector bs) := by
  have h0 := Reach.refl 0x40003000000200c0000000000000600106a011fe3b0f6120d80dff0c0000001002787dff s
  unfold State.writeRebuilt
  repeat' (first
    | with_reducible assumption
    | exact rfl
    | with_reducible (first
        | refine Reach.bump ?_ ?_
        | apply Reach.then ?_ (State.dropRebuild_reach ..) ?_
        | apply Reach.then ?_ (State.putMem_reach ..) ?_
        | apply Reach.then ?_ (State.retryChains_reach ..) ?_)
    | (extract_lets +onlyGivenNames -underBinder -merge -useContext x; first | (refine Reach.cut x ?_ (fun _ => ?_); rotate_left; clear_value x; rotate_left; unfold x; clear x) | (have _ := fun a => x a; unfold x; clear x) | clear_value x))

theorem State.failRebuild_reach (s : State) (sector : Nat) : Reach 0x40003000000200c000000000000060011aa011fe3b0f6120d80dff0c0000001002787dff s (State.failRebuild s sector) := by
  have h0 := Reach.refl 0x40003000000200c000000000000060011aa011fe3b0f6120d80dff0c0000001002787dff s
  unfold State.failRebuild
  repeat' (first
    | with_reducible assumption
    | exact rfl
    | with_reducible (first
        | refine Reach.bump ?_ ?_
        | apply Reach.then ?_ (State.dropRebuild_reach ..) ?_
        | apply Reach.then ?_ (State.quarantine_reach ..) ?_
        | apply Reach.then ?_ (State.retryChains_reach ..) ?_)
    | (extract_lets +onlyGivenNames -underBinder -merge -useContext x; first | (refine Reach.cut x ?_ (fun _ => ?_); rotate_left; clear_value x; rotate_left; unfold x; clear x) | (have _ := fun a => x a; unfold x; clear x) | clear_value x))

theorem sectorRebuildEffect_reach (addr : BitVec 48) (s : State) : Reach 0x40003000000200c000080000000060011ea011fe3b0f6120d80dff0c0000001002f87dff s (sectorRebuildEffect addr s) := by
  have h0 := Reach.refl 0x40003000000200c000080000000060011ea011fe3b0f6120d80dff0c0000001002f87dff s
  unfold sectorRebuildEffect
  repeat' (first
    | with_reducible assumption
    | exact rfl
    | with_reducible (first
        | refine Reach.ite ?_ ?_
        | apply Reach.then ?_ (State.failRebuild_reach ..) ?_
        | apply Reach.then ?_ (State.post_reach ..) ?_
        | apply Reach.then ?_ (State.quarantine_reach ..) ?_
        | apply Reach.then ?_ (State.readRuns_reach ..) ?_
        | apply Reach.then ?_ (State.writeRebuilt_reach ..) ?_)
    | (extract_lets +onlyGivenNames -underBinder -merge -useContext x; first | (refine Reach.cut x ?_ (fun _ => ?_); rotate_left; clear_value x; rotate_left; unfold x; clear x) | (have _ := fun a => x a; unfold x; clear x) | clear_value x)
    | (split <;> try (refine Reach.cut1 (by assumption) ?_ (fun _ => ?_)))
    | split
    | with_reducible (first
        | refine Reach.set_pool ?_ ?_))

theorem rebuildTimeoutEffect_reach (addr : BitVec 48) (ms : BitVec 32) (failed : Bool) (s : State) : Reach 0x40003000000200c000000000000060011aa011fe3b0f6120d80dff0c0000001002787dff s (rebuildTimeoutEffect addr ms failed s) := by
  have h0 := Reach.refl 0x40003000000200c000000000000060011aa011fe3b0f6120d80dff0c0000001002787dff s
  unfold rebuildTimeoutEffect
  repeat' (first
    | with_reducible assumption
    | exact rfl
    | with_reducible (first
        | refine Reach.ite ?_ ?_
        | apply Reach.then ?_ (State.failRebuild_reach ..) ?_)
    | (extract_lets +onlyGivenNames -underBinder -merge -useContext x; first | (refine Reach.cut x ?_ (fun _ => ?_); rotate_left; clear_value x; rotate_left; unfold x; clear x) | (have _ := fun a => x a; unfold x; clear x) | clear_value x)
    | (split <;> try (refine Reach.cut1 (by assumption) ?_ (fun _ => ?_)))
    | split)

theorem shelfUnreachableEffect_reach (first : BitVec 32) (count : BitVec 32) (s : State) : Reach 0x1000000000000000000000000000000002001000 s (shelfUnreachableEffect first count s) := by
  have h0 := Reach.refl 0x1000000000000000000000000000000002001000 s
  unfold shelfUnreachableEffect
  repeat' (first
    | with_reducible assumption
    | exact rfl
    | simp -zeta -iota -proj only [Reach1.pair_iff]
    | with_reducible exact Reach1.fst (by assumption)
    | with_reducible (first
        | refine Reach.ite ?_ ?_
        | refine Reach1.ite ?_ ?_
        | refine Reach.foldl _ ?_ (fun _ _ _ => ?_)
        | refine Reach1.foldl _ ?_ (fun _ _ _ => ?_)
        | refine Reach1.fst (Reach1.foldl _ ?_ (fun _ _ _ => ?_))
        | apply Reach.then ?_ (State.quarantine_reach ..) ?_)
    | (split <;> try (refine Reach.cut1 (by assumption) ?_ (fun _ => ?_)))
    | split)

theorem swapInvocationEffect_reach (die : Fin 2) (owner : BitVec 6) (s : State) : Reach 0x40003000000200c0000000000000600143a011fe3b0f6120d80dff0c0000001002787dff s (swapInvocationEffect die owner s) := by
  have h0 := Reach.refl 0x40003000000200c0000000000000600143a011fe3b0f6120d80dff0c0000001002787dff s
  unfold swapInvocationEffect
  repeat' (first
    | with_reducible assumption
    | exact rfl
    | simp -zeta -iota -proj only [Reach1.pair_iff]
    | with_reducible exact Reach1.fst (by assumption)
    | with_reducible (first
        | refine Reach.bump ?_ ?_
        | refine Reach.ite ?_ ?_
        | refine Reach1.ite ?_ ?_
        | refine Reach.foldl _ ?_ (fun _ _ _ => ?_)
        | refine Reach1.foldl _ ?_ (fun _ _ _ => ?_)
        | refine Reach1.fst (Reach1.foldl _ ?_ (fun _ _ _ => ?_))
        | apply Reach.then ?_ (State.copyFrame_reach ..) ?_
        | apply Reach.then ?_ (State.dropCached_reach ..) ?_
        | apply Reach.then ?_ (State.finishMove_reach ..) ?_
        | apply Reach.then ?_ (State.retryAll_reach ..) ?_)
    | (extract_lets +onlyGivenNames -underBinder -merge -useContext x; first | (refine Reach.cut x ?_ (fun _ => ?_); rotate_left; clear_value x; rotate_left; unfold x; clear x) | (refine Reach.cutP x ?_ (fun _ => ?_); rotate_left; clear_value x; rotate_left; unfold x; clear x) | (have _ := fun a => x a; unfold x; clear x) | clear_value x)
    | (split <;> try (refine Reach.cut1 (by assumption) ?_ (fun _ => ?_)))
    | split
    | with_reducible (first
        | refine Reach.set_pool ?_ ?_))

theorem State.cacheFrame_reach (s : State) (die : Nat) (owner : Nat) (p : FramePair) : Reach 0x1000000000000000000000000001022011f82b000000c00000000000000000087c1d s (State.cacheFrame s die owner p) := by
  have h0 := Reach.refl 0x1000000000000000000000000001022011f82b000000c00000000000000000087c1d s
  unfold State.cacheFrame
  repeat' (first
    | with_reducible assumption
    | exact rfl
    | with_reducible (first
        | refine Reach.ite ?_ ?_
        | apply Reach.then ?_ (State.copyFrame_reach ..) ?_
        | apply Reach.then ?_ (State.setFrame_reach ..) ?_
        | apply Reach.then ?_ (State.switchPage_reach ..) ?_)
    | (extract_lets +onlyGivenNames -underBinder -merge -useContext x; first | (refine Reach.cut x ?_ (fun _ => ?_); rotate_left; clear_value x; rotate_left; unfold x; clear x) | (have _ := fun a => x a; unfold x; clear x) | clear_value x)
    | (split <;> try (refine Reach.cut1 (by assumption) ?_ (fun _ => ?_)))
    | split)

theorem gallerySetLoadDoneEffect_reach (die : Fin 2) (owner : BitVec 6) (loaded : List FramePair) (s : State) : Reach 0x1000000000000000000000000001022011f82b000000c00000000000000000087c1d s (gallerySetLoadDoneEffect die owner loaded s) := by
  have h0 := Reach.refl 0x1000000000000000000000000001022011f82b000000c00000000000000000087c1d s
  unfold gallerySetLoadDoneEffect
  repeat' (first
    | with_reducible assumption
    | exact rfl
    | simp -zeta -iota -proj only [Reach1.pair_iff]
    | with_reducible exact Reach1.fst (by assumption)
    | with_reducible (first
        | refine Reach.ite ?_ ?_
        | refine Reach1.ite ?_ ?_
        | refine Reach.foldl _ ?_ (fun _ _ _ => ?_)
        | refine Reach1.foldl _ ?_ (fun _ _ _ => ?_)
        | refine Reach1.fst (Reach1.foldl _ ?_ (fun _ _ _ => ?_))
        | apply Reach.then ?_ (State.cacheFrame_reach ..) ?_
        | apply Reach.then ?_ (State.showUse_reach ..) ?_)
    | (extract_lets +onlyGivenNames -underBinder -merge -useContext x; first | (refine Reach.cut x ?_ (fun _ => ?_); rotate_left; clear_value x; rotate_left; unfold x; clear x) | (refine Reach.cutP x ?_ (fun _ => ?_); rotate_left; clear_value x; rotate_left; unfold x; clear x) | (have _ := fun a => x a; unfold x; clear x) | clear_value x)
    | (split <;> try (refine Reach.cut1 (by assumption) ?_ (fun _ => ?_)))
    | split
    | with_reducible (first
        | refine Reach.set_pool ?_ ?_))

theorem State.claimBig_reach (s : State) (n : Nat) (owner : Nat) : Reach 0x10000000000000000000000000000000000005000 s (State.claimBig s n owner) := by
  have h0 := Reach.refl 0x10000000000000000000000000000000000005000 s
  unfold State.claimBig
  repeat' (first
    | with_reducible assumption
    | exact rfl
    | simp -zeta -iota -proj only [Reach1.pair_iff]
    | with_reducible exact Reach1.fst (by assumption)
    | with_reducible (first
        | refine Reach.foldl _ ?_ (fun _ _ _ => ?_)
        | refine Reach1.foldl _ ?_ (fun _ _ _ => ?_)
        | refine Reach1.fst (Reach1.foldl _ ?_ (fun _ _ _ => ?_))
        | apply Reach.then ?_ (State.setFrame_reach ..) ?_
        | apply Reach.then ?_ (State.showUse_reach ..) ?_))

theorem State.releaseBig_reach (s : State) (n : Nat) (owner : Nat) : Reach 0x10000000000000000000000000000000000005000 s (State.releaseBig s n owner) := by
  have h0 := Reach.refl 0x10000000000000000000000000000000000005000 s
  unfold State.releaseBig
  repeat' (first
    | with_reducible assumption
    | exact rfl
    | simp -zeta -iota -proj only [Reach1.pair_iff]
    | with_reducible exact Reach1.fst (by assumption)
    | with_reducible (first
        | refine Reach.ite ?_ ?_
        | refine Reach1.ite ?_ ?_
        | refine Reach.foldl _ ?_ (fun _ _ _ => ?_)
        | refine Reach1.foldl _ ?_ (fun _ _ _ => ?_)
        | refine Reach1.fst (Reach1.foldl _ ?_ (fun _ _ _ => ?_))
        | apply Reach.then ?_ (State.setFrame_reach ..) ?_
        | apply Reach.then ?_ (State.showUse_reach ..) ?_)
    | (split <;> try (refine Reach.cut1 (by assumption) ?_ (fun _ => ?_)))
    | split)

theorem State.installBig_reach (s : State) (before : State) (e : Nat × Nat × Nat) : Reach 0x1400000000000000000000000000000000000581d s (State.installBig s before e) := by
  have h0 := Reach.refl 0x1400000000000000000000000000000000000581d s
  unfold State.installBig
  repeat' (first
    | with_reducible assumption
    | exact rfl
    | with_reducible (first
        | refine Reach.bump ?_ ?_
        | refine Reach.ite ?_ ?_
        | apply Reach.then ?_ (State.claimBig_reach ..) ?_
        | apply Reach.then ?_ (State.putRaw_reach ..) ?_)
    | (split <;> try (refine Reach.cut1 (by assumption) ?_ (fun _ => ?_)))
    | split)

theorem State.settleBig_reach (s : State) (before : State) : Reach 0x40003000000200c0000000000000600143a011fe3b0f6120d80dff0c0000001002787dff s (State.settleBig s before) := by
  have h0 := Reach.refl 0x40003000000200c0000000000000600143a011fe3b0f6120d80dff0c0000001002787dff s
  unfold State.settleBig
  repeat' (first
    | with_reducible assumption
    | exact rfl
    | simp -zeta -iota -proj only [Reach1.pair_iff]
    | with_reducible exact Reach1.fst (by assumption)
    | with_reducible (first
        | refine Reach.ite ?_ ?_
        | refine Reach1.ite ?_ ?_
        | refine Reach.foldl _ ?_ (fun _ _ _ => ?_)
        | refine Reach1.foldl _ ?_ (fun _ _ _ => ?_)
        | refine Reach1.fst (Reach1.foldl _ ?_ (fun _ _ _ => ?_))
        | apply Reach.then ?_ (State.installBig_reach ..) ?_
        | apply Reach.then ?_ (State.releaseBig_reach ..) ?_
        | apply Reach.then ?_ (State.retryAll_reach ..) ?_)
    | (extract_lets +onlyGivenNames -underBinder -merge -useContext x; first | (refine Reach.cut x ?_ (fun _ => ?_); rotate_left; clear_value x; rotate_left; unfold x; clear x) | (refine Reach.cutP x ?_ (fun _ => ?_); rotate_left; clear_value x; rotate_left; unfold x; clear x) | (have _ := fun a => x a; unfold x; clear x) | clear_value x)
    | (split <;> try (refine Reach.cut1 (by assumption) ?_ (fun _ => ?_)))
    | split)

end Sys2Proof.Machine
end

