-- ==== Sys2Proof/Laws/ReachWindows.lean ====
section
/-!
SUPPORT. The footprint of each function of Machine/Windows.lean.
-/
set_option linter.unusedTactic false
set_option linter.unreachableTactic false
namespace Sys2Proof.Machine

theorem State.refuse_reach (s : State) (h : Words4) (cause : Nat) : Reach 0x80001000000000000000000000000000000000000000000800000 s (State.refuse s h cause) := by
  have h0 := Reach.refl 0x80001000000000000000000000000000000000000000000800000 s
  unfold State.refuse
  repeat' (first
    | with_reducible assumption
    | exact rfl
    | with_reducible (first
        | refine Reach.bump ?_ ?_
        | apply Reach.then ?_ (State.post_reach ..) ?_)
    | (extract_lets +onlyGivenNames -underBinder -merge -useContext x; first | (refine Reach.cut x ?_ (fun _ => ?_); rotate_left; clear_value x; rotate_left; unfold x; clear x) | (have _ := fun a => x a; unfold x; clear x) | clear_value x))

theorem State.writeLine_reach (s : State) (g : Landing) (i : Nat) (l : LineSeg) : Reach1 0x40001000000000000000000000000001022011f820000000000000000000000000087c1d s (State.writeLine s g i l) := by
  have h0 := Reach.refl 0x40001000000000000000000000000001022011f820000000000000000000000000087c1d s
  unfold State.writeLine
  repeat' (first
    | with_reducible assumption
    | exact rfl
    | simp -zeta -iota -proj only [Reach1.pair_iff]
    | with_reducible exact Reach1.fst (by assumption)
    | with_reducible (first
        | refine Reach.ite ?_ ?_
        | refine Reach1.ite ?_ ?_
        | refine Reach.foldl _ ?_ (fun _ _ _ => ?_)
        | refine Reach1.foldl _ ?_ (fun _ _ _ => ?_)
        | refine Reach1.fst (Reach1.foldl _ ?_ (fun _ _ _ => ?_))
        | apply Reach.then ?_ (State.devWrite_reach ..) ?_
        | apply Reach.then ?_ (State.leavePoison_reach ..) ?_)
    | (extract_lets +onlyGivenNames -underBinder -merge -useContext x; first | (refine Reach.cut x ?_ (fun _ => ?_); rotate_left; clear_value x; rotate_left; unfold x; clear x) | (refine Reach1.cut x ?_ (fun _ => ?_); rotate_left; clear_value x; rotate_left; unfold x; clear x) | (refine Reach.cutP x ?_ (fun _ => ?_); rotate_left; clear_value x; rotate_left; unfold x; clear x) | (refine Reach1.cutP x ?_ (fun _ => ?_); rotate_left; clear_value x; rotate_left; unfold x; clear x) | (have _ := fun a => x a; unfold x; clear x) | clear_value x)
    | (split <;> try (first | refine Reach1.cut1 (by assumption) ?_ (fun _ => ?_) | refine Reach.cut1 (by assumption) ?_ (fun _ => ?_)))
    | split)

theorem State.takeLines_reach (s : State) (g : Landing) (y0 : Nat) (y1 : List LineTries) : Reach1 0x40001000000000000008002000000001022011f820000000000000000000000000887c1d s (State.takeLines s g y0 y1) := by
  induction y1 generalizing s g y0 with
  | nil =>
    have h0 := Reach.refl 0x40001000000000000008002000000001022011f820000000000000000000000000887c1d s
    unfold State.takeLines
    repeat' (first
    | with_reducible assumption
    | exact rfl
    | simp -zeta -iota -proj only [Reach1.pair_iff]
    | with_reducible exact Reach1.fst (by assumption)
    | with_reducible (first
        | refine Reach.bump ?_ ?_
        | refine Reach.ite ?_ ?_
        | refine Reach1.ite ?_ ?_
        | refine Reach.foldl _ ?_ (fun _ _ _ => ?_)
        | refine Reach1.foldl _ ?_ (fun _ _ _ => ?_)
        | refine Reach1.fst (Reach1.foldl _ ?_ (fun _ _ _ => ?_))
        | apply Reach.then ?_ (State.post_reach ..) ?_
        | apply Reach1.then ?_ (State.writeLine_reach ..) ?_
        | apply Reach1.fst (Reach1.then ?_ (State.writeLine_reach ..) ?_)
        | apply Reach1.then ?_ (ih ..) ?_)
    | (extract_lets +onlyGivenNames -underBinder -merge -useContext x; first | (refine Reach.cut x ?_ (fun _ => ?_); rotate_left; clear_value x; rotate_left; unfold x; clear x) | (refine Reach1.cut x ?_ (fun _ => ?_); rotate_left; clear_value x; rotate_left; unfold x; clear x) | (refine Reach.cutP x ?_ (fun _ => ?_); rotate_left; clear_value x; rotate_left; unfold x; clear x) | (refine Reach1.cutP x ?_ (fun _ => ?_); rotate_left; clear_value x; rotate_left; unfold x; clear x) | (have _ := fun a => x a; unfold x; clear x) | clear_value x)
    | (split <;> try (first | refine Reach1.cut1 (by assumption) ?_ (fun _ => ?_) | refine Reach.cut1 (by assumption) ?_ (fun _ => ?_)))
    | split)
  | cons _ _ ih =>
    have h0 := Reach.refl 0x40001000000000000008002000000001022011f820000000000000000000000000887c1d s
    unfold State.takeLines
    repeat' (first
    | with_reducible assumption
    | exact rfl
    | simp -zeta -iota -proj only [Reach1.pair_iff]
    | with_reducible exact Reach1.fst (by assumption)
    | with_reducible (first
        | refine Reach.bump ?_ ?_
        | refine Reach.ite ?_ ?_
        | refine Reach1.ite ?_ ?_
        | refine Reach.foldl _ ?_ (fun _ _ _ => ?_)
        | refine Reach1.foldl _ ?_ (fun _ _ _ => ?_)
        | refine Reach1.fst (Reach1.foldl _ ?_ (fun _ _ _ => ?_))
        | apply Reach.then ?_ (State.post_reach ..) ?_
        | apply Reach1.then ?_ (State.writeLine_reach ..) ?_
        | apply Reach1.fst (Reach1.then ?_ (State.writeLine_reach ..) ?_)
        | apply Reach1.then ?_ (ih ..) ?_)
    | (extract_lets +onlyGivenNames -underBinder -merge -useContext x; first | (refine Reach.cut x ?_ (fun _ => ?_); rotate_left; clear_value x; rotate_left; unfold x; clear x) | (refine Reach1.cut x ?_ (fun _ => ?_); rotate_left; clear_value x; rotate_left; unfold x; clear x) | (refine Reach.cutP x ?_ (fun _ => ?_); rotate_left; clear_value x; rotate_left; unfold x; clear x) | (refine Reach1.cutP x ?_ (fun _ => ?_); rotate_left; clear_value x; rotate_left; unfold x; clear x) | (have _ := fun a => x a; unfold x; clear x) | clear_value x)
    | (split <;> try (first | refine Reach1.cut1 (by assumption) ?_ (fun _ => ?_) | refine Reach.cut1 (by assumption) ?_ (fun _ => ?_)))
    | split)

theorem State.acceptMsg_reach (s : State) (link : Option (Fin 16)) (h : Words4) (lines : List LineTries) : Reach 0x40003000000400000008002280000001022011fa3b0c0120c00800000000000000d87cfd s (State.acceptMsg s link h lines) := by
  have h0 := Reach.refl 0x40003000000400000008002280000001022011fa3b0c0120c00800000000000000d87cfd s
  unfold State.acceptMsg
  repeat' (first
    | with_reducible assumption
    | exact rfl
    | simp -zeta -iota -proj only [Reach1.pair_iff]
    | with_reducible exact Reach1.fst (by assumption)
    | with_reducible (first
        | refine Reach.bump ?_ ?_
        | refine Reach.ite ?_ ?_
        | apply Reach.then ?_ (State.post_reach ..) ?_
        | apply Reach.then ?_ (State.putLanding_reach ..) ?_
        | apply Reach.then ?_ (State.putSlotToken_reach ..) ?_
        | apply Reach.then ?_ (State.setEpoch_reach ..) ?_
        | apply Reach.then ?_ (State.settleLandings_reach ..) ?_
        | apply Reach1.then ?_ (State.takeLines_reach ..) ?_
        | apply Reach1.fst (Reach1.then ?_ (State.takeLines_reach ..) ?_))
    | (extract_lets +onlyGivenNames -underBinder -merge -useContext x; first | (refine Reach.cut x ?_ (fun _ => ?_); rotate_left; clear_value x; rotate_left; unfold x; clear x) | (refine Reach.cutP x ?_ (fun _ => ?_); rotate_left; clear_value x; rotate_left; unfold x; clear x) | (have _ := fun a => x a; unfold x; clear x) | clear_value x)
    | (split <;> try (refine Reach.cut1 (by assumption) ?_ (fun _ => ?_)))
    | split
    | with_reducible (first
        | refine Reach.set_fabric ?_ ?_))

theorem State.takeHeader_reach (s : State) (link : Option (Fin 16)) (h : Words4) (lines : List LineTries) : Reach 0x40003000000400000008002380000001022011fa3b0c0120c00800000000000000d87cfd s (State.takeHeader s link h lines) := by
  have h0 := Reach.refl 0x40003000000400000008002380000001022011fa3b0c0120c00800000000000000d87cfd s
  unfold State.takeHeader
  repeat' (first
    | with_reducible assumption
    | exact rfl
    | with_reducible (first
        | refine Reach.ite ?_ ?_
        | apply Reach.then ?_ (State.acceptMsg_reach ..) ?_
        | apply Reach.then ?_ (State.refuse_reach ..) ?_)
    | (extract_lets +onlyGivenNames -underBinder -merge -useContext x; first | (refine Reach.cut x ?_ (fun _ => ?_); rotate_left; clear_value x; rotate_left; unfold x; clear x) | (have _ := fun a => x a; unfold x; clear x) | clear_value x)
    | (split <;> try (refine Reach.cut1 (by assumption) ?_ (fun _ => ?_)))
    | split
    | with_reducible (first
        | refine Reach.set_fabric ?_ ?_))

theorem State.arrived_reach (s : State) (h : Words4) : Reach 0x900000 s (State.arrived s h) := by
  have h0 := Reach.refl 0x900000 s
  unfold State.arrived
  repeat' (first
    | with_reducible assumption
    | exact rfl
    | with_reducible (first
        | refine Reach.ite ?_ ?_
        | apply Reach.then ?_ (State.markSent_reach ..) ?_)
    | (extract_lets +onlyGivenNames -underBinder -merge -useContext x; first | (refine Reach.cut x ?_ (fun _ => ?_); rotate_left; clear_value x; rotate_left; unfold x; clear x) | (have _ := fun a => x a; unfold x; clear x) | clear_value x)
    | (split <;> try (refine Reach.cut1 (by assumption) ?_ (fun _ => ?_)))
    | split
    | with_reducible (first
        | refine Reach.set_fabric ?_ ?_))

theorem State.headerArrives_reach (s : State) (link : Option (Fin 16)) (h : Words4) (lines : List LineTries) : Reach 0x40003000000400000008002380000001022011fa3b0c0120c00800000000000000d87cfd s (State.headerArrives s link h lines) := by
  have h0 := Reach.refl 0x40003000000400000008002380000001022011fa3b0c0120c00800000000000000d87cfd s
  unfold State.headerArrives
  repeat' (first
    | with_reducible assumption
    | exact rfl
    | with_reducible (first
        | refine Reach.ite ?_ ?_
        | apply Reach.then ?_ (State.arrived_reach ..) ?_
        | apply Reach.then ?_ (State.takeHeader_reach ..) ?_)
    | (extract_lets +onlyGivenNames -underBinder -merge -useContext x; first | (refine Reach.cut x ?_ (fun _ => ?_); rotate_left; clear_value x; rotate_left; unfold x; clear x) | (have _ := fun a => x a; unfold x; clear x) | clear_value x)
    | (split <;> try (refine Reach.cut1 (by assumption) ?_ (fun _ => ?_)))
    | split
    | with_reducible (first
        | refine Reach.set_fabric ?_ ?_))

theorem putEffect_reach (link : Option (Fin 16)) (header : Words4) (lines : List LineTries) (s : State) : Reach 0x40003000000400000008002380000001022011fa3b0c0120c00800000000000000d87cfd s (putEffect link header lines s) := by
  have h0 := Reach.refl 0x40003000000400000008002380000001022011fa3b0c0120c00800000000000000d87cfd s
  unfold putEffect
  repeat' (first
    | with_reducible assumption
    | exact rfl
    | with_reducible (first
        | refine Reach.ite ?_ ?_
        | apply Reach.then ?_ (State.headerArrives_reach ..) ?_)
    | (split <;> try (refine Reach.cut1 (by assumption) ?_ (fun _ => ?_)))
    | split)

theorem getReqEffect_reach (link : Option (Fin 16)) (header : Words4) (s : State) : Reach 0x40003000000400000008002380000001022011fa3b0c0120c00800000000000000d87cfd s (getReqEffect link header s) := by
  have h0 := Reach.refl 0x40003000000400000008002380000001022011fa3b0c0120c00800000000000000d87cfd s
  unfold getReqEffect
  repeat' (first
    | with_reducible assumption
    | exact rfl
    | with_reducible (first
        | refine Reach.ite ?_ ?_
        | apply Reach.then ?_ (State.headerArrives_reach ..) ?_)
    | (split <;> try (refine Reach.cut1 (by assumption) ?_ (fun _ => ?_)))
    | split)

theorem ringSlotAcceptEffect_reach (die : Fin 2) (s : State) : Reach 0x40003000000400000008002380000001022011fa3b0c0120c00800000000000000d87cfd s (ringSlotAcceptEffect die s) := by
  have h0 := Reach.refl 0x40003000000400000008002380000001022011fa3b0c0120c00800000000000000d87cfd s
  unfold ringSlotAcceptEffect
  repeat' (first
    | with_reducible assumption
    | exact rfl
    | simp -zeta -iota -proj only [Reach1.pair_iff]
    | with_reducible exact Reach1.fst (by assumption)
    | with_reducible (first
        | refine Reach.ite ?_ ?_
        | refine Reach1.ite ?_ ?_
        | refine Reach.foldl _ ?_ (fun _ _ _ => ?_)
        | refine Reach1.foldl _ ?_ (fun _ _ _ => ?_)
        | refine Reach1.fst (Reach1.foldl _ ?_ (fun _ _ _ => ?_))
        | apply Reach.then ?_ (State.takeHeader_reach ..) ?_)
    | (extract_lets +onlyGivenNames -underBinder -merge -useContext x; first | (refine Reach.cut x ?_ (fun _ => ?_); rotate_left; clear_value x; rotate_left; unfold x; clear x) | (refine Reach.cutP x ?_ (fun _ => ?_); rotate_left; clear_value x; rotate_left; unfold x; clear x) | (have _ := fun a => x a; unfold x; clear x) | clear_value x)
    | (split <;> try (refine Reach.cut1 (by assumption) ?_ (fun _ => ?_)))
    | split
    | with_reducible (first
        | refine Reach.set_fabric ?_ ?_))

theorem State.deliverGet_reach (s : State) (m : OriginMsg) (bs : List Byte) (bad : List Nat) : Reach 0x40003000000200c0000000000000600102a011fe3b0f6120d80dff0c0000001002787dff s (State.deliverGet s m bs bad) := by
  have h0 := Reach.refl 0x40003000000200c0000000000000600102a011fe3b0f6120d80dff0c0000001002787dff s
  unfold State.deliverGet
  repeat' (first
    | with_reducible assumption
    | exact rfl
    | with_reducible (first
        | apply Reach.then ?_ (State.retryStage_reach ..) ?_
        | apply Reach.then ?_ (State.setChain_reach ..) ?_)
    | (split <;> try (refine Reach.cut1 (by assumption) ?_ (fun _ => ?_)))
    | split)

theorem getDataEffect_reach (header : Words4) (lines : List LineTries) (s : State) : Reach 0x40003000000200c0000000040000600102a011fe3b0f6120d80dff0c0000001002f87dff s (getDataEffect header lines s) := by
  have h0 := Reach.refl 0x40003000000200c0000000040000600102a011fe3b0f6120d80dff0c0000001002f87dff s
  unfold getDataEffect
  repeat' (first
    | with_reducible assumption
    | exact rfl
    | with_reducible (first
        | refine Reach.ite ?_ ?_
        | apply Reach.then ?_ (State.arrived_reach ..) ?_
        | apply Reach.then ?_ (State.deliverGet_reach ..) ?_
        | apply Reach.then ?_ (State.msgOutcome_reach ..) ?_)
    | (extract_lets +onlyGivenNames -underBinder -merge -useContext x; first | (refine Reach.cut x ?_ (fun _ => ?_); rotate_left; clear_value x; rotate_left; unfold x; clear x) | (have _ := fun a => x a; unfold x; clear x) | clear_value x)
    | (split <;> try (refine Reach.cut1 (by assumption) ?_ (fun _ => ?_)))
    | split)

theorem acceptEffect_reach (header : Words4) (s : State) : Reach 0x4000000000000000000000000000000000000000000900000 s (acceptEffect header s) := by
  have h0 := Reach.refl 0x4000000000000000000000000000000000000000000900000 s
  unfold acceptEffect
  repeat' (first
    | with_reducible assumption
    | exact rfl
    | with_reducible (first
        | refine Reach.bump ?_ ?_
        | refine Reach.ite ?_ ?_
        | apply Reach.then ?_ (State.arrived_reach ..) ?_)
    | (extract_lets +onlyGivenNames -underBinder -merge -useContext x; first | (refine Reach.cut x ?_ (fun _ => ?_); rotate_left; clear_value x; rotate_left; unfold x; clear x) | (have _ := fun a => x a; unfold x; clear x) | clear_value x)
    | (split <;> try (refine Reach.cut1 (by assumption) ?_ (fun _ => ?_)))
    | split)

theorem State.stopLines_reach (s : State) (h : Words4) : Reach 0x800000 s (State.stopLines s h) := by
  have h0 := Reach.refl 0x800000 s
  unfold State.stopLines
  repeat' (first
    | with_reducible assumption
    | exact rfl
    | simp -zeta -iota -proj only [Reach1.pair_iff]
    | with_reducible exact Reach1.fst (by assumption)
    | with_reducible (first
        | refine Reach.ite ?_ ?_
        | refine Reach1.ite ?_ ?_
        | refine Reach.foldl _ ?_ (fun _ _ _ => ?_)
        | refine Reach1.foldl _ ?_ (fun _ _ _ => ?_)
        | refine Reach1.fst (Reach1.foldl _ ?_ (fun _ _ _ => ?_))
        | apply Reach.then ?_ (State.setLink_reach ..) ?_)
    | (extract_lets +onlyGivenNames -underBinder -merge -useContext x; first | (refine Reach.cut x ?_ (fun _ => ?_); rotate_left; clear_value x; rotate_left; unfold x; clear x) | (refine Reach.cutP x ?_ (fun _ => ?_); rotate_left; clear_value x; rotate_left; unfold x; clear x) | (have _ := fun a => x a; unfold x; clear x) | clear_value x)
    | (split <;> try (refine Reach.cut1 (by assumption) ?_ (fun _ => ?_)))
    | split
    | dsimp -zeta only [])

theorem refuseEffect_reach (header : Words4) (s : State) : Reach 0x200000000000000000040000000000000002000c0120000800000000000000d834e0 s (refuseEffect header s) := by
  have h0 := Reach.refl 0x200000000000000000040000000000000002000c0120000800000000000000d834e0 s
  unfold refuseEffect
  repeat' (first
    | with_reducible assumption
    | exact rfl
    | with_reducible (first
        | refine Reach.ite ?_ ?_
        | apply Reach.then ?_ (State.arrived_reach ..) ?_
        | apply Reach.then ?_ (State.msgOutcome_reach ..) ?_
        | apply Reach.then ?_ (State.stopLines_reach ..) ?_)
    | (extract_lets +onlyGivenNames -underBinder -merge -useContext x; first | (refine Reach.cut x ?_ (fun _ => ?_); rotate_left; clear_value x; rotate_left; unfold x; clear x) | (have _ := fun a => x a; unfold x; clear x) | clear_value x)
    | (split <;> try (refine Reach.cut1 (by assumption) ?_ (fun _ => ?_)))
    | split)

theorem landedEffect_reach (header : Words4) (s : State) : Reach 0x200000000000000000040000000000000002000c0120000800000000000000d834e0 s (landedEffect header s) := by
  have h0 := Reach.refl 0x200000000000000000040000000000000002000c0120000800000000000000d834e0 s
  unfold landedEffect
  repeat' (first
    | with_reducible assumption
    | exact rfl
    | with_reducible (first
        | refine Reach.ite ?_ ?_
        | apply Reach.then ?_ (State.arrived_reach ..) ?_
        | apply Reach.then ?_ (State.msgOutcome_reach ..) ?_)
    | (extract_lets +onlyGivenNames -underBinder -merge -useContext x; first | (refine Reach.cut x ?_ (fun _ => ?_); rotate_left; clear_value x; rotate_left; unfold x; clear x) | (have _ := fun a => x a; unfold x; clear x) | clear_value x)
    | (split <;> try (refine Reach.cut1 (by assumption) ?_ (fun _ => ?_)))
    | split)

theorem relineEffect_reach (header : Words4) (s : State) : Reach 0x4000000000000000000000000000000000000000000900000 s (relineEffect header s) := by
  have h0 := Reach.refl 0x4000000000000000000000000000000000000000000900000 s
  unfold relineEffect
  repeat' (first
    | with_reducible assumption
    | exact rfl
    | with_reducible (first
        | refine Reach.bump ?_ ?_
        | refine Reach.ite ?_ ?_
        | apply Reach.then ?_ (State.arrived_reach ..) ?_
        | apply Reach.then ?_ (State.enqueue_reach ..) ?_)
    | (extract_lets +onlyGivenNames -underBinder -merge -useContext x; first | (refine Reach.cut x ?_ (fun _ => ?_); rotate_left; clear_value x; rotate_left; unfold x; clear x) | (have _ := fun a => x a; unfold x; clear x) | clear_value x)
    | (split <;> try (refine Reach.cut1 (by assumption) ?_ (fun _ => ?_)))
    | split)

theorem lostEffect_reach (header : Words4) (s : State) : Reach 0x200000000000000000040000000000000002000c0120000800000000000000d834e0 s (lostEffect header s) := by
  have h0 := Reach.refl 0x200000000000000000040000000000000002000c0120000800000000000000d834e0 s
  unfold lostEffect
  repeat' (first
    | with_reducible assumption
    | exact rfl
    | with_reducible (first
        | refine Reach.ite ?_ ?_
        | apply Reach.then ?_ (State.arrived_reach ..) ?_
        | apply Reach.then ?_ (State.msgOutcome_reach ..) ?_)
    | (split <;> try (refine Reach.cut1 (by assumption) ?_ (fun _ => ?_)))
    | split)

theorem msgResponseTimeoutEffect_reach (atTarget : Bool) (tag : BitVec 16) (pkg : BitVec 12) (ms : BitVec 32) (s : State) : Reach 0x3000000400000008000600000001022011fa3b0c0120c00800000000000000d87cfd s (msgResponseTimeoutEffect atTarget tag pkg ms s) := by
  have h0 := Reach.refl 0x3000000400000008000600000001022011fa3b0c0120c00800000000000000d87cfd s
  unfold msgResponseTimeoutEffect
  repeat' (first
    | with_reducible assumption
    | exact rfl
    | with_reducible (first
        | refine Reach.ite ?_ ?_
        | apply Reach.then ?_ (State.msgOutcome_reach ..) ?_
        | apply Reach.then ?_ (State.putLanding_reach ..) ?_
        | apply Reach.then ?_ (State.settleLandings_reach ..) ?_)
    | (split <;> try (refine Reach.cut1 (by assumption) ?_ (fun _ => ?_)))
    | split)

theorem State.winIgnored_reach (s : State) (die : Nat) : Reach 0x8000000000000000000000000000000000000000000000000 s (State.winIgnored s die) := by
  have h0 := Reach.refl 0x8000000000000000000000000000000000000000000000000 s
  unfold State.winIgnored
  repeat' (first
    | with_reducible assumption
    | exact rfl
    | with_reducible (first
        | refine Reach.bump ?_ ?_))

theorem windowOpenEffect_reach (die : Fin 2) (value : Word) (s : State) : Reach 0xc8400000000000000000000000000000000000000000800000 s (windowOpenEffect die value s) := by
  have h0 := Reach.refl 0xc8400000000000000000000000000000000000000000800000 s
  unfold windowOpenEffect
  repeat' (first
    | with_reducible assumption
    | exact rfl
    | with_reducible (first
        | refine Reach.setFld ?_ ?_
        | refine Reach.storeReg ?_ ?_
        | refine Reach.ite ?_ ?_
        | apply Reach.then ?_ (State.setEpoch_reach ..) ?_
        | apply Reach.then ?_ (State.winIgnored_reach ..) ?_)
    | (extract_lets +onlyGivenNames -underBinder -merge -useContext x; first | (refine Reach.cut x ?_ (fun _ => ?_); rotate_left; clear_value x; rotate_left; unfold x; clear x) | (have _ := fun a => x a; unfold x; clear x) | clear_value x)
    | (split <;> try (refine Reach.cut1 (by assumption) ?_ (fun _ => ?_)))
    | split)

theorem windowCloseEffect_reach (die : Fin 2) (value : Word) (s : State) : Reach 0x80089400000000000000000000000000000000000000000800000 s (windowCloseEffect die value s) := by
  have h0 := Reach.refl 0x80089400000000000000000000000000000000000000000800000 s
  unfold windowCloseEffect
  repeat' (first
    | with_reducible assumption
    | exact rfl
    | simp -zeta -iota -proj only [Reach1.pair_iff]
    | with_reducible exact Reach1.fst (by assumption)
    | with_reducible (first
        | refine Reach.setFld ?_ ?_
        | refine Reach.storeReg ?_ ?_
        | refine Reach.ite ?_ ?_
        | refine Reach1.ite ?_ ?_
        | refine Reach.foldl _ ?_ (fun _ _ _ => ?_)
        | refine Reach1.foldl _ ?_ (fun _ _ _ => ?_)
        | refine Reach1.fst (Reach1.foldl _ ?_ (fun _ _ _ => ?_))
        | apply Reach.then ?_ (State.refuse_reach ..) ?_
        | apply Reach.then ?_ (State.winIgnored_reach ..) ?_)
    | (extract_lets +onlyGivenNames -underBinder -merge -useContext x; first | (refine Reach.cut x ?_ (fun _ => ?_); rotate_left; clear_value x; rotate_left; unfold x; clear x) | (refine Reach.cutP x ?_ (fun _ => ?_); rotate_left; clear_value x; rotate_left; unfold x; clear x) | (have _ := fun a => x a; unfold x; clear x) | clear_value x)
    | (split <;> try (refine Reach.cut1 (by assumption) ?_ (fun _ => ?_)))
    | split
    | dsimp -zeta only []
    | with_reducible (first
        | refine Reach.set_fabric ?_ ?_))

theorem windowCloseRecordEffect_reach (die : Fin 2) (entry : BitVec 9) (s : State) : Reach 0x40003000000400000000008000000001022011fa200c0120000800000000000000d87cfd s (windowCloseRecordEffect die entry s) := by
  have h0 := Reach.refl 0x40003000000400000000008000000001022011fa200c0120000800000000000000d87cfd s
  unfold windowCloseRecordEffect
  repeat' (first
    | with_reducible assumption
    | exact rfl
    | with_reducible (first
        | refine Reach.setFld ?_ ?_
        | refine Reach.ite ?_ ?_
        | apply Reach.then ?_ (State.headFails_reach ..) ?_
        | apply Reach.then ?_ (State.writeRecord_reach ..) ?_)
    | (extract_lets +onlyGivenNames -underBinder -merge -useContext x; first | (refine Reach.cut x ?_ (fun _ => ?_); rotate_left; clear_value x; rotate_left; unfold x; clear x) | (have _ := fun a => x a; unfold x; clear x) | clear_value x)
    | (split <;> try (refine Reach.cut1 (by assumption) ?_ (fun _ => ?_)))
    | split)

theorem rebuildReqEffect_reach (header : Words4) (s : State) : Reach 0x1000000000000008000000000001022011f83b000000c00000000000000000987c1d s (rebuildReqEffect header s) := by
  have h0 := Reach.refl 0x1000000000000008000000000001022011f83b000000c00000000000000000987c1d s
  unfold rebuildReqEffect
  repeat' (first
    | with_reducible assumption
    | exact rfl
    | simp -zeta -iota -proj only [Reach1.pair_iff]
    | with_reducible exact Reach1.fst (by assumption)
    | with_reducible (first
        | refine Reach.ite ?_ ?_
        | apply Reach.then ?_ (State.arrived_reach ..) ?_
        | apply Reach.then ?_ (State.post_reach ..) ?_
        | apply Reach1.then ?_ (State.readLine_reach ..) ?_
        | apply Reach1.fst (Reach1.then ?_ (State.readLine_reach ..) ?_))
    | (extract_lets +onlyGivenNames -underBinder -merge -useContext x; first | (refine Reach.cut x ?_ (fun _ => ?_); rotate_left; clear_value x; rotate_left; unfold x; clear x) | (refine Reach.cutP x ?_ (fun _ => ?_); rotate_left; clear_value x; rotate_left; unfold x; clear x) | (have _ := fun a => x a; unfold x; clear x) | clear_value x)
    | (split <;> try (refine Reach.cut1 (by assumption) ?_ (fun _ => ?_)))
    | split)

theorem rebuildDataEffect_reach (header : Words4) (line : LineSeg) (s : State) : Reach 0x40003000000200c000000000000060011ea011fe3b0f6120d80dff0c0000001002f87dff s (rebuildDataEffect header line s) := by
  have h0 := Reach.refl 0x40003000000200c000000000000060011ea011fe3b0f6120d80dff0c0000001002f87dff s
  unfold rebuildDataEffect
  repeat' (first
    | with_reducible assumption
    | exact rfl
    | with_reducible (first
        | refine Reach.ite ?_ ?_
        | apply Reach.then ?_ (State.arrived_reach ..) ?_
        | apply Reach.then ?_ (State.failRebuild_reach ..) ?_
        | apply Reach.then ?_ (State.writeRebuilt_reach ..) ?_)
    | (extract_lets +onlyGivenNames -underBinder -merge -useContext x; first | (refine Reach.cut x ?_ (fun _ => ?_); rotate_left; clear_value x; rotate_left; unfold x; clear x) | (have _ := fun a => x a; unfold x; clear x) | clear_value x)
    | (split <;> try (refine Reach.cut1 (by assumption) ?_ (fun _ => ?_)))
    | split)

theorem messageForwardEffect_reach (die : Fin 2) (header : Words4) (lines : List LineSeg) (s : State) : Reach 0x80000000000000000000000000000000000000000000000800000 s (messageForwardEffect die header lines s) := by
  have h0 := Reach.refl 0x80000000000000000000000000000000000000000000000800000 s
  unfold messageForwardEffect
  repeat' (first
    | with_reducible assumption
    | exact rfl
    | with_reducible (first
        | refine Reach.ite ?_ ?_
        | apply Reach.then ?_ (State.sendMsg_reach ..) ?_)
    | (split <;> try (refine Reach.cut1 (by assumption) ?_ (fun _ => ?_)))
    | split)

theorem heldMessageReleaseEffect_reach (die : Fin 2) (s : State) : Reach 0x80000000000000000000000000000000000000000000000800000 s (heldMessageReleaseEffect die s) := by
  have h0 := Reach.refl 0x80000000000000000000000000000000000000000000000800000 s
  unfold heldMessageReleaseEffect
  repeat' (first
    | with_reducible assumption
    | exact rfl
    | simp -zeta -iota -proj only [Reach1.pair_iff]
    | with_reducible exact Reach1.fst (by assumption)
    | with_reducible (first
        | refine Reach.ite ?_ ?_
        | refine Reach1.ite ?_ ?_
        | refine Reach.foldl _ ?_ (fun _ _ _ => ?_)
        | refine Reach1.foldl _ ?_ (fun _ _ _ => ?_)
        | refine Reach1.fst (Reach1.foldl _ ?_ (fun _ _ _ => ?_))
        | apply Reach.then ?_ (State.sendMsg_reach ..) ?_)
    | (extract_lets +onlyGivenNames -underBinder -merge -useContext x; first | (refine Reach.cut x ?_ (fun _ => ?_); rotate_left; clear_value x; rotate_left; unfold x; clear x) | (refine Reach.cutP x ?_ (fun _ => ?_); rotate_left; clear_value x; rotate_left; unfold x; clear x) | (have _ := fun a => x a; unfold x; clear x) | clear_value x)
    | (split <;> try (refine Reach.cut1 (by assumption) ?_ (fun _ => ?_)))
    | split
    | with_reducible (first
        | refine Reach.set_fabric ?_ ?_))

end Sys2Proof.Machine
end

