-- ==== Sys2Proof/Laws/ReachDaymark.lean ====
section
/-!
SUPPORT. The footprint of each function of Machine/Daymark.lean.
-/
set_option linter.unusedTactic false
set_option linter.unreachableTactic false
namespace Sys2Proof.Machine

theorem daymarkTakeEffectEffect_reach (index : BitVec 12) (s : State) : Reach 0x40001000000741200000000000000003022411f820800000000000000000000006887c1d s (daymarkTakeEffectEffect index s) := by
  have h0 := Reach.refl 0x40001000000741200000000000000003022411f820800000000000000000000006887c1d s
  unfold daymarkTakeEffectEffect
  repeat' (first
    | with_reducible assumption
    | exact rfl
    | simp -zeta -iota -proj only [Reach1.pair_iff]
    | with_reducible exact Reach1.fst (by assumption)
    | with_reducible (first
        | refine Reach.bumpBoth ?_ ?_
        | refine Reach.ite ?_ ?_
        | refine Reach1.ite ?_ ?_
        | refine Reach.foldl _ ?_ (fun _ _ _ => ?_)
        | refine Reach1.foldl _ ?_ (fun _ _ _ => ?_)
        | refine Reach1.fst (Reach1.foldl _ ?_ (fun _ _ _ => ?_))
        | apply Reach.then ?_ (State.completeRecord_reach ..) ?_
        | apply Reach.then ?_ (State.dmHeader_reach ..) ?_
        | apply Reach.then ?_ (State.dput_reach ..) ?_
        | apply Reach.then ?_ (State.enterCopiers_reach ..) ?_
        | apply Reach.then ?_ (State.putTokens_reach ..) ?_
        | apply Reach.then ?_ (State.setFrame_reach ..) ?_
        | apply Reach.then ?_ (State.setRec_reach ..) ?_
        | apply Reach.then ?_ (State.setRecState_reach ..) ?_)
    | (extract_lets +onlyGivenNames -underBinder -merge -useContext x; first | (refine Reach.cut x ?_ (fun _ => ?_); rotate_left; clear_value x; rotate_left; unfold x; clear x) | (refine Reach.cutP x ?_ (fun _ => ?_); rotate_left; clear_value x; rotate_left; unfold x; clear x) | (have _ := fun a => x a; unfold x; clear x) | clear_value x)
    | (split <;> try (refine Reach.cut1 (by assumption) ?_ (fun _ => ?_)))
    | split
    | with_reducible (first
        | refine Reach.set_daymarks ?_ ?_))

theorem State.pageCopied_reach (s : State) (v : Nat) (d : Daymark) (c : DmCopy) (p : DmPage) (frame : Nat) : Reach 0x400030000007400000080002000000e303a411fa3b8c0120c0080000000000000ed87cfd s (State.pageCopied s v d c p frame) := by
  have h0 := Reach.refl 0x400030000007400000080002000000e303a411fa3b8c0120c0080000000000000ed87cfd s
  unfold State.pageCopied
  repeat' (first
    | with_reducible assumption
    | exact rfl
    | simp -zeta -iota -proj only [Reach1.pair_iff]
    | with_reducible exact Reach1.fst (by assumption)
    | with_reducible (first
        | refine Reach.bump ?_ ?_
        | refine Reach.ite ?_ ?_
        | apply Reach1.then ?_ (State.dmCopyPage_reach ..) ?_
        | apply Reach1.fst (Reach1.then ?_ (State.dmCopyPage_reach ..) ?_)
        | apply Reach.then ?_ (State.dmEntry_reach ..) ?_
        | apply Reach.then ?_ (State.endAct_reach ..) ?_
        | apply Reach.then ?_ (State.setDaymark_reach ..) ?_
        | apply Reach.then ?_ (State.showDaymarks_reach ..) ?_
        | apply Reach.then ?_ (State.unprotect_reach ..) ?_
        | apply Reach.then ?_ (State.wakeCopier_reach ..) ?_)
    | (extract_lets +onlyGivenNames -underBinder -merge -useContext x; first | (refine Reach.cut x ?_ (fun _ => ?_); rotate_left; clear_value x; rotate_left; unfold x; clear x) | (refine Reach.cutP x ?_ (fun _ => ?_); rotate_left; clear_value x; rotate_left; unfold x; clear x) | (have _ := fun a => x a; unfold x; clear x) | clear_value x)
    | (split <;> try (refine Reach.cut1 (by assumption) ?_ (fun _ => ?_)))
    | split
    | with_reducible (first
        | refine Reach.set_copying ?_ ?_))

theorem pageCopyDoneEffect_reach (die : Fin 2) (failed : Bool) (s : State) : Reach 0x400030000007412000080002000001e303a411fa3b8c0120c0080000000000000ed87cfd s (pageCopyDoneEffect die failed s) := by
  have h0 := Reach.refl 0x400030000007412000080002000001e303a411fa3b8c0120c0080000000000000ed87cfd s
  unfold pageCopyDoneEffect
  repeat' (first
    | with_reducible assumption
    | exact rfl
    | with_reducible (first
        | refine Reach.ite ?_ ?_
        | apply Reach.then ?_ (State.failDaymark_reach ..) ?_
        | apply Reach.then ?_ (State.pageCopied_reach ..) ?_
        | apply Reach.then ?_ (State.wakeCopier_reach ..) ?_)
    | (extract_lets +onlyGivenNames -underBinder -merge -useContext x; first | (refine Reach.cut x ?_ (fun _ => ?_); rotate_left; clear_value x; rotate_left; unfold x; clear x) | (have _ := fun a => x a; unfold x; clear x) | clear_value x)
    | (split <;> try (refine Reach.cut1 (by assumption) ?_ (fun _ => ?_)))
    | split)

theorem daymarkCommitEffect_reach (index : BitVec 12) (s : State) : Reach 0x4000300000074120000800020000000303a411fa3b8c0120c0080000000000000ed87cfd s (daymarkCommitEffect index s) := by
  have h0 := Reach.refl 0x4000300000074120000800020000000303a411fa3b8c0120c0080000000000000ed87cfd s
  unfold daymarkCommitEffect
  repeat' (first
    | with_reducible assumption
    | exact rfl
    | with_reducible (first
        | refine Reach.ite ?_ ?_
        | apply Reach.then ?_ (State.closeDaymark_reach ..) ?_
        | apply Reach.then ?_ (State.completeRecord_reach ..) ?_
        | apply Reach.then ?_ (State.dmHeader_reach ..) ?_
        | apply Reach.then ?_ (State.dput_reach ..) ?_)
    | (extract_lets +onlyGivenNames -underBinder -merge -useContext x; first | (refine Reach.cut x ?_ (fun _ => ?_); rotate_left; clear_value x; rotate_left; unfold x; clear x) | (have _ := fun a => x a; unfold x; clear x) | clear_value x)
    | (split <;> try (refine Reach.cut1 (by assumption) ?_ (fun _ => ?_)))
    | split)

theorem daymarkRestoreEffect_reach (die : Fin 2) (value : Word) (s : State) : Reach 0x140000000000000000000000000000000010000000 s (daymarkRestoreEffect die value s) := by
  have h0 := Reach.refl 0x140000000000000000000000000000000010000000 s
  unfold daymarkRestoreEffect
  repeat' (first
    | with_reducible assumption
    | exact rfl
    | with_reducible (first
        | refine Reach.wr ?_ ?_
        | refine Reach.storeReg ?_ ?_
        | refine Reach.ite ?_ ?_)
    | (extract_lets +onlyGivenNames -underBinder -merge -useContext x; first | (refine Reach.cut x ?_ (fun _ => ?_); rotate_left; clear_value x; rotate_left; unfold x; clear x) | (have _ := fun a => x a; unfold x; clear x) | clear_value x)
    | (split <;> try (refine Reach.cut1 (by assumption) ?_ (fun _ => ?_)))
    | split
    | with_reducible (first
        | refine Reach.set_restores ?_ ?_))

theorem State.restorePages_reach (s : State) (die : Nat) (owner : Nat) (image : Nat) (count : Nat) (fetched : List (BitVec 64 × List Byte)) (y0 : Nat) (y1 : Nat) (y2 : Nat) : Reach1 0x40001000000000000000000000000001022011f820000000000000000000000000087c1d s (State.restorePages s die owner image count fetched y0 y1 y2) := by
  induction y0 generalizing s die owner image count fetched y1 y2 with
  | zero =>
    have h0 := Reach.refl 0x40001000000000000000000000000001022011f820000000000000000000000000087c1d s
    unfold State.restorePages
    repeat' (first
    | with_reducible assumption
    | exact rfl
    | simp -zeta -iota -proj only [Reach1.pair_iff]
    | with_reducible exact Reach1.fst (by assumption)
    | with_reducible (first
        | refine Reach.ite ?_ ?_
        | refine Reach1.ite ?_ ?_
        | apply Reach.then ?_ (State.devWrite_reach ..) ?_
        | apply Reach.then ?_ (State.leavePoison_reach ..) ?_
        | apply Reach1.then ?_ (ih ..) ?_)
    | (extract_lets +onlyGivenNames -underBinder -merge -useContext x; first | (refine Reach.cut x ?_ (fun _ => ?_); rotate_left; clear_value x; rotate_left; unfold x; clear x) | (refine Reach1.cut x ?_ (fun _ => ?_); rotate_left; clear_value x; rotate_left; unfold x; clear x) | (refine Reach.cutP x ?_ (fun _ => ?_); rotate_left; clear_value x; rotate_left; unfold x; clear x) | (refine Reach1.cutP x ?_ (fun _ => ?_); rotate_left; clear_value x; rotate_left; unfold x; clear x) | (have _ := fun a => x a; unfold x; clear x) | clear_value x)
    | (split <;> try (first | refine Reach1.cut1 (by assumption) ?_ (fun _ => ?_) | refine Reach.cut1 (by assumption) ?_ (fun _ => ?_)))
    | split)
  | succ _ ih =>
    have h0 := Reach.refl 0x40001000000000000000000000000001022011f820000000000000000000000000087c1d s
    unfold State.restorePages
    repeat' (first
    | with_reducible assumption
    | exact rfl
    | simp -zeta -iota -proj only [Reach1.pair_iff]
    | with_reducible exact Reach1.fst (by assumption)
    | with_reducible (first
        | refine Reach.ite ?_ ?_
        | refine Reach1.ite ?_ ?_
        | apply Reach.then ?_ (State.devWrite_reach ..) ?_
        | apply Reach.then ?_ (State.leavePoison_reach ..) ?_
        | apply Reach1.then ?_ (ih ..) ?_)
    | (extract_lets +onlyGivenNames -underBinder -merge -useContext x; first | (refine Reach.cut x ?_ (fun _ => ?_); rotate_left; clear_value x; rotate_left; unfold x; clear x) | (refine Reach1.cut x ?_ (fun _ => ?_); rotate_left; clear_value x; rotate_left; unfold x; clear x) | (refine Reach.cutP x ?_ (fun _ => ?_); rotate_left; clear_value x; rotate_left; unfold x; clear x) | (refine Reach1.cutP x ?_ (fun _ => ?_); rotate_left; clear_value x; rotate_left; unfold x; clear x) | (have _ := fun a => x a; unfold x; clear x) | clear_value x)
    | (split <;> try (first | refine Reach1.cut1 (by assumption) ?_ (fun _ => ?_) | refine Reach.cut1 (by assumption) ?_ (fun _ => ?_)))
    | split)

theorem State.restoreImage_reach (s : State) (d : Nat) (owner : Nat) (image : Nat) (count : Nat) (good : Bool) (fetched : List (BitVec 64 × List Byte)) : Reach 0x40001000000000000000000000000211022011f83b000000c00000000000000010087c1d s (State.restoreImage s d owner image count good fetched) := by
  have h0 := Reach.refl 0x40001000000000000000000000000211022011f83b000000c00000000000000010087c1d s
  unfold State.restoreImage
  repeat' (first
    | with_reducible assumption
    | exact rfl
    | simp -zeta -iota -proj only [Reach1.pair_iff]
    | with_reducible exact Reach1.fst (by assumption)
    | with_reducible (first
        | refine Reach.wr ?_ ?_
        | refine Reach.bump ?_ ?_
        | refine Reach.ite ?_ ?_
        | apply Reach.then ?_ (State.readRuns_reach ..) ?_
        | apply Reach1.then ?_ (State.restorePages_reach ..) ?_
        | apply Reach1.fst (Reach1.then ?_ (State.restorePages_reach ..) ?_))
    | (extract_lets +onlyGivenNames -underBinder -merge -useContext x; first | (refine Reach.cut x ?_ (fun _ => ?_); rotate_left; clear_value x; rotate_left; unfold x; clear x) | (refine Reach.cutP x ?_ (fun _ => ?_); rotate_left; clear_value x; rotate_left; unfold x; clear x) | (have _ := fun a => x a; unfold x; clear x) | clear_value x)
    | (split <;> try (refine Reach.cut1 (by assumption) ?_ (fun _ => ?_)))
    | split
    | with_reducible (first
        | refine Reach.set_restores ?_ ?_))

theorem restoreEndEffect_reach (die : Fin 2) (fetched : List (BitVec 64 × List Byte)) (s : State) : Reach 0x40001000000000000000000000000211022011f83b000000c00000000000000010087c1d s (restoreEndEffect die fetched s) := by
  have h0 := Reach.refl 0x40001000000000000000000000000211022011f83b000000c00000000000000010087c1d s
  unfold restoreEndEffect
  repeat' (first
    | with_reducible assumption
    | exact rfl
    | with_reducible (first
        | refine Reach.ite ?_ ?_
        | apply Reach.then ?_ (State.restoreImage_reach ..) ?_)
    | (extract_lets +onlyGivenNames -underBinder -merge -useContext x; first | (refine Reach.cut x ?_ (fun _ => ?_); rotate_left; clear_value x; rotate_left; unfold x; clear x) | (have _ := fun a => x a; unfold x; clear x) | clear_value x)
    | (split <;> try (refine Reach.cut1 (by assumption) ?_ (fun _ => ?_)))
    | split)

end Sys2Proof.Machine
end

