-- ==== Sys2Proof/Laws/ReachBeam.lean ====
section
/-!
SUPPORT. The footprint of each function of Machine/Beam.lean.
-/
set_option linter.unusedTactic false
set_option linter.unreachableTactic false
namespace Sys2Proof.Machine

theorem recordArmEffect_reach (index : BitVec 12) (first : Option Words4) (second : Words4) (s : State) : Reach 0x40001000000240000000000000000001022011f820000000000000000000000000087c1d s (recordArmEffect index first second s) := by
  have h0 := Reach.refl 0x40001000000240000000000000000001022011f820000000000000000000000000087c1d s
  unfold recordArmEffect
  repeat' (first
    | with_reducible assumption
    | exact rfl
    | with_reducible (first
        | apply Reach.then ?_ (State.devWrite_reach ..) ?_
        | apply Reach.then ?_ (State.settleTable_reach ..) ?_)
    | (extract_lets +onlyGivenNames -underBinder -merge -useContext x; first | (refine Reach.cut x ?_ (fun _ => ?_); rotate_left; clear_value x; rotate_left; unfold x; clear x) | (have _ := fun a => x a; unfold x; clear x) | clear_value x)
    | (split <;> try (refine Reach.cut1 (by assumption) ?_ (fun _ => ?_)))
    | split)

theorem State.goLive_reach (s : State) (r : RecInst) : Reach 0x2000800000000000000000000000000000000000000000000000000002000 s (State.goLive s r) := by
  have h0 := Reach.refl 0x2000800000000000000000000000000000000000000000000000000002000 s
  unfold State.goLive
  repeat' (first
    | with_reducible assumption
    | exact rfl
    | with_reducible (first
        | refine Reach.bumpBoth ?_ ?_
        | refine Reach.ite ?_ ?_
        | apply Reach.then ?_ (State.setRec_reach ..) ?_
        | apply Reach.then ?_ (State.setRecState_reach ..) ?_)
    | (extract_lets +onlyGivenNames -underBinder -merge -useContext x; first | (refine Reach.cut x ?_ (fun _ => ?_); rotate_left; clear_value x; rotate_left; unfold x; clear x) | (have _ := fun a => x a; unfold x; clear x) | clear_value x)
    | (split <;> try (refine Reach.cut1 (by assumption) ?_ (fun _ => ?_)))
    | split)

theorem nowRecordLiveEffect_reach (index : BitVec 12) (s : State) : Reach 0x2400800000000000000000000000000000000000000000000000000002000 s (nowRecordLiveEffect index s) := by
  have h0 := Reach.refl 0x2400800000000000000000000000000000000000000000000000000002000 s
  unfold nowRecordLiveEffect
  repeat' (first
    | with_reducible assumption
    | exact rfl
    | with_reducible (first
        | refine Reach.ite ?_ ?_
        | apply Reach.then ?_ (State.goLive_reach ..) ?_
        | apply Reach.then ?_ (State.settleTable_reach ..) ?_)
    | (extract_lets +onlyGivenNames -underBinder -merge -useContext x; first | (refine Reach.cut x ?_ (fun _ => ?_); rotate_left; clear_value x; rotate_left; unfold x; clear x) | (have _ := fun a => x a; unfold x; clear x) | clear_value x)
    | (split <;> try (refine Reach.cut1 (by assumption) ?_ (fun _ => ?_)))
    | split)

theorem State.loadCopy_reach (s : State) (die : Nat) (owner : Nat) (w : Nat → Word) (c : TensorCopy) : Reach 0x1000 s (State.loadCopy s die owner w c) := by
  have h0 := Reach.refl 0x1000 s
  unfold State.loadCopy
  repeat' (first
    | with_reducible assumption
    | exact rfl
    | simp -zeta -iota -proj only [Reach1.pair_iff]
    | with_reducible exact Reach1.fst (by assumption)
    | with_reducible (first
        | refine Reach.foldl _ ?_ (fun _ _ _ => ?_)
        | refine Reach1.foldl _ ?_ (fun _ _ _ => ?_)
        | refine Reach1.fst (Reach1.foldl _ ?_ (fun _ _ _ => ?_))
        | apply Reach.then ?_ (State.setFrame_reach ..) ?_)
    | (split <;> try (refine Reach.cut1 (by assumption) ?_ (fun _ => ?_)))
    | split)

theorem State.loadTensors_reach (s : State) (die : Nat) (r : RecInst) : Reach 0x10000000000000000000000001000 s (State.loadTensors s die r) := by
  have h0 := Reach.refl 0x10000000000000000000000001000 s
  unfold State.loadTensors
  repeat' (first
    | with_reducible assumption
    | exact rfl
    | simp -zeta -iota -proj only [Reach1.pair_iff]
    | with_reducible exact Reach1.fst (by assumption)
    | with_reducible (first
        | refine Reach.foldl _ ?_ (fun _ _ _ => ?_)
        | refine Reach1.foldl _ ?_ (fun _ _ _ => ?_)
        | refine Reach1.fst (Reach1.foldl _ ?_ (fun _ _ _ => ?_))
        | apply Reach.then ?_ (State.clamped_reach ..) ?_
        | apply Reach.then ?_ (State.loadCopy_reach ..) ?_)
    | (extract_lets +onlyGivenNames -underBinder -merge -useContext x; first | (refine Reach.cut x ?_ (fun _ => ?_); rotate_left; clear_value x; rotate_left; unfold x; clear x) | (refine Reach.cutP x ?_ (fun _ => ?_); rotate_left; clear_value x; rotate_left; unfold x; clear x) | (have _ := fun a => x a; unfold x; clear x) | clear_value x))

theorem State.startPlan_reach (s : State) (die : Nat) (r : RecInst) : Reach 0x1008000000000000000000000000000000008581d s (State.startPlan s die r) := by
  have h0 := Reach.refl 0x1008000000000000000000000000000000008581d s
  unfold State.startPlan
  repeat' (first
    | with_reducible assumption
    | exact rfl
    | simp -zeta -iota -proj only [Reach1.pair_iff]
    | with_reducible exact Reach1.fst (by assumption)
    | with_reducible (first
        | apply Reach1.then ?_ (State.fillPlan_reach ..) ?_
        | apply Reach1.fst (Reach1.then ?_ (State.fillPlan_reach ..) ?_))
    | (extract_lets +onlyGivenNames -underBinder -merge -useContext x; first | (refine Reach.cut x ?_ (fun _ => ?_); rotate_left; clear_value x; rotate_left; unfold x; clear x) | (refine Reach.cutP x ?_ (fun _ => ?_); rotate_left; clear_value x; rotate_left; unfold x; clear x) | (have _ := fun a => x a; unfold x; clear x) | clear_value x)
    | (split <;> try (refine Reach.cut1 (by assumption) ?_ (fun _ => ?_)))
    | split
    | with_reducible (first
        | refine Reach.set_pool ?_ ?_))

theorem State.clearRun_reach (s : State) (launch : Nat) : Reach 0x10000000000000000000000000000000000005380 s (State.clearRun s launch) := by
  have h0 := Reach.refl 0x10000000000000000000000000000000000005380 s
  unfold State.clearRun
  repeat' (first
    | with_reducible assumption
    | exact rfl
    | simp -zeta -iota -proj only [Reach1.pair_iff]
    | with_reducible exact Reach1.fst (by assumption)
    | with_reducible (first
        | refine Reach.foldl _ ?_ (fun _ _ _ => ?_)
        | refine Reach1.foldl _ ?_ (fun _ _ _ => ?_)
        | refine Reach1.fst (Reach1.foldl _ ?_ (fun _ _ _ => ?_))
        | apply Reach.then ?_ (State.freePlan_reach ..) ?_)
    | (extract_lets +onlyGivenNames -underBinder -merge -useContext x; first | (refine Reach.cut x ?_ (fun _ => ?_); rotate_left; clear_value x; rotate_left; unfold x; clear x) | (refine Reach.cutP x ?_ (fun _ => ?_); rotate_left; clear_value x; rotate_left; unfold x; clear x) | (have _ := fun a => x a; unfold x; clear x) | clear_value x)
    | exact fun h => h
    | with_reducible (first
        | refine Reach.set_seqs ?_ ?_
        | refine Reach.set_reruns ?_ ?_
        | refine Reach.set_regens ?_ ?_
        | refine Reach.set_pool ?_ ?_
        | refine Reach.litMk ?_ rfl (fun _ h => h) ?_ ?_ ?_ ?_)
    | (intro (c : Cell) (hc : _); cases c <;> first | rfl | exact absurd hc (by decide) | exact fun _ _ => rfl))

theorem State.traceToken_reach (s : State) (r : RecInst) (ended : Bool) : Reach 0x20000000000000000000000000000000000000000000000000000000000000400000 s (State.traceToken s r ended) := by
  have h0 := Reach.refl 0x20000000000000000000000000000000000000000000000000000000000000400000 s
  unfold State.traceToken
  repeat' (first
    | with_reducible assumption
    | exact rfl
    | with_reducible (first
        | apply Reach.then ?_ (State.traceWait_reach ..) ?_)
    | (extract_lets +onlyGivenNames -underBinder -merge -useContext x; first | (refine Reach.cut x ?_ (fun _ => ?_); rotate_left; clear_value x; rotate_left; unfold x; clear x) | (have _ := fun a => x a; unfold x; clear x) | clear_value x)
    | (split <;> try (refine Reach.cut1 (by assumption) ?_ (fun _ => ?_)))
    | split
    | dsimp -zeta only [])

theorem State.invoke_reach (s : State) (r : RecInst) : Reach 0x1000 s (State.invoke s r) := by
  have h0 := Reach.refl 0x1000 s
  unfold State.invoke
  repeat' (first
    | with_reducible assumption
    | exact rfl
    | with_reducible (first
        | refine Reach.ite ?_ ?_)
    | (extract_lets +onlyGivenNames -underBinder -merge -useContext x; first | (refine Reach.cut x ?_ (fun _ => ?_); rotate_left; clear_value x; rotate_left; unfold x; clear x) | (have _ := fun a => x a; unfold x; clear x) | clear_value x)
    | (split <;> try (refine Reach.cut1 (by assumption) ?_ (fun _ => ?_)))
    | split
    | with_reducible (first
        | refine Reach.set_pool ?_ ?_))

theorem State.launchRecord_reach (s : State) (r : RecInst) : Reach 0x20000006000400000000000000010080000000010000000000000000000000487b9d s (State.launchRecord s r) := by
  have h0 := Reach.refl 0x20000006000400000000000000010080000000010000000000000000000000487b9d s
  unfold State.launchRecord
  repeat' (first
    | with_reducible assumption
    | exact rfl
    | simp -zeta -iota -proj only [Reach1.pair_iff]
    | with_reducible exact Reach1.fst (by assumption)
    | with_reducible (first
        | refine Reach.bump ?_ ?_
        | refine Reach.ite ?_ ?_
        | refine Reach1.ite ?_ ?_
        | refine Reach.foldl _ ?_ (fun _ _ _ => ?_)
        | refine Reach1.foldl _ ?_ (fun _ _ _ => ?_)
        | refine Reach1.fst (Reach1.foldl _ ?_ (fun _ _ _ => ?_))
        | apply Reach.then ?_ (State.clearRun_reach ..) ?_
        | apply Reach.then ?_ (State.invoke_reach ..) ?_
        | apply Reach.then ?_ (State.loadTensors_reach ..) ?_
        | apply Reach.then ?_ (State.needSeq_reach ..) ?_
        | apply Reach.then ?_ (State.putTokens_reach ..) ?_
        | apply Reach.then ?_ (State.setRec_reach ..) ?_
        | apply Reach.then ?_ (State.setRecState_reach ..) ?_
        | apply Reach.then ?_ (State.startPlan_reach ..) ?_
        | apply Reach.then ?_ (State.traceToken_reach ..) ?_)
    | (extract_lets +onlyGivenNames -underBinder -merge -useContext x; first | (refine Reach.cut x ?_ (fun _ => ?_); rotate_left; clear_value x; rotate_left; unfold x; clear x) | (refine Reach.cutP x ?_ (fun _ => ?_); rotate_left; clear_value x; rotate_left; unfold x; clear x) | (have _ := fun a => x a; unfold x; clear x) | clear_value x)
    | (split <;> try (refine Reach.cut1 (by assumption) ?_ (fun _ => ?_)))
    | split
    | dsimp -zeta only [])

theorem recordLaunchEffect_reach (index : BitVec 12) (s : State) : Reach 0x20000006400400000000000000010080000000010000000000000000000000487b9d s (recordLaunchEffect index s) := by
  have h0 := Reach.refl 0x20000006400400000000000000010080000000010000000000000000000000487b9d s
  unfold recordLaunchEffect
  repeat' (first
    | with_reducible assumption
    | exact rfl
    | with_reducible (first
        | refine Reach.ite ?_ ?_
        | apply Reach.then ?_ (State.launchRecord_reach ..) ?_
        | apply Reach.then ?_ (State.settleTable_reach ..) ?_)
    | (extract_lets +onlyGivenNames -underBinder -merge -useContext x; first | (refine Reach.cut x ?_ (fun _ => ?_); rotate_left; clear_value x; rotate_left; unfold x; clear x) | (have _ := fun a => x a; unfold x; clear x) | clear_value x)
    | (split <;> try (refine Reach.cut1 (by assumption) ?_ (fun _ => ?_)))
    | split)

theorem State.saveRanges_reach (s : State) (x : SavedTask) (die : Nat) (owner : Nat) (y0 : Nat) (y1 : List (Nat × Nat × Nat)) : Reach1 0x40001000000000000000000000006001022011f820000000000000000000000002387c1d s (State.saveRanges s x die owner y0 y1) := by
  induction y1 generalizing s x die owner y0 with
  | nil =>
    have h0 := Reach.refl 0x40001000000000000000000000006001022011f820000000000000000000000002387c1d s
    unfold State.saveRanges
    repeat' (first
    | with_reducible assumption
    | exact rfl
    | simp -zeta -iota -proj only [Reach1.pair_iff]
    | with_reducible exact Reach1.fst (by assumption)
    | with_reducible (first
        | refine Reach.foldl _ ?_ (fun _ _ _ => ?_)
        | refine Reach1.foldl _ ?_ (fun _ _ _ => ?_)
        | refine Reach1.fst (Reach1.foldl _ ?_ (fun _ _ _ => ?_))
        | apply Reach.then ?_ (State.leavePoison_reach ..) ?_
        | apply Reach.then ?_ (State.vPut_reach ..) ?_
        | apply Reach1.then ?_ (ih ..) ?_)
    | (extract_lets +onlyGivenNames -underBinder -merge -useContext x; first | (refine Reach.cut x ?_ (fun _ => ?_); rotate_left; clear_value x; rotate_left; unfold x; clear x) | (refine Reach1.cut x ?_ (fun _ => ?_); rotate_left; clear_value x; rotate_left; unfold x; clear x) | (refine Reach.cutP x ?_ (fun _ => ?_); rotate_left; clear_value x; rotate_left; unfold x; clear x) | (refine Reach1.cutP x ?_ (fun _ => ?_); rotate_left; clear_value x; rotate_left; unfold x; clear x) | (refine Reach.cut x.st ?_ (fun _ => ?_); rotate_left; clear_value x; rotate_left; unfold x; clear x) | (refine Reach1.cut x.st ?_ (fun _ => ?_); rotate_left; clear_value x; rotate_left; unfold x; clear x) | (have _ := fun a => x a; unfold x; clear x) | clear_value x)
    | (split <;> try (first | refine Reach1.cut1 (by assumption) ?_ (fun _ => ?_) | refine Reach.cut1 (by assumption) ?_ (fun _ => ?_)))
    | split)
  | cons _ _ ih =>
    have h0 := Reach.refl 0x40001000000000000000000000006001022011f820000000000000000000000002387c1d s
    unfold State.saveRanges
    repeat' (first
    | with_reducible assumption
    | exact rfl
    | simp -zeta -iota -proj only [Reach1.pair_iff]
    | with_reducible exact Reach1.fst (by assumption)
    | with_reducible (first
        | refine Reach.foldl _ ?_ (fun _ _ _ => ?_)
        | refine Reach1.foldl _ ?_ (fun _ _ _ => ?_)
        | refine Reach1.fst (Reach1.foldl _ ?_ (fun _ _ _ => ?_))
        | apply Reach.then ?_ (State.leavePoison_reach ..) ?_
        | apply Reach.then ?_ (State.vPut_reach ..) ?_
        | apply Reach1.then ?_ (ih ..) ?_)
    | (extract_lets +onlyGivenNames -underBinder -merge -useContext x; first | (refine Reach.cut x ?_ (fun _ => ?_); rotate_left; clear_value x; rotate_left; unfold x; clear x) | (refine Reach1.cut x ?_ (fun _ => ?_); rotate_left; clear_value x; rotate_left; unfold x; clear x) | (refine Reach.cutP x ?_ (fun _ => ?_); rotate_left; clear_value x; rotate_left; unfold x; clear x) | (refine Reach1.cutP x ?_ (fun _ => ?_); rotate_left; clear_value x; rotate_left; unfold x; clear x) | (refine Reach.cut x.st ?_ (fun _ => ?_); rotate_left; clear_value x; rotate_left; unfold x; clear x) | (refine Reach1.cut x.st ?_ (fun _ => ?_); rotate_left; clear_value x; rotate_left; unfold x; clear x) | (have _ := fun a => x a; unfold x; clear x) | clear_value x)
    | (split <;> try (first | refine Reach1.cut1 (by assumption) ?_ (fun _ => ?_) | refine Reach.cut1 (by assumption) ?_ (fun _ => ?_)))
    | split)

theorem State.markSaved_reach (s : State) (y : SavedTask) : Reach 0x2000 s (State.markSaved s y) := by
  have h0 := Reach.refl 0x2000 s
  unfold State.markSaved
  repeat' (first
    | with_reducible assumption
    | exact rfl
    | with_reducible (first
        | refine Reach.ite ?_ ?_)
    | (split <;> try (refine Reach.cut1 (by assumption) ?_ (fun _ => ?_)))
    | split
    | with_reducible (first
        | refine Reach.set_beam ?_ ?_))

theorem preemptSaveDoneEffect_reach (e : EngId) (task : Fin 4) (s : State) : Reach 0x40003000000000000000000000006001022011fa3b0d0120c00d00000000000002787dfd s (preemptSaveDoneEffect e task s) := by
  have h0 := Reach.refl 0x40003000000000000000000000006001022011fa3b0d0120c00d00000000000002787dfd s
  unfold preemptSaveDoneEffect
  repeat' (first
    | with_reducible assumption
    | exact rfl
    | simp -zeta -iota -proj only [Reach1.pair_iff]
    | with_reducible exact Reach1.fst (by assumption)
    | with_reducible (first
        | refine Reach.wr ?_ ?_
        | refine Reach.ite ?_ ?_
        | apply Reach1.then ?_ (State.chainReads_reach ..) ?_
        | apply Reach1.fst (Reach1.then ?_ (State.chainReads_reach ..) ?_)
        | apply Reach.then ?_ (State.endWrite_reach ..) ?_
        | apply Reach.then ?_ (State.grantContexts_reach ..) ?_
        | apply Reach1.then ?_ (State.lensParity_reach ..) ?_
        | apply Reach1.fst (Reach1.then ?_ (State.lensParity_reach ..) ?_)
        | apply Reach.then ?_ (State.markSaved_reach ..) ?_
        | apply Reach.then ?_ (State.rerunError_reach ..) ?_
        | apply Reach1.then ?_ (State.saveRanges_reach ..) ?_
        | apply Reach1.fst (Reach1.then ?_ (State.saveRanges_reach ..) ?_)
        | apply Reach.then ?_ (State.vPut_reach ..) ?_)
    | (extract_lets +onlyGivenNames -underBinder -merge -useContext x; first | (refine Reach.cut x ?_ (fun _ => ?_); rotate_left; clear_value x; rotate_left; unfold x; clear x) | (refine Reach.cutP x ?_ (fun _ => ?_); rotate_left; clear_value x; rotate_left; unfold x; clear x) | (refine Reach.cut x.st ?_ (fun _ => ?_); rotate_left; clear_value x; rotate_left; unfold x; clear x) | (have _ := fun a => x a; unfold x; clear x) | clear_value x)
    | (split <;> try (refine Reach.cut1 (by assumption) ?_ (fun _ => ?_)))
    | split)

theorem State.restoreRanges_reach (s : State) (x : SavedTask) (die : Nat) (owner : Nat) (y0 : Nat) (y1 : List (Nat × Nat × Nat)) : Reach 0x40001000000000000000000000000001022011f820000000000000000000000000087c1f s (State.restoreRanges s x die owner y0 y1) := by
  induction y1 generalizing s x die owner y0 with
  | nil =>
    have h0 := Reach.refl 0x40001000000000000000000000000001022011f820000000000000000000000000087c1f s
    unfold State.restoreRanges
    repeat' (first
    | with_reducible assumption
    | exact rfl
    | with_reducible (first
        | apply Reach.then ?_ (State.devWrite_reach ..) ?_
        | apply Reach.then ?_ (State.lensPut_reach ..) ?_
        | apply Reach.then ?_ (ih ..) ?_)
    | (extract_lets +onlyGivenNames -underBinder -merge -useContext x; first | (refine Reach.cut x ?_ (fun _ => ?_); rotate_left; clear_value x; rotate_left; unfold x; clear x) | (have _ := fun a => x a; unfold x; clear x) | clear_value x)
    | (split <;> try (refine Reach.cut1 (by assumption) ?_ (fun _ => ?_)))
    | split)
  | cons _ _ ih =>
    have h0 := Reach.refl 0x40001000000000000000000000000001022011f820000000000000000000000000087c1f s
    unfold State.restoreRanges
    repeat' (first
    | with_reducible assumption
    | exact rfl
    | with_reducible (first
        | apply Reach.then ?_ (State.devWrite_reach ..) ?_
        | apply Reach.then ?_ (State.lensPut_reach ..) ?_
        | apply Reach.then ?_ (ih ..) ?_)
    | (extract_lets +onlyGivenNames -underBinder -merge -useContext x; first | (refine Reach.cut x ?_ (fun _ => ?_); rotate_left; clear_value x; rotate_left; unfold x; clear x) | (have _ := fun a => x a; unfold x; clear x) | clear_value x)
    | (split <;> try (refine Reach.cut1 (by assumption) ?_ (fun _ => ?_)))
    | split)

theorem contextRestoreEffect_reach (e : EngId) (task : Fin 4) (s : State) : Reach 0x40003000000200800000000000000001022011fa3b0c0120c00800000000000000587cff s (contextRestoreEffect e task s) := by
  have h0 := Reach.refl 0x40003000000200800000000000000001022011fa3b0c0120c00800000000000000587cff s
  unfold contextRestoreEffect
  repeat' (first
    | with_reducible assumption
    | exact rfl
    | with_reducible (first
        | refine Reach.bump ?_ ?_
        | refine Reach.ite ?_ ?_
        | apply Reach.then ?_ (State.endChain_reach ..) ?_
        | apply Reach.then ?_ (State.readRuns_reach ..) ?_
        | apply Reach.then ?_ (State.restoreRanges_reach ..) ?_
        | apply Reach.then ?_ (State.setChain_reach ..) ?_
        | apply Reach.then ?_ (State.setRecState_reach ..) ?_
        | apply Reach.then ?_ (State.showTasks_reach ..) ?_
        | apply Reach.then ?_ (State.takeContext_reach ..) ?_
        | apply Reach.then ?_ (State.traceWait_reach ..) ?_)
    | (extract_lets +onlyGivenNames -underBinder -merge -useContext x; first | (refine Reach.cut x ?_ (fun _ => ?_); rotate_left; clear_value x; rotate_left; unfold x; clear x) | (have _ := fun a => x a; unfold x; clear x) | clear_value x)
    | (split <;> try (refine Reach.cut1 (by assumption) ?_ (fun _ => ?_)))
    | split
    | with_reducible (first
        | refine Reach.set_beam ?_ ?_))

theorem State.deferReady_reach (s : State) : Reach 0x1000000000000000000000000000000000000000000000000000002000 s (State.deferReady s) := by
  have h0 := Reach.refl 0x1000000000000000000000000000000000000000000000000000002000 s
  unfold State.deferReady
  repeat' (first
    | with_reducible assumption
    | exact rfl
    | simp -zeta -iota -proj only [Reach1.pair_iff]
    | with_reducible exact Reach1.fst (by assumption)
    | with_reducible (first
        | refine Reach.bumpBoth ?_ ?_
        | refine Reach.ite ?_ ?_
        | refine Reach1.ite ?_ ?_
        | refine Reach.foldl _ ?_ (fun _ _ _ => ?_)
        | refine Reach1.foldl _ ?_ (fun _ _ _ => ?_)
        | refine Reach1.fst (Reach1.foldl _ ?_ (fun _ _ _ => ?_))
        | apply Reach.then ?_ (State.setRec_reach ..) ?_)
    | (split <;> try (refine Reach.cut1 (by assumption) ?_ (fun _ => ?_)))
    | split)

theorem quietWindowCloseEffect_reach (s : State) : Reach 0x40001000000741300000000000000001022011f820000000000000000000000002887c1d s (quietWindowCloseEffect s) := by
  have h0 := Reach.refl 0x40001000000741300000000000000001022011f820000000000000000000000002887c1d s
  unfold quietWindowCloseEffect
  repeat' (first
    | with_reducible assumption
    | exact rfl
    | with_reducible (first
        | refine Reach.ite ?_ ?_
        | apply Reach.then ?_ (State.completeRecord_reach ..) ?_
        | apply Reach.then ?_ (State.deferReady_reach ..) ?_)
    | (extract_lets +onlyGivenNames -underBinder -merge -useContext x; first | (refine Reach.cut x ?_ (fun _ => ?_); rotate_left; clear_value x; rotate_left; unfold x; clear x) | (have _ := fun a => x a; unfold x; clear x) | clear_value x)
    | (split <;> try (refine Reach.cut1 (by assumption) ?_ (fun _ => ?_)))
    | split
    | with_reducible (first
        | refine Reach.set_beam ?_ ?_))

theorem recordEndEffect_reach (index : BitVec 12) (s : State) : Reach 0x40001000000741200000000000000001022011f820000000000000000000000002887f9d s (recordEndEffect index s) := by
  have h0 := Reach.refl 0x40001000000741200000000000000001022011f820000000000000000000000002887f9d s
  unfold recordEndEffect
  repeat' (first
    | with_reducible assumption
    | exact rfl
    | with_reducible (first
        | refine Reach.ite ?_ ?_
        | apply Reach.then ?_ (State.clearRun_reach ..) ?_
        | apply Reach.then ?_ (State.completeRecord_reach ..) ?_
        | apply Reach.then ?_ (State.setRec_reach ..) ?_
        | apply Reach.then ?_ (State.settleTable_reach ..) ?_)
    | (extract_lets +onlyGivenNames -underBinder -merge -useContext x; first | (refine Reach.cut x ?_ (fun _ => ?_); rotate_left; clear_value x; rotate_left; unfold x; clear x) | (have _ := fun a => x a; unfold x; clear x) | clear_value x)
    | (split <;> try (refine Reach.cut1 (by assumption) ?_ (fun _ => ?_)))
    | split)

theorem State.drainCring_reach (s : State) (owner : Nat) (y0 : Nat) : Reach 0x40001000000740200000000000000001022011f820000000000000000000000002887c1d s (State.drainCring s owner y0) := by
  induction y0 generalizing s owner with
  | zero =>
    have h0 := Reach.refl 0x40001000000740200000000000000001022011f820000000000000000000000002887c1d s
    unfold State.drainCring
    repeat' (first
    | with_reducible assumption
    | exact rfl
    | with_reducible (first
        | refine Reach.ite ?_ ?_
        | apply Reach.then ?_ (State.countMiss_reach ..) ?_
        | apply Reach.then ?_ (State.writeCring_reach ..) ?_
        | apply Reach.then ?_ (ih ..) ?_)
    | (extract_lets +onlyGivenNames -underBinder -merge -useContext x; first | (refine Reach.cut x ?_ (fun _ => ?_); rotate_left; clear_value x; rotate_left; unfold x; clear x) | (have _ := fun a => x a; unfold x; clear x) | clear_value x)
    | (split <;> try (refine Reach.cut1 (by assumption) ?_ (fun _ => ?_)))
    | split
    | with_reducible (first
        | refine Reach.set_beam ?_ ?_))
  | succ _ ih =>
    have h0 := Reach.refl 0x40001000000740200000000000000001022011f820000000000000000000000002887c1d s
    unfold State.drainCring
    repeat' (first
    | with_reducible assumption
    | exact rfl
    | with_reducible (first
        | refine Reach.ite ?_ ?_
        | apply Reach.then ?_ (State.countMiss_reach ..) ?_
        | apply Reach.then ?_ (State.writeCring_reach ..) ?_
        | apply Reach.then ?_ (ih ..) ?_)
    | (extract_lets +onlyGivenNames -underBinder -merge -useContext x; first | (refine Reach.cut x ?_ (fun _ => ?_); rotate_left; clear_value x; rotate_left; unfold x; clear x) | (have _ := fun a => x a; unfold x; clear x) | clear_value x)
    | (split <;> try (refine Reach.cut1 (by assumption) ?_ (fun _ => ?_)))
    | split
    | with_reducible (first
        | refine Reach.set_beam ?_ ?_))

theorem cringRoomEffect_reach (owner : BitVec 6) (cons : BitVec 32) (s : State) : Reach 0x40001000000740200000000000000001022011f820000000000000000000000002887c1d s (cringRoomEffect owner cons s) := by
  have h0 := Reach.refl 0x40001000000740200000000000000001022011f820000000000000000000000002887c1d s
  unfold cringRoomEffect
  repeat' (first
    | with_reducible assumption
    | exact rfl
    | with_reducible (first
        | refine Reach.setFld ?_ ?_
        | apply Reach.then ?_ (State.drainCring_reach ..) ?_
        | apply Reach.then ?_ (State.settleTable_reach ..) ?_)
    | (extract_lets +onlyGivenNames -underBinder -merge -useContext x; first | (refine Reach.cut x ?_ (fun _ => ?_); rotate_left; clear_value x; rotate_left; unfold x; clear x) | (have _ := fun a => x a; unfold x; clear x) | clear_value x))

theorem State.tokenCmd_reach (s : State) (value : Word) : Reach 0x4000200000000000000000000000000000000000000000000000000000000 s (State.tokenCmd s value) := by
  have h0 := Reach.refl 0x4000200000000000000000000000000000000000000000000000000000000 s
  unfold State.tokenCmd
  repeat' (first
    | with_reducible assumption
    | exact rfl
    | with_reducible (first
        | refine Reach.storeReg ?_ ?_
        | refine Reach.ite ?_ ?_
        | apply Reach.then ?_ (State.putToken_reach ..) ?_)
    | (extract_lets +onlyGivenNames -underBinder -merge -useContext x; first | (refine Reach.cut x ?_ (fun _ => ?_); rotate_left; clear_value x; rotate_left; unfold x; clear x) | (have _ := fun a => x a; unfold x; clear x) | clear_value x)
    | (split <;> try (refine Reach.cut1 (by assumption) ?_ (fun _ => ?_)))
    | split)

theorem State.abortWaiting_reach (s : State) (r : RecInst) : Reach 0x2000 s (State.abortWaiting s r) := by
  have h0 := Reach.refl 0x2000 s
  unfold State.abortWaiting
  repeat' (first
    | with_reducible assumption
    | exact rfl
    | with_reducible (first
        | refine Reach.ite ?_ ?_
        | apply Reach.then ?_ (State.setRec_reach ..) ?_)
    | (extract_lets +onlyGivenNames -underBinder -merge -useContext x; first | (refine Reach.cut x ?_ (fun _ => ?_); rotate_left; clear_value x; rotate_left; unfold x; clear x) | (have _ := fun a => x a; unfold x; clear x) | clear_value x)
    | (split <;> try (refine Reach.cut1 (by assumption) ?_ (fun _ => ?_)))
    | split
    | dsimp -zeta only []
    | with_reducible (first
        | refine Reach.set_beam ?_ ?_))

theorem State.abortRunning_reach (s : State) (r : RecInst) : Reach 0x4000300000074100000b040000000001022011fa200c0120000800000000000003d87cfd s (State.abortRunning s r) := by
  have h0 := Reach.refl 0x4000300000074100000b040000000001022011fa200c0120000800000000000003d87cfd s
  unfold State.abortRunning
  repeat' (first
    | with_reducible assumption
    | exact rfl
    | simp -zeta -iota -proj only [Reach1.pair_iff]
    | with_reducible exact Reach1.fst (by assumption)
    | with_reducible (first
        | refine Reach.ite ?_ ?_
        | refine Reach1.ite ?_ ?_
        | refine Reach.foldl _ ?_ (fun _ _ _ => ?_)
        | refine Reach1.foldl _ ?_ (fun _ _ _ => ?_)
        | refine Reach1.fst (Reach1.foldl _ ?_ (fun _ _ _ => ?_))
        | apply Reach.then ?_ (State.abortChain_reach ..) ?_
        | apply Reach.then ?_ (State.abortColl_reach ..) ?_
        | apply Reach.then ?_ (State.grantContexts_reach ..) ?_
        | apply Reach.then ?_ (State.setRec_reach ..) ?_)
    | (extract_lets +onlyGivenNames -underBinder -merge -useContext x; first | (refine Reach.cut x ?_ (fun _ => ?_); rotate_left; clear_value x; rotate_left; unfold x; clear x) | (refine Reach.cutP x ?_ (fun _ => ?_); rotate_left; clear_value x; rotate_left; unfold x; clear x) | (have _ := fun a => x a; unfold x; clear x) | clear_value x)
    | (split <;> try (refine Reach.cut1 (by assumption) ?_ (fun _ => ?_)))
    | split
    | with_reducible (first
        | refine Reach.set_seqs ?_ ?_))

theorem State.abortRec_reach (s : State) (index : Nat) : Reach 0x4000300000074330000b04020000010303a411fa3b8c0120c0080000000000000fd87cfd s (State.abortRec s index) := by
  have h0 := Reach.refl 0x4000300000074330000b04020000010303a411fa3b8c0120c0080000000000000fd87cfd s
  unfold State.abortRec
  repeat' (first
    | with_reducible assumption
    | exact rfl
    | with_reducible (first
        | refine Reach.bumpBoth ?_ ?_
        | refine Reach.ite ?_ ?_
        | apply Reach.then ?_ (State.abortRunning_reach ..) ?_
        | apply Reach.then ?_ (State.abortWaiting_reach ..) ?_
        | apply Reach.then ?_ (State.completeRecord_reach ..) ?_
        | apply Reach.then ?_ (State.deferReady_reach ..) ?_
        | apply Reach.then ?_ (State.failDaymark_reach ..) ?_
        | apply Reach.then ?_ (State.setRec_reach ..) ?_
        | apply Reach.then ?_ (State.traceToken_reach ..) ?_)
    | (extract_lets +onlyGivenNames -underBinder -merge -useContext x; first | (refine Reach.cut x ?_ (fun _ => ?_); rotate_left; clear_value x; rotate_left; unfold x; clear x) | (have _ := fun a => x a; unfold x; clear x) | clear_value x)
    | (split <;> try (refine Reach.cut1 (by assumption) ?_ (fun _ => ?_)))
    | split
    | with_reducible (first
        | refine Reach.set_beam ?_ ?_))

theorem State.abortOwnerRecs_reach (s : State) (owner : Nat) : Reach 0x4000300000074330000b04020000010303a411fa3b8c0120c0080000000000000fd87cfd s (State.abortOwnerRecs s owner) := by
  have h0 := Reach.refl 0x4000300000074330000b04020000010303a411fa3b8c0120c0080000000000000fd87cfd s
  unfold State.abortOwnerRecs
  repeat' (first
    | with_reducible assumption
    | exact rfl
    | simp -zeta -iota -proj only [Reach1.pair_iff]
    | with_reducible exact Reach1.fst (by assumption)
    | with_reducible (first
        | refine Reach.foldl _ ?_ (fun _ _ _ => ?_)
        | refine Reach1.foldl _ ?_ (fun _ _ _ => ?_)
        | refine Reach1.fst (Reach1.foldl _ ?_ (fun _ _ _ => ?_))
        | apply Reach.then ?_ (State.abortRec_reach ..) ?_))

theorem State.abortCmd_reach (s : State) (die : Nat) (value : Word) : Reach 0x4000300000074331000b04020000010303a411fa3b8c0120c0080000000000000fd87cfd s (State.abortCmd s die value) := by
  have h0 := Reach.refl 0x4000300000074331000b04020000010303a411fa3b8c0120c0080000000000000fd87cfd s
  unfold State.abortCmd
  repeat' (first
    | with_reducible assumption
    | exact rfl
    | with_reducible (first
        | refine Reach.storeReg ?_ ?_
        | refine Reach.ite ?_ ?_
        | apply Reach.then ?_ (State.abortOwnerRecs_reach ..) ?_
        | apply Reach.then ?_ (State.abortRec_reach ..) ?_
        | apply Reach.then ?_ (State.settleTable_reach ..) ?_)
    | (extract_lets +onlyGivenNames -underBinder -merge -useContext x; first | (refine Reach.cut x ?_ (fun _ => ?_); rotate_left; clear_value x; rotate_left; unfold x; clear x) | (have _ := fun a => x a; unfold x; clear x) | clear_value x)
    | (split <;> try (refine Reach.cut1 (by assumption) ?_ (fun _ => ?_)))
    | split)

end Sys2Proof.Machine
end

