-- ==== Sys2Proof/Laws/ReachLinks.lean ====
section
/-!
SUPPORT. The footprint of each function of Machine/Links.lean.
-/
set_option linter.unusedTactic false
set_option linter.unreachableTactic false
namespace Sys2Proof.Machine

theorem State.flitFec_reach (s : State) (l : Nat) (f : FlitIn) : Reach 0x18000000000000000000000000000000000000000000000 s (State.flitFec s l f) := by
  have h0 := Reach.refl 0x18000000000000000000000000000000000000000000000 s
  unfold State.flitFec
  repeat' (first
    | with_reducible assumption
    | exact rfl
    | with_reducible (first
        | refine Reach.bump ?_ ?_))

theorem State.takeControl_reach (s : State) (l : Nat) (f : FlitIn) (ctype : Nat) : Reach1 0x98000000000000000000000000000000000000000800000 s (State.takeControl s l f ctype) := by
  have h0 := Reach.refl 0x98000000000000000000000000000000000000000800000 s
  unfold State.takeControl
  repeat' (first
    | with_reducible assumption
    | exact rfl
    | simp -zeta -iota -proj only [Reach1.pair_iff]
    | with_reducible exact Reach1.fst (by assumption)
    | with_reducible (first
        | refine Reach.bump ?_ ?_
        | refine Reach.ite ?_ ?_
        | refine Reach1.ite ?_ ?_
        | apply Reach.then ?_ (State.flitFec_reach ..) ?_
        | apply Reach.then ?_ (State.setLink_reach ..) ?_)
    | (extract_lets +onlyGivenNames -underBinder -merge -useContext x; first | (refine Reach.cut x ?_ (fun _ => ?_); rotate_left; clear_value x; rotate_left; unfold x; clear x) | (refine Reach1.cut x ?_ (fun _ => ?_); rotate_left; clear_value x; rotate_left; unfold x; clear x) | (have _ := fun a => x a; unfold x; clear x) | clear_value x)
    | (split <;> try (first | refine Reach1.cut1 (by assumption) ?_ (fun _ => ?_) | refine Reach.cut1 (by assumption) ?_ (fun _ => ?_)))
    | split)

theorem State.sendControl_reach (s : State) (l : Nat) (p : List Byte) : Reach 0x800000 s (State.sendControl s l p) := by
  have h0 := Reach.refl 0x800000 s
  unfold State.sendControl
  repeat' (first
    | with_reducible assumption
    | exact rfl
    | with_reducible (first
        | apply Reach.then ?_ (State.setLink_reach ..) ?_))

theorem State.pullOrigin_reach (s : State) (l : Nat) : Reach 0x900000 s (State.pullOrigin s l) := by
  have h0 := Reach.refl 0x900000 s
  unfold State.pullOrigin
  repeat' (first
    | with_reducible assumption
    | exact rfl
    | with_reducible (first
        | refine Reach.ite ?_ ?_
        | apply Reach.then ?_ (State.enqueue_reach ..) ?_
        | apply Reach.then ?_ (State.markSent_reach ..) ?_)
    | (extract_lets +onlyGivenNames -underBinder -merge -useContext x; first | (refine Reach.cut x ?_ (fun _ => ?_); rotate_left; clear_value x; rotate_left; unfold x; clear x) | (have _ := fun a => x a; unfold x; clear x) | clear_value x)
    | (split <;> try (refine Reach.cut1 (by assumption) ?_ (fun _ => ?_)))
    | split)

theorem State.pullOrigins_reach (s : State) (l : Nat) (y0 : Nat) : Reach 0x900000 s (State.pullOrigins s l y0) := by
  induction y0 generalizing s l with
  | zero =>
    have h0 := Reach.refl 0x900000 s
    unfold State.pullOrigins
    repeat' (first
    | with_reducible assumption
    | exact rfl
    | with_reducible (first
        | refine Reach.ite ?_ ?_
        | apply Reach.then ?_ (State.pullOrigin_reach ..) ?_
        | apply Reach.then ?_ (ih ..) ?_)
    | (split <;> try (refine Reach.cut1 (by assumption) ?_ (fun _ => ?_)))
    | split)
  | succ _ ih =>
    have h0 := Reach.refl 0x900000 s
    unfold State.pullOrigins
    repeat' (first
    | with_reducible assumption
    | exact rfl
    | with_reducible (first
        | refine Reach.ite ?_ ?_
        | apply Reach.then ?_ (State.pullOrigin_reach ..) ?_
        | apply Reach.then ?_ (ih ..) ?_)
    | (split <;> try (refine Reach.cut1 (by assumption) ?_ (fun _ => ?_)))
    | split)

theorem State.sendData_reach (s : State) (l : Nat) (vc : Nat) : Reach 0x40003000000000000000000000046001022011fe200d4120080840000000001002f87cff s (State.sendData s l vc) := by
  have h0 := Reach.refl 0x40003000000000000000000000046001022011fe200d4120080840000000001002f87cff s
  unfold State.sendData
  repeat' (first
    | with_reducible assumption
    | exact rfl
    | simp -zeta -iota -proj only [Reach1.pair_iff]
    | with_reducible exact Reach1.fst (by assumption)
    | with_reducible (first
        | refine Reach.bump ?_ ?_
        | refine Reach.foldl _ ?_ (fun _ _ _ => ?_)
        | refine Reach1.foldl _ ?_ (fun _ _ _ => ?_)
        | refine Reach1.fst (Reach1.foldl _ ?_ (fun _ _ _ => ?_))
        | apply Reach.then ?_ (State.dataGone_reach ..) ?_
        | apply Reach.then ?_ (State.emit_reach ..) ?_
        | apply Reach.then ?_ (State.setLink_reach ..) ?_)
    | (extract_lets +onlyGivenNames -underBinder -merge -useContext x; first | (refine Reach.cut x ?_ (fun _ => ?_); rotate_left; clear_value x; rotate_left; unfold x; clear x) | (refine Reach.cutP x ?_ (fun _ => ?_); rotate_left; clear_value x; rotate_left; unfold x; clear x) | (have _ := fun a => x a; unfold x; clear x) | clear_value x)
    | (split <;> try (refine Reach.cut1 (by assumption) ?_ (fun _ => ?_)))
    | split)

theorem State.checkRetry_reach (s : State) (l : Nat) : Reach 0x20100000000000000000000000000000000000000004000 s (State.checkRetry s l) := by
  have h0 := Reach.refl 0x20100000000000000000000000000000000000000004000 s
  unfold State.checkRetry
  repeat' (first
    | with_reducible assumption
    | exact rfl
    | with_reducible (first
        | refine Reach.bump ?_ ?_
        | refine Reach.ite ?_ ?_
        | apply Reach.then ?_ (State.setLinkState_reach ..) ?_)
    | (extract_lets +onlyGivenNames -underBinder -merge -useContext x; first | (refine Reach.cut x ?_ (fun _ => ?_); rotate_left; clear_value x; rotate_left; unfold x; clear x) | (have _ := fun a => x a; unfold x; clear x) | clear_value x)
    | (split <;> try (refine Reach.cut1 (by assumption) ?_ (fun _ => ?_)))
    | split)

theorem flitTransmitEffect_reach (link : Fin 16) (s : State) : Reach 0x40003000000000000000000002156001022011fe200d4120080840000000001002f87cff s (flitTransmitEffect link s) := by
  have h0 := Reach.refl 0x40003000000000000000000002156001022011fe200d4120080840000000001002f87cff s
  unfold flitTransmitEffect
  repeat' (first
    | with_reducible assumption
    | exact rfl
    | with_reducible (first
        | refine Reach.bump ?_ ?_
        | refine Reach.ite ?_ ?_
        | apply Reach.then ?_ (State.checkRetry_reach ..) ?_
        | apply Reach.then ?_ (State.emit_reach ..) ?_
        | apply Reach.then ?_ (State.pullOrigins_reach ..) ?_
        | apply Reach.then ?_ (State.sendData_reach ..) ?_
        | apply Reach.then ?_ (State.setLink_reach ..) ?_)
    | (extract_lets +onlyGivenNames -underBinder -merge -useContext x; first | (refine Reach.cut x ?_ (fun _ => ?_); rotate_left; clear_value x; rotate_left; unfold x; clear x) | (have _ := fun a => x a; unfold x; clear x) | clear_value x)
    | (split <;> try (refine Reach.cut1 (by assumption) ?_ (fun _ => ?_)))
    | split)

theorem dataFlitReceiveEffect_reach (link : Fin 16) (flit : FlitIn) (again : Bool) (s : State) : Reach 0x11e800000000000000000000000000000000000000800000 s (dataFlitReceiveEffect link flit again s) := by
  have h0 := Reach.refl 0x11e800000000000000000000000000000000000000800000 s
  unfold dataFlitReceiveEffect
  repeat' (first
    | with_reducible assumption
    | exact rfl
    | with_reducible (first
        | refine Reach.bump ?_ ?_
        | refine Reach.ite ?_ ?_
        | apply Reach.then ?_ (State.flitFec_reach ..) ?_
        | apply Reach.then ?_ (State.setLink_reach ..) ?_)
    | (extract_lets +onlyGivenNames -underBinder -merge -useContext x; first | (refine Reach.cut x ?_ (fun _ => ?_); rotate_left; clear_value x; rotate_left; unfold x; clear x) | (have _ := fun a => x a; unfold x; clear x) | clear_value x)
    | (split <;> try (refine Reach.cut1 (by assumption) ?_ (fun _ => ?_)))
    | split)

theorem nullFlitEffect_reach (link : Fin 16) (flit : FlitIn) (s : State) : Reach 0x18000000000000000000000000000000000000000800000 s (nullFlitEffect link flit s) := by
  have h0 := Reach.refl 0x18000000000000000000000000000000000000000800000 s
  unfold nullFlitEffect
  repeat' (first
    | with_reducible assumption
    | exact rfl
    | with_reducible (first
        | refine Reach.ite ?_ ?_
        | apply Reach.then ?_ (State.flitFec_reach ..) ?_
        | apply Reach.then ?_ (State.setLink_reach ..) ?_)
    | (extract_lets +onlyGivenNames -underBinder -merge -useContext x; first | (refine Reach.cut x ?_ (fun _ => ?_); rotate_left; clear_value x; rotate_left; unfold x; clear x) | (have _ := fun a => x a; unfold x; clear x) | clear_value x)
    | (split <;> try (refine Reach.cut1 (by assumption) ?_ (fun _ => ?_)))
    | split)

theorem State.resend_reach (s : State) (l : Nat) (seq : Nat) : Reach 0x800000 s (State.resend s l seq) := by
  have h0 := Reach.refl 0x800000 s
  unfold State.resend
  repeat' (first
    | with_reducible assumption
    | exact rfl
    | with_reducible (first
        | refine Reach.ite ?_ ?_
        | apply Reach.then ?_ (State.setLink_reach ..) ?_)
    | (extract_lets +onlyGivenNames -underBinder -merge -useContext x; first | (refine Reach.cut x ?_ (fun _ => ?_); rotate_left; clear_value x; rotate_left; unfold x; clear x) | (have _ := fun a => x a; unfold x; clear x) | clear_value x)
    | (split <;> try (refine Reach.cut1 (by assumption) ?_ (fun _ => ?_)))
    | split)

theorem nakEffect_reach (link : Fin 16) (flit : FlitIn) (s : State) : Reach 0x98000000000000000000000000000000000000000800000 s (nakEffect link flit s) := by
  have h0 := Reach.refl 0x98000000000000000000000000000000000000000800000 s
  unfold nakEffect
  repeat' (first
    | with_reducible assumption
    | exact rfl
    | simp -zeta -iota -proj only [Reach1.pair_iff]
    | with_reducible exact Reach1.fst (by assumption)
    | with_reducible (first
        | refine Reach.ite ?_ ?_
        | apply Reach.then ?_ (State.resend_reach ..) ?_
        | apply Reach1.then ?_ (State.takeControl_reach ..) ?_
        | apply Reach1.fst (Reach1.then ?_ (State.takeControl_reach ..) ?_))
    | (extract_lets +onlyGivenNames -underBinder -merge -useContext x; first | (refine Reach.cut x ?_ (fun _ => ?_); rotate_left; clear_value x; rotate_left; unfold x; clear x) | (refine Reach.cutP x ?_ (fun _ => ?_); rotate_left; clear_value x; rotate_left; unfold x; clear x) | (have _ := fun a => x a; unfold x; clear x) | clear_value x)
    | (split <;> try (refine Reach.cut1 (by assumption) ?_ (fun _ => ?_)))
    | split)

theorem retryTimerExpiryEffect_reach (link : Fin 16) (waited : BitVec 32) (s : State) : Reach 0x800000 s (retryTimerExpiryEffect link waited s) := by
  have h0 := Reach.refl 0x800000 s
  unfold retryTimerExpiryEffect
  repeat' (first
    | with_reducible assumption
    | exact rfl
    | with_reducible (first
        | refine Reach.ite ?_ ?_
        | apply Reach.then ?_ (State.resend_reach ..) ?_)
    | (extract_lets +onlyGivenNames -underBinder -merge -useContext x; first | (refine Reach.cut x ?_ (fun _ => ?_); rotate_left; clear_value x; rotate_left; unfold x; clear x) | (have _ := fun a => x a; unfold x; clear x) | clear_value x)
    | (split <;> try (refine Reach.cut1 (by assumption) ?_ (fun _ => ?_)))
    | split)

theorem State.linkUp_reach (s : State) (l : Nat) : Reach 0x100000000000000000000000000000000000000004000 s (State.linkUp s l) := by
  have h0 := Reach.refl 0x100000000000000000000000000000000000000004000 s
  unfold State.linkUp
  repeat' (first
    | with_reducible assumption
    | exact rfl
    | with_reducible (first
        | refine Reach.ite ?_ ?_
        | apply Reach.then ?_ (State.setLinkState_reach ..) ?_)
    | (split <;> try (refine Reach.cut1 (by assumption) ?_ (fun _ => ?_)))
    | split)

theorem recoveryDoneEffect_reach (link : Fin 16) (s : State) : Reach 0x100000000000000000000000000000000000000804000 s (recoveryDoneEffect link s) := by
  have h0 := Reach.refl 0x100000000000000000000000000000000000000804000 s
  unfold recoveryDoneEffect
  repeat' (first
    | with_reducible assumption
    | exact rfl
    | with_reducible (first
        | refine Reach.ite ?_ ?_
        | apply Reach.then ?_ (State.linkUp_reach ..) ?_
        | apply Reach.then ?_ (State.resend_reach ..) ?_
        | apply Reach.then ?_ (State.setLink_reach ..) ?_)
    | (extract_lets +onlyGivenNames -underBinder -merge -useContext x; first | (refine Reach.cut x ?_ (fun _ => ?_); rotate_left; clear_value x; rotate_left; unfold x; clear x) | (have _ := fun a => x a; unfold x; clear x) | clear_value x)
    | (split <;> try (refine Reach.cut1 (by assumption) ?_ (fun _ => ?_)))
    | split)

theorem State.reportLost_reach (s : State) (die : Nat) (h : Words4) : Reach 0x200000000000000800040000000000000002000c0120000800000000000000d834e0 s (State.reportLost s die h) := by
  have h0 := Reach.refl 0x200000000000000800040000000000000002000c0120000800000000000000d834e0 s
  unfold State.reportLost
  repeat' (first
    | with_reducible assumption
    | exact rfl
    | with_reducible (first
        | refine Reach.ite ?_ ?_
        | apply Reach.then ?_ (State.msgOutcome_reach ..) ?_
        | apply Reach.then ?_ (State.post_reach ..) ?_)
    | (split <;> try (refine Reach.cut1 (by assumption) ?_ (fun _ => ?_)))
    | split)

theorem State.requeue_reach (s : State) (die : Nat) (m : TxMsg) : Reach 0x80000000000000000000000000000000000000000000000800000 s (State.requeue s die m) := by
  have h0 := Reach.refl 0x80000000000000000000000000000000000000000000000800000 s
  unfold State.requeue
  repeat' (first
    | with_reducible assumption
    | exact rfl
    | with_reducible (first
        | refine Reach.ite ?_ ?_
        | apply Reach.then ?_ (State.dataGone_reach ..) ?_
        | apply Reach.then ?_ (State.sendMsg_reach ..) ?_)
    | (split <;> try (refine Reach.cut1 (by assumption) ?_ (fun _ => ?_)))
    | split)

theorem linkRecoverTimeoutEffect_reach (link : Fin 16) (ms : BitVec 16) (s : State) : Reach 0x200000000000000800040001000000000002000c0120000800000000000000d874e0 s (linkRecoverTimeoutEffect link ms s) := by
  have h0 := Reach.refl 0x200000000000000800040001000000000002000c0120000800000000000000d874e0 s
  unfold linkRecoverTimeoutEffect
  repeat' (first
    | with_reducible assumption
    | exact rfl
    | simp -zeta -iota -proj only [Reach1.pair_iff]
    | with_reducible exact Reach1.fst (by assumption)
    | with_reducible (first
        | refine Reach.ite ?_ ?_
        | refine Reach1.ite ?_ ?_
        | refine Reach.foldl _ ?_ (fun _ _ _ => ?_)
        | refine Reach1.foldl _ ?_ (fun _ _ _ => ?_)
        | refine Reach1.fst (Reach1.foldl _ ?_ (fun _ _ _ => ?_))
        | apply Reach.then ?_ (State.reportLost_reach ..) ?_
        | apply Reach.then ?_ (State.requeue_reach ..) ?_
        | apply Reach.then ?_ (State.setLink_reach ..) ?_
        | apply Reach.then ?_ (State.setLinkState_reach ..) ?_)
    | (extract_lets +onlyGivenNames -underBinder -merge -useContext x; first | (refine Reach.cut x ?_ (fun _ => ?_); rotate_left; clear_value x; rotate_left; unfold x; clear x) | (refine Reach.cutP x ?_ (fun _ => ?_); rotate_left; clear_value x; rotate_left; unfold x; clear x) | (have _ := fun a => x a; unfold x; clear x) | clear_value x)
    | (split <;> try (refine Reach.cut1 (by assumption) ?_ (fun _ => ?_)))
    | split)

theorem linkEnableEffect_reach (link : Fin 16) (value : Bool) (s : State) : Reach 0x100000000000000000000000000000000000000004000 s (linkEnableEffect link value s) := by
  have h0 := Reach.refl 0x100000000000000000000000000000000000000004000 s
  unfold linkEnableEffect
  repeat' (first
    | with_reducible assumption
    | exact rfl
    | with_reducible (first
        | refine Reach.ite ?_ ?_
        | apply Reach.then ?_ (State.dput_reach ..) ?_
        | apply Reach.then ?_ (State.setLinkState_reach ..) ?_)
    | (extract_lets +onlyGivenNames -underBinder -merge -useContext x; first | (refine Reach.cut x ?_ (fun _ => ?_); rotate_left; clear_value x; rotate_left; unfold x; clear x) | (have _ := fun a => x a; unfold x; clear x) | clear_value x)
    | (split <;> try (refine Reach.cut1 (by assumption) ?_ (fun _ => ?_)))
    | split)

theorem signalDetectEffect_reach (link : Fin 16) (s : State) : Reach 0x100000000000000000000000000000000000000804000 s (signalDetectEffect link s) := by
  have h0 := Reach.refl 0x100000000000000000000000000000000000000804000 s
  unfold signalDetectEffect
  repeat' (first
    | with_reducible assumption
    | exact rfl
    | with_reducible (first
        | refine Reach.ite ?_ ?_
        | apply Reach.then ?_ (State.setLink_reach ..) ?_
        | apply Reach.then ?_ (State.setLinkState_reach ..) ?_)
    | (extract_lets +onlyGivenNames -underBinder -merge -useContext x; first | (refine Reach.cut x ?_ (fun _ => ?_); rotate_left; clear_value x; rotate_left; unfold x; clear x) | (have _ := fun a => x a; unfold x; clear x) | clear_value x)
    | (split <;> try (refine Reach.cut1 (by assumption) ?_ (fun _ => ?_)))
    | split)

theorem signalLostEffect_reach (link : Fin 16) (s : State) : Reach 0x100000000000000000000000000000000000000004000 s (signalLostEffect link s) := by
  have h0 := Reach.refl 0x100000000000000000000000000000000000000004000 s
  unfold signalLostEffect
  repeat' (first
    | with_reducible assumption
    | exact rfl
    | with_reducible (first
        | refine Reach.ite ?_ ?_
        | apply Reach.then ?_ (State.setLinkState_reach ..) ?_)
    | (extract_lets +onlyGivenNames -underBinder -merge -useContext x; first | (refine Reach.cut x ?_ (fun _ => ?_); rotate_left; clear_value x; rotate_left; unfold x; clear x) | (have _ := fun a => x a; unfold x; clear x) | clear_value x)
    | (split <;> try (refine Reach.cut1 (by assumption) ?_ (fun _ => ?_)))
    | split)

theorem phyTrainDoneEffect_reach (link : Fin 16) (loss : BitVec 16) (s : State) : Reach 0x100000000000000000000000000000000000000804000 s (phyTrainDoneEffect link loss s) := by
  have h0 := Reach.refl 0x100000000000000000000000000000000000000804000 s
  unfold phyTrainDoneEffect
  repeat' (first
    | with_reducible assumption
    | exact rfl
    | with_reducible (first
        | refine Reach.setFld ?_ ?_
        | refine Reach.ite ?_ ?_
        | apply Reach.then ?_ (State.dput_reach ..) ?_
        | apply Reach.then ?_ (State.setLink_reach ..) ?_
        | apply Reach.then ?_ (State.setLinkState_reach ..) ?_)
    | (extract_lets +onlyGivenNames -underBinder -merge -useContext x; first | (refine Reach.cut x ?_ (fun _ => ?_); rotate_left; clear_value x; rotate_left; unfold x; clear x) | (have _ := fun a => x a; unfold x; clear x) | clear_value x)
    | (split <;> try (refine Reach.cut1 (by assumption) ?_ (fun _ => ?_)))
    | split)

theorem phyTrainTimeoutEffect_reach (link : Fin 16) (ms : BitVec 16) (s : State) : Reach 0x100000000000000000000000000000000000000004000 s (phyTrainTimeoutEffect link ms s) := by
  have h0 := Reach.refl 0x100000000000000000000000000000000000000004000 s
  unfold phyTrainTimeoutEffect
  repeat' (first
    | with_reducible assumption
    | exact rfl
    | with_reducible (first
        | refine Reach.ite ?_ ?_
        | apply Reach.then ?_ (State.setLinkState_reach ..) ?_)
    | (split <;> try (refine Reach.cut1 (by assumption) ?_ (fun _ => ?_)))
    | split)

theorem capabilitySendEffect_reach (link : Fin 16) (s : State) : Reach 0x800000 s (capabilitySendEffect link s) := by
  have h0 := Reach.refl 0x800000 s
  unfold capabilitySendEffect
  repeat' (first
    | with_reducible assumption
    | exact rfl
    | with_reducible (first
        | refine Reach.ite ?_ ?_
        | apply Reach.then ?_ (State.sendControl_reach ..) ?_)
    | (extract_lets +onlyGivenNames -underBinder -merge -useContext x; first | (refine Reach.cut x ?_ (fun _ => ?_); rotate_left; clear_value x; rotate_left; unfold x; clear x) | (have _ := fun a => x a; unfold x; clear x) | clear_value x)
    | (split <;> try (refine Reach.cut1 (by assumption) ?_ (fun _ => ?_)))
    | split)

theorem capabilityEffect_reach (link : Fin 16) (flit : FlitIn) (s : State) : Reach 0x98100000000000000000000000000000000000000804000 s (capabilityEffect link flit s) := by
  have h0 := Reach.refl 0x98100000000000000000000000000000000000000804000 s
  unfold capabilityEffect
  repeat' (first
    | with_reducible assumption
    | exact rfl
    | simp -zeta -iota -proj only [Reach1.pair_iff]
    | with_reducible exact Reach1.fst (by assumption)
    | with_reducible (first
        | refine Reach.setFld ?_ ?_
        | refine Reach.ite ?_ ?_
        | apply Reach.then ?_ (State.dput_reach ..) ?_
        | apply Reach.then ?_ (State.setLink_reach ..) ?_
        | apply Reach.then ?_ (State.setLinkState_reach ..) ?_
        | apply Reach1.then ?_ (State.takeControl_reach ..) ?_
        | apply Reach1.fst (Reach1.then ?_ (State.takeControl_reach ..) ?_))
    | (extract_lets +onlyGivenNames -underBinder -merge -useContext x; first | (refine Reach.cut x ?_ (fun _ => ?_); rotate_left; clear_value x; rotate_left; unfold x; clear x) | (refine Reach.cutP x ?_ (fun _ => ?_); rotate_left; clear_value x; rotate_left; unfold x; clear x) | (have _ := fun a => x a; unfold x; clear x) | clear_value x)
    | (split <;> try (refine Reach.cut1 (by assumption) ?_ (fun _ => ?_)))
    | split)

theorem echoRequestEffect_reach (link : Fin 16) (flit : FlitIn) (s : State) : Reach 0x98000000000000000000000000000000000000000800000 s (echoRequestEffect link flit s) := by
  have h0 := Reach.refl 0x98000000000000000000000000000000000000000800000 s
  unfold echoRequestEffect
  repeat' (first
    | with_reducible assumption
    | exact rfl
    | simp -zeta -iota -proj only [Reach1.pair_iff]
    | with_reducible exact Reach1.fst (by assumption)
    | with_reducible (first
        | refine Reach.ite ?_ ?_
        | apply Reach.then ?_ (State.sendControl_reach ..) ?_
        | apply Reach1.then ?_ (State.takeControl_reach ..) ?_
        | apply Reach1.fst (Reach1.then ?_ (State.takeControl_reach ..) ?_))
    | (extract_lets +onlyGivenNames -underBinder -merge -useContext x; first | (refine Reach.cut x ?_ (fun _ => ?_); rotate_left; clear_value x; rotate_left; unfold x; clear x) | (refine Reach.cutP x ?_ (fun _ => ?_); rotate_left; clear_value x; rotate_left; unfold x; clear x) | (have _ := fun a => x a; unfold x; clear x) | clear_value x)
    | (split <;> try (refine Reach.cut1 (by assumption) ?_ (fun _ => ?_)))
    | split)

theorem echoRequestSendEffect_reach (link : Fin 16) (s : State) : Reach 0x800000 s (echoRequestSendEffect link s) := by
  have h0 := Reach.refl 0x800000 s
  unfold echoRequestSendEffect
  repeat' (first
    | with_reducible assumption
    | exact rfl
    | with_reducible (first
        | refine Reach.ite ?_ ?_
        | apply Reach.then ?_ (State.setLink_reach ..) ?_)
    | (extract_lets +onlyGivenNames -underBinder -merge -useContext x; first | (refine Reach.cut x ?_ (fun _ => ?_); rotate_left; clear_value x; rotate_left; unfold x; clear x) | (have _ := fun a => x a; unfold x; clear x) | clear_value x)
    | (split <;> try (refine Reach.cut1 (by assumption) ?_ (fun _ => ?_)))
    | split)

theorem State.measured_reach (s : State) (l : Nat) (rtt : Nat) : Reach 0x300000000000000000000000000000000000000004000 s (State.measured s l rtt) := by
  have h0 := Reach.refl 0x300000000000000000000000000000000000000004000 s
  unfold State.measured
  repeat' (first
    | with_reducible assumption
    | exact rfl
    | with_reducible (first
        | refine Reach.setFld ?_ ?_
        | apply Reach.then ?_ (State.dput_reach ..) ?_
        | apply Reach.then ?_ (State.linkUp_reach ..) ?_)
    | (extract_lets +onlyGivenNames -underBinder -merge -useContext x; first | (refine Reach.cut x ?_ (fun _ => ?_); rotate_left; clear_value x; rotate_left; unfold x; clear x) | (have _ := fun a => x a; unfold x; clear x) | clear_value x)
    | (split <;> try (refine Reach.cut1 (by assumption) ?_ (fun _ => ?_)))
    | split)

theorem echoReplyEffect_reach (link : Fin 16) (flit : FlitIn) (rtt : BitVec 20) (s : State) : Reach 0x98300000000000000000000000000000000000000804000 s (echoReplyEffect link flit rtt s) := by
  have h0 := Reach.refl 0x98300000000000000000000000000000000000000804000 s
  unfold echoReplyEffect
  repeat' (first
    | with_reducible assumption
    | exact rfl
    | simp -zeta -iota -proj only [Reach1.pair_iff]
    | with_reducible exact Reach1.fst (by assumption)
    | with_reducible (first
        | refine Reach.ite ?_ ?_
        | refine Reach1.ite ?_ ?_
        | refine Reach.foldl _ ?_ (fun _ _ _ => ?_)
        | refine Reach1.foldl _ ?_ (fun _ _ _ => ?_)
        | refine Reach1.fst (Reach1.foldl _ ?_ (fun _ _ _ => ?_))
        | apply Reach.then ?_ (State.measured_reach ..) ?_
        | apply Reach.then ?_ (State.setLink_reach ..) ?_
        | apply Reach1.then ?_ (State.takeControl_reach ..) ?_
        | apply Reach1.fst (Reach1.then ?_ (State.takeControl_reach ..) ?_))
    | (extract_lets +onlyGivenNames -underBinder -merge -useContext x; first | (refine Reach.cut x ?_ (fun _ => ?_); rotate_left; clear_value x; rotate_left; unfold x; clear x) | (refine Reach.cutP x ?_ (fun _ => ?_); rotate_left; clear_value x; rotate_left; unfold x; clear x) | (have _ := fun a => x a; unfold x; clear x) | clear_value x)
    | (split <;> try (refine Reach.cut1 (by assumption) ?_ (fun _ => ?_)))
    | split)

end Sys2Proof.Machine
end

