-- ==== Sys2Proof/Laws/ReachSram.lean ====
section
/-!
SUPPORT. The footprint of each function of Machine/Sram.lean.
-/
set_option linter.unusedTactic false
set_option linter.unreachableTactic false
namespace Sys2Proof.Machine

theorem clusterBankGrantEffect_reach (cluster : Fin 24) (bank : Fin 8) (others : BitVec 6) (s : State) : Reach 0x200000000000000000000400 s (clusterBankGrantEffect cluster bank others s) := by
  have h0 := Reach.refl 0x200000000000000000000400 s
  unfold clusterBankGrantEffect
  repeat' (first
    | with_reducible assumption
    | exact rfl
    | simp -zeta -iota -proj only [Reach1.pair_iff]
    | with_reducible exact Reach1.fst (by assumption)
    | with_reducible (first
        | refine Reach.bump ?_ ?_
        | refine Reach.ite ?_ ?_
        | refine Reach1.ite ?_ ?_
        | refine Reach.foldl _ ?_ (fun _ _ _ => ?_)
        | refine Reach1.foldl _ ?_ (fun _ _ _ => ?_)
        | refine Reach1.fst (Reach1.foldl _ ?_ (fun _ _ _ => ?_))
        | apply Reach.then ?_ (State.cluEnter_reach ..) ?_)
    | (extract_lets +onlyGivenNames -underBinder -merge -useContext x; first | (refine Reach.cut x ?_ (fun _ => ?_); rotate_left; clear_value x; rotate_left; unfold x; clear x) | (refine Reach.cutP x ?_ (fun _ => ?_); rotate_left; clear_value x; rotate_left; unfold x; clear x) | (have _ := fun a => x a; unfold x; clear x) | clear_value x)
    | (split <;> try (refine Reach.cut1 (by assumption) ?_ (fun _ => ?_)))
    | split
    | dsimp -zeta only []
    | with_reducible (first
        | refine Reach.set_sram ?_ ?_))

theorem galleryBankGrantEffect_reach (die : Fin 2) (bank : Fin 64) (others : List (Fin 16 × BitVec 6)) (s : State) : Reach 0x24000000000000000000000000000400 s (galleryBankGrantEffect die bank others s) := by
  have h0 := Reach.refl 0x24000000000000000000000000000400 s
  unfold galleryBankGrantEffect
  repeat' (first
    | with_reducible assumption
    | exact rfl
    | simp -zeta -iota -proj only [Reach1.pair_iff]
    | with_reducible exact Reach1.fst (by assumption)
    | with_reducible (first
        | refine Reach.bump ?_ ?_
        | refine Reach.foldl _ ?_ (fun _ _ _ => ?_)
        | refine Reach1.foldl _ ?_ (fun _ _ _ => ?_)
        | refine Reach1.fst (Reach1.foldl _ ?_ (fun _ _ _ => ?_))
        | apply Reach.then ?_ (State.galEnter_reach ..) ?_
        | apply Reach.then ?_ (State.setGalBank_reach ..) ?_)
    | (extract_lets +onlyGivenNames -underBinder -merge -useContext x; first | (refine Reach.cut x ?_ (fun _ => ?_); rotate_left; clear_value x; rotate_left; unfold x; clear x) | (refine Reach.cutP x ?_ (fun _ => ?_); rotate_left; clear_value x; rotate_left; unfold x; clear x) | (have _ := fun a => x a; unfold x; clear x) | clear_value x)
    | (split <;> try (refine Reach.cut1 (by assumption) ?_ (fun _ => ?_)))
    | split)

theorem State.relaunchOn_reach (s : State) (launch : Nat) (u : Nat × Nat) (cluster : Nat) : Reach 0x200000000000000000000000000000000002000d01ac0008000000000000005834e0 s (State.relaunchOn s launch u cluster) := by
  have h0 := Reach.refl 0x200000000000000000000000000000000002000d01ac0008000000000000005834e0 s
  unfold State.relaunchOn
  repeat' (first
    | with_reducible assumption
    | exact rfl
    | with_reducible (first
        | refine Reach.bump ?_ ?_
        | refine Reach.ite ?_ ?_
        | apply Reach.then ?_ (State.countRecompute_reach ..) ?_
        | apply Reach.then ?_ (State.launchChain_reach ..) ?_
        | apply Reach.then ?_ (State.regionClamp_reach ..) ?_
        | apply Reach.then ?_ (State.setSeq_reach ..) ?_)
    | (extract_lets +onlyGivenNames -underBinder -merge -useContext x; first | (refine Reach.cut x ?_ (fun _ => ?_); rotate_left; clear_value x; rotate_left; unfold x; clear x) | (have _ := fun a => x a; unfold x; clear x) | clear_value x)
    | (split <;> try (refine Reach.cut1 (by assumption) ?_ (fun _ => ?_)))
    | split
    | with_reducible (first
        | refine Reach.set_chains ?_ ?_))

theorem rerunLaunchEffect_reach (unit : RerunRef) (s : State) : Reach 0x200000000000000000000000000000000002000d01ac0008000000000000005835e0 s (rerunLaunchEffect unit s) := by
  have h0 := Reach.refl 0x200000000000000000000000000000000002000d01ac0008000000000000005835e0 s
  unfold rerunLaunchEffect
  repeat' (first
    | with_reducible assumption
    | exact rfl
    | simp -zeta -iota -proj only [Reach1.pair_iff]
    | with_reducible exact Reach1.fst (by assumption)
    | with_reducible (first
        | refine Reach.ite ?_ ?_
        | refine Reach1.ite ?_ ?_
        | refine Reach.foldl _ ?_ (fun _ _ _ => ?_)
        | refine Reach1.foldl _ ?_ (fun _ _ _ => ?_)
        | refine Reach1.fst (Reach1.foldl _ ?_ (fun _ _ _ => ?_))
        | apply Reach.then ?_ (State.relaunchOn_reach ..) ?_
        | apply Reach.then ?_ (State.setUnit_reach ..) ?_)
    | (extract_lets +onlyGivenNames -underBinder -merge -useContext x; first | (refine Reach.cut x ?_ (fun _ => ?_); rotate_left; clear_value x; rotate_left; unfold x; clear x) | (refine Reach.cutP x ?_ (fun _ => ?_); rotate_left; clear_value x; rotate_left; unfold x; clear x) | (have _ := fun a => x a; unfold x; clear x) | clear_value x)
    | (split <;> try (refine Reach.cut1 (by assumption) ?_ (fun _ => ?_)))
    | split)

theorem State.parityIn_reach (s : State) (c : Option Chain) (pa : Nat) : Reach 0x200000000000000000000000000000000002100d01000008000000000000005829fd s (State.parityIn s c pa) := by
  have h0 := Reach.refl 0x200000000000000000000000000000000002100d01000008000000000000005829fd s
  unfold State.parityIn
  repeat' (first
    | with_reducible assumption
    | exact rfl
    | simp -zeta -iota -proj only [Reach1.pair_iff]
    | with_reducible exact Reach1.fst (by assumption)
    | with_reducible (first
        | refine Reach.bump ?_ ?_
        | refine Reach.ite ?_ ?_
        | apply Reach1.then ?_ (State.parityStops_reach ..) ?_
        | apply Reach1.fst (Reach1.then ?_ (State.parityStops_reach ..) ?_)
        | apply Reach.then ?_ (State.refetchClean_reach ..) ?_)
    | (split <;> try (refine Reach.cut1 (by assumption) ?_ (fun _ => ?_)))
    | split)

theorem parityErrorEffect_reach (site : SramSite) (req : BitVec 4) (reader : ChainRef) (s : State) : Reach 0x2000000000000000000000000000000000021b0d0100c00d000000000000005829fd s (parityErrorEffect site req reader s) := by
  have h0 := Reach.refl 0x2000000000000000000000000000000000021b0d0100c00d000000000000005829fd s
  unfold parityErrorEffect
  repeat' (first
    | with_reducible assumption
    | exact rfl
    | with_reducible (first
        | apply Reach.then ?_ (State.logLens_reach ..) ?_
        | apply Reach.then ?_ (State.logParityAt_reach ..) ?_
        | apply Reach.then ?_ (State.parityIn_reach ..) ?_
        | apply Reach.then ?_ (State.rerunError_reach ..) ?_)
    | (extract_lets +onlyGivenNames -underBinder -merge -useContext x; first | (refine Reach.cut x ?_ (fun _ => ?_); rotate_left; clear_value x; rotate_left; unfold x; clear x) | (have _ := fun a => x a; unfold x; clear x) | clear_value x)
    | (split <;> try (refine Reach.cut1 (by assumption) ?_ (fun _ => ?_)))
    | split
    | with_reducible (first
        | refine Reach.set_badCheck ?_ ?_))

theorem State.countCrc_reach (s : State) (site : SramSite) : Reach 0x40000001000200000000000000000000 s (State.countCrc s site) := by
  have h0 := Reach.refl 0x40000001000200000000000000000000 s
  unfold State.countCrc
  repeat' (first
    | with_reducible assumption
    | exact rfl
    | with_reducible (first
        | refine Reach.bump ?_ ?_)
    | (split <;> try (refine Reach.cut1 (by assumption) ?_ (fun _ => ?_)))
    | split)

theorem State.countRefetch_reach (s : State) (site : SramSite) : Reach 0x2000000000000000000000000 s (State.countRefetch s site) := by
  have h0 := Reach.refl 0x2000000000000000000000000 s
  unfold State.countRefetch
  repeat' (first
    | with_reducible assumption
    | exact rfl
    | with_reducible (first
        | refine Reach.bump ?_ ?_)
    | (split <;> try (refine Reach.cut1 (by assumption) ?_ (fun _ => ?_)))
    | split)

theorem State.putLine_reach (s : State) (l : LineArrival) : Reach 0x40001000000000000000000000000001022011f820000000000000000000000000087c1f s (State.putLine s l) := by
  have h0 := Reach.refl 0x40001000000000000000000000000001022011f820000000000000000000000000087c1f s
  unfold State.putLine
  repeat' (first
    | with_reducible assumption
    | exact rfl
    | simp -zeta -iota -proj only [Reach1.pair_iff]
    | with_reducible exact Reach1.fst (by assumption)
    | with_reducible (first
        | refine Reach.ite ?_ ?_
        | refine Reach1.ite ?_ ?_
        | refine Reach.foldl _ ?_ (fun _ _ _ => ?_)
        | refine Reach1.foldl _ ?_ (fun _ _ _ => ?_)
        | refine Reach1.fst (Reach1.foldl _ ?_ (fun _ _ _ => ?_))
        | apply Reach.then ?_ (State.devWrite_reach ..) ?_
        | apply Reach.then ?_ (State.leavePoison_reach ..) ?_
        | apply Reach.then ?_ (State.lensPut_reach ..) ?_
        | apply Reach.then ?_ (State.putMem_reach ..) ?_
        | apply Reach.then ?_ (State.useSlots_reach ..) ?_)
    | (extract_lets +onlyGivenNames -underBinder -merge -useContext x; first | (refine Reach.cut x ?_ (fun _ => ?_); rotate_left; clear_value x; rotate_left; unfold x; clear x) | (refine Reach.cutP x ?_ (fun _ => ?_); rotate_left; clear_value x; rotate_left; unfold x; clear x) | (have _ := fun a => x a; unfold x; clear x) | clear_value x)
    | (split <;> try (refine Reach.cut1 (by assumption) ?_ (fun _ => ?_)))
    | split
    | dsimp -zeta only []
    | with_reducible (first
        | refine Reach.set_poison ?_ ?_))

theorem State.setRefetch_reach (s : State) (site : SramSite) (r : Option Refetch) : Reach 0x400 s (State.setRefetch s site r) := by
  have h0 := Reach.refl 0x400 s
  unfold State.setRefetch
  repeat' (first
    | with_reducible assumption
    | exact rfl
    | (extract_lets +onlyGivenNames -underBinder -merge -useContext x; first | (refine Reach.cut x ?_ (fun _ => ?_); rotate_left; clear_value x; rotate_left; unfold x; clear x) | (have _ := fun a => x a; unfold x; clear x) | clear_value x)
    | (split <;> try (refine Reach.cut1 (by assumption) ?_ (fun _ => ?_)))
    | split
    | with_reducible (first
        | refine Reach.set_sram ?_ ?_))

theorem State.crcFailed_reach (s : State) (l : LineArrival) : Reach 0x200000000000000000000000000000000002400c0103000a000000000000005825e0 s (State.crcFailed s l) := by
  have h0 := Reach.refl 0x200000000000000000000000000000000002400c0103000a000000000000005825e0 s
  unfold State.crcFailed
  repeat' (first
    | with_reducible assumption
    | exact rfl
    | with_reducible (first
        | refine Reach.ite ?_ ?_
        | apply Reach.then ?_ (State.countCrc_reach ..) ?_
        | apply Reach.then ?_ (State.countRefetch_reach ..) ?_
        | apply Reach.then ?_ (State.rerunError_reach ..) ?_
        | apply Reach.then ?_ (State.setRefetch_reach ..) ?_)
    | (extract_lets +onlyGivenNames -underBinder -merge -useContext x; first | (refine Reach.cut x ?_ (fun _ => ?_); rotate_left; clear_value x; rotate_left; unfold x; clear x) | (have _ := fun a => x a; unfold x; clear x) | clear_value x)
    | (split <;> try (refine Reach.cut1 (by assumption) ?_ (fun _ => ?_)))
    | split)

theorem lineCrcFailEffect_reach (l : LineArrival) (s : State) : Reach 0x40003000000000000000000000000001022011fa600c0103000a00000000000000587dff s (lineCrcFailEffect l s) := by
  have h0 := Reach.refl 0x40003000000000000000000000000001022011fa600c0103000a00000000000000587dff s
  unfold lineCrcFailEffect
  repeat' (first
    | with_reducible assumption
    | exact rfl
    | with_reducible (first
        | refine Reach.ite ?_ ?_
        | apply Reach.then ?_ (State.crcFailed_reach ..) ?_
        | apply Reach.then ?_ (State.putLine_reach ..) ?_)
    | (split <;> try (refine Reach.cut1 (by assumption) ?_ (fun _ => ?_)))
    | split)

theorem lineRefetchDoneEffect_reach (l : LineArrival) (s : State) : Reach 0x40003000000000000000000000000001022011fa600c0103000a00000000000000587dff s (lineRefetchDoneEffect l s) := by
  have h0 := Reach.refl 0x40003000000000000000000000000001022011fa600c0103000a00000000000000587dff s
  unfold lineRefetchDoneEffect
  repeat' (first
    | with_reducible assumption
    | exact rfl
    | with_reducible (first
        | refine Reach.ite ?_ ?_
        | apply Reach.then ?_ (State.crcFailed_reach ..) ?_
        | apply Reach.then ?_ (State.putLine_reach ..) ?_
        | apply Reach.then ?_ (State.setRefetch_reach ..) ?_
        | apply Reach.then ?_ (State.showTasks_reach ..) ?_)
    | (extract_lets +onlyGivenNames -underBinder -merge -useContext x; first | (refine Reach.cut x ?_ (fun _ => ?_); rotate_left; clear_value x; rotate_left; unfold x; clear x) | (have _ := fun a => x a; unfold x; clear x) | clear_value x)
    | (split <;> try (refine Reach.cut1 (by assumption) ?_ (fun _ => ?_)))
    | split)

theorem galRepairCmdEffect_reach (die : Fin 2) (value : Word) (s : State) : Reach 0x4000000c00000000000000000000000000c00 s (galRepairCmdEffect die value s) := by
  have h0 := Reach.refl 0x4000000c00000000000000000000000000c00 s
  unfold galRepairCmdEffect
  repeat' (first
    | with_reducible assumption
    | exact rfl
    | simp -zeta -iota -proj only [Reach1.pair_iff]
    | with_reducible exact Reach1.fst (by assumption)
    | with_reducible (first
        | refine Reach.wr ?_ ?_
        | refine Reach.setFld ?_ ?_
        | refine Reach.ite ?_ ?_
        | apply Reach1.then ?_ (State.enterAct_reach ..) ?_
        | apply Reach1.fst (Reach1.then ?_ (State.enterAct_reach ..) ?_)
        | apply Reach.then ?_ (State.setArb_reach ..) ?_)
    | (extract_lets +onlyGivenNames -underBinder -merge -useContext x; first | (refine Reach.cut x ?_ (fun _ => ?_); rotate_left; clear_value x; rotate_left; unfold x; clear x) | (refine Reach.cutP x ?_ (fun _ => ?_); rotate_left; clear_value x; rotate_left; unfold x; clear x) | (have _ := fun a => x a; unfold x; clear x) | clear_value x)
    | (split <;> try (refine Reach.cut1 (by assumption) ?_ (fun _ => ?_)))
    | split
    | with_reducible (first
        | refine Reach.set_sram ?_ ?_))

theorem State.showSpares_reach (s : State) : Reach 0x4000 s (State.showSpares s) := by
  have h0 := Reach.refl 0x4000 s
  unfold State.showSpares
  repeat' (first
    | with_reducible assumption
    | exact rfl
    | simp -zeta -iota -proj only [Reach1.pair_iff]
    | with_reducible exact Reach1.fst (by assumption)
    | with_reducible (first
        | refine Reach.foldl _ ?_ (fun _ _ _ => ?_)
        | refine Reach1.foldl _ ?_ (fun _ _ _ => ?_)
        | refine Reach1.fst (Reach1.foldl _ ?_ (fun _ _ _ => ?_))
        | apply Reach.then ?_ (State.dput_reach ..) ?_)
    | (extract_lets +onlyGivenNames -underBinder -merge -useContext x; first | (refine Reach.cut x ?_ (fun _ => ?_); rotate_left; clear_value x; rotate_left; unfold x; clear x) | (refine Reach.cutP x ?_ (fun _ => ?_); rotate_left; clear_value x; rotate_left; unfold x; clear x) | (have _ := fun a => x a; unfold x; clear x) | clear_value x))

theorem State.logRepair_reach (s : State) (w : Word) : Reach 0x400 s (State.logRepair s w) := by
  have h0 := Reach.refl 0x400 s
  unfold State.logRepair
  repeat' (first
    | with_reducible assumption
    | exact rfl
    | with_reducible (first
        | refine Reach.set_sram ?_ ?_))

theorem State.showBank_reach (s : State) (die : Nat) (bank : Nat) : Reach 0x2000000000000000000000000000000 s (State.showBank s die bank) := by
  have h0 := Reach.refl 0x2000000000000000000000000000000 s
  unfold State.showBank
  repeat' (first
    | with_reducible assumption
    | exact rfl
    | with_reducible (first
        | refine Reach.setFld ?_ ?_)
    | (extract_lets +onlyGivenNames -underBinder -merge -useContext x; first | (refine Reach.cut x ?_ (fun _ => ?_); rotate_left; clear_value x; rotate_left; unfold x; clear x) | (have _ := fun a => x a; unfold x; clear x) | clear_value x))

theorem State.mapRow_reach (s : State) (die : Nat) (bank : Nat) (row : Nat) (spare : Nat) : Reach 0x2000000000000000000000000000400 s (State.mapRow s die bank row spare) := by
  have h0 := Reach.refl 0x2000000000000000000000000000400 s
  unfold State.mapRow
  repeat' (first
    | with_reducible assumption
    | exact rfl
    | with_reducible (first
        | refine Reach.ite ?_ ?_
        | apply Reach.then ?_ (State.showBank_reach ..) ?_)
    | (extract_lets +onlyGivenNames -underBinder -merge -useContext x; first | (refine Reach.cut x ?_ (fun _ => ?_); rotate_left; clear_value x; rotate_left; unfold x; clear x) | (have _ := fun a => x a; unfold x; clear x) | clear_value x)
    | (split <;> try (refine Reach.cut1 (by assumption) ?_ (fun _ => ?_)))
    | split
    | with_reducible (first
        | refine Reach.set_sram ?_ ?_))

theorem State.copyRow_reach (s : State) (die : Nat) (bank : Nat) : Reach 0x20000000000000000000000000000400 s (State.copyRow s die bank) := by
  have h0 := Reach.refl 0x20000000000000000000000000000400 s
  unfold State.copyRow
  repeat' (first
    | with_reducible assumption
    | exact rfl
    | simp -zeta -iota -proj only [Reach1.pair_iff]
    | with_reducible exact Reach1.fst (by assumption)
    | with_reducible (first
        | refine Reach.foldl _ ?_ (fun _ _ _ => ?_)
        | refine Reach1.foldl _ ?_ (fun _ _ _ => ?_)
        | refine Reach1.fst (Reach1.foldl _ ?_ (fun _ _ _ => ?_))
        | apply Reach.then ?_ (State.galEnter_reach ..) ?_))

theorem rowRepairRunEffect_reach (die : Fin 2) (s : State) : Reach 0x100000000000000000000000000183a411f82b800000c00000000000000000087c1d s (rowRepairRunEffect die s) := by
  have h0 := Reach.refl 0x100000000000000000000000000183a411f82b800000c00000000000000000087c1d s
  unfold rowRepairRunEffect
  repeat' (first
    | with_reducible assumption
    | exact rfl
    | with_reducible (first
        | refine Reach.setFld ?_ ?_
        | refine Reach.ite ?_ ?_
        | apply Reach.then ?_ (State.copyRow_reach ..) ?_
        | apply Reach.then ?_ (State.endAct_reach ..) ?_
        | apply Reach.then ?_ (State.logRepair_reach ..) ?_
        | apply Reach.then ?_ (State.mapRow_reach ..) ?_
        | apply Reach.then ?_ (State.retireFrame_reach ..) ?_
        | apply Reach.then ?_ (State.showSpares_reach ..) ?_)
    | (extract_lets +onlyGivenNames -underBinder -merge -useContext x; first | (refine Reach.cut x ?_ (fun _ => ?_); rotate_left; clear_value x; rotate_left; unfold x; clear x) | (have _ := fun a => x a; unfold x; clear x) | clear_value x)
    | (split <;> try (refine Reach.cut1 (by assumption) ?_ (fun _ => ?_)))
    | split
    | with_reducible (first
        | refine Reach.set_sram ?_ ?_))

theorem State.launchExtra_reach (s : State) (c : Chain) (clamps : Nat) (origin : Nat) (regenFor : Option (Nat × Nat)) : Reach 0x200000000000000000000000000000000002000d01a00008000000000000005834e0 s (State.launchExtra s c clamps origin regenFor) := by
  have h0 := Reach.refl 0x200000000000000000000000000000000002000d01a00008000000000000005834e0 s
  unfold State.launchExtra
  repeat' (first
    | with_reducible assumption
    | exact rfl
    | with_reducible (first
        | refine Reach.ite ?_ ?_
        | apply Reach.then ?_ (State.launchChain_reach ..) ?_)
    | (extract_lets +onlyGivenNames -underBinder -merge -useContext x; first | (refine Reach.cut x ?_ (fun _ => ?_); rotate_left; clear_value x; rotate_left; unfold x; clear x) | (have _ := fun a => x a; unfold x; clear x) | clear_value x)
    | (split <;> try (refine Reach.cut1 (by assumption) ?_ (fun _ => ?_)))
    | split
    | with_reducible (first
        | refine Reach.set_seqs ?_ ?_))

theorem predictorCommitLaunchEffect_reach (cluster : Fin 24) (launch : BitVec 12) (region : BitVec 16) (s : State) : Reach 0x200000000000000000000000000000000002000d01e00008000000000000005834e0 s (predictorCommitLaunchEffect cluster launch region s) := by
  have h0 := Reach.refl 0x200000000000000000000000000000000002000d01e00008000000000000005834e0 s
  unfold predictorCommitLaunchEffect
  repeat' (first
    | with_reducible assumption
    | exact rfl
    | with_reducible (first
        | refine Reach.bump ?_ ?_
        | refine Reach.ite ?_ ?_
        | apply Reach.then ?_ (State.launchExtra_reach ..) ?_
        | apply Reach.then ?_ (State.regionClamp_reach ..) ?_)
    | (extract_lets +onlyGivenNames -underBinder -merge -useContext x; first | (refine Reach.cut x ?_ (fun _ => ?_); rotate_left; clear_value x; rotate_left; unfold x; clear x) | (have _ := fun a => x a; unfold x; clear x) | clear_value x)
    | (split <;> try (refine Reach.cut1 (by assumption) ?_ (fun _ => ?_)))
    | split
    | dsimp -zeta only []
    | with_reducible (first
        | refine Reach.set_seqs ?_ ?_))

theorem checkpointRegenerationEffect_reach (reader : ChainRef) (ckpt : BitVec 5) (s : State) : Reach 0x200000000000000000000000000000000002000d01b00008000000000000005836e0 s (checkpointRegenerationEffect reader ckpt s) := by
  have h0 := Reach.refl 0x200000000000000000000000000000000002000d01b00008000000000000005836e0 s
  unfold checkpointRegenerationEffect
  repeat' (first
    | with_reducible assumption
    | exact rfl
    | with_reducible (first
        | refine Reach.bump ?_ ?_
        | refine Reach.ite ?_ ?_
        | apply Reach.then ?_ (State.endChain_reach ..) ?_
        | apply Reach.then ?_ (State.launchExtra_reach ..) ?_
        | apply Reach.then ?_ (State.regionClamp_reach ..) ?_)
    | (extract_lets +onlyGivenNames -underBinder -merge -useContext x; first | (refine Reach.cut x ?_ (fun _ => ?_); rotate_left; clear_value x; rotate_left; unfold x; clear x) | (have _ := fun a => x a; unfold x; clear x) | clear_value x)
    | (split <;> try (refine Reach.cut1 (by assumption) ?_ (fun _ => ?_)))
    | split
    | with_reducible (first
        | refine Reach.set_regens ?_ ?_))

end Sys2Proof.Machine
end

