-- ==== Sys2Proof/Laws/ReachHbm.lean ====
section
/-!
SUPPORT. The footprint of each function of Machine/Hbm.lean.
-/
set_option linter.unusedTactic false
set_option linter.unreachableTactic false
namespace Sys2Proof.Machine

theorem State.disturb_reach (s : State) (pa : Nat) (noise : BitVec 256) (checkNoise : BitVec 16) : Reach 0x9 s (State.disturb s pa noise checkNoise) := by
  have h0 := Reach.refl 0x9 s
  unfold State.disturb
  repeat' (first
    | with_reducible assumption
    | exact rfl
    | with_reducible (first
        | refine Reach.ite ?_ ?_)
    | (extract_lets +onlyGivenNames -underBinder -merge -useContext x; first | (refine Reach.cut x ?_ (fun _ => ?_); rotate_left; clear_value x; rotate_left; unfold x; clear x) | (have _ := fun a => x a; unfold x; clear x) | clear_value x)
    | (split <;> try (refine Reach.cut1 (by assumption) ?_ (fun _ => ?_)))
    | split
    | exact fun h => h
    | with_reducible (first
        | refine Reach.set_mem ?_ ?_ ?_
        | refine Reach.set_hbmDelta ?_ ?_ ?_
        | refine Reach.litMk ?_ rfl (fun _ h => h) ?_ ?_ ?_ ?_)
    | exact fun h => canonical_putD _ _ _ h
    | exact fun h => canonical_foldl _ _ _ _ (canonical_clearRange _ _ _ h)
    | exact fun h => canonical_putRun _ _ _ h
    | exact fun h => canonical_clearRange _ _ _ h
    | exact fun h => canonical_filter _ _ h
    | (intro (c : Cell) (hc : _); cases c <;> first | rfl | exact absurd hc (by decide) | exact fun _ _ => rfl))

theorem State.hbmArrive_reach (s : State) (r : HbmReq) : Reach 0x20000000000000000000000000000000800 s (State.hbmArrive s r) := by
  have h0 := Reach.refl 0x20000000000000000000000000000000800 s
  unfold State.hbmArrive
  repeat' (first
    | with_reducible assumption
    | exact rfl
    | with_reducible (first
        | refine Reach.bump ?_ ?_
        | refine Reach.ite ?_ ?_
        | apply Reach.then ?_ (State.dropWritebacks_reach ..) ?_
        | apply Reach.then ?_ (State.setChan_reach ..) ?_)
    | (extract_lets +onlyGivenNames -underBinder -merge -useContext x; first | (refine Reach.cut x ?_ (fun _ => ?_); rotate_left; clear_value x; rotate_left; unfold x; clear x) | (have _ := fun a => x a; unfold x; clear x) | clear_value x)
    | (split <;> try (refine Reach.cut1 (by assumption) ?_ (fun _ => ?_)))
    | split)

theorem State.serveNext_reach (s : State) (pa : Nat) (ready : BitVec 64) (severity : Bool) (mine : HbmReq → Bool) (noise : BitVec 256) (checkNoise : BitVec 16) : Reach 0x1000000000000000000000000001022011f80000000000000000000000000008781d s (State.serveNext s pa ready severity mine noise checkNoise) := by
  have h0 := Reach.refl 0x1000000000000000000000000001022011f80000000000000000000000000008781d s
  unfold State.serveNext
  repeat' (first
    | with_reducible assumption
    | exact rfl
    | with_reducible (first
        | refine Reach.ite ?_ ?_
        | apply Reach.then ?_ (State.disturb_reach ..) ?_
        | apply Reach.then ?_ (State.serveHbm_reach ..) ?_
        | apply Reach.then ?_ (State.setChan_reach ..) ?_)
    | (extract_lets +onlyGivenNames -underBinder -merge -useContext x; first | (refine Reach.cut x ?_ (fun _ => ?_); rotate_left; clear_value x; rotate_left; unfold x; clear x) | (have _ := fun a => x a; unfold x; clear x) | clear_value x)
    | (split <;> try (refine Reach.cut1 (by assumption) ?_ (fun _ => ?_)))
    | split)

theorem hbmReadEffect_reach (addr : BitVec 48) (owner : BitVec 6) (port : BitVec 6) (phase : HbmPhase) (s : State) : Reach 0x2400030110007433057eb24020001010303a413fa3b8c0120c008000000000017efd9fcfd s (hbmReadEffect addr owner port phase s) := by
  have h0 := Reach.refl 0x2400030110007433057eb24020001010303a413fa3b8c0120c008000000000017efd9fcfd s
  unfold hbmReadEffect
  repeat' (first
    | with_reducible assumption
    | exact rfl
    | simp -zeta -iota -proj only [Reach1.pair_iff]
    | with_reducible exact Reach1.fst (by assumption)
    | with_reducible (first
        | refine Reach.ite ?_ ?_
        | apply Reach.then ?_ (State.hbmArrive_reach ..) ?_
        | apply Reach1.then ?_ (State.serve_reach ..) ?_
        | apply Reach1.fst (Reach1.then ?_ (State.serve_reach ..) ?_)
        | apply Reach.then ?_ (State.serveNext_reach ..) ?_)
    | (extract_lets +onlyGivenNames -underBinder -merge -useContext x; first | (refine Reach.cut x ?_ (fun _ => ?_); rotate_left; clear_value x; rotate_left; unfold x; clear x) | (refine Reach.cutP x ?_ (fun _ => ?_); rotate_left; clear_value x; rotate_left; unfold x; clear x) | (have _ := fun a => x a; unfold x; clear x) | clear_value x)
    | (split <;> try (refine Reach.cut1 (by assumption) ?_ (fun _ => ?_)))
    | split)

theorem hbmWriteEffect_reach (addr : BitVec 48) (owner : BitVec 6) (port : BitVec 6) (data : BitVec 256) (mask : BitVec 32) (phase : HbmPhase) (s : State) : Reach 0x2400030110007433057eb24020001010303a413fa3b8c0120c008000000000017efd9fcfd s (hbmWriteEffect addr owner port data mask phase s) := by
  have h0 := Reach.refl 0x2400030110007433057eb24020001010303a413fa3b8c0120c008000000000017efd9fcfd s
  unfold hbmWriteEffect
  repeat' (first
    | with_reducible assumption
    | exact rfl
    | simp -zeta -iota -proj only [Reach1.pair_iff]
    | with_reducible exact Reach1.fst (by assumption)
    | with_reducible (first
        | refine Reach.ite ?_ ?_
        | apply Reach.then ?_ (State.hbmArrive_reach ..) ?_
        | apply Reach1.then ?_ (State.serve_reach ..) ?_
        | apply Reach1.fst (Reach1.then ?_ (State.serve_reach ..) ?_)
        | apply Reach.then ?_ (State.serveNext_reach ..) ?_)
    | (extract_lets +onlyGivenNames -underBinder -merge -useContext x; first | (refine Reach.cut x ?_ (fun _ => ?_); rotate_left; clear_value x; rotate_left; unfold x; clear x) | (refine Reach.cutP x ?_ (fun _ => ?_); rotate_left; clear_value x; rotate_left; unfold x; clear x) | (have _ := fun a => x a; unfold x; clear x) | clear_value x)
    | (split <;> try (refine Reach.cut1 (by assumption) ?_ (fun _ => ?_)))
    | split)

theorem correctionWritebackEffect_reach (turn : WritebackTurn) (s : State) : Reach 0x1000000000000000000000000001022011f80000000000000000000000000008781d s (correctionWritebackEffect turn s) := by
  have h0 := Reach.refl 0x1000000000000000000000000001022011f80000000000000000000000000008781d s
  unfold correctionWritebackEffect
  repeat' (first
    | with_reducible assumption
    | exact rfl
    | with_reducible (first
        | refine Reach.ite ?_ ?_
        | apply Reach.then ?_ (State.serveNext_reach ..) ?_)
    | (extract_lets +onlyGivenNames -underBinder -merge -useContext x; first | (refine Reach.cut x ?_ (fun _ => ?_); rotate_left; clear_value x; rotate_left; unfold x; clear x) | (have _ := fun a => x a; unfold x; clear x) | clear_value x)
    | (split <;> try (refine Reach.cut1 (by assumption) ?_ (fun _ => ?_)))
    | split)

theorem heldRequestEnterEffect_reach (controller : Fin 8) (pc : Fin 32) (s : State) : Reach 0x800 s (heldRequestEnterEffect controller pc s) := by
  have h0 := Reach.refl 0x800 s
  unfold heldRequestEnterEffect
  repeat' (first
    | with_reducible assumption
    | exact rfl
    | with_reducible (first
        | apply Reach.then ?_ (State.setChan_reach ..) ?_))

theorem State.submitAct_reach (s : State) (die : Nat) (a : MaintAct) : Reach 0x4000000800000000000000000000000000800 s (State.submitAct s die a) := by
  have h0 := Reach.refl 0x4000000800000000000000000000000000800 s
  unfold State.submitAct
  repeat' (first
    | with_reducible assumption
    | exact rfl
    | simp -zeta -iota -proj only [Reach1.pair_iff]
    | with_reducible exact Reach1.fst (by assumption)
    | with_reducible (first
        | apply Reach1.then ?_ (State.enterAct_reach ..) ?_
        | apply Reach1.fst (Reach1.then ?_ (State.enterAct_reach ..) ?_)
        | apply Reach.then ?_ (State.setArb_reach ..) ?_)
    | (extract_lets +onlyGivenNames -underBinder -merge -useContext x; first | (refine Reach.cut x ?_ (fun _ => ?_); rotate_left; clear_value x; rotate_left; unfold x; clear x) | (refine Reach.cutP x ?_ (fun _ => ?_); rotate_left; clear_value x; rotate_left; unfold x; clear x) | (have _ := fun a => x a; unfold x; clear x) | clear_value x)
    | (split <;> try (refine Reach.cut1 (by assumption) ?_ (fun _ => ?_)))
    | split)

theorem State.requestCal_reach (s : State) (die : Nat) (group : Nat) (force : Bool) : Reach 0x4000000800000000000000000000000000800 s (State.requestCal s die group force) := by
  have h0 := Reach.refl 0x4000000800000000000000000000000000800 s
  unfold State.requestCal
  repeat' (first
    | with_reducible assumption
    | exact rfl
    | with_reducible (first
        | refine Reach.ite ?_ ?_
        | apply Reach.then ?_ (State.submitAct_reach ..) ?_)
    | (split <;> try (refine Reach.cut1 (by assumption) ?_ (fun _ => ?_)))
    | split)

theorem State.forceCal_reach (s : State) (die : Nat) (group : Nat) : Reach 0x80000000000000000000000000000000800 s (State.forceCal s die group) := by
  have h0 := Reach.refl 0x80000000000000000000000000000000800 s
  unfold State.forceCal
  repeat' (first
    | with_reducible assumption
    | exact rfl
    | with_reducible (first
        | refine Reach.bump ?_ ?_
        | refine Reach.ite ?_ ?_
        | apply Reach.then ?_ (State.setArb_reach ..) ?_)
    | (extract_lets +onlyGivenNames -underBinder -merge -useContext x; first | (refine Reach.cut x ?_ (fun _ => ?_); rotate_left; clear_value x; rotate_left; unfold x; clear x) | (have _ := fun a => x a; unfold x; clear x) | clear_value x)
    | (split <;> try (refine Reach.cut1 (by assumption) ?_ (fun _ => ?_)))
    | split
    | dsimp -zeta only [])

theorem State.checkDrift_reach (s : State) (die : Nat) (stack : Nat) (temp : Nat) (k : Nat) : Reach 0x4080000800000000000000000000000000800 s (State.checkDrift s die stack temp k) := by
  have h0 := Reach.refl 0x4080000800000000000000000000000000800 s
  unfold State.checkDrift
  repeat' (first
    | with_reducible assumption
    | exact rfl
    | with_reducible (first
        | refine Reach.bump ?_ ?_
        | refine Reach.ite ?_ ?_
        | apply Reach.then ?_ (State.forceCal_reach ..) ?_
        | apply Reach.then ?_ (State.requestCal_reach ..) ?_)
    | (extract_lets +onlyGivenNames -underBinder -merge -useContext x; first | (refine Reach.cut x ?_ (fun _ => ?_); rotate_left; clear_value x; rotate_left; unfold x; clear x) | (have _ := fun a => x a; unfold x; clear x) | clear_value x)
    | (split <;> try (refine Reach.cut1 (by assumption) ?_ (fun _ => ?_)))
    | split
    | with_reducible (first
        | refine Reach.set_hbm ?_ ?_))

theorem stackTempReadEffect_reach (controller : Fin 8) (temp : BitVec 8) (s : State) : Reach 0x4080000800000000000000000000000000800 s (stackTempReadEffect controller temp s) := by
  have h0 := Reach.refl 0x4080000800000000000000000000000000800 s
  unfold stackTempReadEffect
  repeat' (first
    | with_reducible assumption
    | exact rfl
    | simp -zeta -iota -proj only [Reach1.pair_iff]
    | with_reducible exact Reach1.fst (by assumption)
    | with_reducible (first
        | refine Reach.ite ?_ ?_
        | refine Reach1.ite ?_ ?_
        | refine Reach.foldl _ ?_ (fun _ _ _ => ?_)
        | refine Reach1.foldl _ ?_ (fun _ _ _ => ?_)
        | refine Reach1.fst (Reach1.foldl _ ?_ (fun _ _ _ => ?_))
        | apply Reach.then ?_ (State.checkDrift_reach ..) ?_
        | apply Reach.then ?_ (State.submitAct_reach ..) ?_)
    | (extract_lets +onlyGivenNames -underBinder -merge -useContext x; first | (refine Reach.cut x ?_ (fun _ => ?_); rotate_left; clear_value x; rotate_left; unfold x; clear x) | (refine Reach.cutP x ?_ (fun _ => ?_); rotate_left; clear_value x; rotate_left; unfold x; clear x) | (have _ := fun a => x a; unfold x; clear x) | clear_value x)
    | (split <;> try (refine Reach.cut1 (by assumption) ?_ (fun _ => ?_)))
    | split
    | with_reducible (first
        | refine Reach.set_hbm ?_ ?_))

theorem State.maintReq_reach (s : State) (die : Nat) (value : Word) (a : MaintAct) : Reach 0x6000000800000000000000000000000000800 s (State.maintReq s die value a) := by
  have h0 := Reach.refl 0x6000000800000000000000000000000000800 s
  unfold State.maintReq
  repeat' (first
    | with_reducible assumption
    | exact rfl
    | simp -zeta -iota -proj only [Reach1.pair_iff]
    | with_reducible exact Reach1.fst (by assumption)
    | with_reducible (first
        | refine Reach.wr ?_ ?_
        | refine Reach.setFld ?_ ?_
        | refine Reach.ite ?_ ?_
        | apply Reach1.then ?_ (State.enterAct_reach ..) ?_
        | apply Reach1.fst (Reach1.then ?_ (State.enterAct_reach ..) ?_)
        | apply Reach.then ?_ (State.setArb_reach ..) ?_)
    | (extract_lets +onlyGivenNames -underBinder -merge -useContext x; first | (refine Reach.cut x ?_ (fun _ => ?_); rotate_left; clear_value x; rotate_left; unfold x; clear x) | (refine Reach.cutP x ?_ (fun _ => ?_); rotate_left; clear_value x; rotate_left; unfold x; clear x) | (have _ := fun a => x a; unfold x; clear x) | clear_value x)
    | (split <;> try (refine Reach.cut1 (by assumption) ?_ (fun _ => ?_)))
    | split)

theorem maintRequestEntryEffect_reach (die : Fin 2) (s : State) : Reach 0x7000000800000000000000000000000000c00 s (maintRequestEntryEffect die s) := by
  have h0 := Reach.refl 0x7000000800000000000000000000000000c00 s
  unfold maintRequestEntryEffect
  repeat' (first
    | with_reducible assumption
    | exact rfl
    | simp -zeta -iota -proj only [Reach1.pair_iff]
    | with_reducible exact Reach1.fst (by assumption)
    | with_reducible (first
        | refine Reach.setFld ?_ ?_
        | refine Reach.ite ?_ ?_
        | apply Reach1.then ?_ (State.enterAct_reach ..) ?_
        | apply Reach1.fst (Reach1.then ?_ (State.enterAct_reach ..) ?_)
        | apply Reach.then ?_ (State.setArb_reach ..) ?_)
    | (extract_lets +onlyGivenNames -underBinder -merge -useContext x; first | (refine Reach.cut x ?_ (fun _ => ?_); rotate_left; clear_value x; rotate_left; unfold x; clear x) | (refine Reach.cutP x ?_ (fun _ => ?_); rotate_left; clear_value x; rotate_left; unfold x; clear x) | (have _ := fun a => x a; unfold x; clear x) | clear_value x)
    | (split <;> try (refine Reach.cut1 (by assumption) ?_ (fun _ => ?_)))
    | split
    | with_reducible (first
        | refine Reach.set_sram ?_ ?_))

theorem State.finishScrub_reach (s : State) (die : Nat) (x : Scrub) : Reach 0x40001000000400000000000000000001022511f820800000000000000000000000087c1d s (State.finishScrub s die x) := by
  have h0 := Reach.refl 0x40001000000400000000000000000001022511f820800000000000000000000000087c1d s
  unfold State.finishScrub
  repeat' (first
    | with_reducible assumption
    | exact rfl
    | with_reducible (first
        | refine Reach.setFld ?_ ?_
        | refine Reach.ite ?_ ?_
        | apply Reach.then ?_ (State.devWriteWords_reach ..) ?_
        | apply Reach.then ?_ (State.endAct_reach ..) ?_
        | apply Reach.then ?_ (State.putToken_reach ..) ?_
        | apply Reach.then ?_ (State.setArb_reach ..) ?_)
    | (extract_lets +onlyGivenNames -underBinder -merge -useContext x; first | (refine Reach.cut x ?_ (fun _ => ?_); rotate_left; clear_value x; rotate_left; unfold x; clear x) | (have _ := fun a => x a; unfold x; clear x) | clear_value x)
    | (split <;> try (refine Reach.cut1 (by assumption) ?_ (fun _ => ?_)))
    | split)

theorem scrubStartEffect_reach (die : Fin 2) (value : Word) (s : State) : Reach 0x40001000000400000000000000000001022511f820800000000000000000000000087c1d s (scrubStartEffect die value s) := by
  have h0 := Reach.refl 0x40001000000400000000000000000001022511f820800000000000000000000000087c1d s
  unfold scrubStartEffect
  repeat' (first
    | with_reducible assumption
    | exact rfl
    | simp -zeta -iota -proj only [Reach1.pair_iff]
    | with_reducible exact Reach1.fst (by assumption)
    | with_reducible (first
        | refine Reach.wr ?_ ?_
        | refine Reach.setFld ?_ ?_
        | refine Reach.ite ?_ ?_
        | apply Reach1.then ?_ (State.enterAct_reach ..) ?_
        | apply Reach1.fst (Reach1.then ?_ (State.enterAct_reach ..) ?_)
        | apply Reach.then ?_ (State.finishScrub_reach ..) ?_
        | apply Reach.then ?_ (State.markRunning_reach ..) ?_
        | apply Reach.then ?_ (State.setArb_reach ..) ?_)
    | (extract_lets +onlyGivenNames -underBinder -merge -useContext x; first | (refine Reach.cut x ?_ (fun _ => ?_); rotate_left; clear_value x; rotate_left; unfold x; clear x) | (refine Reach.cutP x ?_ (fun _ => ?_); rotate_left; clear_value x; rotate_left; unfold x; clear x) | (have _ := fun a => x a; unfold x; clear x) | clear_value x)
    | (split <;> try (refine Reach.cut1 (by assumption) ?_ (fun _ => ?_)))
    | split
    | dsimp -zeta only [])

theorem State.scrubRead_reach (s : State) (pa : Nat) (x : Scrub) (noise : BitVec 256) (checkNoise : BitVec 16) (severity : Bool) : Reach1 0x1000000000000000000000000001022011f80000000000000000000000000008781d s (State.scrubRead s pa x noise checkNoise severity) := by
  have h0 := Reach.refl 0x1000000000000000000000000001022011f80000000000000000000000000008781d s
  unfold State.scrubRead
  repeat' (first
    | with_reducible assumption
    | exact rfl
    | simp -zeta -iota -proj only [Reach1.pair_iff]
    | with_reducible exact Reach1.fst (by assumption)
    | with_reducible (first
        | refine Reach.ite ?_ ?_
        | refine Reach1.ite ?_ ?_
        | apply Reach.then ?_ (State.disturb_reach ..) ?_
        | apply Reach.then ?_ (State.flushSectors_reach ..) ?_
        | apply Reach.then ?_ (State.queueWriteback_reach ..) ?_
        | apply Reach1.then ?_ (State.readSector_reach ..) ?_
        | apply Reach1.fst (Reach1.then ?_ (State.readSector_reach ..) ?_))
    | (extract_lets +onlyGivenNames -underBinder -merge -useContext x; first | (refine Reach.cut x ?_ (fun _ => ?_); rotate_left; clear_value x; rotate_left; unfold x; clear x) | (refine Reach1.cut x ?_ (fun _ => ?_); rotate_left; clear_value x; rotate_left; unfold x; clear x) | (refine Reach.cutP x ?_ (fun _ => ?_); rotate_left; clear_value x; rotate_left; unfold x; clear x) | (refine Reach1.cutP x ?_ (fun _ => ?_); rotate_left; clear_value x; rotate_left; unfold x; clear x) | (have _ := fun a => x a; unfold x; clear x) | clear_value x)
    | (split <;> try (first | refine Reach1.cut1 (by assumption) ?_ (fun _ => ?_) | refine Reach.cut1 (by assumption) ?_ (fun _ => ?_)))
    | split)

theorem scrubSectorReadEffect_reach (die : Fin 2) (noise : BitVec 256) (checkNoise : BitVec 16) (severity : Bool) (s : State) : Reach 0x1000000000000000000000000001022011f80000000000000000000000000008781d s (scrubSectorReadEffect die noise checkNoise severity s) := by
  have h0 := Reach.refl 0x1000000000000000000000000001022011f80000000000000000000000000008781d s
  unfold scrubSectorReadEffect
  repeat' (first
    | with_reducible assumption
    | exact rfl
    | simp -zeta -iota -proj only [Reach1.pair_iff]
    | with_reducible exact Reach1.fst (by assumption)
    | with_reducible (first
        | refine Reach.ite ?_ ?_
        | apply Reach1.then ?_ (State.scrubRead_reach ..) ?_
        | apply Reach1.fst (Reach1.then ?_ (State.scrubRead_reach ..) ?_)
        | apply Reach.then ?_ (State.setArb_reach ..) ?_)
    | (extract_lets +onlyGivenNames -underBinder -merge -useContext x; first | (refine Reach.cut x ?_ (fun _ => ?_); rotate_left; clear_value x; rotate_left; unfold x; clear x) | (refine Reach.cutP x ?_ (fun _ => ?_); rotate_left; clear_value x; rotate_left; unfold x; clear x) | (have _ := fun a => x a; unfold x; clear x) | clear_value x)
    | (split <;> try (refine Reach.cut1 (by assumption) ?_ (fun _ => ?_)))
    | split
    | dsimp -zeta only [])

theorem scrubCompleteEffect_reach (die : Fin 2) (s : State) : Reach 0x40001000000400000000000000000001022511f820800000000000000000000000087c1d s (scrubCompleteEffect die s) := by
  have h0 := Reach.refl 0x40001000000400000000000000000001022511f820800000000000000000000000087c1d s
  unfold scrubCompleteEffect
  repeat' (first
    | with_reducible assumption
    | exact rfl
    | with_reducible (first
        | refine Reach.ite ?_ ?_
        | apply Reach.then ?_ (State.finishScrub_reach ..) ?_)
    | (extract_lets +onlyGivenNames -underBinder -merge -useContext x; first | (refine Reach.cut x ?_ (fun _ => ?_); rotate_left; clear_value x; rotate_left; unfold x; clear x) | (have _ := fun a => x a; unfold x; clear x) | clear_value x)
    | (split <;> try (refine Reach.cut1 (by assumption) ?_ (fun _ => ?_)))
    | split)

theorem State.startAct_reach (s : State) (die : Nat) (a : MaintAct) : Reach 0x4000000800000000000000000000000000800 s (State.startAct s die a) := by
  have h0 := Reach.refl 0x4000000800000000000000000000000000800 s
  unfold State.startAct
  repeat' (first
    | with_reducible assumption
    | exact rfl
    | simp -zeta -iota -proj only [Reach1.pair_iff]
    | with_reducible exact Reach1.fst (by assumption)
    | with_reducible (first
        | refine Reach.ite ?_ ?_
        | refine Reach1.ite ?_ ?_
        | refine Reach.foldl _ ?_ (fun _ _ _ => ?_)
        | refine Reach1.foldl _ ?_ (fun _ _ _ => ?_)
        | refine Reach1.fst (Reach1.foldl _ ?_ (fun _ _ _ => ?_))
        | apply Reach.then ?_ (State.endAct_reach ..) ?_
        | apply Reach.then ?_ (State.markRunning_reach ..) ?_
        | apply Reach.then ?_ (State.setArb_reach ..) ?_)
    | (extract_lets +onlyGivenNames -underBinder -merge -useContext x; first | (refine Reach.cut x ?_ (fun _ => ?_); rotate_left; clear_value x; rotate_left; unfold x; clear x) | (refine Reach.cutP x ?_ (fun _ => ?_); rotate_left; clear_value x; rotate_left; unfold x; clear x) | (have _ := fun a => x a; unfold x; clear x) | clear_value x)
    | (split <;> try (refine Reach.cut1 (by assumption) ?_ (fun _ => ?_)))
    | split
    | with_reducible (first
        | refine Reach.set_hbm ?_ ?_))

theorem maintAdmitEffect_reach (die : Fin 2) (freed : BitVec 12) (s : State) : Reach 0x2000400000080000000000000000000000c000800 s (maintAdmitEffect die freed s) := by
  have h0 := Reach.refl 0x2000400000080000000000000000000000c000800 s
  unfold maintAdmitEffect
  repeat' (first
    | with_reducible assumption
    | exact rfl
    | simp -zeta -iota -proj only [Reach1.pair_iff]
    | with_reducible exact Reach1.fst (by assumption)
    | with_reducible (first
        | refine Reach.ite ?_ ?_
        | refine Reach1.ite ?_ ?_
        | refine Reach.foldl _ ?_ (fun _ _ _ => ?_)
        | refine Reach1.foldl _ ?_ (fun _ _ _ => ?_)
        | refine Reach1.fst (Reach1.foldl _ ?_ (fun _ _ _ => ?_))
        | apply Reach.then ?_ (State.enterCopiers_reach ..) ?_
        | apply Reach.then ?_ (State.startAct_reach ..) ?_
        | apply Reach.then ?_ (State.wakeCopier_reach ..) ?_)
    | (extract_lets +onlyGivenNames -underBinder -merge -useContext x; first | (refine Reach.cut x ?_ (fun _ => ?_); rotate_left; clear_value x; rotate_left; unfold x; clear x) | (refine Reach.cutP x ?_ (fun _ => ?_); rotate_left; clear_value x; rotate_left; unfold x; clear x) | (have _ := fun a => x a; unfold x; clear x) | clear_value x)
    | (split <;> try (refine Reach.cut1 (by assumption) ?_ (fun _ => ?_)))
    | split)

theorem calGroupOutEffect_reach (die : Fin 2) (group : Fin 16) (s : State) : Reach 0x4000000800000000000000000000000000800 s (calGroupOutEffect die group s) := by
  have h0 := Reach.refl 0x4000000800000000000000000000000000800 s
  unfold calGroupOutEffect
  repeat' (first
    | with_reducible assumption
    | exact rfl
    | with_reducible (first
        | refine Reach.ite ?_ ?_
        | apply Reach.then ?_ (State.markRunning_reach ..) ?_)
    | (extract_lets +onlyGivenNames -underBinder -merge -useContext x; first | (refine Reach.cut x ?_ (fun _ => ?_); rotate_left; clear_value x; rotate_left; unfold x; clear x) | (have _ := fun a => x a; unfold x; clear x) | clear_value x)
    | (split <;> try (refine Reach.cut1 (by assumption) ?_ (fun _ => ?_)))
    | split
    | with_reducible (first
        | refine Reach.set_hbm ?_ ?_))

theorem State.groupsBack_reach (s : State) : Reach 0x40003000000740c0000800020000600102a011fe3b0f6120d80dff0c0000001002f87dff s (State.groupsBack s) := by
  have h0 := Reach.refl 0x40003000000740c0000800020000600102a011fe3b0f6120d80dff0c0000001002f87dff s
  unfold State.groupsBack
  repeat' (first
    | with_reducible assumption
    | exact rfl
    | with_reducible (first
        | apply Reach.then ?_ (State.reissue_reach ..) ?_
        | apply Reach.then ?_ (State.retryChains_reach ..) ?_)
    | (extract_lets +onlyGivenNames -underBinder -merge -useContext x; first | (refine Reach.cut x ?_ (fun _ => ?_); rotate_left; clear_value x; rotate_left; unfold x; clear x) | (have _ := fun a => x a; unfold x; clear x) | clear_value x))

theorem State.groupIn_reach (s : State) (d : Nat) (group : Nat) : Reach 0x800 s (State.groupIn s d group) := by
  have h0 := Reach.refl 0x800 s
  unfold State.groupIn
  repeat' (first
    | with_reducible assumption
    | exact rfl
    | (extract_lets +onlyGivenNames -underBinder -merge -useContext x; first | (refine Reach.cut x ?_ (fun _ => ?_); rotate_left; clear_value x; rotate_left; unfold x; clear x) | (have _ := fun a => x a; unfold x; clear x) | clear_value x)
    | with_reducible (first
        | refine Reach.set_hbm ?_ ?_))

theorem calGroupReturnEffect_reach (die : Fin 2) (group : Fin 16) (s : State) : Reach 0x40003000000740c0000800020000600102a411fe3b8f6120d80dff0c0000001022f87dff s (calGroupReturnEffect die group s) := by
  have h0 := Reach.refl 0x40003000000740c0000800020000600102a411fe3b8f6120d80dff0c0000001022f87dff s
  unfold calGroupReturnEffect
  repeat' (first
    | with_reducible assumption
    | exact rfl
    | simp -zeta -iota -proj only [Reach1.pair_iff]
    | with_reducible exact Reach1.fst (by assumption)
    | with_reducible (first
        | refine Reach.ite ?_ ?_
        | refine Reach1.ite ?_ ?_
        | refine Reach.foldl _ ?_ (fun _ _ _ => ?_)
        | refine Reach1.foldl _ ?_ (fun _ _ _ => ?_)
        | refine Reach1.fst (Reach1.foldl _ ?_ (fun _ _ _ => ?_))
        | apply Reach.then ?_ (State.endAct_reach ..) ?_
        | apply Reach.then ?_ (State.groupIn_reach ..) ?_
        | apply Reach.then ?_ (State.groupsBack_reach ..) ?_)
    | (extract_lets +onlyGivenNames -underBinder -merge -useContext x; first | (refine Reach.cut x ?_ (fun _ => ?_); rotate_left; clear_value x; rotate_left; unfold x; clear x) | (refine Reach.cutP x ?_ (fun _ => ?_); rotate_left; clear_value x; rotate_left; unfold x; clear x) | (have _ := fun a => x a; unfold x; clear x) | clear_value x)
    | (split <;> try (refine Reach.cut1 (by assumption) ?_ (fun _ => ?_)))
    | split
    | with_reducible (first
        | refine Reach.set_power ?_ ?_))

theorem State.clearCluster_reach (s : State) (c : Nat) : Reach 0x17 s (State.clearCluster s c) := by
  have h0 := Reach.refl 0x17 s
  unfold State.clearCluster
  repeat' (first
    | with_reducible assumption
    | exact rfl
    | (extract_lets +onlyGivenNames -underBinder -merge -useContext x; first | (refine Reach.cut x ?_ (fun _ => ?_); rotate_left; clear_value x; rotate_left; unfold x; clear x) | (have _ := fun a => x a; unfold x; clear x) | clear_value x)
    | exact fun h => h
    | with_reducible (first
        | refine Reach.set_mem ?_ ?_ ?_
        | refine Reach.set_poison ?_ ?_
        | refine Reach.set_badCheck ?_ ?_
        | refine Reach.set_lens ?_ ?_ ?_
        | refine Reach.litMk ?_ rfl (fun _ h => h) ?_ ?_ ?_ ?_)
    | exact fun h => canonical_putD _ _ _ h
    | exact fun h => canonical_foldl _ _ _ _ (canonical_clearRange _ _ _ h)
    | exact fun h => canonical_putRun _ _ _ h
    | exact fun h => canonical_clearRange _ _ _ h
    | exact fun h => canonical_filter _ _ h
    | (intro (c : Cell) (hc : _); cases c <;> first | rfl | exact absurd hc (by decide) | exact fun _ _ => rfl))

theorem selfTestDoneEffect_reach (die : Fin 2) (cluster : Fin 12) (fail : Bool) (s : State) : Reach 0x4000000800000000000000000000000000817 s (selfTestDoneEffect die cluster fail s) := by
  have h0 := Reach.refl 0x4000000800000000000000000000000000817 s
  unfold selfTestDoneEffect
  repeat' (first
    | with_reducible assumption
    | exact rfl
    | with_reducible (first
        | apply Reach.then ?_ (State.clearCluster_reach ..) ?_
        | apply Reach.then ?_ (State.endAct_reach ..) ?_)
    | (extract_lets +onlyGivenNames -underBinder -merge -useContext x; first | (refine Reach.cut x ?_ (fun _ => ?_); rotate_left; clear_value x; rotate_left; unfold x; clear x) | (have _ := fun a => x a; unfold x; clear x) | clear_value x)
    | (split <;> try (refine Reach.cut1 (by assumption) ?_ (fun _ => ?_)))
    | split)

end Sys2Proof.Machine
end

