-- ==== Sys2Proof/Laws/ReachPowerOps.lean ====
section
/-!
SUPPORT. The footprint of each function of Machine/PowerOps.lean.
-/
set_option linter.unusedTactic false
set_option linter.unreachableTactic false
namespace Sys2Proof.Machine

theorem State.showClock_reach (s : State) : Reach 0x10000000000000000000000000000000000000000000000000000000000000000 s (State.showClock s) := by
  have h0 := Reach.refl 0x10000000000000000000000000000000000000000000000000000000000000000 s
  unfold State.showClock
  repeat' (first
    | with_reducible assumption
    | exact rfl
    | simp -zeta -iota -proj only [Reach1.pair_iff]
    | with_reducible exact Reach1.fst (by assumption)
    | with_reducible (first
        | refine Reach.setFld ?_ ?_
        | refine Reach.foldl _ ?_ (fun _ _ _ => ?_)
        | refine Reach1.foldl _ ?_ (fun _ _ _ => ?_)
        | refine Reach1.fst (Reach1.foldl _ ?_ (fun _ _ _ => ?_))))

theorem State.setMhz_reach (s : State) (mhz : Nat) : Reach 0x10000000000000000000000000000000000000000000000000000000020000000 s (State.setMhz s mhz) := by
  have h0 := Reach.refl 0x10000000000000000000000000000000000000000000000000000000020000000 s
  unfold State.setMhz
  repeat' (first
    | with_reducible assumption
    | exact rfl
    | with_reducible (first
        | apply Reach.then ?_ (State.showClock_reach ..) ?_)
    | with_reducible (first
        | refine Reach.set_power ?_ ?_))

theorem State.setBoth_reach {F : Nat} {r0 : State} {s : State} {f : Field} {v : Nat} (h0 : Reach F r0 s) (m : F.testBit (64 + f.reg.ctorIdx) = true)
    (own : 0x0 &&& F = 0x0) : Reach F r0 (State.setBoth s f v) := by
  unfold State.setBoth
  repeat' (first
    | with_reducible assumption
    | exact rfl
    | with_reducible (first
        | refine Reach.setFld ?_ ?_
        | exact m
        | exact sub_own own rfl))

theorem State.setMode_reach (s : State) (mode : Nat) (sub : Nat) : Reach 0x10000000000000000000000000000000000000000000000000000000000004000 s (State.setMode s mode sub) := by
  have h0 := Reach.refl 0x10000000000000000000000000000000000000000000000000000000000004000 s
  unfold State.setMode
  repeat' (first
    | with_reducible assumption
    | exact rfl
    | with_reducible (first
        | refine Reach.ite ?_ ?_
        | apply Reach.then ?_ (State.dput_reach ..) ?_
        | refine State.setBoth_reach ?_ ?_ ?_)
    | (split <;> try (refine Reach.cut1 (by assumption) ?_ (fun _ => ?_)))
    | split)

theorem State.requestRate_reach (s : State) (die : Nat) : Reach 0x4000000800000000000000000000000000800 s (State.requestRate s die) := by
  have h0 := Reach.refl 0x4000000800000000000000000000000000800 s
  unfold State.requestRate
  repeat' (first
    | with_reducible assumption
    | exact rfl
    | with_reducible (first
        | refine Reach.ite ?_ ?_
        | apply Reach.then ?_ (State.submitAct_reach ..) ?_)
    | (extract_lets +onlyGivenNames -underBinder -merge -useContext x; first | (refine Reach.cut x ?_ (fun _ => ?_); rotate_left; clear_value x; rotate_left; unfold x; clear x) | (have _ := fun a => x a; unfold x; clear x) | clear_value x)
    | (split <;> try (refine Reach.cut1 (by assumption) ?_ (fun _ => ?_)))
    | split)

theorem State.setPaused_reach (s : State) (v : Bool) : Reach 0x20000000 s (State.setPaused s v) := by
  have h0 := Reach.refl 0x20000000 s
  unfold State.setPaused
  repeat' (first
    | with_reducible assumption
    | exact rfl
    | with_reducible (first
        | apply Reach.then ?_ (State.setPowerDie_reach ..) ?_))

theorem State.applyMode_reach (s : State) (mode : Nat) (sub : Nat) : Reach 0x10000000000000000000000000004000000800000000000000000000020004800 s (State.applyMode s mode sub) := by
  have h0 := Reach.refl 0x10000000000000000000000000004000000800000000000000000000020004800 s
  unfold State.applyMode
  repeat' (first
    | with_reducible assumption
    | exact rfl
    | with_reducible (first
        | refine Reach.ite ?_ ?_
        | apply Reach.then ?_ (State.requestRate_reach ..) ?_
        | apply Reach.then ?_ (State.setMhz_reach ..) ?_
        | apply Reach.then ?_ (State.setMode_reach ..) ?_
        | apply Reach.then ?_ (State.setPaused_reach ..) ?_)
    | (extract_lets +onlyGivenNames -underBinder -merge -useContext x; first | (refine Reach.cut x ?_ (fun _ => ?_); rotate_left; clear_value x; rotate_left; unfold x; clear x) | (have _ := fun a => x a; unfold x; clear x) | clear_value x)
    | (split <;> try (refine Reach.cut1 (by assumption) ?_ (fun _ => ?_)))
    | split
    | with_reducible (first
        | refine Reach.set_power ?_ ?_))

theorem State.takeMode_reach (s : State) : Reach 0x10000000000000000000000000004000000800000000000000000000020004800 s (State.takeMode s) := by
  have h0 := Reach.refl 0x10000000000000000000000000004000000800000000000000000000020004800 s
  unfold State.takeMode
  repeat' (first
    | with_reducible assumption
    | exact rfl
    | with_reducible (first
        | apply Reach.then ?_ (State.applyMode_reach ..) ?_)
    | (split <;> try (refine Reach.cut1 (by assumption) ?_ (fun _ => ?_)))
    | split)

theorem State.modeWritten_reach (s : State) : Reach 0x10000000000000000000000000004000000800000000000000000000020004800 s (State.modeWritten s) := by
  have h0 := Reach.refl 0x10000000000000000000000000004000000800000000000000000000020004800 s
  unfold State.modeWritten
  repeat' (first
    | with_reducible assumption
    | exact rfl
    | with_reducible (first
        | refine Reach.ite ?_ ?_
        | apply Reach.then ?_ (State.takeMode_reach ..) ?_)
    | (split <;> try (refine Reach.cut1 (by assumption) ?_ (fun _ => ?_)))
    | split)

theorem modeChangeResumeEffect_reach (s : State) : Reach 0x40003001000200c00000000000006001022011fe200d4120180dff0c0000001022787dff s (modeChangeResumeEffect s) := by
  have h0 := Reach.refl 0x40003001000200c00000000000006001022011fe200d4120180dff0c0000001022787dff s
  unfold modeChangeResumeEffect
  repeat' (first
    | with_reducible assumption
    | exact rfl
    | with_reducible (first
        | refine Reach.ite ?_ ?_
        | apply Reach.then ?_ (State.dieGoesOn_reach ..) ?_
        | apply Reach.then ?_ (State.setMhz_reach ..) ?_
        | apply Reach.then ?_ (State.setPaused_reach ..) ?_)
    | (split <;> try (refine Reach.cut1 (by assumption) ?_ (fun _ => ?_)))
    | split)

theorem State.setPowerStack_reach (s : State) (k : Nat) (x : PowerStack) : Reach 0x20000000 s (State.setPowerStack s k x) := by
  have h0 := Reach.refl 0x20000000 s
  unfold State.setPowerStack
  repeat' (first
    | with_reducible assumption
    | exact rfl
    | with_reducible (first
        | refine Reach.set_power ?_ ?_))

theorem State.governDie_reach (s : State) (die : Nat) (power : Nat) (overCap : Bool) : Reach 0x90000000000000000000000000000000000000000000000000000000020000000 s (State.governDie s die power overCap) := by
  have h0 := Reach.refl 0x90000000000000000000000000000000000000000000000000000000020000000 s
  unfold State.governDie
  repeat' (first
    | with_reducible assumption
    | exact rfl
    | with_reducible (first
        | refine Reach.bump ?_ ?_
        | refine Reach.setFld ?_ ?_
        | refine Reach.ite ?_ ?_
        | apply Reach.then ?_ (State.setPowerDie_reach ..) ?_)
    | (extract_lets +onlyGivenNames -underBinder -merge -useContext x; first | (refine Reach.cut x ?_ (fun _ => ?_); rotate_left; clear_value x; rotate_left; unfold x; clear x) | (have _ := fun a => x a; unfold x; clear x) | clear_value x)
    | (split <;> try (refine Reach.cut1 (by assumption) ?_ (fun _ => ?_)))
    | split)

theorem State.governStack_reach (s : State) (k : Nat) (power : Nat) : Reach 0x20000000 s (State.governStack s k power) := by
  have h0 := Reach.refl 0x20000000 s
  unfold State.governStack
  repeat' (first
    | with_reducible assumption
    | exact rfl
    | with_reducible (first
        | refine Reach.ite ?_ ?_
        | apply Reach.then ?_ (State.setPowerStack_reach ..) ?_)
    | (extract_lets +onlyGivenNames -underBinder -merge -useContext x; first | (refine Reach.cut x ?_ (fun _ => ?_); rotate_left; clear_value x; rotate_left; unfold x; clear x) | (have _ := fun a => x a; unfold x; clear x) | clear_value x)
    | (split <;> try (refine Reach.cut1 (by assumption) ?_ (fun _ => ?_)))
    | split)

theorem State.showPower_reach (s : State) (p : PowerReading) : Reach 0x4000 s (State.showPower s p) := by
  have h0 := Reach.refl 0x4000 s
  unfold State.showPower
  repeat' (first
    | with_reducible assumption
    | exact rfl
    | simp -zeta -iota -proj only [Reach1.pair_iff]
    | with_reducible exact Reach1.fst (by assumption)
    | with_reducible (first
        | refine Reach.foldl _ ?_ (fun _ _ _ => ?_)
        | refine Reach1.foldl _ ?_ (fun _ _ _ => ?_)
        | refine Reach1.fst (Reach1.foldl _ ?_ (fun _ _ _ => ?_))
        | apply Reach.then ?_ (State.dput_reach ..) ?_)
    | (extract_lets +onlyGivenNames -underBinder -merge -useContext x; first | (refine Reach.cut x ?_ (fun _ => ?_); rotate_left; clear_value x; rotate_left; unfold x; clear x) | (refine Reach.cutP x ?_ (fun _ => ?_); rotate_left; clear_value x; rotate_left; unfold x; clear x) | (have _ := fun a => x a; unfold x; clear x) | clear_value x))

theorem governorIntervalEffect_reach (p : PowerReading) (s : State) : Reach 0x90000000000000000000000000000000000000000000000000000000020004000 s (governorIntervalEffect p s) := by
  have h0 := Reach.refl 0x90000000000000000000000000000000000000000000000000000000020004000 s
  unfold governorIntervalEffect
  repeat' (first
    | with_reducible assumption
    | exact rfl
    | simp -zeta -iota -proj only [Reach1.pair_iff]
    | with_reducible exact Reach1.fst (by assumption)
    | with_reducible (first
        | refine Reach.foldl _ ?_ (fun _ _ _ => ?_)
        | refine Reach1.foldl _ ?_ (fun _ _ _ => ?_)
        | refine Reach1.fst (Reach1.foldl _ ?_ (fun _ _ _ => ?_))
        | apply Reach.then ?_ (State.governDie_reach ..) ?_
        | apply Reach.then ?_ (State.governStack_reach ..) ?_
        | apply Reach.then ?_ (State.showClock_reach ..) ?_
        | apply Reach.then ?_ (State.showPower_reach ..) ?_)
    | (extract_lets +onlyGivenNames -underBinder -merge -useContext x; first | (refine Reach.cut x ?_ (fun _ => ?_); rotate_left; clear_value x; rotate_left; unfold x; clear x) | (refine Reach.cutP x ?_ (fun _ => ?_); rotate_left; clear_value x; rotate_left; unfold x; clear x) | (have _ := fun a => x a; unfold x; clear x) | clear_value x)
    | dsimp -zeta only []
    | with_reducible (first
        | refine Reach.set_power ?_ ?_))

theorem droopDetectEffect_reach (die : Fin 2) (s : State) : Reach 0x40000000000000000000000000000000000000000000000000000000020000000 s (droopDetectEffect die s) := by
  have h0 := Reach.refl 0x40000000000000000000000000000000000000000000000000000000020000000 s
  unfold droopDetectEffect
  repeat' (first
    | with_reducible assumption
    | exact rfl
    | with_reducible (first
        | refine Reach.bump ?_ ?_
        | apply Reach.then ?_ (State.setPowerDie_reach ..) ?_)
    | (extract_lets +onlyGivenNames -underBinder -merge -useContext x; first | (refine Reach.cut x ?_ (fun _ => ?_); rotate_left; clear_value x; rotate_left; unfold x; clear x) | (have _ := fun a => x a; unfold x; clear x) | clear_value x))

theorem hbmRampEffect_reach (controller : Fin 8) (waited : BitVec 12) (s : State) : Reach 0x40000000000000000000000000000020000000 s (hbmRampEffect controller waited s) := by
  have h0 := Reach.refl 0x40000000000000000000000000000020000000 s
  unfold hbmRampEffect
  repeat' (first
    | with_reducible assumption
    | exact rfl
    | with_reducible (first
        | refine Reach.bump ?_ ?_
        | refine Reach.ite ?_ ?_
        | apply Reach.then ?_ (State.setPowerStack_reach ..) ?_)
    | (extract_lets +onlyGivenNames -underBinder -merge -useContext x; first | (refine Reach.cut x ?_ (fun _ => ?_); rotate_left; clear_value x; rotate_left; unfold x; clear x) | (have _ := fun a => x a; unfold x; clear x) | clear_value x)
    | (split <;> try (refine Reach.cut1 (by assumption) ?_ (fun _ => ?_)))
    | split)

theorem State.takeTemps_reach (s : State) (r : TempReading) : Reach 0x2000c000 s (State.takeTemps s r) := by
  have h0 := Reach.refl 0x2000c000 s
  unfold State.takeTemps
  repeat' (first
    | with_reducible assumption
    | exact rfl
    | simp -zeta -iota -proj only [Reach1.pair_iff]
    | with_reducible exact Reach1.fst (by assumption)
    | with_reducible (first
        | refine Reach.foldl _ ?_ (fun _ _ _ => ?_)
        | refine Reach1.foldl _ ?_ (fun _ _ _ => ?_)
        | refine Reach1.fst (Reach1.foldl _ ?_ (fun _ _ _ => ?_))
        | apply Reach.then ?_ (State.dput_reach ..) ?_
        | apply Reach.then ?_ (State.dputBytes_reach ..) ?_
        | apply Reach.then ?_ (State.setPowerDie_reach ..) ?_
        | apply Reach.then ?_ (State.setPowerStack_reach ..) ?_)
    | (extract_lets +onlyGivenNames -underBinder -merge -useContext x; first | (refine Reach.cut x ?_ (fun _ => ?_); rotate_left; clear_value x; rotate_left; unfold x; clear x) | (refine Reach.cutP x ?_ (fun _ => ?_); rotate_left; clear_value x; rotate_left; unfold x; clear x) | (have _ := fun a => x a; unfold x; clear x) | clear_value x)
    | dsimp -zeta only [])

end Sys2Proof.Machine
end

