-- ==== Sys2Proof/Laws/ReachBeamClock.lean ====
section
/-!
SUPPORT. The footprint of each function of Machine/BeamClock.lean.
-/
set_option linter.unusedTactic false
set_option linter.unreachableTactic false
namespace Sys2Proof.Machine

theorem State.setBeam_reach (s : State) (n : Nat) : Reach 0x20000000000000000000000000000000000000000000000000002000 s (State.setBeam s n) := by
  have h0 := Reach.refl 0x20000000000000000000000000000000000000000000000000002000 s
  unfold State.setBeam
  repeat' (first
    | with_reducible assumption
    | exact rfl
    | with_reducible (first
        | refine Reach.setFld ?_ ?_)
    | (extract_lets +onlyGivenNames -underBinder -merge -useContext x; first | (refine Reach.cut x ?_ (fun _ => ?_); rotate_left; clear_value x; rotate_left; unfold x; clear x) | (have _ := fun a => x a; unfold x; clear x) | clear_value x)
    | with_reducible (first
        | refine Reach.set_beam ?_ ?_))

theorem State.setBeamState_reach (s : State) (st : Nat) : Reach 0x40000000000000000000000000000000000000000000000000004000 s (State.setBeamState s st) := by
  have h0 := Reach.refl 0x40000000000000000000000000000000000000000000000000004000 s
  unfold State.setBeamState
  repeat' (first
    | with_reducible assumption
    | exact rfl
    | with_reducible (first
        | apply Reach.then ?_ (State.dput_reach ..) ?_
        | refine State.setBoth_reach ?_ ?_ ?_))

theorem State.discardTraces_reach (s : State) (die : Nat) : Reach 0x20000000000000000000000000000000000000000000000000000000000000400000 s (State.discardTraces s die) := by
  have h0 := Reach.refl 0x20000000000000000000000000000000000000000000000000000000000000400000 s
  unfold State.discardTraces
  repeat' (first
    | with_reducible assumption
    | exact rfl
    | simp -zeta -iota -proj only [Reach1.pair_iff]
    | with_reducible exact Reach1.fst (by assumption)
    | with_reducible (first
        | refine Reach.bump ?_ ?_
        | refine Reach.foldl _ ?_ (fun _ _ _ => ?_)
        | refine Reach1.foldl _ ?_ (fun _ _ _ => ?_)
        | refine Reach1.fst (Reach1.foldl _ ?_ (fun _ _ _ => ?_)))
    | (extract_lets +onlyGivenNames -underBinder -merge -useContext x; first | (refine Reach.cut x ?_ (fun _ => ?_); rotate_left; clear_value x; rotate_left; unfold x; clear x) | (refine Reach.cutP x ?_ (fun _ => ?_); rotate_left; clear_value x; rotate_left; unfold x; clear x) | (have _ := fun a => x a; unfold x; clear x) | clear_value x)
    | (split <;> try (refine Reach.cut1 (by assumption) ?_ (fun _ => ?_)))
    | split
    | with_reducible (first
        | refine Reach.set_trace ?_ ?_))

theorem State.applyTrace_reach (s : State) (key : Nat) (v : Int) : Reach 0x21100000000000000000000000000000000000000000000000000000000000400000 s (State.applyTrace s key v) := by
  have h0 := Reach.refl 0x21100000000000000000000000000000000000000000000000000000000000400000 s
  unfold State.applyTrace
  repeat' (first
    | with_reducible assumption
    | exact rfl
    | with_reducible (first
        | refine Reach.ite ?_ ?_
        | apply Reach.then ?_ (State.discardTraces_reach ..) ?_
        | refine State.setBoth_reach ?_ ?_ ?_)
    | (extract_lets +onlyGivenNames -underBinder -merge -useContext x; first | (refine Reach.cut x ?_ (fun _ => ?_); rotate_left; clear_value x; rotate_left; unfold x; clear x) | (have _ := fun a => x a; unfold x; clear x) | clear_value x)
    | (split <;> try (refine Reach.cut1 (by assumption) ?_ (fun _ => ?_)))
    | split)

theorem State.traceDue_reach (s : State) : Reach 0x21100000000000000000000000000000000000000000000000000000000080400000 s (State.traceDue s) := by
  have h0 := Reach.refl 0x21100000000000000000000000000000000000000000000000000000000080400000 s
  unfold State.traceDue
  repeat' (first
    | with_reducible assumption
    | exact rfl
    | simp -zeta -iota -proj only [Reach1.pair_iff]
    | with_reducible exact Reach1.fst (by assumption)
    | with_reducible (first
        | refine Reach.foldl _ ?_ (fun _ _ _ => ?_)
        | refine Reach1.foldl _ ?_ (fun _ _ _ => ?_)
        | refine Reach1.fst (Reach1.foldl _ ?_ (fun _ _ _ => ?_))
        | apply Reach.then ?_ (State.applyTrace_reach ..) ?_)
    | (extract_lets +onlyGivenNames -underBinder -merge -useContext x; first | (refine Reach.cut x ?_ (fun _ => ?_); rotate_left; clear_value x; rotate_left; unfold x; clear x) | (refine Reach.cutP x ?_ (fun _ => ?_); rotate_left; clear_value x; rotate_left; unfold x; clear x) | (have _ := fun a => x a; unfold x; clear x) | clear_value x)
    | (split <;> try (refine Reach.cut1 (by assumption) ?_ (fun _ => ?_)))
    | split
    | with_reducible (first
        | refine Reach.set_mooring ?_ ?_))

theorem State.snapshot_reach (s : State) (die : Nat) : Reach 0x40001000000000000000000000000001022011f820000000000000000000000000087c1d s (State.snapshot s die) := by
  have h0 := Reach.refl 0x40001000000000000000000000000001022011f820000000000000000000000000087c1d s
  unfold State.snapshot
  repeat' (first
    | with_reducible assumption
    | exact rfl
    | with_reducible (first
        | refine Reach.ite ?_ ?_
        | apply Reach.then ?_ (State.devWrite_reach ..) ?_)
    | (extract_lets +onlyGivenNames -underBinder -merge -useContext x; first | (refine Reach.cut x ?_ (fun _ => ?_); rotate_left; clear_value x; rotate_left; unfold x; clear x) | (have _ := fun a => x a; unfold x; clear x) | clear_value x)
    | (split <;> try (refine Reach.cut1 (by assumption) ?_ (fun _ => ?_)))
    | split)

theorem State.rollWindows_reach (s : State) : Reach 0x800000020 s (State.rollWindows s) := by
  have h0 := Reach.refl 0x800000020 s
  unfold State.rollWindows
  repeat' (first
    | with_reducible assumption
    | exact rfl
    | with_reducible (first
        | refine Reach.ite ?_ ?_)
    | (extract_lets +onlyGivenNames -underBinder -merge -useContext x; first | (refine Reach.cut x ?_ (fun _ => ?_); rotate_left; clear_value x; rotate_left; unfold x; clear x) | (have _ := fun a => x a; unfold x; clear x) | clear_value x)
    | (split <;> try (refine Reach.cut1 (by assumption) ?_ (fun _ => ?_)))
    | split
    | exact fun h => h
    | dsimp -zeta only []
    | with_reducible (first
        | refine Reach.set_engines ?_ ?_
        | refine Reach.set_cyc ?_ ?_
        | refine Reach.litMk ?_ rfl (fun _ h => h) ?_ ?_ ?_ ?_)
    | (intro (c : Cell) (hc : _); cases c <;> first | rfl | exact absurd hc (by decide) | exact fun _ _ => rfl))

theorem State.revolutionActions_reach (s : State) : Reach 0x40001001000000004000000000000001022411f8208000000000000000000000a0087c1d s (State.revolutionActions s) := by
  have h0 := Reach.refl 0x40001001000000004000000000000001022411f8208000000000000000000000a0087c1d s
  unfold State.revolutionActions
  repeat' (first
    | with_reducible assumption
    | exact rfl
    | with_reducible (first
        | refine Reach.ite ?_ ?_
        | refine State.setBoth_reach ?_ ?_ ?_
        | apply Reach.then ?_ (State.snapshot_reach ..) ?_
        | apply Reach.then ?_ (State.takeMode_reach ..) ?_)
    | (extract_lets +onlyGivenNames -underBinder -merge -useContext x; first | (refine Reach.cut x ?_ (fun _ => ?_); rotate_left; clear_value x; rotate_left; unfold x; clear x) | (have _ := fun a => x a; unfold x; clear x) | clear_value x)
    | (split <;> try (refine Reach.cut1 (by assumption) ?_ (fun _ => ?_)))
    | split
    | with_reducible (first
        | refine Reach.set_mooring ?_ ?_
        | refine Reach.set_beam ?_ ?_))

theorem State.quietFlash_reach (s : State) : Reach 0x2000 s (State.quietFlash s) := by
  have h0 := Reach.refl 0x2000 s
  unfold State.quietFlash
  repeat' (first
    | with_reducible assumption
    | exact rfl
    | with_reducible (first
        | refine Reach.set_beam ?_ ?_))

theorem State.liveRecords_reach (s : State) : Reach 0x2000800000000000000000000000000000000000000000000000000002000 s (State.liveRecords s) := by
  have h0 := Reach.refl 0x2000800000000000000000000000000000000000000000000000000002000 s
  unfold State.liveRecords
  repeat' (first
    | with_reducible assumption
    | exact rfl
    | simp -zeta -iota -proj only [Reach1.pair_iff]
    | with_reducible exact Reach1.fst (by assumption)
    | with_reducible (first
        | refine Reach.ite ?_ ?_
        | refine Reach1.ite ?_ ?_
        | refine Reach.foldl _ ?_ (fun _ _ _ => ?_)
        | refine Reach1.foldl _ ?_ (fun _ _ _ => ?_)
        | refine Reach1.fst (Reach1.foldl _ ?_ (fun _ _ _ => ?_))
        | apply Reach.then ?_ (State.goLive_reach ..) ?_)
    | (split <;> try (refine Reach.cut1 (by assumption) ?_ (fun _ => ?_)))
    | split)

theorem State.openQuiet_reach (s : State) : Reach 0x20000006000000000000000000000000000000000000000000000000000000402000 s (State.openQuiet s) := by
  have h0 := Reach.refl 0x20000006000000000000000000000000000000000000000000000000000000402000 s
  unfold State.openQuiet
  repeat' (first
    | with_reducible assumption
    | exact rfl
    | with_reducible (first
        | refine Reach.ite ?_ ?_
        | apply Reach.then ?_ (State.putTokens_reach ..) ?_
        | apply Reach.then ?_ (State.setRec_reach ..) ?_
        | apply Reach.then ?_ (State.setRecState_reach ..) ?_
        | apply Reach.then ?_ (State.traceToken_reach ..) ?_)
    | (extract_lets +onlyGivenNames -underBinder -merge -useContext x; first | (refine Reach.cut x ?_ (fun _ => ?_); rotate_left; clear_value x; rotate_left; unfold x; clear x) | (have _ := fun a => x a; unfold x; clear x) | clear_value x)
    | (split <;> try (refine Reach.cut1 (by assumption) ?_ (fun _ => ?_)))
    | split
    | with_reducible (first
        | refine Reach.set_beam ?_ ?_))

theorem State.flashActions_reach (s : State) : Reach 0x40003111000640084000000000000001022411f8208000000000000000000008a0487c3d s (State.flashActions s) := by
  have h0 := Reach.refl 0x40003111000640084000000000000001022411f8208000000000000000000008a0487c3d s
  unfold State.flashActions
  repeat' (first
    | with_reducible assumption
    | exact rfl
    | with_reducible (first
        | refine Reach.ite ?_ ?_
        | apply Reach.then ?_ (State.liveRecords_reach ..) ?_
        | apply Reach.then ?_ (State.openQuiet_reach ..) ?_
        | apply Reach.then ?_ (State.quietFlash_reach ..) ?_
        | apply Reach.then ?_ (State.revolutionActions_reach ..) ?_
        | apply Reach.then ?_ (State.rollWindows_reach ..) ?_
        | apply Reach.then ?_ (State.settleTable_reach ..) ?_
        | apply Reach.then ?_ (State.traceDue_reach ..) ?_)
    | (extract_lets +onlyGivenNames -underBinder -merge -useContext x; first | (refine Reach.cut x ?_ (fun _ => ?_); rotate_left; clear_value x; rotate_left; unfold x; clear x) | (have _ := fun a => x a; unfold x; clear x) | clear_value x)
    | (split <;> try (refine Reach.cut1 (by assumption) ?_ (fun _ => ?_)))
    | split)

theorem flashBoundaryEffect_reach (s : State) : Reach 0x40003111000640086000000000000001022411f8208000000000000000000008a0487c3d s (flashBoundaryEffect s) := by
  have h0 := Reach.refl 0x40003111000640086000000000000001022411f8208000000000000000000008a0487c3d s
  unfold flashBoundaryEffect
  repeat' (first
    | with_reducible assumption
    | exact rfl
    | with_reducible (first
        | refine Reach.ite ?_ ?_
        | apply Reach.then ?_ (State.flashActions_reach ..) ?_
        | apply Reach.then ?_ (State.setBeam_reach ..) ?_)
    | (extract_lets +onlyGivenNames -underBinder -merge -useContext x; first | (refine Reach.cut x ?_ (fun _ => ?_); rotate_left; clear_value x; rotate_left; unfold x; clear x) | (have _ := fun a => x a; unfold x; clear x) | clear_value x)
    | (split <;> try (refine Reach.cut1 (by assumption) ?_ (fun _ => ?_)))
    | split
    | with_reducible (first
        | refine Reach.set_beam ?_ ?_))

theorem State.runBeam_reach (s : State) (target : Nat) (y0 : Nat) : Reach 0x40003111000640086000000000000001022411f8208000000000000000000008a0487c3d s (State.runBeam s target y0) := by
  induction y0 generalizing s target with
  | zero =>
    have h0 := Reach.refl 0x40003111000640086000000000000001022411f8208000000000000000000008a0487c3d s
    unfold State.runBeam
    repeat' (first
    | with_reducible assumption
    | exact rfl
    | with_reducible (first
        | refine Reach.ite ?_ ?_
        | apply Reach.then ?_ (State.flashActions_reach ..) ?_
        | apply Reach.then ?_ (State.setBeam_reach ..) ?_
        | apply Reach.then ?_ (ih ..) ?_)
    | (extract_lets +onlyGivenNames -underBinder -merge -useContext x; first | (refine Reach.cut x ?_ (fun _ => ?_); rotate_left; clear_value x; rotate_left; unfold x; clear x) | (have _ := fun a => x a; unfold x; clear x) | clear_value x)
    | (split <;> try (refine Reach.cut1 (by assumption) ?_ (fun _ => ?_)))
    | split)
  | succ _ ih =>
    have h0 := Reach.refl 0x40003111000640086000000000000001022411f8208000000000000000000008a0487c3d s
    unfold State.runBeam
    repeat' (first
    | with_reducible assumption
    | exact rfl
    | with_reducible (first
        | refine Reach.ite ?_ ?_
        | apply Reach.then ?_ (State.flashActions_reach ..) ?_
        | apply Reach.then ?_ (State.setBeam_reach ..) ?_
        | apply Reach.then ?_ (ih ..) ?_)
    | (extract_lets +onlyGivenNames -underBinder -merge -useContext x; first | (refine Reach.cut x ?_ (fun _ => ?_); rotate_left; clear_value x; rotate_left; unfold x; clear x) | (have _ := fun a => x a; unfold x; clear x) | clear_value x)
    | (split <;> try (refine Reach.cut1 (by assumption) ?_ (fun _ => ?_)))
    | split)

theorem State.stepBeam_reach (s : State) (target : Nat) : Reach 0x40003111000640086000000000000001022411f8208000000000000000000008a0487c3d s (State.stepBeam s target) := by
  have h0 := Reach.refl 0x40003111000640086000000000000001022411f8208000000000000000000008a0487c3d s
  unfold State.stepBeam
  repeat' (first
    | with_reducible assumption
    | exact rfl
    | with_reducible (first
        | apply Reach.then ?_ (State.runBeam_reach ..) ?_))

theorem beamMarkSendEffect_reach (link : Fin 16) (s : State) : Reach 0x800000 s (beamMarkSendEffect link s) := by
  have h0 := Reach.refl 0x800000 s
  unfold beamMarkSendEffect
  repeat' (first
    | with_reducible assumption
    | exact rfl
    | with_reducible (first
        | refine Reach.ite ?_ ?_
        | apply Reach.then ?_ (State.sendControl_reach ..) ?_)
    | (extract_lets +onlyGivenNames -underBinder -merge -useContext x; first | (refine Reach.cut x ?_ (fun _ => ?_); rotate_left; clear_value x; rotate_left; unfold x; clear x) | (have _ := fun a => x a; unfold x; clear x) | clear_value x)
    | (split <;> try (refine Reach.cut1 (by assumption) ?_ (fun _ => ?_)))
    | split)

theorem State.hear_reach (s : State) (l : Nat) (hops : Nat) : Reach 0x2000 s (State.hear s l hops) := by
  have h0 := Reach.refl 0x2000 s
  unfold State.hear
  repeat' (first
    | with_reducible assumption
    | exact rfl
    | with_reducible (first
        | refine Reach.set_beam ?_ ?_))

theorem State.noteMark_reach (s : State) (l : Nat) (m : Mark) (err : Int) : Reach 0x40040000000000000000000000000000000000000000000000000006000 s (State.noteMark s l m err) := by
  have h0 := Reach.refl 0x40040000000000000000000000000000000000000000000000000006000 s
  unfold State.noteMark
  repeat' (first
    | with_reducible assumption
    | exact rfl
    | with_reducible (first
        | refine Reach.bumpBoth ?_ ?_
        | refine Reach.ite ?_ ?_
        | apply Reach.then ?_ (State.dput_reach ..) ?_
        | refine State.setBoth_reach ?_ ?_ ?_)
    | (extract_lets +onlyGivenNames -underBinder -merge -useContext x; first | (refine Reach.cut x ?_ (fun _ => ?_); rotate_left; clear_value x; rotate_left; unfold x; clear x) | (have _ := fun a => x a; unfold x; clear x) | clear_value x)
    | (split <;> try (refine Reach.cut1 (by assumption) ?_ (fun _ => ?_)))
    | split
    | with_reducible (first
        | refine Reach.set_beam ?_ ?_))

theorem State.correctByStep_reach (s : State) (t : Nat) : Reach 0x40003111000650086000000000000001022411f8208000000000000000000008a0487c3d s (State.correctByStep s t) := by
  have h0 := Reach.refl 0x40003111000650086000000000000001022411f8208000000000000000000008a0487c3d s
  unfold State.correctByStep
  repeat' (first
    | with_reducible assumption
    | exact rfl
    | with_reducible (first
        | refine Reach.bumpBoth ?_ ?_
        | refine Reach.ite ?_ ?_
        | apply Reach.then ?_ (State.setBeam_reach ..) ?_
        | apply Reach.then ?_ (State.stepBeam_reach ..) ?_)
    | (extract_lets +onlyGivenNames -underBinder -merge -useContext x; first | (refine Reach.cut x ?_ (fun _ => ?_); rotate_left; clear_value x; rotate_left; unfold x; clear x) | (have _ := fun a => x a; unfold x; clear x) | clear_value x)
    | (split <;> try (refine Reach.cut1 (by assumption) ?_ (fun _ => ?_)))
    | split
    | with_reducible (first
        | refine Reach.set_beam ?_ ?_))

theorem State.acquireMark_reach (s : State) (m : Mark) (t : Nat) (tenths : Int) : Reach 0x40003111000650086000000000000001022411f8208000000000000000000008a0487c3d s (State.acquireMark s m t tenths) := by
  have h0 := Reach.refl 0x40003111000650086000000000000001022411f8208000000000000000000008a0487c3d s
  unfold State.acquireMark
  repeat' (first
    | with_reducible assumption
    | exact rfl
    | with_reducible (first
        | refine Reach.ite ?_ ?_
        | apply Reach.then ?_ (State.correctByStep_reach ..) ?_
        | apply Reach.then ?_ (State.setBeamState_reach ..) ?_)
    | (extract_lets +onlyGivenNames -underBinder -merge -useContext x; first | (refine Reach.cut x ?_ (fun _ => ?_); rotate_left; clear_value x; rotate_left; unfold x; clear x) | (have _ := fun a => x a; unfold x; clear x) | clear_value x)
    | (split <;> try (refine Reach.cut1 (by assumption) ?_ (fun _ => ?_)))
    | split
    | with_reducible (first
        | refine Reach.set_beam ?_ ?_))

theorem State.lockedMark_reach (s : State) (err : Int) (tenths : Int) : Reach 0x40000000000000000000000000000000000000000000000000006000 s (State.lockedMark s err tenths) := by
  have h0 := Reach.refl 0x40000000000000000000000000000000000000000000000000006000 s
  unfold State.lockedMark
  repeat' (first
    | with_reducible assumption
    | exact rfl
    | with_reducible (first
        | refine Reach.ite ?_ ?_
        | apply Reach.then ?_ (State.setBeamState_reach ..) ?_)
    | (split <;> try (refine Reach.cut1 (by assumption) ?_ (fun _ => ?_)))
    | split
    | with_reducible (first
        | refine Reach.set_beam ?_ ?_))

theorem State.markIn_reach (s : State) (m : Mark) (t : Nat) (err : Int) (tenths : Int) : Reach 0x40003111000650086000000000000001022411f8208000000000000000000008a0487c3d s (State.markIn s m t err tenths) := by
  have h0 := Reach.refl 0x40003111000650086000000000000001022411f8208000000000000000000008a0487c3d s
  unfold State.markIn
  repeat' (first
    | with_reducible assumption
    | exact rfl
    | with_reducible (first
        | refine Reach.ite ?_ ?_
        | apply Reach.then ?_ (State.acquireMark_reach ..) ?_
        | apply Reach.then ?_ (State.correctByStep_reach ..) ?_
        | apply Reach.then ?_ (State.lockedMark_reach ..) ?_
        | apply Reach.then ?_ (State.setBeam_reach ..) ?_
        | apply Reach.then ?_ (State.setBeamState_reach ..) ?_)
    | (extract_lets +onlyGivenNames -underBinder -merge -useContext x; first | (refine Reach.cut x ?_ (fun _ => ?_); rotate_left; clear_value x; rotate_left; unfold x; clear x) | (have _ := fun a => x a; unfold x; clear x) | clear_value x)
    | (split <;> try (refine Reach.cut1 (by assumption) ?_ (fun _ => ?_)))
    | split
    | with_reducible (first
        | refine Reach.set_beam ?_ ?_))

theorem beamMarkEffect_reach (link : Fin 16) (flit : FlitIn) (s : State) : Reach 0x4000311100065c086000000009800001022411f8208000000000000000000008a0c87c3d s (beamMarkEffect link flit s) := by
  have h0 := Reach.refl 0x4000311100065c086000000009800001022411f8208000000000000000000008a0c87c3d s
  unfold beamMarkEffect
  repeat' (first
    | with_reducible assumption
    | exact rfl
    | simp -zeta -iota -proj only [Reach1.pair_iff]
    | with_reducible exact Reach1.fst (by assumption)
    | with_reducible (first
        | refine Reach.bumpBoth ?_ ?_
        | refine Reach.ite ?_ ?_
        | apply Reach.then ?_ (State.hear_reach ..) ?_
        | apply Reach.then ?_ (State.markIn_reach ..) ?_
        | apply Reach.then ?_ (State.noteMark_reach ..) ?_
        | apply Reach1.then ?_ (State.takeControl_reach ..) ?_
        | apply Reach1.fst (Reach1.then ?_ (State.takeControl_reach ..) ?_))
    | (extract_lets +onlyGivenNames -underBinder -merge -useContext x; first | (refine Reach.cut x ?_ (fun _ => ?_); rotate_left; clear_value x; rotate_left; unfold x; clear x) | (refine Reach.cutP x ?_ (fun _ => ?_); rotate_left; clear_value x; rotate_left; unfold x; clear x) | (have _ := fun a => x a; unfold x; clear x) | clear_value x)
    | (split <;> try (refine Reach.cut1 (by assumption) ?_ (fun _ => ?_)))
    | split)

theorem markLossTimeoutEffect_reach (s : State) : Reach 0x200040000000000000000000000000000000000000000000000000006000 s (markLossTimeoutEffect s) := by
  have h0 := Reach.refl 0x200040000000000000000000000000000000000000000000000000006000 s
  unfold markLossTimeoutEffect
  repeat' (first
    | with_reducible assumption
    | exact rfl
    | with_reducible (first
        | refine Reach.bumpBoth ?_ ?_
        | refine Reach.ite ?_ ?_
        | apply Reach.then ?_ (State.setBeamState_reach ..) ?_)
    | (extract_lets +onlyGivenNames -underBinder -merge -useContext x; first | (refine Reach.cut x ?_ (fun _ => ?_); rotate_left; clear_value x; rotate_left; unfold x; clear x) | (have _ := fun a => x a; unfold x; clear x) | clear_value x)
    | (split <;> try (refine Reach.cut1 (by assumption) ?_ (fun _ => ?_)))
    | split
    | with_reducible (first
        | refine Reach.set_beam ?_ ?_))

theorem beamHoldoverTimeoutEffect_reach (ms : BitVec 32) (s : State) : Reach 0x40000000000000000000000000000000000000000000000000004000 s (beamHoldoverTimeoutEffect ms s) := by
  have h0 := Reach.refl 0x40000000000000000000000000000000000000000000000000004000 s
  unfold beamHoldoverTimeoutEffect
  repeat' (first
    | with_reducible assumption
    | exact rfl
    | with_reducible (first
        | refine Reach.ite ?_ ?_
        | apply Reach.then ?_ (State.setBeamState_reach ..) ?_)
    | (split <;> try (refine Reach.cut1 (by assumption) ?_ (fun _ => ?_)))
    | split)

theorem State.setRole_reach (s : State) (lead : Bool) : Reach 0x40000000000000000000000000000000000000000000000000006000 s (State.setRole s lead) := by
  have h0 := Reach.refl 0x40000000000000000000000000000000000000000000000000006000 s
  unfold State.setRole
  repeat' (first
    | with_reducible assumption
    | exact rfl
    | with_reducible (first
        | refine Reach.ite ?_ ?_
        | apply Reach.then ?_ (State.setBeamState_reach ..) ?_
        | refine State.setBoth_reach ?_ ?_ ?_)
    | (extract_lets +onlyGivenNames -underBinder -merge -useContext x; first | (refine Reach.cut x ?_ (fun _ => ?_); rotate_left; clear_value x; rotate_left; unfold x; clear x) | (have _ := fun a => x a; unfold x; clear x) | clear_value x)
    | (split <;> try (refine Reach.cut1 (by assumption) ?_ (fun _ => ?_)))
    | split
    | with_reducible (first
        | refine Reach.set_beam ?_ ?_))

end Sys2Proof.Machine
end

