-- ==== Sys2Proof/Laws/ExecBeam.lean ====
section
/-!
SUPPORT. Every command answers a next state, and the footprint of its effect: Machine/Daymark.lean, Machine/Beam.lean, Machine/BeamClock.lean.
-/
set_option linter.unusedTactic false
set_option linter.unreachableTactic false
namespace Sys2Proof.Machine

theorem execDaymarkTakeEffect_reach (index : BitVec 12) (s : State) : ∃ t, execDaymarkTakeEffect index s = .next t ∧ Reach 0x40001000000741200000000000000003022411f820800000000000000000000006887c1d s t := ⟨_, rfl, daymarkTakeEffectEffect_reach ..⟩

theorem execPageCopyDone_reach (die : Fin 2) (failed : Bool) (s : State) : ∃ t, execPageCopyDone die failed s = .next t ∧ Reach 0x400030000007412000080002000001e303a411fa3b8c0120c0080000000000000ed87cfd s t := ⟨_, rfl, pageCopyDoneEffect_reach ..⟩

theorem execDaymarkCommit_reach (index : BitVec 12) (s : State) : ∃ t, execDaymarkCommit index s = .next t ∧ Reach 0x4000300000074120000800020000000303a411fa3b8c0120c0080000000000000ed87cfd s t := ⟨_, rfl, daymarkCommitEffect_reach ..⟩

theorem execDaymarkRestore_reach (die : Fin 2) (value : Word) (s : State) : ∃ t, execDaymarkRestore die value s = .next t ∧ Reach 0x140000000000000000000000000000000010000000 s t := ⟨_, rfl, daymarkRestoreEffect_reach ..⟩

theorem execRestoreEnd_reach (die : Fin 2) (fetched : List (BitVec 64 × List Byte)) (s : State) : ∃ t, execRestoreEnd die fetched s = .next t ∧ Reach 0x40001000000000000000000000000211022011f83b000000c00000000000000010087c1d s t := ⟨_, rfl, restoreEndEffect_reach ..⟩

theorem execRecordArm_reach (index : BitVec 12) (first : Option Words4) (second : Words4) (s : State) : ∃ t, execRecordArm index first second s = .next t ∧ Reach 0x40001000000240000000000000000001022011f820000000000000000000000000087c1d s t := ⟨_, rfl, recordArmEffect_reach ..⟩

theorem execNowRecordLive_reach (index : BitVec 12) (s : State) : ∃ t, execNowRecordLive index s = .next t ∧ Reach 0x2400800000000000000000000000000000000000000000000000000002000 s t := ⟨_, rfl, nowRecordLiveEffect_reach ..⟩

theorem execRecordLaunch_reach (index : BitVec 12) (s : State) : ∃ t, execRecordLaunch index s = .next t ∧ Reach 0x20000006400400000000000000010080000000010000000000000000000000487b9d s t := ⟨_, rfl, recordLaunchEffect_reach ..⟩

theorem execPreemptSaveDone_reach (e : EngId) (task : Fin 4) (s : State) : ∃ t, execPreemptSaveDone e task s = .next t ∧ Reach 0x40003000000000000000000000006001022011fa3b0d0120c00d00000000000002787dfd s t := ⟨_, rfl, preemptSaveDoneEffect_reach ..⟩

theorem execContextRestore_reach (e : EngId) (task : Fin 4) (s : State) : ∃ t, execContextRestore e task s = .next t ∧ Reach 0x40003000000200800000000000000001022011fa3b0c0120c00800000000000000587cff s t := ⟨_, rfl, contextRestoreEffect_reach ..⟩

theorem execQuietWindowClose_reach (s : State) : ∃ t, execQuietWindowClose s = .next t ∧ Reach 0x40001000000741300000000000000001022011f820000000000000000000000002887c1d s t := ⟨_, rfl, quietWindowCloseEffect_reach ..⟩

theorem execRecordEnd_reach (index : BitVec 12) (s : State) : ∃ t, execRecordEnd index s = .next t ∧ Reach 0x40001000000741200000000000000001022011f820000000000000000000000002887f9d s t := ⟨_, rfl, recordEndEffect_reach ..⟩

theorem execCringRoom_reach (owner : BitVec 6) (cons : BitVec 32) (s : State) : ∃ t, execCringRoom owner cons s = .next t ∧ Reach 0x40001000000740200000000000000001022011f820000000000000000000000002887c1d s t := ⟨_, rfl, cringRoomEffect_reach ..⟩

theorem execTokenSet_reach (value : Word) (s : State) : ∃ t, execTokenSet value s = .next t ∧ Reach 0x4000200000000000000000000000000000000000000000000000000000000 s t := by
  refine ⟨_, rfl, ?_⟩
  have h0 := Reach.refl 0x4000200000000000000000000000000000000000000000000000000000000 s
  repeat' (first
    | with_reducible assumption
    | exact rfl
    | with_reducible (first
        | apply Reach.then ?_ (State.tokenCmd_reach ..) ?_))

theorem execTokenClear_reach (value : Word) (s : State) : ∃ t, execTokenClear value s = .next t ∧ Reach 0x4000200000000000000000000000000000000000000000000000000000000 s t := by
  refine ⟨_, rfl, ?_⟩
  have h0 := Reach.refl 0x4000200000000000000000000000000000000000000000000000000000000 s
  repeat' (first
    | with_reducible assumption
    | exact rfl
    | with_reducible (first
        | apply Reach.then ?_ (State.tokenCmd_reach ..) ?_))

theorem execAbortRecord_reach (die : Fin 2) (value : Word) (s : State) : ∃ t, execAbortRecord die value s = .next t ∧ Reach 0x4000300000074331000b04020000010303a411fa3b8c0120c0080000000000000fd87cfd s t := by
  refine ⟨_, rfl, ?_⟩
  have h0 := Reach.refl 0x4000300000074331000b04020000010303a411fa3b8c0120c0080000000000000fd87cfd s
  repeat' (first
    | with_reducible assumption
    | exact rfl
    | with_reducible (first
        | apply Reach.then ?_ (State.abortCmd_reach ..) ?_))

theorem execAbortOwner_reach (die : Fin 2) (value : Word) (s : State) : ∃ t, execAbortOwner die value s = .next t ∧ Reach 0x4000300000074331000b04020000010303a411fa3b8c0120c0080000000000000fd87cfd s t := by
  refine ⟨_, rfl, ?_⟩
  have h0 := Reach.refl 0x4000300000074331000b04020000010303a411fa3b8c0120c0080000000000000fd87cfd s
  repeat' (first
    | with_reducible assumption
    | exact rfl
    | with_reducible (first
        | apply Reach.then ?_ (State.abortCmd_reach ..) ?_))

theorem execFlashBoundary_reach (s : State) : ∃ t, execFlashBoundary s = .next t ∧ Reach 0x40003111000640086000000000000001022411f8208000000000000000000008a0487c3d s t := ⟨_, rfl, flashBoundaryEffect_reach ..⟩

theorem execBeamMarkSend_reach (link : Fin 16) (s : State) : ∃ t, execBeamMarkSend link s = .next t ∧ Reach 0x800000 s t := ⟨_, rfl, beamMarkSendEffect_reach ..⟩

theorem execBeamMark_reach (link : Fin 16) (flit : FlitIn) (s : State) : ∃ t, execBeamMark link flit s = .next t ∧ Reach 0x4000311100065c086000000009800001022411f8208000000000000000000008a0c87c3d s t := ⟨_, rfl, beamMarkEffect_reach ..⟩

theorem execMarkLossTimeout_reach (s : State) : ∃ t, execMarkLossTimeout s = .next t ∧ Reach 0x200040000000000000000000000000000000000000000000000000006000 s t := ⟨_, rfl, markLossTimeoutEffect_reach ..⟩

theorem execBeamHoldoverTimeout_reach (ms : BitVec 32) (s : State) : ∃ t, execBeamHoldoverTimeout ms s = .next t ∧ Reach 0x40000000000000000000000000000000000000000000000000004000 s t := ⟨_, rfl, beamHoldoverTimeoutEffect_reach ..⟩

end Sys2Proof.Machine
end

