-- ==== Sys2Proof/Laws/ExecColl.lean ====
section
/-!
SUPPORT. Every command answers a next state, and the footprint of its effect: Machine/Coll.lean.
-/
set_option linter.unusedTactic false
set_option linter.unreachableTactic false
namespace Sys2Proof.Machine

theorem execAllReduce_reach (cluster : Fin 24) (launch : BitVec 12) (image : CmdImage) (s : State) : ∃ t, execAllReduce cluster launch image s = .next t ∧ Reach 0x4000300000074100000f4c0000006001022011fe3b0d0120c00800000000001003f87cfd s t := ⟨_, rfl, collIssue_reach ..⟩

theorem execReduceScatter_reach (cluster : Fin 24) (launch : BitVec 12) (image : CmdImage) (s : State) : ∃ t, execReduceScatter cluster launch image s = .next t ∧ Reach 0x4000300000074100000f4c0000006001022011fe3b0d0120c00800000000001003f87cfd s t := ⟨_, rfl, collIssue_reach ..⟩

theorem execAllGather_reach (cluster : Fin 24) (launch : BitVec 12) (image : CmdImage) (s : State) : ∃ t, execAllGather cluster launch image s = .next t ∧ Reach 0x4000300000074100000f4c0000006001022011fe3b0d0120c00800000000001003f87cfd s t := ⟨_, rfl, collIssue_reach ..⟩

theorem execAllToAll_reach (cluster : Fin 24) (launch : BitVec 12) (image : CmdImage) (s : State) : ∃ t, execAllToAll cluster launch image s = .next t ∧ Reach 0x4000300000074100000f4c0000006001022011fe3b0d0120c00800000000001003f87cfd s t := ⟨_, rfl, collIssue_reach ..⟩

theorem execPermute_reach (cluster : Fin 24) (launch : BitVec 12) (image : CmdImage) (s : State) : ∃ t, execPermute cluster launch image s = .next t ∧ Reach 0x4000300000074100000f4c0000006001022011fe3b0d0120c00800000000001003f87cfd s t := ⟨_, rfl, collIssue_reach ..⟩

theorem execBroadcast_reach (cluster : Fin 24) (launch : BitVec 12) (image : CmdImage) (s : State) : ∃ t, execBroadcast cluster launch image s = .next t ∧ Reach 0x4000300000074100000f4c0000006001022011fe3b0d0120c00800000000001003f87cfd s t := ⟨_, rfl, collIssue_reach ..⟩

theorem execRing_reach (cluster : Fin 24) (launch : BitVec 12) (image : CmdImage) (s : State) : ∃ t, execRing cluster launch image s = .next t ∧ Reach 0x4000300000074100000f4c0000006001022011fe3b0d0120c00800000000001003f87cfd s t := ⟨_, rfl, collIssue_reach ..⟩

theorem execNfCheck_reach (cluster : Fin 24) (launch : BitVec 12) (image : CmdImage) (s : State) : ∃ t, execNfCheck cluster launch image s = .next t ∧ Reach 0x4000300000074100000f4c0000006001022011fe3b0d0120c00800000000001003f87cfd s t := ⟨_, rfl, collIssue_reach ..⟩

theorem execCollData_reach (header : Words4) (lines : List LineSeg) (s : State) : ∃ t, execCollData header lines s = .next t ∧ Reach 0x4000300000074100000fdc0000006001022011fe200c0120000800000000001003f87cfd s t := by
  refine ⟨_, rfl, ?_⟩
  have h0 := Reach.refl 0x4000300000074100000fdc0000006001022011fe200c0120000800000000001003f87cfd s
  repeat' (first
    | with_reducible assumption
    | exact rfl
    | with_reducible (first
        | apply Reach.then ?_ (State.collArrives_reach ..) ?_))

theorem execCollPrepass_reach (header : Words4) (lines : List LineSeg) (s : State) : ∃ t, execCollPrepass header lines s = .next t ∧ Reach 0x4000300000074100000fdc0000006001022011fe200c0120000800000000001003f87cfd s t := by
  refine ⟨_, rfl, ?_⟩
  have h0 := Reach.refl 0x4000300000074100000fdc0000006001022011fe200c0120000800000000001003f87cfd s
  repeat' (first
    | with_reducible assumption
    | exact rfl
    | with_reducible (first
        | apply Reach.then ?_ (State.collArrives_reach ..) ?_))

theorem execRingBlock_reach (header : Words4) (lines : List LineSeg) (s : State) : ∃ t, execRingBlock header lines s = .next t ∧ Reach 0x4000300000074100000fdc0000006001022011fe200c0120000800000000001003f87cfd s t := by
  refine ⟨_, rfl, ?_⟩
  have h0 := Reach.refl 0x4000300000074100000fdc0000006001022011fe200c0120000800000000001003f87cfd s
  repeat' (first
    | with_reducible assumption
    | exact rfl
    | with_reducible (first
        | apply Reach.then ?_ (State.collArrives_reach ..) ?_))

theorem execCollAbort_reach (header : Words4) (s : State) : ∃ t, execCollAbort header s = .next t ∧ Reach 0x4000300000074100000b840000000001022011fa200c0120000800000000000003d87cfd s t := ⟨_, rfl, collAbortEffect_reach ..⟩

theorem execRingStepBoundary_reach (cluster : Fin 24) (launch : BitVec 12) (s : State) : ∃ t, execRingStepBoundary cluster launch s = .next t ∧ Reach 0x4000300000074100000f4c0000006001022011fe200c0120000800000000001003f87cfd s t := ⟨_, rfl, ringStepBoundaryEffect_reach ..⟩

theorem execCollectiveCommit_reach (cluster : Fin 24) (launch : BitVec 12) (s : State) : ∃ t, execCollectiveCommit cluster launch s = .next t ∧ Reach 0x4000300000074100006b240000000001022011fa200c0120000800000000000003d87cfd s t := ⟨_, rfl, collectiveCommitEffect_reach ..⟩

theorem execCollPeerTimeout_reach (cluster : Fin 24) (launch : BitVec 12) (ms : BitVec 32) (s : State) : ∃ t, execCollPeerTimeout cluster launch ms s = .next t ∧ Reach 0x4000300000074100006b240000000001022011fa200c0120000800000000000003d87cfd s t := ⟨_, rfl, collPeerTimeoutEffect_reach ..⟩

theorem execGroupEntryWrite_reach (die : Fin 2) (group : BitVec 8) (word : Fin 3) (value : Word) (s : State) : ∃ t, execGroupEntryWrite die group word value s = .next t ∧ Reach 0x4000300000074100076b240000000001022011fa200d0120000800000000000003d87cfd s t := ⟨_, rfl, groupEntryWriteEffect_reach ..⟩

theorem execCollMemberGenSet_reach (die : Fin 2) (value : Word) (s : State) : ∃ t, execCollMemberGenSet die value s = .next t ∧ Reach 0x400030000007410001eb240000000001022011fa200c0120000800000000000003d87cfd s t := ⟨_, rfl, collMemberGenSetEffect_reach ..⟩

end Sys2Proof.Machine
end

