-- ==== Sys2Proof/Laws/ExecEngine.lean ====
section
/-!
SUPPORT. Every command answers a next state, and the footprint of its effect: Machine/Cube.lean, Machine/EngineCmds.lean, Machine/Chains.lean.
-/
set_option linter.unusedTactic false
set_option linter.unreachableTactic false
namespace Sys2Proof.Machine

theorem execRampWindowStart_reach (r : Fin 8) (s : State) : ∃ t, execRampWindowStart r s = .next t ∧ Reach 0x10000000000640000000000000020 s t := ⟨_, rfl, rampWindowStartEffect_reach ..⟩

theorem execArrayRampDown_reach (e : EngId) (idle : BitVec 16) (s : State) : ∃ t, execArrayRampDown e idle s = .next t ∧ Reach 0x10000000000040000000000000020 s t := ⟨_, rfl, arrayRampDownEffect_reach ..⟩

theorem execTileOverrun_reach (e : EngId) (s : State) : ∃ t, execTileOverrun e s = .next t ∧ Reach 0x800000000000000020 s t := ⟨_, rfl, tileOverrunEffect_reach ..⟩

theorem execPass_reach (e : EngId) (task : Fin 4) (w : Words4) (s : State) : ∃ t, execPass e task w s = .next t ∧ Reach 0x40003000000200c00000000000006001022011fe200d4120180dff0c0000001002787dff s t := by
  refine ⟨_, rfl, ?_⟩
  have h0 := Reach.refl 0x40003000000200c00000000000006001022011fe200d4120180dff0c0000001002787dff s
  repeat' (first
    | with_reducible assumption
    | exact rfl
    | with_reducible (first
        | apply Reach.then ?_ (State.takeCmd_reach ..) ?_))

theorem execTileMark_reach (e : EngId) (task : Fin 4) (s : State) : ∃ t, execTileMark e task s = .next t ∧ Reach 0x40003000000200c00000000000006001022011fe200d4120180dff0c0000001002787dff s t := by
  refine ⟨_, rfl, ?_⟩
  have h0 := Reach.refl 0x40003000000200c00000000000006001022011fe200d4120180dff0c0000001002787dff s
  repeat' (first
    | with_reducible assumption
    | exact rfl
    | with_reducible (first
        | apply Reach.then ?_ (State.takeCmd_reach ..) ?_))

theorem execPreemptionPoint_reach (e : EngId) (task : Fin 4) (w : Words4) (s : State) : ∃ t, execPreemptionPoint e task w s = .next t ∧ Reach 0x40003000000200c00000000000006001022011fe200d4120180dff0c0000001002787dff s t := by
  refine ⟨_, rfl, ?_⟩
  have h0 := Reach.refl 0x40003000000200c00000000000006001022011fe200d4120180dff0c0000001002787dff s
  repeat' (first
    | with_reducible assumption
    | exact rfl
    | with_reducible (first
        | apply Reach.then ?_ (State.takeCmd_reach ..) ?_))

theorem execPassComplete_reach (e : EngId) (s : State) : ∃ t, execPassComplete e s = .next t ∧ Reach 0x40003000000200c00000000000006001022011fe200d41201c0dff0c0000001002787dff s t := ⟨_, rfl, passCompleteEffect_reach ..⟩

theorem execStationaryLoadDone_reach (e : EngId) (s : State) : ∃ t, execStationaryLoadDone e s = .next t ∧ Reach 0x40003000000200c00000000000006001022011fe200d4120180dff1c0000001002787dff s t := ⟨_, rfl, stationaryLoadDoneEffect_reach ..⟩

theorem execRampUpEnd_reach (e : EngId) (s : State) : ∃ t, execRampUpEnd e s = .next t ∧ Reach 0x40003000000200c00000000000006001022011fe200d4120180dff0c0000001002787dff s t := ⟨_, rfl, rampUpEndEffect_reach ..⟩

theorem execNop_reach (e : EngId) (task : Fin 4) (w : Words4) (s : State) : ∃ t, execNop e task w s = .next t ∧ Reach 0x40003000000200c00000000000006001022011fe200d4120180dff0c0000001002787dff s t := by
  refine ⟨_, rfl, ?_⟩
  have h0 := Reach.refl 0x40003000000200c00000000000006001022011fe200d4120180dff0c0000001002787dff s
  repeat' (first
    | with_reducible assumption
    | exact rfl
    | with_reducible (first
        | refine Reach.ite ?_ ?_
        | apply Reach.then ?_ (State.takeCmd_reach ..) ?_)
    | (split <;> try (refine Reach.cut1 (by assumption) ?_ (fun _ => ?_)))
    | split)

theorem execAdd_reach (e : EngId) (task : Fin 4) (w : Words4) (s : State) : ∃ t, execAdd e task w s = .next t ∧ Reach 0x40003000000200c00000000000006001022011fe200d4120180dff0c0000001002787dff s t := by
  refine ⟨_, rfl, ?_⟩
  have h0 := Reach.refl 0x40003000000200c00000000000006001022011fe200d4120180dff0c0000001002787dff s
  repeat' (first
    | with_reducible assumption
    | exact rfl
    | with_reducible (first
        | apply Reach.then ?_ (State.takeCmd_reach ..) ?_))

theorem execSub_reach (e : EngId) (task : Fin 4) (w : Words4) (s : State) : ∃ t, execSub e task w s = .next t ∧ Reach 0x40003000000200c00000000000006001022011fe200d4120180dff0c0000001002787dff s t := by
  refine ⟨_, rfl, ?_⟩
  have h0 := Reach.refl 0x40003000000200c00000000000006001022011fe200d4120180dff0c0000001002787dff s
  repeat' (first
    | with_reducible assumption
    | exact rfl
    | with_reducible (first
        | apply Reach.then ?_ (State.takeCmd_reach ..) ?_))

theorem execMul_reach (e : EngId) (task : Fin 4) (w : Words4) (s : State) : ∃ t, execMul e task w s = .next t ∧ Reach 0x40003000000200c00000000000006001022011fe200d4120180dff0c0000001002787dff s t := by
  refine ⟨_, rfl, ?_⟩
  have h0 := Reach.refl 0x40003000000200c00000000000006001022011fe200d4120180dff0c0000001002787dff s
  repeat' (first
    | with_reducible assumption
    | exact rfl
    | with_reducible (first
        | apply Reach.then ?_ (State.takeCmd_reach ..) ?_))

theorem execFma_reach (e : EngId) (task : Fin 4) (w : Words4) (s : State) : ∃ t, execFma e task w s = .next t ∧ Reach 0x40003000000200c00000000000006001022011fe200d4120180dff0c0000001002787dff s t := by
  refine ⟨_, rfl, ?_⟩
  have h0 := Reach.refl 0x40003000000200c00000000000006001022011fe200d4120180dff0c0000001002787dff s
  repeat' (first
    | with_reducible assumption
    | exact rfl
    | with_reducible (first
        | apply Reach.then ?_ (State.takeCmd_reach ..) ?_))

theorem execMax_reach (e : EngId) (task : Fin 4) (w : Words4) (s : State) : ∃ t, execMax e task w s = .next t ∧ Reach 0x40003000000200c00000000000006001022011fe200d4120180dff0c0000001002787dff s t := by
  refine ⟨_, rfl, ?_⟩
  have h0 := Reach.refl 0x40003000000200c00000000000006001022011fe200d4120180dff0c0000001002787dff s
  repeat' (first
    | with_reducible assumption
    | exact rfl
    | with_reducible (first
        | apply Reach.then ?_ (State.takeCmd_reach ..) ?_))

theorem execMin_reach (e : EngId) (task : Fin 4) (w : Words4) (s : State) : ∃ t, execMin e task w s = .next t ∧ Reach 0x40003000000200c00000000000006001022011fe200d4120180dff0c0000001002787dff s t := by
  refine ⟨_, rfl, ?_⟩
  have h0 := Reach.refl 0x40003000000200c00000000000006001022011fe200d4120180dff0c0000001002787dff s
  repeat' (first
    | with_reducible assumption
    | exact rfl
    | with_reducible (first
        | apply Reach.then ?_ (State.takeCmd_reach ..) ?_))

theorem execAbs_reach (e : EngId) (task : Fin 4) (w : Words4) (s : State) : ∃ t, execAbs e task w s = .next t ∧ Reach 0x40003000000200c00000000000006001022011fe200d4120180dff0c0000001002787dff s t := by
  refine ⟨_, rfl, ?_⟩
  have h0 := Reach.refl 0x40003000000200c00000000000006001022011fe200d4120180dff0c0000001002787dff s
  repeat' (first
    | with_reducible assumption
    | exact rfl
    | with_reducible (first
        | apply Reach.then ?_ (State.takeCmd_reach ..) ?_))

theorem execNeg_reach (e : EngId) (task : Fin 4) (w : Words4) (s : State) : ∃ t, execNeg e task w s = .next t ∧ Reach 0x40003000000200c00000000000006001022011fe200d4120180dff0c0000001002787dff s t := by
  refine ⟨_, rfl, ?_⟩
  have h0 := Reach.refl 0x40003000000200c00000000000006001022011fe200d4120180dff0c0000001002787dff s
  repeat' (first
    | with_reducible assumption
    | exact rfl
    | with_reducible (first
        | apply Reach.then ?_ (State.takeCmd_reach ..) ?_))

theorem execCopy_reach (e : EngId) (task : Fin 4) (w : Words4) (s : State) : ∃ t, execCopy e task w s = .next t ∧ Reach 0x40003000000200c00000000000006001022011fe200d4120180dff0c0000001002787dff s t := by
  refine ⟨_, rfl, ?_⟩
  have h0 := Reach.refl 0x40003000000200c00000000000006001022011fe200d4120180dff0c0000001002787dff s
  repeat' (first
    | with_reducible assumption
    | exact rfl
    | with_reducible (first
        | apply Reach.then ?_ (State.takeCmd_reach ..) ?_))

theorem execRowsum_reach (e : EngId) (task : Fin 4) (w : Words4) (s : State) : ∃ t, execRowsum e task w s = .next t ∧ Reach 0x40003000000200c00000000000006001022011fe200d4120180dff0c0000001002787dff s t := by
  refine ⟨_, rfl, ?_⟩
  have h0 := Reach.refl 0x40003000000200c00000000000006001022011fe200d4120180dff0c0000001002787dff s
  repeat' (first
    | with_reducible assumption
    | exact rfl
    | with_reducible (first
        | apply Reach.then ?_ (State.takeCmd_reach ..) ?_))

theorem execRowmax_reach (e : EngId) (task : Fin 4) (w : Words4) (s : State) : ∃ t, execRowmax e task w s = .next t ∧ Reach 0x40003000000200c00000000000006001022011fe200d4120180dff0c0000001002787dff s t := by
  refine ⟨_, rfl, ?_⟩
  have h0 := Reach.refl 0x40003000000200c00000000000006001022011fe200d4120180dff0c0000001002787dff s
  repeat' (first
    | with_reducible assumption
    | exact rfl
    | with_reducible (first
        | apply Reach.then ?_ (State.takeCmd_reach ..) ?_))

theorem execRownorm_reach (e : EngId) (task : Fin 4) (w : Words4) (s : State) : ∃ t, execRownorm e task w s = .next t ∧ Reach 0x40003000000200c00000000000006001022011fe200d4120180dff0c0000001002787dff s t := by
  refine ⟨_, rfl, ?_⟩
  have h0 := Reach.refl 0x40003000000200c00000000000006001022011fe200d4120180dff0c0000001002787dff s
  repeat' (first
    | with_reducible assumption
    | exact rfl
    | with_reducible (first
        | apply Reach.then ?_ (State.takeCmd_reach ..) ?_))

theorem execKnorm_reach (e : EngId) (task : Fin 4) (w : Words4) (s : State) : ∃ t, execKnorm e task w s = .next t ∧ Reach 0x40003000000200c00000000000006001022011fe200d4120180dff0c0000001002787dff s t := by
  refine ⟨_, rfl, ?_⟩
  have h0 := Reach.refl 0x40003000000200c00000000000006001022011fe200d4120180dff0c0000001002787dff s
  repeat' (first
    | with_reducible assumption
    | exact rfl
    | with_reducible (first
        | apply Reach.then ?_ (State.takeCmd_reach ..) ?_))

theorem execFunc_reach (e : EngId) (task : Fin 4) (w : Words4) (s : State) : ∃ t, execFunc e task w s = .next t ∧ Reach 0x40003000000200c00000000000006001022011fe200d4120180dff0c0000001002787dff s t := by
  refine ⟨_, rfl, ?_⟩
  have h0 := Reach.refl 0x40003000000200c00000000000006001022011fe200d4120180dff0c0000001002787dff s
  repeat' (first
    | with_reducible assumption
    | exact rfl
    | with_reducible (first
        | apply Reach.then ?_ (State.takeCmd_reach ..) ?_))

theorem execDeriv_reach (e : EngId) (task : Fin 4) (w : Words4) (s : State) : ∃ t, execDeriv e task w s = .next t ∧ Reach 0x40003000000200c00000000000006001022011fe200d4120180dff0c0000001002787dff s t := by
  refine ⟨_, rfl, ?_⟩
  have h0 := Reach.refl 0x40003000000200c00000000000006001022011fe200d4120180dff0c0000001002787dff s
  repeat' (first
    | with_reducible assumption
    | exact rfl
    | with_reducible (first
        | apply Reach.then ?_ (State.takeCmd_reach ..) ?_))

theorem execSmxUpdate_reach (e : EngId) (task : Fin 4) (w : Words4) (s : State) : ∃ t, execSmxUpdate e task w s = .next t ∧ Reach 0x40003000000200c00000000000006001022011fe200d4120180dff0c0000001002787dff s t := by
  refine ⟨_, rfl, ?_⟩
  have h0 := Reach.refl 0x40003000000200c00000000000006001022011fe200d4120180dff0c0000001002787dff s
  repeat' (first
    | with_reducible assumption
    | exact rfl
    | with_reducible (first
        | apply Reach.then ?_ (State.takeCmd_reach ..) ?_))

theorem execSmxProb_reach (e : EngId) (task : Fin 4) (w : Words4) (s : State) : ∃ t, execSmxProb e task w s = .next t ∧ Reach 0x40003000000200c00000000000006001022011fe200d4120180dff0c0000001002787dff s t := by
  refine ⟨_, rfl, ?_⟩
  have h0 := Reach.refl 0x40003000000200c00000000000006001022011fe200d4120180dff0c0000001002787dff s
  repeat' (first
    | with_reducible assumption
    | exact rfl
    | with_reducible (first
        | apply Reach.then ?_ (State.takeCmd_reach ..) ?_))

theorem execRowScale_reach (e : EngId) (task : Fin 4) (w : Words4) (s : State) : ∃ t, execRowScale e task w s = .next t ∧ Reach 0x40003000000200c00000000000006001022011fe200d4120180dff0c0000001002787dff s t := by
  refine ⟨_, rfl, ?_⟩
  have h0 := Reach.refl 0x40003000000200c00000000000006001022011fe200d4120180dff0c0000001002787dff s
  repeat' (first
    | with_reducible assumption
    | exact rfl
    | with_reducible (first
        | apply Reach.then ?_ (State.takeCmd_reach ..) ?_))

theorem execSkipDecide_reach (e : EngId) (task : Fin 4) (w : Words4) (s : State) : ∃ t, execSkipDecide e task w s = .next t ∧ Reach 0x40003000000200c00000000000006001022011fe200d4120180dff0c0000001002787dff s t := by
  refine ⟨_, rfl, ?_⟩
  have h0 := Reach.refl 0x40003000000200c00000000000006001022011fe200d4120180dff0c0000001002787dff s
  repeat' (first
    | with_reducible assumption
    | exact rfl
    | with_reducible (first
        | apply Reach.then ?_ (State.takeCmd_reach ..) ?_))

theorem execSkipReplay_reach (e : EngId) (task : Fin 4) (w : Words4) (s : State) : ∃ t, execSkipReplay e task w s = .next t ∧ Reach 0x40003000000200c00000000000006001022011fe200d4120180dff0c0000001002787dff s t := by
  refine ⟨_, rfl, ?_⟩
  have h0 := Reach.refl 0x40003000000200c00000000000006001022011fe200d4120180dff0c0000001002787dff s
  repeat' (first
    | with_reducible assumption
    | exact rfl
    | with_reducible (first
        | apply Reach.then ?_ (State.takeCmd_reach ..) ?_))

theorem execDropout_reach (e : EngId) (task : Fin 4) (w : Words4) (s : State) : ∃ t, execDropout e task w s = .next t ∧ Reach 0x40003000000200c00000000000006001022011fe200d4120180dff0c0000001002787dff s t := by
  refine ⟨_, rfl, ?_⟩
  have h0 := Reach.refl 0x40003000000200c00000000000006001022011fe200d4120180dff0c0000001002787dff s
  repeat' (first
    | with_reducible assumption
    | exact rfl
    | with_reducible (first
        | apply Reach.then ?_ (State.takeCmd_reach ..) ?_))

theorem execRandUniform_reach (e : EngId) (task : Fin 4) (w : Words4) (s : State) : ∃ t, execRandUniform e task w s = .next t ∧ Reach 0x40003000000200c00000000000006001022011fe200d4120180dff0c0000001002787dff s t := by
  refine ⟨_, rfl, ?_⟩
  have h0 := Reach.refl 0x40003000000200c00000000000006001022011fe200d4120180dff0c0000001002787dff s
  repeat' (first
    | with_reducible assumption
    | exact rfl
    | with_reducible (first
        | apply Reach.then ?_ (State.takeCmd_reach ..) ?_))

theorem execFlagsClear_reach (e : EngId) (task : Fin 4) (w : Words4) (s : State) : ∃ t, execFlagsClear e task w s = .next t ∧ Reach 0x40003000000200c00000000000006001022011fe200d4120180dff0c0000001002787dff s t := by
  refine ⟨_, rfl, ?_⟩
  have h0 := Reach.refl 0x40003000000200c00000000000006001022011fe200d4120180dff0c0000001002787dff s
  repeat' (first
    | with_reducible assumption
    | exact rfl
    | with_reducible (first
        | apply Reach.then ?_ (State.takeCmd_reach ..) ?_))

theorem execFlagsGet_reach (e : EngId) (task : Fin 4) (w : Words4) (s : State) : ∃ t, execFlagsGet e task w s = .next t ∧ Reach 0x40003000000200c00000000000006001022011fe200d4120180dff0c0000001002787dff s t := by
  refine ⟨_, rfl, ?_⟩
  have h0 := Reach.refl 0x40003000000200c00000000000006001022011fe200d4120180dff0c0000001002787dff s
  repeat' (first
    | with_reducible assumption
    | exact rfl
    | with_reducible (first
        | apply Reach.then ?_ (State.takeCmd_reach ..) ?_))

theorem execGalFlagEntryClear_reach (die : Fin 2) (idx : BitVec 12) (value : Word) (s : State) : ∃ t, execGalFlagEntryClear die idx value s = .next t ∧ Reach 0x400000000000000000000000000000000 s t := by
  refine ⟨_, rfl, ?_⟩
  have h0 := Reach.refl 0x400000000000000000000000000000000 s
  repeat' (first
    | with_reducible assumption
    | exact rfl
    | with_reducible (first
        | refine Reach.wr ?_ ?_))

theorem execStageChain_reach (cluster : Fin 24) (launch : BitVec 12) (image : CmdImage) (s : State) : ∃ t, execStageChain cluster launch image s = .next t ∧ Reach 0x200000000000000000000000000000000002000d01a80008000000000000005834e0 s t := ⟨_, rfl, stageChainEffect_reach ..⟩

theorem execNextChainLaunch_reach (cluster : Fin 24) (launch : BitVec 12) (image : CmdImage) (s : State) : ∃ t, execNextChainLaunch cluster launch image s = .next t ∧ Reach 0x200000000000000000000000000000000002000d81a80008000000000000005834e0 s t := ⟨_, rfl, nextChainLaunchEffect_reach ..⟩

theorem execStageItemStart_reach (ref : ChainRef) (stage : Fin 6) (loads : List LensLoad) (wait : SyncWait) (waited : BitVec 40) (s : State) : ∃ t, execStageItemStart ref stage loads wait waited s = .next t ∧ Reach 0x40003000000200c0000000000000600122a011fe3b0f6920d80dff0c0000001002787dff s t := ⟨_, rfl, stageItemStartEffect_reach ..⟩

theorem execSlotFull_reach (ref : ChainRef) (stage : Fin 6) (s : State) : ∃ t, execSlotFull ref stage s = .next t ∧ Reach 0x200080000000800000000000000000060 s t := ⟨_, rfl, slotFullEffect_reach ..⟩

theorem execSlotEmpty_reach (ref : ChainRef) (stage : Fin 6) (s : State) : ∃ t, execSlotEmpty ref stage s = .next t ∧ Reach 0x200080000000800000000000000000060 s t := ⟨_, rfl, slotEmptyEffect_reach ..⟩

theorem execTokenHandover_reach (ref : ChainRef) (ring : Fin 6) (toConsumer : Bool) (s : State) : ∃ t, execTokenHandover ref ring toConsumer s = .next t ∧ Reach 0x800000000000000000060 s t := ⟨_, rfl, tokenHandoverEffect_reach ..⟩

theorem execChainCommit_reach (ref : ChainRef) (s : State) : ∃ t, execChainCommit ref s = .next t ∧ Reach 0x40003000000200c0000000000000600102a011fe3b0f6120d80dff0c0000001002787dff s t := ⟨_, rfl, chainCommitEffect_reach ..⟩

theorem execTaskSwitch_reach (e : EngId) (task : Fin 4) (s : State) : ∃ t, execTaskSwitch e task s = .next t ∧ Reach 0x1000000000000000000020 s t := ⟨_, rfl, taskSwitchEffect_reach ..⟩

theorem execSwitchThresholdExpiry_reach (e : EngId) (waited : BitVec 32) (s : State) : ∃ t, execSwitchThresholdExpiry e waited s = .next t ∧ Reach 0x1000000000000000000020 s t := ⟨_, rfl, switchThresholdExpiryEffect_reach ..⟩

theorem execChainStall_reach (ref : ChainRef) (us : BitVec 32) (s : State) : ∃ t, execChainStall ref us s = .next t ∧ Reach 0x200000000000000000000000000000000002000c03200008000000000000005834e0 s t := ⟨_, rfl, chainStallEffect_reach ..⟩

theorem execSlotTimeout_reach (ref : ChainRef) (ms : BitVec 32) (status : BitVec 8) (s : State) : ∃ t, execSlotTimeout ref ms status s = .next t ∧ Reach 0x200000000000000000000000000000000002000c05200008000000000000005834e0 s t := ⟨_, rfl, slotTimeoutEffect_reach ..⟩

theorem execChainAbort_reach (ref : ChainRef) (s : State) : ∃ t, execChainAbort ref s = .next t ∧ Reach 0x200000000000000000000000000000000002000c01000008000000000000005820e0 s t := ⟨_, rfl, chainAbortEffect_reach ..⟩

theorem execRunaheadResume_reach (ref : ChainRef) (s : State) : ∃ t, execRunaheadResume ref s = .next t ∧ Reach 0x40003000000200c0000000000000600102a011fe3b0f6120d80dff0c0000001002787dff s t := ⟨_, rfl, runaheadResumeEffect_reach ..⟩

end Sys2Proof.Machine
end

