-- ==== Sys2Proof/Laws/ExecFabric.lean ====
section
/-!
SUPPORT. Every command answers a next state, and the footprint of its effect: Machine/Links.lean, Machine/Windows.lean.
-/
set_option linter.unusedTactic false
set_option linter.unreachableTactic false
namespace Sys2Proof.Machine

theorem execFlitTransmit_reach (link : Fin 16) (s : State) : ∃ t, execFlitTransmit link s = .next t ∧ Reach 0x40003000000000000000000002156001022011fe200d4120080840000000001002f87cff s t := ⟨_, rfl, flitTransmitEffect_reach ..⟩

theorem execDataFlitReceive_reach (link : Fin 16) (flit : FlitIn) (again : Bool) (s : State) : ∃ t, execDataFlitReceive link flit again s = .next t ∧ Reach 0x11e800000000000000000000000000000000000000800000 s t := ⟨_, rfl, dataFlitReceiveEffect_reach ..⟩

theorem execNullFlit_reach (link : Fin 16) (flit : FlitIn) (s : State) : ∃ t, execNullFlit link flit s = .next t ∧ Reach 0x18000000000000000000000000000000000000000800000 s t := ⟨_, rfl, nullFlitEffect_reach ..⟩

theorem execNak_reach (link : Fin 16) (flit : FlitIn) (s : State) : ∃ t, execNak link flit s = .next t ∧ Reach 0x98000000000000000000000000000000000000000800000 s t := ⟨_, rfl, nakEffect_reach ..⟩

theorem execRetryTimerExpiry_reach (link : Fin 16) (waited : BitVec 32) (s : State) : ∃ t, execRetryTimerExpiry link waited s = .next t ∧ Reach 0x800000 s t := ⟨_, rfl, retryTimerExpiryEffect_reach ..⟩

theorem execRecoveryDone_reach (link : Fin 16) (s : State) : ∃ t, execRecoveryDone link s = .next t ∧ Reach 0x100000000000000000000000000000000000000804000 s t := ⟨_, rfl, recoveryDoneEffect_reach ..⟩

theorem execLinkRecoverTimeout_reach (link : Fin 16) (ms : BitVec 16) (s : State) : ∃ t, execLinkRecoverTimeout link ms s = .next t ∧ Reach 0x200000000000000800040001000000000002000c0120000800000000000000d874e0 s t := ⟨_, rfl, linkRecoverTimeoutEffect_reach ..⟩

theorem execLinkEnable_reach (link : Fin 16) (value : Bool) (s : State) : ∃ t, execLinkEnable link value s = .next t ∧ Reach 0x100000000000000000000000000000000000000004000 s t := ⟨_, rfl, linkEnableEffect_reach ..⟩

theorem execSignalDetect_reach (link : Fin 16) (s : State) : ∃ t, execSignalDetect link s = .next t ∧ Reach 0x100000000000000000000000000000000000000804000 s t := ⟨_, rfl, signalDetectEffect_reach ..⟩

theorem execSignalLost_reach (link : Fin 16) (s : State) : ∃ t, execSignalLost link s = .next t ∧ Reach 0x100000000000000000000000000000000000000004000 s t := ⟨_, rfl, signalLostEffect_reach ..⟩

theorem execPhyTrainDone_reach (link : Fin 16) (loss : BitVec 16) (s : State) : ∃ t, execPhyTrainDone link loss s = .next t ∧ Reach 0x100000000000000000000000000000000000000804000 s t := ⟨_, rfl, phyTrainDoneEffect_reach ..⟩

theorem execPhyTrainTimeout_reach (link : Fin 16) (ms : BitVec 16) (s : State) : ∃ t, execPhyTrainTimeout link ms s = .next t ∧ Reach 0x100000000000000000000000000000000000000004000 s t := ⟨_, rfl, phyTrainTimeoutEffect_reach ..⟩

theorem execCapabilitySend_reach (link : Fin 16) (s : State) : ∃ t, execCapabilitySend link s = .next t ∧ Reach 0x800000 s t := ⟨_, rfl, capabilitySendEffect_reach ..⟩

theorem execCapability_reach (link : Fin 16) (flit : FlitIn) (s : State) : ∃ t, execCapability link flit s = .next t ∧ Reach 0x98100000000000000000000000000000000000000804000 s t := ⟨_, rfl, capabilityEffect_reach ..⟩

theorem execEchoRequest_reach (link : Fin 16) (flit : FlitIn) (s : State) : ∃ t, execEchoRequest link flit s = .next t ∧ Reach 0x98000000000000000000000000000000000000000800000 s t := ⟨_, rfl, echoRequestEffect_reach ..⟩

theorem execEchoRequestSend_reach (link : Fin 16) (s : State) : ∃ t, execEchoRequestSend link s = .next t ∧ Reach 0x800000 s t := ⟨_, rfl, echoRequestSendEffect_reach ..⟩

theorem execEchoReply_reach (link : Fin 16) (flit : FlitIn) (rtt : BitVec 20) (s : State) : ∃ t, execEchoReply link flit rtt s = .next t ∧ Reach 0x98300000000000000000000000000000000000000804000 s t := ⟨_, rfl, echoReplyEffect_reach ..⟩

theorem execPut_reach (link : Option (Fin 16)) (header : Words4) (lines : List LineTries) (s : State) : ∃ t, execPut link header lines s = .next t ∧ Reach 0x40003000000400000008002380000001022011fa3b0c0120c00800000000000000d87cfd s t := ⟨_, rfl, putEffect_reach ..⟩

theorem execGetReq_reach (link : Option (Fin 16)) (header : Words4) (s : State) : ∃ t, execGetReq link header s = .next t ∧ Reach 0x40003000000400000008002380000001022011fa3b0c0120c00800000000000000d87cfd s t := ⟨_, rfl, getReqEffect_reach ..⟩

theorem execRingSlotAccept_reach (die : Fin 2) (s : State) : ∃ t, execRingSlotAccept die s = .next t ∧ Reach 0x40003000000400000008002380000001022011fa3b0c0120c00800000000000000d87cfd s t := ⟨_, rfl, ringSlotAcceptEffect_reach ..⟩

theorem execGetData_reach (header : Words4) (lines : List LineTries) (s : State) : ∃ t, execGetData header lines s = .next t ∧ Reach 0x40003000000200c0000000040000600102a011fe3b0f6120d80dff0c0000001002f87dff s t := ⟨_, rfl, getDataEffect_reach ..⟩

theorem execAccept_reach (header : Words4) (s : State) : ∃ t, execAccept header s = .next t ∧ Reach 0x4000000000000000000000000000000000000000000900000 s t := ⟨_, rfl, acceptEffect_reach ..⟩

theorem execRefuse_reach (header : Words4) (s : State) : ∃ t, execRefuse header s = .next t ∧ Reach 0x200000000000000000040000000000000002000c0120000800000000000000d834e0 s t := ⟨_, rfl, refuseEffect_reach ..⟩

theorem execLanded_reach (header : Words4) (s : State) : ∃ t, execLanded header s = .next t ∧ Reach 0x200000000000000000040000000000000002000c0120000800000000000000d834e0 s t := ⟨_, rfl, landedEffect_reach ..⟩

theorem execReline_reach (header : Words4) (s : State) : ∃ t, execReline header s = .next t ∧ Reach 0x4000000000000000000000000000000000000000000900000 s t := ⟨_, rfl, relineEffect_reach ..⟩

theorem execLost_reach (header : Words4) (s : State) : ∃ t, execLost header s = .next t ∧ Reach 0x200000000000000000040000000000000002000c0120000800000000000000d834e0 s t := ⟨_, rfl, lostEffect_reach ..⟩

theorem execMsgResponseTimeout_reach (atTarget : Bool) (tag : BitVec 16) (pkg : BitVec 12) (ms : BitVec 32) (s : State) : ∃ t, execMsgResponseTimeout atTarget tag pkg ms s = .next t ∧ Reach 0x3000000400000008000600000001022011fa3b0c0120c00800000000000000d87cfd s t := ⟨_, rfl, msgResponseTimeoutEffect_reach ..⟩

theorem execWindowOpen_reach (die : Fin 2) (value : Word) (s : State) : ∃ t, execWindowOpen die value s = .next t ∧ Reach 0xc8400000000000000000000000000000000000000000800000 s t := ⟨_, rfl, windowOpenEffect_reach ..⟩

theorem execWindowClose_reach (die : Fin 2) (value : Word) (s : State) : ∃ t, execWindowClose die value s = .next t ∧ Reach 0x80089400000000000000000000000000000000000000000800000 s t := ⟨_, rfl, windowCloseEffect_reach ..⟩

theorem execWindowCloseRecord_reach (die : Fin 2) (entry : BitVec 9) (s : State) : ∃ t, execWindowCloseRecord die entry s = .next t ∧ Reach 0x40003000000400000000008000000001022011fa200c0120000800000000000000d87cfd s t := ⟨_, rfl, windowCloseRecordEffect_reach ..⟩

theorem execRebuildReq_reach (header : Words4) (s : State) : ∃ t, execRebuildReq header s = .next t ∧ Reach 0x1000000000000008000000000001022011f83b000000c00000000000000000987c1d s t := ⟨_, rfl, rebuildReqEffect_reach ..⟩

theorem execRebuildData_reach (header : Words4) (line : LineSeg) (s : State) : ∃ t, execRebuildData header line s = .next t ∧ Reach 0x40003000000200c000000000000060011ea011fe3b0f6120d80dff0c0000001002f87dff s t := ⟨_, rfl, rebuildDataEffect_reach ..⟩

theorem execMessageForward_reach (die : Fin 2) (header : Words4) (lines : List LineSeg) (s : State) : ∃ t, execMessageForward die header lines s = .next t ∧ Reach 0x80000000000000000000000000000000000000000000000800000 s t := ⟨_, rfl, messageForwardEffect_reach ..⟩

theorem execHeldMessageRelease_reach (die : Fin 2) (s : State) : ∃ t, execHeldMessageRelease die s = .next t ∧ Reach 0x80000000000000000000000000000000000000000000000800000 s t := ⟨_, rfl, heldMessageReleaseEffect_reach ..⟩

end Sys2Proof.Machine
end

