-- ==== Sys2Proof/Laws/ReachSecOps.lean ====
section
/-!
SUPPORT. The footprint of each function of Machine/SecOps.lean.
-/
set_option linter.unusedTactic false
set_option linter.unreachableTactic false
namespace Sys2Proof.Machine

theorem State.blowTo_reach (s : State) (lo : Nat) (w : Nat) (n : Nat) : Reach 0x10000 s (State.blowTo s lo w n) := by
  have h0 := Reach.refl 0x10000 s
  unfold State.blowTo
  repeat' (first
    | with_reducible assumption
    | exact rfl
    | simp -zeta -iota -proj only [Reach1.pair_iff]
    | with_reducible exact Reach1.fst (by assumption)
    | with_reducible (first
        | refine Reach.ite ?_ ?_
        | refine Reach1.ite ?_ ?_
        | refine Reach.foldl _ ?_ (fun _ _ _ => ?_)
        | refine Reach1.foldl _ ?_ (fun _ _ _ => ?_)
        | refine Reach1.fst (Reach1.foldl _ ?_ (fun _ _ _ => ?_)))
    | (split <;> try (refine Reach.cut1 (by assumption) ?_ (fun _ => ?_)))
    | split
    | exact fun k h => by simp [BitVec.getLsbD_or, h]
    | with_reducible (first
        | refine Reach.set_fuses ?_ ?_ ?_))

theorem State.logVerify_reach (s : State) (c : ImageCheck) (slot : Bool) (host : Bool) : Reach 0x8000100000000000000000000000000000000000000000000000000000000000000000000 s (State.logVerify s c slot host) := by
  have h0 := Reach.refl 0x8000100000000000000000000000000000000000000000000000000000000000000000000 s
  unfold State.logVerify
  repeat' (first
    | with_reducible assumption
    | exact rfl
    | with_reducible (first
        | refine Reach.wr ?_ ?_
        | refine Reach.setFld ?_ ?_))

theorem State.showSecState_reach (s : State) (unlocked : Bool) : Reach 0x2000000000000000000000000000000000000000000000000000000000000000000004000 s (State.showSecState s unlocked) := by
  have h0 := Reach.refl 0x2000000000000000000000000000000000000000000000000000000000000000000004000 s
  unfold State.showSecState
  repeat' (first
    | with_reducible assumption
    | exact rfl
    | with_reducible (first
        | refine Reach.setFld ?_ ?_
        | refine Reach.ite ?_ ?_
        | apply Reach.then ?_ (State.dput_reach ..) ?_)
    | (extract_lets +onlyGivenNames -underBinder -merge -useContext x; first | (refine Reach.cut x ?_ (fun _ => ?_); rotate_left; clear_value x; rotate_left; unfold x; clear x) | (have _ := fun a => x a; unfold x; clear x) | clear_value x)
    | (split <;> try (refine Reach.cut1 (by assumption) ?_ (fun _ => ?_)))
    | split)

theorem State.measure5_reach (s : State) : Reach 0x200000000 s (State.measure5 s) := by
  have h0 := Reach.refl 0x200000000 s
  unfold State.measure5
  repeat' (first
    | with_reducible assumption
    | exact rfl
    | with_reducible (first
        | refine Reach.set_security ?_ ?_))

theorem State.sendFrame_reach (s : State) (ftype : Nat) (mode : Nat) (node : Nat) (pkg : Nat) (seq : Nat) (body : List Byte) : Reach 0x80000000 s (State.sendFrame s ftype mode node pkg seq body) := by
  have h0 := Reach.refl 0x80000000 s
  unfold State.sendFrame
  repeat' (first
    | with_reducible assumption
    | exact rfl
    | (extract_lets +onlyGivenNames -underBinder -merge -useContext x; first | (refine Reach.cut x ?_ (fun _ => ?_); rotate_left; clear_value x; rotate_left; unfold x; clear x) | (have _ := fun a => x a; unfold x; clear x) | clear_value x)
    | with_reducible (first
        | refine Reach.set_mooring ?_ ?_))

theorem State.sendNew_reach (s : State) (ftype : Nat) (body : List Byte) : Reach 0x80000000 s (State.sendNew s ftype body) := by
  have h0 := Reach.refl 0x80000000 s
  unfold State.sendNew
  repeat' (first
    | with_reducible assumption
    | exact rfl
    | with_reducible (first
        | apply Reach.then ?_ (State.sendFrame_reach ..) ?_)
    | (extract_lets +onlyGivenNames -underBinder -merge -useContext x; first | (refine Reach.cut x ?_ (fun _ => ?_); rotate_left; clear_value x; rotate_left; unfold x; clear x) | (have _ := fun a => x a; unfold x; clear x) | clear_value x)
    | with_reducible (first
        | refine Reach.set_mooring ?_ ?_))

theorem State.repeatFog_reach (s : State) (body : List Byte) (link : Option Nat) (segment : Bool) : Reach 0x80800000 s (State.repeatFog s body link segment) := by
  have h0 := Reach.refl 0x80800000 s
  unfold State.repeatFog
  repeat' (first
    | with_reducible assumption
    | exact rfl
    | simp -zeta -iota -proj only [Reach1.pair_iff]
    | with_reducible exact Reach1.fst (by assumption)
    | with_reducible (first
        | refine Reach.ite ?_ ?_
        | refine Reach1.ite ?_ ?_
        | refine Reach.foldl _ ?_ (fun _ _ _ => ?_)
        | refine Reach1.foldl _ ?_ (fun _ _ _ => ?_)
        | refine Reach1.fst (Reach1.foldl _ ?_ (fun _ _ _ => ?_))
        | apply Reach.then ?_ (State.sendControl_reach ..) ?_
        | apply Reach.then ?_ (State.sendNew_reach ..) ?_)
    | (extract_lets +onlyGivenNames -underBinder -merge -useContext x; first | (refine Reach.cut x ?_ (fun _ => ?_); rotate_left; clear_value x; rotate_left; unfold x; clear x) | (refine Reach.cutP x ?_ (fun _ => ?_); rotate_left; clear_value x; rotate_left; unfold x; clear x) | (have _ := fun a => x a; unfold x; clear x) | clear_value x)
    | (split <;> try (refine Reach.cut1 (by assumption) ?_ (fun _ => ?_)))
    | split)

theorem State.takeFog_reach (s : State) (body : List Byte) (link : Option Nat) (segment : Bool) : Reach 0x4000300000074330000b04020000010303a411fa3b8c0120c0080000000000008fd8fcfd s (State.takeFog s body link segment) := by
  have h0 := Reach.refl 0x4000300000074330000b04020000010303a411fa3b8c0120c0080000000000008fd8fcfd s
  unfold State.takeFog
  repeat' (first
    | with_reducible assumption
    | exact rfl
    | simp -zeta -iota -proj only [Reach1.pair_iff]
    | with_reducible exact Reach1.fst (by assumption)
    | with_reducible (first
        | refine Reach.ite ?_ ?_
        | refine Reach1.ite ?_ ?_
        | refine Reach.foldl _ ?_ (fun _ _ _ => ?_)
        | refine Reach1.foldl _ ?_ (fun _ _ _ => ?_)
        | refine Reach1.fst (Reach1.foldl _ ?_ (fun _ _ _ => ?_))
        | apply Reach.then ?_ (State.abortOwnerRecs_reach ..) ?_
        | apply Reach.then ?_ (State.dbump_reach ..) ?_
        | apply Reach.then ?_ (State.dputBytes_reach ..) ?_
        | apply Reach.then ?_ (State.raiseIrq_reach ..) ?_
        | apply Reach.then ?_ (State.repeatFog_reach ..) ?_
        | apply Reach.then ?_ (State.settleTable_reach ..) ?_)
    | (extract_lets +onlyGivenNames -underBinder -merge -useContext x; first | (refine Reach.cut x ?_ (fun _ => ?_); rotate_left; clear_value x; rotate_left; unfold x; clear x) | (refine Reach.cutP x ?_ (fun _ => ?_); rotate_left; clear_value x; rotate_left; unfold x; clear x) | (have _ := fun a => x a; unfold x; clear x) | clear_value x)
    | (split <;> try (refine Reach.cut1 (by assumption) ?_ (fun _ => ?_)))
    | split
    | dsimp -zeta only []
    | with_reducible (first
        | refine Reach.set_mooring ?_ ?_))

theorem State.originate_reach (s : State) (kind : Nat) (cause : Nat) (mask : Nat) : Reach 0x4000300000074330000b04020000010303a411fa3b8c0120c0080000000000008fd8fcfd s (State.originate s kind cause mask) := by
  have h0 := Reach.refl 0x4000300000074330000b04020000010303a411fa3b8c0120c0080000000000008fd8fcfd s
  unfold State.originate
  repeat' (first
    | with_reducible assumption
    | exact rfl
    | with_reducible (first
        | refine Reach.ite ?_ ?_
        | apply Reach.then ?_ (State.dbump_reach ..) ?_
        | apply Reach.then ?_ (State.takeFog_reach ..) ?_)
    | (extract_lets +onlyGivenNames -underBinder -merge -useContext x; first | (refine Reach.cut x ?_ (fun _ => ?_); rotate_left; clear_value x; rotate_left; unfold x; clear x) | (have _ := fun a => x a; unfold x; clear x) | clear_value x)
    | (split <;> try (refine Reach.cut1 (by assumption) ?_ (fun _ => ?_)))
    | split
    | with_reducible (first
        | refine Reach.set_mooring ?_ ?_))

theorem State.fogTick_reach (s : State) : Reach 0x4000300000074330000b04020000010303a411fa3b8c0120c0080000000000008fd8fcfd s (State.fogTick s) := by
  have h0 := Reach.refl 0x4000300000074330000b04020000010303a411fa3b8c0120c0080000000000008fd8fcfd s
  unfold State.fogTick
  repeat' (first
    | with_reducible assumption
    | exact rfl
    | with_reducible (first
        | refine Reach.ite ?_ ?_
        | apply Reach.then ?_ (State.originate_reach ..) ?_)
    | (split <;> try (refine Reach.cut1 (by assumption) ?_ (fun _ => ?_)))
    | split
    | with_reducible (first
        | refine Reach.set_mooring ?_ ?_))

theorem State.showLms_reach (s : State) (next : Nat) (reserved : Nat) : Reach 0x6000000000000000000000000000000000000000000000000000000000000000000004000 s (State.showLms s next reserved) := by
  have h0 := Reach.refl 0x6000000000000000000000000000000000000000000000000000000000000000000004000 s
  unfold State.showLms
  repeat' (first
    | with_reducible assumption
    | exact rfl
    | with_reducible (first
        | refine Reach.setFld ?_ ?_
        | apply Reach.then ?_ (State.dput_reach ..) ?_)
    | (extract_lets +onlyGivenNames -underBinder -merge -useContext x; first | (refine Reach.cut x ?_ (fun _ => ?_); rotate_left; clear_value x; rotate_left; unfold x; clear x) | (have _ := fun a => x a; unfold x; clear x) | clear_value x))

theorem State.warnLms_reach (s : State) : Reach 0x4000300000074330000b04020000010303a411fa3b8c0120c0080000000000028fd8fcfd s (State.warnLms s) := by
  have h0 := Reach.refl 0x4000300000074330000b04020000010303a411fa3b8c0120c0080000000000028fd8fcfd s
  unfold State.warnLms
  repeat' (first
    | with_reducible assumption
    | exact rfl
    | with_reducible (first
        | refine Reach.ite ?_ ?_
        | apply Reach.then ?_ (State.originate_reach ..) ?_)
    | (split <;> try (refine Reach.cut1 (by assumption) ?_ (fun _ => ?_)))
    | split
    | with_reducible (first
        | refine Reach.set_security ?_ ?_))

theorem State.bootLms_reach (s : State) : Reach 0x6000000000000000000000000000000000000000000000000000000000000000000014000 s (State.bootLms s) := by
  have h0 := Reach.refl 0x6000000000000000000000000000000000000000000000000000000000000000000014000 s
  unfold State.bootLms
  repeat' (first
    | with_reducible assumption
    | exact rfl
    | with_reducible (first
        | refine Reach.ite ?_ ?_
        | apply Reach.then ?_ (State.blowTo_reach ..) ?_
        | apply Reach.then ?_ (State.showLms_reach ..) ?_)
    | (extract_lets +onlyGivenNames -underBinder -merge -useContext x; first | (refine Reach.cut x ?_ (fun _ => ?_); rotate_left; clear_value x; rotate_left; unfold x; clear x) | (have _ := fun a => x a; unfold x; clear x) | clear_value x)
    | (split <;> try (refine Reach.cut1 (by assumption) ?_ (fun _ => ?_)))
    | split)

theorem State.takeIndex_reach (s : State) : Reach1 0x64000300000074330000b04020000010303a411fa3b8c0120c0080000000000038fd9fcfd s (State.takeIndex s) := by
  have h0 := Reach.refl 0x64000300000074330000b04020000010303a411fa3b8c0120c0080000000000038fd9fcfd s
  unfold State.takeIndex
  repeat' (first
    | with_reducible assumption
    | exact rfl
    | simp -zeta -iota -proj only [Reach1.pair_iff]
    | with_reducible exact Reach1.fst (by assumption)
    | with_reducible (first
        | refine Reach.ite ?_ ?_
        | refine Reach1.ite ?_ ?_
        | apply Reach.then ?_ (State.blowTo_reach ..) ?_
        | apply Reach.then ?_ (State.showLms_reach ..) ?_
        | apply Reach.then ?_ (State.warnLms_reach ..) ?_)
    | (extract_lets +onlyGivenNames -underBinder -merge -useContext x; first | (refine Reach.cut x ?_ (fun _ => ?_); rotate_left; clear_value x; rotate_left; unfold x; clear x) | (refine Reach1.cut x ?_ (fun _ => ?_); rotate_left; clear_value x; rotate_left; unfold x; clear x) | (have _ := fun a => x a; unfold x; clear x) | clear_value x)
    | (split <;> try (first | refine Reach1.cut1 (by assumption) ?_ (fun _ => ?_) | refine Reach.cut1 (by assumption) ?_ (fun _ => ?_)))
    | split
    | with_reducible (first
        | refine Reach.set_flash ?_ ?_))

end Sys2Proof.Machine
end

