-- ==== Sys2Proof/Laws/ReachResetOps.lean ====
section
/-!
SUPPORT. The footprint of each function of Machine/ResetOps.lean.
-/
set_option linter.unusedTactic false
set_option linter.unreachableTactic false
namespace Sys2Proof.Machine

theorem State.setStage_reach (s : State) (n : Nat) : Reach 0x100000000000000000000000000000000000000000000000000000000000002004000 s (State.setStage s n) := by
  have h0 := Reach.refl 0x100000000000000000000000000000000000000000000000000000000000002004000 s
  unfold State.setStage
  repeat' (first
    | with_reducible assumption
    | exact rfl
    | with_reducible (first
        | refine Reach.setFld ?_ ?_
        | refine Reach.ite ?_ ?_
        | apply Reach.then ?_ (State.dput_reach ..) ?_
        | apply Reach.then ?_ (State.raiseIrq_reach ..) ?_)
    | (split <;> try (refine Reach.cut1 (by assumption) ?_ (fun _ => ?_)))
    | split)

theorem State.failStage_reach (s : State) (n : Nat) : Reach 0x100000000000000000000000000000000000000000000000000000000000002004000 s (State.failStage s n) := by
  have h0 := Reach.refl 0x100000000000000000000000000000000000000000000000000000000000002004000 s
  unfold State.failStage
  repeat' (first
    | with_reducible assumption
    | exact rfl
    | with_reducible (first
        | refine Reach.setFld ?_ ?_
        | apply Reach.then ?_ (State.setStage_reach ..) ?_))

theorem State.keepRepairs_reach (old s : State) : Reach 0x2000000000000000000000000004400 s (State.keepRepairs old s) := by
  unfold State.keepRepairs
  refine Reach.set_sram ?_ rfl
  refine Reach.then (Reach.then (Reach.then ?_ (State.dput_reach ..) rfl) (State.dput_reach ..) rfl) (State.dput_reach ..) rfl
  exact Reach.foldl _ (Reach.refl _ _) (fun _ _ h => Reach.wr h rfl)

theorem State.showBanks_reach (s : State) : Reach 0x2000000000000000000000000004000 s (State.showBanks s) := by
  have h0 := Reach.refl 0x2000000000000000000000000004000 s
  unfold State.showBanks
  repeat' (first
    | with_reducible assumption
    | exact rfl
    | simp -zeta -iota -proj only [Reach1.pair_iff]
    | with_reducible exact Reach1.fst (by assumption)
    | with_reducible (first
        | refine Reach.foldl _ ?_ (fun _ _ _ => ?_)
        | refine Reach1.foldl _ ?_ (fun _ _ _ => ?_)
        | refine Reach1.fst (Reach1.foldl _ ?_ (fun _ _ _ => ?_))
        | apply Reach.then ?_ (State.showBank_reach ..) ?_
        | apply Reach.then ?_ (State.showSpares_reach ..) ?_)
    | (split <;> try (refine Reach.cut1 (by assumption) ?_ (fun _ => ?_)))
    | split)

theorem State.fuseRepairs_reach (s : State) : Reach 0x2000000000000000000000000004400 s (State.fuseRepairs s) := by
  have h0 := Reach.refl 0x2000000000000000000000000004400 s
  unfold State.fuseRepairs
  repeat' (first
    | with_reducible assumption
    | exact rfl
    | with_reducible (first
        | apply Reach.then ?_ (State.showBanks_reach ..) ?_)
    | with_reducible (first
        | refine Reach.set_sram ?_ ?_))

theorem State.applyRepair_reach (s : State) (w : Word) : Reach 0x8000000082000000000000000000000000004400 s (State.applyRepair s w) := by
  have h0 := Reach.refl 0x8000000082000000000000000000000000004400 s
  unfold State.applyRepair
  repeat' (first
    | with_reducible assumption
    | exact rfl
    | with_reducible (first
        | refine Reach.bump ?_ ?_
        | refine Reach.ite ?_ ?_
        | apply Reach.then ?_ (State.dropFrame_reach ..) ?_
        | apply Reach.then ?_ (State.mapRow_reach ..) ?_)
    | (extract_lets +onlyGivenNames -underBinder -merge -useContext x; first | (refine Reach.cut x ?_ (fun _ => ?_); rotate_left; clear_value x; rotate_left; unfold x; clear x) | (have _ := fun a => x a; unfold x; clear x) | clear_value x)
    | (split <;> try (refine Reach.cut1 (by assumption) ?_ (fun _ => ?_)))
    | split)

theorem State.logRepairs_reach (s : State) (noise : List Word) : Reach 0x8000000082000000000000000000000000004400 s (State.logRepairs s noise) := by
  have h0 := Reach.refl 0x8000000082000000000000000000000000004400 s
  unfold State.logRepairs
  repeat' (first
    | with_reducible assumption
    | exact rfl
    | simp -zeta -iota -proj only [Reach1.pair_iff]
    | with_reducible exact Reach1.fst (by assumption)
    | with_reducible (first
        | refine Reach.setFld ?_ ?_
        | refine Reach.foldl _ ?_ (fun _ _ _ => ?_)
        | refine Reach1.foldl _ ?_ (fun _ _ _ => ?_)
        | refine Reach1.fst (Reach1.foldl _ ?_ (fun _ _ _ => ?_))
        | apply Reach.then ?_ (State.applyRepair_reach ..) ?_
        | apply Reach.then ?_ (State.dput_reach ..) ?_
        | apply Reach.then ?_ (State.fuseRepairs_reach ..) ?_
        | apply Reach.then ?_ (State.showBanks_reach ..) ?_)
    | (extract_lets +onlyGivenNames -underBinder -merge -useContext x; first | (refine Reach.cut x ?_ (fun _ => ?_); rotate_left; clear_value x; rotate_left; unfold x; clear x) | (refine Reach.cutP x ?_ (fun _ => ?_); rotate_left; clear_value x; rotate_left; unfold x; clear x) | (have _ := fun a => x a; unfold x; clear x) | clear_value x)
    | (split <;> try (refine Reach.cut1 (by assumption) ?_ (fun _ => ?_)))
    | split
    | with_reducible (first
        | refine Reach.set_sram ?_ ?_))

theorem State.dropGallery_reach (s : State) : Reach 0x1000000000000000000000000000000000008581d s (State.dropGallery s) := by
  have h0 := Reach.refl 0x1000000000000000000000000000000000008581d s
  unfold State.dropGallery
  repeat' (first
    | with_reducible assumption
    | exact rfl
    | simp -zeta -iota -proj only [Reach1.pair_iff]
    | with_reducible exact Reach1.fst (by assumption)
    | with_reducible (first
        | refine Reach.foldl _ ?_ (fun _ _ _ => ?_)
        | refine Reach1.foldl _ ?_ (fun _ _ _ => ?_)
        | refine Reach1.fst (Reach1.foldl _ ?_ (fun _ _ _ => ?_))
        | apply Reach.then ?_ (State.showUse_reach ..) ?_
        | apply Reach.then ?_ (State.switchPage_reach ..) ?_
        | apply Reach.then ?_ (State.unmapPage_reach ..) ?_)
    | (extract_lets +onlyGivenNames -underBinder -merge -useContext x; first | (refine Reach.cut x ?_ (fun _ => ?_); rotate_left; clear_value x; rotate_left; unfold x; clear x) | (refine Reach.cutP x ?_ (fun _ => ?_); rotate_left; clear_value x; rotate_left; unfold x; clear x) | (have _ := fun a => x a; unfold x; clear x) | clear_value x)
    | (split <;> try (refine Reach.cut1 (by assumption) ?_ (fun _ => ?_)))
    | split
    | with_reducible (first
        | refine Reach.set_pool ?_ ?_))

theorem State.clearAll_reach (s : State) : Reach 0xfffffffffffffffffffffffffffffffffffffffffffffffffffffffff0000000efff8ffff s (State.clearAll s) := by
  refine ⟨rfl, fun _ h => h, fun h => canonical_filter _ _ h, fun _ => rfl, fun _ => rfl, fun c hc => ?_⟩
  cases c with
  | reg r => exact absurd hc (by rw [Cell.code, testBit_mono (allRegs_bit r) rfl]; decide)
  | _ => first | rfl | exact absurd hc (by decide)

theorem State.setCause_reach (s : State) (bits : Nat) (level : Nat) : Reach 0x100000000000000000000000000000000000000000000000000000000004000 s (State.setCause s bits level) := by
  have h0 := Reach.refl 0x100000000000000000000000000000000000000000000000000000000004000 s
  unfold State.setCause
  repeat' (first
    | with_reducible assumption
    | exact rfl
    | with_reducible (first
        | refine Reach.wr ?_ ?_
        | apply Reach.then ?_ (State.dput_reach ..) ?_)
    | (extract_lets +onlyGivenNames -underBinder -merge -useContext x; first | (refine Reach.cut x ?_ (fun _ => ?_); rotate_left; clear_value x; rotate_left; unfold x; clear x) | (have _ := fun a => x a; unfold x; clear x) | clear_value x))

theorem State.linksDown_reach (s : State) : Reach 0x100000000000000000000000000000000000000004000 s (State.linksDown s) := by
  have h0 := Reach.refl 0x100000000000000000000000000000000000000004000 s
  unfold State.linksDown
  repeat' (first
    | with_reducible assumption
    | exact rfl
    | simp -zeta -iota -proj only [Reach1.pair_iff]
    | with_reducible exact Reach1.fst (by assumption)
    | with_reducible (first
        | refine Reach.foldl _ ?_ (fun _ _ _ => ?_)
        | refine Reach1.foldl _ ?_ (fun _ _ _ => ?_)
        | refine Reach1.fst (Reach1.foldl _ ?_ (fun _ _ _ => ?_))
        | apply Reach.then ?_ (State.setLinkState_reach ..) ?_))

theorem State.fullReset_reach (s : State) (level : Nat) : Reach 0xfffffffffffffffffffffffffffffffffffffffffffffffffffffffff0000000efff8ffff s (State.fullReset s level) := by
  have h0 := Reach.refl 0xfffffffffffffffffffffffffffffffffffffffffffffffffffffffff0000000efff8ffff s
  unfold State.fullReset
  repeat' (first
    | with_reducible assumption
    | exact rfl
    | with_reducible (first
        | refine Reach.ite ?_ ?_
        | apply Reach.then ?_ (State.clearAll_reach ..) ?_
        | apply Reach.then ?_ (State.dput_reach ..) ?_
        | apply Reach.then ?_ (State.linksDown_reach ..) ?_
        | apply Reach.then ?_ (State.showSecState_reach ..) ?_)
    | (extract_lets +onlyGivenNames -underBinder -merge -useContext x; first | (refine Reach.cut x ?_ (fun _ => ?_); rotate_left; clear_value x; rotate_left; unfold x; clear x) | (have _ := fun a => x a; unfold x; clear x) | clear_value x)
    | (split <;> try (refine Reach.cut1 (by assumption) ?_ (fun _ => ?_)))
    | split
    | with_reducible (first
        | refine Reach.set_sram ?_ ?_
        | refine Reach.set_resets ?_ ?_))

theorem State.coreReset_reach (s : State) : Reach 0xfffffffffffffffffffffffffffffffffffffffffffffffffffffffff0000000efff8ffff s (State.coreReset s) := by
  unfold State.coreReset
  extract_lets t r
  have h : Reach 0xfffffffffffffffffffffffffffffffffffffffffffffffffffffffff0000000efff8ffff s t :=
    Reach.then (Reach.then (Reach.refl _ _) (State.clearAll_reach s) rfl) (State.keepRepairs_reach s s.clearAll) rfl
  clear_value t r
  refine ⟨h.pending, h.blown, fun h => canonical_filter _ _ h, h.lens, fun h => h, fun c hc => ?_⟩
  cases c with
  | reg r => exact absurd hc (by rw [Cell.code, testBit_mono (allRegs_bit r) rfl]; decide)
  | _ => first | exact absurd hc (by decide) | exact h.same _ hc

theorem State.doReset_reach (s : State) (level : Nat) (bits : Nat) : Reach 0xfffffffffffffffffffffffffffffffffffffffffffffffffffffffff0000000efff8ffff s (State.doReset s level bits) := by
  have h0 := Reach.refl 0xfffffffffffffffffffffffffffffffffffffffffffffffffffffffff0000000efff8ffff s
  unfold State.doReset
  repeat' (first
    | with_reducible assumption
    | exact rfl
    | with_reducible (first
        | refine Reach.ite ?_ ?_
        | apply Reach.then ?_ (State.coreReset_reach ..) ?_
        | apply Reach.then ?_ (State.fullReset_reach ..) ?_
        | refine State.setBoth_reach ?_ ?_ ?_
        | apply Reach.then ?_ (State.setCause_reach ..) ?_
        | apply Reach.then ?_ (State.setStage_reach ..) ?_)
    | (extract_lets +onlyGivenNames -underBinder -merge -useContext x; first | (refine Reach.cut x ?_ (fun _ => ?_); rotate_left; clear_value x; rotate_left; unfold x; clear x) | (have _ := fun a => x a; unfold x; clear x) | clear_value x)
    | (split <;> try (refine Reach.cut1 (by assumption) ?_ (fun _ => ?_)))
    | split)

theorem State.resetSource_reach (s : State) (level : Nat) (bits : Nat) : Reach 0xfffffffffffffffffffffffffffffffffffffffffffffffffffffffff0000000efff8ffff s (State.resetSource s level bits) := by
  have h0 := Reach.refl 0xfffffffffffffffffffffffffffffffffffffffffffffffffffffffff0000000efff8ffff s
  unfold State.resetSource
  repeat' (first
    | with_reducible assumption
    | exact rfl
    | with_reducible (first
        | refine Reach.ite ?_ ?_
        | apply Reach.then ?_ (State.doReset_reach ..) ?_
        | apply Reach.then ?_ (State.setCause_reach ..) ?_)
    | (split <;> try (refine Reach.cut1 (by assumption) ?_ (fun _ => ?_)))
    | split)

theorem State.runImage_reach (s : State) (rd : Nat → Byte) (slot : Bool) : Reach 0x2000100000000000000000000000000000000000000000000000000000000000600004000 s (State.runImage s rd slot) := by
  have h0 := Reach.refl 0x2000100000000000000000000000000000000000000000000000000000000000600004000 s
  unfold State.runImage
  repeat' (first
    | with_reducible assumption
    | exact rfl
    | with_reducible (first
        | refine Reach.setFld ?_ ?_
        | apply Reach.then ?_ (State.dput_reach ..) ?_)
    | (extract_lets +onlyGivenNames -underBinder -merge -useContext x; first | (refine Reach.cut x ?_ (fun _ => ?_); rotate_left; clear_value x; rotate_left; unfold x; clear x) | (have _ := fun a => x a; unfold x; clear x) | clear_value x)
    | exact fun h => h
    | with_reducible (first
        | refine Reach.set_security ?_ ?_
        | refine Reach.set_keeper ?_ ?_
        | refine Reach.set_sram ?_ ?_
        | refine Reach.litMk ?_ rfl (fun _ h => h) ?_ ?_ ?_ ?_)
    | (intro (c : Cell) (hc : _); cases c <;> first | rfl | exact absurd hc (by decide) | exact fun _ _ => rfl))

theorem State.bootSlots_reach (s : State) (y0 : List Bool) : Reach1 0xa000100000000000000000000000000000000000000000000000000000000000600004000 s (State.bootSlots s y0) := by
  induction y0 generalizing s with
  | nil =>
    have h0 := Reach.refl 0xa000100000000000000000000000000000000000000000000000000000000000600004000 s
    unfold State.bootSlots
    repeat' (first
    | with_reducible assumption
    | exact rfl
    | simp -zeta -iota -proj only [Reach1.pair_iff]
    | with_reducible exact Reach1.fst (by assumption)
    | with_reducible (first
        | refine Reach.ite ?_ ?_
        | refine Reach1.ite ?_ ?_
        | apply Reach.then ?_ (State.logVerify_reach ..) ?_
        | apply Reach.then ?_ (State.runImage_reach ..) ?_
        | apply Reach1.then ?_ (ih ..) ?_)
    | (extract_lets +onlyGivenNames -underBinder -merge -useContext x; first | (refine Reach.cut x ?_ (fun _ => ?_); rotate_left; clear_value x; rotate_left; unfold x; clear x) | (refine Reach1.cut x ?_ (fun _ => ?_); rotate_left; clear_value x; rotate_left; unfold x; clear x) | (refine Reach.cutP x ?_ (fun _ => ?_); rotate_left; clear_value x; rotate_left; unfold x; clear x) | (refine Reach1.cutP x ?_ (fun _ => ?_); rotate_left; clear_value x; rotate_left; unfold x; clear x) | (have _ := fun a => x a; unfold x; clear x) | clear_value x)
    | (split <;> try (first | refine Reach1.cut1 (by assumption) ?_ (fun _ => ?_) | refine Reach.cut1 (by assumption) ?_ (fun _ => ?_)))
    | split)
  | cons _ _ ih =>
    have h0 := Reach.refl 0xa000100000000000000000000000000000000000000000000000000000000000600004000 s
    unfold State.bootSlots
    repeat' (first
    | with_reducible assumption
    | exact rfl
    | simp -zeta -iota -proj only [Reach1.pair_iff]
    | with_reducible exact Reach1.fst (by assumption)
    | with_reducible (first
        | refine Reach.ite ?_ ?_
        | refine Reach1.ite ?_ ?_
        | apply Reach.then ?_ (State.logVerify_reach ..) ?_
        | apply Reach.then ?_ (State.runImage_reach ..) ?_
        | apply Reach1.then ?_ (ih ..) ?_)
    | (extract_lets +onlyGivenNames -underBinder -merge -useContext x; first | (refine Reach.cut x ?_ (fun _ => ?_); rotate_left; clear_value x; rotate_left; unfold x; clear x) | (refine Reach1.cut x ?_ (fun _ => ?_); rotate_left; clear_value x; rotate_left; unfold x; clear x) | (refine Reach.cutP x ?_ (fun _ => ?_); rotate_left; clear_value x; rotate_left; unfold x; clear x) | (refine Reach1.cutP x ?_ (fun _ => ?_); rotate_left; clear_value x; rotate_left; unfold x; clear x) | (have _ := fun a => x a; unfold x; clear x) | clear_value x)
    | (split <;> try (first | refine Reach1.cut1 (by assumption) ?_ (fun _ => ?_) | refine Reach.cut1 (by assumption) ?_ (fun _ => ?_)))
    | split)

theorem State.loadDict_reach (s : State) : Reach 0x4000 s (State.loadDict s) := by
  have h0 := Reach.refl 0x4000 s
  unfold State.loadDict
  repeat' (first
    | with_reducible assumption
    | exact rfl
    | simp -zeta -iota -proj only [Reach1.pair_iff]
    | with_reducible exact Reach1.fst (by assumption)
    | with_reducible (first
        | refine Reach.foldl _ ?_ (fun _ _ _ => ?_)
        | refine Reach1.foldl _ ?_ (fun _ _ _ => ?_)
        | refine Reach1.fst (Reach1.foldl _ ?_ (fun _ _ _ => ?_))
        | apply Reach.then ?_ (State.dput_reach ..) ?_)
    | (split <;> try (refine Reach.cut1 (by assumption) ?_ (fun _ => ?_)))
    | split)

theorem State.storeDict_reach (s : State) : Reach 0x100000000 s (State.storeDict s) := by
  have h0 := Reach.refl 0x100000000 s
  unfold State.storeDict
  repeat' (first
    | with_reducible assumption
    | exact rfl
    | with_reducible (first
        | refine Reach.ite ?_ ?_)
    | (extract_lets +onlyGivenNames -underBinder -merge -useContext x; first | (refine Reach.cut x ?_ (fun _ => ?_); rotate_left; clear_value x; rotate_left; unfold x; clear x) | (have _ := fun a => x a; unfold x; clear x) | clear_value x)
    | (split <;> try (refine Reach.cut1 (by assumption) ?_ (fun _ => ?_)))
    | split
    | with_reducible (first
        | refine Reach.set_flash ?_ ?_))

theorem State.mapShelf_reach (s : State) (units : Nat) : Reach 0x400004000 s (State.mapShelf s units) := by
  have h0 := Reach.refl 0x400004000 s
  unfold State.mapShelf
  repeat' (first
    | with_reducible assumption
    | exact rfl
    | with_reducible (first
        | apply Reach.then ?_ (State.dput_reach ..) ?_)
    | (extract_lets +onlyGivenNames -underBinder -merge -useContext x; first | (refine Reach.cut x ?_ (fun _ => ?_); rotate_left; clear_value x; rotate_left; unfold x; clear x) | (have _ := fun a => x a; unfold x; clear x) | clear_value x)
    | with_reducible (first
        | refine Reach.set_keeper ?_ ?_))

theorem State.discoverShelf_reach (s : State) (ds : List ShelfDevice) : Reach 0x400004000 s (State.discoverShelf s ds) := by
  have h0 := Reach.refl 0x400004000 s
  unfold State.discoverShelf
  repeat' (first
    | with_reducible assumption
    | exact rfl
    | simp -zeta -iota -proj only [Reach1.pair_iff]
    | with_reducible exact Reach1.fst (by assumption)
    | with_reducible (first
        | refine Reach.foldl _ ?_ (fun _ _ _ => ?_)
        | refine Reach1.foldl _ ?_ (fun _ _ _ => ?_)
        | refine Reach1.fst (Reach1.foldl _ ?_ (fun _ _ _ => ?_))
        | apply Reach.then ?_ (State.dput_reach ..) ?_
        | apply Reach.then ?_ (State.mapShelf_reach ..) ?_)
    | (extract_lets +onlyGivenNames -underBinder -merge -useContext x; first | (refine Reach.cut x ?_ (fun _ => ?_); rotate_left; clear_value x; rotate_left; unfold x; clear x) | (refine Reach.cutP x ?_ (fun _ => ?_); rotate_left; clear_value x; rotate_left; unfold x; clear x) | (have _ := fun a => x a; unfold x; clear x) | clear_value x))

end Sys2Proof.Machine
end

