-- ==== Sys2Proof/Laws/ReachResets.lean ====
section
/-!
SUPPORT. The footprint of each function of Machine/Resets.lean.
-/
set_option linter.unusedTactic false
set_option linter.unreachableTactic false
namespace Sys2Proof.Machine

theorem porNEffect_reach (low : Bool) (s : State) : Reach 0xfffffffffffffffffffffffffffffffffffffffffffffffffffffffff0000000efff8ffff s (porNEffect low s) := by
  have h0 := Reach.refl 0xfffffffffffffffffffffffffffffffffffffffffffffffffffffffff0000000efff8ffff s
  unfold porNEffect
  repeat' (first
    | with_reducible assumption
    | exact rfl
    | with_reducible (first
        | refine Reach.ite ?_ ?_
        | apply Reach.then ?_ (State.resetSource_reach ..) ?_)
    | (extract_lets +onlyGivenNames -underBinder -merge -useContext x; first | (refine Reach.cut x ?_ (fun _ => ?_); rotate_left; clear_value x; rotate_left; unfold x; clear x) | (have _ := fun a => x a; unfold x; clear x) | clear_value x)
    | (split <;> try (refine Reach.cut1 (by assumption) ?_ (fun _ => ?_)))
    | split
    | with_reducible (first
        | refine Reach.set_resets ?_ ?_))

theorem railOutOfWindowEffect_reach (rail : Fin 13) (us : BitVec 32) (s : State) : Reach 0xfffffffffffffffffffffffffffffffffffffffffffffffffffffffff0000000efff8ffff s (railOutOfWindowEffect rail us s) := by
  have h0 := Reach.refl 0xfffffffffffffffffffffffffffffffffffffffffffffffffffffffff0000000efff8ffff s
  unfold railOutOfWindowEffect
  repeat' (first
    | with_reducible assumption
    | exact rfl
    | with_reducible (first
        | refine Reach.ite ?_ ?_
        | apply Reach.then ?_ (State.resetSource_reach ..) ?_)
    | (extract_lets +onlyGivenNames -underBinder -merge -useContext x; first | (refine Reach.cut x ?_ (fun _ => ?_); rotate_left; clear_value x; rotate_left; unfold x; clear x) | (have _ := fun a => x a; unfold x; clear x) | clear_value x)
    | (split <;> try (refine Reach.cut1 (by assumption) ?_ (fun _ => ?_)))
    | split
    | with_reducible (first
        | refine Reach.set_resets ?_ ?_))

theorem perstEffect_reach (asserted : Bool) (s : State) : Reach 0xfffffffffffffffffffffffffffffffffffffffffffffffffffffffff0000000efff8ffff s (perstEffect asserted s) := by
  have h0 := Reach.refl 0xfffffffffffffffffffffffffffffffffffffffffffffffffffffffff0000000efff8ffff s
  unfold perstEffect
  repeat' (first
    | with_reducible assumption
    | exact rfl
    | with_reducible (first
        | refine Reach.ite ?_ ?_
        | apply Reach.then ?_ (State.resetSource_reach ..) ?_)
    | (extract_lets +onlyGivenNames -underBinder -merge -useContext x; first | (refine Reach.cut x ?_ (fun _ => ?_); rotate_left; clear_value x; rotate_left; unfold x; clear x) | (have _ := fun a => x a; unfold x; clear x) | clear_value x)
    | (split <;> try (refine Reach.cut1 (by assumption) ?_ (fun _ => ?_)))
    | split
    | with_reducible (first
        | refine Reach.set_resets ?_ ?_))

theorem tempSampleEffect_reach (reading : TempReading) (s : State) : Reach 0xfffffffffffffffffffffffffffffffffffffffffffffffffffffffff0000000efff8ffff s (tempSampleEffect reading s) := by
  have h0 := Reach.refl 0xfffffffffffffffffffffffffffffffffffffffffffffffffffffffff0000000efff8ffff s
  unfold tempSampleEffect
  repeat' (first
    | with_reducible assumption
    | exact rfl
    | with_reducible (first
        | refine Reach.ite ?_ ?_
        | apply Reach.then ?_ (State.resetSource_reach ..) ?_
        | apply Reach.then ?_ (State.takeTemps_reach ..) ?_)
    | (extract_lets +onlyGivenNames -underBinder -merge -useContext x; first | (refine Reach.cut x ?_ (fun _ => ?_); rotate_left; clear_value x; rotate_left; unfold x; clear x) | (have _ := fun a => x a; unfold x; clear x) | clear_value x)
    | (split <;> try (refine Reach.cut1 (by assumption) ?_ (fun _ => ?_)))
    | split
    | with_reducible (first
        | refine Reach.set_resets ?_ ?_))

theorem thermalReleaseEffect_reach (reading : TempReading) (s : State) : Reach 0x40004000 s (thermalReleaseEffect reading s) := by
  have h0 := Reach.refl 0x40004000 s
  unfold thermalReleaseEffect
  repeat' (first
    | with_reducible assumption
    | exact rfl
    | with_reducible (first
        | refine Reach.ite ?_ ?_
        | apply Reach.then ?_ (State.dput_reach ..) ?_)
    | (split <;> try (refine Reach.cut1 (by assumption) ?_ (fun _ => ?_)))
    | split
    | with_reducible (first
        | refine Reach.set_resets ?_ ?_))

theorem watchdogExpiryEffect_reach (serviced : Bool) (s : State) : Reach 0xfffffffffffffffffffffffffffffffffffffffffffffffffffffffff0000000efff8ffff s (watchdogExpiryEffect serviced s) := by
  have h0 := Reach.refl 0xfffffffffffffffffffffffffffffffffffffffffffffffffffffffff0000000efff8ffff s
  unfold watchdogExpiryEffect
  repeat' (first
    | with_reducible assumption
    | exact rfl
    | with_reducible (first
        | refine Reach.ite ?_ ?_
        | apply Reach.then ?_ (State.resetSource_reach ..) ?_)
    | (split <;> try (refine Reach.cut1 (by assumption) ?_ (fun _ => ?_)))
    | split
    | with_reducible (first
        | refine Reach.set_resets ?_ ?_))

theorem resetRequestDelayExpiryEffect_reach (s : State) : Reach 0xfffffffffffffffffffffffffffffffffffffffffffffffffffffffff0000001ffff9ffff s (resetRequestDelayExpiryEffect s) := by
  have h0 := Reach.refl 0xfffffffffffffffffffffffffffffffffffffffffffffffffffffffff0000001ffff9ffff s
  unfold resetRequestDelayExpiryEffect
  repeat' (first
    | with_reducible assumption
    | exact rfl
    | with_reducible (first
        | apply Reach.then ?_ (State.request_reach ..) ?_
        | apply Reach.then ?_ (State.resetSource_reach ..) ?_)
    | (split <;> try (refine Reach.cut1 (by assumption) ?_ (fun _ => ?_)))
    | split
    | with_reducible (first
        | refine Reach.set_resets ?_ ?_))

theorem State.logCritical_reach (s : State) (die : Nat) (unit : Nat) (index : Nat) (double : Bool) : Reach 0x4000000000000000000000000000000000000000000000000000000000000000 s (State.logCritical s die unit index double) := by
  have h0 := Reach.refl 0x4000000000000000000000000000000000000000000000000000000000000000 s
  unfold State.logCritical
  repeat' (first
    | with_reducible assumption
    | exact rfl
    | with_reducible (first
        | refine Reach.wr ?_ ?_
        | refine Reach.setFld ?_ ?_
        | refine Reach.ite ?_ ?_)
    | (split <;> try (refine Reach.cut1 (by assumption) ?_ (fun _ => ?_)))
    | split)

theorem criticalStateErrorEffect_reach (die : Fin 2) (unit : BitVec 3) (index : BitVec 16) (double : Bool) (since : BitVec 32) (copyBad : Bool) (s : State) : Reach 0xfffffffffffffffffffffffffffffffffffffffffffffffffffffffff0000000efff8ffff s (criticalStateErrorEffect die unit index double since copyBad s) := by
  have h0 := Reach.refl 0xfffffffffffffffffffffffffffffffffffffffffffffffffffffffff0000000efff8ffff s
  unfold criticalStateErrorEffect
  repeat' (first
    | with_reducible assumption
    | exact rfl
    | with_reducible (first
        | refine Reach.bump ?_ ?_
        | apply Reach.then ?_ (State.logCritical_reach ..) ?_
        | apply Reach.then ?_ (State.resetSource_reach ..) ?_)
    | (extract_lets +onlyGivenNames -underBinder -merge -useContext x; first | (refine Reach.cut x ?_ (fun _ => ?_); rotate_left; clear_value x; rotate_left; unfold x; clear x) | (have _ := fun a => x a; unfold x; clear x) | clear_value x)
    | with_reducible (first
        | refine Reach.set_resets ?_ ?_))

theorem functionLevelResetEffect_reach (s : State) : Reach 0xfffffffffffffffffffffffffffffffffffffffffffffffffffffffff0000000002000000 s (functionLevelResetEffect s) := by
  have h0 := Reach.refl 0xfffffffffffffffffffffffffffffffffffffffffffffffffffffffff0000000002000000 s
  unfold functionLevelResetEffect
  repeat' (first
    | with_reducible assumption
    | exact rfl
    | (extract_lets +onlyGivenNames -underBinder -merge -useContext x; first | (refine Reach.cut x ?_ (fun _ => ?_); rotate_left; clear_value x; rotate_left; unfold x; clear x) | (have _ := fun a => x a; unfold x; clear x) | clear_value x)
    | exact fun h => h
    | (intro (c : Cell) (hc : _); cases c with
      | reg r => exact absurd hc (by rw [Cell.code, testBit_mono (allRegs_bit r) rfl]; decide)
      | _ => first | exact absurd hc (by decide) | rfl)
    | with_reducible (first
        | refine Reach.set_host ?_ ?_
        | refine Reach.litMk ?_ rfl (fun _ h => h) ?_ ?_ ?_ ?_)
    | (intro (c : Cell) (hc : _); cases c <;> first | rfl | exact absurd hc (by decide) | exact fun _ _ => rfl))

theorem State.idleRequest_reach (s : State) (region : Bool) (n : Nat) : Reach 0x400000000000000000000000004000000800000000000000000001040000800 s (State.idleRequest s region n) := by
  have h0 := Reach.refl 0x400000000000000000000000004000000800000000000000000001040000800 s
  unfold State.idleRequest
  repeat' (first
    | with_reducible assumption
    | exact rfl
    | simp -zeta -iota -proj only [Reach1.pair_iff]
    | with_reducible exact Reach1.fst (by assumption)
    | with_reducible (first
        | refine Reach.setFld ?_ ?_
        | refine Reach.foldl _ ?_ (fun _ _ _ => ?_)
        | refine Reach1.foldl _ ?_ (fun _ _ _ => ?_)
        | refine Reach1.fst (Reach1.foldl _ ?_ (fun _ _ _ => ?_))
        | apply Reach.then ?_ (State.endAct_reach ..) ?_)
    | (extract_lets +onlyGivenNames -underBinder -merge -useContext x; first | (refine Reach.cut x ?_ (fun _ => ?_); rotate_left; clear_value x; rotate_left; unfold x; clear x) | (refine Reach.cutP x ?_ (fun _ => ?_); rotate_left; clear_value x; rotate_left; unfold x; clear x) | (have _ := fun a => x a; unfold x; clear x) | clear_value x)
    | (split <;> try (refine Reach.cut1 (by assumption) ?_ (fun _ => ?_)))
    | split
    | with_reducible (first
        | refine Reach.set_resets ?_ ?_
        | refine Reach.set_free ?_ ?_))

theorem State.requestBlock_reach (s : State) (region : Bool) (n : Nat) : Reach 0x2400000000000000000000000004000000800000000000000000001040000800 s (State.requestBlock s region n) := by
  have h0 := Reach.refl 0x2400000000000000000000000004000000800000000000000000001040000800 s
  unfold State.requestBlock
  repeat' (first
    | with_reducible assumption
    | exact rfl
    | with_reducible (first
        | refine Reach.bump ?_ ?_
        | refine Reach.ite ?_ ?_
        | apply Reach.then ?_ (State.idleRequest_reach ..) ?_)
    | (extract_lets +onlyGivenNames -underBinder -merge -useContext x; first | (refine Reach.cut x ?_ (fun _ => ?_); rotate_left; clear_value x; rotate_left; unfold x; clear x) | (have _ := fun a => x a; unfold x; clear x) | clear_value x)
    | (split <;> try (refine Reach.cut1 (by assumption) ?_ (fun _ => ?_)))
    | split
    | with_reducible (first
        | refine Reach.set_resets ?_ ?_))

theorem State.blockCmd_reach (s : State) (die : Nat) (value : Word) : Reach 0x2600000000000000000000000004000000800000000000000000001040000800 s (State.blockCmd s die value) := by
  have h0 := Reach.refl 0x2600000000000000000000000004000000800000000000000000001040000800 s
  unfold State.blockCmd
  repeat' (first
    | with_reducible assumption
    | exact rfl
    | with_reducible (first
        | refine Reach.storeReg ?_ ?_
        | refine Reach.ite ?_ ?_
        | apply Reach.then ?_ (State.requestBlock_reach ..) ?_)
    | (extract_lets +onlyGivenNames -underBinder -merge -useContext x; first | (refine Reach.cut x ?_ (fun _ => ?_); rotate_left; clear_value x; rotate_left; unfold x; clear x) | (have _ := fun a => x a; unfold x; clear x) | clear_value x)
    | (split <;> try (refine Reach.cut1 (by assumption) ?_ (fun _ => ?_)))
    | split)

theorem State.clearEngine_reach (s : State) (e : Nat) : Reach 0x800040000000000400020 s (State.clearEngine s e) := by
  have h0 := Reach.refl 0x800040000000000400020 s
  unfold State.clearEngine
  repeat' (first
    | with_reducible assumption
    | exact rfl
    | simp -zeta -iota -proj only [Reach1.pair_iff]
    | with_reducible exact Reach1.fst (by assumption)
    | with_reducible (first
        | refine Reach.wr ?_ ?_
        | refine Reach.foldl _ ?_ (fun _ _ _ => ?_)
        | refine Reach1.foldl _ ?_ (fun _ _ _ => ?_)
        | refine Reach1.fst (Reach1.foldl _ ?_ (fun _ _ _ => ?_))
        | apply Reach.then ?_ (State.setEng_reach ..) ?_)
    | (extract_lets +onlyGivenNames -underBinder -merge -useContext x; first | (refine Reach.cut x ?_ (fun _ => ?_); rotate_left; clear_value x; rotate_left; unfold x; clear x) | (refine Reach.cutP x ?_ (fun _ => ?_); rotate_left; clear_value x; rotate_left; unfold x; clear x) | (have _ := fun a => x a; unfold x; clear x) | clear_value x)
    | (split <;> try (refine Reach.cut1 (by assumption) ?_ (fun _ => ?_)))
    | split
    | with_reducible (first
        | refine Reach.set_trace ?_ ?_))

theorem State.resetBlock_reach (s : State) (region : Bool) (n : Nat) : Reach 0x200000000000000000000000000000000002000c01200008000400000000005835f7 s (State.resetBlock s region n) := by
  have h0 := Reach.refl 0x200000000000000000000000000000000002000c01200008000400000000005835f7 s
  unfold State.resetBlock
  repeat' (first
    | with_reducible assumption
    | exact rfl
    | simp -zeta -iota -proj only [Reach1.pair_iff]
    | with_reducible exact Reach1.fst (by assumption)
    | with_reducible (first
        | refine Reach.wr ?_ ?_
        | refine Reach.foldl _ ?_ (fun _ _ _ => ?_)
        | refine Reach1.foldl _ ?_ (fun _ _ _ => ?_)
        | refine Reach1.fst (Reach1.foldl _ ?_ (fun _ _ _ => ?_))
        | apply Reach.then ?_ (State.abortSeq_reach ..) ?_
        | apply Reach.then ?_ (State.clearCluster_reach ..) ?_
        | apply Reach.then ?_ (State.clearEngine_reach ..) ?_
        | apply Reach.then ?_ (State.closeChain_reach ..) ?_
        | apply Reach.then ?_ (State.grantContexts_reach ..) ?_
        | apply Reach.then ?_ (State.seqAfter_reach ..) ?_)
    | (extract_lets +onlyGivenNames -underBinder -merge -useContext x; first | (refine Reach.cut x ?_ (fun _ => ?_); rotate_left; clear_value x; rotate_left; unfold x; clear x) | (refine Reach.cutP x ?_ (fun _ => ?_); rotate_left; clear_value x; rotate_left; unfold x; clear x) | (have _ := fun a => x a; unfold x; clear x) | clear_value x)
    | (split <;> try (refine Reach.cut1 (by assumption) ?_ (fun _ => ?_)))
    | split
    | with_reducible (first
        | refine Reach.set_reruns ?_ ?_
        | refine Reach.set_trace ?_ ?_))

theorem blockResetExecuteEffect_reach (block : BlockId) (us : BitVec 32) (outstanding : BitVec 24) (s : State) : Reach 0x200014000000000000000000000000000002000c01200008000400000000405835f7 s (blockResetExecuteEffect block us outstanding s) := by
  have h0 := Reach.refl 0x200014000000000000000000000000000002000c01200008000400000000405835f7 s
  unfold blockResetExecuteEffect
  repeat' (first
    | with_reducible assumption
    | exact rfl
    | with_reducible (first
        | refine Reach.bump ?_ ?_
        | refine Reach.setFld ?_ ?_
        | refine Reach.ite ?_ ?_
        | apply Reach.then ?_ (State.resetBlock_reach ..) ?_)
    | (extract_lets +onlyGivenNames -underBinder -merge -useContext x; first | (refine Reach.cut x ?_ (fun _ => ?_); rotate_left; clear_value x; rotate_left; unfold x; clear x) | (have _ := fun a => x a; unfold x; clear x) | clear_value x)
    | (split <;> try (refine Reach.cut1 (by assumption) ?_ (fun _ => ?_)))
    | split
    | dsimp -zeta only []
    | with_reducible (first
        | refine Reach.set_resets ?_ ?_))

theorem State.startWaiting_reach (s : State) : Reach 0x400000000000000000000000004000000800000000000000000001040000800 s (State.startWaiting s) := by
  have h0 := Reach.refl 0x400000000000000000000000004000000800000000000000000001040000800 s
  unfold State.startWaiting
  repeat' (first
    | with_reducible assumption
    | exact rfl
    | with_reducible (first
        | apply Reach.then ?_ (State.idleRequest_reach ..) ?_)
    | (split <;> try (refine Reach.cut1 (by assumption) ?_ (fun _ => ?_)))
    | split
    | with_reducible (first
        | refine Reach.set_resets ?_ ?_))

theorem blockResetReleaseEffect_reach (block : BlockId) (s : State) : Reach 0x20000c00000000000000000000000004000000800000000800000000001040400860 s (blockResetReleaseEffect block s) := by
  have h0 := Reach.refl 0x20000c00000000000000000000000004000000800000000800000000001040400860 s
  unfold blockResetReleaseEffect
  repeat' (first
    | with_reducible assumption
    | exact rfl
    | with_reducible (first
        | refine Reach.bump ?_ ?_
        | refine Reach.setFld ?_ ?_
        | apply Reach.then ?_ (State.grantContexts_reach ..) ?_
        | apply Reach.then ?_ (State.startWaiting_reach ..) ?_)
    | (extract_lets +onlyGivenNames -underBinder -merge -useContext x; first | (refine Reach.cut x ?_ (fun _ => ?_); rotate_left; clear_value x; rotate_left; unfold x; clear x) | (have _ := fun a => x a; unfold x; clear x) | clear_value x)
    | (split <;> try (refine Reach.cut1 (by assumption) ?_ (fun _ => ?_)))
    | split
    | with_reducible (first
        | refine Reach.set_resets ?_ ?_))

theorem State.setStep_reach (s : State) (n : Nat) : Reach 0x40000000 s (State.setStep s n) := by
  have h0 := Reach.refl 0x40000000 s
  unfold State.setStep
  repeat' (first
    | with_reducible assumption
    | exact rfl
    | with_reducible (first
        | refine Reach.set_resets ?_ ?_))

theorem State.sense_reach (s : State) (i : ReleaseInput) : Reach 0x6000100000000000000000000000000000000000002000000000000000000000000014400 s (State.sense s i) := by
  have h0 := Reach.refl 0x6000100000000000000000000000000000000000002000000000000000000000000014400 s
  unfold State.sense
  repeat' (first
    | with_reducible assumption
    | exact rfl
    | with_reducible (first
        | refine Reach.setFld ?_ ?_
        | apply Reach.then ?_ (State.bootLms_reach ..) ?_
        | apply Reach.then ?_ (State.dput_reach ..) ?_
        | apply Reach.then ?_ (State.fuseRepairs_reach ..) ?_
        | apply Reach.then ?_ (State.showSecState_reach ..) ?_)
    | (extract_lets +onlyGivenNames -underBinder -merge -useContext x; first | (refine Reach.cut x ?_ (fun _ => ?_); rotate_left; clear_value x; rotate_left; unfold x; clear x) | (have _ := fun a => x a; unfold x; clear x) | clear_value x))

theorem State.beginVerify_reach (s : State) : Reach 0x100000000000000000000000000000000000000000000000000000000000042004000 s (State.beginVerify s) := by
  have h0 := Reach.refl 0x100000000000000000000000000000000000000000000000000000000000042004000 s
  unfold State.beginVerify
  repeat' (first
    | with_reducible assumption
    | exact rfl
    | with_reducible (first
        | refine Reach.ite ?_ ?_
        | apply Reach.then ?_ (State.setStage_reach ..) ?_
        | apply Reach.then ?_ (State.setStep_reach ..) ?_)
    | (split <;> try (refine Reach.cut1 (by assumption) ?_ (fun _ => ?_)))
    | split)

theorem State.beginKeeper_reach (s : State) (i : ReleaseInput) : Reach 0x100000000000000000000000000008000000082000000000000000000000642004400 s (State.beginKeeper s i) := by
  have h0 := Reach.refl 0x100000000000000000000000000008000000082000000000000000000000642004400 s
  unfold State.beginKeeper
  repeat' (first
    | with_reducible assumption
    | exact rfl
    | with_reducible (first
        | refine Reach.ite ?_ ?_
        | apply Reach.then ?_ (State.discoverShelf_reach ..) ?_
        | apply Reach.then ?_ (State.loadDict_reach ..) ?_
        | apply Reach.then ?_ (State.logRepairs_reach ..) ?_
        | apply Reach.then ?_ (State.measure5_reach ..) ?_
        | apply Reach.then ?_ (State.setStage_reach ..) ?_
        | apply Reach.then ?_ (State.setStep_reach ..) ?_)
    | (extract_lets +onlyGivenNames -underBinder -merge -useContext x; first | (refine Reach.cut x ?_ (fun _ => ?_); rotate_left; clear_value x; rotate_left; unfold x; clear x) | (have _ := fun a => x a; unfold x; clear x) | clear_value x)
    | (split <;> try (refine Reach.cut1 (by assumption) ?_ (fun _ => ?_)))
    | split)

theorem State.verifyFlash_reach (s : State) (i : ReleaseInput) : Reach 0xa000100000000000000000000000000008000000082000000000000000000000742004400 s (State.verifyFlash s i) := by
  have h0 := Reach.refl 0xa000100000000000000000000000000008000000082000000000000000000000742004400 s
  unfold State.verifyFlash
  repeat' (first
    | with_reducible assumption
    | exact rfl
    | simp -zeta -iota -proj only [Reach1.pair_iff]
    | with_reducible exact Reach1.fst (by assumption)
    | with_reducible (first
        | refine Reach.ite ?_ ?_
        | apply Reach.then ?_ (State.beginKeeper_reach ..) ?_
        | apply Reach1.then ?_ (State.bootSlots_reach ..) ?_
        | apply Reach1.fst (Reach1.then ?_ (State.bootSlots_reach ..) ?_)
        | apply Reach.then ?_ (State.failStage_reach ..) ?_
        | apply Reach.then ?_ (State.setStage_reach ..) ?_)
    | (extract_lets +onlyGivenNames -underBinder -merge -useContext x; first | (refine Reach.cut x ?_ (fun _ => ?_); rotate_left; clear_value x; rotate_left; unfold x; clear x) | (refine Reach.cutP x ?_ (fun _ => ?_); rotate_left; clear_value x; rotate_left; unfold x; clear x) | (have _ := fun a => x a; unfold x; clear x) | clear_value x)
    | (split <;> try (refine Reach.cut1 (by assumption) ?_ (fun _ => ?_)))
    | split
    | with_reducible (first
        | refine Reach.set_flash ?_ ?_))

theorem State.trainUcie_reach (s : State) (port : Nat) (modules : Nat) (failed : Nat) : Reach 0x8000000000000000000000000000000000000000000000000000000000000 s (State.trainUcie s port modules failed) := by
  have h0 := Reach.refl 0x8000000000000000000000000000000000000000000000000000000000000 s
  unfold State.trainUcie
  repeat' (first
    | with_reducible assumption
    | exact rfl
    | with_reducible (first
        | refine Reach.setFld ?_ ?_
        | refine Reach.ite ?_ ?_)
    | (extract_lets +onlyGivenNames -underBinder -merge -useContext x; first | (refine Reach.cut x ?_ (fun _ => ?_); rotate_left; clear_value x; rotate_left; unfold x; clear x) | (have _ := fun a => x a; unfold x; clear x) | clear_value x)
    | (split <;> try (refine Reach.cut1 (by assumption) ?_ (fun _ => ?_)))
    | split)

theorem State.beginHbm_reach (s : State) (i : ReleaseInput) : Reach 0x100010008000000000000000000000000000000000000000000000000000062004000 s (State.beginHbm s i) := by
  have h0 := Reach.refl 0x100010008000000000000000000000000000000000000000000000000000062004000 s
  unfold State.beginHbm
  repeat' (first
    | with_reducible assumption
    | exact rfl
    | with_reducible (first
        | refine Reach.ite ?_ ?_
        | apply Reach.then ?_ (State.dput_reach ..) ?_
        | apply Reach.then ?_ (State.failStage_reach ..) ?_
        | apply Reach.then ?_ (State.setMhz_reach ..) ?_
        | apply Reach.then ?_ (State.setMode_reach ..) ?_
        | apply Reach.then ?_ (State.setStage_reach ..) ?_
        | apply Reach.then ?_ (State.setStep_reach ..) ?_
        | apply Reach.then ?_ (State.trainUcie_reach ..) ?_)
    | (extract_lets +onlyGivenNames -underBinder -merge -useContext x; first | (refine Reach.cut x ?_ (fun _ => ?_); rotate_left; clear_value x; rotate_left; unfold x; clear x) | (have _ := fun a => x a; unfold x; clear x) | clear_value x)
    | (split <;> try (refine Reach.cut1 (by assumption) ?_ (fun _ => ?_)))
    | split
    | with_reducible (first
        | refine Reach.set_power ?_ ?_))

theorem State.showStacks_reach (s : State) (i : ReleaseInput) : Reach 0x4800 s (State.showStacks s i) := by
  have h0 := Reach.refl 0x4800 s
  unfold State.showStacks
  repeat' (first
    | with_reducible assumption
    | exact rfl
    | simp -zeta -iota -proj only [Reach1.pair_iff]
    | with_reducible exact Reach1.fst (by assumption)
    | with_reducible (first
        | refine Reach.foldl _ ?_ (fun _ _ _ => ?_)
        | refine Reach1.foldl _ ?_ (fun _ _ _ => ?_)
        | refine Reach1.fst (Reach1.foldl _ ?_ (fun _ _ _ => ?_))
        | apply Reach.then ?_ (State.dput_reach ..) ?_)
    | (extract_lets +onlyGivenNames -underBinder -merge -useContext x; first | (refine Reach.cut x ?_ (fun _ => ?_); rotate_left; clear_value x; rotate_left; unfold x; clear x) | (refine Reach.cutP x ?_ (fun _ => ?_); rotate_left; clear_value x; rotate_left; unfold x; clear x) | (have _ := fun a => x a; unfold x; clear x) | clear_value x)
    | with_reducible (first
        | refine Reach.set_hbm ?_ ?_))

theorem State.beginCompute_reach (s : State) : Reach 0xfffffffffffffffffffffffffffffffffffffffffffffffffffffffff000000004208581d s (State.beginCompute s) := by
  have h0 := Reach.refl 0xfffffffffffffffffffffffffffffffffffffffffffffffffffffffff000000004208581d s
  unfold State.beginCompute
  repeat' (first
    | with_reducible assumption
    | exact rfl
    | simp -zeta -iota -proj only [Reach1.pair_iff]
    | with_reducible exact Reach1.fst (by assumption)
    | with_reducible (first
        | refine Reach.ite ?_ ?_
        | refine Reach1.ite ?_ ?_
        | refine Reach.foldl _ ?_ (fun _ _ _ => ?_)
        | refine Reach1.foldl _ ?_ (fun _ _ _ => ?_)
        | refine Reach1.fst (Reach1.foldl _ ?_ (fun _ _ _ => ?_))
        | apply Reach.then ?_ (State.dropGallery_reach ..) ?_
        | apply Reach.then ?_ (State.setStage_reach ..) ?_
        | apply Reach.then ?_ (State.setStep_reach ..) ?_)
    | (extract_lets +onlyGivenNames -underBinder -merge -useContext x; first | (refine Reach.cut x ?_ (fun _ => ?_); rotate_left; clear_value x; rotate_left; unfold x; clear x) | (refine Reach.cutP x ?_ (fun _ => ?_); rotate_left; clear_value x; rotate_left; unfold x; clear x) | (have _ := fun a => x a; unfold x; clear x) | clear_value x)
    | (split <;> try (refine Reach.cut1 (by assumption) ?_ (fun _ => ?_)))
    | split
    | exact fun h => h
    | (intro (c : Cell) (hc : _); cases c with
      | reg r => exact absurd hc (by rw [Cell.code, testBit_mono (allRegs_bit r) rfl]; decide)
      | _ => first | exact absurd hc (by decide) | rfl)
    | with_reducible (first
        | refine Reach.set_resets ?_ ?_
        | refine Reach.litMk ?_ rfl (fun _ h => h) ?_ ?_ ?_ ?_)
    | (intro (c : Cell) (hc : _); cases c <;> first | rfl | exact absurd hc (by decide) | exact fun _ _ => rfl))

theorem State.beginFabric_reach (s : State) : Reach 0x100000000000000000000000100000000000000000000000000000000000042004000 s (State.beginFabric s) := by
  have h0 := Reach.refl 0x100000000000000000000000100000000000000000000000000000000000042004000 s
  unfold State.beginFabric
  repeat' (first
    | with_reducible assumption
    | exact rfl
    | simp -zeta -iota -proj only [Reach1.pair_iff]
    | with_reducible exact Reach1.fst (by assumption)
    | with_reducible (first
        | refine Reach.ite ?_ ?_
        | refine Reach1.ite ?_ ?_
        | refine Reach.foldl _ ?_ (fun _ _ _ => ?_)
        | refine Reach1.foldl _ ?_ (fun _ _ _ => ?_)
        | refine Reach1.fst (Reach1.foldl _ ?_ (fun _ _ _ => ?_))
        | apply Reach.then ?_ (State.setLinkState_reach ..) ?_
        | apply Reach.then ?_ (State.setStage_reach ..) ?_
        | apply Reach.then ?_ (State.setStep_reach ..) ?_)
    | (split <;> try (refine Reach.cut1 (by assumption) ?_ (fun _ => ?_)))
    | split)

theorem State.beginBeam_reach (s : State) : Reach 0x100000000000000000000000000000000000000000000000000000000000042004000 s (State.beginBeam s) := by
  have h0 := Reach.refl 0x100000000000000000000000000000000000000000000000000000000000042004000 s
  unfold State.beginBeam
  repeat' (first
    | with_reducible assumption
    | exact rfl
    | with_reducible (first
        | apply Reach.then ?_ (State.setStage_reach ..) ?_
        | apply Reach.then ?_ (State.setStep_reach ..) ?_))

theorem releaseStepEffect_reach (i : ReleaseInput) (s : State) : Reach 0xfffffffffffffffffffffffffffffffffffffffffffffffffffffffff0000000762097c1d s (releaseStepEffect i s) := by
  have h0 := Reach.refl 0xfffffffffffffffffffffffffffffffffffffffffffffffffffffffff0000000762097c1d s
  unfold releaseStepEffect
  repeat' (first
    | with_reducible assumption
    | exact rfl
    | with_reducible (first
        | refine Reach.ite ?_ ?_
        | apply Reach.then ?_ (State.beginBeam_reach ..) ?_
        | apply Reach.then ?_ (State.beginCompute_reach ..) ?_
        | apply Reach.then ?_ (State.beginFabric_reach ..) ?_
        | apply Reach.then ?_ (State.beginHbm_reach ..) ?_
        | apply Reach.then ?_ (State.beginVerify_reach ..) ?_
        | apply Reach.then ?_ (State.failStage_reach ..) ?_
        | apply Reach.then ?_ (State.sense_reach ..) ?_
        | apply Reach.then ?_ (State.setRole_reach ..) ?_
        | apply Reach.then ?_ (State.setStage_reach ..) ?_
        | apply Reach.then ?_ (State.setStep_reach ..) ?_
        | apply Reach.then ?_ (State.showStacks_reach ..) ?_
        | apply Reach.then ?_ (State.verifyFlash_reach ..) ?_)
    | (extract_lets +onlyGivenNames -underBinder -merge -useContext x; first | (refine Reach.cut x ?_ (fun _ => ?_); rotate_left; clear_value x; rotate_left; unfold x; clear x) | (have _ := fun a => x a; unfold x; clear x) | clear_value x)
    | (split <;> try (refine Reach.cut1 (by assumption) ?_ (fun _ => ?_)))
    | split
    | with_reducible (first
        | refine Reach.set_resets ?_ ?_))

theorem fabricTrainTimeoutEffect_reach (ms : BitVec 32) (s : State) : Reach 0x100000000000000000000000000000000000000000000000000000000000042004000 s (fabricTrainTimeoutEffect ms s) := by
  have h0 := Reach.refl 0x100000000000000000000000000000000000000000000000000000000000042004000 s
  unfold fabricTrainTimeoutEffect
  repeat' (first
    | with_reducible assumption
    | exact rfl
    | with_reducible (first
        | refine Reach.ite ?_ ?_
        | apply Reach.then ?_ (State.beginBeam_reach ..) ?_)
    | (split <;> try (refine Reach.cut1 (by assumption) ?_ (fun _ => ?_)))
    | split)

theorem State.bootHost_reach (s : State) : Reach 0xa000100000000000000000000000000008000000082000000000000000000000642004400 s (State.bootHost s) := by
  have h0 := Reach.refl 0xa000100000000000000000000000000008000000082000000000000000000000642004400 s
  unfold State.bootHost
  repeat' (first
    | with_reducible assumption
    | exact rfl
    | with_reducible (first
        | refine Reach.ite ?_ ?_
        | apply Reach.then ?_ (State.beginKeeper_reach ..) ?_
        | apply Reach.then ?_ (State.logVerify_reach ..) ?_
        | apply Reach.then ?_ (State.runImage_reach ..) ?_
        | apply Reach.then ?_ (State.setStage_reach ..) ?_)
    | (extract_lets +onlyGivenNames -underBinder -merge -useContext x; first | (refine Reach.cut x ?_ (fun _ => ?_); rotate_left; clear_value x; rotate_left; unfold x; clear x) | (have _ := fun a => x a; unfold x; clear x) | clear_value x)
    | (split <;> try (refine Reach.cut1 (by assumption) ?_ (fun _ => ?_)))
    | split
    | dsimp -zeta only [])

theorem State.bootCmd_reach (s : State) (value : Word) : Reach 0xa000300000000000000000000000000008000000082000000000000000000000642004400 s (State.bootCmd s value) := by
  have h0 := Reach.refl 0xa000300000000000000000000000000008000000082000000000000000000000642004400 s
  unfold State.bootCmd
  repeat' (first
    | with_reducible assumption
    | exact rfl
    | with_reducible (first
        | refine Reach.storeReg ?_ ?_
        | refine Reach.ite ?_ ?_
        | apply Reach.then ?_ (State.bootHost_reach ..) ?_)
    | (extract_lets +onlyGivenNames -underBinder -merge -useContext x; first | (refine Reach.cut x ?_ (fun _ => ?_); rotate_left; clear_value x; rotate_left; unfold x; clear x) | (have _ := fun a => x a; unfold x; clear x) | clear_value x)
    | (split <;> try (refine Reach.cut1 (by assumption) ?_ (fun _ => ?_)))
    | split)

end Sys2Proof.Machine
end

