-- ==== Sys2Proof/Laws/ReachRegWrite.lean ====
section
/-!
SUPPORT. The footprint of each function of Machine/RegWrite.lean.
-/
set_option linter.unusedTactic false
set_option linter.unreachableTactic false
namespace Sys2Proof.Machine

theorem State.wrTyped_reach {F : Nat} {r0 : State} {s : State} {r : Reg} {u : Nat} {i : Nat} {v : Word} (h0 : Reach F r0 s) (m : F.testBit (64 + r.ctorIdx) = true)
    (own : 0x0 &&& F = 0x0) : Reach F r0 (State.wrTyped s r u i v) := by
  unfold State.wrTyped
  repeat' (first
    | with_reducible assumption
    | exact rfl
    | with_reducible (first
        | refine Reach.wr ?_ ?_
        | refine Reach.ite ?_ ?_
        | exact m
        | exact sub_own own rfl)
    | (extract_lets +onlyGivenNames -underBinder -merge -useContext x; first | (refine Reach.cut x ?_ (fun _ => ?_); rotate_left; clear_value x; rotate_left; unfold x; clear x) | (have _ := fun a => x a; unfold x; clear x) | clear_value x)
    | (split <;> try (refine Reach.cut1 (by assumption) ?_ (fun _ => ?_)))
    | split)

theorem State.creditsWrite_reach (s : State) (link : Nat) (v : Word) : Reach 0x80000000000000000000000000000000000000000000 s (State.creditsWrite s link v) := by
  have h0 := Reach.refl 0x80000000000000000000000000000000000000000000 s
  unfold State.creditsWrite
  repeat' (first
    | with_reducible assumption
    | exact rfl
    | with_reducible (first
        | refine Reach.wr ?_ ?_)
    | (extract_lets +onlyGivenNames -underBinder -merge -useContext x; first | (refine Reach.cut x ?_ (fun _ => ?_); rotate_left; clear_value x; rotate_left; unfold x; clear x) | (have _ := fun a => x a; unfold x; clear x) | clear_value x)
    | (split <;> try (refine Reach.cut1 (by assumption) ?_ (fun _ => ?_)))
    | split)

theorem State.winEntryWrite_reach {F : Nat} {r0 : State} {s : State} {r : Reg} {die : Nat} {entry : Nat} {v : Word} (h0 : Reach F r0 s) (m : F.testBit (64 + r.ctorIdx) = true)
    (own : 0x8000000000000000000000000000000000000000000000000 &&& F = 0x8000000000000000000000000000000000000000000000000) : Reach F r0 (State.winEntryWrite s r die entry v) := by
  unfold State.winEntryWrite
  repeat' (first
    | with_reducible assumption
    | exact rfl
    | with_reducible (first
        | refine Reach.ite ?_ ?_
        | apply Reach.then ?_ (State.winIgnored_reach ..) ?_
        | refine State.wrTyped_reach ?_ ?_ ?_
        | exact m
        | exact sub_own own rfl)
    | (split <;> try (refine Reach.cut1 (by assumption) ?_ (fun _ => ?_)))
    | split)

theorem State.maintWrite_reach (s : State) (die : Nat) (v : Word) : Reach 0x6000000800000000000000000000000000800 s (State.maintWrite s die v) := by
  have h0 := Reach.refl 0x6000000800000000000000000000000000800 s
  unfold State.maintWrite
  repeat' (first
    | with_reducible assumption
    | exact rfl
    | with_reducible (first
        | apply Reach.then ?_ (State.maintReq_reach ..) ?_)
    | (split <;> try (refine Reach.cut1 (by assumption) ?_ (fun _ => ?_)))
    | split)

theorem State.swIrq_reach (s : State) (v : Word) : Reach 0x2000000 s (State.swIrq s v) := by
  have h0 := Reach.refl 0x2000000 s
  unfold State.swIrq
  repeat' (first
    | with_reducible assumption
    | exact rfl
    | with_reducible (first
        | apply Reach.then ?_ (State.raiseIrq_reach ..) ?_))

theorem State.xlatInv_reach (s : State) (die : Nat) (v : Word) : Reach 0x18000000000000000000000000000000000000000000 s (State.xlatInv s die v) := by
  have h0 := Reach.refl 0x18000000000000000000000000000000000000000000 s
  unfold State.xlatInv
  repeat' (first
    | with_reducible assumption
    | exact rfl
    | with_reducible (first
        | refine Reach.setFld ?_ ?_
        | refine Reach.storeReg ?_ ?_
        | refine Reach.ite ?_ ?_)
    | (extract_lets +onlyGivenNames -underBinder -merge -useContext x; first | (refine Reach.cut x ?_ (fun _ => ?_); rotate_left; clear_value x; rotate_left; unfold x; clear x) | (have _ := fun a => x a; unfold x; clear x) | clear_value x)
    | (split <;> try (refine Reach.cut1 (by assumption) ?_ (fun _ => ?_)))
    | split)

theorem State.traceWrite_reach {F : Nat} {r0 : State} {s : State} {r : Reg} {die : Nat} {v : Word} (h0 : Reach F r0 s) (m : F.testBit (64 + r.ctorIdx) = true)
    (own : 0x20000000000000000000000000000000000000000000000000000000000000400000 &&& F = 0x20000000000000000000000000000000000000000000000000000000000000400000) : Reach F r0 (State.traceWrite s r die v) := by
  unfold State.traceWrite
  repeat' (first
    | with_reducible assumption
    | exact rfl
    | with_reducible (first
        | refine Reach.ite ?_ ?_
        | apply Reach.then ?_ (State.discardTraces_reach ..) ?_
        | refine State.wrTyped_reach ?_ ?_ ?_
        | exact m
        | exact sub_own own rfl)
    | (extract_lets +onlyGivenNames -underBinder -merge -useContext x; first | (refine Reach.cut x ?_ (fun _ => ?_); rotate_left; clear_value x; rotate_left; unfold x; clear x) | (have _ := fun a => x a; unfold x; clear x) | clear_value x)
    | (split <;> try (refine Reach.cut1 (by assumption) ?_ (fun _ => ?_)))
    | split)

theorem State.rampProfWrite_reach (s : State) (e : Nat) (i : Nat) (v : Word) : Reach 0x10000000000020000000000000000 s (State.rampProfWrite s e i v) := by
  have h0 := Reach.refl 0x10000000000020000000000000000 s
  unfold State.rampProfWrite
  repeat' (first
    | with_reducible assumption
    | exact rfl
    | with_reducible (first
        | refine Reach.ite ?_ ?_
        | apply Reach.then ?_ (State.clamped_reach ..) ?_
        | refine State.wrTyped_reach ?_ ?_ ?_)
    | (extract_lets +onlyGivenNames -underBinder -merge -useContext x; first | (refine Reach.cut x ?_ (fun _ => ?_); rotate_left; clear_value x; rotate_left; unfold x; clear x) | (have _ := fun a => x a; unfold x; clear x) | clear_value x)
    | (split <;> try (refine Reach.cut1 (by assumption) ?_ (fun _ => ?_)))
    | split)

theorem State.regWrite_reach {F : Nat} {r0 : State} {s : State} {r : Reg} {u : Nat} {i : Nat} {v : Word} (h0 : Reach F r0 s) (m : F.testBit (64 + r.ctorIdx) = true)
    (own : 0xa400330302607c33387eb27cb4000f917c3af11fabbcd0120c0080002000000165fd87cfd &&& F = 0xa400330302607c33387eb27cb4000f917c3af11fabbcd0120c0080002000000165fd87cfd) : Reach F r0 (State.regWrite s r u i v) := by
  unfold State.regWrite
  repeat' (first
    | with_reducible assumption
    | exact rfl
    | with_reducible (first
        | refine Reach.ite ?_ ?_
        | apply Reach.then ?_ (State.abortCmd_reach ..) ?_
        | apply Reach.then ?_ (State.blockCmd_reach ..) ?_
        | apply Reach.then ?_ (State.bootCmd_reach ..) ?_
        | apply Reach.then ?_ (State.creditsWrite_reach ..) ?_
        | apply Reach.then ?_ (State.drainCring_reach ..) ?_
        | apply Reach.then ?_ (State.maintWrite_reach ..) ?_
        | apply Reach.then ?_ (State.rampProfWrite_reach ..) ?_
        | apply Reach.then ?_ (State.swIrq_reach ..) ?_
        | apply Reach.then ?_ (State.tokenCmd_reach ..) ?_
        | refine State.traceWrite_reach ?_ ?_ ?_
        | refine State.winEntryWrite_reach ?_ ?_ ?_
        | refine State.wrTyped_reach ?_ ?_ ?_
        | apply Reach.then ?_ (State.writeMoveCmd_reach ..) ?_
        | apply Reach.then ?_ (State.xlatInv_reach ..) ?_
        | apply Reach.then ?_ (collMemberGenSetEffect_reach ..) ?_
        | apply Reach.then ?_ (cringRoomEffect_reach ..) ?_
        | apply Reach.then ?_ (daymarkRestoreEffect_reach ..) ?_
        | apply Reach.then ?_ (galRepairCmdEffect_reach ..) ?_
        | apply Reach.then ?_ (groupEntryWriteEffect_reach ..) ?_
        | apply Reach.then ?_ (scrubStartEffect_reach ..) ?_
        | apply Reach.then ?_ (windowCloseEffect_reach ..) ?_
        | apply Reach.then ?_ (windowOpenEffect_reach ..) ?_
        | exact m
        | exact sub_own own rfl)
    | (extract_lets +onlyGivenNames -underBinder -merge -useContext x; first | (refine Reach.cut x ?_ (fun _ => ?_); rotate_left; clear_value x; rotate_left; unfold x; clear x) | (have _ := fun a => x a; unfold x; clear x) | clear_value x)
    | (split <;> try (refine Reach.cut1 (by assumption) ?_ (fun _ => ?_)))
    | split)

theorem State.cfgWrite_reach (s : State) (off : Nat) (v : Word) : Reach 0xfffffffffffffffffffffffffffffffffffffffffffffffffffffffff000000165fd87cfd s (State.cfgWrite s off v) := by
  have h0 := Reach.refl 0xfffffffffffffffffffffffffffffffffffffffffffffffffffffffff000000165fd87cfd s
  unfold State.cfgWrite
  repeat' (first
    | with_reducible assumption
    | exact rfl
    | with_reducible (first
        | refine State.regWrite_reach ?_ ?_ ?_
        | exact testBit_mono (allRegs_bit _) rfl)
    | (split <;> try (refine Reach.cut1 (by assumption) ?_ (fun _ => ?_)))
    | split)

theorem irqHoldoffExpiryEffect_reach (vector : BitVec 11) (s : State) : Reach 0x2000000 s (irqHoldoffExpiryEffect vector s) := by
  have h0 := Reach.refl 0x2000000 s
  unfold irqHoldoffExpiryEffect
  repeat' (first
    | with_reducible assumption
    | exact rfl
    | with_reducible (first
        | refine Reach.ite ?_ ?_
        | apply Reach.then ?_ (State.sendIrq_reach ..) ?_)
    | (extract_lets +onlyGivenNames -underBinder -merge -useContext x; first | (refine Reach.cut x ?_ (fun _ => ?_); rotate_left; clear_value x; rotate_left; unfold x; clear x) | (have _ := fun a => x a; unfold x; clear x) | clear_value x)
    | (split <;> try (refine Reach.cut1 (by assumption) ?_ (fun _ => ?_)))
    | split
    | with_reducible (first
        | refine Reach.set_host ?_ ?_))

end Sys2Proof.Machine
end

