-- ==== Sys2Proof/Laws/ReachRecovery.lean ====
section
/-!
SUPPORT. The footprint of each function of Machine/Recovery.lean.
-/
set_option linter.unusedTactic false
set_option linter.unreachableTactic false
namespace Sys2Proof.Machine

theorem State.setRoute_reach (s : State) (die : Nat) (pkg : Nat) (v : Nat) : Reach 0x10000000000000000000000000000000000000000000000000000000 s (State.setRoute s die pkg v) := by
  have h0 := Reach.refl 0x10000000000000000000000000000000000000000000000000000000 s
  unfold State.setRoute
  repeat' (first
    | with_reducible assumption
    | exact rfl
    | with_reducible (first
        | refine Reach.wr ?_ ?_))

theorem State.applyEntry_reach (s : State) (x : TableEntry) : Reach1 0x400030000007410017eb240000000001022011fa200c0120000800000000000003d87cfd s (State.applyEntry s x) := by
  have h0 := Reach.refl 0x400030000007410017eb240000000001022011fa200c0120000800000000000003d87cfd s
  unfold State.applyEntry
  repeat' (first
    | with_reducible assumption
    | exact rfl
    | simp -zeta -iota -proj only [Reach1.pair_iff]
    | with_reducible exact Reach1.fst (by assumption)
    | with_reducible (first
        | apply Reach.then ?_ (State.devWrite_reach ..) ?_
        | apply Reach.then ?_ (State.groupWrite_reach ..) ?_
        | apply Reach.then ?_ (State.setRoute_reach ..) ?_
        | apply Reach.then ?_ (collMemberGenSetEffect_reach ..) ?_)
    | (extract_lets +onlyGivenNames -underBinder -merge -useContext x; first | (refine Reach.cut x ?_ (fun _ => ?_); rotate_left; clear_value x; rotate_left; unfold x; clear x) | (refine Reach1.cut x ?_ (fun _ => ?_); rotate_left; clear_value x; rotate_left; unfold x; clear x) | (have _ := fun a => x a; unfold x; clear x) | clear_value x)
    | (split <;> try (first | refine Reach1.cut1 (by assumption) ?_ (fun _ => ?_) | refine Reach.cut1 (by assumption) ?_ (fun _ => ?_)))
    | split)

theorem State.applyEntries_reach (s : State) (y0 : List TableEntry) (y1 : Nat) : Reach1 0x400030000007410017eb240000000001022011fa200c0120000800000000000003d87cfd s (State.applyEntries s y0 y1) := by
  induction y0 generalizing s y1 with
  | nil =>
    have h0 := Reach.refl 0x400030000007410017eb240000000001022011fa200c0120000800000000000003d87cfd s
    unfold State.applyEntries
    repeat' (first
    | with_reducible assumption
    | exact rfl
    | simp -zeta -iota -proj only [Reach1.pair_iff]
    | with_reducible exact Reach1.fst (by assumption)
    | with_reducible (first
        | apply Reach1.then ?_ (State.applyEntry_reach ..) ?_
        | apply Reach1.fst (Reach1.then ?_ (State.applyEntry_reach ..) ?_)
        | apply Reach1.then ?_ (ih ..) ?_)
    | (extract_lets +onlyGivenNames -underBinder -merge -useContext x; first | (refine Reach.cut x ?_ (fun _ => ?_); rotate_left; clear_value x; rotate_left; unfold x; clear x) | (refine Reach1.cut x ?_ (fun _ => ?_); rotate_left; clear_value x; rotate_left; unfold x; clear x) | (refine Reach.cutP x ?_ (fun _ => ?_); rotate_left; clear_value x; rotate_left; unfold x; clear x) | (refine Reach1.cutP x ?_ (fun _ => ?_); rotate_left; clear_value x; rotate_left; unfold x; clear x) | (have _ := fun a => x a; unfold x; clear x) | clear_value x)
    | (split <;> try (first | refine Reach1.cut1 (by assumption) ?_ (fun _ => ?_) | refine Reach.cut1 (by assumption) ?_ (fun _ => ?_)))
    | split)
  | cons _ _ ih =>
    have h0 := Reach.refl 0x400030000007410017eb240000000001022011fa200c0120000800000000000003d87cfd s
    unfold State.applyEntries
    repeat' (first
    | with_reducible assumption
    | exact rfl
    | simp -zeta -iota -proj only [Reach1.pair_iff]
    | with_reducible exact Reach1.fst (by assumption)
    | with_reducible (first
        | apply Reach1.then ?_ (State.applyEntry_reach ..) ?_
        | apply Reach1.fst (Reach1.then ?_ (State.applyEntry_reach ..) ?_)
        | apply Reach1.then ?_ (ih ..) ?_)
    | (extract_lets +onlyGivenNames -underBinder -merge -useContext x; first | (refine Reach.cut x ?_ (fun _ => ?_); rotate_left; clear_value x; rotate_left; unfold x; clear x) | (refine Reach1.cut x ?_ (fun _ => ?_); rotate_left; clear_value x; rotate_left; unfold x; clear x) | (refine Reach.cutP x ?_ (fun _ => ?_); rotate_left; clear_value x; rotate_left; unfold x; clear x) | (refine Reach1.cutP x ?_ (fun _ => ?_); rotate_left; clear_value x; rotate_left; unfold x; clear x) | (have _ := fun a => x a; unfold x; clear x) | clear_value x)
    | (split <;> try (first | refine Reach1.cut1 (by assumption) ?_ (fun _ => ?_) | refine Reach.cut1 (by assumption) ?_ (fun _ => ?_)))
    | split)

theorem State.applyUpdate_reach (s : State) (value : List Byte) : Reach1 0x400030000007410017eb240000000001022011fa200c0120000800000000000003d87cfd s (State.applyUpdate s value) := by
  have h0 := Reach.refl 0x400030000007410017eb240000000001022011fa200c0120000800000000000003d87cfd s
  unfold State.applyUpdate
  repeat' (first
    | with_reducible assumption
    | exact rfl
    | simp -zeta -iota -proj only [Reach1.pair_iff]
    | with_reducible exact Reach1.fst (by assumption)
    | with_reducible (first
        | refine Reach.ite ?_ ?_
        | refine Reach1.ite ?_ ?_
        | apply Reach1.then ?_ (State.applyEntries_reach ..) ?_
        | apply Reach1.fst (Reach1.then ?_ (State.applyEntries_reach ..) ?_)
        | apply Reach.then ?_ (State.dput_reach ..) ?_)
    | (extract_lets +onlyGivenNames -underBinder -merge -useContext x; first | (refine Reach.cut x ?_ (fun _ => ?_); rotate_left; clear_value x; rotate_left; unfold x; clear x) | (refine Reach1.cut x ?_ (fun _ => ?_); rotate_left; clear_value x; rotate_left; unfold x; clear x) | (refine Reach.cutP x ?_ (fun _ => ?_); rotate_left; clear_value x; rotate_left; unfold x; clear x) | (refine Reach1.cutP x ?_ (fun _ => ?_); rotate_left; clear_value x; rotate_left; unfold x; clear x) | (have _ := fun a => x a; unfold x; clear x) | clear_value x)
    | (split <;> try (first | refine Reach1.cut1 (by assumption) ?_ (fun _ => ?_) | refine Reach.cut1 (by assumption) ?_ (fun _ => ?_)))
    | split)

theorem packageFailedEffect_reach (pkg : BitVec 12) (ms : BitVec 32) (fatal : Bool) (owners : BitVec 64) (ready : List (BitVec 12)) (plan : FailoverPlan) (s : State) : Reach 0x400030000007433017eb24020000010303a411fa3b8c0120c0080000000000008fd8fcfd s (packageFailedEffect pkg ms fatal owners ready plan s) := by
  have h0 := Reach.refl 0x400030000007433017eb24020000010303a411fa3b8c0120c0080000000000008fd8fcfd s
  unfold packageFailedEffect
  repeat' (first
    | with_reducible assumption
    | exact rfl
    | simp -zeta -iota -proj only [Reach1.pair_iff]
    | with_reducible exact Reach1.fst (by assumption)
    | with_reducible (first
        | refine Reach.ite ?_ ?_
        | apply Reach1.then ?_ (State.applyEntries_reach ..) ?_
        | apply Reach1.fst (Reach1.then ?_ (State.applyEntries_reach ..) ?_)
        | apply Reach.then ?_ (State.dput_reach ..) ?_
        | apply Reach.then ?_ (State.originate_reach ..) ?_)
    | (extract_lets +onlyGivenNames -underBinder -merge -useContext x; first | (refine Reach.cut x ?_ (fun _ => ?_); rotate_left; clear_value x; rotate_left; unfold x; clear x) | (refine Reach.cutP x ?_ (fun _ => ?_); rotate_left; clear_value x; rotate_left; unfold x; clear x) | (have _ := fun a => x a; unfold x; clear x) | clear_value x)
    | (split <;> try (refine Reach.cut1 (by assumption) ?_ (fun _ => ?_)))
    | split
    | with_reducible (first
        | refine Reach.set_mooring ?_ ?_))

end Sys2Proof.Machine
end

