-- ==== Sys2Proof/Laws/ReachSecurity.lean ====
section
/-!
SUPPORT. The footprint of each function of Machine/Security.lean.
-/
set_option linter.unusedTactic false
set_option linter.unreachableTactic false
namespace Sys2Proof.Machine

theorem State.setUpdate_reach (s : State) (u : Option FwUpdate) : Reach 0x200000000 s (State.setUpdate s u) := by
  have h0 := Reach.refl 0x200000000 s
  unfold State.setUpdate
  repeat' (first
    | with_reducible assumption
    | exact rfl
    | with_reducible (first
        | refine Reach.set_security ?_ ?_))

theorem State.setFlash_reach (s : State) (f : Flash) : Reach 0x100000000 s (State.setFlash s f) := by
  have h0 := Reach.refl 0x100000000 s
  unfold State.setFlash
  repeat' (first
    | with_reducible assumption
    | exact rfl
    | with_reducible (first
        | refine Reach.set_flash ?_ ?_))

theorem State.fwStatus_reach (s : State) (n : Nat) : Reach 0x4000 s (State.fwStatus s n) := by
  have h0 := Reach.refl 0x4000 s
  unfold State.fwStatus
  repeat' (first
    | with_reducible assumption
    | exact rfl
    | with_reducible (first
        | apply Reach.then ?_ (State.dput_reach ..) ?_))

theorem State.takeChunk_reach (s : State) (u : FwUpdate) (bs : List Byte) (final : Bool) : Reach 0x300004000 s (State.takeChunk s u bs final) := by
  have h0 := Reach.refl 0x300004000 s
  unfold State.takeChunk
  repeat' (first
    | with_reducible assumption
    | exact rfl
    | with_reducible (first
        | refine Reach.ite ?_ ?_
        | apply Reach.then ?_ (State.fwStatus_reach ..) ?_
        | apply Reach.then ?_ (State.setFlash_reach ..) ?_
        | apply Reach.then ?_ (State.setUpdate_reach ..) ?_)
    | (extract_lets +onlyGivenNames -underBinder -merge -useContext x; first | (refine Reach.cut x ?_ (fun _ => ?_); rotate_left; clear_value x; rotate_left; unfold x; clear x) | (have _ := fun a => x a; unfold x; clear x) | clear_value x)
    | (split <;> try (refine Reach.cut1 (by assumption) ?_ (fun _ => ?_)))
    | split)

theorem State.fwChunk_reach (s : State) (chunk : List Byte) : Reach1 0x300004000 s (State.fwChunk s chunk) := by
  have h0 := Reach.refl 0x300004000 s
  unfold State.fwChunk
  repeat' (first
    | with_reducible assumption
    | exact rfl
    | simp -zeta -iota -proj only [Reach1.pair_iff]
    | with_reducible exact Reach1.fst (by assumption)
    | with_reducible (first
        | refine Reach.ite ?_ ?_
        | refine Reach1.ite ?_ ?_
        | apply Reach.then ?_ (State.fwStatus_reach ..) ?_
        | apply Reach.then ?_ (State.setFlash_reach ..) ?_
        | apply Reach.then ?_ (State.takeChunk_reach ..) ?_)
    | (extract_lets +onlyGivenNames -underBinder -merge -useContext x; first | (refine Reach.cut x ?_ (fun _ => ?_); rotate_left; clear_value x; rotate_left; unfold x; clear x) | (refine Reach1.cut x ?_ (fun _ => ?_); rotate_left; clear_value x; rotate_left; unfold x; clear x) | (have _ := fun a => x a; unfold x; clear x) | clear_value x)
    | (split <;> try (first | refine Reach1.cut1 (by assumption) ?_ (fun _ => ?_) | refine Reach.cut1 (by assumption) ?_ (fun _ => ?_)))
    | split)

theorem fwVerifyDoneEffect_reach (s : State) : Reach 0x8000100000000000000000000000000000000000000000000000000000000000300004000 s (fwVerifyDoneEffect s) := by
  have h0 := Reach.refl 0x8000100000000000000000000000000000000000000000000000000000000000300004000 s
  unfold fwVerifyDoneEffect
  repeat' (first
    | with_reducible assumption
    | exact rfl
    | with_reducible (first
        | refine Reach.ite ?_ ?_
        | apply Reach.then ?_ (State.fwStatus_reach ..) ?_
        | apply Reach.then ?_ (State.logVerify_reach ..) ?_
        | apply Reach.then ?_ (State.setFlash_reach ..) ?_
        | apply Reach.then ?_ (State.setUpdate_reach ..) ?_)
    | (extract_lets +onlyGivenNames -underBinder -merge -useContext x; first | (refine Reach.cut x ?_ (fun _ => ?_); rotate_left; clear_value x; rotate_left; unfold x; clear x) | (have _ := fun a => x a; unfold x; clear x) | clear_value x)
    | (split <;> try (refine Reach.cut1 (by assumption) ?_ (fun _ => ?_)))
    | split)

theorem State.svnCommit_reach (s : State) : Reach 0x14000 s (State.svnCommit s) := by
  have h0 := Reach.refl 0x14000 s
  unfold State.svnCommit
  repeat' (first
    | with_reducible assumption
    | exact rfl
    | with_reducible (first
        | apply Reach.then ?_ (State.blowTo_reach ..) ?_
        | apply Reach.then ?_ (State.dput_reach ..) ?_)
    | (extract_lets +onlyGivenNames -underBinder -merge -useContext x; first | (refine Reach.cut x ?_ (fun _ => ?_); rotate_left; clear_value x; rotate_left; unfold x; clear x) | (have _ := fun a => x a; unfold x; clear x) | clear_value x))

theorem State.drawChallenge_reach (s : State) : Reach 0x1200000000 s (State.drawChallenge s) := by
  have h0 := Reach.refl 0x1200000000 s
  unfold State.drawChallenge
  repeat' (first
    | with_reducible assumption
    | exact rfl
    | simp -zeta -iota -proj only [Reach1.pair_iff]
    | with_reducible exact Reach1.fst (by assumption)
    | with_reducible (first
        | refine Reach.foldl _ ?_ (fun _ _ _ => ?_)
        | refine Reach1.foldl _ ?_ (fun _ _ _ => ?_)
        | refine Reach1.fst (Reach1.foldl _ ?_ (fun _ _ _ => ?_)))
    | (extract_lets +onlyGivenNames -underBinder -merge -useContext x; first | (refine Reach.cut x ?_ (fun _ => ?_); rotate_left; clear_value x; rotate_left; unfold x; clear x) | (refine Reach.cutP x ?_ (fun _ => ?_); rotate_left; clear_value x; rotate_left; unfold x; clear x) | (have _ := fun a => x a; unfold x; clear x) | clear_value x)
    | exact fun h => h
    | with_reducible (first
        | refine Reach.set_free ?_ ?_
        | refine Reach.set_security ?_ ?_
        | refine Reach.litMk ?_ rfl (fun _ h => h) ?_ ?_ ?_ ?_)
    | (intro (c : Cell) (hc : _); cases c <;> first | rfl | exact absurd hc (by decide) | exact fun _ _ => rfl))

theorem State.debugUnlock_reach (s : State) (v : List Byte) : Reach 0x2000000000000000000000000000000000000000000000000000000000000000200004000 s (State.debugUnlock s v) := by
  have h0 := Reach.refl 0x2000000000000000000000000000000000000000000000000000000000000000200004000 s
  unfold State.debugUnlock
  repeat' (first
    | with_reducible assumption
    | exact rfl
    | with_reducible (first
        | refine Reach.ite ?_ ?_
        | apply Reach.then ?_ (State.showSecState_reach ..) ?_)
    | (extract_lets +onlyGivenNames -underBinder -merge -useContext x; first | (refine Reach.cut x ?_ (fun _ => ?_); rotate_left; clear_value x; rotate_left; unfold x; clear x) | (have _ := fun a => x a; unfold x; clear x) | clear_value x)
    | (split <;> try (refine Reach.cut1 (by assumption) ?_ (fun _ => ?_)))
    | split
    | with_reducible (first
        | refine Reach.set_security ?_ ?_))

theorem State.spdmMeasure_reach (s : State) : Reach 0x200000000 s (State.spdmMeasure s) := by
  have h0 := Reach.refl 0x200000000 s
  unfold State.spdmMeasure
  repeat' (first
    | with_reducible assumption
    | exact rfl
    | with_reducible (first
        | refine Reach.set_security ?_ ?_))

theorem State.spdmAnswer_reach (s : State) (err : Nat) : Reach 0x200000000 s (State.spdmAnswer s err) := by
  have h0 := Reach.refl 0x200000000 s
  unfold State.spdmAnswer
  repeat' (first
    | with_reducible assumption
    | exact rfl
    | with_reducible (first
        | refine Reach.set_security ?_ ?_))

theorem State.spdmSign_reach (s : State) (transcript : List Byte) : Reach 0x64000300000074330000b04020000010303a411fa3b8c0120c0080000000000138fd9fcfd s (State.spdmSign s transcript) := by
  have h0 := Reach.refl 0x64000300000074330000b04020000010303a411fa3b8c0120c0080000000000138fd9fcfd s
  unfold State.spdmSign
  repeat' (first
    | with_reducible assumption
    | exact rfl
    | simp -zeta -iota -proj only [Reach1.pair_iff]
    | with_reducible exact Reach1.fst (by assumption)
    | with_reducible (first
        | apply Reach.then ?_ (State.spdmAnswer_reach ..) ?_
        | apply Reach1.then ?_ (State.takeIndex_reach ..) ?_
        | apply Reach1.fst (Reach1.then ?_ (State.takeIndex_reach ..) ?_))
    | (split <;> try (refine Reach.cut1 (by assumption) ?_ (fun _ => ?_)))
    | split
    | exact fun h => h
    | with_reducible (first
        | refine Reach.set_free ?_ ?_
        | refine Reach.set_security ?_ ?_
        | refine Reach.litMk ?_ rfl (fun _ h => h) ?_ ?_ ?_ ?_)
    | (intro (c : Cell) (hc : _); cases c <;> first | rfl | exact absurd hc (by decide) | exact fun _ _ => rfl))

theorem State.spdmSessions_reach (s : State) (e : Nat) (c : SpdmCode) : Reach 0x200000000 s (State.spdmSessions s e c) := by
  have h0 := Reach.refl 0x200000000 s
  unfold State.spdmSessions
  repeat' (first
    | with_reducible assumption
    | exact rfl
    | with_reducible (first
        | refine Reach.ite ?_ ?_)
    | (extract_lets +onlyGivenNames -underBinder -merge -useContext x; first | (refine Reach.cut x ?_ (fun _ => ?_); rotate_left; clear_value x; rotate_left; unfold x; clear x) | (have _ := fun a => x a; unfold x; clear x) | clear_value x)
    | (split <;> try (refine Reach.cut1 (by assumption) ?_ (fun _ => ?_)))
    | split
    | with_reducible (first
        | refine Reach.set_security ?_ ?_))

theorem spdmRequestEffect_reach (endpoint : BitVec 32) (code : SpdmCode) (transcript : List Byte) (s : State) : Reach 0x64000300000074330000b04020000010303a411fa3b8c0120c0080000000000138fd9fcfd s (spdmRequestEffect endpoint code transcript s) := by
  have h0 := Reach.refl 0x64000300000074330000b04020000010303a411fa3b8c0120c0080000000000138fd9fcfd s
  unfold spdmRequestEffect
  repeat' (first
    | with_reducible assumption
    | exact rfl
    | with_reducible (first
        | refine Reach.ite ?_ ?_
        | apply Reach.then ?_ (State.spdmAnswer_reach ..) ?_
        | apply Reach.then ?_ (State.spdmMeasure_reach ..) ?_
        | apply Reach.then ?_ (State.spdmSessions_reach ..) ?_
        | apply Reach.then ?_ (State.spdmSign_reach ..) ?_)
    | (extract_lets +onlyGivenNames -underBinder -merge -useContext x; first | (refine Reach.cut x ?_ (fun _ => ?_); rotate_left; clear_value x; rotate_left; unfold x; clear x) | (have _ := fun a => x a; unfold x; clear x) | clear_value x)
    | (split <;> try (refine Reach.cut1 (by assumption) ?_ (fun _ => ?_)))
    | split)

end Sys2Proof.Machine
end

