-- ==== Sys2Proof/Laws/ReachDict.lean ====
section
/-!
SUPPORT. The footprint of each function of Machine/Dict.lean.
-/
set_option linter.unusedTactic false
set_option linter.unreachableTactic false
namespace Sys2Proof.Machine

theorem State.countClamps_reach (s : State) (t : Transport) (n : Nat) : Reach 0x4000 s (State.countClamps s t n) := by
  have h0 := Reach.refl 0x4000 s
  unfold State.countClamps
  repeat' (first
    | with_reducible assumption
    | exact rfl
    | with_reducible (first
        | apply Reach.then ?_ (State.dput_reach ..) ?_))

theorem State.addDue_reach (s : State) (key : Nat) (v : Int) : Reach 0x80000000 s (State.addDue s key v) := by
  have h0 := Reach.refl 0x80000000 s
  unfold State.addDue
  repeat' (first
    | with_reducible assumption
    | exact rfl
    | with_reducible (first
        | refine Reach.set_mooring ?_ ?_))

theorem State.wrote_reach (s : State) (idx : Nat) (sub : Nat) (v : Int) (devices : List ShelfDevice) : Reach 0x1100000000400000000001000100840000008000000000000000000005e009781d s (State.wrote s idx sub v devices) := by
  have h0 := Reach.refl 0x1100000000400000000001000100840000008000000000000000000005e009781d s
  unfold State.wrote
  repeat' (first
    | with_reducible assumption
    | exact rfl
    | with_reducible (first
        | refine Reach.ite ?_ ?_
        | apply Reach.then ?_ (State.addDue_reach ..) ?_
        | apply Reach.then ?_ (State.discoverShelf_reach ..) ?_
        | apply Reach.then ?_ (State.modeWritten_reach ..) ?_
        | apply Reach.then ?_ (State.retryWaiting_reach ..) ?_
        | refine State.setBoth_reach ?_ ?_ ?_
        | apply Reach.then ?_ (State.setRole_reach ..) ?_
        | apply Reach.then ?_ (State.storeDict_reach ..) ?_
        | apply Reach.then ?_ (State.svnCommit_reach ..) ?_
        | apply Reach.then ?_ (linkEnableEffect_reach ..) ?_)
    | (extract_lets +onlyGivenNames -underBinder -merge -useContext x; first | (refine Reach.cut x ?_ (fun _ => ?_); rotate_left; clear_value x; rotate_left; unfold x; clear x) | (have _ := fun a => x a; unfold x; clear x) | clear_value x)
    | (split <;> try (refine Reach.cut1 (by assumption) ?_ (fun _ => ?_)))
    | split
    | with_reducible (first
        | refine Reach.set_resets ?_ ?_))

theorem State.wroteBytes_reach (s : State) (t : Transport) (key : Nat) (bs : List Byte) : Reach1 0x2400030000007433017eb24020000010303a411fa3b8c0120c0080000000000038fd8fcfd s (State.wroteBytes s t key bs) := by
  have h0 := Reach.refl 0x2400030000007433017eb24020000010303a411fa3b8c0120c0080000000000038fd8fcfd s
  unfold State.wroteBytes
  repeat' (first
    | with_reducible assumption
    | exact rfl
    | simp -zeta -iota -proj only [Reach1.pair_iff]
    | with_reducible exact Reach1.fst (by assumption)
    | with_reducible (first
        | refine Reach.ite ?_ ?_
        | refine Reach1.ite ?_ ?_
        | apply Reach1.then ?_ (State.applyUpdate_reach ..) ?_
        | apply Reach1.fst (Reach1.then ?_ (State.applyUpdate_reach ..) ?_)
        | apply Reach.then ?_ (State.countClamps_reach ..) ?_
        | apply Reach.then ?_ (State.debugUnlock_reach ..) ?_
        | apply Reach.then ?_ (State.dputBytes_reach ..) ?_
        | apply Reach1.then ?_ (State.fwChunk_reach ..) ?_
        | apply Reach1.fst (Reach1.then ?_ (State.fwChunk_reach ..) ?_)
        | apply Reach.then ?_ (State.originate_reach ..) ?_)
    | (extract_lets +onlyGivenNames -underBinder -merge -useContext x; first | (refine Reach.cut x ?_ (fun _ => ?_); rotate_left; clear_value x; rotate_left; unfold x; clear x) | (refine Reach1.cut x ?_ (fun _ => ?_); rotate_left; clear_value x; rotate_left; unfold x; clear x) | (refine Reach.cutP x ?_ (fun _ => ?_); rotate_left; clear_value x; rotate_left; unfold x; clear x) | (refine Reach1.cutP x ?_ (fun _ => ?_); rotate_left; clear_value x; rotate_left; unfold x; clear x) | (have _ := fun a => x a; unfold x; clear x) | clear_value x)
    | (split <;> try (first | refine Reach1.cut1 (by assumption) ?_ (fun _ => ?_) | refine Reach.cut1 (by assumption) ?_ (fun _ => ?_)))
    | split
    | dsimp -zeta only [])

theorem State.setBuffer_reach (s : State) (src : DictSource) (key : Nat) (write : Bool) (b : Option Assembly) : Reach 0x80000000 s (State.setBuffer s src key write b) := by
  have h0 := Reach.refl 0x80000000 s
  unfold State.setBuffer
  repeat' (first
    | with_reducible assumption
    | exact rfl
    | (extract_lets +onlyGivenNames -underBinder -merge -useContext x; first | (refine Reach.cut x ?_ (fun _ => ?_); rotate_left; clear_value x; rotate_left; unfold x; clear x) | (have _ := fun a => x a; unfold x; clear x) | clear_value x)
    | with_reducible (first
        | refine Reach.set_mooring ?_ ?_))

theorem State.writeDomain_reach (s : State) (src : DictSource) (r : DictRow) (key : Nat) (bs : List Byte) : Reach1 0x2400030000007433017eb24020000010303a411fa3b8c0120c0080000000000038fd8fcfd s (State.writeDomain s src r key bs) := by
  have h0 := Reach.refl 0x2400030000007433017eb24020000010303a411fa3b8c0120c0080000000000038fd8fcfd s
  unfold State.writeDomain
  repeat' (first
    | with_reducible assumption
    | exact rfl
    | simp -zeta -iota -proj only [Reach1.pair_iff]
    | with_reducible exact Reach1.fst (by assumption)
    | with_reducible (first
        | refine Reach.ite ?_ ?_
        | refine Reach1.ite ?_ ?_
        | apply Reach1.then ?_ (State.wroteBytes_reach ..) ?_
        | apply Reach1.fst (Reach1.then ?_ (State.wroteBytes_reach ..) ?_))
    | (extract_lets +onlyGivenNames -underBinder -merge -useContext x; first | (refine Reach.cut x ?_ (fun _ => ?_); rotate_left; clear_value x; rotate_left; unfold x; clear x) | (refine Reach1.cut x ?_ (fun _ => ?_); rotate_left; clear_value x; rotate_left; unfold x; clear x) | (refine Reach.cutP x ?_ (fun _ => ?_); rotate_left; clear_value x; rotate_left; unfold x; clear x) | (refine Reach1.cutP x ?_ (fun _ => ?_); rotate_left; clear_value x; rotate_left; unfold x; clear x) | (have _ := fun a => x a; unfold x; clear x) | clear_value x)
    | (split <;> try (first | refine Reach1.cut1 (by assumption) ?_ (fun _ => ?_) | refine Reach.cut1 (by assumption) ?_ (fun _ => ?_)))
    | split)

theorem State.writeSegment_reach (s : State) (src : DictSource) (p : Pdu) (r : DictRow) (key : Nat) : Reach1 0x2400030000007433017eb24020000010303a411fa3b8c0120c0080000000000038fd8fcfd s (State.writeSegment s src p r key) := by
  have h0 := Reach.refl 0x2400030000007433017eb24020000010303a411fa3b8c0120c0080000000000038fd8fcfd s
  unfold State.writeSegment
  repeat' (first
    | with_reducible assumption
    | exact rfl
    | simp -zeta -iota -proj only [Reach1.pair_iff]
    | with_reducible exact Reach1.fst (by assumption)
    | with_reducible (first
        | refine Reach.ite ?_ ?_
        | refine Reach1.ite ?_ ?_
        | apply Reach.then ?_ (State.setBuffer_reach ..) ?_
        | apply Reach1.then ?_ (State.writeDomain_reach ..) ?_
        | apply Reach1.fst (Reach1.then ?_ (State.writeDomain_reach ..) ?_))
    | (extract_lets +onlyGivenNames -underBinder -merge -useContext x; first | (refine Reach.cut x ?_ (fun _ => ?_); rotate_left; clear_value x; rotate_left; unfold x; clear x) | (refine Reach1.cut x ?_ (fun _ => ?_); rotate_left; clear_value x; rotate_left; unfold x; clear x) | (refine Reach.cutP x ?_ (fun _ => ?_); rotate_left; clear_value x; rotate_left; unfold x; clear x) | (refine Reach1.cutP x ?_ (fun _ => ?_); rotate_left; clear_value x; rotate_left; unfold x; clear x) | (have _ := fun a => x a; unfold x; clear x) | clear_value x)
    | (split <;> try (first | refine Reach1.cut1 (by assumption) ?_ (fun _ => ?_) | refine Reach.cut1 (by assumption) ?_ (fun _ => ?_)))
    | split)

theorem State.readSegment_reach (s : State) (src : DictSource) (p : Pdu) (key : Nat) : Reach1 0x1280000000 s (State.readSegment s src p key) := by
  have h0 := Reach.refl 0x1280000000 s
  unfold State.readSegment
  repeat' (first
    | with_reducible assumption
    | exact rfl
    | simp -zeta -iota -proj only [Reach1.pair_iff]
    | with_reducible exact Reach1.fst (by assumption)
    | with_reducible (first
        | refine Reach.ite ?_ ?_
        | refine Reach1.ite ?_ ?_
        | apply Reach.then ?_ (State.drawChallenge_reach ..) ?_
        | apply Reach.then ?_ (State.setBuffer_reach ..) ?_)
    | (extract_lets +onlyGivenNames -underBinder -merge -useContext x; first | (refine Reach.cut x ?_ (fun _ => ?_); rotate_left; clear_value x; rotate_left; unfold x; clear x) | (refine Reach1.cut x ?_ (fun _ => ?_); rotate_left; clear_value x; rotate_left; unfold x; clear x) | (have _ := fun a => x a; unfold x; clear x) | clear_value x)
    | (split <;> try (first | refine Reach1.cut1 (by assumption) ?_ (fun _ => ?_) | refine Reach.cut1 (by assumption) ?_ (fun _ => ?_)))
    | split)

theorem State.readEntry_reach (s : State) (src : DictSource) (p : Pdu) (r : DictRow) : Reach1 0x1280000000 s (State.readEntry s src p r) := by
  have h0 := Reach.refl 0x1280000000 s
  unfold State.readEntry
  repeat' (first
    | with_reducible assumption
    | exact rfl
    | simp -zeta -iota -proj only [Reach1.pair_iff]
    | with_reducible exact Reach1.fst (by assumption)
    | with_reducible (first
        | refine Reach.ite ?_ ?_
        | refine Reach1.ite ?_ ?_
        | apply Reach1.then ?_ (State.readSegment_reach ..) ?_
        | apply Reach1.fst (Reach1.then ?_ (State.readSegment_reach ..) ?_))
    | (extract_lets +onlyGivenNames -underBinder -merge -useContext x; first | (refine Reach.cut x ?_ (fun _ => ?_); rotate_left; clear_value x; rotate_left; unfold x; clear x) | (refine Reach1.cut x ?_ (fun _ => ?_); rotate_left; clear_value x; rotate_left; unfold x; clear x) | (refine Reach.cutP x ?_ (fun _ => ?_); rotate_left; clear_value x; rotate_left; unfold x; clear x) | (refine Reach1.cutP x ?_ (fun _ => ?_); rotate_left; clear_value x; rotate_left; unfold x; clear x) | (have _ := fun a => x a; unfold x; clear x) | clear_value x)
    | (split <;> try (first | refine Reach1.cut1 (by assumption) ?_ (fun _ => ?_) | refine Reach.cut1 (by assumption) ?_ (fun _ => ?_)))
    | split)

theorem State.writeNumber_reach (s : State) (src : DictSource) (p : Pdu) (r : DictRow) (devices : List ShelfDevice) : Reach1 0x1100000000400000000001000100840000008000000000000000000007e009781d s (State.writeNumber s src p r devices) := by
  have h0 := Reach.refl 0x1100000000400000000001000100840000008000000000000000000007e009781d s
  unfold State.writeNumber
  repeat' (first
    | with_reducible assumption
    | exact rfl
    | simp -zeta -iota -proj only [Reach1.pair_iff]
    | with_reducible exact Reach1.fst (by assumption)
    | with_reducible (first
        | refine Reach.ite ?_ ?_
        | refine Reach1.ite ?_ ?_
        | apply Reach.then ?_ (State.countClamps_reach ..) ?_
        | apply Reach.then ?_ (State.dput_reach ..) ?_
        | apply Reach.then ?_ (State.measure5_reach ..) ?_
        | apply Reach.then ?_ (State.wrote_reach ..) ?_)
    | (extract_lets +onlyGivenNames -underBinder -merge -useContext x; first | (refine Reach.cut x ?_ (fun _ => ?_); rotate_left; clear_value x; rotate_left; unfold x; clear x) | (refine Reach1.cut x ?_ (fun _ => ?_); rotate_left; clear_value x; rotate_left; unfold x; clear x) | (have _ := fun a => x a; unfold x; clear x) | clear_value x)
    | (split <;> try (first | refine Reach1.cut1 (by assumption) ?_ (fun _ => ?_) | refine Reach.cut1 (by assumption) ?_ (fun _ => ?_)))
    | split)

theorem State.serve_reach (s : State) (src : DictSource) (p : Pdu) (devices : List ShelfDevice) (whole : Bool) : Reach1 0x2400030110007433057eb24020001010303a411fa3b8c0120c008000000000017efd9fcfd s (State.serve s src p devices whole) := by
  have h0 := Reach.refl 0x2400030110007433057eb24020001010303a411fa3b8c0120c008000000000017efd9fcfd s
  unfold State.serve
  repeat' (first
    | with_reducible assumption
    | exact rfl
    | simp -zeta -iota -proj only [Reach1.pair_iff]
    | with_reducible exact Reach1.fst (by assumption)
    | with_reducible (first
        | refine Reach.ite ?_ ?_
        | refine Reach1.ite ?_ ?_
        | apply Reach1.then ?_ (State.readEntry_reach ..) ?_
        | apply Reach1.fst (Reach1.then ?_ (State.readEntry_reach ..) ?_)
        | apply Reach1.then ?_ (State.writeDomain_reach ..) ?_
        | apply Reach1.fst (Reach1.then ?_ (State.writeDomain_reach ..) ?_)
        | apply Reach1.then ?_ (State.writeNumber_reach ..) ?_
        | apply Reach1.fst (Reach1.then ?_ (State.writeNumber_reach ..) ?_)
        | apply Reach1.then ?_ (State.writeSegment_reach ..) ?_
        | apply Reach1.fst (Reach1.then ?_ (State.writeSegment_reach ..) ?_))
    | (extract_lets +onlyGivenNames -underBinder -merge -useContext x; first | (refine Reach.cut x ?_ (fun _ => ?_); rotate_left; clear_value x; rotate_left; unfold x; clear x) | (refine Reach1.cut x ?_ (fun _ => ?_); rotate_left; clear_value x; rotate_left; unfold x; clear x) | (refine Reach.cutP x ?_ (fun _ => ?_); rotate_left; clear_value x; rotate_left; unfold x; clear x) | (refine Reach1.cutP x ?_ (fun _ => ?_); rotate_left; clear_value x; rotate_left; unfold x; clear x) | (have _ := fun a => x a; unfold x; clear x) | clear_value x)
    | (split <;> try (first | refine Reach1.cut1 (by assumption) ?_ (fun _ => ?_) | refine Reach.cut1 (by assumption) ?_ (fun _ => ?_)))
    | split)

theorem State.hrspPut_reach (s : State) (bytes : List Byte) : Reach 0x42001000000000000000000000000001022011f820000000000000000000000002087c1d s (State.hrspPut s bytes) := by
  have h0 := Reach.refl 0x42001000000000000000000000000001022011f820000000000000000000000002087c1d s
  unfold State.hrspPut
  repeat' (first
    | with_reducible assumption
    | exact rfl
    | with_reducible (first
        | refine Reach.setFld ?_ ?_
        | refine Reach.ite ?_ ?_
        | apply Reach.then ?_ (State.devWrite_reach ..) ?_
        | apply Reach.then ?_ (State.raiseIrq_reach ..) ?_)
    | (extract_lets +onlyGivenNames -underBinder -merge -useContext x; first | (refine Reach.cut x ?_ (fun _ => ?_); rotate_left; clear_value x; rotate_left; unfold x; clear x) | (have _ := fun a => x a; unfold x; clear x) | clear_value x)
    | (split <;> try (refine Reach.cut1 (by assumption) ?_ (fun _ => ?_)))
    | split)

theorem State.deliver_reach (s : State) (src : DictSource) (mode : Nat) (response : List Byte) : Reach 0x42001000000000000000000000000001022011f820000000000000000000000082087c1d s (State.deliver s src mode response) := by
  have h0 := Reach.refl 0x42001000000000000000000000000001022011f820000000000000000000000082087c1d s
  unfold State.deliver
  repeat' (first
    | with_reducible assumption
    | exact rfl
    | with_reducible (first
        | apply Reach.then ?_ (State.hrspPut_reach ..) ?_
        | apply Reach.then ?_ (State.sendFrame_reach ..) ?_)
    | (split <;> try (refine Reach.cut1 (by assumption) ?_ (fun _ => ?_)))
    | split)

theorem State.setSession_reach (s : State) (src : DictSource) (response : List Byte) : Reach 0x80000000 s (State.setSession s src response) := by
  have h0 := Reach.refl 0x80000000 s
  unfold State.setSession
  repeat' (first
    | with_reducible assumption
    | exact rfl
    | (extract_lets +onlyGivenNames -underBinder -merge -useContext x; first | (refine Reach.cut x ?_ (fun _ => ?_); rotate_left; clear_value x; rotate_left; unfold x; clear x) | (have _ := fun a => x a; unfold x; clear x) | clear_value x)
    | with_reducible (first
        | refine Reach.set_mooring ?_ ?_))

theorem State.request_reach (s : State) (src : DictSource) (p : Pdu) (devices : List ShelfDevice) (whole : Bool) (mode : Nat) : Reach 0x2420030110007433057eb24020001010303a411fa3b8c0120c008000000000017efd9fcfd s (State.request s src p devices whole mode) := by
  have h0 := Reach.refl 0x2420030110007433057eb24020001010303a411fa3b8c0120c008000000000017efd9fcfd s
  unfold State.request
  repeat' (first
    | with_reducible assumption
    | exact rfl
    | simp -zeta -iota -proj only [Reach1.pair_iff]
    | with_reducible exact Reach1.fst (by assumption)
    | with_reducible (first
        | refine Reach.ite ?_ ?_
        | apply Reach.then ?_ (State.dbump_reach ..) ?_
        | apply Reach.then ?_ (State.deliver_reach ..) ?_
        | apply Reach1.then ?_ (State.serve_reach ..) ?_
        | apply Reach1.fst (Reach1.then ?_ (State.serve_reach ..) ?_)
        | apply Reach.then ?_ (State.setSession_reach ..) ?_)
    | (extract_lets +onlyGivenNames -underBinder -merge -useContext x; first | (refine Reach.cut x ?_ (fun _ => ?_); rotate_left; clear_value x; rotate_left; unfold x; clear x) | (refine Reach.cutP x ?_ (fun _ => ?_); rotate_left; clear_value x; rotate_left; unfold x; clear x) | (have _ := fun a => x a; unfold x; clear x) | clear_value x)
    | (split <;> try (refine Reach.cut1 (by assumption) ?_ (fun _ => ?_)))
    | split)

theorem State.writeKey_reach (s : State) (src : DictSource) (key : Nat) (value : List Byte) (devices : List ShelfDevice) : Reach 0x2420030110007433057eb24020001010303a411fa3b8c0120c008000000000017efd9fcfd s (State.writeKey s src key value devices) := by
  have h0 := Reach.refl 0x2420030110007433057eb24020001010303a411fa3b8c0120c008000000000017efd9fcfd s
  unfold State.writeKey
  repeat' (first
    | with_reducible assumption
    | exact rfl
    | with_reducible (first
        | apply Reach.then ?_ (State.request_reach ..) ?_))

end Sys2Proof.Machine
end

