-- ==== Sys2Proof/Laws/ReachMooringBus.lean ====
section
/-!
SUPPORT. The footprint of each function of Machine/MooringBus.lean.
-/
set_option linter.unusedTactic false
set_option linter.unreachableTactic false
namespace Sys2Proof.Machine

theorem State.badFrame_reach (s : State) : Reach 0x4000 s (State.badFrame s) := by
  have h0 := Reach.refl 0x4000 s
  unfold State.badFrame
  repeat' (first
    | with_reducible assumption
    | exact rfl
    | with_reducible (first
        | apply Reach.then ?_ (State.dbump_reach ..) ?_))

theorem State.frameIn_reach (s : State) (f : MooringFrame) (ftype : Nat) : Reach1 0x4000 s (State.frameIn s f ftype) := by
  have h0 := Reach.refl 0x4000 s
  unfold State.frameIn
  repeat' (first
    | with_reducible assumption
    | exact rfl
    | simp -zeta -iota -proj only [Reach1.pair_iff]
    | with_reducible exact Reach1.fst (by assumption)
    | with_reducible (first
        | refine Reach.ite ?_ ?_
        | refine Reach1.ite ?_ ?_
        | apply Reach.then ?_ (State.badFrame_reach ..) ?_)
    | (split <;> try (first | refine Reach1.cut1 (by assumption) ?_ (fun _ => ?_) | refine Reach.cut1 (by assumption) ?_ (fun _ => ?_)))
    | split)

theorem dictReqEffect_reach (f : MooringFrame) (s : State) : Reach 0x2420030110007433057eb24020001010303a411fa3b8c0120c008000000000017efd9fcfd s (dictReqEffect f s) := by
  have h0 := Reach.refl 0x2420030110007433057eb24020001010303a411fa3b8c0120c008000000000017efd9fcfd s
  unfold dictReqEffect
  repeat' (first
    | with_reducible assumption
    | exact rfl
    | simp -zeta -iota -proj only [Reach1.pair_iff]
    | with_reducible exact Reach1.fst (by assumption)
    | with_reducible (first
        | refine Reach.ite ?_ ?_
        | apply Reach1.then ?_ (State.frameIn_reach ..) ?_
        | apply Reach1.fst (Reach1.then ?_ (State.frameIn_reach ..) ?_)
        | apply Reach.then ?_ (State.request_reach ..) ?_)
    | (extract_lets +onlyGivenNames -underBinder -merge -useContext x; first | (refine Reach.cut x ?_ (fun _ => ?_); rotate_left; clear_value x; rotate_left; unfold x; clear x) | (refine Reach.cutP x ?_ (fun _ => ?_); rotate_left; clear_value x; rotate_left; unfold x; clear x) | (have _ := fun a => x a; unfold x; clear x) | clear_value x)
    | (split <;> try (refine Reach.cut1 (by assumption) ?_ (fun _ => ?_)))
    | split)

theorem dictRspEffect_reach (f : MooringFrame) (s : State) : Reach 0x80004000 s (dictRspEffect f s) := by
  have h0 := Reach.refl 0x80004000 s
  unfold dictRspEffect
  repeat' (first
    | with_reducible assumption
    | exact rfl
    | simp -zeta -iota -proj only [Reach1.pair_iff]
    | with_reducible exact Reach1.fst (by assumption)
    | with_reducible (first
        | apply Reach1.then ?_ (State.frameIn_reach ..) ?_
        | apply Reach1.fst (Reach1.then ?_ (State.frameIn_reach ..) ?_))
    | (split <;> try (refine Reach.cut1 (by assumption) ?_ (fun _ => ?_)))
    | split
    | with_reducible (first
        | refine Reach.set_mooring ?_ ?_))

theorem fogEffect_reach (arrival : FogIn) (s : State) : Reach 0x4000300000074330000b04020980010303a411fa3b8c0120c0080000000000008fd8fcfd s (fogEffect arrival s) := by
  have h0 := Reach.refl 0x4000300000074330000b04020980010303a411fa3b8c0120c0080000000000008fd8fcfd s
  unfold fogEffect
  repeat' (first
    | with_reducible assumption
    | exact rfl
    | simp -zeta -iota -proj only [Reach1.pair_iff]
    | with_reducible exact Reach1.fst (by assumption)
    | with_reducible (first
        | refine Reach.ite ?_ ?_
        | apply Reach1.then ?_ (State.frameIn_reach ..) ?_
        | apply Reach1.fst (Reach1.then ?_ (State.frameIn_reach ..) ?_)
        | apply Reach1.then ?_ (State.takeControl_reach ..) ?_
        | apply Reach1.fst (Reach1.then ?_ (State.takeControl_reach ..) ?_)
        | apply Reach.then ?_ (State.takeFog_reach ..) ?_)
    | (split <;> try (refine Reach.cut1 (by assumption) ?_ (fun _ => ?_)))
    | split)

theorem resetEffect_reach (f : MooringFrame) (s : State) : Reach 0xfffffffffffffffffffffffffffffffffffffffffffffffffffffffff0000000efff8ffff s (resetEffect f s) := by
  have h0 := Reach.refl 0xfffffffffffffffffffffffffffffffffffffffffffffffffffffffff0000000efff8ffff s
  unfold resetEffect
  repeat' (first
    | with_reducible assumption
    | exact rfl
    | simp -zeta -iota -proj only [Reach1.pair_iff]
    | with_reducible exact Reach1.fst (by assumption)
    | with_reducible (first
        | refine Reach.ite ?_ ?_
        | apply Reach.then ?_ (State.badFrame_reach ..) ?_
        | apply Reach1.then ?_ (State.frameIn_reach ..) ?_
        | apply Reach1.fst (Reach1.then ?_ (State.frameIn_reach ..) ?_)
        | apply Reach.then ?_ (State.resetSource_reach ..) ?_)
    | (extract_lets +onlyGivenNames -underBinder -merge -useContext x; first | (refine Reach.cut x ?_ (fun _ => ?_); rotate_left; clear_value x; rotate_left; unfold x; clear x) | (refine Reach.cutP x ?_ (fun _ => ?_); rotate_left; clear_value x; rotate_left; unfold x; clear x) | (have _ := fun a => x a; unfold x; clear x) | clear_value x)
    | (split <;> try (refine Reach.cut1 (by assumption) ?_ (fun _ => ?_)))
    | split)

theorem coarseBeamEffect_reach (f : MooringFrame) (s : State) : Reach 0x40003111000650086000000000000001022411f8208000000000000000000008a0487c3d s (coarseBeamEffect f s) := by
  have h0 := Reach.refl 0x40003111000650086000000000000001022411f8208000000000000000000008a0487c3d s
  unfold coarseBeamEffect
  repeat' (first
    | with_reducible assumption
    | exact rfl
    | simp -zeta -iota -proj only [Reach1.pair_iff]
    | with_reducible exact Reach1.fst (by assumption)
    | with_reducible (first
        | refine Reach.ite ?_ ?_
        | apply Reach.then ?_ (State.correctByStep_reach ..) ?_
        | apply Reach1.then ?_ (State.frameIn_reach ..) ?_
        | apply Reach1.fst (Reach1.then ?_ (State.frameIn_reach ..) ?_))
    | (extract_lets +onlyGivenNames -underBinder -merge -useContext x; first | (refine Reach.cut x ?_ (fun _ => ?_); rotate_left; clear_value x; rotate_left; unfold x; clear x) | (refine Reach.cutP x ?_ (fun _ => ?_); rotate_left; clear_value x; rotate_left; unfold x; clear x) | (have _ := fun a => x a; unfold x; clear x) | clear_value x)
    | (split <;> try (refine Reach.cut1 (by assumption) ?_ (fun _ => ?_)))
    | split
    | with_reducible (first
        | refine Reach.set_beam ?_ ?_))

theorem coarseBeamSendEffect_reach (s : State) : Reach 0x80000000 s (coarseBeamSendEffect s) := by
  have h0 := Reach.refl 0x80000000 s
  unfold coarseBeamSendEffect
  repeat' (first
    | with_reducible assumption
    | exact rfl
    | with_reducible (first
        | refine Reach.ite ?_ ?_
        | apply Reach.then ?_ (State.sendNew_reach ..) ?_)
    | (extract_lets +onlyGivenNames -underBinder -merge -useContext x; first | (refine Reach.cut x ?_ (fun _ => ?_); rotate_left; clear_value x; rotate_left; unfold x; clear x) | (have _ := fun a => x a; unfold x; clear x) | clear_value x)
    | (split <;> try (refine Reach.cut1 (by assumption) ?_ (fun _ => ?_)))
    | split)

theorem presenceEffect_reach (f : MooringFrame) (s : State) : Reach 0xc000 s (presenceEffect f s) := by
  have h0 := Reach.refl 0xc000 s
  unfold presenceEffect
  repeat' (first
    | with_reducible assumption
    | exact rfl
    | simp -zeta -iota -proj only [Reach1.pair_iff]
    | with_reducible exact Reach1.fst (by assumption)
    | with_reducible (first
        | refine Reach.ite ?_ ?_
        | apply Reach.then ?_ (State.dput_reach ..) ?_
        | apply Reach.then ?_ (State.dputBytes_reach ..) ?_
        | apply Reach1.then ?_ (State.frameIn_reach ..) ?_
        | apply Reach1.fst (Reach1.then ?_ (State.frameIn_reach ..) ?_))
    | (extract_lets +onlyGivenNames -underBinder -merge -useContext x; first | (refine Reach.cut x ?_ (fun _ => ?_); rotate_left; clear_value x; rotate_left; unfold x; clear x) | (refine Reach.cutP x ?_ (fun _ => ?_); rotate_left; clear_value x; rotate_left; unfold x; clear x) | (have _ := fun a => x a; unfold x; clear x) | clear_value x)
    | (split <;> try (refine Reach.cut1 (by assumption) ?_ (fun _ => ?_)))
    | split)

theorem presenceSendEffect_reach (s : State) : Reach 0x80000000 s (presenceSendEffect s) := by
  have h0 := Reach.refl 0x80000000 s
  unfold presenceSendEffect
  repeat' (first
    | with_reducible assumption
    | exact rfl
    | with_reducible (first
        | refine Reach.ite ?_ ?_
        | apply Reach.then ?_ (State.sendNew_reach ..) ?_)
    | (split <;> try (refine Reach.cut1 (by assumption) ?_ (fun _ => ?_)))
    | split)

end Sys2Proof.Machine
end

