-- ==== Sys2Proof/Laws/ReachHostIf.lean ====
section
/-!
SUPPORT. The footprint of each function of Machine/HostIf.lean.
-/
set_option linter.unusedTactic false
set_option linter.unreachableTactic false
namespace Sys2Proof.Machine

theorem State.complete_reach (s : State) (c : HostCompletion) : Reach 0x400000000 s (State.complete s c) := by
  have h0 := Reach.refl 0x400000000 s
  unfold State.complete
  repeat' (first
    | with_reducible assumption
    | exact rfl
    | with_reducible (first
        | refine Reach.set_keeper ?_ ?_))

theorem apertureAccessEffect_reach (aperture : Fin 16) (offset : BitVec 32) (access : HostAccess) (s : State) : Reach 0x58001000000000000000000000000001022011f83b000000c00000000000000400087c1d s (apertureAccessEffect aperture offset access s) := by
  have h0 := Reach.refl 0x58001000000000000000000000000001022011f83b000000c00000000000000400087c1d s
  unfold apertureAccessEffect
  repeat' (first
    | with_reducible assumption
    | exact rfl
    | simp -zeta -iota -proj only [Reach1.pair_iff]
    | with_reducible exact Reach1.fst (by assumption)
    | with_reducible (first
        | refine Reach.bump ?_ ?_
        | refine Reach.ite ?_ ?_
        | refine Reach1.ite ?_ ?_
        | refine Reach.foldl _ ?_ (fun _ _ _ => ?_)
        | refine Reach1.foldl _ ?_ (fun _ _ _ => ?_)
        | refine Reach1.fst (Reach1.foldl _ ?_ (fun _ _ _ => ?_))
        | apply Reach.then ?_ (State.complete_reach ..) ?_
        | apply Reach.then ?_ (State.devWrite_reach ..) ?_
        | apply Reach.then ?_ (State.didRead_reach ..) ?_)
    | (extract_lets +onlyGivenNames -underBinder -merge -useContext x; first | (refine Reach.cut x ?_ (fun _ => ?_); rotate_left; clear_value x; rotate_left; unfold x; clear x) | (refine Reach.cutP x ?_ (fun _ => ?_); rotate_left; clear_value x; rotate_left; unfold x; clear x) | (have _ := fun a => x a; unfold x; clear x) | clear_value x)
    | (split <;> try (refine Reach.cut1 (by assumption) ?_ (fun _ => ?_)))
    | split)

theorem State.putMsix_reach (s : State) (v : Nat) (e : MsixEntry) : Reach 0x2000000 s (State.putMsix s v e) := by
  have h0 := Reach.refl 0x2000000 s
  unfold State.putMsix
  repeat' (first
    | with_reducible assumption
    | exact rfl
    | with_reducible (first
        | refine Reach.ite ?_ ?_
        | apply Reach.then ?_ (State.sendIrq_reach ..) ?_)
    | (extract_lets +onlyGivenNames -underBinder -merge -useContext x; first | (refine Reach.cut x ?_ (fun _ => ?_); rotate_left; clear_value x; rotate_left; unfold x; clear x) | (have _ := fun a => x a; unfold x; clear x) | clear_value x)
    | (split <;> try (refine Reach.cut1 (by assumption) ?_ (fun _ => ?_)))
    | split
    | with_reducible (first
        | refine Reach.set_host ?_ ?_))

theorem State.bar0Write_reach (s : State) (o : Nat) (v : Word) : Reach 0xfffffffffffffffffffffffffffffffffffffffffffffffffffffffff000000165fd87cfd s (State.bar0Write s o v) := by
  have h0 := Reach.refl 0xfffffffffffffffffffffffffffffffffffffffffffffffffffffffff000000165fd87cfd s
  unfold State.bar0Write
  repeat' (first
    | with_reducible assumption
    | exact rfl
    | with_reducible (first
        | refine Reach.bump ?_ ?_
        | refine Reach.ite ?_ ?_
        | apply Reach.then ?_ (State.cfgWrite_reach ..) ?_
        | apply Reach.then ?_ (State.putMsix_reach ..) ?_)
    | (extract_lets +onlyGivenNames -underBinder -merge -useContext x; first | (refine Reach.cut x ?_ (fun _ => ?_); rotate_left; clear_value x; rotate_left; unfold x; clear x) | (have _ := fun a => x a; unfold x; clear x) | clear_value x)
    | (split <;> try (refine Reach.cut1 (by assumption) ?_ (fun _ => ?_)))
    | split
    | with_reducible (first
        | refine Reach.set_keeper ?_ ?_
        | refine Reach.set_sram ?_ ?_))

theorem configViewAccessEffect_reach (offset : BitVec 27) (value : Option Word) (s : State) : Reach 0xfffffffffffffffffffffffffffffffffffffffffffffffffffffffff000000165fd87cfd s (configViewAccessEffect offset value s) := by
  have h0 := Reach.refl 0xfffffffffffffffffffffffffffffffffffffffffffffffffffffffff000000165fd87cfd s
  unfold configViewAccessEffect
  repeat' (first
    | with_reducible assumption
    | exact rfl
    | with_reducible (first
        | refine Reach.ite ?_ ?_
        | apply Reach.then ?_ (State.bar0Write_reach ..) ?_
        | apply Reach.then ?_ (State.complete_reach ..) ?_)
    | (split <;> try (refine Reach.cut1 (by assumption) ?_ (fun _ => ?_)))
    | split)

theorem State.poisonRun_reach (s : State) (pa : Nat) (n : Nat) : Reach 0x18 s (State.poisonRun s pa n) := by
  have h0 := Reach.refl 0x18 s
  unfold State.poisonRun
  repeat' (first
    | with_reducible assumption
    | exact rfl
    | simp -zeta -iota -proj only [Reach1.pair_iff]
    | with_reducible exact Reach1.fst (by assumption)
    | with_reducible (first
        | refine Reach.foldl _ ?_ (fun _ _ _ => ?_)
        | refine Reach1.foldl _ ?_ (fun _ _ _ => ?_)
        | refine Reach1.fst (Reach1.foldl _ ?_ (fun _ _ _ => ?_))
        | apply Reach.then ?_ (State.markPoison_reach ..) ?_))

theorem hostWindowAccessEffect_reach (offset : BitVec 42) (access : WindowAccess) (linkUp : Bool) (work : Option ChainRef) (s : State) : Reach 0x4000200000000000000000000000000000000002000c0120000800000000000000583cfd s (hostWindowAccessEffect offset access linkUp work s) := by
  have h0 := Reach.refl 0x4000200000000000000000000000000000000002000c0120000800000000000000583cfd s
  unfold hostWindowAccessEffect
  repeat' (first
    | with_reducible assumption
    | exact rfl
    | with_reducible (first
        | refine Reach.bump ?_ ?_
        | refine Reach.ite ?_ ?_
        | apply Reach.then ?_ (State.endChain_reach ..) ?_
        | apply Reach.then ?_ (State.poisonRun_reach ..) ?_
        | apply Reach.then ?_ (State.putRaw_reach ..) ?_)
    | (extract_lets +onlyGivenNames -underBinder -merge -useContext x; first | (refine Reach.cut x ?_ (fun _ => ?_); rotate_left; clear_value x; rotate_left; unfold x; clear x) | (have _ := fun a => x a; unfold x; clear x) | clear_value x)
    | (split <;> try (refine Reach.cut1 (by assumption) ?_ (fun _ => ?_)))
    | split)

theorem State.takeHcmd_reach (s : State) (x : BitVec 512) : Reach 0x2428030110007433057eb24020001010303a411fa3b8c0120c008000000000017efd9fcfd s (State.takeHcmd s x) := by
  have h0 := Reach.refl 0x2428030110007433057eb24020001010303a411fa3b8c0120c008000000000017efd9fcfd s
  unfold State.takeHcmd
  repeat' (first
    | with_reducible assumption
    | exact rfl
    | with_reducible (first
        | refine Reach.setFld ?_ ?_
        | refine Reach.ite ?_ ?_
        | apply Reach.then ?_ (State.request_reach ..) ?_)
    | (extract_lets +onlyGivenNames -underBinder -merge -useContext x; first | (refine Reach.cut x ?_ (fun _ => ?_); rotate_left; clear_value x; rotate_left; unfold x; clear x) | (have _ := fun a => x a; unfold x; clear x) | clear_value x)
    | (split <;> try (refine Reach.cut1 (by assumption) ?_ (fun _ => ?_)))
    | split)

theorem State.takeHcmds_reach (s : State) (y0 : List (BitVec 512)) : Reach 0x2428030110007433057eb24020001010303a411fa3b8c0120c008000000000017efd9fcfd s (State.takeHcmds s y0) := by
  induction y0 generalizing s with
  | nil =>
    have h0 := Reach.refl 0x2428030110007433057eb24020001010303a411fa3b8c0120c008000000000017efd9fcfd s
    unfold State.takeHcmds
    repeat' (first
    | with_reducible assumption
    | exact rfl
    | with_reducible (first
        | refine Reach.ite ?_ ?_
        | apply Reach.then ?_ (State.takeHcmd_reach ..) ?_
        | apply Reach.then ?_ (ih ..) ?_)
    | (split <;> try (refine Reach.cut1 (by assumption) ?_ (fun _ => ?_)))
    | split)
  | cons _ _ ih =>
    have h0 := Reach.refl 0x2428030110007433057eb24020001010303a411fa3b8c0120c008000000000017efd9fcfd s
    unfold State.takeHcmds
    repeat' (first
    | with_reducible assumption
    | exact rfl
    | with_reducible (first
        | refine Reach.ite ?_ ?_
        | apply Reach.then ?_ (State.takeHcmd_reach ..) ?_
        | apply Reach.then ?_ (ih ..) ?_)
    | (split <;> try (refine Reach.cut1 (by assumption) ?_ (fun _ => ?_)))
    | split)

theorem hcmdPollEffect_reach (entries : List (BitVec 512)) (s : State) : Reach 0x2428030110007433057eb24020001010303a411fa3b8c0120c008000000000017efd9fcfd s (hcmdPollEffect entries s) := by
  have h0 := Reach.refl 0x2428030110007433057eb24020001010303a411fa3b8c0120c008000000000017efd9fcfd s
  unfold hcmdPollEffect
  repeat' (first
    | with_reducible assumption
    | exact rfl
    | with_reducible (first
        | refine Reach.ite ?_ ?_
        | apply Reach.then ?_ (State.takeHcmds_reach ..) ?_)
    | (split <;> try (refine Reach.cut1 (by assumption) ?_ (fun _ => ?_)))
    | split)

end Sys2Proof.Machine
end

