-- ==== Sys2Proof/Laws/ReachTraceSink.lean ====
section
/-!
SUPPORT. The footprint of each function of Machine/TraceSink.lean.
-/
set_option linter.unusedTactic false
set_option linter.unreachableTactic false
namespace Sys2Proof.Machine

theorem traceSinkWriteEffect_reach (die : Fin 2) (source : Byte) (hostFail : Bool) (s : State) : Reach 0x4000f040000000000000000000000001022011f820000000000000000000000000487c1d s (traceSinkWriteEffect die source hostFail s) := by
  have h0 := Reach.refl 0x4000f040000000000000000000000001022011f820000000000000000000000000487c1d s
  unfold traceSinkWriteEffect
  repeat' (first
    | with_reducible assumption
    | exact rfl
    | with_reducible (first
        | refine Reach.bump ?_ ?_
        | refine Reach.setFld ?_ ?_
        | refine Reach.ite ?_ ?_
        | apply Reach.then ?_ (State.devWriteWords_reach ..) ?_)
    | (extract_lets +onlyGivenNames -underBinder -merge -useContext x; first | (refine Reach.cut x ?_ (fun _ => ?_); rotate_left; clear_value x; rotate_left; unfold x; clear x) | (have _ := fun a => x a; unfold x; clear x) | clear_value x)
    | (split <;> try (refine Reach.cut1 (by assumption) ?_ (fun _ => ?_)))
    | split
    | with_reducible (first
        | refine Reach.set_trace ?_ ?_
        | refine Reach.set_sram ?_ ?_))

end Sys2Proof.Machine
end

