-- ==== Sys2Proof/Laws/ReachUcie.lean ====
section
/-!
SUPPORT. The footprint of each function of Machine/Ucie.lean.
-/
set_option linter.unusedTactic false
set_option linter.unreachableTactic false
namespace Sys2Proof.Machine

theorem State.ucieIn_reach (s : State) (p : UciePort) (t : UcieTxn) (ttype : Nat) : Reach1 0x40000000000000000000000000000000000000000000000000000000000000 s (State.ucieIn s p t ttype) := by
  have h0 := Reach.refl 0x40000000000000000000000000000000000000000000000000000000000000 s
  unfold State.ucieIn
  repeat' (first
    | with_reducible assumption
    | exact rfl
    | simp -zeta -iota -proj only [Reach1.pair_iff]
    | with_reducible exact Reach1.fst (by assumption)
    | with_reducible (first
        | refine Reach.bump ?_ ?_
        | refine Reach.ite ?_ ?_
        | refine Reach1.ite ?_ ?_)
    | (split <;> try (first | refine Reach1.cut1 (by assumption) ?_ (fun _ => ?_) | refine Reach.cut1 (by assumption) ?_ (fun _ => ?_)))
    | split)

theorem State.countBadLines_reach (s : State) (p : UciePort) (t : UcieTxn) : Reach 0x80000000000000000000000000000000000000000000000000000000000000 s (State.countBadLines s p t) := by
  have h0 := Reach.refl 0x80000000000000000000000000000000000000000000000000000000000000 s
  unfold State.countBadLines
  repeat' (first
    | with_reducible assumption
    | exact rfl
    | with_reducible (first
        | refine Reach.bump ?_ ?_))

theorem State.respond_reach (s : State) (m : UcieMsg) : Reach 0x400000000 s (State.respond s m) := by
  have h0 := Reach.refl 0x400000000 s
  unfold State.respond
  repeat' (first
    | with_reducible assumption
    | exact rfl
    | with_reducible (first
        | refine Reach.set_keeper ?_ ?_))

theorem readReqEffect_reach (p : UciePort) (t : UcieTxn) (s : State) : Reach 0x1000004000000000000000000001022011f83b000000c00000000000000400087c1d s (readReqEffect p t s) := by
  have h0 := Reach.refl 0x1000004000000000000000000001022011f83b000000c00000000000000400087c1d s
  unfold readReqEffect
  repeat' (first
    | with_reducible assumption
    | exact rfl
    | simp -zeta -iota -proj only [Reach1.pair_iff]
    | with_reducible exact Reach1.fst (by assumption)
    | with_reducible (first
        | refine Reach.ite ?_ ?_
        | refine Reach1.ite ?_ ?_
        | refine Reach.foldl _ ?_ (fun _ _ _ => ?_)
        | refine Reach1.foldl _ ?_ (fun _ _ _ => ?_)
        | refine Reach1.fst (Reach1.foldl _ ?_ (fun _ _ _ => ?_))
        | apply Reach.then ?_ (State.didRead_reach ..) ?_
        | apply Reach.then ?_ (State.respond_reach ..) ?_
        | apply Reach1.then ?_ (State.ucieIn_reach ..) ?_
        | apply Reach1.fst (Reach1.then ?_ (State.ucieIn_reach ..) ?_))
    | (extract_lets +onlyGivenNames -underBinder -merge -useContext x; first | (refine Reach.cut x ?_ (fun _ => ?_); rotate_left; clear_value x; rotate_left; unfold x; clear x) | (refine Reach.cutP x ?_ (fun _ => ?_); rotate_left; clear_value x; rotate_left; unfold x; clear x) | (have _ := fun a => x a; unfold x; clear x) | clear_value x)
    | (split <;> try (refine Reach.cut1 (by assumption) ?_ (fun _ => ?_)))
    | split)

theorem State.takeResponse_reach (s : State) (p : UciePort) (t : UcieTxn) : Reach 0x80000000000000000000000000000000000000000000000000000400000000 s (State.takeResponse s p t) := by
  have h0 := Reach.refl 0x80000000000000000000000000000000000000000000000000000400000000 s
  unfold State.takeResponse
  repeat' (first
    | with_reducible assumption
    | exact rfl
    | with_reducible (first
        | apply Reach.then ?_ (State.countBadLines_reach ..) ?_)
    | (extract_lets +onlyGivenNames -underBinder -merge -useContext x; first | (refine Reach.cut x ?_ (fun _ => ?_); rotate_left; clear_value x; rotate_left; unfold x; clear x) | (have _ := fun a => x a; unfold x; clear x) | clear_value x)
    | with_reducible (first
        | refine Reach.set_keeper ?_ ?_))

theorem readDataEffect_reach (p : UciePort) (t : UcieTxn) (s : State) : Reach 0xc0000000000000000000000000000000000000000000000000000400000000 s (readDataEffect p t s) := by
  have h0 := Reach.refl 0xc0000000000000000000000000000000000000000000000000000400000000 s
  unfold readDataEffect
  repeat' (first
    | with_reducible assumption
    | exact rfl
    | simp -zeta -iota -proj only [Reach1.pair_iff]
    | with_reducible exact Reach1.fst (by assumption)
    | with_reducible (first
        | apply Reach.then ?_ (State.takeResponse_reach ..) ?_
        | apply Reach1.then ?_ (State.ucieIn_reach ..) ?_
        | apply Reach1.fst (Reach1.then ?_ (State.ucieIn_reach ..) ?_))
    | (split <;> try (refine Reach.cut1 (by assumption) ?_ (fun _ => ?_)))
    | split)

theorem cfgReadEffect_reach (p : UciePort) (t : UcieTxn) (s : State) : Reach 0x40000000000000000000000000000000000000000000000000000400000000 s (cfgReadEffect p t s) := by
  have h0 := Reach.refl 0x40000000000000000000000000000000000000000000000000000400000000 s
  unfold cfgReadEffect
  repeat' (first
    | with_reducible assumption
    | exact rfl
    | simp -zeta -iota -proj only [Reach1.pair_iff]
    | with_reducible exact Reach1.fst (by assumption)
    | with_reducible (first
        | apply Reach.then ?_ (State.respond_reach ..) ?_
        | apply Reach1.then ?_ (State.ucieIn_reach ..) ?_
        | apply Reach1.fst (Reach1.then ?_ (State.ucieIn_reach ..) ?_))
    | (extract_lets +onlyGivenNames -underBinder -merge -useContext x; first | (refine Reach.cut x ?_ (fun _ => ?_); rotate_left; clear_value x; rotate_left; unfold x; clear x) | (refine Reach.cutP x ?_ (fun _ => ?_); rotate_left; clear_value x; rotate_left; unfold x; clear x) | (have _ := fun a => x a; unfold x; clear x) | clear_value x)
    | (split <;> try (refine Reach.cut1 (by assumption) ?_ (fun _ => ?_)))
    | split)

theorem cfgDataEffect_reach (p : UciePort) (t : UcieTxn) (s : State) : Reach 0xc0000000000000000000000000000000000000000000000000000400000000 s (cfgDataEffect p t s) := by
  have h0 := Reach.refl 0xc0000000000000000000000000000000000000000000000000000400000000 s
  unfold cfgDataEffect
  repeat' (first
    | with_reducible assumption
    | exact rfl
    | simp -zeta -iota -proj only [Reach1.pair_iff]
    | with_reducible exact Reach1.fst (by assumption)
    | with_reducible (first
        | apply Reach.then ?_ (State.takeResponse_reach ..) ?_
        | apply Reach1.then ?_ (State.ucieIn_reach ..) ?_
        | apply Reach1.fst (Reach1.then ?_ (State.ucieIn_reach ..) ?_))
    | (split <;> try (refine Reach.cut1 (by assumption) ?_ (fun _ => ?_)))
    | split)

theorem State.writePartSector_reach (s : State) (a : Access) (pa : Nat) (m : Nat) (bs : List Byte) : Reach 0x40001000000000000000000000000001022011f820000000000000000000000000087c1d s (State.writePartSector s a pa m bs) := by
  have h0 := Reach.refl 0x40001000000000000000000000000001022011f820000000000000000000000000087c1d s
  unfold State.writePartSector
  repeat' (first
    | with_reducible assumption
    | exact rfl
    | simp -zeta -iota -proj only [Reach1.pair_iff]
    | with_reducible exact Reach1.fst (by assumption)
    | with_reducible (first
        | refine Reach.bump ?_ ?_
        | refine Reach.ite ?_ ?_
        | refine Reach1.ite ?_ ?_
        | refine Reach.foldl _ ?_ (fun _ _ _ => ?_)
        | refine Reach1.foldl _ ?_ (fun _ _ _ => ?_)
        | refine Reach1.fst (Reach1.foldl _ ?_ (fun _ _ _ => ?_))
        | apply Reach.then ?_ (State.devWrite_reach ..) ?_)
    | (extract_lets +onlyGivenNames -underBinder -merge -useContext x; first | (refine Reach.cut x ?_ (fun _ => ?_); rotate_left; clear_value x; rotate_left; unfold x; clear x) | (refine Reach.cutP x ?_ (fun _ => ?_); rotate_left; clear_value x; rotate_left; unfold x; clear x) | (have _ := fun a => x a; unfold x; clear x) | clear_value x)
    | (split <;> try (refine Reach.cut1 (by assumption) ?_ (fun _ => ?_)))
    | split)

theorem State.writeUcieLine_reach (s : State) (a : Access) (pa : Nat) (l : LineSeg) (mask : BitVec 128) : Reach 0x40001000000000000000000000000001022011f820000000000000000000000000087c1d s (State.writeUcieLine s a pa l mask) := by
  have h0 := Reach.refl 0x40001000000000000000000000000001022011f820000000000000000000000000087c1d s
  unfold State.writeUcieLine
  repeat' (first
    | with_reducible assumption
    | exact rfl
    | simp -zeta -iota -proj only [Reach1.pair_iff]
    | with_reducible exact Reach1.fst (by assumption)
    | with_reducible (first
        | refine Reach.ite ?_ ?_
        | refine Reach1.ite ?_ ?_
        | refine Reach.foldl _ ?_ (fun _ _ _ => ?_)
        | refine Reach1.foldl _ ?_ (fun _ _ _ => ?_)
        | refine Reach1.fst (Reach1.foldl _ ?_ (fun _ _ _ => ?_))
        | apply Reach.then ?_ (State.devWrite_reach ..) ?_
        | apply Reach.then ?_ (State.leavePoison_reach ..) ?_
        | apply Reach.then ?_ (State.writePartSector_reach ..) ?_)
    | (extract_lets +onlyGivenNames -underBinder -merge -useContext x; first | (refine Reach.cut x ?_ (fun _ => ?_); rotate_left; clear_value x; rotate_left; unfold x; clear x) | (refine Reach.cutP x ?_ (fun _ => ?_); rotate_left; clear_value x; rotate_left; unfold x; clear x) | (have _ := fun a => x a; unfold x; clear x) | clear_value x)
    | (split <;> try (refine Reach.cut1 (by assumption) ?_ (fun _ => ?_)))
    | split)

theorem writeEffect_reach (p : UciePort) (t : UcieTxn) (s : State) : Reach 0x4000300000c200c0000000000000600143a011fe3b0f6120d80dff0c0000001002787dff s (writeEffect p t s) := by
  have h0 := Reach.refl 0x4000300000c200c0000000000000600143a011fe3b0f6120d80dff0c0000001002787dff s
  unfold writeEffect
  repeat' (first
    | with_reducible assumption
    | exact rfl
    | simp -zeta -iota -proj only [Reach1.pair_iff]
    | with_reducible exact Reach1.fst (by assumption)
    | with_reducible (first
        | refine Reach.ite ?_ ?_
        | refine Reach1.ite ?_ ?_
        | refine Reach.foldl _ ?_ (fun _ _ _ => ?_)
        | refine Reach1.foldl _ ?_ (fun _ _ _ => ?_)
        | refine Reach1.fst (Reach1.foldl _ ?_ (fun _ _ _ => ?_))
        | apply Reach.then ?_ (State.countBadLines_reach ..) ?_
        | apply Reach.then ?_ (State.settleBig_reach ..) ?_
        | apply Reach1.then ?_ (State.ucieIn_reach ..) ?_
        | apply Reach1.fst (Reach1.then ?_ (State.ucieIn_reach ..) ?_)
        | apply Reach.then ?_ (State.writeUcieLine_reach ..) ?_)
    | (extract_lets +onlyGivenNames -underBinder -merge -useContext x; first | (refine Reach.cut x ?_ (fun _ => ?_); rotate_left; clear_value x; rotate_left; unfold x; clear x) | (refine Reach.cutP x ?_ (fun _ => ?_); rotate_left; clear_value x; rotate_left; unfold x; clear x) | (have _ := fun a => x a; unfold x; clear x) | clear_value x)
    | (split <;> try (refine Reach.cut1 (by assumption) ?_ (fun _ => ?_)))
    | split)

theorem cfgWriteEffect_reach (p : UciePort) (t : UcieTxn) (s : State) : Reach 0xfffffffffffffffffffffffffffffffffffffffffffffffffffffffff000000165fd87cfd s (cfgWriteEffect p t s) := by
  have h0 := Reach.refl 0xfffffffffffffffffffffffffffffffffffffffffffffffffffffffff000000165fd87cfd s
  unfold cfgWriteEffect
  repeat' (first
    | with_reducible assumption
    | exact rfl
    | simp -zeta -iota -proj only [Reach1.pair_iff]
    | with_reducible exact Reach1.fst (by assumption)
    | with_reducible (first
        | refine Reach.ite ?_ ?_
        | apply Reach.then ?_ (State.cfgWrite_reach ..) ?_
        | apply Reach.then ?_ (State.countBadLines_reach ..) ?_
        | apply Reach1.then ?_ (State.ucieIn_reach ..) ?_
        | apply Reach1.fst (Reach1.then ?_ (State.ucieIn_reach ..) ?_)
        | exact testBit_mono (allRegs_bit _) rfl)
    | (extract_lets +onlyGivenNames -underBinder -merge -useContext x; first | (refine Reach.cut x ?_ (fun _ => ?_); rotate_left; clear_value x; rotate_left; unfold x; clear x) | (refine Reach.cutP x ?_ (fun _ => ?_); rotate_left; clear_value x; rotate_left; unfold x; clear x) | (have _ := fun a => x a; unfold x; clear x) | clear_value x)
    | (split <;> try (refine Reach.cut1 (by assumption) ?_ (fun _ => ?_)))
    | split)

theorem postEffect_reach (p : UciePort) (t : UcieTxn) (item : PostItem) (s : State) : Reach 0x44000000000000000000000000000400000000000000000000000000000000 s (postEffect p t item s) := by
  have h0 := Reach.refl 0x44000000000000000000000000000400000000000000000000000000000000 s
  unfold postEffect
  repeat' (first
    | with_reducible assumption
    | exact rfl
    | simp -zeta -iota -proj only [Reach1.pair_iff]
    | with_reducible exact Reach1.fst (by assumption)
    | with_reducible (first
        | refine Reach.wr ?_ ?_
        | refine Reach.ite ?_ ?_
        | apply Reach.then ?_ (State.putToken_reach ..) ?_
        | apply Reach1.then ?_ (State.ucieIn_reach ..) ?_
        | apply Reach1.fst (Reach1.then ?_ (State.ucieIn_reach ..) ?_))
    | (split <;> try (refine Reach.cut1 (by assumption) ?_ (fun _ => ?_)))
    | split)

theorem eventEffect_reach (p : UciePort) (t : UcieTxn) (s : State) : Reach 0xc0000000000000000000000000000000000000000000000000000400000000 s (eventEffect p t s) := by
  have h0 := Reach.refl 0xc0000000000000000000000000000000000000000000000000000400000000 s
  unfold eventEffect
  repeat' (first
    | with_reducible assumption
    | exact rfl
    | simp -zeta -iota -proj only [Reach1.pair_iff]
    | with_reducible exact Reach1.fst (by assumption)
    | with_reducible (first
        | refine Reach.ite ?_ ?_
        | apply Reach.then ?_ (State.countBadLines_reach ..) ?_
        | apply Reach1.then ?_ (State.ucieIn_reach ..) ?_
        | apply Reach1.fst (Reach1.then ?_ (State.ucieIn_reach ..) ?_))
    | (extract_lets +onlyGivenNames -underBinder -merge -useContext x; first | (refine Reach.cut x ?_ (fun _ => ?_); rotate_left; clear_value x; rotate_left; unfold x; clear x) | (refine Reach.cutP x ?_ (fun _ => ?_); rotate_left; clear_value x; rotate_left; unfold x; clear x) | (have _ := fun a => x a; unfold x; clear x) | clear_value x)
    | (split <;> try (refine Reach.cut1 (by assumption) ?_ (fun _ => ?_)))
    | split
    | with_reducible (first
        | refine Reach.set_keeper ?_ ?_))

theorem ucieRetrainEffect_reach (p : UciePort) (s : State) : Reach 0x28000000000000000000000000000000000000000000000000000000000000 s (ucieRetrainEffect p s) := by
  have h0 := Reach.refl 0x28000000000000000000000000000000000000000000000000000000000000 s
  unfold ucieRetrainEffect
  repeat' (first
    | with_reducible assumption
    | exact rfl
    | simp -zeta -iota -proj only [Reach1.pair_iff]
    | with_reducible exact Reach1.fst (by assumption)
    | with_reducible (first
        | refine Reach.bump ?_ ?_
        | refine Reach.setFld ?_ ?_
        | refine Reach.ite ?_ ?_
        | refine Reach1.ite ?_ ?_
        | refine Reach.foldl _ ?_ (fun _ _ _ => ?_)
        | refine Reach1.foldl _ ?_ (fun _ _ _ => ?_)
        | refine Reach1.fst (Reach1.foldl _ ?_ (fun _ _ _ => ?_)))
    | (split <;> try (refine Reach.cut1 (by assumption) ?_ (fun _ => ?_)))
    | split)

theorem State.linkLost_reach (s : State) (p : UciePort) (readers : List ChainRef) : Reach 0x200000000000000000000000000000000002000c01200008000000000004005834e0 s (State.linkLost s p readers) := by
  have h0 := Reach.refl 0x200000000000000000000000000000000002000c01200008000000000004005834e0 s
  unfold State.linkLost
  repeat' (first
    | with_reducible assumption
    | exact rfl
    | simp -zeta -iota -proj only [Reach1.pair_iff]
    | with_reducible exact Reach1.fst (by assumption)
    | with_reducible (first
        | refine Reach.foldl _ ?_ (fun _ _ _ => ?_)
        | refine Reach1.foldl _ ?_ (fun _ _ _ => ?_)
        | refine Reach1.fst (Reach1.foldl _ ?_ (fun _ _ _ => ?_))
        | apply Reach.then ?_ (State.endChain_reach ..) ?_)
    | (extract_lets +onlyGivenNames -underBinder -merge -useContext x; first | (refine Reach.cut x ?_ (fun _ => ?_); rotate_left; clear_value x; rotate_left; unfold x; clear x) | (refine Reach.cutP x ?_ (fun _ => ?_); rotate_left; clear_value x; rotate_left; unfold x; clear x) | (have _ := fun a => x a; unfold x; clear x) | clear_value x)
    | (split <;> try (refine Reach.cut1 (by assumption) ?_ (fun _ => ?_)))
    | split
    | dsimp -zeta only []
    | with_reducible (first
        | refine Reach.set_keeper ?_ ?_))

theorem ucieRetrainDoneEffect_reach (p : UciePort) (failed : BitVec 24) (readers : List ChainRef) (s : State) : Reach 0x200000080000000000000000000000000002000c01200008000000000004005874e0 s (ucieRetrainDoneEffect p failed readers s) := by
  have h0 := Reach.refl 0x200000080000000000000000000000000002000c01200008000000000004005874e0 s
  unfold ucieRetrainDoneEffect
  repeat' (first
    | with_reducible assumption
    | exact rfl
    | simp -zeta -iota -proj only [Reach1.pair_iff]
    | with_reducible exact Reach1.fst (by assumption)
    | with_reducible (first
        | refine Reach.ite ?_ ?_
        | refine Reach1.ite ?_ ?_
        | refine Reach.foldl _ ?_ (fun _ _ _ => ?_)
        | refine Reach1.foldl _ ?_ (fun _ _ _ => ?_)
        | refine Reach1.fst (Reach1.foldl _ ?_ (fun _ _ _ => ?_))
        | apply Reach.then ?_ (State.dput_reach ..) ?_
        | apply Reach.then ?_ (State.linkLost_reach ..) ?_
        | apply Reach.then ?_ (State.trainUcie_reach ..) ?_)
    | (extract_lets +onlyGivenNames -underBinder -merge -useContext x; first | (refine Reach.cut x ?_ (fun _ => ?_); rotate_left; clear_value x; rotate_left; unfold x; clear x) | (refine Reach.cutP x ?_ (fun _ => ?_); rotate_left; clear_value x; rotate_left; unfold x; clear x) | (have _ := fun a => x a; unfold x; clear x) | clear_value x)
    | (split <;> try (refine Reach.cut1 (by assumption) ?_ (fun _ => ?_)))
    | split)

end Sys2Proof.Machine
end

