-- ==== Sys2Proof/Laws/ExecKeeper.lean ====
section
/-!
SUPPORT. Every command answers a next state, and the footprint of its effect: Machine/Resets.lean, Machine/RegWrite.lean, Machine/Recovery.lean, Machine/Security.lean, Machine/Dict.lean, Machine/MooringBus.lean, Machine/Ucie.lean, Machine/HostIf.lean, Machine/TraceSink.lean.
-/
set_option linter.unusedTactic false
set_option linter.unreachableTactic false
namespace Sys2Proof.Machine

theorem execPorN_reach (low : Bool) (s : State) : ∃ t, execPorN low s = .next t ∧ Reach 0xfffffffffffffffffffffffffffffffffffffffffffffffffffffffff0000000efff8ffff s t := ⟨_, rfl, porNEffect_reach ..⟩

theorem execRailOutOfWindow_reach (rail : Fin 13) (us : BitVec 32) (s : State) : ∃ t, execRailOutOfWindow rail us s = .next t ∧ Reach 0xfffffffffffffffffffffffffffffffffffffffffffffffffffffffff0000000efff8ffff s t := ⟨_, rfl, railOutOfWindowEffect_reach ..⟩

theorem execPerst_reach (asserted : Bool) (s : State) : ∃ t, execPerst asserted s = .next t ∧ Reach 0xfffffffffffffffffffffffffffffffffffffffffffffffffffffffff0000000efff8ffff s t := ⟨_, rfl, perstEffect_reach ..⟩

theorem execTempSample_reach (reading : TempReading) (s : State) : ∃ t, execTempSample reading s = .next t ∧ Reach 0xfffffffffffffffffffffffffffffffffffffffffffffffffffffffff0000000efff8ffff s t := ⟨_, rfl, tempSampleEffect_reach ..⟩

theorem execThermalRelease_reach (reading : TempReading) (s : State) : ∃ t, execThermalRelease reading s = .next t ∧ Reach 0x40004000 s t := ⟨_, rfl, thermalReleaseEffect_reach ..⟩

theorem execWatchdogExpiry_reach (serviced : Bool) (s : State) : ∃ t, execWatchdogExpiry serviced s = .next t ∧ Reach 0xfffffffffffffffffffffffffffffffffffffffffffffffffffffffff0000000efff8ffff s t := ⟨_, rfl, watchdogExpiryEffect_reach ..⟩

theorem execResetRequestDelayExpiry_reach (s : State) : ∃ t, execResetRequestDelayExpiry s = .next t ∧ Reach 0xfffffffffffffffffffffffffffffffffffffffffffffffffffffffff0000001ffff9ffff s t := ⟨_, rfl, resetRequestDelayExpiryEffect_reach ..⟩

theorem execCriticalStateError_reach (die : Fin 2) (unit : BitVec 3) (index : BitVec 16) (double : Bool) (since : BitVec 32) (copyBad : Bool) (s : State) : ∃ t, execCriticalStateError die unit index double since copyBad s = .next t ∧ Reach 0xfffffffffffffffffffffffffffffffffffffffffffffffffffffffff0000000efff8ffff s t := ⟨_, rfl, criticalStateErrorEffect_reach ..⟩

theorem execFunctionLevelReset_reach (s : State) : ∃ t, execFunctionLevelReset s = .next t ∧ Reach 0xfffffffffffffffffffffffffffffffffffffffffffffffffffffffff0000000002000000 s t := ⟨_, rfl, functionLevelResetEffect_reach ..⟩

theorem execRstBlockCmd_reach (die : Fin 2) (value : Word) (s : State) : ∃ t, execRstBlockCmd die value s = .next t ∧ Reach 0x2600000000000000000000000004000000800000000000000000001040000800 s t := by
  refine ⟨_, rfl, ?_⟩
  have h0 := Reach.refl 0x2600000000000000000000000004000000800000000000000000001040000800 s
  repeat' (first
    | with_reducible assumption
    | exact rfl
    | with_reducible (first
        | apply Reach.then ?_ (State.blockCmd_reach ..) ?_))

theorem execBlockResetExecute_reach (block : BlockId) (us : BitVec 32) (outstanding : BitVec 24) (s : State) : ∃ t, execBlockResetExecute block us outstanding s = .next t ∧ Reach 0x200014000000000000000000000000000002000c01200008000400000000405835f7 s t := ⟨_, rfl, blockResetExecuteEffect_reach ..⟩

theorem execBlockResetRelease_reach (block : BlockId) (s : State) : ∃ t, execBlockResetRelease block s = .next t ∧ Reach 0x20000c00000000000000000000000004000000800000000800000000001040400860 s t := ⟨_, rfl, blockResetReleaseEffect_reach ..⟩

theorem execReleaseStep_reach (input : ReleaseInput) (s : State) : ∃ t, execReleaseStep input s = .next t ∧ Reach 0xfffffffffffffffffffffffffffffffffffffffffffffffffffffffff0000000762097c1d s t := ⟨_, rfl, releaseStepEffect_reach ..⟩

theorem execFabricTrainTimeout_reach (ms : BitVec 32) (s : State) : ∃ t, execFabricTrainTimeout ms s = .next t ∧ Reach 0x100000000000000000000000000000000000000000000000000000000000042004000 s t := ⟨_, rfl, fabricTrainTimeoutEffect_reach ..⟩

theorem execKeepBootCmd_reach (value : Word) (s : State) : ∃ t, execKeepBootCmd value s = .next t ∧ Reach 0xa000300000000000000000000000000008000000082000000000000000000000642004400 s t := by
  refine ⟨_, rfl, ?_⟩
  have h0 := Reach.refl 0xa000300000000000000000000000000008000000082000000000000000000000642004400 s
  repeat' (first
    | with_reducible assumption
    | exact rfl
    | with_reducible (first
        | apply Reach.then ?_ (State.bootCmd_reach ..) ?_))

theorem execRegisterWrite_reach (addr : BitVec 48) (value : Word) (s : State) : ∃ t, execRegisterWrite addr value s = .next t ∧ Reach 0xfffffffffffffffffffffffffffffffffffffffffffffffffffffffff000000165fd87cfd s t := by
  refine ⟨_, rfl, ?_⟩
  have h0 := Reach.refl 0xfffffffffffffffffffffffffffffffffffffffffffffffffffffffff000000165fd87cfd s
  repeat' (first
    | with_reducible assumption
    | exact rfl
    | with_reducible (first
        | apply Reach.then ?_ (State.cfgWrite_reach ..) ?_)
    | (split <;> try (refine Reach.cut1 (by assumption) ?_ (fun _ => ?_)))
    | split)

theorem execPoolXlatInv_reach (die : Fin 2) (value : Word) (s : State) : ∃ t, execPoolXlatInv die value s = .next t ∧ Reach 0x18000000000000000000000000000000000000000000 s t := by
  refine ⟨_, rfl, ?_⟩
  have h0 := Reach.refl 0x18000000000000000000000000000000000000000000 s
  repeat' (first
    | with_reducible assumption
    | exact rfl
    | with_reducible (first
        | apply Reach.then ?_ (State.xlatInv_reach ..) ?_))

theorem execXlatInvDone_reach (die : Fin 2) (s : State) : ∃ t, execXlatInvDone die s = .next t ∧ Reach 0x10000000000000000000000000000000000000000000 s t := by
  refine ⟨_, rfl, ?_⟩
  have h0 := Reach.refl 0x10000000000000000000000000000000000000000000 s
  repeat' (first
    | with_reducible assumption
    | exact rfl
    | with_reducible (first
        | refine Reach.setFld ?_ ?_))

theorem execKeepSwIrq_reach (value : Word) (s : State) : ∃ t, execKeepSwIrq value s = .next t ∧ Reach 0x2000000 s t := by
  refine ⟨_, rfl, ?_⟩
  have h0 := Reach.refl 0x2000000 s
  repeat' (first
    | with_reducible assumption
    | exact rfl
    | with_reducible (first
        | apply Reach.then ?_ (State.swIrq_reach ..) ?_))

theorem execIrqHoldoffExpiry_reach (vector : BitVec 11) (s : State) : ∃ t, execIrqHoldoffExpiry vector s = .next t ∧ Reach 0x2000000 s t := ⟨_, rfl, irqHoldoffExpiryEffect_reach ..⟩

theorem execPackageFailed_reach (pkg : BitVec 12) (ms : BitVec 32) (fatal : Bool) (owners : BitVec 64) (ready : List (BitVec 12)) (plan : FailoverPlan) (s : State) : ∃ t, execPackageFailed pkg ms fatal owners ready plan s = .next t ∧ Reach 0x400030000007433017eb24020000010303a411fa3b8c0120c0080000000000008fd8fcfd s t := ⟨_, rfl, packageFailedEffect_reach ..⟩

theorem execFwVerifyDone_reach (s : State) : ∃ t, execFwVerifyDone s = .next t ∧ Reach 0x8000100000000000000000000000000000000000000000000000000000000000300004000 s t := ⟨_, rfl, fwVerifyDoneEffect_reach ..⟩

theorem execSpdmRequest_reach (endpoint : BitVec 32) (code : SpdmCode) (transcript : List Byte) (s : State) : ∃ t, execSpdmRequest endpoint code transcript s = .next t ∧ Reach 0x64000300000074330000b04020000010303a411fa3b8c0120c0080000000000138fd9fcfd s t := ⟨_, rfl, spdmRequestEffect_reach ..⟩

theorem execRead_reach (src : DictSource) (index : BitVec 16) (sub : Byte) (offset : BitVec 16) (s : State) : ∃ t, execRead src index sub offset s = .next t ∧ Reach 0x2420030110007433057eb24020001010303a411fa3b8c0120c008000000000017efd9fcfd s t := by
  refine ⟨_, rfl, ?_⟩
  have h0 := Reach.refl 0x2420030110007433057eb24020001010303a411fa3b8c0120c008000000000017efd9fcfd s
  repeat' (first
    | with_reducible assumption
    | exact rfl
    | with_reducible (first
        | apply Reach.then ?_ (State.request_reach ..) ?_))

theorem execDictWrite_reach (src : DictSource) (index : BitVec 16) (sub : Byte) (offset : BitVec 16) (last : Bool) (value : List Byte) (s : State) : ∃ t, execDictWrite src index sub offset last value s = .next t ∧ Reach 0x2420030110007433057eb24020001010303a411fa3b8c0120c008000000000017efd9fcfd s t := by
  refine ⟨_, rfl, ?_⟩
  have h0 := Reach.refl 0x2420030110007433057eb24020001010303a411fa3b8c0120c008000000000017efd9fcfd s
  repeat' (first
    | with_reducible assumption
    | exact rfl
    | with_reducible (first
        | apply Reach.then ?_ (State.request_reach ..) ?_))

theorem execDescribe_reach (src : DictSource) (index : BitVec 16) (sub : Byte) (s : State) : ∃ t, execDescribe src index sub s = .next t ∧ Reach 0x2420030110007433057eb24020001010303a411fa3b8c0120c008000000000017efd9fcfd s t := by
  refine ⟨_, rfl, ?_⟩
  have h0 := Reach.refl 0x2420030110007433057eb24020001010303a411fa3b8c0120c008000000000017efd9fcfd s
  repeat' (first
    | with_reducible assumption
    | exact rfl
    | with_reducible (first
        | apply Reach.then ?_ (State.request_reach ..) ?_))

theorem execDictLock_reach (src : DictSource) (value : Byte) (s : State) : ∃ t, execDictLock src value s = .next t ∧ Reach 0x2420030110007433057eb24020001010303a411fa3b8c0120c008000000000017efd9fcfd s t := by
  refine ⟨_, rfl, ?_⟩
  have h0 := Reach.refl 0x2420030110007433057eb24020001010303a411fa3b8c0120c008000000000017efd9fcfd s
  repeat' (first
    | with_reducible assumption
    | exact rfl
    | with_reducible (first
        | apply Reach.then ?_ (State.writeKey_reach ..) ?_))

theorem execDictStore_reach (src : DictSource) (value : Byte) (s : State) : ∃ t, execDictStore src value s = .next t ∧ Reach 0x2420030110007433057eb24020001010303a411fa3b8c0120c008000000000017efd9fcfd s t := by
  refine ⟨_, rfl, ?_⟩
  have h0 := Reach.refl 0x2420030110007433057eb24020001010303a411fa3b8c0120c008000000000017efd9fcfd s
  repeat' (first
    | with_reducible assumption
    | exact rfl
    | with_reducible (first
        | apply Reach.then ?_ (State.writeKey_reach ..) ?_))

theorem execResetRequest_reach (src : DictSource) (value : Byte) (s : State) : ∃ t, execResetRequest src value s = .next t ∧ Reach 0x2420030110007433057eb24020001010303a411fa3b8c0120c008000000000017efd9fcfd s t := by
  refine ⟨_, rfl, ?_⟩
  have h0 := Reach.refl 0x2420030110007433057eb24020001010303a411fa3b8c0120c008000000000017efd9fcfd s
  repeat' (first
    | with_reducible assumption
    | exact rfl
    | with_reducible (first
        | apply Reach.then ?_ (State.writeKey_reach ..) ?_))

theorem execPowerMode_reach (src : DictSource) (value : Byte) (s : State) : ∃ t, execPowerMode src value s = .next t ∧ Reach 0x2420030110007433057eb24020001010303a411fa3b8c0120c008000000000017efd9fcfd s t := by
  refine ⟨_, rfl, ?_⟩
  have h0 := Reach.refl 0x2420030110007433057eb24020001010303a411fa3b8c0120c008000000000017efd9fcfd s
  repeat' (first
    | with_reducible assumption
    | exact rfl
    | with_reducible (first
        | apply Reach.then ?_ (State.writeKey_reach ..) ?_))

theorem execSubMode_reach (src : DictSource) (value : Byte) (s : State) : ∃ t, execSubMode src value s = .next t ∧ Reach 0x2420030110007433057eb24020001010303a411fa3b8c0120c008000000000017efd9fcfd s t := by
  refine ⟨_, rfl, ?_⟩
  have h0 := Reach.refl 0x2420030110007433057eb24020001010303a411fa3b8c0120c008000000000017efd9fcfd s
  repeat' (first
    | with_reducible assumption
    | exact rfl
    | with_reducible (first
        | apply Reach.then ?_ (State.writeKey_reach ..) ?_))

theorem execShelfRescan_reach (src : DictSource) (value : Byte) (devices : List ShelfDevice) (s : State) : ∃ t, execShelfRescan src value devices s = .next t ∧ Reach 0x2420030110007433057eb24020001010303a411fa3b8c0120c008000000000017efd9fcfd s t := by
  refine ⟨_, rfl, ?_⟩
  have h0 := Reach.refl 0x2420030110007433057eb24020001010303a411fa3b8c0120c008000000000017efd9fcfd s
  repeat' (first
    | with_reducible assumption
    | exact rfl
    | with_reducible (first
        | apply Reach.then ?_ (State.writeKey_reach ..) ?_))

theorem execFogSend_reach (src : DictSource) (value : List Byte) (s : State) : ∃ t, execFogSend src value s = .next t ∧ Reach 0x2420030110007433057eb24020001010303a411fa3b8c0120c008000000000017efd9fcfd s t := by
  refine ⟨_, rfl, ?_⟩
  have h0 := Reach.refl 0x2420030110007433057eb24020001010303a411fa3b8c0120c008000000000017efd9fcfd s
  repeat' (first
    | with_reducible assumption
    | exact rfl
    | with_reducible (first
        | apply Reach.then ?_ (State.writeKey_reach ..) ?_))

theorem execTableUpdate_reach (src : DictSource) (value : List Byte) (s : State) : ∃ t, execTableUpdate src value s = .next t ∧ Reach 0x2420030110007433057eb24020001010303a411fa3b8c0120c008000000000017efd9fcfd s t := by
  refine ⟨_, rfl, ?_⟩
  have h0 := Reach.refl 0x2420030110007433057eb24020001010303a411fa3b8c0120c008000000000017efd9fcfd s
  repeat' (first
    | with_reducible assumption
    | exact rfl
    | with_reducible (first
        | apply Reach.then ?_ (State.writeKey_reach ..) ?_))

theorem execFwUpdate_reach (src : DictSource) (chunk : List Byte) (s : State) : ∃ t, execFwUpdate src chunk s = .next t ∧ Reach 0x2420030110007433057eb24020001010303a411fa3b8c0120c008000000000017efd9fcfd s t := by
  refine ⟨_, rfl, ?_⟩
  have h0 := Reach.refl 0x2420030110007433057eb24020001010303a411fa3b8c0120c008000000000017efd9fcfd s
  repeat' (first
    | with_reducible assumption
    | exact rfl
    | with_reducible (first
        | apply Reach.then ?_ (State.writeKey_reach ..) ?_))

theorem execSvnCommit_reach (src : DictSource) (value : Byte) (s : State) : ∃ t, execSvnCommit src value s = .next t ∧ Reach 0x2420030110007433057eb24020001010303a411fa3b8c0120c008000000000017efd9fcfd s t := by
  refine ⟨_, rfl, ?_⟩
  have h0 := Reach.refl 0x2420030110007433057eb24020001010303a411fa3b8c0120c008000000000017efd9fcfd s
  repeat' (first
    | with_reducible assumption
    | exact rfl
    | with_reducible (first
        | apply Reach.then ?_ (State.writeKey_reach ..) ?_))

theorem execDebugChallenge_reach (src : DictSource) (s : State) : ∃ t, execDebugChallenge src s = .next t ∧ Reach 0x2420030110007433057eb24020001010303a411fa3b8c0120c008000000000017efd9fcfd s t := by
  refine ⟨_, rfl, ?_⟩
  have h0 := Reach.refl 0x2420030110007433057eb24020001010303a411fa3b8c0120c008000000000017efd9fcfd s
  repeat' (first
    | with_reducible assumption
    | exact rfl
    | with_reducible (first
        | apply Reach.then ?_ (State.request_reach ..) ?_))

theorem execDebugUnlock_reach (src : DictSource) (value : List Byte) (s : State) : ∃ t, execDebugUnlock src value s = .next t ∧ Reach 0x2420030110007433057eb24020001010303a411fa3b8c0120c008000000000017efd9fcfd s t := by
  refine ⟨_, rfl, ?_⟩
  have h0 := Reach.refl 0x2420030110007433057eb24020001010303a411fa3b8c0120c008000000000017efd9fcfd s
  repeat' (first
    | with_reducible assumption
    | exact rfl
    | with_reducible (first
        | apply Reach.then ?_ (State.writeKey_reach ..) ?_))

theorem execDictReq_reach (frame : MooringFrame) (s : State) : ∃ t, execDictReq frame s = .next t ∧ Reach 0x2420030110007433057eb24020001010303a411fa3b8c0120c008000000000017efd9fcfd s t := ⟨_, rfl, dictReqEffect_reach ..⟩

theorem execDictRsp_reach (frame : MooringFrame) (s : State) : ∃ t, execDictRsp frame s = .next t ∧ Reach 0x80004000 s t := ⟨_, rfl, dictRspEffect_reach ..⟩

theorem execFog_reach (arrival : FogIn) (s : State) : ∃ t, execFog arrival s = .next t ∧ Reach 0x4000300000074330000b04020980010303a411fa3b8c0120c0080000000000008fd8fcfd s t := ⟨_, rfl, fogEffect_reach ..⟩

theorem execReset_reach (frame : MooringFrame) (s : State) : ∃ t, execReset frame s = .next t ∧ Reach 0xfffffffffffffffffffffffffffffffffffffffffffffffffffffffff0000000efff8ffff s t := ⟨_, rfl, resetEffect_reach ..⟩

theorem execCoarseBeam_reach (frame : MooringFrame) (s : State) : ∃ t, execCoarseBeam frame s = .next t ∧ Reach 0x40003111000650086000000000000001022411f8208000000000000000000008a0487c3d s t := ⟨_, rfl, coarseBeamEffect_reach ..⟩

theorem execCoarseBeamSend_reach (s : State) : ∃ t, execCoarseBeamSend s = .next t ∧ Reach 0x80000000 s t := ⟨_, rfl, coarseBeamSendEffect_reach ..⟩

theorem execPresence_reach (frame : MooringFrame) (s : State) : ∃ t, execPresence frame s = .next t ∧ Reach 0xc000 s t := ⟨_, rfl, presenceEffect_reach ..⟩

theorem execPresenceSend_reach (s : State) : ∃ t, execPresenceSend s = .next t ∧ Reach 0x80000000 s t := ⟨_, rfl, presenceSendEffect_reach ..⟩

theorem execReadReq_reach (port : UciePort) (txn : UcieTxn) (s : State) : ∃ t, execReadReq port txn s = .next t ∧ Reach 0x1000004000000000000000000001022011f83b000000c00000000000000400087c1d s t := ⟨_, rfl, readReqEffect_reach ..⟩

theorem execReadData_reach (port : UciePort) (txn : UcieTxn) (s : State) : ∃ t, execReadData port txn s = .next t ∧ Reach 0xc0000000000000000000000000000000000000000000000000000400000000 s t := ⟨_, rfl, readDataEffect_reach ..⟩

theorem execCfgRead_reach (port : UciePort) (txn : UcieTxn) (s : State) : ∃ t, execCfgRead port txn s = .next t ∧ Reach 0x40000000000000000000000000000000000000000000000000000400000000 s t := ⟨_, rfl, cfgReadEffect_reach ..⟩

theorem execCfgData_reach (port : UciePort) (txn : UcieTxn) (s : State) : ∃ t, execCfgData port txn s = .next t ∧ Reach 0xc0000000000000000000000000000000000000000000000000000400000000 s t := ⟨_, rfl, cfgDataEffect_reach ..⟩

theorem execWrite_reach (port : UciePort) (txn : UcieTxn) (s : State) : ∃ t, execWrite port txn s = .next t ∧ Reach 0x4000300000c200c0000000000000600143a011fe3b0f6120d80dff0c0000001002787dff s t := ⟨_, rfl, writeEffect_reach ..⟩

theorem execCfgWrite_reach (port : UciePort) (txn : UcieTxn) (s : State) : ∃ t, execCfgWrite port txn s = .next t ∧ Reach 0xfffffffffffffffffffffffffffffffffffffffffffffffffffffffff000000165fd87cfd s t := ⟨_, rfl, cfgWriteEffect_reach ..⟩

theorem execPost_reach (port : UciePort) (txn : UcieTxn) (item : PostItem) (s : State) : ∃ t, execPost port txn item s = .next t ∧ Reach 0x44000000000000000000000000000400000000000000000000000000000000 s t := ⟨_, rfl, postEffect_reach ..⟩

theorem execEvent_reach (port : UciePort) (txn : UcieTxn) (s : State) : ∃ t, execEvent port txn s = .next t ∧ Reach 0xc0000000000000000000000000000000000000000000000000000400000000 s t := ⟨_, rfl, eventEffect_reach ..⟩

theorem execUcieRetrain_reach (port : UciePort) (_failed : BitVec 24) (_readers : List ChainRef) (s : State) : ∃ t, execUcieRetrain port _failed _readers s = .next t ∧ Reach 0x28000000000000000000000000000000000000000000000000000000000000 s t := ⟨_, rfl, ucieRetrainEffect_reach ..⟩

theorem execUcieRetrainDone_reach (port : UciePort) (failed : BitVec 24) (readers : List ChainRef) (s : State) : ∃ t, execUcieRetrainDone port failed readers s = .next t ∧ Reach 0x200000080000000000000000000000000002000c01200008000000000004005874e0 s t := ⟨_, rfl, ucieRetrainDoneEffect_reach ..⟩

theorem execApertureAccess_reach (aperture : Fin 16) (offset : BitVec 32) (access : HostAccess) (s : State) : ∃ t, execApertureAccess aperture offset access s = .next t ∧ Reach 0x58001000000000000000000000000001022011f83b000000c00000000000000400087c1d s t := ⟨_, rfl, apertureAccessEffect_reach ..⟩

theorem execConfigViewAccess_reach (offset : BitVec 27) (value : Option Word) (s : State) : ∃ t, execConfigViewAccess offset value s = .next t ∧ Reach 0xfffffffffffffffffffffffffffffffffffffffffffffffffffffffff000000165fd87cfd s t := ⟨_, rfl, configViewAccessEffect_reach ..⟩

theorem execHostWindowAccess_reach (offset : BitVec 42) (access : WindowAccess) (linkUp : Bool) (work : Option ChainRef) (s : State) : ∃ t, execHostWindowAccess offset access linkUp work s = .next t ∧ Reach 0x4000200000000000000000000000000000000002000c0120000800000000000000583cfd s t := ⟨_, rfl, hostWindowAccessEffect_reach ..⟩

theorem execHcmdPoll_reach (entries : List (BitVec 512)) (s : State) : ∃ t, execHcmdPoll entries s = .next t ∧ Reach 0x2428030110007433057eb24020001010303a411fa3b8c0120c008000000000017efd9fcfd s t := ⟨_, rfl, hcmdPollEffect_reach ..⟩

theorem execTraceSinkWrite_reach (die : Fin 2) (source : Byte) (hostFail : Bool) (s : State) : ∃ t, execTraceSinkWrite die source hostFail s = .next t ∧ Reach 0x4000f040000000000000000000000001022011f820000000000000000000000000487c1d s t := ⟨_, rfl, traceSinkWriteEffect_reach ..⟩

end Sys2Proof.Machine
end

