-- ==== Sys2Proof/Laws/ExecStore.lean ====
section
/-!
SUPPORT. Every command answers a next state, and the footprint of its effect: Machine/Pool.lean, Machine/Sram.lean, Machine/Hbm.lean, Machine/PowerOps.lean.
-/
set_option linter.unusedTactic false
set_option linter.unreachableTactic false
namespace Sys2Proof.Machine

theorem execMove_reach (die : Fin 2) (value : Word) (s : State) : ∃ t, execMove die value s = .next t ∧ Reach 0x600142a800000000000000000000000000000008581d s t := ⟨_, rfl, moveEffect_reach ..⟩

theorem execPin_reach (die : Fin 2) (value : Word) (s : State) : ∃ t, execPin die value s = .next t ∧ Reach 0x600142a800000000000000000000000000000008581d s t := ⟨_, rfl, pinEffect_reach ..⟩

theorem execUnpin_reach (die : Fin 2) (value : Word) (s : State) : ∃ t, execUnpin die value s = .next t ∧ Reach 0x600142a800000000000000000000000000000008581d s t := ⟨_, rfl, unpinEffect_reach ..⟩

theorem execFrameRequest_reach (owner : BitVec 6) (tier : Fin 3) (die : Fin 2) (vpage : BitVec 32) (chain : Option ChainRef) (s : State) : ∃ t, execFrameRequest owner tier die vpage chain s = .next t ∧ Reach 0x1008000000001000000000000000000000008581d s t := ⟨_, rfl, frameRequestEffect_reach ..⟩

theorem execFrameRequestRetry_reach (die : Fin 2) (s : State) : ∃ t, execFrameRequestRetry die s = .next t ∧ Reach 0x600142a000000000000000000000000000000008581d s t := ⟨_, rfl, frameRequestRetryEffect_reach ..⟩

theorem execPoolWaitTimeout_reach (die : Fin 2) (owner : BitVec 6) (vpage : BitVec 32) (ms : BitVec 32) (s : State) : ∃ t, execPoolWaitTimeout die owner vpage ms s = .next t ∧ Reach 0x4000300000074100000b04000000000102a011fa200c0120000800000000000003d87cfd s t := ⟨_, rfl, poolWaitTimeoutEffect_reach ..⟩

theorem execMoveSwitch_reach (frame : BitVec 32) (s : State) : ∃ t, execMoveSwitch frame s = .next t ∧ Reach 0x40003000000200c0000000000000600143a011fe3b0f6120d80dff0c0000001002787dff s t := ⟨_, rfl, moveSwitchEffect_reach ..⟩

theorem execWindowLift_reach (die : Fin 2) (launch : BitVec 12) (entry : BitVec 24) (gathered : List Gathered) (s : State) : ∃ t, execWindowLift die launch entry gathered s = .next t ∧ Reach 0x40003000000000000000400000000001022011fa2b0c0100c00800000000000000587cfd s t := ⟨_, rfl, windowLiftEffect_reach ..⟩

theorem execWindowLiftComplete_reach (die : Fin 2) (launch : BitVec 12) (entry : BitVec 24) (slot : BitVec 4) (s : State) : ∃ t, execWindowLiftComplete die launch entry slot s = .next t ∧ Reach 0x1000000000000000000000000001022011f82b000000c00000000000000000087c1d s t := ⟨_, rfl, windowLiftCompleteEffect_reach ..⟩

theorem execSectorRebuild_reach (addr : BitVec 48) (s : State) : ∃ t, execSectorRebuild addr s = .next t ∧ Reach 0x40003000000200c000080000000060011ea011fe3b0f6120d80dff0c0000001002f87dff s t := ⟨_, rfl, sectorRebuildEffect_reach ..⟩

theorem execRebuildTimeout_reach (addr : BitVec 48) (ms : BitVec 32) (failed : Bool) (s : State) : ∃ t, execRebuildTimeout addr ms failed s = .next t ∧ Reach 0x40003000000200c000000000000060011aa011fe3b0f6120d80dff0c0000001002787dff s t := ⟨_, rfl, rebuildTimeoutEffect_reach ..⟩

theorem execShelfUnreachable_reach (first : BitVec 32) (count : BitVec 32) (s : State) : ∃ t, execShelfUnreachable first count s = .next t ∧ Reach 0x1000000000000000000000000000000002001000 s t := ⟨_, rfl, shelfUnreachableEffect_reach ..⟩

theorem execSwapInvocation_reach (die : Fin 2) (owner : BitVec 6) (s : State) : ∃ t, execSwapInvocation die owner s = .next t ∧ Reach 0x40003000000200c0000000000000600143a011fe3b0f6120d80dff0c0000001002787dff s t := ⟨_, rfl, swapInvocationEffect_reach ..⟩

theorem execGallerySetLoadDone_reach (die : Fin 2) (owner : BitVec 6) (loaded : List FramePair) (s : State) : ∃ t, execGallerySetLoadDone die owner loaded s = .next t ∧ Reach 0x1000000000000000000000000001022011f82b000000c00000000000000000087c1d s t := ⟨_, rfl, gallerySetLoadDoneEffect_reach ..⟩

theorem execClusterBankGrant_reach (cluster : Fin 24) (bank : Fin 8) (others : BitVec 6) (s : State) : ∃ t, execClusterBankGrant cluster bank others s = .next t ∧ Reach 0x200000000000000000000400 s t := ⟨_, rfl, clusterBankGrantEffect_reach ..⟩

theorem execGalleryBankGrant_reach (die : Fin 2) (bank : Fin 64) (others : List (Fin 16 × BitVec 6)) (s : State) : ∃ t, execGalleryBankGrant die bank others s = .next t ∧ Reach 0x24000000000000000000000000000400 s t := ⟨_, rfl, galleryBankGrantEffect_reach ..⟩

theorem execRerunLaunch_reach (unit : RerunRef) (s : State) : ∃ t, execRerunLaunch unit s = .next t ∧ Reach 0x200000000000000000000000000000000002000d01ac0008000000000000005835e0 s t := ⟨_, rfl, rerunLaunchEffect_reach ..⟩

theorem execParityError_reach (site : SramSite) (req : BitVec 4) (reader : ChainRef) (s : State) : ∃ t, execParityError site req reader s = .next t ∧ Reach 0x2000000000000000000000000000000000021b0d0100c00d000000000000005829fd s t := ⟨_, rfl, parityErrorEffect_reach ..⟩

theorem execLineCrcFail_reach (l : LineArrival) (s : State) : ∃ t, execLineCrcFail l s = .next t ∧ Reach 0x40003000000000000000000000000001022011fa600c0103000a00000000000000587dff s t := ⟨_, rfl, lineCrcFailEffect_reach ..⟩

theorem execLineRefetchDone_reach (l : LineArrival) (s : State) : ∃ t, execLineRefetchDone l s = .next t ∧ Reach 0x40003000000000000000000000000001022011fa600c0103000a00000000000000587dff s t := ⟨_, rfl, lineRefetchDoneEffect_reach ..⟩

theorem execGalRepairCmd_reach (die : Fin 2) (value : Word) (s : State) : ∃ t, execGalRepairCmd die value s = .next t ∧ Reach 0x4000000c00000000000000000000000000c00 s t := ⟨_, rfl, galRepairCmdEffect_reach ..⟩

theorem execRowRepairRun_reach (die : Fin 2) (s : State) : ∃ t, execRowRepairRun die s = .next t ∧ Reach 0x100000000000000000000000000183a411f82b800000c00000000000000000087c1d s t := ⟨_, rfl, rowRepairRunEffect_reach ..⟩

theorem execPredictorCommitLaunch_reach (cluster : Fin 24) (launch : BitVec 12) (region : BitVec 16) (s : State) : ∃ t, execPredictorCommitLaunch cluster launch region s = .next t ∧ Reach 0x200000000000000000000000000000000002000d01e00008000000000000005834e0 s t := ⟨_, rfl, predictorCommitLaunchEffect_reach ..⟩

theorem execCheckpointRegeneration_reach (reader : ChainRef) (ckpt : BitVec 5) (s : State) : ∃ t, execCheckpointRegeneration reader ckpt s = .next t ∧ Reach 0x200000000000000000000000000000000002000d01b00008000000000000005836e0 s t := ⟨_, rfl, checkpointRegenerationEffect_reach ..⟩

theorem execHbmRead_reach (addr : BitVec 48) (owner : BitVec 6) (port : BitVec 6) (phase : HbmPhase) (s : State) : ∃ t, execHbmRead addr owner port phase s = .next t ∧ Reach 0x2400030110007433057eb24020001010303a413fa3b8c0120c008000000000017efd9fcfd s t := ⟨_, rfl, hbmReadEffect_reach ..⟩

theorem execHbmWrite_reach (addr : BitVec 48) (owner : BitVec 6) (port : BitVec 6) (data : BitVec 256) (mask : BitVec 32) (phase : HbmPhase) (s : State) : ∃ t, execHbmWrite addr owner port data mask phase s = .next t ∧ Reach 0x2400030110007433057eb24020001010303a413fa3b8c0120c008000000000017efd9fcfd s t := ⟨_, rfl, hbmWriteEffect_reach ..⟩

theorem execCorrectionWriteback_reach (turn : WritebackTurn) (s : State) : ∃ t, execCorrectionWriteback turn s = .next t ∧ Reach 0x1000000000000000000000000001022011f80000000000000000000000000008781d s t := ⟨_, rfl, correctionWritebackEffect_reach ..⟩

theorem execHeldRequestEnter_reach (controller : Fin 8) (pc : Fin 32) (s : State) : ∃ t, execHeldRequestEnter controller pc s = .next t ∧ Reach 0x800 s t := ⟨_, rfl, heldRequestEnterEffect_reach ..⟩

theorem execEcsCountRead_reach (controller : Fin 8) (count : BitVec 64) (s : State) : ∃ t, execEcsCountRead controller count s = .next t ∧ Reach 0x40000000000000000000000000000000000 s t := by
  refine ⟨_, rfl, ?_⟩
  have h0 := Reach.refl 0x40000000000000000000000000000000000 s
  repeat' (first
    | with_reducible assumption
    | exact rfl
    | with_reducible (first
        | refine Reach.bump ?_ ?_))

theorem execStackTempRead_reach (controller : Fin 8) (temp : BitVec 8) (s : State) : ∃ t, execStackTempRead controller temp s = .next t ∧ Reach 0x4080000800000000000000000000000000800 s t := ⟨_, rfl, stackTempReadEffect_reach ..⟩

theorem execCalibrationRequest_reach (die : Fin 2) (value : Word) (s : State) : ∃ t, execCalibrationRequest die value s = .next t ∧ Reach 0x6000000800000000000000000000000000800 s t := by
  refine ⟨_, rfl, ?_⟩
  have h0 := Reach.refl 0x6000000800000000000000000000000000800 s
  repeat' (first
    | with_reducible assumption
    | exact rfl
    | with_reducible (first
        | refine Reach.ite ?_ ?_
        | apply Reach.then ?_ (State.maintReq_reach ..) ?_)
    | (extract_lets +onlyGivenNames -underBinder -merge -useContext x; first | (refine Reach.cut x ?_ (fun _ => ?_); rotate_left; clear_value x; rotate_left; unfold x; clear x) | (have _ := fun a => x a; unfold x; clear x) | clear_value x)
    | (split <;> try (refine Reach.cut1 (by assumption) ?_ (fun _ => ?_)))
    | split)

theorem execSelfTestRequest_reach (die : Fin 2) (value : Word) (s : State) : ∃ t, execSelfTestRequest die value s = .next t ∧ Reach 0x6000000800000000000000000000000000800 s t := by
  refine ⟨_, rfl, ?_⟩
  have h0 := Reach.refl 0x6000000800000000000000000000000000800 s
  repeat' (first
    | with_reducible assumption
    | exact rfl
    | with_reducible (first
        | apply Reach.then ?_ (State.maintReq_reach ..) ?_))

theorem execRefreshRateRequest_reach (die : Fin 2) (value : Word) (s : State) : ∃ t, execRefreshRateRequest die value s = .next t ∧ Reach 0x6000000800000000000000000000000000800 s t := by
  refine ⟨_, rfl, ?_⟩
  have h0 := Reach.refl 0x6000000800000000000000000000000000800 s
  repeat' (first
    | with_reducible assumption
    | exact rfl
    | with_reducible (first
        | apply Reach.then ?_ (State.maintReq_reach ..) ?_))

theorem execMaintRequestEntry_reach (die : Fin 2) (s : State) : ∃ t, execMaintRequestEntry die s = .next t ∧ Reach 0x7000000800000000000000000000000000c00 s t := ⟨_, rfl, maintRequestEntryEffect_reach ..⟩

theorem execScrubStart_reach (die : Fin 2) (value : Word) (s : State) : ∃ t, execScrubStart die value s = .next t ∧ Reach 0x40001000000400000000000000000001022511f820800000000000000000000000087c1d s t := ⟨_, rfl, scrubStartEffect_reach ..⟩

theorem execScrubSectorRead_reach (die : Fin 2) (noise : BitVec 256) (checkNoise : BitVec 16) (severity : Bool) (s : State) : ∃ t, execScrubSectorRead die noise checkNoise severity s = .next t ∧ Reach 0x1000000000000000000000000001022011f80000000000000000000000000008781d s t := ⟨_, rfl, scrubSectorReadEffect_reach ..⟩

theorem execScrubComplete_reach (die : Fin 2) (s : State) : ∃ t, execScrubComplete die s = .next t ∧ Reach 0x40001000000400000000000000000001022511f820800000000000000000000000087c1d s t := ⟨_, rfl, scrubCompleteEffect_reach ..⟩

theorem execMaintAdmit_reach (die : Fin 2) (freed : BitVec 12) (s : State) : ∃ t, execMaintAdmit die freed s = .next t ∧ Reach 0x2000400000080000000000000000000000c000800 s t := ⟨_, rfl, maintAdmitEffect_reach ..⟩

theorem execCalGroupOut_reach (die : Fin 2) (group : Fin 16) (s : State) : ∃ t, execCalGroupOut die group s = .next t ∧ Reach 0x4000000800000000000000000000000000800 s t := ⟨_, rfl, calGroupOutEffect_reach ..⟩

theorem execCalGroupReturn_reach (die : Fin 2) (group : Fin 16) (s : State) : ∃ t, execCalGroupReturn die group s = .next t ∧ Reach 0x40003000000740c0000800020000600102a411fe3b8f6120d80dff0c0000001022f87dff s t := ⟨_, rfl, calGroupReturnEffect_reach ..⟩

theorem execCalPeriodExpiry_reach (die : Fin 2) (group : Fin 16) (s : State) : ∃ t, execCalPeriodExpiry die group s = .next t ∧ Reach 0x4000000800000000000000000000000000800 s t := by
  refine ⟨_, rfl, ?_⟩
  have h0 := Reach.refl 0x4000000800000000000000000000000000800 s
  repeat' (first
    | with_reducible assumption
    | exact rfl
    | with_reducible (first
        | apply Reach.then ?_ (State.requestCal_reach ..) ?_))

theorem execSelfTestDone_reach (die : Fin 2) (cluster : Fin 12) (fail : Bool) (s : State) : ∃ t, execSelfTestDone die cluster fail s = .next t ∧ Reach 0x4000000800000000000000000000000000817 s t := ⟨_, rfl, selfTestDoneEffect_reach ..⟩

theorem execModeChangeResume_reach (s : State) : ∃ t, execModeChangeResume s = .next t ∧ Reach 0x40003001000200c00000000000006001022011fe200d4120180dff0c0000001022787dff s t := ⟨_, rfl, modeChangeResumeEffect_reach ..⟩

theorem execGovernorInterval_reach (reading : PowerReading) (s : State) : ∃ t, execGovernorInterval reading s = .next t ∧ Reach 0x90000000000000000000000000000000000000000000000000000000020004000 s t := ⟨_, rfl, governorIntervalEffect_reach ..⟩

theorem execDroopDetect_reach (die : Fin 2) (s : State) : ∃ t, execDroopDetect die s = .next t ∧ Reach 0x40000000000000000000000000000000000000000000000000000000020000000 s t := ⟨_, rfl, droopDetectEffect_reach ..⟩

theorem execHbmRamp_reach (controller : Fin 8) (waited : BitVec 12) (s : State) : ∃ t, execHbmRamp controller waited s = .next t ∧ Reach 0x40000000000000000000000000000020000000 s t := ⟨_, rfl, hbmRampEffect_reach ..⟩

end Sys2Proof.Machine
end

