-- ==== Sys2Proof/Laws/State.lean ====
section
/-!
SUPPORT. One lemma per field for each named update of the state, and what a field of a register reads after a write of it.
-/
namespace Sys2Proof.Machine

/-! ## Bits of a word -/

/-- What a word with a field replaced holds. -/
theorem withBits_toNat (x : Word) (lo w v : Nat) (h : lo + w ≤ 64) :
    (withBits x lo w v).toNat = x.toNat / 2 ^ (lo + w) * 2 ^ (lo + w) + v % 2 ^ w * 2 ^ lo + x.toNat % 2 ^ lo := by
  have hx := x.isLt
  have p1 : 0 < 2 ^ lo := Nat.two_pow_pos lo
  have p2 : 0 < 2 ^ w := Nat.two_pow_pos w
  have e1 : 2 ^ (lo + w) = 2 ^ lo * 2 ^ w := Nat.pow_add ..
  have e64 : 2 ^ 64 = 2 ^ (lo + w) * 2 ^ (64 - (lo + w)) := by rw [← Nat.pow_add]; congr 1; omega
  have d1 := Nat.div_add_mod x.toNat (2 ^ lo)
  have d2 := Nat.div_add_mod (x.toNat / 2 ^ lo) (2 ^ w)
  have m1 := Nat.mod_lt x.toNat p1
  have m2 := Nat.mod_lt v p2
  have q : x.toNat / 2 ^ (lo + w) = x.toNat / 2 ^ lo / 2 ^ w := by rw [e1, Nat.div_div_eq_div_mul]
  have hq : x.toNat / 2 ^ (lo + w) < 2 ^ (64 - (lo + w)) := by
    apply Nat.div_lt_of_lt_mul
    rw [← e64]
    exact hx
  unfold withBits bitsOf
  rw [BitVec.toNat_ofNat, q]
  generalize hA : x.toNat / 2 ^ lo / 2 ^ w = A at *
  generalize hB : x.toNat / 2 ^ lo % 2 ^ w = B at *
  generalize hC : x.toNat % 2 ^ lo = C at *
  generalize hV : v % 2 ^ w = V at *
  have ex : x.toNat = A * 2 ^ (lo + w) + B * 2 ^ lo + C := by
    rw [← d1, ← d2, e1]
    rw [Nat.mul_add, Nat.mul_comm A, Nat.mul_assoc, Nat.mul_comm B]
  have es : x.toNat - B * 2 ^ lo + V * 2 ^ lo = A * 2 ^ (lo + w) + V * 2 ^ lo + C := by omega
  rw [es]
  apply Nat.mod_eq_of_lt
  have hVC : V * 2 ^ lo + C < 2 ^ (lo + w) := by
    have : (V + 1) * 2 ^ lo ≤ 2 ^ w * 2 ^ lo := Nat.mul_le_mul_right _ m2
    rw [e1, Nat.mul_comm (2 ^ lo)]
    rw [Nat.add_mul, Nat.one_mul] at this
    omega
  have hA' : (A + 1) * 2 ^ (lo + w) ≤ 2 ^ (64 - (lo + w)) * 2 ^ (lo + w) := Nat.mul_le_mul_right _ (by omega)
  have e64' : (18446744073709551616 : Nat) = 2 ^ (64 - (lo + w)) * 2 ^ (lo + w) := by
    rw [Nat.mul_comm, ← e64] <;> decide
  rw [Nat.add_mul, Nat.one_mul] at hA'
  have e0 : (2 : Nat) ^ 64 = 18446744073709551616 := by decide
  omega

/-- The field written reads as its value. -/
theorem bitsOf_withBits_self (x : Word) (lo w v : Nat) (h : lo + w ≤ 64) : bitsOf (withBits x lo w v) lo w = v % 2 ^ w := by
  have p1 : 0 < 2 ^ lo := Nat.two_pow_pos lo
  unfold bitsOf
  rw [withBits_toNat x lo w v h]
  have e1 : 2 ^ (lo + w) = 2 ^ w * 2 ^ lo := by rw [Nat.add_comm]; exact Nat.pow_add ..
  rw [e1, ← Nat.mul_assoc, ← Nat.add_mul, Nat.mul_comm _ (2 ^ lo), Nat.mul_add_div p1,
    Nat.div_eq_of_lt (Nat.mod_lt _ p1), Nat.add_zero, Nat.mul_comm _ (2 ^ w), Nat.mul_add_mod, Nat.mod_mod]

/-- A field above the one written. -/
theorem bitsOf_withBits_above (x : Word) (lo w v l n : Nat) (h : lo + w ≤ 64) (a : lo + w ≤ l) :
    bitsOf (withBits x lo w v) l n = bitsOf x l n := by
  have p1 : 0 < 2 ^ lo := Nat.two_pow_pos lo
  have p2 : 0 < 2 ^ w := Nat.two_pow_pos w
  unfold bitsOf
  rw [withBits_toNat x lo w v h]
  obtain ⟨k, rfl⟩ := Nat.exists_eq_add_of_le a
  have hVC : v % 2 ^ w * 2 ^ lo + x.toNat % 2 ^ lo < 2 ^ (lo + w) := by
    have : (v % 2 ^ w + 1) * 2 ^ lo ≤ 2 ^ w * 2 ^ lo := Nat.mul_le_mul_right _ (Nat.mod_lt _ p2)
    have := Nat.mod_lt x.toNat p1
    rw [Nat.pow_add, Nat.mul_comm (2 ^ lo)]
    rw [Nat.add_mul, Nat.one_mul] at *
    omega
  rw [Nat.pow_add 2 (lo + w) k, ← Nat.div_div_eq_div_mul, ← Nat.div_div_eq_div_mul, Nat.add_assoc, Nat.mul_comm,
    Nat.mul_add_div (Nat.two_pow_pos _), Nat.div_eq_of_lt hVC, Nat.add_zero]

/-- A field below the one written. -/
theorem bitsOf_withBits_below (x : Word) (lo w v l n : Nat) (h : lo + w ≤ 64) (b : l + n ≤ lo) :
    bitsOf (withBits x lo w v) l n = bitsOf x l n := by
  unfold bitsOf
  rw [withBits_toNat x lo w v h]
  obtain ⟨k, rfl⟩ := Nat.exists_eq_add_of_le b
  rw [← Nat.mod_mul_right_div_self, ← Nat.mod_mul_right_div_self, ← Nat.pow_add]
  congr 1
  have e : x.toNat / 2 ^ (l + n + k + w) * 2 ^ (l + n + k + w) + v % 2 ^ w * 2 ^ (l + n + k) + x.toNat % 2 ^ (l + n + k) =
      2 ^ (l + n) * (x.toNat / 2 ^ (l + n + k + w) * 2 ^ (k + w) + v % 2 ^ w * 2 ^ k) + x.toNat % 2 ^ (l + n + k) := by
    simp only [Nat.mul_add, Nat.pow_add, Nat.mul_comm, Nat.mul_left_comm, Nat.mul_assoc]
  rw [e, Nat.mul_add_mod, Nat.mod_mod_of_dvd _ (Nat.pow_dvd_pow 2 (Nat.le_add_right _ _))]

/-- The field written reads as its value. -/
theorem State.fld_setFld_self (s : State) (f : Field) (u i v : Nat) (h : f.lo + f.width ≤ 64) :
    (s.setFld f u i v).fld f u i = v % 2 ^ f.width := by
  unfold State.fld State.setFld
  rw [State.rd_wr_self, bitsOf_withBits_self _ _ _ _ h]

/-- A field of another register. -/
theorem State.fld_setFld_ne (s : State) (f g : Field) (u i v j k : Nat) (h : g.reg ≠ f.reg) :
    (s.setFld f u i v).fld g j k = s.fld g j k := by
  unfold State.fld State.setFld
  rw [State.rd_wr_ne h]

/-- A field of the same register that lies apart from the one written. -/
theorem State.fld_setFld_apart (s : State) (f g : Field) (u i v : Nat) (e : g.reg = f.reg) (h : f.lo + f.width ≤ 64)
    (a : g.lo + g.width ≤ f.lo ∨ f.lo + f.width ≤ g.lo) : (s.setFld f u i v).fld g u i = s.fld g u i := by
  unfold State.fld State.setFld
  rw [e, State.rd_wr_self]
  exact a.elim (bitsOf_withBits_below _ _ _ _ _ _ h) (bitsOf_withBits_above _ _ _ _ _ _ h)

/-- The same register of another unit or index. -/
theorem State.rd_wr_place (s : State) (a : Reg) {u i v j : Nat} (w : Word) (h : v % 128 ≠ u % 128 ∨ j % 8192 ≠ i % 8192) :
    (s.wr a u i w).rd a v j = s.rd a v j := by
  simp only [State.rd, State.wr]
  refine lookupD_putD_ne _ _ ?_ _ _
  have h1 := Nat.mod_lt u (show 0 < 128 by decide)
  have h2 := Nat.mod_lt v (show 0 < 128 by decide)
  have h3 := Nat.mod_lt i (show 0 < 8192 by decide)
  have h4 := Nat.mod_lt j (show 0 < 8192 by decide)
  unfold regKey
  omega

/-- A dictionary value written. -/
@[simp] theorem State.dget_dput_self (s : State) (k : Nat) (v : Int) : (s.dput k v).dget k = v := lookupD_putD_self ..

theorem State.dget_dput_ne (s : State) {k j : Nat} (v : Int) (h : j ≠ k) : (s.dput k v).dget j = s.dget j := by
  unfold State.dget State.dput
  exact lookupD_putD_ne _ _ h _ _

/-- An engine written. -/
@[simp] theorem State.eng_setEng_self (s : State) (e : Nat) (x : Engine) : (s.setEng e x).eng e = x := lookupD_putD_self ..

/-! ## The fields that each update leaves -/

@[simp] theorem State.wr_pending (s : State) (r : Reg) (u i : Nat) (v : Word) : (s.wr r u i v).pending = s.pending := rfl
@[simp] theorem State.wr_mem (s : State) (r : Reg) (u i : Nat) (v : Word) : (s.wr r u i v).mem = s.mem := rfl
@[simp] theorem State.wr_lens (s : State) (r : Reg) (u i : Nat) (v : Word) : (s.wr r u i v).lens = s.lens := rfl
@[simp] theorem State.wr_badCheck (s : State) (r : Reg) (u i : Nat) (v : Word) : (s.wr r u i v).badCheck = s.badCheck := rfl
@[simp] theorem State.wr_hbmDelta (s : State) (r : Reg) (u i : Nat) (v : Word) : (s.wr r u i v).hbmDelta = s.hbmDelta := rfl
@[simp] theorem State.wr_poison (s : State) (r : Reg) (u i : Nat) (v : Word) : (s.wr r u i v).poison = s.poison := rfl
@[simp] theorem State.wr_engines (s : State) (r : Reg) (u i : Nat) (v : Word) : (s.wr r u i v).engines = s.engines := rfl
@[simp] theorem State.wr_chains (s : State) (r : Reg) (u i : Nat) (v : Word) : (s.wr r u i v).chains = s.chains := rfl
@[simp] theorem State.wr_seqs (s : State) (r : Reg) (u i : Nat) (v : Word) : (s.wr r u i v).seqs = s.seqs := rfl
@[simp] theorem State.wr_reruns (s : State) (r : Reg) (u i : Nat) (v : Word) : (s.wr r u i v).reruns = s.reruns := rfl
@[simp] theorem State.wr_regens (s : State) (r : Reg) (u i : Nat) (v : Word) : (s.wr r u i v).regens = s.regens := rfl
@[simp] theorem State.wr_sram (s : State) (r : Reg) (u i : Nat) (v : Word) : (s.wr r u i v).sram = s.sram := rfl
@[simp] theorem State.wr_hbm (s : State) (r : Reg) (u i : Nat) (v : Word) : (s.wr r u i v).hbm = s.hbm := rfl
@[simp] theorem State.wr_pool (s : State) (r : Reg) (u i : Nat) (v : Word) : (s.wr r u i v).pool = s.pool := rfl
@[simp] theorem State.wr_beam (s : State) (r : Reg) (u i : Nat) (v : Word) : (s.wr r u i v).beam = s.beam := rfl
@[simp] theorem State.wr_dict (s : State) (r : Reg) (u i : Nat) (v : Word) : (s.wr r u i v).dict = s.dict := rfl
@[simp] theorem State.wr_dictBytes (s : State) (r : Reg) (u i : Nat) (v : Word) : (s.wr r u i v).dictBytes = s.dictBytes := rfl
@[simp] theorem State.wr_fuses (s : State) (r : Reg) (u i : Nat) (v : Word) : (s.wr r u i v).fuses = s.fuses := rfl
@[simp] theorem State.wr_order (s : State) (r : Reg) (u i : Nat) (v : Word) : (s.wr r u i v).order = s.order := rfl
@[simp] theorem State.wr_lid (s : State) (r : Reg) (u i : Nat) (v : Word) : (s.wr r u i v).lid = s.lid := rfl
@[simp] theorem State.wr_heldWrites (s : State) (r : Reg) (u i : Nat) (v : Word) : (s.wr r u i v).heldWrites = s.heldWrites := rfl
@[simp] theorem State.wr_sentMsgs (s : State) (r : Reg) (u i : Nat) (v : Word) : (s.wr r u i v).sentMsgs = s.sentMsgs := rfl
@[simp] theorem State.wr_msgNum (s : State) (r : Reg) (u i : Nat) (v : Word) : (s.wr r u i v).msgNum = s.msgNum := rfl
@[simp] theorem State.wr_trace (s : State) (r : Reg) (u i : Nat) (v : Word) : (s.wr r u i v).trace = s.trace := rfl
@[simp] theorem State.wr_fabric (s : State) (r : Reg) (u i : Nat) (v : Word) : (s.wr r u i v).fabric = s.fabric := rfl
@[simp] theorem State.wr_coll (s : State) (r : Reg) (u i : Nat) (v : Word) : (s.wr r u i v).coll = s.coll := rfl
@[simp] theorem State.wr_host (s : State) (r : Reg) (u i : Nat) (v : Word) : (s.wr r u i v).host = s.host := rfl
@[simp] theorem State.wr_daymarks (s : State) (r : Reg) (u i : Nat) (v : Word) : (s.wr r u i v).daymarks = s.daymarks := rfl
@[simp] theorem State.wr_copying (s : State) (r : Reg) (u i : Nat) (v : Word) : (s.wr r u i v).copying = s.copying := rfl
@[simp] theorem State.wr_restores (s : State) (r : Reg) (u i : Nat) (v : Word) : (s.wr r u i v).restores = s.restores := rfl
@[simp] theorem State.wr_power (s : State) (r : Reg) (u i : Nat) (v : Word) : (s.wr r u i v).power = s.power := rfl
@[simp] theorem State.wr_resets (s : State) (r : Reg) (u i : Nat) (v : Word) : (s.wr r u i v).resets = s.resets := rfl
@[simp] theorem State.wr_mooring (s : State) (r : Reg) (u i : Nat) (v : Word) : (s.wr r u i v).mooring = s.mooring := rfl
@[simp] theorem State.wr_flash (s : State) (r : Reg) (u i : Nat) (v : Word) : (s.wr r u i v).flash = s.flash := rfl
@[simp] theorem State.wr_security (s : State) (r : Reg) (u i : Nat) (v : Word) : (s.wr r u i v).security = s.security := rfl
@[simp] theorem State.wr_keeper (s : State) (r : Reg) (u i : Nat) (v : Word) : (s.wr r u i v).keeper = s.keeper := rfl
@[simp] theorem State.wr_cyc (s : State) (r : Reg) (u i : Nat) (v : Word) : (s.wr r u i v).cyc = s.cyc := rfl
@[simp] theorem State.wr_free (s : State) (r : Reg) (u i : Nat) (v : Word) : (s.wr r u i v).free = s.free := rfl
@[simp] theorem State.wr_dget (s : State) (r : Reg) (u i : Nat) (v : Word) (k0 : Nat) : (s.wr r u i v).dget k0 = s.dget k0 := rfl
@[simp] theorem State.wr_dbytes (s : State) (r : Reg) (u i : Nat) (v : Word) (k0 : Nat) : (s.wr r u i v).dbytes k0 = s.dbytes k0 := rfl
@[simp] theorem State.wr_eng (s : State) (r : Reg) (u i : Nat) (v : Word) (e0 : Nat) : (s.wr r u i v).eng e0 = s.eng e0 := rfl
@[simp] theorem State.wr_rdByte (s : State) (r : Reg) (u i : Nat) (v : Word) (p0 : Nat) : (s.wr r u i v).rdByte p0 = s.rdByte p0 := rfl
@[simp] theorem State.wr_frame (s : State) (r : Reg) (u i : Nat) (v : Word) (n0 : Nat) : (s.wr r u i v).frame n0 = s.frame n0 := rfl

@[simp] theorem State.setFld_pending (s : State) (f : Field) (u i v : Nat) : (s.setFld f u i v).pending = s.pending := rfl
@[simp] theorem State.setFld_mem (s : State) (f : Field) (u i v : Nat) : (s.setFld f u i v).mem = s.mem := rfl
@[simp] theorem State.setFld_lens (s : State) (f : Field) (u i v : Nat) : (s.setFld f u i v).lens = s.lens := rfl
@[simp] theorem State.setFld_badCheck (s : State) (f : Field) (u i v : Nat) : (s.setFld f u i v).badCheck = s.badCheck := rfl
@[simp] theorem State.setFld_hbmDelta (s : State) (f : Field) (u i v : Nat) : (s.setFld f u i v).hbmDelta = s.hbmDelta := rfl
@[simp] theorem State.setFld_poison (s : State) (f : Field) (u i v : Nat) : (s.setFld f u i v).poison = s.poison := rfl
@[simp] theorem State.setFld_engines (s : State) (f : Field) (u i v : Nat) : (s.setFld f u i v).engines = s.engines := rfl
@[simp] theorem State.setFld_chains (s : State) (f : Field) (u i v : Nat) : (s.setFld f u i v).chains = s.chains := rfl
@[simp] theorem State.setFld_seqs (s : State) (f : Field) (u i v : Nat) : (s.setFld f u i v).seqs = s.seqs := rfl
@[simp] theorem State.setFld_reruns (s : State) (f : Field) (u i v : Nat) : (s.setFld f u i v).reruns = s.reruns := rfl
@[simp] theorem State.setFld_regens (s : State) (f : Field) (u i v : Nat) : (s.setFld f u i v).regens = s.regens := rfl
@[simp] theorem State.setFld_sram (s : State) (f : Field) (u i v : Nat) : (s.setFld f u i v).sram = s.sram := rfl
@[simp] theorem State.setFld_hbm (s : State) (f : Field) (u i v : Nat) : (s.setFld f u i v).hbm = s.hbm := rfl
@[simp] theorem State.setFld_pool (s : State) (f : Field) (u i v : Nat) : (s.setFld f u i v).pool = s.pool := rfl
@[simp] theorem State.setFld_beam (s : State) (f : Field) (u i v : Nat) : (s.setFld f u i v).beam = s.beam := rfl
@[simp] theorem State.setFld_dict (s : State) (f : Field) (u i v : Nat) : (s.setFld f u i v).dict = s.dict := rfl
@[simp] theorem State.setFld_dictBytes (s : State) (f : Field) (u i v : Nat) : (s.setFld f u i v).dictBytes = s.dictBytes := rfl
@[simp] theorem State.setFld_fuses (s : State) (f : Field) (u i v : Nat) : (s.setFld f u i v).fuses = s.fuses := rfl
@[simp] theorem State.setFld_order (s : State) (f : Field) (u i v : Nat) : (s.setFld f u i v).order = s.order := rfl
@[simp] theorem State.setFld_lid (s : State) (f : Field) (u i v : Nat) : (s.setFld f u i v).lid = s.lid := rfl
@[simp] theorem State.setFld_heldWrites (s : State) (f : Field) (u i v : Nat) : (s.setFld f u i v).heldWrites = s.heldWrites := rfl
@[simp] theorem State.setFld_sentMsgs (s : State) (f : Field) (u i v : Nat) : (s.setFld f u i v).sentMsgs = s.sentMsgs := rfl
@[simp] theorem State.setFld_msgNum (s : State) (f : Field) (u i v : Nat) : (s.setFld f u i v).msgNum = s.msgNum := rfl
@[simp] theorem State.setFld_trace (s : State) (f : Field) (u i v : Nat) : (s.setFld f u i v).trace = s.trace := rfl
@[simp] theorem State.setFld_fabric (s : State) (f : Field) (u i v : Nat) : (s.setFld f u i v).fabric = s.fabric := rfl
@[simp] theorem State.setFld_coll (s : State) (f : Field) (u i v : Nat) : (s.setFld f u i v).coll = s.coll := rfl
@[simp] theorem State.setFld_host (s : State) (f : Field) (u i v : Nat) : (s.setFld f u i v).host = s.host := rfl
@[simp] theorem State.setFld_daymarks (s : State) (f : Field) (u i v : Nat) : (s.setFld f u i v).daymarks = s.daymarks := rfl
@[simp] theorem State.setFld_copying (s : State) (f : Field) (u i v : Nat) : (s.setFld f u i v).copying = s.copying := rfl
@[simp] theorem State.setFld_restores (s : State) (f : Field) (u i v : Nat) : (s.setFld f u i v).restores = s.restores := rfl
@[simp] theorem State.setFld_power (s : State) (f : Field) (u i v : Nat) : (s.setFld f u i v).power = s.power := rfl
@[simp] theorem State.setFld_resets (s : State) (f : Field) (u i v : Nat) : (s.setFld f u i v).resets = s.resets := rfl
@[simp] theorem State.setFld_mooring (s : State) (f : Field) (u i v : Nat) : (s.setFld f u i v).mooring = s.mooring := rfl
@[simp] theorem State.setFld_flash (s : State) (f : Field) (u i v : Nat) : (s.setFld f u i v).flash = s.flash := rfl
@[simp] theorem State.setFld_security (s : State) (f : Field) (u i v : Nat) : (s.setFld f u i v).security = s.security := rfl
@[simp] theorem State.setFld_keeper (s : State) (f : Field) (u i v : Nat) : (s.setFld f u i v).keeper = s.keeper := rfl
@[simp] theorem State.setFld_cyc (s : State) (f : Field) (u i v : Nat) : (s.setFld f u i v).cyc = s.cyc := rfl
@[simp] theorem State.setFld_free (s : State) (f : Field) (u i v : Nat) : (s.setFld f u i v).free = s.free := rfl
@[simp] theorem State.setFld_dget (s : State) (f : Field) (u i v : Nat) (k0 : Nat) : (s.setFld f u i v).dget k0 = s.dget k0 := rfl
@[simp] theorem State.setFld_dbytes (s : State) (f : Field) (u i v : Nat) (k0 : Nat) : (s.setFld f u i v).dbytes k0 = s.dbytes k0 := rfl
@[simp] theorem State.setFld_eng (s : State) (f : Field) (u i v : Nat) (e0 : Nat) : (s.setFld f u i v).eng e0 = s.eng e0 := rfl
@[simp] theorem State.setFld_rdByte (s : State) (f : Field) (u i v : Nat) (p0 : Nat) : (s.setFld f u i v).rdByte p0 = s.rdByte p0 := rfl
@[simp] theorem State.setFld_frame (s : State) (f : Field) (u i v : Nat) (n0 : Nat) : (s.setFld f u i v).frame n0 = s.frame n0 := rfl

@[simp] theorem State.storeReg_pending (s : State) (r : Reg) (u i : Nat) (v : Word) : (s.storeReg r u i v).pending = s.pending := rfl
@[simp] theorem State.storeReg_mem (s : State) (r : Reg) (u i : Nat) (v : Word) : (s.storeReg r u i v).mem = s.mem := rfl
@[simp] theorem State.storeReg_lens (s : State) (r : Reg) (u i : Nat) (v : Word) : (s.storeReg r u i v).lens = s.lens := rfl
@[simp] theorem State.storeReg_badCheck (s : State) (r : Reg) (u i : Nat) (v : Word) : (s.storeReg r u i v).badCheck = s.badCheck := rfl
@[simp] theorem State.storeReg_hbmDelta (s : State) (r : Reg) (u i : Nat) (v : Word) : (s.storeReg r u i v).hbmDelta = s.hbmDelta := rfl
@[simp] theorem State.storeReg_poison (s : State) (r : Reg) (u i : Nat) (v : Word) : (s.storeReg r u i v).poison = s.poison := rfl
@[simp] theorem State.storeReg_engines (s : State) (r : Reg) (u i : Nat) (v : Word) : (s.storeReg r u i v).engines = s.engines := rfl
@[simp] theorem State.storeReg_chains (s : State) (r : Reg) (u i : Nat) (v : Word) : (s.storeReg r u i v).chains = s.chains := rfl
@[simp] theorem State.storeReg_seqs (s : State) (r : Reg) (u i : Nat) (v : Word) : (s.storeReg r u i v).seqs = s.seqs := rfl
@[simp] theorem State.storeReg_reruns (s : State) (r : Reg) (u i : Nat) (v : Word) : (s.storeReg r u i v).reruns = s.reruns := rfl
@[simp] theorem State.storeReg_regens (s : State) (r : Reg) (u i : Nat) (v : Word) : (s.storeReg r u i v).regens = s.regens := rfl
@[simp] theorem State.storeReg_sram (s : State) (r : Reg) (u i : Nat) (v : Word) : (s.storeReg r u i v).sram = s.sram := rfl
@[simp] theorem State.storeReg_hbm (s : State) (r : Reg) (u i : Nat) (v : Word) : (s.storeReg r u i v).hbm = s.hbm := rfl
@[simp] theorem State.storeReg_pool (s : State) (r : Reg) (u i : Nat) (v : Word) : (s.storeReg r u i v).pool = s.pool := rfl
@[simp] theorem State.storeReg_beam (s : State) (r : Reg) (u i : Nat) (v : Word) : (s.storeReg r u i v).beam = s.beam := rfl
@[simp] theorem State.storeReg_dict (s : State) (r : Reg) (u i : Nat) (v : Word) : (s.storeReg r u i v).dict = s.dict := rfl
@[simp] theorem State.storeReg_dictBytes (s : State) (r : Reg) (u i : Nat) (v : Word) : (s.storeReg r u i v).dictBytes = s.dictBytes := rfl
@[simp] theorem State.storeReg_fuses (s : State) (r : Reg) (u i : Nat) (v : Word) : (s.storeReg r u i v).fuses = s.fuses := rfl
@[simp] theorem State.storeReg_order (s : State) (r : Reg) (u i : Nat) (v : Word) : (s.storeReg r u i v).order = s.order := rfl
@[simp] theorem State.storeReg_lid (s : State) (r : Reg) (u i : Nat) (v : Word) : (s.storeReg r u i v).lid = s.lid := rfl
@[simp] theorem State.storeReg_heldWrites (s : State) (r : Reg) (u i : Nat) (v : Word) : (s.storeReg r u i v).heldWrites = s.heldWrites := rfl
@[simp] theorem State.storeReg_sentMsgs (s : State) (r : Reg) (u i : Nat) (v : Word) : (s.storeReg r u i v).sentMsgs = s.sentMsgs := rfl
@[simp] theorem State.storeReg_msgNum (s : State) (r : Reg) (u i : Nat) (v : Word) : (s.storeReg r u i v).msgNum = s.msgNum := rfl
@[simp] theorem State.storeReg_trace (s : State) (r : Reg) (u i : Nat) (v : Word) : (s.storeReg r u i v).trace = s.trace := rfl
@[simp] theorem State.storeReg_fabric (s : State) (r : Reg) (u i : Nat) (v : Word) : (s.storeReg r u i v).fabric = s.fabric := rfl
@[simp] theorem State.storeReg_coll (s : State) (r : Reg) (u i : Nat) (v : Word) : (s.storeReg r u i v).coll = s.coll := rfl
@[simp] theorem State.storeReg_host (s : State) (r : Reg) (u i : Nat) (v : Word) : (s.storeReg r u i v).host = s.host := rfl
@[simp] theorem State.storeReg_daymarks (s : State) (r : Reg) (u i : Nat) (v : Word) : (s.storeReg r u i v).daymarks = s.daymarks := rfl
@[simp] theorem State.storeReg_copying (s : State) (r : Reg) (u i : Nat) (v : Word) : (s.storeReg r u i v).copying = s.copying := rfl
@[simp] theorem State.storeReg_restores (s : State) (r : Reg) (u i : Nat) (v : Word) : (s.storeReg r u i v).restores = s.restores := rfl
@[simp] theorem State.storeReg_power (s : State) (r : Reg) (u i : Nat) (v : Word) : (s.storeReg r u i v).power = s.power := rfl
@[simp] theorem State.storeReg_resets (s : State) (r : Reg) (u i : Nat) (v : Word) : (s.storeReg r u i v).resets = s.resets := rfl
@[simp] theorem State.storeReg_mooring (s : State) (r : Reg) (u i : Nat) (v : Word) : (s.storeReg r u i v).mooring = s.mooring := rfl
@[simp] theorem State.storeReg_flash (s : State) (r : Reg) (u i : Nat) (v : Word) : (s.storeReg r u i v).flash = s.flash := rfl
@[simp] theorem State.storeReg_security (s : State) (r : Reg) (u i : Nat) (v : Word) : (s.storeReg r u i v).security = s.security := rfl
@[simp] theorem State.storeReg_keeper (s : State) (r : Reg) (u i : Nat) (v : Word) : (s.storeReg r u i v).keeper = s.keeper := rfl
@[simp] theorem State.storeReg_cyc (s : State) (r : Reg) (u i : Nat) (v : Word) : (s.storeReg r u i v).cyc = s.cyc := rfl
@[simp] theorem State.storeReg_free (s : State) (r : Reg) (u i : Nat) (v : Word) : (s.storeReg r u i v).free = s.free := rfl
@[simp] theorem State.storeReg_dget (s : State) (r : Reg) (u i : Nat) (v : Word) (k0 : Nat) : (s.storeReg r u i v).dget k0 = s.dget k0 := rfl
@[simp] theorem State.storeReg_dbytes (s : State) (r : Reg) (u i : Nat) (v : Word) (k0 : Nat) : (s.storeReg r u i v).dbytes k0 = s.dbytes k0 := rfl
@[simp] theorem State.storeReg_eng (s : State) (r : Reg) (u i : Nat) (v : Word) (e0 : Nat) : (s.storeReg r u i v).eng e0 = s.eng e0 := rfl
@[simp] theorem State.storeReg_rdByte (s : State) (r : Reg) (u i : Nat) (v : Word) (p0 : Nat) : (s.storeReg r u i v).rdByte p0 = s.rdByte p0 := rfl
@[simp] theorem State.storeReg_frame (s : State) (r : Reg) (u i : Nat) (v : Word) (n0 : Nat) : (s.storeReg r u i v).frame n0 = s.frame n0 := rfl

@[simp] theorem State.bump_pending (s : State) (r : Reg) (u i n : Nat) : (s.bump r u i n).pending = s.pending := rfl
@[simp] theorem State.bump_mem (s : State) (r : Reg) (u i n : Nat) : (s.bump r u i n).mem = s.mem := rfl
@[simp] theorem State.bump_lens (s : State) (r : Reg) (u i n : Nat) : (s.bump r u i n).lens = s.lens := rfl
@[simp] theorem State.bump_badCheck (s : State) (r : Reg) (u i n : Nat) : (s.bump r u i n).badCheck = s.badCheck := rfl
@[simp] theorem State.bump_hbmDelta (s : State) (r : Reg) (u i n : Nat) : (s.bump r u i n).hbmDelta = s.hbmDelta := rfl
@[simp] theorem State.bump_poison (s : State) (r : Reg) (u i n : Nat) : (s.bump r u i n).poison = s.poison := rfl
@[simp] theorem State.bump_engines (s : State) (r : Reg) (u i n : Nat) : (s.bump r u i n).engines = s.engines := rfl
@[simp] theorem State.bump_chains (s : State) (r : Reg) (u i n : Nat) : (s.bump r u i n).chains = s.chains := rfl
@[simp] theorem State.bump_seqs (s : State) (r : Reg) (u i n : Nat) : (s.bump r u i n).seqs = s.seqs := rfl
@[simp] theorem State.bump_reruns (s : State) (r : Reg) (u i n : Nat) : (s.bump r u i n).reruns = s.reruns := rfl
@[simp] theorem State.bump_regens (s : State) (r : Reg) (u i n : Nat) : (s.bump r u i n).regens = s.regens := rfl
@[simp] theorem State.bump_sram (s : State) (r : Reg) (u i n : Nat) : (s.bump r u i n).sram = s.sram := rfl
@[simp] theorem State.bump_hbm (s : State) (r : Reg) (u i n : Nat) : (s.bump r u i n).hbm = s.hbm := rfl
@[simp] theorem State.bump_pool (s : State) (r : Reg) (u i n : Nat) : (s.bump r u i n).pool = s.pool := rfl
@[simp] theorem State.bump_beam (s : State) (r : Reg) (u i n : Nat) : (s.bump r u i n).beam = s.beam := rfl
@[simp] theorem State.bump_dict (s : State) (r : Reg) (u i n : Nat) : (s.bump r u i n).dict = s.dict := rfl
@[simp] theorem State.bump_dictBytes (s : State) (r : Reg) (u i n : Nat) : (s.bump r u i n).dictBytes = s.dictBytes := rfl
@[simp] theorem State.bump_fuses (s : State) (r : Reg) (u i n : Nat) : (s.bump r u i n).fuses = s.fuses := rfl
@[simp] theorem State.bump_order (s : State) (r : Reg) (u i n : Nat) : (s.bump r u i n).order = s.order := rfl
@[simp] theorem State.bump_lid (s : State) (r : Reg) (u i n : Nat) : (s.bump r u i n).lid = s.lid := rfl
@[simp] theorem State.bump_heldWrites (s : State) (r : Reg) (u i n : Nat) : (s.bump r u i n).heldWrites = s.heldWrites := rfl
@[simp] theorem State.bump_sentMsgs (s : State) (r : Reg) (u i n : Nat) : (s.bump r u i n).sentMsgs = s.sentMsgs := rfl
@[simp] theorem State.bump_msgNum (s : State) (r : Reg) (u i n : Nat) : (s.bump r u i n).msgNum = s.msgNum := rfl
@[simp] theorem State.bump_trace (s : State) (r : Reg) (u i n : Nat) : (s.bump r u i n).trace = s.trace := rfl
@[simp] theorem State.bump_fabric (s : State) (r : Reg) (u i n : Nat) : (s.bump r u i n).fabric = s.fabric := rfl
@[simp] theorem State.bump_coll (s : State) (r : Reg) (u i n : Nat) : (s.bump r u i n).coll = s.coll := rfl
@[simp] theorem State.bump_host (s : State) (r : Reg) (u i n : Nat) : (s.bump r u i n).host = s.host := rfl
@[simp] theorem State.bump_daymarks (s : State) (r : Reg) (u i n : Nat) : (s.bump r u i n).daymarks = s.daymarks := rfl
@[simp] theorem State.bump_copying (s : State) (r : Reg) (u i n : Nat) : (s.bump r u i n).copying = s.copying := rfl
@[simp] theorem State.bump_restores (s : State) (r : Reg) (u i n : Nat) : (s.bump r u i n).restores = s.restores := rfl
@[simp] theorem State.bump_power (s : State) (r : Reg) (u i n : Nat) : (s.bump r u i n).power = s.power := rfl
@[simp] theorem State.bump_resets (s : State) (r : Reg) (u i n : Nat) : (s.bump r u i n).resets = s.resets := rfl
@[simp] theorem State.bump_mooring (s : State) (r : Reg) (u i n : Nat) : (s.bump r u i n).mooring = s.mooring := rfl
@[simp] theorem State.bump_flash (s : State) (r : Reg) (u i n : Nat) : (s.bump r u i n).flash = s.flash := rfl
@[simp] theorem State.bump_security (s : State) (r : Reg) (u i n : Nat) : (s.bump r u i n).security = s.security := rfl
@[simp] theorem State.bump_keeper (s : State) (r : Reg) (u i n : Nat) : (s.bump r u i n).keeper = s.keeper := rfl
@[simp] theorem State.bump_cyc (s : State) (r : Reg) (u i n : Nat) : (s.bump r u i n).cyc = s.cyc := rfl
@[simp] theorem State.bump_free (s : State) (r : Reg) (u i n : Nat) : (s.bump r u i n).free = s.free := rfl
@[simp] theorem State.bump_dget (s : State) (r : Reg) (u i n : Nat) (k0 : Nat) : (s.bump r u i n).dget k0 = s.dget k0 := rfl
@[simp] theorem State.bump_dbytes (s : State) (r : Reg) (u i n : Nat) (k0 : Nat) : (s.bump r u i n).dbytes k0 = s.dbytes k0 := rfl
@[simp] theorem State.bump_eng (s : State) (r : Reg) (u i n : Nat) (e0 : Nat) : (s.bump r u i n).eng e0 = s.eng e0 := rfl
@[simp] theorem State.bump_rdByte (s : State) (r : Reg) (u i n : Nat) (p0 : Nat) : (s.bump r u i n).rdByte p0 = s.rdByte p0 := rfl
@[simp] theorem State.bump_frame (s : State) (r : Reg) (u i n : Nat) (n0 : Nat) : (s.bump r u i n).frame n0 = s.frame n0 := rfl

@[simp] theorem State.bumpBoth_pending (s : State) (r : Reg) (n : Nat) : (s.bumpBoth r n).pending = s.pending := rfl
@[simp] theorem State.bumpBoth_mem (s : State) (r : Reg) (n : Nat) : (s.bumpBoth r n).mem = s.mem := rfl
@[simp] theorem State.bumpBoth_lens (s : State) (r : Reg) (n : Nat) : (s.bumpBoth r n).lens = s.lens := rfl
@[simp] theorem State.bumpBoth_badCheck (s : State) (r : Reg) (n : Nat) : (s.bumpBoth r n).badCheck = s.badCheck := rfl
@[simp] theorem State.bumpBoth_hbmDelta (s : State) (r : Reg) (n : Nat) : (s.bumpBoth r n).hbmDelta = s.hbmDelta := rfl
@[simp] theorem State.bumpBoth_poison (s : State) (r : Reg) (n : Nat) : (s.bumpBoth r n).poison = s.poison := rfl
@[simp] theorem State.bumpBoth_engines (s : State) (r : Reg) (n : Nat) : (s.bumpBoth r n).engines = s.engines := rfl
@[simp] theorem State.bumpBoth_chains (s : State) (r : Reg) (n : Nat) : (s.bumpBoth r n).chains = s.chains := rfl
@[simp] theorem State.bumpBoth_seqs (s : State) (r : Reg) (n : Nat) : (s.bumpBoth r n).seqs = s.seqs := rfl
@[simp] theorem State.bumpBoth_reruns (s : State) (r : Reg) (n : Nat) : (s.bumpBoth r n).reruns = s.reruns := rfl
@[simp] theorem State.bumpBoth_regens (s : State) (r : Reg) (n : Nat) : (s.bumpBoth r n).regens = s.regens := rfl
@[simp] theorem State.bumpBoth_sram (s : State) (r : Reg) (n : Nat) : (s.bumpBoth r n).sram = s.sram := rfl
@[simp] theorem State.bumpBoth_hbm (s : State) (r : Reg) (n : Nat) : (s.bumpBoth r n).hbm = s.hbm := rfl
@[simp] theorem State.bumpBoth_pool (s : State) (r : Reg) (n : Nat) : (s.bumpBoth r n).pool = s.pool := rfl
@[simp] theorem State.bumpBoth_beam (s : State) (r : Reg) (n : Nat) : (s.bumpBoth r n).beam = s.beam := rfl
@[simp] theorem State.bumpBoth_dict (s : State) (r : Reg) (n : Nat) : (s.bumpBoth r n).dict = s.dict := rfl
@[simp] theorem State.bumpBoth_dictBytes (s : State) (r : Reg) (n : Nat) : (s.bumpBoth r n).dictBytes = s.dictBytes := rfl
@[simp] theorem State.bumpBoth_fuses (s : State) (r : Reg) (n : Nat) : (s.bumpBoth r n).fuses = s.fuses := rfl
@[simp] theorem State.bumpBoth_order (s : State) (r : Reg) (n : Nat) : (s.bumpBoth r n).order = s.order := rfl
@[simp] theorem State.bumpBoth_lid (s : State) (r : Reg) (n : Nat) : (s.bumpBoth r n).lid = s.lid := rfl
@[simp] theorem State.bumpBoth_heldWrites (s : State) (r : Reg) (n : Nat) : (s.bumpBoth r n).heldWrites = s.heldWrites := rfl
@[simp] theorem State.bumpBoth_sentMsgs (s : State) (r : Reg) (n : Nat) : (s.bumpBoth r n).sentMsgs = s.sentMsgs := rfl
@[simp] theorem State.bumpBoth_msgNum (s : State) (r : Reg) (n : Nat) : (s.bumpBoth r n).msgNum = s.msgNum := rfl
@[simp] theorem State.bumpBoth_trace (s : State) (r : Reg) (n : Nat) : (s.bumpBoth r n).trace = s.trace := rfl
@[simp] theorem State.bumpBoth_fabric (s : State) (r : Reg) (n : Nat) : (s.bumpBoth r n).fabric = s.fabric := rfl
@[simp] theorem State.bumpBoth_coll (s : State) (r : Reg) (n : Nat) : (s.bumpBoth r n).coll = s.coll := rfl
@[simp] theorem State.bumpBoth_host (s : State) (r : Reg) (n : Nat) : (s.bumpBoth r n).host = s.host := rfl
@[simp] theorem State.bumpBoth_daymarks (s : State) (r : Reg) (n : Nat) : (s.bumpBoth r n).daymarks = s.daymarks := rfl
@[simp] theorem State.bumpBoth_copying (s : State) (r : Reg) (n : Nat) : (s.bumpBoth r n).copying = s.copying := rfl
@[simp] theorem State.bumpBoth_restores (s : State) (r : Reg) (n : Nat) : (s.bumpBoth r n).restores = s.restores := rfl
@[simp] theorem State.bumpBoth_power (s : State) (r : Reg) (n : Nat) : (s.bumpBoth r n).power = s.power := rfl
@[simp] theorem State.bumpBoth_resets (s : State) (r : Reg) (n : Nat) : (s.bumpBoth r n).resets = s.resets := rfl
@[simp] theorem State.bumpBoth_mooring (s : State) (r : Reg) (n : Nat) : (s.bumpBoth r n).mooring = s.mooring := rfl
@[simp] theorem State.bumpBoth_flash (s : State) (r : Reg) (n : Nat) : (s.bumpBoth r n).flash = s.flash := rfl
@[simp] theorem State.bumpBoth_security (s : State) (r : Reg) (n : Nat) : (s.bumpBoth r n).security = s.security := rfl
@[simp] theorem State.bumpBoth_keeper (s : State) (r : Reg) (n : Nat) : (s.bumpBoth r n).keeper = s.keeper := rfl
@[simp] theorem State.bumpBoth_cyc (s : State) (r : Reg) (n : Nat) : (s.bumpBoth r n).cyc = s.cyc := rfl
@[simp] theorem State.bumpBoth_free (s : State) (r : Reg) (n : Nat) : (s.bumpBoth r n).free = s.free := rfl
@[simp] theorem State.bumpBoth_dget (s : State) (r : Reg) (n : Nat) (k0 : Nat) : (s.bumpBoth r n).dget k0 = s.dget k0 := rfl
@[simp] theorem State.bumpBoth_dbytes (s : State) (r : Reg) (n : Nat) (k0 : Nat) : (s.bumpBoth r n).dbytes k0 = s.dbytes k0 := rfl
@[simp] theorem State.bumpBoth_eng (s : State) (r : Reg) (n : Nat) (e0 : Nat) : (s.bumpBoth r n).eng e0 = s.eng e0 := rfl
@[simp] theorem State.bumpBoth_rdByte (s : State) (r : Reg) (n : Nat) (p0 : Nat) : (s.bumpBoth r n).rdByte p0 = s.rdByte p0 := rfl
@[simp] theorem State.bumpBoth_frame (s : State) (r : Reg) (n : Nat) (n0 : Nat) : (s.bumpBoth r n).frame n0 = s.frame n0 := rfl

@[simp] theorem State.dput_pending (s : State) (k : Nat) (v : Int) : (s.dput k v).pending = s.pending := rfl
@[simp] theorem State.dput_regs (s : State) (k : Nat) (v : Int) : (s.dput k v).regs = s.regs := rfl
@[simp] theorem State.dput_mem (s : State) (k : Nat) (v : Int) : (s.dput k v).mem = s.mem := rfl
@[simp] theorem State.dput_lens (s : State) (k : Nat) (v : Int) : (s.dput k v).lens = s.lens := rfl
@[simp] theorem State.dput_badCheck (s : State) (k : Nat) (v : Int) : (s.dput k v).badCheck = s.badCheck := rfl
@[simp] theorem State.dput_hbmDelta (s : State) (k : Nat) (v : Int) : (s.dput k v).hbmDelta = s.hbmDelta := rfl
@[simp] theorem State.dput_poison (s : State) (k : Nat) (v : Int) : (s.dput k v).poison = s.poison := rfl
@[simp] theorem State.dput_engines (s : State) (k : Nat) (v : Int) : (s.dput k v).engines = s.engines := rfl
@[simp] theorem State.dput_chains (s : State) (k : Nat) (v : Int) : (s.dput k v).chains = s.chains := rfl
@[simp] theorem State.dput_seqs (s : State) (k : Nat) (v : Int) : (s.dput k v).seqs = s.seqs := rfl
@[simp] theorem State.dput_reruns (s : State) (k : Nat) (v : Int) : (s.dput k v).reruns = s.reruns := rfl
@[simp] theorem State.dput_regens (s : State) (k : Nat) (v : Int) : (s.dput k v).regens = s.regens := rfl
@[simp] theorem State.dput_sram (s : State) (k : Nat) (v : Int) : (s.dput k v).sram = s.sram := rfl
@[simp] theorem State.dput_hbm (s : State) (k : Nat) (v : Int) : (s.dput k v).hbm = s.hbm := rfl
@[simp] theorem State.dput_pool (s : State) (k : Nat) (v : Int) : (s.dput k v).pool = s.pool := rfl
@[simp] theorem State.dput_beam (s : State) (k : Nat) (v : Int) : (s.dput k v).beam = s.beam := rfl
@[simp] theorem State.dput_dictBytes (s : State) (k : Nat) (v : Int) : (s.dput k v).dictBytes = s.dictBytes := rfl
@[simp] theorem State.dput_fuses (s : State) (k : Nat) (v : Int) : (s.dput k v).fuses = s.fuses := rfl
@[simp] theorem State.dput_order (s : State) (k : Nat) (v : Int) : (s.dput k v).order = s.order := rfl
@[simp] theorem State.dput_lid (s : State) (k : Nat) (v : Int) : (s.dput k v).lid = s.lid := rfl
@[simp] theorem State.dput_heldWrites (s : State) (k : Nat) (v : Int) : (s.dput k v).heldWrites = s.heldWrites := rfl
@[simp] theorem State.dput_sentMsgs (s : State) (k : Nat) (v : Int) : (s.dput k v).sentMsgs = s.sentMsgs := rfl
@[simp] theorem State.dput_msgNum (s : State) (k : Nat) (v : Int) : (s.dput k v).msgNum = s.msgNum := rfl
@[simp] theorem State.dput_trace (s : State) (k : Nat) (v : Int) : (s.dput k v).trace = s.trace := rfl
@[simp] theorem State.dput_fabric (s : State) (k : Nat) (v : Int) : (s.dput k v).fabric = s.fabric := rfl
@[simp] theorem State.dput_coll (s : State) (k : Nat) (v : Int) : (s.dput k v).coll = s.coll := rfl
@[simp] theorem State.dput_host (s : State) (k : Nat) (v : Int) : (s.dput k v).host = s.host := rfl
@[simp] theorem State.dput_daymarks (s : State) (k : Nat) (v : Int) : (s.dput k v).daymarks = s.daymarks := rfl
@[simp] theorem State.dput_copying (s : State) (k : Nat) (v : Int) : (s.dput k v).copying = s.copying := rfl
@[simp] theorem State.dput_restores (s : State) (k : Nat) (v : Int) : (s.dput k v).restores = s.restores := rfl
@[simp] theorem State.dput_power (s : State) (k : Nat) (v : Int) : (s.dput k v).power = s.power := rfl
@[simp] theorem State.dput_resets (s : State) (k : Nat) (v : Int) : (s.dput k v).resets = s.resets := rfl
@[simp] theorem State.dput_mooring (s : State) (k : Nat) (v : Int) : (s.dput k v).mooring = s.mooring := rfl
@[simp] theorem State.dput_flash (s : State) (k : Nat) (v : Int) : (s.dput k v).flash = s.flash := rfl
@[simp] theorem State.dput_security (s : State) (k : Nat) (v : Int) : (s.dput k v).security = s.security := rfl
@[simp] theorem State.dput_keeper (s : State) (k : Nat) (v : Int) : (s.dput k v).keeper = s.keeper := rfl
@[simp] theorem State.dput_cyc (s : State) (k : Nat) (v : Int) : (s.dput k v).cyc = s.cyc := rfl
@[simp] theorem State.dput_free (s : State) (k : Nat) (v : Int) : (s.dput k v).free = s.free := rfl
@[simp] theorem State.dput_rd (s : State) (k : Nat) (v : Int) (r0 : Reg) (u0 i0 : Nat) : (s.dput k v).rd r0 u0 i0 = s.rd r0 u0 i0 := rfl
@[simp] theorem State.dput_fld (s : State) (k : Nat) (v : Int) (f0 : Field) (u0 i0 : Nat) : (s.dput k v).fld f0 u0 i0 = s.fld f0 u0 i0 := rfl
@[simp] theorem State.dput_dbytes (s : State) (k : Nat) (v : Int) (k0 : Nat) : (s.dput k v).dbytes k0 = s.dbytes k0 := rfl
@[simp] theorem State.dput_eng (s : State) (k : Nat) (v : Int) (e0 : Nat) : (s.dput k v).eng e0 = s.eng e0 := rfl
@[simp] theorem State.dput_rdByte (s : State) (k : Nat) (v : Int) (p0 : Nat) : (s.dput k v).rdByte p0 = s.rdByte p0 := rfl
@[simp] theorem State.dput_frame (s : State) (k : Nat) (v : Int) (n0 : Nat) : (s.dput k v).frame n0 = s.frame n0 := rfl

@[simp] theorem State.dbump_pending (s : State) (k : Nat) : (s.dbump k).pending = s.pending := rfl
@[simp] theorem State.dbump_regs (s : State) (k : Nat) : (s.dbump k).regs = s.regs := rfl
@[simp] theorem State.dbump_mem (s : State) (k : Nat) : (s.dbump k).mem = s.mem := rfl
@[simp] theorem State.dbump_lens (s : State) (k : Nat) : (s.dbump k).lens = s.lens := rfl
@[simp] theorem State.dbump_badCheck (s : State) (k : Nat) : (s.dbump k).badCheck = s.badCheck := rfl
@[simp] theorem State.dbump_hbmDelta (s : State) (k : Nat) : (s.dbump k).hbmDelta = s.hbmDelta := rfl
@[simp] theorem State.dbump_poison (s : State) (k : Nat) : (s.dbump k).poison = s.poison := rfl
@[simp] theorem State.dbump_engines (s : State) (k : Nat) : (s.dbump k).engines = s.engines := rfl
@[simp] theorem State.dbump_chains (s : State) (k : Nat) : (s.dbump k).chains = s.chains := rfl
@[simp] theorem State.dbump_seqs (s : State) (k : Nat) : (s.dbump k).seqs = s.seqs := rfl
@[simp] theorem State.dbump_reruns (s : State) (k : Nat) : (s.dbump k).reruns = s.reruns := rfl
@[simp] theorem State.dbump_regens (s : State) (k : Nat) : (s.dbump k).regens = s.regens := rfl
@[simp] theorem State.dbump_sram (s : State) (k : Nat) : (s.dbump k).sram = s.sram := rfl
@[simp] theorem State.dbump_hbm (s : State) (k : Nat) : (s.dbump k).hbm = s.hbm := rfl
@[simp] theorem State.dbump_pool (s : State) (k : Nat) : (s.dbump k).pool = s.pool := rfl
@[simp] theorem State.dbump_beam (s : State) (k : Nat) : (s.dbump k).beam = s.beam := rfl
@[simp] theorem State.dbump_dictBytes (s : State) (k : Nat) : (s.dbump k).dictBytes = s.dictBytes := rfl
@[simp] theorem State.dbump_fuses (s : State) (k : Nat) : (s.dbump k).fuses = s.fuses := rfl
@[simp] theorem State.dbump_order (s : State) (k : Nat) : (s.dbump k).order = s.order := rfl
@[simp] theorem State.dbump_lid (s : State) (k : Nat) : (s.dbump k).lid = s.lid := rfl
@[simp] theorem State.dbump_heldWrites (s : State) (k : Nat) : (s.dbump k).heldWrites = s.heldWrites := rfl
@[simp] theorem State.dbump_sentMsgs (s : State) (k : Nat) : (s.dbump k).sentMsgs = s.sentMsgs := rfl
@[simp] theorem State.dbump_msgNum (s : State) (k : Nat) : (s.dbump k).msgNum = s.msgNum := rfl
@[simp] theorem State.dbump_trace (s : State) (k : Nat) : (s.dbump k).trace = s.trace := rfl
@[simp] theorem State.dbump_fabric (s : State) (k : Nat) : (s.dbump k).fabric = s.fabric := rfl
@[simp] theorem State.dbump_coll (s : State) (k : Nat) : (s.dbump k).coll = s.coll := rfl
@[simp] theorem State.dbump_host (s : State) (k : Nat) : (s.dbump k).host = s.host := rfl
@[simp] theorem State.dbump_daymarks (s : State) (k : Nat) : (s.dbump k).daymarks = s.daymarks := rfl
@[simp] theorem State.dbump_copying (s : State) (k : Nat) : (s.dbump k).copying = s.copying := rfl
@[simp] theorem State.dbump_restores (s : State) (k : Nat) : (s.dbump k).restores = s.restores := rfl
@[simp] theorem State.dbump_power (s : State) (k : Nat) : (s.dbump k).power = s.power := rfl
@[simp] theorem State.dbump_resets (s : State) (k : Nat) : (s.dbump k).resets = s.resets := rfl
@[simp] theorem State.dbump_mooring (s : State) (k : Nat) : (s.dbump k).mooring = s.mooring := rfl
@[simp] theorem State.dbump_flash (s : State) (k : Nat) : (s.dbump k).flash = s.flash := rfl
@[simp] theorem State.dbump_security (s : State) (k : Nat) : (s.dbump k).security = s.security := rfl
@[simp] theorem State.dbump_keeper (s : State) (k : Nat) : (s.dbump k).keeper = s.keeper := rfl
@[simp] theorem State.dbump_cyc (s : State) (k : Nat) : (s.dbump k).cyc = s.cyc := rfl
@[simp] theorem State.dbump_free (s : State) (k : Nat) : (s.dbump k).free = s.free := rfl
@[simp] theorem State.dbump_rd (s : State) (k : Nat) (r0 : Reg) (u0 i0 : Nat) : (s.dbump k).rd r0 u0 i0 = s.rd r0 u0 i0 := rfl
@[simp] theorem State.dbump_fld (s : State) (k : Nat) (f0 : Field) (u0 i0 : Nat) : (s.dbump k).fld f0 u0 i0 = s.fld f0 u0 i0 := rfl
@[simp] theorem State.dbump_dbytes (s : State) (k : Nat) (k0 : Nat) : (s.dbump k).dbytes k0 = s.dbytes k0 := rfl
@[simp] theorem State.dbump_eng (s : State) (k : Nat) (e0 : Nat) : (s.dbump k).eng e0 = s.eng e0 := rfl
@[simp] theorem State.dbump_rdByte (s : State) (k : Nat) (p0 : Nat) : (s.dbump k).rdByte p0 = s.rdByte p0 := rfl
@[simp] theorem State.dbump_frame (s : State) (k : Nat) (n0 : Nat) : (s.dbump k).frame n0 = s.frame n0 := rfl

@[simp] theorem State.dputBytes_pending (s : State) (k : Nat) (bs : List Byte) : (s.dputBytes k bs).pending = s.pending := rfl
@[simp] theorem State.dputBytes_regs (s : State) (k : Nat) (bs : List Byte) : (s.dputBytes k bs).regs = s.regs := rfl
@[simp] theorem State.dputBytes_mem (s : State) (k : Nat) (bs : List Byte) : (s.dputBytes k bs).mem = s.mem := rfl
@[simp] theorem State.dputBytes_lens (s : State) (k : Nat) (bs : List Byte) : (s.dputBytes k bs).lens = s.lens := rfl
@[simp] theorem State.dputBytes_badCheck (s : State) (k : Nat) (bs : List Byte) : (s.dputBytes k bs).badCheck = s.badCheck := rfl
@[simp] theorem State.dputBytes_hbmDelta (s : State) (k : Nat) (bs : List Byte) : (s.dputBytes k bs).hbmDelta = s.hbmDelta := rfl
@[simp] theorem State.dputBytes_poison (s : State) (k : Nat) (bs : List Byte) : (s.dputBytes k bs).poison = s.poison := rfl
@[simp] theorem State.dputBytes_engines (s : State) (k : Nat) (bs : List Byte) : (s.dputBytes k bs).engines = s.engines := rfl
@[simp] theorem State.dputBytes_chains (s : State) (k : Nat) (bs : List Byte) : (s.dputBytes k bs).chains = s.chains := rfl
@[simp] theorem State.dputBytes_seqs (s : State) (k : Nat) (bs : List Byte) : (s.dputBytes k bs).seqs = s.seqs := rfl
@[simp] theorem State.dputBytes_reruns (s : State) (k : Nat) (bs : List Byte) : (s.dputBytes k bs).reruns = s.reruns := rfl
@[simp] theorem State.dputBytes_regens (s : State) (k : Nat) (bs : List Byte) : (s.dputBytes k bs).regens = s.regens := rfl
@[simp] theorem State.dputBytes_sram (s : State) (k : Nat) (bs : List Byte) : (s.dputBytes k bs).sram = s.sram := rfl
@[simp] theorem State.dputBytes_hbm (s : State) (k : Nat) (bs : List Byte) : (s.dputBytes k bs).hbm = s.hbm := rfl
@[simp] theorem State.dputBytes_pool (s : State) (k : Nat) (bs : List Byte) : (s.dputBytes k bs).pool = s.pool := rfl
@[simp] theorem State.dputBytes_beam (s : State) (k : Nat) (bs : List Byte) : (s.dputBytes k bs).beam = s.beam := rfl
@[simp] theorem State.dputBytes_dict (s : State) (k : Nat) (bs : List Byte) : (s.dputBytes k bs).dict = s.dict := rfl
@[simp] theorem State.dputBytes_fuses (s : State) (k : Nat) (bs : List Byte) : (s.dputBytes k bs).fuses = s.fuses := rfl
@[simp] theorem State.dputBytes_order (s : State) (k : Nat) (bs : List Byte) : (s.dputBytes k bs).order = s.order := rfl
@[simp] theorem State.dputBytes_lid (s : State) (k : Nat) (bs : List Byte) : (s.dputBytes k bs).lid = s.lid := rfl
@[simp] theorem State.dputBytes_heldWrites (s : State) (k : Nat) (bs : List Byte) : (s.dputBytes k bs).heldWrites = s.heldWrites := rfl
@[simp] theorem State.dputBytes_sentMsgs (s : State) (k : Nat) (bs : List Byte) : (s.dputBytes k bs).sentMsgs = s.sentMsgs := rfl
@[simp] theorem State.dputBytes_msgNum (s : State) (k : Nat) (bs : List Byte) : (s.dputBytes k bs).msgNum = s.msgNum := rfl
@[simp] theorem State.dputBytes_trace (s : State) (k : Nat) (bs : List Byte) : (s.dputBytes k bs).trace = s.trace := rfl
@[simp] theorem State.dputBytes_fabric (s : State) (k : Nat) (bs : List Byte) : (s.dputBytes k bs).fabric = s.fabric := rfl
@[simp] theorem State.dputBytes_coll (s : State) (k : Nat) (bs : List Byte) : (s.dputBytes k bs).coll = s.coll := rfl
@[simp] theorem State.dputBytes_host (s : State) (k : Nat) (bs : List Byte) : (s.dputBytes k bs).host = s.host := rfl
@[simp] theorem State.dputBytes_daymarks (s : State) (k : Nat) (bs : List Byte) : (s.dputBytes k bs).daymarks = s.daymarks := rfl
@[simp] theorem State.dputBytes_copying (s : State) (k : Nat) (bs : List Byte) : (s.dputBytes k bs).copying = s.copying := rfl
@[simp] theorem State.dputBytes_restores (s : State) (k : Nat) (bs : List Byte) : (s.dputBytes k bs).restores = s.restores := rfl
@[simp] theorem State.dputBytes_power (s : State) (k : Nat) (bs : List Byte) : (s.dputBytes k bs).power = s.power := rfl
@[simp] theorem State.dputBytes_resets (s : State) (k : Nat) (bs : List Byte) : (s.dputBytes k bs).resets = s.resets := rfl
@[simp] theorem State.dputBytes_mooring (s : State) (k : Nat) (bs : List Byte) : (s.dputBytes k bs).mooring = s.mooring := rfl
@[simp] theorem State.dputBytes_flash (s : State) (k : Nat) (bs : List Byte) : (s.dputBytes k bs).flash = s.flash := rfl
@[simp] theorem State.dputBytes_security (s : State) (k : Nat) (bs : List Byte) : (s.dputBytes k bs).security = s.security := rfl
@[simp] theorem State.dputBytes_keeper (s : State) (k : Nat) (bs : List Byte) : (s.dputBytes k bs).keeper = s.keeper := rfl
@[simp] theorem State.dputBytes_cyc (s : State) (k : Nat) (bs : List Byte) : (s.dputBytes k bs).cyc = s.cyc := rfl
@[simp] theorem State.dputBytes_free (s : State) (k : Nat) (bs : List Byte) : (s.dputBytes k bs).free = s.free := rfl
@[simp] theorem State.dputBytes_rd (s : State) (k : Nat) (bs : List Byte) (r0 : Reg) (u0 i0 : Nat) : (s.dputBytes k bs).rd r0 u0 i0 = s.rd r0 u0 i0 := rfl
@[simp] theorem State.dputBytes_fld (s : State) (k : Nat) (bs : List Byte) (f0 : Field) (u0 i0 : Nat) : (s.dputBytes k bs).fld f0 u0 i0 = s.fld f0 u0 i0 := rfl
@[simp] theorem State.dputBytes_dget (s : State) (k : Nat) (bs : List Byte) (k0 : Nat) : (s.dputBytes k bs).dget k0 = s.dget k0 := rfl
@[simp] theorem State.dputBytes_eng (s : State) (k : Nat) (bs : List Byte) (e0 : Nat) : (s.dputBytes k bs).eng e0 = s.eng e0 := rfl
@[simp] theorem State.dputBytes_rdByte (s : State) (k : Nat) (bs : List Byte) (p0 : Nat) : (s.dputBytes k bs).rdByte p0 = s.rdByte p0 := rfl
@[simp] theorem State.dputBytes_frame (s : State) (k : Nat) (bs : List Byte) (n0 : Nat) : (s.dputBytes k bs).frame n0 = s.frame n0 := rfl

@[simp] theorem State.setEng_pending (s : State) (e : Nat) (x : Engine) : (s.setEng e x).pending = s.pending := rfl
@[simp] theorem State.setEng_regs (s : State) (e : Nat) (x : Engine) : (s.setEng e x).regs = s.regs := rfl
@[simp] theorem State.setEng_mem (s : State) (e : Nat) (x : Engine) : (s.setEng e x).mem = s.mem := rfl
@[simp] theorem State.setEng_lens (s : State) (e : Nat) (x : Engine) : (s.setEng e x).lens = s.lens := rfl
@[simp] theorem State.setEng_badCheck (s : State) (e : Nat) (x : Engine) : (s.setEng e x).badCheck = s.badCheck := rfl
@[simp] theorem State.setEng_hbmDelta (s : State) (e : Nat) (x : Engine) : (s.setEng e x).hbmDelta = s.hbmDelta := rfl
@[simp] theorem State.setEng_poison (s : State) (e : Nat) (x : Engine) : (s.setEng e x).poison = s.poison := rfl
@[simp] theorem State.setEng_chains (s : State) (e : Nat) (x : Engine) : (s.setEng e x).chains = s.chains := rfl
@[simp] theorem State.setEng_seqs (s : State) (e : Nat) (x : Engine) : (s.setEng e x).seqs = s.seqs := rfl
@[simp] theorem State.setEng_reruns (s : State) (e : Nat) (x : Engine) : (s.setEng e x).reruns = s.reruns := rfl
@[simp] theorem State.setEng_regens (s : State) (e : Nat) (x : Engine) : (s.setEng e x).regens = s.regens := rfl
@[simp] theorem State.setEng_sram (s : State) (e : Nat) (x : Engine) : (s.setEng e x).sram = s.sram := rfl
@[simp] theorem State.setEng_hbm (s : State) (e : Nat) (x : Engine) : (s.setEng e x).hbm = s.hbm := rfl
@[simp] theorem State.setEng_pool (s : State) (e : Nat) (x : Engine) : (s.setEng e x).pool = s.pool := rfl
@[simp] theorem State.setEng_beam (s : State) (e : Nat) (x : Engine) : (s.setEng e x).beam = s.beam := rfl
@[simp] theorem State.setEng_dict (s : State) (e : Nat) (x : Engine) : (s.setEng e x).dict = s.dict := rfl
@[simp] theorem State.setEng_dictBytes (s : State) (e : Nat) (x : Engine) : (s.setEng e x).dictBytes = s.dictBytes := rfl
@[simp] theorem State.setEng_fuses (s : State) (e : Nat) (x : Engine) : (s.setEng e x).fuses = s.fuses := rfl
@[simp] theorem State.setEng_order (s : State) (e : Nat) (x : Engine) : (s.setEng e x).order = s.order := rfl
@[simp] theorem State.setEng_lid (s : State) (e : Nat) (x : Engine) : (s.setEng e x).lid = s.lid := rfl
@[simp] theorem State.setEng_heldWrites (s : State) (e : Nat) (x : Engine) : (s.setEng e x).heldWrites = s.heldWrites := rfl
@[simp] theorem State.setEng_sentMsgs (s : State) (e : Nat) (x : Engine) : (s.setEng e x).sentMsgs = s.sentMsgs := rfl
@[simp] theorem State.setEng_msgNum (s : State) (e : Nat) (x : Engine) : (s.setEng e x).msgNum = s.msgNum := rfl
@[simp] theorem State.setEng_trace (s : State) (e : Nat) (x : Engine) : (s.setEng e x).trace = s.trace := rfl
@[simp] theorem State.setEng_fabric (s : State) (e : Nat) (x : Engine) : (s.setEng e x).fabric = s.fabric := rfl
@[simp] theorem State.setEng_coll (s : State) (e : Nat) (x : Engine) : (s.setEng e x).coll = s.coll := rfl
@[simp] theorem State.setEng_host (s : State) (e : Nat) (x : Engine) : (s.setEng e x).host = s.host := rfl
@[simp] theorem State.setEng_daymarks (s : State) (e : Nat) (x : Engine) : (s.setEng e x).daymarks = s.daymarks := rfl
@[simp] theorem State.setEng_copying (s : State) (e : Nat) (x : Engine) : (s.setEng e x).copying = s.copying := rfl
@[simp] theorem State.setEng_restores (s : State) (e : Nat) (x : Engine) : (s.setEng e x).restores = s.restores := rfl
@[simp] theorem State.setEng_power (s : State) (e : Nat) (x : Engine) : (s.setEng e x).power = s.power := rfl
@[simp] theorem State.setEng_resets (s : State) (e : Nat) (x : Engine) : (s.setEng e x).resets = s.resets := rfl
@[simp] theorem State.setEng_mooring (s : State) (e : Nat) (x : Engine) : (s.setEng e x).mooring = s.mooring := rfl
@[simp] theorem State.setEng_flash (s : State) (e : Nat) (x : Engine) : (s.setEng e x).flash = s.flash := rfl
@[simp] theorem State.setEng_security (s : State) (e : Nat) (x : Engine) : (s.setEng e x).security = s.security := rfl
@[simp] theorem State.setEng_keeper (s : State) (e : Nat) (x : Engine) : (s.setEng e x).keeper = s.keeper := rfl
@[simp] theorem State.setEng_cyc (s : State) (e : Nat) (x : Engine) : (s.setEng e x).cyc = s.cyc := rfl
@[simp] theorem State.setEng_free (s : State) (e : Nat) (x : Engine) : (s.setEng e x).free = s.free := rfl
@[simp] theorem State.setEng_rd (s : State) (e : Nat) (x : Engine) (r0 : Reg) (u0 i0 : Nat) : (s.setEng e x).rd r0 u0 i0 = s.rd r0 u0 i0 := rfl
@[simp] theorem State.setEng_fld (s : State) (e : Nat) (x : Engine) (f0 : Field) (u0 i0 : Nat) : (s.setEng e x).fld f0 u0 i0 = s.fld f0 u0 i0 := rfl
@[simp] theorem State.setEng_dget (s : State) (e : Nat) (x : Engine) (k0 : Nat) : (s.setEng e x).dget k0 = s.dget k0 := rfl
@[simp] theorem State.setEng_dbytes (s : State) (e : Nat) (x : Engine) (k0 : Nat) : (s.setEng e x).dbytes k0 = s.dbytes k0 := rfl
@[simp] theorem State.setEng_rdByte (s : State) (e : Nat) (x : Engine) (p0 : Nat) : (s.setEng e x).rdByte p0 = s.rdByte p0 := rfl
@[simp] theorem State.setEng_frame (s : State) (e : Nat) (x : Engine) (n0 : Nat) : (s.setEng e x).frame n0 = s.frame n0 := rfl

@[simp] theorem State.wrByte_pending (s : State) (pa : Nat) (b : Byte) : (s.wrByte pa b).pending = s.pending := rfl
@[simp] theorem State.wrByte_regs (s : State) (pa : Nat) (b : Byte) : (s.wrByte pa b).regs = s.regs := rfl
@[simp] theorem State.wrByte_lens (s : State) (pa : Nat) (b : Byte) : (s.wrByte pa b).lens = s.lens := rfl
@[simp] theorem State.wrByte_badCheck (s : State) (pa : Nat) (b : Byte) : (s.wrByte pa b).badCheck = s.badCheck := rfl
@[simp] theorem State.wrByte_hbmDelta (s : State) (pa : Nat) (b : Byte) : (s.wrByte pa b).hbmDelta = s.hbmDelta := rfl
@[simp] theorem State.wrByte_poison (s : State) (pa : Nat) (b : Byte) : (s.wrByte pa b).poison = s.poison := rfl
@[simp] theorem State.wrByte_engines (s : State) (pa : Nat) (b : Byte) : (s.wrByte pa b).engines = s.engines := rfl
@[simp] theorem State.wrByte_chains (s : State) (pa : Nat) (b : Byte) : (s.wrByte pa b).chains = s.chains := rfl
@[simp] theorem State.wrByte_seqs (s : State) (pa : Nat) (b : Byte) : (s.wrByte pa b).seqs = s.seqs := rfl
@[simp] theorem State.wrByte_reruns (s : State) (pa : Nat) (b : Byte) : (s.wrByte pa b).reruns = s.reruns := rfl
@[simp] theorem State.wrByte_regens (s : State) (pa : Nat) (b : Byte) : (s.wrByte pa b).regens = s.regens := rfl
@[simp] theorem State.wrByte_sram (s : State) (pa : Nat) (b : Byte) : (s.wrByte pa b).sram = s.sram := rfl
@[simp] theorem State.wrByte_hbm (s : State) (pa : Nat) (b : Byte) : (s.wrByte pa b).hbm = s.hbm := rfl
@[simp] theorem State.wrByte_pool (s : State) (pa : Nat) (b : Byte) : (s.wrByte pa b).pool = s.pool := rfl
@[simp] theorem State.wrByte_beam (s : State) (pa : Nat) (b : Byte) : (s.wrByte pa b).beam = s.beam := rfl
@[simp] theorem State.wrByte_dict (s : State) (pa : Nat) (b : Byte) : (s.wrByte pa b).dict = s.dict := rfl
@[simp] theorem State.wrByte_dictBytes (s : State) (pa : Nat) (b : Byte) : (s.wrByte pa b).dictBytes = s.dictBytes := rfl
@[simp] theorem State.wrByte_fuses (s : State) (pa : Nat) (b : Byte) : (s.wrByte pa b).fuses = s.fuses := rfl
@[simp] theorem State.wrByte_order (s : State) (pa : Nat) (b : Byte) : (s.wrByte pa b).order = s.order := rfl
@[simp] theorem State.wrByte_lid (s : State) (pa : Nat) (b : Byte) : (s.wrByte pa b).lid = s.lid := rfl
@[simp] theorem State.wrByte_heldWrites (s : State) (pa : Nat) (b : Byte) : (s.wrByte pa b).heldWrites = s.heldWrites := rfl
@[simp] theorem State.wrByte_sentMsgs (s : State) (pa : Nat) (b : Byte) : (s.wrByte pa b).sentMsgs = s.sentMsgs := rfl
@[simp] theorem State.wrByte_msgNum (s : State) (pa : Nat) (b : Byte) : (s.wrByte pa b).msgNum = s.msgNum := rfl
@[simp] theorem State.wrByte_trace (s : State) (pa : Nat) (b : Byte) : (s.wrByte pa b).trace = s.trace := rfl
@[simp] theorem State.wrByte_fabric (s : State) (pa : Nat) (b : Byte) : (s.wrByte pa b).fabric = s.fabric := rfl
@[simp] theorem State.wrByte_coll (s : State) (pa : Nat) (b : Byte) : (s.wrByte pa b).coll = s.coll := rfl
@[simp] theorem State.wrByte_host (s : State) (pa : Nat) (b : Byte) : (s.wrByte pa b).host = s.host := rfl
@[simp] theorem State.wrByte_daymarks (s : State) (pa : Nat) (b : Byte) : (s.wrByte pa b).daymarks = s.daymarks := rfl
@[simp] theorem State.wrByte_copying (s : State) (pa : Nat) (b : Byte) : (s.wrByte pa b).copying = s.copying := rfl
@[simp] theorem State.wrByte_restores (s : State) (pa : Nat) (b : Byte) : (s.wrByte pa b).restores = s.restores := rfl
@[simp] theorem State.wrByte_power (s : State) (pa : Nat) (b : Byte) : (s.wrByte pa b).power = s.power := rfl
@[simp] theorem State.wrByte_resets (s : State) (pa : Nat) (b : Byte) : (s.wrByte pa b).resets = s.resets := rfl
@[simp] theorem State.wrByte_mooring (s : State) (pa : Nat) (b : Byte) : (s.wrByte pa b).mooring = s.mooring := rfl
@[simp] theorem State.wrByte_flash (s : State) (pa : Nat) (b : Byte) : (s.wrByte pa b).flash = s.flash := rfl
@[simp] theorem State.wrByte_security (s : State) (pa : Nat) (b : Byte) : (s.wrByte pa b).security = s.security := rfl
@[simp] theorem State.wrByte_keeper (s : State) (pa : Nat) (b : Byte) : (s.wrByte pa b).keeper = s.keeper := rfl
@[simp] theorem State.wrByte_cyc (s : State) (pa : Nat) (b : Byte) : (s.wrByte pa b).cyc = s.cyc := rfl
@[simp] theorem State.wrByte_free (s : State) (pa : Nat) (b : Byte) : (s.wrByte pa b).free = s.free := rfl
@[simp] theorem State.wrByte_rd (s : State) (pa : Nat) (b : Byte) (r0 : Reg) (u0 i0 : Nat) : (s.wrByte pa b).rd r0 u0 i0 = s.rd r0 u0 i0 := rfl
@[simp] theorem State.wrByte_fld (s : State) (pa : Nat) (b : Byte) (f0 : Field) (u0 i0 : Nat) : (s.wrByte pa b).fld f0 u0 i0 = s.fld f0 u0 i0 := rfl
@[simp] theorem State.wrByte_dget (s : State) (pa : Nat) (b : Byte) (k0 : Nat) : (s.wrByte pa b).dget k0 = s.dget k0 := rfl
@[simp] theorem State.wrByte_dbytes (s : State) (pa : Nat) (b : Byte) (k0 : Nat) : (s.wrByte pa b).dbytes k0 = s.dbytes k0 := rfl
@[simp] theorem State.wrByte_eng (s : State) (pa : Nat) (b : Byte) (e0 : Nat) : (s.wrByte pa b).eng e0 = s.eng e0 := rfl
@[simp] theorem State.wrByte_frame (s : State) (pa : Nat) (b : Byte) (n0 : Nat) : (s.wrByte pa b).frame n0 = s.frame n0 := rfl

@[simp] theorem State.setFrame_pending (s : State) (n : Nat) (f : FrameRec) : (s.setFrame n f).pending = s.pending := rfl
@[simp] theorem State.setFrame_regs (s : State) (n : Nat) (f : FrameRec) : (s.setFrame n f).regs = s.regs := rfl
@[simp] theorem State.setFrame_mem (s : State) (n : Nat) (f : FrameRec) : (s.setFrame n f).mem = s.mem := rfl
@[simp] theorem State.setFrame_lens (s : State) (n : Nat) (f : FrameRec) : (s.setFrame n f).lens = s.lens := rfl
@[simp] theorem State.setFrame_badCheck (s : State) (n : Nat) (f : FrameRec) : (s.setFrame n f).badCheck = s.badCheck := rfl
@[simp] theorem State.setFrame_hbmDelta (s : State) (n : Nat) (f : FrameRec) : (s.setFrame n f).hbmDelta = s.hbmDelta := rfl
@[simp] theorem State.setFrame_poison (s : State) (n : Nat) (f : FrameRec) : (s.setFrame n f).poison = s.poison := rfl
@[simp] theorem State.setFrame_engines (s : State) (n : Nat) (f : FrameRec) : (s.setFrame n f).engines = s.engines := rfl
@[simp] theorem State.setFrame_chains (s : State) (n : Nat) (f : FrameRec) : (s.setFrame n f).chains = s.chains := rfl
@[simp] theorem State.setFrame_seqs (s : State) (n : Nat) (f : FrameRec) : (s.setFrame n f).seqs = s.seqs := rfl
@[simp] theorem State.setFrame_reruns (s : State) (n : Nat) (f : FrameRec) : (s.setFrame n f).reruns = s.reruns := rfl
@[simp] theorem State.setFrame_regens (s : State) (n : Nat) (f : FrameRec) : (s.setFrame n f).regens = s.regens := rfl
@[simp] theorem State.setFrame_sram (s : State) (n : Nat) (f : FrameRec) : (s.setFrame n f).sram = s.sram := rfl
@[simp] theorem State.setFrame_hbm (s : State) (n : Nat) (f : FrameRec) : (s.setFrame n f).hbm = s.hbm := rfl
@[simp] theorem State.setFrame_beam (s : State) (n : Nat) (f : FrameRec) : (s.setFrame n f).beam = s.beam := rfl
@[simp] theorem State.setFrame_dict (s : State) (n : Nat) (f : FrameRec) : (s.setFrame n f).dict = s.dict := rfl
@[simp] theorem State.setFrame_dictBytes (s : State) (n : Nat) (f : FrameRec) : (s.setFrame n f).dictBytes = s.dictBytes := rfl
@[simp] theorem State.setFrame_fuses (s : State) (n : Nat) (f : FrameRec) : (s.setFrame n f).fuses = s.fuses := rfl
@[simp] theorem State.setFrame_order (s : State) (n : Nat) (f : FrameRec) : (s.setFrame n f).order = s.order := rfl
@[simp] theorem State.setFrame_lid (s : State) (n : Nat) (f : FrameRec) : (s.setFrame n f).lid = s.lid := rfl
@[simp] theorem State.setFrame_heldWrites (s : State) (n : Nat) (f : FrameRec) : (s.setFrame n f).heldWrites = s.heldWrites := rfl
@[simp] theorem State.setFrame_sentMsgs (s : State) (n : Nat) (f : FrameRec) : (s.setFrame n f).sentMsgs = s.sentMsgs := rfl
@[simp] theorem State.setFrame_msgNum (s : State) (n : Nat) (f : FrameRec) : (s.setFrame n f).msgNum = s.msgNum := rfl
@[simp] theorem State.setFrame_trace (s : State) (n : Nat) (f : FrameRec) : (s.setFrame n f).trace = s.trace := rfl
@[simp] theorem State.setFrame_fabric (s : State) (n : Nat) (f : FrameRec) : (s.setFrame n f).fabric = s.fabric := rfl
@[simp] theorem State.setFrame_coll (s : State) (n : Nat) (f : FrameRec) : (s.setFrame n f).coll = s.coll := rfl
@[simp] theorem State.setFrame_host (s : State) (n : Nat) (f : FrameRec) : (s.setFrame n f).host = s.host := rfl
@[simp] theorem State.setFrame_daymarks (s : State) (n : Nat) (f : FrameRec) : (s.setFrame n f).daymarks = s.daymarks := rfl
@[simp] theorem State.setFrame_copying (s : State) (n : Nat) (f : FrameRec) : (s.setFrame n f).copying = s.copying := rfl
@[simp] theorem State.setFrame_restores (s : State) (n : Nat) (f : FrameRec) : (s.setFrame n f).restores = s.restores := rfl
@[simp] theorem State.setFrame_power (s : State) (n : Nat) (f : FrameRec) : (s.setFrame n f).power = s.power := rfl
@[simp] theorem State.setFrame_resets (s : State) (n : Nat) (f : FrameRec) : (s.setFrame n f).resets = s.resets := rfl
@[simp] theorem State.setFrame_mooring (s : State) (n : Nat) (f : FrameRec) : (s.setFrame n f).mooring = s.mooring := rfl
@[simp] theorem State.setFrame_flash (s : State) (n : Nat) (f : FrameRec) : (s.setFrame n f).flash = s.flash := rfl
@[simp] theorem State.setFrame_security (s : State) (n : Nat) (f : FrameRec) : (s.setFrame n f).security = s.security := rfl
@[simp] theorem State.setFrame_keeper (s : State) (n : Nat) (f : FrameRec) : (s.setFrame n f).keeper = s.keeper := rfl
@[simp] theorem State.setFrame_cyc (s : State) (n : Nat) (f : FrameRec) : (s.setFrame n f).cyc = s.cyc := rfl
@[simp] theorem State.setFrame_free (s : State) (n : Nat) (f : FrameRec) : (s.setFrame n f).free = s.free := rfl
@[simp] theorem State.setFrame_rd (s : State) (n : Nat) (f : FrameRec) (r0 : Reg) (u0 i0 : Nat) : (s.setFrame n f).rd r0 u0 i0 = s.rd r0 u0 i0 := rfl
@[simp] theorem State.setFrame_fld (s : State) (n : Nat) (f : FrameRec) (f0 : Field) (u0 i0 : Nat) : (s.setFrame n f).fld f0 u0 i0 = s.fld f0 u0 i0 := rfl
@[simp] theorem State.setFrame_dget (s : State) (n : Nat) (f : FrameRec) (k0 : Nat) : (s.setFrame n f).dget k0 = s.dget k0 := rfl
@[simp] theorem State.setFrame_dbytes (s : State) (n : Nat) (f : FrameRec) (k0 : Nat) : (s.setFrame n f).dbytes k0 = s.dbytes k0 := rfl
@[simp] theorem State.setFrame_eng (s : State) (n : Nat) (f : FrameRec) (e0 : Nat) : (s.setFrame n f).eng e0 = s.eng e0 := rfl
@[simp] theorem State.setFrame_rdByte (s : State) (n : Nat) (f : FrameRec) (p0 : Nat) : (s.setFrame n f).rdByte p0 = s.rdByte p0 := rfl

@[simp] theorem State.setChain_pending (s : State) (c : Chain) : (s.setChain c).pending = s.pending := rfl
@[simp] theorem State.setChain_regs (s : State) (c : Chain) : (s.setChain c).regs = s.regs := rfl
@[simp] theorem State.setChain_mem (s : State) (c : Chain) : (s.setChain c).mem = s.mem := rfl
@[simp] theorem State.setChain_lens (s : State) (c : Chain) : (s.setChain c).lens = s.lens := rfl
@[simp] theorem State.setChain_badCheck (s : State) (c : Chain) : (s.setChain c).badCheck = s.badCheck := rfl
@[simp] theorem State.setChain_hbmDelta (s : State) (c : Chain) : (s.setChain c).hbmDelta = s.hbmDelta := rfl
@[simp] theorem State.setChain_poison (s : State) (c : Chain) : (s.setChain c).poison = s.poison := rfl
@[simp] theorem State.setChain_engines (s : State) (c : Chain) : (s.setChain c).engines = s.engines := rfl
@[simp] theorem State.setChain_seqs (s : State) (c : Chain) : (s.setChain c).seqs = s.seqs := rfl
@[simp] theorem State.setChain_reruns (s : State) (c : Chain) : (s.setChain c).reruns = s.reruns := rfl
@[simp] theorem State.setChain_regens (s : State) (c : Chain) : (s.setChain c).regens = s.regens := rfl
@[simp] theorem State.setChain_sram (s : State) (c : Chain) : (s.setChain c).sram = s.sram := rfl
@[simp] theorem State.setChain_hbm (s : State) (c : Chain) : (s.setChain c).hbm = s.hbm := rfl
@[simp] theorem State.setChain_pool (s : State) (c : Chain) : (s.setChain c).pool = s.pool := rfl
@[simp] theorem State.setChain_beam (s : State) (c : Chain) : (s.setChain c).beam = s.beam := rfl
@[simp] theorem State.setChain_dict (s : State) (c : Chain) : (s.setChain c).dict = s.dict := rfl
@[simp] theorem State.setChain_dictBytes (s : State) (c : Chain) : (s.setChain c).dictBytes = s.dictBytes := rfl
@[simp] theorem State.setChain_fuses (s : State) (c : Chain) : (s.setChain c).fuses = s.fuses := rfl
@[simp] theorem State.setChain_order (s : State) (c : Chain) : (s.setChain c).order = s.order := rfl
@[simp] theorem State.setChain_lid (s : State) (c : Chain) : (s.setChain c).lid = s.lid := rfl
@[simp] theorem State.setChain_heldWrites (s : State) (c : Chain) : (s.setChain c).heldWrites = s.heldWrites := rfl
@[simp] theorem State.setChain_sentMsgs (s : State) (c : Chain) : (s.setChain c).sentMsgs = s.sentMsgs := rfl
@[simp] theorem State.setChain_msgNum (s : State) (c : Chain) : (s.setChain c).msgNum = s.msgNum := rfl
@[simp] theorem State.setChain_trace (s : State) (c : Chain) : (s.setChain c).trace = s.trace := rfl
@[simp] theorem State.setChain_fabric (s : State) (c : Chain) : (s.setChain c).fabric = s.fabric := rfl
@[simp] theorem State.setChain_coll (s : State) (c : Chain) : (s.setChain c).coll = s.coll := rfl
@[simp] theorem State.setChain_host (s : State) (c : Chain) : (s.setChain c).host = s.host := rfl
@[simp] theorem State.setChain_daymarks (s : State) (c : Chain) : (s.setChain c).daymarks = s.daymarks := rfl
@[simp] theorem State.setChain_copying (s : State) (c : Chain) : (s.setChain c).copying = s.copying := rfl
@[simp] theorem State.setChain_restores (s : State) (c : Chain) : (s.setChain c).restores = s.restores := rfl
@[simp] theorem State.setChain_power (s : State) (c : Chain) : (s.setChain c).power = s.power := rfl
@[simp] theorem State.setChain_resets (s : State) (c : Chain) : (s.setChain c).resets = s.resets := rfl
@[simp] theorem State.setChain_mooring (s : State) (c : Chain) : (s.setChain c).mooring = s.mooring := rfl
@[simp] theorem State.setChain_flash (s : State) (c : Chain) : (s.setChain c).flash = s.flash := rfl
@[simp] theorem State.setChain_security (s : State) (c : Chain) : (s.setChain c).security = s.security := rfl
@[simp] theorem State.setChain_keeper (s : State) (c : Chain) : (s.setChain c).keeper = s.keeper := rfl
@[simp] theorem State.setChain_cyc (s : State) (c : Chain) : (s.setChain c).cyc = s.cyc := rfl
@[simp] theorem State.setChain_free (s : State) (c : Chain) : (s.setChain c).free = s.free := rfl
@[simp] theorem State.setChain_rd (s : State) (c : Chain) (r0 : Reg) (u0 i0 : Nat) : (s.setChain c).rd r0 u0 i0 = s.rd r0 u0 i0 := rfl
@[simp] theorem State.setChain_fld (s : State) (c : Chain) (f0 : Field) (u0 i0 : Nat) : (s.setChain c).fld f0 u0 i0 = s.fld f0 u0 i0 := rfl
@[simp] theorem State.setChain_dget (s : State) (c : Chain) (k0 : Nat) : (s.setChain c).dget k0 = s.dget k0 := rfl
@[simp] theorem State.setChain_dbytes (s : State) (c : Chain) (k0 : Nat) : (s.setChain c).dbytes k0 = s.dbytes k0 := rfl
@[simp] theorem State.setChain_eng (s : State) (c : Chain) (e0 : Nat) : (s.setChain c).eng e0 = s.eng e0 := rfl
@[simp] theorem State.setChain_rdByte (s : State) (c : Chain) (p0 : Nat) : (s.setChain c).rdByte p0 = s.rdByte p0 := rfl
@[simp] theorem State.setChain_frame (s : State) (c : Chain) (n0 : Nat) : (s.setChain c).frame n0 = s.frame n0 := rfl

@[simp] theorem State.dropChain_pending (s : State) (c : Chain) : (s.dropChain c).pending = s.pending := rfl
@[simp] theorem State.dropChain_regs (s : State) (c : Chain) : (s.dropChain c).regs = s.regs := rfl
@[simp] theorem State.dropChain_mem (s : State) (c : Chain) : (s.dropChain c).mem = s.mem := rfl
@[simp] theorem State.dropChain_lens (s : State) (c : Chain) : (s.dropChain c).lens = s.lens := rfl
@[simp] theorem State.dropChain_badCheck (s : State) (c : Chain) : (s.dropChain c).badCheck = s.badCheck := rfl
@[simp] theorem State.dropChain_hbmDelta (s : State) (c : Chain) : (s.dropChain c).hbmDelta = s.hbmDelta := rfl
@[simp] theorem State.dropChain_poison (s : State) (c : Chain) : (s.dropChain c).poison = s.poison := rfl
@[simp] theorem State.dropChain_engines (s : State) (c : Chain) : (s.dropChain c).engines = s.engines := rfl
@[simp] theorem State.dropChain_seqs (s : State) (c : Chain) : (s.dropChain c).seqs = s.seqs := rfl
@[simp] theorem State.dropChain_reruns (s : State) (c : Chain) : (s.dropChain c).reruns = s.reruns := rfl
@[simp] theorem State.dropChain_regens (s : State) (c : Chain) : (s.dropChain c).regens = s.regens := rfl
@[simp] theorem State.dropChain_sram (s : State) (c : Chain) : (s.dropChain c).sram = s.sram := rfl
@[simp] theorem State.dropChain_hbm (s : State) (c : Chain) : (s.dropChain c).hbm = s.hbm := rfl
@[simp] theorem State.dropChain_pool (s : State) (c : Chain) : (s.dropChain c).pool = s.pool := rfl
@[simp] theorem State.dropChain_beam (s : State) (c : Chain) : (s.dropChain c).beam = s.beam := rfl
@[simp] theorem State.dropChain_dict (s : State) (c : Chain) : (s.dropChain c).dict = s.dict := rfl
@[simp] theorem State.dropChain_dictBytes (s : State) (c : Chain) : (s.dropChain c).dictBytes = s.dictBytes := rfl
@[simp] theorem State.dropChain_fuses (s : State) (c : Chain) : (s.dropChain c).fuses = s.fuses := rfl
@[simp] theorem State.dropChain_order (s : State) (c : Chain) : (s.dropChain c).order = s.order := rfl
@[simp] theorem State.dropChain_lid (s : State) (c : Chain) : (s.dropChain c).lid = s.lid := rfl
@[simp] theorem State.dropChain_heldWrites (s : State) (c : Chain) : (s.dropChain c).heldWrites = s.heldWrites := rfl
@[simp] theorem State.dropChain_sentMsgs (s : State) (c : Chain) : (s.dropChain c).sentMsgs = s.sentMsgs := rfl
@[simp] theorem State.dropChain_msgNum (s : State) (c : Chain) : (s.dropChain c).msgNum = s.msgNum := rfl
@[simp] theorem State.dropChain_trace (s : State) (c : Chain) : (s.dropChain c).trace = s.trace := rfl
@[simp] theorem State.dropChain_fabric (s : State) (c : Chain) : (s.dropChain c).fabric = s.fabric := rfl
@[simp] theorem State.dropChain_coll (s : State) (c : Chain) : (s.dropChain c).coll = s.coll := rfl
@[simp] theorem State.dropChain_host (s : State) (c : Chain) : (s.dropChain c).host = s.host := rfl
@[simp] theorem State.dropChain_daymarks (s : State) (c : Chain) : (s.dropChain c).daymarks = s.daymarks := rfl
@[simp] theorem State.dropChain_copying (s : State) (c : Chain) : (s.dropChain c).copying = s.copying := rfl
@[simp] theorem State.dropChain_restores (s : State) (c : Chain) : (s.dropChain c).restores = s.restores := rfl
@[simp] theorem State.dropChain_power (s : State) (c : Chain) : (s.dropChain c).power = s.power := rfl
@[simp] theorem State.dropChain_resets (s : State) (c : Chain) : (s.dropChain c).resets = s.resets := rfl
@[simp] theorem State.dropChain_mooring (s : State) (c : Chain) : (s.dropChain c).mooring = s.mooring := rfl
@[simp] theorem State.dropChain_flash (s : State) (c : Chain) : (s.dropChain c).flash = s.flash := rfl
@[simp] theorem State.dropChain_security (s : State) (c : Chain) : (s.dropChain c).security = s.security := rfl
@[simp] theorem State.dropChain_keeper (s : State) (c : Chain) : (s.dropChain c).keeper = s.keeper := rfl
@[simp] theorem State.dropChain_cyc (s : State) (c : Chain) : (s.dropChain c).cyc = s.cyc := rfl
@[simp] theorem State.dropChain_free (s : State) (c : Chain) : (s.dropChain c).free = s.free := rfl
@[simp] theorem State.dropChain_rd (s : State) (c : Chain) (r0 : Reg) (u0 i0 : Nat) : (s.dropChain c).rd r0 u0 i0 = s.rd r0 u0 i0 := rfl
@[simp] theorem State.dropChain_fld (s : State) (c : Chain) (f0 : Field) (u0 i0 : Nat) : (s.dropChain c).fld f0 u0 i0 = s.fld f0 u0 i0 := rfl
@[simp] theorem State.dropChain_dget (s : State) (c : Chain) (k0 : Nat) : (s.dropChain c).dget k0 = s.dget k0 := rfl
@[simp] theorem State.dropChain_dbytes (s : State) (c : Chain) (k0 : Nat) : (s.dropChain c).dbytes k0 = s.dbytes k0 := rfl
@[simp] theorem State.dropChain_eng (s : State) (c : Chain) (e0 : Nat) : (s.dropChain c).eng e0 = s.eng e0 := rfl
@[simp] theorem State.dropChain_rdByte (s : State) (c : Chain) (p0 : Nat) : (s.dropChain c).rdByte p0 = s.rdByte p0 := rfl
@[simp] theorem State.dropChain_frame (s : State) (c : Chain) (n0 : Nat) : (s.dropChain c).frame n0 = s.frame n0 := rfl

@[simp] theorem State.setRec_pending (s : State) (r : RecInst) : (s.setRec r).pending = s.pending := rfl
@[simp] theorem State.setRec_regs (s : State) (r : RecInst) : (s.setRec r).regs = s.regs := rfl
@[simp] theorem State.setRec_mem (s : State) (r : RecInst) : (s.setRec r).mem = s.mem := rfl
@[simp] theorem State.setRec_lens (s : State) (r : RecInst) : (s.setRec r).lens = s.lens := rfl
@[simp] theorem State.setRec_badCheck (s : State) (r : RecInst) : (s.setRec r).badCheck = s.badCheck := rfl
@[simp] theorem State.setRec_hbmDelta (s : State) (r : RecInst) : (s.setRec r).hbmDelta = s.hbmDelta := rfl
@[simp] theorem State.setRec_poison (s : State) (r : RecInst) : (s.setRec r).poison = s.poison := rfl
@[simp] theorem State.setRec_engines (s : State) (r : RecInst) : (s.setRec r).engines = s.engines := rfl
@[simp] theorem State.setRec_chains (s : State) (r : RecInst) : (s.setRec r).chains = s.chains := rfl
@[simp] theorem State.setRec_seqs (s : State) (r : RecInst) : (s.setRec r).seqs = s.seqs := rfl
@[simp] theorem State.setRec_reruns (s : State) (r : RecInst) : (s.setRec r).reruns = s.reruns := rfl
@[simp] theorem State.setRec_regens (s : State) (r : RecInst) : (s.setRec r).regens = s.regens := rfl
@[simp] theorem State.setRec_sram (s : State) (r : RecInst) : (s.setRec r).sram = s.sram := rfl
@[simp] theorem State.setRec_hbm (s : State) (r : RecInst) : (s.setRec r).hbm = s.hbm := rfl
@[simp] theorem State.setRec_pool (s : State) (r : RecInst) : (s.setRec r).pool = s.pool := rfl
@[simp] theorem State.setRec_dict (s : State) (r : RecInst) : (s.setRec r).dict = s.dict := rfl
@[simp] theorem State.setRec_dictBytes (s : State) (r : RecInst) : (s.setRec r).dictBytes = s.dictBytes := rfl
@[simp] theorem State.setRec_fuses (s : State) (r : RecInst) : (s.setRec r).fuses = s.fuses := rfl
@[simp] theorem State.setRec_order (s : State) (r : RecInst) : (s.setRec r).order = s.order := rfl
@[simp] theorem State.setRec_lid (s : State) (r : RecInst) : (s.setRec r).lid = s.lid := rfl
@[simp] theorem State.setRec_heldWrites (s : State) (r : RecInst) : (s.setRec r).heldWrites = s.heldWrites := rfl
@[simp] theorem State.setRec_sentMsgs (s : State) (r : RecInst) : (s.setRec r).sentMsgs = s.sentMsgs := rfl
@[simp] theorem State.setRec_msgNum (s : State) (r : RecInst) : (s.setRec r).msgNum = s.msgNum := rfl
@[simp] theorem State.setRec_trace (s : State) (r : RecInst) : (s.setRec r).trace = s.trace := rfl
@[simp] theorem State.setRec_fabric (s : State) (r : RecInst) : (s.setRec r).fabric = s.fabric := rfl
@[simp] theorem State.setRec_coll (s : State) (r : RecInst) : (s.setRec r).coll = s.coll := rfl
@[simp] theorem State.setRec_host (s : State) (r : RecInst) : (s.setRec r).host = s.host := rfl
@[simp] theorem State.setRec_daymarks (s : State) (r : RecInst) : (s.setRec r).daymarks = s.daymarks := rfl
@[simp] theorem State.setRec_copying (s : State) (r : RecInst) : (s.setRec r).copying = s.copying := rfl
@[simp] theorem State.setRec_restores (s : State) (r : RecInst) : (s.setRec r).restores = s.restores := rfl
@[simp] theorem State.setRec_power (s : State) (r : RecInst) : (s.setRec r).power = s.power := rfl
@[simp] theorem State.setRec_resets (s : State) (r : RecInst) : (s.setRec r).resets = s.resets := rfl
@[simp] theorem State.setRec_mooring (s : State) (r : RecInst) : (s.setRec r).mooring = s.mooring := rfl
@[simp] theorem State.setRec_flash (s : State) (r : RecInst) : (s.setRec r).flash = s.flash := rfl
@[simp] theorem State.setRec_security (s : State) (r : RecInst) : (s.setRec r).security = s.security := rfl
@[simp] theorem State.setRec_keeper (s : State) (r : RecInst) : (s.setRec r).keeper = s.keeper := rfl
@[simp] theorem State.setRec_cyc (s : State) (r : RecInst) : (s.setRec r).cyc = s.cyc := rfl
@[simp] theorem State.setRec_free (s : State) (r : RecInst) : (s.setRec r).free = s.free := rfl
@[simp] theorem State.setRec_rd (s : State) (r : RecInst) (r0 : Reg) (u0 i0 : Nat) : (s.setRec r).rd r0 u0 i0 = s.rd r0 u0 i0 := rfl
@[simp] theorem State.setRec_fld (s : State) (r : RecInst) (f0 : Field) (u0 i0 : Nat) : (s.setRec r).fld f0 u0 i0 = s.fld f0 u0 i0 := rfl
@[simp] theorem State.setRec_dget (s : State) (r : RecInst) (k0 : Nat) : (s.setRec r).dget k0 = s.dget k0 := rfl
@[simp] theorem State.setRec_dbytes (s : State) (r : RecInst) (k0 : Nat) : (s.setRec r).dbytes k0 = s.dbytes k0 := rfl
@[simp] theorem State.setRec_eng (s : State) (r : RecInst) (e0 : Nat) : (s.setRec r).eng e0 = s.eng e0 := rfl
@[simp] theorem State.setRec_rdByte (s : State) (r : RecInst) (p0 : Nat) : (s.setRec r).rdByte p0 = s.rdByte p0 := rfl
@[simp] theorem State.setRec_frame (s : State) (r : RecInst) (n0 : Nat) : (s.setRec r).frame n0 = s.frame n0 := rfl

@[simp] theorem State.dropRec_pending (s : State) (launch : Nat) : (s.dropRec launch).pending = s.pending := rfl
@[simp] theorem State.dropRec_regs (s : State) (launch : Nat) : (s.dropRec launch).regs = s.regs := rfl
@[simp] theorem State.dropRec_mem (s : State) (launch : Nat) : (s.dropRec launch).mem = s.mem := rfl
@[simp] theorem State.dropRec_lens (s : State) (launch : Nat) : (s.dropRec launch).lens = s.lens := rfl
@[simp] theorem State.dropRec_badCheck (s : State) (launch : Nat) : (s.dropRec launch).badCheck = s.badCheck := rfl
@[simp] theorem State.dropRec_hbmDelta (s : State) (launch : Nat) : (s.dropRec launch).hbmDelta = s.hbmDelta := rfl
@[simp] theorem State.dropRec_poison (s : State) (launch : Nat) : (s.dropRec launch).poison = s.poison := rfl
@[simp] theorem State.dropRec_engines (s : State) (launch : Nat) : (s.dropRec launch).engines = s.engines := rfl
@[simp] theorem State.dropRec_chains (s : State) (launch : Nat) : (s.dropRec launch).chains = s.chains := rfl
@[simp] theorem State.dropRec_seqs (s : State) (launch : Nat) : (s.dropRec launch).seqs = s.seqs := rfl
@[simp] theorem State.dropRec_reruns (s : State) (launch : Nat) : (s.dropRec launch).reruns = s.reruns := rfl
@[simp] theorem State.dropRec_regens (s : State) (launch : Nat) : (s.dropRec launch).regens = s.regens := rfl
@[simp] theorem State.dropRec_sram (s : State) (launch : Nat) : (s.dropRec launch).sram = s.sram := rfl
@[simp] theorem State.dropRec_hbm (s : State) (launch : Nat) : (s.dropRec launch).hbm = s.hbm := rfl
@[simp] theorem State.dropRec_pool (s : State) (launch : Nat) : (s.dropRec launch).pool = s.pool := rfl
@[simp] theorem State.dropRec_dict (s : State) (launch : Nat) : (s.dropRec launch).dict = s.dict := rfl
@[simp] theorem State.dropRec_dictBytes (s : State) (launch : Nat) : (s.dropRec launch).dictBytes = s.dictBytes := rfl
@[simp] theorem State.dropRec_fuses (s : State) (launch : Nat) : (s.dropRec launch).fuses = s.fuses := rfl
@[simp] theorem State.dropRec_order (s : State) (launch : Nat) : (s.dropRec launch).order = s.order := rfl
@[simp] theorem State.dropRec_lid (s : State) (launch : Nat) : (s.dropRec launch).lid = s.lid := rfl
@[simp] theorem State.dropRec_heldWrites (s : State) (launch : Nat) : (s.dropRec launch).heldWrites = s.heldWrites := rfl
@[simp] theorem State.dropRec_sentMsgs (s : State) (launch : Nat) : (s.dropRec launch).sentMsgs = s.sentMsgs := rfl
@[simp] theorem State.dropRec_msgNum (s : State) (launch : Nat) : (s.dropRec launch).msgNum = s.msgNum := rfl
@[simp] theorem State.dropRec_trace (s : State) (launch : Nat) : (s.dropRec launch).trace = s.trace := rfl
@[simp] theorem State.dropRec_fabric (s : State) (launch : Nat) : (s.dropRec launch).fabric = s.fabric := rfl
@[simp] theorem State.dropRec_coll (s : State) (launch : Nat) : (s.dropRec launch).coll = s.coll := rfl
@[simp] theorem State.dropRec_host (s : State) (launch : Nat) : (s.dropRec launch).host = s.host := rfl
@[simp] theorem State.dropRec_daymarks (s : State) (launch : Nat) : (s.dropRec launch).daymarks = s.daymarks := rfl
@[simp] theorem State.dropRec_copying (s : State) (launch : Nat) : (s.dropRec launch).copying = s.copying := rfl
@[simp] theorem State.dropRec_restores (s : State) (launch : Nat) : (s.dropRec launch).restores = s.restores := rfl
@[simp] theorem State.dropRec_power (s : State) (launch : Nat) : (s.dropRec launch).power = s.power := rfl
@[simp] theorem State.dropRec_resets (s : State) (launch : Nat) : (s.dropRec launch).resets = s.resets := rfl
@[simp] theorem State.dropRec_mooring (s : State) (launch : Nat) : (s.dropRec launch).mooring = s.mooring := rfl
@[simp] theorem State.dropRec_flash (s : State) (launch : Nat) : (s.dropRec launch).flash = s.flash := rfl
@[simp] theorem State.dropRec_security (s : State) (launch : Nat) : (s.dropRec launch).security = s.security := rfl
@[simp] theorem State.dropRec_keeper (s : State) (launch : Nat) : (s.dropRec launch).keeper = s.keeper := rfl
@[simp] theorem State.dropRec_cyc (s : State) (launch : Nat) : (s.dropRec launch).cyc = s.cyc := rfl
@[simp] theorem State.dropRec_free (s : State) (launch : Nat) : (s.dropRec launch).free = s.free := rfl
@[simp] theorem State.dropRec_rd (s : State) (launch : Nat) (r0 : Reg) (u0 i0 : Nat) : (s.dropRec launch).rd r0 u0 i0 = s.rd r0 u0 i0 := rfl
@[simp] theorem State.dropRec_fld (s : State) (launch : Nat) (f0 : Field) (u0 i0 : Nat) : (s.dropRec launch).fld f0 u0 i0 = s.fld f0 u0 i0 := rfl
@[simp] theorem State.dropRec_dget (s : State) (launch : Nat) (k0 : Nat) : (s.dropRec launch).dget k0 = s.dget k0 := rfl
@[simp] theorem State.dropRec_dbytes (s : State) (launch : Nat) (k0 : Nat) : (s.dropRec launch).dbytes k0 = s.dbytes k0 := rfl
@[simp] theorem State.dropRec_eng (s : State) (launch : Nat) (e0 : Nat) : (s.dropRec launch).eng e0 = s.eng e0 := rfl
@[simp] theorem State.dropRec_rdByte (s : State) (launch : Nat) (p0 : Nat) : (s.dropRec launch).rdByte p0 = s.rdByte p0 := rfl
@[simp] theorem State.dropRec_frame (s : State) (launch : Nat) (n0 : Nat) : (s.dropRec launch).frame n0 = s.frame n0 := rfl

@[simp] theorem State.setLink_pending (s : State) (n : Nat) (x : Link) : (s.setLink n x).pending = s.pending := rfl
@[simp] theorem State.setLink_regs (s : State) (n : Nat) (x : Link) : (s.setLink n x).regs = s.regs := rfl
@[simp] theorem State.setLink_mem (s : State) (n : Nat) (x : Link) : (s.setLink n x).mem = s.mem := rfl
@[simp] theorem State.setLink_lens (s : State) (n : Nat) (x : Link) : (s.setLink n x).lens = s.lens := rfl
@[simp] theorem State.setLink_badCheck (s : State) (n : Nat) (x : Link) : (s.setLink n x).badCheck = s.badCheck := rfl
@[simp] theorem State.setLink_hbmDelta (s : State) (n : Nat) (x : Link) : (s.setLink n x).hbmDelta = s.hbmDelta := rfl
@[simp] theorem State.setLink_poison (s : State) (n : Nat) (x : Link) : (s.setLink n x).poison = s.poison := rfl
@[simp] theorem State.setLink_engines (s : State) (n : Nat) (x : Link) : (s.setLink n x).engines = s.engines := rfl
@[simp] theorem State.setLink_chains (s : State) (n : Nat) (x : Link) : (s.setLink n x).chains = s.chains := rfl
@[simp] theorem State.setLink_seqs (s : State) (n : Nat) (x : Link) : (s.setLink n x).seqs = s.seqs := rfl
@[simp] theorem State.setLink_reruns (s : State) (n : Nat) (x : Link) : (s.setLink n x).reruns = s.reruns := rfl
@[simp] theorem State.setLink_regens (s : State) (n : Nat) (x : Link) : (s.setLink n x).regens = s.regens := rfl
@[simp] theorem State.setLink_sram (s : State) (n : Nat) (x : Link) : (s.setLink n x).sram = s.sram := rfl
@[simp] theorem State.setLink_hbm (s : State) (n : Nat) (x : Link) : (s.setLink n x).hbm = s.hbm := rfl
@[simp] theorem State.setLink_pool (s : State) (n : Nat) (x : Link) : (s.setLink n x).pool = s.pool := rfl
@[simp] theorem State.setLink_beam (s : State) (n : Nat) (x : Link) : (s.setLink n x).beam = s.beam := rfl
@[simp] theorem State.setLink_dict (s : State) (n : Nat) (x : Link) : (s.setLink n x).dict = s.dict := rfl
@[simp] theorem State.setLink_dictBytes (s : State) (n : Nat) (x : Link) : (s.setLink n x).dictBytes = s.dictBytes := rfl
@[simp] theorem State.setLink_fuses (s : State) (n : Nat) (x : Link) : (s.setLink n x).fuses = s.fuses := rfl
@[simp] theorem State.setLink_order (s : State) (n : Nat) (x : Link) : (s.setLink n x).order = s.order := rfl
@[simp] theorem State.setLink_lid (s : State) (n : Nat) (x : Link) : (s.setLink n x).lid = s.lid := rfl
@[simp] theorem State.setLink_heldWrites (s : State) (n : Nat) (x : Link) : (s.setLink n x).heldWrites = s.heldWrites := rfl
@[simp] theorem State.setLink_sentMsgs (s : State) (n : Nat) (x : Link) : (s.setLink n x).sentMsgs = s.sentMsgs := rfl
@[simp] theorem State.setLink_msgNum (s : State) (n : Nat) (x : Link) : (s.setLink n x).msgNum = s.msgNum := rfl
@[simp] theorem State.setLink_trace (s : State) (n : Nat) (x : Link) : (s.setLink n x).trace = s.trace := rfl
@[simp] theorem State.setLink_coll (s : State) (n : Nat) (x : Link) : (s.setLink n x).coll = s.coll := rfl
@[simp] theorem State.setLink_host (s : State) (n : Nat) (x : Link) : (s.setLink n x).host = s.host := rfl
@[simp] theorem State.setLink_daymarks (s : State) (n : Nat) (x : Link) : (s.setLink n x).daymarks = s.daymarks := rfl
@[simp] theorem State.setLink_copying (s : State) (n : Nat) (x : Link) : (s.setLink n x).copying = s.copying := rfl
@[simp] theorem State.setLink_restores (s : State) (n : Nat) (x : Link) : (s.setLink n x).restores = s.restores := rfl
@[simp] theorem State.setLink_power (s : State) (n : Nat) (x : Link) : (s.setLink n x).power = s.power := rfl
@[simp] theorem State.setLink_resets (s : State) (n : Nat) (x : Link) : (s.setLink n x).resets = s.resets := rfl
@[simp] theorem State.setLink_mooring (s : State) (n : Nat) (x : Link) : (s.setLink n x).mooring = s.mooring := rfl
@[simp] theorem State.setLink_flash (s : State) (n : Nat) (x : Link) : (s.setLink n x).flash = s.flash := rfl
@[simp] theorem State.setLink_security (s : State) (n : Nat) (x : Link) : (s.setLink n x).security = s.security := rfl
@[simp] theorem State.setLink_keeper (s : State) (n : Nat) (x : Link) : (s.setLink n x).keeper = s.keeper := rfl
@[simp] theorem State.setLink_cyc (s : State) (n : Nat) (x : Link) : (s.setLink n x).cyc = s.cyc := rfl
@[simp] theorem State.setLink_free (s : State) (n : Nat) (x : Link) : (s.setLink n x).free = s.free := rfl
@[simp] theorem State.setLink_rd (s : State) (n : Nat) (x : Link) (r0 : Reg) (u0 i0 : Nat) : (s.setLink n x).rd r0 u0 i0 = s.rd r0 u0 i0 := rfl
@[simp] theorem State.setLink_fld (s : State) (n : Nat) (x : Link) (f0 : Field) (u0 i0 : Nat) : (s.setLink n x).fld f0 u0 i0 = s.fld f0 u0 i0 := rfl
@[simp] theorem State.setLink_dget (s : State) (n : Nat) (x : Link) (k0 : Nat) : (s.setLink n x).dget k0 = s.dget k0 := rfl
@[simp] theorem State.setLink_dbytes (s : State) (n : Nat) (x : Link) (k0 : Nat) : (s.setLink n x).dbytes k0 = s.dbytes k0 := rfl
@[simp] theorem State.setLink_eng (s : State) (n : Nat) (x : Link) (e0 : Nat) : (s.setLink n x).eng e0 = s.eng e0 := rfl
@[simp] theorem State.setLink_rdByte (s : State) (n : Nat) (x : Link) (p0 : Nat) : (s.setLink n x).rdByte p0 = s.rdByte p0 := rfl
@[simp] theorem State.setLink_frame (s : State) (n : Nat) (x : Link) (n0 : Nat) : (s.setLink n x).frame n0 = s.frame n0 := rfl

@[simp] theorem State.setColl_pending (s : State) (c : Coll) : (s.setColl c).pending = s.pending := rfl
@[simp] theorem State.setColl_regs (s : State) (c : Coll) : (s.setColl c).regs = s.regs := rfl
@[simp] theorem State.setColl_mem (s : State) (c : Coll) : (s.setColl c).mem = s.mem := rfl
@[simp] theorem State.setColl_lens (s : State) (c : Coll) : (s.setColl c).lens = s.lens := rfl
@[simp] theorem State.setColl_badCheck (s : State) (c : Coll) : (s.setColl c).badCheck = s.badCheck := rfl
@[simp] theorem State.setColl_hbmDelta (s : State) (c : Coll) : (s.setColl c).hbmDelta = s.hbmDelta := rfl
@[simp] theorem State.setColl_poison (s : State) (c : Coll) : (s.setColl c).poison = s.poison := rfl
@[simp] theorem State.setColl_engines (s : State) (c : Coll) : (s.setColl c).engines = s.engines := rfl
@[simp] theorem State.setColl_chains (s : State) (c : Coll) : (s.setColl c).chains = s.chains := rfl
@[simp] theorem State.setColl_seqs (s : State) (c : Coll) : (s.setColl c).seqs = s.seqs := rfl
@[simp] theorem State.setColl_reruns (s : State) (c : Coll) : (s.setColl c).reruns = s.reruns := rfl
@[simp] theorem State.setColl_regens (s : State) (c : Coll) : (s.setColl c).regens = s.regens := rfl
@[simp] theorem State.setColl_sram (s : State) (c : Coll) : (s.setColl c).sram = s.sram := rfl
@[simp] theorem State.setColl_hbm (s : State) (c : Coll) : (s.setColl c).hbm = s.hbm := rfl
@[simp] theorem State.setColl_pool (s : State) (c : Coll) : (s.setColl c).pool = s.pool := rfl
@[simp] theorem State.setColl_beam (s : State) (c : Coll) : (s.setColl c).beam = s.beam := rfl
@[simp] theorem State.setColl_dict (s : State) (c : Coll) : (s.setColl c).dict = s.dict := rfl
@[simp] theorem State.setColl_dictBytes (s : State) (c : Coll) : (s.setColl c).dictBytes = s.dictBytes := rfl
@[simp] theorem State.setColl_fuses (s : State) (c : Coll) : (s.setColl c).fuses = s.fuses := rfl
@[simp] theorem State.setColl_order (s : State) (c : Coll) : (s.setColl c).order = s.order := rfl
@[simp] theorem State.setColl_lid (s : State) (c : Coll) : (s.setColl c).lid = s.lid := rfl
@[simp] theorem State.setColl_heldWrites (s : State) (c : Coll) : (s.setColl c).heldWrites = s.heldWrites := rfl
@[simp] theorem State.setColl_sentMsgs (s : State) (c : Coll) : (s.setColl c).sentMsgs = s.sentMsgs := rfl
@[simp] theorem State.setColl_msgNum (s : State) (c : Coll) : (s.setColl c).msgNum = s.msgNum := rfl
@[simp] theorem State.setColl_trace (s : State) (c : Coll) : (s.setColl c).trace = s.trace := rfl
@[simp] theorem State.setColl_fabric (s : State) (c : Coll) : (s.setColl c).fabric = s.fabric := rfl
@[simp] theorem State.setColl_host (s : State) (c : Coll) : (s.setColl c).host = s.host := rfl
@[simp] theorem State.setColl_daymarks (s : State) (c : Coll) : (s.setColl c).daymarks = s.daymarks := rfl
@[simp] theorem State.setColl_copying (s : State) (c : Coll) : (s.setColl c).copying = s.copying := rfl
@[simp] theorem State.setColl_restores (s : State) (c : Coll) : (s.setColl c).restores = s.restores := rfl
@[simp] theorem State.setColl_power (s : State) (c : Coll) : (s.setColl c).power = s.power := rfl
@[simp] theorem State.setColl_resets (s : State) (c : Coll) : (s.setColl c).resets = s.resets := rfl
@[simp] theorem State.setColl_mooring (s : State) (c : Coll) : (s.setColl c).mooring = s.mooring := rfl
@[simp] theorem State.setColl_flash (s : State) (c : Coll) : (s.setColl c).flash = s.flash := rfl
@[simp] theorem State.setColl_security (s : State) (c : Coll) : (s.setColl c).security = s.security := rfl
@[simp] theorem State.setColl_keeper (s : State) (c : Coll) : (s.setColl c).keeper = s.keeper := rfl
@[simp] theorem State.setColl_cyc (s : State) (c : Coll) : (s.setColl c).cyc = s.cyc := rfl
@[simp] theorem State.setColl_free (s : State) (c : Coll) : (s.setColl c).free = s.free := rfl
@[simp] theorem State.setColl_rd (s : State) (c : Coll) (r0 : Reg) (u0 i0 : Nat) : (s.setColl c).rd r0 u0 i0 = s.rd r0 u0 i0 := rfl
@[simp] theorem State.setColl_fld (s : State) (c : Coll) (f0 : Field) (u0 i0 : Nat) : (s.setColl c).fld f0 u0 i0 = s.fld f0 u0 i0 := rfl
@[simp] theorem State.setColl_dget (s : State) (c : Coll) (k0 : Nat) : (s.setColl c).dget k0 = s.dget k0 := rfl
@[simp] theorem State.setColl_dbytes (s : State) (c : Coll) (k0 : Nat) : (s.setColl c).dbytes k0 = s.dbytes k0 := rfl
@[simp] theorem State.setColl_eng (s : State) (c : Coll) (e0 : Nat) : (s.setColl c).eng e0 = s.eng e0 := rfl
@[simp] theorem State.setColl_rdByte (s : State) (c : Coll) (p0 : Nat) : (s.setColl c).rdByte p0 = s.rdByte p0 := rfl
@[simp] theorem State.setColl_frame (s : State) (c : Coll) (n0 : Nat) : (s.setColl c).frame n0 = s.frame n0 := rfl

@[simp] theorem State.setDaymark_pending (s : State) (d : Daymark) : (s.setDaymark d).pending = s.pending := rfl
@[simp] theorem State.setDaymark_regs (s : State) (d : Daymark) : (s.setDaymark d).regs = s.regs := rfl
@[simp] theorem State.setDaymark_mem (s : State) (d : Daymark) : (s.setDaymark d).mem = s.mem := rfl
@[simp] theorem State.setDaymark_lens (s : State) (d : Daymark) : (s.setDaymark d).lens = s.lens := rfl
@[simp] theorem State.setDaymark_badCheck (s : State) (d : Daymark) : (s.setDaymark d).badCheck = s.badCheck := rfl
@[simp] theorem State.setDaymark_hbmDelta (s : State) (d : Daymark) : (s.setDaymark d).hbmDelta = s.hbmDelta := rfl
@[simp] theorem State.setDaymark_poison (s : State) (d : Daymark) : (s.setDaymark d).poison = s.poison := rfl
@[simp] theorem State.setDaymark_engines (s : State) (d : Daymark) : (s.setDaymark d).engines = s.engines := rfl
@[simp] theorem State.setDaymark_chains (s : State) (d : Daymark) : (s.setDaymark d).chains = s.chains := rfl
@[simp] theorem State.setDaymark_seqs (s : State) (d : Daymark) : (s.setDaymark d).seqs = s.seqs := rfl
@[simp] theorem State.setDaymark_reruns (s : State) (d : Daymark) : (s.setDaymark d).reruns = s.reruns := rfl
@[simp] theorem State.setDaymark_regens (s : State) (d : Daymark) : (s.setDaymark d).regens = s.regens := rfl
@[simp] theorem State.setDaymark_sram (s : State) (d : Daymark) : (s.setDaymark d).sram = s.sram := rfl
@[simp] theorem State.setDaymark_hbm (s : State) (d : Daymark) : (s.setDaymark d).hbm = s.hbm := rfl
@[simp] theorem State.setDaymark_pool (s : State) (d : Daymark) : (s.setDaymark d).pool = s.pool := rfl
@[simp] theorem State.setDaymark_beam (s : State) (d : Daymark) : (s.setDaymark d).beam = s.beam := rfl
@[simp] theorem State.setDaymark_dict (s : State) (d : Daymark) : (s.setDaymark d).dict = s.dict := rfl
@[simp] theorem State.setDaymark_dictBytes (s : State) (d : Daymark) : (s.setDaymark d).dictBytes = s.dictBytes := rfl
@[simp] theorem State.setDaymark_fuses (s : State) (d : Daymark) : (s.setDaymark d).fuses = s.fuses := rfl
@[simp] theorem State.setDaymark_order (s : State) (d : Daymark) : (s.setDaymark d).order = s.order := rfl
@[simp] theorem State.setDaymark_lid (s : State) (d : Daymark) : (s.setDaymark d).lid = s.lid := rfl
@[simp] theorem State.setDaymark_heldWrites (s : State) (d : Daymark) : (s.setDaymark d).heldWrites = s.heldWrites := rfl
@[simp] theorem State.setDaymark_sentMsgs (s : State) (d : Daymark) : (s.setDaymark d).sentMsgs = s.sentMsgs := rfl
@[simp] theorem State.setDaymark_msgNum (s : State) (d : Daymark) : (s.setDaymark d).msgNum = s.msgNum := rfl
@[simp] theorem State.setDaymark_trace (s : State) (d : Daymark) : (s.setDaymark d).trace = s.trace := rfl
@[simp] theorem State.setDaymark_fabric (s : State) (d : Daymark) : (s.setDaymark d).fabric = s.fabric := rfl
@[simp] theorem State.setDaymark_coll (s : State) (d : Daymark) : (s.setDaymark d).coll = s.coll := rfl
@[simp] theorem State.setDaymark_host (s : State) (d : Daymark) : (s.setDaymark d).host = s.host := rfl
@[simp] theorem State.setDaymark_copying (s : State) (d : Daymark) : (s.setDaymark d).copying = s.copying := rfl
@[simp] theorem State.setDaymark_restores (s : State) (d : Daymark) : (s.setDaymark d).restores = s.restores := rfl
@[simp] theorem State.setDaymark_power (s : State) (d : Daymark) : (s.setDaymark d).power = s.power := rfl
@[simp] theorem State.setDaymark_resets (s : State) (d : Daymark) : (s.setDaymark d).resets = s.resets := rfl
@[simp] theorem State.setDaymark_mooring (s : State) (d : Daymark) : (s.setDaymark d).mooring = s.mooring := rfl
@[simp] theorem State.setDaymark_flash (s : State) (d : Daymark) : (s.setDaymark d).flash = s.flash := rfl
@[simp] theorem State.setDaymark_security (s : State) (d : Daymark) : (s.setDaymark d).security = s.security := rfl
@[simp] theorem State.setDaymark_keeper (s : State) (d : Daymark) : (s.setDaymark d).keeper = s.keeper := rfl
@[simp] theorem State.setDaymark_cyc (s : State) (d : Daymark) : (s.setDaymark d).cyc = s.cyc := rfl
@[simp] theorem State.setDaymark_free (s : State) (d : Daymark) : (s.setDaymark d).free = s.free := rfl
@[simp] theorem State.setDaymark_rd (s : State) (d : Daymark) (r0 : Reg) (u0 i0 : Nat) : (s.setDaymark d).rd r0 u0 i0 = s.rd r0 u0 i0 := rfl
@[simp] theorem State.setDaymark_fld (s : State) (d : Daymark) (f0 : Field) (u0 i0 : Nat) : (s.setDaymark d).fld f0 u0 i0 = s.fld f0 u0 i0 := rfl
@[simp] theorem State.setDaymark_dget (s : State) (d : Daymark) (k0 : Nat) : (s.setDaymark d).dget k0 = s.dget k0 := rfl
@[simp] theorem State.setDaymark_dbytes (s : State) (d : Daymark) (k0 : Nat) : (s.setDaymark d).dbytes k0 = s.dbytes k0 := rfl
@[simp] theorem State.setDaymark_eng (s : State) (d : Daymark) (e0 : Nat) : (s.setDaymark d).eng e0 = s.eng e0 := rfl
@[simp] theorem State.setDaymark_rdByte (s : State) (d : Daymark) (p0 : Nat) : (s.setDaymark d).rdByte p0 = s.rdByte p0 := rfl
@[simp] theorem State.setDaymark_frame (s : State) (d : Daymark) (n0 : Nat) : (s.setDaymark d).frame n0 = s.frame n0 := rfl

@[simp] theorem State.setStep_pending (s : State) (n : Nat) : (s.setStep n).pending = s.pending := rfl
@[simp] theorem State.setStep_regs (s : State) (n : Nat) : (s.setStep n).regs = s.regs := rfl
@[simp] theorem State.setStep_mem (s : State) (n : Nat) : (s.setStep n).mem = s.mem := rfl
@[simp] theorem State.setStep_lens (s : State) (n : Nat) : (s.setStep n).lens = s.lens := rfl
@[simp] theorem State.setStep_badCheck (s : State) (n : Nat) : (s.setStep n).badCheck = s.badCheck := rfl
@[simp] theorem State.setStep_hbmDelta (s : State) (n : Nat) : (s.setStep n).hbmDelta = s.hbmDelta := rfl
@[simp] theorem State.setStep_poison (s : State) (n : Nat) : (s.setStep n).poison = s.poison := rfl
@[simp] theorem State.setStep_engines (s : State) (n : Nat) : (s.setStep n).engines = s.engines := rfl
@[simp] theorem State.setStep_chains (s : State) (n : Nat) : (s.setStep n).chains = s.chains := rfl
@[simp] theorem State.setStep_seqs (s : State) (n : Nat) : (s.setStep n).seqs = s.seqs := rfl
@[simp] theorem State.setStep_reruns (s : State) (n : Nat) : (s.setStep n).reruns = s.reruns := rfl
@[simp] theorem State.setStep_regens (s : State) (n : Nat) : (s.setStep n).regens = s.regens := rfl
@[simp] theorem State.setStep_sram (s : State) (n : Nat) : (s.setStep n).sram = s.sram := rfl
@[simp] theorem State.setStep_hbm (s : State) (n : Nat) : (s.setStep n).hbm = s.hbm := rfl
@[simp] theorem State.setStep_pool (s : State) (n : Nat) : (s.setStep n).pool = s.pool := rfl
@[simp] theorem State.setStep_beam (s : State) (n : Nat) : (s.setStep n).beam = s.beam := rfl
@[simp] theorem State.setStep_dict (s : State) (n : Nat) : (s.setStep n).dict = s.dict := rfl
@[simp] theorem State.setStep_dictBytes (s : State) (n : Nat) : (s.setStep n).dictBytes = s.dictBytes := rfl
@[simp] theorem State.setStep_fuses (s : State) (n : Nat) : (s.setStep n).fuses = s.fuses := rfl
@[simp] theorem State.setStep_order (s : State) (n : Nat) : (s.setStep n).order = s.order := rfl
@[simp] theorem State.setStep_lid (s : State) (n : Nat) : (s.setStep n).lid = s.lid := rfl
@[simp] theorem State.setStep_heldWrites (s : State) (n : Nat) : (s.setStep n).heldWrites = s.heldWrites := rfl
@[simp] theorem State.setStep_sentMsgs (s : State) (n : Nat) : (s.setStep n).sentMsgs = s.sentMsgs := rfl
@[simp] theorem State.setStep_msgNum (s : State) (n : Nat) : (s.setStep n).msgNum = s.msgNum := rfl
@[simp] theorem State.setStep_trace (s : State) (n : Nat) : (s.setStep n).trace = s.trace := rfl
@[simp] theorem State.setStep_fabric (s : State) (n : Nat) : (s.setStep n).fabric = s.fabric := rfl
@[simp] theorem State.setStep_coll (s : State) (n : Nat) : (s.setStep n).coll = s.coll := rfl
@[simp] theorem State.setStep_host (s : State) (n : Nat) : (s.setStep n).host = s.host := rfl
@[simp] theorem State.setStep_daymarks (s : State) (n : Nat) : (s.setStep n).daymarks = s.daymarks := rfl
@[simp] theorem State.setStep_copying (s : State) (n : Nat) : (s.setStep n).copying = s.copying := rfl
@[simp] theorem State.setStep_restores (s : State) (n : Nat) : (s.setStep n).restores = s.restores := rfl
@[simp] theorem State.setStep_power (s : State) (n : Nat) : (s.setStep n).power = s.power := rfl
@[simp] theorem State.setStep_mooring (s : State) (n : Nat) : (s.setStep n).mooring = s.mooring := rfl
@[simp] theorem State.setStep_flash (s : State) (n : Nat) : (s.setStep n).flash = s.flash := rfl
@[simp] theorem State.setStep_security (s : State) (n : Nat) : (s.setStep n).security = s.security := rfl
@[simp] theorem State.setStep_keeper (s : State) (n : Nat) : (s.setStep n).keeper = s.keeper := rfl
@[simp] theorem State.setStep_cyc (s : State) (n : Nat) : (s.setStep n).cyc = s.cyc := rfl
@[simp] theorem State.setStep_free (s : State) (n : Nat) : (s.setStep n).free = s.free := rfl
@[simp] theorem State.setStep_rd (s : State) (n : Nat) (r0 : Reg) (u0 i0 : Nat) : (s.setStep n).rd r0 u0 i0 = s.rd r0 u0 i0 := rfl
@[simp] theorem State.setStep_fld (s : State) (n : Nat) (f0 : Field) (u0 i0 : Nat) : (s.setStep n).fld f0 u0 i0 = s.fld f0 u0 i0 := rfl
@[simp] theorem State.setStep_dget (s : State) (n : Nat) (k0 : Nat) : (s.setStep n).dget k0 = s.dget k0 := rfl
@[simp] theorem State.setStep_dbytes (s : State) (n : Nat) (k0 : Nat) : (s.setStep n).dbytes k0 = s.dbytes k0 := rfl
@[simp] theorem State.setStep_eng (s : State) (n : Nat) (e0 : Nat) : (s.setStep n).eng e0 = s.eng e0 := rfl
@[simp] theorem State.setStep_rdByte (s : State) (n : Nat) (p0 : Nat) : (s.setStep n).rdByte p0 = s.rdByte p0 := rfl
@[simp] theorem State.setStep_frame (s : State) (n : Nat) (n0 : Nat) : (s.setStep n).frame n0 = s.frame n0 := rfl

end Sys2Proof.Machine
end

