-- ==== Sys2Proof/Laws/Footprint.lean ====
section
/-!
SUPPORT. From the footprint of a command's lemma (a set of cells as the bits of a number) to a list of cells: the number of a list's cells,
and that what keeps to a footprint within it leaves every other cell as it was.
-/
namespace Sys2Proof.Machine

/-- The cells of a list as the bits of a number. -/
def cellMask : List Cell → Nat
  | [] => 0
  | c :: cs => cellMask cs ||| 1 <<< c.code

/-- The cell of a bit. -/
def cellOf (n : Nat) : Cell :=
  if 64 ≤ n then .reg (allRegs.getD (n - 64) .engArrayCfg)
  else (([.mem, .lens, .badCheck, .hbmDelta, .poison, .engines, .chains, .seqs, .reruns, .regens, .sram, .hbm, .pool, .beam, .dict,
    .dictBytes, .fuses, .order, .lid, .heldWrites, .sentMsgs, .msgNum, .trace, .fabric, .coll, .host, .daymarks, .copying, .restores,
    .power, .resets, .mooring, .flash, .security, .keeper, .cyc, .free] : List Cell).getD n .free)

theorem allRegs_ctorIdx (r : Reg) : allRegs.getD r.ctorIdx .engArrayCfg = r := by cases r <;> rfl

theorem cellOf_code (c : Cell) : cellOf c.code = c := by
  cases c with
  | reg r =>
    have h : Cell.code (.reg r) = 64 + r.ctorIdx := rfl
    rw [h, cellOf, if_pos (Nat.le_add_right ..), Nat.add_sub_cancel_left, allRegs_ctorIdx]
  | _ => rfl

/-- Different cells have different bits. -/
theorem Cell.code_inj {a b : Cell} (h : a.code = b.code) : a = b := by rw [← cellOf_code a, h, cellOf_code b]

/-- A cell that the list does not name has no bit in the list's number. -/
theorem cellMask_out {c : Cell} : ∀ {L : List Cell}, c ∉ L → (cellMask L).testBit c.code = false
  | [], _ => Nat.zero_testBit _
  | d :: ds, h => by
    have hd : d.code ≠ c.code := fun e => h (by rw [Cell.code_inj e]; exact List.mem_cons_self ..)
    rw [cellMask, Nat.testBit_or, cellMask_out fun k => h (List.mem_cons_of_mem _ k), Nat.one_shiftLeft, Nat.testBit_two_pow_of_ne hd]
    rfl

/-- What reaches only cells that the list names leaves all others as they were. -/
theorem Reach.leaves {F : Nat} {L : List Cell} {s t : State} (h : Reach F s t) (m : F &&& cellMask L = F) : LeavesAllBut L s t :=
  ⟨h.pending, fun c n => h.same c (testBit_sub m (cellMask_out n))⟩

/-- The same of a command, from the lemma of its meaning. -/
theorem gives_leaves {c : Instr} {F : Nat} {L : List Cell} {s : State} (h : ∃ t, exec c s = .next t ∧ Reach F s t)
    (m : F &&& cellMask L = F) : Gives c s fun t => LeavesAllBut L s t :=
  let ⟨t, e, r⟩ := h
  ⟨t, e, r.leaves m⟩

end Sys2Proof.Machine
end

