-- ==== Sys2Proof/Laws/Memory.lean ====
section
/-!
SUPPORT. Device memory: every operation on the list of cells keeps the canonical form and so do the named writes of the state; what is read
back after bytes are stored.
-/
namespace Sys2Proof.Machine

/-! ## The canonical form -/

theorem reset_mem_wf : Memory.wf State.reset.mem = true := rfl

theorem wf_putD (pa : Nat) (b : Byte) {m : List Host.Cell} (h : Memory.wf m = true) : Memory.wf (putD 0#8 pa b m) = true :=
  canonical_putD _ pa b h

theorem wf_putRun (pa : Nat) (bs : List Byte) {m : List Host.Cell} (h : Memory.wf m = true) : Memory.wf (putRun 0#8 pa bs m) = true :=
  canonical_putRun _ pa bs h

theorem wf_filter (q : Host.Cell → Bool) {m : List Host.Cell} (h : Memory.wf m = true) : Memory.wf (m.filter q) = true :=
  canonical_filter _ q h

theorem wf_clearRange (lo n : Nat) {m : List Host.Cell} (h : Memory.wf m = true) : Memory.wf (clearRange lo n m) = true :=
  canonical_clearRange _ lo n h

theorem State.wrByte_wf {s : State} (pa : Nat) (b : Byte) (h : Memory.wf s.mem = true) : Memory.wf (s.wrByte pa b).mem = true :=
  (State.wrByte_reach s pa b).mem h

theorem State.putRaw_wf {s : State} (pa : Nat) (bs : List Byte) (h : Memory.wf s.mem = true) : Memory.wf (s.putRaw pa bs).mem = true :=
  (State.putRaw_reach s pa bs).mem h

theorem State.putMem_wf {s : State} (pa : Nat) (bs : List Byte) (h : Memory.wf s.mem = true) : Memory.wf (s.putMem pa bs).mem = true :=
  (State.putMem_reach s pa bs).mem h

theorem State.devWrite_wf {s : State} (a : Access) (pa : Nat) (bs : List Byte) (h : Memory.wf s.mem = true) :
    Memory.wf (s.devWrite a pa bs).mem = true :=
  (State.devWrite_reach s a pa bs).mem h

theorem State.markPoison_wf {s : State} (pa : Nat) (h : Memory.wf s.mem = true) : Memory.wf (s.markPoison pa).mem = true :=
  (State.markPoison_reach s pa).mem h

/-! ## What is read back -/

/-- A byte is what the sector's data and check symbols make it. -/
theorem State.memByte_congr {s t : State} {a : Nat} (hd : t.deltaAt a = s.deltaAt a)
    (hm : ∀ b, b / 32 = a / 32 → t.rdByte b = s.rdByte b) : t.memByte a = s.memByte a := by
  have hs : t.rdSector a = s.rdSector a := by
    unfold State.rdSector State.rdBytes
    congr 2
    apply List.map_congr_left
    intro k hk
    exact hm _ (by have := List.mem_range.mp hk; omega)
  unfold State.memByte
  rw [hd, hs, hm a rfl]

/-- Merging a sector leaves another sector as it was. -/
theorem State.memByte_mergeSector (s : State) {k a : Nat} (h : a / 32 ≠ k) : (s.mergeSector k).memByte a = s.memByte a := by
  unfold State.mergeSector
  split
  · rfl
  · apply State.memByte_congr
    · exact lookupD_eraseAt_ne _ h _
    · intro b hb
      refine lookupD_putRun_out _ _ _ _ ?_
      rw [State.memBytes, List.length_map, List.length_range]
      omega

/-- What the merges leave outside the two sectors. -/
theorem State.memByte_mergeEnds (s : State) {pa n a : Nat} (h : a / 32 < pa / 32 ∨ (pa + n + 31) / 32 ≤ a / 32) :
    (s.mergeEnds pa n).memByte a = s.memByte a := by
  unfold State.mergeEnds
  split <;> split
  · rfl
  · exact s.memByte_mergeSector (by omega)
  · exact s.memByte_mergeSector (by omega)
  · rw [State.memByte_mergeSector _ (by omega), State.memByte_mergeSector _ (by omega)]

/-- A sector whose check symbols either agree with its data or cannot be corrected is read as it is stored. -/
theorem State.memByte_stored {s : State} {a : Nat} (h : s.deltaAt a = 0#16 ∨ s.deltaBad (a / 32) = true) : s.memByte a = s.rdByte a := by
  have e : s.deltaAt (a / 32 * 32) = s.deltaAt a := by simp [State.deltaAt]
  unfold State.memByte
  rcases h with h | h
  · simp only [h, if_true]
  · unfold State.deltaBad at h
    rw [e] at h
    simp only
    split
    · rfl
    · split
      · next k => rw [k] at h; cases h
      · rfl

/-- What a merge leaves of its own sector's check symbols. -/
theorem State.mergeSector_self (s : State) (k : Nat) :
    (s.mergeSector k).deltaAt (k * 32) = 0#16 ∨ (s.mergeSector k).deltaBad k = true := by
  unfold State.mergeSector
  split
  · assumption
  · left
    show lookupD 0#16 (k * 32 / 32) (eraseAt k s.hbmDelta) = _
    rw [Nat.mul_div_cancel _ (by decide), lookupD_eraseAt_self]

/-- A merge leaves the check symbols of another sector. -/
theorem State.deltaAt_mergeSector (s : State) {k a : Nat} (h : a / 32 ≠ k) : (s.mergeSector k).deltaAt a = s.deltaAt a := by
  unfold State.mergeSector
  split
  · rfl
  · exact lookupD_eraseAt_ne _ h _

theorem State.deltaBad_congr {s t : State} {k : Nat} (h : t.deltaAt (k * 32) = s.deltaAt (k * 32)) : t.deltaBad k = s.deltaBad k := by
  unfold State.deltaBad
  rw [h]

/-- After the merges the sector of an end that lies within it is settled. -/
theorem State.mergeEnds_settled (s : State) (pa n k : Nat) (h : (k = pa / 32 ∧ pa % 32 ≠ 0) ∨ (k = (pa + n) / 32 ∧ (pa + n) % 32 ≠ 0)) :
    (s.mergeEnds pa n).deltaAt (k * 32) = 0#16 ∨ (s.mergeEnds pa n).deltaBad k = true := by
  unfold State.mergeEnds
  have keep : ∀ (t : State) (j : Nat), (t.deltaAt (k * 32) = 0#16 ∨ t.deltaBad k = true) →
      ((t.mergeSector j).deltaAt (k * 32) = 0#16 ∨ (t.mergeSector j).deltaBad k = true) := by
    intro t j ht
    by_cases e : k = j
    · subst e; exact t.mergeSector_self k
    · have q : (t.mergeSector j).deltaAt (k * 32) = t.deltaAt (k * 32) := t.deltaAt_mergeSector (by omega)
      rw [q, State.deltaBad_congr q]; exact ht
  rcases h with ⟨rfl, hp⟩ | ⟨rfl, hp⟩
  · simp only [hp, if_false]
    split
    · exact s.mergeSector_self _
    · exact keep _ _ (s.mergeSector_self _)
  · simp only [hp, if_false]
    exact State.mergeSector_self _ _

/-- Bytes stored are read back. -/
theorem State.memByte_putRaw_in (s : State) (pa : Nat) (bs : List Byte) {i : Nat} (h : i < bs.length) :
    (s.putRaw pa bs).memByte (pa + i) = bs[i] := by
  have hd : ∀ a, (s.putRaw pa bs).deltaAt a =
      if a / 32 < (pa + 31) / 32 ∨ (pa + 31) / 32 + ((pa + bs.length) / 32 - (pa + 31) / 32) ≤ a / 32 then
        (s.mergeEnds pa bs.length).deltaAt a else 0#16 := by
    intro a
    show lookupD 0#16 (a / 32) (clearRange _ _ _) = _
    rw [clearRange, lookupD_filter 0#16
      (fun k => decide (k < (pa + 31) / 32) || decide ((pa + 31) / 32 + ((pa + bs.length) / 32 - (pa + 31) / 32) ≤ k))]
    simp only [Bool.or_eq_true, decide_eq_true_eq]
    rfl
  have hs : (s.putRaw pa bs).deltaAt (pa + i) = 0#16 ∨ (s.putRaw pa bs).deltaBad ((pa + i) / 32) = true := by
    have e : (s.putRaw pa bs).deltaAt ((pa + i) / 32 * 32) = (s.putRaw pa bs).deltaAt (pa + i) := by simp [State.deltaAt]
    by_cases c : (pa + i) / 32 < (pa + 31) / 32 ∨ (pa + 31) / 32 + ((pa + bs.length) / 32 - (pa + 31) / 32) ≤ (pa + i) / 32
    · have k : ((pa + i) / 32 = pa / 32 ∧ pa % 32 ≠ 0) ∨ ((pa + i) / 32 = (pa + bs.length) / 32 ∧ (pa + bs.length) % 32 ≠ 0) := by omega
      have q := s.mergeEnds_settled pa bs.length _ k
      have p : (s.putRaw pa bs).deltaAt ((pa + i) / 32 * 32) = (s.mergeEnds pa bs.length).deltaAt ((pa + i) / 32 * 32) := by
        rw [hd, if_pos (by omega)]
      rw [← e, p, State.deltaBad_congr p]
      exact q
    · left
      rw [hd, if_neg c]
  rw [State.memByte_stored hs]
  exact lookupD_putRun_in _ bs pa i _ h

/-- A store leaves every byte of a sector it does not touch as it was. -/
theorem State.memByte_putRaw_out (s : State) (pa : Nat) (bs : List Byte) {a : Nat}
    (h : a / 32 < pa / 32 ∨ (pa + bs.length + 31) / 32 ≤ a / 32) : (s.putRaw pa bs).memByte a = s.memByte a := by
  rw [← s.memByte_mergeEnds h]
  apply State.memByte_congr
  · show lookupD 0#16 (a / 32) (clearRange _ _ _) = lookupD _ _ _
    rw [clearRange, lookupD_filter 0#16
      (fun k => decide (k < (pa + 31) / 32) || decide ((pa + 31) / 32 + ((pa + bs.length) / 32 - (pa + 31) / 32) ≤ k)), if_pos]
    · rfl
    · rw [Bool.or_eq_true, decide_eq_true_eq, decide_eq_true_eq]
      omega
  · intro b hb
    exact lookupD_putRun_out _ _ bs _ (by omega)

end Sys2Proof.Machine
end

