-- ==== Sys2Proof/Laws/ReachTick.lean ====
section
/-!
SUPPORT. The footprint of each function of Machine/Tick.lean.
-/
set_option linter.unusedTactic false
set_option linter.unreachableTactic false
namespace Sys2Proof.Machine

theorem State.chargeEngine_reach (s : State) (e : Nat) : Reach 0xe000000000000000000000000000000000000000000038000000000000000000000 s (State.chargeEngine s e) := by
  have h0 := Reach.refl 0xe000000000000000000000000000000000000000000038000000000000000000000 s
  unfold State.chargeEngine
  repeat' (first
    | with_reducible assumption
    | exact rfl
    | with_reducible (first
        | refine Reach.bump ?_ ?_
        | refine Reach.ite ?_ ?_)
    | (extract_lets +onlyGivenNames -underBinder -merge -useContext x; first | (refine Reach.cut x ?_ (fun _ => ?_); rotate_left; clear_value x; rotate_left; unfold x; clear x) | (have _ := fun a => x a; unfold x; clear x) | clear_value x)
    | (split <;> try (refine Reach.cut1 (by assumption) ?_ (fun _ => ?_)))
    | split)

theorem State.chargeDie_reach (s : State) (die : Nat) : Reach 0xe000000000000000000000000000000000000000000038000000000000000000000 s (State.chargeDie s die) := by
  have h0 := Reach.refl 0xe000000000000000000000000000000000000000000038000000000000000000000 s
  unfold State.chargeDie
  repeat' (first
    | with_reducible assumption
    | exact rfl
    | simp -zeta -iota -proj only [Reach1.pair_iff]
    | with_reducible exact Reach1.fst (by assumption)
    | with_reducible (first
        | refine Reach.foldl _ ?_ (fun _ _ _ => ?_)
        | refine Reach1.foldl _ ?_ (fun _ _ _ => ?_)
        | refine Reach1.fst (Reach1.foldl _ ?_ (fun _ _ _ => ?_))
        | apply Reach.then ?_ (State.chargeEngine_reach ..) ?_))

theorem State.countStage_reach (s : State) (c : Chain) (k : Nat) (g : Stage) : Reach 0x1000006000000000000000000000 s (State.countStage s c k g) := by
  have h0 := Reach.refl 0x1000006000000000000000000000 s
  unfold State.countStage
  repeat' (first
    | with_reducible assumption
    | exact rfl
    | with_reducible (first
        | refine Reach.bump ?_ ?_
        | refine Reach.ite ?_ ?_)
    | (extract_lets +onlyGivenNames -underBinder -merge -useContext x; first | (refine Reach.cut x ?_ (fun _ => ?_); rotate_left; clear_value x; rotate_left; unfold x; clear x) | (have _ := fun a => x a; unfold x; clear x) | clear_value x)
    | (split <;> try (refine Reach.cut1 (by assumption) ?_ (fun _ => ?_)))
    | split)

theorem State.countTier_reach (s : State) (c : Chain) (k : Nat) (g : Stage) : Reach 0x40000000000000000000000000000000000000 s (State.countTier s c k g) := by
  have h0 := Reach.refl 0x40000000000000000000000000000000000000 s
  unfold State.countTier
  repeat' (first
    | with_reducible assumption
    | exact rfl
    | with_reducible (first
        | refine Reach.bump ?_ ?_)
    | (split <;> try (refine Reach.cut1 (by assumption) ?_ (fun _ => ?_)))
    | split)

theorem State.countChain_reach (s : State) (c : Chain) : Reach 0x40000000001000006000000000000000000000 s (State.countChain s c) := by
  have h0 := Reach.refl 0x40000000001000006000000000000000000000 s
  unfold State.countChain
  repeat' (first
    | with_reducible assumption
    | exact rfl
    | simp -zeta -iota -proj only [Reach1.pair_iff]
    | with_reducible exact Reach1.fst (by assumption)
    | with_reducible (first
        | refine Reach.ite ?_ ?_
        | refine Reach1.ite ?_ ?_
        | refine Reach.foldl _ ?_ (fun _ _ _ => ?_)
        | refine Reach1.foldl _ ?_ (fun _ _ _ => ?_)
        | refine Reach1.fst (Reach1.foldl _ ?_ (fun _ _ _ => ?_))
        | apply Reach.then ?_ (State.countStage_reach ..) ?_
        | apply Reach.then ?_ (State.countTier_reach ..) ?_)
    | (split <;> try (refine Reach.cut1 (by assumption) ?_ (fun _ => ?_)))
    | split)

theorem State.countPool_reach (s : State) : Reach 0x40000000000000000000000000000000000000 s (State.countPool s) := by
  have h0 := Reach.refl 0x40000000000000000000000000000000000000 s
  unfold State.countPool
  repeat' (first
    | with_reducible assumption
    | exact rfl
    | simp -zeta -iota -proj only [Reach1.pair_iff]
    | with_reducible exact Reach1.fst (by assumption)
    | with_reducible (first
        | refine Reach.bump ?_ ?_
        | refine Reach.foldl _ ?_ (fun _ _ _ => ?_)
        | refine Reach1.foldl _ ?_ (fun _ _ _ => ?_)
        | refine Reach1.fst (Reach1.foldl _ ?_ (fun _ _ _ => ?_))))

theorem State.countLink_reach (s : State) (l : Nat) : Reach 0x240000000000000000000000000000000000000000000000 s (State.countLink s l) := by
  have h0 := Reach.refl 0x240000000000000000000000000000000000000000000000 s
  unfold State.countLink
  repeat' (first
    | with_reducible assumption
    | exact rfl
    | simp -zeta -iota -proj only [Reach1.pair_iff]
    | with_reducible exact Reach1.fst (by assumption)
    | with_reducible (first
        | refine Reach.bump ?_ ?_
        | refine Reach.ite ?_ ?_
        | refine Reach1.ite ?_ ?_
        | refine Reach.foldl _ ?_ (fun _ _ _ => ?_)
        | refine Reach1.foldl _ ?_ (fun _ _ _ => ?_)
        | refine Reach1.fst (Reach1.foldl _ ?_ (fun _ _ _ => ?_)))
    | (extract_lets +onlyGivenNames -underBinder -merge -useContext x; first | (refine Reach.cut x ?_ (fun _ => ?_); rotate_left; clear_value x; rotate_left; unfold x; clear x) | (refine Reach.cutP x ?_ (fun _ => ?_); rotate_left; clear_value x; rotate_left; unfold x; clear x) | (have _ := fun a => x a; unfold x; clear x) | clear_value x)
    | (split <;> try (refine Reach.cut1 (by assumption) ?_ (fun _ => ?_)))
    | split)

theorem State.countRing_reach (s : State) (die : Nat) : Reach 0x10000000000000000000000000000000000000000000000000 s (State.countRing s die) := by
  have h0 := Reach.refl 0x10000000000000000000000000000000000000000000000000 s
  unfold State.countRing
  repeat' (first
    | with_reducible assumption
    | exact rfl
    | with_reducible (first
        | refine Reach.bump ?_ ?_
        | refine Reach.ite ?_ ?_)
    | (split <;> try (refine Reach.cut1 (by assumption) ?_ (fun _ => ?_)))
    | split)

theorem State.countColl_reach (s : State) (c : Coll) : Reach 0x100000000000000000000000000000000000000000000000000000 s (State.countColl s c) := by
  have h0 := Reach.refl 0x100000000000000000000000000000000000000000000000000000 s
  unfold State.countColl
  repeat' (first
    | with_reducible assumption
    | exact rfl
    | with_reducible (first
        | refine Reach.bump ?_ ?_
        | refine Reach.ite ?_ ?_)
    | (extract_lets +onlyGivenNames -underBinder -merge -useContext x; first | (refine Reach.cut x ?_ (fun _ => ?_); rotate_left; clear_value x; rotate_left; unfold x; clear x) | (have _ := fun a => x a; unfold x; clear x) | clear_value x)
    | (split <;> try (refine Reach.cut1 (by assumption) ?_ (fun _ => ?_)))
    | split)

theorem State.countThrottle_reach (s : State) (die : Nat) : Reach 0x20000000000000000000000000000000000000000000000000000000000000000 s (State.countThrottle s die) := by
  have h0 := Reach.refl 0x20000000000000000000000000000000000000000000000000000000000000000 s
  unfold State.countThrottle
  repeat' (first
    | with_reducible assumption
    | exact rfl
    | with_reducible (first
        | refine Reach.bump ?_ ?_
        | refine Reach.ite ?_ ?_)
    | (extract_lets +onlyGivenNames -underBinder -merge -useContext x; first | (refine Reach.cut x ?_ (fun _ => ?_); rotate_left; clear_value x; rotate_left; unfold x; clear x) | (have _ := fun a => x a; unfold x; clear x) | clear_value x)
    | (split <;> try (refine Reach.cut1 (by assumption) ?_ (fun _ => ?_)))
    | split)

theorem State.arrayTick_reach (s : State) (e : Nat) : Reach 0x40000000000000020 s (State.arrayTick s e) := by
  have h0 := Reach.refl 0x40000000000000020 s
  unfold State.arrayTick
  repeat' (first
    | with_reducible assumption
    | exact rfl
    | with_reducible (first
        | refine Reach.ite ?_ ?_
        | apply Reach.then ?_ (State.rampTick_reach ..) ?_
        | apply Reach.then ?_ (State.setEng_reach ..) ?_)
    | (extract_lets +onlyGivenNames -underBinder -merge -useContext x; first | (refine Reach.cut x ?_ (fun _ => ?_); rotate_left; clear_value x; rotate_left; unfold x; clear x) | (have _ := fun a => x a; unfold x; clear x) | clear_value x)
    | (split <;> try (refine Reach.cut1 (by assumption) ?_ (fun _ => ?_)))
    | split)

theorem State.droopTick_reach (s : State) (die : Nat) : Reach 0x40003000000200c00000000000006001022011fe200d4120180dff0c0000001022787dff s (State.droopTick s die) := by
  have h0 := Reach.refl 0x40003000000200c00000000000006001022011fe200d4120180dff0c0000001022787dff s
  unfold State.droopTick
  repeat' (first
    | with_reducible assumption
    | exact rfl
    | with_reducible (first
        | refine Reach.ite ?_ ?_
        | apply Reach.then ?_ (State.dieGoesOn_reach ..) ?_
        | apply Reach.then ?_ (State.setPowerDie_reach ..) ?_)
    | (extract_lets +onlyGivenNames -underBinder -merge -useContext x; first | (refine Reach.cut x ?_ (fun _ => ?_); rotate_left; clear_value x; rotate_left; unfold x; clear x) | (have _ := fun a => x a; unfold x; clear x) | clear_value x)
    | (split <;> try (refine Reach.cut1 (by assumption) ?_ (fun _ => ?_)))
    | split)

theorem State.refEdge_reach (s : State) : Reach 0x40003111000640086000000000000001022411f8208000000000000000000008a0487c3d s (State.refEdge s) := by
  have h0 := Reach.refl 0x40003111000640086000000000000001022411f8208000000000000000000008a0487c3d s
  unfold State.refEdge
  repeat' (first
    | with_reducible assumption
    | exact rfl
    | with_reducible (first
        | refine Reach.ite ?_ ?_
        | apply Reach.then ?_ (State.stepBeam_reach ..) ?_)
    | (extract_lets +onlyGivenNames -underBinder -merge -useContext x; first | (refine Reach.cut x ?_ (fun _ => ?_); rotate_left; clear_value x; rotate_left; unfold x; clear x) | (have _ := fun a => x a; unfold x; clear x) | clear_value x)
    | (split <;> try (refine Reach.cut1 (by assumption) ?_ (fun _ => ?_)))
    | split
    | with_reducible (first
        | refine Reach.set_beam ?_ ?_))

theorem State.beamTick_reach (s : State) : Reach 0x40003111000640086000000000000001022411f8208000000000000000000008a0487c3d s (State.beamTick s) := by
  have h0 := Reach.refl 0x40003111000640086000000000000001022411f8208000000000000000000008a0487c3d s
  unfold State.beamTick
  repeat' (first
    | with_reducible assumption
    | exact rfl
    | with_reducible (first
        | refine Reach.ite ?_ ?_
        | apply Reach.then ?_ (State.refEdge_reach ..) ?_)
    | (extract_lets +onlyGivenNames -underBinder -merge -useContext x; first | (refine Reach.cut x ?_ (fun _ => ?_); rotate_left; clear_value x; rotate_left; unfold x; clear x) | (have _ := fun a => x a; unfold x; clear x) | clear_value x)
    | (split <;> try (refine Reach.cut1 (by assumption) ?_ (fun _ => ?_)))
    | split
    | with_reducible (first
        | refine Reach.set_cyc ?_ ?_))

theorem State.resetTick_reach (s : State) : Reach 0x40000000 s (State.resetTick s) := by
  have h0 := Reach.refl 0x40000000 s
  unfold State.resetTick
  repeat' (first
    | with_reducible assumption
    | exact rfl
    | (extract_lets +onlyGivenNames -underBinder -merge -useContext x; first | (refine Reach.cut x ?_ (fun _ => ?_); rotate_left; clear_value x; rotate_left; unfold x; clear x) | (have _ := fun a => x a; unfold x; clear x) | clear_value x)
    | dsimp -zeta only []
    | with_reducible (first
        | refine Reach.set_resets ?_ ?_))

theorem State.ringTick_reach (s : State) : Reach 0x40001000000000000000000000000001022011fa20080000000800000000000001087c7d s (State.ringTick s) := by
  have h0 := Reach.refl 0x40001000000000000000000000000001022011fa20080000000800000000000001087c7d s
  unfold State.ringTick
  repeat' (first
    | with_reducible assumption
    | exact rfl
    | simp -zeta -iota -proj only [Reach1.pair_iff]
    | with_reducible exact Reach1.fst (by assumption)
    | with_reducible (first
        | refine Reach.ite ?_ ?_
        | refine Reach1.ite ?_ ?_
        | refine Reach.foldl _ ?_ (fun _ _ _ => ?_)
        | refine Reach1.foldl _ ?_ (fun _ _ _ => ?_)
        | refine Reach1.fst (Reach1.foldl _ ?_ (fun _ _ _ => ?_))
        | apply Reach.then ?_ (State.placeItems_reach ..) ?_)
    | (split <;> try (refine Reach.cut1 (by assumption) ?_ (fun _ => ?_)))
    | split)

theorem State.sinkTick_reach (s : State) (die : Nat) : Reach 0x400 s (State.sinkTick s die) := by
  have h0 := Reach.refl 0x400 s
  unfold State.sinkTick
  repeat' (first
    | with_reducible assumption
    | exact rfl
    | (extract_lets +onlyGivenNames -underBinder -merge -useContext x; first | (refine Reach.cut x ?_ (fun _ => ?_); rotate_left; clear_value x; rotate_left; unfold x; clear x) | (have _ := fun a => x a; unfold x; clear x) | clear_value x)
    | with_reducible (first
        | refine Reach.set_sram ?_ ?_))

theorem State.countCycle_reach (s : State) : Reach 0xe02000000000010001024000000004000000000100003e000000000000000000000 s (State.countCycle s) := by
  have h0 := Reach.refl 0xe02000000000010001024000000004000000000100003e000000000000000000000 s
  unfold State.countCycle
  repeat' (first
    | with_reducible assumption
    | exact rfl
    | simp -zeta -iota -proj only [Reach1.pair_iff]
    | with_reducible exact Reach1.fst (by assumption)
    | with_reducible (first
        | refine Reach.foldl _ ?_ (fun _ _ _ => ?_)
        | refine Reach1.foldl _ ?_ (fun _ _ _ => ?_)
        | refine Reach1.fst (Reach1.foldl _ ?_ (fun _ _ _ => ?_))
        | apply Reach.then ?_ (State.chargeDie_reach ..) ?_
        | apply Reach.then ?_ (State.countChain_reach ..) ?_
        | apply Reach.then ?_ (State.countColl_reach ..) ?_
        | apply Reach.then ?_ (State.countLink_reach ..) ?_
        | apply Reach.then ?_ (State.countPool_reach ..) ?_
        | apply Reach.then ?_ (State.countRing_reach ..) ?_
        | apply Reach.then ?_ (State.countThrottle_reach ..) ?_)
    | (extract_lets +onlyGivenNames -underBinder -merge -useContext x; first | (refine Reach.cut x ?_ (fun _ => ?_); rotate_left; clear_value x; rotate_left; unfold x; clear x) | (refine Reach.cutP x ?_ (fun _ => ?_); rotate_left; clear_value x; rotate_left; unfold x; clear x) | (have _ := fun a => x a; unfold x; clear x) | clear_value x)
    | (split <;> try (refine Reach.cut1 (by assumption) ?_ (fun _ => ?_)))
    | split)

theorem State.tick_reach (s : State) : Reach 0x40003f13000743f8601b04122400610303e411fe3b8d5120dbedff0c00000018eff8fdff s (State.tick s) := by
  have h0 := Reach.refl 0x40003f13000743f8601b04122400610303e411fe3b8d5120dbedff0c00000018eff8fdff s
  unfold State.tick
  repeat' (first
    | with_reducible assumption
    | exact rfl
    | simp -zeta -iota -proj only [Reach1.pair_iff]
    | with_reducible exact Reach1.fst (by assumption)
    | with_reducible (first
        | refine Reach.ite ?_ ?_
        | refine Reach1.ite ?_ ?_
        | refine Reach.foldl _ ?_ (fun _ _ _ => ?_)
        | refine Reach1.foldl _ ?_ (fun _ _ _ => ?_)
        | refine Reach1.fst (Reach1.foldl _ ?_ (fun _ _ _ => ?_))
        | apply Reach.then ?_ (State.arrayTick_reach ..) ?_
        | apply Reach.then ?_ (State.beamTick_reach ..) ?_
        | apply Reach.then ?_ (State.countCycle_reach ..) ?_
        | apply Reach.then ?_ (State.droopTick_reach ..) ?_
        | apply Reach.then ?_ (State.enterCopiers_reach ..) ?_
        | apply Reach.then ?_ (State.fogTick_reach ..) ?_
        | apply Reach.then ?_ (State.reissue_reach ..) ?_
        | apply Reach.then ?_ (State.resetTick_reach ..) ?_
        | apply Reach.then ?_ (State.ringTick_reach ..) ?_
        | apply Reach.then ?_ (State.settleColls_reach ..) ?_
        | apply Reach.then ?_ (State.settleTable_reach ..) ?_
        | apply Reach.then ?_ (State.sinkTick_reach ..) ?_)
    | (extract_lets +onlyGivenNames -underBinder -merge -useContext x; first | (refine Reach.cut x ?_ (fun _ => ?_); rotate_left; clear_value x; rotate_left; unfold x; clear x) | (refine Reach.cutP x ?_ (fun _ => ?_); rotate_left; clear_value x; rotate_left; unfold x; clear x) | (have _ := fun a => x a; unfold x; clear x) | clear_value x)
    | (split <;> try (refine Reach.cut1 (by assumption) ?_ (fun _ => ?_)))
    | split)

end Sys2Proof.Machine
end

