-- ==== Sys2Proof/Tests/Slice0.lean ====
section
/-!
SUPPORT. The model's own tests: what the spec's worked examples and tables give, the well-formedness checks with an ill-formed term for
each, and for each statement with hypotheses a state and operands that meet them.
-/
namespace Sys2Proof.Tests
open Sys2Proof.Machine

set_option maxRecDepth 100000
set_option Elab.async false

/-! ## Small states -/

/-- The reset state with engine 0 as given. -/
def eng0 (x : Engine) : State := { State.reset with engines := [(0, x)] }

/-- A pass of one row, one element and one column in the widest format. -/
def pass0 : PassCmd := (parsePass ⟨0#64, 0#64, 0#64, 0#64⟩).1

def flight0 : PassFlight := { cmd := pass0, task := 0 }

def held0 : HeldPass := { cmd := pass0, task := 0, loadCycles := 0, rampCycles := 0 }

/-- An engine stage of engine 0, context 0. -/
def stage0 : Stage :=
  { kind := 0, engine := 0, task := 0, inDesc := 0, outDesc := 0, cmdOff := 0, ringAddr := 0x8100000000, nslots := 2, tokenBase := 0, slotLines := 1 }

/-- A chain of one engine stage on cluster 0, of launch record 0. -/
def chain0 : Chain :=
  { cluster := 0, launch := 0, ahead := false, owner := 0, stepRev := 0, prog := 0, raw := false, overlap := false, items := 4,
    region := 0xFFFF, rphase := 0, descTable := 0, ndesc := 1, next := 0, switchThresh := 0, planEntry := 0xFFFF, stallWd := 0,
    stages := [stage0] }

/-- A fetch stage stopped at an absent page, and its chain. -/
def stageF : Stage := { stage0 with kind := 1, started := 1, todo := true, missed := some 0, outOpen := true }

def chainF : Chain := { chain0 with stages := [stageF, { stage0 with task := 1 }] }

/-- A producer with an item in progress in slot 0 of its ring in cluster memory 0, its consumer, and their chain. -/
def stage2 : Stage := { stage0 with started := 1, outOpen := true }

def stage3 : Stage := { stage0 with task := 1, started := 1, inOpen := true }

def chain2 : Chain := { chain0 with stages := [stage2, stage3] }

/-- A chain command of one engine stage, one item and one descriptor. -/
def chainImage : CmdImage :=
  .words ([0x00FFFF000000001C#64, 0x0001000000000000#64, 0xFFFF000000000000#64] ++ List.replicate 29 0#64)

/-- A state in which owner 0's virtual page 0 on die 0 is the HBM frame 5, readable and writable, holding the words given at their offsets
(the tables of the tree are in frames 1 to 4). -/
def vm (ws : List (Nat × Word)) : State :=
  let put (s : State) (pa : Nat) (w : Word) : State := s.putRaw pa (bytesOf w.toNat 8)
  let s := put (put (put (put State.reset 0x10000 0x20001#64) 0x20000 0x30001#64) 0x30000 0x40001#64) 0x40000 0x5000E#64
  (ws.foldl (fun s p => put s (0x50000 + p.1) p.2) s).wr .poolXlatRoot 0 0 0x10001#64

/-- That fetch with its page present: descriptor 0, at virtual address 0, names a tile of one row of two binary32 elements at 256. -/
def vmF : State := { vm [(0, 0x100#64), (16, 1#64), (72, 0x10000#64), (88, 100#64), (256, 0x400000003F800000#64)] with chains := [chainF] }

/-- A flit as it arrives whole, with its CRC. -/
def flitOf (head : Word) (payload : List Byte) : FlitIn := { bits := BitVec.ofNat 2048 (natOfBytes (flitBytes head payload)) }

/-- A control flit. -/
def ctrlFlit (payload : List Byte) : FlitIn := flitOf (flitHeader 2 0 none 0 0 false 0) payload

/-- Link 0 in a state, with the rest of it as given. -/
def link0 (st : Nat) (x : Link) : State := { State.reset.setLinkState 0 st with fabric := { links := [(0, x)] } }

/-- A partner as it announces itself: package 9, link 3, version 1, with 100 credits on VC 0. -/
def partner0 : Capabilities :=
  { pkg := 9, link := 3, versions := 1, credits := [100, 0, 0, 0], txLatency := 625, rxLatency := 875, turnaround := 1600 }

/-- Package 5 is reached from die 0 by link 0, which is UP. -/
def withNet (s : State) : State := (s.setLinkState 0 5).wr .collRoute 0 1 0x10000#64

/-- Window entry 3 of die 0 open, readable and writable, of 2,048 units at owner 0's address 0. -/
def withWin (s : State) : State :=
  (((s.setFld winEntryW1State 0 3 1).setFld winEntryW1WriteEn 0 3 1).setFld winEntryW1ReadEn 0 3 1).setFld winEntryW1Size 0 3 2048

/-- A window message from package 5 to entry 3 of die 0: its type, offset, length and tag. -/
def hdr (s : State) (mt off len tag : Nat) : Words4 := mkHeader mt s.ownPkg 5 3 0 0 off len tag 0 0 0

/-- A whole line segment of a run. -/
def seg (d : BitVec 1024) (off len i : Nat) : LineSeg := ⟨d, lineCrc d (runMask off len i), false⟩

/-- A message of this package outstanding at its origin. -/
def msg0 : OriginMsg := { die := 0, num := 7, get := false, pkg := 5, window := 3, epoch := 0, offset := 0, bytes := [1#8, 2#8] }

/-- Group 0 of die 0: two ranks, this one rank 0, its next rank on package 5 by link 0. -/
def withGroup (s : State) : State :=
  ((((withNet s).setFld collGroupW0Valid 0 0 1).setFld collGroupW0DegreeM1 0 0 1).setFld collGroupW1UpLinks 0 0 1).setFld
    collGroupW1NextPkg 0 0 5

/-- A sequence of launch record 0 on cluster 0. -/
def seq0 : Seq := { cluster := 0, launch := 0, next := 5 }

/-- A collective command of group 0 on the tensors of descriptor 0, of `n` elements. -/
def collImage (op n : Nat) : CmdImage :=
  .words ([BitVec.ofNat 64 (0xD + op * 16 + (n - 1) * 2 ^ 32)] ++ List.replicate 7 0#64)

/-- A state in which it may be issued. -/
def collState : State := { withGroup (vm []) with seqs := [seq0] }

/-- The running collective that it makes. -/
def coll0 (op n : Nat) : Coll := (collState.parseColl 0 (collState.recOr 0) (collState.imageWords 0 (collState.recOr 0) 5 8 (collImage op n))).1

/-- A state in which it runs. -/
def running (c : Coll) : State := { collState with coll := { running := [c], issued := [(0, 1)] } }

/-- A collective message of group 0 to die 0. -/
def chdr (mt piece chunk step part status : Nat) : Words4 := collHeader mt collState.ownPkg 5 0 0 0 0 0 piece chunk step part false status 0 0 1

/-- A launch record of owner 0, and a state in which it is the only one, in a record state; the table is at 256 KiB. -/
def rec0 : RecInst := { index := 3 }

def withRec (st : Nat) (r : RecInst) : State :=
  let s := (State.reset.setRecState 3 st).setFld beamTableBase 0 0 1
  { s with beam := { s.beam with recs := [r] } }

/-- Owner 0's completion ring at its virtual address 0, of two records. -/
def withRing (s : State) : State := s.setFld beamCringBaseSizeLog2 0 0 1

/-- A state with the memory and translation of `vm`. -/
def onVm (s : State) : State := { s.wr .poolXlatRoot 0 0 0x10001#64 with mem := (vm []).mem }

/-- `vm` with owner 0's virtual pages 1, 4 and 5 as frames 6 to 8. -/
def vmD (ws : List (Nat × Word)) : State :=
  let put (s : State) (pa : Nat) (w : Word) : State := s.putRaw pa (bytesOf w.toNat 8)
  put (put (put (vm ws) 0x40010 0x6000E#64) 0x40040 0x7000E#64) 0x40050 0x8000E#64

/-- A daymark record of owner 0 whose page list at virtual address 0 names page 1, with its image slots at page 2, 2 pages apart, and a
state in which it is LIVE. -/
def recD : RecInst := { index := 3, kind := 2, saveArea := 0x20000, kindArg := 0x200 }

def liveD : State :=
  let s := (vmD [(0, 1#64), (64, 0x10000#64), (72, 1#64)]).setRecState 3 2
  { s with beam := { s.beam with recs := [recD] } }

/-- That daymark once it has taken effect. -/
def dayD : Daymark := { launch := 3, owner := 0, stepRev := 7, seq := 1, image := 0x40000, effect := 0, pages := [{ vpage := 1, cls := 0 }] }

def runD (d : Daymark) : State := { liveD with daymarks := [d], copying := [{ die := 0, launch := 3, page := 0, touch := false }] }

/-- The package past boot, and keeper firmware as a source. -/
def srv : State := { State.reset with resets := { State.reset.resets with step := 11 } }

def kfw : DictSource := { transport := .keeper, id := 0, tag := 1 }

/-- A row of the dictionary. -/
def rowOf (idx sub : Nat) : DictRow := (entryAt idx sub).getD ⟨0, 0, 0, 0, "", 0, 0, 0, 0, 0, none, ""⟩

/-! ## Witnesses -/

theorem witness_EmptyQueuePassesACycle_1 : ∃ (s : State),
    (s.pending = [] ∧ s.heldInReset = true) :=
  ⟨{ State.reset with resets := { porLow := true } }, by decide +kernel⟩

theorem witness_EmptyQueuePassesACycle_2 : ∃ (s : State),
    (s.pending = [] ∧ s.heldInReset = false) :=
  ⟨State.reset, by decide +kernel⟩

theorem witness_SoundStatesStaySound : ∃ s t : State, s.Sound ∧ step s = .next t :=
  ⟨{ State.reset with mem := [(0x50000, 1#8)] }, _, ⟨by decide, by decide, by decide⟩, rfl⟩

theorem witness_BlownFusesStayBlown : (∃ s t : State, step s = .next t ∧ s.fuses.getLsbD 3 = true) ∧ Cell.fuses ∉ touches (.signalLost 0) :=
  ⟨⟨{ State.reset with fuses := 8 }, _, rfl, by decide +kernel⟩, by decide⟩

theorem witness_SvnCommitRaisesTheFloor_1 : ∃ (s : State) (src : DictSource),
    (ServerTakes s src dkSvnCommit) :=
  ⟨srv.setFld secStatusSvn 0 0 5, kfw, by decide +kernel⟩

theorem witness_SvnCommitRaisesTheFloor_2 : ∃ (s : State) (t : State),
    (step s = Host.Outcome.next t) :=
  ⟨{ State.reset with pending := [.event { die := 0, keeper := false } ⟨0#64, 0#64, []⟩] }, _, rfl⟩

theorem witness_HostViewOfConfigurationSpace_1 : ∃ (s : State) (offset : BitVec 27) (off : Nat),
    (s.heldInReset = false ∧ bar0 offset.toNat = .view off) :=
  ⟨srv, 0x7010008#27, 0x3010008, by decide +kernel⟩

theorem witness_HostViewOfConfigurationSpace_2 : ∃ (s : State) (offset : BitVec 27) (off : Nat),
    (s.heldInReset = false ∧ bar0 offset.toNat = .view off ∧ s.fld keepHostCfgWrEn 0 = 1) :=
  ⟨srv.setFld keepHostCfgWrEn 0 0 1, 0x50A2010#27, 0x10A2010, by decide +kernel⟩

theorem witness_HostViewOfConfigurationSpace_3 : ∃ (s : State) (offset : BitVec 27) (off : Nat),
    (s.heldInReset = false ∧ bar0 offset.toNat = .view off ∧ s.fld keepHostCfgWrEn 0 ≠ 1) :=
  ⟨srv, 0x50A2010#27, 0x10A2010, by decide +kernel⟩

theorem witness_HostViewOfConfigurationSpace_4 : ∃ (s : State) (offset : BitVec 27) (off : Nat),
    (s.heldInReset = false ∧ bar0 offset.toNat = .regs off ∧ isHostCfg (keepOffset + off) = true) :=
  ⟨srv, BitVec.ofNat 27 (regInfo .keepHostCfg).offset, (regInfo .keepHostCfg).offset, by decide +kernel⟩

theorem witness_HostViewOfConfigurationSpace_5 : ∃ (s : State) (x : UcieTxn) (off : Nat) (u : Nat) (i : Nat),
    (txnSrc x ≠ 0 ∧ s.phys (txnAddr x) = .config off ∧ regPlace off = some (.keepHostCfg, u, i)) :=
  ⟨State.reset, ⟨0x20001000006#64, BitVec.ofNat 64 (0xFF03000000 + (regInfo .keepHostCfg).offset), [(seg 1#1024 0 4 0, 0#128)]⟩, 0x3000000 + (regInfo .keepHostCfg).offset, 0, 0, by decide +kernel⟩

theorem witness_VectorCommandsStayInTheirEngine : Instr.add ∈ vectorCommands ∧ EngineFree (eng0 {}) (EngIdIdx 0#7) 0 ∧
    bitsOf (⟨0#64, 0#64, 0xFFFF00000000#64, 0#64⟩ : Words4).w2 32 16 = 0xFFFF :=
  ⟨by simp [vectorCommands], by decide +kernel, by decide⟩

theorem witness_FlagsAreReadAndCleared_1 : ∃ (s : State) (e : EngId) (task : Fin 4),
    (EngineFree s (EngIdIdx e) task.val) :=
  ⟨(eng0 {}).wr .galFlagEntry 0 0 5#64, 0#7, 0, by decide +kernel⟩

theorem witness_FlagsAreReadAndCleared_2 : ∃ (s : State) (e : EngId) (task : Fin 4),
    (EngineFree s (EngIdIdx e) task.val) :=
  ⟨(eng0 {}).wr .galFlagEntry 0 0 5#64, 0#7, 0, by decide +kernel⟩

theorem witness_LockedFieldsKeepTheirValue_1 : ∃ (s : State) (addr : BitVec 48) (off : Nat) (r : Reg) (u : Nat) (i : Nat),
    (s.phys addr.toNat = .config off ∧ regPlace off = some (r, u, i) ∧ s.locked r u = true ∧ (regInfo r).rwl ≠ 0) :=
  ⟨State.reset.setFld engArrayCfgLock 0 0 1, BitVec.ofNat 48 (0xFF00000000 + (regInfo .engArrayCfg).offset), (regInfo .engArrayCfg).offset, .engArrayCfg, 0, 0, by decide +kernel⟩

theorem witness_PassIssuesAndEndsTiles_1 : ∃ (s : State) (e : EngId) (task : Fin 4) (w : Words4),
    let c := (parsePass (withOpc w 1)).1
    (EngineOpen s (EngIdIdx e) task.val ∧ LensClean s (EngIdIdx e)) ∧ ((s.eng (EngIdIdx e)).tileOpen = true ∧ (s.eng (EngIdIdx e)).tilePass = true) ∧ (c.loadS = false ∧ c.differs (s.activeBuf (EngIdIdx e)) = false) ∧ (s.fld engArrayStatusRamping (EngIdIdx e) = 0 ∧ s.fld engArrayStatusEngagedCols (EngIdIdx e) = 8) ∧ ((s.powerDie (engDie (EngIdIdx e))).hold = 0) :=
  ⟨((eng0 { tileOpen := true, tilePass := true, buf0 := { loaded := true } }).setFld engArrayStatusEngagedCols 0 0 8), 0#7, 0, ⟨0#64, 0#64, 0#64, 0#64⟩, by decide +kernel⟩

theorem witness_PassIssuesAndEndsTiles_2 : ∃ (s : State) (e : EngId) (task : Fin 4),
    (EngineOpen s (EngIdIdx e) task.val ∧ LensClean s (EngIdIdx e)) ∧ (s.fld engArrayStatusRamping (EngIdIdx e) = 0 ∧ s.fld engArrayStatusEngagedCols (EngIdIdx e) = 0) :=
  ⟨eng0 {}, 0#7, 0, by decide +kernel⟩

theorem witness_PassIssuesAndEndsTiles_3 : ∃ (s : State) (e : EngId) (task : Fin 4),
    (EngineOpen s (EngIdIdx e) task.val) ∧ (s.chainOfTask (EngIdIdx e) task.val = none) :=
  ⟨eng0 { tileOpen := true }, 0#7, 1, by decide +kernel⟩

theorem witness_PassIssuesAndEndsTiles_4 : ∃ (s : State) (e : EngId) (task : Fin 4) (c : Chain) (k : Nat),
    (EngineOpen s (EngIdIdx e) task.val) ∧ (s.chainOfTask (EngIdIdx e) task.val = some (c, k)) ∧ (c.aborting = none ∧ c.stopped = false) :=
  ⟨{ eng0 { tileOpen := true } with chains := [chain0] }, 0#7, 0, chain0, 0, by decide +kernel⟩

theorem witness_PassIssuesAndEndsTiles_5 : ∃ (s : State) (e : EngId) (f : PassFlight) (rest : List PassFlight),
    ((s.eng (EngIdIdx e)).flight = f :: rest ∧ (s.eng (EngIdIdx e)).queue = []) :=
  ⟨(eng0 { flight := [flight0] }).setFld engArrayStatusBusy 0 0 1, 0#7, flight0, [], by decide +kernel⟩

theorem witness_ArrayRampsAndStalls_1 : ∃ (s : State) (r : Fin 8) (k : Nat) (h : HeldPass),
    (k < 12) ∧ ((s.eng (r.val * 12 + k)).held = some h) ∧ (s.fld engArrayStatusWindowWait (r.val * 12 + k) = 1) :=
  ⟨(eng0 { held := some held0 }).setFld engArrayStatusWindowWait 0 0 1, 0, 0, held0, by decide +kernel⟩

theorem witness_ArrayRampsAndStalls_2 : ∃ (s : State) (e : EngId) (h : HeldPass),
    ((s.eng (EngIdIdx e)).held = some h ∧ (s.eng (EngIdIdx e)).queue = [] ∧ (s.eng (EngIdIdx e)).rampUp = true ∧ (s.powerDie (engDie (EngIdIdx e))).hold = 0) ∧ (s.fld engArrayStatusRamping (EngIdIdx e) = 1) ∧ (h.loadCycles ≤ h.rampCycles) :=
  ⟨(eng0 { held := some held0, rampUp := true }).setFld engArrayStatusRamping 0 0 1, 0#7, held0, by decide +kernel⟩

theorem witness_ArrayRampsAndStalls_3 : ∃ (s : State) (e : EngId) (h : HeldPass),
    ((s.eng (EngIdIdx e)).held = some h ∧ (s.eng (EngIdIdx e)).rampUp = true) ∧ (s.fld engArrayStatusRamping (EngIdIdx e) = 1) ∧ (h.rampCycles < h.loadCycles) :=
  ⟨(eng0 { held := some { held0 with loadCycles := 9 }, rampUp := true }).setFld engArrayStatusRamping 0 0 1, 0#7, { held0 with loadCycles := 9 }, by decide +kernel⟩

theorem witness_ArrayRampsAndStalls_4 : ∃ (s : State) (e : EngId) (h : HeldPass),
    ((s.eng (EngIdIdx e)).held = some h ∧ (s.eng (EngIdIdx e)).queue = [] ∧ (s.powerDie (engDie (EngIdIdx e))).hold = 0) ∧ (s.fld engArrayStatusFrontStall (EngIdIdx e) = 1) :=
  ⟨(eng0 { held := some held0 }).setFld engArrayStatusFrontStall 0 0 1, 0#7, held0, by decide +kernel⟩

theorem witness_ArrayRampsAndStalls_5 : ∃ (s : State) (e : EngId) (idle : BitVec 16),
    ((s.eng (EngIdIdx e)).flight = [] ∧ (s.eng (EngIdIdx e)).held = none) ∧ (0 < s.fld engArrayStatusEngagedCols (EngIdIdx e)) ∧ (Nat.max 1 (s.fld engArrayCfgIdleRelease (EngIdIdx e)) ≤ idle.toNat) :=
  ⟨(eng0 {}).setFld engArrayStatusEngagedCols 0 0 8, 0#7, 300#16, by decide +kernel⟩

theorem witness_ArrayRampsAndStalls_6 : ∃ (s : State) (e : EngId),
    ((s.eng (EngIdIdx e)).tileOverrun = false) ∧ (8192 < (s.eng (EngIdIdx e)).tileCycles) :=
  ⟨eng0 { tileOpen := true, tileCycles := 8193 }, 0#7, by decide +kernel⟩

theorem witness_VectorArithmetic_1 : ∃ (s : State) (e : EngId) (task : Fin 4) (w : Words4),
    let v := (parseVec (withVop w vopAdd)).1
    (EngineFree s (EngIdIdx e) task.val) ∧ (v.outDesc = 0xFFFF) :=
  ⟨eng0 {}, 0#7, 0, ⟨0#64, 0#64, 0xFFFF00000000#64, 0#64⟩, by decide +kernel⟩

theorem witness_VectorArithmetic_2 : ∃ (s : State) (e : EngId) (task : Fin 4) (w : Words4),
    let v := (parseVec (withVop w vopSub)).1
    (EngineFree s (EngIdIdx e) task.val) ∧ (v.outDesc = 0xFFFF) :=
  ⟨eng0 {}, 0#7, 0, ⟨0#64, 0#64, 0xFFFF00000000#64, 0#64⟩, by decide +kernel⟩

theorem witness_VectorArithmetic_3 : ∃ (s : State) (e : EngId) (task : Fin 4) (w : Words4),
    let v := (parseVec (withVop w vopMul)).1
    (EngineFree s (EngIdIdx e) task.val) ∧ (v.outDesc = 0xFFFF) :=
  ⟨eng0 {}, 0#7, 0, ⟨0#64, 0#64, 0xFFFF00000000#64, 0#64⟩, by decide +kernel⟩

theorem witness_VectorArithmetic_4 : ∃ (s : State) (e : EngId) (task : Fin 4) (w : Words4),
    let v := (parseVec (withVop w vopFma)).1
    (EngineFree s (EngIdIdx e) task.val) ∧ (v.outDesc = 0xFFFF) :=
  ⟨eng0 {}, 0#7, 0, ⟨0#64, 0#64, 0xFFFF00000000#64, 0#64⟩, by decide +kernel⟩

theorem witness_VectorArithmetic_5 : ∃ (s : State) (e : EngId) (task : Fin 4) (w : Words4),
    let v := (parseVec (withVop w vopMax)).1
    (EngineFree s (EngIdIdx e) task.val) ∧ (v.outDesc = 0xFFFF) :=
  ⟨eng0 {}, 0#7, 0, ⟨0#64, 0#64, 0xFFFF00000000#64, 0#64⟩, by decide +kernel⟩

theorem witness_VectorArithmetic_6 : ∃ (s : State) (e : EngId) (task : Fin 4) (w : Words4),
    let v := (parseVec (withVop w vopMin)).1
    (EngineFree s (EngIdIdx e) task.val) ∧ (v.outDesc = 0xFFFF) :=
  ⟨eng0 {}, 0#7, 0, ⟨0#64, 0#64, 0xFFFF00000000#64, 0#64⟩, by decide +kernel⟩

theorem witness_VectorArithmetic_7 : ∃ (s : State) (e : EngId) (task : Fin 4) (w : Words4),
    let v := (parseVec (withVop w vopAbs)).1
    (EngineFree s (EngIdIdx e) task.val) ∧ (v.outDesc = 0xFFFF) :=
  ⟨eng0 {}, 0#7, 0, ⟨0#64, 0#64, 0xFFFF00000000#64, 0#64⟩, by decide +kernel⟩

theorem witness_VectorArithmetic_8 : ∃ (s : State) (e : EngId) (task : Fin 4) (w : Words4),
    let v := (parseVec (withVop w vopNeg)).1
    (EngineFree s (EngIdIdx e) task.val) ∧ (v.outDesc = 0xFFFF) :=
  ⟨eng0 {}, 0#7, 0, ⟨0#64, 0#64, 0xFFFF00000000#64, 0#64⟩, by decide +kernel⟩

theorem witness_VectorArithmetic_9 : ∃ (s : State) (e : EngId) (task : Fin 4) (w : Words4),
    let v := (parseVec (withVop w vopCopy)).1
    (EngineFree s (EngIdIdx e) task.val) ∧ (v.outDesc = 0xFFFF) :=
  ⟨eng0 {}, 0#7, 0, ⟨0#64, 0#64, 0xFFFF00000000#64, 0#64⟩, by decide +kernel⟩

theorem witness_VectorFunctionsAndRowReductions_1 : ∃ (s : State) (e : EngId) (task : Fin 4) (w : Words4),
    let v := (parseVec (withVop w vopFunc)).1
    (EngineFree s (EngIdIdx e) task.val) ∧ (v.outDesc = 0xFFFF) :=
  ⟨eng0 {}, 0#7, 0, ⟨0#64, 0#64, 0xFFFF00000000#64, 0#64⟩, by decide +kernel⟩

theorem witness_VectorFunctionsAndRowReductions_2 : ∃ (s : State) (e : EngId) (task : Fin 4) (w : Words4),
    let v := (parseVec (withVop w vopDeriv)).1
    (EngineFree s (EngIdIdx e) task.val) ∧ (v.outDesc = 0xFFFF) :=
  ⟨eng0 {}, 0#7, 0, ⟨0#64, 0#64, 0xFFFF00000000#64, 0#64⟩, by decide +kernel⟩

theorem witness_VectorFunctionsAndRowReductions_3 : ∃ (s : State) (e : EngId) (task : Fin 4) (w : Words4),
    let v := (parseVec (withVop w vopRowScale)).1
    (EngineFree s (EngIdIdx e) task.val) ∧ (v.outDesc = 0xFFFF) :=
  ⟨eng0 {}, 0#7, 0, ⟨0#64, 0#64, 0xFFFF00000000#64, 0#64⟩, by decide +kernel⟩

theorem witness_VectorFunctionsAndRowReductions_4 : ∃ (s : State) (e : EngId) (task : Fin 4) (w : Words4),
    let v := (parseVec (withVop w vopRowsum)).1
    (EngineFree s (EngIdIdx e) task.val) ∧ (v.outDesc = 0xFFFF) :=
  ⟨eng0 {}, 0#7, 0, ⟨0#64, 0#64, 0xFFFF00000000#64, 0#64⟩, by decide +kernel⟩

theorem witness_VectorFunctionsAndRowReductions_5 : ∃ (s : State) (e : EngId) (task : Fin 4) (w : Words4),
    let v := (parseVec (withVop w vopRowmax)).1
    (EngineFree s (EngIdIdx e) task.val) ∧ (v.outDesc = 0xFFFF) :=
  ⟨eng0 {}, 0#7, 0, ⟨0#64, 0#64, 0xFFFF00000000#64, 0#64⟩, by decide +kernel⟩

theorem witness_VectorFunctionsAndRowReductions_6 : ∃ (s : State) (e : EngId) (task : Fin 4) (w : Words4),
    let v := (parseVec (withVop w vopRownorm)).1
    (EngineFree s (EngIdIdx e) task.val) ∧ (v.outDesc = 0xFFFF) :=
  ⟨eng0 {}, 0#7, 0, ⟨0#64, 0#64, 0xFFFF00000000#64, 0#64⟩, by decide +kernel⟩

theorem witness_VectorFunctionsAndRowReductions_7 : ∃ (s : State) (e : EngId) (task : Fin 4) (w : Words4),
    let v := (parseVec (withVop w vopKnorm)).1
    (EngineFree s (EngIdIdx e) task.val) ∧ (v.outDesc = 0xFFFF) :=
  ⟨eng0 {}, 0#7, 0, ⟨0#64, 0#64, 0xFFFF00000000#64, 0#64⟩, by decide +kernel⟩

theorem witness_SoftmaxAndSectorSkipCommands_1 : ∃ (s : State) (e : EngId) (task : Fin 4) (w : Words4),
    let v := (parseVec (withVop w vopSmxUpdate)).1
    (EngineFree s (EngIdIdx e) task.val) ∧ (v.outDesc = 0xFFFF) :=
  ⟨eng0 {}, 0#7, 0, ⟨0#64, 0#64, 0xFFFF00000000#64, 0#64⟩, by decide +kernel⟩

theorem witness_SoftmaxAndSectorSkipCommands_2 : ∃ (s : State) (e : EngId) (task : Fin 4) (w : Words4),
    let v := (parseVec (withVop w vopSmxProb)).1
    (EngineFree s (EngIdIdx e) task.val) ∧ (v.outDesc = 0xFFFF) :=
  ⟨eng0 {}, 0#7, 0, ⟨0#64, 0#64, 0xFFFF00000000#64, 0#64⟩, by decide +kernel⟩

theorem witness_SoftmaxAndSectorSkipCommands_3 : ∃ (s : State) (e : EngId) (task : Fin 4),
    (EngineFree s (EngIdIdx e) task.val) :=
  ⟨eng0 {}, 0#7, 0, by decide +kernel⟩

theorem witness_SoftmaxAndSectorSkipCommands_4 : ∃ (s : State) (e : EngId) (task : Fin 4),
    (EngineFree s (EngIdIdx e) task.val) :=
  ⟨eng0 {}, 0#7, 0, by decide +kernel⟩

theorem witness_GeneratorFlagAndNopCommands_1 : ∃ (s : State) (e : EngId) (task : Fin 4) (w : Words4) (ch : Chain) (d : Desc) (n : Nat),
    let v := (parseVec (withVop w vopDropout)).1
    (EngineFree s (EngIdIdx e) task.val) ∧ (v.outDesc = 0xFFFF) ∧ (s.genDescOf (EngIdIdx e) task.val v = some (ch, d, n)) :=
  ⟨{ eng0 {} with chains := [chain0] }, 0#7, 0, ⟨0#64, 0#64, 0xFFFF00000000#64, 0#64⟩, chain0, (parseDesc (List.replicate 16 0#64)).1, (parseDesc (List.replicate 16 0#64)).2, by decide +kernel⟩

theorem witness_GeneratorFlagAndNopCommands_2 : ∃ (s : State) (e : EngId) (task : Fin 4) (w : Words4) (ch : Chain) (d : Desc) (n : Nat),
    let v := (parseVec (withVop w vopRandUniform)).1
    (EngineFree s (EngIdIdx e) task.val) ∧ (v.outDesc = 0xFFFF) ∧ (s.genDescOf (EngIdIdx e) task.val v = some (ch, d, n)) :=
  ⟨{ eng0 {} with chains := [chain0] }, 0#7, 0, ⟨0#64, 0#64, 0xFFFF00000000#64, 0#64⟩, chain0, (parseDesc (List.replicate 16 0#64)).1, (parseDesc (List.replicate 16 0#64)).2, by decide +kernel⟩

theorem witness_GeneratorFlagAndNopCommands_3 : ∃ (s : State) (e : EngId) (task : Fin 4),
    (EngineFree s (EngIdIdx e) task.val) :=
  ⟨eng0 {}, 0#7, 0, by decide +kernel⟩

theorem witness_GeneratorFlagAndNopCommands_4 : ∃ (s : State) (e : EngId) (task : Fin 4),
    (EngineFree s (EngIdIdx e) task.val) :=
  ⟨eng0 {}, 0#7, 0, by decide +kernel⟩

theorem witness_GeneratorFlagAndNopCommands_5 : ∃ (s : State) (e : EngId) (task : Fin 4),
    (EngineFree s (EngIdIdx e) task.val) :=
  ⟨eng0 {}, 0#7, 0, by decide +kernel⟩

theorem witness_SramGrantsAndFailingLines_1 : ∃ (s : State) (cluster : Fin 24) (bank : Fin 8) (others : BitVec 6),
    let key := cluster.val * 8 + bank.val
    let wants := fun g : Nat => lookupD 0 (key * 6 + g) s.sram.wants + (others.getLsbD g).toNat
    (∃ g ∈ List.range 6, 0 < wants g) :=
  ⟨{ State.reset with sram := { wants := [(157, 2), (160, 1)] } }, 3, 2, 9#6, by decide +kernel⟩

theorem witness_SramGrantsAndFailingLines_2 : ∃ (s : State) (die : Fin 2) (bank : Fin 64) (r : GalRequest),
    ((s.galBank die.val bank.val).queue = [r] ∧ (s.galBank die.val bank.val).held = [] ∧ r.owner < 64) :=
  ⟨State.reset.setGalBank 1 5 { queue := [{ port := 3, owner := 7 }] }, 1, 5, { port := 3, owner := 7 }, by decide +kernel⟩

theorem witness_SramGrantsAndFailingLines_3 : ∃ (s : State) (k : Fin 24) (off : BitVec 24) (reader : ChainRef) (c : Chain),
    let pa := clusterBase k.val + off.toNat
    let r := s.findUnit c.launch c.unit
    (s.phys pa = .cluster k.val off.toNat ∧ (s.frame (pa / 65536)).st ≠ .clean) ∧ (s.findChain reader = some c ∧ r.stopped = false ∧ r.count < s.dnat dkParityRerunLimit) :=
  ⟨{ State.reset with chains := [chain0] }, 2, 100#24, chain0.ref, chain0, by decide +kernel⟩

theorem witness_SramGrantsAndFailingLines_4 : ∃ (s : State) (d : Fin 2) (off : BitVec 28) (low : Nat),
    (s.phys (galleryBase d.val + off.toNat) = .gallery d.val off.toNat) ∧ ((s.frame ((galleryBase d.val + off.toNat) / 65536)).st = .clean ∧ (s.frame ((galleryBase d.val + off.toNat) / 65536)).lower = some low) :=
  ⟨({ State.reset with mem := [(65636, 0x55#8)] }).setFrame 8388608 { st := .clean, lower := some 1 }, 0, 100#28, 1, by decide +kernel⟩

theorem witness_SramGrantsAndFailingLines_5 : ∃ (s : State) (l : LineArrival) (c : Fin 24) (off : BitVec 24),
    let n := ((s.findRefetch l).map fun r : Refetch => r.attempts).getD 0
    (l.site = .cluster c off ∧ lineGood l = false ∧ n < s.dnat dkLineCrcRetry) :=
  ⟨State.reset, { site := .cluster 1 128#24, data := 5#1024, mask := ~~~0#128, poison := false, crc := 0#32, source := .held, tier := 0, reader := chain0.ref, stage := 0 }, 1, 128#24, by decide +kernel⟩

theorem witness_SramGrantsAndFailingLines_6 : ∃ (s : State) (l : LineArrival) (c : Fin 24) (off : BitVec 24),
    let base := clusterBase c.val + off.toNat / 128 * 128
    (l.site = .cluster c off ∧ lineGood l = true ∧ (s.findRefetch l).isSome = true) ∧ (∀ j ∈ List.range 4, s.deltaAt (base + 32 * j) = 0#16) :=
  ⟨{ State.reset with sram := { refetch := [{ site := .cluster 1 128#24, attempts := 1, source := .held, tier := 0, reader := chain0.ref, stage := 0 }] } }, { site := .cluster 1 128#24, data := 5#1024, mask := 3#128, poison := false, crc := lineCrc 5#1024 3#128, source := .held, tier := 0, reader := chain0.ref, stage := 0 }, 1, 128#24, by decide +kernel⟩

theorem witness_RepairsRerunsAndRegenerations_1 : ∃ (s : State) (die : Fin 2) (value : Word) (k : Nat),
    (s.fld galRepairStatusBusy die.val = 0 ∧ bitOf value 63 = true ∧ s.freeEntry die.val = some k) :=
  ⟨State.reset, 0, 0x8000000000000045#64, 0, by decide +kernel⟩

theorem witness_RepairsRerunsAndRegenerations_2 : ∃ (s : State) (die : Fin 2) (a : MaintAct) (r : Repair) (k : Nat),
    (((s.arb die.val).acts.find? fun a : MaintAct => a.kind == 6 && a.running) = some a) ∧ ((s.sram.repairs.find? fun r : Repair => r.die == die.val && r.entry == a.entry) = some r) ∧ (((List.range 32).find? fun k => s.spareFree die.val r.bank k) = some k) :=
  ⟨({ State.reset with sram := { repairs := [⟨0, 5, 7, 0⟩] }, hbm := { arb0 := { acts := [{ entry := 0, kind := 6, scope := 5, running := true }] } } }).setFld galRepairStatusBusy 0 0 1, 0, { entry := 0, kind := 6, scope := 5, running := true }, ⟨0, 5, 7, 0⟩, 0, by decide +kernel⟩

theorem witness_RepairsRerunsAndRegenerations_3 : ∃ (s : State) (unit : RerunRef) (k : Nat),
    let u := unitOfRef unit
    let r := s.findUnit unit.launch.toNat u
    (r.stopped = true ∧ s.unitClusters unit.launch.toNat u = [k] ∧ s.relaunchReady unit.launch.toNat u k = true) :=
  ⟨{ State.reset with chains := [{ chain0 with stopped := true }], reruns := [⟨0, 0xFFFF, 4, 1, true, 0⟩] }, ⟨0#12, 0xFFFF#16, 0#2⟩, 0, by decide +kernel⟩

theorem witness_RepairsRerunsAndRegenerations_4 : ∃ (s : State) (cluster : Fin 24) (launch : BitVec 12) (region : BitVec 16),
    let r := s.recOr launch.toNat
    let g := s.regionRec (cluDie cluster.val) r.owner r.prog region.toNat
    let c := (s.parseChain cluster.val r g.pred (s.progAt (cluDie cluster.val) r.owner r.prog g.pred 32)).1
    (region.toNat < s.regionCount (cluDie cluster.val) r.owner r.prog ∧ g.skip = true ∧ g.pred ≠ 0) ∧ (s.backwardDone launch.toNat region.toNat = true ∧ s.besideBusy cluster.val launch.toNat = false ∧ s.canLaunch c = true) :=
  ⟨{ vm [(224, 0x200000008#64), (512, 0x1000000#64), (528, 0x1000000000#64)] with seqs := [{ cluster := 0, launch := 0, next := 0, ended := true, backward := [0] }] }, 0, 0#12, 0#16, by decide +kernel⟩

theorem witness_RepairsRerunsAndRegenerations_5 : ∃ (s : State) (reader : ChainRef) (ckpt : BitVec 5) (c : Chain),
    let die := cluDie c.cluster
    let g := s.regionOf c
    let w := s.ckptEntry die c.owner c.prog g ckpt.toNat
    let p := s.regionRec die c.owner c.prog (bitsOf w 32 16)
    let r := s.recOr c.launch
    let d := (s.parseChain c.cluster r p.regen (s.progAt die r.owner r.prog p.regen 32)).1
    (s.findChain reader = some c ∧ c.region ≠ 0xFFFF ∧ ckpt.toNat < g.nAckpt) ∧ (bitOf w 48 = false ∧ s.regenAllowed c w = true) ∧ (s.besideBusy c.cluster c.launch = false ∧ s.canLaunch d = true) :=
  ⟨{ vm [(224, 0x200000008#64), (512, 0#64), (536, 16#64), (544, 0x1400000000#64)] with chains := [{ chain0 with region := 1 }] }, chain0.ref, 0#5, { chain0 with region := 1 }, by decide +kernel⟩

theorem witness_ChainsLaunchAndStageItemsStart_1 : ∃ (s : State) (cluster : Fin 24) (launch : BitVec 12) (image : CmdImage) (q : Seq),
    let r := s.recOr launch.toNat
    let ws := s.imageWords cluster.val r q.next 32 image
    let c := (s.parseChain cluster.val r q.next ws).1
    ((s.chains.any fun d : Chain => d.cluster == cluster.val && d.launch == launch.toNat && !d.extra) = false ∧ s.collRuns cluster.val launch.toNat = false) ∧ (s.findSeq cluster.val launch.toNat = some q ∧ q.ended = false ∧ imageOpc ws = 0xC) ∧ (s.canLaunch c = true ∧ (c.rings.all fun g : Stage => s.ringOk g) = true ∧ s.contextsFree c.launch c.stages = true) :=
  ⟨{ State.reset with seqs := [{ cluster := 0, launch := 0, next := 0 }] }, 0, 0#12, chainImage, { cluster := 0, launch := 0, next := 0 }, by decide +kernel⟩

theorem witness_ChainsLaunchAndStageItemsStart_2 : ∃ (s : State) (cluster : Fin 24) (launch : BitVec 12) (image : CmdImage) (q : Seq),
    let r := s.recOr launch.toNat
    let ws := s.imageWords cluster.val r q.next 32 image
    let c := (s.parseChain cluster.val r q.next ws).1
    ((s.chains.find? fun d : Chain => d.cluster == cluster.val && d.launch == launch.toNat && !d.extra && !d.ahead) = none) ∧ (s.collRuns cluster.val launch.toNat = false ∧ s.findSeq cluster.val launch.toNat true = none) ∧ (s.findSeq cluster.val launch.toNat = some q ∧ q.ended = false ∧ q.next ≠ 0 ∧ imageOpc ws = 0xC) ∧ (s.canLaunch c = true ∧ (c.rings.all fun g : Stage => s.ringOk g) = true ∧ s.contextsFree c.launch c.stages = true) :=
  ⟨{ State.reset with seqs := [{ cluster := 0, launch := 0, next := 5 }] }, 0, 0#12, chainImage, { cluster := 0, launch := 0, next := 5 }, by decide +kernel⟩

theorem witness_ChainsLaunchAndStageItemsStart_3 : ∃ (s : State) (cluster : Fin 24) (launch : BitVec 12) (image : CmdImage) (cur : Chain) (g : Stage),
    let r := s.recOr launch.toNat
    let ws := s.imageWords cluster.val r cur.next 32 image
    let c := (s.parseChain cluster.val r cur.next ws).1
    (s.findSeq cluster.val launch.toNat true = none) ∧ ((s.chains.find? fun d : Chain => d.cluster == cluster.val && d.launch == launch.toNat && !d.extra && !d.ahead) = some cur) ∧ ((s.chains.any fun d : Chain => d.cluster == cluster.val && d.launch == launch.toNat && !d.extra && d.ahead) = false) ∧ (cur.stages.head? = some g ∧ g.busy = false ∧ cur.items ≤ g.started) ∧ (cur.overlap = true ∧ cur.next ≠ 0 ∧ cur.aborting = none ∧ cur.stopped = false ∧ imageOpc ws = 0xC) ∧ (s.canLaunch c = true ∧ (c.rings.all fun g : Stage => s.ringOk g) = true ∧ s.contextsFree c.launch c.stages = true) :=
  ⟨{ State.reset with chains := [{ chain0 with overlap := true, next := 5, stages := [{ stage0 with started := 4, task := 1 }] }] }, 0, 0#12, chainImage, { chain0 with overlap := true, next := 5, stages := [{ stage0 with started := 4, task := 1 }] }, { stage0 with started := 4, task := 1 }, by decide +kernel⟩

theorem witness_ChainsLaunchAndStageItemsStart_4 : ∃ (s : State) (cluster : Fin 24) (launch : BitVec 12) (image : CmdImage) (q : Seq),
    let r := s.recOr launch.toNat
    let ws := s.imageWords cluster.val r q.next 32 image
    let c := { (s.parseChain cluster.val r q.next ws).1 with extra := true, origin := if q.regenFor.isSome then 3 else 1 }
    (s.findSeq cluster.val launch.toNat true = some q ∧ q.next ≠ 0) ∧ ((s.chains.any fun d : Chain => d.cluster == cluster.val && d.launch == launch.toNat && d.extra) = false) ∧ (s.canLaunch c = true ∧ (c.rings.all fun g : Stage => s.ringOk g) = true ∧ s.contextsFree c.launch c.stages = true) :=
  ⟨{ State.reset with seqs := [{ cluster := 0, launch := 0, next := 5, extra := true, regenFor := some (1, 2) }] }, 0, 0#12, chainImage, { cluster := 0, launch := 0, next := 5, extra := true, regenFor := some (1, 2) }, by decide +kernel⟩

theorem witness_ChainsLaunchAndStageItemsStart_5 : ∃ (s : State) (ref : ChainRef) (stage : Fin 6) (c : Chain) (g : Stage),
    (s.findChain ref = some c ∧ c.stages[stage.val]? = some g ∧ g.kind = 0) ∧ (c.waiting = false ∧ c.stopped = false ∧ c.aborting = none ∧ c.raw = false) ∧ (s.stageInReset c g = false ∧ s.touchesReset c = false ∧ (s.eng (engIndex g.engine)).queue = []) ∧ (g.missed = none ∧ g.busy = false ∧ g.started < c.items ∧ s.selected (engIndex g.engine) g.task = true) ∧ (s.planReady c = true ∧ s.itemReady c stage.val g = true) :=
  ⟨{ State.reset with chains := [chain0] }, chain0.ref, 0, chain0, stage0, by decide +kernel⟩

theorem witness_ChainsLaunchAndStageItemsStart_6 : ∃ (s : State) (ref : ChainRef) (c : Chain) (g : Stage) (u : State),
    let d := (s.chainDesc c g.inDesc).1
    (s.findChain ref = some c ∧ c.stages[0]? = some g ∧ (c.outRing 0).isSome = true) ∧ (g.kind = 1 ∧ g.todo = true ∧ c.stopped = false ∧ c.waiting = false) ∧ (s.stageReads c 0 g (d.tileRuns (g.started - 1)) = (u, ReadEnd.done false) ∧ d.mx = false) :=
  ⟨vmF, chainF.ref, chainF, stageF, (vmF.stageReads chainF 0 stageF ((vmF.chainDesc chainF 0).1.tileRuns 0)).1, by decide +kernel⟩

theorem witness_SlotTokensMove_1 : ∃ (s : State) (ref : ChainRef) (stage : Fin 6) (c : Chain) (g : Stage),
    let j := (g.started - 1) % g.nslots
    (s.findChain ref = some c ∧ c.outRing stage.val = some g) ∧ (g.outOpen = true ∧ g.todo = false ∧ g.tileOpen = false ∧ s.passesOpen g = false ∧ s.lineWaits c stage.val = false ∧ s.slotToken g j = 1) :=
  ⟨{ State.reset with chains := [chain2] }.putSlotToken stage2 0 1, chain2.ref, 0, chain2, stage2, by decide +kernel⟩

theorem witness_SlotTokensMove_2 : ∃ (s : State) (ref : ChainRef) (stage : Fin 6) (c : Chain) (g : Stage) (gi : Stage),
    let j := (g.started - 1) % gi.nslots
    (s.findChain ref = some c ∧ c.stages[stage.val]? = some g ∧ c.inRing stage.val = some gi) ∧ (g.inOpen = true ∧ g.todo = false ∧ s.lineWaits c stage.val = false ∧ s.slotToken gi j = 3 ∧ s.forwarding gi j = false) :=
  ⟨{ State.reset with chains := [chain2] }.putSlotToken stage2 0 3, chain2.ref, 1, chain2, stage3, stage2, by decide +kernel⟩

theorem witness_SlotTokensMove_3 : ∃ (s : State) (ref : ChainRef) (c : Chain),
    (s.findChain ref = some c) :=
  ⟨{ State.reset with chains := [{ chain2 with hidden := [⟨0, 0, true⟩] }] }, chain2.ref, { chain2 with hidden := [⟨0, 0, true⟩] }, by decide +kernel⟩

theorem witness_SlotTokensMove_4 : ∃ (s : State) (e : EngId) (task : Fin 4),
    ((s.eng (EngIdIdx e)).tileOpen = false ∧ (s.eng (EngIdIdx e)).task ≠ task.val) ∧ (s.taskReady (EngIdIdx e) task.val = true ∧ s.taskPrio (EngIdIdx e) (s.eng (EngIdIdx e)).task < s.taskPrio (EngIdIdx e) task.val) :=
  ⟨{ State.reset with chains := [{ chain0 with launch := 1, stages := [{ stage0 with task := 1 }] }], beam := { recs := [{ index := 0 }, { index := 1, prio := 3 }] } }.setFld engTaskStateLaunch 0 1 1, 0#7, 1, by decide +kernel⟩

theorem witness_SlotTokensMove_5 : ∃ (s : State) (e : EngId) (waited : BitVec 32) (b : Nat),
    ((s.eng (EngIdIdx e)).tileOpen = false ∧ s.taskState (EngIdIdx e) (s.eng (EngIdIdx e)).task ≠ 0 ∧ s.taskReady (EngIdIdx e) (s.eng (EngIdIdx e)).task = false) ∧ (s.switchLimit (EngIdIdx e) (s.eng (EngIdIdx e)).task ≤ waited.toNat ∧ s.bestReady (EngIdIdx e) = some b) :=
  ⟨{ State.reset with chains := [{ chain0 with stages := [{ stage0 with task := 1 }] }] }.setFld engTaskStateState 0 0 3, 0#7, 100000#32, 1, by decide +kernel⟩

theorem witness_ChainsEnd_1 : ∃ (s : State) (ref : ChainRef) (c : Chain) (q : Seq),
    (s.findChain ref = some c ∧ s.lastOpen c = false) ∧ (c.completion = 1 ∧ c.stopped = false ∧ c.aborting = none ∧ c.extra = false ∧ c.ahead = false) ∧ ((s.chains.filter fun d : Chain => d.cluster == c.cluster && d.launch == c.launch) = [c] ∧ s.findSeq c.cluster c.launch = some q) :=
  ⟨{ State.reset with chains := [{ chain0 with completion := 1 }], seqs := [{ cluster := 0, launch := 0, next := 5 }] }, chain0.ref, { chain0 with completion := 1 }, { cluster := 0, launch := 0, next := 5 }, by decide +kernel⟩

theorem witness_ChainsEnd_2 : ∃ (s : State) (ref : ChainRef) (c : Chain),
    (s.findChain ref = some c ∧ s.lastOpen c = false) ∧ (c.completion = 1 ∧ c.stopped = false ∧ c.aborting = none ∧ c.ahead = true) :=
  ⟨{ State.reset with chains := [{ chain0 with completion := 1, ahead := true }] }, { chain0 with ahead := true }.ref, { chain0 with completion := 1, ahead := true }, by decide +kernel⟩

theorem witness_ChainsEnd_3 : ∃ (s : State) (ref : ChainRef) (us : BitVec 32) (c : Chain),
    (s.findChain ref = some c ∧ c.stallWd ≠ 0 ∧ c.stallWd ≤ us.toNat) ∧ (c.waiting = false ∧ c.stopped = false ∧ c.aborting = none ∧ s.allWait c = true ∧ s.waitsExternal c = false) ∧ ((s.chains.filter fun d : Chain => d.launch == c.launch) = [c] ∧ s.fld cluChainLogValid c.cluster = 0) :=
  ⟨{ State.reset with chains := [{ chain2 with stallWd := 10, stages := [{ stage2 with outOpen := false }, { stage3 with inOpen := false }] }] }.putSlotToken stage2 1 3, chain2.ref, 10#32, { chain2 with stallWd := 10, stages := [{ stage2 with outOpen := false }, { stage3 with inOpen := false }] }, by decide +kernel⟩

theorem witness_ChainsEnd_4 : ∃ (s : State) (ref : ChainRef) (ms : BitVec 32) (c : Chain) (g : Stage),
    (s.findChain ref = some c ∧ c.stages.head? = some g ∧ g.kind = 5 ∧ c.stopped = false ∧ c.aborting = none) ∧ (s.waitsExternal c = true ∧ s.dnat dkExtSlotLimit ≤ ms.toNat) ∧ ((s.chains.filter fun d : Chain => d.launch == c.launch) = [c] ∧ s.fld cluChainLogValid c.cluster = 0) :=
  ⟨{ State.reset with chains := [{ chain0 with stages := [{ stage0 with kind := 5 }] }] }, chain0.ref, 100000000#32, { chain0 with stages := [{ stage0 with kind := 5 }] }, { stage0 with kind := 5 }, by decide +kernel⟩

theorem witness_ChainsEnd_5 : ∃ (s : State) (ref : ChainRef) (c : Chain) (q : Seq),
    (s.findChain ref = some c ∧ (c.stages.any fun g : Stage => g.tileOpen) = false) ∧ (c.completion ≠ 2 ∧ (s.chains.filter fun d : Chain => d.launch == c.launch) = [c]) ∧ (s.findSeq c.cluster c.launch = some q ∧ q.ended = false ∧ s.fld cluChainLogValid c.cluster = 0) :=
  ⟨{ State.reset with chains := [chain0], seqs := [{ cluster := 0, launch := 0, next := 5 }] }, chain0.ref, chain0, { cluster := 0, launch := 0, next := 5 }, by decide +kernel⟩

theorem witness_ChainsEnd_6 : ∃ (s : State) (ref : ChainRef) (c : Chain),
    (s.findChain ref = some c ∧ c.completion ≠ 2 ∧ (c.stages.any fun g : Stage => g.tileOpen) = true) :=
  ⟨{ State.reset with chains := [{ chain0 with stages := [{ stage0 with tileOpen := true }] }] }, chain0.ref, { chain0 with stages := [{ stage0 with tileOpen := true }] }, by decide +kernel⟩

theorem witness_HbmReadsAndWrites_1 : ∃ (s : State) (addr : BitVec 48) (owner : BitVec 6) (port : BitVec 6),
    let pa := addr.toNat / 32 * 32
    let p := hbmPlace s.harbour pa
    let r : HbmReq := { addr := pa, write := false, owner := owner.toNat, port := port.toNat }
    (s.isHbm pa = true ∧ (s.chan p.1 p.2).held = [] ∧ s.groupOut (p.1 / 4) (hbmGroup s.harbour pa) = false) ∧ (hbmFits s.harbour (s.chan p.1 p.2).queue r = true) :=
  ⟨State.reset, 0x1000#48, 3#6, 1#6, by decide +kernel⟩

theorem witness_HbmReadsAndWrites_2 : ∃ (s : State) (addr : BitVec 48) (owner : BitVec 6) (ready : BitVec 64) (r : HbmReq) (ch : PseudoChannel),
    let pa := addr.toNat / 32 * 32
    let p := hbmPlace s.harbour pa
    (s.isHbm pa = true ∧ s.hbmPick p.1 p.2 ready = some (r, ch) ∧ r.write = false ∧ r.wb = false ∧ r.addr = pa ∧ r.owner = owner.toNat) ∧ (s.deltaAt pa = 0#16 ∧ s.hbm.sevBad.contains (pa / 32) = false) :=
  ⟨{ State.reset with hbm := { chans := [(32, { queue := [{ addr := 0x1000, write := false }] })] } }, 0x1000#48, 0#6, BitVec.allOnes 64, { addr := 0x1000, write := false }, { credit := 15 }, by decide +kernel⟩

theorem witness_HbmReadsAndWrites_3 : ∃ (s : State) (addr : BitVec 48) (owner : BitVec 6) (ready : BitVec 64) (r : HbmReq) (ch : PseudoChannel) (j : Nat) (x : Nat),
    let pa := addr.toNat / 32 * 32
    let p := hbmPlace s.harbour pa
    (s.isHbm pa = true ∧ s.hbmPick p.1 p.2 ready = some (r, ch) ∧ r.write = false ∧ r.wb = false ∧ r.addr = pa ∧ r.owner = owner.toNat) ∧ (decodeDelta (s.deltaAt pa) = .corrected j x ∧ s.hbm.sevBad.contains (pa / 32) = false) ∧ ((ch.queue.any fun q : HbmReq => q.wb && q.addr == pa) = false) :=
  ⟨{ State.reset with hbmDelta := [(128, 0x0001#16)], hbm := { chans := [(32, { queue := [{ addr := 0x1000, write := false }] })] } }, 0x1000#48, 0#6, BitVec.allOnes 64, { addr := 0x1000, write := false }, { credit := 15 }, 0, 1, by decide +kernel⟩

theorem witness_HbmReadsAndWrites_4 : ∃ (s : State) (addr : BitVec 48) (owner : BitVec 6) (ready : BitVec 64) (r : HbmReq) (ch : PseudoChannel),
    let pa := addr.toNat / 32 * 32
    let p := hbmPlace s.harbour pa
    (s.isHbm pa = true ∧ s.hbmPick p.1 p.2 ready = some (r, ch) ∧ r.write = false ∧ r.wb = false ∧ r.addr = pa ∧ r.owner = owner.toNat) ∧ (decodeDelta (s.deltaAt pa) = .uncorrectable) :=
  ⟨{ State.reset with hbmDelta := [(128, 0x0101#16)], hbm := { chans := [(32, { queue := [{ addr := 0x1000, write := false }] })] } }, 0x1000#48, 0#6, BitVec.allOnes 64, { addr := 0x1000, write := false }, { credit := 15 }, by decide +kernel⟩

theorem witness_HbmReadsAndWrites_5 : ∃ (s : State) (addr : BitVec 48) (owner : BitVec 6) (ready : BitVec 64) (r : HbmReq) (ch : PseudoChannel),
    let pa := addr.toNat / 32 * 32
    let p := hbmPlace s.harbour pa
    (s.isHbm pa = true ∧ s.hbmPick p.1 p.2 ready = some (r, ch) ∧ r.write = true ∧ r.wb = false ∧ r.addr = pa ∧ r.owner = owner.toNat) ∧ ((s.frame (pa / 65536)).prot = false) :=
  ⟨{ State.reset with hbmDelta := [(128, 0x0101#16)], hbm := { chans := [(32, { queue := [{ addr := 0x1000, write := true, data := 0xAABBCC#256, mask := 5#32 }] })] } }, 0x1000#48, 0#6, BitVec.allOnes 64, { addr := 0x1000, write := true, data := 0xAABBCC#256, mask := 5#32 }, { credit := 15 }, by decide +kernel⟩

theorem witness_HbmReadsAndWrites_6 : ∃ (s : State) (addr : BitVec 48) (ready : BitVec 64) (r : HbmReq) (ch : PseudoChannel),
    let pa := addr.toNat / 32 * 32
    let p := hbmPlace s.harbour pa
    (s.isHbm pa = true ∧ s.hbmPick p.1 p.2 ready = some (r, ch) ∧ r.wb = true ∧ r.addr = pa) :=
  ⟨{ State.reset with hbmDelta := [(128, 0x0001#16)], hbm := { chans := [(32, { queue := [{ addr := 0x1000, write := true, wb := true, data := 7#256, mask := BitVec.allOnes 32 }] })] } }, 0x1000#48, BitVec.allOnes 64, { addr := 0x1000, write := true, wb := true, data := 7#256, mask := BitVec.allOnes 32 }, { credit := 15 }, by decide +kernel⟩

theorem witness_HbmReadsAndWrites_7 : ∃ (s : State) (controller : Fin 8) (pc : Fin 32) (r : HbmReq) (rs : List HbmReq),
    ((s.chan controller.val pc.val).held = r :: rs ∧ hbmFits s.harbour (s.chan controller.val pc.val).queue r = true) ∧ (s.groupOut (controller.val / 4) (hbmGroup s.harbour r.addr) = false) :=
  ⟨{ State.reset with hbm := { chans := [(0, { held := [{ addr := 0, write := false }] })] } }, 0, 0, { addr := 0, write := false }, [], by decide +kernel⟩

theorem witness_TemperatureEcsAndScrubs_2 : ∃ (s : State) (controller : Fin 8) (temp : BitVec 8),
    let die := controller.val / 4
    (s.hbm.fast.contains controller.val = false ∧ s.dnat dkHbmRefresh2xTemp ≤ temp.toNat ∧ s.actPending die 5 (controller.val % 4) = false) :=
  ⟨State.reset, 5, 200#8, by decide +kernel⟩

theorem witness_TemperatureEcsAndScrubs_3 : ∃ (s : State) (die : Fin 2) (value : Word) (k : Nat),
    let lo := min (s.hbmSpan die.val).2 (max (s.hbmSpan die.val).1 (s.fld hbmcScrubLoAddr die.val * 32))
    let hi := min (s.hbmSpan die.val).2 (max (s.hbmSpan die.val).1 (s.fld hbmcScrubHiAddr die.val * 32))
    (s.fld hbmcScrubCmdBusy die.val = 0 ∧ bitOf value 63 = true ∧ lo < hi ∧ s.freeEntry die.val = some k ∧ k < 32) :=
  ⟨State.reset.setFld hbmcScrubHiAddr 0 0 4, 0, 0x8000000000000001#64, 0, by decide +kernel⟩

theorem witness_TemperatureEcsAndScrubs_4 : ∃ (s : State) (die : Fin 2) (x : Scrub),
    ((s.arb die.val).scrub = some x ∧ ((s.arb die.val).acts.any fun a : MaintAct => a.entry == x.entry && a.running) = true) ∧ (x.stepped = [] ∧ x.pos < x.hi ∧ s.scrubState die.val x.pos = 0 ∧ s.deltaAt x.pos = 0#16 ∧ s.hbm.sevBad.contains (x.pos / 32) = false) ∧ (s.noneQueued x.pos 32 = true) :=
  ⟨{ State.reset with hbm := { arb0 := { acts := [{ entry := 3, kind := 1, scope := 0, running := true }], scrub := some { entry := 3, mode := false, pos := 0, hi := 128, recAddr := 0, tokenEn := false, token := 0 } } } }, 0, { entry := 3, mode := false, pos := 0, hi := 128, recAddr := 0, tokenEn := false, token := 0 }, by decide +kernel⟩

theorem witness_TemperatureEcsAndScrubs_5 : ∃ (s : State) (die : Fin 2) (x : Scrub),
    ((s.arb die.val).scrub = some x ∧ ((s.arb die.val).acts.any fun a : MaintAct => a.entry == x.entry && a.running) = true) ∧ (x.hi ≤ x.pos ∧ x.stepped = [] ∧ x.deferred = [] ∧ x.recorded = false) ∧ ((s.devWriteWords { unit := .maint die.val } x.recAddr x.record).writeWaits x.recAddr 320 = false) :=
  ⟨{ State.reset with hbm := { arb0 := { acts := [{ entry := 3, kind := 1, scope := 0, running := true }], scrub := some { entry := 3, mode := false, pos := 128, hi := 128, recAddr := 0, tokenEn := true, token := 5 } } } }, 0, { entry := 3, mode := false, pos := 128, hi := 128, recAddr := 0, tokenEn := true, token := 5 }, by decide +kernel⟩

theorem witness_TemperatureEcsAndScrubs_6 : ∃ (s : State) (die : Fin 2) (x : Scrub),
    ((s.arb die.val).scrub = some x ∧ ((s.arb die.val).acts.any fun a : MaintAct => a.entry == x.entry && a.running) = true) ∧ (x.hi ≤ x.pos ∧ x.stepped = [] ∧ x.deferred = [] ∧ x.recorded = false) ∧ ((s.devWriteWords { unit := .maint die.val } x.recAddr x.record).writeWaits x.recAddr 320 = true) :=
  ⟨{ State.reset with hbm := { arb0 := { acts := [{ entry := 3, kind := 1, scope := 0, running := true }], scrub := some { entry := 3, mode := false, pos := 128, hi := 128, recAddr := 0x10000, tokenEn := true, token := 5 } } } }.setFrame 1 { st := .resident, prot := true }, 0, { entry := 3, mode := false, pos := 128, hi := 128, recAddr := 0x10000, tokenEn := true, token := 5 }, by decide +kernel⟩

theorem witness_MaintenanceRequestsAndCalibration_1 : ∃ (s : State) (die : Fin 2) (value : Word) (k : Nat),
    (s.fld hbmcMaintReqPending die.val = 0 ∧ bitOf value 63 = true ∧ s.freeEntry die.val = some k ∧ k < 32) :=
  ⟨State.reset, 1, 0x800000000000002A#64, 0, by decide +kernel⟩

theorem witness_MaintenanceRequestsAndCalibration_2 : ∃ (s : State) (die : Fin 2) (value : Word) (k : Nat),
    (s.fld hbmcMaintReqPending die.val = 0 ∧ bitOf value 63 = true ∧ s.freeEntry die.val = some k ∧ k < 32) :=
  ⟨State.reset, 1, 0x800000000000007B#64, 0, by decide +kernel⟩

theorem witness_MaintenanceRequestsAndCalibration_3 : ∃ (s : State) (die : Fin 2) (value : Word) (k : Nat),
    (s.fld hbmcMaintReqPending die.val = 0 ∧ bitOf value 63 = true ∧ s.freeEntry die.val = some k ∧ k < 32) :=
  ⟨State.reset, 1, 0x800000000000011D#64, 0, by decide +kernel⟩

theorem witness_MaintenanceRequestsAndCalibration_4 : ∃ (s : State) (die : Fin 2) (a : MaintAct) (k : Nat),
    ((s.arb die.val).waiting = some a ∧ s.freeEntry die.val = some k ∧ k < 32 ∧ a.kind < 8) :=
  ⟨{ State.reset with hbm := { arb0 := { waiting := some { entry := 0, kind := 3, scope := 4 } } } }, 0, { entry := 0, kind := 3, scope := 4 }, 0, by decide +kernel⟩

theorem witness_MaintenanceRequestsAndCalibration_5 : ∃ (s : State) (die : Fin 2) (freed : BitVec 12) (a : MaintAct),
    (s.daymarks = [] ∧ (s.arb die.val).acts = [a] ∧ a.kind = 3 ∧ a.running = false ∧ freed.getLsbD a.scope = true) :=
  ⟨{ State.reset with hbm := { arb0 := { acts := [{ entry := 0, kind := 3, scope := 4 }] } } }, 0, 0x010#12, { entry := 0, kind := 3, scope := 4 }, by decide +kernel⟩

theorem witness_MaintenanceRequestsAndCalibration_6 : ∃ (s : State) (die : Fin 2) (group : Fin 16) (a : MaintAct),
    (((s.arb die.val).acts.find? fun x : MaintAct => x.kind == 2 && x.scope == group.val && !x.running) = some a) ∧ (a.force = false ∧ admissible (s.arb die.val).acts a = true ∧ s.beam.quiet.isSome = true ∧ s.dnat dkCalGroupTime ≤ s.quietLeft) :=
  ⟨{ State.reset with beam := { quiet := some ⟨0, 4096⟩ }, hbm := { arb0 := { acts := [{ entry := 2, kind := 2, scope := 5 }] } } }, 0, 5, { entry := 2, kind := 2, scope := 5 }, by decide +kernel⟩

theorem witness_MaintenanceRequestsAndCalibration_7 : ∃ (s : State) (die : Fin 2) (group : Fin 16) (a : MaintAct),
    (((s.arb die.val).acts.find? fun x : MaintAct => x.kind == 2 && (x.scope == group.val || x.scope == 16) && x.running) = some a) ∧ (a.scope = group.val) :=
  ⟨{ State.reset with hbm := { outGroups := [5], arb0 := { acts := [{ entry := 2, kind := 2, scope := 5, running := true }] } } }, 0, 5, { entry := 2, kind := 2, scope := 5, running := true }, by decide +kernel⟩

theorem witness_MaintenanceRequestsAndCalibration_8 : ∃ (s : State) (die : Fin 2) (group : Fin 16) (k : Nat),
    (s.actPending die.val 2 group.val = false ∧ s.freeEntry die.val = some k ∧ k < 32) :=
  ⟨State.reset, 1, 3, 0, by decide +kernel⟩

theorem witness_MaintenanceRequestsAndCalibration_9 : ∃ (s : State) (die : Fin 2) (cluster : Fin 12) (a : MaintAct),
    (((s.arb die.val).acts.find? fun x : MaintAct => x.kind == 3 && x.scope == cluster.val && x.running) = some a) :=
  ⟨{ State.reset with mem := [(0x8104000005, 7#8)], hbm := { arb0 := { acts := [{ entry := 2, kind := 3, scope := 4, running := true }] } } }, 0, 4, { entry := 2, kind := 3, scope := 4, running := true }, by decide +kernel⟩

theorem witness_FrameRequestsAndWaits_1 : ∃ (s : State) (owner : BitVec 6) (tier : Fin 3) (die : Fin 2) (vpage : BitVec 32) (chain : Option ChainRef) (n : Nat),
    let r := (s.placeReq { owner := owner.toNat, tier := tier.val, die := die.val, vpage := vpage.toNat, chain := chain }).2
    ((s.pool.waiting.any fun q : FrameReq => q.beside r) = false) ∧ (s.dget (dkOwnerMode owner.toNat) ≠ 0 ∧ s.held owner.toNat r.tier die.val < s.ceilOf owner.toNat r.tier) ∧ (s.lowestFree (s.tierRange r.tier die.val).1 (s.tierRange r.tier die.val).2 = some n) :=
  ⟨(State.reset.dput (dkOwnerMode 3) 1).dput (dkHbmCeil 3) 100, 3#6, 1, 1, 77#32, none, 0x300000, by decide +kernel⟩

theorem witness_FrameRequestsAndWaits_2 : ∃ (s : State) (owner : BitVec 6) (tier : Fin 3) (die : Fin 2) (vpage : BitVec 32) (chain : Option ChainRef),
    let r := (s.placeReq { owner := owner.toNat, tier := tier.val, die := die.val, vpage := vpage.toNat, chain := chain }).2
    ((s.pool.waiting.any fun q : FrameReq => q.beside r) = true) :=
  ⟨{ State.reset with pool := { waiting := [⟨1, 0, 0, 5, none⟩] } }, 3#6, 0, 0, 77#32, none, by decide +kernel⟩

theorem witness_FrameRequestsAndWaits_3 : ∃ (s : State) (die : Fin 2) (r : FrameReq) (n : Nat),
    (s.pool.waiting = [r] ∧ (r.tier = 2 ∨ r.die = die.val) ∧ (s.pool.cmdWait.all fun w : Nat × Nat × Nat × Nat => w.1 != die.val) = true) ∧ (s.dget (dkOwnerMode r.owner) ≠ 0 ∧ s.held r.owner r.tier r.die < s.ceilOf r.owner r.tier) ∧ (s.lowestFree (s.tierRange r.tier r.die).1 (s.tierRange r.tier r.die).2 = some n) :=
  ⟨{ (State.reset.dput (dkOwnerMode 3) 1).dput (dkHbmCeil 3) 100 with pool := { waiting := [⟨3, 1, 1, 5, none⟩], cmdWait := [(0, 0, 1, 2)] } }, 1, ⟨3, 1, 1, 5, none⟩, 0x300000, by decide +kernel⟩

theorem witness_FrameRequestsAndWaits_4 : ∃ (s : State) (die : Fin 2) (owner : BitVec 6) (vpage : BitVec 32) (ms : BitVec 32) (ref : ChainRef) (q : FrameReq) (c : Chain),
    (s.dnat dkPoolWaitLimit ≤ ms.toNat ∧ s.pool.waiting = [q] ∧ s.findChain ref = some c ∧ c.aborting = none) ∧ (q.die = die.val ∧ q.owner = owner.toNat ∧ q.vpage = vpage.toNat ∧ q.chain = some ref) ∧ ((s.chains.filter fun d : Chain => d.launch == c.launch) = [c] ∧ s.fld cluChainLogValid c.cluster = 0) :=
  ⟨{ State.reset with chains := [chain0], pool := { waiting := [⟨0, 1, 0, 5, some chain0.ref⟩] } }, 0, 0#6, 5#32, BitVec.allOnes 32, chain0.ref, ⟨0, 1, 0, 5, some chain0.ref⟩, chain0, by decide +kernel⟩

theorem witness_FrameRequestsAndWaits_5 : ∃ (s : State) (die : Fin 2) (owner : BitVec 6) (vpage : BitVec 32) (ms : BitVec 32),
    (s.dnat dkPoolWaitLimit ≤ ms.toNat ∧ s.pool.waiting = []) ∧ ((s.pool.cmdWait.any fun w : Nat × Nat × Nat × Nat => w.1 == die.val && w.2.2.1 == owner.toNat && w.2.2.2 == vpage.toNat) = true) :=
  ⟨{ State.reset.setFld poolMoveStatusBusy 0 0 1 with pool := { cmdWait := [(0, 0, 1, 2)] } }, 0, 1#6, 2#32, BitVec.allOnes 32, by decide +kernel⟩

theorem witness_MovesAndPins_1 : ∃ (s : State) (die : Fin 2) (value : Word) (pa : Nat) (rd : Bool) (wr : Bool) (o : Nat) (big : Bool) (k : Nat),
    let owner := bitsOf value 4 6
    let tier := min 2 (bitsOf value 2 2)
    let page := s.fld poolMoveAddrVpage die.val
    let n := pa / 65536
    (moveOp value = 0 ∧ bitOf value 63 = true ∧ s.fld poolMoveStatusBusy die.val = 0) ∧ (s.xlat die.val owner (page * 65536) = .page pa rd wr o big ∧ (s.frame n).st = .resident ∧ (s.frame n).owner = owner) ∧ ((s.frame n).pinned = false ∧ (s.frame n).window = false ∧ (s.frame n).quarantined = false ∧ big = false ∧ (s.frame n).big = false) ∧ ((s.frame n).prot = false ∧ (s.frame n).lower = none ∧ (s.frame n).moving = false ∧ s.frameTier n ≠ tier) ∧ (s.dget (dkOwnerMode owner) ≠ 0 ∧ s.held owner tier die.val < s.ceilOf owner tier) ∧ (s.lowestFree (s.tierRange tier die.val).1 (s.tierRange tier die.val).2 = some k) :=
  ⟨((vm []).setFrame 5 { st := .resident }).dput (dkOwnerMode 0) 1 |>.dput (dkGalCeil 0) 100, 0, 0x8000000000000000#64, 0x50000, true, true, 0, false, 0x800000, by decide +kernel⟩

theorem witness_MovesAndPins_2 : ∃ (s : State) (die : Fin 2) (value : Word) (pa : Nat) (rd : Bool) (wr : Bool) (o : Nat) (big : Bool),
    let owner := bitsOf value 4 6
    let n := pa / 65536
    (moveOp value = 1 ∧ bitOf value 63 = true ∧ s.fld poolMoveStatusBusy die.val = 0 ∧ s.pool.waiting = []) ∧ (s.xlat die.val owner (s.fld poolMoveAddrVpage die.val * 65536) = .page pa rd wr o big ∧ (s.frame n).st ≠ .free ∧ (s.frame n).owner = owner) ∧ ((s.pool.moves.find? fun m : Move => m.src == n) = none) ∧ ((s.frame n).pinned = true ∨ s.pinnedIn owner (s.frameTier n) (s.frameDie n) + 1 ≤ s.floorOf owner (s.frameTier n)) :=
  ⟨((vm []).setFrame 5 { st := .resident }).dput (dkHbmFloor 0) 1, 0, 0x8000000000000001#64, 0x50000, true, true, 0, false, by decide +kernel⟩

theorem witness_MovesAndPins_3 : ∃ (s : State) (die : Fin 2) (value : Word) (pa : Nat) (rd : Bool) (wr : Bool) (o : Nat) (big : Bool),
    let owner := bitsOf value 4 6
    let n := pa / 65536
    (moveOp value = 1 ∧ bitOf value 63 = true ∧ s.fld poolMoveStatusBusy die.val = 0) ∧ (s.xlat die.val owner (s.fld poolMoveAddrVpage die.val * 65536) = .page pa rd wr o big ∧ (s.frame n).st ≠ .free ∧ (s.frame n).owner = owner) ∧ ((s.frame n).pinned = false ∧ s.floorOf owner (s.frameTier n) < s.pinnedIn owner (s.frameTier n) (s.frameDie n) + 1) :=
  ⟨((vm []).setFrame 5 { st := .resident }).dput (dkHbmFloor 0) 0, 0, 0x8000000000000001#64, 0x50000, true, true, 0, false, by decide +kernel⟩

theorem witness_MovesAndPins_4 : ∃ (s : State) (die : Fin 2) (value : Word) (pa : Nat) (rd : Bool) (wr : Bool) (o : Nat) (big : Bool),
    let owner := bitsOf value 4 6
    let n := pa / 65536
    (moveOp value = 2 ∧ bitOf value 63 = true ∧ s.fld poolMoveStatusBusy die.val = 0 ∧ s.pool.waiting = []) ∧ (s.xlat die.val owner (s.fld poolMoveAddrVpage die.val * 65536) = .page pa rd wr o big ∧ (s.frame n).st ≠ .free ∧ (s.frame n).owner = owner) ∧ (big = false ∧ (s.frame n).big = false) :=
  ⟨(vm []).setFrame 5 { st := .resident, pinned := true }, 0, 0x8000000000000002#64, 0x50000, true, true, 0, false, by decide +kernel⟩

theorem witness_MovesAndPins_5 : ∃ (s : State) (frame : BitVec 32) (m : Move) (d : Fin 2),
    let f := s.frame m.src
    (s.pool.moves = [m] ∧ m.src = frame.toNat ∧ m.src ≠ m.dst ∧ m.writeBack = false ∧ m.fill = false ∧ m.cmdDie = some d.val ∧ f.lower = none) ∧ (s.groupsOut m.src = false ∧ s.groupsOut m.dst = false) ∧ (s.pool.waiting = [] ∧ s.pool.cmdWait = [] ∧ s.pool.plans = [] ∧ s.pool.retiring = [] ∧ s.noneTodo = true) :=
  ⟨{ (vm []) with mem := ((vm []).putRaw 0x50010 [7#8]).mem, pool := { frames := [(5, { st := .resident, moving := true }), (9, { st := .resident, moving := true })], moves := [{ src := 5, dst := 9, owner := 0, writeBack := false, evict := false, cmdDie := some 0 }] } }, 5#32, { src := 5, dst := 9, owner := 0, writeBack := false, evict := false, cmdDie := some 0 }, 0, by decide +kernel⟩

theorem witness_FrameCopyKeepsEveryByte_1 : ∃ (s : State) (src : Nat) (dst : Nat) (off : Nat),
    (Memory.wf s.mem = true ∧ canonical 0#16 s.hbmDelta = true ∧ src ≠ dst ∧ off < 65536) ∧ (s.noneQueued (src * 65536) 65536 = true ∧ s.noneQueued (dst * 65536) 65536 = true) :=
  ⟨{ State.reset with mem := [(0x50010, 7#8)] }, 5, 9, 16, by decide +kernel⟩

theorem witness_StreamPlanEntriesAreLifted_1 : ∃ (s : State) (die : Fin 2) (launch : BitVec 12) (entry : BitVec 24) (gathered : List Gathered) (p : StreamPlan) (pages : List (Nat × Nat)),
    let e := s.planEntry p entry.toNat
    ((s.pool.plans.find? fun q : StreamPlan => q.die == die.val && q.launch == launch.toNat) = some p) ∧ ((p.fetching.all fun i : Nat => decide (entry.toNat ≤ i)) = true ∧ p.fetching.contains entry.toNat = true ∧ p.fetched = []) ∧ (p.landing.length = p.size ∧ p.slotFree entry.toNat = true ∧ s.entryPages p (s.entryRuns p (s.planProg p) e.1 0 e.2.2) = some pages) ∧ ((e.2.2.all fun x : EntryTensor => !x.gather || (gathered.find? fun g : Gathered => g.place.val == x.place).all fun g : Gathered => s.gatherMatches p e.2.1 (fun k => s.tensorWord p.die p.owner (s.planProg p) x.index k) g.stamps) = true) :=
  ⟨{ State.reset with pool := { plans := [{ die := 0, launch := 3, owner := 0, base := 0, w := 2, entries := 5, fetching := [1] }] } }, 0, 3#12, 1#24, [], { die := 0, launch := 3, owner := 0, base := 0, w := 2, entries := 5, fetching := [1] }, [], by decide +kernel⟩

theorem witness_StreamPlanEntriesAreLifted_2 : ∃ (s : State) (die : Fin 2) (launch : BitVec 12) (entry : BitVec 24) (gathered : List Gathered) (p : StreamPlan) (pages : List (Nat × Nat)) (x : EntryTensor) (g : Gathered),
    let e := s.planEntry p entry.toNat
    ((s.pool.plans.find? fun q : StreamPlan => q.die == die.val && q.launch == launch.toNat) = some p) ∧ ((p.fetching.all fun i : Nat => decide (entry.toNat ≤ i)) = true ∧ p.fetching.contains entry.toNat = true ∧ p.fetched = []) ∧ (p.landing.length = p.size ∧ p.slotFree entry.toNat = true ∧ s.entryPages p (s.entryRuns p (s.planProg p) e.1 0 e.2.2) = some pages) ∧ (x ∈ e.2.2 ∧ x.gather = true ∧ (gathered.find? fun g : Gathered => g.place.val == x.place) = some g) ∧ (s.gatherMatches p e.2.1 (fun k => s.tensorWord p.die p.owner (s.planProg p) x.index k) g.stamps = false) :=
  ⟨{ vm [(128, 0x20#64), (136, 0x100000000#64)] with pool := { plans := [{ die := 0, launch := 3, owner := 0, base := 0, w := 2, entries := 5, fetching := [1] }] } }, 0, 3#12, 1#24, [{ place := 0, data := [], stamps := [5#32] }], { die := 0, launch := 3, owner := 0, base := 0, w := 2, entries := 5, fetching := [1] }, [], ⟨0, 0, true⟩, { place := 0, data := [], stamps := [5#32] }, by decide +kernel⟩

theorem witness_StreamPlanEntriesAreLifted_3 : ∃ (s : State) (die : Fin 2) (launch : BitVec 12) (entry : BitVec 24) (slot : BitVec 4) (p : StreamPlan),
    ((s.pool.plans.find? fun q : StreamPlan => q.die == die.val && q.launch == launch.toNat) = some p) ∧ (slot.toNat = entry.toNat % p.w ∧ p.fetched.contains entry.toNat = true ∧ (p.slots.getD (entry.toNat % p.w) []).length = p.size) ∧ ((p.landing.all fun n : Nat => !(s.frame n).quarantined) = true) :=
  ⟨{ State.reset with pool := { plans := [{ die := 0, launch := 3, owner := 0, base := 0, w := 2, entries := 5, fetched := [1] }] } }, 0, 3#12, 1#24, 1#4, { die := 0, launch := 3, owner := 0, base := 0, w := 2, entries := 5, fetched := [1] }, by decide +kernel⟩

theorem witness_RebuildsQuarantinesAndGallerySets_1 : ∃ (s : State) (addr : BitVec 48) (pa : Nat) (rd : Bool) (wr : Bool) (o : Nat) (big : Bool),
    let sector := addr.toNat / 32 * 32
    let f := s.frame (sector / 65536)
    let die := s.frameDie (sector / 65536)
    (f.st ≠ .free ∧ f.quarantined = false ∧ s.sectorSound sector = false ∧ f.rebuild = true ∧ s.pool.rebuilds = [] ∧ s.noneTodo = true) ∧ (s.xlat die f.owner (f.counterpart sector) = .page pa rd wr o big ∧ (s.frame (pa / 65536)).stamp = f.stamp ∧ s.sectorSound pa = true ∧ s.noneQueued (pa / 32 * 32) 32 = true) :=
  ⟨{ ((vm [(0, 0x1122334455667788#64)]).setFrame 9 { st := .resident, policy := 0x12, tileBytes := 65536, kb := 1, nb := 1, stamp := 4 }).setFrame 5 { st := .resident, stamp := 4 } with hbmDelta := [(9 * 2048, 0x0101#16)] }, 0x90000#48, 0x50000, true, true, 0, false, by decide +kernel⟩

theorem witness_RebuildsQuarantinesAndGallerySets_2 : ∃ (s : State) (addr : BitVec 48),
    let sector := addr.toNat / 32 * 32
    let f := s.frame (sector / 65536)
    (f.st ≠ .free ∧ f.quarantined = false ∧ s.sectorSound sector = false ∧ f.rebuild = false ∧ s.pool.rebuilds = []) :=
  ⟨{ State.reset with pool := { frames := [(9, { st := .resident })] }, hbmDelta := [(9 * 2048, 0x0101#16)] }, 0x90000#48, by decide +kernel⟩

theorem witness_RebuildsQuarantinesAndGallerySets_3 : ∃ (s : State) (addr : BitVec 48) (ms : BitVec 32) (failed : Bool),
    let sector := addr.toNat / 32 * 32
    ((s.pool.rebuilds.any fun r : Rebuild => r.sector == sector) = true ∧ s.noneTodo = true) ∧ (failed = true ∨ s.dnat dkRebuildTimeout ≤ ms.toNat) :=
  ⟨{ State.reset with pool := { rebuilds := [⟨0x90000, 0, none, []⟩] } }, 0x90000#48, BitVec.allOnes 32, false, by decide +kernel⟩

theorem witness_RebuildsQuarantinesAndGallerySets_5 : ∃ (s : State) (die : Fin 2) (owner : BitVec 6),
    ((s.pool.swapping.any fun p : Nat × Nat => p.1 == die.val) = false ∧ (s.pool.invoked.find? fun p : Nat × Nat => p.1 == die.val) = some (die.val, owner.toNat)) :=
  ⟨{ State.reset.dput (dkOwnerMode 2) 3 with pool := { setOwner := [(1, 4)], invoked := [(1, 2)] } }, 1, 2#6, by decide +kernel⟩

theorem witness_RebuildsQuarantinesAndGallerySets_6 : ∃ (s : State) (die : Fin 2) (owner : BitVec 6),
    (s.pool.swapping.contains (die.val, owner.toNat) = true) :=
  ⟨{ State.reset with pool := { swapping := [(1, 2)] } }, 1, 2#6, by decide +kernel⟩

theorem witness_FlitsGoOutAndArrive_1 : ∃ (s : State) (link : Fin 16) (p : List Byte) (ps : List (List Byte)),
    (s.transmits link.val = true ∧ (s.link link.val).control = p :: ps) :=
  ⟨link0 5 { control := [[1#8, 0#8, 0#8]] }, 0, [1#8, 0#8, 0#8], [], by decide +kernel⟩

theorem witness_FlitsGoOutAndArrive_2 : ∃ (s : State) (link : Fin 16) (v : Nat),
    let x := s.link link.val
    (s.linkState link.val = 5 ∧ x.control = [] ∧ (x.retry.any fun r : RetryFlit => r.again) = false ∧ s.sentMsgs = []) ∧ (x.retry.length < 1024 ∧ x.nextVc = some v) :=
  ⟨link0 5 { credits := [0, 2, 0, 0], tx1 := [{ header := some ⟨4#64, 0#64, 0#64, 0#64⟩ }] }, 0, 1, by decide +kernel⟩

theorem witness_FlitsGoOutAndArrive_3 : ∃ (s : State) (link : Fin 16) (r : RetryFlit),
    let x := s.link link.val
    (s.linkState link.val = 5 ∧ x.control = [] ∧ (x.retry.find? fun q : RetryFlit => q.again) = some r) :=
  ⟨link0 5 { retry := [{ seq := 4, vc := 0, payload := [], headers := [], again := true }] }, 0, { seq := 4, vc := 0, payload := [], headers := [], again := true }, by decide +kernel⟩

theorem witness_FlitsGoOutAndArrive_4 : ∃ (s : State) (link : Fin 16) (flit : FlitIn),
    let x := s.link link.val
    let head := flitHead flit.bits
    (s.linkState link.val = 5 ∧ flitGood flit = true ∧ bitsOf head 0 2 = 1 ∧ bitsOf head 2 12 = x.expSeq) :=
  ⟨link0 5 { expSeq := 7 }, 0, flitOf (flitHeader 1 7 none 2 0 false 0) [4#8], by decide +kernel⟩

theorem witness_FlitsGoOutAndArrive_5 : ∃ (s : State) (link : Fin 16) (flit : FlitIn),
    let x := s.link link.val
    (s.linkState link.val = 5 ∧ flitGood flit = false ∧ x.nakSent = false) :=
  ⟨link0 5 { expSeq := 7 }, 0, { bits := 5#2048 }, by decide +kernel⟩

theorem witness_FlitsGoOutAndArrive_6 : ∃ (s : State) (link : Fin 16) (flit : FlitIn),
    (s.transmits link.val = true ∧ flitGood flit = true ∧ bitsOf (flitHead flit.bits) 0 2 = 0) :=
  ⟨link0 5 { credits := [0, 2, 0, 0], retry := [{ seq := 4, vc := 0, payload := [], headers := [] }] }, 0, flitOf (flitHeader 0 0 (some 4) 0 1 false 3) [], by decide +kernel⟩

theorem witness_FlitsAreSentAgain_1 : ∃ (s : State) (link : Fin 16) (flit : FlitIn),
    let q := ((s.link link.val).takeReturns (flitHead flit.bits)).retry
    let seq := natOfBytes (((flitPayload flit.bits).drop 1).take 2) % 4096
    (s.linkState link.val = 5 ∧ flitGood flit = true ∧ bitsOf (flitHead flit.bits) 0 2 = 2 ∧ (flitPayload flit.bits).headD 0#8 = 1#8) ∧ ((q.any fun r : RetryFlit => r.seq == seq) = true) :=
  ⟨link0 5 { retry := [{ seq := 4, vc := 0, payload := [], headers := [] }, { seq := 5, vc := 0, payload := [], headers := [] }] }, 0, ctrlFlit [1#8, 5#8, 0#8], by decide +kernel⟩

theorem witness_FlitsAreSentAgain_2 : ∃ (s : State) (link : Fin 16) (waited : BitVec 32) (r : RetryFlit) (rs : List RetryFlit),
    (s.linkState link.val = 5 ∧ (s.link link.val).retry = r :: rs ∧ 2 * s.fld fabDelayRtt link.val + 10000 ≤ waited.toNat) :=
  ⟨link0 5 { retry := [{ seq := 4, vc := 0, payload := [], headers := [] }, { seq := 5, vc := 0, payload := [], headers := [] }] }, 0, 10000#32, { seq := 4, vc := 0, payload := [], headers := [] }, [{ seq := 5, vc := 0, payload := [], headers := [] }], by decide +kernel⟩

theorem witness_FlitsAreSentAgain_3 : ∃ (s : State) (link : Fin 16),
    (s.linkState link.val = 6 ∧ s.dget (dkLinkEnable link.val) ≠ 0) :=
  ⟨(link0 6 { retry := [{ seq := 4, vc := 0, payload := [], headers := [], resends := 3 }] }).dput (dkLinkEnable 0) 1, 0, by decide +kernel⟩

theorem witness_FlitsAreSentAgain_4 : ∃ (s : State) (link : Fin 16) (ms : BitVec 16),
    let x := s.link link.val
    (s.linkState link.val = 6 ∧ s.dnat dkLinkRecoverLimit ≤ ms.toNat) ∧ (x.tx0 = [] ∧ x.tx1 = [] ∧ x.tx2 = [] ∧ x.tx3 = [] ∧ lostHeaders x.retry = []) :=
  ⟨link0 6 { retry := [{ seq := 4, vc := 0, payload := [], headers := [], resends := 3 }] }, 0, 65535#16, by decide +kernel⟩

theorem witness_LinksTrain_1 : ∃ (s : State) (link : Fin 16),
    (s.linkState link.val = 0) :=
  ⟨link0 0 {}, 0, by decide +kernel⟩

theorem witness_LinksTrain_2 : ∃ (s : State) (link : Fin 16),
    (s.linkState link.val = 5) :=
  ⟨link0 5 {}, 0, by decide +kernel⟩

theorem witness_LinksTrain_3 : ∃ (s : State) (link : Fin 16),
    (s.linkState link.val = 1) :=
  ⟨link0 1 {}, 0, by decide +kernel⟩

theorem witness_LinksTrain_4 : ∃ (s : State) (link : Fin 16),
    (s.linkState link.val = 7 ∨ s.linkState link.val = 8) :=
  ⟨link0 8 {}, 0, by decide +kernel⟩

theorem witness_LinksTrain_5 : ∃ (s : State) (link : Fin 16),
    (s.linkState link.val = 2) :=
  ⟨link0 2 { nextSeq := 5 }, 0, by decide +kernel⟩

theorem witness_LinksTrain_6 : ∃ (s : State) (link : Fin 16) (ms : BitVec 16),
    (s.linkState link.val = 2 ∧ 500 ≤ ms.toNat) :=
  ⟨link0 2 {}, 0, 500#16, by decide +kernel⟩

theorem witness_LinksTrain_7 : ∃ (s : State) (link : Fin 16),
    (s.linkState link.val = 3 ∧ (s.link link.val).partner = none) :=
  ⟨link0 3 {}, 0, by decide +kernel⟩

theorem witness_LinksTrain_8 : ∃ (s : State) (link : Fin 16) (flit : FlitIn),
    let p := parseCapabilities (flitPayload flit.bits)
    (s.linkState link.val = 3 ∧ flitGood flit = true ∧ bitsOf (flitHead flit.bits) 0 2 = 2 ∧ (flitPayload flit.bits).headD 0#8 = 2#8) ∧ (p.versions % 2 = 1) :=
  ⟨link0 3 {}, 0, ctrlFlit ([2#8, 9#8, 0x30#8, 1#8, 100#8] ++ List.replicate 12 0#8), by decide +kernel⟩

theorem witness_LinksTrain_9 : ∃ (s : State) (link : Fin 16) (flit : FlitIn),
    (s.linkState link.val = 3 ∧ flitGood flit = true ∧ bitsOf (flitHead flit.bits) 0 2 = 2 ∧ (flitPayload flit.bits).headD 0#8 = 2#8) ∧ ((parseCapabilities (flitPayload flit.bits)).versions % 2 = 0) :=
  ⟨link0 3 {}, 0, ctrlFlit ([2#8, 9#8, 0x30#8, 2#8, 100#8] ++ List.replicate 12 0#8), by decide +kernel⟩

theorem witness_EchoesMeasureTheLink_1 : ∃ (s : State) (link : Fin 16) (flit : FlitIn),
    (s.transmits link.val = true ∧ flitGood flit = true ∧ bitsOf (flitHead flit.bits) 0 2 = 2 ∧ (flitPayload flit.bits).headD 0#8 = 3#8) :=
  ⟨link0 5 {}, 0, ctrlFlit [3#8, 9#8], by decide +kernel⟩

theorem witness_EchoesMeasureTheLink_2 : ∃ (s : State) (link : Fin 16),
    (s.linkState link.val = 4 ∧ (s.link link.val).echoSent < 64) :=
  ⟨link0 4 {}, 0, by decide +kernel⟩

theorem witness_EchoesMeasureTheLink_3 : ∃ (s : State) (link : Fin 16) (flit : FlitIn),
    let x := s.link link.val
    (s.linkState link.val = 4 ∧ flitGood flit = true ∧ bitsOf (flitHead flit.bits) 0 2 = 2 ∧ (flitPayload flit.bits).headD 0#8 = 4#8) ∧ (x.echoes.length < x.echoSent ∧ x.echoes.length < 63) :=
  ⟨link0 4 { echoSent := 2, echoes := [5] }, 0, ctrlFlit [4#8, 9#8], by decide +kernel⟩

theorem witness_EchoesMeasureTheLink_4 : ∃ (s : State) (link : Fin 16) (flit : FlitIn) (rtt : BitVec 20) (p : Capabilities),
    let x := s.link link.val
    let best := x.echoes.foldl min rtt.toNat
    let d := (cableDelay2 best p).toNat
    let oneWay := 625 + d / 2 + p.rxLatency
    (s.linkState link.val = 4 ∧ flitGood flit = true ∧ bitsOf (flitHead flit.bits) 0 2 = 2 ∧ (flitPayload flit.bits).headD 0#8 = 4#8) ∧ (x.echoes.length < x.echoSent ∧ x.echoes.length = 63 ∧ x.partner = some p ∧ s.dget (dkLinkEnable link.val) ≠ 0) ∧ (oneWay < 2 ^ 20) :=
  ⟨(link0 4 { echoSent := 64, echoes := List.replicate 63 4900, partner := some partner0 }).dput (dkLinkEnable 0) 1, 0, ctrlFlit [4#8, 9#8], 4800#20, partner0, by decide +kernel⟩

theorem witness_WindowMessagesAtTheTarget_1 : ∃ (s : State) (link : Option (Fin 16)) (header : Words4) (cause : Nat) (k : Nat),
    let die := hdrWindow header / 512
    (mtype header = 1 ∧ (s.fabric.ringWaits.any fun w : RingWait => w.before die link) = false ∧ s.refusal header = some cause) ∧ (srcPkg header ≠ s.ownPkg ∧ s.routeLink die (srcPkg header) = some k) :=
  ⟨withNet State.reset, some 0, hdr State.reset 1 0 4 9, 0, 0, by decide +kernel⟩

theorem witness_WindowMessagesAtTheTarget_2 : ∃ (s : State) (link : Option (Fin 16)) (header : Words4) (seg : LineSeg) (k : Nat) (pa : Nat),
    let die := hdrWindow header / 512
    let e := hdrWindow header % 512
    let g : Landing := { num := s.fabric.landingNum, die := die, entry := e, header := header, get := false, link := link, left := [0] }
    (mtype header = 1 ∧ (s.fabric.ringWaits.any fun w : RingWait => w.before die link) = false ∧ s.refusal header = none) ∧ (srcPkg header ≠ s.ownPkg ∧ s.routeLink die (srcPkg header) = some k ∧ s.winRing die e = false ∧ s.fabric.landings = []) ∧ (lineCount (hdrOffset header) (hdrLen header) = 1 ∧ segGood header 0 seg = true ∧ seg.poison = false ∧ hdrSignal header = false) ∧ (pa % 32 = 0 ∧ ∀ j ∈ List.range (hdrLen header), s.winPlace g (32 * j) true = some (pa + 32 * j) ∧ s.takesNow (pa + 32 * j) 32 = true) ∧ ((s.heldWrites.any fun w : HeldWrite => w.by_.msg == some s.fabric.landingNum) = false) :=
  ⟨withWin (withNet (vm [])), some 0, hdr State.reset 1 5 2 9, seg 0x112233#1024 5 2 0, 0, 0x500A0, by decide +kernel⟩

theorem witness_WindowMessagesAtTheTarget_3 : ∃ (s : State) (link : Option (Fin 16)) (header : Words4) (cause : Nat) (k : Nat),
    let die := hdrWindow header / 512
    (mtype header = 2 ∧ (s.fabric.ringWaits.any fun w : RingWait => w.before die link) = false ∧ s.refusal header = some cause) ∧ (srcPkg header ≠ s.ownPkg ∧ s.routeLink die (srcPkg header) = some k) :=
  ⟨withNet State.reset, some 0, hdr State.reset 2 0 4 9, 0, 0, by decide +kernel⟩

theorem witness_WindowMessagesAtTheTarget_4 : ∃ (s : State) (link : Option (Fin 16)) (header : Words4) (k : Nat) (ls : List LineSeg),
    let die := hdrWindow header / 512
    let n := lineCount (hdrOffset header) (hdrLen header)
    let g : Landing := { num := s.fabric.landingNum, die := die, entry := hdrWindow header % 512, header := header, get := true, link := link, left := List.range n }
    (mtype header = 2 ∧ (s.fabric.ringWaits.any fun w : RingWait => w.before die link) = false ∧ s.refusal header = none) ∧ (srcPkg header ≠ s.ownPkg ∧ s.routeLink die (srcPkg header) = some k ∧ s.fabric.landings = []) ∧ (s.getHeld g = false ∧ (s.readLines g (List.range n)).2 = (ls, 0)) :=
  ⟨withWin (withNet (vm [])), some 0, hdr State.reset 2 5 2 9, 0, ((withWin (withNet (vm []))).readLines { num := 0, die := 0, entry := 3, header := hdr State.reset 2 5 2 9, get := true, link := some 0, left := [0] } [0]).2.1, by decide +kernel⟩

theorem witness_WindowMessagesAtTheTarget_5 : ∃ (s : State) (die : Fin 2) (w : RingWait),
    let e := hdrWindow w.header % 512
    let ring := s.winStage die.val e
    let slot := (s.epochRec die.val e).ringPuts % ring.nslots
    (s.fabric.ringWaits = [w] ∧ w.die = die.val ∧ hdrWindow w.header / 512 = die.val ∧ w.lines = [] ∧ s.refusal w.header = none) ∧ (mtype w.header = 1 ∧ s.winRing die.val e = true ∧ s.headEmpty ring slot = true ∧ (s.tokenTable ring.ringAddr).isSome = true ∧ s.fabric.landings = []) :=
  ⟨{ ((withWin State.reset).setFld winEntryW1Kind 0 3 1).setFld winEntryW0Base 0 3 0x8100000000 with fabric := { ringWaits := [⟨0, none, hdr State.reset 1 0 4 9, []⟩] } }, 0, ⟨0, none, hdr State.reset 1 0 4 9, []⟩, by decide +kernel⟩

theorem witness_WindowMessagesAtTheTarget_6 : ∃ (s : State) (tag : BitVec 16) (pkg : BitVec 12) (ms : BitVec 32) (g : Landing),
    (s.dnat dkMsgResponseLimit ≤ ms.toNat ∧ s.fabric.landings = [g] ∧ g.get = false ∧ g.left ≠ [] ∧ g.slot = none) ∧ (hdrTag g.header = tag.toNat ∧ srcPkg g.header = pkg.toNat ∧ g.status = 0 ∧ (s.heldWrites.any fun w : HeldWrite => w.by_.msg == some g.num) = false) :=
  ⟨{ State.reset with fabric := { landings := [{ num := 0, die := 0, entry := 3, header := hdr State.reset 1 0 4 9, get := false, left := [0] }] } }, 9#16, 5#12, BitVec.allOnes 32, { num := 0, die := 0, entry := 3, header := hdr State.reset 1 0 4 9, get := false, left := [0] }, by decide +kernel⟩

theorem witness_ResponsesAtTheOrigin_1 : ∃ (s : State) (header : Words4) (seg : LineSeg) (m : OriginMsg) (ref : ChainRef) (c : Chain),
    (mtype header = 3 ∧ (s.sentMsgs.find? fun m : OriginMsg => m.num == hdrTag header && m.get) = some m ∧ (s.sentMsgs.find? fun m : OriginMsg => m.num == hdrTag header) = some m) ∧ (lineCount (hdrOffset header) (hdrLen header) = 1 ∧ segGood header 0 seg = true ∧ seg.poison = false ∧ hdrStatus header = 0 ∧ m.aborted = false) ∧ (m.offset % 32 + m.length ≤ 32 * hdrLen header ∧ m.chain = some ref ∧ s.findChain ref = some c ∧ (c.stopped || c.waiting) = true) :=
  ⟨{ State.reset with chains := [{ chainF with waiting := true }], sentMsgs := [{ msg0 with get := true, offset := 165, length := 9, dest := 0x70000, chain := some chainF.ref }] }, hdr State.reset 3 5 2 7, seg (0x112233445566778899AABB <<< 260) 5 2 0, { msg0 with get := true, offset := 165, length := 9, dest := 0x70000, chain := some chainF.ref }, chainF.ref, { chainF with waiting := true }, by decide +kernel⟩

theorem witness_ResponsesAtTheOrigin_2 : ∃ (s : State) (header : Words4) (lines : List LineTries) (m : OriginMsg),
    (mtype header = 3 ∧ (s.sentMsgs.find? fun m : OriginMsg => m.num == hdrTag header && m.get) = some m ∧ (s.sentMsgs.find? fun m : OriginMsg => m.num == hdrTag header) = some m) ∧ (((List.range (lineCount (hdrOffset header) (hdrLen header))).all fun i : Nat => (lineTries (s.dnat dkLineCrcRetry) (segGood header i) 0 (lines.getD i [])).1.isSome) = true ∧ m.chain = none) :=
  ⟨{ State.reset with sentMsgs := [{ msg0 with get := true, offset := 165, length := 9, dest := 0x70000 }] }, hdr State.reset 3 5 2 7, [[seg 5 5 2 0]], { msg0 with get := true, offset := 165, length := 9, dest := 0x70000 }, by decide +kernel⟩

theorem witness_ResponsesAtTheOrigin_3 : ∃ (s : State) (header : Words4),
    (mtype header = 4 ∧ (s.sentMsgs.any fun m : OriginMsg => m.num == hdrTag header) = true) :=
  ⟨{ State.reset with sentMsgs := [msg0] }, hdr State.reset 4 0 1 7, by decide +kernel⟩

theorem witness_ResponsesAtTheOrigin_4 : ∃ (s : State) (header : Words4),
    (mtype header = 4 ∧ (s.sentMsgs.any fun m : OriginMsg => m.num == hdrTag header) = false) :=
  ⟨State.reset, hdr State.reset 4 0 1 7, by decide +kernel⟩

theorem witness_ResponsesAtTheOrigin_5 : ∃ (s : State) (header : Words4) (m : OriginMsg),
    (mtype header = 6 ∧ (s.sentMsgs.find? fun m : OriginMsg => m.num == hdrTag header) = some m ∧ hdrStatus header = 0 ∧ m.aborted = false) :=
  ⟨{ State.reset with sentMsgs := [msg0] }, hdr State.reset 6 0 1 7, msg0, by decide +kernel⟩

theorem witness_ResponsesAtTheOrigin_6 : ∃ (s : State) (header : Words4) (m : OriginMsg) (ref : ChainRef) (c : Chain),
    (mtype header = 5 ∧ (s.sentMsgs.find? fun m : OriginMsg => m.num == hdrTag header) = some m ∧ m.aborted = false) ∧ (m.chain = some ref ∧ s.findChain ref = some c ∧ c.aborting = none ∧ (s.chains.filter fun d : Chain => d.launch == c.launch) = [c] ∧ s.fld cluChainLogValid c.cluster = 0) :=
  ⟨{ State.reset with sentMsgs := [{ msg0 with chain := some chain0.ref }], chains := [chain0] }, hdr State.reset 5 0 1 7, { msg0 with chain := some chain0.ref }, chain0.ref, chain0, by decide +kernel⟩

theorem witness_ResponsesAtTheOrigin_7 : ∃ (s : State) (header : Words4) (m : OriginMsg) (ref : ChainRef) (c : Chain),
    (mtype header = 8 ∧ (s.sentMsgs.find? fun m : OriginMsg => m.num == hdrTag header) = some m) ∧ (m.chain = some ref ∧ s.findChain ref = some c ∧ c.aborting = none ∧ (s.chains.filter fun d : Chain => d.launch == c.launch) = [c] ∧ s.fld cluChainLogValid c.cluster = 0) :=
  ⟨{ State.reset with sentMsgs := [{ msg0 with chain := some chain0.ref }], chains := [chain0] }, hdr State.reset 8 0 1 7, { msg0 with chain := some chain0.ref }, chain0.ref, chain0, by decide +kernel⟩

theorem witness_ResponsesAtTheOrigin_8 : ∃ (s : State) (header : Words4) (m : OriginMsg) (l : LineSeg) (k : Nat),
    (mtype header = 7 ∧ (s.sentMsgs.find? fun m : OriginMsg => m.num == hdrTag header && !m.get) = some m) ∧ (m.putLines[hdrLine header]? = some l ∧ s.routeLink m.die m.pkg = some k) :=
  ⟨{ withNet State.reset with sentMsgs := [msg0] }, hdr State.reset 7 0 1 7, msg0, msg0.putLines.headD ⟨0, 0, false⟩, 0, by decide +kernel⟩

theorem witness_ResponsesAtTheOrigin_9 : ∃ (s : State) (tag : BitVec 16) (ms : BitVec 32) (m : OriginMsg) (ref : ChainRef) (c : Chain),
    (s.dnat dkMsgResponseLimit ≤ ms.toNat ∧ (s.sentMsgs.find? fun m : OriginMsg => m.num == tag.toNat) = some m ∧ m.sent = true) ∧ (m.chain = some ref ∧ s.findChain ref = some c ∧ c.aborting = none ∧ (s.chains.filter fun d : Chain => d.launch == c.launch) = [c] ∧ s.fld cluChainLogValid c.cluster = 0) :=
  ⟨{ State.reset with sentMsgs := [{ msg0 with sent := true, chain := some chain0.ref }], chains := [chain0] }, 7#16, BitVec.allOnes 32, { msg0 with sent := true, chain := some chain0.ref }, chain0.ref, chain0, by decide +kernel⟩

theorem witness_ResponsesAtTheOrigin_10 : ∃ (s : State) (header : Words4) (k : Nat) (pa : Nat),
    let die := hdrWindow header / 512
    let e := hdrWindow header % 512
    let g : Landing := { num := 0, die := die, entry := e, header := header, get := true }
    (mtype header = 9 ∧ s.winState die e = 1 ∧ hdrEpoch header = s.winEpoch die e ∧ s.winPlace g 0 false = some pa) ∧ ((s.frame (pa / 65536)).stamp = bitsOf header.w3 32 32 ∧ s.sectorSound pa = true ∧ srcPkg header ≠ s.ownPkg ∧ s.routeLink die (srcPkg header) = some k) :=
  ⟨withWin (withNet (vm [])), hdr State.reset 9 5 1 9, 0, 0x500A0, by decide +kernel⟩

theorem witness_ResponsesAtTheOrigin_11 : ∃ (s : State) (header : Words4) (line : LineSeg) (r : Rebuild),
    (mtype header = 10 ∧ hdrStatus header = stOk ∧ segGood header 0 line = true ∧ line.poison = false ∧ s.noneTodo = true ∧ r.sector % 32 = 0) ∧ ((s.pool.rebuilds.find? fun r : Rebuild => r.pkg == some (srcPkg header) && r.counterpart == hdrOffset header) = some r) :=
  ⟨{ State.reset with pool := { rebuilds := [⟨0x90000, 5, some 5, []⟩] } }, hdr State.reset 10 5 1 9, seg (0xABCDEF <<< 256) 5 1 0, ⟨0x90000, 5, some 5, []⟩, by decide +kernel⟩

theorem witness_WindowsOpenCloseAndMessagesPassOn_1 : ∃ (s : State) (die : Fin 2) (value : Word),
    let e := bitsOf value 0 9
    (bitOf value 9 = false ∧ bitOf value 63 = true ∧ s.winState die.val e = 0) :=
  ⟨State.reset, 1, 0x8000000000000105#64, by decide +kernel⟩

theorem witness_WindowsOpenCloseAndMessagesPassOn_2 : ∃ (s : State) (die : Fin 2) (value : Word),
    let e := bitsOf value 0 9
    (bitOf value 9 = true ∧ bitOf value 63 = true ∧ s.winState die.val e = 1) :=
  ⟨{ withWin State.reset with fabric := { ringWaits := [⟨0, none, hdr State.reset 1 0 4 9, []⟩] } }, 0, 0x8000000000000203#64, by decide +kernel⟩

theorem witness_WindowsOpenCloseAndMessagesPassOn_3 : ∃ (s : State) (die : Fin 2) (entry : BitVec 9) (pa : Nat) (r : Bool) (o : Nat) (big : Bool),
    let e := entry.toNat
    let owner := s.winOwner die.val e
    (pa % 32 = 0 ∧ (s.heldWrites.any fun w : HeldWrite => w.by_.msg == some s.fabric.landingNum) = false) ∧ (s.winState die.val e = 2 ∧ (s.fabric.landings.any fun g : Landing => g.die == die.val && g.entry == e) = false) ∧ (s.xlat die.val owner (s.fld winEntryW3CloseRec die.val e * 64) = .page pa r true o big) ∧ (s.takesNow pa 32 = true) :=
  ⟨(((vm []).setFld winEntryW1State 0 3 2).setFld winEntryW3TokenEn 0 3 1).setFld winEntryW3CloseToken 0 3 77, 0, 3#9, 0x50000, true, 0, false, by decide +kernel⟩

theorem witness_WindowsOpenCloseAndMessagesPassOn_4 : ∃ (s : State) (die : Fin 2) (header : Words4) (k : Nat),
    (dstPkg header ≠ s.ownPkg ∧ s.routeLink die.val (dstPkg header) = some k ∧ hdrHops header + 1 ≤ s.dnat dkRouteHopLimit) :=
  ⟨withNet State.reset, 0, mkHeader 1 5 9 3 0 0 0 1 7 0 0 0, 0, by decide +kernel⟩

theorem witness_WindowsOpenCloseAndMessagesPassOn_5 : ∃ (s : State) (die : Fin 2) (m : HeldMsg) (k : Nat),
    (s.fabric.held = [m] ∧ m.die = die.val ∧ dstPkg m.header ≠ s.ownPkg ∧ s.routeLink die.val (dstPkg m.header) = some k ∧ m.forwarded = false) :=
  ⟨{ withNet State.reset with fabric := { held := [⟨0, 0, mkHeader 1 5 9 3 0 0 0 1 7 0 0 0, [], none, false⟩] } }, 0, ⟨0, 0, mkHeader 1 5 9 3 0 0 0 1 7 0 0 0, [], none, false⟩, 0, by decide +kernel⟩

theorem witness_CollectivesBegin_1 : ∃ (s : State) (cluster : Fin 24) (launch : BitVec 12) (image : CmdImage) (q : Seq),
    let cl := cluster.val
    let la := launch.toNat
    let c := (s.parseColl cl (s.recOr la) (s.imageWords cl (s.recOr la) q.next 8 image)).1
    ((s.chains.any fun d : Chain => d.cluster == cl && d.launch == la && !d.extra) = false ∧ s.collRuns cl la = false) ∧ (s.findSeq cl la = some q ∧ q.ended = false ∧ imageOpc (s.imageWords cl (s.recOr la) q.next 8 image) = 0xD) ∧ (c.op = 0 ∧ (s.groupOf c.die c.group).valid = true ∧ s.coll.early = [] ∧ s.readsQuiet = true) ∧ (2 ≤ c.degree ∧ s.collSourceOk c = true) :=
  ⟨collState, 0, 0#12, collImage 0 3, seq0, by decide +kernel⟩

theorem witness_CollectivesBegin_2 : ∃ (s : State) (cluster : Fin 24) (launch : BitVec 12) (image : CmdImage) (q : Seq),
    let cl := cluster.val
    let la := launch.toNat
    let c := (s.parseColl cl (s.recOr la) (s.imageWords cl (s.recOr la) q.next 8 image)).1
    ((s.chains.any fun d : Chain => d.cluster == cl && d.launch == la && !d.extra) = false ∧ s.collRuns cl la = false) ∧ (s.findSeq cl la = some q ∧ q.ended = false ∧ imageOpc (s.imageWords cl (s.recOr la) q.next 8 image) = 0xD) ∧ (c.op = 1 ∧ (s.groupOf c.die c.group).valid = true ∧ s.coll.early = [] ∧ s.readsQuiet = true) ∧ (2 ≤ c.degree ∧ s.collSourceOk c = true) :=
  ⟨collState, 0, 0#12, collImage 1 3, seq0, by decide +kernel⟩

theorem witness_CollectivesBegin_3 : ∃ (s : State) (cluster : Fin 24) (launch : BitVec 12) (image : CmdImage) (q : Seq),
    let cl := cluster.val
    let la := launch.toNat
    let c := (s.parseColl cl (s.recOr la) (s.imageWords cl (s.recOr la) q.next 8 image)).1
    ((s.chains.any fun d : Chain => d.cluster == cl && d.launch == la && !d.extra) = false ∧ s.collRuns cl la = false) ∧ (s.findSeq cl la = some q ∧ q.ended = false ∧ imageOpc (s.imageWords cl (s.recOr la) q.next 8 image) = 0xD) ∧ (c.op = 2 ∧ (s.groupOf c.die c.group).valid = true ∧ s.coll.early = [] ∧ s.readsQuiet = true) ∧ (2 ≤ c.degree ∧ s.collSourceOk c = true) :=
  ⟨collState, 0, 0#12, collImage 2 3, seq0, by decide +kernel⟩

theorem witness_CollectivesBegin_4 : ∃ (s : State) (cluster : Fin 24) (launch : BitVec 12) (image : CmdImage) (q : Seq),
    let cl := cluster.val
    let la := launch.toNat
    let c := (s.parseColl cl (s.recOr la) (s.imageWords cl (s.recOr la) q.next 8 image)).1
    ((s.chains.any fun d : Chain => d.cluster == cl && d.launch == la && !d.extra) = false ∧ s.collRuns cl la = false) ∧ (s.findSeq cl la = some q ∧ q.ended = false ∧ imageOpc (s.imageWords cl (s.recOr la) q.next 8 image) = 0xD) ∧ (c.op = 3 ∧ (s.groupOf c.die c.group).valid = true ∧ s.coll.early = [] ∧ s.readsQuiet = true) ∧ (2 ≤ c.degree ∧ s.collSourceOk c = true) :=
  ⟨collState, 0, 0#12, collImage 3 300, seq0, by decide +kernel⟩

theorem witness_CollectivesBegin_5 : ∃ (s : State) (cluster : Fin 24) (launch : BitVec 12) (image : CmdImage) (q : Seq),
    let cl := cluster.val
    let la := launch.toNat
    let c := (s.parseColl cl (s.recOr la) (s.imageWords cl (s.recOr la) q.next 8 image)).1
    ((s.chains.any fun d : Chain => d.cluster == cl && d.launch == la && !d.extra) = false ∧ s.collRuns cl la = false) ∧ (s.findSeq cl la = some q ∧ q.ended = false ∧ imageOpc (s.imageWords cl (s.recOr la) q.next 8 image) = 0xD) ∧ (c.op = 4 ∧ (s.groupOf c.die c.group).valid = true ∧ s.coll.early = [] ∧ s.readsQuiet = true) ∧ (((List.range c.elems).all fun k : Nat => (s.vLines c.die c.owner ((s.srcOf c).base + k * c.pieceLines * 128) c.pieceLines).all fun x : Option LineSeg => x.isSome) = true ∧ s.permTableHere c = true) :=
  ⟨collState, 0, 0#12, collImage 4 2, seq0, by decide +kernel⟩

theorem witness_CollectivesBegin_6 : ∃ (s : State) (cluster : Fin 24) (launch : BitVec 12) (image : CmdImage) (q : Seq),
    let cl := cluster.val
    let la := launch.toNat
    let c := (s.parseColl cl (s.recOr la) (s.imageWords cl (s.recOr la) q.next 8 image)).1
    ((s.chains.any fun d : Chain => d.cluster == cl && d.launch == la && !d.extra) = false ∧ s.collRuns cl la = false) ∧ (s.findSeq cl la = some q ∧ q.ended = false ∧ imageOpc (s.imageWords cl (s.recOr la) q.next 8 image) = 0xD) ∧ (c.op = 5 ∧ (s.groupOf c.die c.group).valid = true ∧ s.coll.early = [] ∧ s.readsQuiet = true) ∧ (2 ≤ c.degree ∧ c.rank = c.root ∧ s.collSourceOk c = true) :=
  ⟨collState, 0, 0#12, collImage 5 3, seq0, by decide +kernel⟩

theorem witness_CollectivesBegin_7 : ∃ (s : State) (cluster : Fin 24) (launch : BitVec 12) (image : CmdImage) (q : Seq),
    let cl := cluster.val
    let la := launch.toNat
    let c := (s.parseColl cl (s.recOr la) (s.imageWords cl (s.recOr la) q.next 8 image)).1
    let ls := s.vLines c.die c.owner (s.srcOf c).base c.elems
    ((s.chains.any fun d : Chain => d.cluster == cl && d.launch == la && !d.extra) = false ∧ s.collRuns cl la = false) ∧ (s.findSeq cl la = some q ∧ q.ended = false ∧ imageOpc (s.imageWords cl (s.recOr la) q.next 8 image) = 0xD) ∧ (c.op = 6 ∧ (s.groupOf c.die c.group).valid = true ∧ s.coll.early = [] ∧ s.readsQuiet = true) ∧ (2 ≤ c.degree ∧ (ls.all fun x : Option LineSeg => x.isSome) = true) :=
  ⟨collState, 0, 0#12, collImage 6 2, seq0, by decide +kernel⟩

theorem witness_CollectivesBegin_8 : ∃ (s : State) (cluster : Fin 24) (launch : BitVec 12) (image : CmdImage) (q : Seq),
    let cl := cluster.val
    let la := launch.toNat
    let c := (s.parseColl cl (s.recOr la) (s.imageWords cl (s.recOr la) q.next 8 image)).1
    ((s.chains.any fun d : Chain => d.cluster == cl && d.launch == la && !d.extra) = false ∧ s.collRuns cl la = false) ∧ (s.findSeq cl la = some q ∧ q.ended = false ∧ imageOpc (s.imageWords cl (s.recOr la) q.next 8 image) = 0xD) ∧ (c.op = 7 ∧ (s.groupOf c.die c.group).valid = true ∧ s.coll.early = [] ∧ s.readsQuiet = true) ∧ (bitOf (s.rd .collNfGate c.die) c.owner = false) :=
  ⟨collState, 0, 0#12, collImage 7 1, seq0, by decide +kernel⟩

theorem witness_CollectiveMessages_1 : ∃ (s : State) (header : Words4) (c : Coll) (i : Nat) (a : Nat) (b : Nat) (k : Nat),
    let die := collDstDie header
    (mtype header = 12 ∧ dstPkg header = s.ownPkg ∧ s.fld collGroupW0MemberGen die (collGroupId header) = collGen header ∧ s.opseqOpen die header = true) ∧ ((s.coll.running.find? fun x : Coll => x.die == die && x.group == collGroupId header && x.opseq == collOpseq header) = some c) ∧ (s.findColl c.cluster c.launch = some c ∧ s.coll.early = []) ∧ (c.reduces = true ∧ c.dataSent = true ∧ collPart header ≠ 3 ∧ collChunk header ≠ c.rank) ∧ ((piecesIn (c.part (collChunk header) (collPart header)).1 (c.part (collChunk header) (collPart header)).2 c.sumsPer)[collPiece header]? = some (i, a, b)) ∧ (((List.range 8).filter fun n : Nat => (if collPart header = 1 then (s.groupOf c.die c.group).up else (s.groupOf c.die c.group).down) / 2 ^ n % 2 == 1 && s.linkState (c.die * 8 + n) == 5) = [k]) :=
  ⟨running { coll0 0 300 with dataSent := true }, chdr 12 0 1 1 1 0, { coll0 0 300 with dataSent := true }, 0, 256, 288, 0, by decide +kernel⟩

theorem witness_CollectiveMessages_2 : ∃ (s : State) (header : Words4) (c : Coll) (i : Nat) (lo : Nat) (hi : Nat) (k : Nat),
    let die := collDstDie header
    (mtype header = 13 ∧ dstPkg header = s.ownPkg ∧ s.fld collGroupW0MemberGen die (collGroupId header) = collGen header ∧ s.opseqOpen die header = true) ∧ ((s.coll.running.find? fun x : Coll => x.die == die && x.group == collGroupId header && x.opseq == collOpseq header) = some c) ∧ (s.findColl c.cluster c.launch = some c ∧ s.coll.early = []) ∧ (collPart header ≠ 3 ∧ collChunk header ≠ c.rank) ∧ ((c.prePieces (collChunk header))[collPiece header]? = some (i, lo, hi)) ∧ (((List.range 8).filter fun k : Nat => (s.groupOf c.die c.group).up / 2 ^ k % 2 == 1 && s.linkState (c.die * 8 + k) == 5) = [k]) :=
  ⟨running { coll0 0 300 with exact := true }, chdr 13 0 1 1 0 0, { coll0 0 300 with exact := true }, 0, 1, 2, 0, by decide +kernel⟩

theorem witness_CollectiveMessages_3 : ∃ (s : State) (header : Words4) (c : Coll),
    let die := collDstDie header
    (mtype header = 14 ∧ dstPkg header = s.ownPkg ∧ s.fld collGroupW0MemberGen die (collGroupId header) = collGen header ∧ s.opseqOpen die header = true) ∧ ((s.coll.running.find? fun x : Coll => x.die == die && x.group == collGroupId header && x.opseq == collOpseq header) = some c) ∧ (s.findColl c.cluster c.launch = some c ∧ s.coll.early = []) ∧ (c.op = 6 ∧ c.draining = false ∧ collPart header = 0) :=
  ⟨running (coll0 6 2), chdr 14 0 1 1 0 0, coll0 6 2, by decide +kernel⟩

theorem witness_CollectiveMessages_4 : ∃ (s : State) (header : Words4) (c : Coll),
    (mtype header = 15 ∧ dstPkg header = s.ownPkg ∧ s.fld collGroupW0MemberGen c.die (collGroupId header) = collGen header) ∧ (s.coll.running = [c] ∧ c.stop = false ∧ c.late = false ∧ s.committed c = false ∧ failureCode (collStatus header) = true ∧ c.die = collDstDie header ∧ c.group = collGroupId header ∧ c.opseq = collOpseq header) :=
  ⟨running { coll0 0 300 with need := 3 }, chdr 15 0 0 0 0 stAborted, { coll0 0 300 with need := 3 }, by decide +kernel⟩

theorem witness_CollectiveMessages_5 : ∃ (s : State) (header : Words4),
    let die := collDstDie header
    (mtype header = 12 ∧ dstPkg header = s.ownPkg ∧ s.fld collGroupW0MemberGen die (collGroupId header) ≠ collGen header) :=
  ⟨(running (coll0 0 300)).setFld collGroupW0MemberGen 0 0 9, chdr 12 0 0 0 0 0, by decide +kernel⟩

theorem witness_CollectiveMessages_6 : ∃ (s : State) (header : Words4),
    let die := collDstDie header
    (mtype header = 13 ∧ dstPkg header = s.ownPkg ∧ s.fld collGroupW0MemberGen die (collGroupId header) ≠ collGen header) :=
  ⟨(running (coll0 0 300)).setFld collGroupW0MemberGen 0 0 9, chdr 13 0 0 0 0 0, by decide +kernel⟩

theorem witness_CollectiveMessages_7 : ∃ (s : State) (header : Words4),
    let die := collDstDie header
    (mtype header = 14 ∧ dstPkg header = s.ownPkg ∧ s.fld collGroupW0MemberGen die (collGroupId header) ≠ collGen header) :=
  ⟨(running (coll0 0 300)).setFld collGroupW0MemberGen 0 0 9, chdr 14 0 0 0 0 0, by decide +kernel⟩

theorem witness_CollectivesStepEndAndRegroup_1 : ∃ (s : State) (cluster : Fin 24) (launch : BitVec 12) (c : Coll),
    (s.findColl cluster.val launch.toNat = some c ∧ c.op = 6 ∧ c.draining = false ∧ c.stop = false ∧ c.stepWhole = true ∧ s.collWriting c = false ∧ s.coll.early = []) :=
  ⟨running (coll0 6 2), 0, 0#12, coll0 6 2, by decide +kernel⟩

theorem witness_CollectivesStepEndAndRegroup_2 : ∃ (s : State) (cluster : Fin 24) (launch : BitVec 12) (c : Coll),
    (s.findColl cluster.val launch.toNat = some c ∧ c.op = 6 ∧ c.draining = false ∧ c.stop = true) :=
  ⟨running { coll0 6 2 with stop := true }, 0, 0#12, { coll0 6 2 with stop := true }, by decide +kernel⟩

theorem witness_CollectivesStepEndAndRegroup_3 : ∃ (s : State) (cluster : Fin 24) (launch : BitVec 12) (c : Coll) (q : Seq),
    (s.coll.running = [c] ∧ c.cluster = cluster.val ∧ c.launch = launch.toNat ∧ c.whole = true ∧ c.poison = false ∧ c.late = false ∧ s.collWriting c = false) ∧ (s.findSeq cluster.val launch.toNat = some q ∧ (c.reduces && c.nfGate && c.nf) = false) :=
  ⟨running (coll0 0 300), 0, 0#12, coll0 0 300, seq0, by decide +kernel⟩

theorem witness_CollectivesStepEndAndRegroup_4 : ∃ (s : State) (cluster : Fin 24) (launch : BitVec 12) (c : Coll),
    (s.coll.running = [c] ∧ c.cluster = cluster.val ∧ c.launch = launch.toNat ∧ c.whole = true ∧ c.poison = false ∧ c.late = false ∧ s.collWriting c = false) ∧ (c.reduces = true ∧ c.nfGate = true ∧ c.nf = true ∧ c.owner < 64 ∧ c.die < 2) :=
  ⟨running { coll0 0 300 with nfGate := true, nf := true }, 0, 0#12, { coll0 0 300 with nfGate := true, nf := true }, by decide +kernel⟩

theorem witness_CollectivesStepEndAndRegroup_5 : ∃ (s : State) (cluster : Fin 24) (launch : BitVec 12) (ms : BitVec 32) (c : Coll),
    (s.coll.running = [c] ∧ c.cluster = cluster.val ∧ c.launch = launch.toNat ∧ c.whole = false ∧ c.stop = false ∧ s.committed c = false ∧ s.dnat dkCollPeerLimit ≤ ms.toNat) :=
  ⟨running { coll0 0 300 with need := 3 }, 0, 0#12, BitVec.allOnes 32, { coll0 0 300 with need := 3 }, by decide +kernel⟩

theorem witness_CollectivesStepEndAndRegroup_6 : ∃ (s : State) (die : Fin 2) (group : BitVec 8),
    ((s.coll.running.any fun c : Coll => c.die == die.val && c.group == group.toNat) = false) :=
  ⟨running (coll0 0 300), 1, 3#8, by decide +kernel⟩

theorem witness_CollectivesStepEndAndRegroup_7 : ∃ (s : State) (die : Fin 2) (group : BitVec 8),
    ((s.coll.running.any fun c : Coll => c.die == die.val && c.group == group.toNat) = false) :=
  ⟨running (coll0 0 300), 1, 3#8, by decide +kernel⟩

theorem witness_CollectivesStepEndAndRegroup_8 : ∃ (s : State) (die : Fin 2) (value : Word),
    (bitOf value 63 = true ∧ (s.coll.running.any fun c : Coll => c.die == die.val && c.group == bitsOf value 0 8) = false) :=
  ⟨running (coll0 0 300), 1, 0x8000000012340003#64, by decide +kernel⟩

theorem witness_TokensAreSetAndCleared_1 : ∃ (value : Word),
    (bitOf value 63 = true) :=
  ⟨0x8000000000000FFF#64, by decide +kernel⟩

theorem witness_TokensAreSetAndCleared_2 : ∃ (value : Word),
    (bitOf value 63 = true) :=
  ⟨0x8000000000000FFF#64, by decide +kernel⟩

theorem witness_BeamMarksAndFlashes_1 : ∃ (s : State),
    (s.beamState ≠ 0) :=
  ⟨{ State.reset.setBeamState 5 with cyc := 77 }, by decide +kernel⟩

theorem witness_BeamMarksAndFlashes_2 : ∃ (s : State) (r : RecInst),
    (s.beamState ≠ 0 ∧ s.beam.touched = [] ∧ s.beam.recs = [r] ∧ s.recState r.index = 1 ∧ r.now = false ∧ r.kind = 0) ∧ (s.beam.counter.toNat + flashUnits < 2 ^ 96) ∧ (r.beamTime ≤ (s.beam.counter.toNat / flashUnits + 1) * 2 ^ 20) :=
  ⟨(withRec 1 { rec0 with beamTime := 5 }).setBeamState 5, { rec0 with beamTime := 5 }, by decide +kernel⟩

theorem witness_BeamMarksAndFlashes_3 : ∃ (s : State) (index : BitVec 12) (r : RecInst),
    (s.beam.touched = [] ∧ s.findRec index.toNat = some r ∧ r.now = true ∧ s.recState r.index = 1) :=
  ⟨withRec 1 { rec0 with now := true }, 3#12, { rec0 with now := true }, by decide +kernel⟩

theorem witness_BeamMarksAndFlashes_4 : ∃ (s : State) (link : Fin 16),
    (s.beamState = 5 ∨ s.beamState = 2) ∧ (s.dnat dkBeamDownLinks / 2 ^ link.val % 2 = 1 ∧ s.linkState link.val = 5) :=
  ⟨((link0 5 {}).setBeamState 5).dput dkBeamDownLinks 1, 0, by decide +kernel⟩

theorem witness_BeamMarksAndFlashes_5 : ∃ (s : State) (link : Fin 16) (flit : FlitIn),
    let m := parseMark (flitPayload flit.bits)
    let err := (s.trueBeam link.val m : Int) - s.beam.counter.toNat
    (s.transmits link.val = true ∧ flitGood flit = true ∧ bitsOf (flitHead flit.bits) 0 2 = 2 ∧ (flitPayload flit.bits).headD 0#8 = 0x10#8) ∧ (s.beamState = 2 ∧ s.foreignMark m = false ∧ s.dnat dkBeamSourceLink = link.val) ∧ (-10000 ≤ errorTenths err m.period ∧ errorTenths err m.period ≤ 10000) :=
  ⟨((link0 5 {}).setBeamState 2).dput dkBeamSourceLink 0, 0, ctrlFlit (({ beam := 0, frac := 5, period := 1000000, lead := 9, gen := 3, hops := 1, sync := true } : Mark).bytes), by decide +kernel⟩

theorem witness_BeamMarksAndFlashes_6 : ∃ (s : State) (link : Fin 16) (flit : FlitIn),
    let m := parseMark (flitPayload flit.bits)
    (s.transmits link.val = true ∧ flitGood flit = true ∧ bitsOf (flitHead flit.bits) 0 2 = 2 ∧ (flitPayload flit.bits).headD 0#8 = 0x10#8) ∧ (s.beamState ≠ 5 ∧ s.foreignMark m = true) :=
  ⟨link0 5 {}, 0, ctrlFlit (({ beam := 0, frac := 5, period := 1000000, lead := 9, gen := 3, hops := 17, sync := true } : Mark).bytes), by decide +kernel⟩

theorem witness_BeamMarksAndFlashes_7 : ∃ (s : State) (link : Fin 16) (flit : FlitIn),
    let m := parseMark (flitPayload flit.bits)
    (s.transmits link.val = true ∧ flitGood flit = true ∧ bitsOf (flitHead flit.bits) 0 2 = 2 ∧ (flitPayload flit.bits).headD 0#8 = 0x10#8) ∧ (s.beamState = 1 ∧ s.foreignMark m = false ∧ s.dnat dkBeamSourceLink = link.val ∧ m.sync = true ∧ 7 ≤ s.beam.syncRun) ∧ (s.trueBeam link.val m = s.beam.counter.toNat) :=
  ⟨{ ((link0 5 {}).setBeamState 1).dput dkBeamSourceLink 0 with beam := { counter := 5#96, syncRun := 7 } }, 0, ctrlFlit (({ beam := 0, frac := 5, period := 1000000, lead := 9, gen := 3, hops := 1, sync := true } : Mark).bytes), by decide +kernel⟩

theorem witness_BeamMarksAndFlashes_8 : ∃ (s : State),
    (s.beamState = 2) :=
  ⟨State.reset.setBeamState 2, by decide +kernel⟩

theorem witness_BeamMarksAndFlashes_9 : ∃ (s : State) (ms : BitVec 32),
    (s.beamState = 3 ∧ s.dnat dkBeamHoldoverLimit ≤ ms.toNat ∧ s.beam.coarse = true) :=
  ⟨{ State.reset.setBeamState 3 with beam := { coarse := true } }, BitVec.allOnes 32, by decide +kernel⟩

theorem witness_RecordsArmLaunchAndEnd_1 : ∃ (s : State) (index : BitVec 12) (second : Words4),
    let pa := s.recAddr index.toNat
    (s.beam.touched = [] ∧ s.recState index.toNat = 0 ∧ bitOf second.w3 0 = true) ∧ (s.takesNow pa 64 = true) :=
  ⟨State.reset.setFld beamTableBase 0 0 1, 4095#12, ⟨5#64, 6#64, 7#64, 1#64⟩, by decide +kernel⟩

theorem witness_RecordsArmLaunchAndEnd_2 : ∃ (s : State) (index : BitVec 12) (second : Words4),
    let pa := s.recAddr index.toNat
    (s.beam.touched = [] ∧ s.recState index.toNat = 0 ∧ bitOf second.w3 0 = true) ∧ (s.takesNow pa 64 = true) :=
  ⟨State.reset.setFld beamTableBase 0 0 1, 4095#12, ⟨5#64, 6#64, 7#64, 1#64⟩, by decide +kernel⟩

theorem witness_RecordsArmLaunchAndEnd_3 : ∃ (s : State) (index : BitVec 12) (r : RecInst),
    (s.beam.touched = [] ∧ s.findRec index.toNat = some r ∧ s.recReady r = true) ∧ ((s.beam.recs.any fun q : RecInst => s.orderedBefore q.index r.index && s.recReady q) = false) :=
  ⟨{ (onVm (withRec 2 rec0)).setBeamState 2 with mem := (vm [(0, 5#64)]).mem }, 3#12, rec0, by decide +kernel⟩

theorem witness_RecordsArmLaunchAndEnd_4 : ∃ (s : State) (index : BitVec 12) (r : RecInst) (pa : Nat) (rd : Bool) (o : Nat) (big : Bool),
    let r' := s.closeRecord r
    let n := s.cringSize r'.owner
    let prod := s.fld beamCringIdxProd 0 r'.owner
    (s.beam.touched = [] ∧ s.findRec index.toNat = some r ∧ r.kind = 0 ∧ (s.recState r.index = 3 ∨ s.recState r.index = 4) ∧ s.recOver r.index = true) ∧ (s.cringFull r'.owner = false ∧ n ≠ 0 ∧ r'.owner < 64) ∧ (s.xlat (s.recDie r') r'.owner (s.fld beamCringBaseBase 0 r'.owner * 32 + prod % n * 32) = .page pa rd true o big) ∧ (s.takesNow pa 32 = true ∧ s.beam.posted = [] ∧ (s.heldWrites.any fun x : HeldWrite => x.by_.msg == some s.fabric.landingNum) = false ∧ (pa + 32 ≤ s.recAddr r.index ∨ s.recAddr r.index + 64 ≤ pa)) :=
  ⟨withRing (onVm (withRec 3 rec0)), 3#12, rec0, 0x50000, true, 0, false, by decide +kernel⟩

theorem witness_RecordsArmLaunchAndEnd_5 : ∃ (s : State) (q : QuietWindow) (r : RecInst) (pa : Nat) (rd : Bool) (o : Nat) (big : Bool),
    let r' := { r with commitBeam := s.beamNow }
    let n := s.cringSize r'.owner
    let prod := s.fld beamCringIdxProd 0 r'.owner
    (s.beam.quiet = some q ∧ q.left = 0 ∧ s.beam.recs = [r] ∧ r.index = q.launch ∧ r.kind = 1) ∧ (s.cringFull r'.owner = false ∧ n ≠ 0 ∧ r'.owner < 64) ∧ (s.xlat (s.recDie r') r'.owner (s.fld beamCringBaseBase 0 r'.owner * 32 + prod % n * 32) = .page pa rd true o big) ∧ (s.takesNow pa 32 = true ∧ s.beam.posted = [] ∧ (s.heldWrites.any fun x : HeldWrite => x.by_.msg == some s.fabric.landingNum) = false ∧ (pa + 32 ≤ s.recAddr r.index ∨ s.recAddr r.index + 64 ≤ pa)) :=
  ⟨{ withRing (onVm (withRec 3 { rec0 with kind := 1 })) with beam := { recs := [{ rec0 with kind := 1 }], quiet := some ⟨3, 0⟩ } }, ⟨3, 0⟩, { rec0 with kind := 1 }, 0x50000, true, 0, false, by decide +kernel⟩

theorem witness_RecordsArmLaunchAndEnd_6 : ∃ (s : State) (owner : BitVec 6) (cons : BitVec 32) (w : DoneWait) (pa : Nat) (rd : Bool) (o : Nat) (big : Bool),
    let n := s.cringSize owner.toNat
    let prod := s.fld beamCringIdxProd 0 owner.toNat
    (s.beam.touched = [] ∧ s.beam.doneWait = [w] ∧ w.owner = owner.toNat ∧ w.launch = none ∧ w.words.length = 4) ∧ (n ≠ 0 ∧ (prod + 2 ^ 32 - cons.toNat) % 2 ^ 32 < n) ∧ (s.xlat 0 owner.toNat (s.fld beamCringBaseBase 0 owner.toNat * 32 + prod % n * 32) = .page pa rd true o big) ∧ (s.takesNow pa 32 = true ∧ s.beam.posted = [] ∧ (s.heldWrites.any fun x : HeldWrite => x.by_.msg == some s.fabric.landingNum) = false) :=
  ⟨{ withRing (onVm State.reset) with beam := { doneWait := [⟨0, none, [1#64, 2#64, 3#64, 4#64]⟩] } }, 0#6, 0#32, ⟨0, none, [1#64, 2#64, 3#64, 4#64]⟩, 0x50000, true, 0, false, by decide +kernel⟩

theorem witness_PreemptionAndAborts_1 : ∃ (s : State) (e : EngId) (task : Fin 4) (c : Chain) (k : Nat) (g : Stage) (r : RecInst),
    (EngineOpen s (EngIdIdx e) task.val ∧ (s.eng (EngIdIdx e)).preempt.contains task.val = true) ∧ (s.chainOfTask (EngIdIdx e) task.val = some (c, k) ∧ c.stages[k]? = some g ∧ c.aborting = none ∧ c.stopped = false) ∧ (s.findRec c.launch = some r) :=
  ⟨{ withRec 3 rec0 with engines := [(0, { preempt := [0] })], chains := [{ chain0 with launch := 3 }] }, 0#7, 0, { chain0 with launch := 3 }, 0, stage0, rec0, by decide +kernel⟩

theorem witness_PreemptionAndAborts_2 : ∃ (s : State) (e : EngId) (task : Fin 4) (x : SavedTask) (c : Chain),
    let head : List Nat := [x.launch % 4096 + engPacked (EngIdIdx e) % 128 * 2 ^ 12 + x.task % 4 * 2 ^ 19 + x.stage % 8 * 2 ^ 21 + x.item % 2 ^ 24 * 2 ^ 32, s.beamNow, rangeBytes x.ranges % 2 ^ 32, 0, 0, 0, 0, 0]
    let s1 := s.readRuns (x.access c.owner) (s.slotRanges x)
    let p := s1.vPut (cluDie c.cluster) (x.access c.owner) x.saveAt (head.flatMap fun w : Nat => bytesOf w 8)
    let q := p.st.saveRanges x (cluDie c.cluster) c.owner (x.saveAt + 64) x.ranges
    ((s.beam.saved.find? fun y : SavedTask => y.engine == EngIdIdx e && y.task == task.val && !y.done) = some x) ∧ (s.findChain x.chain = some c ∧ (s.chains.any fun d : Chain => d.waiting) = false ∧ p.fault = false ∧ q.2 = false ∧ s.badCheck = []) :=
  ⟨{ (onVm State.reset).setFld engTaskStateState 0 1 3 with chains := [{ chain0 with cluster := 0 }], beam := { saved := [{ launch := 0, engine := 0, task := 1, chain := chain0.ref, stage := 0, item := 0, slot := 0, ranges := [(0, 5, 2)] }] } }, 0#7, 1, { launch := 0, engine := 0, task := 1, chain := chain0.ref, stage := 0, item := 0, slot := 0, ranges := [(0, 5, 2)] }, { chain0 with cluster := 0 }, by decide +kernel⟩

theorem witness_PreemptionAndAborts_3 : ∃ (s : State) (e : EngId) (task : Fin 4) (x : SavedTask) (c : Chain) (g : Stage),
    let die := cluDie c.cluster
    let runs := cutPages (rangeBytes x.ranges / 65536 + 2) (x.saveAt + 64) (rangeBytes x.ranges)
    let s1 := s.readRuns (x.access c.owner) (s.localRuns die c.owner runs)
    (s.nextRestore (EngIdIdx e) task.val = some x ∧ s.findChain x.chain = some c ∧ c.stages[x.stage]? = some g) ∧ (s.taskState (EngIdIdx e) task.val = 0 ∧ engIndex g.engine = EngIdIdx e ∧ g.task = task.val) ∧ ((s.localRuns die c.owner runs).length = runs.length ∧ s.runsHeld (s.localRuns die c.owner runs) = false ∧ s.stageWriting c x.stage = false) ∧ (s1.poisonedAt die c.owner [] runs = []) :=
  ⟨{ onVm State.reset with chains := [{ chain0 with stages := [{ stage0 with away := true }] }], beam := { saved := [{ launch := 0, engine := 0, task := 0, chain := chain0.ref, stage := 0, item := 0, slot := 0, ranges := [(0, 5, 2)], done := true }] } }, 0#7, 0, { launch := 0, engine := 0, task := 0, chain := chain0.ref, stage := 0, item := 0, slot := 0, ranges := [(0, 5, 2)], done := true }, { chain0 with stages := [{ stage0 with away := true }] }, { stage0 with away := true }, by decide +kernel⟩

theorem witness_PreemptionAndAborts_4 : ∃ (s : State) (value : Word) (r : RecInst),
    (s.beam.touched = [] ∧ bitOf value 63 = true ∧ s.findRec (bitsOf value 0 12) = some r) ∧ (s.recState (bitsOf value 0 12) = 1 ∧ s.cringSize r.owner = 0 ∧ s.recValid r.index = false) :=
  ⟨withRec 1 { rec0 with failSig := true, sig := [7] }, 0x8000000000000003#64, { rec0 with failSig := true, sig := [7] }, by decide +kernel⟩

theorem witness_PreemptionAndAborts_5 : ∃ (s : State) (value : Word),
    (s.beam.touched = [] ∧ bitOf value 63 = true ∧ s.findRec (bitsOf value 0 12) = none) :=
  ⟨State.reset, 0x8000000000000003#64, by decide +kernel⟩

theorem witness_PreemptionAndAborts_6 : ∃ (s : State) (value : Word) (r : RecInst) (c : Chain),
    (s.beam.touched = [] ∧ bitOf value 63 = true ∧ s.findRec (bitsOf value 0 12) = some r ∧ r.kind = 0) ∧ (s.recState (bitsOf value 0 12) = 3 ∧ s.chains = [c] ∧ c.launch = r.index ∧ c.completion ≠ 2) ∧ ((c.stages.any fun g : Stage => g.tileOpen) = false ∧ s.fld cluChainLogValid c.cluster = 0) :=
  ⟨{ withRec 3 rec0 with chains := [{ chain0 with launch := 3 }] }, 0x8000000000000003#64, rec0, { chain0 with launch := 3 }, by decide +kernel⟩

theorem witness_PreemptionAndAborts_7 : ∃ (s : State) (value : Word) (r : RecInst),
    (s.beam.touched = [] ∧ bitOf value 63 = true ∧ s.beam.recs = [r] ∧ r.owner = bitsOf value 12 6) ∧ (s.recState r.index = 1 ∧ s.cringSize r.owner = 0 ∧ s.recValid r.index = false) :=
  ⟨withRec 1 { rec0 with owner := 9 }, 0x8000000000009000#64, { rec0 with owner := 9 }, by decide +kernel⟩

theorem witness_DaymarksCaptureAndRestore_1 : ∃ (s : State) (index : BitVec 12) (r : RecInst),
    let sq := (s.dnat (dkDaymarkSeq r.owner) + 1) % 2 ^ 32
    let ps := (s.dmList r).1
    let d : Daymark := { launch := index.toNat, owner := r.owner, stepRev := r.stepRev, seq := sq, image := r.saveArea / 65536 * 65536 + sq % r.dmImages * r.dmStride, effect := s.beamNow, pages := ps }
    (s.findRec index.toNat = some r ∧ r.kind = 2 ∧ s.recState index.toNat = 2 ∧ r.wait.all s.tokenSet = true) ∧ (s.dmRefused r d = false ∧ s.dmOverlaps d = false ∧ (s.daymarks.any fun x => x.launch == index.toNat) = false ∧ s.pool.moves = []) :=
  ⟨liveD, 3#12, recD, by decide +kernel⟩

theorem witness_DaymarksCaptureAndRestore_2 : ∃ (s : State) (die : Fin 2) (c : DmCopy) (d : Daymark) (p : DmPage) (frame : Nat),
    (s.copying.find? (fun x => x.die == die.val) = some c ∧ s.daymarks.find? (fun x => x.launch == c.launch) = some d) ∧ (d.pages[c.page]? = some p ∧ s.dmFrame d.owner p.vpage = some frame ∧ s.dmHeldUp frame = false) :=
  ⟨runD dayD, 0, { die := 0, launch := 3, page := 0, touch := false }, dayD, { vpage := 1, cls := 0 }, 6, by decide +kernel⟩

theorem witness_DaymarksCaptureAndRestore_3 : ∃ (s : State) (d : Daymark) (k : Nat) (frame : Nat) (pa : Nat) (owner : Nat) (big : Bool),
    (s.dmPlace d.owner (d.image + d.manifestBytes + k * 65536) = some (pa, owner, big)) ∧ (s.takesNow pa 65536 = true ∧ s.noneQueued (frame * 65536) 65536 = true) :=
  ⟨runD dayD, dayD, 0, 6, 0x80000, 0, false, by decide +kernel⟩

theorem witness_DaymarksCaptureAndRestore_4 : ∃ (s : State) (index : BitVec 12) (d : Daymark) (r : RecInst),
    (s.daymarks.find? (fun x => x.launch == index.toNat) = some d ∧ s.findRec index.toNat = some r) ∧ ((d.pages.all fun p => p.copied && !p.poisoned) = true ∧ s.pool.moves = []) :=
  ⟨runD { dayD with pages := [{ vpage := 1, cls := 0, copied := true }] }, 3#12, { dayD with pages := [{ vpage := 1, cls := 0, copied := true }] }, recD, by decide +kernel⟩

theorem witness_DaymarksCaptureAndRestore_5 : ∃ (s : State) (die : Fin 2) (value : Word),
    (bitOf value 63 = true ∧ s.fld poolDmRestoreStatusBusy die.val = 0) :=
  ⟨State.reset, 1, 0x8000000000000005#64, by decide +kernel⟩

theorem witness_DaymarksCaptureAndRestore_6 : ∃ (s : State) (die : Fin 2) (fetched : List (BitVec 64 × List Byte)) (owner : Nat) (image : Nat),
    let w0 := natOfBytes (s.imageBytes die.val owner fetched image 8)
    (s.restores.find? (fun x => x.1 == die.val) = some (die.val, owner, image)) ∧ (w0 % 2 ^ 32 ≠ 0x44594D4B ∨ w0 / 2 ^ 63 ≠ 1) :=
  ⟨{ State.reset with restores := [(1, 0, 0)] }, 1, [], 0, 0, by decide +kernel⟩

theorem witness_DaymarksCaptureAndRestore_7 : ∃ (s : State) (die : Fin 2) (fetched : List (BitVec 64 × List Byte)) (owner : Nat) (image : Nat),
    let s0 : State := { s with restores := s.restores.filter fun x => x.1 != die.val }
    let w0 := natOfBytes (s.imageBytes die.val owner fetched image 8)
    let n := natOfBytes (s.imageBytes die.val owner fetched (image + 32) 4)
    let s1 := s0.readRuns { unit := .maint die.val, owner := owner } (s.imageRuns die.val owner image n)
    let x := s1.restorePages die.val owner image n fetched n 0 0
    (s.restores.find? (fun x => x.1 == die.val) = some (die.val, owner, image)) ∧ (w0 % 2 ^ 32 = 0x44594D4B ∧ w0 / 2 ^ 63 = 1 ∧ s.restoreWaits die.val owner image n fetched = false) :=
  ⟨{ State.reset with restores := [(1, 0, 0)] }, 1, [(0#64, bytesOf 0x8000000044594D4B 8 ++ List.replicate 24 0#8 ++ bytesOf 1 4)], 0, 0, by decide +kernel⟩

theorem witness_FailoverAndCriticalErrors_1 : ∃ (s : State) (ms : BitVec 32) (fatal : Bool),
    (s.beamState = 5 ∧ (s.dnat dkFailoverDetect ≤ ms.toNat ∨ fatal = true)) :=
  ⟨State.reset.setBeamState 5, 500#32, false, by decide +kernel⟩

theorem witness_FailoverAndCriticalErrors_2 : ∃ (s : State) (ms : BitVec 32) (fatal : Bool) (ready : List (BitVec 12)) (updates : List PackageUpdate),
    (s.beamState = 5 ∧ (s.dnat dkFailoverDetect ≤ ms.toNat ∨ fatal = true)) ∧ ((s.chooseSpare (ready.map BitVec.toNat)).isSome = true ∧ (updates.all fun u => u.pkg.toNat != s.ownPkg) = true) :=
  ⟨(State.reset.setBeamState 5).dput (dkSpareList 0) 11, 0#32, true, [11#12], [{ pkg := 11#12, entries := [] }], by decide +kernel⟩

theorem witness_FailoverAndCriticalErrors_3 : ∃ (s : State) (src : DictSource) (value : List Byte),
    (ServerTakes s src dkTableUpdate ∧ 16 ≤ value.length ∧ value.length ≤ 65536) :=
  ⟨srv, kfw, updateBytes 4 [], by decide +kernel⟩

theorem witness_FailoverAndCriticalErrors_4 : ∃ (s : State) (src : DictSource) (value : List Byte),
    (ServerTakes s src dkTableUpdate ∧ 16 ≤ value.length ∧ value.length ≤ 65536 ∧ src.transport ≠ .inBand) ∧ (natOfBytes (value.take 4) ≤ s.dnat dkFailoverSeq) :=
  ⟨srv.dput dkFailoverSeq 4, kfw, updateBytes 4 [], by decide +kernel⟩

theorem witness_FailoverAndCriticalErrors_5 : ∃ (s : State) (src : DictSource) (seqNo : BitVec 32) (x : TableEntry),
    (ServerTakes s src dkTableUpdate ∧ s.dnat dkFailoverSeq < seqNo.toNat ∧ bitsOf x.w0 0 4 = 0) :=
  ⟨srv, { kfw with transport := .mooring }, 4#32, { w0 := 0x12010#64, value := 0x1FF#64 }, by decide +kernel⟩

theorem witness_FailoverAndCriticalErrors_6 : ∃ (s : State),
    (s.resetInProgress = false) :=
  ⟨srv.setRoute 0 9 7, by decide +kernel⟩

theorem witness_UcieReadsAndConfiguration_1 : ∃ (s : State) (port : UciePort) (x : UcieTxn),
    let pas := (List.range (txnLines x)).map fun k : Nat => txnAddr x / 128 * 128 + 128 * k
    (s.portOpen port false = true ∧ txnReserved x = false ∧ txnType x = 1 ∧ s.readsQuiet = true) ∧ ((pas.any fun pa : Nat => s.groupHeld pa 128 || s.portWrites port x pa 128) = false) :=
  ⟨(vm [(0, 5#64)]).setFld uciStatusState 0 0 2, { die := 0, keeper := false }, ⟨0x200FC1#64, 0x50000#64, []⟩, by decide +kernel⟩

theorem witness_UcieReadsAndConfiguration_2 : ∃ (s : State) (port : UciePort) (x : UcieTxn),
    (s.portOpen port false = true ∧ txnReserved x = true) :=
  ⟨State.reset.setFld uciStatusState 3 0 2, { die := 1, keeper := true }, ⟨0x9#64, 0#64, []⟩, by decide +kernel⟩

theorem witness_UcieReadsAndConfiguration_3 : ∃ (s : State) (port : UciePort) (x : UcieTxn),
    (s.portOpen port false = true ∧ txnType x = 2) :=
  ⟨State.reset.setFld uciStatusState 0 0 2, { die := 0, keeper := false }, ⟨0x1000012#64, 0x50000#64, [(seg 7#1024 0 4 0, 0#128)]⟩, by decide +kernel⟩

theorem witness_UcieReadsAndConfiguration_4 : ∃ (s : State) (port : UciePort) (x : UcieTxn),
    (s.portOpen port true = true ∧ txnType x = 5) :=
  ⟨State.reset, { die := 0, keeper := true }, ⟨0x1000015#64, 0x50000#64, [(seg 7#1024 0 4 0, 0#128)]⟩, by decide +kernel⟩

theorem witness_UcieReadsAndConfiguration_5 : ∃ (s : State) (port : UciePort) (x : UcieTxn) (off : Nat),
    (s.portOpen port true = true ∧ txnType x = 4 ∧ s.phys (txnAddr x) = .config off) :=
  ⟨State.reset, { die := 0, keeper := true }, ⟨0x4#64, 0xFF010A2010#64, []⟩, 0x10A2010, by decide +kernel⟩

theorem witness_UcieReadsAndConfiguration_6 : ∃ (s : State) (port : UciePort) (x : UcieTxn) (off : Nat) (v : Word) (u : Nat) (i : Nat),
    (s.portOpen port true = true ∧ txnType x = 6 ∧ txnValue x = some v) ∧ (s.phys (txnAddr x) = .config off ∧ regPlace off = some (.poolDmRestoreAddr, u, i)) :=
  ⟨State.reset, { die := 0, keeper := true }, ⟨0x1000006#64, 0xFF010A2010#64, [(seg 0x12340000#1024 0 4 0, 0#128)]⟩, 0x10A2010, 0x12340000#64, 0, 0, by decide +kernel⟩

theorem witness_UcieReadsAndConfiguration_7 : ∃ (s : State) (port : UciePort) (x : UcieTxn) (off : Nat) (i : Nat),
    (s.portOpen port true = true ∧ txnType x = 6 ∧ txnSrc x ≠ 0) ∧ (s.phys (txnAddr x) = .config off ∧ regPlace off = some (.keepHostCfg, 0, i)) :=
  ⟨State.reset, { die := 0, keeper := true }, ⟨0x20001000006#64, BitVec.ofNat 64 (0xFF03000000 + (regInfo .keepHostCfg).offset), [(seg 1#1024 0 4 0, 0#128)]⟩, 0x3000000 + (regInfo .keepHostCfg).offset, 0, by decide +kernel⟩

theorem witness_UcieWritesPostsAndRetraining_1 : ∃ (s : State) (port : UciePort) (x : UcieTxn) (y : LineSeg × BitVec 128),
    let base := txnAddr x / 128 * 128
    (s.portOpen port false = true ∧ txnType x = 3 ∧ x.lines = [y] ∧ lineMask x y = BitVec.allOnes 128 ∧ ucieLineGood x y = true) ∧ ((List.range 4).all (fun k : Nat => s.takesNow (base + 32 * k) 32) = true ∧ s.pathStatus base = 0) ∧ ((port.keeper && inReserved s.fuses base) = false) :=
  ⟨State.reset.setFld uciStatusState 0 0 2, { die := 0, keeper := false }, ⟨0x1000003#64, 0x50000#64, [(seg 7#1024 0 4 0, 0#128)]⟩, (seg 7#1024 0 4 0, 0#128), by decide +kernel⟩

theorem witness_UcieWritesPostsAndRetraining_2 : ∃ (s : State) (port : UciePort) (x : UcieTxn),
    (s.portOpen port false = true ∧ txnType x = 7 ∧ s.portWrites port x 0 (2 ^ 48) = false) :=
  ⟨State.reset.setFld uciStatusState 0 0 2, { die := 0, keeper := false }, ⟨7#64, 0#64, []⟩, by decide +kernel⟩

theorem witness_UcieWritesPostsAndRetraining_3 : ∃ (s : State) (port : UciePort) (x : UcieTxn),
    (s.portOpen port false = true ∧ txnType x = 7 ∧ s.portWrites port x 0 (2 ^ 48) = false) :=
  ⟨State.reset.setFld uciStatusState 0 0 2, { die := 0, keeper := false }, ⟨7#64, 0#64, []⟩, by decide +kernel⟩

theorem witness_UcieWritesPostsAndRetraining_4 : ∃ (s : State) (port : UciePort) (x : UcieTxn) (y : LineSeg × BitVec 128),
    (s.portOpen port false = true ∧ txnType x = 8 ∧ x.lines = [y] ∧ ucieLineGood x y = true) :=
  ⟨State.reset.setFld uciStatusState 0 0 2, { die := 0, keeper := false }, ⟨0x1000008#64, 0x3000000000000#64, [(seg 7#1024 0 4 0, 0#128)]⟩, (seg 7#1024 0 4 0, 0#128), by decide +kernel⟩

theorem witness_UcieWritesPostsAndRetraining_5 : ∃ (s : State) (port : UciePort),
    (s.fld uciStatusState (portUnit port) = 2) :=
  ⟨State.reset.setFld uciStatusState 3 0 2, { die := 1, keeper := true }, by decide +kernel⟩

theorem witness_UcieWritesPostsAndRetraining_6 : ∃ (s : State) (port : UciePort),
    let u := portUnit port
    (s.fld uciStatusState u = 3) :=
  ⟨State.reset.setFld uciStatusState 3 0 3, { die := 1, keeper := true }, by decide +kernel⟩

theorem witness_HostAccesses_1 : ∃ (s : State) (aperture : Fin 16) (offset : BitVec 32) (k : BitVec 8),
    let pa := s.fld keepApertureBase 0 aperture.val * 2 ^ 32 + offset.toNat
    (s.heldInReset = false ∧ 9 ≤ s.resets.step ∧ s.fld keepApertureEn 0 aperture.val = 1) ∧ (s.hostReach pa = true ∧ s.hostReach (pa + k.toNat - 1) = true ∧ s.groupHeld pa k.toNat = false ∧ s.readsQuiet = true) :=
  ⟨{ (vm [(0, 5#64)]).setFld keepApertureEn 0 2 1 with resets := { step := 11 } }, 2, 0x50000#32, 8#8, by decide +kernel⟩

theorem witness_HostAccesses_2 : ∃ (s : State) (aperture : Fin 16) (offset : BitVec 32) (bs : List Byte),
    let pa := s.fld keepApertureBase 0 aperture.val * 2 ^ 32 + offset.toNat
    (s.heldInReset = false ∧ 9 ≤ s.resets.step ∧ s.fld keepApertureEn 0 aperture.val = 1 ∧ bs ≠ []) ∧ (s.hostReach pa = true ∧ s.hostReach (pa + bs.length - 1) = true ∧ s.noneQueued pa bs.length = true) ∧ (((cutPages (bs.length / 65536 + 2) pa bs.length).all fun r : Nat × Nat => s.takesNow r.1 r.2) = true) :=
  ⟨{ (vm [(0, 5#64)]).setFld keepApertureEn 0 2 1 with resets := { step := 11 } }, 2, 0x5001F#32, [1#8, 2#8, 3#8], by decide +kernel⟩

theorem witness_HostAccesses_3 : ∃ (s : State) (aperture : Fin 16),
    (s.heldInReset = false ∧ (s.resets.step < 9 ∨ s.fld keepApertureEn 0 aperture.val = 0)) :=
  ⟨srv, 2, by decide +kernel⟩

theorem witness_HostAccesses_4 : ∃ (s : State),
    (s.heldInReset = false) :=
  ⟨srv, by decide +kernel⟩

theorem witness_HostAccesses_5 : ∃ (s : State) (offset : BitVec 27) (k : Nat),
    (s.heldInReset = false ∧ bar0 offset.toNat = .msix k true) :=
  ⟨srv, 0x100018#27, 1, by decide +kernel⟩

theorem witness_HostAccesses_6 : ∃ (s : State) (offset : BitVec 27) (off : Nat),
    (s.heldInReset = false ∧ bar0 offset.toNat = .boot off ∧ s.stage = 2) :=
  ⟨State.reset.setStage 2, 0x1000010#27, 16, by decide +kernel⟩

theorem witness_HostAccesses_7 : ∃ (s : State) (offset : BitVec 27) (off : Nat),
    (s.heldInReset = false ∧ bar0 offset.toNat = .view off ∧ s.fld keepHostCfgWrEn 0 = 0) :=
  ⟨srv, 0x4000010#27, 16, by decide +kernel⟩

theorem witness_HostAccesses_8 : ∃ (s : State),
    (s.hostOn = true) :=
  ⟨State.reset.setFld keepHostwinEn 0 0 1, by decide +kernel⟩

theorem witness_HostAccesses_10 : ∃ (s : State) (linkUp : Bool),
    (s.hostOn = false ∨ linkUp = false) :=
  ⟨State.reset, true, by decide +kernel⟩

theorem witness_HostAccesses_11 : ∃ (s : State) (x : BitVec 512),
    (s.serverOff = false ∧ s.fld keepHcmdBaseSizeLog2 0 ≠ 0 ∧ s.hcmdWaiting ≠ 0 ∧ x.toNat % 256 ≠ 1) :=
  ⟨(srv.setFld keepHcmdBaseSizeLog2 0 0 4).setFld keepHcmdIdxProd 0 0 1, 2#512, by decide +kernel⟩

theorem witness_HostAccesses_12 : ∃ (s : State) (x : BitVec 512) (p : Pdu),
    let bs := bytesOf x.toNat 64
    (s.serverOff = false ∧ s.fld keepHcmdBaseSizeLog2 0 ≠ 0 ∧ s.hcmdWaiting ≠ 0 ∧ x.toNat % 256 = 1) ∧ (s.hrspRoom = true ∧ s.hostOn = true ∧ parsePdu ((bs.drop 8).take (min 56 (bodyNum bs 3 2))) = some p ∧ (p.op = 0 ∨ p.op = 2)) :=
  ⟨(((srv.setFld keepHcmdBaseSizeLog2 0 0 4).setFld keepHcmdIdxProd 0 0 1).setFld keepHrspBaseSizeLog2 0 0 4).setFld keepHostwinEn 0 0 1, BitVec.ofNat 512 (natOfBytes [1#8, 9#8, 0#8, 8#8, 0#8, 0#8, 0#8, 0#8, 0x12#8, 0#8, 0x10#8, 2#8, 0#8, 0#8, 0#8, 0#8]), { op := 2, index := 0x1000, sub := 2 }, by decide +kernel⟩

theorem witness_HostEventsAndResets_1 : ∃ (value : Word),
    (bitOf value 63 = true) :=
  ⟨0x8000000000000000#64, by decide +kernel⟩

theorem witness_HostEventsAndResets_3 : ∃ (s : State) (value : Word),
    (s.stage = 2 ∧ bitOf value 63 = true) :=
  ⟨State.reset.setStage 2, 0x8000000000002000#64, by decide +kernel⟩

theorem witness_HostEventsAndResets_4 : ∃ (s : State) (value : Word),
    let n := Nat.max 68 (bitsOf value 0 11)
    (s.host.holdoff.contains n = false ∧ (s.msix n).masked = false) :=
  ⟨{ State.reset with host := { msix := [(68, { masked := false })] } }, 3#64, by decide +kernel⟩

theorem witness_HostEventsAndResets_5 : ∃ (s : State) (vector : BitVec 11),
    ((s.msix vector.toNat).masked = false) :=
  ⟨{ State.reset with host := { msix := [(68, { masked := false })], holdoff := [68], again := [68] } }, 68#11, by decide +kernel⟩

theorem witness_HostEventsAndResets_7 : ∃ (s : State) (src : DictSource) (d : ShelfDevice),
    (ServerTakes s src dkShelfRescan ∧ d.ready = true) :=
  ⟨srv, kfw, { port := 1, ready := true, capacity := 64#24 }, by decide +kernel⟩

theorem witness_DictionaryRequestsAreServed_1 : ∃ (s : State) (src : DictSource) (index : BitVec 16) (sub : Byte) (offset : BitVec 16) (r : DictRow),
    let p : Pdu := { op := 0, index := index.toNat, sub := sub.toNat, offset := offset.toNat }
    (s.serverOff = false ∧ s.repeated src = none ∧ s.served p = true ∧ (src.transport ≠ .inBand ∨ s.pool.moves = [])) ∧ (entryAt index.toNat sub.toNat = some r ∧ r.access ≠ 3 ∧ r.type ≠ 9 ∧ r.type ≠ 10) :=
  ⟨srv, { kfw with transport := .mooring }, 0x5300#16, 2#8, 0#16, rowOf 0x5300 2, by decide +kernel⟩

theorem witness_DictionaryRequestsAreServed_2 : ∃ (s : State) (src : DictSource) (index : BitVec 16) (sub : Byte) (offset : BitVec 16),
    let p : Pdu := { op := 0, index := index.toNat, sub := sub.toNat, offset := offset.toNat }
    (s.serverOff = false ∧ s.repeated src = none ∧ s.served p = true ∧ entryAt index.toNat sub.toNat = none) :=
  ⟨srv, kfw, 0x5400#16, 1#8, 0#16, by decide +kernel⟩

theorem witness_DictionaryRequestsAreServed_3 : ∃ (s : State) (src : DictSource) (index : BitVec 16) (sub : Byte) (value : List Byte) (r : DictRow),
    (s.serverOff = false ∧ s.repeated src = none ∧ 5 ≤ s.resets.step) ∧ (entryAt index.toNat sub.toNat = some r ∧ r.access = 2 ∧ r.type ≠ 9 ∧ r.type ≠ 10 ∧ value.length = typeSize r.type) ∧ (index.toNat = 0x4030 ∨ index.toNat = 0x5300 ∨ index.toNat = 0x5302) :=
  ⟨srv, kfw, 0x5300#16, 2#8, [9#8, 0#8, 0#8, 0#8], rowOf 0x5300 2, by decide +kernel⟩

theorem witness_DictionaryRequestsAreServed_4 : ∃ (s : State) (src : DictSource) (index : BitVec 16) (sub : Byte) (r : DictRow),
    let p : Pdu := { op := 2, index := index.toNat, sub := sub.toNat }
    (s.serverOff = false ∧ s.repeated src = none ∧ s.served p = true ∧ entryAt index.toNat sub.toNat = some r ∧ (src.transport ≠ .inBand ∨ s.pool.moves = [])) :=
  ⟨srv, kfw, 0x4030#16, 1#8, rowOf 0x4030 1, by decide +kernel⟩

theorem witness_DictionaryRequestsAreServed_5 : ∃ (s : State) (src : DictSource) (value : Byte),
    (s.serverOff = false ∧ s.repeated src = none ∧ 5 ≤ s.resets.step ∧ (value = 0#8 ∨ value = 1#8)) ∧ (s.dget dkDictLock = 0 ∨ value = 1#8) :=
  ⟨srv, kfw, 1#8, by decide +kernel⟩

theorem witness_DictionaryRequestsAreServed_6 : ∃ (s : State) (src : DictSource),
    (s.serverOff = false ∧ s.repeated src = none ∧ 5 ≤ s.resets.step ∧ s.dget dkDictLock ≠ 0) :=
  ⟨srv.dput dkDictLock 1, kfw, by decide +kernel⟩

theorem witness_DictionaryRequestsAreServed_7 : ∃ (s : State) (src : DictSource),
    (s.serverOff = false ∧ s.repeated src = none ∧ 5 ≤ s.resets.step) :=
  ⟨srv.dput (dkSpareList 0) 7, kfw, by decide +kernel⟩

theorem witness_DictionaryRequestsAreServed_8 : ∃ (s : State) (src : DictSource) (value : Byte),
    (s.serverOff = false ∧ s.repeated src = none ∧ 5 ≤ s.resets.step ∧ (value = 1#8 ∨ value = 2#8)) :=
  ⟨srv, kfw, 2#8, by decide +kernel⟩

theorem witness_DictionaryRequestsAreServed_9 : ∃ (s : State) (n : Nat),
    ((s.resetInProgress = false ∨ n < s.resets.level) ∧ s.resets.request = some n ∧ (n = 1 ∨ n = 2)) :=
  ⟨{ srv with resets := { step := 11, request := some 1 } }, 1, by decide +kernel⟩

theorem witness_MooringFramesAreTaken_1 : ∃ (s : State) (frame : MooringFrame) (p : Pdu) (r : DictRow),
    let src : DictSource := { transport := .mooring, id := BitVec.ofNat 32 (frameSrcNode frame + frameSrcPkg frame * 8), tag := BitVec.ofNat 16 (frameNum frame 6 2) }
    (frameBad frame = false ∧ frameType frame = 1 ∧ s.frameMine frame = true ∧ parsePdu (frameBody frame) = some p ∧ p.op = 0) ∧ (s.serverOff = false ∧ s.repeated src = none ∧ s.served p = true) ∧ (entryAt p.index p.sub = some r ∧ r.access ≠ 3 ∧ r.type ≠ 9 ∧ r.type ≠ 10) :=
  ⟨srv, { source := 0#48, payload := [0x11#8, 0x60#8, 0#8, 0#8, 9#8, 0#8, 5#8, 0#8, 8#8, 0#8, 0#8, 0#8] ++ [0#8, 0#8, 0x53#8, 2#8, 0#8, 0#8, 0#8, 0#8] }, { op := 0, last := false, index := 0x5300, sub := 2 }, rowOf 0x5300 2, by decide +kernel⟩

theorem witness_MooringFramesAreTaken_2 : ∃ (s : State) (frame : MooringFrame),
    (s.heldInReset = false ∧ frameBad frame = true) :=
  ⟨srv, { source := 0#48, payload := [0x12#8] }, by decide +kernel⟩

theorem witness_MooringFramesAreTaken_3 : ∃ (s : State) (frame : MooringFrame),
    (s.heldInReset = false ∧ frameBad frame = false ∧ frameType frame = 2 ∧ s.frameMine frame = true) :=
  ⟨srv, { source := 0#48, payload := [0x21#8, 0x60#8, 0#8, 0#8, 9#8, 0#8, 5#8, 0#8, 1#8, 0#8, 0#8, 0#8, 0x77#8] }, by decide +kernel⟩

theorem witness_MooringFramesAreTaken_4 : ∃ (s : State) (frame : MooringFrame),
    let body := padTo 24 0#8 (frameBody frame)
    let origin := bodyNum body 0 2 % 4096
    (s.heldInReset = false ∧ frameBad frame = false ∧ frameType frame = 3 ∧ s.frameMine frame = true) ∧ ((bodyNum body 2 1 = 1 ∨ bodyNum body 2 1 = 2) ∧ (s.mooring.fogs.all fun x : Nat × Nat => x.1 != origin || decide (x.2 < bodyNum body 12 8)) = true) :=
  ⟨srv, { source := 0#48, payload := [0x31#8, 0x62#8, 0#8, 0#8, 9#8, 0#8, 5#8, 0#8, 24#8, 0#8, 0#8, 0#8] ++ [9#8, 0#8, 1#8] ++ List.replicate 21 0#8 }, by decide +kernel⟩

theorem witness_MooringFramesAreTaken_5 : ∃ (s : State) (frame : MooringFrame),
    let level := bodyNum (frameBody frame) 0 1
    (s.heldInReset = false ∧ frameBad frame = false ∧ frameType frame = 4 ∧ s.frameMine frame = true) ∧ (2 ≤ (frameBody frame).length ∧ bodyNum (frameBody frame) 1 1 = 0xA5) ∧ (s.resetInProgress = false ∨ level < s.resets.level) ∧ ((level = 2 ∧ 1 ≤ s.dnat dkMooringResetAccept) ∨ (level = 1 ∧ 2 ≤ s.dnat dkMooringResetAccept)) :=
  ⟨srv.dput dkMooringResetAccept 2, { source := 0#48, payload := [0x41#8, 0x62#8, 0#8, 0#8, 9#8, 0#8, 5#8, 0#8, 2#8, 0#8, 0#8, 0#8, 1#8, 0xA5#8] }, by decide +kernel⟩

theorem witness_MooringFramesAreTaken_6 : ∃ (s : State) (frame : MooringFrame),
    (s.heldInReset = false ∧ frameBad frame = false ∧ frameType frame = 4 ∧ s.frameMine frame = true) ∧ (bodyNum (frameBody frame) 1 1 ≠ 0xA5) :=
  ⟨srv.dput dkMooringResetAccept 2, { source := 0#48, payload := [0x41#8, 0x62#8, 0#8, 0#8, 9#8, 0#8, 5#8, 0#8, 2#8, 0#8, 0#8, 0#8, 1#8, 0xA4#8] }, by decide +kernel⟩

theorem witness_MooringFramesAreTaken_7 : ∃ (s : State) (frame : MooringFrame),
    (s.heldInReset = false ∧ frameBad frame = false ∧ frameType frame = 5 ∧ s.frameMine frame = true) :=
  ⟨srv, { source := 0#48, payload := [0x51#8, 0x62#8, 0#8, 0#8, 9#8, 0#8, 5#8, 0#8, 2#8, 0#8, 0#8, 0#8, 1#8, 0xA4#8] }, by decide +kernel⟩

theorem witness_MooringFramesAreTaken_8 : ∃ (s : State) (frame : MooringFrame),
    (s.heldInReset = false ∧ frameBad frame = false ∧ frameType frame = 6 ∧ s.frameMine frame = true) :=
  ⟨srv, { source := 5#48, payload := [0x61#8, 0x02#8, 0#8, 0#8, 9#8, 0#8, 5#8, 0#8, 2#8, 0#8, 0#8, 0#8, 1#8, 0xA4#8] }, by decide +kernel⟩

theorem witness_MooringFramesAreSent_1 : ∃ (s : State),
    (s.heldInReset = false ∧ s.dget dkMooringEnable ≠ 0) :=
  ⟨srv.dput dkMooringEnable 1, by decide +kernel⟩

theorem witness_MooringFramesAreSent_2 : ∃ (s : State),
    (s.heldInReset = false ∧ s.dnat dkMooringNodeId = 0 ∧ (s.beamState = 2 ∨ s.beamState = 3 ∨ s.beamState = 5)) :=
  ⟨srv.setBeamState 5, by decide +kernel⟩

theorem witness_MooringFramesAreSent_3 : ∃ (s : State) (src : DictSource) (value : List Byte),
    let kind := bodyNum value 0 1
    (ServerTakes s src dkFogSend ∧ value.length = 16 ∧ (kind = 1 ∨ kind = 2)) ∧ (s.mooring.fogBeam ≠ some s.beamNow ∧ s.mooring.fogDue = [] ∧ (s.mooring.fogs.all fun x : Nat × Nat => x.1 != s.ownPkg % 4096) = true) :=
  ⟨srv.setBeamState 5, kfw, 1#8 :: List.replicate 15 0#8, by decide +kernel⟩

theorem witness_ModesAndTheGovernor_1 : ∃ (s : State) (src : DictSource) (value : Byte),
    (s.serverOff = false ∧ s.repeated src = none ∧ 5 ≤ s.resets.step ∧ value.toNat ≤ 2 ∧ 2 ≤ s.fld beamStatusState 0) :=
  ⟨srv.setBeamState 5, kfw, 1#8, by decide +kernel⟩

theorem witness_ModesAndTheGovernor_2 : ∃ (s : State) (src : DictSource) (value : Byte),
    (s.serverOff = false ∧ s.repeated src = none ∧ 5 ≤ s.resets.step ∧ s.fld beamStatusState 0 < 2) ∧ (value.toNat < 2 ∧ s.modeNow < 2 ∧ value.toNat ≠ s.modeNow) :=
  ⟨srv, kfw, 1#8, by decide +kernel⟩

theorem witness_ModesAndTheGovernor_3 : ∃ (s : State) (src : DictSource) (value : Byte),
    (s.serverOff = false ∧ s.repeated src = none ∧ 5 ≤ s.resets.step ∧ value.toNat ≤ 3 ∧ 2 ≤ s.fld beamStatusState 0) :=
  ⟨srv.setBeamState 5, kfw, 3#8, by decide +kernel⟩

theorem witness_ModesAndTheGovernor_4 : ∃ (s : State) (src : DictSource) (value : Byte),
    (s.serverOff = false ∧ s.repeated src = none ∧ 5 ≤ s.resets.step ∧ s.fld beamStatusState 0 < 2) ∧ (value.toNat ≤ 3 ∧ s.modeNow < 2 ∧ value.toNat ≠ s.subModeNow ∧ s.dnat dkPowerMode = s.modeNow) :=
  ⟨srv, kfw, 1#8, by decide +kernel⟩

theorem witness_ModesAndTheGovernor_5 : ∃ (s : State),
    (s.power.die0.paused = true) :=
  ⟨srv.setPaused true, by decide +kernel⟩

theorem witness_ModesAndTheGovernor_7 : ∃ (s : State) (k : Fin 8),
    ((modeStacks s.modeNow).contains k.val = true) :=
  ⟨srv, 0, by decide +kernel⟩

theorem witness_ModesAndTheGovernor_9 : ∃ (s : State) (controller : Fin 8),
    ((s.powerStack controller.val).ramp = 8) :=
  ⟨srv, 5, by decide +kernel⟩

theorem witness_ModesAndTheGovernor_10 : ∃ (s : State) (controller : Fin 8),
    ((s.powerStack controller.val).ramp ≠ 8) :=
  ⟨srv.setPowerStack 5 { ramp := 3 }, 5, by decide +kernel⟩

theorem witness_ModesAndTheGovernor_11 : ∃ (reading : TempReading),
    (tripped reading = false) :=
  ⟨{ dies := 999#2048, keeper := 0, perStack := 0x60#64 }, by decide +kernel⟩

theorem witness_ModesAndTheGovernor_12 : ∃ (s : State) (reading : TempReading),
    (s.resets.thermal = true ∧ cooled reading = true) :=
  ⟨{ srv with resets := { step := 1, thermal := true } }, { dies := 0, keeper := 0, perStack := 0 }, by decide +kernel⟩

theorem witness_ResetSourcesAreTaken_1 : ∃ (s : State),
    (s.resetInProgress = false ∨ 0 < s.resets.level) :=
  ⟨(srv.putRaw 0x50000 [1#8]).putRaw 0x40000000000 [2#8], by decide +kernel⟩

theorem witness_ResetSourcesAreTaken_2 : ∃ (s : State),
    (s.resetInProgress = true ∧ s.resets.level = 0) :=
  ⟨({ State.reset with resets := { step := 4, level := 0 } }).wr .rstCause 0 0 2#64, by decide +kernel⟩

theorem witness_ResetSourcesAreTaken_3 : ∃ (s : State),
    (s.resets.porLow = false) :=
  ⟨srv, by decide +kernel⟩

theorem witness_ResetSourcesAreTaken_4 : ∃ (s : State),
    (s.resets.porLow = true) :=
  ⟨{ srv with resets := { step := 1, porLow := true } }, by decide +kernel⟩

theorem witness_ResetSourcesAreTaken_5 : ∃ (s : State) (us : BitVec 32),
    (s.resets.porLow = false ∧ (s.resetInProgress = false ∨ 0 < s.resets.level) ∧ 10 ≤ us.toNat) :=
  ⟨srv, 10#32, by decide +kernel⟩

theorem witness_ResetSourcesAreTaken_6 : ∃ (s : State),
    (s.resetInProgress = false ∨ 1 < s.resets.level) :=
  ⟨srv, by decide +kernel⟩

theorem witness_ResetSourcesAreTaken_7 : ∃ (s : State),
    (s.resets.perst = true) :=
  ⟨{ srv with resets := { step := 1, perst := true, level := 1 } }, by decide +kernel⟩

theorem witness_ResetSourcesAreTaken_8 : ∃ (s : State) (reading : TempReading),
    ((s.resetInProgress = false ∨ 1 < s.resets.level) ∧ tripped reading = true) :=
  ⟨srv, { dies := 1100#2048, keeper := 0, perStack := 0 }, by decide +kernel⟩

theorem witness_ResetSourcesAreTaken_9 : ∃ (s : State) (serviced : Bool),
    (s.resets.wdogOnce = false ∨ serviced = true) :=
  ⟨srv, false, by decide +kernel⟩

theorem witness_ResetSourcesAreTaken_10 : ∃ (s : State),
    (s.resets.wdogOnce = true ∧ s.resetInProgress = true ∧ s.resets.level ≤ 2) :=
  ⟨{ srv with resets := { step := 5, level := 1, wdogOnce := true } }, by decide +kernel⟩

theorem witness_ResetSourcesAreTaken_11 : ∃ (s : State),
    (s.resets.wdogOnce = true ∧ s.resetInProgress = false) :=
  ⟨{ srv with resets := { step := 11, wdogOnce := true } }, by decide +kernel⟩

theorem witness_BlockResetsAndTheReleaseOrder_1 : ∃ (s : State) (value : Word),
    (bitOf value 63 = true ∧ s.resets.blocks = [] ∧ s.resets.waiting = []) :=
  ⟨srv, 0x800000000000003F#64, by decide +kernel⟩

theorem witness_BlockResetsAndTheReleaseOrder_2 : ∃ (s : State) (block : BlockId) (us : BitVec 32) (outstanding : BitVec 24),
    let n := block.number.toNat
    let drained := !s.blockBusy block.region n && outstanding == 0#24
    ((s.resets.blocks.any fun b : BlockReset => b.region == block.region && b.number == n && !b.done) = true) ∧ (drained = true ∨ s.dnat dkBlockResetTimeout ≤ us.toNat) :=
  ⟨{ (eng0 { tileOpen := true }) with resets := { step := 11, blocks := [{ region := false, number := 0 }] } }, { region := false, number := 0 }, 100000#32, 3#24, by decide +kernel⟩

theorem witness_BlockResetsAndTheReleaseOrder_3 : ∃ (s : State) (block : BlockId) (b : BlockReset),
    let n := block.number.toNat
    (s.resets.blocks.find? (fun x : BlockReset => x.region == block.region && x.number == n && x.done) = some b ∧ s.resets.waiting = []) :=
  ⟨{ srv with resets := { step := 11, blocks := [{ region := true, number := 5, done := true }] } }, { region := true, number := 5 }, { region := true, number := 5, done := true }, by decide +kernel⟩

theorem witness_BlockResetsAndTheReleaseOrder_4 : ∃ (s : State) (input : ReleaseInput),
    (input.railsGood = true ∧ s.resets.porLow = false ∧ s.resets.perst = false ∧ s.resets.thermal = false ∧ s.stage < 0xE0 ∧ s.resets.step = 1) :=
  ⟨{ State.reset with resets := { step := 1, railBad := [3] } }, {}, by decide +kernel⟩

theorem witness_BlockResetsAndTheReleaseOrder_5 : ∃ (s : State) (input : ReleaseInput),
    (s.heldInReset = false ∧ s.stage < 0xE0 ∧ s.resets.step = 2 ∧ input.fuseFail = false) :=
  ⟨{ State.reset with resets := { step := 2 } }, { strap := 0x2D }, by decide +kernel⟩

theorem witness_BlockResetsAndTheReleaseOrder_6 : ∃ (s : State),
    (s.heldInReset = false ∧ s.stage < 0xE0 ∧ s.resets.step = 3) :=
  ⟨{ State.reset with resets := { step := 3 } }, by decide +kernel⟩

theorem witness_BlockResetsAndTheReleaseOrder_7 : ∃ (s : State),
    (s.heldInReset = false ∧ s.stage < 0xE0 ∧ s.stage ≠ 2 ∧ s.resets.step = 4 ∧ s.resets.level ≠ 2) ∧ ((s.checkImage (s.flash.slotByte false) slotSize).cause ≠ 0 ∧ (s.checkImage (s.flash.slotByte true) slotSize).cause ≠ 0) :=
  ⟨{ State.reset with resets := { step := 4 } }, by decide +kernel⟩

theorem witness_BlockResetsAndTheReleaseOrder_8 : ∃ (s : State) (input : ReleaseInput),
    (s.heldInReset = false ∧ s.stage < 0xE0 ∧ s.resets.step = 5 ∧ s.resets.level ≠ 2 ∧ s.resets.harbour = false ∧ s.dnat dkPowerMode < 2) ∧ (input.d2dFail = 0#24 ∧ input.keepFail0 = 0#2 ∧ input.keepFail1 = 0#2 ∧ (List.range 4).all (fun u : Nat => s.fld uciStatusRetired u == 0) = true) :=
  ⟨{ State.reset with resets := { step := 5 } }, {}, by decide +kernel⟩

theorem witness_BlockResetsAndTheReleaseOrder_9 : ∃ (s : State) (input : ReleaseInput),
    (s.heldInReset = false ∧ s.stage < 0xE0 ∧ s.resets.step = 5 ∧ input.keepFail0 = 3#2) :=
  ⟨{ State.reset with resets := { step := 5 } }, { keepFail0 := 3 }, by decide +kernel⟩

theorem witness_BlockResetsAndTheReleaseOrder_10 : ∃ (s : State) (input : ReleaseInput),
    (s.heldInReset = false ∧ s.stage < 0xE0 ∧ s.resets.step = 6 ∧ ((modeStacks s.modeNow).any fun k : Nat => input.stackFail.getLsbD k) = true) :=
  ⟨{ State.reset with resets := { step := 6 } }, { stackFail := 4 }, by decide +kernel⟩

theorem witness_BlockResetsAndTheReleaseOrder_11 : ∃ (s : State) (input : ReleaseInput),
    (s.heldInReset = false ∧ s.stage < 0xE0 ∧ s.resets.step = 6 ∧ s.resets.level ≠ 2 ∧ ((modeStacks s.modeNow).any fun k : Nat => input.stackFail.getLsbD k) = false) :=
  ⟨{ State.reset with resets := { step := 6 } }, { stackTemp := 40 }, by decide +kernel⟩

theorem witness_BlockResetsAndTheReleaseOrder_12 : ∃ (s : State),
    (s.heldInReset = false ∧ s.stage < 0xE0 ∧ s.resets.step = 7) :=
  ⟨{ State.reset with resets := { step := 7 } }, by decide +kernel⟩

theorem witness_BlockResetsAndTheReleaseOrder_13 : ∃ (s : State),
    (s.heldInReset = false ∧ s.stage < 0xE0 ∧ s.resets.step = 8 ∧ s.resets.level ≠ 2 ∧ s.dnat dkBeamRole ≠ 1) :=
  ⟨{ State.reset with resets := { step := 8 } }, by decide +kernel⟩

theorem witness_BlockResetsAndTheReleaseOrder_14 : ∃ (s : State),
    (s.heldInReset = false ∧ s.stage < 0xE0 ∧ s.resets.step = 9 ∧ s.fabricReady = true) :=
  ⟨{ (List.range 16).foldl (fun (s : State) l => s.setLinkState l 5) State.reset with resets := { step := 9 } }, by decide +kernel⟩

theorem witness_BlockResetsAndTheReleaseOrder_15 : ∃ (s : State),
    (s.heldInReset = false ∧ s.stage < 0xE0 ∧ s.resets.step = 10 ∧ (s.beamState = 2 ∨ s.beamState = 5)) :=
  ⟨{ State.reset.setBeamState 2 with resets := { step := 10 } }, by decide +kernel⟩

theorem witness_BlockResetsAndTheReleaseOrder_16 : ∃ (s : State) (ms : BitVec 32),
    (s.resets.step = 9 ∧ 1000 ≤ ms.toNat) :=
  ⟨{ State.reset with resets := { step := 9 } }, 1000#32, by decide +kernel⟩

theorem witness_UpdatesCountersAndUnlock_1 : ∃ (s : State) (src : DictSource) (chunk : List Byte),
    (ServerTakes s src dkFwUpdate ∧ natOfBytes (chunk.take 4) = 0 ∧ 9 ≤ chunk.length ∧ chunk.length ≤ 65536) :=
  ⟨srv, kfw, [0#8, 0#8, 0#8, 0#8, 1#8, 0#8, 0#8, 0#8, 0x77#8, 0x78#8], by decide +kernel⟩

theorem witness_UpdatesCountersAndUnlock_2 : ∃ (s : State) (src : DictSource) (chunk : List Byte),
    (ServerTakes s src dkFwUpdate ∧ natOfBytes (chunk.take 4) ≠ 0 ∧ 9 ≤ chunk.length ∧ chunk.length ≤ 65536) ∧ (s.security.update = none) :=
  ⟨srv, kfw, [5#8, 0#8, 0#8, 0#8, 1#8, 0#8, 0#8, 0#8, 0x77#8, 0x78#8], by decide +kernel⟩

theorem witness_UpdatesCountersAndUnlock_3 : ∃ (s : State) (u : FwUpdate),
    (s.security.update = some u ∧ u.verifying = true) :=
  ⟨{ srv with security := { update := some { slot := true, next := 2, verifying := true } }, flash := { slotB := [(0, 1#8)] } }, { slot := true, next := 2, verifying := true }, by decide +kernel⟩

theorem witness_UpdatesCountersAndUnlock_4 : ∃ (s : State) (src : DictSource),
    (ServerTakes s src dkSvnCommit ∧ s.fld secStatusSvn 0 ≤ 64) :=
  ⟨srv.setFld secStatusSvn 0 0 5, kfw, by decide +kernel⟩

theorem witness_UpdatesCountersAndUnlock_5 : ∃ (s : State) (src : DictSource),
    (s.serverOff = false ∧ s.repeated src = none ∧ 5 ≤ s.resets.step ∧ (src.transport ≠ .inBand ∨ s.pool.moves = [])) :=
  ⟨srv, kfw, by decide +kernel⟩

theorem witness_UpdatesCountersAndUnlock_6 : ∃ (s : State) (src : DictSource) (value : List Byte),
    (ServerTakes s src dkDebugUnlock ∧ value.length = 2124) :=
  ⟨{ srv with security := { challenge := some 5#384 } }, kfw, List.replicate 2124 0#8, by decide +kernel⟩

theorem witness_UpdatesCountersAndUnlock_7 : ∃ (s : State) (code : SpdmCode),
    (5 ≤ s.resets.step ∧ needsSignature code = true ∧ s.fld secStatusExhausted 0 = 0 ∧ s.fld secLmsStateNext 0 < lmsLimit) :=
  ⟨srv, SpdmCode.keyExchange, by decide +kernel⟩

theorem witness_UpdatesCountersAndUnlock_8 : ∃ (s : State) (code : SpdmCode),
    (s.resets.step < 5 ∧ code ≠ SpdmCode.getVersion ∧ code ≠ SpdmCode.getCapabilities) :=
  ⟨State.reset, SpdmCode.challenge, by decide +kernel⟩

theorem witness_UpdatesCountersAndUnlock_9 : ∃ (s : State),
    (5 ≤ s.resets.step) :=
  ⟨{ srv with security := { sessions := [9, 8] } }, by decide +kernel⟩

theorem witness_UpdatesCountersAndUnlock_10 : ∃ (s : State),
    (5 ≤ s.resets.step) :=
  ⟨srv, by decide +kernel⟩

theorem witness_TraceRecordsAndRegistersAreWritten_1 : ∃ (s : State) (die : Fin 2) (source : Byte) (x : Words4) (rest : List Words4),
    let key := die.val * 256 + source.toNat
    let pa := s.sinkAt die.val
    (s.sinkFull die.val = false ∧ s.sinkKind die.val = 1 ∧ lookupD ({} : TraceSrc) key s.trace = ({ staged := x :: rest, loss := none } : TraceSrc)) ∧ ((List.range 4).all (fun k : Nat => s.takesNow (pa + 8 * k) 8) = true) :=
  ⟨({ State.reset with trace := [(256 + 0x80, { staged := [⟨1#64, 2#64, 3#64, 4#64⟩] })] }.setFld ctrTraceCfgSink 1 0 1).setFld ctrTraceBaseBase 1 0 (galleryBase 1 / 4096), 1, 0x80#8, ⟨1#64, 2#64, 3#64, 4#64⟩, [], by decide +kernel⟩

theorem witness_TraceRecordsAndRegistersAreWritten_2 : ∃ (s : State) (addr : BitVec 48) (off : Nat) (r : Reg) (u : Nat) (i : Nat),
    (s.phys addr.toNat = .config off ∧ regPlace off = some (r, u, i)) ∧ (r = .engArrayCfg ∨ r = .engArrayStatus ∨ r = .hbmcErrLog ∨ r = .poolDmRestoreAddr ∨ r = .galCfg) :=
  ⟨State.reset, 0xFF010A2010#48, 0x10A2010, .poolDmRestoreAddr, 0, 0, by decide +kernel⟩

theorem witness_TraceRecordsAndRegistersAreWritten_3 : ∃ (s : State) (addr : BitVec 48) (off : Nat),
    (s.phys addr.toNat = .config off ∧ regPlace off = none) :=
  ⟨State.reset, 0xFF00990000#48, 0x990000, by decide +kernel⟩

theorem witness_TraceRecordsAndRegistersAreWritten_4 : ∃ (s : State) (addr : BitVec 48) (off : Nat) (u : Nat) (i : Nat),
    (s.phys addr.toNat = .config off ∧ regPlace off = some (.engRampProf, u, i) ∧ s.fld engArrayCfgLock u = 0) :=
  ⟨State.reset, BitVec.ofNat 48 (0xFF00000000 + (regInfo .engRampProf).offset), (regInfo .engRampProf).offset, 0, 0, by decide +kernel⟩

theorem witness_TraceRecordsAndRegistersAreWritten_5 : ∃ (s : State) (addr : BitVec 48) (off : Nat) (u : Nat) (i : Nat),
    (s.phys addr.toNat = .config off ∧ regPlace off = some (.fabVcCredits, u, i)) :=
  ⟨State.reset, BitVec.ofNat 48 (0xFF02000000 + (regInfo .fabVcCredits).offset), 0x2000000 + (regInfo .fabVcCredits).offset, 0, 0, by decide +kernel⟩

/-! ## Well-formedness refuses an ill-formed term of each check -/

theorem test_wf_chain_image : (Instr.stageChain 0 0 (.words (List.replicate 31 0#64))).wf = false ∧
    (Instr.stageChain 0 0 (.words (List.replicate 32 0#64))).wf = true := by decide

theorem test_wf_next_chain_image : (Instr.nextChainLaunch 0 0 (.words [])).wf = false := by decide

theorem test_wf_collective_image : (Instr.allReduce 0 0 (.words (List.replicate 9 0#64))).wf = false ∧
    (Instr.allReduce 0 0 (.words (List.replicate 8 0#64))).wf = true := by decide

theorem test_wf_put_lines : (Instr.put none ⟨0#64, 0#64, 0#64, 0#64⟩ (List.replicate 9 [])).wf = false := by decide +kernel

/-- The table's rows give no bits, so no word spells a command. -/
theorem test_no_word_spells_a_command (nbits w : Nat) : decodeTableWord nbits w = none := rfl

/-! ## The spec's worked examples -/

/-- spec/00_scope.md, the example after R15: packed engine ID 0x67 is engine 79, of cluster 19. -/
theorem test_engine_ids : EngIdIdx 0x67#7 = 79 ∧ engCluster 79 = 19 := by decide

/-- spec/02_number_formats.md, the MXFP8 example: scale code 0x80 and elements 0x7E, 0x22, 0x01, 0x00, 0xD9, with an overflow and an
underflow. -/
theorem test_mx_block :
    mxBlock 4 .nearestEven false ((List.replicate 27 Val.zero ++ [dec32 0x447A0000, dec32 0x3E99999A, dec32 0x3B83126F, dec32 0x3A6BEDFA,
      dec32 0xC2140000]).map fun v => (v, 0)) = (0x80, List.replicate 27 0 ++ [0x7E, 0x22, 0x01, 0x00, 0xD9], ⟨false, true, true⟩) := by
  decide +kernel

/-- The same example with NaN-on-overflow: the first element is 0x7F. -/
theorem test_mx_block_nan : (mxBlock 4 .nearestEven true [(dec32 0x447A0000, 0)]).2 = ([0x7F], ⟨true, false, false⟩) := by decide +kernel

/-- spec/02_number_formats.md, the example before R85: 2.5 and 5 into E2M1, 2.5 and 3.5 into INT8. -/
theorem test_round_ties : (encodeElem 7 .nearestEven false 0 (.fin false 5 (-1))).1 = 4 ∧ (encodeElem 7 .nearestEven false 0 (.fin false 5 0)).1 = 6 ∧
    (encodeElem 8 .nearestEven false 0 (.fin false 5 (-1))).1 = 2 ∧ (encodeElem 8 .nearestEven false 0 (.fin false 7 (-1))).1 = 4 := by
  decide +kernel

/-- spec/02_number_formats.md, the background after R86: toward zero, 460 becomes 448 in E4M3 and 500 overflows. -/
theorem test_overflow_toward_zero : encodeElem 4 .towardZero false 0 (.fin false 460 0) = (0x7E, Flags.none) ∧
    (encodeElem 4 .towardZero true 0 (.fin false 500 0)).1 = 0x7F := by decide +kernel

/-- spec/02_number_formats.md, the example after R100: 1.3 into E2M1 with random bits 0x9A3C is 1. -/
theorem test_stochastic : (encodeElem 7 .stochastic false 0x9A3C (dec32 0x3FA66666)).1 = 2 ∧
    (encodeElem 7 .stochastic false 39320 (dec32 0x3FA66666)).1 = 3 := by decide +kernel

/-- spec/03_cube_array.md, the input-gradient example: both groups give 1.0, and the accumulator 2.0. -/
theorem test_group_rule :
    let p (a b : Nat) : Val := (decodeElem 2 false a).mul (decodeElem 2 false b)
    let g0 := [p 0x4280 0x4880, p 0x3F80 0x3F80, p 0xC280 0x4880]
    let g1 := [p 0x3F80 0x3F80, p 0x3080 0x3080]
    groupSum g0 = 0x3F800000#32 ∧ groupSum g1 = 0x3F800000#32 ∧ accumulate 0x80000000#32 [g0, g1] = 0x40000000#32 := by decide +kernel

/-- R156's example: with a floor of 33 and 8 stages, a LENGTH of 39 ramps in 40 cycles, and is a clamp. -/
theorem test_ramp_length :
    (((State.reset.dput dkArrayRampFloor 33).setFld engRampProfLength 0 0 39).setFld engRampProfStagesLog2 0 0 3).rampShape 0 0 = (40, 5, true) := by
  decide +kernel

/-- spec/04_vector_functions_random.md, the sector-skip example: H = (18 × L2E + 10) + 1 lies between 36.9685 and 36.9686. -/
theorem test_skip_offset : f32lt 0x4213DFBE#32 (skipOffset 0x1200 10) = true ∧ f32lt (skipOffset 0x1200 10) 0x4213DFF3#32 = true := by decide +kernel

/-- R201, Philox4x32-10 as published: the output for a zero key and a zero counter. -/
theorem test_philox : philox 0 0 ⟨0, 0, 0, 0⟩ = ⟨0x6627E8D5#32, 0xE169C58D#32, 0xBC57AC4C#32, 0x9B00DBD8#32⟩ := by decide +kernel

/-- spec/04_vector_functions_random.md's special values: 2^−∞ is +0, 1/+0 is +∞ and log2 of a negative value is NaN. -/
theorem test_function_specials : fExp2 0xFF800000#32 = 0#32 ∧ fRecip 0#32 = 0x7F800000#32 ∧ fLog2 0xBF800000#32 = nan32 := by decide +kernel

/-- spec/10_links_and_windows.md, the example after R485: a least round trip of 480.0 ns gives a one-way delay of 160.0 ns and 2.0 m. -/
theorem test_cable_delay :
    let s := (link0 4 { partner := some partner0 }).measured 0 4800
    s.fld fabDelayOneWay 0 = 1600 ∧ s.dget (dkCableLength 0) = 20 ∧ s.fld fabStatusDelaySuspect 0 = 0 ∧ s.linkState 0 = 5 := by decide +kernel

/-- spec/11_collectives_and_mapping.md, the example after R531: 2^24 ⊕ 1 ties to even, and 2 ⊕ 2^24 is exact. -/
theorem test_ring_order : f32add (f32add 0x4B800000#32 0x3F800000#32) 0x3F800000#32 = 0x4B800000#32 ∧
    f32add (f32add 0x3F800000#32 0x3F800000#32) 0x4B800000#32 = 0x4B800001#32 := by decide +kernel

/-- spec/15_object_dictionary.md, the transaction: 600 written to MEDIA_FACTOR of global link 3 reads back as 512, is counted once, and is
answered with 11 03 51 03 00 00 02 00, value 00 02. -/
theorem test_mooring_write :
    let p : Pdu := { op := 1, index := 0x5103, sub := 3, value := [0x58#8, 0x02#8] }
    let r := srv.serve { transport := .mooring, id := 256, tag := 0x107 } p [] true
    replyBytes p r.2 = [0x11#8, 0x03#8, 0x51#8, 0x03#8, 0#8, 0#8, 2#8, 0#8, 0x00#8, 0x02#8] ∧ r.1.dget (dkMediaFactor 3) = 512 ∧
      r.1.dget (clampKey .mooring) = 1 := by
  decide +kernel

/-- R868: a serial whose last six digits are 012F40 gives the source address 02:EC:96:01:2F:40. -/
theorem test_source_address :
    ({ State.reset with fuses := BitVec.ofNat 4096 (natOfBytes (asciiBytes "00000000BA012F40") * 2 ^ 2152) } : State).ownAddress = 0x02EC96012F40 := by
  decide +kernel

/-- CRC-32C of flits, as published: the check value of "123456789". -/
theorem test_crc32c : crc32c ([0x31, 0x32, 0x33, 0x34, 0x35, 0x36, 0x37, 0x38, 0x39] : List Byte) = 0xE3069283#32 := by decide +kernel

end Sys2Proof.Tests
end

section
/-!
SUPPORT. The statements about the scope (spec/00_scope.md): the front of the queue, the reset state, packed engine IDs, and the footprint
list of a vector command, which a read that fails parity leaves.
-/
namespace Sys2Proof.Machine

/-! ## The front of the queue (O1) -/

/-- Settles O1: the rest of the queue after a command is put at its front and taken off again is the state's own queue. -/
theorem stepTakesTheFrontCommand : Obligations.StepTakesTheFrontCommand := by
  intro c s
  show exec c { s.withFront c with pending := s.pending } = exec c s
  rfl

/-! ## The reset state (O4) -/

/-- The register map of the reset state lists nothing. -/
@[simp] theorem State.reset_rd (r : Reg) (u i : Nat) : State.reset.rd r u i = regReset r i := rfl

/-- The dictionary of the reset state lists nothing. -/
@[simp] theorem State.reset_dget (k : Nat) : State.reset.dget k = dictDefault (k / 256) (k % 256) := rfl

@[simp] theorem bitOf_zero (k : Nat) : bitOf 0#64 k = false := by
  simp [bitOf, bitsOf]

@[simp] theorem State.reset_tokenSet (k : Nat) : State.reset.tokenSet k = false := by
  have hword : State.reset.rd .beamTokens 0 (k / 64) = 0#64 := rfl
  rw [State.tokenSet, hword, bitOf_zero]

theorem State.reset_sound : State.reset.Sound := ⟨reset_mem_wf, rfl, rfl⟩

/-- Settles O4: field by field; the registers and the dictionary by their empty maps. -/
theorem resetLeavesTheResetValues : Obligations.ResetLeavesTheResetValues := by
  have hbeam : State.reset.beamState = 0 := by decide +kernel
  have hstage : State.reset.stage = 1 := by decide +kernel
  exact ⟨State.reset_rd, State.reset_dget, State.reset_tokenSet, hbeam, hstage, rfl, rfl, fun _ => rfl, rfl, rfl, rfl,
    State.reset_sound⟩

/-! ## Packed engine IDs (O9) -/

/-- R15: cluster value 3 is read as cluster value 2. -/
theorem clampPacked_of_cluster_three {p : Nat} (h : p / 4 % 4 = 3) : clampPacked p = clampPacked (p - 4) := by
  have hdown : (p - 4) / 4 % 4 ≠ 3 := by omega
  rw [clampPacked, clampPacked, if_pos h, if_neg hdown]

/-- A clamped ID names one of the three clusters of its region. -/
theorem clampPacked_cluster_lt (p : Nat) : clampPacked p / 4 % 4 < 3 := by
  unfold clampPacked
  split <;> omega

theorem engIndex_of_cluster_three {p : Nat} (h : p / 4 % 4 = 3) : engIndex p = engIndex (p - 4) := by
  simp only [engIndex, clampPacked_of_cluster_three h]

/-- R10, R13: two dies of four regions of three clusters of four engines. -/
theorem engIndex_lt (p : Nat) : engIndex p < 96 := by
  have hcluster := clampPacked_cluster_lt p
  simp only [engIndex]
  omega

/-- Settles O9: the clamp on the packed number, carried over to its seven bits. -/
theorem packedIdsAreClamped : Obligations.PackedIdsAreClamped := by
  refine ⟨fun e h => ?_, fun e => engIndex_lt e.toNat⟩
  have hdown : (e - 4#7).toNat = e.toNat - 4 := by bv_omega
  rw [EngIdIdx, EngIdIdx, hdown, engIndex_of_cluster_three h]

/-! ## The footprint of COPY (O3) -/

/-- COPY of one element at unit 0 of engine 0, a byte of which fails its check bit: ENG_LENS_PARITY_CNT of the engine counts it (R281,
R286). -/
theorem copy_counts_lens_parity :
    Gives (.copy 0 0 ⟨0, 0, 0, 0⟩) { State.reset with badCheck := [2 ^ 48] } fun t => t.rd .engLensParityCnt 0 0 = 1#64 :=
  ⟨_, rfl, by decide +kernel⟩

/-- Refutes O3: the list of cells of COPY has no ENG_LENS_PARITY_CNT, and a COPY whose operand fails its check bit counts there. -/
theorem not_everyCommandCompletesInItsFootprint : ¬ Obligations.EveryCommandCompletesInItsFootprint := by
  intro h
  obtain ⟨t, ht, -, hsame⟩ := h (.copy 0 0 ⟨0, 0, 0, 0⟩) { State.reset with badCheck := [2 ^ 48] }
  obtain ⟨u, hu, hcounted⟩ := copy_counts_lens_parity
  obtain rfl : t = u := Host.Outcome.next.inj (ht.symm.trans hu)
  have hunlisted : Cell.reg .engLensParityCnt ∉ touches (.copy 0 0 ⟨0, 0, 0, 0⟩) := by decide +kernel
  have hkept : t.rd .engLensParityCnt 0 0 = 0#64 := hsame _ hunlisted 0 0
  exact absurd (hcounted.symm.trans hkept) (by decide)

end Sys2Proof.Machine
end

section
/-!
SUPPORT. The statement about the number formats (spec/02_number_formats.md): the values of the small formats, and the packing of their
elements. A packed element is read as a field of the little-endian number that its bytes spell; the three packing rules and the reading
back are that one fact at different bytes.
-/
namespace Sys2Proof.Machine

/-! ## The values of the small formats (R52, R57) -/

/-- R52: what is decoded is the two's-complement value of the bits. -/
theorem decodeInt_toNat {b : Nat} (hb : 0 < b) (x : BitVec b) : decodeInt b x.toNat = .fin (decide (x.toInt < 0)) x.toInt.natAbs 0 := by
  have hlt := x.isLt
  have hhalf : 2 ^ b = 2 * 2 ^ (b - 1) := (mul_pow_sub_one hb.ne' 2).symm
  have htoInt := x.toInt_eq_toNat_cond
  rw [decodeInt, Nat.mod_eq_of_lt hlt]
  split at htoInt
  case isTrue hpos =>
    have hsign : ¬ x.toInt < 0 := by omega
    rw [if_pos (by omega), decide_eq_false hsign, show x.toInt.natAbs = x.toNat by omega]
  case isFalse hneg =>
    have hsign : x.toInt < 0 := by omega
    rw [if_neg (by omega), decide_eq_true hsign, show x.toInt.natAbs = 2 ^ b - x.toNat by omega]

/-- R56: only the formats with IEEE 754's special encodings have infinities. -/
theorem decodeFloat_ne_inf {l : Layout} (hl : l.special ≠ .ieee) (bits : Nat) (neg : Bool) : decodeFloat l bits ≠ .inf neg := by
  unfold decodeFloat
  cases hspecial : l.special
  case ieee => exact absurd hspecial hl
  case nanOnly => dsimp only; split_ifs <;> simp
  case finiteOnly => dsimp only; split_ifs <;> simp

/-- R57: the codes of E4M3's largest exponent field are finite, but for the NaN above them. -/
theorem decodeFloat_layoutE4M3_top {bits : Nat} (hlt : bits < 256) (hlo : 0x78 ≤ bits % 128) (hhi : bits % 128 ≤ 0x7E) :
    decodeFloat layoutE4M3 bits = .fin (decide (128 ≤ bits)) (8 + bits % 8) 5 := by
  have hexp : bits / 8 % 16 = 15 := by omega
  have hman : bits % 8 ≠ 7 := by omega
  have hsign : (bits / 128 % 2 == 1) = decide (128 ≤ bits) := by
    rw [beq_eq_decide, decide_eq_decide]
    omega
  simp [decodeFloat, layoutE4M3, hexp, hman, hsign]

/-! ## Bytes and the number they spell -/

theorem natOfBytes_lt (l : List Byte) : natOfBytes l < 2 ^ (8 * l.length) := by
  induction l with
  | nil => simp [natOfBytes]
  | cons b bs ih =>
    have hb := b.isLt
    rw [natOfBytes, List.length_cons, Nat.mul_succ, Nat.pow_add]
    omega

/-- Bit i of the number is bit i mod 8 of byte i / 8. -/
theorem testBit_natOfBytes (l : List Byte) (i : Nat) : (natOfBytes l).testBit i = (l.getD (i / 8) 0#8).toNat.testBit (i % 8) := by
  induction l generalizing i with
  | nil => simp [natOfBytes]
  | cons b bs ih =>
    have hsplit : natOfBytes (b :: bs) = 2 ^ 8 * natOfBytes bs + b.toNat := Nat.add_comm ..
    rw [hsplit, Nat.testBit_two_pow_mul_add _ b.isLt]
    split
    case isTrue hi => rw [Nat.div_eq_of_lt hi, Nat.mod_eq_of_lt hi, List.getD_cons_zero]
    case isFalse hi =>
      obtain ⟨j, rfl⟩ := Nat.exists_eq_add_of_le' (Nat.le_of_not_lt hi)
      rw [Nat.add_sub_cancel, ih, Nat.add_div_right _ (by decide), Nat.add_mod_right, List.getD_cons_succ]

@[simp] theorem length_bytesOf (n k : Nat) : (bytesOf n k).length = k := by
  induction k generalizing n with
  | zero => rfl
  | succ k ih => simp [bytesOf, ih]

theorem natOfBytes_bytesOf (n k : Nat) : natOfBytes (bytesOf n k) = n % 2 ^ (8 * k) := by
  induction k generalizing n with
  | zero => simp [bytesOf, natOfBytes, Nat.mod_one]
  | succ k ih => rw [bytesOf, natOfBytes, ih, Nat.mul_succ, Nat.add_comm (8 * k), Nat.pow_add, Nat.mod_mul, BitVec.toNat_ofNat]

/-! ## Packed elements (R63, R64) -/

/-- Bit i of element k is bit k * width + i of the little-endian stream of bytes. -/
theorem testBit_elemCode (rd : Nat → Byte) (code k i : Nat) : (elemCode rd code k).testBit i =
    (decide (i < fmtBits code) && (rd ((k * fmtBits code + i) / 8)).toNat.testBit ((k * fmtBits code + i) % 8)) := by
  rw [elemCode, Nat.testBit_mod_two_pow, Nat.testBit_div_two_pow, testBit_natOfBytes]
  generalize fmtBits code = w
  by_cases hi : i < w
  · have hin : (k * w % 8 + i) / 8 < (k * w % 8 + w + 7) / 8 := by omega
    have hbyte : k * w / 8 + (k * w % 8 + i) / 8 = (k * w + i) / 8 := by omega
    have hbit : (k * w % 8 + i) % 8 = (k * w + i) % 8 := by omega
    simp [hi, List.getD_eq_getElem?_getD, hin, hbyte, hbit, Nat.add_comm i]
  · simp [hi]

/-- An element whose bits lie in the bytes `l` from byte `a` on is a field of the number these bytes spell. -/
theorem elemCode_eq_of_bytes {rd : Nat → Byte} {code w k a o : Nat} {l : List Byte} (hw : fmtBits code = w)
    (hrd : ∀ j < l.length, rd (a + j) = l.getD j 0#8) (hlo : k * w = 8 * a + o) (hhi : o + w ≤ 8 * l.length) :
    elemCode rd code k = natOfBytes l / 2 ^ o % 2 ^ w := by
  refine Nat.eq_of_testBit_eq fun i => ?_
  rw [testBit_elemCode, Nat.testBit_mod_two_pow, Nat.testBit_div_two_pow, testBit_natOfBytes, hw, hlo]
  by_cases hi : i < w
  · have hbyte : (8 * a + o + i) / 8 = a + (i + o) / 8 := by omega
    have hbit : (8 * a + o + i) % 8 = (i + o) % 8 := by omega
    rw [hbyte, hbit, hrd _ (by omega)]
  · simp [hi]

/-- R63: the low half of byte j, then its high half. -/
theorem elemCode_of_fmtBits_eq_four {fmt : Nat} (hw : fmtBits fmt = 4) (rd : Nat → Byte) (j : Nat) :
    elemCode rd fmt (2 * j) = (rd j).toNat % 16 ∧ elemCode rd fmt (2 * j + 1) = (rd j).toNat / 16 := by
  have hrd : ∀ t < [rd j].length, rd (j + t) = [rd j].getD t 0#8 := by simp
  have hword : natOfBytes [rd j] = (rd j).toNat := rfl
  have hhigh : (rd j).toNat / 2 ^ 4 < 2 ^ 4 := Nat.div_lt_of_lt_mul (rd j).isLt
  constructor
  · rw [elemCode_eq_of_bytes (o := 0) hw hrd (by omega) (show 0 + 4 ≤ 8 by decide), hword, Nat.pow_zero, Nat.div_one]
    rfl
  · rw [elemCode_eq_of_bytes (o := 4) hw hrd (by omega) (show 4 + 4 ≤ 8 by decide), hword, Nat.mod_eq_of_lt hhigh]
    rfl

/-- R64: a six-bit field of the little-endian word of three bytes. -/
theorem elemCode_of_fmtBits_eq_six {fmt : Nat} (hw : fmtBits fmt = 6) (rd : Nat → Byte) (j : Nat) {k : Nat} (hk : k < 4) :
    elemCode rd fmt (4 * j + k) =
      ((rd (3 * j)).toNat + (rd (3 * j + 1)).toNat * 2 ^ 8 + (rd (3 * j + 2)).toNat * 2 ^ 16) / 2 ^ (6 * k) % 64 := by
  have hrd : ∀ t < [rd (3 * j), rd (3 * j + 1), rd (3 * j + 2)].length,
      rd (3 * j + t) = [rd (3 * j), rd (3 * j + 1), rd (3 * j + 2)].getD t 0#8
    | 0, _ | 1, _ | 2, _ => rfl
  have hword : natOfBytes [rd (3 * j), rd (3 * j + 1), rd (3 * j + 2)] =
      (rd (3 * j)).toNat + (rd (3 * j + 1)).toNat * 2 ^ 8 + (rd (3 * j + 2)).toNat * 2 ^ 16 := by
    simp only [natOfBytes]
    omega
  rw [elemCode_eq_of_bytes (o := 6 * k) hw hrd (by omega) (show 6 * k + 6 ≤ 24 by omega), hword]
  rfl

/-! ## Reading packed elements back (R63, R64) -/

theorem packNat_div_mod (w : Nat) (es : List Nat) (i : Nat) : packNat w es / 2 ^ (i * w) % 2 ^ w = es.getD i 0 % 2 ^ w := by
  induction es generalizing i with
  | nil => simp [packNat]
  | cons e es ih =>
    cases i with
    | zero => simp [packNat]
    | succ i =>
      have hrest : packNat w (e :: es) / 2 ^ w = packNat w es := by
        rw [packNat, Nat.add_mul_div_left _ _ (Nat.two_pow_pos w), Nat.div_eq_of_lt (Nat.mod_lt _ (Nat.two_pow_pos w)), Nat.zero_add]
      rw [Nat.succ_mul, Nat.add_comm, Nat.pow_add, ← Nat.div_div_eq_div_mul, hrest, ih, List.getD_cons_succ]

/-- The low `m` bits of a number hold every field that ends below bit `m`. -/
theorem mod_two_pow_div_mod {o w m : Nat} (h : o + w ≤ m) (n : Nat) : n % 2 ^ m / 2 ^ o % 2 ^ w = n / 2 ^ o % 2 ^ w := by
  have hdvd : 2 ^ o * 2 ^ w ∣ 2 ^ m := Nat.pow_add 2 o w ▸ Nat.pow_dvd_pow 2 h
  rw [← Nat.mod_mul_right_div_self, Nat.mod_mod_of_dvd n hdvd, Nat.mod_mul_right_div_self]

/-- What is read from packed elements are their codes, for every format. -/
theorem elemCode_packElems (fmt : Nat) {codes : List Nat} {i : Nat} (hi : i < codes.length) :
    elemCode (fun j => (packElems fmt codes).getD j 0#8) fmt i = codes.getD i 0 % 2 ^ fmtBits fmt := by
  have hfits : i * fmtBits fmt + fmtBits fmt ≤ 8 * packedBytes fmt codes.length := by
    have hmul : (i + 1) * fmtBits fmt ≤ codes.length * fmtBits fmt := Nat.mul_le_mul_right _ hi
    rw [Nat.succ_mul] at hmul
    rw [packedBytes]
    omega
  have hlen : (packElems fmt codes).length = packedBytes fmt codes.length := length_bytesOf ..
  calc elemCode (fun j => (packElems fmt codes).getD j 0#8) fmt i
      = natOfBytes (packElems fmt codes) / 2 ^ (i * fmtBits fmt) % 2 ^ fmtBits fmt :=
        elemCode_eq_of_bytes (a := 0) rfl (fun j _ => by rw [Nat.zero_add]) (Nat.zero_add _).symm (hlen ▸ hfits)
    _ = packNat (fmtBits fmt) codes / 2 ^ (i * fmtBits fmt) % 2 ^ fmtBits fmt := by
        rw [packElems, natOfBytes_bytesOf, mod_two_pow_div_mod hfits]
    _ = codes.getD i 0 % 2 ^ fmtBits fmt := packNat_div_mod ..

/-- Settles O13: the values format by format; the packing rules and the reading back as fields of the number the bytes spell. -/
theorem smallElementsAreReadAndStored : Obligations.SmallElementsAreReadAndStored := by
  refine ⟨fun x => ⟨decodeInt_toNat (by decide) x, x.le_toInt, Int.le_of_lt_add_one x.toInt_lt⟩,
    fun x => ⟨decodeInt_toNat (by decide) x, x.le_toInt, Int.le_of_lt_add_one x.toInt_lt⟩,
    fun x => decodeFloat_ne_inf (l := layoutE4M3) (by decide) x.toNat,
    fun x hlo hhi => ⟨8 + x.toNat % 8, decodeFloat_layoutE4M3_top x.isLt hlo hhi, by omega⟩,
    fun rd fmt j hfmt => elemCode_of_fmtBits_eq_four (by rcases hfmt with rfl | rfl <;> rfl) rd j,
    fun rd fmt j k hfmt hk => elemCode_of_fmtBits_eq_six (by rcases hfmt with rfl | rfl <;> rfl) rd j hk,
    fun fmt codes i _ _ hi hcodes => ?_⟩
  have hcode : codes.getD i 0 < 2 ^ fmtBits fmt := by
    rw [List.getD_eq_getElem _ _ hi]
    exact hcodes _ (List.getElem_mem hi)
  rw [elemCode_packElems fmt hi, Nat.mod_eq_of_lt hcode]

end Sys2Proof.Machine
end

section
/-!
SUPPORT. What the operations on engines do, said once for each: reads of registers and engines after an update, the issue of a pass, reads of
clean lens buffers, how an engine begins a pass or a mark, what the end of a chain leaves of the engines, and how a tile and a pass end.
-/
namespace Sys2Proof.Machine

/-! ## Reads after an update -/

theorem State.rd_bump_self (s : State) (r : Reg) (u i n : Nat) : (s.bump r u i n).rd r u i = s.rd r u i + BitVec.ofNat 64 n :=
  State.rd_wr_self ..

theorem State.rd_bump_ne {a b : Reg} (h : b ≠ a) (s : State) (u i n v j : Nat) : (s.bump a u i n).rd b v j = s.rd b v j :=
  State.rd_wr_ne h ..

theorem State.fld_bump_ne {a : Reg} {f : Field} (h : f.reg ≠ a) (s : State) (u i n v j : Nat) : (s.bump a u i n).fld f v j = s.fld f v j :=
  congrArg (bitsOf · f.lo f.width) (State.rd_bump_ne h ..)

theorem State.rd_setFld_ne {f : Field} {b : Reg} (h : b ≠ f.reg) (s : State) (u i n v j : Nat) : (s.setFld f u i n).rd b v j = s.rd b v j :=
  State.rd_wr_ne h ..

theorem State.eng_setEng_ne {d e : Nat} (h : d ≠ e) (s : State) (x : Engine) : (s.setEng e x).eng d = s.eng d :=
  lookupD_putD_ne _ _ h _ _

/-! ## What a footprint leaves -/

theorem Reach.rd_eq {F : Nat} {s t : State} (h : Reach F s t) (r : Reg) (m : F.testBit (64 + r.ctorIdx) = false) (u i : Nat) :
    t.rd r u i = s.rd r u i := h.same (.reg r) m u i

theorem Reach.fld_eq {F : Nat} {s t : State} (h : Reach F s t) (f : Field) (m : F.testBit (64 + f.reg.ctorIdx) = false) (u i : Nat) :
    t.fld f u i = s.fld f u i := congrArg (bitsOf · f.lo f.width) (h.rd_eq f.reg m u i)

theorem Reach.eng_eq {F : Nat} {s t : State} (h : Reach F s t) (m : F.testBit 5 = false) (e : Nat) : t.eng e = s.eng e :=
  congrArg (lookupD ({} : Engine) e) (h.same .engines m)

@[simp] theorem State.traceCmd_eng (s : State) (l ty e task opc index n d : Nat) : (s.traceCmd l ty e task opc index n).eng d = s.eng d :=
  (s.traceCmd_reach ..).eng_eq rfl d

@[simp] theorem State.traceCmd_lens (s : State) (l ty e task opc index n : Nat) : (s.traceCmd l ty e task opc index n).lens = s.lens :=
  (s.traceCmd_reach ..).same .lens rfl

@[simp] theorem State.traceCmd_chains (s : State) (l ty e task opc index n : Nat) :
    (s.traceCmd l ty e task opc index n).chains = s.chains := (s.traceCmd_reach ..).same .chains rfl

theorem State.traceCmd_rd {r : Reg} (h : r ≠ .ctrTraceLostCnt) (s : State) (l ty e task opc index n u i : Nat) :
    (s.traceCmd l ty e task opc index n).rd r u i = s.rd r u i := by
  refine (s.traceCmd_reach ..).rd_eq r ?_ u i
  cases r <;> first | rfl | exact absurd rfl h

theorem State.traceCmd_fld {f : Field} (h : f.reg ≠ .ctrTraceLostCnt) (s : State) (l ty e task opc index n u i : Nat) :
    (s.traceCmd l ty e task opc index n).fld f u i = s.fld f u i := congrArg (bitsOf · f.lo f.width) (State.traceCmd_rd h ..)

@[simp] theorem State.clamped_eng (s : State) (k n d : Nat) : (s.clamped k n).eng d = s.eng d := (s.clamped_reach ..).eng_eq rfl d

@[simp] theorem State.clamped_lens (s : State) (k n : Nat) : (s.clamped k n).lens = s.lens := (s.clamped_reach ..).same .lens rfl

theorem State.clamped_rd {r : Reg} (h : r ≠ .cluDescClampCnt) (s : State) (k n u i : Nat) : (s.clamped k n).rd r u i = s.rd r u i := by
  unfold State.clamped
  split
  · rfl
  · exact State.rd_bump_ne h ..

theorem State.clamped_fld {f : Field} (h : f.reg ≠ .cluDescClampCnt) (s : State) (k n u i : Nat) :
    (s.clamped k n).fld f u i = s.fld f u i :=
  congrArg (bitsOf · f.lo f.width) (State.clamped_rd h ..)

@[simp] theorem State.lensPutF32s_eng (s : State) (e : Nat) (l : List (Nat × F32)) (d : Nat) : (s.lensPutF32s e l).eng d = s.eng d :=
  (s.lensPutF32s_reach ..).eng_eq rfl d

@[simp] theorem State.lensPutF32s_rd (s : State) (e : Nat) (l : List (Nat × F32)) (r : Reg) (u i : Nat) :
    (s.lensPutF32s e l).rd r u i = s.rd r u i := by
  induction l generalizing s with
  | nil => rfl
  | cons p l ih => exact ih (s.lensPutF32 e p.1 p.2)

@[simp] theorem State.lensPutF32s_fld (s : State) (e : Nat) (l : List (Nat × F32)) (f : Field) (u i : Nat) :
    (s.lensPutF32s e l).fld f u i = s.fld f u i := congrArg (bitsOf · f.lo f.width) (s.lensPutF32s_rd ..)

/-! ## Issue -/

/-- A field of the array's status that issuing a pass does not write. -/
def Field.keptAtIssue (f : Field) : Bool :=
  f == engArrayStatusRamping || f == engArrayStatusWindowWait || f == engArrayStatusFrontStall || f == engArrayStatusEngagedCols

theorem State.issuePass_rd_issueCnt (s : State) (e : Nat) (c : PassCmd) (task index : Nat) :
    (s.issuePass e c task index).rd .engArrayIssueCnt e 0 = s.rd .engArrayIssueCnt e 0 + BitVec.ofNat 64 c.issueCycles := by
  unfold State.issuePass State.setArr
  simp (disch := decide) only [State.traceCmd_rd, State.setEng_rd, State.rd_bump_ne, State.lensPutF32s_rd,
    State.rd_setFld_ne, State.rd_bump_self]
  split
  · rw [State.rd_setFld_ne (by decide)]
  · rfl

theorem State.issuePass_fld_busy (s : State) (e : Nat) (c : PassCmd) (task index : Nat) :
    (s.issuePass e c task index).fld engArrayStatusBusy e = 1 := by
  unfold State.issuePass State.setArr
  simp (disch := decide) only [State.traceCmd_fld, State.setEng_fld, State.fld_bump_ne, State.lensPutF32s_fld,
    State.fld_setFld_apart, State.fld_setFld_self]
  rfl

theorem State.issuePass_fld_kept {f : Field} (hf : f.keptAtIssue = true) (s : State) (e : Nat) (c : PassCmd) (task index : Nat) :
    (s.issuePass e c task index).fld f e = s.fld f e := by
  simp only [Field.keptAtIssue, Bool.or_eq_true, beq_iff_eq] at hf
  unfold State.issuePass State.setArr
  rcases hf with ((rfl | rfl) | rfl) | rfl <;>
  · simp (disch := decide) only [State.traceCmd_fld, State.setEng_fld, State.fld_bump_ne, State.lensPutF32s_fld, State.fld_setFld_apart]
    split
    · rw [State.fld_setFld_apart _ _ _ _ _ _ (by decide) (by decide) (by decide)]
    · rfl

theorem State.issuePass_eng (s : State) (e : Nat) (c : PassCmd) (task index : Nat) : ∃ outs,
    (s.issuePass e c task index).eng e =
      { s.eng e with
        held := none
        flight := (s.eng e).flight ++ [{ cmd := c, task := task, index := index, results := outs }]
        lastIssue := c.issueCycles
        lastSixBit := !c.trans && fmtBits c.fmtM == 6
        issueLeft := (s.eng e).issueLeft + c.issueCycles
        rampProf := c.rampSel
        tileOpen := !c.last
        tileCycles := (s.eng e).tileCycles + c.issueCycles } := by
  unfold State.issuePass State.setArr
  have hswap : (if c.loadS then s.setFld engArrayStatusActiveBuf e 0 (1 - s.fld engArrayStatusActiveBuf e) else s).eng e = s.eng e := by
    split <;> rfl
  simp only [State.traceCmd_eng, State.eng_setEng_self, State.lensPutF32s_eng, State.setFld_eng, State.bump_eng, hswap]
  exact ⟨_, rfl⟩

/-! ## What passes read of the lens buffers -/

section
variable {s t : State} (hlens : t.lens = s.lens)
include hlens

theorem State.lensByte_congr (e a : Nat) : t.lensByte e a = s.lensByte e a := by
  rw [State.lensByte, State.lensByte, hlens]

theorem State.lensF32_congr (e a : Nat) : t.lensF32 e a = s.lensF32 e a := by
  simp only [State.lensF32, State.lensByte_congr hlens]

theorem State.lensPutF32_lens_congr (e a : Nat) (v : F32) : (t.lensPutF32 e a v).lens = (s.lensPutF32 e a v).lens := by
  simp only [State.lensPutF32, State.lensPut, hlens]

theorem State.lensPutF32s_lens_congr (e : Nat) (l : List (Nat × F32)) : (t.lensPutF32s e l).lens = (s.lensPutF32s e l).lens := by
  induction l generalizing s t with
  | nil => exact hlens
  | cons p l ih => exact ih (State.lensPutF32_lens_congr hlens e p.1 p.2)

theorem State.passElement_congr (e : Nat) (c : PassCmd) (b : StatBlock) (old : F32) (p m n : Nat) :
    t.passElement e c b old p m n = s.passElement e c b old p m n := by
  simp only [State.passElement, State.movingValue, State.lensByte_congr hlens]

theorem State.passUpdates_congr (e : Nat) (c : PassCmd) (b : StatBlock) {acc acc' : State} (hacc : acc'.lens = acc.lens)
    (l : List (Nat × Nat × Nat)) : t.passUpdates e c b acc' l = s.passUpdates e c b acc l := by
  induction l generalizing acc acc' with
  | nil => rfl
  | cons x l ih =>
    simp only [State.passUpdates, State.passElement_congr hlens, State.lensF32_congr hacc]
    rw [ih (State.lensPutF32_lens_congr hacc ..)]

/-- The values that a pass gives depend on the lens buffers only. -/
theorem State.passResults_congr (e : Nat) (c : PassCmd) (b : StatBlock) : t.passResults e c b = s.passResults e c b :=
  State.passUpdates_congr hlens e c b hlens _

end

/-- R109, R123, R141: a pass that loads no block leaves its values in the lens buffers. -/
theorem State.issuePass_lens {c : PassCmd} (hload : c.loadS = false) (s : State) (e task index : Nat) :
    (s.issuePass e c task index).lens = (s.lensPutF32s e (s.passResults e c (s.activeBuf e))).lens := by
  unfold State.issuePass State.setArr
  simp only [hload, Bool.false_eq_true, ↓reduceIte, State.traceCmd_lens, State.setEng_lens, State.bump_lens]
  exact (State.lensPutF32s_lens_congr (by rfl) e _).trans
    (congrArg (fun l => (s.lensPutF32s e l).lens) (State.passResults_congr (by rfl) e c _))

theorem setIn_eq_nil {lo n a b : Nat} {l : List Nat} (hl : ∀ k ∈ l, k < a ∨ b ≤ k) (hrun : n = 0 ∨ a ≤ lo ∧ lo + n ≤ b) :
    setIn lo n l = [] := by
  refine List.filter_eq_nil_iff.mpr fun k hk => ?_
  have := hl k hk
  simp only [Bool.and_eq_true, decide_eq_true_eq]
  omega

/-- R281: reads of lens buffers of which no byte fails its check bit find no error. -/
theorem State.lensParity_of_clean {s : State} {e : Nat} (hclean : LensClean s e) (c : Option (Chain × Nat))
    (reads : List (Nat × Nat × Nat)) : s.lensParity e c reads = (s, false) := by
  have hbad : (reads.filterMap fun r =>
      (setIn (2 ^ 48 + e * 2097152 + r.2.1) (min r.2.2 (lensSize - r.2.1)) s.badCheck).head?.map fun k =>
         (r.1, k - (2 ^ 48 + e * 2097152))) = [] := by
    refine List.filterMap_eq_nil_iff.mpr fun r _ => ?_
    rw [setIn_eq_nil hclean.1 (by simp only [lensSize]; omega)]
    rfl
  simp only [State.lensParity, hbad]
  rfl

/-- R283: a read of lens buffers of which no sector has the poison flag, from a sector's beginning, meets none. -/
theorem State.lensPoison_of_clean {s : State} {e a : Nat} (hclean : LensClean s e) (ha : 32 ∣ a) (n : Nat) :
    s.lensPoison e a n = false := by
  simp only [State.lensPoison]
  rw [setIn_eq_nil hclean.2 (by simp only [lensSize]; omega)]
  rfl

/-- A command whose reads begin at sectors of clean lens buffers runs (R283, R286). -/
theorem State.lensFaults_of_clean {s : State} {e : Nat} (hclean : LensClean s e) (task : Nat) {reads : List (Nat × Nat × Nat)}
    (hreads : ∀ r ∈ reads, 32 ∣ r.2.1) : s.lensFaults e task reads = (s, false) := by
  have hpoison : (reads.any fun r => s.lensPoison e r.2.1 r.2.2) = false :=
    List.any_eq_false.mpr fun r hr => by simp [State.lensPoison_of_clean hclean (hreads r hr)]
  unfold State.lensFaults
  simp only [State.lensParity_of_clean hclean, hpoison, Bool.false_eq_true, ↓reduceIte]
  split <;> rfl

/-- R111: a pass command gives its addresses in units of 64 bytes. -/
theorem PassCmd.lensReads_aligned (c : PassCmd) : ∀ r ∈ c.lensReads, 32 ∣ r.2.1 := by
  have hunit : ∀ n : Nat, 32 ∣ n * 64 := fun n => by omega
  have hstatics : ∀ r ∈ c.statics, 32 ∣ r.1 := by
    unfold PassCmd.statics
    split
    · split <;> simp [hunit]
    · simp
  have hmovings : ∀ r ∈ c.movings, 32 ∣ r.1 := by
    intro r hr
    obtain ⟨p, -, hp⟩ := List.mem_flatMap.mp hr
    obtain rfl | hscale := List.mem_cons.mp hp
    · exact hunit _
    · split at hscale
      · exact List.mem_singleton.mp hscale ▸ hunit _
      · cases hscale
  have haccs : ∀ r ∈ c.accs, 32 ∣ r.1 := by
    intro r hr
    obtain ⟨p, -, rfl⟩ := List.mem_map.mp hr
    exact hunit _
  intro r hr
  simp only [PassCmd.lensReads, List.mem_append, List.mem_map] at hr
  rcases hr with (⟨q, hq, rfl⟩ | ⟨q, hq, rfl⟩) | hr
  · exact hstatics q hq
  · exact hmovings q hq
  · split at hr
    · obtain ⟨q, hq, rfl⟩ := List.mem_map.mp hr
      exact haccs q hq
    · cases hr

/-! ## Taking a pass -/

@[simp] theorem State.clamped_power (s : State) (k n : Nat) : (s.clamped k n).power = s.power := (s.clamped_reach ..).same .power rfl

@[simp] theorem State.clamped_cyc (s : State) (k n : Nat) : (s.clamped k n).cyc = s.cyc := (s.clamped_reach ..).same .cyc rfl

theorem LensClean.clamped {s : State} {e : Nat} (h : LensClean s e) (k n : Nat) : LensClean (s.clamped k n) e := by
  have hcheck : (s.clamped k n).badCheck = s.badCheck := (s.clamped_reach ..).same .badCheck rfl
  have hpoison : (s.clamped k n).poison = s.poison := (s.clamped_reach ..).same .poison rfl
  rwa [LensClean, hcheck, hpoison]

/-- A pass as its engine takes it: the first pass of a tile, and one that asks for a block other than the current one, load theirs (R115,
R116). -/
def State.passTaken (s : State) (e : Nat) (w : Words4) : PassCmd :=
  let c := (parsePass w).1
  { c with loadS := c.loadS || (!(s.eng e).tileOpen || !(s.eng e).tilePass) || (!c.loadS && c.differs (s.activeBuf e)) }

/-- A pass that runs enters its tile, and its block is loaded (R116, R141). -/
def State.enterPass (s : State) (e task index : Nat) (c : PassCmd) : State :=
  let s := s.openTile e task 1 index
  let s := s.setEng e { s.eng e with tilePass := true }
  if c.loadS then s.loadStationary e c else s

/-- A pass taken and not issued. -/
def State.holdPass (s : State) (e task index : Nat) (c : PassCmd) (load : Nat) : State :=
  s.setEng e { s.eng e with held := some { cmd := c, task := task, index := index, loadCycles := load, rampCycles := 0 } }

/-- What becomes of a pass that has entered its tile while its array does not ramp: it is held for its load, for a droop or for the region's
ramp window, or issues (R147, R152, R767). -/
def State.placePass (s : State) (e task index : Nat) (c : PassCmd) : State :=
  let ls := if c.loadS then loadTime c.fmtS else 0
  if s.fld engArrayStatusEngagedCols e = 8 then
    if c.loadS ∧ 0 < (s.eng e).stall ls then (s.setArr engArrayStatusFrontStall e 1).holdPass e task index c ((s.eng e).stall ls)
    else if 0 < (s.powerDie (engDie e)).hold then s.holdPass e task index c 0
    else s.issuePass e c task index
  else
    let s := s.setArr engArrayStatusWindowWait e 1
    (s.setEng e { s.eng e with windowReq := s.cyc, windowWaited := 0 }).holdPass e task index c ls

theorem State.enterPass_reach (s : State) (e task index : Nat) (c : PassCmd) :
    Reach 0x20000000000000000000000000000000000000000000000000000000000000400020 s (s.enterPass e task index c) := by
  have hopen :=
    ((s.openTile_reach e task 1 index).then (State.setEng_reach _ e { (s.openTile e task 1 index).eng e with tilePass := true }) rfl)
  exact Reach.ite (hopen.then (State.loadStationary_reach ..) rfl) hopen

/-- A pass that loads no block changes nothing but its tile's mark where the tile is open. -/
theorem State.enterPass_of_open {s : State} {e : Nat} {c : PassCmd} (htile : (s.eng e).tileOpen = true) (hload : c.loadS = false)
    (task index : Nat) : s.enterPass e task index c = s.setEng e { s.eng e with tilePass := true } := by
  have hopen : s.openTile e task 1 index = s := if_pos htile
  simp [State.enterPass, hopen, hload]

/-- R138, R141: with clean lens buffers and no ramp running, a pass is taken, its clamps counted, its tile entered and the pass placed. -/
theorem State.beginPass_eq {s : State} {e : Nat} (hclean : LensClean s e) (hramp : s.fld engArrayStatusRamping e = 0) (task index : Nat)
    (w : Words4) : ∃ k, s.beginPass e task index w =
      ((s.clamped (engCluster e) k).enterPass e task index (s.passTaken e w)).placePass e task index (s.passTaken e w) := by
  refine ⟨(parsePass w).2 + b2n (!(parsePass w).1.loadS && (parsePass w).1.differs (s.activeBuf e)) +
    b2n (lensOver (s.passTaken e w).ranges), ?_⟩
  unfold State.beginPass
  split
  rename_i c0 n hparse
  extract_lets x first forced c s1
  have hc : s.passTaken e w = c := by simp only [State.passTaken, hparse]; rfl
  rw [hc, hparse, State.lensFaults_of_clean (hclean.clamped ..) _ (PassCmd.lensReads_aligned _)]
  dsimp -zeta only
  rw [if_neg Bool.false_ne_true]
  extract_lets opened src marked entered
  have hramp' : entered.fld engArrayStatusRamping e ≠ 1 := by
    have hkept : entered.fld engArrayStatusRamping e = s1.fld engArrayStatusRamping e :=
      (s1.enterPass_reach e task index c).fld_eq engArrayStatusRamping rfl e 0
    rw [hkept, State.clamped_fld (by decide), hramp]
    decide
  rw [if_neg hramp']
  rfl

/-- R138: where nothing stands before a pass of an open tile that keeps the current block, it issues. -/
theorem State.beginPass_issues {s : State} {e : Nat} {w : Words4} (hclean : LensClean s e) (htile : (s.eng e).tileOpen = true)
    (hpass : (s.eng e).tilePass = true) (hload : (parsePass w).1.loadS = false)
    (hsame : (parsePass w).1.differs (s.activeBuf e) = false) (hramp : s.fld engArrayStatusRamping e = 0)
    (hcols : s.fld engArrayStatusEngagedCols e = 8) (hhold : (s.powerDie (engDie e)).hold = 0) (task index : Nat) :
    ∃ k, s.beginPass e task index w =
      ((s.clamped (engCluster e) k).setEng e { s.eng e with tilePass := true }).issuePass e (parsePass w).1 task index := by
  have htaken : s.passTaken e w = (parsePass w).1 := by
    simp only [State.passTaken, hload, hsame, htile, hpass, Bool.not_true, Bool.or_false, Bool.and_false]
    rw [← hload]
  obtain ⟨k, hbegin⟩ := State.beginPass_eq hclean hramp task index w
  refine ⟨k, ?_⟩
  rw [hbegin, htaken, State.enterPass_of_open (by rwa [State.clamped_eng]) hload, State.clamped_eng]
  have hcols' : ((s.clamped (engCluster e) k).setEng e { s.eng e with tilePass := true }).fld engArrayStatusEngagedCols e = 8 := by
    rw [State.setEng_fld, State.clamped_fld (by decide), hcols]
  have hhold' : (((s.clamped (engCluster e) k).setEng e { s.eng e with tilePass := true }).powerDie (engDie e)).hold = 0 := by
    rw [← hhold, State.powerDie, State.setEng_power, State.clamped_power, State.powerDie]
  simp [State.placePass, hcols', hhold', hload]

/-- R152, R155: with no column engaged a pass waits for its region's ramp window from now on. -/
theorem State.beginPass_waits {s : State} {e : Nat} (hclean : LensClean s e) (hramp : s.fld engArrayStatusRamping e = 0)
    (hcols : s.fld engArrayStatusEngagedCols e = 0) (task index : Nat) (w : Words4) :
    (s.beginPass e task index w).fld engArrayStatusWindowWait e = 1 ∧ ((s.beginPass e task index w).eng e).held.isSome = true ∧
      ((s.beginPass e task index w).eng e).windowReq = s.cyc := by
  obtain ⟨k, hbegin⟩ := State.beginPass_eq hclean hramp task index w
  have henter := (s.clamped (engCluster e) k).enterPass_reach e task index (s.passTaken e w)
  have hcols' : ((s.clamped (engCluster e) k).enterPass e task index (s.passTaken e w)).fld engArrayStatusEngagedCols e ≠ 8 := by
    rw [henter.fld_eq engArrayStatusEngagedCols rfl, State.clamped_fld (by decide), hcols]
    decide
  have hcyc : ((s.clamped (engCluster e) k).enterPass e task index (s.passTaken e w)).cyc = s.cyc :=
    (henter.same .cyc rfl).trans (s.clamped_cyc ..)
  rw [hbegin]
  simp only [State.placePass, hcols', ↓reduceIte, State.holdPass, State.setArr, State.setEng_fld,
    State.eng_setEng_self, State.setFld_cyc, hcyc]
  exact ⟨State.fld_setFld_self _ _ _ _ _ (by decide), rfl, trivial⟩

/-! ## Taking a command -/

theorem QueuedCmd.reads_of_isMark {q : QueuedCmd} (h : q.isMark = true) : q.reads = [] := by
  have hpass : q.isPass = false := by
    simp only [QueuedCmd.isMark, Bool.or_eq_true, beq_iff_eq] at h
    rcases h with h | h <;> simp [QueuedCmd.isPass, h]
  simp [QueuedCmd.reads, hpass, h]

/-- On an open engine a pass or a mark, and what no pass in flight of its context precedes, does not wait (R162, R168, R331). -/
theorem State.cmdWaits_of_open {s : State} {e : Nat} {q : QueuedCmd} (hopen : EngineOpen s e q.task)
    (hq : q.isPass = true ∨ q.isMark = true ∨ ∀ f ∈ (s.eng e).flight, f.task ≠ q.task) : s.cmdWaits e [] q = false := by
  obtain ⟨-, hheld, -, hstopped, hloads⟩ := hopen
  have hflight : q.isPass = true ∨ ((s.eng e).flight.any fun f => f.task == q.task && rangesMeet f.cmd.accs q.reads) = false := by
    rcases hq with hpass | hmark | hfree
    · exact .inl hpass
    · exact .inr (by simp [QueuedCmd.reads_of_isMark hmark, rangesMeet])
    · exact .inr (List.any_eq_false.mpr fun f hf => by simp [hfree f hf])
  unfold State.cmdWaits
  rcases hflight with hpass | hflight
  · simp [hheld, hstopped, hloads, hpass]
  · simp [hheld, hstopped, hloads, hflight]

/-- An open engine begins at once what does not wait. -/
theorem State.takeCmd_of_open {s : State} {e task : Nat} {w : Words4} (hopen : EngineOpen s e task)
    (hw : s.cmdWaits e [] { words := w, task := task, index := ((s.eng e).countCmd task).1 } = false) :
    s.takeCmd e task w =
      (s.setEng e ((s.eng e).countCmd task).2).runCmd e { words := w, task := task, index := ((s.eng e).countCmd task).1 } := by
  obtain ⟨hruns, -, hqueue, -, -⟩ := hopen
  have hempty : ((s.eng e).countCmd task).2.queue = [] := hqueue
  unfold State.takeCmd
  simp only [hruns, hempty, hw, Bool.not_true, Bool.false_eq_true, ↓reduceIte]

theorem withOpc_opc (w : Words4) (opc : Nat) : bitsOf (withOpc w opc).w0 0 4 = opc % 16 := bitsOf_withBits_self _ _ _ _ (by decide)

/-- R109: an open engine begins a pass at once. -/
theorem State.takeCmd_pass {s : State} {e task : Nat} (hopen : EngineOpen s e task) (w : Words4) :
    s.takeCmd e task (withOpc w 1) =
      (s.setEng e ((s.eng e).countCmd task).2).beginPass e task ((s.eng e).countCmd task).1 (withOpc w 1) := by
  have hopc : bitsOf (withOpc w 1).w0 0 4 = 1 := withOpc_opc w 1
  rw [State.takeCmd_of_open hopen (State.cmdWaits_of_open hopen (.inl (by simp [QueuedCmd.isPass, QueuedCmd.opc, hopc])))]
  simp only [State.runCmd, hopc, ↓reduceIte]

/-- R331: an open engine ends its tile at once at a tile mark. -/
theorem State.takeCmd_mark {s : State} {e task : Nat} (hopen : EngineOpen s e task) :
    s.takeCmd e task ⟨0xE#64, 0#64, 0#64, 0#64⟩ =
      (s.setEng e ((s.eng e).countCmd task).2).runMark e task 0xE ((s.eng e).countCmd task).1 := by
  have hopc : bitsOf 0xE#64 0 4 = 0xE := by decide
  rw [State.takeCmd_of_open hopen (State.cmdWaits_of_open hopen (.inr (.inl (by simp [QueuedCmd.isMark, QueuedCmd.opc, hopc]))))]
  simp only [State.runCmd, hopc, ↓reduceIte, Nat.reduceEqDiff]

/-! ## What the end of a chain leaves of the engines -/

/-- An engine apart from the bookkeeping of its task contexts: the contexts that wait, and the commands that each has taken. -/
def Engine.array (x : Engine) : Engine := { x with waiters := [], cmdIdx := [] }

/-- Every engine is as before but for the bookkeeping of its task contexts. -/
structure ArraysKept (s t : State) : Prop where
  array_eq : ∀ e, (t.eng e).array = (s.eng e).array

theorem ArraysKept.refl (s : State) : ArraysKept s s := ⟨fun _ => rfl⟩

theorem ArraysKept.trans {r s t : State} (h : ArraysKept r s) (k : ArraysKept s t) : ArraysKept r t :=
  ⟨fun e => (k.array_eq e).trans (h.array_eq e)⟩

theorem ArraysKept.ite {r s t : State} {c : Prop} [Decidable c] (h : ArraysKept r s) (k : ArraysKept r t) :
    ArraysKept r (if c then s else t) := by
  split
  · exact h
  · exact k

theorem ArraysKept.foldl {β : Type} {f : State → β → State} (h : ∀ t x, ArraysKept t (f t x)) (l : List β) (s : State) :
    ArraysKept s (l.foldl f s) :=
  List.foldlRecOn l f (ArraysKept.refl s) fun t ht x _ => ht.trans (h t x)

theorem ArraysKept.setEng {s : State} {e : Nat} {x : Engine} (h : x.array = (s.eng e).array) : ArraysKept s (s.setEng e x) := by
  refine ⟨fun d => ?_⟩
  by_cases hd : d = e
  · rw [hd, State.eng_setEng_self, h]
  · rw [State.eng_setEng_ne hd]

theorem Reach.arraysKept {F : Nat} {s t : State} (h : Reach F s t) (m : F.testBit 5 = false) : ArraysKept s t :=
  ⟨fun e => congrArg Engine.array (h.eng_eq m e)⟩

theorem State.wr_arraysKept (s : State) (r : Reg) (u i : Nat) (v : Word) : ArraysKept s (s.wr r u i v) := ⟨fun _ => rfl⟩

theorem ArraysKept.queue_eq {s t : State} (h : ArraysKept s t) (e : Nat) : (t.eng e).queue = (s.eng e).queue := by
  show (t.eng e).array.queue = (s.eng e).array.queue
  rw [h.array_eq]

theorem State.takeContext_arraysKept (s : State) (c : Chain) (k : Nat) (g : Stage) : ArraysKept s (s.takeContext c k g) := by
  refine .trans ?_ (State.wr_arraysKept ..)
  exact .setEng rfl

theorem State.freeContext_arraysKept (s : State) (e task : Nat) : ArraysKept s (s.freeContext e task) := by
  refine .trans ?_ (State.wr_arraysKept ..)
  exact .setEng rfl

/-- R342: showing a context changes no more of the engines than the list of contexts that wait in one. -/
theorem State.showTask_engines (s : State) (c : Chain) (k : Nat) (g : Stage) : (s.showTask c k g).engines = s.engines ∨
    ∃ e l, (s.showTask c k g).engines = (s.setEng e { s.eng e with waiters := l }).engines := by
  unfold State.showTask
  split
  · exact .inl rfl
  · extract_lets e x ready st out waiters waiting item
    rw [State.setFld_engines, State.setFld_engines, State.setFld_engines]
    exact .inr ⟨e, waiters, rfl⟩

theorem State.showTask_eng (s : State) (c : Chain) (k : Nat) (g : Stage) (d : Nat) :
    { (s.showTask c k g).eng d with waiters := [] } = { s.eng d with waiters := [] } := by
  have hlook : ∀ {t u : State}, t.engines = u.engines → t.eng d = u.eng d := fun h => congrArg (lookupD ({} : Engine) d) h
  rcases s.showTask_engines c k g with h | ⟨e, l, h⟩
  · rw [hlook h]
  · rw [hlook h]
    by_cases hd : d = e
    · rw [hd, State.eng_setEng_self]
    · rw [State.eng_setEng_ne hd]

theorem State.showTasks_eng (s : State) (c : Chain) (d : Nat) :
    { (s.showTasks c).eng d with waiters := [] } = { s.eng d with waiters := [] } := by
  unfold State.showTasks
  refine List.foldlRecOn _ _ (motive := fun t => { State.eng t d with waiters := [] } = { s.eng d with waiters := [] }) rfl fun t ht k _ => ?_
  rw [← ht]
  split
  · exact t.showTask_eng ..
  · rfl

theorem State.showTasks_arraysKept (s : State) (c : Chain) : ArraysKept s (s.showTasks c) :=
  ⟨fun e => congrArg (fun x : Engine => { x with cmdIdx := [] }) (s.showTasks_eng c e)⟩

theorem State.takeContexts_arraysKept (s : State) (c : Chain) : ArraysKept s (s.takeContexts c) := by
  refine .foldl (fun t k => ?_) ..
  split
  · exact .ite (t.takeContext_arraysKept ..) (.refl t)
  · exact .refl t

theorem State.freeContexts_arraysKept (s : State) (c : Chain) : ArraysKept s (s.freeContexts c) :=
  .foldl (fun t _ => .ite (t.freeContext_arraysKept ..) (.refl t)) ..

theorem State.dropSaved_arraysKept (s : State) (c : Chain) : ArraysKept s (s.dropSaved c) :=
  ⟨(ArraysKept.foldl (fun t _ => t.freeContext_arraysKept ..) _ s).array_eq⟩

theorem State.grantContexts_arraysKept (s : State) : ArraysKept s s.grantContexts := by
  refine .foldl (fun t c => ?_) ..
  refine .ite ?_ (.refl t)
  exact ((((t.traceContext_reach ..).arraysKept rfl).trans ((State.setChain_reach ..).arraysKept rfl)).trans
    (State.takeContexts_arraysKept ..)).trans (State.showTasks_arraysKept ..)

theorem State.closeChain_arraysKept (s : State) (c : Chain) (status stage : Nat) : ArraysKept s (s.closeChain c status stage) := by
  unfold State.closeChain
  extract_lets item counted logged emptied traced freed dropped stopped
  have hemptied : ArraysKept s emptied :=
    (s.wr_arraysKept ..).trans
      (((State.logChain_reach ..).arraysKept rfl).trans ((State.emptyRings_reach ..).arraysKept rfl))
  have htraced : ArraysKept emptied traced := .ite ((State.traceContext_reach ..).arraysKept rfl) (.refl _)
  exact hemptied.trans (htraced.trans ((State.freeContexts_arraysKept ..).trans ((State.dropSaved_arraysKept ..).trans
    (((State.stopMsgs_reach ..).arraysKept rfl).trans ((State.dropChain_reach ..).arraysKept rfl)))))

theorem State.abortChain_arraysKept (s : State) (c : Chain) : ArraysKept s (s.abortChain c) :=
  .ite (s.closeChain_arraysKept ..) (.ite ((s.setChain_reach _).arraysKept rfl) (s.closeChain_arraysKept ..))

theorem State.abortOthers_arraysKept (s : State) (cluster launch : Nat) : ArraysKept s (s.abortOthers cluster launch) :=
  ⟨(ArraysKept.foldl (fun t c => t.abortChain_arraysKept c) _ s).array_eq⟩

theorem State.abortSeq_arraysKept (s : State) (cluster launch : Nat) : ArraysKept s (s.abortSeq cluster launch) :=
  (ArraysKept.foldl (fun t c => t.abortChain_arraysKept c) _ s).trans
    (((State.dropExtra_reach ..).arraysKept rfl).trans (((State.endSeq_reach ..).arraysKept rfl).trans (State.abortOthers_arraysKept ..)))

theorem State.failSeq_arraysKept (s : State) (cluster launch status : Nat) : ArraysKept s (s.failSeq cluster launch status) := by
  have hended : ArraysKept s ((((s.chains.filter fun d => d.launch == launch && d.cluster == cluster).foldl State.abortChain s).dropExtra
      cluster launch).endSeq cluster launch status) :=
    (ArraysKept.foldl (fun t c => t.abortChain_arraysKept c) _ s).trans
      (((State.dropExtra_reach ..).arraysKept rfl).trans ((State.endSeq_reach ..).arraysKept rfl))
  exact .ite hended (hended.trans (((State.noteFailure_reach ..).arraysKept rfl).trans (State.abortOthers_arraysKept ..)))

theorem State.advance_arraysKept (s : State) (cluster launch : Nat) : ArraysKept s (s.advance cluster launch) := by
  unfold State.advance
  extract_lets here promoted
  have hpromoted : ArraysKept s promoted := .ite ((s.promoteAhead_reach ..).arraysKept rfl) (.refl s)
  split
  · exact hpromoted.trans ((State.closeChain_arraysKept ..).trans ((State.seqDone_reach ..).arraysKept rfl))
  · exact hpromoted

theorem State.seqAfter_arraysKept (s : State) (c : Chain) (status : Nat) : ArraysKept s (s.seqAfter c status) := by
  refine .ite (((s.regenFailed_reach ..).arraysKept rfl).trans (State.failSeq_arraysKept ..)) (.ite ?_ ?_)
  · have hnoted : ArraysKept s (s.noteBackward c) := (s.noteBackward_reach c).arraysKept rfl
    show ArraysKept s (match (s.noteBackward c).findSeq c.cluster c.launch true with | some q => _ | none => _)
    split
    · exact hnoted.trans (.ite ((State.dropExtra_reach ..).arraysKept rfl) ((State.setSeq_reach ..).arraysKept rfl))
    · exact hnoted
  · exact ((s.seqDone_reach c).arraysKept rfl).trans (State.advance_arraysKept ..)

theorem State.endChain_arraysKept (s : State) (c : Chain) (status stage : Nat) : ArraysKept s (s.endChain c status stage) := by
  unfold State.endChain
  split
  · exact (s.closeChain_arraysKept ..).trans ((State.abortSeq_arraysKept ..).trans (State.grantContexts_arraysKept _))
  · exact (s.closeChain_arraysKept ..).trans ((State.seqAfter_arraysKept ..).trans (State.grantContexts_arraysKept _))

theorem State.endWrite_arraysKept (s : State) (c : Chain) (stage : Nat) : ArraysKept s (s.endWrite c stage) :=
  (s.clearFailed_reach.arraysKept rfl).trans (State.endChain_arraysKept ..)

theorem State.parkChain_arraysKept (s : State) (c : Chain) : ArraysKept s (s.parkChain c) :=
  ((s.emptyRings_reach c).arraysKept rfl).trans ((State.freeContexts_arraysKept ..).trans ((State.dropSaved_arraysKept ..).trans
    (((State.stopMsgs_reach ..).arraysKept rfl).trans (((State.setChain_reach ..).arraysKept rfl).trans (State.grantContexts_arraysKept _)))))

theorem State.settleAbort_arraysKept (s : State) (c : Chain) : ArraysKept s (s.settleAbort c) := by
  refine .ite (.refl s) ?_
  split
  · exact (s.closeChain_arraysKept ..).trans ((State.abortSeq_arraysKept ..).trans (State.grantContexts_arraysKept _))
  · exact .ite (s.parkChain_arraysKept c) (.refl s)

theorem State.closeStageTile_arraysKept (s : State) (e task : Nat) : ArraysKept s (s.closeStageTile e task) := by
  unfold State.closeStageTile
  split
  · exact ((State.setChain_reach ..).arraysKept rfl).trans ((State.showTasks_arraysKept ..).trans (State.settleAbort_arraysKept ..))
  · exact .refl s

/-! ## The end of a tile -/

theorem State.chainOfTask_congr {s t : State} (h : t.chains = s.chains) (e task : Nat) : t.chainOfTask e task = s.chainOfTask e task := by
  rw [State.chainOfTask, State.chainOfTask, h]

/-- R331: a mark ends the engine's tile, is traced, and ends the tile of the stage that holds the context. -/
theorem State.runMark_eq (s : State) (e task opc index : Nat) : ∃ level cycles,
    s.runMark e task opc index =
      ((s.setEng e { s.eng e with tileOpen := false }).traceCmd level 2 e task opc index cycles).closeStageTile e task := by
  unfold State.runMark
  extract_lets x marked traced
  by_cases hlevel : marked.traceLevel (engDie e) = 2
  · exact ⟨2, 0, by rw [show traced = _ from if_pos hlevel]⟩
  · exact ⟨1, x.tileCycles, by rw [show traced = _ from if_neg hlevel]⟩

theorem State.closeStageTile_of_none {s : State} {e task : Nat} (h : s.chainOfTask e task = none) : s.closeStageTile e task = s := by
  rw [State.closeStageTile, h]

/-- A chain with its stage's tile closed. -/
def Chain.closeTile (c : Chain) (k : Nat) : Chain := { c with stages := c.stages.modify k fun g => { g with tileOpen := false } }

/-- R331: the stage that holds the context is shown with its tile closed, where no abort or rerun waits for the tile. -/
theorem State.closeStageTile_of_some {s : State} {e task k : Nat} {c : Chain} (h : s.chainOfTask e task = some (c, k))
    (habort : c.aborting = none) (hstop : c.stopped = false) :
    s.closeStageTile e task = (s.setChain (c.closeTile k)).showTasks (c.closeTile k) := by
  have hsettled : ∀ t : State, t.settleAbort (c.closeTile k) = t := by
    intro t
    unfold State.settleAbort
    rw [show (c.closeTile k).aborting = none from habort, show (c.closeTile k).stopped = false from hstop]
    exact ite_self _
  rw [State.closeStageTile, h]
  exact hsettled _

/-- R331: a tile mark on an open engine ends the engine's tile, then the tile of the stage that holds the context. -/
theorem State.takeCmd_mark_closes {s : State} {e task : Nat} (hopen : EngineOpen s e task) : ∃ marked : State,
    marked.chains = s.chains ∧ marked.eng e = { ((s.eng e).countCmd task).2 with tileOpen := false } ∧
    s.takeCmd e task ⟨0xE#64, 0#64, 0#64, 0#64⟩ = marked.closeStageTile e task := by
  obtain ⟨level, cycles, hmark⟩ :=
    State.runMark_eq (s.setEng e ((s.eng e).countCmd task).2) e task 0xE ((s.eng e).countCmd task).1
  refine ⟨_, ?_, ?_, (State.takeCmd_mark hopen).trans hmark⟩
  · exact State.traceCmd_chains ..
  · rw [State.traceCmd_eng, State.eng_setEng_self, State.eng_setEng_self]

/-! ## The end of a pass -/

theorem State.writeOut_arraysKept (s : State) (e : Nat) (f : PassFlight) : ArraysKept s (s.writeOut e f) := by
  unfold State.writeOut
  split
  · exact .refl s
  · next c k _ =>
    split
    extract_lets clamps w counted masked
    have hw : ArraysKept s w.st := ((s.clamped_reach ..).arraysKept rfl).trans ((State.streamRows_reach ..).arraysKept rfl)
    have hcounted : ArraysKept s counted := hw.trans ((State.wr_arraysKept ..).trans (State.wr_arraysKept ..))
    have hmasked : ArraysKept s masked := .ite (hcounted.trans (State.wr_arraysKept ..)) hcounted
    exact .ite (hmasked.trans (State.endWrite_arraysKept ..)) hmasked

/-- R149: the oldest pass in flight complete and its products counted, before its WRITE_OUT runs and its tile ends. -/
def State.countPass (s : State) (e : Nat) (f : PassFlight) (rest : List PassFlight) : State :=
  let s := s.setEng e { s.eng e with flight := rest }
  let s := if rest = [] then s.setArr engArrayStatusBusy e 0 else s
  s.bump .engMacCnt e f.cmd.fmtS (partsOf f.cmd.split * f.cmd.mRows * f.cmd.kValid * f.cmd.nValid)

@[simp] theorem State.countPass_eng (s : State) (e : Nat) (f : PassFlight) (rest : List PassFlight) :
    (s.countPass e f rest).eng e = { s.eng e with flight := rest } := by
  unfold State.countPass
  rw [State.bump_eng]
  split
  · exact State.eng_setEng_self ..
  · exact State.eng_setEng_self ..

theorem State.countPass_rd_macCnt (s : State) (e : Nat) (f : PassFlight) (rest : List PassFlight) :
    (s.countPass e f rest).rd .engMacCnt e f.cmd.fmtS = s.rd .engMacCnt e f.cmd.fmtS +
      BitVec.ofNat 64 (partsOf f.cmd.split * f.cmd.mRows * f.cmd.kValid * f.cmd.nValid) := by
  unfold State.countPass
  rw [State.rd_bump_self]
  split
  · rw [State.setArr, State.rd_setFld_ne (by decide), State.setEng_rd]
  · rw [State.setEng_rd]

theorem State.countPass_fld_busy (s : State) (e : Nat) (f : PassFlight) : (s.countPass e f []).fld engArrayStatusBusy e = 0 := by
  unfold State.countPass
  rw [State.fld_bump_ne (by decide), if_pos rfl]
  exact State.fld_setFld_self _ _ _ _ _ (by decide)

/-- What completing a pass does once it is counted: its trace record, its WRITE_OUT and the end of its tile (R116, R121, R834). -/
def State.finishPass (s : State) (e : Nat) (f : PassFlight) (cycles : Nat) : State :=
  let s := if s.traceLevel (engDie e) = 2 then s.traceCmd 2 2 e f.task 1 f.index (f.cmd.issueCycles + 28)
           else if f.cmd.last then s.traceCmd 1 2 e f.task 1 f.index (cycles + 28) else s
  let s := if f.cmd.writeOut then s.writeOut e f else s
  if f.cmd.last then s.closeStageTile e f.task else s

theorem State.completePass_eq {s : State} {e : Nat} {f : PassFlight} {rest : List PassFlight} (hflight : (s.eng e).flight = f :: rest) :
    s.completePass e = (s.countPass e f rest).finishPass e f (s.eng e).tileCycles := by
  unfold State.completePass
  extract_lets x
  split
  · next h => cases hflight.symm.trans h
  · next g rest' h =>
    obtain ⟨rfl, rfl⟩ := List.cons.inj (h.symm.trans hflight)
    rfl

/-- What the trace, the write-out and the stage's end of a completed pass may reach. -/
abbrev finishPassReach : Nat := 0x40003000000000000000000000006001022011fe200d4120080840000000001002787cfd

theorem State.finishPass_reach (s : State) (e : Nat) (f : PassFlight) (cycles : Nat) :
    Reach finishPassReach s (s.finishPass e f cycles) := by
  unfold State.finishPass
  extract_lets traced written
  have htraced : Reach finishPassReach s traced :=
    .ite ((s.traceCmd_reach ..).mono rfl) (.ite ((s.traceCmd_reach ..).mono rfl) (.refl _ s))
  have hwritten : Reach 0x40003000000000000000000000006001022011fe200d4120080840000000001002787cfd s written :=
    .ite (htraced.then (traced.writeOut_reach ..) rfl) htraced
  exact .ite (hwritten.then (written.closeStageTile_reach ..) rfl) hwritten

theorem State.finishPass_arraysKept (s : State) (e : Nat) (f : PassFlight) (cycles : Nat) : ArraysKept s (s.finishPass e f cycles) := by
  unfold State.finishPass
  extract_lets traced written
  have htraced : ArraysKept s traced :=
    .ite ((s.traceCmd_reach ..).arraysKept rfl) (.ite ((s.traceCmd_reach ..).arraysKept rfl) (.refl s))
  have hwritten : ArraysKept s written := .ite (htraced.trans (traced.writeOut_arraysKept ..)) htraced
  exact .ite (hwritten.trans (written.closeStageTile_arraysKept ..)) hwritten

theorem State.finishPass_eng {f : PassFlight} (hout : f.cmd.writeOut = false) (hlast : f.cmd.last = false) (s : State) (e cycles d : Nat) :
    (s.finishPass e f cycles).eng d = s.eng d := by
  simp only [State.finishPass, hout, hlast, Bool.false_eq_true, ↓reduceIte]
  split
  · exact State.traceCmd_eng ..
  · rfl

theorem State.drain_of_empty {s : State} {e : Nat} (h : (s.eng e).queue = []) : s.drain e = s := by
  simp only [State.drain, h, List.length_nil, State.drainCmds]

end Sys2Proof.Machine
end

section
/-!
SUPPORT. The statements about the cube array (spec/03_cube_array.md): registers that LOCK protects, passes and tile marks, and the
array's ramps and stalls.
-/
namespace Sys2Proof.Machine

/-! ## Registers that LOCK protects (O12) -/

/-- R22: a register with bits of type RWL has no bits of type RW or RW1C. -/
theorem regInfo_of_rwl {r : Reg} (h : (regInfo r).rwl ≠ 0) : (regInfo r).rw = 0 ∧ (regInfo r).rw1c = 0 := by
  cases r <;> first | exact ⟨rfl, rfl⟩ | exact absurd rfl h

/-- R161: what a write leaves in a register whose bits are all locked is what it held. -/
theorem State.wrTyped_of_locked {s : State} {r : Reg} {u : Nat} (hlock : s.locked r u = true) (hrwl : (regInfo r).rwl ≠ 0) (i : Nat)
    (v : Word) : s.wrTyped r u i v = s.wr r u i (s.rd r u i) := by
  obtain ⟨hrw, hrw1c⟩ := regInfo_of_rwl hrwl
  simp only [State.wrTyped, hlock, hrw, hrw1c, ↓reduceIte, Nat.add_zero, BitVec.and_zero,
    BitVec.or_zero, BitVec.not_zero, BitVec.and_allOnes]

/-- A register at an offset lies in the block there. -/
theorem regPlace_eq_some {off u i : Nat} {r : Reg} (h : regPlace off = some (r, u, i)) :
    blockAt (off / 65536) = some ((regInfo r).block, u) ∧ i < (regInfo r).count := by
  obtain ⟨⟨b, w⟩, hblock, hfound⟩ := Option.bind_eq_some_iff.mp h
  obtain ⟨q, hq, hplace⟩ := Option.map_eq_some_iff.mp hfound
  obtain ⟨rfl, rfl, rfl⟩ : q = r ∧ w = u ∧ _ = i := by simpa using hplace
  have hat := List.find?_some hq
  simp only [regAt, Bool.and_eq_true, beq_iff_eq, decide_eq_true_eq] at hat
  obtain ⟨⟨⟨hb, -⟩, -⟩, hcount⟩ := hat
  exact ⟨hb ▸ hblock, hcount⟩

/-- R629: each die has one BEAM_ block. -/
theorem blockAt_beam {n u : Nat} (h : blockAt n = some (.beam, u)) : u = 0 ∨ u = 1 := by
  have hdie : ∀ die k, dieBlock die k = some (.beam, u) → u = die := by
    intro die k hk
    unfold dieBlock at hk
    split at hk
    · cases hk
    · split at hk <;> simp_all
  unfold blockAt at h
  split at h
  · split at h <;> cases h
  split at h
  · cases h
  split at h
  · cases h
  split at h
  · have := hdie _ _ h
    omega
  split at h
  · cases h
  split at h
  · cases h
  split at h
  · cases h
  split at h <;> cases h

/-- A typed write of another register leaves a register. -/
theorem State.rd_wrTyped_ne {q r : Reg} (h : r ≠ q) (s : State) (w j u i : Nat) (v : Word) : (s.wrTyped q w j v).rd r u i = s.rd r u i :=
  State.rd_wr_ne h ..

theorem State.rd_wrTyped_of_locked {s : State} {r : Reg} {u : Nat} (hlock : s.locked r u = true) (hrwl : (regInfo r).rwl ≠ 0) (i : Nat)
    (v : Word) : (s.wrTyped r u i v).rd r u i = s.rd r u i := by
  rw [State.wrTyped_of_locked hlock hrwl, State.rd_wr_self]

/-- BEAM_TABLE is written on both dies, each by its own LOCK. -/
theorem State.rd_beamTable_of_locked {s : State} {u : Nat} (hu : u = 0 ∨ u = 1) (hlock : s.locked .beamTable u = true) (v : Word) :
    ((s.wrTyped .beamTable 0 0 v).wrTyped .beamTable 1 0 v).rd .beamTable u 0 = s.rd .beamTable u 0 := by
  have hrwl : (regInfo .beamTable).rwl ≠ 0 := by decide
  have hother : ∀ (t : State) (a b : Nat) (w : Word), a % 128 ≠ b % 128 →
      (t.wr .beamTable b 0 w).rd .beamTable a 0 = t.rd .beamTable a 0 :=
    fun t a b w h => State.rd_wr_place t .beamTable w (.inl h)
  rcases hu with rfl | rfl
  · calc _ = (s.wrTyped .beamTable 0 0 v).rd .beamTable 0 0 := hother _ _ _ _ (by decide)
      _ = s.rd .beamTable 0 0 := State.rd_wrTyped_of_locked hlock hrwl 0 v
  · have hkept : (s.wrTyped .beamTable 0 0 v).rd .beamTable 1 0 = s.rd .beamTable 1 0 := hother _ _ _ _ (by decide)
    have hlock' : (s.wrTyped .beamTable 0 0 v).locked .beamTable 1 = true := by
      rw [← hlock]
      exact congrArg (fun w => bitsOf w beamTableLock.lo beamTableLock.width == 1) hkept
    rw [State.rd_wrTyped_of_locked hlock' hrwl, hkept]

/-- A write of a register whose block is locked keeps the register, if all it can store is locked, and every descriptor clamp counter. -/
theorem State.regWrite_of_locked {s : State} {off u i : Nat} {r : Reg} (hplace : regPlace off = some (r, u, i))
    (hlock : s.locked r u = true) (hrwl : (regInfo r).rwl ≠ 0) (v : Word) :
    (s.regWrite r u i v).rd r u i = s.rd r u i ∧ ∀ k, (s.regWrite r u i v).rd .cluDescClampCnt k 0 = s.rd .cluDescClampCnt k 0 := by
  obtain ⟨hblock, hi⟩ := regPlace_eq_some hplace
  have htyped (hne : Reg.cluDescClampCnt ≠ r) (heq : s.regWrite r u i v = s.wrTyped r u i v) :
      (s.regWrite r u i v).rd r u i = s.rd r u i ∧ ∀ k, (s.regWrite r u i v).rd .cluDescClampCnt k 0 = s.rd .cluDescClampCnt k 0 := by
    rw [heq]
    exact ⟨State.rd_wrTyped_of_locked hlock hrwl i v, fun k => State.rd_wrTyped_ne hne ..⟩
  cases r with
  | engArrayCfg | galCfg | galBankCap | galOwnerWeight => exact htyped (by decide) rfl
  | engRampProf =>
    have hnone : s.regWrite .engRampProf u i v = s := if_pos hlock
    simp [hnone]
  | beamTable =>
    obtain rfl : i = 0 := Nat.lt_one_iff.mp hi
    exact ⟨State.rd_beamTable_of_locked (blockAt_beam hblock) hlock v,
      fun k => (State.rd_wrTyped_ne (by decide) ..).trans (State.rd_wrTyped_ne (by decide) ..)⟩
  | _ => exact absurd rfl hrwl

/-- Settles O12: a write under LOCK leaves the register's word. -/
theorem lockedFieldsKeepTheirValue : Obligations.LockedFieldsKeepTheirValue := by
  intro s addr value off r u i ⟨hphys, hplace, hlock, hrwl⟩
  refine ⟨s.regWrite r u i value, ?_, ?_⟩
  · show execRegisterWrite addr value s = _
    simp only [execRegisterWrite, State.cfgWrite, hphys, hplace]
  · obtain ⟨hkept, hclamp⟩ := State.regWrite_of_locked hplace hlock hrwl value
    simp [hkept, hclamp]

/-! ## PASS (O14) -/

/-- R138, R141, R143: where nothing stands before a pass that loads no block, the engine issues it. -/
theorem State.takeCmd_pass_issues {s : State} {e task : Nat} {w : Words4} (hopen : EngineOpen s e task) (hclean : LensClean s e)
    (htile : (s.eng e).tileOpen = true) (hpass : (s.eng e).tilePass = true) (hload : (parsePass (withOpc w 1)).1.loadS = false)
    (hsame : (parsePass (withOpc w 1)).1.differs (s.activeBuf e) = false) (hramp : s.fld engArrayStatusRamping e = 0)
    (hcols : s.fld engArrayStatusEngagedCols e = 8) (hhold : (s.powerDie (engDie e)).hold = 0) :
    ∃ k, s.takeCmd e task (withOpc w 1) =
      (((s.setEng e ((s.eng e).countCmd task).2).clamped (engCluster e) k).setEng e
        { ((s.eng e).countCmd task).2 with tilePass := true }).issuePass e (parsePass (withOpc w 1)).1 task ((s.eng e).countCmd task).1 := by
  have hbuf : (s.setEng e ((s.eng e).countCmd task).2).activeBuf e = s.activeBuf e := by
    simp only [State.activeBuf, State.eng_setEng_self, State.setEng_fld, Engine.countCmd]
  obtain ⟨k, hbegin⟩ := State.beginPass_issues (s := s.setEng e ((s.eng e).countCmd task).2) (w := withOpc w 1) hclean
    (by rwa [State.eng_setEng_self]) (by rwa [State.eng_setEng_self]) hload (by rwa [hbuf]) hramp hcols hhold task ((s.eng e).countCmd task).1
  refine ⟨k, ?_⟩
  rw [State.takeCmd_pass hopen, hbegin, State.eng_setEng_self]

theorem pass_issues {s : State} {e : EngId} {task : Fin 4} {w : Words4} (hopen : EngineOpen s (EngIdIdx e) task.val)
    (hclean : LensClean s (EngIdIdx e)) (htile : (s.eng (EngIdIdx e)).tileOpen = true) (hpass : (s.eng (EngIdIdx e)).tilePass = true)
    (hload : (parsePass (withOpc w 1)).1.loadS = false)
    (hsame : (parsePass (withOpc w 1)).1.differs (s.activeBuf (EngIdIdx e)) = false)
    (hramp : s.fld engArrayStatusRamping (EngIdIdx e) = 0) (hcols : s.fld engArrayStatusEngagedCols (EngIdIdx e) = 8)
    (hhold : (s.powerDie (engDie (EngIdIdx e))).hold = 0) :
    Gives (.pass e task w) s fun t =>
      t.rd .engArrayIssueCnt (EngIdIdx e) 0 =
        s.rd .engArrayIssueCnt (EngIdIdx e) 0 + BitVec.ofNat 64 (parsePass (withOpc w 1)).1.issueCycles ∧
      t.fld engArrayStatusBusy (EngIdIdx e) = 1 ∧
      (t.eng (EngIdIdx e)).flight.map (·.cmd) = (s.eng (EngIdIdx e)).flight.map (·.cmd) ++ [(parsePass (withOpc w 1)).1] ∧
      t.lens = (s.lensPutF32s (EngIdIdx e) (s.passResults (EngIdIdx e) (parsePass (withOpc w 1)).1 (s.activeBuf (EngIdIdx e)))).lens := by
  obtain ⟨k, htaken⟩ := State.takeCmd_pass_issues hopen hclean htile hpass hload hsame hramp hcols hhold
  refine ⟨_, congrArg Host.Outcome.next htaken, ?_, State.issuePass_fld_busy .., ?_, ?_⟩
  · rw [State.issuePass_rd_issueCnt, State.setEng_rd, State.clamped_rd (by decide), State.setEng_rd]
  · obtain ⟨outs, heng⟩ := State.issuePass_eng _ (EngIdIdx e) (parsePass (withOpc w 1)).1 task.val _
    rw [heng, State.eng_setEng_self, List.map_append]
    rfl
  · rw [State.issuePass_lens hload]
    have hlens : (((s.setEng (EngIdIdx e) ((s.eng (EngIdIdx e)).countCmd task.val).2).clamped (engCluster (EngIdIdx e)) k).setEng (EngIdIdx e)
        { ((s.eng (EngIdIdx e)).countCmd task.val).2 with tilePass := true }).lens = s.lens := State.clamped_lens ..
    rw [State.lensPutF32s_lens_congr hlens, State.passResults_congr hlens]
    simp only [State.activeBuf, State.eng_setEng_self, State.setEng_fld, State.clamped_fld (f := engArrayStatusActiveBuf) (by decide),
      Engine.countCmd]

theorem pass_waits {s : State} {e : EngId} {task : Fin 4} (w : Words4) (hopen : EngineOpen s (EngIdIdx e) task.val)
    (hclean : LensClean s (EngIdIdx e)) (hramp : s.fld engArrayStatusRamping (EngIdIdx e) = 0)
    (hcols : s.fld engArrayStatusEngagedCols (EngIdIdx e) = 0) :
    Gives (.pass e task w) s fun t =>
      t.fld engArrayStatusWindowWait (EngIdIdx e) = 1 ∧ (t.eng (EngIdIdx e)).held.isSome = true ∧
      (t.eng (EngIdIdx e)).windowReq = s.cyc :=
  ⟨_, congrArg Host.Outcome.next (State.takeCmd_pass hopen w),
    State.beginPass_waits (s := s.setEng (EngIdIdx e) ((s.eng (EngIdIdx e)).countCmd task.val).2) hclean hramp hcols ..⟩

/-! ## TILE_MARK and PASS_COMPLETE (O14) -/

theorem tileMark_ends {s : State} {e : EngId} {task : Fin 4} (hopen : EngineOpen s (EngIdIdx e) task.val)
    (hchain : s.chainOfTask (EngIdIdx e) task.val = none) :
    Gives (.tileMark e task) s fun t =>
      t.eng (EngIdIdx e) = { ((s.eng (EngIdIdx e)).countCmd task.val).2 with tileOpen := false } := by
  obtain ⟨marked, hchains, heng, htaken⟩ := State.takeCmd_mark_closes hopen
  refine ⟨_, congrArg Host.Outcome.next htaken, ?_⟩
  rw [State.closeStageTile_of_none ((State.chainOfTask_congr hchains ..).trans hchain)]
  exact heng

theorem tileMark_closes {s : State} {e : EngId} {task : Fin 4} {c : Chain} {k : Nat} (hopen : EngineOpen s (EngIdIdx e) task.val)
    (hchain : s.chainOfTask (EngIdIdx e) task.val = some (c, k)) (habort : c.aborting = none) (hstop : c.stopped = false) :
    Gives (.tileMark e task) s fun t =>
      { t.eng (EngIdIdx e) with waiters := [] } =
        { ((s.eng (EngIdIdx e)).countCmd task.val).2 with tileOpen := false, waiters := [] } ∧
      t.chains = s.chains.map fun x => if x.same (c.closeTile k) then c.closeTile k else x := by
  obtain ⟨marked, hchains, heng, htaken⟩ := State.takeCmd_mark_closes hopen
  refine ⟨_, congrArg Host.Outcome.next htaken, ?_⟩
  rw [State.closeStageTile_of_some ((State.chainOfTask_congr hchains ..).trans hchain) habort hstop]
  constructor
  · rw [State.showTasks_eng, State.setChain_eng, heng]
  · rw [← hchains]
    exact (State.showTasks_reach ..).same .chains rfl

theorem passComplete_counts {s : State} {e : EngId} {f : PassFlight} {rest : List PassFlight}
    (hflight : (s.eng (EngIdIdx e)).flight = f :: rest) (hqueue : (s.eng (EngIdIdx e)).queue = []) :
    Gives (.passComplete e) s fun t =>
      t.rd .engMacCnt (EngIdIdx e) f.cmd.fmtS = s.rd .engMacCnt (EngIdIdx e) f.cmd.fmtS +
        BitVec.ofNat 64 (partsOf f.cmd.split * f.cmd.mRows * f.cmd.kValid * f.cmd.nValid) ∧
      (rest = [] → t.fld engArrayStatusBusy (EngIdIdx e) = 0) ∧
      (f.cmd.writeOut = false ∧ f.cmd.last = false → t.eng (EngIdIdx e) = { s.eng (EngIdIdx e) with flight := rest }) := by
  have hreach := (s.countPass (EngIdIdx e) f rest).finishPass_reach (EngIdIdx e) f (s.eng (EngIdIdx e)).tileCycles
  have hempty :
      (((s.countPass (EngIdIdx e) f rest).finishPass (EngIdIdx e) f (s.eng (EngIdIdx e)).tileCycles).eng (EngIdIdx e)).queue = [] := by
    rw [(State.finishPass_arraysKept ..).queue_eq, State.countPass_eng]
    exact hqueue
  have heffect : passCompleteEffect e s = (s.countPass (EngIdIdx e) f rest).finishPass (EngIdIdx e) f (s.eng (EngIdIdx e)).tileCycles := by
    rw [passCompleteEffect, State.completePass_eq hflight, State.drain_of_empty hempty]
  refine ⟨_, congrArg Host.Outcome.next heffect, ?_, ?_, ?_⟩
  · rw [hreach.rd_eq .engMacCnt rfl, State.countPass_rd_macCnt]
  · rintro rfl
    rw [hreach.fld_eq engArrayStatusBusy rfl, State.countPass_fld_busy]
  · rintro ⟨hout, hlast⟩
    rw [State.finishPass_eng hout hlast, State.countPass_eng]

/-- Settles O14: a pass issues or waits for its window; a mark ends the tile, with or without a chain; a pass completes. -/
theorem passIssuesAndEndsTiles : Obligations.PassIssuesAndEndsTiles := by
  refine ⟨?_, ?_, ?_, ?_, ?_⟩
  · intro s e task w c ⟨hopen, hclean⟩ ⟨htile, hpass⟩ ⟨hload, hsame⟩ ⟨hramp, hcols⟩ hhold
    exact pass_issues hopen hclean htile hpass hload hsame hramp hcols hhold
  · intro s e task w ⟨hopen, hclean⟩ ⟨hramp, hcols⟩
    exact pass_waits w hopen hclean hramp hcols
  · intro s e task hopen hchain
    exact tileMark_ends hopen hchain
  · intro s e task c k d hopen hchain ⟨habort, hstop⟩
    exact tileMark_closes hopen hchain habort hstop
  · intro s e f rest ⟨hflight, hqueue⟩
    exact passComplete_counts hflight hqueue

/-! ## The held pass issues (O15) -/

/-- R138: a pass whose ramp or load is over issues, where nothing is queued behind it and its die has no droop hold. -/
theorem State.holdOver_issues {s : State} {e : Nat} (hqueue : (s.eng e).queue = []) (hhold : (s.powerDie (engDie e)).hold = 0)
    (h : HeldPass) : s.holdOver e h = (s.setEng e { s.eng e with issueLeft := 0 }).issuePass e h.cmd h.task h.index := by
  have hempty : (((s.setEng e { s.eng e with issueLeft := 0 }).issuePass e h.cmd h.task h.index).eng e).queue = [] := by
    obtain ⟨outs, heng⟩ := State.issuePass_eng (s.setEng e { s.eng e with issueLeft := 0 }) e h.cmd h.task h.index
    rw [heng, State.eng_setEng_self]
    exact hqueue
  rw [State.holdOver, hhold, if_neg (Nat.lt_irrefl 0), State.issueHeld, State.drain_of_empty hempty]

/-- What the issue of a held pass leaves in its engine and its status. -/
theorem State.holdOver_spec {s : State} {e : Nat} (hqueue : (s.eng e).queue = []) (hhold : (s.powerDie (engDie e)).hold = 0) (h : HeldPass) :
    (s.holdOver e h).rd .engArrayIssueCnt e 0 = s.rd .engArrayIssueCnt e 0 + BitVec.ofNat 64 h.cmd.issueCycles ∧
    ((s.holdOver e h).eng e).held = none ∧ ∀ f : Field, f.keptAtIssue = true → (s.holdOver e h).fld f e = s.fld f e := by
  obtain ⟨outs, heng⟩ := State.issuePass_eng (s.setEng e { s.eng e with issueLeft := 0 }) e h.cmd h.task h.index
  rw [State.holdOver_issues hqueue hhold, State.issuePass_rd_issueCnt, State.setEng_rd, heng]
  exact ⟨rfl, rfl, fun f hf => State.issuePass_fld_kept hf ..⟩

/-! ## The end of a stationary load (O15) -/

/-- R147, R864: the load that held a pass has ended, and its cycles are counted. -/
def State.endLoad (s : State) (e : Nat) (h : HeldPass) : State :=
  ((s.setArr engArrayStatusFrontStall e 0).bump .engArrayFrontStallCnt e 0 h.loadCycles).setEng e
    { s.eng e with tileCycles := (s.eng e).tileCycles + h.loadCycles }

theorem stationaryLoadDoneEffect_eq {s : State} {e : EngId} {h : HeldPass} (hheld : (s.eng (EngIdIdx e)).held = some h)
    (hstall : s.fld engArrayStatusFrontStall (EngIdIdx e) = 1) :
    stationaryLoadDoneEffect e s = (s.endLoad (EngIdIdx e) h).holdOver (EngIdIdx e) h := by
  unfold stationaryLoadDoneEffect
  extract_lets n x
  split
  · next g hg =>
    obtain rfl : g = h := Option.some.inj (hg.symm.trans hheld)
    exact if_pos hstall
  · next hg => cases hg.symm.trans hheld

theorem stationaryLoadDone_issues {s : State} {e : EngId} {h : HeldPass} (hheld : (s.eng (EngIdIdx e)).held = some h)
    (hqueue : (s.eng (EngIdIdx e)).queue = []) (hhold : (s.powerDie (engDie (EngIdIdx e))).hold = 0)
    (hstall : s.fld engArrayStatusFrontStall (EngIdIdx e) = 1) :
    Gives (.stationaryLoadDone e) s fun t =>
      t.rd .engArrayFrontStallCnt (EngIdIdx e) 0 = s.rd .engArrayFrontStallCnt (EngIdIdx e) 0 + BitVec.ofNat 64 h.loadCycles ∧
      t.fld engArrayStatusFrontStall (EngIdIdx e) = 0 ∧
      t.rd .engArrayIssueCnt (EngIdIdx e) 0 = s.rd .engArrayIssueCnt (EngIdIdx e) 0 + BitVec.ofNat 64 h.cmd.issueCycles ∧
      (t.eng (EngIdIdx e)).held = none := by
  refine ⟨_, congrArg Host.Outcome.next (stationaryLoadDoneEffect_eq hheld hstall), ?_⟩
  have hqueue' : ((s.endLoad (EngIdIdx e) h).eng (EngIdIdx e)).queue = [] := by
    rw [State.endLoad, State.eng_setEng_self]
    exact hqueue
  obtain ⟨hissued, hnone, hkept⟩ := State.holdOver_spec (s := s.endLoad (EngIdIdx e) h) hqueue' hhold h
  refine ⟨?_, ?_, ?_, hnone⟩
  · rw [State.holdOver_issues hqueue' hhold, (State.issuePass_reach ..).rd_eq .engArrayFrontStallCnt rfl, State.setEng_rd, State.endLoad,
      State.setEng_rd, State.rd_bump_self, State.setArr, State.rd_setFld_ne (by decide)]
  · rw [hkept _ (by decide), State.endLoad, State.setEng_fld, State.fld_bump_ne (by decide)]
    exact State.fld_setFld_self _ _ _ _ _ (by decide)
  · rw [hissued, State.endLoad, State.setEng_rd, State.rd_bump_ne (by decide), State.setArr, State.rd_setFld_ne (by decide)]

/-! ## The end of a ramp-up (O15) -/

/-- R152, R153: every column is engaged, and the array does not ramp. -/
def State.endRamp (s : State) (e : Nat) : State :=
  ((s.setArr engArrayStatusRamping e 0).setArr engArrayStatusEngagedCols e 8).setEng e { s.eng e with rampUp := false }

theorem State.endRamp_status (s : State) (e : Nat) :
    (s.endRamp e).fld engArrayStatusEngagedCols e = 8 ∧ (s.endRamp e).fld engArrayStatusRamping e = 0 := by
  unfold State.endRamp State.setArr
  simp (disch := decide) only [State.setEng_fld, State.fld_setFld_apart, State.fld_setFld_self]
  decide

theorem rampUpEndEffect_eq {s : State} {e : EngId} {h : HeldPass} (hheld : (s.eng (EngIdIdx e)).held = some h)
    (hup : (s.eng (EngIdIdx e)).rampUp = true) (hramp : s.fld engArrayStatusRamping (EngIdIdx e) = 1) :
    rampUpEndEffect e s =
      if 0 < h.loadCycles - h.rampCycles then
        ((s.endRamp (EngIdIdx e)).setArr engArrayStatusFrontStall (EngIdIdx e) 1).setEng (EngIdIdx e)
          { (s.endRamp (EngIdIdx e)).eng (EngIdIdx e) with held := some { h with loadCycles := h.loadCycles - h.rampCycles } }
      else (s.endRamp (EngIdIdx e)).holdOver (EngIdIdx e) h := by
  unfold rampUpEndEffect
  extract_lets n x
  split
  · next g hg =>
    obtain rfl : g = h := Option.some.inj (hg.symm.trans hheld)
    exact if_pos (by rw [hramp, hup]; rfl)
  · next hg => cases hg.symm.trans hheld

theorem rampUpEnd_issues {s : State} {e : EngId} {h : HeldPass} (hheld : (s.eng (EngIdIdx e)).held = some h)
    (hqueue : (s.eng (EngIdIdx e)).queue = []) (hup : (s.eng (EngIdIdx e)).rampUp = true)
    (hhold : (s.powerDie (engDie (EngIdIdx e))).hold = 0) (hramp : s.fld engArrayStatusRamping (EngIdIdx e) = 1)
    (hover : h.loadCycles ≤ h.rampCycles) :
    Gives (.rampUpEnd e) s fun t =>
      (t.fld engArrayStatusEngagedCols (EngIdIdx e) = 8 ∧ t.fld engArrayStatusRamping (EngIdIdx e) = 0) ∧
      t.rd .engArrayIssueCnt (EngIdIdx e) 0 = s.rd .engArrayIssueCnt (EngIdIdx e) 0 + BitVec.ofNat 64 h.cmd.issueCycles ∧
      (t.eng (EngIdIdx e)).held = none := by
  have heffect : rampUpEndEffect e s = (s.endRamp (EngIdIdx e)).holdOver (EngIdIdx e) h :=
    (rampUpEndEffect_eq hheld hup hramp).trans (if_neg (by omega))
  refine ⟨_, congrArg Host.Outcome.next heffect, ?_⟩
  have hqueue' : ((s.endRamp (EngIdIdx e)).eng (EngIdIdx e)).queue = [] := by
    rw [State.endRamp, State.eng_setEng_self]
    exact hqueue
  obtain ⟨hissued, hnone, hkept⟩ := State.holdOver_spec (s := s.endRamp (EngIdIdx e)) hqueue' hhold h
  refine ⟨?_, ?_, hnone⟩
  · rw [hkept _ (by decide), hkept _ (by decide)]
    exact s.endRamp_status _
  · rw [hissued, State.endRamp, State.setEng_rd, State.setArr, State.rd_setFld_ne (by decide), State.setArr, State.rd_setFld_ne (by decide)]

theorem rampUpEnd_stalls {s : State} {e : EngId} {h : HeldPass} (hheld : (s.eng (EngIdIdx e)).held = some h)
    (hup : (s.eng (EngIdIdx e)).rampUp = true) (hramp : s.fld engArrayStatusRamping (EngIdIdx e) = 1) (hleft : h.rampCycles < h.loadCycles) :
    Gives (.rampUpEnd e) s fun t =>
      (t.fld engArrayStatusEngagedCols (EngIdIdx e) = 8 ∧ t.fld engArrayStatusRamping (EngIdIdx e) = 0) ∧
      t.fld engArrayStatusFrontStall (EngIdIdx e) = 1 ∧
      (t.eng (EngIdIdx e)).held = some { h with loadCycles := h.loadCycles - h.rampCycles } := by
  refine ⟨_, congrArg Host.Outcome.next ((rampUpEndEffect_eq hheld hup hramp).trans (if_pos (by omega))), ?_, ?_, ?_⟩
  · rw [State.setEng_fld, State.setEng_fld, State.setArr]
    simp (disch := decide) only [State.fld_setFld_apart]
    exact s.endRamp_status _
  · rw [State.setEng_fld]
    exact State.fld_setFld_self _ _ _ _ _ (by decide)
  · rw [State.eng_setEng_self]

/-! ## Ramping down (O15) -/

theorem State.fld_engagedCols_lt (s : State) (e : Nat) : s.fld engArrayStatusEngagedCols e < 16 := Nat.mod_lt _ (by decide)

theorem arrayRampDown_releases {s : State} {e : EngId} {idle : BitVec 16} (hflight : (s.eng (EngIdIdx e)).flight = [])
    (hheld : (s.eng (EngIdIdx e)).held = none) (hcols : 0 < s.fld engArrayStatusEngagedCols (EngIdIdx e))
    (hidle : Nat.max 1 (s.fld engArrayCfgIdleRelease (EngIdIdx e)) ≤ idle.toNat) :
    let per := s.rampCols (EngIdIdx e) (s.eng (EngIdIdx e)).rampProf
    let left := (s.fld engArrayStatusEngagedCols (EngIdIdx e) - 1) / per * per
    Gives (.arrayRampDown e idle) s fun t =>
      t.fld engArrayStatusEngagedCols (EngIdIdx e) = left ∧
      t.fld engArrayStatusRamping (EngIdIdx e) = (if 0 < left then 1 else 0) := by
  intro per left
  have hleft : left < 16 := by
    have := s.fld_engagedCols_lt (EngIdIdx e)
    have : left ≤ s.fld engArrayStatusEngagedCols (EngIdIdx e) - 1 := Nat.div_mul_le_self ..
    omega
  obtain ⟨clamped, x, heffect⟩ : ∃ (clamped : State) (x : Engine), arrayRampDownEffect e idle s =
      ((clamped.setArr engArrayStatusEngagedCols (EngIdIdx e) left).setArr engArrayStatusRamping (EngIdIdx e)
        (b2n (decide (0 < left)))).setEng (EngIdIdx e) x := ⟨_, _, if_pos ⟨hflight, hheld, hcols, .inr hidle⟩⟩
  refine ⟨_, congrArg Host.Outcome.next heffect, ?_⟩
  unfold State.setArr
  simp (disch := decide) only [State.setEng_fld, State.fld_setFld_apart, State.fld_setFld_self]
  refine ⟨Nat.mod_eq_of_lt hleft, ?_⟩
  by_cases hpos : 0 < left
  · simp only [hpos]
    rfl
  · simp only [hpos]
    rfl

/-! ## The ramp window (O15) -/

/-- What the ramps of other engines leave of an engine: its array, its status and its count of ramps. -/
def State.rampView (s : State) (e : Nat) : Engine × Word × Word := (s.eng e, s.rd .engArrayStatus e, s.rd .engArrayRampCnt e)

theorem State.eng_of_rampView {s t : State} {e : Nat} (h : t.rampView e = s.rampView e) : t.eng e = s.eng e := congrArg Prod.fst h

theorem State.rampCnt_of_rampView {s t : State} {e : Nat} (h : t.rampView e = s.rampView e) :
    t.rd .engArrayRampCnt e = s.rd .engArrayRampCnt e := congrArg (·.2.2) h

theorem State.fld_of_rampView {s t : State} {e : Nat} (h : t.rampView e = s.rampView e) {f : Field} (hf : f.reg = .engArrayStatus) :
    t.fld f e = s.fld f e := by
  have hstatus : t.rd .engArrayStatus e = s.rd .engArrayStatus e := congrArg (·.2.1) h
  rw [State.fld, State.fld, hf, hstatus]

/-- A write of another unit leaves a register. -/
theorem State.rd_wr_unit {u v : Nat} (h : v % 128 ≠ u % 128) (s : State) (a b : Reg) (i j : Nat) (w : Word) :
    (s.wr a u i w).rd b v j = s.rd b v j := by
  by_cases hreg : b = a
  · rw [hreg, State.rd_wr_place s a w (.inl h)]
  · exact State.rd_wr_ne hreg ..

/-- R152, R155, R156: the registers of an engine whose ramp begins. -/
def State.showRamp (s : State) (e wait prof cols : Nat) : State :=
  (((((s.setArr engArrayStatusWindowWait e 0).setArr engArrayStatusRamping e 1).bump .engArrayRampWaitCnt e 0 wait).bump .engArrayRampCnt e 0
    1).rampClamp e prof).setArr engArrayStatusEngagedCols e cols

/-- A pass that waits for the window starts its array's ramp. -/
theorem State.startRamp_of_waits {s : State} {e : Nat} {h : HeldPass} (hheld : (s.eng e).held = some h)
    (hwait : s.fld engArrayStatusWindowWait e = 1) (r : Nat) :
    ∃ wait prof cols x, x.rampUp = true ∧ s.startRamp e r = (s.showRamp e wait prof cols).setEng e x := by
  unfold State.startRamp
  extract_lets x
  split
  · rw [if_pos hwait]
    exact ⟨_, _, _, _, rfl, rfl⟩
  · next hnone => cases hheld.symm.trans hnone

/-- Where no pass waits for the window, no ramp starts. -/
theorem State.startRamp_cases (s : State) (e r : Nat) : s.startRamp e r = s ∨
    ∃ wait prof cols x, x.rampUp = true ∧ s.startRamp e r = (s.showRamp e wait prof cols).setEng e x := by
  cases hheld : (s.eng e).held with
  | none => exact .inl (by rw [State.startRamp, hheld])
  | some h =>
    by_cases hwait : s.fld engArrayStatusWindowWait e = 1
    · exact .inr (State.startRamp_of_waits hheld hwait r)
    · exact .inl (by simp only [State.startRamp, hheld, hwait, ↓reduceIte])

theorem State.startRamp_rampView {d e : Nat} (h : d % 128 ≠ e % 128) (s : State) (r : Nat) :
    (s.startRamp e r).rampView d = s.rampView d := by
  have hne : d ≠ e := fun heq => h (by rw [heq])
  have hrd : ∀ (t : State) (a b : Reg) (w : Word), (t.wr a e 0 w).rd b d = t.rd b d := fun t a b w => State.rd_wr_unit h t a b 0 0 w
  rcases s.startRamp_cases e r with hsame | ⟨wait, prof, cols, x, -, hstart⟩
  · rw [hsame]
  · have hshown : ∀ q : Reg, q ≠ .cluDescClampCnt → (s.showRamp e wait prof cols).rd q d = s.rd q d := by
      intro q hq
      simp only [State.showRamp, State.setArr, State.setFld, State.bump, hrd, State.rampClamp, State.clamped_rd hq]
    have heng : (s.showRamp e wait prof cols).eng d = s.eng d := State.clamped_eng ..
    simp only [State.rampView, hstart, State.eng_setEng_ne hne, State.setEng_rd, heng, hshown .engArrayStatus (by decide),
      hshown .engArrayRampCnt (by decide)]

theorem State.startRamp_spec {s : State} {e : Nat} {h : HeldPass} (hheld : (s.eng e).held = some h)
    (hwait : s.fld engArrayStatusWindowWait e = 1) (r : Nat) :
    (s.startRamp e r).fld engArrayStatusWindowWait e = 0 ∧ (s.startRamp e r).fld engArrayStatusRamping e = 1 ∧
    (s.startRamp e r).rd .engArrayRampCnt e = s.rd .engArrayRampCnt e + 1#64 ∧ ((s.startRamp e r).eng e).rampUp = true := by
  obtain ⟨wait, prof, cols, x, hup, hstart⟩ := State.startRamp_of_waits hheld hwait r
  rw [hstart, State.eng_setEng_self]
  refine ⟨?_, ?_, ?_, hup⟩
  · simp (disch := decide) only [State.setEng_fld, State.showRamp, State.setArr, State.rampClamp, State.clamped_fld, State.fld_bump_ne,
      State.fld_setFld_apart, State.fld_setFld_self]
    rfl
  · simp (disch := decide) only [State.setEng_fld, State.showRamp, State.setArr, State.rampClamp, State.clamped_fld, State.fld_bump_ne,
      State.fld_setFld_apart, State.fld_setFld_self]
    rfl
  · simp (disch := decide) only [State.setEng_rd, State.showRamp, State.setArr, State.rampClamp, State.clamped_rd, State.rd_bump_self,
      State.rd_bump_ne, State.rd_setFld_ne]

/-- The ramps of other engines of the region leave an engine's view. -/
theorem State.startRamps_rampView {r k : Nat} (hk : k < 12) (l : List Nat) (hl : ∀ j ∈ l, j < 12 ∧ j ≠ k) (s : State) :
    (l.foldl (fun s j => s.startRamp (r * 12 + j) r) s).rampView (r * 12 + k) = s.rampView (r * 12 + k) := by
  refine List.foldlRecOn l _ (motive := fun t => State.rampView t (r * 12 + k) = s.rampView (r * 12 + k)) rfl fun t ht j hj => ?_
  obtain ⟨hlt, hne⟩ := hl j hj
  rw [State.startRamp_rampView (by omega), ht]

/-- R154: what the region's window leaves of one of its engines is what the start of that engine's ramp leaves. -/
theorem rampWindowStart_rampView (s : State) (r : Fin 8) {k : Nat} (hk : k < 12) : ∃ before : State,
    before.rampView (r.val * 12 + k) = s.rampView (r.val * 12 + k) ∧
    (rampWindowStartEffect r s).rampView (r.val * 12 + k) = (before.startRamp (r.val * 12 + k) r.val).rampView (r.val * 12 + k) := by
  obtain ⟨l₁, l₂, hrange⟩ := List.append_of_mem (List.mem_range.mpr hk)
  have hnodup : (l₁ ++ k :: l₂).Nodup := hrange ▸ List.nodup_range
  have hother : ∀ j ∈ l₁ ++ l₂, j < 12 ∧ j ≠ k := by
    intro j hj
    have hmem : j ∈ l₁ ++ k :: l₂ := by
      rcases List.mem_append.mp hj with h | h <;> simp [h]
    refine ⟨List.mem_range.mp (hrange ▸ hmem), ?_⟩
    rintro rfl
    have := (List.nodup_middle.mp hnodup)
    exact (List.nodup_cons.mp this).1 hj
  refine ⟨l₁.foldl (fun s j => s.startRamp (r.val * 12 + j) r.val) s,
    State.startRamps_rampView hk l₁ (fun j hj => hother j (List.mem_append_left _ hj)) s, ?_⟩
  rw [rampWindowStartEffect, hrange, List.foldl_append, List.foldl_cons,
    State.startRamps_rampView hk l₂ fun j hj => hother j (List.mem_append_right _ hj)]

theorem rampWindowStart_starts {s : State} {r : Fin 8} {k : Nat} {h : HeldPass} (hk : k < 12)
    (hheld : (s.eng (r.val * 12 + k)).held = some h) (hwait : s.fld engArrayStatusWindowWait (r.val * 12 + k) = 1) :
    Gives (.rampWindowStart r) s fun t =>
      t.fld engArrayStatusWindowWait (r.val * 12 + k) = 0 ∧ t.fld engArrayStatusRamping (r.val * 12 + k) = 1 ∧
      t.rd .engArrayRampCnt (r.val * 12 + k) 0 = s.rd .engArrayRampCnt (r.val * 12 + k) 0 + 1#64 ∧
      (t.eng (r.val * 12 + k)).rampUp = true := by
  obtain ⟨before, hbefore, hafter⟩ := rampWindowStart_rampView s r hk
  obtain ⟨hwindow, hramping, hcnt, hup⟩ := State.startRamp_spec (s := before) ((State.eng_of_rampView hbefore).symm ▸ hheld)
    ((State.fld_of_rampView hbefore rfl).trans hwait) r.val
  refine ⟨rampWindowStartEffect r s, rfl, ?_, ?_, ?_, ?_⟩
  · rw [State.fld_of_rampView hafter rfl, hwindow]
  · rw [State.fld_of_rampView hafter rfl, hramping]
  · rw [State.rampCnt_of_rampView hafter, hcnt, State.rampCnt_of_rampView hbefore]
  · rw [State.eng_of_rampView hafter, hup]

/-! ## A tile past its length (O15) -/

theorem tileOverrun_counts {s : State} {e : EngId} (hnot : (s.eng (EngIdIdx e)).tileOverrun = false)
    (hlong : 8192 < (s.eng (EngIdIdx e)).tileCycles) :
    Gives (.tileOverrun e) s fun t =>
      t.rd .engTileOverrunCnt (EngIdIdx e) 0 = s.rd .engTileOverrunCnt (EngIdIdx e) 0 + 1#64 ∧
      t.eng (EngIdIdx e) = { s.eng (EngIdIdx e) with tileOverrun := true } := by
  have heffect : tileOverrunEffect e s =
      (s.bump .engTileOverrunCnt (EngIdIdx e) 0 1).setEng (EngIdIdx e) { s.eng (EngIdIdx e) with tileOverrun := true } :=
    if_pos (by simp [hnot, hlong])
  refine ⟨_, congrArg Host.Outcome.next heffect, ?_, ?_⟩
  · rw [State.setEng_rd, State.rd_bump_self]
  · rw [State.eng_setEng_self]

/-- Settles O15: the ramp's window, end and release, the end of a stationary load, and a tile past its length. -/
theorem arrayRampsAndStalls : Obligations.ArrayRampsAndStalls := by
  refine ⟨?_, ?_, ?_, ?_, ?_, ?_⟩
  · intro s r k h hk hheld hwait
    exact rampWindowStart_starts hk hheld hwait
  · intro s e h ⟨hheld, hqueue, hup, hhold⟩ hramp hover
    exact rampUpEnd_issues hheld hqueue hup hhold hramp hover
  · intro s e h ⟨hheld, hup⟩ hramp hleft
    exact rampUpEnd_stalls hheld hup hramp hleft
  · intro s e h ⟨hheld, hqueue, hhold⟩ hstall
    exact stationaryLoadDone_issues hheld hqueue hhold hstall
  · intro s e idle per left ⟨hflight, hheld⟩ hcols hidle
    exact arrayRampDown_releases hflight hheld hcols hidle
  · intro s e hnot hlong
    exact tileOverrun_counts hnot hlong

end Sys2Proof.Machine
end

section
/-!
SUPPORT. What a vector command does, said once: how an engine takes it, its reads of clean lens buffers, the part before its operation, the
operation and the part after it.
-/
namespace Sys2Proof.Machine

/-! ## The image of a vector command -/

theorem parseVec_vop (w : Words4) :
    (parseVec w).1.vop = if vopCodes.contains (bitsOf w.w0 4 6) then bitsOf w.w0 4 6 else vopNop := by
  show (if (!vopCodes.contains (bitsOf w.w0 4 6)) = true then 0 else bitsOf w.w0 4 6) = _
  cases vopCodes.contains (bitsOf w.w0 4 6) <;> rfl

/-- R163: opcode 2 is that of the vector commands. -/
theorem withVop_opc (w : Words4) (vop : Nat) : bitsOf (withVop w vop).w0 0 4 = 2 := by
  rw [withVop, bitsOf_withBits_below _ _ _ _ _ _ (by decide) (by decide)]
  exact bitsOf_withBits_self _ _ _ _ (by decide)

theorem lt_of_mem_vopCodes : ∀ vop ∈ vopCodes, vop < 64 := by decide

/-- R164: an image made for an operation is read as that operation. -/
theorem parseVec_withVop_vop {vop : Nat} (h : vop ∈ vopCodes) (w : Words4) : (parseVec (withVop w vop)).1.vop = vop := by
  have hbits : bitsOf (withVop w vop).w0 4 6 = vop :=
    (bitsOf_withBits_self _ 4 6 vop (by decide)).trans (Nat.mod_eq_of_lt (lt_of_mem_vopCodes vop h))
  rw [parseVec_vop, hbits, if_pos (List.contains_iff_mem.mpr h)]

/-- R165: ROW_SCALE has its row's element of B, whatever BMODE. -/
theorem parseVec_bmode_of_rowScale {w : Words4} (h : (parseVec w).1.vop = vopRowScale) : (parseVec w).1.bmode = 1 := by
  have hbmode : (parseVec w).1.bmode =
      if ((parseVec w).1.vop == vopRowScale && bitsOf w.w0 14 2 != 1) = true then 1 else bitsOf w.w0 14 2 := rfl
  by_cases hone : bitsOf w.w0 14 2 = 1
  · simp [hbmode, hone]
  · simp [hbmode, h, hone]

/-- R165: the destination lies within the lens buffers. -/
theorem parseVec_d_lt (w : Words4) : (parseVec w).1.d < 24576 := by
  show (clampUnit (bitsOf w.w1 48 15)).1 < 24576
  unfold clampUnit
  split
  · decide
  · omega

/-- Ranges of the lens buffers that begin at sectors. -/
def AtSectors (l : List (Nat × Nat)) : Prop := ∀ q ∈ l, 32 ∣ q.1

theorem AtSectors.nil : AtSectors [] := List.forall_mem_nil _

theorem AtSectors.unit (u n : Nat) : AtSectors [(u * 64, n)] :=
  List.forall_mem_singleton.mpr (Dvd.dvd.mul_left (by decide) u)

theorem AtSectors.append {l m : List (Nat × Nat)} (h : AtSectors l) (k : AtSectors m) : AtSectors (l ++ m) :=
  List.forall_mem_append.mpr ⟨h, k⟩

theorem AtSectors.ite {l m : List (Nat × Nat)} {c : Prop} [Decidable c] (h : AtSectors l) (k : AtSectors m) :
    AtSectors (if c then l else m) := by
  split
  · exact h
  · exact k

/-- R163: a vector command gives its addresses in units of 64 bytes. -/
theorem VecCmd.reads_atSectors (v : VecCmd) : AtSectors v.reads := by
  have optional : ∀ {c : Prop} [Decidable c] (u n : Nat), AtSectors (if c then [(u * 64, n)] else []) :=
    fun u n => .ite (.unit u n) .nil
  have operandC : AtSectors (if v.vop = vopFma then [(v.c * 64, packedBytes v.fmtC (v.rows * v.cols))]
      else if v.vop = vopSkipDecide then [(v.c * 64, packedBytes v.fmtC v.rows)]
      else if v.vop = vopSmxUpdate ∨ v.vop = vopSmxProb ∨ v.vop = vopSkipReplay then [(v.c * 64, 16 * v.rows)] else []) :=
    .ite (.unit _ _) (.ite (.unit _ _) (optional _ _))
  exact .ite .nil ((((AtSectors.ite .nil (.unit _ _)).append (optional _ _)).append operandC).append (optional _ _))

theorem State.lensFaults_of_atSectors {s : State} {e : Nat} (hclean : LensClean s e) (task : Nat) {l : List (Nat × Nat)}
    (h : AtSectors l) : s.lensFaults e task (l.map (4, ·)) = (s, false) :=
  State.lensFaults_of_clean hclean task (List.forall_mem_map.mpr h)

/-! ## Taking a vector command -/

/-- R162: a vector command up to its operation: its clamps, its tile, its trace record, and what it takes of the lanes and the evaluator. -/
def State.enterVec (s : State) (e task index : Nat) (v : VecCmd) (clamps : Nat) : State :=
  let s := s.clamped (engCluster e) clamps
  let s := s.openTile e task 2 index
  let s := s.traceCmd 2 1 e task 2 index 0
  let acc := (s.eng e).flightAccs
  let s := s.bump .engLensConflictCnt e 0 (lensWaits (v.reads ++ acc) (v.writes ++ acc))
  let slots := s.vecSlots e v
  let cycles := if v.works then v.cycles slots else 0
  if v.works then (s.bump .engVecIssueCnt e 0 cycles).bump .engFuncResultCnt e 0 slots else s

/-- R175: the flag `k` of the flag entry of a command's die, as a binary32 value. -/
def State.flagF32 (s : State) (e : Nat) (v : VecCmd) (k : Nat) : F32 :=
  if bitOf (s.rd .galFlagEntry (engDie e) v.flagIdx) k then 0x3F800000#32 else 0#32

/-- R187: row by row, what SMX_UPDATE forms. -/
def State.smxRows (s : State) (e : Nat) (v : VecCmd) : List (Nat × SmxRow) :=
  (List.range v.rows).map fun r => (r, smxRow (s.scores e v r) (s.rowState e v r 0) (s.rowState e v r 1))

/-- R164: the operation of a vector command. -/
def State.workVec (s : State) (e task : Nat) (v : VecCmd) : State :=
  if v.vop = vopNop then s
  else if v.vop = vopFlagsClear then (s.wr .galFlagEntry 0 v.flagIdx 0#64).wr .galFlagEntry 1 v.flagIdx 0#64
  else if v.vop = vopFlagsGet then
    ((s.lensPutF32 e (v.d * 64) (s.flagF32 e v 0)).lensPutF32 e (v.d * 64 + 4) (s.flagF32 e v 1)).lensPutF32 e (v.d * 64 + 8)
      (s.flagF32 e v 2)
  else if v.isSkip then s.skipEffect e v
  else if v.vop = vopDropout ∨ v.vop = vopRandUniform then s.genEffect e task v
  else if v.vop = vopSmxUpdate then (s.putRowStates e v (s.smxRows e v)).emit e task v (s.vecRows e v none 0)
  else s.emit e task v (s.vecRows e v none 0)

/-- R162: a vector command that reads clean lens buffers is taken, operates, and is counted. -/
theorem State.runVec_eq {s : State} {e : Nat} (hclean : LensClean s e) (task index : Nat) (w : Words4) : ∃ clamps cycles,
    s.runVec e task index w = (((s.enterVec e task index (parseVec w).1 clamps).workVec e task (parseVec w).1).bump .engVopCnt e
      (parseVec w).1.vop 1).traceCmd 2 2 e task 2 index cycles := by
  refine ⟨(parseVec w).2 + b2n (lensOver (parseVec w).1.ranges), ?_⟩
  unfold State.runVec
  split
  next v n hparse =>
    extract_lets clamped
    rw [hparse, State.lensFaults_of_atSectors (hclean.clamped ..) _ v.reads_atSectors]
    exact ⟨_, rfl⟩

/-- R163: an engine on which nothing stands before a vector command begins it at once. -/
theorem State.takeCmd_vec {s : State} {e task : Nat} (hfree : EngineFree s e task) {w : Words4} (hopc : bitsOf w.w0 0 4 = 2) :
    ∃ index clamps cycles, s.takeCmd e task w =
      ((((s.setEng e ((s.eng e).countCmd task).2).enterVec e task index (parseVec w).1 clamps).workVec e task (parseVec w).1).bump
        .engVopCnt e (parseVec w).1.vop 1).traceCmd 2 2 e task 2 index cycles := by
  obtain ⟨hopen, hflight, hclean⟩ := hfree
  have hclean' : LensClean (s.setEng e ((s.eng e).countCmd task).2) e := hclean
  rw [State.takeCmd_of_open hopen (State.cmdWaits_of_open hopen (.inr (.inr hflight)))]
  simp only [State.runCmd, hopc, Nat.reduceEqDiff, ↓reduceIte]
  exact ⟨_, State.runVec_eq hclean' task ((s.eng e).countCmd task).1 w⟩

/-! ## Before and after the operation -/

/-- What a vector command may change before its operation. -/
abbrev beforeVecReach : Nat :=
  cellMask [.engines, .trace, .reg .cluDescClampCnt, .reg .ctrTraceLostCnt, .reg .engLensConflictCnt, .reg .engVecIssueCnt,
    .reg .engFuncResultCnt]

/-- What a vector command may change after its operation. -/
abbrev afterVecReach : Nat := cellMask [.trace, .reg .ctrTraceLostCnt, .reg .engVopCnt]

theorem State.enterVec_reach (s : State) (e task index : Nat) (v : VecCmd) (clamps : Nat) :
    Reach beforeVecReach s (s.enterVec e task index v clamps) := by
  unfold State.enterVec
  extract_lets clamped opened traced acc counted slots cycles
  have htraced : Reach beforeVecReach s traced :=
    (((s.clamped_reach ..).mono rfl).then (clamped.openTile_reach ..) rfl).then (opened.traceCmd_reach ..) rfl
  have hcounted : Reach beforeVecReach s counted := htraced.bump rfl
  exact .ite ((hcounted.bump rfl).bump rfl) hcounted

/-- How a vector command leaves a state: `x` is the state in which its operation begins. -/
structure RunsVec (s x t : State) (e task : Nat) (v : VecCmd) : Prop where
  before : Reach beforeVecReach s x
  after : Reach afterVecReach (x.workVec e task v) t
  counted : t.rd .engVopCnt e v.vop = (x.workVec e task v).rd .engVopCnt e v.vop + 1#64

namespace RunsVec
variable {s x t : State} {e task : Nat} {v : VecCmd} (h : RunsVec s x t e task v)
include h

theorem lens_before : x.lens = s.lens := h.before.same .lens rfl
theorem mem_before : x.mem = s.mem := h.before.same .mem rfl
theorem lens_after : t.lens = (x.workVec e task v).lens := h.after.same .lens rfl
theorem mem_after : t.mem = (x.workVec e task v).mem := h.after.same .mem rfl

theorem flagF32_before (k : Nat) : x.flagF32 e v k = s.flagF32 e v k := by
  rw [State.flagF32, State.flagF32, h.before.rd_eq .galFlagEntry rfl]

end RunsVec

/-- R162: a vector command on a free engine runs. -/
theorem State.takeCmd_runsVec {s : State} {e task : Nat} (hfree : EngineFree s e task) {w : Words4} (hopc : bitsOf w.w0 0 4 = 2) :
    ∃ x, RunsVec s x (s.takeCmd e task w) e task (parseVec w).1 := by
  obtain ⟨index, clamps, cycles, htake⟩ := State.takeCmd_vec hfree hopc
  have htaken : Reach beforeVecReach s (s.setEng e ((s.eng e).countCmd task).2) := (s.setEng_reach ..).mono rfl
  rw [htake]
  refine ⟨_, htaken.trans (State.enterVec_reach _ e task index (parseVec w).1 clamps), ?_, ?_⟩
  · exact .then (.bump (.refl _ _) rfl) (State.traceCmd_reach ..) rfl
  · rw [State.traceCmd_rd (by decide), State.rd_bump_self]

/-- R162, R164: a vector command of an operation on a free engine runs, read as that operation. -/
theorem State.takeCmd_withVop {s : State} {e task vop : Nat} (hfree : EngineFree s e task) (w : Words4) :
    ∃ x, RunsVec s x (s.takeCmd e task (withVop w vop)) e task (parseVec (withVop w vop)).1 :=
  State.takeCmd_runsVec hfree (withVop_opc w vop)

/-! ## What vector commands read of the lens buffers -/

section
variable {s t : State} (hlens : t.lens = s.lens)
include hlens

theorem State.lensElem_congr (e unit fmt k : Nat) : t.lensElem e unit fmt k = s.lensElem e unit fmt k := by
  simp only [State.lensElem, State.lensByte_congr hlens]

theorem State.operandB_congr (e : Nat) (v : VecCmd) (r c : Nat) : t.operandB e v r c = s.operandB e v r c := by
  simp only [State.operandB, State.lensElem_congr hlens]

theorem State.rowA_congr (e : Nat) (v : VecCmd) (r : Nat) : t.rowA e v r = s.rowA e v r := by
  simp only [State.rowA, State.lensElem_congr hlens]

theorem State.rowState_congr (e : Nat) (v : VecCmd) (r k : Nat) : t.rowState e v r k = s.rowState e v r k :=
  State.lensF32_congr hlens ..

theorem State.scores_congr (e : Nat) (v : VecCmd) (r : Nat) : t.scores e v r = s.scores e v r := by
  simp only [State.scores, State.lensElem_congr hlens, State.operandB_congr hlens]

theorem State.smxRows_congr (e : Nat) (v : VecCmd) : t.smxRows e v = s.smxRows e v := by
  simp only [State.smxRows, State.scores_congr hlens, State.rowState_congr hlens]

/-- The results of a command depend on the lens buffers only. -/
theorem State.vecRows_congr (e : Nat) (v : VecCmd) (g : Option Desc) (rev : Nat) : t.vecRows e v g rev = s.vecRows e v g rev := by
  simp only [State.vecRows, State.lensElem_congr hlens, State.operandB_congr hlens, State.rowA_congr hlens, State.scores_congr hlens,
    State.rowState_congr hlens]

theorem State.skipCode_congr (e : Nat) (v : VecCmd) (r c : Nat) : t.skipCode e v r c = s.skipCode e v r c := by
  simp only [State.skipCode, State.lensByte_congr hlens]

theorem State.skipBound_congr (e : Nat) (v : VecCmd) (r c : Nat) : t.skipBound e v r c = s.skipBound e v r c := by
  simp only [State.skipBound, State.lensElem_congr hlens]

theorem State.decideRow_congr (e : Nat) (v : VecCmd) (r : Nat) : t.decideRow e v r = s.decideRow e v r := by
  simp only [State.decideRow, State.lensElem_congr hlens, State.skipBound_congr hlens]

theorem State.replayRow_congr (e : Nat) (v : VecCmd) (r : Nat) : t.replayRow e v r = s.replayRow e v r := by
  simp only [State.replayRow, State.rowState_congr hlens, State.skipBound_congr hlens, State.skipCode_congr hlens]

theorem State.lensPut_lens_congr (e a : Nat) (bs : List Byte) : (t.lensPut e a bs).lens = (s.lensPut e a bs).lens := by
  simp only [State.lensPut, hlens]

theorem State.putRowStates_lens_congr (e : Nat) (v : VecCmd) (l : List (Nat × SmxRow)) :
    (t.putRowStates e v l).lens = (s.putRowStates e v l).lens := by
  induction l generalizing s t with
  | nil => exact hlens
  | cons p l ih => exact ih (State.lensPutF32_lens_congr (State.lensPutF32_lens_congr (State.lensPutF32_lens_congr hlens ..) ..) ..)

end

/-! ## Results packed at D_ADDR -/

theorem State.emit_of_lens {v : VecCmd} (hout : v.outDesc = 0xFFFF) (s : State) (e task : Nat) (rows : List (List VecResult)) :
    s.emit e task v rows = s.emitLens e v rows := if_pos hout

/-- R167: results without an output descriptor are in the lens buffers. -/
theorem State.emitLens_holds {s t : State} (hlens : t.lens = s.lens) (hmem : t.mem = s.mem) (e : Nat) (v : VecCmd)
    (rows : List (List VecResult)) : LensHolds s (t.emitLens e v rows) e v rows := by
  unfold State.emitLens
  extract_lets xs enc bs fl
  have hbs : bs = packElems v.fmtD (rows.flatten.map fun x => (encodeElem v.fmtD .nearestEven false 0 (dec32 x.bits)).1) :=
    congrArg (packElems v.fmtD) (List.map_map ..)
  have hput : Reach 0x400000000080000000000000000000000 (t.lensPut e (v.d * 64) bs)
      (((t.lensPut e (v.d * 64) bs).bump .engConvCnt e v.fmtD xs.length).postFlags v.flagIdx fl) :=
    .then (.bump (.refl _ _) rfl) (State.postFlags_reach ..) rfl
  rw [LensHolds, hput.same .lens rfl, hput.same .mem rfl, ← hbs]
  exact ⟨State.lensPut_lens_congr hlens .., hmem⟩

/-- The counters that conversions and flags leave. -/
theorem State.emitLens_rd {r : Reg} (hconv : r ≠ .engConvCnt) (hflag : r ≠ .galFlagEntry) (s : State) (e : Nat) (v : VecCmd)
    (rows : List (List VecResult)) (u i : Nat) : (s.emitLens e v rows).rd r u i = s.rd r u i := by
  refine (s.emitLens_reach ..).rd_eq r ?_ u i
  cases r <;> first | rfl | exact absurd rfl hconv | exact absurd rfl hflag

end Sys2Proof.Machine
end

section
/-!
SUPPORT. The statements about vector commands (spec/04_vector_functions_random.md) that give results: arithmetic, functions and
reductions, softmax and sector skip.
-/
namespace Sys2Proof.Machine

/-! ## The rows of results, operation by operation (R164, R169, R170, R180, R184, R187, R189, R867) -/

section
variable {v : VecCmd} {s : State} {e : Nat} {g : Option Desc} {rev : Nat}

theorem State.vecRows_add (hv : v.vop = vopAdd) : s.vecRows e v g rev = grid v fun r c =>
    rounded ((dec32 (s.lensElem e v.a v.fmtA (r * v.cols + c))).add (dec32 (s.operandB e v r c))) := by
  cases v; cases hv; rfl

theorem State.vecRows_sub (hv : v.vop = vopSub) : s.vecRows e v g rev = grid v fun r c =>
    rounded ((dec32 (s.lensElem e v.a v.fmtA (r * v.cols + c))).add (dec32 (s.operandB e v r c)).neg) := by
  cases v; cases hv; rfl

theorem State.vecRows_mul (hv : v.vop = vopMul) : s.vecRows e v g rev = grid v fun r c =>
    rounded ((dec32 (s.lensElem e v.a v.fmtA (r * v.cols + c))).mul (dec32 (s.operandB e v r c))) := by
  cases v; cases hv; rfl

theorem State.vecRows_fma (hv : v.vop = vopFma) : s.vecRows e v g rev = grid v fun r c =>
    rounded (((dec32 (s.lensElem e v.a v.fmtA (r * v.cols + c))).mul (dec32 (s.operandB e v r c))).add
      (dec32 (s.lensElem e v.c v.fmtC (r * v.cols + c)))) := by
  cases v; cases hv; rfl

theorem State.vecRows_max (hv : v.vop = vopMax) : s.vecRows e v g rev = grid v fun r c =>
    ⟨f32max (s.lensElem e v.a v.fmtA (r * v.cols + c)) (s.operandB e v r c), false⟩ := by
  cases v; cases hv; rfl

theorem State.vecRows_min (hv : v.vop = vopMin) : s.vecRows e v g rev = grid v fun r c =>
    ⟨f32min (s.lensElem e v.a v.fmtA (r * v.cols + c)) (s.operandB e v r c), false⟩ := by
  cases v; cases hv; rfl

theorem State.vecRows_abs (hv : v.vop = vopAbs) : s.vecRows e v g rev = grid v fun r c =>
    ⟨f32abs (s.lensElem e v.a v.fmtA (r * v.cols + c)), false⟩ := by
  cases v; cases hv; rfl

theorem State.vecRows_neg (hv : v.vop = vopNeg) : s.vecRows e v g rev = grid v fun r c =>
    ⟨f32neg (s.lensElem e v.a v.fmtA (r * v.cols + c)), false⟩ := by
  cases v; cases hv; rfl

theorem State.vecRows_copy (hv : v.vop = vopCopy) : s.vecRows e v g rev = grid v fun r c =>
    ⟨rne32 (dec32 (s.lensElem e v.a v.fmtA (r * v.cols + c))), false⟩ := by
  cases v; cases hv; rfl

theorem State.vecRows_func (hv : v.vop = vopFunc) : s.vecRows e v g rev = grid v fun r c =>
    rounded (funcV v.fn (s.lensElem e v.a v.fmtA (r * v.cols + c))) := by
  cases v; cases hv; rfl

theorem State.vecRows_deriv (hv : v.vop = vopDeriv) : s.vecRows e v g rev = grid v fun r c =>
    rounded (derivV v.fn (s.lensElem e v.a v.fmtA (r * v.cols + c)) (s.operandB e v r c)) := by
  cases v; cases hv; rfl

theorem State.vecRows_rowScale (hv : v.vop = vopRowScale) (hmode : v.bmode = 1) : s.vecRows e v g rev = grid v fun r c =>
    rounded ((dec32 (s.lensElem e v.a v.fmtA (r * v.cols + c))).mul (dec32 (s.lensElem e v.b v.fmtB r))) := by
  cases v; cases hv; cases hmode; rfl

theorem State.vecRows_rowsum (hv : v.vop = vopRowsum) : s.vecRows e v g rev =
    (List.range v.rows).map fun r => [rowSumResult ((s.rowA e v r).map dec32)] := by
  cases v; cases hv; rfl

theorem State.vecRows_rowmax (hv : v.vop = vopRowmax) : s.vecRows e v g rev =
    (List.range v.rows).map fun r => [⟨rowMaxOf (s.rowA e v r), false⟩] := by
  cases v; cases hv; rfl

theorem State.vecRows_rownorm (hv : v.vop = vopRownorm) : s.vecRows e v g rev =
    (List.range v.rows).map fun r => [rowNormResult (s.rowA e v r)] := by
  cases v; cases hv; rfl

/-- R867: the norms of the rows of the command that lie in run `i` of 128 rows of the tensor. -/
def State.runNorms (s : State) (e : Nat) (v : VecCmd) (i : Nat) : List VecResult :=
  ((List.range v.rows).filter fun r => (v.orgRow + r) / 128 == v.orgRow / 128 + i).map fun r => rowNormResult (s.rowA e v r)

theorem State.vecRows_knorm (hv : v.vop = vopKnorm) : s.vecRows e v g rev =
    (List.range ((v.orgRow + v.rows - 1) / 128 - v.orgRow / 128 + 1)).map fun i =>
      [⟨rowMaxOf ((s.runNorms e v i).map fun x => x.bits),
        (s.runNorms e v i).any fun x => x.bits == rowMaxOf ((s.runNorms e v i).map fun x => x.bits) && x.underflow⟩] := by
  cases v; cases hv; rfl

theorem State.vecRows_smxUpdate (hv : v.vop = vopSmxUpdate) : s.vecRows e v g rev = (s.smxRows e v).map fun x => x.2.p := by
  rw [State.smxRows, List.map_map]
  cases v; cases hv; rfl

theorem State.vecRows_smxProb (hv : v.vop = vopSmxProb) : s.vecRows e v g rev =
    (List.range v.rows).map fun r => (s.scores e v r).map fun x =>
      rounded ((dec32 (fExp2 (f32sub x (s.rowState e v r 0)))).mul (dec32 (fRecip (s.rowState e v r 1)))) := by
  cases v; cases hv; rfl

end

/-! ## Commands that leave results (O16, O17) -/

/-- The operations whose whole work is to write rows of results. -/
def resultVops : List Nat :=
  [vopAdd, vopSub, vopMul, vopFma, vopMax, vopMin, vopAbs, vopNeg, vopCopy, vopRowsum, vopRowmax, vopRownorm, vopKnorm, vopFunc, vopDeriv,
   vopSmxProb, vopRowScale]

theorem mem_vopCodes_of_mem_resultVops : ∀ vop ∈ resultVops, vop ∈ vopCodes := by decide

theorem State.workVec_of_mem_resultVops {v : VecCmd} (hv : v.vop ∈ resultVops) (s : State) (e task : Nat) :
    s.workVec e task v = s.emit e task v (s.vecRows e v none 0) := by
  have hother : ∀ vop ∈ resultVops, vop ≠ vopNop ∧ vop ≠ vopFlagsClear ∧ vop ≠ vopFlagsGet ∧
      (vop == vopSkipDecide || vop == vopSkipReplay) = false ∧ ¬ (vop = vopDropout ∨ vop = vopRandUniform) ∧
      vop ≠ vopSmxUpdate := by
    decide
  obtain ⟨hnop, hclear, hget, hskip, hgen, hsmx⟩ := hother _ hv
  have hskip' : v.isSkip = false := hskip
  rw [State.workVec, if_neg hnop, if_neg hclear, if_neg hget, hskip', if_neg Bool.false_ne_true, if_neg hgen, if_neg hsmx]

/-- R162, R167: what such a command leaves without an output descriptor. -/
theorem gives_results {c : Instr} {s : State} {e task vop : Nat} {w : Words4} {rows : List (List VecResult)}
    (hexec : exec c s = .next (s.takeCmd e task (withVop w vop))) (hop : vop ∈ resultVops) (hfree : EngineFree s e task)
    (hout : (parseVec (withVop w vop)).1.outDesc = 0xFFFF)
    (hrows : (parseVec (withVop w vop)).1.vop = vop → s.vecRows e (parseVec (withVop w vop)).1 none 0 = rows) :
    Gives c s fun t => LensHolds s t e (parseVec (withVop w vop)).1 rows ∧ t.rd .engVopCnt e vop = s.rd .engVopCnt e vop + 1#64 := by
  have hvop := parseVec_withVop_vop (mem_vopCodes_of_mem_resultVops vop hop) w
  obtain ⟨x, hrun⟩ := State.takeCmd_withVop (vop := vop) hfree w
  have hwork : x.workVec e task (parseVec (withVop w vop)).1 = x.emitLens e (parseVec (withVop w vop)).1 rows := by
    rw [State.workVec_of_mem_resultVops (hvop.symm ▸ hop), State.emit_of_lens hout, State.vecRows_congr hrun.lens_before, hrows hvop]
  refine ⟨_, hexec, ?_, ?_⟩
  · rw [LensHolds, hrun.lens_after, hrun.mem_after, hwork]
    exact State.emitLens_holds hrun.lens_before hrun.mem_before ..
  · have hcnt := hrun.counted
    rwa [hwork, State.emitLens_rd (by decide) (by decide), hrun.before.rd_eq .engVopCnt rfl, hvop] at hcnt

/-- Settles O16: each operation's rows of results, by what every command that leaves results does. -/
theorem vectorArithmetic : Obligations.VectorArithmetic := by
  refine ⟨?add, ?sub, ?mul, ?fma, ?max, ?min, ?abs, ?neg, ?copy⟩ <;> intro s e task w v hfree hout
  case add => exact gives_results rfl (by decide) hfree hout State.vecRows_add
  case sub => exact gives_results rfl (by decide) hfree hout State.vecRows_sub
  case mul => exact gives_results rfl (by decide) hfree hout State.vecRows_mul
  case fma => exact gives_results rfl (by decide) hfree hout State.vecRows_fma
  case max => exact gives_results rfl (by decide) hfree hout State.vecRows_max
  case min => exact gives_results rfl (by decide) hfree hout State.vecRows_min
  case abs => exact gives_results rfl (by decide) hfree hout State.vecRows_abs
  case neg => exact gives_results rfl (by decide) hfree hout State.vecRows_neg
  case copy => exact gives_results rfl (by decide) hfree hout State.vecRows_copy

/-- Settles O17: functions, row scaling and reductions, by what every command that leaves results does; ROW_SCALE reads B under BMODE 1. -/
theorem vectorFunctionsAndRowReductions : Obligations.VectorFunctionsAndRowReductions := by
  refine ⟨?func, ?deriv, ?rowScale, ?rowsum, ?rowmax, ?rownorm, ?knorm⟩ <;> intro s e task w v hfree hout
  case func => exact gives_results rfl (by decide) hfree hout State.vecRows_func
  case deriv => exact gives_results rfl (by decide) hfree hout State.vecRows_deriv
  case rowScale =>
    exact gives_results rfl (by decide) hfree hout fun hvop => State.vecRows_rowScale hvop (parseVec_bmode_of_rowScale hvop)
  case rowsum => exact gives_results rfl (by decide) hfree hout State.vecRows_rowsum
  case rowmax => exact gives_results rfl (by decide) hfree hout State.vecRows_rowmax
  case rownorm => exact gives_results rfl (by decide) hfree hout State.vecRows_rownorm
  case knorm => exact gives_results rfl (by decide) hfree hout State.vecRows_knorm

end Sys2Proof.Machine
end

section
/-!
SUPPORT. The statement about the online softmax and sector skip (spec/04_vector_functions_random.md).
-/
namespace Sys2Proof.Machine

/-! ## Online softmax (O18) -/

theorem State.workVec_smxUpdate {v : VecCmd} (hv : v.vop = vopSmxUpdate) (s : State) (e task : Nat) :
    s.workVec e task v = (s.putRowStates e v (s.smxRows e v)).emit e task v ((s.smxRows e v).map fun x => x.2.p) := by
  rw [← State.vecRows_smxUpdate (g := none) (rev := 0) hv]
  cases v; cases hv; rfl

/-- R187: SMX_UPDATE leaves the row states, then p. -/
theorem smxUpdate_leaves {s : State} {e : EngId} {task : Fin 4} {w : Words4} (hfree : EngineFree s (EngIdIdx e) task.val)
    (hout : (parseVec (withVop w vopSmxUpdate)).1.outDesc = 0xFFFF) :
    let v := (parseVec (withVop w vopSmxUpdate)).1
    Gives (.smxUpdate e task w) s fun t =>
      LensHolds (s.putRowStates (EngIdIdx e) v (s.smxRows (EngIdIdx e) v)) t (EngIdIdx e) v
        ((s.smxRows (EngIdIdx e) v).map fun x => x.2.p) ∧
      t.rd .engVopCnt (EngIdIdx e) vopSmxUpdate = s.rd .engVopCnt (EngIdIdx e) vopSmxUpdate + 1#64 := by
  intro v
  have hvop : v.vop = vopSmxUpdate := parseVec_withVop_vop (by decide) w
  obtain ⟨x, hrun⟩ := State.takeCmd_withVop (vop := vopSmxUpdate) hfree w
  have hwork := State.workVec_smxUpdate hvop x (EngIdIdx e) task.val
  rw [State.smxRows_congr hrun.lens_before, State.emit_of_lens hout] at hwork
  refine ⟨_, rfl, ?_, ?_⟩
  · rw [LensHolds, hrun.lens_after, hrun.mem_after, hwork]
    refine State.emitLens_holds (State.putRowStates_lens_congr hrun.lens_before ..) ?_ ..
    rw [(State.putRowStates_reach ..).same .mem rfl, (State.putRowStates_reach ..).same .mem rfl, hrun.mem_before]
  · have hcnt := hrun.counted
    rwa [hwork, State.emitLens_rd (by decide) (by decide), (State.putRowStates_reach ..).rd_eq .engVopCnt rfl,
      hrun.before.rd_eq .engVopCnt rfl, hvop] at hcnt

/-! ## Sector skip (O18) -/

/-- R194: SKIP_DECIDE's decision map. -/
def State.decideCodes (s : State) (e : Nat) (v : VecCmd) : List Nat := ((List.range v.rows).map fun r => s.decideRow e v r).flatten

/-- R196: SKIP_REPLAY's decision map. -/
def State.replayCodes (s : State) (e : Nat) (v : VecCmd) : List Nat := ((List.range v.rows).map fun r => s.replayRow e v r).flatten

/-- R196: the blocks of a row that SKIP_REPLAY turns from 1 to 2. -/
def State.replayHits (s : State) (e : Nat) (v : VecCmd) (r : Nat) : Nat :=
  (List.range v.cols).countP fun c => s.skipCode e v r c == 1 && (s.replayRow e v r).getD c 0 == 2

theorem State.replayHits_eq (s : State) (e : Nat) (v : VecCmd) (r : Nat) :
    ((((List.range v.cols).map fun c => s.skipCode e v r c).zip (s.replayRow e v r)).countP fun q => q.1 == 1 && q.2 == 2) =
      s.replayHits e v r := by
  rw [State.replayHits, State.replayRow, List.zip_map', List.countP_map]
  refine List.countP_congr fun c hc => ?_
  simp [List.getD_eq_getElem?_getD, List.mem_range.mp hc]

theorem State.putMap_rd (s : State) (e : Nat) (v : VecCmd) (codes : List Nat) (r : Reg) (u i : Nat) :
    (s.putMap e v codes).rd r u i = s.rd r u i := rfl

/-- R194, R195: SKIP_DECIDE's map and counters. -/
theorem State.skipEffect_decide {v : VecCmd} (hv : v.vop = vopSkipDecide) (s : State) (e : Nat) :
    (s.skipEffect e v).lens = (s.putMap e v (s.decideCodes e v)).lens ∧
    (s.skipEffect e v).rd .engSkipDecideCnt e 0 =
      s.rd .engSkipDecideCnt e 0 + BitVec.ofNat 64 (if v.nocount then 0 else v.rows * v.cols) ∧
    (s.skipEffect e v).rd .engSkipBlockCnt e 0 =
      s.rd .engSkipBlockCnt e 0 + BitVec.ofNat 64 (if v.nocount then 0 else (s.decideCodes e v).countP (· == 1)) := by
  have heffect : s.skipEffect e v =
      if v.nocount then s.putMap e v (s.decideCodes e v)
      else ((s.putMap e v (s.decideCodes e v)).bump .engSkipDecideCnt e 0 (v.rows * v.cols)).bump .engSkipBlockCnt e 0
        ((s.decideCodes e v).countP (· == 1)) := by
    cases v; cases hv; rfl
  rw [heffect]
  cases v.nocount with
  | true => simp [State.putMap_rd]
  | false => simp [State.rd_bump_self, State.rd_bump_ne, State.putMap_rd]

/-- R195, R196: SKIP_REPLAY's map and counters. -/
theorem State.skipEffect_replay {v : VecCmd} (hv : v.vop = vopSkipReplay) (s : State) (e : Nat) :
    (s.skipEffect e v).lens = (s.putMap e v (s.replayCodes e v)).lens ∧
    (s.skipEffect e v).rd .engSkipReplayCnt e 0 = s.rd .engSkipReplayCnt e 0 +
      BitVec.ofNat 64 (if v.nocount then 0 else ((List.range v.rows).map (s.replayHits e v)).sum) ∧
    (s.skipEffect e v).rd .engSkipRowReplayCnt e 0 = s.rd .engSkipRowReplayCnt e 0 +
      BitVec.ofNat 64 (if v.nocount then 0 else ((List.range v.rows).map (s.replayHits e v)).countP (0 < ·)) := by
  have heffect : s.skipEffect e v =
      if v.nocount then s.putMap e v (s.replayCodes e v)
      else ((s.putMap e v (s.replayCodes e v)).bump .engSkipReplayCnt e 0 ((List.range v.rows).map (s.replayHits e v)).sum).bump
        .engSkipRowReplayCnt e 0 (((List.range v.rows).map (s.replayHits e v)).countP (0 < ·)) := by
    have hother : vopSkipReplay ≠ vopSkipDecide := by decide
    rw [State.skipEffect]
    simp only [hv, hother, ↓reduceIte, List.zip_map', List.map_map, List.countP_map, ← List.sum_eq_foldl,
      Function.comp_def, State.replayHits_eq]
    rfl
  rw [heffect]
  cases v.nocount with
  | true => simp [State.putMap_rd]
  | false => simp [State.rd_bump_self, State.rd_bump_ne, State.putMap_rd]

theorem State.workVec_skip {v : VecCmd} (hv : v.vop = vopSkipDecide ∨ v.vop = vopSkipReplay) (s : State) (e task : Nat) :
    s.workVec e task v = s.skipEffect e v := by
  rcases hv with hv | hv <;> cases v <;> cases hv <;> rfl

theorem State.putMap_lens_congr {s t : State} (hlens : t.lens = s.lens) (e : Nat) (v : VecCmd) (codes : List Nat) :
    (t.putMap e v codes).lens = (s.putMap e v codes).lens := State.lensPut_lens_congr hlens ..

theorem State.decideCodes_congr {s t : State} (hlens : t.lens = s.lens) (e : Nat) (v : VecCmd) : t.decideCodes e v = s.decideCodes e v := by
  simp only [State.decideCodes, State.decideRow_congr hlens]

theorem State.replayCodes_congr {s t : State} (hlens : t.lens = s.lens) (e : Nat) (v : VecCmd) : t.replayCodes e v = s.replayCodes e v := by
  simp only [State.replayCodes, State.replayRow_congr hlens]

theorem State.replayHits_congr {s t : State} (hlens : t.lens = s.lens) (e : Nat) (v : VecCmd) (r : Nat) :
    t.replayHits e v r = s.replayHits e v r := by
  simp only [State.replayHits, State.skipCode_congr hlens, State.replayRow_congr hlens]

theorem skipDecide_leaves {s : State} {e : EngId} {task : Fin 4} (w : Words4) (hfree : EngineFree s (EngIdIdx e) task.val) :
    let v := (parseVec (withVop w vopSkipDecide)).1
    Gives (.skipDecide e task w) s fun t =>
      t.lens = (s.putMap (EngIdIdx e) v (s.decideCodes (EngIdIdx e) v)).lens ∧
      t.rd .engSkipDecideCnt (EngIdIdx e) 0 =
        s.rd .engSkipDecideCnt (EngIdIdx e) 0 + BitVec.ofNat 64 (if v.nocount then 0 else v.rows * v.cols) ∧
      t.rd .engSkipBlockCnt (EngIdIdx e) 0 =
        s.rd .engSkipBlockCnt (EngIdIdx e) 0 +
          BitVec.ofNat 64 (if v.nocount then 0 else (s.decideCodes (EngIdIdx e) v).countP (· == 1)) := by
  intro v
  have hvop : v.vop = vopSkipDecide := parseVec_withVop_vop (by decide) w
  obtain ⟨x, hrun⟩ := State.takeCmd_withVop (vop := vopSkipDecide) hfree w
  have hwork : x.workVec (EngIdIdx e) task.val v = x.skipEffect (EngIdIdx e) v := State.workVec_skip (.inl hvop) ..
  obtain ⟨hlens, hdecided, hskipped⟩ := State.skipEffect_decide hvop x (EngIdIdx e)
  rw [State.decideCodes_congr hrun.lens_before] at hlens hskipped
  refine ⟨_, rfl, ?_, ?_, ?_⟩
  · rw [hrun.lens_after, hwork, hlens, State.putMap_lens_congr hrun.lens_before]
  · rw [hrun.after.rd_eq .engSkipDecideCnt rfl, hwork, hdecided, hrun.before.rd_eq .engSkipDecideCnt rfl]
  · rw [hrun.after.rd_eq .engSkipBlockCnt rfl, hwork, hskipped, hrun.before.rd_eq .engSkipBlockCnt rfl]

theorem skipReplay_leaves {s : State} {e : EngId} {task : Fin 4} (w : Words4) (hfree : EngineFree s (EngIdIdx e) task.val) :
    let v := (parseVec (withVop w vopSkipReplay)).1
    let hits := (List.range v.rows).map (s.replayHits (EngIdIdx e) v)
    Gives (.skipReplay e task w) s fun t =>
      t.lens = (s.putMap (EngIdIdx e) v (s.replayCodes (EngIdIdx e) v)).lens ∧
      t.rd .engSkipReplayCnt (EngIdIdx e) 0 =
        s.rd .engSkipReplayCnt (EngIdIdx e) 0 + BitVec.ofNat 64 (if v.nocount then 0 else hits.sum) ∧
      t.rd .engSkipRowReplayCnt (EngIdIdx e) 0 =
        s.rd .engSkipRowReplayCnt (EngIdIdx e) 0 + BitVec.ofNat 64 (if v.nocount then 0 else hits.countP (0 < ·)) ∧
      t.rd .engVopCnt (EngIdIdx e) vopSkipReplay = s.rd .engVopCnt (EngIdIdx e) vopSkipReplay + 1#64 := by
  intro v hits
  have hvop : v.vop = vopSkipReplay := parseVec_withVop_vop (by decide) w
  obtain ⟨x, hrun⟩ := State.takeCmd_withVop (vop := vopSkipReplay) hfree w
  have hwork : x.workVec (EngIdIdx e) task.val v = x.skipEffect (EngIdIdx e) v := State.workVec_skip (.inr hvop) ..
  have hhits : (List.range v.rows).map (x.replayHits (EngIdIdx e) v) = hits :=
    List.map_congr_left fun r _ => State.replayHits_congr hrun.lens_before ..
  obtain ⟨hlens, hreplayed, hrows⟩ := State.skipEffect_replay hvop x (EngIdIdx e)
  rw [State.replayCodes_congr hrun.lens_before] at hlens
  rw [hhits] at hreplayed hrows
  refine ⟨_, rfl, ?_, ?_, ?_, ?_⟩
  · rw [hrun.lens_after, hwork, hlens, State.putMap_lens_congr hrun.lens_before]
  · rw [hrun.after.rd_eq .engSkipReplayCnt rfl, hwork, hreplayed, hrun.before.rd_eq .engSkipReplayCnt rfl]
  · rw [hrun.after.rd_eq .engSkipRowReplayCnt rfl, hwork, hrows, hrun.before.rd_eq .engSkipRowReplayCnt rfl]
  · have hcnt := hrun.counted
    rwa [hwork, (State.skipEffect_reach ..).rd_eq .engVopCnt rfl, hrun.before.rd_eq .engVopCnt rfl, hvop] at hcnt

/-- Settles O18: SMX_UPDATE by its row states, SMX_PROB as a command that leaves results, the skip commands by their maps. -/
theorem softmaxAndSectorSkipCommands : Obligations.SoftmaxAndSectorSkipCommands := by
  refine ⟨?update, ?prob, ?decide, ?replay⟩
  case update =>
    intro s e task w v sts hfree hout
    exact smxUpdate_leaves hfree hout
  case prob =>
    intro s e task w v hfree hout
    exact gives_results rfl (by decide) hfree hout State.vecRows_smxProb
  case decide =>
    intro s e task w v codes hfree
    exact skipDecide_leaves w hfree
  case replay =>
    intro s e task w v hits hfree
    exact skipReplay_leaves w hfree

end Sys2Proof.Machine
end

section
/-!
SUPPORT. What a chain's descriptors are read from: states that agree on memory, its check symbols, and what translation reads show the same
descriptors.
-/
namespace Sys2Proof.Machine

/-- Two states in which device virtual memory reads the same: memory and what the walk of R680 to R684 and the address map look at. -/
structure SameVirtual (s t : State) : Prop where
  mem : t.mem = s.mem
  delta : t.hbmDelta = s.hbmDelta
  order : t.order = s.order
  dict : t.dict = s.dict
  fuses : t.fuses = s.fuses
  harbour : t.harbour = s.harbour
  root : ∀ u i, t.rd .poolXlatRoot u i = s.rd .poolXlatRoot u i

namespace SameVirtual
variable {s t : State} (h : SameVirtual s t)
include h

theorem phys (pa : Nat) : t.phys pa = s.phys pa := by
  have hshelf : t.dnat dkPoolShelfFrames = s.dnat dkPoolShelfFrames := by simp only [State.dnat, State.dget, h.dict]
  simp only [State.phys, h.harbour, hshelf, h.order]

theorem memByte (a : Nat) : t.memByte a = s.memByte a :=
  State.memByte_congr (congrArg (lookupD 0#16 (a / 32)) h.delta) fun b _ => congrArg (lookupD 0#8 b) h.mem

theorem memWord (a : Nat) : t.memWord a = s.memWord a := by
  simp only [State.memWord, State.memBytes, h.memByte]

theorem walk (va fuel level table : Nat) : t.walk va fuel level table = s.walk va fuel level table := by
  induction fuel generalizing level table with
  | zero => rfl
  | succ fuel ih => simp only [State.walk, h.memWord, h.phys, h.fuses, ih]

theorem xlat (die owner va : Nat) : t.xlat die owner va = s.xlat die owner va := by
  simp only [State.xlat, h.root, h.walk]

theorem virtWords (die owner va n : Nat) : t.virtWords die owner va n = s.virtWords die owner va n := by
  simp only [State.virtWords, State.virtWord, State.virtByte, State.readPa, h.xlat, h.memByte]

theorem chainDesc (c : Chain) (d : Nat) : t.chainDesc c d = s.chainDesc c d := by
  simp only [State.chainDesc, h.virtWords]

end SameVirtual

theorem RunsVec.sameVirtual {s x t : State} {e task : Nat} {v : VecCmd} (h : RunsVec s x t e task v) : SameVirtual s x :=
  ⟨h.before.same .mem rfl, h.before.same .hbmDelta rfl, h.before.same .order rfl, h.before.same .dict rfl, h.before.same .fuses rfl,
    congrArg (· == 2) (h.before.fld_eq pwrStatusMode rfl 0 0), h.before.rd_eq .poolXlatRoot rfl⟩

/-- R204: a command that runs takes its key from the descriptor that its chain names as it is taken. -/
theorem RunsVec.genDescOf_before {s x t : State} {e task : Nat} {v : VecCmd} (h : RunsVec s x t e task v) :
    x.genDescOf e task v = s.genDescOf e task v := by
  simp only [State.genDescOf, State.chainOfTask_congr (h.before.same .chains rfl), h.sameVirtual.chainDesc]

end Sys2Proof.Machine
end

section
/-!
SUPPORT. The statements about the generator's commands, the flag commands and NOP (spec/04_vector_functions_random.md).
-/
namespace Sys2Proof.Machine

/-! ## The generator's commands (O19) -/

theorem State.vecRows_dropout {v : VecCmd} (hv : v.vop = vopDropout) (s : State) (e : Nat) (d : Desc) (rev : Nat) :
    s.vecRows e v (some d) rev = grid v fun r c =>
      if v.param ≤ draw16 (d.genKey rev) (d.index (v.orgRow + r) (v.orgCol + c)) then
        rounded ((dec32 (s.lensElem e v.a v.fmtA (r * v.cols + c))).mul (dec32 (s.operandB e v r c)))
      else ⟨0#32, false⟩ := by
  cases v; cases hv; rfl

theorem State.vecRows_randUniform {v : VecCmd} (hv : v.vop = vopRandUniform) (s : State) (e : Nat) (d : Desc) (rev : Nat) :
    s.vecRows e v (some d) rev = grid v fun r c =>
      rounded (.fin false (draw32 (d.genKey rev) (d.index (v.orgRow + r) (v.orgCol + c)) / 256) (-24)) := by
  cases v; cases hv; rfl

theorem State.workVec_gen {v : VecCmd} (hv : v.vop = vopDropout ∨ v.vop = vopRandUniform) (s : State) (e task : Nat) :
    s.workVec e task v = s.genEffect e task v := by
  rcases hv with hv | hv <;> cases v <;> cases hv <;> rfl

/-- R204, R205, R207: a context of a chain draws with the key of the descriptor that GEN_DESC names; the outputs drawn are counted. -/
theorem State.genEffect_of_some {s : State} {e task : Nat} {v : VecCmd} {ch : Chain} {d : Desc} {n : Nat}
    (hgen : s.genDescOf e task v = some (ch, d, n)) (hout : v.outDesc = 0xFFFF) : s.genEffect e task v =
      ((s.clamped (engCluster e) n).bump .engRngOutputCnt e 0 (v.outputs d)).emitLens e v (s.vecRows e v (some d) ch.stepRev) := by
  have hrows : (s.clamped (engCluster e) n).vecRows e v (some d) ch.stepRev = s.vecRows e v (some d) ch.stepRev :=
    State.vecRows_congr (s.clamped_lens ..) ..
  rw [State.genEffect, hgen]
  simp only [hrows, State.emit_of_lens hout]

/-- What a command that draws leaves without an output descriptor. -/
theorem gives_draws {c : Instr} {s : State} {e task vop : Nat} {w : Words4} {rows : List (List VecResult)} {ch : Chain} {d : Desc} {n : Nat}
    (hexec : exec c s = .next (s.takeCmd e task (withVop w vop))) (hop : vop = vopDropout ∨ vop = vopRandUniform)
    (hfree : EngineFree s e task) (hout : (parseVec (withVop w vop)).1.outDesc = 0xFFFF)
    (hgen : s.genDescOf e task (parseVec (withVop w vop)).1 = some (ch, d, n))
    (hrows : (parseVec (withVop w vop)).1.vop = vop → s.vecRows e (parseVec (withVop w vop)).1 (some d) ch.stepRev = rows) :
    Gives c s fun t => LensHolds s t e (parseVec (withVop w vop)).1 rows ∧
      t.rd .engRngOutputCnt e 0 = s.rd .engRngOutputCnt e 0 + BitVec.ofNat 64 ((parseVec (withVop w vop)).1.outputs d) := by
  have hcode : vop ∈ vopCodes := by rcases hop with rfl | rfl <;> decide
  have hvop := parseVec_withVop_vop hcode w
  obtain ⟨x, hrun⟩ := State.takeCmd_withVop (vop := vop) hfree w
  have hwork := State.workVec_gen (hvop.symm ▸ hop) x e task
  rw [State.genEffect_of_some (hrun.genDescOf_before.trans hgen) hout, State.vecRows_congr hrun.lens_before, hrows hvop] at hwork
  refine ⟨_, hexec, ?_, ?_⟩
  · rw [LensHolds, hrun.lens_after, hrun.mem_after, hwork]
    refine State.emitLens_holds ?_ ?_ ..
    · rw [State.bump_lens, State.clamped_lens, hrun.lens_before]
    · rw [State.bump_mem, (x.clamped_reach ..).same .mem rfl, hrun.mem_before]
  · rw [hrun.after.rd_eq .engRngOutputCnt rfl, hwork, State.emitLens_rd (by decide) (by decide), State.rd_bump_self,
      State.clamped_rd (by decide), hrun.before.rd_eq .engRngOutputCnt rfl]

/-! ## The flag commands and NOP (O11, O19) -/

theorem State.workVec_nop {v : VecCmd} (hv : v.vop = vopNop) (s : State) (e task : Nat) : s.workVec e task v = s := if_pos hv

theorem State.workVec_flagsClear {v : VecCmd} (hv : v.vop = vopFlagsClear) (s : State) (e task : Nat) :
    s.workVec e task v = (s.wr .galFlagEntry 0 v.flagIdx 0#64).wr .galFlagEntry 1 v.flagIdx 0#64 := by
  cases v; cases hv; rfl

/-- R175: the flags of an entry as FLAGS_GET writes them. -/
def State.putFlags (s : State) (e : Nat) (v : VecCmd) (f : Nat → F32) : State :=
  ((s.lensPutF32 e (v.d * 64) (f 0)).lensPutF32 e (v.d * 64 + 4) (f 1)).lensPutF32 e (v.d * 64 + 8) (f 2)

theorem State.workVec_flagsGet {v : VecCmd} (hv : v.vop = vopFlagsGet) (s : State) (e task : Nat) :
    s.workVec e task v = s.putFlags e v (s.flagF32 e v) := by
  cases v; cases hv; rfl

theorem State.putFlags_lens_congr {s t : State} (hlens : t.lens = s.lens) (e : Nat) (v : VecCmd) (f : Nat → F32) :
    (t.putFlags e v f).lens = (s.putFlags e v f).lens :=
  State.lensPutF32_lens_congr (State.lensPutF32_lens_congr (State.lensPutF32_lens_congr hlens ..) ..) ..

/-- R175: FLAGS_GET leaves the three flags, and nothing else, in the lens buffers. -/
theorem flagsGet_leaves {s : State} {e : EngId} {task : Fin 4} (w : Words4) (hfree : EngineFree s (EngIdIdx e) task.val) :
    let v := (parseVec (withVop w vopFlagsGet)).1
    Gives (.flagsGet e task w) s fun t => t.lens = (s.putFlags (EngIdIdx e) v (s.flagF32 (EngIdIdx e) v)).lens := by
  intro v
  have hvop : v.vop = vopFlagsGet := parseVec_withVop_vop (by decide) w
  obtain ⟨x, hrun⟩ := State.takeCmd_withVop (vop := vopFlagsGet) hfree w
  have hflags : x.flagF32 (EngIdIdx e) v = s.flagF32 (EngIdIdx e) v := funext hrun.flagF32_before
  refine ⟨_, rfl, hrun.lens_after.trans ?_⟩
  rw [State.workVec_flagsGet hvop, hflags, State.putFlags_lens_congr hrun.lens_before]

/-- R175: FLAGS_CLEAR leaves the entry zero on both dies. -/
theorem flagsClear_leaves {s : State} {e : EngId} {task : Fin 4} (w : Words4) (hfree : EngineFree s (EngIdIdx e) task.val) :
    let v := (parseVec (withVop w vopFlagsClear)).1
    Gives (.flagsClear e task w) s fun t =>
      (t.rd .galFlagEntry 0 v.flagIdx = 0#64 ∧ t.rd .galFlagEntry 1 v.flagIdx = 0#64) ∧ t.lens = s.lens := by
  intro v
  have hvop : v.vop = vopFlagsClear := parseVec_withVop_vop (by decide) w
  obtain ⟨x, hrun⟩ := State.takeCmd_withVop (vop := vopFlagsClear) hfree w
  have hwork := State.workVec_flagsClear hvop x (EngIdIdx e) task.val
  refine ⟨_, rfl, ⟨?_, ?_⟩, ?_⟩
  · rw [hrun.after.rd_eq .galFlagEntry rfl, hwork, State.rd_wr_place _ _ _ (.inl (by decide)), State.rd_wr_self]
  · rw [hrun.after.rd_eq .galFlagEntry rfl, hwork, State.rd_wr_self]
  · rw [hrun.lens_after, hwork, State.wr_lens, State.wr_lens, hrun.lens_before]

/-- R165: the image that a NOP's engine takes is a vector command, read as NOP. -/
theorem nop_image (w : Words4) : ∃ w' : Words4, (∀ (e : EngId) (task : Fin 4) (s : State),
    exec (.nop e task w) s = .next (s.takeCmd (EngIdIdx e) task.val w')) ∧
    bitsOf w'.w0 0 4 = 2 ∧ w'.w2 = w.w2 ∧ (parseVec w').1.vop = vopNop := by
  refine ⟨if vopCodes.contains (bitsOf w.w0 4 6) then withVop w vopNop else withOpc w 2, fun _ _ _ => rfl, ?_⟩
  split
  · exact ⟨withVop_opc .., rfl, parseVec_withVop_vop (by decide) w⟩
  · next hreserved =>
    have hbits : bitsOf (withOpc w 2).w0 4 6 = bitsOf w.w0 4 6 := bitsOf_withBits_above _ _ _ _ _ _ (by decide) (by decide)
    exact ⟨withOpc_opc .., rfl, by rw [parseVec_vop, hbits, if_neg hreserved]⟩

/-- R164: NOP is counted and leaves the lens buffers. -/
theorem nop_leaves {s : State} {e : EngId} {task : Fin 4} (w : Words4) (hfree : EngineFree s (EngIdIdx e) task.val) :
    Gives (.nop e task w) s fun t =>
      t.rd .engVopCnt (EngIdIdx e) vopNop = s.rd .engVopCnt (EngIdIdx e) vopNop + 1#64 ∧ t.lens = s.lens := by
  obtain ⟨w', hexec, hopc, -, hvop⟩ := nop_image w
  obtain ⟨x, hrun⟩ := State.takeCmd_runsVec hfree hopc
  have hcnt := hrun.counted
  refine ⟨_, hexec e task s, ?_, ?_⟩
  · rwa [State.workVec_nop hvop, hrun.before.rd_eq .engVopCnt rfl, hvop] at hcnt
  · rw [hrun.lens_after, State.workVec_nop hvop, hrun.lens_before]

/-- Settles O19: the generator's commands by what a command that draws leaves; the flag commands, NOP and the register write one by one. -/
theorem generatorFlagAndNopCommands : Obligations.GeneratorFlagAndNopCommands := by
  refine ⟨?dropout, ?randUniform, ?flagsClear, ?flagsGet, ?nop, ?entryClear⟩
  case dropout =>
    intro s e task w ch d n v hfree hout hgen
    exact gives_draws rfl (.inl rfl) hfree hout hgen fun hvop => State.vecRows_dropout hvop ..
  case randUniform =>
    intro s e task w ch d n v hfree hout hgen
    exact gives_draws rfl (.inr rfl) hfree hout hgen fun hvop => State.vecRows_randUniform hvop ..
  case flagsClear =>
    intro s e task w v hfree
    exact flagsClear_leaves w hfree
  case flagsGet =>
    intro s e task w v hfree
    exact flagsGet_leaves w hfree
  case nop =>
    intro s e task w hfree
    exact nop_leaves w hfree
  case entryClear =>
    intro s die idx value
    exact ⟨_, rfl, State.rd_wr_self ..⟩

end Sys2Proof.Machine
end

section
/-!
SUPPORT. Reads of the lens buffers after a write, and the statement about FLAGS_GET and FLAGS_CLEAR (spec/04_vector_functions_random.md).
-/
namespace Sys2Proof.Machine

/-! ## Reads of the lens buffers after a write -/

/-- A byte that is written is read. -/
theorem State.lensByte_lensPut_in (s : State) (e : Nat) {a i : Nat} {bs : List Byte} (hi : i < bs.length)
    (hfits : a + bs.length ≤ lensSize) : (s.lensPut e a bs).lensByte e (a + i) = bs[i] := by
  have htake : bs.take (lensSize - a) = bs := List.take_of_length_le (by omega)
  rw [State.lensByte, if_pos (by omega), State.lensPut, htake, ← Nat.add_assoc]
  exact lookupD_putRun_in 0#8 bs _ i _ hi

/-- A write leaves the bytes of other engines and those outside its run. -/
theorem State.lensByte_lensPut_out (s : State) {e d a off : Nat} {bs : List Byte} (h : d ≠ e ∨ off < a ∨ a + bs.length ≤ off) :
    (s.lensPut e a bs).lensByte d off = s.lensByte d off := by
  unfold State.lensByte
  split
  · next hoff =>
    refine lookupD_putRun_out 0#8 0#8 _ _ ?_
    rw [List.length_take]
    rw [lensSize] at hoff ⊢
    omega
  · rfl

theorem State.lensF32_lensPutF32_self (s : State) (e : Nat) {a : Nat} (hfits : a + 4 ≤ lensSize) (v : F32) :
    (s.lensPutF32 e a v).lensF32 e a = v := by
  have hbytes : ((List.range 4).map fun k => (s.lensPutF32 e a v).lensByte e (a + k)) = bytesOf v.toNat 4 := by
    refine List.ext_getElem (by simp) fun k hk _ => ?_
    rw [List.getElem_map, List.getElem_range]
    exact State.lensByte_lensPut_in s e (by simpa using hk) (by simpa using hfits)
  rw [State.lensF32, hbytes, natOfBytes_bytesOf, Nat.mod_eq_of_lt v.isLt, BitVec.ofNat_toNat, BitVec.setWidth_eq]

theorem State.lensF32_lensPutF32_apart (s : State) (e : Nat) {a b : Nat} (h : b + 4 ≤ a ∨ a + 4 ≤ b) (v : F32) :
    (s.lensPutF32 e a v).lensF32 e b = s.lensF32 e b := by
  have hbytes : ∀ k ∈ List.range 4, (s.lensPutF32 e a v).lensByte e (b + k) = s.lensByte e (b + k) := by
    intro k hk
    rw [List.mem_range] at hk
    refine State.lensByte_lensPut_out s (.inr ?_)
    rw [length_bytesOf]
    omega
  rw [State.lensF32, List.map_congr_left hbytes, State.lensF32]

/-! ## The flags (O11) -/

/-- R175: D[0], D[1] and D[2] are the three flags. -/
theorem State.lensF32_putFlags {v : VecCmd} (hd : v.d < 24576) (s : State) (e : Nat) (f : Nat → F32) (k : Fin 3) :
    (s.putFlags e v f).lensF32 e (v.d * 64 + 4 * k.val) = f k.val := by
  have hfits : v.d * 64 + 12 ≤ lensSize := by
    rw [lensSize]
    omega
  unfold State.putFlags
  match k with
  | 0 =>
    rw [State.lensF32_lensPutF32_apart _ _ (.inl (by simp)), State.lensF32_lensPutF32_apart _ _ (.inl (by simp))]
    exact State.lensF32_lensPutF32_self _ _ (by omega) _
  | 1 =>
    rw [State.lensF32_lensPutF32_apart _ _ (.inl (by simp))]
    exact State.lensF32_lensPutF32_self _ _ (by omega) _
  | 2 => exact State.lensF32_lensPutF32_self _ _ (by omega) _

/-- Settles O11: what FLAGS_GET writes is read back; an entry that FLAGS_CLEAR leaves zero has no flag. -/
theorem flagsAreReadAndCleared : Obligations.FlagsAreReadAndCleared := by
  refine ⟨?get, ?clear⟩
  case get =>
    intro s e task w v flags hfree
    obtain ⟨t, hexec, hlens⟩ := flagsGet_leaves w hfree
    refine ⟨t, hexec, fun k => ?_⟩
    rw [State.lensF32_congr hlens]
    exact State.lensF32_putFlags (parseVec_d_lt _) s _ (s.flagF32 (EngIdIdx e) v) k
  case clear =>
    intro s e task w v hfree
    obtain ⟨t, hexec, ⟨hfirst, hsecond⟩, -⟩ := flagsClear_leaves w hfree
    refine ⟨t, hexec, fun die k => ?_⟩
    match die with
    | 0 => exact hfirst ▸ bitOf_zero k.val
    | 1 => exact hsecond ▸ bitOf_zero k.val

end Sys2Proof.Machine
end

section
/-!
SUPPORT. The statement about what a vector command leaves alone (spec/04_vector_functions_random.md, spec/06_onchip_memory.md): each part of
a command that writes to the lens keeps to its engine, and so does the whole.
-/
namespace Sys2Proof.Machine

/-! ## Keeping to one engine -/

/-- The two states agree on every engine but `e`, on its registers and its lens bytes, and on what the engines share. -/
structure OthersKept (e : Nat) (s t : State) : Prop where
  eng : ∀ d : Nat, d ≠ e → t.eng d = s.eng d
  rd : ∀ (r : Reg) (u i : Nat), (regInfo r).block = .eng → u < 96 → u ≠ e → t.rd r u i = s.rd r u i
  mem : t.mem = s.mem
  chains : t.chains = s.chains
  coll : t.coll = s.coll
  pool : t.pool = s.pool
  beam : t.beam = s.beam
  lensByte : ∀ d off : Nat, d ≠ e → t.lensByte d off = s.lensByte d off

/-- The cells that `OthersKept` speaks of: memory, lens buffers, engines, chains, pool, beam, collectives and the engines' registers. -/
abbrev engineCells : Nat := 0x1fffffff0000000001003063

/-- The registers of an engine's block are among them. -/
theorem engineCells_testBit_reg {r : Reg} (h : (regInfo r).block = .eng) : engineCells.testBit (64 + r.ctorIdx) = true := by
  cases r <;> first | rfl | cases h

namespace OthersKept
variable {e : Nat} {r s t : State}

theorem refl (e : Nat) (s : State) : OthersKept e s s :=
  ⟨fun _ _ => rfl, fun _ _ _ _ _ _ => rfl, rfl, rfl, rfl, rfl, rfl, fun _ _ _ => rfl⟩

theorem trans (h : OthersKept e r s) (k : OthersKept e s t) : OthersKept e r t where
  eng d hd := (k.eng d hd).trans (h.eng d hd)
  rd q u i hq hu hne := (k.rd q u i hq hu hne).trans (h.rd q u i hq hu hne)
  mem := k.mem.trans h.mem
  chains := k.chains.trans h.chains
  coll := k.coll.trans h.coll
  pool := k.pool.trans h.pool
  beam := k.beam.trans h.beam
  lensByte d off hd := (k.lensByte d off hd).trans (h.lensByte d off hd)

theorem ite {c : Prop} [Decidable c] (h : OthersKept e r s) (k : OthersKept e r t) : OthersKept e r (if c then s else t) := by
  split
  · exact h
  · exact k

/-- What reaches none of these cells keeps them all. -/
theorem of_reach {F : Nat} (h : Reach F s t) (hout : F &&& engineCells = 0) : OthersKept e s t := by
  have hbit : ∀ {k : Nat}, engineCells.testBit k = true → F.testBit k = false := by
    intro k hk
    have hand : (F &&& engineCells).testBit k = false := by rw [hout, Nat.zero_testBit]
    rwa [Nat.testBit_and, hk, Bool.and_true] at hand
  exact {
    eng := fun d _ => h.eng_eq (hbit rfl) d
    rd := fun q u i hq _ _ => h.rd_eq q (hbit (engineCells_testBit_reg hq)) u i
    mem := h.same .mem (hbit rfl)
    chains := h.same .chains (hbit rfl)
    coll := h.same .coll (hbit rfl)
    pool := h.same .pool (hbit rfl)
    beam := h.same .beam (hbit rfl)
    lensByte := fun d off _ => State.lensByte_congr (h.same .lens (hbit rfl)) d off }

/-- A counter of the engine's own unit. -/
theorem bump (he : e < 96) (h : OthersKept e s t) (q : Reg) (i n : Nat) : OthersKept e s (t.bump q e i n) :=
  h.trans { refl e t with rd := fun b u j _ hu hne => State.rd_wr_unit (by omega) t q b i j _ }

theorem setEng (h : OthersKept e s t) (x : Engine) : OthersKept e s (t.setEng e x) :=
  h.trans { refl e t with eng := fun _ hd => State.eng_setEng_ne hd t x }

theorem lensPut (h : OthersKept e s t) (a : Nat) (bs : List Byte) : OthersKept e s (t.lensPut e a bs) :=
  h.trans { refl e t with lensByte := fun _ _ hd => State.lensByte_lensPut_out t (.inl hd) }

theorem lensPutF32 (h : OthersKept e s t) (a : Nat) (v : F32) : OthersKept e s (t.lensPutF32 e a v) := h.lensPut ..

theorem clamped (h : OthersKept e s t) (k n : Nat) : OthersKept e s (t.clamped k n) := h.trans (of_reach (t.clamped_reach ..) rfl)

theorem traceCmd (h : OthersKept e s t) (l ty d task opc index n : Nat) : OthersKept e s (t.traceCmd l ty d task opc index n) :=
  h.trans (of_reach (t.traceCmd_reach ..) rfl)

theorem postFlags (h : OthersKept e s t) (idx : Nat) (f : Flags) : OthersKept e s (t.postFlags idx f) :=
  h.trans (of_reach (t.postFlags_reach ..) rfl)

theorem openTile (h : OthersKept e s t) (task opc index : Nat) : OthersKept e s (t.openTile e task opc index) :=
  h.trans (.ite (.refl e t) (.ite (((refl e t).setEng _).traceCmd ..) ((refl e t).setEng _)))

/-! ## The parts of a vector command -/

theorem emitLens (he : e < 96) (h : OthersKept e s t) (v : VecCmd) (rows : List (List VecResult)) : OthersKept e s (t.emitLens e v rows) :=
  h.trans ((((refl e t).lensPut ..).bump he ..).postFlags ..)

theorem putRowStates (h : OthersKept e s t) (v : VecCmd) (l : List (Nat × SmxRow)) : OthersKept e s (t.putRowStates e v l) := by
  induction l generalizing t with
  | nil => exact h
  | cons p l ih => exact ih (((h.lensPutF32 ..).lensPutF32 ..).lensPutF32 ..)

theorem skipEffect (he : e < 96) (h : OthersKept e s t) (v : VecCmd) : OthersKept e s (t.skipEffect e v) := by
  unfold State.skipEffect
  extract_lets old rows mapped hit pairs
  have hmapped : OthersKept e s mapped := h.lensPut ..
  exact .ite hmapped (.ite ((hmapped.bump he ..).bump he ..) ((hmapped.bump he ..).bump he ..))

theorem genEffect (he : e < 96) (h : OthersKept e s t) (task : Nat) {v : VecCmd} (hout : v.outDesc = 0xFFFF) :
    OthersKept e s (t.genEffect e task v) := by
  cases hgen : t.genDescOf e task v with
  | none => rwa [State.genEffect, hgen]
  | some p =>
    rw [State.genEffect_of_some hgen hout]
    exact ((h.clamped ..).bump he ..).emitLens he ..

theorem enterVec (he : e < 96) (h : OthersKept e s t) (task index : Nat) (v : VecCmd) (clamps : Nat) :
    OthersKept e s (t.enterVec e task index v clamps) := by
  unfold State.enterVec
  extract_lets clamped opened traced acc counted slots cycles
  have hcounted : OthersKept e s counted := (((h.clamped ..).openTile ..).traceCmd ..).bump he ..
  exact .ite ((hcounted.bump he ..).bump he ..) hcounted

/-- R167: without an output descriptor the operation keeps to its engine. -/
theorem workVec (he : e < 96) (h : OthersKept e s t) (task : Nat) {v : VecCmd} (hout : v.outDesc = 0xFFFF) :
    OthersKept e s (t.workVec e task v) := by
  have hcleared : OthersKept e s ((t.wr .galFlagEntry 0 v.flagIdx 0#64).wr .galFlagEntry 1 v.flagIdx 0#64) :=
    h.trans (of_reach (.wr (.wr (.refl 0x400000000000000000000000000000000 t) rfl) rfl) rfl)
  have hemitted : ∀ u rows, OthersKept e s u → OthersKept e s (u.emit e task v rows) := fun u rows hu => by
    rw [State.emit_of_lens hout]
    exact hu.emitLens he ..
  exact .ite h (.ite hcleared (.ite (((h.lensPutF32 ..).lensPutF32 ..).lensPutF32 ..) (.ite (h.skipEffect he v)
    (.ite (h.genEffect he task hout) (.ite (hemitted _ _ (h.putRowStates ..)) (hemitted _ _ h))))))

end OthersKept

/-! ## The commands (O10) -/

/-- A vector command without an output descriptor, on an engine where nothing stands before it. -/
theorem State.takeCmd_othersKept {s : State} {e task : Nat} (he : e < 96) (hfree : EngineFree s e task) {w : Words4}
    (hopc : bitsOf w.w0 0 4 = 2) (hout : bitsOf w.w2 32 16 = 0xFFFF) : OthersKept e s (s.takeCmd e task w) := by
  obtain ⟨index, clamps, cycles, htake⟩ := State.takeCmd_vec hfree hopc
  rw [htake]
  exact (((((OthersKept.refl e s).setEng _).enterVec he ..).workVec he task hout).bump he ..).traceCmd ..

/-- R163, R164: every vector command is taken by its engine, as an image of a vector command with the output descriptor given. -/
theorem exec_of_mem_vectorCommands {f : EngId → Fin 4 → Words4 → Instr} (hf : f ∈ vectorCommands) (e : EngId) (task : Fin 4)
    (w : Words4) (s : State) : ∃ w' : Words4, exec (f e task w) s = .next (s.takeCmd (EngIdIdx e) task.val w') ∧
      bitsOf w'.w0 0 4 = 2 ∧ w'.w2 = w.w2 := by
  have hvop : ∀ {c : Instr} (vop : Nat), exec c s = .next (s.takeCmd (EngIdIdx e) task.val (withVop w vop)) →
      ∃ w' : Words4, exec c s = .next (s.takeCmd (EngIdIdx e) task.val w') ∧ bitsOf w'.w0 0 4 = 2 ∧ w'.w2 = w.w2 :=
    fun vop hexec => ⟨withVop w vop, hexec, withVop_opc .., rfl⟩
  revert f
  simp only [vectorCommands, List.forall_mem_cons, List.not_mem_nil, false_implies, implies_true, and_true]
  obtain ⟨w', hexec, hopc, hw2, -⟩ := nop_image w
  refine ⟨⟨w', hexec e task s, hopc, hw2⟩, ?_⟩
  and_intros <;> exact hvop _ rfl

/-- Settles O10: every vector command is an image that its engine takes, and what it takes keeps to it. -/
theorem vectorCommandsStayInTheirEngine : Obligations.VectorCommandsStayInTheirEngine := by
  intro s f e task w hf hfree hout
  obtain ⟨w', hexec, hopc, hw2⟩ := exec_of_mem_vectorCommands hf e task w s
  have hkept := State.takeCmd_othersKept (engIndex_lt e.toNat) hfree hopc (hw2 ▸ hout)
  exact ⟨_, hexec, hkept.eng, hkept.rd, hkept.mem, hkept.chains, hkept.coll, hkept.pool, hkept.beam,
    fun d off hd => hkept.lensByte d.val off hd⟩

end Sys2Proof.Machine
end

section
/-!
SUPPORT. Bank grants, check bits and line CRCs of on-package SRAM (spec/06_onchip_memory.md), said once for each operation: who is served next,
what a failing byte stops, and which bytes of memory a line that arrives is left in.
-/
namespace Sys2Proof.Machine

/-! ## Slots of a cluster memory (R274) -/

/-- The requesters of a rotation below `n` whose bit is set take their place at a bank. -/
def State.enterRanks (s : State) (cluster bank : Nat) (others : BitVec 6) (n : Nat) : State :=
  (List.range n).foldl (fun s k => if others.getLsbD k then s.cluEnter cluster bank k else s) s

theorem State.cluEnter_wants (s : State) (cluster bank rank j : Nat) : lookupD 0 j (s.cluEnter cluster bank rank).sram.wants =
    lookupD 0 j s.sram.wants + if j = (cluster * 8 + bank) * 6 + rank then 1 else 0 := by
  have hwants : (s.cluEnter cluster bank rank).sram.wants = putD 0 ((cluster * 8 + bank) * 6 + rank)
    (lookupD 0 ((cluster * 8 + bank) * 6 + rank) s.sram.wants + 1) s.sram.wants := rfl
  rw [hwants]
  split
  case isTrue hj => rw [hj, lookupD_putD_self]
  case isFalse hj => rw [lookupD_putD_ne 0 0 hj, Nat.add_zero]

theorem State.enterRanks_wants (s : State) (cluster bank : Nat) (others : BitVec 6) (n g : Nat) :
    lookupD 0 ((cluster * 8 + bank) * 6 + g) (s.enterRanks cluster bank others n).sram.wants =
      lookupD 0 ((cluster * 8 + bank) * 6 + g) s.sram.wants + if g < n then (others.getLsbD g).toNat else 0 := by
  induction n with
  | zero => rfl
  | succ n ih =>
    have hstep : s.enterRanks cluster bank others (n + 1) =
        if others.getLsbD n then (s.enterRanks cluster bank others n).cluEnter cluster bank n else s.enterRanks cluster bank others n := by
      rw [State.enterRanks, List.range_succ, List.foldl_append]
      rfl
    rw [hstep]
    rcases Nat.lt_trichotomy g n with hlt | rfl | hgt
    · split <;> simp [State.cluEnter_wants, ih, hlt, Nat.lt_succ_of_lt hlt, hlt.ne]
    · split <;> rename_i hbit <;> simp [State.cluEnter_wants, ih, hbit]
    · split <;> simp [State.cluEnter_wants, ih, hgt.not_gt, hgt.not_ge, hgt.ne']

theorem State.enterRanks_granted (s : State) (cluster bank : Nat) (others : BitVec 6) (n : Nat) :
    (s.enterRanks cluster bank others n).sram.granted = s.sram.granted := by
  induction n with
  | zero => rfl
  | succ n ih =>
    rw [State.enterRanks, List.range_succ, List.foldl_append]
    show (if _ then _ else _ : State).sram.granted = _
    split <;> exact ih

theorem State.enterRanks_regs (s : State) (cluster bank : Nat) (others : BitVec 6) (n : Nat) :
    (s.enterRanks cluster bank others n).regs = s.regs := by
  induction n with
  | zero => rfl
  | succ n ih =>
    rw [State.enterRanks, List.range_succ, List.foldl_append]
    show (if _ then _ else _ : State).regs = _
    split <;> exact ih

/-- The place in the rotation, counted from the one after the last granted, of the first requester that wants a slot. -/
theorem rotation_first {wants : Nat → Nat} (last : Nat) (h : ∃ g ∈ List.range 6, 0 < wants g) : ∃ k ∈ List.range 6,
    (List.range 6).find? (fun k => decide (0 < wants ((last + 1 + k) % 6))) = some k ∧
    0 < wants ((last + 1 + k) % 6) ∧ ∀ j ∈ List.range k, wants ((last + 1 + j) % 6) = 0 := by
  obtain ⟨g, hg, hwants⟩ := h
  have hg6 := List.mem_range.mp hg
  have hturn : (last + 1 + (g + 6 - (last + 1) % 6) % 6) % 6 = g := by omega
  have hsome : ((List.range 6).find? fun k => decide (0 < wants ((last + 1 + k) % 6))).isSome = true := by
    rw [List.find?_isSome]
    exact ⟨(g + 6 - (last + 1) % 6) % 6, List.mem_range.mpr (Nat.mod_lt _ (by decide)), by rw [hturn]; exact decide_eq_true hwants⟩
  obtain ⟨k, hk⟩ := Option.isSome_iff_exists.mp hsome
  obtain ⟨hfirst, hmem, hbefore⟩ := List.find?_range_eq_some.mp hk
  exact ⟨k, hmem, hk, of_decide_eq_true hfirst, fun j hj => by simpa using hbefore j (List.mem_range.mp hj)⟩

/-- One slot of a bank granted to a requester. -/
def State.grantRank (s : State) (cluster bank g : Nat) : State :=
  { s with sram := { s.sram with
      granted := putD 5 (cluster * 8 + bank) g s.sram.granted
      wants := putD 0 ((cluster * 8 + bank) * 6 + g) (lookupD 0 ((cluster * 8 + bank) * 6 + g) s.sram.wants - 1) s.sram.wants } }.bump
    .cluMemSlotCnt cluster bank 1

theorem clusterBankGrantEffect_of_first {s : State} {cluster : Fin 24} {bank : Fin 8} {others : BitVec 6} {last k : Nat}
    (hlast : lookupD 5 (cluster.val * 8 + bank.val) s.sram.granted = last)
    (hfirst : (List.range 6).find? (fun k => decide (0 < lookupD 0 ((cluster.val * 8 + bank.val) * 6 + (last + 1 + k) % 6)
      (s.enterRanks cluster.val bank.val others 6).sram.wants)) = some k) :
    clusterBankGrantEffect cluster bank others s = (s.enterRanks cluster.val bank.val others 6).grantRank cluster.val bank.val ((last + 1 + k) % 6) := by
  have hlast6 : lookupD 5 (cluster.val * 8 + bank.val) (s.enterRanks cluster.val bank.val others 6).sram.granted = last := by
    rw [State.enterRanks_granted, hlast]
  unfold State.enterRanks at hfirst hlast6
  simp only [clusterBankGrantEffect, hlast6, hfirst]
  rfl

/-- R274: what a grant leaves where some requester wants the bank. -/
theorem clusterBankGrantEffect_serves (s : State) (cluster : Fin 24) (bank : Fin 8) (others : BitVec 6) :
    let key := cluster.val * 8 + bank.val
    let last := lookupD 5 key s.sram.granted
    let wants := fun g : Nat => lookupD 0 (key * 6 + g) s.sram.wants + (others.getLsbD g).toNat
    (∃ g ∈ List.range 6, 0 < wants g) →
    let t := clusterBankGrantEffect cluster bank others s
    (∃ k ∈ List.range 6, 0 < wants ((last + 1 + k) % 6) ∧ (∀ j ∈ List.range k, wants ((last + 1 + j) % 6) = 0) ∧
      lookupD 5 key t.sram.granted = (last + 1 + k) % 6 ∧
      lookupD 0 (key * 6 + (last + 1 + k) % 6) t.sram.wants = wants ((last + 1 + k) % 6) - 1) ∧
    t.rd .cluMemSlotCnt cluster.val bank.val = s.rd .cluMemSlotCnt cluster.val bank.val + 1#64 := by
  intro key last wants hsome t
  obtain ⟨k, hk, hfind, hfirst, hbefore⟩ := rotation_first last hsome
  have hwants : ∀ g : Nat, lookupD 0 ((cluster.val * 8 + bank.val) * 6 + g % 6) (s.enterRanks cluster.val bank.val others 6).sram.wants = wants (g % 6) := fun g => by
    rw [State.enterRanks_wants, if_pos (Nat.mod_lt _ (by decide))]
  have ht : t = (s.enterRanks cluster.val bank.val others 6).grantRank cluster.val bank.val ((last + 1 + k) % 6) :=
    clusterBankGrantEffect_of_first rfl (by simpa only [hwants] using hfind)
  refine ⟨⟨k, hk, hfirst, hbefore, ?_, ?_⟩, ?_⟩
  · rw [ht]
    exact lookupD_putD_self ..
  · rw [ht, ← hwants]
    exact lookupD_putD_self ..
  · rw [ht, State.grantRank, State.rd_bump_self]
    exact congrArg (lookupD _ _ · + _) (s.enterRanks_regs ..)

/-! ## Slots of a gallery (R276, R277) -/

theorem GalBank.refill_of_held_nil {b : GalBank} (h : b.held = []) (cap : Nat) : b.refill cap = b := by
  cases b
  subst h
  rfl

/-- R277: the one owner that waits is served, in its own turn or in the next. -/
theorem wrrPick_singleton (weight : Nat → Nat) (owner credit : Nat) {o : Nat} (ho : o < 64) :
    ∃ left, wrrPick weight owner credit [o] = some (o, left) := by
  unfold wrrPick
  split
  case isTrue hown =>
    have : owner = o := by simpa using hown.2
    exact ⟨credit - 1, by rw [this]⟩
  case isFalse =>
    have hturn : (owner + 1 + (o + 64 - (owner + 1) % 64) % 64) % 64 = o := by omega
    cases hfind : (List.range 64).find? fun k => [o].contains ((owner + 1 + k) % 64) with
    | none =>
      have hnone := List.find?_eq_none.mp hfind ((o + 64 - (owner + 1) % 64) % 64) (List.mem_range.mpr (Nat.mod_lt _ (by decide)))
      simp [hturn] at hnone
    | some k =>
      have hk : (owner + 1 + k) % 64 = o := by simpa using List.find?_some hfind
      exact ⟨weight o - 1, by simp only [hk]⟩

theorem State.galBank_setGalBank_self (s : State) (die bank : Nat) (b : GalBank) : (s.setGalBank die bank b).galBank die bank = b :=
  lookupD_putD_self ..

/-- R276, R277: a bank with one request and none held serves it. -/
theorem galleryBankGrantEffect_serves {s : State} {die : Fin 2} {bank : Fin 64} {r : GalRequest}
    (hqueue : (s.galBank die.val bank.val).queue = [r]) (hheld : (s.galBank die.val bank.val).held = []) (hr : r.owner < 64) :
    let t := galleryBankGrantEffect die bank [] s
    ((t.galBank die.val bank.val).queue = [] ∧ (t.galBank die.val bank.val).owner = r.owner) ∧
      t.rd .galSlotCnt die.val 0 = s.rd .galSlotCnt die.val 0 + 1#64 := by
  intro t
  have hempty : ∀ owner credit, ({ s.galBank die.val bank.val with queue := [], owner := owner, credit := credit } : GalBank).refill
      (s.bankCap die.val) = { s.galBank die.val bank.val with queue := [], owner := owner, credit := credit } := fun owner credit =>
    GalBank.refill_of_held_nil (b := { s.galBank die.val bank.val with queue := [], owner := owner, credit := credit }) hheld _
  obtain ⟨left, hpick⟩ := wrrPick_singleton (s.ownerWeight die.val) (s.galBank die.val bank.val).owner (s.galBank die.val bank.val).credit hr
  have ht : t = (s.bump .galSlotCnt die.val 0 1).setGalBank die.val bank.val
      { s.galBank die.val bank.val with queue := [], owner := r.owner, credit := left } := by
    simp only [t, galleryBankGrantEffect, List.foldl_nil, GalBank.refill_of_held_nil hheld, hqueue, List.map_cons, List.map_nil, hpick,
      eraseFirst, beq_self_eq_true, if_true, hempty]
  rw [ht, State.galBank_setGalBank_self]
  exact ⟨⟨rfl, rfl⟩, State.rd_bump_self ..⟩

/-! ## Check bits that fail (R281, R286, R287) -/

theorem State.logFirst_rd_ne {a b : Reg} (h : b ≠ a) (s : State) (u v ovf w x i : Nat) : (s.logFirst a u v ovf w).rd b x i = s.rd b x i := by
  unfold State.logFirst
  split <;> exact State.rd_wr_ne h ..

/-- R289: an error that its unit's count still allows stops the unit. -/
theorem State.rerunError_of_allowed {s : State} {c : Chain} (hrun : (s.findUnit c.launch c.unit).stopped = false)
    (hcount : (s.findUnit c.launch c.unit).count < s.dnat dkParityRerunLimit) (status : Nat) : s.rerunError c status =
    (s.setUnit { s.findUnit c.launch c.unit with count := (s.findUnit c.launch c.unit).count + 1, stopped := true, status := status }).stopUnit
      c c.unit := by
  simp only [State.rerunError, hrun, Nat.not_le.mpr hcount, if_false, Bool.false_eq_true]

/-- The cells that `SameVirtual` speaks of. -/
abbrev virtualCells : List Cell := [.mem, .hbmDelta, .order, .dict, .fuses, .reg .pwrStatus, .reg .poolXlatRoot]

/-- What reaches none of these cells leaves device virtual memory as it reads. -/
theorem Reach.sameVirtual {F : Nat} {s t : State} (h : Reach F s t) (hout : ∀ c ∈ virtualCells, F.testBit c.code = false) :
    SameVirtual s t where
  mem := h.same .mem (hout _ (by decide))
  delta := h.same .hbmDelta (hout _ (by decide))
  order := h.same .order (hout _ (by decide))
  dict := h.same .dict (hout _ (by decide))
  fuses := h.same .fuses (hout _ (by decide))
  harbour := congrArg (· == 2) (h.fld_eq pwrStatusMode (hout (.reg .pwrStatus) (by decide)) 0 0)
  root := h.rd_eq .poolXlatRoot (hout (.reg .poolXlatRoot) (by decide))

theorem State.regionClamp_sameVirtual (s : State) (cluster : Nat) (g : RegionRec) : SameVirtual s (s.regionClamp cluster g) :=
  (s.regionClamp_reach ..).sameVirtual (by decide)

/-- R286: a byte of a cluster memory reruns its reader's unit; the reader's region record is read first. -/
theorem State.parityStops_of_cluster {s : State} {pa k off : Nat} (hphys : s.phys pa = .cluster k off) (c : Chain) :
    ∃ g, (s.parityStops c [pa]).1 = (s.regionClamp c.cluster g).rerunError c stParityRerunLimit := by
  refine ⟨if c.region = 0xFFFF then { s.regionOf c with clamp := false } else s.regionOf c, ?_⟩
  have hmild : ∀ g, (s.regionClamp c.cluster g).ckptInGallery c pa = false := fun g => by
    rw [State.ckptInGallery, (s.regionClamp_sameVirtual ..).phys, hphys, Bool.and_false]
  have hpart : ∀ g, [pa].partition (fun b => (s.regionClamp c.cluster g).ckptInGallery c b) = ([], [pa]) := fun g => by
    simp [hmild]
  simp only [State.parityStops, hpart]
  rfl

/-- R286, R306: what the first byte of a cluster memory that fails counts. -/
theorem State.logParityAt_rd_cluster {s : State} {pa k off : Nat} (hphys : s.phys pa = .cluster k off) (req charge : Nat) :
    (s.logParityAt pa req charge).rd .cluMemParityCnt k 0 = s.rd .cluMemParityCnt k 0 + 1#64 := by
  rw [State.logParityAt, hphys]
  exact (State.logFirst_rd_ne (by decide) ..).trans (State.rd_bump_self ..)

theorem State.logParityAt_rd_gallery {s : State} {pa d off : Nat} (hphys : s.phys pa = .gallery d off) (req charge : Nat) :
    (s.logParityAt pa req charge).rd .galParityCnt d 0 = s.rd .galParityCnt d 0 + 1#64 := by
  rw [State.logParityAt, hphys]
  exact (State.logFirst_rd_ne (by decide) ..).trans ((State.rd_setFld_ne (by decide) ..).trans (State.rd_bump_self ..))

/-- A byte of on-package SRAM that fails, as it is counted and logged before its level handles it. -/
def State.noteParity (s : State) (pa req : Nat) (c : Option Chain) : State :=
  { s with badCheck := setInsert pa s.badCheck }.logParityAt pa req (match c with
    | some c => (c.owner % 64 + c.launch % 4096 * 64) * 2 ^ 32
    | none => 0)

theorem parityErrorEffect_cluster (k : Fin 24) (off : BitVec 24) (req : BitVec 4) (reader : ChainRef) (s : State) :
    parityErrorEffect (.cluster k off) req reader s =
      (s.noteParity (clusterBase k.val + off.toNat) req.toNat (s.findChain reader)).parityIn (s.findChain reader)
        (clusterBase k.val + off.toNat) := rfl

theorem parityErrorEffect_gallery (d : Fin 2) (off : BitVec 28) (req : BitVec 4) (reader : ChainRef) (s : State) :
    parityErrorEffect (.gallery d off) req reader s =
      (s.noteParity (galleryBase d.val + off.toNat) req.toNat (s.findChain reader)).parityIn (s.findChain reader)
        (galleryBase d.val + off.toNat) := rfl

theorem State.noteParity_reach (s : State) (pa req : Nat) (c : Option Chain) :
    Reach 0xb000000c00000000000000000000004 s (s.noteParity pa req c) :=
  ((Reach.refl _ s).set_badCheck rfl).then (State.logParityAt_reach ..) rfl

theorem State.noteParity_badCheck (s : State) (pa req : Nat) (c : Option Chain) : (s.noteParity pa req c).badCheck = setInsert pa s.badCheck :=
  (State.logParityAt_reach ..).same .badCheck rfl

theorem State.badCheck_sameVirtual (s : State) (l : List Nat) : SameVirtual s { s with badCheck := l } :=
  ((Reach.refl 0x4 s).set_badCheck rfl).sameVirtual (by decide)

theorem State.noteParity_rd_cluster {s : State} {pa k off : Nat} (hphys : s.phys pa = .cluster k off) (req : Nat) (c : Option Chain) :
    (s.noteParity pa req c).rd .cluMemParityCnt k 0 = s.rd .cluMemParityCnt k 0 + 1#64 :=
  State.logParityAt_rd_cluster (((s.badCheck_sameVirtual _).phys pa).trans hphys) ..

theorem State.noteParity_rd_gallery {s : State} {pa d off : Nat} (hphys : s.phys pa = .gallery d off) (req : Nat) (c : Option Chain) :
    (s.noteParity pa req c).rd .galParityCnt d 0 = s.rd .galParityCnt d 0 + 1#64 :=
  State.logParityAt_rd_gallery (((s.badCheck_sameVirtual _).phys pa).trans hphys) ..

theorem State.parityIn_of_not_clean {s : State} {pa : Nat} (hst : (s.frame (pa / 65536)).st ≠ .clean) (c : Chain) :
    s.parityIn (some c) pa = (s.parityStops c [pa]).1 := by
  unfold State.parityIn
  rw [if_neg]
  simp [hst]

theorem State.parityIn_of_clean {s : State} {pa : Nat} (hst : (s.frame (pa / 65536)).st = .clean) (htier : s.frameTier (pa / 65536) = 0)
    (c : Option Chain) : s.parityIn c pa = (s.bump .galParityRefetchCnt (s.frameDie (pa / 65536)) 0 1).refetchClean pa := by
  unfold State.parityIn
  rw [if_pos]
  simp [hst, htier]

/-- R281, R286 to R289: a byte of a cluster memory that a running chain reads. -/
theorem State.noteParity_stops {s : State} {pa k off : Nat} {c : Chain} (hphys : s.phys pa = .cluster k off)
    (hst : (s.frame (pa / 65536)).st ≠ .clean) (hrun : (s.findUnit c.launch c.unit).stopped = false)
    (hcount : (s.findUnit c.launch c.unit).count < s.dnat dkParityRerunLimit) (req : Nat) :
    ((s.noteParity pa req (some c)).parityIn (some c) pa).badCheck = setInsert pa s.badCheck ∧
    ((s.noteParity pa req (some c)).parityIn (some c) pa).rd .cluMemParityCnt k 0 = s.rd .cluMemParityCnt k 0 + 1#64 ∧
    ((s.noteParity pa req (some c)).parityIn (some c) pa).reruns = (s.setUnit { s.findUnit c.launch c.unit with
      count := (s.findUnit c.launch c.unit).count + 1, stopped := true, status := stParityRerunLimit }).reruns := by
  have hnoted := s.noteParity_reach pa req (some c)
  have hframe : ((s.noteParity pa req (some c)).frame (pa / 65536)).st ≠ .clean := by
    rwa [State.frame, hnoted.same .pool rfl]
  obtain ⟨g, hstops⟩ := State.parityStops_of_cluster (((hnoted.sameVirtual (by decide)).phys pa).trans hphys) c
  have hclamp := (s.noteParity pa req (some c)).regionClamp_reach c.cluster g
  have herror := ((s.noteParity pa req (some c)).regionClamp c.cluster g).rerunError_reach c stParityRerunLimit
  rw [State.parityIn_of_not_clean hframe, hstops]
  refine ⟨?_, ?_, ?_⟩
  · rw [herror.same .badCheck rfl, hclamp.same .badCheck rfl, State.noteParity_badCheck]
  · rw [herror.rd_eq _ rfl, hclamp.rd_eq _ rfl, State.noteParity_rd_cluster hphys]
  · have hreruns : ((s.noteParity pa req (some c)).regionClamp c.cluster g).reruns = s.reruns :=
      (hclamp.same .reruns rfl).trans (hnoted.same .reruns rfl)
    have hunit : ((s.noteParity pa req (some c)).regionClamp c.cluster g).findUnit c.launch c.unit = s.findUnit c.launch c.unit := by
      rw [State.findUnit, State.findUnit, hreruns]
    have hlimit : ((s.noteParity pa req (some c)).regionClamp c.cluster g).dnat dkParityRerunLimit = s.dnat dkParityRerunLimit := by
      rw [State.dnat, State.dnat, State.dget, State.dget, hclamp.same .dict rfl, hnoted.same .dict rfl]
    rw [State.rerunError_of_allowed (by rwa [hunit]) (by rwa [hunit, hlimit]), (State.stopUnit_reach ..).same .reruns rfl, hunit,
      State.setUnit, State.setUnit, hreruns]

/-! ## Lines of a gallery (R283, R286) -/

/-- R3: where a gallery offset lies. -/
theorem State.phys_galleryBase (s : State) {d o : Nat} (hd : d < 2) (ho : o < 0x10000000) :
    s.phys (galleryBase d + o) = if o < 0xC000000 && (d == 0 || !s.harbour) then .gallery d o else .hole := by
  have hhbm : ¬galleryBase d + o < 0x6000000000 := by unfold galleryBase; omega
  have hgal : 0x8000000000 ≤ galleryBase d + o ∧ galleryBase d + o < 0x8020000000 := by unfold galleryBase; omega
  have hdie : (galleryBase d + o - 0x8000000000) / 0x10000000 = d := by unfold galleryBase; omega
  have hoff : (galleryBase d + o) % 0x10000000 = o := by unfold galleryBase; omega
  simp only [State.phys, hhbm, hgal, hdie, hoff, if_false, if_true, and_self]

/-- The first byte of a gallery byte's frame lies in the same gallery. -/
theorem State.phys_galleryFrame {s : State} {d o : Nat} (hd : d < 2) (ho : o < 0x10000000) (hphys : s.phys (galleryBase d + o) = .gallery d o) :
    s.phys ((galleryBase d + o) / 65536 * 65536) = .gallery d (o / 65536 * 65536) := by
  have hbase : (galleryBase d + o) / 65536 * 65536 = galleryBase d + o / 65536 * 65536 := by unfold galleryBase; omega
  rw [State.phys_galleryBase s hd ho] at hphys
  rw [hbase, State.phys_galleryBase s hd (by omega)]
  split at hphys
  case isTrue hin =>
    simp only [Bool.and_eq_true, decide_eq_true_eq] at hin
    rw [if_pos]
    simp only [Bool.and_eq_true, decide_eq_true_eq]
    exact ⟨by omega, hin.2⟩
  case isFalse => cases hphys

theorem State.frameTier_gallery {s : State} {d o n : Nat} (h : s.phys (n * 65536) = .gallery d o) : s.frameTier n = 0 := by
  rw [State.frameTier, State.tierOf, h]

theorem State.frameDie_gallery {s : State} {d o n : Nat} (h : s.phys (n * 65536) = .gallery d o) : s.frameDie n = d := by
  rw [State.frameDie, h]

theorem State.rdByte_putRaw_in (s : State) (pa : Nat) {bs : List Byte} {i : Nat} (h : i < bs.length) : (s.putRaw pa bs).rdByte (pa + i) = bs[i] :=
  lookupD_putRun_in ..

theorem State.rdByte_refetchClean {s : State} {pa low i : Nat} (hlow : (s.frame (pa / 65536)).lower = some low) (hi : i < 128) :
    (s.refetchClean pa).rdByte (pa / 128 * 128 + i) = s.memByte (low * 65536 + pa / 128 * 128 % 65536 + i) := by
  have hlen : i < (s.memBytes (low * 65536 + pa / 128 * 128 % 65536) 128).length := by simpa [State.memBytes] using hi
  simp only [State.refetchClean, hlow]
  refine (State.rdByte_putRaw_in s _ hlen).trans ?_
  simp [State.memBytes]

/-- R283, R286: a byte of a cached-clean gallery line. -/
theorem State.noteParity_refetches {s : State} {pa d off base low : Nat} (hphys : s.phys pa = .gallery d off)
    (hbase : s.phys (pa / 65536 * 65536) = .gallery d base) (hst : (s.frame (pa / 65536)).st = .clean)
    (hlow : (s.frame (pa / 65536)).lower = some low) (req : Nat) (c : Option Chain) :
    ((s.noteParity pa req c).parityIn c pa).rd .galParityCnt d 0 = s.rd .galParityCnt d 0 + 1#64 ∧
    ((s.noteParity pa req c).parityIn c pa).rd .galParityRefetchCnt d 0 = s.rd .galParityRefetchCnt d 0 + 1#64 ∧
    ∀ i < 128, ((s.noteParity pa req c).parityIn c pa).rdByte (pa / 128 * 128 + i) =
      s.memByte (low * 65536 + pa / 128 * 128 % 65536 + i) := by
  have hnoted := s.noteParity_reach pa req c
  have hvirt := hnoted.sameVirtual (by decide)
  have hframe : (s.noteParity pa req c).frame (pa / 65536) = s.frame (pa / 65536) := by
    rw [State.frame, State.frame, hnoted.same .pool rfl]
  have hgallery := (hvirt.phys _).trans hbase
  have hrefetch := ((s.noteParity pa req c).bump .galParityRefetchCnt d 0 1).refetchClean_reach pa
  rw [State.parityIn_of_clean (by rw [hframe, hst]) (State.frameTier_gallery hgallery), State.frameDie_gallery hgallery]
  refine ⟨?_, ?_, fun i hi => ?_⟩
  · rw [hrefetch.rd_eq _ rfl, State.rd_bump_ne (by decide), State.noteParity_rd_gallery hphys]
  · rw [hrefetch.rd_eq _ rfl, State.rd_bump_self, hnoted.rd_eq _ rfl]
  · have hcopy : (((s.noteParity pa req c).bump .galParityRefetchCnt d 0 1).frame (pa / 65536)).lower = some low := by
      rw [State.bump, State.wr_frame, hframe, hlow]
    rw [State.rdByte_refetchClean hcopy hi]
    exact hvirt.memByte _

/-! ## Lines that fail their CRC (R284) -/

theorem State.findRefetch_setRefetch_some (s : State) {l : LineArrival} {x : Refetch} (hx : x.site = l.site) :
    (s.setRefetch l.site (some x)).findRefetch l = some x := by
  have hothers : (s.sram.refetch.filter fun r : Refetch => r.site != l.site).find? (fun r : Refetch => r.site == l.site) = none := by
    simp [List.find?_eq_none]
  simp [State.findRefetch, State.setRefetch, List.find?_append, hothers, hx]

theorem State.findRefetch_setRefetch_none (s : State) (l : LineArrival) : (s.setRefetch l.site none).findRefetch l = none := by
  simp [State.findRefetch, State.setRefetch, List.find?_eq_none]

/-- R284: a line for a cluster memory that fails while attempts are left is counted and asked for again. -/
theorem State.crcFailed_asksAgain {s : State} {l : LineArrival} {c : Fin 24} {off : BitVec 24} (hsite : l.site = .cluster c off)
    (hleft : ((s.findRefetch l).map Refetch.attempts).getD 0 < s.dnat dkLineCrcRetry) :
    s.crcFailed l = ((s.bump .cluLineCrcCnt c.val 0 1).bump .cluLineRefetchCnt c.val 0 1).setRefetch l.site
      (some { site := l.site, attempts := ((s.findRefetch l).map Refetch.attempts).getD 0 + 1, source := l.source, tier := l.tier.val,
              reader := l.reader, stage := l.stage.val }) := by
  have hcount : s.countCrc l.site = s.bump .cluLineCrcCnt c.val 0 1 := by rw [hsite]; rfl
  have hagain : ∀ x : State, x.countRefetch l.site = x.bump .cluLineRefetchCnt c.val 0 1 := fun x => by rw [hsite]; rfl
  have hfind : (s.bump .cluLineCrcCnt c.val 0 1).findRefetch l = s.findRefetch l := rfl
  have hallowed : ((s.findRefetch l).map Refetch.attempts).getD 0 < (s.bump .cluLineCrcCnt c.val 0 1).lineAttempts l :=
    Nat.lt_of_lt_of_le hleft (Nat.le_add_right ..)
  simp only [State.crcFailed, hcount, hfind, hagain]
  revert hallowed
  cases s.findRefetch l <;> exact fun h => if_pos h

end Sys2Proof.Machine
end

section
/-!
SUPPORT. A line that arrives at a cluster memory (spec/06_onchip_memory.md R282 to R284): its enabled bytes as runs, and memory after the
runs are written over clean sectors.
-/
namespace Sys2Proof.Machine

/-! ## The runs of a line's enabled bytes -/

/-- One byte more of a line: it lengthens the last run or begins one. -/
def maskStep (mask : BitVec 128) (acc : List (Nat × Nat)) (k : Nat) : List (Nat × Nat) :=
  if !mask.getLsbD k then acc
  else match acc.getLast? with
    | some (lo, n) => if lo + n = k then acc.dropLast ++ [(lo, n + 1)] else acc ++ [(k, 1)]
    | none => [(k, 1)]

theorem maskRuns_eq (mask : BitVec 128) : maskRuns mask = (List.range 128).foldl (maskStep mask) [] := rfl

/-- Whether a run (first, length) holds a byte. -/
abbrev InRun (k : Nat) (r : Nat × Nat) : Prop := r.1 ≤ k ∧ k < r.1 + r.2

/-- The runs hold the enabled bytes below `m` and no others, and none runs past `m`. -/
structure RunsOf (mask : BitVec 128) (m : Nat) (acc : List (Nat × Nat)) : Prop where
  covers : ∀ k, (∃ r ∈ acc, InRun k r) ↔ k < m ∧ mask.getLsbD k = true
  within : ∀ r ∈ acc, r.1 + r.2 ≤ m

/-- An enabled byte more, held by the new runs. -/
theorem RunsOf.extend {mask : BitVec 128} {m : Nat} {acc new : List (Nat × Nat)} (h : RunsOf mask m acc) (hbit : mask.getLsbD m = true)
    (hnew : ∀ k, (∃ r ∈ new, InRun k r) ↔ (∃ r ∈ acc, InRun k r) ∨ k = m) (hwithin : ∀ r ∈ new, r.1 + r.2 ≤ m + 1) :
    RunsOf mask (m + 1) new where
  covers k := by
    rw [hnew, h.covers]
    constructor
    · rintro (⟨hk, hset⟩ | rfl)
      · exact ⟨Nat.lt_succ_of_lt hk, hset⟩
      · exact ⟨Nat.lt_succ_self _, hbit⟩
    · rintro ⟨hk, hset⟩
      rcases Nat.lt_succ_iff_lt_or_eq.mp hk with hlt | heq
      · exact .inl ⟨hlt, hset⟩
      · exact .inr heq
  within := hwithin

theorem RunsOf.step {mask : BitVec 128} {m : Nat} {acc : List (Nat × Nat)} (h : RunsOf mask m acc) : RunsOf mask (m + 1) (maskStep mask acc m) := by
  have hup : ∀ r ∈ acc, r.1 + r.2 ≤ m + 1 := fun r hr => Nat.le_succ_of_le (h.within r hr)
  unfold maskStep
  cases hbit : mask.getLsbD m with
  | false =>
    refine ⟨fun k => (h.covers k).trans ?_, hup⟩
    constructor
    · exact fun hk => ⟨Nat.lt_succ_of_lt hk.1, hk.2⟩
    · rintro ⟨hk, hset⟩
      have hne : k ≠ m := by rintro rfl; simp [hbit] at hset
      exact ⟨by omega, hset⟩
  | true =>
    cases hlast : acc.getLast? with
    | none =>
      rw [List.getLast?_eq_none_iff.mp hlast] at h
      refine h.extend hbit (fun k => ?_) (by simp)
      simp
      omega
    | some p =>
      obtain ⟨lo, n⟩ := p
      obtain ⟨front, rfl⟩ := List.getLast?_eq_some_iff.mp hlast
      simp only [Bool.not_true, Bool.false_eq_true, if_false, List.dropLast_concat]
      split
      case isTrue hnext =>
        refine h.extend hbit (fun k => ?_) fun r hr => ?_
        · have hgrown : InRun k (lo, n + 1) ↔ InRun k (lo, n) ∨ k = m := by simp only [InRun]; omega
          simp only [List.mem_append, List.mem_singleton, or_and_right, exists_or, exists_eq_left, hgrown, or_assoc]
        · rcases List.mem_append.mp hr with hfront | hone
          · exact hup r (List.mem_append_left _ hfront)
          · rw [List.mem_singleton.mp hone, ← hnext, Nat.add_assoc]
      case isFalse =>
        refine h.extend hbit (fun k => ?_) fun r hr => ?_
        · have hone : InRun k (m, 1) ↔ k = m := by simp only [InRun]; omega
          simp only [List.mem_append, List.mem_singleton, or_and_right, exists_or, exists_eq_left, hone]
        · rcases List.mem_append.mp hr with hfront | hone
          · exact hup r hfront
          · rw [List.mem_singleton.mp hone]

theorem maskRuns_runsOf (mask : BitVec 128) : RunsOf mask 128 (maskRuns mask) := by
  have hall : ∀ m, RunsOf mask m ((List.range m).foldl (maskStep mask) []) := fun m => by
    induction m with
    | zero => exact ⟨by simp, by simp⟩
    | succ m ih =>
      rw [List.range_succ, List.foldl_append]
      exact ih.step
  rw [maskRuns_eq]
  exact hall 128

/-! ## Bytes written over clean sectors -/

theorem State.mergeSector_of_clean {s : State} {k : Nat} (h : s.deltaAt (k * 32) = 0#16) : s.mergeSector k = s := if_pos (.inl h)

/-- Where the sectors that a run covers in part have valid check symbols the merge changes nothing. -/
theorem State.mergeEnds_of_clean {s : State} {pa n : Nat} (h : ∀ a, pa / 32 ≤ a / 32 → a < pa + n → s.deltaAt a = 0#16) (hn : 0 < n) :
    s.mergeEnds pa n = s := by
  have hfirst : s.mergeSector (pa / 32) = s := State.mergeSector_of_clean (h _ (by omega) (by omega))
  unfold State.mergeEnds
  split
  · split
    · rfl
    · exact State.mergeSector_of_clean (h _ (by omega) (by omega))
  · rw [hfirst]
    split
    · rfl
    · exact State.mergeSector_of_clean (h _ (by omega) (by omega))

/-- What a store over clean sectors does to memory and to the check symbols. -/
theorem State.putMem_of_clean {s : State} {pa : Nat} {bs : List Byte} (h : ∀ a, pa / 32 ≤ a / 32 → a < pa + bs.length → s.deltaAt a = 0#16) :
    (s.putMem pa bs).mem = putRun 0#8 pa bs s.mem ∧ ∀ a, s.deltaAt a = 0#16 → (s.putMem pa bs).deltaAt a = 0#16 := by
  unfold State.putMem
  split
  case isTrue hnil => subst hnil; exact ⟨rfl, fun _ ha => ha⟩
  case isFalse hne =>
    have hmerge := State.mergeEnds_of_clean h (List.length_pos_iff.mpr hne)
    have hafter : Reach 0x10220000000000000000000000000000000007000 (s.putRaw pa bs)
        (((s.putRaw pa bs).touchWrite pa bs.length).touchTable pa bs.length) :=
      ((Reach.refl _ _).then (State.touchWrite_reach ..) rfl).then (State.touchTable_reach ..) rfl
    have hraw : (s.putRaw pa bs).mem = putRun 0#8 pa bs (s.mergeEnds pa bs.length).mem := rfl
    have hdelta : (s.putRaw pa bs).hbmDelta = clearRange ((pa + 31) / 32) ((pa + bs.length) / 32 - (pa + 31) / 32)
        (s.mergeEnds pa bs.length).hbmDelta := rfl
    rw [hmerge] at hraw hdelta
    refine ⟨(hafter.same .mem rfl).trans hraw, fun a ha => ?_⟩
    rw [State.deltaAt, hafter.same .hbmDelta rfl, hdelta, clearRange, lookupD_filter 0#16
      (fun k => decide (k < (pa + 31) / 32) || decide ((pa + 31) / 32 + ((pa + bs.length) / 32 - (pa + 31) / 32) ≤ k))]
    split
    · exact ha
    · rfl

/-- The runs of a line written one after another from its first byte. -/
def State.putRuns (s : State) (base : Nat) (bytes : List Byte) (runs : List (Nat × Nat)) : State :=
  runs.foldl (fun s r => s.putMem (base + r.1) ((bytes.drop r.1).take r.2)) s

/-- Over four clean sectors the bytes of the runs are the line's and all others are as before. -/
theorem State.rdByte_putRuns {base : Nat} (hbase : base % 32 = 0) {bytes : List Byte} (hbytes : bytes.length = 128) {runs : List (Nat × Nat)}
    (hruns : ∀ r ∈ runs, r.1 + r.2 ≤ 128) {s : State} (hclean : ∀ j < 128, s.deltaAt (base + j) = 0#16) (k : Nat) :
    (s.putRuns base bytes runs).rdByte (base + k) = if ∃ r ∈ runs, InRun k r then bytes.getD k 0#8 else s.rdByte (base + k) := by
  induction runs generalizing s with
  | nil => simp [State.putRuns]
  | cons r runs ih =>
    obtain ⟨hr, hrest⟩ := List.forall_mem_cons.mp hruns
    have hlen : ((bytes.drop r.1).take r.2).length = r.2 := by simp only [List.length_take, List.length_drop, hbytes]; omega
    obtain ⟨hmem, hdelta⟩ := State.putMem_of_clean (s := s) (pa := base + r.1) (bs := (bytes.drop r.1).take r.2) fun a hlo hhi => by
      rw [hlen] at hhi
      obtain ⟨j, rfl⟩ := Nat.exists_eq_add_of_le (show base ≤ a by omega)
      exact hclean j (by omega)
    have hone : (s.putMem (base + r.1) ((bytes.drop r.1).take r.2)).rdByte (base + k) =
        if InRun k r then bytes.getD k 0#8 else s.rdByte (base + k) := by
      rw [State.rdByte, hmem]
      split
      case isTrue hin =>
        obtain ⟨i, rfl⟩ := Nat.exists_eq_add_of_le hin.1
        have hi : i < ((bytes.drop r.1).take r.2).length := by rw [hlen]; have := hin.2; omega
        rw [← Nat.add_assoc, lookupD_putRun_in _ _ _ _ _ hi]
        rw [List.getElem_take, List.getElem_drop, List.getD_eq_getElem _ _ (by rw [hlen] at hi; omega)]
      case isFalse hout =>
        refine lookupD_putRun_out _ _ _ _ ?_
        rw [hlen]
        unfold InRun at hout
        omega
    show (State.putRuns (s.putMem _ _) base bytes runs).rdByte (base + k) = _
    rw [ih hrest (fun j hj => hdelta _ (hclean j hj)), hone]
    simp only [List.exists_mem_cons_iff]
    by_cases hin : InRun k r
    · rw [if_pos hin, ite_self, if_pos (.inl hin)]
    · rw [if_neg hin]
      exact if_congr (or_iff_right hin).symm rfl rfl

/-- Byte `i` of a number's little-endian bytes. -/
theorem getD_bytesOf (n : Nat) {k i : Nat} (hi : i < k) : (bytesOf n k).getD i 0#8 = BitVec.ofNat 8 (n / 2 ^ (8 * i)) := by
  induction k generalizing n i with
  | zero => omega
  | succ k ih =>
    cases i with
    | zero => simp [bytesOf]
    | succ i =>
      rw [bytesOf, List.getD_cons_succ, ih _ (Nat.lt_of_succ_lt_succ hi), Nat.div_div_eq_div_mul, Nat.mul_succ, Nat.add_comm (8 * i), Nat.pow_add]

/-! ## A line that matches (R283, R284) -/

theorem State.putLine_cluster {l : LineArrival} {c : Fin 24} {off : BitVec 24} (hsite : l.site = .cluster c off) (s : State) : ∃ a poison,
    s.putLine l = { (s.useSlots a (clusterBase c.val + off.toNat / 128 * 128) 128).putRuns (clusterBase c.val + off.toNat / 128 * 128)
      (bytesOf l.data.toNat 128) (maskRuns l.mask) with poison := poison } := by
  have hline : (clusterBase c.val + off.toNat) / 128 * 128 = clusterBase c.val + off.toNat / 128 * 128 := by unfold clusterBase; omega
  simp only [State.putLine, hsite, siteAddr, Option.getD_some, hline, List.foldl_map]
  split
  · exact ⟨_, _, rfl⟩
  · exact ⟨_, _, rfl⟩

/-- R283: the bytes of a line's place after it has arrived over clean sectors. -/
theorem State.rdByte_putLine_cluster {s : State} {l : LineArrival} {c : Fin 24} {off : BitVec 24} (hsite : l.site = .cluster c off)
    (hclean : ∀ j < 4, s.deltaAt (clusterBase c.val + off.toNat / 128 * 128 + 32 * j) = 0#16) {k : Nat} (hk : k < 128) :
    (s.putLine l).rdByte (clusterBase c.val + off.toNat / 128 * 128 + k) =
      if l.mask.getLsbD k then BitVec.ofNat 8 (l.data.toNat / 2 ^ (8 * k)) else s.rdByte (clusterBase c.val + off.toNat / 128 * 128 + k) := by
  obtain ⟨a, poison, hput⟩ := State.putLine_cluster hsite s
  generalize hline : clusterBase c.val + off.toNat / 128 * 128 = base at *
  have hbase : base % 32 = 0 := by rw [← hline]; unfold clusterBase; omega
  have hslots := s.useSlots_reach a base 128
  have hruns := maskRuns_runsOf l.mask
  have hbytes : ∀ j < 128, (s.useSlots a base 128).deltaAt (base + j) = 0#16 := fun j hj => by
    have hsector : (base + j) / 32 = (base + 32 * (j / 32)) / 32 := by omega
    rw [State.deltaAt, hslots.same .hbmDelta rfl, hsector]
    exact hclean (j / 32) (by omega)
  have hbefore : (s.useSlots a base 128).rdByte (base + k) = s.rdByte (base + k) := by
    rw [State.rdByte, hslots.same .mem rfl, State.rdByte]
  have hread := State.rdByte_putRuns hbase (length_bytesOf l.data.toNat 128) hruns.within hbytes k
  simp only [hruns.covers, hk, true_and, getD_bytesOf _ hk, hbefore] at hread
  rw [hput]
  exact hread

theorem State.findRefetch_congr {s t : State} (h : t.sram = s.sram) (l : LineArrival) : t.findRefetch l = s.findRefetch l := by
  rw [State.findRefetch, State.findRefetch, h]

/-- R284: a line asked for again that matches is written and no longer waited for; its reader's contexts are shown anew. -/
theorem lineRefetchDoneEffect_writes {s : State} {l : LineArrival} (hgood : lineGood l = true) (hwaits : (s.findRefetch l).isSome = true) :
    Reach 0x800000000000000000020 ((s.putLine l).setRefetch l.site none) (lineRefetchDoneEffect l s) := by
  obtain ⟨r, hr⟩ := Option.isSome_iff_exists.mp hwaits
  simp only [lineRefetchDoneEffect, hr, hgood, if_true]
  split
  · exact State.showTasks_reach ..
  · exact Reach.refl ..

/-! ## The statement about grants and failing lines (O20) -/

/-- Settles O20: the grants by the rotation and the round-robin; the failing bytes by what is counted and what their level does; the lines by
their runs of enabled bytes. -/
theorem sramGrantsAndFailingLines : Obligations.SramGrantsAndFailingLines := by
  refine ⟨fun s cluster bank others hwants => ⟨_, rfl, clusterBankGrantEffect_serves s cluster bank others hwants⟩, ?_, ?_, ?_, ?_, ?_⟩
  · rintro s die bank r ⟨hqueue, hheld, hr⟩
    exact ⟨_, rfl, galleryBankGrantEffect_serves hqueue hheld hr⟩
  · rintro s k off req reader c pa r ⟨hphys, hst⟩ ⟨hreader, hrun, hcount⟩
    obtain ⟨hbad, hcnt, hreruns⟩ := State.noteParity_stops hphys hst hrun hcount req.toNat
    refine ⟨_, rfl, ?_⟩
    rw [parityErrorEffect_cluster, hreader]
    exact ⟨hbad, hcnt, hreruns⟩
  · rintro s d off req reader low pa hphys ⟨hst, hlow⟩
    have hline : pa = (galleryBase d.val + off.toNat) / 128 * 128 := by simp only [pa, galleryBase]; omega
    obtain ⟨hcnt, hrefetch, hbytes⟩ := State.noteParity_refetches hphys (State.phys_galleryFrame d.isLt off.isLt hphys) hst hlow req.toNat
      (s.findChain reader)
    refine ⟨_, rfl, ?_⟩
    rw [parityErrorEffect_gallery, hline]
    exact ⟨⟨hcnt, hrefetch⟩, fun i hi => hbytes i (List.mem_range.mp hi)⟩
  · rintro s l c off n ⟨hsite, hbad, hleft⟩
    refine ⟨_, rfl, ?_⟩
    have hfail : lineCrcFailEffect l s = s.crcFailed l := by rw [lineCrcFailEffect, hbad]; rfl
    rw [hfail, State.crcFailed_asksAgain hsite hleft]
    refine ⟨⟨rfl, rfl, rfl⟩, ⟨?_, ?_⟩, ?_⟩
    · rw [(State.setRefetch_reach ..).rd_eq _ rfl, State.rd_bump_ne (by decide), State.rd_bump_self]
    · rw [(State.setRefetch_reach ..).rd_eq _ rfl, State.rd_bump_self, State.rd_bump_ne (by decide)]
    · rw [State.findRefetch_setRefetch_some _ rfl]
      rfl
  · rintro s l c off base ⟨hsite, hgood, hwaits⟩ hclean
    have hshown := lineRefetchDoneEffect_writes hgood hwaits
    refine ⟨_, rfl, ?_, fun k hk => ?_⟩
    · rw [State.findRefetch_congr (hshown.same .sram rfl), State.findRefetch_setRefetch_none]
      rfl
    · rw [State.rdByte, hshown.same .mem rfl]
      exact State.rdByte_putLine_cluster hsite (fun j hj => hclean j (List.mem_range.mpr hj)) (List.mem_range.mp hk)

end Sys2Proof.Machine
end

section
/-!
SUPPORT. Repairs of gallery rows (spec/06_onchip_memory.md R296 to R306): what the arbiter's table leaves of the repair unit's status, and what a
repair that runs leaves of the spare rows.
-/
namespace Sys2Proof.Machine

/-! ## The repair unit's status -/

/-- A field of the repair unit's status that the arbiter's table does not show. -/
structure Field.KeptByArbiter (f : Field) : Prop where
  reg : f.reg = .galRepairStatus
  result : f.lo + f.width ≤ 1 ∨ 3 ≤ f.lo
  blocker : f.lo + f.width ≤ 8 ∨ 16 ≤ f.lo

theorem galRepairStatusBusy_kept : galRepairStatusBusy.KeptByArbiter := ⟨rfl, by decide, by decide⟩

theorem galRepairStatusSpare_kept : galRepairStatusSpare.KeptByArbiter := ⟨rfl, by decide, by decide⟩

section
variable {f : Field} (hf : f.KeptByArbiter)
include hf

theorem Field.KeptByArbiter.setFld_result (s : State) (die v : Nat) : (s.setFld galRepairStatusResult die 0 v).fld f die 0 = s.fld f die 0 :=
  State.fld_setFld_apart _ _ _ _ _ _ hf.reg (by decide) hf.result

theorem Field.KeptByArbiter.setFld_blocker (s : State) (die v : Nat) : (s.setFld galRepairStatusBlocker die 0 v).fld f die 0 = s.fld f die 0 :=
  State.fld_setFld_apart _ _ _ _ _ _ hf.reg (by decide) hf.blocker

theorem Field.KeptByArbiter.putEntry (s : State) (die entry kind st blocker scope : Nat) (fail : Bool) :
    (s.putEntry die entry kind st blocker scope fail).fld f die 0 = s.fld f die 0 :=
  (s.putEntry_reach ..).fld_eq f (by rw [hf.reg]; rfl) ..

theorem Field.KeptByArbiter.setArb (s : State) (die : Nat) (a : Arbiter) : (s.setArb die a).fld f die 0 = s.fld f die 0 :=
  (s.setArb_reach ..).fld_eq f (by rw [hf.reg]; rfl) ..

theorem Field.KeptByArbiter.showEntries (s : State) (die : Nat) : (s.showEntries die).fld f die 0 = s.fld f die 0 := by
  unfold State.showEntries
  refine List.foldlRecOn (motive := fun x : State => x.fld f die 0 = s.fld f die 0) _ _ rfl fun x hx a _ => ?_
  dsimp only
  split
  · rw [hf.setFld_blocker, hf.setFld_result, hf.putEntry, hx]
  · rw [hf.putEntry, hx]

theorem Field.KeptByArbiter.endAct (s : State) (die entry : Nat) (fail : Bool) : (s.endAct die entry fail).fld f die 0 = s.fld f die 0 := by
  unfold State.endAct
  dsimp only
  split
  · rfl
  · rw [hf.showEntries, hf.putEntry, hf.setArb]

end

theorem State.enterAct_of_free {s : State} {die k : Nat} (hfree : s.freeEntry die = some k) (a : MaintAct) :
    ∃ arb, s.enterAct die a = ((s.setArb die arb).showEntries die, some k) := by
  simp only [State.enterAct, hfree]
  exact ⟨_, rfl⟩

/-- The repair unit as a command with GO takes it: the row noted, BUSY set (R299, R304). -/
def State.beginRepair (s : State) (die : Nat) (value : Word) : State :=
  (s.wr .galRepairCmd die 0 (BitVec.ofNat 64 (bitsOf value 0 6 + bitsOf value 6 12 * 64))).setFld galRepairStatusBusy die 0 1

theorem State.beginRepair_busy (s : State) (die : Nat) (value : Word) : (s.beginRepair die value).fld galRepairStatusBusy die 0 = 1 :=
  State.fld_setFld_self _ _ _ _ _ (by decide)

/-- The repair that a command names, under an entry of the arbiter's table. -/
def repairOf (die : Nat) (value : Word) (entry : Nat) : Repair :=
  { die := die, bank := bitsOf value 0 6, row := min 3071 (bitsOf value 6 12), entry := entry }

theorem galRepairCmdEffect_of_free {s : State} {die : Fin 2} {value : Word} {k : Nat} (hidle : s.fld galRepairStatusBusy die.val = 0)
    (hgo : bitOf value 63 = true) (hfree : s.freeEntry die.val = some k) : ∃ arb, ∃ shown : State,
      shown = ((s.beginRepair die.val value).setArb die.val arb).showEntries die.val ∧ galRepairCmdEffect die value s =
        { shown with sram := { shown.sram with repairs := shown.sram.repairs ++ [repairOf die.val value k] } } := by
  have hentry : (s.beginRepair die.val value).freeEntry die.val = some k := hfree
  obtain ⟨arb, henter⟩ := State.enterAct_of_free hentry { entry := 0, kind := 6, scope := bitsOf value 0 6 }
  refine ⟨arb, _, rfl, ?_⟩
  unfold State.beginRepair at henter ⊢
  simp only [galRepairCmdEffect, hidle, hgo, henter]
  rfl

/-- R299: GO enters the repair of a row under the free entry of the arbiter's table. -/
theorem galRepairCmdEffect_enters {s : State} {die : Fin 2} {value : Word} {k : Nat} (hidle : s.fld galRepairStatusBusy die.val = 0)
    (hgo : bitOf value 63 = true) (hfree : s.freeEntry die.val = some k) :
    (galRepairCmdEffect die value s).fld galRepairStatusBusy die.val = 1 ∧
    (galRepairCmdEffect die value s).sram.repairs = s.sram.repairs ++ [repairOf die.val value k] := by
  obtain ⟨arb, shown, hshown, heff⟩ := galRepairCmdEffect_of_free hidle hgo hfree
  have hsram : shown.sram = s.sram := by
    rw [hshown, (State.showEntries_reach ..).same .sram rfl, (State.setArb_reach ..).same .sram rfl]
    rfl
  have hbusy : shown.fld galRepairStatusBusy die.val 0 = 1 := by
    rw [hshown, galRepairStatusBusy_kept.showEntries, galRepairStatusBusy_kept.setArb, State.beginRepair_busy]
  rw [heff]
  exact ⟨hbusy, by rw [hsram]⟩

/-! ## Spare rows -/

theorem State.galEnter_sram (s : State) (die bank : Nat) (r : GalRequest) : ∃ banks, (s.galEnter die bank r).sram = { s.sram with banks := banks } := by
  unfold State.galEnter
  dsimp only
  split
  · exact ⟨_, rfl⟩
  · split <;> exact ⟨_, rfl⟩

/-- Copying a row takes slots of its bank only. -/
theorem State.copyRow_sram (s : State) (die bank : Nat) : ∃ banks, (s.copyRow die bank).sram = { s.sram with banks := banks } := by
  unfold State.copyRow
  generalize List.range 16 = slots
  induction slots generalizing s with
  | nil => exact ⟨_, rfl⟩
  | cons x slots ih =>
    obtain ⟨banks, hone⟩ := s.galEnter_sram die bank { port := 15, owner := 0 }
    obtain ⟨all, hrest⟩ := ih (s.galEnter die bank { port := 15, owner := 0 })
    exact ⟨all, by rw [List.foldl_cons, hrest, hone]⟩

theorem State.showBank_sparesFree (s : State) (die bank : Nat) : (s.showBank die bank).fld galBankStateSparesFree die bank =
    (List.range 32).countP fun k => s.spareFree die bank k := by
  have hle : (List.range 32).countP (fun k => s.spareFree die bank k) ≤ 32 := by
    simpa using List.countP_le_length (l := List.range 32) (p := fun k => s.spareFree die bank k)
  rw [State.showBank, State.fld_setFld_apart _ galBankStateSparesRetired galBankStateSparesFree _ _ _ rfl (by decide) (by decide),
    State.fld_setFld_self _ _ _ _ _ (by decide)]
  exact Nat.mod_eq_of_lt (Nat.lt_of_le_of_lt hle (by decide))

/-- The spare rows after a row is mapped: the one that it leaves is retired. -/
def Sram.mapRow (x : Sram) (die bank row spare : Nat) : Sram :=
  let key := (die * 64 + bank) * 3072 + row
  let old := lookupD 0 key x.spareOf
  { x with
    spareOf := putD 0 key (spare + 1) x.spareOf
    retired := if old = 0 ∨ old = spare + 1 then x.retired else setInsert ((die * 64 + bank) * 32 + (old - 1)) x.retired }

theorem Sram.mapRow_spareOf (x : Sram) (die bank row spare : Nat) :
    lookupD 0 ((die * 64 + bank) * 3072 + row) (x.mapRow die bank row spare).spareOf = spare + 1 :=
  lookupD_putD_self 0 ((die * 64 + bank) * 3072 + row) (spare + 1) x.spareOf

@[simp] theorem State.showBank_sram (s : State) (die bank : Nat) : (s.showBank die bank).sram = s.sram :=
  (s.showBank_reach ..).same .sram rfl

theorem State.mapRow_eq (s : State) (die bank row spare : Nat) :
    s.mapRow die bank row spare = ({ s with sram := s.sram.mapRow die bank row spare }).showBank die bank := rfl

/-- A repair that the arbiter admitted and that has a spare row, up to the end of its activity. -/
def State.repairRow (s : State) (die bank row spare : Nat) : State :=
  let s := ((s.copyRow die bank).mapRow die bank row spare).logRepair (repairEntry die bank row spare false)
  ((s.setFld galRepairStatusSpare die 0 spare).setFld galRepairStatusResult die 0 0).setFld galRepairStatusBusy die 0 0

theorem rowRepairRunEffect_of_spare {s : State} {die : Fin 2} {a : MaintAct} {r : Repair} {k : Nat}
    (hact : ((s.arb die.val).acts.find? fun a : MaintAct => a.kind == 6 && a.running) = some a)
    (hrepair : (s.sram.repairs.find? fun r : Repair => r.die == die.val && r.entry == a.entry) = some r)
    (hspare : ((List.range 32).find? fun k => s.spareFree die.val r.bank k) = some k) : ∃ repairs, rowRepairRunEffect die s =
      ((({ s with sram := { s.sram with repairs := repairs } } : State).repairRow die.val r.bank r.row k).endAct die.val a.entry false).showSpares := by
  refine ⟨s.sram.repairs.filter fun q => !(q.die == die.val && q.entry == a.entry), ?_⟩
  have hspare' : ((List.range 32).find? fun k => ({ s with sram := { s.sram with
      repairs := s.sram.repairs.filter fun q => !(q.die == die.val && q.entry == a.entry) } } : State).spareFree die.val r.bank k) = some k := hspare
  simp only [rowRepairRunEffect, hact, hrepair, hspare', State.repairRow]

/-- R296, R300, R302: the spare rows and the repair log after a repair. -/
theorem State.repairRow_sram (s : State) (die bank row spare : Nat) : ∃ banks, (s.repairRow die bank row spare).sram =
    { ({ s.sram with banks := banks } : Sram).mapRow die bank row spare with
      repairLog := s.sram.repairLog ++ [repairEntry die bank row spare false] } := by
  obtain ⟨banks, hcopy⟩ := s.copyRow_sram die bank
  refine ⟨banks, ?_⟩
  simp only [State.repairRow, State.logRepair, State.mapRow_eq, State.setFld_sram, State.showBank_sram, hcopy]
  rfl

theorem State.spareFree_congr {s t : State} (hspare : t.sram.spareOf = s.sram.spareOf) (hretired : t.sram.retired = s.sram.retired)
    (die bank k : Nat) : t.spareFree die bank k = s.spareFree die bank k := by
  rw [State.spareFree, State.spareFree, hspare, hretired]

theorem State.repairRow_sparesFree (s : State) (die bank row spare : Nat) : (s.repairRow die bank row spare).fld galBankStateSparesFree die bank =
    (List.range 32).countP fun k => (s.repairRow die bank row spare).spareFree die bank k := by
  have hfree : ∀ k, (s.repairRow die bank row spare).spareFree die bank k =
      ({ s.copyRow die bank with sram := (s.copyRow die bank).sram.mapRow die bank row spare } : State).spareFree die bank k := fun k =>
    State.spareFree_congr (by simp only [State.repairRow, State.logRepair, State.mapRow_eq, State.setFld_sram, State.showBank_sram])
      (by simp only [State.repairRow, State.logRepair, State.mapRow_eq, State.setFld_sram, State.showBank_sram]) ..
  simp only [hfree]
  rw [State.repairRow, State.fld_setFld_ne _ _ _ _ _ _ _ _ (by decide), State.fld_setFld_ne _ _ _ _ _ _ _ _ (by decide),
    State.fld_setFld_ne _ _ _ _ _ _ _ _ (by decide), (State.logRepair_reach ..).fld_eq _ rfl, State.mapRow_eq, State.showBank_sparesFree]

/-- R300 to R303: what an admitted repair with a free spare row leaves. -/
theorem rowRepairRunEffect_repairs {s : State} {die : Fin 2} {a : MaintAct} {r : Repair} {k : Nat}
    (hact : ((s.arb die.val).acts.find? fun a : MaintAct => a.kind == 6 && a.running) = some a)
    (hrepair : (s.sram.repairs.find? fun r : Repair => r.die == die.val && r.entry == a.entry) = some r)
    (hspare : ((List.range 32).find? fun k => s.spareFree die.val r.bank k) = some k) :
    lookupD 0 ((die.val * 64 + r.bank) * 3072 + r.row) (rowRepairRunEffect die s).sram.spareOf = k + 1 ∧
    (rowRepairRunEffect die s).sram.repairLog = s.sram.repairLog ++ [repairEntry die.val r.bank r.row k false] ∧
    (rowRepairRunEffect die s).fld galBankStateSparesFree die.val r.bank =
      (List.range 32).countP (fun k => (rowRepairRunEffect die s).spareFree die.val r.bank k) ∧
    (rowRepairRunEffect die s).fld galRepairStatusBusy die.val = 0 ∧ (rowRepairRunEffect die s).fld galRepairStatusSpare die.val = k := by
  obtain ⟨repairs, heff⟩ := rowRepairRunEffect_of_spare hact hrepair hspare
  rw [heff]
  generalize hbegun : ({ s with sram := { s.sram with repairs := repairs } } : State) = begun
  have hshown := ((begun.repairRow die.val r.bank r.row k).endAct die.val a.entry false).showSpares_reach
  have hended := (begun.repairRow die.val r.bank r.row k).endAct_reach die.val a.entry false
  have hsram := (hshown.same .sram rfl).trans (hended.same .sram rfl)
  have hk : k < 32 := List.mem_range.mp (List.mem_of_find?_eq_some hspare)
  obtain ⟨banks, hrow⟩ := begun.repairRow_sram die.val r.bank r.row k
  refine ⟨?_, ?_, ?_, ?_, ?_⟩
  · rw [hsram, hrow]
    exact Sram.mapRow_spareOf ..
  · rw [hsram, hrow, ← hbegun]
  · rw [hshown.fld_eq _ rfl, hended.fld_eq _ rfl, State.repairRow_sparesFree]
    simp only [State.spareFree_congr (congrArg Sram.spareOf hsram) (congrArg Sram.retired hsram)]
  · rw [hshown.fld_eq _ rfl, galRepairStatusBusy_kept.endAct]
    exact State.fld_setFld_self _ _ _ _ _ (by decide)
  · rw [hshown.fld_eq _ rfl, galRepairStatusSpare_kept.endAct, State.repairRow,
      State.fld_setFld_apart _ galRepairStatusBusy galRepairStatusSpare _ _ _ rfl (by decide) (by decide), galRepairStatusSpare_kept.setFld_result,
      State.fld_setFld_self _ _ _ _ _ (by decide)]
    exact Nat.mod_eq_of_lt hk

end Sys2Proof.Machine
end

section
/-!
SUPPORT. Chains that the recompute machinery launches (spec/05_backward_recompute.md R229 to R235, spec/06_onchip_memory.md R288, R289): a launch
counts once and leaves the counters beside it, and the programs are read the same after a clamp is counted.
-/
namespace Sys2Proof.Machine

/-! ## What reads the same -/

namespace SameVirtual
variable {s t : State} (h : SameVirtual s t)
include h

theorem virtWord : t.virtWord = s.virtWord := by
  funext die owner va
  simp only [State.virtWord, State.virtByte, State.readPa, h.xlat, h.memByte]

theorem regionCount (die owner prog : Nat) : t.regionCount die owner prog = s.regionCount die owner prog := by
  unfold State.regionCount State.progWord
  rw [h.virtWord]

theorem regionRec (die owner prog r : Nat) : t.regionRec die owner prog r = s.regionRec die owner prog r := by
  unfold State.regionRec State.progWord
  rw [h.virtWord]

theorem regenAllowed (hregens : t.regens = s.regens) (c : Chain) (w : Word) : t.regenAllowed c w = s.regenAllowed c w := by
  simp only [State.regenAllowed, h.regionCount, h.regionRec, hregens]

theorem canLaunch (hresets : t.resets = s.resets) (c : Chain) : t.canLaunch c = s.canLaunch c := by
  have hblocks : t.inReset = s.inReset := by funext k; rw [State.inReset, State.inReset, hresets]
  simp only [State.canLaunch, State.touchesReset, State.chainIn, State.dieRuns, h.phys, h.harbour, hblocks]

end SameVirtual

theorem Reach.canLaunch {F : Nat} {s t : State} (h : Reach F s t) (hout : ∀ c ∈ virtualCells, F.testBit c.code = false)
    (hresets : F.testBit 30 = false) (c : Chain) : t.canLaunch c = s.canLaunch c :=
  (h.sameVirtual hout).canLaunch (h.same .resets hresets) c

/-! ## A launch (R323, R338, R600) -/

/-- What follows once a launch has been counted. -/
theorem State.launchChain_reach_counted {s : State} {c : Chain} (hlaunch : s.canLaunch c = true) (clamps : Nat) :
    Reach 0x200000000000000000000000000000000002000c01200008000000000000005834e0
      ((s.bump .cluChainLaunchCnt c.cluster 0 1).clamped c.cluster clamps) (s.launchChain c clamps) := by
  unfold State.launchChain
  rw [if_neg (by simp [hlaunch])]
  extract_lets bumped counted
  have hopened : Reach 0x200000000000000000000000000000000002000c01200008000000000000005834e0 counted ((counted.emptyRings c).planStart c) :=
    ((Reach.refl _ _).then (State.emptyRings_reach ..) rfl).then (State.planStart_reach ..) rfl
  split
  · exact ((Reach.refl _ _).set_chains rfl).then (State.endChain_reach ..) rfl
  · split
    · exact ((hopened.set_chains rfl).then (State.takeContexts_reach ..) rfl).then (State.showTasks_reach ..) rfl
    · exact (hopened.set_chains rfl).then (State.requestPreempt_reach ..) rfl

theorem State.launchChain_rd_launchCnt {s : State} {c : Chain} (hlaunch : s.canLaunch c = true) (clamps : Nat) :
    (s.launchChain c clamps).rd .cluChainLaunchCnt c.cluster 0 = s.rd .cluChainLaunchCnt c.cluster 0 + 1#64 := by
  rw [(State.launchChain_reach_counted hlaunch clamps).rd_eq _ rfl, State.clamped_rd (by decide), State.rd_bump_self]

/-- R229, R232: a chain launched beside a record's own sequence counts as any other. -/
theorem State.launchExtra_rd_launchCnt {s : State} {c : Chain} (hlaunch : s.canLaunch c = true) (clamps origin : Nat)
    (regenFor : Option (Nat × Nat)) :
    (s.launchExtra c clamps origin regenFor).rd .cluChainLaunchCnt c.cluster 0 = s.rd .cluChainLaunchCnt c.cluster 0 + 1#64 := by
  have hseqs : ∀ q : Seq, Reach 0x80 s { s with seqs := s.seqs ++ [q] } := fun q => (Reach.refl _ s).set_seqs rfl
  have hchain : ∀ (x : State) (next : Nat), x.canLaunch { c with extra := true, origin := origin, next := next } = x.canLaunch c :=
    fun _ _ => rfl
  rw [State.launchExtra]
  exact State.launchChain_rd_launchCnt (c := { c with extra := true, origin := origin, next := if origin = 2 then 0 else c.next })
    (by rw [hchain, (hseqs _).canLaunch (by decide) rfl, hlaunch]) clamps

/-! ## Reruns (R288, R289, R294) -/

theorem State.relaunchOn_rd_rerunCnt (s : State) (launch : Nat) (u : Nat × Nat) (cluster : Nat) :
    (s.relaunchOn launch u cluster).rd .cluParityRerunCnt cluster 0 = s.rd .cluParityRerunCnt cluster 0 + 1#64 := by
  unfold State.relaunchOn
  extract_lets extra ahead die off r clamped dropped own beside counted
  have hclamped : Reach 0x100000000000000000000000000c0 s clamped := .ite (.refl ..) ((Reach.refl ..).then (State.regionClamp_reach ..) rfl)
  have hdropped : Reach 0x100000000000000000000000000c0 s dropped := hclamped.set_chains rfl
  have hown : Reach 0x100000000000000000000000000c0 s own := by
    simp only [own]
    split
    · exact hdropped.then (State.setSeq_reach ..) rfl
    · exact hdropped
  have hbeside : Reach 0x100000000000000000000000000c0 s beside := by
    simp only [beside]
    split
    · exact .ite (hown.then (State.setSeq_reach ..) rfl) hown
    · exact hown
  split
  rw [(State.launchChain_reach ..).rd_eq _ rfl, (State.countRecompute_reach ..).rd_eq _ rfl, State.rd_bump_self, hbeside.rd_eq _ rfl]

/-- R289: a stopped unit of one cluster is launched again there. -/
theorem rerunLaunchEffect_relaunches {s : State} {unit : RerunRef} {k : Nat}
    (hstopped : (s.findUnit unit.launch.toNat (unitOfRef unit)).stopped = true)
    (hclusters : s.unitClusters unit.launch.toNat (unitOfRef unit) = [k])
    (hready : s.relaunchReady unit.launch.toNat (unitOfRef unit) k = true) : rerunLaunchEffect unit s =
      (s.setUnit { s.findUnit unit.launch.toNat (unitOfRef unit) with stopped := false }).relaunchOn unit.launch.toNat (unitOfRef unit) k := by
  simp [rerunLaunchEffect, hstopped, hclusters, hready]

/-! ## Predictor commits and regenerations (R229, R232 to R234) -/

theorem predictorCommitLaunchEffect_launches {s : State} {cluster : Fin 24} {launch : BitVec 12} {region : BitVec 16} :
    let r := s.recOr launch.toNat
    let g := s.regionRec (cluDie cluster.val) r.owner r.prog region.toNat
    let c := s.parseChain cluster.val r g.pred (s.progAt (cluDie cluster.val) r.owner r.prog g.pred 32)
    (region.toNat < s.regionCount (cluDie cluster.val) r.owner r.prog ∧ g.skip = true ∧ g.pred ≠ 0) →
    (s.backwardDone launch.toNat region.toNat = true ∧ s.besideBusy cluster.val launch.toNat = false ∧ s.canLaunch c.1 = true) →
    ∃ before, Reach 0x10000000000000000000000000080 s before ∧ predictorCommitLaunchEffect cluster launch region s =
      (before.bump .cluPredCommitCnt cluster.val 0 1).launchExtra c.1 c.2 2 none := by
  rintro r g c ⟨hregion, hskip, hpred⟩ ⟨hdone, hbeside, hlaunch⟩
  simp only [predictorCommitLaunchEffect]
  rw [if_pos ⟨hregion, hskip, hpred, hdone, hbeside, hlaunch⟩]
  exact ⟨_, ((Reach.refl _ s).set_seqs rfl).then (State.regionClamp_reach ..) rfl, rfl⟩

/-- R232 to R234: a regeneration that is permitted is noted and launched. -/
theorem checkpointRegenerationEffect_launches {s : State} {reader : ChainRef} {ckpt : BitVec 5} {c : Chain} :
    let die := cluDie c.cluster
    let g := s.regionOf c
    let w := s.ckptEntry die c.owner c.prog g ckpt.toNat
    let p := s.regionRec die c.owner c.prog (bitsOf w 32 16)
    let r := s.recOr c.launch
    let d := s.parseChain c.cluster r p.regen (s.progAt die r.owner r.prog p.regen 32)
    (s.findChain reader = some c ∧ c.region ≠ 0xFFFF ∧ ckpt.toNat < g.nAckpt) →
    (bitOf w 48 = false ∧ s.regenAllowed c w = true) →
    (s.besideBusy c.cluster c.launch = false ∧ s.canLaunch d.1 = true) →
    ∃ before, Reach 0x10000000000000000000000000000 s before ∧ checkpointRegenerationEffect reader ckpt s =
      (({ before with regens := before.regens ++ [(c.launch, bitsOf w 32 16, bitsOf w 0 32)] } : State).bump .cluCkptRegenCnt c.cluster 0 1).launchExtra
        d.1 d.2 3 (some (bitsOf w 32 16, bitsOf w 0 32)) := by
  rintro die g w p r d ⟨hreader, hregion, hckpt⟩ ⟨hkind, hallowed⟩ ⟨hbeside, hlaunch⟩
  have hclamp := s.regionClamp_reach c.cluster g
  have hallowed' : (s.regionClamp c.cluster g).regenAllowed c w = true :=
    ((s.regionClamp_sameVirtual ..).regenAllowed (hclamp.same .regens rfl) c w).trans hallowed
  have hbeside' : (s.regionClamp c.cluster g).besideBusy c.cluster c.launch = false := by
    rwa [State.besideBusy, State.findSeq, hclamp.same .seqs rfl, hclamp.same .chains rfl]
  have hlaunch' : (s.regionClamp c.cluster g).canLaunch d.1 = true := (hclamp.canLaunch (by decide) rfl d.1).trans hlaunch
  refine ⟨(s.regionClamp c.cluster g).regionClamp c.cluster p, hclamp.then (State.regionClamp_reach ..) rfl, ?_⟩
  have hfree : ¬((s.regionClamp c.cluster g).besideBusy c.cluster c.launch = true ∨ (s.regionClamp c.cluster g).canLaunch d.1 = false) := by
    rw [hbeside', hlaunch']
    decide
  simp only [checkpointRegenerationEffect, hreader, if_neg hregion]
  rw [if_pos ⟨hregion, hckpt, hkind, hallowed'⟩, if_neg hfree]

/-! ## The statement about repairs, reruns and regenerations (O21) -/

/-- Settles O21: the repairs by what the arbiter's table leaves of the repair unit's status; the launches by their one count each. -/
theorem repairsRerunsAndRegenerations : Obligations.RepairsRerunsAndRegenerations := by
  refine ⟨?_, ?_, ?_, ?_, ?_⟩
  · rintro s die value k ⟨hidle, hgo, hfree⟩
    exact ⟨_, rfl, galRepairCmdEffect_enters hidle hgo hfree⟩
  · intro s die a r k key hact hrepair hspare
    obtain ⟨hmapped, hlog, hfree, hbusy, hshown⟩ := rowRepairRunEffect_repairs hact hrepair hspare
    exact ⟨_, rfl, hmapped, hlog, hfree, hbusy, hshown⟩
  · rintro s unit k u r ⟨hstopped, hclusters, hready⟩
    refine ⟨_, rfl, ?_⟩
    rw [rerunLaunchEffect_relaunches hstopped hclusters hready]
    exact ⟨(State.relaunchOn_reach ..).same .reruns rfl, State.relaunchOn_rd_rerunCnt ..⟩
  · intro s cluster launch region r g c hregion hready
    obtain ⟨before, hbefore, heff⟩ := predictorCommitLaunchEffect_launches hregion hready
    refine ⟨_, rfl, ?_⟩
    rw [heff]
    have hcounted : Reach 0x10040000000000000000000000080 s (before.bump .cluPredCommitCnt cluster.val 0 1) :=
      ((Reach.refl _ s).then hbefore rfl).bump rfl
    have hcan := (hcounted.canLaunch (by decide) rfl c).trans hready.2.2
    refine ⟨?_, ?_⟩
    · rw [(State.launchExtra_reach ..).rd_eq _ rfl, State.rd_bump_self, hbefore.rd_eq _ rfl]
    · exact (State.launchExtra_rd_launchCnt hcan _ 2 none).trans (congrArg (· + _) (hcounted.rd_eq _ rfl ..))
  · intro s reader ckpt c die g w p r d hreader hallowed hready
    obtain ⟨before, hbefore, heff⟩ := checkpointRegenerationEffect_launches hreader hallowed hready
    refine ⟨_, rfl, ?_⟩
    rw [heff]
    have hnoted : Reach 0x10010000000000000000000000200 s (({ before with regens := before.regens ++ [(c.launch, bitsOf w 32 16, bitsOf w 0 32)] } :
        State).bump .cluCkptRegenCnt c.cluster 0 1) := (((Reach.refl _ s).then hbefore rfl).set_regens rfl).bump rfl
    have hcan := (hnoted.canLaunch (by decide) rfl d).trans hready.2
    refine ⟨?_, ?_, ?_⟩
    · rw [(State.launchExtra_reach ..).same .regens rfl, ← hbefore.same .regens rfl]
      rfl
    · rw [(State.launchExtra_reach ..).rd_eq _ rfl, State.rd_bump_self]
      exact congrArg (· + _) (hbefore.rd_eq _ rfl ..)
    · exact (State.launchExtra_rd_launchCnt hcan _ 3 _).trans (congrArg (· + _) (hnoted.rd_eq _ rfl ..))

end Sys2Proof.Machine
end

section
/-!
SUPPORT. Slot tokens, their hand-overs and the switch of an engine's task (spec/07_streams_and_stage_chains.md R336, R339, R342, R343).
-/
namespace Sys2Proof.Machine

/-! ## A slot's token -/

theorem Reach.tokenTable {F : Nat} {s t : State} (h : Reach F s t) (hout : ∀ c ∈ virtualCells, F.testBit c.code = false) (pa : Nat) :
    t.tokenTable pa = s.tokenTable pa := by
  unfold State.tokenTable
  rw [(h.sameVirtual hout).phys]

/-- A token that is not EMPTY lies in a token table, so that a transition is kept there. -/
theorem State.slotToken_putSlotToken_self {s : State} {g : Stage} {slot v : Nat} (h : s.slotToken g slot ≠ 0) (hv : v < 4) :
    (s.putSlotToken g slot v).slotToken g slot = v := by
  have htable := (s.putSlotToken_reach g slot v).tokenTable (by decide) g.ringAddr
  rw [State.slotToken, htable]
  cases hring : s.tokenTable g.ringAddr with
  | none => simp [State.slotToken, hring] at h
  | some table =>
    simp only [State.putSlotToken, hring]
    rw [State.rd_wr_self, bitsOf_withBits_self _ _ _ _ (by omega)]
    exact Nat.mod_eq_of_lt hv

theorem Reach.slotToken {F : Nat} {s t : State} (h : Reach F s t) (hout : ∀ c ∈ virtualCells, F.testBit c.code = false)
    (hgal : F.testBit (64 + Reg.galSlotTokens.ctorIdx) = false) (hclu : F.testBit (64 + Reg.cluSlotTokens.ctorIdx) = false) (g : Stage)
    (slot : Nat) : t.slotToken g slot = s.slotToken g slot := by
  have htokens : ∀ gal u i, t.rd (tokenReg gal) u i = s.rd (tokenReg gal) u i := fun gal => by
    cases gal
    · exact h.rd_eq _ hclu
    · exact h.rd_eq _ hgal
  simp only [State.slotToken, h.tokenTable hout, htokens]

/-! ## A chain replaced -/

theorem State.setChain_chains_congr {s t : State} (h : t.chains = s.chains) (c : Chain) : (t.setChain c).chains = (s.setChain c).chains := by
  rw [State.setChain, State.setChain, h]

theorem State.putChain_chains (s : State) (c : Chain) : (s.putChain c).chains = (s.setChain c).chains :=
  (State.showTasks_reach ..).same .chains rfl

/-- R336, R339: a transition of a slot of a token table, with the chain that makes it. -/
theorem State.putSlotToken_putChain {s : State} {g : Stage} {slot v : Nat} (h : s.slotToken g slot ≠ 0) (hv : v < 4) (c : Chain) :
    ((s.putSlotToken g slot v).putChain c).slotToken g slot = v ∧
      ((s.putSlotToken g slot v).putChain c).chains = (s.setChain c).chains := by
  constructor
  · rw [(State.putChain_reach ..).slotToken (by decide) rfl rfl, State.slotToken_putSlotToken_self h hv]
  · rw [State.putChain_chains, State.setChain_chains_congr ((State.putSlotToken_reach ..).same .chains rfl)]

/-! ## Task switching (R342, R343) -/

theorem State.switchTask_moves (s : State) (e task : Nat) : (s.switchTask e task).eng e = { s.eng e with task := task } ∧
    (s.switchTask e task).rd .engTaskSwitchCnt e 0 = s.rd .engTaskSwitchCnt e 0 + 1#64 := by
  constructor
  · rw [State.switchTask, State.bump_eng, State.eng_setEng_self]
  · rw [State.switchTask, State.rd_bump_self, State.setEng_rd]

/-! ## The statement about slot tokens and task switches (O23) -/

/-- Settles O23: each command's condition is the statement's, and what it then does is one transition or one switch. -/
theorem slotTokensMove : Obligations.SlotTokensMove := by
  refine ⟨?_, ?_, ?_, ?_, ?_⟩
  · rintro s ref stage c g j ⟨hchain, hring⟩ ⟨hopen, htodo, htile, hpasses, hlines, hfilling⟩
    refine ⟨_, rfl, ?_⟩
    simp only [slotFullEffect, hchain, hring, hopen, htodo, htile, hpasses, hlines, hfilling, j, Bool.not_false, Bool.and_self,
      beq_self_eq_true, if_true]
    exact State.putSlotToken_putChain (by rw [hfilling]; decide) (by decide) _
  · rintro s ref stage c g gi j ⟨hchain, hstage, hring⟩ ⟨hopen, htodo, hlines, hdraining, hforward⟩
    refine ⟨_, rfl, ?_⟩
    simp only [slotEmptyEffect, hchain, hstage, hring, hopen, htodo, hlines, hdraining, hforward, j, Bool.not_false, Bool.and_self,
      beq_self_eq_true, if_true]
    exact State.putSlotToken_putChain (by rw [hdraining]; decide) (by decide) _
  · intro s ref ring toConsumer c hchain
    refine ⟨_, rfl, ?_⟩
    simp only [tokenHandoverEffect, hchain]
    exact State.putChain_chains ..
  · rintro s e task ⟨htile, htask⟩ ⟨hready, hprio⟩
    refine ⟨_, congrArg Host.Outcome.next (?_ : taskSwitchEffect e task s = s.switchTask (EngIdIdx e) task.val), State.switchTask_moves ..⟩
    simp only [taskSwitchEffect, htile, bne_iff_ne.mpr htask, hready, hprio, decide_true, Bool.not_false, Bool.and_self, Bool.true_or, if_true]
  · rintro s e waited b ⟨htile, hbusy, hready⟩ ⟨hlimit, hbest⟩
    refine ⟨_, congrArg Host.Outcome.next (?_ : switchThresholdExpiryEffect e waited s = s.switchTask (EngIdIdx e) b), State.switchTask_moves ..⟩
    simp only [switchThresholdExpiryEffect, htile, bne_iff_ne.mpr hbusy, hready, hlimit, hbest, decide_true, Bool.not_false, Bool.and_self, if_true]

end Sys2Proof.Machine
end

section
/-!
SUPPORT. The end of a chain (spec/07_streams_and_stage_chains.md R338, R341, R349, R350, R359, R367, spec/12_beam_and_launching.md R600, R608):
what closing it counts and logs, that no chain is left to abort where it was the only one, and what its sequence then holds.
-/
namespace Sys2Proof.Machine

/-! ## Closing a chain (R338, R359, R367) -/

/-- A chain's end counted and logged, its tokens and contexts given up, and then what is saved of it, its messages and its place. -/
theorem State.closeChain_eq (s : State) (c : Chain) (status stage : Nat) : ∃ item freed,
    Reach 0x20000000000000000000000000000000000200080000000800000000000000400020
      ((s.bump .cluChainEndCnt c.cluster 0 1).logChain c status stage item) freed ∧
    s.closeChain c status stage = ((freed.dropSaved c).stopMsgs c).dropChain c := by
  unfold State.closeChain
  extract_lets item counted logged emptied traced freed dropped stopped
  have hemptied : Reach 0x20000000000000000000000000000000000200080000000800000000000000400020 logged emptied :=
    (Reach.refl _ _).then (State.emptyRings_reach ..) rfl
  have htraced := Reach.ite (c := (c.waiting && !c.stopped) = true) (hemptied.then (State.traceContext_reach _ c true) rfl) hemptied
  exact ⟨item, freed, htraced.then (State.freeContexts_reach ..) rfl, rfl⟩

theorem State.bump_logChain_reach (s : State) (c : Chain) (status stage item : Nat) : Reach 0x40100000000000000000000000000 s
    ((s.bump .cluChainEndCnt c.cluster 0 1).logChain c status stage item) :=
  (Reach.bump (.refl ..) rfl).then (State.logChain_reach ..) rfl

theorem State.closeChain_chains (s : State) (c : Chain) (status stage : Nat) :
    (s.closeChain c status stage).chains = s.chains.filter fun d => !d.same c := by
  obtain ⟨item, freed, hfreed, heq⟩ := s.closeChain_eq c status stage
  rw [heq, State.dropChain, (State.stopMsgs_reach ..).same .chains rfl, (State.dropSaved_reach ..).same .chains rfl,
    hfreed.same .chains rfl, (State.bump_logChain_reach ..).same .chains rfl]

theorem State.dropSaved_counter (s : State) (c : Chain) : (s.dropSaved c).beam.counter = s.beam.counter := by
  have hfreed : Reach 0x800000000000000000020 s ((s.beam.saved.filter fun x => x.chain == c.ref && !x.done).foldl
      (fun s x => s.freeContext x.engine x.task) s) :=
    .foldl _ (.refl ..) fun t x ht => ht.then (t.freeContext_reach ..) rfl
  show (List.foldl _ s _).beam.counter = _
  rw [hfreed.same .beam rfl]

/-- R569: beam time does not move while a chain is closed. -/
theorem State.closeChain_beamNow (s : State) (c : Chain) (status stage : Nat) : (s.closeChain c status stage).beamNow = s.beamNow := by
  obtain ⟨item, freed, hfreed, heq⟩ := s.closeChain_eq c status stage
  rw [heq, State.beamNow, State.dropChain_beam, (State.stopMsgs_reach ..).same .beam rfl, State.dropSaved_counter,
    hfreed.same .beam rfl, (State.bump_logChain_reach ..).same .beam rfl]
  rfl

theorem State.closeChain_reach_logged (s : State) (c : Chain) (status stage : Nat) : ∃ item,
    Reach 0x20000000000000000000000000000000000200080000000800000000000000582060
      ((s.bump .cluChainEndCnt c.cluster 0 1).logChain c status stage item) (s.closeChain c status stage) := by
  obtain ⟨item, freed, hfreed, heq⟩ := s.closeChain_eq c status stage
  refine ⟨item, ?_⟩
  rw [heq]
  exact (((hfreed.mono rfl).then (State.dropSaved_reach ..) rfl).then (State.stopMsgs_reach ..) rfl).then (State.dropChain_reach ..) rfl

theorem State.closeChain_rd_endCnt (s : State) (c : Chain) (status stage : Nat) :
    (s.closeChain c status stage).rd .cluChainEndCnt c.cluster 0 = s.rd .cluChainEndCnt c.cluster 0 + 1#64 := by
  obtain ⟨item, hclosed⟩ := s.closeChain_reach_logged c status stage
  rw [hclosed.rd_eq _ rfl, (State.logChain_reach ..).rd_eq _ rfl, State.rd_bump_self]

theorem State.logChain_fld_status {s : State} {c : Chain} {status : Nat} (hfree : s.fld cluChainLogValid c.cluster = 0) (hbad : status ≠ stOk)
    (hcode : status < 256) (stage item : Nat) : (s.logChain c status stage item).fld cluChainLogStatus c.cluster = status := by
  have hvalid : ¬s.fld cluChainLogValid c.cluster = 1 := by rw [hfree]; decide
  rw [State.logChain, if_neg hbad, if_neg hvalid, State.fld]
  show bitsOf ((State.wr _ .cluChainLog _ _ _).rd .cluChainLog _ _) 0 8 = _
  rw [State.rd_wr_self, bitsOf, BitVec.toNat_ofNat]
  omega

/-- R367: the first failure that the log of a cluster holds. -/
theorem State.closeChain_fld_status {s : State} {c : Chain} {status : Nat} (hfree : s.fld cluChainLogValid c.cluster = 0) (hbad : status ≠ stOk)
    (hcode : status < 256) (stage : Nat) : (s.closeChain c status stage).fld cluChainLogStatus c.cluster = status := by
  obtain ⟨item, hclosed⟩ := s.closeChain_reach_logged c status stage
  rw [hclosed.fld_eq _ rfl, State.logChain_fld_status (by rwa [State.fld_bump_ne (by decide)]) hbad hcode]

/-! ## The only chain -/

/-- Where one chain alone meets a test, none meets it once that chain is closed. -/
theorem State.closeChain_none_left {s t : State} {p : Chain → Bool} {c d : Chain} (halone : s.chains.filter p = [c])
    (hsame : c.same d = true) (hchains : t.chains = s.chains) (status stage : Nat) :
    (t.closeChain d status stage).chains.filter p = [] := by
  rw [State.closeChain_chains, hchains, List.filter_filter]
  refine List.filter_eq_nil_iff.mpr fun x hx hboth => ?_
  obtain ⟨hp, hother⟩ := Bool.and_eq_true_iff.mp hboth
  have hxc : x = c := List.mem_singleton.mp (halone ▸ List.mem_filter.mpr ⟨hx, hp⟩)
  simp [hxc, hsame] at hother

theorem Chain.same_self (c : Chain) : c.same c = true := by simp [Chain.same]

/-- A sequence after an abort that a sequence of a record's cluster has met: those of its other clusters end (R608). -/
def Seq.besideAborted (cluster launch : Nat) (q : Seq) : Seq :=
  if q.launch == launch && q.cluster != cluster && !q.ended then { q with ended := true, status := stAborted } else q

section
variable {s : State} {launch : Nat} (hnone : (s.chains.filter fun d : Chain => d.launch == launch) = [])
include hnone

theorem State.filter_launch_and_eq_nil (p : Chain → Bool) : (s.chains.filter fun d : Chain => d.launch == launch && p d) = [] :=
  List.filter_eq_nil_iff.mpr fun d hd hboth => List.filter_eq_nil_iff.mp hnone d hd (Bool.and_eq_true_iff.mp hboth).1

/-- R608: with no chain of the record left its other sequences are what an abort ends. -/
theorem State.abortOthers_of_none (cluster : Nat) : s.abortOthers cluster launch =
    { s with
      seqs := (s.seqs.filter fun q => !(q.launch == launch && q.cluster != cluster && q.extra)).map (Seq.besideAborted cluster launch) } := by
  simp only [State.abortOthers, State.filter_launch_and_eq_nil hnone, List.foldl_nil]
  rfl

theorem State.failSeq_reach_of_none (cluster status : Nat) : Reach 0x2080 s (s.failSeq cluster launch status) := by
  have hended : Reach 0x2080 s ((s.dropExtra cluster launch).endSeq cluster launch status) :=
    ((Reach.refl _ s).then (State.dropExtra_reach ..) rfl).then (State.endSeq_reach ..) rfl
  have hnoted := hended.then (State.noteFailure_reach _ launch status) rfl
  simp only [State.failSeq, State.filter_launch_and_eq_nil hnone, List.foldl_nil]
  rw [State.abortOthers_of_none (by rw [hnoted.same .chains rfl, hnone])]
  exact .ite hended (hnoted.set_seqs rfl)

theorem State.abortSeq_of_none (cluster : Nat) :
    s.abortSeq cluster launch = ((s.dropExtra cluster launch).endSeq cluster launch stAborted).abortOthers cluster launch := by
  simp only [State.abortSeq, State.filter_launch_and_eq_nil hnone, List.foldl_nil]

theorem State.abortSeq_reach_of_none (cluster : Nat) : Reach 0x80 s (s.abortSeq cluster launch) := by
  have hended : Reach 0x80 s ((s.dropExtra cluster launch).endSeq cluster launch stAborted) :=
    (s.dropExtra_reach ..).then (State.endSeq_reach ..) rfl
  rw [State.abortSeq_of_none hnone, State.abortOthers_of_none (by rw [hended.same .chains rfl, hnone])]
  exact hended.set_seqs rfl

end

/-! ## The sequence of a chain that ends -/

theorem State.findSeq_congr {s t : State} (h : t.seqs = s.seqs) (cluster launch : Nat) (extra : Bool) :
    t.findSeq cluster launch extra = s.findSeq cluster launch extra := by
  rw [State.findSeq, State.findSeq, h]

/-- The record's own sequence is found whatever sequences beside it go. -/
theorem State.findSeq_dropExtra (s : State) (cluster launch : Nat) :
    (s.dropExtra cluster launch).findSeq cluster launch = s.findSeq cluster launch := by
  rw [State.findSeq, State.dropExtra, List.find?_filter, State.findSeq]
  congr 1
  funext q
  rw [Bool.eq_iff_iff]
  cases q.extra <;> simp

/-- The first element that meets a test stays the first under a map that leaves it and changes no answer of the test. -/
theorem find?_map_of_fixed {α : Type} {p : α → Bool} {f : α → α} (hkeep : ∀ x, p (f x) = p x) (hfix : ∀ x, p x = true → f x = x)
    (l : List α) : (l.map f).find? p = l.find? p := by
  rw [List.find?_map, show p ∘ f = p from funext hkeep]
  cases hfound : l.find? p with
  | none => rfl
  | some x => rw [Option.map_some, hfix x (List.find?_some hfound)]

/-- R608: an abort of the record's other sequences leaves its own sequence on the cluster as it is. -/
theorem State.findSeq_abortOthers {s : State} {launch : Nat} (hnone : (s.chains.filter fun d : Chain => d.launch == launch) = []) (cluster : Nat) :
    (s.abortOthers cluster launch).findSeq cluster launch = s.findSeq cluster launch := by
  rw [State.abortOthers_of_none hnone, State.findSeq, find?_map_of_fixed, List.find?_filter, State.findSeq]
  · congr 1
    funext q
    rw [Bool.eq_iff_iff]
    cases q.extra <;> simp
  · intro q
    unfold Seq.besideAborted
    split <;> rfl
  · intro q hq
    simp only [Bool.and_eq_true, beq_iff_eq] at hq
    obtain ⟨⟨hcluster, -⟩, -⟩ := hq
    simp [Seq.besideAborted, hcluster]

/-- A sequence found is found as it is set. -/
theorem State.findSeq_setSeq {s : State} {cluster launch : Nat} {extra : Bool} {q r : Seq} (h : s.findSeq cluster launch extra = some q)
    (hcluster : r.cluster = q.cluster) (hlaunch : r.launch = q.launch) (hextra : r.extra = q.extra) :
    (s.setSeq r).findSeq cluster launch extra = some r := by
  have hq := List.find?_some h
  simp only [Bool.and_eq_true, beq_iff_eq] at hq
  obtain ⟨⟨rfl, rfl⟩, rfl⟩ := hq
  have hsame : (fun p : Seq => p.cluster == q.cluster && p.launch == q.launch && p.extra == q.extra) ∘ (fun p : Seq =>
      if p.cluster == r.cluster && p.launch == r.launch && p.extra == r.extra then r else p) =
      fun p => p.cluster == q.cluster && p.launch == q.launch && p.extra == q.extra := by
    funext p
    simp only [Function.comp, hcluster, hlaunch, hextra]
    split
    case isTrue hp => rw [hp]; simp [hcluster, hlaunch, hextra]
    case isFalse hp => rfl
  rw [State.findSeq, State.setSeq, List.find?_map, hsame, ← State.findSeq, h]
  simp [hcluster, hlaunch, hextra]

/-- R608: what an abort leaves of the record's own sequence on its cluster. -/
theorem State.abortSeq_findSeq {s : State} {cluster launch : Nat} {q : Seq} (hnone : (s.chains.filter fun d : Chain => d.launch == launch) = [])
    (hseq : s.findSeq cluster launch = some q) (hopen : q.ended = false) :
    (s.abortSeq cluster launch).findSeq cluster launch = some { q with ended := true, status := stAborted } := by
  have hfound : (s.dropExtra cluster launch).findSeq cluster launch = some q := (s.findSeq_dropExtra ..).trans hseq
  have hended : (s.dropExtra cluster launch).endSeq cluster launch stAborted =
      (s.dropExtra cluster launch).setSeq { q with ended := true, status := stAborted } := by
    simp only [State.endSeq, hfound, hopen, Bool.false_eq_true, if_false]
  rw [State.abortSeq_of_none hnone, hended, State.findSeq_abortOthers (by exact hnone)]
  exact State.findSeq_setSeq hfound rfl rfl rfl

theorem State.seqDone_seqs {s : State} {c : Chain} {q : Seq} (h : s.findSeq c.cluster c.launch = some q) : (s.seqDone c).seqs =
    (s.setSeq { q with
      ops := q.ops + 1, lastItems := c.items, commitBeam := s.beamNow, next := c.next,
      backward := if c.rphase = 2 ∧ c.region ≠ 0xFFFF then setInsert c.region q.backward else q.backward
      ended := q.ended || c.next == 0 }).seqs := by
  rw [State.seqDone, h]

/-- R352: with no chain of the sequence left none launched ahead takes the place of the one that ended. -/
theorem State.advance_of_none {s : State} {cluster launch : Nat}
    (hnone : (s.chains.filter fun d : Chain => d.cluster == cluster && d.launch == launch) = []) : s.advance cluster launch = s := by
  have hfind : ∀ p : Chain → Bool, (s.chains.find? fun d => d.cluster == cluster && d.launch == launch && p d) = none := fun p =>
    List.find?_eq_none.mpr fun d hd hboth => List.filter_eq_nil_iff.mp hnone d hd (Bool.and_eq_true_iff.mp hboth).1
  have hahead := hfind fun d => d.ahead && !d.extra
  have hdone := hfind fun d => !d.ahead && !d.extra && d.completion == 2
  simp only [← Bool.and_assoc] at hahead hdone
  cases hseq : s.findSeq cluster launch <;> simp only [State.advance, hseq, hahead, hdone, Bool.false_eq_true, if_false]

/-! ## A chain that commits (R338, R341, R352) -/

/-- A chain with OK, alone in its sequence, is closed, and its sequence goes on. -/
theorem State.endChain_ok {s : State} {c : Chain} (habort : c.aborting = none) (hown : c.extra = false)
    (halone : ∃ d : Chain, d.same c = true ∧ (s.chains.filter fun d : Chain => d.cluster == c.cluster && d.launch == c.launch) = [d]) :
    s.endChain c stOk 0 = ((s.closeChain c stOk 0).seqDone c).grantContexts := by
  obtain ⟨d, hsame, hfilter⟩ := halone
  have hnone : (((s.closeChain c stOk 0).seqDone c).chains.filter fun d : Chain => d.cluster == c.cluster && d.launch == c.launch) = [] := by
    rw [(State.seqDone_reach ..).same .chains rfl]
    exact State.closeChain_none_left hfilter hsame rfl _ _
  have hgood : goodStatus stOk = true := rfl
  simp only [State.endChain, habort, State.seqAfter, hgood, hown, State.advance_of_none hnone, Bool.not_true, Bool.false_eq_true, if_false]

/-! ## A chain that fails (R608) -/

/-- What ends with a failed chain that is the only one of its record: sequences, the record's status, contexts granted to others. -/
theorem State.endChain_reach_of_failure {s : State} {c : Chain} {status : Nat} (habort : c.aborting = none) (hbad : goodStatus status = false)
    (halone : (s.chains.filter fun d : Chain => d.launch == c.launch) = [c]) (stage : Nat) :
    Reach 0x200000000000000000000000000000000000000000200008000000000000004020e0 (s.closeChain c status stage) (s.endChain c status stage) := by
  have hnone : (((s.closeChain c status stage).regenFailed c status).chains.filter fun d : Chain => d.launch == c.launch) = [] := by
    rw [(State.regenFailed_reach ..).same .chains rfl]
    exact State.closeChain_none_left halone c.same_self rfl _ _
  simp only [State.endChain, habort, State.seqAfter, hbad, Bool.not_false, if_true]
  exact (((State.regenFailed_reach ..).mono rfl).then (State.failSeq_reach_of_none hnone c.cluster status) rfl).then (State.grantContexts_reach _) rfl

/-- R349, R350, R367: a failure counted in a register that the end of a chain leaves, and that end counted and logged. -/
theorem State.bump_endChain {s : State} {c : Chain} {status : Nat} {r : Reg}
    (hr : Nat.testBit 0x200000000000000000000000000000000002000c01200008000000000000005834e0 (64 + r.ctorIdx) = false)
    (habort : c.aborting = none) (hbad : goodStatus status = false) (hcode : status < 256)
    (halone : (s.chains.filter fun d : Chain => d.launch == c.launch) = [c]) (hfree : s.fld cluChainLogValid c.cluster = 0) (stage : Nat) :
    let t := (s.bump r c.cluster 0 1).endChain c status stage
    t.rd r c.cluster 0 = s.rd r c.cluster 0 + 1#64 ∧ t.rd .cluChainEndCnt c.cluster 0 = s.rd .cluChainEndCnt c.cluster 0 + 1#64 ∧
      t.fld cluChainLogStatus c.cluster = status := by
  intro t
  have hended := State.endChain_reach_of_failure (s := s.bump r c.cluster 0 1) habort hbad halone stage
  have hnotOk : status ≠ stOk := by rintro rfl; cases hbad
  have hnotEnd : Reg.cluChainEndCnt ≠ r := by rintro rfl; cases hr
  have hnotLog : cluChainLogValid.reg ≠ r := by rintro rfl; cases hr
  refine ⟨?_, ?_, ?_⟩
  · rw [(State.endChain_reach ..).rd_eq _ hr, State.rd_bump_self]
  · rw [hended.rd_eq _ rfl, State.closeChain_rd_endCnt, State.rd_bump_ne hnotEnd]
  · rw [hended.fld_eq _ rfl]
    exact State.closeChain_fld_status (by rw [State.fld_bump_ne hnotLog, hfree]) hnotOk hcode stage

/-! ## The statement about the ends of chains (O24) -/

/-- A chain past its commit point. -/
abbrev Chain.committed (c : Chain) : Chain := { c with completion := 2 }

/-- R338, R341: what a commit does with a chain whose last item is finished and accepted, but for one that runs beside its record's sequence. -/
theorem chainCommitEffect_of_accepted {s : State} {ref : ChainRef} {c : Chain} (hfound : s.findChain ref = some c) (hlast : s.lastOpen c = false)
    (hcompletion : c.completion = 1) (hstopped : c.stopped = false) (habort : c.aborting = none) :
    (c.ahead = true → chainCommitEffect ref s = (s.planCommit c).setChain c.committed) ∧
    (c.ahead = false → c.extra = false → chainCommitEffect ref s = (s.planCommit c).endChain c.committed stOk 0) := by
  have hopen : (decide (c.completion = 1) && !c.stopped && c.aborting.isNone && !s.lastOpen c) = true := by
    simp [hcompletion, hstopped, habort, hlast]
  simp only [chainCommitEffect, hfound, hopen, if_true]
  exact ⟨fun hahead => if_pos hahead, fun hahead hown => by rw [if_neg (by simp [hahead]), if_neg (by simp [hown])]⟩

/-- Settles O24: a chain's end is its closing, with the one count and log entry, and then what is left of its sequence, which no
chain runs any more. -/
theorem chainsEnd : Obligations.ChainsEnd := by
  refine ⟨?_, ?_, ?_, ?_, ?_, ?_⟩
  · rintro s ref c q ⟨hfound, hlast⟩ ⟨hcompletion, hstopped, habort, hown, hahead⟩ ⟨halone, hseq⟩
    refine ⟨_, rfl, ?_⟩
    have hplan : Reach 0x1000 s (s.planCommit c) := State.planCommit_reach ..
    have hseqs : ((s.planCommit c).closeChain c.committed stOk 0).seqs = s.seqs :=
      ((State.closeChain_reach ..).same .seqs rfl).trans (hplan.same .seqs rfl)
    have hnow : ((s.planCommit c).closeChain c.committed stOk 0).beamNow = s.beamNow := by
      rw [State.closeChain_beamNow, State.beamNow, hplan.same .beam rfl, State.beamNow]
    rw [(chainCommitEffect_of_accepted hfound hlast hcompletion hstopped habort).2 hahead hown,
      State.endChain_ok (c := c.committed) habort hown ⟨c, c.same_self, by rwa [hplan.same .chains rfl]⟩]
    refine ⟨?_, ?_⟩
    · rw [(State.grantContexts_reach _).rd_eq _ rfl, (State.seqDone_reach ..).rd_eq _ rfl]
      exact (State.closeChain_rd_endCnt _ c.committed stOk 0).trans (congrArg (· + _) (hplan.rd_eq _ rfl ..))
    · rw [(State.grantContexts_reach _).same .seqs rfl, State.seqDone_seqs (c := c.committed) ((State.findSeq_congr hseqs ..).trans hseq), hnow,
        State.setSeq, hseqs]
      rfl
  · rintro s ref c ⟨hfound, hlast⟩ ⟨hcompletion, hstopped, habort, hahead⟩
    refine ⟨_, rfl, ?_⟩
    have hplan : Reach 0x1000 s (s.planCommit c) := State.planCommit_reach ..
    rw [(chainCommitEffect_of_accepted hfound hlast hcompletion hstopped habort).1 hahead]
    exact ⟨State.setChain_chains_congr (hplan.same .chains rfl) _, hplan.same .seqs rfl⟩
  · rintro s ref us c ⟨hfound, hwd, hlimit⟩ ⟨hwaiting, hstopped, habort, hall, hexternal⟩ ⟨halone, hfree⟩
    refine ⟨_, rfl, ?_⟩
    simp only [chainStallEffect, hfound, hwd, hlimit, hwaiting, hstopped, hall, hexternal, decide_true, Bool.not_false, Bool.and_self,
      if_true, if_false]
    exact State.bump_endChain rfl habort rfl (by decide) halone hfree 0
  · rintro s ref ms c g ⟨hfound, hhead, hkind, hstopped, habort⟩ ⟨hexternal, hlimit⟩ ⟨halone, hfree⟩
    refine ⟨_, rfl, ?_⟩
    have hcode : failureCode (0#8).toNat = false := rfl
    simp only [slotTimeoutEffect, hfound, hhead, hkind, hstopped, hcode, hexternal, hlimit, beq_self_eq_true, decide_true, Bool.not_true,
      Bool.or_self, Bool.and_self, Bool.false_eq_true, if_true, if_false]
    exact State.bump_endChain rfl habort rfl (by decide) halone hfree 1
  · rintro s ref c q ⟨hfound, htiles⟩ ⟨hcompletion, halone⟩ ⟨hseq, hopen, hfree⟩
    refine ⟨_, rfl, ?_⟩
    have hnone := State.closeChain_none_left halone c.same_self rfl stAborted 0
    have hclosed := s.closeChain_reach c stAborted 0
    have haborted : Reach 0x200000000000000000000000000000000000000000000008000000000000004000e0 _ _ :=
      (State.abortSeq_reach_of_none hnone c.cluster).mono rfl
    have hended := haborted.then (State.grantContexts_reach _) rfl
    simp only [chainAbortEffect, hfound, hcompletion, htiles, Bool.false_eq_true, if_false]
    refine ⟨?_, ?_, ?_⟩
    · rw [hended.rd_eq _ rfl, State.closeChain_rd_endCnt]
    · rw [hended.fld_eq _ rfl, State.closeChain_fld_status hfree (by decide) (by decide)]
    · rw [State.findSeq_congr ((State.grantContexts_reach _).same .seqs rfl)]
      exact State.abortSeq_findSeq hnone ((State.findSeq_congr (hclosed.same .seqs rfl) ..).trans hseq) hopen
  · rintro s ref c ⟨hfound, hcompletion, htiles⟩
    refine ⟨_, rfl, ?_⟩
    simp only [chainAbortEffect, hfound, hcompletion, htiles, if_true, if_false]

end Sys2Proof.Machine
end

section
/-!
SUPPORT. Launching a chain (spec/07_streams_and_stage_chains.md R323, R338, R352, spec/12_beam_and_launching.md R600): what its launch leaves of
the chains that run, and what counting it beforehand leaves of the conditions of a launch.
-/
namespace Sys2Proof.Machine

/-! ## What a launch looks at -/

theorem Reach.ringOk {F : Nat} {s t : State} (h : Reach F s t) (hout : ∀ c ∈ virtualCells, F.testBit c.code = false) (g : Stage) :
    t.ringOk g = s.ringOk g := by
  simp only [State.ringOk, (h.sameVirtual hout).phys]

theorem Reach.contextsFree {F : Nat} {s t : State} (h : Reach F s t) (htasks : F.testBit (64 + Reg.engTaskState.ctorIdx) = false)
    (hbeam : F.testBit 13 = false) (launch : Nat) (stages : List Stage) : t.contextsFree launch stages = s.contextsFree launch stages := by
  have hsaved : t.beam = s.beam := h.same .beam hbeam
  have hordered : t.orderedBefore = s.orderedBefore := by
    unfold State.orderedBefore State.recOr State.findRec
    rw [hsaved]
  simp only [State.contextsFree, State.taskState, h.fld_eq engTaskStateState htasks, hsaved, hordered]

/-- R323, R328, R600: a chain can be launched now: its cluster can launch it, its rings lie each in one memory and its task contexts are free. -/
structure State.Launches (s : State) (c : Chain) : Prop where
  can : s.canLaunch c = true
  rings : (c.rings.all fun g => s.ringOk g) = true
  contexts : s.contextsFree c.launch c.stages = true

/-- What is counted before a launch does not stand in its way. -/
theorem State.Launches.of_reach {F : Nat} {s t : State} {c : Chain} (hc : s.Launches c) (h : Reach F s t)
    (hout : ∀ c ∈ virtualCells, F.testBit c.code = false) (hresets : F.testBit 30 = false)
    (htasks : F.testBit (64 + Reg.engTaskState.ctorIdx) = false) (hbeam : F.testBit 13 = false) : t.Launches c where
  can := (h.canLaunch hout hresets c).trans hc.can
  rings := by simpa only [h.ringOk hout] using hc.rings
  contexts := (h.contextsFree htasks hbeam ..).trans hc.contexts

/-! ## The launch -/

/-- R323, R600: a chain that can be launched now runs, after those that ran. -/
theorem State.launchChain_chains {s : State} {c : Chain} (h : s.Launches c) (clamps : Nat) : (s.launchChain c clamps).chains = s.chains ++ [c] := by
  unfold State.launchChain
  rw [if_neg (by simp [h.can])]
  extract_lets bumped counted waiting emptied started
  have hcounted : Reach 0x200090080000000000000000000001000 s counted := ((Reach.refl _ s).bump rfl).then (State.clamped_reach ..) rfl
  have hstarted : Reach 0x200090080000000000000000000001000 s started :=
    (hcounted.then (State.emptyRings_reach ..) rfl).then (State.planStart_reach ..) rfl
  have hrings : (c.rings.findIdx? fun g => !counted.ringOk g) = none := by
    refine List.findIdx?_eq_none_iff.mpr fun g hg => ?_
    rw [hcounted.ringOk (by decide), List.all_eq_true.mp h.rings g hg]
    rfl
  have hcontexts : started.contextsFree c.launch c.stages = true := (hstarted.contextsFree rfl rfl ..).trans h.contexts
  simp only [hrings, hcontexts, if_true]
  rw [(State.showTasks_reach ..).same .chains rfl, (State.takeContexts_reach ..).same .chains rfl]
  exact congrArg (· ++ [c]) (hstarted.same .chains rfl)

/-- R323, R338, R352: a launch counts one chain, which then runs. -/
theorem State.launchChain_after {s t : State} {c : Chain} (hc : s.Launches c) (h : Reach 0x18008000000000000000000000000 s t) (clamps : Nat) :
    (t.launchChain c clamps).rd .cluChainLaunchCnt c.cluster 0 = s.rd .cluChainLaunchCnt c.cluster 0 + 1#64 ∧
    (t.launchChain c clamps).chains = s.chains ++ [c] := by
  have ht : t.Launches c := hc.of_reach h (by decide) rfl rfl rfl
  rw [State.launchChain_rd_launchCnt ht.can, State.launchChain_chains ht, h.rd_eq _ rfl, h.same .chains rfl]
  exact ⟨rfl, rfl⟩

/-! ## The sequencer's commands (R323, R352, R354) -/

/-- R323: the chain at the next offset of a sequence that runs nothing. -/
theorem stageChainEffect_launches {s : State} {cluster : Fin 24} {launch : BitVec 12} {image : CmdImage} {q : Seq} :
    let r := s.recOr launch.toNat
    let ws := s.imageWords cluster.val r q.next 32 image
    let c := s.parseChain cluster.val r q.next ws
    ((s.chains.any fun d : Chain => d.cluster == cluster.val && d.launch == launch.toNat && !d.extra) = false ∧
      s.collRuns cluster.val launch.toNat = false) →
    (s.findSeq cluster.val launch.toNat = some q ∧ q.ended = false ∧ imageOpc ws = 0xC) →
    stageChainEffect cluster launch image s = (s.countRecompute c.1).launchChain c.1 c.2 := by
  rintro r ws c ⟨hchains, hcoll⟩ ⟨hseq, hopen, hopc⟩
  have hneed : s.needSeq cluster.val launch.toNat = s := by rw [State.needSeq, hseq]
  simp only [stageChainEffect, hchains, hcoll, hneed, hseq, hopen, Bool.or_self, Bool.false_eq_true, if_false]
  exact if_pos hopc

/-- R352: the next chain of a sequence once the one before it has completed. -/
theorem nextChainLaunchEffect_launches {s : State} {cluster : Fin 24} {launch : BitVec 12} {image : CmdImage} {q : Seq} :
    let r := s.recOr launch.toNat
    let ws := s.imageWords cluster.val r q.next 32 image
    let c := s.parseChain cluster.val r q.next ws
    ((s.chains.find? fun d : Chain => d.cluster == cluster.val && d.launch == launch.toNat && !d.extra && !d.ahead) = none) →
    (s.collRuns cluster.val launch.toNat = false ∧ s.findSeq cluster.val launch.toNat true = none) →
    (s.findSeq cluster.val launch.toNat = some q ∧ q.ended = false ∧ q.next ≠ 0 ∧ imageOpc ws = 0xC) →
    nextChainLaunchEffect cluster launch image s = (s.countRecompute c.1).launchChain c.1 c.2 := by
  rintro r ws c hchains ⟨hcoll, hbeside⟩ ⟨hseq, hopen, hnext, hopc⟩
  simp only [nextChainLaunchEffect, hbeside, Option.filter_none, hchains, hseq, hopen, beq_false_of_ne hnext, hcoll, Bool.or_self, Bool.false_eq_true,
    if_false]
  exact if_pos hopc

/-- R354: the next chain of a sequence launched ahead. -/
theorem nextChainLaunchEffect_ahead {s : State} {cluster : Fin 24} {launch : BitVec 12} {image : CmdImage} {cur : Chain} {g : Stage} :
    let r := s.recOr launch.toNat
    let ws := s.imageWords cluster.val r cur.next 32 image
    let c := s.parseChain cluster.val r cur.next ws
    (s.findSeq cluster.val launch.toNat true = none) →
    ((s.chains.find? fun d : Chain => d.cluster == cluster.val && d.launch == launch.toNat && !d.extra && !d.ahead) = some cur) →
    ((s.chains.any fun d : Chain => d.cluster == cluster.val && d.launch == launch.toNat && !d.extra && d.ahead) = false) →
    (cur.stages.head? = some g ∧ g.busy = false ∧ cur.items ≤ g.started) →
    (cur.overlap = true ∧ cur.next ≠ 0 ∧ cur.aborting = none ∧ cur.stopped = false ∧ imageOpc ws = 0xC) →
    s.Launches c.1 →
    nextChainLaunchEffect cluster launch image s =
      ((s.countRecompute c.1).bump .cluBubbleLaunchCnt cluster.val 0 1).launchChain { c.1 with ahead := true } c.2 := by
  rintro r ws c hbeside hcur halready ⟨hhead, hbusy, hitems⟩ ⟨hoverlap, hnext, habort, hstopped, hopc⟩ hlaunches
  have htouches : s.touchesReset c.1 = false := by
    have hcan := hlaunches.can
    simp only [State.canLaunch, Bool.and_eq_true, Bool.not_eq_true'] at hcan
    exact hcan.1
  simp only [nextChainLaunchEffect, hbeside, Option.filter_none, hcur, hhead, hbusy, hitems, halready, hoverlap, bne_iff_ne.mpr hnext,
    habort, hstopped]
  refine if_pos ?_
  simp [hopc, htouches, hlaunches.contexts, r, ws, c]

/-- R232: the next chain of a sequence beside the record's own. -/
theorem nextChainLaunchEffect_beside {s : State} {cluster : Fin 24} {launch : BitVec 12} {image : CmdImage} {q : Seq} :
    let r := s.recOr launch.toNat
    let p := s.parseChain cluster.val r q.next (s.imageWords cluster.val r q.next 32 image)
    let c := { p.1 with extra := true, origin := if q.regenFor.isSome then 3 else 1 }
    (s.findSeq cluster.val launch.toNat true = some q ∧ q.next ≠ 0) →
    ((s.chains.any fun d : Chain => d.cluster == cluster.val && d.launch == launch.toNat && d.extra) = false) →
    nextChainLaunchEffect cluster launch image s = (s.countRecompute c).launchChain c p.2 := by
  rintro r p c ⟨hseq, hnext⟩ hchains
  have hgoes : (some q).filter (fun q => q.next != 0 &&
      !(s.chains.any fun c => c.cluster == cluster.val && c.launch == launch.toNat && c.extra)) = some q :=
    Option.filter_some_pos (by simp [hchains, hnext])
  simp only [nextChainLaunchEffect, hseq, hgoes]
  rfl

end Sys2Proof.Machine
end

section
/-!
SUPPORT. The work of a stage's item (spec/07_streams_and_stage_chains.md R332, R336, R337, R361): an engine stage's item begins with its
tile under way, and a fetch whose reads are done fills its slot.
-/
namespace Sys2Proof.Machine

/-! ## Reads that are done (R281, R332, R360 to R362) -/

/-- R286: a read that meets no error for a rerun leaves the chains as they are. -/
theorem State.parityStops_chains {s u : State} {c : Chain} {bytes : List Nat} (h : s.parityStops c bytes = (u, false)) : u.chains = s.chains := by
  unfold State.parityStops at h
  split at h
  · cases h; rfl
  · extract_lets clamped at h
    split at h
    extract_lets poisoned at h
    split at h
    · obtain ⟨rfl, -⟩ := Prod.mk.inj h
      exact (State.regionClamp_reach ..).same .chains rfl
    · cases (Prod.mk.inj h).2

theorem State.chainReads_chains {s u : State} {c : Chain} {a : Access} {runs : List (Nat × Nat)} (h : s.chainReads c a runs = (u, false)) :
    u.chains = s.chains :=
  (State.parityStops_chains h).trans ((State.readRuns_reach ..).same .chains rfl)

/-- Reads that are done leave the chains as they are. -/
theorem State.stageReads_done_chains {s u : State} {c : Chain} {k : Nat} {g : Stage} {runs : List (Nat × Nat)} {poison : Bool}
    (h : s.stageReads c k g runs = (u, .done poison)) : u.chains = s.chains := by
  unfold State.stageReads at h
  extract_lets die a at h
  split at h
  case h_1 page hpage =>
    extract_lets before at h
    split at h
    have hend := (Prod.mk.inj h).2
    split at hend <;> cases hend
  case h_2 =>
    split at h
    · cases (Prod.mk.inj h).2
    split at h
    · cases (Prod.mk.inj h).2
    split at h
    · cases (Prod.mk.inj h).2
    split at h
    next read stopped hreads =>
      split at h
      · cases (Prod.mk.inj h).2
      next hgoes =>
        extract_lets poisoned at h
        split at h
        · cases (Prod.mk.inj h).2
        · obtain ⟨rfl, -⟩ := Prod.mk.inj h
          rw [Bool.not_eq_true] at hgoes
          exact State.chainReads_chains (hgoes ▸ hreads)

/-! ## A fetch that fills its slot (R332, R361) -/

theorem State.rdByte_putMem_in (s : State) (pa : Nat) {bs : List Byte} {i : Nat} (h : i < bs.length) : (s.putMem pa bs).rdByte (pa + i) = bs[i] := by
  have hafter : Reach 0x10220000000000000000000000000000000007000 (s.putRaw pa bs)
      (((s.putRaw pa bs).touchWrite pa bs.length).touchTable pa bs.length) :=
    ((Reach.refl _ _).then (State.touchWrite_reach ..) rfl).then (State.touchTable_reach ..) rfl
  rw [State.putMem, if_neg (List.ne_nil_of_length_pos (Nat.zero_lt_of_lt h)), State.rdByte, hafter.same .mem rfl]
  exact s.rdByte_putRaw_in pa h

/-- A write into a slot stores its bytes as far as the slot goes. -/
theorem State.putSlot_rdByte (s : State) (a : Access) (g : Stage) (t : Nat) (bs : List Byte) (poison : Bool) {k : Nat}
    (hk : k < Nat.min bs.length g.slotBytes) : (s.putSlot a g t 0 bs poison).rdByte (g.slotAddr t + k) = bs.getD k 0#8 := by
  obtain ⟨hlen, hslot⟩ := Nat.lt_min.mp hk
  have htake : k < (bs.take g.slotBytes).length := by rw [List.length_take]; exact Nat.lt_min.mpr ⟨hslot, hlen⟩
  have hmem : (s.putSlot a g t 0 bs poison).mem =
      ((s.useSlots a (g.slotAddr t) (bs.take g.slotBytes).length).putMem (g.slotAddr t) (bs.take g.slotBytes)).mem := by
    unfold State.putSlot
    split <;> rfl
  rw [State.rdByte, hmem]
  refine (State.rdByte_putMem_in _ _ htake).trans ?_
  rw [List.getElem_take, List.getD_eq_getElem _ _ hlen]

/-- R360: the walks that translate pages ahead of their use, noted one after another. -/
def State.noteWalks (s : State) (die owner : Nat) (pages : List Nat) : State :=
  pages.foldl (fun s p => s.noteWalk die (s.xlat die owner (p * 65536))) s

theorem State.noteWalks_reach (s : State) (die owner : Nat) (pages : List Nat) :
    Reach 0x60000000000000000000000000000000000000000000 s (s.noteWalks die owner pages) :=
  .foldl _ (.refl ..) fun t _ ht => ht.then (t.noteWalk_reach ..) rfl

/-- R332: a fetch whose reads are done fills its slot, then translates ahead and is done with its item. -/
theorem State.fetchTile_of_done {s u : State} {c : Chain} {k : Nat} {g : Stage} {poison : Bool} (htodo : g.todo = true)
    (hring : (c.outRing k).isSome = true) (hmx : (s.chainDesc c g.inDesc).1.mx = false)
    (hreads : s.stageReads c k g ((s.chainDesc c g.inDesc).1.tileRuns (g.started - 1)) = (u, .done poison)) :
    let d := (s.chainDesc c g.inDesc).1
    let img := u.tileImage (cluDie c.cluster) c.owner d (g.started - 1) g.ovl g.overBad
    let counted := if img.masked then u.bump .cluExtentMaskCnt c.cluster 0 1 else u
    s.fetchTile c k g = ((counted.putSlot (c.access k g) g (g.started - 1) 0 img.elems img.poison).noteWalks (cluDie c.cluster) c.owner
      (d.aheadPages (g.started - 1))).setStageOf c k g.readDone := by
  simp only [State.fetchTile, htodo, hring, hmx, hreads, if_true, Bool.false_and, Bool.false_eq_true, if_false]
  rfl

/-- R361: a stopped fetch that goes on where its reads are done now. -/
theorem runaheadResumeEffect_fetches {s : State} {ref : ChainRef} {c : Chain} {g : Stage} (hfound : s.findChain ref = some c)
    (hstage : c.stages[0]? = some g) (hkind : g.kind = 1) (htodo : g.todo = true) (hstopped : c.stopped = false) (hwaiting : c.waiting = false) :
    runaheadResumeEffect ref s = s.fetchTile c 0 g := by
  simp only [runaheadResumeEffect, State.resumeFetch, State.retryStage, hfound, hstage, htodo, hstopped, hwaiting, Bool.not_false, Bool.and_self,
    if_true, State.itemWork, hkind]

/-! ## An engine stage's item (R336, R337) -/

theorem State.setChain_setChain (s : State) (c : Chain) : (s.setChain c).setChain c = s.setChain c := by
  rw [State.setChain, State.setChain, List.map_map]
  congr 2
  funext d
  rw [Function.comp]
  by_cases hsame : d.same c = true
  · rw [if_pos hsame, if_pos c.same_self]
  · rw [if_neg hsame, if_neg hsame]

/-- An engine stage's item without lens loads is done with its reads at once; where nothing is queued no command begins with it. -/
theorem State.itemWork_of_idle {s : State} {c : Chain} {k : Nat} {g : Stage} (hkind : g.kind = 0) (hloads : g.loads = [])
    (hqueue : (s.eng (engIndex g.engine)).queue = []) : ∃ t : State, t.chains = s.chains ∧ s.itemWork c k g = t.setStageOf c k g.readDone := by
  refine ⟨s.setEng (engIndex g.engine) { s.eng (engIndex g.engine) with task := g.task }, rfl, ?_⟩
  simp only [State.itemWork, hkind, hloads, State.lensLoads]
  refine State.drain_of_empty ?_
  rw [State.setStageOf, State.setChain_eng, State.eng_setEng_self]
  exact hqueue

/-- R336: an item without loads begins with its reads done, and so its chain stays as it was set. -/
theorem State.beginItem_readDone {s t : State} {c : Chain} {k : Nat} {g : Stage} (h : t.chains = (s.beginItem c k g []).1.chains) :
    (t.setStageOf (s.beginItem c k g []).2.1 k (s.beginItem c k g []).2.2.readDone).chains = (s.setChain (s.beginItem c k g []).2.1).chains := by
  have hbegun : t.chains = (s.setChain (s.beginItem c k g []).2.1).chains :=
    h.trans (State.setChain_chains_congr ((State.startTokens_reach ..).same .chains rfl) _)
  have hset : (c.stages.set k (s.beginItem c k g []).2.2).set k (s.beginItem c k g []).2.2 = c.stages.set k (s.beginItem c k g []).2.2 :=
    List.set_set ..
  calc
    _ = (t.setChain { (s.beginItem c k g []).2.1 with
          stages := (c.stages.set k (s.beginItem c k g []).2.2).set k (s.beginItem c k g []).2.2 }).chains := rfl
    _ = (t.setChain (s.beginItem c k g []).2.1).chains := by rw [hset]; rfl
    _ = ((s.setChain (s.beginItem c k g []).2.1).setChain (s.beginItem c k g []).2.1).chains := State.setChain_chains_congr hbegun _
    _ = _ := congrArg State.chains (State.setChain_setChain ..)

/-- R337: an item that may start: its stage is an engine's, idle, with items left, selected and ready, and no block of its chain is being reset. -/
structure State.ItemStarts (s : State) (c : Chain) (k : Nat) (g : Stage) : Prop where
  kind : g.kind = 0
  runs : c.waiting = false ∧ c.stopped = false ∧ c.aborting = none ∧ c.raw = false
  outOfReset : s.stageInReset c g = false ∧ s.touchesReset c = false
  idle : g.missed = none ∧ g.busy = false ∧ g.started < c.items
  selected : s.selected (engIndex g.engine) g.task = true
  ready : s.planReady c = true ∧ s.itemReady c k g = true

/-- R336, R337: the item begins, its work is done, and the contexts of its chain are shown anew. -/
theorem stageItemStartEffect_begins {s : State} {ref : ChainRef} {stage : Fin 6} {c : Chain} {g : Stage} (hfound : s.findChain ref = some c)
    (hstage : c.stages[stage.val]? = some g) (hstarts : s.ItemStarts c stage.val g) (loads : List LensLoad) (wait : SyncWait) (waited : BitVec 40) :
    let p := (s.traceStageWait c stage.val g wait waited false).beginItem c stage.val g loads
    Reach 0x800000000000000000020 (p.1.itemWork p.2.1 stage.val p.2.2) (stageItemStartEffect ref stage loads wait waited s) := by
  obtain ⟨hkind, ⟨hwaiting, hstopped, habort, hraw⟩, ⟨hreset, htouches⟩, ⟨hmissed, hbusy, hitems⟩, hselected, hplan, hready⟩ := hstarts
  intro p
  have heff : stageItemStartEffect ref stage loads wait waited s = match (p.1.itemWork p.2.1 stage.val p.2.2).findChain ref with
      | some c => (p.1.itemWork p.2.1 stage.val p.2.2).showTasks c
      | none => p.1.itemWork p.2.1 stage.val p.2.2 := by
    simp only [stageItemStartEffect, hfound, hstage, hkind, hwaiting, hstopped, habort, hraw, hreset, htouches, hmissed, hbusy, Nat.not_le.mpr hitems,
      hselected, hplan, hready, Option.isSome_none, Nat.reduceBEq, decide_true, decide_false, Bool.not_true, Bool.not_false, Bool.and_false,
      Bool.false_and, Bool.or_self, Bool.false_eq_true, if_false] <;> rfl
  rw [heff]
  split
  · exact State.showTasks_reach ..
  · exact .refl ..

/-- R332, R336: the chains after an engine stage has started an item without lens loads on an engine with nothing queued. -/
theorem stageItemStartEffect_chains {s : State} {ref : ChainRef} {stage : Fin 6} {c : Chain} {g : Stage} (hfound : s.findChain ref = some c)
    (hstage : c.stages[stage.val]? = some g) (hstarts : s.ItemStarts c stage.val g) (hqueue : (s.eng (engIndex g.engine)).queue = [])
    (wait : SyncWait) (waited : BitVec 40) :
    (stageItemStartEffect ref stage [] wait waited s).chains = (s.setChain (s.beginItem c stage.val g []).2.1).chains := by
  have htraced := s.traceStageWait_reach c stage.val g wait waited false
  have hidle : (((s.traceStageWait c stage.val g wait waited false).beginItem c stage.val g []).1.eng (engIndex g.engine)).queue = [] := by
    rw [(State.beginItem_reach ..).fst.eng_eq rfl, htraced.eng_eq rfl, hqueue]
  obtain ⟨t, ht, hwork⟩ := State.itemWork_of_idle (c := ((s.traceStageWait c stage.val g wait waited false).beginItem c stage.val g []).2.1)
    (k := stage.val) (g := ((s.traceStageWait c stage.val g wait waited false).beginItem c stage.val g []).2.2) hstarts.kind rfl hidle
  rw [(stageItemStartEffect_begins hfound hstage hstarts [] wait waited).same .chains rfl, hwork, State.beginItem_readDone ht]
  exact State.setChain_chains_congr (htraced.same .chains rfl) _

/-! ## The statement about launches and starts (O22) -/

/-- Settles O22: each launch is one of `launchChain` after what is counted for it, an item begins by `beginItem`, and a fetch that goes
on is `fetchTile`. -/
theorem chainsLaunchAndStageItemsStart : Obligations.ChainsLaunchAndStageItemsStart := by
  refine ⟨?_, ?_, ?_, ?_, ?_, ?_⟩
  · rintro s cluster launch image q r ws c hidle hseq ⟨hcan, hrings, hcontexts⟩
    refine ⟨_, rfl, ?_⟩
    rw [stageChainEffect_launches hidle hseq]
    exact State.launchChain_after ⟨hcan, hrings, hcontexts⟩ ((State.countRecompute_reach ..).mono rfl) _
  · rintro s cluster launch image q r ws c hchains hidle hseq ⟨hcan, hrings, hcontexts⟩
    refine ⟨_, rfl, ?_⟩
    rw [nextChainLaunchEffect_launches hchains hidle hseq]
    exact State.launchChain_after ⟨hcan, hrings, hcontexts⟩ ((State.countRecompute_reach ..).mono rfl) _
  · rintro s cluster launch image cur g r ws c hbeside hcur halready hhead hnext ⟨hcan, hrings, hcontexts⟩
    have hlaunches : s.Launches c := ⟨hcan, hrings, hcontexts⟩
    have hahead : s.Launches { c with ahead := true } := ⟨hcan, hrings, hcontexts⟩
    have hcounted : Reach 0x10008000000000000000000000000 s (s.countRecompute c) := State.countRecompute_reach ..
    refine ⟨_, rfl, ?_, ?_⟩
    · rw [nextChainLaunchEffect_ahead hbeside hcur halready hhead hnext hlaunches, (State.launchChain_reach ..).rd_eq _ rfl, State.rd_bump_self,
        hcounted.rd_eq _ rfl]
    · rw [nextChainLaunchEffect_ahead hbeside hcur halready hhead hnext hlaunches]
      exact State.launchChain_after hahead (Reach.bump (hcounted.mono rfl) rfl) _
  · rintro s cluster launch image q r ws c hseq hchains ⟨hcan, hrings, hcontexts⟩
    refine ⟨_, rfl, ?_⟩
    rw [nextChainLaunchEffect_beside hseq hchains]
    exact State.launchChain_after ⟨hcan, hrings, hcontexts⟩ ((State.countRecompute_reach ..).mono rfl) _
  · rintro s ref stage wait waited c g ⟨hfound, hstage, hkind⟩ hruns ⟨hreset, htouches, hqueue⟩ ⟨hmissed, hbusy, hitems, hselected⟩ hready
    have hstarts : s.ItemStarts c stage.val g := ⟨hkind, hruns, ⟨hreset, htouches⟩, ⟨hmissed, hbusy, hitems⟩, hselected, hready⟩
    refine ⟨_, rfl, stageItemStartEffect_chains hfound hstage hstarts hqueue wait waited, rfl, ?_⟩
    exact beq_iff_eq.mpr hkind
  · rintro s ref c g u d img ⟨hfound, hstage, hring⟩ ⟨hkind, htodo, hstopped, hwaiting⟩ ⟨hreads, hmx⟩
    refine ⟨_, rfl, ⟨?_, rfl⟩, fun k hk => ?_⟩
    · rw [runaheadResumeEffect_fetches hfound hstage hkind htodo hstopped hwaiting, State.fetchTile_of_done htodo hring hmx hreads]
      refine State.setChain_chains_congr ?_ _
      rw [(State.noteWalks_reach ..).same .chains rfl, (State.putSlot_reach ..).same .chains rfl, ← State.stageReads_done_chains hreads]
      split <;> rfl
    · rw [runaheadResumeEffect_fetches hfound hstage hkind htodo hstopped hwaiting, State.fetchTile_of_done htodo hring hmx hreads, State.setStageOf,
        State.setChain_rdByte, State.rdByte, (State.noteWalks_reach ..).same .mem rfl]
      exact State.putSlot_rdByte _ _ _ _ _ _ (List.mem_range.mp hk)

end Sys2Proof.Machine
end

section
/-!
SUPPORT. The statement about canonical form (spec/06_onchip_memory.md R285, spec/08_hbm_and_protection.md R377, R378,
spec/16_power_measurement_reset.md R775): every command and every cycle keeps to a footprint, and what keeps to a footprint keeps the form.
-/
namespace Sys2Proof.Machine

/-- Every command answers a next state within a footprint. -/
theorem exec_reach (c : Instr) (s : State) : ∃ F t, exec c s = .next t ∧ Reach F s t := by
  cases c with
  | pass => exact ⟨_, execPass_reach ..⟩
  | tileMark => exact ⟨_, execTileMark_reach ..⟩
  | passComplete => exact ⟨_, execPassComplete_reach ..⟩
  | stationaryLoadDone => exact ⟨_, execStationaryLoadDone_reach ..⟩
  | tileOverrun => exact ⟨_, execTileOverrun_reach ..⟩
  | arrayRampDown => exact ⟨_, execArrayRampDown_reach ..⟩
  | rampWindowStart => exact ⟨_, execRampWindowStart_reach ..⟩
  | rampUpEnd => exact ⟨_, execRampUpEnd_reach ..⟩
  | nop => exact ⟨_, execNop_reach ..⟩
  | add => exact ⟨_, execAdd_reach ..⟩
  | sub => exact ⟨_, execSub_reach ..⟩
  | mul => exact ⟨_, execMul_reach ..⟩
  | fma => exact ⟨_, execFma_reach ..⟩
  | max => exact ⟨_, execMax_reach ..⟩
  | min => exact ⟨_, execMin_reach ..⟩
  | abs => exact ⟨_, execAbs_reach ..⟩
  | neg => exact ⟨_, execNeg_reach ..⟩
  | copy => exact ⟨_, execCopy_reach ..⟩
  | rowsum => exact ⟨_, execRowsum_reach ..⟩
  | rowmax => exact ⟨_, execRowmax_reach ..⟩
  | rownorm => exact ⟨_, execRownorm_reach ..⟩
  | knorm => exact ⟨_, execKnorm_reach ..⟩
  | func => exact ⟨_, execFunc_reach ..⟩
  | deriv => exact ⟨_, execDeriv_reach ..⟩
  | smxUpdate => exact ⟨_, execSmxUpdate_reach ..⟩
  | smxProb => exact ⟨_, execSmxProb_reach ..⟩
  | rowScale => exact ⟨_, execRowScale_reach ..⟩
  | skipDecide => exact ⟨_, execSkipDecide_reach ..⟩
  | skipReplay => exact ⟨_, execSkipReplay_reach ..⟩
  | dropout => exact ⟨_, execDropout_reach ..⟩
  | randUniform => exact ⟨_, execRandUniform_reach ..⟩
  | flagsClear => exact ⟨_, execFlagsClear_reach ..⟩
  | flagsGet => exact ⟨_, execFlagsGet_reach ..⟩
  | galFlagEntryClear => exact ⟨_, execGalFlagEntryClear_reach ..⟩
  | predictorCommitLaunch => exact ⟨_, execPredictorCommitLaunch_reach ..⟩
  | checkpointRegeneration => exact ⟨_, execCheckpointRegeneration_reach ..⟩
  | clusterBankGrant => exact ⟨_, execClusterBankGrant_reach ..⟩
  | galleryBankGrant => exact ⟨_, execGalleryBankGrant_reach ..⟩
  | parityError => exact ⟨_, execParityError_reach ..⟩
  | rerunLaunch => exact ⟨_, execRerunLaunch_reach ..⟩
  | lineCrcFail => exact ⟨_, execLineCrcFail_reach ..⟩
  | lineRefetchDone => exact ⟨_, execLineRefetchDone_reach ..⟩
  | galRepairCmd => exact ⟨_, execGalRepairCmd_reach ..⟩
  | rowRepairRun => exact ⟨_, execRowRepairRun_reach ..⟩
  | stageChain => exact ⟨_, execStageChain_reach ..⟩
  | stageItemStart => exact ⟨_, execStageItemStart_reach ..⟩
  | slotFull => exact ⟨_, execSlotFull_reach ..⟩
  | slotEmpty => exact ⟨_, execSlotEmpty_reach ..⟩
  | tokenHandover => exact ⟨_, execTokenHandover_reach ..⟩
  | chainCommit => exact ⟨_, execChainCommit_reach ..⟩
  | nextChainLaunch => exact ⟨_, execNextChainLaunch_reach ..⟩
  | taskSwitch => exact ⟨_, execTaskSwitch_reach ..⟩
  | switchThresholdExpiry => exact ⟨_, execSwitchThresholdExpiry_reach ..⟩
  | chainStall => exact ⟨_, execChainStall_reach ..⟩
  | slotTimeout => exact ⟨_, execSlotTimeout_reach ..⟩
  | chainAbort => exact ⟨_, execChainAbort_reach ..⟩
  | runaheadResume => exact ⟨_, execRunaheadResume_reach ..⟩
  | hbmRead => exact ⟨_, execHbmRead_reach ..⟩
  | hbmWrite => exact ⟨_, execHbmWrite_reach ..⟩
  | correctionWriteback => exact ⟨_, execCorrectionWriteback_reach ..⟩
  | heldRequestEnter => exact ⟨_, execHeldRequestEnter_reach ..⟩
  | ecsCountRead => exact ⟨_, execEcsCountRead_reach ..⟩
  | stackTempRead => exact ⟨_, execStackTempRead_reach ..⟩
  | scrubStart => exact ⟨_, execScrubStart_reach ..⟩
  | scrubSectorRead => exact ⟨_, execScrubSectorRead_reach ..⟩
  | scrubComplete => exact ⟨_, execScrubComplete_reach ..⟩
  | calibrationRequest => exact ⟨_, execCalibrationRequest_reach ..⟩
  | selfTestRequest => exact ⟨_, execSelfTestRequest_reach ..⟩
  | refreshRateRequest => exact ⟨_, execRefreshRateRequest_reach ..⟩
  | maintRequestEntry => exact ⟨_, execMaintRequestEntry_reach ..⟩
  | maintAdmit => exact ⟨_, execMaintAdmit_reach ..⟩
  | calGroupOut => exact ⟨_, execCalGroupOut_reach ..⟩
  | calGroupReturn => exact ⟨_, execCalGroupReturn_reach ..⟩
  | calPeriodExpiry => exact ⟨_, execCalPeriodExpiry_reach ..⟩
  | selfTestDone => exact ⟨_, execSelfTestDone_reach ..⟩
  | frameRequest => exact ⟨_, execFrameRequest_reach ..⟩
  | frameRequestRetry => exact ⟨_, execFrameRequestRetry_reach ..⟩
  | poolWaitTimeout => exact ⟨_, execPoolWaitTimeout_reach ..⟩
  | moveSwitch => exact ⟨_, execMoveSwitch_reach ..⟩
  | move => exact ⟨_, execMove_reach ..⟩
  | pin => exact ⟨_, execPin_reach ..⟩
  | unpin => exact ⟨_, execUnpin_reach ..⟩
  | windowLift => exact ⟨_, execWindowLift_reach ..⟩
  | sectorRebuild => exact ⟨_, execSectorRebuild_reach ..⟩
  | rebuildTimeout => exact ⟨_, execRebuildTimeout_reach ..⟩
  | shelfUnreachable => exact ⟨_, execShelfUnreachable_reach ..⟩
  | swapInvocation => exact ⟨_, execSwapInvocation_reach ..⟩
  | flitTransmit => exact ⟨_, execFlitTransmit_reach ..⟩
  | dataFlitReceive => exact ⟨_, execDataFlitReceive_reach ..⟩
  | nak => exact ⟨_, execNak_reach ..⟩
  | retryTimerExpiry => exact ⟨_, execRetryTimerExpiry_reach ..⟩
  | linkEnable => exact ⟨_, execLinkEnable_reach ..⟩
  | signalDetect => exact ⟨_, execSignalDetect_reach ..⟩
  | signalLost => exact ⟨_, execSignalLost_reach ..⟩
  | phyTrainDone => exact ⟨_, execPhyTrainDone_reach ..⟩
  | phyTrainTimeout => exact ⟨_, execPhyTrainTimeout_reach ..⟩
  | capabilitySend => exact ⟨_, execCapabilitySend_reach ..⟩
  | capability => exact ⟨_, execCapability_reach ..⟩
  | echoRequest => exact ⟨_, execEchoRequest_reach ..⟩
  | echoRequestSend => exact ⟨_, execEchoRequestSend_reach ..⟩
  | echoReply => exact ⟨_, execEchoReply_reach ..⟩
  | recoveryDone => exact ⟨_, execRecoveryDone_reach ..⟩
  | linkRecoverTimeout => exact ⟨_, execLinkRecoverTimeout_reach ..⟩
  | put => exact ⟨_, execPut_reach ..⟩
  | getReq => exact ⟨_, execGetReq_reach ..⟩
  | getData => exact ⟨_, execGetData_reach ..⟩
  | accept => exact ⟨_, execAccept_reach ..⟩
  | refuse => exact ⟨_, execRefuse_reach ..⟩
  | landed => exact ⟨_, execLanded_reach ..⟩
  | reline => exact ⟨_, execReline_reach ..⟩
  | lost => exact ⟨_, execLost_reach ..⟩
  | rebuildReq => exact ⟨_, execRebuildReq_reach ..⟩
  | rebuildData => exact ⟨_, execRebuildData_reach ..⟩
  | msgResponseTimeout => exact ⟨_, execMsgResponseTimeout_reach ..⟩
  | ringSlotAccept => exact ⟨_, execRingSlotAccept_reach ..⟩
  | windowOpen => exact ⟨_, execWindowOpen_reach ..⟩
  | windowClose => exact ⟨_, execWindowClose_reach ..⟩
  | windowCloseRecord => exact ⟨_, execWindowCloseRecord_reach ..⟩
  | messageForward => exact ⟨_, execMessageForward_reach ..⟩
  | heldMessageRelease => exact ⟨_, execHeldMessageRelease_reach ..⟩
  | allReduce => exact ⟨_, execAllReduce_reach ..⟩
  | reduceScatter => exact ⟨_, execReduceScatter_reach ..⟩
  | allGather => exact ⟨_, execAllGather_reach ..⟩
  | allToAll => exact ⟨_, execAllToAll_reach ..⟩
  | permute => exact ⟨_, execPermute_reach ..⟩
  | broadcast => exact ⟨_, execBroadcast_reach ..⟩
  | ring => exact ⟨_, execRing_reach ..⟩
  | nfCheck => exact ⟨_, execNfCheck_reach ..⟩
  | collData => exact ⟨_, execCollData_reach ..⟩
  | collPrepass => exact ⟨_, execCollPrepass_reach ..⟩
  | ringBlock => exact ⟨_, execRingBlock_reach ..⟩
  | collAbort => exact ⟨_, execCollAbort_reach ..⟩
  | ringStepBoundary => exact ⟨_, execRingStepBoundary_reach ..⟩
  | collectiveCommit => exact ⟨_, execCollectiveCommit_reach ..⟩
  | collPeerTimeout => exact ⟨_, execCollPeerTimeout_reach ..⟩
  | groupEntryWrite => exact ⟨_, execGroupEntryWrite_reach ..⟩
  | collMemberGenSet => exact ⟨_, execCollMemberGenSet_reach ..⟩
  | flashBoundary => exact ⟨_, execFlashBoundary_reach ..⟩
  | nowRecordLive => exact ⟨_, execNowRecordLive_reach ..⟩
  | recordArm => exact ⟨_, execRecordArm_reach ..⟩
  | recordLaunch => exact ⟨_, execRecordLaunch_reach ..⟩
  | preemptionPoint => exact ⟨_, execPreemptionPoint_reach ..⟩
  | preemptSaveDone => exact ⟨_, execPreemptSaveDone_reach ..⟩
  | contextRestore => exact ⟨_, execContextRestore_reach ..⟩
  | quietWindowClose => exact ⟨_, execQuietWindowClose_reach ..⟩
  | recordEnd => exact ⟨_, execRecordEnd_reach ..⟩
  | cringRoom => exact ⟨_, execCringRoom_reach ..⟩
  | tokenSet => exact ⟨_, execTokenSet_reach ..⟩
  | tokenClear => exact ⟨_, execTokenClear_reach ..⟩
  | abortRecord => exact ⟨_, execAbortRecord_reach ..⟩
  | abortOwner => exact ⟨_, execAbortOwner_reach ..⟩
  | beamMarkSend => exact ⟨_, execBeamMarkSend_reach ..⟩
  | beamMark => exact ⟨_, execBeamMark_reach ..⟩
  | markLossTimeout => exact ⟨_, execMarkLossTimeout_reach ..⟩
  | beamHoldoverTimeout => exact ⟨_, execBeamHoldoverTimeout_reach ..⟩
  | daymarkTakeEffect => exact ⟨_, execDaymarkTakeEffect_reach ..⟩
  | pageCopyDone => exact ⟨_, execPageCopyDone_reach ..⟩
  | daymarkCommit => exact ⟨_, execDaymarkCommit_reach ..⟩
  | daymarkRestore => exact ⟨_, execDaymarkRestore_reach ..⟩
  | restoreEnd => exact ⟨_, execRestoreEnd_reach ..⟩
  | packageFailed => exact ⟨_, execPackageFailed_reach ..⟩
  | tableUpdate => exact ⟨_, execTableUpdate_reach ..⟩
  | criticalStateError => exact ⟨_, execCriticalStateError_reach ..⟩
  | readReq => exact ⟨_, execReadReq_reach ..⟩
  | readData => exact ⟨_, execReadData_reach ..⟩
  | write => exact ⟨_, execWrite_reach ..⟩
  | cfgRead => exact ⟨_, execCfgRead_reach ..⟩
  | cfgData => exact ⟨_, execCfgData_reach ..⟩
  | cfgWrite => exact ⟨_, execCfgWrite_reach ..⟩
  | post => exact ⟨_, execPost_reach ..⟩
  | event => exact ⟨_, execEvent_reach ..⟩
  | ucieRetrain port failed readers => exact ⟨_, execUcieRetrain_reach port failed readers s⟩
  | poolXlatInv => exact ⟨_, execPoolXlatInv_reach ..⟩
  | xlatInvDone => exact ⟨_, execXlatInvDone_reach ..⟩
  | apertureAccess => exact ⟨_, execApertureAccess_reach ..⟩
  | configViewAccess => exact ⟨_, execConfigViewAccess_reach ..⟩
  | hostWindowAccess => exact ⟨_, execHostWindowAccess_reach ..⟩
  | keepBootCmd => exact ⟨_, execKeepBootCmd_reach ..⟩
  | keepSwIrq => exact ⟨_, execKeepSwIrq_reach ..⟩
  | irqHoldoffExpiry => exact ⟨_, execIrqHoldoffExpiry_reach ..⟩
  | hcmdPoll => exact ⟨_, execHcmdPoll_reach ..⟩
  | perst => exact ⟨_, execPerst_reach ..⟩
  | functionLevelReset => exact ⟨_, execFunctionLevelReset_reach ..⟩
  | shelfRescan => exact ⟨_, execShelfRescan_reach ..⟩
  | read => exact ⟨_, execRead_reach ..⟩
  | dictWrite => exact ⟨_, execDictWrite_reach ..⟩
  | describe => exact ⟨_, execDescribe_reach ..⟩
  | dictLock => exact ⟨_, execDictLock_reach ..⟩
  | dictStore => exact ⟨_, execDictStore_reach ..⟩
  | resetRequest => exact ⟨_, execResetRequest_reach ..⟩
  | resetRequestDelayExpiry => exact ⟨_, execResetRequestDelayExpiry_reach ..⟩
  | powerMode => exact ⟨_, execPowerMode_reach ..⟩
  | subMode => exact ⟨_, execSubMode_reach ..⟩
  | modeChangeResume => exact ⟨_, execModeChangeResume_reach ..⟩
  | dictReq => exact ⟨_, execDictReq_reach ..⟩
  | dictRsp => exact ⟨_, execDictRsp_reach ..⟩
  | fog => exact ⟨_, execFog_reach ..⟩
  | reset => exact ⟨_, execReset_reach ..⟩
  | coarseBeam => exact ⟨_, execCoarseBeam_reach ..⟩
  | presence => exact ⟨_, execPresence_reach ..⟩
  | presenceSend => exact ⟨_, execPresenceSend_reach ..⟩
  | coarseBeamSend => exact ⟨_, execCoarseBeamSend_reach ..⟩
  | fogSend => exact ⟨_, execFogSend_reach ..⟩
  | railOutOfWindow => exact ⟨_, execRailOutOfWindow_reach ..⟩
  | porN => exact ⟨_, execPorN_reach ..⟩
  | releaseStep => exact ⟨_, execReleaseStep_reach ..⟩
  | fabricTrainTimeout => exact ⟨_, execFabricTrainTimeout_reach ..⟩
  | governorInterval => exact ⟨_, execGovernorInterval_reach ..⟩
  | droopDetect => exact ⟨_, execDroopDetect_reach ..⟩
  | hbmRamp => exact ⟨_, execHbmRamp_reach ..⟩
  | tempSample => exact ⟨_, execTempSample_reach ..⟩
  | thermalRelease => exact ⟨_, execThermalRelease_reach ..⟩
  | watchdogExpiry => exact ⟨_, execWatchdogExpiry_reach ..⟩
  | rstBlockCmd => exact ⟨_, execRstBlockCmd_reach ..⟩
  | blockResetExecute => exact ⟨_, execBlockResetExecute_reach ..⟩
  | blockResetRelease => exact ⟨_, execBlockResetRelease_reach ..⟩
  | fwUpdate => exact ⟨_, execFwUpdate_reach ..⟩
  | fwVerifyDone => exact ⟨_, execFwVerifyDone_reach ..⟩
  | svnCommit => exact ⟨_, execSvnCommit_reach ..⟩
  | debugChallenge => exact ⟨_, execDebugChallenge_reach ..⟩
  | debugUnlock => exact ⟨_, execDebugUnlock_reach ..⟩
  | spdmRequest => exact ⟨_, execSpdmRequest_reach ..⟩
  | traceSinkWrite => exact ⟨_, execTraceSinkWrite_reach ..⟩
  | registerWrite => exact ⟨_, execRegisterWrite_reach ..⟩
  | nullFlit => exact ⟨_, execNullFlit_reach ..⟩
  | windowLiftComplete => exact ⟨_, execWindowLiftComplete_reach ..⟩
  | gallerySetLoadDone => exact ⟨_, execGallerySetLoadDone_reach ..⟩
  | ucieRetrainDone => exact ⟨_, execUcieRetrainDone_reach ..⟩

/-- A step, of the command at the front of the queue or of a cycle, keeps to a footprint of the state with the queue's rest. -/
theorem step_reach {s t : State} (h : step s = .next t) : ∃ F, Reach F { s with pending := s.pending.tail } t := by
  cases hqueue : s.pending with
  | nil =>
    have htick : t = s.tick := by simpa [step, hqueue] using h.symm
    have hsame : { s with pending := [] } = s := by rw [← hqueue]
    rw [List.tail_nil, hsame, htick]
    exact ⟨_, s.tick_reach⟩
  | cons c rest =>
    obtain ⟨F, u, hexec, hreach⟩ := exec_reach c { s with pending := rest }
    obtain rfl : u = t := Host.Outcome.next.inj (hexec.symm.trans (by simpa only [step, hqueue] using h))
    exact ⟨F, hreach⟩

/-- Settles O5: canonical form is part of what every footprint keeps, and every step keeps to one. -/
theorem soundStatesStaySound : Obligations.SoundStatesStaySound := by
  intro s t hsound hstep
  obtain ⟨F, hreach⟩ := step_reach hstep
  exact ⟨hreach.mem hsound.mem, hreach.lens hsound.lens, hreach.delta hsound.delta⟩

end Sys2Proof.Machine
end

section
/-!
SUPPORT. The statement about HBM reads and writes (spec/08_hbm_and_protection.md R374 to R385, R449): how a request joins its queue, and what the
controllers leave of a sector that they serve.
-/
namespace Sys2Proof.Machine

/-! ## Queues (R383 to R385) -/

@[simp] theorem State.chan_setChan_self (s : State) (ctl pc : Nat) (c : PseudoChannel) : (s.setChan ctl pc c).chan ctl pc = c :=
  lookupD_putD_self ..

theorem Reach.chan_eq {F : Nat} {s t : State} (h : Reach F s t) (m : F.testBit 11 = false) (ctl pc : Nat) : t.chan ctl pc = s.chan ctl pc :=
  congrArg (fun x : Hbm => lookupD ({} : PseudoChannel) (ctl * 32 + pc) x.chans) (h.same .hbm m)

theorem State.enterAll_of_held_nil {c : PseudoChannel} (h : c.held = []) (s : State) (ctl : Nat) : s.enterAll ctl c = c := by
  simp [State.enterAll, h]

/-- R383, R384: a read that fits joins its queue, with nothing held and its channel group in service. -/
theorem State.hbmArrive_read {s : State} {r : HbmReq} {p : Nat × Nat} (hplace : hbmPlace s.harbour r.addr = p) (hread : r.write = false)
    (hheld : (s.chan p.1 p.2).held = []) (hgroup : s.groupOut (p.1 / 4) (hbmGroup s.harbour r.addr) = false)
    (hfits : hbmFits s.harbour (s.chan p.1 p.2).queue r = true) :
    s.hbmArrive r = s.setChan p.1 p.2 { s.chan p.1 p.2 with queue := (s.chan p.1 p.2).queue ++ [r] } := by
  simp only [State.hbmArrive, hplace, hread, Bool.false_eq_true, if_false, State.enterAll_of_held_nil hheld, hheld, List.any_nil, hgroup, hfits,
    Bool.not_false, Bool.and_self, if_true]

/-- R384: the first held request that fits, its group in service, goes to the end of the queue. -/
theorem State.enterHeld_of_fits {s : State} {c : PseudoChannel} {ctl : Nat} {r : HbmReq} {rs : List HbmReq} (hheld : c.held = r :: rs)
    (hfits : hbmFits s.harbour c.queue r = true) (hgroup : s.groupOut (ctl / 4) (hbmGroup s.harbour r.addr) = false) :
    s.enterHeld ctl c = { c with queue := c.queue ++ [r], held := rs } := by
  simp [State.enterHeld, hheld, hbmEnterHeld, hfits, hgroup]

@[simp] theorem State.disturb_zero (s : State) (pa : Nat) : s.disturb pa 0#256 0#16 = s := if_pos ⟨rfl, rfl⟩

/-- R385: the request whose turn it is is served, taken from its queue. -/
theorem State.serveNext_of_pick {s : State} {pa : Nat} {p : Nat × Nat} {ready : BitVec 64} {r : HbmReq} {ch : PseudoChannel}
    {mine : HbmReq → Bool} (hplace : hbmPlace s.harbour pa = p) (hpick : s.hbmPick p.1 p.2 ready = some (r, ch)) (haddr : r.addr = pa)
    (hmine : mine r = true) (severity : Bool) :
    s.serveNext pa ready severity mine 0#256 0#16 = (s.setChan p.1 p.2 ch).serveHbm p.1 r severity := by
  simp only [State.serveNext, hplace, hpick, haddr, hmine, beq_self_eq_true, Bool.and_self, if_true, State.disturb_zero]

/-! ## Reading a sector (R374 to R381) -/

theorem State.countSector_rd_sectorCnt (s : State) (ctl : Nat) :
    (s.countSector ctl).rd .ctrStackSectorCnt (ctl / 4) (ctl % 4) = s.rd .ctrStackSectorCnt (ctl / 4) (ctl % 4) + 1#64 :=
  State.rd_bump_self ..

theorem State.readSector_clean {s : State} {pa : Nat} (hdelta : s.deltaAt pa = 0#16) (hsev : s.hbm.sevBad.contains (pa / 32) = false)
    (ctl owner : Nat) : s.readSector ctl pa owner false = (s.countSector ctl, .clean) := by
  have hbase : pa / 32 * 32 / 32 = pa / 32 := Nat.mul_div_cancel _ (by decide)
  have hdec : decodeDelta ((s.countSector ctl).deltaAt (pa / 32 * 32)) = .clean := by
    rw [State.deltaAt, hbase]
    exact (congrArg decodeDelta hdelta).trans (by decide)
  have hgood : (s.countSector ctl).hbm.sevBad.contains (pa / 32) = false := hsev
  simp only [State.readSector, State.noteSector, hbase, hgood, hdec, Bool.or_self, Bool.false_eq_true, if_false]

section
variable {s : State} {pa : Nat} (hpa : pa / 32 * 32 = pa)
include hpa

theorem State.readSector_corrected {j x : Nat} (hdelta : decodeDelta (s.deltaAt pa) = .corrected j x)
    (hsev : s.hbm.sevBad.contains (pa / 32) = false) (ctl owner : Nat) :
    s.readSector ctl pa owner false = ((s.countSector ctl).bump .hbmcCeCnt ctl 0 1, .corrected j x) := by
  have hdec : decodeDelta ((s.countSector ctl).deltaAt pa) = .corrected j x := hdelta
  have hgood : (s.countSector ctl).hbm.sevBad.contains (pa / 32) = false := hsev
  simp only [State.readSector, State.noteSector, hpa, hgood, hdec, Bool.or_self, Bool.false_eq_true, if_false]

/-- R381: an uncorrectable sector is counted and posted, whether or not a severity report has called it so before. -/
theorem State.readSector_uncorrectable (hdelta : decodeDelta (s.deltaAt pa) = .uncorrectable) (ctl owner : Nat) :
    ∃ t, s.readSector ctl pa owner false = (t, .uncorrectable) ∧ t.rd .hbmcUeCnt ctl 0 = s.rd .hbmcUeCnt ctl 0 + 1#64 ∧
      t.pool.uePosts = s.pool.uePosts ++ [pa] := by
  have hdec : decodeDelta ((s.countSector ctl).deltaAt pa) = .uncorrectable := hdelta
  have hposted : ∀ (u : State) (sev : Bool), u.pool = s.pool → u.rd .hbmcUeCnt ctl 0 = s.rd .hbmcUeCnt ctl 0 →
      ((((u.bump .hbmcUeCnt ctl 0 1).logUe ctl pa owner sev false).postUe pa).rd .hbmcUeCnt ctl 0 = s.rd .hbmcUeCnt ctl 0 + 1#64) ∧
      (((u.bump .hbmcUeCnt ctl 0 1).logUe ctl pa owner sev false).postUe pa).pool.uePosts = s.pool.uePosts ++ [pa] := by
    intro u sev hpool hcnt
    have hlog := State.logUe_reach (u.bump .hbmcUeCnt ctl 0 1) ctl pa owner sev false
    refine ⟨?_, ?_⟩
    · rw [(State.postUe_reach ..).rd_eq _ rfl, hlog.rd_eq _ rfl, State.rd_bump_self, hcnt]
    · rw [State.postUe, hlog.same .pool rfl, State.bump_pool, hpool]
  have hcounted : (s.countSector ctl).rd .hbmcUeCnt ctl 0 = s.rd .hbmcUeCnt ctl 0 := (s.countSector_reach ctl).rd_eq _ rfl ..
  simp only [State.readSector, State.noteSector, hpa, Bool.false_or, hdec]
  split
  · refine ⟨_, rfl, hposted _ true rfl ?_⟩
    rw [State.rd_bump_ne (by decide)]
    exact hcounted
  · exact ⟨_, rfl, hposted _ false rfl hcounted⟩

end

/-! ## Serving a read (R379, R381, R449) -/

/-- The bits of a sector as a controller delivers them. -/
abbrev State.sectorData (s : State) (pa : Nat) : BitVec 256 := BitVec.ofNat 256 (natOfBytes (s.memBytes pa 32))

/-- A controller's delivery, with the last use of the frame that it reads. -/
def State.deliverSector (s : State) (ctl : Nat) (d : Delivered) : State :=
  let s := s.touchRead d.addr
  { s with hbm := { s.hbm with out := putD {} ctl d s.hbm.out } }

@[simp] theorem State.deliverSector_out (s : State) (ctl : Nat) (d : Delivered) : lookupD ({} : Delivered) ctl (s.deliverSector ctl d).hbm.out = d :=
  lookupD_putD_self ..

theorem State.deliverSector_reach (s : State) (ctl : Nat) (d : Delivered) : Reach 0x1800 s (s.deliverSector ctl d) :=
  ((Reach.refl _ s).then (State.touchRead_reach ..) rfl).set_hbm rfl

@[simp] theorem State.deliverSector_chan (s : State) (ctl : Nat) (d : Delivered) (c pc : Nat) : (s.deliverSector ctl d).chan c pc = s.chan c pc :=
  (State.touchRead_reach ..).chan_eq rfl c pc

@[simp] theorem State.deliverSector_uePosts (s : State) (ctl : Nat) (d : Delivered) : (s.deliverSector ctl d).pool.uePosts = s.pool.uePosts := by
  show (s.touchRead d.addr).pool.uePosts = _
  unfold State.touchRead
  dsimp only
  split <;> rfl

/-- R379: the write-back of a corrected sector joins the queue, unless one of it is queued. -/
theorem State.queueWriteback_of_none {s : State} {pa : Nat} {p : Nat × Nat} (hpa : pa / 32 * 32 = pa) (hplace : hbmPlace s.harbour pa = p)
    (hnone : ((s.chan p.1 p.2).queue.any fun r => r.wb && r.addr == pa) = false) (owner : Nat) :
    s.queueWriteback pa owner = s.setChan p.1 p.2 { s.chan p.1 p.2 with queue := (s.chan p.1 p.2).queue ++
      [{ addr := pa, write := true, wb := true, data := s.sectorData pa, mask := BitVec.allOnes 32, owner := owner }] } := by
  simp only [State.queueWriteback, hpa, hplace, hnone, Bool.false_eq_true, if_false]

section
variable {s : State} {r : HbmReq} {pa : Nat} (hread : r.write = false) (hwb : r.wb = false) (haddr : r.addr = pa) (hpa : pa / 32 * 32 = pa)
include hread hwb haddr hpa

/-- R374: a clean sector is delivered as it is stored, and counts. -/
theorem State.serveHbm_clean (hdelta : s.deltaAt pa = 0#16) (hsev : s.hbm.sevBad.contains (pa / 32) = false) (ctl : Nat) :
    let t := s.serveHbm ctl r false
    lookupD ({} : Delivered) ctl t.hbm.out =
      { addr := pa, data := s.sectorData pa, poison := (s.frame (pa / 65536)).quarantined, owner := r.owner } ∧
    t.rd .ctrStackSectorCnt (ctl / 4) (ctl % 4) = s.rd .ctrStackSectorCnt (ctl / 4) (ctl % 4) + 1#64 ∧
    t.mem = s.mem ∧ ∀ c pc, t.chan c pc = s.chan c pc := by
  have hserve : s.serveHbm ctl r false = (s.countSector ctl).deliverSector ctl
      { addr := pa, data := s.sectorData pa, poison := (s.frame (pa / 65536)).quarantined, owner := r.owner } := by
    simp only [State.serveHbm, hwb, hread, haddr, hpa, State.readSector_clean hdelta hsev, Bool.false_eq_true, if_false]
    rfl
  have hdeliver := (s.countSector ctl).deliverSector_reach ctl
      { addr := pa, data := s.sectorData pa, poison := (s.frame (pa / 65536)).quarantined, owner := r.owner }
  rw [hserve]
  exact ⟨State.deliverSector_out .., (hdeliver.rd_eq _ rfl ..).trans (State.countSector_rd_sectorCnt ..), hdeliver.same .mem rfl,
    State.deliverSector_chan _ _ _⟩

/-- R379: a correctable sector is delivered corrected and counted, and its write-back queued. -/
theorem State.serveHbm_corrected {j x : Nat} {p : Nat × Nat} (hdelta : decodeDelta (s.deltaAt pa) = .corrected j x)
    (hsev : s.hbm.sevBad.contains (pa / 32) = false) (hplace : hbmPlace s.harbour pa = p)
    (hnone : ((s.chan p.1 p.2).queue.any fun q => q.wb && q.addr == pa) = false) :
    let t := s.serveHbm p.1 r false
    lookupD ({} : Delivered) p.1 t.hbm.out =
      { addr := pa, data := s.sectorData pa, poison := (s.frame (pa / 65536)).quarantined, owner := r.owner } ∧
    t.rd .hbmcCeCnt p.1 0 = s.rd .hbmcCeCnt p.1 0 + 1#64 ∧ t.mem = s.mem ∧
    t.chan p.1 p.2 = { s.chan p.1 p.2 with queue := (s.chan p.1 p.2).queue ++
      [{ addr := pa, write := true, wb := true, data := s.sectorData pa, mask := BitVec.allOnes 32, owner := r.owner }] } := by
  have hserve : s.serveHbm p.1 r false = (((s.countSector p.1).bump .hbmcCeCnt p.1 0 1).queueWriteback pa r.owner).deliverSector p.1
      { addr := pa, data := s.sectorData pa, poison := (s.frame (pa / 65536)).quarantined, owner := r.owner } := by
    simp only [State.serveHbm, hwb, hread, haddr, hpa, State.readSector_corrected hpa hdelta hsev, Bool.false_eq_true, if_false]
    rfl
  generalize hcounted : (s.countSector p.1).bump .hbmcCeCnt p.1 0 1 = counted at hserve
  have hqueue := counted.queueWriteback_reach pa r.owner
  have hdeliver := (counted.queueWriteback pa r.owner).deliverSector_reach p.1
      { addr := pa, data := s.sectorData pa, poison := (s.frame (pa / 65536)).quarantined, owner := r.owner }
  have hharbour : counted.harbour = s.harbour := by
    rw [← hcounted]
    exact congrArg (· == 2) ((State.fld_bump_ne (by decide) ..).trans ((State.countSector_reach ..).fld_eq pwrStatusMode rfl 0 0))
  rw [hserve]
  refine ⟨State.deliverSector_out .., ?_, ?_, ?_⟩
  · rw [hdeliver.rd_eq _ rfl, hqueue.rd_eq _ rfl, ← hcounted, State.rd_bump_self, (State.countSector_reach ..).rd_eq _ rfl]
  · rw [hdeliver.same .mem rfl, hqueue.same .mem rfl, ← hcounted]
    rfl
  · rw [State.deliverSector_chan, State.queueWriteback_of_none hpa (hharbour ▸ hplace) (by rw [← hcounted]; exact hnone),
      State.chan_setChan_self, ← hcounted]
    rfl

/-- R381: an uncorrectable sector is delivered poisoned, counted and posted. -/
theorem State.serveHbm_uncorrectable (hdelta : decodeDelta (s.deltaAt pa) = .uncorrectable) (ctl : Nat) :
    let t := s.serveHbm ctl r false
    (lookupD ({} : Delivered) ctl t.hbm.out).poison = true ∧ t.rd .hbmcUeCnt ctl 0 = s.rd .hbmcUeCnt ctl 0 + 1#64 ∧
    t.pool.uePosts = s.pool.uePosts ++ [pa] ∧ t.mem = s.mem := by
  obtain ⟨u, hnote, hcnt, hposts⟩ := State.readSector_uncorrectable hpa hdelta ctl r.owner
  have hserve : s.serveHbm ctl r false = u.deliverSector ctl { addr := pa, data := u.sectorData pa, poison := true, owner := r.owner } := by
    simp only [State.serveHbm, hwb, hread, haddr, hpa, hnote, Bool.false_eq_true, if_false]
    rfl
  have hdeliver := u.deliverSector_reach ctl { addr := pa, data := u.sectorData pa, poison := true, owner := r.owner }
  have hreads := (s.readSector_reach ctl pa r.owner false).fst
  rw [hnote] at hreads
  rw [hserve]
  refine ⟨?_, (hdeliver.rd_eq _ rfl ..).trans hcnt, ?_, (hdeliver.same .mem rfl).trans (hreads.same .mem rfl)⟩
  · rw [State.deliverSector_out]
  · rw [State.deliverSector_uePosts, hposts]

end

/-! ## Storing a sector (R377, R379) -/

/-- A whole sector written: what its bytes, its check symbols and the queues then hold, and every byte outside it as before. -/
structure SectorStored (s t : State) (pa : Nat) (bs : List Byte) : Prop where
  bytes : t.memBytes pa 32 = bs
  delta : t.deltaAt pa = 0#16
  chan : ∀ ctl pc, t.chan ctl pc =
    { s.chan ctl pc with queue := (s.chan ctl pc).queue.filter fun r : HbmReq => !(r.wb && r.addr / 32 == pa / 32) }
  rdByte : ∀ a, a < pa ∨ pa + 32 ≤ a → t.rdByte a = s.rdByte a
  deltaAt : ∀ a, a / 32 ≠ pa / 32 → t.deltaAt a = s.deltaAt a

/-- R379: the write-backs of a sector leave every queue. -/
theorem State.dropWritebacks_chan (s : State) (k ctl pc : Nat) : (s.dropWritebacks k 1).chan ctl pc =
    { s.chan ctl pc with queue := (s.chan ctl pc).queue.filter fun r : HbmReq => !(r.wb && r.addr / 32 == k) } := by
  have hsame : ∀ r : HbmReq, (r.wb && decide (k ≤ r.addr / 32) && decide (r.addr / 32 < k + 1)) = (r.wb && r.addr / 32 == k) := by
    intro r
    rw [Bool.and_assoc, ← Bool.decide_and, beq_eq_decide]
    congr 2
    exact propext (by omega)
  simp only [State.chan, State.dropWritebacks, hsame]
  induction s.hbm.chans with
  | nil => rfl
  | cons p l ih =>
    simp only [List.map_cons, lookupD]
    split
    · rfl
    · exact ih

theorem State.mergeEnds_sector (s : State) (k : Nat) : s.mergeEnds (k * 32) 32 = s := by
  have hlo : k * 32 % 32 = 0 := Nat.mul_mod_left ..
  have hhi : (k * 32 + 32) % 32 = 0 := by omega
  rw [State.mergeEnds, if_pos hlo, if_pos hhi]

theorem State.putRaw_sector {s : State} {pa : Nat} {bs : List Byte} (hpa : pa / 32 * 32 = pa) (hbs : bs.length = 32) :
    SectorStored s (s.putRaw pa bs) pa bs := by
  have hmerge : s.mergeEnds pa bs.length = s := by rw [hbs, ← hpa, State.mergeEnds_sector]
  have hone : (pa + bs.length + 31) / 32 - pa / 32 = 1 := by omega
  have hmem : (s.putRaw pa bs).mem = putRun 0#8 pa bs s.mem := by
    show putRun 0#8 pa bs (s.mergeEnds pa bs.length).mem = _
    rw [hmerge]
  have hdelta : (s.putRaw pa bs).hbmDelta = clearRange (pa / 32) 1 s.hbmDelta := by
    show clearRange ((pa + 31) / 32) ((pa + bs.length) / 32 - (pa + 31) / 32) (s.mergeEnds pa bs.length).hbmDelta = _
    rw [hmerge, show (pa + 31) / 32 = pa / 32 by omega, show (pa + bs.length) / 32 - pa / 32 = 1 by omega]
  have hlook : ∀ a, (s.putRaw pa bs).deltaAt a = if a / 32 = pa / 32 then 0#16 else s.deltaAt a := by
    intro a
    rw [State.deltaAt, hdelta, clearRange, lookupD_filter 0#16 fun k => decide (k < pa / 32) || decide (pa / 32 + 1 ≤ k)]
    by_cases hsame : a / 32 = pa / 32
    · simp [hsame]
    · rw [if_pos (by simp only [Bool.or_eq_true, decide_eq_true_eq]; omega), if_neg hsame, State.deltaAt]
  refine ⟨?_, ?_, ?_, ?_, ?_⟩
  · refine List.ext_getElem (by simp [State.memBytes, hbs]) fun i _ hi => ?_
    simp only [State.memBytes, List.getElem_map, List.getElem_range]
    exact State.memByte_putRaw_in s pa bs hi
  · rw [hlook, if_pos rfl]
  · intro ctl pc
    show ((s.mergeEnds pa bs.length).dropWritebacks (pa / 32) ((pa + bs.length + 31) / 32 - pa / 32)).chan ctl pc = _
    rw [hmerge, hone, State.dropWritebacks_chan]
  · intro a ha
    rw [State.rdByte, hmem, lookupD_putRun_out _ _ _ _ (by omega), State.rdByte]
  · intro a ha
    rw [hlook, if_neg ha]

/-- What a store is followed by leaves memory, the check symbols and the queues. -/
theorem SectorStored.then {F : Nat} {s t u : State} {pa : Nat} {bs : List Byte} (h : SectorStored s t pa bs) (k : Reach F t u)
    (hmem : F.testBit 0 = false) (hdelta : F.testBit 3 = false) (hhbm : F.testBit 11 = false) : SectorStored s u pa bs := by
  have hbyte : ∀ a, u.rdByte a = t.rdByte a := fun a => congrArg (lookupD 0#8 a) (k.same .mem hmem)
  have hat : ∀ a, u.deltaAt a = t.deltaAt a := fun a => congrArg (lookupD 0#16 (a / 32)) (k.same .hbmDelta hdelta)
  refine ⟨?_, (hat pa).trans h.delta, fun ctl pc => (k.chan_eq hhbm ctl pc).trans (h.chan ctl pc), fun a ha => (hbyte a).trans (h.rdByte a ha),
    fun a ha => (hat a).trans (h.deltaAt a ha)⟩
  rw [← h.bytes, State.memBytes, State.memBytes]
  exact List.map_congr_left fun i _ => State.memByte_congr (hat _) fun b _ => hbyte b

theorem SectorStored.bump {s t : State} {pa : Nat} {bs : List Byte} (h : SectorStored s t pa bs) (q : Reg) (u i n : Nat) :
    SectorStored s (t.bump q u i n) pa bs := ⟨h.bytes, h.delta, h.chan, h.rdByte, h.deltaAt⟩

theorem SectorStored.of_bump {s t : State} {pa : Nat} {bs : List Byte} {q : Reg} {u i n : Nat} (h : SectorStored (s.bump q u i n) t pa bs) :
    SectorStored s t pa bs := ⟨h.bytes, h.delta, h.chan, h.rdByte, h.deltaAt⟩

theorem State.putMem_sector {s : State} {pa : Nat} {bs : List Byte} (hpa : pa / 32 * 32 = pa) (hbs : bs.length = 32) :
    SectorStored s (s.putMem pa bs) pa bs := by
  have hne : bs ≠ [] := List.ne_nil_of_length_pos (by omega)
  rw [State.putMem, if_neg hne]
  exact ((State.putRaw_sector hpa hbs).then (State.touchWrite_reach ..) rfl rfl rfl).then (State.touchTable_reach ..) rfl rfl rfl

theorem length_maskedBytes (data : BitVec 256) (mask : BitVec 32) : (maskedBytes data mask).length = 32 := by
  simp [maskedBytes]

section
variable {s : State} {r : HbmReq} {pa : Nat} (hpa : pa / 32 * 32 = pa) (haddr : r.addr = pa)
include hpa haddr

/-- R379: a write-back stores the sector as it holds it, and counts. -/
theorem State.serveHbm_writeback (hwb : r.wb = true) (ctl : Nat) (severity : Bool) :
    SectorStored s (s.serveHbm ctl r severity) pa (bytesOf r.data.toNat 32) ∧
      (s.serveHbm ctl r severity).rd .hbmcWritebackCnt ctl 0 = s.rd .hbmcWritebackCnt ctl 0 + 1#64 := by
  have hserve : s.serveHbm ctl r severity = ((s.putRaw pa (bytesOf r.data.toNat 32)).countSector ctl).bump .hbmcWritebackCnt ctl 0 1 := by
    simp only [State.serveHbm, hwb, haddr, hpa, if_true]
  rw [hserve]
  refine ⟨((State.putRaw_sector hpa (length_bytesOf ..)).bump ..).bump .., ?_⟩
  rw [State.rd_bump_self, (State.countSector_reach ..).rd_eq _ rfl, (State.putRaw_reach ..).rd_eq _ rfl]

/-- R377: a write to a page that no daymark protects stores the enabled bytes of its sector, zero in the others. -/
theorem State.serveHbm_write (hwrite : r.write = true) (hwb : r.wb = false) (hprot : (s.frame (pa / 65536)).prot = false) (ctl : Nat)
    (severity : Bool) : SectorStored s (s.serveHbm ctl r severity) pa (maskedBytes r.data r.mask) := by
  have hstored : ∀ u : State, u.pool = s.pool → SectorStored (u.countSector ctl) (if ((u.countSector ctl).frame (pa / 65536)).prot then
      { u.countSector ctl with heldWrites := (u.countSector ctl).heldWrites ++
        [{ addr := pa, bytes := maskedBytes r.data r.mask, by_ := { unit := .hbm ctl, owner := r.owner } }] }
      else (u.countSector ctl).putMem pa (maskedBytes r.data r.mask)) pa (maskedBytes r.data r.mask) := by
    intro u hpool
    have hfree : ((u.countSector ctl).frame (pa / 65536)).prot = false := by
      rw [← hprot]
      exact congrArg (fun x : Pool => (lookupD ({} : FrameRec) (pa / 65536) x.frames).prot) hpool
    rw [hfree, if_neg Bool.false_ne_true]
    exact State.putMem_sector hpa (length_maskedBytes ..)
  simp only [State.serveHbm, hwb, hwrite, haddr, hpa, Bool.false_eq_true, if_false, if_true]
  split
  · exact (hstored s rfl).of_bump
  · exact (hstored (s.bump _ _ _ _) rfl).of_bump.of_bump

end

/-! ## The statement about HBM reads and writes (O25) -/

/-- The start of a sector is a multiple of its length. -/
theorem sector_aligned (n : Nat) : n / 32 * 32 / 32 * 32 = n / 32 * 32 := by omega

/-- R384: a read of HBM arrives. -/
theorem hbmReadEffect_arrive {s : State} {addr : BitVec 48} {pa : Nat} (hpa : addr.toNat / 32 * 32 = pa) (hhbm : s.isHbm pa = true)
    (owner port : BitVec 6) : hbmReadEffect addr owner port .arrive s =
      s.hbmArrive { addr := pa, write := false, owner := owner.toNat, port := port.toNat } := by
  simp only [hbmReadEffect, hpa, hhbm, Bool.not_true, Bool.false_eq_true, if_false]

/-- R374: a read that the controller picks is served. -/
theorem hbmReadEffect_serve {s : State} {addr : BitVec 48} {owner : BitVec 6} {pa : Nat} {p : Nat × Nat} {ready : BitVec 64} {r : HbmReq}
    {ch : PseudoChannel} (hpa : addr.toNat / 32 * 32 = pa) (hplace : hbmPlace s.harbour pa = p) (hhbm : s.isHbm pa = true)
    (hpick : s.hbmPick p.1 p.2 ready = some (r, ch)) (hread : r.write = false) (haddr : r.addr = pa) (howner : r.owner = owner.toNat)
    (port : BitVec 6) : hbmReadEffect addr owner port (.serve ready 0#256 0#16 false) s = (s.setChan p.1 p.2 ch).serveHbm p.1 r false := by
  simp only [hbmReadEffect, hpa, hhbm, Bool.not_true, Bool.false_eq_true, if_false]
  exact State.serveNext_of_pick hplace hpick haddr (by simp [hread, howner]) false

/-- R377: a write that the controller picks is served. -/
theorem hbmWriteEffect_serve {s : State} {addr : BitVec 48} {owner : BitVec 6} {pa : Nat} {p : Nat × Nat} {ready : BitVec 64} {r : HbmReq}
    {ch : PseudoChannel} (hpa : addr.toNat / 32 * 32 = pa) (hplace : hbmPlace s.harbour pa = p) (hhbm : s.isHbm pa = true)
    (hpick : s.hbmPick p.1 p.2 ready = some (r, ch)) (hwrite : r.write = true) (hwb : r.wb = false) (haddr : r.addr = pa)
    (howner : r.owner = owner.toNat) (port : BitVec 6) (data : BitVec 256) (mask : BitVec 32) (noise : BitVec 256) (checkNoise : BitVec 16) :
    hbmWriteEffect addr owner port data mask (.serve ready noise checkNoise false) s = (s.setChan p.1 p.2 ch).serveHbm p.1 r false := by
  simp only [hbmWriteEffect, hpa, hhbm, Bool.not_true, Bool.false_eq_true, if_false]
  exact State.serveNext_of_pick hplace hpick haddr (by simp [hwrite, hwb, howner]) false

/-- R379, R385: a write-back that the controller picks is served. -/
theorem correctionWritebackEffect_serve {s : State} {addr : BitVec 48} {pa : Nat} {p : Nat × Nat} {ready : BitVec 64} {r : HbmReq}
    {ch : PseudoChannel} (hpa : addr.toNat / 32 * 32 = pa) (hplace : hbmPlace s.harbour pa = p) (hhbm : s.isHbm pa = true)
    (hpick : s.hbmPick p.1 p.2 ready = some (r, ch)) (hwb : r.wb = true) (haddr : r.addr = pa) :
    correctionWritebackEffect { addr := addr, ready := ready } s = (s.setChan p.1 p.2 ch).serveHbm p.1 r false := by
  simp only [correctionWritebackEffect, hpa, hhbm, Bool.not_true, Bool.false_eq_true, if_false]
  exact State.serveNext_of_pick hplace hpick haddr hwb false

/-- Settles O25: a request that fits joins its queue; each command that finds its request picked serves it, and what is served is read or
stored by what its sector holds. -/
theorem hbmReadsAndWrites : Obligations.HbmReadsAndWrites := by
  refine ⟨?_, ?_, ?_, ?_, ?_, ?_, ?_⟩
  · rintro s addr owner port pa p r ⟨hhbm, hheld, hgroup⟩ hfits
    refine ⟨_, congrArg Host.Outcome.next ((hbmReadEffect_arrive rfl hhbm owner port).trans
      (State.hbmArrive_read (r := r) (p := p) rfl rfl hheld hgroup hfits)), ?_⟩
    exact congrArg PseudoChannel.queue (State.chan_setChan_self ..)
  · rintro s addr owner port ready r ch pa p ⟨hhbm, hpick, hread, hwb, haddr, howner⟩ ⟨hdelta, hsev⟩
    obtain ⟨hout, hcnt, hmem, hchan⟩ := State.serveHbm_clean (s := s.setChan p.1 p.2 ch) hread hwb haddr (sector_aligned _) hdelta hsev p.1
    refine ⟨_, congrArg Host.Outcome.next (hbmReadEffect_serve (p := p) rfl rfl hhbm hpick hread haddr howner port), ?_, hcnt, hmem, ?_⟩
    · rw [hout, howner]
      rfl
    · rw [hchan, State.chan_setChan_self]
  · rintro s addr owner port ready r ch j x pa p wb ⟨hhbm, hpick, hread, hwb, haddr, howner⟩ ⟨hdelta, hsev⟩ hnone
    obtain ⟨hout, hcnt, hmem, hchan⟩ := State.serveHbm_corrected (s := s.setChan p.1 p.2 ch) (p := p) hread hwb haddr (sector_aligned _)
      hdelta hsev rfl (by rw [State.chan_setChan_self]; exact hnone)
    refine ⟨_, congrArg Host.Outcome.next (hbmReadEffect_serve (p := p) rfl rfl hhbm hpick hread haddr howner port), ?_, hcnt, ?_, hmem⟩
    · rw [hout, howner]
      rfl
    · rw [hchan, State.chan_setChan_self, howner]
      rfl
  · rintro s addr owner port ready r ch pa p ⟨hhbm, hpick, hread, hwb, haddr, howner⟩ hdelta
    obtain ⟨hout, hcnt, hposts, hmem⟩ := State.serveHbm_uncorrectable (s := s.setChan p.1 p.2 ch) hread hwb haddr (sector_aligned _) hdelta p.1
    exact ⟨_, congrArg Host.Outcome.next (hbmReadEffect_serve (p := p) rfl rfl hhbm hpick hread haddr howner port), hout, hcnt, hposts, hmem⟩
  · rintro s addr owner port data mask ready noise checkNoise r ch pa p ⟨hhbm, hpick, hwrite, hwb, haddr, howner⟩ hprot
    have hstored := State.serveHbm_write (s := s.setChan p.1 p.2 ch) (sector_aligned _) haddr hwrite hwb hprot p.1 false
    refine ⟨_, congrArg Host.Outcome.next
      (hbmWriteEffect_serve (p := p) rfl rfl hhbm hpick hwrite hwb haddr howner port data mask noise checkNoise),
      ⟨hstored.bytes, hstored.delta⟩, ?_, fun a ha => ⟨hstored.rdByte a ha, hstored.deltaAt a⟩⟩
    rw [hstored.chan, State.chan_setChan_self]
  · rintro s addr ready r ch pa p ⟨hhbm, hpick, hwb, haddr⟩
    obtain ⟨hstored, hcnt⟩ := State.serveHbm_writeback (s := s.setChan p.1 p.2 ch) (sector_aligned _) haddr hwb p.1 false
    refine ⟨_, congrArg Host.Outcome.next (correctionWritebackEffect_serve (p := p) rfl rfl hhbm hpick hwb haddr),
      ⟨hstored.bytes, hstored.delta⟩, hcnt, ?_, hstored.rdByte⟩
    rw [hstored.chan, State.chan_setChan_self]
  · rintro s controller pc r rs ⟨hheld, hfits⟩ hgroup
    refine ⟨_, rfl, ?_⟩
    simp only [heldRequestEnterEffect, State.chan_setChan_self, State.enterHeld_of_fits hheld hfits hgroup]

end Sys2Proof.Machine
end

section
/-!
SUPPORT. The maintenance arbiter of a die (spec/08_hbm_and_protection.md R400 to R408): what its table holds after an activity enters, starts to run
or ends, and after the entries are shown.
-/
namespace Sys2Proof.Machine

@[simp] theorem State.arb_setArb_self (s : State) (die : Nat) (x : Arbiter) : (s.setArb die x).arb die = x := by
  unfold State.setArb State.arb
  split <;> rfl

theorem Reach.arb_eq {F : Nat} {s t : State} (h : Reach F s t) (m : F.testBit 11 = false) (die : Nat) : t.arb die = s.arb die := by
  rw [State.arb, State.arb, h.same .hbm m]

@[simp] theorem State.showEntries_hbm (s : State) (die : Nat) : (s.showEntries die).hbm = s.hbm := (s.showEntries_reach die).same .hbm rfl

@[simp] theorem State.showEntries_arb (s : State) (die d : Nat) : (s.showEntries die).arb d = s.arb d := (s.showEntries_reach die).arb_eq rfl d

theorem State.freeEntry_congr {s t : State} {die : Nat} (h : t.arb die = s.arb die) : t.freeEntry die = s.freeEntry die := by
  rw [State.freeEntry, State.freeEntry, h]

theorem State.actPending_congr {s t : State} {die : Nat} (h : t.arb die = s.arb die) (kind scope : Nat) :
    t.actPending die kind scope = s.actPending die kind scope := by
  rw [State.actPending, State.actPending, h]

/-! ## Entering (R400, R404) -/

/-- The table after an activity takes an entry. -/
def Arbiter.enter (x : Arbiter) (a : MaintAct) (k : Nat) : Arbiter :=
  { x with acts := x.acts ++ [{ a with entry := k }], done := x.done.filter (· != k) }

theorem State.enterAct_eq {s : State} {die k : Nat} (hfree : s.freeEntry die = some k) (a : MaintAct) :
    s.enterAct die a = ((s.setArb die ((s.arb die).enter a k)).showEntries die, some k) := by
  simp only [State.enterAct, hfree]
  rfl

theorem State.enterAct_of_full {s : State} {die : Nat} (hfull : s.freeEntry die = none) (a : MaintAct) : s.enterAct die a = (s, none) := by
  simp only [State.enterAct, hfull]

theorem State.submitAct_acts {s : State} {die k : Nat} (hfree : s.freeEntry die = some k) (a : MaintAct) :
    ((s.submitAct die a).arb die).acts = (s.arb die).acts ++ [{ a with entry := k }] := by
  simp only [State.submitAct, State.enterAct_eq hfree, State.showEntries_arb, State.arb_setArb_self]
  rfl

/-- R404: what is submitted is in the table, or waits for an entry. -/
theorem State.submitAct_any {s : State} {die : Nat} {a : MaintAct} {p : MaintAct → Bool} (hp : ∀ k, p { a with entry := k } = true) :
    ((((s.submitAct die a).arb die).acts ++ ((s.submitAct die a).arb die).waitingOther).any p) = true := by
  unfold State.submitAct
  cases hfree : s.freeEntry die with
  | none => simp [State.enterAct_of_full hfree, hp a.entry]
  | some k => simp [State.enterAct_eq hfree, Arbiter.enter, hp k]

/-! ## Running and ending (R402, R404) -/

@[simp] theorem State.markRunning_acts (s : State) (die entry : Nat) : ((s.markRunning die entry).arb die).acts =
    (s.arb die).acts.map fun a => if a.entry == entry then { a with running := true } else a := by
  simp only [State.markRunning, State.showEntries_arb, State.arb_setArb_self]

/-- R404: the activity of an entry leaves the table; no other part of it but the list of entries done changes. -/
theorem State.endAct_arb (s : State) (die entry : Nat) (fail : Bool) : ∃ done,
    (s.endAct die entry fail).arb die = { s.arb die with acts := (s.arb die).acts.filter fun a => a.entry != entry, done := done } := by
  unfold State.endAct
  dsimp only
  split
  next hnone =>
    have hall : ((s.arb die).acts.filter fun a => a.entry != entry) = (s.arb die).acts :=
      List.filter_eq_self.mpr fun a ha => by simpa using List.find?_eq_none.mp hnone a ha
    exact ⟨(s.arb die).done, by rw [hall]⟩
  next a hfound =>
    exact ⟨_, by rw [State.showEntries_arb, (State.putEntry_reach ..).arb_eq rfl, State.arb_setArb_self]⟩

@[simp] theorem State.endAct_acts (s : State) (die entry : Nat) (fail : Bool) :
    ((s.endAct die entry fail).arb die).acts = (s.arb die).acts.filter fun a => a.entry != entry := by
  obtain ⟨done, h⟩ := s.endAct_arb die entry fail
  rw [h]

@[simp] theorem State.endAct_scrub (s : State) (die entry : Nat) (fail : Bool) :
    ((s.endAct die entry fail).arb die).scrub = (s.arb die).scrub := by
  obtain ⟨done, h⟩ := s.endAct_arb die entry fail
  rw [h]

@[simp] theorem State.setArb_outGroups (s : State) (die : Nat) (x : Arbiter) : (s.setArb die x).hbm.outGroups = s.hbm.outGroups := by
  unfold State.setArb
  split <;> rfl

@[simp] theorem State.markRunning_outGroups (s : State) (die entry : Nat) : (s.markRunning die entry).hbm.outGroups = s.hbm.outGroups := by
  simp only [State.markRunning, State.showEntries_hbm, State.setArb_outGroups]

@[simp] theorem State.endAct_outGroups (s : State) (die entry : Nat) (fail : Bool) :
    (s.endAct die entry fail).hbm.outGroups = s.hbm.outGroups := by
  unfold State.endAct
  dsimp only
  split
  · rfl
  · rw [State.showEntries_hbm, (State.putEntry_reach ..).same .hbm rfl, State.setArb_outGroups]

@[simp] theorem State.setArb_temp (s : State) (die : Nat) (x : Arbiter) : (s.setArb die x).hbm.temp = s.hbm.temp := by
  unfold State.setArb
  split <;> rfl

/-! ## Requests by the register (R404) -/

/-- R404: a request with GO and none PENDING enters the table where an entry is free, ACTIVITY naming it. -/
theorem State.maintReq_enters {s : State} {die k : Nat} {value : Word} {a : MaintAct} (hpending : s.fld hbmcMaintReqPending die = 0)
    (hgo : bitOf value 63 = true) (hfree : s.freeEntry die = some k) (hid : actId a.kind k < 256) :
    ((s.maintReq die value a).arb die).acts = (s.arb die).acts ++ [{ a with entry := k }] ∧
    (s.maintReq die value a).fld hbmcMaintReqActivity die = actId a.kind k := by
  have hentry : ∀ w, (s.wr .hbmcMaintReq die 0 w).freeEntry die = some k := fun w => hfree
  have harb : ∀ w, (s.wr .hbmcMaintReq die 0 w).arb die = s.arb die := fun w => rfl
  have hidle : ¬ s.fld hbmcMaintReqPending die = 1 := by rw [hpending]; decide
  simp only [State.maintReq, hgo, State.enterAct_eq (hentry _), hidle, if_false, Bool.not_true, Bool.false_eq_true]
  refine ⟨?_, ?_⟩
  · show ((State.showEntries _ die).arb die).acts = _
    rw [State.showEntries_arb, State.arb_setArb_self, harb]
    rfl
  · rw [State.fld_setFld_self _ _ _ _ _ (by decide)]
    exact Nat.mod_eq_of_lt hid

theorem bitOf_withKind_go (value : Word) (kind : Nat) : bitOf (withKind value kind) 63 = bitOf value 63 := by
  rw [bitOf, bitOf, withKind, bitsOf_withBits_above _ _ _ _ _ _ (by decide) (by decide)]

theorem actId_lt {kind k : Nat} (hkind : kind < 8) (hk : k < 32) : actId kind k < 256 := by
  unfold actId
  omega

end Sys2Proof.Machine
end

section
/-!
SUPPORT. The statement about temperatures, ECS counts and scrubs (spec/08_hbm_and_protection.md R372, R386 to R399).
-/
namespace Sys2Proof.Machine

/-! ## A stack's temperature (R386, R387, R407) -/

/-- A calibration that is submitted is no change of the refresh rate. -/
theorem State.submitAct_actPending {a : MaintAct} {kind : Nat} (ha : a.kind ≠ kind) (s : State) (die scope : Nat) :
    (s.submitAct die a).actPending die kind scope = s.actPending die kind scope := by
  unfold State.submitAct
  cases hfree : s.freeEntry die with
  | none => simp [State.enterAct_of_full hfree, State.actPending, beq_false_of_ne ha]
  | some k => simp [State.enterAct_eq hfree, Arbiter.enter, State.actPending, beq_false_of_ne ha]

theorem State.submitAct_temp (s : State) (die : Nat) (a : MaintAct) : (s.submitAct die a).hbm.temp = s.hbm.temp := by
  unfold State.submitAct
  cases hfree : s.freeEntry die with
  | none => simp [State.enterAct_of_full hfree]
  | some k => simp [State.enterAct_eq hfree]

/-- What the drift check of a channel group leaves: the requests for a change of refresh rate and the temperatures. -/
structure DriftKept (die : Nat) (s t : State) : Prop where
  pending : ∀ scope, t.actPending die 5 scope = s.actPending die 5 scope
  temp : t.hbm.temp = s.hbm.temp

theorem DriftKept.trans {die : Nat} {r s t : State} (h : DriftKept die r s) (k : DriftKept die s t) : DriftKept die r t :=
  ⟨fun scope => (k.pending scope).trans (h.pending scope), k.temp.trans h.temp⟩

theorem State.requestCal_driftKept (s : State) (die group : Nat) (force : Bool) : DriftKept die s (s.requestCal die group force) := by
  unfold State.requestCal
  split
  · exact ⟨fun _ => rfl, rfl⟩
  · exact ⟨fun scope => State.submitAct_actPending (show (2 : Nat) ≠ 5 by decide) s die scope, State.submitAct_temp ..⟩

theorem State.forceCal_driftKept (s : State) (die group : Nat) : DriftKept die s (s.forceCal die group) := by
  unfold State.forceCal
  dsimp only
  split
  · refine ⟨fun scope => ?_, State.setArb_temp ..⟩
    simp only [State.actPending, State.arb_setArb_self, List.any_map]
    congr 1 <;> (congr 1; funext a; dsimp only [Function.comp]; split <;> rfl)
  · exact ⟨fun _ => rfl, rfl⟩

theorem State.bump_driftKept (s : State) (die : Nat) (r : Reg) (u i n : Nat) : DriftKept die s (s.bump r u i n) := ⟨fun _ => rfl, rfl⟩

theorem State.checkDrift_driftKept (s : State) (die stack temp k : Nat) : DriftKept die s (s.checkDrift die stack temp k) := by
  unfold State.checkDrift
  extract_lets group key last moved force
  split
  · exact ⟨fun _ => rfl, rfl⟩
  split
  · split
    · exact s.forceCal_driftKept ..
    · exact ⟨fun _ => rfl, rfl⟩
  split
  · exact (s.bump_driftKept ..).trans (State.requestCal_driftKept ..)
  split
  · exact ⟨fun _ => rfl, rfl⟩
  · exact s.requestCal_driftKept ..

/-- R386, R387: the temperature is kept and, where it has reached the limit at a stack refreshed at the normal rate, the higher rate asked for. -/
theorem stackTempReadEffect_asks {s : State} {controller : Fin 8} {temp : BitVec 8} (hslow : s.hbm.fast.contains controller.val = false)
    (hlimit : s.dnat dkHbmRefresh2xTemp ≤ temp.toNat) (hnone : s.actPending (controller.val / 4) 5 (controller.val % 4) = false) :
    ∃ x : State, lookupD 0 controller.val x.hbm.temp = temp.toNat ∧ stackTempReadEffect controller temp s =
      x.submitAct (controller.val / 4) { entry := 0, kind := 5, scope := controller.val % 4, fast := true } := by
  let noted : State := { s with hbm := { s.hbm with temp := putD 0 controller.val temp.toNat s.hbm.temp } }
  let checked : State := (List.range 4).foldl (fun s k => s.checkDrift (controller.val / 4) (controller.val % 4) temp.toNat k) noted
  have hkept : DriftKept (controller.val / 4) noted checked :=
    List.foldlRecOn _ _ ⟨fun _ => rfl, rfl⟩ fun x hx k _ => hx.trans (x.checkDrift_driftKept ..)
  have hfree : checked.actPending (controller.val / 4) 5 (controller.val % 4) = false := (hkept.pending _).trans hnone
  refine ⟨checked, ?_, ?_⟩
  · rw [hkept.temp]
    exact lookupD_putD_self ..
  · refine if_pos ?_
    rw [hslow, decide_eq_true hlimit]
    simpa using hfree

/-! ## A scrub starts (R390 to R392) -/

theorem State.fld_wr_ne {a : Reg} {f : Field} (h : f.reg ≠ a) (s : State) (u i v j : Nat) (w : Word) : (s.wr a u i w).fld f v j = s.fld f v j :=
  congrArg (bitsOf · f.lo f.width) (State.rd_wr_ne h ..)

/-- The register of a scrub command as it is taken, with BUSY set (R390, R399). -/
def State.beginScrub (s : State) (die : Nat) (value : Word) : State :=
  (s.wr .hbmcScrubCmd die 0 (BitVec.ofNat 64 (bitsOf value 0 1 + bitsOf value 2 1 * 4 + bitsOf value 4 12 * 16 +
    bitsOf (s.rd .hbmcScrubCmd die) 16 8 * 2 ^ 16))).setFld hbmcScrubCmdBusy die 0 1

theorem State.beginScrub_reach (s : State) (die : Nat) (value : Word) :
    Reach (1 <<< (64 + Reg.hbmcScrubCmd.ctorIdx)) s (s.beginScrub die value) := ((Reach.refl _ s).wr rfl).setFld rfl

theorem State.beginScrub_busy (s : State) (die : Nat) (value : Word) : (s.beginScrub die value).fld hbmcScrubCmdBusy die 0 = 1 :=
  State.fld_setFld_self _ _ _ _ _ (by decide)

/-- The scrub that a command starts over a range, under an entry of the arbiter's table (R390, R391). -/
def State.scrubOf (s : State) (die : Nat) (value : Word) (lo hi k : Nat) : Scrub :=
  { entry := k, mode := bitOf value 0, pos := lo, hi := hi, recAddr := s.fld hbmcScrubRecAddr die * 64, tokenEn := bitOf value 2,
    token := bitsOf value 4 12, beamStart := s.beamNow, beamEnd := s.beamNow }

/-- R390 to R392: a scrub of a range that is not empty enters the arbiter's table. -/
theorem scrubStartEffect_enters {s : State} {die : Fin 2} {value : Word} {lo hi k : Nat}
    (hlo : min (s.hbmSpan die.val).2 (max (s.hbmSpan die.val).1 (s.fld hbmcScrubLoAddr die.val * 32)) = lo)
    (hhi : min (s.hbmSpan die.val).2 (max (s.hbmSpan die.val).1 (s.fld hbmcScrubHiAddr die.val * 32)) = hi)
    (hidle : s.fld hbmcScrubCmdBusy die.val = 0) (hgo : bitOf value 63 = true) (hrange : lo < hi) (hfree : s.freeEntry die.val = some k) :
    ∃ groups, ∃ entered : State,
      entered = ((s.beginScrub die.val value).setArb die.val
        ((s.arb die.val).enter { entry := 0, kind := 1, scope := 0, groups := groups } k)).showEntries die.val ∧
      scrubStartEffect die value s = (entered.setArb die.val
        { entered.arb die.val with scrub := some (entered.scrubOf die.val value lo hi k) }).setFld hbmcScrubCmdActivity die.val 0 (actId 1 k) := by
  have hnew : ∀ w, (s.wr .hbmcScrubCmd die.val 0 w).hbmSpan die.val = s.hbmSpan die.val ∧
      (s.wr .hbmcScrubCmd die.val 0 w).fld hbmcScrubLoAddr die.val 0 = s.fld hbmcScrubLoAddr die.val ∧
      (s.wr .hbmcScrubCmd die.val 0 w).fld hbmcScrubHiAddr die.val 0 = s.fld hbmcScrubHiAddr die.val := by
    intro w
    have hharbour : (s.wr .hbmcScrubCmd die.val 0 w).harbour = s.harbour := congrArg (· == 2) (State.fld_wr_ne (by decide) ..)
    refine ⟨?_, State.fld_wr_ne (by decide) .., State.fld_wr_ne (by decide) ..⟩
    simp only [State.hbmSpan, hharbour, State.wr_order]
  have hspan w := (hnew w).1
  have hloaddr w := (hnew w).2.1
  have hhiaddr w := (hnew w).2.2
  have hentry : (s.beginScrub die.val value).freeEntry die.val = some k := hfree
  have hbusy : ¬ s.fld hbmcScrubCmdBusy die.val = 1 := by rw [hidle]; decide
  unfold State.beginScrub at hentry ⊢
  cases hends : s.hbmSpan die.val with
  | mk l h =>
    rw [hends] at hlo hhi
    simp only [scrubStartEffect, hbusy, hgo, hspan, hends, hloaddr, hhiaddr, hlo, hhi, State.enterAct_eq hentry, if_false, Bool.not_true,
      Bool.false_eq_true, Nat.not_le.mpr hrange, decide_false, Bool.false_and, Option.isSome_some, Option.isNone_some, Option.getD_some, if_true]
    exact ⟨_, _, rfl, rfl⟩

/-! ## A scrub reads (R385, R393) -/

theorem State.flushSectors_of_noneQueued {s : State} {pa n : Nat} (h : s.noneQueued pa n = true) : s.flushSectors pa n = s := by
  unfold State.flushSectors
  extract_lets hit
  refine List.foldlRecOn (motive := fun x : State => x = s) _ _ rfl fun x hx p hp => ?_
  have hmiss : ∀ wb lo hi : Bool, (wb || !(lo && hi)) = true → ¬(!wb && lo && hi) = true := by decide
  have hnone : p.2.queue.filter hit = [] := List.filter_eq_nil_iff.mpr fun r hr =>
    hmiss _ _ _ (List.all_eq_true.mp (List.all_eq_true.mp h p hp) r hr)
  simp only [hnone, if_true, hx]

/-- R393: a clean sector that no queued request names is read and counted, and nothing else comes of it. -/
theorem State.scrubRead_clean {s : State} {pa : Nat} (hdelta : s.deltaAt pa = 0#16) (hsev : s.hbm.sevBad.contains (pa / 32) = false)
    (hqueued : s.noneQueued pa 32 = true) (x : Scrub) : s.scrubRead pa x 0#256 0#16 false =
      (s.countSector (hbmPlace s.harbour pa).1, { x with read := x.read + 1, beamEnd := s.beamNow }) := by
  simp only [State.scrubRead, State.disturb_zero, State.flushSectors_of_noneQueued hqueued, State.readSector_clean hdelta hsev]
  rfl

theorem scrubSectorReadEffect_clean {s : State} {die : Fin 2} {x : Scrub} (hscrub : (s.arb die.val).scrub = some x)
    (hrun : ((s.arb die.val).acts.any fun a : MaintAct => a.entry == x.entry && a.running) = true) (hstepped : x.stepped = [])
    (hpos : x.pos < x.hi) (hstate : s.scrubState die.val x.pos = 0) (hdelta : s.deltaAt x.pos = 0#16)
    (hsev : s.hbm.sevBad.contains (x.pos / 32) = false) (hqueued : s.noneQueued x.pos 32 = true) :
    scrubSectorReadEffect die 0#256 0#16 false s = (s.countSector (hbmPlace s.harbour x.pos).1).setArb die.val
      { s.arb die.val with scrub := some { x with pos := x.pos + 32, read := x.read + 1, beamEnd := s.beamNow } } := by
  simp only [scrubSectorReadEffect, hscrub, hrun, hstepped, hpos, hstate, List.find?_nil, Bool.not_true, Bool.false_eq_true, if_false, if_true,
    State.scrubRead_clean hdelta hsev hqueued]
  rfl

/-! ## A scrub completes (R397) -/

theorem scrubCompleteEffect_finishes {s : State} {die : Fin 2} {x : Scrub} (hscrub : (s.arb die.val).scrub = some x)
    (hrun : ((s.arb die.val).acts.any fun a : MaintAct => a.entry == x.entry && a.running) = true) (hpos : x.hi ≤ x.pos)
    (hstepped : x.stepped = []) (hdeferred : x.deferred = []) : scrubCompleteEffect die s = s.finishScrub die.val x := by
  simp [scrubCompleteEffect, hscrub, hrun, hpos, hstepped, hdeferred]

theorem State.tokenSet_putToken_self (s : State) (k : Nat) : (s.putToken k true).tokenSet k = true := by
  have hwidth : k % 64 + 1 ≤ 64 := Nat.mod_lt _ (by decide)
  have hother : ∀ (t : State) (w : Word), (t.wr .beamTokens 1 (k / 64) w).rd .beamTokens 0 (k / 64) = t.rd .beamTokens 0 (k / 64) :=
    fun t w => State.rd_wr_place t .beamTokens w (.inl (by decide))
  simp only [State.tokenSet, State.putToken, hother, State.rd_wr_self, bitOf]
  rw [bitsOf_withBits_self _ _ _ _ hwidth]
  rfl

section
variable {s : State} {die : Nat} {x : Scrub} (hrecorded : x.recorded = false)
include hrecorded

/-- R397: once the record's write is accepted the scrub ends. -/
theorem State.finishScrub_of_accepted
    (haccepted : (s.devWriteWords { unit := .maint die } x.recAddr x.record).writeWaits x.recAddr 320 = false) :
    (s.finishScrub die x).fld hbmcScrubCmdBusy die = 0 ∧ ((s.finishScrub die x).arb die).scrub = none ∧
    (x.tokenEn = true → (s.finishScrub die x).tokenSet x.token = true) := by
  have hended : ∀ t : State, Reach 0x4000000800000000000000000000000000800 (t.setFld hbmcScrubCmdBusy die 0 0)
      (((t.setFld hbmcScrubCmdBusy die 0 0).setArb die { (t.setFld hbmcScrubCmdBusy die 0 0).arb die with scrub := none }).endAct die x.entry
        false) := fun t => ((Reach.refl _ _).then (State.setArb_reach ..) rfl).then (State.endAct_reach ..) rfl
  simp only [State.finishScrub, hrecorded, haccepted, Bool.false_eq_true, if_false]
  refine ⟨?_, ?_, fun htoken => ?_⟩
  · rw [(hended _).fld_eq _ rfl, State.fld_setFld_self _ _ _ _ _ (by decide)]
    rfl
  · rw [State.endAct_scrub, State.arb_setArb_self]
  · rw [State.tokenSet, (hended _).rd_eq .beamTokens rfl, State.rd_setFld_ne (by decide), if_pos htoken]
    exact State.tokenSet_putToken_self ..

/-- R397: while the record's write waits the scrub goes on. -/
theorem State.finishScrub_of_waiting
    (hwaits : (s.devWriteWords { unit := .maint die } x.recAddr x.record).writeWaits x.recAddr 320 = true) :
    ((s.finishScrub die x).arb die).scrub = some { x with recorded := true } ∧
    (s.finishScrub die x).fld hbmcScrubCmdBusy die = s.fld hbmcScrubCmdBusy die := by
  simp only [State.finishScrub, hrecorded, hwaits, Bool.false_eq_true, if_false, if_true]
  refine ⟨?_, ?_⟩
  · rw [State.arb_setArb_self]
  · rw [(State.setArb_reach ..).fld_eq _ rfl, (State.devWriteWords_reach ..).fld_eq _ rfl]

end

/-! ## The statement about temperatures, ECS counts and scrubs (O26) -/

/-- Settles O26: the temperature by what the drift checks leave of the requests; a scrub by the table that it enters, the sector that it reads and
what its record's write leaves. -/
theorem temperatureEcsAndScrubs : Obligations.TemperatureEcsAndScrubs := by
  refine ⟨?_, ?_, ?_, ?_, ?_, ?_⟩
  · intro s controller count
    refine ⟨_, rfl, (State.rd_bump_self ..).trans ?_⟩
    rw [BitVec.ofNat_toNat, BitVec.setWidth_eq]
  · rintro s controller temp die ⟨hslow, hlimit, hnone⟩
    obtain ⟨x, htemp, heff⟩ := stackTempReadEffect_asks hslow hlimit hnone
    refine ⟨_, congrArg Host.Outcome.next heff, ?_, ?_⟩
    · rw [State.submitAct_temp, htemp]
    · exact State.submitAct_any fun k => by simp
  · rintro s die value k lo hi ⟨hidle, hgo, hrange, hfree, hk⟩
    obtain ⟨groups, entered, hentered, heff⟩ := scrubStartEffect_enters (lo := lo) (hi := hi) rfl rfl hidle hgo hrange hfree
    have hbusy : entered.fld hbmcScrubCmdBusy die.val 0 = 1 := by
      rw [hentered, (State.showEntries_reach ..).fld_eq _ rfl, (State.setArb_reach ..).fld_eq _ rfl, State.beginScrub_busy]
    have hacts : (entered.arb die.val).acts =
        (s.arb die.val).acts ++ [{ entry := k, kind := 1, scope := 0, groups := groups }] := by
      rw [hentered, State.showEntries_arb, State.arb_setArb_self]
      rfl
    refine ⟨_, congrArg Host.Outcome.next heff, ⟨?_, ?_⟩, ?_, ?_⟩
    · rw [State.fld_setFld_apart _ hbmcScrubCmdActivity hbmcScrubCmdBusy _ _ _ rfl (by decide) (by decide),
        (State.setArb_reach ..).fld_eq _ rfl, hbusy]
    · rw [State.fld_setFld_self _ _ _ _ _ (by decide)]
      exact Nat.mod_eq_of_lt (actId_lt (by decide) hk)
    · exact congrArg (fun a : Arbiter => a.scrub.map fun x : Scrub => ((x.entry, x.pos, x.hi), (x.mode, x.read, x.tokenEn), x.token))
        (State.arb_setArb_self ..)
    · refine (congrArg (fun a : Arbiter => a.acts.any fun a => a.entry == k && a.kind == 1) (State.arb_setArb_self ..)).trans ?_
      simp [hacts]
  · rintro s die x ⟨hscrub, hrun⟩ ⟨hstepped, hpos, hstate, hdelta, hsev⟩ hqueued
    refine ⟨_, congrArg Host.Outcome.next (scrubSectorReadEffect_clean hscrub hrun hstepped hpos hstate hdelta hsev hqueued), ?_, ?_⟩
    · rw [State.arb_setArb_self]
    · exact (State.setArb_reach ..).same .mem rfl
  · rintro s die x ⟨hscrub, hrun⟩ ⟨hpos, hstepped, hdeferred, hrecorded⟩ haccepted
    obtain ⟨hbusy, hnone, htoken⟩ := State.finishScrub_of_accepted hrecorded haccepted
    exact ⟨_, congrArg Host.Outcome.next (scrubCompleteEffect_finishes hscrub hrun hpos hstepped hdeferred), ⟨hbusy, hnone⟩, htoken⟩
  · rintro s die x ⟨hscrub, hrun⟩ ⟨hpos, hstepped, hdeferred, hrecorded⟩ hwaits
    exact ⟨_, congrArg Host.Outcome.next (scrubCompleteEffect_finishes hscrub hrun hpos hstepped hdeferred),
      State.finishScrub_of_waiting hrecorded hwaits⟩

end Sys2Proof.Machine
end

section
/-!
SUPPORT. What the writes and the stages that go on when a channel group is back in service (spec/08_hbm_and_protection.md R405) leave of the
arbiters: every store, read and stage's work may serve requests of HBM and queue write-backs, and touches neither the channel groups out of
service nor an activity table.
-/
namespace Sys2Proof.Machine

/-- The channel groups out of service and the two dies' arbiters are as before. -/
structure ArbitersKept (s t : State) : Prop where
  outGroups : t.hbm.outGroups = s.hbm.outGroups
  arb0 : t.hbm.arb0 = s.hbm.arb0
  arb1 : t.hbm.arb1 = s.hbm.arb1

namespace ArbitersKept
variable {r s t : State}

theorem refl (s : State) : ArbitersKept s s := ⟨rfl, rfl, rfl⟩

theorem arb (h : ArbitersKept s t) (die : Nat) : t.arb die = s.arb die := by
  rw [State.arb, State.arb, h.arb0, h.arb1]

theorem trans (h : ArbitersKept r s) (k : ArbitersKept s t) : ArbitersKept r t :=
  ⟨k.outGroups.trans h.outGroups, k.arb0.trans h.arb0, k.arb1.trans h.arb1⟩

theorem ite {c : Prop} {_ : Decidable c} (h : ArbitersKept r s) (k : ArbitersKept r t) : ArbitersKept r (if c then s else t) := by
  split
  · exact h
  · exact k

/-- A step taken under a condition. -/
theorem iteThen {c : Prop} {_ : Decidable c} (h : ArbitersKept r s) (k : ArbitersKept s t) : ArbitersKept r (if c then t else s) :=
  (h.trans k).ite h

theorem iteElse {c : Prop} {_ : Decidable c} (h : ArbitersKept r s) (k : ArbitersKept s t) : ArbitersKept r (if c then s else t) :=
  h.ite (h.trans k)

theorem foldl {β : Type} {f : State → β → State} (l : List β) (h : ArbitersKept r s)
    (hf : ∀ t x, ArbitersKept r t → ArbitersKept r (f t x)) :
    ArbitersKept r (l.foldl f s) :=
  List.foldlRecOn l f h fun t ht x _ => hf t x ht

theorem of_hbm (h : ArbitersKept r s) (e : t.hbm = s.hbm) : ArbitersKept r t := by
  refine h.trans ⟨?_, ?_, ?_⟩ <;> rw [e]

/-- What does not reach the HBM subsystem keeps its arbiters. -/
theorem reach {F : Nat} (h : ArbitersKept r s) (k : Reach F s t) (m : F.testBit 11 = false) : ArbitersKept r t := h.of_hbm (k.same .hbm m)

/-- The state of a pair. -/
theorem of_pair {α : Type} {p : State × α} {x : α} (h : ArbitersKept r p.1) (e : p = (t, x)) : ArbitersKept r t := by
  rw [e] at h
  exact h

theorem bump (h : ArbitersKept r s) (q : Reg) (u i n : Nat) : ArbitersKept r (s.bump q u i n) := h.of_hbm rfl

theorem setHeld (h : ArbitersKept r s) (l : List HeldWrite) : ArbitersKept r { s with heldWrites := l } := h.of_hbm rfl

theorem setPoison (h : ArbitersKept r s) (l : List Nat) : ArbitersKept r { s with poison := l } := h.of_hbm rfl

theorem setPool (h : ArbitersKept r s) (p : Pool) : ArbitersKept r { s with pool := p } := h.of_hbm rfl

theorem setBeam (h : ArbitersKept r s) (b : Beam) : ArbitersKept r { s with beam := b } := h.of_hbm rfl

theorem clamped (h : ArbitersKept r s) (cluster n : Nat) : ArbitersKept r (s.clamped cluster n) := h.reach (State.clamped_reach ..) rfl

/-! ## Requests of HBM (R374 to R385) -/

theorem setChan (h : ArbitersKept r s) (ctl pc : Nat) (c : PseudoChannel) : ArbitersKept r (s.setChan ctl pc c) := h.trans ⟨rfl, rfl, rfl⟩

theorem dropWritebacks (h : ArbitersKept r s) (lo n : Nat) : ArbitersKept r (s.dropWritebacks lo n) := h.trans ⟨rfl, rfl, rfl⟩

theorem putRaw (h : ArbitersKept r s) (pa : Nat) (bs : List Byte) : ArbitersKept r (s.putRaw pa bs) :=
  ((h.reach (s.mergeEnds_reach pa bs.length) rfl).dropWritebacks (pa / 32) ((pa + bs.length + 31) / 32 - pa / 32)).trans ⟨rfl, rfl, rfl⟩

theorem putMem (h : ArbitersKept r s) (pa : Nat) (bs : List Byte) : ArbitersKept r (s.putMem pa bs) :=
  .ite h (((h.putRaw pa bs).reach (State.touchWrite_reach ..) rfl).reach (State.touchTable_reach ..) rfl)

theorem queueWriteback (h : ArbitersKept r s) (pa owner : Nat) : ArbitersKept r (s.queueWriteback pa owner) := .ite h (h.setChan ..)

theorem setSevBad (h : ArbitersKept r s) (l : List Nat) : ArbitersKept r { s with hbm := { s.hbm with sevBad := l } } := h.trans ⟨rfl, rfl, rfl⟩

theorem setOut (h : ArbitersKept r s) (l : List (Nat × Delivered)) :
    ArbitersKept r { s with hbm := { s.hbm with out := l } } := h.trans ⟨rfl, rfl, rfl⟩

theorem noteSector (h : ArbitersKept r s) (ctl pa owner : Nat) (severity : Bool) : ArbitersKept r (s.noteSector ctl pa owner severity).1 := by
  have hlogged : ∀ {u : State} (q : Reg) (sev mark : Bool), ArbitersKept r u →
      ArbitersKept r (((u.bump q ctl 0 1).logUe ctl (pa / 32 * 32) owner sev mark).postUe (pa / 32 * 32)) := fun q _ _ hu =>
    ((hu.bump q ctl 0 1).reach (State.logUe_reach ..) rfl).reach (State.postUe_reach ..) rfl
  unfold State.noteSector
  dsimp only
  split
  · exact hlogged _ _ _ ((h.setSevBad _).bump ..)
  split
  · exact h
  · exact h.bump ..
  · exact hlogged _ _ _ h
  · exact hlogged _ _ _ h

theorem readSector (h : ArbitersKept r s) (ctl pa owner : Nat) (severity : Bool) : ArbitersKept r (s.readSector ctl pa owner severity).1 :=
  (h.bump _ _ _ 1).noteSector ctl pa owner severity

theorem serveHbm (h : ArbitersKept r s) (ctl : Nat) (q : HbmReq) (severity : Bool) : ArbitersKept r (s.serveHbm ctl q severity) := by
  have hwrite : ArbitersKept r ((if q.mask = BitVec.allOnes 32 then s else s.bump .hbmcPartialWrCnt ctl 0 1).countSector ctl) :=
    .bump (.ite h (h.bump ..)) ..
  have hread := h.readSector ctl (q.addr / 32 * 32) q.owner severity
  unfold State.serveHbm
  dsimp only
  split
  · exact ((h.putRaw ..).bump ..).bump ..
  split
  · exact .ite (hwrite.setHeld _) (hwrite.putMem ..)
  split
  · exact ((hread.queueWriteback ..).reach (State.touchRead_reach ..) rfl).setOut _
  · exact (hread.reach (State.touchRead_reach ..) rfl).setOut _

theorem flushSectors (h : ArbitersKept r s) (pa n : Nat) : ArbitersKept r (s.flushSectors pa n) := by
  refine .foldl _ h fun u p hu => .ite hu ?_
  exact .foldl _ (hu.trans ⟨rfl, rfl, rfl⟩) fun v q hv => hv.serveHbm ..

theorem useSector (h : ArbitersKept r s) (owner base : Nat) : ArbitersKept r (s.useSector owner base) := by
  have hread := h.readSector (hbmPlace s.harbour base).1 base owner false
  unfold State.useSector
  split
  next heq => exact (hread.of_pair heq).queueWriteback ..
  next heq => exact hread.of_pair heq

/-! ## Reads and writes of memory (R271, R281, R405) -/

theorem devWrite (h : ArbitersKept r s) (a : Access) (pa : Nat) (bs : List Byte) : ArbitersKept r (s.devWrite a pa bs) := by
  have hflushed := h.flushSectors pa bs.length
  refine .ite h (.ite (h.bump ..) (.ite (.ite (hflushed.of_hbm rfl) (.putMem (.foldl _ hflushed fun u k hu => hu.bump ..) ..))
    (.ite (h.of_hbm rfl) (.putMem (h.reach (State.useSlots_reach ..) rfl) ..))))

theorem refetchClean (h : ArbitersKept r s) (pa : Nat) : ArbitersKept r (s.refetchClean pa) := by
  unfold State.refetchClean
  dsimp only
  split
  · exact (h.putRaw ..).of_hbm rfl
  · exact h

theorem checkSram (h : ArbitersKept r s) (a : Access) (pa n : Nat) : ArbitersKept r (s.checkSram a pa n) := by
  unfold State.checkSram
  split
  next => exact h
  next first rest _ =>
    have hlogged : ArbitersKept r (s.logParity a first) := h.reach (State.logParity_reach ..) rfl
    exact .ite (.foldl _ hlogged fun u k hu => (hu.bump ..).refetchClean ..) hlogged

theorem didRead (h : ArbitersKept r s) (a : Access) (pa n : Nat) : ArbitersKept r (s.didRead a pa n) := by
  have htouched := h.reach (State.touchRead_reach s pa) rfl
  exact .ite (.foldl _ (htouched.flushSectors pa n) fun u k hu => hu.useSector ..)
    (.checkSram (htouched.reach (State.useSlots_reach ..) rfl) ..)

end ArbitersKept

end Sys2Proof.Machine
end

section
/-!
SUPPORT. The same of what a held write or a stage that goes on does: the records, the landings, the page pool's moves and the tiles a stage
fetches, computes and stores.
-/
namespace Sys2Proof.Machine
namespace ArbitersKept
variable {r s t : State}

/-! ## Held writes (R405): records, completion rings and landings -/

theorem rearm (h : ArbitersKept r s) (i : RecInst) (n : Nat) : ArbitersKept r (s.rearm i n) :=
  (((h.devWrite ..).devWrite ..).setBeam _).reach (State.armInst_reach ..) rfl

theorem afterRecord (h : ArbitersKept r s) (i : RecInst) : ArbitersKept r (s.afterRecord i) := by
  unfold State.afterRecord
  extract_lets good signalled rep again u
  have hu : ArbitersKept r u := (ite (h.reach (State.putTokens_reach ..) rfl) h).reach (State.dropRec_reach ..) rfl
  exact .ite (hu.reach (State.setRecState_reach ..) rfl) (.ite (hu.rearm ..)
    (.ite (hu.reach (State.armRecord_reach ..) rfl) (hu.reach (State.setRecState_reach ..) rfl)))

theorem settleCrings (h : ArbitersKept r s) (fuel : Nat) : ArbitersKept r (s.settleCrings fuel) := by
  induction fuel generalizing s with
  | zero => exact h
  | succ fuel ih =>
    unfold State.settleCrings
    split
    next => exact h
    next w _ =>
      have hcounted : ArbitersKept r (({ s with beam := { s.beam with posted := s.beam.posted.erase w } } : State).countProd w.owner) :=
        (h.setBeam _).reach (State.countProd_reach ..) rfl
      refine ih ?_
      split
      · exact hcounted.afterRecord _
      · exact hcounted

theorem readLine (h : ArbitersKept r s) (g : Landing) (i : Nat) : ArbitersKept r (s.readLine g i).1 := by
  unfold State.readLine
  dsimp only
  split
  · exact h
  · exact .foldl _ h fun _ _ hu => hu.didRead ..

theorem readLines (h : ArbitersKept r s) (g : Landing) (l : List Nat) : ArbitersKept r (s.readLines g l).1 := by
  induction l generalizing s with
  | nil => exact h
  | cons i is ih => exact ih (h.readLine g i)

theorem answerGet (h : ArbitersKept r s) (g : Landing) : ArbitersKept r (s.answerGet g) := by
  have hput := (h.readLines g g.left).reach (State.putLanding_reach _ { g with left := [] }) rfl
  exact (ite hput (hput.reach (State.noteTorn_reach ..) rfl)).reach (State.sendMsg_reach ..) rfl

theorem settleLandings (h : ArbitersKept r s) : ArbitersKept r s.settleLandings := by
  refine .reach (.foldl _ h fun _ g hu => ?_) (State.settleSignals_reach _) rfl
  exact .ite (.ite hu (hu.answerGet g)) (.ite (hu.reach (State.finishLanding_reach ..) rfl) hu)

theorem reissue (h : ArbitersKept r s) (which : HeldWrite → Bool) : ArbitersKept r (s.reissue which) := by
  unfold State.reissue
  extract_lets mine released written shown
  have hwritten : ArbitersKept r written :=
    .foldl _ (h.setHeld _) fun _ _ hu => (hu.devWrite ..).reach (State.leavePoison_reach ..) rfl
  have hshown : ArbitersKept r shown := by
    refine .foldl _ hwritten fun _ _ hu => ?_
    split
    · exact hu.reach (State.showTasks_reach ..) rfl
    · exact hu
  exact hshown.settleLandings.settleCrings _

/-! ## The pages a stage reads -/

theorem putSlot (h : ArbitersKept r s) (a : Access) (g : Stage) (tile off : Nat) (bs : List Byte) (poison : Bool) :
    ArbitersKept r (s.putSlot a g tile off bs poison) := by
  have hput := (h.reach (State.useSlots_reach s a (g.slotAddr tile + off) (bs.take (g.slotBytes - off)).length) rfl).putMem
    (g.slotAddr tile + off) (bs.take (g.slotBytes - off))
  exact .ite (hput.setPoison _) hput

theorem chainReads (h : ArbitersKept r s) (c : Chain) (a : Access) (runs : List (Nat × Nat)) : ArbitersKept r (s.chainReads c a runs).1 :=
  reach (foldl runs h fun _ p hu => hu.didRead a p.1 p.2) (State.parityStops_reach ..).fst rfl

theorem switchPage (h : ArbitersKept r s) (owner vpage src dst : Nat) : ArbitersKept r (s.switchPage owner vpage src dst) := by
  unfold State.switchPage
  extract_lets on pointed atDst atSrc kept
  have hon : ∀ u die, ArbitersKept r u → ArbitersKept r (on u die) := by
    intro u die hu
    dsimp only [on]
    split
    · exact .ite (hu.putRaw ..) hu
    · exact hu
  have hkept : ArbitersKept r kept :=
    ((hon _ 1 (hon _ 0 h)).reach (State.setFrame_reach ..) rfl).reach (State.setFrame_reach ..) rfl
  exact hkept.setHeld _

theorem dropCached (h : ArbitersKept r s) (n : Nat) : ArbitersKept r (s.dropCached n) := by
  unfold State.dropCached
  dsimp only
  split
  · exact (h.switchPage ..).reach (State.freeFrame_reach ..) rfl
  · exact h.reach (State.freeFrame_reach ..) rfl

theorem startMove (h : ArbitersKept r s) (p : Pool) (n : Nat) : ArbitersKept r (({ s with pool := p } : State).setMoving n) :=
  (h.setPool p).reach (State.setMoving_reach ..) rfl

theorem obtain (h : ArbitersKept r s) (fuel tier die owner : Nat) : ArbitersKept r (s.obtain fuel tier die owner).1 := by
  induction fuel generalizing s tier owner with
  | zero => exact h
  | succ fuel ih =>
    unfold State.obtain
    split
    · exact h
    · exact h
    next n _ =>
      dsimp only
      split
      · exact h
      split
      · exact (h.dropCached n).bump ..
      split
      · exact h.startMove ..
      · have hlower := ih h (tier + 1) (s.frame n).owner
        split
        · exact hlower
        · exact (hlower.reach (State.setFrame_reach ..) rfl).startMove ..

theorem promote (h : ArbitersKept r s) (die n : Nat) : ArbitersKept r (s.promote die n) := by
  have hgot := h.obtain 3 1 die (s.frame n).owner
  unfold State.promote
  refine .ite h ?_
  dsimp only
  split
  next heq =>
    exact (((hgot.of_pair heq).reach (State.setFrame_reach ..) rfl).startMove ..).reach (State.showUse_reach ..) rfl
  next heq => exact hgot.of_pair heq

theorem stageReads (h : ArbitersKept r s) (c : Chain) (k : Nat) (g : Stage) (runs : List (Nat × Nat)) :
    ArbitersKept r (s.stageReads c k g runs).1 := by
  unfold State.stageReads
  dsimp only
  split
  · exact (h.reach (State.noteWalk_reach ..) rfl).chainReads ..
  split
  · exact .foldl _ h fun _ _ hu => hu.promote ..
  split
  · exact h
  split
  · exact h.reach (State.askRuns_reach ..) rfl
  have hread := h.chainReads c (c.access k g) (s.localRuns (cluDie c.cluster) c.owner runs)
  split
  · exact hread
  split
  · exact hread
  · exact hread

end ArbitersKept

end Sys2Proof.Machine
end

section
/-!
SUPPORT. The same of the streams a stage or an engine writes, of an engine's commands and of a stage's work, and of what goes on when a channel
group is back in service.
-/
namespace Sys2Proof.Machine
namespace ArbitersKept
variable {r s t : State}

/-! ## Tiles fetched and gathered -/

theorem fetchTile (h : ArbitersKept r s) (c : Chain) (k : Nat) (g : Stage) : ArbitersKept r (s.fetchTile c k g) := by
  unfold State.fetchTile
  extract_lets die item
  dsimp only
  have hread : ∀ runs, ArbitersKept r
      ((if g.todo then s else s.clamped c.cluster (s.chainDesc c g.inDesc).2).stageReads c k g runs).1 := fun runs =>
    stageReads (ite h (h.clamped ..)) c k g runs
  split
  next heq => exact (hread _).of_pair heq
  next heq => exact ((hread _).of_pair heq).reach (State.setStageOf_reach ..) rfl
  next heq =>
    have hu := (hread _).of_pair heq
    exact .ite ((hu.reach (State.setStageOf_reach ..) rfl).reach (State.endChain_reach ..) rfl)
      (.ite (hu.reach (State.setStageOf_reach ..) rfl) ((hu.bump ..).reach (State.setStageOf_reach ..) rfl))
  next heq =>
    have hu := (hread _).of_pair heq
    refine reach (foldl _ (iteThen (iteThen (iteThen hu (.bump (refl _) ..)) (.putSlot (refl _) ..)) (.putSlot (refl _) ..)) fun _ _ hv => ?_)
      (State.setStageOf_reach ..) rfl
    exact hv.reach (State.noteWalk_reach ..) rfl

theorem gatherItem (h : ArbitersKept r s) (c : Chain) (k : Nat) (g : Stage) : ArbitersKept r (s.gatherItem c k g) := by
  unfold State.gatherItem
  extract_lets die item
  dsimp only
  have hread := h.stageReads c k g ((s.chainDesc c g.inDesc).1.tileRuns item)
  split
  next heq => exact ((hread.of_pair heq).reach (State.setChain_reach ..) rfl).reach (State.endChain_reach ..) rfl
  next heq =>
    split
    next heq' =>
      have hu := ((hread.of_pair heq).stageReads ..).of_pair heq'
      refine reach (iteElse (bump (iteThen (hu.clamped ..) (.bump (refl _) ..)) ..) (foldl _ (refl _) fun _ _ hv => ?_))
        (State.setStageOf_reach ..) rfl
      exact (hv.putSlot ..).iteThen (.putSlot (refl _) ..)
    next heq' => exact (((hread.of_pair heq).stageReads ..).of_pair heq').reach (State.readStops_reach ..) rfl
  next heq => exact (hread.of_pair heq).reach (State.readStops_reach ..) rfl

/-! ## Output streams -/

theorem vPutPage (h : ArbitersKept r s) (die : Nat) (a : Access) (va : Nat) (bs : List Byte) :
    ArbitersKept r (s.vPutPage die a va bs).st := by
  unfold State.vPutPage
  dsimp only
  split
  · split
    · exact (h.devWrite ..).of_hbm rfl
    · exact h.devWrite ..
  · exact h.reach (State.beginMsg_reach ..) rfl
  · exact h.reach (State.noteWalk_reach ..) rfl

theorem vPutFuel (h : ArbitersKept r s) (die : Nat) (a : Access) (fuel va : Nat) (bs : List Byte) :
    ArbitersKept r (s.vPutFuel die a fuel va bs).st := by
  induction fuel generalizing s va bs with
  | zero => exact h
  | succ fuel ih =>
    unfold State.vPutFuel
    split
    · exact h
    · refine ih ?_ ..
      split
      · exact h.vPutPage ..
      · exact h.reach (State.noteWalk_reach ..) rfl

theorem vPut (h : ArbitersKept r s) (die : Nat) (a : Access) (va : Nat) (bs : List Byte) : ArbitersKept r (s.vPut die a va bs).st :=
  h.vPutFuel ..

theorem putScales (h : ArbitersKept r s) (die : Nat) (a : Access) (d : Desc) (row : Nat) (l : List (Nat × Nat)) :
    ArbitersKept r (s.putScales die a d row l).st := by
  induction l generalizing s with
  | nil => exact h
  | cons p rest ih => exact ih (h.vPut die a _ _)

theorem streamRow (h : ArbitersKept r s) (die rev : Nat) (a : Access) (d : Desc) (row : Nat) (els : List (Nat × Val)) :
    ArbitersKept r (s.streamRow die rev a d row els).st := by
  have hfree : ArbitersKept r { s with free := s.free + 1 } := h.of_hbm rfl
  unfold State.streamRow
  extract_lets inT ok
  split
  · exact h
  · exact ((hfree.vPut ..).putScales ..).reach (State.postFlags_reach ..) rfl

theorem streamRows (h : ArbitersKept r s) (die rev : Nat) (a : Access) (d : Desc) (rows : List (Nat × List (Nat × Val))) :
    ArbitersKept r (s.streamRows die rev a d rows).st := by
  induction rows generalizing s with
  | nil => exact h
  | cons row rest ih => exact ih (h.streamRow ..)

/-! ## The commands of an engine -/

theorem setEng (h : ArbitersKept r s) (e : Nat) (x : Engine) : ArbitersKept r (s.setEng e x) := h.reach (State.setEng_reach ..) rfl

theorem emitDesc (h : ArbitersKept r s) (e : Nat) (v : VecCmd) (c : Chain) (k row0 : Nat) (rows : List (List VecResult)) :
    ArbitersKept r (s.emitDesc e v c k row0 rows) := by
  unfold State.emitDesc
  extract_lets placed
  dsimp only
  have hclamped := h.clamped (engCluster e) (s.chainDesc c v.outDesc).2
  refine iteThen (iteThen ?_ (.bump (refl _) ..)) ((refl _).reach (State.endWrite_reach ..) rfl)
  exact reach (bump (bump (hclamped.streamRows ..) ..) ..) (State.postFlags_reach ..) rfl

theorem emit (h : ArbitersKept r s) (e task : Nat) (v : VecCmd) (rows : List (List VecResult)) : ArbitersKept r (s.emit e task v rows) := by
  unfold State.emit
  split
  · exact h.reach (State.emitLens_reach ..) rfl
  split
  · exact h.emitDesc ..
  · exact h

theorem genEffect (h : ArbitersKept r s) (e task : Nat) (v : VecCmd) : ArbitersKept r (s.genEffect e task v) := by
  unfold State.genEffect
  split
  · exact h
  · exact ((h.clamped ..).bump ..).emit ..

theorem wr (h : ArbitersKept r s) (q : Reg) (u i : Nat) (v : Word) : ArbitersKept r (s.wr q u i v) := h.of_hbm rfl

theorem setFld (h : ArbitersKept r s) (f : Field) (u i n : Nat) : ArbitersKept r (s.setFld f u i n) := h.of_hbm rfl

theorem traceCmd (h : ArbitersKept r s) (level rtype e task opc index cycles : Nat) :
    ArbitersKept r (s.traceCmd level rtype e task opc index cycles) := h.reach (State.traceCmd_reach ..) rfl

theorem issuePass (h : ArbitersKept r s) (e : Nat) (c : PassCmd) (task index : Nat) : ArbitersKept r (s.issuePass e c task index) := by
  have hbuf : ArbitersKept r (if c.loadS then s.setArr engArrayStatusActiveBuf e (1 - s.fld engArrayStatusActiveBuf e) else s) :=
    h.iteThen (.setFld (refl _) ..)
  exact traceCmd (setEng (bump (reach (setFld (setFld (setFld (hbuf.bump ..) ..) ..) ..) (State.lensPutF32s_reach ..) rfl) ..) ..) ..

theorem beginPass (h : ArbitersKept r s) (e task index : Nat) (w : Words4) : ArbitersKept r (s.beginPass e task index w) := by
  unfold State.beginPass
  split
  extract_lets x first forced c u
  have hfaults : ArbitersKept r (u.lensFaults e task c.lensReads).1 := reach (h.clamped ..) (State.lensFaults_reach ..).fst rfl
  split
  next v stops heq =>
  have hv : ArbitersKept r v := hfaults.of_pair heq
  refine .ite hv ?_
  extract_lets opened atOpen started loaded
  have hloaded : ArbitersKept r loaded :=
    ((hv.reach (State.openTile_reach ..) rfl).setEng ..).iteThen ((refl _).reach (State.loadStationary_reach ..) rfl)
  have hramping := fun prof cols => (hloaded.reach (State.rampClamp_reach _ e prof) rfl).setFld engArrayStatusEngagedCols e 0 cols
  refine .ite ?_ (.ite (.ite ((hloaded.setFld ..).setEng ..) (.ite (hloaded.setEng ..) (hloaded.issuePass ..)))
    (((hloaded.setFld ..).setEng ..).setEng ..))
  exact ((hramping ..).setEng ..).setEng ..

theorem runVec (h : ArbitersKept r s) (e task index : Nat) (w : Words4) : ArbitersKept r (s.runVec e task index w) := by
  unfold State.runVec
  split
  next v n heq =>
  extract_lets u
  have hfaults : ArbitersKept r (u.lensFaults e task (v.reads.map (4, ·))).1 := reach (h.clamped ..) (State.lensFaults_reach ..).fst rfl
  split
  next v' stops heq =>
  have hv : ArbitersKept r v' := hfaults.of_pair heq
  refine .ite hv ?_
  extract_lets opened traced acc counted slots cycles issued
  have hissued : ArbitersKept r issued :=
    (((hv.reach (State.openTile_reach ..) rfl).traceCmd ..).bump ..).iteThen (((refl _).bump ..).bump ..)
  have hlens : ∀ u a v, ArbitersKept r u → ArbitersKept r (u.lensPutF32 e a v) := fun u a v hu => hu.reach (State.lensPutF32_reach ..) rfl
  refine traceCmd (bump (.ite hissued (.ite ((hissued.wr ..).wr ..) (.ite ?_ (.ite (hissued.reach (State.skipEffect_reach ..) rfl)
    (.ite (hissued.genEffect ..) (.ite ((hissued.reach (State.putRowStates_reach ..) rfl).emit ..) (hissued.emit ..))))))) ..) ..
  exact hlens _ _ _ (hlens _ _ _ (hlens _ _ _ hissued))

theorem runCmd (h : ArbitersKept r s) (e : Nat) (q : QueuedCmd) : ArbitersKept r (s.runCmd e q) :=
  .ite (h.beginPass ..) (.ite (h.reach (State.runMark_reach ..) rfl) (.ite (h.reach (State.runPoint_reach ..) rfl) (h.runVec ..)))

theorem drainCmds (h : ArbitersKept r s) (e fuel : Nat) : ArbitersKept r (s.drainCmds e fuel) := by
  induction fuel generalizing s with
  | zero => exact h
  | succ fuel ih =>
    unfold State.drainCmds
    split
    · exact ih ((h.setEng ..).runCmd ..)
    · exact h

theorem drain (h : ArbitersKept r s) (e : Nat) : ArbitersKept r (s.drain e) := h.drainCmds ..

/-! ## The work of a stage -/

theorem lensLoad (h : ArbitersKept r s) (c : Chain) (k : Nat) (g : Stage) (l : LensLoad) : ArbitersKept r (s.lensLoad c k g l).1 := by
  unfold State.lensLoad
  extract_lets die e
  dsimp only
  have hread := h.stageReads c k g ((s.chainDesc c l.desc.toNat).1.tileRuns l.tile.toNat)
  split
  next heq =>
    refine iteThen (reach (iteThen ((hread.of_pair heq).clamped ..) (.bump (refl _) ..)) (State.lensPut_reach ..) rfl) ?_
    exact (refl _).reach (State.lensPut_reach ..) rfl
  · exact hread

theorem lensLoads (h : ArbitersKept r s) (c : Chain) (k : Nat) (g : Stage) (l : List LensLoad) : ArbitersKept r (s.lensLoads c k g l) := by
  induction l generalizing s with
  | nil => exact drain (h.reach (State.setStageOf_reach ..) rfl) _
  | cons l ls ih =>
    have hload := h.lensLoad c k g l
    unfold State.lensLoads
    split
    next heq => exact ih (hload.of_pair heq)
    next heq => exact ((hload.of_pair heq).reach (State.setStageOf_reach ..) rfl).reach (State.endChain_reach ..) rfl
    next heq => exact (hload.of_pair heq).reach (State.readStops_reach ..) rfl

theorem slotReads (h : ArbitersKept r s) (c : Chain) (k : Nat) (g : Stage) (runs : List (Nat × Nat)) :
    ArbitersKept r (s.slotReads c k g runs).1 := h.chainReads ..

/-- The end of a stage's stores: the mask counted, and a fault ends the chain. -/
theorem stored (h : ArbitersKept r s) (die rev : Nat) (a : Access) (d : Desc) (rows : List (Nat × List (Nat × Val))) (c c' : Chain) (k : Nat) :
    ArbitersKept r (
      let e := s.streamRows die rev a d rows
      let s := if e.masked then e.st.bump .cluExtentMaskCnt c.cluster 0 1 else e.st
      if e.fault then s.endWrite c' k else s) :=
  have hrows := (h.streamRows die rev a d rows).iteThen (.bump (refl _) ..)
  hrows.iteThen ((refl _).reach (State.endWrite_reach ..) rfl)

theorem scatterItem (h : ArbitersKept r s) (c : Chain) (k : Nat) (g gin : Stage) : ArbitersKept r (s.scatterItem c k g gin) := by
  unfold State.scatterItem
  extract_lets die item
  dsimp only
  have hread := h.stageReads c k g ((s.chainDesc c g.inDesc).1.tileRuns item)
  split
  next heq => exact ((hread.of_pair heq).reach (State.setChain_reach ..) rfl).reach (State.endChain_reach ..) rfl
  next heq =>
    have hread' := fun runs => (hread.of_pair heq).slotReads c k g runs
    split
    next heq' =>
      exact stored (reach (bump (iteThen (((hread' _).of_pair heq').clamped ..) (.bump (refl _) ..)) ..) (State.setStageOf_reach ..) rfl) ..
    next heq' => exact (((hread' _).of_pair heq').reach (State.setChain_reach ..) rfl).reach (State.endChain_reach ..) rfl
    next heq' => exact ((hread' _).of_pair heq').reach (State.readStops_reach ..) rfl
  next heq => exact (hread.of_pair heq).reach (State.readStops_reach ..) rfl

theorem storeItem (h : ArbitersKept r s) (c : Chain) (k : Nat) (g gin : Stage) : ArbitersKept r (s.storeItem c k g gin) := by
  unfold State.storeItem
  extract_lets die item
  dsimp only
  have hread := fun c' n runs => slotReads ((h.clamped c.cluster n).reach (State.setChain_reach _ c') rfl) c k g runs
  split
  next heq => exact ((hread ..).of_pair heq).stored ..
  next heq => exact ((hread ..).of_pair heq).reach (State.endChain_reach ..) rfl
  next heq => exact (hread ..).of_pair heq

theorem itemWork (h : ArbitersKept r s) (c : Chain) (k : Nat) (g : Stage) : ArbitersKept r (s.itemWork c k g) := by
  unfold State.itemWork
  split
  · exact (h.setEng ..).lensLoads ..
  · exact h.fetchTile ..
  · exact h.storeItem ..
  · exact h.gatherItem ..
  · exact h.scatterItem ..
  · exact h

theorem retryStage (h : ArbitersKept r s) (ref : ChainRef) (k : Nat) : ArbitersKept r (s.retryStage ref k) := by
  unfold State.retryStage
  split
  · exact h
  split
  · exact .ite (h.itemWork ..) h
  · exact h

theorem retryChains (h : ArbitersKept r s) (cs : List Chain) : ArbitersKept r (s.retryChains cs) :=
  .foldl _ h fun _ _ hu => .foldl _ hu fun _ _ hv => hv.retryStage ..

theorem groupsBack (h : ArbitersKept r s) : ArbitersKept r s.groupsBack := (h.reissue _).retryChains _

end ArbitersKept

end Sys2Proof.Machine
end

section
/-!
SUPPORT. The statement about requests of maintenance, their admission, calibrations and self-tests (spec/08_hbm_and_protection.md R387, R400 to
R408).
-/
namespace Sys2Proof.Machine

theorem mem_setInsert_self (k : Nat) (l : List Nat) : k ∈ setInsert k l := by
  induction l with
  | nil => exact List.mem_singleton_self k
  | cons j l ih =>
    simp only [setInsert]
    split
    · exact List.mem_cons_self
    split
    next heq => exact heq ▸ List.mem_cons_self
    next => exact List.mem_cons_of_mem _ ih

@[simp] theorem State.setArb_setArb (s : State) (die : Nat) (x y : Arbiter) : (s.setArb die x).setArb die y = s.setArb die y := by
  unfold State.setArb
  split <;> rfl

/-! ## The register's request (R404) -/

theorem maintRequestEntryEffect_enters {s : State} {die : Fin 2} {a : MaintAct} {k : Nat} (hwaiting : (s.arb die.val).waiting = some a)
    (hfree : s.freeEntry die.val = some k) : maintRequestEntryEffect die s =
      (((s.setArb die.val ({ s.arb die.val with waiting := none }.enter a k)).showEntries die.val).setFld hbmcMaintReqPending die.val 0 0).setFld
        hbmcMaintReqActivity die.val 0 (actId a.kind k) := by
  have hentry : (s.setArb die.val { s.arb die.val with waiting := none }).freeEntry die.val = some k := by
    rw [← hfree, State.freeEntry, State.freeEntry, State.arb_setArb_self]
  simp only [maintRequestEntryEffect, hfree, hwaiting, State.enterAct_eq hentry, State.arb_setArb_self, State.setArb_setArb, Option.isNone_some,
    Bool.false_eq_true, if_false]

/-! ## Admission (R402) -/

theorem admissible_singleton (a : MaintAct) : admissible [a] a = true := by
  simp [admissible, blockerOf]

theorem State.enterCopiers_of_no_daymarks {s : State} (h : s.daymarks = []) : s.enterCopiers = s.showDaymarks := by
  simp only [State.enterCopiers, h, List.foldl_nil]

/-- R408: an admitted self-test only runs. -/
theorem State.startAct_selfTest {s : State} {die : Nat} {a : MaintAct} (hkind : a.kind = 3) : s.startAct die a = s.markRunning die a.entry := by
  simp [State.startAct, MaintAct.allGroups, hkind]

theorem maintAdmitEffect_acts {s : State} {die : Fin 2} {freed : BitVec 12} {a : MaintAct} (hdaymarks : s.daymarks = [])
    (hacts : (s.arb die.val).acts = [a]) (hkind : a.kind = 3) (hqueued : a.running = false) (hfreed : freed.getLsbD a.scope = true) :
    ((maintAdmitEffect die freed s).arb die.val).acts = [{ a with running := true }] := by
  have hshown : (s.showDaymarks.arb die.val).acts = [a] := by rw [s.showDaymarks_reach.arb_eq rfl, hacts]
  have hruns : s.showDaymarks.mayRun freed a = true := by simp [State.mayRun, MaintAct.allGroups, hkind, hfreed]
  have hstarted : ((s.showDaymarks.startAct die.val a).arb die.val).acts = [{ a with running := true }] := by
    simp [State.startAct_selfTest hkind, hshown]
  simp only [maintAdmitEffect, State.enterCopiers_of_no_daymarks hdaymarks, hshown, List.foldl_cons, List.foldl_nil, admissible_singleton,
    hqueued, hruns]
  exact (congrArg Arbiter.acts ((State.wakeCopier_reach ..).arb_eq rfl _)).trans hstarted

/-! ## Channel groups out of service and back (R405) -/

/-- A queued calibration's group leaves service and the calibration runs. -/
theorem calGroupOutEffect_runs {s : State} {die : Fin 2} {group : Fin 16} {a : MaintAct}
    (hfound : ((s.arb die.val).acts.find? fun x => x.kind == 2 && x.scope == group.val && !x.running) = some a) (hforce : a.force = false)
    (hadmissible : admissible (s.arb die.val).acts a = true) (hquiet : s.beam.quiet.isSome = true)
    (htime : s.dnat dkCalGroupTime ≤ s.quietLeft) : calGroupOutEffect die group s =
      State.markRunning { s with hbm := { s.hbm with outGroups := setInsert (die.val * 16 + group.val) s.hbm.outGroups } } die.val a.entry := by
  simp only [calGroupOutEffect, hfound, hforce, hadmissible, hquiet, htime, decide_true, Bool.not_false, Bool.and_self, if_true]

/-- A running calibration of one group ends and the group is in service. -/
theorem calGroupReturnEffect_ends {s : State} {die : Fin 2} {group : Fin 16} {a : MaintAct}
    (hfound : ((s.arb die.val).acts.find? fun x => x.kind == 2 && (x.scope == group.val || x.scope == 16) && x.running) = some a)
    (hscope : a.scope = group.val) :
    calGroupReturnEffect die group s = ((s.groupIn die.val group.val).endAct die.val a.entry false).groupsBack := by
  have hone : a.allGroups = false := by
    rw [MaintAct.allGroups, hscope, beq_false_of_ne group.isLt.ne, Bool.and_false]
  simp only [calGroupReturnEffect, hfound, hone, Bool.false_eq_true, if_false]

theorem State.requestCal_acts {s : State} {die group k : Nat} (hnone : s.actPending die 2 group = false) (hfree : s.freeEntry die = some k)
    (force : Bool) : ((s.requestCal die group force).arb die).acts =
      (s.arb die).acts ++ [{ entry := k, kind := 2, scope := group, groups := [group], force := force }] := by
  rw [State.requestCal, if_neg (by rw [hnone]; decide), State.submitAct_acts hfree]

/-! ## A self-test's end (R408) -/

theorem State.clearCluster_rdByte (s : State) (c : Nat) {off : Nat} (h : off < 0xC00000) : (s.clearCluster c).rdByte (clusterBase c + off) = 0#8 := by
  refine (lookupD_filter _ (fun p => decide (p < clusterBase c) || decide (clusterBase c + 0xC00000 ≤ p)) _ _).trans (if_neg ?_)
  simp only [Bool.or_eq_true, decide_eq_true_eq]
  omega

theorem selfTestDoneEffect_ends {s : State} {die : Fin 2} {cluster : Fin 12} {fail : Bool} {a : MaintAct}
    (hfound : ((s.arb die.val).acts.find? fun x => x.kind == 3 && x.scope == cluster.val && x.running) = some a) :
    selfTestDoneEffect die cluster fail s = (s.clearCluster (die.val * 12 + cluster.val)).endAct die.val a.entry fail := by
  simp only [selfTestDoneEffect, hfound]

/-- Settles O27: every clause by what its effect does to the die's table (`maintReq_enters`, `submitAct_acts`, `markRunning_acts`, `endAct_acts`);
what goes on when a channel group is back leaves the arbiters as they are (`ArbitersKept.groupsBack`). -/
theorem maintenanceRequestsAndCalibration : Obligations.MaintenanceRequestsAndCalibration := by
  refine ⟨?_, ?_, ?_, ?_, ?_, ?_, ?_, ?_, ?_⟩
  · rintro s die value k a ⟨hpending, hgo, hfree, hk⟩
    have hgo' : bitOf (if bitsOf value 0 3 = 3 ∨ bitsOf value 0 3 = 5 then withKind value 2 else value) 63 = true := by
      split
      · rw [bitOf_withKind_go, hgo]
      · exact hgo
    exact ⟨_, rfl, State.maintReq_enters hpending hgo' hfree (actId_lt (show (2 : Nat) < 8 by decide) hk)⟩
  · rintro s die value k a ⟨hpending, hgo, hfree, hk⟩
    exact ⟨_, rfl, State.maintReq_enters hpending ((bitOf_withKind_go ..).trans hgo) hfree (actId_lt (show (3 : Nat) < 8 by decide) hk)⟩
  · rintro s die value k a ⟨hpending, hgo, hfree, hk⟩
    exact ⟨_, rfl, State.maintReq_enters hpending ((bitOf_withKind_go ..).trans hgo) hfree (actId_lt (show (5 : Nat) < 8 by decide) hk)⟩
  · rintro s die a k ⟨hwaiting, hfree, hk, hkind⟩
    have harb : ∀ x : Arbiter, ((s.setArb die.val x).showEntries die.val).arb die.val = x := fun x => by
      rw [State.showEntries_arb, State.arb_setArb_self]
    refine ⟨_, congrArg Host.Outcome.next (maintRequestEntryEffect_enters hwaiting hfree), ⟨?_, ?_⟩, ?_, ?_⟩
    · exact congrArg Arbiter.acts (harb _)
    · exact congrArg Arbiter.waiting (harb _)
    · rw [State.fld_setFld_apart _ hbmcMaintReqActivity hbmcMaintReqPending _ _ _ rfl (by decide) (by decide),
        State.fld_setFld_self _ _ _ _ _ (by decide)]
      rfl
    · rw [State.fld_setFld_self _ _ _ _ _ (by decide)]
      exact Nat.mod_eq_of_lt (actId_lt hkind hk)
  · rintro s die freed a ⟨hdaymarks, hacts, hkind, hqueued, hfreed⟩
    exact ⟨_, rfl, maintAdmitEffect_acts hdaymarks hacts hkind hqueued hfreed⟩
  · rintro s die group a hfound ⟨hforce, hadmissible, hquiet, htime⟩
    refine ⟨_, congrArg Host.Outcome.next (calGroupOutEffect_runs hfound hforce hadmissible hquiet htime), ?_, State.markRunning_acts ..⟩
    rw [State.groupOut, State.markRunning_outGroups]
    exact List.contains_iff_mem.mpr (mem_setInsert_self ..)
  · rintro s die group a hfound hscope
    have hkept := (ArbitersKept.refl ((s.groupIn die.val group.val).endAct die.val a.entry false)).groupsBack
    refine ⟨_, congrArg Host.Outcome.next (calGroupReturnEffect_ends hfound hscope), ?_, ?_⟩
    · exact hkept.outGroups.trans (State.endAct_outGroups ..)
    · exact (congrArg Arbiter.acts (hkept.arb die.val)).trans (State.endAct_acts ..)
  · rintro s die group k a ⟨hnone, hfree, _⟩
    exact ⟨_, rfl, State.requestCal_acts hnone hfree false⟩
  · rintro s die cluster fail a hfound
    refine ⟨_, congrArg Host.Outcome.next (selfTestDoneEffect_ends hfound), State.endAct_acts .., fun off hoff => ?_⟩
    exact (congrArg (lookupD 0#8 _) ((State.endAct_reach ..).same .mem rfl)).trans (State.clearCluster_rdByte s _ hoff)

end Sys2Proof.Machine
end

section
/-!
SUPPORT. What accesses of memory leave of the page pool and of the dictionary (spec/09_capacity_pool.md R415, R426, R431, R450): a read, a write
or a copy of a frame changes frame records, may cancel moves and post uncorrectable addresses, and leaves the pool's other lists.
-/
namespace Sys2Proof.Machine

/-- The page pool apart from its frame records, its moves and the uncorrectable addresses posted to it. -/
def Pool.lists (p : Pool) : Pool := { p with frames := [], moves := [], uePosts := [] }

/-- The pool's other lists are as before, no move has been begun where none was under way, and no dictionary value below the owners' entries has
changed. -/
structure AccessKept (s t : State) : Prop where
  lists : t.pool.lists = s.pool.lists
  moves : s.pool.moves = [] → t.pool.moves = []
  dget : ∀ k, k < dictKey 0xA100 0 → t.dget k = s.dget k

namespace AccessKept
variable {r s t : State}

theorem refl (s : State) : AccessKept s s := ⟨rfl, id, fun _ _ => rfl⟩

theorem trans (h : AccessKept r s) (k : AccessKept s t) : AccessKept r t :=
  ⟨k.lists.trans h.lists, fun m => k.moves (h.moves m), fun d hd => (k.dget d hd).trans (h.dget d hd)⟩

theorem waiting (h : AccessKept s t) : t.pool.waiting = s.pool.waiting := (congrArg Pool.waiting h.lists :)
theorem cmdWait (h : AccessKept s t) : t.pool.cmdWait = s.pool.cmdWait := (congrArg Pool.cmdWait h.lists :)
theorem plans (h : AccessKept s t) : t.pool.plans = s.pool.plans := (congrArg Pool.plans h.lists :)
theorem retiring (h : AccessKept s t) : t.pool.retiring = s.pool.retiring := (congrArg Pool.retiring h.lists :)
theorem rebuilds (h : AccessKept s t) : t.pool.rebuilds = s.pool.rebuilds := (congrArg Pool.rebuilds h.lists :)

theorem ite {c : Prop} {_ : Decidable c} (h : AccessKept r s) (k : AccessKept r t) : AccessKept r (if c then s else t) := by
  split
  · exact h
  · exact k

theorem foldl {β : Type} {f : State → β → State} (l : List β) (h : AccessKept r s) (hf : ∀ t x, AccessKept r t → AccessKept r (f t x)) :
    AccessKept r (l.foldl f s) :=
  List.foldlRecOn l f h fun t ht x _ => hf t x ht

/-- What changes neither the pool nor the dictionary. -/
theorem of_same (h : AccessKept r s) (hpool : t.pool = s.pool) (hdict : t.dict = s.dict) : AccessKept r t :=
  h.trans ⟨congrArg Pool.lists hpool, fun m => (congrArg Pool.moves hpool).trans m, fun d _ => by rw [State.dget, hdict, State.dget]⟩

theorem reach {F : Nat} (h : AccessKept r s) (k : Reach F s t) (hpool : F.testBit 12 = false) (hdict : F.testBit 14 = false) :
    AccessKept r t := h.of_same (k.same .pool hpool) (k.same .dict hdict)

/-- The state of a pair. -/
theorem of_pair {α : Type} {p : State × α} {x : α} (h : AccessKept r p.1) (e : p = (t, x)) : AccessKept r t := by
  rw [e] at h
  exact h

theorem bump (h : AccessKept r s) (q : Reg) (u i n : Nat) : AccessKept r (s.bump q u i n) := h.of_same rfl rfl

/-! ## Frames (R415, R426, R431) -/

theorem setFrame (h : AccessKept r s) (n : Nat) (f : FrameRec) : AccessKept r (s.setFrame n f) := h.trans ⟨rfl, id, fun _ _ => rfl⟩

theorem showUse (h : AccessKept r s) (owner : Nat) : AccessKept r (s.showUse owner) := by
  have hpool : (s.showUse owner).pool = s.pool := (State.showUse_reach ..).same .pool rfl
  refine h.trans ⟨congrArg Pool.lists hpool, fun m => (congrArg Pool.moves hpool).trans m, fun k hk => ?_⟩
  have hbelow : k ≠ dkHbmHeld owner := by
    rw [dkHbmHeld, dictKey]
    rw [dictKey] at hk
    omega
  unfold State.showUse
  extract_lets cnt put
  have hput : ∀ u d, (put u d).dget k = u.dget k := fun u d => State.wr_dget ..
  rw [State.dget_dput_ne _ _ hbelow, hput, hput]

theorem freeFrame (h : AccessKept r s) (n : Nat) : AccessKept r (s.freeFrame n) := (h.setFrame n {}).showUse _

theorem postUe (h : AccessKept r s) (base : Nat) : AccessKept r (s.postUe base) := h.trans ⟨rfl, id, fun _ _ => rfl⟩

theorem cancelMove (h : AccessKept r s) (m : Move) : AccessKept r (s.cancelMove m) := by
  unfold State.cancelMove
  extract_lets counted pool dropped f stopped freed
  have hdropped : AccessKept r dropped :=
    (h.bump ..).trans ⟨rfl, fun hnone => congrArg (List.filter _) hnone, fun _ _ => rfl⟩
  have hfreed : AccessKept r freed := .ite (hdropped.setFrame ..) ((hdropped.setFrame ..).freeFrame _)
  split
  · exact hfreed.of_same rfl rfl
  · exact hfreed

theorem touchWrite (h : AccessKept r s) (pa len : Nat) : AccessKept r (s.touchWrite pa len) := by
  unfold State.touchWrite
  dsimp only
  split
  · exact h
  · refine setFrame ?_ ..
    split
    · exact h.cancelMove _
    · exact h

theorem touchRead (h : AccessKept r s) (pa : Nat) : AccessKept r (s.touchRead pa) := .ite h (h.setFrame ..)

/-! ## Sectors (R374 to R385) -/

theorem putRaw (h : AccessKept r s) (pa : Nat) (bs : List Byte) : AccessKept r (s.putRaw pa bs) := h.reach (State.putRaw_reach ..) rfl rfl

theorem putMem (h : AccessKept r s) (pa : Nat) (bs : List Byte) : AccessKept r (s.putMem pa bs) :=
  .ite h (((h.putRaw pa bs).touchWrite ..).reach (State.touchTable_reach ..) rfl rfl)

theorem dropWritebacks (h : AccessKept r s) (lo n : Nat) : AccessKept r (s.dropWritebacks lo n) := h.of_same rfl rfl

theorem queueWriteback (h : AccessKept r s) (pa owner : Nat) : AccessKept r (s.queueWriteback pa owner) :=
  h.reach (State.queueWriteback_reach ..) rfl rfl

theorem noteSector (h : AccessKept r s) (ctl pa owner : Nat) (severity : Bool) : AccessKept r (s.noteSector ctl pa owner severity).1 := by
  have hlogged : ∀ {u : State} (q : Reg) (sev mark : Bool), AccessKept r u →
      AccessKept r (((u.bump q ctl 0 1).logUe ctl (pa / 32 * 32) owner sev mark).postUe (pa / 32 * 32)) := fun q _ _ hu =>
    ((hu.bump q ctl 0 1).reach (State.logUe_reach ..) rfl rfl).postUe _
  unfold State.noteSector
  dsimp only
  split
  · exact hlogged _ _ _ (h.of_same rfl rfl)
  split
  · exact h
  · exact h.bump ..
  · exact hlogged _ _ _ h
  · exact hlogged _ _ _ h

theorem readSector (h : AccessKept r s) (ctl pa owner : Nat) (severity : Bool) : AccessKept r (s.readSector ctl pa owner severity).1 :=
  (h.bump _ _ _ 1).noteSector ctl pa owner severity

theorem serveHbm (h : AccessKept r s) (ctl : Nat) (q : HbmReq) (severity : Bool) : AccessKept r (s.serveHbm ctl q severity) := by
  have hwrite : AccessKept r ((if q.mask = BitVec.allOnes 32 then s else s.bump .hbmcPartialWrCnt ctl 0 1).countSector ctl) :=
    .bump (.ite h (h.bump ..)) ..
  have hread := h.readSector ctl (q.addr / 32 * 32) q.owner severity
  unfold State.serveHbm
  dsimp only
  split
  · exact ((h.putRaw ..).bump ..).bump ..
  split
  · exact .ite (hwrite.of_same rfl rfl) (hwrite.putMem ..)
  split
  · exact ((hread.queueWriteback ..).touchRead _).of_same rfl rfl
  · exact (hread.touchRead _).of_same rfl rfl

theorem flushSectors (h : AccessKept r s) (pa n : Nat) : AccessKept r (s.flushSectors pa n) := by
  refine .foldl _ h fun u p hu => .ite hu ?_
  exact .foldl _ (hu.of_same rfl rfl) fun v q hv => hv.serveHbm ..

theorem useSector (h : AccessKept r s) (owner base : Nat) : AccessKept r (s.useSector owner base) := by
  have hread := h.readSector (hbmPlace s.harbour base).1 base owner false
  unfold State.useSector
  split
  next heq => exact (hread.of_pair heq).queueWriteback ..
  next heq => exact hread.of_pair heq

/-! ## Reads and writes of memory (R271, R281, R405) -/

theorem useSlots (h : AccessKept r s) (a : Access) (pa n : Nat) : AccessKept r (s.useSlots a pa n) :=
  h.reach (State.useSlots_reach ..) rfl rfl

theorem devWrite (h : AccessKept r s) (a : Access) (pa : Nat) (bs : List Byte) : AccessKept r (s.devWrite a pa bs) := by
  have hflushed := h.flushSectors pa bs.length
  refine .ite h (.ite (h.bump ..) (.ite (.ite (hflushed.of_same rfl rfl) (.putMem (.foldl _ hflushed fun u k hu => hu.bump ..) ..))
    (.ite (h.of_same rfl rfl) ((h.useSlots ..).putMem ..))))

theorem virtWrite (h : AccessKept r s) (a : Access) (die va : Nat) (bs : List Byte) : AccessKept r (s.virtWrite a die va bs) := by
  unfold State.virtWrite
  split
  · exact h.devWrite ..
  · exact h

theorem didRead (h : AccessKept r s) (a : Access) (pa n : Nat) : AccessKept r (s.didRead a pa n) := by
  have htouched := h.touchRead pa
  exact .ite (.foldl _ (htouched.flushSectors pa n) fun u k hu => hu.useSector ..)
    ((htouched.useSlots ..).reach (State.checkSram_reach ..) rfl rfl)

theorem readLine (h : AccessKept r s) (g : Landing) (i : Nat) : AccessKept r (s.readLine g i).1 := by
  unfold State.readLine
  dsimp only
  split
  · exact h
  · exact .foldl _ h fun _ _ hu => hu.didRead ..

/-! ## Frames copied and pages switched (R428, R430, R434) -/

theorem scanFrame (h : AccessKept r s) (a : Access) (n : Nat) : AccessKept r (s.scanFrame a n) := by
  unfold State.scanFrame
  refine .ite ?_ ?_
  · refine .foldl _ ((h.flushSectors ..).reach (State.countFrame_reach ..) rfl rfl) fun u k hu => ?_
    have hnoted := hu.noteSector (hbmPlace u.harbour (k * 32)).1 (k * 32) a.owner false
    split
    next heq => exact (hnoted.of_pair heq).queueWriteback ..
    next heq => exact hnoted.of_pair heq
  · exact .foldl _ (h.useSlots ..) fun u k hu => hu.reach (State.logParity_reach ..) rfl rfl

theorem copyFrame (h : AccessKept r s) (src dst : Nat) : AccessKept r (s.copyFrame src dst) := by
  unfold State.copyFrame
  extract_lets a scanned bytes bad base counted slots
  have hcounted : AccessKept r counted :=
    (((h.scanFrame a src).flushSectors base 65536).dropWritebacks ..).reach (State.countFrame_reach ..) rfl rfl
  have hslots : AccessKept r slots := hcounted.useSlots a base 65536
  exact .foldl _ (hslots.of_same rfl rfl) fun u k hu => hu.reach (State.markPoison_reach ..) rfl rfl

theorem switchPage (h : AccessKept r s) (owner vpage src dst : Nat) : AccessKept r (s.switchPage owner vpage src dst) := by
  unfold State.switchPage
  extract_lets on pointed atDst atSrc kept
  have hon : ∀ u die, AccessKept r u → AccessKept r (on u die) := by
    intro u die hu
    dsimp only [on]
    split
    · exact .ite (hu.putRaw ..) hu
    · exact hu
  have hkept : AccessKept r kept := ((hon _ 1 (hon _ 0 h)).setFrame ..).setFrame ..
  exact hkept.of_same rfl rfl

theorem dropCached (h : AccessKept r s) (n : Nat) : AccessKept r (s.dropCached n) := by
  unfold State.dropCached
  dsimp only
  split
  · exact (h.switchPage ..).freeFrame _
  · exact h.freeFrame _

end AccessKept

end Sys2Proof.Machine
end

section
/-!
SUPPORT. Frames by tier and what a request or a move takes (spec/09_capacity_pool.md R412 to R430, R435): states that agree on the pool and on the
address map hold the same frames by tier, a frame that is free for its owner is taken at once, and the frame record that each operation leaves.
-/
namespace Sys2Proof.Machine

/-! ## Frame records -/

@[simp] theorem State.frame_setFrame_self (s : State) (n : Nat) (f : FrameRec) : (s.setFrame n f).frame n = f := lookupD_putD_self ..

theorem State.frame_setFrame_ne {n k : Nat} (h : k ≠ n) (s : State) (f : FrameRec) : (s.setFrame n f).frame k = s.frame k :=
  lookupD_putD_ne _ _ h _ _

theorem Reach.pool_eq {F : Nat} {s t : State} (h : Reach F s t) (m : F.testBit 12 = false) : t.pool = s.pool := h.same .pool m

theorem Reach.frame_eq {F : Nat} {s t : State} (h : Reach F s t) (m : F.testBit 12 = false) (n : Nat) : t.frame n = s.frame n :=
  congrArg (fun p : Pool => lookupD ({} : FrameRec) n p.frames) (h.pool_eq m)

@[simp] theorem State.showUse_pool (s : State) (owner : Nat) : (s.showUse owner).pool = s.pool := (State.showUse_reach ..).pool_eq rfl

@[simp] theorem State.showUse_frame (s : State) (owner n : Nat) : (s.showUse owner).frame n = s.frame n := (State.showUse_reach ..).frame_eq rfl n

@[simp] theorem State.freeFrame_frame_self (s : State) (n : Nat) : (s.freeFrame n).frame n = {} := by
  simp only [State.freeFrame, State.showUse_frame, State.frame_setFrame_self]

theorem State.freeFrame_frame_ne {n k : Nat} (h : k ≠ n) (s : State) : (s.freeFrame n).frame k = s.frame k := by
  simp only [State.freeFrame, State.showUse_frame, State.frame_setFrame_ne h]

/-! ## States that hold the same frames -/

/-- Two states with the same pool and the same address map, so that every frame has the same tier, die and holder. -/
structure SamePlaces (s t : State) : Prop where
  virtual : SameVirtual s t
  pool : t.pool = s.pool
  sram : t.sram = s.sram

theorem Reach.samePlaces {F : Nat} {s t : State} (h : Reach F s t) (hout : ∀ c ∈ virtualCells, F.testBit c.code = false)
    (hpool : F.testBit 12 = false) (hsram : F.testBit 10 = false) : SamePlaces s t :=
  ⟨h.sameVirtual hout, h.pool_eq hpool, h.same .sram hsram⟩

theorem SamePlaces.refl (s : State) : SamePlaces s s := ⟨⟨rfl, rfl, rfl, rfl, rfl, rfl, fun _ _ => rfl⟩, rfl, rfl⟩

namespace SamePlaces
variable {s t : State} (h : SamePlaces s t)
include h

theorem frame (n : Nat) : t.frame n = s.frame n := by rw [State.frame, h.pool, State.frame]

theorem frameTier (n : Nat) : t.frameTier n = s.frameTier n := by
  simp only [State.frameTier, State.tierOf, h.virtual.phys]

theorem frameDie (n : Nat) : t.frameDie n = s.frameDie n := by
  simp only [State.frameDie, h.virtual.phys, h.frame]

theorem dget (k : Nat) : t.dget k = s.dget k := by rw [State.dget, h.virtual.dict, State.dget]

theorem held (owner tier die : Nat) : t.held owner tier die = s.held owner tier die := by
  simp only [State.held, h.pool, h.frameTier, h.frameDie]

theorem pinnedIn (owner tier die : Nat) : t.pinnedIn owner tier die = s.pinnedIn owner tier die := by
  simp only [State.pinnedIn, h.pool, h.frameTier, h.frameDie]

theorem ceilOf (owner tier : Nat) : t.ceilOf owner tier = s.ceilOf owner tier := by
  simp only [State.ceilOf, State.dnat, h.dget]

theorem floorOf (owner tier : Nat) : t.floorOf owner tier = s.floorOf owner tier := by
  simp only [State.floorOf, State.dnat, h.dget]

theorem tierRange (tier die : Nat) : t.tierRange tier die = s.tierRange tier die := by
  simp only [State.tierRange, State.dnat, h.dget, h.virtual.order, h.virtual.harbour]

theorem outside (n : Nat) : t.outside n = s.outside n := by
  simp only [State.outside, State.isHole, h.virtual.phys, h.virtual.fuses, h.frameTier, h.frameDie, h.sram]

theorem lowestFree (n fuel : Nat) : t.lowestFree n fuel = s.lowestFree n fuel := by
  induction fuel generalizing n with
  | zero => rfl
  | succ fuel ih => simp only [State.lowestFree, h.frame, h.outside, ih]

end SamePlaces

/-! ## A frame that is free for an owner (R427) -/

/-- The owner may have one more frame of the tier, and `n` is the lowest that is free. -/
structure FreeFor (s : State) (tier die owner n : Nat) : Prop where
  used : s.dget (dkOwnerMode owner) ≠ 0
  below : s.held owner tier die < s.ceilOf owner tier
  lowest : s.lowestFree (s.tierRange tier die).1 (s.tierRange tier die).2 = some n

theorem SamePlaces.freeFor {s t : State} (h : SamePlaces s t) {tier die owner n : Nat} (k : FreeFor s tier die owner n) :
    FreeFor t tier die owner n :=
  ⟨by rw [h.dget]; exact k.used, by rw [h.held, h.ceilOf]; exact k.below, by rw [h.tierRange, h.lowestFree]; exact k.lowest⟩

theorem FreeFor.takeFrame {s : State} {tier die owner n : Nat} (h : FreeFor s tier die owner n) : s.takeFrame tier die owner = .free n := by
  simp only [State.takeFrame, if_neg h.used, if_neg (Nat.not_le.mpr h.below), h.lowest]

theorem FreeFor.obtain {s : State} {tier die owner n : Nat} (h : FreeFor s tier die owner n) (fuel : Nat) :
    s.obtain (fuel + 1) tier die owner = (s, some n) := by
  rw [State.obtain, h.takeFrame]

theorem State.lowestFree_isFree {s : State} {n fuel k : Nat} (h : s.lowestFree n fuel = some k) : (s.frame k).st = .free := by
  induction fuel generalizing n with
  | zero => cases h
  | succ fuel ih =>
    rw [State.lowestFree] at h
    split at h
    next hfree =>
      cases h
      simpa using (Bool.and_eq_true_iff.mp hfree).1
    next => exact ih h

/-! ## A frame given to a request (R415, R426, R591) -/

/-- What a frame record says of whose page it is and how it was last used; the tensor table says nothing of these. -/
structure FrameRec.Given (f : FrameRec) (r : FrameReq) (stamp : Nat) : Prop where
  st : f.st = .resident
  owner : f.owner = r.owner
  vpage : f.vpage = r.vpage
  homeDie : f.homeDie = r.die
  lastUse : f.lastUse = stamp

theorem State.namePage_given (s : State) (die owner prog vpage : Nat) {f : FrameRec} {r : FrameReq} {stamp : Nat} (h : f.Given r stamp) :
    (s.namePage die owner prog vpage f).Given r stamp := by
  refine List.foldlRecOn (motive := fun g : FrameRec => g.Given r stamp) _ _ h fun g hg i _ => ?_
  refine List.foldlRecOn (motive := fun g : FrameRec => g.Given r stamp) _ _ hg fun g hg c _ => ?_
  split
  · exact ⟨hg.st, hg.owner, hg.vpage, hg.homeDie, hg.lastUse⟩
  · exact hg

theorem State.give_given (s : State) (r : FrameReq) (n : Nat) : ((s.give r n).frame n).Given r s.stampNow := by
  have hnew : FrameRec.Given { st := .resident, owner := r.owner, vpage := r.vpage, homeDie := r.die, lastUse := s.stampNow } r s.stampNow :=
    ⟨rfl, rfl, rfl, rfl, rfl⟩
  simp only [State.give, State.showUse_frame, State.frame_setFrame_self]
  split
  · exact s.namePage_given _ _ _ _ hnew
  · exact hnew

theorem State.give_accessKept (s : State) (r : FrameReq) (n : Nat) : AccessKept s (s.give r n) := ((AccessKept.refl s).setFrame ..).showUse _

theorem FreeFor.serveReq {s : State} {r : FrameReq} {n : Nat} (h : FreeFor s r.tier r.die r.owner n) : s.serveReq r = (s.give r n, true) := by
  simp only [State.serveReq, h.obtain 2]

/-! ## The request that a checkpoint's tier makes (R218, R442) -/

/-- Placing a request decides its tier alone. -/
theorem State.placeReq_request (s : State) (r : FrameReq) : (s.placeReq r).2.owner = r.owner ∧ (s.placeReq r).2.die = r.die ∧
    (s.placeReq r).2.vpage = r.vpage := by
  unfold State.placeReq
  split
  · exact ⟨rfl, rfl, rfl⟩
  · split
    · exact ⟨rfl, rfl, rfl⟩
    · exact ⟨rfl, rfl, rfl⟩

/-- The request that FRAME_REQUEST makes. -/
abbrev frameReqOf (owner : BitVec 6) (tier : Fin 3) (die : Fin 2) (vpage : BitVec 32) (chain : Option ChainRef) : FrameReq :=
  { owner := owner.toNat, tier := tier.val, die := die.val, vpage := vpage.toNat, chain := chain }

/-- R424, R427: with none of its queue waiting a request takes the frame that is free for it. -/
theorem frameRequestEffect_gives {s : State} {owner : BitVec 6} {tier : Fin 3} {die : Fin 2} {vpage : BitVec 32} {chain : Option ChainRef} {n : Nat}
    {r : FrameReq} (hreq : (s.placeReq (frameReqOf owner tier die vpage chain)).2 = r)
    (hfirst : (s.pool.waiting.any fun q : FrameReq => q.beside r) = false) (hfree : FreeFor s r.tier r.die r.owner n) :
    frameRequestEffect owner tier die vpage chain s = (s.placeReq (frameReqOf owner tier die vpage chain)).1.give r n := by
  have hplaced := (s.placeReq_reach (frameReqOf owner tier die vpage chain)).fst
  have hsame : SamePlaces s (s.placeReq (frameReqOf owner tier die vpage chain)).1 := hplaced.samePlaces (by decide) rfl rfl
  unfold frameRequestEffect
  simp only [hreq, hplaced.pool_eq rfl, hfirst, (hsame.freeFor hfree).serveReq, Bool.false_eq_true, if_false, if_true]

/-- R424: behind a request of its queue a request waits. -/
theorem frameRequestEffect_waits {s : State} {owner : BitVec 6} {tier : Fin 3} {die : Fin 2} {vpage : BitVec 32} {chain : Option ChainRef}
    {r : FrameReq} (hreq : (s.placeReq (frameReqOf owner tier die vpage chain)).2 = r)
    (hbehind : (s.pool.waiting.any fun q : FrameReq => q.beside r) = true) :
    (frameRequestEffect owner tier die vpage chain s).pool.waiting = s.pool.waiting ++ [r] ∧
      (frameRequestEffect owner tier die vpage chain s).pool.frames = s.pool.frames := by
  have hpool := (s.placeReq_reach (frameReqOf owner tier die vpage chain)).fst.pool_eq rfl
  unfold frameRequestEffect
  simp only [hreq, hpool, hbehind, if_true, and_self]

/-! ## Requests tried again (R424, R429, R435) -/

theorem State.retryList_of_free {s : State} {r : FrameReq} {n : Nat} (h : FreeFor s r.tier r.die r.owner n) :
    s.retryList [] [r] = { s.give r n with pool := { (s.give r n).pool with waiting := [] } } := by
  simp only [State.retryList, h.serveReq, List.any_nil, Bool.false_eq_true, if_false, if_true]

/-- With nothing waiting a retry changes nothing. -/
theorem State.retryWaiting_of_none {s : State} (h : s.pool.waiting = []) : s.retryWaiting = s := by
  have hpool : { s.pool with waiting := [] } = s.pool := by rw [← h]
  rw [State.retryWaiting, h, State.retryList, hpool]

/-- The die's one waiting request is served, and the moves of the other die wait on. -/
theorem frameRequestRetryEffect_gives {s : State} {die : Fin 2} {r : FrameReq} {n : Nat} (hwaiting : s.pool.waiting = [r])
    (hmine : r.tier = 2 ∨ r.die = die.val) (hcmd : (s.pool.cmdWait.all fun w : Nat × Nat × Nat × Nat => w.1 != die.val) = true)
    (hfree : FreeFor s r.tier r.die r.owner n) : let t := frameRequestRetryEffect die s
    t.frame n = (s.give r n).frame n ∧ t.pool.waiting = [] ∧ t.pool.cmdWait = s.pool.cmdWait := by
  have hturn : (r.tier == 2 || r.die == die.val) = true := by simpa using hmine
  have hwait : (s.give r n).pool.cmdWait = s.pool.cmdWait := (s.give_accessKept r n).cmdWait
  have hothers : (s.pool.cmdWait.filter fun w => w.1 != die.val) = s.pool.cmdWait :=
    List.filter_eq_self.mpr fun w hw => List.all_eq_true.mp hcmd w hw
  have hnone : (s.pool.cmdWait.filter fun w => w.1 == die.val) = [] :=
    List.filter_eq_nil_iff.mpr fun w hw => by simpa using List.all_eq_true.mp hcmd w hw
  have hserved : frameRequestRetryEffect die s = { s.give r n with pool := { (s.give r n).pool with waiting := [] } } := by
    simp only [frameRequestRetryEffect, hwaiting, List.filter_cons, hturn, List.filter_nil, State.retryList_of_free hfree, Bool.not_true,
      Bool.false_eq_true, if_true, if_false, List.append_nil, hwait, hothers, hnone, List.foldl_nil]
  rw [hserved]
  generalize s.give r n = t at hwait ⊢
  exact ⟨rfl, rfl, hwait⟩

/-! ## A wait that lasts too long (R429, R435) -/

theorem State.moveResult_busy (s : State) (die res : Nat) : (s.moveResult die res).fld poolMoveStatusBusy die = 0 := by
  rw [State.moveResult, State.fld_setFld_apart _ poolMoveStatusResult poolMoveStatusBusy _ _ _ rfl (by decide) (by decide),
    State.fld_setFld_self _ _ _ _ _ (by decide)]
  rfl

theorem State.moveResult_result (s : State) (die : Nat) {res : Nat} (h : res < 4) : (s.moveResult die res).fld poolMoveStatusResult die = res := by
  rw [State.moveResult, State.fld_setFld_self _ _ _ _ _ (by decide)]
  exact Nat.mod_eq_of_lt h

/-- R349, R367: the end of a chain that fails, alone in its record, is counted, and logged where the log is free. -/
theorem State.endChain_counts_and_logs {s : State} {c : Chain} {status : Nat} (habort : c.aborting = none) (hbad : goodStatus status = false)
    (hcode : status < 256) (halone : (s.chains.filter fun d : Chain => d.launch == c.launch) = [c]) (hfree : s.fld cluChainLogValid c.cluster = 0)
    (stage : Nat) : (s.endChain c status stage).rd .cluChainEndCnt c.cluster 0 = s.rd .cluChainEndCnt c.cluster 0 + 1#64 ∧
      (s.endChain c status stage).fld cluChainLogStatus c.cluster = status := by
  have hended := State.endChain_reach_of_failure habort hbad halone stage
  have hnotOk : status ≠ stOk := by rintro rfl; cases hbad
  exact ⟨(hended.rd_eq _ rfl ..).trans (State.closeChain_rd_endCnt ..),
    (hended.fld_eq _ rfl ..).trans (State.closeChain_fld_status hfree hnotOk hcode stage)⟩

/-- A failure leaves the pool. -/
theorem State.endChain_pool {s : State} {c : Chain} {status : Nat} (habort : c.aborting = none) (hbad : goodStatus status = false)
    (halone : (s.chains.filter fun d : Chain => d.launch == c.launch) = [c]) (stage : Nat) : (s.endChain c status stage).pool = s.pool :=
  ((State.endChain_reach_of_failure habort hbad halone stage).pool_eq rfl).trans ((State.closeChain_reach ..).pool_eq rfl)

/-- R429: the one request that waits ends its chain. -/
theorem poolWaitTimeoutEffect_ends {s : State} {die : Fin 2} {owner : BitVec 6} {vpage ms : BitVec 32} {ref : ChainRef} {q : FrameReq} {c : Chain}
    (hlimit : s.dnat dkPoolWaitLimit ≤ ms.toNat) (hwaiting : s.pool.waiting = [q]) (hchain : s.findChain ref = some c)
    (hmine : (q.die == die.val && q.owner == owner.toNat && q.vpage == vpage.toNat) = true) (href : q.chain = some ref) :
    poolWaitTimeoutEffect die owner vpage ms s = (({ s with pool := { s.pool with waiting := [] } } : State).endChain c stTierFail 0).retryWaiting := by
  have hfound : ({ s with pool := { s.pool with waiting := [] } } : State).findChain ref = some c := hchain
  unfold poolWaitTimeoutEffect
  simp only [if_neg (Nat.not_lt.mpr hlimit), hwaiting, List.find?_cons, hmine, List.filter_cons, Bool.not_true, Bool.false_eq_true, if_false,
    List.filter_nil, href, Option.bind_some, hfound]

/-- Settles O28: a request that is free to take a frame is given it (`give_given`), another waits, and what waits too long is ended. -/
theorem frameRequestsAndWaits : Obligations.FrameRequestsAndWaits := by
  refine ⟨?served, ?behind, ?retried, ?timedOut, ?moveTimedOut⟩
  case served =>
    rintro s owner tier die vpage chain n r hfirst ⟨hused, hbelow⟩ hlowest
    obtain ⟨howner, hdie, hvpage⟩ := s.placeReq_request (frameReqOf owner tier die vpage chain)
    have hfree : FreeFor s r.tier r.die r.owner n := by
      rw [show r.owner = owner.toNat from howner, show r.die = die.val from hdie]
      exact ⟨hused, hbelow, hlowest⟩
    have hreach := (s.placeReq_reach (frameReqOf owner tier die vpage chain)).fst
    have hstamp : (s.placeReq (frameReqOf owner tier die vpage chain)).1.stampNow = s.stampNow := by
      rw [State.stampNow, State.beamNow, hreach.same .beam rfl]
      rfl
    have hgiven := State.give_given (s.placeReq (frameReqOf owner tier die vpage chain)).1 r n
    refine ⟨_, congrArg Host.Outcome.next (frameRequestEffect_gives rfl hfirst hfree), ?_, ?_⟩
    · exact ⟨hgiven.st, hgiven.owner.trans howner, hgiven.vpage.trans hvpage, hgiven.homeDie.trans hdie, hgiven.lastUse.trans hstamp⟩
    · rw [(State.give_accessKept ..).waiting, hreach.pool_eq rfl]
  case behind =>
    rintro s owner tier die vpage chain r hbehind
    exact ⟨_, rfl, frameRequestEffect_waits (r := r) rfl hbehind⟩
  case retried =>
    rintro s die r n ⟨hwaiting, hmine, hcmd⟩ ⟨hused, hbelow⟩ hlowest
    have hgiven := s.give_given r n
    obtain ⟨hframe, hrest⟩ := frameRequestRetryEffect_gives hwaiting hmine hcmd ⟨hused, hbelow, hlowest⟩
    refine ⟨_, rfl, ?_, hrest⟩
    rw [hframe]
    exact ⟨hgiven.st, hgiven.owner, hgiven.vpage, hgiven.homeDie, hgiven.lastUse⟩
  case timedOut =>
    rintro s die owner vpage ms ref q c ⟨hlimit, hwaiting, hchain, habort⟩ ⟨hdie, howner, hvpage, href⟩ ⟨halone, hfree⟩
    have hmine : (q.die == die.val && q.owner == owner.toNat && q.vpage == vpage.toNat) = true := by simp [hdie, howner, hvpage]
    have hpool := State.endChain_pool (s := { s with pool := { s.pool with waiting := [] } }) (status := stTierFail) habort rfl halone 0
    refine ⟨_, congrArg Host.Outcome.next (poolWaitTimeoutEffect_ends hlimit hwaiting hchain hmine href), ?_⟩
    rw [State.retryWaiting_of_none (congrArg Pool.waiting hpool)]
    exact ⟨State.endChain_counts_and_logs (s := { s with pool := { s.pool with waiting := [] } }) habort rfl (by decide) halone hfree 0,
      congrArg Pool.waiting hpool⟩
  case moveTimedOut =>
    rintro s die owner vpage ms ⟨hlimit, hwaiting⟩ hmove
    refine ⟨_, rfl, ?_⟩
    simp only [poolWaitTimeoutEffect, if_neg (Nat.not_lt.mpr hlimit), hwaiting, List.find?_nil, hmove, if_true]
    exact ⟨State.moveResult_busy .., State.moveResult_result _ _ (by decide)⟩

end Sys2Proof.Machine
end

section
/-!
SUPPORT. The statement about POOL_MOVE_CMD (spec/09_capacity_pool.md R415, R428 to R435): the operation that a write with GO begins, the rows of
R435 that it comes to, and the end of a move.
-/
namespace Sys2Proof.Machine

/-! ## The operation that a write begins -/

/-- The state in which the operation of a write of POOL_MOVE_CMD runs: the fields stored, BUSY set. -/
def State.moveBegun (s : State) (die : Nat) (value : Word) : State := (s.storeReg .poolMoveCmd die 0 value).setFld poolMoveStatusBusy die 0 1

theorem State.moveBegun_reach (s : State) (die : Nat) (value : Word) :
    Reach 0x28000000000000000000000000000000000000 s (s.moveBegun die value) := by
  exact (Reach.storeReg (.refl ..) rfl).setFld rfl

theorem State.moveResult_pool (s : State) (die res : Nat) : (s.moveResult die res).pool = s.pool := (State.moveResult_reach ..).pool_eq rfl

@[simp] theorem State.moveResult_frame (s : State) (die res n : Nat) : (s.moveResult die res).frame n = s.frame n :=
  (State.moveResult_reach ..).frame_eq rfl n

theorem State.moveBegun_samePlaces (s : State) (die : Nat) (value : Word) : SamePlaces s (s.moveBegun die value) :=
  (s.moveBegun_reach die value).samePlaces (by decide) rfl rfl

theorem State.moveBegun_busy (s : State) (die : Nat) (value : Word) : (s.moveBegun die value).fld poolMoveStatusBusy die = 1 := by
  rw [State.moveBegun, State.fld_setFld_self _ _ _ _ _ (by decide)]
  rfl

/-- R435: with GO, while BUSY is 0, the operation runs on the page that POOL_MOVE_ADDR names. -/
theorem State.writeMoveCmd_of_go {s : State} {die op : Nat} {value : Word} (hop : moveOp value = op) (hgo : bitOf value 63 = true)
    (hidle : s.fld poolMoveStatusBusy die = 0) : s.writeMoveCmd die op value =
      (s.moveBegun die value).runMoveCmd die op (min 2 (bitsOf value 2 2)) (bitsOf value 4 6) (s.fld poolMoveAddrVpage die) := by
  have hreach : Reach 0x28000000000000000000000000000000000000 s (s.storeReg .poolMoveCmd die 0 value) := .storeReg (.refl ..) rfl
  have hidle' : (s.storeReg .poolMoveCmd die 0 value).fld poolMoveStatusBusy die = 0 :=
    (congrArg (bitsOf · _ _) (State.rd_wr_ne (by decide) ..)).trans hidle
  have hpage : (s.storeReg .poolMoveCmd die 0 value).fld poolMoveAddrVpage die = s.fld poolMoveAddrVpage die := hreach.fld_eq _ rfl ..
  simp only [State.writeMoveCmd, hop, hgo, hidle', hpage, ne_eq, not_true_eq_false, if_false, beq_self_eq_true, Bool.and_self, if_true]
  rfl

/-- A page of an owner in a frame of the pool, in the tree of a die. -/
structure OwnsPage (s : State) (die owner page n : Nat) (big : Bool) : Prop where
  mapped : ∃ pa rd wr o, s.xlat die owner (page * 65536) = .page pa rd wr o big ∧ pa / 65536 = n
  used : (s.frame n).st ≠ .free
  owned : (s.frame n).owner = owner

theorem SamePlaces.ownsPage {s t : State} (h : SamePlaces s t) {die owner page n : Nat} {big : Bool} (k : OwnsPage s die owner page n big) :
    OwnsPage t die owner page n big := by
  obtain ⟨⟨pa, rd, wr, o, hpage, hpa⟩, hused, howned⟩ := k
  exact ⟨⟨pa, rd, wr, o, (h.virtual.xlat ..).trans hpage, hpa⟩, by rwa [h.frame], by rwa [h.frame]⟩

section
variable {s : State} {die owner page n : Nat} {big : Bool} (h : OwnsPage s die owner page n big)
include h

theorem OwnsPage.runs_move (tier : Nat) :
    s.runMoveCmd die 0 tier owner page = s.moveFrame die tier owner page n (big || (s.frame n).big) := by
  obtain ⟨⟨pa, rd, wr, o, hpage, rfl⟩, hused, howned⟩ := h
  simp only [State.runMoveCmd, hpage, hused, howned, ne_eq, not_true_eq_false, or_self, if_false, Nat.zero_ne_one,
    show ¬(0 : Nat) = 2 by decide]

theorem OwnsPage.runs_pin (tier : Nat) : s.runMoveCmd die 1 tier owner page = s.pinFrame die owner n (big || (s.frame n).big) true := by
  obtain ⟨⟨pa, rd, wr, o, hpage, rfl⟩, hused, howned⟩ := h
  simp only [State.runMoveCmd, hpage, hused, howned, ne_eq, not_true_eq_false, or_self, if_false, if_true]

theorem OwnsPage.runs_unpin (tier : Nat) : s.runMoveCmd die 2 tier owner page = s.pinFrame die owner n (big || (s.frame n).big) false := by
  obtain ⟨⟨pa, rd, wr, o, hpage, rfl⟩, hused, howned⟩ := h
  simp only [State.runMoveCmd, hpage, hused, howned, ne_eq, not_true_eq_false, or_self, if_false, if_true, show ¬(2 : Nat) = 1 by decide]

end

/-! ## A move begins (R428, R430, R435) -/

/-- The move that POOL_MOVE_CMD asks for. -/
abbrev cmdMove (die owner n k : Nat) : Move := { src := n, dst := k, owner := owner, writeBack := false, evict := false, cmdDie := some die }

/-- The record of the frame that a move goes to, while it goes on. -/
abbrev FrameRec.destination (f : FrameRec) (die owner page : Nat) : FrameRec :=
  { f with st := .resident, owner := owner, homeDie := die, moving := true, vpage := page }

theorem State.moveFrame_begins {s : State} {die tier owner page n k : Nat} {f : FrameRec} (hframe : s.frame n = f)
    (hstays : f.pinned = false ∧ f.window = false ∧ f.quarantined = false ∧ f.prot = false) (hplain : f.lower = none ∧ f.moving = false)
    (htier : s.frameTier n ≠ tier) (hfree : FreeFor s tier die owner k) : s.moveFrame die tier owner page n false =
      ((s.setFrame k ((s.frame k).destination die owner page)).beginMove (cmdMove die owner n k)).showUse owner := by
  obtain ⟨hpinned, hwindow, hquarantined, hprot⟩ := hstays
  obtain ⟨hlower, hmoving⟩ := hplain
  simp only [State.moveFrame, hframe, hpinned, hwindow, hquarantined, hprot, Bool.or_self, Bool.false_eq_true, if_false, if_neg htier, hlower,
    if_neg (Nat.not_le.mpr hfree.below), State.startMove, hmoving, hfree.obtain 2]

/-- What a move that begins leaves of the two frames and of the moves. -/
theorem State.beginMove_leaves {s : State} {owner n k : Nat} {g : FrameRec} {m : Move} (hsrc : m.src = n) (hne : k ≠ n) :
    let t := ((s.setFrame k g).beginMove m).showUse owner
    t.pool.moves = s.pool.moves ++ [m] ∧ t.frame k = g ∧ t.frame n = { s.frame n with moving := true } := by
  have hpool : ∀ x : Nat, ({ s.setFrame k g with pool := { (s.setFrame k g).pool with moves := (s.setFrame k g).pool.moves ++ [m] } } : State).frame x =
      (s.setFrame k g).frame x := fun _ => rfl
  simp only [State.showUse_pool, State.showUse_frame, State.beginMove, State.setMoving, hsrc, State.frame_setFrame_ne hne, hpool,
    State.frame_setFrame_self, State.frame_setFrame_ne hne.symm]
  exact ⟨rfl, trivial, trivial⟩

/-! ## Pins (R415, R433, R435) -/

theorem State.pinFrame_refused {s : State} {die owner n : Nat} (hfree : (s.frame n).pinned = false)
    (hfloor : s.floorOf owner (s.frameTier n) < s.pinnedIn owner (s.frameTier n) (s.frameDie n) + 1) (big : Bool) :
    s.pinFrame die owner n big true = (s.bump .poolPinRefusedCnt die 0 1).moveResult die 1 := by
  simp only [State.pinFrame, hfree, hfloor, Bool.not_true, Bool.and_false, Bool.false_eq_true, if_false, decide_true, Bool.not_false, Bool.and_self,
    if_true]

/-- Nothing that moves the frame, and nothing that waits for a frame: the frame is pinned or unpinned, and that is all. -/
theorem State.pinFrame_sets {s : State} {die owner n : Nat} {big v : Bool} (hbig : (big && !v) = false)
    (hfloor : v = true → (s.frame n).pinned = true ∨ s.pinnedIn owner (s.frameTier n) (s.frameDie n) + 1 ≤ s.floorOf owner (s.frameTier n))
    (hstill : v = true → (s.pool.moves.find? fun m : Move => m.src == n) = none) (hwaiting : s.pool.waiting = []) :
    s.pinFrame die owner n big v = (s.setFrame n { s.frame n with pinned := v }).moveResult die 0 := by
  have hwithin : (v && !(s.frame n).pinned && decide (s.floorOf owner (s.frameTier n) < s.pinnedIn owner (s.frameTier n) (s.frameDie n) + 1)) = false := by
    cases v with
    | false => rfl
    | true => rcases hfloor rfl with hpinned | hroom <;> simp only [*, Bool.not_true, Bool.and_false, Bool.false_and, Bool.true_and, Bool.and_eq_false_imp,
        decide_eq_false_iff_not, Nat.not_lt, implies_true]
  have hmove : (s.pool.moves.find? fun m : Move => v && m.src == n) = none := by
    cases v with
    | false => simp
    | true => simpa using hstill rfl
  simp only [State.pinFrame, hbig, hwithin, hmove, Bool.false_eq_true, if_false]
  exact State.retryWaiting_of_none hwaiting

/-- What an operation that ends shows (R435). -/
theorem State.moveResult_shows (s : State) (die : Nat) {res : Nat} (h : res < 4) : (s.moveResult die res).fld poolMoveStatusBusy die = 0 ∧
    (s.moveResult die res).fld poolMoveStatusResult die = res := ⟨s.moveResult_busy die res, s.moveResult_result die h⟩

/-! ## A move ends (R426, R430, R433, R464) -/

/-- With nothing that waits for a frame, trying again changes nothing. -/
theorem State.retryStage_of_done {s : State} (h : s.noneTodo = true) (ref : ChainRef) (k : Nat) : s.retryStage ref k = s := by
  unfold State.retryStage
  split
  · rfl
  next c hfound =>
    have hchain := List.all_eq_true.mp h c (List.mem_of_find?_eq_some hfound)
    split
    next g hstage =>
      have hdone := List.all_eq_true.mp hchain g (List.mem_of_getElem? hstage)
      rw [Bool.not_eq_true'] at hdone
      simp only [hdone, Bool.false_and, Bool.false_eq_true, if_false]
    · rfl

theorem State.retryChains_of_done {s : State} (h : s.noneTodo = true) (cs : List Chain) : s.retryChains cs = s := by
  refine List.foldlRecOn (motive := fun t : State => t = s) cs _ rfl fun t ht c _ => ?_
  refine List.foldlRecOn (motive := fun t : State => t = s) _ _ ht fun u hu k _ => ?_
  rw [hu, State.retryStage_of_done h]

theorem State.retryAll_of_none {s : State} (hwaiting : s.pool.waiting = []) (hcmd : s.pool.cmdWait = []) (hplans : s.pool.plans = [])
    (hretiring : s.pool.retiring = []) (hdone : s.noneTodo = true) : s.retryAll = s := by
  have hpool : { s.pool with cmdWait := [] } = s.pool := by rw [← hcmd]
  have hmoves : s.retryMoves = s := by rw [State.retryMoves, hcmd, List.foldl_nil, hpool]
  have hfill : s.fillPlans = s := by rw [State.fillPlans, hplans, List.foldl_nil]
  have hretired : s.retryRetired = s := by rw [State.retryRetired, hretiring, List.foldl_nil]
  rw [State.retryAll, State.retryWaiting_of_none hwaiting, hmoves, hfill, hretired, State.retryChains_of_done hdone]

theorem State.noneTodo_congr {s t : State} (h : t.chains = s.chains) : t.noneTodo = s.noneTodo := by rw [State.noneTodo, h, State.noneTodo]

theorem State.setPool_phys (s : State) (p : Pool) (pa : Nat) : ({ s with pool := p } : State).phys pa = s.phys pa :=
  SameVirtual.phys ⟨rfl, rfl, rfl, rfl, rfl, rfl, fun _ _ => rfl⟩ pa

theorem State.setPool_frameTier (s : State) (p : Pool) (n : Nat) : ({ s with pool := p } : State).frameTier n = s.frameTier n := by
  simp only [State.frameTier, State.tierOf, State.setPool_phys]

theorem State.setPool_frameDie {s : State} {p : Pool} (h : p.frames = s.pool.frames) (n : Nat) :
    ({ s with pool := p } : State).frameDie n = s.frameDie n := by
  simp only [State.frameDie, State.setPool_phys, State.frame, h]

/-- What the end of a move leaves: memory as the copy and the switch leave it, the destination resident, the source free. -/
structure MoveEnded (u t : State) (m : Move) (home : Nat) : Prop where
  kept : AccessKept u t
  chains : t.chains = u.chains
  mem : t.mem = ((u.copyFrame m.src m.dst).switchPage (u.frame m.src).owner (u.frame m.src).vpage m.src m.dst).mem
  dst : t.frame m.dst = { u.frame m.src with st := .resident, moving := false, lower := none, homeDie := home }
  src : t.frame m.src = {}

theorem State.endMove_ends {u : State} {m : Move} {home : Nat} (hne : m.src ≠ m.dst) (hlower : (u.frame m.src).lower = none)
    (hhome : home = if u.frameTier m.src = 1 then u.frameDie m.src else (u.frame m.dst).homeDie) : MoveEnded u (u.endMove m) m home := by
  unfold State.endMove
  extract_lets die f home' copied switched placed counted freed
  have hf : u.frame m.src = f := rfl
  have hfreed : freed = counted := by simp only [freed, ← hf, hlower]
  have hswitched : AccessKept u switched := ((AccessKept.refl u).copyFrame ..).switchPage ..
  have hcounted : Reach 0x80000000000000000000000000000000000000 placed counted := .ite (.bump (.refl ..) rfl) (.refl ..)
  rw [hfreed]
  refine ⟨?_, ?_, ?_, ?_, State.freeFrame_frame_self ..⟩
  · exact ((hswitched.setFrame ..).reach hcounted rfl rfl).freeFrame _
  · rw [(State.freeFrame_reach ..).same .chains rfl, hcounted.same .chains rfl]
    exact ((State.switchPage_reach ..).same .chains rfl).trans ((State.copyFrame_reach ..).same .chains rfl)
  · rw [(State.freeFrame_reach ..).same .mem rfl, hcounted.same .mem rfl, hf]
    rfl
  · rw [State.freeFrame_frame_ne hne.symm, hcounted.frame_eq rfl, hhome]
    exact State.frame_setFrame_self ..

/-- R435: the only move under way ends, with what POOL_MOVE_CMD shows of it. -/
theorem State.finishMove_of_cmd {s : State} {m : Move} {d : Nat} (hmoves : s.pool.moves = [m]) (hwriteBack : m.writeBack = false)
    (hfill : m.fill = false) (hcmd : m.cmdDie = some d) :
    s.finishMove m = (({ s with pool := { s.pool with moves := [] } } : State).endMove m).moveResult d 0 := by
  have hgone : (s.pool.moves.filter fun x : Move => x.src != m.src) = [] := by simp [hmoves]
  simp only [State.finishMove, hgone, hwriteBack, hfill, hcmd, Bool.false_eq_true, if_false]

/-- R430: the move of a frame ends where every channel group of it is in service. -/
theorem moveSwitchEffect_finishes {s : State} {frame : BitVec 32} {m : Move} (hmoves : s.pool.moves = [m]) (hsrc : m.src = frame.toNat)
    (hsrcIn : s.groupsOut m.src = false) (hdstIn : s.groupsOut m.dst = false) : moveSwitchEffect frame s = (s.finishMove m).retryAll := by
  have hfound : (s.pool.moves.find? fun x : Move => x.src == frame.toNat) = some m := by simp [hmoves, hsrc]
  simp only [moveSwitchEffect, hfound, hsrcIn, hdstIn, Bool.or_self, Bool.false_eq_true, if_false]

/-- Settles O29: a write with GO begins its operation (`writeMoveCmd_of_go`), which comes to one row of R435; a move that ends leaves what
`MoveEnded` says, and nothing that waits goes on. -/
theorem movesAndPins : Obligations.MovesAndPins := by
  refine ⟨?moves, ?pins, ?refuses, ?unpins, ?switches⟩
  case moves =>
    rintro s die value pa rd wr o big k owner tier page n ⟨hop, hgo, hidle⟩ ⟨hpage, hresident, howned⟩ ⟨hpinned, hwindow, hquarantined, rfl, hbig⟩
      ⟨hprot, hlower, hmoving, htier⟩ ⟨hused, hbelow⟩ hlowest
    have hsame := s.moveBegun_samePlaces die.val value
    have howns : OwnsPage s die.val owner page n false := ⟨⟨pa, rd, wr, o, hpage, rfl⟩, by rw [hresident]; decide, howned⟩
    have hfree : FreeFor s tier die.val owner k := ⟨hused, hbelow, hlowest⟩
    have hne : k ≠ n := fun heq => by
      have hst := State.lowestFree_isFree hlowest
      rw [heq, hresident] at hst
      cases hst
    have hbegins : moveEffect die value s = (((s.moveBegun die.val value).setFrame k ((s.frame k).destination die.val owner page)).beginMove
        (cmdMove die.val owner n k)).showUse owner := by
      refine (State.writeMoveCmd_of_go hop hgo hidle).trans (((hsame.ownsPage howns).runs_move tier).trans ?_)
      rw [hsame.frame, hbig, ← hsame.frame k]
      exact State.moveFrame_begins (hsame.frame n) ⟨hpinned, hwindow, hquarantined, hprot⟩ ⟨hlower, hmoving⟩ (by rwa [hsame.frameTier])
        (hsame.freeFor hfree)
    obtain ⟨hmoves, hdst, hsrc⟩ := State.beginMove_leaves (s := s.moveBegun die.val value) (owner := owner)
      (g := (s.frame k).destination die.val owner page) (m := cmdMove die.val owner n k) rfl hne
    refine ⟨_, congrArg Host.Outcome.next hbegins, ?_, ⟨hdst, ?_⟩, ?_⟩
    · rw [hmoves, hsame.pool]
    · rw [hsrc, hsame.frame]
    · rw [(State.showUse_reach ..).fld_eq _ rfl, (State.beginMove_reach ..).fld_eq _ rfl]
      exact s.moveBegun_busy die.val value
  case pins =>
    rintro s die value pa rd wr o big owner n ⟨hop, hgo, hidle, hwaiting⟩ ⟨hpage, hused, howned⟩ hstill hfloor
    have hsame := s.moveBegun_samePlaces die.val value
    have howns : OwnsPage s die.val owner _ n big := ⟨⟨pa, rd, wr, o, hpage, rfl⟩, hused, howned⟩
    have hpins : pinEffect die value s =
        ((s.moveBegun die.val value).setFrame n { s.frame n with pinned := true }).moveResult die.val 0 := by
      refine (State.writeMoveCmd_of_go hop hgo hidle).trans (((hsame.ownsPage howns).runs_pin _).trans ?_)
      rw [← hsame.frame n]
      refine State.pinFrame_sets (Bool.and_false _) (fun _ => ?_) (fun _ => by rwa [hsame.pool]) (by rwa [hsame.pool])
      rw [hsame.frame, hsame.pinnedIn, hsame.floorOf, hsame.frameTier, hsame.frameDie]
      exact hfloor
    refine ⟨_, congrArg Host.Outcome.next hpins, ?_, State.moveResult_shows _ _ (by decide)⟩
    rw [State.moveResult_frame, State.frame_setFrame_self]
  case refuses =>
    rintro s die value pa rd wr o big owner n ⟨hop, hgo, hidle⟩ ⟨hpage, hused, howned⟩ ⟨hpinned, hfloor⟩
    have hsame := s.moveBegun_samePlaces die.val value
    have howns : OwnsPage s die.val owner _ n big := ⟨⟨pa, rd, wr, o, hpage, rfl⟩, hused, howned⟩
    have hrefused : pinEffect die value s = ((s.moveBegun die.val value).bump .poolPinRefusedCnt die.val 0 1).moveResult die.val 1 := by
      refine (State.writeMoveCmd_of_go hop hgo hidle).trans (((hsame.ownsPage howns).runs_pin _).trans ?_)
      refine State.pinFrame_refused (by rwa [hsame.frame]) ?_ _
      rwa [hsame.pinnedIn, hsame.floorOf, hsame.frameTier, hsame.frameDie]
    refine ⟨_, congrArg Host.Outcome.next hrefused, ⟨?_, ?_⟩, State.moveResult_shows _ _ (by decide)⟩
    · rw [State.moveResult_frame, State.bump_frame, hsame.frame]
    · rw [(State.moveResult_reach ..).rd_eq _ rfl, State.rd_bump_self, (s.moveBegun_reach ..).rd_eq _ rfl]
  case unpins =>
    rintro s die value pa rd wr o big owner n ⟨hop, hgo, hidle, hwaiting⟩ ⟨hpage, hused, howned⟩ ⟨rfl, hbig⟩
    have hsame := s.moveBegun_samePlaces die.val value
    have howns : OwnsPage s die.val owner _ n false := ⟨⟨pa, rd, wr, o, hpage, rfl⟩, hused, howned⟩
    have hunpins : unpinEffect die value s =
        ((s.moveBegun die.val value).setFrame n { s.frame n with pinned := false }).moveResult die.val 0 := by
      refine (State.writeMoveCmd_of_go hop hgo hidle).trans (((hsame.ownsPage howns).runs_unpin _).trans ?_)
      rw [hsame.frame, hbig, ← hsame.frame n]
      exact State.pinFrame_sets rfl nofun nofun (by rwa [hsame.pool])
    refine ⟨_, congrArg Host.Outcome.next hunpins, ?_, State.moveResult_shows _ _ (by decide)⟩
    rw [State.moveResult_frame, State.frame_setFrame_self]
  case switches =>
    rintro s frame m d f home u ⟨hmoves, hsrc, hne, hwriteBack, hfill, hcmd, hlower⟩ ⟨hsrcIn, hdstIn⟩
      ⟨hwaiting, hcmdWait, hplans, hretiring, hdone⟩
    have htier : u.frameTier m.src = s.frameTier m.src := s.setPool_frameTier _ _
    have hdie : u.frameDie m.src = s.frameDie m.src := State.setPool_frameDie rfl _
    have hends : MoveEnded u (u.endMove m) m home := State.endMove_ends hne hlower (by rw [htier, hdie]; rfl)
    have hmoved : moveSwitchEffect frame s = ((u.endMove m).moveResult d.val 0).retryAll :=
      (moveSwitchEffect_finishes hmoves hsrc hsrcIn hdstIn).trans (congrArg State.retryAll (State.finishMove_of_cmd hmoves hwriteBack hfill hcmd))
    have hshown := State.moveResult_reach (u.endMove m) d.val 0
    have hpool : ((u.endMove m).moveResult d.val 0).pool = (u.endMove m).pool := State.moveResult_pool ..
    have hidle : ((u.endMove m).moveResult d.val 0).retryAll = (u.endMove m).moveResult d.val 0 :=
      State.retryAll_of_none ((congrArg Pool.waiting hpool).trans (hends.kept.waiting.trans hwaiting))
        ((congrArg Pool.cmdWait hpool).trans (hends.kept.cmdWait.trans hcmdWait)) ((congrArg Pool.plans hpool).trans (hends.kept.plans.trans hplans))
        ((congrArg Pool.retiring hpool).trans (hends.kept.retiring.trans hretiring))
        ((State.noneTodo_congr ((hshown.same .chains rfl).trans hends.chains)).trans hdone)
    exact ⟨_, congrArg Host.Outcome.next (hmoved.trans hidle), (hshown.same .mem rfl).trans hends.mem,
      ⟨(hshown.frame_eq rfl _).trans hends.dst, (hshown.frame_eq rfl _).trans hends.src, (congrArg Pool.moves hpool).trans (hends.kept.moves rfl)⟩,
      State.moveResult_shows _ _ (by decide)⟩

end Sys2Proof.Machine
end

section
/-!
SUPPORT. The copy of a frame (spec/09_capacity_pool.md R430, R434): where its reads find no request queued they change no byte, the bytes that
they deliver are those of the frame, and the copy stores them at the destination and nowhere else.
-/
namespace Sys2Proof.Machine

/-! ## Sparse data: entries, slices and runs -/

variable {α : Type}

theorem mem_insertAt {k : Nat} {v : α} {p : Nat × α} {l : List (Nat × α)} (h : p ∈ insertAt k v l) : p = (k, v) ∨ p ∈ l := by
  induction l with
  | nil => exact .inl (List.mem_singleton.mp h)
  | cons q r ih =>
    obtain ⟨j, w⟩ := q
    unfold insertAt at h
    split at h
    · exact List.mem_cons.mp h
    split at h
    · exact (List.mem_cons.mp h).imp_right (List.mem_cons_of_mem _)
    · rcases List.mem_cons.mp h with rfl | h
      · exact .inr List.mem_cons_self
      · exact (ih h).imp_right (List.mem_cons_of_mem _)

theorem mem_putD [DecidableEq α] {d v : α} {k : Nat} {p : Nat × α} {l : List (Nat × α)} (h : p ∈ putD d k v l) : p = (k, v) ∨ p ∈ l := by
  unfold putD at h
  split at h
  · exact .inr (List.mem_of_mem_filter h)
  · exact mem_insertAt h

/-- The keys of a run and what was there. -/
theorem key_of_mem_putRun [DecidableEq α] {d : α} {vs : List α} {k : Nat} {p : Nat × α} {l : List (Nat × α)} (h : p ∈ putRun d k vs l) :
    (k ≤ p.1 ∧ p.1 < k + vs.length) ∨ p ∈ l := by
  induction vs generalizing k l with
  | nil => exact .inr h
  | cons v vs ih =>
    rw [List.length_cons]
    rcases ih h with hrun | hput
    · exact .inl (by omega)
    · rcases mem_putD hput with rfl | hold
      · exact .inl ⟨Nat.le_refl k, by dsimp only; omega⟩
      · exact .inr hold

/-- What a key reads is listed with it, or is the default. -/
theorem lookupD_eq_or_mem (d : α) (k : Nat) (l : List (Nat × α)) : lookupD d k l = d ∨ (k, lookupD d k l) ∈ l := by
  induction l with
  | nil => exact .inl rfl
  | cons p r ih =>
    obtain ⟨j, v⟩ := p
    unfold lookupD
    split
    next h => exact .inr (h ▸ List.mem_cons_self)
    next => exact ih.imp_right (List.mem_cons_of_mem _)

theorem lookupD_sliceAt (d : α) (lo n : Nat) {k : Nat} (h : k < n) (l : List (Nat × α)) :
    lookupD d k (sliceAt lo n l) = lookupD d (lo + k) l := by
  have hshift : ∀ r : List (Nat × α), (∀ p ∈ r, lo ≤ p.1) → lookupD d k (r.map fun p => (p.1 - lo, p.2)) = lookupD d (lo + k) r := by
    intro r hr
    induction r with
    | nil => rfl
    | cons p r ih =>
      have hp := hr p List.mem_cons_self
      have hkey : p.1 - lo = k ↔ p.1 = lo + k := by omega
      simp only [List.map_cons, lookupD, hkey, ih fun q hq => hr q (List.mem_cons_of_mem _ hq)]
  have hin : (decide (lo ≤ lo + k) && decide (lo + k < lo + n)) = true := by simp [h]
  rw [sliceAt, hshift _ fun p hp => ?_]
  · exact (lookupD_filter d (fun j => decide (lo ≤ j) && decide (j < lo + n)) _ _).trans (if_pos hin)
  · simp only [List.mem_filter, Bool.and_eq_true, decide_eq_true_eq] at hp
    exact hp.2.1

theorem key_of_mem_sliceAt {lo n : Nat} {l : List (Nat × α)} {p : Nat × α} (h : p ∈ sliceAt lo n l) : p.1 < n := by
  obtain ⟨q, hq, rfl⟩ := List.mem_map.mp h
  simp only [List.mem_filter, Bool.and_eq_true, decide_eq_true_eq] at hq
  show q.1 - lo < n
  omega

theorem canonical_sliceAt [DecidableEq α] (d : α) (lo n : Nat) {l : List (Nat × α)} (h : canonical d l = true) :
    canonical d (sliceAt lo n l) = true := by
  have hshift : ∀ (r : List (Nat × α)) (a : Nat), (∀ p ∈ r, lo ≤ p.1) → rising d a r = true →
      rising d (a - lo) (r.map fun p => (p.1 - lo, p.2)) = true := by
    intro r
    induction r with
    | nil => exact fun _ _ _ => rfl
    | cons p r ih =>
      intro a hr hrise
      have hp := hr p List.mem_cons_self
      simp only [rising, Bool.and_eq_true, decide_eq_true_eq] at hrise
      have hrest := ih _ (fun q hq => hr q (List.mem_cons_of_mem _ hq)) hrise.2
      rw [show p.1 + 1 - lo = p.1 - lo + 1 by omega] at hrest
      simp only [List.map_cons, rising, Bool.and_eq_true, decide_eq_true_eq]
      exact ⟨⟨by omega, hrise.1.2⟩, hrest⟩
  have hrise := hshift _ 0 (fun p hp => ?_) (rising_filter d (fun p => decide (lo ≤ p.1) && decide (p.1 < lo + n)) h)
  · rwa [Nat.zero_sub] at hrise
  · simp only [List.mem_filter, Bool.and_eq_true, decide_eq_true_eq] at hp
    exact hp.2.1

/-- Entries stored from a base on leave every other key. -/
theorem lookupD_foldl_putD_out [DecidableEq α] (d : α) {base a : Nat} {l : List (Nat × α)} (h : ∀ p ∈ l, a ≠ base + p.1) (m : List (Nat × α)) :
    lookupD d a (l.foldl (fun m p => putD d (base + p.1) p.2 m) m) = lookupD d a m := by
  induction l generalizing m with
  | nil => rfl
  | cons p l ih =>
    rw [List.foldl_cons, ih fun q hq => h q (List.mem_cons_of_mem _ hq), lookupD_putD_ne d d (h p List.mem_cons_self)]

theorem le_of_mem_rising [DecidableEq α] {d : α} {lo : Nat} {l : List (Nat × α)} (h : rising d lo l = true) {p : Nat × α} (hp : p ∈ l) :
    lo ≤ p.1 := by
  induction l generalizing lo with
  | nil => cases hp
  | cons q r ih =>
    simp only [rising, Bool.and_eq_true, decide_eq_true_eq] at h
    rcases List.mem_cons.mp hp with rfl | hp
    · exact h.1.1
    · exact (Nat.le_trans h.1.1 (Nat.le_succ _)).trans (ih h.2 hp)

/-- Entries with rising keys stored from a base on, where nothing is listed, are read back. -/
theorem lookupD_foldl_putD_in [DecidableEq α] (d : α) {base off lo : Nat} {l : List (Nat × α)} (h : rising d lo l = true)
    {m : List (Nat × α)} (hm : lookupD d (base + off) m = d) :
    lookupD d (base + off) (l.foldl (fun m p => putD d (base + p.1) p.2 m) m) = lookupD d off l := by
  induction l generalizing m lo with
  | nil => exact hm
  | cons p r ih =>
    obtain ⟨j, v⟩ := p
    simp only [rising, Bool.and_eq_true, decide_eq_true_eq] at h
    rw [List.foldl_cons, lookupD]
    split
    next heq =>
      subst heq
      rw [lookupD_foldl_putD_out d fun q hq => ?_, lookupD_putD_self]
      have := le_of_mem_rising h.2 hq
      omega
    next hne => exact ih h.2 (by rw [lookupD_putD_ne d d (by omega), hm])

/-! ## Reads that find nothing queued (R379, R385) -/

/-- Only write-backs join the queues. -/
structure OnlyWritebacks (s t : State) : Prop where
  chans : ∀ p ∈ t.hbm.chans, ∀ r ∈ p.2.queue, r.wb = true ∨ ∃ q ∈ s.hbm.chans, r ∈ q.2.queue

theorem OnlyWritebacks.of_eq {s t : State} (h : t.hbm.chans = s.hbm.chans) : OnlyWritebacks s t :=
  ⟨fun p hp _ hr => .inr ⟨p, h ▸ hp, hr⟩⟩

theorem OnlyWritebacks.trans {r s t : State} (h : OnlyWritebacks r s) (k : OnlyWritebacks s t) : OnlyWritebacks r t :=
  ⟨fun p hp x hx => (k.chans p hp x hx).elim .inl fun ⟨q, hq, hxq⟩ => h.chans q hq x hxq⟩

theorem OnlyWritebacks.reach {F : Nat} {r s t : State} (h : OnlyWritebacks r s) (k : Reach F s t) (m : F.testBit 11 = false) :
    OnlyWritebacks r t := h.trans (.of_eq (congrArg Hbm.chans (k.same .hbm m)))

theorem OnlyWritebacks.noneQueued {s t : State} (h : OnlyWritebacks s t) {pa n : Nat} (k : s.noneQueued pa n = true) :
    t.noneQueued pa n = true := by
  refine List.all_eq_true.mpr fun p hp => List.all_eq_true.mpr fun r hr => ?_
  rcases h.chans p hp r hr with hwb | ⟨q, hq, hrq⟩
  · rw [hwb, Bool.true_or]
  · exact List.all_eq_true.mp (List.all_eq_true.mp k q hq) r hrq

theorem State.queueWriteback_onlyWritebacks (s : State) (pa owner : Nat) : OnlyWritebacks s (s.queueWriteback pa owner) := by
  unfold State.queueWriteback
  dsimp only
  split
  · exact .of_eq rfl
  · refine ⟨fun p hp r hr => ?_⟩
    rcases mem_putD hp with rfl | hold
    · rcases List.mem_append.mp hr with hqueued | hnew
      · rcases lookupD_eq_or_mem ({} : PseudoChannel) ((hbmPlace s.harbour (pa / 32 * 32)).1 * 32 + (hbmPlace s.harbour (pa / 32 * 32)).2)
          s.hbm.chans with hempty | hlisted
        · rw [State.chan, hempty] at hqueued
          cases hqueued
        · exact .inr ⟨_, hlisted, hqueued⟩
      · exact .inl (by rw [List.mem_singleton.mp hnew])
    · exact .inr ⟨p, hold, hr⟩

theorem State.noteSector_chans (s : State) (ctl pa owner : Nat) (severity : Bool) :
    (s.noteSector ctl pa owner severity).1.hbm.chans = s.hbm.chans := by
  have hlogged : ∀ (u : State) (q : Reg) (sev mark : Bool),
      (((u.bump q ctl 0 1).logUe ctl (pa / 32 * 32) owner sev mark).postUe (pa / 32 * 32)).hbm.chans = u.hbm.chans := fun u q sev mark =>
    congrArg Hbm.chans (((State.postUe_reach ..).same .hbm rfl).trans ((State.logUe_reach ..).same .hbm rfl))
  unfold State.noteSector
  dsimp only
  split
  · rw [hlogged]
    rfl
  split
  · rfl
  · rfl
  · exact hlogged ..
  · exact hlogged ..

/-- R434: the reads of a copy, with none queued for the frame, change no byte and no check symbol, and queue write-backs alone. -/
theorem State.scanFrame_quiet {s : State} {n : Nat} (h : s.noneQueued (n * 65536) 65536 = true) (a : Access) :
    (s.scanFrame a n).mem = s.mem ∧ (s.scanFrame a n).hbmDelta = s.hbmDelta ∧ OnlyWritebacks s (s.scanFrame a n) := by
  unfold State.scanFrame
  rw [State.flushSectors_of_noneQueued h]
  dsimp only
  split
  · have hcounted := s.countFrame_reach n
    refine List.foldlRecOn (motive := fun t : State => t.mem = s.mem ∧ t.hbmDelta = s.hbmDelta ∧ OnlyWritebacks s t) _ _
      ⟨hcounted.same .mem rfl, hcounted.same .hbmDelta rfl, OnlyWritebacks.reach (.of_eq rfl) hcounted rfl⟩ fun t ⟨hmem, hdelta, hqueues⟩ k _ => ?_
    have hnote := (t.noteSector_reach (hbmPlace t.harbour (k * 32)).1 (k * 32) a.owner false).fst
    have hchans := t.noteSector_chans (hbmPlace t.harbour (k * 32)).1 (k * 32) a.owner false
    have hnoted : OnlyWritebacks s (t.noteSector (hbmPlace t.harbour (k * 32)).1 (k * 32) a.owner false).1 := hqueues.trans (.of_eq hchans)
    split
    next u _ _ heq =>
      rw [heq] at hnote hnoted
      have hqueue := u.queueWriteback_reach (k * 32) a.owner
      exact ⟨(hqueue.same .mem rfl).trans ((hnote.same .mem rfl).trans hmem),
        (hqueue.same .hbmDelta rfl).trans ((hnote.same .hbmDelta rfl).trans hdelta), hnoted.trans (u.queueWriteback_onlyWritebacks ..)⟩
    next heq =>
      rw [heq] at hnote hnoted
      exact ⟨(hnote.same .mem rfl).trans hmem, (hnote.same .hbmDelta rfl).trans hdelta, hnoted⟩
  · have hlogged : Reach 0x2b000000c00000000000000000000400 s
        ((s.parityLines n).foldl (fun s k => s.logParity a (n * 65536 + 128 * k)) (s.useSlots a (n * 65536) 65536)) :=
      .foldl _ ((State.useSlots_reach ..).mono rfl) fun t k ht => ht.then (State.logParity_reach ..) rfl
    exact ⟨hlogged.same .mem rfl, hlogged.same .hbmDelta rfl, OnlyWritebacks.reach (.of_eq rfl) hlogged rfl⟩

/-! ## The bytes of a frame (R434) -/

/-- The sectors of a frame whose check symbols differ from those of their data. -/
def State.fixedSectors (s : State) (n : Nat) : List Nat :=
  (s.hbmDelta.filter fun p => decide (n * 2048 ≤ p.1) && decide (p.1 < n * 2048 + 2048)).map (·.1)

theorem State.frameBytes_eq (s : State) (n : Nat) : s.frameBytes n =
    (s.fixedSectors n).foldl (fun l k => putRun 0#8 (k * 32 - n * 65536) (s.memBytes (k * 32) 32) l) (sliceAt (n * 65536) 65536 s.mem) := rfl

theorem State.mem_fixedSectors {s : State} {n k : Nat} (h : k ∈ s.fixedSectors n) : n * 2048 ≤ k ∧ k < n * 2048 + 2048 := by
  obtain ⟨p, hp, rfl⟩ := List.mem_map.mp h
  simpa using (List.mem_filter.mp hp).2

/-- A sector of the frame that is not among them reads as it is stored. -/
theorem State.deltaAt_of_not_fixed {s : State} {n a : Nat} (hframe : a / 65536 = n) (h : a / 32 ∉ s.fixedSectors n) : s.deltaAt a = 0#16 := by
  rcases lookupD_eq_or_mem 0#16 (a / 32) s.hbmDelta with hzero | hlisted
  · exact hzero
  · refine absurd (List.mem_map.mpr ⟨_, List.mem_filter.mpr ⟨hlisted, ?_⟩, rfl⟩) h
    simp only [Bool.and_eq_true, decide_eq_true_eq]
    omega

theorem State.length_memBytes (s : State) (pa n : Nat) : (s.memBytes pa n).length = n := by simp [State.memBytes]

theorem State.getElem_memBytes (s : State) (pa n i : Nat) (h : i < (s.memBytes pa n).length) : (s.memBytes pa n)[i] = s.memByte (pa + i) := by
  simp [State.memBytes]

/-- R434: a copy reads each byte of the frame as it is delivered. -/
theorem State.lookupD_frameBytes (s : State) (n : Nat) {off : Nat} (h : off < 65536) :
    lookupD 0#8 off (s.frameBytes n) = s.memByte (n * 65536 + off) := by
  have hkeep : ∀ (fixes : List Nat) (l : Bytes), (∀ k ∈ fixes, n * 2048 ≤ k ∧ k < n * 2048 + 2048) →
      ((n * 65536 + off) / 32 ∉ fixes → lookupD 0#8 off l = s.memByte (n * 65536 + off)) →
      lookupD 0#8 off (fixes.foldl (fun l k => putRun 0#8 (k * 32 - n * 65536) (s.memBytes (k * 32) 32) l) l) = s.memByte (n * 65536 + off) := by
    intro fixes
    induction fixes with
    | nil => exact fun l _ hl => hl List.not_mem_nil
    | cons k ks ih =>
      intro l hin hl
      have hk := hin k List.mem_cons_self
      refine ih _ (fun j hj => hin j (List.mem_cons_of_mem _ hj)) fun hnot => ?_
      by_cases hsector : (n * 65536 + off) / 32 = k
      · have hlen : off - (k * 32 - n * 65536) < (s.memBytes (k * 32) 32).length := by rw [State.length_memBytes]; omega
        have hread := lookupD_putRun_in 0#8 (s.memBytes (k * 32) 32) (k * 32 - n * 65536) (off - (k * 32 - n * 65536)) l hlen
        rw [State.getElem_memBytes, show k * 32 - n * 65536 + (off - (k * 32 - n * 65536)) = off by omega,
          show k * 32 + (off - (k * 32 - n * 65536)) = n * 65536 + off by omega] at hread
        exact hread
      · rw [lookupD_putRun_out _ _ _ _ (by rw [State.length_memBytes]; omega)]
        exact hl fun hmem => (List.mem_cons.mp hmem).elim hsector hnot
  rw [State.frameBytes_eq]
  refine hkeep _ _ (fun k hk => State.mem_fixedSectors hk) fun hnot => ?_
  rw [lookupD_sliceAt _ _ _ h, State.memByte_stored (.inl (State.deltaAt_of_not_fixed (n := n) (by omega) hnot))]
  rfl

theorem State.frameBytes_canonical {s : State} (h : Memory.wf s.mem = true) (n : Nat) : canonical 0#8 (s.frameBytes n) = true := by
  rw [State.frameBytes_eq]
  exact List.foldlRecOn (motive := fun l : Bytes => canonical 0#8 l = true) _ _ (canonical_sliceAt _ _ _ h) fun l hl k _ => canonical_putRun _ _ _ hl

theorem State.key_of_mem_frameBytes {s : State} {n : Nat} {p : Nat × Byte} (h : p ∈ s.frameBytes n) : p.1 < 65536 := by
  rw [State.frameBytes_eq] at h
  refine List.foldlRecOn (motive := fun l : Bytes => ∀ p ∈ l, p.1 < 65536) _ _ (fun q hq => key_of_mem_sliceAt hq) (fun l hl k hk q hq => ?_) p h
  have hrange := State.mem_fixedSectors hk
  rcases key_of_mem_putRun hq with hrun | hold
  · rw [State.length_memBytes] at hrun
    omega
  · exact hl q hold

theorem State.frameBytes_congr {s t : State} (hmem : t.mem = s.mem) (hdelta : t.hbmDelta = s.hbmDelta) (n : Nat) :
    t.frameBytes n = s.frameBytes n := by
  have hbytes : t.memBytes = s.memBytes := by
    funext pa k
    exact List.map_congr_left fun i _ => State.memByte_congr (congrArg (lookupD 0#16 _) hdelta) fun b _ => congrArg (lookupD 0#8 b) hmem
  rw [State.frameBytes_eq, State.frameBytes_eq, State.fixedSectors, State.fixedSectors, hdelta, hmem, hbytes]

/-! ## What a copy stores (R378, R434) -/

theorem State.deltaAt_markPoison (s : State) (pa a : Nat) : (s.markPoison pa).deltaAt a = s.deltaAt a ∨ (s.markPoison pa).deltaAt a = markDelta := by
  unfold State.markPoison
  split
  · by_cases hsector : a / 32 = pa / 32
    · exact .inr (by rw [State.deltaAt, hsector, lookupD_putD_self])
    · exact .inl (show lookupD 0#16 (a / 32) (putD 0#16 (pa / 32) markDelta s.hbmDelta) = lookupD 0#16 (a / 32) s.hbmDelta from
        lookupD_putD_ne _ _ hsector _ _)
  · exact .inl rfl

theorem State.deltaBad_of_mark {s : State} {k : Nat} (h : s.deltaAt (k * 32) = markDelta) : s.deltaBad k = true := by
  have hmark : decodeDelta markDelta = .mark := by decide
  rw [State.deltaBad, h, hmark]

/-- What the marks of a copy's bad sectors leave: memory, and check symbols that either agree as before or are a mark. -/
theorem State.foldl_markPoison_leaves (s : State) (base : Nat) (bad : List Nat) : (bad.foldl (fun s k => s.markPoison (base + 32 * k)) s).mem = s.mem ∧
    ∀ a, (bad.foldl (fun s k => s.markPoison (base + 32 * k)) s).deltaAt a = s.deltaAt a ∨
      (bad.foldl (fun s k => s.markPoison (base + 32 * k)) s).deltaAt a = markDelta := by
  refine List.foldlRecOn (motive := fun t : State => t.mem = s.mem ∧ ∀ a, t.deltaAt a = s.deltaAt a ∨ t.deltaAt a = markDelta) _ _
    ⟨rfl, fun _ => .inl rfl⟩ fun t ⟨hmem, hdelta⟩ k _ => ⟨((t.markPoison_reach _).same .mem rfl).trans hmem, fun a => ?_⟩
  rcases t.deltaAt_markPoison (base + 32 * k) a with hsame | hmark
  · rw [hsame]
    exact hdelta a
  · exact .inr hmark

/-- A copy whose frames no request waits for: memory holds the source's bytes at the destination, whose sectors are clean or marked. -/
theorem State.copyFrame_stores {s : State} {src dst : Nat} (hsrc : s.noneQueued (src * 65536) 65536 = true)
    (hdst : s.noneQueued (dst * 65536) 65536 = true) :
    (s.copyFrame src dst).mem =
      (s.frameBytes src).foldl (fun m p => putD 0#8 (dst * 65536 + p.1) p.2 m) (clearRange (dst * 65536) 65536 s.mem) ∧
    ∀ a, a / 65536 = dst → (s.copyFrame src dst).deltaAt a = 0#16 ∨ (s.copyFrame src dst).deltaBad (a / 32) = true := by
  unfold State.copyFrame
  extract_lets a scanned bytes bad base counted slots hbm stored
  obtain ⟨hmem, hdelta, hqueues⟩ := State.scanFrame_quiet hsrc a
  have hslots : Reach 0x10000000000000000000000000000000000020000000000000000000000000000c00 scanned slots := by
    have hflushed : scanned.flushSectors base 65536 = scanned := State.flushSectors_of_noneQueued (hqueues.noneQueued hdst)
    have hcounted : Reach 0x10000000000000000000000000000000000020000000000000000000000000000c00 scanned counted := by
      simp only [counted, hflushed]
      exact ((State.dropWritebacks_reach ..).mono rfl).then (State.countFrame_reach ..) rfl
    exact hcounted.then (State.useSlots_reach ..) rfl
  obtain ⟨hmarked, hmarks⟩ := State.foldl_markPoison_leaves stored base bad
  refine ⟨hmarked.trans ?_, fun b hb => ?_⟩
  · show bytes.foldl _ (clearRange base 65536 slots.mem) = _
    rw [hslots.same .mem rfl, hmem]
    exact congrArg (List.foldl _ _) (State.frameBytes_congr hmem hdelta src)
  · have hclear : ∀ c, c / 65536 = dst → stored.deltaAt c = 0#16 := fun c hc =>
      (lookupD_filter 0#16 (fun k => decide (k < dst * 2048) || decide (dst * 2048 + 2048 ≤ k)) _ _).trans (if_neg (by
        simp only [Bool.or_eq_true, decide_eq_true_eq]
        omega))
    rcases hmarks (b / 32 * 32) with hsame | hmark
    · refine .inl ?_
      have hsector : b / 32 * 32 / 32 = b / 32 := Nat.mul_div_cancel _ (by decide)
      rw [State.deltaAt, hsector, hclear _ (by omega)] at hsame
      exact hsame
    · exact .inr (State.deltaBad_of_mark hmark)

/-- Settles O30: memory after the copy (`copyFrame_stores`) read inside the destination and outside it. -/
theorem frameCopyKeepsEveryByte : Obligations.FrameCopyKeepsEveryByte := by
  rintro s src dst off ⟨hwf, -, -, hoff⟩ ⟨hsrc, hdst⟩
  obtain ⟨hmem, hsettled⟩ := State.copyFrame_stores hsrc hdst
  have hcleared : ∀ a, lookupD 0#8 a (clearRange (dst * 65536) 65536 s.mem) = if a / 65536 = dst then 0#8 else s.rdByte a := by
    intro a
    rw [clearRange, lookupD_filter 0#8 fun k => decide (k < dst * 65536) || decide (dst * 65536 + 65536 ≤ k)]
    by_cases hin : a / 65536 = dst
    · rw [if_neg (by simp only [Bool.or_eq_true, decide_eq_true_eq]; omega), if_pos hin]
    · rw [if_pos (by simp only [Bool.or_eq_true, decide_eq_true_eq]; omega), if_neg hin, State.rdByte]
  have hinside : (dst * 65536 + off) / 65536 = dst := by omega
  refine ⟨?_, fun a ha => ?_⟩
  · rw [State.memByte_stored (hsettled _ hinside), State.rdByte, hmem,
      lookupD_foldl_putD_in 0#8 (State.frameBytes_canonical hwf src) (by rw [hcleared, if_pos hinside])]
    exact s.lookupD_frameBytes src hoff
  · rw [State.rdByte, hmem, lookupD_foldl_putD_out 0#8 fun p hp => ?_, hcleared, if_neg ha]
    have := State.key_of_mem_frameBytes hp
    omega

end Sys2Proof.Machine
end

section
/-!
SUPPORT. The steps of weight streaming (spec/09_capacity_pool.md R436 to R441, spec/12_beam_and_launching.md R592): what lands in the landing area
or is lifted from it leaves the stream plans, which only the step's own end rewrites.
-/
namespace Sys2Proof.Machine
namespace AccessKept
variable {r s : State}

theorem streamCopy (h : AccessKept r s) (src dst : Nat) : AccessKept r (s.streamCopy src dst) := .ite h ((h.copyFrame src dst).setFrame ..)

theorem landBytes (h : AccessKept r s) (p : StreamPlan) (n : Nat) (bs : List Byte) : AccessKept r (s.landBytes p n bs) := by
  refine .foldl _ h fun u k hu => ?_
  split
  · exact hu.devWrite ..
  · exact hu

theorem landGather (h : AccessKept r s) (p : StreamPlan) (mode : Nat) (w : Nat → Word) (n : Nat) (g : Gathered) :
    AccessKept r (s.landGather p mode w n g) :=
  .ite ((h.landBytes ..).virtWrite ..) (h.landBytes ..)

end AccessKept

/-- A gathered tensor of an entry whose gathers all match does not stop the entry. -/
theorem any_not_filterMap_eq_false {α β : Type} {l : List α} {gather : α → Bool} {found : α → Option β} {ok : α → β → Bool}
    (h : (l.all fun x => !gather x || (found x).all (ok x)) = true) :
    ((l.filterMap fun x => if gather x then (found x).map fun g => (x, g) else none).any fun q => !ok q.1 q.2) = false := by
  rw [List.any_eq_false]
  rintro ⟨x, g⟩ hq
  obtain ⟨y, hy, hyq⟩ := List.mem_filterMap.mp hq
  have hok := List.all_eq_true.mp h y hy
  split at hyq
  next hgather =>
    obtain ⟨g', hg, hpair⟩ := Option.map_eq_some_iff.mp hyq
    cases hpair
    simpa [hgather, hg] using hok
  next => cases hyq

/-- The plan that a die and a launch record name. -/
theorem find_plan_names {plans : List StreamPlan} {die launch : Nat} {p : StreamPlan}
    (h : (plans.find? fun q => q.die == die && q.launch == launch) = some p) : p.die = die ∧ p.launch = launch := by
  simpa using List.find?_some h

theorem genMismatch_counts (s : State) (p : StreamPlan) :
    (s.genMismatch p).rd .collGenMismatchCnt p.die 0 = s.rd .collGenMismatchCnt p.die 0 + 1#64 ∧ (s.genMismatch p).pool = s.pool := by
  unfold State.genMismatch
  extract_lets counted
  have hcounted : counted.rd .collGenMismatchCnt p.die 0 = s.rd .collGenMismatchCnt p.die 0 + 1#64 := State.rd_bump_self ..
  split
  next q _ =>
    have hended := (counted.failSeq_reach q.cluster p.launch stGenMismatch).then (State.grantContexts_reach _) rfl
    exact ⟨(hended.rd_eq .collGenMismatchCnt rfl ..).trans hcounted, (hended.same .pool rfl).trans rfl⟩
  next => exact ⟨hcounted, rfl⟩

/-! ## The steps (R437 to R441) -/

/-- Whether a plan's entry is the first of those being fetched and has its landing area and its slot (R437, R438). -/
def StreamPlan.mayLift (p : StreamPlan) (i : Nat) : Bool :=
  p.fetching.all (i ≤ ·) && p.fetching.contains i && p.fetched == [] && p.landing.length == p.size && p.slotFree i

/-- The gathered tensors of an entry with what has come for them. -/
def gathersOf (gathered : List Gathered) (ts : List EntryTensor) : List (EntryTensor × Gathered) :=
  ts.filterMap fun t => if t.gather then (gathered.find? fun g => g.place.val == t.place).map fun g => (t, g) else none

/-- Whether what has come for a plan's entry does not match (R441, R545). -/
def State.gatherFails (s : State) (p : StreamPlan) (i : Nat) (gathered : List Gathered) : Bool :=
  (gathersOf gathered (s.planEntry p i).2.2).any fun q =>
    !s.gatherMatches p (s.planEntry p i).2.1 (fun k => s.tensorWord p.die p.owner (s.planProg p) q.1.index k) q.2.stamps

section
variable {s : State} {die : Fin 2} {launch : BitVec 12} {entry : BitVec 24} {p : StreamPlan} {gathered : List Gathered} {pages : List (Nat × Nat)}
variable (hplan : (s.pool.plans.find? fun q => q.die == die.val && q.launch == launch.toNat) = some p)
include hplan

/-- WINDOW_LIFT whose pages are there comes to the check of its gathers. -/
theorem windowLiftEffect_of_ready (hready : p.mayLift entry.toNat = true)
    (hpages : s.entryPages p (s.entryRuns p (s.planProg p) (s.planEntry p entry.toNat).1 0 (s.planEntry p entry.toNat).2.2) = some pages) :
    (s.gatherFails p entry.toNat gathered = true → windowLiftEffect die launch entry gathered s = s.genMismatch p) ∧
    (s.gatherFails p entry.toNat gathered = false → (windowLiftEffect die launch entry gathered s).pool.plans = s.pool.plans.map fun q =>
      if q.die == die.val && q.launch == launch.toNat then
        { q with fetching := setErase entry.toNat q.fetching, fetched := setInsert entry.toNat q.fetched } else q) := by
  obtain ⟨hdie, hlaunch⟩ := find_plan_names hplan
  unfold StreamPlan.mayLift at hready
  unfold State.gatherFails gathersOf windowLiftEffect
  refine ⟨fun hfails => ?_, fun hmatch => ?_⟩
  · simp only [hplan, hready, hpages, hfails, if_true]
  · simp only [hplan, hready, hpages, hmatch, if_true, Bool.false_eq_true, if_false]
    rw [hdie, hlaunch]
    refine congrArg (List.map _) (AccessKept.plans (.foldl _ (.foldl _ (.refl s) fun u q hu => ?_) fun u q hu => ?_))
    · split
      · exact hu.streamCopy ..
      · exact hu
    · split
      · exact hu.landGather ..
      · exact hu

theorem windowLiftCompleteEffect_lifts {slot : BitVec 4}
    (hready : (slot.toNat == entry.toNat % p.w && p.fetched.contains entry.toNat &&
      (p.slots.getD (entry.toNat % p.w) []).length == p.size && !p.landing.any (fun n => (s.frame n).quarantined)) = true) :
    (windowLiftCompleteEffect die launch entry slot s).pool.plans = s.pool.plans.map fun q =>
      if q.die == die.val && q.launch == launch.toNat then
        { q with fetched := setErase entry.toNat q.fetched, lifted := setInsert entry.toNat q.lifted } else q := by
  obtain ⟨hdie, hlaunch⟩ := find_plan_names hplan
  unfold windowLiftCompleteEffect
  simp only [hplan, hready, if_true]
  rw [hdie, hlaunch]
  exact congrArg (List.map _) (AccessKept.plans (.foldl _ (.refl s) fun u q hu => hu.streamCopy ..))

end

theorem mayLift_of {p : StreamPlan} {i : Nat} (hlist : (p.fetching.all fun k => decide (i ≤ k)) = true ∧ p.fetching.contains i = true ∧ p.fetched = [])
    (hlanding : p.landing.length = p.size) (hslot : p.slotFree i = true) : p.mayLift i = true := by
  obtain ⟨hfirst, hfetching, hnone⟩ := hlist
  simp only [StreamPlan.mayLift, hfirst, hfetching, hnone, hlanding, hslot, beq_self_eq_true, Bool.and_true]

/-- Settles O31: an entry whose gathers match is fetched, one that does not match is counted, and a fetched entry is lifted. -/
theorem streamPlanEntriesAreLifted : Obligations.StreamPlanEntriesAreLifted := by
  refine ⟨?fetched, ?mismatch, ?lifted⟩
  case fetched =>
    intro s die launch entry gathered p pages e hplan hlist ⟨hlanding, hslot, hpages⟩ hmatch
    exact ⟨_, rfl, (windowLiftEffect_of_ready hplan (mayLift_of hlist hlanding hslot) hpages).2 (any_not_filterMap_eq_false hmatch)⟩
  case mismatch =>
    intro s die launch entry gathered p pages x g e hplan hlist ⟨hlanding, hslot, hpages⟩ ⟨hx, hgather, hg⟩ hmatch
    have hlanded : (x, g) ∈ gathersOf gathered (s.planEntry p entry.toNat).2.2 :=
      List.mem_filterMap.mpr ⟨x, hx, by rw [if_pos hgather, hg, Option.map_some]⟩
    have hends := (windowLiftEffect_of_ready (gathered := gathered) hplan (mayLift_of hlist hlanding hslot) hpages).1
      (List.any_eq_true.mpr ⟨(x, g), hlanded, (Bool.not_eq_true' _).mpr hmatch⟩)
    obtain ⟨hcount, hpool⟩ := genMismatch_counts s p
    rw [← (find_plan_names hplan).1]
    exact ⟨_, congrArg Host.Outcome.next hends, hcount, congrArg Pool.plans hpool⟩
  case lifted =>
    intro s die launch entry slot p hplan ⟨hslot, hfetched, hinto⟩ hsound
    refine ⟨_, rfl, windowLiftCompleteEffect_lifts hplan ?_⟩
    have hnone : (p.landing.any fun n => (s.frame n).quarantined) = false := by simpa using hsound
    simp only [hslot, hfetched, hinto, hnone, beq_self_eq_true, Bool.and_true, Bool.not_false]

end Sys2Proof.Machine
end

section
/-!
SUPPORT. Responses at a message's origin (spec/10_links_and_windows.md R491 to R499, spec/09_capacity_pool.md R446): the arrival of a response
touches the fabric's inbox alone, an outcome ends the message and on failure its chain, and a rebuilt sector is stored whole.
-/
namespace Sys2Proof.Machine

/-! ## A response arrives (R487) -/

theorem State.arrived_eq {h : Words4} (hput : mtype h ≠ 1) (hget : mtype h ≠ 2) (s : State) :
    s.arrived h = { s with fabric := { s.fabric with inbox := s.fabric.inbox.filter fun m => m.header != some h } } := by
  have hnone : (decide (srcPkg h = s.ownPkg) && (mtype h == 1 || mtype h == 2)) = false := by simp [hput, hget]
  unfold State.arrived
  exact if_neg (Bool.eq_false_iff.mp hnone)

/-- A header that is no PUT and no GET_REQ changes the fabric alone, and leaves its links. -/
theorem State.arrived_response {h : Words4} (hput : mtype h ≠ 1) (hget : mtype h ≠ 2) (s : State) :
    Reach 0x800000 s (s.arrived h) ∧ ∀ k, (s.arrived h).link k = s.link k := by
  rw [State.arrived_eq hput hget]
  exact ⟨(Reach.refl _ s).set_fabric rfl, fun _ => rfl⟩

/-- A GET_DATA whose tries all end in a good line has none whose tries are exhausted (R499). -/
theorem lineTries_not_past {retry : Nat} {good : LineSeg → Bool} {fails : Nat} {ts : LineTries} (h : (lineTries retry good fails ts).1.isSome = true) :
    (lineTries retry good fails ts).2.2 = false := by
  induction ts generalizing fails with
  | nil => cases h
  | cons t ts ih =>
    rw [lineTries] at h ⊢
    by_cases hgood : good t = true
    · rw [if_pos hgood]
    rw [if_neg hgood] at h ⊢
    by_cases hpast : retry < fails + 1
    · rw [if_pos hpast] at h
      cases h
    · rw [if_neg hpast] at h ⊢
      exact ih h

/-! ## The outcome of a message (R492) -/

/-- The message that a tag names is outstanding no more. -/
def State.dropMsg (s : State) (tag : Nat) : State := { s with sentMsgs := s.sentMsgs.filter fun x => x.num != tag }

theorem State.dropMsg_reach (s : State) (tag : Nat) : Reach 0x100000 s (s.dropMsg tag) := (Reach.refl _ s).set_sentMsgs rfl

theorem State.dropMsg_none (s : State) (tag : Nat) : ((s.dropMsg tag).sentMsgs.any fun x : OriginMsg => x.num == tag) = false := by
  simp [State.dropMsg, List.any_filter]

section
variable {s : State} {tag : Nat} {m : OriginMsg} (hm : (s.sentMsgs.find? fun m : OriginMsg => m.num == tag) = some m)
include hm

theorem State.msgOutcome_of_chain {ref : ChainRef} {c : Chain} (href : m.chain = some ref) (hfound : s.findChain ref = some c) (status : Nat) :
    s.msgOutcome tag status = if goodStatus status then (s.dropMsg tag).showTasks c else (s.dropMsg tag).endChain c status m.stage := by
  have hfound' : (s.dropMsg tag).findChain ref = some c := hfound
  unfold State.dropMsg at hfound' ⊢
  simp only [State.msgOutcome, hm, href, Option.bind_some, hfound']

theorem State.msgOutcome_of_no_chain (href : m.chain = none) (status : Nat) : s.msgOutcome tag status = s.dropMsg tag := by
  simp only [State.msgOutcome, hm, href, Option.bind_none, State.dropMsg]

/-- A good outcome ends the message and leaves the chains. -/
theorem State.msgOutcome_ok {status : Nat} (hgood : goodStatus status = true) :
    Reach 0x800000000000000000020 (s.dropMsg tag) (s.msgOutcome tag status) := by
  unfold State.msgOutcome
  rw [hm]
  dsimp only
  split
  · rw [if_pos hgood]
    exact State.showTasks_reach ..
  · exact .refl ..

end

/-- A chain that closes sends no message: those left are as before, or stopped. -/
theorem State.closeChain_any_num (s : State) (c : Chain) (status stage tag : Nat) (h : (s.sentMsgs.any fun x : OriginMsg => x.num == tag) = false) :
    ((s.closeChain c status stage).sentMsgs.any fun x : OriginMsg => x.num == tag) = false := by
  obtain ⟨item, freed, hfreed, heq⟩ := s.closeChain_eq c status stage
  have hsent : (freed.dropSaved c).sentMsgs = s.sentMsgs :=
    ((State.dropSaved_reach ..).same .sentMsgs rfl).trans ((hfreed.same .sentMsgs rfl).trans ((State.bump_logChain_reach ..).same .sentMsgs rfl))
  rw [heq]
  show ((((freed.dropSaved c).sentMsgs.filter _).map _).any _) = false
  rw [hsent]
  rw [List.any_eq_false] at h ⊢
  intro x hx
  obtain ⟨y, hy, rfl⟩ := List.mem_map.mp hx
  have hnot := h y (List.mem_filter.mp hy).1
  split
  · exact hnot
  · exact hnot

/-- A failure ends the message and the chain of the stage whose message it is. -/
theorem State.msgOutcome_fails {s u : State} {tag status : Nat} {m : OriginMsg} {ref : ChainRef} {c : Chain} (hu : Reach 0x800000 s u)
    (hm : (s.sentMsgs.find? fun m : OriginMsg => m.num == tag) = some m)
    (hchain : m.chain = some ref ∧ s.findChain ref = some c ∧ c.aborting = none ∧
      (s.chains.filter fun d : Chain => d.launch == c.launch) = [c] ∧ s.fld cluChainLogValid c.cluster = 0)
    (hbad : goodStatus status = false) (hcode : status < 256) :
    (((u.msgOutcome tag status).sentMsgs.any fun x : OriginMsg => x.num == tag) = false) ∧
    (u.msgOutcome tag status).rd .cluChainEndCnt c.cluster 0 = s.rd .cluChainEndCnt c.cluster 0 + 1#64 ∧
    (u.msgOutcome tag status).fld cluChainLogStatus c.cluster = status := by
  obtain ⟨href, hfound, habort, halone, hfree⟩ := hchain
  have hv : Reach 0x900000 s (u.dropMsg tag) := (hu.mono rfl).then (u.dropMsg_reach tag) rfl
  have hends : u.msgOutcome tag status = (u.dropMsg tag).endChain c status m.stage := by
    rw [State.msgOutcome_of_chain (by rwa [hu.same .sentMsgs rfl]) href ((congrArg (List.find? _) (hu.same .chains rfl)).trans hfound), hbad]
    exact if_neg Bool.false_ne_true
  have halone' : ((u.dropMsg tag).chains.filter fun d : Chain => d.launch == c.launch) = [c] := by rw [hv.same .chains rfl, halone]
  have hcounts := State.endChain_counts_and_logs habort hbad hcode halone' ((hv.fld_eq _ rfl ..).trans hfree) m.stage
  rw [hv.rd_eq _ rfl] at hcounts
  rw [hends]
  refine ⟨?_, hcounts⟩
  rw [(State.endChain_reach_of_failure habort hbad halone' m.stage).same .sentMsgs rfl]
  exact State.closeChain_any_num _ _ _ _ _ (u.dropMsg_none tag)

/-! ## The data of a GET (R488, R491) -/

theorem flatMap_take_units (l : List Byte) (n : Nat) : (List.range n).flatMap (fun k => (l.drop (32 * k)).take 32) = l.take (32 * n) := by
  induction n with
  | zero => simp
  | succ n ih => rw [List.range_succ, List.flatMap_append, ih, List.flatMap_singleton, Nat.mul_succ, List.take_add]

/-- The units of a run that lies in one line. -/
theorem lineUnits_of_one {offset len : Nat} (hlen : 0 < len) (h : lineCount offset len = 1) :
    lineUnits offset len 0 = (List.range len).map fun k => (32 * k, 32 * (offset % 4) + 32 * k) := by
  have hwhole : offset + len ≤ 4 * (offset / 4 + 1) := by
    rw [lineCount] at h
    omega
  have hspan : lineSpan offset len 0 = (0, 32 * len) := by
    rw [lineSpan]
    exact Prod.ext (by simp only; omega) (by simp only; omega)
  rw [lineUnits, hspan]
  dsimp only
  rw [Nat.mul_div_cancel_left _ (by decide : 0 < 32)]
  refine List.map_congr_left fun k _ => Prod.ext (by simp only; omega) (by simp only; omega)

/-- What one whole, sound line delivers. -/
theorem OriginMsg.gather_of_one {m : OriginMsg} {header : Words4} {seg : LineSeg} (hone : lineCount (hdrOffset header) (hdrLen header) = 1)
    (hsound : seg.poison = false) (hwithin : m.offset % 32 + m.length ≤ 32 * hdrLen header) :
    m.gather header [seg] = (((bytesOf seg.data.toNat 128).drop (32 * (hdrOffset header % 4) + m.offset % 32)).take m.length, []) := by
  have hlen : 0 < hdrLen header := Nat.succ_pos _
  unfold OriginMsg.gather
  simp only [List.zipIdx_cons, List.zipIdx_nil, List.flatMap_cons, List.flatMap_nil, List.append_nil, lineUnits_of_one hlen hone, hsound]
  refine Prod.ext ?_ ?_
  · simp only [List.flatMap_map, ← List.drop_drop]
    rw [flatMap_take_units, List.drop_take, List.take_take, Nat.min_eq_left (by omega)]
  · simp [List.filter_map, Function.comp_def]

/-- A chain that waits or has stopped keeps its stage waiting. -/
theorem State.retryStage_of_still {s : State} {ref : ChainRef} (h : ∀ d, s.findChain ref = some d → (d.stopped || d.waiting) = true) (k : Nat) :
    s.retryStage ref k = s := by
  unfold State.retryStage
  split
  · rfl
  next d hfound =>
    have hstill : (!d.stopped && !d.waiting) = false := by rw [← Bool.not_or, h d hfound]; rfl
    split
    · simp only [Bool.and_assoc, hstill, Bool.and_false, Bool.false_eq_true, if_false]
    · rfl

theorem Chain.same_of_is {a b : Chain} {r : ChainRef} (ha : a.is r = true) (hb : b.is r = true) : a.same b = true := by
  simp only [Chain.is, Chain.same, Bool.and_eq_true, beq_iff_eq] at ha hb ⊢
  obtain ⟨⟨⟨hcluster, hlaunch⟩, hahead⟩, hextra⟩ := ha
  obtain ⟨⟨⟨hcluster', hlaunch'⟩, hahead'⟩, hextra'⟩ := hb
  exact ⟨⟨⟨hcluster.trans hcluster'.symm, hlaunch.trans hlaunch'.symm⟩, hahead.trans hahead'.symm⟩, hextra.trans hextra'.symm⟩

/-- The chain that a name finds after one that it names has been replaced. -/
theorem State.eq_of_findChain_setChain {s : State} {r : ChainRef} {c d : Chain} (hc : c.is r = true) (h : (s.setChain c).findChain r = some d) :
    d = c := by
  have hlisted : d ∈ s.chains.map fun d => if d.same c then c else d := List.mem_of_find?_eq_some h
  have hnamed : d.is r = true := List.find?_some (p := fun x : Chain => x.is r) h
  obtain ⟨x, -, rfl⟩ := List.mem_map.mp hlisted
  split at hnamed
  next hsame => rw [if_pos hsame]
  next hother => exact absurd (Chain.same_of_is hnamed hc) hother

theorem Chain.ref_of_is {c : Chain} {r : ChainRef} (h : c.is r = true) : c.ref = r := by
  obtain ⟨cluster, launch, ahead, extra⟩ := r
  simp only [Chain.is, Bool.and_eq_true, beq_iff_eq] at h
  obtain ⟨⟨⟨hcluster, hlaunch⟩, rfl⟩, rfl⟩ := h
  have hfin : Fin.ofNat 24 c.cluster = cluster := Fin.ext (by rw [hcluster]; exact Nat.mod_eq_of_lt cluster.isLt)
  have hbits : BitVec.ofNat 12 c.launch = launch := by rw [hlaunch, BitVec.ofNat_toNat, BitVec.setWidth_eq]
  rw [Chain.ref, hfin, hbits]

/-- R491: the bytes go to the stage that asked for them, of a chain that waits or has stopped. -/
theorem State.deliverGet_of_still {s : State} {m : OriginMsg} {ref : ChainRef} {c : Chain} (href : m.chain = some ref)
    (hfound : s.findChain ref = some c) (hstill : (c.stopped || c.waiting) = true) (bs : List Byte) :
    s.deliverGet m bs [] = s.setChain { c with stages := c.stages.modify m.stage fun g : Stage => { g with ovl := g.ovl ++ [(m.dest, bs)] } } := by
  have hnamed : c.is ref = true := List.find?_some (p := fun x : Chain => x.is ref) hfound
  unfold State.deliverGet
  simp only [href, Option.bind_some, hfound, List.append_nil]
  refine State.retryStage_of_still (fun d hd => ?_) _
  rw [Chain.ref_of_is hnamed] at hd
  have hsame := State.eq_of_findChain_setChain (c := { c with stages := c.stages.modify m.stage fun g : Stage => { g with ovl := g.ovl ++ [(m.dest, bs)] } })
    hnamed hd
  rw [hsame]
  exact hstill

/-! ## Rebuilt sectors (R446, R447) -/

/-- A rebuilt sector, with no stage that waits for its reads: stored whole, counted, and no longer being rebuilt. -/
theorem State.writeRebuilt_writes {s : State} {sector : Nat} {bs : List Byte} (hsector : sector % 32 = 0) (hbs : bs.length = 32)
    (hdone : s.noneTodo = true) : (s.writeRebuilt sector bs).memBytes sector 32 = bs ∧
    (s.writeRebuilt sector bs).rd .poolRebuildCnt (s.frameDie (sector / 65536)) 0 = s.rd .poolRebuildCnt (s.frameDie (sector / 65536)) 0 + 1#64 ∧
    (s.writeRebuilt sector bs).pool.rebuilds = s.pool.rebuilds.filter fun r => r.sector != sector := by
  have hput := s.putMem_reach sector bs
  have hstored := (State.putMem_sector (s := s) (pa := sector) (by omega) hbs).bump .poolRebuildCnt (s.frameDie (sector / 65536)) 0 1
  have hkept : AccessKept s (s.putMem sector bs) := (AccessKept.refl s).putMem ..
  have hchains : (s.putMem sector bs).chains = s.chains := hput.same .chains rfl
  have hcount : (s.putMem sector bs).rd .poolRebuildCnt (s.frameDie (sector / 65536)) 0 = s.rd .poolRebuildCnt (s.frameDie (sector / 65536)) 0 :=
    hput.rd_eq _ rfl ..
  unfold State.writeRebuilt
  dsimp only
  generalize s.putMem sector bs = t at hstored hkept hchains hcount ⊢
  rw [State.retryChains_of_done (by rwa [State.noneTodo_congr (show ((t.bump .poolRebuildCnt (s.frameDie (sector / 65536)) 0 1).dropRebuild sector).chains
    = s.chains from hchains)])]
  refine ⟨hstored.bytes, ?_, ?_⟩
  · rw [← hcount]
    exact State.rd_bump_self t .poolRebuildCnt (s.frameDie (sector / 65536)) 0 1
  · rw [← hkept.rebuilds]
    rfl

/-! ## The responses (R446, R491 to R499) -/

theorem dstPkg_answer (h : Words4) (mt status cause line : Nat) : dstPkg (answer h mt status cause line) = srcPkg h := by
  have hsrc : srcPkg h < 4096 := Nat.mod_lt _ (by decide)
  rw [dstPkg, answer, mkHeader, bitsOf, BitVec.toNat_ofNat]
  omega

theorem mtype_answer (h : Words4) {mt : Nat} (hmt : mt < 16) (status cause line : Nat) : mtype (answer h mt status cause line) = mt := by
  rw [mtype, answer, mkHeader, bitsOf, BitVec.toNat_ofNat]
  omega

/-- A die's route to a package goes by its route entries and the states of its links. -/
theorem Reach.routeLink_eq {F : Nat} {s t : State} (h : Reach F s t) (hroute : F.testBit (64 + Reg.collRoute.ctorIdx) = false)
    (hlink : F.testBit (64 + fabStatusState.reg.ctorIdx) = false) (die pkg : Nat) : t.routeLink die pkg = s.routeLink die pkg := by
  simp only [State.routeLink, State.routeEntry, State.linkState, h.rd_eq _ hroute, h.fld_eq _ hlink]

/-- The place of a message's byte goes by its window entry and the translation of the owner's addresses. -/
theorem Reach.winPlace_eq {F : Nat} {s t : State} (h : Reach F s t) (hout : ∀ c ∈ virtualCells, F.testBit c.code = false)
    (h0 : F.testBit (64 + Reg.winEntryW0.ctorIdx) = false) (h1 : F.testBit (64 + Reg.winEntryW1.ctorIdx) = false)
    (h2 : F.testBit (64 + Reg.winEntryW2.ctorIdx) = false) (g : Landing) (m : Nat) (write : Bool) : t.winPlace g m write = s.winPlace g m write := by
  have hxlat := (h.sameVirtual hout).xlat
  simp only [State.winPlace, State.winStage, State.winOwner, State.winBase, h.fld_eq winEntryW0Base h0, h.fld_eq winEntryW1Owner h1,
    h.fld_eq winEntryW2RingNslotsM1 h2, h.fld_eq winEntryW2RingTokenBase h2, h.fld_eq winEntryW2RingSlotLinesM1 h2, hxlat]

theorem State.link_enqueue (s : State) (l : Nat) (m : TxMsg) (vc : Nat) :
    (s.enqueue l m vc).link l = (s.link l).setTx vc ((s.link l).tx vc ++ [m]) := lookupD_putD_self ..

/-- R516: a message that a die originates for another package goes out on the lowest UP link of its route. -/
theorem State.post_of_route {s : State} {die k : Nat} {h : Words4} (hother : dstPkg h ≠ s.ownPkg) (hroute : s.routeLink die (dstPkg h) = some k)
    (lines : List LineSeg) : s.post die h lines = s.enqueue k { header := some (setVia h false), lines := lines } (vcOf h) := by
  simp only [State.post, State.sendMsg, if_neg hother, hroute, Bool.false_and, Bool.false_eq_true, if_false]

section
variable {s : State} {header : Words4} {m : OriginMsg}

/-- GET_DATA whose lines are all good comes to the target's status and hands over what they hold. -/
theorem getDataEffect_delivers (htype : mtype header = 3)
    (hget : (s.sentMsgs.find? fun m : OriginMsg => m.num == hdrTag header && m.get) = some m) {lines : List LineTries}
    (hgood : ((List.range (lineCount (hdrOffset header) (hdrLen header))).all fun i =>
      (lineTries (s.dnat dkLineCrcRetry) (segGood header i) 0 (lines.getD i [])).1.isSome) = true) :
    let u := s.arrived header
    let st := u.responseStatus (hdrTag header) (hdrStatus header)
    let held := m.gather header (((List.range (lineCount (hdrOffset header) (hdrLen header))).map fun i =>
      lineTries (s.dnat dkLineCrcRetry) (segGood header i) 0 (lines.getD i [])).filterMap (·.1))
    getDataEffect header lines s = if st = stOk then (u.msgOutcome (hdrTag header) st).deliverGet m held.1 held.2 else u.msgOutcome (hdrTag header) st := by
  have hu := (s.arrived_response (h := header) (by omega) (by omega)).1
  have hget' : ((s.arrived header).sentMsgs.find? fun m : OriginMsg => m.num == hdrTag header && m.get) = some m := by rwa [hu.same .sentMsgs rfl]
  have hdnat : (s.arrived header).dnat dkLineCrcRetry = s.dnat dkLineCrcRetry := by
    rw [State.dnat, State.dget, hu.same .dict rfl]
    rfl
  have hpast : (((List.range (lineCount (hdrOffset header) (hdrLen header))).map fun i =>
      lineTries (s.dnat dkLineCrcRetry) (segGood header i) 0 (lines.getD i [])).any fun t => t.2.2) = false := by
    rw [List.any_map, List.any_eq_false]
    intro i hi
    rw [Function.comp_apply, lineTries_not_past (List.all_eq_true.mp hgood i hi)]
    exact Bool.false_ne_true
  have hnone : (((List.range (lineCount (hdrOffset header) (hdrLen header))).map fun i =>
      lineTries (s.dnat dkLineCrcRetry) (segGood header i) 0 (lines.getD i [])).any fun t => t.1.isNone) = false := by
    rw [List.any_map, List.any_eq_false]
    intro i hi
    rw [Function.comp_apply, Option.isNone_eq_false_iff.mpr (List.all_eq_true.mp hgood i hi)]
    exact Bool.false_ne_true
  intro u st held
  unfold getDataEffect
  rw [if_neg (not_not.mpr htype)]
  simp only [hget', hdnat, hpast, hnone, Bool.false_eq_true, if_false]
  rfl

/-- A message not aborted whose target says OK ends with OK. -/
theorem State.responseStatus_ok {u : State} {tag : Nat} (hm : (u.sentMsgs.find? fun m : OriginMsg => m.num == tag) = some m) (habort : m.aborted = false) :
    u.responseStatus tag 0 = stOk := by
  have hok : ¬(0 ≠ stOk) := not_not.mpr rfl
  unfold State.responseStatus
  rw [if_neg hok, hm]
  exact if_neg (Bool.eq_false_iff.mp habort)

/-- GET_DATA of one whole, sound line: a good outcome, and the bytes asked for. -/
theorem getDataEffect_of_one_line {seg : LineSeg} (htype : mtype header = 3)
    (hget : (s.sentMsgs.find? fun m : OriginMsg => m.num == hdrTag header && m.get) = some m)
    (hm : (s.sentMsgs.find? fun m : OriginMsg => m.num == hdrTag header) = some m) (habort : m.aborted = false)
    (hone : lineCount (hdrOffset header) (hdrLen header) = 1) (hgood : segGood header 0 seg = true) (hsound : seg.poison = false)
    (hok : hdrStatus header = 0) (hwithin : m.offset % 32 + m.length ≤ 32 * hdrLen header) :
    getDataEffect header [[seg]] s = ((s.arrived header).msgOutcome (hdrTag header) stOk).deliverGet m
      (((bytesOf seg.data.toNat 128).drop (32 * (hdrOffset header % 4) + m.offset % 32)).take m.length) [] := by
  have htry : lineTries (s.dnat dkLineCrcRetry) (segGood header 0) 0 [seg] = (some seg, 0, false) := if_pos hgood
  have hall : ((List.range (lineCount (hdrOffset header) (hdrLen header))).all fun i =>
      (lineTries (s.dnat dkLineCrcRetry) (segGood header i) 0 (([[seg]] : List LineTries).getD i [])).1.isSome) = true := by
    rw [hone]
    exact (Bool.and_true _).trans (congrArg (fun t => t.1.isSome) htry)
  have hheld : (((List.range (lineCount (hdrOffset header) (hdrLen header))).map fun i =>
      lineTries (s.dnat dkLineCrcRetry) (segGood header i) 0 (([[seg]] : List LineTries).getD i [])).filterMap (·.1)) = [seg] := by
    rw [hone]
    show List.filterMap _ [lineTries (s.dnat dkLineCrcRetry) (segGood header 0) 0 [seg]] = _
    rw [htry]
    rfl
  have hdelivers := getDataEffect_delivers htype hget hall
  rw [← ((s.arrived_response (h := header) (by omega) (by omega)).1).same .sentMsgs rfl] at hm
  simpa only [hok, State.responseStatus_ok hm habort, hheld, if_true, OriginMsg.gather_of_one hone hsound hwithin] using hdelivers

end

/-- The access that REBUILD_REQ makes through its window. -/
def rebuildLanding (header : Words4) : Landing :=
  { num := 0, die := hdrWindow header / 512, entry := hdrWindow header % 512, header := header, get := true }

/-- R446: a sound sector of the stamp asked for goes back to its package, on VC 3. -/
theorem rebuildReqEffect_answers {s : State} {header : Words4} {pa k : Nat} (htype : mtype header = 9)
    (hopen : s.winState (hdrWindow header / 512) (hdrWindow header % 512) = 1)
    (hepoch : hdrEpoch header = s.winEpoch (hdrWindow header / 512) (hdrWindow header % 512))
    (hplace : s.winPlace (rebuildLanding header) 0 false = some pa) (hstamp : (s.frame (pa / 65536)).stamp = bitsOf header.w3 32 32)
    (hsound : s.sectorSound pa = true) (hother : srcPkg header ≠ s.ownPkg)
    (hroute : s.routeLink (hdrWindow header / 512) (srcPkg header) = some k) :
    rebuildReqEffect header s = ((s.arrived header).readLine (rebuildLanding header) 0).1.enqueue k
      { header := some (setVia (answer header 10 stOk 0 0) false), lines := [((s.arrived header).readLine (rebuildLanding header) 0).2.1] } 3 := by
  obtain ⟨hu, -⟩ := s.arrived_response (h := header) (by omega) (by omega)
  have hread := ((s.arrived header).readLine_reach (rebuildLanding header) 0).fst
  have hpkg : ((s.arrived header).readLine (rebuildLanding header) 0).1.ownPkg = s.ownPkg :=
    congrArg Int.toNat (((AccessKept.reach (.refl s) hu rfl rfl).readLine (rebuildLanding header) 0).dget dkPackageId (by decide))
  have hopen' : (s.arrived header).winState (hdrWindow header / 512) (hdrWindow header % 512) = 1 ∧
      hdrEpoch header = (s.arrived header).winEpoch (hdrWindow header / 512) (hdrWindow header % 512) :=
    ⟨(hu.fld_eq _ rfl ..).trans hopen, hepoch.trans (hu.fld_eq _ rfl ..).symm⟩
  have hplace' := (hu.winPlace_eq (by decide) rfl rfl rfl (rebuildLanding header) 0 false).trans hplace
  have hasks : ((s.arrived header).frame (pa / 65536)).stamp = bitsOf header.w3 32 32 ∧ (s.arrived header).sectorSound pa = true := by
    refine ⟨by rw [hu.frame_eq rfl]; exact hstamp, ?_⟩
    rw [← hsound, State.arrived_eq (by omega) (by omega)]
    rfl
  have hvc : vcOf (answer header 10 stOk 0 0) = 3 := by
    rw [vcOf, mtype_answer _ (by decide)]
    rfl
  have hpost := State.post_of_route (s := ((s.arrived header).readLine (rebuildLanding header) 0).1) (die := hdrWindow header / 512) (k := k)
    (h := answer header 10 stOk 0 0) (by rw [dstPkg_answer, hpkg]; exact hother)
    (by rw [dstPkg_answer, hread.routeLink_eq rfl rfl, hu.routeLink_eq rfl rfl]; exact hroute)
    [((s.arrived header).readLine (rebuildLanding header) 0).2.1]
  rw [hvc] at hpost
  unfold rebuildLanding at hplace' hpost ⊢
  rw [rebuildReqEffect, if_neg (not_not.mpr htype)]
  simp only [if_pos hopen', hplace', if_pos hasks, hpost]

/-- Settles O38: each response changes the fabric's inbox (`arrived_response`) and gives its message the outcome named. -/
theorem responsesAtTheOrigin : Obligations.ResponsesAtTheOrigin := by
  refine ⟨?getData, ?getDataFree, ?accept, ?acceptLate, ?landed, ?refuse, ?lost, ?reline, ?timeout, ?rebuildReq, ?rebuildData⟩
  case getData =>
    rintro s header seg m ref c bs ⟨htype, hget, hm⟩ ⟨hone, hgood, hsound, hok, habort⟩ ⟨hwithin, href, hfound, hstill⟩
    have hdelivers := getDataEffect_of_one_line htype hget hm habort hone hgood hsound hok hwithin
    obtain ⟨hu, -⟩ := s.arrived_response (h := header) (by omega) (by omega)
    generalize s.arrived header = u at hu hdelivers
    rw [← hu.same .sentMsgs rfl] at hm
    have hended := State.msgOutcome_ok hm (status := stOk) rfl
    generalize u.msgOutcome (hdrTag header) stOk = t at hended hdelivers
    have hchains : t.chains = s.chains := (hended.same .chains rfl).trans (hu.same .chains rfl)
    have hfound' : t.findChain ref = some c := by rw [State.findChain, hchains]; exact hfound
    rw [State.deliverGet_of_still href hfound' hstill] at hdelivers
    refine ⟨_, congrArg Host.Outcome.next hdelivers, ?_, (hended.same .sentMsgs rfl).trans (congrArg _ (hu.same .sentMsgs rfl))⟩
    rw [State.setChain, State.setChain, hchains]
  case getDataFree =>
    rintro s header lines m ⟨htype, hget, hm⟩ ⟨hall, hfree⟩
    have hdelivers := getDataEffect_delivers htype hget hall
    obtain ⟨hu, -⟩ := s.arrived_response (h := header) (by omega) (by omega)
    generalize s.arrived header = u at hu hdelivers
    rw [← hu.same .sentMsgs rfl] at hm
    have hends := State.msgOutcome_of_no_chain hm hfree
    have hkept : ∀ (v : State) bs bad, v.deliverGet m bs bad = v := fun v bs bad => by simp only [State.deliverGet, hfree, Option.bind_none]
    simp only [hkept, hends, ite_self] at hdelivers
    exact ⟨_, congrArg Host.Outcome.next hdelivers, congrArg _ (hu.same .sentMsgs rfl), hu.same .chains rfl, hu.same .mem rfl⟩
  case accept =>
    rintro s header ⟨htype, hsent⟩
    obtain ⟨hu, -⟩ := s.arrived_response (h := header) (by omega) (by omega)
    have hkept : acceptEffect header s = s.arrived header := by
      rw [acceptEffect, if_neg (not_not.mpr htype)]
      refine if_pos ?_
      rwa [hu.same .sentMsgs rfl]
    refine ⟨_, congrArg Host.Outcome.next hkept, hu.same .sentMsgs rfl, ?_, hu.same .mem rfl⟩
    rw [State.arrived_eq (by omega) (by omega)]
  case acceptLate =>
    rintro s header ⟨htype, hsent⟩
    obtain ⟨hu, -⟩ := s.arrived_response (h := header) (by omega) (by omega)
    have hlate : acceptEffect header s = (s.arrived header).bump .winLateRespCnt (hdrTag header / 32768) 0 1 := by
      rw [acceptEffect, if_neg (not_not.mpr htype)]
      refine if_neg ?_
      rw [hu.same .sentMsgs rfl, hsent]
      exact Bool.false_ne_true
    refine ⟨_, congrArg Host.Outcome.next hlate, ?_⟩
    exact (State.rd_bump_self ..).trans (congrArg (· + 1#64) (hu.rd_eq .winLateRespCnt rfl ..))
  case landed =>
    rintro s header m ⟨htype, hm, hok, habort⟩
    obtain ⟨hu, -⟩ := s.arrived_response (h := header) (by omega) (by omega)
    rw [← hu.same .sentMsgs rfl] at hm
    have hlands : landedEffect header s = (s.arrived header).msgOutcome (hdrTag header) stOk := by
      rw [landedEffect, if_neg (not_not.mpr htype), hok]
      dsimp only
      rw [State.responseStatus_ok hm habort]
    have hended := State.msgOutcome_ok hm (status := stOk) rfl
    exact ⟨_, congrArg Host.Outcome.next hlands, (hended.same .sentMsgs rfl).trans (congrArg _ (hu.same .sentMsgs rfl)),
      (hended.same .chains rfl).trans (hu.same .chains rfl)⟩
  case refuse =>
    rintro s header m ref c ⟨htype, hm, habort⟩ hchain
    obtain ⟨hu, -⟩ := s.arrived_response (h := header) (by omega) (by omega)
    have hstops := hu.then (State.stopLines_reach (s.arrived header) ((s.arrived header).originHeader m)) rfl
    have hm' : ((s.arrived header).sentMsgs.find? fun m : OriginMsg => m.num == hdrTag header) = some m := by rwa [hu.same .sentMsgs rfl]
    have hrefuses : refuseEffect header s =
        ((s.arrived header).stopLines ((s.arrived header).originHeader m)).msgOutcome (hdrTag header) stWindowClosed := by
      rw [refuseEffect, if_neg (not_not.mpr htype)]
      simp only [hm', habort, Bool.false_eq_true, if_false]
    exact ⟨_, congrArg Host.Outcome.next hrefuses, State.msgOutcome_fails hstops hm hchain rfl (by decide)⟩
  case lost =>
    rintro s header m ref c ⟨htype, hm⟩ hchain
    obtain ⟨hu, -⟩ := s.arrived_response (h := header) (by omega) (by omega)
    have hlost : lostEffect header s = (s.arrived header).msgOutcome (hdrTag header) stPeerLost := if_neg (not_not.mpr htype)
    exact ⟨_, congrArg Host.Outcome.next hlost, State.msgOutcome_fails hu hm hchain rfl (by decide)⟩
  case reline =>
    rintro s header m l k ⟨htype, hm⟩ ⟨hline, hroute⟩
    obtain ⟨hu, hlinks⟩ := s.arrived_response (h := header) (by omega) (by omega)
    have hm' : ((s.arrived header).sentMsgs.find? fun m : OriginMsg => m.num == hdrTag header && !m.get) = some m := by rwa [hu.same .sentMsgs rfl]
    have hroute' : (s.arrived header).routeLink m.die m.pkg = some k := (hu.routeLink_eq rfl rfl m.die m.pkg).trans hroute
    have hagain : relineEffect header s = (s.arrived header).enqueue k { header := none, lines := [l] } 0 := by
      rw [relineEffect, if_neg (not_not.mpr htype)]
      simp only [hm', hline, hroute']
    refine ⟨_, congrArg Host.Outcome.next hagain, ?_, hu.same .sentMsgs rfl⟩
    rw [State.link_enqueue, hlinks]
    rfl
  case timeout =>
    rintro s tag pkg ms m ref c ⟨hlimit, hm, hsent⟩ hchain
    have hfound : (s.sentMsgs.find? fun m : OriginMsg => m.num == tag.toNat && m.sent) = some m := by
      obtain ⟨hnum, before, after, hsplit, hbefore⟩ := List.find?_eq_some_iff_append.mp hm
      refine List.find?_eq_some_iff_append.mpr ⟨by rw [hnum, hsent]; rfl, before, after, hsplit, fun x hx => ?_⟩
      have hother := hbefore x hx
      rw [Bool.not_eq_true'] at hother ⊢
      rw [hother, Bool.false_and]
    have hends : msgResponseTimeoutEffect false tag pkg ms s = s.msgOutcome tag.toNat stPeerLost := by
      simp only [msgResponseTimeoutEffect, if_neg (Nat.not_lt.mpr hlimit), hfound, Bool.false_eq_true, if_false]
    exact ⟨_, congrArg Host.Outcome.next hends, State.msgOutcome_fails (.refl ..) hm hchain rfl (by decide)⟩
  case rebuildReq =>
    rintro s header k pa die e u g ⟨htype, hopen, hepoch, hplace⟩ ⟨hstamp, hsound, hother, hroute⟩
    obtain ⟨hu, hlinks⟩ := s.arrived_response (h := header) (by omega) (by omega)
    have hanswers := rebuildReqEffect_answers htype hopen hepoch hplace hstamp hsound hother hroute
    have hlink : ((s.arrived header).readLine (rebuildLanding header) 0).1.link k = s.link k :=
      (congrArg (fun f : Fabric => lookupD ({} : Link) k f.links) ((State.readLine_reach ..).fst.same .fabric rfl)).trans (hlinks k)
    refine ⟨_, congrArg Host.Outcome.next hanswers, ?_⟩
    show (State.link _ k).tx3 = _
    rw [State.link_enqueue, hlink]
    rfl
  case rebuildData =>
    rintro s header line r ⟨htype, hok, hgood, hsound, hdone, hsector⟩ hfound
    obtain ⟨hu, -⟩ := s.arrived_response (h := header) (by omega) (by omega)
    have hfound' : ((s.arrived header).pool.rebuilds.find? fun r : Rebuild => r.pkg == some (srcPkg header) && r.counterpart == hdrOffset header) = some r := by
      rwa [hu.same .pool rfl]
    have hwrites : rebuildDataEffect header line s =
        (s.arrived header).writeRebuilt r.sector (((bytesOf line.data.toNat 128).drop (hdrOffset header % 4 * 32)).take 32) := by
      rw [rebuildDataEffect, if_neg (not_not.mpr htype)]
      simp only [hfound', hok, hgood, hsound, decide_true, Bool.true_and, Bool.not_false, if_true]
    obtain ⟨hbytes, hcount, hrebuilds⟩ := State.writeRebuilt_writes (s := s.arrived header) hsector
      (bs := ((bytesOf line.data.toNat 128).drop (hdrOffset header % 4 * 32)).take 32)
      (by rw [List.length_take, List.length_drop, length_bytesOf]; omega) (by rwa [State.noneTodo_congr (hu.same .chains rfl)])
    rw [(hu.samePlaces (by decide) rfl rfl).frameDie, hu.rd_eq _ rfl] at hcount
    refine ⟨_, congrArg Host.Outcome.next hwrites, hbytes, hcount, ?_⟩
    rw [hrebuilds]
    simp [List.any_filter]

end Sys2Proof.Machine
end

section
/-!
SUPPORT. Rebuilds and quarantines (spec/09_capacity_pool.md R446 to R451): what the read of a sound sector leaves as it was, and what quarantining
a frame and failing a rebuild set.
-/
namespace Sys2Proof.Machine

/-! ## A sound sector read (R374 to R381, R426) -/

/-- A read's slots, queues and counts apart, all is as before, and of the frame records only the stamps of use have moved. -/
structure ReadKept (s t : State) : Prop where
  reach : Reach 0x10000000000000000000000000000000000820000000000000000000000000001c00 s t
  sevBad : t.hbm.sevBad = s.hbm.sevBad
  frame : ∀ n, ∃ beam, t.frame n = { s.frame n with lastUse := beam }

namespace ReadKept
variable {r s t : State}

theorem trans_reach {F : Nat} (h : ReadKept r s) (k : Reach F s t)
    (m : F &&& 0x10000000000000000000000000000000000820000000000000000000000000001c00 = F) (hpool : F.testBit 12 = false)
    (hsev : t.hbm.sevBad = s.hbm.sevBad) : ReadKept r t :=
  ⟨h.reach.then k m, hsev.trans h.sevBad, fun n => by rw [k.frame_eq hpool]; exact h.frame n⟩

theorem touchRead (s : State) (pa : Nat) : ReadKept s (s.touchRead pa) := by
  refine ⟨(s.touchRead_reach pa).mono rfl, congrArg (·.sevBad) ((s.touchRead_reach pa).same .hbm rfl), fun n => ?_⟩
  unfold State.touchRead
  dsimp only
  split
  · exact ⟨_, rfl⟩
  · by_cases hn : n = pa / 65536
    · rw [hn, State.frame_setFrame_self]
      exact ⟨_, rfl⟩
    · rw [State.frame_setFrame_ne hn]
      exact ⟨_, rfl⟩

theorem quarantined (h : ReadKept s t) (n : Nat) : (t.frame n).quarantined = (s.frame n).quarantined := by
  obtain ⟨beam, hframe⟩ := h.frame n
  rw [hframe]

theorem stamp (h : ReadKept s t) (n : Nat) : (t.frame n).stamp = (s.frame n).stamp := by
  obtain ⟨beam, hframe⟩ := h.frame n
  rw [hframe]

theorem frameDie (h : ReadKept s t) (n : Nat) : t.frameDie n = s.frameDie n := by
  obtain ⟨beam, hframe⟩ := h.frame n
  simp only [State.frameDie, (h.reach.sameVirtual (by decide)).phys, hframe]

theorem sectorBad (h : ReadKept s t) (k : Nat) : t.sectorBad k = s.sectorBad k := by
  have hdelta : t.hbmDelta = s.hbmDelta := h.reach.same .hbmDelta rfl
  simp only [State.sectorBad, State.deltaBad, State.deltaAt, h.sevBad, hdelta]

theorem sectorSound (h : ReadKept s t) (pa : Nat) : t.sectorSound pa = s.sectorSound pa := by
  have hpoison : t.poison = s.poison := h.reach.same .poison rfl
  have hcheck : t.badCheck = s.badCheck := h.reach.same .badCheck rfl
  simp only [State.sectorSound, State.poisonAt, h.quarantined, (h.reach.sameVirtual (by decide)).phys, h.sectorBad, State.hostOn,
    h.reach.fld_eq keepHostwinEn rfl, hpoison, hcheck]

theorem memBytes (h : ReadKept s t) (pa n : Nat) : t.memBytes pa n = s.memBytes pa n :=
  List.map_congr_left fun i _ => (h.reach.sameVirtual (by decide)).memByte (pa + i)

end ReadKept

theorem State.queueWriteback_sevBad (s : State) (pa owner : Nat) : (s.queueWriteback pa owner).hbm.sevBad = s.hbm.sevBad := by
  unfold State.queueWriteback
  dsimp only
  split
  · rfl
  · rfl

/-- R380: the sector's bytes are delivered as they are, or corrected. -/
theorem ReadKept.useSector {s t : State} {k : Nat} (h : ReadKept s t) (hgood : s.sectorBad k = false) (owner : Nat) :
    ReadKept s (t.useSector owner (k * 32)) := by
  have hdiv : k * 32 / 32 = k := by omega
  obtain ⟨hsev, hdelta⟩ := Bool.or_eq_false_iff.mp ((h.sectorBad k).trans hgood)
  have hread : ∀ ctl, t.readSector ctl (k * 32) owner false = (t.countSector ctl, .clean) ∨
      ∃ j v, t.readSector ctl (k * 32) owner false = ((t.countSector ctl).bump .hbmcCeCnt ctl 0 1, .corrected j v) := by
    intro ctl
    have hsev' : (t.countSector ctl).hbm.sevBad.contains k = false := hsev
    unfold State.deltaBad at hdelta
    unfold State.readSector State.noteSector
    simp only [hdiv, hsev', Bool.false_or, Bool.false_eq_true, if_false]
    have hsame : (t.countSector ctl).deltaAt (k * 32) = t.deltaAt (k * 32) := rfl
    rw [hsame]
    generalize decodeDelta (t.deltaAt (k * 32)) = d at hdelta ⊢
    cases d with
    | clean => exact .inl rfl
    | corrected j v => exact .inr ⟨j, v, rfl⟩
    | mark => cases hdelta
    | uncorrectable => cases hdelta
  unfold State.useSector
  rcases hread (hbmPlace t.harbour (k * 32)).1 with heq | ⟨j, v, heq⟩
  · rw [heq]
    exact h.trans_reach (t.countSector_reach _) rfl rfl rfl
  · rw [heq]
    have hbump : Reach 0x800000000000000000000000000000000 (t.countSector (hbmPlace t.harbour (k * 32)).1)
        ((t.countSector (hbmPlace t.harbour (k * 32)).1).bump .hbmcCeCnt (hbmPlace t.harbour (k * 32)).1 0 1) := .bump (.refl ..) rfl
    have hcounted := (h.trans_reach (t.countSector_reach (hbmPlace t.harbour (k * 32)).1) rfl rfl rfl).trans_reach hbump rfl rfl rfl
    exact hcounted.trans_reach (State.queueWriteback_reach ..) rfl rfl (State.queueWriteback_sevBad ..)

/-- The die whose HBM an address below the galleries would be. -/
def hbmDie (pa : Nat) : Nat := if pa < 0x3000000000 then 0 else 1

/-- Whether an address below the galleries is populated. -/
def State.hbmAt (s : State) (pa : Nat) : Bool := decide (pa - dieHbmBase (hbmDie pa) < hbmPerDie s.order s.harbour) && (hbmDie pa == 0 || !s.harbour)

theorem State.phys_of_low {pa : Nat} (h : pa < 0x6000000000) (s : State) : s.phys pa = if s.hbmAt pa then .hbm (hbmDie pa) else .hole := by
  unfold State.phys
  exact if_pos h

theorem State.isHbm_of_high {pa : Nat} (h : ¬pa < 0x6000000000) (s : State) : s.isHbm pa = false := by
  simp only [State.isHbm, State.phys, h, if_false]
  split
  next heq => split_ifs at heq
  next => rfl

/-- The address map places the bytes of a sector alike. -/
theorem State.hbmAt_of_sector {s : State} {pa : Nat} (h : s.hbmAt (pa / 32 * 32) = true) : s.hbmAt pa = true := by
  have hsize : hbmPerDie s.order s.harbour % 32 = 0 := by
    unfold hbmPerDie
    split <;> split <;> rfl
  have hdie : hbmDie (pa / 32 * 32) = hbmDie pa := by
    unfold hbmDie
    split <;> split <;> omega
  have hbase : dieHbmBase (hbmDie pa) % 32 = 0 := by unfold dieHbmBase; omega
  rw [State.hbmAt, hdie, Bool.and_eq_true, decide_eq_true_eq] at h
  obtain ⟨hpop, hon⟩ := h
  rw [State.hbmAt, hon, Bool.and_true, decide_eq_true_eq]
  omega

theorem State.isHbm_of_sector {s : State} {pa : Nat} (h : s.isHbm (pa / 32 * 32) = true) : ∃ d, s.phys pa = .hbm d := by
  by_cases hlow : pa / 32 * 32 < 0x6000000000
  · rw [State.isHbm, State.phys_of_low hlow] at h
    have hat : s.hbmAt (pa / 32 * 32) = true := by
      by_contra hnot
      rw [if_neg hnot] at h
      cases h
    exact ⟨_, (State.phys_of_low (by omega) s).trans (if_pos (State.hbmAt_of_sector hat))⟩
  · rw [State.isHbm_of_high hlow] at h
    cases h

theorem State.noneQueued_congr {s t : State} (h : t.hbm = s.hbm) (pa n : Nat) : t.noneQueued pa n = s.noneQueued pa n := by
  rw [State.noneQueued, State.noneQueued, h]

/-- A sound sector that no request waits for is read without changing a byte. -/
theorem State.didRead_sound {s : State} {pa : Nat} (hsound : s.sectorSound pa = true) (hquiet : s.noneQueued (pa / 32 * 32) 32 = true) (a : Access) :
    ReadKept s (s.didRead a (pa / 32 * 32) 32) := by
  have htouched := ReadKept.touchRead s (pa / 32 * 32)
  obtain ⟨hpoison, hcheck⟩ := Bool.and_eq_true_iff.mp hsound
  rw [Bool.not_eq_true'] at hpoison
  have hone : (pa / 32 * 32 + 32 + 31) / 32 - pa / 32 * 32 / 32 = 1 := by omega
  have hbase : pa / 32 * 32 / 32 = pa / 32 := by omega
  unfold State.didRead
  dsimp only
  split
  next hhbm =>
    rw [State.flushSectors_of_noneQueued ((State.noneQueued_congr ((s.touchRead_reach _).same .hbm rfl) ..).trans hquiet), hone, hbase]
    have hphys : ∃ d, s.phys pa = .hbm d := State.isHbm_of_sector (by
      rw [← hhbm, State.isHbm, State.isHbm, (htouched.reach.sameVirtual (by decide)).phys])
    obtain ⟨d, hphys⟩ := hphys
    refine htouched.useSector (k := pa / 32 + 0) ?_ a.owner
    have hbad := (Bool.or_eq_false_iff.mp hpoison).2
    rw [hphys] at hbad
    exact hbad
  next =>
    have hnone : setIn (pa / 32 * 32) 32 (((s.touchRead (pa / 32 * 32)).useSlots a (pa / 32 * 32) 32).badCheck) = [] := by
      rw [(State.useSlots_reach ..).same .badCheck rfl, (s.touchRead_reach _).same .badCheck rfl]
      exact List.isEmpty_iff.mp hcheck
    rw [State.checkSram, hnone]
    exact htouched.trans_reach (State.useSlots_reach ..) rfl rfl (congrArg (·.sevBad) ((State.useSlots_reach ..).same .hbm rfl))

/-! ## Quarantines (R446, R449, R451) -/

/-- Quarantining a frame keeps the address map and the other frames' places. -/
theorem State.quarantine_frameTier (s : State) (n sector cause k : Nat) : (s.quarantine n sector cause).frameTier k = s.frameTier k := by
  simp only [State.frameTier, State.tierOf, ((s.quarantine_reach n sector cause).sameVirtual (by decide)).phys]

theorem State.raiseIrq_frame (s : State) (v k : Nat) : (s.raiseIrq v).frame k = s.frame k := (State.raiseIrq_reach ..).frame_eq rfl k

theorem State.quarantine_quarantines (s : State) (n sector cause : Nat) : ((s.quarantine n sector cause).frame n).quarantined = true := by
  unfold State.quarantine
  dsimp only
  split
  next hdone => exact hdone
  next =>
    rw [State.raiseIrq_frame]
    show ((State.setFrame _ n _).frame n).quarantined = true
    rw [State.frame_setFrame_self]

theorem State.quarantine_keeps {s : State} {k : Nat} (h : (s.frame k).quarantined = true) (n sector cause : Nat) :
    ((s.quarantine n sector cause).frame k).quarantined = true := by
  by_cases hk : k = n
  · rw [hk]
    exact s.quarantine_quarantines ..
  · unfold State.quarantine
    dsimp only
    split
    · exact h
    · rw [State.raiseIrq_frame]
      show ((State.setFrame _ n _).frame k).quarantined = true
      rw [State.frame_setFrame_ne hk]
      exact h

theorem State.quarantine_counts {s : State} {n : Nat} (h : (s.frame n).quarantined = false) (sector cause : Nat) :
    (s.quarantine n sector cause).rd .poolQuarantineCnt (s.frameDie n) 0 = s.rd .poolQuarantineCnt (s.frameDie n) 0 + 1#64 := by
  unfold State.quarantine
  dsimp only
  rw [if_neg (by rw [h]; exact Bool.false_ne_true)]
  exact ((State.raiseIrq_reach ..).rd_eq .poolQuarantineCnt rfl ..).trans (State.rd_bump_self s .poolQuarantineCnt (s.frameDie n) 0 1)

theorem State.quarantine_rebuilds (s : State) (n sector cause : Nat) : (s.quarantine n sector cause).pool.rebuilds = s.pool.rebuilds := by
  unfold State.quarantine
  dsimp only
  split
  · rfl
  · rw [(State.raiseIrq_reach ..).pool_eq rfl]
    rfl

/-- R448: a failed rebuild, with no stage that waits for its reads: counted, its frame quarantined, and no longer being rebuilt. -/
theorem State.failRebuild_fails {s : State} (hdone : s.noneTodo = true) (sector : Nat) :
    (s.failRebuild sector).rd .poolRebuildFailCnt (s.frameDie (sector / 65536)) 0 =
      s.rd .poolRebuildFailCnt (s.frameDie (sector / 65536)) 0 + 1#64 ∧
    ((s.failRebuild sector).frame (sector / 65536)).quarantined = true ∧
    (s.failRebuild sector).pool.rebuilds = s.pool.rebuilds.filter fun r => r.sector != sector := by
  unfold State.failRebuild
  extract_lets n dropped failed
  have hchains : failed.chains = s.chains := (State.quarantine_reach ..).same .chains rfl
  rw [State.retryChains_of_done (by rwa [State.noneTodo_congr hchains])]
  refine ⟨?_, State.quarantine_quarantines .., State.quarantine_rebuilds ..⟩
  rw [(State.quarantine_reach ..).rd_eq _ rfl]
  simp only [dropped, n]
  exact State.rd_bump_self ..

/-- R451: frames that a fold quarantines stay so. -/
theorem State.foldl_quarantine {β : Type} (l : List β) (place : β → Nat) (hit : State → β → Prop) [∀ s x, Decidable (hit s x)]
    (sector : β → Nat) (cause : Nat) (hkeep : ∀ s n sec x, hit (State.quarantine s n sec cause) x ↔ hit s x) (s : State) {x : β} (hx : x ∈ l)
    (hhit : hit s x) :
    ((l.foldl (fun s x => if hit s x then s.quarantine (place x) (sector x) cause else s) s).frame (place x)).quarantined = true := by
  have hstays : ∀ (l : List β) (s : State) (k : Nat), (s.frame k).quarantined = true →
      ((l.foldl (fun s x => if hit s x then s.quarantine (place x) (sector x) cause else s) s).frame k).quarantined = true := fun l s k hk =>
    List.foldlRecOn (motive := fun t : State => (t.frame k).quarantined = true) l _ hk fun t ht y _ => by
      split
      · exact State.quarantine_keeps ht ..
      · exact ht
  induction l generalizing s with
  | nil => cases hx
  | cons y l ih =>
    rw [List.foldl_cons]
    rcases List.mem_cons.mp hx with rfl | hin
    · exact hstays l _ _ (by rw [if_pos hhit]; exact State.quarantine_quarantines ..)
    · refine ih _ hin ?_
      split
      · exact (hkeep ..).mpr hhit
      · exact hhit

/-! ## A rebuild from a counterpart that is here (R446) -/

/-- R449: the post of a sector is taken up. -/
def State.dropUe (s : State) (sector : Nat) : State := { s with pool := { s.pool with uePosts := s.pool.uePosts.filter fun a => a != sector } }

theorem State.dropUe_readKept (s : State) (sector : Nat) : ReadKept s (s.dropUe sector) :=
  ⟨(Reach.refl _ s).set_pool rfl, rfl, fun n => ⟨(s.frame n).lastUse, rfl⟩⟩

section
variable {s : State} {sector : Nat} {f : FrameRec}
variable (hused : f.st ≠ .free) (hsound : f.quarantined = false) (hbad : s.sectorSound sector = false) (hnone : s.pool.rebuilds = [])
include hused hsound hbad hnone

/-- A failing sector of a frame in use that nothing rebuilds yet is dealt with. -/
theorem State.failing_not_skipped : ¬(f.st = .free || f.quarantined || (s.dropUe sector).sectorSound sector ||
    (s.dropUe sector).pool.rebuilds.any fun r => r.sector == sector) = true := by
  rw [decide_eq_false hused, hsound, (s.dropUe_readKept sector).sectorSound, hbad, show (s.dropUe sector).pool.rebuilds = [] from hnone]
  exact Bool.false_ne_true

variable {addr : BitVec 48} (haddr : sector = addr.toNat / 32 * 32) (hf : f = s.frame (sector / 65536))
include haddr hf

/-- SECTOR_REBUILD of a failing sector that nothing rebuilds yet: of a frame that is not rebuildable. -/
theorem sectorRebuildEffect_of_plain (hplain : f.rebuild = false) :
    sectorRebuildEffect addr s = (s.dropUe sector).quarantine (sector / 65536) sector 0 := by
  have hfails := State.failing_not_skipped hused hsound hbad hnone
  subst haddr hf
  unfold sectorRebuildEffect
  extract_lets sector n f src v die va
  exact (if_neg hfails).trans (if_pos (by rw [hplain]; rfl))

/-- Of a rebuildable frame whose counterpart is here, of the same stamp and sound. -/
theorem sectorRebuildEffect_of_counterpart (hbuild : f.rebuild = true) {pa o : Nat} {rd wr big : Bool}
    (hpage : (s.dropUe sector).xlat ((s.dropUe sector).frameDie (sector / 65536)) f.owner (f.counterpart sector) = .page pa rd wr o big) {t : State}
    (ht : t = (s.dropUe sector).didRead ((s.dropUe sector).maintAccess (pa / 65536) f.owner) (pa / 32 * 32) 32)
    (hstamp : (t.frame (pa / 65536)).stamp = f.stamp) (hgood : t.sectorSound pa = true) :
    sectorRebuildEffect addr s = t.writeRebuilt sector (t.memBytes (pa / 32 * 32) 32) := by
  have hfails := State.failing_not_skipped hused hsound hbad hnone
  subst haddr hf ht
  unfold sectorRebuildEffect
  extract_lets sector n f src v die va
  refine (if_neg hfails).trans ((if_neg (by rw [hbuild]; exact Bool.false_ne_true)).trans ?_)
  have hpage' : v.xlat die f.owner va = .page pa rd wr o big := hpage
  rw [hpage']
  exact if_pos ⟨hstamp, hgood⟩

end

namespace ReadKept
variable {r s t : State}

theorem trans (h : ReadKept r s) (k : ReadKept s t) : ReadKept r t :=
  ⟨h.reach.trans k.reach, k.sevBad.trans h.sevBad, fun n => by
    obtain ⟨beam, hframe⟩ := k.frame n
    obtain ⟨beam', hframe'⟩ := h.frame n
    exact ⟨beam, by rw [hframe, hframe']⟩⟩

/-- A sector rebuilt from what has been read of another. -/
theorem writeRebuilt_writes (h : ReadKept s t) (hdone : s.noneTodo = true) {sector : Nat} (hsector : sector % 32 = 0) (pa : Nat) :
    (t.writeRebuilt sector (t.memBytes pa 32)).memBytes sector 32 = s.memBytes pa 32 ∧
    (t.writeRebuilt sector (t.memBytes pa 32)).rd .poolRebuildCnt (s.frameDie (sector / 65536)) 0 =
      s.rd .poolRebuildCnt (s.frameDie (sector / 65536)) 0 + 1#64 := by
  obtain ⟨hbytes, hcount, -⟩ := State.writeRebuilt_writes hsector (State.length_memBytes t pa 32)
    ((State.noneTodo_congr (h.reach.same .chains rfl)).trans hdone)
  rw [h.frameDie, h.reach.rd_eq _ rfl] at hcount
  exact ⟨hbytes.trans (h.memBytes ..), hcount⟩

end ReadKept

end Sys2Proof.Machine
end

section
/-!
SUPPORT. What the page pool's own operations leave of the swap-mode sets (spec/09_capacity_pool.md R455, R456): frames taken, pages moved, plans
filled and rows retired change neither the sets in place nor the swaps that run or wait.
-/
namespace Sys2Proof.Machine

/-- The sets in place, the swaps that run and those that wait. -/
def Pool.sets (p : Pool) : List (Nat × Nat) × List (Nat × Nat) × List (Nat × Nat) := (p.setOwner, p.swapping, p.invoked)

/-- The swap-mode sets are as before. -/
structure SetsKept (s t : State) : Prop where
  sets : t.pool.sets = s.pool.sets

theorem AccessKept.setsKept {s t : State} (h : AccessKept s t) : SetsKept s t := ⟨(congrArg Pool.sets h.lists :)⟩

namespace SetsKept
variable {r s t : State}

theorem refl (s : State) : SetsKept s s := ⟨rfl⟩

theorem trans (h : SetsKept r s) (k : SetsKept s t) : SetsKept r t := ⟨k.sets.trans h.sets⟩

theorem setOwner (h : SetsKept s t) : t.pool.setOwner = s.pool.setOwner := congrArg (·.1) h.sets
theorem swapping (h : SetsKept s t) : t.pool.swapping = s.pool.swapping := congrArg (·.2.1) h.sets
theorem invoked (h : SetsKept s t) : t.pool.invoked = s.pool.invoked := congrArg (·.2.2) h.sets

theorem ite {c : Prop} {_ : Decidable c} (h : SetsKept r s) (k : SetsKept r t) : SetsKept r (if c then s else t) := by
  split
  · exact h
  · exact k

/-- A step taken under a condition. -/
theorem iteThen {c : Prop} {_ : Decidable c} (h : SetsKept r s) (k : SetsKept s t) : SetsKept r (if c then t else s) := (h.trans k).ite h

theorem iteElse {c : Prop} {_ : Decidable c} (h : SetsKept r s) (k : SetsKept s t) : SetsKept r (if c then s else t) := h.ite (h.trans k)

theorem foldl {β : Type} {f : State → β → State} (l : List β) (h : SetsKept r s) (hf : ∀ t x, SetsKept r t → SetsKept r (f t x)) :
    SetsKept r (l.foldl f s) :=
  List.foldlRecOn l f h fun t ht x _ => hf t x ht

/-- What leaves the pool leaves its sets. -/
theorem of_pool (h : SetsKept r s) (e : t.pool = s.pool) : SetsKept r t := h.trans ⟨congrArg Pool.sets e⟩

theorem reach {F : Nat} (h : SetsKept r s) (k : Reach F s t) (m : F.testBit 12 = false) : SetsKept r t := h.of_pool (k.pool_eq m)

theorem access (h : SetsKept r s) (k : AccessKept s t) : SetsKept r t := h.trans k.setsKept

/-- The state of a pair. -/
theorem of_pair {α : Type} {p : State × α} {x : α} (h : SetsKept r p.1) (e : p = (t, x)) : SetsKept r t := by
  rw [e] at h
  exact h

/-- A list of the pool other than the sets replaced. -/
theorem setPool (h : SetsKept r s) {p : Pool} (e : p.sets = s.pool.sets) : SetsKept r { s with pool := p } := h.trans ⟨e⟩

theorem bump (h : SetsKept r s) (q : Reg) (u i n : Nat) : SetsKept r (s.bump q u i n) := h.of_pool rfl

theorem setFrame (h : SetsKept r s) (n : Nat) (f : FrameRec) : SetsKept r (s.setFrame n f) := h.access ((AccessKept.refl s).setFrame n f)

theorem showUse (h : SetsKept r s) (owner : Nat) : SetsKept r (s.showUse owner) := h.access ((AccessKept.refl s).showUse owner)

theorem freeFrame (h : SetsKept r s) (n : Nat) : SetsKept r (s.freeFrame n) := h.access ((AccessKept.refl s).freeFrame n)

theorem dropCached (h : SetsKept r s) (n : Nat) : SetsKept r (s.dropCached n) := h.access ((AccessKept.refl s).dropCached n)

theorem copyFrame (h : SetsKept r s) (src dst : Nat) : SetsKept r (s.copyFrame src dst) := h.access ((AccessKept.refl s).copyFrame src dst)

theorem switchPage (h : SetsKept r s) (owner vpage src dst : Nat) : SetsKept r (s.switchPage owner vpage src dst) :=
  h.access ((AccessKept.refl s).switchPage owner vpage src dst)

theorem moveResult (h : SetsKept r s) (die res : Nat) : SetsKept r (s.moveResult die res) := h.reach (State.moveResult_reach ..) rfl

/-! ## Frames taken (R425 to R427) -/

theorem startMoving (h : SetsKept r s) (l : List Move) (n : Nat) :
    SetsKept r (({ s with pool := { s.pool with moves := l } } : State).setMoving n) := (h.setPool (p := { s.pool with moves := l }) rfl).setFrame n _

theorem beginMove (h : SetsKept r s) (m : Move) : SetsKept r (s.beginMove m) := h.startMoving ..

theorem obtain (h : SetsKept r s) (fuel tier die owner : Nat) : SetsKept r (s.obtain fuel tier die owner).1 := by
  induction fuel generalizing s tier owner with
  | zero => exact h
  | succ fuel ih =>
    unfold State.obtain
    split
    · exact h
    · exact h
    next n _ =>
      dsimp only
      split
      · exact h
      split
      · exact (h.dropCached n).bump ..
      split
      · exact h.startMoving ..
      · have hlower := ih h (tier + 1) (s.frame n).owner
        split
        · exact hlower
        · exact (hlower.setFrame ..).startMoving ..

theorem promote (h : SetsKept r s) (die n : Nat) : SetsKept r (s.promote die n) := by
  have hgot := h.obtain 3 1 die (s.frame n).owner
  unfold State.promote
  refine .ite h ?_
  dsimp only
  split
  next heq => exact (((hgot.of_pair heq).setFrame ..).startMoving ..).showUse _
  next heq => exact hgot.of_pair heq

theorem give (h : SetsKept r s) (q : FrameReq) (n : Nat) : SetsKept r (s.give q n) := h.access (State.give_accessKept ..)

theorem serveReq (h : SetsKept r s) (q : FrameReq) : SetsKept r (s.serveReq q).1 := by
  have hgot := h.obtain 3 q.tier q.die q.owner
  unfold State.serveReq
  dsimp only
  split
  · exact hgot.give ..
  · exact hgot

theorem retryList (h : SetsKept r s) (kept rest : List FrameReq) : SetsKept r (s.retryList kept rest) := by
  induction rest generalizing s kept with
  | nil => exact h.setPool rfl
  | cons q qs ih => exact .ite (ih h _) (ih (h.serveReq q) _)

theorem retryWaiting (h : SetsKept r s) : SetsKept r s.retryWaiting := h.retryList ..

/-! ## Moves and pins (R430 to R435) -/

theorem waitMove (h : SetsKept r s) (die tier owner page : Nat) : SetsKept r (s.waitMove die tier owner page) := h.setPool rfl

theorem startMove (h : SetsKept r s) (die tier owner page n : Nat) : SetsKept r (s.startMove die tier owner page n) := by
  have hgot := h.obtain 3 tier die owner
  unfold State.startMove
  refine .ite (h.waitMove ..) ?_
  dsimp only
  split
  · exact hgot.waitMove ..
  · exact ((hgot.setFrame ..).beginMove _).showUse _

theorem pinFrame (h : SetsKept r s) (die owner n : Nat) (big v : Bool) : SetsKept r (s.pinFrame die owner n big v) := by
  refine .ite (h.moveResult ..) (.ite ((h.bump ..).moveResult ..) (retryWaiting (moveResult (setFrame ?_ ..) ..)))
  split
  · exact h.access ((AccessKept.refl s).cancelMove _)
  · exact h

theorem moveFrame (h : SetsKept r s) (die tier owner page n : Nat) (big : Bool) : SetsKept r (s.moveFrame die tier owner page n big) := by
  refine .ite (h.moveResult ..) (.ite (h.waitMove ..) (.ite (h.moveResult ..) (.ite ?_ (.ite (h.moveResult ..) (h.startMove ..)))))
  split
  · exact .ite (h.waitMove ..) (h.beginMove _)
  · exact ((h.dropCached n).moveResult ..).retryWaiting

theorem runMoveCmd (h : SetsKept r s) (die op tier owner page : Nat) : SetsKept r (s.runMoveCmd die op tier owner page) := by
  unfold State.runMoveCmd
  split
  · exact .ite (h.moveResult ..) (.ite (h.pinFrame ..) (.ite (h.pinFrame ..) (h.moveFrame ..)))
  · exact (h.reach (State.noteWalk_reach ..) rfl).moveResult ..

theorem retryMoves (h : SetsKept r s) : SetsKept r s.retryMoves :=
  .foldl _ (h.setPool (p := { s.pool with cmdWait := [] }) rfl) fun _ _ hu => hu.runMoveCmd ..

theorem endWriteBack (h : SetsKept r s) (m : Move) : SetsKept r (s.endWriteBack m) :=
  dropCached (iteThen ((h.copyFrame m.src m.dst).bump ..) (.bump (refl _) ..)) _

theorem endFill (h : SetsKept r s) (m : Move) : SetsKept r (s.endFill m) :=
  (((h.copyFrame m.src m.dst).switchPage ..).setFrame ..).setFrame ..

theorem endMove (h : SetsKept r s) (m : Move) : SetsKept r (s.endMove m) := by
  unfold State.endMove
  extract_lets die f home copied switched placed counted freed
  have hcounted : SetsKept r counted := iteThen (((h.copyFrame ..).switchPage ..).setFrame ..) ((refl _).bump ..)
  refine freeFrame ?_ _
  dsimp only [freed]
  split
  · exact hcounted.freeFrame _
  · exact hcounted

theorem finishMove (h : SetsKept r s) (m : Move) : SetsKept r (s.finishMove m) := by
  unfold State.finishMove
  extract_lets moves dropped ended
  have hdropped : SetsKept r dropped := h.setPool rfl
  have hended : SetsKept r ended := .ite (hdropped.endWriteBack m) (.ite (hdropped.endFill m) (hdropped.endMove m))
  split
  · exact hended.moveResult ..
  · exact hended

/-! ## Windows of stream plans and retired rows (R436, R459, R464) -/

theorem takeWindow (h : SetsKept r s) (tier die owner n : Nat) (got : List Nat) : SetsKept r (s.takeWindow tier die owner n got).1 := by
  induction n generalizing s got with
  | zero => exact h
  | succ n ih =>
    have hgot := h.obtain 3 tier die owner
    unfold State.takeWindow
    split
    next heq => exact ih ((hgot.of_pair heq).setFrame ..) _
    next heq => exact hgot.of_pair heq

theorem fillSlots (h : SetsKept r s) (p : StreamPlan) (ls : List (List Nat)) : SetsKept r (s.fillSlots p ls).1 := by
  induction ls generalizing s with
  | nil => exact h
  | cons l ls ih => exact ih (h.takeWindow ..)

theorem fillPlan (h : SetsKept r s) (p : StreamPlan) : SetsKept r (s.fillPlan p).1 := by
  unfold State.fillPlan
  split
  · exact h
  · exact ((h.takeWindow ..).fillSlots ..).showUse _

theorem fillPlans (h : SetsKept r s) : SetsKept r s.fillPlans := .foldl _ h fun _ p hu => (hu.fillPlan p).setPool rfl

theorem emptyRetired (h : SetsKept r s) (n die : Nat) : SetsKept r (s.emptyRetired n die) := by
  have hdone : ∀ u, SetsKept r u → SetsKept r { u with pool := { u.pool with retiring := u.pool.retiring.filter (· != (n, die)) } } :=
    fun u hu => hu.setPool rfl
  unfold State.emptyRetired
  refine .ite h ?_
  split
  · exact hdone _ h
  · exact hdone _ (h.dropCached n)
  · exact hdone _ (((h.copyFrame ..).bump ..).dropCached n)
  · have hgot := h.obtain 2 1 die (s.frame n).owner
    dsimp only
    split
    · exact hdone _ (((((hgot.copyFrame ..).switchPage ..).setFrame ..).freeFrame n).showUse _)
    · exact hgot

theorem retryRetired (h : SetsKept r s) : SetsKept r s.retryRetired := .foldl _ h fun _ p hu => hu.emptyRetired p.1 p.2

end SetsKept

end Sys2Proof.Machine
end

section
/-!
SUPPORT. What a stage's work leaves of the swap-mode sets (spec/07_streams_and_stage_chains.md R332 to R366, spec/09_capacity_pool.md R455): tiles
fetched, computed and stored access memory, ask for pages and may end their chain, and none of it swaps a set.
-/
namespace Sys2Proof.Machine
namespace SetsKept
variable {r s t : State}

theorem clamped (h : SetsKept r s) (cluster n : Nat) : SetsKept r (s.clamped cluster n) := h.reach (State.clamped_reach ..) rfl

theorem putMem (h : SetsKept r s) (pa : Nat) (bs : List Byte) : SetsKept r (s.putMem pa bs) := h.access ((AccessKept.refl s).putMem pa bs)

theorem devWrite (h : SetsKept r s) (a : Access) (pa : Nat) (bs : List Byte) : SetsKept r (s.devWrite a pa bs) :=
  h.access ((AccessKept.refl s).devWrite a pa bs)

theorem didRead (h : SetsKept r s) (a : Access) (pa n : Nat) : SetsKept r (s.didRead a pa n) := h.access ((AccessKept.refl s).didRead a pa n)

/-! ## The end of a chain (R359, R608) -/

theorem promoteAhead (h : SetsKept r s) (cluster launch : Nat) : SetsKept r (s.promoteAhead cluster launch) := by
  unfold State.promoteAhead
  split
  · exact h
  · exact h.trans ⟨rfl⟩

theorem advance (h : SetsKept r s) (cluster launch : Nat) : SetsKept r (s.advance cluster launch) := by
  unfold State.advance
  extract_lets here promoted
  have hpromoted : SetsKept r promoted := h.iteThen ((refl _).promoteAhead cluster launch)
  split
  · exact (hpromoted.reach (State.closeChain_reach ..) rfl).reach (State.seqDone_reach ..) rfl
  · exact hpromoted

theorem seqAfter (h : SetsKept r s) (c : Chain) (status : Nat) : SetsKept r (s.seqAfter c status) := by
  refine .ite ((h.reach (State.regenFailed_reach ..) rfl).reach (State.failSeq_reach ..) rfl)
    (.ite ?_ ((h.reach (State.seqDone_reach ..) rfl).advance ..))
  have hnoted := h.reach (State.noteBackward_reach s c) rfl
  dsimp only
  split
  · exact .ite (hnoted.reach (State.dropExtra_reach ..) rfl) (hnoted.reach (State.setSeq_reach ..) rfl)
  · exact hnoted

theorem endChain (h : SetsKept r s) (c : Chain) (status stage : Nat) : SetsKept r (s.endChain c status stage) := by
  unfold State.endChain
  split
  · exact ((h.reach (State.closeChain_reach ..) rfl).reach (State.abortSeq_reach ..) rfl).reach (State.grantContexts_reach _) rfl
  · exact ((h.reach (State.closeChain_reach ..) rfl).seqAfter ..).reach (State.grantContexts_reach _) rfl

theorem endWrite (h : SetsKept r s) (c : Chain) (stage : Nat) : SetsKept r (s.endWrite c stage) :=
  (h.reach (State.clearFailed_reach _) rfl).endChain ..

theorem readStops (h : SetsKept r s) (c : Chain) (k : Nat) (g : Stage) (e : ReadEnd) : SetsKept r (s.readStops c k g e) := by
  have hset := h.reach (State.setStageOf_reach s c k g) rfl
  unfold State.readStops
  split
  · exact hset.endChain ..
  · exact h.reach (State.setStageOf_reach ..) rfl
  · exact h

theorem lensFaults (h : SetsKept r s) (e task : Nat) (reads : List (Nat × Nat × Nat)) : SetsKept r (s.lensFaults e task reads).1 := by
  have hparity := h.reach (State.lensParity_reach s e (s.chainOfTask e task) reads).fst rfl
  unfold State.lensFaults
  dsimp only
  split
  · split
    · exact hparity.reach (State.rerunError_reach ..) rfl
    split
    · exact hparity.endChain ..
    · exact hparity
  · exact hparity

/-! ## The pages a stage reads -/

theorem putSlot (h : SetsKept r s) (a : Access) (g : Stage) (tile off : Nat) (bs : List Byte) (poison : Bool) :
    SetsKept r (s.putSlot a g tile off bs poison) := by
  have hput := (h.reach (State.useSlots_reach s a (g.slotAddr tile + off) (bs.take (g.slotBytes - off)).length) rfl).putMem
    (g.slotAddr tile + off) (bs.take (g.slotBytes - off))
  exact .ite (hput.of_pool rfl) hput

theorem chainReads (h : SetsKept r s) (c : Chain) (a : Access) (runs : List (Nat × Nat)) : SetsKept r (s.chainReads c a runs).1 :=
  reach (foldl runs h fun _ p hu => hu.didRead a p.1 p.2) (State.parityStops_reach ..).fst rfl

theorem stageReads (h : SetsKept r s) (c : Chain) (k : Nat) (g : Stage) (runs : List (Nat × Nat)) :
    SetsKept r (s.stageReads c k g runs).1 := by
  unfold State.stageReads
  dsimp only
  split
  · exact (h.reach (State.noteWalk_reach ..) rfl).chainReads ..
  split
  · exact .foldl _ h fun _ _ hu => hu.promote ..
  split
  · exact h
  split
  · exact h.reach (State.askRuns_reach ..) rfl
  have hread := h.chainReads c (c.access k g) (s.localRuns (cluDie c.cluster) c.owner runs)
  split
  · exact hread
  split
  · exact hread
  · exact hread

/-! ## Tiles fetched and gathered -/

theorem fetchTile (h : SetsKept r s) (c : Chain) (k : Nat) (g : Stage) : SetsKept r (s.fetchTile c k g) := by
  unfold State.fetchTile
  extract_lets die item
  dsimp only
  have hread : ∀ runs, SetsKept r
      ((if g.todo then s else s.clamped c.cluster (s.chainDesc c g.inDesc).2).stageReads c k g runs).1 := fun runs =>
    stageReads (ite h (h.clamped ..)) c k g runs
  split
  next heq => exact (hread _).of_pair heq
  next heq => exact ((hread _).of_pair heq).reach (State.setStageOf_reach ..) rfl
  next heq =>
    have hu := (hread _).of_pair heq
    exact .ite ((hu.reach (State.setStageOf_reach ..) rfl).endChain ..)
      (.ite (hu.reach (State.setStageOf_reach ..) rfl) ((hu.bump ..).reach (State.setStageOf_reach ..) rfl))
  next heq =>
    have hu := (hread _).of_pair heq
    refine reach (foldl _ (iteThen (iteThen (iteThen hu (.bump (refl _) ..)) (.putSlot (refl _) ..)) (.putSlot (refl _) ..)) fun _ _ hv => ?_)
      (State.setStageOf_reach ..) rfl
    exact hv.reach (State.noteWalk_reach ..) rfl

theorem gatherItem (h : SetsKept r s) (c : Chain) (k : Nat) (g : Stage) : SetsKept r (s.gatherItem c k g) := by
  unfold State.gatherItem
  extract_lets die item
  dsimp only
  have hread := h.stageReads c k g ((s.chainDesc c g.inDesc).1.tileRuns item)
  split
  next heq => exact ((hread.of_pair heq).reach (State.setChain_reach ..) rfl).endChain ..
  next heq =>
    split
    next heq' =>
      have hu := ((hread.of_pair heq).stageReads ..).of_pair heq'
      refine reach (iteElse (bump (iteThen (hu.clamped ..) (.bump (refl _) ..)) ..) (foldl _ (refl _) fun _ _ hv => ?_))
        (State.setStageOf_reach ..) rfl
      exact (hv.putSlot ..).iteThen (.putSlot (refl _) ..)
    next heq' => exact (((hread.of_pair heq).stageReads ..).of_pair heq').readStops ..
  next heq => exact (hread.of_pair heq).readStops ..

/-! ## Output streams -/

theorem vPutPage (h : SetsKept r s) (die : Nat) (a : Access) (va : Nat) (bs : List Byte) :
    SetsKept r (s.vPutPage die a va bs).st := by
  unfold State.vPutPage
  dsimp only
  split
  · split
    · exact (h.devWrite ..).of_pool rfl
    · exact h.devWrite ..
  · exact h.reach (State.beginMsg_reach ..) rfl
  · exact h.reach (State.noteWalk_reach ..) rfl

theorem vPutFuel (h : SetsKept r s) (die : Nat) (a : Access) (fuel va : Nat) (bs : List Byte) :
    SetsKept r (s.vPutFuel die a fuel va bs).st := by
  induction fuel generalizing s va bs with
  | zero => exact h
  | succ fuel ih =>
    unfold State.vPutFuel
    split
    · exact h
    · refine ih ?_ ..
      split
      · exact h.vPutPage ..
      · exact h.reach (State.noteWalk_reach ..) rfl

theorem vPut (h : SetsKept r s) (die : Nat) (a : Access) (va : Nat) (bs : List Byte) : SetsKept r (s.vPut die a va bs).st :=
  h.vPutFuel ..

theorem putScales (h : SetsKept r s) (die : Nat) (a : Access) (d : Desc) (row : Nat) (l : List (Nat × Nat)) :
    SetsKept r (s.putScales die a d row l).st := by
  induction l generalizing s with
  | nil => exact h
  | cons p rest ih => exact ih (h.vPut die a _ _)

theorem streamRow (h : SetsKept r s) (die rev : Nat) (a : Access) (d : Desc) (row : Nat) (els : List (Nat × Val)) :
    SetsKept r (s.streamRow die rev a d row els).st := by
  have hfree : SetsKept r { s with free := s.free + 1 } := h.of_pool rfl
  unfold State.streamRow
  extract_lets inT ok
  split
  · exact h
  · exact ((hfree.vPut ..).putScales ..).reach (State.postFlags_reach ..) rfl

theorem streamRows (h : SetsKept r s) (die rev : Nat) (a : Access) (d : Desc) (rows : List (Nat × List (Nat × Val))) :
    SetsKept r (s.streamRows die rev a d rows).st := by
  induction rows generalizing s with
  | nil => exact h
  | cons row rest ih => exact ih (h.streamRow ..)

/-! ## The commands of an engine -/

theorem setEng (h : SetsKept r s) (e : Nat) (x : Engine) : SetsKept r (s.setEng e x) := h.reach (State.setEng_reach ..) rfl

theorem emitDesc (h : SetsKept r s) (e : Nat) (v : VecCmd) (c : Chain) (k row0 : Nat) (rows : List (List VecResult)) :
    SetsKept r (s.emitDesc e v c k row0 rows) := by
  unfold State.emitDesc
  extract_lets placed
  dsimp only
  have hclamped := h.clamped (engCluster e) (s.chainDesc c v.outDesc).2
  refine iteThen (iteThen ?_ (.bump (refl _) ..)) ((refl _).endWrite ..)
  exact reach (bump (bump (hclamped.streamRows ..) ..) ..) (State.postFlags_reach ..) rfl

theorem emit (h : SetsKept r s) (e task : Nat) (v : VecCmd) (rows : List (List VecResult)) : SetsKept r (s.emit e task v rows) := by
  unfold State.emit
  split
  · exact h.reach (State.emitLens_reach ..) rfl
  split
  · exact h.emitDesc ..
  · exact h

theorem genEffect (h : SetsKept r s) (e task : Nat) (v : VecCmd) : SetsKept r (s.genEffect e task v) := by
  unfold State.genEffect
  split
  · exact h
  · exact ((h.clamped ..).bump ..).emit ..

theorem wr (h : SetsKept r s) (q : Reg) (u i : Nat) (v : Word) : SetsKept r (s.wr q u i v) := h.of_pool rfl

theorem setFld (h : SetsKept r s) (f : Field) (u i n : Nat) : SetsKept r (s.setFld f u i n) := h.of_pool rfl

theorem traceCmd (h : SetsKept r s) (level rtype e task opc index cycles : Nat) :
    SetsKept r (s.traceCmd level rtype e task opc index cycles) := h.reach (State.traceCmd_reach ..) rfl

theorem issuePass (h : SetsKept r s) (e : Nat) (c : PassCmd) (task index : Nat) : SetsKept r (s.issuePass e c task index) := by
  have hbuf : SetsKept r (if c.loadS then s.setArr engArrayStatusActiveBuf e (1 - s.fld engArrayStatusActiveBuf e) else s) :=
    h.iteThen (.setFld (refl _) ..)
  exact traceCmd (setEng (bump (reach (setFld (setFld (setFld (hbuf.bump ..) ..) ..) ..) (State.lensPutF32s_reach ..) rfl) ..) ..) ..

theorem beginPass (h : SetsKept r s) (e task index : Nat) (w : Words4) : SetsKept r (s.beginPass e task index w) := by
  unfold State.beginPass
  split
  extract_lets x first forced c u
  have hfaults : SetsKept r (u.lensFaults e task c.lensReads).1 := lensFaults (h.clamped ..) ..
  split
  next v stops heq =>
  have hv : SetsKept r v := hfaults.of_pair heq
  refine .ite hv ?_
  extract_lets opened atOpen started loaded
  have hloaded : SetsKept r loaded :=
    ((hv.reach (State.openTile_reach ..) rfl).setEng ..).iteThen ((refl _).reach (State.loadStationary_reach ..) rfl)
  have hramping := fun prof cols => (hloaded.reach (State.rampClamp_reach _ e prof) rfl).setFld engArrayStatusEngagedCols e 0 cols
  refine .ite ?_ (.ite (.ite ((hloaded.setFld ..).setEng ..) (.ite (hloaded.setEng ..) (hloaded.issuePass ..)))
    (((hloaded.setFld ..).setEng ..).setEng ..))
  exact ((hramping ..).setEng ..).setEng ..

theorem runVec (h : SetsKept r s) (e task index : Nat) (w : Words4) : SetsKept r (s.runVec e task index w) := by
  unfold State.runVec
  split
  next v n heq =>
  extract_lets u
  have hfaults : SetsKept r (u.lensFaults e task (v.reads.map (4, ·))).1 := lensFaults (h.clamped ..) ..
  split
  next v' stops heq =>
  have hv : SetsKept r v' := hfaults.of_pair heq
  refine .ite hv ?_
  extract_lets opened traced acc counted slots cycles issued
  have hissued : SetsKept r issued :=
    (((hv.reach (State.openTile_reach ..) rfl).traceCmd ..).bump ..).iteThen (((refl _).bump ..).bump ..)
  have hlens : ∀ u a v, SetsKept r u → SetsKept r (u.lensPutF32 e a v) := fun u a v hu => hu.reach (State.lensPutF32_reach ..) rfl
  refine traceCmd (bump (.ite hissued (.ite ((hissued.wr ..).wr ..) (.ite ?_ (.ite (hissued.reach (State.skipEffect_reach ..) rfl)
    (.ite (hissued.genEffect ..) (.ite ((hissued.reach (State.putRowStates_reach ..) rfl).emit ..) (hissued.emit ..))))))) ..) ..
  exact hlens _ _ _ (hlens _ _ _ (hlens _ _ _ hissued))

theorem runCmd (h : SetsKept r s) (e : Nat) (q : QueuedCmd) : SetsKept r (s.runCmd e q) :=
  .ite (h.beginPass ..) (.ite (h.reach (State.runMark_reach ..) rfl) (.ite (h.reach (State.runPoint_reach ..) rfl) (h.runVec ..)))

theorem drainCmds (h : SetsKept r s) (e fuel : Nat) : SetsKept r (s.drainCmds e fuel) := by
  induction fuel generalizing s with
  | zero => exact h
  | succ fuel ih =>
    unfold State.drainCmds
    split
    · exact ih ((h.setEng ..).runCmd ..)
    · exact h

theorem drain (h : SetsKept r s) (e : Nat) : SetsKept r (s.drain e) := h.drainCmds ..

/-! ## The work of a stage -/

theorem lensLoad (h : SetsKept r s) (c : Chain) (k : Nat) (g : Stage) (l : LensLoad) : SetsKept r (s.lensLoad c k g l).1 := by
  unfold State.lensLoad
  extract_lets die e
  dsimp only
  have hread := h.stageReads c k g ((s.chainDesc c l.desc.toNat).1.tileRuns l.tile.toNat)
  split
  next heq =>
    refine iteThen (reach (iteThen ((hread.of_pair heq).clamped ..) (.bump (refl _) ..)) (State.lensPut_reach ..) rfl) ?_
    exact (refl _).reach (State.lensPut_reach ..) rfl
  · exact hread

theorem lensLoads (h : SetsKept r s) (c : Chain) (k : Nat) (g : Stage) (l : List LensLoad) : SetsKept r (s.lensLoads c k g l) := by
  induction l generalizing s with
  | nil => exact drain (h.reach (State.setStageOf_reach ..) rfl) _
  | cons l ls ih =>
    have hload := h.lensLoad c k g l
    unfold State.lensLoads
    split
    next heq => exact ih (hload.of_pair heq)
    next heq => exact ((hload.of_pair heq).reach (State.setStageOf_reach ..) rfl).endChain ..
    next heq => exact (hload.of_pair heq).readStops ..

theorem slotReads (h : SetsKept r s) (c : Chain) (k : Nat) (g : Stage) (runs : List (Nat × Nat)) :
    SetsKept r (s.slotReads c k g runs).1 := h.chainReads ..

/-- The end of a stage's stores: the mask counted, and a fault ends the chain. -/
theorem stored (h : SetsKept r s) (die rev : Nat) (a : Access) (d : Desc) (rows : List (Nat × List (Nat × Val))) (c c' : Chain) (k : Nat) :
    SetsKept r (
      let e := s.streamRows die rev a d rows
      let s := if e.masked then e.st.bump .cluExtentMaskCnt c.cluster 0 1 else e.st
      if e.fault then s.endWrite c' k else s) :=
  have hrows := (h.streamRows die rev a d rows).iteThen (.bump (refl _) ..)
  hrows.iteThen ((refl _).endWrite ..)

theorem scatterItem (h : SetsKept r s) (c : Chain) (k : Nat) (g gin : Stage) : SetsKept r (s.scatterItem c k g gin) := by
  unfold State.scatterItem
  extract_lets die item
  dsimp only
  have hread := h.stageReads c k g ((s.chainDesc c g.inDesc).1.tileRuns item)
  split
  next heq => exact ((hread.of_pair heq).reach (State.setChain_reach ..) rfl).endChain ..
  next heq =>
    have hread' := fun runs => (hread.of_pair heq).slotReads c k g runs
    split
    next heq' =>
      exact stored (reach (bump (iteThen (((hread' _).of_pair heq').clamped ..) (.bump (refl _) ..)) ..) (State.setStageOf_reach ..) rfl) ..
    next heq' => exact (((hread' _).of_pair heq').reach (State.setChain_reach ..) rfl).endChain ..
    next heq' => exact ((hread' _).of_pair heq').readStops ..
  next heq => exact (hread.of_pair heq).readStops ..

theorem storeItem (h : SetsKept r s) (c : Chain) (k : Nat) (g gin : Stage) : SetsKept r (s.storeItem c k g gin) := by
  unfold State.storeItem
  extract_lets die item
  dsimp only
  have hread := fun c' n runs => slotReads ((h.clamped c.cluster n).reach (State.setChain_reach _ c') rfl) c k g runs
  split
  next heq => exact ((hread ..).of_pair heq).stored ..
  next heq => exact ((hread ..).of_pair heq).endChain ..
  next heq => exact (hread ..).of_pair heq

theorem itemWork (h : SetsKept r s) (c : Chain) (k : Nat) (g : Stage) : SetsKept r (s.itemWork c k g) := by
  unfold State.itemWork
  split
  · exact (h.setEng ..).lensLoads ..
  · exact h.fetchTile ..
  · exact h.storeItem ..
  · exact h.gatherItem ..
  · exact h.scatterItem ..
  · exact h

theorem retryStage (h : SetsKept r s) (ref : ChainRef) (k : Nat) : SetsKept r (s.retryStage ref k) := by
  unfold State.retryStage
  split
  · exact h
  split
  · exact .ite (h.itemWork ..) h
  · exact h

theorem retryChains (h : SetsKept r s) (cs : List Chain) : SetsKept r (s.retryChains cs) :=
  .foldl _ h fun _ _ hu => .foldl _ hu fun _ _ hv => hv.retryStage ..

theorem retryAll (h : SetsKept r s) : SetsKept r s.retryAll := h.retryWaiting.retryMoves.fillPlans.retryRetired.retryChains _

end SetsKept

end Sys2Proof.Machine
end

section
/-!
SUPPORT. The statement about rebuilds, quarantines and swap-mode sets (spec/09_capacity_pool.md R446 to R456).
-/
namespace Sys2Proof.Machine

/-! ## Sets swapped and loaded (R455, R456) -/

/-- The swap that comes next: the old set written back or dropped, the invocation taken off the list, and the loading begun. -/
theorem swapInvocationEffect_begins {s : State} {die : Fin 2} {owner : BitVec 6} (hnext : s.swapNext die.val owner.toNat = true) :
    let t := swapInvocationEffect die owner s
    t.pool.swapping = s.pool.swapping ++ [(die.val, owner.toNat)] ∧
    t.pool.setOwner = (s.pool.setOwner.filter fun p => p.1 != die.val) ∧
    t.pool.invoked = s.pool.invoked.filter fun p => p != (die.val, owner.toNat) := by
  intro t
  have ht : t = swapInvocationEffect die owner s := rfl
  unfold swapInvocationEffect at ht
  extract_lets d o old mine dropped at ht
  rw [if_neg (by rw [hnext]; exact Bool.false_ne_true)] at ht
  have hdropped : SetsKept s dropped := by
    refine .foldl _ (.refl s) fun u p hu => ?_
    split
    · exact hu.finishMove _
    split
    · exact ((hu.copyFrame ..).bump ..).dropCached _
    · exact hu.dropCached _
  have hkept := (SetsKept.refl { dropped with pool := { dropped.pool with
      setOwner := dropped.pool.setOwner.filter fun p => p.1 != d, invoked := dropped.pool.invoked.filter fun p => p != (d, o),
      swapping := dropped.pool.swapping ++ [(d, o)] } }).retryAll
  rw [← ht] at hkept
  refine ⟨hkept.swapping.trans ?_, hkept.setOwner.trans ?_, hkept.invoked.trans ?_⟩
  · exact congrArg (· ++ [(d, o)]) hdropped.swapping
  · exact congrArg (List.filter _) hdropped.setOwner
  · exact congrArg (List.filter _) hdropped.invoked

theorem SetsKept.cacheFrame {r s : State} (h : SetsKept r s) (die owner : Nat) (p : FramePair) : SetsKept r (s.cacheFrame die owner p) :=
  .ite (((h.copyFrame ..).switchPage ..).setFrame ..) h

/-- The set that is being loaded stands in place. -/
theorem gallerySetLoadDoneEffect_ends {s : State} {die : Fin 2} {owner : BitVec 6} (hloading : s.pool.swapping.contains (die.val, owner.toNat) = true)
    (loaded : List FramePair) : let t := gallerySetLoadDoneEffect die owner loaded s
    t.pool.setOwner = s.pool.setOwner ++ [(die.val, owner.toNat)] ∧
    t.pool.swapping = s.pool.swapping.filter fun p => p != (die.val, owner.toNat) := by
  intro t
  have ht : t = gallerySetLoadDoneEffect die owner loaded s := rfl
  unfold gallerySetLoadDoneEffect at ht
  extract_lets d o cached at ht
  rw [if_pos hloading] at ht
  have hcached : SetsKept s cached :=
    .showUse (.foldl _ (.refl s) fun _ p hu => hu.cacheFrame d o p) o
  rw [ht]
  exact ⟨congrArg (· ++ [(d, o)]) hcached.setOwner, congrArg (List.filter _) hcached.swapping⟩

/-- Settles O32: a failing sector is rebuilt (`writeRebuilt_writes`) or its frame quarantined, and no other step of the pool swaps a set (`SetsKept`). -/
theorem rebuildsQuarantinesAndGallerySets : Obligations.RebuildsQuarantinesAndGallerySets := by
  refine ⟨?rebuilt, ?quarantined, ?timedOut, ?unreachable, ?swapped, ?loaded⟩
  case rebuilt =>
    rintro s addr pa rd wr o big sector f die ⟨hused, hsound, hbad, hbuild, hnone, hdone⟩ ⟨hpage, hstamp, hgood, hquiet⟩
    have hdrop := s.dropUe_readKept sector
    have hpage' : (s.dropUe sector).xlat ((s.dropUe sector).frameDie (sector / 65536)) f.owner (f.counterpart sector) = .page pa rd wr o big := by
      rw [(hdrop.reach.sameVirtual (by decide)).xlat, hdrop.frameDie]
      exact hpage
    have hquiet' : (s.dropUe sector).noneQueued (pa / 32 * 32) 32 = true :=
      (State.noneQueued_congr (show (s.dropUe sector).hbm = s.hbm from rfl) ..).trans hquiet
    have hread := hdrop.trans (State.didRead_sound ((hdrop.sectorSound pa).trans hgood) hquiet' ((s.dropUe sector).maintAccess (pa / 65536) f.owner))
    have hrule := sectorRebuildEffect_of_counterpart hused hsound hbad hnone rfl rfl hbuild hpage' rfl ((hread.stamp _).trans hstamp)
      ((hread.sectorSound pa).trans hgood)
    exact ⟨_, congrArg Host.Outcome.next hrule, hread.writeRebuilt_writes hdone (Nat.mul_mod_left ..) _⟩
  case quarantined =>
    rintro s addr sector f die ⟨hused, hsound, hbad, hplain, hnone⟩
    have hdrop := s.dropUe_readKept sector
    have hrule := sectorRebuildEffect_of_plain hused hsound hbad hnone rfl rfl hplain
    have hcount := State.quarantine_counts ((hdrop.quarantined (sector / 65536)).trans hsound) sector 0
    rw [hdrop.frameDie, hdrop.reach.rd_eq _ rfl] at hcount
    exact ⟨_, congrArg Host.Outcome.next hrule, State.quarantine_quarantines .., hcount⟩
  case timedOut =>
    rintro s addr ms failed sector n ⟨hrunning, hdone⟩ hends
    have hfails : rebuildTimeoutEffect addr ms failed s = s.failRebuild sector := by
      refine if_pos ?_
      rw [hrunning]
      simpa using hends
    obtain ⟨hcount, hquarantined, hrebuilds⟩ := s.failRebuild_fails hdone sector
    refine ⟨_, congrArg Host.Outcome.next hfails, hcount, hquarantined, ?_⟩
    rw [hrebuilds]
    simp [List.any_filter]
  case unreachable =>
    rintro s first count
    refine ⟨_, rfl, List.all_eq_true.mpr fun p hp => ?_⟩
    rw [Bool.or_eq_true, Bool.not_eq_true']
    refine or_iff_not_imp_left.mpr fun hhit => ?_
    exact State.foldl_quarantine s.pool.frames (·.1)
      (fun u q => u.frameTier q.1 = 2 ∧ first.toNat ≤ q.1 ∧ q.1 < first.toNat + count.toNat ∧ q.2.st ≠ .free) (·.1 * 65536) 2
      (fun u n sec q => by rw [State.quarantine_frameTier]) s hp (by simpa [and_assoc] using hhit)
  case swapped =>
    rintro s die owner ⟨hidle, hfirst⟩
    have hnext : s.swapNext die.val owner.toNat = true := by
      rw [State.swapNext, hidle, hfirst]
      exact beq_self_eq_true _
    obtain ⟨hswapping, howner, hinvoked⟩ := swapInvocationEffect_begins hnext
    exact ⟨_, rfl, hswapping, howner, hinvoked⟩
  case loaded =>
    rintro s die owner loaded hloading
    exact ⟨_, rfl, gallerySetLoadDoneEffect_ends hloading loaded⟩

end Sys2Proof.Machine
end

section
/-!
SUPPORT. Fabric links (spec/10_links_and_windows.md R465 to R485), said once for each operation: what is read of a link after it is set, of its
state after the state is set, and what a whole control flit gives.
-/
namespace Sys2Proof.Machine

/-! ## Reads of a link after an update -/

@[simp] theorem State.link_setLink_self (s : State) (n : Nat) (x : Link) : (s.setLink n x).link n = x := lookupD_putD_self ..

theorem Reach.link_eq {F : Nat} {s t : State} (h : Reach F s t) (hfabric : F.testBit 23 = false) (n : Nat) : t.link n = s.link n :=
  congrArg (fun f : Fabric => lookupD ({} : Link) n f.links) (h.same .fabric hfabric)

@[simp] theorem State.link_bump (s : State) (r : Reg) (u i n k : Nat) : (s.bump r u i n).link k = s.link k := rfl

@[simp] theorem State.link_setLinkState (s : State) (n st k : Nat) : (s.setLinkState n st).link k = s.link k := rfl

@[simp] theorem State.link_dput (s : State) (d : Nat) (v : Int) (k : Nat) : (s.dput d v).link k = s.link k := rfl

@[simp] theorem State.link_setFld (s : State) (f : Field) (u i n k : Nat) : (s.setFld f u i n).link k = s.link k := rfl

@[simp] theorem State.link_flitFec (s : State) (l : Nat) (f : FlitIn) (k : Nat) : (s.flitFec l f).link k = s.link k := rfl

@[simp] theorem State.link_dataGone (s : State) (num : Option Nat) (k : Nat) : (s.dataGone num).link k = s.link k := by
  cases num <;> rfl

theorem Reach.linkState_eq {F : Nat} {s t : State} (h : Reach F s t) (hstatus : F.testBit (64 + Reg.fabStatus.ctorIdx) = false) (n : Nat) :
    t.linkState n = s.linkState n := h.fld_eq fabStatusState hstatus n 0

@[simp] theorem State.linkState_setLink (s : State) (n : Nat) (x : Link) (k : Nat) : (s.setLink n x).linkState k = s.linkState k := rfl

@[simp] theorem State.linkState_flitFec (s : State) (l : Nat) (f : FlitIn) (k : Nat) : (s.flitFec l f).linkState k = s.linkState k :=
  (s.flitFec_reach l f).linkState_eq rfl k

theorem State.linkState_setLinkState (s : State) (n : Nat) {st : Nat} (h : st < 16) : (s.setLinkState n st).linkState n = st :=
  (State.fld_setFld_self s fabStatusState n 0 st (by decide)).trans (Nat.mod_eq_of_lt h)

theorem State.transmits_of_state {s : State} {n st : Nat} (h : s.linkState n = st) (hst : 3 ≤ st ∧ st ≤ 5) : s.transmits n = true := by
  obtain ⟨hlow, hhigh⟩ := hst
  simp [State.transmits, h, hlow, hhigh]

end Sys2Proof.Machine
end

section
/-!
SUPPORT. The statement about flits sent and taken (spec/10_links_and_windows.md R467 to R476).
-/
namespace Sys2Proof.Machine

/-! ## FLIT_TRANSMIT (R467, R473, R476, R478) -/

section
variable {s : State} {link : Fin 16}

theorem flitTransmitEffect_control {p : List Byte} {ps : List (List Byte)} (hon : s.transmits link.val = true)
    (hcontrol : (s.link link.val).control = p :: ps) :
    flitTransmitEffect link s = s.setLink link.val { (s.link link.val).emit 2 0 0 false p with control := ps } := by
  simp only [flitTransmitEffect, hon, hcontrol, Bool.not_true, Bool.false_eq_true, if_false]

/-- The flit of the retry buffer that goes out again, counted, and its resends checked. -/
theorem flitTransmitEffect_resends {r : RetryFlit} (hup : s.linkState link.val = 5) (hcontrol : (s.link link.val).control = [])
    (hagain : ((s.link link.val).retry.find? fun q : RetryFlit => q.again) = some r) :
    flitTransmitEffect link s = (((s.setLink link.val { (s.link link.val).emit 1 r.seq r.vc true r.payload with
      retry := clearAgain (s.link link.val).retry }).bump .fabTxFlitCnt link.val 0 1).bump .fabResentCnt link.val 0 1).checkRetry link.val := by
  have hon := State.transmits_of_state hup (by decide)
  simp only [flitTransmitEffect, hon, hcontrol, hup, hagain, Bool.not_true, Bool.false_eq_true, if_false, ne_eq, not_true_eq_false]

/-- With no message of a remote page outstanding none is pulled. -/
theorem State.pullOrigins_of_none (hnone : s.sentMsgs = []) (l fuel : Nat) : s.pullOrigins l fuel = s := by
  have hpull : s.pullOrigin l = s := by
    rw [State.pullOrigin, hnone]
    rfl
  induction fuel with
  | zero => rfl
  | succ fuel ih => rw [State.pullOrigins, hpull, ih, ite_self]

theorem flitTransmitEffect_sends {v : Nat} (hup : s.linkState link.val = 5) (hcontrol : (s.link link.val).control = [])
    (hagain : ((s.link link.val).retry.any fun r : RetryFlit => r.again) = false) (hnone : s.sentMsgs = [])
    (hroom : (s.link link.val).retry.length < 1024) (hvc : (s.link link.val).nextVc = some v) :
    flitTransmitEffect link s = s.sendData link.val v := by
  have hon := State.transmits_of_state hup (by decide)
  have hfind : ((s.link link.val).retry.find? fun r : RetryFlit => r.again) = none := by
    rw [List.find?_eq_none]
    exact List.any_eq_false.mp hagain
  simp only [flitTransmitEffect, hon, hcontrol, hup, hfind, State.pullOrigins_of_none hnone, Nat.not_le.mpr hroom, hvc, Bool.not_true,
    Bool.false_eq_true, if_false, ne_eq, not_true_eq_false]

end

/-- Setting a VC's queue leaves what the flits' order and credits go by. -/
theorem Link.setTx_kept (x : Link) (vc : Nat) (q : List TxMsg) : (x.setTx vc q).retry = x.retry ∧ (x.setTx vc q).nextSeq = x.nextSeq ∧
    (x.setTx vc q).credits = x.credits ∧ (x.setTx vc q).wire = x.wire := by
  unfold Link.setTx
  split <;> exact ⟨rfl, rfl, rfl, rfl⟩

/-- R473, R476: what a new data flit leaves of its link and counts. -/
theorem State.sendData_sends (s : State) (l v : Nat) :
    let x := s.link l
    let t := s.sendData l v
    ((t.link l).retry = x.retry ++ [{ seq := x.nextSeq, vc := v, payload := (fillFlit 244 (x.tx v)).1, headers := (fillFlit 244 (x.tx v)).2.1 }]) ∧
    ((t.link l).wire = (x.emit 1 x.nextSeq v false (fillFlit 244 (x.tx v)).1).wire ∧ (t.link l).nextSeq = (x.nextSeq + 1) % 4096) ∧
    (t.link l).credits = x.credits.set v (x.credits.getD v 0 - 1) ∧ t.rd .fabTxFlitCnt l 0 = s.rd .fabTxFlitCnt l 0 + 1#64 := by
  intro x t
  have hgone : ∀ (u : State) (l' : List Nat), Reach 0x800000 u (l'.foldl (fun s k => s.dataGone (some k)) u) ∧
      (l'.foldl (fun s k => s.dataGone (some k)) u).link l = u.link l := fun u l' =>
    List.foldlRecOn (motive := fun w : State => Reach 0x800000 u w ∧ w.link l = u.link l) l' _ ⟨.refl .., rfl⟩ fun w hw k _ =>
      ⟨hw.1.then (State.dataGone_reach ..) rfl, (State.link_dataGone ..).trans hw.2⟩
  obtain ⟨hretry, hseq, hcredits, hwire⟩ := ((x.emit 1 x.nextSeq v false (fillFlit 244 (x.tx v)).1).setTx_kept v (fillFlit 244 (x.tx v)).2.2.1)
  simp only [t, State.sendData, (hgone ..).2, (hgone ..).1.rd_eq .fabTxFlitCnt rfl, State.link_bump, State.link_setLink_self, State.rd_bump_self,
    State.setLink_rd, and_true]
  refine ⟨?_, ⟨?_, ?_⟩, ?_⟩
  · rw [hretry, hseq]; rfl
  · exact hwire
  · rw [hseq]; rfl
  · rw [hcredits]; rfl

/-- The flit marked as sent again is still in the buffer, resent once more. -/
theorem mem_clearAgain {q : List RetryFlit} {r : RetryFlit} (h : (q.find? fun r : RetryFlit => r.again) = some r) :
    { r with again := false, resends := r.resends + 1 } ∈ clearAgain q := by
  induction q with
  | nil => cases h
  | cons a q ih =>
    rw [clearAgain]
    by_cases ha : a.again = true
    · obtain rfl : a = r := by simpa [ha] using h
      rw [if_pos ha]
      exact List.mem_cons_self
    · rw [if_neg ha]
      exact List.mem_cons_of_mem _ (ih (by simpa [ha] using h))

@[simp] theorem State.link_checkRetry (s : State) (l k : Nat) : (s.checkRetry l).link k = s.link k := by
  unfold State.checkRetry
  dsimp only
  split <;> rfl

/-- R478: a flit of the buffer resent LINK_RETRY_LIMIT times sends the link into RECOVERY. -/
theorem State.checkRetry_recovers {s : State} {l : Nat} {r : RetryFlit} (hmem : r ∈ (s.link l).retry) (hlimit : s.dnat dkLinkRetryLimit ≤ r.resends) :
    (s.checkRetry l).linkState l = 6 ∧ (s.checkRetry l).rd .fabRecoveryCnt l 0 = s.rd .fabRecoveryCnt l 0 + 1#64 := by
  have hover : ((s.link l).retry.any fun r => decide (s.dnat dkLinkRetryLimit ≤ r.resends)) = true :=
    List.any_eq_true.mpr ⟨r, hmem, decide_eq_true hlimit⟩
  have heq : s.checkRetry l = (s.setLinkState l 6).bump .fabRecoveryCnt l 0 1 := if_pos hover
  rw [heq]
  refine ⟨?_, ?_⟩
  · exact (State.fld_bump_ne (by decide) ..).trans (State.linkState_setLinkState s l (by decide))
  · rw [State.rd_bump_self, (s.setLinkState_reach l 6).rd_eq .fabRecoveryCnt rfl]

/-- R476, R478: what is counted of a flit sent again, and what comes of the last resend that LINK_RETRY_LIMIT admits. -/
theorem State.resent_counts (u : State) (l : Nat) :
    let t := ((u.bump .fabTxFlitCnt l 0 1).bump .fabResentCnt l 0 1).checkRetry l
    t.link l = u.link l ∧ (t.rd .fabTxFlitCnt l 0 = u.rd .fabTxFlitCnt l 0 + 1#64 ∧ t.rd .fabResentCnt l 0 = u.rd .fabResentCnt l 0 + 1#64) ∧
    ∀ r ∈ (u.link l).retry, u.dnat dkLinkRetryLimit ≤ r.resends →
      t.linkState l = 6 ∧ t.rd .fabRecoveryCnt l 0 = u.rd .fabRecoveryCnt l 0 + 1#64 := by
  have hchecked := ((u.bump .fabTxFlitCnt l 0 1).bump .fabResentCnt l 0 1).checkRetry_reach l
  refine ⟨State.link_checkRetry .., ⟨?_, ?_⟩, fun r hmem hlimit => ?_⟩
  · rw [hchecked.rd_eq .fabTxFlitCnt rfl, State.rd_bump_ne (by decide), State.rd_bump_self]
  · rw [hchecked.rd_eq .fabResentCnt rfl, State.rd_bump_self, State.rd_bump_ne (by decide)]
  · have hrecovers := State.checkRetry_recovers (s := (u.bump .fabTxFlitCnt l 0 1).bump .fabResentCnt l 0 1) hmem hlimit
    rwa [State.rd_bump_ne (by decide), State.rd_bump_ne (by decide)] at hrecovers

/-! ## DATA_FLIT_RECEIVE and NULL_FLIT (R470, R471, R473, R475) -/

section
variable {s : State} {link : Fin 16} {flit : FlitIn}

theorem Link.takeReturns_kept (x : Link) (head : Word) : (x.takeReturns head).expSeq = x.expSeq ∧ (x.takeReturns head).owed = x.owed := by
  unfold Link.takeReturns
  split <;> exact ⟨rfl, rfl⟩

theorem dataFlitReceiveEffect_accepts (hup : s.linkState link.val = 5) (hgood : flitGood flit = true) (htype : bitsOf (flitHead flit.bits) 0 2 = 1)
    (hseq : bitsOf (flitHead flit.bits) 2 12 = (s.link link.val).expSeq) (again : Bool) :
    let x := s.link link.val
    let vc := bitsOf (flitHead flit.bits) 27 2
    ∃ (y : Link) (bad : Nat), dataFlitReceiveEffect link flit again s = (((s.flitFec link.val flit).setLink link.val
      { y with ack := some x.expSeq, expSeq := (x.expSeq + 1) % 4096, nakSent := false, owed := x.owed.set vc (x.owed.getD vc 0 + 1) }).bump
        .fabRxFlitCnt link.val 0 1).bump .fabBadMsgCnt link.val 0 bad := by
  intro x vc
  obtain ⟨hexp, howed⟩ := x.takeReturns_kept (flitHead flit.bits)
  have hwhole : (flitGood flit && bitsOf (flitHead flit.bits) 0 2 != 3) = true := by rw [hgood, htype]; rfl
  have hdata : ¬(bitsOf (flitHead flit.bits) 0 2 == 0 || bitsOf (flitHead flit.bits) 0 2 == 2) = true := by rw [htype]; decide
  have hnext : (bitsOf (flitHead flit.bits) 2 12 == x.expSeq) = true := beq_iff_eq.mpr hseq
  unfold dataFlitReceiveEffect
  simp only [hup, hwhole, hdata, State.link_flitFec, Bool.true_and, if_true, if_false, ne_eq, not_true_eq_false]
  show ∃ (y : Link) (bad : Nat), (if (bitsOf (flitHead flit.bits) 2 12 == (x.takeReturns (flitHead flit.bits)).expSeq) = true then _ else _) = _
  rw [hexp, if_pos hnext, howed]
  exact ⟨_, _, rfl⟩

theorem dataFlitReceiveEffect_damaged (hup : s.linkState link.val = 5) (hbad : flitGood flit = false) (hnak : (s.link link.val).nakSent = false)
    (again : Bool) : dataFlitReceiveEffect link flit again s =
      (((s.flitFec link.val flit).bump .fabCrcFailCnt link.val 0 1).setLink link.val
        { (s.link link.val).addControl (nakPayload (s.link link.val).expSeq) with nakSent := true }).bump .fabNakCnt link.val 0 1 := by
  simp only [dataFlitReceiveEffect, hup, hbad, hnak, State.link_flitFec, Bool.false_and, Bool.false_eq_true, if_false, ne_eq, not_true_eq_false]

theorem nullFlitEffect_of_good (hon : s.transmits link.val = true) (hgood : flitGood flit = true) (htype : bitsOf (flitHead flit.bits) 0 2 = 0) :
    nullFlitEffect link flit s = (s.flitFec link.val flit).setLink link.val ((s.link link.val).takeReturns (flitHead flit.bits)) := by
  simp only [nullFlitEffect, hon, hgood, htype, State.link_flitFec, Bool.not_true, Bool.false_eq_true, if_false, beq_self_eq_true, Bool.and_self,
    if_true]

end

/-! ## The statement about flits (O33) -/

/-- Settles O33: each flit by the branch of its link's transmitter or receiver that takes it. -/
theorem flitsGoOutAndArrive : Obligations.FlitsGoOutAndArrive := by
  refine ⟨?control, ?data, ?resent, ?accepted, ?damaged, ?null⟩
  case control =>
    rintro s link p ps ⟨hon, hcontrol⟩
    exact ⟨_, congrArg Host.Outcome.next (flitTransmitEffect_control hon hcontrol), State.link_setLink_self ..⟩
  case data =>
    rintro s link v x ⟨hup, hcontrol, hagain, hnone⟩ ⟨hroom, hvc⟩
    exact ⟨_, congrArg Host.Outcome.next (flitTransmitEffect_sends hup hcontrol hagain hnone hroom hvc), s.sendData_sends link.val v⟩
  case resent =>
    rintro s link r x ⟨hup, hcontrol, hagain⟩
    obtain ⟨hlink, hcounts, hlast⟩ := (s.setLink link.val { x.emit 1 r.seq r.vc true r.payload with retry := clearAgain x.retry }).resent_counts link.val
    rw [State.link_setLink_self] at hlink hlast
    exact ⟨_, congrArg Host.Outcome.next (flitTransmitEffect_resends hup hcontrol hagain), hlink, hcounts,
      fun hlimit => hlast _ (mem_clearAgain hagain) hlimit⟩
  case accepted =>
    rintro s link flit again x head vc ⟨hup, hgood, htype, hseq⟩
    obtain ⟨y, bad, heq⟩ := dataFlitReceiveEffect_accepts hup hgood htype hseq again
    refine ⟨_, congrArg Host.Outcome.next heq, ?_, ?_, ?_⟩
    · rw [State.link_bump, State.link_bump, State.link_setLink_self]
      exact ⟨rfl, rfl, rfl⟩
    · rw [State.link_bump, State.link_bump, State.link_setLink_self]
    · rw [State.rd_bump_ne (by decide), State.rd_bump_self, State.setLink_rd, (s.flitFec_reach ..).rd_eq _ rfl]
  case damaged =>
    rintro s link flit again x ⟨hup, hbad, hnak⟩
    refine ⟨_, congrArg Host.Outcome.next (dataFlitReceiveEffect_damaged hup hbad hnak again), ?_, ?_, ?_⟩
    · rw [State.link_bump, State.link_setLink_self]
      exact ⟨rfl, rfl, rfl⟩
    · rw [State.rd_bump_ne (by decide), State.setLink_rd, State.rd_bump_self, (s.flitFec_reach ..).rd_eq _ rfl]
    · rw [State.rd_bump_self, State.setLink_rd, State.rd_bump_ne (by decide), (s.flitFec_reach ..).rd_eq _ rfl]
  case null =>
    rintro s link flit ⟨hon, hgood, htype⟩
    exact ⟨_, congrArg Host.Outcome.next (nullFlitEffect_of_good hon hgood htype), State.link_setLink_self ..⟩

end Sys2Proof.Machine
end

section
/-!
SUPPORT. The statement about flits sent again (spec/10_links_and_windows.md R476 to R480): a whole control flit, and what a NAK, a retry time and the
end of a recovery leave of the retry buffer.
-/
namespace Sys2Proof.Machine

/-! ## Control flits (R471) -/

/-- The state after a whole control flit, as each control command finds it. -/
def State.afterControl (s : State) (l : Nat) (flit : FlitIn) : State :=
  (s.flitFec l flit).setLink l ((s.link l).takeReturns (flitHead flit.bits))

/-- A whole control flit of a CTYPE that is listed: its returns are taken, its payload goes on. -/
theorem State.takeControl_of_good {s : State} {l ctype : Nat} {flit : FlitIn} {c : Byte} (hgood : flitGood flit = true)
    (htype : bitsOf (flitHead flit.bits) 0 2 = 2) (hhead : (flitPayload flit.bits).headD 0#8 = c)
    (hlisted : [1, 2, 3, 4, 0x10, 0x11].contains c.toNat = true) (hctype : c.toNat = ctype) :
    s.takeControl l flit ctype = (s.afterControl l flit, some (flitPayload flit.bits)) := by
  subst hctype
  simp only [State.takeControl, State.afterControl, hgood, htype, hhead, hlisted, State.link_flitFec, bne_self_eq_false, Bool.and_false, Bool.not_true,
    Bool.false_eq_true, if_false, if_true]

/-- R471, R473: what a flit returns touches the retry buffer and the credits alone. -/
theorem Link.takeReturns_control (x : Link) (head : Word) : (x.takeReturns head).control = x.control ∧ (x.takeReturns head).echoes = x.echoes ∧
    (x.takeReturns head).echoSent = x.echoSent ∧ (x.takeReturns head).partner = x.partner ∧ (x.takeReturns head).mediaFactor = x.mediaFactor := by
  unfold Link.takeReturns
  split <;> exact ⟨rfl, rfl, rfl, rfl, rfl⟩

@[simp] theorem State.afterControl_link (s : State) (l : Nat) (flit : FlitIn) :
    (s.afterControl l flit).link l = (s.link l).takeReturns (flitHead flit.bits) := State.link_setLink_self ..

theorem State.afterControl_reach (s : State) (l : Nat) (flit : FlitIn) : Reach 0x18000000000000000000000000000000000000000800000 s (s.afterControl l flit) :=
  ((s.flitFec_reach l flit).mono rfl).then (State.setLink_reach ..) rfl

@[simp] theorem State.afterControl_linkState (s : State) (l : Nat) (flit : FlitIn) (k : Nat) : (s.afterControl l flit).linkState k = s.linkState k :=
  (s.afterControl_reach l flit).linkState_eq rfl k

@[simp] theorem State.afterControl_dget (s : State) (l : Nat) (flit : FlitIn) (k : Nat) : (s.afterControl l flit).dget k = s.dget k := rfl

/-! ## Flits sent again (R477 to R479) -/

theorem State.resend_of_seq {s : State} {l seq : Nat} (h : ((s.link l).retry.any fun r : RetryFlit => r.seq == seq) = true) :
    s.resend l seq = s.setLink l { s.link l with retry := resendFrom seq (s.link l).retry } := if_pos h

/-- From its oldest flit on the whole buffer is to be sent again. -/
theorem resendFrom_head (r : RetryFlit) (rs : List RetryFlit) : resendFrom r.seq (r :: rs) = (r :: rs).map fun r => { r with again := true } := by
  simp [resendFrom]

theorem State.resend_of_head {s : State} {l : Nat} {r : RetryFlit} {rs : List RetryFlit} (h : (s.link l).retry = r :: rs) :
    s.resend l r.seq = s.setLink l { s.link l with retry := (r :: rs).map fun r : RetryFlit => { r with again := true } } := by
  have hhead : ((s.link l).retry.any fun q : RetryFlit => q.seq == r.seq) = true := by rw [h, List.any_cons, beq_self_eq_true, Bool.true_or]
  rw [State.resend_of_seq hhead, h, resendFrom_head]

theorem nakEffect_resends {s : State} {link : Fin 16} {flit : FlitIn} (hup : s.linkState link.val = 5) (hgood : flitGood flit = true)
    (htype : bitsOf (flitHead flit.bits) 0 2 = 2) (hhead : (flitPayload flit.bits).headD 0#8 = 1#8) :
    nakEffect link flit s =
      (s.afterControl link.val flit).resend link.val (natOfBytes (((flitPayload flit.bits).drop 1).take 2) % 4096) := by
  simp only [nakEffect, hup, State.takeControl_of_good (ctype := 1) hgood htype hhead rfl rfl, ne_eq, not_true_eq_false, if_false]

/-- R480: an enabled link enters UP. -/
theorem State.linkUp_of_enabled {s : State} {l : Nat} (h : s.dget (dkLinkEnable l) ≠ 0) : s.linkUp l = s.setLinkState l 5 := by
  rw [State.linkUp, if_neg h]

/-- R478: an enabled link that has recovered is UP and sends all of its buffer again. -/
theorem recoveryDoneEffect_resends {s : State} {link : Fin 16} (hrecovery : s.linkState link.val = 6) (hon : s.dget (dkLinkEnable link.val) ≠ 0) :
    (recoveryDoneEffect link s).linkState link.val = 5 ∧
    ((recoveryDoneEffect link s).link link.val).retry = (s.link link.val).retry.map fun r : RetryFlit => { r with again := true, resends := 0 } := by
  generalize hcleared : s.setLink link.val { s.link link.val with retry := (s.link link.val).retry.map fun r => { r with resends := 0 } } = u
  have hlink : (u.link link.val).retry = (s.link link.val).retry.map fun r => { r with resends := 0 } := by rw [← hcleared, State.link_setLink_self]
  have hup : u.linkUp link.val = u.setLinkState link.val 5 := State.linkUp_of_enabled (by rw [← hcleared]; exact hon)
  have hstate := State.linkState_setLinkState u link.val (st := 5) (by decide)
  simp only [recoveryDoneEffect, hrecovery, ne_eq, not_true_eq_false, if_false, hcleared, hup]
  cases hretry : (s.link link.val).retry with
  | nil =>
    rw [hretry] at hlink
    exact ⟨hstate, hlink⟩
  | cons r rs =>
    rw [hretry] at hlink
    have hresend := State.resend_of_head (s := u.setLinkState link.val 5) hlink
    dsimp only at hresend ⊢
    rw [hresend, State.linkState_setLink, State.link_setLink_self]
    refine ⟨hstate, ?_⟩
    simp

/-- R479: a link that does not recover, with nothing queued and no message begun in its buffer. -/
theorem linkRecoverTimeoutEffect_loses {s : State} {link : Fin 16} {ms : BitVec 16} (hrecovery : s.linkState link.val = 6)
    (hlimit : s.dnat dkLinkRecoverLimit ≤ ms.toNat) (h0 : (s.link link.val).tx0 = []) (h1 : (s.link link.val).tx1 = [])
    (h2 : (s.link link.val).tx2 = []) (h3 : (s.link link.val).tx3 = []) (hlost : lostHeaders (s.link link.val).retry = []) :
    linkRecoverTimeoutEffect link ms s = (s.setLinkState link.val 7).setLink link.val
      { s.link link.val with retry := [], tx0 := [], tx1 := [], tx2 := [], tx3 := [], control := [] } := by
  simp only [linkRecoverTimeoutEffect, hrecovery, Nat.not_lt.mpr hlimit, h0, h1, h2, h3, hlost, ne_eq, not_true_eq_false, or_false, if_false,
    List.append_nil, List.foldl_nil]

/-- Settles O34: the buffer from the flit asked for on (`resend_of_seq`, `resend_of_head`), and what a recovery that ends or lasts too long leaves. -/
theorem flitsAreSentAgain : Obligations.FlitsAreSentAgain := by
  refine ⟨?nak, ?timer, ?recovered, ?lost⟩
  case nak =>
    rintro s link flit q seq ⟨hup, hgood, htype, hhead⟩ hseq
    have hseq' : (((s.afterControl link.val flit).link link.val).retry.any fun r : RetryFlit => r.seq == seq) = true := by
      rw [State.afterControl_link]
      exact hseq
    refine ⟨_, congrArg Host.Outcome.next ((nakEffect_resends hup hgood htype hhead).trans (State.resend_of_seq hseq')), ?_, ?_⟩
    · rw [State.link_setLink_self, State.afterControl_link]
    · rw [State.linkState_setLink, State.afterControl_linkState, hup]
  case timer =>
    rintro s link waited r rs ⟨hup, hretry, hwaited⟩
    have hresends : retryTimerExpiryEffect link waited s = s.resend link.val r.seq := by
      simp only [retryTimerExpiryEffect, hretry, hup, hwaited, and_self, if_true]
    refine ⟨_, congrArg Host.Outcome.next (hresends.trans (State.resend_of_head hretry)), ?_, hup⟩
    rw [State.link_setLink_self]
  case recovered =>
    rintro s link ⟨hrecovery, hon⟩
    exact ⟨_, rfl, recoveryDoneEffect_resends hrecovery hon⟩
  case lost =>
    rintro s link ms x ⟨hrecovery, hlimit⟩ ⟨h0, h1, h2, h3, hlost⟩
    refine ⟨_, congrArg Host.Outcome.next (linkRecoverTimeoutEffect_loses hrecovery hlimit h0 h1 h2 h3 hlost), ?_, ?_, ?_⟩
    · exact State.linkState_setLinkState s link.val (by decide)
    · rw [State.link_setLink_self]
    · rw [State.link_setLink_self]

end Sys2Proof.Machine
end

section
/-!
SUPPORT. The statements about training (spec/10_links_and_windows.md R480 to R484, R508, R509) and about the measurement of a link (R483, R485):
the fields of FAB_STATUS and the dictionary entries that each step sets, and those that it leaves.
-/
namespace Sys2Proof.Machine

/-! ## The state of a link beside its other fields (R480) -/

theorem State.fld_setLinkState {f : Field} (hreg : f.reg = .fabStatus) (hapart : 4 ≤ f.lo) (s : State) (n st : Nat) :
    (s.setLinkState n st).fld f n = s.fld f n := State.fld_setFld_apart s fabStatusState f n 0 st hreg (by decide) (.inr hapart)

theorem State.dget_setLinkState {k n : Nat} (h : k ≠ dkLinkState n) (s : State) (st : Nat) : (s.setLinkState n st).dget k = s.dget k :=
  State.dget_dput_ne _ _ h

/-- The entries of a link's dictionary object differ. -/
theorem link_key_ne {a b : Nat} (h : a ≠ b) (n : Nat) : dictKey (0x5100 + n) a ≠ dictKey (0x5100 + n) b := by
  unfold dictKey
  omega

theorem dkLinkEnable_ne_state (n : Nat) : dkLinkEnable n ≠ dkLinkState n := link_key_ne (by decide) n

theorem State.fld_setFld_of_lt {f : Field} (s : State) (u : Nat) {v : Nat} (hwidth : f.lo + f.width ≤ 64) (hv : v < 2 ^ f.width) :
    (s.setFld f u 0 v).fld f u = v := (State.fld_setFld_self s f u 0 v hwidth).trans (Nat.mod_eq_of_lt hv)

/-! ## Training (R480, R484, R508, R509) -/

section
variable {s : State} {link : Fin 16}

theorem linkEnableEffect_on (hoff : s.linkState link.val = 0) :
    linkEnableEffect link true s = (s.dput (dkLinkEnable link.val) 1).setLinkState link.val 1 := by
  have hoff' : (s.dput (dkLinkEnable link.val) ((b2n true : Nat) : Int)).linkState link.val = 0 := hoff
  simp only [linkEnableEffect, hoff', Bool.true_and, beq_self_eq_true, if_true]
  rfl

theorem linkEnableEffect_off (hup : s.linkState link.val = 5) :
    linkEnableEffect link false s = (s.dput (dkLinkEnable link.val) 0).setLinkState link.val 0 := by
  have hup' : (s.dput (dkLinkEnable link.val) ((b2n false : Nat) : Int)).linkState link.val = 5 := hup
  simp only [linkEnableEffect, hup', Bool.false_and, Bool.not_false, Bool.true_and, beq_self_eq_true, Bool.false_eq_true, if_false, if_true]
  rfl

theorem signalDetectEffect_trains (hdown : s.linkState link.val = 1) :
    signalDetectEffect link s = (s.setLink link.val { s.link link.val with media := s.dnat (dkLinkMedia link.val) }).setLinkState link.val 2 :=
  if_pos hdown

theorem signalLostEffect_downs (h : s.linkState link.val = 7 ∨ s.linkState link.val = 8) : signalLostEffect link s = s.setLinkState link.val 1 :=
  if_pos h

theorem ilClass_lt (loss : Nat) : ilClass loss < 4 := by
  unfold ilClass
  split_ifs <;> decide

/-- The link as EXCHANGE begins: the queued messages and the medium are kept, the buffers of FAB_VC_CREDITS take effect. -/
def State.exchangeLink (s : State) (l : Nat) : Link :=
  { media := (s.link l).media, mediaFactor := (s.link l).mediaFactor, buffers := s.vcBuffers l, wire := (s.link l).wire, tx0 := (s.link l).tx0,
    tx1 := (s.link l).tx1, tx2 := (s.link l).tx2, tx3 := (s.link l).tx3 }

theorem phyTrainDoneEffect_exchanges (htrain : s.linkState link.val = 2) (loss : BitVec 16) :
    phyTrainDoneEffect link loss s = (((s.setLink link.val (s.exchangeLink link.val)).setFld fabStatusIlClass link.val 0 (ilClass loss.toNat)).dput
      (dkIlClass link.val) (ilClass loss.toNat : Nat)).setLinkState link.val 3 := by
  simp only [phyTrainDoneEffect, htrain, ne_eq, not_true_eq_false, if_false]
  rfl

/-- R484: the loss class shows in FAB_STATUS and in the dictionary as EXCHANGE begins. -/
theorem State.ilClass_sets (s : State) (l : Nat) {k : Nat} (hk : k < 4) :
    let t := ((s.setFld fabStatusIlClass l 0 k).dput (dkIlClass l) (k : Nat)).setLinkState l 3
    (t.linkState l = 3 ∧ t.fld fabStatusIlClass l = k ∧ t.dget (dkIlClass l) = (k : Nat)) ∧ t.link l = s.link l := by
  have hkey : dkIlClass l ≠ dkLinkState l := link_key_ne (by decide) l
  refine ⟨⟨State.linkState_setLinkState _ l (by decide), ?_, ?_⟩, rfl⟩
  · rw [State.fld_setLinkState rfl (by decide), State.dput_fld]
    exact State.fld_setFld_of_lt s l (by decide) hk
  · rw [State.dget_setLinkState hkey, State.dget_dput_self]

theorem phyTrainTimeoutEffect_downs {ms : BitVec 16} (h : s.linkState link.val = 2 ∧ 500 ≤ ms.toNat) :
    phyTrainTimeoutEffect link ms s = s.setLinkState link.val 1 := if_pos h

/-! ## The exchange of capabilities (R480 to R482) -/

theorem capabilitySendEffect_queues (hexchange : s.linkState link.val = 3) (hpartner : (s.link link.val).partner = none) :
    capabilitySendEffect link s = s.sendControl link.val (s.capabilityPayload link.val) := by
  simp only [capabilitySendEffect, hexchange, hpartner, decide_true, Option.isNone_none, Bool.and_self, if_true]

/-- A link that has its partner's capabilities. -/
def State.partnerLink (s : State) (l : Nat) (c : Capabilities) : Link :=
  { s.link l with partner := some c, credits := c.credits, mediaFactor := s.dnat (dkMediaFactor l), echoSent := 0, echoes := [] }

/-- A partner of a common version in FAB_STATUS and in the dictionary, with MEASURE begun. -/
def State.showPartner (s : State) (l : Nat) (c : Capabilities) : State :=
  ((((s.setFld fabStatusVersion l 0 1).setFld fabStatusPartnerPkg l 0 c.pkg).setFld fabStatusPartnerLink l 0 c.link).dput (dkPartner l)
    ((c.pkg + c.link * 4096 : Nat) : Int)).setLinkState l 4

theorem capabilityEffect_of_taken {flit : FlitIn} {u : State} {p : List Byte} (hon : s.transmits link.val = true)
    (htaken : s.takeControl link.val flit 2 = (u, some p)) (hexchange : u.linkState link.val = 3) :
    capabilityEffect link flit s = if (parseCapabilities p).versions % 2 = 0 then u.setLinkState link.val 8
      else (u.setLink link.val (u.partnerLink link.val (parseCapabilities p))).showPartner link.val (parseCapabilities p) := by
  simp only [capabilityEffect, State.partnerLink, State.showPartner, hon, htaken, hexchange, Bool.not_true, Bool.false_eq_true, ne_eq, not_true_eq_false, if_false]

theorem capabilityEffect_takes {flit : FlitIn} (hexchange : s.linkState link.val = 3) (hgood : flitGood flit = true)
    (htype : bitsOf (flitHead flit.bits) 0 2 = 2) (hhead : (flitPayload flit.bits).headD 0#8 = 2#8) :
    capabilityEffect link flit s = if (parseCapabilities (flitPayload flit.bits)).versions % 2 = 0
      then (s.afterControl link.val flit).setLinkState link.val 8
      else ((s.afterControl link.val flit).setLink link.val ((s.afterControl link.val flit).partnerLink link.val
        (parseCapabilities (flitPayload flit.bits)))).showPartner link.val (parseCapabilities (flitPayload flit.bits)) :=
  capabilityEffect_of_taken (State.transmits_of_state hexchange (by decide)) (State.takeControl_of_good hgood htype hhead rfl rfl)
    ((s.afterControl_linkState link.val flit link.val).trans hexchange)

end

theorem State.showPartner_sets (s : State) (l : Nat) {c : Capabilities} (hpkg : c.pkg < 4096) (hlink : c.link < 16) :
    ((s.showPartner l c).linkState l = 4 ∧ (s.showPartner l c).fld fabStatusVersion l = 1) ∧
    ((s.showPartner l c).fld fabStatusPartnerPkg l = c.pkg ∧ (s.showPartner l c).fld fabStatusPartnerLink l = c.link) := by
  rw [State.showPartner, State.linkState_setLinkState _ l (by decide), State.fld_setLinkState rfl (by decide), State.fld_setLinkState rfl (by decide),
    State.fld_setLinkState rfl (by decide), State.dput_fld, State.dput_fld, State.dput_fld,
    State.fld_setFld_apart _ fabStatusPartnerLink fabStatusVersion _ _ _ rfl (by decide) (by decide),
    State.fld_setFld_apart _ fabStatusPartnerPkg fabStatusVersion _ _ _ rfl (by decide) (by decide),
    State.fld_setFld_apart _ fabStatusPartnerLink fabStatusPartnerPkg _ _ _ rfl (by decide) (by decide)]
  exact ⟨⟨rfl, State.fld_setFld_of_lt _ l (by decide) (by decide)⟩, State.fld_setFld_of_lt _ l (by decide) hpkg,
    State.fld_setFld_of_lt _ l (by decide) hlink⟩

theorem State.showPartner_reach (s : State) (l : Nat) (c : Capabilities) :
    Reach 0x100000000000000000000000000000000000000004000 s (s.showPartner l c) :=
  (((((Reach.refl _ s).setFld rfl).setFld rfl).setFld rfl).then (State.dput_reach ..) rfl).then (State.setLinkState_reach ..) rfl

/-- Settles O35: each step by the state that it sets (`linkState_setLinkState`) and the fields beside it. -/
theorem linksTrain : Obligations.LinksTrain := by
  refine ⟨?on, ?off, ?detect, ?signalLost, ?trained, ?timeout, ?send, ?taken, ?refused⟩
  case on =>
    rintro s link hoff
    refine ⟨_, congrArg Host.Outcome.next (linkEnableEffect_on hoff), State.linkState_setLinkState _ _ (by decide), ?_⟩
    rw [State.dget_setLinkState (dkLinkEnable_ne_state _), State.dget_dput_self]
  case off =>
    rintro s link hup
    refine ⟨_, congrArg Host.Outcome.next (linkEnableEffect_off hup), State.linkState_setLinkState _ _ (by decide), ?_⟩
    rw [State.dget_setLinkState (dkLinkEnable_ne_state _), State.dget_dput_self]
  case detect =>
    rintro s link hdown
    refine ⟨_, congrArg Host.Outcome.next (signalDetectEffect_trains hdown), State.linkState_setLinkState _ _ (by decide), ?_⟩
    rw [State.link_setLinkState, State.link_setLink_self]
  case signalLost =>
    rintro s link hlost
    exact ⟨_, congrArg Host.Outcome.next (signalLostEffect_downs hlost), State.linkState_setLinkState _ _ (by decide)⟩
  case trained =>
    rintro s link loss htrain
    obtain ⟨hshown, hlink⟩ := (s.setLink link.val (s.exchangeLink link.val)).ilClass_sets link.val (ilClass_lt loss.toNat)
    rw [State.link_setLink_self] at hlink
    refine ⟨_, congrArg Host.Outcome.next (phyTrainDoneEffect_exchanges htrain loss), hshown, ?_⟩
    rw [hlink]
    exact ⟨rfl, rfl, rfl, rfl⟩
  case timeout =>
    rintro s link ms hlate
    exact ⟨_, congrArg Host.Outcome.next (phyTrainTimeoutEffect_downs hlate), State.linkState_setLinkState _ _ (by decide)⟩
  case send =>
    rintro s link ⟨hexchange, hpartner⟩
    refine ⟨_, congrArg Host.Outcome.next (capabilitySendEffect_queues hexchange hpartner), ?_⟩
    show (State.link _ link.val).control = _
    rw [State.sendControl, State.link_setLink_self]
    rfl
  case taken =>
    rintro s link flit p ⟨hexchange, hgood, htype, hhead⟩ hversion
    have htakes := (capabilityEffect_takes hexchange hgood htype hhead).trans (if_neg (by rw [show _ % 2 = 1 from hversion]; decide))
    obtain ⟨hstate, hshown⟩ := State.showPartner_sets ((s.afterControl link.val flit).setLink link.val ((s.afterControl link.val flit).partnerLink link.val p))
      link.val (c := p) (Nat.mod_lt _ (by decide)) (Nat.mod_lt _ (by decide))
    refine ⟨_, congrArg Host.Outcome.next htakes, hstate, hshown, ?_⟩
    rw [(State.showPartner_reach ..).link_eq rfl, State.link_setLink_self]
    exact ⟨rfl, rfl⟩
  case refused =>
    rintro s link flit ⟨hexchange, hgood, htype, hhead⟩ hversion
    have hrefuses := (capabilityEffect_takes hexchange hgood htype hhead).trans (if_pos hversion)
    exact ⟨_, congrArg Host.Outcome.next hrefuses, State.linkState_setLinkState _ _ (by decide)⟩

/-! ## Echoes (R483, R485) -/

section
variable {s : State} {link : Fin 16} {flit : FlitIn}

theorem echoRequestEffect_answers (hon : s.transmits link.val = true) (hgood : flitGood flit = true) (htype : bitsOf (flitHead flit.bits) 0 2 = 2)
    (hhead : (flitPayload flit.bits).headD 0#8 = 3#8) :
    echoRequestEffect link flit s = (s.afterControl link.val flit).sendControl link.val (4#8 :: (flitPayload flit.bits).drop 1) := by
  simp only [echoRequestEffect, hon, State.takeControl_of_good (ctype := 3) hgood htype hhead rfl rfl, Bool.not_true, Bool.false_eq_true, if_false]

theorem echoRequestSendEffect_queues (h : s.linkState link.val = 4 ∧ (s.link link.val).echoSent < 64) :
    echoRequestSendEffect link s = s.setLink link.val { (s.link link.val).addControl [3#8, BitVec.ofNat 8 (s.link link.val).echoSent] with
      echoSent := (s.link link.val).echoSent + 1 } := if_pos h

/-- A link that has taken one more round trip. -/
def State.addEcho (s : State) (l rtt : Nat) : State := s.setLink l { s.link l with echoes := (s.link l).echoes ++ [rtt] }

theorem echoReplyEffect_of_taken {u : State} {p : List Byte} {rtt : BitVec 20} (hon : s.transmits link.val = true)
    (htaken : s.takeControl link.val flit 4 = (u, some p)) (hmeasure : u.linkState link.val = 4)
    (hasked : (u.link link.val).echoes.length < (u.link link.val).echoSent) :
    echoReplyEffect link flit rtt s = if (u.link link.val).echoes.length + 1 < 64 then u.addEcho link.val rtt.toNat
      else (u.addEcho link.val rtt.toNat).measured link.val
        (((u.link link.val).echoes ++ [rtt.toNat]).foldl min (((u.link link.val).echoes ++ [rtt.toNat]).headD 0)) := by
  simp only [echoReplyEffect, State.addEcho, hon, htaken, hmeasure, Nat.not_le.mpr hasked, List.length_append, List.length_singleton, Bool.not_true,
    Bool.false_eq_true, ne_eq, not_true_eq_false, or_self, if_false]

theorem echoReplyEffect_takes (hmeasure : s.linkState link.val = 4) (hgood : flitGood flit = true) (htype : bitsOf (flitHead flit.bits) 0 2 = 2)
    (hhead : (flitPayload flit.bits).headD 0#8 = 4#8) (hasked : (s.link link.val).echoes.length < (s.link link.val).echoSent) (rtt : BitVec 20) :
    echoReplyEffect link flit rtt s =
      if (s.link link.val).echoes.length + 1 < 64 then (s.afterControl link.val flit).addEcho link.val rtt.toNat
      else ((s.afterControl link.val flit).addEcho link.val rtt.toNat).measured link.val
        (((s.link link.val).echoes ++ [rtt.toNat]).foldl min (((s.link link.val).echoes ++ [rtt.toNat]).headD 0)) := by
  obtain ⟨-, hechoes, hsent, -, -⟩ := (s.link link.val).takeReturns_control (flitHead flit.bits)
  have htakes := echoReplyEffect_of_taken (rtt := rtt) (State.transmits_of_state hmeasure (by decide))
    (State.takeControl_of_good (ctype := 4) hgood htype hhead rfl rfl) ((s.afterControl_linkState link.val flit link.val).trans hmeasure)
    (by rwa [State.afterControl_link, hechoes, hsent])
  rwa [State.afterControl_link, hechoes] at htakes

end

/-- The least of some numbers with one more, from either end. -/
theorem foldl_min_headD (es : List Nat) (a : Nat) : (es ++ [a]).foldl min ((es ++ [a]).headD 0) = es.foldl min a := by
  have hswap : ∀ (l : List Nat) (x y : Nat), l.foldl min (min x y) = min (l.foldl min x) y := by
    intro l
    induction l with
    | nil => exact fun _ _ => rfl
    | cons b l ih => exact fun x y => by rw [List.foldl_cons, Nat.min_right_comm, ih, List.foldl_cons]
  cases es with
  | nil => exact Nat.min_self a
  | cons b es =>
    rw [List.foldl_append, List.foldl_cons, List.foldl_nil, List.cons_append, List.headD_cons, List.foldl_cons, List.foldl_cons, Nat.min_self,
      Nat.min_comm a b, hswap]

theorem foldl_min_le (es : List Nat) (a : Nat) : es.foldl min a ≤ a := by
  induction es generalizing a with
  | nil => exact Nat.le_refl a
  | cons b es ih => exact (ih _).trans (Nat.min_le_left a b)

/-- The delays of a link in their registers. -/
def State.showDelays (s : State) (l rtt oneWay suspect : Nat) : State :=
  ((s.setFld fabDelayRtt l 0 rtt).setFld fabDelayOneWay l 0 oneWay).setFld fabStatusDelaySuspect l 0 suspect

theorem State.showDelays_sets (s : State) (l : Nat) {rtt oneWay : Nat} (hrtt : rtt < 2 ^ 20) (hdelay : oneWay < 2 ^ 20) (suspect : Nat) :
    (s.showDelays l rtt oneWay suspect).fld fabDelayRtt l = rtt ∧ (s.showDelays l rtt oneWay suspect).fld fabDelayOneWay l = oneWay := by
  rw [State.showDelays, State.fld_setFld_ne _ _ fabDelayRtt _ _ _ _ _ (by decide), State.fld_setFld_ne _ _ fabDelayOneWay _ _ _ _ _ (by decide),
    State.fld_setFld_apart _ fabDelayOneWay fabDelayRtt _ _ _ rfl (by decide) (by decide)]
  exact ⟨State.fld_setFld_of_lt s l (by decide) hrtt, State.fld_setFld_of_lt _ l (by decide) hdelay⟩

/-- The delay and the length of a link in the dictionary, and UP. -/
def State.showLength (s : State) (l oneWay len : Nat) : State :=
  ((s.dput (dkOneWayDelay l) (oneWay : Nat)).dput (dkCableLength l) (len : Nat)).setLinkState l 5

theorem State.showLength_sets (s : State) (l oneWay len : Nat) : (s.showLength l oneWay len).linkState l = 5 ∧
    (s.showLength l oneWay len).fld fabDelayRtt l = s.fld fabDelayRtt l ∧ (s.showLength l oneWay len).fld fabDelayOneWay l = s.fld fabDelayOneWay l ∧
    (s.showLength l oneWay len).dget (dkOneWayDelay l) = (oneWay : Nat) ∧ (s.showLength l oneWay len).dget (dkCableLength l) = (len : Nat) := by
  have hapart : dkOneWayDelay l ≠ dkCableLength l := link_key_ne (by decide) l
  have hdelayState : dkOneWayDelay l ≠ dkLinkState l := link_key_ne (by decide) l
  have hlengthState : dkCableLength l ≠ dkLinkState l := link_key_ne (by decide) l
  have hup := State.setLinkState_reach ((s.dput (dkOneWayDelay l) (oneWay : Nat)).dput (dkCableLength l) (len : Nat)) l 5
  rw [State.showLength, State.linkState_setLinkState _ l (by decide), hup.fld_eq fabDelayRtt rfl, hup.fld_eq fabDelayOneWay rfl,
    State.dget_setLinkState hdelayState, State.dget_setLinkState hlengthState, State.dget_dput_ne _ _ hapart, State.dget_dput_self,
    State.dget_dput_self]
  exact ⟨rfl, rfl, rfl, rfl, rfl⟩

/-- R483, R485: the measurement of an enabled link. -/
theorem State.measured_of_partner {s : State} {l rtt : Nat} {p : Capabilities} (hpartner : (s.link l).partner = some p)
    (hon : s.dget (dkLinkEnable l) ≠ 0) :
    s.measured l rtt = (s.showDelays l rtt (625 + (cableDelay2 rtt p).toNat / 2 + p.rxLatency) (b2n (decide (cableDelay2 rtt p < 0)))).showLength l
      (625 + (cableDelay2 rtt p).toNat / 2 + p.rxLatency) (min ((cableDelay2 rtt p).toNat * 256 / (10 * (s.link l).mediaFactor)) 65535) := by
  have hlength : dkLinkEnable l ≠ dkCableLength l := link_key_ne (by decide) l
  have hdelay : dkLinkEnable l ≠ dkOneWayDelay l := link_key_ne (by decide) l
  simp only [State.measured, hpartner, State.showDelays, State.showLength]
  refine State.linkUp_of_enabled ?_
  rwa [State.dget_dput_ne _ _ hlength, State.dget_dput_ne _ _ hdelay, State.setFld_dget, State.setFld_dget, State.setFld_dget]

/-- Settles O36: a whole control flit taken (`takeControl_of_good`), and what the 64th round trip sets (`measured_sets`). -/
theorem echoesMeasureTheLink : Obligations.EchoesMeasureTheLink := by
  refine ⟨?request, ?send, ?reply, ?last⟩
  case request =>
    rintro s link flit ⟨hon, hgood, htype, hhead⟩
    refine ⟨_, congrArg Host.Outcome.next (echoRequestEffect_answers hon hgood htype hhead), ?_⟩
    show (State.link _ link.val).control = _
    rw [State.sendControl, State.link_setLink_self, State.afterControl_link]
    exact congrArg (· ++ _) ((s.link link.val).takeReturns_control (flitHead flit.bits)).1
  case send =>
    rintro s link hmeasure
    refine ⟨_, congrArg Host.Outcome.next (echoRequestSendEffect_queues hmeasure), ?_⟩
    show (State.link _ link.val).control = _ ∧ (State.link _ link.val).echoSent = _
    rw [State.link_setLink_self]
    exact ⟨rfl, rfl⟩
  case reply =>
    rintro s link flit rtt x ⟨hmeasure, hgood, htype, hhead⟩ ⟨hasked, hfew⟩
    have htakes := (echoReplyEffect_takes hmeasure hgood htype hhead hasked rtt).trans (if_pos (Nat.succ_lt_succ hfew))
    obtain ⟨-, hechoes, -⟩ := (s.link link.val).takeReturns_control (flitHead flit.bits)
    refine ⟨_, congrArg Host.Outcome.next htakes, ?_, ?_⟩
    · rw [State.addEcho, State.link_setLink_self, State.afterControl_link, hechoes]
    · rw [State.addEcho, State.linkState_setLink, State.afterControl_linkState, hmeasure]
  case last =>
    rintro s link flit rtt p x best d oneWay ⟨hmeasure, hgood, htype, hhead⟩ ⟨hasked, hall, hpartner, hon⟩ hdelay
    have htakes := (echoReplyEffect_takes hmeasure hgood htype hhead hasked rtt).trans (if_neg (by rw [hall]; decide))
    rw [foldl_min_headD] at htakes
    obtain ⟨-, -, -, hsame, hfactor⟩ := (s.link link.val).takeReturns_control (flitHead flit.bits)
    have hlink : (((s.afterControl link.val flit).addEcho link.val rtt.toNat).link link.val).partner = some p ∧
        (((s.afterControl link.val flit).addEcho link.val rtt.toNat).link link.val).mediaFactor = x.mediaFactor := by
      rw [State.addEcho, State.link_setLink_self, State.afterControl_link]
      exact ⟨hsame.trans hpartner, hfactor⟩
    obtain ⟨hup, hrtt, honeWay, hshown⟩ := State.showLength_sets (((s.afterControl link.val flit).addEcho link.val rtt.toNat).showDelays link.val best
      oneWay (b2n (decide (cableDelay2 best p < 0)))) link.val oneWay (min (d * 256 / (10 * x.mediaFactor)) 65535)
    obtain ⟨hrtt', honeWay'⟩ := State.showDelays_sets ((s.afterControl link.val flit).addEcho link.val rtt.toNat) link.val
      ((foldl_min_le x.echoes rtt.toNat).trans_lt rtt.isLt) hdelay (b2n (decide (cableDelay2 best p < 0)))
    rw [State.measured_of_partner hlink.1 hon, hlink.2] at htakes
    exact ⟨_, congrArg Host.Outcome.next htakes, ⟨hup, hrtt.trans hrtt', honeWay.trans honeWay'⟩, hshown⟩

end Sys2Proof.Machine
end

section
/-!
SUPPORT. Writes of whole sectors that are stored at once (spec/08_hbm_and_protection.md R377, R385, spec/13_daymarks_and_recovery.md R642): requests
queued for a sector touch that sector alone, and neither they nor a store take away that a later write is stored at once.
-/
namespace Sys2Proof.Machine

/-! ## What decides whether a write is stored at once (R405, R642) -/

/-- No page has become protected, and no message's write has begun to wait. -/
structure WaitsKept (s t : State) : Prop where
  prot : ∀ n, (t.frame n).prot = true → (s.frame n).prot = true
  held : ∀ num : Nat, (s.heldWrites.any fun w => w.by_.msg == some num) = false → (t.heldWrites.any fun w => w.by_.msg == some num) = false

namespace WaitsKept
variable {r s t : State}

theorem refl (s : State) : WaitsKept s s := ⟨fun _ => id, fun _ => id⟩

theorem trans (h : WaitsKept r s) (k : WaitsKept s t) : WaitsKept r t :=
  ⟨fun n hn => h.prot n (k.prot n hn), fun num hnum => k.held num (h.held num hnum)⟩

theorem ite {c : Prop} {_ : Decidable c} (h : WaitsKept r s) (k : WaitsKept r t) : WaitsKept r (if c then s else t) := by
  split
  · exact h
  · exact k

theorem reach {F : Nat} (h : WaitsKept r s) (k : Reach F s t) (hpool : F.testBit 12 = false) (hheld : F.testBit 19 = false) : WaitsKept r t :=
  h.trans ⟨fun n hn => by rwa [k.frame_eq hpool] at hn, fun num hnum => by rwa [k.same .heldWrites hheld]⟩

theorem of_same (h : WaitsKept r s) (hframes : t.pool.frames = s.pool.frames) (hheld : t.heldWrites = s.heldWrites) : WaitsKept r t :=
  h.trans ⟨fun n hn => by rwa [State.frame, hframes] at hn, fun num hnum => by rwa [hheld]⟩

theorem bump (h : WaitsKept r s) (q : Reg) (u i n : Nat) : WaitsKept r (s.bump q u i n) := h.of_same rfl rfl

theorem setFrame (h : WaitsKept r s) (n : Nat) {f : FrameRec} (hf : f.prot = true → (s.frame n).prot = true) : WaitsKept r (s.setFrame n f) := by
  refine h.trans ⟨fun k hk => ?_, fun _ => id⟩
  by_cases hkn : k = n
  · rw [hkn, State.frame_setFrame_self] at hk
    rw [hkn]
    exact hf hk
  · rwa [State.frame_setFrame_ne hkn] at hk

theorem freeFrame (h : WaitsKept r s) (n : Nat) : WaitsKept r (s.freeFrame n) :=
  (h.setFrame n (f := {}) fun hnone => (Bool.false_ne_true hnone).elim).reach (State.showUse_reach ..) rfl rfl

theorem cancelMove (h : WaitsKept r s) (m : Move) : WaitsKept r (s.cancelMove m) := by
  unfold State.cancelMove
  extract_lets counted pool dropped f stopped freed
  have hdropped : WaitsKept r dropped := (h.bump ..).of_same rfl rfl
  have hstopped : WaitsKept r stopped := hdropped.setFrame _ id
  have hfreed : WaitsKept r freed := .ite hstopped (hstopped.freeFrame _)
  split
  · exact hfreed.of_same rfl rfl
  · exact hfreed

theorem touchWrite (h : WaitsKept r s) (pa len : Nat) : WaitsKept r (s.touchWrite pa len) := by
  unfold State.touchWrite
  dsimp only
  split
  · exact h
  · refine setFrame ?_ _ id
    split
    · exact h.cancelMove _
    · exact h

theorem touchRead (h : WaitsKept r s) (pa : Nat) : WaitsKept r (s.touchRead pa) := .ite h (h.setFrame _ id)

theorem putMem (h : WaitsKept r s) (pa : Nat) (bs : List Byte) : WaitsKept r (s.putMem pa bs) :=
  .ite h (((h.reach (s.putRaw_reach pa bs) rfl rfl).touchWrite pa bs.length).reach (State.touchTable_reach ..) rfl rfl)

theorem noteSector (h : WaitsKept r s) (ctl pa owner : Nat) (severity : Bool) : WaitsKept r (s.noteSector ctl pa owner severity).1 := by
  have hlogged : ∀ {u : State} (q : Reg) (sev mark : Bool), WaitsKept r u →
      WaitsKept r (((u.bump q ctl 0 1).logUe ctl (pa / 32 * 32) owner sev mark).postUe (pa / 32 * 32)) := fun q _ _ hu =>
    ((hu.bump q ctl 0 1).reach (State.logUe_reach ..) rfl rfl).of_same rfl rfl
  unfold State.noteSector
  dsimp only
  split
  · exact hlogged _ _ _ (h.of_same rfl rfl)
  split
  · exact h
  · exact h.bump ..
  · exact hlogged _ _ _ h
  · exact hlogged _ _ _ h

theorem serveHbm (h : WaitsKept r s) (ctl : Nat) (q : HbmReq) (severity : Bool) : WaitsKept r (s.serveHbm ctl q severity) := by
  have hwrite : WaitsKept r ((if q.mask = BitVec.allOnes 32 then s else s.bump .hbmcPartialWrCnt ctl 0 1).countSector ctl) :=
    .bump (.ite h (h.bump ..)) ..
  have hread : WaitsKept r (s.readSector ctl (q.addr / 32 * 32) q.owner severity).1 := (h.bump _ _ _ 1).noteSector ..
  unfold State.serveHbm
  dsimp only
  split
  · exact ((h.reach (State.putRaw_reach ..) rfl rfl).bump ..).bump ..
  split
  · refine .ite (hwrite.trans ⟨fun _ => id, fun num hnum => ?_⟩) (hwrite.putMem ..)
    rw [List.any_append, hnum]
    rfl
  split
  · exact ((hread.reach (State.queueWriteback_reach ..) rfl rfl).touchRead _).of_same rfl rfl
  · exact (hread.touchRead _).of_same rfl rfl

theorem flushSectors (h : WaitsKept r s) (pa n : Nat) : WaitsKept r (s.flushSectors pa n) := by
  refine List.foldlRecOn (motive := WaitsKept r) _ _ h fun u hu p _ => .ite hu ?_
  exact List.foldlRecOn (motive := WaitsKept r) _ _ (hu.of_same rfl rfl) fun v hv q _ => hv.serveHbm ..

end WaitsKept

/-- What the requests and stores of sectors leave of the places of addresses and of what holds up a write. -/
structure StoresKept (s t : State) : Prop where
  phys : ∀ pa, t.phys pa = s.phys pa
  harbour : t.harbour = s.harbour
  hostOn : t.hostOn = s.hostOn
  outGroups : t.hbm.outGroups = s.hbm.outGroups
  waits : WaitsKept s t

theorem State.phys_congr {s t : State} (hharbour : t.harbour = s.harbour) (horder : t.order = s.order)
    (hshelf : t.dget dkPoolShelfFrames = s.dget dkPoolShelfFrames) (pa : Nat) : t.phys pa = s.phys pa := by
  have hframes : t.dnat dkPoolShelfFrames = s.dnat dkPoolShelfFrames := congrArg Int.toNat hshelf
  simp only [State.phys, hharbour, horder, hframes]

namespace StoresKept
variable {r s t : State}

theorem trans (h : StoresKept r s) (k : StoresKept s t) : StoresKept r t :=
  ⟨fun pa => (k.phys pa).trans (h.phys pa), k.harbour.trans h.harbour, k.hostOn.trans h.hostOn, k.outGroups.trans h.outGroups, h.waits.trans k.waits⟩

/-- An operation that keeps to a footprint without the registers that place an address, the dictionary's upper entries apart. -/
theorem of_access {F : Nat} (h : Reach F s t) (hmode : F.testBit (64 + Reg.pwrStatus.ctorIdx) = false) (horder : F.testBit 17 = false)
    (hhost : F.testBit (64 + Reg.keepHostwin.ctorIdx) = false) (hkept : AccessKept s t) (harb : ArbitersKept s t) (hwaits : WaitsKept s t) :
    StoresKept s t := by
  have hharbour : t.harbour = s.harbour := congrArg (· == 2) (h.fld_eq pwrStatusMode hmode 0 0)
  refine ⟨State.phys_congr hharbour (h.same .order horder) (hkept.dget _ (by decide)), hharbour, ?_, harb.outGroups, hwaits⟩
  exact congrArg (· == 1) (h.fld_eq keepHostwinEn hhost 0 0)

/-- An operation that changes neither memory's places, nor the pool, nor the queues of HBM. -/
theorem of_reach {F : Nat} (h : Reach F s t) (hout : ∀ c ∈ ([.order, .dict, .hbm, .pool, .heldWrites, .reg .pwrStatus, .reg .keepHostwin] : List Cell),
    F.testBit c.code = false) : StoresKept s t :=
  of_access h (hout (.reg .pwrStatus) (by decide)) (hout .order (by decide)) (hout (.reg .keepHostwin) (by decide))
    ((AccessKept.refl s).reach h (hout .pool (by decide)) (hout .dict (by decide))) ((ArbitersKept.refl s).reach h (hout .hbm (by decide)))
    ((WaitsKept.refl s).reach h (hout .pool (by decide)) (hout .heldWrites (by decide)))

theorem putMem (s : State) (pa : Nat) (bs : List Byte) : StoresKept s (s.putMem pa bs) :=
  of_access (s.putMem_reach pa bs) rfl rfl rfl ((AccessKept.refl s).putMem pa bs) ((ArbitersKept.refl s).putMem pa bs)
    ((WaitsKept.refl s).putMem pa bs)

theorem flushSectors (s : State) (pa n : Nat) : StoresKept s (s.flushSectors pa n) :=
  of_access (s.flushSectors_reach pa n) rfl rfl rfl ((AccessKept.refl s).flushSectors pa n) ((ArbitersKept.refl s).flushSectors pa n)
    ((WaitsKept.refl s).flushSectors pa n)

theorem isHbm (h : StoresKept s t) (pa : Nat) : t.isHbm pa = s.isHbm pa := by rw [State.isHbm, h.phys, State.isHbm]

theorem groupHeld (h : StoresKept s t) (pa n : Nat) : t.groupHeld pa n = s.groupHeld pa n := by
  simp only [State.groupHeld, State.groupOut, h.outGroups, h.isHbm, h.harbour]

theorem not_prot (h : StoresKept s t) {n : Nat} (hs : (s.frame n).prot = false) : (t.frame n).prot = false :=
  Bool.eq_false_iff.mpr fun ht => by rw [h.waits.prot n ht] at hs; cases hs

theorem takesNow (h : StoresKept s t) {pa n : Nat} (hs : s.takesNow pa n = true) : t.takesNow pa n = true := by
  have hhole : t.isHole pa = s.isHole pa := by rw [State.isHole, h.phys, State.isHole]
  have hhost : t.hostFails pa = s.hostFails pa := by rw [State.hostFails, h.phys, h.hostOn, State.hostFails]
  simp only [State.takesNow, Bool.and_eq_true, Bool.not_eq_true'] at hs ⊢
  obtain ⟨⟨⟨hs1, hs2⟩, hs3⟩, hs4⟩ := hs
  exact ⟨⟨⟨hhole.trans hs1, hhost.trans hs2⟩, h.not_prot hs3⟩, (h.groupHeld pa n).trans hs4⟩

end StoresKept

/-! ## One sector written (R377, R385) -/

/-- Every byte and check symbol outside a sector is as before. -/
structure SectorAlone (s t : State) (pa : Nat) : Prop where
  rdByte : ∀ a, a < pa ∨ pa + 32 ≤ a → t.rdByte a = s.rdByte a
  deltaAt : ∀ a, a / 32 ≠ pa / 32 → t.deltaAt a = s.deltaAt a

namespace SectorAlone
variable {r s t : State} {pa : Nat}

theorem refl (s : State) (pa : Nat) : SectorAlone s s pa := ⟨fun _ _ => rfl, fun _ _ => rfl⟩

theorem trans (h : SectorAlone r s pa) (k : SectorAlone s t pa) : SectorAlone r t pa :=
  ⟨fun a ha => (k.rdByte a ha).trans (h.rdByte a ha), fun a ha => (k.deltaAt a ha).trans (h.deltaAt a ha)⟩

theorem of_reach {F : Nat} (h : Reach F s t) (hmem : F.testBit 0 = false) (hdelta : F.testBit 3 = false) (pa : Nat) : SectorAlone s t pa :=
  ⟨fun a _ => congrArg (lookupD 0#8 a) (h.same .mem hmem), fun a _ => congrArg (lookupD 0#16 (a / 32)) (h.same .hbmDelta hdelta)⟩

theorem of_stored {bs : List Byte} (h : SectorStored s t pa bs) : SectorAlone s t pa := ⟨h.rdByte, h.deltaAt⟩

theorem memBytes (h : SectorAlone s t pa) (hpa : pa % 32 = 0) {a n : Nat} (hout : a / 32 * 32 + 32 * ((a % 32 + n + 31) / 32) ≤ pa ∨ pa + 32 ≤ a / 32 * 32) :
    t.memBytes a n = s.memBytes a n := by
  refine List.map_congr_left fun i hi => ?_
  have := List.mem_range.mp hi
  exact State.memByte_congr (h.deltaAt _ (by omega)) fun b hb => h.rdByte b (by omega)

theorem countSector (h : SectorAlone r s pa) (ctl : Nat) : SectorAlone r (s.countSector ctl) pa :=
  h.trans (.of_reach (s.countSector_reach ctl) rfl rfl pa)

/-- What leaves memory and its check symbols as they are. -/
theorem of_same (h : SectorAlone r s pa) (hmem : t.mem = s.mem) (hdelta : t.hbmDelta = s.hbmDelta) : SectorAlone r t pa :=
  h.trans ⟨fun a _ => congrArg (lookupD 0#8 a) hmem, fun a _ => congrArg (lookupD 0#16 (a / 32)) hdelta⟩

/-- R377, R642: a write stored in a sector, or held. -/
theorem store (h : SectorAlone r s pa) (hpa : pa % 32 = 0) {bs : List Byte} (hbs : bs.length = 32) (held : List HeldWrite) {c : Prop}
    {_ : Decidable c} : SectorAlone r (if c then { s with heldWrites := held } else s.putMem pa bs) pa := by
  split
  · exact h.of_same rfl rfl
  · exact h.trans (.of_stored (State.putMem_sector (by omega) hbs))

/-- R377, R379, R381: a request for a sector that is no write-back. -/
theorem serveHbm (s : State) {q : HbmReq} (hwb : q.wb = false) (hpa : q.addr / 32 * 32 = pa) (ctl : Nat) (severity : Bool) :
    SectorAlone s (s.serveHbm ctl q severity) pa := by
  unfold State.serveHbm
  simp only [hwb, hpa, Bool.false_eq_true, if_false]
  split
  · have hpartial : SectorAlone s (if q.mask = BitVec.allOnes 32 then s else s.bump .hbmcPartialWrCnt ctl 0 1) pa := by
      split
      · exact .refl s pa
      · exact .of_same (.refl s pa) rfl rfl
    exact (hpartial.countSector ctl).store (by omega) (length_maskedBytes ..) _
  · have hread : SectorAlone s (s.readSector ctl pa q.owner severity).1 pa := .of_reach (s.readSector_reach ctl pa q.owner severity).fst rfl rfl pa
    split
    · exact ((hread.trans (.of_reach (State.queueWriteback_reach ..) rfl rfl pa)).trans (.of_reach (State.touchRead_reach ..) rfl rfl pa)).of_same
        rfl rfl
    · exact (hread.trans (.of_reach (State.touchRead_reach ..) rfl rfl pa)).of_same rfl rfl

/-- R385: the requests queued for a sector that are served before it is written. -/
theorem flushSectors (s : State) (hpa : pa % 32 = 0) : SectorAlone s (s.flushSectors pa 32) pa := by
  unfold State.flushSectors
  extract_lets hit
  refine List.foldlRecOn (motive := fun u => SectorAlone s u pa) _ _ (.refl s pa) fun u hu p _ => ?_
  dsimp only
  split
  · exact hu
  · refine List.foldlRecOn (motive := fun v => SectorAlone s v pa) _ _ (hu.of_same rfl rfl) fun v hv q hq => ?_
    have hhit : hit q = true := (List.mem_filter.mp hq).2
    simp only [hit, Bool.and_eq_true, Bool.not_eq_true', decide_eq_true_eq] at hhit
    obtain ⟨⟨hwb, hlow⟩, hhigh⟩ := hhit
    exact hv.trans (.serveHbm v hwb (by omega) _ _)

end SectorAlone

/-- A write of a whole sector that is stored at once is a store after what concerns that sector alone. -/
theorem State.devWrite_of_takes {s : State} {pa : Nat} {bs : List Byte} (hpa : pa % 32 = 0) (hbs : bs.length = 32) (h : s.takesNow pa 32 = true)
    (a : Access) : ∃ u, s.devWrite a pa bs = u.putMem pa bs ∧ SectorAlone s u pa ∧ StoresKept s u := by
  have hflushed := StoresKept.flushSectors s pa 32
  have hlater := hflushed.takesNow h
  simp only [State.takesNow, Bool.and_eq_true, Bool.not_eq_true'] at h hlater
  obtain ⟨⟨⟨hhole, hhost⟩, hprot⟩, -⟩ := h
  obtain ⟨⟨-, hprot'⟩, hgroup'⟩ := hlater
  simp only [State.devWrite, hhole, hhost, hprot, hprot', hgroup', hbs, Bool.or_self, Bool.false_eq_true, if_false]
  split
  · have hcounted : Reach 0x10000000000000000000000000000000000000000000000000000000000000000000 (s.flushSectors pa 32)
        ((List.range ((pa + 32 + 31) / 32 - pa / 32)).foldl
          (fun (s : State) k => s.countSector (hbmPlace s.harbour ((pa / 32 + k) * 32)).1) (s.flushSectors pa 32)) :=
      .foldl _ (.refl ..) fun u k hu => hu.then (u.countSector_reach _) rfl
    exact ⟨_, rfl, (SectorAlone.flushSectors s hpa).trans (.of_reach hcounted rfl rfl pa), hflushed.trans (.of_reach hcounted (by decide))⟩
  · have hslots := s.useSlots_reach a pa 32
    exact ⟨_, rfl, .of_reach hslots rfl rfl pa, .of_reach hslots (by decide)⟩

/-- R377: a write of a whole sector that is stored at once. -/
theorem State.devWrite_sector {s : State} {pa : Nat} {bs : List Byte} (hpa : pa % 32 = 0) (hbs : bs.length = 32) (h : s.takesNow pa 32 = true)
    (a : Access) : (s.devWrite a pa bs).memBytes pa 32 = bs ∧ SectorAlone s (s.devWrite a pa bs) pa ∧ StoresKept s (s.devWrite a pa bs) := by
  obtain ⟨u, heq, halone, hkept⟩ := State.devWrite_of_takes hpa hbs h a
  have hstored := State.putMem_sector (s := u) (pa := pa) (bs := bs) (by omega) hbs
  rw [heq]
  exact ⟨hstored.bytes, halone.trans (.of_stored hstored), hkept.trans (.putMem ..)⟩

end Sys2Proof.Machine
end

section
/-!
SUPPORT. The statement about windows that open, close and report, and about messages that pass on (spec/10_links_and_windows.md R494, R501 to
R504, spec/11_collectives_and_mapping.md R516 to R519, spec/12_beam_and_launching.md R603, R611).
-/
namespace Sys2Proof.Machine

/-! ## Messages sent (R516 to R519) -/

/-- The fabric apart from what sending a message changes: the links' queues, the held messages and the inbox. -/
def Fabric.windows (f : Fabric) : Fabric := { f with links := [], held := [], inbox := [] }

/-- A message that answers no GET_REQ changes queues alone. -/
theorem State.sendMsg_windows (fuel : Nat) (s : State) (die : Nat) (h : Words4) (lines : List LineSeg) (forwarded : Bool) :
    (s.sendMsg fuel die h lines none forwarded).fabric.windows = s.fabric.windows := by
  induction fuel generalizing die h forwarded with
  | zero => rfl
  | succ fuel ih =>
    unfold State.sendMsg
    dsimp only
    split
    · split <;> rfl
    split
    · split <;> rfl
    split
    · split
      · rfl
      · exact ih ..
    · rfl

theorem State.post_windows (s : State) (die : Nat) (h : Words4) (lines : List LineSeg) :
    (s.post die h lines).fabric.windows = s.fabric.windows := State.sendMsg_windows ..

theorem State.refuse_windows (s : State) (h : Words4) (cause : Nat) : (s.refuse h cause).fabric.windows = s.fabric.windows :=
  State.post_windows ..

/-- R516, R517: a message for another package, not past the hop limit, goes out on the lowest UP link of the die's route. -/
theorem State.sendMsg_of_route {s : State} {die k : Nat} {h : Words4} {forwarded : Bool} (hother : dstPkg h ≠ s.ownPkg)
    (hroute : s.routeLink die (dstPkg h) = some k) (hhops : forwarded = true → hdrHops h + 1 ≤ s.dnat dkRouteHopLimit) (fuel : Nat)
    (lines : List LineSeg) (answers : Option Nat) :
    s.sendMsg (fuel + 1) die h lines answers forwarded =
      s.enqueue k { header := some (setVia (if forwarded then setHops h (hdrHops h + 1) else h) false), lines := lines, answers := answers } (vcOf h) := by
  have hpast : (forwarded && decide (s.dnat dkRouteHopLimit < hdrHops h + 1)) = false := by
    rw [Bool.and_eq_false_imp]
    exact fun hforwarded => decide_eq_false (Nat.not_lt.mpr (hhops hforwarded))
  simp only [State.sendMsg, if_neg hother, hroute, hpast, Bool.false_eq_true, if_false]

@[simp] theorem Link.tx_setTx (x : Link) (vc : Nat) (q : List TxMsg) : (x.setTx vc q).tx vc = q := by
  unfold Link.setTx
  split <;> simp only [Link.tx]

theorem State.tx_enqueue (s : State) (l : Nat) (m : TxMsg) (vc : Nat) : ((s.enqueue l m vc).link l).tx vc = (s.link l).tx vc ++ [m] := by
  rw [State.link_enqueue, Link.tx_setTx]

/-! ## WINDOW_OPEN and WINDOW_CLOSE (R494, R502, R503) -/

theorem Fabric.ringWaits_of_windows {f g : Fabric} (h : f.windows = g.windows) : f.ringWaits = g.ringWaits := (congrArg Fabric.ringWaits h :)

theorem State.beamNow_wr (s : State) (r : Reg) (u i : Nat) (w : Word) : (s.wr r u i w).beamNow = s.beamNow := by
  rw [State.beamNow, State.wr_beam, State.beamNow]

theorem State.beamNow_setFld (s : State) (f : Field) (u i n : Nat) : (s.setFld f u i n).beamNow = s.beamNow := s.beamNow_wr ..

/-- An entry OPEN at an epoch, with its record begun (R494). -/
def State.openAt (s : State) (d e epoch : Nat) : State :=
  let t := (s.setFld winEntryW0Epoch d e epoch).setFld winEntryW1State d e 1
  t.setEpoch d e { opened := t.beamNow }

theorem State.openAt_sets (s : State) (d e : Nat) {epoch : Nat} (hepoch : epoch < 2 ^ 16) :
    ((s.openAt d e epoch).winState d e = 1 ∧ (s.openAt d e epoch).winEpoch d e = epoch) ∧
    (s.openAt d e epoch).epochRec d e = { opened := s.beamNow } := by
  have hkept : ∀ (t : State) (x : Epoch) (f : Field), (t.setEpoch d e x).fld f d e = t.fld f d e := fun _ _ _ => rfl
  refine ⟨⟨?_, ?_⟩, ?_⟩
  · rw [State.winState, State.openAt, hkept, State.fld_setFld_self _ _ _ _ _ (by decide)]
    rfl
  · rw [State.winEpoch, State.openAt, hkept, State.fld_setFld_ne _ _ _ _ _ _ _ _ (by decide), State.fld_setFld_self _ _ _ _ _ (by decide)]
    exact Nat.mod_eq_of_lt hepoch
  · rw [State.openAt, State.beamNow_setFld, State.beamNow_setFld]
    exact lookupD_putD_self ..

/-- R494: the epoch after the one that an entry has had. -/
def nextEpoch (ep : Nat) : Nat := if ep = 0xFFFF then 1 else ep + 1

/-- The next epoch is again one of 16 bits. -/
theorem State.nextEpoch_lt (s : State) (d e : Nat) : nextEpoch (s.winEpoch d e) < 2 ^ 16 := by
  have hlt : s.winEpoch d e < 2 ^ 16 := Nat.mod_lt _ (by decide)
  unfold nextEpoch
  split
  · decide
  · omega

/-- Whether a message that waits for a slot of a ring is a PUT to an entry (R503). -/
def RingWait.putTo (n : Nat) (w : RingWait) : Bool := hdrWindow w.header == n && mtype w.header == 1

/-- The PUTs that wait for an entry's ring refused: none of them waits (R503). -/
def State.refusePuts (s : State) (n : Nat) : State :=
  let ws := s.fabric.ringWaits
  (ws.filter (RingWait.putTo n)).foldl (fun t w => t.refuse w.header 0)
    { s with fabric := { s.fabric with ringWaits := ws.filter fun w => !w.putTo n } }

theorem State.refuse_ringWaits (s : State) (h : Words4) (cause : Nat) : (s.refuse h cause).fabric.ringWaits = s.fabric.ringWaits :=
  Fabric.ringWaits_of_windows (s.refuse_windows h cause)

theorem State.refusePuts_reach (s : State) (n : Nat) : Reach 0x80001000000000000000000000000000000000000000000800000 s (s.refusePuts n) :=
  .foldl _ ((Reach.refl _ s).set_fabric rfl) fun _ _ ht => ht.then (State.refuse_reach ..) rfl

theorem State.refusePuts_none (s : State) (n : Nat) : ((s.refusePuts n).fabric.ringWaits.any (RingWait.putTo n)) = false := by
  have hwaits : (s.refusePuts n).fabric.ringWaits = s.fabric.ringWaits.filter fun w => !w.putTo n :=
    List.foldlRecOn (motive := fun t : State => t.fabric.ringWaits = s.fabric.ringWaits.filter fun w => !w.putTo n) _ _ rfl
      fun t ht w _ => (t.refuse_ringWaits w.header 0).trans ht
  rw [hwaits, List.any_eq_false]
  intro w hw
  have hnot := (List.mem_filter.mp hw).2
  rwa [Bool.not_eq_true', ← Bool.not_eq_true] at hnot

section
variable {s : State} {die : Fin 2} {value : Word}

theorem windowOpenEffect_opens (hcmd : bitOf value 9 = false) (hgo : bitOf value 63 = true) (hclosed : s.winState die.val (bitsOf value 0 9) = 0) :
    windowOpenEffect die value s =
      (s.storeReg .winCmd die.val 0 value).openAt die.val (bitsOf value 0 9) (nextEpoch (s.winEpoch die.val (bitsOf value 0 9))) := by
  have hstate : (s.storeReg .winCmd die.val 0 value).winState die.val (bitsOf value 0 9) = 0 := (State.fld_wr_ne (by decide) ..).trans hclosed
  have hepoch : (s.storeReg .winCmd die.val 0 value).winEpoch die.val (bitsOf value 0 9) = s.winEpoch die.val (bitsOf value 0 9) :=
    State.fld_wr_ne (by decide) ..
  simp only [windowOpenEffect, hcmd, hgo, hstate, hepoch, Bool.not_true, Bool.false_eq_true, if_false, ne_eq, not_true_eq_false, State.openAt,
    nextEpoch, State.beamNow_setFld]

theorem windowCloseEffect_closes (hcmd : bitOf value 9 = true) (hgo : bitOf value 63 = true) (hopen : s.winState die.val (bitsOf value 0 9) = 1) :
    windowCloseEffect die value s =
      ((s.storeReg .winCmd die.val 0 value).setFld winEntryW1State die.val (bitsOf value 0 9) 2).refusePuts (die.val * 512 + bitsOf value 0 9) := by
  have hstate : (s.storeReg .winCmd die.val 0 value).winState die.val (bitsOf value 0 9) = 1 := (State.fld_wr_ne (by decide) ..).trans hopen
  simp only [windowCloseEffect, hcmd, hgo, hstate, Bool.not_true, Bool.false_eq_true, if_false, ne_eq, not_true_eq_false, State.refusePuts]
  rfl

end

/-! ## WINDOW_CLOSE_RECORD (R503, R603, R611) -/

/-- R603: a token whose record's write has been accepted is set. -/
theorem State.settleSignals_sets {s : State} {l : List (Nat × Nat)} {num token : Nat} (hsignals : s.fabric.signals = l ++ [(num, token)])
    (haccepted : (s.heldWrites.any fun w => w.by_.msg == some num) = false) : s.settleSignals.tokenSet token = true := by
  simp only [State.settleSignals, hsignals, List.filter_append, List.filter_cons, List.filter_nil, haccepted, Bool.not_false, if_true,
    List.foldl_append, List.foldl_cons, List.foldl_nil]
  exact State.tokenSet_putToken_self _ token

theorem length_completionRecord (status source : Nat) (late miss : Bool) (preempts owner index ops commit launch count rev : Nat) :
    ((completionRecord status source late miss preempts owner index ops commit launch count rev).flatMap fun w : Word => bytesOf w.toNat 8).length =
      32 := by
  simp [completionRecord]

theorem Reach.tokenSet_eq {F : Nat} {s t : State} (h : Reach F s t) (htokens : F.testBit (64 + Reg.beamTokens.ctorIdx) = false) (k : Nat) :
    t.tokenSet k = s.tokenSet k := by
  rw [State.tokenSet, h.rd_eq _ htokens, State.tokenSet]

theorem Reach.memBytes_eq {F : Nat} {s t : State} (h : Reach F s t) (hmem : F.testBit 0 = false) (hdelta : F.testBit 3 = false) (a n : Nat) :
    t.memBytes a n = s.memBytes a n :=
  List.map_congr_left fun i _ => State.memByte_congr (congrArg (lookupD 0#16 ((a + i) / 32)) (h.same .hbmDelta hdelta)) fun b _ =>
    congrArg (lookupD 0#8 b) (h.same .mem hmem)

/-- The next number of a message's writes taken. -/
def State.takeNumber (s : State) : State := { s with fabric := { s.fabric with landingNum := s.fabric.landingNum + 1 } }

theorem State.takeNumber_reach (s : State) : Reach 0x800000 s s.takeNumber := (Reach.refl _ s).set_fabric rfl

/-- The token that is set once the writes of a number have been accepted (R603). -/
def State.signalAfter (s : State) (num token : Nat) : State := { s with fabric := { s.fabric with signals := s.fabric.signals ++ [(num, token)] } }

theorem State.signalAfter_reach (s : State) (num token : Nat) : Reach 0x800000 s (s.signalAfter num token) := (Reach.refl _ s).set_fabric rfl

theorem State.writeRecord_eq (s : State) (a : Access) (die va : Nat) (ws : List Word) (token : Option Nat) :
    s.writeRecord a die va ws token = match token with
      | some k => ((s.takeNumber.virtWriteWords { a with msg := some s.fabric.landingNum } die va ws).signalAfter s.fabric.landingNum k).settleSignals
      | none => s.takeNumber.virtWriteWords { a with msg := some s.fabric.landingNum } die va ws := by
  cases token <;> rfl

/-- A record of 32 bytes written to a page that takes it at once: it stands there, and its token is set. -/
theorem State.writeRecord_stored {s : State} {a : Access} {die va pa o : Nat} {r big : Bool} {ws : List Word}
    (hlen : (ws.flatMap fun w : Word => bytesOf w.toNat 8).length = 32) (hpa : pa % 32 = 0)
    (hpage : s.xlat die a.owner va = .page pa r true o big) (hnow : s.takesNow pa 32 = true)
    (hheld : (s.heldWrites.any fun w => w.by_.msg == some s.fabric.landingNum) = false) (token : Option Nat) :
    (s.writeRecord a die va ws token).memBytes pa 32 = (ws.flatMap fun w : Word => bytesOf w.toNat 8) ∧
    ∀ k, token = some k → (s.writeRecord a die va ws token).tokenSet k = true := by
  have hnum := s.takeNumber_reach
  have hpage' := ((hnum.sameVirtual (by decide)).xlat die a.owner va).trans hpage
  have hwrite : ∀ b : Access, b.owner = a.owner → s.takeNumber.virtWriteWords b die va ws =
      s.takeNumber.devWrite b pa (ws.flatMap fun w : Word => bytesOf w.toNat 8) := fun b hb => by
    rw [State.virtWriteWords, State.virtWrite, hb, hpage']
  rw [State.writeRecord_eq]
  simp only [hwrite]
  obtain ⟨hbytes, -, hkept⟩ := State.devWrite_sector hpa hlen ((StoresKept.of_reach hnum (by decide)).takesNow hnow)
    { a with msg := some s.fabric.landingNum }
  have hheld' := hkept.waits.held s.fabric.landingNum hheld
  cases token with
  | none => exact ⟨hbytes, fun k hk => by cases hk⟩
  | some token =>
    refine ⟨?_, fun k hk => ?_⟩
    · rw [(State.settleSignals_reach _).memBytes_eq rfl rfl, (State.signalAfter_reach ..).memBytes_eq rfl rfl, hbytes]
    · rw [← Option.some.inj hk]
      exact State.settleSignals_sets rfl hheld'

/-- The entry CLOSED and its record written (R503, R611). -/
def State.reportClose (s : State) (d e : Nat) : State :=
  (s.setFld winEntryW1State d e 0).writeRecord { unit := .maint d, owner := s.winOwner d e } d (s.fld winEntryW3CloseRec d e * 64)
    (completionRecord (s.epochRec d e).torn 1 false false 0 (s.winOwner d e) e 0 s.beamNow (s.epochRec d e).opened (s.epochRec d e).accepted 0)
    (if s.fld winEntryW3TokenEn d e = 1 then some (s.fld winEntryW3CloseToken d e) else none)

theorem windowCloseRecordEffect_reports {s : State} {die : Fin 2} {entry : BitVec 9} (hclosing : s.winState die.val entry.toNat = 2)
    (hnone : (s.fabric.landings.any fun g => g.die == die.val && g.entry == entry.toNat) = false) :
    windowCloseRecordEffect die entry s = if (s.reportClose die.val entry.toNat).winRing die.val entry.toNat
      then (s.reportClose die.val entry.toNat).headFails ((s.reportClose die.val entry.toNat).winStage die.val entry.toNat) stWindowClosed
      else s.reportClose die.val entry.toNat := by
  have hw3 : ∀ f : Field, f.reg = .winEntryW3 → (s.setFld winEntryW1State die.val entry.toNat 0).fld f die.val entry.toNat =
      s.fld f die.val entry.toNat := fun f hf => State.fld_setFld_ne _ _ _ _ _ _ _ _ (by rw [hf]; decide)
  simp only [windowCloseRecordEffect, hclosing, hnone, decide_true, Bool.not_false, Bool.and_self, if_true, hw3 winEntryW3CloseRec rfl,
    hw3 winEntryW3TokenEn rfl, hw3 winEntryW3CloseToken rfl, State.beamNow_setFld, State.reportClose]
  rfl

/-- The closed entry's record and token (R503, R611). -/
theorem State.reportClose_sets {s : State} {d e pa o : Nat} {r big : Bool} (hpa : pa % 32 = 0)
    (hheld : (s.heldWrites.any fun w => w.by_.msg == some s.fabric.landingNum) = false)
    (hpage : s.xlat d (s.winOwner d e) (s.fld winEntryW3CloseRec d e * 64) = .page pa r true o big) (hnow : s.takesNow pa 32 = true) :
    (s.reportClose d e).winState d e = 0 ∧
    (s.reportClose d e).memBytes pa 32 = (completionRecord (s.epochRec d e).torn 1 false false 0 (s.winOwner d e) e 0 s.beamNow
      (s.epochRec d e).opened (s.epochRec d e).accepted 0).flatMap (fun w : Word => bytesOf w.toNat 8) ∧
    (s.fld winEntryW3TokenEn d e = 1 → (s.reportClose d e).tokenSet (s.fld winEntryW3CloseToken d e) = true) := by
  rw [State.reportClose]
  obtain ⟨u, hu⟩ : ∃ u, u = s.setFld winEntryW1State d e 0 := ⟨_, rfl⟩
  have hclosed : Reach 0x80000000000000000000000000000000000000000000000000 s u := hu ▸ (Reach.refl ..).setFld rfl
  have hstate : u.winState d e = 0 := hu ▸ State.fld_setFld_self s winEntryW1State d e 0 (by decide)
  have hheld' : (u.heldWrites.any fun w => w.by_.msg == some u.fabric.landingNum) = false := by
    rwa [hclosed.same .heldWrites rfl, hclosed.same .fabric rfl]
  rw [← hu]
  obtain ⟨hbytes, htoken⟩ := State.writeRecord_stored (a := { unit := .maint d, owner := s.winOwner d e })
    (length_completionRecord (s.epochRec d e).torn 1 false false 0 (s.winOwner d e) e 0 s.beamNow (s.epochRec d e).opened (s.epochRec d e).accepted 0) hpa
    (((hclosed.sameVirtual (by decide)).xlat ..).trans hpage) ((StoresKept.of_reach hclosed (by decide)).takesNow hnow) hheld'
    (if s.fld winEntryW3TokenEn d e = 1 then some (s.fld winEntryW3CloseToken d e) else none)
  exact ⟨((State.writeRecord_reach ..).fld_eq winEntryW1State rfl d e).trans hstate, hbytes, fun hon => htoken _ (if_pos hon)⟩

/-! ## HELD_MESSAGE_RELEASE (R517) -/

/-- The state in which the held messages are tried again. -/
def State.withoutHeld (s : State) : State := { s with fabric := { s.fabric with held := [] } }

theorem State.withoutHeld_reach (s : State) : Reach 0x800000 s s.withoutHeld := (Reach.refl _ s).set_fabric rfl

theorem heldMessageReleaseEffect_of_one {s : State} {die : Fin 2} {m : HeldMsg} (hheld : s.fabric.held = [m]) (hdie : m.die = die.val) :
    heldMessageReleaseEffect die s = s.withoutHeld.sendMsg 2 die.val m.header m.lines m.answers m.forwarded := by
  simp only [heldMessageReleaseEffect, hheld, List.foldl_cons, List.foldl_nil, hdie, if_true, State.withoutHeld]

theorem heldMessageReleaseEffect_releases {s : State} {die : Fin 2} {m : HeldMsg} {k : Nat} (hheld : s.fabric.held = [m]) (hdie : m.die = die.val)
    (hother : dstPkg m.header ≠ s.ownPkg) (hroute : s.routeLink die.val (dstPkg m.header) = some k) (hforwarded : m.forwarded = false) :
    heldMessageReleaseEffect die s = s.withoutHeld.enqueue k { header := some (setVia m.header false), lines := m.lines, answers := m.answers }
      (vcOf m.header) := by
  have hreach := s.withoutHeld_reach
  have hother' : dstPkg m.header ≠ s.withoutHeld.ownPkg := hother
  have hroute' := (hreach.routeLink_eq rfl rfl die.val (dstPkg m.header)).trans hroute
  rw [heldMessageReleaseEffect_of_one hheld hdie, hforwarded, State.sendMsg_of_route hother' hroute' (fun hf => (Bool.false_ne_true hf).elim),
    if_neg Bool.false_ne_true]

/-- Queueing a message holds none back. -/
theorem State.enqueue_held (s : State) (l : Nat) (m : TxMsg) (vc : Nat) : (s.enqueue l m vc).fabric.held = s.fabric.held := rfl

/-! ## The obligation -/

/-- Settles O39: an entry's state by the field that is written last, its record by the one sector that is stored, and the messages by the
route that takes them. -/
theorem windowsOpenCloseAndMessagesPassOn : Obligations.WindowsOpenCloseAndMessagesPassOn := by
  refine ⟨?opened, ?closed, ?reported, ?forwarded, ?released⟩
  case opened =>
    rintro s die value e ep ⟨hcmd, hgo, hclosed⟩
    exact ⟨_, congrArg Host.Outcome.next (windowOpenEffect_opens hcmd hgo hclosed), State.openAt_sets _ _ _ (s.nextEpoch_lt ..)⟩
  case closed =>
    rintro s die value e ⟨hcmd, hgo, hopen⟩
    refine ⟨_, congrArg Host.Outcome.next (windowCloseEffect_closes hcmd hgo hopen), ?_, State.refusePuts_none ..⟩
    exact ((State.refusePuts_reach ..).fld_eq winEntryW1State rfl _ _).trans (State.fld_setFld_self _ _ _ _ 2 (by decide))
  case reported =>
    rintro s die entry pa r o big e ep owner ⟨hpa, hheld⟩ ⟨hclosing, hnone⟩ hpage hnow
    obtain ⟨hstate, hbytes, htoken⟩ := State.reportClose_sets hpa hheld hpage hnow
    refine ⟨_, congrArg Host.Outcome.next (windowCloseRecordEffect_reports hclosing hnone), ?_⟩
    have hended : Reach 0x200000000000000000000000000000000002000c01200008000000000000005834e0 (s.reportClose die.val e)
        (if (s.reportClose die.val e).winRing die.val e
          then (s.reportClose die.val e).headFails ((s.reportClose die.val e).winStage die.val e) stWindowClosed else s.reportClose die.val e) :=
      .ite (State.headFails_reach ..) (.refl ..)
    exact ⟨(hended.fld_eq winEntryW1State rfl _ _).trans hstate, (hended.memBytes_eq rfl rfl _ _).trans hbytes, fun hon =>
      (hended.tokenSet_eq rfl _).trans (htoken hon)⟩
  case forwarded =>
    rintro s die header lines k h' ⟨hother, hroute, hhops⟩
    refine ⟨_, congrArg Host.Outcome.next (?_ : messageForwardEffect die header lines s = _), State.tx_enqueue ..⟩
    rw [messageForwardEffect, if_neg fun hown => hother hown.1, State.sendMsg_of_route hother hroute fun _ => hhops]
    rfl
  case released =>
    rintro s die m k ⟨hheld, hdie, hother, hroute, hforwarded⟩
    refine ⟨_, congrArg Host.Outcome.next (heldMessageReleaseEffect_releases hheld hdie hother hroute hforwarded), State.tx_enqueue .., State.enqueue_held ..⟩

end Sys2Proof.Machine
end

section
/-!
SUPPORT. What the answer to a GET_REQ reads (spec/10_links_and_windows.md R497, R498): states that agree on memory, on what is queued for it, on
the page pool and on the window table answer the same lines, and go on agreeing (spec/08_hbm_and_protection.md R374 to R385,
spec/05_cluster_memory.md R271, R281, spec/09_capacity_pool.md R415, R426, R431).
-/
namespace Sys2Proof.Machine

/-! ## A move cancelled (R431), in steps -/

/-- A move taken from those under way, its source no longer moving. -/
def State.dropMove (s : State) (m : Move) : State :=
  let t : State := { s with pool := { s.pool with moves := s.pool.moves.filter fun x => !(x.src == m.src) } }
  t.setFrame m.src { t.frame m.src with moving := false }

/-- A move counted as cancelled and dropped, its destination free unless it writes back. -/
def State.moveStopped (s : State) (m : Move) : State :=
  let t := (s.bump .poolMoveCancelCnt (s.frameDie m.src) 0 1).dropMove m
  if m.writeBack then t else t.freeFrame m.dst

theorem State.cancelMove_of_none {m : Move} (h : m.cmdDie = none) (s : State) : s.cancelMove m = s.moveStopped m := by
  rw [State.cancelMove, h]
  rfl

theorem State.cancelMove_of_some {m : Move} {d : Nat} (h : m.cmdDie = some d) (s : State) :
    s.cancelMove m = ((s.moveStopped m).setFld poolMoveStatusBusy d 0 0).setFld poolMoveStatusResult d 0 2 := by
  rw [State.cancelMove, h]
  rfl

/-! ## A request served (R377, R379), in steps -/

/-- A sector called uncorrectable by a severity report (R375, R382). -/
def State.noteSevere (s : State) (ctl base owner : Nat) : State :=
  let s := { s with hbm := { s.hbm with sevBad := setInsert (base / 32) s.hbm.sevBad } }
  (((s.bump .hbmcSevUeCnt ctl 0 1).bump .hbmcUeCnt ctl 0 1).logUe ctl base owner true false).postUe base

/-- What a sector's check symbols show, counted (R378, R379, R381). -/
def State.noteDecoded (s : State) (ctl base owner : Nat) (d : Decoded) : State :=
  match d with
  | .clean => s
  | .corrected _ _ => s.bump .hbmcCeCnt ctl 0 1
  | .mark => ((s.bump .hbmcPoisonMarkCnt ctl 0 1).logUe ctl base owner false true).postUe base
  | .uncorrectable => ((s.bump .hbmcUeCnt ctl 0 1).logUe ctl base owner false false).postUe base

theorem State.noteSector_eq (s : State) (ctl pa owner : Nat) (severity : Bool) : s.noteSector ctl pa owner severity =
    if severity || s.hbm.sevBad.contains (pa / 32 * 32 / 32) then (s.noteSevere ctl (pa / 32 * 32) owner, .uncorrectable)
    else (s.noteDecoded ctl (pa / 32 * 32) owner (decodeDelta (s.deltaAt (pa / 32 * 32))), decodeDelta (s.deltaAt (pa / 32 * 32))) := by
  unfold State.noteSector
  dsimp only
  refine if_congr Iff.rfl rfl ?_
  cases decodeDelta (s.deltaAt (pa / 32 * 32)) <;> rfl

/-- The write-back of a sector read as correctable (R379). -/
def State.queueCorrected (s : State) (q : HbmReq) (out : Decoded) : State :=
  match out with
  | .corrected _ _ => s.queueWriteback (q.addr / 32 * 32) q.owner
  | _ => s

/-- A sector that has been read delivered as it decodes (R379, R381, R449). -/
def State.deliverRead (s : State) (ctl : Nat) (q : HbmReq) (severity : Bool) (out : Decoded) : State :=
  let base := q.addr / 32 * 32
  let bad := match out with
    | .mark => true
    | .uncorrectable => true
    | _ => (s.frame (base / 65536)).quarantined
  let data : BitVec 256 := BitVec.ofNat 256 (natOfBytes (if severity then s.rdBytes base 32 else s.memBytes base 32))
  (s.queueCorrected q out).deliverSector ctl { addr := base, data := data, poison := bad, owner := q.owner }

theorem State.serveHbm_eq (s : State) (ctl : Nat) (q : HbmReq) (severity : Bool) :
    let u := (if q.mask = BitVec.allOnes 32 then s else s.bump .hbmcPartialWrCnt ctl 0 1).countSector ctl
    let p := s.readSector ctl (q.addr / 32 * 32) q.owner severity
    s.serveHbm ctl q severity =
      if q.wb then ((s.putRaw (q.addr / 32 * 32) (bytesOf q.data.toNat 32)).countSector ctl).bump .hbmcWritebackCnt ctl 0 1
      else if q.write then
        (if (u.frame (q.addr / 32 * 32 / 65536)).prot then
          { u with heldWrites := u.heldWrites ++ [{ addr := q.addr / 32 * 32, bytes := maskedBytes q.data q.mask, by_ := { unit := .hbm ctl, owner := q.owner } }] }
        else u.putMem (q.addr / 32 * 32) (maskedBytes q.data q.mask))
      else p.1.deliverRead ctl q severity p.2 := rfl

theorem State.readLines_cons (s : State) (g : Landing) (i : Nat) (is : List Nat) :
    s.readLines g (i :: is) = (((s.readLine g i).1.readLines g is).1, (s.readLine g i).2.1 :: ((s.readLine g i).1.readLines g is).2.1,
      if (s.readLine g i).2.2 = 0 then ((s.readLine g i).1.readLines g is).2.2 else (s.readLine g i).2.2) := rfl

/-! ## States that read alike -/

/-- Two states of which a window's lines read the same. -/
structure ReadsAlike (s t : State) : Prop where
  virt : SameVirtual s t
  poison : t.poison = s.poison
  badCheck : t.badCheck = s.badCheck
  hbm : t.hbm = s.hbm
  pool : t.pool = s.pool
  counter : t.beam.counter = s.beam.counter
  hostOn : t.hostOn = s.hostOn
  entry : ∀ f : Field, f.reg ∈ ([.winEntryW0, .winEntryW1, .winEntryW2] : List Reg) → ∀ u i, t.fld f u i = s.fld f u i

/-- The cells that `ReadsAlike` speaks of. -/
abbrev readCells : List Cell := virtualCells ++ [.poison, .badCheck, .hbm, .pool, .beam, .reg .keepHostwin, .reg .winEntryW0, .reg .winEntryW1,
  .reg .winEntryW2]

/-- What reaches none of these cells leaves a window's lines as they read. -/
theorem Reach.readsAlike {F : Nat} {s t : State} (h : Reach F s t) (hout : ∀ c ∈ readCells, F.testBit c.code = false) : ReadsAlike s t where
  virt := h.sameVirtual fun c hc => hout c (List.mem_append_left _ hc)
  poison := h.same .poison (hout _ (by decide))
  badCheck := h.same .badCheck (hout _ (by decide))
  hbm := h.same .hbm (hout _ (by decide))
  pool := h.same .pool (hout _ (by decide))
  counter := congrArg Beam.counter (h.same .beam (hout _ (by decide)))
  hostOn := congrArg (· == 1) (h.fld_eq keepHostwinEn (hout (.reg .keepHostwin) (by decide)) 0 0)
  entry := fun f hf => h.fld_eq f (hout (.reg f.reg) (by
    simp only [List.mem_cons, List.not_mem_nil, or_false] at hf
    rcases hf with hf | hf | hf <;> rw [hf] <;> decide))

namespace ReadsAlike
variable {r s t s' t' : State}

theorem refl (s : State) : ReadsAlike s s := (Reach.refl 0 s).readsAlike (by decide)

theorem symm (h : ReadsAlike s t) : ReadsAlike t s where
  virt := ⟨h.virt.mem.symm, h.virt.delta.symm, h.virt.order.symm, h.virt.dict.symm, h.virt.fuses.symm, h.virt.harbour.symm,
    fun u i => (h.virt.root u i).symm⟩
  poison := h.poison.symm
  badCheck := h.badCheck.symm
  hbm := h.hbm.symm
  pool := h.pool.symm
  counter := h.counter.symm
  hostOn := h.hostOn.symm
  entry := fun f hf u i => (h.entry f hf u i).symm

theorem trans (h : ReadsAlike r s) (k : ReadsAlike s t) : ReadsAlike r t where
  virt := ⟨k.virt.mem.trans h.virt.mem, k.virt.delta.trans h.virt.delta, k.virt.order.trans h.virt.order, k.virt.dict.trans h.virt.dict,
    k.virt.fuses.trans h.virt.fuses, k.virt.harbour.trans h.virt.harbour, fun u i => (k.virt.root u i).trans (h.virt.root u i)⟩
  poison := k.poison.trans h.poison
  badCheck := k.badCheck.trans h.badCheck
  hbm := k.hbm.trans h.hbm
  pool := k.pool.trans h.pool
  counter := k.counter.trans h.counter
  hostOn := k.hostOn.trans h.hostOn
  entry := fun f hf u i => (k.entry f hf u i).trans (h.entry f hf u i)

/-- What changes none of these cells on either side. -/
theorem reach {F : Nat} (h : ReadsAlike s t) (hs : Reach F s s') (ht : Reach F t t') (hout : ∀ c ∈ readCells, F.testBit c.code = false) :
    ReadsAlike s' t' := ((hs.readsAlike hout).symm.trans h).trans (ht.readsAlike hout)

theorem ite {c : Prop} {_ : Decidable c} (h : ReadsAlike s t) (k : ReadsAlike s' t') :
    ReadsAlike (if c then s else s') (if c then t else t') := by
  split
  · exact h
  · exact k

theorem foldl {β : Type} {f g : State → β → State} (l : List β) (h : ReadsAlike s t)
    (hf : ∀ u v x, ReadsAlike u v → ReadsAlike (f u x) (g v x)) : ReadsAlike (l.foldl f s) (l.foldl g t) := by
  induction l generalizing s t with
  | nil => exact h
  | cons x l ih => exact ih (hf s t x h)

/-! ## What reads the same -/

section
variable (h : ReadsAlike s t)
include h

theorem frame (n : Nat) : t.frame n = s.frame n := by rw [State.frame, h.pool, State.frame]

theorem stampNow : t.stampNow = s.stampNow := by rw [State.stampNow, State.beamNow, h.counter, State.stampNow, State.beamNow]

theorem chan (ctl pc : Nat) : t.chan ctl pc = s.chan ctl pc := by rw [State.chan, h.hbm, State.chan]

theorem deltaAt (a : Nat) : t.deltaAt a = s.deltaAt a := by rw [State.deltaAt, h.virt.delta, State.deltaAt]

theorem deltaBad (k : Nat) : t.deltaBad k = s.deltaBad k := State.deltaBad_congr (h.deltaAt _)

theorem memBytes (a n : Nat) : t.memBytes a n = s.memBytes a n := by simp only [State.memBytes, h.virt.memByte]

theorem rdBytes (a n : Nat) : t.rdBytes a n = s.rdBytes a n := by simp only [State.rdBytes, State.rdByte, h.virt.mem]

theorem isHbm (a : Nat) : t.isHbm a = s.isHbm a := by rw [State.isHbm, h.virt.phys, State.isHbm]

theorem frameDie (n : Nat) : t.frameDie n = s.frameDie n := by simp only [State.frameDie, h.virt.phys, h.frame]

theorem frameTier (n : Nat) : t.frameTier n = s.frameTier n := by simp only [State.frameTier, State.tierOf, h.virt.phys]

theorem poisonAt (a : Nat) : t.poisonAt a = s.poisonAt a := by
  simp only [State.poisonAt, State.sectorBad, h.frame, h.virt.phys, h.hbm, h.deltaBad, h.hostOn, h.poison]

theorem groupHeld (a n : Nat) : t.groupHeld a n = s.groupHeld a n := by
  simp only [State.groupHeld, State.groupOut, h.hbm, h.isHbm, h.virt.harbour]

theorem winPlace (g : Landing) (m : Nat) (write : Bool) : t.winPlace g m write = s.winPlace g m write := by
  simp only [State.winPlace, State.winStage, State.winOwner, State.winBase, h.virt.xlat, h.entry winEntryW0Base (by decide),
    h.entry winEntryW1Owner (by decide), h.entry winEntryW2RingNslotsM1 (by decide), h.entry winEntryW2RingTokenBase (by decide),
    h.entry winEntryW2RingSlotLinesM1 (by decide)]

theorem getHeld (g : Landing) : t.getHeld g = s.getHeld g := by simp only [State.getHeld, h.winPlace, h.groupHeld]

theorem landingAccess (g : Landing) : t.landingAccess g = s.landingAccess g := by
  simp only [State.landingAccess, State.winOwner, h.entry winEntryW1Owner (by decide)]

/-! ## Cells set alike -/

theorem setPool {p q : Pool} (e : q = p) : ReadsAlike { s with pool := p } { t with pool := q } :=
  ⟨⟨h.virt.mem, h.virt.delta, h.virt.order, h.virt.dict, h.virt.fuses, h.virt.harbour, h.virt.root⟩, h.poison, h.badCheck, h.hbm, e, h.counter,
    h.hostOn, h.entry⟩

theorem setHbm {p q : Hbm} (e : q = p) : ReadsAlike { s with hbm := p } { t with hbm := q } :=
  ⟨⟨h.virt.mem, h.virt.delta, h.virt.order, h.virt.dict, h.virt.fuses, h.virt.harbour, h.virt.root⟩, h.poison, h.badCheck, e, h.pool, h.counter,
    h.hostOn, h.entry⟩

theorem setPoison {p q : List Nat} (e : q = p) : ReadsAlike { s with poison := p } { t with poison := q } :=
  ⟨⟨h.virt.mem, h.virt.delta, h.virt.order, h.virt.dict, h.virt.fuses, h.virt.harbour, h.virt.root⟩, e, h.badCheck, h.hbm, h.pool, h.counter,
    h.hostOn, h.entry⟩

theorem setBadCheck {p q : List Nat} (e : q = p) : ReadsAlike { s with badCheck := p } { t with badCheck := q } :=
  ⟨⟨h.virt.mem, h.virt.delta, h.virt.order, h.virt.dict, h.virt.fuses, h.virt.harbour, h.virt.root⟩, h.poison, e, h.hbm, h.pool, h.counter,
    h.hostOn, h.entry⟩

theorem setMem {m m' : List Host.Cell} {d d' : List (Nat × BitVec 16)} (em : m' = m) (ed : d' = d) :
    ReadsAlike { s with mem := m, hbmDelta := d } { t with mem := m', hbmDelta := d' } :=
  ⟨⟨em, ed, h.virt.order, h.virt.dict, h.virt.fuses, h.virt.harbour, h.virt.root⟩, h.poison, h.badCheck, h.hbm, h.pool, h.counter, h.hostOn, h.entry⟩

theorem dput (k : Nat) (v : Int) : ReadsAlike (s.dput k v) (t.dput k v) :=
  ⟨⟨h.virt.mem, h.virt.delta, h.virt.order, congrArg (putD _ k v) h.virt.dict, h.virt.fuses, h.virt.harbour, h.virt.root⟩, h.poison, h.badCheck,
    h.hbm, h.pool, h.counter, h.hostOn, h.entry⟩

theorem wr {a : Reg} (ha : ∀ c ∈ readCells, 64 + a.ctorIdx ≠ c.code) (u i : Nat) (w : Word) (v j : Nat) (x : Word) :
    ReadsAlike (s.wr a u i w) (t.wr a v j x) :=
  h.reach (F := 2 ^ (64 + a.ctorIdx)) ((Reach.refl ..).wr Nat.testBit_two_pow_self) ((Reach.refl ..).wr Nat.testBit_two_pow_self)
    fun c hc => Nat.testBit_two_pow_of_ne (ha c hc)

theorem bump {a : Reg} (ha : ∀ c ∈ readCells, 64 + a.ctorIdx ≠ c.code) (u i n v j m : Nat) : ReadsAlike (s.bump a u i n) (t.bump a v j m) :=
  h.wr ha ..

theorem setFld {f : Field} (hf : ∀ c ∈ readCells, 64 + f.reg.ctorIdx ≠ c.code) (u i n v j m : Nat) :
    ReadsAlike (s.setFld f u i n) (t.setFld f v j m) := h.wr hf ..

/-! ## Frames (R415, R426, R431) -/

theorem setFrame (n : Nat) (f : FrameRec) : ReadsAlike (s.setFrame n f) (t.setFrame n f) :=
  h.setPool (congrArg (fun p : Pool => { p with frames := putD {} n f p.frames }) h.pool)

theorem touchRead (pa : Nat) : ReadsAlike (s.touchRead pa) (t.touchRead pa) := by
  simp only [State.touchRead, h.frame, h.stampNow]
  exact .ite h (h.setFrame ..)

theorem showUse (owner : Nat) : ReadsAlike (s.showUse owner) (t.showUse owner) := by
  simp only [State.showUse, h.pool, h.frameTier, h.frameDie]
  exact ((h.wr (by decide) ..).wr (by decide) ..).dput ..

theorem freeFrame (n : Nat) : ReadsAlike (s.freeFrame n) (t.freeFrame n) := by
  simp only [State.freeFrame, h.frame]
  exact (h.setFrame ..).showUse _

theorem dropMove (m : Move) : ReadsAlike (s.dropMove m) (t.dropMove m) := by
  have hdropped := h.setPool (congrArg (fun p : Pool => { p with moves := p.moves.filter fun x => !(x.src == m.src) }) h.pool)
  rw [State.dropMove, State.dropMove, hdropped.frame]
  exact hdropped.setFrame ..

theorem moveStopped (m : Move) : ReadsAlike (s.moveStopped m) (t.moveStopped m) := by
  have hdropped := (h.bump (a := .poolMoveCancelCnt) (by decide) (s.frameDie m.src) 0 1 (t.frameDie m.src) 0 1).dropMove m
  exact .ite hdropped (hdropped.freeFrame _)

theorem cancelMove (m : Move) : ReadsAlike (s.cancelMove m) (t.cancelMove m) := by
  cases hdie : m.cmdDie with
  | none =>
    rw [State.cancelMove_of_none hdie, State.cancelMove_of_none hdie]
    exact h.moveStopped m
  | some d =>
    rw [State.cancelMove_of_some hdie, State.cancelMove_of_some hdie]
    exact ((h.moveStopped m).setFld (by decide) ..).setFld (by decide) ..

theorem touchWrite (pa len : Nat) : ReadsAlike (s.touchWrite pa len) (t.touchWrite pa len) := by
  unfold State.touchWrite
  dsimp only
  rw [h.frame, h.pool]
  refine .ite h ?_
  cases s.pool.moves.find? fun m => m.src == pa / 65536 with
  | none =>
    simp only [h.frame, h.stampNow]
    exact h.setFrame ..
  | some m =>
    simp only [(h.cancelMove m).frame, (h.cancelMove m).stampNow]
    exact (h.cancelMove m).setFrame ..

theorem touchTable (pa n : Nat) : ReadsAlike (s.touchTable pa n) (t.touchTable pa n) := by
  have hkept : ∀ u : State, ReadsAlike u (u.touchTable pa n) := fun u => by
    unfold State.touchTable
    dsimp only
    split
    · exact ⟨⟨rfl, rfl, rfl, rfl, rfl, rfl, fun _ _ => rfl⟩, rfl, rfl, rfl, rfl, rfl, rfl, fun _ _ _ _ => rfl⟩
    · exact .refl u
  exact ((hkept s).symm.trans h).trans (hkept t)

/-! ## Sectors (R374 to R385) -/

theorem mergeSector (k : Nat) : ReadsAlike (s.mergeSector k) (t.mergeSector k) := by
  simp only [State.mergeSector, h.deltaAt, h.deltaBad]
  exact .ite h (h.setMem (by rw [h.memBytes, h.virt.mem]) (congrArg (eraseAt k) h.virt.delta))

theorem mergeEnds (pa n : Nat) : ReadsAlike (s.mergeEnds pa n) (t.mergeEnds pa n) := by
  have hfirst : ReadsAlike (if pa % 32 = 0 then s else s.mergeSector (pa / 32)) (if pa % 32 = 0 then t else t.mergeSector (pa / 32)) :=
    .ite h (h.mergeSector _)
  exact .ite hfirst (hfirst.mergeSector _)

theorem dropWritebacks (lo n : Nat) : ReadsAlike (s.dropWritebacks lo n) (t.dropWritebacks lo n) := h.setHbm (by rw [h.hbm])

theorem putRaw (pa : Nat) (bs : List Byte) : ReadsAlike (s.putRaw pa bs) (t.putRaw pa bs) := by
  have hmerged := (h.mergeEnds pa bs.length).dropWritebacks (pa / 32) ((pa + bs.length + 31) / 32 - pa / 32)
  exact (((hmerged.setMem (congrArg _ hmerged.virt.mem) (congrArg _ hmerged.virt.delta)).setPoison (congrArg _ hmerged.poison)).setBadCheck
    (congrArg _ hmerged.badCheck)).setHbm (by rw [hmerged.hbm])

theorem putMem (pa : Nat) (bs : List Byte) : ReadsAlike (s.putMem pa bs) (t.putMem pa bs) :=
  .ite h (((h.putRaw pa bs).touchWrite ..).touchTable ..)

theorem countSector (ctl : Nat) : ReadsAlike (s.countSector ctl) (t.countSector ctl) := h.bump (by decide) ..

theorem postUe (base : Nat) : ReadsAlike (s.postUe base) (t.postUe base) :=
  h.setPool (congrArg (fun p : Pool => { p with uePosts := p.uePosts ++ [base] }) h.pool)

/-- A posted, logged uncorrectable sector (R381). -/
theorem logPosted (ctl base owner : Nat) (sev mark : Bool) :
    ReadsAlike ((s.logUe ctl base owner sev mark).postUe base) ((t.logUe ctl base owner sev mark).postUe base) :=
  (h.reach (State.logUe_reach ..) (State.logUe_reach ..) (by decide)).postUe _

theorem noteSevere (ctl base owner : Nat) : ReadsAlike (s.noteSevere ctl base owner) (t.noteSevere ctl base owner) := by
  have hmarked := h.setHbm (congrArg (fun p : Hbm => { p with sevBad := setInsert (base / 32) p.sevBad }) h.hbm)
  have hcounted := (hmarked.bump (a := .hbmcSevUeCnt) (by decide) ctl 0 1 ctl 0 1).bump (a := .hbmcUeCnt) (by decide) ctl 0 1 ctl 0 1
  exact hcounted.logPosted ctl base owner true false

theorem noteDecoded (ctl base owner : Nat) (d : Decoded) :
    ReadsAlike (s.noteDecoded ctl base owner d) (t.noteDecoded ctl base owner d) := by
  cases d with
  | clean => exact h
  | corrected j v => exact h.bump (by decide) ..
  | mark => exact (h.bump (by decide) ..).logPosted ..
  | uncorrectable => exact (h.bump (by decide) ..).logPosted ..

theorem noteSector (ctl pa owner : Nat) (severity : Bool) : ReadsAlike (s.noteSector ctl pa owner severity).1 (t.noteSector ctl pa owner severity).1 ∧
    (t.noteSector ctl pa owner severity).2 = (s.noteSector ctl pa owner severity).2 := by
  rw [State.noteSector_eq, State.noteSector_eq, h.hbm, h.deltaAt]
  split
  · exact ⟨h.noteSevere .., rfl⟩
  · exact ⟨h.noteDecoded .., rfl⟩

theorem readSector (ctl pa owner : Nat) (severity : Bool) : ReadsAlike (s.readSector ctl pa owner severity).1 (t.readSector ctl pa owner severity).1 ∧
    (t.readSector ctl pa owner severity).2 = (s.readSector ctl pa owner severity).2 := (h.countSector ctl).noteSector ..

theorem setChan (ctl pc : Nat) (c : PseudoChannel) : ReadsAlike (s.setChan ctl pc c) (t.setChan ctl pc c) :=
  h.setHbm (by rw [h.hbm])

theorem queueWriteback (pa owner : Nat) : ReadsAlike (s.queueWriteback pa owner) (t.queueWriteback pa owner) := by
  simp only [State.queueWriteback, h.virt.harbour, h.chan, h.memBytes]
  exact .ite h (h.setChan ..)

theorem deliverSector (ctl : Nat) (d : Delivered) : ReadsAlike (s.deliverSector ctl d) (t.deliverSector ctl d) := by
  have htouched := h.touchRead d.addr
  exact htouched.setHbm (by rw [htouched.hbm])

/-- A read served (R379, R381, R449): what is delivered of the sector read. -/
theorem deliverRead (q : HbmReq) (ctl : Nat) (severity : Bool) (out : Decoded) :
    ReadsAlike (s.deliverRead ctl q severity out) (t.deliverRead ctl q severity out) := by
  have hqueued : ReadsAlike (s.queueCorrected q out) (t.queueCorrected q out) := by
    cases out with
    | corrected j v => exact h.queueWriteback ..
    | clean => exact h
    | mark => exact h
    | uncorrectable => exact h
  simp only [State.deliverRead, h.frame, h.rdBytes, h.memBytes]
  exact hqueued.deliverSector ..

theorem serveHbm (ctl : Nat) (q : HbmReq) (severity : Bool) : ReadsAlike (s.serveHbm ctl q severity) (t.serveHbm ctl q severity) := by
  have hwrite : ReadsAlike ((if q.mask = BitVec.allOnes 32 then s else s.bump .hbmcPartialWrCnt ctl 0 1).countSector ctl)
      ((if q.mask = BitVec.allOnes 32 then t else t.bump .hbmcPartialWrCnt ctl 0 1).countSector ctl) :=
    countSector (.ite h (h.bump (by decide) ..)) ctl
  obtain ⟨hread, hout⟩ := h.readSector ctl (q.addr / 32 * 32) q.owner severity
  rw [State.serveHbm_eq, State.serveHbm_eq, hwrite.frame, hout]
  exact .ite (((h.putRaw ..).countSector ctl).bump (by decide) ..) (.ite (.ite (hwrite.reach ((Reach.refl 0x80000 _).set_heldWrites rfl)
    ((Reach.refl 0x80000 _).set_heldWrites rfl) (by decide)) (hwrite.putMem ..)) (hread.deliverRead ..))

theorem flushSectors (pa n : Nat) : ReadsAlike (s.flushSectors pa n) (t.flushSectors pa n) := by
  unfold State.flushSectors
  extract_lets hit
  rw [h.hbm]
  refine h.foldl _ fun u v p huv => .ite huv ?_
  refine (huv.setHbm ?_).foldl _ fun x y q hxy => hxy.serveHbm ..
  rw [huv.hbm]

theorem useSector (owner base : Nat) : ReadsAlike (s.useSector owner base) (t.useSector owner base) := by
  have hread := h.readSector (hbmPlace s.harbour base).1 base owner false
  unfold State.useSector
  rw [h.virt.harbour]
  revert hread
  generalize s.readSector (hbmPlace s.harbour base).1 base owner false = p
  generalize t.readSector (hbmPlace s.harbour base).1 base owner false = q
  obtain ⟨u, _⟩ := p
  obtain ⟨v, out⟩ := q
  rintro ⟨huv, rfl⟩
  cases out with
  | corrected j v => exact huv.queueWriteback ..
  | clean => exact huv
  | mark => exact huv
  | uncorrectable => exact huv

/-! ## Reads of a window's lines (R271, R281, R497) -/

theorem refetchClean (pa : Nat) : ReadsAlike (s.refetchClean pa) (t.refetchClean pa) := by
  unfold State.refetchClean
  dsimp only
  rw [h.frame]
  cases (s.frame (pa / 65536)).lower with
  | none => exact h
  | some low =>
    simp only [h.poisonAt, h.memBytes]
    have hput := h.putRaw (pa / 128 * 128) (s.memBytes (low * 65536 + pa / 128 * 128 % 65536) 128)
    exact hput.setPoison (by rw [hput.poison])

theorem checkSram (a : Access) (pa n : Nat) : ReadsAlike (s.checkSram a pa n) (t.checkSram a pa n) := by
  unfold State.checkSram
  rw [h.badCheck]
  cases setIn pa n s.badCheck with
  | nil => exact h
  | cons first rest =>
    have hlogged := h.reach (s.logParity_reach a first) (t.logParity_reach a first) (by decide)
    dsimp only
    rw [hlogged.frame, hlogged.frameTier]
    exact .ite (hlogged.foldl _ fun u v k huv => (huv.bump (by decide) ..).refetchClean _) hlogged

theorem didRead (a : Access) (pa n : Nat) : ReadsAlike (s.didRead a pa n) (t.didRead a pa n) := by
  have htouched := h.touchRead pa
  unfold State.didRead
  dsimp only
  rw [htouched.isHbm]
  exact .ite ((htouched.flushSectors pa n).foldl _ fun u v k huv => huv.useSector ..)
    ((htouched.reach (State.useSlots_reach ..) (State.useSlots_reach ..) (by decide)).checkSram ..)

/-- The reads of some addresses for a message's lines. -/
theorem readPlaces (g : Landing) (ps : List (Nat × Nat)) :
    ReadsAlike (ps.foldl (fun (u : State) p => u.didRead (u.landingAccess g) p.2 32) s)
      (ps.foldl (fun (u : State) p => u.didRead (u.landingAccess g) p.2 32) t) :=
  h.foldl _ fun u v p huv => by
    rw [huv.landingAccess]
    exact huv.didRead ..

theorem readLine (g : Landing) (i : Nat) : ReadsAlike (s.readLine g i).1 (t.readLine g i).1 ∧ (t.readLine g i).2 = (s.readLine g i).2 := by
  unfold State.readLine
  dsimp only
  simp only [h.winPlace]
  cases ((lineUnits (hdrOffset g.header) (hdrLen g.header) i).map fun u => s.winPlace g u.1 false).any Option.isNone with
  | true => exact ⟨h, rfl⟩
  | false =>
    simp only [Bool.false_eq_true, if_false]
    have hread := h.readPlaces g (((lineUnits (hdrOffset g.header) (hdrLen g.header) i).zip
        ((lineUnits (hdrOffset g.header) (hdrLen g.header) i).map fun u => s.winPlace g u.1 false)).filterMap fun p => p.2.map fun pa => (p.1.2, pa))
    exact ⟨hread, by simp only [hread.memBytes, hread.poisonAt]⟩

omit h in
theorem readLines (h : ReadsAlike s t) (g : Landing) (is : List Nat) : ReadsAlike (s.readLines g is).1 (t.readLines g is).1 ∧
    (t.readLines g is).2 = (s.readLines g is).2 := by
  induction is generalizing s t with
  | nil => exact ⟨h, rfl⟩
  | cons i is ih =>
    obtain ⟨hline, hout⟩ := h.readLine g i
    obtain ⟨hrest, hlines⟩ := ih hline
    rw [State.readLines_cons, State.readLines_cons, hout, hlines]
    exact ⟨hrest, rfl⟩

end
end ReadsAlike
end Sys2Proof.Machine
end

section
/-!
SUPPORT. Headers that arrive at a window (spec/10_links_and_windows.md R495 to R505): what each step leaves of the fabric, and what a refused or
accepted header comes to.
-/
namespace Sys2Proof.Machine

/-! ## A header taken in (R495, R496) -/

/-- The inbox without a message that has been taken. -/
def State.leaveInbox (s : State) (h : Words4) : State :=
  { s with fabric := { s.fabric with inbox := s.fabric.inbox.filter fun m => m.header != some h } }

theorem State.leaveInbox_reach (s : State) (h : Words4) : Reach 0x800000 s (s.leaveInbox h) := (Reach.refl _ s).set_fabric rfl

theorem State.arrived_of_other {s : State} {h : Words4} (hother : srcPkg h ≠ s.ownPkg) : s.arrived h = s.leaveInbox h := by
  have hnone : (decide (srcPkg h = s.ownPkg) && (mtype h == 1 || mtype h == 2)) = false := by rw [decide_eq_false hother, Bool.false_and]
  unfold State.arrived
  exact if_neg (Bool.eq_false_iff.mp hnone)

/-- A header of another package behind none that waits is taken. -/
theorem State.headerArrives_takes {s : State} {link : Option (Fin 16)} {h : Words4} (hother : srcPkg h ≠ s.ownPkg)
    (hfirst : (s.fabric.ringWaits.any fun w : RingWait => w.before (hdrWindow h / 512) link) = false) (lines : List LineTries) :
    s.headerArrives link h lines = (s.leaveInbox h).takeHeader link h lines := by
  rw [State.headerArrives, State.arrived_of_other hother]
  exact if_neg (Bool.eq_false_iff.mp hfirst)

/-- What refuses a header goes by the window's entry. -/
theorem Reach.refusal_eq {F : Nat} {s t : State} (h : Reach F s t) (h0 : F.testBit (64 + Reg.winEntryW0.ctorIdx) = false)
    (h1 : F.testBit (64 + Reg.winEntryW1.ctorIdx) = false) (h2 : F.testBit (64 + Reg.winEntryW2.ctorIdx) = false) (header : Words4) :
    t.refusal header = s.refusal header := by
  simp only [State.refusal, State.winState, State.winEpoch, State.winOwner, State.winRing, State.winStage, h.fld_eq winEntryW0Epoch h0,
    h.fld_eq winEntryW1State h1, h.fld_eq winEntryW1Owner h1, h.fld_eq winEntryW1WriteEn h1, h.fld_eq winEntryW1ReadEn h1,
    h.fld_eq winEntryW1Kind h1, h.fld_eq winEntryW1Size h1, Stage.slotBytes, h.fld_eq winEntryW2RingSlotLinesM1 h2]
  rfl

theorem Reach.ownPkg_eq {F : Nat} {s t : State} (h : Reach F s t) (hdict : F.testBit 14 = false) : t.ownPkg = s.ownPkg := by
  rw [State.ownPkg, State.dnat, State.dget, h.same .dict hdict]
  rfl

/-- An answer for another package with a route goes out on VC 1 (R472, R516). -/
theorem State.post_answer {s : State} {die k : Nat} {h : Words4} (hother : srcPkg h ≠ s.ownPkg) (hroute : s.routeLink die (srcPkg h) = some k)
    {mt : Nat} (hmt : 3 ≤ mt ∧ mt ≤ 8) (status cause line : Nat) :
    s.post die (answer h mt status cause line) [] = s.enqueue k { header := some (setVia (answer h mt status cause line) false) } 1 := by
  have hdst := dstPkg_answer h mt status cause line
  have hvc : vcOf (answer h mt status cause line) = 1 := by
    simp only [vcOf, mtype_answer h (by omega : mt < 16)]
    rw [if_neg (by omega), if_neg (by omega), if_neg (by omega)]
  rw [State.post_of_route (by rwa [hdst]) (by rwa [hdst]), hvc]

theorem State.takeHeader_refuses {s : State} {h : Words4} {cause : Nat} (hrefusal : s.refusal h = some cause) (link : Option (Fin 16))
    (lines : List LineTries) : s.takeHeader link h lines = s.refuse h cause := by
  rw [State.takeHeader, hrefusal]

theorem State.refuse_of_route {s : State} {h : Words4} {k : Nat} (hother : srcPkg h ≠ s.ownPkg)
    (hroute : s.routeLink (hdrWindow h / 512) (srcPkg h) = some k) (cause : Nat) :
    s.refuse h cause = (s.bump .winRefusedCnt (hdrWindow h / 512) 0 1).enqueue k { header := some (setVia (answer h 5 0 cause 0) false) } 1 := by
  have hcounted : Reach 0x1000000000000000000000000000000000000000000000000 s (s.bump .winRefusedCnt (hdrWindow h / 512) 0 1) := (Reach.refl ..).bump rfl
  have hother' : srcPkg h ≠ (s.bump .winRefusedCnt (hdrWindow h / 512) 0 1).ownPkg := by rwa [hcounted.ownPkg_eq rfl]
  rw [State.refuse, State.post_answer hother' ((hcounted.routeLink_eq rfl rfl _ _).trans hroute) (by decide)]

theorem State.tx1_enqueue (s : State) (l : Nat) (m : TxMsg) : ((s.enqueue l m 1).link l).tx1 = (s.link l).tx1 ++ [m] := s.tx_enqueue l m 1

/-- R495: a refused header counted and answered. -/
theorem State.headerArrives_refuses {s : State} {link : Option (Fin 16)} {header : Words4} {cause k : Nat}
    (hfirst : (s.fabric.ringWaits.any fun w : RingWait => w.before (hdrWindow header / 512) link) = false)
    (hrefusal : s.refusal header = some cause) (hother : srcPkg header ≠ s.ownPkg)
    (hroute : s.routeLink (hdrWindow header / 512) (srcPkg header) = some k) (lines : List LineTries) :
    (s.headerArrives link header lines).rd .winRefusedCnt (hdrWindow header / 512) 0 = s.rd .winRefusedCnt (hdrWindow header / 512) 0 + 1#64 ∧
    ((s.headerArrives link header lines).link k).tx1 = (s.link k).tx1 ++ [{ header := some (setVia (answer header 5 0 cause 0) false) }] ∧
    (s.headerArrives link header lines).mem = s.mem := by
  have hu := s.leaveInbox_reach header
  rw [State.headerArrives_takes hother hfirst, State.takeHeader_refuses ((hu.refusal_eq rfl rfl rfl header).trans hrefusal),
    State.refuse_of_route (by rwa [hu.ownPkg_eq rfl]) ((hu.routeLink_eq rfl rfl _ _).trans hroute)]
  refine ⟨?_, State.tx1_enqueue .., rfl⟩
  exact (State.rd_bump_self ..).trans (congrArg (· + 1#64) (hu.rd_eq .winRefusedCnt rfl ..))

/-! ## A header accepted (R495, R496, R505) -/

/-- A header counted as accepted and in its epoch. -/
def State.countAccept (s : State) (h : Words4) : State :=
  let die := hdrWindow h / 512
  let e := hdrWindow h % 512
  let ep := s.epochRec die e
  (s.setEpoch die e { ep with accepted := ep.accepted + 1, ringPuts := if mtype h == 1 then ep.ringPuts + 1 else ep.ringPuts }).bump .winAcceptCnt die 0 1

/-- The message of a header as it is begun, with the slot that it fills. -/
def State.landingFor (s : State) (link : Option (Fin 16)) (h : Words4) (slot : Option Nat) : Landing :=
  { num := s.fabric.landingNum, die := hdrWindow h / 512, entry := hdrWindow h % 512, header := h, get := !(mtype h == 1), link := link,
    left := List.range (lineCount (hdrOffset h) (hdrLen h)), slot := slot }

/-- A message among those begun. -/
def State.addLanding (s : State) (g : Landing) : State :=
  { s with fabric := { s.fabric with landings := s.fabric.landings ++ [g], landingNum := s.fabric.landingNum + 1 } }

/-- A PUT into a ring begun, with ACCEPT for a run of more than eight lines (R496). -/
def State.beginRing (s : State) (g : Landing) (h : Words4) : State :=
  if 8 < lineCount (hdrOffset h) (hdrLen h) then (s.addLanding g).post (hdrWindow h / 512) (answer h 4 0 0 0) [] else s.addLanding g

theorem State.countAccept_reach (s : State) (h : Words4) : Reach 0x800000000000000000000000000000000000000000800000 s (s.countAccept h) :=
  ((Reach.refl ..).then (State.setEpoch_reach ..) rfl).bump rfl

theorem State.addLanding_reach (s : State) (g : Landing) : Reach 0x800000 s (s.addLanding g) := (Reach.refl ..).set_fabric rfl

theorem State.countAccept_rd (s : State) (h : Words4) :
    (s.countAccept h).rd .winAcceptCnt (hdrWindow h / 512) 0 = s.rd .winAcceptCnt (hdrWindow h / 512) 0 + 1#64 :=
  (State.rd_bump_self ..).trans (congrArg (· + 1#64) ((State.setEpoch_reach ..).rd_eq .winAcceptCnt rfl ..))

theorem State.acceptMsg_get {h : Words4} (hget : mtype h = 2) (s : State) (link : Option (Fin 16)) (lines : List LineTries) :
    let g := (s.countAccept h).landingFor link h none
    s.acceptMsg link h lines = (((s.countAccept h).addLanding g).post (hdrWindow h / 512) (answer h 4 0 0 0) []).settleLandings := by
  have hnot : (mtype h == 1) = false := by rw [hget]; rfl
  simp only [State.acceptMsg, State.countAccept, State.landingFor, State.addLanding, hnot, Bool.false_and, Bool.false_eq_true, if_false,
    Bool.not_false, Bool.true_or, if_true]

theorem State.acceptMsg_put {s : State} {h : Words4} (hput : mtype h = 1) (hring : s.winRing (hdrWindow h / 512) (hdrWindow h % 512) = false)
    (hfew : ¬ 8 < lineCount (hdrOffset h) (hdrLen h)) (link : Option (Fin 16)) (lines : List LineTries) :
    let g := (s.countAccept h).landingFor link h none
    let p := ((s.countAccept h).addLanding g).takeLines g 0 lines
    s.acceptMsg link h lines = (p.1.putLanding p.2).settleLandings := by
  have hyes : (mtype h == 1) = true := by rw [hput]; rfl
  simp only [State.acceptMsg, State.countAccept, State.landingFor, State.addLanding, hyes, hring, hfew, Bool.true_and, Bool.false_eq_true, if_false,
    Bool.not_true, Bool.or_self, decide_false, if_true]

theorem State.acceptMsg_ring {s : State} {h : Words4} (hput : mtype h = 1) (hring : s.winRing (hdrWindow h / 512) (hdrWindow h % 512) = true)
    (link : Option (Fin 16)) :
    let ring := s.winStage (hdrWindow h / 512) (hdrWindow h % 512)
    let slot := (s.epochRec (hdrWindow h / 512) (hdrWindow h % 512)).ringPuts % ring.nslots
    let u := (s.countAccept h).putSlotToken ring slot 1
    let g := u.landingFor link h (some slot)
    s.acceptMsg link h [] = ((u.beginRing g h).putLanding g).settleLandings := by
  have hyes : (mtype h == 1) = true := by rw [hput]; rfl
  simp only [State.acceptMsg, State.countAccept, State.landingFor, State.addLanding, hyes, hring, Bool.true_and, if_true,
    Bool.not_true, Bool.false_or, decide_eq_true_eq, State.takeLines, State.beginRing]

/-! ## Messages settled (R496, R497, R603) -/

/-- Setting tokens whose writes have been accepted changes the fabric's signals alone. -/
theorem State.settleSignals_fabric (s : State) : ∃ l, s.settleSignals.fabric = { s.fabric with signals := l } := by
  unfold State.settleSignals
  dsimp only
  exact ⟨_, (Reach.foldl (F := 0x4000000000000000000000000000000000000000000000000000000000000) _ (.refl ..) fun t p ht =>
    ht.then (State.putToken_reach ..) rfl).same .fabric rfl⟩

theorem State.settleSignals_kept (s : State) : (∀ k, s.settleSignals.link k = s.link k) ∧ s.settleSignals.fabric.landings = s.fabric.landings ∧
    s.settleSignals.fabric.ringWaits = s.fabric.ringWaits ∧ ∀ d e, s.settleSignals.epochRec d e = s.epochRec d e := by
  obtain ⟨l, hl⟩ := s.settleSignals_fabric
  simp only [State.link, State.epochRec, hl, implies_true, and_self]

/-- What is done of one message as those begun are looked at (R496, R497). -/
def State.settleLanding (s : State) (g : Landing) : State :=
  if g.get then (if g.left.isEmpty || s.getHeld g then s else s.answerGet g)
  else if g.left.isEmpty && !(s.heldWrites.any fun w => w.by_.msg == some g.num) then s.finishLanding g else s

theorem State.settleLandings_of_one {s : State} {g : Landing} (hone : s.fabric.landings = [g]) :
    s.settleLandings = (s.settleLanding g).settleSignals := by
  rw [State.settleLandings, hone]
  rfl

theorem State.settleLanding_waits {s : State} {g : Landing} (hput : g.get = false) (hleft : g.left ≠ []) : s.settleLanding g = s := by
  have hsome : g.left.isEmpty = false := List.isEmpty_eq_false_iff.mpr hleft
  simp only [State.settleLanding, hput, hsome, Bool.false_and, Bool.false_eq_true, if_false]

theorem State.settleLanding_answers {s : State} {g : Landing} (hget : g.get = true) (hleft : g.left ≠ []) (hfree : s.getHeld g = false) :
    s.settleLanding g = s.answerGet g := by
  have hsome : g.left.isEmpty = false := List.isEmpty_eq_false_iff.mpr hleft
  simp only [State.settleLanding, hget, hsome, hfree, Bool.or_self, Bool.false_eq_true, if_false, if_true]

theorem State.settleLanding_finishes {s : State} {g : Landing} (hput : g.get = false) (hleft : g.left = [])
    (haccepted : (s.heldWrites.any fun w => w.by_.msg == some g.num) = false) : s.settleLanding g = s.finishLanding g := by
  simp only [State.settleLanding, hput, hleft, haccepted, List.isEmpty_nil, Bool.not_false, Bool.and_self, Bool.false_eq_true, if_false, if_true]

end Sys2Proof.Machine
end

section
/-!
SUPPORT. What comes of the messages at a window's target (spec/10_links_and_windows.md R496 to R500, R505): a message torn, a header that fills a
slot of a ring, a GET_REQ answered, and the one line of a PUT stored.
-/
namespace Sys2Proof.Machine

theorem Fabric.landings_of_windows {f g : Fabric} (h : f.windows = g.windows) : f.landings = g.landings := (congrArg Fabric.landings h :)

theorem Fabric.epochs_of_windows {f g : Fabric} (h : f.windows = g.windows) : f.epochs = g.epochs := (congrArg Fabric.epochs h :)

theorem State.post_landings (s : State) (die : Nat) (h : Words4) (lines : List LineSeg) : (s.post die h lines).fabric.landings = s.fabric.landings :=
  Fabric.landings_of_windows (s.post_windows die h lines)

theorem State.post_ringWaits (s : State) (die : Nat) (h : Words4) (lines : List LineSeg) : (s.post die h lines).fabric.ringWaits = s.fabric.ringWaits :=
  Fabric.ringWaits_of_windows (s.post_windows die h lines)

theorem State.post_epochRec (s : State) (die : Nat) (h : Words4) (lines : List LineSeg) (d e : Nat) : (s.post die h lines).epochRec d e = s.epochRec d e :=
  congrArg (lookupD ({} : Epoch) (d * 512 + e)) (Fabric.epochs_of_windows (s.post_windows die h lines))

/-- A message put among those begun in its own place. -/
theorem State.putLanding_one {s : State} {g x : Landing} (hone : s.fabric.landings = [x]) (hnum : x.num = g.num) : (s.putLanding g).fabric.landings = [g] := by
  rw [State.putLanding]
  simp only [hone, List.map_cons, List.map_nil, hnum, beq_self_eq_true, if_true]

/-- The end of the only message leaves none. -/
theorem State.dataGone_one {s : State} {g : Landing} (hone : s.fabric.landings = [g]) : (s.dataGone (some g.num)).fabric.landings = [] := by
  simp only [State.dataGone, hone, List.filter_cons, List.filter_nil, bne_self_eq_false, Bool.false_eq_true, if_false]

/-! ## A message torn (R500) -/

theorem State.finishLanding_torn {g : Landing} (hstatus : g.status ≠ 0) (hslot : g.slot = none) (s : State) :
    s.finishLanding g = ((s.dataGone (some g.num)).noteTorn g).post g.die (answer g.header 6 g.status 0 0) [] := by
  simp only [State.finishLanding, hstatus, hslot, Option.isSome_none, Bool.false_eq_true, if_false]

/-- R500: a torn message is counted, and is its epoch's first failure where none came before. -/
theorem State.noteTorn_sets (s : State) (g : Landing) :
    (s.noteTorn g).rd .winTornCnt g.die 0 = s.rd .winTornCnt g.die 0 + 1#64 ∧ (s.noteTorn g).fabric.landings = s.fabric.landings ∧
    ((s.epochRec g.die g.entry).torn = 0 → ((s.noteTorn g).epochRec g.die g.entry).torn = g.status) := by
  have hepoch : (s.bump .winTornCnt g.die 0 1).epochRec g.die g.entry = s.epochRec g.die g.entry := rfl
  simp only [State.noteTorn, hepoch]
  split
  · refine ⟨((State.setEpoch_reach ..).rd_eq .winTornCnt rfl ..).trans (State.rd_bump_self ..), rfl, fun _ => ?_⟩
    rw [State.epochRec, State.setEpoch]
    simp only [lookupD_putD_self]
  · next hsome => exact ⟨State.rd_bump_self .., rfl, fun hnone => absurd hnone hsome⟩

/-- The only message begun, a PUT that failed with all its lines dealt with and no write waiting: it is torn (R500). -/
theorem State.settleLandings_tears {s : State} {g : Landing} (hone : s.fabric.landings = [g]) (hput : g.get = false) (hleft : g.left = [])
    (hstatus : g.status ≠ 0) (hslot : g.slot = none) (haccepted : (s.heldWrites.any fun w : HeldWrite => w.by_.msg == some g.num) = false) :
    (s.settleLandings.rd .winTornCnt g.die 0 = s.rd .winTornCnt g.die 0 + 1#64 ∧ s.settleLandings.fabric.landings = []) ∧
    ((s.epochRec g.die g.entry).torn = 0 → (s.settleLandings.epochRec g.die g.entry).torn = g.status) := by
  rw [State.settleLandings_of_one hone, State.settleLanding_finishes hput hleft haccepted, State.finishLanding_torn hstatus hslot]
  have hgone := s.dataGone_reach (some g.num)
  have hempty := State.dataGone_one hone
  have hepoch : (s.dataGone (some g.num)).epochRec g.die g.entry = s.epochRec g.die g.entry := rfl
  generalize s.dataGone (some g.num) = u at hgone hempty hepoch
  obtain ⟨hcount, hlandings, htorn⟩ := u.noteTorn_sets g
  generalize u.noteTorn g = v at hcount hlandings htorn
  obtain ⟨-, hsettled, -, hepochs⟩ := (v.post g.die (answer g.header 6 g.status 0 0) []).settleSignals_kept
  refine ⟨⟨?_, ?_⟩, ?_⟩
  · rw [(State.settleSignals_reach _).rd_eq .winTornCnt rfl, (State.post_reach ..).rd_eq .winTornCnt rfl, hcount, hgone.rd_eq .winTornCnt rfl]
  · rw [hsettled, State.post_landings, hlandings, hempty]
  · rw [hepochs, State.post_epochRec, ← hepoch]
    exact htorn

theorem msgResponseTimeoutEffect_tears {s : State} {tag : BitVec 16} {pkg : BitVec 12} {ms : BitVec 32} {g : Landing}
    (hlate : s.dnat dkMsgResponseLimit ≤ ms.toNat) (hone : s.fabric.landings = [g]) (hput : g.get = false) (hleft : g.left ≠ [])
    (htag : hdrTag g.header = tag.toNat) (hpkg : srcPkg g.header = pkg.toNat) (hstatus : g.status = 0) :
    msgResponseTimeoutEffect true tag pkg ms s = (s.putLanding { g with left := [], status := stPeerLost }).settleLandings := by
  have hsome : g.left.isEmpty = false := List.isEmpty_eq_false_iff.mpr hleft
  simp only [msgResponseTimeoutEffect, Nat.not_lt.mpr hlate, hone, List.find?_cons, hput, hsome, htag, hpkg, hstatus, Bool.not_false,
    beq_self_eq_true, Bool.and_self, if_true, if_false]

/-! ## A header that fills a slot of a ring (R505) -/

/-- What a die's own ring shows of a slot goes by the token and the chains. -/
theorem Reach.headEmpty_eq {F : Nat} {s t : State} (h : Reach F s t) (hout : ∀ c ∈ virtualCells, F.testBit c.code = false)
    (hgal : F.testBit (64 + Reg.galSlotTokens.ctorIdx) = false) (hclu : F.testBit (64 + Reg.cluSlotTokens.ctorIdx) = false)
    (hchains : F.testBit 6 = false) (g : Stage) (slot : Nat) : t.headEmpty g slot = s.headEmpty g slot := by
  have hsame : t.chains = s.chains := h.same .chains hchains
  simp only [State.headEmpty, h.slotToken hout hgal hclu, State.headChain, hsame]

/-- A transition of a slot of a token table is kept there. -/
theorem State.slotToken_putSlotToken {s : State} {g : Stage} (htable : (s.tokenTable g.ringAddr).isSome = true) (slot : Nat) {v : Nat} (hv : v < 4) :
    (s.putSlotToken g slot v).slotToken g slot = v := by
  have hkept := (s.putSlotToken_reach g slot v).tokenTable (by decide) g.ringAddr
  obtain ⟨table, hsome⟩ := Option.isSome_iff_exists.mp htable
  rw [State.slotToken, hkept, hsome]
  simp only [State.putSlotToken, hsome]
  rw [State.rd_wr_self, bitsOf_withBits_self _ _ _ _ (by omega)]
  exact Nat.mod_eq_of_lt hv

theorem State.takeHeader_accepts {s : State} {h : Words4} (hrefusal : s.refusal h = none)
    (hring : mtype h = 1 → s.winRing (hdrWindow h / 512) (hdrWindow h % 512) = true → s.headEmpty (s.winStage (hdrWindow h / 512) (hdrWindow h % 512))
      ((s.epochRec (hdrWindow h / 512) (hdrWindow h % 512)).ringPuts % (s.winStage (hdrWindow h / 512) (hdrWindow h % 512)).nslots) = true)
    (link : Option (Fin 16)) (lines : List LineTries) : s.takeHeader link h lines = s.acceptMsg link h lines := by
  simp only [State.takeHeader, hrefusal]
  refine if_neg fun hwaits => ?_
  simp only [Bool.and_eq_true, Bool.not_eq_true', decide_eq_true_eq] at hwaits
  obtain ⟨⟨hput, hisring⟩, hfull⟩ := hwaits
  rw [hring hput hisring] at hfull
  cases hfull

/-- The state in which the headers that waited for a slot are tried again. -/
def State.withoutWaits (s : State) : State := { s with fabric := { s.fabric with ringWaits := [] } }

theorem State.withoutWaits_reach (s : State) : Reach 0x800000 s s.withoutWaits := (Reach.refl ..).set_fabric rfl

theorem ringSlotAcceptEffect_of_one {s : State} {die : Fin 2} {w : RingWait} (hone : s.fabric.ringWaits = [w]) (hdie : w.die = die.val) :
    ringSlotAcceptEffect die s = s.withoutWaits.takeHeader w.link w.header w.lines := by
  simp only [ringSlotAcceptEffect, hone, List.foldl_cons, List.foldl_nil, hdie, if_true, List.any_nil, Bool.false_eq_true, if_false,
    State.withoutWaits]

theorem lineCount_pos (offset : Nat) {len : Nat} (hlen : 0 < len) : 0 < lineCount offset len := by
  unfold lineCount
  omega

theorem State.beginRing_kept (s : State) (g : Landing) (h : Words4) (hnone : s.fabric.landings = []) :
    Reach 0x4000000080000000000000000000000000000000000000000000000800000 s (s.beginRing g h) ∧
    (s.beginRing g h).fabric.landings = [g] ∧ (s.beginRing g h).fabric.ringWaits = s.fabric.ringWaits := by
  have hadded : (s.addLanding g).fabric.landings = [g] := by
    rw [State.addLanding]
    simp only [hnone, List.nil_append]
  have hbegun : Reach 0x4000000080000000000000000000000000000000000000000000000800000 s (s.addLanding g) :=
    (Reach.refl ..).then (s.addLanding_reach g) rfl
  unfold State.beginRing
  split
  · exact ⟨hbegun.then (State.post_reach ..) rfl, (State.post_landings ..).trans hadded, State.post_ringWaits ..⟩
  · exact ⟨hbegun, hadded, rfl⟩

/-- A message begun has lines to come. -/
theorem State.landingFor_left (s : State) (link : Option (Fin 16)) (h : Words4) (slot : Option Nat) : (s.landingFor link h slot).left ≠ [] := by
  rw [State.landingFor, ne_eq, List.range_eq_nil]
  exact (lineCount_pos _ (Nat.succ_pos _)).ne'

/-- R505: an accepted header of a ring window fills its slot. -/
theorem State.acceptMsg_fills {s : State} {h : Words4} (hput : mtype h = 1) (hring : s.winRing (hdrWindow h / 512) (hdrWindow h % 512) = true)
    (htable : (s.tokenTable (s.winStage (hdrWindow h / 512) (hdrWindow h % 512)).ringAddr).isSome = true) (hnone : s.fabric.landings = [])
    (link : Option (Fin 16)) :
    let ring := s.winStage (hdrWindow h / 512) (hdrWindow h % 512)
    let slot := (s.epochRec (hdrWindow h / 512) (hdrWindow h % 512)).ringPuts % ring.nslots
    ((s.acceptMsg link h []).fabric.ringWaits = s.fabric.ringWaits ∧ (s.acceptMsg link h []).slotToken ring slot = 1) ∧
    (s.acceptMsg link h []).rd .winAcceptCnt (hdrWindow h / 512) 0 = s.rd .winAcceptCnt (hdrWindow h / 512) 0 + 1#64 := by
  intro ring slot
  rw [State.acceptMsg_ring hput hring]
  have hcounted := s.countAccept_reach h
  have hcount := s.countAccept_rd h
  have hwaits : (s.countAccept h).fabric.ringWaits = s.fabric.ringWaits := rfl
  have hlandings : (s.countAccept h).fabric.landings = s.fabric.landings := rfl
  generalize s.countAccept h = u at hcounted hcount hwaits hlandings
  have hfilled := u.putSlotToken_reach ring slot 1
  have htoken : (u.putSlotToken ring slot 1).slotToken ring slot = 1 :=
    State.slotToken_putSlotToken (by rwa [hcounted.tokenTable (by decide)]) slot (by decide)
  have hempty : (u.putSlotToken ring slot 1).fabric.landings = [] := by rw [hfilled.same .fabric rfl, hlandings, hnone]
  generalize u.putSlotToken ring slot 1 = v at hfilled htoken hempty
  have hput' : (v.landingFor link h (some slot)).get = false := by rw [State.landingFor, hput]; rfl
  have hleft := v.landingFor_left link h (some slot)
  generalize v.landingFor link h (some slot) = g at hput' hleft
  obtain ⟨hbegun, hone, hstill⟩ := v.beginRing_kept g h hempty
  generalize v.beginRing g h = x at hbegun hone hstill
  obtain ⟨-, -, hsettled, -⟩ := (x.putLanding g).settleSignals_kept
  have hdone := ((hbegun.then (State.putLanding_reach x g) rfl).then (State.settleSignals_reach _) rfl)
  rw [State.settleLandings_of_one (State.putLanding_one hone rfl), State.settleLanding_waits hput' hleft]
  refine ⟨⟨?_, ?_⟩, ?_⟩
  · rw [hsettled, ← hwaits, ← hfilled.same .fabric rfl, ← hstill]
    rfl
  · rw [hdone.slotToken (by decide) rfl rfl, htoken]
  · rw [hdone.rd_eq .winAcceptCnt rfl, hfilled.rd_eq .winAcceptCnt rfl, hcount]

/-! ## A GET_REQ answered (R497) -/

theorem AccessKept.readLines {r s : State} (h : AccessKept r s) (g : Landing) (is : List Nat) : AccessKept r (s.readLines g is).1 := by
  induction is generalizing s with
  | nil => exact h
  | cons i is ih => exact ih (h.readLine g i)

theorem AccessKept.ownPkg {s t : State} (h : AccessKept s t) : t.ownPkg = s.ownPkg := congrArg Int.toNat (h.dget dkPackageId (by decide))

/-- R497: the data of a GET_REQ whose lines can all be read. -/
theorem State.answerGet_sends {s : State} {g : Landing} {ls : List LineSeg} {k : Nat} (hread : (s.readLines g g.left).2 = (ls, 0))
    (hother : srcPkg g.header ≠ s.ownPkg) (hroute : s.routeLink g.die (srcPkg g.header) = some k) :
    s.answerGet g = ((s.readLines g g.left).1.putLanding { g with left := [] }).enqueue k
      { header := some (setVia (answer g.header 3 0 0 0) false), lines := ls, answers := some g.num } 1 := by
  have hkept := (AccessKept.refl s).readLines g g.left
  have hlines := (s.readLines_reach g g.left).fst
  have hput := (s.readLines g g.left).1.putLanding_reach { g with left := [] }
  unfold State.answerGet
  revert hread hkept hlines hput
  generalize s.readLines g g.left = p
  obtain ⟨u, _, _⟩ := p
  rintro ⟨⟩ hkept hlines hput
  have hdst := dstPkg_answer g.header 3 0 0 0
  have hvc : vcOf (answer g.header 3 0 0 0) = 1 := by
    simp only [vcOf, mtype_answer g.header (by decide : 3 < 16)]
    rfl
  have hother' : dstPkg (answer g.header 3 0 0 0) ≠ (u.putLanding { g with left := [] }).ownPkg := by
    rwa [hput.ownPkg_eq rfl, hkept.ownPkg, hdst]
  have hroute' : (u.putLanding { g with left := [] }).routeLink g.die (dstPkg (answer g.header 3 0 0 0)) = some k := by
    rwa [hput.routeLink_eq rfl rfl, hlines.routeLink_eq rfl rfl, hdst]
  simp only [if_true]
  rw [State.sendMsg_of_route hother' hroute' (fun hf => (Bool.false_ne_true hf).elim), hvc, if_neg Bool.false_ne_true]

/-- The only message begun, a GET_REQ whose lines can all be read: it is answered with its data, and stays until they are sent (R497). -/
theorem State.settleLandings_answers {s : State} {g : Landing} {ls : List LineSeg} {k : Nat} (hone : s.fabric.landings = [g]) (hget : g.get = true)
    (hleft : g.left ≠ []) (hfree : s.getHeld g = false) (hread : (s.readLines g g.left).2 = (ls, 0)) (hother : srcPkg g.header ≠ s.ownPkg)
    (hroute : s.routeLink g.die (srcPkg g.header) = some k) (d : Nat) :
    s.settleLandings.rd .winAcceptCnt d 0 = s.rd .winAcceptCnt d 0 ∧ s.settleLandings.fabric.landings = [{ g with left := [] }] ∧
    (s.settleLandings.link k).tx1 = (s.link k).tx1 ++
      [{ header := some (setVia (answer g.header 3 0 0 0) false), lines := ls, answers := some g.num }] := by
  rw [State.settleLandings_of_one hone, State.settleLanding_answers hget hleft hfree, State.answerGet_sends hread hother hroute]
  have hlines := (s.readLines_reach g g.left).fst
  have hput : ((s.readLines g g.left).1.putLanding { g with left := [] }).fabric.landings = [{ g with left := [] }] :=
    State.putLanding_one ((congrArg Fabric.landings (hlines.same .fabric rfl)).trans hone) rfl
  have hkept := (s.readLines g g.left).1.putLanding_reach { g with left := [] }
  have hqueue : ((s.readLines g g.left).1.putLanding { g with left := [] }).link k = s.link k := hlines.link_eq rfl k
  generalize (s.readLines g g.left).1.putLanding { g with left := [] } = y at hput hkept hqueue
  obtain ⟨m, hm⟩ : ∃ m : TxMsg, m = { header := some (setVia (answer g.header 3 0 0 0) false), lines := ls, answers := some g.num } := ⟨_, rfl⟩
  rw [← hm]
  obtain ⟨hlinks, hsettled, -, -⟩ := (y.enqueue k m 1).settleSignals_kept
  refine ⟨?_, hsettled.trans hput, by rw [hlinks, State.tx1_enqueue, hqueue]⟩
  rw [(State.settleSignals_reach _).rd_eq .winAcceptCnt rfl, (State.enqueue_reach ..).rd_eq .winAcceptCnt rfl, hkept.rd_eq .winAcceptCnt rfl,
    hlines.rd_eq .winAcceptCnt rfl]

/-- A message begun as the only one leaves what places and stores its bytes. -/
theorem State.addLanding_first (s : State) (h : Words4) (g : Landing) (hnone : s.fabric.landings = []) :
    Reach 0x800000000000000000000000000000000000000000800000 s ((s.countAccept h).addLanding g) ∧
    ((s.countAccept h).addLanding g).fabric.landings = [g] ∧ (∀ k, ((s.countAccept h).addLanding g).link k = s.link k) ∧
    ((s.countAccept h).addLanding g).rd .winAcceptCnt (hdrWindow h / 512) 0 = s.rd .winAcceptCnt (hdrWindow h / 512) 0 + 1#64 := by
  have hcounted := s.countAccept_reach h
  have hcount := s.countAccept_rd h
  have hlink : ∀ k, (s.countAccept h).link k = s.link k := fun _ => rfl
  have hlandings : (s.countAccept h).fabric.landings = [] := hnone
  generalize s.countAccept h = u at hcounted hcount hlink hlandings
  refine ⟨hcounted.then (u.addLanding_reach g) rfl, ?_, hlink, hcount⟩
  rw [State.addLanding]
  simp only [hlandings, List.nil_append]

/-- R496, R497: an accepted GET_REQ answered at once with ACCEPT and GET_DATA. -/
theorem State.acceptMsg_answers {s : State} {link : Option (Fin 16)} {h : Words4} {ls : List LineSeg} {k : Nat} (hget : mtype h = 2)
    (hother : srcPkg h ≠ s.ownPkg) (hroute : s.routeLink (hdrWindow h / 512) (srcPkg h) = some k) (hnone : s.fabric.landings = [])
    (hfree : s.getHeld (s.landingFor link h none) = false)
    (hread : (s.readLines (s.landingFor link h none) (s.landingFor link h none).left).2 = (ls, 0)) :
    ((s.acceptMsg link h []).link k).tx1 = (s.link k).tx1 ++ [{ header := some (setVia (answer h 4 0 0 0) false) },
      { header := some (setVia (answer h 3 0 0 0) false), lines := ls, answers := some s.fabric.landingNum }] ∧
    (s.acceptMsg link h []).rd .winAcceptCnt (hdrWindow h / 512) 0 = s.rd .winAcceptCnt (hdrWindow h / 512) 0 + 1#64 ∧
    (s.acceptMsg link h []).fabric.landings = [{ s.landingFor link h none with left := [] }] := by
  obtain ⟨hadded, hone, hlink, hcount⟩ := s.addLanding_first h (s.landingFor link h none) hnone
  have hg : (s.countAccept h).landingFor link h none = s.landingFor link h none := rfl
  rw [State.acceptMsg_get hget, hg]
  obtain ⟨hnum, hheader, hdie, hisget⟩ : (s.landingFor link h none).num = s.fabric.landingNum ∧ (s.landingFor link h none).header = h ∧
      (s.landingFor link h none).die = hdrWindow h / 512 ∧ (s.landingFor link h none).get = true :=
    ⟨rfl, rfl, rfl, by rw [State.landingFor, hget]; rfl⟩
  have hleft := s.landingFor_left link h none
  generalize s.landingFor link h none = g at hadded hone hlink hcount hfree hread hnum hheader hdie hisget hleft
  generalize (s.countAccept h).addLanding g = v at hadded hone hlink hcount
  rw [State.post_answer (by rwa [hadded.ownPkg_eq rfl]) ((hadded.routeLink_eq rfl rfl _ _).trans hroute) (by decide)]
  have hsent := hadded.then (State.enqueue_reach v k { header := some (setVia (answer h 4 0 0 0) false) } 1) rfl
  have htx := v.tx1_enqueue k { header := some (setVia (answer h 4 0 0 0) false) }
  have hone' : (v.enqueue k { header := some (setVia (answer h 4 0 0 0) false) } 1).fabric.landings = [g] := hone
  have hcount' : (v.enqueue k { header := some (setVia (answer h 4 0 0 0) false) } 1).rd .winAcceptCnt (hdrWindow h / 512) 0 =
    s.rd .winAcceptCnt (hdrWindow h / 512) 0 + 1#64 := hcount
  generalize v.enqueue k { header := some (setVia (answer h 4 0 0 0) false) } 1 = x at hsent htx hone' hcount'
  have halike := hsent.readsAlike (by decide)
  obtain ⟨hrd, hlandings, hdata⟩ := State.settleLandings_answers hone' hisget hleft ((halike.getHeld g).trans hfree)
    ((halike.readLines g g.left).2.trans hread) (by rwa [hheader, hsent.ownPkg_eq rfl]) (by rwa [hheader, hdie, hsent.routeLink_eq rfl rfl])
    (hdrWindow h / 512)
  refine ⟨?_, hrd.trans hcount', hlandings⟩
  rw [hdata, htx, hlink, hheader, hnum, List.append_assoc]
  rfl

end Sys2Proof.Machine
end

section
/-!
SUPPORT. The one line of a PUT stored at its window's target, and the statement about messages at the target (spec/10_links_and_windows.md R488,
R495 to R500, R505).
-/
namespace Sys2Proof.Machine

/-! ## Sectors stored one after another (R377, R496) -/

theorem State.memBytes_sectors (s : State) (pa n : Nat) : s.memBytes pa (32 * n) = (List.range n).flatMap fun k => s.memBytes (pa + 32 * k) 32 := by
  induction n with
  | zero => rfl
  | succ n ih =>
    rw [List.range_succ, List.flatMap_append, ← ih, List.flatMap_singleton]
    simp only [State.memBytes, Nat.mul_succ, List.range_add, List.map_append, List.map_map, Function.comp_def, Nat.add_assoc]

/-- The sectors of a run written in order for a message. -/
def State.storeSectors (s : State) (g : Landing) (pa : Nat) (chunk : Nat → List Byte) (n : Nat) : State :=
  (List.range n).foldl (fun u k => u.devWrite (u.landingAccess g) (pa + 32 * k) (chunk k)) s

theorem State.storeSectors_succ (s : State) (g : Landing) (pa : Nat) (chunk : Nat → List Byte) (n : Nat) : s.storeSectors g pa chunk (n + 1) =
    (s.storeSectors g pa chunk n).devWrite ((s.storeSectors g pa chunk n).landingAccess g) (pa + 32 * n) (chunk n) := by
  rw [State.storeSectors, List.range_succ, List.foldl_append]
  rfl

theorem State.storeSectors_reach (s : State) (g : Landing) (pa : Nat) (chunk : Nat → List Byte) (n : Nat) :
    Reach 0x40001000000000000000000000000001022011f820000000000000000000000000087c1d s (s.storeSectors g pa chunk n) :=
  .foldl _ (.refl ..) fun _ _ hu => hu.then (State.devWrite_reach ..) rfl

theorem AccessKept.storeSectors {r s : State} (h : AccessKept r s) (g : Landing) (pa : Nat) (chunk : Nat → List Byte) (n : Nat) :
    AccessKept r (s.storeSectors g pa chunk n) := h.foldl _ fun _ _ hu => hu.devWrite ..

/-- Sectors that are all stored at once: each holds its bytes, and nothing else is changed. -/
theorem State.storeSectors_stored {s : State} {pa : Nat} {chunk : Nat → List Byte} (g : Landing) (hpa : pa % 32 = 0) {n : Nat}
    (hlen : ∀ k < n, (chunk k).length = 32) (hnow : ∀ k < n, s.takesNow (pa + 32 * k) 32 = true) :
    (∀ k < n, (s.storeSectors g pa chunk n).memBytes (pa + 32 * k) 32 = chunk k) ∧
    (∀ a, a < pa ∨ pa + 32 * n ≤ a → (s.storeSectors g pa chunk n).rdByte a = s.rdByte a) ∧ StoresKept s (s.storeSectors g pa chunk n) := by
  induction n with
  | zero => exact ⟨fun k hk => absurd hk (Nat.not_lt_zero k), fun _ _ => rfl, .of_reach (.refl 0 s) (by decide)⟩
  | succ n ih =>
    obtain ⟨hbytes, hout, hkept⟩ := ih (fun k hk => hlen k (by omega)) (fun k hk => hnow k (by omega))
    rw [State.storeSectors_succ]
    obtain ⟨hlast, halone, hlater⟩ := State.devWrite_sector (s := s.storeSectors g pa chunk n) (by omega : (pa + 32 * n) % 32 = 0) (hlen n (by omega))
      (hkept.takesNow (hnow n (by omega))) ((s.storeSectors g pa chunk n).landingAccess g)
    refine ⟨fun k hk => ?_, fun a ha => (halone.rdByte a (by omega)).trans (hout a (by omega)), hkept.trans hlater⟩
    by_cases hkn : k = n
    · rw [hkn, hlast]
    · rw [halone.memBytes (by omega) (by omega), hbytes k (by omega)]

/-! ## The line of a PUT (R488, R496, R499) -/

theorem hdrLen_pos (h : Words4) : 0 < hdrLen h := Nat.succ_pos _

/-- What a line's segment holds for a sector of its run. -/
def lineChunk (offset : Nat) (l : LineSeg) (k : Nat) : List Byte := ((bytesOf l.data.toNat 128).drop (32 * (offset % 4) + 32 * k)).take 32

theorem length_lineChunk {offset len k : Nat} (l : LineSeg) (hone : lineCount offset len = 1) (hk : k < len) : (lineChunk offset l k).length = 32 := by
  rw [lineCount] at hone
  rw [lineChunk, List.length_take, List.length_drop, length_bytesOf]
  omega

theorem flatMap_lineChunk (offset len : Nat) (l : LineSeg) :
    (List.range len).flatMap (lineChunk offset l) = ((bytesOf l.data.toNat 128).drop (32 * (offset % 4))).take (32 * len) := by
  rw [← flatMap_take_units]
  refine congrArg (fun f => (List.range len).flatMap f) (funext fun k => ?_)
  rw [lineChunk, List.drop_drop]

/-- A whole line of a run that lies in it, to pages present and writable. -/
theorem State.writeLine_stores {s : State} {g : Landing} {l : LineSeg} {pa : Nat} (hone : lineCount (hdrOffset g.header) (hdrLen g.header) = 1)
    (hpoison : l.poison = false) (hplace : ∀ k < hdrLen g.header, s.winPlace g (32 * k) true = some (pa + 32 * k)) :
    s.writeLine g 0 l = (s.storeSectors g pa (lineChunk (hdrOffset g.header) l) (hdrLen g.header), 0) := by
  have hplaces : ((lineUnits (hdrOffset g.header) (hdrLen g.header) 0).map fun u => s.winPlace g u.1 true) =
      (List.range (hdrLen g.header)).map fun k => some (pa + 32 * k) := by
    rw [lineUnits_of_one (hdrLen_pos _) hone, List.map_map]
    exact List.map_congr_left fun k hk => hplace k (List.mem_range.mp hk)
  have hnone : (((List.range (hdrLen g.header)).map fun k => some (pa + 32 * k)).any Option.isNone) = false := by
    simp
  simp only [State.writeLine, hplaces, hnone, Bool.false_eq_true, if_false, hpoison]
  rw [lineUnits_of_one (hdrLen_pos _) hone, List.zip_map', List.foldl_map]
  rfl

theorem lineTries_of_good {good : LineSeg → Bool} {l : LineSeg} (hgood : good l = true) (retry : Nat) : lineTries retry good 0 [l] = (some l, 0, false) := by
  rw [lineTries, if_pos hgood]

/-- A line that came whole at its first try is written. -/
theorem State.takeLines_good {s u : State} {g : Landing} {l : LineSeg} {i st : Nat} {t : LineTries}
    (hgood : lineTries (s.dnat dkLineCrcRetry) (segGood g.header i) 0 t = (some l, 0, false)) (hwritten : s.writeLine g i l = (u, st))
    (ts : List LineTries) : s.takeLines g i (t :: ts) =
      u.takeLines { g with left := g.left.filter (· != i), status := if g.status = 0 then st else g.status } (i + 1) ts := by
  rw [State.takeLines, hgood]
  dsimp only
  rw [List.range_zero, List.foldl_nil, hwritten]

theorem State.takeLines_one {s u : State} {g : Landing} {l : LineSeg} {st : Nat} (hgood : segGood g.header 0 l = true) (hleft : g.left = [0])
    (hstatus : g.status = 0) (hwritten : s.writeLine g 0 l = (u, st)) : s.takeLines g 0 [[l]] = (u, { g with left := [], status := st }) := by
  have hdone : ([0] : List Nat).filter (· != 0) = [] := rfl
  rw [State.takeLines_good (lineTries_of_good hgood _) hwritten, State.takeLines, hleft, hdone, if_pos hstatus]

theorem State.finishLanding_lands {g : Landing} (hstatus : g.status = 0) (hslot : g.slot = none) (hsignal : hdrSignal g.header = false) (s : State) :
    s.finishLanding g = (s.dataGone (some g.num)).post g.die (answer g.header 6 stOk 0 0) [] := by
  simp only [State.finishLanding, hstatus, hslot, hsignal, Bool.false_eq_true, if_false, if_true]

/-- The only message begun, a PUT whose lines are all written: it ends with LANDED (R497, R500). -/
theorem State.settleLandings_lands {s : State} {g : Landing} {k : Nat} (hone : s.fabric.landings = [g]) (hput : g.get = false) (hleft : g.left = [])
    (hstatus : g.status = 0) (hslot : g.slot = none) (hsignal : hdrSignal g.header = false)
    (haccepted : (s.heldWrites.any fun w : HeldWrite => w.by_.msg == some g.num) = false) (hother : srcPkg g.header ≠ s.ownPkg)
    (hroute : s.routeLink g.die (srcPkg g.header) = some k) :
    Reach 0x4000000000000000000000000000000000000000000000000000000800000 s s.settleLandings ∧ s.settleLandings.fabric.landings = [] ∧
    (s.settleLandings.link k).tx1 = (s.link k).tx1 ++ [{ header := some (setVia (answer g.header 6 stOk 0 0) false) }] := by
  rw [State.settleLandings_of_one hone, State.settleLanding_finishes hput hleft haccepted, State.finishLanding_lands hstatus hslot hsignal]
  have hgone := s.dataGone_reach (some g.num)
  have hempty := State.dataGone_one hone
  have hlink := s.link_dataGone (some g.num) k
  generalize s.dataGone (some g.num) = u at hgone hempty hlink
  rw [State.post_answer (by rwa [hgone.ownPkg_eq rfl]) ((hgone.routeLink_eq rfl rfl _ _).trans hroute) (by decide)]
  have hsent := hgone.then (State.enqueue_reach u k { header := some (setVia (answer g.header 6 stOk 0 0) false) } 1) rfl
  have htx := u.tx1_enqueue k { header := some (setVia (answer g.header 6 stOk 0 0) false) }
  have hempty' : (u.enqueue k { header := some (setVia (answer g.header 6 stOk 0 0) false) } 1).fabric.landings = [] := hempty
  generalize u.enqueue k { header := some (setVia (answer g.header 6 stOk 0 0) false) } 1 = v at hsent htx hempty'
  obtain ⟨hlinks, hsettled, -, -⟩ := v.settleSignals_kept
  exact ⟨(hsent.mono rfl).then (State.settleSignals_reach v) rfl, hsettled.trans hempty', by rw [hlinks, htx, hlink]⟩

/-- R496: the state in which an accepted PUT of one line has that line written. -/
theorem State.acceptMsg_one {s u : State} {link : Option (Fin 16)} {h : Words4} {l : LineSeg} (hput : mtype h = 1)
    (hring : s.winRing (hdrWindow h / 512) (hdrWindow h % 512) = false) (hone : lineCount (hdrOffset h) (hdrLen h) = 1) (hgood : segGood h 0 l = true)
    (hwritten : ((s.countAccept h).addLanding (s.landingFor link h none)).writeLine (s.landingFor link h none) 0 l = (u, 0)) :
    s.acceptMsg link h [[l]] = (u.putLanding { s.landingFor link h none with left := [], status := 0 }).settleLandings := by
  have hg : (s.countAccept h).landingFor link h none = s.landingFor link h none := rfl
  have hleft : (s.landingFor link h none).left = [0] := by rw [State.landingFor, hone]; rfl
  have hheader : segGood (s.landingFor link h none).header 0 l = true := hgood
  rw [State.acceptMsg_put hput hring (by omega), hg, State.takeLines_one hheader hleft rfl hwritten]

theorem Reach.rdByte_eq {F : Nat} {s t : State} (h : Reach F s t) (hmem : F.testBit 0 = false) (a : Nat) : t.rdByte a = s.rdByte a :=
  congrArg (lookupD 0#8 a) (h.same .mem hmem)

/-- R496, R500: an accepted PUT of one whole line to pages present and writable, whose sectors are all stored at once. -/
theorem State.acceptMsg_stores {s : State} {link : Option (Fin 16)} {h : Words4} {l : LineSeg} {k pa : Nat} (hput : mtype h = 1)
    (hring : s.winRing (hdrWindow h / 512) (hdrWindow h % 512) = false) (hone : lineCount (hdrOffset h) (hdrLen h) = 1) (hgood : segGood h 0 l = true)
    (hpoison : l.poison = false) (hsignal : hdrSignal h = false) (hpa : pa % 32 = 0)
    (hplace : ∀ j < hdrLen h, s.winPlace (s.landingFor link h none) (32 * j) true = some (pa + 32 * j))
    (hnow : ∀ j < hdrLen h, s.takesNow (pa + 32 * j) 32 = true)
    (hheld : (s.heldWrites.any fun w : HeldWrite => w.by_.msg == some s.fabric.landingNum) = false) (hnone : s.fabric.landings = [])
    (hother : srcPkg h ≠ s.ownPkg) (hroute : s.routeLink (hdrWindow h / 512) (srcPkg h) = some k) :
    (s.acceptMsg link h [[l]]).memBytes pa (32 * hdrLen h) = ((bytesOf l.data.toNat 128).drop (32 * (hdrOffset h % 4))).take (32 * hdrLen h) ∧
    ((s.acceptMsg link h [[l]]).rd .winAcceptCnt (hdrWindow h / 512) 0 = s.rd .winAcceptCnt (hdrWindow h / 512) 0 + 1#64 ∧
      (s.acceptMsg link h [[l]]).fabric.landings = []) ∧
    ((s.acceptMsg link h [[l]]).link k).tx1 = (s.link k).tx1 ++ [{ header := some (setVia (answer h 6 stOk 0 0) false) }] ∧
    ∀ a, a < pa ∨ pa + 32 * hdrLen h ≤ a → (s.acceptMsg link h [[l]]).rdByte a = s.rdByte a := by
  obtain ⟨hbegun, hfirst, hlink, hcount⟩ := s.addLanding_first h (s.landingFor link h none) hnone
  have hwrite := State.acceptMsg_one (link := link) hput hring hone hgood (State.writeLine_stores (g := s.landingFor link h none)
    (s := (s.countAccept h).addLanding (s.landingFor link h none)) hone hpoison fun j hj =>
      (hbegun.winPlace_eq (by decide) rfl rfl rfl ..).trans (hplace j hj))
  rw [hwrite]
  obtain ⟨hnum, hdie, hheader, hget, hslot⟩ : (s.landingFor link h none).num = s.fabric.landingNum ∧ (s.landingFor link h none).die = hdrWindow h / 512 ∧
      (s.landingFor link h none).header = h ∧ (s.landingFor link h none).get = false ∧ (s.landingFor link h none).slot = none :=
    ⟨rfl, rfl, rfl, by rw [State.landingFor, hput]; rfl, rfl⟩
  clear hwrite hplace
  generalize s.landingFor link h none = g at hbegun hfirst hlink hcount hnum hdie hheader hget hslot
  rw [hheader]
  generalize (s.countAccept h).addLanding g = v at hbegun hfirst hlink hcount
  obtain ⟨hbytes, hout, hkept⟩ := State.storeSectors_stored (s := v) (chunk := lineChunk (hdrOffset h) l) g hpa
    (fun j hj => length_lineChunk l hone hj) fun j hj => (StoresKept.of_reach hbegun (by decide)).takesNow (hnow j hj)
  have hstored := v.storeSectors_reach g pa (lineChunk (hdrOffset h) l) (hdrLen h)
  have hown := ((AccessKept.refl v).storeSectors g pa (lineChunk (hdrOffset h) l) (hdrLen h)).ownPkg
  have hwaits := hkept.waits.held s.fabric.landingNum (by rwa [hbegun.same .heldWrites rfl])
  generalize v.storeSectors g pa (lineChunk (hdrOffset h) l) (hdrLen h) = w at hbytes hout hstored hown hwaits
  have hput' := w.putLanding_reach { g with left := [], status := 0 }
  have hone' : (w.putLanding { g with left := [], status := 0 }).fabric.landings = [{ g with left := [], status := 0 }] :=
    State.putLanding_one ((congrArg Fabric.landings (hstored.same .fabric rfl)).trans hfirst) rfl
  have hlink' : (w.putLanding { g with left := [], status := 0 }).link k = s.link k := (hstored.link_eq rfl k).trans (hlink k)
  generalize w.putLanding { g with left := [], status := 0 } = x at hput' hone' hlink'
  obtain ⟨hdone, hlandings, htx⟩ := State.settleLandings_lands hone' hget rfl rfl hslot (by rwa [hheader])
    (by rwa [hput'.same .heldWrites rfl, hnum]) (by rwa [hheader, hput'.ownPkg_eq rfl, hown, hbegun.ownPkg_eq rfl])
    (by rwa [hheader, hdie, hput'.routeLink_eq rfl rfl, hstored.routeLink_eq rfl rfl, hbegun.routeLink_eq rfl rfl])
  have hdone := (hput'.mono rfl).trans hdone
  refine ⟨?_, ⟨?_, hlandings⟩, ?_, fun a ha => ?_⟩
  · rw [hdone.memBytes_eq rfl rfl, State.memBytes_sectors, ← flatMap_lineChunk]
    exact List.flatMap_congr fun j hj => hbytes j (List.mem_range.mp hj)
  · rw [hdone.rd_eq .winAcceptCnt rfl, hstored.rd_eq .winAcceptCnt rfl, hcount]
  · rw [htx, hlink', hheader]
  · rw [hdone.rdByte_eq rfl, hout a ha, hbegun.rdByte_eq rfl]

/-- A header of another package behind none that waits, that fills no slot of a ring, is accepted unless refused. -/
theorem State.headerArrives_accepts {s : State} {link : Option (Fin 16)} {h : Words4} (hother : srcPkg h ≠ s.ownPkg)
    (hfirst : (s.fabric.ringWaits.any fun w : RingWait => w.before (hdrWindow h / 512) link) = false) (hrefusal : s.refusal h = none)
    (hplain : mtype h ≠ 1 ∨ s.winRing (hdrWindow h / 512) (hdrWindow h % 512) = false) (lines : List LineTries) :
    s.headerArrives link h lines = (s.leaveInbox h).acceptMsg link h lines := by
  have hu := s.leaveInbox_reach h
  rw [State.headerArrives_takes hother hfirst]
  refine State.takeHeader_accepts ((hu.refusal_eq rfl rfl rfl h).trans hrefusal) (fun hput hring => ?_) link lines
  exact (hplain.elim (absurd hput) fun hnot => Bool.false_ne_true (hnot.symm.trans hring)).elim

/-! ## The obligation -/

/-- Settles O37: a header is refused or accepted by its window's entry, which an arrival leaves; what an accepted one comes to is said for each
kind of message. -/
theorem windowMessagesAtTheTarget : Obligations.WindowMessagesAtTheTarget := by
  refine ⟨?putRefused, ?putStored, ?getRefused, ?getAnswered, ?filled, ?torn⟩
  case putRefused =>
    rintro s link header lines cause k die ⟨htype, hfirst, hrefusal⟩ ⟨hother, hroute⟩
    obtain ⟨hcount, htx, hmem⟩ := State.headerArrives_refuses hfirst hrefusal hother hroute lines
    exact ⟨_, congrArg Host.Outcome.next (if_pos htype), hcount, htx, hmem⟩
  case getRefused =>
    rintro s link header cause k die ⟨htype, hfirst, hrefusal⟩ ⟨hother, hroute⟩
    obtain ⟨hcount, htx, hmem⟩ := State.headerArrives_refuses hfirst hrefusal hother hroute []
    exact ⟨_, congrArg Host.Outcome.next (if_pos htype), hcount, htx, hmem⟩
  case putStored =>
    rintro s link header seg k pa die e n g ⟨htype, hfirst, hrefusal⟩ ⟨hother, hroute, hring, hnone⟩ ⟨hone, hgood, hpoison, hsignal⟩ ⟨hpa, hplaces⟩ hheld
    have hu := s.leaveInbox_reach header
    have hg : (s.leaveInbox header).landingFor link header none = g := by
      rw [State.landingFor, htype, hone]
      rfl
    obtain ⟨hbytes, ⟨hcount, hlandings⟩, htx, hout⟩ := State.acceptMsg_stores (s := s.leaveInbox header) (link := link) htype hring hone hgood hpoison
      hsignal hpa (fun j hj => by rw [hg, hu.winPlace_eq (by decide) rfl rfl rfl]; exact (hplaces j (List.mem_range.mpr hj)).1)
      (fun j hj => (StoresKept.of_reach hu (by decide)).takesNow (hplaces j (List.mem_range.mpr hj)).2) hheld hnone (by rwa [hu.ownPkg_eq rfl])
      ((hu.routeLink_eq rfl rfl _ _).trans hroute)
    refine ⟨_, congrArg Host.Outcome.next ((if_pos htype).trans (State.headerArrives_accepts hother hfirst hrefusal (.inr hring) [[seg]])),
      hbytes, ⟨hcount.trans ?_, hlandings⟩, htx, fun a ha => (hout a ha).trans ?_⟩
    · rw [hu.rd_eq .winAcceptCnt rfl]
    · exact hu.rdByte_eq rfl a
  case getAnswered =>
    rintro s link header k ls die n g ⟨htype, hfirst, hrefusal⟩ ⟨hother, hroute, hnone⟩ ⟨hfree, hread⟩
    have hu := s.leaveInbox_reach header
    have halike := hu.readsAlike (by decide)
    have hg : (s.leaveInbox header).landingFor link header none = g := by
      rw [State.landingFor, htype]
      rfl
    obtain ⟨htx, hcount, hlandings⟩ := State.acceptMsg_answers (s := s.leaveInbox header) (link := link) (ls := ls) htype (by rwa [hu.ownPkg_eq rfl])
      ((hu.routeLink_eq rfl rfl _ _).trans hroute) hnone (by rw [hg, halike.getHeld, hfree])
      (by rw [hg]; exact (halike.readLines g (List.range n)).2.trans hread)
    rw [hg] at hlandings
    refine ⟨_, congrArg Host.Outcome.next ((if_pos htype).trans (State.headerArrives_accepts hother hfirst hrefusal (.inl ?_) [])), htx, ?_, hlandings⟩
    · omega
    · rw [hcount, hu.rd_eq .winAcceptCnt rfl]
  case filled =>
    rintro s die w e ring slot ⟨hone, hdie, hwindow, hlines, hrefusal⟩ ⟨htype, hring, hempty, htable, hnone⟩
    have hu := s.withoutWaits_reach
    have hstage : s.withoutWaits.winStage die.val e = ring := rfl
    have hepoch : s.withoutWaits.epochRec die.val e = s.epochRec die.val e := rfl
    obtain ⟨⟨hwaits, htoken⟩, hcount⟩ := State.acceptMsg_fills (s := s.withoutWaits) htype (by rw [hwindow]; exact hring)
      (by rw [hwindow, hu.tokenTable (by decide)]; exact htable) hnone w.link
    rw [hwindow, hstage, hepoch] at htoken
    rw [hwindow, hu.rd_eq .winAcceptCnt rfl] at hcount
    refine ⟨_, congrArg Host.Outcome.next ((ringSlotAcceptEffect_of_one hone hdie).trans ?_), ⟨hwaits, htoken⟩, hcount⟩
    rw [hlines]
    refine State.takeHeader_accepts ((hu.refusal_eq rfl rfl rfl _).trans hrefusal) (fun _ _ => ?_) w.link []
    rw [hwindow, hstage, hepoch, hu.headEmpty_eq (by decide) rfl rfl rfl]
    exact hempty
  case torn =>
    rintro s tag pkg ms g ⟨hlate, hone, hput, hleft, hslot⟩ ⟨htag, hpkg, hstatus, hheld⟩
    refine ⟨_, congrArg Host.Outcome.next (msgResponseTimeoutEffect_tears hlate hone hput hleft htag hpkg hstatus), ?_⟩
    have htorn := State.settleLandings_tears (s := s.putLanding { g with left := [], status := stPeerLost })
      (State.putLanding_one hone rfl) hput rfl (show stPeerLost ≠ 0 by decide) hslot hheld
    exact htorn

end Sys2Proof.Machine
end

section
/-!
SUPPORT. Running collectives (spec/11_collectives_and_mapping.md), said once for each operation: which collective is found after one is set or
has ended, what a piece leaves in its link's queue and in the count of pieces, and how a collective ends at a rank.
-/
namespace Sys2Proof.Machine

/-! ## Collectives found and set -/

theorem State.findColl_congr {s t : State} (h : t.coll.running = s.coll.running) (cluster launch : Nat) :
    t.findColl cluster launch = s.findColl cluster launch := by
  rw [State.findColl, State.findColl, h]

/-- A collective found is the one that was asked for. -/
theorem State.findColl_named {s : State} {cluster launch : Nat} {c : Coll} (h : s.findColl cluster launch = some c) :
    c.cluster = cluster ∧ c.launch = launch := by
  simpa using List.find?_some h

/-- A collective found is found as it is set. -/
theorem State.findColl_setColl {s : State} {c d : Coll} (h : s.findColl d.cluster d.launch = some c) :
    (s.setColl d).findColl d.cluster d.launch = some d := by
  have hnames : (fun x : Coll => x.cluster == d.cluster && x.launch == d.launch) ∘ (fun x : Coll => if x.same d then d else x) =
      fun x => x.cluster == d.cluster && x.launch == d.launch := by
    funext x
    rw [Function.comp]
    split
    case isTrue hsame => rw [beq_self_eq_true, beq_self_eq_true, Bool.and_true]; exact hsame.symm
    case isFalse => rfl
  have hsame : c.same d = true := by
    obtain ⟨hcluster, hlaunch⟩ := State.findColl_named h
    rw [Coll.same, hcluster, hlaunch, beq_self_eq_true, beq_self_eq_true, Bool.and_true]
  rw [State.findColl, State.setColl, List.find?_map, hnames, ← State.findColl, h, Option.map_some, if_pos hsame]

/-- The pieces held back and the numbers issued are as before: only running collectives have moved on. -/
structure ListsKept (s t : State) : Prop where
  early : t.coll.early = s.coll.early
  issued : t.coll.issued = s.coll.issued

namespace ListsKept
variable {r s t : State}

theorem refl (s : State) : ListsKept s s := ⟨rfl, rfl⟩

theorem trans (h : ListsKept r s) (k : ListsKept s t) : ListsKept r t := ⟨k.early.trans h.early, k.issued.trans h.issued⟩

/-- What does not reach the collective engines. -/
theorem reach {F : Nat} (h : ListsKept r s) (k : Reach F s t) (m : F.testBit 24 = false) : ListsKept r t :=
  h.trans ⟨congrArg CollEngine.early (k.same .coll m), congrArg CollEngine.issued (k.same .coll m)⟩

theorem ite {c : Prop} {_ : Decidable c} (h : ListsKept r s) (k : ListsKept r t) : ListsKept r (if c then s else t) := by
  split
  · exact h
  · exact k

theorem foldl {β : Type} {f : State → β → State} (l : List β) (h : ListsKept r s) (hf : ∀ t x, ListsKept r t → ListsKept r (f t x)) :
    ListsKept r (l.foldl f s) :=
  List.foldlRecOn l f h fun t ht x _ => hf t x ht

theorem setColl (h : ListsKept r s) (c : Coll) : ListsKept r (s.setColl c) := h.trans ⟨rfl, rfl⟩

end ListsKept

/-- R563: with no piece held back there is none to offer again. -/
theorem State.settlePieces_of_none {s : State} (h : s.coll.early = []) : s.settlePieces = s := by
  have hsame : ({ s with coll := { s.coll with early := [] } } : State) = s := by rw [← h]
  simp only [State.settlePieces, State.settleEarly, h, List.foldl_nil, List.length_nil, Nat.lt_irrefl, if_false, hsame]

/-! ## Pieces sent (R512, R513) -/

/-- The cells that a die's group is read from. -/
abbrev groupCells : List Cell := [.dict, .reg .collGroupW0, .reg .collGroupW1, .reg .collGroupW2]

/-- A die's group is what its entry holds. -/
theorem Reach.groupOf_eq {F : Nat} {s t : State} (h : Reach F s t) (hout : ∀ c ∈ groupCells, F.testBit c.code = false) (die g : Nat) :
    t.groupOf die g = s.groupOf die g := by
  have hfld : ∀ f : Field, Cell.reg f.reg ∈ groupCells → t.fld f die g = s.fld f die g := fun f hf => h.fld_eq f (hout _ hf) die g
  simp only [State.groupOf, h.ownPkg_eq (hout .dict (by decide)), hfld collGroupW0Kind (by decide), hfld collGroupW0DegreeM1 (by decide),
    hfld collGroupW0Valid (by decide), hfld collGroupW0Rank (by decide), hfld collGroupW0Dirs (by decide), hfld collGroupW0MemberGen (by decide),
    hfld collGroupW1NextPkg (by decide), hfld collGroupW1NextDie (by decide), hfld collGroupW1UpLinks (by decide), hfld collGroupW1PrevPkg (by decide),
    hfld collGroupW1PrevDie (by decide), hfld collGroupW1DownLinks (by decide), hfld collGroupW2ListAddr (by decide)]

/-- The links of a group's mask that are UP, in a direction. -/
def State.upLinks (s : State) (die : Nat) (g : Group) (up : Bool) : List Nat :=
  (List.range 8).filter fun n => (if up then g.up else g.down) / 2 ^ n % 2 == 1 && s.linkState (die * 8 + n) == 5

/-- A message to a neighbour that one link leads to joins that link's queue. -/
theorem State.toNeighbour_of_one {s : State} {die k : Nat} {g : Group} {up : Bool} (hone : s.upLinks die g up = [k]) (i : Nat) (h : Words4)
    (lines : List LineSeg) : s.toNeighbour die g up i h lines = s.enqueue (die * 8 + k) { header := some h, lines := lines } 2 := by
  unfold State.upLinks at hone
  simp only [State.toNeighbour, hone, List.length_singleton, Nat.mod_one, List.getElem?_cons_zero]

/-- R513, R568: a piece sent is counted. -/
theorem State.sendPiece_count (s : State) (c : Coll) (up : Bool) (mt piece chunk step part stamp : Nat) (lines : List LineSeg) :
    (s.sendPiece c up mt piece chunk step part stamp lines).rd .collPieceTxCnt c.die 0 = s.rd .collPieceTxCnt c.die 0 + 1#64 :=
  ((State.toNeighbour_reach ..).rd_eq _ rfl _ _).trans (State.rd_bump_self ..)

/-- A piece to a neighbour that one link leads to joins that link's queue with its lines. -/
theorem State.sendPiece_lines {s : State} {c : Coll} {up : Bool} {k : Nat} (hone : s.upLinks c.die (s.groupOf c.die c.group) up = [k])
    (mt piece chunk step part stamp : Nat) (lines : List LineSeg) :
    (((s.sendPiece c up mt piece chunk step part stamp lines).link (c.die * 8 + k)).tx2.map fun m => m.lines) =
      ((s.link (c.die * 8 + k)).tx2.map fun m => m.lines) ++ [lines] := by
  have hone' : (s.bump .collPieceTxCnt c.die 0 1).upLinks c.die (s.groupOf c.die c.group) up = [k] := by
    simp only [State.upLinks, State.linkState, State.fld_bump_ne (show fabStatusState.reg ≠ .collPieceTxCnt by decide)]
    exact hone
  rw [State.sendPiece, State.toNeighbour_of_one hone', State.link_enqueue]
  simp only [Link.setTx, Link.tx, List.map_append, List.map_cons, List.map_nil]
  rfl

/-! ## The end at a rank (R528, R559, R568) -/

/-- A collective that ends taken from those that run, and traced where it failed. -/
def State.endRun (s : State) (c : Coll) (status : Nat) : State :=
  (if goodStatus status then s else s.traceRank c true).dropColl c

theorem State.endRun_coll (s : State) (c : Coll) (status : Nat) : (s.endRun c status).coll = (s.dropColl c).coll := by
  have htraced : (if goodStatus status then s else s.traceRank c true).coll = s.coll := by
    split
    · rfl
    · exact (State.traceRank_reach ..).same .coll rfl
  rw [State.endRun, State.dropColl, State.dropColl, htraced]

theorem State.endRun_reach (s : State) (c : Coll) (status : Nat) :
    Reach 0x20000000000000000000000000000000000000000000000000000000000001400000 s (s.endRun c status) :=
  .then (.ite (.refl ..) ((State.traceRank_reach ..).mono rfl)) (State.dropColl_reach ..) rfl

/-- The counts of a collective that ends (R568). -/
def State.countEnd (s : State) (c : Coll) (status : Nat) : State :=
  let t := (s.endRun c status).bump .collOpCnt c.die 0 1
  let t := if status = stAborted then t.bump .collAbortCnt c.die 0 1 else t
  if status = stPeerLost then t.bump .collPeerLostCnt c.die 0 1 else t

theorem State.countEnd_reach (s : State) (c : Coll) (status : Nat) :
    Reach 0x30400000000000000000000000000000000000000000000000000 (s.endRun c status) (s.countEnd c status) := by
  have hended : Reach 0x30400000000000000000000000000000000000000000000000000 (s.endRun c status) ((s.endRun c status).bump .collOpCnt c.die 0 1) :=
    .bump (.refl ..) rfl
  have haborted := Reach.ite (c := status = stAborted) (hended.bump (a := .collAbortCnt) (u := c.die) (i := 0) (n := 1) rfl) hended
  exact .ite (haborted.bump rfl) haborted

/-- What follows the counts of an end reaches neither the counters nor the collectives that go on. -/
theorem State.endColl_reach_counted (s : State) (c : Coll) (status : Nat) (tell : Bool) :
    Reach 0x40003000000741000008000000000001022011fa200c0120000800000000000002d87cfd (s.countEnd c status) (s.endColl c status tell) := by
  unfold State.endColl
  extract_lets traced dropped ended aborted lost told recorded emptied fed
  have htold : Reach 0x40003000000741000008000000000001022011fa200c0120000800000000000002d87cfd lost told :=
    .ite ((((Reach.refl _ _).then (State.sendAbort_reach ..) rfl)).then (State.sendAbort_reach ..) rfl) (.refl ..)
  have hrecorded : Reach 0x40003000000741000008000000000001022011fa200c0120000800000000000002d87cfd lost recorded :=
    htold.then (State.rankRecord_reach ..) rfl
  have hemptied : Reach 0x40003000000741000008000000000001022011fa200c0120000800000000000002d87cfd lost emptied := by
    refine .ite ?_ hrecorded
    split
    · exact hrecorded.then (State.emptyRing_reach ..) rfl
    · exact hrecorded
  have hfed : Reach 0x40003000000741000008000000000001022011fa200c0120000800000000000002d87cfd lost fed := by
    refine .ite ?_ hemptied
    split
    · exact hemptied.then (State.endChain_reach ..) rfl
    · exact hemptied
  exact hfed.then (State.seqAfterColl_reach ..) rfl

theorem State.countEnd_coll (s : State) (c : Coll) (status : Nat) : (s.countEnd c status).coll = (s.dropColl c).coll :=
  ((s.countEnd_reach c status).same .coll rfl).trans (s.endRun_coll c status)

/-- A collective that ends goes, and the others stay as they are. -/
theorem State.endColl_coll (s : State) (c : Coll) (status : Nat) (tell : Bool) : (s.endColl c status tell).coll = (s.dropColl c).coll :=
  ((s.endColl_reach_counted c status tell).same .coll rfl).trans (s.countEnd_coll c status)

theorem ListsKept.endColl {r s : State} (h : ListsKept r s) (c : Coll) (status : Nat) (tell : Bool) : ListsKept r (s.endColl c status tell) :=
  h.trans ⟨(congrArg CollEngine.early (s.endColl_coll c status tell)).trans rfl, (congrArg CollEngine.issued (s.endColl_coll c status tell)).trans rfl⟩

/-- The only collective that runs has ended. -/
theorem State.endColl_running {s : State} {c d : Coll} (hone : s.coll.running = [d]) (hsame : d.same c = true) (status : Nat) (tell : Bool) :
    (s.endColl c status tell).coll.running = [] := by
  rw [s.endColl_coll c status tell]
  simp only [State.dropColl, hone, List.filter_cons, hsame, Bool.not_true, Bool.false_eq_true, if_false, List.filter_nil]

/-- R568: the counts of a collective that ends. -/
theorem State.countEnd_counts (s : State) (c : Coll) (status : Nat) :
    (s.countEnd c status).rd .collOpCnt c.die 0 = s.rd .collOpCnt c.die 0 + 1#64 ∧
    (status = stAborted → (s.countEnd c status).rd .collAbortCnt c.die 0 = s.rd .collAbortCnt c.die 0 + 1#64) ∧
    (status = stPeerLost → (s.countEnd c status).rd .collPeerLostCnt c.die 0 = s.rd .collPeerLostCnt c.die 0 + 1#64) := by
  have hop := (s.endRun_reach c status).rd_eq .collOpCnt rfl c.die 0
  have habort := (s.endRun_reach c status).rd_eq .collAbortCnt rfl c.die 0
  have hlost := (s.endRun_reach c status).rd_eq .collPeerLostCnt rfl c.die 0
  refine ⟨?_, fun h => ?_, fun h => ?_⟩
  · rw [State.countEnd, ← hop]
    split_ifs <;> simp (disch := decide) only [State.rd_bump_ne, State.rd_bump_self]
  · rw [State.countEnd, if_pos h, if_neg (h ▸ by decide), ← habort]
    simp (disch := decide) only [State.rd_bump_ne, State.rd_bump_self]
  · rw [State.countEnd, if_pos h, if_neg (h ▸ by decide), ← hlost]
    simp (disch := decide) only [State.rd_bump_ne, State.rd_bump_self]

theorem State.endColl_counts (s : State) (c : Coll) (status : Nat) (tell : Bool) :
    (s.endColl c status tell).rd .collOpCnt c.die 0 = s.rd .collOpCnt c.die 0 + 1#64 ∧
    (status = stAborted → (s.endColl c status tell).rd .collAbortCnt c.die 0 = s.rd .collAbortCnt c.die 0 + 1#64) ∧
    (status = stPeerLost → (s.endColl c status tell).rd .collPeerLostCnt c.die 0 = s.rd .collPeerLostCnt c.die 0 + 1#64) := by
  have hreach := s.endColl_reach_counted c status tell
  rw [hreach.rd_eq .collOpCnt rfl, hreach.rd_eq .collAbortCnt rfl, hreach.rd_eq .collPeerLostCnt rfl]
  exact s.countEnd_counts c status

end Sys2Proof.Machine
end

section
/-!
SUPPORT. Beam time does not move while memory is written and records complete (spec/12_beam_and_launching.md R569, R605 to R612): a write may
note that the characteristic table was touched, and what follows a record arms or drops records, but the counter stands.
-/
namespace Sys2Proof.Machine

/-- The beam counter is as before. -/
structure ClockKept (s t : State) : Prop where
  counter : t.beam.counter = s.beam.counter

namespace ClockKept
variable {r s t : State}

theorem refl (s : State) : ClockKept s s := ⟨rfl⟩

theorem trans (h : ClockKept r s) (k : ClockKept s t) : ClockKept r t := ⟨k.counter.trans h.counter⟩

theorem beamNow (h : ClockKept s t) : t.beamNow = s.beamNow := by rw [State.beamNow, h.counter, State.beamNow]

/-- What does not reach the beam unit. -/
theorem reach {F : Nat} (h : ClockKept r s) (k : Reach F s t) (m : F.testBit 13 = false) : ClockKept r t :=
  h.trans ⟨congrArg Beam.counter (k.same .beam m)⟩

theorem ite {c : Prop} {_ : Decidable c} (h : ClockKept r s) (k : ClockKept r t) : ClockKept r (if c then s else t) := by
  split
  · exact h
  · exact k

theorem foldl {β : Type} {f : State → β → State} (l : List β) (h : ClockKept r s) (hf : ∀ t x, ClockKept r t → ClockKept r (f t x)) :
    ClockKept r (l.foldl f s) :=
  List.foldlRecOn l f h fun t ht x _ => hf t x ht

/-! ## Writes of memory (R377, R385, R584) -/

theorem setTouched (h : ClockKept r s) (l : List (Nat × Bool × Nat)) : ClockKept r { s with beam := { s.beam with touched := l } } := h.trans ⟨rfl⟩

theorem touchTable (h : ClockKept r s) (pa n : Nat) : ClockKept r (s.touchTable pa n) := by
  unfold State.touchTable
  exact .ite (h.setTouched _) h

theorem putMem (h : ClockKept r s) (pa : Nat) (bs : List Byte) : ClockKept r (s.putMem pa bs) :=
  .ite h (((h.reach (State.putRaw_reach ..) rfl).reach (State.touchWrite_reach ..) rfl).touchTable ..)

theorem bump (h : ClockKept r s) (a : Reg) (u i n : Nat) : ClockKept r (s.bump a u i n) := h.trans ⟨rfl⟩

theorem deliverRead (h : ClockKept r s) (ctl : Nat) (q : HbmReq) (severity : Bool) (out : Decoded) :
    ClockKept r (s.deliverRead ctl q severity out) := by
  have hqueued : ClockKept r (s.queueCorrected q out) := by
    cases out with
    | corrected => exact h.reach (State.queueWriteback_reach ..) rfl
    | _ => exact h
  exact (hqueued.reach (State.touchRead_reach ..) rfl).trans ⟨rfl⟩

theorem serveHbm (h : ClockKept r s) (ctl : Nat) (q : HbmReq) (severity : Bool) : ClockKept r (s.serveHbm ctl q severity) := by
  have hcounted : ClockKept r ((if q.mask = BitVec.allOnes 32 then s else s.bump .hbmcPartialWrCnt ctl 0 1).countSector ctl) :=
    (ite h (h.bump ..)).bump ..
  rw [State.serveHbm_eq]
  refine .ite (((h.reach (State.putRaw_reach ..) rfl).bump ..).bump ..) (.ite (.ite (hcounted.trans ⟨rfl⟩) (hcounted.putMem ..)) ?_)
  exact (h.reach (State.readSector_reach ..).fst rfl).deliverRead ..

theorem flushSectors (h : ClockKept r s) (pa n : Nat) : ClockKept r (s.flushSectors pa n) := by
  refine .foldl _ h fun u p hu => .ite hu ?_
  exact .foldl _ (hu.trans ⟨rfl⟩) fun v q hv => hv.serveHbm ..

theorem holdWrite (h : ClockKept r s) (w : List HeldWrite) : ClockKept r { s with heldWrites := w } := h.trans ⟨rfl⟩

theorem devWrite (h : ClockKept r s) (a : Access) (pa : Nat) (bs : List Byte) : ClockKept r (s.devWrite a pa bs) := by
  have hflushed := h.flushSectors pa bs.length
  have hcounted : ClockKept r ((List.range ((pa + bs.length + 31) / 32 - pa / 32)).foldl
      (fun u k => u.countSector (hbmPlace u.harbour ((pa / 32 + k) * 32)).1) (s.flushSectors pa bs.length)) := .foldl _ hflushed fun u k hu => hu.bump ..
  refine .ite h (.ite (h.bump ..) (.ite (.ite (hflushed.holdWrite _) ?_) (.ite (h.holdWrite _) ?_)))
  · exact hcounted.putMem ..
  · exact (h.reach (State.useSlots_reach ..) rfl).putMem ..

theorem virtWrite (h : ClockKept r s) (a : Access) (die va : Nat) (bs : List Byte) : ClockKept r (s.virtWrite a die va bs) := by
  unfold State.virtWrite
  split
  · exact h.devWrite ..
  · exact h

/-! ## Records (R586, R605 to R612) -/

theorem armInst (h : ClockKept r s) (x : RecInst) (clamps armed : Nat) : ClockKept r (s.armInst x clamps armed) := h.trans ⟨rfl⟩

theorem setRecState (h : ClockKept r s) (launch st : Nat) : ClockKept r (s.setRecState launch st) := h.trans ⟨rfl⟩

theorem rearm (h : ClockKept r s) (x : RecInst) (n : Nat) : ClockKept r (s.rearm x n) := by
  unfold State.rearm
  dsimp only
  exact (((h.devWrite ..).devWrite ..).setTouched _).armInst ..

theorem afterRecord (h : ClockKept r s) (x : RecInst) : ClockKept r (s.afterRecord x) := by
  unfold State.afterRecord
  extract_lets good signalled rep again dropped
  have hsignalled : ClockKept r signalled := .ite (h.reach (State.putTokens_reach ..) rfl) h
  have hdropped : ClockKept r dropped := hsignalled.trans ⟨rfl⟩
  exact .ite (hdropped.setRecState ..) (.ite (hdropped.rearm ..) (.ite (hdropped.armInst ..) (hdropped.setRecState ..)))

theorem settleCrings (h : ClockKept r s) (fuel : Nat) : ClockKept r (s.settleCrings fuel) := by
  induction fuel generalizing s with
  | zero => exact h
  | succ fuel ih =>
    unfold State.settleCrings
    split
    · exact h
    next w _ =>
      have hcounted : ClockKept r (({ s with beam := { s.beam with posted := s.beam.posted.erase w } } : State).countProd w.owner) :=
        (h.trans (t := { s with beam := { s.beam with posted := s.beam.posted.erase w } }) ⟨rfl⟩).reach (State.countProd_reach ..) rfl
      dsimp only
      split
      · exact ih (hcounted.afterRecord _)
      · exact ih hcounted

theorem post (h : ClockKept r s) (f : Fabric) (l : List PostedRec) :
    ClockKept r { s with fabric := f, beam := { s.beam with posted := l } } := h.trans ⟨rfl⟩

theorem postRecord (h : ClockKept r s) (die owner : Nat) (ws : List Word) (launch : Option Nat) : ClockKept r (s.postRecord die owner ws launch) := by
  unfold State.postRecord
  exact (h.post ..).virtWrite ..

theorem rankRecord (h : ClockKept r s) (die owner launch status lines rev : Nat) :
    ClockKept r (s.rankRecord die owner launch status lines rev) :=
  .ite (h.trans ⟨rfl⟩) (.ite h ((h.postRecord ..).settleCrings _))

end ClockKept

/-! ## A collective that completes (R521, R528, R538 to R541) -/

/-- One that ends well is counted, its record is written, and its sequence goes on. -/
theorem State.endColl_of_good {s : State} {c : Coll} {status : Nat} (hgood : goodStatus status = true) :
    s.endColl c status false = ((s.countEnd c status).rankRecord c.die c.owner c.launch status c.lines c.stepRev).seqAfterColl c status := by
  simp only [State.endColl, State.countEnd, State.endRun, hgood, Bool.false_and, Bool.not_true, Bool.and_false, Bool.false_eq_true, if_true, if_false]

/-- R521: the sequence of a collective that ends well goes on at NEXT, or ends where NEXT is 0. -/
theorem State.endColl_findSeq {s : State} {c : Coll} {q : Seq} (hseq : s.findSeq c.cluster c.launch = some q) {status : Nat}
    (hgood : goodStatus status = true) : (s.endColl c status false).findSeq c.cluster c.launch =
      some { q with ops := q.ops + 1, next := c.next, commitBeam := s.beamNow, ended := q.ended || c.next == 0 } := by
  have hcounted : Reach 0x20000000000000030400000000000000000000000000000000000000000001400000 s (s.countEnd c status) :=
    ((s.endRun_reach c status).mono rfl).then (s.countEnd_reach c status) rfl
  have hrecorded := (s.countEnd c status).rankRecord_reach c.die c.owner c.launch status c.lines c.stepRev
  have hnow := ((ClockKept.refl s).reach hcounted rfl).rankRecord c.die c.owner c.launch status c.lines c.stepRev
  have hfound : ((s.countEnd c status).rankRecord c.die c.owner c.launch status c.lines c.stepRev).findSeq c.cluster c.launch = some q :=
    (State.findSeq_congr ((hrecorded.same .seqs rfl).trans (hcounted.same .seqs rfl)) ..).trans hseq
  rw [State.endColl_of_good hgood, State.seqAfterColl, hgood, Bool.not_true, if_neg Bool.false_ne_true, hfound, hnow.beamNow]
  exact State.findSeq_setSeq hfound rfl rfl rfl

end Sys2Proof.Machine
end

section
/-!
SUPPORT. The statement about the steps and ends of collectives and about group entries (spec/11_collectives_and_mapping.md R515, R528, R538 to
R541, R553 to R560, spec/13_daymarks_and_recovery.md R666).
-/
namespace Sys2Proof.Machine

/-! ## A traversal moves on (R552 to R556) -/

/-- What a traversal holds and where it stands, apart from what it has queued and placed. -/
def Coll.traversal (c : Coll) : (Nat × Nat) × List (Nat × List LineSeg) × Nat × Nat := ((c.cluster, c.launch), c.kv, c.got, c.step)

theorem State.queueItems_traversal (s : State) (c : Coll) (fuel : Nat) : (s.queueItems c fuel).traversal = c.traversal := by
  induction fuel generalizing c with
  | zero => rfl
  | succ fuel ih =>
    unfold State.queueItems
    split
    · rfl
    split
    · split
      · exact ih _
      · rfl
    · rfl

/-- An item placed leaves what the traversal holds, and goes on from there. -/
theorem State.placeItems_succ (s : State) (cluster launch fuel : Nat) : s.placeItems cluster launch (fuel + 1) = s ∨
    ∃ t c d, Reach 0x40001000000000000000000000000001022011fa20080000000800000000000000087c7d s t ∧ s.findColl cluster launch = some c ∧
      d.traversal = c.traversal ∧ s.placeItems cluster launch (fuel + 1) = (t.setColl d).placeItems cluster launch fuel := by
  rw [State.placeItems]
  split
  · exact .inl rfl
  next c hfound =>
    split
    next g it rest _ _ =>
      dsimp only
      split
      · exact .inl rfl
      · refine .inr ⟨_, c, _, ?_, hfound, ?_, rfl⟩
        · refine .then (.foldl _ (.then (.refl ..) (State.devWrite_reach ..) rfl) fun t l ht => .ite ?_ ht) (State.headFull_reach ..) rfl
          exact ht.then (State.leavePoison_reach ..) rfl
        · rfl
    · exact .inl rfl

theorem State.placeItems_traversal (s : State) (cluster launch fuel : Nat) :
    ((s.placeItems cluster launch fuel).findColl cluster launch).map Coll.traversal = (s.findColl cluster launch).map Coll.traversal := by
  induction fuel generalizing s with
  | zero => rfl
  | succ fuel ih =>
    rcases s.placeItems_succ cluster launch fuel with heq | ⟨t, c, d, hreach, hfound, hsame, heq⟩
    · rw [heq]
    · obtain ⟨rfl, rfl⟩ := State.findColl_named hfound
      have hcluster : d.cluster = c.cluster := congrArg (fun x => x.1.1) hsame
      have hlaunch : d.launch = c.launch := congrArg (fun x => x.1.2) hsame
      have hfound' : t.findColl d.cluster d.launch = some c := by
        rw [hcluster, hlaunch, State.findColl_congr (congrArg CollEngine.running (hreach.same .coll rfl))]
        exact hfound
      rw [heq, ih, hfound, ← hcluster, ← hlaunch, State.findColl_setColl hfound', Option.map_some, Option.map_some, hsame]

theorem ListsKept.placeItems {r s : State} (h : ListsKept r s) (cluster launch fuel : Nat) : ListsKept r (s.placeItems cluster launch fuel) := by
  induction fuel generalizing s with
  | zero => exact h
  | succ fuel ih =>
    rcases s.placeItems_succ cluster launch fuel with heq | ⟨t, c, d, hreach, -, -, heq⟩
    · rwa [heq]
    · rw [heq]
      exact ih ((h.reach hreach rfl).setColl d)

theorem ListsKept.advanceRing {r s : State} (h : ListsKept r s) (c : Coll) : ListsKept r (s.advanceRing c) := (h.setColl _).placeItems ..

/-- R553: a traversal moved on is found with what it holds. -/
theorem State.advanceRing_traversal {s : State} {c d : Coll} (h : s.findColl c.cluster c.launch = some d) :
    ((s.advanceRing c).findColl c.cluster c.launch).map Coll.traversal = some c.traversal := by
  have hqueued := s.queueItems_traversal c (c.items.length + 1)
  have hcluster : (s.queueItems c (c.items.length + 1)).cluster = c.cluster := congrArg (fun x => x.1.1) hqueued
  have hlaunch : (s.queueItems c (c.items.length + 1)).launch = c.launch := congrArg (fun x => x.1.2) hqueued
  rw [← hcluster, ← hlaunch] at h ⊢
  rw [State.advanceRing, State.placeItems_traversal, State.findColl_setColl h, Option.map_some, hqueued]

/-- What is read of a traversal moved on is what it had. -/
theorem State.advanceRing_kept {s : State} {c d : Coll} (h : s.findColl c.cluster c.launch = some d) {β : Type}
    (f : (Nat × Nat) × List (Nat × List LineSeg) × Nat × Nat → β) :
    ((s.advanceRing c).findColl c.cluster c.launch).map (fun x => f x.traversal) = some (f c.traversal) := by
  have hmoved := congrArg (Option.map f) (State.advanceRing_traversal h)
  rwa [Option.map_map] at hmoved

/-! ## RING_STEP_BOUNDARY (R553 to R557) -/

/-- What a rank sends at a step boundary: slices to forward, and in the backward its accumulator halves. -/
def State.sendStep (s : State) (c : Coll) : State :=
  let up := c.mod (c.rank + c.degree - c.step)
  let down := c.mod (c.rank + c.step)
  let s := if c.step < c.legA then s.sendSlice c true up else s
  let s := if c.step < c.legB then s.sendSlice c false down else s
  let s := if c.bwd && c.step == 0 then s.clearAcc c else s
  if c.bwd && decide (1 ≤ c.step) then
    (let s := s.sendAcc c 1 up
     if c.dirs then s.sendAcc c 2 down else s)
  else s

theorem State.sendStep_reach (s : State) (c : Coll) :
    Reach 0x40001000000000000008080000006001022011f820000000000000000000000002b87c1d s (s.sendStep c) := by
  unfold State.sendStep
  extract_lets up down ahead back cleared half
  have hahead : Reach 0x40001000000000000008080000006001022011f820000000000000000000000002b87c1d s ahead :=
    .ite ((State.sendSlice_reach ..).mono rfl) (.refl ..)
  have hback := Reach.ite (c := c.step < c.legB) (hahead.then (ahead.sendSlice_reach c false down) rfl) hahead
  have hcleared := Reach.ite (c := (c.bwd && c.step == 0) = true) (hback.then (back.clearAcc_reach c) rfl) hback
  have hhalf := hcleared.then (cleared.sendAcc_reach c 1 up) rfl
  exact .ite (.ite (hhalf.then (State.sendAcc_reach ..) rfl) hhalf) hcleared

section
variable {s : State} {cluster : Fin 24} {launch : BitVec 12} {c : Coll}

theorem ringStepBoundaryEffect_of_whole (hfound : s.findColl cluster.val launch.toNat = some c) (hop : c.op = 6) (hdraining : c.draining = false)
    (hstop : c.stop = false) (hwhole : c.stepWhole = true) (hwriting : s.collWriting c = false) :
    ringStepBoundaryEffect cluster launch s = ((s.sendStep c).advanceRing { c with step := c.step + 1, hold := [] }).settlePieces := by
  simp only [ringStepBoundaryEffect, hfound, hop, hdraining, hstop, hwhole, hwriting, ne_eq, not_true_eq_false, Bool.not_true, Bool.or_false,
    Bool.false_eq_true, if_false, State.sendStep]

theorem ringStepBoundaryEffect_of_stop (hfound : s.findColl cluster.val launch.toNat = some c) (hop : c.op = 6) (hdraining : c.draining = false)
    (hstop : c.stop = true) : ringStepBoundaryEffect cluster launch s = s.setColl { c with draining := true, hold := [], place := [] } := by
  simp only [ringStepBoundaryEffect, hfound, hop, hdraining, hstop, ne_eq, not_true_eq_false, Bool.false_eq_true, if_false, if_true]

end

/-! ## COLLECTIVE_COMMIT (R528, R538 to R541) -/

/-- The only collective that runs is found. -/
theorem State.findColl_of_one {s : State} {c : Coll} (hone : s.coll.running = [c]) : s.findColl c.cluster c.launch = some c := by
  simp [State.findColl, hone]

theorem Coll.same_refl (c : Coll) : c.same c = true := by simp [Coll.same]

/-- The group flag of a reduction noted for its owner, and counted (R538, R539). -/
def State.noteFlag (s : State) (c : Coll) : State :=
  if c.nf then (s.ownerBit .collNfSeen c.owner true).bump .collNonfiniteCnt c.die 0 1 else s

/-- The gate of a gating reduction's owner set by the group flag, and the loss-scale record updated (R540, R541). -/
def State.gateFlag (s : State) (c : Coll) : State :=
  (((s.noteFlag c).ownerBit .collNfGate c.owner c.nf).ownerBit .collNfSeen c.owner false).lossScale c

theorem State.reduceEnd_ok (s : State) (c : Coll) : s.reduceEnd c stOk =
    if c.nfGate then (s.gateFlag c, if c.nf then stNonfiniteSkip else stOk) else (s.noteFlag c, stOk) := by
  cases hgate : c.nfGate <;> simp [State.reduceEnd, hgate, State.gateFlag, State.noteFlag, show (stOk == stPoisonConsumed) = false by decide]

theorem Reach.ownerBit {F : Nat} {r s : State} {q : Reg} (h : Reach F r s) (m : F.testBit (64 + q.ctorIdx) = true) (owner : Nat) (v : Bool) :
    Reach F r (s.ownerBit q owner v) := (h.wr m).wr m

theorem State.noteFlag_reach (s : State) (c : Coll) : Reach 0x202000000000000000000000000000000000000000000000000000 s (s.noteFlag c) :=
  .ite (.bump (.ownerBit (.refl ..) rfl ..) rfl) (.refl ..)

theorem State.gateFlag_reach (s : State) (c : Coll) :
    Reach 0x40001000000000000060200000000001022011f820000000000000000000000000087c1d s (s.gateFlag c) :=
  (((s.noteFlag_reach c).mono rfl |>.ownerBit rfl ..).ownerBit rfl ..).then (State.lossScale_reach ..) rfl

theorem ClockKept.lossScale {r s : State} (h : ClockKept r s) (c : Coll) : ClockKept r (s.lossScale c) := by
  unfold State.lossScale
  split
  · exact h
  · exact h.virtWrite ..

theorem ClockKept.ownerBit {r s : State} (h : ClockKept r s) (q : Reg) (owner : Nat) (v : Bool) : ClockKept r (s.ownerBit q owner v) := h.trans ⟨rfl⟩

theorem ClockKept.gateFlag {r s : State} (h : ClockKept r s) (c : Coll) : ClockKept r (s.gateFlag c) :=
  (((h.reach (s.noteFlag_reach c) rfl).ownerBit ..).ownerBit ..).lossScale c

theorem State.completeColl_eq {s : State} {c : Coll} (hlate : c.late = false) (hpoison : c.poison = false) :
    let p := if c.reduces then s.reduceEnd c stOk else (s, stOk)
    s.completeColl c = (if c.op = 2 ∧ c.genMode = 1 then p.1.virtWrite c.access c.die c.genRec (bytesOf (p.1.ownStamp c) 8)
      else p.1).endColl c p.2 false := by
  simp only [State.completeColl, hlate, hpoison, Bool.false_eq_true, if_false]

/-- What a collective does before it ends with OK writes memory and its owner's bits, and keeps beam time. -/
theorem State.completeColl_ok {s : State} {c : Coll} (hlate : c.late = false) (hpoison : c.poison = false)
    (hgate : (c.reduces && c.nfGate && c.nf) = false) : ∃ t,
      Reach 0x40001000000000000060200000000001022011f820000000000000000000000000087c1d s t ∧ ClockKept s t ∧ s.completeColl c = t.endColl c stOk false := by
  have hreduced : ∃ t, Reach 0x40001000000000000060200000000001022011f820000000000000000000000000087c1d s t ∧ ClockKept s t ∧
      (if c.reduces then s.reduceEnd c stOk else (s, stOk)) = (t, stOk) := by
    rw [s.reduceEnd_ok]
    cases hreduces : c.reduces with
    | false => exact ⟨s, .refl .., .refl _, rfl⟩
    | true =>
      cases hgated : c.nfGate with
      | false => exact ⟨s.noteFlag c, (s.noteFlag_reach c).mono rfl, (ClockKept.refl s).reach (s.noteFlag_reach c) rfl, rfl⟩
      | true =>
        rw [hreduces, hgated, Bool.true_and, Bool.true_and] at hgate
        rw [hgate]
        exact ⟨s.gateFlag c, s.gateFlag_reach c, (ClockKept.refl s).gateFlag c, rfl⟩
  obtain ⟨t, hreach, hclock, hpair⟩ := hreduced
  rw [State.completeColl_eq hlate hpoison, hpair]
  exact ⟨_, .ite (hreach.then (State.virtWrite_reach ..) rfl) hreach, .ite (hclock.virtWrite ..) hclock, rfl⟩

/-- A gating reduction with a non-finite flag ends with NONFINITE_SKIP behind its gate. -/
theorem State.completeColl_gates {s : State} {c : Coll} (hlate : c.late = false) (hpoison : c.poison = false) (hreduces : c.reduces = true)
    (hgate : c.nfGate = true) (hnf : c.nf = true) : s.completeColl c = (s.gateFlag c).endColl c stNonfiniteSkip false := by
  have hop : ¬(c.op = 2 ∧ c.genMode = 1) := by
    rintro ⟨hop, -⟩
    rw [Coll.reduces, hop] at hreduces
    cases hreduces
  rw [State.completeColl_eq hlate hpoison, s.reduceEnd_ok, hreduces, hgate, hnf]
  exact congrArg (fun t : State => t.endColl c stNonfiniteSkip false) (if_neg hop)

/-- An owner's bit reads as it is set on either die. -/
theorem State.bitOf_ownerBit (s : State) (q : Reg) {die owner : Nat} (hdie : die < 2) (howner : owner < 64) (v : Bool) :
    bitOf ((s.ownerBit q owner v).rd q die) owner = v := by
  have hset : ∀ t : State, bitOf ((t.wr q die 0 (withBits (t.rd q die) owner 1 (b2n v))).rd q die) owner = v := by
    intro t
    rw [State.rd_wr_self, bitOf, bitsOf_withBits_self _ _ _ _ howner]
    cases v <;> rfl
  obtain rfl | rfl : die = 0 ∨ die = 1 := by omega
  · refine (congrArg (bitOf · owner) (State.rd_wr_place _ _ _ (.inl (by decide)))).trans (hset s)
  · exact hset _

theorem State.rd_ownerBit_ne {q r : Reg} (h : r ≠ q) (s : State) (owner : Nat) (v : Bool) (u i : Nat) : (s.ownerBit q owner v).rd r u i = s.rd r u i :=
  (State.rd_wr_ne h ..).trans (State.rd_wr_ne h ..)

/-- R538 to R540: the gate set, the noted flag cleared, and the reduction counted. -/
theorem State.gateFlag_sets {s : State} {c : Coll} (hnf : c.nf = true) (howner : c.owner < 64) (hdie : c.die < 2) :
    (bitOf ((s.gateFlag c).rd .collNfGate c.die) c.owner = true ∧ bitOf ((s.gateFlag c).rd .collNfSeen c.die) c.owner = false) ∧
    (s.gateFlag c).rd .collNonfiniteCnt c.die 0 = s.rd .collNonfiniteCnt c.die 0 + 1#64 := by
  have hscaled := (((s.noteFlag c).ownerBit .collNfGate c.owner c.nf).ownerBit .collNfSeen c.owner false).lossScale_reach c
  have hnoted : s.noteFlag c = (s.ownerBit .collNfSeen c.owner true).bump .collNonfiniteCnt c.die 0 1 := if_pos hnf
  rw [State.gateFlag, hscaled.rd_eq .collNfGate rfl, hscaled.rd_eq .collNfSeen rfl, hscaled.rd_eq .collNonfiniteCnt rfl]
  refine ⟨⟨?_, State.bitOf_ownerBit _ _ hdie howner _⟩, ?_⟩
  · rw [State.rd_ownerBit_ne (by decide), State.bitOf_ownerBit _ _ hdie howner, hnf]
  · rw [State.rd_ownerBit_ne (by decide), State.rd_ownerBit_ne (by decide), hnoted, State.rd_bump_self, State.rd_ownerBit_ne (by decide)]

section
variable {s : State} {cluster : Fin 24} {launch : BitVec 12} {c : Coll}

theorem collectiveCommitEffect_of_whole (hfound : s.findColl cluster.val launch.toNat = some c) (hwhole : c.whole = true)
    (hwriting : s.collWriting c = false) : collectiveCommitEffect cluster launch s = s.completeColl c := by
  simp only [collectiveCommitEffect, hfound, hwhole, hwriting, Bool.not_true, Bool.or_false, Bool.false_eq_true, if_false]

theorem collPeerTimeoutEffect_of_lost {ms : BitVec 32} (hfound : s.findColl cluster.val launch.toNat = some c) (hwhole : c.whole = false)
    (hstop : c.stop = false) (hbefore : s.committed c = false) (hlate : s.dnat dkCollPeerLimit ≤ ms.toNat) :
    collPeerTimeoutEffect cluster launch ms s = s.endColl c stPeerLost true := by
  simp only [collPeerTimeoutEffect, hfound, Nat.not_lt.mpr hlate, hwhole, decide_false, Bool.or_false, Bool.false_eq_true, if_false,
    State.loseColl, hbefore, hstop]

end

/-! ## Group entries (R511, R515, R666) -/

/-- R515: an entry of which no collective runs ends none. -/
theorem State.endGroup_of_none {s : State} {die g : Nat} (hnone : (s.coll.running.any fun c => c.die == die && c.group == g) = false) :
    s.endGroup die g = s := by
  have hempty : (s.coll.running.filter fun c => c.die == die && c.group == g) = [] :=
    List.filter_eq_nil_iff.mpr fun c hc => List.any_eq_false.mp hnone c hc
  rw [State.endGroup, hempty, List.foldl_nil]

/-- R22: a write keeps the bits above those that software writes. -/
theorem bitsOf_stored_above (x v m : Word) {lo : Nat} (h : m.toNat < 2 ^ lo) (w : Nat) : bitsOf ((x &&& ~~~m) ||| (v &&& m)) lo w = bitsOf x lo w := by
  have hshift : ((x &&& ~~~m) ||| (v &&& m)) >>> lo = x >>> lo := by
    refine BitVec.eq_of_getLsbD_eq fun i hi => ?_
    have hm : m.getLsbD (lo + i) = false := Nat.testBit_lt_two_pow (h.trans_le (Nat.pow_le_pow_right (by decide) (Nat.le_add_right ..)))
    by_cases hin : lo + i < 64
    · simp only [BitVec.getLsbD_ushiftRight, BitVec.getLsbD_or, BitVec.getLsbD_and, BitVec.getLsbD_not, hm, hin, decide_true, Bool.not_false,
        Bool.and_true, Bool.and_false, Bool.or_false]
    · simp [hm, BitVec.getLsbD_of_ge x _ (Nat.not_lt.mp hin)]
  have hnat := congrArg BitVec.toNat hshift
  rw [BitVec.toNat_ushiftRight, BitVec.toNat_ushiftRight, Nat.shiftRight_eq_div_pow, Nat.shiftRight_eq_div_pow] at hnat
  rw [bitsOf, bitsOf, hnat]

/-- R515: software does not write MEMBER_GEN. -/
theorem State.storeReg_memberGen (s : State) (die g : Nat) (value : Word) :
    (s.storeReg .collGroupW0 die g value).fld collGroupW0MemberGen die g = s.fld collGroupW0MemberGen die g := by
  have hword : (s.storeReg .collGroupW0 die g value).rd .collGroupW0 die g =
      (s.rd .collGroupW0 die g &&& ~~~0xFFFFFFF#64) ||| (value &&& 0xFFFFFFF#64) := State.rd_wr_self ..
  exact (congrArg (bitsOf · 48 16) hword).trans (bitsOf_stored_above _ _ _ (by decide) 16)

/-- MEMBER_GEN one higher after a word of the entry was written. -/
def State.nextGen (s : State) (die g : Nat) : State := s.setFld collGroupW0MemberGen die g (s.fld collGroupW0MemberGen die g + 1)

theorem State.fld_nextGen (s : State) (die g : Nat) :
    (s.nextGen die g).fld collGroupW0MemberGen die g = (s.fld collGroupW0MemberGen die g + 1) % 65536 := State.fld_setFld_self _ _ _ _ _ (by decide)

section
variable {s : State} {die : Fin 2} {group : BitVec 8} {value : Word}

/-- R515: with no collective of the group running a write of an entry's word stores it and raises MEMBER_GEN. -/
theorem groupEntryWriteEffect_reach_stored (hnone : (s.coll.running.any fun c => c.die == die.val && c.group == group.toNat) = false) :
    Reach 0x10000000000000000000000004000 ((s.storeReg .collGroupW0 die.val group.toNat value).nextGen die.val group.toNat)
      (groupEntryWriteEffect die group 0 value s) ∧
    Reach 0x10000000000000000000000004000 ((s.storeReg .collGroupW1 die.val group.toNat value).nextGen die.val group.toNat)
      (groupEntryWriteEffect die group 1 value s) := by
  have hcounted : ∀ (t : State) (n : Nat), Reach 0x10000000000000000000000004000 t (t.countGroups.clamped (12 * die.val) n) := fun t n =>
    ((t.countGroups_reach).mono rfl).then (State.clamped_reach ..) rfl
  have hgroup : ∀ word, s.groupWrite die.val group.toNat word value =
      ((if word = 0 then s.storeReg .collGroupW0 die.val group.toNat value
        else if word = 1 then s.storeReg .collGroupW1 die.val group.toNat value
        else s.storeReg .collGroupW2 die.val group.toNat value).nextGen die.val group.toNat).countGroups := fun word => by
    rw [State.groupWrite, State.endGroup_of_none hnone]
    rfl
  exact ⟨by rw [groupEntryWriteEffect, hgroup]; exact hcounted .., by rw [groupEntryWriteEffect, hgroup]; exact hcounted ..⟩

/-- R666: with no collective of the group running MEMBER_GEN is what the command names. -/
theorem collMemberGenSetEffect_of_go (hgo : bitOf value 63 = true)
    (hnone : (s.coll.running.any fun c => c.die == die.val && c.group == bitsOf value 0 8) = false) :
    collMemberGenSetEffect die value s =
      (s.storeReg .collMemberGenSet die.val 0 value).setFld collGroupW0MemberGen die.val (bitsOf value 0 8) (bitsOf value 16 16) := by
  have hended : (s.storeReg .collMemberGenSet die.val 0 value).endGroup die.val (bitsOf value 0 8) = s.storeReg .collMemberGenSet die.val 0 value :=
    State.endGroup_of_none hnone
  rw [collMemberGenSetEffect, hended, if_pos hgo]

end

/-! ## The statement about steps, ends and regrouping (O42) -/

/-- Settles O42: a step by what a traversal holds, a commit by the end that follows its flag, an entry by the word stored. -/
theorem collectivesStepEndAndRegroup : Obligations.CollectivesStepEndAndRegroup := by
  refine ⟨?stepped, ?stopped, ?committed, ?gated, ?lost, ?routed, ?regrouped, ?genSet⟩
  case stepped =>
    rintro s cluster launch c ⟨hfound, hop, hdraining, hstop, hwhole, hwriting, hearly⟩
    have hsent := s.sendStep_reach c
    have hlists := ((ListsKept.refl s).reach hsent rfl).advanceRing { c with step := c.step + 1, hold := [] }
    obtain ⟨hcluster, hlaunch⟩ := State.findColl_named hfound
    rw [← hcluster, ← hlaunch] at hfound
    have hmoved := State.advanceRing_kept (s := s.sendStep c) (c := { c with step := c.step + 1, hold := [] })
      ((State.findColl_congr (congrArg CollEngine.running (hsent.same .coll rfl)) ..).trans hfound) fun x => (x.2.2.2, x.2.1)
    refine ⟨_, congrArg Host.Outcome.next ((ringStepBoundaryEffect_of_whole (hcluster ▸ hlaunch ▸ hfound) hop hdraining hstop hwhole hwriting).trans
      (State.settlePieces_of_none (hlists.early.trans hearly))), ?_⟩
    rw [← hcluster, ← hlaunch]
    exact hmoved
  case stopped =>
    rintro s cluster launch c ⟨hfound, hop, hdraining, hstop⟩
    obtain ⟨hcluster, hlaunch⟩ := State.findColl_named hfound
    refine ⟨_, congrArg Host.Outcome.next (ringStepBoundaryEffect_of_stop hfound hop hdraining hstop), ?_⟩
    rw [← hcluster, ← hlaunch] at hfound ⊢
    exact State.findColl_setColl (d := { c with draining := true, hold := [], place := [] }) hfound
  case committed =>
    rintro s cluster launch c q ⟨hone, hcluster, hlaunch, hwhole, hpoison, hlate, hwriting⟩ ⟨hseq, hgate⟩
    have hfound := State.findColl_of_one hone
    rw [← hcluster, ← hlaunch] at hseq ⊢
    rw [hcluster, hlaunch] at hfound
    obtain ⟨t, hreach, hclock, heq⟩ := State.completeColl_ok (s := s) hlate hpoison hgate
    have hone' : t.coll.running = [c] := (congrArg CollEngine.running (hreach.same .coll rfl)).trans hone
    have hseq' : t.findSeq c.cluster c.launch = some q := (State.findSeq_congr (hreach.same .seqs rfl) ..).trans hseq
    refine ⟨_, congrArg Host.Outcome.next ((collectiveCommitEffect_of_whole hfound hwhole hwriting).trans heq),
      ⟨State.endColl_running hone' c.same_refl .., ?_⟩, ?_⟩
    · rw [(t.endColl_counts c stOk false).1, hreach.rd_eq .collOpCnt rfl]
    · rw [State.endColl_findSeq hseq' (by decide), hclock.beamNow]
  case gated =>
    rintro s cluster launch c ⟨hone, hcluster, hlaunch, hwhole, hpoison, hlate, hwriting⟩ ⟨hreduces, hgate, hnf, howner, hdie⟩
    have hfound := State.findColl_of_one hone
    rw [hcluster, hlaunch] at hfound
    have hended := (s.gateFlag c).endColl_reach c stNonfiniteSkip false
    refine ⟨_, congrArg Host.Outcome.next ((collectiveCommitEffect_of_whole hfound hwhole hwriting).trans
      (State.completeColl_gates hlate hpoison hreduces hgate hnf)), ?_⟩
    beta_reduce
    rw [hended.rd_eq .collNfGate rfl, hended.rd_eq .collNfSeen rfl, hended.rd_eq .collNonfiniteCnt rfl]
    exact State.gateFlag_sets hnf howner hdie
  case lost =>
    rintro s cluster launch ms c ⟨hone, hcluster, hlaunch, hwhole, hstop, hbefore, hlate⟩
    have hfound := State.findColl_of_one hone
    rw [hcluster, hlaunch] at hfound
    obtain ⟨hops, -, hlost⟩ := s.endColl_counts c stPeerLost true
    exact ⟨_, congrArg Host.Outcome.next (collPeerTimeoutEffect_of_lost hfound hwhole hstop hbefore hlate),
      State.endColl_running hone c.same_refl .., hops, hlost rfl⟩
  case routed =>
    rintro s die group value hnone
    have hreach := (groupEntryWriteEffect_reach_stored (value := value) hnone).2
    refine ⟨_, rfl, (hreach.rd_eq .collGroupW1 rfl _ _).trans (State.rd_setFld_ne (by decide) ..), ?_⟩
    rw [hreach.fld_eq collGroupW0MemberGen rfl, State.fld_nextGen, State.storeReg, State.fld_wr_ne (by decide)]
  case regrouped =>
    rintro s die group value hnone
    have hreach := (groupEntryWriteEffect_reach_stored (value := value) hnone).1
    refine ⟨_, rfl, (hreach.fld_eq collGroupW0Valid rfl _ _).trans (State.fld_setFld_apart _ _ _ _ _ _ rfl (by decide) (by decide)), ?_⟩
    rw [hreach.fld_eq collGroupW0MemberGen rfl, State.fld_nextGen, State.storeReg_memberGen]
  case genSet =>
    rintro s die value ⟨hgo, hnone⟩
    refine ⟨_, congrArg Host.Outcome.next (collMemberGenSetEffect_of_go hgo hnone), ?_⟩
    exact (State.fld_setFld_self _ _ _ _ _ (by decide)).trans (Nat.mod_eq_of_lt (Nat.mod_lt _ (by decide)))

end Sys2Proof.Machine
end

section
/-!
SUPPORT. The statement about the messages of collectives (spec/11_collectives_and_mapping.md R515, R529 to R533, R537, R553, R557, R559, R562,
R563): what a rank's own elements are read from, a message taken by the collective of its OPSEQ, and what that collective makes of it.
-/
namespace Sys2Proof.Machine

/-! ## The elements of a rank (R529, R532) -/

namespace SameVirtual
variable {s t : State} (h : SameVirtual s t)
include h

theorem readPa (die owner va : Nat) : t.readPa die owner va = s.readPa die owner va := by rw [State.readPa, h.xlat, State.readPa]

theorem viewByte (die owner : Nat) (ovl : Overlay) (va : Nat) : t.viewByte die owner ovl va = s.viewByte die owner ovl va := by
  simp only [State.viewByte, State.virtByte, h.readPa, h.memByte]

theorem collDesc (c : Coll) (d : Nat) : t.collDesc c d = s.collDesc c d := by rw [State.collDesc, h.virtWords, State.collDesc]

theorem srcOf (c : Coll) : t.srcOf c = s.srcOf c := by rw [State.srcOf, h.collDesc, State.srcOf]

theorem dstOf (c : Coll) : t.dstOf c = s.dstOf c := by simp only [State.dstOf, h.collDesc, h.srcOf]

theorem valAt (c : Coll) (d : Desc) (k : Nat) : t.valAt c d k = s.valAt c d k := by
  simp only [State.valAt, State.scaleAt, State.codeAt, State.streamScale, State.streamCode, h.viewByte]

theorem ownTerm (c : Coll) (k : Nat) : t.ownTerm c k = s.ownTerm c k := by simp only [State.ownTerm, h.srcOf, h.valAt]

theorem ownPre (c : Coll) (b : Nat) : t.ownPre c b = s.ownPre c b := by simp only [State.ownPre, h.srcOf, h.valAt]

end SameVirtual

/-- R529: a rank's sums, with the poison of the sectors that its terms are read from. -/
theorem ReadsAlike.sumsOf {s t : State} (h : ReadsAlike s t) (c : Coll) (lo hi : Nat) (prev : Option (List LineSeg)) :
    t.sumsOf c lo hi prev = s.sumsOf c lo hi prev := by
  simp only [State.sumsOf, h.virt.ownTerm, h.virt.srcOf, State.elemPoison, h.virt.readPa, h.poisonAt]

/-! ## A message that arrives (R515, R563) -/

/-- What a message does before its collective takes it: it leaves the inbox, it is counted, and the wait that it ends is traced. -/
def State.receivePiece (s : State) (c : Coll) (h : Words4) : State :=
  ((s.leaveInbox h).bump .collPieceRxCnt (collDstDie h) 0 1).traceRank c false

theorem State.receivePiece_reach (s : State) (c : Coll) (h : Words4) :
    Reach 0x20000000000000001000000000000000000000000000000000000000000000c00000 s (s.receivePiece c h) :=
  .then (.bump ((s.leaveInbox_reach h).mono rfl) rfl) (State.traceRank_reach ..) rfl

theorem State.receivePiece_count (s : State) (c : Coll) (h : Words4) :
    (s.receivePiece c h).rd .collPieceRxCnt (collDstDie h) 0 = s.rd .collPieceRxCnt (collDstDie h) 0 + 1#64 := by
  rw [State.receivePiece, (State.traceRank_reach ..).rd_eq .collPieceRxCnt rfl, State.rd_bump_self, (s.leaveInbox_reach h).rd_eq .collPieceRxCnt rfl]

theorem State.receivePiece_link (s : State) (c : Coll) (h : Words4) (n : Nat) : (s.receivePiece c h).link n = s.link n := by
  have hfabric : (s.receivePiece c h).fabric = (s.leaveInbox h).fabric := (State.traceRank_reach _ c false).same .fabric rfl
  rw [State.link, hfabric]
  rfl

theorem State.receivePiece_findColl (s : State) (c : Coll) (h : Words4) (cluster launch : Nat) :
    (s.receivePiece c h).findColl cluster launch = s.findColl cluster launch :=
  State.findColl_congr (congrArg CollEngine.running ((s.receivePiece_reach c h).same .coll rfl)) ..

theorem State.receivePiece_now (s : State) (c : Coll) (h : Words4) : (s.receivePiece c h).beamNow = s.beamNow :=
  ((ClockKept.refl s).reach (s.receivePiece_reach c h) rfl).beamNow

theorem State.receivePiece_reads (s : State) (c : Coll) (h : Words4) : ReadsAlike s (s.receivePiece c h) :=
  (s.receivePiece_reach c h).readsAlike (by decide)

section
variable {s : State} {mt : Nat} {h : Words4} {lines : List LineSeg} {c : Coll}

/-- R563: a message of an OPSEQ that is accepted goes to the collective of that number. -/
theorem State.collArrives_takes (htype : mtype h = mt) (hpkg : dstPkg h = s.ownPkg)
    (hgen : s.fld collGroupW0MemberGen (collDstDie h) (collGroupId h) = collGen h) (hopen : s.opseqOpen (collDstDie h) h = true) :
    s.collArrives mt h lines =
      (((s.leaveInbox h).bump .collPieceRxCnt (collDstDie h) 0 1).takePiece (collDstDie h) h (checkLines h lines)).settlePieces := by
  simp only [State.collArrives, htype, hpkg, hgen, hopen, ne_eq, not_true_eq_false, or_self, Bool.not_true, Bool.false_eq_true, if_false]
  rfl

/-- R515: a message of another generation of the group is dropped and counted. -/
theorem State.collArrives_stale (htype : mtype h = mt) (hpkg : dstPkg h = s.ownPkg)
    (hgen : s.fld collGroupW0MemberGen (collDstDie h) (collGroupId h) ≠ collGen h) :
    s.collArrives mt h lines = (s.leaveInbox h).bump .collStaleCnt (collDstDie h) 0 1 := by
  simp only [State.collArrives, htype, hpkg, hgen, ne_eq, not_true_eq_false, or_self, not_false_eq_true, if_false, if_true]
  rfl

/-- What a stale message leaves. -/
theorem gives_stale {i : Instr} (hexec : exec i s = .next (s.collArrives mt h lines)) (htype : mtype h = mt) (hpkg : dstPkg h = s.ownPkg)
    (hgen : s.fld collGroupW0MemberGen (collDstDie h) (collGroupId h) ≠ collGen h) : Gives i s fun t =>
      t.rd .collStaleCnt (collDstDie h) 0 = s.rd .collStaleCnt (collDstDie h) 0 + 1#64 ∧ t.coll = s.coll ∧ t.mem = s.mem :=
  ⟨_, hexec.trans (congrArg Host.Outcome.next (State.collArrives_stale htype hpkg hgen)),
    (State.rd_bump_self ..).trans (congrArg (· + 1#64) ((s.leaveInbox_reach h).rd_eq .collStaleCnt rfl _ _)), rfl, rfl⟩

/-- A collective whose wait for a peer starts again (R836). -/
def Coll.heard (c : Coll) (now : Nat) : Coll := { c with waitFrom := now }

/-- What a running collective does with a piece, by its type and the operation. -/
def State.dealPiece (s : State) (c : Coll) (h : Words4) (lines : List LineSeg) : State :=
  if mtype h = 13 then s.takePre c h lines
  else if mtype h = 14 then (if c.op = 6 then s.takeRing c h lines else s)
  else if c.reduces then (if collPart h = 3 then s.takeGather c h lines else s.takeSum c h lines)
  else if c.op = 2 ∨ c.op = 5 then s.takeGather c h lines
  else if c.op = 3 then s.takeExchange c h lines
  else if c.op = 4 then s.takePermute c h lines
  else s

/-- A message of an OPSEQ that is accepted is dealt with by the running collective of that number, unless it is too early for it. -/
theorem State.collArrives_deals (htype : mtype h = mt) (hpkg : dstPkg h = s.ownPkg)
    (hgen : s.fld collGroupW0MemberGen (collDstDie h) (collGroupId h) = collGen h) (hopen : s.opseqOpen (collDstDie h) h = true)
    (hfind : (s.coll.running.find? fun x => x.die == collDstDie h && x.group == collGroupId h && x.opseq == collOpseq h) = some c)
    (hearly : c.tooEarly h = false) :
    s.collArrives mt h lines =
      ((s.receivePiece c h).dealPiece (c.heard s.beamNow) h (checkLines h lines)).settlePieces := by
  have hfind' : (((s.leaveInbox h).bump .collPieceRxCnt (collDstDie h) 0 1).coll.running.find? fun x =>
    x.die == collDstDie h && x.group == collGroupId h && x.opseq == collOpseq h) = some c := hfind
  rw [State.collArrives_takes htype hpkg hgen hopen, State.takePiece, hfind', ← s.receivePiece_now c h]
  simp only [hearly, Bool.false_eq_true, if_false]
  rfl

theorem State.dealPiece_sum (htype : mtype h = 12) (hreduces : c.reduces = true) (hpart : collPart h ≠ 3) :
    s.dealPiece c h lines = s.takeSum c h lines := by
  simp only [State.dealPiece, htype, hreduces, hpart, if_false, if_true, Nat.reduceEqDiff]

theorem State.dealPiece_pre (htype : mtype h = 13) : s.dealPiece c h lines = s.takePre c h lines := if_pos htype

theorem State.dealPiece_block (htype : mtype h = 14) (hop : c.op = 6) : s.dealPiece c h lines = s.takeRing c h lines := by
  simp only [State.dealPiece, htype, hop, if_false, if_true, Nat.reduceEqDiff]

/-- A traversal with one more block, kept by its slice and piece. -/
def Coll.withBlock (c : Coll) (key : Nat) (lines : List LineSeg) : Coll := { c with kv := c.kv ++ [(key, lines)], got := c.got + 1 }

/-- R553: a block is kept with its slice. -/
theorem State.takeRing_block (hdraining : c.draining = false) (hpart : collPart h = 0) : s.takeRing c h lines =
    s.advanceRing (c.withBlock (collChunk h * 2 ^ 24 + collPiece h) lines) := by
  rw [State.takeRing, if_neg (by rw [hdraining]; exact Bool.false_ne_true), if_pos hpart]
  rfl

end

/-! ## What a collective makes of it (R530, R532, R553) -/

/-- A collective that has dealt with one more piece, with the NF bit that came with it (R537). -/
def Coll.dealt (c : Coll) (now : Nat) (nf : Bool) : Coll := { c with waitFrom := now, got := c.got + 1, nf := c.nf || nf }

section
variable {s : State} {h : Words4} {lines : List LineSeg} {c : Coll} {i a b : Nat}

/-- R530: a rank adds its terms to partial sums of a chunk that is not its own and sends them on. -/
theorem State.takeSum_of_other (now : Nat)
    (hpiece : (piecesIn (c.part (collChunk h) (collPart h)).1 (c.part (collChunk h) (collPart h)).2 c.sumsPer)[collPiece h]? = some (i, a, b))
    (hother : collChunk h ≠ c.rank) : s.takeSum (c.heard now) h lines =
      (s.setColl (c.dealt now (collNf h))).sendPiece (c.dealt now (collNf h)) (collPart h == 1) 12 i (collChunk h) (collStep h + 1) (collPart h) 0
        (c.sumLines (s.sumsOf c a b (some lines))) := by
  have hpiece' : (piecesIn ((c.heard now).part (collChunk h) (collPart h)).1
    ((c.heard now).part (collChunk h) (collPart h)).2 (c.heard now).sumsPer)[collPiece h]? = some (i, a, b) := hpiece
  simp only [State.takeSum, hpiece', show collChunk h ≠ (c.heard now).rank from hother, if_false]
  rfl

/-- R532: a rank joins its exponents and non-finite bits to those of a chunk that is not its own and sends them on. -/
theorem State.takePre_of_other (now : Nat) (hpiece : (c.prePieces (collChunk h))[collPiece h]? = some (i, a, b)) (hpart : collPart h ≠ 3)
    (hother : collChunk h ≠ c.rank) : s.takePre (c.heard now) h lines =
      (s.setColl (c.dealt now (collNf h))).sendPiece (c.dealt now (collNf h)) true 13 i (collChunk h) (collStep h + 1) 0 0
        (preLines ((readPres (b - a) (fromLines lines)).zipIdx.map fun p => p.1.join (s.ownPre c (a + p.2)))) := by
  have hpiece' : ((c.heard now).prePieces (collChunk h))[collPiece h]? = some (i, a, b) := hpiece
  simp only [State.takePre, hpiece', hpart, show collChunk h ≠ (c.heard now).rank from hother, if_false]
  rfl

end

/-- A piece sent on by the collective that has dealt with it: one more received, one more sent, and its lines in the link's queue. -/
theorem State.sendPiece_received {s t : State} {h : Words4} {c d : Coll} {up : Bool} {k mt piece chunk step part stamp : Nat} {lines : List LineSeg}
    (heq : t = (((s.receivePiece c h).setColl d).sendPiece d up mt piece chunk step part stamp lines).settlePieces)
    (hfound : s.findColl c.cluster c.launch = some c) (hcluster : d.cluster = c.cluster) (hlaunch : d.launch = c.launch) (hdie : d.die = c.die)
    (hgroup : d.group = c.group) (hone : s.upLinks c.die (s.groupOf c.die c.group) up = [k]) (hearly : s.coll.early = []) :
    t.rd .collPieceRxCnt (collDstDie h) 0 = s.rd .collPieceRxCnt (collDstDie h) 0 + 1#64 ∧
    t.rd .collPieceTxCnt c.die 0 = s.rd .collPieceTxCnt c.die 0 + 1#64 ∧
    t.findColl c.cluster c.launch = some d ∧
    ((t.link (c.die * 8 + k)).tx2.map fun m => m.lines) = ((s.link (c.die * 8 + k)).tx2.map fun m => m.lines) ++ [lines] := by
  have hset : Reach 0x20000000000000001000000000000000000000000000000000000000000001c00000 s ((s.receivePiece c h).setColl d) :=
    ((s.receivePiece_reach c h).mono rfl).then (State.setColl_reach (s.receivePiece c h) d) rfl
  have hsent := ((s.receivePiece c h).setColl d).sendPiece_reach d up mt piece chunk step part stamp lines
  have hlists := (((ListsKept.refl s).reach (s.receivePiece_reach c h) rfl).setColl d).reach hsent rfl
  have hone' : ((s.receivePiece c h).setColl d).upLinks d.die (((s.receivePiece c h).setColl d).groupOf d.die d.group) up = [k] := by
    simp only [State.upLinks, State.linkState, hset.groupOf_eq (by decide), hset.fld_eq fabStatusState rfl, hdie, hgroup]
    exact hone
  rw [State.settlePieces_of_none (hlists.early.trans hearly)] at heq
  subst heq
  refine ⟨?_, ?_, ?_, ?_⟩
  · exact (hsent.rd_eq .collPieceRxCnt rfl _ _).trans (s.receivePiece_count c h)
  · rw [← hdie, State.sendPiece_count, hset.rd_eq .collPieceTxCnt rfl]
  · have hthere : (s.receivePiece c h).findColl d.cluster d.launch = some c := by
      rw [s.receivePiece_findColl, hcluster, hlaunch, hfound]
    rw [State.findColl_congr (congrArg CollEngine.running (hsent.same .coll rfl)), ← hcluster, ← hlaunch, State.findColl_setColl hthere]
  · rw [← hdie, State.sendPiece_lines hone', hdie]
    exact congrArg (fun l : Link => (l.tx2.map fun m => m.lines) ++ [lines]) (s.receivePiece_link c h _)

/-! ## COLL_ABORT (R559) -/

/-- An abort of a collective before its commit point is passed on, and ends it with the status carried. -/
theorem collAbortEffect_of_running {s : State} {h : Words4} {c : Coll} (htype : mtype h = 15) (hpkg : dstPkg h = s.ownPkg)
    (hgen : s.fld collGroupW0MemberGen (collDstDie h) (collGroupId h) = collGen h)
    (hfind : (s.coll.running.find? fun x => x.die == collDstDie h && x.group == collGroupId h && x.opseq == collOpseq h) = some c)
    (hstop : c.stop = false) (hlate : c.late = false) (hbefore : s.committed c = false) (hfails : failureCode (collStatus h) = true) :
    ∃ up, collAbortEffect h s = ((s.leaveInbox h).sendAbort c up (collStatus h)).endColl c (collStatus h) false := by
  have hfind' : ((s.leaveInbox h).coll.running.find? fun x => x.die == collDstDie h && x.group == collGroupId h && x.opseq == collOpseq h) = some c := hfind
  have hgen' : (s.leaveInbox h).fld collGroupW0MemberGen (collDstDie h) (collGroupId h) = collGen h := hgen
  have hbefore' : (s.leaveInbox h).committed c = false := hbefore
  unfold State.leaveInbox at hfind' hgen' hbefore' ⊢
  simp only [collAbortEffect, htype, hpkg, hgen', hfind', hstop, hlate, hfails, hbefore', ne_eq, not_true_eq_false, or_self, Bool.not_true, Bool.or_false,
    Bool.false_eq_true, if_false]
  exact ⟨_, rfl⟩

/-! ## The statement about messages (O41) -/

/-- Settles O41: a message of an accepted OPSEQ by what its collective makes of it, one of an old generation by its count. -/
theorem collectiveMessages : Obligations.CollectiveMessages := by
  refine ⟨?sums, ?prepass, ?block, ?abort, ?staleData, ?stalePrepass, ?staleBlock⟩
  case sums =>
    rintro s h lines c i a b k die ⟨htype, hpkg, hgen, hopen⟩ hfind ⟨hfound, hearly⟩ ⟨hreduces, hsent, hpart, hother⟩ hpiece hone
    have hup : s.upLinks c.die (s.groupOf c.die c.group) (collPart h == 1) = [k] := by
      simpa only [State.upLinks, beq_iff_eq] using hone
    have heq : s.collArrives 12 h lines = (((s.receivePiece c h).setColl (c.dealt s.beamNow (collNf h))).sendPiece (c.dealt s.beamNow (collNf h))
        (collPart h == 1) 12 i (collChunk h) (collStep h + 1) (collPart h) 0 (c.sumLines (s.sumsOf c a b (some (checkLines h lines))))).settlePieces := by
      rw [State.collArrives_deals htype hpkg hgen hopen hfind (by simp [Coll.tooEarly, htype, hsent]),
        State.dealPiece_sum (c := c.heard s.beamNow) htype hreduces hpart, State.takeSum_of_other _ hpiece hother, (s.receivePiece_reads c h).sumsOf]
    exact ⟨_, rfl, State.sendPiece_received heq hfound rfl rfl rfl rfl hup hearly⟩
  case prepass =>
    rintro s h lines c i lo hi k die ps ⟨htype, hpkg, hgen, hopen⟩ hfind ⟨hfound, hearly⟩ ⟨hpart, hother⟩ hpiece hone
    have heq : s.collArrives 13 h lines = (((s.receivePiece c h).setColl (c.dealt s.beamNow (collNf h))).sendPiece (c.dealt s.beamNow (collNf h))
        true 13 i (collChunk h) (collStep h + 1) 0 0 (preLines ps)).settlePieces := by
      rw [State.collArrives_deals htype hpkg hgen hopen hfind (by simp [Coll.tooEarly, htype]), State.dealPiece_pre htype,
        State.takePre_of_other _ hpiece hpart hother]
      simp only [(s.receivePiece_reads c h).virt.ownPre, ps]
    exact ⟨_, rfl, State.sendPiece_received heq hfound rfl rfl rfl rfl hone hearly⟩
  case block =>
    rintro s h lines c die ⟨htype, hpkg, hgen, hopen⟩ hfind ⟨hfound, hearly⟩ ⟨hop, hdraining, hpart⟩
    have hreceived := s.receivePiece_reach c h
    obtain ⟨d, hd⟩ : ∃ d, d = (c.heard s.beamNow).withBlock (collChunk h * 2 ^ 24 + collPiece h) (checkLines h lines) := ⟨_, rfl⟩
    have heq : s.collArrives 14 h lines = (s.receivePiece c h).advanceRing d := by
      rw [State.collArrives_deals htype hpkg hgen hopen hfind (by simp [Coll.tooEarly, htype, hpart]),
        State.dealPiece_block (c := c.heard s.beamNow) htype hop, State.takeRing_block (c := c.heard s.beamNow) hdraining hpart, hd]
      exact State.settlePieces_of_none ((((ListsKept.refl s).reach hreceived rfl).advanceRing _).early.trans hearly)
    refine ⟨_, congrArg Host.Outcome.next heq, ?_, ?_⟩
    · exact ((State.advanceRing_reach ..).rd_eq .collPieceRxCnt rfl _ _).trans (s.receivePiece_count c h)
    · subst hd
      exact State.advanceRing_kept (c := (c.heard s.beamNow).withBlock (collChunk h * 2 ^ 24 + collPiece h) (checkLines h lines))
        ((s.receivePiece_findColl c h c.cluster c.launch).trans hfound) Prod.snd
  case abort =>
    rintro s h c ⟨htype, hpkg, hgen⟩ ⟨hone, hstop, hlate, hbefore, hfails, hdie, hgroup, hopseq⟩
    have hfind : (s.coll.running.find? fun x => x.die == collDstDie h && x.group == collGroupId h && x.opseq == collOpseq h) = some c := by
      simp [hone, hdie, hgroup, hopseq]
    obtain ⟨up, heq⟩ := collAbortEffect_of_running htype hpkg (hdie ▸ hgen) hfind hstop hlate hbefore hfails
    have haborted : Reach 0x80000000000000000000000000000000000000000000000800000 s ((s.leaveInbox h).sendAbort c up (collStatus h)) :=
      .then ((s.leaveInbox_reach h).mono rfl) (State.sendAbort_reach ..) rfl
    have hone' : ((s.leaveInbox h).sendAbort c up (collStatus h)).coll.running = [c] := (congrArg CollEngine.running (haborted.same .coll rfl)).trans hone
    obtain ⟨hops, hcounts, -⟩ := ((s.leaveInbox h).sendAbort c up (collStatus h)).endColl_counts c (collStatus h) false
    rw [haborted.rd_eq .collOpCnt rfl] at hops
    rw [haborted.rd_eq .collAbortCnt rfl] at hcounts
    exact ⟨_, congrArg Host.Outcome.next heq, ⟨State.endColl_running hone' c.same_refl .., hops⟩, hcounts⟩
  case staleData =>
    rintro s h lines die ⟨htype, hpkg, hgen⟩
    exact gives_stale rfl htype hpkg hgen
  case stalePrepass =>
    rintro s h lines die ⟨htype, hpkg, hgen⟩
    exact gives_stale rfl htype hpkg hgen
  case staleBlock =>
    rintro s h lines die ⟨htype, hpkg, hgen⟩
    exact gives_stale rfl htype hpkg hgen

end Sys2Proof.Machine
end

section
/-!
SUPPORT. The statement about the start of collectives (spec/11_collectives_and_mapping.md R521, R522, R524, R525, R529, R542, R545, R549, R552,
R563, R567): reads that change no byte, the state in which a collective begins, what each operation starts with, and the pieces it counts.
-/
namespace Sys2Proof.Machine

/-! ## Reads that change no byte (R377, R379, R385) -/

theorem State.noneQueued_of_quiet {s : State} (h : s.readsQuiet = true) (pa n : Nat) : s.noneQueued pa n = true := by
  obtain ⟨-, hqueues⟩ := Bool.and_eq_true_iff.mp h
  refine List.all_eq_true.mpr fun p hp => List.all_eq_true.mpr fun r hr => ?_
  rw [List.all_eq_true.mp (List.all_eq_true.mp hqueues p hp) r hr, Bool.true_or]

theorem State.badCheck_of_quiet {s : State} (h : s.readsQuiet = true) : s.badCheck = [] := List.isEmpty_iff.mp (Bool.and_eq_true_iff.mp h).1

/-- Reads with nothing queued before them: they count, note errors and queue write-backs. -/
structure QuietKept (s t : State) : Prop where
  reach : Reach 0x10000000000000000000000000000000107820000000000000000000000000001c00 s t
  queues : OnlyWritebacks s t

namespace QuietKept
variable {r s : State}

theorem refl (s : State) : QuietKept s s := ⟨.refl .., .of_eq rfl⟩

theorem foldl {β : Type} {f : State → β → State} (l : List β) (h : QuietKept r s) (hf : ∀ t x, QuietKept r t → QuietKept r (f t x)) :
    QuietKept r (l.foldl f s) :=
  List.foldlRecOn l f h fun t ht x _ => hf t x ht

theorem useSector (h : QuietKept r s) (owner base : Nat) : QuietKept r (s.useSector owner base) := by
  have hread := (s.readSector_reach (hbmPlace s.harbour base).1 base owner false).fst
  have hchans : (s.readSector (hbmPlace s.harbour base).1 base owner false).1.hbm.chans = s.hbm.chans := State.noteSector_chans ..
  have hnoted : QuietKept r (s.readSector (hbmPlace s.harbour base).1 base owner false).1 :=
    ⟨h.reach.then hread rfl, h.queues.trans (.of_eq hchans)⟩
  unfold State.useSector
  split
  next u _ _ heq =>
    rw [heq] at hnoted
    exact ⟨hnoted.reach.then (State.queueWriteback_reach ..) rfl, hnoted.queues.trans (u.queueWriteback_onlyWritebacks ..)⟩
  next heq =>
    rw [heq] at hnoted
    exact hnoted

section
variable (h : QuietKept r s) (hquiet : r.readsQuiet = true)
include h hquiet

theorem didRead (a : Access) (pa n : Nat) : QuietKept r (s.didRead a pa n) := by
  have htouched : QuietKept r (s.touchRead pa) := ⟨h.reach.then (State.touchRead_reach ..) rfl, h.queues.reach (State.touchRead_reach ..) rfl⟩
  unfold State.didRead
  dsimp only
  split
  · rw [State.flushSectors_of_noneQueued (htouched.queues.noneQueued (State.noneQueued_of_quiet hquiet ..))]
    exact htouched.foldl _ fun t k ht => ht.useSector ..
  · have hused : QuietKept r ((s.touchRead pa).useSlots a pa n) :=
      ⟨htouched.reach.then (State.useSlots_reach ..) rfl, htouched.queues.reach (State.useSlots_reach ..) rfl⟩
    have hnone : setIn pa n ((s.touchRead pa).useSlots a pa n).badCheck = [] := by
      rw [hused.reach.same .badCheck rfl, State.badCheck_of_quiet hquiet]
      rfl
    rw [State.checkSram, hnone]
    exact hused

theorem readRuns (a : Access) (runs : List (Nat × Nat)) : QuietKept r (s.readRuns a runs) := h.foldl _ fun _ _ ht => ht.didRead hquiet ..

theorem readElems (c : Coll) (d : Desc) (lo hi : Nat) : QuietKept r (s.readElems c d lo hi) := by
  refine h.foldl _ fun t row ht => ?_
  split
  · exact ht.readRuns hquiet ..
  · exact ht

theorem collReads (c : Coll) : QuietKept r (s.collReads c) := by
  unfold State.collReads
  dsimp only
  split_ifs
  · exact h.readElems hquiet ..
  · exact h
  · exact (h.readElems hquiet ..).readElems hquiet ..
  · exact h.readElems hquiet ..

end
end QuietKept

/-! ## The state in which a collective begins (R521, R524, R563) -/

theorem State.recOr_index (s : State) (launch : Nat) : (s.recOr launch).index = launch := by
  rw [State.recOr]
  cases hfound : s.findRec launch with
  | none => rfl
  | some r => exact eq_of_beq (List.find?_some hfound :)

/-- The command that a cluster's sequencer hands over, with its clamps. -/
def State.handed (s : State) (cl la : Nat) (q : Seq) (image : CmdImage) : Coll × Nat :=
  s.parseColl cl (s.recOr la) (s.imageWords cl (s.recOr la) q.next 8 image)

theorem State.handed_fresh (s : State) (cl la : Nat) (q : Seq) (image : CmdImage) :
    (s.handed cl la q image).1.cluster = cl ∧ (s.handed cl la q image).1.launch = la ∧ (s.handed cl la q image).1.got = 0 ∧
    (s.handed cl la q image).1.dataSent = false :=
  ⟨rfl, s.recOr_index la, rfl, rfl⟩

/-- The state in which a collective begins: its clamps counted, it joins those that run and takes its group's next number. -/
def State.enrol (s : State) (cl : Nat) (p : Coll × Nat) : State :=
  let t := s.clamped cl p.2
  { t with coll := { t.coll with running := t.coll.running ++ [p.1], issued := putD 0 (p.1.die * 256 + p.1.group) (p.1.opseq + 1) t.coll.issued } }

theorem State.enrol_reach (s : State) (cl : Nat) (p : Coll × Nat) : Reach 0x10000000000000000000001000000 s (s.enrol cl p) :=
  ((s.clamped_reach cl p.2).mono rfl).set_coll rfl

/-- What holds where a collective begins, and still after its reads. -/
structure Begun (s t : State) (c : Coll) : Prop where
  reach : Reach 0x10000000000000000000000000000000107820010000000000000000000001001c00 s t
  found : t.findColl c.cluster c.launch = some c
  issued : lookupD 0 (c.die * 256 + c.group) t.coll.issued = c.opseq + 1
  early : t.coll.early = []
  quiet : t.readsQuiet = true

namespace Begun
variable {s t u : State} {c : Coll}

theorem reads (h : Begun s t c) : SameVirtual s t := h.reach.sameVirtual (by decide)

/-- Clamps counted and reads done. -/
theorem after (h : Begun s t c) (k : QuietKept t u) : Begun s u c where
  reach := h.reach.then k.reach rfl
  found := (State.findColl_congr (congrArg CollEngine.running (k.reach.same .coll rfl)) ..).trans h.found
  issued := (congrArg (fun x : CollEngine => lookupD 0 (c.die * 256 + c.group) x.issued) (k.reach.same .coll rfl)).trans h.issued
  early := (congrArg CollEngine.early (k.reach.same .coll rfl)).trans h.early
  quiet := by
    refine Bool.and_eq_true_iff.mpr ⟨?_, List.all_eq_true.mpr fun p hp => List.all_eq_true.mpr fun r hr => ?_⟩
    · rw [k.reach.same .badCheck rfl, State.badCheck_of_quiet h.quiet]
      rfl
    · rcases k.queues.chans p hp r hr with hwb | ⟨x, hx, hrx⟩
      · exact hwb
      · exact List.all_eq_true.mp (List.all_eq_true.mp (Bool.and_eq_true_iff.mp h.quiet).2 x hx) r hrx

end Begun

theorem State.enrol_begun {s : State} {p : Coll × Nat} (hruns : s.collRuns p.1.cluster p.1.launch = false) (hearly : s.coll.early = [])
    (hquiet : s.readsQuiet = true) (cl : Nat) : Begun s (s.enrol cl p) p.1 := by
  have hclamped : Reach 0x10000000000000000000000000000 s (s.clamped cl p.2) := State.clamped_reach ..
  have hcoll := hclamped.same .coll rfl
  refine ⟨(s.enrol_reach ..).mono rfl, ?_, lookupD_putD_self 0 (p.1.die * 256 + p.1.group) (p.1.opseq + 1) (s.clamped cl p.2).coll.issued,
    (congrArg CollEngine.early hcoll).trans hearly, ?_⟩
  · have hnone : (s.clamped cl p.2).coll.running.find? (fun x => x.cluster == p.1.cluster && x.launch == p.1.launch) = none := by
      rw [hcoll]
      exact List.find?_eq_none.mpr fun x hx => List.any_eq_false.mp hruns x hx
    rw [State.findColl]
    refine (List.find?_append ..).trans ?_
    rw [hnone, Option.none_or, List.find?_singleton, beq_self_eq_true, beq_self_eq_true]
    rfl
  · rw [← hquiet, State.readsQuiet, State.readsQuiet, ← hclamped.same .badCheck rfl, ← hclamped.same .hbm rfl]
    rfl

section
variable {s : State} {cluster : Fin 24} {launch : BitVec 12} {image : CmdImage} {q : Seq}

/-- R521: a command of a free cluster's sequence begins. -/
theorem collIssue_of_free {op : Nat}
    (hfree : (s.chains.any fun d => d.cluster == cluster.val && d.launch == launch.toNat && !d.extra) = false ∧
      s.collRuns cluster.val launch.toNat = false)
    (hseq : s.findSeq cluster.val launch.toNat = some q ∧ q.ended = false ∧
      imageOpc (s.imageWords cluster.val (s.recOr launch.toNat) q.next 8 image) = 0xD)
    (hop : (s.handed cluster.val launch.toNat q image).1.op = op)
    (hvalid : (s.groupOf (s.handed cluster.val launch.toNat q image).1.die (s.handed cluster.val launch.toNat q image).1.group).valid = true) :
    collIssue op cluster launch image s =
      ((s.enrol cluster.val (s.handed cluster.val launch.toNat q image)).startColl (s.handed cluster.val launch.toNat q image).1).settlePieces := by
  obtain ⟨hchains, hruns⟩ := hfree
  obtain ⟨hfound, hended, hopc⟩ := hseq
  have hneed : s.needSeq cluster.val launch.toNat = s := by rw [State.needSeq, hfound]
  have hvalid' : ((s.clamped cluster.val (s.handed cluster.val launch.toNat q image).2).groupOf (s.handed cluster.val launch.toNat q image).1.die
      (s.handed cluster.val launch.toNat q image).1.group).valid = true := by
    rw [(State.clamped_reach ..).groupOf_eq (by decide), hvalid]
  unfold State.handed at hop hvalid' ⊢
  simp only [collIssue, hneed, hfound, hchains, hruns, hended, hopc, hop, hvalid', bne_self_eq_false, Bool.or_self, Bool.not_true, Bool.false_eq_true,
    if_false]
  rfl

/-- What a command gives where it begins. -/
theorem gives_begun {i : Instr} {op : Nat} {P : State → Prop}
    (hexec : exec i s = .next (collIssue op cluster launch image s))
    (hfree : (s.chains.any fun d => d.cluster == cluster.val && d.launch == launch.toNat && !d.extra) = false ∧
      s.collRuns cluster.val launch.toNat = false)
    (hseq : s.findSeq cluster.val launch.toNat = some q ∧ q.ended = false ∧
      imageOpc (s.imageWords cluster.val (s.recOr launch.toNat) q.next 8 image) = 0xD)
    (hcoll : (s.handed cluster.val launch.toNat q image).1.op = op ∧
      (s.groupOf (s.handed cluster.val launch.toNat q image).1.die (s.handed cluster.val launch.toNat q image).1.group).valid = true ∧
      s.coll.early = [] ∧ s.readsQuiet = true)
    (hstart : ∀ u c, c = (s.handed cluster.val launch.toNat q image).1 → Begun s u c → ReadsAlike s u →
      ListsKept u (u.startColl c) ∧ P (u.startColl c)) :
    Gives i s fun t => lookupD 0 ((s.handed cluster.val launch.toNat q image).1.die * 256 + (s.handed cluster.val launch.toNat q image).1.group)
      t.coll.issued = (s.handed cluster.val launch.toNat q image).1.opseq + 1 ∧ P t := by
  obtain ⟨hop, hvalid, hearly, hquiet⟩ := hcoll
  obtain ⟨hcluster, hlaunch, -⟩ := s.handed_fresh cluster.val launch.toNat q image
  have hruns : s.collRuns (s.handed cluster.val launch.toNat q image).1.cluster (s.handed cluster.val launch.toNat q image).1.launch = false := by
    rw [hcluster, hlaunch]
    exact hfree.2
  have hbegun := State.enrol_begun hruns hearly hquiet cluster.val
  obtain ⟨hlists, hgives⟩ := hstart _ _ rfl hbegun ((s.enrol_reach ..).readsAlike (by decide))
  have heq := (collIssue_of_free hfree hseq hop hvalid).trans (State.settlePieces_of_none (hlists.early.trans hbegun.early))
  exact ⟨_, hexec.trans (congrArg Host.Outcome.next heq), (congrArg (lookupD 0 _) hlists.issued).trans hbegun.issued, hgives⟩

end

/-! ## Pieces counted (R568) -/

/-- A register to which each step of a fold adds a number has gained their sum. -/
theorem State.rd_foldl_adds {β : Type} {f : State → β → State} {r : Reg} {u i : Nat} {n : β → Nat}
    (hf : ∀ t x, (f t x).rd r u i = t.rd r u i + BitVec.ofNat 64 (n x)) (l : List β) (s : State) :
    (l.foldl f s).rd r u i = s.rd r u i + BitVec.ofNat 64 (l.map n).sum := by
  induction l generalizing s with
  | nil => exact (BitVec.add_zero _).symm
  | cons x l ih => rw [List.foldl_cons, ih, hf, List.map_cons, List.sum_cons, BitVec.ofNat_add, BitVec.add_assoc]

/-- One piece for each entry. -/
theorem State.rd_foldl_ones {β : Type} {f : State → β → State} {r : Reg} {u i : Nat} (hf : ∀ t x, (f t x).rd r u i = t.rd r u i + 1#64)
    (l : List β) (s : State) : (l.foldl f s).rd r u i = s.rd r u i + BitVec.ofNat 64 l.length := by
  rw [State.rd_foldl_adds (n := fun _ => 1) hf, List.map_const', List.sum_replicate, smul_eq_mul, Nat.mul_one]

/-- A sum over the entries that satisfy a test. -/
theorem sum_map_ite_zero {β : Type} (p : β → Bool) (n : β → Nat) (l : List β) :
    (l.map fun x => if p x then n x else 0).sum = ((l.filter p).map n).sum := by
  simp [List.sum_map_ite]

end Sys2Proof.Machine
end

section
/-!
SUPPORT. The statement about the start of collectives, by operation: what each starts with and the pieces it sends
(spec/11_collectives_and_mapping.md R522, R525, R529, R532, R537, R542, R545, R549, R552).
-/
namespace Sys2Proof.Machine

/-! ## Which start an operation has -/

section
variable {s : State} {c : Coll}

theorem Begun.sourceOk {t : State} (h : Begun s t c) (hsource : s.collSourceOk c = true) : t.collSourceOk c = true := by
  rw [← hsource]
  simp only [State.collSourceOk, State.elemsPresent, h.reads.srcOf, h.reads.readPa]

theorem State.startColl_reduce (hop : c.op = 0 ∨ c.op = 1) (hsource : s.collSourceOk c = true) : s.startColl c = (s.collReads c).startReduce c := by
  rcases hop with hop | hop <;> simp only [State.startColl, hop, hsource, Bool.not_true, Bool.false_eq_true, or_self, if_false, Nat.reduceEqDiff]

theorem State.startColl_gather (hop : c.op = 2 ∨ c.op = 5) (hsource : s.collSourceOk c = true) : s.startColl c = (s.collReads c).startGather c := by
  rcases hop with hop | hop <;>
    simp only [State.startColl, hop, hsource, Bool.not_true, Bool.false_eq_true, true_or, or_true, if_false, if_true, Nat.reduceEqDiff]

theorem State.startColl_exchange (hop : c.op = 3) (hsource : s.collSourceOk c = true) : ∃ n, s.startColl c =
    ((s.collReads c).setColl { c with need := n }).startExchange { c with need := n } := by
  simp only [State.startColl, hop, hsource, Bool.not_true, Bool.false_eq_true, if_false, if_true, Nat.reduceEqDiff]
  exact ⟨_, rfl⟩

theorem State.startColl_permute (hop : c.op = 4) : s.startColl c = s.startPermute c := by
  simp only [State.startColl, hop, if_false, if_true, Nat.reduceEqDiff]

theorem State.startColl_ring (hop : c.op = 6) : s.startColl c = s.startRing c := by
  simp only [State.startColl, hop, if_false, if_true, Nat.reduceEqDiff]

/-- R542: an NF_CHECK behind an open gate. -/
theorem State.startColl_check (hop : c.op = 7) (hopen : bitOf (s.rd .collNfGate c.die) c.owner = false) : s.startColl c = s.endColl c stOk false := by
  simp only [State.startColl, hop, hopen, Bool.false_eq_true, if_false, if_true]

end

/-! ## ALL_REDUCE and REDUCE_SCATTER (R525, R529, R532, R537) -/

/-- A reduction with its local flag and the pieces that it is to deal with. -/
def State.reducing (s : State) (c : Coll) : Coll :=
  { c with nf := s.localFlag c,
           need := c.sumNeed + (if c.op = 0 then c.gatherNeed (s.dstOf c) else 0) + (if c.exact then c.preNeed else 0) }

theorem State.reducing_need_all {s : State} {c : Coll} (hop : c.op = 0) :
    (s.reducing c).need = c.sumNeed + c.gatherNeed (s.dstOf c) + (if c.exact then c.preNeed else 0) := by rw [State.reducing, if_pos hop]

theorem State.reducing_need_scatter {s : State} {c : Coll} (hop : c.op = 1) :
    (s.reducing c).need = c.sumNeed + (if c.exact then c.preNeed else 0) := by rw [State.reducing, if_neg (by rw [hop]; decide), Nat.add_zero]

/-- A reduction that has sent the sums it starts. -/
def Coll.sending (c : Coll) : Coll := { c with dataSent := true }

theorem Begun.localFlag {s t : State} {c : Coll} (h : Begun s t c) : t.localFlag c = s.localFlag c := by
  simp only [State.localFlag, h.reads.srcOf, h.reads.valAt, h.reach.rd_eq .collNfSeen rfl]

/-- A reduction of two ranks or more runs with its flag and its pieces. -/
theorem Begun.startReduce {s t : State} {c : Coll} (h : Begun s t c) (hdegree : 2 ≤ c.degree) :
    ListsKept t (t.startReduce c) ∧ (t.startReduce c).findColl c.cluster c.launch =
      some (if c.exact then s.reducing c else (s.reducing c).sending) := by
  have hdegree' : c.degree ≠ 1 := by omega
  have hreducing : ({ c with nf := t.localFlag c, need := c.sumNeed + (if c.op = 0 then c.gatherNeed (t.dstOf c) else 0) +
      (if c.exact then c.preNeed else 0) } : Coll) = s.reducing c := by rw [State.reducing, h.localFlag, h.reads.dstOf]
  unfold State.startReduce
  extract_lets flag dst flagged alone single needing running k sent
  have hranks : ¬flagged.degree = 1 := hdegree'
  have hrunning : running.findColl c.cluster c.launch = some needing := State.findColl_setColl (d := needing) h.found
  have hneeding : needing = s.reducing c := hreducing
  rw [if_neg hranks]
  split
  case isTrue hexact =>
    have hsent : Reach 0x80800000000000000000000000000000000000000000000800000 running ((needing.prePieces k).foldl (fun u x =>
        u.sendPiece needing true 13 x.1 k 1 0 0 (preLines ((List.range (x.2.2 - x.2.1)).map fun j => u.ownPre needing (x.2.1 + j)))) running) :=
      .foldl _ (.refl ..) fun u x hu => hu.then (State.sendPiece_reach ..) rfl
    rw [← hneeding]
    exact ⟨((ListsKept.refl t).setColl needing).reach hsent rfl,
      (State.findColl_congr (congrArg CollEngine.running (hsent.same .coll rfl)) ..).trans hrunning⟩
  case isFalse hexact =>
    have hsums := (running.setColl sent).startSums_reach sent
    rw [← hneeding]
    exact ⟨(((ListsKept.refl t).setColl needing).setColl sent).reach hsums rfl,
      (State.findColl_congr (congrArg CollEngine.running (hsums.same .coll rfl)) ..).trans (State.findColl_setColl (d := sent) hrunning)⟩

/-! ## ALL_GATHER and BROADCAST (R525, R545) -/

namespace ListsKept
variable {r s : State}

theorem collWrote (h : ListsKept r s) (c : Coll) (lines : Nat) (bad poison : Bool) : ListsKept r (s.collWrote c lines bad poison) :=
  .ite (.endColl ((h.setColl _).reach (State.clearFailed_reach _) rfl) ..) (h.setColl _)

theorem putPermChunk (h : ListsKept r s) (c : Coll) (pos : Nat) (lines : List LineSeg) : ListsKept r (s.putPermChunk c pos lines) :=
  (h.reach (State.putVLines_reach ..).fst rfl).collWrote ..

end ListsKept

/-- Elements stored, and the lines counted for the collective. -/
def State.storeWrote (s : State) (c : Coll) (d : Desc) (lo hi : Nat) (lines : List LineSeg) (n : Nat) : State :=
  let u := s.storeData c d lo hi lines
  u.1.collWrote c n u.2.1 u.2.2

theorem State.storeWrote_reach (s : State) (c : Coll) (d : Desc) (lo hi : Nat) (lines : List LineSeg) (n : Nat) :
    Reach 0x4000300000074100000b040000006001022011fa200c0120000800000000000003f87cfd s (s.storeWrote c d lo hi lines n) :=
  ((State.storeData_reach ..).fst.mono rfl).then (State.collWrote_reach ..) rfl

theorem ListsKept.storeWrote {r s : State} (h : ListsKept r s) (c : Coll) (d : Desc) (lo hi : Nat) (lines : List LineSeg) (n : Nat) :
    ListsKept r (s.storeWrote c d lo hi lines n) := (h.reach (State.storeData_reach ..).fst rfl).collWrote ..

theorem State.sendChunk_count (s : State) (c : Coll) (d : Desc) (off k part stamp : Nat) (poisoned : Nat → Bool) (ovl : Overlay) :
    (s.sendChunk c d off k part stamp poisoned ovl).rd .collPieceTxCnt c.die 0 =
      s.rd .collPieceTxCnt c.die 0 + BitVec.ofNat 64 (c.gatherPieces d k).length :=
  State.rd_foldl_ones (fun t _ => t.sendPiece_count ..) _ _

/-- The owner of a chunk sends its pieces round. -/
theorem Begun.startGather {s t : State} {c : Coll} (h : Begun s t c) (hdegree : 2 ≤ c.degree) (howns : (if c.op = 5 then c.root else c.rank) = c.rank) :
    ListsKept t (t.startGather c) ∧
    (t.startGather c).rd .collPieceTxCnt c.die 0 = s.rd .collPieceTxCnt c.die 0 + BitVec.ofNat 64 (c.gatherPieces (s.srcOf c) c.rank).length := by
  have hdegree' : c.degree ≠ 1 := by omega
  unfold State.startGather
  extract_lets src dst needing running k off stamp sent
  have howns' : ¬k ≠ needing.rank := not_not.mpr howns
  have hranks : ¬needing.degree = 1 := hdegree'
  have hsent : sent = running.sendChunk needing src off k 0 stamp (running.elemPoison needing src) := if_neg hranks
  have hcount : sent.rd .collPieceTxCnt c.die 0 = s.rd .collPieceTxCnt c.die 0 + BitVec.ofNat 64 (c.gatherPieces (s.srcOf c) c.rank).length := by
    rw [hsent, ← h.reads.srcOf, ← h.reach.rd_eq .collPieceTxCnt rfl]
    refine (State.sendChunk_count running needing ..).trans ?_
    rw [show k = c.rank from howns]
    rfl
  have hkept : ListsKept t sent := by
    rw [hsent]
    exact ((ListsKept.refl t).setColl needing).reach (State.sendChunk_reach ..) rfl
  have hstored : ∀ lo hi lines n, ListsKept t (sent.storeWrote needing dst lo hi lines n) ∧
      (sent.storeWrote needing dst lo hi lines n).rd .collPieceTxCnt c.die 0 = sent.rd .collPieceTxCnt c.die 0 := fun lo hi lines n =>
    ⟨hkept.storeWrote .., (State.storeWrote_reach ..).rd_eq .collPieceTxCnt rfl _ _⟩
  rw [if_neg howns', ← hcount]
  exact hstored ..

/-! ## ALL_TO_ALL (R522) -/

theorem piecesIn_length (lo hi per : Nat) : (piecesIn lo hi per).length = pieceCount (hi - lo) per := by
  rw [piecesIn, List.length_map, List.length_range]

theorem State.sendRank_count (s : State) (c : Coll) (rank piece chunk part : Nat) (lines : List LineSeg) :
    (s.sendRank c rank piece chunk part lines).rd .collPieceTxCnt c.die 0 = s.rd .collPieceTxCnt c.die 0 + 1#64 :=
  ((State.post_reach ..).rd_eq .collPieceTxCnt rfl _ _).trans (State.rd_bump_self ..)

/-- A rank's own part put in place, piece by piece (R522). -/
def State.copyPart (s : State) (c : Coll) (pieces : List (Nat × Nat × Nat × List LineSeg)) : State :=
  let base := c.rank * c.chunkSize
  pieces.foldl (fun s x =>
    match s.findColl c.cluster c.launch with
    | none => s
    | some c =>
      let d := s.dstOf c
      let (s, bad, poi) := s.storeData c d (base + x.2.1) (base + x.2.2.1) x.2.2.2
      s.collWrote c (linesOf d (base + x.2.1) (base + x.2.2.1)) bad poi) s

theorem State.copyPart_kept (s : State) (c : Coll) (pieces : List (Nat × Nat × Nat × List LineSeg)) :
    Reach 0x4000300000074100000b040000006001022011fa200c0120000800000000000003f87cfd s (s.copyPart c pieces) ∧ ListsKept s (s.copyPart c pieces) := by
  refine List.foldlRecOn (motive := fun t => Reach 0x4000300000074100000b040000006001022011fa200c0120000800000000000003f87cfd s t ∧ ListsKept s t)
    pieces _ ⟨.refl .., .refl s⟩ fun t ⟨hreach, hlists⟩ x _ => ?_
  split
  · exact ⟨hreach, hlists⟩
  next d _ =>
    exact ⟨hreach.then (t.storeWrote_reach d (t.dstOf d) ..) rfl, hlists.storeWrote d (t.dstOf d) ..⟩

/-- The pieces of every rank's chunk, read before any is sent. -/
def State.exchangeParts (s : State) (c : Coll) : List (Nat × List (Nat × Nat × Nat × List LineSeg)) :=
  (List.range c.degree).map fun k =>
    (k, (piecesIn (c.chunk k).1 (c.chunk k).2 (c.codesPer (s.srcOf c).fmt)).map fun x =>
      (x.1, x.2.1 - (c.chunk k).1, x.2.2 - (c.chunk k).1, s.dataLines c (s.srcOf c) x.2.1 x.2.2 (s.elemPoison c (s.srcOf c))))

/-- A rank's part put in place where it is the own one, and sent to its rank otherwise. -/
def State.exchangePart (s : State) (c : Coll) (p : Nat × List (Nat × Nat × Nat × List LineSeg)) : State :=
  if p.1 = c.rank then s.copyPart c p.2 else p.2.foldl (fun s x => s.sendRank c p.1 x.1 c.rank 0 x.2.2.2) s

theorem State.startExchange_eq (s : State) (c : Coll) : s.startExchange c = (s.exchangeParts c).foldl (fun t p => t.exchangePart c p) s := rfl

theorem ListsKept.exchangePart {r s : State} (h : ListsKept r s) (c : Coll) (p : Nat × List (Nat × Nat × Nat × List LineSeg)) :
    ListsKept r (s.exchangePart c p) :=
  .ite (h.trans (s.copyPart_kept c p.2).2) (h.foldl _ fun _ _ ht => ht.reach (State.sendRank_reach ..) rfl)

theorem State.exchangePart_count (s : State) (c : Coll) (p : Nat × List (Nat × Nat × Nat × List LineSeg)) :
    (s.exchangePart c p).rd .collPieceTxCnt c.die 0 =
      s.rd .collPieceTxCnt c.die 0 + BitVec.ofNat 64 (if p.1 != c.rank then p.2.length else 0) := by
  rw [State.exchangePart]
  by_cases hown : p.1 = c.rank
  · rw [if_pos hown, hown, bne_self_eq_false, if_neg Bool.false_ne_true, (s.copyPart_kept c p.2).1.rd_eq .collPieceTxCnt rfl, BitVec.add_zero]
  · rw [if_neg hown, if_pos (bne_iff_ne.mpr hown), State.rd_foldl_ones fun t _ => t.sendRank_count ..]

/-- ALL_TO_ALL sends the pieces of every other rank's chunk. -/
theorem State.startExchange_counts {s t : State} (h : SameVirtual s t) (c : Coll) : ListsKept t (t.startExchange c) ∧
    (t.startExchange c).rd .collPieceTxCnt c.die 0 = t.rd .collPieceTxCnt c.die 0 + BitVec.ofNat 64
      (((List.range c.degree).filter fun k => k != c.rank).map fun k => pieceCount ((c.chunk k).2 - (c.chunk k).1) (c.codesPer (s.srcOf c).fmt)).sum := by
  have hlengths : (t.exchangeParts c).map (fun p => if p.1 != c.rank then p.2.length else 0) =
      (List.range c.degree).map fun k => if k != c.rank then pieceCount ((c.chunk k).2 - (c.chunk k).1) (c.codesPer (s.srcOf c).fmt) else 0 := by
    rw [State.exchangeParts, List.map_map, h.srcOf]
    refine List.map_congr_left fun k _ => ?_
    rw [Function.comp, List.length_map, piecesIn_length]
  rw [t.startExchange_eq, State.rd_foldl_adds (fun u p => u.exchangePart_count c p), hlengths, sum_map_ite_zero]
  exact ⟨.foldl _ (.refl t) fun u p hu => hu.exchangePart c p, rfl⟩

/-! ## PERMUTE (R549) -/

theorem State.vLine_isSome (s : State) (die owner va : Nat) : (s.vLine die owner va).isSome = (s.readPa die owner va).isSome := Option.isSome_map ..

/-- The pages of a PERMUTE's source are present. -/
def State.permSourceHere (s : State) (c : Coll) : Bool :=
  (List.range c.elems).all fun k =>
    (s.vLines c.die c.owner ((s.srcOf c).base + k * c.pieceLines * 128) c.pieceLines).all fun x => x.isSome

/-- The chunks of a PERMUTE's source, with their indices. -/
def State.permReads (s : State) (c : Coll) : List (Nat × List (Option LineSeg)) :=
  (List.range c.elems).map fun k => (k, s.vLines c.die c.owner ((s.srcOf c).base + k * c.pieceLines * 128) c.pieceLines)

/-- A chunk put in place or sent, as the table has it. -/
def State.permuteChunk (s : State) (c : Coll) (table : List (Nat × Nat)) (r : Nat × List (Option LineSeg)) : State :=
  let i := c.rank * c.elems + r.1
  let e := table.getD i (0, 0)
  let lines := r.2.filterMap id
  if e.1 = c.rank then
    (match s.findColl c.cluster c.launch with
     | some c => if permWinner table e.1 e.2 = some i then s.putPermChunk c e.2 lines else s
     | none => s)
  else
    let m := s.member (s.groupOf c.die c.group) e.1
    let h := collHeader 12 m.1 s.ownPkg m.2 c.die c.group c.memberGen c.owner e.2 c.rank r.1 0 false 0 0 c.opseq lines.length
    (s.bump .collPieceTxCnt c.die 0 1).post c.die h lines

theorem State.startPermute_of_present {s u : State} {c : Coll} (hu : u = s.clamped c.cluster (s.permTable c).2)
    (hpresent : ((u.permReads c).any fun r => r.2.any fun x => x.isNone) = false) (hhere : u.permTableHere c = true) :
    ∃ n, s.startPermute c = (u.permReads c).foldl (fun t r => t.permuteChunk { c with need := n } (s.permTable c).1 r)
      ((u.setColl { c with need := n }).readVLines { c with need := n } (u.srcOf c).base (c.elems * c.pieceLines)) := by
  subst hu
  have hnone : ¬((((s.clamped c.cluster (s.permTable c).2).permReads c).any fun r => r.2.any fun x => x.isNone) ||
      !(s.clamped c.cluster (s.permTable c).2).permTableHere c) = true := by rw [hpresent, hhere]; exact Bool.false_ne_true
  exact ⟨_, if_neg hnone⟩

theorem ListsKept.permuteChunk {r s : State} (h : ListsKept r s) (c : Coll) (table : List (Nat × Nat)) (x : Nat × List (Option LineSeg)) :
    ListsKept r (s.permuteChunk c table x) := by
  have hcounted : ListsKept r (s.bump .collPieceTxCnt c.die 0 1) := h.trans ⟨rfl, rfl⟩
  unfold State.permuteChunk
  extract_lets i e lines m header
  refine .ite ?_ (hcounted.reach (State.post_reach ..) rfl)
  split
  · exact .ite (h.putPermChunk ..) h
  · exact h

theorem State.permuteChunk_count (s : State) (c : Coll) (table : List (Nat × Nat)) (x : Nat × List (Option LineSeg)) :
    (s.permuteChunk c table x).rd .collPieceTxCnt c.die 0 = s.rd .collPieceTxCnt c.die 0 +
      BitVec.ofNat 64 (if (table.getD (c.rank * c.elems + x.1) (0, 0)).1 != c.rank then 1 else 0) := by
  unfold State.permuteChunk
  extract_lets i e lines m header
  by_cases hown : e.1 = c.rank
  · rw [if_pos hown, hown, bne_self_eq_false, if_neg Bool.false_ne_true, BitVec.add_zero]
    split
    · split
      · exact (State.putPermChunk_reach ..).rd_eq .collPieceTxCnt rfl _ _
      · rfl
    · rfl
  · rw [if_neg hown, if_pos (bne_iff_ne.mpr hown)]
    exact ((State.post_reach ..).rd_eq .collPieceTxCnt rfl _ _).trans (State.rd_bump_self ..)

theorem State.foldl_permuteChunk_count (s : State) (c : Coll) (table : List (Nat × Nat)) (rs : List (Nat × List (Option LineSeg))) :
    (rs.foldl (fun u r => u.permuteChunk c table r) s).rd .collPieceTxCnt c.die 0 = s.rd .collPieceTxCnt c.die 0 +
      BitVec.ofNat 64 (rs.map fun r => if (table.getD (c.rank * c.elems + r.1) (0, 0)).1 != c.rank then 1 else 0).sum :=
  State.rd_foldl_adds (fun u r => u.permuteChunk_count c table r) rs s

theorem SameVirtual.trans {r s t : State} (h : SameVirtual r s) (k : SameVirtual s t) : SameVirtual r t :=
  ⟨k.mem.trans h.mem, k.delta.trans h.delta, k.order.trans h.order, k.dict.trans h.dict, k.fuses.trans h.fuses, k.harbour.trans h.harbour,
    fun u i => (k.root u i).trans (h.root u i)⟩

theorem SameVirtual.permTable {s t : State} (h : SameVirtual s t) (c : Coll) : t.permTable c = s.permTable c := by
  simp only [State.permTable, h.collDesc, h.virtWord]

theorem SameVirtual.permTableHere {s t : State} (h : SameVirtual s t) (c : Coll) : t.permTableHere c = s.permTableHere c := by
  simp only [State.permTableHere, h.collDesc, h.readPa]

/-- The pages of a source are present where they were. -/
theorem SameVirtual.permReads_present {s t : State} (h : SameVirtual s t) {c : Coll}
    (hpresent : s.permSourceHere c = true) :
    ((t.permReads c).any fun r => r.2.any fun x => x.isNone) = false := by
  refine List.any_eq_false.mpr fun r hr hsome => ?_
  obtain ⟨k, hk, rfl⟩ := List.mem_map.mp hr
  obtain ⟨x, hx, hnone⟩ := List.any_eq_true.mp hsome
  obtain ⟨j, hj, rfl⟩ := List.mem_map.mp hx
  have hhere := List.all_eq_true.mp (List.all_eq_true.mp hpresent k hk) _ (List.mem_map_of_mem hj)
  rw [State.vLine_isSome] at hhere
  rw [← Option.not_isSome, State.vLine_isSome, h.srcOf, h.readPa, hhere] at hnone
  cases hnone

/-- PERMUTE sends the chunks whose table entry names another rank. -/
theorem State.startPermute_counts {s t : State} (h : SameVirtual s t) {c : Coll}
    (hpresent : s.permSourceHere c = true)
    (htable : s.permTableHere c = true) : ListsKept t (t.startPermute c) ∧
    (t.startPermute c).rd .collPieceTxCnt c.die 0 = t.rd .collPieceTxCnt c.die 0 + BitVec.ofNat 64
      ((List.range c.elems).countP fun k => ((s.permTable c).1.getD (c.rank * c.elems + k) (0, 0)).1 != c.rank) := by
  obtain ⟨u, hu⟩ : ∃ u, u = t.clamped c.cluster (t.permTable c).2 := ⟨_, rfl⟩
  have hclamped : Reach 0x10000000000000000000000000000 t u := hu ▸ State.clamped_reach ..
  have hsame : SameVirtual s u := h.trans (hclamped.sameVirtual (by decide))
  obtain ⟨n, heq⟩ := State.startPermute_of_present hu (hsame.permReads_present hpresent) ((hsame.permTableHere c).trans htable)
  have hread := (u.setColl { c with need := n }).readVLines_reach { c with need := n } (u.srcOf c).base (c.elems * c.pieceLines)
  have hstart := (((ListsKept.refl t).reach hclamped rfl).setColl { c with need := n }).reach hread rfl
  have hones : ∀ p : Nat → Bool, ((u.permReads c).map fun r => if p r.1 then 1 else 0).sum = (List.range c.elems).countP p := fun p => by
    rw [State.permReads, List.map_map]
    refine (sum_map_ite_zero p (fun _ => 1) (List.range c.elems)).trans ?_
    rw [List.map_const', List.sum_replicate, smul_eq_mul, Nat.mul_one, List.countP_eq_length_filter]
  rw [heq]
  refine ⟨hstart.foldl _ fun u r hu => hu.permuteChunk .., (State.foldl_permuteChunk_count _ { c with need := n } ..).trans ?_⟩
  rw [hread.rd_eq .collPieceTxCnt rfl, (State.setColl_reach ..).rd_eq .collPieceTxCnt rfl, hclamped.rd_eq .collPieceTxCnt rfl, h.permTable]
  exact congrArg (fun m => t.rd .collPieceTxCnt c.die 0 + BitVec.ofNat 64 m)
    (hones fun k => ((s.permTable c).1.getD (c.rank * c.elems + k) (0, 0)).1 != c.rank)

/-! ## RING (R552) -/

theorem ReadsAlike.vLines {s t : State} (h : ReadsAlike s t) (die owner va n : Nat) : t.vLines die owner va n = s.vLines die owner va n := by
  simp only [State.vLines, State.vLine, h.virt.readPa, h.memBytes, h.poisonAt]

/-- A traversal at its start, with its own slice and its head ring (R552, R553); a backward of one rank is at its step 1 at once. -/
def Coll.atStart (c : Coll) (kv : List (Nat × List LineSeg)) (addr tok : Nat) : Coll :=
  { c with kv := kv, ringAddr := addr, tokenBase := tok, step := if c.bwd && c.degree == 1 then 1 else 0 }

/-- A traversal begun with its own slice. -/
def State.beginTraversal (s : State) (c : Coll) (kv : List (Nat × List LineSeg)) (addr tok : Nat) : State :=
  (if c.bwd && c.degree == 1 then s.clearAcc (c.atStart kv addr tok) else s).advanceRing (c.atStart kv addr tok)

theorem State.startRing_of_present {s : State} {c : Coll}
    (hpresent : ((s.vLines c.die c.owner (s.srcOf c).base c.elems).all fun x => x.isSome) = true) : ∃ addr tok, s.startRing c =
      (s.readVLines c (s.srcOf c).base c.elems).beginTraversal c ((List.range (pieceCount c.elems c.pieceLines)).map fun i =>
        (c.rank * 2 ^ 24 + i, (((s.vLines c.die c.owner (s.srcOf c).base c.elems).filterMap id).drop (i * c.pieceLines)).take c.pieceLines))
        addr tok := by
  have hnone : ¬((s.vLines c.die c.owner (s.srcOf c).base c.elems).any fun x => x.isNone) = true := fun hany => by
    obtain ⟨x, hx, hxnone⟩ := List.any_eq_true.mp hany
    rw [← Option.not_isSome, List.all_eq_true.mp hpresent x hx] at hxnone
    cases hxnone
  exact ⟨_, _, if_neg hnone⟩

/-- A ring of two ranks or more begins at step 0. -/
theorem State.beginTraversal_stands {s : State} {c d : Coll} (hfound : s.findColl c.cluster c.launch = some d) (hdegree : 2 ≤ c.degree)
    (kv : List (Nat × List LineSeg)) (addr tok : Nat) : ListsKept s (s.beginTraversal c kv addr tok) ∧
      ((s.beginTraversal c kv addr tok).findColl c.cluster c.launch).map (fun x => (x.kv, x.step)) = some (kv, 0) := by
  have hone : ¬(c.bwd && c.degree == 1) = true := by
    rw [beq_false_of_ne (by omega), Bool.and_false]
    exact Bool.false_ne_true
  have hmoved := State.advanceRing_kept (c := c.atStart kv addr tok) hfound fun x => (x.2.1, x.2.2.2)
  rw [State.beginTraversal, if_neg hone]
  exact ⟨(ListsKept.refl s).advanceRing _, hmoved.trans (congrArg (fun n => some (kv, n)) (if_neg hone))⟩

/-- RING begins at step 0 with its own slice. -/
theorem State.startRing_stands {s t : State} (h : ReadsAlike s t) {c : Coll} (hfound : t.findColl c.cluster c.launch = some c)
    (hdegree : 2 ≤ c.degree) (hpresent : ((s.vLines c.die c.owner (s.srcOf c).base c.elems).all fun x => x.isSome) = true) :
    ListsKept t (t.startRing c) ∧ ((t.startRing c).findColl c.cluster c.launch).map (fun x => (x.kv, x.step)) =
      some ((List.range (pieceCount c.elems c.pieceLines)).map fun i =>
        (c.rank * 2 ^ 24 + i, (((s.vLines c.die c.owner (s.srcOf c).base c.elems).filterMap id).drop (i * c.pieceLines)).take c.pieceLines), 0) := by
  rw [← h.virt.srcOf, ← h.vLines] at hpresent ⊢
  obtain ⟨addr, tok, heq⟩ := State.startRing_of_present hpresent
  have hread := t.readVLines_reach c (t.srcOf c).base c.elems
  obtain ⟨hkept, hstands⟩ := State.beginTraversal_stands
    ((State.findColl_congr (congrArg CollEngine.running (hread.same .coll rfl)) ..).trans hfound) hdegree _ addr tok
  rw [heq]
  exact ⟨((ListsKept.refl t).reach hread rfl).trans hkept, hstands⟩

/-! ## A command begins -/

section
variable {s u : State} {c : Coll} (h : Begun s u c)
include h

/-- The reads of a command's source leave it begun. -/
theorem Begun.afterReads : Begun s (u.collReads c) c ∧ ListsKept u (u.collReads c) :=
  ⟨h.after ((QuietKept.refl u).collReads h.quiet c), (ListsKept.refl u).reach (State.collReads_reach ..) rfl⟩

theorem Begun.startColl_reduces (hop : c.op = 0 ∨ c.op = 1) (hdegree : 2 ≤ c.degree) (hsource : s.collSourceOk c = true) (hgot : c.got = 0)
    (hsent : c.dataSent = false) : ListsKept u (u.startColl c) ∧
    ((u.startColl c).findColl c.cluster c.launch).map (fun x => ((x.need, x.got), (x.nf, x.dataSent))) =
      some (((s.reducing c).need, 0), (s.localFlag c, !c.exact)) := by
  obtain ⟨hread, hlists⟩ := h.afterReads
  obtain ⟨hkept, hfound⟩ := hread.startReduce hdegree
  rw [State.startColl_reduce hop (h.sourceOk hsource)]
  refine ⟨hlists.trans hkept, ?_⟩
  rw [hfound, Option.map_some]
  cases hexact : c.exact with
  | true => rw [if_pos rfl, show (s.reducing c).got = 0 from hgot, show (s.reducing c).dataSent = false from hsent]; rfl
  | false => rw [if_neg Bool.false_ne_true, show (s.reducing c).sending.got = 0 from hgot]; rfl

theorem Begun.startColl_gathers (hop : c.op = 2 ∨ c.op = 5) (hdegree : 2 ≤ c.degree) (hsource : s.collSourceOk c = true)
    (howns : (if c.op = 5 then c.root else c.rank) = c.rank) : ListsKept u (u.startColl c) ∧
    (u.startColl c).rd .collPieceTxCnt c.die 0 = s.rd .collPieceTxCnt c.die 0 + BitVec.ofNat 64 (c.gatherPieces (s.srcOf c) c.rank).length := by
  obtain ⟨hread, hlists⟩ := h.afterReads
  obtain ⟨hkept, hcount⟩ := hread.startGather hdegree howns
  rw [State.startColl_gather hop (h.sourceOk hsource)]
  exact ⟨hlists.trans hkept, hcount⟩

theorem Begun.startColl_exchanges (hop : c.op = 3) (hsource : s.collSourceOk c = true) : ListsKept u (u.startColl c) ∧
    (u.startColl c).rd .collPieceTxCnt c.die 0 = s.rd .collPieceTxCnt c.die 0 + BitVec.ofNat 64
      (((List.range c.degree).filter fun k => k != c.rank).map fun k => pieceCount ((c.chunk k).2 - (c.chunk k).1) (c.codesPer (s.srcOf c).fmt)).sum := by
  obtain ⟨hread, hlists⟩ := h.afterReads
  obtain ⟨n, heq⟩ := State.startColl_exchange hop (h.sourceOk hsource)
  have hset := hread.reach.then ((u.collReads c).setColl_reach { c with need := n }) rfl
  obtain ⟨hkept, hcount⟩ := State.startExchange_counts (hset.sameVirtual (by decide)) { c with need := n }
  rw [heq]
  exact ⟨(hlists.setColl _).trans hkept, hcount.trans (congrArg (· + _) (hset.rd_eq .collPieceTxCnt rfl _ _))⟩

theorem Begun.startColl_permutes (hop : c.op = 4)
    (hpresent : s.permSourceHere c = true)
    (htable : s.permTableHere c = true) : ListsKept u (u.startColl c) ∧
    (u.startColl c).rd .collPieceTxCnt c.die 0 = s.rd .collPieceTxCnt c.die 0 + BitVec.ofNat 64
      ((List.range c.elems).countP fun k => ((s.permTable c).1.getD (c.rank * c.elems + k) (0, 0)).1 != c.rank) := by
  rw [State.startColl_permute hop, ← h.reach.rd_eq .collPieceTxCnt rfl]
  exact State.startPermute_counts h.reads hpresent htable

theorem Begun.startColl_checks {q : Seq} (hop : c.op = 7) (hopen : bitOf (s.rd .collNfGate c.die) c.owner = false)
    (hseq : s.findSeq c.cluster c.launch = some q) : ListsKept u (u.startColl c) ∧
    (u.startColl c).rd .collOpCnt c.die 0 = s.rd .collOpCnt c.die 0 + 1#64 ∧
    (u.startColl c).findSeq c.cluster c.launch =
      some { q with ops := q.ops + 1, next := c.next, commitBeam := s.beamNow, ended := q.ended || c.next == 0 } := by
  have hseq' : u.findSeq c.cluster c.launch = some q := (State.findSeq_congr (h.reach.same .seqs rfl) ..).trans hseq
  rw [State.startColl_check hop (h.reach.rd_eq .collNfGate rfl c.die 0 ▸ hopen)]
  refine ⟨(ListsKept.refl u).endColl .., ?_, ?_⟩
  · rw [(u.endColl_counts c stOk false).1, h.reach.rd_eq .collOpCnt rfl]
  · rw [State.endColl_findSeq hseq' (by decide), ((ClockKept.refl s).reach h.reach rfl).beamNow]

end

/-! ## The statement about starts (O40) -/

/-- Settles O40: each command by the start of its operation in the state in which it begins. -/
theorem collectivesBegin : Obligations.CollectivesBegin := by
  refine ⟨?allReduce, ?reduceScatter, ?allGather, ?allToAll, ?permute, ?broadcast, ?ring, ?nfCheck⟩
  case allReduce =>
    rintro s cluster launch image q cl la c hfree hseq hcoll ⟨hdegree, hsource⟩
    obtain ⟨hcluster, hlaunch, hgot, hsent⟩ : c.cluster = cl ∧ c.launch = la ∧ c.got = 0 ∧ c.dataSent = false := s.handed_fresh cl la q image
    refine gives_begun rfl hfree hseq hcoll fun u d hd hbegun _ => ?_
    obtain rfl : d = c := hd
    have hstart := hbegun.startColl_reduces (.inl hcoll.1) hdegree hsource hgot hsent
    rwa [State.reducing_need_all hcoll.1, hcluster, hlaunch] at hstart
  case reduceScatter =>
    rintro s cluster launch image q cl la c hfree hseq hcoll ⟨hdegree, hsource⟩
    obtain ⟨hcluster, hlaunch, hgot, hsent⟩ : c.cluster = cl ∧ c.launch = la ∧ c.got = 0 ∧ c.dataSent = false := s.handed_fresh cl la q image
    refine gives_begun rfl hfree hseq hcoll fun u d hd hbegun _ => ?_
    obtain rfl : d = c := hd
    have hstart := hbegun.startColl_reduces (.inr hcoll.1) hdegree hsource hgot hsent
    rwa [State.reducing_need_scatter hcoll.1, hcluster, hlaunch] at hstart
  case allGather =>
    rintro s cluster launch image q cl la c hfree hseq hcoll ⟨hdegree, hsource⟩
    refine gives_begun rfl hfree hseq hcoll fun u d hd hbegun _ => ?_
    obtain rfl : d = c := hd
    exact hbegun.startColl_gathers (.inl hcoll.1) hdegree hsource (if_neg (by rw [hcoll.1]; decide))
  case allToAll =>
    rintro s cluster launch image q cl la c others hfree hseq hcoll ⟨-, hsource⟩
    refine gives_begun rfl hfree hseq hcoll fun u d hd hbegun _ => ?_
    obtain rfl : d = c := hd
    exact hbegun.startColl_exchanges hcoll.1 hsource
  case permute =>
    rintro s cluster launch image q cl la c hfree hseq hcoll ⟨hpresent, htable⟩
    refine gives_begun rfl hfree hseq hcoll fun u d hd hbegun _ => ?_
    obtain rfl : d = c := hd
    exact hbegun.startColl_permutes hcoll.1 hpresent htable
  case broadcast =>
    rintro s cluster launch image q cl la c hfree hseq hcoll ⟨hdegree, hroot, hsource⟩
    refine gives_begun rfl hfree hseq hcoll fun u d hd hbegun _ => ?_
    obtain rfl : d = c := hd
    rw [← hroot]
    exact hbegun.startColl_gathers (.inr hcoll.1) hdegree hsource ((if_pos hcoll.1).trans hroot.symm)
  case ring =>
    rintro s cluster launch image q cl la c ls hfree hseq hcoll ⟨hdegree, hpresent⟩
    obtain ⟨hcluster, hlaunch, -⟩ : c.cluster = cl ∧ c.launch = la ∧ c.got = 0 ∧ c.dataSent = false := s.handed_fresh cl la q image
    refine gives_begun rfl hfree hseq hcoll fun u d hd hbegun halike => ?_
    obtain rfl : d = c := hd
    have hstart := State.startRing_stands halike hbegun.found hdegree hpresent
    rw [State.startColl_ring hcoll.1]
    rwa [hcluster, hlaunch] at hstart
  case nfCheck =>
    rintro s cluster launch image q cl la c hfree hseq hcoll hopen
    obtain ⟨hcluster, hlaunch, -⟩ : c.cluster = cl ∧ c.launch = la ∧ c.got = 0 ∧ c.dataSent = false := s.handed_fresh cl la q image
    refine gives_begun rfl hfree hseq hcoll fun u d hd hbegun _ => ?_
    obtain rfl : d = c := hd
    have hstart := hbegun.startColl_checks (q := q) hcoll.1 hopen (by rw [hcluster, hlaunch]; exact hseq.1)
    rwa [hcluster, hlaunch] at hstart

end Sys2Proof.Machine
end
